-- ==== Sys2Proof/Word.lean ====
section
/-! DEFINITION. The words of the VB-7260: bytes, point values, tick stamps, and the plainest operations over
fixed-size vectors and sparse sorted tables that the rest of the model is built from. -/

namespace Sys2Proof

/-- One byte of a packet, a frame or a memory. -/
abbrev Byte := BitVec 8

/-- The 16-bit value of a point (chapter 04). -/
abbrev PVal := BitVec 16

/-- A tick stamp (R9): the epoch in bits [63:48] and the tick count in bits [47:0]. -/
structure Stamp where
  epoch : Nat := 0
  tick : Nat := 0
  deriving DecidableEq, Repr, Inhabited

/-- The 64-bit word a stamp is written as (R9). -/
def Stamp.word (t : Stamp) : Nat := t.epoch % 65536 * 2 ^ 48 + t.tick % 2 ^ 48

/-- The stamp a 64-bit word holds (R9). -/
def Stamp.ofWord (w : Nat) : Stamp := ⟨w / 2 ^ 48 % 65536, w % 2 ^ 48⟩

/-- A 32-bit saturating count after adding `k` (the manual's counters saturate). -/
def satAdd32 (n k : Nat) : Nat := min (n + k) 0xFFFFFFFF

/-- A 16-bit saturating value. -/
def sat16 (n : Nat) : Nat := min n 0xFFFF

/-- An 8-bit saturating value. -/
def sat8 (n : Nat) : Nat := min n 0xFF

/-- Read entry `i` of a vector; the type's default outside it. -/
def vget {α : Type} {n : Nat} [Inhabited α] (v : Vector α n) (i : Nat) : α :=
  if h : i < n then v[i] else default

/-- Change entry `i` of a vector; nothing happens outside it. -/
def vmod {α : Type} {n : Nat} (v : Vector α n) (i : Nat) (f : α → α) : Vector α n :=
  if h : i < n then v.set i (f v[i]) else v

/-- Change every entry of a vector, by its index. -/
def vmapIdx {α : Type} {n : Nat} (v : Vector α n) (f : Nat → α → α) : Vector α n :=
  v.mapIdx f

/-- A vector built from its index. -/
def vtab {α : Type} (n : Nat) (f : Nat → α) : Vector α n :=
  Vector.ofFn fun i => f i.val

/-- A sparse table: (key, value) pairs in strictly rising key order, none of them equal to the value
an unlisted key reads as. -/
abbrev Tbl (α : Type) := List (Nat × α)

/-- Read key `k`; `d` where it is not listed. -/
def Tbl.get {α : Type} (t : Tbl α) (d : α) (k : Nat) : α :=
  match t with
  | [] => d
  | (j, v) :: r => if j = k then v else Tbl.get r d k

/-- Write key `k`: the entry takes its place in rising order, and writing the value an unlisted key reads as
removes it, so equal tables are equal data. -/
def Tbl.put {α : Type} [DecidableEq α] (t : Tbl α) (d : α) (k : Nat) (v : α) : Tbl α :=
  match t with
  | [] => if v = d then [] else [(k, v)]
  | (j, w) :: r =>
    if k < j then (if v = d then (j, w) :: r else (k, v) :: (j, w) :: r)
    else if k = j then (if v = d then r else (k, v) :: r)
    else (j, w) :: Tbl.put r d k v

/-- Every key of `t` lies above `lo`, keys rise strictly, and no value is the default `d`. -/
def Tbl.wfFrom {α : Type} [DecidableEq α] (d : α) (lo : Option Nat) : Tbl α → Bool
  | [] => true
  | (j, v) :: r =>
    (match lo with
     | none => true
     | some k => decide (k < j)) && decide (v ≠ d) && Tbl.wfFrom d (some j) r

/-- The canonical form of a table. -/
def Tbl.wf {α : Type} [DecidableEq α] (d : α) (t : Tbl α) : Bool := Tbl.wfFrom d none t

/-- Bits [lo + w − 1 : lo] of a number. -/
def bitsOf (n lo w : Nat) : Nat := n >>> lo % 2 ^ w

/-- Bit `k` of a number. -/
def bitAt (n k : Nat) : Bool := n.testBit k

/-- A Bool as the bit it is written as. -/
def b2n (b : Bool) : Nat := if b then 1 else 0

/-- Set or clear bit `k`. -/
def setBit (n k : Nat) (b : Bool) : Nat :=
  if b then n ||| (1 <<< k) else n ^^^ (n &&& (1 <<< k))

/-- The little-endian number that a list of bytes spells (R7). -/
def leNat : List Byte → Nat
  | [] => 0
  | b :: r => b.toNat + 256 * leNat r

/-- `n` bytes, little-endian, of a number (R7). -/
def leBytes : Nat → Nat → List Byte
  | 0, _ => []
  | n + 1, v => BitVec.ofNat 8 v :: leBytes n (v / 256)

/-- `n` bytes, most significant first, of a number: the byte order of wire fields and of IVs (R7). -/
def beBytes (n v : Nat) : List Byte := (leBytes n v).reverse

/-- The number that bytes spell most significant first. -/
def beNat (l : List Byte) : Nat := leNat l.reverse

/-- Exactly `n` bytes: cut, or filled with zeros. -/
def padTo (n : Nat) (l : List Byte) : List Byte := (l ++ List.replicate (n - l.length) 0).take n

/-- A 16-bit two's complement value as an integer. -/
def sInt16 (v : PVal) : Int := v.toInt

/-- The indices below `n` whose bit is set in `m`, ascending. -/
def bitList (n m : Nat) : List Nat := (List.range n).filter fun k => m.testBit k

/-- The first status of a list of (condition, status) checks whose condition holds. -/
def firstOf {σ : Type} : List (Bool × σ) → Option σ
  | [] => none
  | (c, x) :: r => if c then some x else firstOf r

end Sys2Proof
end

