-- ==== Sys2Proof/Wire.lean ====
section
/-! DEFINITION. What crosses the block's edge: command packets, internal-link and barrier-link frames, bus and
Ethernet frames, capture records, satellite records and token responses. These are the operands of the commands. -/

namespace Sys2Proof

/-- A command packet as it was submitted (R78): the issuer, the ring and slot it stands in, the arrival stamp of its
doorbell (R33), and its bytes, header included (64 bytes for each slot). -/
structure Packet where
  comp : Nat
  ring : Nat
  slot : Nat
  arrival : Stamp
  bytes : List Byte
  deriving DecidableEq, Repr, Inhabited

/-- One tick's output commands: the tick (in the tick hall's running count) and the points commanded in it. -/
structure TickCmds where
  lin : Nat
  cmds : List (Nat × PVal)
  deriving DecidableEq, Repr, Inhabited

/-- An internal-link frame from the tick hall to the power die (R66, R69): its CRC result, its stamp, the commands of its
tick and of the seven ticks before it, oldest first, and the adoption flag with its snapshot number. -/
structure L2Frame where
  crcOk : Bool := true
  lin : Nat := 0
  ticks : List TickCmds := []
  adopt : Bool := false
  snapshot : Nat := 0
  deriving DecidableEq, Repr, Inhabited

/-- One change entry of a field frame (Table 08.10). -/
structure FieldChg where
  input : Nat
  offset : Nat
  value : Bool
  deriving DecidableEq, Repr, Inhabited

/-- The frame from the field die for one window (Table 08.10). -/
structure FieldFrame where
  crcOk : Bool := true
  stale : Bool := false
  restarted : Bool := false
  window : Nat := 0
  fiState : Nat := 0
  fsa : Nat := 0
  fsb : Nat := 0
  foState : Nat := 0
  foFault : Nat := 0
  chg : List FieldChg := []
  telemSel : Nat := 0
  telem : Nat := 0
  deriving DecidableEq, Repr, Inhabited

/-- The frame to the field die for one window (Table 08.9); `fo` holds the sixteen FO bytes. -/
structure MainFrame where
  crcOk : Bool := true
  park : Bool := false
  cfgValid : Bool := false
  tick : Nat := 0
  fo : List Nat := []
  cfgAddr : Nat := 0
  cfgData : Nat := 0
  deriving DecidableEq, Repr, Inhabited

/-- A CAN frame on the bus (R231). `len` is the length its DLC encodes; `data` is empty for a remote frame; `res` says that its res bit
is recessive. -/
structure CanFrame where
  id : Nat := 0
  ide : Bool := false
  fdf : Bool := false
  brs : Bool := false
  rtr : Bool := false
  esi : Bool := false
  res : Bool := false
  len : Nat := 0
  data : List Byte := []
  deriving DecidableEq, Repr, Inhabited

/-- A capture record (Table 01.8); BLOCKS follows from the payload. -/
structure CapRecord where
  stamp : Stamp := {}
  cls : Nat := 0
  hall : Nat := 0
  value : Nat := 0
  word : Nat := 0
  payload : List Byte := []
  deriving DecidableEq, Repr, Inhabited

/-- What MACsec puts on the wire behind the addresses (R267): SCI, AN, the 32 low bits of the PN, whether the data is encrypted, the data and the 16-byte ICV. -/
structure SecTag where
  sci : Nat
  an : Nat
  pn : Nat
  encrypted : Bool := true
  data : List Byte := []
  icv : List Byte := []
  deriving DecidableEq, Repr, Inhabited

/-- An Ethernet frame (R262, R265). `body` is the payload after the EtherType; the tag, EtherType and payload of a protected frame stand in the data of `sec`. -/
structure EthFrame where
  dst : Nat := 0
  src : Nat := 0
  tagged : Bool := false
  vid : Nat := 0
  pcp : Nat := 0
  etherType : Nat := 0
  body : List Byte := []
  fcsOk : Bool := true
  sec : Option SecTag := none
  deriving DecidableEq, Repr, Inhabited

/-- A host SPI frame (Table 03.10); `crc` is the host's CRC of a write frame. -/
structure SpiFrame where
  cmd : Nat := 0
  addr : Nat := 0
  length : Nat := 0
  byte7 : Nat := 0
  data : List Byte := []
  crc : Nat := 0
  deriving DecidableEq, Repr, Inhabited

/-- A satellite's status record as it returns (Table 07.8); `crcOk` is the check of SCRC. -/
structure SatStatus where
  address : Nat := 0
  seq : Nat := 0
  shareOk : Bool := false
  failActive : Bool := false
  fcode : Nat := 0
  temp : Nat := 0
  detail : Nat := 0
  crcOk : Bool := true
  deriving DecidableEq, Repr, Inhabited

/-- A satellite's identity record (Table 07.9); `crcOk` is the check of ICRC. -/
structure SatIdent where
  address : Nat := 0
  formats : Nat := 0
  points : Nat := 0
  maker : Nat := 0
  product : Nat := 0
  revision : Nat := 0
  serial : Nat := 0
  crcOk : Bool := true
  deriving DecidableEq, Repr, Inhabited

/-- What comes back at IVGn_RET for one frame (R200): nothing in time, or a frame with its records. -/
structure IvgReturn where
  lost : Bool := false
  hcrcOk : Bool := true
  seq : Nat := 0
  statuses : List SatStatus := []
  idents : List SatIdent := []
  deriving DecidableEq, Repr, Inhabited

/-- What the receiver module has put out in a response slot (R355): how many ns after the slot's opening a SYNC has ended, none where there was
none; the demodulated chips after it, two to a bit; and when the last of them ended. -/
structure TokenResponse where
  sync : Option Nat := none
  chips : List Bool := []
  doneAt : Nat := 0
  deriving DecidableEq, Repr, Inhabited

/-- A token's answer as it is decoded (R355): INDEX, STATUS and RESPONSE. -/
structure TokenAnswer where
  index : Nat := 0
  status : Nat := 0
  response : List Byte := []
  deriving DecidableEq, Repr, Inhabited

/-- An NM message (Table 11.5). -/
structure NmMessage where
  source : Nat := 0
  active : Bool := false
  wake : Bool := false
  ring : Bool := false
  sleepInd : Bool := false
  sleepAck : Bool := false
  dest : Nat := 0xFF
  reason : Nat := 0
  user : Nat := 0
  deriving DecidableEq, Repr, Inhabited

/-- Where an output stands on the power die: a high-side channel, a half-bridge, a valve low-side, a valve feed or a string. -/
structure OutputId where
  kind : Nat
  index : Nat
  deriving DecidableEq, Repr, Inhabited

/-- The switch dissipation and currents the package manager measures (R138): averages over 100 ms and 1 s, and the
same quantities over the last 1 ms of the channels still driving. Power in mW, currents in mA. -/
structure Thermals where
  pAvg : Nat := 0
  pNow : Nat := 0
  bankAvg : List Nat := []
  bankNow : List Nat := []
  modAvg : Nat := 0
  modNow : Nat := 0
  moduleTemp : Nat := 0
  deriving DecidableEq, Repr, Inhabited

/-- A stretch of ticks as an output's own current sensing saw it (R128, R156): whether the output conducted in them (an off-phase of its PWM does not),
whether it limited, and how many ticks there were. -/
structure LimitRun where
  on : Bool := true
  limiting : Bool := false
  ticks : Nat := 0
  deriving DecidableEq, Repr, Inhabited

/-- What a channel's or a motor's own current sensing saw: the unit and its stretches of ticks (R128, R156). -/
structure LimitTrace where
  unit : Nat := 0
  runs : List LimitRun := []
  deriving DecidableEq, Repr, Inhabited

/-- An output whose current passes its hard-short threshold (R129), and that current, in mA. -/
structure Overcurrent where
  output : OutputId := default
  mA : Nat := 0
  deriving DecidableEq, Repr, Inhabited

/-- What a group of eight switch inputs shows at the end of its pulse (R209), in mV. -/
structure SenseGroup where
  group : Nat := 0
  mvs : List Nat := []
  deriving DecidableEq, Repr, Inhabited

/-- How a transmission ended (R245): 0 transmitted, 1 arbitration lost, 2 an error, and the measured transceiver delay TDCV (R236). -/
structure TxEnd where
  outcome : Nat := 0
  tdcv : Nat := 0
  deriving DecidableEq, Repr, Inhabited

/-- A bit error of a transmitter (R247): its controller and the measured transceiver delay TDCV (R236). -/
structure TxClash where
  controller : Nat := 0
  tdcv : Nat := 0
  deriving DecidableEq, Repr, Inhabited

/-- A bus error of a controller (R248), as transmitter or receiver: 0 the error itself, 1 the dominant bit of another node after its error flag, a bit error in
that flag, or eight more dominant bits, which its counter takes as 8 more; 2 an error of a transmitter that TEC leaves out. -/
structure BusErr where
  tx : Bool := false
  kind : Nat := 0
  deriving DecidableEq, Repr, Inhabited

/-- A send whose TX_TIMEOUT has passed (R249), and whether its start-of-frame bit has been sampled (R246). -/
structure TxExpiry where
  handle : Nat := 0
  sof : Bool := false
  deriving DecidableEq, Repr, Inhabited

/-- What a controller saw on its bus (R235): 11 recessive bits, or, with `idle`, the idle bus that records of a new
configuration wait for. -/
structure BusQuiet where
  controller : Nat := 0
  idle : Bool := false
  deriving DecidableEq, Repr, Inhabited

/-- A port that has trained, and whether its link partner leads (R258, R259). -/
structure LinkTrained where
  port : Nat := 0
  partnerLeads : Bool := false
  deriving DecidableEq, Repr, Inhabited

/-- The four times of a peer-delay exchange, in ns (R273): the request sent, received by the partner, its response sent, and received. -/
structure PeerTimes where
  t1 : Nat := 0
  t2 : Nat := 0
  t3 : Nat := 0
  t4 : Nat := 0
  deriving DecidableEq, Repr, Inhabited

/-- What a wake source shows: its index in its cause (Table 11.2), and, on a CAN or LIN bus, the phases of its detector in ns, dominant and recessive by
turns (R289). -/
structure WakeSign where
  index : Nat := 0
  phases : List Nat := []
  deriving DecidableEq, Repr, Inhabited

/-- A logbook record before it is chained (Table 15.4). -/
structure LogItem where
  type : Nat := 0
  critical : Bool := false
  comp : Nat := 0
  payload : List Byte := []
  deriving DecidableEq, Repr, Inhabited

/-- A block of an item that the candidate image or the live image placed (R340). -/
structure TrialItem where
  comp : Nat := 0
  ring : Nat := 0
  slot : Nat := 0
  arrival : Nat := 0
  exec : Nat := 0
  bytes : List Byte := []
  deriving DecidableEq, Repr, Inhabited

end Sys2Proof
end

