-- ==== Sys2Proof/Syntax.lean ====
section
/-! DEFINITION. The commands of the VB-7260: one constructor for each row of the command table. A command packet of an
opcode row comes with the packet itself; a hardware event comes with what the hardware measured. -/

namespace Sys2Proof

/-- The commands. -/
inductive Instr where
  /-- The tick hall generates a 125 ns tick, sends tokens to every hall, a sync word every 256 ticks, and the L2 and
  L3 frames of that tick. (R15) -/
  | tick
  /-- A hall's local count disagrees with a sync word, which is a hall fault with cause TOKEN. (R16) -/
  | hallTokenMismatch (hall : Nat)
  /-- The 40 MHz crystal stops; the tick PLL switches to the RC reference without a gap and CLOCK_LOSS is posted.
  (R17) -/
  | crystalLoss
  /-- Beam is entered: the epoch is incremented and committed, EPOCH_START is posted, and armed captures and trials
  begin at tick 0. (R18) -/
  | beamEntry
  /-- The tick count of an epoch would pass 0xFFFF_FFFF_FFFF, so the epoch is incremented and the count restarts at 0
  as on a Beam entry. (R18) -/
  | epochRollover
  /-- A landing releases the events stamped t, in stamp and tie order, once every joined input has reported progress
  for t. (R20) -/
  | landingRelease (landing : Nat) (t : Nat)
  /-- A producing hall reports to a landing that it has sent all events up to a tick. (R19) -/
  | progressReport (landing : Nat) (hall : Nat) (t : Nat)
  /-- A stream's lag exceeds 64 ticks; the hall is faulted, dropped from landings, and the response of Table 01.5
  follows. (R26) -/
  | hallLagFault (hall : Nat)
  /-- The power sequencer switches a hall's domain off and its streams leave every landing at a tick boundary. (R23) -/
  | hallLeave (hall : Nat)
  /-- A hall whose domain came on joins its landings at the first multiple of 256 after a verified sync word. (R23) -/
  | hallJoin (hall : Nat)
  /-- The main die receives a field frame for a window and delivers its input changes, supply classes and output
  faults. (R224) -/
  | barrierFrameRx (crcOk : Bool)
  /-- No frame has arrived 32 ticks after a window ends; the window is completed empty and a miss is counted. (R22) -/
  | barrierWindowMiss (window : Nat)
  /-- The verdict of a secure CAN frame is delivered into L0, 32 ticks after acceptance. (R28) -/
  | secureCanVerdict (c : Nat)
  /-- At each checkpoint interval, the capture writes a CHECKPOINT mark with the running result digest. (R38) -/
  | captureCheckpoint
  /-- The CAPTURE.START opcode arms a capture for the next Beam, or starts one at once, into the capture area or ring
  63. (R40) -/
  | captureStart (p : Packet)
  /-- The CAPTURE.STOP opcode ends or disarms a capture and returns its counts and result digest. (R40) -/
  | captureStop (p : Packet)
  /-- The REPLAY.RUN opcode checks digests, loads carried state and replays a capture in a new epoch under debug
  unlock. (R42) -/
  | replayRun (p : Packet)
  /-- The replay reader takes the next record and feeds it into the plane in place of the live source. (R43) -/
  | replayRecordRead
  /-- In live replay the reader lags by more than 64 ticks and the replay ends with S_TIMEOUT. (R44) -/
  | replayReaderLag (lag : Nat)
  /-- A replay ends; a logbook record is written and the device re-enters Beam with a new epoch. (R45) -/
  | replayEnd
  /-- VBATL first rises and a cold start runs steps A to H, ending in Beam with READY high. (R58) -/
  | firstPowerUp (mv : Nat)
  /-- VBATL falls below WARN; SUPPLY_WARN is set and posted, and the keeper flushes logbook records and the seal.
  (R49) -/
  | vbatlBelowWarn (mv : Nat)
  /-- VBATL rises above WARN plus 0.5 V; G83:0041 returns to 0 and SUPPLY_WARN is posted. (R49) -/
  | vbatlAboveWarn (mv : Nat)
  /-- VBATL falls below 5.5 V and the always-on hall asserts a logic reset. (R50) -/
  | vbatlLogicReset (mv : Nat)
  /-- VBATL has stayed above 6.0 V for 2 ms, so the logic reset is released. (R50) -/
  | logicResetRelease (mv : Nat)
  /-- VBATL falls below 4.5 V; every output turns off and the device takes a cold reset. (R51) -/
  | vbatlColdReset (mv : Nat)
  /-- VBATL rises above 5.0 V and the power-die core starts. (R51) -/
  | powerDieStart (mv : Nat)
  /-- RESET_N is held low long enough and a logic reset is asserted. (R63) -/
  | resetNLow (ns : Nat)
  /-- The keeper pair's lockstep comparison fails and a logic reset follows. (R63) -/
  | keeperLockstepMismatch
  /-- The keeper watchdog expires and a logic reset follows. (R63) -/
  | keeperWatchdog
  /-- An application pair's lockstep check fails and that pair is reset. (R63) -/
  | pairLockstepMismatch (pair : Nat)
  /-- After a logic reset, the device runs steps B to H with adoption and ends in Beam at tick 0 of a new epoch. (R64) -/
  | logicRestart
  /-- The power die receives an internal-link frame, checks its CRC and stamp, and applies its commands. (R66) -/
  | l2FrameRx (f : L2Frame)
  /-- After 8 ticks without a valid frame, the power die enters HOLD and starts the hold timer. (R66) -/
  | holdEntry
  /-- The hold timer expires before adoption and the power die applies the fail states. (R68) -/
  | holdTimerExpiry
  /-- The internal link to the power die is retrained after an H7 fault or a HOLD entry. (R69) -/
  | internalLinkRetrain
  /-- The keeper reads back output state and an ADOPT frame with the current snapshot makes the power die leave HOLD.
  (R69) -/
  | adoption
  /-- A bank crosses its warning threshold falling, so its SAG bit is set and SAG is posted. (R54) -/
  | bankBelowWarn (b : Nat) (mv : Nat)
  /-- A bank has stayed above warning plus 1 V for 100 ms, so SAG clears and is posted. (R54) -/
  | bankWarnRecovery (b : Nat) (mv : Nat)
  /-- A bank has been below T0 to T3 for 4,000 ticks; SHED_ALERT is posted or the channels of that level are shed.
  (R53) -/
  | shedCountExpiry (b : Nat) (level : Nat) (mv : Nat)
  /-- A bank has stayed above a shed threshold plus 1 V for 100 ms, so the hold ends and channels enter the resume
  queue. (R56) -/
  | shedRecovery (b : Nat) (level : Nat) (mv : Nat)
  /-- A bank falls below 6.0 V and every output on it is held off with cause SUPPLY. (R55) -/
  | bankDropout (b : Nat) (mv : Nat)
  /-- A bank has stayed above 7.0 V for 100 ms, so the SUPPLY hold ends. (R56) -/
  | dropoutRecovery (b : Nat) (mv : Nat)
  /-- A bank rises above 52.0 V and every output on it is held off with cause OVERVOLT. (R55) -/
  | bankOvervolt (b : Nat) (mv : Nat)
  /-- A bank has stayed below 51.0 V for 100 ms, so the OVERVOLT hold ends. (R56) -/
  | overvoltRecovery (b : Nat) (mv : Nat)
  /-- A bank crosses 40.0 V, or returns below 39.0 V, and diagnosis is suspended or resumed. (R46) -/
  | diagnosisLimit (b : Nat) (mv : Nat)
  /-- The next channel in a bank's resume queue returns to its commanded value, one every 32 ticks. (R56) -/
  | resumeQueueStep (b : Nat)
  /-- A bank crosses its dip level, so inrush windows, soft starts and stall timers on it freeze or count again.
  (R131) -/
  | bankDip (b : Nat) (mv : Nat)
  /-- An output's current exceeds its hard-short threshold and its own comparator turns it off. (R129) -/
  | hardShort (x : Overcurrent)
  /-- A channel has limited for 800 consecutive on-ticks outside its inrush window and turns off with SHORT detail 1.
  (R128) -/
  | overloadCountExpiry (x : LimitTrace)
  /-- A channel's inrush window ends; if the channel is still limiting, it reports INRUSH_FAIL. (R128) -/
  | inrushWindowEnd (ch : Nat) (limiting : Bool) (mA : Nat)
  /-- 100 ms after SHORT or INRUSH_FAIL, a channel with retries left turns on again. (R130) -/
  | retryTimerExpiry (ch : Nat)
  /-- A clamp event ends; its energy is added to the windows and the channel may be locked with CLAMP. (R133) -/
  | clampEventEnd (o : OutputId) (uJ : Nat)
  /-- Every 1 ms the wire model updates x, posts WIRE_WARN at 80 % and locks the channel at 100 %. (R135) -/
  | wireModelUpdate (ch : Nat) (mA : Nat) (avgMa : Nat)
  /-- An output junction reaches T_SD; it turns off with THERMAL, or locks after 16 restarts. (R137) -/
  | thermalShutdown (o : OutputId)
  /-- An output has cooled by T_HYS and restarts with a new inrush window. (R137) -/
  | thermalRestart (o : OutputId)
  /-- 10 s pass without a thermal shutdown and the restart count returns to 0. (R137) -/
  | restartCountReset (o : OutputId)
  /-- Every 1 ms while power or current is over its limit, the package manager cuts the next channel by priority.
  (R139) -/
  | thermalManagerCut (th : Thermals) (mW : Nat) (mA : Nat)
  /-- A cut channel's turn comes when margin allows; it returns or its hold ends, at most one per 100 ms. (R140) -/
  | thermalManagerReturn (th : Thermals)
  /-- An on-state current measurement counts toward OPEN detail 0. (R141) -/
  | onStateOpenCheck (ch : Nat) (uA : Nat)
  /-- An off-state check sources and sinks sense currents and counts toward OPEN or reports BACKFEED. (R142) -/
  | offStateCheck (ch : Nat) (aboveOl : Bool) (aboveBf : Bool) (belowEnd : Bool)
  /-- A PWM on-phase is stretched to the measurement minimum, its debt is recorded and one measurement is taken.
  (R143) -/
  | stretchPhase (ch : Nat) (uA : Nat)
  /-- Every 10 ms with OL_OFF 0, the pull-down check looks for an output held above the bank. (R145) -/
  | backfeedCheck (ch : Nat) (aboveBf : Bool) (belowEnd : Bool)
  /-- Reverse current above I_REV for 8 ticks forces the channel to 100 % duty and REVERSE is reported. (R146) -/
  | reverseCurrent (ch : Nat)
  /-- Reverse current has stayed below 0.5 A for 1 ms, so the commanded duty returns at the next period start. (R146) -/
  | reverseEnd (ch : Nat)
  /-- A half-bridge fault cause of Table 06.3 becomes active or ends. (R154) -/
  | hbFault (hb : Nat) (cause : Nat) (detail : Nat) (active : Bool)
  /-- A motor's BRAKE_MS ends; it takes its new state, or its run completes. (R152) -/
  | motorBrakeEnd (m : Nat)
  /-- A group becomes free and the lowest waiting motor of that group starts. (R152) -/
  | motorGroupStart (b : Nat)
  /-- A motor stalls by current limiting or by missing ripples, so its run or open-loop drive stops. (R156) -/
  | motorStall (x : LimitTrace)
  /-- A motor run reaches RUN_MAX and ends with S_TIMEOUT. (R157) -/
  | runMaxExpiry (m : Nat)
  /-- A run reaches its normal end (target, time or park input) and the drive stops. (R155) -/
  | runEndCondition (m : Nat)
  /-- A filtered ripple is counted and the motor position is updated: the `mean` and the `peak` of the motor's current over the period that it ends,
  in mA. (R158) -/
  | rippleCount (m : Nat) (mean : Nat) (peak : Nat)
  /-- No ripple has come within 1.8 mean periods, so a count is inserted, or after three inserts the position is
  marked invalid. (R158) -/
  | rippleInsert (m : Nat)
  /-- A pinch is detected and the motor brakes for 2 ms. (R162) -/
  | pinchDetect (m : Nat) (mA : Nat)
  /-- 2 ms after a pinch, the motor drives the opening direction at full duty. (R162) -/
  | pinchReversalStart (m : Nat)
  /-- A pinch reversal stops after PINCH_BACK ripples or a stall, and the run ends with cause PINCH. (R162) -/
  | pinchReversalEnd (m : Nat) (runs : List LimitRun)
  /-- A waiting valve request is granted once earlier requests are served and its claim fits the feed budget. (R171) -/
  | valveGrant (f : Nat)
  /-- A granted fire starts its program, at once or 16 ticks after its feed turned on. (R172) -/
  | valveProgramStart (v : Nat)
  /-- A valve request is not granted by DEFER_MAX and is refused with S_OVERLAP. (R172) -/
  | deferMaxExpiry (v : Nat)
  /-- The valve engine executes one program instruction. (R168) -/
  | valveInstruction (v : Nat) (mA : Nat)
  /-- A WAIT, WAITI, WAITDIP or WAITREL ends by its condition or its timeout. (R168) -/
  | valveWaitEnd (v : Nat) (mA : Nat)
  /-- The dip detector sees the configured number of samples below M minus depth, sets D and posts VALVE_DIP. (R169) -/
  | valveDipDetect (v : Nat) (mA : Nat)
  /-- A fire runs past FIRE_MAX and END is executed with S_TIMEOUT. (R170) -/
  | fireMaxExpiry (v : Nat)
  /-- After END, the current falls below 10 mA; the fire completes and VALVE_END is posted. (R165) -/
  | valveDecayEnd (v : Nat) (mA : Nat) (energy : Nat)
  /-- A feed or low-side fault cause of Table 06.9 becomes active or ends. (R174) -/
  | valveOutputFault (o : Nat) (cause : Nat) (detail : Nat) (active : Bool)
  /-- A string's soft-start window ends and its current is checked for INRUSH_FAIL. (R179) -/
  | stringSoftStartEnd (n : Nat) (mA : Nat)
  /-- 1 ms after every used segment reached 0, the string converter stops. (R179) -/
  | stringConverterStop (n : Nat)
  /-- A string or segment fault cause of Table 07.3 becomes active or ends. (R182) -/
  | stringFault (n : Nat) (cause : Nat) (detail : Nat) (active : Bool)
  /-- A running pattern engine makes an update every UPDATE ticks and writes its targets. (R186) -/
  | patternUpdate (e : Nat)
  /-- Pattern writes beyond 1,024 in a tick are applied in a following tick. (R187) -/
  | patternWriteDeferred
  /-- Point writes beyond 4,096 in a tick move to the following tick and are applied there first. (R108) -/
  | pointWriteDeferred
  /-- The reflex engine evaluates up to 16 queued or new trigger changes in a tick. (R116) -/
  | reflexEvaluate
  /-- Actions beyond 32 in a tick are applied in the next tick. (R117) -/
  | reflexActionDeferred
  /-- A PULSE action reaches its DURATION and its target returns to its former value. (R105) -/
  | pulseEnd (pt : Nat)
  /-- A RAMP action writes its next step to the target. (R105) -/
  | rampStep (pt : Nat)
  /-- A timer point is decremented on its timebase, and its step from 1 to 0 is a change. (R112) -/
  | timerExpiry (pt : Nat)
  /-- A switch-input filter output changes at a sample and G81 is written with the stamp of the sample. (R207) -/
  | siFilterChange (n : Nat) (mv : Nat)
  /-- An analogue input's AVG conversions finish and their mean is written to G81. (R213) -/
  | aiConversionResult (n : Nat) (mv : Nat)
  /-- Each DARK_PERIOD the sequencer pulses the wake-enabled inputs and compares them with their references. (R209) -/
  | cyclicSense (x : SenseGroup)
  /-- When the tick hall restarts after Dark or Buoy, the SI and FI points are loaded and inputs that differ are
  delivered as changes. (R211) -/
  | tickHallInputReload
  /-- The field die reclassifies FSA or FSB as present, LOW or MISSING. (R215) -/
  | fieldSupplyChange (k : Nat) (mv : Nat)
  /-- The higher field supply falls below 8.0 V and the field die stops. (R215) -/
  | fieldDieStop
  /-- The field die powers up unconfigured, keeps its outputs off and sets RESTARTED and STALE. (R227) -/
  | fieldDiePowerUp
  /-- A field-input filter output changes on the field die's sampling grid. (R217) -/
  | fieldInputChange (n : Nat) (mv : Nat)
  /-- The field die receives a main-die frame, adopts its tick and applies the FO commands 32 ticks later. (R226) -/
  | fieldFrameRx (crcOk : Bool)
  /-- Three windows pass without a good frame, so the field die enters LINK_LOST and applies the output fail states.
  (R226) -/
  | fieldLinkLost
  /-- After 8 good frames while configured, the field die leaves LINK_LOST and clears STALE. (R226) -/
  | fieldLinkRecover
  /-- On seeing RESTARTED, the keeper sends the stored field settings as configuration words. (R227) -/
  | fieldReconfigure
  /-- A frame with PARK makes the field die set its park states and watch its wake inputs. (R228) -/
  | fieldPark
  /-- A field-output fault cause becomes active or ends, by what the field die read of the output: ticks of limiting for SHORT, °C for THERMAL, mV at
  the output for OPEN and BACKFEED. (R221) -/
  | fieldOutputFault (n : Nat) (cause : Nat) (readings : List Nat) (active : Bool)
  /-- A CAN controller accepts a frame, filters it, stores it and extracts its signals. (R232) -/
  | canFrameAccept (c : Nat) (f : CanFrame)
  /-- A signal definition has not been written for TIMEOUT ms, so CAN_SIG_TIMEOUT is posted. (R241) -/
  | signalTimeout (d : Nat)
  /-- A frame from CAN.SEND, LIN.SEND or a reflex FRAME action is handed to its controller over L4 and takes a HANDLE.
  (R243) -/
  | frameHandover (sof : Bool)
  /-- A secure frame's tag is ready and the frame offers itself for arbitration. (R252) -/
  | secureTxTagReady (c : Nat)
  /-- A CAN frame is transmitted or lost in arbitration, and confirmed sends and held cancellations complete. (R245) -/
  | canTxEnd (c : Nat) (x : TxEnd)
  /-- A transmitter sees a bit error in its control or data field; the clash count rises and the frame may be removed.
  (R247) -/
  | canClash (x : TxClash)
  /-- A controller changes between error-active, error-passive and bus-off, and CAN_STATE is posted. (R248) -/
  | canErrorStateChange (c : Nat) (st : Nat)
  /-- A bus-off controller completes 128 occurrences of 11 recessive bits and recovers. (R248) -/
  | busoffRecovery (c : Nat)
  /-- A controller sees 11 recessive bits after a new configuration or wake and starts receiving and sending. (R235) -/
  | canIntegrated (x : BusQuiet)
  /-- A confirmed send is not transmitted within TX_TIMEOUT and is cancelled. (R249) -/
  | txTimeoutExpiry (c : Nat) (x : TxExpiry)
  /-- A subscribed LIN response is received whole with a valid checksum, stored and mapped. (R254) -/
  | linFrameAccept (c : Nat) (id : Nat) (data : List Byte)
  /-- A controller sees the header of a published identifier and sends its publish buffer. (R256) -/
  | linHeaderPublish (c : Nat) (id : Nat)
  /-- A commander's schedule slot starts and its header is sent as the slot type allows. (R255) -/
  | linScheduleSlot (c : Nat)
  /-- A LIN error is detected, counted and posted. (R257) -/
  | linError (c : Nat) (id : Nat) (code : Nat)
  /-- A responder in follow mode sees no bus activity for 4 s and commits to sleep. (R294) -/
  | linResponderIdle (c : Nat)
  /-- A port completes link-up and ETH_LINK is posted. (R259) -/
  | ethLinkUp (x : LinkTrained)
  /-- A port loses its link or PD6 goes off; buffered frames are discarded and ETH_LINK is posted. (R261) -/
  | ethLinkDown (port : Nat)
  /-- A frame enters the switch and is validated, forwarded, or written to a packet receive ring. (R265) -/
  | ethFrameReceive (port : Nat) (f : EthFrame)
  /-- A record on a packet transmit ring is admitted and placed in its egress queue. (R266) -/
  | packetTxRecord (ring : Nat)
  /-- A secure EtherType 0x88B5 frame is checked and its packets are copied into ring 31. (R95) -/
  | commandFrame (port : Nat) (f : EthFrame)
  /-- Once every packet of a command frame has completed, the keeper returns one reply frame. (R95) -/
  | commandFrameReply
  /-- A learned address entry reaches AGE_S and is removed. (R262) -/
  | addressAgeing (mac : Nat) (vid : Nat)
  /-- An SA's PN reaches 2^64 minus 1, so the SA stops and ETH_SA_STOP is posted. (R271) -/
  | saPnExhausted (port : Nat) (rx : Bool) (sci : Nat) (an : Nat)
  /-- The time-sync unit sends Sync on master ports each 2^SYNC_LOG s. (R273) -/
  | syncInterval
  /-- Three sync intervals are missed on the slave port, so the unit enters holdover. (R274) -/
  | syncHoldover
  /-- A partner's TC10 sleep request arrives and is acknowledged or refused. (R275) -/
  | tc10SleepRequestRx (port : Nat)
  /-- The acknowledgement arrives or 16 ms pass, and the port powers down. (R275) -/
  | tc10SleepWaitEnd (port : Nat) (acked : Bool)
  /-- A TC10 wake pulse or request is received, cancelling a sleep or latching a wake. (R276) -/
  | tc10WakeRx (port : Nat)
  /-- An armed wake source fires; the always-on hall latches its cause, index and tick. (R284, R289) -/
  | wakeLatch (cause : Nat) (x : WakeSign)
  /-- A latched wake moves the device toward its TARGET, requests its networks, cancels sleeps and is posted and
  logged. (R286) -/
  | wakeHandling
  /-- The RTC alarm falls due and latches wake cause 7. (R284) -/
  | rtcAlarm
  /-- The selective-wake decoder matches a wake frame, or its error counter reaches 32. (R289) -/
  | selectiveWakeFrame (n : Nat) (f : CanFrame) (good : Bool)
  /-- An NM message is received and updates peers, timers and the ring token. (R293) -/
  | nmMessageRx (n : Nat) (m : NmMessage)
  /-- KA_MS passes in NORMAL and the device sends its keep-alive message. (R292) -/
  | nmKeepaliveTimer (n : Nat)
  /-- No ACTIVE message has come for TIMEOUT_MS in READY, so the network enters WAIT_BUS_SLEEP. (R292) -/
  | nmTimeout (n : Nat)
  /-- RING_TYP_MS after receiving the token, the node sends its ring message to its successor. (R293) -/
  | nmRingSend (n : Nat)
  /-- No ring message has been seen for RING_MAX_MS, so the lowest node starts a new round. (R293) -/
  | nmRingTimeout (n : Nat)
  /-- WBS_MS passes and the network's transceiver is handed to Sleep, unless an earlier wake suppresses it. (R285) -/
  | networkCommit (n : Nat)
  /-- Every Dark precondition holds; transceivers sleep, SI references are taken and STATE 0 is posted. (R283) -/
  | deviceCommit
  /-- 80 ticks after the commit tick, the power sequencer has switched every domain off and the device is in Dark.
  (R283) -/
  | darkEntry
  /-- BUOY_MS passes in Buoy and the device returns to Dark. (R278) -/
  | buoyTimeout
  /-- 10 ms after a Beam to Lantern change, the pairs stop and waiting C1 to C13 packets are cancelled. (R280) -/
  | pairStop
  /-- The device enters Buoy, Lantern or Beam after its start steps; G83:0000 and STATE are written. (R279) -/
  | stateEntry (target : Nat)
  /-- A crypto ring context admits its next descriptor, checks it, copies the key and draws an IV. (R310) -/
  | cryptoAdmission (ring : Nat)
  /-- A crypto request with OP 1 encrypts data under AES-256-GCM. (R305) -/
  | encrypt (ring : Nat)
  /-- A crypto request with OP 2 decrypts data and checks the tag on the last segment. (R305) -/
  | decrypt (ring : Nat)
  /-- A crypto request with OP 3 computes a GMAC tag. (R305) -/
  | gmacGen (ring : Nat)
  /-- A crypto request with OP 4 checks a GMAC tag. (R305) -/
  | gmacCheck (ring : Nat)
  /-- The next segment of a chain has not arrived 10 s after the last one, so the context is released. (R304) -/
  | chainSegmentTimeout (ring : Nat)
  /-- The pipeline comparator mismatches; the request faults and after 16 mismatches in 1 s H4 is reset. (R297) -/
  | cipherMismatch (ctx : Nat)
  /-- 10 ms after the last context becomes idle, PD5 is switched off. (R300) -/
  | pd5IdleOff
  /-- The keeper raises a slot's COMMIT by 4,096 and commits it, releasing waiting draws. (R313) -/
  | counterCommit (slot : Nat)
  /-- A TRNG health test fails and TRNG_FAULT is posted. (R316) -/
  | trngHealthFail (test : Nat)
  /-- Within 16 ticks of an abort-mode key change, admitted work on the slot stops and its context is zeroed. (R311) -/
  | keyAbortStop (slot : Nat)
  /-- A DOORBELL write on a ring with a software producer sets TAIL, makes slots visible and is stamped with the
  arrival tick; compartment 16 + c is c of pair 1 in a trial run. (R73, R339) -/
  | doorbellSubmit (comp : Nat) (ring : Nat) (index : Nat)
  /-- A DOORBELL write on a ring with a device producer sets HEAD and frees consumed slots. (R74) -/
  | doorbellConsume (comp : Nat) (ring : Nat) (index : Nat)
  /-- A write that changes SIZE_LOG2 enables, disables or resizes a ring and resets its indices. (R413) -/
  | ringSizeWrite (comp : Nat) (ring : Nat) (size : Nat)
  /-- A read of TICK_NOW byte 0x08 latches the upper bytes for the next read. (R32) -/
  | tickNowRead (comp : Nat)
  /-- A write to a ring control or device status field with no behaviour of its own, including the W1C fields. (R13) -/
  | registerWrite (comp : Nat) (addr : Nat) (value : Nat)
  /-- A host SPI write frame is checked by CRC and window and its data is written. (R93) -/
  | hostSpiWrite (f : SpiFrame)
  /-- A host SPI read frame is checked and its data is returned with a CRC. (R93) -/
  | hostSpiRead (f : SpiFrame)
  /-- The keeper admits a waiting packet once it holds fewer than 256. (R83) -/
  | keeperAdmission (ring : Nat)
  /-- A flight is checked as a whole and applied, or rejected, at the start of tick E. (R86) -/
  | flightApply (ring : Nat)
  /-- A flight's FLIGHT_END has not arrived 10 ms after its first member, so every member completes with S_TIMEOUT.
  (R88) -/
  | flightTimeout (ring : Nat)
  /-- A packet with FLIGHT 0 follows an open flight, so the flight is rejected with S_BADARG. (R88) -/
  | flightInterrupted (ring : Nat)
  /-- Packets beyond the eighth in a tick execute in following ticks with S_LATE. (R82) -/
  | dispatcherOverflow
  /-- A packet with an unlisted opcode completes with S_BADOP at its effect tick. (R98) -/
  | unknownOpcode (p : Packet)
  /-- The SYS.NOP opcode completes with S_OK at its execution tick and fills ring ends. (R75) -/
  | sysNop (p : Packet)
  /-- The SYS.TICK opcode returns its arrival and execution stamps and the L1 late-tick count. (R80) -/
  | sysTick (p : Packet)
  /-- The SYS.INFO opcode returns part, versions, UID and last reset cause. (R98) -/
  | sysInfo (p : Packet)
  /-- The SYS.STATE opcode requests a state change to Dark, Lantern or Beam. (R278) -/
  | sysState (p : Packet)
  /-- The SYS.RESET opcode asserts a logic, pair or hall reset at the end of tick E. (R63) -/
  | sysReset (p : Packet)
  /-- The SYS.CONFIG opcode reads or writes system items such as EVENT_GROUPS and REPLY_RING. (R100) -/
  | sysConfig (p : Packet)
  /-- The SYS.CHARTER opcode checks, stores or installs a signed charter set and revokes affected objects. (R91) -/
  | sysCharter (p : Packet)
  /-- The LOAD.SET opcode writes and commands HS channel values. (R125) -/
  | loadSet (p : Packet)
  /-- The LOAD.CONFIG opcode sets or reads channel slew, PWM, diagnosis, inrush, wire and retry settings. (R121) -/
  | loadConfig (p : Packet)
  /-- The LOAD.DIAG opcode returns bank and channel diagnosis and may clear latched bits. (R144) -/
  | loadDiag (p : Packet)
  /-- The LOAD.UNLOCK opcode clears locks whose end conditions are met. (R125) -/
  | loadUnlock (p : Packet)
  /-- The LOAD.FAILSTATE opcode sets or reads fail states and the hold time. (R68) -/
  | loadFailstate (p : Packet)
  /-- The LOAD.SHED opcode sets or reads bank thresholds, dip levels, shed levels and resume attributes. (R52) -/
  | loadShed (p : Packet)
  /-- The MOTOR.RUN opcode starts or stops a motor run with an end condition. (R155) -/
  | motorRun (p : Packet)
  /-- The MOTOR.CONFIG opcode defines, removes, reads or unlocks motors. (R150) -/
  | motorConfig (p : Packet)
  /-- The MOTOR.POS opcode reads, writes or invalidates a motor position. (R159) -/
  | motorPos (p : Packet)
  /-- The VALVE.FIRE opcode writes a fire point to start or release a valve fire. (R167) -/
  | valveFire (p : Packet)
  /-- The VALVE.PROG opcode loads program words into a valve's store. (R170) -/
  | valveProg (p : Packet)
  /-- The VALVE.CONFIG opcode sets budgets, DEFER_MAX, FIRE_MAX and unlocks. (R171) -/
  | valveConfig (p : Packet)
  /-- The VALVE.TRACE opcode arms, reads or disarms the valve current trace. (R168) -/
  | valveTrace (p : Packet)
  /-- The POINT.WRITE opcode writes a list or block of points at its execution tick. (R104) -/
  | pointWrite (p : Packet)
  /-- The POINT.READ opcode returns point values as at the end of its execution tick. (R114) -/
  | pointRead (p : Packet)
  /-- The POINT.TYPE opcode sets or reads a point's type, timebase, report and deadband. (R112) -/
  | pointType (p : Packet)
  /-- The STRING.CONFIG opcode sets, reads or unlocks LED string settings. (R181) -/
  | stringConfig (p : Packet)
  /-- The PATTERN.LOAD opcode loads, clears or reads a pattern engine's program. (R184) -/
  | patternLoad (p : Packet)
  /-- The PATTERN.RUN opcode starts or stops a pattern engine. (R188) -/
  | patternRun (p : Packet)
  /-- The IVGAL.ENUM opcode enumerates, verifies or reads a link's satellite table. (R202) -/
  | ivgalEnum (p : Packet)
  /-- The IVGAL.CONFIG opcode sets or reads link and satellite settings. (R199) -/
  | ivgalConfig (p : Packet)
  /-- The IVGAL.DIAG opcode returns link state, counters and satellite statuses. (R201) -/
  | ivgalDiag (p : Packet)
  /-- At a link's frame slot, the device copies its galleries and sends an ENUM, SETUP or DATA frame, or skips the
  slot. (R199) -/
  | ivgalFrameSlot (n : Nat)
  /-- A frame returns at IVGn_RET, or its return deadline passes, and its records are checked. (R200) -/
  | ivgalFrameReturn (n : Nat) (r : IvgReturn)
  /-- Three consecutive frames are lost, so the link enters BREAK. (R201) -/
  | ivgalBreak (n : Nat)
  /-- A BEACON frame at IVGn_RET sets BREAK_AT. (R201) -/
  | ivgalBeaconRx (n : Nat) (address : Nat) (records : List SatStatus)
  /-- In MISMATCH, the link sends an ENUM frame every 100 ms. (R202) -/
  | ivgalMismatchEnum (n : Nat)
  /-- The REFLEX.LOAD opcode replaces reflex rules and may enable them. (R115) -/
  | reflexLoad (p : Packet)
  /-- The REFLEX.ENABLE opcode enables or disables rules and may stop their running actions. (R119) -/
  | reflexEnable (p : Packet)
  /-- The REFLEX.STATS opcode returns reflex counters and fire counts and may clear them. (R118) -/
  | reflexStats (p : Packet)
  /-- The INPUT.CONFIG opcode sets or reads switch and analogue input settings and the Dark sensing settings. (R208) -/
  | inputConfig (p : Packet)
  /-- The FIELD.CONFIG opcode sets or reads field input and output settings and unlocks outputs. (R227) -/
  | fieldConfig (p : Packet)
  /-- The FIELD.STATUS opcode returns the field link, supply, I/O and counters. (R225) -/
  | fieldStatus (p : Packet)
  /-- The CAN.CONFIG opcode sets or reads nominal, data, mode or stream records. (R235) -/
  | canConfig (p : Packet)
  /-- The CAN.FILTER opcode writes or reads filter table elements. (R236) -/
  | canFilter (p : Packet)
  /-- The CAN.SEND opcode sends a CAN frame or template, optionally confirmed. (R243) -/
  | canSend (p : Packet)
  /-- The CAN.CANCEL opcode cancels waiting frames by handle or identifier. (R246) -/
  | canCancel (p : Packet)
  /-- The CAN.STATUS opcode returns controller state and counters. (R248) -/
  | canStatus (p : Packet)
  /-- The CAN.SIGMAP opcode writes or reads signal definitions or frame templates. (R240) -/
  | canSigmap (p : Packet)
  /-- The LIN.CONFIG opcode sets or reads a LIN controller's role, rate and frame table. (R253) -/
  | linConfig (p : Packet)
  /-- The LIN.SCHEDULE opcode loads, selects, stops or reads a schedule table. (R255) -/
  | linSchedule (p : Packet)
  /-- The LIN.SEND opcode writes a publish buffer, makes a sporadic frame pending or queues a master request. (R256) -/
  | linSend (p : Packet)
  /-- The ETH.CONFIG opcode sets or reads port, VLAN and switch settings. (R259) -/
  | ethConfig (p : Packet)
  /-- The ETH.SECURE opcode installs, removes, binds or reads MACsec SAs and channels. (R267) -/
  | ethSecure (p : Packet)
  /-- The ETH.STATUS opcode returns port state and counters. (R268) -/
  | ethStatus (p : Packet)
  /-- The ETH.TIME opcode sets 802.1AS roles and samples the time at E. (R273) -/
  | ethTime (p : Packet)
  /-- The NM.CONFIG opcode sets or reads network and device wake settings. (R291) -/
  | nmConfig (p : Packet)
  /-- The NM.REQUEST opcode requests networks and may latch a local wake. (R292) -/
  | nmRequest (p : Packet)
  /-- The NM.RELEASE opcode releases networks. (R292) -/
  | nmRelease (p : Packet)
  /-- The NM.STATUS opcode returns network state and counters. (R292) -/
  | nmStatus (p : Packet)
  /-- The XCVR.STATE opcode sets or reads transceiver state and wake settings. (R288) -/
  | xcvrState (p : Packet)
  /-- The KEY.WRITE opcode writes or generates a key in a slot in drain or abort mode. (R311) -/
  | keyWrite (p : Packet)
  /-- The KEY.ERASE opcode zeroes a slot's key material. (R310) -/
  | keyErase (p : Packet)
  /-- The KEY.INFO opcode returns slot attributes and the public part. (R308) -/
  | keyInfo (p : Packet)
  /-- The KEY.DERIVE opcode derives a key into a target slot with KMAC256. (R318) -/
  | keyDerive (p : Packet)
  /-- The KEY.UNWRAP opcode decrypts a wrapped key blob into a target slot. (R319) -/
  | keyUnwrap (p : Packet)
  /-- The SIGN opcode produces a deterministic ML-DSA-65 signature. (R320) -/
  | sign (p : Packet)
  /-- The VERIFY opcode checks an ML-DSA-65 signature. (R320) -/
  | verify (p : Packet)
  /-- The HASH opcode computes a SHAKE256 digest. (R315) -/
  | hash (p : Packet)
  /-- The IMAGE.BEGIN opcode opens or aborts an image transfer into the inactive bank. (R332) -/
  | imageBegin (p : Packet)
  /-- The IMAGE.DATA opcode decrypts and writes one chunk of a transfer. (R332) -/
  | imageData (p : Packet)
  /-- The IMAGE.END opcode checks the payload digest and stages the bank or applies an owner record. (R333) -/
  | imageEnd (p : Packet)
  /-- 600 s pass without an IMAGE.DATA and the transfer is abandoned. (R332) -/
  | transferTimeout
  /-- The IMAGE.TRIAL opcode starts, reads or stops a trial run. (R338) -/
  | imageTrial (p : Packet)
  /-- The comparator pairs a candidate item with its live item and checks them. (R340) -/
  | trialCompare (cand : Bool) (item : TrialItem)
  /-- No paired item arrives in time, so the trial ends with MISSING or EXTRA. (R341) -/
  | trialMatchTimeout (comp : Nat)
  /-- RUN_S elapses, or a divergence or stop occurs; the trial ends and TRIAL_S is updated. (R342) -/
  | trialRunEnd (cause : Nat)
  /-- The IMAGE.COMMIT opcode commits a staged image as TENTATIVE, or confirms it and burns fuses. (R334) -/
  | imageCommit (p : Packet)
  /-- The IMAGE.REVERT opcode reverts to the PREVIOUS bank. (R335) -/
  | imageRevert (p : Packet)
  /-- The ATTEST opcode writes a signed attestation report or the certificates. (R343) -/
  | attest (p : Packet)
  /-- The DEBUG.UNLOCK opcode issues a challenge, accepts a signed response, or locks debug. (R344) -/
  | debugUnlock (p : Packet)
  /-- A debug unlock's DURATION passes and debug access locks. (R344) -/
  | debugExpiry
  /-- The always-on hall polls a handle sensor and updates its touch state. (R347) -/
  | handlePoll (k : Nat) (cap : Nat)
  /-- A handle touch changes G81, latches a wake, or starts an ENTRY poll. (R348) -/
  | handleTouch (k : Nat)
  /-- The ACCESS.CONFIG opcode sets or reads access, handle and antenna settings. (R347) -/
  | accessConfig (p : Packet)
  /-- The ACCESS.POLL opcode sends a POLL frame and evaluates token responses. (R368) -/
  | accessPoll (p : Packet)
  /-- A POLL or RETRY LF frame ends and its response slots begin. (R352) -/
  | lfFrameEnd
  /-- A token response slot closes, is classified, and enters the plane as a VERDICT. (R356) -/
  | responseSlotClose (index : Nat) (r : TokenResponse)
  /-- An antenna is open or short and is dropped from the poll. (R350) -/
  | antennaFault (a : Nat) (kind : Nat)
  /-- The ACCESS.STATUS opcode returns session, release and counters. (R359) -/
  | accessStatus (p : Packet)
  /-- The TOKEN.ENROLL opcode enrols a token index, optionally after a verify poll. (R360) -/
  | tokenEnroll (p : Packet)
  /-- The TOKEN.REVOKE opcode revokes an index and ends its session and release. (R360) -/
  | tokenRevoke (p : Packet)
  /-- The TOKEN.LIST opcode returns the token table. (R360) -/
  | tokenList (p : Packet)
  /-- SESSION_S passes after the session opened and it ends. (R361) -/
  | sessionTimeout
  /-- The RELEASE.CONFIG opcode sets, reads or blocks the engine release. (R364) -/
  | releaseConfig (p : Packet)
  /-- At t minus 8,000, the keeper builds and encrypts a release frame and draws its counter. (R365) -/
  | releaseFrameBuild
  /-- At t, the release frame is handed to its controller, or skipped and counted. (R365) -/
  | releaseFrameHandover
  /-- The LOG.APPEND opcode adds an application record to the logbook. (R375) -/
  | logAppend (p : Packet)
  /-- The LOG.READ opcode exports whole sealed segments, optionally encrypted. (R381) -/
  | logRead (p : Packet)
  /-- The LOG.EXPORT_ACK opcode acknowledges segments up to a sequence number. (R381) -/
  | logExportAck (p : Packet)
  /-- The LOG.SEAL opcode closes the open segment, writes the seal certificate, or reports status. (R379) -/
  | logSeal (p : Packet)
  /-- A segment closes for a reason of Table 15.6 and is signed and written to MRAM. (R379) -/
  | segmentSeal (reason : Nat)
  /-- 60 s of RTC time pass since a segment's first record and it closes with reason 2. (R378) -/
  | sealTimeExpiry
  /-- A device or application record is chained into the open segment, or dropped when full. (R377) -/
  | logRecordWrite (item : LogItem)
  /-- The TIME.SET opcode steps the RTC, unsigned within ALLOWANCE or signed at any step. (R372) -/
  | timeSet (p : Packet)
  /-- The TIME.GET opcode returns the RTC value, allowance and trim. (R369) -/
  | timeGet (p : Packet)
  /-- At least every 3,600 s, the keeper stores the RTC, TRIM and allowance state. (R371) -/
  | rtcStore
  /-- Every 64 s, H0 measures temperature for the RTC curve correction. (R370) -/
  | rtcTempMeasure (temp : Int)
  /-- The WATCH.CONFIG opcode sets or reads counter selectors or dump rings. (R388) -/
  | watchConfig (p : Packet)
  /-- The WATCH.GRANT opcode grants halls, ports and dump rings to a compartment. (R394) -/
  | watchGrant (p : Packet)
  /-- The WATCH.SNAP opcode takes a reading at E and returns counters or port entries. (R387) -/
  | watchSnap (p : Packet)
  /-- At each WINDOW, a dump ring takes a reading and writes a record. (R391) -/
  | watchDump (ring : Nat)
  /-- A bank or VBATL voltage point is rewritten because the measurement moved by 10 counts or the tick count reached
  a multiple of 8,000. (R47) -/
  | voltagePointRewrite (which : Nat) (mv : Nat)
  /-- At a period start of an HS channel, string segment, half-bridge drive or valve low-side chop, the output begins
  its on-phase and takes any new PWM value. (R122) -/
  | pwmPeriodStart (o : OutputId)
  /-- Every 500,000 ticks the oldest clamp-energy bin of each channel and bank window drops out, which can empty the
  window or bring it below 1 J. (R132) -/
  | clampWindowBinExpiry
  /-- A CAN controller detects a bus error other than a clash, sends an error frame and raises TEC or REC under ISO
  11898-1. (R248) -/
  | canBusError (c : Nat) (x : BusErr)
  /-- A frame leaves its egress queue on a port, in strict priority order, and frees its buffer cells. (R263) -/
  | egressFrameSent (port : Nat)
  /-- Every 1 s the time-sync unit measures peer delay on its ports. (R273) -/
  | peerDelayMeasure (port : Nat) (x : PeerTimes)
  /-- The TRNG health tests pass again and operations that need random bytes stop completing with S_FAULT. (R316) -/
  | trngHealthRecovery
  /-- VIO falls below 1.5 V and every host and control land, READY and IRQ_OUT included, becomes high-impedance.
  (R403) -/
  | vioLoss (mv : Nat)
  /-- VIO rises to 1.5 V or above and READY, IRQ_OUT and the host lands are driven to defined levels again. (R403) -/
  | vioReturn (mv : Nat)
  /-- The IEEE 1149.1 TAP carries out an instruction such as BYPASS, IDCODE, SAMPLE/PRELOAD, or EXTEST and INTEST
  while RESET_N is held low. (R345) -/
  | tapInstruction (code : Nat) (resetLow : Bool) (dataIn : Nat)
  deriving DecidableEq, Repr, Inhabited

end Sys2Proof
end

