-- ==== Sys2Proof/Machine/Aes.lean ====
section
/-! DEFINITION. The ciphers that the manual names (R296): AES-128 and AES-256 (FIPS 197), and the GHASH and counter mode of GCM (SP 800-38D). -/

namespace Sys2Proof.Machine

/-- A byte times x in the field of FIPS 197. -/
def xtime (a : Nat) : Nat := if a < 128 then 2 * a else (2 * a) % 256 ^^^ 0x1B

/-- The product of two bytes in that field, by the `n` low bits of the second. -/
def fieldMul : Nat → Nat → Nat → Nat
  | 0, _, _ => 0
  | n + 1, a, b => (if b % 2 = 1 then a else 0) ^^^ fieldMul n (xtime a) (b / 2)

/-- A byte to the power 254: its inverse, and 0 of 0. -/
def fieldInv (a : Nat) : Nat :=
  let sq := fun x => fieldMul 8 x x
  let a2 := sq a
  let a3 := fieldMul 8 a2 a
  let a12 := sq (sq a3)
  let a15 := fieldMul 8 a12 a3
  let a240 := sq (sq (sq (sq a15)))
  fieldMul 8 (fieldMul 8 a240 a12) a2

/-- The S-box: the inverse, then the affine map. -/
def subByte (a : Nat) : Nat :=
  let b := fieldInv a
  let turn := fun n => (b * 2 ^ n) % 256 ||| b / 2 ^ (8 - n)
  b ^^^ turn 1 ^^^ turn 2 ^^^ turn 3 ^^^ turn 4 ^^^ 0x63

/-- Words of four bytes, bytewise sum. -/
def xorWord (a b : List Nat) : List Nat := List.zipWith (· ^^^ ·) a b

/-- The round constant of step `i`. -/
def aesRcon : Nat → Nat
  | 0 => 0
  | 1 => 1
  | n + 1 => xtime (aesRcon n)

/-- The next word of the key schedule, which has `i` words so far; the words stand newest first. -/
def nextKeyWord (nk i : Nat) (w : List (List Nat)) : List Nat :=
  let t := w.headD []
  let t :=
    if i % nk = 0 then xorWord ((t.rotateLeft 1).map subByte) [aesRcon (i / nk), 0, 0, 0]
    else if 6 < nk ∧ i % nk = 4 then t.map subByte
    else t
  xorWord (w.getD (nk - 1) []) t

/-- `n` more words of the key schedule. -/
def expandKey (nk : Nat) : Nat → Nat → List (List Nat) → List (List Nat)
  | 0, _, w => w
  | n + 1, i, w => expandKey nk n (i + 1) (nextKeyWord nk i w :: w)

/-- The round keys, each of 16 bytes, by the length of the key. -/
def roundKeys (key : List Nat) : List (List Nat) :=
  let nk := key.length / 4
  let w := ((List.range nk).map fun i => (key.drop (4 * i)).take 4).reverse
  let all := (expandKey nk (4 * (nk + 7) - nk) nk w).reverse
  (List.range (nk + 7)).map fun r => ((all.drop (4 * r)).take 4).flatten

/-- ShiftRows: byte `i` of a state that stands column by column. -/
def shiftRows (b : List Nat) : List Nat := (List.range 16).map fun i => b.getD ((i + 4 * (i % 4)) % 16) 0

/-- MixColumns. -/
def mixColumns (b : List Nat) : List Nat :=
  (List.range 16).map fun i =>
    let at_ := fun k => b.getD (i / 4 * 4 + (i + k) % 4) 0
    xtime (at_ 0) ^^^ (xtime (at_ 1) ^^^ at_ 1) ^^^ at_ 2 ^^^ at_ 3

/-- The rounds that are left, with their keys: the last mixes no columns. -/
def aesRounds : List (List Nat) → List Nat → List Nat
  | [], b => b
  | k :: [], b => xorWord (shiftRows (b.map subByte)) k
  | k :: r, b => aesRounds r (xorWord (mixColumns (shiftRows (b.map subByte))) k)

/-- One AES block encryption (FIPS 197). -/
@[irreducible] def aesBlock (key block : List Byte) : List Byte :=
  let k := roundKeys (key.map (·.toNat))
  (aesRounds (k.drop 1) (xorWord (block.map (·.toNat)) (k.headD []))).map (BitVec.ofNat 8)

/-- The product of GHASH, by the `n` low bits of the first factor from its most significant one on. -/
def ghashMul : Nat → Nat → Nat → Nat → Nat
  | 0, _, _, z => z
  | n + 1, x, v, z =>
    ghashMul n x (if v % 2 = 1 then v / 2 ^^^ 0xE1000000000000000000000000000000 else v / 2) (if x.testBit n then z ^^^ v else z)

/-- The blocks of a text as numbers, the last filled with zeros. -/
def gcmBlocks (m : List Byte) : List Nat := (List.range ((m.length + 15) / 16)).map fun i => beNat (padTo 16 ((m.drop (16 * i)).take 16))

/-- GHASH over AAD, ciphertext and their lengths (SP 800-38D). -/
def ghash (h : Nat) (aad cipher : List Byte) : Nat :=
  (gcmBlocks aad ++ gcmBlocks cipher ++ [8 * aad.length * 2 ^ 64 + 8 * cipher.length]).foldl (fun y x => ghashMul 128 (y ^^^ x) h 0) 0

/-- The tag of AES-GCM under a 12-byte IV. -/
@[irreducible] def gcmTagBytes (key iv aad cipher : List Byte) : List Byte :=
  let h := beNat (aesBlock key (List.replicate 16 0))
  beBytes 16 (ghash h aad cipher ^^^ beNat (aesBlock key (iv ++ [0, 0, 0, 1])))

end Sys2Proof.Machine
end

