-- ==== Sys2Proof/Machine/Sponge.lean ====
section
/-! DEFINITION. The sponge functions that the manual names (R315): Keccak-f[1600], SHAKE and SHA-3 (FIPS 202), and KMAC256 (SP 800-185). Lanes are numbers of 64
bits, in the order of FIPS 202: lane (x, y) stands at 5y + x. -/

namespace Sys2Proof.Machine

/-- A lane turned left by `n` bits. -/
def rotLane (w n : Nat) : Nat := (w * 2 ^ (n % 64) + w / 2 ^ (64 - n % 64)) % 2 ^ 64

/-- Lane (x, y); both coordinates wrap at 5. -/
def laneAt (a : List Nat) (x y : Nat) : Nat := a.getD (5 * (y % 5) + x % 5) 0

/-- A state of 25 lanes from its coordinates. -/
def lanes (f : Nat → Nat → Nat) : List Nat := (List.range 25).map fun i => f (i % 5) (i / 5)

/-- θ: each lane takes the parities of two columns. -/
def keccakTheta (a : List Nat) : List Nat :=
  let c := (List.range 5).map fun x => (List.range 5).foldl (fun r y => r ^^^ laneAt a x y) 0
  let d := (List.range 5).map fun x => c.getD ((x + 4) % 5) 0 ^^^ rotLane (c.getD ((x + 1) % 5) 0) 1
  lanes fun x y => laneAt a x y ^^^ d.getD x 0

/-- The rotation of ρ for each lane. -/
def rhoOffsets : List Nat := [0, 1, 62, 28, 27, 36, 44, 6, 55, 20, 3, 10, 43, 25, 39, 41, 45, 15, 21, 8, 18, 2, 61, 56, 14]

/-- ρ and π: lane (x, y) turns and moves to (y, 2x + 3y). -/
def keccakRhoPi (a : List Nat) : List Nat :=
  lanes fun x y => rotLane (laneAt a (3 * y + x) x) (laneAt rhoOffsets (3 * y + x) x)

/-- χ: each lane with the two to its right. -/
def keccakChi (a : List Nat) : List Nat :=
  lanes fun x y => laneAt a x y ^^^ ((laneAt a (x + 1) y ^^^ (2 ^ 64 - 1)) &&& laneAt a (x + 2) y)

/-- The constants of ι. -/
def roundConstants : List Nat :=
  [0x0000000000000001, 0x0000000000008082, 0x800000000000808A, 0x8000000080008000, 0x000000000000808B, 0x0000000080000001, 0x8000000080008081,
    0x8000000000008009, 0x000000000000008A, 0x0000000000000088, 0x0000000080008009, 0x000000008000000A, 0x000000008000808B, 0x800000000000008B,
    0x8000000000008089, 0x8000000000008003, 0x8000000000008002, 0x8000000000000080, 0x000000000000800A, 0x800000008000000A, 0x8000000080008081,
    0x8000000000008080, 0x0000000080000001, 0x8000000080008008]

/-- One round with its constant. -/
def keccakRound (a : List Nat) (rc : Nat) : List Nat :=
  let b := keccakChi (keccakRhoPi (keccakTheta a))
  b.set 0 (b.getD 0 0 ^^^ rc)

/-- Keccak-f[1600]: 24 rounds. -/
def keccakF (a : List Nat) : List Nat := roundConstants.foldl keccakRound a

/-- A block of at most 200 bytes is absorbed. -/
def absorbBlock (a : List Nat) (block : List Byte) : List Nat :=
  keccakF ((List.range 25).map fun i => a.getD i 0 ^^^ leNat ((block.drop (8 * i)).take 8))

/-- The bytes of a state. -/
def laneBytes (a : List Nat) : List Byte := a.flatMap (leBytes 8)

/-- A message padded to whole blocks of `rate` bytes, with the bits that name the function. -/
def padSponge (rate : Nat) (suffix : Byte) (m : List Byte) : List Byte :=
  let k := rate - m.length % rate
  if k = 1 then m ++ [suffix ||| 0x80] else m ++ suffix :: List.replicate (k - 2) 0 ++ [0x80]

/-- `n` blocks of a text, cut every `rate` bytes. -/
def blocksFrom (rate : Nat) (m : List Byte) (n : Nat) : List (List Byte) := (List.range n).map fun i => (m.drop (rate * i)).take rate

/-- Blocks of output squeezed out of a state. -/
def squeezeBlocks (rate : Nat) : Nat → List Nat → List Byte
  | 0, _ => []
  | k + 1, a => (laneBytes a).take rate ++ squeezeBlocks rate k (keccakF a)

/-- The sponge with a rate in bytes: `n` bytes of output. -/
@[irreducible] def sponge (rate : Nat) (suffix : Byte) (n : Nat) (m : List Byte) : List Byte :=
  let p := padSponge rate suffix m
  let a := (blocksFrom rate p (p.length / rate)).foldl absorbBlock (List.replicate 25 0)
  (squeezeBlocks rate ((n + rate - 1) / rate) a).take n

/-- SHAKE256 with `n` bytes of output. -/
def shakeBytes (n : Nat) (m : List Byte) : List Byte := sponge 136 0x1F n m

/-- SHAKE128 with `n` bytes of output. -/
def shake128Bytes (n : Nat) (m : List Byte) : List Byte := sponge 168 0x1F n m

/-- SHA3-256. -/
def sha3Bytes256 (m : List Byte) : List Byte := sponge 136 0x06 32 m

/-- SHA3-512. -/
def sha3Bytes512 (m : List Byte) : List Byte := sponge 72 0x06 64 m

/-- The least number of bytes, at least one, that hold a number. -/
def byteCount (v : Nat) : Nat := if v < 256 then 1 else if v < 65536 then 2 else if v < 2 ^ 24 then 3 else if v < 2 ^ 32 then 4 else 8

/-- left_encode of SP 800-185. -/
def leftEncode (v : Nat) : List Byte := BitVec.ofNat 8 (byteCount v) :: beBytes (byteCount v) v

/-- right_encode of SP 800-185. -/
def rightEncode (v : Nat) : List Byte := beBytes (byteCount v) v ++ [BitVec.ofNat 8 (byteCount v)]

/-- encode_string of SP 800-185. -/
def encodeString (l : List Byte) : List Byte := leftEncode (8 * l.length) ++ l

/-- bytepad of SP 800-185. -/
def bytePad (l : List Byte) (w : Nat) : List Byte :=
  let x := leftEncode w ++ l
  padTo (w * ((x.length + w - 1) / w)) x

/-- KMAC256 of a message under a key, with a customisation string and `n` bytes of output. -/
def kmacBytes (n : Nat) (key msg custom : List Byte) : List Byte :=
  let name : List Byte := [0x4B, 0x4D, 0x41, 0x43]
  sponge 136 0x04 n (bytePad (encodeString name ++ encodeString custom) 136 ++ (bytePad (encodeString key) 136 ++ msg ++ rightEncode (8 * n)))

end Sys2Proof.Machine
end

