-- ==== Sys2Proof/Machine/Lattice.lean ====
section
/-! DEFINITION. The lattice unit's primitives (R315, Table 12.8): ML-KEM-768 (FIPS 203) and ML-DSA-65 (FIPS 204). A polynomial is a list of 256 coefficients modulo
the prime of its scheme. -/

namespace Sys2Proof.Machine

/-! Polynomials. -/

/-- A number to a power of at most `k` bits, modulo `q`. -/
def powMod (q : Nat) : Nat → Nat → Nat → Nat
  | 0, _, _ => 1
  | k + 1, b, e => (if e % 2 = 1 then b else 1) * powMod q k (b * b % q) (e / 2) % q

/-- The `k` low bits of a number in reverse order. -/
def bitRev : Nat → Nat → Nat
  | 0, _ => 0
  | k + 1, n => n % 2 * 2 ^ k + bitRev k (n / 2)

/-- A ring: its prime, its root of unity, the layers of its transform, and the inverse of 2 to that many. -/
structure LatticeRing where
  q : Nat
  root : Nat
  layers : Nat
  scale : Nat
  deriving DecidableEq, Repr, Inhabited

/-- The ring of ML-KEM. -/
def kemRing : LatticeRing := { q := 3329, root := 17, layers := 7, scale := 3303 }

/-- The ring of ML-DSA. -/
def dsaRing : LatticeRing := { q := 8380417, root := 1753, layers := 8, scale := 8347681 }

/-- Sum of two polynomials. -/
def polyAdd (g : LatticeRing) (a b : List Nat) : List Nat := List.zipWith (fun x y => (x + y) % g.q) a b

/-- Difference of two polynomials. -/
def polySub (g : LatticeRing) (a b : List Nat) : List Nat := List.zipWith (fun x y => (x + g.q - y) % g.q) a b

/-- A polynomial times a number. -/
def polyScale (g : LatticeRing) (k : Nat) (a : List Nat) : List Nat := a.map fun x => x * k % g.q

/-- A power of the root for a node of the transform. -/
def nodeRoot (g : LatticeRing) (e : Nat) : Nat := powMod g.q 10 g.root e

/-- The transform of a part of a polynomial, with the layers that are left and its node. -/
def nttPart (g : LatticeRing) : Nat → Nat → List Nat → List Nat
  | 0, _, f => f
  | n + 1, node, f =>
    let h := f.length / 2
    let lo := f.take h
    let t := polyScale g (nodeRoot g (bitRev g.layers node)) (f.drop h)
    nttPart g n (2 * node) (polyAdd g lo t) ++ nttPart g n (2 * node + 1) (polySub g lo t)

/-- The inverse of `nttPart`, without the scale. -/
def inttPart (g : LatticeRing) : Nat → Nat → List Nat → List Nat
  | 0, _, f => f
  | n + 1, node, f =>
    let h := f.length / 2
    let lo := inttPart g n (2 * node) (f.take h)
    let hi := inttPart g n (2 * node + 1) (f.drop h)
    polyAdd g lo hi ++ polyScale g (nodeRoot g (2 ^ (g.layers + 1) - bitRev g.layers node)) (polySub g lo hi)

/-- NTT. -/
def ntt (g : LatticeRing) (f : List Nat) : List Nat := nttPart g g.layers 1 f

/-- The inverse of NTT. -/
def intt (g : LatticeRing) (f : List Nat) : List Nat := polyScale g g.scale (inttPart g g.layers 1 f)

/-- Product of transforms of ML-KEM: of each pair of coefficients, `i` being the first pair. -/
def kemMul : Nat → List Nat → List Nat → List Nat
  | i, a0 :: a1 :: a, b0 :: b1 :: b =>
    (a0 * b0 + a1 * b1 * nodeRoot kemRing (2 * bitRev 7 i + 1)) % 3329 :: (a0 * b1 + a1 * b0) % 3329 :: kemMul (i + 1) a b
  | _, _, _ => []

/-- Product of two transforms. -/
def nttMul (g : LatticeRing) (a b : List Nat) : List Nat :=
  if g.layers = 7 then kemMul 0 a b else List.zipWith (fun x y => x * y % g.q) a b

/-- Inner product of two vectors of transforms. -/
def nttDot (g : LatticeRing) (a b : List (List Nat)) : List Nat :=
  (List.zipWith (nttMul g) a b).foldl (polyAdd g) (List.replicate 256 0)

/-- The coefficients as numbers of `d` bits, packed from the least significant bit on. -/
def packBits (d : Nat) (f : List Nat) : List Byte := leBytes (d * f.length / 8) (f.foldr (fun x r => x % 2 ^ d + 2 ^ d * r) 0)

/-- 256 numbers of `d` bits. -/
def unpackBits (d : Nat) (b : List Byte) : List Nat :=
  let n := leNat (b.take (32 * d))
  (List.range 256).map fun i => bitsOf n (d * i) d

/-- The first 256 entries of a list, filled with 0. -/
def first256 (l : List Nat) : List Nat := (l ++ List.replicate (256 - l.length) 0).take 256

/-- Triples of bytes as a list of numbers, each mapped to its candidates. -/
def candidates (f : Nat → Nat → Nat → List Nat) : List Byte → List Nat
  | a :: b :: c :: r => f a.toNat b.toNat c.toNat ++ candidates f r
  | _ => []

/-! ML-KEM-768. -/

/-- A uniform transform from a seed and two indices (SampleNTT). -/
def kemUniform (rho : List Byte) (i j : Nat) : List Nat :=
  first256 ((candidates (fun a b c => [a + 256 * (b % 16), b / 16 + 16 * c]) (shake128Bytes 1344 (rho ++ leBytes 1 j ++ leBytes 1 i))).filter (· < 3329))

/-- Row `i` of the matrix, or of its transpose. -/
def kemRow (rho : List Byte) (transposed : Bool) (i : Nat) : List (List Nat) :=
  (List.range 3).map fun j => if transposed then kemUniform rho j i else kemUniform rho i j

/-- A small polynomial from a seed and a count (PRF and SamplePolyCBD with 2). -/
def kemSmall (seed : List Byte) (n : Nat) : List Nat :=
  (unpackBits 4 (shakeBytes 128 (seed ++ leBytes 1 n))).map fun x => (x % 2 + x / 2 % 2 + 3329 - x / 4 % 2 - x / 8) % 3329

/-- Compress to `d` bits. -/
def kemCompress (d : Nat) (f : List Nat) : List Nat := f.map fun x => (2 ^ (d + 1) * x + 3329) / 6658 % 2 ^ d

/-- The opposite of `kemCompress`. -/
def kemExpand (d : Nat) (f : List Nat) : List Nat := f.map fun y => (2 * 3329 * y + 2 ^ d) / 2 ^ (d + 1)

/-- Vectors cut out of packed bytes. -/
def unpackVec (k d : Nat) (b : List Byte) : List (List Nat) := (List.range k).map fun i => unpackBits d (b.drop (32 * d * i))

/-- The secret vector of a key pair in NTT, and its encapsulation key, from the seed d. -/
def kemKeys (d : List Byte) : List (List Nat) × List Byte :=
  let g := sha3Bytes512 (d ++ [3])
  let rho := g.take 32
  let s := (List.range 3).map fun i => ntt kemRing (kemSmall (g.drop 32) i)
  let t := (List.range 3).map fun i => polyAdd kemRing (nttDot kemRing (kemRow rho false i) s) (ntt kemRing (kemSmall (g.drop 32) (3 + i)))
  (s, t.flatMap (packBits 12) ++ rho)

/-- K-PKE encryption. -/
def kemEncrypt (ek m r : List Byte) : List Byte :=
  let t := unpackVec 3 12 ek
  let rho := (ek.drop 1152).take 32
  let y := (List.range 3).map fun i => ntt kemRing (kemSmall r i)
  let u := (List.range 3).map fun i => polyAdd kemRing (intt kemRing (nttDot kemRing (kemRow rho true i) y)) (kemSmall r (3 + i))
  let v := polyAdd kemRing (polyAdd kemRing (intt kemRing (nttDot kemRing t y)) (kemSmall r 6)) (kemExpand 1 (unpackBits 1 m))
  u.flatMap (fun f => packBits 10 (kemCompress 10 f)) ++ packBits 4 (kemCompress 4 v)

/-- K-PKE decryption. -/
def kemDecrypt (s : List (List Nat)) (c : List Byte) : List Byte :=
  let u := (unpackVec 3 10 c).map fun f => ntt kemRing (kemExpand 10 f)
  let v := kemExpand 4 (unpackBits 4 (c.drop 960))
  packBits 1 (kemCompress 1 (polySub kemRing v (intt kemRing (nttDot kemRing s u))))

/-- The encapsulation key of a slot's seeds d and z, 1,184 bytes. -/
@[irreducible] def kemPublic (material : List Byte) : List Byte := (kemKeys (material.take 32)).2

/-- ML-KEM-768 decapsulation under the seeds d and z: the shared secret, or the one of an implicit rejection. -/
@[irreducible] def kemDecaps (material c : List Byte) : List Byte :=
  let (s, ek) := kemKeys (material.take 32)
  let m := kemDecrypt s c
  let g := sha3Bytes512 (m ++ sha3Bytes256 ek)
  if kemEncrypt ek m (g.drop 32) = c then g.take 32 else shakeBytes 32 ((material.drop 32).take 32 ++ c)

/-! ML-DSA-65. -/

/-- A uniform transform of the matrix (RejNTTPoly), by row and column. -/
def dsaUniform (rho : List Byte) (r s : Nat) : List Nat :=
  first256 ((candidates (fun a b c => [a + 256 * b + 65536 * (c % 128)]) (shake128Bytes 1176 (rho ++ leBytes 1 s ++ leBytes 1 r))).filter (· < 8380417))

/-- The matrix, 6 rows of 5. -/
def dsaMatrix (rho : List Byte) : List (List (List Nat)) := (List.range 6).map fun r => (List.range 5).map (dsaUniform rho r)

/-- A polynomial with coefficients from −4 to 4 (RejBoundedPoly). -/
def dsaSmall (seed : List Byte) (n : Nat) : List Nat :=
  first256 ((((shakeBytes 680 (seed ++ leBytes 2 n)).flatMap fun b => [b.toNat % 16, b.toNat / 16]).filter (· < 9)).map fun z => (8380417 + 4 - z) % 8380417)

/-- The parts of a key pair: the public seed, the secret vectors, the vector t, and the seed of the masks. -/
structure DsaKeys where
  rho : List Byte
  s1 : List (List Nat)
  s2 : List (List Nat)
  t : List (List Nat)
  k : List Byte
  deriving DecidableEq, Repr, Inhabited

/-- A key pair from its seed ξ. -/
def dsaKeys (seed : List Byte) : DsaKeys :=
  let h := shakeBytes 128 (seed ++ [6, 5])
  let rho := h.take 32
  let small := (h.drop 32).take 64
  let s1 := (List.range 5).map (dsaSmall small)
  let s2 := (List.range 6).map fun i => dsaSmall small (5 + i)
  let hat := s1.map (ntt dsaRing)
  { rho := rho, s1 := s1, s2 := s2, k := h.drop 96
    t := List.zipWith (fun row e => polyAdd dsaRing (intt dsaRing (nttDot dsaRing row hat)) e) (dsaMatrix rho) s2 }

/-- The remainder of a coefficient, centred, modulo an even number. -/
def centred (m x : Nat) : Int := if x % m ≤ m / 2 then (x % m : Int) else (x % m : Int) - m

/-- The high part of a coefficient rounded to 2^13. -/
def highT (x : Nat) : Nat := ((x : Int) - centred 8192 x).toNat / 8192

/-- The public key of a key pair, 1,952 bytes. -/
def DsaKeys.publicKey (x : DsaKeys) : List Byte := x.rho ++ x.t.flatMap fun f => packBits 10 (f.map highT)

/-- HighBits and LowBits of a coefficient. -/
def decompose (x : Nat) : Nat × Int :=
  let r0 := centred 523776 x
  if (x : Int) - r0 = 8380416 then (0, r0 - 1) else (((x : Int) - r0).toNat / 523776, r0)

/-- The size of a coefficient. -/
def coefSize (x : Nat) : Nat := min x (8380417 - x)

/-- The challenge polynomial (SampleInBall): the places from 207 on take their turn, with the bytes that the hash still gives. -/
def ballSteps : Nat → Nat → Nat → List Nat → List Nat → List Nat
  | 0, _, _, _, c => c
  | n + 1, i, signs, bytes, c =>
    if 256 ≤ i then c
    else
      match bytes with
      | [] => c
      | j :: r =>
        if i < j then ballSteps n i signs r c
        else ballSteps n (i + 1) (signs / 2) r ((c.set i (c.getD j 0)).set j (if signs % 2 = 1 then 8380416 else 1))

/-- The challenge of a commitment hash. -/
def challenge (ct : List Byte) : List Nat :=
  let h := shakeBytes 1088 ct
  ballSteps 1080 207 (leNat (h.take 8)) ((h.drop 8).map (·.toNat)) (List.replicate 256 0)

/-- The representative of a message with its context string (pure ML-DSA). -/
def messageHash (pk ctx msg : List Byte) : List Byte :=
  shakeBytes 64 (shakeBytes 64 pk ++ [0] ++ leBytes 1 ctx.length ++ ctx ++ msg)

/-- The mask of one polynomial (ExpandMask). -/
def maskPoly (seed : List Byte) (n : Nat) : List Nat :=
  (unpackBits 20 (shakeBytes 640 (seed ++ leBytes 2 n))).map fun z => (8380417 + 524288 - z) % 8380417

/-- The hash of a commitment. -/
def commitHash (mu : List Byte) (w1 : List (List Nat)) : List Byte := shakeBytes 48 (mu ++ w1.flatMap (packBits 4))

/-- The hints packed: the places of each polynomial, filled to 55, then where each polynomial ends. -/
def packHints (h : List (List Bool)) : List Byte :=
  let places := h.map fun l => (List.range 256).filter fun j => l.getD j false
  padTo 55 (places.flatten.map (BitVec.ofNat 8)) ++ (List.range 6).map fun i => BitVec.ofNat 8 ((places.take (i + 1)).flatten.length)

/-- A vector times a polynomial in NTT. -/
def vecMul (c : List Nat) (v : List (List Nat)) : List (List Nat) := v.map fun f => intt dsaRing (nttMul dsaRing c (ntt dsaRing f))

/-- Every coefficient of a vector is smaller than a bound. -/
def allBelow (b : Nat) (v : List (List Nat)) : Bool := v.all fun f => f.all fun x => coefSize x < b

/-- One iteration of signing: the signature, or none where it is rejected. -/
def signTry (x : DsaKeys) (a : List (List (List Nat))) (mu seed : List Byte) (kappa : Nat) : Option (List Byte) :=
  let y := (List.range 5).map fun r => maskPoly seed (kappa + r)
  let hat := y.map (ntt dsaRing)
  let w := a.map fun row => intt dsaRing (nttDot dsaRing row hat)
  let ct := commitHash mu (w.map fun f => f.map fun v => (decompose v).1)
  let c := ntt dsaRing (challenge ct)
  let z := List.zipWith (polyAdd dsaRing) y (vecMul c x.s1)
  let r := List.zipWith (polySub dsaRing) w (vecMul c x.s2)
  let ct0 := vecMul c (x.t.map fun f => f.map fun v => ((centred 8192 v + 8380417) % 8380417).toNat)
  let h := List.zipWith (fun f g => List.zipWith (fun u v => (decompose ((u + v) % 8380417)).1 != (decompose u).1) f g) r ct0
  if !allBelow (524288 - 196) z || !(r.all fun f => f.all fun v => (decompose v).2.natAbs < 261888 - 196) || !allBelow 261888 ct0 ||
      55 < (h.map fun l => l.countP id).sum then none
  else some (ct ++ z.flatMap (fun f => packBits 20 (f.map fun v => (8380417 + 524288 - v) % 8380417)) ++ packHints h)

/-- Iterations of signing, at most `n`. -/
def signLoop (x : DsaKeys) (a : List (List (List Nat))) (mu seed : List Byte) : Nat → Nat → Option (List Byte)
  | 0, _ => none
  | n + 1, kappa =>
    match signTry x a mu seed kappa with
    | some g => some g
    | none => signLoop x a mu seed n (kappa + 5)

/-- The deterministic signature of a message under a seed ξ with a context string; none at the bound of 814 iterations (R315, R320). -/
@[irreducible] def dsaSign (seed ctx msg : List Byte) : Option (List Byte) :=
  let x := dsaKeys seed
  let mu := messageHash x.publicKey ctx msg
  signLoop x (dsaMatrix x.rho) mu (shakeBytes 64 (x.k ++ List.replicate 32 0 ++ mu)) 814 0

/-- The public key of a slot's seed ξ. -/
@[irreducible] def dsaPublic (seed : List Byte) : List Byte := (dsaKeys seed).publicKey

/-- The hints of one polynomial among the places of a signature; none where they do not rise. -/
def hintPlaces (y : List Nat) (first last : Nat) : Option (List Nat) :=
  let l := (y.drop first).take (last - first)
  if first ≤ last ∧ last ≤ 55 ∧ (l.zip (l.drop 1)).all fun p => p.1 < p.2 then some l else none

/-- The hints of a signature (HintBitUnpack); none where they are malformed. -/
def unpackHints (b : List Byte) : Option (List (List Nat)) :=
  let y := b.map (·.toNat)
  let last := fun i => y.getD (55 + i) 0
  let l := (List.range 6).map fun i => hintPlaces (y.take 55) (if i = 0 then 0 else last (i - 1)) (last i)
  if l.all (·.isSome) ∧ ((y.take 55).drop (last 5)).all (· == 0) then some (l.map fun x => x.getD []) else none

/-- UseHint for one coefficient. -/
def useHint (hinted : Bool) (x : Nat) : Nat :=
  let (r1, r0) := decompose x
  if !hinted then r1 else if 0 < r0 then (r1 + 1) % 16 else (r1 + 15) % 16

/-- A signature of a message with a context string verifies under a public key (R320). -/
@[irreducible] def dsaVerify (pk ctx msg sig : List Byte) : Bool :=
  let ct := sig.take 48
  let z := (unpackVec 5 20 (sig.drop 48)).map fun f => f.map fun v => (8380417 + 524288 - v) % 8380417
  match unpackHints ((sig.drop 3248).take 61) with
  | none => false
  | some h =>
    let c := ntt dsaRing (challenge ct)
    let hat := z.map (ntt dsaRing)
    let t := (unpackVec 6 10 (pk.drop 32)).map fun f => nttMul dsaRing c (ntt dsaRing (f.map fun v => v * 8192))
    let w := List.zipWith (fun row u => intt dsaRing (polySub dsaRing (nttDot dsaRing row hat) u)) (dsaMatrix (pk.take 32)) t
    let w1 := List.zipWith (fun f l => f.mapIdx fun j v => useHint (l.contains j) v) w h
    sig.length == 3309 && allBelow (524288 - 196) z && commitHash (messageHash pk ctx msg) w1 == ct

end Sys2Proof.Machine
end

