-- ==== Sys2Proof/Parts/Plane.lean ====
section
/-! DEFINITION. The state of the deterministic plane: device states, events, halls, landings, the dispatcher and the
keeper's queues, capture and replay (chapters 01 and 03). -/

namespace Sys2Proof.Machine

/-- Attributes of a point, set with POINT.TYPE (Table 04.12); `ty` 0 is the default type of the point's gallery. -/
structure PointAttr where
  ty : Nat := 0
  timebase : Nat := 0
  report : Bool := false
  deadband : Nat := 0
  init : Nat := 0
  deriving DecidableEq, Repr, Inhabited

/-- A reflex rule with its owner (Table 04.13). `used` is false in an empty place. -/
structure Rule where
  used : Bool := false
  enabled : Bool := false
  owner : Nat := 0
  trig : Nat := 0
  kind : Nat := 0
  a : Nat := 0
  b : Nat := 0
  gate : Nat := 0
  gateEn : Bool := false
  gateInv : Bool := false
  action : Nat := 0
  post : Bool := false
  index : Nat := 0
  target : Nat := 0
  value : Nat := 0
  duration : Nat := 0
  deriving DecidableEq, Repr, Inhabited

/-- Device power states (R12). -/
inductive DevState where
  | dark
  | buoy
  | lantern
  | beam
  deriving DecidableEq, Repr, Inhabited

/-- The code a device state is reported as (R12). -/
def DevState.code : DevState → Nat
  | .dark => 0
  | .buoy => 1
  | .lantern => 2
  | .beam => 3

/-- The state a code of TARGET names (Table 03.18, R288). -/
def DevState.ofCode (n : Nat) : DevState :=
  if n = 0 then .dark else if n = 1 then .buoy else if n = 2 then .lantern else .beam

/-- An event record before it is written (Table 03.12). `idx` is the source index that orders the records of one stamp and hall (R20, R97),
`hidden` that it stays out of the result stream (R30), `nominal` the tick it has there where its own is outside the guarantee (R35), `replayed` that it belongs
to a replayed packet and enters the result stream only (R43); no byte of the record holds them. -/
structure Ev where
  stamp : Stamp := {}
  idx : Nat := 0
  address : Nat := 0
  point : Bool := false
  hall : Nat := 3
  comp : Nat := 0
  value : Nat := 0
  kind : Nat := 0
  hidden : Bool := false
  nominal : Option Nat := none
  replayed : Bool := false
  deriving DecidableEq, Repr, Inhabited

/-- An item that a run produces, as the result stream takes it (R30): a point write, the commands of a tick over L2 and over L3, a frame handed
to a controller with the number of its last bytes that are a MAC, an event record with the ring that it was delivered to, a reply, an output computed with a key slot as
its length (R306), a logbook body, each with its tick. Of a reply the stream takes all (`share` 0), its status only (1), or nothing (2). -/
inductive ResultItem where
  | write (tick pt : Nat) (v : PVal) (writer comp : Nat)
  | output (tick : Nat) (cmds : List (Nat × PVal))
  | field (tick : Nat) (cmds : List (Nat × PVal))
  | frame (tick ctrl : Nat) (f : CanFrame) (mac : Nat)
  | event (ring : Nat) (e : Ev)
  | reply (ring slot status doneTick share : Nat)
  | keyed (ring slot tick length : Nat)
  | logBody (tick : Nat) (item : LogItem)
  deriving DecidableEq, Repr, Inhabited

/-- What the result stream takes of an item (R30, R31): tick counts without their epoch, nor the epoch that EPOCH_START names; a MAC as its
length; of a reply what its `share` says. -/
def ResultItem.taken : ResultItem → Option ResultItem
  | .event r e => some (.event r { e with
      stamp := ⟨0, e.nominal.getD e.stamp.tick⟩, idx := 0, nominal := none, replayed := false, value := if e.kind = 0x0103 then 0 else e.value })
  | .frame t c f mac => some (.frame t c { f with data := f.data.take (f.data.length - mac) } mac)
  | .reply r slot st t share => if share = 0 then some (.reply r slot st t 0) else if share = 1 then some (.reply r slot st 0 1) else none
  | x => some x

/-- The tick count of an item (R30); of a reply whose DONE_TICK stays out, the tick it is due in. -/
def ResultItem.tick : ResultItem → Nat
  | .write t .. => t
  | .output t _ => t
  | .field t _ => t
  | .frame t .. => t
  | .event _ e => e.nominal.getD e.stamp.tick
  | .reply _ _ _ t _ => t
  | .keyed _ _ t _ => t
  | .logBody t _ => t

/-- The place of an item among those of its tick: by what it is, then by the ring of an event, the ring and slot of a reply (DESIGN CHOICE, log entry 161). -/
def ResultItem.place : ResultItem → Nat
  | .write .. => 0
  | .output .. => 2 ^ 20
  | .field .. => 2 * 2 ^ 20
  | .frame .. => 3 * 2 ^ 20
  | .event r _ => 4 * 2 ^ 20 + r
  | .reply r slot .. | .keyed r slot .. => 5 * 2 ^ 20 + 4096 * r + slot
  | .logBody .. => 6 * 2 ^ 20

/-- An item takes its place behind those of its tick and place that stand before it. -/
def ResultItem.insert (x : ResultItem) : List ResultItem → List ResultItem
  | [] => [x]
  | y :: r => if x.tick < y.tick ∨ (x.tick = y.tick ∧ x.place < y.place) then x :: y :: r else y :: x.insert r

/-- The result stream up to tick `t` of items that stand newest first: in the order of their ticks, whenever the halls have produced them (R14, R30, R31). -/
def resultStream (t : Nat) (l : List ResultItem) : List ResultItem :=
  ((l.reverse.filterMap ResultItem.taken).filter fun x => x.tick < t).foldl (fun a x => x.insert a) []

/-- One input stream of a landing (R19, R23, R25): joined or not, the number of ticks of the current epoch it has
reported (progress up to tick t is t + 1), the tick in which it joined, and its late-tick counter. -/
structure LStream where
  joined : Bool := false
  progress : Nat := 0
  joinedAt : Nat := 0
  late : Nat := 0
  deriving DecidableEq, Repr, Inhabited

/-- An item that waits in a landing until its stamp is released (R20): device writes and the events that follow them (L0), event records and
the records of packet rings with the number of the ring (L6), a supply warning or a wake by its cause and index for the keeper (L5), capture records
(L9). -/
structure LandItem where
  stamp : Stamp := {}
  hall : Nat := 0
  idx : Nat := 0
  writes : List (Nat × PVal) := []
  events : List Ev := []
  warn : Bool := false
  wake : Option (Nat × Nat) := none
  recs : List (Nat × List Byte) := []
  caps : List CapRecord := []
  stale : Option Bool := none
  deriving DecidableEq, Repr, Inhabited

/-- One landing (R20): its input streams by hall number, how many ticks of the epoch it has released, and the items it
holds. -/
structure Landing where
  streams : Vector LStream 9 := Vector.replicate 9 {}
  released : Nat := 0
  items : List LandItem := []
  deriving DecidableEq, Repr, Inhabited

/-- One hall (Table 00.2): its domain is on; its local tick count, kept from the tokens (R16); a fault has dropped it and
it has not rejoined (R26). -/
structure HallSt where
  on : Bool := false
  count : Nat := 0
  dropped : Bool := false
  deriving DecidableEq, Repr, Inhabited

/-- The phase of the capture unit. -/
inductive CapPhase where
  | idle
  | armed
  | running
  deriving DecidableEq, Repr, Inhabited

/-- The arming of a capture, kept in the configuration store (R40). -/
structure CapArm where
  armed : Bool := false
  sink63 : Bool := false
  wrap : Bool := false
  classMask : Nat := 0
  cmdMask : Nat := 0
  interval : Nat := 0
  deriving DecidableEq, Repr, Inhabited

/-- The capture unit (R37–R41). `area` holds the committed records, oldest first; `tailBytes` the bytes of records that do not fill a slot of
ring 63 yet, since records follow one another with no gaps (R38); `clean` is that the capture holds no GAP, HALL_FAULT or LATE mark; `fromZero`
that it began at tick 0 of an epoch; `checkLin` the running tick of the last CHECKPOINT mark; `closing` that its STOP mark waits in L9, and `stopPacket` the
CAPTURE.STOP that waits for it, with the stamp and the digest of the mark. -/
structure Capture where
  running : Bool := false
  sink63 : Bool := false
  wrap : Bool := false
  classMask : Nat := 0
  cmdMask : Nat := 0
  interval : Nat := 0
  fromZero : Bool := false
  clean : Bool := true
  stopped : Bool := false
  closing : Bool := false
  stopPacket : Option (Packet × Stamp × List Byte) := none
  checkLin : Nat := 0
  startStamp : Stamp := {}
  startLin : Nat := 0
  records : Nat := 0
  dropped : Nat := 0
  gapDue : Nat := 0
  lateTicks : Nat := 0
  lateExec : Nat := 0
  area : List CapRecord := []
  areaBytes : Nat := 0
  tailBytes : List Byte := []
  deriving DecidableEq, Repr, Inhabited

/-- A replay in progress (R42–R45): its packet, which took effect late or not; the START mark has been taken; records of the capture area still
to be read, records read and not yet used, the bytes consumed of the slot at HEAD of ring 63, that a record is being fed in this moment, and
that the STOP record has been read; `cmdRing` holds the replayed packets that have not completed, `cmdNew` those of them not yet admitted. -/
structure Replay where
  running : Bool := false
  packet : Packet := default
  late : Bool := false
  begun : Bool := false
  live : Bool := false
  fromHost : Bool := false
  stopAtMismatch : Bool := false
  runTicks : Nat := 0
  rest : List CapRecord := []
  draws : List CapRecord := []
  times : List CapRecord := []
  verdicts : List CapRecord := []
  pos : Nat := 0
  feeding : Bool := false
  stopRead : Bool := false
  endTick : Nat := 0
  records : Nat := 0
  stretched : Nat := 0
  lateExec : Nat := 0
  firstMismatch : Nat := 0
  matched : Bool := true
  cmdRing : List Packet := []
  cmdNew : List Packet := []
  deriving DecidableEq, Repr, Inhabited

/-- A fast packet that the dispatcher holds for a tick (R82); `moved` once an overflow has moved it. -/
structure Waiting where
  p : Packet
  moved : Bool := false
  deriving DecidableEq, Repr, Inhabited

/-- A flight that is being collected or waits for its tick (R84–R88): its members in order, complete once its FLIGHT_END
has arrived, the arrival of that packet, and the arrival of a packet that has interrupted it; `finished` once the keeper has done its
work on it, so that it takes effect at the start of tick E. -/
structure Flight where
  members : List Packet := []
  complete : Bool := false
  finished : Bool := false
  endArrival : Stamp := {}
  interrupted : Option Stamp := none
  deriving DecidableEq, Repr, Inhabited

/-- A charter entry as installed (Table 03.9). -/
structure Charter where
  pair : Nat := 0
  enabled : Bool := false
  mayCharter : Bool := false
  groups : Nat := 0
  cmdRings : Nat := 0
  cryptoRings : Nat := 0
  packetRings : Nat := 0
  eventRings : Nat := 0
  logRing : Bool := false
  captureRing : Bool := false
  budget : Nat := 0
  writeG : Nat := 0
  readG : Nat := 0
  keySlots : Nat := 0
  deriving DecidableEq, Repr, Inhabited

/-- An admitted packet of a ring: where it stands, the arrival of its doorbell, whether it has completed (R76), whether it is the keeper's to
run (R83), that it fitted before the ring end (R75), and the charter entry that its issuer had at its admission: it runs to completion under
both (R91, R413). -/
structure Admitted where
  slot : Nat
  slots : Nat
  arrival : Stamp := {}
  done : Bool := false
  keeper : Bool := false
  fits : Bool := true
  entry : Option Charter := none
  deriving DecidableEq, Repr, Inhabited

/-- A packet that was admitted before its ring changed its size: it still writes its reply at the address it was admitted from (R413). -/
structure Orphan where
  slot : Nat
  arrival : Stamp
  addr : Nat
  slots : Nat := 1
  keeper : Bool := false
  fits : Bool := true
  entry : Option Charter := none
  deriving DecidableEq, Repr, Inhabited

/-- One ring: its control block (Table 03.2) and what R74–R76 and R413 make it remember. `batches` are the doorbells not
yet admitted to their end, each with its INDEX and its arrival stamp; `scan` is the slot of the next packet that the capture unit sees. -/
structure Ring where
  base : Nat := 0
  sizeLog2 : Nat := 0
  enabled : Bool := false
  owner : Nat := 0
  owned : Bool := false
  head : Nat := 0
  tail : Nat := 0
  baddoor : Bool := false
  overrun : Bool := false
  doneEn : Bool := false
  errEn : Bool := false
  coalesce : Nat := 0
  irqPending : Bool := false
  irqCount : Nat := 0
  arrival : Stamp := {}
  batches : List (Nat × Stamp) := []
  scan : Nat := 0
  admitted : List Admitted := []
  orphans : List Orphan := []
  drops : Nat := 0
  flights : List Flight := []
  deriving DecidableEq, Repr, Inhabited

/-- The W1C and RW bits of the device status block (Table 03.3) and the latch of TICK_NOW. -/
structure StatusBlock where
  hallFault : Nat := 0
  clockLoss : Bool := false
  late : Bool := false
  overrun : Bool := false
  faultIrqEn : Nat := 0
  tickLatch : Nat := 0
  deriving DecidableEq, Repr, Inhabited

/-- A charter set (Table 03.8): its version, its entries, and its 4,621 bytes as they were signed. -/
structure CharterSet where
  version : Nat := 0
  signed : List Byte := []
  entries : Vector Charter 16 := Vector.replicate 16 {}
  deriving DecidableEq, Repr, Inhabited

/-- The items of SYS.CONFIG (Table 03.21). -/
structure SysCfg where
  vbatlWarn : Nat := 80
  eventGroups : Vector Nat 4 := Vector.replicate 4 0
  replyRing : Vector Nat 16 := Vector.replicate 16 0
  hostIrq : Nat := 0
  deriving DecidableEq, Repr, Inhabited

/-- Settings that were in force before a change, and the stamp of that change (R86, R97): the event routing, and what decides on an item that a landing
releases later, point attributes and the reflex rules with their arming. -/
structure OldSettings where
  eventGroups : Vector Nat 4 := Vector.replicate 4 0
  replyRing : Vector Nat 16 := Vector.replicate 16 0
  attrs : Tbl PointAttr := []
  rules : Tbl Rule := []
  armed : Tbl Bool := []
  changed : Stamp := {}
  deriving DecidableEq, Repr, Inhabited

/-- The plane: tick and epoch (R15–R18), halls, landings, rings, dispatcher and keeper queues. `tick` is the tick that the tick hall acts
on and `held` how many ticks it has generated beyond it while an input of L0 or L1 lags (R24, R25, R34); `lin` counts the ticks acted on across
epochs; `keeper` holds the packets that the keeper works on and `finished` those that it has done with and that wait for E or for their turn;
`turn` is the place in the order of R81 of the last packet that has taken effect in this tick (0: none); `settings` holds the settings of before, the youngest first; `frame` is the L2 frame of the current tick, `recent` the commands of the last eight ticks, oldest first, `outbox` those that ticks
acted on late have added to the next one; `commanded` the channel commands of LOAD.SET entries in this tick (R125). -/
structure Plane where
  running : Bool := false
  epoch : Nat := 0
  tick : Nat := 0
  held : Nat := 0
  lin : Nat := 0
  beamSeen : Bool := false
  rcClock : Bool := false
  halls : Vector HallSt 9 := Vector.replicate 9 {}
  landings : Vector Landing 10 := Vector.replicate 10 {}
  rings : Vector Ring 64 := Vector.replicate 64 {}
  settings : List OldSettings := []
  waiting : List Waiting := []
  execNow : Nat := 0
  keeper : List Packet := []
  finished : List Packet := []
  turn : Nat := 0
  status : StatusBlock := {}
  capture : Capture := {}
  replay : Replay := {}
  results : List ResultItem := []
  commanded : List (Nat × PVal) := []
  recent : List TickCmds := []
  outbox : List (Nat × PVal) := []
  frame : L2Frame := {}
  deriving DecidableEq, Repr, Inhabited

end Sys2Proof.Machine
end

