-- ==== Sys2Proof/Parts/Points.lean ====
section
/-! DEFINITION. The state of the point memory and of the reflex engine (chapter 04). -/

namespace Sys2Proof.Machine

/-- The kinds of writer of a point (R104); a timer that counts down is one of its own (R112). -/
inductive Writer where
  | device
  | timer
  | pattern
  | direct
  | reflex
  deriving DecidableEq, Repr, Inhabited

/-- The code LAST_WRITER gives a writer (Table 04.12). -/
def Writer.code : Writer → Nat
  | .device => 0
  | .timer => 0
  | .pattern => 1
  | .direct => 2
  | .reflex => 3

/-- A point write as the point memory takes it (R104, R106). `trig` is the stamp, in running ticks, of the trigger change behind a reflex write
(R118); `own` that a running PULSE or RAMP makes the write, which does not end that action (R105); `adopted` that it is a value read back at an adoption (R69). -/
structure PWrite where
  pt : Nat
  v : PVal
  kind : Writer
  comp : Nat := 0
  hall : Nat := 3
  idx : Nat := 0
  trig : Option Nat := none
  own : Bool := false
  adopted : Bool := false
  deriving DecidableEq, Repr, Inhabited

/-- What has been written to one point in the current tick (R103, R104): its value at the end of the tick before, and the write that stands,
with the stamp of the change it makes; `count` writes of the winning kind have been applied; `told` that the change has been noted: that of an
input is, before the tick's evaluation. -/
structure TickWrite where
  w : PWrite
  old : PVal
  count : Nat := 1
  stamp : Stamp := {}
  told : Bool := false
  deriving DecidableEq, Repr, Inhabited

/-- A change of a trigger point on its way through the reflex engine (R115–R117), with the hall and the source index of the write that made it. -/
structure Change where
  pt : Nat
  old : PVal
  new : PVal
  lin : Nat
  hall : Nat := 3
  idx : Nat := 0
  counted : Bool := false
  deriving DecidableEq, Repr, Inhabited

/-- A running PULSE or RAMP action (Table 04.15). `k` is the step a ramp has reached, `written` that it has written one (R118). -/
structure RunAct where
  pt : Nat
  ramp : Bool
  rule : Nat
  owner : Nat
  fire : Nat
  duration : Nat
  start : PVal
  value : PVal
  k : Nat := 0
  trig : Nat := 0
  written : Bool := false
  deriving DecidableEq, Repr, Inhabited

/-- An action of a rule that waits for its turn (R117), with the rule as it fired. -/
structure PendAct where
  index : Nat
  rule : Rule
  trigPt : Nat
  trigLin : Nat
  deriving DecidableEq, Repr, Inhabited

/-- Counts of REFLEX.STATS (Table 04.20), device-wide and saturating. -/
structure ReflexStats where
  evaluated : Nat := 0
  queued : Nat := 0
  queueMax : Nat := 0
  latMax : Nat := 0
  latOver : Nat := 0
  overflow : Nat := 0
  discarded : Nat := 0
  deferred : Nat := 0
  skipped : Nat := 0
  deriving DecidableEq, Repr, Inhabited

/-- A packet some of whose writes have moved to a later tick (R108): what it has written so far, how many are left, and the
reply it will have; a POINT.WRITE counts its entries into its reply; `noted` that it
has been noted as late when it executed, `now` the points that its moved writes have been applied to in this tick. -/
structure LateWriter where
  p : Packet
  left : Nat
  pointWrite : Bool
  noted : Bool := false
  applied : Nat := 0
  discarded : Nat := 0
  now : List Nat := []
  reply : List (Nat × Nat × Nat) := []
  deriving DecidableEq, Repr, Inhabited

/-- The point memory and the reflex engine: values, writers and last reports; the writes of this tick and those that move
to the next (`moving`) or have moved from earlier ones (`deferred`); timers counted down in this tick; the POINT.READ packets that its end answers (R114); field inputs marked
stale; the queue of changes, deferred actions, arming and fire counts by rule, and running actions. -/
structure Points where
  mem : Tbl PVal := []
  lastWriter : Tbl (Nat × Nat) := []
  lastReport : Tbl (Option PVal) := []
  now : List TickWrite := []
  writesNow : Nat := 0
  moving : List PWrite := []
  deferred : List PWrite := []
  lateWriters : List LateWriter := []
  timersNow : List Nat := []
  reads : List Packet := []
  stale : Bool := false
  movedNow : Bool := false
  queue : List Change := []
  evalNow : Nat := 0
  actsNow : Nat := 0
  actQueue : List PendAct := []
  overflowNow : Nat := 0
  armed : Tbl Bool := []
  fires : Tbl Nat := []
  running : List RunAct := []
  stats : ReflexStats := {}
  deriving DecidableEq, Repr, Inhabited

end Sys2Proof.Machine
end

