-- ==== Sys2Proof/Parts/Log.lean ====
section
/-! DEFINITION. The state of the logbook and of the RTC (chapter 15). -/

namespace Sys2Proof.Machine

/-- A record of the logbook (Table 15.4). -/
structure LogRec where
  type : Nat := 0
  critical : Bool := false
  emergency : Bool := false
  rtcInvalid : Bool := false
  noStamp : Bool := false
  comp : Nat := 0
  seq : Nat := 0
  rtc : Nat := 0
  stamp : Nat := 0
  payload : List Byte := []
  chain : List Byte := []
  deriving DecidableEq, Repr, Inhabited

/-- A seal (Table 15.7). -/
structure Seal where
  reason : Nat := 0
  emergency : Bool := false
  rtcInvalid : Bool := false
  records : Nat := 0
  firstSeq : Nat := 0
  rtc : Nat := 0
  stamp : Nat := 0
  endChain : List Byte := []
  signature : List Byte := []
  deriving DecidableEq, Repr, Inhabited

/-- A sealed segment in the ring or in the emergency area, acknowledged or not (R378, R382). -/
structure Segment where
  recs : List LogRec := []
  sealRec : Seal := {}
  emergency : Bool := false
  acked : Bool := false
  deriving DecidableEq, Repr, Inhabited

/-- The open segment, held in keeper SRAM (R380): its records, newest first, its area, the RTC at its first record, the power die's count at its
first critical record, and the reason for which it closes at the end of the tick (R378). -/
structure OpenSeg where
  recs : List LogRec := []
  emergency : Bool := false
  openedRtc : Nat := 0
  criticalAt : Option Nat := none
  closing : Option Nat := none
  deriving DecidableEq, Repr, Inhabited

/-- The logbook. `segments` are the sealed segments still readable, in order of sequence. -/
structure Logbook where
  nextSeq : Nat := 0
  chain : Option (List Byte) := none
  seqLimit : Nat := 0
  lastSealed : Option Nat := none
  sealChain : Option (List Byte) := none
  opened : Option OpenSeg := none
  segments : List Segment := []
  level : Nat := 0
  warn : Bool := false
  dropped : Nat := 0
  gapPlain : Nat := 0
  gapCritical : Nat := 0
  gapFirst : Nat := 0
  gapLast : Nat := 0
  lost : Nat := 0
  seals : Nat := 0
  deriving DecidableEq, Repr, Inhabited

/-- The RTC (R369–R372): TIME in 1/32,768 s, SET_COUNT, VALID, TRIM, the fractional accumulator of the rate correction,
the temperature last measured, and the allowance state. -/
structure Rtc where
  time : Nat := 0
  setCount : Nat := 0
  valid : Bool := false
  trim : Int := 0
  acc : Nat := 0
  temp : Int := 25
  allowFrom : Nat := 0
  spent : Nat := 0
  deriving DecidableEq, Repr, Inhabited

/-- What R371 keeps of the RTC in the configuration store. -/
structure RtcStore where
  time : Nat := 0
  setCount : Nat := 0
  trim : Int := 0
  allowFrom : Nat := 0
  spent : Nat := 0
  deriving DecidableEq, Repr, Inhabited

end Sys2Proof.Machine
end

