-- ==== Sys2Proof/Parts/Power.lean ====
section
/-! DEFINITION. The state of supplies, start-up, resets, the retention block and the power die's end of the internal link
(chapter 02). -/

namespace Sys2Proof.Machine

/-- The reset-cause record (R65, Table 03.17): code of Table 02.10, hall or pair, and who asked. -/
structure ResetCause where
  cause : Nat := 1
  index : Nat := 0
  byComp : Nat := 0
  tag : Nat := 0
  deriving DecidableEq, Repr, Inhabited

/-- A reset that SYS.RESET or a keeper image change asserts at the end of the present tick: scope 0 logic, 1 pair, 2 hall, the cause
record, and the packet that completes after a pair or hall reset. -/
structure ResetDue where
  scope : Nat := 0
  cause : ResetCause := {}
  packet : Option Packet := none
  late : Bool := false
  deriving DecidableEq, Repr, Inhabited

/-- The power sequencer and the VBATL monitor (R46–R51, R58): the always-on hall has power, VBATL in mV as last named and as last written to its point, the core of the
power die runs, a logic reset is asserted, the restart still has to run, the state, READY, and the domains that are on
(bit n is PDn). `resetDue` are the resets that the end of the tick asserts; `appNeed` is SRAM_NEED of the running
application image (R72), 0 while none runs. -/
structure Seq where
  powered : Bool := false
  vbatl : Nat := 0
  vbatlWritten : Nat := 0
  warn : Bool := false
  core : Bool := false
  inReset : Bool := false
  supplyReset : Bool := false
  starting : Bool := false
  state : DevState := .dark
  ready : Bool := false
  pd : Nat := 0
  appNeed : Nat := 0
  resetDue : List ResetDue := []
  deriving DecidableEq, Repr, Inhabited

/-- The parts of the retention block that chapters 02 and 05 name (R48): the reset-cause record, the hold time in 0.1 s,
and the image seal, which holds a value of the sealed-write counter (R60). -/
structure Retention where
  cause : ResetCause := {}
  hold : Nat := 20
  imageSeal : Option Nat := none
  deriving DecidableEq, Repr, Inhabited

/-- The power die's end of the internal link (R66–R69). `count` is its count of the tick hall's running ticks; `applied`
that the commands of the ticks below it have been applied; `holdForce` the hold time that was in force when the hold began, `failAt` the point of the hold at
which the fail states were applied, and `snapshot` the number of the last read-back. -/
structure Link where
  synced : Bool := false
  count : Nat := 0
  applied : Nat := 0
  missed : Nat := 0
  discarded : Nat := 0
  hold : Bool := false
  holdFrom : Nat := 0
  holdTime : Nat := 20
  holdForce : Nat := 20
  failApplied : Bool := false
  failAt : Nat := 0
  snapshot : Nat := 1
  deriving DecidableEq, Repr, Inhabited

/-- Bank thresholds in 0.1 V (Table 05.14). -/
structure BankCfg where
  warn : Nat := 170
  t0 : Nat := 170
  t1 : Nat := 150
  t2 : Nat := 130
  t3 : Nat := 110
  dip : Nat := 160
  deriving DecidableEq, Repr, Inhabited

/-- Energy spent in one bin of 500,000 ticks (R132), in µJ. -/
structure ClampBin where
  bin : Nat
  uJ : Nat
  deriving DecidableEq, Repr, Inhabited

/-- One bank as the power hall sees it (Tables 02.5, 05.11): `shed` bit n is the condition of Tn in force; the resume queue
holds channels with the cause whose end returns them, ascending. -/
structure Bank where
  mv : Nat := 0
  written : Nat := 0
  sag : Bool := false
  shed : Nat := 0
  drop : Bool := false
  overV : Bool := false
  dip : Bool := false
  dipCounted : Bool := false
  diagOff : Bool := false
  dips : Nat := 0
  clamp : List ClampBin := []
  clampWarned : Bool := false
  resumeQ : List (Nat × Nat) := []
  resumeAt : Nat := 0
  avgMa : Nat := 0
  deriving DecidableEq, Repr, Inhabited

end Sys2Proof.Machine
end

