-- ==== Sys2Proof/Parts/Loads.lean ====
section
/-! DEFINITION. The state of the 56 high-side channels and of the package thermal manager (chapter 05). -/

namespace Sys2Proof.Machine

/-- The class of a channel (R120). -/
inductive ChClass where
  | h
  | m
  | l
  deriving DecidableEq, Repr, Inhabited

/-- HS0–HS7 are class H, HS8–HS31 class M, HS32–HS55 class L (Table 05.1). -/
def classOf (ch : Nat) : ChClass := if ch < 8 then .h else if ch < 32 then .m else .l

/-- A LOAD.CONFIG record (Table 05.9). -/
structure ChCfg where
  slew : Nat := 1
  thermPrio : Nat := 1
  olOff : Bool := true
  olSense : Nat := 1
  pwmHz : Nat := 200
  phase : Nat := 0
  retries : Nat := 0
  inrushMs : Nat := 10
  olOn : Nat := 10
  stretchN : Nat := 256
  wire : Nat := 5
  rating : Nat := 100
  deriving DecidableEq, Repr, Inhabited

/-- The default record of a channel (Table 05.9). -/
def ChCfg.default (ch : Nat) : ChCfg :=
  { phase := ch % 16
    olOn := match classOf ch with | .h => 10 | .m => 5 | .l => 100
    wire := match classOf ch with | .h => 5 | .m => 3 | .l => 1 }

/-- A fail state (Table 05.13): 0 OFF, 1 ON, 2 LAST, 3 FIXED with its value. -/
structure FailState where
  mode : Nat := 0
  duty : Nat := 0
  deriving DecidableEq, Repr, Inhabited

/-- Shed level and resume attribute of an HS or LS channel (Table 05.14). -/
structure ShedCfg where
  level : Nat := 0
  resume : Bool := false
  deriving DecidableEq, Repr, Inhabited

/-- The condition every output of the power die has (R124, R125): ACTIVE and LATCHED, holds and locks by cause code, the
detail of an active THERMAL cause and of a CLAMP lock, that the junction has cooled by T_HYS since its last shutdown, and
that the output waits to be commanded again after a hold or a lock ended without a return. -/
structure Cond where
  active : Nat := 0
  latched : Nat := 0
  holds : Nat := 0
  locks : Nat := 0
  cool : Bool := true
  thermDetail : Nat := 0
  clampDetail : Nat := 0
  waiting : Bool := false
  deriving DecidableEq, Repr, Inhabited

/-- An inrush window or a soft start (R127, R131): its end, the ticks it has been frozen, and since when it is frozen. -/
structure Window where
  ends : Nat := 0
  ext : Nat := 0
  frozen : Option Nat := none
  deriving DecidableEq, Repr, Inhabited

/-- Open-load counting of a channel (R141–R144): OL_RESULT, OL_METHOD, the consecutive open checks of each method (0 on-state, 1 off-state, 2
stretch), and the consecutive checks of any method that found the load present. -/
structure OpenLoad where
  result : Nat := 3
  method : Nat := 3
  opens : Vector Nat 3 := Vector.replicate 3 0
  presents : Nat := 0
  deriving DecidableEq, Repr, Inhabited

/-- One high-side channel on the power die. `cmd` is the commanded value; `duty` the D12 value in effect, which a PWM channel takes at a period
start (R122); `hz` and `phase` are those in effect before the tick `newAt`, from which the settings of LOAD.CONFIG are; `onUntil` is the end of the
present on-phase. `limitTicks` counts the on-ticks in a row that have limited (R128). `debt` are the ticks that a stretch has added and `shorten`
those that the present on-phase gives back (R143). `told` is the RESULT that LOAD.SET gives a non-zero value: the condition reported for the tick
before (Table 05.8). `wireX` is x of the wire model (R135). -/
structure Chan where
  cmd : PVal := 0
  duty : Nat := 0
  hz : Nat := 200
  phase : Nat := 0
  newAt : Nat := 0
  onUntil : Nat := 0
  driving : Bool := false
  cond : Cond := {}
  window : Option Window := none
  inrushExt : Nat := 0
  limiting : Bool := false
  limitTicks : Nat := 0
  retriesDone : Nat := 0
  retryAt : Option Nat := none
  retryCause : Nat := 0
  clamp : List ClampBin := []
  clampWarned : Bool := false
  wireX : Rat := 0
  wireWarned : Bool := false
  restarts : Nat := 0
  lastShutdown : Nat := 0
  ol : OpenLoad := {}
  debt : Nat := 0
  shorten : Nat := 0
  stretchAt : Nat := 0
  forced : Bool := false
  periods : Nat := 0
  iLoad : Nat := 0
  told : Nat := 0
  deriving DecidableEq, Repr, Inhabited

/-- A channel as a cold reset leaves it: the settings in effect are its defaults. -/
def Chan.initial (ch : Nat) : Chan := { phase := ch % 16 }

/-- A channel that the package manager has cut (R140): its losses and its current when cut, and the limit. -/
structure Cut where
  ch : Nat
  detail : Nat
  mW : Nat
  mA : Nat
  deriving DecidableEq, Repr, Inhabited

/-- The package thermal manager (R138–R140): averages, cuts in the order they were made, oldest first, whether a cutting
run is going on for each limit, and the ticks of the last cut and the last return. -/
structure ThermalMgr where
  pAvg : Nat := 0
  modAvg : Nat := 0
  temp : Nat := 0
  cuts : List Cut := []
  mgrCuts : Nat := 0
  cutting : Nat := 0
  lastCut : Option Nat := none
  lastReturn : Option Nat := none
  deriving DecidableEq, Repr, Inhabited

/-- The settings of the loads and banks in the configuration store. -/
structure LoadStore where
  ch : Vector ChCfg 56 := Vector.ofFn fun i => ChCfg.default i.val
  fail : Vector FailState 60 := Vector.replicate 60 {}
  hold : Nat := 20
  bank : Vector BankCfg 4 := Vector.replicate 4 {}
  shed : Vector ShedCfg 60 := Vector.replicate 60 {}
  deriving DecidableEq, Repr, Inhabited

/-- The loads and banks on the power die. -/
structure LoadDie where
  ch : Vector Chan 56 := Vector.ofFn fun i => Chan.initial i.val
  bank : Vector Bank 4 := Vector.replicate 4 {}
  mgr : ThermalMgr := {}
  deriving DecidableEq, Repr, Inhabited

end Sys2Proof.Machine
end

