-- ==== Sys2Proof/Parts/Motors.lean ====
section
/-! DEFINITION. The state of the half-bridges, motors, valves and feeds (chapter 06). -/

namespace Sys2Proof.Machine

/-- A motor definition (Table 06.13); `b` is the lowest half-bridge of the B terminal, or 15 for PGND. -/
structure MotorCfg where
  defined : Bool := false
  pairedA : Bool := false
  pairedB : Bool := false
  b : Nat := 15
  deadtime : Nat := 1
  rippleEn : Bool := true
  pinchEn : Bool := false
  inrushMs : Nat := 30
  brakeMs : Nat := 20
  stallMs : Nat := 100
  runMax : Nat := 100
  rippleLo : Nat := 50
  rippleHi : Nat := 1500
  parkInput : Nat := 0xFF
  parkLevel : Bool := false
  pinchRev : Bool := false
  zoneFrom : PVal := 0
  zoneTo : PVal := 0
  pinchPct : Nat := 25
  pinchMa : Nat := 15
  pinchBlank : Nat := 20
  pinchBack : Nat := 300
  deriving DecidableEq, Repr, Inhabited

/-- What a terminal does (Table 06.2). -/
inductive Drive where
  | coast
  | forward
  | reverse
  | brake
  deriving DecidableEq, Repr, Inhabited

/-- A MOTOR.RUN in progress (R155–R157); `ended` is its end cause once the drive has stopped and the end brake runs; `lost` that its
reply has been lost with its ring; `lin` the running count of its start, and `seen` that its own value stands on the power die. -/
structure MotorRun where
  packet : Packet := default
  lost : Bool := false
  late : Bool := false
  lin : Nat := 0
  seen : Bool := false
  value : PVal := 0
  mode : Nat := 0
  reverse : Bool := false
  target : PVal := 0
  timeMs : Nat := 0
  endStop : Bool := false
  setAtStall : Bool := false
  pinchOff : Bool := false
  runMax : Nat := 0
  startPos : PVal := 0
  startAt : Nat := 0
  driveTicks : Nat := 0
  peakMa : Nat := 0
  inserted : Nat := 0
  ended : Option Nat := none
  deriving DecidableEq, Repr, Inhabited

/-- A half-bridge terminal and its motor on the power die. `cmd` is the value of its point as received, `next` the value
that follows the present brake or reversal; `inhibit` keeps the drive off until the point changes (R156), `waitsDrive` until it changes to a drive value
(R153). Of the terminal that this half-bridge leads, `leg` is the switch last used, `legOff` the tick in which its use ended, and `dead` the end of its dead
time (R149). `driveNo` counts the drives of the motor, and `openIn` names the motor and the drive in which OPEN was last seen (Table 06.3). `onUntil` ends the on-phase of the PWM period that began at a multiple of 400 ticks after `periodAt` (R151). `limiting`, `limitTicks`,
`endLimiting` and `stall` are the stall conditions: the present limiting, the drive ticks in a row that limit, limiting at the end of the window, and the
stall timer (R153, R156). `lastCount` is the tick of the last ripple counted or inserted, `lastRipple` that of the last one counted (R158); `pinch` is the phase of an anti-pinch reversal, 1 its
2 ms brake and 2 the opening drive with `pinchLeft` ripples to go. -/
structure Hb where
  cmd : PVal := 0
  drive : Drive := .coast
  duty : Nat := 0
  leg : Option Bool := none
  legOff : Nat := 0
  dead : Nat := 0
  driveNo : Nat := 0
  openIn : Option (Nat × Nat) := none
  periodAt : Nat := 0
  onUntil : Nat := 0
  dirRev : Bool := false
  next : Option PVal := none
  brakeEnds : Nat := 0
  queued : Bool := false
  inhibit : Bool := false
  waitsDrive : Bool := false
  cond : Cond := {}
  window : Option Window := none
  limiting : Bool := false
  limitTicks : Nat := 0
  endLimiting : Bool := false
  stall : Option Window := none
  driveFrom : Nat := 0
  lastCount : Option Nat := none
  lastRipple : Option Nat := none
  pos : PVal := 0
  posValid : Bool := false
  periods : List Nat := []
  currents : List Nat := []
  slow : Nat := 0
  ripples : Nat := 0
  inserts : Nat := 0
  insertedTotal : Nat := 0
  pinch : Nat := 0
  pinchAt : Nat := 0
  pinchLeft : Nat := 0
  run : Option MotorRun := none
  deriving DecidableEq, Repr, Inhabited

/-- The phase of a valve (R165–R172): a request waits for its grant, its program waits for the feed, runs, or the coil
decays after END. -/
inductive ValvePhase where
  | idle
  | requested
  | granted
  | running
  | decay
  deriving DecidableEq, Repr, Inhabited

/-- The dip detector (R169): the greatest current M, the samples in a row at or below M − depth with the lowest of them, and that the dip it found
is over. -/
structure DipDet where
  armed : Bool := false
  depth : Nat := 0
  samples : Nat := 0
  maxMa : Nat := 0
  count : Nat := 0
  low : Nat := 0
  past : Bool := false
  deriving DecidableEq, Repr, Inhabited

/-- A valve low-side and its engine (R163–R172). `cmd` is the value of its point as received; `waitOp` is the opcode of the wait in progress, 0 for none, and `waitEnds`
its end or timeout, none where there is none. `onAt` is the tick in which the low-side turned on, `peakAt` that of the last PEAK, `peaked` that the fire has
had one, and `chopped` that it has had an off-phase (R164, R169). `fires` counts the fires, and `openFire` is the one in which OPEN was last seen
(Table 06.9). -/
structure Valve where
  cmd : PVal := 0
  fireSeen : Bool := false
  phase : ValvePhase := .idle
  entry : Nat := 0
  packet : Option Packet := none
  late : Bool := false
  reqAt : Nat := 0
  deferMax : Nat := 0
  grantAt : Nat := 0
  startAt : Nat := 0
  claimHeld : Bool := false
  claimEnds : Nat := 0
  lastAt : Option Nat := none
  claim : Nat := 0
  pc : Nat := 0
  dFlag : Bool := false
  tFlag : Bool := false
  rFlag : Bool := false
  ctr : Nat := 0
  target : Nat := 0
  peakPhase : Bool := false
  fast : Bool := false
  on : Bool := false
  onAt : Nat := 0
  peakAt : Nat := 0
  peaked : Bool := false
  fires : Nat := 0
  openFire : Nat := 0
  chopped : Bool := false
  waitOp : Nat := 0
  waitMa : Nat := 0
  waitEnds : Option Nat := none
  dip : DipDet := {}
  dipTick : Option Nat := none
  dipMa : Nat := 0
  peakMa : Nat := 0
  mA : Nat := 0
  status : Nat := 0
  endAddr : Nat := 0
  endAt : Nat := 0
  clamp : List ClampBin := []
  cond : Cond := {}
  deriving DecidableEq, Repr, Inhabited

/-- A valve feed (R165, R171): on, the tick it turned on, and the requests that wait, first in first out. -/
structure Feed where
  on : Bool := false
  onAt : Nat := 0
  queue : List Nat := []
  cond : Cond := {}
  deriving DecidableEq, Repr, Inhabited

/-- The trace buffer that serves all valves (Tables 06.19, 06.20). -/
structure Trace where
  armed : Bool := false
  capturing : Bool := false
  valve : Nat := 0
  decim : Nat := 1
  want : Nat := 0
  samples : List Nat := []
  mark : Bool := false
  start : Stamp := {}
  startAt : Nat := 0
  status : Nat := 0
  dipTick : Option Nat := none
  dipMa : Nat := 0
  peakMa : Nat := 0
  deriving DecidableEq, Repr, Inhabited

/-- The settings of motors and valves in the configuration store. -/
structure MotorStore where
  motor : Vector MotorCfg 12 := Vector.replicate 12 {}
  prog : Vector (Vector Nat 64) 8 := Vector.replicate 8 (Vector.replicate 64 0)
  loaded : Vector Bool 8 := Vector.replicate 8 false
  fireMax : Vector Nat 8 := Vector.replicate 8 10000
  budget : Vector Nat 2 := Vector.replicate 2 8000
  deferMax : Vector Nat 2 := Vector.replicate 2 8000
  deriving DecidableEq, Repr, Inhabited

/-- Motors and valves on the power die. `endEvents` are the MOTOR_END causes of runs that ended while the logic die was
down (R157). -/
structure MotorDie where
  hb : Vector Hb 12 := Vector.replicate 12 {}
  valve : Vector Valve 8 := Vector.replicate 8 {}
  feed : Vector Feed 2 := Vector.replicate 2 {}
  trace : Trace := {}
  refusing : Bool := false
  endEvents : List (Nat × Nat) := []
  deriving DecidableEq, Repr, Inhabited

end Sys2Proof.Machine
end

