-- ==== Sys2Proof/Parts/Light.lean ====
section
/-! DEFINITION. The state of the LED strings, the pattern engines and the Ivgal links (chapter 07). -/

namespace Sys2Proof.Machine

/-- A STRING.CONFIG record (Table 07.13). -/
structure StringCfg where
  enable : Bool := false
  spread : Bool := true
  segDiag : Bool := true
  softMs : Nat := 5
  current : Nat := 350
  pwmHz : Nat := 500
  usedMask : Nat := 0
  vf : Vector Nat 16 := Vector.replicate 16 0
  deriving DecidableEq, Repr, Inhabited

/-- One segment of a string (R178): its commanded value, and what is in effect since its last period start. A segment that has turned on within a period is
lit until `firstEnd`, and follows its period grid from `gridFrom` on (R122). -/
structure Seg where
  cmd : PVal := 0
  duty : Nat := 0
  hz : Nat := 500
  spread : Bool := true
  firstEnd : Nat := 0
  gridFrom : Nat := 0
  fitted : Bool := false
  vf : Nat := 0
  deriving DecidableEq, Repr, Inhabited

/-- One string on the power die (R178–R183): its converter, the soft-start window, the tick at which it stops after its last
segment has gone to 0, its condition, the segments whose bypass is latched closed and those reported shorted. -/
structure Strg where
  seg : Vector Seg 16 := Vector.replicate 16 {}
  running : Bool := false
  soft : Option Window := none
  stopAt : Option Nat := none
  cond : Cond := {}
  segOpen : Nat := 0
  segShort : Nat := 0
  restarts : Nat := 0
  lastShutdown : Nat := 0
  deriving DecidableEq, Repr, Inhabited

/-- One step of a pattern program (Table 07.4). -/
structure PatStep where
  op : Nat := 0
  dir : Bool := false
  curve : Bool := false
  width : Nat := 0
  a : Nat := 0
  b : Nat := 0
  duration : Nat := 0
  deriving DecidableEq, Repr, Inhabited

/-- A pattern program with its owner (Table 07.14). -/
structure PatProg where
  owner : Nat := 0
  start : Nat := 0
  count : Nat := 0
  stride : Nat := 1
  update : Nat := 0
  postEnd : Bool := false
  steps : List PatStep := []
  deriving DecidableEq, Repr, Inhabited

/-- A pattern engine (R184–R188): running, its step and the updates made in it, the loop counters by step, the targets that
are detached, the running tick of its next update, and LAGGED_WRITES. -/
structure Engine where
  running : Bool := false
  step : Nat := 0
  k : Nat := 0
  loops : Tbl Nat := []
  detached : List Nat := []
  nextAt : Nat := 0
  lagged : Nat := 0
  deriving DecidableEq, Repr, Inhabited

/-- A pattern write that waits for a later tick (R187). -/
structure LagWrite where
  engine : Nat
  pt : Nat
  v : PVal
  deriving DecidableEq, Repr, Inhabited

/-- A satellite of the stored table: its identity (Table 07.9) and its settings (Table 07.17). -/
structure Sat where
  address : Nat := 0
  formats : Nat := 0
  points : Nat := 0
  maker : Nat := 0
  product : Nat := 0
  revision : Nat := 0
  serial : Nat := 0
  base : Nat := 0
  format : Nat := 0
  failMode : Nat := 0
  failLevel : Nat := 0
  failTime : Nat := 20
  deriving DecidableEq, Repr, Inhabited

/-- The settings of one Ivgal link (Table 07.17); `table` is none while nothing has been enumerated. -/
structure IvgCfg where
  enable : Bool := false
  fullEvery : Nat := 16
  period : Nat := 160000
  table : Option (List Sat) := none
  deriving DecidableEq, Repr, Inhabited

/-- What the device keeps of one satellite since the link start (Table 07.18), by its address: the next share is FULL, its last returned status lacked
SHARE_OK, SETUP is due, the formatted values of the last send copy, and the last valid status. -/
structure SatRun where
  fullDue : Bool := true
  lacked : Bool := false
  setupDue : Bool := false
  copy : List Nat := []
  flags : Nat := 0
  fcode : Nat := 0
  temp : Nat := 0
  shareErr : Nat := 0
  silent : Nat := 0
  present : Bool := false
  deriving DecidableEq, Repr, Inhabited

/-- The type of an Ivgal frame the device sends (Table 07.7). -/
inductive IvgType where
  | data
  | enum
  | setup
  deriving DecidableEq, Repr, Inhabited

/-- A frame on its way round the ring: its type, SEQ, the running tick of its first cell, its bytes, and the deadline of R200
in ticks. -/
structure IvgFlight where
  type : IvgType
  seq : Nat
  sentAt : Nat
  bytes : List Byte
  deadline : Nat
  deriving DecidableEq, Repr, Inhabited

/-- One Ivgal link (R199–R202). `frame` counts frames; `enumFor` are packets of IVGAL.ENUM that wait for an ENUM frame, and
`found` what the last ENUM frame for packets brought back, none for a time-out. `slept` is the running tick at which the SLEEP frame is out, where it is the
last one sent (R202). -/
structure IvgLink where
  starting : Bool := false
  mismatch : Bool := false
  brk : Bool := false
  breakAt : Nat := 0
  beaconRecords : Nat := 0
  frame : Nat := 0
  flight : Option IvgFlight := none
  lostRun : Nat := 0
  lastEnum : Nat := 0
  enumFor : List Packet := []
  waitFor : List Packet := []
  found : List (Packet × Option (List SatIdent)) := []
  frames : Nat := 0
  returned : Nat := 0
  skipped : Nat := 0
  lost : Nat := 0
  breaks : Nat := 0
  lastRet : Nat := 0
  sat : Tbl SatRun := []
  slept : Option Nat := none
  lastSent : List Byte := []
  deriving DecidableEq, Repr, Inhabited

/-- The settings of chapter 07 in the configuration store. -/
structure LightStore where
  string : Vector StringCfg 4 := Vector.replicate 4 {}
  prog : Vector (Option PatProg) 32 := Vector.replicate 32 none
  ivg : Vector IvgCfg 16 := Vector.replicate 16 {}
  deriving DecidableEq, Repr, Inhabited

/-- The lighting state: strings on the power die; engines, their waiting writes and those of this tick, and links in the tick
hall. -/
structure Light where
  string : Vector Strg 4 := Vector.replicate 4 {}
  engine : Vector Engine 32 := Vector.replicate 32 {}
  lag : List LagWrite := []
  patNow : Nat := 0
  ivg : Vector IvgLink 16 := Vector.replicate 16 {}
  deriving DecidableEq, Repr, Inhabited

end Sys2Proof.Machine
end

