-- ==== Sys2Proof/Parts/Keys.lean ====
section
/-! DEFINITION. The key slots (chapter 12). -/

namespace Sys2Proof.Machine

/-- What a key slot held before a change (R310, R311): its attributes and material up to the stamp E of the change, whether the change was
in abort mode, and the power die's tick of the change. -/
structure KeyPast where
  alg : Nat := 0
  usage : Nat := 0
  generation : Nat := 0
  material : List Byte := []
  until_ : Stamp := {}
  abort : Bool := false
  at_ : Nat := 0
  deriving DecidableEq, Repr, Inhabited

/-- One key slot (Table 12.4) with its material; `changed` is the stamp E of its last change (R310) and
`past` what admitted requests may still work with, newest first; `lowTold` says that NONCE_LOW has been posted (R314). The sealed form that R309 gives an
entry of MRAM shows nowhere: no command reads one, and a slot stands here in plain (DESIGN CHOICE, log entry 176). -/
structure KeySlot where
  alg : Nat := 0
  usage : Nat := 0
  owner : Nat := 0
  owned : Bool := false
  origin : Nat := 0
  generation : Nat := 0
  fixed : Nat := 0
  counter : Nat := 0
  commit : Nat := 0
  lowTold : Bool := false
  material : List Byte := []
  changed : Stamp := {}
  past : List KeyPast := []
  deriving DecidableEq, Repr, Inhabited

end Sys2Proof.Machine
end

