-- ==== Sys2Proof/Parts/Inputs.lean ====
section
/-! DEFINITION. The state of the switch and analogue inputs and of the field port (chapter 08). -/

namespace Sys2Proof.Machine

/-- A switch input's record of INPUT.CONFIG (Table 08.13). -/
structure SiCfg where
  enable : Bool := true
  toBat : Bool := false
  iWet : Nat := 1
  wetPulsed : Bool := true
  wakeEn : Bool := false
  thresh : Nat := 1
  countF : Nat := 20
  sample : Nat := 250
  pulse : Nat := 10
  iDark : Nat := 1
  deriving DecidableEq, Repr, Inhabited

/-- An analogue input's record of INPUT.CONFIG (Table 08.13). -/
structure AiCfg where
  enable : Bool := true
  range : Nat := 1
  pullup : Nat := 0
  avg : Nat := 1
  interval : Nat := 1000
  deriving DecidableEq, Repr, Inhabited

/-- The Dark settings of INPUT.CONFIG (Table 08.13). -/
structure DarkCfg where
  period : Nat := 3
  pulse : Nat := 0
  confirm : Nat := 2
  deriving DecidableEq, Repr, Inhabited

/-- A field input's record of FIELD.CONFIG (Table 08.14). -/
structure FiCfg where
  enable : Bool := true
  type3 : Bool := true
  wakeEn : Bool := false
  countF : Nat := 20
  sample : Nat := 250
  deriving DecidableEq, Repr, Inhabited

/-- A field output's record of FIELD.CONFIG (Table 08.14). -/
structure FoCfg where
  fail : Nat := 0
  park : Nat := 0
  olEn : Bool := true
  deriving DecidableEq, Repr, Inhabited

/-- The settings of chapter 08 in the configuration store. -/
structure InputStore where
  si : Vector SiCfg 48 := Vector.replicate 48 {}
  ai : Vector AiCfg 16 := Vector.replicate 16 {}
  dark : DarkCfg := {}
  fi : Vector FiCfg 16 := Vector.replicate 16 {}
  fo : Vector FoCfg 8 := Vector.replicate 8 {}
  deriving DecidableEq, Repr, Inhabited

/-- One switch input: comparator level, filter counter and filter output on the power die (R205, R207); its reference for
cyclic sensing and the periods in a row that differ from it (R209). -/
structure Si where
  raw : Bool := false
  count : Nat := 0
  out : Bool := false
  ref : Bool := false
  differs : Nat := 0
  deriving DecidableEq, Repr, Inhabited

/-- One field input on the field die (R217). -/
structure Fi where
  raw : Bool := false
  count : Nat := 0
  out : Bool := false
  deriving DecidableEq, Repr, Inhabited

/-- One analogue input (R213): the starts of its interval whose conversions are not all taken, oldest first, with the conversions each asks for, and the
codes that the oldest has. -/
structure Ai where
  starts : List Nat := []
  got : List Nat := []
  deriving DecidableEq, Repr, Inhabited

/-- One field output on the field die (R219–R221). -/
structure Fo where
  cmd : Bool := false
  cond : Cond := {}
  restarts : Nat := 0
  lastShutdown : Nat := 0
  deriving DecidableEq, Repr, Inhabited

/-- The active cause bits of the field outputs and the details of their THERMAL causes, as a frame shows them (Table 08.10). -/
structure FoShown where
  active : Vector Nat 8 := Vector.replicate 8 0
  therm : Vector Nat 8 := Vector.replicate 8 0
  deriving DecidableEq, Repr, Inhabited

/-- The field die (R215–R228). `tick` is its own count, `wire` the count of the link's ticks as it has last heard them, `lastGood` the TICK of the last
good frame and `nextWin` the window it expects next; `queue` holds the output commands not yet applied, with the field tick each is for; `parkFi` is FI_STATE at the moment of park; `cfgSeen` the configuration words it has been sent since power-up. Its
supplies start in class MISSING; `lowFrom` and `okFrom` are the ticks since which each is above 10.0 V and above 19.0 V. `chg` holds the changes of the
window in progress; `sent` is its last frame, until that has been received; `foSent` and `shown` are what that frame says of the outputs, and `telem` the
place of the next telemetry in its cycle. -/
structure FieldDie where
  running : Bool := false
  configured : Bool := false
  restarted : Bool := false
  lost : Bool := true
  parked : Bool := false
  parkDue : Bool := false
  goodRun : Nat := 0
  tick : Nat := 0
  wire : Nat := 0
  lastGood : Option Nat := none
  nextWin : Option Nat := none
  queue : List (Nat × Nat) := []
  fi : Vector Fi 16 := Vector.replicate 16 {}
  fo : Vector Fo 8 := Vector.replicate 8 {}
  fiCfg : Vector FiCfg 16 := Vector.replicate 16 {}
  foCfg : Vector FoCfg 8 := Vector.replicate 8 {}
  fsa : Nat := 2
  fsb : Nat := 2
  lowFrom : Vector (Option Nat) 2 := Vector.replicate 2 none
  okFrom : Vector (Option Nat) 2 := Vector.replicate 2 none
  missed : Nat := 0
  parkFi : Nat := 0
  cfgSeen : Nat := 0
  chg : List FieldChg := []
  sent : Option FieldFrame := none
  foSent : Nat := 0
  shown : FoShown := {}
  telem : Nat := 0
  deriving DecidableEq, Repr, Inhabited

/-- The main die's end of the barrier link (R222–R229): the window expected next, misses in a row and in the present stale
episode, what was last received, the counters, and the outputs commanded in the window in progress. `stale` is that it has decided to mark the points
stale, with a stamp that may not have been released; `cfgQueue` holds the configuration words still to be sent, `cfgStored` that settings were stored
while the points were stale; `known` the causes reported; `sent` the last frame, until the field die has received it. -/
structure FieldLink where
  next : Nat := 0
  missRun : Nat := 0
  missedNow : Nat := 0
  parked : Bool := false
  training : Bool := true
  needCfg : Bool := false
  stale : Bool := false
  cfgQueue : List (Nat × Nat) := []
  cfgStored : Bool := false
  known : FoShown := {}
  faultSent : Bool := false
  fiState : Nat := 0
  fsa : Nat := 0
  fsb : Nat := 0
  foState : Nat := 0
  foFault : Nat := 0
  vFsa : Nat := 0
  vFsb : Nat := 0
  temp : Nat := 0
  fieldMissed : Nat := 0
  active : Vector Nat 8 := Vector.replicate 8 0
  missed : Nat := 0
  chgOverflow : Nat := 0
  losses : Nat := 0
  foWindow : List Nat := []
  foLast : Nat := 0
  sent : Option MainFrame := none
  deriving DecidableEq, Repr, Inhabited

/-- The inputs and the field port; `count` is the power die's tick count, from the start of its core (R207), `aiSlot` the count of the last conversion slot
that was taken, `fs` the voltages of FSA and FSB in mV; `reloadSi` and `reloadFi` stay set from the start of the tick hall after Dark or Buoy until the inputs
that differ have been delivered (R211). -/
structure Inputs where
  si : Vector Si 48 := Vector.replicate 48 {}
  ai : Vector Ai 16 := Vector.replicate 16 {}
  count : Nat := 0
  aiSlot : Option Nat := none
  fs : Vector Nat 2 := Vector.replicate 2 0
  die : FieldDie := {}
  link : FieldLink := {}
  reloadSi : Bool := false
  reloadFi : Bool := false
  deriving DecidableEq, Repr, Inhabited

/-- What a reset of the logic die leaves of the inputs: the power die with its filters and its count (R207), the field supplies and the field die (R215,
R221). -/
def Inputs.kept (x : Inputs) : Inputs := { si := x.si, count := x.count, fs := x.fs, die := x.die }

end Sys2Proof.Machine
end

