-- ==== Sys2Proof/Parts/Sleep.lean ====
section
/-! DEFINITION. The state of wake latches, transceivers and network management (chapter 11). -/

namespace Sys2Proof.Machine

/-- A network's NM.CONFIG record (Table 11.10). -/
structure NmCfg where
  mode : Nat := 0
  node : Nat := 0
  base : Nat := 0
  ide : Bool := false
  kaMs : Nat := 500
  timeoutMs : Nat := 2000
  wbsMs : Nat := 1500
  ringTypMs : Nat := 100
  ringMaxMs : Nat := 260
  follow : Nat := 0
  user : Nat := 0
  deriving DecidableEq, Repr, Inhabited

/-- What a wake cause leads to (Table 11.2): its TARGET and its NET_MASK, none for the default mask of the cause. -/
structure WakeCfg where
  target : Nat := 2
  mask : Option Nat := none
  deriving DecidableEq, Repr, Inhabited

/-- The wake settings of a transceiver (Table 11.12). -/
structure XcvrCfg where
  wakeEn : Bool := true
  wupMode : Bool := false
  swEn : Bool := false
  swRate : Nat := 0
  swDlc : Nat := 0
  swIde : Bool := false
  swDataEn : Bool := false
  swId : Nat := 0
  swMask : Nat := 0
  swData : Nat := 0
  deriving DecidableEq, Repr, Inhabited

/-- The default TARGETs of causes 1–9 (Table 11.2). -/
def defaultWake (i : Nat) : WakeCfg := { target := if i = 1 then 1 else if i = 0 ∨ i = 7 ∨ i = 8 then 3 else 2 }

/-- The settings of chapter 11 in the configuration store. -/
structure SleepStore where
  net : Vector NmCfg 14 := Vector.replicate 14 {}
  buoyMs : Nat := 200
  alarm : Nat := 0
  wake : Vector WakeCfg 9 := Vector.ofFn fun i => defaultWake i.val
  xcvr : Vector XcvrCfg 14 := Vector.replicate 14 {}
  deriving DecidableEq, Repr, Inhabited

/-- A wake latch (R284): cause, index, the H0 tick in which it was observed, and that it counts as latched at or after the device commit tick. `told` is
that the wake event has reached the keeper through L5 (R21), `handled` that the device has acted on it, with its TARGET; `netsDue` that its networks are
still to be requested, and `logged` that it stands in the logbook. It is cleared once it is handled, posted and logged. -/
structure Latch where
  cause : Nat
  index : Nat
  tick : Nat
  late : Bool := false
  told : Bool := true
  handled : Bool := false
  target : Nat := 0
  netsDue : Bool := false
  logged : Bool := false
  deriving DecidableEq, Repr, Inhabited

/-- A peer of a network: its NODE, when it was last heard, and the rounds in a row without it (R293). -/
structure Peer where
  node : Nat
  heard : Nat := 0
  missed : Nat := 0
  deriving DecidableEq, Repr, Inhabited

/-- One network (Table 11.6): its state (0 off), that the device requests it, its transceiver (Table 11.3), its timers as the
ticks at which they fall due, its ring, and its counters. `counted` is that the present round of the ring has been counted (R293). `wakeReason` is the cause that its next message carries with
WAKE = 1. -/
structure Net where
  state : Nat := 0
  requested : Bool := false
  xcvr : Nat := 0
  kaAt : Option Nat := none
  timeoutAt : Option Nat := none
  wbsAt : Option Nat := none
  sendAt : Option Nat := none
  ringMaxAt : Option Nat := none
  opened : Bool := false
  allInd : Bool := true
  peers : List Peer := []
  wakeReason : Option Nat := none
  user : Nat := 0
  lastWake : Nat := 0
  sleeps : Nat := 0
  cancels : Nat := 0
  wakes : Nat := 0
  counted : Bool := false
  wakeFlag : Bool := false
  swErr : Nat := 0
  lastBus : Nat := 0
  deriving DecidableEq, Repr, Inhabited

/-- Sleep and wake: the latches; DARK_PENDING; the device commit tick; the tick at which the application pairs stop; the target
that a wake or a command moves toward; when Buoy was entered; and the RTC time of the alarm. -/
structure Sleep where
  latches : List Latch := []
  darkPending : Bool := false
  darkCommit : Option Nat := none
  pairStopAt : Option Nat := none
  target : Option Nat := none
  buoyAt : Nat := 0
  alarmAt : Option Nat := none
  net : Vector Net 14 := Vector.replicate 14 {}
  deriving DecidableEq, Repr, Inhabited

end Sys2Proof.Machine
end

