-- ==== Sys2Proof/Parts/Can.lean ====
section
/-! DEFINITION. The state of the CAN and LIN controllers (chapter 09). -/

namespace Sys2Proof.Machine

/-- NOMINAL record (Table 09.12). -/
structure CanNominal where
  brp : Nat := 1
  tseg1 : Nat := 127
  tseg2 : Nat := 32
  sjw : Nat := 32
  triple : Bool := false
  deriving DecidableEq, Repr, Inhabited

/-- DATA record (Table 09.12). -/
structure CanData where
  brp : Nat := 1
  tseg1 : Nat := 29
  tseg2 : Nat := 10
  sjw : Nat := 10
  tdcEn : Bool := true
  tdco : Nat := 30
  deriving DecidableEq, Repr, Inhabited

/-- MODE record (Table 09.12). OP is 0 OFF, 1 NORMAL, 2 LISTEN, 3 LOOPBACK. -/
structure CanMode where
  op : Nat := 0
  fd : Bool := true
  nonmatch : Nat := 0
  clashN : Nat := 2
  filterBase : Nat := 0
  filterLen : Nat := 256
  busoffMode : Bool := false
  txTimeout : Nat := 0
  deriving DecidableEq, Repr, Inhabited

/-- STREAM record (Table 09.12). -/
structure StreamCfg where
  enable : Bool := false
  tx : Bool := false
  keySlot : Nat := 0
  peerFixed : Nat := 0
  window : Nat := 64
  deriving DecidableEq, Repr, Inhabited

/-- Filter element (Table 09.4). -/
structure FilterElem where
  type : Nat := 0
  ide : Bool := false
  notify : Bool := false
  secure : Bool := false
  action : Nat := 0
  buffer : Nat := 0
  stream : Nat := 0
  id1 : Nat := 0
  id2 : Nat := 0
  sigFirst : Nat := 0
  sigCount : Nat := 0
  deriving DecidableEq, Repr, Inhabited

/-- Signal definition (Table 09.7). -/
structure SigDef where
  start : Nat := 0
  length : Nat := 0
  big : Bool := false
  signed : Bool := false
  muxed : Bool := false
  muxValue : Nat := 0
  muxDef : Nat := 0
  timeout : Nat := 0
  deriving DecidableEq, Repr, Inhabited

/-- A field of a frame template (Table 09.8). -/
structure TplField where
  point : Nat := 0
  start : Nat := 0
  length : Nat := 1
  big : Bool := false
  deriving DecidableEq, Repr, Inhabited

/-- Frame template with its owner (Table 09.8); a charter set has marked it unusable (R92). -/
structure Template where
  used : Bool := false
  controller : Nat := 0
  secure : Bool := false
  queue : Nat := 0
  stream : Nat := 0
  fdf : Bool := false
  brs : Bool := false
  ide : Bool := false
  len : Nat := 0
  fields : List TplField := []
  id : Nat := 0
  data : List Byte := []
  owner : Nat := 0
  unusable : Bool := false
  deriving DecidableEq, Repr, Inhabited

/-- LIN frame entry (Table 09.10). DIR is 0 ignore, 1 publish, 2 subscribe. -/
structure LinEntry where
  dir : Nat := 0
  len : Nat := 0
  enhanced : Bool := false
  notify : Bool := false
  eventOf : Nat := 0
  sigFirst : Nat := 0
  sigCount : Nat := 0
  assoc : Nat := 0
  deriving DecidableEq, Repr, Inhabited

/-- A slot of a LIN schedule table. TYPE is 0 unconditional, 1 event-triggered, 2 sporadic, 3 diagnostic. -/
structure LinSlot where
  id : Nat := 0
  type : Nat := 0
  ms : Nat := 1
  resolve : Nat := 0
  deriving DecidableEq, Repr, Inhabited

/-- The settings of a LIN controller. ROLE is 0 off, 1 commander, 2 responder. -/
structure LinCfg where
  role : Nat := 0
  pullup : Bool := false
  bitrate : Nat := 19200
  txTimeout : Nat := 1000
  entries : Tbl LinEntry := []
  tables : Vector (List LinSlot) 4 := Vector.replicate 4 []
  deriving DecidableEq, Repr, Inhabited

/-- The settings of chapter 09 in the configuration store, the committed freshness of each RX stream (R251),
and the key slot and generation that it belongs to. -/
structure CanStore where
  nominal : Vector CanNominal 8 := Vector.replicate 8 {}
  data : Vector CanData 8 := Vector.replicate 8 {}
  mode : Vector CanMode 8 := Vector.ofFn fun i => { filterBase := 256 * i.val }
  stream : Vector StreamCfg 8 := Vector.replicate 8 {}
  filter : Tbl FilterElem := []
  sig : Tbl SigDef := []
  tpl : Tbl Template := []
  lin : Vector LinCfg 6 := Vector.replicate 6 {}
  fresh : Vector Nat 8 := Vector.replicate 8 0
  freshKey : Vector (Nat × Nat) 8 := Vector.replicate 8 (0, 0)
  deriving DecidableEq, Repr, Inhabited

/-- A receive entry (Table 09.6). -/
structure RxEntry where
  seq : Nat := 0
  word : Nat := 0
  stamp : Nat := 0
  len : Nat := 0
  esi : Bool := false
  secure : Bool := false
  authOk : Bool := false
  element : Nat := 0
  data : List Byte := []
  deriving DecidableEq, Repr, Inhabited

/-- A frame in a controller's transmit FIFO or priority slot (R243–R249): its HANDLE, the packet that waits for it, whether
that packet executed late, how often it has been offered, the cancellations that are held for it, its TX_TIMEOUT, whether its tag is
ready, and how many of its last bytes are a MAC. -/
structure TxFrame where
  handle : Nat := 0
  frame : CanFrame := {}
  confirm : Option Packet := none
  late : Bool := false
  attempts : Nat := 0
  cancels : List Packet := []
  timeoutAt : Option Nat := none
  timeoutHeld : Bool := false
  secure : Bool := false
  mac : Nat := 0
  stream : Nat := 0
  tagReady : Bool := true
  readyAt : Nat := 0
  deriving DecidableEq, Repr, Inhabited

/-- A received secure frame that waits for its verdict (R28, R251), with the stamp that the verdict enters the plane under: 32 ticks after the
acceptance, however late it is ready. -/
structure Verdict where
  frame : CanFrame
  element : Nat
  stream : Nat
  at_ : Nat
  stamp : Stamp := {}
  fault : Bool := false
  deriving DecidableEq, Repr, Inhabited

/-- One CAN controller: state (0 off, 1 active, 2 passive, 3 bus-off, 4 integrating), error counters, counters of CAN.STATUS,
the clash table with the most recent identifier last, the MODE and DATA records that stay in force until the bus is idle (R235), the count of frames handed over, the FIFO and the slots, the frame
being offered, message RAM (buffers 0–63, FIFO 0 from 64, FIFO 1 from 128) and secure frames that wait for a verdict. -/
structure Can where
  state : Nat := 0
  txErr : Nat := 0
  recErr : Nat := 0
  recovering : Bool := false
  tdcvMax : Nat := 0
  rxFrames : Nat := 0
  txFrames : Nat := 0
  errors : Nat := 0
  busoffs : Nat := 0
  clashes : Nat := 0
  authFail : Nat := 0
  sigShort : Nat := 0
  nonmatch : Nat := 0
  lastClash : Nat := 0
  clashTbl : List (Nat × Nat) := []
  old : Option (CanMode × CanData) := none
  handles : Nat := 0
  fifo : List TxFrame := []
  slot0 : Option TxFrame := none
  slot1 : Option TxFrame := none
  current : Option Nat := none
  ram : Tbl RxEntry := []
  wseq0 : Nat := 0
  wseq1 : Nat := 0
  verdicts : List Verdict := []
  deriving DecidableEq, Repr, Inhabited

/-- One secure CAN stream (R250–R252, Table 12.6): the key copy taken at enable, the freshness accepted last, acceptances
since the last commit, the counter limit after a key change by drain, and whether it has stopped or its key was revoked. -/
structure CanStream where
  key : List Byte := []
  fixed : Nat := 0
  fr : Nat := 0
  accepted : Nat := 0
  limit : Option Nat := none
  stopped : Bool := false
  revoked : Bool := false
  deriving DecidableEq, Repr, Inhabited

/-- A publish buffer of a LIN controller (R256). -/
structure LinPub where
  data : List Byte := []
  written : Bool := false
  event : Bool := false
  deriving DecidableEq, Repr, Inhabited

/-- A confirmed LIN.SEND that waits for its response (R256). -/
structure LinWait where
  id : Nat
  handle : Nat
  packet : Packet
  late : Bool
  timeoutAt : Nat
  deriving DecidableEq, Repr, Inhabited

/-- One LIN controller: asleep or not, message RAM by identifier, counters with the error codes 1–6, the running table with
the index of its next slot and the tick of that slot, a table change or stop that waits for the end of the slot, the table
interrupted by a resolution, publish buffers, pending sporadic identifiers, a waiting master request, the identifier of
the header sent in the slot in progress, the resolution table of that slot, when its bus was last active, and the settings before the last
LIN.CONFIG with the tick of that, and the tick at which the last wake pulse ends (R294). -/
structure Lin where
  asleep : Bool := false
  ram : Tbl RxEntry := []
  rxFrames : Nat := 0
  txFrames : Nat := 0
  errs : Vector Nat 6 := Vector.replicate 6 0
  table : Option Nat := none
  ix : Nat := 0
  slotAt : Nat := 0
  pendingTable : Option (Option Nat) := none
  resume : Option (Nat × Nat) := none
  pub : Tbl LinPub := []
  sporadic : List Nat := []
  master : Option (List Byte) := none
  handles : Nat := 0
  waits : List LinWait := []
  header : Option Nat := none
  resolve : Option Nat := none
  lastBus : Nat := 0
  old : Option (LinCfg × Nat) := none
  pulseEnd : Option Nat := none
  deriving DecidableEq, Repr, Inhabited

/-- What landing L4 carries from the tick hall to the bus hall (R243, R246). -/
inductive L4Kind where
  | send (p : Packet) (late : Bool)
  | linSend (p : Packet) (late : Bool)
  | reflex (template : Nat)
  | cancel (p : Packet) (late : Bool)
  deriving DecidableEq, Repr, Inhabited

/-- An item of landing L4, with the running tick of its execution and its place in the order of R20 and R81. -/
structure L4Item where
  lin : Nat
  hall : Nat
  idx : Nat
  kind : L4Kind
  deriving DecidableEq, Repr, Inhabited

/-- A CAN.CANCEL in progress (R246): how many named frames are still undecided, and the counts of its reply. -/
structure CancelReq where
  packet : Packet
  late : Bool
  left : Nat
  cancelled : Nat
  lateCount : Nat
  deriving DecidableEq, Repr, Inhabited

/-- The bus hall. `sigLast` holds, by definition, the running tick that the stamp of its last write names; `sigOut` the definitions whose timeout has been
posted; `sigBase` the running tick at which every timeout last restarted. -/
structure Bus where
  can : Vector Can 8 := Vector.replicate 8 {}
  stream : Vector CanStream 8 := Vector.replicate 8 {}
  lin : Vector Lin 6 := Vector.replicate 6 {}
  l4 : List L4Item := []
  cancels : List CancelReq := []
  sigLast : Tbl Nat := []
  sigOut : List Nat := []
  sigBase : Nat := 0
  deriving DecidableEq, Repr, Inhabited

end Sys2Proof.Machine
end

