-- ==== Sys2Proof/Parts/Eth.lean ====
section
/-! DEFINITION. The state of the Ethernet ports and the switch (chapter 10). -/

namespace Sys2Proof.Machine

/-- PORT record (Table 10.4). `leader` is ROLE, `check` is VALIDATE. -/
structure EthPortCfg where
  enable : Bool := false
  leader : Bool := false
  secureOnly : Bool := false
  tc10En : Bool := false
  wakeEn : Bool := false
  sleepOk : Bool := false
  forward : Bool := false
  check : Bool := false
  speed : Nat := 0
  pcp : Nat := 0
  accept : Nat := 0
  pvid : Nat := 1
  nodeId : Nat := 0
  nodeCount : Nat := 0
  burst : Nat := 0
  plca : Bool := false
  reserve : Vector Nat 8 := Vector.replicate 8 16
  deriving DecidableEq, Repr, Inhabited

/-- VLAN record (Table 10.4); VID 0 is an unused entry. -/
structure Vlan where
  vid : Nat := 0
  member : Nat := 0
  untag : Nat := 0
  deriving DecidableEq, Repr, Inhabited

/-- SWITCH record (Table 10.4). RXMAP holds 2 bits for each PCP. -/
structure SwitchCfg where
  mac : Nat := 0
  ageS : Nat := 300
  rxmap : Nat := 0xFA50
  appPvid : Nat := 1
  deriving DecidableEq, Repr, Inhabited

/-- Settings of ETH.TIME (Table 10.8). -/
structure TimeSyncCfg where
  gm : Bool := false
  slave : Nat := 15
  masters : Nat := 0
  syncLog : Int := -3
  deriving DecidableEq, Repr, Inhabited

/-- A secure association (R267–R272): its next PN, the first PN not yet reserved, the copy of its key and the generation it
was copied at; `stopped` is 0, or the cause of ETH_SA_STOP. -/
structure Sa where
  port : Nat := 0
  rx : Bool := false
  sci : Nat := 0
  an : Nat := 0
  keySlot : Nat := 0
  ssci : Nat := 0
  salt : List Byte := []
  pn : Nat := 1
  commit : Nat := 0
  window : Nat := 0
  gen : Nat := 0
  key : List Byte := []
  current : Bool := false
  stopped : Nat := 0
  warned : Bool := false
  deriving DecidableEq, Repr, Inhabited

/-- A receive channel that is or was bound to C15 (R94, R96): port, peer SCI, bound now, last SEQ accepted. -/
structure CmdChannel where
  port : Nat
  sci : Nat
  bound : Bool := false
  seq : Nat := 0
  deriving DecidableEq, Repr, Inhabited

/-- Defaults of a port record (Table 10.4): PLCA settings stand on ETH6–ETH7 only. -/
def defaultPort (n : Nat) : EthPortCfg := if 6 ≤ n then { nodeCount := 8, plca := true } else {}

/-- The settings of chapter 10 in the configuration store, the SAs and the command channels. -/
structure EthStore where
  port : Vector EthPortCfg 8 := Vector.ofFn fun i => defaultPort i.val
  vlan : Tbl Vlan := [(0, { vid := 1, member := 0x3FF, untag := 0x3FF })]
  sw : SwitchCfg := {}
  time : TimeSyncCfg := {}
  sas : List Sa := []
  cmd : List CmdChannel := []
  deriving DecidableEq, Repr, Inhabited

/-- The counters of ETH.STATUS (Table 10.7). -/
structure EthCounters where
  rxFrames : Nat := 0
  txFrames : Nat := 0
  rxDrop : Nat := 0
  qDrop : Vector Nat 8 := Vector.replicate 8 0
  invalid : Nat := 0
  late : Nat := 0
  hold : Nat := 0
  saDrop : Nat := 0
  cmdDrop : Nat := 0
  powerDrop : Nat := 0
  deriving DecidableEq, Repr, Inhabited

/-- A frame in an egress queue with its priority, its tag and the cells it holds (R263, R264), the port that it came in on, and whether a receive SA
validated it. -/
structure Queued where
  frame : EthFrame
  pcp : Nat
  vid : Nat
  tagged : Bool
  cells : Nat
  ingress : Nat := 8
  secure : Bool := false
  deriving DecidableEq, Repr, Inhabited

/-- One switch port: link (0 down, 1 up, 2 training, 3 off), the tick link-up may be complete from, TC10 (0 awake, 1 sleep
requested, 2 asleep) with the tick of the request, measured peer delay and the tick from which the next measurement is due, TC10 wake-up requests sent, counters,
its egress queues in order of arrival, and the frame that it sent last. -/
structure EthPort where
  link : Nat := 3
  upFrom : Nat := 0
  tc10 : Nat := 0
  tc10At : Nat := 0
  peerNs : Nat := 0
  peerDue : Nat := 0
  wakeTx : Nat := 0
  cnt : EthCounters := {}
  queue : List Queued := []
  sent : Option EthFrame := none
  deriving DecidableEq, Repr, Inhabited

/-- A learned address (R262). -/
structure Learned where
  mac : Nat
  vid : Nat
  port : Nat
  at_ : Nat
  deriving DecidableEq, Repr, Inhabited

/-- A command frame whose packets run on ring 31 (R95): where it came from, its SEQ, its first slot and its slots. -/
structure CmdFrame where
  port : Nat
  sci : Nat
  mac : Nat
  vid : Nat
  seq : Nat
  first : Nat
  count : Nat
  deriving DecidableEq, Repr, Inhabited

/-- The packet hall: the ports, learned addresses, command frames received but not yet copied and those that run, and the time-sync
unit: its state (0 free-running, 1 locked, 2 holdover), sync seen in this interval, intervals missed and good in a row, the last Sync received with its tick, and
the number of the next one sent. -/
structure Eth where
  port : Vector EthPort 10 := Vector.replicate 10 {}
  learned : List Learned := []
  cmdIn : List (Stamp × Nat × EthFrame) := []
  cmdRun : List CmdFrame := []
  timeState : Nat := 0
  syncSeen : Bool := false
  missed : Nat := 0
  good : Nat := 0
  syncAt : Nat := 0
  syncIn : Option (List Byte × Nat) := none
  syncSeq : Nat := 0
  deriving DecidableEq, Repr, Inhabited

/-- A segment of a crypto request that its context has admitted (Table 12.3); `first` of its message; the data blocks of it that have been computed and written. -/
structure CryptoSeg where
  slot : Nat := 0
  first : Bool := true
  bytes : List Byte := []
  done : Nat := 0
  deriving DecidableEq, Repr, Inhabited

/-- One context of the crypto rings (R298): the message in progress with its key copy, generation, IV, its AAD and ciphertext so
far (the GHASH state) and its data (the counter state), the segment admitted, when its last segment completed, and the status that
the rest of a failed message completes with. -/
structure CipherCtx where
  busy : Bool := false
  op : Nat := 0
  keySlot : Nat := 0
  expGen : Nat := 0
  gen : Nat := 0
  key : List Byte := []
  iv : List Byte := []
  aad : List Byte := []
  data : List Byte := []
  cipher : List Byte := []
  inData : Bool := false
  blocks : Nat := 0
  seg : Option CryptoSeg := none
  lastAt : Nat := 0
  abort : Bool := false
  rest : Option Nat := none
  deriving DecidableEq, Repr, Inhabited

/-- A protected frame in the ingress hold (R269): its context, the cells it holds, the work that it still waits for, in 64ths of a block, and the frame with its
port. -/
structure HoldItem where
  ctx : Nat
  cells : Nat
  left : Nat
  port : Nat
  frame : EthFrame
  deriving DecidableEq, Repr, Inhabited

/-- The cipher hall: the contexts of rings 32–47, the context that the engine visits next and the blocks that it has computed of the request in each
of the 32 contexts (R299), the ingress hold (R269), when the last context became idle, the ticks of the mismatches within the last second, and that a
health test of the TRNG fails (R316). -/
structure Cipher where
  ctx : Vector CipherCtx 16 := Vector.replicate 16 {}
  turn : Nat := 0
  computed : Vector Nat 32 := Vector.replicate 32 0
  hold : List HoldItem := []
  idleSince : Nat := 0
  mismatches : List Nat := []
  trngFail : Bool := false
  deriving DecidableEq, Repr, Inhabited

end Sys2Proof.Machine
end

