-- ==== Sys2Proof/Parts/Images.lean ====
section
/-! DEFINITION. The state of boot, images, trial runs, attestation and debug access (chapter 13). -/

namespace Sys2Proof.Config

/-- The header of the keeper image that the part is delivered with; the manual states no VERSION, SVN or digest of it. -/
opaque keeperHeaderRaw : List Byte

/-- The header of the delivered keeper image, 4,096 bytes. -/
def keeperHeader : List Byte := padTo 4096 keeperHeaderRaw

end Sys2Proof.Config

namespace Sys2Proof.Machine

/-- One bank (Tables 13.5, 13.7): its state, its image header (4,096 bytes), the chunks of its payload, BOOT_LEFT, TRIAL_S, and that it still holds the image of
the delivery, whose payload the model does not hold (PRESUMED to verify, log entry 186). -/
structure Bank13 where
  state : Nat := 0
  header : List Byte := []
  chunks : Tbl (List Byte) := []
  bootLeft : Nat := 0
  trialS : Nat := 0
  delivered : Bool := false
  deriving DecidableEq, Repr, Inhabited

/-- The installed owner record (R327). -/
structure OwnerRecord where
  header : List Byte := []
  version : Nat := 0
  payload : List Byte := []
  deriving DecidableEq, Repr, Inhabited

/-- What persists of chapter 13: the OTP fields (Table 13.1), the four banks, the owner record, and the MRAM controller's sealed-write
counter (R60). Keeper bank 0 holds the delivered keeper image. -/
structure ImageStore where
  ownerRoot : List Byte := List.replicate 32 0
  lifecycle : Nat := 1
  keeperSvn : Nat := 0
  appSvn : Nat := 0
  bank : Vector Bank13 4 := Vector.ofFn fun i => if i.val = 0 then { state := 3, header := Config.keeperHeader, delivered := true } else {}
  owner : Option OwnerRecord := none
  sealWrites : Nat := 0
  deriving DecidableEq, Repr, Inhabited

/-- The open transfer (R332). -/
structure Transfer where
  number : Nat
  owner : Nat
  kind : Nat
  bank : Nat
  header : List Byte
  key : List Byte
  chunks : Tbl (List Byte) := []
  lastAt : Nat
  deriving DecidableEq, Repr, Inhabited

/-- The trial run (R338–R342): its state (0 none, 1 armed, 2 running, 3 ended), its settings, its report (Table 13.13), the items of
either image that have no partner yet, and the two items of the divergence; the candidate's SRAM_NEED, the shadow ring blocks, and that pair 1
has left its windows or a shadow ring has dropped a record (R339); matched items whose live one has not completed, and what live items
that wait for their partner have received (R340): bytes by their offset in the item. -/
structure Trial where
  state : Nat := 0
  tagCmp : Bool := false
  runS : Nat := 0
  window : Nat := 80000
  cause : Nat := 0
  comp : Nat := 0
  ring : Nat := 0
  liveSlot : Nat := 0
  candSlot : Nat := 0
  byte : Nat := 0xFFFF
  startStamp : Stamp := {}
  startLin : Nat := 0
  divStamp : Stamp := {}
  exec : Nat := 0
  matched : Nat := 0
  live : List TrialItem := []
  cand : List TrialItem := []
  liveBytes : List Byte := []
  candBytes : List Byte := []
  need : Nat := 0
  shadow : Tbl Ring := []
  fault : Bool := false
  pairs : List (TrialItem × TrialItem) := []
  replies : List (TrialItem × List (Nat × List Byte)) := []
  deriving DecidableEq, Repr, Inhabited

/-- Debug access (R344): the challenge with the tick it was issued, that it has been used, the scope unlocked with its end, that
an unlock has been active since the last cold reset, and the scope of one that a reset ended and no start has reported yet. -/
structure Debug where
  challenge : Option (List Byte) := none
  issuedAt : Nat := 0
  spent : Bool := false
  scope : Option Nat := none
  until_ : Nat := 0
  since : Bool := false
  lockDue : Option Nat := none
  deriving DecidableEq, Repr, Inhabited

/-- What a reset or Dark leaves of debug access (R344): that it was unlocked since the last cold reset, and the lock that the next start reports. -/
def Debug.afterReset (d : Debug) : Debug := { since := d.since, lockDue := d.scope.or d.lockDue }

/-- What runs of chapter 13: the keeper slots 0–15 as the last start has rebuilt and loaded them, which are no part of the MRAM (R322), that pair 1 is held in
reset after a trial (R341), the keeper bank that runs, that no application runs and why (0 runs, 1 the charter set failed, 2 no valid
application), that both keeper banks failed (R329), the transfer, the trial and debug access; a charter set that failed leaves the
service charter of C14 in force. -/
structure Image where
  slots : Tbl KeySlot := []
  pairHeld : Bool := false
  keeperBank : Nat := 0
  bootFail : Nat := 0
  dead : Bool := false
  transfers : Nat := 0
  transfer : Option Transfer := none
  trial : Trial := {}
  dbg : Debug := {}
  deriving DecidableEq, Repr, Inhabited

end Sys2Proof.Machine
end

