-- ==== Sys2Proof/Parts/Access.lean ====
section
/-! DEFINITION. The state of access and engine release (chapter 14). -/

namespace Sys2Proof.Machine

/-- Settings of one handle sensor (Table 14.9); THRESH in 0.1 pF. -/
structure HandleCfg where
  wakeEn : Bool := false
  autoPoll : Bool := false
  confirm : Nat := 1
  antMask : Nat := 0
  thresh : Nat := 10
  deriving DecidableEq, Repr, Inhabited

/-- ACCESS.CONFIG (Table 14.9); I_ANT in 10 mA. -/
structure AccessCfg where
  vehicle : Nat := 0
  sessionS : Nat := 30
  target : Nat := 3
  sessionPoint : Nat := 0
  doors : Nat := 0
  handle : Vector HandleCfg 4 := Vector.replicate 4 {}
  iAnt : Vector Nat 6 := Vector.replicate 6 50
  deriving DecidableEq, Repr, Inhabited

/-- A token entry (R360): STATE is 0 empty, 1 enrolled, 2 revoked. -/
structure Token where
  state : Nat := 0
  rights : Nat := 0
  keySlot : Nat := 0
  gen : Nat := 0
  tokenId : Nat := 0
  lastStatus : Nat := 0
  lastValid : Nat := 0
  deriving DecidableEq, Repr, Inhabited

/-- RELEASE.CONFIG (Table 14.12). -/
structure ReleaseCfg where
  enable : Bool := false
  resume : Bool := true
  brs : Bool := true
  queue : Nat := 1
  controller : Nat := 0
  keySlot : Nat := 16
  id : Nat := 0
  ide : Bool := false
  periodMs : Nat := 100
  deriving DecidableEq, Repr, Inhabited

/-- What the configuration store keeps of chapter 14: settings, tokens, the failed-attempt counter and the release state. -/
structure AccessStore where
  cfg : AccessCfg := {}
  token : Vector Token 8 := Vector.replicate 8 {}
  failed : Nat := 0
  release : ReleaseCfg := {}
  released : Bool := false
  relIndex : Nat := 0
  deriving DecidableEq, Repr, Inhabited

/-- A handle sensor (R347): touched, the touch state last delivered, polls in a row at or above the threshold, and the baseline in 1/1,280
of 0.01 pF, none before the first poll. -/
structure Handle where
  touched : Bool := false
  told : Bool := false
  count : Nat := 0
  base : Option Nat := none
  deriving DecidableEq, Repr, Inhabited

/-- A TOKEN.ENROLL with VERIFY that waits for its poll. -/
structure Enrol where
  index : Nat
  entry : Token
  deriving DecidableEq, Repr, Inhabited

/-- A poll (R352–R358): its purpose, the packet that waits for it, the antennas, VEHICLE_ID and I_ANT in force at its E, the challenge,
MASK and RETRY mask; the phase (0 POLL frame, 1 its slots, 2 RETRY frame, 3 its slots), the tick the frame ends or has ended; and
results, STATUS bytes and responses by index. `allAnts` are the antennas that its ANT_MASK names; `closed` are the slots of the phase that have closed; `start` the stamp of E; `revoked` the indices revoked since the challenge; `buoy` a poll without the tick hall, whose closed slots wait in
`verdicts`. -/
structure Poll where
  purpose : Nat := 1
  packet : Option Packet := none
  late : Bool := false
  enrol : Option Enrol := none
  antMask : Nat := 0
  allAnts : Nat := 0
  vehicle : Nat := 0
  iAnt : Vector Nat 6 := Vector.replicate 6 50
  start : Stamp := {}
  challenge : List Byte := []
  mask : Nat := 0
  retry : Nat := 0
  phase : Nat := 0
  frameEnd : Nat := 0
  closed : Nat := 0
  result : Vector Nat 8 := Vector.replicate 8 0
  status : Vector Nat 8 := Vector.replicate 8 0
  response : Vector (List Byte) 8 := Vector.replicate 8 []
  revoked : Nat := 0
  buoy : Bool := false
  verdicts : List (Nat × Nat) := []
  deriving DecidableEq, Repr, Inhabited

/-- An open session (R361). -/
structure Session where
  index : Nat
  tokenId : Nat
  openedAt : Nat
  number : Nat
  deriving DecidableEq, Repr, Inhabited

/-- A release frame that has been built (R365): the running tick of its hand-over, its COUNTER, and the frame. -/
structure RelFrame where
  at_ : Nat
  counter : Nat
  frame : CanFrame
  deriving DecidableEq, Repr, Inhabited

/-- A grant in Buoy that opens its session at tick 0 (R362): the index and the slots' verdicts. -/
structure BuoyGrant where
  index : Nat
  verdicts : List (Nat × Nat)
  deriving DecidableEq, Repr, Inhabited

/-- Access and release: handles, the poll that runs, the session, antennas off after a short and those last found open, release
frames that wait for their tick, the running tick of a block that asks for an extra frame, the state that stood before a change with its
running tick, RELEASE records that wait for the COUNTER of their first
frame, a grant in Buoy, and the counters of ACCESS.STATUS. -/
structure Access where
  handle : Vector Handle 4 := Vector.replicate 4 {}
  poll : Option Poll := none
  session : Option Session := none
  sessions : Nat := 0
  lfOpen : Nat := 0
  lfShort : Nat := 0
  relFrames : List RelFrame := []
  extraAt : Option Nat := none
  relBefore : Option (Nat × Bool × Nat) := none
  relRecords : List (List Byte) := []
  buoyGrant : Option BuoyGrant := none
  polls : Nat := 0
  grants : Nat := 0
  garbled : Nat := 0
  sent : Nat := 0
  skipped : Nat := 0
  deriving DecidableEq, Repr, Inhabited

/-- A counter's selector (R385). -/
structure Selector where
  cls : Nat := 0
  index : Nat := 0
  level : Bool := false
  enable : Bool := false
  deriving DecidableEq, Repr, Inhabited

/-- Settings of a dump ring (Table 16.5). -/
structure DumpCfg where
  enable : Bool := false
  sizeLog2 : Nat := 4
  window : Nat := 1000
  mask : Nat := 0
  deriving DecidableEq, Repr, Inhabited

/-- A watch grant (WATCH.GRANT). -/
structure WatchGrant where
  halls : Nat := 0
  ports : Nat := 0
  ring60 : Bool := false
  ring61 : Bool := false
  deriving DecidableEq, Repr, Inhabited

/-- The settings of chapter 16 in the configuration store. -/
structure WatchStore where
  sel : Tbl Selector := []
  dump : Vector DumpCfg 2 := Vector.replicate 2 {}
  grant : Vector WatchGrant 16 := Vector.replicate 16 {}
  deriving DecidableEq, Repr, Inhabited

/-- A port meter (R389). -/
structure Meter where
  rx : Nat := 0
  tx : Nat := 0
  deriving DecidableEq, Repr, Inhabited

/-- A dump ring's run (R391, R392): records written, halls cleared in the window, the running tick of the last reading, and the last
reading that was written with its running tick; none before the first record. -/
structure DumpRun where
  seq : Nat := 0
  cleared : Nat := 0
  readAt : Option Nat := none
  last : Option (Nat × List Meter) := none
  deriving DecidableEq, Repr, Inhabited

/-- The last WATCH.SNAP of a compartment: of a hall with its running tick, and of port entries with the meters. -/
structure SnapRun where
  hallAt : Option Nat := none
  last : Option (Nat × List Meter) := none
  deriving DecidableEq, Repr, Inhabited

/-- The watch room: counters by number, the running tick from which a hall's counters (key h) or one counter (key 256 + its number) count,
the meters, the running tick after the last one in which a port was up, and the readings that rates are taken from. -/
structure Watch where
  cnt : Tbl Nat := []
  clearedAt : Tbl Nat := []
  meter : Tbl Meter := []
  upAt : Tbl Nat := []
  dump : Vector DumpRun 2 := Vector.replicate 2 {}
  snap : Vector SnapRun 16 := Vector.replicate 16 {}
  deriving DecidableEq, Repr, Inhabited

/-- The TAP (R345): its instruction (0 BYPASS, 1 IDCODE, 2 SAMPLE/PRELOAD, 3 EXTEST, 4 INTEST), what its data register shifts out, the
cells preloaded, and that an external or internal test acts. -/
structure Tap where
  instr : Nat := 1
  out : Nat := 0
  cells : Nat := 0
  acting : Bool := false
  deriving DecidableEq, Repr, Inhabited

/-- Lands of chapters 14 and 17: TKR_EN of the token receive port (R351), VIO is at least 1.5 V, HOST_IRQ has been applied since the last reset (R404), the causes of IRQ_OUT at the end of
the last tick and the running tick at which its pulse ends (Table 03.21), the bytes that the device drove in the last host SPI frame (Table
03.10), and the TAP. -/
structure Pins where
  tkrEn : Bool := false
  vio : Bool := false
  irqApplied : Bool := false
  irqCauses : Nat := 0
  irqPulseEnd : Nat := 0
  spiOut : List Byte := []
  tap : Tap := {}
  deriving DecidableEq, Repr, Inhabited

end Sys2Proof.Machine
end

