-- ==== Sys2Proof/Machine/State.lean ====
section
/-! DEFINITION. The state of the VB-7260: what the configuration store keeps, what runs in each die and hall, memory, and
the queue of waiting commands. -/

namespace Sys2Proof.Machine

/-- Why the machine stops with a fault. -/
inductive Fault where
  /-- A supply command names a voltage above 58 V: outside the ratings no statement of the manual applies (R1, Table 02.3).
  Raised by the supply commands of chapter 02. Safe: the model stops where the manual says nothing. -/
  | outsideRatings
  deriving DecidableEq, Repr, Inhabited

/-- Why a command has no meaning. -/
inductive Refusal where
  /-- A command whose meaning is not written yet. Raised by arms of `exec` only. Safe: the model stops. -/
  | notModelled (mnemonic : String)
  deriving DecidableEq, Repr, Inhabited

/-- What the configuration store, the slot store and the logbook keep, as one copy (R43, R111). -/
structure Store where
  charters : CharterSet := {}
  nextCharters : Option CharterSet := none
  sys : SysCfg := {}
  attrs : Tbl PointAttr := []
  rules : Tbl Rule := []
  capArm : CapArm := {}
  epoch : Nat := 0
  log : Logbook := {}
  rtc : RtcStore := {}
  load : LoadStore := {}
  motor : MotorStore := {}
  light : LightStore := {}
  input : InputStore := {}
  sleep : SleepStore := {}
  can : CanStore := {}
  keys : Tbl KeySlot := []
  eth : EthStore := {}
  image : ImageStore := {}
  access : AccessStore := {}
  watch : WatchStore := {}
  deriving DecidableEq, Repr, Inhabited

/-- The state of the machine. `now` counts the ticks of the power die's own clock, which runs through resets of the logic
die; `free` and `drawn` count the free values and the random bytes taken; `saved` holds the part's own store while a replay
works on its view of it (R43). -/
structure State where
  seq : Seq := {}
  ret : Retention := {}
  plane : Plane := {}
  points : Points := {}
  rtc : Rtc := {}
  store : Store := {}
  link : Link := {}
  load : LoadDie := {}
  motor : MotorDie := {}
  light : Light := {}
  input : Inputs := {}
  sleep : Sleep := {}
  bus : Bus := {}
  eth : Eth := {}
  cipher : Cipher := {}
  image : Image := {}
  access : Access := {}
  watch : Watch := {}
  pins : Pins := {}
  mem : List Host.Cell := []
  now : Nat := 0
  free : Nat := 0
  drawn : Nat := 0
  saved : Option (Store × Rtc) := none
  pending : List Instr := []
  deriving DecidableEq, Repr, Inhabited

/-- The machine right after a cold reset, before VBATL rises: every field at its reset value. -/
def State.reset : State := {}

/-- What a command answers. -/
abbrev Answer := Host.Outcome State Fault Refusal

end Sys2Proof.Machine
end

