-- ==== Sys2Proof/Config.lean ====
section
/-! DEFINITION. What an implementation fixes and what the manual leaves open: the free values, the random source, and what the manual does not lay down.
None of these has a body that a proof could look into. Beside them stand the cryptographic functions that the manual takes from other standards, with the
lengths that it gives (PRESUMED, log entries 11 and 12). -/

namespace Sys2Proof.Config

open Sys2Proof.Machine

/-- A fresh free value, by the state's count of free values taken. -/
opaque freeValue : Nat → BitVec 64

/-- What the cells of the boundary-scan register capture (R345, R399), by the count of free values taken. -/
opaque boundaryCells : Nat → Nat

/-- Byte `n` of the true random source, by the count of bytes drawn (R320). -/
opaque trngByte : Nat → Byte

/-- SHAKE256 with an output of `n` bytes (R315, HASH; FIPS 202). -/
def shake (n : Nat) (m : List Byte) : List Byte := padTo n (shakeBytes n m)

/-- SHAKE256 with a 32-byte output. -/
def shake256 (m : List Byte) : List Byte := shake 32 m

/-- KMAC256 over a message under a key with a customisation and `n` output bytes (SP 800-185). -/
def kmac256 (n : Nat) (key msg custom : List Byte) : List Byte := padTo n (kmacBytes n key msg custom)

/-- One AES block encryption, AES-128 or AES-256 by the length of the key (FIPS 197). -/
def aes (key block : List Byte) : List Byte := padTo 16 (aesBlock key block)

/-- Byte `i` of the GCM key stream: the counter block 2 + i / 16 under a 12-byte IV (SP 800-38D). -/
def gcmStream (key iv : List Byte) (i : Nat) : Byte := (aes key (iv ++ beBytes 4 (i / 16 + 2))).getD (i % 16) 0

/-- AES-GCM encryption or decryption of the part of a text that starts at byte `off`. -/
def gcmCrypt (key iv : List Byte) (off : Nat) (data : List Byte) : List Byte :=
  data.mapIdx fun i b => b ^^^ gcmStream key iv (off + i)

/-- The 16-byte tag of AES-GCM over AAD and ciphertext. -/
def gcmTag (key iv aad cipher : List Byte) : List Byte := padTo 16 (gcmTagBytes key iv aad cipher)

/-- The public part that belongs to the material of an asymmetric key slot, by its ALG. -/
def publicPart (alg : Nat) (material : List Byte) : List Byte := if alg = 4 then dsaPublic material else kemPublic material

/-- A deterministic ML-DSA-65 signature, 3,309 bytes: material, context string, message (FIPS 204). -/
def sign (key ctx msg : List Byte) : List Byte := padTo 3309 ((dsaSign key ctx msg).getD [])

/-- A signing reaches the bound of 814 rejection iterations (R315): material, context string, message. -/
def signExhausts (key ctx msg : List Byte) : Bool := (dsaSign key ctx msg).isNone

/-- Whether a signature verifies: public key, context string, message, signature. -/
def verify (pk ctx msg sig : List Byte) : Bool := dsaVerify pk ctx msg sig

/-- ML-KEM-768 decapsulation, a 32-byte secret: material and ciphertext (FIPS 203). -/
def decaps (key ct : List Byte) : List Byte := padTo 32 (kemDecaps key ct)

/-- The bytes that a result stream is digested as (R38, R39); the manual does not lay them out. -/
opaque resultBytes : List ResultItem → List Byte

/-- The result digest up to tick `t`: SHAKE256 over the result stream (R38). -/
def resultDigest (t : Nat) (r : List ResultItem) : List Byte := shake256 (resultBytes (resultStream t r))

/-- The 16-byte device identifier in OTP (Table 03.17). -/
opaque uidRaw : List Byte

/-- The device identifier, 16 bytes. -/
def uid : List Byte := padTo 16 uidRaw

/-- STEPPING of the logic, power, PHY and field dies (Table 03.17). -/
opaque stepping : Nat → Byte

/-- DEVICE_SECRET (Table 13.1), drawn at final test. -/
opaque deviceSecretRaw : List Byte

/-- DEVICE_SECRET, 32 bytes. -/
def deviceSecret : List Byte := padTo 32 deviceSecretRaw

/-- The Foldun keeper-signing key in the boot ROM (Table 13.2). -/
opaque foldunKeyRaw : List Byte

/-- The Foldun keeper-signing key, 1,952 bytes. -/
def foldunKey : List Byte := padTo 1952 foldunKeyRaw

/-- SERIAL, NOT_BEFORE and NOT_AFTER of the KIND 4 certificate (0–2), the device's (3–5) and the intermediate one (6–8) (Table 13.3); the manual states no value. -/
opaque certNumber : Nat → BitVec 64

/-- What final test wrote that the manual does not state: the signatures of the device certificate (0) and of the intermediate one (1), the SUBJECT (2) and public
key (3) of the intermediate, and the root's public key (4). -/
opaque certRaw : Nat → List Byte

/-- A part of a certificate with its length. -/
def certPart (n length : Nat) : List Byte := padTo length (certRaw n)

/-- The plaintext bytes of a configuration store, which CONFIG_DIGEST and the replay configuration digest are taken over (R39, Table 13.6);
the manual does not lay them out. -/
opaque storeBytes : Store → List Byte

end Sys2Proof.Config
end

