-- ==== Sys2Proof/Machine/Operands.lean ====
section
/-! DEFINITION. The operands of a command packet: its header and argument fields, the status codes, the reply bytes, the
check of reserved bits, and what a charter lets a compartment name. -/

namespace Sys2Proof.Machine

/-- The status codes (Table 03.15). -/
inductive Status where
  | ok
  | pend
  | late
  | badop
  | badarg
  | denied
  | conflict
  | busy
  | timeout
  | supply
  | thermal
  | locked
  | overlap
  | nodiag
  | stale
  | cancelled
  | cancelLate
  | clash
  | authFail
  | keyChanged
  | keyRevoked
  | nonceExhausted
  | hwFault
  | imageBad
  | rollback
  | logFull
  | timeRefused
  | noToken
  deriving DecidableEq, Repr, Inhabited

/-- The code of a status (Table 03.15). -/
def Status.code : Status → Nat
  | .ok => 0x0000
  | .pend => 0x0001
  | .late => 0x0002
  | .badop => 0x0010
  | .badarg => 0x0011
  | .denied => 0x0012
  | .conflict => 0x0013
  | .busy => 0x0014
  | .timeout => 0x0015
  | .supply => 0x0020
  | .thermal => 0x0021
  | .locked => 0x0022
  | .overlap => 0x0023
  | .nodiag => 0x0024
  | .stale => 0x0025
  | .cancelled => 0x0030
  | .cancelLate => 0x0031
  | .clash => 0x0032
  | .authFail => 0x0040
  | .keyChanged => 0x0041
  | .keyRevoked => 0x0042
  | .nonceExhausted => 0x0043
  | .hwFault => 0x0044
  | .imageBad => 0x0050
  | .rollback => 0x0051
  | .logFull => 0x0060
  | .timeRefused => 0x0061
  | .noToken => 0x0070

end Sys2Proof.Machine

namespace Sys2Proof

/-- The little-endian number in `n` bytes of a packet from byte `b` on (R7). -/
def Packet.num (p : Packet) (b n : Nat) : Nat := leNat ((p.bytes.drop b).take n)

/-- Bits [lo + w − 1 : lo] counted from byte `b` of a packet. -/
def Packet.fld (p : Packet) (b lo w : Nat) : Nat := bitsOf (p.num b 4) lo w

/-- Bit `lo` counted from byte `b` of a packet. -/
def Packet.bit (p : Packet) (b lo : Nat) : Bool := (p.num b 4).testBit lo

/-- OPCODE (Table 03.4). -/
def Packet.opcode (p : Packet) : Nat := p.num 0 2

/-- SLOTS as submitted. -/
def Packet.slotsField (p : Packet) : Nat := p.num 3 1

/-- The slots a packet occupies: one where SLOTS is 0 or above 16 (R75). -/
def Packet.slots (p : Packet) : Nat := if p.slotsField = 0 ∨ 16 < p.slotsField then 1 else p.slotsField

/-- TAG. -/
def Packet.tag (p : Packet) : Nat := p.num 4 4

/-- EXEC_TICK as a number. -/
def Packet.execWord (p : Packet) : Nat := p.num 8 8

/-- EXEC_TICK as a stamp. -/
def Packet.execStamp (p : Packet) : Stamp := Stamp.ofWord p.execWord

/-- AT_TICK. -/
def Packet.atTick (p : Packet) : Bool := p.bit 2 0

/-- EVENT_REPLY. -/
def Packet.eventReply (p : Packet) : Bool := p.bit 2 1

/-- FLIGHT. -/
def Packet.inFlight (p : Packet) : Bool := p.bit 2 2

/-- FLIGHT_END. -/
def Packet.flightEnd (p : Packet) : Bool := p.bit 2 3

/-- The same packet with `op` as its opcode. -/
def Packet.withOpcode (p : Packet) (op : Nat) : Packet := { p with bytes := leBytes 2 op ++ p.bytes.drop 2 }

/-- The hall that stamps a packet: H1 for C0, C14 and C15, H2 for C1–C13 (R33). -/
def Packet.hall (p : Packet) : Nat := if p.comp = 0 ∨ p.comp = 14 ∨ p.comp = 15 then 1 else 2

/-- Ring and slot as the ADDRESS of REPLY and LATE_EXEC events (Table 03.13). -/
def Packet.place (p : Packet) : Nat := p.ring + 64 * p.slot

/-- Ring, then slot, as the source index of a packet's effects (R81, R106). -/
def Packet.order (p : Packet) : Nat := 4096 * p.ring + p.slot

/-- One stamp precedes another within an epoch, or its epoch does. -/
def Stamp.before (a b : Stamp) : Bool := a.epoch < b.epoch || (a.epoch == b.epoch && a.tick < b.tick)

/-- BLOCKS of a capture record: its payload in 16-byte blocks (R38). -/
def CapRecord.blocks (r : CapRecord) : Nat := (r.payload.length + 15) / 16

/-- The bytes of a capture record (Table 01.8). -/
def CapRecord.encode (r : CapRecord) : List Byte :=
  leBytes 8 r.stamp.word ++ leBytes 1 (r.cls % 16 + 16 * (r.hall % 16)) ++ leBytes 1 r.blocks ++ leBytes 2 r.value ++
    leBytes 4 r.word ++ padTo (16 * r.blocks) r.payload

/-- Bytes a capture record takes. -/
def CapRecord.size (r : CapRecord) : Nat := 16 + 16 * r.blocks

end Sys2Proof

namespace Sys2Proof.Machine

/-- A reply body as a list of fields: first byte, length in bytes, value. -/
abbrev Reply := List (Nat × Nat × Nat)

/-- The reply field that holds `l` from byte `b` on. -/
def replyBytes (b : Nat) (l : List Byte) : Nat × Nat × Nat := (b, l.length, leNat l)

/-- A reply body as one number: every undefined byte is 0 (R78). -/
def replyNat (r : Reply) : Nat := r.foldl (fun n f => n ||| (f.2.2 % 2 ^ (8 * f.2.1)) <<< (8 * f.1)) 0

/-- The bytes of a reply from byte 16 to the end of the packet's last slot (R78). -/
def replyBody (slots : Nat) (r : Reply) : List Byte := leBytes (64 * slots - 16) (replyNat r >>> 128)

/-- Argument fields as bit ranges: byte, lowest bit, width. -/
abbrev Layout := List (Nat × Nat × Nat)

/-- The bits that the fields of a layout cover. -/
def layoutMask (l : Layout) : Nat := l.foldl (fun n f => n ||| ((2 ^ f.2.2 - 1) <<< (8 * f.1 + f.2.1))) 0

/-- The fields of `n` equal entries from byte `b` on, `step` bytes apart. -/
def entryLayout (b step n : Nat) (l : Layout) : Layout :=
  (List.range n).flatMap fun i => l.map fun f => (b + step * i + f.1, f.2.1, f.2.2)

/-- Every bit of the packet after the header that no argument field covers is 0 (R11). -/
def reservedClear (p : Packet) (l : Layout) : Bool :=
  let m := layoutMask l
  let v := (leNat (p.bytes.take (64 * p.slots)) >>> 128) <<< 128
  decide (v ||| m = m)

/-- The fixed service charter of C14 (R330): groups 0x01 and 0x0B, ring 30 and nothing else. -/
def serviceCharters : CharterSet :=
  { entries := vtab 16 fun c => if c = 14 then { enabled := true, groups := 0x0802, cmdRings := 2 ^ 30 } else {} }

/-- The charter set in force: the installed one, or the service charter after a start at which it failed (R330). -/
def chartersInForce (s : State) : CharterSet := if s.image.bootFail = 1 then serviceCharters else s.store.charters

/-- The charter entry of a compartment. -/
def charterOf (s : State) (c : Nat) : Charter := vget (chartersInForce s).entries c

/-- A compartment holds an opcode group: C0 by its fixed permissions, the others by charter (R90). -/
def grantsGroup (s : State) (c g : Nat) : Bool :=
  c == 0 || ((charterOf s c).enabled && (charterOf s c).groups.testBit g)

/-- A compartment may read a gallery. -/
def mayRead (s : State) (c g : Nat) : Bool :=
  c == 0 || ((charterOf s c).enabled && (charterOf s c).readG.testBit g)

/-- A compartment may write a gallery. -/
def mayWrite (s : State) (c g : Nat) : Bool :=
  c == 0 || ((charterOf s c).enabled && (charterOf s c).writeG.testBit g)

/-- A compartment may name a key slot. -/
def mayKey (s : State) (c k : Nat) : Bool :=
  c == 0 || ((charterOf s c).enabled && (charterOf s c).keySlots.testBit k)

/-- A charter grants ring `r` to its compartment (Table 03.9). -/
def Charter.grantsRing (h : Charter) (r : Nat) : Bool :=
  h.enabled &&
  (if r < 32 then h.cmdRings.testBit r
   else if r < 48 then h.cryptoRings.testBit (r - 32)
   else if r < 56 then h.packetRings.testBit (r - 48)
   else if r < 60 then h.eventRings.testBit (r - 56)
   else if r = 62 then h.logRing
   else if r = 63 then h.captureRing
   else false)

/-- The owner of a ring: C0 owns 28–29 and the dump rings, the others go by charter (R71, Table 03.1). -/
def ringOwner (cs : CharterSet) (r : Nat) : Option Nat :=
  if r = 28 ∨ r = 29 ∨ r = 60 ∨ r = 61 then some 0
  else (List.range 16).find? fun c => (vget cs.entries c).grantsRing r

/-- A compartment owns a ring. -/
def ownsRing (s : State) (c r : Nat) : Bool := decide (ringOwner (chartersInForce s) r = some c)

/-- The gallery of a point (R10). -/
def gallery (pt : Nat) : Nat := pt / 4096

/-- The position of a point in its gallery (R10). -/
def position (pt : Nat) : Nat := pt % 4096

/-- The address of a position in a gallery (R10). -/
def pointAt (g pos : Nat) : Nat := g * 4096 + pos

/-- A position is assigned: every one outside G80–G83, and those of Tables 04.2–04.5 (R102); none in G96–G127 (R11). -/
def assigned (pt : Nat) : Bool :=
  let g := gallery pt
  let n := position pt
  if 96 ≤ g then false
  else if g = 80 then
    n < 56 || (100 ≤ n && n < 112) || (200 ≤ n && n < 208) || (210 ≤ n && n < 212) || (300 ≤ n && n < 364) ||
      (400 ≤ n && n < 406)
  else if g = 81 then
    n < 48 || (100 ≤ n && n < 116) || (200 ≤ n && n < 204) || (300 ≤ n && n < 312)
  else if g = 82 then n < 16 || (100 ≤ n && n < 108) || (200 ≤ n && n < 202)
  else if g = 83 then
    n == 0 || (10 ≤ n && n < 14) || n == 20 || n == 30 || n == 40 || n == 41 || n == 50 || n == 60
  else true

/-- The writers of Table 04.1 let software write the point: not a device point, and an LF point only by the keeper. -/
def softwareMayWrite (c pt : Nat) : Bool :=
  let g := gallery pt
  let n := position pt
  if g < 64 then true
  else if g = 80 then !(210 ≤ n && n < 212) && (!(400 ≤ n && n < 406) || c == 0)
  else if g = 82 then 100 ≤ n && n < 108
  else 84 ≤ g && g < 96

/-- A point may be a rule target (Table 04.1). -/
def ruleTarget (pt : Nat) : Bool :=
  let n := position pt
  softwareMayWrite 1 pt && !(gallery pt == 80 && 400 ≤ n && n < 406) && assigned pt

/-- A point may be a rule trigger: assigned and not a light point (Table 04.1, R102). -/
def ruleTrigger (pt : Nat) : Bool := 64 ≤ gallery pt && assigned pt

end Sys2Proof.Machine
end

