-- ==== Sys2Proof/Machine/Ops.lean ====
section
/-! DEFINITION. The named operations that every family of commands shares: stamps, memory, rings and their records, event
records, capture records, items of the sense landing, point writes, and free values. -/

namespace Sys2Proof.Machine

/-- The stamp of the tick that the tick hall acts on (R9); 0 while it does not run. -/
def State.stamp (s : State) : Stamp := if s.plane.running then ⟨s.plane.epoch, s.plane.tick⟩ else {}

/-- The tick that the tick hall generates now, which its halls stamp with (R16): beyond the tick it acts on while an input lags. -/
def State.wallTick (s : State) : Nat := s.plane.tick + s.plane.held

/-- The running count of the ticks generated. -/
def State.wallLin (s : State) : Nat := s.plane.lin + s.plane.held

/-- The stamp that a hall gives now (R16); 0 while the tick hall does not run. -/
def State.wallStamp (s : State) : Stamp := if s.plane.running then ⟨s.plane.epoch, s.wallTick⟩ else {}

/-- A command has its effect on everything but the queue of the commands that wait. -/
def effect (s t : State) : Answer := .next { t with pending := s.pending }

/-- Change the plane. -/
def State.onPlane (s : State) (f : Plane → Plane) : State := { s with plane := f s.plane }

/-- Change the point memory and the reflex engine. -/
def State.onPoints (s : State) (f : Points → Points) : State := { s with points := f s.points }

/-- Change the store. -/
def State.onStore (s : State) (f : Store → Store) : State := { s with store := f s.store }

/-- Change the sequencer. -/
def State.onSeq (s : State) (f : Seq → Seq) : State := { s with seq := f s.seq }

/-- Change ring `r`. -/
def State.onRing (s : State) (r : Nat) (f : Ring → Ring) : State :=
  s.onPlane fun p => { p with rings := vmod p.rings r f }

/-- Ring `r`. -/
def State.ring (s : State) (r : Nat) : Ring := vget s.plane.rings r

/-- A watch-room counter counts `n` occurrences of an event class and index (R385): every enabled counter in edge mode that selects
them, of one hall where several host the class, modulo 2^48. -/
def bump (s : State) (cls index n : Nat) (hall : Option Nat := none) : State :=
  { s with watch := { s.watch with
    cnt := s.store.watch.sel.foldl (fun t e =>
      if e.2.enable && !e.2.level && e.2.cls == cls && e.2.index == index && (hall.isNone || hall == some (e.1 / 16)) then Tbl.put t 0 e.1 ((Tbl.get t 0 e.1 + n) % 2 ^ 48)
      else t) s.watch.cnt } }

/-- A port meter advances by received and transmitted bits, modulo 2^48 (R389). -/
def meterAdd (s : State) (port rx tx : Nat) : State :=
  let m := Tbl.get s.watch.meter {} port
  { s with watch := { s.watch with
    meter := Tbl.put s.watch.meter {} port { rx := (m.rx + rx) % 2 ^ 48, tx := (m.tx + tx) % 2 ^ 48 } } }

/-- Take a fresh free value of `w` bits. -/
def State.takeFree (s : State) (w : Nat) : Nat × State :=
  ((Config.freeValue s.free).toNat % 2 ^ w, { s with free := s.free + 1 })

/-- The next `n` bytes of the random source (R320), oldest first. -/
def State.drawBytes (s : State) (n : Nat) : List Byte × State :=
  ((List.range n).map fun i => Config.trngByte (s.drawn + i), { s with drawn := s.drawn + n })

/-- Base of the host buffer and of the keeper SRAM that holds it (R72; where keeper SRAM lies is a DESIGN CHOICE). -/
def keeperBase : Nat := 0x44000000

/-- First address after keeper SRAM, 2 MiB (Table 02.4). -/
def keeperEnd : Nat := 0x44200000

/-- First address after the host buffer (R72). -/
def hostEnd : Nat := 0x44040000

/-- Base of application SRAM (R72). -/
def appBase : Nat := 0x80000000

/-- The bytes from `addr` on lie in memory the compartment can reach (R72). -/
def reaches (s : State) (c addr len : Nat) : Bool :=
  if c = 0 ∨ c = 15 then keeperBase ≤ addr && addr + len ≤ keeperEnd
  else if c = 14 then keeperBase ≤ addr && addr + len ≤ hostEnd
  else appBase ≤ addr && addr + len ≤ appBase + s.seq.appNeed

/-- Read one byte; a byte that nothing has written since the memory was cleared reads as 0. -/
def memRead (s : State) (a : Nat) : Byte := Tbl.get s.mem 0 a

/-- Read `n` bytes, ascending. -/
def memReadN (s : State) (a n : Nat) : List Byte := (List.range n).map fun i => memRead s (a + i)

/-- Write one byte. -/
def memWrite (s : State) (a : Nat) (b : Byte) : State := { s with mem := Tbl.put s.mem 0 a b }

/-- Write bytes in ascending order. -/
def memWriteN (s : State) (a : Nat) : List Byte → State
  | [] => s
  | b :: r => memWriteN (memWrite s a b) (a + 1) r

/-! Pair 1 in a trial run (R339, R340). -/

/-- Change the trial. -/
def State.onTrial (s : State) (f : Trial → Trial) : State := { s with image := { s.image with trial := f s.image.trial } }

/-- A trial runs. -/
def trialRuns (s : State) : Bool := s.image.trial.state == 2

/-- A compartment of the application: C1–C13. -/
def isApp (c : Nat) : Bool := 1 ≤ c && c ≤ 13

/-- Where an address of pair 1 lies: offset by the active image's SRAM_NEED (R339). -/
def shadowAddr (s : State) (a : Nat) : Nat := a + s.seq.appNeed

/-- The bytes from `addr` on lie in the memory that pair 1 reaches (R72, R339). -/
def reachesShadow (s : State) (addr len : Nat) : Bool := appBase ≤ addr && addr + len ≤ appBase + s.image.trial.need

/-- The shadow block of a ring. -/
def shadowRing (s : State) (r : Nat) : Ring := Tbl.get s.image.trial.shadow {} r

/-- Change the shadow block of a ring. -/
def State.onShadow (s : State) (r : Nat) (f : Ring → Ring) : State :=
  s.onTrial fun t => { t with shadow := Tbl.put t.shadow {} r (f (Tbl.get t.shadow {} r)) }

/-- Pair 1 has left its windows, or a shadow ring has dropped a record: the trial is to end with cause FAULT (R339). -/
def shadowFault (s : State) : State := if trialRuns s then s.onTrial fun t => { t with fault := true } else s

/-- Output of the device into a buffer that a packet or a descriptor names; in a trial the candidate receives that of a live item of C1–C13 too (R340). -/
def memOut (s : State) (a : Nat) (l : List Byte) : State :=
  let s := memWriteN s a l
  if trialRuns s ∧ reaches s 1 a l.length ∧ reachesShadow s a l.length then memWriteN s (shadowAddr s a) l else s

/-- The kind of a ring (Table 03.1). -/
def ringKind (r : Nat) : Nat :=
  if r < 32 then 0 else if r < 48 then 1 else if r < 52 then 2 else if r < 56 then 3
  else if r < 60 then 4 else if r < 62 then 5 else if r = 62 then 6 else 7

/-- The device produces the records of a ring; ring 63 turns to software while a host-fed replay runs (Table 03.1). -/
def deviceProduces (s : State) (r : Nat) : Bool :=
  (48 ≤ r && r < 52) || (56 ≤ r && r < 62) ||
    (r == 63 && !(s.plane.replay.running && s.plane.replay.fromHost))

/-- Slots of a ring; 0 while it is disabled (R72). -/
def Ring.size (g : Ring) : Nat := if g.enabled then 2 ^ g.sizeLog2 else 0

/-- Address of a slot. -/
def Ring.slotAddr (g : Ring) (slot : Nat) : Nat := g.base + 64 * slot

/-- Slots from HEAD to TAIL, counted forward (R74). -/
def Ring.filled (g : Ring) : Nat := if g.size = 0 then 0 else (g.tail + g.size - g.head % g.size) % g.size

/-- FULL: TAIL + 1 = HEAD modulo SIZE (R74). -/
def Ring.full (g : Ring) : Bool := g.enabled && decide ((g.tail + 1) % g.size = g.head)

/-- RETIRE: the oldest slot whose packet has not completed, or HEAD (R76). -/
def Ring.retire (g : Ring) : Nat :=
  match g.admitted.find? (fun a => !a.done) with
  | some a => a.slot
  | none => g.head

/-- Slots from HEAD forward to an index. -/
def Ring.ahead (g : Ring) (index : Nat) : Nat := (index + g.size - g.head % max 1 g.size) % max 1 g.size

/-- HEAD moves forward to `next` (R75): the doorbells whose slots it has passed are forgotten. -/
def Ring.advance (g : Ring) (next : Nat) : Ring :=
  { g with head := next, batches := g.batches.filter fun b => g.ahead next < g.ahead b.1 }

/-- The arrival stamp of a packet of `n` slots at HEAD (R33, R73): that of the doorbell that made its last slot visible. -/
def Ring.arrivalOf (g : Ring) (n : Nat) : Stamp := ((g.batches.find? fun b => n ≤ g.ahead b.1).map (·.2)).getD g.arrival

/-- The orphan of a ring that a packet is; any arrival where none is named. -/
def Ring.orphanOf (g : Ring) (slot : Nat) (arrival : Option Stamp) : Option Orphan :=
  g.orphans.find? fun o => o.slot == slot && (arrival.isNone || arrival == some o.arrival)

/-- Mark the packet of a slot complete; leading complete ones leave the list, so that RETIRE moves (R76). -/
def Ring.complete (g : Ring) (slot : Nat) (arrival : Option Stamp) : Ring :=
  match g.orphanOf slot arrival with
  | some o => { g with orphans := g.orphans.erase o }
  | none =>
    { g with admitted := (g.admitted.map fun a => if a.slot = slot then { a with done := true } else a).dropWhile (·.done) }

/-- One completion or record counts toward the interrupt; PENDING is set after COALESCE + 1 of them (Table 03.2). -/
def Ring.countIrq (g : Ring) : Ring :=
  if g.doneEn then
    if g.coalesce ≤ g.irqCount then { g with irqCount := 0, irqPending := true }
    else { g with irqCount := g.irqCount + 1 }
  else g

/-- BADDOOR, and the interrupt it raises under ERR_EN. -/
def Ring.bad (g : Ring) : Ring := { g with baddoor := true, irqPending := g.irqPending || g.errEn }

/-- Records have been dropped: OVERRUN, the count and the interrupt (R74). -/
def Ring.drop (g : Ring) (n : Nat) : Ring :=
  { g with drops := g.drops + n, overrun := true, irqPending := g.irqPending || g.errEn }

/-- Set the OVERRUN bit of FAULT_SUMMARY (Table 03.3). -/
def State.setOverrun (s : State) : State :=
  s.onPlane fun p => { p with status := { p.status with overrun := true } }

/-- Write slots at TAIL of a device ring; a record is a whole number of 64-byte slots. -/
def ringWrite (s : State) (r : Nat) (bytes : List Byte) : State :=
  let g := s.ring r
  let n := bytes.length / 64
  let s := (List.range n).foldl
    (fun s i => memWriteN s (g.slotAddr ((g.tail + i) % g.size)) ((bytes.drop (64 * i)).take 64)) s
  s.onRing r fun g => Ring.countIrq { g with tail := (g.tail + n) % g.size }

/-- Free slots of a device ring: one slot always stays free (R74). -/
def Ring.room (g : Ring) : Nat := g.size - 1 - g.filled

/-- The records of a ring go to its shadow too (R339). -/
def shadowed (s : State) (r : Nat) : Bool :=
  trialRuns s && ((48 ≤ r && r < 52) || (56 ≤ r && r < 60)) &&
    match ringOwner (chartersInForce s) r with
    | some c => isApp c
    | none => false

/-- Write a record to the shadow of a ring, `skip` ahead of it to the ring's end; one that it has no room for ends the trial (R339). -/
def shadowRecord (s : State) (r : Nat) (skip : Nat → List Byte) (rec : List Byte) : State :=
  let g := shadowRing s r
  if !shadowed s r ∨ g.size = 0 then s
  else
    let past := 1 < rec.length / 64 ∧ g.size < g.tail + rec.length / 64
    let l := (if past then padTo (64 * (g.size - g.tail)) (skip (g.size - g.tail)) else []) ++ rec
    let n := l.length / 64
    if g.room < n then shadowFault s
    else
      let s := (List.range n).foldl
        (fun s i => memWriteN s (shadowAddr s (g.slotAddr ((g.tail + i) % g.size))) ((l.drop (64 * i)).take 64)) s
      s.onShadow r fun g => Ring.countIrq { g with tail := (g.tail + n) % g.size }

/-- Bytes padded with zeros to whole slots. -/
def padSlots (l : List Byte) : List Byte := padTo (64 * ((l.length + 63) / 64)) l

/-- What a device ring takes ahead of a record (R74, R265, R392): the gap record where records were dropped, and a filler to the ring's end where the record
would pass it; none where there is no room for all of it. -/
def Ring.lead (g : Ring) (gap skip : Nat → List Byte) (body : List Byte) : Option (List Byte × List Byte) :=
  if g.size = 0 then none
  else
    let gapPart := if g.drops = 0 then [] else padSlots (gap g.drops)
    let at_ := (g.tail + gapPart.length / 64) % g.size
    let skipPart := if g.size < at_ + body.length / 64 then padTo (64 * (g.size - at_)) (skip (g.size - at_)) else []
    if (gapPart.length + skipPart.length + body.length) / 64 ≤ g.room then some (gapPart, skipPart) else none

/-- Put a record into a device ring (R74): a full ring drops and counts it; every record that is delivered goes to the ring's shadow as well (R339). -/
def deviceRecord (s : State) (r : Nat) (gap skip : Nat → List Byte) (body : List Byte) : State :=
  match (s.ring r).lead gap skip body with
  | some (gp, sk) =>
    let s := if gp.isEmpty then s else shadowRecord (ringWrite s r gp) r skip gp
    let s := if sk.isEmpty then s else ringWrite s r sk
    shadowRecord ((ringWrite s r body).onRing r fun g => { g with drops := 0 }) r skip body
  | none => if (s.ring r).size = 0 then s else (s.onRing r (·.drop 1)).setOverrun

/-- An item has a TAG or USER at bytes 4–7: a packet or a crypto descriptor (Tables 03.4 and 12.3). -/
def itemTagged (x : TrialItem) : Bool := x.ring < 48 || x.ring == 62

/-- The candidate's item receives what its live item has received, but for TAG or USER, which stays its own (R340). -/
def giveReply (s : State) (b : TrialItem) (w : List (Nat × List Byte)) : State :=
  let a := shadowAddr s ((shadowRing s b.ring).slotAddr b.slot)
  let s := w.foldl (fun s e =>
    if e.1 = 0 ∧ itemTagged b then memWriteN (memWriteN s a (e.2.take 4)) (a + 8) (e.2.drop 8) else memWriteN s (a + e.1) e.2) s
  s.onShadow b.ring fun g => Ring.countIrq (g.complete b.slot none)

/-- A live item has completed (R340): its partner receives the reply, or will when it is paired. -/
def mirrorReply (s : State) (r slot : Nat) (w : List (Nat × List Byte)) : State :=
  let t := s.image.trial
  if t.state ≠ 2 then s
  else
    match t.pairs.find? fun x => x.1.ring == r && x.1.slot == slot with
    | some x => giveReply (s.onTrial fun t => { t with pairs := t.pairs.erase x }) x.2 w
    | none =>
      match t.live.find? fun y => y.ring == r && y.slot == slot && !t.replies.any (·.1 == y) with
      | some y => s.onTrial fun t => { t with replies := t.replies ++ [(y, w)] }
      | none => s

/-- The 16 bytes of an event record (Table 03.12). -/
def Ev.bytes (e : Ev) : List Byte :=
  leBytes 8 e.stamp.word ++
  leBytes 4 (e.address % 2 ^ 19 + b2n e.point * 2 ^ 19 + (e.hall % 16) * 2 ^ 20 + (e.comp % 16) * 2 ^ 24) ++
  leBytes 2 (e.value % 65536) ++ leBytes 2 e.kind

/-- An event record in its slot (R97). -/
def Ev.slot (e : Ev) : List Byte := padTo 64 e.bytes

/-- The RING_OVERRUN record of a ring (R74, Table 03.13). -/
def overrunEv (t : Stamp) (r n : Nat) : Ev :=
  { stamp := t, address := r, hall := 3, value := sat16 n, kind := 0x010B }

/-- A change of the settings comes after a stamp; one of this epoch comes after every stamp of an epoch before. -/
def OldSettings.after (o : OldSettings) (s : State) (t : Stamp) : Bool :=
  if t.epoch = o.changed.epoch then t.tick < o.changed.tick else o.changed.epoch == s.plane.epoch

/-- The settings that were in force at a stamp, where they have changed since: those of the first change after it (R86, R97). -/
def oldSettings (s : State) (t : Stamp) : Option OldSettings := (s.plane.settings.filter fun o => o.after s t).getLast?

/-- EVENT_GROUPS in force at a stamp, for event ring 56 + `i` (R97). -/
def groupsAt (s : State) (t : Stamp) (i : Nat) : Nat :=
  match oldSettings s t with
  | some o => vget o.eventGroups i
  | none => vget s.store.sys.eventGroups i

/-- REPLY_RING of a compartment in force at a stamp (R97). -/
def replyRingAt (s : State) (t : Stamp) (c : Nat) : Nat :=
  match oldSettings s t with
  | some o => vget o.replyRing c
  | none => vget s.store.sys.replyRing c

/-- Kinds whose records stay out of the result stream (R30): CAN_STATE, CAN_CLASH and LIN_ERROR. -/
def outsideResults (kind : Nat) : Bool := kind == 0x0702 || kind == 0x0703 || kind == 0x0711

/-- The rings an event goes to (R97): REPLY and LATE_EXEC only to the REPLY_RING of the issuing compartment. -/
def eventRings (s : State) (e : Ev) : List Nat :=
  if e.kind = 0x0101 ∨ e.kind = 0x0105 then
    (if replyRingAt s e.stamp e.comp = 0 then [] else [replyRingAt s e.stamp e.comp])
  else ((List.range 4).filter fun i => (groupsAt s e.stamp i).testBit (e.kind / 256)).map (56 + ·)

/-- Put an item into a landing, in stamp order, then hall, then source index, then order of arrival (R20). -/
def landInsert (it : LandItem) : List LandItem → List LandItem
  | [] => [it]
  | x :: r =>
    if it.stamp.before x.stamp then it :: x :: r
    else if it.stamp = x.stamp ∧ (it.hall < x.hall ∨ (it.hall = x.hall ∧ it.idx < x.idx)) then it :: x :: r
    else x :: landInsert it r

/-- An item enters landing `l`. -/
def landPut (s : State) (l : Nat) (it : LandItem) : State :=
  s.onPlane fun p => { p with landings := vmod p.landings l fun x => { x with items := landInsert it x.items } }

/-- A landing has released the items of a stamp (R20); those of an epoch before are. -/
def landed (s : State) (l : Nat) (t : Stamp) : Bool := t.epoch != s.plane.epoch || t.tick < (vget s.plane.landings l).released

/-- Post an event: where some ring takes it, it enters the landing to the event rings (R20, R97). -/
def postEvent (s : State) (e : Ev) : State :=
  if (eventRings s e).isEmpty then s else landPut s 6 { stamp := e.stamp, hall := e.hall, idx := e.idx, events := [e] }

/-- A delivered event record enters the result stream of its epoch (R30), but for those that R30 leaves out. -/
def noteDelivered (s : State) (r : Nat) (e : Ev) : State :=
  if outsideResults e.kind || e.hidden || e.stamp.epoch != s.plane.epoch then s else s.onPlane fun p => { p with results := .event r e :: p.results }

/-- The record of an event is written to a ring (R74, R97), the gap record that is due ahead of it, and both enter the result stream (R30); that of a replayed
packet enters the result stream only (R43). -/
def deliverTo (e : Ev) (s : State) (r : Nat) : State :=
  let g := s.ring r
  let gap := overrunEv e.stamp r g.drops
  let s := match g.lead (fun _ => gap.slot) (fun _ => []) e.slot with
    | some (gp, _) => noteDelivered (if gp.isEmpty then s else noteDelivered s r gap) r e
    | none => s
  if e.replayed then s else deviceRecord s r (fun _ => gap.slot) (fun _ => []) e.slot

/-- The record of an event is written to every ring that takes it (R97). -/
def deliverEvent (s : State) (e : Ev) : State := (eventRings s e).foldl (deliverTo e) s

/-- The items of the result stream with the event records that the landing to the event rings still holds of the ticks before the present one. -/
def settledResults (s : State) : List ResultItem :=
  let l := (vget s.plane.landings 6).items.filter fun y => y.stamp.before s.stamp
  ((l.flatMap LandItem.events).foldl deliverEvent s).plane.results

/-- The result digest of the ticks before the present one (R38). -/
def runningDigest (s : State) : List Byte := Config.resultDigest s.plane.tick (settledResults s)

/-- Post events in order. -/
def postEvents (s : State) (es : List Ev) : State := es.foldl postEvent s

/-- An event stamped now, from hall `h`. -/
def State.ev (s : State) (h kind address value : Nat) (point : Bool := false) (comp : Nat := 0) : Ev :=
  { stamp := s.stamp, address := address, point := point, hall := h, comp := comp, value := value, kind := kind }

/-- The capture area of the MRAM: 4 MiB. -/
def captureArea : Nat := 4194304

/-- Remove the oldest records until at most `room` bytes are used. -/
def trimArea (room : Nat) : List CapRecord → Nat → List CapRecord × Nat
  | [], _ => ([], 0)
  | r :: t, used => if used ≤ room then (r :: t, used) else trimArea room t (used - r.size)

/-- Bytes go to ring 63 as they follow one another: every slot that they fill is written (R38). The ring must have room for them. -/
def streamTo63 (s : State) (l : List Byte) : State :=
  let all := s.plane.capture.tailBytes ++ l
  let n := all.length / 64
  (ringWrite s 63 (all.take (64 * n))).onPlane fun p => { p with capture := { p.capture with tailBytes := all.drop (64 * n) } }

/-- The last slot of a capture on ring 63 is filled with zeros and written. -/
def flush63 (s : State) : State :=
  let l := s.plane.capture.tailBytes
  if l.isEmpty ∨ (s.ring 63).room = 0 then s else streamTo63 s (List.replicate (64 - l.length) 0)

/-- Commit one record to the capture's sink; the answer says whether the sink took it (R37). -/
def capCommit (s : State) (r : CapRecord) : State × Bool :=
  let c := s.plane.capture
  if c.sink63 then
    let g := s.ring 63
    if g.size = 0 ∨ g.room < (c.tailBytes.length + r.size) / 64 then (s, false)
    else ((streamTo63 s r.encode).onPlane fun p => { p with capture := { p.capture with records := p.capture.records + 1 } }, true)
  else if c.wrap then
    let (a, used) := trimArea (captureArea - r.size) c.area c.areaBytes
    (s.onPlane fun p => { p with
      capture := { p.capture with area := a ++ [r], areaBytes := used + r.size, records := p.capture.records + 1 } }, true)
  else if c.areaBytes + r.size ≤ captureArea then
    (s.onPlane fun p => { p with
      capture := { p.capture with
        area := p.capture.area ++ [r], areaBytes := p.capture.areaBytes + r.size, records := p.capture.records + 1 } }, true)
  else (s, false)

/-- A MARK record (Table 01.10). -/
def markRecord (s : State) (kind word : Nat) (payload : List Byte := []) : CapRecord :=
  { stamp := s.stamp, cls := 0xF, hall := 3, value := kind, word := word, payload := payload }

/-- The GAP mark that is due goes ahead of the next record (R37); the answer says whether none is due any more. -/
def capGap (s : State) : State × Bool :=
  if s.plane.capture.gapDue = 0 then (s, true)
  else
    let (s', ok) := capCommit s (markRecord s 4 s.plane.capture.gapDue)
    (if ok then s'.onPlane fun p => { p with capture := { p.capture with gapDue := 0, clean := false } } else s, ok)

/-- Write one record through the drop rule of R37, the answer whether the sink took it: a record that it cannot take is dropped and counted, and
a GAP mark with the count goes ahead of the next one it takes. -/
def capTake (s : State) (r : CapRecord) : State × Bool :=
  let (s, gapOk) := capGap s
  let (s, ok) := if gapOk then capCommit s r else (s, false)
  if ok then (s, true)
  else ((s.onPlane fun p => { p with
    capture := { p.capture with gapDue := p.capture.gapDue + 1, dropped := p.capture.dropped + 1, clean := false } }).setOverrun, false)

/-- The capture ends with its STOP mark (R40, Table 01.10). -/
def capEnd (s : State) (r : CapRecord) : State :=
  let (s, ok) := capTake s r
  (flush63 s).onPlane fun p => { p with capture := { p.capture with running := false, closing := false, stopped := ok } }

/-- A record is a STOP mark (Table 01.10). -/
def isStopMark (r : CapRecord) : Bool := r.cls == 0xF && r.value == 2

/-- Write one record; its STOP mark ends the capture, and so does a full capture area without WRAP (R40). -/
def capPut (s : State) (r : CapRecord) : State :=
  let c := s.plane.capture
  if !c.running then s
  else if isStopMark r then capEnd s r
  else if !c.sink63 && !c.wrap && captureArea < c.areaBytes + r.size + 48 then capEnd s (markRecord s 2 3 (runningDigest s))
  else (capTake s r).1

/-- The items of a list whose stamps a test takes are released, in their order; the others stay. -/
def capRelease (due : Stamp → Bool) (s : State) : State :=
  let l := (vget s.plane.landings 9).items
  let s := s.onPlane fun p => { p with landings := vmod p.landings 9 fun x => { x with items := l.filter fun y => !due y.stamp } }
  (l.filter fun y => due y.stamp).foldl (fun s it => it.caps.foldl capPut s) s

/-- The tick hall marks the capture (Table 01.10): the mark takes its place among the copies in L9, so that records stand in stamp order (R20, R38). -/
def capWrite (s : State) (r : CapRecord) : State :=
  if s.plane.capture.running ∧ !s.plane.capture.closing then landPut s 9 { stamp := r.stamp, hall := 3, caps := [r] } else s

/-- The running capture is to end (R40): its STOP mark enters L9, with the result digest of the ticks before it, and is its last record. -/
def capStop (s : State) (reason : Nat) : State :=
  (capWrite s (markRecord s 2 reason (runningDigest s))).onPlane fun p =>
    { p with capture := { p.capture with closing := p.capture.running } }

/-- A hall's stream into the capture landing takes items (R23, R26): it is joined and no fault has dropped it. -/
def feedsL9 (s : State) (h : Nat) : Bool := (vget (vget s.plane.landings 9).streams h).joined && !(vget s.plane.halls h).dropped

/-- A copy of a captured input of a source enters the capture landing L9 under its stamp (R14, R20, Table 01.2), if the capture records its class
(Table 01.7) and the hall's stream takes it. -/
def capItem (s : State) (r : CapRecord) (idx : Nat := 0) : State :=
  if s.plane.capture.running ∧ s.plane.capture.classMask.testBit r.cls ∧ feedsL9 s r.hall then
    landPut s 9 { stamp := r.stamp, hall := r.hall, idx := idx, caps := [r] }
  else s

/-- A replay runs and the live sources that it replaces are cut off (R42, R43). -/
def cutOff (s : State) : Bool := s.plane.replay.running && !s.plane.replay.feeding

/-- A hall's stream into L0 takes items: the tick hall runs, no replay stands in its place, its stream is joined and no fault has dropped
it (R23, R26, R42). -/
def feedsL0 (s : State) (h : Nat) : Bool :=
  s.plane.running && !cutOff s && (vget (vget s.plane.landings 0).streams h).joined && !(vget s.plane.halls h).dropped

/-- The stamp offset of a hall into L0 (Table 01.3). -/
def offsetOf (h : Nat) : Nat := if h = 0 then 4 else if h = 8 then 32 else 0

/-- An item of a hall enters the sense landing under a stamp, and copies of what is captured of it enter the capture landing under the same one
(R14, R20, R21). -/
def sense (s : State) (t : Stamp) (h idx : Nat) (writes : List (Nat × PVal)) (events : List Ev) (caps : List CapRecord) : State :=
  let s := landPut s 0
    { stamp := t, hall := h, idx := idx, writes := writes, events := events.map fun e => { e with stamp := t, hall := h } }
  caps.foldl (fun s c => capItem s { c with stamp := t } idx) s

/-- A hall observes something now: it goes into L0 with the hall's stamp offset (R21). Nothing is delivered while the tick
hall does not run or the stream is not joined (R23, R111). -/
def observe (s : State) (h idx : Nat) (writes : List (Nat × PVal)) (events : List Ev) (caps : List CapRecord := []) :
    State :=
  if feedsL0 s h then sense s ⟨s.plane.epoch, s.wallTick + offsetOf h⟩ h idx writes events caps else s

/-- A hall delivers an item under the stamp that was fixed when it observed its cause (R28). -/
def observeStamped (s : State) (t : Stamp) (h idx : Nat) (writes : List (Nat × PVal)) (events : List Ev) (caps : List CapRecord) : State :=
  if feedsL0 s h then sense s t h idx writes events caps else s

/-- The capture record of a point change (Table 01.9). -/
def pointCap (h pt : Nat) (v : PVal) : CapRecord := { cls := 1, hall := h, value := v.toNat, word := pt }

/-- A hall observes a point's new value (Table 01.7): the device write, the events that follow it, and its capture record. -/
def observePoint (s : State) (h idx pt : Nat) (v : PVal) (events : List Ev) : State :=
  observe s h idx [(pt, v)] events [pointCap h pt v]

/-- An item that H8 delivers under a stamp of its own (R22, R224). -/
def observeAt (s : State) (tick h idx : Nat) (writes : List (Nat × PVal)) (events : List Ev) : State :=
  if feedsL0 s 8 then
    sense s ⟨s.plane.epoch, tick⟩ h idx writes events (if h = 3 then [] else writes.map fun w => pointCap h w.1 w.2)
  else s

/-- Read a point. -/
def pget (s : State) (pt : Nat) : PVal := Tbl.get s.points.mem 0 pt

/-- Put a value into the point memory. -/
def pput (s : State) (pt : Nat) (v : PVal) : State :=
  s.onPoints fun p => { p with mem := Tbl.put p.mem 0 pt v }

/-- The value of a point at the end of the tick before (R115): what the writes of this tick found. -/
def pprev (s : State) (pt : Nat) : PVal :=
  match s.points.now.find? (fun e => e.w.pt == pt) with
  | some e => e.old
  | none => pget s pt

/-- Attributes of a point. -/
def attrOf (s : State) (pt : Nat) : PointAttr := Tbl.get s.store.attrs {} pt

/-- A point is a timer (R112). -/
def isTimer (s : State) (pt : Nat) : Bool := (attrOf s pt).ty == 2

/-- Ticks of a timebase (Table 04.6). -/
def timebaseTicks (n : Nat) : Nat := if n = 0 then 80 else if n = 1 then 8000 else if n = 2 then 80000 else 800000

/-- A reflex rule. -/
def ruleAt (s : State) (i : Nat) : Rule := Tbl.get s.store.rules {} i

/-- The running tick that a stamp of the present epoch stands for. -/
def linOf (s : State) (t : Stamp) : Nat := s.plane.lin - (s.plane.tick - t.tick)

/-- The stamp of a running tick of the present epoch. -/
def stampOf (s : State) (lin : Nat) : Stamp :=
  if s.plane.running then ⟨s.plane.epoch, s.plane.tick - (s.plane.lin - lin)⟩ else {}

/-- A rule is enabled and has the point as its trigger (R117). -/
def Rule.watches (r : Rule) (pt : Nat) : Bool := r.used && r.enabled && r.trig == pt

/-- The reflex rules in force at a stamp (R86). -/
def rulesAt (s : State) (t : Stamp) : Tbl Rule :=
  match oldSettings s t with
  | some o => o.rules
  | none => s.store.rules

/-- The attributes of a point in force at a stamp (R86). -/
def attrAt (s : State) (t : Stamp) (pt : Nat) : PointAttr :=
  match oldSettings s t with
  | some o => Tbl.get o.attrs {} pt
  | none => attrOf s pt

/-- Some enabled rule watches a point at a stamp (R117). -/
def watched (s : State) (t : Stamp) (pt : Nat) : Bool := (rulesAt s t).any fun e => e.2.watches pt

/-- A change takes its place among the changes that have not been queued from earlier ticks: by stamp, hall and source index (R116, R20). -/
def insertChange (c : Change) : List Change → List Change
  | [] => [c]
  | x :: r =>
    if !x.counted && (c.lin < x.lin || (c.lin == x.lin && (c.hall < x.hall || (c.hall == x.hall && c.idx < x.idx)))) then c :: x :: r
    else x :: insertChange c r

/-- A change enters the reflex engine if a rule watches its point (R117). -/
def enterReflex (s : State) (c : Change) : State :=
  if watched s (stampOf s c.lin) c.pt then s.onPoints fun p => { p with queue := insertChange c p.queue } else s

/-- The distance of two point values. -/
def pdist (a b : PVal) : Nat := (a.toNat - b.toNat) + (b.toNat - a.toNat)

/-- REPORT (R113): POINT_CHANGE on a change that differs from the value last reported by more than DEADBAND; the first one
is always reported. -/
def reportChange (s : State) (pt : Nat) (v : PVal) (t : Stamp) (hall idx comp : Nat) : State :=
  let a := attrAt s t pt
  let due : Bool := match Tbl.get s.points.lastReport none pt with
    | none => true
    | some w => a.deadband < pdist v w
  if a.report && due then
    let s := s.onPoints fun p => { p with lastReport := Tbl.put p.lastReport none pt (some v) }
    postEvent s { stamp := t, idx := idx, address := pt, point := true, hall := hall, comp := comp, value := v.toNat, kind := 0x0401 }
  else s

/-- A point has changed (R103): it is reported, and it enters the reflex engine. -/
def noteChange (s : State) (pt : Nat) (old new : PVal) (t : Stamp) (hall idx comp : Nat) : State :=
  enterReflex (reportChange s pt new t hall idx comp) { pt := pt, old := old, new := new, lin := linOf s t, hall := hall, idx := idx }

/-- Record the writer of a point (Table 04.12) and the write in the result stream (R30). -/
def noteWriter (s : State) (pt : Nat) (v : PVal) (k : Writer) (comp : Nat) (t : Stamp) : State :=
  let s := s.onPoints fun p => { p with lastWriter := Tbl.put p.lastWriter (0, 0) pt (k.code, comp) }
  s.onPlane fun p => { p with results := .write t.tick pt v k.code comp :: p.results }

/-- What became of a point write (R104, R105, R108). -/
inductive WriteResult where
  | applied
  | discarded
  | moved
  deriving DecidableEq, Repr, Inhabited

/-- The rank of a writer in R104. -/
def Writer.rank : Writer → Nat
  | .device => 3
  | .timer => 0
  | .pattern => 0
  | .direct => 1
  | .reflex => 2

/-- A PULSE or RAMP runs on a point (R105). -/
def heldByAction (s : State) (pt : Nat) : Bool := s.points.running.any fun a => a.pt == pt

/-- Count discarded writes (R104). -/
def countDiscarded (s : State) (n : Nat) : State :=
  (bump s 6 4 n).onPoints fun p => { p with stats := { p.stats with discarded := satAdd32 p.stats.discarded n } }

/-- A program drives a point (R184). -/
def PatProg.drives (g : PatProg) (pt : Nat) : Bool :=
  g.start ≤ pt && pt < g.start + g.count * g.stride && (pt - g.start) % g.stride == 0

/-- A direct or reflex write takes a point from the patterns that drive it, until PATTERN.RUN starts them again (R105). -/
def detachPoint (s : State) (pt : Nat) : State :=
  { s with light := { s.light with
    lag := s.light.lag.filter fun l => !(l.pt == pt)
    engine := vmapIdx s.light.engine fun e x =>
      match vget s.store.light.prog e with
      | some g => if x.running && g.drives pt && !x.detached.contains pt then { x with detached := pt :: x.detached } else x
      | none => x } }

/-- The latency of a reflex action on G80 or G82: the ticks from its trigger's stamp to the frame that carries it, the next one (R118). -/
def noteLatency (s : State) (w : PWrite) : State :=
  match w.trig with
  | some t =>
    if gallery w.pt = 80 ∨ gallery w.pt = 82 then
      let d := s.plane.lin + 1 - t
      s.onPoints fun p => { p with stats := { p.stats with
        latMax := max p.stats.latMax d, latOver := if 2 < d then satAdd32 p.stats.latOver 1 else p.stats.latOver } }
    else s
  | none => s

/-- A write stands, with the stamp of the change it makes: the value, its writer and what was written in this tick so far. A reflex write ends the
action that runs on its target, but for the action's own writes (R105). -/
def writeStands (s : State) (w : PWrite) (t : Stamp) (old : PVal) (count : Nat) : State :=
  let s := if w.kind = .direct ∨ w.kind = .reflex then detachPoint s w.pt else s
  let s := noteLatency (noteWriter (pput s w.pt w.v) w.pt w.v w.kind w.comp s.stamp) w
  s.onPoints fun p => { p with
    now := { w := w, old := old, count := count, stamp := t } :: p.now.filter fun e => !(e.w.pt == w.pt)
    writesNow := p.writesNow + 1
    running := if w.kind = .reflex ∧ !w.own then p.running.filter fun a => !(a.pt == w.pt) else p.running }

/-- Apply a write under R104 and R105 without the limit of R108. -/
def applyWrite (s : State) (w : PWrite) : State × WriteResult :=
  if heldByAction s w.pt ∧ w.kind ≠ .reflex then (countDiscarded s 1, .discarded)
  else
    match s.points.now.find? (fun e => e.w.pt == w.pt) with
    | none => (writeStands s w s.stamp (pget s w.pt) 1, .applied)
    | some e =>
      if w.kind.rank < e.w.kind.rank then (countDiscarded s 1, .discarded)
      else if w.kind.rank = e.w.kind.rank then (writeStands s w s.stamp e.old (e.count + 1), .applied)
      else (writeStands (countDiscarded s e.count) w s.stamp e.old 1, .applied)

/-- Writes that move to a later tick are counted (R108): device and reflex writes as DEFERRED, pattern writes as LAGGED_WRITES. -/
def countMoved (s : State) (w : PWrite) : State :=
  if w.kind = .reflex ∨ w.kind = .device then
    (bump s 6 3 1).onPoints fun p => { p with stats := { p.stats with deferred := satAdd32 p.stats.deferred 1 }, movedNow := true }
  else
    let s := if w.kind = .pattern then
        { s with light := { s.light with
          engine := vmod s.light.engine (w.idx - 65536) fun x => { x with lagged := satAdd32 x.lagged 1 } } }
      else s
    s.onPoints fun p => { p with movedNow := true }

/-- A write moves to the next tick (R108). -/
def moveWrite (s : State) (w : PWrite) : State := (countMoved s w).onPoints fun p => { p with moving := p.moving ++ [w] }

/-- Write a point by a direct, reflex or pattern write in this tick; beyond 4,096 writes it moves to the next (R107,
R108). -/
def writePoint (s : State) (w : PWrite) : State × WriteResult :=
  if 4096 ≤ s.points.writesNow then (moveWrite s w, .moved) else applyWrite s w

/-- A direct write of a packet's compartment (R106). -/
def directWrite (s : State) (p : Packet) (pt : Nat) (v : PVal) : State × WriteResult :=
  writePoint s { pt := pt, v := v, kind := .direct, comp := p.comp, hall := p.hall, idx := p.order }

/-- A direct write of the keeper (C0). -/
def keeperWrite (s : State) (pt : Nat) (v : PVal) : State × WriteResult :=
  writePoint s { pt := pt, v := v, kind := .direct, comp := 0, hall := 1, idx := 0 }

/-- A value that was read back at an adoption is a direct write of the keeper, the first among those of its tick (R69): one that has been written before it in
the tick stands over it, and it goes out in no frame of commands. -/
def adoptWrite (s : State) (pt : Nat) (v : PVal) : State :=
  match s.points.now.find? fun e => e.w.pt == pt && e.w.kind == .direct with
  | some _ => s
  | none => (writePoint s { pt := pt, v := v, kind := .direct, comp := 0, hall := 1, idx := 0, adopted := true }).1

/-- A device write (R101) is applied and makes its change under a stamp: after the last write of the tick the point changes once, from the value it held at
the end of the tick before (R103). -/
def deviceApply (s : State) (t : Stamp) (w : PWrite) : State :=
  match s.points.now.find? (fun e => e.w.pt == w.pt) with
  | none => writeStands s w t (pget s w.pt) 1
  | some e => writeStands s w t e.old (e.count + 1)

/-- A device write (R101); beyond 4,096 writes it moves to the next tick (R107, R108). -/
def deviceWrite (s : State) (t : Stamp) (w : PWrite) : State := if 4096 ≤ s.points.writesNow then moveWrite s w else deviceApply s t w

/-- The source index of a device write of the tick hall (R106): G83:0000, G83:0050 and G83:0060. -/
def hallIndex (pt : Nat) : Nat := 131072 + position pt

/-- Device writes of the tick hall itself (G83:0000, G83:0050, G83:0060 and the VF points; R106) with the events that follow them. They come first among the
writes of their tick and never move (R108), even where 4,096 writes of the tick have been applied before them (DESIGN CHOICE, log entry 165). -/
def plainDevice (s : State) (pt : Nat) (v : PVal) (events : List Ev) : State :=
  if s.plane.running then
    let s := deviceApply s s.stamp { pt := pt, v := v, kind := .device, hall := 3, idx := hallIndex pt }
    postEvents s (events.map fun e => { e with idx := hallIndex pt })
  else s

/-- Put a write of the tick into the order of R20: source hall, then source index. -/
def insertWrite (e : TickWrite) : List TickWrite → List TickWrite
  | [] => [e]
  | x :: r =>
    if e.w.hall < x.w.hall || (e.w.hall == x.w.hall && e.w.idx < x.w.idx) then e :: x :: r else x :: insertWrite e r

/-- The writes of the tick in the order of R20; `points.now` holds them newest first. -/
def orderedWrites (l : List TickWrite) : List TickWrite := l.reverse.foldl (fun a e => insertWrite e a) []

/-- A point changes if its value after the last write of the tick differs from its value at the end of the tick before (R103). A report names the
issuer of a direct write and the owner of a reflex write (Table 04.7). -/
def settleWrite (s : State) (e : TickWrite) : State :=
  if e.old = e.w.v then s
  else noteChange s e.w.pt e.old e.w.v e.stamp e.w.hall e.w.idx (if e.w.kind = .direct ∨ e.w.kind = .reflex then e.w.comp else 0)

/-- The changes of the tick that no note has been taken of and that `c` takes are noted, in the order of R20. -/
def tellChanges (c : TickWrite → Bool) (s : State) : State :=
  let l := orderedWrites (s.points.now.filter fun e => !e.told && c e)
  let s := s.onPoints fun p => { p with now := p.now.map fun e => if c e then { e with told := true } else e }
  l.foldl settleWrite s

/-- The changes that inputs have made under stamps of before: they are evaluated in this tick (R115, Table 01.4). -/
def tellInputs (s : State) : State := tellChanges (fun e => e.stamp != s.stamp) s

/-- The signal definition that writes a point of G64–G79 (R240). -/
def signalOf (pt : Nat) : Nat := 4096 * (gallery pt - 64) + position pt

/-- The definitions of the signals of an item have been written under its stamp (R241). -/
def noteSignals (s : State) (it : LandItem) : State :=
  let ds := (it.writes.filter fun w => 64 ≤ gallery w.1 && gallery w.1 < 80).map fun w => signalOf w.1
  let at_ := if it.stamp.epoch = s.plane.epoch then s.plane.lin + it.stamp.tick - s.plane.tick else s.plane.lin
  { s with bus := { s.bus with
    sigLast := ds.foldl (fun t d => Tbl.put t 0 d at_) s.bus.sigLast
    sigOut := s.bus.sigOut.filter fun d => !ds.contains d } }

/-- The writes of an item of the sense landing; one of H6 writes signals (R241), and one of H8 may end or begin the stale state of the field points (R225). -/
def landWrites (s : State) (it : LandItem) : State :=
  let s := match it.stale with
    | some b => s.onPoints fun p => { p with stale := b }
    | none => s
  let s := if it.hall = 6 then noteSignals s it else s
  it.writes.foldl (fun s w => deviceWrite s it.stamp { pt := w.1, v := w.2, kind := .device, hall := it.hall, idx := it.idx }) s

/-- The items of the sense landing that are released together, in their order: the writes, the changes they make, and the events that follow
them (R20, R103, R106). -/
def releaseItems (s : State) (l : List LandItem) : State :=
  let s := tellInputs (l.foldl landWrites s)
  l.foldl (fun s it => postEvents s (it.events.map fun e => { e with idx := it.idx })) s

/-- A hall's write that is stamped with the tick the tick hall acts on (R208): it is released in that tick, in its place where that is still to come. -/
def observeActed (s : State) (h idx pt : Nat) (v : PVal) : State :=
  if !feedsL0 s h then s
  else if landed s 0 s.stamp then
    capItem (releaseItems s [{ stamp := s.stamp, hall := h, idx := idx, writes := [(pt, v)] }]) { pointCap h pt v with stamp := s.stamp } idx
  else sense s s.stamp h idx [(pt, v)] [] [pointCap h pt v]

/-- Load a point without a change (R111). -/
def loadPoint (s : State) (pt : Nat) (v : PVal) : State := pput s pt v

end Sys2Proof.Machine
end

