-- ==== Sys2Proof/Machine/LogOps.lean ====
section
/-! DEFINITION. The shared operations of the logbook and the RTC (chapter 15): a record is chained into the open segment, a
segment is sealed, and the allowance of unsigned sets. -/

namespace Sys2Proof.Machine

/-- Change the logbook. -/
def State.onLog (s : State) (f : Logbook → Logbook) : State := s.onStore fun st => { st with log := f st.log }

/-- Bytes of the logbook ring: 60 MiB (R381). -/
def logRingSize : Nat := 62914560

/-- Bytes of the emergency area: 2 MiB (R381). -/
def logEmergencySize : Nat := 2097152

/-- Free bytes a segment needs to open (R381). -/
def segmentNeed : Nat := 68896

/-- Bytes a record takes in MRAM (R375). -/
def LogRec.size (r : LogRec) : Nat := 48 + 16 * ((r.payload.length + 15) / 16)

/-- Bytes a seal takes (R379). -/
def sealSize : Nat := 3360

/-- Bytes a sealed segment takes. -/
def Segment.size (g : Segment) : Nat := (g.recs.map LogRec.size).sum + sealSize

/-- Unacknowledged bytes in the ring or in the emergency area (R381). -/
def Logbook.used (l : Logbook) (emergency : Bool) : Nat :=
  ((l.segments.filter fun g => g.emergency == emergency && !g.acked).map Segment.size).sum

/-- The area has the space that opening a segment needs (R381). -/
def Logbook.canOpen (l : Logbook) (emergency : Bool) : Bool :=
  l.used emergency + segmentNeed ≤ (if emergency then logEmergencySize else logRingSize)

/-- Header bytes 0–31 of a record (Table 15.4). -/
def LogRec.header (r : LogRec) : List Byte :=
  leBytes 2 r.type ++ leBytes 1 r.payload.length ++
  leBytes 1 (b2n r.critical + 2 * b2n r.emergency + 4 * b2n r.rtcInvalid + 8 * b2n r.noStamp + 16 * (r.comp % 16)) ++
  leBytes 4 0 ++ leBytes 8 r.seq ++ leBytes 8 r.rtc ++ leBytes 8 r.stamp

/-- The first 16 bytes of SHAKE256 (R376). -/
def h16 (m : List Byte) : List Byte := (Config.shake256 m).take 16

/-- CHAIN_prev of the first record a device ever writes (R376): the 11 characters "VB-7260 LOG" and the UID. -/
def chainStart : List Byte :=
  h16 ([0x56, 0x42, 0x2D, 0x37, 0x32, 0x36, 0x30, 0x20, 0x4C, 0x4F, 0x47] ++ Config.uid)

/-- The 12 characters "VB-7260 SEAL" (R379). -/
def sealContext : List Byte := [0x56, 0x42, 0x2D, 0x37, 0x32, 0x36, 0x30, 0x20, 0x53, 0x45, 0x41, 0x4C]

/-- Bytes 0–47 of a seal (Table 15.7). -/
def Seal.body (x : Seal) : List Byte :=
  leBytes 2 1 ++ leBytes 1 x.reason ++ leBytes 1 (b2n x.emergency + 2 * b2n x.rtcInvalid) ++ leBytes 4 x.records ++
    leBytes 8 x.firstSeq ++ leBytes 8 x.rtc ++ leBytes 8 x.stamp ++ x.endChain

/-- The material of keeper slot 2, which signs seals (R379). -/
def sealKey (s : State) : List Byte := (Tbl.get s.image.slots {} 2).material

/-- The stamp of a record or a seal: 0 in Buoy (Tables 15.4 and 15.7). -/
def logStamp (s : State) : Nat := if s.seq.state = .buoy then 0 else s.stamp.word

/-- The fill level that LOG_LEVEL names (R383, Table 15.8), from the level before. -/
def levelOf (l : Logbook) : Nat :=
  if !l.canOpen false && !l.canOpen true then 3
  else if !l.canOpen false then 2
  else if 56623104 ≤ l.used false then 1
  else if l.used false < 50331648 then 0
  else if 2 ≤ l.level then 1 else l.level

/-- Post LOG_LEVEL on a change of fill level, and keep LOG_WARN (R383). -/
def updateLevel (s : State) : State :=
  let l := s.store.log
  let n := levelOf l
  let w := if 56623104 ≤ l.used false then true else if l.used false < 50331648 then false else l.warn
  let s := s.onLog fun l => { l with level := n, warn := w }
  if n = l.level then s else postEvent s (s.ev 1 0x0D01 0 n)

/-- Acknowledged segments leave a region, oldest first, as far as the new bytes write over them (R381). -/
def overwrite (room : Nat) (emergency : Bool) (used : Nat) : List Segment → List Segment
  | [] => []
  | g :: r =>
    if g.emergency = emergency ∧ g.acked ∧ room < used then overwrite room emergency (used - g.size) r
    else g :: overwrite room emergency used r

/-- Close the open segment with a seal (R378–R380). -/
def sealSegment (s : State) (reason : Nat) : State :=
  match s.store.log.opened with
  | none => s
  | some o =>
    let recs := o.recs.reverse
    match recs.getLast?, recs.head? with
    | some last, some first =>
      let x : Seal :=
        { reason := reason, emergency := o.emergency, rtcInvalid := !s.rtc.valid, records := recs.length
          firstSeq := first.seq, rtc := s.rtc.time, stamp := logStamp s, endChain := last.chain }
      let x := { x with signature := Config.sign (sealKey s) sealContext x.body }
      let g : Segment := { recs := recs, sealRec := x, emergency := o.emergency }
      let size := if o.emergency then logEmergencySize else logRingSize
      let s := s.onLog fun l =>
        let all := ((l.segments.filter fun y => y.emergency == o.emergency).map Segment.size).sum + g.size
        { l with
          opened := none, segments := overwrite size o.emergency all l.segments ++ [g], lastSealed := some last.seq
          sealChain := some last.chain, seals := satAdd32 l.seals 1 }
      updateLevel { s with store := { s.store with rtc := { time := s.rtc.time, setCount := s.rtc.setCount
                                                            trim := s.rtc.trim, allowFrom := s.rtc.allowFrom
                                                            spent := s.rtc.spent } } }
    | _, _ => s.onLog fun l => { l with opened := none }

/-- Chain one record into the open segment, opening it in the area given if none is open (R376, R377, R380). -/
def appendRecord (s : State) (it : LogItem) (emergency : Bool) : State :=
  let l := s.store.log
  let prev := l.chain.getD chainStart
  let r : LogRec :=
    { type := it.type, critical := it.critical, emergency := emergency, rtcInvalid := !s.rtc.valid
      noStamp := s.seq.state == .buoy, comp := it.comp, seq := l.nextSeq, rtc := s.rtc.time
      stamp := logStamp s, payload := it.payload }
  let r := { r with chain := h16 (prev ++ r.header ++ r.payload) }
  let o := l.opened.getD { emergency := emergency, openedRtc := s.rtc.time }
  let o := { o with
    recs := r :: o.recs
    criticalAt := if it.critical then (match o.criticalAt with | some t => some t | none => some s.now)
                  else o.criticalAt }
  let s := s.onLog fun l => { l with
    nextSeq := l.nextSeq + 1, chain := some r.chain, opened := some o
    seqLimit := if l.opened.isNone then l.nextSeq + 256 else l.seqLimit }
  s.onPlane fun p => { p with results := .logBody s.stamp.tick it :: p.results }

/-- The GAP record's payload (Table 15.5). -/
def gapItem (l : Logbook) : LogItem :=
  { type := 2, critical := true
    payload := leBytes 4 (min l.gapPlain 0xFFFFFFFF) ++ leBytes 4 (min l.gapCritical 0xFFFFFFFF) ++
      leBytes 8 l.gapFirst ++ leBytes 8 l.gapLast }

/-- Drop a record (R382). -/
def dropRecord (s : State) (it : LogItem) : State :=
  updateLevel (s.onLog fun l => { l with
    dropped := satAdd32 l.dropped 1
    gapPlain := if it.critical then l.gapPlain else l.gapPlain + 1
    gapCritical := if it.critical then l.gapCritical + 1 else l.gapCritical
    gapFirst := if l.gapPlain + l.gapCritical = 0 then s.rtc.time else l.gapFirst
    gapLast := s.rtc.time })

/-- The area that takes a record, or none when it is dropped (R382). A non-critical record enters an open segment of the
ring; an open emergency segment takes critical records only, and closes for the ring as soon as the ring has room. -/
def areaFor (s : State) (it : LogItem) : Option Bool :=
  let l := s.store.log
  match l.opened with
  | some o => if o.emergency && !it.critical then none else some o.emergency
  | none =>
    if l.canOpen false then some false
    else if it.critical && l.canOpen true then some true
    else none

/-- Seal first what the record that is coming would not join: a full segment (reason 1), or an emergency segment, which holds a critical record
(reason 3), once the ring has room again (R382). -/
def makeRoom (s : State) : State :=
  match s.store.log.opened with
  | some o =>
    if 256 ≤ o.recs.length then sealSegment s 1
    else if o.emergency && s.store.log.canOpen false then sealSegment s 3
    else s
  | none => s

/-- Store one record or drop it; the answer says whether it was stored (R377, R382). -/
def storeRecord (s : State) (it : LogItem) : State × Bool :=
  if 0xFFFFFFFFFFFFFFFF ≤ s.store.log.nextSeq then (s, false)
  else
    let s := makeRoom s
    match areaFor s it with
    | none => (dropRecord s it, false)
    | some e => (appendRecord s it e, true)

/-- Write a record: after drops, a GAP record goes ahead of it and resets the counts (R382). -/
def logRecord (s : State) (it : LogItem) : State × Bool :=
  let l := s.store.log
  if 0 < l.gapPlain + l.gapCritical ∧ (areaFor (makeRoom s) it).isSome then
    let (s', ok) := storeRecord s (gapItem l)
    if ok then
      storeRecord (s'.onLog fun l => { l with gapPlain := 0, gapCritical := 0, gapFirst := 0, gapLast := 0 }) it
    else storeRecord s it
  else storeRecord s it

/-- The open segment closes for a reason at the end of the tick, so that every record with effect at that tick belongs to it; at once where no tick
hall runs (R378). The first reason stands. -/
def closeSegment (s : State) (reason : Nat) : State :=
  if s.plane.running then
    s.onLog fun l => { l with opened := l.opened.map fun o => { o with closing := some (o.closing.getD reason) } }
  else sealSegment s reason

/-- The end of a tick for the open segment (R378): it is sealed where it is to close, with 256 records, 60 s of RTC time after its first record, and 8,000 ticks
after its first critical record at the latest. -/
def sealTick (s : State) : State :=
  match s.store.log.opened with
  | none => s
  | some o =>
    match o.closing with
    | some reason => sealSegment s reason
    | none =>
      if 256 ≤ o.recs.length then sealSegment s 1
      else if o.openedRtc + 60 * 32768 ≤ s.rtc.time then sealSegment s 2
      else if o.criticalAt.any (· + 8000 ≤ s.now + 1) then sealSegment s 3
      else s

/-- Write a device record and go on. -/
def logDevice (s : State) (type : Nat) (critical : Bool) (payload : List Byte) : State :=
  (logRecord s { type := type, critical := critical, payload := payload }).1

/-- ALLOWANCE (R372) in 1/32,768 s: 60 s, plus 1 s for each whole 3,600 s since the last signed set or cold reset, less the steps
of the unsigned sets since. -/
def Rtc.allowanceUnits (r : Rtc) : Nat := (60 + (r.time - r.allowFrom) / (3600 * 32768)) * 32768 - r.spent

/-- ALLOWANCE in ms. -/
def Rtc.allowance (r : Rtc) : Nat := r.allowanceUnits * 1000 / 32768

/-- The 16-byte RTC value (Table 15.1). -/
def Rtc.bytes (r : Rtc) : List Byte :=
  leBytes 8 r.time ++ leBytes 4 r.setCount ++ leBytes 1 (b2n r.valid) ++ leBytes 3 0

/-- One tick of the RTC (R369, R370): 32,768 counts in 8,000,000 ticks, corrected by TRIM and by the temperature curve of
0.034 ppm/K² about 25 °C, both in ppb, through the fractional accumulator. -/
def Rtc.advance (r : Rtc) : Rtc :=
  let ppb : Int := 1000000000 + r.trim + 34 * (r.temp - 25) * (r.temp - 25)
  let acc := r.acc + 32768 * ppb.toNat
  let unit := 8000000 * 1000000000
  { r with time := r.time + acc / unit, acc := acc % unit }

end Sys2Proof.Machine
end

