-- ==== Sys2Proof/Machine/Packets.lean ====
section
/-! DEFINITION. How a command packet is admitted, checked, waits for its tick and its turn, executes and completes (R75–R83, R33–R35): the
part that every opcode shares. -/

namespace Sys2Proof.Machine

/-- What executing an opcode gives: the state, a final status or none while it goes on, and the reply fields. -/
structure Res where
  s : State
  st : Option Status := some .ok
  reply : Reply := []

/-- One opcode (Table 03.14; `listed` that it stands there): its code, its agent, the SLOTS it takes, its argument fields, and its steps 5, 6 and 7 of R79.
`member` that it may stand in a flight (R84). `bad` answers whether an argument breaks S_BADARG, `deny` whether one breaks
S_DENIED; `agree` compares the state before and the state it would leave (R89); `refuse` is a status of step 7 with which an opcode is not carried out. -/
structure Op where
  code : Nat
  fast : Bool := false
  listed : Bool := true
  member : Packet → Bool := fun _ => true
  slotsOk : Packet → Bool := fun p => p.slotsField == 1
  layout : Packet → Layout := fun _ => []
  bad : Packet → State → Bool := fun _ _ => false
  deny : Packet → State → Bool := fun _ _ => false
  agree : Packet → State → State → Bool := fun _ _ _ => true
  refuse : Packet → State → Option Status := fun _ _ => none
  run : Packet → State → Res

/-- The group of an opcode (R98). -/
def Op.group (o : Op) : Nat := o.code / 256

/-- The fast opcodes (Table 03.14). -/
def isFast (op : Nat) : Bool :=
  op == 0x0100 || op == 0x0104 || op == 0x0200 || op == 0x0300 || op == 0x0310 || op == 0x0400 || op == 0x0401 ||
    op == 0x0412 || op == 0x0702 || op == 0x0703 || op == 0x0712

/-- The keeper opcodes that have no effect on points, outputs, bus transmission or event rings (R35), whatever they name: SYS.INFO, VALVE.TRACE, KEY.INFO, SIGN, VERIFY
and HASH, IMAGE.DATA, TOKEN.LIST, LOG.READ, TIME.GET, WATCH.CONFIG, WATCH.GRANT and WATCH.SNAP, CAPTURE.START and CAPTURE.STOP. Every field of an ATTEST report
is that of its effect tick (R343): it waits for E. -/
def answers (op : Nat) : Bool :=
  [0x0101, 0x0313, 0x0A02, 0x0A10, 0x0A11, 0x0A12, 0x0B01, 0x0C02, 0x0D01, 0x0D11, 0x0E00, 0x0E01, 0x0E02, 0x0F00, 0x0F01].contains op

/-- A packet that only reads: a status that it does not clear, or the settings that an opcode would change. The bit is that of the opcode's table. -/
def readsOnly (p : Packet) : Bool :=
  match p.opcode with
  | 0x0202 => !p.bit 18 0
  | 0x0422 => !p.bit 17 0
  | 0x0502 => !p.bit 20 0
  | 0x0611 => !p.bit 16 0
  | 0x0704 => !p.bit 16 4
  | 0x0802 => !p.bit 16 4
  | 0x0903 => !p.bit 17 0
  | 0x0C12 => !p.bit 16 0
  | 0x0201 | 0x0204 | 0x0205 | 0x0301 | 0x0312 | 0x0402 | 0x0410 | 0x0600 | 0x0610 | 0x0C10 => p.bit 16 0
  | 0x0411 | 0x0900 => p.bit 17 0
  | 0x0421 | 0x0904 => p.bit 16 4
  | 0x0700 => p.bit 16 5
  | 0x0800 => p.bit 16 2
  | 0x0B03 => p.fld 16 0 2 == 1
  | _ => false

/-- The packets among these whose opcode gives the tick E to what it answers or applies: LOAD.DIAG, READ forms of STRING.CONFIG, PATTERN.LOAD,
INPUT.CONFIG, CAN.CONFIG and ETH.CONFIG, TIME.GET, WATCH.CONFIG, WATCH.GRANT and WATCH.SNAP (DEDUCED, log entry 15). -/
def atE (p : Packet) : Bool := [0x0202, 0x0410, 0x0411, 0x0600, 0x0700, 0x0800, 0x0D11, 0x0E00, 0x0E01, 0x0E02].contains p.opcode

/-- A keeper packet without effect on points, outputs, bus transmission or event rings: it completes when the keeper has finished it, and its
DONE_TICK is outside the guarantee (R35). -/
def timeless (p : Packet) : Bool := answers p.opcode || readsOnly p

/-- What the result stream takes of a packet's reply (R30): nothing of a confirmed CAN.SEND or LIN.SEND and of a CAN.CANCEL, only the status of a
packet that R35 places outside the guarantee. -/
def shareOf (p : Packet) : Nat :=
  if p.opcode = 0x0703 ∨ ((p.opcode = 0x0702 ∨ p.opcode = 0x0712) ∧ p.bit 16 4) then 2 else if timeless p then 1 else 0

/-! The packets of a ring. -/

/-- The rings that carry packets: 0–31 and 62 (Table 03.1). -/
def packetRings : List Nat := List.range 32 ++ [62]

/-- The slots that the packet in a slot takes (R75): one where SLOTS is 0 or above 16, or passes the last slot. -/
def slotsAt (s : State) (r slot : Nat) : Nat :=
  let g := s.ring r
  let n := (memRead s (g.slotAddr slot + 3)).toNat
  if n = 0 ∨ 16 < n ∨ g.size < slot + n then 1 else n

/-- The packet that stands in a slot of a ring: its issuer is the ring's owner. -/
def packetAt (s : State) (r slot : Nat) (arrival : Stamp) : Packet :=
  let g := s.ring r
  let a := g.slotAddr slot
  let n := (memRead s (a + 3)).toNat
  { comp := (ringOwner (chartersInForce s) r).getD 0, ring := r, slot := slot, arrival := arrival
    bytes := memReadN s a (64 * slotsAt s r slot) ++ List.replicate (if g.size < slot + n then 64 * (n - 1) else 0) 0 }

/-- The packet at HEAD of a ring (R75), with the stamp of the doorbell that made its last slot visible. -/
def ringPacket (s : State) (r : Nat) : Packet :=
  let g := s.ring r
  packetAt s r g.head (g.arrivalOf (slotsAt s r g.head))

/-- A slot at HEAD is visible. -/
def Ring.waits (g : Ring) : Bool := g.enabled && g.head != g.tail

/-- The packet at HEAD of a ring is visible to its last slot. -/
def headWhole (s : State) (r : Nat) : Bool := (s.ring r).waits && slotsAt s r (s.ring r).head ≤ (s.ring r).filled

/-- A packet stands at the head of its ring, to be admitted next (R75). -/
def atHead (p : Packet) (s : State) : Bool := packetRings.contains p.ring && headWhole s p.ring && ringPacket s p.ring == p

/-- The slot after a packet: slot 0 after one that passes the end of the ring (R75). -/
def Ring.after (g : Ring) (p : Packet) : Nat := if g.size < p.slot + p.slots then 0 else (p.slot + p.slots) % max 1 g.size

/-- The slots of the ring that a packet takes: those to the ring's end where it passes it (R75). -/
def Ring.taken (g : Ring) (p : Packet) : Nat := min p.slots (g.size - p.slot)

/-- The device admits the packet at HEAD (R75): HEAD moves past it, and it is outstanding until it completes. The ring keeps what the packet runs to
completion under: that it fitted, and its issuer's charter entry (R91, R413). -/
def takeIn (s : State) (p : Packet) : State :=
  s.onRing p.ring fun g => { g.advance (g.after p) with
    admitted := g.admitted ++ [{ slot := p.slot, slots := g.taken p, arrival := p.arrival, keeper := !isFast p.opcode
                                 fits := p.slot + p.slotsField ≤ g.size, entry := some (charterOf s p.comp) }] }

/-- Slots from the slot that the capture unit comes to next up to TAIL. -/
def Ring.unseen (g : Ring) : Nat := if g.size = 0 then 0 else (g.tail + g.size - g.scan % g.size) % g.size

/-- A packet as submitted is captured, from the compartments of the command mask (Table 01.9). -/
def captureCommand (s : State) (p : Packet) : State :=
  if s.plane.capture.cmdMask.testBit p.comp then
    capItem s { stamp := p.arrival, cls := 3, hall := p.hall, value := p.comp + 16 * p.ring, word := p.slot
                payload := p.bytes.take (64 * p.slots) }
  else s

/-- The capture unit sees the packets of a ring that a doorbell makes visible to their last slot, in slot order (Table 01.7). -/
def captureVisible (r : Nat) : Nat → State → State
  | 0, s => s
  | n + 1, s =>
    let g := s.ring r
    let k := slotsAt s r g.scan
    if g.enabled ∧ g.scan ≠ g.tail ∧ k ≤ g.unseen then
      let p := packetAt s r g.scan s.wallStamp
      captureVisible r n ((captureCommand s p).onRing r fun g => { g with scan := g.after p })
    else s

/-! What an admitted packet runs under. -/

/-- The record of an admitted packet that has not completed. -/
def Ring.admittedAt (g : Ring) (slot : Nat) : Option Admitted := g.admitted.find? fun a => a.slot == slot && !a.done

/-- The packet fits before the end of the ring that it was admitted from (R75, R413). -/
def fitsRing (p : Packet) (s : State) : Bool :=
  let g := s.ring p.ring
  match g.orphanOf p.slot (some p.arrival), g.admittedAt p.slot with
  | some o, _ => o.fits
  | none, some a => a.fits
  | none, none => !(g.enabled && g.size < p.slot + p.slotsField)

/-- The charter entry that a packet's issuer had at the packet's admission. -/
def entryOf (p : Packet) (s : State) : Option Charter :=
  let g := s.ring p.ring
  match g.orphanOf p.slot (some p.arrival), g.admittedAt p.slot with
  | some o, _ => o.entry
  | none, some a => a.entry
  | none, none => none

/-- The state in which a packet's rights are judged: with the charter entry of its admission (R91). -/
def judged (p : Packet) (s : State) : State :=
  match entryOf p s with
  | some h => s.onStore fun st => { st with charters := { st.charters with entries := vmod st.charters.entries p.comp fun _ => h } }
  | none => s

/-! The checks of R79. -/

/-- Step 1 of R79: SLOTS is 1–16 and fits before the ring end, DONE is 0, the reserved flags are 0, AT_TICK agrees with
EXEC_TICK, and FLIGHT_END stands only with FLIGHT. -/
def headerBad (fits : Bool) (p : Packet) : Bool :=
  p.slotsField == 0 || 16 < p.slotsField || !fits ||
    p.bytes.length < 64 * p.slots || p.bit 2 7 || p.fld 2 4 3 != 0 || (p.atTick != (p.execWord != 0)) ||
    (p.flightEnd && !p.inFlight)

/-- Step 4 of R79: EXEC_TICK's epoch agrees with R33, and it lies at most 80,000,000 ticks after the arrival. -/
def tickBad (p : Packet) (s : State) : Bool :=
  p.execWord != 0 &&
    (p.execStamp.epoch != s.plane.epoch || s.plane.epoch == 0 || p.arrival.tick + 80000000 < p.execStamp.tick)

/-- Step 5 of R79: every S_BADARG cause comes before any S_DENIED cause. -/
def argStatus (o : Op) (p : Packet) (s : State) : Option Status :=
  if !o.slotsOk p || !reservedClear p (o.layout p) || o.bad p s then some .badarg
  else if o.deny p s then some .denied
  else none

/-- Steps 1–5 of R79 on a packet of an opcode; ring 62 carries only LOG.APPEND (R384). -/
def checkWith (fits : Bool) (o : Op) (p : Packet) (s : State) : Option Status :=
  if headerBad fits p then some .badarg
  else if !o.listed ∨ (p.ring = 62 ∧ o.code ≠ 0x0D00) ∨ (p.inFlight ∧ (o.fast ∨ !o.member p)) then some .badop
  else if !grantsGroup s p.comp o.group then some .denied
  else if tickBad p s then some .badarg
  else argStatus o p s

/-- Steps 1–5 of R79, judged in the tick in which the packet executes or takes effect, by the ring and the charter entry of its admission. DESIGN
CHOICE: the tick of these checks is the model's, see log entry 114. -/
def checkPacket (o : Op) (p : Packet) (s : State) : Option Status := checkWith (fitsRing p s) o p (judged p s)

/-- The tick a packet executes or takes effect in: for a fast opcode EXEC_TICK, or 16 ticks after the arrival (R80); for a
keeper opcode E (R35). A packet from an earlier epoch is due at once. -/
def dueTick (fast : Bool) (p : Packet) (s : State) : Nat :=
  if p.arrival.epoch ≠ s.plane.epoch then s.plane.tick
  else if fast then
    if p.execWord = 0 then p.arrival.tick + 16
    else if p.execStamp.epoch = s.plane.epoch then p.execStamp.tick else p.arrival.tick + 16
  else
    let x := if p.execStamp.epoch = s.plane.epoch then p.execStamp.tick else 0
    max x (p.arrival.tick + 8000)

/-- The first tick a packet can execute in: the tick it is due in, and of a fast packet whose EXEC_TICK has passed before L1 releases it
the first tick after the release, which is nominally in the tick after its arrival (R24, R34). -/
def readyTick (p : Packet) (s : State) : Nat :=
  let due := dueTick true p s
  if p.arrival.epoch = s.plane.epoch ∧ due ≤ p.arrival.tick then p.arrival.tick + 2 else due

/-- A fast packet is on time: EXEC_TICK 0, or at least 16 ticks after the arrival (R33). -/
def onTime (p : Packet) : Bool := p.execWord == 0 || p.arrival.tick + 16 ≤ p.execStamp.tick

/-- The time of the keeper: the tick, or the power die's count while the tick hall does not run. -/
def State.tickNow (s : State) : Nat := s.plane.tick

/-! Replies. -/

/-- Where the reply of a packet goes: into the slot it was admitted from (R76, R413); nowhere on a ring that is not enabled. -/
def Ring.replyAddr (g : Ring) (slot : Nat) (arrival : Option Stamp) : Option Nat :=
  match g.orphanOf slot arrival with
  | some o => some o.addr
  | none => if g.enabled then some (g.slotAddr slot) else none

/-- The slots that the reply of a packet covers (R78): those that it takes of its ring. -/
def Ring.replySlots (g : Ring) (p : Packet) : Nat :=
  match g.orphanOf p.slot (some p.arrival), g.admittedAt p.slot with
  | some o, _ => o.slots
  | none, some a => a.slots
  | none, none => g.taken p

/-- The header of a reply (Table 03.4): STATUS, the flags with DONE, SLOTS and TAG unchanged, DONE_TICK; the reserved flags are 0 (R11). -/
def replyHeader (p : Packet) (st : Status) (done : Stamp) : List Byte :=
  leBytes 2 st.code ++ leBytes 1 (p.num 2 1 % 16 + 128) ++ leBytes 1 p.slotsField ++ leBytes 4 p.tag ++
    leBytes 8 done.word

/-- The same packet by ring, slot and arrival. -/
def samePlace (p q : Packet) : Bool := p.ring == q.ring && p.slot == q.slot && p.arrival == q.arrival

/-- The replies of a replayed packet of C14 or C15 are not written to its ring (R43). -/
def replyHidden (p : Packet) (s : State) : Bool :=
  s.plane.replay.running && s.plane.replay.cmdRing.any (samePlace p)

/-- An S_LATE completion: the LATE bit, the LATE_EXEC event, the counts of a capture and of a replay (R34, R41). A LATE mark is written for packets of C0–C13
(DESIGN CHOICE, log entry 162); the event of a replayed packet enters the result stream only (R43). -/
def noteLate (s : State) (p : Packet) (ticks : Nat) (replayed : Bool := false) : State :=
  let s := bump s 2 p.comp 1 (some (if isFast p.opcode then 3 else 1))
  let s := s.onPlane fun q => { q with
    status := { q.status with late := true }
    replay := if q.replay.running ∧ p.comp < 14 then { q.replay with lateExec := satAdd32 q.replay.lateExec 1 }
              else q.replay }
  let s :=
    if s.plane.capture.running ∧ p.comp < 14 then
      let s := capWrite s (markRecord s 6 p.comp)
      s.onPlane fun q => { q with
        capture := { q.capture with clean := false, lateExec := satAdd32 q.capture.lateExec 1 } }
    else s
  postEvent s { stamp := s.stamp, idx := p.order, address := p.place, hall := p.hall, comp := p.comp, value := sat16 ticks, kind := 0x0105, replayed := replayed }

/-- The reply of a packet is written into its slots: the body, then the header with DONE (R77, R78). -/
def writeReply (s : State) (p : Packet) (st : Status) (reply : Reply) (done : Stamp) : State :=
  let g := s.ring p.ring
  let head := replyHeader p st done
  let body := replyBody (g.replySlots p) reply
  let s := if isApp p.comp then mirrorReply s p.ring p.slot [(16, body), (0, head)] else s
  match g.replyAddr p.slot (some p.arrival) with
  | some a => memWriteN (memWriteN s (a + 16) body) a head
  | none => s

/-- A packet leaves its ring complete (R76): RETIRE moves, and the ring counts the completion. -/
def retirePacket (s : State) (p : Packet) : State := s.onRing p.ring fun g => Ring.countIrq (g.complete p.slot (some p.arrival))

/-- A replayed packet that has completed leaves the replay ring (R43). -/
def dropReplayed (s : State) (p : Packet) : State :=
  s.onPlane fun q => { q with replay := { q.replay with cmdRing := q.replay.cmdRing.filter fun x => !samePlace p x } }

/-- Output of a packet into its buffer (R43): that of a replayed packet of C14 or C15 is not written. -/
def packetOut (p : Packet) (s : State) (a : Nat) (l : List Byte) : State := if replyHidden p s then s else memOut s a l

/-- The tick of a reply in the result stream: DONE_TICK, or the packet's effect tick where R35 places DONE_TICK outside the guarantee (R30). -/
def replyTick (p : Packet) (s : State) (done : Stamp) : Nat := if shareOf p = 1 then dueTick false p s else done.tick

/-- The REPLY event of a packet (Table 03.13): of a reply that stays out of the result stream it stays out too (R30), and that of a replayed packet enters the
result stream only (R43). -/
def replyEv (p : Packet) (s : State) (st : Status) (done : Stamp) : Ev :=
  { stamp := done, idx := p.order, address := p.place, hall := p.hall, comp := p.comp, value := st.code, kind := 0x0101
    hidden := shareOf p == 2, replayed := replyHidden p s, nominal := if shareOf p = 1 then some (dueTick false p s) else none }

/-- Complete a packet (R77, R78): body, then header with DONE; RETIRE moves, the ring counts the completion, a REPLY event
is posted where EVENT_REPLY asks, and the status enters the result stream. A replayed packet has no ring of its own (R43). -/
def completeAt (s : State) (p : Packet) (st : Status) (reply : Reply) (done : Stamp) : State :=
  let e := replyEv p s st done
  let r : ResultItem := .reply p.ring p.slot st.code (replyTick p s done) (shareOf p)
  let s := if replyHidden p s then dropReplayed s p else retirePacket (writeReply s p st reply done) p
  let s := s.onPlane fun q => { q with results := r :: q.results }
  if p.eventReply then postEvent s e else s

/-- An output that a packet computes with a key slot enters the result stream as its length (R30, R306). -/
def keyedOut (p : Packet) (s : State) (n : Nat) : State :=
  s.onPlane fun q => { q with results := .keyed p.ring p.slot (replyTick p s s.stamp) n :: q.results }

/-- Complete a packet now. -/
def completeNow (s : State) (p : Packet) (st : Status) (reply : Reply) : State := completeAt s p st reply s.stamp

/-- A live packet that a replay shuts out completes with S_BUSY at its arrival tick, and has no effect (R43). -/
def refuseLive (s : State) (p : Packet) : State := retirePacket (writeReply s p .busy [] p.arrival) p

/-- A packet that goes on after its execution shows S_PENDING with DONE = 0 (R77). -/
def writePending (s : State) (p : Packet) : State :=
  match (s.ring p.ring).replyAddr p.slot (some p.arrival) with
  | some a => if replyHidden p s then s else memWriteN s a (leBytes 2 Status.pend.code)
  | none => s

/-! The order of the packets that are due in one tick (R20, R81). -/

/-- The place of a packet in the order of R81: hall, ring, slot; never 0. -/
def turnKey (p : Packet) : Nat := 1048576 * p.hall + p.order

/-- A set of the time outside a flight: it takes effect before everything else in its tick (R374). -/
def isTimeSet (p : Packet) : Bool := p.opcode == 0x0D10 && !p.inFlight

/-- The place of a packet among those of a tick: sets of the time first (R374), then the order of R81. -/
def runKey (p : Packet) : Nat := turnKey p + (if isTimeSet p then 0 else 2 ^ 30)

/-- No packet has run in the tick but sets of the time, and no reflex. -/
def freshTick (s : State) : Bool := decide (s.plane.turn < 2 ^ 30) && s.points.evalNow == 0 && s.points.actsNow == 0

/-- L0 and L1 have released what the tick acts on (R20, R24). -/
def inputsIn (s : State) : Bool :=
  s.plane.tick ≤ (vget s.plane.landings 0).released && s.plane.tick ≤ (vget s.plane.landings 1).released

/-- A running action writes in this tick (Table 04.15). -/
def RunAct.due (a : RunAct) (lin : Nat) : Bool :=
  if a.ramp then a.k < min a.duration (lin - a.fire + 1) else a.fire + a.duration ≤ lin

/-- The reflex engine has done its work of the tick (R108, R116, R117). -/
def reflexDone (s : State) : Bool :=
  (s.points.queue.isEmpty || 16 ≤ s.points.evalNow) && (s.points.actQueue.isEmpty || 32 ≤ s.points.actsNow) &&
    s.points.running.all fun a => !a.due s.plane.lin

/-- The keeper has done its work on a packet. -/
def isFinished (s : State) (p : Packet) : Bool := s.plane.finished.contains p

/-- A held packet of the keeper takes effect in this tick: at E, or later where the keeper has finished it late. One that only answers does so
where its answer is that of E, or where it is rejected at E (R79). -/
def keeperDue (s : State) (p : Packet) : Bool :=
  (!timeless p || isFinished s p) && !p.inFlight &&
    (dueTick false p s == s.plane.tick || (isFinished s p && dueTick false p s < s.plane.tick))

/-- The held packets that take effect in this tick. -/
def duePackets (s : State) : List Packet :=
  ((s.plane.waiting.map (·.p)).filter fun p => readyTick p s ≤ s.plane.tick) ++ s.plane.keeper.filter (keeperDue s)

/-- The effect tick of a flight (R85, R88): by its EXEC_TICK and the arrival of its FLIGHT_END, or of the packet that interrupted it. -/
def flightDue (s : State) (f : Flight) : Nat :=
  match f.members with
  | p :: _ => dueTick false { p with arrival := f.interrupted.getD f.endArrival } s
  | [] => s.plane.tick

/-- The keeper has finished its work on a flight, and its effect tick has come. -/
def flightReady (s : State) (f : Flight) : Bool := f.complete && f.finished && decide (flightDue s f ≤ s.plane.tick)

/-- A flight stands to be applied at the start of the tick, ahead of every packet (R86). -/
def flightsReady (s : State) : Bool := packetRings.any fun r => (s.ring r).flights.any (flightReady s)

/-- A packet's turn has come (R81, R86, R108): the tick's flights, inputs and reflexes are done, and no packet of the tick that precedes it is left;
one that would follow it has not run. That of a set of the time comes at the start of the tick (R374). -/
def inTurn (p : Packet) (s : State) : Bool :=
  (if isTimeSet p then freshTick s else inputsIn s && reflexDone s && !flightsReady s) &&
    s.plane.turn < runKey p && (duePackets s).all fun q => runKey p ≤ runKey q

/-- Take a packet out of the dispatcher's and the keeper's lists: it takes effect now, in its turn. -/
def release (s : State) (p : Packet) : State :=
  s.onPlane fun q => { q with
    waiting := q.waiting.filter fun w => !samePlace w.p p
    keeper := q.keeper.filter fun w => !samePlace w p
    finished := q.finished.filter fun w => !samePlace w p
    turn := if timeless p then q.turn else runKey p }

/-! Execution. -/

/-- Step 7 of R79: an opcode is carried out, unless it is refused. -/
def carryOut (o : Op) (p : Packet) (s : State) : Res :=
  match o.refuse p s with
  | some st => { s := s, st := some st }
  | none => o.run p s

/-- Execute a packet: the checks of steps 1–5, then steps 6 and 7, with nothing applied where a check fails. A single
packet must leave its agreeing pairs in agreement (R89). -/
def executeOp (o : Op) (p : Packet) (s : State) : Res :=
  match checkPacket o p s with
  | some st => { s := s, st := some st }
  | none => if o.agree p s (o.run p s).s then carryOut o p s else { s := s, st := some .conflict }

/-- A packet that passes steps 1–6 is executed; one that fails a check is rejected, never late (R79, R99). -/
def executed (o : Op) (p : Packet) (s : State) : Bool := (checkPacket o p s).isNone && o.agree p s (o.run p s).s

/-- A packet that is executed late completes with S_LATE (R34, R35). -/
def lateStatus (late : Bool) (st : Status) : Status := if late then .late else st

/-- A fast packet that executes now executes late (R34, R82). -/
def ranLate (p : Packet) (s : State) : Bool := !onTime p || dueTick true p s < s.plane.tick

/-- The state in which a fast packet executes: it has left the dispatcher's list, and the tick counts it (R82). -/
def counted (s : State) (p : Packet) : State := bump ((release s p).onPlane fun q => { q with execNow := q.execNow + 1 }) 5 0 1

/-- A packet has been run at the state `s`: it completes where it has a status, and is noted where it is late by `ticks`. -/
def finishRun (r : Res) (p : Packet) (late : Bool) (ticks : Nat) : State :=
  let hidden := replyHidden p r.s
  let s := match r.st with
    | none => r.s
    | some st => completeNow r.s p (lateStatus late st) r.reply
  if late then noteLate s p ticks hidden else s

/-- Execute a fast packet that is due and complete it (R34, R82). -/
def fastExecute (o : Op) (p : Packet) (s : State) : State :=
  let due := dueTick true p s
  let late := ranLate p s
  let s := counted s p
  finishRun (executeOp o p s) p (late && executed o p s) (s.plane.tick - due)

/-- The wait list holds the packet. -/
def isWaiting (s : State) (p : Packet) : Bool := s.plane.waiting.any fun w => w.p == p

/-- A fast packet before its turn: it waits in the dispatcher, or completes with S_BUSY where 1,024 already wait (R82). -/
def fastHold (p : Packet) (s : State) : State :=
  if isWaiting s p then s
  else if s.plane.waiting.length < 1024 then s.onPlane fun q => { q with waiting := q.waiting ++ [{ p := p }] }
  else completeNow s p .busy []

/-- An overflow has moved the packet (R82). -/
def isMoved (s : State) (p : Packet) : Bool := s.plane.waiting.any fun w => w.p == p && w.moved

/-- Eight packets have executed in the tick: a further one moves to the next (R82). -/
def moveFast (p : Packet) (s : State) : State :=
  (fastHold p (if isMoved s p then s else bump s 5 1 1)).onPlane fun q => { q with
    waiting := q.waiting.map fun w => if w.p = p then { w with moved := true } else w }

/-- Live packets of C14 and C15 complete with S_BUSY while a replay runs, but for REPLAY.RUN and DEBUG.UNLOCK with MODE 2
(R43). -/
def replayShuts (p : Packet) (s : State) : Bool :=
  s.plane.replay.running && (p.comp == 14 || p.comp == 15) && p.opcode != 0x0F02 &&
    !(p.opcode == 0x0B20 && p.fld 16 0 2 == 2) && !s.plane.replay.cmdRing.any (samePlace p)

/-! Flights. -/

/-- A flight still waits for its FLIGHT_END (R88). -/
def Flight.isOpen (f : Flight) : Bool := !f.complete && f.interrupted.isNone

/-- The open flight of a ring: the youngest one. -/
def Ring.openFlight (g : Ring) : Option Flight :=
  match g.flights.getLast? with
  | some f => if f.isOpen then some f else none
  | none => none

/-- The flights of a ring with its open one in place of the one before. -/
def Ring.putOpen (g : Ring) (f : Flight) : Ring :=
  { g with flights := (if g.openFlight.isSome then g.flights.dropLast else g.flights) ++ [f] }

/-- A member joins the open flight of its ring, or begins one (R84, R85). -/
def joinFlight (p : Packet) (s : State) : State :=
  s.onRing p.ring fun g =>
    if g.flights.any fun f => f.members.any (samePlace p) then g
    else
      let f := g.openFlight.getD {}
      g.putOpen { f with members := f.members ++ [p], complete := p.flightEnd, endArrival := p.arrival }

/-- A packet with FLIGHT = 0 that follows an open member interrupts the flight, and is processed alone (R88). -/
def interruptFlight (p : Packet) (s : State) : State :=
  if p.inFlight then s
  else s.onRing p.ring fun g =>
    match g.openFlight with
    | some f => if f.members.any (samePlace p) then g else g.putOpen { f with interrupted := some p.arrival }
    | none => g

/-! Admission. -/

/-- The device holds a packet that has not taken effect: in the dispatcher, with the keeper, or as a member of a flight of its ring. -/
def isHeld (s : State) (p : Packet) : Bool :=
  isWaiting s p || s.plane.keeper.contains p || (s.ring p.ring).flights.any fun f => f.members.contains p

/-- A replayed packet of C14 or C15 that has not been admitted yet (R43). -/
def isReplayed (s : State) (p : Packet) : Bool := s.plane.replay.running && s.plane.replay.cmdNew.contains p

/-- The packets that the keeper holds (R83): those admitted that have not completed. -/
def keeperCount (s : State) : Nat :=
  (s.plane.rings.toList.map fun g =>
    (g.admitted.filter fun a => a.keeper && !a.done).length + (g.orphans.filter (·.keeper)).length).sum +
  (s.plane.replay.cmdRing.filter fun p => !isFast p.opcode && !s.plane.replay.cmdNew.contains p).length

/-- The keeper admits at most 256 packets at a time; further ones stay unadmitted (R83). -/
def keeperShut (s : State) (p : Packet) : Bool := !isHeld s p && 256 ≤ keeperCount s

/-- A packet is admitted: a replayed one leaves the reader's list, a live one its ring's HEAD; it ends a flight that it does not go on with. -/
def admitPacket (p : Packet) (s : State) : State :=
  let s := if isReplayed s p then s.onPlane fun q => { q with replay := { q.replay with cmdNew := q.replay.cmdNew.erase p } } else takeIn s p
  interruptFlight p s

/-- Packet `p` comes before `q` for the keeper, by stamp and then by the tie order (R35, R81). -/
def keeperBefore (p q : Packet) : Bool :=
  p.arrival.word < q.arrival.word || (p.arrival == q.arrival && turnKey p ≤ turnKey q)

/-- The keeper handles its inputs in stamp order (R35): of the keeper packets at the heads of rings, `p` is the first. -/
def keeperNext (p : Packet) (s : State) : Bool :=
  packetRings.all fun r => !headWhole s r || (let q := ringPacket s r; isFast q.opcode || keeperBefore p q)

/-- A packet may be admitted now (R75, R83): it is replayed, or stands at its ring's HEAD. A fast one must have been released by L1; one of the keeper
must be the first of its inputs, and the keeper must have room for it. -/
def mayAdmit (p : Packet) (s : State) : Bool :=
  (isReplayed s p || atHead p s) && (if isFast p.opcode then landed s 1 p.arrival else !keeperShut s p && keeperNext p s)

/-- Run a fast packet that has been admitted: it waits for its tick and its turn, and executes in it, at most eight in a tick (R34, R80–R82). -/
def runFast (o : Op) (p : Packet) (s : State) : State :=
  if replayShuts p s then refuseLive s p
  else if p.inFlight then joinFlight p s
  else if s.plane.tick < readyTick p s ∨ !inTurn p s then fastHold p s
  else if 8 ≤ s.plane.execNow then moveFast p s
  else fastExecute o p s

/-- A fast opcode's packet is taken: admitted if it is not yet, and run. A packet that the device does not have does nothing. -/
def fastTake (o : Op) (p : Packet) (s : State) : State :=
  if p.opcode ≠ o.code then s
  else if isHeld s p then runFast o p s
  else if mayAdmit p s then runFast o p (admitPacket p s)
  else s

/-- SIGN, VERIFY and HASH: the lattice unit's operations, which are late beyond E although they have no effect but their reply (R315). -/
def latticeOp (op : Nat) : Bool := op == 0x0A10 || op == 0x0A11 || op == 0x0A12

/-- A keeper packet that takes effect now is late where E has passed (R35, R315). -/
def keeperLate (p : Packet) (s : State) : Bool := dueTick false p s < s.plane.tick && (!timeless p || latticeOp p.opcode)

/-- Execute a keeper packet that is due and complete it (R35). -/
def keeperExecute (o : Op) (p : Packet) (s : State) : State :=
  let e := dueTick false p s
  let s := release s p
  finishRun (executeOp o p s) p (keeperLate p s && executed o p s) (s.plane.tick - e)

/-- The keeper holds a packet. -/
def keeperHold (p : Packet) (s : State) : State :=
  if s.plane.keeper.contains p then s else s.onPlane fun q => { q with keeper := q.keeper ++ [p] }

/-- The keeper has finished its work on a packet, which waits for E or for its turn. -/
def keeperFinish (p : Packet) (s : State) : State :=
  (keeperHold p s).onPlane fun q => { q with finished := if q.finished.contains p then q.finished else q.finished ++ [p] }

/-- A keeper packet waits for E (R35): it has effects there, its answer is that of E, or it is rejected (R79). -/
def waitsForE (o : Op) (p : Packet) (s : State) : Bool := !timeless p || atE p || (checkPacket o p s).isSome

/-- The keeper handles its inputs in stamp order (R35): it has finished every packet that it holds and that comes before `p`. -/
def keeperReaches (p : Packet) (s : State) : Bool :=
  s.plane.keeper.all fun q => samePlace p q || isFinished s q || keeperBefore p q

/-- The keeper has finished its work on an admitted packet (R35): the packet joins its flight, waits for E and for its turn, or takes effect. -/
def runKeeper (o : Op) (p : Packet) (s : State) : State :=
  if replayShuts p s then refuseLive s p
  else if p.inFlight then joinFlight p s
  else if !keeperReaches p s then keeperHold p s
  else if waitsForE o p s ∧ (s.plane.tick < dueTick false p s ∨ !inTurn p s) then keeperFinish p s
  else keeperExecute o p s

/-- A keeper opcode's packet is taken: admitted if it is not yet, and run. A packet that the device does not have does nothing. -/
def keeperTake (o : Op) (p : Packet) (s : State) : State :=
  if p.opcode ≠ o.code then s
  else if isHeld s p then runKeeper o p s
  else if mayAdmit p s then runKeeper o p (admitPacket p s)
  else s

/-- An admitted packet is held: in its flight, in the dispatcher, or by the keeper. -/
def holdPacket (p : Packet) (s : State) : State :=
  if replayShuts p s then refuseLive s p
  else if p.inFlight then joinFlight p s
  else if isFast p.opcode then fastHold p s
  else keeperHold p s

/-- The reply body of a rejected flight member (Table 03.6). -/
def failReply (member : Nat) (st : Status) : Reply := [(16, 1, member), (18, 2, st.code)]

end Sys2Proof.Machine
end

