-- ==== Sys2Proof/Machine/HallOps.lean ====
section
/-! DEFINITION. Halls and power domains: switching a domain on or off, and what a hall loses when it stops (R23, R388). -/

namespace Sys2Proof.Machine

/-- The hall whose meters count port `code` (Table 16.2). -/
def meterHall (code : Nat) : Nat := if code < 8 then 5 else if code < 22 then 6 else if code < 38 then 3 else 1

/-- The counters and meters of a hall are cleared; their selectors stay (R388). -/
def clearWatchHall (s : State) (h : Nat) : State :=
  { s with watch := { s.watch with
    cnt := s.watch.cnt.filter fun e => e.1 / 16 != h
    meter := s.watch.meter.filter fun e => meterHall e.1 != h
    clearedAt := Tbl.put s.watch.clearedAt 0 h s.plane.lin
    dump := s.watch.dump.map fun d => { d with cleared := setBit d.cleared h true } } }

/-- The stamp offset of a stream, by landing and hall (Table 01.3). -/
def streamOffset (l h : Nat) : Nat := if l = 0 then offsetOf h else if l = 5 ∧ h = 0 then 4 else 0

/-- The halls that feed a landing (Table 01.2). -/
def landingInputs (l : Nat) : List Nat :=
  match l with
  | 0 => [0, 6, 7, 8]
  | 1 => [1, 2]
  | 2 => [3]
  | 3 => [3]
  | 4 => [3]
  | 5 => [0, 3, 5, 6]
  | 6 => [3, 5]
  | 7 => [1, 2, 3]
  | 8 => [1, 2, 5, 6]
  | 9 => [0, 1, 2, 5, 6, 7, 8]
  | _ => []

/-- The hall that a landing delivers to (Table 01.2). -/
def landingConsumer (l : Nat) : Nat :=
  match l with
  | 2 => 7
  | 3 => 8
  | 4 => 6
  | 5 => 1
  | 6 => 2
  | 7 => 5
  | 8 => 4
  | _ => 3

/-- The reader of a replay stands for the streams of H0, H6, H7 and H8, and R26 does not apply to it (R42, R44). -/
def readerFeeds (s : State) (h : Nat) : Bool := s.plane.replay.running && (h == 0 || 6 ≤ h)

/-- Change every landing that hall `h` feeds, at its stream. -/
def mapStreams (s : State) (h : Nat) (f : Nat → LStream → LStream) : State :=
  s.onPlane fun p => { p with
    landings := vmapIdx p.landings fun l x =>
      if (landingInputs l).contains h then { x with streams := vmod x.streams h (f l) } else x }

/-- The streams of hall `h` leave every landing (R23). -/
def leaveLandings (s : State) (h : Nat) : State := mapStreams s h fun _ x => { x with joined := false }

/-- The streams of hall `h` join every landing it feeds, with nothing to report from before this tick (R21, R23). -/
def joinLandings (s : State) (h : Nat) : State := mapStreams s h fun l x =>
  { x with joined := true, joinedAt := s.wallTick, progress := s.wallTick + streamOffset l h }

/-- Change hall `h`. -/
def State.onHall (s : State) (h : Nat) (f : HallSt → HallSt) : State :=
  s.onPlane fun p => { p with halls := vmod p.halls h f }

/-- Hall `h` stops with its domain (R23, R388). -/
def hallOff (s : State) (h : Nat) : State := clearWatchHall ((leaveLandings s h).onHall h fun _ => {}) h

/-- Hall `h` has power; its streams join under R23. -/
def hallOn (s : State) (h : Nat) : State :=
  if (vget s.plane.halls h).on then s
  else
    let s := { s with watch := { s.watch with clearedAt := Tbl.put s.watch.clearedAt 0 h s.plane.lin } }
    s.onHall h fun _ => { on := true, count := s.wallTick }

/-- The hall that a domain carries (Table 02.4); PD3 and PD8 carry none of their own. -/
def domainHall (d : Nat) : Option Nat :=
  match d with
  | 1 => some 1
  | 2 => some 2
  | 4 => some 3
  | 5 => some 4
  | 6 => some 5
  | 7 => some 6
  | _ => none

/-- Domain PD`d` is on. -/
def domainOn (s : State) (d : Nat) : Bool := s.seq.pd.testBit d

/-- Switch domain PD`d` (Table 02.4). -/
def setDomain (s : State) (d : Nat) (on : Bool) : State :=
  if domainOn s d = on then s
  else
    let s := s.onSeq fun q => { q with pd := setBit q.pd d on }
    match domainHall d with
    | some h => if on then hallOn s h else hallOff s h
    | none => s

/-- A hall's stream into the keeper landing takes items (R23, R26). -/
def feedsL5 (s : State) (h : Nat) : Bool := (vget (vget s.plane.landings 5).streams h).joined && !(vget s.plane.halls h).dropped

/-- A hall that runs feeds its streams: its domain is on and no fault has dropped it (R26). -/
def hallRuns (s : State) (h : Nat) : Bool := (vget s.plane.halls h).on && !(vget s.plane.halls h).dropped

end Sys2Proof.Machine
end

