-- ==== Sys2Proof/Machine/KeyOps.lean ====
section
/-! DEFINITION. The shared operations of the key slots (chapter 12): slots, drawing of invocation counters, and their events. -/

namespace Sys2Proof.Machine

/-- Key slot `k`: the keeper's slots 0–15 stand in its SRAM, the others in the MRAM (R309, R322). -/
def keySlot (s : State) (k : Nat) : KeySlot := if k < 16 then Tbl.get s.image.slots {} k else Tbl.get s.store.keys {} k

/-- Load a keeper slot (R322). -/
def loadSlot (s : State) (k : Nat) (x : KeySlot) : State :=
  { s with image := { s.image with slots := Tbl.put s.image.slots {} k x } }

/-- Change a key slot of the MRAM (R309). -/
def State.onKey (s : State) (k : Nat) (f : KeySlot → KeySlot) : State :=
  s.onStore fun st => { st with keys := Tbl.put st.keys {} k (f (Tbl.get st.keys {} k)) }

/-- What a draw from an invocation counter gives (R312–R314). -/
inductive Draw where
  | value (n : Nat)
  | wait
  | exhausted
  deriving DecidableEq, Repr, Inhabited

/-- The value that is never drawn (R314). -/
def counterEnd : Nat := 2 ^ 64 - 1

/-- Draw from the counter of slot `k` (R312–R314): NONCE_END where it is exhausted, NONCE_LOW once from 2^64 − 2^32; a counter
that has reached COMMIT waits for the commit. -/
def drawCounter (s : State) (k : Nat) : State × Draw :=
  let x := keySlot s k
  if counterEnd ≤ x.counter then (postEvent s (s.ev 1 0x0A04 k 0 false x.owner), .exhausted)
  else if x.commit ≤ x.counter then (s, .wait)
  else
    let low := decide (2 ^ 64 - 2 ^ 32 ≤ x.counter + 1) && !x.lowTold
    let s := s.onKey k fun y => { y with counter := y.counter + 1, lowTold := y.lowTold || low }
    let s := if low then postEvent s (s.ev 1 0x0A03 k 0 false x.owner) else s
    (s, .value x.counter)

/-- What two copies of the slots have drawn stays drawn (R313): each counter and COMMIT at the higher of the two. -/
def keepCounters (l other : Tbl KeySlot) : Tbl KeySlot :=
  other.foldl (fun t e =>
    let x := Tbl.get t {} e.1
    Tbl.put t {} e.1
      { x with counter := max x.counter e.2.counter, commit := max x.commit e.2.commit, lowTold := x.lowTold || e.2.lowTold }) l

/-- NONCE_LOW is posted of the slots whose counter a reset has moved to 2^64 − 2^32 or beyond (R313, R314). -/
def tellLow (s : State) : State :=
  s.store.keys.foldl (fun s e =>
    if 2 ^ 64 - 2 ^ 32 ≤ e.2.counter ∧ !e.2.lowTold then
      postEvent (s.onKey e.1 fun y => { y with lowTold := true }) (s.ev 1 0x0A03 e.1 0 false e.2.owner)
    else s) s

/-- Raise COMMIT of a slot by 4,096 (R313); the value that is never drawn stays above it. -/
def raiseCommit (s : State) (k : Nat) : State := s.onKey k fun x => { x with commit := min (x.commit + 4096) counterEnd }

/-- A draw of the keeper's own work: where it meets COMMIT it commits first (R313). -/
def drawCommitted (s : State) (k : Nat) : State × Draw :=
  match drawCounter s k with
  | (s, .wait) => drawCounter (raiseCommit s k) k
  | r => r

/-- The bits of USAGE (Table 12.4). -/
def KeySlot.has (x : KeySlot) (bit : Nat) : Bool := x.usage.testBit bit

end Sys2Proof.Machine
end

