-- ==== Sys2Proof/Machine/CryptoOps.lean ====
section
/-! DEFINITION. The shared operations of the cipher engine's contexts (chapter 12): descriptors and their completion, contexts, and the
key that an admitted request works with. -/

namespace Sys2Proof.Machine

/-- Change the cipher hall. -/
def State.onCipher (s : State) (f : Cipher → Cipher) : State := { s with cipher := f s.cipher }

/-- Context `k` of the crypto rings. -/
def ctxOf (s : State) (k : Nat) : CipherCtx := vget s.cipher.ctx k

/-- Change context `k`. -/
def State.onCtx (s : State) (k : Nat) (f : CipherCtx → CipherCtx) : State :=
  s.onCipher fun c => { c with ctx := vmod c.ctx k f }

/-- Blocks of 16 bytes that hold `n` bytes. -/
def blocksOf (n : Nat) : Nat := (n + 15) / 16

/-- Blocks of a MACsec frame with `n` bytes of data (R296): its AAD is the addresses and the SecTAG with SCI, 28 bytes (PRESUMED from IEEE 802.1AE, log entry
149). -/
def macsecBlocks (n : Nat) : Nat := 2 + blocksOf n + 2

/-- Bytes of a frame that MACsec protects: its tag, its EtherType and its payload. -/
def plainLength (f : EthFrame) (tagged : Bool) : Nat := f.body.length + 2 + 4 * b2n tagged

/-- Blocks of a secure CAN frame with `n` bytes of data (R250, R296): its AAD is the identifier and the payload. -/
def secureBlocks (n : Nat) : Nat := blocksOf (4 + (n - 12)) + 2

/-- Bytes padded with zeros to whole blocks (R303). -/
def padBlocks (l : List Byte) : List Byte := padTo (16 * blocksOf l.length) l

/-- Admit the one slot at HEAD of a ring that carries single-slot records (R76). -/
def admitSlot (s : State) (r : Nat) : State :=
  s.onRing r fun g =>
    let next := if g.size = 0 then 0 else (g.head + 1) % g.size
    { g.advance next with admitted := g.admitted ++ [{ slot := g.head, slots := 1, arrival := g.arrivalOf 1 }] }

/-- Bits of a descriptor from byte `b` on. -/
def dNum (d : List Byte) (b n : Nat) : Nat := leNat ((d.drop b).take n)

/-- CONT of a descriptor. -/
def dCont (d : List Byte) : Bool := (dNum d 2 1).testBit 0

/-- IV_MODE of a descriptor. -/
def dSupplied (d : List Byte) : Bool := (dNum d 2 1).testBit 1

/-- OP. -/
def dOp (d : List Byte) : Nat := dNum d 0 2

/-- TAG_LEN. -/
def dTagLen (d : List Byte) : Nat := dNum d 3 1

/-- KEY_SLOT. -/
def dKey (d : List Byte) : Nat := dNum d 8 1

/-- EXP_GEN. -/
def dExpGen (d : List Byte) : Nat := dNum d 12 4

/-- AAD_ADDR. -/
def dAad (d : List Byte) : Nat := dNum d 28 4

/-- AAD_LEN. -/
def dAadLen (d : List Byte) : Nat := bitsOf (dNum d 32 4) 0 17

/-- DATA_ADDR. -/
def dData (d : List Byte) : Nat := dNum d 36 4

/-- DATA_LEN. -/
def dDataLen (d : List Byte) : Nat := bitsOf (dNum d 40 4) 0 17

/-- OUT_ADDR. -/
def dOut (d : List Byte) : Nat := dNum d 44 4

/-- TAG_ADDR. -/
def dTag (d : List Byte) : Nat := dNum d 48 4

/-- GMAC_GEN or GMAC_CHECK. -/
def dGmac (d : List Byte) : Bool := dOp d == 3 || dOp d == 4

/-- Blocks that a segment costs (R296), and two more for a message's last. -/
def segmentBlocks (d : List Byte) : Nat := blocksOf (dAadLen d) + blocksOf (dDataLen d) + (if dCont d then 0 else 2)

/-- Write a buffer of whole blocks, with 0 past its length (R303). -/
def writeBlocks (s : State) (addr : Nat) (l : List Byte) : State := memOut s addr (padBlocks l)

/-- Complete the descriptor in a slot (Table 12.3), with the lengths of what it has put out in the result stream (R306): STATUS, TRUST and DONE, the IV used, the generation and the stamp; reserved bits are 0 (R11). -/
def cryptoDone (s : State) (r slot : Nat) (d : List Byte) (st : Nat) (trust : Bool) (iv : List Byte) (gen : Nat) : State :=
  let g := s.ring r
  let b := leBytes 2 st ++ leBytes 1 (dNum d 2 1 % 4 + 64 * b2n trust + 128) ++ (d.drop 3).take 6 ++ leBytes 3 0 ++ (d.drop 12).take 4 ++
    padTo 12 iv ++ (d.drop 28).take 4 ++ leBytes 4 (dAadLen d) ++ (d.drop 36).take 4 ++ leBytes 4 (dDataLen d) ++ (d.drop 44).take 8 ++ leBytes 4 gen ++ leBytes 8 s.stamp.word
  let s := mirrorReply s r slot [(0, padTo 64 b)]
  let s := match g.replyAddr slot none with
    | some a => memWriteN s a (padTo 64 b)
    | none => s
  let s := s.onRing r fun g => Ring.countIrq (g.complete slot none)
  let keyed := (if dOp d = 1 ∨ dOp d = 2 then dDataLen d else 0) + (if dOp d = 1 ∨ dOp d = 3 then dTagLen d else 0)
  s.onPlane fun p => { p with
    results := .reply r slot st 0 1 :: (if keyed = 0 ∨ (st ≠ Status.ok.code ∧ st ≠ Status.authFail.code) then [] else [.keyed r slot 0 keyed]) ++ p.results }

/-! The engine (R299). -/

/-- The blocks of the request that a context holds: the segment of a crypto ring, the MACsec frame at the head of an egress queue of its group or in the
hold, the frame of a secure CAN stream that waits for its verdict or its tag; the keeper's own operations are whole (Table 12.1). -/
def contextWork (s : State) (c : Nat) : Nat :=
  if c < 16 then
    let x := vget s.cipher.ctx c
    match x.seg with
    | some g => if x.busy && !x.abort then segmentBlocks g.bytes else 0
    | none => 0
  else if c = 17 ∨ c = 19 then
    match s.cipher.hold.find? fun h => h.ctx == c with
    | some h => (h.left + 63) / 64
    | none => 0
  else if c = 16 ∨ c = 18 then
    let ports := if c = 16 then [0, 2, 3] else [1, 4, 5]
    match ports.findSome? fun n =>
      if s.store.eth.sas.any fun a => a.port == n && !a.rx && a.current && a.stopped == 0 then (vget s.eth.port n).queue.head? else none with
    | some q => macsecBlocks (plainLength q.frame q.tagged)
    | none => 0
  else if c < 28 then
    match s.bus.can.toList.findSome? fun x => x.verdicts.find? fun v => v.stream == c - 20 with
    | some v => secureBlocks v.frame.data.length
    | none =>
      match s.bus.can.toList.findSome? fun x =>
        (x.fifo ++ x.slot0.toList ++ x.slot1.toList).find? fun f => f.secure && !f.tagReady && f.stream == c - 20 with
      | some f => secureBlocks f.frame.data.length
      | none => 0
  else 0

/-- What the engine has done: the context it visits next, the blocks computed of each context's request, the contexts whose slices ended early, and the
free values it has taken. -/
structure EngineRun where
  turn : Nat
  computed : List Nat
  cuts : List Nat
  free : Nat

/-- The engine visits a context of whose input `ready` blocks arrive in time (R299): one with work receives a slice of up to 32 blocks, which ends early with its
request or where the next block has not arrived; one with no block ready is passed over. -/
def EngineRun.visit (work : List Nat) (ready : Nat) (e : EngineRun) (c : Nat) : EngineRun :=
  let w := work.getD c 0
  let d := e.computed.getD c 0
  let n := min (min 32 ready) (w - d)
  if n = 0 then e
  else { e with turn := (c + 1) % 32, computed := e.computed.set c (d + n), cuts := if n < 32 then c :: e.cuts else e.cuts }

/-- The blocks of context `c` that arrive from memory in time for its slice: a free value, which for the context `k` that the engine works for is at least one
(DESIGN CHOICE, log entry 148). -/
def EngineRun.ready (e : EngineRun) (k c : Nat) : Nat := max (if c = k then 1 else 0) ((Config.freeValue e.free).toNat % 33)

/-- One round: the contexts in ascending index from the one in turn, with a wrap from 31 to 0, until the request in context `k` is computed (R299). -/
def EngineRun.round (work : List Nat) (k : Nat) (e : EngineRun) : EngineRun :=
  ((List.range 32).map fun i => (e.turn + i) % 32).foldl (fun e c =>
    if work.getD k 0 ≤ e.computed.getD k 0 then e else { e.visit work (e.ready k c) c with free := e.free + 1 }) e

/-- Rounds until the request in context `k` is computed: each gives it one slice. -/
def EngineRun.rounds (work : List Nat) (k : Nat) : Nat → EngineRun → EngineRun
  | 0, e => e
  | n + 1, e => EngineRun.rounds work k n (e.round work k)

/-- The first `n` data blocks of the segment in context `k` are computed, and written as they are (R305): the ciphertext of the message grows with them. -/
def writeData (s : State) (k n : Nat) : State :=
  let x := ctxOf s k
  match x.seg with
  | none => s
  | some g =>
    let d := g.bytes
    let n := min n (blocksOf (dDataLen d))
    if (x.op ≠ 1 ∧ x.op ≠ 2) ∨ n ≤ g.done then s
    else
      let data := memReadN s (dData d + 16 * g.done) (min (16 * n) (dDataLen d) - 16 * g.done)
      let out := Config.gcmCrypt x.key x.iv x.cipher.length data
      (writeBlocks s (dOut d + 16 * g.done) out).onCtx k fun x => { x with
        cipher := x.cipher ++ (if x.op = 1 then out else data), seg := some { g with done := n } }

/-- The engine computes the request of `total` blocks in context `k` to its end, and meanwhile gives every other context with work its slices (R299), whose
output is written block by block. The contexts' blocks and the slices that end early are counted (R385), and the context stands ready for its next request. -/
def engineRun (s : State) (k total : Nat) : State :=
  let work := ((List.range 32).map (contextWork s)).set k total
  let old := s.cipher.computed.toList
  let e := EngineRun.rounds work k total { turn := s.cipher.turn, computed := old, cuts := [], free := s.free }
  let s := { s with free := s.free + 32 * total }
  let s := (List.range 32).foldl (fun s c => bump (bump s 7 c (e.computed.getD c 0 - old.getD c 0)) 8 c (e.cuts.count c)) s
  let s := (List.range 16).foldl (fun s c =>
    match (ctxOf s c).seg with
    | some g => if c = k then s else writeData s c (e.computed.getD c 0 - blocksOf (dAadLen g.bytes))
    | none => s) s
  s.onCipher fun x => { x with turn := e.turn, computed := vtab 32 fun c => if c = k then 0 else e.computed.getD c 0 }

/-- Every context of the crypto rings is idle. -/
def ctxIdle (s : State) : Bool := (List.range 16).all fun k => !(ctxOf s k).busy

/-- The 10 ms of R300 run from here where no context has work and nothing keeps PD5 on. -/
def noteIdle (s : State) : State := if ctxIdle s then s.onCipher fun c => { c with idleSince := s.now } else s

/-- A context is released and its key copy zeroed (R298); `rest` is the status of the segments of its message still to come. -/
def releaseCtx (s : State) (k : Nat) (rest : Option Nat) : State :=
  noteIdle ((s.onCtx k fun _ => { rest := rest }).onCipher fun c => { c with computed := vmod c.computed k fun _ => 0 })

/-- The IV that a segment's reply repeats (Table 12.3): that of a message whose IV is drawn, in its first segment. -/
def usedIv (x : CipherCtx) (g : CryptoSeg) : List Byte := if g.first && (x.op == 1 || x.op == 3) then x.iv else []

/-- The request in a context ends with a status and without trust (R297, R311): its segment completes, later segments of its message
take the same status, and the context is zeroed. -/
def failCtx (s : State) (k : Nat) (st : Status) : State :=
  let x := ctxOf s k
  if !x.busy then s
  else
    match x.seg with
    | some g =>
      let s := cryptoDone s (32 + k) g.slot g.bytes st.code false (usedIv x g) x.gen
      releaseCtx s k (if dCont g.bytes then some st.code else none)
    | none => releaseCtx s k (some st.code)

/-- What a keeper opcode admitted at a stamp works with (R310, R311): the slot as it stood then, or none where a change in abort mode has
stopped it since. -/
def keyAt (s : State) (k : Nat) (t : Stamp) : Option KeyPast :=
  let x := keySlot s k
  let later := x.past.filter fun e => t.before e.until_
  if later.any (·.abort) then none
  else
    match later.getLast? with
    | some e => some e
    | none => some { alg := x.alg, usage := x.usage, generation := x.generation, material := x.material }

/-- A usage bit of what a slot held (Table 12.4). -/
def KeyPast.has (x : KeyPast) (bit : Nat) : Bool := x.usage.testBit bit

/-- The key for a keeper opcode (R310, R311): revoked, or its EXP_GEN does not name the generation at admission. -/
def keyFor (s : State) (p : Packet) (k expGen : Nat) : Except Status KeyPast :=
  match keyAt s k p.arrival with
  | none => .error .keyRevoked
  | some x => if expGen = 0 ∨ expGen = x.generation then .ok x else .error .keyChanged

/-- The usage a keeper opcode needs of a slot at its admission. -/
def usableBy (s : State) (p : Packet) (k usage : Nat) : Bool :=
  match keyAt s k p.arrival with
  | none => true
  | some x => x.alg != 0 && x.has usage

/-- A buffer of a packet: a multiple of 16, inside the issuer's memory, padded to whole blocks (R72, R303). -/
def bufferReaches (s : State) (c addr len : Nat) : Bool := reaches s c addr (16 * blocksOf len)

/-- Byte `i` of a bank, header included (R324). -/
def Bank13.byteAt (b : Bank13) (i : Nat) : Byte :=
  if i < 4096 then b.header.getD i 0
  else (Tbl.get b.chunks [] ((i - 4096) / 65536)).getD ((i - 4096) % 65536) 0

/-- The code of the application bank in use, if there is one (Table 13.7). -/
def activeApp (s : State) : Option Nat :=
  [2, 3].find? fun b => (vget s.store.image.bank b).state == 3 || (vget s.store.image.bank b).state == 4

/-- The bytes from `addr` on lie in the MRAM execution window (R324). -/
def inWindow (addr len : Nat) : Bool := 0x10000000 ≤ addr && addr + len ≤ 0x11C00000

/-- The application bank that the execution window maps for an issuer (R324): the active one, and for pair 1 in a trial, whose compartment c is named 16 + c, the
inactive one, which is STAGED (R339). -/
def windowBank (s : State) (c : Nat) : Option Nat := (activeApp s).map fun b => if s.image.trial.state = 2 ∧ 16 ≤ c then 5 - b else b

/-- Read bytes of an issuer's memory or of the execution window (HASH). -/
def readSource (s : State) (c addr len : Nat) : List Byte :=
  if inWindow addr len then
    match windowBank s c with
    | some b => (List.range len).map fun i => (vget s.store.image.bank b).byteAt (addr - 0x10000000 + i)
    | none => List.replicate len 0
  else memReadN s addr len

/-- Random bytes of the keeper that reach the plane (R43, Table 01.9), for a use: captured as a DRAW record; in a replay the payload of the
next DRAW record takes their place, and a draw that does not find its record is a mismatch. -/
def drawPlane (s : State) (n use : Nat) : List Byte × State :=
  let (v, s) :=
    match s.plane.replay.running, s.plane.replay.draws with
    | true, r :: rest =>
      if r.word = use ∧ r.value = n then
        (padTo n r.payload, s.onPlane fun q => { q with replay := { q.replay with draws := rest } })
      else
        let (v, s) := s.drawBytes n
        (v, s.onPlane fun q => { q with replay := { q.replay with
          firstMismatch := if q.replay.firstMismatch = 0 then q.tick else q.replay.firstMismatch } })
    | true, [] =>
      let (v, s) := s.drawBytes n
      (v, s.onPlane fun q => { q with replay := { q.replay with
        firstMismatch := if q.replay.firstMismatch = 0 then q.tick else q.replay.firstMismatch } })
    | false, _ => s.drawBytes n
  (v, capItem s { stamp := s.stamp, cls := 5, hall := 1, value := n, word := use, payload := v })

/-- The IV that a slot's counter value makes (R312). -/
def drawnIv (fixed n : Nat) : List Byte := beBytes 4 fixed ++ beBytes 8 n

/-- Material of a slot. -/
def slotMaterial (s : State) (k : Nat) : List Byte := (keySlot s k).material

/-- The public part of a slot (Table 12.11): of ALG 4 and 6 it belongs to the material, of ALG 5 it is the material. -/
def publicPartOf (alg : Nat) (material : List Byte) : List Byte :=
  if alg = 4 then padTo 1952 (Config.publicPart 4 material)
  else if alg = 5 then padTo 1952 material
  else if alg = 6 then padTo 1184 (Config.publicPart 6 material)
  else []

end Sys2Proof.Machine
end

