-- ==== Sys2Proof/Machine/EthOps.lean ====
section
/-! DEFINITION. The shared operations of the Ethernet switch (chapter 10): counters, the frame buffer, queues, packet records, links and
secure associations. -/

namespace Sys2Proof.Machine

/-- Change the packet hall. -/
def State.onEth (s : State) (f : Eth → Eth) : State := { s with eth := f s.eth }

/-- Port `n`. -/
def portOf (s : State) (n : Nat) : EthPort := vget s.eth.port n

/-- Change port `n`. -/
def State.onPort (s : State) (n : Nat) (f : EthPort → EthPort) : State :=
  s.onEth fun e => { e with port := vmod e.port n f }

/-- Change the counters of port `n`. -/
def State.onCnt (s : State) (n : Nat) (f : EthCounters → EthCounters) : State :=
  s.onPort n fun p => { p with cnt := f p.cnt }

/-- Settings of port `n`. -/
def portCfg (s : State) (n : Nat) : EthPortCfg := vget s.store.eth.port n

/-- The packet hall's stream into a landing takes items: the tick hall runs, the stream has joined, and no fault has dropped the hall (R23, R26). -/
def feedsFrom5 (s : State) (l : Nat) : Bool :=
  s.plane.running && (vget (vget s.plane.landings l).streams 5).joined && !(vget s.plane.halls 5).dropped

/-- Post an event of group 0x08 (R277): observed by the packet hall now, so stamped with the tick that it observes (R21); before its stream joins,
and after a fault, it sends none (R23, R26). -/
def ethEvent (s : State) (kind address value : Nat) : State :=
  if feedsFrom5 s 6 then postEvent s { s.ev 5 kind address value with stamp := s.wallStamp, idx := address } else s

/-- A frame is dropped at a port, for a cause that `f` counts. -/
def portDrop (s : State) (n : Nat) (f : EthCounters → EthCounters) : State := bump (s.onCnt n f) 0x0A n 1

/-- A 64-bit saturating count. -/
def sat64 (n : Nat) : Nat := min n 0xFFFFFFFFFFFFFFFF

/-- Bytes of a frame from its destination address to its FCS, with its tag and its MACsec fields (R389). -/
def frameBytes (f : EthFrame) (tagged secured : Bool) : Nat :=
  18 + f.body.length + 4 * b2n tagged + 32 * b2n secured

/-- Bytes of a frame as it stands on the wire. -/
def wireBytes (f : EthFrame) : Nat :=
  match f.sec with
  | some t => 48 + t.data.length
  | none => frameBytes f f.tagged false

/-- A frame has entered on a port: RX_FRAMES, the watch room and the meter. -/
def countRx (s : State) (n : Nat) (bytes : Nat) : State :=
  let s := bump (s.onCnt n fun c => { c with rxFrames := sat64 (c.rxFrames + 1) }) 9 n 1
  if n < 8 then meterAdd s n (8 * bytes) 0 else s

/-- A frame has left on a port. -/
def countTx (s : State) (n : Nat) (bytes : Nat) : State :=
  let s := bump (s.onCnt n fun c => { c with txFrames := sat64 (c.txFrames + 1) }) 9 (n + 16) 1
  if n < 8 then meterAdd s n 0 (8 * bytes) else s

/-! The frame buffer (R264). -/

/-- RESERVE of a queue; the internal ports have the default. -/
def reserveOf (s : State) (port pcp : Nat) : Nat := if port < 8 then vget (portCfg s port).reserve pcp else 16

/-- Cells that a queue holds. -/
def queueCells (s : State) (port pcp : Nat) : Nat :=
  (((portOf s port).queue.filter fun q => q.pcp == pcp).map Queued.cells).sum

/-- The cells reserved for all queues. -/
def reserveTotal (s : State) : Nat :=
  ((List.range 10).map fun n => ((List.range 8).map fun k => reserveOf s n k).sum).sum

/-- Shared cells in use: what each queue holds beyond its reserve. -/
def sharedUsed (s : State) : Nat :=
  ((List.range 10).map fun n => ((List.range 8).map fun k => queueCells s n k - reserveOf s n k).sum).sum

/-- POOL_FREE: shared cells free (Table 10.7). -/
def poolFree (s : State) : Nat := 16384 - reserveTotal s - sharedUsed s

/-- A queue can take `n` more cells: its reserve first, then the pool while the pool holds more than POOL_FLOOR × 256 cells (R264). -/
def cellsFit (s : State) (port pcp n : Nat) : Bool :=
  let extra := queueCells s port pcp + n - max (queueCells s port pcp) (reserveOf s port pcp)
  extra == 0 || (7 - pcp) * 256 + extra ≤ poolFree s

/-- Place a frame in an egress queue; the answer says whether a cell was free (R264). A port that is not up takes no frame. -/
def enqueue (s : State) (port : Nat) (q : Queued) : State × Bool :=
  if cellsFit s port q.pcp q.cells then (s.onPort port fun p => { p with queue := p.queue ++ [q] }, true)
  else (portDrop s port fun c => { c with qDrop := vmod c.qDrop q.pcp fun n => satAdd32 n 1 }, false)

/-- Cells of a frame. -/
def frameCells (f : EthFrame) (tagged : Bool) : Nat := (frameBytes f tagged false + 255) / 256

/-! Packet records (Table 10.2). -/

/-- A 16-byte descriptor of a packet record. -/
def packetDesc (len port flags vid status : Nat) (stamp : Nat) : List Byte :=
  leBytes 2 len ++ leBytes 1 port ++ leBytes 1 flags ++ leBytes 2 vid ++ leBytes 2 status ++ leBytes 8 stamp

/-- The bytes of a frame as a packet record holds it: no tag and no FCS. -/
def ethBytes (f : EthFrame) : List Byte := beBytes 6 f.dst ++ beBytes 6 f.src ++ beBytes 2 f.etherType ++ f.body

/-- A record is written to a packet ring when L6 releases its stamp (R20, R265). -/
def packetRecord (s : State) (t : Stamp) (e : Nat × List Byte) : State :=
  deviceRecord s e.1 (fun n => packetDesc 0 0 128 0 (sat16 n) t.word) (fun _ => packetDesc 0 0 32 0 0 t.word) e.2

/-- A frame leaves for APP (R265), if LEN holds its length: its record for ring 48 + RXMAP[PCP] is complete and enters the application landing, and its capture
record. -/
def deliverApp (s : State) (q : Queued) : State :=
  let bytes := ethBytes q.frame
  let r := 48 + bitsOf s.store.eth.sw.rxmap (2 * q.pcp) 2
  let t := s.wallStamp.word
  let whole := padSlots (packetDesc bytes.length q.ingress (q.pcp + 8 * b2n q.frame.tagged + 16 * b2n q.secure) q.vid 0 t ++ bytes)
  if 4080 < bytes.length then portDrop s 8 fun c => { c with rxDrop := satAdd32 c.rxDrop 1 }
  else
    let s := capItem s { stamp := s.wallStamp, cls := 7, hall := 5, value := r - 48, word := bytes.length, payload := bytes } (r - 48)
    if feedsFrom5 s 6 then landPut s 6 { stamp := s.wallStamp, hall := 5, idx := r - 48, recs := [(r, whole)] } else s

/-! Links. -/

/-- Set the link state of a port and post ETH_LINK (Table 10.3). -/
def setLink (s : State) (n st : Nat) : State :=
  if (portOf s n).link = st then s
  else ethEvent (s.onPort n fun p => { p with link := st }) 0x0801 n ((if st = 3 then 0 else st) + 16 * (portCfg s n).speed)

/-- The frames in a port's queues are discarded and counted (R261). -/
def dropQueue (s : State) (n : Nat) : State :=
  let k := (portOf s n).queue.length
  if k = 0 then s
  else bump (s.onPort n fun p => { p with queue := [], cnt := { p.cnt with powerDrop := satAdd32 p.cnt.powerDrop k } }) 0x0A n k

/-- A port is powered down or disabled. -/
def portOff (s : State) (n : Nat) : State := setLink (dropQueue s n) n 3

/-- A port starts link-up, where it is enabled and PD6 is on (R259). -/
def startPort (s : State) (n : Nat) : State :=
  if (portCfg s n).enable ∧ domainOn s 6 then setLink (s.onPort n fun p => { p with upFrom := s.now, tc10 := 0 }) n 2 else s

/-- PD6 goes off: every port goes down at that tick, the frames held in the frame buffer are discarded and counted (R261), and what the hall holds beside is gone. -/
def ethPowerOff (s : State) : State :=
  if domainOn s 6 then
    let s := dropQueue (dropQueue ((List.range 8).foldl portOff s) 8) 9
    ((setDomain s 6 false).onEth fun e => { e with cmdIn := [], learned := [] }).onCipher fun c => { c with hold := [] }
  else s

/-- PD6 comes on: the enabled ports start link-up, and TC10 ports are woken (R259, R276). -/
def ethPowerOn (s : State) : State :=
  if domainOn s 6 then s else (List.range 8).foldl startPort (setDomain s 6 true)

/-- The device sends a TC10 wake-up request on every port of a set with TC10_EN = 1 (R276). -/
def wakePartners (s : State) (ports : List Nat) : State :=
  ports.foldl (fun s n => if (portCfg s n).tc10En then s.onPort n fun p => { p with wakeTx := p.wakeTx + 1 } else s) s

/-! Secure associations (R267–R272). -/

/-- Change the SAs. -/
def State.onSas (s : State) (f : List Sa → List Sa) : State :=
  s.onStore fun st => { st with eth := { st.eth with sas := f st.eth.sas } }

/-- Two SAs have the same place: port, direction, channel and AN. -/
def Sa.sameAs (a b : Sa) : Bool := a.port == b.port && a.rx == b.rx && (!a.rx || a.sci == b.sci) && a.an == b.an

/-- Replace an SA. -/
def putSa (s : State) (a : Sa) : State := s.onSas fun l => l.map fun x => if x.sameAs a then a else x

/-- The ADDRESS of ETH_SA_STOP and ETH_SA_PN (Table 10.3). -/
def Sa.address (a : Sa) : Nat := a.port + 16 * b2n a.rx + 32 * a.an

/-- An SA stops with a cause (R270, R271). -/
def stopSa (s : State) (a : Sa) (cause : Nat) : State :=
  ethEvent (putSa s { a with stopped := cause }) 0x0802 a.address cause

/-- The last value of a PN; it is never used (R271). -/
def pnEnd : Nat := 2 ^ 64 - 1

/-- The current transmit SA of a port. -/
def currentSa (s : State) (port : Nat) : Option Sa :=
  s.store.eth.sas.find? fun a => a.port == port && !a.rx && a.current

/-- A receive SA of a port by its channel and AN. -/
def receiveSa (s : State) (port sci an : Nat) : Option Sa :=
  s.store.eth.sas.find? fun a => a.port == port && a.rx && a.sci == sci && a.an == an

/-- The MACsec context that serves a port (R269, Table 12.1). -/
def macsecCtx (port : Nat) (rx : Bool) : Nat :=
  (if port = 0 ∨ port = 2 ∨ port = 3 then 16 else 18) + b2n rx

/-- A transmit SA gives its next PN; the next block of 2^20 is committed before it is used, and ETH_SA_PN is posted once past 2^63 (R271). -/
def usePn (s : State) (a : Sa) : State :=
  let n := a.pn + 1
  let warn := decide (2 ^ 63 < n) && !a.warned
  let s := putSa s { a with pn := n, warned := a.warned || warn, commit := if a.commit ≤ n then min (n + 2 ^ 20) pnEnd else a.commit }
  if warn then ethEvent s 0x0803 a.address 0 else s

/-- The SAs that use a key slot stop when the slot changes in abort mode (R270). -/
def stopSlotSas (s : State) (slot : Nat) : State :=
  (s.store.eth.sas.filter fun a => a.keySlot == slot && a.stopped == 0).foldl (fun s a => stopSa s a 2) s

/-- What two copies of the SAs have used stays used (R271): each PN at the higher of the two. -/
def keepPns (l other : List Sa) : List Sa :=
  l.map fun a =>
    match other.find? (a.sameAs ·) with
    | some b => { a with pn := max a.pn b.pn, commit := max a.commit b.commit, warned := a.warned || b.warned }
    | none => a

/-- After a logic or cold reset a transmit SA resumes at its next block (R271). -/
def resumeSas (s : State) : State :=
  s.onSas fun l => l.map fun a => if a.rx then a else { a with pn := a.commit, commit := min (a.commit + 2 ^ 20) pnEnd }

/-! GCM-AES-256-XPN (R267): the SecTAG, the recovery of the PN and the IV follow IEEE 802.1AE (PRESUMED, log entry 182). -/

/-- The SecTAG of a frame, with its EtherType and SCI: TCI with AN, SL, the low 32 bits of the PN, SCI. -/
def secTagBytes (t : SecTag) : List Byte :=
  beBytes 2 0x88E5 ++ leBytes 1 (0x20 + 12 * b2n t.encrypted + t.an % 4) ++ leBytes 1 (if t.data.length < 48 then t.data.length else 0) ++
    beBytes 4 (t.pn % 2 ^ 32) ++ beBytes 8 t.sci

/-- What the ICV covers ahead of the ciphertext: the addresses and the SecTAG, and data that is not encrypted. -/
def secAad (dst src : Nat) (t : SecTag) : List Byte :=
  beBytes 6 dst ++ beBytes 6 src ++ secTagBytes t ++ (if t.encrypted then [] else t.data)

/-- The IV of an SA for a PN: the salt, with SSCI and PN added without carry. -/
def Sa.iv (a : Sa) (pn : Nat) : List Byte := List.zipWith (· ^^^ ·) (padTo 12 a.salt) (beBytes 4 a.ssci ++ beBytes 8 pn)

/-- The PN of a received frame: its low 32 bits, and the high ones of the next PN expected or, past a wrap, one more. -/
def recoverPn (a : Sa) (low : Nat) : Nat :=
  let wrapped := bitAt a.pn 31 && !bitAt low 31
  (a.pn / 2 ^ 32 + b2n wrapped) % 2 ^ 32 * 2 ^ 32 + low % 2 ^ 32

/-- The ICV of a frame under an SA and a PN. -/
def Sa.icv (a : Sa) (pn dst src : Nat) (t : SecTag) : List Byte :=
  Config.gcmTag a.key (a.iv pn) (secAad dst src t) (if t.encrypted then t.data else [])

/-- The protected bytes of a frame: tag, EtherType and payload. -/
def plainBytes (f : EthFrame) (tagged : Bool) (pcp vid : Nat) : List Byte :=
  (if tagged then beBytes 2 0x8100 ++ beBytes 2 (pcp % 8 * 8192 + vid % 4096) else []) ++ beBytes 2 f.etherType ++ f.body

/-- A frame is protected by an SA under its next PN. -/
def protect (a : Sa) (f : EthFrame) (tagged : Bool) (pcp vid : Nat) : EthFrame :=
  let t : SecTag :=
    { sci := a.sci, an := a.an, pn := a.pn % 2 ^ 32, encrypted := true
      data := Config.gcmCrypt a.key (a.iv a.pn) 0 (plainBytes f tagged pcp vid) }
  { dst := f.dst, src := f.src, sec := some { t with icv := a.icv a.pn f.dst f.src t } }

/-- The frame that stands in protected bytes; it keeps the SecTAG that it came with. -/
def unwrapped (f : EthFrame) (b : List Byte) : EthFrame :=
  let tagged := beNat (b.take 2) == 0x8100
  let tci := if tagged then beNat ((b.drop 2).take 2) else 0
  let b := if tagged then b.drop 4 else b
  { f with tagged := tagged, vid := tci % 4096, pcp := tci / 8192, etherType := beNat (b.take 2), body := b.drop 2 }

/-- The frame that an SA makes of a protected one. -/
def Sa.plain (a : Sa) (pn : Nat) (f : EthFrame) (t : SecTag) : EthFrame :=
  unwrapped f (if t.encrypted then Config.gcmCrypt a.key (a.iv pn) 0 t.data else t.data)

/-- A protected frame that no SA opens goes on as it came (DESIGN CHOICE, log entry 183). -/
def unopened (f : EthFrame) (t : SecTag) : EthFrame :=
  { f with tagged := false, vid := 0, pcp := 0, etherType := 0x88E5, body := (secTagBytes t).drop 2 ++ t.data ++ t.icv, sec := none }

/-! The ingress hold (R269). -/

/-- Cells of the hold in use. -/
def holdCells (s : State) : Nat := (s.cipher.hold.map HoldItem.cells).sum

/-- A protected frame waits in the hold until its context has computed it; one that finds no room is dropped (R269). -/
def holdFrame (s : State) (n : Nat) (f : EthFrame) (t : SecTag) : State :=
  let cells := (wireBytes f + 255) / 256
  if 1024 < holdCells s + cells then portDrop s n fun c => { c with hold := satAdd32 c.hold 1 }
  else s.onCipher fun c => { c with
    hold := c.hold ++ [{ ctx := macsecCtx n true, cells := cells, left := 64 * macsecBlocks t.data.length, port := n, frame := f }] }

/-! Switching. -/

/-- The VLAN entry of a VID. -/
def vlanOf (s : State) (vid : Nat) : Option Vlan :=
  (s.store.eth.vlan.find? fun e => e.2.vid == vid && vid != 0).map (·.2)

/-- A group address: broadcast or multicast. -/
def isGroupMac (mac : Nat) : Bool := mac.testBit 40

/-- The egress ports of a frame (R262, R265): its learned one, or the members of its VLAN, of which APP takes group addresses alone; a frame for the device MAC
goes to APP. -/
def egressPorts (s : State) (ingress : Nat) (f : EthFrame) (v : Vlan) : List Nat :=
  let special := f.etherType == 0x88B5 || f.etherType == 0x88F7
  if !isGroupMac f.dst && f.dst == s.store.eth.sw.mac then (if special || ingress == 8 then [] else [8])
  else
    let known := s.eth.learned.find? fun l => l.mac == f.dst && l.vid == v.vid
    let flood := (bitList 8 v.member ++ if isGroupMac f.dst && !special then [8] else []) ++ [9]
    let out := match known with
      | some l => if isGroupMac f.dst then flood else if l.port < 8 then [l.port] else []
      | none => flood
    out.filter fun n => n != ingress && v.member.testBit n

/-- Learn a source address (R262): the table holds 4,096 entries. -/
def learn (s : State) (mac vid port : Nat) : State :=
  if isGroupMac mac then s
  else s.onEth fun e =>
    let others := e.learned.filter fun l => !(l.mac == mac && l.vid == vid)
    if others.length < 4096 then { e with learned := others ++ [{ mac := mac, vid := vid, port := port, at_ := s.now }] } else e

/-- The ports of a list that frames may be forwarded to: the internal ones, and those that are up. -/
def portsUp (s : State) (ports : List Nat) : List Nat := ports.filter fun n => 8 ≤ n || (portOf s n).link == 1

/-- A frame as it stands in the queue of a port of its VLAN: tagged where the port is not in the untag mask. -/
def queuedFor (q : Queued) (v : Vlan) (n : Nat) : Queued :=
  { q with vid := v.vid, tagged := !v.untag.testBit n, cells := frameCells q.frame (!v.untag.testBit n) }

/-- Place a frame in the queue of each of some ports; the answer counts the copies placed and those dropped. -/
def forward (s : State) (q : Queued) (v : Vlan) (ports : List Nat) : State × Nat × Nat :=
  ports.foldl (fun a n =>
    let (s, ok) := enqueue a.1 n (queuedFor q v n)
    (s, a.2.1 + b2n ok, a.2.2 + b2n (!ok))) (s, 0, 0)

end Sys2Proof.Machine
end

