-- ==== Sys2Proof/Machine/Crc.lean ====
section
/-! DEFINITION. The CRCs that the manual fixes: CRC-16 (R93) and the CRC-8 of an Ivgal header (R192). -/

namespace Sys2Proof

/-- One bit of a CRC of `w` bits without reflection. -/
def crcBit (w poly crc : Nat) (b : Bool) : Nat :=
  let top := crc.testBit (w - 1)
  let n := crc * 2 % 2 ^ w
  if top != b then n ^^^ poly else n

/-- One byte of a CRC, most significant bit first. -/
def crcByte (w poly crc : Nat) (x : Byte) : Nat :=
  [7, 6, 5, 4, 3, 2, 1, 0].foldl (fun c k => crcBit w poly c (x.toNat.testBit k)) crc

/-- CRC-16 with polynomial 0x1021, initial value 0xFFFF, no reflection and no final XOR (R93). -/
def crc16 (l : List Byte) : Nat := l.foldl (crcByte 16 0x1021) 0xFFFF

/-- CRC-8 with polynomial 0x2F, initial value 0xFF, no reflection and final XOR 0xFF (R192). -/
def crc8 (l : List Byte) : Nat := l.foldl (crcByte 8 0x2F) 0xFF ^^^ 0xFF

/-- The number of ones in the low `w` bits. -/
def ones (w n : Nat) : Nat := ((List.range w).filter fun k => n.testBit k).length

end Sys2Proof
end

