-- ==== Sys2Proof/Machine/Flags.lean ====
section
/-! DEFINITION. Flags and derived bits: the conditions of an output (holds, locks, ACTIVE and LATCHED), FAULT_SUMMARY, the
status word of a ring, and the IRQ_OUT land. -/

namespace Sys2Proof.Machine

/-- The cause codes of Table 05.3. -/
inductive Cause where
  | supply
  | overvolt
  | shed
  | clamp
  | wire
  | thermal
  | short
  | open_
  | backfeed
  | reverse
  | inrushFail
  | thermWarn
  deriving DecidableEq, Repr, Inhabited

/-- The code of a cause (Table 05.3; code 12 is laid down in chapter 07 or 08). -/
def Cause.code : Cause → Nat
  | .supply => 1
  | .overvolt => 2
  | .shed => 3
  | .clamp => 4
  | .wire => 5
  | .thermal => 6
  | .short => 7
  | .open_ => 8
  | .backfeed => 9
  | .reverse => 10
  | .inrushFail => 11
  | .thermWarn => 12

/-- A cause becomes active (R124): its ACTIVE and LATCHED bits. -/
def Cond.report (c : Cond) (cause : Nat) : Cond :=
  { c with active := setBit c.active cause true, latched := setBit c.latched cause true }

/-- A cause ends (R124). -/
def Cond.clear (c : Cond) (cause : Nat) : Cond := { c with active := setBit c.active cause false }

/-- A cause holds the output off; it waits for a command when the hold ends without a return (R125). -/
def Cond.hold (c : Cond) (cause : Nat) : Cond :=
  { c.report cause with holds := setBit c.holds cause true, waiting := true }

/-- A hold ends. -/
def Cond.endHold (c : Cond) (cause : Nat) : Cond := { c.clear cause with holds := setBit c.holds cause false }

/-- A cause locks the output. -/
def Cond.lock (c : Cond) (cause : Nat) : Cond :=
  { c.report cause with locks := setBit c.locks cause true, waiting := true }

/-- A lock ends. -/
def Cond.unlock (c : Cond) (cause : Nat) : Cond := { c.clear cause with locks := setBit c.locks cause false }

/-- No hold and no lock (R125). -/
def Cond.free (c : Cond) : Bool := c.holds == 0 && c.locks == 0

/-- A supply condition holds the output: SUPPLY, OVERVOLT or SHED (R55). -/
def Cond.supplyHeld (c : Cond) : Bool := c.holds.testBit 1 || c.holds.testBit 2 || c.holds.testBit 3

/-- FAULT_SUMMARY (Table 03.3). -/
def faultSummary (s : State) : Nat :=
  let b := s.plane.status
  b.hallFault % 512 + 512 * b2n (pget s (pointAt 83 41) != 0) + 1024 * b2n ((pget s (pointAt 83 40)).toNat % 16 != 0) +
    2048 * b2n (pget s (pointAt 83 50) != 0) + 4096 * b2n b.clockLoss + 8192 * b2n b.late + 16384 * b2n b.overrun +
    32768 * b2n s.store.log.warn

/-- IRQ_SUMMARY: bit n is PENDING of ring n (Table 03.3). -/
def irqSummary (s : State) : Nat :=
  (List.range 64).foldl (fun n r => if (s.ring r).irqPending then n + 2 ^ r else n) 0

/-- The causes of IRQ_OUT (Table 03.3): bit n is PENDING of a C14 ring n, bit 64 + k an enabled bit k of FAULT_SUMMARY. -/
def irqCauses (s : State) : Nat :=
  (List.range 64).foldl (fun n r => if (s.ring r).irqPending && ownsRing s 14 r then n + 2 ^ r else n) 0 +
    2 ^ 64 * (faultSummary s &&& s.plane.status.faultIrqEn)

/-- IRQ_OUT is asserted: while a cause stands, or in pulse mode for 8 ticks from a new cause (Tables 03.3 and 03.21). -/
def irqOut (s : State) : Bool :=
  if s.store.sys.hostIrq.testBit 1 then s.wallLin < s.pins.irqPulseEnd else irqCauses s != 0

/-- At the end of a tick, a new cause of IRQ_OUT begins a pulse (Table 03.21). -/
def noteIrq (s : State) : State :=
  let c := irqCauses s
  { s with pins := { s.pins with
    irqCauses := c, irqPulseEnd := if c &&& s.pins.irqCauses != c then s.wallLin + 9 else s.pins.irqPulseEnd } }

/-- The word at offset 0x14 of a ring control block (Table 03.2). -/
def ringStatusWord (s : State) (r : Nat) : Nat :=
  let g := s.ring r
  (if deviceProduces s r then 0 else g.retire % 4096) + 2 ^ 16 * b2n g.enabled +
    2 ^ 17 * b2n (deviceProduces s r && g.full) + 2 ^ 18 * b2n g.baddoor + 2 ^ 19 * b2n g.overrun +
    2 ^ 20 * b2n g.openFlight.isSome

end Sys2Proof.Machine
end

