-- ==== Sys2Proof/Machine/LoadOps.lean ====
section
/-! DEFINITION. The shared operations of the high-side channels (chapter 05): commands, drive transitions, inrush windows,
faults, holds, locks and returns. -/

namespace Sys2Proof.Machine

/-- Change the loads on the power die. -/
def State.onLoad (s : State) (f : LoadDie → LoadDie) : State := { s with load := f s.load }

/-- Channel `ch` on the power die. -/
def chanOf (s : State) (ch : Nat) : Chan :=
  if h : ch < 56 then s.load.ch[ch] else {}

/-- Change channel `ch`. -/
def State.onChan (s : State) (ch : Nat) (f : Chan → Chan) : State :=
  s.onLoad fun d => { d with ch := vmod d.ch ch f }

/-- Change the condition of channel `ch`. -/
def State.onCond (s : State) (ch : Nat) (f : Cond → Cond) : State :=
  s.onChan ch fun c => { c with cond := f c.cond }

/-- Settings of channel `ch`. -/
def chanCfg (s : State) (ch : Nat) : ChCfg := vget s.store.load.ch ch

/-- Bank `b` on the power die. -/
def bankAt (s : State) (b : Nat) : Bank := vget s.load.bank b

/-- Change bank `b`. -/
def State.onBank (s : State) (b : Nat) (f : Bank → Bank) : State :=
  s.onLoad fun d => { d with bank := vmod d.bank b f }

/-- The bank of an HS channel, or of LS0–LS3 as 56–59 (Table 02.2). -/
def bankOf (ch : Nat) : Nat :=
  if ch < 8 then 0 else if ch < 20 then 1 else if ch < 32 then 2
  else if ch < 40 then 0 else if ch < 48 then 1 else if ch < 56 then 2 else 3

/-- Class current limit in mA (Table 05.1). -/
def classLimit : ChClass → Nat
  | .h => 45000
  | .m => 18000
  | .l => 5000

/-- Class inrush limit in mA (Table 05.1). -/
def inrushLimit : ChClass → Nat
  | .h => 70000
  | .m => 30000
  | .l => 8000

/-- Class hard-short threshold in mA: 2.5 times the current limit (Table 05.1). -/
def hardShortMa (k : ChClass) : Nat := classLimit k * 5 / 2

/-- Clamp energy figure per event in µJ (Table 05.1). -/
def eventFigure : ChClass → Nat
  | .h => 250000
  | .m => 80000
  | .l => 20000

/-- Clamp energy figure per 1 s window in µJ (Table 05.1). -/
def windowFigure : ChClass → Nat
  | .h => 500000
  | .m => 160000
  | .l => 40000

/-- The event address of a channel (Table 05.6). -/
def loadAddress (ch : Nat) : Nat := ch % 256 + 256 * bankOf ch

/-- Post a load event through L0 with the channel as source index (R148). -/
def loadEvent (s : State) (kind ch value : Nat) : State :=
  observe s 7 ch [] [s.ev 7 kind (loadAddress ch) value]

/-- A protection has acted: during a hold, the snapshot number advances (R69). -/
def bumpSnapshot (s : State) : State :=
  if s.link.hold then { s with link := { s.link with snapshot := s.link.snapshot + 1 } } else s

/-- D12: bits [15:4] of the commanded value (R121). -/
def d12 (v : PVal) : Nat := v.toNat / 16

/-- The channel drives (R125): it is commanded on, or a reverse current forces it whatever its command (R146); no hold, no lock, no retry pause, and
it does not wait to be commanded again. -/
def Chan.wants (c : Chan) : Bool := (d12 c.cmd != 0 || c.forced) && c.cond.free && !c.cond.waiting && c.retryAt.isNone

/-! PWM (R121, R122). -/

/-- The period of a channel's PWM in ticks (R121). -/
def pwmPeriod (hz : Nat) : Nat := 8000000 / hz

/-- The on-time of a period (R121). -/
def onTicks (hz d : Nat) : Nat := pwmPeriod hz * d / 4095

/-- OFFSET of a channel's periods (R122). -/
def pwmOffset (hz phase : Nat) : Nat := phase * pwmPeriod hz / 16

/-- How many ticks of its period a channel's grid has passed at tick `t` (R122): 0 at a period start. -/
def periodPos (hz phase t : Nat) : Nat :=
  let p := pwmPeriod hz
  (t + p - pwmOffset hz phase % p) % p

/-- PWM_HZ and PHASE in effect: a change takes effect at the first period start after E (R122). -/
def gridOf (s : State) (ch : Nat) : Nat × Nat :=
  let c := chanOf s ch
  let g := chanCfg s ch
  if c.newAt ≤ s.now then (g.pwmHz, g.phase) else (c.hz, c.phase)

/-- The next period start of a channel after the present tick. -/
def nextPeriod (s : State) (ch : Nat) : Nat :=
  let (hz, ph) := gridOf s ch
  s.now + (pwmPeriod hz - periodPos hz ph s.now)

/-- The on-time of a channel at a duty. -/
def onTimeOf (s : State) (ch d : Nat) : Nat := onTicks (gridOf s ch).1 d

/-- A channel's output is on in the present tick (R121, R122, R146): in the on-phase of its period, without a pause at 4,095 and while it is forced. -/
def chanOn (s : State) (ch : Nat) : Bool :=
  let c := chanOf s ch
  c.driving && (c.forced || c.duty == 4095 || s.now < c.onUntil)

/-- The current limit in force on a channel (R127): the inrush limit while its window runs, else the class limit. -/
def limitOf (s : State) (ch : Nat) : Nat :=
  if (chanOf s ch).window.isSome then inrushLimit (classOf ch) else classLimit (classOf ch)

/-- A window that starts now for `ms` ms, frozen at once while the bank is below its dip level (R127, R131). -/
def startWindow (s : State) (b ms : Nat) : Window :=
  { ends := s.now + ms * 8000, frozen := if (bankAt s b).dip then some s.now else none }

/-- The ticks a frozen window gains until now: at most 16,000 in all (R131). -/
def Window.gain (w : Window) (now : Nat) : Nat :=
  match w.frozen with
  | none => 0
  | some f => min (now - f) (16000 - w.ext)

/-- The end of a window, with the ticks it has been frozen so far (R131). -/
def Window.endAt (w : Window) (now : Nat) : Nat := w.ends + w.gain now

/-- A frozen window counts again (R131). -/
def Window.thaw (w : Window) (now : Nat) : Window :=
  { ends := w.ends + w.gain now, ext := w.ext + w.gain now, frozen := none }

/-- A bank's dip freezes a window; the first one in a dip counts it (R131). -/
def noteFreeze (s : State) (b : Nat) : State :=
  s.onBank b fun x =>
    if x.dip ∧ !x.dipCounted then { x with dipCounted := true, dips := sat16 (x.dips + 1) } else x

/-- Bring a channel's drive in line with what it wants (R122, R125, R127): turning on starts an inrush window and drives the value at once, for T_on
or until the next period start; turning off ends the window. -/
def updateChan (s : State) (ch : Nat) : State :=
  let c := chanOf s ch
  if c.wants ∧ !c.driving then
    let w := startWindow s (bankOf ch) (chanCfg s ch).inrushMs
    noteFreeze (s.onChan ch fun c => { c with
      driving := true, duty := d12 c.cmd, window := some w, inrushExt := 0, limiting := false, limitTicks := 0, debt := 0, shorten := 0
      onUntil := min (s.now + onTimeOf s ch (d12 c.cmd)) (nextPeriod s ch) }) (bankOf ch)
  else if !c.wants ∧ c.driving then
    s.onChan ch fun c => { c with
      driving := false, duty := 0, forced := false, limiting := false, limitTicks := 0, window := none, debt := 0, shorten := 0
      inrushExt := match c.window with | some w => (w.thaw s.now).ext | none => c.inrushExt }
  else s

/-- Report a cause on a channel (R124): LOAD_FAULT when it becomes active. -/
def reportCause (s : State) (ch cause detail : Nat) : State :=
  let c := (chanOf s ch).cond
  let fresh := !c.active.testBit cause || (cause == 6 && c.thermDetail != detail) ||
    (cause == 4 && c.clampDetail != detail)
  let s := s.onCond ch fun c => { c.report cause with
    thermDetail := if cause = 6 then detail else c.thermDetail
    clampDetail := if cause = 4 then detail else c.clampDetail }
  if fresh then loadEvent (bump s 0x0D ch 1) 0x0201 ch (cause + 256 * detail) else s

/-- A cause ends on a channel (R124): LOAD_CLEAR where it was active. -/
def endCause (s : State) (ch cause : Nat) : State :=
  if (chanOf s ch).cond.active.testBit cause then
    loadEvent (s.onCond ch (·.clear cause)) 0x0202 ch cause
  else s

/-- Lock a channel with a cause (Table 05.3); a retry pause ends. -/
def lockChan (s : State) (ch cause detail : Nat) : State :=
  let s := reportCause s ch cause detail
  let s := s.onChan ch fun c => { c with retryAt := none, cond := c.cond.lock cause }
  bumpSnapshot (updateChan s ch)

/-- A channel that is held or commanded off in a retry pause stops retrying and is locked (R130). -/
def stopRetry (s : State) (ch : Nat) : State :=
  let c := chanOf s ch
  if c.retryAt.isSome then lockChan s ch c.retryCause 0 else s

/-- Hold a channel with a cause, whatever its commanded value (R55). -/
def holdChan (s : State) (ch cause detail : Nat) : State :=
  let s := stopRetry s ch
  let s := reportCause s ch cause detail
  let s := s.onCond ch (·.hold cause)
  bumpSnapshot (updateChan s ch)

/-- A hold of a channel ends; the channel goes on waiting until a rule or a command returns it (R56, R125). A channel
commanded off then waits for nothing. -/
def endHoldChan (s : State) (ch cause : Nat) : State :=
  if (chanOf s ch).cond.holds.testBit cause then
    let s := endCause s ch cause
    s.onChan ch fun c =>
      let k := c.cond.endHold cause
      { c with cond := { k with waiting := k.waiting && (d12 c.cmd != 0 || !k.free) } }
  else s

/-- A rule returns a channel to its commanded value (R56, R130, R137, R140): LOAD_RESUME where it turns on. -/
def resumeChan (s : State) (ch cause : Nat) : State :=
  let c := chanOf s ch
  if c.cond.free then
    let s := s.onCond ch fun k => { k with waiting := false }
    let s := if d12 c.cmd ≠ 0 ∧ !c.driving then loadEvent s 0x0203 ch cause else s
    updateChan s ch
  else s

/-- Take a channel out of its bank's resume queue. -/
def leaveQueue (s : State) (ch : Nat) : State :=
  s.onBank (bankOf ch) fun b => { b with resumeQ := b.resumeQ.filter fun e => !(e.1 == ch) }

/-- The L2 frame commands a channel (R122, R125): a change of its point, or a LOAD.SET entry whatever the value held. A
change to or from off, and to or from continuously on, takes effect now. A channel that is commanded off while it waits in the resume queue keeps
its place there until its turn (DESIGN CHOICE, log entry 168). -/
def commandChan (s : State) (ch : Nat) (v : PVal) : State :=
  let old := (chanOf s ch).cmd
  let s := s.onChan ch fun c => { c with cmd := v }
  let s := if d12 v = 0 then stopRetry s ch else s
  let c := chanOf s ch
  let s :=
    if d12 v ≠ 0 ∧ c.cond.free then leaveQueue (s.onCond ch fun k => { k with waiting := false }) ch
    else if d12 v = 0 ∧ c.cond.free then s.onCond ch fun k => { k with waiting := false }
    else s
  let s := updateChan s ch
  let c := chanOf s ch
  if c.driving ∧ d12 v ≠ 0 ∧ d12 old ≠ d12 v ∧ (d12 old = 4095 ∨ d12 v = 4095) then
    let (hz, ph) := gridOf s ch
    s.onChan ch fun c => { c with duty := d12 v, onUntil := s.now - periodPos hz ph s.now + onTicks hz (d12 v) }
  else s

/-- A fault that retries (R130): off for 800,000 ticks while attempts are left, else locked. -/
def tripChan (s : State) (ch cause detail : Nat) : State :=
  let c := chanOf s ch
  if c.retriesDone < (chanCfg s ch).retries then
    let s := reportCause s ch cause detail
    let s := s.onChan ch fun c => { c with
      retriesDone := c.retriesDone + 1, retryAt := some (s.now + 800000), retryCause := cause }
    bumpSnapshot (updateChan s ch)
  else lockChan s ch cause detail

/-- The bins of a clamp window that still count: the last 16 of 500,000 ticks (R132). -/
def liveBins (now : Nat) (l : List ClampBin) : List ClampBin := l.filter fun b => now / 500000 < b.bin + 16

/-- The energy of a clamp window in µJ (R132). -/
def windowEnergy (now : Nat) (l : List ClampBin) : Nat := ((liveBins now l).map ClampBin.uJ).sum

/-- Add an event's energy to the bin in which it ends (R132). -/
def addEnergy (now uJ : Nat) (l : List ClampBin) : List ClampBin :=
  let k := now / 500000
  let l := liveBins now l
  if l.any (fun b => b.bin == k) then l.map fun b => if b.bin = k then { b with uJ := b.uJ + uJ } else b
  else l ++ [{ bin := k, uJ := uJ }]

/-- Add a clamp event to a bank's window; CLAMP_WARN when it first reaches 75 % of 1 J (R132, R133). -/
def bankClamp (s : State) (b uJ : Nat) : State :=
  let s := s.onBank b fun x => { x with clamp := addEnergy s.now uJ x.clamp }
  let e := windowEnergy s.now (bankAt s b).clamp
  if 750000 ≤ e ∧ !(bankAt s b).clampWarned then
    let s := s.onBank b fun x => { x with clampWarned := true }
    observe s 7 255 [] [s.ev 7 0x0204 (0xFF + 256 * b) (sat16 (e / 1000))]
  else s

/-- A channel runs PWM: neither off nor continuously on (R121). -/
def Chan.pwm (c : Chan) : Bool := c.driving && 0 < c.duty && c.duty < 4095

/-- The on-time that an on-state measurement needs (R141). -/
def onStateMin (ch : Nat) : Nat := if classOf ch = .l then 240 else 480

/-- The diagnostic domain PD8 is on. -/
def pd8On (s : State) : Bool := s.seq.pd.testBit 8

/-- The open-load result of a channel is "not possible" (R144). -/
def openNotPossible (s : State) (ch : Nat) : Bool :=
  let c := chanOf s ch
  let g := chanCfg s ch
  let short := c.pwm && onTimeOf s ch c.duty < onStateMin ch
  (bankAt s (bankOf ch)).diagOff || !pd8On s || (!c.driving && !g.olOff) ||
    (short && !g.olOff && g.stretchN == 0) || (c.pwm && g.olOn == 0 && !g.olOff)

/-- Count one open-load check: eight open ones of a method in a row report OPEN, and eight in a row of any method that find the load present clear it
(R141–R143, Table 05.3). -/
def countOpen (s : State) (ch method : Nat) (isOpen : Bool) : State :=
  let o := (chanOf s ch).ol
  let o := { o with
    method := method, opens := vmod o.opens method fun n => if isOpen then n + 1 else 0
    presents := if isOpen then 0 else o.presents + 1 }
  let s := s.onChan ch fun c => { c with ol := o }
  let s :=
    if 8 ≤ vget o.opens method then reportCause s ch 8 method
    else if 8 ≤ o.presents then endCause s ch 8 else s
  s.onChan ch fun c => { c with ol := { c.ol with result := b2n (c.cond.active.testBit 8) } }

end Sys2Proof.Machine
end

