-- ==== Sys2Proof/Machine/Points.lean ====
section
/-! DEFINITION. The point commands of chapter 04: POINT.WRITE, POINT.READ, POINT.TYPE, timers, and writes that moved to a
later tick. -/

namespace Sys2Proof.Machine

/-- FORM = 1: a block of points (Tables 04.8, 04.10). -/
def pointBlock (p : Packet) : Bool := p.bit 16 0

/-- COUNT. -/
def pointCount (p : Packet) : Nat := p.num 18 2

/-- START. -/
def pointStart (p : Packet) : Nat := p.fld 20 0 19

/-- SLOTS may be 1–16. -/
def anySlots (p : Packet) : Bool := 1 ≤ p.slotsField && p.slotsField ≤ 16

/-- Argument fields of POINT.WRITE (Table 04.8). -/
def pointWriteLayout (p : Packet) : Layout :=
  (16, 0, 1) :: (18, 0, 16) ::
    (if pointBlock p then (20, 0, 19) :: entryLayout 24 2 (min (pointCount p) 500) [(0, 0, 16)]
     else entryLayout 24 8 (min (pointCount p) 125) [(0, 0, 19), (4, 0, 16)])

/-- The entries of POINT.WRITE in order (Table 04.8). -/
def pointWriteEntries (p : Packet) : List (Nat × PVal) :=
  if pointBlock p then
    (List.range (pointCount p)).map fun i => (pointStart p + i, BitVec.ofNat 16 (p.num (24 + 2 * i) 2))
  else
    (List.range (pointCount p)).map fun i => (p.fld (24 + 8 * i) 0 19, BitVec.ofNat 16 (p.num (28 + 8 * i) 2))

/-- COUNT is out of range for the form, with entries of `size` bytes in a list. -/
def pointCountBad (p : Packet) (size : Nat) : Bool :=
  pointCount p == 0 || (64 * p.slots - 24) / (if pointBlock p then 2 else size) < pointCount p ||
    (pointBlock p && 4096 < position (pointStart p) + pointCount p)

/-- Apply direct writes of a packet in order; the counts of applied, discarded and moved ones. -/
def applyEntries (s : State) (p : Packet) : List (Nat × PVal) → State × Nat × Nat × Nat
  | [] => (s, 0, 0, 0)
  | e :: r =>
    let (s1, w) := directWrite s p e.1 e.2
    let (s2, a, d, m) := applyEntries s1 p r
    match w with
    | .applied => (s2, a + 1, d, m)
    | .discarded => (s2, a, d + 1, m)
    | .moved => (s2, a, d, m + 1)

/-- The reply of POINT.WRITE (Table 04.9). -/
def pointWriteReply (applied discarded : Nat) : Reply := [(16, 2, applied), (18, 2, discarded)]

/-- POINT.WRITE (Table 04.8, R104, R105, R108). -/
def pointWriteOp : Op where
  code := 0x0400
  fast := true
  slotsOk := anySlots
  layout := pointWriteLayout
  bad := fun p _ => pointCountBad p 8 || (pointWriteEntries p).any fun e => !assigned e.1
  deny := fun p s => (pointWriteEntries p).any fun e =>
    !mayWrite s p.comp (gallery e.1) || !softwareMayWrite p.comp e.1
  run := fun p s =>
    let (s, a, d, m) := applyEntries s p (pointWriteEntries p)
    if m = 0 then
      { s := s, st := some (if d = 0 then .ok else .busy), reply := pointWriteReply a d }
    else
      { s := s.onPoints fun q => { q with
          lateWriters := q.lateWriters ++ [{ p := p, left := m, pointWrite := true, noted := ranLate p s, applied := a, discarded := d }] }
        st := none }

/-- POINT.WRITE. -/
def execPointWrite (p : Packet) (s : State) : Answer := effect s (fastTake pointWriteOp p s)

/-- Argument fields of POINT.READ (Table 04.10). -/
def pointReadLayout (p : Packet) : Layout :=
  (16, 0, 1) :: (18, 0, 16) ::
    (if pointBlock p then [(20, 0, 19)] else entryLayout 24 4 (min (pointCount p) 250) [(0, 0, 19)])

/-- The points POINT.READ names. -/
def pointReadPoints (p : Packet) : List Nat :=
  if pointBlock p then (List.range (pointCount p)).map (pointStart p + ·)
  else (List.range (pointCount p)).map fun i => p.fld (24 + 4 * i) 0 19

/-- A field input FI0–FI15 (Table 04.4). -/
def isFieldInput (pt : Nat) : Bool := gallery pt == 82 && position pt < 16

/-- POINT.READ (Table 04.10, R114): its values are those at the end of the tick, where its reply is written (`answerRead`). -/
def pointReadOp : Op where
  code := 0x0401
  fast := true
  slotsOk := anySlots
  layout := pointReadLayout
  bad := fun p _ => pointCountBad p 4 || (pointReadPoints p).any fun pt => 96 ≤ gallery pt
  deny := fun p s => (pointReadPoints p).any fun pt => !mayRead s p.comp (gallery pt)
  run := fun p s => { s := s.onPoints fun q => { q with reads := q.reads ++ [p] }, st := none }

/-- POINT.READ. -/
def execPointRead (p : Packet) (s : State) : Answer := effect s (fastTake pointReadOp p s)

/-- The status of a POINT.READ that the tick answers: S_STALE where a field input that it reads is stale (R225). -/
def pointReadStatus (s : State) (p : Packet) : Status :=
  if s.points.stale ∧ (pointReadPoints p).any isFieldInput then .stale else .ok

/-- The reply of POINT.READ (Table 04.11): an unassigned point reads as 0 (R102). -/
def pointReadReply (s : State) (p : Packet) : Reply :=
  let pts := pointReadPoints p
  (16, 2, pointCount p) :: (List.range pts.length).map fun i => (24 + 2 * i, 2, (pget s (pts.getD i 0)).toNat)

/-- The address of the read window of the point memory (R110). -/
def windowBase : Nat := 0x41000000

/-- The halfword that the keeper or C1–C13 reads at an even address of the read window (R109, R110): the value of the draw copy; 0 in a gallery outside
READ_GALLERIES, in G96–G127 and outside the window. C14 and C15 do not reach it. A write to it is ignored. -/
def windowRead (s : State) (c a : Nat) : PVal :=
  let pt := (a - windowBase) / 2
  if windowBase ≤ a ∧ pt < 0x80000 ∧ c < 14 ∧ mayRead s c (gallery pt) ∧ gallery pt < 96 then pget s pt else 0

/-- A POINT.READ completes at the end of its execution tick, after every write of that tick (R114). -/
def answerRead (s : State) (p : Packet) : State :=
  completeNow s p (lateStatus (ranLate p s) (pointReadStatus s p)) (pointReadReply s p)

/-- Every POINT.READ of the tick completes. -/
def answerReads (s : State) : State :=
  s.points.reads.foldl answerRead (s.onPoints fun q => { q with reads := [] })

/-- TYPE as POINT.TYPE reports it: the default inside G84–G95 is VARIABLE (R112). -/
def typeCode (s : State) (pt : Nat) : Nat :=
  let ty := (attrOf s pt).ty
  if 84 ≤ gallery pt && gallery pt < 96 && ty = 0 then 1 else ty

/-- The attributes POINT.TYPE writes: VARIABLE is kept as the default type. -/
def pointTypeAttr (p : Packet) : PointAttr :=
  { ty := if p.fld 24 0 2 = 2 then 2 else 0, timebase := p.fld 24 2 2, report := p.bit 24 4
    deadband := p.num 26 2, init := p.num 28 2 }

/-- Timers that would exist after the points from `a` to `b` − 1 are set to timers or not (R112). -/
def timersAfter (s : State) (a b : Nat) (timer : Bool) : Nat :=
  (s.store.attrs.filter fun e => e.2.ty == 2 && !(a ≤ e.1 && e.1 < b)).length + (if timer then b - a else 0)

/-- POINT.TYPE (Table 04.12, R112, R113). -/
def pointTypeOp : Op where
  code := 0x0402
  layout := fun _ => [(16, 0, 1), (18, 0, 16), (20, 0, 19), (24, 0, 5), (26, 0, 16), (28, 0, 16)]
  bad := fun p _ =>
    let g := gallery (pointStart p)
    let ty := p.fld 24 0 2
    let virt := 84 ≤ g && g < 96
    pointCount p == 0 || 4096 < pointCount p || 4096 < position (pointStart p) + pointCount p || 96 ≤ g ||
    (if p.bit 16 0 then pointCount p != 1 || p.num 24 4 != 0 || p.num 28 2 != 0
     else ty == 3 || (ty != 0 && !virt) || (ty == 0 && virt) || (ty != 2 && p.fld 24 2 2 != 0) ||
       (p.bit 24 4 && g < 64) || 4095 < p.num 26 2 || (ty != 1 && p.num 28 2 != 0))
  deny := fun p s =>
    let g := gallery (pointStart p)
    !mayRead s p.comp g || (!p.bit 16 0 && !mayWrite s p.comp g)
  run := fun p s =>
    let a := pointStart p
    let n := pointCount p
    if p.bit 16 0 then
      let x := attrOf s a
      let w := Tbl.get s.points.lastWriter (0, 0) a
      { s := s
        reply := [(24, 1, typeCode s a + 4 * x.timebase + 16 * b2n x.report), (26, 2, x.deadband), (28, 2, x.init),
          (30, 1, w.1 + 16 * w.2)] }
    else if 4096 < timersAfter s a (a + n) (p.fld 24 0 2 == 2) then { s := s, st := some .busy }
    else
      let x := pointTypeAttr p
      let s := (List.range n).foldl (fun s i =>
        let s := if x.report ∧ !(attrOf s (a + i)).report then
            s.onPoints fun q => { q with lastReport := Tbl.put q.lastReport none (a + i) none }
          else s
        s.onStore fun st => { st with attrs := Tbl.put st.attrs {} (a + i) x }) s
      { s := s }

/-- POINT.TYPE. -/
def execPointType (p : Packet) (s : State) : Answer := effect s (keeperTake pointTypeOp p s)

/-- The source index of a timer's expiry (R106). -/
def timerIndex (pt : Nat) : Nat := 1024 + (pt - pointAt 84 0)

/-- The packets of the tick have taken effect: its inputs and reflexes are done, and no packet is left that is due (R81, R108). -/
def packetsDone (s : State) : Bool := inputsIn s && reflexDone s && (duePackets s).isEmpty

/-- A timer counts down in this tick (R112): it is not 0, the tick is a multiple of its timebase, and no write of the tick stands over the
decrement. -/
def timerDue (s : State) (pt : Nat) : Bool :=
  s.plane.running && isTimer s pt && pget s pt != 0 && s.plane.tick % timebaseTicks (attrOf s pt).timebase == 0 &&
    !s.points.timersNow.contains pt && !s.points.now.any fun e => e.w.pt == pt

/-- The write with which a timer expires (R106, R112). -/
def expiryWrite (pt : Nat) : PWrite := { pt := pt, v := 0, kind := .timer, hall := 3, idx := timerIndex pt }

/-- A timer counts down by 1; the step from 1 to 0 is a write that changes the point (R112), one of the 4,096 of the tick (R107). -/
def timerStep (s : State) (pt : Nat) : State :=
  if timerDue s pt then
    let s := s.onPoints fun q => { q with timersNow := pt :: q.timersNow }
    if pget s pt = 1 then deviceWrite s s.stamp (expiryWrite pt) else pput s pt (pget s pt - 1)
  else s

/-- Every timer that is due counts down. -/
def timerSteps (s : State) : State := (s.store.attrs.filter fun e => e.2.ty == 2).foldl (fun s e => timerStep s e.1) s

/-- A timer point reaches a multiple of its timebase (R112); the packets of the tick come first (R108). -/
def execTimerExpiry (pt : Nat) (s : State) : Answer := effect s (if packetsDone s then timerStep s pt else s)

/-- One write of a packet whose writes moved has been applied or discarded (R108). -/
def lateWriterStep (s : State) (w : PWrite) (r : WriteResult) : State :=
  s.onPoints fun q => { q with lateWriters := q.lateWriters.map fun l =>
    if l.p.order = w.idx ∧ l.p.hall = w.hall then
      if r = .applied then { l with left := l.left - 1, now := w.pt :: l.now } else { l with left := l.left - 1, discarded := l.discarded + 1 }
    else l }

/-- The end of the tick decides on the moved writes that it has applied: one that a reflex write of the tick stands over is discarded (R104). After the last of
its writes a packet completes with S_LATE (R108). -/
def settleLate (s : State) (l : LateWriter) : State :=
  let lost := (l.now.filter fun pt => s.points.now.any fun e => e.w.pt == pt && e.w.kind == .reflex).length
  let l' : LateWriter := { l with now := [], applied := l.applied + (l.now.length - lost), discarded := l.discarded + lost }
  if l'.left = 0 then
    let s := completeNow s l.p .late (if l.pointWrite then pointWriteReply l'.applied l'.discarded else l.reply)
    if l.noted then s else noteLate s l.p (s.plane.tick - dueTick (isFast l.p.opcode) l.p s)
  else s.onPoints fun q => { q with lateWriters := q.lateWriters ++ [l'] }

/-- Every packet some of whose writes have moved. -/
def settleLates (s : State) : State := s.points.lateWriters.foldl settleLate (s.onPoints fun q => { q with lateWriters := [] })

/-- A packet waits for `left` writes that have moved (R108): a keeper packet or LOAD.SET with the reply that it will have. -/
def waitMoved (s : State) (p : Packet) (left : Nat) (noted : Bool) (reply : Reply) : State :=
  s.onPoints fun q => { q with lateWriters := q.lateWriters ++ [{ p := p, left := left, pointWrite := false, noted := noted, reply := reply }] }

/-- A waiting pattern write takes its place: in engine order and then in target order (R187). -/
def lagInsert (a : LagWrite) : List LagWrite → List LagWrite
  | [] => [a]
  | x :: r => if a.engine < x.engine || (a.engine == x.engine && a.pt < x.pt) then a :: x :: r else x :: lagInsert a r

/-- Apply one moved write ahead of the writes that fall due in this tick (R108); a pattern write is one of the 1,024 of the tick (R187). -/
def applyDeferred (s : State) (w : PWrite) : State :=
  if w.kind = .device then deviceWrite s s.stamp w
  else if w.kind = .pattern then
    if 1024 ≤ s.light.patNow then
      { s with light := { s.light with lag := lagInsert { engine := w.idx - 65536, pt := w.pt, v := w.v } s.light.lag } }
    else (applyWrite { s with light := { s.light with patNow := s.light.patNow + 1 } } w).1
  else
    let (s, r) := applyWrite s w
    if w.kind = .direct then lateWriterStep s w r else s

/-- Writes that moved to this tick are applied, at most 4,096 in the tick (R107, R108). -/
def deferredStep (s : State) : State :=
  let n := 4096 - s.points.writesNow
  let l := s.points.deferred
  let s := s.onPoints fun q => { q with deferred := l.drop n }
  (l.take n).foldl applyDeferred s

/-- Point writes that moved are applied first in the tick that follows (R108). -/
def execPointWriteDeferred (s : State) : Answer := effect s (deferredStep s)

end Sys2Proof.Machine
end

