-- ==== Sys2Proof/Machine/Loads.lean ====
section
/-! DEFINITION. The commands of the high-side channels (chapter 05): protections, diagnosis, the package thermal manager, and
the load opcodes. -/

namespace Sys2Proof.Machine

/-- An inrush window ends (R128): still limiting, or above the class current limit, is INRUSH_FAIL; otherwise the retry count
returns to 0 and a cause that led to retries ends (R130). -/
def inrushEnd (s : State) (ch : Nat) (limiting : Bool) (mA : Nat) : State :=
  match (chanOf s ch).window with
  | none => s
  | some w =>
    if w.endAt s.now ≤ s.now then
      let w := w.thaw s.now
      let s := s.onChan ch fun c => { c with window := none, inrushExt := w.ext, limiting := limiting }
      if limiting ∨ classLimit (classOf ch) < mA then tripChan s ch 11 0
      else
        let s := s.onChan ch fun c => { c with retriesDone := 0 }
        endCause (endCause s ch 7) ch 11
    else s

/-- A channel's inrush window ends (R128). -/
def execInrushWindowEnd (ch : Nat) (limiting : Bool) (mA : Nat) (s : State) : Answer :=
  effect s (inrushEnd s ch limiting mA)

/-- The count of on-ticks in a row that limit goes on over a trace, up to 800 (R128): off-phases are skipped, and an on-tick without limiting
restarts it. -/
def limitCount : List LimitRun → Nat → Nat
  | [], n => n
  | r :: l, n =>
    if 800 ≤ n then n
    else limitCount l (if !r.on || r.ticks = 0 then n else if r.limiting then n + r.ticks else 0)

/-- Whether an output limits at the end of a trace. -/
def limitsLast (l : List LimitRun) (old : Bool) : Bool := l.foldl (fun b r => if r.on && r.ticks != 0 then r.limiting else b) old

/-- A channel's own sensing has gone on over a trace (R128): outside its window, 800 on-ticks in a row that limit turn it off. -/
def overload (s : State) (ch : Nat) (trace : List LimitRun) : State :=
  let c := chanOf s ch
  if !c.driving then s
  else
    let n := if c.window.isSome then 0 else limitCount trace c.limitTicks
    let s := s.onChan ch fun c => { c with limiting := limitsLast trace c.limiting, limitTicks := n }
    if 800 ≤ n then tripChan s ch 7 1 else s

/-- The count of R128 goes on; at 800 on-ticks, SHORT with detail 1. -/
def execOverloadCountExpiry (x : LimitTrace) (s : State) : Answer := effect s (overload s x.unit x.runs)

/-- The retry pause ends: the channel turns on again with a new window (R130). -/
def retryExpiry (s : State) (ch : Nat) : State :=
  match (chanOf s ch).retryAt with
  | none => s
  | some t =>
    if t ≤ s.now then
      let cause := (chanOf s ch).retryCause
      let s := s.onChan ch fun c => { c with retryAt := none }
      if (chanOf s ch).wants then updateChan (loadEvent s 0x0203 ch cause) ch else s
    else s

/-- A retry (R130). -/
def execRetryTimerExpiry (ch : Nat) (s : State) : Answer := effect s (retryExpiry s ch)

/-- A channel's current exceeds its hard-short threshold, and its comparator turns it off (R129). -/
def hardShortHs (s : State) (ch mA : Nat) : State :=
  if (chanOf s ch).driving ∧ hardShortMa (classOf ch) < mA then tripChan s ch 7 0 else s

/-- A clamp event of a channel ends (R132, R133): its energy enters the channel and bank windows, CLAMP_WARN at 75 %, and the channel is locked where
a figure is passed: with detail 2 where the bank window stood at 1 J before. Where one event meets several conditions of R133 at once, the lock
carries the first detail of 0, 1, 2 (DESIGN CHOICE, log entry 123). -/
def clampHs (s : State) (ch uJ : Nat) : State :=
  let k := classOf ch
  let full := decide (1000000 ≤ windowEnergy s.now (bankAt s (bankOf ch)).clamp)
  let s := s.onChan ch fun c => { c with clamp := addEnergy s.now uJ c.clamp }
  let e := windowEnergy s.now (chanOf s ch).clamp
  let s :=
    if windowFigure k * 3 ≤ e * 4 ∧ !(chanOf s ch).clampWarned then
      loadEvent (s.onChan ch fun c => { c with clampWarned := true }) 0x0204 ch (sat16 (e / 100))
    else s
  let s := bankClamp s (bankOf ch) uJ
  if full then lockChan s ch 4 2
  else if eventFigure k < uJ then lockChan s ch 4 0
  else if windowFigure k ≤ e then lockChan s ch 4 1
  else if 1000000 ≤ windowEnergy s.now (bankAt s (bankOf ch)).clamp then lockChan s ch 4 2
  else s

/-- Rated current of a wire in A and its time constant in s (Table 05.5). -/
def wireTable (w : Nat) : Nat × Nat :=
  match w with
  | 0 => (7, 12)
  | 1 => (9, 15)
  | 2 => (12, 20)
  | 3 => (14, 25)
  | 4 => (18, 35)
  | 5 => (25, 50)
  | 6 => (34, 75)
  | _ => (44, 100)

/-- One update of the wire model, exactly (R135): `mA` is the RMS current over the last 1 ms. -/
def wireStep (g : ChCfg) (x : Rat) (mA : Nat) : Rat :=
  let (rated, tau) := wireTable g.wire
  let ir : Rat := (rated : Rat) * g.rating / 100
  let i : Rat := (mA : Rat) / 1000
  x + (i * i / (ir * ir) - x) / (1000 * tau)

/-- WIRE_X: x in percent (R136). -/
def wirePercent (x : Rat) : Nat := (x * 100).floor.toNat

/-- The wire model of a channel (R135, R136): WIRE_WARN at 80 %, a lock at 100 %. -/
def wireUpdate (s : State) (ch mA avgMa : Nat) : State :=
  let x := wireStep (chanCfg s ch) (chanOf s ch).wireX mA
  let warn := decide ((4 : Rat) / 5 ≤ x)
  let first := warn && !(chanOf s ch).wireWarned
  let s := s.onChan ch fun c => { c with wireX := x, wireWarned := warn, iLoad := avgMa }
  let s := if first then loadEvent s 0x0205 ch (wirePercent x) else s
  if 1 ≤ x ∧ !(chanOf s ch).cond.locks.testBit 5 then lockChan s ch 5 0 else s

/-- The wire model updates x (R135). -/
def execWireModelUpdate (ch mA avgMa : Nat) (s : State) : Answer := effect s (wireUpdate s ch mA avgMa)

/-- A channel's junction reaches T_SD (R137): off with an automatic restart, or locked after the sixteenth. -/
def thermalHs (s : State) (ch : Nat) : State :=
  if (chanOf s ch).driving then
    let s := s.onChan ch fun c => { c with lastShutdown := s.now, cond := { c.cond with cool := false } }
    if (chanOf s ch).restarts < 16 then holdChan s ch 6 0 else lockChan s ch 6 2
  else s

/-- A channel has cooled by T_HYS and restarts (R137); the restart counts where the channel turns on. This return is made also where a supply hold of a
channel without the resume attribute has ended meanwhile (R56 against R137; DESIGN CHOICE, log entry 169). -/
def thermalRestartHs (s : State) (ch : Nat) : State :=
  let s := s.onCond ch fun k => { k with cool := true }
  let c := chanOf s ch
  if c.cond.holds.testBit 6 ∧ c.cond.thermDetail = 0 then
    let s := resumeChan (endHoldChan s ch 6) ch 6
    s.onChan ch fun c => { c with restarts := c.restarts + b2n c.driving }
  else s

/-- Ten seconds without a shutdown (R137). -/
def restartResetHs (s : State) (ch : Nat) : State :=
  if (chanOf s ch).lastShutdown + 80000000 ≤ s.now then s.onChan ch fun c => { c with restarts := 0 } else s

/-! The package thermal manager. -/

/-- P_LIM in mW at a module temperature as G83:0030 counts it (R138). -/
def pLim (temp : Nat) : Nat := 12000 - 20 * (min temp 1650 - 1350)

/-- Current limits of the banks in mA (R138). -/
def bankLimit (b : Nat) : Nat := if b = 0 then 60000 else if b = 3 then 40000 else 45000

/-- The power limit asks for cuts (R139): from an average above it until the last 1 ms is at the margin. -/
def powerCuts (m : ThermalMgr) (th : Thermals) : Bool :=
  (pLim th.moduleTemp < th.pAvg || m.cutting.testBit 0) && pLim th.moduleTemp - 1000 < th.pNow

/-- A bank's current limit asks for cuts (R139). -/
def bankCuts (m : ThermalMgr) (th : Thermals) (b : Nat) : Bool :=
  (bankLimit b < th.bankAvg.getD b 0 || m.cutting.testBit (1 + b)) && bankLimit b * 95 < th.bankNow.getD b 0 * 100

/-- The module's current limit asks for cuts (R139). -/
def moduleCuts (m : ThermalMgr) (th : Thermals) : Bool := (120000 < th.modAvg || m.cutting.testBit 5) && 114000 < th.modNow

/-- The limits that ask for a cut (R139): 1 power, 3 a bank's current with its bank, 4 the module's current. Where several ask in one tick they
take it in this order (DESIGN CHOICE, log entry 124). -/
def cutReasons (m : ThermalMgr) (th : Thermals) : List (Nat × Nat) :=
  (if powerCuts m th then [(1, 0)] else []) ++ ((List.range 4).filter (bankCuts m th)).map (fun b => (3, b)) ++
    (if moduleCuts m th then [(4, 0)] else [])

/-- The cutting runs that go on: those whose margin is not reached (R139). -/
def cuttingNow (m : ThermalMgr) (th : Thermals) : Nat :=
  b2n (powerCuts m th) + (((List.range 4).filter (bankCuts m th)).map fun k => 2 ^ (1 + k)).sum + 32 * b2n (moduleCuts m th)

/-- The next channel to cut (R139): THERM_PRIO 3 first, then the highest channel number; only driving ones. -/
def cutChoice (s : State) (reason : Nat × Nat) : Option Nat :=
  let ok := fun ch => (chanOf s ch).driving && (reason.1 != 3 || bankOf ch == reason.2)
  let at_ := fun prio => ((List.range 56).reverse.filter fun ch => ok ch && (chanCfg s ch).thermPrio == prio).head?
  match at_ 3 with
  | some c => some c
  | none => match at_ 2 with
    | some c => some c
    | none => at_ 1

/-- The cut that the asking limits make together (R139): the channel of the first limit that still has one to cut. -/
def nextCut (s : State) : List (Nat × Nat) → Option ((Nat × Nat) × Nat)
  | [] => none
  | r :: l => match cutChoice s r with
    | some ch => some (r, ch)
    | none => nextCut s l

/-- The measurements enter the manager (R138). Above 40 A on bank D new motor runs and valve fires are refused, until the
average falls to 38.0 A (R154). -/
def noteThermals (s : State) (th : Thermals) : State :=
  let d := th.bankAvg.getD 3 0
  let s := { s with motor := { s.motor with
    refusing := if 40000 < d then true else if d ≤ 38000 then false else s.motor.refusing } }
  s.onLoad fun d => { d with
    bank := vmapIdx d.bank fun b x => { x with avgMa := th.bankAvg.getD b 0 }
    mgr := { d.mgr with
      pAvg := th.pAvg, modAvg := th.modAvg, temp := th.moduleTemp, cutting := cuttingNow d.mgr th } }

/-- G83:0030 follows the module temperature (Table 04.5). -/
def noteModuleTemp (s : State) (th : Thermals) : State :=
  if s.load.mgr.temp = th.moduleTemp then s
  else observePoint s 7 286 (pointAt 83 30) (BitVec.ofNat 16 th.moduleTemp) []

/-- The value of THERMAL_CUT (Table 05.6). -/
def cutValue (th : Thermals) (reason : Nat × Nat) : Nat :=
  sat16 (if reason.1 = 1 then th.pAvg / 10 else if reason.1 = 3 then th.bankAvg.getD reason.2 0 / 100 else th.modAvg / 100)

/-- The address of THERMAL_CUT (Table 05.6). -/
def cutAddress (ch bank : Nat) (reason : Nat × Nat) : Nat :=
  ch + 256 * bank + 1024 * (if reason.1 = 1 then 0 else if reason.1 = 3 then 1 else 2)

/-- A limit has no channel left to cut: THERMAL_CUT with channel 0xFF, and bank 0 for the power and the module limit (R139; DESIGN CHOICE, log
entry 124). -/
def noneLeft (s : State) (th : Thermals) (r : Nat × Nat) : State :=
  observe s 7 255 [] [s.ev 7 0x0206 (cutAddress 0xFF (if r.1 = 3 then r.2 else 0) r) (cutValue th r)]

/-- A channel is cut for a limit (R139): held with THERMAL, and it joins the cuts. -/
def cutChan (s : State) (th : Thermals) (r : Nat × Nat) (ch mW mA : Nat) : State :=
  let s := s.onLoad fun d => { d with mgr := { d.mgr with
    mgrCuts := sat16 (d.mgr.mgrCuts + 1)
    cuts := d.mgr.cuts ++ [{ ch := ch, detail := r.1, mW := mW, mA := mA }] } }
  let s := holdChan s ch 6 r.1
  observe s 7 ch [] [s.ev 7 0x0206 (cutAddress ch (bankOf ch) r) (cutValue th r)]

/-- The manager cuts one channel every 8,000 ticks while a limit asks for it (R139). A limit with no channel left reports that as often, and the next
asking limit makes the cut (DESIGN CHOICE, log entry 124). -/
def managerCut (s : State) (th : Thermals) (mW mA : Nat) : State :=
  let reasons := cutReasons s.load.mgr th
  let s := noteThermals (noteModuleTemp s th) th
  let due : Bool := match s.load.mgr.lastCut with | none => true | some t => t + 8000 ≤ s.now
  if reasons.isEmpty || !due then s
  else
    let cut := nextCut s reasons
    let s := s.onLoad fun d => { d with mgr := { d.mgr with lastCut := some s.now } }
    let s := (reasons.filter fun r => (cutChoice s r).isNone).foldl (noneLeft · th ·) s
    match cut with
    | some (r, ch) => cutChan s th r ch mW mA
    | none => s

/-- The margin lets the last cut channel return (R140). -/
def returnFits (th : Thermals) (c : Cut) : Bool :=
  let b := bankOf c.ch
  th.pAvg + c.mW ≤ pLim th.moduleTemp - 1000 &&
    (c.detail == 1 ||
      ((th.bankAvg.getD b 0 + c.mA) * 100 ≤ bankLimit b * 95 && (th.modAvg + c.mA) * 100 ≤ 120000 * 95))

/-- A cut channel takes its turn, the last one cut first, at most one every 800,000 ticks (R140). -/
def managerReturn (s : State) (th : Thermals) : State :=
  let s := noteThermals (noteModuleTemp s th) th
  let due : Bool := match s.load.mgr.lastReturn with | none => true | some t => t + 800000 ≤ s.now
  match s.load.mgr.cuts.getLast? with
  | none => s
  | some c =>
    if due && returnFits th c then
      let s := s.onLoad fun d => { d with mgr := { d.mgr with
        cuts := d.mgr.cuts.dropLast, lastReturn := some s.now } }
      let s := endHoldChan s c.ch 6
      if (vget s.store.load.shed c.ch).resume then resumeChan s c.ch 6 else s
    else s

/-! Open load, backfeed and reverse current. -/

/-- A measured current in µA counts as open against OL_ON (R141, Table 05.9). -/
def belowOlOn (ch olOn uA : Nat) : Bool := uA < olOn * (if classOf ch = .l then 50 else 10000)

/-- An on-state measurement (R141): at the end of an on-phase of the minimum length, or of a channel on continuously. -/
def onStateCheck (s : State) (ch uA : Nat) : State :=
  let c := chanOf s ch
  let g := chanCfg s ch
  if c.driving ∧ g.olOn ≠ 0 ∧ !openNotPossible s ch ∧ (c.pwm → onStateMin ch ≤ onTimeOf s ch c.duty) then
    countOpen s ch 0 (belowOlOn ch g.olOn uA)
  else s

/-- An on-state open-load check (R141). -/
def execOnStateOpenCheck (ch uA : Nat) (s : State) : Answer := effect s (onStateCheck s ch uA)

/-- BACKFEED is reported, or ends once the output is below V_BF − 1 V (Table 05.3); with BACKFEED, OPEN clears (R147). The on-state count of open
measurements stays as it is, so that the next open one reports OPEN again (DESIGN CHOICE, log entry 171). -/
def backfeed (s : State) (ch : Nat) (above belowEnd : Bool) : State :=
  if above then endCause (reportCause s ch 9 0) ch 8
  else if belowEnd then endCause s ch 9 else s

/-- The off-phase of a PWM channel is long enough for a check (R142); a forced channel has none (R146). -/
def offPhaseFits (s : State) (ch : Nat) : Bool :=
  let c := chanOf s ch
  !c.driving || (c.pwm && !c.forced && onTimeOf s ch c.duty + 1600 ≤ pwmPeriod (gridOf s ch).1)

/-- An off-state check (R142). -/
def offStateCheck (s : State) (ch : Nat) (aboveOl aboveBf belowEnd : Bool) : State :=
  if (chanCfg s ch).olOff ∧ !openNotPossible s ch ∧ offPhaseFits s ch then
    let s := backfeed s ch aboveBf belowEnd
    if aboveBf then s.onChan ch fun c => { c with ol := { c.ol with
        method := 1, opens := vmod c.ol.opens 1 fun _ => 0, presents := c.ol.presents + 1, result := b2n (c.cond.active.testBit 8) } }
    else countOpen s ch 1 aboveOl
  else s

/-- An off-state check (R142). -/
def execOffStateCheck (ch : Nat) (aboveOl aboveBf belowEnd : Bool) (s : State) : Answer :=
  effect s (offStateCheck s ch aboveOl aboveBf belowEnd)

/-- Stretch is in use on a channel: OL_OFF = 0, STRETCH_N set, PWM with an on-time below the minimum (R143). -/
def stretchInUse (s : State) (ch : Nat) : Bool :=
  let c := chanOf s ch
  let g := chanCfg s ch
  !g.olOff && g.stretchN != 0 && c.pwm && onTimeOf s ch c.duty < onStateMin ch

/-- One on-phase is stretched to the minimum and measured; the added ticks are a debt (R143). It stands in a period with no debt, at least N periods
after the last stretch; the first one at least N periods after the channel's first period (DESIGN CHOICE, log entry 125). -/
def stretchPhase (s : State) (ch uA : Nat) : State :=
  let c := chanOf s ch
  let g := chanCfg s ch
  if stretchInUse s ch ∧ !openNotPossible s ch ∧ c.debt = 0 ∧ c.shorten = 0 ∧ c.stretchAt + g.stretchN ≤ c.periods then
    let (hz, ph) := gridOf s ch
    let s := s.onChan ch fun c => { c with
      debt := onStateMin ch - onTicks hz c.duty, stretchAt := c.periods, onUntil := s.now - periodPos hz ph s.now + onStateMin ch }
    if g.olOn = 0 then s else countOpen s ch 2 (belowOlOn ch g.olOn uA)
  else s

/-- A stretched on-phase (R143). -/
def execStretchPhase (ch uA : Nat) (s : State) : Answer := effect s (stretchPhase s ch uA)

/-- The pull-down check of an off channel with OL_OFF = 0 (R145). -/
def backfeedCheck (s : State) (ch : Nat) (aboveBf belowEnd : Bool) : State :=
  if !(chanOf s ch).driving ∧ !(chanCfg s ch).olOff ∧ !(bankAt s (bankOf ch)).diagOff ∧ pd8On s then
    backfeed s ch aboveBf belowEnd
  else s

/-- The pull-down check (R145). -/
def execBackfeedCheck (ch : Nat) (aboveBf belowEnd : Bool) (s : State) : Answer :=
  effect s (backfeedCheck s ch aboveBf belowEnd)

/-- Reverse current forces a channel that is on to 100 % duty (R146). -/
def reverseCurrent (s : State) (ch : Nat) : State :=
  if (chanOf s ch).driving then
    reportCause (s.onChan ch fun c => { c with forced := true }) ch 10 0
  else s

/-- Reverse current (R146). -/
def execReverseCurrent (ch : Nat) (s : State) : Answer := effect s (reverseCurrent s ch)

/-- The reverse current has ended: the cause ends, and the commanded duty returns at the next period start (R146). A channel that is commanded on
continuously has it already. -/
def reverseEnd (s : State) (ch : Nat) : State :=
  let s := endCause s ch 10
  s.onChan ch fun c => { c with forced := c.forced && d12 c.cmd != 4095 }

/-- The end of a reverse current (R146). -/
def execReverseEnd (ch : Nat) (s : State) : Answer := effect s (reverseEnd s ch)

/-- A channel's PWM period starts (R122): the commanded value takes effect and its on-phase begins, shortened by as much of a debt as it can give back
(R143); a forced duty whose cause has ended returns, to off too (R146). A change of PWM_HZ or PHASE takes effect here, and no on-phase begins before
the first period start of the new grid (DESIGN CHOICE, log entry 170). -/
def periodHs (s : State) (ch : Nat) : State :=
  let (hz, ph) := gridOf s ch
  if (chanOf s ch).driving ∧ periodPos hz ph s.now = 0 then
    let s := s.onChan ch fun c =>
      let forced := c.forced && c.cond.active.testBit 10
      let d := if d12 c.cmd = 0 then c.duty else d12 c.cmd
      let k := min c.debt (onTicks hz d)
      { c with
        duty := d, periods := c.periods + 1, debt := c.debt - k, shorten := k, forced := forced
        onUntil := s.now + (onTicks hz d - k) }
    updateChan s ch
  else s

/-! Load opcodes. -/

/-- SLOTS lies between two bounds. -/
def slotsIn (a b : Nat) (p : Packet) : Bool := a ≤ p.slotsField && p.slotsField ≤ b

/-- COUNT of the load opcodes that carry it in byte 16. -/
def setCount (p : Packet) : Nat := p.num 16 1

/-- The entries of LOAD.SET (Table 05.7): channel and value. -/
def loadSetEntries (p : Packet) : List (Nat × PVal) :=
  (List.range (setCount p)).map fun i => (p.num (24 + 4 * i) 1, BitVec.ofNat 16 (p.num (26 + 4 * i) 2))

/-- RESULT of a channel for a non-zero value, from its present condition (Table 05.8). Of a channel that is both locked and held, the lock is answered before the supply and
the supply before the temperature (DESIGN CHOICE, log entry 119). -/
def Cond.result (k : Cond) : Nat := if k.locks ≠ 0 then 3 else if k.supplyHeld then 1 else if k.holds.testBit 6 then 2 else 0

/-- RESULT of an entry (Table 05.8): by the condition that the power hall reported for the tick before. -/
def loadResult (s : State) (ch : Nat) (v : PVal) : Nat := if v = 0 then 0 else (chanOf s ch).told

/-- The power hall reports the condition of every channel for the tick that ends. -/
def tellConditions (s : State) : State := s.onLoad fun d => { d with ch := d.ch.map fun c => { c with told := c.cond.result } }

/-- The status a RESULT stands for (Table 05.8). -/
def resultStatus (r : Nat) : Status :=
  if r = 0 then .ok else if r = 1 then .supply else if r = 2 then .thermal else if r = 3 then .locked else .busy

/-- LOAD.SET's entries in order: state, RESULTs, and how many writes moved. -/
def loadSetRun (p : Packet) : List (Nat × PVal) → State → State × List Nat × Nat
  | [], s => (s, [], 0)
  | (ch, v) :: r, s =>
    let res := loadResult s ch v
    let (s, w) := directWrite s p (pointAt 80 ch) v
    let s := if v ≠ 0 ∧ w ≠ .discarded then
        s.onPlane fun q => { q with commanded := q.commanded ++ [(pointAt 80 ch, v)] } else s
    let (s, rs, m) := loadSetRun p r s
    (s, (if w = .discarded then 4 else res) :: rs, if w = .moved then m + 1 else m)

/-- The reply of LOAD.SET (Table 05.8). -/
def loadSetReply (rs : List Nat) : Reply :=
  (16, 1, (rs.filter (· != 4)).length) :: (List.range rs.length).map fun i => (24 + i, 1, rs.getD i 0)

/-- LOAD.SET (Table 05.7, R125). -/
def loadSetOp : Op where
  code := 0x0200
  fast := true
  slotsOk := slotsIn 1 4
  layout := fun p => (16, 0, 8) :: entryLayout 24 4 (min (setCount p) 56) [(0, 0, 8), (2, 0, 16)]
  bad := fun p _ => setCount p == 0 || 56 < setCount p || (64 * p.slots - 24) / 4 < setCount p ||
    (loadSetEntries p).any fun e => 55 < e.1
  deny := fun p s => !mayWrite s p.comp 80
  run := fun p s =>
    let (s, rs, m) := loadSetRun p (loadSetEntries p) s
    if m = 0 then
      { s := s, st := some (resultStatus ((rs.find? (· != 0)).getD 0)), reply := loadSetReply rs }
    else
      { s := s.onPoints fun q => { q with
          lateWriters := q.lateWriters ++ [{ p := p, left := m, pointWrite := false, noted := ranLate p s, reply := loadSetReply rs }] }
        st := none }

/-- LOAD.SET. -/
def execLoadSet (p : Packet) (s : State) : Answer := effect s (fastTake loadSetOp p s)

/-- READ in byte 16 and COUNT in byte 17. -/
def cfgCount (p : Packet) : Nat := p.num 17 1

/-- Record `i` of LOAD.CONFIG (Table 05.9). -/
def chCfgOf (p : Packet) (i : Nat) : ChCfg :=
  let b := 24 + 16 * i
  { slew := p.fld (b + 1) 0 2, thermPrio := p.fld (b + 1) 2 2, olOff := p.bit (b + 1) 4, olSense := p.fld (b + 1) 5 2
    pwmHz := p.num (b + 2) 2, phase := p.fld (b + 4) 0 4, retries := p.fld (b + 4) 4 3, inrushMs := p.num (b + 5) 1
    olOn := p.num (b + 6) 2, stretchN := p.num (b + 8) 2, wire := p.fld (b + 10) 0 3, rating := p.num (b + 11) 1 }

/-- The channels LOAD.CONFIG names. -/
def cfgChannels (p : Packet) : List Nat := (List.range (cfgCount p)).map fun i => p.num (24 + 16 * i) 1

/-- A record breaks a range of its channel's class (Tables 05.1, 05.9). -/
def ChCfg.bad (g : ChCfg) (ch : Nat) : Bool :=
  let (lo, hi) := match classOf ch with | .h => (5, 100) | .m => (2, 50) | .l => (10, 1200)
  g.slew == 3 || g.olSense == 3 || g.pwmHz < 100 || (if classOf ch = .l then 2000 else 1000) < g.pwmHz ||
    g.inrushMs == 0 || 50 < g.inrushMs || (g.olOn != 0 && (g.olOn < lo || hi < g.olOn)) ||
    (g.stretchN != 0 && (g.stretchN < 64 || 4096 < g.stretchN)) || g.rating < 50 || 150 < g.rating

/-- A record in a reply of LOAD.CONFIG (Table 05.9). -/
def chCfgReply (b ch : Nat) (g : ChCfg) : Reply :=
  [(b, 1, ch), (b + 1, 1, g.slew + 4 * g.thermPrio + 16 * b2n g.olOff + 32 * g.olSense), (b + 2, 2, g.pwmHz),
    (b + 4, 1, g.phase + 16 * g.retries), (b + 5, 1, g.inrushMs), (b + 6, 2, g.olOn), (b + 8, 2, g.stretchN),
    (b + 10, 1, g.wire), (b + 11, 1, g.rating)]

/-- A channel keeps its PWM grid until its next period start (R122). -/
def keepGrid (s : State) (ch : Nat) : State :=
  let (hz, ph) := gridOf s ch
  let t := nextPeriod s ch
  s.onChan ch fun c => { c with hz := hz, phase := ph, newAt := t }

/-- LOAD.CONFIG (Table 05.9). -/
def loadConfigOp : Op where
  code := 0x0201
  slotsOk := slotsIn 1 15
  layout := fun p => (16, 0, 1) :: (17, 0, 8) :: entryLayout 24 16 (min (cfgCount p) 56)
    (if p.bit 16 0 then [(0, 0, 8)]
     else [(0, 0, 8), (1, 0, 7), (2, 0, 16), (4, 0, 7), (5, 0, 8), (6, 0, 16), (8, 0, 16), (10, 0, 3), (11, 0, 8)])
  bad := fun p _ => cfgCount p == 0 || 56 < cfgCount p || (64 * p.slots - 24) / 16 < cfgCount p ||
    (cfgChannels p).any (fun ch => 55 < ch) || !(cfgChannels p).Nodup ||
    (!p.bit 16 0 && (List.range (cfgCount p)).any fun i => (chCfgOf p i).bad (p.num (24 + 16 * i) 1))
  deny := fun p s => !mayRead s p.comp 80
  run := fun p s =>
    let s := if p.bit 16 0 then s
      else
        let s := (cfgChannels p).foldl keepGrid s
        s.onStore fun st => { st with load := { st.load with
          ch := (List.range (cfgCount p)).foldl (fun v i => vmod v (p.num (24 + 16 * i) 1) fun _ => chCfgOf p i)
            st.load.ch } }
    { s := s
      reply :=
        (List.range (cfgCount p)).flatMap fun i =>
          let ch := p.num (24 + 16 * i) 1
          chCfgReply (24 + 16 * i) ch (chanCfg s ch) }

/-- LOAD.CONFIG. -/
def execLoadConfig (p : Packet) (s : State) : Answer := effect s (keeperTake loadConfigOp p s)

/-- CONDITION of a channel (Table 05.11). -/
def conditionCode (c : Chan) : Nat :=
  if c.cond.locks ≠ 0 then 3
  else if c.cond.holds ≠ 0 ∨ c.retryAt.isSome ∨ (c.cond.waiting ∧ d12 c.cmd ≠ 0) then 2
  else if c.driving then 1 else 0

/-- OL_RESULT of a channel (Table 05.11, R144). -/
def olResult (s : State) (ch : Nat) : Nat := if openNotPossible s ch then 2 else (chanOf s ch).ol.result

/-- One channel of LOAD.DIAG's reply (Table 05.11); `tj` is the junction temperature it reports. -/
def diagChannel (s : State) (i ch tj : Nat) : Reply :=
  let c := chanOf s ch
  let b := 56 + 16 * i
  [(b, 1, ch),
   (b + 1, 1, conditionCode c + 4 * b2n c.window.isSome + 8 * b2n c.limiting + 16 * b2n (stretchInUse s ch) +
     32 * b2n c.forced),
   (b + 2, 2, c.cond.active), (b + 4, 2, c.cond.latched), (b + 6, 2, sat16 c.iLoad),
   (b + 8, 1, olResult s ch + 4 * c.ol.method), (b + 9, 1, tj),
   (b + 10, 2, sat16 (windowEnergy s.now c.clamp / 100)), (b + 12, 1, sat8 (wirePercent c.wireX)),
   (b + 13, 1, c.restarts), (b + 14, 2, match c.window with | some w => (w.thaw s.now).ext | none => c.inrushExt)]

/-- The highest shed level in force on a bank (Table 05.11). -/
def shedLevel (b : Bank) : Nat :=
  if b.shed.testBit 3 then 3 else if b.shed.testBit 2 then 2 else if b.shed.testBit 1 then 1 else 0

/-- One bank of LOAD.DIAG's reply (Table 05.11). -/
def diagBank (s : State) (b : Nat) : Reply :=
  let x := bankAt s b
  [(24 + 8 * b, 2, sat16 (windowEnergy s.now x.clamp / 1000)),
   (26 + 8 * b, 1, shedLevel x + 4 * b2n x.dip + 8 * b2n x.diagOff + 16 * b2n x.drop + 32 * b2n x.overV),
   (28 + 8 * b, 2, x.dips), (30 + 8 * b, 2, sat16 (x.avgMa / 100))]

/-- The channel part of LOAD.DIAG's reply; the junction temperatures are free values (the manual gives no measurement of
them that a command carries). -/
def diagChannels (first : Nat) : Nat → Nat → State → Reply × State
  | 0, _, s => ([], s)
  | n + 1, i, s =>
    let (tj, s) := s.takeFree 8
    let (r, s') := diagChannels first n (i + 1) s
    (diagChannel s i (first + i) tj ++ r, s')

/-- LOAD.DIAG (Tables 05.10, 05.11). -/
def loadDiagOp : Op where
  code := 0x0202
  slotsOk := slotsIn 1 15
  layout := fun _ => [(16, 0, 8), (17, 0, 8), (18, 0, 1)]
  bad := fun p _ => 55 < p.num 16 1 || (64 * p.slots - 56) / 16 < p.num 17 1 || 56 < p.num 16 1 + p.num 17 1
  deny := fun p s => !mayRead s p.comp 80
  run := fun p s =>
    let f := p.num 16 1
    let n := p.num 17 1
    let m := s.load.mgr
    let (chans, s) := diagChannels f n 0 s
    let r : Reply := [(16, 2, sat16 (m.pAvg / 10)), (18, 2, pLim m.temp / 10), (20, 2, m.mgrCuts)] ++
      (List.range 4).flatMap (diagBank s) ++ chans
    let st := if (List.range n).any fun i => openNotPossible s (f + i) then Status.nodiag else .ok
    let s := if p.bit 18 0 then
        s.onLoad fun d => { d with
          ch := vmapIdx d.ch fun ch c => if f ≤ ch ∧ ch < f + n then
            { c with cond := { c.cond with latched := c.cond.active } } else c
          bank := d.bank.map fun b => { b with dips := 0 }
          mgr := { d.mgr with mgrCuts := 0 } }
      else s
    { s := s, st := some st, reply := r }

/-- LOAD.DIAG. -/
def execLoadDiag (p : Packet) (s : State) : Answer := effect s (keeperTake loadDiagOp p s)

/-- The end condition of a lock is met (Table 05.3, R134, R136, R137). -/
def lockEnds (s : State) (ch cause : Nat) : Bool :=
  let c := chanOf s ch
  if cause = 4 then
    if c.cond.clampDetail = 2 then windowEnergy s.now (bankAt s (bankOf ch)).clamp < 1000000
    else (liveBins s.now c.clamp).isEmpty
  else if cause = 5 then decide (c.wireX < 1 / 2)
  else if cause = 6 then c.cond.cool
  else true

/-- Every lock of a channel can be cleared. -/
def unlockable (s : State) (ch : Nat) : Bool :=
  (bitList 12 (chanOf s ch).cond.locks).all (lockEnds s ch)

/-- Clear the locks of a channel: its locking causes end, those of earlier retries too (R124, R130), and restart and retry counts return to 0 (R125,
R137). -/
def unlockChan (s : State) (ch : Nat) : State :=
  let s := (bitList 12 (chanOf s ch).cond.locks).foldl (fun s k =>
    (endCause s ch k).onCond ch fun c => c.unlock k) s
  let s := endCause (endCause s ch 7) ch 11
  s.onChan ch fun c => { c with restarts := 0, retriesDone := 0 }

/-- LOAD.UNLOCK's channels in ascending order: those unlocked, those that stay locked, and the outcomes of the writes. -/
def unlockRun (p : Packet) (restore : Bool) : List Nat → State → State × List Nat × List Nat × List WriteResult
  | [], s => (s, [], [], [])
  | ch :: r, s =>
    if (chanOf s ch).cond.locks = 0 then unlockRun p restore r s
    else if !unlockable s ch then
      let (s, a, b, d) := unlockRun p restore r s
      (s, a, ch :: b, d)
    else
      let s := unlockChan s ch
      let (s, w) :=
        if restore then
          (updateChan (if (chanOf s ch).cond.free then s.onCond ch fun k => { k with waiting := false } else s) ch, .applied)
        else directWrite s p (pointAt 80 ch) 0
      let (s, a, b, d) := unlockRun p restore r s
      (s, ch :: a, b, w :: d)

/-- A set of channels as a mask. -/
def maskOf (l : List Nat) : Nat := l.foldl (fun n k => n ||| 2 ^ k) 0

/-- LOAD.UNLOCK (Table 05.12): each write is a direct write of its issuer (R106); where one has moved the packet waits for it (R108). -/
def loadUnlockOp : Op where
  code := 0x0203
  layout := fun _ => [(16, 0, 56), (24, 0, 1)]
  deny := fun p s => !mayWrite s p.comp 80
  run := fun p s =>
    let (s, a, b, ws) := unlockRun p (p.bit 24 0) (bitList 56 (p.num 16 7)) s
    let reply : Reply := [(16, 7, maskOf a), (24, 7, maskOf b)]
    let moved := ws.count .moved
    if moved ≠ 0 then { s := waitMoved s p moved false reply, st := none }
    else { s := s, st := some (if !b.isEmpty then .locked else if ws.contains .discarded then .busy else .ok), reply := reply }

/-- LOAD.UNLOCK. -/
def execLoadUnlock (p : Packet) (s : State) : Answer := effect s (keeperTake loadUnlockOp p s)

/-- LOAD.FAILSTATE (Table 05.13, R68). The hold time is kept in the store and in the retention block, and the power die has
it for the holds that begin later. -/
def loadFailstateOp : Op where
  code := 0x0204
  slotsOk := fun p => if p.bit 16 0 then p.slotsField == 5 else slotsIn 1 5 p
  layout := fun p => (16, 0, 1) :: (17, 0, 8) :: (18, 0, 16) ::
    entryLayout 24 4 (min (cfgCount p) 60) [(0, 0, 8), (1, 0, 2), (2, 0, 16)]
  bad := fun p _ => 60 < cfgCount p || (64 * p.slots - 24) / 4 < cfgCount p || 300 < p.num 18 2 ||
    (p.bit 16 0 && (cfgCount p != 0 || p.num 18 2 != 0)) ||
    (List.range (cfgCount p)).any fun i =>
      59 < p.num (24 + 4 * i) 1 || (p.fld (25 + 4 * i) 0 2 != 3 && p.num (26 + 4 * i) 2 != 0)
  deny := fun p s => !mayRead s p.comp 80
  run := fun p s =>
    if p.bit 16 0 then
      { s := s
        reply := (18, 2, s.store.load.hold) :: (List.range 60).flatMap fun ch =>
          let f := vget s.store.load.fail ch
          [(24 + 4 * ch, 1, ch), (25 + 4 * ch, 1, f.mode), (26 + 4 * ch, 2, f.duty)] }
    else
      let h := if p.num 18 2 = 0 then s.store.load.hold else p.num 18 2
      let s := s.onStore fun st => { st with load := { st.load with
        hold := h
        fail := (List.range (cfgCount p)).foldl (fun v i => vmod v (p.num (24 + 4 * i) 1) fun _ =>
          { mode := p.fld (25 + 4 * i) 0 2, duty := p.num (26 + 4 * i) 2 }) st.load.fail } }
      { s := { s with ret := { s.ret with hold := h }, link := { s.link with holdTime := h } } }

/-- LOAD.FAILSTATE. -/
def execLoadFailstate (p : Packet) (s : State) : Answer := effect s (keeperTake loadFailstateOp p s)

end Sys2Proof.Machine
end

