-- ==== Sys2Proof/Machine/PatternOps.lean ====
section
/-! DEFINITION. The pattern engines (chapter 07): programs, updates, starts and stops. -/

namespace Sys2Proof.Machine

/-- Change the lighting state. -/
def State.onLight (s : State) (f : Light → Light) : State := { s with light := f s.light }

/-- Change pattern engine `e`. -/
def State.onEngine (s : State) (e : Nat) (f : Engine → Engine) : State :=
  s.onLight fun l => { l with engine := vmod l.engine e f }

/-- Pattern engine `e`. -/
def engineOf (s : State) (e : Nat) : Engine := vget s.light.engine e

/-- The program of an engine. -/
def patOf (s : State) (e : Nat) : Option PatProg := vget s.store.light.prog e

/-- The owner of an engine's program (R184). -/
def patternOwner (s : State) (e : Nat) : Option Nat := (patOf s e).map (·.owner)

/-- Target `i` of a program. -/
def PatProg.target (g : PatProg) (i : Nat) : Nat := g.start + i * g.stride

/-- The value `num / den` of the way from B to A, truncated toward B (R185). -/
def fromB (a b : Nat) (num den : Nat) : PVal :=
  BitVec.ofInt 16 ((b : Int) + Int.tdiv (((a : Int) - b) * num) den)

/-- w of BREATHE as DURATION − abs(2k − DURATION), over DURATION (Table 07.5). -/
def breatheW (k d : Nat) : Nat := d - ((2 * k - d) + (d - 2 * k))

/-- The value of target `i` at update `k` of a step, for OP 1–4 (Table 07.5). -/
def PatStep.value (x : PatStep) (count k i : Nat) : PVal :=
  let i := if x.dir then count - 1 - i else i
  let a := BitVec.ofNat 16 x.a
  let b := BitVec.ofNat 16 x.b
  if x.op = 1 then a
  else if x.op = 2 then
    let w := breatheW k x.duration
    if x.curve then fromB x.a x.b (w * w) (x.duration * x.duration) else fromB x.a x.b w x.duration
  else if x.op = 3 then
    if ((i : Int) - ((k : Int) - 1)) % (count : Int) < x.width then a else b
  else if i * x.duration < k * count then a else b

/-- The pattern write of an engine to a point (R186); it has no issuer (Table 04.7). -/
def enginePWrite (e pt : Nat) (v : PVal) : PWrite := { pt := pt, v := v, kind := .pattern, hall := 3, idx := 65536 + e }

/-- A pattern write (R186, R187): at most 1,024 in a tick; the others wait in order and are counted, and a newer value takes
the place of one that still waits. -/
def patWrite (s : State) (e : Nat) (pt : Nat) (v : PVal) : State :=
  if s.light.lag.any (fun l => l.engine == e && l.pt == pt) then
    s.onLight fun x => { x with
      lag := x.lag.map fun l => if l.engine = e ∧ l.pt = pt then { l with v := v } else l }
  else if v = pget s pt then s
  else if s.light.patNow < 1024 ∧ s.light.lag = [] then
    (writePoint (s.onLight fun x => { x with patNow := x.patNow + 1 }) (enginePWrite e pt v)).1
  else
    (s.onLight fun x => { x with lag := lagInsert { engine := e, pt := pt, v := v } x.lag }).onEngine e fun y =>
      { y with lagged := satAdd32 y.lagged 1 }

/-- The attached targets of an engine, in order. -/
def attached (s : State) (e : Nat) (g : PatProg) : List (Nat × Nat) :=
  ((List.range g.count).map fun i => (i, g.target i)).filter fun t => !(engineOf s e).detached.contains t.2

/-- PATTERN_END (Table 07.12), where POST_END asks. -/
def patternEndEvent (s : State) (e : Nat) (g : PatProg) (value : Nat) : State :=
  if g.postEnd then postEvent s (s.ev 3 0x0410 e value false g.owner) else s

/-- Where an engine stands after arriving at a step (R185): LOOP and END take no update. At most as many LOOPs are passed as
the program has room for; none means the engine stops. -/
def settle (g : PatProg) : Nat → Nat → Tbl Nat → Option (Nat × Tbl Nat)
  | 0, _, _ => none
  | n + 1, i, loops =>
    match g.steps[i]? with
    | none => none
    | some x =>
      if x.op = 0 then none
      else if x.op = 5 then
        let c := Tbl.get loops 0 i
        let c := (if c = 0 then x.width else c) - 1
        let loops := Tbl.put loops 0 i c
        if c ≠ 0 ∨ x.width = 0 then settle g n (x.b % 64) loops else settle g n (i + 1) loops
      else some (i, loops)

/-- LOOPs that one arrival can pass: each jump leads to a step of OP 1–4 before the next LOOP is met again. -/
def settleFuel : Nat := 4096

/-- An engine goes to a step; where the program ends it stops (R185, R186). -/
def enterStep (s : State) (e : Nat) (g : PatProg) (i : Nat) : State :=
  match settle g settleFuel i (engineOf s e).loops with
  | some (j, loops) => s.onEngine e fun x => { x with step := j, k := 0, loops := loops }
  | none => patternEndEvent (s.onEngine e fun x => { x with running := false, step := i }) e g 0

/-- Start an engine at a step (R188): its first update comes in this tick. -/
def startEngine (s : State) (e : Nat) (g : PatProg) (step : Nat) (reattach : Bool) : State :=
  let s := s.onEngine e fun x => { x with
    running := true, step := step, k := 0, loops := [], nextAt := s.plane.lin
    detached := if reattach then [] else x.detached }
  enterStep s e g step

/-- Stop an engine in this tick (R188). -/
def stopEngine (s : State) (e : Nat) (g : PatProg) (value : Nat) (zero : Bool) : State :=
  if (engineOf s e).running then
    let s := s.onEngine e fun x => { x with running := false }
    let s := if zero then (attached s e g).foldl (fun s t => patWrite s e t.2 0) s else s
    patternEndEvent s e g value
  else s

/-- A reflex PATTERN action (R119, R188): the answer is false where the program does not exist. -/
def reflexPattern (s : State) (e : Nat) (start : Bool) : State × Bool :=
  match patOf s e with
  | none => (s, false)
  | some g => (if start then startEngine s e g 0 false else stopEngine s e g 2 false, true)

/-- Waiting pattern writes are applied first, at most 1,024 in a tick (R187); one that no longer differs is not written. -/
def lagStep (s : State) : State :=
  let n := 1024 - s.light.patNow
  let l := s.light.lag
  let s := s.onLight fun x => { x with lag := l.drop n }
  (l.take n).foldl (fun s w =>
    if w.v = pget s w.pt then s
    else (writePoint (s.onLight fun x => { x with patNow := x.patNow + 1 }) (enginePWrite w.engine w.pt w.v)).1) s

/-- An engine makes an update in this tick (R186). -/
def updateDue (s : State) (e : Nat) : Bool :=
  s.plane.running && (patOf s e).isSome && (engineOf s e).running && (engineOf s e).nextAt ≤ s.plane.lin

/-- A running engine makes an update when it is due (R186): after the writes that wait from earlier ticks (R187) it writes its targets in order, and
goes on to the next step after DURATION updates. -/
def patternUpdate (s : State) (e : Nat) : State :=
  let s := if updateDue s e then lagStep s else s
  let x := engineOf s e
  match patOf s e with
  | none => s
  | some g =>
    if s.plane.running ∧ x.running ∧ x.nextAt ≤ s.plane.lin then
      let st := (g.steps[x.step]?).getD {}
      let k := x.k + 1
      let s := (attached s e g).foldl (fun s t => patWrite s e t.2 (st.value g.count k t.1)) s
      let s := s.onEngine e fun x => { x with k := k, nextAt := s.plane.lin + g.update }
      if st.duration ≤ k then enterStep s e g (x.step + 1) else s
    else s

/-- Every engine that is due makes its update, in ascending order, after the writes that wait (R187). -/
def patternUpdates (s : State) : State := (List.range 32).foldl patternUpdate (lagStep s)

/-- The turn of an engine (R187): the packets of the tick have taken effect, and no engine before it is due. -/
def engineTurn (s : State) (e : Nat) : Bool := packetsDone s && (List.range (min e 32)).all fun i => !updateDue s i

end Sys2Proof.Machine
end

