-- ==== Sys2Proof/Machine/Patterns.lean ====
section
/-! DEFINITION. The commands of the pattern engines (chapter 07). -/

namespace Sys2Proof.Machine

/-- A running pattern engine makes an update (R186), in its turn. -/
def execPatternUpdate (e : Nat) (s : State) : Answer := effect s (if engineTurn s e then patternUpdate s e else s)

/-- Pattern writes beyond 1,024 in a tick are applied in the next (R187). -/
def execPatternWriteDeferred (s : State) : Answer := effect s (if packetsDone s then lagStep s else s)

/-- A point may be a pattern target (R184). -/
def patternTarget (pt : Nat) : Bool :=
  let g := gallery pt
  let n := position pt
  g < 64 || (g == 80 && (n < 56 || (300 ≤ n && n < 364))) || (g == 82 && 100 ≤ n && n < 108) || (84 ≤ g && g < 96)

/-- Step `i` of PATTERN.LOAD (Table 07.4). -/
def patStepOf (p : Packet) (i : Nat) : PatStep :=
  let b := 40 + 8 * i
  { op := p.fld b 0 4, dir := p.bit b 4, curve := p.bit b 5, width := p.num (b + 1) 1, a := p.num (b + 2) 2
    b := p.num (b + 4) 2, duration := p.num (b + 6) 2 }

/-- The program of PATTERN.LOAD (Table 07.14). -/
def patProgOf (p : Packet) : PatProg :=
  { owner := p.comp, start := p.fld 24 0 19, count := p.num 28 2, stride := p.num 30 1, update := p.num 32 4
    postEnd := p.bit 36 0, steps := (List.range (p.num 31 1)).map (patStepOf p) }

/-- A step breaks Tables 07.4 and 07.5, or a LOOP breaks R185. DIR is free in every step: it acts in CHASE and SWEEP. -/
def patStepBad (l : List PatStep) (i : Nat) : Bool :=
  let x := (l[i]?).getD {}
  match x.op with
  | 0 => x.curve || x.width != 0 || x.duration != 0
  | 1 => x.curve || x.width != 0 || x.duration == 0
  | 2 => x.width != 0 || x.duration == 0
  | 3 => x.curve || x.width == 0 || x.duration == 0
  | 4 => x.curve || x.width != 0 || x.duration == 0
  | 5 => x.curve || 64 ≤ x.b || x.duration != 0 || i ≤ x.b ||
      !((l.drop x.b).take (i - x.b)).any fun y => 1 ≤ y.op && y.op ≤ 4
  | _ => true

/-- A program breaks a range of Table 07.14 or R184. -/
def PatProg.bad (g : PatProg) : Bool :=
  g.count == 0 || 4096 < g.count || g.stride == 0 || 16 < g.stride || g.steps == [] || 64 < g.steps.length ||
    g.update < 80 || 800000 < g.update || gallery (g.target (g.count - 1)) != gallery g.start ||
    (List.range g.count).any (fun i => !patternTarget (g.target i)) ||
    (List.range g.steps.length).any (patStepBad g.steps)

/-- A step as PATTERN.LOAD returns it. -/
def patStepReply (b : Nat) (x : PatStep) : Reply :=
  [(b, 1, x.op + 16 * b2n x.dir + 32 * b2n x.curve), (b + 1, 1, x.width), (b + 2, 2, x.a), (b + 4, 2, x.b),
    (b + 6, 2, x.duration)]

/-- PATTERN.LOAD (Table 07.14). -/
def patternLoadOp : Op where
  code := 0x0411
  slotsOk := slotsIn 1 9
  layout := fun p => (16, 0, 5) :: (17, 0, 2) ::
    (if p.bit 17 1 then []
     else (24, 0, 19) :: (28, 0, 16) :: (30, 0, 8) :: (31, 0, 8) :: (32, 0, 32) :: (36, 0, 1) ::
       entryLayout 40 8 (min (p.num 31 1) 64) [(0, 0, 6), (1, 0, 8), (2, 0, 16), (4, 0, 16), (6, 0, 16)])
  bad := fun p _ => !p.bit 17 0 && !p.bit 17 1 &&
    (64 * p.slots < 40 + 8 * p.num 31 1 || (patProgOf p).bad)
  deny := fun p s =>
    (p.comp != 0 && (match patternOwner s (p.fld 16 0 5) with | some o => o != p.comp | none => false)) ||
      (!p.bit 17 0 && !p.bit 17 1 && !mayWrite s p.comp (gallery (p.fld 24 0 19)))
  run := fun p s =>
    let e := p.fld 16 0 5
    if p.bit 17 0 then
      let x := engineOf s e
      { s := s
        reply := (16, 1, e) :: (17, 1, 1 + 4 * b2n x.running) :: (18, 1, x.step) :: (20, 4, x.lagged) ::
          match patOf s e with
          | none => []
          | some g => (19, 1, g.owner) :: (24, 4, g.start) :: (28, 2, g.count) :: (30, 1, g.stride) ::
              (31, 1, g.steps.length) :: (32, 4, g.update) :: (36, 1, b2n g.postEnd) ::
              (List.range g.steps.length).flatMap fun i => patStepReply (40 + 8 * i) ((g.steps[i]?).getD {}) }
    else if (engineOf s e).running then { s := s, st := some .busy }
    else
      let g := if p.bit 17 1 then none else some (patProgOf p)
      { s := (s.onStore fun st => { st with light := { st.light with prog := vmod st.light.prog e fun _ => g } }).onEngine e
          fun _ => {} }

/-- PATTERN.LOAD. -/
def execPatternLoad (p : Packet) (s : State) : Answer := effect s (keeperTake patternLoadOp p s)

/-- PATTERN.RUN (Table 07.15, R188). -/
def patternRunOp : Op where
  code := 0x0412
  fast := true
  layout := fun _ => [(16, 0, 5), (17, 0, 2), (18, 0, 6)]
  bad := fun p _ => p.bit 17 0 && p.fld 18 0 6 != 0
  deny := fun p s => p.comp != 0 && (match patternOwner s (p.fld 16 0 5) with | some o => o != p.comp | none => false)
  agree := fun p s _ => match patOf s (p.fld 16 0 5) with
    | none => false
    | some g => p.bit 17 0 || p.fld 18 0 6 < g.steps.length
  run := fun p s =>
    let e := p.fld 16 0 5
    let x := engineOf s e
    let g := (patOf s e).getD {}
    { s := if p.bit 17 0 then stopEngine s e g 1 (p.bit 17 1) else startEngine s e g (p.fld 18 0 6) true
      reply := [(16, 1, b2n x.running), (17, 1, x.step)] }

/-- PATTERN.RUN. -/
def execPatternRun (p : Packet) (s : State) : Answer := effect s (fastTake patternRunOp p s)

end Sys2Proof.Machine
end

