-- ==== Sys2Proof/Machine/Strings.lean ====
section
/-! DEFINITION. The LED strings (chapter 07): segments, converters, faults, and STRING.CONFIG. -/

namespace Sys2Proof.Machine

/-- String `n` on the power die. -/
def stringOf (s : State) (n : Nat) : Strg := vget s.light.string n

/-- Settings of string `n`. -/
def stringCfg (s : State) (n : Nat) : StringCfg := vget s.store.light.string n

/-- Change string `n`. -/
def State.onString (s : State) (n : Nat) (f : Strg → Strg) : State :=
  s.onLight fun l => { l with string := vmod l.string n f }

/-- Change the condition of string `n`. -/
def State.onStrCond (s : State) (n : Nat) (f : Cond → Cond) : State :=
  s.onString n fun x => { x with cond := f x.cond }

/-- P of a segment in ticks (R178). -/
def segPeriod (hz : Nat) : Nat := 8000000 / hz

/-- OFFSET_k (R178). -/
def segOffset (spread : Bool) (hz k : Nat) : Nat := if spread then k * segPeriod hz / 16 else 0

/-- T_on in ticks (R178). -/
def segOn (hz duty : Nat) : Nat := segPeriod hz * duty / 4095

/-- The phase of a segment in its period at a tick (R178). -/
def segPhase (k : Nat) (x : Seg) (t : Nat) : Nat := (t + segPeriod x.hz - segOffset x.spread x.hz k) % segPeriod x.hz

/-- A segment takes its settings and its value (R178). -/
def takeSeg (g : StringCfg) (k : Nat) (x : Seg) : Seg :=
  { x with duty := d12 x.cmd, hz := g.pwmHz, spread := g.spread, fitted := g.usedMask.testBit k, vf := vget g.vf k }

/-- What is in effect on segment `k` in tick `t`, the present one or the next: at a period start it takes its settings and its value. -/
def segAt (s : State) (n k t : Nat) : Seg :=
  let x := vget (stringOf s n).seg k
  if s.now < t ∧ segPhase k x t = 0 then takeSeg (stringCfg s n) k x else x

/-- The on-phase of a segment (R122, R178): the first one from its turning on, then those of its periods; without a pause at 4,095. -/
def Seg.onPhase (k : Nat) (x : Seg) (t : Nat) : Bool :=
  x.duty == 4095 || (if t < x.gridFrom then t < x.firstEnd else segPhase k x t < segOn x.hz x.duty)

/-- Segment `k` of string `n` is lit in tick `t`, the present one or the next (R178, R182): its bypass is open. -/
def segLit (s : State) (n k t : Nat) : Bool :=
  let x := stringOf s n
  let g := segAt s n k t
  x.running && x.stopAt.isNone && g.fitted && !x.segOpen.testBit k && g.onPhase k t

/-- The set of lit segments of string `n` in tick `t`, as a mask. -/
def litSet (s : State) (n t : Nat) : Nat := maskOf ((List.range 16).filter fun k => segLit s n k t)

/-- V_T in 0.1 V that the converter is handed in the present tick (R180): for the set lit in the next, at least 4.0 V. -/
def stringTarget (s : State) (n : Nat) : Nat :=
  let t := s.now + 1
  max 40 ((((List.range 16).filter fun k => segLit s n k t).map fun k => (segAt s n k t).vf).sum + 20)

/-- Some used segment of a string has a non-zero D12 (R179). -/
def anyLitCmd (s : State) (n : Nat) : Bool :=
  (List.range 16).any fun k => (stringCfg s n).usedMask.testBit k && d12 (vget (stringOf s n).seg k).cmd != 0

/-- The string may run (R179): enabled, neither held nor locked, and not waiting to be commanded again. -/
def stringAllowed (s : State) (n : Nat) : Bool :=
  let c := (stringOf s n).cond
  (stringCfg s n).enable && c.free && !c.waiting

/-- A segment turns on, or changes from or to 0 or 4,095, in the present tick (R122): one that turns on is lit from here for T_on or until its next period
start, and one that goes from 4,095 to a PWM value follows its period from here. -/
def turnSeg (now k : Nat) (x : Seg) : Seg :=
  let left := segPeriod x.hz - segPhase k x now
  if x.duty = 0 ∨ !x.fitted then { x with duty := d12 x.cmd, firstEnd := now + segOn x.hz (d12 x.cmd), gridFrom := now + left }
  else { x with duty := d12 x.cmd, gridFrom := if x.duty = 4095 then now else x.gridFrom }

/-- Bring a string's converter in line with its settings, its condition and its segments (R179): a start opens a soft-start
window; when the last segment goes to 0 it runs on for 8,000 ticks. -/
def updateString (s : State) (n : Nat) : State :=
  let x := stringOf s n
  let g := stringCfg s n
  if !stringAllowed s n then
    s.onString n fun x => { x with running := false, soft := none, stopAt := none }
  else if anyLitCmd s n then
    if x.running then s.onString n fun x => { x with stopAt := none }
    else
      let w := startWindow s 3 g.softMs
      noteFreeze (s.onString n fun x => { x with
        running := true, soft := some w, stopAt := none
        seg := vmapIdx x.seg fun k y => turnSeg s.now k { takeSeg g k y with duty := 0 } }) 3
  else if x.running ∧ x.stopAt.isNone then s.onString n fun x => { x with stopAt := some (s.now + 8000) }
  else s

/-- The L2 frame commands a segment (R178): a change to or from 0 or 4,095 takes effect now, and a non-zero value commands a
string that waits after a hold (R125). A segment outside USED ignores its point. -/
def commandSeg (s : State) (n k : Nat) (v : PVal) : State :=
  let old := d12 (vget (stringOf s n).seg k).cmd
  let used := (stringCfg s n).usedMask.testBit k
  let s := s.onString n fun x => { x with
    seg := vmod x.seg k fun g =>
      let g := { g with cmd := v }
      if old = 0 ∨ old = 4095 ∨ d12 v = 0 ∨ d12 v = 4095 then turnSeg s.now k g else g }
  if used then
    let s := if d12 v ≠ 0 ∧ (stringOf s n).cond.free then leaveQueue (s.onStrCond n fun c => { c with waiting := false }) (56 + n)
             else s
    updateString s n
  else s

/-- A segment's period starts: its value and the settings take effect (R178). -/
def periodLs (s : State) (n : Nat) : State :=
  let g := stringCfg s n
  s.onString n fun x => { x with
    seg := vmapIdx x.seg fun k y => if segPhase k y s.now = 0 then { takeSeg g k y with gridFrom := s.now } else y }

/-- Report a string fault (R182): LOAD_FAULT as channel 56 + n where it is new. -/
def reportString (s : State) (n cause detail : Nat) (fresh : Bool) : State :=
  let s := s.onStrCond n (·.report cause)
  if fresh then loadEvent (bump s 0x0D (56 + n) 1) 0x0201 (56 + n) (cause + 256 * detail) else s

/-- A string fault ends: LOAD_CLEAR. -/
def endString (s : State) (n cause : Nat) : State :=
  if (stringOf s n).cond.active.testBit cause then
    loadEvent (s.onStrCond n (·.clear cause)) 0x0202 (56 + n) cause
  else s

/-- A cause has become active on a string as a whole. -/
def freshString (s : State) (n cause : Nat) : Bool := !(stringOf s n).cond.active.testBit cause

/-- Lock a string: its converter goes off (Table 07.3). -/
def lockString (s : State) (n cause detail : Nat) : State :=
  let s := reportString s n cause detail (!(stringOf s n).cond.locks.testBit cause)
  bumpSnapshot (updateString (s.onStrCond n (·.lock cause)) n)

/-- Hold a string with a cause (R55, R182). -/
def holdString (s : State) (n cause detail : Nat) : State :=
  let s := reportString s n cause detail (freshString s n cause)
  bumpSnapshot (updateString (s.onStrCond n (·.hold cause)) n)

/-- A hold of a string ends; it waits until a rule or a command returns it. -/
def endHoldString (s : State) (n cause : Nat) : State :=
  if (stringOf s n).cond.holds.testBit cause then
    let s := endString s n cause
    s.onStrCond n fun c =>
      let k := c.endHold cause
      { k with waiting := k.waiting && (anyLitCmd s n || !k.free) }
  else s

/-- A rule returns a string (R56, R179): with a new soft start and LOAD_RESUME where it turns on. -/
def resumeString (s : State) (n cause : Nat) : State :=
  if (stringOf s n).cond.free then
    let s := s.onStrCond n fun k => { k with waiting := false }
    let s := if stringAllowed s n ∧ anyLitCmd s n ∧ !(stringOf s n).running then loadEvent s 0x0203 (56 + n) cause else s
    updateString s n
  else s

/-- The soft-start window of a string ends: its current must be within 10 % of the setting (Table 07.3). -/
def softEnd (s : State) (n mA : Nat) : State :=
  match (stringOf s n).soft with
  | none => s
  | some w =>
    if w.endAt s.now ≤ s.now then
      let s := s.onString n fun x => { x with soft := none }
      let i := (stringCfg s n).current
      if mA * 10 < i * 9 ∨ i * 11 < mA * 10 then lockString s n 11 0 else s
    else s

/-- A soft-start window ends (R179, R182). -/
def execStringSoftStartEnd (n mA : Nat) (s : State) : Answer := effect s (softEnd s n mA)

/-- The converter stops 8,000 ticks after its last segment went to 0 (R179). -/
def converterStop (s : State) (n : Nat) : State :=
  match (stringOf s n).stopAt with
  | some t => if t ≤ s.now then s.onString n fun x => { x with running := false, soft := none, stopAt := none } else s
  | none => s

/-- A converter stops (R179). -/
def execStringConverterStop (n : Nat) (s : State) : Answer := effect s (converterStop s n)

/-- A converter's junction reaches T_SD (Table 07.3, R137). -/
def thermalLs (s : State) (n : Nat) : State :=
  if (stringOf s n).running then
    let s := s.onString n fun x => { x with lastShutdown := s.now, cond := { x.cond with cool := false } }
    if (stringOf s n).restarts < 16 then holdString s n 6 0
    else lockString (s.onStrCond n fun c => { c with thermDetail := 2 }) n 6 2
  else s

/-- A converter has cooled by 15 K and restarts (Table 07.3, R137); the restart counts where it runs again. -/
def thermalRestartLs (s : State) (n : Nat) : State :=
  let s := s.onStrCond n fun k => { k with cool := true }
  if (stringOf s n).cond.holds.testBit 6 then
    let s := resumeString (endHoldString s n 6) n 6
    s.onString n fun x => { x with restarts := x.restarts + b2n x.running }
  else s

/-- Ten seconds without a shutdown of a converter (R137). -/
def restartResetLs (s : State) (n : Nat) : State :=
  if (stringOf s n).lastShutdown + 80000000 ≤ s.now then s.onString n fun x => { x with restarts := 0 } else s

/-- A segment of a string is found open: its bypass is closed and latched, and it leaves V_T (Table 07.3). -/
def openSegment (s : State) (n k : Nat) : State :=
  let x := stringOf s n
  if x.running ∧ k < 16 ∧ (vget x.seg k).fitted then
    let fresh := !x.segOpen.testBit k
    bumpSnapshot (reportString (s.onString n fun x => { x with segOpen := setBit x.segOpen k true }) n 8 (16 + k) fresh)
  else s

/-- A shorted segment is reported, with SEG_DIAG (Table 07.3). -/
def shortSegment (s : State) (n k : Nat) : State :=
  let x := stringOf s n
  if (stringCfg s n).segDiag ∧ x.running ∧ k < 16 ∧ (vget x.seg k).fitted then
    let fresh := !x.segShort.testBit k
    reportString (s.onString n fun x => { x with segShort := setBit x.segShort k true }) n 7 (16 + k) fresh
  else s

/-- A shorted segment measures well again (Table 07.3). -/
def endShortSegment (s : State) (n k : Nat) : State :=
  if (stringOf s n).segShort.testBit k then
    let s := s.onString n fun x => { x with segShort := setBit x.segShort k false }
    if (stringOf s n).segShort = 0 ∧ !(stringOf s n).cond.locks.testBit 7 then endString s n 7
    else loadEvent s 0x0202 (56 + n) 7
  else s

/-- A fault cause of Table 07.3 that is the string's own becomes active or ends; segments have the details 0x10 + k. -/
def stringFault (s : State) (n cause detail : Nat) (active : Bool) : State :=
  if active then
    if cause = 8 then
      if detail = 0 then
        if (stringOf s n).running ∧ (stringOf s n).soft.isNone then lockString s n 8 0 else s
      else if 16 ≤ detail then openSegment s n (detail - 16) else s
    else if cause = 7 then
      if detail = 0 then (if (stringOf s n).running then lockString s n 7 0 else s)
      else if 16 ≤ detail then shortSegment s n (detail - 16) else s
    else if cause = 6 then thermalLs s n
    else if cause = 11 then (if (stringOf s n).running then lockString s n 11 0 else s)
    else s
  else if cause = 7 ∧ 16 ≤ detail then endShortSegment s n (detail - 16)
  else if cause = 6 then thermalRestartLs s n
  else s

/-- The switch current of a converter exceeds 6 A (Table 07.3). -/
def hardShortLs (s : State) (n mA : Nat) : State := if 6000 < mA then stringFault s n 7 0 true else s

/-- Clear the locks and segment latches of a string whose end conditions are met; the answer says that it stays locked. -/
def unlockString (s : State) (n : Nat) : State × Bool :=
  let x := stringOf s n
  let stays := x.cond.locks.testBit 6 && !x.cond.cool
  let s := s.onString n fun x => { x with segOpen := 0 }
  let gone := (bitList 12 x.cond.locks).filter fun k => !(k = 6 && stays)
  let s := gone.foldl (fun s k =>
    (if k = 7 ∧ (stringOf s n).segShort ≠ 0 then loadEvent s 0x0202 (56 + n) 7 else endString s n k).onStrCond n fun c =>
      { c with locks := setBit c.locks k false }) s
  let s := if x.cond.locks.testBit 8 then s else endString s n 8
  let s := if gone = [] then s else s.onString n fun x => { x with restarts := 0, cond := { x.cond with
    waiting := x.cond.holds != 0 } }
  (updateString s n, stays)

/-- Records of STRING.CONFIG. -/
def strCount (p : Packet) : Nat := p.num 17 1

/-- The string of record `i`. -/
def strIx (p : Packet) (i : Nat) : Nat := p.fld (24 + 32 * i) 0 2

/-- Record `i` of STRING.CONFIG (Table 07.13). -/
def stringCfgOf (p : Packet) (i : Nat) : StringCfg :=
  let b := 24 + 32 * i
  { enable := p.bit b 2, spread := p.bit b 3, segDiag := p.bit b 4, softMs := p.num (b + 1) 1, current := p.num (b + 2) 2
    pwmHz := p.num (b + 4) 2, usedMask := p.num (b + 6) 2, vf := vtab 16 fun k => p.num (b + 8 + k) 1 }

/-- A record breaks a range of Table 07.13. -/
def StringCfg.bad (g : StringCfg) : Bool :=
  g.softMs == 0 || 50 < g.softMs || g.current < 50 || 700 < g.current || g.pwmHz < 250 || 2000 < g.pwmHz ||
    (List.range 16).any fun k =>
      if g.usedMask.testBit k then vget g.vf k < 20 || 140 < vget g.vf k else vget g.vf k != 0

/-- R181: the used segments and V_HEAD fit within 52.0 V. -/
def StringCfg.fits (g : StringCfg) : Bool :=
  (((List.range 16).filter fun k => g.usedMask.testBit k).map fun k => vget g.vf k).sum + 20 ≤ 520

/-- A record in a reply of STRING.CONFIG. -/
def stringReply (b n : Nat) (g : StringCfg) : Reply :=
  [(b, 1, n + 4 * b2n g.enable + 8 * b2n g.spread + 16 * b2n g.segDiag), (b + 1, 1, g.softMs), (b + 2, 2, g.current),
    (b + 4, 2, g.pwmHz), (b + 6, 2, g.usedMask)] ++ (List.range 16).map fun k => (b + 8 + k, 1, vget g.vf k)

/-- STRING.CONFIG (Table 07.13). -/
def stringConfigOp : Op where
  code := 0x0410
  slotsOk := slotsIn 1 3
  layout := fun p => (16, 0, 1) :: (17, 0, 8) :: (18, 0, 4) :: entryLayout 24 32 (min (strCount p) 4)
    ([(0, 0, 5), (1, 0, 8), (2, 0, 16), (4, 0, 16), (6, 0, 16)] ++ (List.range 16).map fun k => (8 + k, 0, 8))
  bad := fun p _ => 4 < strCount p || (64 * p.slots - 24) / 32 < strCount p ||
    !((List.range (strCount p)).map (strIx p)).Nodup ||
    (!p.bit 16 0 && (List.range (strCount p)).any fun i => (stringCfgOf p i).bad)
  deny := fun p s => !mayWrite s p.comp 80
  agree := fun _ _ s => (List.range 4).all fun n => (stringCfg s n).fits
  run := fun p s =>
    let s := if p.bit 16 0 then s
      else (List.range (strCount p)).foldl (fun s i =>
        updateString (s.onStore fun st => { st with light := { st.light with
          string := vmod st.light.string (strIx p i) fun _ => stringCfgOf p i } }) (strIx p i)) s
    let (s, stay) := (bitList 4 (p.fld 18 0 4)).foldl (fun a n =>
      let (s, k) := unlockString a.1 n
      (s, if k then a.2 ++ [n] else a.2)) (s, [])
    { s := s
      st := some (if stay.isEmpty then .ok else .locked)
      reply := (18, 1, maskOf stay) ::
        (List.range (strCount p)).flatMap fun i => stringReply (24 + 32 * i) (strIx p i) (stringCfg s (strIx p i)) }

/-- STRING.CONFIG. -/
def execStringConfig (p : Packet) (s : State) : Answer := effect s (keeperTake stringConfigOp p s)

end Sys2Proof.Machine
end

