-- ==== Sys2Proof/Machine/IvgalOps.lean ====
section
/-! DEFINITION. The Ivgal links (chapter 07): the frames the device sends, and what comes back. -/

namespace Sys2Proof.Machine

/-- Link `n`. -/
def linkOf (s : State) (n : Nat) : IvgLink := vget s.light.ivg n

/-- Settings of link `n`. -/
def linkCfg (s : State) (n : Nat) : IvgCfg := vget s.store.light.ivg n

/-- Change link `n`. -/
def State.onIvg (s : State) (n : Nat) (f : IvgLink → IvgLink) : State :=
  s.onLight fun l => { l with ivg := vmod l.ivg n f }

/-- The satellites of a link's stored table. -/
def satsOf (s : State) (n : Nat) : List Sat := (linkCfg s n).table.getD []

/-- What the device keeps of a satellite. -/
def satRun (s : State) (n a : Nat) : SatRun := Tbl.get (linkOf s n).sat {} a

/-- Change what the device keeps of a satellite. -/
def State.onSat (s : State) (n a : Nat) (f : SatRun → SatRun) : State :=
  s.onIvg n fun l => { l with sat := Tbl.put l.sat {} a (f (Tbl.get l.sat {} a)) }

/-- The links run in Lantern and Beam, up to the device commit tick (R202, R283). -/
def linksUp (s : State) : Bool := s.plane.running && (s.seq.state == .lantern || s.seq.state == .beam) && s.sleep.darkCommit.isNone

/-- A point value as a format carries it (R193). -/
def formatted (fmt : Nat) (v : PVal) : Nat :=
  if fmt = 0 then v.toNat / 256 else if fmt = 1 then v.toNat / 16 else v.toNat

/-- Values packed in a format, most significant byte first; 12-bit values go two to three bytes (R193). -/
def packValues (fmt : Nat) : List Nat → List Byte
  | [] => []
  | [a] => if fmt = 0 then beBytes 1 a else if fmt = 1 then beBytes 2 (a * 16) else beBytes 2 a
  | a :: b :: r =>
    if fmt = 1 then beBytes 3 (a * 4096 + b) ++ packValues fmt r
    else beBytes (if fmt = 0 then 1 else 2) a ++ packValues fmt (b :: r)

/-- A share: LEN with its parity, the payload, and CRC-16 over both (R193). -/
def shareBytes (delta : Bool) (payload : List Byte) : List Byte :=
  let len := payload.length % 16384 + 16384 * b2n delta
  let len := if ones 15 len % 2 = 1 then len else len + 32768
  let body := beBytes 2 len ++ payload
  body ++ beBytes 2 (crc16 body)

/-- The header of a frame with its CRC-8 (Table 07.7). -/
def ivgHeader (type seq : Nat) (sleep : Bool) : List Byte :=
  let h := beBytes 1 (type * 16 + seq % 16) ++ beBytes 1 (b2n sleep) ++ beBytes 1 0
  h ++ beBytes 1 (crc8 h)

/-- The END marker with COUNT 0 (R193). -/
def endMarker : List Byte := beBytes 3 0xFFFF00

/-- The code of a frame type (Table 07.7). -/
def IvgType.code : IvgType → Nat
  | .data => 1
  | .enum => 2
  | .setup => 3

/-- A run of changed points: its first offset and its length; runs separated by fewer than 3 unchanged points are joined
(R199). `cur` is the run in progress. -/
def deltaRuns (changed : List Nat) : Option (Nat × Nat) → List (Nat × Nat) :=
  match changed with
  | [] => fun cur => cur.toList
  | i :: r => fun cur =>
    match cur with
    | none => deltaRuns r (some (i, 1))
    | some (a, n) => if i < a + n + 3 then deltaRuns r (some (a, i - a + 1)) else (a, n) :: deltaRuns r (some (i, 1))

/-- The payload of a DELTA share: each run with its 3-byte header (R193). -/
def deltaPayload (fmt : Nat) (vals : List Nat) (runs : List (Nat × Nat)) : List Byte :=
  runs.flatMap fun r => beBytes 3 (r.1 * 4096 + (r.2 - 1)) ++ packValues fmt ((vals.drop r.1).take r.2)

/-- The formatted values of a satellite's points now: the send copy of R199. -/
def satValues (s : State) (n : Nat) (x : Sat) : List Nat :=
  (List.range x.points).map fun i => formatted x.format (pget s (pointAt (4 * n) 0 + x.base + i))

/-- The offsets whose formatted value differs from the previous copy. -/
def changedFrom (old new : List Nat) : List Nat :=
  (List.range new.length).filter fun i => old[i]? != new[i]?

/-- The share of one satellite is FULL (R199). -/
def shareFull (s : State) (n : Nat) (x : Sat) : Bool :=
  let e := (linkCfg s n).fullEvery
  (satRun s n x.address).fullDue || (satRun s n x.address).lacked || (e != 0 && (linkOf s n).frame % e == 0)

/-- The DATA share of one satellite (R199). -/
def dataShare (s : State) (n : Nat) (x : Sat) : List Byte :=
  let v := satValues s n x
  if shareFull s n x then shareBytes false (packValues x.format v)
  else
    let ch := changedFrom (satRun s n x.address).copy v
    if ch.isEmpty then shareBytes false [] else shareBytes true (deltaPayload x.format v (deltaRuns ch none))

/-- LOSS_TIME in ms (R199). -/
def lossTime (period : Nat) : Nat := max 2 ((3 * period + 7999) / 8000)

/-- The SETUP payload of a satellite (Table 07.10); FAIL_TIME counts 10 ms. -/
def setupPayload (period : Nat) (x : Sat) : List Byte :=
  beBytes 1 (x.format + 4 * x.failMode) ++ beBytes 1 x.address ++ beBytes 2 x.failLevel ++ beBytes 2 (10 * x.failTime) ++
    beBytes 2 (lossTime period)

/-- The shares of a frame, in ring order (R193). -/
def frameShares (s : State) (n : Nat) (t : IvgType) : List Byte :=
  match t with
  | .enum => []
  | .setup => (satsOf s n).flatMap fun x =>
      shareBytes false (if (satRun s n x.address).setupDue then setupPayload (linkCfg s n).period x else [])
  | .data => (satsOf s n).flatMap (dataShare s n)

/-- Cells that a frame of `out` cells over `sats` satellites may take (R200). -/
def returnBound (out sats : Nat) (enum : Bool) : Nat := out + (if enum then 177 else 113) * sats + 128

/-- Send a frame now (R199): the galleries are copied, the frame goes out and is counted. An ENUM frame may meet as many
satellites as a link carries. Eight cells carry a byte, and two go out in a tick. -/
def sendFrameAs (s : State) (n : Nat) (t : IvgType) (sleep : Bool) : State :=
  let l := linkOf s n
  let bytes := ivgHeader t.code l.frame sleep ++ frameShares s n t ++ endMarker
  let sats := if t = .enum then 128 else (satsOf s n).length
  let fl : IvgFlight :=
    { type := t, seq := l.frame % 16, sentAt := s.plane.lin, bytes := bytes
      deadline := (returnBound (8 * bytes.length) sats (t == .enum) + 1) / 2 }
  let run : Tbl SatRun := match t with
    | .enum => l.sat
    | .setup => (satsOf s n).foldl (fun m x =>
        let r := Tbl.get m {} x.address
        Tbl.put m {} x.address (if r.setupDue then { r with setupDue := false, fullDue := true } else r)) l.sat
    | .data => (satsOf s n).foldl (fun m x =>
        Tbl.put m {} x.address { Tbl.get m {} x.address with fullDue := false, copy := satValues s n x }) l.sat
  (meterAdd s (22 + n) 0 (8 * bytes.length)).onIvg n fun l => { l with
    frame := l.frame + 1, flight := some fl, frames := satAdd32 l.frames 1, sat := run, lastSent := bytes
    slept := if sleep then some (s.plane.lin + 4 * bytes.length) else none
    lastEnum := if t = .enum then s.plane.lin else l.lastEnum
    enumFor := if t = .enum then [] else l.enumFor
    waitFor := if t = .enum then l.waitFor ++ l.enumFor else l.waitFor }

/-- Send a frame without SLEEP now (R199). -/
def sendFrame (s : State) (n : Nat) (t : IvgType) : State := sendFrameAs s n t false

/-- The type of the frame a slot sends (R199, R202): none in MISMATCH, where only the ENUM frames of R202 go out. -/
def slotType (s : State) (n : Nat) : Option IvgType :=
  let l := linkOf s n
  if !l.enumFor.isEmpty ∨ l.starting then some .enum
  else if l.mismatch ∨ !(linkCfg s n).enable then none
  else if (satsOf s n).any fun x => (satRun s n x.address).setupDue then some .setup
  else some .data

/-- A tick is a frame slot of link `n` (R199). -/
def slotTick (period n tick : Nat) : Bool := tick % period == n * (period / 16)

/-- A frame slot (R199). -/
def frameSlot (s : State) (n : Nat) : State :=
  let g := linkCfg s n
  if linksUp s ∧ slotTick g.period n s.plane.tick then
    match slotType s n with
    | none => s
    | some t =>
      if (linkOf s n).flight.isSome then s.onIvg n fun l => { l with skipped := satAdd32 l.skipped 1 }
      else sendFrame s n t
  else s

/-- The slot of a link that has to go dark (R199, R202): it sends one DATA frame with SLEEP, and nothing after it. -/
def sleepSlot (s : State) (n : Nat) : State :=
  if linksUp s ∧ slotTick (linkCfg s n).period n s.plane.tick ∧ (linkOf s n).slept.isNone then
    if (linkOf s n).flight.isSome then s.onIvg n fun l => { l with skipped := satAdd32 l.skipped 1 }
    else sendFrameAs s n .data true
  else s

/-- Every enabled link has sent its SLEEP frame (R202, R283). -/
def linksSlept (s : State) : Bool :=
  (List.range 16).all fun n => !(linkCfg s n).enable || (match (linkOf s n).slept with | some t => decide (t ≤ s.plane.lin) | none => false)

/-- Send at once the ENUM frame that packets ask for, if no frame is on its way (Table 07.16). -/
def enumNow (s : State) (n : Nat) : State :=
  if linksUp s ∧ (linkOf s n).slept.isNone ∧ (linkOf s n).flight.isNone ∧ !(linkOf s n).enumFor.isEmpty then sendFrame s n .enum else s

/-- A link starts (R202): an ENUM frame, and FULL shares. -/
def startLink (s : State) (n : Nat) : State :=
  s.onIvg n fun l => { l with
    starting := true, mismatch := false, brk := false, breakAt := 0, beaconRecords := 0, lostRun := 0, sat := [], slept := none }

/-- The fields that R202 compares. -/
def sameSat (x : Sat) (i : SatIdent) : Bool :=
  x.address == i.address && x.points == i.points && x.maker == i.maker && x.product == i.product && x.serial == i.serial

/-- The first address at which the identities differ from the stored table, 0 where they match (R202). -/
def firstDiff (tbl : List Sat) (ids : List SatIdent) : Nat :=
  let m := max tbl.length ids.length
  ((((List.range m).find? fun k =>
    match tbl[k]?, ids[k]? with
    | some x, some i => !sameSat x i
    | _, _ => true).map (· + 1))).getD 0

/-- The widest format a satellite supports. -/
def widest (formats : Nat) : Nat := if formats.testBit 2 then 2 else if formats.testBit 1 then 1 else 0

/-- The table that MODE 0 adopts: bases contiguous in address order, widest formats (Table 07.16). -/
def adoptTable : Nat → List SatIdent → List Sat
  | _, [] => []
  | b, i :: r =>
    { address := i.address, formats := i.formats, points := i.points, maker := i.maker, product := i.product
      revision := i.revision, serial := i.serial, base := b, format := widest i.formats } :: adoptTable (b + i.points) r

/-- Mark SETUP as due for every satellite of the table. -/
def queueSetup (s : State) (n : Nat) (which : Sat → Bool) : State :=
  ((satsOf s n).filter which).foldl (fun s x => s.onSat n x.address fun r => { r with setupDue := true, fullDue := true }) s

/-- The link has found its satellites (R202): SETUP and FULL frames follow. -/
def linkMatched (s : State) (n : Nat) : State :=
  queueSetup (s.onIvg n fun l => { l with starting := false, mismatch := false }) n fun _ => true

/-- The address of a lighting event (Table 07.12). -/
def ivgAddress (n a : Nat) : Nat := n + 16 * (a % 256)

/-- The identities of an ENUM frame at the start or in MISMATCH (R202). -/
def noteIdents (s : State) (n : Nat) (ids : List SatIdent) : State :=
  let l := linkOf s n
  if l.starting ∨ l.mismatch then
    let d := firstDiff (satsOf s n) ids
    if d = 0 then linkMatched s n
    else
      let s := s.onIvg n fun l => { l with starting := false, mismatch := true }
      if l.mismatch then s else postEvent s (s.ev 3 0x0424 (ivgAddress n d) ids.length)
  else s

/-- A valid status of a satellite (R194, R200): it is kept, and a change of FCODE posts IVGAL_SAT_FAULT; one without SHARE_OK makes the next share FULL. -/
def keepStatus (n : Nat) (s : State) (r : SatStatus) : State :=
  let old := satRun s n r.address
  let s := s.onSat n r.address fun y => { y with
    lacked := !r.shareOk
    flags := r.seq + 16 * b2n r.shareOk + 32 * b2n r.failActive + 64 * b2n (r.fcode != 0)
    fcode := r.fcode, temp := r.temp, shareErr := if r.shareOk then y.shareErr else sat16 (y.shareErr + 1), present := true }
  if old.fcode = r.fcode then s
  else postEvent s (s.ev 3 0x0422 (ivgAddress n r.address) (r.fcode % 256 + 256 * (r.temp % 256)))

/-- A satellite has a valid record in a returned frame, or it has none: the third such frame in a row posts IVGAL_SAT_SILENT (R200). -/
def noteRecord (n : Nat) (s : State) (a : Nat) (found : Bool) : State :=
  if found then s.onSat n a fun y => { y with silent := 0, present := true }
  else
    let k := (satRun s n a).silent + 1
    let s := s.onSat n a fun y => { y with silent := sat8 k }
    if k = 3 then postEvent s (s.ev 3 0x0423 (ivgAddress n a) k) else s

/-- One satellite's status in a returned DATA or SETUP frame (R200). -/
def noteStatus (n seq : Nat) (recs : List SatStatus) (s : State) (x : Sat) : State :=
  match recs.find? fun r => r.address == x.address && r.crcOk && r.seq == seq with
  | some r => noteRecord n (keepStatus n s r) x.address true
  | none => noteRecord n s x.address false

/-- One satellite's identity in a returned ENUM frame (R194, R200); the valid ones are `ids`. -/
def noteIdent (n : Nat) (ids : List SatIdent) (s : State) (x : Sat) : State := noteRecord n s x.address (ids.any fun i => i.address == x.address)

/-- A frame has come back whole (R200, R201): BREAK ends and every next share is FULL. -/
def noteReturned (s : State) (n : Nat) (sentAt : Nat) : State :=
  let l := linkOf s n
  let s := s.onIvg n fun l => { l with
    flight := none, returned := satAdd32 l.returned 1, lastRet := sat16 (s.plane.lin - sentAt), lostRun := 0 }
  if l.brk then
    let s := s.onIvg n fun l => { l with brk := false, breakAt := 0, beaconRecords := 0 }
    let s := (satsOf s n).foldl (fun s x => s.onSat n x.address fun r => { r with fullDue := true }) s
    postEvent s (s.ev 3 0x0421 n (sat16 l.lostRun))
  else s

/-- A frame is lost (R200). -/
def noteLost (s : State) (n : Nat) : State :=
  s.onIvg n fun l => { l with flight := none, lost := satAdd32 l.lost 1, lostRun := l.lostRun + 1 }

/-- The link enters BREAK after three lost frames (R201). -/
def enterBreak (s : State) (n : Nat) : State :=
  let l := linkOf s n
  if 3 ≤ l.lostRun ∧ !l.brk then
    let s := s.onIvg n fun l => { l with brk := true, breaks := satAdd32 l.breaks 1 }
    postEvent s (s.ev 3 0x0420 (ivgAddress n l.breakAt) l.beaconRecords)
  else s

/-- A BEACON frame at IVGn_RET (R201), with its status records (R194): the valid ones of satellites in the table are kept. -/
def beaconRx (s : State) (n a : Nat) (recs : List SatStatus) : State :=
  let l := linkOf s n
  let s := s.onIvg n fun l => { l with breakAt := a, beaconRecords := recs.length }
  let s := if l.brk ∧ l.breakAt ≠ a then postEvent s (s.ev 3 0x0420 (ivgAddress n a) recs.length) else s
  (recs.filter fun r => r.crcOk && (satsOf s n).any fun x => x.address == r.address).foldl (keepStatus n) s

/-- In MISMATCH an ENUM frame goes out every 800,000 ticks (R202). -/
def mismatchEnum (s : State) (n : Nat) : State :=
  let l := linkOf s n
  if linksUp s ∧ (linkCfg s n).enable ∧ l.mismatch ∧ l.slept.isNone ∧ l.flight.isNone ∧ l.lastEnum + 800000 ≤ s.plane.lin then
    sendFrame s n .enum
  else s

end Sys2Proof.Machine
end

