-- ==== Sys2Proof/Machine/Ivgal.lean ====
section
/-! DEFINITION. The commands of the Ivgal links (chapter 07): slots, returns, beacons, and the Ivgal opcodes. -/

namespace Sys2Proof.Machine

/-- A link enters BREAK (R201). -/
def execIvgalBreak (n : Nat) (s : State) : Answer := effect s (enterBreak s n)

/-- A BEACON frame arrives (R201). -/
def execIvgalBeaconRx (n address : Nat) (records : List SatStatus) (s : State) : Answer := effect s (beaconRx s n address records)

/-- The ENUM frame of a link in MISMATCH (R202). -/
def execIvgalMismatchEnum (n : Nat) (s : State) : Answer := effect s (mismatchEnum s n)

/-- The galleries of a link: G(4n)–G(4n+3) (R189). -/
def linkGalleries (n : Nat) : List Nat := [4 * n, 4 * n + 1, 4 * n + 2, 4 * n + 3]

/-- A record of IVGAL.ENUM's reply (Table 07.16). -/
def satReply (b : Nat) (x : Sat) : Reply :=
  [(b, 1, x.address), (b + 1, 1, x.formats % 8), (b + 2, 2, x.points), (b + 4, 2, x.maker), (b + 6, 2, x.product),
    (b + 8, 1, x.revision), (b + 10, 4, x.serial), (b + 14, 2, x.base)]

/-- The reply of IVGAL.ENUM over a table. -/
def enumReply (p : Packet) (l : List Sat) (d : Nat) : Reply :=
  (16, 1, l.length) :: (17, 1, b2n (d == 0)) :: (18, 2, (l.map Sat.points).sum % 65536) :: (20, 1, d) ::
    (List.range (p.num 19 1)).flatMap fun i =>
      match l[p.num 18 1 + i]? with
      | some x => satReply (32 + 16 * i) x
      | none => []

/-- What an ENUM frame brought gives its packet (Table 07.16): MODE 0 adopts it, MODE 1 compares. -/
def enumFinish (p : Packet) (ids : Option (List SatIdent)) (s : State) : Res :=
  let n := p.fld 16 0 4
  match ids with
  | none => { s := s, st := some .timeout }
  | some ids =>
    let tbl := adoptTable 0 ids
    if p.fld 17 0 2 = 0 then
      if 16384 < (tbl.map Sat.points).sum then { s := s, st := some .conflict }
      else
        let s := s.onStore fun st => { st with light := { st.light with
          ivg := vmod st.light.ivg n fun g => { g with table := some tbl } } }
        let s := s.onIvg n fun l => { l with starting := false, mismatch := false, sat := [] }
        { s := queueSetup s n fun _ => true, reply := enumReply p tbl 0 }
    else { s := s, reply := enumReply p tbl (firstDiff (satsOf s n) ids) }

/-- A packet already waits for an ENUM frame, or has its outcome. -/
def enumAsked (s : State) (n : Nat) (p : Packet) : Bool :=
  let l := linkOf s n
  l.enumFor.any (samePlace p) || l.waitFor.any (samePlace p) || l.found.any fun f => samePlace p f.1

/-- Ask for an ENUM frame for a packet: it goes out as soon as the frame in progress has returned. -/
def enumRequest (s : State) (n : Nat) (p : Packet) : State :=
  if enumAsked s n p then s else enumNow (s.onIvg n fun l => { l with enumFor := l.enumFor ++ [p] }) n

/-- IVGAL.ENUM (Table 07.16). At E the outcome of its ENUM frame applies; without one the packet goes on waiting. -/
def ivgalEnumOp : Op where
  code := 0x0420
  slotsOk := anySlots
  layout := fun _ => [(16, 0, 4), (17, 0, 2), (18, 0, 8), (19, 0, 8)]
  bad := fun p _ => p.fld 17 0 2 == 3 || (64 * p.slots - 32) / 16 < p.num 19 1
  deny := fun p s => (linkGalleries (p.fld 16 0 4)).any fun g => !mayWrite s p.comp g
  run := fun p s =>
    let n := p.fld 16 0 4
    if p.fld 17 0 2 = 2 then
      match (linkCfg s n).table with
      | none => { s := s, st := some .conflict }
      | some t => { s := s, reply := enumReply p t 0 }
    else
      match (linkOf s n).found.find? fun f => p.ring == f.1.ring && p.slot == f.1.slot with
      | some f => enumFinish p f.2 (s.onIvg n fun l => { l with found := l.found.erase f })
      | none => { s := enumRequest s n p, st := none }

/-- IVGAL.ENUM: the ENUM frame is asked for as soon as the keeper has the packet, alone or as a member of a flight. -/
def execIvgalEnum (p : Packet) (s : State) : Answer :=
  let s := keeperTake ivgalEnumOp p s
  effect s (if p.opcode = ivgalEnumOp.code ∧ isHeld s p ∧ p.fld 17 0 2 < 2 ∧ (checkPacket ivgalEnumOp p s).isNone then
    enumRequest s (p.fld 16 0 4) p else s)

/-- Hand the outcome of an ENUM frame to the packets that asked for it: one still before its E keeps it until then; one past
it completes late. -/
def enumDeliver (s : State) (n : Nat) (ids : Option (List SatIdent)) : State :=
  let l := (linkOf s n).waitFor
  l.foldl (fun s p =>
    if isHeld s p then s.onIvg n fun x => { x with found := x.found ++ [(p, ids)] }
    else
      let r := enumFinish p ids s
      noteLate (completeNow r.s p (lateStatus true (r.st.getD .ok)) r.reply) p (s.plane.tick - dueTick false p s))
    (s.onIvg n fun x => { x with waitFor := [] })

/-- A frame returns at IVGn_RET, or its deadline passes (R200). A frame whose header fails its check counts as lost. -/
def frameReturn (s : State) (n : Nat) (r : IvgReturn) : State :=
  match (linkOf s n).flight with
  | none => s
  | some f =>
    let past := decide (f.sentAt + f.deadline < s.plane.lin)
    if r.lost ∧ !past then s
    else if past ∨ r.hcrcOk = false ∨ r.seq ≠ f.seq then
      let s := noteLost s n
      let s := if f.type = .enum then enumDeliver s n none else s
      enumNow s n
    else
      let s := noteReturned s n f.sentAt
      let s := meterAdd s (22 + n) (8 * f.bytes.length + 112 * r.statuses.length + 176 * r.idents.length) 0
      let s :=
        if f.type = .enum then
          let ids := r.idents.filter (·.crcOk)
          let s := (satsOf s n).foldl (noteIdent n ids) s
          enumDeliver (if (linkCfg s n).enable then noteIdents s n ids else s) n (some ids)
        else (satsOf s n).foldl (noteStatus n f.seq r.statuses) s
      enumNow s n

/-- A frame's return or deadline (R200). -/
def execIvgalFrameReturn (n : Nat) (r : IvgReturn) (s : State) : Answer := effect s (frameReturn s n r)

/-- COUNT of IVGAL.CONFIG. -/
def ivgCount (p : Packet) : Nat := p.num 24 1

/-- Record `i` of IVGAL.CONFIG over the satellite's stored identity (Table 07.17). -/
def satSettings (p : Packet) (i : Nat) (x : Sat) : Sat :=
  let b := 32 + 8 * i
  { x with format := p.fld (b + 1) 0 2, failMode := p.fld (b + 1) 2 2, base := p.num (b + 2) 2
           failLevel := p.num (b + 4) 2, failTime := p.num (b + 6) 2 }

/-- The table that IVGAL.CONFIG leaves: records that are not named are kept. -/
def satsAfter (p : Packet) (l : List Sat) : List Sat :=
  l.map fun x =>
    match (List.range (ivgCount p)).reverse.find? fun i => p.num (32 + 8 * i) 1 == x.address with
    | some i => satSettings p i x
    | none => x

/-- The point ranges of a link do not overlap and end by 16,383 (Table 07.17). -/
def rangesFit (l : List Sat) : Bool :=
  l.all fun x => x.base + x.points ≤ 16384 &&
    l.all fun y => x.address == y.address || x.base + x.points ≤ y.base || y.base + y.points ≤ x.base

/-- Bytes of the FULL DATA frame of a map. -/
def fullFrameBytes (l : List Sat) : Nat :=
  7 + (l.map fun x => 4 + (packValues x.format (List.replicate x.points 0)).length).sum

/-- A link's settings agree (Table 07.17). -/
def linkAgrees (g : IvgCfg) : Bool :=
  let l := g.table.getD []
  rangesFit l && l.all (fun x => x.formats.testBit x.format) &&
    returnBound (8 * fullFrameBytes l) l.length false ≤ 2 * g.period

/-- IVGAL.CONFIG (Table 07.17). -/
def ivgalConfigOp : Op where
  code := 0x0421
  slotsOk := anySlots
  layout := fun p => (16, 0, 6) :: (17, 0, 8) :: (18, 0, 8) :: (20, 0, 32) :: (24, 0, 8) ::
    entryLayout 32 8 (min (ivgCount p) 124) [(0, 0, 8), (1, 0, 4), (2, 0, 16), (4, 0, 16), (6, 0, 16)]
  bad := fun p _ => (64 * p.slots - 32) / 8 < ivgCount p ||
    (!p.bit 16 4 &&
      (p.num 20 4 < 8000 || 800000 < p.num 20 4 ||
        (List.range (ivgCount p)).any fun i =>
          let b := 32 + 8 * i
          p.num b 1 == 0 || 128 < p.num b 1 || p.fld (b + 1) 0 2 == 3 || p.fld (b + 1) 2 2 == 3 || 16383 < p.num (b + 2) 2 ||
            p.num (b + 6) 2 == 0 || 300 < p.num (b + 6) 2))
  deny := fun p s => (linkGalleries (p.fld 16 0 4)).any fun g => !mayWrite s p.comp g
  agree := fun p _ s' => p.bit 16 4 ||
    (linkAgrees (linkCfg s' (p.fld 16 0 4)) && (List.range (ivgCount p)).all fun i =>
      (satsOf s' (p.fld 16 0 4)).any fun x => x.address == p.num (32 + 8 * i) 1)
  run := fun p s =>
    let n := p.fld 16 0 4
    let g := linkCfg s n
    if p.bit 16 4 then
      { s := s
        reply := (16, 1, n + 16 + 32 * b2n g.enable) :: (17, 1, g.fullEvery) :: (18, 1, p.num 18 1) :: (20, 4, g.period) ::
          (24, 1, ivgCount p) ::
          (List.range (ivgCount p)).flatMap fun i =>
            match (satsOf s n).find? fun x => x.address == p.num 18 1 + i with
            | some x => [(32 + 8 * i, 1, x.address), (33 + 8 * i, 1, x.format + 4 * x.failMode), (34 + 8 * i, 2, x.base),
                (36 + 8 * i, 2, x.failLevel), (38 + 8 * i, 2, x.failTime)]
            | none => [] }
    else
      let named := (List.range (ivgCount p)).map fun i => p.num (32 + 8 * i) 1
      let s := s.onStore fun st => { st with light := { st.light with
        ivg := vmod st.light.ivg n fun g => { g with
          enable := p.bit 16 5, fullEvery := p.num 17 1, period := p.num 20 4, table := g.table.map (satsAfter p) } } }
      let s :=
        if p.bit 16 5 ∧ !g.enable then startLink s n
        else if !p.bit 16 5 ∧ g.enable then s.onIvg n fun l => { l with
          starting := false, mismatch := false, brk := false }
        else s
      { s := queueSetup s n fun x => g.period != p.num 20 4 || named.contains x.address }

/-- IVGAL.CONFIG. -/
def execIvgalConfig (p : Packet) (s : State) : Answer := effect s (keeperTake ivgalConfigOp p s)

/-- STATE of a link (Table 07.18). -/
def linkState (s : State) (n : Nat) : Nat :=
  let l := linkOf s n
  if !(linkCfg s n).enable then 0 else if l.brk then 2 else if l.mismatch then 3 else if l.starting then 4 else 1

/-- IVGAL.DIAG (Table 07.18). -/
def ivgalDiagOp : Op where
  code := 0x0422
  slotsOk := anySlots
  layout := fun _ => [(16, 0, 4), (17, 0, 1), (18, 0, 8), (19, 0, 8)]
  bad := fun p _ => (64 * p.slots - 64) / 8 < p.num 19 1
  deny := fun p s => (linkGalleries (p.fld 16 0 4)).any fun g => !mayRead s p.comp g
  run := fun p s =>
    let n := p.fld 16 0 4
    let l := linkOf s n
    let r : Reply :=
      [(16, 1, linkState s n), (17, 1, (satsOf s n).length), (18, 1, l.breakAt), (20, 4, l.frames), (24, 4, l.returned),
        (28, 4, l.skipped), (32, 4, l.lost), (36, 4, l.breaks), (40, 2, l.lastRet)] ++
      (List.range (p.num 19 1)).flatMap fun i =>
        let a := p.num 18 1 + i
        let x := satRun s n a
        let b := 64 + 8 * i
        [(b, 1, a), (b + 1, 1, x.flags), (b + 2, 1, x.fcode), (b + 3, 1, x.temp), (b + 4, 2, x.shareErr),
          (b + 6, 1, x.silent), (b + 7, 1, b2n x.present)]
    { s := if p.bit 17 0 then s.onIvg n fun l => { l with
        frames := 0, returned := 0, skipped := 0, lost := 0, breaks := 0
        sat := (l.sat.map fun e => (e.1, { e.2 with shareErr := 0 })).filter fun e => e.2 != {} } else s
      reply := r }

/-- IVGAL.DIAG. -/
def execIvgalDiag (p : Packet) (s : State) : Answer := effect s (keeperTake ivgalDiagOp p s)

end Sys2Proof.Machine
end

