-- ==== Sys2Proof/Machine/WakeOps.lean ====
section
/-! DEFINITION. Wake latches (R284): what arms a source, and latching. -/

namespace Sys2Proof.Machine

/-- Change sleep and wake. -/
def State.onSleep (s : State) (f : Sleep → Sleep) : State := { s with sleep := f s.sleep }

/-- Network `n`. -/
def netOf (s : State) (n : Nat) : Net := vget s.sleep.net n

/-- Settings of network `n`. -/
def netCfg (s : State) (n : Nat) : NmCfg := vget s.store.sleep.net n

/-- Change network `n`. -/
def State.onNet (s : State) (n : Nat) (f : Net → Net) : State :=
  s.onSleep fun x => { x with net := vmod x.net n f }

/-- The device is in Dark or Buoy. -/
def State.asleep (s : State) : Bool := s.seq.state == .dark || s.seq.state == .buoy

/-- The network of a bus wake cause and index (Table 11.2). -/
def wakeNet (cause index : Nat) : Option Nat :=
  if 3 ≤ cause ∧ cause ≤ 5 then some index else if cause = 6 then some (8 + index) else none

/-- A Dark entry is on its way, or the device is in Dark or Buoy (R284). -/
def State.darkening (s : State) : Bool := s.sleep.darkPending || s.sleep.darkCommit.isSome || s.asleep

/-- A source's latch is armed (R284): that of a bus whose MODE is not off from READY on, every other from DARK_PENDING on. -/
def armedSource (s : State) (cause index : Nat) : Bool :=
  s.seq.powered && match wakeNet cause index with
    | some n =>
      let st := (netOf s n).state
      if (netCfg s n).mode = 0 then s.darkening else s.asleep || st == 1 || st == 3 || st == 4
    | none => s.darkening

/-! Detection on a bus (R289, Table 11.4): a bus shows phases in ns, dominant and recessive by turns, a dominant one first. -/

/-- A phase is longer than a filter time that lies between `lo` and `hi`; between the two the outcome is free (DESIGN CHOICE, log entry 153). -/
def phaseLasts (s : State) (lo hi ns : Nat) : Bool × State :=
  if ns ≤ lo then (false, s) else if hi < ns then (true, s) else let d := s.takeFree 1; (d.1 == 1, d.2)

/-- A CAN bus wakes an edge detector: by one dominant phase, or with WUP_MODE by dominant, recessive, dominant, each longer than t_FILTER, the third
beginning within t_WAKE (Table 11.4). -/
def canWakes (s : State) (pattern : Bool) : List Nat → Bool × State
  | [] => (false, s)
  | d :: t =>
    let a := phaseLasts s 500 1800 d
    if !pattern then
      if a.1 then a else match t with
        | [] => a
        | _ :: t => canWakes a.2 pattern t
    else match t with
      | [] => (false, a.2)
      | r :: t =>
        let b := phaseLasts a.2 500 1800 r
        let c := phaseLasts b.2 500 1800 (t.headD 0)
        if a.1 && b.1 && c.1 && decide (d + r ≤ 1000000) then (true, c.2) else canWakes c.2 pattern t

/-- A LIN bus wakes: by a dominant phase longer than t_LINWK, followed by recessive (Table 11.4). -/
def linWakes (s : State) : List Nat → Bool × State
  | d :: _ :: t =>
    let a := phaseLasts s 30000 150000 d
    if a.1 then a else linWakes a.2 t
  | _ => (false, s)

/-- What a source sees is a wake (R289): a bus wake needs its phases. -/
def detects (s : State) (cause index : Nat) (phases : List Nat) : Bool × State :=
  if cause = 3 then canWakes s (vget s.store.sleep.xcvr index).wupMode phases
  else if cause = 6 then linWakes s phases
  else (true, s)

/-- The latch of a source. -/
def Latch.isOf (l : Latch) (cause index : Nat) : Bool := l.cause == cause && l.index == index

/-- While the tick hall runs, a wake reaches the keeper through L5, under H0's offset (R21). -/
def wakeEvent (s : State) (cause index : Nat) : State :=
  landPut s 5 { stamp := ⟨s.plane.epoch, s.wallTick + streamOffset 5 0⟩, hall := 0, idx := 16 * cause + index, wake := some (cause, index) }

/-- The latch of a source that fires takes its cause, its index and its tick; one that has fired keeps what it holds (R284). A source that fires again in
Dark or Buoy while its wake waits to be posted moves the device again (DESIGN CHOICE, log entry 177). -/
def setLatch (s : State) (cause index : Nat) : State :=
  if s.sleep.latches.any (·.isOf cause index) then
    s.onSleep fun x => { x with
      latches := x.latches.map fun l => if l.isOf cause index && l.handled && s.asleep then { l with handled := false, logged := false } else l }
  else
    let through := s.plane.running && feedsL5 s 0
    let s := if through then wakeEvent s cause index else s
    (bump s 0x0F cause 1).onSleep fun x => { x with
      latches := x.latches ++ [{ cause := cause, index := index, tick := s.now, late := x.darkCommit.isSome || s.asleep, told := !through }] }

/-- A wake source fires (R284). -/
def latchWake (s : State) (cause index : Nat) : State :=
  if armedSource s cause index then setLatch s cause index else s

end Sys2Proof.Machine
end

