-- ==== Sys2Proof/Machine/Eth.lean ====
section
/-! DEFINITION. The commands of the packet hall (chapter 10, R94–R96): links, reception, transmission, command frames, time sync, TC10, and
the Ethernet opcodes. -/

namespace Sys2Proof.Machine

/-- A port completes link-up (R259); a T1 port whose partner has the same role never does (R260). -/
def linkUp (s : State) (n : Nat) (partnerLeads : Bool) : State :=
  let p := portOf s n
  let paired := 6 ≤ n || (portCfg s n).leader != partnerLeads
  if (portCfg s n).enable ∧ domainOn s 6 ∧ (p.link = 0 ∨ p.link = 2) ∧ paired then setLink s n 1 else s

/-- Link-up (R259, R260). -/
def execEthLinkUp (x : LinkTrained) (s : State) : Answer := effect s (linkUp s x.port x.partnerLeads)

/-- A port loses its link (R261): the frames held for it are discarded. -/
def linkDown (s : State) (n : Nat) : State :=
  if (portOf s n).link = 1 then setLink (dropQueue s n) n (if domainOn s 6 then 0 else 3) else s

/-- A link goes down (R261). -/
def execEthLinkDown (port : Nat) (s : State) : Answer := effect s (linkDown s port)

/-- What the MACsec check of a received frame gives (R268, R271): none where it is dropped, or the frame with SECURE. One that fails under VALIDATE = 1 goes on as its
SA opens it, or as it came where there is no SA (DESIGN CHOICE, log entry 183). -/
def macsecCheck (s : State) (n : Nat) (f : EthFrame) (t : SecTag) : State × Option (Bool × EthFrame) :=
  let g := portCfg s n
  let s := engineRun s (macsecCtx n true) (macsecBlocks t.data.length)
  let fails := fun (s : State) (late : Bool) (f : EthFrame) =>
    let count := fun (c : EthCounters) => if late then { c with late := satAdd32 c.late 1 } else { c with invalid := satAdd32 c.invalid 1 }
    if g.check ∧ !g.secureOnly then (s.onCnt n count, some (false, f)) else (portDrop s n count, none)
  match receiveSa s n t.sci t.an with
  | none => if g.secureOnly then (portDrop s n fun c => { c with rxDrop := satAdd32 c.rxDrop 1 }, none) else fails s false (unopened f t)
  | some a =>
    let pn := recoverPn a t.pn
    if a.stopped ≠ 0 then (portDrop s n fun c => { c with saDrop := satAdd32 c.saDrop 1 }, none)
    else if pn + a.window < a.pn then fails s true (a.plain pn f t)
    else if t.icv ≠ a.icv pn f.dst f.src t then fails s false (a.plain pn f t)
    else if pnEnd ≤ pn then (portDrop (stopSa s a 1) n fun c => { c with saDrop := satAdd32 c.saDrop 1 }, none)
    else (putSa s { a with pn := max a.pn (pn + 1) }, some (true, a.plain pn f t))

/-- The receive channel of a frame is bound to C15 (R94). -/
def boundChannel (s : State) (n : Nat) (f : EthFrame) : Option CmdChannel :=
  match f.sec with
  | some t => s.store.eth.cmd.find? fun c => c.port == n && c.sci == t.sci && c.bound
  | none => none

/-- CMD_DROP of the keeper's port (R94, R95). -/
def dropCommand (s : State) : State := portDrop s 9 fun c => { c with cmdDrop := satAdd32 c.cmdDrop 1 }

/-- A frame of an 802.1AS message reaches the time-sync unit (R273): of the slave port's Sync messages in domain 0 the last is kept, with its tick. -/
def timeFrame (s : State) (n : Nat) (f : EthFrame) : State :=
  if n = s.store.eth.time.slave ∧ dNum f.body 0 1 % 16 = 0 ∧ dNum f.body 4 1 = 0 then
    s.onEth fun e => { e with syncSeen := true, syncIn := some (f.body, s.now) }
  else s

/-- A frame that MACsec has let pass enters the switch on a PHY port (R262, R265, R94); `secure` tells that a receive SA has validated it. -/
def switchIn (s : State) (n : Nat) (secure : Bool) (f : EthFrame) : State :=
  let g := portCfg s n
  let drop := fun s => portDrop s n fun c => { c with rxDrop := satAdd32 c.rxDrop 1 }
  let pcp := if f.tagged then f.pcp % 8 else g.pcp
  let q : Queued := { frame := f, pcp := pcp, vid := f.vid, tagged := f.tagged, cells := frameCells f f.tagged, ingress := n, secure := secure }
  if f.etherType = 0x88B5 then
    if secure ∧ (boundChannel s n f).isSome ∧ !s.plane.replay.running then (enqueue s 9 q).1 else dropCommand s
  else if f.etherType = 0x88F7 then timeFrame s n f
  else if (g.accept = 1 ∧ !f.tagged) ∨ (g.accept = 2 ∧ f.tagged) then drop s
  else
    match vlanOf s (if f.tagged && f.vid != 0 then f.vid else g.pvid) with
    | none => drop s
    | some v =>
      if !v.member.testBit n then drop s
      else
        let s := learn s f.src v.vid n
        (forward s { q with frame := { f with sec := none } } v (portsUp s (egressPorts s n f v))).1

/-- A frame arrives on a PHY port (R262, R268, R269): a protected one on ETH0–ETH5 waits in the hold for its context; ETH6 and ETH7 have no MACsec. -/
def ethReceive (s : State) (n : Nat) (f : EthFrame) : State :=
  if 8 ≤ n ∨ (portOf s n).link ≠ 1 ∨ !hallRuns s 5 then s
  else if !f.fcsOk then portDrop s n fun c => { c with rxDrop := satAdd32 c.rxDrop 1 }
  else
    let s := countRx s n (wireBytes f)
    match f.sec with
    | some t => if n < 6 then holdFrame s n f t else switchIn s n false (unopened f t)
    | none =>
      if (portCfg s n).secureOnly ∧ f.etherType ≠ 0x888E then portDrop s n fun c => { c with rxDrop := satAdd32 c.rxDrop 1 }
      else switchIn s n false f

/-- The engine has computed a frame of the hold (R269): it is checked, and what passes enters the switch. -/
def heldFrame (s : State) (h : HoldItem) : State :=
  match h.frame.sec with
  | none => s
  | some t =>
    match macsecCheck s h.port h.frame t with
    | (s, some (secure, f)) => switchIn s h.port secure f
    | (s, none) => s

/-- A context computes `n` 64ths of a block of its frames in the hold, in order of arrival. -/
def serveHold (ctx : Nat) : Nat → Nat → State → State
  | 0, _, s => s
  | fuel + 1, n, s =>
    match s.cipher.hold.find? fun h => h.ctx == ctx with
    | none => s
    | some h =>
      if h.left ≤ n then serveHold ctx fuel (n - h.left) (heldFrame (s.onCipher fun c => { c with hold := c.hold.erase h }) h)
      else s.onCipher fun c => { c with hold := c.hold.modify (c.hold.idxOf h) fun x => { x with left := x.left - n } }

/-- A tick of the engine serves the hold (R269, R299): 2,500 64ths of a block a tick, shared by the contexts with work, of which a MACsec context takes at
most a quarter (DESIGN CHOICE, log entry 150). -/
def holdTick (s : State) : State :=
  if s.cipher.hold.isEmpty ∨ !hallRuns s 4 ∨ !hallRuns s 5 then s
  else
    let n := ((List.range 32).filter fun c => contextWork s c != 0).length
    let share := min 625 (2500 / max 1 n)
    let fuel := s.cipher.hold.length
    serveHold 19 fuel share (serveHold 17 fuel share s)

/-- A frame is received (R262, R265). -/
def execEthFrameReceive (port : Nat) (f : EthFrame) (s : State) : Answer := effect s (ethReceive s port f)

/-- Complete a transmit record (Table 10.2): DONE, STATUS and STAMP; reserved bits are 0 (R11). -/
def txRecordDone (s : State) (r slot slots : Nat) (d : List Byte) (st : Status) : State :=
  let g := s.ring r
  let flags := dNum d 3 1 % 16 + 32 * b2n (bitAt (dNum d 3 1) 5) + 64
  let head := packetDesc (dNum d 0 2 % 8192) (dNum d 2 1 % 16) flags (dNum d 4 2 % 4096) st.code s.wallStamp.word
  let s := memWriteN (mirrorReply s r slot [(0, head)]) (g.slotAddr slot) head
  let past := if g.size < slot + slots then 0 else (slot + slots) % g.size
  let s := s.onRing r fun g => Ring.countIrq (g.advance past)
  s.onPlane fun p => { p with results := .reply r slot st.code s.wallStamp.tick 2 :: p.results }

/-- A reserved field of a transmit record is set (Table 10.2, R11). -/
def txReserved (d : List Byte) : Bool :=
  dNum d 0 2 / 8192 != 0 || dNum d 2 1 / 16 != 0 || dNum d 4 2 / 4096 != 0 || bitAt (dNum d 3 1) 4 || bitAt (dNum d 3 1) 6 || bitAt (dNum d 3 1) 7

/-- Where a transmit record's frame goes, or the status that refuses it (R266): the port that it names, or what the switch makes of it. -/
def txRecordPlace (s : State) (d : List Byte) (f : EthFrame) : Except Status (Vlan × List Nat) :=
  let port := dNum d 2 1 % 16
  let vid := dNum d 4 2 % 4096
  let vid := if vid = 0 ∧ !(dNum d 3 1).testBit 3 then s.store.eth.sw.appPvid else vid
  if 8 < port ∨ txReserved d then .error .badarg
  else if f.etherType = 0x88B5 ∨ f.etherType = 0x88F7 then .error .denied
  else
    match vlanOf s vid with
    | none => .error .denied
    | some v => if v.member.testBit port then .ok (v, if port = 8 then egressPorts s 8 f v else [port]) else .error .denied

/-- The ports whose queues a record enters: a single one whatever its link (R266), of several those that are up. -/
def recordPorts (s : State) (ports : List Nat) : List Nat := if ports.length = 1 then ports else portsUp s ports

/-- The frame of a record: descriptor and frame bytes. -/
def recordFrame (d b : List Byte) : EthFrame :=
  { dst := beNat (b.take 6), src := beNat ((b.drop 6).take 6), tagged := bitAt (dNum d 3 1) 3, vid := dNum d 4 2 % 4096, pcp := dNum d 3 1 % 8
    etherType := beNat ((b.drop 12).take 2), body := b.drop 14 }

/-- A record whose slots are visible passes to its queues (R266). -/
def txRecordSend (s : State) (r slot slots : Nat) (d b : List Byte) : State :=
  let f := recordFrame d b
  match txRecordPlace s d f with
  | .error st => txRecordDone s r slot slots d st
  | .ok (v, ports) =>
    let s := countRx s 8 (frameBytes f f.tagged false)
    let direct := dNum d 2 1 % 16 != 8
    let q : Queued := { frame := f, pcp := f.pcp, vid := v.vid, tagged := f.tagged, cells := frameCells f f.tagged }
    if direct then
      let (s, ok) := enqueue s (dNum d 2 1 % 16) q
      txRecordDone s r slot slots d (if ok then .ok else .busy)
    else
      let s := learn s f.src v.vid 8
      let (s, placed, dropped) := forward s q v (recordPorts s ports)
      txRecordDone s r slot slots d (if placed = 0 ∧ 0 < dropped then .busy else .ok)

/-- A record on a transmit ring is admitted once all its slots are visible (R266); one whose LEN is out of range is refused at its first slot, of which alone it can
consist. -/
def txRecord (s : State) (r : Nat) : State :=
  let g := s.ring r
  if r < 52 ∨ 55 < r ∨ !g.waits ∨ !hallRuns s 5 ∨ !landed s 7 (g.arrivalOf 1) then s
  else
    let slot := g.head
    let d := memReadN s (g.slotAddr slot) 16
    let len := dNum d 0 2 % 8192
    let slots := (16 + len + 63) / 64
    let toEnd := g.size - slot
    if bitAt (dNum d 3 1) 5 then
      if g.filled < toEnd then s else txRecordDone s r slot toEnd d (if len ≠ 0 ∨ txReserved d then .badarg else .ok)
    else if len < 14 ∨ 4080 < len then txRecordDone s r slot 1 d .badarg
    else if toEnd < slots then if g.filled < toEnd then s else txRecordDone s r slot toEnd d .badarg
    else if g.filled < slots then s
    else txRecordSend s r slot slots d (memReadN s (g.slotAddr slot + 16) len)

/-- A record of a packet transmit ring (R266). -/
def execPacketTxRecord (ring : Nat) (s : State) : Answer := effect s (txRecord s ring)

/-- Take the first frame of the highest priority out of a queue (R263). -/
def takeHighest (l : List Queued) : Option (Queued × List Queued) :=
  let top := l.foldl (fun n q => max n q.pcp) 0
  match l.find? fun q => q.pcp == top with
  | some q => some (q, l.eraseP fun x => x.pcp == top)
  | none => none

/-- A frame leaves a PHY port (R271, R272): protected by the current transmit SA, lost where that has stopped, or plain where there is none. -/
def phySent (s : State) (n : Nat) (q : Queued) : State :=
  let lost := fun s => portDrop s n fun c => { c with saDrop := satAdd32 c.saDrop 1 }
  let out := fun s (f : EthFrame) secured =>
    countTx (s.onPort n fun p => { p with sent := some f }) n (frameBytes q.frame q.tagged secured)
  match currentSa s n with
  | some a =>
    if a.stopped ≠ 0 then lost s
    else if pnEnd ≤ a.pn then lost (stopSa s a 1)
    else
      let s := engineRun (usePn s a) (macsecCtx n false) (macsecBlocks (plainLength q.frame q.tagged))
      out s (protect a q.frame q.tagged q.pcp q.vid) true
  | none =>
    if (portCfg s n).secureOnly then lost s
    else out s { q.frame with tagged := q.tagged, vid := q.vid, pcp := q.pcp } false

/-- A command frame is on its way to the keeper over L5: items stand in stamp order, and within a stamp by port (R20). -/
def commandInsert (x : Stamp × Nat × EthFrame) : List (Stamp × Nat × EthFrame) → List (Stamp × Nat × EthFrame)
  | [] => [x]
  | y :: l => if x.1.before y.1 || (x.1 == y.1 && x.2.1 < y.2.1) then x :: y :: l else y :: commandInsert x l

/-- A frame leaves the switch on KEEPER: a command frame goes on over L5 (R94), and the keeper has no use for any other. -/
def keeperSent (s : State) (q : Queued) : State :=
  let s := countTx s 9 (frameBytes q.frame q.frame.tagged false)
  if q.frame.etherType != 0x88B5 then s
  else if !s.plane.replay.running && feedsFrom5 s 5 then
    s.onEth fun e => { e with cmdIn := commandInsert (s.wallStamp, q.ingress, q.frame) e.cmdIn }
  else dropCommand s

/-- A frame leaves the switch on APP (R265); in a replay the packet rings take none. -/
def appSent (s : State) (q : Queued) : State :=
  let s := countTx s 8 (frameBytes q.frame q.frame.tagged false)
  if s.plane.replay.running then s else deliverApp s q

/-- The first frame of the highest priority leaves its egress queue (R263). -/
def egressSent (s : State) (n : Nat) : State :=
  let p := portOf s n
  if !hallRuns s 5 ∨ (n < 8 ∧ p.link ≠ 1) then s
  else
    match takeHighest p.queue with
    | none => s
    | some (q, rest) =>
      let s := s.onPort n fun p => { p with queue := rest }
      if n < 8 then phySent s n q else if n = 8 then appSent s q else keeperSent s q

/-- A frame leaves a port (R263). -/
def execEgressFrameSent (port : Nat) (s : State) : Answer := effect s (egressSent s port)

/-- The slots of ring 31 that are not free (R73, R95): those between RETIRE and TAIL, and those from the oldest command frame on that has not been answered, since
its reply repeats them (DEDUCED, log entry 184). -/
def Ring.outstanding (g : Ring) (runs : List CmdFrame) : Nat :=
  let back := fun i => if g.size = 0 then 0 else (g.tail + g.size - i % g.size) % g.size
  match runs with
  | [] => back g.retire
  | c :: _ => max (back g.retire) (back c.first)

/-- Accept a command frame (R95, R96): its SEQ is committed, its packets are copied, and one doorbell is written. -/
def acceptCommand (s : State) (n : Nat) (f : EthFrame) (sci seq count : Nat) : State :=
  let g := s.ring 31
  let s := s.onStore fun st => { st with eth := { st.eth with
    cmd := st.eth.cmd.map fun c => if c.port = n ∧ c.sci = sci then { c with seq := seq } else c } }
  let s := (List.range count).foldl (fun s i =>
    memWriteN s (g.slotAddr ((g.tail + i) % g.size)) ((f.body.drop (16 + 64 * i)).take 64)) s
  let tail := (g.tail + count) % g.size
  let s := s.onRing 31 fun g => { g with tail := tail, arrival := s.wallStamp, batches := g.batches ++ [(tail, s.wallStamp)] }
  let s := bump (captureVisible 31 4096 s) 3 31 1
  s.onEth fun e => { e with
    cmdRun := e.cmdRun ++ [{ port := n, sci := sci, mac := f.src, vid := f.vid, seq := seq, first := g.tail, count := count }] }

/-- A frame is the copy of one that arrived on a port: same addresses and SecTAG. -/
def copyOf (n : Nat) (f : EthFrame) (c : Stamp × Nat × EthFrame) : Bool :=
  c.2.1 == n && c.2.2.dst == f.dst && c.2.2.src == f.src && c.2.2.sec == f.sec

/-- The first item that L5 holds for the keeper of the packet hall (R20), where it is the copy of this frame. -/
def commandIn (s : State) (n : Nat) (f : EthFrame) : Option (Stamp × Nat × EthFrame) := s.eth.cmdIn.head?.filter (copyOf n f)

/-- A frame stands between the port and the keeper: in the hold, in KEEPER's queue or in L5. -/
def onItsWay (s : State) (n : Nat) (f : EthFrame) : Bool :=
  s.cipher.hold.any (fun h => h.port == n && h.frame == f) || (portOf s 9).queue.any (fun q => copyOf n f ({}, q.ingress, q.frame)) ||
    s.eth.cmdIn.any (copyOf n f)

/-- The keeper takes a command frame (R94, R95) once L5 has released it, in L5's order (R20, R27): a frame that the switch has not yet received is received first. -/
def commandFrame (s : State) (n : Nat) (frame : EthFrame) : State :=
  let s := if onItsWay s n frame then s else ethReceive s n frame
  match (commandIn s n frame).filter fun c => landed s 5 c.1 with
  | none => s
  | some x =>
    let f := x.2.2
    let s := s.onEth fun e => { e with cmdIn := e.cmdIn.erase x }
    match boundChannel s n f with
    | none => dropCommand s
    | some c =>
      let g := s.ring 31
      let count := dNum f.body 1 1
      let seq := dNum f.body 4 8
      if dNum f.body 0 1 ≠ 1 ∨ count = 0 ∨ 22 < count ∨ dNum f.body 2 2 ≠ 0 ∨ dNum f.body 12 4 ≠ 0 ∨ f.body.length < 16 + 64 * count ∨
          seq ≤ c.seq ∨ g.size - 1 < g.outstanding s.eth.cmdRun + count ∨ s.plane.replay.running ∨ !s.seq.ready then dropCommand s
      else acceptCommand s n f c.sci seq count

/-- A command frame (R95). -/
def execCommandFrame (port : Nat) (f : EthFrame) (s : State) : Answer := effect s (commandFrame s port f)

/-- A slot of ring 31 holds a packet that has not completed (R76): it stands at HEAD or behind it, or is among those admitted or left behind that have no reply
yet. -/
def slotOpen (s : State) (i : Nat) : Bool :=
  let g := s.ring 31
  g.ahead i < g.filled || (g.admitted.any fun a => !a.done && (i + g.size - a.slot) % max 1 g.size < a.slots) || g.orphans.any fun o => o.slot == i

/-- Every packet of a command frame has completed (R95). -/
def allDone (s : State) (c : CmdFrame) : Bool :=
  (List.range c.count).all fun i => !slotOpen s ((c.first + i) % max 1 (s.ring 31).size)

/-- The reply frame of a command frame (R95): the same SEQ and the completed slots. -/
def replyFrame (s : State) (c : CmdFrame) : EthFrame :=
  let g := s.ring 31
  { dst := c.mac, src := s.store.eth.sw.mac, etherType := 0x88B5, vid := c.vid
    body := leBytes 1 1 ++ leBytes 1 c.count ++ leBytes 2 0 ++ leBytes 8 c.seq ++ leBytes 4 0 ++
      (List.range c.count).flatMap fun i => memReadN s (g.slotAddr ((c.first + i) % max 1 g.size)) 64 }

/-- The oldest of the command frames whose packets have all completed is answered (R95). -/
def commandReply (s : State) : State :=
  match s.eth.cmdRun.find? (allDone s) with
  | none => s
  | some c =>
    let f := replyFrame s c
    let s := countRx (s.onEth fun e => { e with cmdRun := e.cmdRun.erase c }) 9 (frameBytes f false false)
    if (portOf s c.port).link = 1 then
      (enqueue s c.port
        { frame := f, pcp := 0, vid := c.vid, tagged := c.vid != 0, cells := frameCells f (c.vid != 0), ingress := 9 }).1
    else s

/-- The reply of a command frame (R95). -/
def execCommandFrameReply (s : State) : Answer := effect s (commandReply s)

/-- A learned address reaches AGE_S (R262). -/
def ageAddress (s : State) (mac vid : Nat) : State :=
  s.onEth fun e => { e with
    learned := e.learned.filter fun l => !(l.mac == mac && l.vid == vid && decide (l.at_ + 8000000 * s.store.eth.sw.ageS ≤ s.now)) }

/-- An address ages (R262). -/
def execAddressAgeing (mac vid : Nat) (s : State) : Answer := effect s (ageAddress s mac vid)

/-- An SA's PN has reached 2^64 − 1 (R271). -/
def saExhausted (s : State) (port : Nat) (rx : Bool) (sci an : Nat) : State :=
  match s.store.eth.sas.find? fun a => a.port == port && a.rx == rx && (!rx || a.sci == sci) && a.an == an with
  | some a => if pnEnd ≤ a.pn ∧ a.stopped = 0 then stopSa s a 1 else s
  | none => s

/-- A PN is used up (R271). -/
def execSaPnExhausted (port : Nat) (rx : Bool) (sci an : Nat) (s : State) : Answer := effect s (saExhausted s port rx sci an)

/-! Time sync (R273, R274). -/

/-- Ticks of a sync interval: 2^SYNC_LOG s. -/
def syncTicks (log : Int) : Nat := 8000000 / 2 ^ (-log).toNat

/-- A state of the time-sync unit is posted (Table 10.3). -/
def setTimeState (s : State) (st : Nat) : State :=
  if s.eth.timeState = st then s else ethEvent (s.onEth fun e => { e with timeState := st }) 0x0804 0 st

/-- The time that a Sync carries and its correction, in ns times 2^16 (R273): the unit passes on the last Sync of its slave port, corrected by the peer delay of that
port and the time it has stood in the device; without one it gives its own time, which is a free value (R274). -/
def syncTime (s : State) : (List Byte × Nat) × State :=
  match s.eth.syncIn with
  | some (b, t) =>
    let delay := (portOf s s.store.eth.time.slave).peerNs + 125 * (s.now - t)
    (((b.drop 34).take 10, (beNat ((b.drop 8).take 8) + delay * 2 ^ 16) % 2 ^ 64), s)
  | none =>
    let (sec, s) := s.takeFree 48
    let (ns, s) := s.takeFree 64
    ((beBytes 6 sec ++ beBytes 4 (ns % 1000000000), 0), s)

/-- The body of a one-step Sync message (R273), laid out as IEEE 802.1AS has it (PRESUMED, log entry 145): header, clock identity from the device MAC, port
number, sequence number, interval, time. -/
def syncBody (mac n seq : Nat) (log : Int) (time : List Byte) (correction : Nat) : List Byte :=
  [0x10, 0x02] ++ beBytes 2 44 ++ [0, 0] ++ beBytes 2 8 ++ beBytes 8 correction ++ beBytes 4 0 ++ (beBytes 6 mac).take 3 ++ [0xFF, 0xFE] ++
    (beBytes 6 mac).drop 3 ++ beBytes 2 (n + 1) ++ beBytes 2 seq ++ [0] ++ leBytes 1 (BitVec.ofInt 8 log).toNat ++ time

/-- A Sync message on a master port (R273), sent to the reserved group address with the highest priority (PRESUMED, log entry 145). -/
def sendSync (s : State) (n : Nat) : State :=
  if (portOf s n).link = 1 then
    let (x, s) := syncTime s
    let f : EthFrame :=
      { dst := 0x0180C200000E, src := s.store.eth.sw.mac, etherType := 0x88F7
        body := syncBody s.store.eth.sw.mac n s.eth.syncSeq s.store.eth.time.syncLog x.1 x.2 }
    (enqueue s n { frame := f, pcp := 7, vid := 0, tagged := false, cells := frameCells f false, ingress := 9 }).1
  else s

/-- A sync interval ends (R273, R274): Sync is sent on the master ports, and the fourth good interval in a row locks the unit. -/
def syncInterval (s : State) : State :=
  let g := s.store.eth.time
  if !hallRuns s 5 ∨ s.now < s.eth.syncAt + syncTicks g.syncLog then s
  else
    let e := s.eth
    let s := (bitList 6 g.masters).foldl sendSync (s.onEth fun e => { e with
      syncAt := s.now, syncSeen := false, syncSeq := (e.syncSeq + 1) % 65536, syncIn := if g.gm ∨ g.slave = 15 then none else e.syncIn })
    if g.gm ∨ g.slave = 15 then s
    else if e.syncSeen then
      let s := s.onEth fun x => { x with missed := 0, good := x.good + 1 }
      if 4 ≤ s.eth.good then setTimeState s 1 else s
    else s.onEth fun x => { x with missed := x.missed + 1, good := 0 }

/-- A sync interval (R273). -/
def execSyncInterval (s : State) : Answer := effect s (syncInterval s)

/-- Three sync intervals in a row are missed (R274). -/
def syncHoldover (s : State) : State := if 3 ≤ s.eth.missed then setTimeState s 2 else s

/-- Holdover (R274). -/
def execSyncHoldover (s : State) : Answer := effect s (syncHoldover s)

/-- The delay that an exchange gives (R273, PRESUMED from IEEE 802.1AS, log entry 92): half of the round trip without the time at the partner. -/
def peerDelayOf (x : PeerTimes) : Nat := ((x.t4 - x.t1) - (x.t3 - x.t2)) / 2

/-- Peer delay of a port is measured, once a second (R273). -/
def peerDelay (s : State) (n : Nat) (x : PeerTimes) : State :=
  let g := s.store.eth.time
  let p := portOf s n
  if p.link = 1 ∧ (n = g.slave ∨ g.masters.testBit n) ∧ p.peerDue ≤ s.now then
    s.onPort n fun p => { p with peerNs := peerDelayOf x, peerDue := s.now + 8000000 }
  else s

/-- Peer delay (R273). -/
def execPeerDelayMeasure (port : Nat) (x : PeerTimes) (s : State) : Answer := effect s (peerDelay s port x)

/-! TC10 (R275, R276). -/

/-- The device asks its TC10 partners to sleep, before PD6 goes off (R275). -/
def requestSleepPorts (s : State) : State :=
  (List.range 6).foldl (fun s n =>
    if (portCfg s n).tc10En ∧ (portOf s n).link = 1 ∧ (portOf s n).tc10 = 0 then
      s.onPort n fun p => { p with tc10 := 1, tc10At := s.now } else s) s

/-- No port still waits for its partner (R275). -/
def sleepPortsDone (s : State) : Bool := (List.range 6).all fun n => (portOf s n).tc10 != 1

/-- A partner's sleep request arrives (R275): a port that acknowledges it sleeps with its partner (DEDUCED, log entry 147). -/
def tc10Request (s : State) (n : Nat) : State :=
  if (portCfg s n).tc10En ∧ (portOf s n).link = 1 then
    let ok := (portCfg s n).sleepOk
    ethEvent (if ok then s.onPort n fun p => { p with tc10 := 2 } else s) 0x0805 n (if ok then 1 else 2)
  else s

/-- A partner's sleep request (R275). -/
def execTc10SleepRequestRx (port : Nat) (s : State) : Answer := effect s (tc10Request s port)

/-- The partner's acknowledgement, or the end of 16 ms (R275): the port powers down. -/
def tc10WaitEnd (s : State) (n : Nat) (acked : Bool) : State :=
  let p := portOf s n
  if p.tc10 = 1 ∧ (acked ∨ p.tc10At + 128000 ≤ s.now) then portOff (s.onPort n fun p => { p with tc10 := 2 }) n else s

/-- The wait for a TC10 partner ends (R275). -/
def execTc10SleepWaitEnd (port : Nat) (acked : Bool) (s : State) : Answer := effect s (tc10WaitEnd s port acked)

/-- A TC10 wake is received (R275, R276): it cancels a sleep in progress, latches a wake, is posted while the device is awake, and is repeated to the other
ports where its port has FORWARD = 1 (DEDUCED, log entry 146). -/
def tc10Wake (s : State) (n : Nat) : State :=
  let g := portCfg s n
  if !g.tc10En ∧ !g.wakeEn then s
  else
    let was := (portOf s n).tc10
    let s := if g.wakeEn then latchWake s 9 n else s
    let s := if g.forward ∧ g.tc10En ∧ domainOn s 6 then wakePartners s ((List.range 6).filter (· != n)) else s
    if !domainOn s 6 then s
    else if was = 1 then ethEvent (s.onPort n fun p => { p with tc10 := 0 }) 0x0805 n 3
    else
      let s := ethEvent (s.onPort n fun p => { p with tc10 := 0 }) 0x0805 n 4
      if was = 2 then startPort s n else s

/-- A TC10 wake (R276). -/
def execTc10WakeRx (port : Nat) (s : State) : Answer := effect s (tc10Wake s port)

/-! Ethernet opcodes. -/

/-- PART of ETH.CONFIG. -/
def ecPart (p : Packet) : Nat := p.fld 16 0 2

/-- READ of ETH.CONFIG. -/
def ecRead (p : Packet) : Bool := p.bit 16 2

/-- INDEX of ETH.CONFIG. -/
def ecIndex (p : Packet) : Nat := p.num 17 1

/-- The PORT record of a packet (Table 10.4). -/
def ecPort (p : Packet) : EthPortCfg :=
  { enable := p.bit 20 0, leader := p.bit 20 1, secureOnly := p.bit 20 2, tc10En := p.bit 20 3, wakeEn := p.bit 20 4
    sleepOk := p.bit 20 5, forward := p.bit 20 6, check := p.bit 20 7, speed := p.fld 21 0 2, pcp := p.fld 21 2 3
    accept := p.fld 21 5 2, pvid := p.fld 22 0 12, nodeId := p.num 24 1, nodeCount := p.num 25 1, burst := p.num 26 1
    plca := p.bit 27 0, reserve := vtab 8 fun k => p.num (28 + k) 1 }

/-- The PORT record in a reply. -/
def EthPortCfg.reply (g : EthPortCfg) : Reply :=
  [(20, 1, b2n g.enable + 2 * b2n g.leader + 4 * b2n g.secureOnly + 8 * b2n g.tc10En + 16 * b2n g.wakeEn + 32 * b2n g.sleepOk +
      64 * b2n g.forward + 128 * b2n g.check),
    (21, 1, g.speed + 4 * g.pcp + 32 * g.accept), (22, 2, g.pvid), (24, 1, g.nodeId), (25, 1, g.nodeCount), (26, 1, g.burst),
    (27, 1, b2n g.plca)] ++ (List.range 8).map fun k => (28 + k, 1, vget g.reserve k)

/-- A PORT record breaks a range of Table 10.4. -/
def EthPortCfg.bad (g : EthPortCfg) (n : Nat) : Bool :=
  g.accept == 3 || g.pvid == 0 || g.pvid == 4095 || (List.range 8).any (fun k => 64 < vget g.reserve k) ||
    (if n < 6 then g.nodeId != 0 || g.nodeCount != 0 || g.burst != 0 || g.plca else g.nodeId == 255 || g.nodeCount == 0)

/-- What ETH.CONFIG asks of a PORT record itself: features of ETH6–7 and speeds of the port. -/
def EthPortCfg.fits (g : EthPortCfg) (n : Nat) : Bool :=
  (n < 6 || (!g.secureOnly && !g.tc10En && !g.wakeEn)) && g.speed < (if n < 2 then 3 else if n < 6 then 2 else 1)

/-- A port's PVID names a VLAN of which the port is a member (R262). -/
def pvidOk (s : State) (n pvid : Nat) : Bool :=
  match vlanOf s pvid with
  | some v => v.member.testBit n
  | none => false

/-- The agreements of the Ethernet settings (R262, R264, Table 10.4). -/
def ethAgrees (s : State) : Bool :=
  (List.range 8).all (fun n => pvidOk s n (portCfg s n).pvid && (portCfg s n).fits n) && pvidOk s 8 s.store.eth.sw.appPvid &&
    decide (reserveTotal s ≤ 12288) && ((s.store.eth.vlan.map fun e => e.2.vid).filter (· != 0)).Nodup

/-- PD6 is on demand in Lantern (R261, Table 02.4): it is on while some port is enabled (DEDUCED, log entry 185). -/
def powerPorts (s : State) : State :=
  if s.seq.state ≠ .lantern then s
  else if (List.range 8).any fun n => (portCfg s n).enable then ethPowerOn s
  else ethPowerOff s

/-- A PORT record takes effect (R259): a change of speed, role or ENABLE takes the port down and starts link-up. -/
def applyPort (s : State) (n : Nat) (g : EthPortCfg) : State :=
  let old := portCfg s n
  let s := s.onStore fun st => { st with eth := { st.eth with port := vmod st.eth.port n fun _ => g } }
  if !g.enable then powerPorts (portOff s n)
  else if s.seq.state = .lantern ∧ !domainOn s 6 then powerPorts s
  else if !old.enable ∨ old.speed ≠ g.speed ∨ old.leader ≠ g.leader then
    startPort (if old.enable then setLink (dropQueue s n) n 0 else s) n
  else s

/-- ETH.CONFIG (Table 10.4). -/
def ethConfigOp : Op where
  code := 0x0800
  layout := fun p => [(16, 0, 3), (17, 0, 8)] ++
    match ecPart p with
    | 0 => [(20, 0, 8), (21, 0, 7), (22, 0, 12), (24, 0, 24), (27, 0, 1), (28, 0, 64)]
    | 1 => [(20, 0, 12), (22, 0, 10), (24, 0, 10)]
    | _ => [(20, 0, 48), (26, 0, 16), (28, 0, 16), (30, 0, 12)]
  bad := fun p _ =>
    match ecPart p with
    | 0 => 7 < ecIndex p || (!ecRead p && (ecPort p).bad (ecIndex p))
    | 1 => !ecRead p && p.fld 20 0 12 == 4095
    | 2 => ecIndex p != 0 || (!ecRead p && (p.num 26 2 < 10 || 3600 < p.num 26 2 || p.fld 30 0 12 == 0 || p.fld 30 0 12 == 4095))
    | _ => true
  agree := fun p _ s => ecRead p || ethAgrees s
  run := fun p s =>
    let i := ecIndex p
    let s :=
      if ecRead p then s
      else
        match ecPart p with
        | 0 => applyPort s i (ecPort p)
        | 1 => s.onStore fun st => { st with eth := { st.eth with
            vlan := Tbl.put st.eth.vlan {} i { vid := p.fld 20 0 12, member := p.fld 22 0 10, untag := p.fld 24 0 10 } } }
        | _ => s.onStore fun st => { st with eth := { st.eth with
            sw := { mac := beNat ((p.bytes.drop 20).take 6), ageS := p.num 26 2, rxmap := p.num 28 2, appPvid := p.fld 30 0 12 } } }
    let v := Tbl.get s.store.eth.vlan {} i
    let w := s.store.eth.sw
    { s := s
      reply := [(16, 1, p.num 16 1), (17, 1, i)] ++
        match ecPart p with
        | 0 => (portCfg s i).reply
        | 1 => [(20, 2, v.vid), (22, 2, v.member), (24, 2, v.untag)]
        | _ => [replyBytes 20 (beBytes 6 w.mac), (26, 2, w.ageS), (28, 2, w.rxmap), (30, 2, w.appPvid)] }

/-- ETH.CONFIG. -/
def execEthConfig (p : Packet) (s : State) : Answer := effect s (keeperTake ethConfigOp p s)

/-- MODE of ETH.SECURE. -/
def esMode (p : Packet) : Nat := p.fld 16 0 2

/-- DIR of ETH.SECURE: receive. -/
def esRx (p : Packet) : Bool := p.bit 16 2

/-- PORT of ETH.SECURE. -/
def esPort (p : Packet) : Nat := p.fld 17 0 3

/-- AN of ETH.SECURE. -/
def esAn (p : Packet) : Nat := p.fld 17 3 2

/-- SCI of ETH.SECURE. -/
def esSci (p : Packet) : Nat := p.num 20 8

/-- The SA that ETH.SECURE names. -/
def esSa (p : Packet) (s : State) : Option Sa :=
  s.store.eth.sas.find? fun a => a.port == esPort p && a.rx == esRx p && (!esRx p || a.sci == esSci p) && a.an == esAn p

/-- The channels of a port in a direction, by SCI. -/
def channelsOf (s : State) (port : Nat) (rx : Bool) : List Nat :=
  ((s.store.eth.sas.filter fun a => a.port == port && a.rx == rx).map Sa.sci).dedup

/-- An install that would break R267 or Table 10.6: the AN is in use, a channel would hold a third SA, a fifth receive or a second
transmit channel would be created, or ACTIVATE stands on a receive SA. -/
def esConflict (p : Packet) (s : State) : Bool :=
  let ch := channelsOf s (esPort p) (esRx p)
  let here := s.store.eth.sas.filter fun a => a.port == esPort p && a.rx == esRx p && a.sci == esSci p
  (esSa p s).isSome || decide (2 ≤ here.length) || (!ch.contains (esSci p) && decide ((if esRx p then 4 else 1) ≤ ch.length)) ||
    (esRx p && p.bit 16 3)

/-- The generation check of an install (R310): EXP_GEN names the generation, or it is 0 and the packet has arrived at or after the last change. -/
def esStale (p : Packet) (s : State) : Bool :=
  let x := keySlot s (p.num 18 1)
  if p.num 56 4 = 0 then p.arrival.before x.changed else p.num 56 4 != x.generation

/-- Install an SA (R267, R270–R272): it copies the key, and a transmit SA reserves its first block. PD5 is on while any SA is
installed (R300). -/
def installSa (p : Packet) (s : State) : State :=
  let k := p.num 18 1
  let x := keySlot s k
  let pn := p.num 44 8
  let cur := p.bit 16 3
  let a : Sa :=
    { port := esPort p, rx := esRx p, sci := esSci p, an := esAn p, keySlot := k, ssci := p.num 28 4, salt := (p.bytes.drop 32).take 12
      pn := pn, commit := if esRx p then 0 else min (pn + 2 ^ 20) pnEnd, window := p.num 52 4, gen := x.generation, key := x.material
      current := cur }
  setDomain (s.onSas fun l =>
    (l.map fun y => if cur ∧ y.port = a.port ∧ !y.rx then { y with current := false } else y) ++ [a]) 5 true

/-- Bind a receive channel to C15, or unbind it (R94, R96). -/
def bindChannel (p : Packet) (s : State) : State :=
  let on := p.bit 16 4
  s.onStore fun st => { st with eth := { st.eth with
    cmd := if st.eth.cmd.any fun c => c.port == esPort p && c.sci == esSci p then
        st.eth.cmd.map fun c => if c.port = esPort p ∧ c.sci = esSci p then { c with bound := on } else c
      else if on then st.eth.cmd ++ [{ port := esPort p, sci := esSci p, bound := true }]
      else st.eth.cmd } }

/-- The reply of ETH.SECURE (Table 10.6). -/
def secureReply (p : Packet) (s : State) : Reply :=
  let c := s.store.eth.cmd.find? fun c => c.port == esPort p && c.sci == esSci p && esRx p
  let b := match c with | some c => b2n c.bound | none => 0
  let q := match c with | some c => c.seq | none => 0
  match esSa p s with
  | some a => [(16, 8, a.pn), (24, 1, 1 + 2 * b2n a.current + 4 * b2n (a.stopped != 0) + 8 * b), (28, 4, a.gen), (32, 8, q)]
  | none => [(24, 1, 8 * b), (32, 8, q)]

/-- ETH.SECURE (Tables 10.5, 10.6). -/
def ethSecureOp : Op where
  code := 0x0801
  layout := fun _ => [(16, 0, 5), (17, 0, 5), (18, 0, 8), (20, 0, 64), (28, 0, 32), (32, 0, 96), (44, 0, 64), (52, 0, 32), (56, 0, 32)]
  bad := fun p _ => 5 < esPort p || (esMode p == 0 && (p.num 18 1 < 16 || p.num 44 8 == 0 || (!esRx p && p.num 52 4 != 0)))
  deny := fun p s =>
    (esMode p == 0 && (!mayKey s p.comp (p.num 18 1) || (keySlot s (p.num 18 1)).alg != 1 ||
      !(keySlot s (p.num 18 1)).has (if esRx p then 1 else 0))) ||
    (esMode p == 2 && p.comp != 0 && !(charterOf s p.comp).mayCharter)
  run := fun p s =>
    match esMode p with
    | 0 =>
      if esConflict p s then { s := s, st := some .conflict }
      else if esStale p s then { s := s, st := some .keyChanged }
      else
        let s := installSa p s
        { s := s, reply := secureReply p s }
    | 1 =>
      match esSa p s with
      | none => { s := s, st := some .conflict }
      | some a =>
        let s := noteIdle (s.onSas fun l => l.filter fun x => !x.sameAs a)
        { s := s, reply := secureReply p s }
    | 2 =>
      let s := bindChannel p s
      { s := s, reply := secureReply p s }
    | _ =>
      { s := s
        st := some (match esSa p s with | some a => if a.stopped = 1 then .nonceExhausted else .ok | none => .ok)
        reply := secureReply p s }

/-- ETH.SECURE. -/
def execEthSecure (p : Packet) (s : State) : Answer := effect s (keeperTake ethSecureOp p s)

/-- ETH.STATUS (Table 10.7): signal quality and PLCA beacons are measured on the wire, so they are free values. -/
def ethStatusOp : Op where
  code := 0x0802
  slotsOk := fun p => p.slotsField == 2
  layout := fun _ => [(16, 0, 5)]
  bad := fun p _ => 9 < p.fld 16 0 4
  run := fun p s =>
    let n := p.fld 16 0 4
    let x := portOf s n
    let c := x.cnt
    let pool := poolFree s
    let (sqi, s) := if n < 6 then s.takeFree 3 else (0, s)
    let (plca, s) := if 6 ≤ n ∧ n < 8 then s.takeFree 1 else (0, s)
    let link := if n < 8 then x.link else if domainOn s 6 then 1 else 3
    let speed := if n < 8 then (portCfg s n).speed else 0
    { s := if p.bit 16 4 then s.onCnt n fun _ => {} else s
      reply := [(16, 1, link + 4 * sqi), (17, 1, speed), (18, 1, x.tc10), (19, 1, plca), (20, 8, c.rxFrames), (28, 8, c.txFrames),
          (36, 4, c.rxDrop)] ++ ((List.range 8).map fun k => (40 + 4 * k, 4, vget c.qDrop k)) ++
        [(72, 4, c.invalid), (76, 4, c.late), (80, 4, c.hold), (84, 4, c.saDrop), (88, 4, c.cmdDrop), (92, 4, c.powerDrop),
          (96, 2, pool)] }

/-- ETH.STATUS. -/
def execEthStatus (p : Packet) (s : State) : Answer := effect s (keeperTake ethStatusOp p s)

/-- The roles that ETH.TIME sets (Table 10.8). -/
def timeCfgOf (p : Packet) : TimeSyncCfg :=
  { gm := p.bit 17 0, slave := p.fld 18 0 4, masters := p.fld 19 0 6, syncLog := (BitVec.ofNat 8 (p.num 20 1)).toInt }

/-- The roles agree (Table 10.8). -/
def TimeSyncCfg.agrees (g : TimeSyncCfg) : Bool :=
  !(g.gm && g.slave != 15) && !(g.slave < 6 && g.masters.testBit g.slave) && !(!g.gm && g.slave == 15 && g.masters != 0)

/-- ETH.TIME (Table 10.8): the 802.1AS time is independent of the tick and outside the guarantee (R273, R274), so the sample is a free
value. -/
def ethTimeOp : Op where
  code := 0x0803
  layout := fun _ => [(16, 0, 1), (17, 0, 1), (18, 0, 4), (19, 0, 6), (20, 0, 8)]
  bad := fun p _ => p.bit 16 0 &&
    ((5 < p.fld 18 0 4 && p.fld 18 0 4 != 15) || (p.num 20 1 != 0 && p.num 20 1 < 251))
  agree := fun p _ s => !p.bit 16 0 || s.store.eth.time.agrees
  run := fun p s =>
    let s := if p.bit 16 0 then s.onStore fun st => { st with eth := { st.eth with time := timeCfgOf p } } else s
    let (sec, s) := s.takeFree 48
    let (ns, s) := s.takeFree 64
    let (off, s) := s.takeFree 32
    let (rate, s) := s.takeFree 32
    { s := s
      reply := [(16, 8, s.stamp.word), (24, 8, sec), (32, 4, ns % 1000000000), (36, 1, s.eth.timeState), (40, 4, off), (44, 4, rate)] }

/-- ETH.TIME. -/
def execEthTime (p : Packet) (s : State) : Answer := effect s (keeperTake ethTimeOp p s)

end Sys2Proof.Machine
end

