-- ==== Sys2Proof/Machine/Inputs.lean ====
section
/-! DEFINITION. The switch and analogue inputs (chapter 08): filter changes, conversions, cyclic sensing, and INPUT.CONFIG. -/

namespace Sys2Proof.Machine

/-- Change the inputs. -/
def State.onInput (s : State) (f : Inputs → Inputs) : State := { s with input := f s.input }

/-- Switch input `i`. -/
def siOf (s : State) (i : Nat) : Si := vget s.input.si i

/-- Settings of switch input `i`. -/
def siCfg (s : State) (i : Nat) : SiCfg := vget s.store.input.si i

/-- Change switch input `i`. -/
def State.onSi (s : State) (i : Nat) (f : Si → Si) : State :=
  s.onInput fun x => { x with si := vmod x.si i f }

/-- The point of switch input `i`. -/
def siPoint (i : Nat) : Nat := pointAt 81 i

/-- A count is that of a sample of input `i` with SAMPLE in µs (R207). -/
def sampleTick (i sample now : Nat) : Bool := (now + 8 * sample - (i % 8) * sample) % (8 * sample) == 0

/-- The filter of R207: one sample of the raw state. -/
def filterStep (raw : Bool) (countF c : Nat) (o : Bool) : Nat × Bool :=
  let c := if raw then min (c + 1) countF else c - 1
  (c, if c = countF then true else if c = 0 then false else o)

/-- The cyclic-sense sequencer runs: the device is in Dark (R209). -/
def sensing (s : State) : Bool := s.seq.powered && s.seq.state == .dark

/-- The power die samples the switch inputs: from the start of its core, except in Dark (R207, R209). -/
def siSampled (s : State) : Bool := s.seq.core && !sensing s

/-- V_TH of a switch input in mV, typical (Table 08.1): fixed, or half of VBATL. -/
def siThreshold (g : SiCfg) (vbatl : Nat) : Nat := if g.thresh = 0 then 4000 else if g.thresh = 1 then 7000 else vbatl / 2

/-- V_HYS of a switch input in mV, typical (Table 08.1). -/
def siHysteresis : Nat := 500

/-- The raw state of a switch input at a level, with its polarity, threshold and hysteresis (R205): between the thresholds it keeps its state. -/
def siRaw (g : SiCfg) (vbatl : Nat) (old : Bool) (mv : Nat) : Bool :=
  let th := siThreshold g vbatl
  if th < mv then g.toBat else if mv + siHysteresis < th then !g.toBat else old

/-- Ticks until the next sample of a switch input, 0 in its tick (R207). -/
def untilSample (i sample now : Nat) : Nat :=
  let p := 8 * sample
  (p - (now + p - (i % 8) * sample) % p) % p

/-- The wetting source of a switch input runs in the present tick (R206, R208): continuously, or for PULSE ending at the sample instant. -/
def wetOn (s : State) (i : Nat) : Bool :=
  let g := siCfg s i
  siSampled s && g.enable && (!g.wetPulsed || untilSample i g.sample s.input.count < 8 * g.pulse)

/-- A sample of a switch input at its level in mV (R205, R207): the filter takes its raw state; where its output changes, the point is written, and an
input with WAKE_EN is latched while armed (R284). -/
def siSample (s : State) (i mv : Nat) : State :=
  let g := siCfg s i
  if siSampled s ∧ g.enable ∧ sampleTick i g.sample s.input.count then
    let old := siOf s i
    let raw := siRaw g s.seq.vbatl old.raw mv
    let c := filterStep raw g.countF old.count old.out
    let s := s.onSi i fun x => { x with raw := raw, count := c.1, out := c.2 }
    if c.2 = old.out then s
    else observePoint (if g.wakeEn then latchWake s 1 i else s) 7 i (siPoint i) (BitVec.ofNat 16 (b2n c.2)) []
  else s

/-- A switch input is sampled (R207). -/
def execSiFilterChange (i mv : Nat) (s : State) : Answer := effect s (siSample s i mv)

/-- AVG as a number of conversions (Table 08.13). -/
def avgCount (n : Nat) : Nat := 4 ^ n

/-- The code of one conversion (R212), from mV. -/
def aiCode (range mv : Nat) : Nat := min 4095 (mv * 4096 / (if range = 0 then 5000 else 40000))

/-- The point of analogue input `n`. -/
def aiPoint (n : Nat) : Nat := pointAt 81 (100 + n)

/-- The interval of input `n` starts at a tick (R213). -/
def intervalStart (n interval now : Nat) : Bool := (now + 8 * interval - 8 * n) % (8 * interval) == 0

/-- The power die's count in a new tick, a conversion slot where it is a multiple of 8 (R207, R213): inputs whose interval starts ask for AVG more
conversions. -/
def aiTick (s : State) : State :=
  let s := s.onInput fun x => { x with count := x.count + 1 }
  if pd8On s ∧ s.input.count % 8 = 0 then
    s.onInput fun x => { x with ai := vmapIdx x.ai fun n a =>
      let g := vget s.store.input.ai n
      if g.enable && intervalStart n g.interval x.count then { a with starts := a.starts ++ [avgCount g.avg] } else a }
  else s

/-- The input that takes the slot of the present tick: the lowest that has conversions to take (R213). -/
def slotOwner (s : State) : Option Nat :=
  if s.seq.core ∧ pd8On s ∧ s.input.count % 8 = 0 ∧ s.input.aiSlot ≠ some s.input.count then
    (List.range 16).find? fun n => (vget s.input.ai n).starts != []
  else none

/-- A conversion of an input is taken: with the last that its oldest start asks for, the start is done (R213). -/
def Ai.took (a : Ai) (got : List Nat) : Ai := if got.length = a.starts.headD 0 then { starts := a.starts.drop 1 } else { a with got := got }

/-- A conversion of an input at its level in mV, in its slot (R212, R213): with the last of a start, the mean is written, without its fraction
(DESIGN CHOICE, log entry 138). -/
def aiConversion (s : State) (n mv : Nat) : State :=
  if slotOwner s = some n then
    let a := vget s.input.ai n
    let got := a.got ++ [aiCode (vget s.store.input.ai n).range mv]
    let s := s.onInput fun x => { x with aiSlot := some x.count, ai := vmod x.ai n fun a => a.took got }
    if got.length = a.starts.headD 0 then observePoint s 7 (64 + n) (aiPoint n) (BitVec.ofNat 16 (16 * (got.sum / got.length))) [] else s
  else s

/-- A conversion (R213). -/
def execAiConversionResult (n mv : Nat) (s : State) : Answer := effect s (aiConversion s n mv)

/-- DARK_PERIOD in ticks (R209): 8 × 2^n ms. -/
def darkTicks (n : Nat) : Nat := 64000 * 2 ^ n

/-- Nominal wetting current in mA (Table 08.1). -/
def wetMa (n : Nat) : Nat := if n = 0 then 1 else if n = 1 then 5 else 12

/-- DARK_PULSE in ticks (R209, Table 08.13). -/
def darkPulse (n : Nat) : Nat := if n = 0 then 80 else if n = 1 then 160 else if n = 2 then 400 else 800

/-- Input `i` is pulsed with its I_DARK current in the present tick (R209): in Dark, in its group's place of the period. -/
def sensePulse (s : State) (i : Nat) : Bool :=
  let w := darkPulse s.store.input.dark.pulse
  sensing s && (siCfg s i).wakeEn && s.now % darkTicks s.store.input.dark.period / w == i / 8

/-- The average draw of cyclic sensing from VBATL in mA (R210). -/
def senseDraw (s : State) : Rat :=
  ((List.range 48).map fun i =>
    if (siCfg s i).wakeEn then (wetMa (siCfg s i).iDark * darkPulse s.store.input.dark.pulse : Rat) / darkTicks s.store.input.dark.period
    else 0).sum

/-- One sensed input at its level in mV (R209, R205): it wakes after DARK_CONFIRM periods in a row that differ from the reference. -/
def senseOne (s : State) (i mv : Nat) : State :=
  let x := siOf s i
  let g := siCfg s i
  if g.wakeEn then
    let raw := siRaw g s.seq.vbatl x.raw mv
    let n := if raw != x.ref then x.differs + 1 else 0
    let s := s.onSi i fun x => { x with raw := raw, differs := n }
    if s.store.input.dark.confirm ≤ n then latchWake s 1 i else s
  else s

/-- The pulse of group `g` ends in the present tick: the groups are pulsed one after another from the start of each DARK_PERIOD (R209). -/
def pulseEnds (s : State) (g : Nat) : Bool :=
  s.now % darkTicks s.store.input.dark.period == (g + 1) * darkPulse s.store.input.dark.pulse

/-- The end of the pulse of a group of eight inputs (R209), at their levels in mV. -/
def cyclicSense (s : State) (g : Nat) (mvs : List Nat) : State :=
  if sensing s ∧ g < 6 ∧ pulseEnds s g then (List.range 8).foldl (fun s k => senseOne s (8 * g + k) (mvs.getD k 0)) s else s

/-- Cyclic sensing (R209). -/
def execCyclicSense (x : SenseGroup) (s : State) : Answer := effect s (cyclicSense s x.group x.mvs)

/-- The SI references at entry to Dark (R209, R283). -/
def takeReferences (s : State) : State :=
  s.onInput fun x => { x with si := x.si.map fun y => { y with ref := y.out, differs := 0 } }

/-! INPUT.CONFIG. -/

/-- Records of INPUT.CONFIG. -/
def inCount (p : Packet) : Nat := p.num 17 1

/-- Record `i` is an analogue input's. -/
def inIsAi (p : Packet) (i : Nat) : Bool := p.bit (24 + 8 * i) 7

/-- The input of record `i`. -/
def inIx (p : Packet) (i : Nat) : Nat := p.fld (24 + 8 * i) 0 6

/-- Record `i` as a switch input's (Table 08.13). -/
def siCfgOf (p : Packet) (i : Nat) : SiCfg :=
  let b := 24 + 8 * i
  { enable := p.bit (b + 1) 0, toBat := p.bit (b + 1) 1, iWet := p.fld (b + 1) 2 2, wetPulsed := p.bit (b + 1) 4
    wakeEn := p.bit (b + 1) 5, thresh := p.fld (b + 1) 6 2, countF := p.num (b + 2) 1, sample := p.num (b + 3) 2
    pulse := p.num (b + 5) 1, iDark := p.fld (b + 6) 0 2 }

/-- Record `i` as an analogue input's (Table 08.13). -/
def aiCfgOf (p : Packet) (i : Nat) : AiCfg :=
  let b := 24 + 8 * i
  { enable := p.bit (b + 1) 0, range := p.fld (b + 1) 1 1, pullup := p.fld (b + 1) 2 2, avg := p.fld (b + 1) 4 2
    interval := p.num (b + 3) 2 }

/-- Record `i` names no input, or sets a bit that is reserved in its class (R11, Table 08.13). -/
def inReservedBad (p : Packet) (i : Nat) : Bool :=
  let b := 24 + 8 * i
  if inIsAi p i then
    15 < inIx p i || p.fld (b + 1) 6 2 != 0 || p.num (b + 2) 1 != 0 || p.num (b + 5) 1 != 0 || p.fld (b + 6) 0 2 != 0
  else 47 < inIx p i

/-- Record `i` breaks a range of Table 08.13. -/
def inRecordBad (p : Packet) (i : Nat) : Bool :=
  inReservedBad p i ||
  if inIsAi p i then
    let g := aiCfgOf p i
    g.pullup == 3 || g.interval < 16 || 60000 < g.interval
  else
    let g := siCfgOf p i
    g.iWet == 3 || g.thresh == 3 || g.countF == 0 || g.sample == 0 || 1000 < g.sample ||
      (g.wetPulsed && (g.pulse < 10 || 100 < g.pulse)) || g.iDark == 3

/-- The average wetting current of an input in mA (R206). -/
def wetAverage (g : SiCfg) : Rat :=
  if !g.enable then 0 else if g.wetPulsed then (wetMa g.iWet * g.pulse : Rat) / g.sample else wetMa g.iWet

/-- One switch input's settings agree (Table 08.13). -/
def SiCfg.agrees (g : SiCfg) : Bool :=
  (if g.wetPulsed then 2 * g.pulse ≤ g.sample else g.pulse == 0) && (!g.wakeEn || g.enable)

/-- The input settings agree (R206, R213). -/
def inputsAgree (x : InputStore) : Bool :=
  x.si.toList.all SiCfg.agrees && decide ((x.si.toList.map wetAverage).sum ≤ 30) &&
    decide ((x.ai.toList.map fun g => if g.enable then (avgCount g.avg : Rat) / g.interval else 0).sum ≤ 1)

/-- A change of switch input `i` that waits in L0, stamped with the tick that the tick hall acts on or a later one: a sample of ticks that an input lag
holds. -/
def siAhead (s : State) (i : Nat) (y : LandItem) : Bool := y.hall == 7 && y.idx == i && s.plane.tick ≤ y.stamp.tick && y.stamp.epoch == s.plane.epoch

/-- The changes of switch input `i` that the old settings have made at or after E are taken back (R208): the output is what it was before the first of
them. The input takes no sample of the held ticks with its new settings (DESIGN CHOICE, log entry 179). -/
def dropAhead (s : State) (i : Nat) : State :=
  let l := (vget s.plane.landings 0).items.filter (siAhead s i)
  if l.isEmpty then s
  else
    let s := s.onPlane fun p => { p with landings := vmod p.landings 0 fun x => { x with items := x.items.filter fun y => !siAhead s i y } }
    s.onSi i fun x => { x with out := x.out != (l.length % 2 == 1) }

/-- New settings of a switch input at E (R208): the counter follows the output, which does not change; a disabled input's point is written 0,
stamped E. -/
def applySi (s : State) (i : Nat) (g : SiCfg) : State :=
  let s := s.onStore fun st => { st with input := { st.input with si := vmod st.input.si i fun _ => g } }
  let s := (dropAhead s i).onSi i fun x => { x with count := if x.out then g.countF else 0 }
  if g.enable then s else observeActed s 7 i (siPoint i) 0

/-- A switch input's record as INPUT.CONFIG returns it. -/
def siReply (b i : Nat) (g : SiCfg) : Reply :=
  [(b, 1, i), (b + 1, 1, b2n g.enable + 2 * b2n g.toBat + 4 * g.iWet + 16 * b2n g.wetPulsed + 32 * b2n g.wakeEn +
      64 * g.thresh), (b + 2, 1, g.countF), (b + 3, 2, g.sample), (b + 5, 1, g.pulse), (b + 6, 1, g.iDark)]

/-- An analogue input's record as INPUT.CONFIG returns it. -/
def aiReply (b n : Nat) (g : AiCfg) : Reply :=
  [(b, 1, n + 128), (b + 1, 1, b2n g.enable + 2 * g.range + 4 * g.pullup + 16 * g.avg), (b + 3, 2, g.interval)]

/-- INPUT.CONFIG (Table 08.13). -/
def inputConfigOp : Op where
  code := 0x0600
  slotsOk := slotsIn 1 9
  layout := fun p => (16, 0, 2) :: (17, 0, 8) :: (18, 0, 6) :: entryLayout 24 8 (min (inCount p) 64)
    [(0, 0, 6), (0, 7, 1), (1, 0, 8), (2, 0, 8), (3, 0, 16), (5, 0, 8), (6, 0, 2)]
  bad := fun p _ => 64 < inCount p || (64 * p.slots - 24) / 8 < inCount p || (p.bit 16 0 && p.bit 16 1) ||
    (p.bit 16 1 && p.fld 18 0 3 == 7) ||
    !((List.range (inCount p)).map fun i => (inIsAi p i, inIx p i)).Nodup ||
    (List.range (inCount p)).any fun i =>
      if p.bit 16 0 then inReservedBad p i else inRecordBad p i
  deny := fun p s => !mayWrite s p.comp 81
  agree := fun _ _ s => inputsAgree s.store.input
  run := fun p s =>
    let s := if p.bit 16 1 then
        s.onStore fun st => { st with input := { st.input with
          dark := { period := p.fld 18 0 3, pulse := p.fld 18 3 2, confirm := if p.bit 18 5 then 2 else 1 } } }
      else s
    let s := if p.bit 16 0 then s
      else (List.range (inCount p)).foldl (fun s i =>
        if inIsAi p i then
          (s.onStore fun st => { st with input := { st.input with ai := vmod st.input.ai (inIx p i) fun _ => aiCfgOf p i } }).onInput
            fun x => { x with ai := vmod x.ai (inIx p i) fun _ => {} }
        else applySi s (inIx p i) (siCfgOf p i)) s
    let d := s.store.input.dark
    { s := s
      reply := (18, 1, d.period + 8 * d.pulse + 32 * b2n (d.confirm == 2)) ::
        (List.range (inCount p)).flatMap fun i =>
          if inIsAi p i then aiReply (24 + 8 * i) (inIx p i) (vget s.store.input.ai (inIx p i))
          else siReply (24 + 8 * i) (inIx p i) (siCfg s (inIx p i)) }

/-- INPUT.CONFIG. -/
def execInputConfig (p : Packet) (s : State) : Answer := effect s (keeperTake inputConfigOp p s)

end Sys2Proof.Machine
end

