-- ==== Sys2Proof/Machine/Field.lean ====
section
/-! DEFINITION. The field die, the barrier link and the field opcodes (chapter 08). -/

namespace Sys2Proof.Machine

/-- Change the field die. -/
def State.onDie (s : State) (f : FieldDie → FieldDie) : State := s.onInput fun x => { x with die := f x.die }

/-- Change the main die's end of the barrier link. -/
def State.onField (s : State) (f : FieldLink → FieldLink) : State := s.onInput fun x => { x with link := f x.link }

/-- The point of field input `n`. -/
def fiPoint (n : Nat) : Nat := pointAt 82 n

/-- The point of field output `n`. -/
def foPoint (n : Nat) : Nat := pointAt 82 (100 + n)

/-- The points of FSA and FSB. -/
def fsPoint (k : Nat) : Nat := pointAt 82 (200 + k)

/-- Field output `n` is on (R219, R221): commanded, neither held nor locked, on a configured field die. -/
def foOn (d : FieldDie) (n : Nat) : Bool :=
  let x := vget d.fo n
  d.running && d.configured && x.cmd && x.cond.free

/-! The field die. -/

/-- Change field output `n`. -/
def State.onFo (s : State) (n : Nat) (f : Fo → Fo) : State :=
  s.onDie fun d => { d with fo := vmod d.fo n f }

/-- Field output `n`. -/
def foOf (s : State) (n : Nat) : Fo := vget s.input.die.fo n

/-- A cause becomes active on a field output. -/
def foActive (s : State) (n cause detail : Nat) : State :=
  s.onFo n fun x => { x with cond := { x.cond.report cause with thermDetail := if cause = 6 then detail else x.cond.thermDetail } }

/-- A cause ends on a field output. -/
def foEnd (s : State) (n cause : Nat) : State :=
  s.onFo n fun x => { x with cond := x.cond.clear cause }

/-- Hold a field output. -/
def foHold (s : State) (n cause detail : Nat) : State :=
  (foActive s n cause detail).onFo n fun x => { x with cond := x.cond.hold cause }

/-- A hold of a field output ends: it returns to its commanded value (Table 08.8). -/
def foEndHold (s : State) (n cause : Nat) : State :=
  (foEnd s n cause).onFo n fun x => { x with cond := { x.cond.endHold cause with waiting := false } }

/-- Lock a field output. -/
def foLock (s : State) (n cause detail : Nat) : State :=
  (foActive s n cause detail).onFo n fun x => { x with cond := x.cond.lock cause }

/-- A supply takes a class (Table 08.4): with FSB MISSING every output is held off; present again, they return (Table 08.8). -/
def fieldClass (s : State) (k cls : Nat) : State :=
  if k = 0 then s.onDie fun d => { d with fsa := cls }
  else
    let s := s.onDie fun d => { d with fsb := cls }
    if cls = 2 then (List.range 8).foldl (fun s n => foHold s n 1 0) s
    else if cls = 0 then (List.range 8).foldl (fun s n => foEndHold s n 1) s
    else s

/-- The class of FSA (0) or FSB (1). -/
def FieldDie.cls (d : FieldDie) (k : Nat) : Nat := if k = 0 then d.fsa else d.fsb

/-- A time of 100 ms has passed since a tick. -/
def heldFor (now : Nat) (from? : Option Nat) : Bool := from?.any fun t => decide (t + 800000 ≤ now)

/-- The class that a supply reaches at a voltage in mV (Table 08.4): falling at once, rising after 100 ms above the higher threshold. -/
def classAt (d : FieldDie) (now k mv : Nat) : Nat :=
  let c := d.cls k
  let c := if mv < 9000 then 2 else if mv < 18000 then max c 1 else c
  if heldFor now (vget d.okFrom k) then 0 else if heldFor now (vget d.lowFrom k) then min c 1 else c

/-- The class of a supply is decided anew. -/
def reclassify (s : State) (k : Nat) : State :=
  let c := classAt s.input.die s.now k (vget s.input.fs k)
  if c = s.input.die.cls k then s else fieldClass s k c

/-- The ticks since which a supply is above a threshold. -/
def sinceAbove (now mv th : Nat) (old : Option Nat) : Option Nat := if th < mv then some (old.getD now) else none

/-- The running field die measures a supply. -/
def measureSupply (s : State) (k : Nat) : State :=
  let mv := vget s.input.fs k
  reclassify (s.onDie fun d => { d with
    lowFrom := vmod d.lowFrom k (sinceAbove s.now mv 10000), okFrom := vmod d.okFrom k (sinceAbove s.now mv 19000) }) k

/-- FSA (0) or FSB (1) moves to a voltage in mV (R215). -/
def fieldSupply (s : State) (k mv : Nat) : State :=
  let s := s.onInput fun x => { x with fs := vmod x.fs k fun _ => mv }
  if s.input.die.running then measureSupply s k else s

/-- A field supply changes (R215). -/
def execFieldSupplyChange (k mv : Nat) (s : State) : Answer := effect s (fieldSupply s k mv)

/-- The higher of the two field supplies in mV (R215). -/
def higherSupply (s : State) : Nat := max (vget s.input.fs 0) (vget s.input.fs 1)

/-- The field die stops once the higher of its supplies is not above 8.0 V (R215): it loses its state. -/
def fieldStop (s : State) : State :=
  if s.input.die.running ∧ higherSupply s ≤ 8000 then s.onDie fun _ => {} else s

/-- The field die stops (R215). -/
def execFieldDieStop (s : State) : Answer := effect s (fieldStop s)

/-- The field die powers up once the higher supply is above 10.0 V, without a configuration (R215, R217, R227): outputs off and held while FSB is
MISSING, filters at 0, RESTARTED and STALE. -/
def fieldPowerUp (s : State) : State :=
  if s.input.die.running ∨ higherSupply s ≤ 10000 then s
  else
    let s := s.onDie fun _ => { running := true, restarted := true }
    measureSupply (measureSupply (fieldClass s 1 2) 0) 1

/-- The field die powers up (R227). -/
def execFieldDiePowerUp (s : State) : Answer := effect s (fieldPowerUp s)

/-- The raw state of a field input at its level in mV, by its type, with typical thresholds (R216, Table 08.5). -/
def fiRaw (type3 old : Bool) (mv : Nat) : Bool :=
  if (if type3 then 9500 else 13000) ≤ mv then true else if mv ≤ (if type3 then 8500 else 12000) then false else old

/-- A change entry takes its place: by offset, then by input (Table 08.10). -/
def chgInsert (c : FieldChg) : List FieldChg → List FieldChg
  | [] => [c]
  | x :: r => if c.offset < x.offset || (c.offset == x.offset && c.input < x.input) then c :: x :: r else x :: chgInsert c r

/-- A sample of a field input at its level in mV, on the field die's own count (R216, R217): a change of the filter output enters the frame of its
window; in park a change of one with WAKE_EN asserts the barrier wake channel (R228). -/
def fiSample (s : State) (n mv : Nat) : State :=
  let d := s.input.die
  let g := vget d.fiCfg n
  let x := vget d.fi n
  if d.running ∧ g.enable ∧ (d.parked → g.wakeEn) ∧ sampleTick n g.sample d.tick then
    let raw := fiRaw g.type3 x.raw mv
    let c := filterStep raw g.countF x.count x.out
    let s := s.onDie fun d => { d with fi := vmod d.fi n fun _ => { raw := raw, count := c.1, out := c.2 } }
    if c.2 = x.out then s
    else
      let s := s.onDie fun d => { d with chg := chgInsert { input := n, offset := d.wire % 16, value := c.2 } d.chg }
      if d.parked then latchWake s 8 n else s
  else s

/-- A field input is sampled (R217). -/
def execFieldInputChange (n mv : Nat) (s : State) : Answer := effect s (fiSample s n mv)

/-! Configuration words (R227). Which words carry the settings the manual leaves open: word n is the record of FIn, word 16 + n that of FOn, as bytes 25 to
28 of Table 08.14 (DESIGN CHOICE, log entry 139). -/

/-- The configuration words of the stored settings. -/
def cfgWords (x : InputStore) : List (Nat × Nat) :=
  (List.range 16).map (fun n =>
    let g := vget x.fi n
    (n, b2n g.enable + 2 * b2n g.type3 + 4 * b2n g.wakeEn + 256 * g.countF + 65536 * g.sample)) ++
  (List.range 8).map fun n =>
    let g := vget x.fo n
    (16 + n, g.fail + 4 * g.park + 8 * b2n g.olEn)

/-- The field die applies one configuration word; the counter of an input follows its output (R208). -/
def applyWord (d : FieldDie) (a w : Nat) : FieldDie :=
  let d := { d with cfgSeen := setBit d.cfgSeen a true }
  let d :=
    if a < 16 then
      { d with
        fiCfg := vmod d.fiCfg a fun _ =>
          { enable := w.testBit 0, type3 := w.testBit 1, wakeEn := w.testBit 2, countF := bitsOf w 8 8, sample := bitsOf w 16 16 }
        fi := vmod d.fi a fun x => { x with count := if x.out then bitsOf w 8 8 else 0 } }
    else { d with foCfg := vmod d.foCfg (a - 16) fun _ => { fail := bitsOf w 0 2, park := bitsOf w 2 1, olEn := w.testBit 3 } }
  if d.cfgSeen = 2 ^ 24 - 1 then { d with configured := true, restarted := false } else d

/-- Queue the output commands of a frame: byte j is for tick TICK + j and applies 32 ticks later (R220). -/
def foQueue (tick : Nat) (fo : List Nat) : List (Nat × Nat) :=
  (List.range (min fo.length 16)).map fun j => (tick + j + 32, fo.getD j 0)

/-- The field die counts windows that it has missed (R224, R226). -/
def dieMissed (s : State) (n : Nat) : State := bump (s.onDie fun d => { d with missed := satAdd32 d.missed n }) 0x0E 0 n (some 8)

/-- A frame is good on the field side (R224): its CRC holds and its window is the one expected. A die that is in LINK_LOST, parked or new takes up any
window, and window 0 of a new epoch follows the last window of the epoch before (R217; DESIGN CHOICE, log entry 180). -/
def goodFrame (d : FieldDie) (crcOk : Bool) (f : MainFrame) : Bool :=
  crcOk && (d.lost || d.parked || f.tick == 0 || d.nextWin.all (· == f.tick / 16))

/-- A frame continues a run of good frames (R226). -/
def runsOn (d : FieldDie) (f : MainFrame) : Bool := d.nextWin == some (f.tick / 16) || f.tick == 0

/-- What a good frame does to the field die (R217, R220, R226, R228): its count follows TICK with the fixed delay of the frame, which is received in tick
`now`; the output commands follow 32 ticks after theirs; a configuration word applies. The changes of a window that the count leaves show in FI_STATE alone. -/
def FieldDie.takeFrame (d : FieldDie) (now : Nat) (f : MainFrame) : FieldDie :=
  let off := d.lost || (d.parked && f.park)
  let d := { d with
    goodRun := if runsOn d f then d.goodRun + 1 else 1
    chg := if d.wire / 16 = now / 16 then d.chg else []
    lastGood := some f.tick, nextWin := some (f.tick / 16 + 1), wire := now
    tick := if off then d.tick else now
    parkDue := f.park && !d.parked
    parked := d.parked && f.park
    queue := if off ∨ f.park then d.queue else d.queue ++ foQueue f.tick f.fo }
  if f.cfgValid then applyWord d f.cfgAddr f.cfgData else d

/-- The field die receives the last frame of the main die (R222, R224, R226). -/
def fieldFrame (s : State) (crcOk : Bool) : State :=
  match s.input.link.sent with
  | none => s
  | some f =>
    let s := s.onField fun l => { l with sent := none }
    let d := s.input.die
    if !d.running then s
    else if goodFrame d crcOk f then s.onDie fun d => d.takeFrame s.wallTick f
    else s.onDie fun d => { d with goodRun := 0 }

/-- The field die receives a frame (R226). -/
def execFieldFrameRx (crcOk : Bool) (s : State) : Answer := effect s (fieldFrame s crcOk)

/-- Three windows pass without a good frame (R226): LINK_LOST, and every output takes its fail state in the last tick of the third. The last good frame was
that of the window before the one it came in (DESIGN CHOICE, log entry 180). -/
def fieldLost (s : State) : State :=
  let d := s.input.die
  let due : Bool := match d.lastGood with | some t => t + 79 ≤ d.wire | none => true
  if d.running && !d.lost && !d.parked && due then
    s.onDie fun d => { d with
      lost := true, goodRun := 0, queue := []
      fo := vmapIdx d.fo fun n x =>
        let m := (vget d.foCfg n).fail
        { x with cmd := if m = 0 then false else if m = 1 then true else x.cmd } }
  else s

/-- LINK_LOST (R226). -/
def execFieldLinkLost (s : State) : Answer := effect s (fieldLost s)

/-- The field die applies the stored settings: the filter counters follow the outputs (R208, R217). -/
def fieldApply (s : State) : State :=
  s.onDie fun d => { d with
    fiCfg := s.store.input.fi, foCfg := s.store.input.fo
    fi := vmapIdx d.fi fun n x => { x with count := if x.out then (vget s.store.input.fi n).countF else 0 } }

/-- Eight good frames in a row end LINK_LOST on a configured field die (R226): it adopts TICK, the commands of the window in which it leaves, whose frame comes
after its end, and of later ones apply 32 ticks after their ticks, and settings that were stored while the points were stale apply (Table 08.14). -/
def fieldRecover (s : State) : State :=
  let d := s.input.die
  if d.running ∧ d.lost ∧ d.configured ∧ 8 ≤ d.goodRun then
    let s := if s.input.link.cfgStored then (fieldApply s).onField fun l => { l with cfgStored := false } else s
    s.onDie fun d => { d with lost := false, tick := d.wire, queue := [] }
  else s

/-- The field die leaves LINK_LOST (R226). -/
def execFieldLinkRecover (s : State) : Answer := effect s (fieldRecover s)

/-- The keeper has seen RESTARTED (R227): it sends the stored settings as configuration words, one with each frame. -/
def fieldReconfigure (s : State) : State :=
  if s.input.link.needCfg then s.onField fun l => { l with needCfg := false, cfgStored := false, cfgQueue := cfgWords s.store.input } else s

/-- The keeper reconfigures the field die (R227). -/
def execFieldReconfigure (s : State) : Answer := effect s (fieldReconfigure s)

/-- FI_STATE as a mask. -/
def fiState (d : FieldDie) : Nat := maskOf ((List.range 16).filter fun n => (vget d.fi n).out)

/-- A frame with PARK (R228): each output takes its park state, and FI_STATE is recorded. -/
def fieldPark (s : State) : State :=
  if s.input.die.running ∧ s.input.die.parkDue then
    s.onDie fun d => { d with
      parked := true, parkDue := false, queue := [], parkFi := fiState d
      fo := vmapIdx d.fo fun n x => { x with cmd := if (vget d.foCfg n).park = 0 then false else x.cmd } }
  else s

/-- The field die parks (R228). -/
def execFieldPark (s : State) : Answer := effect s (fieldPark s)

/-- The readings of a field output show that a cause becomes active or ends (Table 08.8, with the typical V_OL(off) of Table 08.7, log entry 136): 800
ticks of limiting; 175 °C, and 15 K less (R137); 8 checks in a row above or below 4.0 V; above FSB − 2 V, and below FSB − 3 V. -/
def foFaultSeen (s : State) (cause : Nat) (readings : List Nat) (active : Bool) : Bool :=
  let fsb := vget s.input.fs 1
  if cause = 7 then active && readings.any (800 ≤ ·)
  else if cause = 6 then readings.any fun c => if active then 175 ≤ c else c ≤ 160
  else if cause = 8 then 8 ≤ readings.length && readings.all fun mv => if active then 4000 < mv else mv < 4000
  else if cause = 9 then readings.any fun mv => if active then fsb < mv + 2000 else mv + 3000 < fsb
  else false

/-- A cause of Table 08.8 becomes active or ends on a field output; SUPPLY follows from the class of FSB alone. -/
def fieldOutFault (s : State) (n cause : Nat) (readings : List Nat) (active : Bool) : State :=
  let d := s.input.die
  if !d.running ∨ !foFaultSeen s cause readings active then s
  else if active then
    if cause = 7 then (if foOn d n then foLock s n 7 1 else s)
    else if cause = 6 then
      if foOn d n then
        let s := s.onFo n fun x => { x with lastShutdown := s.now, cond := { x.cond with cool := false } }
        if (foOf s n).restarts < 16 then foHold s n 6 0 else foLock s n 6 2
      else s
    else if cause = 8 then (if (vget d.foCfg n).olEn ∧ !foOn d n then foActive s n 8 1 else s)
    else if cause = 9 then (if foOn d n then s else foActive s n 9 0)
    else s
  else if cause = 6 then
    let s := s.onFo n fun x => { x with cond := { x.cond with cool := true } }
    if (foOf s n).cond.holds.testBit 6 then
      let s := foEndHold s n 6
      s.onFo n fun x => { x with restarts := x.restarts + b2n (foOn s.input.die n) }
    else s
  else if cause = 8 ∨ cause = 9 then foEnd s n cause
  else s

/-- A field output fault (R221). -/
def execFieldOutputFault (n cause : Nat) (readings : List Nat) (active : Bool) (s : State) : Answer :=
  effect s (fieldOutFault s n cause readings active)

/-- The telemetry of a frame by its place in the cycle (Table 08.10): TELEM_SEL. -/
def telemSel (k : Nat) : Nat := if k < 4 then k else k + 4

/-- The telemetry that the field die puts into a frame; its temperature is measured and stands in no state: a free value. -/
def telemetry (s : State) (sel : Nat) : Nat × State :=
  if sel = 0 then (sat16 (vget s.input.fs 0 / 100), s)
  else if sel = 1 then (sat16 (vget s.input.fs 1 / 100), s)
  else if sel = 2 then s.takeFree 8
  else if sel = 3 then (s.input.die.missed % 65536, s)
  else ((foOf s (sel - 8)).cond.active, s)

/-- The frame that the field die sends for a window that ends (R223, Table 08.10). -/
def dieFrame (s : State) : State :=
  let sel := telemSel s.input.die.telem
  let (v, s) := telemetry s sel
  s.onDie fun d =>
    let on := maskOf ((List.range 8).filter (foOn d))
    { d with
      sent := some
        { stale := d.lost || !d.configured, restarted := d.restarted, window := d.wire / 16 % 65536
          fiState := maskOf ((List.range 16).filter fun n => (vget d.fi n).out), fsa := d.fsa, fsb := d.fsb, foState := on
          foFault := maskOf ((List.range 8).filter fun n => (vget d.fo n).cond.active != 0), chg := d.chg.take 8
          telemSel := sel, telem := v }
      foSent := on, shown := { active := d.fo.map fun x => x.cond.active, therm := d.fo.map fun x => x.cond.thermDetail }
      chg := [], telem := (d.telem + 1) % 12 }

/-- A window whose good frame has not come when the next window ends, and its frame goes out, is a miss on the field side (R224); the frame of the window after
it is expected then (DESIGN CHOICE, log entry 180). -/
def dieWindowMiss (s : State) : State :=
  let d := s.input.die
  match d.nextWin with
  | some w => if !d.parked ∧ 16 * w + 31 ≤ d.wire then (dieMissed s 1).onDie fun d => { d with goodRun := 0, nextWin := some (w + 1) } else s
  | none => s

/-- The end of a tick of the field die: with that of a window its frame goes out. -/
def dieEnd (s : State) : State := if s.input.die.wire % 16 = 15 then dieFrame (dieWindowMiss s) else dieWindowMiss s

/-- The next tick of the field die: its counts advance, the commands that fall due apply (R217, R220), supplies that have been above a threshold for 100 ms
change their class (R215), and ten seconds without a shutdown clear a restart count (R137, Table 08.8). -/
def dieNext (s : State) : State :=
  let s := s.onDie fun d =>
    let t := d.tick + 1
    let due := d.queue.filter fun q => q.1 ≤ t
    { d with
      tick := t, wire := d.wire + 1, queue := d.queue.filter fun q => t < q.1
      fo := d.fo.mapIdx fun n x =>
        let x := match due.getLast? with
          | some q => { x with cmd := q.2.testBit n }
          | none => x
        if x.restarts ≠ 0 ∧ x.lastShutdown + 80000000 ≤ s.now then { x with restarts := 0 } else x }
  reclassify (reclassify s 0) 1

/-- One tick of the field die. -/
def fieldTick (s : State) : State := if s.input.die.running then dieNext (dieEnd s) else s

/-- The bytes of a frame to the field die (Table 08.9). -/
def MainFrame.bytes (f : MainFrame) : List Byte :=
  let b := leBytes 1 (1 + 16 * b2n f.park + 32 * b2n f.cfgValid) ++ leBytes 6 f.tick ++ (List.range 16).flatMap (fun j => leBytes 1 (f.fo.getD j 0)) ++
    leBytes 1 f.cfgAddr ++ leBytes 4 f.cfgData
  b ++ leBytes 2 (crc16 b)

/-- The bytes of a frame from the field die (Table 08.10). -/
def FieldFrame.bytes (f : FieldFrame) : List Byte :=
  let entry := fun (c : FieldChg) => leBytes 2 (c.input + 16 * c.offset + 256 * b2n c.value)
  let b := leBytes 1 (2 + 16 * b2n f.stale + 32 * b2n f.restarted) ++ leBytes 2 f.window ++ leBytes 2 f.fiState ++ leBytes 1 (f.fsa + 4 * f.fsb) ++
    leBytes 1 f.foState ++ leBytes 1 f.foFault ++ leBytes 1 f.chg.length ++ padTo 16 (f.chg.flatMap entry) ++ leBytes 1 f.telemSel ++ leBytes 2 f.telem
  b ++ leBytes 2 (crc16 b)

/-! The main die. -/

/-- The causes that a frame shows of field output `n` are those of a lock: SHORT, or THERMAL with detail 2 (Table 08.8). -/
def FoShown.locked (x : FoShown) (n : Nat) : Bool := (vget x.active n).testBit 7 || ((vget x.active n).testBit 6 && vget x.therm n == 2)

/-- G83:0050 as it should stand, from what the frames have reported (R229). -/
def fieldFault (s : State) : Bool :=
  s.input.link.stale || s.input.link.fsa != 0 || s.input.link.fsb != 0 || (List.range 8).any s.input.link.known.locked

/-- G83:0050 follows the changes of a stamp, in that tick (R229); while the field die is parked it keeps its value. -/
def updateFieldFault (s : State) (tick : Nat) : State :=
  let v := fieldFault s
  if s.input.link.parked ∨ s.input.link.faultSent = v then s
  else observeAt (s.onField fun l => { l with faultSent := v }) tick 3 131122 [(pointAt 83 50, BitVec.ofNat 16 (b2n v))] []

/-- FIELD_LINK (Table 08.12). -/
def fieldLinkEvent (s : State) (tick : Nat) (lost : Bool) : State :=
  observeAt s tick 8 0 [] [s.ev 8 0x0601 0 (b2n lost + 2 * min s.input.link.missedNow 32767)]

/-- The stale state of the field points begins or ends with a stamp (R225): nothing changes before the tick hall releases it. -/
def markStale (s : State) (tick : Nat) (b : Bool) : State :=
  let s := s.onField fun l => { l with stale := b }
  if feedsL0 s 8 then landPut s 0 { stamp := ⟨s.plane.epoch, tick⟩, hall := 8, stale := some b } else s

/-- A window that gives no data (R225): the third in a row marks the points stale with its stamp. -/
def noData (s : State) (w : Nat) : State :=
  let s := s.onField fun l => { l with missRun := l.missRun + 1, missedNow := l.missedNow + 1 }
  if 3 ≤ s.input.link.missRun ∧ !s.input.link.stale ∧ !s.input.link.parked then
    let s := (markStale s (16 * w + 47) true).onField fun l => { l with losses := satAdd32 l.losses 1 }
    updateFieldFault (fieldLinkEvent s (16 * w + 47) true) (16 * w + 47)
  else s

/-- H8 reports progress for a window's last tick plus 32 (R22). -/
def fieldProgress (s : State) (w : Nat) : State :=
  s.onPlane fun p => { p with landings := vmod p.landings 0 fun l => { l with
    streams := vmod l.streams 8 fun x => { x with progress := max x.progress (16 * w + 48) } } }

/-- A window's frame has not come 32 ticks after its end (R22, R224): it is completed empty and counted. -/
def windowMiss (s : State) (w : Nat) : State :=
  if s.plane.running ∧ w = s.input.link.next ∧ 16 * w + 47 ≤ s.wallTick then
    let s := (bump s 0x0E 0 1 (some 3)).onField fun l => { l with next := w + 1, missed := satAdd32 l.missed 1 }
    fieldProgress (noData s w) w
  else s

/-- A barrier-link miss (R22). -/
def execBarrierWindowMiss (window : Nat) (s : State) : Answer := effect s (windowMiss s window)

/-- One change entry of a good frame (R224). -/
def chgEntry (w : Nat) (s : State) (c : FieldChg) : State :=
  observeAt (s.onField fun l => { l with fiState := setBit l.fiState c.input c.value }) (16 * w + c.offset + 32) 8 c.input
    [(fiPoint c.input, BitVec.ofNat 16 (b2n c.value))] []

/-- More changes than 8 fell in a window: its entries are full and FI_STATE still differs. The event is counted (R224). -/
def countOverflow (fi : Nat) (full : Bool) (s : State) : State :=
  if full ∧ fi ≠ s.input.link.fiState then s.onField fun l => { l with chgOverflow := satAdd32 l.chgOverflow 1 } else s

/-- An input whose FI_STATE differs after the entries is written with the stamp of the window's end (R224). -/
def chgOverflow (w fi : Nat) (s : State) (n : Nat) : State :=
  if fi.testBit n = s.input.link.fiState.testBit n then s
  else
    let s := s.onField fun l => { l with fiState := setBit l.fiState n (fi.testBit n) }
    observeAt s (16 * w + 47) 8 n [(fiPoint n, BitVec.ofNat 16 (b2n (fi.testBit n)))] []

/-- A supply class that a good frame changes (R224). -/
def fsChange (w k cls : Nat) (s : State) : State :=
  let old := if k = 0 then s.input.link.fsa else s.input.link.fsb
  if old = cls then s
  else
    let s := s.onField fun l => if k = 0 then { l with fsa := cls } else { l with fsb := cls }
    observeAt s (16 * w + 47) 8 (16 + k) [(fsPoint k, BitVec.ofNat 16 cls)] [s.ev 8 0x0602 (fsPoint k) cls true]

/-- One cause of one output that a frame shows changed (R221, R224): FIELD_OUT_FAULT with its code and detail, or FIELD_OUT_CLEAR. -/
def causeChange (w n : Nat) (old new : FoShown) (s : State) (k : Nat) : State :=
  let was := (vget old.active n).testBit k
  let is := (vget new.active n).testBit k
  let det := if k = 6 then vget new.therm n else if k = 7 ∨ k = 8 then 1 else 0
  let post := fun kind v => observeAt s (16 * w + 47) 8 (24 + n) [] [s.ev 8 kind n v]
  if is ∧ (!was ∨ (k = 6 ∧ vget old.therm n ≠ vget new.therm n)) then post 0x0603 (k + 256 * det)
  else if was ∧ !is then post 0x0604 k
  else s

/-- The changes of the outputs' causes that a frame shows (R221, R224). -/
def outputChanges (w : Nat) (s : State) : State :=
  let old := s.input.link.known
  let new := s.input.die.shown
  let s := (List.range 8).foldl (fun s n => (List.range 12).foldl (causeChange w n old new) s) s
  s.onField fun l => { l with known := new }

/-- Telemetry of a frame (Table 08.10). -/
def takeTelem (sel v : Nat) (l : FieldLink) : FieldLink :=
  if sel = 0 then { l with vFsa := v }
  else if sel = 1 then { l with vFsb := v }
  else if sel = 2 then { l with temp := v }
  else if sel = 3 then { l with fieldMissed := v }
  else if 8 ≤ sel ∧ sel < 16 then { l with active := vmod l.active (sel - 8) fun _ => v }
  else l

/-- The main side takes the last frame of the field die, a good one for the window expected (R22, R224, R225): with STALE = 0 it delivers its changes, its
classes and its faults, and ends the stale state; with STALE = 1 it gives no data. A bad frame is left to its window's miss. -/
def barrierFrame (s : State) (crcOk : Bool) : State :=
  match s.input.die.sent with
  | none => s
  | some f =>
    let s := s.onDie fun d => { d with sent := none }
    let w := s.input.link.next
    if s.plane.running ∧ crcOk ∧ f.window = w % 65536 ∧ 16 * w + 16 ≤ s.wallTick then
      let s := s.onField fun l => { takeTelem f.telemSel f.telem l with
        next := w + 1, training := false, foState := f.foState, foFault := f.foFault
        needCfg := l.needCfg || (f.restarted && l.cfgQueue.isEmpty) }
      if f.stale then fieldProgress (noData s w) w
      else
        let s := if s.input.link.stale then markStale (fieldLinkEvent s (16 * w + 47) false) (16 * w + 47) false else s
        let s := s.onField fun l => { l with missRun := 0, missedNow := 0 }
        let s := f.chg.foldl (chgEntry w) s
        let s := (List.range 16).foldl (chgOverflow w f.fiState) (countOverflow f.fiState (f.chg.length == 8) s)
        let s := fsChange w 1 f.fsb (fsChange w 0 f.fsa s)
        let s := outputChanges w s
        fieldProgress (updateFieldFault s (16 * w + 47)) w
    else s

/-- A frame from the field die (R224). -/
def execBarrierFrameRx (crcOk : Bool) (s : State) : Answer := effect s (barrierFrame s crcOk)

/-- The output commands of a tick enter the frame of its window (R220); a full window is the frame that goes out (R222), with PARK on the way to Dark (R228)
and with the next configuration word (R227). A dry replay keeps the commands before it (R44). -/
def foTick (s : State) : State :=
  let v := if s.plane.replay.running ∧ ¬s.plane.replay.live then s.input.link.foLast
    else maskOf ((List.range 8).filter fun n => pget s (foPoint n) != 0)
  let park := s.sleep.darkPending
  s.onField fun l =>
    let x := l.foWindow ++ [v]
    if s.wallTick % 16 = 15 then
      let c := l.cfgQueue.head?
      { l with
        foWindow := [], foLast := v, parked := park, cfgQueue := l.cfgQueue.drop 1
        sent := some
          { park := park, cfgValid := c.isSome, tick := s.wallTick - 15, fo := x, cfgAddr := (c.getD (0, 0)).1, cfgData := (c.getD (0, 0)).2 } }
    else { l with foWindow := x, foLast := v }

/-- The first tick at which hall `h`'s stream has joined L0 (R211). -/
def joinStamp (s : State) (h : Nat) : Stamp := ⟨s.plane.epoch, (vget (vget s.plane.landings 0).streams h).joinedAt⟩

/-- The inputs that differ from what was loaded after Dark or Buoy are delivered as changes, stamped with the first tick at which their hall's stream has
joined (R211). -/
def inputReload (s : State) : State :=
  let s :=
    if s.input.reloadSi ∧ feedsL0 s 7 then
      (List.range 48).foldl (fun s i =>
        let v := BitVec.ofNat 16 (b2n (siOf s i).out)
        if pget s (siPoint i) = v then s else observeStamped s (joinStamp s 7) 7 i [(siPoint i, v)] [] [pointCap 7 (siPoint i) v])
        (s.onInput fun x => { x with reloadSi := false })
    else s
  if s.input.reloadFi ∧ feedsL0 s 8 ∧ !s.points.stale ∧ s.input.die.running then
    (List.range 16).foldl (fun s n =>
      let b := (vget s.input.die.fi n).out
      let v := BitVec.ofNat 16 (b2n b)
      if pget s (fiPoint n) = v then s
      else observeStamped (s.onField fun l => { l with fiState := setBit l.fiState n b }) (joinStamp s 8) 8 n [(fiPoint n, v)] [] [pointCap 8 (fiPoint n) v])
      (s.onInput fun x => { x with reloadFi := false })
  else s

/-- The inputs are reloaded after Dark or Buoy (R211). -/
def execTickHallInputReload (s : State) : Answer := effect s (inputReload s)

/-- The loads of R211 at the start of the tick hall after Dark or Buoy: the references and the values held at park. -/
def loadReferences (s : State) : State :=
  let s := (List.range 48).foldl (fun s i => loadPoint s (siPoint i) (BitVec.ofNat 16 (b2n (siOf s i).ref))) s
  let s := (List.range 16).foldl (fun s n =>
    loadPoint s (fiPoint n) (BitVec.ofNat 16 (b2n (s.input.die.parkFi.testBit n)))) s
  (s.onField fun l => { l with fiState := s.input.die.parkFi }).onInput fun x => { x with reloadSi := true, reloadFi := true }

/-! Field opcodes. -/

/-- Records of FIELD.CONFIG. -/
def fcCount (p : Packet) : Nat := p.num 17 1

/-- Record `i` is a field output's. -/
def fcIsFo (p : Packet) (i : Nat) : Bool := p.bit (24 + 8 * i) 7

/-- The index of record `i`. -/
def fcIx (p : Packet) (i : Nat) : Nat := p.fld (24 + 8 * i) 0 4

/-- Record `i` as a field input's (Table 08.14). -/
def fiCfgOf (p : Packet) (i : Nat) : FiCfg :=
  let b := 24 + 8 * i
  { enable := p.bit (b + 1) 0, type3 := p.bit (b + 1) 1, wakeEn := p.bit (b + 1) 2, countF := p.num (b + 2) 1
    sample := p.num (b + 3) 2 }

/-- Record `i` as a field output's (Table 08.14). -/
def foCfgOf (p : Packet) (i : Nat) : FoCfg :=
  let b := 24 + 8 * i
  { fail := p.fld (b + 1) 0 2, park := p.fld (b + 1) 2 1, olEn := p.bit (b + 1) 3 }

/-- Record `i` names no input or output, or sets a bit that is reserved in its class (R11, Table 08.14). -/
def fcReservedBad (p : Packet) (i : Nat) : Bool :=
  let b := 24 + 8 * i
  if fcIsFo p i then 7 < fcIx p i || p.fld (b + 1) 4 4 != 0 || p.num (b + 2) 1 != 0 || p.num (b + 3) 2 != 0 else p.fld (b + 1) 3 5 != 0

/-- Record `i` breaks a range of Table 08.14. -/
def fcRecordBad (p : Packet) (i : Nat) : Bool :=
  let b := 24 + 8 * i
  fcReservedBad p i ||
    if fcIsFo p i then p.fld (b + 1) 0 2 == 3 else p.num (b + 2) 1 == 0 || p.num (b + 3) 2 == 0 || 1000 < p.num (b + 3) 2

/-- Unlock a field output whose end condition is met; the answer says that it stays locked. -/
def unlockFo (s : State) (n : Nat) : State × Bool :=
  let c := (foOf s n).cond
  if c.locks = 0 then (s, false)
  else if c.locks.testBit 6 ∧ !c.cool then (s, true)
  else
    let s := (bitList 12 c.locks).foldl (fun s k => foEnd s n k) s
    (s.onFo n fun x => { x with restarts := 0, cond := { x.cond with locks := 0, waiting := false } }, false)

/-- FIELD.CONFIG (Table 08.14). -/
def fieldConfigOp : Op where
  code := 0x0610
  slotsOk := slotsIn 1 4
  layout := fun p => (16, 0, 1) :: (17, 0, 8) :: (18, 0, 8) :: entryLayout 24 8 (min (fcCount p) 24)
    [(0, 0, 4), (0, 7, 1), (1, 0, 8), (2, 0, 8), (3, 0, 16)]
  bad := fun p _ => 24 < fcCount p || (64 * p.slots - 24) / 8 < fcCount p ||
    !((List.range (fcCount p)).map fun i => (fcIsFo p i, fcIx p i)).Nodup ||
    (List.range (fcCount p)).any fun i =>
      if p.bit 16 0 then fcReservedBad p i else fcRecordBad p i
  deny := fun p s => !mayWrite s p.comp 82
  agree := fun _ _ s => s.store.input.fi.toList.all fun g => !g.wakeEn || g.enable
  run := fun p s =>
    let s := if p.bit 16 0 then s
      else s.onStore fun st => { st with input := (List.range (fcCount p)).foldl (fun x i =>
        if fcIsFo p i then { x with fo := vmod x.fo (fcIx p i) fun _ => foCfgOf p i }
        else { x with fi := vmod x.fi (fcIx p i) fun _ => fiCfgOf p i }) st.input }
    let stale := s.points.stale
    let s := if stale ∧ !p.bit 16 0 then s.onField fun l => { l with cfgStored := true } else s
    let (s, stay) :=
      if stale then (s, [])
      else (bitList 8 (p.num 18 1)).foldl (fun a n =>
        let (s, k) := unlockFo a.1 n
        (s, if k then a.2 ++ [n] else a.2)) (if p.bit 16 0 then s else fieldApply s, [])
    { s := s
      st := some (if stale then .stale else if stay.isEmpty then .ok else .locked)
      reply := (18, 1, maskOf stay) ::
        (List.range (fcCount p)).flatMap fun i =>
          let b := 24 + 8 * i
          let n := fcIx p i
          if fcIsFo p i then
            let g := vget s.store.input.fo n
            [(b, 1, n + 128), (b + 1, 1, g.fail + 4 * g.park + 8 * b2n g.olEn)]
          else
            let g := vget s.store.input.fi n
            [(b, 1, n), (b + 1, 1, b2n g.enable + 2 * b2n g.type3 + 4 * b2n g.wakeEn), (b + 2, 1, g.countF),
              (b + 3, 2, g.sample)] }

/-- FIELD.CONFIG. -/
def execFieldConfig (p : Packet) (s : State) : Answer := effect s (keeperTake fieldConfigOp p s)

/-- LINK of FIELD.STATUS (Table 08.15). -/
def fieldLinkCode (s : State) : Nat :=
  if s.input.link.parked then 2 else if s.input.link.training then 3 else if s.points.stale then 1 else 0

/-- FIELD.STATUS (Table 08.15). -/
def fieldStatusOp : Op where
  code := 0x0611
  layout := fun _ => [(16, 0, 1)]
  deny := fun p s => !mayRead s p.comp 82
  run := fun p s =>
    let l := s.input.link
    let locked := maskOf ((List.range 8).filter fun n => (foOf s n).cond.locks != 0)
    let cmd := maskOf ((List.range 8).filter fun n => pget s (foPoint n) != 0)
    { s := if p.bit 16 0 then
        s.onField fun l => { l with missed := 0, chgOverflow := 0, losses := 0, fieldMissed := 0 } else s
      st := some (if s.points.stale then .stale else .ok)
      reply := [(16, 1, fieldLinkCode s), (17, 1, l.fsa + 4 * l.fsb), (18, 2, l.fiState), (20, 1, cmd), (21, 1, l.foState),
        (22, 2, l.vFsa), (24, 2, l.vFsb), (26, 1, l.temp), (27, 1, locked)] ++
        (List.range 8).map (fun n => (32 + 2 * n, 2, vget l.active n)) ++
        [(48, 4, l.missed), (52, 4, l.fieldMissed), (56, 4, l.chgOverflow), (60, 4, l.losses)] }

/-- FIELD.STATUS. -/
def execFieldStatus (p : Packet) (s : State) : Answer := effect s (keeperTake fieldStatusOp p s)

end Sys2Proof.Machine
end

