-- ==== Sys2Proof/Machine/CanOps.lean ====
section
/-! DEFINITION. The shared operations of the CAN and LIN controllers (chapter 09): numbering of data bits, templates, transmit
queues, hand-over, completion of sends, and cancellation. -/

namespace Sys2Proof.Machine

/-- Change the bus hall. -/
def State.onBus (s : State) (f : Bus → Bus) : State := { s with bus := f s.bus }

/-- CAN controller `c`. -/
def canOf (s : State) (c : Nat) : Can := vget s.bus.can c

/-- Change CAN controller `c`. -/
def State.onCan (s : State) (c : Nat) (f : Can → Can) : State :=
  s.onBus fun b => { b with can := vmod b.can c f }

/-- MODE record of CAN controller `c` in the configuration store. -/
def canCfg (s : State) (c : Nat) : CanMode := vget s.store.can.mode c

/-- MODE record in force on CAN controller `c`: the one before until the frame that was on the bus when it changed is over (R235). -/
def canMode (s : State) (c : Nat) : CanMode :=
  match (canOf s c).old with
  | some x => x.1
  | none => canCfg s c

/-- DATA record in force on CAN controller `c` (R235). -/
def canData (s : State) (c : Nat) : CanData :=
  match (canOf s c).old with
  | some x => x.2
  | none => vget s.store.can.data c

/-- LIN controller `c`. -/
def linAt (s : State) (c : Nat) : Lin := vget s.bus.lin c

/-- Change LIN controller `c`. -/
def State.onLin (s : State) (c : Nat) (f : Lin → Lin) : State :=
  s.onBus fun b => { b with lin := vmod b.lin c f }

/-- Settings of LIN controller `c`. -/
def linCfg (s : State) (c : Nat) : LinCfg := vget s.store.can.lin c

/-- Frame template `t`. -/
def tplOf (s : State) (t : Nat) : Template := Tbl.get s.store.can.tpl {} t

/-- The owner of a template that exists (R242). -/
def templateOwner (s : State) (t : Nat) : Option Nat := if (tplOf s t).used then some (tplOf s t).owner else none

/-- Data bit numbers of a field, least significant first (R240): upward from START, or from START down to bit 0 of its byte and
on at bit 7 of the next. -/
def fieldBits (big : Bool) (start length : Nat) : List Nat :=
  if big then
    ((List.range length).map fun i =>
      let k := 7 - start % 8 + i
      8 * (start / 8 + k / 8) + (7 - k % 8)).reverse
  else (List.range length).map (start + ·)

/-- Bit `b` of data bytes (R240). -/
def dataBit (data : List Byte) (b : Nat) : Bool := (data.getD (b / 8) 0).toNat.testBit (b % 8)

/-- The field lies within the data. -/
def fieldFits (data : List Byte) (big : Bool) (start length : Nat) : Bool :=
  (fieldBits big start length).all fun b => b < 8 * data.length

/-- The number a field holds. -/
def fieldValue (data : List Byte) (big : Bool) (start length : Nat) : Nat :=
  let l := fieldBits big start length
  (List.range l.length).foldl (fun n i => if dataBit data (l.getD i 0) then n + 2 ^ i else n) 0

/-- Write a number into a field of the data. -/
def setField (data : List Byte) (big : Bool) (start length v : Nat) : List Byte :=
  let l := fieldBits big start length
  (List.range l.length).foldl (fun d i =>
    let b := l.getD i 0
    d.set (b / 8) (BitVec.ofNat 8 (setBit (d.getD (b / 8) 0).toNat (b % 8) (v.testBit i)))) data

/-- A template filled from the point values at the end of the tick before (R242). -/
def fillTemplate (s : State) (t : Template) : List Byte :=
  t.fields.foldl (fun d f => setField d f.big f.start f.length (pprev s f.point).toNat) (padTo t.len t.data)

/-- Valid data lengths of a frame: up to 8, or an FD length (R250). -/
def canLenOk (fdf : Bool) (n : Nat) : Bool :=
  n ≤ 8 || (fdf && (n == 12 || n == 16 || n == 20 || n == 24 || n == 32 || n == 48 || n == 64))

/-- The key of an identifier with its IDE. -/
def idKey (f : CanFrame) : Nat := f.id + 2 ^ 29 * b2n f.ide

/-- The frames of a controller with the place each stands in. -/
def Can.frames (x : Can) : List TxFrame := x.slot0.toList ++ x.slot1.toList ++ x.fifo

/-- Identifiers in the order of arbitration: an 11-bit identifier stands over the upper bits of a 29-bit one and wins against
it where they are equal. -/
def arbKey (f : CanFrame) : Nat := if f.ide then f.id * 2 + 1 else f.id * 2 ^ 18 * 2

/-- The frame a controller offers (R244): the slot frame with the lower identifier, slot 0 on a tie; else the FIFO head. A
secure frame offers itself once its tag is ready, and holds its place until then (R252). -/
def Can.offer (x : Can) : Option TxFrame :=
  let f := match x.slot0, x.slot1 with
    | some a, some b => if arbKey b.frame < arbKey a.frame then some b else some a
    | some a, none => some a
    | none, some b => some b
    | none, none => x.fifo.head?
  match f with
  | some a => if a.tagReady then some a else none
  | none => none

/-- The controller's next frame becomes the one it sends, unless the start-of-frame of the present one has been sampled. -/
def Can.reoffer (x : Can) (sof : Bool) : Can :=
  if sof ∧ x.current.isSome ∧ x.frames.any (fun f => some f.handle == x.current) then x
  else { x with current := x.offer.map (·.handle) }

/-- Remove a frame by its HANDLE. -/
def Can.remove (x : Can) (h : Nat) : Can :=
  { x with
    fifo := x.fifo.filter fun f => f.handle != h
    slot0 := if (x.slot0.map (·.handle)) = some h then none else x.slot0
    slot1 := if (x.slot1.map (·.handle)) = some h then none else x.slot1
    current := if x.current = some h then none else x.current }

/-- Change a frame by its HANDLE. -/
def Can.onFrame (x : Can) (h : Nat) (g : TxFrame → TxFrame) : Can :=
  { x with
    fifo := x.fifo.map fun f => if f.handle = h then g f else f
    slot0 := x.slot0.map fun f => if f.handle = h then g f else f
    slot1 := x.slot1.map fun f => if f.handle = h then g f else f }

/-- A frame by its HANDLE. -/
def Can.find (x : Can) (h : Nat) : Option TxFrame := x.frames.find? fun f => f.handle == h

/-- The reply of a send (Table 09.14). -/
def sendReply (f : TxFrame) (stamp : Nat) : Reply :=
  [(16, 2, f.handle), (18, 1, b2n (!f.cancels.isEmpty)), (19, 1, sat8 f.attempts), (24, 8, stamp)]

/-- One named frame of a cancellation is decided; the last one completes the packet (R246). -/
def cancelDecided (s : State) (p : Packet) (removed : Bool) : State :=
  match s.bus.cancels.find? fun q => samePlace q.packet p with
  | none => s
  | some q =>
    let q := { q with
      left := q.left - 1, cancelled := if removed then q.cancelled + 1 else q.cancelled
      lateCount := if removed then q.lateCount else q.lateCount + 1 }
    let rest := s.bus.cancels.filter fun x => !samePlace x.packet p
    if q.left = 0 then
      completeNow (s.onBus fun b => { b with cancels := rest }) p
        (lateStatus q.late (if q.lateCount = 0 then .cancelled else .cancelLate))
        [(16, 1, sat8 q.cancelled), (17, 1, sat8 q.lateCount)]
    else s.onBus fun b => { b with cancels := rest ++ [q] }

/-- A frame leaves its controller (R245, R246): its confirmed send completes with `st`, and its cancellations are decided. -/
def frameLeaves (s : State) (c : Nat) (f : TxFrame) (st : Status) (sent : Bool) : State :=
  let s := s.onCan c fun x => x.remove f.handle
  let s := match f.confirm with
    | some p => completeNow s p (lateStatus f.late st) (sendReply f (if sent then s.stamp.word else 0))
    | none => s
  f.cancels.foldl (fun s p => cancelDecided s p (!sent)) s

/-- Post an event of a bus through L0; `src` is the source index of its controller (R232). -/
def busEvent (s : State) (src kind address value : Nat) (point : Bool := false) : State :=
  observe s 6 src [] [s.ev 6 kind address value point]

/-- A controller's state changes (R248). -/
def setCanState (s : State) (c st : Nat) : State :=
  if (canOf s c).state = st then s
  else
    let s := s.onCan c fun x => { x with state := st }
    if st = 0 then s else busEvent s c 0x0702 c st

/-- The controller can send: OP is NORMAL or LOOPBACK (R231). -/
def CanMode.sends (m : CanMode) : Bool := m.op == 1 || m.op == 3

/-- Every waiting frame of a controller is removed (R235, R238). -/
def dropFrames (s : State) (c : Nat) (st : Status) : State :=
  (canOf s c).frames.foldl (fun s f => frameLeaves s c f st false) s

/-- Settings of a secure CAN stream. -/
def streamCfg (s : State) (k : Nat) : StreamCfg := vget s.store.can.stream k

/-- A secure CAN stream. -/
def streamOf (s : State) (k : Nat) : CanStream := vget s.bus.stream k

/-- Change a secure CAN stream. -/
def State.onStream (s : State) (k : Nat) (f : CanStream → CanStream) : State :=
  s.onBus fun b => { b with stream := vmod b.stream k f }

/-- A secure CAN stream or a MACsec SA keeps PD5 on (R300). -/
def keepsPd5 (s : State) : Bool := (List.range 8).any (fun k => (streamCfg s k).enable) || !s.store.eth.sas.isEmpty

/-- A stream takes its key copy, at enable and at every start (R298, R310). The freshness of an RX stream belongs to a slot and
its generation; under another key it starts at 0. -/
def enableStream (s : State) (k : Nat) : State :=
  let n := (streamCfg s k).keySlot
  let x := keySlot s n
  let same : Bool := vget s.store.can.freshKey k == (n, x.generation)
  let s := if same then s else s.onStore fun st => { st with can := { st.can with
    fresh := vmod st.can.fresh k fun _ => 0, freshKey := vmod st.can.freshKey k fun _ => (n, x.generation) } }
  s.onStream k fun y => { key := x.material, fixed := x.fixed, fr := if same then y.fr else 0 }

/-- The AAD of a secure frame: the identifier as 4 bytes with bit 31 = IDE, then the payload (R250); the most significant byte stands first
(DESIGN CHOICE, log entry 141: R250 gives no byte order for it). -/
def secureAad (f : CanFrame) (payload : List Byte) : List Byte := beBytes 4 (f.id + 2 ^ 31 * b2n f.ide) ++ payload

/-- The IV of a secure frame (R250). -/
def secureIv (fixed f : Nat) : List Byte := beBytes 4 fixed ++ beBytes 8 f

/-- The data of a secure frame: payload, the low 32 bits of F, and the first 8 bytes of the GMAC tag (R250). -/
def secureData (key : List Byte) (fixed f : Nat) (fr : CanFrame) (payload : List Byte) : List Byte :=
  payload ++ beBytes 4 (f % 2 ^ 32) ++ (Config.gcmTag key (secureIv fixed f) (secureAad fr payload) []).take 8

/-- Draw F for a TX stream (R252, Table 12.6). -/
def drawFresh (s : State) (k : Nat) : State × Except Status (Option Nat) :=
  let x := streamOf s k
  let slot := (streamCfg s k).keySlot
  if x.revoked then (s, .error .keyRevoked)
  else if x.stopped then (s, .error .nonceExhausted)
  else if (match x.limit with | some l => decide (l ≤ (keySlot s slot).counter) | none => false) = true then
    (s, .error .keyChanged)
  else
    match drawCounter s slot with
    | (s, .value f) => (s, .ok (some f))
    | (s, .wait) => (s, .ok none)
    | (s, .exhausted) => (s.onStream k fun y => { y with stopped := true }, .error .nonceExhausted)

/-- The place a frame takes has room: the FIFO holds 32 frames, a slot one (R243, R244). -/
def queueFree (x : Can) (queue : Nat) : Bool :=
  if queue = 1 then x.slot0.isNone else if queue = 2 then x.slot1.isNone else x.fifo.length < 32

/-- Put a frame into its place. -/
def Can.enqueue (x : Can) (queue : Nat) (f : TxFrame) : Can :=
  if queue = 1 then { x with slot0 := some f } else if queue = 2 then { x with slot1 := some f }
  else { x with fifo := x.fifo ++ [f] }

/-- In a dry replay no frame is handed to a bus controller (R44). -/
def dryReplay (s : State) : Bool := s.plane.replay.running && !s.plane.replay.live

/-- The engine has computed the tag of a secure frame (R252, R299); of a stream whose key has been revoked meanwhile the frame leaves instead (R311). -/
def tagDone (s : State) (c : Nat) (f : TxFrame) : State :=
  if (streamOf s f.stream).revoked then frameLeaves s c f .keyRevoked false
  else
    let s := engineRun s (20 + f.stream) (secureBlocks f.frame.data.length)
    s.onCan c fun x => (x.onFrame f.handle fun g => { g with tagReady := true }).reoffer x.current.isSome

/-- Tags that have taken their 32 ticks are ready (R252), and frames without a tag whose stream is revoked leave within the tick (Table 12.6). -/
def tagsTick (s : State) : State :=
  (List.range 8).foldl (fun s c =>
    ((canOf s c).frames.filter fun f => f.secure && !f.tagReady && (f.readyAt ≤ s.now || (streamOf s f.stream).revoked)).foldl
      (fun s f => tagDone s c f) s) s

/-- Hand a frame to a CAN controller: it takes a HANDLE, and the hand-over enters the result stream (R30, R243). -/
def handCan (s : State) (c queue : Nat) (f : TxFrame) (sof : Bool) : State × Nat :=
  let h := (canOf s c).handles
  let f := { f with handle := h, readyAt := s.now + 32 }
  let s := s.onCan c fun x =>
    let x := { x with handles := (h + 1) % 65536 }
    if dryReplay s then x else (x.enqueue queue f).reoffer sof
  (s.onPlane fun p => { p with results := .frame s.plane.tick c f.frame f.mac :: p.results }, h)

/-- A frame that the device itself sends, such as an NM message: it takes the FIFO, if there is room. -/
def sendOwn (s : State) (c : Nat) (f : CanFrame) : State :=
  if (canMode s c).sends ∧ queueFree (canOf s c) 0 then (handCan s c 0 { frame := f } false).1 else s

/-- Order of L4 items: by tick, then hall, then source index (R20, R81). -/
def l4Before (a b : L4Item) : Bool :=
  a.lin < b.lin || (a.lin == b.lin && (a.hall < b.hall || (a.hall == b.hall && a.idx < b.idx)))

/-- Put an item into L4. -/
def l4Insert (a : L4Item) : List L4Item → List L4Item
  | [] => [a]
  | x :: r => if l4Before a x then a :: x :: r else x :: l4Insert a r

/-- Send over L4 in the next tick (R243). -/
def l4Put (s : State) (hall idx : Nat) (k : L4Kind) : State :=
  s.onBus fun b => { b with l4 := l4Insert { lin := s.plane.lin, hall := hall, idx := idx, kind := k } b.l4 }

/-- A FRAME action of reflex rule `rule` (R119, R243), which is its source index (R106): false where the template does not exist. -/
def reflexTemplate (s : State) (t rule : Nat) : State × Bool :=
  if (tplOf s t).used then (l4Put s 3 rule (.reflex t), true) else (s, false)

end Sys2Proof.Machine
end

