-- ==== Sys2Proof/Machine/Keys.lean ====
section
/-! DEFINITION. Key slots, the lattice unit and the TRNG (chapter 12): changes of a slot in drain and abort mode, and the opcodes of group
0x0A. -/

namespace Sys2Proof.Machine

/-! Algorithms (Table 12.5). -/

/-- Usages that an algorithm allows. -/
def usageMask (alg : Nat) : Nat :=
  if alg = 1 then 0x217 else if alg = 2 then 0x100 else if alg = 3 then 0x008 else if alg = 4 then 0x060
  else if alg = 5 then 0x0C0 else if alg = 6 then 0x010 else 0

/-- Bytes of an algorithm's material. -/
def materialLen (alg : Nat) : Nat :=
  if alg = 2 then 16 else if alg = 5 then 1952 else if alg = 6 then 64 else 32

/-- A usage set is allowed for an algorithm. -/
def usageAllowed (alg usage : Nat) : Bool := usage ||| usageMask alg == usageMask alg

/-- A source is allowed for an algorithm: plaintext or generation in the device. -/
def sourceAllowed (alg : Nat) (generate : Bool) : Bool := if generate then alg != 5 else alg != 4 && alg != 6

/-! A change of a slot (R310, R311). -/

/-- What a slot held, for requests admitted before the change; what no request can still need is left out. -/
def keepPast (s : State) (abort : Bool) (x : KeySlot) : List KeyPast :=
  { alg := x.alg, usage := x.usage, generation := x.generation, material := x.material, until_ := s.stamp, abort := abort
    at_ := s.now } :: x.past.filter fun e => s.now < e.at_ + 80016000

/-- Contexts of the crypto rings that work with a slot are to stop (R311). -/
def markAborted (s : State) (k : Nat) : State :=
  s.onCipher fun c => { c with ctx := c.ctx.map fun x => if x.busy && x.keySlot == k then { x with abort := true } else x }

/-- Secure CAN streams under a change of their slot (Table 12.6): revoked in abort mode; in drain mode a TX stream keeps the counter values
already reserved, none where the counter restarts. -/
def changeStreams (s : State) (k : Nat) (abort restart : Bool) : State :=
  (List.range 8).foldl (fun s i =>
    let g := vget s.store.can.stream i
    if g.enable ∧ g.keySlot = k then
      s.onBus fun b => { b with stream := vmod b.stream i fun y =>
        if abort then { y with revoked := true }
        else if g.tx then { y with limit := some (if restart then 0 else y.limit.getD (keySlot s k).commit) } else y }
    else s) s

/-- A slot changes at E (R310, R311): what it held is kept for requests already admitted, its generation rises, work on it drains or stops,
and KEY_CHANGE is posted. -/
def changeSlot (s : State) (p : Packet) (k : Nat) (abort erase restart : Bool) (f : KeySlot → KeySlot) : State :=
  let s := changeStreams s k abort restart
  let past := keepPast s abort (keySlot s k)
  let s := s.onKey k fun x => { f x with generation := x.generation + 1, changed := s.stamp, past := past }
  let s := if abort then stopSlotSas (markAborted s k) k else s
  postEvent s (s.ev 1 0x0A01 (k + 256 * b2n erase + 512 * b2n abort) ((keySlot s k).generation % 65536) false p.comp)

/-- The generation of a slot is at its end (R310). -/
def generationFull (s : State) (k : Nat) : Bool := 0xFFFFFFFF ≤ (keySlot s k).generation

/-- The expected generation of a target at E: 0 is any. -/
def targetStale (s : State) (k gen : Nat) : Bool := gen != 0 && gen != (keySlot s k).generation

/-- A compartment may write a slot (R308): its charter grants it, and it is empty or its own; the keeper may write any. -/
def mayWriteKey (s : State) (c k : Nat) : Bool :=
  16 ≤ k && mayKey s c k && (c == 0 || !(keySlot s k).owned || (keySlot s k).owner == c)

/-- A compartment may use a slot of R308 by name. -/
def mayUseKey (s : State) (c k : Nat) : Bool := mayKey s c k && (c == 0 || 16 ≤ k)

/-- FIXED as given, or drawn (R312). -/
def fixedOf (s : State) (given : Nat) : Nat × State :=
  if given ≠ 0 then (given, s) else let (l, s) := drawPlane s 4 0; (leNat l, s)

/-- FIXED has to be drawn while the random source fails (R316). -/
def fixedFails (s : State) (given : Nat) : Bool := given == 0 && s.cipher.trngFail

/-- An address is a multiple of 16. -/
def aligned (a : Nat) : Bool := a % 16 == 0

/-! KEY.WRITE and KEY.ERASE. -/

/-- KEY.WRITE generates the key in the device. -/
def kwGenerate (p : Packet) : Bool := p.bit 17 1

/-- The new contents of a slot under KEY.WRITE. -/
def kwSlot (p : Packet) (fixed : Nat) (material : List Byte) (x : KeySlot) : KeySlot :=
  { x with
    alg := p.num 18 1, usage := p.fld 20 0 10, owner := p.comp, owned := true, origin := b2n (kwGenerate p), fixed := fixed
    material := material, counter := if kwGenerate p then 0 else x.counter, commit := if kwGenerate p then 0 else x.commit
    lowTold := !kwGenerate p && x.lowTold }

/-- KEY.WRITE (Table 12.10). -/
def keyWriteOp : Op where
  code := 0x0A00
  layout := fun _ => [(16, 0, 8), (17, 0, 2), (18, 0, 8), (20, 0, 10), (24, 0, 32), (28, 0, 32), (32, 0, 32), (36, 0, 32)]
  bad := fun p _ => p.num 16 1 < 16 || p.num 18 1 < 1 || 6 < p.num 18 1 || !aligned (p.num 32 4) ||
    (kwGenerate p && (p.num 32 4 != 0 || p.num 36 4 != 0))
  deny := fun p s => !mayWriteKey s p.comp (p.num 16 1) ||
    (!kwGenerate p && !bufferReaches s p.comp (p.num 32 4) (p.num 36 4))
  run := fun p s =>
    let k := p.num 16 1
    let alg := p.num 18 1
    if !usageAllowed alg (p.fld 20 0 10) || !sourceAllowed alg (kwGenerate p) ||
        (!kwGenerate p && p.num 36 4 != materialLen alg) || generationFull s k then { s := s, st := some .conflict }
    else if targetStale s k (p.num 24 4) then { s := s, st := some .keyChanged }
    else if fixedFails s (p.num 28 4) || (kwGenerate p && s.cipher.trngFail) then { s := s, st := some .hwFault }
    else
      let (fixed, s) := fixedOf s (p.num 28 4)
      let (material, s) :=
        if kwGenerate p then s.drawBytes (materialLen alg) else (memReadN s (p.num 32 4) (materialLen alg), s)
      let s := changeSlot s p k (p.bit 17 0) false (kwGenerate p) (kwSlot p fixed material)
      { s := s, reply := [(16, 4, (keySlot s k).generation), (20, 4, fixed), (24, 8, (keySlot s k).counter)] }

/-- KEY.WRITE. -/
def execKeyWrite (p : Packet) (s : State) : Answer := effect s (keeperTake keyWriteOp p s)

/-- KEY.ERASE. -/
def keyEraseOp : Op where
  code := 0x0A01
  layout := fun _ => [(16, 0, 8), (17, 0, 1), (24, 0, 32)]
  deny := fun p s =>
    let k := p.num 16 1
    k < 16 || !mayKey s p.comp k || (p.comp != 0 && !((keySlot s k).owned && (keySlot s k).owner == p.comp))
  run := fun p s =>
    let k := p.num 16 1
    if generationFull s k then { s := s, st := some .conflict }
    else if targetStale s k (p.num 24 4) then { s := s, st := some .keyChanged }
    else
      let s := changeSlot s p k (p.bit 17 0) true false fun x => { x with alg := 0, owned := false, material := [] }
      { s := s, reply := [(16, 4, (keySlot s k).generation)] }

/-- KEY.ERASE. -/
def execKeyErase (p : Packet) (s : State) : Answer := effect s (keeperTake keyEraseOp p s)

/-! KEY.INFO. -/

/-- The public part of the slot that KEY.INFO names. -/
def kiPublic (p : Packet) (s : State) : List Byte := publicPartOf (keySlot s (p.num 16 1)).alg (slotMaterial s (p.num 16 1))

/-- KEY.INFO (Table 12.11). -/
def keyInfoOp : Op where
  code := 0x0A02
  slotsOk := fun p => p.slotsField == 2
  layout := fun _ => [(16, 0, 8), (20, 0, 32)]
  bad := fun p _ => !aligned (p.num 20 4)
  deny := fun p s => (16 ≤ p.num 16 1 && !mayKey s p.comp (p.num 16 1)) ||
    (p.num 20 4 != 0 && !(kiPublic p s).isEmpty && !bufferReaches s p.comp (p.num 20 4) (kiPublic p s).length)
  run := fun p s =>
    let x := keySlot s (p.num 16 1)
    let pk := kiPublic p s
    if p.num 20 4 ≠ 0 ∧ pk.isEmpty then { s := s, st := some .conflict }
    else
      { s := if p.num 20 4 = 0 then s else packetOut p s (p.num 20 4) (padBlocks pk)
        reply := [(16, 1, x.alg), (17, 1, x.owner + 16 * b2n x.owned + 32 * x.origin), (18, 2, x.usage), (20, 4, x.generation),
          (24, 4, x.fixed), (28, 8, x.counter), (36, 8, x.commit), (44, 2, pk.length)] ++
          (if pk.isEmpty then [] else [replyBytes 48 (Config.shake256 pk)]) }

/-- KEY.INFO. -/
def execKeyInfo (p : Packet) (s : State) : Answer := effect s (keeperTake keyInfoOp p s)

/-! KEY.DERIVE (R318). -/

/-- The 11 characters "VB-7260 KDF". -/
def kdfString : List Byte := [0x56, 0x42, 0x2D, 0x37, 0x32, 0x36, 0x30, 0x20, 0x4B, 0x44, 0x46]

/-- The material that R318 derives with `n` bytes. -/
def deriveKey (parent : List Byte) (alg usage : Nat) (label : List Byte) (n : Nat) : List Byte :=
  Config.kmac256 n parent (leBytes 1 alg ++ leBytes 2 usage ++ leBytes 1 label.length ++ label) kdfString

/-- Give a slot the key that a derivation or an unwrapping made (R318, R319). -/
def installKey (s : State) (p : Packet) (k : Nat) (abort : Bool) (alg usage origin fixed : Nat) (material : List Byte) : Res :=
  let (fixed, s) := fixedOf s fixed
  let s := changeSlot s p k abort false false fun x => { x with
    alg := alg, usage := usage, owner := p.comp, owned := true, origin := origin, fixed := fixed, material := material }
  { s := s, reply := [(16, 4, (keySlot s k).generation), (20, 4, fixed)] }

/-- KEY.DERIVE (Table 12.12). -/
def keyDeriveOp : Op where
  code := 0x0A03
  slotsOk := fun p => p.slotsField == 2
  layout := fun p => [(16, 0, 8), (17, 0, 8), (18, 0, 1), (19, 0, 8), (20, 0, 10), (24, 0, 32), (28, 0, 32), (32, 0, 32), (36, 0, 8),
    (40, 0, 8 * min 64 (p.num 36 1))]
  bad := fun p _ => p.num 17 1 < 16 || 64 < p.num 36 1
  deny := fun p s => !mayUseKey s p.comp (p.num 16 1) || !usableBy s p (p.num 16 1) 3 || !mayWriteKey s p.comp (p.num 17 1)
  run := fun p s =>
    let k := p.num 17 1
    let alg := p.num 19 1
    let usage := p.fld 20 0 10
    if alg < 1 || 3 < alg || !usageAllowed alg usage || generationFull s k then { s := s, st := some .conflict }
    else
      match keyFor s p (p.num 16 1) (p.num 24 4) with
      | .error st => { s := s, st := some st }
      | .ok x =>
        if targetStale s k (p.num 28 4) then { s := s, st := some .keyChanged }
        else if fixedFails s (p.num 32 4) then { s := s, st := some .hwFault }
        else
          let label := (p.bytes.drop 40).take (p.num 36 1)
          installKey s p k (p.bit 18 0) alg usage 2 (p.num 32 4) (deriveKey x.material alg usage label (materialLen alg))

/-- KEY.DERIVE. -/
def execKeyDerive (p : Packet) (s : State) : Answer := effect s (keeperTake keyDeriveOp p s)

/-! KEY.UNWRAP (R319). -/

/-- The 12 characters "VB-7260 WRAP". -/
def wrapString : List Byte := [0x56, 0x42, 0x2D, 0x37, 0x32, 0x36, 0x30, 0x20, 0x57, 0x52, 0x41, 0x50]

/-- Offset of ATTR in the blob (Table 12.13): after the ciphertext of an ML-KEM-768 wrap slot. -/
def wrapOffset (alg : Nat) : Nat := if alg = 6 then 1088 else 0

/-- The key-encryption key for a blob. -/
def wrapKek (x : KeyPast) (blob attr : List Byte) : List Byte :=
  if x.alg = 6 then Config.kmac256 32 (Config.decaps x.material (blob.take 1088)) attr wrapString else x.material

/-- KEY.UNWRAP. -/
def keyUnwrapOp : Op where
  code := 0x0A04
  layout := fun _ => [(16, 0, 8), (17, 0, 8), (18, 0, 1), (24, 0, 32), (28, 0, 32), (32, 0, 32), (36, 0, 32)]
  bad := fun p _ => !aligned (p.num 32 4)
  deny := fun p s => !mayUseKey s p.comp (p.num 16 1) || !usableBy s p (p.num 16 1) 4 || !mayWriteKey s p.comp (p.num 17 1) ||
    !bufferReaches s p.comp (p.num 32 4) (p.num 36 4)
  run := fun p s =>
    let k := p.num 17 1
    match keyAt s (p.num 16 1) p.arrival with
    | none => { s := s, st := some .keyRevoked }
    | some x =>
      let c := wrapOffset x.alg
      let blob := memReadN s (p.num 32 4) (min 4096 (p.num 36 4))
      let attr := padTo 16 ((blob.drop c).take 16)
      let alg := dNum attr 0 1
      let usage := dNum attr 2 2
      let m := materialLen alg
      if alg < 1 || 6 < alg || alg == 5 || !usageAllowed alg usage || dNum attr 8 1 != k || p.num 36 4 != c + 44 + m ||
          generationFull s k then { s := s, st := some .conflict }
      else if p.num 24 4 ≠ 0 ∧ p.num 24 4 ≠ x.generation then { s := s, st := some .keyChanged }
      else if targetStale s k (p.num 28 4) then { s := s, st := some .keyChanged }
      else
        let iv := (blob.drop (c + 16)).take 12
        let kek := wrapKek x blob attr
        let cipher := (blob.drop (c + 28)).take m
        let s := engineRun s 28 (1 + blocksOf m + 2)
        if (blob.drop (c + 28 + m)).take 16 ≠ Config.gcmTag kek iv attr cipher then { s := s, st := some .authFail }
        else if fixedFails s (dNum attr 4 4) then { s := s, st := some .hwFault }
        else installKey s p k (p.bit 18 0) alg usage 3 (dNum attr 4 4) (Config.gcmCrypt kek iv 0 cipher)

/-- KEY.UNWRAP. -/
def execKeyUnwrap (p : Packet) (s : State) : Answer := effect s (keeperTake keyUnwrapOp p s)

/-! SIGN, VERIFY and HASH (R315, R320). -/

/-- The context string of SIGN and VERIFY. -/
def svContext (p : Packet) : List Byte := (p.bytes.drop 40).take (p.fld 18 0 9)

/-- SLOTS of SIGN and VERIFY. -/
def svSlots (p : Packet) : Bool := 1 ≤ p.slotsField && p.slotsField ≤ 5

/-- What SIGN and VERIFY ask of their common fields. -/
def svBad (p : Packet) : Bool :=
  255 < p.fld 18 0 9 || 64 * p.slots - 40 < p.fld 18 0 9 || 65536 < p.num 28 4 || !aligned (p.num 24 4) || !aligned (p.num 32 4)

/-- SIGN (Table 12.14). -/
def signOp : Op where
  code := 0x0A10
  slotsOk := svSlots
  layout := fun p => [(16, 0, 8), (18, 0, 9), (20, 0, 32), (24, 0, 32), (28, 0, 32), (32, 0, 32), (40, 0, 8 * min 280 (p.fld 18 0 9))]
  bad := fun p _ => svBad p
  deny := fun p s => !mayUseKey s p.comp (p.num 16 1) || !usableBy s p (p.num 16 1) 5 ||
    !bufferReaches s p.comp (p.num 24 4) (p.num 28 4) || !reaches s p.comp (p.num 32 4) 3312
  run := fun p s =>
    match keyFor s p (p.num 16 1) (p.num 20 4) with
    | .error st => { s := s, st := some st }
    | .ok x =>
      let msg := memReadN s (p.num 24 4) (p.num 28 4)
      if Config.signExhausts x.material (svContext p) msg then { s := s, st := some .hwFault }
      else
        { s := keyedOut p (packetOut p s (p.num 32 4) (padTo 3312 (Config.sign x.material (svContext p) msg))) 3309
          reply := [(16, 2, 3309), (20, 4, x.generation)] }

/-- SIGN. -/
def execSign (p : Packet) (s : State) : Answer := effect s (keeperTake signOp p s)

/-- VERIFY takes its public key from memory. -/
def vfInMem (p : Packet) : Bool := p.bit 17 0

/-- The check of a signature against a public key (VERIFY). -/
def verifyWith (p : Packet) (s : State) (pk : List Byte) (gen : Nat) : Res :=
  if Config.verify pk (svContext p) (memReadN s (p.num 24 4) (p.num 28 4)) (memReadN s (p.num 32 4) 3309) then
    { s := s, reply := [(20, 4, gen)] }
  else { s := s, st := some .authFail }

/-- VERIFY. -/
def verifyOp : Op where
  code := 0x0A11
  slotsOk := svSlots
  layout := fun p => [(16, 0, 8), (17, 0, 1), (18, 0, 9), (20, 0, 32), (24, 0, 32), (28, 0, 32), (32, 0, 32),
    (40, 0, 8 * min 280 (p.fld 18 0 9))] ++ (if vfInMem p then [(36, 0, 32)] else [])
  bad := fun p _ => svBad p || (vfInMem p && (p.num 16 1 != 0 || p.num 20 4 != 0 || !aligned (p.num 36 4)))
  deny := fun p s =>
    !bufferReaches s p.comp (p.num 24 4) (p.num 28 4) || !reaches s p.comp (p.num 32 4) 3312 ||
      (if vfInMem p then !reaches s p.comp (p.num 36 4) 1952
       else !mayUseKey s p.comp (p.num 16 1) || !usableBy s p (p.num 16 1) 6)
  run := fun p s =>
    if vfInMem p then verifyWith p s (memReadN s (p.num 36 4) 1952) 0
    else
      match keyFor s p (p.num 16 1) (p.num 20 4) with
      | .error st => { s := s, st := some st }
      | .ok x => verifyWith p s (publicPartOf x.alg x.material) x.generation

/-- VERIFY. -/
def execVerify (p : Packet) (s : State) : Answer := effect s (keeperTake verifyOp p s)

/-- HASH. -/
def hashOp : Op where
  code := 0x0A12
  layout := fun _ => [(16, 0, 32), (20, 0, 32), (24, 0, 16), (28, 0, 32)]
  bad := fun p _ => p.num 24 2 < 1 || 4096 < p.num 24 2 || !aligned (p.num 16 4) || !aligned (p.num 28 4) ||
    (p.num 28 4 == 0 && 32 < p.num 24 2)
  deny := fun p s =>
    !(bufferReaches s p.comp (p.num 16 4) (p.num 20 4) || inWindow (p.num 16 4) (p.num 20 4)) ||
      (p.num 28 4 != 0 && !bufferReaches s p.comp (p.num 28 4) (p.num 24 2))
  run := fun p s =>
    let out := Config.shake (p.num 24 2) (readSource s p.comp (p.num 16 4) (p.num 20 4))
    if p.num 28 4 = 0 then { s := s, reply := [replyBytes 16 out] }
    else { s := packetOut p s (p.num 28 4) (padBlocks out) }

/-- HASH. -/
def execHash (p : Packet) (s : State) : Answer := effect s (keeperTake hashOp p s)

/-! Events. -/

/-- COUNTER has reached COMMIT − 1,024 (R313). -/
def commitDue (x : KeySlot) : Bool := x.alg != 0 && x.commit ≤ x.counter + 1024 && x.commit < counterEnd

/-- The keeper raises COMMIT of a slot (R313). -/
def execCounterCommit (slot : Nat) (s : State) : Answer :=
  effect s (if 16 ≤ slot ∧ commitDue (keySlot s slot) then raiseCommit s slot else s)

/-- A health test of the TRNG fails (R316, Table 12.9). -/
def execTrngHealthFail (test : Nat) (s : State) : Answer :=
  effect s (if 1 ≤ test ∧ test ≤ 3 ∧ !s.cipher.trngFail then
    (let s := s.onCipher fun c => { c with trngFail := true }
     postEvent s (s.ev 1 0x0A05 0 test)) else s)

/-- The health tests pass again (R316). -/
def execTrngHealthRecovery (s : State) : Answer := effect s (s.onCipher fun c => { c with trngFail := false })

end Sys2Proof.Machine
end

