-- ==== Sys2Proof/Machine/Logs.lean ====
section
/-! DEFINITION. The logbook and the RTC (chapter 15): sealing, export, the opcodes of group 0x0D, and the timers that the RTC keeps. -/

namespace Sys2Proof.Machine

/-! Sealing (R378–R380). -/

/-- The condition of a seal reason that the device finds by itself (Table 15.6): 256 records, 60 s of RTC time, a critical record, VBATL
below WARN, or a Dark entry. Reasons 6 and 7 are seals that LOG.SEAL and the keeper's resets make themselves. -/
def sealDue (s : State) (reason : Nat) : Bool :=
  match s.store.log.opened with
  | none => false
  | some o =>
    if reason = 1 then 256 ≤ o.recs.length
    else if reason = 2 then o.openedRtc + 60 * 32768 ≤ s.rtc.time
    else if reason = 3 then o.criticalAt.isSome
    else if reason = 4 then s.seq.warn
    else if reason = 5 then s.sleep.darkPending || s.sleep.darkCommit.isSome || s.seq.state == .buoy
    else false

/-- A segment closes for a reason, at the end of the tick (R378, R379). -/
def execSegmentSeal (reason : Nat) (s : State) : Answer :=
  effect s (if sealDue s reason then closeSegment s reason else s)

/-- 60 s of RTC time have passed since the segment's first record: it closes (R378). -/
def execSealTimeExpiry (s : State) : Answer := effect s (if sealDue s 2 then closeSegment s 2 else s)

/-- A record is chained into the open segment, or dropped (R376, R377, R382). -/
def execLogRecordWrite (item : LogItem) (s : State) : Answer := effect s (logRecord s item).1

/-! The RTC (R369–R371). -/

/-- What the configuration store keeps of the RTC (R371). -/
def storeRtc (s : State) : State :=
  s.onStore fun st => { st with rtc :=
    { time := s.rtc.time, setCount := s.rtc.setCount, trim := s.rtc.trim, allowFrom := s.rtc.allowFrom, spent := s.rtc.spent } }

/-- The keeper runs: the power die's core and the plane do. -/
def keeperRuns (s : State) : Bool := s.seq.core && !s.seq.inReset && s.seq.state != .dark

/-- The keeper stores the RTC (R371). -/
def execRtcStore (s : State) : Answer := effect s (if keeperRuns s then storeRtc s else s)

/-- H0 measures the temperature for the curve of R370, in °C. -/
def execRtcTempMeasure (temp : Int) (s : State) : Answer :=
  effect s (if s.seq.powered then { s with rtc := { s.rtc with temp := temp } } else s)

/-! LOG.APPEND. -/

/-- LOG.APPEND (Table 15.9). -/
def logAppendOp : Op where
  code := 0x0D00
  slotsOk := fun p => p.slotsField == (24 + p.num 18 1 + 63) / 64
  layout := fun p => [(16, 0, 16), (18, 0, 8), (19, 0, 1), (24, 0, 8 * p.num 18 1)]
  bad := fun p _ => p.num 16 2 < 0x8000 || 208 < p.num 18 1
  run := fun p s =>
    let it : LogItem :=
      { type := p.num 16 2, critical := p.bit 19 0, comp := p.comp, payload := (p.bytes.drop 24).take (p.num 18 1) }
    let (s, ok) := logRecord s it
    if ok then
      let r := (s.store.log.opened.bind fun o => o.recs.head?).getD {}
      { s := s, reply := [(16, 8, r.seq), replyBytes 24 r.chain, (40, 1, b2n r.emergency)] }
    else { s := s, st := some .logFull }

/-- LOG.APPEND. -/
def execLogAppend (p : Packet) (s : State) : Answer := effect s (keeperTake logAppendOp p s)

/-! LOG.READ. -/

/-- A record as MRAM holds it (R375). -/
def LogRec.bytes (r : LogRec) : List Byte :=
  r.header ++ padTo 16 r.chain ++ padTo (16 * ((r.payload.length + 15) / 16)) r.payload

/-- A seal as MRAM holds it (Table 15.7). -/
def Seal.bytes (x : Seal) : List Byte := padTo sealSize (x.body ++ x.signature)

/-- A sealed segment as MRAM holds it. -/
def Segment.bytes (g : Segment) : List Byte := g.recs.flatMap LogRec.bytes ++ g.sealRec.bytes

/-- First and last sequence number of a sealed segment. -/
def Segment.first (g : Segment) : Nat := g.sealRec.firstSeq

/-- The last sequence number of a sealed segment. -/
def Segment.last (g : Segment) : Nat := (g.recs.getLast?.map (·.seq)).getD 0

/-- The segments from the one that holds a sequence number on. -/
def segmentsFrom (l : Logbook) (seq : Nat) : Option (List Segment) :=
  let rest := l.segments.dropWhile fun g => !(g.recs.any fun r => r.seq == seq)
  if rest.isEmpty then none else some rest

/-- As many whole segments as fit in `room` bytes. -/
def takeSegments : Nat → List Segment → List Segment
  | _, [] => []
  | room, g :: r => if g.size ≤ room then g :: takeSegments (room - g.size) r else []

/-- Write the segments an export names, in plaintext or under a key (LOG.READ). -/
def exportSegments (s : State) (p : Packet) (gs : List Segment) : Res :=
  let plain := gs.flatMap Segment.bytes
  let first := (gs.head?.map Segment.first).getD 0
  let last := (gs.getLast?.map Segment.last).getD 0
  let out := p.num 24 4
  let fields (n : Nat) (iv : List Byte) : Reply :=
    [(16, 8, first), (24, 8, last), (32, 4, n), (36, 4, gs.length), replyBytes 40 iv]
  if p.num 32 1 = 0 then { s := packetOut p s out plain, reply := fields plain.length [] }
  else
    let k := p.num 32 1
    match keyFor s p k (p.num 36 4) with
    | .error st => { s := s, st := some st }
    | .ok x =>
      match drawCommitted s k with
      | (s, .value n) =>
        let iv := drawnIv (keySlot s k).fixed n
        let aad := leBytes 8 first ++ leBytes 8 last
        let cipher := Config.gcmCrypt x.material iv 0 plain
        let s := engineRun s 29 (1 + blocksOf plain.length + 2)
        { s := keyedOut p (packetOut p s out (cipher ++ Config.gcmTag x.material iv aad cipher)) (plain.length + 16), reply := fields (plain.length + 16) iv }
      | (s, _) => { s := s, st := some .nonceExhausted }

/-- LOG.READ (Table 15.10). -/
def logReadOp : Op where
  code := 0x0D01
  layout := fun _ => [(16, 0, 64), (24, 0, 32), (28, 0, 32), (32, 0, 8), (36, 0, 32)]
  bad := fun p _ => p.num 28 4 % 16 != 0 || p.num 28 4 < 68912 || 4194304 < p.num 28 4
  deny := fun p s =>
    !reaches s p.comp (p.num 24 4) (p.num 28 4) ||
      (p.num 32 1 != 0 && (!mayKey s p.comp (p.num 32 1) || p.num 32 1 < 16 || !usableBy s p (p.num 32 1) 0))
  run := fun p s =>
    match segmentsFrom s.store.log (p.num 16 8) with
    | none => { s := s, st := some .conflict }
    | some rest => exportSegments s p (takeSegments (p.num 28 4 - (if p.num 32 1 = 0 then 0 else 16)) rest)

/-- LOG.READ. -/
def execLogRead (p : Packet) (s : State) : Answer := effect s (keeperTake logReadOp p s)

/-! LOG.EXPORT_ACK and LOG.SEAL. -/

/-- Acknowledge every segment whose last sequence number is at most `seq` (R381). -/
def ackSegments (s : State) (seq : Nat) : State :=
  updateLevel (s.onLog fun l => { l with
    segments := l.segments.map fun g => if g.last ≤ seq then { g with acked := true } else g })

/-- LOG.EXPORT_ACK. -/
def logExportAckOp : Op where
  code := 0x0D02
  layout := fun _ => [(16, 0, 64)]
  run := fun p s =>
    let seq := p.num 16 8
    if s.store.log.segments.any fun g => g.last == seq then
      let s := ackSegments s seq
      let l := s.store.log
      { s := s, reply := [(16, 4, logRingSize - l.used false), (20, 4, logEmergencySize - l.used true)] }
    else { s := s, st := some .conflict }

/-- LOG.EXPORT_ACK. -/
def execLogExportAck (p : Packet) (s : State) : Answer := effect s (keeperTake logExportAckOp p s)

/-- The 12 characters "VB-7260 CERT" (R323). -/
def certContext : List Byte := [0x56, 0x42, 0x2D, 0x37, 0x32, 0x36, 0x30, 0x20, 0x43, 0x45, 0x52, 0x54]

/-- Public part of a keeper slot. -/
def slotPublic (s : State) (k : Nat) : List Byte := publicPartOf (keySlot s k).alg (slotMaterial s k)

/-- Bytes 0–2,079 of a certificate (Table 13.3), with SERIAL and the times from number `n` on. -/
def certBody (kind n : Nat) (subject issuerKey transport key : List Byte) : List Byte :=
  leBytes 4 0x54524543 ++ leBytes 2 1 ++ leBytes 1 kind ++ leBytes 1 0 ++ leBytes 8 (Config.certNumber n).toNat ++ padTo 16 subject ++
    Config.shake256 issuerKey ++ leBytes 8 (Config.certNumber (n + 1)).toNat ++ leBytes 8 (Config.certNumber (n + 2)).toNat ++
    padTo 32 transport ++ List.replicate 16 0 ++ padTo 1952 key

/-- The certificate of the seal key, KIND 4, signed by slot 1 (Table 13.3, R379). -/
def sealCertificate (s : State) : List Byte :=
  let body := certBody 4 0 Config.uid (slotPublic s 1) [] (slotPublic s 2)
  body ++ Config.sign (slotMaterial s 1) certContext body

/-- The reply of LOG.SEAL (Table 15.11). -/
def sealReply (l : Logbook) : Reply :=
  [(16, 8, l.nextSeq), (24, 8, l.lastSealed.getD 0xFFFFFFFFFFFFFFFF), (32, 4, l.used false), (36, 4, l.used true),
    (40, 2, (l.opened.map fun o => o.recs.length).getD 0), (42, 1, l.level), (44, 4, l.dropped), (48, 4, l.lost), (52, 4, l.seals)]

/-- LOG.SEAL; the segment closes at the end of tick E (R378), and the reply shows the logbook so. -/
def logSealOp : Op where
  code := 0x0D03
  layout := fun p => (16, 0, 2) :: (if p.fld 16 0 2 = 1 then [(20, 0, 32)] else [])
  bad := fun p _ => p.fld 16 0 2 == 3
  deny := fun p s => p.fld 16 0 2 == 1 && !reaches s p.comp (p.num 20 4) 5392
  run := fun p s =>
    if p.fld 16 0 2 = 0 then
      if s.store.log.opened.isSome then
        { s := closeSegment s 6, reply := sealReply (sealSegment s 6).store.log }
      else { s := s, st := some .conflict }
    else if p.fld 16 0 2 = 1 then
      let s := packetOut p s (p.num 20 4) (padTo 5392 (sealCertificate s))
      { s := s, reply := sealReply s.store.log }
    else { s := s, reply := sealReply s.store.log }

/-- LOG.SEAL. -/
def execLogSeal (p : Packet) (s : State) : Answer := effect s (keeperTake logSealOp p s)

/-! TIME.SET and TIME.GET. -/

/-- The 12 characters "VB-7260 TIME" (R373). -/
def timeContext : List Byte := [0x56, 0x42, 0x2D, 0x37, 0x32, 0x36, 0x30, 0x20, 0x54, 0x49, 0x4D, 0x45]

/-- A signed 32-bit field. -/
def sInt32 (n : Nat) : Int := if 0x80000000 ≤ n then (n : Int) - 0x100000000 else n

/-- The signed time message (Table 15.3). -/
def timeMessage (s : State) (p : Packet) : List Byte :=
  Config.uid ++ leBytes 4 s.rtc.setCount ++ leBytes 1 (b2n (p.bit 16 1)) ++ leBytes 3 0 ++ leBytes 8 (p.num 24 8) ++
    leBytes 4 (if p.bit 16 1 then p.num 32 4 else 0) ++ leBytes 4 0

/-- The step of a set, NEW_TIME minus the RTC (R372), in 1/32,768 s. -/
def timeStep (s : State) (p : Packet) : Int := (p.num 24 8 : Int) - s.rtc.time

/-- NEW_TIME beyond 2^48 − 1 s. -/
def timeOutside (p : Packet) : Bool := 2 ^ 48 - 1 < p.num 24 8 / 32768

/-- What a TIME.SET comes to (R372, R373). -/
def timeStatus (s : State) (p : Packet) : Status :=
  if timeOutside p then .timeRefused
  else if p.bit 16 0 then
    match keyAt s (p.num 17 1) p.arrival with
    | none => .keyRevoked
    | some k =>
      if Config.verify k.material timeContext (timeMessage s p) (memReadN s (p.num 20 4) 3309) then .ok else .authFail
  else if (timeStep s p).natAbs ≤ s.rtc.allowanceUnits then .ok else .timeRefused

/-- Apply an accepted set (R372, R374). -/
def applyTime (s : State) (p : Packet) : State :=
  { s with rtc :=
    if p.bit 16 0 then
      { s.rtc with
        time := p.num 24 8, setCount := (s.rtc.setCount + 1) % 2 ^ 32, valid := true, allowFrom := p.num 24 8, spent := 0
        trim := if p.bit 16 1 then sInt32 (p.num 32 4) else s.rtc.trim }
    else
      { s.rtc with
        time := p.num 24 8, setCount := (s.rtc.setCount + 1) % 2 ^ 32, spent := s.rtc.spent + (timeStep s p).natAbs } }

/-- A step in seconds as a saturating 16-bit two's complement value (Table 15.8). -/
def stepSeconds (d : Int) : Nat :=
  let n := d.natAbs / 32768
  if d < 0 then (if 32768 ≤ n then 0x8000 else (65536 - n) % 65536) else min n 0x7FFF

/-- The payload of a TIME_SET record (Table 15.5). -/
def timeRecord (old : Nat) (p : Packet) (st : Status) (s : State) : List Byte :=
  leBytes 8 old ++ leBytes 8 (p.num 24 8) ++ leBytes 2 st.code ++ leBytes 1 (b2n (p.bit 16 0)) ++
    leBytes 1 (if p.bit 16 0 then p.num 17 1 else 0) ++ leBytes 4 s.rtc.allowance ++ leBytes 4 (p.num 32 4)

/-- TIME.SET (Table 15.12): the set, its critical record, and TIME_CHANGE (R374). -/
def timeSetOp : Op where
  code := 0x0D10
  layout := fun p => [(16, 0, 2), (24, 0, 64), (32, 0, 32)] ++ (if p.bit 16 0 then [(17, 0, 8), (20, 0, 32)] else [])
  bad := fun p _ => (p.bit 16 1 && !p.bit 16 0) || 200000 < (sInt32 (p.num 32 4)).natAbs
  deny := fun p s => p.bit 16 0 &&
    (!mayKey s p.comp (p.num 17 1) || !usableBy s p (p.num 17 1) 7 || !reaches s p.comp (p.num 20 4) 3312)
  run := fun p s =>
    let st := timeStatus s p
    let old := s.rtc.time
    let step := timeStep s p
    let ok := decide (st = .ok)
    let s := if ok then applyTime s p else s
    let s := (logRecord s { type := 0x0D10, critical := true, payload := timeRecord old p st s }).1
    let s := postEvent s (s.ev 1 0x0D02 (b2n ok + 2 * b2n (p.bit 16 0)) (stepSeconds step) false p.comp)
    { s := s, st := some st
      reply := if ok then [(16, 8, old), (24, 8, s.rtc.time), (32, 4, s.rtc.setCount), (36, 4, s.rtc.allowance)] else [] }

/-- TIME.SET. -/
def execTimeSet (p : Packet) (s : State) : Answer := effect s (keeperTake timeSetOp p s)

/-- The RTC value an opcode returns: in a replay the payload of the next TIME record (R43); it is captured (Table 01.7). -/
def rtcValue (s : State) : List Byte × State :=
  let (v, s) :=
    if s.plane.replay.running then
      match s.plane.replay.times with
      | r :: rest => (padTo 16 r.payload, s.onPlane fun q => { q with replay := { q.replay with times := rest } })
      | [] => (s.rtc.bytes, s)
    else (s.rtc.bytes, s)
  (v, capItem s { stamp := s.stamp, cls := 6, hall := 1, payload := v })

/-- TIME.GET. -/
def timeGetOp : Op where
  code := 0x0D11
  run := fun _ s =>
    let (v, s) := rtcValue s
    { s := s, reply := [replyBytes 16 v, (32, 4, s.rtc.allowance), (36, 4, (s.rtc.trim % 0x100000000).toNat)] }

/-- TIME.GET. -/
def execTimeGet (p : Packet) (s : State) : Answer := effect s (keeperTake timeGetOp p s)

end Sys2Proof.Machine
end

