-- ==== Sys2Proof/Machine/ImageOps.lean ====
section
/-! DEFINITION. The shared operations of images and trials (chapter 13): image headers, banks and their states, the boot checks, reverts,
keeper slots, and the end of a trial. -/

namespace Sys2Proof.Machine

/-- Change what runs of chapter 13. -/
def State.onImage (s : State) (f : Image → Image) : State := { s with image := f s.image }

/-- Change what persists of chapter 13. -/
def State.onImageStore (s : State) (f : ImageStore → ImageStore) : State := s.onStore fun st => { st with image := f st.image }

/-- A write to a bank or to a trust record advances the sealed-write counter (R60). -/
def trustWrite (s : State) : State := s.onImageStore fun x => { x with sealWrites := x.sealWrites + 1 }

/-- Change bank `b`. -/
def State.onBank13 (s : State) (b : Nat) (f : Bank13 → Bank13) : State :=
  trustWrite (s.onImageStore fun x => { x with bank := vmod x.bank b f })

/-- Bank `b`. -/
def bank13 (s : State) (b : Nat) : Bank13 := vget s.store.image.bank b

/-! Image headers (Table 13.5). -/

/-- KIND. -/
def hKind (h : List Byte) : Nat := dNum h 6 1

/-- SVN. -/
def hSvn (h : List Byte) : Nat := dNum h 7 1

/-- VERSION. -/
def hVersion (h : List Byte) : Nat := dNum h 8 4

/-- MIN_KEEPER. -/
def hMinKeeper (h : List Byte) : Nat := dNum h 12 4

/-- PAYLOAD_LEN. -/
def hLen (h : List Byte) : Nat := dNum h 16 4

/-- SRAM_NEED. -/
def hSram (h : List Byte) : Nat := dNum h 20 4

/-- ENCRYPTED. -/
def hEncrypted (h : List Byte) : Bool := (dNum h 24 1).testBit 0

/-- PAYLOAD_DIGEST. -/
def hDigest (h : List Byte) : List Byte := (h.drop 32).take 32

/-- Payload bytes of one chunk (R326). -/
def chunkSize : Nat := 65536

/-- Chunks of a payload. -/
def chunkCount (h : List Byte) : Nat := (hLen h + (chunkSize - 1)) / chunkSize

/-- The payload that the chunks make, or none while one is missing. -/
def payloadOf (h : List Byte) (chunks : Tbl (List Byte)) : Option (List Byte) :=
  if (List.range (chunkCount h)).all fun i => Tbl.get chunks [] i != [] then
    some ((List.range (chunkCount h)).flatMap fun i => Tbl.get chunks [] i)
  else none

/-- UID allows this device. -/
def hUidOk (h : List Byte) : Bool := (h.drop 64).take 16 == List.replicate 16 0 || (h.drop 64).take 16 == Config.uid

/-- SIGNATURE. -/
def hSignature (h : List Byte) : List Byte := (h.drop 256).take 3309

/-- The digest of an image (R325). -/
def imageDigest (h : List Byte) : List Byte := Config.shake256 (h.take 256)

/-- The 13 characters "VB-7260 IMAGE" (R325). -/
def imageContext : List Byte := [0x56, 0x42, 0x2D, 0x37, 0x32, 0x36, 0x30, 0x20, 0x49, 0x4D, 0x41, 0x47, 0x45]

/-- A header's signature verifies under a public key (R325). -/
def hSigned (h pk : List Byte) : Bool := Config.verify pk imageContext (h.take 256) (hSignature h)

/-- The digest of a bank: 32 bytes of 0 when it is empty. -/
def bankDigest (s : State) (b : Nat) : List Byte :=
  if (bank13 s b).state = 0 then List.replicate 32 0 else imageDigest (bank13 s b).header

/-- VERSION of a bank, 0 when it is empty. -/
def bankVersion (s : State) (b : Nat) : Nat := if (bank13 s b).state = 0 then 0 else hVersion (bank13 s b).header

/-- The keeper bank that the boot record names (R331). -/
def activeKeeper (s : State) : Option Nat := [0, 1].find? fun b => (bank13 s b).state == 3 || (bank13 s b).state == 4

/-- VERSION of the keeper image that runs. -/
def keeperVersion (s : State) : Nat := hVersion (bank13 s s.image.keeperBank).header

/-- The bank in use of an image KIND. -/
def activeOf (s : State) (kind : Nat) : Option Nat := if kind = 1 then activeKeeper s else activeApp s

/-- The other bank of a pair. -/
def otherBank (b : Nat) : Nat := if b < 2 then 1 - b else 5 - b

/-- The inactive bank of an image KIND: the other one, or the first where none is in use. -/
def inactiveOf (s : State) (kind : Nat) : Nat :=
  match activeOf s kind with
  | some b => otherBank b
  | none => if kind = 1 then 0 else 2

/-- A bank of an image KIND in a state. -/
def bankIn (s : State) (kind state : Nat) : Option Nat :=
  (if kind = 1 then [0, 1] else [2, 3]).find? fun b => (bank13 s b).state == state

/-- The fused security version for a KIND (R336). -/
def fusedSvn (s : State) (kind : Nat) : Nat := if kind = 1 then s.store.image.keeperSvn else s.store.image.appSvn

/-! Events (Table 13.10). -/

/-- An image event is posted and logged (R346, Table 15.5). -/
def imageEvent (s : State) (kind address value comp : Nat) (extra : List Byte := []) : State :=
  let s := postEvent s (s.ev 1 kind address value false comp)
  logDevice s (0x0B00 + kind % 256) true (leBytes 4 address ++ leBytes 2 value ++ extra)

/-- A bank changes its state: one record of the store, IMAGE_STATE, and the logbook (R331). -/
def setBank (s : State) (b state comp : Nat) (f : Bank13 → Bank13 := id) : State :=
  let s := s.onBank13 b fun x => { f x with state := state }
  imageEvent s 0x0B01 b (state + 256 * (bank13 s b).bootLeft) comp

/-! The end of a trial (R341, R342). -/

/-- A trial that is armed or runs ends with a cause: its report is kept, pair 1 is held in reset where it has run (R341), TRIAL_S follows, and TRIAL_END is posted and
logged. -/
def endTrial (s : State) (cause : Nat) (f : Trial → Trial := id) : State :=
  let t := s.image.trial
  if t.state ≠ 1 ∧ t.state ≠ 2 then s
  else
    let secs := if t.state = 2 then (s.plane.lin - t.startLin) / 8000000 else 0
    let s := s.onImage fun x => { x with
      trial := { f { x.trial with divStamp := s.stamp } with
        state := 3, cause := cause, live := [], cand := [], shadow := [], pairs := [], replies := [] }
      pairHeld := x.pairHeld || t.state == 2 }
    let s :=
      match bankIn s 2 2 with
      | some b => s.onBank13 b fun x => { x with
          trialS := if cause = 0 ∨ cause = 7 then satAdd32 x.trialS secs else 0 }
      | none => s
    let t := s.image.trial
    imageEvent s 0x0B03 t.ring cause t.comp
      (leBytes 1 cause ++ leBytes 1 t.comp ++ leBytes 1 t.ring ++ leBytes 2 t.byte ++ leBytes 8 t.matched)

/-! Boot checks and reverts (R328, R335). -/

/-- The keeper writes an image seal (R60). -/
def writeSeal (s : State) : State := { s with ret := { s.ret with imageSeal := some s.store.image.sealWrites } }

/-- The image seal is intact (R60). -/
def sealIntact (s : State) : Bool := s.ret.imageSeal == some s.store.image.sealWrites

/-- The payload of a bank matches PAYLOAD_DIGEST. -/
def payloadGood (x : Bank13) : Bool :=
  match payloadOf x.header x.chunks with
  | some l => Config.shake256 l == hDigest x.header
  | none => false

/-- A bank holds an image that verifies: signature, payload and UID (Table 13.6). -/
def bankVerifies (x : Bank13) (pk : List Byte) : Bool := x.delivered || (hSigned x.header pk && payloadGood x && hUidOk x.header)

/-- A keeper bank passes stage 1 (Table 13.6); an intact seal stands for the verification (R60, R328). -/
def keeperPasses (s : State) (b : Nat) : Bool :=
  let x := bank13 s b
  (sealIntact s || bankVerifies x Config.foldunKey) && s.store.image.keeperSvn ≤ hSvn x.header

/-- An application bank passes stage 5 (Table 13.6); an intact seal stands for the verification (R60, R328). -/
def appPasses (s : State) (b : Nat) : Bool :=
  let x := bank13 s b
  (sealIntact s || bankVerifies x (slotMaterial s 5)) && s.store.image.appSvn ≤ hSvn x.header && hMinKeeper x.header ≤ keeperVersion s

/-- A revert to the PREVIOUS application bank (R335), for a cause; `into` is the state the bank in use takes. The answer says whether there was
such a bank. -/
def revertApp (s : State) (cause into comp : Nat) : State × Bool :=
  match bankIn s 2 5 with
  | some b =>
    if appPasses s b then
      let s := match activeApp s with
        | some a => setBank s a into comp fun x => { x with bootLeft := 0 }
        | none => s
      (imageEvent (setBank s b 3 comp) 0x0B02 b cause 0, true)
    else (s, false)
  | none => (s, false)

/-- A revert to the PREVIOUS keeper bank (R335, R337). -/
def revertKeeper (s : State) (cause into comp : Nat) : State × Bool :=
  match bankIn s 1 5 with
  | some b =>
    if keeperPasses s b then
      let s := match activeKeeper s with
        | some a => setBank s a into comp fun x => { x with bootLeft := 0 }
        | none => s
      (imageEvent (setBank s b 3 comp) 0x0B02 b cause 0, true)
    else (s, false)
  | none => (s, false)

/-! Keeper slots (R322, R327). -/

/-- A keeper slot. -/
def keeperSlot (alg usage origin : Nat) (material : List Byte) : KeySlot :=
  { alg := alg, usage := usage, owned := true, origin := origin, material := material }

/-- LABEL of keeper slots 0–3 (Table 13.2): "SLOTSTORE", "IDENTITY", "LOGSEAL", "TRANSPORT". -/
def keeperLabel (k : Nat) : List Byte :=
  if k = 0 then [0x53, 0x4C, 0x4F, 0x54, 0x53, 0x54, 0x4F, 0x52, 0x45]
  else if k = 1 then [0x49, 0x44, 0x45, 0x4E, 0x54, 0x49, 0x54, 0x59]
  else if k = 2 then [0x4C, 0x4F, 0x47, 0x53, 0x45, 0x41, 0x4C]
  else [0x54, 0x52, 0x41, 0x4E, 0x53, 0x50, 0x4F, 0x52, 0x54]

/-- The slot that step E derives (Table 13.2, R322). -/
def derivedSlot (k : Nat) : KeySlot :=
  let alg := if k = 0 then 1 else if k = 3 then 6 else 4
  let usage := if k = 0 then 0x003 else if k = 3 then 0x010 else 0x020
  keeperSlot alg usage 2 (deriveKey Config.deviceSecret alg usage (keeperLabel k) (materialLen alg))

/-- Key `i` of an owner record: 0 ROOT_PK, 1 IMAGE_PK, 2 CHARTER_PK, 3 DEBUG_PK (R327). -/
def OwnerRecord.key (o : OwnerRecord) (i : Nat) : List Byte := padTo 1952 (o.payload.drop (1952 * i))

/-- POLICY of an owner record: REQUIRE_TRIAL. -/
def OwnerRecord.requireTrial (o : OwnerRecord) : Bool := (dNum o.payload 7808 2).testBit 0

/-- MIN_TRIAL_S of an owner record. -/
def OwnerRecord.minTrial (o : OwnerRecord) : Nat := dNum o.payload 7810 2

/-- The owner's slots, empty in DELIVERED (Table 13.2). -/
def ownerSlot (o : Option OwnerRecord) (k : Nat) : KeySlot :=
  match o with
  | some r => keeperSlot 5 0x040 0 (r.key (k - 4))
  | none => {}

/-- Slots 5–7 follow the installed owner record. -/
def loadOwnerSlots (s : State) : State :=
  [5, 6, 7].foldl (fun s k => loadSlot s k (ownerSlot s.store.image.owner k)) s

/-- Slots 0–7 are rebuilt and loaded (R322). -/
def loadKeeperSlots (s : State) : State :=
  let s := (List.range 4).foldl (fun s k => loadSlot s k (derivedSlot k)) s
  loadOwnerSlots (loadSlot s 4 (keeperSlot 5 0x040 0 Config.foldunKey))

/-- An owner record passes stage 3 (Table 13.6): ROOT_PK has the digest of OWNER_ROOT and has signed the record, and the payload matches. -/
def ownerPasses (s : State) (o : OwnerRecord) : Bool :=
  Config.shake256 (o.key 0) == s.store.image.ownerRoot && hSigned o.header (o.key 0) && Config.shake256 o.payload == hDigest o.header

/-- LIFECYCLE is OWNED and no owner record is valid (R329); an intact seal stands for its verification (R60). -/
def ownerMissing (s : State) : Bool :=
  s.store.image.lifecycle == 2 &&
    match s.store.image.owner with
    | some o => !sealIntact s && !ownerPasses s o
    | none => true

/-! Certificates (R322, R323). -/

/-- The public part of a slot that step E derives. -/
def derivedPublic (k : Nat) : List Byte := publicPartOf (derivedSlot k).alg (derivedSlot k).material

/-- A certificate that final test wrote: the device's (0), issued by the intermediate, or the intermediate's (1), issued by the root (Table 13.3). -/
def certificate (n : Nat) : List Byte :=
  (if n = 0 then certBody 3 3 Config.uid (Config.certPart 3 1952) (Config.shake256 (derivedPublic 3)) (derivedPublic 1)
   else certBody 2 6 (Config.certPart 2 16) (Config.certPart 4 1952) [] (Config.certPart 3 1952)) ++ Config.certPart n 3309

end Sys2Proof.Machine
end

