-- ==== Sys2Proof/Machine/Nm.lean ====
section
/-! DEFINITION. Transceivers and network management (chapter 11): states, messages, rings, commits, and the opcodes of group
0x09. -/

namespace Sys2Proof.Machine

/-- Post a network event through L0. -/
def netEvent (s : State) (n kind address value : Nat) : State := busEvent s (32 + n) kind address value

/-- The CAN controller of a network integrates again (R235, R288). -/
def integrate (s : State) (n : Nat) : State :=
  if n < 8 ∧ (canMode s n).op ≠ 0 ∧ (canOf s n).state ≠ 3 then setCanState s n 4 else s

/-- Set a transceiver's state (R288): XCVR_STATE on a change; leaving Standby or Sleep for Normal or Listen-only makes the
controller integrate; a LIN controller takes part in its bus again, and with Standby or Sleep it no longer does. -/
def setXcvr (s : State) (n st : Nat) : State :=
  let old := (netOf s n).xcvr
  if old = st then s
  else
    let s := netEvent (s.onNet n fun x => { x with xcvr := st }) n 0x0903 n st
    let s := if 8 ≤ n then s.onLin (n - 8) fun x => { x with asleep := decide (2 ≤ st), lastBus := if st < 2 then s.now else x.lastBus } else s
    if 2 ≤ old ∧ st < 2 then integrate s n else s

/-- A network enters a state (R292). -/
def setNet (s : State) (n st : Nat) : State :=
  if (netOf s n).state = st then s
  else netEvent (s.onNet n fun x => { x with state := st }) n 0x0901 n st

/-- The LIN networks that follow a CAN network (R294). -/
def followers (s : State) (n : Nat) : List Nat :=
  ((List.range 6).map (8 + ·)).filter fun l => (netCfg s l).mode == 3 && (netCfg s l).follow == n && n < 8

/-- A LIN network commits: its transceiver is handed to Sleep (R285, R294). -/
def linCommit (s : State) (l : Nat) : State :=
  if (netOf s l).state = 1 then s
  else
    let s := setXcvr (setNet s l 1) l 3
    let s := s.onLin (l - 8) fun x => { x with asleep := true, header := none }
    s.onNet l fun x => { x with sleeps := satAdd32 x.sleeps 1, wbsAt := none }

/-- The go-to-sleep frame of a commander (R294) enters the result stream. -/
def goToSleep (s : State) (l : Nat) : State :=
  s.onPlane fun p => { p with
    results := .frame s.plane.tick l { id := 60, len := 8, data := 0x00 :: List.replicate 7 0xFF } 0 :: p.results }

/-- t_LINPULSE in ticks (Table 11.4). -/
def linPulse : Nat := 8000

/-- A LIN network follows a change of its CAN network (R294); a commander sends a wake pulse where that has left BUS_SLEEP. -/
def follow (s : State) (l st : Nat) (woken : Bool) : State :=
  let commander := (linCfg s (l - 8)).role == 1
  if st = 1 then (if commander then linCommit s l else s)
  else if st = 4 then setNet (if commander then goToSleep s l else s) l 4
  else
    let s := s.onLin (l - 8) fun x => { x with
      asleep := false, lastBus := s.now, pulseEnd := if woken ∧ commander then some (s.now + linPulse) else x.pulseEnd }
    setNet (setXcvr s l 0) l st

/-- A CAN network enters a state, and the LIN networks that follow it go along. -/
def enterNet (s : State) (n st : Nat) : State :=
  let woken := (netOf s n).state == 1 && st != 1
  (followers s n).foldl (fun s l => follow s l st woken) (setNet s n st)

/-- Ticks of ms. -/
def msTicks (ms : Nat) : Nat := ms * 8000

/-- A network enters READY (R292): its timers restart. -/
def enterReady (s : State) (n : Nat) : State :=
  let g := netCfg s n
  let s := s.onNet n fun x => { x with
    kaAt := none, wbsAt := none, timeoutAt := if g.mode = 1 then some (s.plane.lin + msTicks g.timeoutMs) else none
    ringMaxAt := if g.mode = 2 then some (s.plane.lin + msTicks g.ringMaxMs) else none }
  enterNet s n 3

/-- A network enters NORMAL (R292): keep-alive messages start at once, ring messages go on; after a wake one is sent at once (R286). -/
def enterNormal (s : State) (n : Nat) : State :=
  let g := netCfg s n
  let s := s.onNet n fun x => { x with
    wbsAt := none, timeoutAt := none, kaAt := if g.mode = 1 then some s.plane.lin else none
    ringMaxAt := if g.mode = 2 then (match x.ringMaxAt with | some t => some t | none => some s.plane.lin) else none
    sendAt := if g.mode = 2 ∧ x.wakeReason.isSome then some s.plane.lin else x.sendAt }
  enterNet s n 2

/-- A network enters WAIT_BUS_SLEEP (R292). -/
def enterWait (s : State) (n : Nat) : State :=
  let s := s.onNet n fun x => { x with
    kaAt := none, timeoutAt := none, sendAt := none, ringMaxAt := none
    wbsAt := some (s.plane.lin + msTicks (netCfg s n).wbsMs) }
  enterNet s n 4

/-- A request by a wake cancels the sleep of a network that is on its way to it, one by NM.REQUEST that of a network in WAIT_BUS_SLEEP (R286, R292). -/
def cancelsSleep (st cause : Nat) : Bool := st == 4 || (st == 3 && cause != 0 && cause != 10)

/-- The device requests a network (R286, R292): a sleep in progress is cancelled; from BUS_SLEEP the transceiver returns to
Normal and the first message carries WAKE with the cause. A LIN network in follow mode that a wake requests goes to NORMAL by itself (DESIGN CHOICE, log
entry 178). -/
def requestNet (s : State) (n cause : Nat) : State :=
  if (netCfg s n).mode = 0 then s
  else
    let st := (netOf s n).state
    let s := s.onNet n fun x => { x with
      requested := true, cancels := if cancelsSleep st cause then satAdd32 x.cancels 1 else x.cancels
      wakeReason := if cause = 0 then x.wakeReason else some cause
      lastWake := if st = 1 ∧ cause ≠ 0 then cause else x.lastWake }
    let s := if cancelsSleep st cause ∧ cause ≠ 0 ∧ cause ≠ 10 then netEvent s n 0x0905 n cause else s
    let s := if st = 1 then setXcvr s n 0 else s
    if st = 2 then s else if (netCfg s n).mode = 3 then follow s n 2 (st == 1) else enterNormal s n

/-- The device releases a network (R292); a LIN network in follow mode goes back to the state of the one that it follows (DEDUCED, log entry 178). -/
def releaseNet (s : State) (n : Nat) : State :=
  let s := s.onNet n fun x => { x with requested := false }
  if (netOf s n).state ≠ 2 then s
  else if (netCfg s n).mode = 3 then
    let f := (netOf s (netCfg s n).follow).state
    if f = 2 then s else follow s n f false
  else enterReady s n

/-- A committed network wakes by its bus (R287): its transceiver returns to Normal and its network management to READY. -/
def wakeReady (s : State) (n cause : Nat) : State :=
  if (netOf s n).state = 1 ∧ (netCfg s n).mode ≠ 0 then
    let s := s.onNet n fun x => { x with lastWake := cause, wakes := satAdd32 x.wakes 1, wakeReason := some cause }
    if (netCfg s n).mode = 3 then follow s n 3 false else enterReady (setXcvr s n 0) n
  else s

/-- A bus wake on a network (R287, R292); a LIN wake in follow mode also wakes FOLLOW (R294). -/
def busWake (s : State) (n cause : Nat) : State :=
  let s := wakeReady s n cause
  if (netCfg s n).mode = 3 then wakeReady s (netCfg s n).follow cause else s

/-- The network's controller has integrated and can send. -/
def canTalk (s : State) (n : Nat) : Bool :=
  n < 8 && ((canOf s n).state == 1 || (canOf s n).state == 2) && (netOf s n).xcvr == 0

/-- An NM message of this device (Table 11.5). -/
def nmFrame (s : State) (n flags dest reason : Nat) : CanFrame :=
  let g := netCfg s n
  { id := g.base + g.node, ide := g.ide, len := 8
    data := beBytes 1 g.node ++ beBytes 1 flags ++ beBytes 1 dest ++ beBytes 1 reason ++ leBytes 4 (netOf s n).user }

/-- Send an NM message; the first of NORMAL after a wake carries WAKE = 1 and the cause (R286, R292). -/
def sendNm (s : State) (n flags dest : Nat) : State :=
  let x := netOf s n
  let w := if x.state = 2 then x.wakeReason else none
  let f := nmFrame s n (flags + 2 * b2n w.isSome) dest (w.getD 0)
  sendOwn (s.onNet n fun y => { y with wakeReason := if x.state = 2 then none else y.wakeReason }) n f

/-- KA_MS passes in NORMAL: the keep-alive message (R292). -/
def keepAlive (s : State) (n : Nat) : State :=
  let x := netOf s n
  let due : Bool := match x.kaAt with | some t => t ≤ s.plane.lin | none => false
  if x.state = 2 ∧ (netCfg s n).mode = 1 ∧ due ∧ canTalk s n then
    sendNm (s.onNet n fun x => { x with kaAt := some (s.plane.lin + msTicks (netCfg s n).kaMs) }) n 1 0xFF
  else s

/-- The keep-alive timer (R292). -/
def execNmKeepaliveTimer (n : Nat) (s : State) : Answer := effect s (keepAlive s n)

/-- TIMEOUT_MS passes in READY without an ACTIVE message (R292). -/
def nmTimeout (s : State) (n : Nat) : State :=
  let x := netOf s n
  let due : Bool := match x.timeoutAt with | some t => t ≤ s.plane.lin | none => false
  if x.state = 3 ∧ (netCfg s n).mode = 1 ∧ due then enterWait s n else s

/-- The keep-alive timeout (R292). -/
def execNmTimeout (n : Nat) (s : State) : Answer := effect s (nmTimeout s n)

/-- Ring order: the next higher known node, or the lowest (R293). -/
def successor (s : State) (n : Nat) : Nat :=
  let own := (netCfg s n).node
  let l := (netOf s n).peers.map (·.node)
  match l.filter (own < ·) with
  | [] => l.foldl min own
  | h :: t => t.foldl min h

/-- Count a round: a node that has not sent in two rounds is removed (R293). -/
def countRound (s : State) (n : Nat) : State :=
  let l := (netOf s n).peers.map fun p => { p with missed := p.missed + 1 }
  let gone := l.filter fun p => 2 < p.missed
  let s := s.onNet n fun x => { x with peers := l.filter fun p => p.missed ≤ 2 }
  gone.foldl (fun s p => netEvent s n 0x0904 (n + 16 * p.node) 2) s

/-- Send the device's ring message to its successor (R293); with the acknowledgement the network goes to WAIT_BUS_SLEEP. A node that knows no other is
its own successor and has the token again RING_TYP_MS later (DEDUCED, log entry 152). -/
def sendRing (s : State) (n : Nat) (ack : Bool) : State :=
  let ind := (netOf s n).state == 3
  let alone := successor s n == (netCfg s n).node
  let s := s.onNet n fun x => { x with
    sendAt := if alone then some (s.plane.lin + msTicks (netCfg s n).ringTypMs) else none
    ringMaxAt := some (s.plane.lin + msTicks (netCfg s n).ringMaxMs), allInd := x.allInd && ind }
  let s := sendNm s n (b2n (!ind) + 4 + 8 * b2n ind + 16 * b2n ack) (successor s n)
  if ack then enterWait s n else s

/-- RING_TYP_MS after receiving the token (R293): a complete round of the opener ends in SLEEP_ACK. -/
def ringSend (s : State) (n : Nat) : State :=
  let x := netOf s n
  let due : Bool := match x.sendAt with | some t => t ≤ s.plane.lin | none => false
  if (netCfg s n).mode = 2 ∧ (x.state = 2 ∨ x.state = 3) ∧ due ∧ canTalk s n then
    let ack := x.opened && x.allInd && x.state == 3
    let s := countRound s n
    let s := s.onNet n fun x => { x with allInd := if x.opened then true else x.allInd, counted := true }
    sendRing s n ack
  else s

/-- The ring message falls due (R293). -/
def execNmRingSend (n : Nat) (s : State) : Answer := effect s (ringSend s n)

/-- No ring message for RING_MAX_MS: the round is over, and the lowest known node opens a new one (R293). Another node counts the round here where it has not
counted it with its own message. -/
def ringTimeout (s : State) (n : Nat) : State :=
  let x := netOf s n
  let due : Bool := match x.ringMaxAt with | some t => t ≤ s.plane.lin | none => false
  if (netCfg s n).mode = 2 ∧ (x.state = 2 ∨ x.state = 3) ∧ due ∧ canTalk s n then
    let lowest := x.peers.all fun p => (netCfg s n).node ≤ p.node
    let s := if x.counted && !lowest then s else countRound s n
    let s := s.onNet n fun x => { x with counted := false }
    if (netOf s n).peers.all fun p => (netCfg s n).node ≤ p.node then
      sendRing (s.onNet n fun x => { x with opened := true, allInd := true }) n false
    else s.onNet n fun x => { x with opened := false, ringMaxAt := some (s.plane.lin + msTicks (netCfg s n).ringMaxMs) }
  else s

/-- The ring timeout (R293). -/
def execNmRingTimeout (n : Nat) (s : State) : Answer := effect s (ringTimeout s n)

/-- A frame accepted in WAIT_BUS_SLEEP cancels the sleep (R292). -/
def nmAnyFrame (s : State) (n : Nat) : State :=
  if (netOf s n).state = 4 ∧ ((netCfg s n).mode = 1 ∨ (netCfg s n).mode = 2) then
    let s := s.onNet n fun x => { x with cancels := satAdd32 x.cancels 1 }
    enterReady (netEvent s n 0x0905 n 0) n
  else s

/-- Note the sender of an NM message; in ring mode an unknown one is inserted and NM_PEER is posted (R293). -/
def notePeer (s : State) (n node : Nat) : State :=
  let known := (netOf s n).peers.any fun p => p.node == node
  let s := s.onNet n fun x => { x with
    peers := if known then x.peers.map fun p => if p.node = node then { p with heard := s.plane.lin, missed := 0 } else p
             else x.peers ++ [{ node := node, heard := s.plane.lin }] }
  if known ∨ (netCfg s n).mode ≠ 2 then s else netEvent s n 0x0904 (n + 16 * node) 1

/-- A ring message (R293): one for this device passes it the token; SLEEP_IND = 0 ends the round; SLEEP_ACK takes the network to
WAIT_BUS_SLEEP. -/
def ringRx (s : State) (n : Nat) (m : NmMessage) : State :=
  let g := netCfg s n
  let s := s.onNet n fun x => { x with
    ringMaxAt := some (s.plane.lin + msTicks g.ringMaxMs), allInd := x.allInd && m.sleepInd
    sendAt := if m.dest = g.node then some (s.plane.lin + msTicks g.ringTypMs) else x.sendAt }
  if m.sleepAck ∧ (netOf s n).state = 3 then enterWait s n else s

/-- The network management engine receives an NM message (R291–R293). -/
def nmRx (s : State) (n : Nat) (m : NmMessage) : State :=
  let g := netCfg s n
  let x := netOf s n
  if (g.mode = 1 ∨ g.mode = 2) ∧ x.state ≠ 1 ∧ x.state ≠ 0 ∧ x.xcvr < 2 then
    let s := notePeer (nmAnyFrame s n) n m.source
    if g.mode = 2 ∧ m.ring then ringRx s n m
    else if g.mode = 1 ∧ m.active ∧ (netOf s n).state = 3 then
      s.onNet n fun x => { x with timeoutAt := some (s.plane.lin + msTicks g.timeoutMs) }
    else s
  else s

/-- The fields of an NM message (Table 11.5). -/
def nmMessage (b : List Byte) : NmMessage :=
  let g := fun i => (b.getD i 0).toNat
  { source := g 0 % 64, active := (g 1).testBit 0, wake := (g 1).testBit 1, ring := (g 1).testBit 2, sleepInd := (g 1).testBit 3
    sleepAck := (g 1).testBit 4, dest := g 2, reason := g 3, user := leNat (b.drop 4) }

/-- An NM message arrives (R293). -/
def execNmMessageRx (n : Nat) (m : NmMessage) (s : State) : Answer := effect s (nmRx s n m)

/-- A latch records a tick before now: it stops a commit (R285). -/
def latchedBefore (s : State) : Bool := s.sleep.latches.any fun l => l.tick < s.now

/-- WBS_MS passes: the network's transceiver is handed to Sleep, unless an earlier wake suppresses it (R285, R292). -/
def networkCommit (s : State) (n : Nat) : State :=
  let due : Bool := match (netOf s n).wbsAt with | some t => t ≤ s.plane.lin | none => false
  if (netOf s n).state = 4 ∧ due ∧ !latchedBefore s then
    if 8 ≤ n then linCommit s n
    else
      let s := s.onNet n fun x => { x with
        wbsAt := none, sleeps := satAdd32 x.sleeps 1, opened := false, allInd := true, counted := false, wakeReason := none }
      enterNet (setXcvr s n 3) n 1
  else s

/-- A network's commit tick (R285). -/
def execNetworkCommit (n : Nat) (s : State) : Answer := effect s (networkCommit s n)

/-- A responder in follow mode commits after 4 s without bus activity (R294). -/
def responderIdle (s : State) (c : Nat) : State :=
  let l := 8 + c
  if (linCfg s c).role = 2 ∧ (netCfg s l).mode = 3 ∧ (linAt s c).lastBus + msTicks 4000 ≤ s.now ∧ !latchedBefore s then
    linCommit s l
  else s

/-- A LIN responder sees no bus activity (R294). -/
def execLinResponderIdle (c : Nat) (s : State) : Answer := effect s (responderIdle s c)

/-- A wake-up frame matches (R289). -/
def wakeMatch (g : XcvrCfg) (f : CanFrame) : Bool :=
  !f.fdf && !f.rtr && (f.id &&& g.swMask) == (g.swId &&& g.swMask) && f.ide == g.swIde && f.len == g.swDlc &&
    (!g.swDataEn || leNat f.data &&& g.swData != 0)

/-- The selective-wake decoder sees a frame (R289): a match latches cause 4, the error counter at 32 latches cause 5. -/
def selectiveWake (s : State) (n : Nat) (f : CanFrame) (good : Bool) : State :=
  let g := vget s.store.sleep.xcvr n
  if g.swEn ∧ 2 ≤ (netOf s n).xcvr ∧ !f.fdf then
    if good then
      let s := s.onNet n fun x => { x with swErr := x.swErr - 1 }
      if wakeMatch g f then latchWake (s.onNet n fun x => { x with wakeFlag := true }) 4 n else s
    else
      let s := s.onNet n fun x => { x with swErr := min 32 (x.swErr + 1) }
      if (netOf s n).swErr = 32 then latchWake (s.onNet n fun x => { x with wakeFlag := true }) 5 n else s
  else s

/-- A frame at a selective-wake decoder (R289). -/
def execSelectiveWakeFrame (n : Nat) (f : CanFrame) (good : Bool) (s : State) : Answer := effect s (selectiveWake s n f good)

/-- The RTC alarm falls due (R284). -/
def rtcAlarm (s : State) : State :=
  match s.sleep.alarmAt with
  | some t => if t ≤ s.rtc.time then latchWake (s.onSleep fun x => { x with alarmAt := none }) 7 0 else s
  | none => s

/-- The RTC alarm (R284). -/
def execRtcAlarm (s : State) : Answer := effect s (rtcAlarm s)

/-! Opcodes. -/

/-- NETWORK of NM.CONFIG. -/
def nmTarget (p : Packet) : Nat := p.num 16 1

/-- NM.CONFIG names the device part. -/
def nmDevice (p : Packet) : Bool := nmTarget p == 0xFF

/-- The network record of NM.CONFIG (Table 11.10). -/
def nmCfgOf (p : Packet) : NmCfg :=
  { mode := p.fld 17 1 2, node := p.fld 18 0 6, base := p.fld 20 0 29, ide := p.bit 20 29, kaMs := p.num 24 2
    timeoutMs := p.num 26 2, wbsMs := p.num 28 2, ringTypMs := p.num 30 2, ringMaxMs := p.num 32 2, follow := p.fld 34 0 3
    user := p.num 36 4 }

/-- A network record breaks a range of Table 11.10. -/
def NmCfg.bad (g : NmCfg) : Bool :=
  (if g.ide then 2 ^ 29 else 2 ^ 11) < g.base + 64 || g.kaMs < 100 || 5000 < g.kaMs || g.timeoutMs < 500 ||
    20000 < g.timeoutMs || g.wbsMs < 100 || 10000 < g.wbsMs || g.ringTypMs < 10 || 1000 < g.ringTypMs ||
    g.ringMaxMs < 20 || 2000 < g.ringMaxMs

/-- The mask of networks whose MODE is not off. -/
def activeNets (x : SleepStore) : Nat := maskOf ((List.range 14).filter fun n => (vget x.net n).mode != 0)

/-- The settings of network management agree (Table 11.10). -/
def nmAgrees (x : SleepStore) : Bool :=
  (List.range 14).all (fun n =>
    let g := vget x.net n
    g.kaMs < g.timeoutMs && g.ringTypMs < g.ringMaxMs && !(g.mode == 2 && 8 ≤ n) && !(g.mode == 3 && n < 8) &&
      !(g.mode == 3 && (vget x.net g.follow).mode == 0)) &&
    x.wake.toList.all fun w => match w.mask with | none => true | some m => m ||| activeNets x == activeNets x

/-- A record of NM.CONFIG as it is returned. -/
def nmReply (n : Nat) (g : NmCfg) : Reply :=
  [(16, 1, n), (17, 1, 2 * g.mode), (18, 1, g.node), (20, 4, g.base + 2 ^ 29 * b2n g.ide), (24, 2, g.kaMs),
    (26, 2, g.timeoutMs), (28, 2, g.wbsMs), (30, 2, g.ringTypMs), (32, 2, g.ringMaxMs), (34, 1, g.follow), (36, 4, g.user)]

/-- NET_MASK of a cause in force (Table 11.2). -/
def wakeMask (x : SleepStore) (cause : Nat) : Nat :=
  match (vget x.wake (cause - 1)).mask with
  | some m => m
  | none => if cause = 1 ∨ cause = 8 ∨ cause = 9 then activeNets x else 0

/-- The device part as NM.CONFIG returns it. -/
def nmDeviceReply (x : SleepStore) : Reply :=
  (16, 1, 0xFF) :: (20, 4, x.alarm) :: (24, 2, x.buoyMs) ::
    (List.range 9).flatMap fun i => [(32 + 4 * i, 1, (vget x.wake i).target), (34 + 4 * i, 2, wakeMask x (i + 1))]

/-- NM.CONFIG (Table 11.10). -/
def nmConfigOp : Op where
  code := 0x0900
  slotsOk := fun p => p.slotsField == (if nmDevice p then 2 else 1)
  layout := fun p =>
    if nmDevice p then (16, 0, 8) :: (17, 0, 1) :: (20, 0, 32) :: (24, 0, 16) :: entryLayout 32 4 9 [(0, 0, 2), (2, 0, 14)]
    else [(16, 0, 8), (17, 0, 3), (18, 0, 6), (20, 0, 30), (24, 0, 16), (26, 0, 16), (28, 0, 16), (30, 0, 16), (32, 0, 16),
      (34, 0, 3), (36, 0, 32)]
  bad := fun p _ => (13 < nmTarget p && !nmDevice p) ||
    (!p.bit 17 0 &&
      (if nmDevice p then
        604800 < p.num 20 4 || p.num 24 2 < 10 || 2000 < p.num 24 2 ||
          (List.range 9).any fun i => p.fld (32 + 4 * i) 0 2 == 0
      else (nmCfgOf p).bad))
  agree := fun _ _ s => nmAgrees s.store.sleep
  refuse := fun p s =>
    let n := nmTarget p
    if !nmDevice p ∧ !p.bit 17 0 ∧ (nmCfgOf p).mode ≠ (netCfg s n).mode ∧ 1 < (netOf s n).state then some .busy else none
  run := fun p s =>
    if nmDevice p then
      let s := if p.bit 17 0 then s
        else
          let a := p.num 20 4
          let s := s.onStore fun st => { st with sleep := { st.sleep with
            alarm := a, buoyMs := p.num 24 2
            wake := vtab 9 fun i => { target := p.fld (32 + 4 * i) 0 2, mask := some (p.fld (34 + 4 * i) 0 14) } } }
          s.onSleep fun x => { x with alarmAt := if a = 0 then none else some (s.rtc.time + a * 32768) }
      { s := s, reply := nmDeviceReply s.store.sleep }
    else
      let n := nmTarget p
      let old := (netCfg s n).mode
      let g := nmCfgOf p
      if p.bit 17 0 then { s := s, reply := nmReply n (netCfg s n) }
      else
        let s := s.onStore fun st => { st with sleep := { st.sleep with net := vmod st.sleep.net n fun _ => g } }
        let s := s.onNet n fun x => { x with user := g.user }
        let s := if g.mode = old then s else if g.mode = 0 then s.onNet n fun _ => { xcvr := (netOf s n).xcvr }
          else setXcvr (setNet s n 1) n 3
        { s := s, reply := nmReply n g }

/-- NM.CONFIG. -/
def execNmConfig (p : Packet) (s : State) : Answer := effect s (keeperTake nmConfigOp p s)

/-- The networks that NM.REQUEST and NM.RELEASE name. -/
def nmNames (p : Packet) : List Nat := bitList 14 (p.fld 16 0 14)

/-- A new USER for a network; 0 leaves it unchanged. -/
def setUser (s : State) (n user : Nat) : State := if user = 0 then s else s.onNet n fun x => { x with user := user }

/-- The networks requested. -/
def requestedMask (s : State) : Nat := maskOf ((List.range 14).filter fun n => (netOf s n).requested)

/-- The named networks can be requested and released. -/
def nmNamesOk (p : Packet) (s : State) : Bool := (nmNames p).all fun n => (netCfg s n).mode == 1 || (netCfg s n).mode == 2

/-- NM.REQUEST: a network in BUS_SLEEP latches cause 10 (Table 11.2), which cancels a pending Dark entry (R286). -/
def nmRequestOp : Op where
  code := 0x0901
  layout := fun _ => [(16, 0, 14), (20, 0, 32)]
  agree := fun p s _ => nmNamesOk p s
  run := fun p s =>
    let s := (nmNames p).foldl (fun s n =>
      let s := setUser s n (p.num 20 4)
      if (netOf s n).state = 1 then
        requestNet ((setLatch s 10 n).onSleep fun x => { x with darkPending := false }) n 10
      else requestNet s n 0) s
    { s := s, reply := [(16, 2, requestedMask s)] }

/-- NM.REQUEST. -/
def execNmRequest (p : Packet) (s : State) : Answer := effect s (keeperTake nmRequestOp p s)

/-- NM.RELEASE. -/
def nmReleaseOp : Op where
  code := 0x0902
  layout := fun _ => [(16, 0, 14), (20, 0, 32)]
  agree := fun p s _ => nmNamesOk p s
  run := fun p s =>
    let s := (nmNames p).foldl (fun s n => releaseNet (setUser s n (p.num 20 4)) n) s
    { s := s, reply := [(16, 2, requestedMask s)] }

/-- NM.RELEASE. -/
def execNmRelease (p : Packet) (s : State) : Answer := effect s (keeperTake nmReleaseOp p s)

/-- PEERS of NM.STATUS: known nodes in ring mode, nodes heard within TIMEOUT_MS otherwise (Table 11.11). -/
def peersMask (s : State) (n : Nat) : Nat :=
  let g := netCfg s n
  maskOf (((netOf s n).peers.filter fun p => g.mode == 2 || s.plane.lin ≤ p.heard + msTicks g.timeoutMs).map (·.node))

/-- NM.STATUS (Table 11.11). -/
def nmStatusOp : Op where
  code := 0x0903
  layout := fun _ => [(16, 0, 4), (17, 0, 1)]
  bad := fun p _ => 13 < p.fld 16 0 4
  run := fun p s =>
    let n := p.fld 16 0 4
    let x := netOf s n
    { s := if p.bit 17 0 then s.onNet n fun x => { x with sleeps := 0, cancels := 0, wakes := 0 } else s
      reply := [(16, 1, x.state + 8 * b2n x.requested + 16 * b2n s.sleep.darkPending), (17, 1, x.xcvr), (18, 1, x.lastWake),
        (24, 8, peersMask s n), (32, 4, x.sleeps), (36, 4, x.cancels), (40, 4, x.wakes)] }

/-- NM.STATUS. -/
def execNmStatus (p : Packet) (s : State) : Answer := effect s (keeperTake nmStatusOp p s)

/-- The wake settings of XCVR.STATE (Table 11.12). -/
def xcvrOf (p : Packet) : XcvrCfg :=
  { wakeEn := p.bit 18 0, wupMode := p.bit 18 1, swEn := p.bit 18 2, swRate := p.fld 18 3 2, swDlc := p.fld 19 0 4
    swIde := p.bit 19 4, swDataEn := p.bit 19 5, swId := p.fld 20 0 29, swMask := p.fld 24 0 29, swData := p.num 28 8 }

/-- XCVR.STATE (Table 11.12). -/
def xcvrStateOp : Op where
  code := 0x0904
  layout := fun _ => [(16, 0, 7), (17, 0, 2), (18, 0, 5), (19, 0, 6), (20, 0, 29), (24, 0, 29), (28, 0, 64)]
  bad := fun p _ => 13 < p.fld 16 0 4
  agree := fun p s _ =>
    let n := p.fld 16 0 4
    p.bit 16 4 ||
      (!(p.bit 16 5 && (netCfg s n).mode != 0) && !(p.bit 16 6 && 8 < p.fld 19 0 4) &&
        !(p.bit 16 6 && 8 ≤ n && (p.fld 18 1 4 != 0 || p.fld 19 0 6 != 0 || p.fld 20 0 29 != 0 || p.fld 24 0 29 != 0 ||
            p.num 28 8 != 0)))
  run := fun p s =>
    let n := p.fld 16 0 4
    let s := if p.bit 16 6 ∧ !p.bit 16 4 then
        s.onStore fun st => { st with sleep := { st.sleep with xcvr := vmod st.sleep.xcvr n fun _ => xcvrOf p } }
      else s
    let s := if p.bit 16 5 ∧ !p.bit 16 4 then setXcvr s n (p.fld 17 0 2) else s
    let g := vget s.store.sleep.xcvr n
    let x := netOf s n
    { s := s.onNet n fun x => { x with wakeFlag := false }
      reply := [(16, 1, x.xcvr + 4 * b2n (x.xcvr != 3)), (17, 1, x.swErr), (18, 1, b2n x.wakeFlag)] ++
        (if p.bit 16 4 then
          [(19, 1, g.swDlc + 16 * b2n g.swIde + 32 * b2n g.swDataEn), (20, 4, g.swId), (24, 4, g.swMask), (28, 8, g.swData)]
        else []) }

/-- XCVR.STATE. -/
def execXcvrState (p : Packet) (s : State) : Answer := effect s (keeperTake xcvrStateOp p s)

end Sys2Proof.Machine
end

