-- ==== Sys2Proof/Machine/Can.lean ====
section
/-! DEFINITION. The CAN controllers (chapter 09): acceptance, filtering, storage, signals, secure frames, transmission, errors,
and the opcodes 0x0700–0x0705. -/

namespace Sys2Proof.Machine

/-! Signals. -/

/-- Signal definition `d`. -/
def sigOf (s : State) (d : Nat) : SigDef := Tbl.get s.store.can.sig {} d

/-- The point of a signal definition (R240). -/
def sigPoint (d : Nat) : Nat := pointAt (64 + d / 4096) (d % 4096)

/-- The 16-bit value that a definition extracts from data: zero- or sign-extended; none where the field passes the data or the
definition is unused (R240). -/
def sigValue (g : SigDef) (data : List Byte) : Option PVal :=
  if g.length = 0 ∨ !fieldFits data g.big g.start g.length then none
  else
    let v := fieldValue data g.big g.start g.length
    some (BitVec.ofNat 16 (if g.signed ∧ v.testBit (g.length - 1) then v + (2 ^ 16 - 2 ^ g.length) else v))

/-- The MUX condition (R241). -/
def muxHolds (s : State) (first count : Nat) (g : SigDef) (data : List Byte) : Bool :=
  !g.muxed || (first ≤ g.muxDef && g.muxDef < first + count &&
    (match sigValue (sigOf s g.muxDef) data with
     | some v => v.toNat == g.muxValue
     | none => false))

/-- The definitions of a range that write their point, ascending, with their values, and how many count in SIG_SHORT
(R240, R241). -/
def extract (s : State) (first count : Nat) (data : List Byte) : List (Nat × PVal) × Nat :=
  (List.range count).foldl (fun (r : List (Nat × PVal) × Nat) i =>
    let d := first + i
    let g := sigOf s d
    if g.length = 0 ∨ !muxHolds s first count g data then r
    else match sigValue g data with
      | some v => (r.1 ++ [(d, v)], r.2)
      | none => (r.1, r.2 + 1)) ([], 0)

/-- A definition has not been written for TIMEOUT ms (R241). -/
def signalTimeout (s : State) (d : Nat) : State :=
  let g := sigOf s d
  let last := max s.bus.sigBase (Tbl.get s.bus.sigLast 0 d)
  if g.length ≠ 0 ∧ g.timeout ≠ 0 ∧ s.plane.running ∧ s.plane.tick % 8000 = 0 ∧ !s.bus.sigOut.contains d ∧
      last + msTicks g.timeout ≤ s.plane.lin then
    postEvent (s.onBus fun b => { b with sigOut := d :: b.sigOut }) (s.ev 3 0x0705 (sigPoint d) g.timeout true)
  else s

/-- CAN_SIG_TIMEOUT (R241). -/
def execSignalTimeout (d : Nat) (s : State) : Answer := effect s (signalTimeout s d)

/-! Reception. -/

/-- WORD of a FRAME record (Table 01.9). -/
def frameWord (f : CanFrame) : Nat :=
  f.id + 2 ^ 29 * b2n f.ide + 2 ^ 30 * b2n f.fdf + 2 ^ 31 * b2n (if f.fdf then f.brs else f.rtr)

/-- The FRAME capture record; a remote frame has no payload (R237). -/
def frameCap (value : Nat) (f : CanFrame) : CapRecord :=
  { cls := 2, hall := 6, value := value + 16 * f.len, word := frameWord f, payload := if f.rtr then [] else f.data }

/-- An element's identifier condition (Table 09.4). -/
def FilterElem.matches (e : FilterElem) (f : CanFrame) : Bool :=
  e.type != 0 && e.ide == f.ide &&
    (if e.type = 1 then e.id1 ≤ f.id && f.id ≤ e.id2
     else if e.type = 2 then f.id == e.id1 || f.id == e.id2
     else f.id &&& e.id2 == e.id1 &&& e.id2)

/-- Element `i` of the filter table. -/
def filterAt (s : State) (i : Nat) : FilterElem := Tbl.get s.store.can.filter {} i

/-- The first matching element of a controller's region (R237). -/
def findElem (s : State) (c : Nat) (f : CanFrame) : Option Nat :=
  let m := canMode s c
  ((List.range m.filterLen).map (m.filterBase + ·)).find? fun i => (filterAt s i).matches f

/-- Store a frame (R238, R239): the controller after it, with ADDRESS and VALUE of its CAN_RX. -/
def store (x : Can) (c action buffer : Nat) (e : RxEntry) : Can × Nat × Nat :=
  if action = 3 then
    let k := ((Tbl.get x.ram {} buffer).seq / 2 + 1)
    ({ x with ram := Tbl.put x.ram {} buffer { e with seq := 2 * k % 2 ^ 32 } }, c + 16 + 32 * buffer, k % 65536)
  else if action = 1 then
    ({ x with ram := Tbl.put x.ram {} (64 + x.wseq0 % 64) { e with seq := 2 * (x.wseq0 + 1) % 2 ^ 32 }
              wseq0 := (x.wseq0 + 1) % 2 ^ 32 }, c, x.wseq0 % 65536)
  else
    ({ x with ram := Tbl.put x.ram {} (128 + x.wseq1 % 64) { e with seq := 2 * (x.wseq1 + 1) % 2 ^ 32 }
              wseq1 := (x.wseq1 + 1) % 2 ^ 32 }, c + 8, x.wseq1 % 65536)

/-- The payload of a secure frame (R250). -/
def securePayload (f : CanFrame) : List Byte := f.data.take (f.data.length - 12)

/-- A frame takes its fate by its element (R237): stored under ACTIONs 1–3, its signals extracted where it is a data frame and
verified. `secure` is the answer of the check where it was verified, and `t` the stamp of its verdict. -/
def deliver (s : State) (c : Nat) (f : CanFrame) (element : Nat) (e : FilterElem) (secure : Option Bool) (caps : List CapRecord)
    (events : List Ev) (t : Stamp) : State :=
  let entry : RxEntry :=
    { word := frameWord f, stamp := t.word, len := f.len, esi := f.esi, secure := secure.isSome
      authOk := secure == some true, element := element, data := if f.rtr then [] else f.data }
  let (x, address, value) := if e.action = 1 ∨ e.action = 2 ∨ e.action = 3 then store (canOf s c) c e.action e.buffer entry
    else (canOf s c, 0, 0)
  let data := if secure.isSome then securePayload f else f.data
  let (sigs, short) := if f.rtr ∨ e.action = 0 ∨ secure = some false then ([], 0) else extract s e.sigFirst e.sigCount data
  let s := s.onCan c fun _ => { x with sigShort := satAdd32 x.sigShort short }
  let rx := if e.notify ∧ 1 ≤ e.action ∧ e.action ≤ 3 then [s.ev 6 0x0701 address value] else []
  observeStamped s t 6 c (sigs.map fun w => (sigPoint w.1, w.2)) (events ++ rx) caps

/-- REC after a frame received without error: 1 less; above 127 the standard leaves a value between 119 and 127. -/
def recAfter (s : State) (c : Nat) : Nat × State :=
  let r := (canOf s c).recErr
  if r ≤ 127 then (r - 1, s)
  else
    let (v, s) := s.takeFree 8
    (119 + v % 9, s)

/-- The meter of a CAN controller advances by a frame's bits (R389); how many stuff bits a frame carries the manual does not lay
down. -/
def canMeter (s : State) (c : Nat) (tx : Bool) : State :=
  let (n, s) := s.takeFree 11
  if tx then meterAdd s (8 + c) 0 n else meterAdd s (8 + c) n 0

/-- The network management engine sees a classical frame of 8 bytes in the range of its network (R291, Table 11.5). -/
def nmSees (s : State) (c : Nat) (f : CanFrame) : State :=
  let g := netCfg s c
  if !f.fdf ∧ !f.rtr ∧ f.ide = g.ide ∧ f.len = 8 ∧ g.base ≤ f.id ∧ f.id < g.base + 64 then nmRx s c (nmMessage f.data) else s

/-- What a CAN controller does with a frame that it has accepted (R237, R291). -/
def canTaken (s : State) (c : Nat) (f : CanFrame) : State :=
  let m := canMode s c
  let (r, s) := recAfter (canMeter (bump s 0x0B c 1) c false) c
  let s := s.onCan c fun x => { x with rxFrames := satAdd32 x.rxFrames 1, recErr := r }
  let s := nmSees (nmAnyFrame s c) c f
  let cap := [frameCap c f]
  match findElem s c f with
  | none =>
    let s := s.onCan c fun x => { x with nonmatch := satAdd32 x.nonmatch 1 }
    deliver s c f 0xFFFF { action := m.nonmatch } none cap [] s.wallStamp
  | some i =>
    let e := filterAt s i
    if e.secure ∧ e.action ≠ 0 then
      let s := s.onCan c fun x => { x with
        verdicts := x.verdicts ++ [{ frame := f, element := i, stream := e.stream, at_ := s.now + 32, stamp := { s.wallStamp with tick := s.wallTick + 32 } }] }
      observe s 6 c [] [] cap
    else deliver s c f i e none cap [] s.wallStamp

/-- TEC and REC after a bus error (R248, ISO 11898-1; PRESUMED, log entry 181): TEC by 8 but for the errors that it leaves out, REC by 1, and either by 8 for a
dominant bit after the error flag and the like. -/
def Can.counted (x : Can) (e : BusErr) : Can :=
  if e.tx then (if e.kind = 2 then x else { x with txErr := x.txErr + 8 })
  else { x with recErr := x.recErr + if e.kind = 1 then 8 else 1 }

/-- A bus error that is no clash (R248): but for the further dominant bits of one, an error frame is sent and counted. A controller in LISTEN sends none and
never transmits (R231). -/
def busError (s : State) (c : Nat) (e : BusErr) : State :=
  let x := canOf s c
  if (canMode s c).op = 0 ∨ (x.state ≠ 1 ∧ x.state ≠ 2) ∨ (e.tx ∧ !(canMode s c).sends) then s
  else
    let s := s.onCan c fun x => x.counted e
    if e.kind = 1 ∨ (canMode s c).op = 2 then s
    else (bump s 0x0B (c + 32) 1).onCan c fun x => { x with errors := satAdd32 x.errors 1 }

/-- The frame is the one that the controller sends, which carries its error state as ESI. -/
def Can.isOwn (x : Can) (f : CanFrame) : Bool :=
  match x.current with
  | some h => (match x.find h with | some t => { t.frame with esi := f.esi } == f | none => false)
  | none => false

/-- A CAN controller accepts a frame (R232, R237). The controller takes no frame of its own in NORMAL and no other in LOOPBACK; one that is not set to FD
signals a form error on an FD frame, and one that is takes a recessive res bit as a protocol exception and integrates again (R231). -/
def canAccept (s : State) (c : Nat) (f : CanFrame) : State :=
  let m := canMode s c
  let x := canOf s c
  if m.op = 0 ∨ (x.state ≠ 1 ∧ x.state ≠ 2) ∨ (m.op = 3 ∧ !x.isOwn f) ∨ (m.op = 1 ∧ x.isOwn f) ∨ (m.op ≠ 3 ∧ 2 ≤ (netOf s c).xcvr) then s
  else if f.fdf ∧ !m.fd then busError s c {}
  else if f.fdf ∧ f.res then setCanState s c 4
  else canTaken s c f

/-- A CAN controller accepts a frame (R232). -/
def execCanFrameAccept (c : Nat) (f : CanFrame) (s : State) : Answer := effect s (if cutOff s then s else canAccept s c f)

/-- The verdict on a secure frame (R251): the status, and the freshness formed from its low part. Of a frame that fails in both, the tag is told (DESIGN
CHOICE, log entry 142). -/
def judge (s : State) (v : Verdict) : Status × Nat :=
  let y := streamOf s v.stream
  let g := streamCfg s v.stream
  let n := v.frame.data.length
  let low := beNat ((v.frame.data.drop (n - 12)).take 4)
  let f0 := y.fr / 2 ^ 32 * 2 ^ 32 + low
  let f := if f0 ≤ y.fr then f0 + 2 ^ 32 else f0
  let tag := (Config.gcmTag y.key (secureIv g.peerFixed f) (secureAad v.frame (securePayload v.frame)) []).take 8
  if v.fault then (.hwFault, f)
  else if y.revoked then (.keyRevoked, f)
  else if y.fr = counterEnd then (.nonceExhausted, f)
  else if n < 12 ∨ !v.frame.fdf ∨ v.frame.data.drop (n - 8) ≠ tag then (.authFail, f)
  else if g.window < f - y.fr ∨ counterEnd < f then (.stale, f)
  else (.ok, f)

/-- Commit the freshness of a stream to MRAM (R251). -/
def commitFresh (s : State) (k : Nat) : State :=
  let f := (streamOf s k).fr
  s.onStore fun st => { st with can := { st.can with fresh := vmod st.can.fresh k fun _ => f } }

/-- A frame passes: Fr takes F, committed every 256 acceptances (R251). -/
def acceptFresh (s : State) (k f : Nat) : State :=
  let s := s.onStream k fun y => { y with fr := f, accepted := y.accepted + 1 }
  if (streamOf s k).accepted % 256 = 0 then commitFresh s k else s

/-- VALUE of CAN_AUTH_FAIL (Table 09.11). -/
def authFailValue (st : Status) : Nat := if st = .stale then 2 else if st = .keyRevoked ∨ st = .nonceExhausted then 3 else 1

/-- The status that a recorded verdict gives (Table 01.9). -/
def recordedStatus (code : Nat) : Status :=
  if code = 0 then .ok else if code = 0x42 then .keyRevoked else if code = 0x43 then .nonceExhausted
  else if code = 0x44 then .hwFault else .authFail

/-- The oldest verdict of a controller falls due (R28, R251); a replay gives its status from the record (R43). -/
def secureVerdict (s : State) (c : Nat) (recorded : Option Status := none) : State :=
  match (canOf s c).verdicts with
  | [] => s
  | v :: rest =>
    if s.now < v.at_ ∧ recorded.isNone then s
    else
      let s := (engineRun s (20 + v.stream) (secureBlocks v.frame.data.length)).onCan c fun x => { x with verdicts := rest }
      let (judged, f) := judge s v
      let st := recorded.getD judged
      let ok := decide (st = .ok)
      let cap : CapRecord :=
        { cls := 4, hall := 6, value := (if st = .stale then Status.authFail else st).code, word := 1 + 256 * v.stream }
      let s := if ok then acceptFresh s v.stream f
        else s.onCan c fun x => { x with authFail := satAdd32 x.authFail 1 }
      let bad := if ok then [] else [s.ev 6 0x0704 (c + 8 * v.stream) (authFailValue st)]
      deliver s c v.frame v.element (filterAt s v.element) (some ok) [cap] bad (if recorded.isSome ∨ v.stamp.epoch ≠ s.plane.epoch then s.wallStamp else v.stamp)

/-- The verdict of a secure CAN frame (R28). -/
def execSecureCanVerdict (c : Nat) (s : State) : Answer := effect s (if cutOff s then s else secureVerdict s c)

/-! Hand-over. -/

/-- What a CAN.SEND names: controller, place, the frame with its payload, and the secure stream. -/
structure SendReq where
  c : Nat := 0
  queue : Nat := 0
  frame : CanFrame := {}
  secure : Bool := false
  stream : Nat := 0

/-- The frame of a CAN template (Table 09.8), filled now. -/
def templateReq (s : State) (t : Template) : SendReq :=
  { c := t.controller, queue := t.queue, secure := t.secure, stream := t.stream
    frame := { id := t.id, ide := t.ide, fdf := t.fdf, brs := t.brs, len := t.len, data := fillTemplate s t } }

/-- The frame of a CAN.SEND (Table 09.13). -/
def sendReq (s : State) (p : Packet) : SendReq :=
  if p.bit 16 3 then templateReq s (tplOf s (p.num 17 1))
  else
    let n := p.fld 18 0 7
    { c := p.fld 16 0 3, queue := p.fld 16 5 2, secure := p.bit 19 4, stream := p.fld 19 5 3
      frame := { id := p.fld 20 0 29, ide := p.bit 19 2, fdf := p.bit 19 0, brs := p.bit 19 1, rtr := p.bit 19 3, len := n
                 data := if p.bit 19 3 then [] else (p.bytes.drop 32).take n } }

/-- A frame for a CAN controller reaches it (R243, R252): the status it ends with at once, or that it is handed over; none while a
secure frame waits for its counter. -/
def handOver (s : State) (q : SendReq) (p : Option Packet) (late : Bool) (sof : Bool) : State × Option (Except Status Nat) :=
  if !queueFree (canOf s q.c) q.queue then (s, some (.error .busy))
  else
    let m := canCfg s q.c
    let timeoutAt := if m.txTimeout = 0 ∨ p.isNone then none else some (s.now + msTicks m.txTimeout)
    let f : TxFrame := { frame := q.frame, confirm := p, late := late, timeoutAt := timeoutAt }
    if q.secure then
      match drawFresh s q.stream with
      | (s, .error st) => (s, some (.error st))
      | (s, .ok none) => (s, none)
      | (s, .ok (some n)) =>
        let y := streamOf s q.stream
        let g := { q.frame with len := q.frame.len + 12, data := secureData y.key y.fixed n q.frame q.frame.data }
        let (s, h) := handCan s q.c q.queue { f with frame := g, secure := true, mac := 8, stream := q.stream, tagReady := false } sof
        (s, some (.ok h))
    else
      let (s, h) := handCan s q.c q.queue f sof
      (s, some (.ok h))

/-- A CAN.SEND is handed over (R243, R245); false while it waits. -/
def sendNow (s : State) (p : Packet) (late sof : Bool) : State × Bool :=
  let confirm := p.bit 16 4
  match handOver s (sendReq s p) (if confirm then some p else none) late sof with
  | (s, none) => (s, false)
  | (s, some (.error st)) => (completeNow s p (lateStatus late st) [], true)
  | (s, some (.ok h)) =>
    (if confirm then writePending s p else completeNow s p (lateStatus late .ok) [(16, 2, h)], true)

/-- Count a reflex FRAME action as SKIPPED (R119). -/
def countSkippedFrame (s : State) : State :=
  s.onPoints fun p => { p with stats := { p.stats with skipped := satAdd32 p.stats.skipped 1 } }

/-! LIN hand-over. -/

/-- Frame entry `id` of a LIN controller. -/
def linEntry (s : State) (c id : Nat) : LinEntry := Tbl.get (linCfg s c).entries {} id

/-- What a LIN.SEND names. -/
structure LinReq where
  c : Nat := 0
  id : Nat := 0
  len : Nat := 0
  data : List Byte := []

/-- The request of a LIN template. -/
def linTemplateReq (s : State) (t : Template) : LinReq :=
  { c := t.controller - 8, id := t.id, len := t.len, data := fillTemplate s t }

/-- The request of a LIN.SEND. -/
def linSendReq (s : State) (p : Packet) : LinReq :=
  if p.bit 16 3 then linTemplateReq s (tplOf s (p.num 17 1))
  else { c := p.fld 16 0 3, id := p.fld 18 0 6, len := p.num 19 1, data := (p.bytes.drop 24).take (p.num 19 1) }

/-- A request for the master request of a commander (R255). -/
def LinReq.isMaster (q : LinReq) (s : State) : Bool := q.id == 60 && (linCfg s q.c).role == 1

/-- The hand-over enters the result stream and takes a HANDLE (R30, R243). -/
def linHandle (s : State) (q : LinReq) : State × Nat :=
  let h := (linAt s q.c).handles
  let f : CanFrame := { id := q.id, len := q.len, data := q.data }
  ((s.onLin q.c fun x => { x with handles := (h + 1) % 65536 }).onPlane fun p =>
    { p with results := .frame s.plane.tick (8 + q.c) f 0 :: p.results }, h)

/-- A LIN request reaches its controller (R255, R256): a publish buffer is written, a sporadic identifier becomes pending, or a
master request is queued; none where a master request already waits. -/
def linHand (s : State) (q : LinReq) (event : Bool) : State × Option Nat :=
  if q.isMaster s ∧ (linAt s q.c).master.isSome then (s, none)
  else
    let (s, h) := linHandle s q
    let s :=
      if dryReplay s then s
      else if q.isMaster s then s.onLin q.c fun x => { x with master := some (padTo 8 q.data) }
      else s.onLin q.c fun x => { x with
        pub := Tbl.put x.pub {} q.id { data := q.data, written := true, event := event }
        sporadic := if x.sporadic.contains q.id then x.sporadic else x.sporadic ++ [q.id] }
    (s, some h)

/-- A LIN.SEND is handed over (R243). -/
def linSendNow (s : State) (p : Packet) (late : Bool) : State :=
  let q := linSendReq s p
  match linHand s q (p.bit 16 5) with
  | (s, none) => completeNow s p (lateStatus late .busy) []
  | (s, some h) =>
    if p.bit 16 4 then
      let t := s.now + msTicks (linCfg s q.c).txTimeout
      writePending (s.onLin q.c fun x => { x with
        waits := x.waits ++ [{ id := q.id, handle := h, packet := p, late := late, timeoutAt := t }] }) p
    else completeNow s p (lateStatus late .ok) []

/-- A reflex FRAME action is handed over (R119, R243): false while it waits; a frame that finds no place counts as SKIPPED. -/
def reflexNow (s : State) (t : Nat) (sof : Bool) : State × Bool :=
  let g := tplOf s t
  if !g.used ∨ g.unusable then (countSkippedFrame s, true)
  else if 8 ≤ g.controller then
    match linHand s (linTemplateReq s g) false with
    | (s, none) => (countSkippedFrame s, true)
    | (s, some _) => (s, true)
  else if !(canCfg s g.controller).sends ∨ ((g.fdf ∨ g.brs) ∧ !(canCfg s g.controller).fd) then (countSkippedFrame s, true)
  else
    match handOver s (templateReq s g) none false sof with
    | (s, none) => (s, false)
    | (s, some (.error _)) => (countSkippedFrame s, true)
    | (s, some (.ok _)) => (s, true)

/-- The frames that a CAN.CANCEL names (R246). -/
def cancelNames (s : State) (p : Packet) : List TxFrame :=
  (canOf s (p.fld 16 0 3)).frames.filter fun f =>
    if p.bit 16 3 then f.frame.id == p.fld 20 0 29 && f.frame.ide == p.bit 20 29 else f.handle == p.num 18 2

/-- One named frame (R246): held where its start-of-frame has been sampled, removed otherwise. -/
def cancelOne (s : State) (c : Nat) (p : Packet) (sof : Bool) (f : TxFrame) : State :=
  if sof ∧ (canOf s c).current = some f.handle then
    s.onCan c fun x => x.onFrame f.handle fun g => { g with cancels := g.cancels ++ [p] }
  else cancelDecided (frameLeaves s c f .cancelled false) p true

/-- A cancellation is applied (R246). -/
def cancelNow (s : State) (p : Packet) (late sof : Bool) : State :=
  let c := p.fld 16 0 3
  let l := cancelNames s p
  if l.isEmpty then completeNow s p (lateStatus late .conflict) []
  else
    let s := s.onBus fun b => { b with
      cancels := b.cancels ++ [{ packet := p, late := late, left := l.length, cancelled := 0, lateCount := 0 }] }
    (l.foldl (fun s f => cancelOne s c p sof f) s).onCan c fun x => x.reoffer sof

/-- The first item of L4 whose tick has come reaches the bus hall (R243). -/
def frameHandover (s : State) (sof : Bool) : State :=
  match s.bus.l4 with
  | [] => s
  | x :: rest =>
    if s.plane.lin ≤ x.lin then s
    else
      let done := s.onBus fun b => { b with l4 := rest }
      match x.kind with
      | .send p late => let (t, ok) := sendNow done p late sof; if ok then t else s
      | .linSend p late => linSendNow done p late
      | .reflex i => let (t, ok) := reflexNow done i sof; if ok then t else s
      | .cancel p late => cancelNow done p late sof

/-- A frame or a cancellation is handed over (R243). -/
def execFrameHandover (sof : Bool) (s : State) : Answer := effect s (frameHandover s sof)

/-! Transmission. -/

/-- The tag of a secure frame is ready, at most 32 ticks after its hand-over (R252). -/
def tagReady (s : State) (c : Nat) : State :=
  match (canOf s c).frames.find? fun f => f.secure && !f.tagReady with
  | none => s
  | some f => tagDone s c f

/-- A secure frame offers itself (R252). -/
def execSecureTxTagReady (c : Nat) (s : State) : Answer := effect s (tagReady s c)

/-- The frame that a controller sends now: it is NORMAL or LOOPBACK, on the bus, and its transceiver is in Normal (R231, R288). -/
def sendingOf (s : State) (c : Nat) : Option TxFrame :=
  let x := canOf s c
  let m := canMode s c
  match x.current with
  | some h => if (x.state = 1 ∨ x.state = 2) ∧ m.sends ∧ (m.op = 3 ∨ (netOf s c).xcvr = 0) then x.find h else none
  | none => none

/-- A new MODE record takes NORMAL to OFF or LISTEN once the frame on the bus is over (R235). -/
def losesFrames (s : State) (c : Nat) : Bool := (canMode s c).op == 1 && ((canCfg s c).op == 0 || (canCfg s c).op == 2)

/-- A frame that lost arbitration or met an error (R244, R246, R249): removed where a cancellation or a timeout is held or its controller stops
sending, else offered again. -/
def offerAgain (s : State) (c : Nat) (f : TxFrame) : State :=
  let f := { f with attempts := f.attempts + 1 }
  if f.cancels.isEmpty ∧ !f.timeoutHeld ∧ ¬losesFrames s c then
    s.onCan c fun x => (x.onFrame f.handle fun _ => f).reoffer false
  else (frameLeaves s c f (if f.timeoutHeld then .timeout else .cancelled) false).onCan c fun x => x.reoffer false

/-- A transmission of an identifier without error resets its clash count (R247). -/
def Can.clearClash (x : Can) (key : Nat) : Can := { x with clashTbl := x.clashTbl.filter fun e => !(e.1 == key) }

/-- The transmitter delay that was measured in a frame with BRS under TDC_EN, in cycles; 0 where the frame did not come so far (R234). -/
def noteDelay (s : State) (c : Nat) (f : CanFrame) (tdcv : Nat) : State :=
  if f.fdf ∧ f.brs ∧ (canMode s c).fd ∧ (canData s c).tdcEn then s.onCan c fun x => { x with tdcvMax := max x.tdcvMax (min 127 tdcv) } else s

/-- A frame's transmission ends (R245): 0 transmitted, 1 arbitration lost, 2 error. -/
def canTxEnd (s : State) (c outcome tdcv : Nat) : State :=
  match sendingOf s c with
  | none => s
  | some f =>
    let s := noteDelay s c f.frame tdcv
    if outcome = 0 then
      let s := (canMeter (bump s 0x0B (c + 16) 1) c true).onCan c fun x =>
        { x.clearClash (idKey f.frame) with txFrames := satAdd32 x.txFrames 1, txErr := x.txErr - 1 }
      (frameLeaves s c { f with attempts := f.attempts + 1 } .ok true).onCan c fun x => x.reoffer false
    else offerAgain (if outcome = 1 then bump s 0x0B (c + 64) 1 else s) c f

/-- A transmission ends (R245). -/
def execCanTxEnd (c : Nat) (x : TxEnd) (s : State) : Answer := effect s (canTxEnd s c x.outcome x.tdcv)

/-- Count a clash of an identifier in the table of 16, the least recently clashing entry first (R247). -/
def Can.countClash (x : Can) (key : Nat) : Can × Nat :=
  let n := ((x.clashTbl.find? fun e => e.1 == key).map (·.2)).getD 0 + 1
  let l := (x.clashTbl.filter fun e => !(e.1 == key)) ++ [(key, n)]
  ({ x with clashTbl := l.drop (l.length - 16) }, n)

/-- A clash (R247): CAN_CLASH is posted where it removes the frame (DEDUCED, log entry 143). -/
def canClash (s : State) (c tdcv : Nat) : State :=
  match sendingOf s c with
  | none => s
  | some f =>
      let s := noteDelay s c f.frame tdcv
      let (x, n) := (canOf s c).countClash (idKey f.frame)
      let s := (bump s 0x0B (c + 48) 1).onCan c fun _ => { x with
        txErr := x.txErr + 8, errors := satAdd32 x.errors 1, clashes := satAdd32 x.clashes 1, lastClash := idKey f.frame }
      if (canMode s c).clashN ≤ n then
        let s := frameLeaves s c { f with attempts := f.attempts + 1 } .clash false
        busEvent (s.onCan c fun x => x.reoffer false) c 0x0703 (c + 8) (f.frame.id % 65536)
      else offerAgain s c f

/-- A clash (R247). -/
def execCanClash (x : TxClash) (s : State) : Answer := effect s (canClash s x.controller x.tdcv)

/-- A bus error (R248). -/
def execCanBusError (c : Nat) (x : BusErr) (s : State) : Answer := effect s (busError s c x)

/-- The error state that the counters give (R248). -/
def Can.errState (x : Can) : Nat := if 255 < x.txErr then 3 else if 128 ≤ x.txErr ∨ 128 ≤ x.recErr then 2 else 1

/-- The error state follows the counters (R248): bus-off keeps the waiting frames, and with BUSOFF_MODE 0 recovery starts. -/
def errorState (s : State) (c st : Nat) : State :=
  let x := canOf s c
  if (x.state = 1 ∨ x.state = 2) ∧ st = x.errState ∧ st ≠ x.state then
    let s := if st = 3 then
        s.onCan c fun x => { x with
          busoffs := satAdd32 x.busoffs 1, recovering := !(canMode s c).busoffMode, current := none }
      else s
    setCanState s c st
  else s

/-- An error state changes (R248). -/
def execCanErrorStateChange (c st : Nat) (s : State) : Answer := effect s (errorState s c st)

/-- 128 occurrences of 11 recessive bits (R248): the controller is active again with both counters 0. -/
def busoffRecovery (s : State) (c : Nat) : State :=
  if (canOf s c).state = 3 ∧ (canOf s c).recovering then
    setCanState (s.onCan c fun x => { x with recovering := false, txErr := 0, recErr := 0 }.reoffer false) c 1
  else s

/-- A controller recovers from bus-off (R248). -/
def execBusoffRecovery (c : Nat) (s : State) : Answer := effect s (busoffRecovery s c)

/-- The records of the store are in force (R235): the controller integrates, or is off. -/
def reintegrate (s : State) (c : Nat) : State :=
  let s := s.onCan c fun x => { x with old := none }
  if (canMode s c).op = 0 then setCanState (s.onCan c fun x => { x with current := none, recovering := false }) c 0
  else if (canOf s c).state = 3 then s
  else setCanState (s.onCan c fun x => { x with current := none }) c 4

/-- The bus is idle (R235): records that have waited for it are in force, and a controller that they keep from sending loses the frame it sent. -/
def busIdle (s : State) (c : Nat) : State :=
  if (canOf s c).old.isSome then reintegrate (if losesFrames s c then dropFrames s c .cancelled else s) c else s

/-- 11 recessive bits (R235). -/
def integrated (s : State) (c : Nat) : State :=
  if (canOf s c).state = 4 ∧ (canMode s c).op ≠ 0 then
    setCanState (s.onCan c fun x => x.reoffer false) c (min 2 (canOf s c).errState)
  else s

/-- The bus of a controller that integrates is idle, and has then been recessive for 11 bits (R235). -/
def execCanIntegrated (x : BusQuiet) (s : State) : Answer :=
  effect s (if x.idle then busIdle s x.controller else integrated s x.controller)

/-- A confirmed send has not been sent within TX_TIMEOUT (R249): it is cancelled under R246, held where its start-of-frame has been sampled. -/
def canTimeout (s : State) (c h : Nat) (sof : Bool) : State :=
  match (canOf s c).find h with
  | none => s
  | some f =>
    let due : Bool := match f.timeoutAt with | some t => t ≤ s.now | none => false
    if !due then s
    else if sof ∧ (canOf s c).current = some h then
      s.onCan c fun x => x.onFrame h fun g => { g with timeoutHeld := true, timeoutAt := none }
    else
      let held := (canOf s c).current != some h
      (frameLeaves s c f .timeout false).onCan c fun x => x.reoffer held

/-- A confirmed LIN.SEND has not been sent within TX_TIMEOUT. -/
def linTimeout (s : State) (c h : Nat) : State :=
  match (linAt s c).waits.find? fun w => w.handle == h && w.timeoutAt ≤ s.now with
  | none => s
  | some w =>
    completeNow (s.onLin c fun x => { x with waits := x.waits.filter fun v => !(v.handle == h) }) w.packet (lateStatus w.late .timeout) []

/-- TX_TIMEOUT passes; controllers 8–13 are LIN0–LIN5 (R249). -/
def execTxTimeoutExpiry (c : Nat) (x : TxExpiry) (s : State) : Answer :=
  effect s (if c < 8 then canTimeout s c x.handle x.sof else linTimeout s (c - 8) x.handle)

/-! Opcodes. -/

/-- Bit timing is allowed (Table 09.3), in cycles of 80 MHz for a bit. -/
def timingOk (n : CanNominal) (d : CanData) (fd : Bool) : Bool :=
  let nq := n.brp * (1 + n.tseg1 + n.tseg2)
  let dq := d.brp * (1 + d.tseg1 + d.tseg2)
  80 ≤ nq && nq ≤ 1600 && n.sjw ≤ n.tseg2 && d.sjw ≤ d.tseg2 &&
    (if fd then d.brp == n.brp && dq ≤ nq && 10 ≤ dq && (d.tdcEn || 80 ≤ dq) && !n.triple
     else !d.tdcEn && (!n.triple || 320 ≤ nq))

/-- The filter regions of two controllers do not overlap (R236). -/
def regionsApart (a b : CanMode) : Bool :=
  a.filterLen == 0 || b.filterLen == 0 || a.filterBase + a.filterLen ≤ b.filterBase || b.filterBase + b.filterLen ≤ a.filterBase

/-- The records of controllers 0–7 agree (R234, R236). -/
def canTimingAgrees (x : CanStore) : Bool :=
  (List.range 8).all fun i => timingOk (vget x.nominal i) (vget x.data i) (vget x.mode i).fd &&
    (List.range i).all fun j => regionsApart (vget x.mode i) (vget x.mode j)

/-- A stream is enabled in a direction. -/
def streamIs (x : CanStore) (k : Nat) (tx : Bool) : Bool := (vget x.stream k).enable && (vget x.stream k).tx == tx

/-- Every element and every template names a stream that is enabled in its direction, and range elements rise. -/
def canStreamsAgree (x : CanStore) : Bool :=
  (x.filter.all fun e => e.2.type == 0 || ((!e.2.secure || streamIs x e.2.stream false) && (e.2.type != 1 || e.2.id1 ≤ e.2.id2))) &&
    x.tpl.all fun t => !t.2.used || 8 ≤ t.2.controller || !t.2.secure || streamIs x t.2.stream true

/-- The CONTROLLER or stream of CAN.CONFIG. -/
def ccIndex (p : Packet) : Nat := p.fld 16 0 3

/-- PART of CAN.CONFIG. -/
def ccPart (p : Packet) : Nat := p.fld 16 3 2

/-- The NOMINAL record of a packet. -/
def ccNominal (p : Packet) : CanNominal :=
  { brp := p.num 20 1, tseg1 := p.num 22 2, tseg2 := p.num 24 1, sjw := p.num 25 1, triple := p.bit 26 0 }

/-- The DATA record of a packet. -/
def ccData (p : Packet) : CanData :=
  { brp := p.num 20 1, tseg1 := p.num 21 1, tseg2 := p.num 22 1, sjw := p.num 23 1, tdcEn := p.bit 24 0, tdco := p.fld 25 0 7 }

/-- The MODE record of a packet. -/
def ccMode (p : Packet) : CanMode :=
  { op := p.fld 20 0 2, fd := p.bit 20 2, nonmatch := p.fld 20 3 2, clashN := p.fld 21 0 5, filterBase := p.num 22 2
    filterLen := p.num 24 2, busoffMode := p.bit 26 0, txTimeout := p.num 28 2 }

/-- The STREAM record of a packet. -/
def ccStream (p : Packet) : StreamCfg :=
  { enable := p.bit 20 0, tx := p.bit 20 1, keySlot := p.num 21 1, peerFixed := p.num 24 4, window := p.num 28 2 }

/-- The fields of each part of CAN.CONFIG (Table 09.12). -/
def ccLayout (part : Nat) : Layout :=
  (16, 0, if part = 2 then 7 else 6) ::
    (if part = 0 then [(20, 0, 8), (22, 0, 16), (24, 0, 8), (25, 0, 8), (26, 0, 1)]
     else if part = 1 then [(20, 0, 8), (21, 0, 8), (22, 0, 8), (23, 0, 8), (24, 0, 1), (25, 0, 7)]
     else if part = 2 then [(20, 0, 5), (21, 0, 5), (22, 0, 16), (24, 0, 16), (26, 0, 1), (28, 0, 16)]
     else [(20, 0, 2), (21, 0, 8), (24, 0, 32), (28, 0, 16)])

/-- A field of CAN.CONFIG lies outside its range (Tables 09.2, 09.12). -/
def ccBad (p : Packet) : Bool :=
  let n := ccNominal p
  let d := ccData p
  let m := ccMode p
  let g := ccStream p
  if ccPart p = 0 then
    n.brp < 1 || 32 < n.brp || n.tseg1 < 2 || 256 < n.tseg1 || n.tseg2 < 1 || 128 < n.tseg2 || n.sjw < 1 || 128 < n.sjw
  else if ccPart p = 1 then
    d.brp < 1 || 8 < d.brp || d.tseg1 < 1 || 32 < d.tseg1 || d.tseg2 < 1 || 16 < d.tseg2 || d.sjw < 1 || 16 < d.sjw || d.tdco < 1
  else if ccPart p = 2 then
    3 ≤ m.nonmatch || m.clashN < 1 || 16 < m.clashN || 2047 < m.filterBase || 2048 < m.filterLen ||
      2048 < m.filterBase + m.filterLen
  else g.keySlot < 16 || g.window < 1

/-- The record of CAN.CONFIG as it stands (Table 09.12). -/
def ccReply (s : State) (part i : Nat) : Reply :=
  (16, 1, i + 8 * part) ::
    (if part = 0 then
      let n := vget s.store.can.nominal i
      [(20, 1, n.brp), (22, 2, n.tseg1), (24, 1, n.tseg2), (25, 1, n.sjw), (26, 1, b2n n.triple)]
    else if part = 1 then
      let d := vget s.store.can.data i
      [(20, 1, d.brp), (21, 1, d.tseg1), (22, 1, d.tseg2), (23, 1, d.sjw), (24, 1, b2n d.tdcEn), (25, 1, d.tdco)]
    else if part = 2 then
      let m := canCfg s i
      [(20, 1, m.op + 4 * b2n m.fd + 8 * m.nonmatch), (21, 1, m.clashN), (22, 2, m.filterBase), (24, 2, m.filterLen),
        (26, 1, b2n m.busoffMode), (28, 2, m.txTimeout)]
    else
      let g := streamCfg s i
      [(20, 1, b2n g.enable + 2 * b2n g.tx), (21, 1, g.keySlot), (24, 4, g.peerFixed), (28, 2, g.window)])

/-- A controller takes a change of its timing or mode records (R235): one on the bus keeps the old ones until the bus is idle, any other integrates with
the new ones at once. -/
def reconfigure (s : State) (c : Nat) (change : CanStore → CanStore) : State :=
  let old := (canMode s c, canData s c)
  let s := s.onStore fun st => { st with can := change st.can }
  if (canOf s c).state = 1 ∨ (canOf s c).state = 2 then s.onCan c fun x => { x with old := some old } else reintegrate s c

/-- A MODE record takes effect (R235, R248): a change from NORMAL to OFF or LISTEN removes every waiting frame, and the one that may be on the bus at its
end. -/
def applyMode (s : State) (c : Nat) (m : CanMode) (restart : Bool) : State :=
  let stops := (canMode s c).op == 1 && (m.op == 0 || m.op == 2)
  let s := reconfigure s c fun x => { x with mode := vmod x.mode c fun _ => m }
  let s := if stops then
      ((canOf s c).frames.filter fun f => some f.handle != (canOf s c).current).foldl (fun s f => frameLeaves s c f .cancelled false) s
    else s
  if restart ∧ (canOf s c).state = 3 then s.onCan c fun x => { x with recovering := true } else s

/-- Whether the stores of CAN agree (R89, R234, R236). -/
def canAgrees (x : CanStore) : Bool := canTimingAgrees x && canStreamsAgree x

/-- CAN.CONFIG (Table 09.12). -/
def canConfigOp : Op where
  code := 0x0700
  layout := fun p => ccLayout (ccPart p)
  bad := fun p _ => !p.bit 16 5 && ccBad p
  deny := fun p s => !p.bit 16 5 && ccPart p == 3 &&
    (!mayKey s p.comp (ccStream p).keySlot || !(keySlot s (ccStream p).keySlot).has 2)
  agree := fun p _ s => p.bit 16 5 || canAgrees s.store.can
  run := fun p s =>
    let i := ccIndex p
    let s :=
      if p.bit 16 5 then s
      else if ccPart p = 0 then
        reconfigure s i fun x => { x with nominal := vmod x.nominal i fun _ => ccNominal p }
      else if ccPart p = 1 then
        reconfigure s i fun x => { x with data := vmod x.data i fun _ => ccData p }
      else if ccPart p = 2 then applyMode s i (ccMode p) (p.bit 16 6)
      else
        let s := s.onStore fun st => { st with can := { st.can with stream := vmod st.can.stream i fun _ => ccStream p } }
        if (ccStream p).enable then setDomain (enableStream s i) 5 true else noteIdle (s.onStream i fun y => { fr := y.fr })
    { s := s, reply := ccReply s (ccPart p) i }

/-- CAN.CONFIG. -/
def execCanConfig (p : Packet) (s : State) : Answer := effect s (keeperTake canConfigOp p s)

/-- FIRST of CAN.FILTER and CAN.SIGMAP. -/
def firstOfPacket (p : Packet) : Nat := p.num 18 2

/-- COUNT of CAN.FILTER and CAN.SIGMAP. -/
def countOfPacket (p : Packet) : Nat := p.num 20 2

/-- Filter element at byte `b` of a packet (Table 09.4). -/
def elemAt (p : Packet) (b : Nat) : FilterElem :=
  { type := p.fld b 0 2, ide := p.bit b 2, notify := p.bit b 3, secure := p.bit b 4, action := p.fld (b + 1) 0 3
    buffer := p.fld (b + 2) 0 6, stream := p.fld (b + 3) 0 3, id1 := p.fld (b + 4) 0 29, id2 := p.fld (b + 8) 0 29
    sigFirst := p.num (b + 12) 2, sigCount := p.num (b + 14) 1 }

/-- An element breaks Table 09.4. -/
def FilterElem.bad (e : FilterElem) : Bool :=
  4 < e.action || (e.action != 3 && e.buffer != 0) || (!e.secure && e.stream != 0) || 65536 < e.sigFirst + e.sigCount ||
    (!e.ide && (2047 < e.id1 || 2047 < e.id2))

/-- An element as it is returned. -/
def FilterElem.reply (e : FilterElem) (b : Nat) : Reply :=
  [(b, 1, e.type + 4 * b2n e.ide + 8 * b2n e.notify + 16 * b2n e.secure), (b + 1, 1, e.action), (b + 2, 1, e.buffer),
    (b + 3, 1, e.stream), (b + 4, 4, e.id1), (b + 8, 4, e.id2), (b + 12, 2, e.sigFirst), (b + 14, 1, e.sigCount)]

/-- The field layout of a filter element. -/
def elemLayout : Layout :=
  [(0, 0, 5), (1, 0, 3), (2, 0, 6), (3, 0, 3), (4, 0, 29), (8, 0, 29), (12, 0, 16), (14, 0, 8)]

/-- CAN.FILTER. -/
def canFilterOp : Op where
  code := 0x0701
  slotsOk := fun p => 1 ≤ p.slotsField && p.slotsField ≤ 16
  layout := fun p => [(16, 0, 1), (18, 0, 16), (20, 0, 16)] ++ entryLayout 32 16 (min 62 (countOfPacket p)) elemLayout
  bad := fun p _ =>
    let n := countOfPacket p
    n < 1 || 64 * p.slots - 32 < 16 * n || 2048 < firstOfPacket p + n ||
      (!p.bit 16 0 && (List.range n).any fun i => (elemAt p (32 + 16 * i)).bad)
  agree := fun p _ s => p.bit 16 0 || canStreamsAgree s.store.can
  run := fun p s =>
    let l := List.range (countOfPacket p)
    let k := firstOfPacket p
    let s := if p.bit 16 0 then s
      else s.onStore fun st => { st with can := { st.can with
        filter := l.foldl (fun t i => Tbl.put t {} (k + i) (elemAt p (32 + 16 * i))) st.can.filter } }
    { s := s, reply := (16, 1, p.num 16 1) :: (18, 2, k) :: (20, 2, countOfPacket p) ::
        l.flatMap fun i => (filterAt s (k + i)).reply (32 + 16 * i) }

/-- CAN.FILTER. -/
def execCanFilter (p : Packet) (s : State) : Answer := effect s (keeperTake canFilterOp p s)

/-- An identifier fits its format. -/
def idFits (ide : Bool) (id : Nat) : Bool := ide || id < 2048

/-- A CAN frame can be sent by its controller (CAN.SEND, S_CONFLICT). -/
def sendable (s : State) (q : SendReq) : Bool :=
  let m := canCfg s q.c
  m.sends && (m.fd || (!q.frame.fdf && !q.frame.brs)) &&
    (if q.secure then q.frame.fdf && 12 ≤ q.frame.len + 12 && canLenOk true (q.frame.len + 12) && streamIs s.store.can q.stream true
     else canLenOk q.frame.fdf q.frame.len)

/-- The reply slots of a CAN.SEND: one for LEN up to 32. -/
def sendSlots (p : Packet) : Nat := if p.fld 18 0 7 ≤ 32 then 1 else 2

/-- CAN.SEND (Table 09.13). -/
def canSendOp : Op where
  code := 0x0702
  fast := true
  slotsOk := fun p => p.slotsField == sendSlots p
  layout := fun p =>
    if p.bit 16 3 then [(16, 3, 2), (17, 0, 8)]
    else [(16, 0, 7), (17, 0, 8), (18, 0, 7), (19, 0, 8), (20, 0, 29), (32, 0, 8 * p.fld 18 0 7)]
  bad := fun p _ => p.fld 16 5 2 == 3 || 64 < p.fld 18 0 7 || (p.bit 19 3 && p.bit 19 0) ||
    (!p.bit 16 3 && !idFits (p.bit 19 2) (p.fld 20 0 29))
  deny := fun p s => p.bit 16 3 &&
    ((tplOf s (p.num 17 1)).unusable ||
      (match templateOwner s (p.num 17 1) with | some o => o != p.comp && o != 0 | none => false))
  run := fun p s =>
    let q := sendReq s p
    if (p.bit 16 3 ∧ (!(tplOf s (p.num 17 1)).used ∨ 8 ≤ (tplOf s (p.num 17 1)).controller)) ∨ !sendable s q then
      { s := s, st := some .conflict }
    else { s := l4Put s p.hall p.order (.send p (ranLate p s)), st := none }

/-- CAN.SEND. -/
def execCanSend (p : Packet) (s : State) : Answer := effect s (fastTake canSendOp p s)

/-- CAN.CANCEL: S_PENDING at execution; the cancellation is applied in the next tick (R246). -/
def canCancelOp : Op where
  code := 0x0703
  fast := true
  layout := fun _ => [(16, 0, 4), (18, 0, 16), (20, 0, 30)]
  run := fun p s => { s := l4Put (writePending s p) p.hall p.order (.cancel p (ranLate p s)), st := none }

/-- CAN.CANCEL. -/
def execCanCancel (p : Packet) (s : State) : Answer := effect s (fastTake canCancelOp p s)

/-- CAN.STATUS of a CAN controller (Table 09.15). -/
def canStatusReply (s : State) (c : Nat) : Reply :=
  let x := canOf s c
  [(16, 1, x.state), (17, 1, sat8 x.txErr), (18, 1, sat8 x.recErr), (19, 1, x.tdcvMax), (20, 4, x.rxFrames), (24, 4, x.txFrames),
    (28, 4, x.errors), (32, 4, x.busoffs), (36, 4, x.clashes), (40, 4, x.authFail), (44, 4, x.sigShort), (48, 4, x.nonmatch),
    (52, 4, x.lastClash), (56, 1, x.fifo.length), (57, 1, b2n x.slot0.isSome + b2n x.slot1.isSome)]

/-- CAN.STATUS of a LIN controller (Table 09.15). -/
def linStatusReply (s : State) (c : Nat) : Reply :=
  let x := linAt s c
  let e := fun i => vget x.errs i
  [(16, 1, if (linCfg s c).role = 0 then 0 else if x.asleep then 2 else 1), (20, 4, x.rxFrames), (24, 4, x.txFrames),
    (28, 4, min 0xFFFFFFFF (e 0 + e 1 + e 2 + e 3 + e 4 + e 5)), (32, 4, e 0), (36, 4, e 1), (40, 4, e 2), (44, 4, e 3),
    (48, 4, e 4), (58, 1, x.table.getD 0), (60, 4, e 5)]

/-- CAN.STATUS (Table 09.15). -/
def canStatusOp : Op where
  code := 0x0704
  layout := fun _ => [(16, 0, 5)]
  bad := fun p _ => 13 < p.fld 16 0 4
  run := fun p s =>
    let n := p.fld 16 0 4
    let clear := p.bit 16 4
    if n < 8 then
      { s := if clear then s.onCan n fun x => { x with
            rxFrames := 0, txFrames := 0, errors := 0, busoffs := 0, clashes := 0, authFail := 0, sigShort := 0, nonmatch := 0 }
          else s
        reply := canStatusReply s n }
    else
      { s := if clear then s.onLin (n - 8) fun x => { x with rxFrames := 0, txFrames := 0, errs := Vector.replicate 6 0 } else s
        reply := linStatusReply s (n - 8) }

/-- CAN.STATUS. -/
def execCanStatus (p : Packet) (s : State) : Answer := effect s (keeperTake canStatusOp p s)

/-- Signal definition at byte `b` (Table 09.7). -/
def sigAt (p : Packet) (b : Nat) : SigDef :=
  { start := p.fld b 0 9, length := p.fld (b + 2) 0 5, big := p.bit (b + 2) 5, signed := p.bit (b + 2) 6, muxed := p.bit (b + 2) 7
    muxValue := p.num (b + 3) 1, muxDef := p.num (b + 4) 2, timeout := p.num (b + 6) 2 }

/-- A definition as it is returned. -/
def SigDef.reply (g : SigDef) (b : Nat) : Reply :=
  [(b, 2, g.start), (b + 2, 1, g.length + 32 * b2n g.big + 64 * b2n g.signed + 128 * b2n g.muxed), (b + 3, 1, g.muxValue),
    (b + 4, 2, g.muxDef), (b + 6, 2, g.timeout)]

/-- Field `j` of a template at byte 32 of a packet (Table 09.8). -/
def tplFieldAt (p : Packet) (j : Nat) : TplField :=
  let b := 40 + 6 * j
  { point := p.fld b 0 19, start := p.fld b 19 9, length := p.fld b 28 4 + 1, big := p.bit (b + 4) 0 }

/-- The template at byte 32 of a packet (Table 09.8). -/
def tplAt (p : Packet) : Template :=
  { used := p.bit 32 4, controller := p.fld 32 0 4, secure := p.bit 32 5, queue := p.fld 32 6 2, stream := p.fld 33 0 3
    fdf := p.bit 33 3, brs := p.bit 33 4, ide := p.bit 33 5, len := p.fld 34 0 7
    fields := (List.range (min 4 (p.fld 35 0 3))).map (tplFieldAt p), id := p.fld 36 0 29
    data := (p.bytes.drop 64).take 64, owner := p.comp }

/-- A template as it is returned. -/
def Template.reply (t : Template) : Reply :=
  [(32, 1, t.controller + 16 * b2n t.used + 32 * b2n t.secure + 64 * t.queue),
    (33, 1, t.stream + 8 * b2n t.fdf + 16 * b2n t.brs + 32 * b2n t.ide), (34, 1, t.len), (35, 1, t.fields.length), (36, 4, t.id),
    replyBytes 64 (padTo 64 t.data)] ++
  (List.range t.fields.length).flatMap fun j =>
    let f := t.fields.getD j {}
    [(40 + 6 * j, 4, f.point + 2 ^ 19 * f.start + 2 ^ 28 * (f.length - 1)), (44 + 6 * j, 1, b2n f.big)]

/-- A template's length suits its controller and its fields lie within it (CAN.SIGMAP, S_CONFLICT). -/
def Template.lenOk (t : Template) : Bool :=
  !t.used ||
    ((if 8 ≤ t.controller then 1 ≤ t.len && t.len ≤ 8
      else if t.secure then t.fdf && canLenOk true (t.len + 12)
      else canLenOk t.fdf t.len) &&
     t.fields.all fun f => fieldFits (List.replicate t.len 0) f.big f.start f.length)

/-- A template breaks a range of Table 09.8. -/
def Template.bad (t : Template) (fields : Nat) : Bool :=
  13 < t.controller || t.queue == 3 || 4 < fields || !(t.fields.all fun f => assigned f.point) ||
    (if 8 ≤ t.controller then 63 < t.id else !idFits t.ide t.id)

/-- MODE of CAN.SIGMAP names a template. -/
def smTemplate (p : Packet) : Bool := p.bit 16 1

/-- MODE of CAN.SIGMAP writes. -/
def smWrites (p : Packet) : Bool := !p.bit 16 0

/-- Multiplexed definitions name a selector other than themselves that is not multiplexed (Table 09.7). -/
def muxAgrees (x : CanStore) : Bool :=
  x.sig.all fun d => d.2.length == 0 || !d.2.muxed || (d.2.muxDef != d.1 && !(Tbl.get x.sig {} d.2.muxDef).muxed)

/-- The field layout of CAN.SIGMAP. -/
def smLayout (p : Packet) : Layout :=
  if smTemplate p then
    [(16, 0, 2), (17, 0, 8), (32, 0, 8), (33, 0, 6), (34, 0, 7), (35, 0, 3), (36, 0, 29), (64, 0, 512)] ++
      entryLayout 40 6 (min 4 (p.fld 35 0 3)) [(0, 0, 28), (0, 28, 4), (4, 0, 1)]
  else [(16, 0, 2), (18, 0, 16), (20, 0, 16)] ++
    entryLayout 32 8 (min 124 (countOfPacket p)) [(0, 0, 9), (2, 0, 8), (3, 0, 8), (4, 0, 16), (6, 0, 16)]

/-- CAN.SIGMAP. -/
def canSigmapOp : Op where
  code := 0x0705
  slotsOk := fun p => if smTemplate p then p.slotsField == 2 else 1 ≤ p.slotsField && p.slotsField ≤ 16
  layout := smLayout
  bad := fun p _ =>
    if smTemplate p then smWrites p && (tplAt p).bad (p.fld 35 0 3)
    else
      let n := countOfPacket p
      n < 1 || 64 * p.slots - 32 < 8 * n || 65536 < firstOfPacket p + n ||
        (smWrites p && (List.range n).any fun i => 16 < (sigAt p (32 + 8 * i)).length)
  deny := fun p s =>
    if smTemplate p then
      (match templateOwner s (p.num 17 1) with | some o => p.comp != 0 && o != p.comp | none => false) ||
        (smWrites p && (tplAt p).fields.any fun f => !mayRead s p.comp (gallery f.point))
    else (List.range (countOfPacket p)).any fun i => !mayRead s p.comp (gallery (sigPoint (firstOfPacket p + i)))
  agree := fun p _ s => !smWrites p || (muxAgrees s.store.can && canStreamsAgree s.store.can && (!smTemplate p || (tplOf s (p.num 17 1)).lenOk))
  run := fun p s =>
    let head := [(16, 1, p.fld 16 0 2), (17, 1, p.num 17 1)]
    if smTemplate p then
      let i := p.num 17 1
      let s := if smWrites p then
          s.onStore fun st => { st with can := { st.can with
            tpl := Tbl.put st.can.tpl {} i (if (tplAt p).used then tplAt p else {}) } }
        else s
      { s := s, reply := head ++ (tplOf s i).reply }
    else
      let l := List.range (countOfPacket p)
      let k := firstOfPacket p
      let s := if smWrites p then
          s.onStore fun st => { st with can := { st.can with
            sig := l.foldl (fun t i => Tbl.put t {} (k + i) (sigAt p (32 + 8 * i))) st.can.sig } }
        else s
      { s := s, reply := head ++ [(18, 2, k), (20, 2, countOfPacket p)] ++ l.flatMap fun i => (sigOf s (k + i)).reply (32 + 8 * i) }

/-- CAN.SIGMAP. -/
def execCanSigmap (p : Packet) (s : State) : Answer := effect s (keeperTake canSigmapOp p s)

end Sys2Proof.Machine
end

