-- ==== Sys2Proof/Machine/Lin.lean ====
section
/-! DEFINITION. The LIN controllers (chapter 09): responses, headers, schedules, errors, and the opcodes 0x0710–0x0712. -/

namespace Sys2Proof.Machine

/-- The controller takes part in its bus. -/
def linAwake (s : State) (c : Nat) : Bool :=
  (linCfg s c).role != 0 && !(linAt s c).asleep && (netOf s (8 + c)).xcvr < 2

/-- The bits of a LIN frame with a response of `n` bytes: header, data and checksum without gaps. -/
def linBits (n : Nat) : Nat := 34 + 10 * (n + 1)

/-- The bus of a LIN controller has been active (R294). -/
def linActive (s : State) (c : Nat) : State := s.onLin c fun x => { x with lastBus := s.now }

/-- The go-to-sleep frame (R294). -/
def isGoToSleep (id : Nat) (data : List Byte) : Bool := id == 60 && data == 0x00 :: List.replicate 7 0xFF

/-- How many ticks `bits` bits take at a bit rate. -/
def bitTicks (bits rate : Nat) : Nat := bits * 8000000 / max 1 rate

/-- The settings of a LIN controller for what ends now and has been on the bus for at least `bits` bits: those before the last LIN.CONFIG where it began
before that (LIN.CONFIG). -/
def linCfgFor (s : State) (c bits : Nat) : LinCfg :=
  match (linAt s c).old with
  | some (g, at_) => if s.now < at_ + bitTicks bits g.bitrate then g else linCfg s c
  | none => linCfg s c

/-- A subscribed response is stored in the entry of its identifier, and its signals are extracted (R232, R254). -/
def linDeliver (s : State) (c id : Nat) (data : List Byte) : State :=
  let e := Tbl.get (linCfgFor s c (linBits data.length)).entries {} id
  let f : CanFrame := { id := id, len := data.length, data := data }
  let k := (Tbl.get (linAt s c).ram {} id).seq / 2 + 1
  let entry : RxEntry :=
    { seq := 2 * k % 2 ^ 32, word := id, stamp := s.wallStamp.word, len := data.length, element := 0xFFFF, data := data }
  let s := (meterAdd (bump s 0x0B (8 + c) 1) (16 + c) (linBits data.length) 0).onLin c fun x => { x with rxFrames := satAdd32 x.rxFrames 1, ram := Tbl.put x.ram {} id entry }
  let sigs := (extract s e.sigFirst e.sigCount data).1
  let rx := if e.notify then [s.ev 6 0x0710 (c + 8 * id) (k % 65536)] else []
  observe s 6 (8 + c) (sigs.map fun w => (sigPoint w.1, w.2)) rx [frameCap (c + 8) f]

/-- A response is received whole with a valid checksum (R254); a responder in follow mode obeys a go-to-sleep frame (R294). -/
def linAccept (s : State) (c id : Nat) (data : List Byte) : State :=
  if !linAwake s c then s
  else
    let s := nmAnyFrame (linActive s c) (8 + c)
    let g := linCfgFor s c (linBits data.length)
    let e := Tbl.get g.entries {} id
    let s := if e.dir = 2 ∧ e.len = data.length then linDeliver s c id data else s
    if isGoToSleep id data ∧ g.role = 2 ∧ (netCfg s (8 + c)).mode = 3 ∧ !latchedBefore s then linCommit s (8 + c) else s

/-- A LIN frame is accepted (R254). -/
def execLinFrameAccept (c id : Nat) (data : List Byte) (s : State) : Answer :=
  effect s (if cutOff s then s else linAccept s c id data)

/-- The identifier whose buffer answers a header (R256): its own, or that of its associated frame. -/
def linSource (e : LinEntry) (id : Nat) : Nat := if e.eventOf = 1 then e.assoc else id

/-- The confirmed sends of an identifier complete (LIN.SEND). -/
def linConfirm (s : State) (c id : Nat) : State :=
  let done := (linAt s c).waits.filter fun w => w.id == id
  let s := s.onLin c fun x => { x with waits := x.waits.filter fun w => !(w.id == id) }
  done.foldl (fun s w => completeNow s w.packet (lateStatus w.late .ok) []) s

/-- The response of a publish buffer has been sent without error (R256). -/
def linSent (s : State) (c id src : Nat) : State :=
  let s := (meterAdd (bump s 0x0B (24 + c) 1) (16 + c) 0 (linBits (linEntry s c id).len)).onLin c fun x => { x with
    txFrames := satAdd32 x.txFrames 1, sporadic := x.sporadic.filter fun i => !(i == id)
    pub := Tbl.put x.pub {} src { Tbl.get x.pub {} src with event := false } }
  linConfirm s c src

/-- A header of identifier `id` is on the bus and the controller answers it (R256). -/
def linPublish (s : State) (c id : Nat) : State :=
  let g := linCfgFor s c 34
  let e := Tbl.get g.entries {} id
  let x := linAt s c
  let src := linSource e id
  let b := Tbl.get x.pub {} src
  let commander := g.role == 1
  if !linAwake s c ∨ (netOf s (8 + c)).xcvr ≠ 0 ∨ (commander ∧ x.header ≠ some id) then s
  else if commander ∧ id = 60 ∧ x.master.isSome then
    let s := linActive (s.onLin c fun x => { x with master := none, txFrames := satAdd32 x.txFrames 1 }) c
    linConfirm s c 60
  else if (e.dir = 1 ∨ e.eventOf = 1) ∧ b.written ∧ (e.eventOf = 1 → b.event) then linSent (linActive s c) c id src
  else linActive s c

/-- A controller answers a header (R256). -/
def execLinHeaderPublish (c id : Nat) (s : State) : Answer := effect s (linPublish s c id)

/-- The slots of schedule table `t`. -/
def linTable (s : State) (c t : Nat) : List LinSlot := vget (linCfg s c).tables t

/-- The next tick of the 1 ms grid (R255). -/
def nextMs (now : Nat) : Nat := (now / 8000 + 1) * 8000

/-- A table takes over at the end of the slot in progress (R255). -/
def takePending (x : Lin) : Lin :=
  match x.pendingTable with
  | some t => { x with table := t, ix := 0, resume := none, pendingTable := none, header := none, resolve := none }
  | none => x

/-- At the end of a resolution table the interrupted one resumes at its next slot; at the end of any other the table starts
again (R255). -/
def wrapTable (s : State) (c : Nat) (x : Lin) : Lin :=
  match x.table with
  | none => x
  | some t =>
    if x.ix < (linTable s c t).length then x
    else match x.resume with
      | some (t0, i) => { x with table := some t0, ix := if i < (linTable s c t0).length then i else 0, resume := none }
      | none => { x with ix := 0 }

/-- The header of a slot is sent as its type allows (R255). -/
def slotSends (x : Lin) (g : LinSlot) : Bool :=
  if g.type = 2 then x.sporadic.contains g.id
  else if g.type = 3 ∧ g.id = 60 then x.master.isSome
  else true

/-- A commander may run its schedule: its transceiver is in Normal, and in follow mode FOLLOW is in NORMAL or READY (R288, R294). -/
def linRuns (s : State) (c : Nat) : Bool :=
  let g := netCfg s (8 + c)
  linAwake s c && (netOf s (8 + c)).xcvr == 0 &&
    (g.mode != 3 || (netOf s g.follow).state == 2 || (netOf s g.follow).state == 3)

/-- A schedule slot starts (R255): SLOT_MS after the one before, or on the 1 ms grid where the controller has slept in between. -/
def linSlot (s : State) (c : Nat) : State :=
  if !linRuns s c ∨ (linCfg s c).role ≠ 1 ∨ s.now < (linAt s c).slotAt then s
  else
    let x := wrapTable s c (takePending (linAt s c))
    match x.table with
    | none => s.onLin c fun _ => { x with header := none, resolve := none }
    | some t =>
      match (linTable s c t)[x.ix]? with
      | none => s.onLin c fun _ => { x with header := none, resolve := none }
      | some g =>
        let sends := slotSends x g
        let start := if s.now < x.slotAt + 8000 then x.slotAt else s.now / 8000 * 8000
        s.onLin c fun _ => { x with
          ix := x.ix + 1, slotAt := start + msTicks g.ms, header := if sends then some g.id else none
          resolve := if g.type = 1 then some g.resolve else none, lastBus := if sends then s.now else x.lastBus }

/-- A commander's schedule slot starts (R255). -/
def execLinScheduleSlot (c : Nat) (s : State) : Answer := effect s (linSlot s c)

/-- A corrupted response in an event-triggered slot runs the resolution table once from its first slot (R255). -/
def runResolution (x : Lin) (id : Nat) : Lin :=
  match x.table, x.resolve with
  | some t, some r =>
    if x.header = some id ∧ x.resume.isNone then { x with table := some r, ix := 0, resume := some (t, x.ix), resolve := none } else x
  | _, _ => x

/-- A LIN error is counted and posted (R257). -/
def linError (s : State) (c id code : Nat) : State :=
  if !linAwake s c ∨ code = 0 ∨ 6 < code then s
  else
    let s := (bump s 0x0B (40 + c) 1).onLin c fun x =>
      let x := { x with errs := vmod x.errs (code - 1) fun n => satAdd32 n 1 }
      if code = 2 ∨ code = 3 ∨ code = 6 then runResolution x id else x
    busEvent s (8 + c) 0x0711 (c + 8 * id) code

/-- A LIN error (R257). -/
def execLinError (c id code : Nat) (s : State) : Answer := effect s (linError s c id code)

/-! Opcodes. -/

/-- LIN frame entry at byte `b` with its identifier (Table 09.10). -/
def linEntryAt (p : Packet) (b : Nat) : Nat × LinEntry :=
  (p.fld b 0 6,
   { dir := p.fld b 6 2, len := p.fld (b + 1) 0 4, enhanced := p.bit (b + 1) 4, notify := p.bit (b + 1) 5
     eventOf := p.fld (b + 1) 6 2, sigFirst := p.num (b + 2) 2, sigCount := p.num (b + 4) 1, assoc := p.fld (b + 5) 0 6 })

/-- A frame entry as it is returned. -/
def LinEntry.reply (e : LinEntry) (id b : Nat) : Reply :=
  [(b, 1, id + 64 * e.dir), (b + 1, 1, e.len + 16 * b2n e.enhanced + 32 * b2n e.notify + 64 * e.eventOf), (b + 2, 2, e.sigFirst),
    (b + 4, 1, e.sigCount), (b + 5, 1, e.assoc)]

/-- COUNT of LIN.CONFIG. -/
def lcCount (p : Packet) : Nat := p.num 22 1

/-- The entries of LIN.CONFIG. -/
def lcEntries (p : Packet) : List (Nat × LinEntry) :=
  (List.range (min 64 (lcCount p))).map fun i => linEntryAt p (24 + 8 * i)

/-- The settings of a LIN controller after a LIN.CONFIG; identifiers 60–63 use the classic checksum (R254). -/
def lcApply (g : LinCfg) (p : Packet) : LinCfg :=
  { g with
    role := p.fld 17 0 2, pullup := p.bit 17 2, bitrate := p.num 18 2, txTimeout := p.num 20 2
    entries := (lcEntries p).foldl (fun t e =>
      Tbl.put t {} e.1 (if 60 ≤ e.1 then { e.2 with enhanced := false } else e.2)) g.entries }

/-- No PULLUP on a responder, and every event-triggered entry names a published identifier. -/
def linAgrees (g : LinCfg) : Bool :=
  !(g.role == 2 && g.pullup) && g.entries.all fun e => e.2.eventOf != 1 || (Tbl.get g.entries {} e.2.assoc).dir == 1

/-- A LIN controller is configured anew after settings `g`, which stay in force for a frame in progress: nothing is published until it is written, and OFF
stops its table (R256). -/
def linReset (s : State) (c : Nat) (g : LinCfg) : State :=
  let off := (linCfg s c).role == 0
  let waits := if off then (linAt s c).waits else []
  let s := s.onLin c fun x => { x with
    pub := [], sporadic := [], lastBus := s.now, old := some (g, s.now)
    table := if off then none else x.table, master := if off then none else x.master, waits := if off then [] else x.waits
    header := if off then none else x.header }
  waits.foldl (fun s w => completeNow s w.packet (lateStatus w.late .cancelled) []) s

/-- LIN.CONFIG. -/
def linConfigOp : Op where
  code := 0x0710
  slotsOk := fun p => 1 ≤ p.slotsField && p.slotsField ≤ 9
  layout := fun p => [(16, 0, 4), (17, 0, 3), (18, 0, 16), (20, 0, 16), (22, 0, 8)] ++
    entryLayout 24 8 (min 64 (lcCount p)) [(0, 0, 8), (1, 0, 8), (2, 0, 16), (4, 0, 8), (5, 0, 6)]
  bad := fun p _ => 5 < p.fld 16 0 3 || 64 < lcCount p || 64 * p.slots < 24 + 8 * lcCount p ||
    (!p.bit 16 3 &&
      (p.fld 17 0 2 == 3 || p.num 18 2 < 1000 || 20000 < p.num 18 2 ||
        (lcEntries p).any fun e => e.2.dir == 3 || e.2.len < 1 || 8 < e.2.len || 1 < e.2.eventOf ||
          65536 < e.2.sigFirst + e.2.sigCount))
  agree := fun p _ s => p.bit 16 3 ||
    (decide ((lcEntries p).map (·.1)).Nodup && linAgrees (linCfg s (p.fld 16 0 3)))
  run := fun p s =>
    let c := p.fld 16 0 3
    let s := if p.bit 16 3 then s
      else linReset (s.onStore fun st => { st with can := { st.can with lin := vmod st.can.lin c fun g => lcApply g p } }) c (linCfg s c)
    let g := linCfg s c
    { s := s
      reply := [(16, 1, p.num 16 1), (17, 1, g.role + 4 * b2n g.pullup), (18, 2, g.bitrate), (20, 2, g.txTimeout),
          (22, 1, lcCount p)] ++
        (List.range (lcCount p)).flatMap fun i =>
          let id := (linEntryAt p (24 + 8 * i)).1
          (linEntry s c id).reply id (24 + 8 * i) }

/-- LIN.CONFIG. -/
def execLinConfig (p : Packet) (s : State) : Answer := effect s (keeperTake linConfigOp p s)

/-- Slot `i` of LIN.SCHEDULE. -/
def lsSlot (p : Packet) (i : Nat) : LinSlot :=
  let b := 24 + 4 * i
  { id := p.fld b 0 6, type := p.fld b 6 2, ms := p.num (b + 1) 1, resolve := p.fld (b + 2) 0 2 }

/-- The slots of a LIN.SCHEDULE load. -/
def lsSlots (p : Packet) : List LinSlot := (List.range (min 64 (p.num 18 1))).map (lsSlot p)

/-- LEN of a slot's frame; the diagnostic identifiers carry 8 bytes. -/
def slotLen (s : State) (c id : Nat) : Nat :=
  let n := (linEntry s c id).len
  if n = 0 ∧ (id = 60 ∨ id = 61) then 8 else n

/-- The maximum frame time in whole ms (R255). -/
def frameMs (len bitrate : Nat) : Nat := (14 * (34 + 10 * (len + 1)) * 1000 + 10 * bitrate - 1) / (10 * bitrate)

/-- A slot obeys R255 in table `t`. -/
def slotOk (s : State) (c t : Nat) (g : LinSlot) : Bool :=
  frameMs (slotLen s c g.id) (linCfg s c).bitrate ≤ g.ms && (g.type != 3 || g.id == 60 || g.id == 61) &&
    (g.type != 1 || g.resolve != t)

/-- A table change: at once where no table runs, otherwise at the end of the slot in progress (R255). -/
def changeTable (s : State) (c : Nat) (t : Option Nat) : State :=
  s.onLin c fun x =>
    if x.table.isNone then { x with table := t, ix := 0, slotAt := nextMs s.now, pendingTable := none } else { x with pendingTable := some t }

/-- LIN.SCHEDULE. -/
def linScheduleOp : Op where
  code := 0x0711
  slotsOk := fun p => 1 ≤ p.slotsField && p.slotsField ≤ 5
  layout := fun p => [(16, 0, 5), (17, 0, 2), (18, 0, 8)] ++
    (if p.fld 16 3 2 = 0 then entryLayout 24 4 (min 64 (p.num 18 1)) [(0, 0, 8), (1, 0, 8), (2, 0, 2)] else [])
  bad := fun p _ => 5 < p.fld 16 0 3 ||
    (p.fld 16 3 2 == 0 && (p.num 18 1 < 1 || 64 < p.num 18 1 || 64 * p.slots < 24 + 4 * p.num 18 1 ||
      (lsSlots p).any fun g => g.ms == 0))
  agree := fun p s _ =>
    let c := p.fld 16 0 3
    let t := p.fld 17 0 2
    let m := p.fld 16 3 2
    m == 3 || ((linCfg s c).role == 1 &&
      (if m = 0 then (lsSlots p).all (slotOk s c t) else m != 1 || (linTable s c t).all (slotOk s c t)))
  run := fun p s =>
    let c := p.fld 16 0 3
    let t := p.fld 17 0 2
    let m := p.fld 16 3 2
    if m = 0 ∧ ((linAt s c).table = some t ∨ (linAt s c).resume.map (·.1) = some t) then { s := s, st := some .busy }
    else
      let s :=
        if m = 0 then s.onStore fun st => { st with can := { st.can with
            lin := vmod st.can.lin c fun g => { g with tables := vmod g.tables t fun _ => lsSlots p } } }
        else if m = 1 then changeTable s c (some t)
        else if m = 2 then changeTable s c none
        else s
      let l := linTable s c t
      { s := s
        reply := [(16, 1, p.num 16 1), (17, 1, t), (18, 1, l.length)] ++
          (List.range l.length).flatMap fun i =>
            let g := l.getD i {}
            [(24 + 4 * i, 1, g.id + 64 * g.type), (25 + 4 * i, 1, g.ms), (26 + 4 * i, 1, g.resolve)] }

/-- LIN.SCHEDULE. -/
def execLinSchedule (p : Packet) (s : State) : Answer := effect s (keeperTake linScheduleOp p s)

/-- A LIN request can be sent (LIN.SEND, S_CONFLICT): its identifier is published with the entry's length, or it is a commander's
identifier 60. -/
def linSendable (s : State) (q : LinReq) : Bool :=
  let e := linEntry s q.c q.id
  if q.isMaster s then e.len == 0 || q.len == e.len else e.dir == 1 && q.len == e.len

/-- LIN.SEND. -/
def linSendOp : Op where
  code := 0x0712
  fast := true
  layout := fun p =>
    if p.bit 16 3 then [(16, 3, 3), (17, 0, 8)]
    else [(16, 0, 6), (17, 0, 8), (18, 0, 6), (19, 0, 8), (24, 0, 8 * min 8 (p.num 19 1))]
  bad := fun p _ => !p.bit 16 3 && (5 < p.fld 16 0 3 || p.num 19 1 < 1 || 8 < p.num 19 1)
  deny := fun p s => p.bit 16 3 && ((tplOf s (p.num 17 1)).unusable ||
    (match templateOwner s (p.num 17 1) with | some o => o != p.comp && o != 0 | none => false))
  run := fun p s =>
    let t := tplOf s (p.num 17 1)
    if (p.bit 16 3 ∧ (!t.used ∨ t.controller < 8)) ∨ !linSendable s (linSendReq s p) then { s := s, st := some .conflict }
    else { s := l4Put s p.hall p.order (.linSend p (ranLate p s)), st := none }

/-- LIN.SEND. -/
def execLinSend (p : Packet) (s : State) : Answer := effect s (fastTake linSendOp p s)

/-! The window of message RAM (R238). -/

/-- The 96 bytes of a receive entry (Table 09.6). -/
def RxEntry.bytes (e : RxEntry) : List Byte :=
  leBytes 4 e.seq ++ leBytes 4 e.word ++ leBytes 8 e.stamp ++ leBytes 1 e.len ++
    leBytes 1 (b2n e.esi + 2 * b2n e.secure + 4 * b2n e.authOk) ++ leBytes 2 e.element ++ leBytes 12 0 ++ padTo 64 e.data

/-- The address of the message RAM of controller 0 (R238). -/
def messageBase : Nat := 0x42000000

/-- The byte of message RAM at an offset of a controller's window (Table 09.5): receive entries, and of a CAN controller the counts of its FIFOs. -/
def messageByte (s : State) (k off : Nat) : Byte :=
  let entry := fun (t : Tbl RxEntry) => (Tbl.get t {} (off / 96)).bytes.getD (off % 96) 0
  if k < 8 then
    if off < 0x4800 then entry (canOf s k).ram
    else if off < 0x4804 then (leBytes 4 (canOf s k).wseq0).getD (off - 0x4800) 0
    else if off < 0x4808 then (leBytes 4 (canOf s k).wseq1).getD (off - 0x4804) 0
    else 0
  else if k < 14 ∧ off < 0x1800 then entry (linAt s (k - 8)).ram
  else 0

/-- The byte that a compartment reads at an address of the message RAM windows (R238): the keeper, and C1–C13 with group 0x07; any other reads 0. A write
is ignored. -/
def messageRead (s : State) (c a : Nat) : Byte :=
  if messageBase ≤ a ∧ (c = 0 ∨ (c < 14 ∧ grantsGroup s c 7)) then
    messageByte s ((a - messageBase) / 0x10000) ((a - messageBase) % 0x10000)
  else 0

end Sys2Proof.Machine
end

