-- ==== Sys2Proof/Machine/MotorOps.lean ====
section
/-! DEFINITION. The shared operations of half-bridges and motors (chapter 06): commands, drive transitions, brakes, groups,
the end of a run, and faults. -/

namespace Sys2Proof.Machine

/-- Change the motors and valves on the power die. -/
def State.onMotor (s : State) (f : MotorDie → MotorDie) : State := { s with motor := f s.motor }

/-- Half-bridge `m` on the power die. -/
def hbOf (s : State) (m : Nat) : Hb := vget s.motor.hb m

/-- Change half-bridge `m`. -/
def State.onHb (s : State) (m : Nat) (f : Hb → Hb) : State := s.onMotor fun d => { d with hb := vmod d.hb m f }

/-- The definition of motor `m`. -/
def motorCfg (s : State) (m : Nat) : MotorCfg := vget s.store.motor.motor m

/-- The half-bridges of motor `m`'s A terminal. -/
def MotorCfg.aSide (g : MotorCfg) (m : Nat) : List Nat := if g.pairedA then [m, m + 1] else [m]

/-- The half-bridges of a B terminal; none for PGND. -/
def MotorCfg.bSide (g : MotorCfg) : List Nat :=
  if g.b = 15 then [] else if g.pairedB then [g.b, g.b + 1] else [g.b]

/-- The point of half-bridge `k` is ignored: it is the B terminal or the upper half of a pair of a motor (R151). -/
def pointIgnored (s : State) (k : Nat) : Bool :=
  (List.range 12).any fun m =>
    let g := motorCfg s m
    g.defined && (g.bSide.contains k || (g.pairedA && k == m + 1))

/-- The motors that a half-bridge serves. -/
def motorsOn (s : State) (k : Nat) : List Nat :=
  (List.range 12).filter fun m =>
    let g := motorCfg s m
    g.defined && ((g.aSide m).contains k || g.bSide.contains k)

/-- The half-bridges of motor `m`; of a half-bridge in no motor, it alone. -/
def motorSides (s : State) (m : Nat) : List Nat :=
  let g := motorCfg s m
  if g.defined then g.aSide m ++ g.bSide else [m]

/-- No half-bridge of motor `m` is held or locked (R126, R154). -/
def motorFree (s : State) (m : Nat) : Bool := (motorSides s m).all fun k => (hbOf s k).cond.free

/-- The half-bridge is one of a pair (R149). -/
def paired (s : State) (k : Nat) : Bool :=
  (motorsOn s k).any fun m =>
    let g := motorCfg s m
    (g.pairedA && (g.aSide m).contains k) || (g.pairedB && g.bSide.contains k)

/-- The cycle-by-cycle current limit of a terminal in mA (Table 06.1, typical). -/
def hbLimit (s : State) (k : Nat) : Nat := if paired s k then 40000 else 20000

/-- The hard-short threshold of a terminal in mA (Table 06.1, typical). -/
def hbShortMa (s : State) (k : Nat) : Nat := if paired s k then 100000 else 50000

/-- The state a point value asks for (Table 06.2): of a motor, or of a half-bridge in no motor, whose high-side drive is
`forward` and whose low-side is `brake`. A motor on PGND runs forward only: reverse acts as coast (DESIGN CHOICE, log entry 126). -/
def driveOf (g : MotorCfg) (v : PVal) : Drive :=
  let n := v.toNat
  if bitsOf n 12 2 ≠ 0 then .coast
  else
    match bitsOf n 14 2 with
    | 1 => .forward
    | 2 => if g.defined then (if g.b = 15 then .coast else .reverse) else .brake
    | 3 => if g.defined then .brake else .coast
    | _ => .coast

/-- The duty of a point value (Table 06.2). -/
def dutyOf (v : PVal) : Nat := v.toNat % 4096

/-- A drive direction. -/
def Drive.drives : Drive → Bool
  | .forward => true
  | .reverse => true
  | _ => false

/-- A motor drives or brakes (R152). -/
def Hb.busy (x : Hb) : Bool := x.drive.drives || x.drive == .brake

/-- A motor runs: it drives, or it brakes on its way to another state. -/
def Hb.running (x : Hb) : Bool := x.drive.drives || (x.drive == .brake && x.next.isSome) || x.pinch != 0 || x.run.isSome

/-! Switches (R149, R151). -/

/-- The switch of the A terminal that a state uses: the high-side, the low-side or none (Table 06.2). -/
def Drive.sideA : Drive → Option Bool
  | .forward => some true
  | .reverse => some false
  | .brake => some false
  | .coast => none

/-- The switch of the B terminal that a state uses. -/
def Drive.sideB : Drive → Option Bool
  | .forward => some false
  | .reverse => some true
  | .brake => some false
  | .coast => none

/-- The dead time of a terminal in ticks (Table 06.1). -/
def deadTicks (g : MotorCfg) : Nat := 2 * 2 ^ (g.deadtime % 4)

/-- The on-time of a drive period of 400 ticks (R151). -/
def driveOnTicks (d : Nat) : Nat := 400 * d / 4095

/-- A terminal goes from one use of its switches to another (R149): where it takes the switch that was not the last one used, the dead time counts from
the end of that use. -/
def Hb.turn (x : Hb) (now ticks : Nat) (old new : Option Bool) : Hb :=
  if old = new then x
  else
    let x := if old.isSome then { x with leg := old, legOff := now } else x
    if new.isSome ∧ x.leg = new.map (!·) then { x with dead := max x.dead (x.legOff + ticks) } else x

/-- A half-bridge or motor takes a state, with dead time at every change of side of its terminals, the shared B terminal included (R149); without a drive
its window and its stall conditions end. -/
def setDrive (s : State) (m : Nat) (d : Drive) : State :=
  let g := motorCfg s m
  let old := (hbOf s m).drive
  let ticks := deadTicks g
  let s := if g.defined ∧ g.b ≠ 15 then s.onHb g.b fun x => x.turn s.now ticks old.sideB d.sideB else s
  s.onHb m fun x =>
    let y := { x.turn s.now ticks old.sideA d.sideA with drive := d }
    if d.drives then y
    else { y with window := none, stall := none, limiting := false, limitTicks := 0, endLimiting := false }

/-- The drive PWM of a motor is in its on-phase (R151). -/
def Hb.pwmOn (x : Hb) (now : Nat) : Bool := x.duty == 4095 || now < x.onUntil

/-- The switch that conducts on a terminal in the present tick, given the one its state uses and the end of its dead time (R149, R151). -/
def Hb.switch (x : Hb) (now : Nat) (side : Option Bool) (dead : Nat) : Option Bool :=
  if now < dead then none
  else match side with
    | some true => if x.pwmOn now then some true else none
    | o => o

/-- What conducts on the A and the B terminal of a motor in the present tick: `true` the high-side, `false` the low-side. -/
def motorSwitches (s : State) (m : Nat) : Option Bool × Option Bool :=
  let x := hbOf s m
  (x.switch s.now x.drive.sideA x.dead, x.switch s.now x.drive.sideB (hbOf s (motorCfg s m).b).dead)

/-- Another motor of the group of `m` drives or brakes (R152); motors on PGND form no group. -/
def groupBusy (s : State) (m : Nat) : Bool :=
  let g := motorCfg s m
  g.b != 15 && (List.range 12).any fun k =>
    k != m && (motorCfg s k).defined && (motorCfg s k).b == g.b && (hbOf s k).busy

/-- The position point of motor `m`. -/
def positionPoint (m : Nat) : Nat := pointAt 81 (300 + m)

/-- Post a motor event through L0. -/
def motorEvent (s : State) (kind m value : Nat) : State :=
  observe s 7 (300 + m) [] [s.ev 7 kind (positionPoint m) value true]

/-- Write the position of motor `m` to its point, stamped now (R158). -/
def writePosition (s : State) (m : Nat) : State :=
  let v := (hbOf s m).pos
  observe s 7 (300 + m) [(positionPoint m, v)] [] [pointCap 7 (positionPoint m) v]

/-- The drive of motor `m` starts in a direction with a duty (R152): a new inrush window, and fresh ripple references. Its PWM periods count from here
(DESIGN CHOICE, log entry 127). -/
def startDrive (s : State) (m : Nat) (d : Drive) (duty : Nat) : State :=
  let g := motorCfg s m
  let w := startWindow s 3 g.inrushMs
  let s := (setDrive s m d).onHb m fun x => { x with
    duty := duty, dirRev := d == .reverse, queued := false, window := if g.defined then some w else none, stall := none
    limiting := false, limitTicks := 0, endLimiting := false, periodAt := s.now, onUntil := s.now + driveOnTicks duty
    driveFrom := s.now, driveNo := x.driveNo + 1, lastCount := none, lastRipple := none, periods := [], currents := [], slow := 0, ripples := 0, inserts := 0 }
  if g.defined then noteFreeze s 3 else s

/-- A motor takes the state of a value once no brake stands before it. A drive or brake waits for its group (R152); a terminal that is held, locked or
off until its point changes takes none, nor does one that waits for a drive value (R153, R154, R156). -/
def enterState (s : State) (m : Nat) (v : PVal) : State :=
  let g := motorCfg s m
  let d := driveOf g v
  let s := s.onHb m fun x => { x with next := none, queued := false }
  if d = .coast then setDrive s m .coast
  else if !motorFree s m ∨ (hbOf s m).inhibit ∨ (hbOf s m).waitsDrive then setDrive s m .coast
  else if g.defined ∧ groupBusy s m then (setDrive s m .coast).onHb m fun x => { x with queued := true }
  else if d.drives then startDrive s m d (dutyOf v)
  else setDrive s m d

/-- Brake a motor for BRAKE_MS and go on with a value then (R152). -/
def brakeThen (s : State) (m : Nat) (v : PVal) : State :=
  (setDrive s m .brake).onHb m fun x => { x with next := some v, brakeEnds := s.now + (motorCfg s m).brakeMs * 8000 }

/-- The status of a run's end cause (Table 06.5). -/
def endStatus (cause : Nat) : Status :=
  match cause with
  | 0 => .ok
  | 1 => .ok
  | 2 => .timeout
  | 3 => .timeout
  | 4 => .cancelled
  | 5 => .cancelled
  | 6 => .supply
  | 7 => .locked
  | _ => .thermal

/-- The reply of MOTOR.RUN (Table 06.12). -/
def runReply (x : Hb) (r : MotorRun) (cause : Nat) : Reply :=
  [(16, 1, cause), (17, 1, b2n x.posValid), (18, 2, r.startPos.toNat), (20, 2, x.pos.toNat), (22, 2, sat16 (r.peakMa / 10)),
    (24, 4, min r.driveTicks 0xFFFFFFFF), (28, 2, sat16 r.inserted)]

/-- The logic die is down: its replies are lost, and a run's end is told after adoption (R157). -/
def logicDown (s : State) : Bool := s.seq.inReset || s.seq.starting

/-- A run completes with its end cause (Table 06.5): MOTOR_END, and the reply. -/
def completeRun (s : State) (m cause : Nat) : State :=
  let x := hbOf s m
  match x.run with
  | none => s
  | some r =>
    let s := s.onHb m fun x => { x with run := none }
    if logicDown s then s.onMotor fun d => { d with endEvents := d.endEvents ++ [(m, cause)] }
    else
      let s := motorEvent s 0x0301 m cause
      if cause = 9 ∨ r.lost then s else completeNow s r.packet (lateStatus r.late (endStatus cause)) (runReply x r cause)

/-- Add the drive ticks of a run up to now. -/
def countDrive (s : State) (m : Nat) : State :=
  s.onHb m fun x => { x with
    run := x.run.map fun r => if x.drive.drives then { r with driveTicks := r.driveTicks + (s.now - x.driveFrom) } else r
    driveFrom := s.now }

/-- Write a motor's point to 0 as a direct write of the run's packet (R155). -/
def zeroMotorPoint (s : State) (m : Nat) : State :=
  match (hbOf s m).run with
  | some r => if logicDown s then s else (directWrite s r.packet (pointAt 80 (100 + m)) 0).1
  | none => s

/-- A run ends by its end condition (R155): the drive stops, the point is written 0, the motor brakes, and the run completes
when the brake ends. A run whose motor waits for its group has no drive to brake, and it completes at once (R152; DESIGN CHOICE, log entry 174). -/
def stopRun (s : State) (m cause : Nat) : State :=
  let s := zeroMotorPoint (countDrive s m) m
  if groupBusy s m then completeRun (s.onHb m fun x => { x with cmd := 0, pinch := 0, queued := false, next := none }) m cause
  else
    let s := s.onHb m fun x => { x with cmd := 0, pinch := 0, run := x.run.map fun r => { r with ended := some cause } }
    brakeThen s m 0

/-- A run ends at once, without an end brake: another writer took the motor, or its terminal is off (R155, Table 06.3). A run that is in its end brake
keeps its end cause. -/
def cutRun (s : State) (m cause : Nat) : State :=
  let s := countDrive s m
  let ended := ((hbOf s m).run.map fun r => r.ended).join
  let s := if cause = 5 ∨ ended.isSome then s else zeroMotorPoint s m
  completeRun s m (ended.getD cause)

/-- A command of tick `lin` for a motor's point ends its run where it is of another writer (R155): any but those of the ticks before the run's and the
first that carries the run's own value. -/
def commandRun (s : State) (m : Nat) (v : PVal) (lin : Nat) : State :=
  match (hbOf s m).run with
  | some r =>
    if r.ended.isSome ∨ lin < r.lin then s
    else if !r.seen ∧ v = r.value then s.onHb m fun x => { x with run := some { r with seen := true } }
    else cutRun s m 5
  | none => s

/-- The L2 frame carries a value for half-bridge `m` in its commands of tick `lin` (R151, R152, R155); a new duty of the running direction waits for the
next period start (R122). A drive value ends the wait of R153: of a half-bridge in no motor, one that turns a switch on (DEDUCED, log entry 175). During an anti-pinch reversal the value waits for its end (DESIGN CHOICE, log entry 128). -/
def commandHb (s : State) (m : Nat) (v : PVal) (lin : Nat) : State :=
  if pointIgnored s m then s
  else
    let g := motorCfg s m
    let want := driveOf g v
    let wakes := motorFree s m && (want.drives || (!g.defined && want == .brake))
    let s := (commandRun s m v lin).onHb m fun x => { x with
      cmd := v, inhibit := false, waitsDrive := x.waitsDrive && !wakes, queued := false }
    let x := hbOf s m
    if x.pinch ≠ 0 ∨ (x.drive = .brake ∧ x.next.isSome) then s.onHb m fun x => { x with next := some v }
    else if x.drive.drives ∧ want = x.drive ∧ motorFree s m then s
    else if g.defined ∧ x.drive.drives ∧ want ≠ .brake then brakeThen (countDrive s m) m v
    else enterState (countDrive s m) m v

/-- Report a cause on a half-bridge (R154, Table 06.10). -/
def reportHb (s : State) (m cause detail : Nat) : State :=
  let fresh := !(hbOf s m).cond.active.testBit cause || (cause == 6 && (hbOf s m).cond.thermDetail != detail)
  let s := s.onHb m fun x => { x with cond := { x.cond.report cause with
    thermDetail := if cause = 6 then detail else x.cond.thermDetail } }
  if fresh then observe s 7 (100 + m) [] [s.ev 7 0x0303 m (cause + 256 * detail)] else s

/-- A cause ends on a half-bridge. -/
def endHbCause (s : State) (m cause : Nat) : State :=
  if (hbOf s m).cond.active.testBit cause then
    observe (s.onHb m fun x => { x with cond := x.cond.clear cause }) 7 (100 + m) [] [s.ev 7 0x0304 m cause]
  else s

/-- A half-bridge or motor coasts at once, and no brake, wait or reversal of it goes on. -/
def coastNow (s : State) (m : Nat) : State :=
  (setDrive s m .coast).onHb m fun x => { x with next := none, queued := false, pinch := 0 }

/-- A terminal is off: the motors it serves stop at once and their runs end (R153, Table 06.3). -/
def terminalOff (s : State) (k runCause : Nat) : State :=
  let off := fun s m => (coastNow (cutRun s m runCause) m).onHb m fun x => { x with waitsDrive := true }
  (k :: (motorsOn s k).filter (· != k)).foldl off s

/-- Hold a half-bridge with a supply or thermal cause. -/
def holdHb (s : State) (m cause detail : Nat) : State :=
  let s := reportHb s m cause detail
  let s := s.onHb m fun x => { x with cond := x.cond.hold cause }
  bumpSnapshot (terminalOff s m (if cause = 6 then 8 else 6))

/-- A hold of a half-bridge ends; it stays off until its point changes to a drive value (R56, R153). -/
def endHoldHb (s : State) (m cause : Nat) : State :=
  if (hbOf s m).cond.holds.testBit cause then
    (endHbCause s m cause).onHb m fun x => { x with cond := x.cond.endHold cause }
  else s

/-- Lock a half-bridge: both switches off (Table 06.3). -/
def lockHb (s : State) (m cause detail : Nat) : State :=
  let s := reportHb s m cause detail
  let s := s.onHb m fun x => { x with cond := x.cond.lock cause }
  bumpSnapshot (terminalOff s m 7)

end Sys2Proof.Machine
end

