-- ==== Sys2Proof/Machine/Motors.lean ====
section
/-! DEFINITION. The motor commands of chapter 06: brakes, groups, stalls, runs, ripple counting, anti-pinch, faults, and the
motor opcodes. -/

namespace Sys2Proof.Machine

/-- The level of a switch input's filter output on the power die. -/
def siLevel (s : State) (i : Nat) : Bool := (vget s.input.si i).out

/-- BRAKE_MS ends (R152): the motor takes its new state, and a run whose drive has stopped completes (R155). -/
def brakeEnd (s : State) (m : Nat) : State :=
  let x := hbOf s m
  match x.drive, x.next with
  | .brake, some v =>
    if x.brakeEnds ≤ s.now ∧ x.pinch = 0 then
      let s := enterState s m v
      match x.run with
      | some r => match r.ended with
        | some c => completeRun s m c
        | none => s
      | none => s
    else s
  | _, _ => s

/-- A motor's brake ends (R152). -/
def execMotorBrakeEnd (m : Nat) (s : State) : Answer := effect s (brakeEnd s m)

/-- A group is free: its lowest waiting motor starts (R152). -/
def groupStart (s : State) (b : Nat) : State :=
  match (List.range 12).find? fun m =>
      (motorCfg s m).defined && (motorCfg s m).b == b && (hbOf s m).queued && !groupBusy s m with
  | some m => enterState (s.onHb m fun x => { x with queued := false }) m (hbOf s m).cmd
  | none => s

/-- A waiting motor of a group starts (R152). -/
def execMotorGroupStart (b : Nat) (s : State) : Answer := effect s (groupStart s b)

/-- Put a position into the power die and its point. -/
def setPosition (s : State) (m : Nat) (v : PVal) (valid : Bool) : State :=
  writePosition (s.onHb m fun x => { x with pos := v, posValid := valid }) m

/-- An open-loop drive brakes and stays off until its point changes (R156, R162). -/
def brakeOpenLoop (s : State) (m : Nat) : State :=
  (brakeThen s m 0).onHb m fun x => { x with inhibit := true }

/-- A motor is stalled (R156): outside its window it has limited in 800 drive ticks in a row or has counted no ripple for STALL_MS, or it was still
limiting at the end of its window. -/
def stallDue (s : State) (m : Nat) : Bool :=
  let x := hbOf s m
  x.drive.drives && x.window.isNone &&
    (x.endLimiting || 800 ≤ x.limitTicks || (match x.stall with | some w => decide (w.endAt s.now ≤ s.now) | none => false))

/-- The end of an anti-pinch reversal (R162): a value that came during it drives the motor after a brake; else the run ends with cause PINCH, or an
open-loop drive brakes and keeps its point. -/
def reversalOver (s : State) (m : Nat) : State :=
  let x := hbOf s m
  let s := s.onHb m fun x => { x with pinch := 0 }
  match x.next with
  | some v => brakeThen s m v
  | none => if x.run.isSome then stopRun s m 4 else brakeOpenLoop s m

/-- A motor stalls (R156, R162): a run stops, as its normal end with END_STOP; an open-loop drive brakes; a pinch reversal ends. -/
def stallNow (s : State) (m : Nat) : State :=
  let x := hbOf s m
  if x.pinch = 2 then reversalOver s m
  else
    match x.run with
    | some r =>
      if r.endStop then
        stopRun (if r.setAtStall then setPosition s m r.target true else s) m 1
      else stopRun s m 2
    | none => motorEvent (brakeOpenLoop s m) 0x0301 m 2

/-- A motor's own current sensing has gone on over a trace: the drive ticks that limit are counted as in R128, with the off-phases skipped (R156). -/
def senseMotor (s : State) (m : Nat) (trace : List LimitRun) : State :=
  s.onHb m fun x => { x with
    limiting := limitsLast trace x.limiting, limitTicks := if x.window.isSome then 0 else limitCount trace x.limitTicks }

/-- A motor's own current sensing has gone on over a trace, and it may be stalled (R156). -/
def motorStall (s : State) (m : Nat) (trace : List LimitRun) : State :=
  if !(hbOf s m).drive.drives ∨ !(motorCfg s m).defined then s
  else
    let s := senseMotor s m trace
    if stallDue s m then stallNow s m else s

/-- A motor stalls (R156). -/
def execMotorStall (x : LimitTrace) (s : State) : Answer := effect s (motorStall s x.unit x.runs)

/-- The stall timer of a motor starts (R153, R156). Without RIPPLE_EN no ripple is ever counted, and the timer runs to its end (DEDUCED, log entry 129). -/
def startStall (s : State) (m : Nat) (x : Hb) : Hb := { x with stall := some (startWindow s 3 (motorCfg s m).stallMs) }

/-- The inrush windows of the motors that are over end (R152): limiting at the end is a stall, and the stall timer starts (R156). -/
def endMotorWindows (s : State) : State :=
  (List.range 12).foldl (fun s m =>
    match (hbOf s m).window with
    | some w =>
      if w.endAt s.now ≤ s.now then
        noteFreeze (s.onHb m fun x => startStall s m { x with window := none, endLimiting := x.limiting, limitTicks := 0 }) 3
      else s
    | none => s) s

/-- A run reaches RUN_MAX (R157). -/
def runMaxExpiry (s : State) (m : Nat) : State :=
  match (hbOf s m).run with
  | some r =>
    if r.ended.isNone ∧ r.startAt + r.runMax * 800000 ≤ s.now then stopRun s m 3 else s
  | none => s

/-- RUN_MAX (R157). -/
def execRunMaxExpiry (m : Nat) (s : State) : Answer := effect s (runMaxExpiry s m)

/-- The normal end of a run's mode is reached (Table 06.4). -/
def runEnds (s : State) (m : Nat) (r : MotorRun) : Bool :=
  let x := hbOf s m
  let g := motorCfg s m
  if r.mode = 0 then x.posValid && x.pos == r.target
  else if r.mode = 1 then r.startAt + r.timeMs * 8000 ≤ s.now
  else if r.mode = 3 then siLevel s g.parkInput == g.parkLevel
  else false

/-- A run reaches its normal end (R155). -/
def runEnd (s : State) (m : Nat) : State :=
  match (hbOf s m).run with
  | some r => if r.ended.isNone ∧ (hbOf s m).pinch = 0 ∧ runEnds s m r then stopRun s m 0 else s
  | none => s

/-- A run's normal end (R155). -/
def execRunEndCondition (m : Nat) (s : State) : Answer := effect s (runEnd s m)

/-- One count of the position in the direction of the motor (R158). -/
def stepPosition (s : State) (m : Nat) : State :=
  writePosition (s.onHb m fun x => { x with pos := if x.dirRev then x.pos - 1 else x.pos + 1 }) m

/-- The motor counts ripples: it drives or brakes, with RIPPLE_EN (R158). -/
def countsRipples (s : State) (m : Nat) : Bool :=
  let x := hbOf s m
  (motorCfg s m).defined && (motorCfg s m).rippleEn && (x.drive.drives || x.drive == .brake)

/-- The ticks since the last ripple that a motor has counted or inserted in this drive, where there is one (R158; that an inserted count takes the place
of a ripple here is a DESIGN CHOICE, log entry 130). -/
def sinceCount (s : State) (m : Nat) : Option Nat := (hbOf s m).lastCount.map (s.now - ·)

/-- A motor watches for pinch (R160, R161): it drives in its closing direction, outside its window and its first PINCH_BLANK
ripples, within its zone when its position is valid, and its run has not switched detection off. -/
def watchesPinch (s : State) (m : Nat) : Bool :=
  let x := hbOf s m
  let g := motorCfg s m
  g.defined && g.pinchEn && x.pinch == 0 && x.drive == (if g.pinchRev then Drive.reverse else .forward) &&
    x.window.isNone && g.pinchBlank ≤ x.ripples &&
    (!x.posValid || (g.zoneFrom.toInt ≤ x.pos.toInt && x.pos.toInt ≤ g.zoneTo.toInt)) &&
    (match x.run with | some r => !r.pinchOff && r.ended.isNone | none => true)

/-- A filtered ripple (R158) with the mean and the greatest current of the period that it ends: one sooner than 0.4 times the mean of the last 16 periods is ignored.
A period runs from the ripple counted before, whatever has been inserted between (DESIGN CHOICE, log entry 130); it is slow by PINCH_PCT where it ends while the
motor watches (R160). The references are not updated while bank D is below its dip level (R161). The stall timer starts again (R156). -/
def rippleCount (s : State) (m mean peak : Nat) : State :=
  let x := hbOf s m
  let n := x.periods.length
  let sum := x.periods.sum
  let since := x.lastRipple.map (s.now - ·)
  let watches := watchesPinch s m
  if !countsRipples s m ∨ (0 < n ∧ since.any fun t => decide (t * 10 * n < 4 * sum)) then s
  else
    let s := stepPosition s m
    let keep := (bankAt s 3).dip || since.isNone
    s.onHb m fun x =>
      let y := { x with
        ripples := x.ripples + 1, inserts := 0, lastCount := some s.now, lastRipple := some s.now
        slow := if watches ∧ 0 < n ∧ since.any (fun t => decide (sum * (100 + (motorCfg s m).pinchPct) < t * 100 * n)) then x.slow + 1 else 0
        periods := if keep then x.periods else since.getD 0 :: x.periods.take 15
        currents := if keep then x.currents else mean :: x.currents.take 15
        pinchLeft := if x.pinch = 2 then x.pinchLeft - 1 else x.pinchLeft
        run := x.run.map fun r => { r with peakMa := max r.peakMa peak } }
      if y.stall.isSome then startStall s m y else y

/-- A ripple (R158). -/
def execRippleCount (m mean peak : Nat) (s : State) : Answer := effect s (rippleCount s m mean peak)

/-- No ripple in 1.8 mean periods while the motor drives (R158): a count is inserted, at most three in a row; with the third the position is marked
invalid. -/
def rippleInsert (s : State) (m : Nat) : State :=
  let x := hbOf s m
  let n := x.periods.length
  let due : Bool := match sinceCount s m with
    | some t => 0 < n && 18 * x.periods.sum ≤ t * 10 * n
    | none => false
  if countsRipples s m ∧ x.drive.drives ∧ x.inserts < 3 ∧ due then
    (stepPosition s m).onHb m fun x => { x with
      inserts := x.inserts + 1, insertedTotal := satAdd32 x.insertedTotal 1, lastCount := some s.now
      posValid := x.posValid && x.inserts < 2
      run := x.run.map fun r => { r with inserted := r.inserted + 1 } }
  else s

/-- A missing ripple (R158). -/
def execRippleInsert (m : Nat) (s : State) : Answer := effect s (rippleInsert s m)

/-- The pinch condition holds: two slow periods, or a current above the reference by PINCH_MA (R160). Before 16 periods have been counted, the
references are the means of those there are (DESIGN CHOICE, log entry 131). -/
def pinched (s : State) (m mA : Nat) : Bool :=
  let x := hbOf s m
  let n := x.currents.length
  2 ≤ x.slow || (0 < n && x.currents.sum + (motorCfg s m).pinchMa * 100 * n < mA * n)

/-- A pinch is detected (R162): the motor brakes for 2 ms and MOTOR_PINCH is posted. It is a protection action: in a hold the snapshot advances (R69). -/
def pinchDetect (s : State) (m mA : Nat) : State :=
  if watchesPinch s m ∧ pinched s m mA then
    let s := countDrive s m
    let s := (setDrive s m .brake).onHb m fun x => { x with
      next := none, pinch := 1, pinchAt := s.now, slow := 0, run := x.run.map fun r => { r with peakMa := max r.peakMa mA } }
    motorEvent (bumpSnapshot s) 0x0302 m (hbOf s m).pos.toNat
  else s

/-- A pinch (R162). -/
def execPinchDetect (m mA : Nat) (s : State) : Answer := effect s (pinchDetect s m mA)

/-- 16,000 ticks after a pinch the motor drives the opening direction at full duty (R162). -/
def pinchReversal (s : State) (m : Nat) : State :=
  let x := hbOf s m
  if x.pinch = 1 ∧ x.pinchAt + 16000 ≤ s.now then
    (startDrive s m (if (motorCfg s m).pinchRev then .forward else .reverse) 4095).onHb m fun x => { x with
      pinch := 2, pinchLeft := (motorCfg s m).pinchBack }
  else s

/-- A pinch reversal starts (R162). -/
def execPinchReversalStart (m : Nat) (s : State) : Answer := effect s (pinchReversal s m)

/-- A reversal stops after PINCH_BACK ripples, or at a stall that the motor's own current sensing shows by its trace (R156, R162). -/
def pinchEnd (s : State) (m : Nat) (trace : List LimitRun) : State :=
  if (hbOf s m).pinch = 2 then
    let s := senseMotor s m trace
    if (hbOf s m).pinchLeft = 0 ∨ stallDue s m then reversalOver s m else s
  else s

/-- A pinch reversal ends (R162). -/
def execPinchReversalEnd (m : Nat) (runs : List LimitRun) (s : State) : Answer := effect s (pinchEnd s m runs)

/-- The motor whose drive a half-bridge carries: the one of its motors that drives, or itself. -/
def driverOf (s : State) (hb : Nat) : Nat := ((motorsOn s hb).find? fun m => (hbOf s m).drive.drives).getD hb

/-- The open-load check of a half-bridge runs (Table 06.3): it drives at D12 of at least 410, after its inrush window. -/
def openChecks (s : State) (hb : Nat) : Bool :=
  let x := hbOf s (driverOf s hb)
  x.drive.drives && 410 ≤ x.duty && x.window.isNone

/-- The drive that a half-bridge carries: its motor, and which of the motor's drives it is. -/
def driveOn (s : State) (hb : Nat) : Nat × Nat := (driverOf s hb, (hbOf s (driverOf s hb)).driveNo)

/-- A fault cause of a half-bridge becomes active or ends (Table 06.3): OPEN by current in a later drive than the one that reported it. -/
def hbFault (s : State) (hb cause detail : Nat) (active : Bool) : State :=
  if active then
    if cause = 7 then lockHb s hb 7 0
    else if cause = 6 ∧ detail = 0 then holdHb s hb 6 0
    else if cause = 1 ∨ cause = 2 ∨ cause = 3 then holdHb s hb cause detail
    else if cause = 8 ∧ openChecks s hb then
      let d := driveOn s hb
      (reportHb s hb 8 0).onHb hb fun x => { x with openIn := some d }
    else s
  else if cause = 7 then s
  else if cause = 8 then
    if (hbOf s (driverOf s hb)).drive.drives ∧ (hbOf s hb).openIn ≠ some (driveOn s hb) then endHbCause s hb 8 else s
  else endHoldHb s hb cause

/-- The current of a half-bridge exceeds its hard-short threshold (Tables 06.1, 06.3). -/
def hardShortHb (s : State) (hb mA : Nat) : State := if hbShortMa s hb < mA then hbFault s hb 7 0 true else s

/-- A half-bridge fault (R154). -/
def execHbFault (hb cause detail : Nat) (active : Bool) (s : State) : Answer := effect s (hbFault s hb cause detail active)

/-! Motor opcodes. -/

/-- MOTOR of the motor opcodes. -/
def motorArg (p : Packet) : Nat := p.fld 16 0 4

/-- The drive value a MOTOR.RUN writes (R155, Table 06.2). -/
def runValue (reverse : Bool) (duty : Nat) : PVal :=
  BitVec.ofNat 16 ((if reverse then 2 else 1) * 2 ^ 14 + duty % 4096)

/-- A POSITION run turns toward its target (Table 06.4). -/
def runReverse (p : Packet) (pos : PVal) : Bool :=
  if p.fld 17 0 2 = 0 then (BitVec.ofNat 16 (p.num 20 2)).toInt < pos.toInt else p.bit 17 2

/-- An argument of MOTOR.RUN is out of range (Table 06.11). -/
def motorRunBad (p : Packet) : Bool :=
  let mode := p.fld 17 0 2
  11 < motorArg p ||
  (if p.bit 17 3 then
     mode != 0 || p.bit 17 2 || p.bit 17 4 || p.bit 17 5 || p.bit 17 6 || p.num 18 2 != 0 || p.num 20 2 != 0 ||
       p.num 22 2 != 0 || p.num 24 2 != 0
   else
     (mode == 0 && p.bit 17 2) || (p.bit 17 5 && !p.bit 17 4) || p.fld 18 0 12 == 0 ||
       (if mode = 1 then p.num 22 2 == 0 || 60000 < p.num 22 2 else p.num 22 2 != 0) || 600 < p.num 24 2)

/-- A MOTOR.RUN names what the motor cannot do: S_CONFLICT (Table 06.12). -/
def motorRunConflict (p : Packet) (s : State) : Bool :=
  let m := motorArg p
  let g := motorCfg s m
  let x := hbOf s m
  let mode := p.fld 17 0 2
  !g.defined || (mode == 0 && !x.posValid) || (mode == 3 && g.parkInput == 0xFF) ||
    (g.b == 15 && runReverse p x.pos && !(mode == 0 && x.pos.toNat == p.num 20 2))

/-- A refused start: every refusal posts MOTOR_FAULT with THERMAL and detail 3, and the cause is active until the average has fallen (R154, Table 06.3). -/
def refuseMotor (s : State) (m : Nat) : State :=
  let s := s.onHb m fun x =>
    if x.cond.holds.testBit 6 then x else { x with cond := { x.cond.report 6 with thermDetail := 3 } }
  observe s 7 (100 + m) [] [s.ev 7 0x0303 m (6 + 256 * 3)]

/-- The refusals have stopped (R154): THERMAL with detail 3 ends on every half-bridge. -/
def endRefusals (s : State) : State :=
  if s.motor.refusing then s
  else (List.range 12).foldl (fun s m =>
    let c := (hbOf s m).cond
    if c.thermDetail = 3 ∧ !c.holds.testBit 6 then (endHbCause s m 6).onHb m fun x => { x with cond := { x.cond with thermDetail := 0 } }
    else s) s

/-- The value of a point at the end of the tick before, which decides whether a write of the tick is a change (R103). -/
def endValue (s : State) (pt : Nat) : PVal := match s.points.now.find? (fun e => e.w.pt == pt) with | some e => e.old | none => pget s pt

/-- A run starts (R155, R176): its drive value is written, and the packet goes on; one whose write has moved is late (R108). A current run of the motor
ends with STOPPED. Where the point holds the value already, no frame carries it. -/
def startRun (p : Packet) (s : State) : Res :=
  let m := motorArg p
  let g := motorCfg s m
  let s := cutRun s m 5
  let x := hbOf s m
  let rev := runReverse p x.pos
  let v := runValue rev (p.fld 18 0 12)
  let r : MotorRun :=
    { packet := p, late := ranLate p s, lin := s.wallLin, value := v, mode := p.fld 17 0 2, reverse := rev, target := BitVec.ofNat 16 (p.num 20 2)
      timeMs := p.num 22 2, endStop := p.bit 17 4, setAtStall := p.bit 17 5, pinchOff := p.bit 17 6
      runMax := if p.num 24 2 = 0 then g.runMax else p.num 24 2, startPos := x.pos, startAt := s.now }
  let held := endValue s (pointAt 80 (100 + m))
  let (s, w) := directWrite s p (pointAt 80 (100 + m)) v
  if w = .discarded then { s := s, st := some .busy }
  else
    let r := { r with late := r.late || w == .moved, seen := held == v }
    { s := writePending (s.onHb m fun x => { x with run := some r }) p, st := none }

/-- MOTOR.RUN (Table 06.11). -/
def motorRunOp : Op where
  code := 0x0300
  fast := true
  layout := fun _ => [(16, 0, 4), (17, 0, 7), (18, 0, 12), (20, 0, 16), (22, 0, 16), (24, 0, 16)]
  bad := fun p _ => motorRunBad p
  deny := fun p s => !mayWrite s p.comp 80
  agree := fun p pre _ => (p.bit 17 3 && (motorCfg pre (motorArg p)).defined) || !motorRunConflict p pre
  run := fun p s =>
    let m := motorArg p
    let x := hbOf s m
    if p.bit 17 3 then
      match x.run with
      | some r => { s := if r.ended.isSome then s else stopRun s m (if r.mode = 2 then 0 else 5) }
      | none => { s := s }
    else if p.fld 17 0 2 = 0 ∧ x.pos.toNat = p.num 20 2 then { s := s, reply := runReply x { startPos := x.pos } 0 }
    else if (motorSides s m).any (fun k => (hbOf s k).cond.locks != 0) then { s := s, st := some .locked }
    else if (motorSides s m).any (fun k => (hbOf s k).cond.supplyHeld) then { s := s, st := some .supply }
    else if (motorSides s m).any (fun k => (hbOf s k).cond.holds.testBit 6) then { s := s, st := some .thermal }
    else if s.motor.refusing then { s := refuseMotor s m, st := some .thermal }
    else if groupBusy s m then { s := s, st := some .busy }
    else startRun p s

/-- MOTOR.RUN. -/
def execMotorRun (p : Packet) (s : State) : Answer := effect s (fastTake motorRunOp p s)

/-- Record `i` of MOTOR.CONFIG (Table 06.13). -/
def motorCfgOf (p : Packet) (i : Nat) : MotorCfg :=
  let b := 24 + 32 * i
  if p.bit b 4 then
    { defined := true, pairedA := p.bit b 5, pairedB := p.bit b 6, b := p.fld (b + 1) 0 4, deadtime := p.fld (b + 1) 4 2
      rippleEn := p.bit (b + 1) 6, pinchEn := p.bit (b + 1) 7, inrushMs := p.num (b + 2) 1, brakeMs := p.num (b + 3) 1
      stallMs := p.num (b + 4) 2, runMax := p.num (b + 6) 2, rippleLo := p.num (b + 8) 2, rippleHi := p.num (b + 10) 2
      parkInput := p.num (b + 12) 1, parkLevel := p.bit (b + 13) 0, pinchRev := p.bit (b + 13) 1
      zoneFrom := BitVec.ofNat 16 (p.num (b + 14) 2), zoneTo := BitVec.ofNat 16 (p.num (b + 16) 2)
      pinchPct := p.num (b + 18) 1, pinchMa := p.num (b + 19) 1, pinchBlank := p.num (b + 20) 1
      pinchBack := p.num (b + 22) 2 }
  else {}

/-- MOTOR of record `i`. -/
def cfgMotor (p : Packet) (i : Nat) : Nat := p.fld (24 + 32 * i) 0 4

/-- A definition breaks a range (Table 06.13). -/
def MotorCfg.bad (g : MotorCfg) (m : Nat) : Bool :=
  g.defined &&
  ((g.pairedA && m % 2 == 1) || (11 < g.b && g.b != 15) || (g.pairedB && g.b % 2 == 1) || g.inrushMs == 0 ||
    50 < g.inrushMs || g.stallMs < 10 || 1000 < g.stallMs || g.runMax == 0 || 600 < g.runMax || g.rippleLo < 20 ||
    5000 < g.rippleLo || 5000 < g.rippleHi || (47 < g.parkInput && g.parkInput != 0xFF) ||
    decide (g.zoneTo.toInt < g.zoneFrom.toInt) || g.pinchPct < 5 || 100 < g.pinchPct || g.pinchMa == 0 || 50 < g.pinchMa ||
    g.pinchBack == 0 || 2000 < g.pinchBack)

/-- Two motors of a set agree under R150: A terminals share no half-bridge, an A terminal is no B terminal, and B terminals
are the same or apart. -/
def motorPairOk (m : Nat) (g : MotorCfg) (n : Nat) (h : MotorCfg) : Bool :=
  (g.aSide m).all (fun k => !(h.aSide n).contains k && !h.bSide.contains k) &&
    (h.aSide n).all (fun k => !g.bSide.contains k) &&
    (g.bSide == h.bSide || g.bSide.all fun k => !h.bSide.contains k)

/-- One motor agrees with itself (R150, Table 06.13). -/
def motorSelfOk (m : Nat) (g : MotorCfg) : Bool :=
  (g.aSide m).all (fun k => !g.bSide.contains k && k < 12) && g.bSide.all (fun k => k < 12) &&
    (!g.pinchEn || (g.b != 15 && g.rippleEn)) && g.rippleLo < g.rippleHi

/-- The set of definitions agrees (R150). -/
def motorsAgree (v : Vector MotorCfg 12) : Bool :=
  (List.range 12).all fun m =>
    let g := vget v m
    !g.defined || (motorSelfOk m g && (List.range 12).all fun n =>
      n == m || !(vget v n).defined || motorPairOk m g n (vget v n))

/-- A record in a reply of MOTOR.CONFIG (Table 06.13). -/
def motorReply (b m : Nat) (g : MotorCfg) : Reply :=
  [(b, 1, m + 16 * b2n g.defined + 32 * b2n g.pairedA + 64 * b2n g.pairedB)] ++
  (if g.defined then
    [(b + 1, 1, g.b + 16 * g.deadtime + 64 * b2n g.rippleEn + 128 * b2n g.pinchEn), (b + 2, 1, g.inrushMs),
      (b + 3, 1, g.brakeMs), (b + 4, 2, g.stallMs), (b + 6, 2, g.runMax), (b + 8, 2, g.rippleLo), (b + 10, 2, g.rippleHi),
      (b + 12, 1, g.parkInput), (b + 13, 1, b2n g.parkLevel + 2 * b2n g.pinchRev), (b + 14, 2, g.zoneFrom.toNat),
      (b + 16, 2, g.zoneTo.toNat), (b + 18, 1, g.pinchPct), (b + 19, 1, g.pinchMa), (b + 20, 1, g.pinchBlank),
      (b + 22, 2, g.pinchBack)]
   else [])

/-- Define or remove motor `m`; with a removal the points of its half-bridges are written 0, by direct writes of the issuer (R106, R151), whose outcomes are the answer. Half-bridges that a new definition takes coast, the
motor until its point changes (DESIGN CHOICE, log entry 132). -/
def setMotor (p : Packet) (s : State) (m : Nat) (g : MotorCfg) : State × List WriteResult :=
  let old := motorCfg s m
  let s := s.onStore fun st => { st with motor := { st.motor with motor := vmod st.motor.motor m fun _ => g } }
  if old.defined ∧ !g.defined then
    (old.aSide m ++ old.bSide).foldl (fun a k => let (s, w) := directWrite a.1 p (pointAt 80 (100 + k)) 0; (s, w :: a.2)) (s, [])
  else if g.defined then
    let taken := (g.aSide m ++ g.bSide).filter fun k => !(old.defined && (old.aSide m ++ old.bSide).contains k)
    ((taken.filter fun k => k == m || !(motorsOn s k).any (· != m)).foldl coastNow s, [])
  else (s, [])

/-- The records of MOTOR.CONFIG in order, with the outcomes of the writes that removals make. -/
def setMotors (p : Packet) (s : State) (l : List (Nat × MotorCfg)) : State × List WriteResult :=
  l.foldl (fun a e => let (s, ws) := setMotor p a.1 e.1 e.2; (s, ws ++ a.2)) (s, [])

/-- MOTOR.CONFIG (Table 06.13). A lock of a half-bridge has no further end condition, so UNLOCK always clears it
(Table 06.3). -/
def motorConfigOp : Op where
  code := 0x0301
  slotsOk := slotsIn 1 7
  layout := fun p => (16, 0, 1) :: (17, 0, 8) :: (18, 0, 12) :: entryLayout 24 32 (min (cfgCount p) 12)
    (if p.bit 16 0 then [(0, 0, 4)]
     else [(0, 0, 7), (1, 0, 8), (2, 0, 8), (3, 0, 8), (4, 0, 16), (6, 0, 16), (8, 0, 16), (10, 0, 16), (12, 0, 8),
       (13, 0, 2), (14, 0, 16), (16, 0, 16), (18, 0, 8), (19, 0, 8), (20, 0, 8), (22, 0, 16)])
  bad := fun p _ => 12 < cfgCount p || (64 * p.slots - 24) / 32 < cfgCount p ||
    (List.range (cfgCount p)).any fun i => 11 < cfgMotor p i || (!p.bit 16 0 && (motorCfgOf p i).bad (cfgMotor p i))
  deny := fun p s => !mayRead s p.comp 80
  agree := fun _ _ s => motorsAgree s.store.motor.motor
  refuse := fun p s =>
    if !p.bit 16 0 ∧ (List.range (cfgCount p)).any (fun i => (hbOf s (cfgMotor p i)).running) then some .busy else none
  run := fun p s =>
    let idx := List.range (cfgCount p)
    if p.bit 16 0 then
      { s := s, reply := idx.flatMap fun i => motorReply (24 + 32 * i) (cfgMotor p i) (motorCfg s (cfgMotor p i)) }
    else
      let (s, ws) := setMotors p s (idx.map fun i => (cfgMotor p i, motorCfgOf p i))
      let s := (bitList 12 (p.fld 18 0 12)).foldl (fun s k =>
        if (hbOf s k).cond.locks ≠ 0 then
          (endHbCause s k 7).onHb k fun x => { x with cond := x.cond.unlock 7 } else s) s
      let moved := ws.count .moved
      if moved ≠ 0 then { s := waitMoved s p moved false [], st := none }
      else { s := s, st := some (if ws.contains .discarded then .busy else .ok) }

/-- MOTOR.CONFIG. -/
def execMotorConfig (p : Packet) (s : State) : Answer := effect s (keeperTake motorConfigOp p s)

/-- MOTOR.POS (Table 06.14). -/
def motorPosOp : Op where
  code := 0x0302
  layout := fun _ => [(16, 0, 4), (17, 0, 2), (18, 0, 16)]
  bad := fun p _ => 11 < motorArg p || (p.bit 17 0 && p.bit 17 1)
  deny := fun p s => !mayRead s p.comp 80
  agree := fun p s _ => (motorCfg s (motorArg p)).defined
  run := fun p s =>
    let m := motorArg p
    if (hbOf s m).running then { s := s, st := some .busy }
    else
      let s :=
        if p.bit 17 0 then setPosition s m (BitVec.ofNat 16 (p.num 18 2)) true
        else if p.bit 17 1 then s.onHb m fun x => { x with posValid := false } else s
      let x := hbOf s m
      { s := s, reply := [(16, 1, m), (17, 1, p.num 17 1), (18, 2, x.pos.toNat), (20, 1, b2n x.posValid),
          (24, 4, x.insertedTotal)] }

/-- MOTOR.POS. -/
def execMotorPos (p : Packet) (s : State) : Answer := effect s (keeperTake motorPosOp p s)

end Sys2Proof.Machine
end

