-- ==== Sys2Proof/Machine/Valves.lean ====
section
/-! DEFINITION. The valves of chapter 06: requests and grants, programs, the dip detector, faults, and the valve opcodes. -/

namespace Sys2Proof.Machine

/-- Valve `v` on the power die. -/
def valveOf (s : State) (v : Nat) : Valve := vget s.motor.valve v

/-- Change valve `v`. -/
def State.onValve (s : State) (v : Nat) (f : Valve → Valve) : State :=
  s.onMotor fun d => { d with valve := vmod d.valve v f }

/-- Feed `f` on the power die. -/
def feedOf (s : State) (f : Nat) : Feed := vget s.motor.feed f

/-- Change feed `f`. -/
def State.onFeed (s : State) (f : Nat) (g : Feed → Feed) : State :=
  s.onMotor fun d => { d with feed := vmod d.feed f g }

/-- The feed of a valve: VF0 for VL0–VL3, VF1 for VL4–VL7. -/
def feedIx (v : Nat) : Nat := v / 4

/-- The valves of a feed. -/
def valvesOn (f : Nat) : List Nat := [4 * f, 4 * f + 1, 4 * f + 2, 4 * f + 3]

/-- The program store of a valve. -/
def progOf (s : State) (v : Nat) : Vector Nat 64 := vget s.store.motor.prog v

/-- OP of an instruction word (R168). -/
def vOp (w : Nat) : Nat := bitsOf w 28 4

/-- I of an instruction word. -/
def vI (w : Nat) : Nat := bitsOf w 16 12

/-- N of an instruction word. -/
def vN (w : Nat) : Nat := bitsOf w 0 16

/-- The claim of a program store: its greatest PEAK target (R170). -/
def claimOf (prog : Vector Nat 64) : Nat :=
  prog.toList.foldl (fun m w => if vOp w = 1 then max m (vI w) else m) 0

/-- The fire point of a valve. -/
def firePoint (v : Nat) : Nat := pointAt 80 (200 + v)

/-- Post a valve event through L0. -/
def valveEvent (s : State) (kind v value : Nat) : State :=
  observe s 7 (200 + v) [] [s.ev 7 kind (firePoint v) value true]

/-- The value of a fire point asks for a fire: FIRE with all other bits but ENTRY at 0 (R167). -/
def fireBit (x : PVal) : Bool := x.toNat.testBit 15 && bitsOf x.toNat 6 9 == 0

/-- A valve is in a fire: from its grant to its END (R165). -/
def ValvePhase.fires : ValvePhase → Bool
  | .granted => true
  | .running => true
  | _ => false

/-- A fire or request ends with a status: VALVE_END, and the packet's reply where one waits (R172, R176). -/
def valveDone (s : State) (v : Nat) (st : Status) (clampDuJ : Nat) : State :=
  let x := valveOf s v
  let s := s.onValve v fun x => { x with packet := none, phase := .idle, status := st.code }
  let s := s.onMotor fun d => if d.trace.capturing ∧ d.trace.valve = v then
    { d with trace := { d.trace with
        capturing := false, status := st.code, dipTick := x.dipTick, dipMa := x.dipMa, peakMa := x.peakMa } } else d
  let s := valveEvent s 0x0310 v st.code
  match x.packet with
  | none => s
  | some p =>
    if logicDown s then s
    else
      let s := if pget s (firePoint v) = 0 then s else (directWrite s p (firePoint v) 0).1
      completeNow s p (lateStatus x.late st)
        [(16, 2, x.claim), (18, 2, sat16 (x.grantAt - x.reqAt)), (20, 4, if x.startAt = 0 then 0 else x.endAt - x.startAt),
          (24, 4, x.dipTick.getD 0xFFFFFFFF), (28, 2, x.dipMa), (30, 2, sat16 x.peakMa), (32, 2, sat16 clampDuJ),
          (34, 1, x.endAddr)]

/-- The status that the condition of a feed or low-side gives a request, if it stops one (R173, R174). -/
def heldStatus (c : Cond) : Option Status :=
  if c.locks ≠ 0 then some .locked
  else if c.supplyHeld then some .supply
  else if c.holds.testBit 6 then some .thermal else none

/-- What refuses a request at once (R154, R173). -/
def requestRefused (s : State) (v : Nat) : Option Status :=
  match heldStatus (feedOf s (feedIx v)).cond with
  | some st => some st
  | none => match heldStatus (valveOf s v).cond with
    | some st => some st
    | none => if s.motor.refusing then some .thermal else none

/-- Report a cause on an output of the valves: 0–7 low-sides, 8–9 feeds (Table 06.10). -/
def valveFaultEvent (s : State) (o cause detail : Nat) : State :=
  observe s 7 (220 + o) [] [s.ev 7 0x0312 o (cause + 256 * detail)]

/-- A request takes its place in a feed's queue: by its tick and, within a tick, in ascending valve index (R171). -/
def queueRequest (s : State) (v : Nat) : List Nat → List Nat
  | [] => [v]
  | w :: r => if (valveOf s w).reqAt = s.now ∧ v < w then v :: w :: r else w :: queueRequest s v r

/-- A request for a fire at ENTRY (R167, R171–R173). -/
def requestFire (s : State) (v entry : Nat) : State :=
  let x := valveOf s v
  if x.phase ≠ .idle then s
  else
    let s := s.onValve v fun x => { x with
      phase := .requested, entry := entry, reqAt := s.now, deferMax := vget s.store.motor.deferMax (feedIx v)
      claim := claimOf (progOf s v), grantAt := s.now, startAt := 0, endAt := 0, dipTick := none, dipMa := 0, peakMa := 0
      endAddr := 0, rFlag := false }
    match requestRefused s v with
    | some st =>
      let s := if st = .thermal ∧ s.motor.refusing then valveFaultEvent s v 6 3 else s
      valveDone s v st 0
    | none => s.onFeed (feedIx v) fun f => { f with queue := queueRequest s v f.queue }

/-- A release of the fire point (R167, R172): before the grant it withdraws the request, later it sets R. -/
def releaseFire (s : State) (v : Nat) : State :=
  let x := valveOf s v
  if x.phase = .requested then
    valveDone (s.onFeed (feedIx v) fun f => { f with queue := f.queue.filter (· != v) }) v .cancelled 0
  else s.onValve v fun x => { x with rFlag := true }

/-- The L2 frame carries a value of a fire point (R167). Where another writer has taken the FIRE of a VALVE.FIRE back in its tick, no request is made,
and the packet completes as with a release before the grant (R172). -/
def commandValve (s : State) (v : Nat) (w : PVal) : State :=
  let fire := fireBit w
  let seen := (valveOf s v).fireSeen
  let s := s.onValve v fun x => { x with cmd := w, fireSeen := fire }
  if fire ∧ !seen then requestFire s v (w.toNat % 64)
  else if !fire ∧ seen then releaseFire s v
  else if !fire ∧ (valveOf s v).phase = .idle ∧ (valveOf s v).packet.isSome then valveDone s v .cancelled 0
  else s

/-- A claim counts toward the budget: held, or released in this tick (R171). -/
def claimCounts (now : Nat) (x : Valve) : Bool := x.claimHeld || now < x.claimEnds

/-- The claims on a feed (R171). -/
def claimsHeld (s : State) (f : Nat) : Nat :=
  (((valvesOn f).map (valveOf s)).map fun x => if claimCounts s.now x then x.claim else 0).sum

/-- Turn a feed on or off, and write its point (R165). -/
def setFeed (s : State) (f : Nat) (on : Bool) : State :=
  if (feedOf s f).on = on then s
  else
    let v : PVal := if on then 65535 else 0
    observePoint (s.onFeed f fun x => { x with on := on, onAt := if on then s.now else x.onAt }) 7 (210 + f) (pointAt 80 (210 + f)) v []

/-- The first waiting request of a feed is granted once its claim fits (R171, R172): its program starts at once, or 16 ticks
after the feed has turned on in this tick. -/
def grantFirst (s : State) (f : Nat) : State :=
  match (feedOf s f).queue with
  | [] => s
  | v :: r =>
    let x := valveOf s v
    if claimsHeld s f + x.claim ≤ vget s.store.motor.budget f then
      let wasOn := (feedOf s f).on && (feedOf s f).onAt < s.now
      let s := s.onFeed f fun y => { y with queue := r }
      let s := s.onValve v fun x => { x with
        phase := .granted, claimHeld := true, grantAt := s.now, startAt := if wasOn then s.now else s.now + 16 }
      setFeed s f true
    else s

/-- A waiting request is granted (R171). -/
def execValveGrant (f : Nat) (s : State) : Answer := effect s (grantFirst s f)

/-- A granted fire starts its program (R168, R172); an armed trace starts with it. -/
def programStart (s : State) (v : Nat) : State :=
  let x := valveOf s v
  if x.phase = .granted ∧ x.startAt ≤ s.now then
    let s := s.onValve v fun x => { x with
      phase := .running, startAt := s.now, pc := x.entry, dFlag := false, tFlag := false, ctr := 0, waitOp := 0
      waitEnds := none, dip := {}, target := 0, peakPhase := false, peaked := false, on := false, chopped := false, lastAt := none
      fires := x.fires + 1 }
    s.onMotor fun d => if d.trace.armed ∧ d.trace.valve = v then
      { d with trace := { d.trace with
          armed := false, capturing := true, samples := [], start := s.stamp, startAt := s.now
          status := Status.pend.code } } else d
  else s

/-- A fire's program starts (R172). -/
def execValveProgramStart (v : Nat) (s : State) : Answer := effect s (programStart s v)

/-- A request not granted by DEFER_MAX is refused (R172). -/
def deferExpiry (s : State) (v : Nat) : State :=
  let x := valveOf s v
  if x.phase = .requested ∧ x.reqAt + x.deferMax ≤ s.now then
    let s := s.onFeed (feedIx v) fun f => { f with queue := f.queue.filter (· != v) }
    valveDone (s.onValve v fun x => { x with grantAt := s.now }) v .overlap 0
  else s

/-- DEFER_MAX expires (R172). -/
def execDeferMaxExpiry (v : Nat) (s : State) : Answer := effect s (deferExpiry s v)

/-- A fire ends (R165): the low-side turns off and decays fast into its clamp; its claim is free from the next tick. -/
def endFire (s : State) (v : Nat) (st : Status) : State :=
  s.onValve v fun x => { x with
    phase := .decay, on := false, target := 0, peakPhase := false, waitOp := 0, status := st.code, endAddr := x.pc
    endAt := s.now, claimEnds := if x.claimHeld then s.now + 1 else x.claimEnds, claimHeld := false
    startAt := if x.phase = .running then x.startAt else 0 }

/-- Release the claim of a valve: it can be used from the next tick (R171). -/
def releaseClaim (now : Nat) (x : Valve) : Valve :=
  if x.claimHeld then { x with claimHeld := false, claimEnds := now + 1 } else x

/-- Ticks of a timed N (R168). -/
def timedTicks (n : Nat) : Nat := (if n.testBit 15 then 80 else 1) * (n % 2 ^ 15)

/-- COND of a BRANCH holds (Table 06.7), after its decrement of C; that of COND 5 takes a C of 0 to 255 and jumps (DESIGN CHOICE, log entry 134). -/
def branchTaken (cond : Nat) (x : Valve) : Bool :=
  match cond with
  | 0 => true
  | 1 => x.dFlag
  | 2 => !x.dFlag
  | 3 => x.tFlag
  | 4 => !x.tFlag
  | 5 => x.ctr != 1
  | 6 => x.rFlag
  | _ => false

/-- Begin a wait that ends or times out after `n` ticks, none for no timeout; one of at most one tick ends with its own
tick. -/
def beginWait (now op mA : Nat) (n : Option Nat) (x : Valve) : Valve :=
  { x with waitOp := op, waitMa := mA, waitEnds := n.map (now + ·) }

/-- A mark in the trace (Table 06.20). -/
def traceMark (s : State) (v : Nat) : State :=
  s.onMotor fun d => if d.trace.capturing ∧ d.trace.valve = v then { d with trace := { d.trace with mark := true } } else d

/-- The low-side turns off in a fire (R164): the coil recirculates, and the dip detector has stopped (R169). -/
def chopOff (x : Valve) : Valve := { x with on := false, chopped := true }

/-- The low-side turns on (R164), where nothing holds or locks it. -/
def turnOn (now : Nat) (x : Valve) : Valve := if x.on ∨ !x.cond.free then x else { x with on := true, onAt := now }

/-- An instruction sets the target (R164): the low-side stays on from here until the current first reaches it. -/
def setTarget (now target : Nat) (fast : Bool) (mA : Nat) (x : Valve) : Valve :=
  let x := { x with target := target, fast := fast }
  if mA < target then turnOn now x else if x.on then chopOff x else x

/-- One instruction of a valve program (Table 06.7); the valve has moved to the next address. -/
def valveStep (s : State) (v w mA : Nat) : State :=
  let i := vI w
  let n := vN w
  match vOp w with
  | 1 => s.onValve v fun x =>
      { setTarget s.now i (n.testBit 0) mA x with peakPhase := true, peaked := true, peakAt := s.now }
  | 2 => s.onValve v fun x => { setTarget s.now i (n.testBit 0) mA (releaseClaim s.now x) with peakPhase := false }
  | 3 => s.onValve v fun x => if timedTicks n ≤ 1 then x else beginWait s.now 3 0 (some (timedTicks n)) x
  | 4 => s.onValve v (beginWait s.now 4 i (some (timedTicks n)))
  | 5 => s.onValve v fun x => { x with dFlag := false, dip := { armed := true, depth := i, samples := n % 256 } }
  | 6 => s.onValve v (beginWait s.now 6 0 (some (timedTicks n)))
  | 7 => s.onValve v (beginWait s.now 7 0 (if n = 0 then none else some (n * 8000)))
  | 8 => s.onValve v fun x =>
      let taken := branchTaken (bitsOf i 8 4) x
      let x := if bitsOf i 8 4 = 5 then { x with ctr := (x.ctr + 255) % 256 } else x
      if taken then { x with pc := n % 64 } else x
  | 9 => s.onValve v fun x => { x with ctr := n % 256 }
  | 10 => valveEvent (traceMark s v) 0x0314 v (n % 256)
  | _ => s

/-- A measured current enters the fire's record, and a low-side that is on turns off where it reaches the target after the blanking of 8 ticks
(R164). -/
def noteCurrent (now mA : Nat) (x : Valve) : Valve :=
  let x := { x with mA := mA, peakMa := max x.peakMa mA }
  if x.on ∧ x.target ≠ 0 ∧ x.target ≤ mA ∧ x.onAt + 8 ≤ now then chopOff x else x

/-- The valve engine executes one instruction; every instruction occupies one tick (R168). END ends the fire. After address 63 the program goes on at
address 0 (DESIGN CHOICE, log entry 133). -/
def valveInstruction (s : State) (v mA : Nat) : State :=
  let x := valveOf s v
  if x.phase = .running ∧ x.waitOp = 0 ∧ x.lastAt ≠ some s.now then
    let w := vget (progOf s v) x.pc
    let s := s.onValve v fun x => noteCurrent s.now mA { x with lastAt := some s.now }
    if vOp w = 0 then endFire s v .ok
    else valveStep (s.onValve v fun x => { x with pc := (x.pc + 1) % 64 }) v w mA
  else s

/-- One program instruction (R168). -/
def execValveInstruction (v mA : Nat) (s : State) : Answer := effect s (valveInstruction s v mA)

/-- The condition of a wait holds (Table 06.7). -/
def waitHolds (x : Valve) (mA : Nat) : Bool :=
  if x.waitOp = 4 then x.waitMa ≤ mA else if x.waitOp = 6 then x.dFlag else if x.waitOp = 7 then x.rFlag else false

/-- A wait ends by its condition or by its last tick; the next instruction executes in the following tick (R168). -/
def waitEnd (s : State) (v mA : Nat) : State :=
  let x := valveOf s v
  if x.phase = .running ∧ x.waitOp ≠ 0 then
    let s := s.onValve v (noteCurrent s.now mA)
    if waitHolds x mA then
      s.onValve v fun x => { x with waitOp := 0, waitEnds := none, tFlag := false, lastAt := some s.now }
    else if (match x.waitEnds with | some t => decide (t ≤ s.now + 1) | none => false) = true then
      s.onValve v fun y => { y with
        waitOp := 0, waitEnds := none, tFlag := if x.waitOp = 3 then y.tFlag else true, lastAt := some s.now }
    else s
  else s

/-- A wait ends (R168). -/
def execValveWaitEnd (v mA : Nat) (s : State) : Answer := effect s (waitEnd s v mA)

/-- The dip detector uses the samples of a fire (R169): armed, with the low-side on for at least 8 ticks since the PEAK, before the first off-phase. -/
def dipUses (now : Nat) (x : Valve) : Bool :=
  x.phase == .running && x.dip.armed && x.on && x.peaked && !x.chopped && x.peakAt + 8 ≤ now && x.onAt + 8 ≤ now

/-- The dip detector takes a sample (R169): before D it tracks the greatest current M and counts the samples in a row at or below M − depth; after D it
goes on to record the lowest current until the dip is over. -/
def DipDet.take (d : DipDet) (found : Bool) (mA : Nat) : DipDet :=
  let m := if found then d.maxMa else max d.maxMa mA
  if mA + d.depth ≤ m then { d with maxMa := m, count := d.count + 1, low := if d.count = 0 then mA else min d.low mA }
  else if found then { d with past := true }
  else { d with maxMa := m, count := 0 }

/-- One sample of the valve current, every 4 ticks (R164, R169): it enters the fire's record; the sample that completes the configured number sets D and
posts VALVE_DIP with the ticks from program start. -/
def dipDetect (s : State) (v mA : Nat) : State :=
  let x := valveOf s v
  let found := x.dFlag
  let d := if dipUses s.now x ∧ !x.dip.past then x.dip.take found mA else x.dip
  let s := s.onValve v fun x => if x.phase = .running then
    noteCurrent s.now mA { x with dip := d, dipMa := if found then d.low else x.dipMa } else { x with mA := mA }
  if dipUses s.now x ∧ !found ∧ d.samples ≤ d.count then
    let t := s.now - x.startAt
    let s := s.onValve v fun x => { x with dFlag := true, dipTick := some t, dipMa := d.low }
    valveEvent (traceMark s v) 0x0311 v (sat16 t)
  else s

/-- A sample of the dip detector (R169). -/
def execValveDipDetect (v mA : Nat) (s : State) : Answer := effect s (dipDetect s v mA)

/-- A fire runs past FIRE_MAX: END is executed with S_TIMEOUT (R170). -/
def fireMaxExpiry (s : State) (v : Nat) : State :=
  let x := valveOf s v
  if x.phase = .running ∧ x.startAt + vget s.store.motor.fireMax v * 8000 ≤ s.now then endFire s v .timeout else s

/-- FIRE_MAX (R170). -/
def execFireMaxExpiry (v : Nat) (s : State) : Answer := effect s (fireMaxExpiry s v)

/-- The statuses a fire can end with, by their code; one that the fail states end is cancelled (R68, R173; DESIGN CHOICE, log entry 172). -/
def fireStatus (code : Nat) : Status :=
  if code = Status.cancelled.code then .cancelled else if code = Status.timeout.code then .timeout else if code = Status.supply.code then .supply
  else if code = Status.locked.code then .locked else if code = Status.thermal.code then .thermal else .ok

/-- Every fire on a feed ends at once, and its waiting requests are refused, with one status (R173). -/
def stopFeed (s : State) (f : Nat) (st : Status) : State :=
  let s := (valvesOn f).foldl (fun s v =>
    if (valveOf s v).phase.fires then endFire s v st
    else if (valveOf s v).phase = .requested then
      valveDone (s.onFeed f fun x => { x with queue := x.queue.filter (· != v) }) v st 0
    else s) s
  setFeed s f false

/-- Report a cause on a feed. -/
def reportFeed (s : State) (f cause detail : Nat) : State :=
  let fresh := !(feedOf s f).cond.active.testBit cause
  let s := s.onFeed f fun x => { x with cond := x.cond.report cause }
  if fresh then valveFaultEvent s (8 + f) cause detail else s

/-- A cause ends on a feed. -/
def endFeedCause (s : State) (f cause : Nat) : State :=
  if (feedOf s f).cond.active.testBit cause then
    observe (s.onFeed f fun x => { x with cond := x.cond.clear cause }) 7 (228 + f) [] [s.ev 7 0x0313 (8 + f) cause]
  else s

/-- Hold a feed (R55, R173). -/
def holdFeed (s : State) (f cause detail : Nat) : State :=
  let s := reportFeed s f cause detail
  let s := s.onFeed f fun x => { x with cond := x.cond.hold cause }
  bumpSnapshot (stopFeed s f (if cause = 6 then .thermal else .supply))

/-- A hold of a feed ends; it stays off until a new fire (R174). -/
def endHoldFeed (s : State) (f cause : Nat) : State :=
  if (feedOf s f).cond.holds.testBit cause then
    (endFeedCause s f cause).onFeed f fun x => { x with cond := { x.cond.endHold cause with waiting := false } }
  else s

/-- Lock a feed (Table 06.9). -/
def lockFeed (s : State) (f cause : Nat) : State :=
  let s := reportFeed s f cause 0
  let s := s.onFeed f fun x => { x with cond := x.cond.lock cause }
  bumpSnapshot (stopFeed s f .locked)

/-- Report a cause on a low-side. -/
def reportVl (s : State) (v cause detail : Nat) : State :=
  let fresh := !(valveOf s v).cond.active.testBit cause
  let s := s.onValve v fun x => { x with cond := x.cond.report cause }
  if fresh then valveFaultEvent s v cause detail else s

/-- A cause ends on a low-side. -/
def endVlCause (s : State) (v cause : Nat) : State :=
  if (valveOf s v).cond.active.testBit cause then
    observe (s.onValve v fun x => { x with cond := x.cond.clear cause }) 7 (220 + v) [] [s.ev 7 0x0313 v cause]
  else s

/-- A low-side turns off by a fault, and its fire ends (Table 06.9); one that decays after its END ends with the lock too (R165). -/
def lockVl (s : State) (v cause detail : Nat) : State :=
  let s := reportVl s v cause detail
  let s := s.onValve v fun x => { x with cond := { x.cond.lock cause with clampDetail := if cause = 4 then detail else x.cond.clampDetail } }
  let x := valveOf s v
  bumpSnapshot
    (if x.phase.fires then endFire s v .locked
     else if x.phase = .decay ∧ (fireStatus x.status = .ok ∨ fireStatus x.status = .timeout) then
       s.onValve v fun x => { x with status := Status.locked.code }
     else s)

/-- A low-side is held by temperature (Table 06.9). -/
def holdVl (s : State) (v : Nat) : State :=
  let s := reportVl s v 6 0
  let s := s.onValve v fun x => { x with cond := x.cond.hold 6 }
  bumpSnapshot (if (valveOf s v).phase.fires then endFire s v .thermal else s)

/-- Clamp events of a low-side (R166, R133): 40 mJ per event, 300 mJ per window, and bank D's window of 1 J; where one event meets several, the first
detail counts, as for HS channels (log entry 123). -/
def clampVl (s : State) (v uJ : Nat) : State :=
  let full := decide (1000000 ≤ windowEnergy s.now (bankAt s 3).clamp)
  let s := s.onValve v fun x => { x with clamp := addEnergy s.now uJ x.clamp }
  let e := windowEnergy s.now (valveOf s v).clamp
  let s := bankClamp s 3 uJ
  if full then lockVl s v 4 2
  else if 40000 < uJ then lockVl s v 4 0
  else if 300000 ≤ e then lockVl s v 4 1
  else if 1000000 ≤ windowEnergy s.now (bankAt s 3).clamp then lockVl s v 4 2
  else s

/-- The current of a coil has fallen below 10 mA after END: the fire completes (R165); its decay is a clamp event of `uJ`. -/
def decayEnd (s : State) (v mA uJ : Nat) : State :=
  let x := valveOf s v
  if x.phase = .decay ∧ mA < 10 then
    let s := clampVl (s.onValve v fun x => { x with mA := mA }) v uJ
    valveDone s v (fireStatus (valveOf s v).status) (uJ / 100)
  else s

/-- The end decay of a fire is over (R165). -/
def execValveDecayEnd (v mA energy : Nat) (s : State) : Answer := effect s (decayEnd s v mA energy)

/-- The land of a low-side can be checked for a short to ground: it is off, and its feed is on (Table 06.9). -/
def shortChecks (s : State) (v : Nat) : Bool := !(valveOf s v).on && (feedOf s (feedIx v)).on

/-- The open-load check of a low-side runs (Table 06.9): on, 800 ticks after a PEAK. -/
def coilChecks (s : State) (v : Nat) : Bool :=
  let x := valveOf s v
  x.phase == .running && x.on && x.peaked && x.peakAt + 800 ≤ s.now

/-- A fault cause of a feed or low-side becomes active or ends (Table 06.9); `o` is 0–7 for VL, 8–9 for VF. OPEN ends by current in a later fire. -/
def valveFault (s : State) (o cause detail : Nat) (active : Bool) : State :=
  if o < 8 then
    if active then
      if cause = 7 ∧ detail = 0 then lockVl s o 7 0
      else if cause = 6 then holdVl s o
      else if cause = 7 ∧ detail = 2 ∧ shortChecks s o then reportVl s o 7 2
      else if cause = 8 ∧ coilChecks s o then (reportVl s o 8 0).onValve o fun x => { x with openFire := x.fires }
      else s
    else if cause = 6 then
      (endVlCause s o 6).onValve o fun x => { x with cond := { x.cond.endHold 6 with waiting := false } }
    else if (valveOf s o).cond.locks.testBit cause then s
    else if cause = 7 then (if shortChecks s o then endVlCause s o 7 else s)
    else if cause = 8 then (if (valveOf s o).phase = .running ∧ (valveOf s o).fires ≠ (valveOf s o).openFire then endVlCause s o 8 else s)
    else s
  else if active then
    if cause = 7 then lockFeed s (o - 8) 7
    else if cause = 1 ∨ cause = 2 ∨ cause = 3 ∨ cause = 6 then holdFeed s (o - 8) cause detail
    else s
  else if cause = 7 then s else endHoldFeed s (o - 8) cause

/-- A valve output fault (R174). -/
def execValveOutputFault (o cause detail : Nat) (active : Bool) (s : State) : Answer :=
  effect s (valveFault s o cause detail active)

/-- The current of a low-side exceeds 6.0 A, its hard-short threshold (Tables 06.6, 06.9). -/
def hardShortVl (s : State) (v mA : Nat) : State := if 6000 < mA then valveFault s v 7 0 true else s

/-- The current of a feed exceeds 20 A, its hard-short threshold (Tables 06.6, 06.9). -/
def hardShortVf (s : State) (f mA : Nat) : State := if 20000 < mA then valveFault s (8 + f) 7 0 true else s

/-- A chop period of a low-side starts (R163, R164): it turns on if the current is below the target. -/
def periodVl (s : State) (v : Nat) : State :=
  let x := valveOf s v
  if x.phase = .running ∧ x.target ≠ 0 ∧ s.now % 320 = 40 * (v % 4) ∧ x.mA < x.target then s.onValve v (turnOn s.now)
  else s

/-- The feeds turn off in the tick after the last END on them (R165). -/
def feedsTick (s : State) : State :=
  (List.range 2).foldl (fun s f =>
    if (feedOf s f).on ∧ !(valvesOn f).any (fun v => (valveOf s v).phase.fires) ∧
        (valvesOn f).all (fun v => (valveOf s v).endAt < s.now) then setFeed s f false else s) s

/-- One trace sample (Table 06.20). -/
def traceSample (s : State) : Nat :=
  let d := s.motor
  let x := vget d.valve d.trace.valve
  min x.mA 4095 + 2 ^ 12 * b2n x.on + 2 ^ 13 * b2n (feedOf s (feedIx d.trace.valve)).on + 2 ^ 14 * b2n x.peakPhase +
    2 ^ 15 * b2n d.trace.mark

/-- The trace takes a sample every DECIM × 4 ticks from program start (Table 06.19). -/
def traceTick (s : State) : State :=
  let t := s.motor.trace
  if t.capturing ∧ t.samples.length < t.want ∧ (s.now - t.startAt) % (t.decim * 4) = 0 then
    s.onMotor fun d => { d with trace := { d.trace with samples := d.trace.samples ++ [traceSample s], mark := false } }
  else s

/-! Valve opcodes. -/

/-- VALVE of the valve opcodes. -/
def valveArg (p : Packet) : Nat := p.fld 16 0 3

/-- VALVE.FIRE (Table 06.15). -/
def valveFireOp : Op where
  code := 0x0310
  fast := true
  layout := fun _ => [(16, 0, 4), (17, 0, 6)]
  bad := fun p _ => p.bit 16 3 && p.fld 17 0 6 != 0
  deny := fun p s => !mayWrite s p.comp 80
  agree := fun p s _ => p.bit 16 3 || vget s.store.motor.loaded (valveArg p)
  run := fun p s =>
    let v := valveArg p
    if p.bit 16 3 then
      let (s, w) := directWrite s p (firePoint v) 0
      if w = .moved then { s := waitMoved s p 1 (ranLate p s) [], st := none }
      else { s := s, st := some (if w = .discarded then .busy else .ok) }
    else if (pget s (firePoint v)).toNat.testBit 15 ∨ (valveOf s v).phase ≠ .idle then { s := s, st := some .busy }
    else
      match requestRefused s v with
      | some st =>
        { s := if st = .thermal ∧ s.motor.refusing then valveFaultEvent s v 6 3 else s, st := some st }
      | none =>
        let (s, w) := directWrite s p (firePoint v) (BitVec.ofNat 16 (2 ^ 15 + p.fld 17 0 6))
        if w = .discarded then { s := s, st := some .busy }
        else
          { s := writePending (s.onValve v fun x => { x with packet := some p, late := ranLate p s || w == .moved }) p, st := none }

/-- VALVE.FIRE. -/
def execValveFire (p : Packet) (s : State) : Answer := effect s (fastTake valveFireOp p s)

/-- The addresses that can follow an instruction. -/
def succs (prog : Vector Nat 64) (a : Nat) : List Nat :=
  let w := vget prog a
  let next := [(a + 1) % 64]
  match vOp w with
  | 0 => []
  | 8 => if bitsOf (vI w) 8 4 = 0 then [vN w % 64] else (vN w % 64) :: next
  | _ => next

/-- One round of reachability over the store. -/
def reachRound (prog : Vector Nat 64) (r : List Nat) : List Nat :=
  (List.range 64).filter fun a => r.contains a || r.any fun b => (succs prog b).contains a

/-- The addresses that can be reached from `r` in at most `n` steps. -/
def reachIn (prog : Vector Nat 64) : Nat → List Nat → List Nat
  | 0, r => r
  | n + 1, r =>
    let r' := reachRound prog r
    if r'.length = r.length then r' else reachIn prog n r'

/-- A PEAK can be reached from a HOLD (R170). -/
def peakAfterHold (prog : Vector Nat 64) : Bool :=
  let holds := (List.range 64).filter fun a => vOp (vget prog a) == 2
  (reachIn prog 64 (holds.flatMap (succs prog))).any fun a => vOp (vget prog a) == 1

/-- An instruction word breaks R168 or R170. -/
def wordBad (w : Nat) : Bool :=
  let i := vI w
  let n := vN w
  match vOp w with
  | 0 => i != 0 || n != 0
  | 1 => 4000 < i || bitsOf n 1 15 != 0
  | 2 => 4000 < i || bitsOf n 1 15 != 0
  | 3 => i != 0
  | 4 => 4000 < i
  | 5 => i < 10 || 1000 < i || bitsOf n 0 8 == 0 || 64 < bitsOf n 0 8 || bitsOf n 8 8 != 0
  | 6 => i != 0
  | 7 => i != 0
  | 8 => 6 < bitsOf i 8 4 || bitsOf i 0 8 != 0 || 63 < n
  | 9 => i != 0 || bitsOf n 8 8 != 0
  | 10 => i != 0 || bitsOf n 8 8 != 0
  | _ => true

/-- The store a VALVE.PROG leaves (Table 06.17). -/
def progAfter (p : Packet) (s : State) : Vector Nat 64 :=
  (List.range (p.num 18 1)).foldl (fun v i => vmod v (p.num 17 1 + i) fun _ => p.num (24 + 4 * i) 4) (progOf s (valveArg p))

/-- VALVE.PROG (Table 06.17, R170). In the end decay after its fire a valve takes a program (DESIGN CHOICE, log entry 167): it is in no fire then. -/
def valveProgOp : Op where
  code := 0x0311
  slotsOk := slotsIn 1 5
  layout := fun p => (16, 0, 3) :: (17, 0, 8) :: (18, 0, 8) :: entryLayout 24 4 (min (p.num 18 1) 64) [(0, 0, 32)]
  bad := fun p s => p.num 18 1 == 0 || (64 * p.slots - 24) / 4 < p.num 18 1 || 64 < p.num 17 1 + p.num 18 1 ||
    (progAfter p s).toList.any wordBad || peakAfterHold (progAfter p s)
  deny := fun p s => !mayWrite s p.comp 80
  agree := fun _ _ s => (List.range 8).all fun v => claimOf (progOf s v) ≤ vget s.store.motor.budget (feedIx v)
  refuse := fun p s => if (valveOf s (valveArg p)).phase = .requested ∨ (valveOf s (valveArg p)).phase.fires then some .busy else none
  run := fun p s =>
    let v := valveArg p
    let prog := progAfter p s
    { s := s.onStore fun st => { st with motor := { st.motor with
        prog := vmod st.motor.prog v fun _ => prog, loaded := vmod st.motor.loaded v fun _ => true } }
      reply := [(16, 2, claimOf prog)] }

/-- VALVE.PROG. -/
def execValveProg (p : Packet) (s : State) : Answer := effect s (keeperTake valveProgOp p s)

/-- Unlock a low-side or a feed where its end condition is met; the answer says whether it stays locked (Table 06.9). -/
def unlockValveOut (s : State) (o : Nat) : State × Bool :=
  if o < 8 then
    let c := (valveOf s o).cond
    let clampOk := !c.locks.testBit 4 ||
      (if c.clampDetail = 2 then windowEnergy s.now (bankAt s 3).clamp < 1000000
       else (liveBins s.now (valveOf s o).clamp).isEmpty)
    if c.locks = 0 then (s, false)
    else if clampOk then
      let s := endVlCause (endVlCause s o 4) o 7
      (s.onValve o fun x => { x with cond := { x.cond with locks := 0, waiting := false } }, false)
    else (s, true)
  else
    let f := o - 8
    if (feedOf s f).cond.locks = 0 then (s, false)
    else ((endFeedCause s f 7).onFeed f fun x => { x with cond := { x.cond with locks := 0, waiting := false } }, false)

/-- VALVE.CONFIG (Table 06.18). -/
def valveConfigOp : Op where
  code := 0x0312
  layout := fun _ => (16, 0, 1) :: (17, 0, 2) :: (18, 0, 8) :: (20, 0, 10) ::
    (entryLayout 24 4 2 [(0, 0, 16), (2, 0, 16)] ++ entryLayout 32 4 8 [(0, 0, 16)])
  bad := fun p _ => !p.bit 16 0 &&
    ((bitList 2 (p.fld 17 0 2)).any (fun f => p.num (24 + 4 * f) 2 < 1000 || 10000 < p.num (24 + 4 * f) 2) ||
      (bitList 8 (p.num 18 1)).any fun v => p.num (32 + 4 * v) 2 == 0)
  deny := fun p s => !mayRead s p.comp 80
  agree := fun _ _ s => (List.range 8).all fun v => claimOf (progOf s v) ≤ vget s.store.motor.budget (feedIx v)
  run := fun p s =>
    let (s, stay) :=
      if p.bit 16 0 then (s, false)
      else
        let s := s.onStore fun st => { st with motor := { st.motor with
          budget := vmapIdx st.motor.budget fun f x => if p.bit 17 f then p.num (24 + 4 * f) 2 else x
          deferMax := vmapIdx st.motor.deferMax fun f x => if p.bit 17 f then p.num (26 + 4 * f) 2 else x
          fireMax := vmapIdx st.motor.fireMax fun v x => if p.bit 18 v then p.num (32 + 4 * v) 2 else x } }
        (bitList 10 (p.fld 20 0 10)).foldl (fun a o =>
          let (s, k) := unlockValveOut a.1 o
          (s, a.2 || k)) (s, false)
    { s := s
      st := some (if stay then .locked else .ok)
      reply := (16, 1, p.num 16 1) :: (17, 1, p.num 17 1) :: (18, 1, p.num 18 1) :: (20, 2, p.fld 20 0 10) ::
        ((List.range 2).flatMap (fun f =>
            [(24 + 4 * f, 2, vget s.store.motor.budget f), (26 + 4 * f, 2, vget s.store.motor.deferMax f)]) ++
          (List.range 8).map fun v => (32 + 4 * v, 2, vget s.store.motor.fireMax v)) }

/-- VALVE.CONFIG. -/
def execValveConfig (p : Packet) (s : State) : Answer := effect s (keeperTake valveConfigOp p s)

/-- A trace is being captured (Table 06.19): until its fire ends or all its samples are taken. -/
def Trace.running (t : Trace) : Bool := t.capturing && t.samples.length < t.want

/-- VALVE.TRACE (Tables 06.19, 06.20). -/
def valveTraceOp : Op where
  code := 0x0313
  slotsOk := anySlots
  layout := fun _ => [(16, 0, 2), (17, 0, 3), (18, 0, 8), (20, 0, 16), (22, 0, 16)]
  bad := fun p s =>
    match p.fld 16 0 2 with
    | 0 => p.num 18 1 == 0 || 64 < p.num 18 1 || p.num 20 2 < 64 || 2048 < p.num 20 2 || p.num 22 2 != 0
    | 1 => p.num 18 1 != 0 || p.num 22 2 == 0 || (64 * p.slots - 48) / 2 < p.num 22 2 ||
        s.motor.trace.samples.length < p.num 20 2 + p.num 22 2
    | 2 => p.num 18 1 != 0 || p.num 20 2 != 0 || p.num 22 2 != 0
    | _ => true
  deny := fun p s => !mayRead s p.comp 80
  run := fun p s =>
    let t := s.motor.trace
    match p.fld 16 0 2 with
    | 0 =>
      if t.running then { s := s, st := some .busy }
      else { s := s.onMotor fun d => { d with
          trace := { armed := true, valve := p.fld 17 0 3, decim := p.num 18 1, want := p.num 20 2 } } }
    | 1 =>
      { s := s
        reply := [(16, 8, t.start.word), (24, 2, t.status), (26, 2, t.samples.length), (28, 4, t.dipTick.getD 0xFFFFFFFF),
            (32, 2, t.dipMa), (34, 2, sat16 t.peakMa)] ++
          (List.range (p.num 22 2)).map fun i => (48 + 2 * i, 2, t.samples.getD (p.num 20 2 + i) 0) }
    | _ => if t.running then { s := s, st := some .busy }
           else { s := s.onMotor fun d => { d with trace := { d.trace with armed := false } } }

/-- VALVE.TRACE. -/
def execValveTrace (p : Packet) (s : State) : Answer := effect s (keeperTake valveTraceOp p s)

end Sys2Proof.Machine
end

