-- ==== Sys2Proof/Machine/Supply.lean ====
section
/-! DEFINITION. Bank supervision and load shedding (chapter 02, R46–R57), the voltage points, and LOAD.SHED (Table 05.14). -/

namespace Sys2Proof.Machine

/-- A supply command at a voltage inside the ratings; above 58 V no statement of the manual applies (R1, Table 02.3). -/
def rated (s : State) (mv : Nat) (t : State) : Answer := if 58000 < mv then .fault .outsideRatings else effect s t

/-- Outputs of a bank that carry a shed level: HS channels, and LS0–LS3 as 56–59 (Table 02.2, R53). -/
def shedOutputs (b : Nat) : List Nat := (List.range 60).filter fun ch => bankOf ch == b

/-- The shed level and the resume attribute of an HS or LS channel (R53). -/
def shedCfg (s : State) (ch : Nat) : ShedCfg := vget s.store.load.shed ch

/-- The condition of an HS or LS channel. -/
def outCond (s : State) (ch : Nat) : Cond := if ch < 56 then (chanOf s ch).cond else (stringOf s (ch - 56)).cond

/-- An HS or LS channel is commanded on: its D12 is not 0. A commanded value of 1 to 15, whose D12 is 0, counts as 0 in R56 (DESIGN CHOICE, log
entry 117). -/
def outWanted (s : State) (ch : Nat) : Bool := if ch < 56 then d12 (chanOf s ch).cmd != 0 else anyLitCmd s (ch - 56)

/-- A supply condition holds an HS or LS channel, which leaves the resume queue (R55, R57); the detail of SHED is the channel's shed level
(Table 05.3). -/
def holdOut (s : State) (cause ch : Nat) : State :=
  let d := if cause = 3 then (shedCfg s ch).level else 0
  let s := leaveQueue s ch
  if ch < 56 then holdChan s ch cause d else holdString s (ch - 56) cause d

/-- The hold of an HS or LS channel ends (R56). -/
def endHoldOut (s : State) (cause ch : Nat) : State :=
  if ch < 56 then endHoldChan s ch cause else endHoldString s (ch - 56) cause

/-- A rule returns an HS or LS channel to its commanded value (R56). -/
def resumeOut (s : State) (cause ch : Nat) : State :=
  if ch < 56 then resumeChan s ch cause else resumeString s (ch - 56) cause

/-- A channel takes its place in the resume queue of a bank, in ascending order (R56). -/
def queueInsert (ch cause : Nat) : List (Nat × Nat) → List (Nat × Nat)
  | [] => [(ch, cause)]
  | e :: r => if ch < e.1 then (ch, cause) :: e :: r else if ch = e.1 then (ch, cause) :: r else e :: queueInsert ch cause r

/-- A channel whose hold has ended joins the resume queue if it has the resume attribute, is commanded on and no other supply
condition holds it (R56, R57). One that a protection has locked or that is held for its temperature takes its place too, and stays off (DESIGN
CHOICE, log entry 118). -/
def joinQueue (cause : Nat) (s : State) (ch : Nat) : State :=
  if (shedCfg s ch).resume ∧ outWanted s ch ∧ !(outCond s ch).supplyHeld then
    s.onBank (bankOf ch) fun b => { b with resumeQ := queueInsert ch cause b.resumeQ }
  else s

/-- The next channel of a resume queue returns; the one after it 32 ticks later (R56). -/
def queueStep (s : State) (b : Nat) : State :=
  let x := bankAt s b
  match x.resumeQ with
  | [] => s
  | (ch, cause) :: r =>
    if x.resumeAt ≤ s.now then
      resumeOut (s.onBank b fun x => { x with resumeQ := r, resumeAt := s.now + 32 }) cause ch
    else s

/-- The next channel in a bank's resume queue returns (R56). -/
def execResumeQueueStep (b : Nat) (s : State) : Answer := effect s (queueStep s b)

/-- A supply condition of bank `b` holds the HS and LS channels of a list and, where `whole`, the half-bridges and feeds of
bank D, which are shed at level 3 (R53, R55). -/
def holdScope (s : State) (cause : Nat) (chs : List Nat) (whole : Bool) : State :=
  let d := if cause = 3 then 3 else 0
  let s := chs.foldl (fun s ch => holdOut s cause ch) s
  if whole then
    let s := (List.range 12).foldl (fun s m => holdHb s m cause d) s
    (List.range 2).foldl (fun s f => holdFeed s f cause d) s
  else s

/-- A supply condition of bank `b` recovers: the holds end, the channels with the resume attribute queue up, and the first of a
queue that was empty returns now (R56). -/
def endScope (s : State) (b cause : Nat) (chs : List Nat) (whole : Bool) : State :=
  let idle := (bankAt s b).resumeQ.isEmpty
  let held := chs.filter fun ch => (outCond s ch).holds.testBit cause
  let s := held.foldl (fun s ch => joinQueue cause (endHoldOut s cause ch) ch) s
  let s :=
    if whole then
      let s := (List.range 12).foldl (fun s m => endHoldHb s m cause) s
      (List.range 2).foldl (fun s f => endHoldFeed s f cause) s
    else s
  if idle then queueStep (s.onBank b fun x => { x with resumeAt := s.now }) b else s

/-- A supply condition of bank D stands for string `n` (Table 02.5, Table 07.3): SHED by the string's shed level. -/
def stringShort (s : State) (n cause : Nat) : Bool :=
  let x := bankAt s 3
  let l := (shedCfg s (56 + n)).level
  if cause = 1 then x.drop else if cause = 2 then x.overV else l != 0 && x.shed.testBit l

/-- A supply cause of a string (Table 07.3): it holds the string while bank D has it, and its end is followed by R56. -/
def stringSupply (s : State) (n cause : Nat) (active : Bool) : State :=
  if active then (if stringShort s n cause then holdOut s cause (56 + n) else s)
  else if stringShort s n cause then s else endScope s 3 cause [56 + n] false

/-- A string fault (R182). -/
def execStringFault (n cause detail : Nat) (active : Bool) (s : State) : Answer :=
  effect s (if cause = 1 ∨ cause = 2 ∨ cause = 3 then stringSupply s n cause active else stringFault s n cause detail active)

/-- The voltage point of bank `b`. -/
def bankPoint (b : Nat) : Nat := pointAt 83 (10 + b)

/-- The source index of a device status point of H0 or H7 (R106). -/
def statusIx (position : Nat) : Nat := 256 + position

/-- The SAG bits of the banks (R54). -/
def sagBits (s : State) : Nat := maskOf ((List.range 4).filter fun b => (bankAt s b).sag)

/-- An event of bank `b`, with its voltage (R47): it takes the hall and index of the bank's voltage point (R106). -/
def bankEvent (s : State) (kind b mv : Nat) : State :=
  observe s 7 (statusIx (10 + b)) [] [s.ev 7 kind (bankPoint b) (sat16 (mv / 10)) true]

/-- SAG of a bank changes (R54): G83:0040 and the event. -/
def setSag (s : State) (b mv : Nat) (on : Bool) : State :=
  let s := s.onBank b fun x => { x with sag := on, mv := mv }
  bankEvent (observePoint s 7 (statusIx 40) (pointAt 83 40) (BitVec.ofNat 16 (sagBits s)) []) 0x0108 b mv

/-- The thresholds of bank `b`. -/
def bankCfg (s : State) (b : Nat) : BankCfg := vget s.store.load.bank b

/-- Threshold T`n` in 0.1 V. -/
def BankCfg.t (g : BankCfg) (n : Nat) : Nat := if n = 0 then g.t0 else if n = 1 then g.t1 else if n = 2 then g.t2 else g.t3

/-- A bank crosses its warning threshold falling (R54). -/
def belowWarn (s : State) (b mv : Nat) : State :=
  if s.seq.core ∧ !(bankAt s b).sag ∧ mv < 100 * (bankCfg s b).warn then setSag s b mv true else s

/-- A bank crosses its warning threshold falling (R54). -/
def execBankBelowWarn (b mv : Nat) (s : State) : Answer := rated s mv (belowWarn s b mv)

/-- A bank has stayed 1 V above its warning threshold for 100 ms (R54). -/
def warnRecovery (s : State) (b mv : Nat) : State :=
  if s.seq.core ∧ (bankAt s b).sag ∧ 100 * (bankCfg s b).warn + 1000 < mv then setSag s b mv false else s

/-- SAG of a bank clears (R54). -/
def execBankWarnRecovery (b mv : Nat) (s : State) : Answer := rated s mv (warnRecovery s b mv)

/-- The channels of a bank at a shed level (R53). -/
def atLevel (s : State) (b level : Nat) : List Nat := (shedOutputs b).filter fun ch => (shedCfg s ch).level == level

/-- A bank has been below T`level` for 4,000 ticks (R53): SHED_ALERT at T0, else its channels are shed. -/
def shedExpiry (s : State) (b level mv : Nat) : State :=
  if s.seq.core ∧ !(bankAt s b).shed.testBit level ∧ mv < 100 * (bankCfg s b).t level then
    let s := s.onBank b fun x => { x with shed := setBit x.shed level true, mv := mv }
    if level = 0 then bankEvent s 0x0109 b mv else holdScope s 3 (atLevel s b level) (b == 3 && level == 3)
  else s

/-- A shed count completes (R53). -/
def execShedCountExpiry (b level mv : Nat) (s : State) : Answer := rated s mv (shedExpiry s b level mv)

/-- A bank has stayed 1 V above T`level` for 100 ms (R56). -/
def shedRecovery (s : State) (b level mv : Nat) : State :=
  if s.seq.core ∧ (bankAt s b).shed.testBit level ∧ 100 * (bankCfg s b).t level + 1000 < mv then
    let s := s.onBank b fun x => { x with shed := setBit x.shed level false, mv := mv }
    if level = 0 then s else endScope s b 3 (atLevel s b level) (b == 3 && level == 3)
  else s

/-- A shed condition ends (R56). -/
def execShedRecovery (b level mv : Nat) (s : State) : Answer := rated s mv (shedRecovery s b level mv)

/-- A bank falls below 6.0 V (R55). -/
def bankDropout (s : State) (b mv : Nat) : State :=
  if s.seq.core ∧ !(bankAt s b).drop ∧ mv < 6000 then
    holdScope (s.onBank b fun x => { x with drop := true, mv := mv }) 1 (shedOutputs b) (b == 3)
  else s

/-- Drop-out of a bank (R55). -/
def execBankDropout (b mv : Nat) (s : State) : Answer := rated s mv (bankDropout s b mv)

/-- A bank has stayed above 7.0 V for 100 ms (R56). -/
def dropoutRecovery (s : State) (b mv : Nat) : State :=
  if s.seq.core ∧ (bankAt s b).drop ∧ 7000 < mv then
    endScope (s.onBank b fun x => { x with drop := false, mv := mv }) b 1 (shedOutputs b) (b == 3)
  else s

/-- A drop-out ends (R56). -/
def execDropoutRecovery (b mv : Nat) (s : State) : Answer := rated s mv (dropoutRecovery s b mv)

/-- A bank rises above 52.0 V (R55). -/
def bankOvervolt (s : State) (b mv : Nat) : State :=
  if s.seq.core ∧ !(bankAt s b).overV ∧ 52000 < mv then
    holdScope (s.onBank b fun x => { x with overV := true, mv := mv }) 2 (shedOutputs b) (b == 3)
  else s

/-- Overvoltage of a bank (R55). -/
def execBankOvervolt (b mv : Nat) (s : State) : Answer := rated s mv (bankOvervolt s b mv)

/-- A bank has stayed below 51.0 V for 100 ms (R56). -/
def overvoltRecovery (s : State) (b mv : Nat) : State :=
  if s.seq.core ∧ (bankAt s b).overV ∧ mv < 51000 then
    endScope (s.onBank b fun x => { x with overV := false, mv := mv }) b 2 (shedOutputs b) (b == 3)
  else s

/-- An overvoltage ends (R56). -/
def execOvervoltRecovery (b mv : Nat) (s : State) : Answer := rated s mv (overvoltRecovery s b mv)

/-- A bank crosses 40.0 V rising or 39.0 V falling (Table 02.5). -/
def diagnosisLimit (s : State) (b mv : Nat) : State :=
  if !s.seq.core then s
  else if 40000 < mv then s.onBank b fun x => { x with diagOff := true, mv := mv }
  else if mv < 39000 then s.onBank b fun x => { x with diagOff := false, mv := mv }
  else s

/-- Diagnosis is suspended or resumed (R46, Table 02.5). -/
def execDiagnosisLimit (b mv : Nat) (s : State) : Answer := rated s mv (diagnosisLimit s b mv)

/-- A window that runs freezes (R131). -/
def Window.freeze (now : Nat) (w : Window) : Window := if w.frozen.isSome then w else { w with frozen := some now }

/-- Change every window that runs on a bank: inrush windows of its HS channels and, on bank D, those and the stall timers of the motors and the soft starts
of the strings (R131, R153, R179). -/
def mapWindows (s : State) (b : Nat) (f : Window → Window) : State :=
  let s := s.onLoad fun d => { d with ch := vmapIdx d.ch fun ch c => if bankOf ch = b then { c with window := c.window.map f } else c }
  if b = 3 then
    let s := s.onMotor fun d => { d with hb := d.hb.map fun x => { x with window := x.window.map f, stall := x.stall.map f } }
    s.onLight fun l => { l with string := l.string.map fun x => { x with soft := x.soft.map f } }
  else s

/-- Some window runs on a bank (R131). -/
def anyWindow (s : State) (b : Nat) : Bool :=
  ((List.range 56).any fun ch => bankOf ch == b && (chanOf s ch).window.isSome) ||
    (b == 3 && ((List.range 12).any (fun m => (hbOf s m).window.isSome || (hbOf s m).stall.isSome) || (List.range 4).any fun n => (stringOf s n).soft.isSome))

/-- A bank crosses its dip level (R131): its windows freeze, or count again. -/
def bankDip (s : State) (b mv : Nat) : State :=
  let x := bankAt s b
  if s.seq.core ∧ !x.dip ∧ mv < 100 * (bankCfg s b).dip then
    let s := s.onBank b fun x => { x with dip := true, dipCounted := false, mv := mv }
    if anyWindow s b then noteFreeze (mapWindows s b (Window.freeze s.now)) b else s
  else if s.seq.core ∧ x.dip ∧ 100 * (bankCfg s b).dip ≤ mv then
    mapWindows (s.onBank b fun x => { x with dip := false, mv := mv }) b fun w => if w.frozen.isSome then w.thaw s.now else w
  else s

/-- A bank crosses its dip level (R131). -/
def execBankDip (b mv : Nat) (s : State) : Answer := rated s mv (bankDip s b mv)

/-- A voltage point is rewritten (R47): the measurement has moved by 10 counts, or the tick count is a multiple of 8,000. `which` 4 is
VBATL. -/
def voltageRewrite (s : State) (which mv : Nat) : State :=
  let v := mv / 10
  let last := if which = 4 then s.seq.vbatlWritten else (bankAt s which).written
  if s.seq.core ∧ s.plane.running ∧ (10 ≤ (v - last) + (last - v) ∨ s.wallTick % 8000 = 0) then
    if which = 4 then
      observePoint (s.onSeq fun q => { q with vbatl := mv, vbatlWritten := v }) 0 (statusIx 20) (pointAt 83 20) (BitVec.ofNat 16 v) []
    else
      observePoint (s.onBank which fun x => { x with mv := mv, written := v }) 7 (statusIx (10 + which)) (bankPoint which)
        (BitVec.ofNat 16 v) []
  else s

/-- A voltage point is rewritten (R47). -/
def execVoltagePointRewrite (which mv : Nat) (s : State) : Answer := rated s mv (voltageRewrite s which mv)

/-! LOAD.SHED. -/

/-- The thresholds that a packet gives bank `b` (Table 05.14). -/
def bankCfgOf (p : Packet) (b : Nat) : BankCfg :=
  let a := 24 + 8 * b
  { warn := p.num a 1, t0 := p.num (a + 1) 1, t1 := p.num (a + 2) 1, t2 := p.num (a + 3) 1, t3 := p.num (a + 4) 1
    dip := p.num (a + 5) 1 }

/-- A threshold outside its range (Table 05.14). -/
def BankCfg.bad (g : BankCfg) : Bool :=
  g.warn < 120 || 220 < g.warn || [g.t0, g.t1, g.t2, g.t3].any (fun t => t < 70 || 220 < t) || g.dip < 80 || 220 < g.dip

/-- The order of R52 and the DIP and WARN pair (Table 05.14). -/
def BankCfg.agrees (g : BankCfg) : Bool := g.t1 + 5 ≤ g.t0 && g.t2 + 5 ≤ g.t1 && g.t3 + 5 ≤ g.t2 && g.dip + 5 ≤ g.warn

/-- A channel's SHED hold follows the condition of its new level (Table 05.14). -/
def relevel (s : State) (ch : Nat) : State :=
  let b := bankOf ch
  let l := (shedCfg s ch).level
  let due := l != 0 && (bankAt s b).shed.testBit l
  let held := (outCond s ch).holds.testBit 3
  if held ∧ !due then
    let idle := (bankAt s b).resumeQ.isEmpty
    let s := joinQueue 3 (endHoldOut s 3 ch) ch
    if idle then s.onBank b fun x => { x with resumeAt := s.now } else s
  else if due ∧ !held then holdOut s 3 ch
  else s

/-- LOAD.SHED (Table 05.14, R52). -/
def loadShedOp : Op where
  code := 0x0205
  slotsOk := fun p => p.slotsField == 2
  layout := fun _ => (16, 0, 1) :: (17, 0, 4) ::
    (entryLayout 24 8 4 [(0, 0, 48)] ++ entryLayout 56 1 60 [(0, 0, 3), (0, 7, 1)])
  bad := fun p _ => !p.bit 16 0 && (bitList 4 (p.fld 17 0 4)).any fun b => (bankCfgOf p b).bad
  deny := fun p s => !mayRead s p.comp 80
  agree := fun _ _ s => (List.range 4).all fun b => (bankCfg s b).agrees
  run := fun p s =>
    let s :=
      if p.bit 16 0 then s
      else
        let chs := (List.range 60).filter fun ch => p.bit (56 + ch) 7
        let s := s.onStore fun st => { st with load := { st.load with
          bank := vmapIdx st.load.bank fun b g => if p.bit 17 b then bankCfgOf p b else g
          shed := vmapIdx st.load.shed fun ch g =>
            if p.bit (56 + ch) 7 then { level := p.fld (56 + ch) 0 2, resume := p.bit (56 + ch) 2 } else g } }
        let s := chs.foldl relevel s
        (List.range 4).foldl queueStep s
    { s := s
      reply :=
        ((List.range 4).flatMap (fun b =>
            let g := bankCfg s b
            let a := 24 + 8 * b
            [(a, 1, g.warn), (a + 1, 1, g.t0), (a + 2, 1, g.t1), (a + 3, 1, g.t2), (a + 4, 1, g.t3), (a + 5, 1, g.dip)]) ++
          (List.range 60).map fun ch => (56 + ch, 1, (shedCfg s ch).level + 4 * b2n (shedCfg s ch).resume)) }

/-- LOAD.SHED. -/
def execLoadShed (p : Packet) (s : State) : Answer := effect s (keeperTake loadShedOp p s)

end Sys2Proof.Machine
end

