-- ==== Sys2Proof/Machine/Outputs.lean ====
section
/-! DEFINITION. Events that any output of the power die can meet: hard short, clamp event, thermal shutdown and restart, period start,
and the bins of the clamp windows (R122, R129, R132, R133, R137). -/

namespace Sys2Proof.Machine

/-- An output's hard-short comparator turns it off (R129, Tables 06.3, 06.9, 07.3). -/
def hardShort (s : State) (o : OutputId) (mA : Nat) : State :=
  match o.kind with
  | 0 => hardShortHs s o.index mA
  | 1 => hardShortHb s o.index mA
  | 2 => hardShortVl s o.index mA
  | 3 => hardShortVf s o.index mA
  | 4 => hardShortLs s o.index mA
  | _ => s

/-- A hard short (R129). -/
def execHardShort (x : Overcurrent) (s : State) : Answer := effect s (hardShort s x.output x.mA)

/-- A clamp event ends (R133, R166); half-bridges, feeds and strings keep no clamp accounting (R154). -/
def clampEnd (s : State) (o : OutputId) (uJ : Nat) : State :=
  match o.kind with
  | 0 => clampHs s o.index uJ
  | 2 => clampVl s o.index uJ
  | _ => s

/-- A clamp event ends (R133). -/
def execClampEventEnd (o : OutputId) (uJ : Nat) (s : State) : Answer := effect s (clampEnd s o uJ)

/-- A junction reaches T_SD (R137, Tables 06.3, 06.9, 07.3). -/
def thermalShutdown (s : State) (o : OutputId) : State :=
  match o.kind with
  | 0 => thermalHs s o.index
  | 1 => hbFault s o.index 6 0 true
  | 2 => valveFault s o.index 6 0 true
  | 3 => valveFault s (8 + o.index) 6 0 true
  | 4 => thermalLs s o.index
  | _ => s

/-- A thermal shutdown (R137). -/
def execThermalShutdown (o : OutputId) (s : State) : Answer := effect s (thermalShutdown s o)

/-- An output has cooled by T_HYS (R137). -/
def thermalRestart (s : State) (o : OutputId) : State :=
  match o.kind with
  | 0 => thermalRestartHs s o.index
  | 1 => hbFault s o.index 6 0 false
  | 2 => valveFault s o.index 6 0 false
  | 3 => valveFault s (8 + o.index) 6 0 false
  | 4 => thermalRestartLs s o.index
  | _ => s

/-- An output has cooled (R137). -/
def execThermalRestart (o : OutputId) (s : State) : Answer := effect s (thermalRestart s o)

/-- Ten seconds pass without a thermal shutdown (R137); only HS channels and strings count restarts. -/
def restartReset (s : State) (o : OutputId) : State :=
  match o.kind with
  | 0 => restartResetHs s o.index
  | 4 => restartResetLs s o.index
  | _ => s

/-- The restart count returns to 0 (R137). -/
def execRestartCountReset (o : OutputId) (s : State) : Answer := effect s (restartReset s o)

/-- A drive period of 400 ticks starts (R122, R151): it takes the duty last commanded, and its on-phase begins. -/
def periodHb (s : State) (m : Nat) : State :=
  s.onHb m fun x =>
    if x.drive.drives ∧ (s.now - x.periodAt) % 400 = 0 then
      let d := if x.pinch = 0 then dutyOf x.cmd else x.duty
      { x with duty := d, onUntil := s.now + driveOnTicks d }
    else x

/-- A period start (R122, R163, R178). -/
def periodStart (s : State) (o : OutputId) : State :=
  match o.kind with
  | 0 => periodHs s o.index
  | 1 => periodHb s o.index
  | 2 => periodVl s o.index
  | 4 => periodLs s o.index
  | _ => s

/-- A period start (R122). -/
def execPwmPeriodStart (o : OutputId) (s : State) : Answer := effect s (periodStart s o)

/-- The package manager cuts the next channel (R139); its averages may end the refusals of R154. -/
def execThermalManagerCut (th : Thermals) (mW mA : Nat) (s : State) : Answer := effect s (endRefusals (managerCut s th mW mA))

/-- A cut channel's turn comes (R140). -/
def execThermalManagerReturn (th : Thermals) (s : State) : Answer := effect s (endRefusals (managerReturn s th))

/-- The clamp windows slide (R132): bins that no longer count drop out, and a window below 75 % of its figure may warn again. -/
def binExpiry (s : State) : State :=
  let t := s.now
  let s := s.onLoad fun d => { d with
    ch := vmapIdx d.ch fun ch c =>
      { c with clamp := liveBins t c.clamp
               clampWarned := c.clampWarned && decide (windowFigure (classOf ch) * 3 ≤ windowEnergy t c.clamp * 4) }
    bank := d.bank.map fun b =>
      { b with clamp := liveBins t b.clamp, clampWarned := b.clampWarned && decide (750000 ≤ windowEnergy t b.clamp) } }
  s.onMotor fun d => { d with valve := d.valve.map fun x => { x with clamp := liveBins t x.clamp } }

/-- The oldest bin of each clamp window drops out (R132). -/
def execClampWindowBinExpiry (s : State) : Answer := effect s (binExpiry s)

end Sys2Proof.Machine
end

