-- ==== Sys2Proof/Machine/Reflex.lean ====
section
/-! DEFINITION. The reflex engine (chapter 04): evaluation of changes, actions, running pulses and ramps, and the reflex
opcodes. -/

namespace Sys2Proof.Machine

/-- The point value of a number. -/
def toP (n : Nat) : PVal := BitVec.ofNat 16 n

/-- KIND of a rule matches a change from old to new (Table 04.14); `armed` matters for ABOVE and BELOW. -/
def Rule.hit (r : Rule) (armed : Bool) (old new : PVal) : Bool :=
  if r.kind = 0 then old == 0 && new != 0
  else if r.kind = 1 then old != 0 && new == 0
  else if r.kind = 2 then true
  else if r.kind = 3 then r.a ≤ new.toNat && new.toNat ≤ r.b
  else if r.kind = 4 then armed && r.a ≤ new.toNat
  else if r.kind = 5 then armed && new.toNat ≤ r.a
  else false

/-- A change re-arms an ABOVE or BELOW rule (Table 04.14). -/
def Rule.rearms (r : Rule) (new : PVal) : Bool :=
  (r.kind == 4 && new.toNat < r.a - r.b) || (r.kind == 5 && r.a + r.b < new.toNat)

/-- An ABOVE or BELOW rule is armed when it is enabled at value `v` of its trigger (Table 04.14). -/
def Rule.armsAt (r : Rule) (v : PVal) : Bool :=
  (r.kind == 4 && v.toNat < r.a) || (r.kind == 5 && r.a < v.toNat)

/-- The gate is true (R115): the value of GATE at the end of the tick before. -/
def gateTrue (s : State) (r : Rule) : Bool :=
  !r.gateEn || ((pprev s r.gate != 0) != r.gateInv)

/-- Set the arming of a rule. -/
def setArmed (s : State) (i : Nat) (b : Bool) : State :=
  s.onPoints fun p => { p with armed := Tbl.put p.armed false i b }

/-- A reflex write of a rule (R104, R106). -/
def reflexWrite (s : State) (i : Nat) (r : Rule) (pt : Nat) (v : PVal) (trig : Nat) : State :=
  (writePoint s { pt := pt, v := v, kind := .reflex, comp := r.owner, hall := 3, idx := i, trig := some trig, own := r.action == 1 }).1

/-- The value of a ramp at step `k`: S + (VALUE − S) × k / DURATION, truncated toward S (Table 04.15). -/
def rampValue (start value : PVal) (k duration : Nat) : PVal :=
  BitVec.ofInt 16 ((start.toNat : Int) + Int.tdiv (((value.toNat : Int) - start.toNat) * k) duration)

/-- The actions that run, without the one on a point. -/
def endAction (s : State) (pt : Nat) : State := s.onPoints fun p => { p with running := p.running.filter fun a => !(a.pt == pt) }

/-- An action runs on its target, in place of one before it (R105). -/
def runAction (s : State) (a : RunAct) : State := (endAction s a.pt).onPoints fun p => { p with running := a :: p.running }

/-- Write a ramp's value at step `k` where bits [15:4] change, or where it is the last step, with which the ramp ends (Table 04.15). The latency of
a ramp is measured at its first written step (R118). -/
def rampWrite (s : State) (a : RunAct) (k : Nat) : State :=
  let v := rampValue a.start a.value k a.duration
  let last := k == a.duration
  let due : Bool := last || v.toNat / 16 != (pget s a.pt).toNat / 16
  let s := if last then endAction s a.pt else runAction s { a with k := k, written := a.written || due }
  if due then
    (writePoint s { pt := a.pt, v := v, kind := .reflex, comp := a.owner, hall := 3, idx := a.rule
                    trig := if a.written then none else some a.trig, own := true }).1
  else s

/-- Count a SKIPPED action (R119). -/
def countSkipped (s : State) : State :=
  s.onPoints fun p => { p with stats := { p.stats with skipped := satAdd32 p.stats.skipped 1 } }

/-- Carry out one action of a rule in this tick (Table 04.15). -/
def doAction (s : State) (a : PendAct) : State :=
  let r := a.rule
  let s := s.onPoints fun p => { p with actsNow := p.actsNow + 1 }
  if r.action = 0 then reflexWrite s a.index r r.target (toP r.value) a.trigLin
  else if r.action = 1 then
    let ret := match s.points.running.find? (fun x => x.pt == r.target && !x.ramp && x.rule == a.index) with
      | some x => x.start
      | none => pget s r.target
    runAction (reflexWrite s a.index r r.target (toP r.value) a.trigLin)
      { pt := r.target, ramp := false, rule := a.index, owner := r.owner, fire := s.plane.lin
        duration := r.duration, start := ret, value := toP r.value }
  else if r.action = 2 then
    let act : RunAct :=
      { pt := r.target, ramp := true, rule := a.index, owner := r.owner, fire := s.plane.lin, duration := r.duration
        start := pget s r.target, value := toP r.value, trig := a.trigLin }
    rampWrite s act 1
  else if r.action = 3 then
    let (s, ok) := reflexPattern s r.index (r.value == 0)
    if ok then s else countSkipped s
  else if r.action = 4 then
    let (s, ok) := reflexTemplate s r.index a.index
    if ok then s else countSkipped s
  else postEvent s { s.ev 3 0x0403 a.trigPt r.value true r.owner with stamp := stampOf s a.trigLin }

/-- An action takes its turn: at most 32 in a tick, the others wait in order and count as DEFERRED (R117). -/
def queueAction (s : State) (a : PendAct) : State :=
  if s.points.actsNow < 32 ∧ s.points.actQueue = [] then doAction s a
  else (bump s 6 3 1).onPoints fun p => { p with
    actQueue := p.actQueue ++ [a], stats := { p.stats with deferred := satAdd32 p.stats.deferred 1 } }

/-- A rule fires on a change (R115): its count, REFLEX_FIRED where POST asks, its action. -/
def fireRule (s : State) (i : Nat) (r : Rule) (c : Change) : State :=
  let s := s.onPoints fun p => { p with fires := Tbl.put p.fires 0 i (satAdd32 (Tbl.get p.fires 0 i) 1) }
  let s := if (r.kind = 4 ∨ r.kind = 5) ∧ ruleAt s i = r then setArmed s i false else s
  let s :=
    if r.post then
      postEvent s { s.ev 3 0x0402 (if r.action ≤ 2 then r.target else r.trig) i true r.owner with stamp := stampOf s c.lin }
    else s
  queueAction s { index := i, rule := r, trigPt := c.pt, trigLin := c.lin }

/-- The arming of a rule that was in force at a stamp: a rule that has been changed since keeps the arming it had then (R86). -/
def armedAt (s : State) (t : Stamp) (i : Nat) : Bool :=
  match oldSettings s t with
  | some o => if Tbl.get o.rules {} i = ruleAt s i then Tbl.get s.points.armed false i else Tbl.get o.armed false i
  | none => Tbl.get s.points.armed false i

/-- Evaluate one rule for one change (R115), as it stood at the change's stamp (R86). -/
def evalRule (c : Change) (s : State) (i : Nat) : State :=
  let t := stampOf s c.lin
  let r := Tbl.get (rulesAt s t) {} i
  if !r.watches c.pt then s
  else
    let armed := armedAt s t i
    if r.hit armed c.old c.new && gateTrue s r then fireRule s i r c
    else if r.rearms c.new ∧ ruleAt s i = r then setArmed s i true else s

/-- Evaluate one change: the matching rules in ascending index (R116). -/
def evalChange (s : State) (c : Change) : State :=
  let s := (bump s 6 0 1).onPoints fun p => { p with
    evalNow := p.evalNow + 1, stats := { p.stats with evaluated := satAdd32 p.stats.evaluated 1 } }
  ((rulesAt s (stampOf s c.lin)).map (·.1)).foldl (evalRule c) s

/-- Changes that remain after the evaluation of a tick count as QUEUED once (R117). -/
def countQueued (s : State) : State :=
  let fresh := (s.points.queue.filter fun c => !c.counted).length
  (bump s 6 1 fresh).onPoints fun p =>
    { p with
      queue := p.queue.map fun c => { c with counted := true }
      stats := { p.stats with
        queued := satAdd32 p.stats.queued fresh, queueMax := max p.stats.queueMax p.queue.length } }

/-- The queue holds 4,096 changes: further ones are dropped and counted as OVERFLOW, the youngest first (R117). -/
def dropChanges (s : State) : State :=
  let n := s.points.queue.length - 4096
  s.onPoints fun p => { p with
    queue := p.queue.take 4096, overflowNow := p.overflowNow + n, stats := { p.stats with overflow := satAdd32 p.stats.overflow n } }

/-- The reflex engine evaluates queued and new changes in their order, at most 16 in a tick; those that remain are queued (R116, R117). -/
def reflexEvaluate (s : State) : State :=
  let n := 16 - s.points.evalNow
  let l := s.points.queue
  let s := s.onPoints fun p => { p with queue := l.drop n }
  countQueued (dropChanges ((l.take n).foldl evalChange s))

/-- The reflex engine evaluates changes (R116, R117), once the inputs of the tick have been released (R20). -/
def execReflexEvaluate (s : State) : Answer := effect s (if inputsIn s then reflexEvaluate s else s)

/-- Deferred actions are applied ahead of new ones, at most 32 in the tick (R117). -/
def deferredActions (s : State) : State :=
  let n := 32 - s.points.actsNow
  let l := s.points.actQueue
  let s := s.onPoints fun p => { p with actQueue := l.drop n }
  (l.take n).foldl doAction s

/-- Actions beyond 32 of the tick before are applied (R117). -/
def execReflexActionDeferred (s : State) : Answer := effect s (if inputsIn s then deferredActions s else s)

/-- A pulse that has reached its DURATION ends and returns its target (Table 04.15). -/
def pulseEnd (s : State) (pt : Nat) : State :=
  match s.points.running.find? (fun x => x.pt == pt && !x.ramp) with
  | some a =>
    if a.fire + a.duration ≤ s.plane.lin then
      (writePoint (endAction s pt) { pt := pt, v := a.start, kind := .reflex, comp := a.owner, hall := 3, idx := a.rule, own := true }).1
    else s
  | none => s

/-- A PULSE action ends (R105). -/
def execPulseEnd (pt : Nat) (s : State) : Answer := effect s (if inputsIn s then pulseEnd s pt else s)

/-- A ramp takes the step of this tick (Table 04.15). -/
def rampStep (s : State) (pt : Nat) : State :=
  match s.points.running.find? (fun x => x.pt == pt && x.ramp) with
  | some a =>
    let k := min a.duration (s.plane.lin - a.fire + 1)
    if a.k < k then rampWrite s a k else s
  | none => s

/-- A RAMP action writes its next step (R105). -/
def execRampStep (pt : Nat) (s : State) : Answer := effect s (if inputsIn s then rampStep s pt else s)

/-- What the reflex engine does in a tick (R108, R116, R117): the actions of before, running actions in ascending order of their targets, and the
evaluation of changes. -/
def reflexTick (s : State) : State :=
  let s := deferredActions s
  let l := (s.points.running.foldl (fun t a => Tbl.put t false a.pt true) []).map (·.1)
  reflexEvaluate (l.foldl (fun s pt => rampStep (pulseEnd s pt) pt) s)

/-! Reflex opcodes. -/

/-- FIRST and COUNT of REFLEX.LOAD. -/
def loadFirst (p : Packet) : Nat := p.num 16 2

/-- COUNT of REFLEX.LOAD. -/
def loadCount (p : Packet) : Nat := p.num 18 1

/-- Rule `i` of REFLEX.LOAD (Table 04.13). -/
def ruleOf (p : Packet) (i : Nat) : Rule :=
  let b := 32 + 32 * i
  { used := true, enabled := p.bit 19 0, owner := p.comp, trig := p.fld b 0 19, kind := p.fld b 19 3
    a := p.num (b + 4) 2, b := p.num (b + 6) 2, gate := p.fld (b + 8) 0 19, gateEn := p.bit (b + 8) 19
    gateInv := p.bit (b + 8) 20, action := p.fld (b + 12) 0 4, post := p.bit (b + 12) 4, index := p.num (b + 13) 1
    target := p.fld (b + 16) 0 19, value := p.num (b + 20) 2, duration := p.num (b + 24) 4 }

/-- The rules REFLEX.LOAD carries with their indices. -/
def loadRules (p : Packet) : List (Nat × Rule) :=
  (List.range (loadCount p)).map fun i => (loadFirst p + i, ruleOf p i)

/-- The action writes a target point. -/
def Rule.writes (r : Rule) : Bool := r.action ≤ 2

/-- A rule breaks a range of Table 04.13: S_BADARG. -/
def Rule.bad (r : Rule) : Bool :=
  6 ≤ r.kind || 6 ≤ r.action ||
  (if r.action = 1 ∨ r.action = 2 then r.duration == 0 || 80000000 < r.duration else r.duration != 0) ||
  !ruleTrigger r.trig || (r.writes && !assigned r.target) || (!r.writes && r.target != 0) ||
  (!r.gateEn && (r.gate != 0 || r.gateInv)) || 96 ≤ gallery r.gate ||
  (r.action = 3 && (31 < r.index || 1 < r.value)) || (r.action = 4 && r.value != 0) ||
  (r.action != 3 && r.action != 4 && r.index != 0) || ((r.kind = 0 || r.kind = 1 || r.kind = 2) && (r.a != 0 || r.b != 0))

/-- A rule breaks a right of its issuer: S_DENIED. -/
def Rule.denied (s : State) (c : Nat) (r : Rule) : Bool :=
  !mayRead s c (gallery r.trig) || (r.gateEn && !mayRead s c (gallery r.gate)) ||
  (r.writes && (!mayWrite s c (gallery r.target) || !ruleTarget r.target)) ||
  (c != 0 && r.action = 3 && (match patternOwner s r.index with | some o => o != c | none => false)) ||
  (c != 0 && r.action = 4 && (match templateOwner s r.index with | some o => o != c | none => false))

/-- A and B agree with KIND (Table 04.14). -/
def Rule.agrees (r : Rule) : Bool :=
  (r.kind != 3 || r.a ≤ r.b) && (r.kind != 4 || r.b ≤ r.a) && (r.kind != 5 || r.a + r.b ≤ 65535)

/-- At most 16 rules name one point as their trigger (R117). -/
def triggersFit (rules : Tbl Rule) : Bool :=
  rules.all fun e => (rules.filter fun x => x.2.used && x.2.trig == e.2.trig).length ≤ 16

/-- Put rules into the engine; an enabled one takes its arming from its trigger (Table 04.14). -/
def putRules (s : State) (l : List (Nat × Rule)) : State :=
  l.foldl (fun s e =>
    let s := s.onStore fun st => { st with rules := Tbl.put st.rules {} e.1 e.2 }
    setArmed s e.1 (e.2.enabled && e.2.armsAt (pget s e.2.trig))) s

/-- REFLEX.LOAD (Table 04.17). -/
def reflexLoadOp : Op where
  code := 0x0500
  slotsOk := anySlots
  layout := fun p => (16, 0, 16) :: (18, 0, 8) :: (19, 0, 1) ::
    entryLayout 32 32 (min (loadCount p) 31)
      [(0, 0, 22), (4, 0, 16), (6, 0, 16), (8, 0, 21), (12, 0, 5), (13, 0, 8), (16, 0, 19), (20, 0, 16), (24, 0, 32)]
  bad := fun p _ =>
    loadCount p == 0 || 2 * p.slots - 1 < loadCount p || 1024 < loadFirst p + loadCount p ||
      (loadRules p).any fun e => e.2.bad
  deny := fun p s => (loadRules p).any fun e =>
    e.2.denied s p.comp || (p.comp != 0 && (ruleAt s e.1).used && (ruleAt s e.1).owner != p.comp)
  agree := fun p _ s =>
    triggersFit s.store.rules && (loadRules p).all fun e =>
      let r := ruleAt s e.1
      r.agrees && (!r.used || ((r.action != 3 || (patternOwner s r.index).isSome) &&
        (r.action != 4 || (templateOwner s r.index).isSome)))
  run := fun p s => { s := putRules s (loadRules p), reply := [(16, 2, loadFirst p), (18, 1, loadCount p)] }

/-- REFLEX.LOAD. -/
def execReflexLoad (p : Packet) (s : State) : Answer := effect s (keeperTake reflexLoadOp p s)

/-- The used rules in a range of indices. -/
def usedRules (s : State) (first count : Nat) : List (Nat × Rule) :=
  s.store.rules.filter fun e => e.2.used && first ≤ e.1 && e.1 < first + count

/-- End the running actions of a rule (Table 04.18): a pulse writes its return value, a ramp stays where it stands. -/
def stopActions (s : State) (i : Nat) : State :=
  let mine := s.points.running.filter fun a => a.rule == i
  let s := s.onPoints fun p => { p with running := p.running.filter fun a => !(a.rule == i) }
  mine.foldl (fun s a =>
    if a.ramp then s
    else (writePoint s { pt := a.pt, v := a.start, kind := .reflex, comp := a.owner, hall := 3, idx := i }).1) s

/-- REFLEX.ENABLE (Table 04.18). -/
def reflexEnableOp : Op where
  code := 0x0501
  layout := fun _ => [(16, 0, 16), (18, 0, 16), (20, 0, 2)]
  bad := fun p _ => p.num 18 2 == 0 || 1024 < p.num 16 2 + p.num 18 2
  deny := fun p s => p.comp != 0 && (usedRules s (p.num 16 2) (p.num 18 2)).any fun e => e.2.owner != p.comp
  run := fun p s =>
    let l := usedRules s (p.num 16 2) (p.num 18 2)
    let s := l.foldl (fun s e =>
      let en := p.bit 20 0
      let s := s.onStore fun st => { st with rules := Tbl.put st.rules {} e.1 { e.2 with enabled := en } }
      let s := if en ∧ !e.2.enabled then setArmed s e.1 (e.2.armsAt (pprev s e.2.trig)) else s
      if p.bit 20 1 then stopActions s e.1 else s) s
    { s := s }

/-- REFLEX.ENABLE. -/
def execReflexEnable (p : Packet) (s : State) : Answer := effect s (keeperTake reflexEnableOp p s)

/-- REFLEX.STATS (Tables 04.19, 04.20). -/
def reflexStatsOp : Op where
  code := 0x0502
  slotsOk := anySlots
  layout := fun _ => [(16, 0, 16), (18, 0, 16), (20, 0, 1)]
  bad := fun p _ => (64 * p.slots - 48) / 4 < p.num 18 2 || 1024 < p.num 16 2 + p.num 18 2
  deny := fun p s => p.bit 20 0 && p.comp != 0 && !(charterOf s p.comp).mayCharter
  run := fun p s =>
    let x := s.points.stats
    let f := p.num 16 2
    { s := if p.bit 20 0 then s.onPoints fun q => { q with stats := {}, fires := [] } else s
      reply := [(16, 4, x.evaluated), (20, 4, x.queued), (24, 2, sat16 x.queueMax), (26, 2, sat16 x.latMax),
        (28, 4, x.latOver), (32, 4, x.overflow), (36, 4, x.discarded), (40, 4, x.deferred), (44, 4, x.skipped)] ++
        (List.range (p.num 18 2)).map fun i => (48 + 4 * i, 4, Tbl.get s.points.fires 0 (f + i)) }

/-- REFLEX.STATS. -/
def execReflexStats (p : Packet) (s : State) : Answer := effect s (keeperTake reflexStatsOp p s)

end Sys2Proof.Machine
end

