-- ==== Sys2Proof/Machine/ResetOps.lean ====
section
/-! DEFINITION. The shared operations of resets (chapter 02, R63–R65, and Table 01.5): what each kind clears, packets that a reset ends,
and the packet that stands at the head of a ring. -/

namespace Sys2Proof.Machine

/-! Packets of a ring. -/

/-- Complete every packet of a ring that is visible and not admitted, with one status, in slot order. -/
def endUnadmitted (st : Status) (r : Nat) : Nat → State → State
  | 0, s => s
  | n + 1, s =>
    if headWhole s r then
      let p := ringPacket s r
      endUnadmitted st r n (completeAt (takeIn s p) p st [] s.wallStamp)
    else s

/-- The unadmitted packets of compartments C1–C13 that `f` holds of complete with S_FAULT (R63, Table 01.5). -/
def faultUnadmitted (s : State) (f : Nat → Bool) : State :=
  (packetRings.filter fun r =>
    match ringOwner (chartersInForce s) r with
    | some c => 1 ≤ c && c ≤ 13 && f c
    | none => false).foldl (fun s r => endUnadmitted .hwFault r 4096 s) s

/-! What resets clear (Table 02.9). -/

/-- Rebuild a table with changed values. -/
def retable {α : Type} [DecidableEq α] (t : Tbl α) (d : α) (f : α → α) : Tbl α :=
  t.foldl (fun r e => Tbl.put r d e.1 (f e.2)) []

/-- The store and the RTC that stand behind a replay's view (R43), and without one the device's own: the counters and packet numbers used meanwhile stay used
(R271, R313). -/
def realStore (s : State) : Store × Rtc :=
  match s.saved with
  | some (st, rtc) =>
    ({ st with keys := keepCounters st.keys s.store.keys, eth := { st.eth with sas := keepPns st.eth.sas s.store.eth.sas } }, rtc)
  | none => (s.store, s.rtc)

/-- The store and the RTC that a reset leaves: a replay view is discarded (R43), the open segment is lost with the keeper SRAM (R380), and
invocation counters resume at the next reserved block (R313). -/
def keptStore (s : State) : Store × Rtc :=
  let (st, rtc) := realStore s
  ({ st with
    log := { st.log with opened := none }
    keys := retable st.keys {} fun x => { x with counter := x.commit, past := [] } }, rtc)

/-- The capture records that stay in the MRAM (R40). -/
def keptCapture (c : Capture) : Capture := { area := c.area, areaBytes := c.areaBytes }

/-- The power die forgets which packets wait for its motors and valves: their rings are gone (R67). A run whose value has not reached the die is gone with
them, and every command of the new epoch is later than the others. -/
def losePackets (d : MotorDie) : MotorDie :=
  { d with
    hb := d.hb.map fun x => { x with run := (x.run.filter (·.seen)).map fun r => { r with lost := true, lin := 0 } }
    valve := d.valve.map fun v => { v with packet := none } }

/-- What a logic reset clears: all SRAM, the point memory, ring control and device status blocks, key slots in SRAM, watch-room counters
and a capture in progress; it keeps the retention block, the power die, the field die and the MRAM (Table 02.9). -/
def clearLogic (s : State) : State :=
  let k := keptStore s
  { s with
    store := k.1, rtc := k.2, saved := none
    plane := { capture := keptCapture s.plane.capture }
    points := {}, bus := {}, eth := {}, cipher := {}, access := { handle := s.access.handle }, watch := {}, mem := []
    image := { dbg := s.image.dbg.afterReset }
    sleep := { alarmAt := s.sleep.alarmAt }
    light := { string := s.light.string }
    input := s.input.kept
    motor := losePackets s.motor
    pins := { s.pins with irqApplied := false, irqCauses := 0, irqPulseEnd := 0, spiOut := [] }
    seq := { powered := s.seq.powered, vbatl := s.seq.vbatl, vbatlWritten := s.seq.vbatlWritten, warn := s.seq.warn
             core := s.seq.core, state := s.seq.state, inReset := true } }

/-- A logic reset is asserted (R63): a trial that runs is stopped (Table 13.8), the cause is recorded in the retention block (R65), and
everything of Table 02.9 is cleared. A reset that stands keeps its cause; where the supply asks for it again, the 2 ms of R50 start anew. -/
def assertLogic (s : State) (c : ResetCause) (supply : Bool) : State :=
  if s.seq.inReset then s.onSeq fun q => { q with supplyReset := q.supplyReset || supply, starting := q.starting && !supply }
  else
    let s := clearLogic (endTrial s 7)
    { s with ret := { s.ret with cause := c }, seq := { s.seq with supplyReset := supply } }

/-- A cold reset (R51, R63): the MRAM and the field die keep what they hold; the RTC takes its stored time and is no longer valid
(R371). -/
def coldReset (s : State) : State :=
  let st := (keptStore s).1
  { State.reset with
    store := st
    rtc := { time := st.rtc.time, setCount := st.rtc.setCount, trim := st.rtc.trim, allowFrom := st.rtc.time }
    plane := { capture := keptCapture s.plane.capture }
    input := { fs := s.input.fs, die := s.input.die }
    pins := { vio := s.pins.vio }
    image := { dbg := { s.image.dbg.afterReset with since := false } }
    now := s.now, free := s.free, drawn := s.drawn, pending := s.pending }

/-- A supply warning reaches the keeper: the open segment closes, and the freshness of its streams is committed (R49, R251, R378). -/
def noteWarning (s : State) : State := (List.range 8).foldl (fun s k => if (streamCfg s k).enable then commitFresh s k else s) (closeSegment s 4)

/-- The keeper posts RESET for a pair or hall reset, with the stamp of the tick it occurs in (R65). -/
def resetEvent (s : State) (cause index : Nat) : State :=
  postEvent s { s.ev 1 0x0102 0 (cause + 256 * index) with stamp := s.wallStamp }

/-! Pair resets. -/

/-- The device runs its application pairs: Beam with a valid charter set and a valid image. -/
def appRuns (s : State) : Bool :=
  s.seq.state == .beam && s.plane.running && s.image.bootFail == 0 && (activeApp s).isSome

/-- An application pair runs; pair 1 is held in reset from the end of a trial to the next entry to Beam (R341). -/
def pairRuns (s : State) (pair : Nat) : Bool :=
  (appRuns s || s.sleep.pairStopAt.isSome) && s.sleep.darkCommit.isNone && (pair == 0 || !s.image.pairHeld)

/-- While a bank is TENTATIVE, of the application or of the keeper, a mismatch of a pair or a fault of H2 sets its BOOT_LEFT to 0 (R334, R337). -/
def spoilTentative (s : State) : State :=
  [2, 1].foldl (fun s kind =>
    match bankIn s kind 4 with
    | some b => s.onBank13 b fun x => { x with bootLeft := 0 }
    | none => s) s

/-- An application pair is reset (R63): the unadmitted packets of its compartments complete with S_FAULT. -/
def pairReset (s : State) (pair cause index : Nat) : State :=
  resetEvent (faultUnadmitted s fun c => (charterOf s c).pair == pair) cause index

/-! Hall resets (Table 01.5). -/

/-- Requests in flight in the contexts of the crypto rings complete with S_FAULT. -/
def faultContexts (s : State) : State := (List.range 16).foldl (fun s k => failCtx s k .hwFault) s

/-- The transmit side and the error states of a CAN controller are cleared (R238). -/
def resetController (s : State) (c : Nat) : State :=
  let s := dropFrames s c .hwFault
  let s := s.onCan c fun x => { x with
    txErr := 0, recErr := 0, recovering := false, clashTbl := [], current := none, verdicts := [], old := none }
  setCanState s c (if (canMode s c).op = 0 then 0 else 4)

/-- Confirmed LIN sends that wait complete with S_FAULT, and the controller goes bus-idle. -/
def resetLin (s : State) (c : Nat) : State :=
  let waits := (linAt s c).waits
  let s := s.onLin c fun x => { x with waits := [], header := none, master := none, sporadic := [], lastBus := s.now }
  waits.foldl (fun s w => completeNow s w.packet .hwFault []) s

/-- H6 is reset: message RAM, tables, counters and freshness stay; every signal timeout restarts (R238). -/
def resetBus (s : State) : State :=
  let s := (List.range 8).foldl resetController s
  let s := (List.range 6).foldl resetLin s
  let cancels := s.bus.cancels
  let s := s.onBus fun b => { b with cancels := [], sigLast := [], sigOut := [], sigBase := s.plane.lin }
  cancels.foldl (fun s c => completeNow s c.packet .hwFault []) s

/-- H5 is reset: its links go down and are brought up again. -/
def resetPacket (s : State) : State :=
  let s := (List.range 8).foldl (fun s n => startPort (portOff s n) n) (dropQueue (dropQueue s 8) 9)
  s.onEth fun e => { e with learned := [], cmdIn := [] }

/-- The response of a hall (Table 01.5) of H0, H2, H4, H5 or H6. -/
def hallResponse (s : State) (h : Nat) : State :=
  if h = 2 then faultUnadmitted s fun _ => true
  else if h = 4 then faultContexts s
  else if h = 5 then resetPacket s
  else if h = 6 then resetBus s
  else s

/-- A hall reset (R63): what Table 01.5 gives for the hall, its counters cleared (R388), RESET with cause 11 and the hall. -/
def hallReset (s : State) (h : Nat) : State := resetEvent (clearWatchHall (hallResponse s h) h) 11 h

/-! Hall faults (R16, R26). -/

/-- A hall is faulted: its streams leave every landing and what it sends later is discarded until it rejoins; HALL_FAULT is posted and
recorded, and a capture takes its mark, under the tick that the tick hall acts on (DESIGN CHOICE, log entry 164). -/
def noteHallFault (s : State) (h cause : Nat) : State :=
  let s := (leaveLandings s h).onHall h fun x => { x with dropped := true }
  let s := s.onPlane fun p => { p with status := { p.status with hallFault := setBit p.status.hallFault h true } }
  let s := postEvent s { s.ev 3 0x0104 0 (h + 16 * cause) with stamp := s.wallStamp, idx := h }
  if s.plane.capture.running then
    (capWrite s (markRecord s 5 (h + 16 * cause))).onPlane fun p => { p with capture := { p.capture with clean := false } }
  else s

/-- The response of Table 01.5 to a hall fault: a logic reset for H1 and H3, a retrain of the internal link for H7 (R69), a hall reset for
the others; H2's fault also spoils a TENTATIVE bank (R334). -/
def hallFault (s : State) (h cause : Nat) : State :=
  let s := noteHallFault s h cause
  if h = 1 then assertLogic s { cause := 5 } false
  else if h = 3 then assertLogic s { cause := 6 } false
  else if h = 7 then s
  else if h = 2 then spoilTentative (hallReset s 2)
  else hallReset s h

end Sys2Proof.Machine
end

