-- ==== Sys2Proof/Machine/Resets.lean ====
section
/-! DEFINITION. VBATL supervision and the triggers of resets (chapter 02, R49–R51, R63–R65; chapter 01, R16 and R26). -/

namespace Sys2Proof.Machine

/-! VBATL (R49–R51). -/

/-- G83:0020, the VBATL voltage point. -/
def vbatlPoint : Nat := pointAt 83 20

/-- G83:0041, the SUPPLY_WARN point. -/
def supplyWarnPoint : Nat := pointAt 83 41

/-- SUPPLY_WARN with its point (R49), observed by H0. -/
def supplyWarn (s : State) (mv : Nat) (on : Bool) : State :=
  let s := s.onSeq fun q => { q with warn := on, vbatl := mv }
  observePoint s 0 (statusIx 41) supplyWarnPoint (BitVec.ofNat 16 (b2n on)) [s.ev 0 0x0107 vbatlPoint (mv / 10) true]

/-- The supply warning on its way to the keeper: an item of H0 in L5, under its offset (R21); at once where no tick hall runs. -/
def warnKeeper (s : State) : State :=
  if s.plane.running then
    if feedsL5 s 0 then landPut s 5 { stamp := ⟨s.plane.epoch, s.wallTick + streamOffset 5 0⟩, hall := 0, idx := statusIx 41, warn := true } else s
  else if keeperRuns s then noteWarning s
  else s

/-- VBATL falls below WARN (R49): the keeper writes its pending records and the open seal. -/
def belowVbatlWarn (s : State) (mv : Nat) : State :=
  if s.seq.powered ∧ !s.seq.warn ∧ mv < 100 * s.store.sys.vbatlWarn then warnKeeper (supplyWarn s mv true) else s

/-- VBATL falls below WARN (R49). -/
def execVbatlBelowWarn (mv : Nat) (s : State) : Answer := rated s mv (belowVbatlWarn s mv)

/-- VBATL rises above WARN + 0.5 V (R49). -/
def execVbatlAboveWarn (mv : Nat) (s : State) : Answer :=
  rated s mv (if s.seq.powered ∧ s.seq.warn ∧ 100 * s.store.sys.vbatlWarn + 500 < mv then supplyWarn s mv false else s)

/-- The always-on hall takes the voltage that a supply command names. -/
def noteVbatl (s : State) (mv : Nat) : State := s.onSeq fun q => { q with vbatl := mv }

/-- VBATL falls below 5.5 V (R50): a logic reset with cause 2. -/
def execVbatlLogicReset (mv : Nat) (s : State) : Answer :=
  rated s mv (if s.seq.powered ∧ mv < 5500 then assertLogic (noteVbatl s mv) { cause := 2 } true else s)

/-- VBATL has stayed above 6.0 V for 2 ms (R50): the reset is released, and the restart has to run. -/
def execLogicResetRelease (mv : Nat) (s : State) : Answer :=
  rated s mv (if s.seq.inReset ∧ s.seq.supplyReset ∧ 6000 < mv then
    (noteVbatl s mv).onSeq fun q => { q with supplyReset := false, starting := true }
  else s)

/-- VBATL falls below 4.5 V (R51): every output turns off and the device undergoes a cold reset. -/
def execVbatlColdReset (mv : Nat) (s : State) : Answer :=
  rated s mv (if mv < 4500 ∧ (s.seq.powered ∨ s.seq.core) then noteVbatl (coldReset s) mv else s)

/-- VBATL rises above 5.0 V (R51): the core of the power die starts. -/
def execPowerDieStart (mv : Nat) (s : State) : Answer :=
  rated s mv (if !s.seq.core ∧ 5000 < mv then (noteVbatl s mv).onSeq fun q => { q with core := true } else s)

/-! Other triggers (R63). -/

/-- RESET_N low for at least 10 µs. -/
def execResetNLow (ns : Nat) (s : State) : Answer :=
  effect s (if s.seq.powered ∧ 10000 ≤ ns then assertLogic s { cause := 3 } false else s)

/-- A lockstep mismatch of the keeper pair. -/
def execKeeperLockstepMismatch (s : State) : Answer :=
  effect s (if keeperRuns s then assertLogic s { cause := 7 } false else s)

/-- The keeper watchdog. -/
def execKeeperWatchdog (s : State) : Answer :=
  effect s (if keeperRuns s then assertLogic s { cause := 8 } false else s)

/-- A lockstep mismatch of an application pair (R63, R334, Table 13.8): pair 1 in a trial ends it with cause FAULT. -/
def pairMismatch (s : State) (pair : Nat) : State :=
  if pairRuns s pair then
    let s := if pair = 1 ∧ s.image.trial.state = 2 then endTrial s 6 else s
    spoilTentative (pairReset s pair (9 + pair) 0)
  else s

/-- A lockstep mismatch of an application pair. -/
def execPairLockstepMismatch (pair : Nat) (s : State) : Answer := effect s (pairMismatch s pair)

/-! Hall faults. -/

/-- A hall's count disagrees with a sync word, which comes every 256 ticks (R16); a fault of H8 does not exist (Table 01.5). -/
def execHallTokenMismatch (h : Nat) (s : State) : Answer :=
  effect s (if s.plane.running ∧ h < 8 ∧ hallRuns s h ∧ s.wallTick % 256 = 0 then hallFault s h 2 else s)

/-- A joined stream of hall `h` lags by more than 64 ticks at some landing (R24, R26). -/
def lagsTooFar (s : State) (h : Nat) : Bool :=
  (List.range 10).any fun l =>
    let x := vget (vget s.plane.landings l).streams h
    (landingInputs l).contains h && x.joined && x.progress + 64 < s.wallTick

/-- A lag above 64 ticks (R26). -/
def execHallLagFault (h : Nat) (s : State) : Answer :=
  effect s (if s.plane.running ∧ h < 8 ∧ hallRuns s h ∧ lagsTooFar s h ∧ !readerFeeds s h then hallFault s h 1 else s)

end Sys2Proof.Machine
end

