-- ==== Sys2Proof/Machine/DarkOps.lean ====
section
/-! DEFINITION. What the device loses when its switched domains go off (chapter 02, Table 02.4 and R62; chapter 11, R283). -/

namespace Sys2Proof.Machine

/-- PD1–PD8 and the pre-regulator go off: what their halls and their SRAM hold is gone. The always-on hall, the power die's core, the
field die and the MRAM go on. -/
def darkClear (s : State) : State :=
  let k := keptStore s
  { s with
    store := k.1, rtc := k.2, saved := none
    plane := { capture := keptCapture s.plane.capture }
    points := {}, bus := {}, eth := {}, cipher := {}, access := { handle := s.access.handle }, watch := {}, mem := []
    image := { dbg := s.image.dbg.afterReset }
    light := { string := s.light.string }
    input := s.input.kept
    motor := losePackets s.motor
    seq := { s.seq with state := .dark, ready := false, pd := 0, appNeed := 0, resetDue := [] } }

/-- A Buoy that does not advance returns to Dark (R62, R278): the keeper writes the open segment first (Table 15.6). Its wakes stay latched until they are
posted (R284, R287). -/
def buoyToDark (s : State) : State :=
  let s := if s.store.log.opened.isSome then sealSegment s 5 else s
  darkClear (s.onSleep fun x => { x with target := none })

end Sys2Proof.Machine
end

