-- ==== Sys2Proof/Machine/CaptureOps.lean ====
section
/-! DEFINITION. The shared operations of capture and replay (chapter 01, R37–R45): the replay configuration digest, the START mark, and the
start of a capture. -/

namespace Sys2Proof.Machine

/-- Change the capture unit. -/
def State.onCapture (s : State) (f : Capture → Capture) : State := s.onPlane fun p => { p with capture := f p.capture }

/-- Change the replay. -/
def State.onReplay (s : State) (f : Replay → Replay) : State := s.onPlane fun p => { p with replay := f p.replay }

/-- The 11 characters "VB-7260 KCV" (R39). -/
def kcvLabel : List Byte := [0x56, 0x42, 0x2D, 0x37, 0x32, 0x36, 0x30, 0x20, 0x4B, 0x43, 0x56]

/-- The key check value of a slot (R39). -/
def keyCheck (x : KeySlot) : List Byte :=
  if x.alg = 0 then List.replicate 32 0
  else if 4 ≤ x.alg then Config.shake256 (publicPartOf x.alg x.material)
  else Config.kmac256 32 x.material kcvLabel []

/-- What the digest takes of a slot: ALG, USAGE, OWNER and the key check value. -/
def maskedSlot (x : KeySlot) : KeySlot :=
  if x.alg = 0 then {} else { alg := x.alg, usage := x.usage, owner := x.owner, material := keyCheck x }

/-- The settings of a store that decide results (R39): everything else is left out. -/
def maskedStore (x : Store) : Store :=
  { charters := x.charters, sys := x.sys, attrs := x.attrs, rules := x.rules, load := x.load, motor := x.motor, light := x.light
    input := x.input, sleep := x.sleep
    can := { x.can with fresh := Vector.replicate 8 0, freshKey := Vector.replicate 8 (0, 0) }
    keys := retable (x.keys.filter fun e => 16 ≤ e.1) {} maskedSlot
    eth := { x.eth with
      sas := x.eth.sas.map fun a => { a with pn := 1, commit := 0, gen := 0, key := [], current := false, stopped := 0, warned := false }
      cmd := (x.eth.cmd.filter (·.bound)).map fun c => { c with seq := 0 } }
    access := { cfg := x.access.cfg, release := x.access.release
                token := x.access.token.map fun t => { t with gen := 0, lastStatus := 0, lastValid := 0 } } }

/-- The replay configuration digest (R39). -/
def replayDigest (s : State) : List Byte := Config.shake256 (Config.storeBytes (maskedStore s.store))

/-- The digests that a START mark carries: settings, the keeper image that runs, banks A and B (Table 01.10). -/
def startDigests (s : State) : List Byte :=
  replayDigest s ++ bankDigest s s.image.keeperBank ++ bankDigest s 2 ++ bankDigest s 3

/-- The payload of a START mark (Table 01.10): 72 blocks. -/
def startPayload (s : State) (interval : Nat) : List Byte :=
  startDigests s ++ leBytes 8 s.store.log.nextSeq ++ s.rtc.bytes ++ leBytes 4 s.store.access.failed ++ leBytes 2 s.plane.epoch ++
    leBytes 4 interval ++ List.replicate 30 0 ++ (List.range 240).flatMap fun k => leBytes 4 (keySlot s (16 + k)).generation

/-- A capture starts with its START mark (R40): at tick 0 of an epoch, or at once. Copies of before are no part of it. -/
def startCapture (s : State) (a : CapArm) (fromZero : Bool) : State :=
  let s := s.onCapture fun c => {
    running := true, sink63 := a.sink63, wrap := a.wrap, classMask := a.classMask, cmdMask := a.cmdMask, interval := a.interval
    fromZero := fromZero, startStamp := s.stamp, startLin := s.plane.lin, checkLin := s.plane.lin
    area := if a.sink63 then c.area else [], areaBytes := if a.sink63 then c.areaBytes else 0 }
  let s := s.onPlane fun p => { p with landings := vmod p.landings 9 fun x => { x with items := [] } }
  capPut s (markRecord s 1 (a.classMask + 2 ^ 16 * a.cmdMask) (startPayload s a.interval))

/-- Disarm a capture. -/
def disarm (s : State) : State := s.onStore fun st => { st with capArm := {} }

end Sys2Proof.Machine
end

