-- ==== Sys2Proof/Machine/AccessOps.lean ====
section
/-! DEFINITION. The shared operations of access and engine release (chapter 14): token entries, sessions, the release state, and the course
of a poll. -/

namespace Sys2Proof.Machine

/-- Change access and release. -/
def State.onAccess (s : State) (f : Access → Access) : State := { s with access := f s.access }

/-- Change what persists of access and release. -/
def State.onAccessStore (s : State) (f : AccessStore → AccessStore) : State := s.onStore fun st => { st with access := f st.access }

/-- The settings of ACCESS.CONFIG. -/
def accessCfg (s : State) : AccessCfg := s.store.access.cfg

/-- Token entry `i` (R360). -/
def tokenOf (s : State) (i : Nat) : Token := vget s.store.access.token i

/-- Change token entry `i`. -/
def State.onToken (s : State) (i : Nat) (f : Token → Token) : State :=
  s.onAccessStore fun x => { x with token := vmod x.token i f }

/-- The slot of an entry still has the generation of the enrolment (R360). -/
def Token.keyed (t : Token) (s : State) : Bool := (Machine.keySlot s t.keySlot).generation == t.gen

/-- The indices that a poll asks for: enrolled, with an unchanged slot (R360). -/
def askMask (s : State) : Nat := maskOf ((List.range 8).filter fun i => (tokenOf s i).state == 1 && (tokenOf s i).keyed s)

/-- An access event (Table 14.7); there are none while the tick hall does not run (R279). -/
def accessEvent (s : State) (kind address value comp : Nat) : State :=
  if s.plane.running then postEvent s (s.ev 1 kind address value false comp) else s

/-- The point of LF antenna `a`. -/
def lfPoint (a : Nat) : Nat := pointAt 80 (400 + a)

/-- A direct write of the keeper, which needs the tick hall. -/
def keeperPoint (s : State) (pt v : Nat) : State :=
  if s.plane.running then (keeperWrite s pt (BitVec.ofNat 16 v)).1 else s

/-! Sessions (R361). -/

/-- The open session ends for a cause: SESSION_POINT takes 0, and the end is posted and logged. -/
def closeSession (s : State) (cause comp : Nat) : State :=
  match s.access.session with
  | none => s
  | some x =>
    let s := s.onAccess fun a => { a with session := none }
    let s := if (accessCfg s).sessionPoint = 0 then s else keeperPoint s (accessCfg s).sessionPoint 0
    let s := accessEvent s 0x0C03 (x.index + 256) cause comp
    logDevice s 0x0C02 true
      (leBytes 1 1 ++ leBytes 1 cause ++ leBytes 1 x.index ++ leBytes 4 x.tokenId ++ leBytes 4 ((s.now - x.openedAt) / 8000))

/-- A session opens for an index; one that is open is replaced. COMPARTMENT is that of the poll's issuer, or 0 (R366). -/
def openSession (s : State) (i comp : Nat) : State :=
  let s := closeSession s 3 comp
  let t := tokenOf s i
  let s := s.onAccess fun a => { a with
    sessions := a.sessions + 1, session := some { index := i, tokenId := t.tokenId, openedAt := s.now, number := a.sessions + 1 } }
  let s := if (accessCfg s).sessionPoint = 0 then s else keeperPoint s (accessCfg s).sessionPoint (i + 1)
  let s := accessEvent s 0x0C03 i 0 comp
  logDevice s 0x0C02 true (leBytes 1 0 ++ leBytes 1 0 ++ leBytes 1 i ++ leBytes 4 t.tokenId ++ leBytes 4 0)

/-- A door input has changed to 1 between two states (R361). -/
def doorOpened (s s' : State) : Bool :=
  (bitList 48 (accessCfg s).doors).any fun i => pget s (siPoint i) != 1 && pget s' (siPoint i) == 1

/-! Engine release (R363, R364). -/

/-- The state and index of the release that a frame built now carries (R364): that of the end of the tick before, but for an extra frame. -/
def releaseShown (s : State) : Bool × Nat :=
  let now := (s.store.access.released, s.store.access.relIndex)
  match s.access.relBefore with
  | some (t, r, i) => if t = s.plane.lin ∧ s.access.extraAt ≠ some t then (r, i) else now
  | none => now

/-- RELEASE records that waited for a COUNTER are written (R367). -/
def writeReleaseRecords (s : State) (counter : Nat) : State :=
  let l := s.access.relRecords
  l.foldl (fun s r => logDevice s 0x0C03 true (r ++ leBytes 8 counter)) (s.onAccess fun a => { a with relRecords := [] })

/-- The release changes (R363): it is posted, kept, and logged with the COUNTER of the first frame after it, where a frame follows. A block
that frames can report asks for an extra frame (R364). Where none can follow, the records that wait have no COUNTER. -/
def setRelease (s : State) (released : Bool) (index cause comp : Nat) : State :=
  let x := s.store.access
  if x.released = released ∧ (!released ∨ x.relIndex = index) then s
  else
    let before := match s.access.relBefore with
      | some b => if b.1 = s.plane.lin then b else (s.plane.lin, x.released, x.relIndex)
      | none => (s.plane.lin, x.released, x.relIndex)
    let s := s.onAccessStore fun y => { y with released := released, relIndex := index }
    let s := accessEvent s 0x0C04 (index + 16 * cause) (b2n released) comp
    let payload := leBytes 1 (b2n released) ++ leBytes 1 cause ++ leBytes 1 index ++ leBytes 4 (tokenOf s index).tokenId
    let frames := s.store.access.release.enable && cause != 4 && cause != 5
    let s := s.onAccess fun a => { a with
      relBefore := some before
      extraAt := if !released && frames then some s.plane.lin else a.extraAt
      relRecords := if frames then a.relRecords ++ [payload] else a.relRecords }
    if frames then s else logDevice (writeReleaseRecords s 0) 0x0C03 true (payload ++ leBytes 8 0)

/-- The release is blocked for a cause, if it is released. -/
def blockRelease (s : State) (cause comp : Nat) : State := setRelease s false s.store.access.relIndex cause comp

/-- A slot provides release frames: ALG 1 with usage RELEASE (R364). -/
def releaseKey (x : KeySlot) : Bool := x.alg == 1 && x.has 9

/-- A release whose slot has stopped providing frames is blocked (R363, R365). -/
def endRelease (s : State) : State :=
  let g := s.store.access.release
  if s.store.access.released ∧ g.enable ∧ !releaseKey (Machine.keySlot s g.keySlot) then blockRelease s 4 0 else s

/-! The course of a poll (R352–R358). -/

/-- Change the poll that runs. -/
def State.onPoll (s : State) (f : Poll → Poll) : State := s.onAccess fun a => { a with poll := a.poll.map f }

/-- Ticks of a POLL frame and of a RETRY frame (R352). -/
def pollTicks : Nat := 249856

/-- Ticks of a RETRY frame (R352). -/
def retryTicks : Nat := 118784

/-- The antennas of a mask transmit, or stop (R349). -/
def driveAntennas (s : State) (q : Poll) (mask : Nat) (on : Bool) : State :=
  (bitList 6 mask).foldl (fun s a => keeperPoint s (lfPoint a) (if on then 10 * vget q.iAnt a else 0)) s

/-- Bank D is below 6.0 V (R350, Table 02.5). -/
def lfSupplyLost (s : State) : Bool := (bankAt s 3).drop

/-- The tick at which the slot of an index closes (R353). -/
def Poll.closeAt (q : Poll) (i : Nat) : Nat := q.frameEnd + 12000 + 8000 * (i + 1)

/-- The slots of the phase: those of MASK after a POLL, those of the RETRY mask after a RETRY. -/
def Poll.slots (q : Poll) : Nat := if q.phase = 3 then q.retry else q.mask

/-- An LF frame is on the antennas. -/
def Poll.sending (q : Poll) (now : Nat) : Bool := q.phase == 0 || (q.phase == 2 && q.frameEnd ≤ now + retryTicks)

/-- TKR_EN is high in a tick (R351): from 8,000 ticks before the end of an LF frame to the close of the last slot that follows it. -/
def Poll.tkrHigh (q : Poll) (now : Nat) : Bool :=
  let slots := if q.phase < 2 then q.mask else q.retry
  q.frameEnd ≤ now + 8000 && now < q.closeAt ((bitList 8 slots).getLastD 0)

/-! LF frames (R352). -/

/-- A POLL or RETRY frame on the wire (Table 14.3). DESIGN CHOICE: VEHICLE_ID goes most significant byte first, log entry 156. -/
def Poll.frame (q : Poll) : List Byte :=
  let first := fun t => leBytes 1 (16 * t + q.purpose) ++ beBytes 3 q.vehicle
  let l := if q.phase < 2 then first 1 ++ q.challenge ++ leBytes 1 q.mask else first 2 ++ leBytes 1 q.retry
  l ++ leBytes 1 (crc8 l)

/-- The bit of a byte string that is sent `i`-th, most significant first. -/
def sentBit (l : List Byte) (i : Nat) : Bool := (l.getD (i / 8) 0).getLsbD (7 - i % 8)

/-- The carrier is on in the `d`-th tick of a frame (R352): the preamble, a gap, then cells with the carrier in the first half for a 1 and in the
second for a 0. -/
def carrierOn (l : List Byte) (d : Nat) : Bool :=
  if d < 16384 then true
  else if d < 20480 then false
  else
    let k := (d - 20480) / 2048
    k < 8 * l.length && (sentBit l k == decide ((d - 20480) % 2048 < 1024))

/-- The antennas that have the carrier on in a tick, in phase (R349, R352). -/
def Poll.carrier (q : Poll) (now : Nat) : Nat :=
  let length := 20480 + 16384 * q.frame.length
  if q.sending now && carrierOn q.frame (now + length - q.frameEnd) then q.antMask else 0

/-- The indices of a result (Table 14.4) as a mask. -/
def Poll.maskOf (q : Poll) (code : Nat) : Nat := Machine.maskOf ((List.range 8).filter fun i => vget q.result i == code)

/-- The highest index of a mask. -/
def topIndex (mask : Nat) : Nat := (bitList 8 mask).getLastD 0

/-- Rights that a token must hold for a PURPOSE (R358). -/
def rightFor (purpose rights : Nat) : Bool :=
  if purpose = 1 then rights.testBit 0 else if purpose = 2 then rights.testBit 1 else rights != 0

/-- The entry behind an index of a poll: the one to be written in an ENROL poll. -/
def pollEntry (s : State) (q : Poll) (i : Nat) : Token :=
  match q.enrol with
  | some e => if e.index = i then e.entry else tokenOf s i
  | none => tokenOf s i

/-- The index that a poll is granted to (R358): the lowest VALID one with the right. -/
def grantOf (s : State) (q : Poll) : Option Nat :=
  (List.range 8).find? fun i => vget q.result i == 1 && rightFor q.purpose (pollEntry s q i).rights

/-- The payload of a POLL record (Table 14.8). -/
def pollRecord (s : State) (q : Poll) : List Byte :=
  leBytes 1 q.purpose ++ leBytes 1 q.allAnts ++ leBytes 1 q.mask ++ leBytes 1 q.retry ++ q.result.toList.map (BitVec.ofNat 8 ·) ++
    q.status.toList.map (BitVec.ofNat 8 ·) ++ leBytes 4 s.store.access.failed ++ padTo 8 q.challenge ++
    q.response.toList.flatMap (padTo 8 ·)

/-- The reply of ACCESS.POLL (Table 14.10). -/
def pollReply (s : State) (q : Poll) (granted : Option Nat) : Reply :=
  [(16, 1, q.maskOf 1), (17, 1, q.maskOf 2), (18, 1, q.maskOf 3), (19, 1, q.maskOf 4), (20, 1, granted.getD 0xFF), (21, 1, q.retry),
   (24, 4, s.store.access.failed)] ++ (List.range 8).map fun i => (28 + i, 1, vget q.status i)

/-- A token entry is written (R360): posted and logged. -/
def writeToken (s : State) (i action comp : Nat) (f : Token → Token) : State :=
  let s := s.onToken i f
  let t := tokenOf s i
  let s := accessEvent s 0x0C05 i action comp
  logDevice s 0x0C04 true
    (leBytes 1 action ++ leBytes 1 i ++ leBytes 1 t.keySlot ++ leBytes 1 t.rights ++ leBytes 4 t.tokenId ++ leBytes 4 t.gen ++
      leBytes 1 comp)

/-- COMPARTMENT of the events of a poll (R366): the issuer of its opcode, or 0. -/
def Poll.comp (q : Poll) : Nat := (q.packet.map (·.comp)).getD 0

/-- The poll leaves, and TKR_EN is low; PD8, which it had on demand, goes off outside Beam (Table 02.4). -/
def dropPoll (s : State) : State :=
  let s := { s with pins := { s.pins with tkrEn := false } }.onAccess fun a => { a with poll := none }
  if s.seq.state = .beam then s else setDomain s 8 false

/-- Every poll that ends is counted, posted and logged (R358, R367). -/
def recordPoll (s : State) (q : Poll) (granted : Option Nat) : State :=
  let s := s.onAccess fun a => { a with
    polls := satAdd32 a.polls 1, grants := if granted.isSome then satAdd32 a.grants 1 else a.grants }
  let s := accessEvent s 0x0C01 (q.purpose + 16 * granted.getD 0xFF) (q.maskOf 1 + 256 * q.maskOf 2) q.comp
  logDevice s 0x0C01 true (pollRecord s q)

/-- Complete the packet that waits for a poll. -/
def completePoll (s : State) (q : Poll) (st : Status) (reply : Reply) : State :=
  match q.packet with
  | some p => completeNow s p (lateStatus q.late st) reply
  | none => s

/-- What a granted poll does by its PURPOSE (R358, R361, R363): a session, the release, or the enrolment. -/
def applyGrant (s : State) (q : Poll) (i : Nat) : State :=
  if q.purpose = 1 then openSession s i q.comp
  else if q.purpose = 2 then setRelease s true i 0 q.comp
  else
    match q.enrol with
    | some e => writeToken s e.index 1 q.comp fun t => { e.entry with lastStatus := t.lastStatus, lastValid := t.lastValid }
    | none => s

/-- A grant without the tick hall (R362): the device goes to TARGET_GRANT, and the session opens at tick 0; without one it goes back to
Dark. -/
def endBuoyPoll (s : State) (q : Poll) (granted : Option Nat) : State :=
  match granted with
  | some i =>
    (s.onAccess fun a => { a with
      buoyGrant := some { index := i, verdicts := q.verdicts } }).onSleep fun x =>
        { x with target := some (max (x.target.getD 0) (accessCfg s).target) }
  | none => if s.sleep.target.isSome then s else buoyToDark s

/-- The poll ends at the close of its last slot (R357, R358). -/
def finishPoll (s : State) (q : Poll) : State :=
  let granted := grantOf s q
  let s := dropPoll (recordPoll s q granted)
  if !s.plane.running then endBuoyPoll s q granted
  else
    let s := match granted with
      | some i => applyGrant s q i
      | none => s
    let st : Status := if granted.isSome then .ok else .noToken
    match q.enrol with
    | some e =>
      completePoll s q st (if granted.isSome then [(16, 4, e.entry.gen), (20, 1, vget q.status e.index)] else [])
    | none => completePoll s q st (pollReply s q granted)

/-- A poll that cannot go on (R350) or is abandoned (R362) ends without a grant. -/
def abandonPoll (s : State) (st : Status) : State :=
  match s.access.poll with
  | none => s
  | some q =>
    let s := driveAntennas s q q.antMask false
    completePoll (dropPoll (recordPoll s q none)) q st []

/-- A poll that cannot go on ends; in Buoy the device then returns to Dark (R362). -/
def failPoll (s : State) (st : Status) : State :=
  let s := abandonPoll s st
  if s.seq.state = .buoy ∧ s.sleep.target.isNone then buoyToDark s else s

/-- Start a poll at E (R368); the answer is the status that stops it at once. MASK is `mask`, or the indices that R360 asks for. -/
def startPoll (s : State) (q : Poll) (mask : Option Nat) : State × Option Status :=
  let ants := q.antMask &&& (63 ^^^ (s.access.lfShort &&& 63))
  if s.cipher.trngFail then (s, some .hwFault)
  else if lfSupplyLost s then
    ((bitList 6 ants).foldl (fun s a => accessEvent s 0x0C06 a 3 q.comp) s, some .supply)
  else if ants = 0 then (s, some .hwFault)
  else
    let (challenge, s) := drawPlane s 8 1
    let s := setDomain s 8 true
    let q := { q with
      antMask := ants, allAnts := q.antMask, vehicle := (accessCfg s).vehicle, iAnt := (accessCfg s).iAnt, start := s.stamp, challenge := challenge
      mask := mask.getD (askMask s), frameEnd := s.now + pollTicks }
    (driveAntennas (s.onAccess fun a => { a with poll := some q }) q ants true, none)

/-- An antenna leaves the poll (R350); a short keeps it off until the next ACCESS.CONFIG. -/
def dropAntenna (s : State) (a kind : Nat) : State :=
  match s.access.poll with
  | none => s
  | some q =>
    let s := accessEvent (keeperPoint s (lfPoint a) 0) 0x0C06 a kind q.comp
    let s := s.onAccess fun x => { x with
      lfOpen := if kind = 1 then setBit x.lfOpen a true else x.lfOpen
      lfShort := if kind = 2 then setBit x.lfShort a true else x.lfShort }
    let ants := setBit q.antMask a false
    let s := s.onPoll fun y => { y with antMask := ants }
    if ants = 0 then failPoll s (if kind = 3 then .supply else .hwFault) else s

/-- What the LF port does in a tick: TKR_EN follows the poll (R351), no antenna transmits while bank D is below 6.0 V (R350), and the antennas of a RETRY
frame start 4,000 ticks after the close of the last slot (R353). -/
def lfTick (s : State) : State :=
  match s.access.poll with
  | some q =>
    let s := { s with pins := { s.pins with tkrEn := q.tkrHigh s.now } }
    if q.sending s.now ∧ lfSupplyLost s then (bitList 6 q.antMask).foldl (fun s a => dropAntenna s a 3) s
    else if q.phase = 2 ∧ q.frameEnd = s.now + retryTicks then driveAntennas s q q.antMask true
    else s
  | none => s

/-- The block B that a token encrypts (R354). DESIGN CHOICE: VEHICLE_ID goes most significant byte first, as in the frame, log entry 156. -/
def tokenBlock (q : Poll) (index status : Nat) : List Byte :=
  leBytes 1 (16 + q.purpose) ++ beBytes 3 q.vehicle ++ q.challenge ++ leBytes 1 index ++ leBytes 1 status ++ [0, 0]

/-- The bits of a Manchester-coded response (R355): 1 is high then low; none at a violation or an odd end. -/
def chipBits : List Bool → Option (List Bool)
  | [] => some []
  | a :: b :: r => if a = b then none else (chipBits r).map (a :: ·)
  | [_] => none

/-- Eight bits, most significant first, as a byte. -/
def bitsByte (l : List Bool) : Byte := BitVec.ofNat 8 (l.foldl (fun n b => 2 * n + b2n b) 0)

/-- The SYNC of a response has ended inside its window: 78 to 238 µs after the slot opens (R355). -/
def responseSeen (r : TokenResponse) : Bool :=
  match r.sync with
  | some t => 78000 ≤ t && t ≤ 238000
  | none => false

/-- The answer of a response that is whole within 950 µs, without violation and with a good CRC-8 over INDEX to RESPONSE (R355). -/
def responseAnswer (r : TokenResponse) : Option TokenAnswer :=
  match chipBits (r.chips.take 176) with
  | none => none
  | some bits =>
    let l := (List.range 11).map fun i => bitsByte ((bits.drop (8 * i)).take 8)
    if responseSeen r && bits.length == 88 && decide (r.doneAt ≤ 950000) && (l.getD 10 0).toNat == crc8 (l.take 10) then
      some { index := (l.getD 0 0).toNat, status := (l.getD 1 0).toNat, response := (l.drop 2).take 8 }
    else none

/-- The expected RESPONSE of an index (R354, R356); none where its key has been stopped in abort mode. -/
def expectedResponse (s : State) (q : Poll) (i status : Nat) : Option (List Byte) :=
  (keyAt s (pollEntry s q i).keySlot q.start).map fun k => (Config.aes k.material (tokenBlock q i status)).take 8

/-- The result that a recorded token verdict gives in a replay (R43, Table 14.4). -/
def recordedResult (s : State) (i : Nat) : Nat :=
  match s.plane.replay.verdicts.find? fun r => r.word == 2 + 256 * i && r.stamp.tick == s.plane.tick with
  | some r => if r.value = 0 then 1 else if r.value = 0x40 then 2 else if r.value = 0x42 then 4 else 3
  | none => 0

/-- The result of a slot at its close (Table 14.4). -/
def classify (s : State) (q : Poll) (i : Nat) (r : TokenResponse) : Nat :=
  if s.plane.replay.running then recordedResult s i
  else if !responseSeen r then 0
  else
    match responseAnswer r with
    | none => 3
    | some a =>
      if q.revoked.testBit i then 4
      else
        match expectedResponse s q i a.status with
        | none => 4
        | some x => if a.index ≠ i ∨ a.response ≠ x then 2 else 1

/-- The VERDICT status of a result (Table 14.4). -/
def verdictStatus (code : Nat) : Status :=
  if code = 1 then .ok else if code = 2 then .authFail else if code = 4 then .keyRevoked else .timeout

/-- A closed slot enters the plane as a VERDICT item (R356). -/
def verdictCap (i code : Nat) : CapRecord := { cls := 4, hall := 1, value := code, word := 2 + 256 * i }

/-- What a closed slot leaves in the poll and in its entry. -/
def noteSlot (s : State) (i code : Nat) (x : TokenResponse) : State :=
  let r := (responseAnswer x).getD {}
  let known := code != 0 && code != 3
  let s := s.onPoll fun q => { q with
    closed := setBit q.closed i true, result := vmod q.result i fun _ => code
    status := if known then vmod q.status i fun _ => r.status else q.status
    response := if known then vmod q.response i fun _ => r.response else q.response }
  let s := if known then
      engineRun (s.onToken i fun t => { t with lastStatus := r.status, lastValid := if code = 1 then s.rtc.time / 32768 else t.lastValid }) 30 1
    else s
  let s := if code = 3 then s.onAccess fun a => { a with garbled := satAdd32 a.garbled 1 } else s
  if code = 2 then
    let s := s.onAccessStore fun x => { x with failed := satAdd32 x.failed 1 }
    accessEvent s 0x0C02 i (s.store.access.failed % 65536) ((s.access.poll.map (·.comp)).getD 0)
  else s

/-- The stamp of the tick in which a slot has closed: so many ticks ago. -/
def stampAgo (s : State) (n : Nat) : Stamp := { s.wallStamp with tick := s.wallTick - n }

/-- The verdict of a slot that has closed `n` ticks ago is captured, stamped with its closing tick, or kept for tick 0 while the tick hall does not run
(R356, R362). -/
def noteVerdict (s : State) (i code n : Nat) : State :=
  if code = 0 then s
  else if s.plane.running then capItem s { verdictCap i (verdictStatus code).code with stamp := stampAgo s n }
  else s.onPoll fun q => { q with verdicts := q.verdicts ++ [(i, (verdictStatus code).code)] }

/-- After the last slot of a phase, one RETRY repeats the garbled ones, or the poll ends (R357). -/
def endPhase (s : State) : State :=
  match s.access.poll with
  | none => s
  | some q =>
    if q.closed &&& q.slots ≠ q.slots then s
    else if q.phase = 1 ∧ q.maskOf 3 ≠ 0 then
      s.onPoll fun q => { q with
        phase := 2, retry := q.maskOf 3, closed := 0, frameEnd := q.closeAt (topIndex q.mask) + 4000 + retryTicks }
    else finishPoll s q

/-- The device starts an ENTRY poll on its own (R348, R362); one that cannot start is left. -/
def autoPoll (s : State) (antMask : Nat) : State :=
  if s.access.poll.isSome ∨ antMask = 0 ∨ askMask s = 0 then s
  else (startPoll s { purpose := 1, antMask := antMask, buoy := !s.plane.running } none).1

end Sys2Proof.Machine
end

