-- ==== Sys2Proof/Machine/Access.lean ====
section
/-! DEFINITION. Access and engine release (chapter 14): handles, polls, tokens, sessions and the release. -/

namespace Sys2Proof.Machine

/-! Handle sensors (R347, R348). -/

/-- Settings of handle `k`. -/
def handleCfg (s : State) (k : Nat) : HandleCfg := vget (accessCfg s).handle k

/-- Handle `k`. -/
def handleOf (s : State) (k : Nat) : Handle := vget s.access.handle k

/-- Change handle `k`. -/
def State.onHandle (s : State) (k : Nat) (f : Handle → Handle) : State :=
  s.onAccess fun a => { a with handle := vmod a.handle k f }

/-- Units of 1/1,280 of 0.01 pF in 0.1 pF. -/
def tenthPf : Nat := 12800

/-- Polls in the time constant of 20 s: 64 Hz in Lantern and Beam, 16 Hz in Dark and Buoy (R347). -/
def baseDivisor (s : State) : Nat := if s.asleep then 320 else 1280

/-- One poll of a handle sensor that measures `m`, in 1/1,280 of 0.01 pF: the baseline follows while it is not touched, a touch needs CONFIRM polls in a row
at or above THRESH, and a release an excess below THRESH / 2 (R347). -/
def Handle.poll (h : Handle) (g : HandleCfg) (divisor m : Nat) : Handle :=
  let base := h.base.getD m
  let over_ := decide (base + g.thresh * tenthPf ≤ m)
  let count := if over_ then h.count + 1 else 0
  if h.touched then
    if 2 * m < 2 * base + g.thresh * tenthPf then { h with touched := false, count := 0 } else { h with count := 0 }
  else if over_ ∧ g.confirm ≤ count then { h with touched := true, count := 0, base := some base }
  else
    let step : Int := ((m : Int) - base) / divisor
    { h with count := count, base := some ((base : Int) + step).toNat }

/-- A poll of a handle sensor; `cap` in 0.01 pF. -/
def handlePoll (s : State) (k cap : Nat) : State :=
  if s.seq.powered then s.onHandle k fun h => h.poll (handleCfg s k) (baseDivisor s) (1280 * cap) else s

/-- A poll of a handle sensor (R347). -/
def execHandlePoll (k cap : Nat) (s : State) : Answer := effect s (handlePoll s k cap)

/-- The point of handle `k`. -/
def handlePoint (k : Nat) : Nat := pointAt 81 (200 + k)

/-- A change of touch state is delivered (R348): to its point while the device is awake; a touch latches a wake where WAKE_EN is set, and
starts an ENTRY poll where AUTO_POLL is. -/
def handleTouch (s : State) (k : Nat) : State :=
  let h := handleOf s k
  let g := handleCfg s k
  if h.touched = h.told then s
  else
    let s := s.onHandle k fun x => { x with told := x.touched }
    let s := observePoint s 0 k (handlePoint k) (BitVec.ofNat 16 (b2n h.touched)) []
    if !h.touched then s
    else
      let s := if g.wakeEn then latchWake s 2 k else s
      if g.autoPoll ∧ s.plane.running then autoPoll s g.antMask else s

/-- A handle is touched or released (R348). -/
def execHandleTouch (k : Nat) (s : State) : Answer := effect s (handleTouch s k)

/-! ACCESS.CONFIG. -/

/-- A submission only reads. -/
def acRead (p : Packet) : Bool := p.bit 16 0

/-- The settings that a submission gives (Table 14.9). -/
def acCfg (p : Packet) : AccessCfg :=
  { vehicle := p.num 17 3, sessionS := p.num 20 2, target := p.fld 22 0 2, sessionPoint := p.fld 24 0 19, doors := p.num 28 6
    handle := vtab 4 fun k =>
      { wakeEn := p.bit (40 + 4 * k) 0, autoPoll := p.bit (40 + 4 * k) 1, confirm := p.fld (40 + 4 * k) 2 2 + 1
        antMask := p.fld (41 + 4 * k) 0 6, thresh := p.num (42 + 4 * k) 1 }
    iAnt := vtab 6 fun a => p.num (56 + a) 1 }

/-- Values outside their ranges (Table 14.9), and a SESSION_POINT in G96–G127 (R11). -/
def AccessCfg.bad (g : AccessCfg) : Bool :=
  g.sessionS < 5 || 600 < g.sessionS || g.target < 2 || 96 ≤ gallery g.sessionPoint || (List.range 4).any (fun k => let h := vget g.handle k; h.thresh < 2 || 50 < h.thresh) ||
    (List.range 6).any fun a => vget g.iAnt a < 10 || 100 < vget g.iAnt a

/-- SESSION_POINT is none or a VARIABLE in G84–G95. -/
def sessionPointOk (s : State) (pt : Nat) : Bool :=
  pt == 0 || (84 ≤ gallery pt && gallery pt < 96 && typeCode s pt == 1)

/-- The settings do not go together (ACCESS.CONFIG, S_CONFLICT). -/
def AccessCfg.conflicts (g : AccessCfg) (s : State) : Bool :=
  (List.range 4).any (fun k => let h := vget g.handle k; (h.wakeEn || h.autoPoll) && h.antMask == 0) ||
    !sessionPointOk s g.sessionPoint || (bitList 48 g.doors).any fun i => !(siCfg s i).enable

/-- The settings as a reply. -/
def AccessCfg.reply (g : AccessCfg) : Reply :=
  [(17, 3, g.vehicle), (20, 2, g.sessionS), (22, 1, g.target), (24, 4, g.sessionPoint), (28, 6, g.doors)] ++
    (List.range 4).flatMap (fun k =>
      let h := vget g.handle k
      [(40 + 4 * k, 1, b2n h.wakeEn + 2 * b2n h.autoPoll + 4 * (h.confirm - 1)), (41 + 4 * k, 1, h.antMask), (42 + 4 * k, 1, h.thresh)]) ++
    (List.range 6).map fun a => (56 + a, 1, vget g.iAnt a)

/-- ACCESS.CONFIG (Table 14.9). -/
def accessConfigOp : Op where
  code := 0x0C10
  layout := fun _ =>
    [(16, 0, 1), (17, 0, 24), (20, 0, 16), (22, 0, 2), (24, 0, 19), (28, 0, 32), (32, 0, 16)] ++
      entryLayout 40 4 4 [(0, 0, 4), (1, 0, 6), (2, 0, 8)] ++ entryLayout 56 1 6 [(0, 0, 8)]
  bad := fun p _ => !acRead p && (acCfg p).bad
  deny := fun p s =>
    let pt := (acCfg p).sessionPoint
    !acRead p && pt != 0 && !mayWrite s p.comp (gallery pt)
  agree := fun p _ s => acRead p || !(accessCfg s).conflicts s
  run := fun p s =>
    if acRead p then { s := s, reply := (accessCfg s).reply }
    else { s := (s.onAccessStore fun x => { x with cfg := acCfg p }).onAccess fun a => { a with lfShort := 0 } }

/-- ACCESS.CONFIG. -/
def execAccessConfig (p : Packet) (s : State) : Answer := effect s (keeperTake accessConfigOp p s)

/-! Polls. -/

/-- A keeper packet that takes effect after its E is late. -/
def lateNow (p : Packet) (s : State) : Bool := decide (dueTick false p s < s.plane.tick)

/-- ACCESS.POLL (R368). -/
def accessPollOp : Op where
  code := 0x0C11
  member := fun _ => false
  layout := fun _ => [(16, 0, 4), (17, 0, 6)]
  bad := fun p _ => p.fld 16 0 4 != 1 && p.fld 16 0 4 != 2
  run := fun p s =>
    if askMask s = 0 ∨ p.fld 17 0 6 = 0 then { s := s, st := some .conflict }
    else if s.access.poll.isSome then { s := s, st := some .busy }
    else
      match startPoll s { purpose := p.fld 16 0 4, packet := some p, late := lateNow p s, antMask := p.fld 17 0 6 } none with
      | (s, some st) => { s := s, st := some st }
      | (s, none) => { s := writePending s p, st := none }

/-- ACCESS.POLL. -/
def execAccessPoll (p : Packet) (s : State) : Answer := effect s (keeperTake accessPollOp p s)

/-- An LF frame ends (R352): its antennas, which were not found open, stop and its slots begin. -/
def lfFrameEnd (s : State) : State :=
  match s.access.poll with
  | some q =>
    if (q.phase = 0 ∨ q.phase = 2) ∧ q.frameEnd ≤ s.now then
      let s := (driveAntennas s q q.antMask false).onPoll fun x => { x with phase := x.phase + 1, closed := 0 }
      s.onAccess fun a => { a with lfOpen := a.lfOpen - (a.lfOpen &&& q.antMask) }
    else s
  | none => s

/-- An LF frame ends. -/
def execLfFrameEnd (s : State) : Answer := effect s (lfFrameEnd s)

/-- The slot of an index closes (R356). -/
def slotClose (s : State) (i : Nat) (r : TokenResponse) : State :=
  match s.access.poll with
  | some q =>
    if (q.phase = 1 ∨ q.phase = 3) ∧ q.slots.testBit i ∧ !q.closed.testBit i ∧ q.closeAt i ≤ s.now then
      let code := classify s q i r
      endPhase (noteVerdict (noteSlot s i code r) i code (s.now - q.closeAt i))
    else s
  | none => s

/-- The slot of an index closes. -/
def execResponseSlotClose (index : Nat) (r : TokenResponse) (s : State) : Answer := effect s (slotClose s index r)

/-- An antenna of the frame that is sent is open (1), short (2) or without supply (3) (R350). -/
def antennaFault (s : State) (a kind : Nat) : State :=
  match s.access.poll with
  | some q =>
    if q.antMask.testBit a ∧ q.sending s.now ∧ (kind = 1 ∨ kind = 2 ∨ (kind = 3 ∧ lfSupplyLost s)) then dropAntenna s a kind else s
  | none => s

/-- An antenna fault. -/
def execAntennaFault (a kind : Nat) (s : State) : Answer := effect s (antennaFault s a kind)

/-- Seconds until SESSION_S has passed. -/
def sessionLeft (s : State) : Nat :=
  match s.access.session with
  | some x => (x.openedAt + 8000000 * (accessCfg s).sessionS - s.now) / 8000000
  | none => 0

/-- ACCESS.STATUS. -/
def accessStatusOp : Op where
  code := 0x0C12
  layout := fun _ => [(16, 0, 1)]
  run := fun p s =>
    let a := s.access
    let x := s.store.access
    let reply : Reply :=
      [(16, 1, b2n a.session.isSome), (17, 1, (a.session.map (·.index)).getD 0), (18, 1, b2n x.released), (19, 1, x.relIndex),
       (20, 4, x.failed), (24, 4, a.polls), (28, 4, a.grants), (32, 4, a.garbled), (36, 4, a.sent), (40, 4, a.skipped),
       (44, 1, a.lfOpen), (45, 1, a.lfShort), (46, 2, sessionLeft s)]
    { s := if p.bit 16 0 then s.onAccess fun a => { a with polls := 0, grants := 0, garbled := 0, sent := 0, skipped := 0 } else s
      reply := reply }

/-- ACCESS.STATUS. -/
def execAccessStatus (p : Packet) (s : State) : Answer := effect s (keeperTake accessStatusOp p s)

/-! Tokens. -/

/-- The entry that an enrolment writes. -/
def enrolEntry (p : Packet) (s : State) : Token :=
  { state := 1, rights := p.fld 18 0 2, keySlot := p.num 17 1, gen := (keySlot s (p.num 17 1)).generation, tokenId := p.num 20 4 }

/-- TOKEN.ENROLL (Table 14.11). -/
def tokenEnrollOp : Op where
  code := 0x0C00
  member := fun p => !p.bit 18 2
  layout := fun _ => [(16, 0, 3), (17, 0, 8), (18, 0, 3), (19, 0, 6), (20, 0, 32), (24, 0, 32)]
  bad := fun p _ => p.num 17 1 < 16
  deny := fun p s =>
    let k := p.num 17 1
    !mayKey s p.comp k || (keySlot s k).alg != 2 || !(keySlot s k).has 8
  run := fun p s =>
    let i := p.fld 16 0 3
    let e := enrolEntry p s
    if (tokenOf s i).state = 1 ∨ e.rights = 0 ∨ (p.bit 18 2 ∧ p.fld 19 0 6 = 0) then { s := s, st := some .conflict }
    else if targetStale s e.keySlot (p.num 24 4) then { s := s, st := some .keyChanged }
    else if s.access.poll.isSome then { s := s, st := some .busy }
    else if p.bit 18 2 then
      match startPoll s { purpose := 3, packet := some p, late := lateNow p s, antMask := p.fld 19 0 6
                          enrol := some { index := i, entry := e } } (some (2 ^ i)) with
      | (s, some st) => { s := s, st := some st }
      | (s, none) => { s := writePending s p, st := none }
    else { s := writeToken s i 1 p.comp fun _ => e, reply := [(16, 4, e.gen)] }

/-- TOKEN.ENROLL. -/
def execTokenEnroll (p : Packet) (s : State) : Answer := effect s (keeperTake tokenEnrollOp p s)

/-- TOKEN.REVOKE (R360). -/
def tokenRevokeOp : Op where
  code := 0x0C01
  layout := fun _ => [(16, 0, 3), (17, 0, 1), (20, 0, 32)]
  deny := fun p s =>
    let t := tokenOf s (p.fld 16 0 3)
    let k := keySlot s t.keySlot
    p.bit 17 0 && t.state == 1 && p.comp != 0 && !(k.owned && k.owner == p.comp)
  run := fun p s =>
    let i := p.fld 16 0 3
    let t := tokenOf s i
    if t.state ≠ 1 ∨ t.tokenId ≠ p.num 20 4 ∨ (p.bit 17 0 ∧ generationFull s t.keySlot) then { s := s, st := some .conflict }
    else
      let s := writeToken s i 2 p.comp fun x => { x with state := 2 }
      let s := s.onPoll fun q => { q with revoked := setBit q.revoked i true }
      let s := if (s.access.session.map (·.index)) = some i then closeSession s 4 p.comp else s
      let s := if s.store.access.released ∧ s.store.access.relIndex = i then blockRelease s 2 p.comp else s
      let s := if p.bit 17 0 then changeSlot s p t.keySlot false true false fun x => { x with alg := 0, owned := false, material := [] } else s
      { s := s, reply := [(16, 4, (keySlot s t.keySlot).generation)] }

/-- TOKEN.REVOKE. -/
def execTokenRevoke (p : Packet) (s : State) : Answer := effect s (keeperTake tokenRevokeOp p s)

/-- TOKEN.LIST. -/
def tokenListOp : Op where
  code := 0x0C02
  slotsOk := fun p => p.slotsField == 3
  run := fun _ s =>
    { s := s
      reply := (List.range 8).flatMap fun i =>
        let t := tokenOf s i
        let b := 16 + 16 * i
        [(b, 1, t.state + 4 * b2n (t.state == 1 && !t.keyed s)), (b + 1, 1, t.rights), (b + 2, 1, t.keySlot), (b + 3, 1, t.lastStatus),
         (b + 4, 4, t.tokenId), (b + 8, 4, t.gen), (b + 12, 4, t.lastValid)] }

/-- TOKEN.LIST. -/
def execTokenList (p : Packet) (s : State) : Answer := effect s (keeperTake tokenListOp p s)

/-- SESSION_S passes after the session opened (R361). -/
def sessionTimeout (s : State) : State :=
  match s.access.session with
  | some x => if x.openedAt + 8000000 * (accessCfg s).sessionS ≤ s.now then closeSession s 2 0 else s
  | none => s

/-- SESSION_S passes. -/
def execSessionTimeout (s : State) : Answer := effect s (sessionTimeout s)

/-! Engine release. -/

/-- The release settings that a submission gives (Table 14.12). -/
def relCfg (p : Packet) : ReleaseCfg :=
  { enable := p.bit 17 0, resume := p.bit 17 1, brs := p.bit 17 2, queue := p.fld 17 3 2, controller := p.fld 18 0 3, keySlot := p.num 19 1
    id := p.fld 20 0 29, ide := p.bit 20 29, periodMs := p.num 24 2 }

/-- An identifier lies in the NM range of a controller's network (R291). -/
def inNmRange (s : State) (c id : Nat) (ide : Bool) : Bool :=
  let g := netCfg s c
  (g.mode == 1 || g.mode == 2) && g.ide == ide && g.base ≤ id && id ≤ g.base + 63

/-- The reply of RELEASE.CONFIG: the state, the settings, and the slot's COUNTER. -/
def relReply (s : State) : Reply :=
  let g := s.store.access.release
  [(16, 1, b2n s.store.access.released), (17, 1, b2n g.enable + 2 * b2n g.resume + 4 * b2n g.brs + 8 * g.queue), (18, 1, g.controller),
   (19, 1, g.keySlot), (20, 4, g.id + 2 ^ 29 * b2n g.ide), (24, 8, (keySlot s g.keySlot).counter)]

/-- The release settings do not go together with those of their controller (RELEASE.CONFIG, S_CONFLICT). -/
def releaseClash (s : State) : Bool :=
  let g := s.store.access.release
  g.enable && (!(canCfg s g.controller).fd || inNmRange s g.controller g.id g.ide)

/-- RELEASE.CONFIG (Table 14.12). -/
def releaseConfigOp : Op where
  code := 0x0C20
  layout := fun _ => [(16, 0, 2), (17, 0, 5), (18, 0, 3), (19, 0, 8), (20, 0, 30), (24, 0, 16), (28, 0, 32)]
  bad := fun p _ =>
    let g := relCfg p
    p.fld 16 0 2 == 3 ||
      (p.fld 16 0 2 == 0 && (g.queue == 3 || g.keySlot < 16 || g.periodMs < 20 || 1000 < g.periodMs || (!g.ide && 2047 < g.id)))
  deny := fun p s =>
    let k := (relCfg p).keySlot
    p.fld 16 0 2 == 0 && (!mayKey s p.comp k || !releaseKey (keySlot s k))
  agree := fun p _ s => p.fld 16 0 2 != 0 || !releaseClash s
  run := fun p s =>
    let g := relCfg p
    if p.fld 16 0 2 = 1 then { s := s, reply := relReply s }
    else if p.fld 16 0 2 = 2 then
      let s := blockRelease s 1 p.comp
      { s := s, reply := relReply s }
    else if targetStale s g.keySlot (p.num 28 4) then { s := s, st := some .keyChanged }
    else
      let s := (s.onAccessStore fun x => { x with release := g }).onAccess fun a => { a with relFrames := [] }
      { s := s, reply := relReply s }

/-- RELEASE.CONFIG. -/
def execReleaseConfig (p : Packet) (s : State) : Answer := effect s (keeperTake releaseConfigOp p s)

/-- A release frame is due to be built in this tick: 8,000 ticks before a multiple of P, or as the extra frame of a block (R364, R365). -/
def frameDue (s : State) : Bool :=
  let g := s.store.access.release
  g.enable && s.plane.running && (s.seq.state == .lantern || s.seq.state == .beam) &&
    (s.access.extraAt == some s.plane.lin ||
      ((s.plane.tick + 8000) % (8000 * g.periodMs) == 0 && !s.access.relFrames.any fun f => f.at_ == s.plane.lin + 8000))

/-- The frame (Table 14.6) under a key with its FIXED and a counter value. -/
def releaseFrame (s : State) (key : KeySlot) (n : Nat) : CanFrame :=
  let g := s.store.access.release
  let (on, index) := releaseShown s
  let plain := leBytes 1 (if on then 0x5A else 0xA5) ++ leBytes 1 (if on then index else 0xFF) ++
    beBytes 2 (s.access.sessions % 65536) ++ List.replicate 4 0
  let iv := drawnIv key.fixed n
  let aad := beBytes 4 (g.id + 2 ^ 31 * b2n g.ide)
  let cipher := Config.gcmCrypt key.material iv 0 plain
  { id := g.id, ide := g.ide, fdf := true, brs := g.brs, len := 32
    data := beBytes 8 n ++ cipher ++ Config.gcmTag key.material iv aad cipher }

/-- A release frame is built and its COUNTER drawn (R365); without a key, or with an exhausted counter, the release is blocked. -/
def buildFrame (s : State) : State :=
  if !frameDue s then s
  else
    let k := s.store.access.release.keySlot
    let key := keySlot s k
    if !releaseKey key then blockRelease s 4 0
    else
      match drawCommitted s k with
      | (s, .value n) =>
        let f : RelFrame := { at_ := s.plane.lin + 8000, counter := n, frame := releaseFrame s key n }
        let s := (engineRun s 28 4).onAccess fun a => { a with
          relFrames := (a.relFrames.filter fun x => x.at_ != s.plane.lin + 8000) ++ [f]
          extraAt := if a.extraAt = some s.plane.lin then none else a.extraAt }
        writeReleaseRecords s n
      | (s, _) => blockRelease s 5 0

/-- A release frame is built. -/
def execReleaseFrameBuild (s : State) : Answer := effect s (buildFrame s)

/-- A release frame is handed to its controller, or skipped and counted (R365); its ciphertext and tag enter the result stream as their length. -/
def handReleaseFrame (s : State) : State :=
  match s.access.relFrames with
  | [] => s
  | f :: rest =>
    if s.plane.lin < f.at_ then s
    else
      let g := s.store.access.release
      let m := canMode s g.controller
      let s := s.onAccess fun a => { a with relFrames := rest }
      if m.op = 1 ∧ m.fd ∧ queueFree (canOf s g.controller) g.queue ∧ f.at_ = s.plane.lin then
        (handCan s g.controller g.queue { frame := f.frame, mac := 24 } false).1.onAccess fun a => { a with sent := satAdd32 a.sent 1 }
      else s.onAccess fun a => { a with skipped := satAdd32 a.skipped 1 }

/-- A release frame is handed over. -/
def execReleaseFrameHandover (s : State) : Answer := effect s (handReleaseFrame s)

end Sys2Proof.Machine
end

