-- ==== Sys2Proof/Machine/RingOps.lean ====
section
/-! DEFINITION. The ring control blocks and the device status block (chapter 03, R71–R76, R413, Tables 03.2 and 03.3): doorbells, size
changes, and what a write or a read of a register does. -/

namespace Sys2Proof.Machine

/-- The hall that owns a ring's doorbell (R33): H1 for C0, C14 and C15, H2 for C1–C13. -/
def ringHall (s : State) (r : Nat) : Nat :=
  match ringOwner (chartersInForce s) r with
  | some c => if c = 0 ∨ 14 ≤ c then 1 else 2
  | none => 1

/-- The compartment that a dump ring is granted to (R394). -/
def dumpGrantee (s : State) (r : Nat) : Option Nat :=
  (List.range 16).find? fun c =>
    let g := vget s.store.watch.grant c
    if r = 60 then g.ring60 else if r = 61 then g.ring61 else false

/-- A compartment reaches the control block of a ring: its owner, the keeper, and for a dump ring its grantee. C15 has no access of its own:
the keeper acts for it (R95). -/
def reachesBlock (s : State) (c r : Nat) : Bool :=
  r < 64 && c < 15 && (c == 0 || ownsRing s c r || dumpGrantee s r == some c)

/-- A compartment may write DOORBELL of a ring: on a granted dump ring only the grantee (R394). -/
def mayDoor (s : State) (c r : Nat) : Bool :=
  reachesBlock s c r && (match dumpGrantee s r with | some g => g == c | none => true)

/-- A doorbell of software that produces would place more than SIZE − 1 slots between RETIRE and TAIL (R73). -/
def Ring.overfills (g : Ring) (index : Nat) : Bool :=
  g.size - 1 < (g.tail + g.size - g.retire) % g.size + (index + g.size - g.tail) % g.size

/-- A doorbell is rejected: BADDOOR is set and nothing changes. -/
def badDoor (s : State) (r : Nat) : State := bump (s.onRing r (·.bad)) 4 r 1

/-- A doorbell on a ring whose producer is software (R73). What a dropped hall stamps is discarded (R26). -/
def submitDoor (s : State) (r index : Nat) : State :=
  let g := s.ring r
  if g.size ≤ index ∨ (!s.seq.ready ∧ r ≠ 28 ∧ r ≠ 29) then badDoor s r
  else if index = g.tail ∨ (vget s.plane.halls (ringHall s r)).dropped then s
  else if g.overfills index then badDoor s r
  else
    let s := s.onRing r fun g => { g with tail := index, arrival := s.wallStamp, batches := g.batches ++ [(index, s.wallStamp)] }
    let s := bump (if packetRings.contains r then captureVisible r 4096 s else s) 3 r 1
    if 32 ≤ r ∧ r < 48 then setDomain s 5 true else s

/-- A doorbell on a ring whose producer is the device (R74). -/
def consumeDoor (s : State) (r index : Nat) : State :=
  let g := s.ring r
  if g.size ≤ index then badDoor s r
  else if index = g.head then s
  else if g.filled < g.ahead index then badDoor s r
  else bump (s.onRing r fun g => { g with head := index }) 3 r 1

/-- A write of DOORBELL; on a ring that no charter grants it is ignored (R71). -/
def ringDoor (s : State) (c r index : Nat) : State :=
  if s.plane.running ∧ mayDoor s c r ∧ (ringOwner (chartersInForce s) r).isSome then
    if deviceProduces s r then consumeDoor s r index else submitDoor s r index
  else s

/-- What a change of SIZE_LOG2 clears (R413). On a ring whose producer is software, admitted packets keep the addresses they were admitted
from, and an open flight is dropped with its members. -/
def Ring.restart (g : Ring) (device : Bool) : Ring :=
  let gone := fun (a : Admitted) => match g.openFlight with
    | some f => f.members.any fun p => p.slot == a.slot && p.arrival == a.arrival
    | none => false
  let kept := g.admitted.filter fun a => !a.done && !gone a
  { g with
    head := 0, tail := 0, scan := 0, overrun := false, batches := [], admitted := [], drops := 0
    flights := if g.openFlight.isSome then g.flights.dropLast else g.flights
    orphans := if device then g.orphans
      else g.orphans ++ kept.map fun a =>
        { slot := a.slot, arrival := a.arrival, addr := g.slotAddr a.slot, slots := a.slots, keeper := a.keeper, fits := a.fits
          entry := a.entry } }

/-- A ring of 2^n slots at its BASE may be enabled (R71, R72). -/
def mayEnable (s : State) (r n : Nat) : Bool :=
  4 ≤ n && n ≤ 12 &&
    (match ringOwner (chartersInForce s) r with
     | some c => reaches s c (s.ring r).base (64 * 2 ^ n)
     | none => false)

/-- A write of SIZE_LOG2 (R413, R72). -/
def setRingSize (s : State) (r n : Nat) : State :=
  let g := s.ring r
  if g.sizeLog2 = n then s
  else
    let en := mayEnable s r n
    s.onRing r fun g =>
      let g := { Ring.restart g (deviceProduces s r) with sizeLog2 := n, enabled := en }
      if n = 0 ∨ en then g else g.bad

/-- A compartment's write of SIZE_LOG2; a grantee of a dump ring may only read the block. -/
def ringSize (s : State) (c r n : Nat) : State :=
  if s.plane.running ∧ reachesBlock s c r ∧ (c = 0 ∨ ownsRing s c r) then setRingSize s r n else s

/-! Register access. -/

/-- The base of the ring control blocks. -/
def blockBase : Nat := 0x40000000

/-- The base of the device status block. -/
def statusBase : Nat := 0x40002000

/-- Write one word of a ring control block (Table 03.2). -/
def writeBlock (s : State) (c r off v : Nat) : State :=
  if off = 0x10 then ringDoor s c r (v % 4096)
  else if !(s.plane.running ∧ reachesBlock s c r ∧ (c = 0 ∨ ownsRing s c r)) then s
  else if off = 0x00 then
    if (s.ring r).sizeLog2 = 0 then s.onRing r fun g => { g with base := v / 64 % 2 ^ 26 * 64 } else s
  else if off = 0x04 then setRingSize s r (v % 16)
  else if off = 0x14 then
    s.onRing r fun g => { g with baddoor := g.baddoor && !v.testBit 18, overrun := g.overrun && !v.testBit 19 }
  else if off = 0x18 then
    s.onRing r fun g => { g with
      doneEn := v.testBit 0, errEn := v.testBit 1, coalesce := bitsOf v 4 8, irqPending := g.irqPending && !v.testBit 31 }
  else s

/-- Write one word of the device status block (Table 03.3): C0 and C14 only. -/
def writeStatus (s : State) (c off v : Nat) : State :=
  if !(s.plane.running ∧ (c = 0 ∨ c = 14)) then s
  else if off = 0x18 then
    s.onPlane fun p => { p with status := { p.status with
      hallFault := p.status.hallFault - (p.status.hallFault &&& (v % 512)), clockLoss := p.status.clockLoss && !v.testBit 12
      late := p.status.late && !v.testBit 13, overrun := p.status.overrun && !v.testBit 14 } }
  else if off = 0x20 then s.onPlane fun p => { p with status := { p.status with faultIrqEn := v % 2 ^ 16 } }
  else s

/-! The shadow blocks of pair 1 in a trial run (R339). The commands name the compartment c of pair 1 as 16 + c. -/

/-- Compartment `c` of pair 1 reaches the shadow block of a ring: that of a ring of its own. -/
def shadowReach (s : State) (c r : Nat) : Bool := trialRuns s && r < 64 && isApp c && ownsRing s c r

/-- A doorbell of pair 1 (R73, R74). -/
def shadowDoor (s : State) (r index : Nat) : State :=
  let g := shadowRing s r
  if g.size ≤ index then s.onShadow r (·.bad)
  else if deviceProduces s r then
    if g.filled < g.ahead index then s.onShadow r (·.bad) else s.onShadow r fun g => { g with head := index }
  else if index = g.tail then s
  else if g.overfills index then s.onShadow r (·.bad)
  else s.onShadow r fun g => { g with tail := index, arrival := s.wallStamp }

/-- A write of SIZE_LOG2 by pair 1 (R413), in the reach that the candidate's SRAM_NEED gives (R72, R339). -/
def shadowSize (s : State) (r n : Nat) : State :=
  s.onShadow r fun g =>
    if g.sizeLog2 = n then g
    else
      let en := 4 ≤ n && n ≤ 12 && reachesShadow s g.base (64 * 2 ^ n)
      let g := { g with head := 0, tail := 0, overrun := false, admitted := [], sizeLog2 := n, enabled := en }
      if n = 0 ∨ en then g else g.bad

/-- Write one word of a shadow block (Table 03.2). -/
def shadowBlock (s : State) (r off v : Nat) : State :=
  if off = 0x10 then shadowDoor s r (v % 4096)
  else if off = 0x04 then shadowSize s r (v % 16)
  else s.onShadow r fun g =>
    if off = 0x00 ∧ g.sizeLog2 = 0 then { g with base := v / 64 % 2 ^ 26 * 64 }
    else if off = 0x14 then { g with baddoor := g.baddoor && !v.testBit 18, overrun := g.overrun && !v.testBit 19 }
    else if off = 0x18 then
      { g with doneEn := v.testBit 0, errEn := v.testBit 1, coalesce := bitsOf v 4 8, irqPending := g.irqPending && !v.testBit 31 }
    else g

/-- An access of compartment `c` of pair 1 to a ring: one outside its windows ends the trial (R339). -/
def shadowAccess (s : State) (c r : Nat) (f : State → State) : State := if shadowReach s c r then f s else shadowFault s

/-- Write one aligned word of the register space. -/
def busWrite (s : State) (c addr v : Nat) : State :=
  if addr % 4 ≠ 0 then s
  else if 16 ≤ c then
    if blockBase ≤ addr ∧ addr < blockBase + 0x1000 then
      let r := (addr - blockBase) / 64
      shadowAccess s (c - 16) r fun s => shadowBlock s r ((addr - blockBase) % 64) v
    else shadowFault s
  else if blockBase ≤ addr ∧ addr < blockBase + 0x1000 then writeBlock s c ((addr - blockBase) / 64) ((addr - blockBase) % 64) v
  else if statusBase ≤ addr ∧ addr < statusBase + 64 then writeStatus s c (addr - statusBase) v
  else s

/-- Read one word of a ring control block; other blocks read 0 (Table 03.2). -/
def readBlock (s : State) (c r off : Nat) : Nat :=
  let g := s.ring r
  if !(s.plane.running ∧ reachesBlock s c r) then 0
  else if off = 0x00 then g.base
  else if off = 0x04 then
    g.sizeLog2 + 256 * ((ringOwner (chartersInForce s) r).getD 0) + 4096 * b2n (ringOwner (chartersInForce s) r).isSome +
      65536 * ringKind r
  else if off = 0x08 then g.head
  else if off = 0x0C then g.tail
  else if off = 0x14 then ringStatusWord s r
  else if off = 0x18 then b2n g.doneEn + 2 * b2n g.errEn + 16 * g.coalesce + 2 ^ 31 * b2n g.irqPending
  else if off = 0x20 then g.arrival.word % 2 ^ 32
  else if off = 0x24 then g.arrival.word / 2 ^ 32
  else 0

/-- Read one word of the device status block (Table 03.3); bytes 0x0C–0x0F are the latch of TICK_NOW. In Buoy, where the logic die runs without the tick
hall, DEV_STATE follows the state (R279). -/
def readStatus (s : State) (off : Nat) : Nat :=
  if !s.plane.running then (if off = 0x00 ∧ s.seq.state = .buoy then s.seq.state.code else 0)
  else if off = 0x00 then s.seq.state.code + 65536 * (s.plane.epoch % 65536)
  else if off = 0x04 then b2n s.seq.ready
  else if off = 0x08 then s.wallStamp.word % 2 ^ 32
  else if off = 0x0C then s.plane.status.tickLatch
  else if off = 0x10 then irqSummary s % 2 ^ 32
  else if off = 0x14 then irqSummary s / 2 ^ 32
  else if off = 0x18 then faultSummary s
  else if off = 0x20 then s.plane.status.faultIrqEn
  else 0

/-- A read of TICK_NOW byte 0x08 latches bytes 0x0C–0x0F for the next read (Table 03.3). -/
def latchTick (s : State) : State :=
  if s.plane.running then
    s.onPlane fun p => { p with status := { p.status with tickLatch := s.wallStamp.word / 2 ^ 32 } }
  else s

end Sys2Proof.Machine
end

