-- ==== Sys2Proof/Machine/WatchOps.lean ====
section
/-! DEFINITION. The shared operations of the watch room (chapter 16): which selectors are valid, what a reading gives, rates, and the dump
rings. -/

namespace Sys2Proof.Machine

/-- Change the watch room. -/
def State.onWatch (s : State) (f : Watch → Watch) : State := { s with watch := f s.watch }

/-- Change the settings of the watch room. -/
def State.onWatchStore (s : State) (f : WatchStore → WatchStore) : State := s.onStore fun st => { st with watch := f st.watch }

/-! Selectors (R386, Table 16.1). -/

/-- The INDEX of an edge-mode selector lies in its range. -/
def edgeValid (s : State) (h cls i : Nat) : Bool :=
  let lo := i % 16
  let hi := i / 16
  match cls with
  | 0x01 => hi < 10 && landingConsumer hi == h && lo < (landingInputs hi).length
  | 0x02 => (h == 1 || h == 3) && i < 16
  | 0x03 => (h == 1 || h == 2) && i < 64 && ringHall s i == h
  | 0x04 => (h == 1 || h == 2) && i < 64 && ringHall s i == h
  | 0x05 => h == 3 && i < 2
  | 0x06 => h == 3 && i < 5
  | 0x07 => h == 4 && i < 32
  | 0x08 => h == 4 && i < 32
  | 0x09 => h == 5 && hi < 2 && lo < 10
  | 0x0A => h == 5 && i < 10
  | 0x0B => h == 6 && hi < 5 && lo < 14
  | 0x0C => h == 1 && i == 0
  | 0x0D => h == 7 && i < 60
  | 0x0E => (h == 3 || h == 8) && i == 0
  | 0x0F => h == 0 && 1 ≤ i && i ≤ 10
  | 0x10 => h == 2 && i < 4
  | _ => false

/-- The INDEX of a level-mode selector lies in its range. -/
def levelValid (s : State) (h cls i : Nat) : Bool :=
  match cls with
  | 0x01 => edgeValid s h cls i
  | 0x05 => edgeValid s h cls i
  | 0x06 => edgeValid s h cls i
  | 0x07 => edgeValid s h cls i
  | 0x0B => h == 6 && i / 16 == 5 && i % 16 < 14
  | 0x0D => edgeValid s h cls i
  | 0x10 => h == 2 && (i == 4 || i == 5)
  | 0x7F => i == 0
  | _ => false

/-- A selector of hall `h` is valid. -/
def selectorValid (s : State) (h : Nat) (x : Selector) : Bool :=
  if x.level then levelValid s h x.cls x.index else edgeValid s h x.cls x.index

/-! Readings (R385, R387). -/

/-- Clock cycles of a hall in 128 ticks (Table 00.2, R15). -/
def cyclesPer128 (h : Nat) : Nat :=
  match h with
  | 0 => 64
  | 1 => 6400
  | 2 => 16000
  | 3 => 4096
  | 4 => 5000
  | 5 => 6250
  | 6 => 1280
  | 7 => 1024
  | _ => 512

/-- Clock cycles of hall `h` that end in the running ticks from `a` up to `b`. -/
def cyclesBetween (h a b : Nat) : Nat := cyclesPer128 h * b / 128 - cyclesPer128 h * a / 128

/-- The last tick that a reading at this tick holds (R387): that of H0 goes to the end of its cycle of 250 ns, that of H8 to the end of its
barrier-link window. -/
def latchLin (s : State) (h : Nat) : Nat :=
  if h = 8 then s.plane.lin + (15 - s.plane.tick % 16) else if h = 0 then s.plane.lin + (1 - s.plane.lin % 2) else s.plane.lin

/-- The stream of hall `h` lags in landing `l`: it has not reported the tick before (R24). The reader of a replay is none: it holds a dry replay back by
stretching (R44). -/
def streamLags (s : State) (l h : Nat) : Bool :=
  let x := vget (vget s.plane.landings l).streams h
  x.joined && x.progress < s.wallTick && !readerFeeds s h

/-- The condition of a level-mode selector holds in this tick (Table 16.1). -/
def levelHolds (s : State) (x : Selector) : Bool :=
  match x.cls with
  | 0x01 => ((landingInputs (x.index / 16))[x.index % 16]?).any (streamLags s (x.index / 16))
  | 0x05 => !s.plane.waiting.isEmpty
  | 0x06 => !s.points.queue.isEmpty
  | 0x07 => 0 < contextWork s x.index
  | 0x0D => (vget s.load.ch x.index).limiting
  | _ => false

/-- The spec's words give the model no tick-by-tick view of a level-mode condition: whether a bus is idle, a pair waits on MRAM, or a low-side channel limits
its current. -/
def levelFree (x : Selector) : Bool := x.cls == 0x0B || x.cls == 0x10 || (x.cls == 0x0D && 56 ≤ x.index)

/-- At the end of a tick every enabled counter in level mode whose condition holds counts the tick's clock cycles of its hall (R385). -/
def levelTick (s : State) : State :=
  s.onWatch fun w => { w with
    cnt := s.store.watch.sel.foldl (fun t e =>
      if e.2.enable && e.2.level && (vget s.plane.halls (e.1 / 16)).on && levelHolds s e.2 then
        Tbl.put t 0 e.1 ((Tbl.get t 0 e.1 + cyclesBetween (e.1 / 16) s.wallLin (s.wallLin + 1)) % 2 ^ 48)
      else t) w.cnt }

/-- The running tick from which a counter counts. -/
def countsFrom (s : State) (h k : Nat) : Nat :=
  max (Tbl.get s.watch.clearedAt 0 h) (Tbl.get s.watch.clearedAt 0 (256 + 16 * h + k))

/-- A counter's value at the end of this tick; what the model cannot see of a bus or a pair is a free value (log entry 108). -/
def readCounter (s : State) (h k : Nat) : Nat × State :=
  let x := Tbl.get s.store.watch.sel {} (16 * h + k)
  let n := Tbl.get s.watch.cnt 0 (16 * h + k)
  if !(vget s.plane.halls h).on ∨ !x.enable then (n, s)
  else if x.cls = 0x7F then (cyclesBetween h (countsFrom s h k) (latchLin s h + 1) % 2 ^ 48, s)
  else if (x.level ∧ levelFree x) ∨ x.cls = 0x10 then s.takeFree 48
  else if x.level ∧ levelHolds s x then ((n + cyclesBetween h s.plane.lin (s.plane.lin + 1)) % 2 ^ 48, s)
  else (n, s)

/-- The block of a hall (R392): 16 counters of 6 bytes. -/
def hallBlock (s : State) (h : Nat) : List Byte × State :=
  (List.range 16).foldl (fun a k =>
    let (v, s) := readCounter a.2 h k
    (a.1 ++ leBytes 6 v, s)) ([], s)

/-- The number of ports (Table 16.2). -/
def portCount : Nat := 39

/-- The meters of every port. -/
def readMeters (s : State) : List Meter := (List.range portCount).map fun n => Tbl.get s.watch.meter {} n

/-- A port is on and its link is up. -/
def meterUp (s : State) (code : Nat) : Bool :=
  if code < 8 then (portOf s code).link == 1
  else if code < 16 then (canMode s (code - 8)).op != 0
  else if code < 22 then (linCfg s (code - 16)).role != 0
  else if code < 38 then (linkCfg s (code - 22)).enable && linksUp s && !(linkOf s (code - 22)).brk
  else s.pins.vio && s.seq.ready

/-- At the end of a tick, every port that is up is noted. -/
def noteUp (s : State) : State :=
  s.onWatch fun w => { w with
    upAt := (List.range portCount).foldl (fun t n => if meterUp s n then Tbl.put t 0 n (s.wallLin + 1) else t) w.upAt }

/-- The start of a port's window and the meter there: the last reading, or the clearing if that is later (R390). -/
def windowStart (s : State) (last : Option (Nat × List Meter)) (code : Nat) : Nat × Meter :=
  let c := Tbl.get s.watch.clearedAt 0 (meterHall code)
  match last with
  | some (l, m) => if c ≤ l then (l, m.getD code {}) else (c, {})
  | none => (c, {})

/-- The advance of a meter, modulo 2^48. -/
def advance48 (now old : Nat) : Nat := (now + 2 ^ 48 - old) % 2 ^ 48

/-- A rate in kbit/s (R390). -/
def rateOf (delta ticks : Nat) : Nat := min (delta * 8000 / ticks) 0xFFFFFFFF

/-- A port entry (Table 16.4); over a window of no length the rates are free values. -/
def portEntry (s : State) (last : Option (Nat × List Meter)) (code : Nat) : List Byte × State :=
  let m := Tbl.get s.watch.meter {} code
  let (l1, old) := windowStart s last code
  let down := !meterUp s code && Tbl.get s.watch.upAt 0 code ≤ l1 + 1
  let head := leBytes 1 code ++ leBytes 1 (b2n down) ++ leBytes 2 0 ++ leBytes 6 m.rx ++ leBytes 6 m.tx
  if s.plane.lin ≤ l1 then
    let (a, s) := s.takeFree 32
    let (b, s) := s.takeFree 32
    (head ++ leBytes 4 a ++ leBytes 4 b, s)
  else
    let t := s.plane.lin - l1
    (head ++ leBytes 4 (rateOf (advance48 m.rx old.rx) t) ++ leBytes 4 (rateOf (advance48 m.tx old.tx) t), s)

/-- The entries of ports, in order. -/
def portEntries (s : State) (last : Option (Nat × List Meter)) (codes : List Nat) : List Byte × State :=
  codes.foldl (fun a n =>
    let (b, s) := portEntry a.2 last n
    (a.1 ++ b, s)) ([], s)

/-- The blocks of halls, in order. -/
def hallBlocks (s : State) (halls : List Nat) : List Byte × State :=
  halls.foldl (fun a h =>
    let (b, s) := hallBlock a.2 h
    (a.1 ++ b, s)) ([], s)

/-- The header of a dump record (Table 16.3). -/
def dumpHeader (s : State) (seq window slots cleared dropped mask : Nat) (first skip : Bool) : List Byte :=
  leBytes 8 s.stamp.word ++ leBytes 4 seq ++ leBytes 4 window ++ leBytes 1 (b2n first + 2 * b2n skip) ++ leBytes 1 slots ++
    leBytes 2 cleared ++ leBytes 4 (min dropped 0xFFFFFFFF) ++ leBytes 8 mask

/-! Dump rings (R391–R393). -/

/-- Where the slot array of a dump ring lies in keeper SRAM. -/
def dumpBase (i : Nat) : Nat := 0x44100000 + 0x40000 * i

/-- Slots of a dump record at a mask (R392). -/
def dumpSlots (i mask : Nat) : Nat :=
  let n := if i = 0 then 96 * (bitList 9 mask).length else 24 * (bitList portCount mask).length
  (32 + n + 63) / 64

/-- Enable or disable a dump ring as its settings say: enabling it begins a new run. -/
def applyDump (s : State) (i : Nat) : State :=
  let c := vget s.store.watch.dump i
  let g := s.ring (60 + i)
  if c.enable then
    if g.enabled then s
    else
      let s := s.onRing (60 + i) fun g => { g with base := dumpBase i, sizeLog2 := 0 }
      (setRingSize s (60 + i) c.sizeLog2).onWatch fun w => { w with dump := vmod w.dump i fun _ => {} }
  else setRingSize s (60 + i) 0

/-- Write a dump record: a record with SKIP fills the ring to its end where the record would pass it; a ring without room for both drops the
record (R392, R393). -/
def dumpPut (s : State) (i : Nat) (rec_ : Nat → Nat → List Byte) (skip : Nat → Nat → List Byte) (slots : Nat) : State × Bool :=
  let r := 60 + i
  let g := s.ring r
  let seq := (vget s.watch.dump i).seq
  let fill := if g.size < g.tail + slots then g.size - g.tail else 0
  if g.size = 0 ∨ g.room < fill + slots then ((s.onRing r (·.drop 1)).setOverrun, false)
  else
    let (s, seq) := if fill = 0 then (s, seq) else (ringWrite s r (padTo (64 * fill) (skip seq fill)), seq + 1)
    let s := ringWrite s r (padTo (64 * slots) (rec_ seq g.drops))
    let s := s.onRing r fun g => { g with drops := 0 }
    (s.onWatch fun w => { w with dump := vmod w.dump i fun d => { d with seq := seq + 1 } }, true)

/-- The reading of a dump ring that falls due (R391). -/
def watchDump (s : State) (r : Nat) : State :=
  let i := r - 60
  let c := vget s.store.watch.dump i
  let d := vget s.watch.dump i
  let w := 8000 * c.window
  if r ≠ 60 ∧ r ≠ 61 ∨ !s.plane.running ∨ !c.enable ∨ !(s.ring r).enabled ∨ s.plane.tick % w ≠ 0 ∨ d.readAt = some s.plane.lin then s
  else
    let (body, s) := if i = 0 then hallBlocks s (bitList 9 c.mask) else portEntries s d.last (bitList portCount c.mask)
    let slots := dumpSlots i c.mask
    let cleared := if i = 0 then d.cleared else 0
    let s := s.onWatch fun x => { x with dump := vmod x.dump i fun y => { y with readAt := some s.plane.lin } }
    let (s, ok) := dumpPut s i (fun seq drops => dumpHeader s seq w slots cleared drops c.mask d.last.isNone false ++ body)
      (fun seq fill => dumpHeader s seq w fill 0 0 c.mask false true) slots
    if ok then
      s.onWatch fun x => { x with
        dump := vmod x.dump i fun y => { y with cleared := 0, last := some (s.plane.lin, readMeters s) } }
    else s

end Sys2Proof.Machine
end

