-- ==== Sys2Proof/Machine/TickOps.lean ====
section
/-! DEFINITION. The end of a tick and the step to the next (R15, R16, R25, R103, R108, R118): changes are decided, the frame of the internal
link is built, resets that a packet asked for are asserted, and every count advances. -/

namespace Sys2Proof.Machine

/-! The end of a tick. -/

/-- A write by another writer to the point of a motor whose run is in progress, which ends the run even where it changes nothing (R155), or to the fire
point of a VALVE.FIRE whose request has not reached the power hall. -/
def takesOutput (s : State) (w : PWrite) : Bool :=
  let n := position w.pt
  let another := fun (p : Packet) => !(w.kind == .direct && w.hall == p.hall && w.idx == p.order)
  if 100 ≤ n ∧ n < 112 then (hbOf s (n - 100)).run.any fun r => r.ended.isNone && another r.packet
  else if 200 ≤ n ∧ n < 208 then (valveOf s (n - 200)).phase == .idle && (valveOf s (n - 200)).packet.any another
  else false

/-- The commands that the frame of the next tick carries: the changes of G80 in this tick but for values read back (R69), and the channels that LOAD.SET has
commanded without a change (R66, R125). An entry of LOAD.SET commands its channel only where its value still stands at the end of the tick (DESIGN CHOICE,
log entry 166). -/
def tickCmds (s : State) : List (Nat × PVal) :=
  let changed := (orderedWrites s.points.now).filterMap fun e =>
    if gallery e.w.pt = 80 ∧ !e.w.adopted ∧ (e.old ≠ e.w.v ∨ takesOutput s e.w) then some (e.w.pt, e.w.v) else none
  changed ++ (s.plane.commanded.filter fun c => pget s c.1 == c.2 && !changed.any fun x => x.1 == c.1)

/-- The field outputs that have changed in this tick: the commands that go out over L3 (R30, R219). -/
def fieldCmds (s : State) : List (Nat × PVal) :=
  (orderedWrites s.points.now).filterMap fun e => if gallery e.w.pt = 82 ∧ e.w.hall ≠ 8 ∧ e.old ≠ e.w.v then some (e.w.pt, e.w.v) else none

/-- REFLEX_OVERFLOW once for a tick in which evaluations were skipped or writes moved (R108, R117). -/
def overflowEvent (s : State) : State :=
  if 0 < s.points.overflowNow ∨ s.points.movedNow then postEvent s (s.ev 3 0x0404 0 (sat16 s.points.overflowNow)) else s

/-- Carry out one reset that SYS.RESET or a keeper image change has asserted for the end of the tick (Table 03.19): a logic reset writes no
reply, a pair or hall reset completes its packet afterwards. The keeper seals the open segment before its own logic reset (Table 15.6). -/
def runReset (s : State) (d : ResetDue) : State :=
  if s.seq.inReset then s
  else if d.scope = 0 then assertLogic (sealSegment s 7) d.cause false
  else
    let s := if d.scope = 1 then pairReset s d.cause.index 12 d.cause.index else hallReset s d.cause.index
    match d.packet with
    | some p => completeNow s p (lateStatus d.late .ok) []
    | none => s

/-- Carry out the resets of the tick, in the order in which they were asserted. -/
def runResets (s : State) : State :=
  let l := s.seq.resetDue
  l.foldl runReset (s.onSeq fun q => { q with resetDue := [] })

/-- The stream that holds a landing back in this tick: of the joined streams that have not reported the tick before, the one with the greatest
lag (R24, R25); of streams with equal lag the first in the order of `landingInputs` (DESIGN CHOICE, log entry 115: R25 names none). The reader of a
replay is none of them (R44). -/
def lateInput (s : State) (l : Nat) : Option Nat :=
  let x := vget s.plane.landings l
  let late := (landingInputs l).filter (streamLags s l)
  late.foldl (fun a h =>
    match a with
    | none => some h
    | some g => if (vget x.streams h).progress < (vget x.streams g).progress then some h else some g) none

/-- Count a late tick of one landing (R25). -/
def countLateTick (s : State) (l : Nat) : State :=
  match lateInput s l with
  | none => s
  | some h =>
    (bump s 1 (16 * l + (landingInputs l).idxOf h) 1).onPlane fun p => { p with
      landings := vmod p.landings l fun x => { x with streams := vmod x.streams h fun y => { y with late := satAdd32 y.late 1 } }
      capture := if p.capture.running then { p.capture with lateTicks := satAdd32 p.capture.lateTicks 1 } else p.capture }

/-- The tick that the tick hall acts on is decided (R103, R108): moved writes that it had no room for move on and are counted again, and the
changes that have not been noted are. -/
def settleTick (s : State) : State :=
  overflowEvent (tellChanges (fun _ => true) (s.points.deferred.foldl countMoved s))

/-! Whether an input lags. -/

/-- The bytes that the host has written into ring 63 and the reader has not taken (Table 01.14). -/
def hostBytes (s : State) : List Byte :=
  let g := s.ring 63
  ((List.range g.filled).flatMap fun i => memReadN s (g.slotAddr ((g.head + i) % max 1 g.size)) 64).drop s.plane.replay.pos

/-- The record that 16 header bytes spell (Table 01.8), with its payload. -/
def parseRecord (b : List Byte) : CapRecord :=
  let num := fun o n => leNat ((b.drop o).take n)
  let cls := num 8 1 % 16
  let n :=
    if cls = 2 then bitsOf (num 10 2) 4 7
    else if cls = 5 then num 10 2
    else if cls = 7 then num 12 4
    else 16 * num 9 1
  { stamp := Stamp.ofWord (num 0 8), cls := cls, hall := num 8 1 / 16, value := num 10 2, word := num 12 4
    payload := ((b.drop 16).take (16 * num 9 1)).take n }

/-- The next record of the reader with the bytes it takes of ring 63; none while no complete record is there. -/
def nextRecord (s : State) : Option (CapRecord × Nat) :=
  if s.plane.replay.fromHost then
    let b := hostBytes s
    if b.length < 16 then none
    else
      let n := 16 + 16 * leNat ((b.drop 9).take 1)
      if b.length < n then none else some (parseRecord b, n)
  else (s.plane.replay.rest.head?).map fun r => (r, 0)

/-- The reader of a replay has reported progress past tick `t`: up to the stamp of its next unread record, minus 1 (R42). -/
def readerPast (s : State) (t : Nat) : Bool :=
  match nextRecord s with
  | some (r, _) => t < r.stamp.tick
  | none => !s.plane.replay.fromHost || s.plane.replay.stopRead

/-- Every joined stream of a landing has reported tick `t` (R20). -/
def landingReady (s : State) (l t : Nat) : Bool :=
  (landingInputs l).all fun h =>
    let x := vget (vget s.plane.landings l).streams h
    !x.joined || (if l = 0 && readerFeeds s h && s.plane.replay.begun then readerPast s t else t < x.progress)

/-- No input of L0 or L1 lags for the tick that the tick hall acts on (R24, R34). -/
def unlagged (s : State) : Bool :=
  s.plane.tick == 0 || (landingReady s 0 (s.plane.tick - 1) && landingReady s 1 (s.plane.tick - 1))

/-! The tick ends. -/

/-- What a running plane does at the end of a tick: the tick it acts on ends with it, unless an input of L0 or L1 lags. -/
def planeEnd (s : State) : State :=
  let go := unlagged s
  let s := if go then settleTick s else s
  let s := noteIrq (noteUp (foTick (levelTick ((List.range 10).foldl countLateTick s))))
  if go then runResets s else s

/-! The next tick. -/

/-- The last eight entries of a list. -/
def lastEight {α : Type} (l : List α) : List α := l.drop (l.length - 8)

/-- A dry replay keeps its commands out of the frames (R44). -/
def frameCmds (s : State) : List (Nat × PVal) := if dryReplay s then [] else tickCmds s

/-- The tick hall acts on its next tick: its commands wait for the next frame, and what belonged to the old tick is cleared (R66, R108). -/
def actNext (s : State) : State :=
  let cmds := tickCmds s
  let field := fieldCmds s
  let out := frameCmds s
  let s := s.onPlane fun p => { p with
    tick := p.tick + 1, lin := p.lin + 1, outbox := p.outbox ++ out, commanded := [], execNow := 0, turn := 0
    results := (if field.isEmpty then [] else [.field (p.tick + 1) field]) ++
      (if cmds.isEmpty then [] else [.output (p.tick + 1) cmds]) ++ p.results }
  let s := s.onPoints fun p => { p with
    now := [], writesNow := 0, moving := [], deferred := p.deferred ++ p.moving, timersNow := [], movedNow := false
    evalNow := 0, actsNow := 0, overflowNow := 0 }
  { s with light := { s.light with patNow := 0 } }

/-- The tick hall generates its next tick: tokens reach every hall that runs, and the frame carries the commands of the eight ticks before
(R15, R16, R66). `lin` is the running count of the tick that ends. -/
def nextFrame (s : State) (lin : Nat) : State :=
  s.onPlane fun p =>
    let recent := lastEight (p.recent ++ [{ lin := lin, cmds := p.outbox }])
    { p with
      halls := p.halls.map fun h => if h.on then { h with count := h.count + 1 } else h
      recent := recent, frame := { lin := lin + 1, ticks := recent }, outbox := [] }

/-- The plane enters its next tick: it acts on it at once, or holds it while an input of L0 or L1 lags (R24, R34). -/
def planeNext (s : State) : State :=
  let lin := s.wallLin
  nextFrame (if unlagged s then actNext s else s.onPlane fun p => { p with held := p.held + 1 }) lin

/-- The power die's own tick: its count of frames, its own count with its conversion slots, the motor windows that end, its feeds and its trace. -/
def powerTick (s : State) : State :=
  if s.seq.core then
    let s := { s with link :=
      if s.link.synced && !s.link.hold then { s.link with count := s.link.count + 1, missed := s.link.missed + 1 } else s.link }
    tellConditions (traceTick (feedsTick (endMotorWindows (aiTick s))))
  else s

/-- One tick of the dies and the RTC, which run on their own. -/
def diesTick (s : State) : State :=
  fieldTick (powerTick { s with
    now := s.now + 1, rtc := if s.seq.powered then s.rtc.advance else s.rtc, saved := s.saved.map fun x => (x.1, x.2.advance) })

/-- One tick of the device: the tick hall's, where it runs, and those of the dies. -/
def tickStep (s : State) : State :=
  let s := if s.plane.running then planeEnd s else s
  diesTick (if s.plane.running then planeNext (holdTick (tagsTick s)) else s)

end Sys2Proof.Machine
end

