-- ==== Sys2Proof/Machine/StartOps.lean ====
section
/-! DEFINITION. The shared operations of changes of device state (chapter 11, R278–R287; chapter 02, R58): leaving Beam, the stop of the
application pairs, entry to Beam with its new epoch, and what a wake asks for. -/

namespace Sys2Proof.Machine

/-! The sense landing. -/

/-- Items of one stamp stand together (R20). -/
def stampGroups : List LandItem → List (List LandItem)
  | [] => []
  | x :: r =>
    match stampGroups r with
    | [] => [[x]]
    | g :: gs => if g.all fun y => y.stamp = x.stamp then (x :: g) :: gs else [x] :: g :: gs

/-- Release the items of one stamp; a door that opens in it ends the session (R361). -/
def releaseGroup (s : State) (g : List LandItem) : State :=
  let s' := releaseItems s g
  if doorOpened s s' then closeSession s' 1 0 else s'

/-- Release a list of items in stamp order. -/
def releaseList (s : State) (l : List LandItem) : State := (stampGroups l).foldl releaseGroup s

/-- An item is due at the release of tick `t`; one of an epoch before is. -/
def itemDue (s : State) (t : Nat) (x : Stamp) : Bool := x.epoch != s.plane.epoch || x.tick ≤ t

/-- The items of a landing that tick `t` releases leave it. -/
def takeDue (s : State) (l t : Nat) : State × List LandItem :=
  let items := (vget s.plane.landings l).items
  (s.onPlane fun p => { p with landings := vmod p.landings l fun x => { x with items := items.filter fun y => !itemDue s t y.stamp } },
    items.filter fun y => itemDue s t y.stamp)

/-- L6 releases event records and packet records (R20, R97). -/
def releaseRecords (s : State) (t : Nat) : State :=
  let (s, l) := takeDue s 6 t
  l.foldl (fun s it => it.recs.foldl (fun s e => packetRecord s it.stamp e) (it.events.foldl deliverEvent s)) s

/-- Release every item that the sense landing still holds. -/
def releaseAll (s : State) : State :=
  let l := (vget s.plane.landings 0).items
  releaseList (s.onPlane fun p => { p with landings := vmod p.landings 0 fun x => { x with items := [] } }) l

/-! Packets that wait (R281). -/

/-- The packets that wait in the dispatcher, in the keeper or in a flight. -/
def heldPackets (s : State) : List Packet :=
  s.plane.waiting.map (·.p) ++ s.plane.keeper ++
    (List.range 64).flatMap fun r => (s.ring r).flights.flatMap fun f => f.members

/-- The packets that `gone` names leave the flights of a ring; a flight without members is over. -/
def trimFlights (gone : Packet → Bool) (g : Ring) : Ring :=
  { g with flights := (g.flights.map fun f => { f with members := f.members.filter fun p => !gone p }).filter fun f =>
      !f.members.isEmpty }

/-- The held packets that `gone` names complete with S_CANCELLED, with no effect (R281). -/
def cancelHeld (s : State) (gone : Packet → Bool) : State :=
  let l := (heldPackets s).filter gone
  let s := s.onPlane fun p => { p with
    waiting := p.waiting.filter fun w => !gone w.p, keeper := p.keeper.filter fun q => !gone q
    rings := p.rings.map (trimFlights gone) }
  l.foldl (fun s p => completeNow s p .cancelled []) s

/-- A held packet waits for a tick later than the present one, or for the rest of its flight (R281). -/
def waitsLater (s : State) (p : Packet) : Bool :=
  p.inFlight || s.plane.tick < dueTick (isFast p.opcode) p s

/-! Device states. -/

/-- Write G83:0000 and post STATE (R279). -/
def showState (s : State) (n : Nat) : State :=
  let pt := pointAt 83 0
  plainDevice s pt (BitVec.ofNat 16 n) [s.ev 3 0x010C pt n true]

/-- The device leaves Beam for Lantern at E (R280): a capture stops (Table 01.10), a trial ends (Table 13.8), and the application pairs stop
10 ms later. -/
def toLantern (s : State) : State :=
  if s.seq.state ≠ .beam then s
  else
    let s := if s.plane.capture.running then capStop s 2 else s
    let s := if s.image.trial.state = 2 then endTrial s 7 else s
    let s := showState (s.onSeq fun q => { q with state := .lantern }) 2
    (powerPorts s).onSleep fun x => { x with pairStopAt := some (s.plane.lin + 80000) }

/-! Wakes (R286, R287). -/

/-- What a wake asks of the networks: each in its NET_MASK is requested, and a bus wake takes its own to READY. -/
def wakeNetworks (s : State) (cause index : Nat) : State :=
  let s := (bitList 14 (wakeMask s.store.sleep cause)).foldl (fun s n => requestNet s n cause) s
  match wakeNet cause index with
  | some n => busWake s n cause
  | none => s

/-- TARGET of a wake cause (Table 11.2). -/
def wakeTarget (s : State) (cause : Nat) : Nat := if cause = 0 ∨ 9 < cause then 0 else (vget s.store.sleep.wake (cause - 1)).target

/-- Write a wake to the logbook (Table 15.5). -/
def logWake (s : State) (w : Latch) : State :=
  logDevice s 0x0901 false (leBytes 1 w.cause ++ leBytes 1 w.index ++ leBytes 1 w.target ++ leBytes 1 (b2n w.late))

/-- Post a wake under a stamp, and write it to the logbook if it does not stand there yet (R287); a wake from Dark or Buoy then acts on its networks
(R286). -/
def postWake (t : Stamp) (s : State) (w : Latch) : State :=
  let s := postEvent s { s.ev 1 0x0902 (w.cause + 16 * w.index) (b2n w.late + 2 * w.target) with stamp := t }
  let s := if w.logged then s else logWake s w
  if w.netsDue then wakeNetworks s w.cause w.index else s

/-- The keeper has a wake, and the device has acted on it: it can be posted (R284, R287). -/
def Latch.done (l : Latch) : Bool := l.handled && l.told

/-- The keeper writes the wakes of Buoy to the logbook (R62, R287). -/
def logWakes (s : State) : State :=
  let l := s.sleep.latches.filter fun w => w.handled && !w.logged
  l.foldl logWake (s.onSleep fun x => { x with latches := x.latches.map fun w => if w.handled then { w with logged := true } else w })

/-- The wakes that can be posted are, and their latches are cleared (R284, R287): those from Dark or Buoy at tick 0 of the first state with a running tick
hall. -/
def postWakes (s : State) (t : Stamp) : State :=
  let l := s.sleep.latches.filter Latch.done
  l.foldl (postWake t) (s.onSleep fun x => { x with latches := x.latches.filter fun w => !w.done })

/-- A wake event reaches the keeper through L5 (R21, R287). -/
def keeperWake (s : State) (t : Stamp) (cause index : Nat) : State :=
  postWakes (s.onSleep fun x => { x with latches := x.latches.map fun l => if l.isOf cause index then { l with told := true } else l }) t

/-- A grant that was decided in Buoy opens its session at tick 0, with the verdicts of its poll (R362). -/
def openBuoyGrant (s : State) : State :=
  match s.access.buoyGrant with
  | none => s
  | some g =>
    let s := s.onAccess fun a => { a with buoyGrant := none }
    let s := g.verdicts.foldl (fun s v => capItem s { verdictCap v.1 v.2 with stamp := s.stamp }) s
    openSession s g.index 0

/-! Entry to Beam (R18, R58, R280, R281, R334). -/

/-- No application runs until the next start (R330): BOOT_FAIL is posted and logged. -/
def failBoot (s : State) (cause : Nat) : State := imageEvent (s.onImage fun x => { x with bootFail := cause }) 0x0B04 0 cause 0

/-- A TENTATIVE bank at an entry to Beam (R334, R335): BOOT_LEFT counts down, or the device reverts. -/
def countBoot (s : State) : State :=
  match bankIn s 2 4 with
  | none => s
  | some b =>
    if (bank13 s b).bootLeft = 0 then
      match revertApp s 1 6 0 with
      | (s', true) => s'
      | (_, false) => failBoot (setBank s b 6 0) 2
    else s.onBank13 b fun x => { x with bootLeft := x.bootLeft - 1 }

/-- The next epoch (R18). -/
def nextEpoch (n : Nat) : Nat := if 0xFFFF ≤ n then 1 else n + 1

/-- An epoch is committed to the store before its tick 0, to that of the part too while a replay works on its view (R18). -/
def commitEpoch (s : State) (e : Nat) : State :=
  { s with store := { s.store with epoch := e }, saved := s.saved.map fun x => ({ x.1 with epoch := e }, x.2) }

/-- Tick 0 of a new epoch: landings, hall counts and the link to the field die count from it, and the result stream starts afresh. The late-tick counters
start at 0 (DESIGN CHOICE, log entry 163: R25 names no clearing event). -/
def restartTicks (s : State) (e : Nat) : State :=
  let s := s.onPlane fun p => { p with
    epoch := e, tick := 0, held := 0, lin := p.lin + p.held, beamSeen := true, results := []
    halls := p.halls.map fun h => { h with count := 0 }
    landings := vmapIdx p.landings fun n l => { l with
      streams := vmapIdx l.streams fun h x => { x with progress := streamOffset n h, late := 0 }, released := 0 } }
  s.onField fun l => { l with next := 0, foWindow := [] }

/-- The domains of Beam (Table 02.4); PD6 comes on with them, and TC10 partners are woken (R276). -/
def beamDomains (s : State) : State := wakePartners (ethPowerOn (setDomain (setDomain (setDomain s 3 true) 5 true) 8 true)) (List.range 6)

/-- READY, G83:0060 and DEV_READY (R58). -/
def setReady (s : State) : State := plainDevice (s.onSeq fun q => { q with ready := true }) (pointAt 83 60) 1 []

/-- A trial begins (R338, R339): pair 1 starts from the state of pair 0, its shadow blocks among it, in the candidate's SRAM_NEED. -/
def startTrial (s : State) : State :=
  let need := match bankIn s 2 2 with
    | some b => hSram (bank13 s b).header
    | none => 0
  s.onTrial fun t => { t with
    state := 2, startStamp := s.stamp, startLin := s.plane.lin, need := need, fault := false
    shadow := (List.range 64).foldl (fun l r =>
      Tbl.put l {} r { s.ring r with admitted := [], orphans := [], batches := [], flights := [] }) [] }

/-- An armed capture and an armed trial begin at tick 0 of the epoch (R40, R338). -/
def beginArmed (s : State) : State :=
  let s := if s.store.capArm.armed ∧ !s.plane.capture.running ∧ !s.plane.replay.running then disarm (startCapture s s.store.capArm true) else s
  if s.image.trial.state = 1 ∧ !s.plane.replay.running then startTrial s else s

/-- An epoch starts, and EPOCH_START is posted (R18). -/
def startEpoch (s : State) : State :=
  let e := nextEpoch s.store.epoch
  let s := restartTicks (commitEpoch s e) e
  postEvent s (s.ev 3 0x0103 0 e)

/-- Beam is entered from a tick hall that runs, at tick 0 of a new epoch, unless no application may run (R58, R330); packets that waited in
the epoch before complete with S_CANCELLED (R281). -/
def enterBeam (s : State) : State :=
  let s := if s.image.bootFail ≠ 0 ∨ s.seq.inReset then s else countBoot s
  if s.image.bootFail ≠ 0 ∨ s.seq.inReset then s
  else
    let s := s.onImage fun x => { x with pairHeld := false }
    let need := match activeApp s with
      | some b => hSram (bank13 s b).header
      | none => 0
    let s := beamDomains (cancelHeld (startEpoch s) fun _ => true)
    let s := showState (s.onSeq fun q => { q with state := .beam, appNeed := need }) 3
    let s := s.onSleep fun x => { x with target := none }
    let s := tellLow (beginArmed (setReady s))
    openBuoyGrant (postWakes s s.stamp)

/-- The tick before an entry to Beam ends: what the sense landing still holds is released first. -/
def lastTick (s : State) : State := tickStep (releaseAll s)

/-- Beam is entered from Lantern, or from Beam itself by a replay. -/
def reenterBeam (s : State) : State := enterBeam (lastTick s)

/-- Lantern is entered from a start (R279, R330); PD5 comes on for what needs it (R300). -/
def enterLantern (s : State) : State :=
  let s := showState (s.onSeq fun q => { q with state := .lantern }) 2
  let s := tellLow (powerPorts s)
  let s := if keepsPd5 s then setDomain s 5 true else s
  let s := s.onSleep fun x => { x with target := none }
  let s := setReady s
  openBuoyGrant (postWakes s s.stamp)

/-- The application pairs stop (R280, R281): unadmitted packets of C1–C13 and their packets that wait for a later tick complete with
S_CANCELLED, and PD3 goes off; a Beam that was asked for is entered afterwards. -/
def stopPairs (s : State) : State :=
  let rings := packetRings.filter fun r =>
    match ringOwner (chartersInForce s) r with
    | some c => isApp c
    | none => false
  let s := rings.foldl (fun s r => endUnadmitted .cancelled r 4096 s) s
  let s := cancelHeld s fun p => isApp p.comp && waitsLater s p
  setDomain (s.onSleep fun x => { x with pairStopAt := none }) 3 false

/-- The device moves toward a higher state (R278): the start steps follow, and the state is entered after them. -/
def moveToward (s : State) (target : Nat) : State :=
  if target ≤ s.seq.state.code then s else s.onSleep fun x => { x with target := some (max target (x.target.getD 0)) }

end Sys2Proof.Machine
end

