-- ==== Sys2Proof/Machine/LoadPoints.lean ====
section
/-! DEFINITION. What a start loads into the cleared point memory, none of which counts as a change (chapter 04, R111; chapter 08, R211), and
the arming of the reflex rules. -/

namespace Sys2Proof.Machine

/-- Load a point with a number. -/
def loadNat (s : State) (pt n : Nat) : State := loadPoint s pt (BitVec.ofNat 16 n)

/-- Load the points of a list of positions from `base` on. -/
def loadEach (s : State) (n base : Nat) (f : State → Nat → Nat) : State :=
  (List.range n).foldl (fun s i => loadNat s (base + i) (f s i)) s

/-- The commanded values that the power die holds, and the feed states (R69). -/
def adoptOutputs (s : State) : State :=
  let s := loadEach s 56 (pointAt 80 0) fun s ch => (chanOf s ch).cmd.toNat
  let s := loadEach s 12 (pointAt 80 100) fun s m => (hbOf s m).cmd.toNat
  let s := loadEach s 8 (pointAt 80 200) fun s v => (valveOf s v).cmd.toNat
  let s := loadEach s 2 (pointAt 80 210) fun s f => if (feedOf s f).on then 65535 else 0
  (List.range 4).foldl (fun s n => loadEach s 16 (pointAt 80 (300 + 16 * n)) fun s k => (vget (stringOf s n).seg k).cmd.toNat) s

/-- The analogue inputs that convert have present codes in bits [15:4] (R212), which the state does not hold: free values. -/
def loadAnalogue (s : State) : State :=
  (List.range 16).foldl (fun s n =>
    if (vget s.store.input.ai n).enable then
      let (v, s) := s.takeFree 12
      loadNat s (aiPoint n) (16 * v)
    else s) s

/-- The switch and handle inputs, and the motor positions. -/
def loadInputs (s : State) : State :=
  let s := loadEach s 48 (pointAt 81 0) fun s i => b2n (siOf s i).out
  let s := s.onAccess fun a => { a with handle := a.handle.map fun h => { h with told := h.touched } }
  let s := loadEach s 4 (pointAt 81 200) fun s i => b2n (vget s.access.handle i).touched
  loadAnalogue (loadEach s 12 (pointAt 81 300) fun s m => (hbOf s m).pos.toNat)

/-- The field points, as the field die shows them, the outputs by FO_STATE of its last frame (R111, R223). -/
def loadField (s : State) : State :=
  let d := s.input.die
  let s := s.onField fun l => { l with
    fiState := fiState d, fsa := d.fsa, fsb := d.fsb, foState := d.foSent, known := d.shown }
  let s := loadEach s 16 (pointAt 82 0) fun _ n => b2n (vget d.fi n).out
  let s := loadEach s 8 (pointAt 82 100) fun _ n => if d.foSent.testBit n then 65535 else 0
  let s := loadNat (loadNat s (fsPoint 0) d.fsa) (fsPoint 1) d.fsb
  let v := Machine.fieldFault s
  loadNat (s.onField fun l => { l with faultSent := v }) (pointAt 83 50) (b2n v)

/-- The supply points. -/
def loadSupply (s : State) : State :=
  let s := s.onLoad fun d => { d with bank := d.bank.map fun b => { b with written := b.mv / 10 } }
  let s := s.onSeq fun q => { q with vbatlWritten := q.vbatl / 10 }
  let s := loadEach s 4 (pointAt 83 10) fun s b => (bankAt s b).mv / 10
  let s := loadNat s (pointAt 83 20) (s.seq.vbatl / 10)
  let s := loadNat s (pointAt 83 30) s.load.mgr.temp
  let s := loadNat s (pointAt 83 40) (sagBits s)
  loadNat s (pointAt 83 41) (b2n s.seq.warn)

/-- Virtual variables, in G84–G95, take their INIT values; timers stand at 0. -/
def loadVirtual (s : State) : State :=
  (s.store.attrs.filter fun e => e.2.ty != 2 && 84 ≤ gallery e.1 && gallery e.1 < 96).foldl (fun s e => loadNat s e.1 e.2.init) s

/-- Enabled rules take their arming from the loaded value of their trigger (R111). -/
def armRules (s : State) : State :=
  s.store.rules.foldl (fun s e =>
    if e.2.used && e.2.enabled then setArmed s e.1 (e.2.armsAt (pget s e.2.trig)) else s) s

/-- All loads of a start; after Dark or Buoy the switch and field inputs start from their references (R211). -/
def loadPoints (s : State) (wasAsleep : Bool) : State :=
  let s := loadVirtual (loadSupply (loadField (loadInputs (adoptOutputs s))))
  armRules (if wasAsleep then loadReferences s else s)

end Sys2Proof.Machine
end

