-- ==== Sys2Proof/Machine/Start.lean ====
section
/-! DEFINITION. Start-up and the steps between device states (chapter 02, R58–R65 and Tables 02.7 and 02.8; chapter 11, R278–R280; chapter 13,
R328–R330). A start takes place within one command. -/

namespace Sys2Proof.Machine

/-! The boot chain (Table 13.6). -/

/-- Stages 1 and 2 cannot pass: the logic die stays in reset until the next cold reset (R329). -/
def bootDead (s : State) : State :=
  (s.onImage fun x => { x with dead := true }).onSeq fun q => { q with inReset := true, starting := false }

/-- The keeper bank to run: that of the boot record; a TENTATIVE one whose BOOT_LEFT is 0, or one that does not pass, gives way to the PREVIOUS one or, FAILED, to the
other (Table 13.6, R331, R337). -/
def bootKeeper (s : State) : State :=
  let s :=
    match bankIn s 1 4 with
    | some b =>
      if (bank13 s b).bootLeft = 0 then (revertKeeper s 1 6 0).1
      else s.onBank13 b fun x => { x with bootLeft := x.bootLeft - 1 }
    | none => s
  match activeKeeper s with
  | none => bootDead s
  | some b =>
    if keeperPasses s b then s.onImage fun x => { x with keeperBank := b }
    else
      match revertKeeper s 3 6 0 with
      | (s', true) => s'.onImage fun x => { x with keeperBank := otherBank b }
      | (_, false) =>
        if keeperPasses s (otherBank b) then
          (setBank (setBank s b 6 0) (otherBank b) 3 0).onImage fun x => { x with keeperBank := otherBank b }
        else bootDead s

/-- Stages 1 to 3: the keeper image, LIFECYCLE and the owner record, and the keeper slots (Table 13.6, R329). -/
def bootKeeperPair (s : State) : State :=
  let s := bootKeeper s
  if s.image.dead then s
  else if ownerMissing s then bootDead s
  else loadKeeperSlots s

/-- The charter set in the store verifies with slot 6 (Table 13.6). -/
def charterSetOk (s : State) : Bool :=
  let b := s.store.charters.signed
  b.length == 4621 && Config.verify (slotMaterial s 6) [] (b.take 1312) (b.drop 1312)

/-- Stage 4: a charter set written for the next start is installed, and the set in the store is verified, where the seal is not intact (R60). -/
def bootCharters (s : State) : State :=
  let s := match s.store.nextCharters with
    | some c => trustWrite (s.onStore fun st => { st with charters := c, nextCharters := none })
    | none => s
  if sealIntact s ∨ charterSetOk s then s else failBoot s 1

/-- Stage 5: the active application, or the PREVIOUS one; the bank that fails becomes FAILED (R335, R330). -/
def bootApp (s : State) : State :=
  if s.image.bootFail ≠ 0 then s
  else if (match activeApp s with
    | some b => appPasses s b
    | none => false) then s
  else
    match revertApp s 3 6 0 with
    | (s', true) => s'
    | (_, false) => failBoot (match activeApp s with | some b => setBank s b 6 0 | none => s) 2

/-- A transfer that a reset has interrupted leaves its bank EMPTY (R332). -/
def dropTransfers (s : State) : State :=
  (List.range 4).foldl (fun s b => if (bank13 s b).state = 1 then setBank s b 0 0 fun _ => {} else s) s

/-! Step F: settings. -/

/-- The LOSS record is the first of a start that follows an open segment that was lost (R380). -/
def noteLoss (s : State) : State :=
  let l := s.store.log
  let first := match l.lastSealed with
    | some n => n + 1
    | none => 0
  if l.opened.isNone ∧ first < l.nextSeq then
    let n := l.seqLimit - first
    let s := s.onLog fun l => { l with nextSeq := l.seqLimit, chain := l.sealChain, lost := satAdd32 l.lost n }
    let s := postEvent s (s.ev 1 0x0D03 0 (sat16 n))
    logDevice s 3 true (leBytes 8 first ++ leBytes 8 (l.seqLimit - 1) ++ leBytes 1 s.ret.cause.cause)
  else s

/-- Every network whose MODE is not off starts in BUS_SLEEP with its transceiver in Sleep. -/
def startNets (s : State) : State :=
  let s := s.onSleep fun x => { x with
    net := vmapIdx x.net fun n y =>
      if (netCfg s n).mode = 0 then y
      else { y with
        state := 1, requested := false, xcvr := 3, kaAt := none, timeoutAt := none, wbsAt := none, sendAt := none
        ringMaxAt := none, opened := false, allInd := true, peers := [], wakeReason := none, user := (netCfg s n).user } }
  s.onBus fun b => { b with
    can := vmapIdx b.can fun c x => { x with state := if (canMode s c).op = 0 then 0 else 4 }
    lin := vmapIdx b.lin fun c x => { x with asleep := decide (2 ≤ (netOf s (8 + c)).xcvr), lastBus := s.now } }

/-- The last value of a freshness value (R251). -/
def freshEnd : Nat := 2 ^ 64 - 1

/-- Every stream goes on from the committed freshness plus 256, one that is enabled later too (R251), and enabled streams take their key copies again
(R298). -/
def startStreams (s : State) : State :=
  (List.range 8).foldl (fun s k =>
    let s := s.onStream k fun y => { y with fr := min (vget s.store.can.fresh k + 256) freshEnd }
    if (streamCfg s k).enable then enableStream s k else s) s

/-- Enabled Ivgal links start (R202). -/
def startLinks (s : State) : State :=
  (List.range 16).foldl (fun s n => if (linkCfg s n).enable then startLink s n else s) s

/-- The settings of the store are applied again, and what rests on them starts. -/
def applyStore (s : State) : State :=
  let s := { s with ret := { s.ret with hold := s.store.load.hold } }
  let s := startLinks (startStreams (startNets s))
  let s := s.onCipher fun c => { c with idleSince := s.now }
  [0, 1].foldl applyDump (resumeSas s)

/-! Halls. -/

/-- The tick hall starts in the quiet epoch (R18), and the streams of every hall that runs join. -/
def startHalls (s : State) : State :=
  let s := s.onPlane fun p => { p with running := true }
  let s := [1, 2, 4, 7].foldl (fun s d => setDomain s d true) s
  let s := [0, 7, 8].foldl hallOn s
  [0, 1, 2, 3, 6, 7, 8].foldl joinLandings s

/-! Adoption at a start (R69, R70). -/

/-- The values that the power die has been commanded, by point in ascending order (R69). -/
def readBack (s : State) : List (Nat × PVal) :=
  ((List.range 56).map fun ch => (pointAt 80 ch, (chanOf s ch).cmd)) ++
    ((List.range 12).map fun m => (pointAt 80 (100 + m), (hbOf s m).cmd)) ++
    ((List.range 8).map fun v => (pointAt 80 (200 + v), (valveOf s v).cmd)) ++
    (List.range 64).map fun i => (pointAt 80 (300 + i), (vget (stringOf s (i / 16)).seg (i % 16)).cmd)

/-- The first frame after a read-back (R69): the ADOPT flag, the snapshot number and exactly the values read back. -/
def adoptFrame (s : State) : L2Frame :=
  { lin := s.wallLin, ticks := [{ lin := s.wallLin, cmds := readBack s }], adopt := true, snapshot := s.link.snapshot }

/-- The power die accepts an ADOPT frame with the current snapshot number: it leaves HOLD, no output changes its state, and the hold time of the
keeper reaches it (R68, R69). -/
def acceptAdopt (s : State) (f : L2Frame) : State :=
  if f.adopt ∧ f.snapshot = s.link.snapshot then
    { s with link := { s.link with
        synced := true, hold := false, count := f.lin, applied := f.lin, missed := 0, failApplied := false, holdTime := s.store.load.hold } }
  else s

/-- The tick hall sends the ADOPT frame, and the power die takes it. -/
def leaveHold (s : State) : State :=
  let f := adoptFrame s
  acceptAdopt (s.onPlane fun p => { p with frame := f }) f

/-- ADOPT is posted and logged with the hold duration and whether the fail states were applied (R70). -/
def noteAdopt (s : State) (ticks : Nat) (failed : Bool) : State :=
  let s := postEvent s (s.ev 1 0x010A (bitsOf ticks 16 16 + 2 ^ 18 * b2n failed) (ticks % 65536))
  logDevice s 0x0102 true (leBytes 4 (min ticks 0xFFFFFFFF) ++ leBytes 1 (b2n failed) ++ leBytes 1 s.ret.cause.cause)

/-- Runs that ended while the logic die was down post their MOTOR_END (R157). -/
def postEndEvents (s : State) : State :=
  let l := s.motor.endEvents
  l.foldl (fun s e => motorEvent s 0x0301 e.1 e.2) { s with motor := { s.motor with endEvents := [] } }

/-- Ticks that a hold has lasted. -/
def holdTicks (s : State) : Nat := if s.link.hold then s.now - s.link.holdFrom else 0

/-! Starts. -/

/-- What a start follows. -/
inductive StartKind where
  | cold
  | logic
  | asleep
  deriving DecidableEq, Repr, Inhabited

/-- A debug unlock that the reset ended is reported as locked (R344). -/
def noteLock (s : State) : State :=
  match s.image.dbg.lockDue with
  | some k => imageEvent (s.onImage fun x => { x with dbg := { x.dbg with lockDue := none } }) 0x0B05 0 (k + 2 ^ 15) 0
  | none => s

/-- Steps B to H from the boot chain on (Tables 02.7 and 02.8): `target` is the state that the start leads to; without a valid application it
is Lantern (R330). -/
def completeStart (s : State) (kind : StartKind) (target : Nat) : State :=
  let s := applyStore (dropTransfers (bootApp (bootCharters s)))
  let s := { s with pins := { s.pins with irqApplied := true } }
  let s := loadPoints s (kind == .asleep)
  let s := if s.image.bootFail = 0 then writeSeal s else s
  let ticks := holdTicks s
  let failed := s.link.failApplied
  let adopts := kind == .logic || s.link.hold
  let s := leaveHold s
  let s := s.onSeq fun q => { q with inReset := false, supplyReset := false, starting := false }
  let s := if s.image.bootFail = 0 ∧ target = 3 then enterBeam s else s
  let s := if s.seq.state = .beam then s else enterLantern s
  let s := if kind = .asleep then s
    else
      let c := s.ret.cause
      logDevice (postEvent s (s.ev 1 0x0102 0 (c.cause + 256 * c.index))) 0x0101 true (leBytes 1 c.cause ++ leBytes 1 c.index)
  let s := if adopts then noteAdopt s ticks failed else s
  let s := if kind = .cold then
      logDevice s 4 true (leBytes 1 s.ret.cause.cause ++ leBytes 4 (keeperVersion s) ++
        leBytes 4 (match activeApp s with
          | some b => bankVersion s b
          | none => 0) ++ leBytes 1 s.store.image.lifecycle)
    else s
  let s := if !s.store.access.release.resume then blockRelease s 6 0 else s
  postEndEvents (noteLock s)

/-- A cold start or the restart after a logic reset: the tick hall comes on, and the boot chain runs (R58, R64). -/
def restart (s : State) (kind : StartKind) : State :=
  let s := s.onSeq fun q => { q with state := .dark, ready := false }
  let s := bootKeeperPair (startHalls s)
  if s.image.dead then { clearLogic s with image := s.image } else completeStart (noteLoss s) kind 3

/-- VBATL first rises: a cold start (R58). -/
def firstPowerUp (s : State) (mv : Nat) : State :=
  if !s.seq.powered ∧ 6000 < mv then
    restart ((noteVbatl s mv).onSeq fun q => { q with powered := true, core := true }) .cold
  else s

/-- VBATL first rises (R58). -/
def execFirstPowerUp (mv : Nat) (s : State) : Answer := rated s mv (firstPowerUp s mv)

/-- A restart has to run: the logic reset has been released (R64). -/
def restartDue (s : State) : Bool :=
  s.seq.powered && s.seq.core && (s.seq.inReset || s.seq.starting) && !s.seq.supplyReset && !s.image.dead

/-- The restart after a logic reset (R64). -/
def execLogicRestart (s : State) : Answer := effect s (if restartDue s then restart s .logic else s)

/-! Steps between device states. -/

/-- Beam is to be entered from Lantern: it has been asked for, the pairs have stopped (R18, R280), and an application may run (R330). -/
def beamDue (s : State) : Bool :=
  s.plane.running && s.seq.state == .lantern && s.sleep.target == some 3 && s.sleep.pairStopAt.isNone && s.image.bootFail == 0

/-- Beam is entered from Lantern once it is due (R18, R280). -/
def beamEntry (s : State) : State := if beamDue s then reenterBeam s else s

/-- A touch that took the device to Buoy starts its ENTRY poll (R362). -/
def touchPolls (s : State) : State :=
  (s.sleep.latches.filter fun w => w.handled && !w.logged && w.cause == 2).foldl (fun s w => autoPoll s (vget (accessCfg s).handle w.index).antMask) s

/-- Buoy is entered from Dark (R62): PD1 and PD2 come on, and stages 1 to 3 run. -/
def enterBuoy (s : State) : State :=
  let s := bootKeeperPair (setDomain (setDomain s 1 true) 2 true)
  if s.image.dead then { clearLogic s with image := s.image }
  else
    let s := (s.onSeq fun q => { q with state := .buoy }).onSleep fun x => { x with buoyAt := s.now, target := none }
    logWakes (touchPolls s)

/-- A poll that runs when a wake takes the device out of Buoy goes on; its verdicts so far enter the plane at tick 0 (R362). -/
def keepPoll (s : State) : State :=
  match s.access.poll with
  | none => s
  | some q =>
    let s := q.verdicts.foldl (fun s v => capItem s { verdictCap v.1 v.2 with stamp := s.stamp }) s
    s.onPoll fun q => { q with buoy := false, verdicts := [] }

/-- Lantern or Beam is entered from Dark or Buoy; from Buoy the keeper pair runs already (R62, Table 02.8). -/
def enterAwake (s : State) (target : Nat) : State :=
  let fromBuoy := s.seq.state == .buoy
  let s := startHalls s
  let s := if fromBuoy then s else bootKeeperPair s
  if s.image.dead then { clearLogic s with image := s.image } else keepPoll (completeStart s .asleep target)

/-- The start steps toward TARGET are over (R279, Table 11.1). -/
def stateEntry (s : State) (target : Nat) : State :=
  if s.sleep.target = some target ∧ s.seq.powered ∧ s.seq.core ∧ !s.seq.inReset then
    if s.seq.state = .dark then (if target = 1 then enterBuoy s else if target = 2 ∨ target = 3 then enterAwake s target else s)
    else if s.seq.state = .buoy ∧ (target = 2 ∨ target = 3) then enterAwake s target
    else if target = 3 then beamEntry s
    else s
  else s

end Sys2Proof.Machine
end

