-- ==== Sys2Proof/Machine/Capture.lean ====
section
/-! DEFINITION. Capture and replay (chapter 01, R37–R45, Tables 01.7–01.15). -/

namespace Sys2Proof.Machine

/-! Capture. -/

/-- CLASS_MASK of CAPTURE.START. -/
def capClasses (p : Packet) : Nat := p.num 18 2

/-- CHECKPOINT of CAPTURE.START. -/
def capInterval (p : Packet) : Nat := p.num 24 4

/-- CAPTURE.START (Tables 01.11 and 01.12). -/
def captureStartOp : Op where
  code := 0x0F00
  layout := fun _ => [(16, 0, 3), (18, 0, 16), (20, 0, 16), (24, 0, 32)]
  bad := fun p s =>
    (capClasses p).testBit 0 || 256 ≤ capClasses p ||
      (capInterval p != 0 && (capInterval p < 8000 || 8000000 < capInterval p)) ||
      (p.bit 16 1 && ((s.ring 63).size == 0 || p.bit 16 2))
  run := fun p s =>
    if s.store.capArm.armed ∨ s.plane.capture.running ∨ s.plane.replay.running ∨ trialRuns s then { s := s, st := some .busy }
    else
      let a : CapArm :=
        { armed := true, sink63 := p.bit 16 1, wrap := p.bit 16 2, classMask := capClasses p, cmdMask := p.num 20 2
          interval := capInterval p }
      if p.bit 16 0 then { s := startCapture s a false, reply := [(16, 8, s.stamp.word)] }
      else { s := s.onStore fun st => { st with capArm := a }, reply := [(16, 8, 0)] }

/-- CAPTURE.START. -/
def execCaptureStart (p : Packet) (s : State) : Answer := effect s (keeperTake captureStartOp p s)

/-- An application reads packet rings: a ring 48–51 of C1–C13 is enabled. -/
def readsPackets (s : State) : Bool :=
  [48, 49, 50, 51].any fun r => (s.ring r).enabled &&
    (match ringOwner (chartersInForce s) r with
     | some c => isApp c
     | none => false)

/-- A capture is replayable (R41). -/
def replayable (s : State) : Bool :=
  let c := s.plane.capture
  c.fromZero && !c.wrap && c.classMask &&& 0x7E == 0x7E && (c.classMask.testBit 7 || !readsPackets s) && c.cmdMask.testBit 14 &&
    c.cmdMask.testBit 15 && c.clean && c.stopped

/-- A capture runs whose end has not been asked for. -/
def capturing (s : State) : Bool := s.plane.capture.running && !s.plane.capture.closing

/-- The fields of Table 01.13, once the STOP mark has been written: its stamp, the counts, and the final result digest. -/
def stopReply (s : State) (stop : Stamp) (digest : List Byte) : Reply :=
  let c := s.plane.capture
  [(16, 8, stop.word), (24, 8, c.records), (32, 4, min c.dropped 0xFFFFFFFF), (36, 4, c.lateTicks), (40, 4, c.lateExec),
    (44, 1, b2n (replayable s)), replyBytes 48 digest]

/-- CAPTURE.STOP (Table 01.13): the packet waits for the STOP mark, which is the last record that L9 gives the capture unit (R20, R40). -/
def captureStopOp : Op where
  code := 0x0F01
  slotsOk := fun p => p.slotsField == 2
  bad := fun _ s => !capturing s && !s.store.capArm.armed
  run := fun p s =>
    if capturing s then
      let digest := runningDigest s
      { s := (writePending (capStop s 1) p).onCapture fun c => { c with stopPacket := some (p, s.stamp, digest) }, st := none }
    else { s := disarm s }

/-- CAPTURE.STOP. -/
def execCaptureStop (p : Packet) (s : State) : Answer := effect s (keeperTake captureStopOp p s)

/-- A CAPTURE.STOP completes once the capture has ended (Table 01.13). -/
def finishStop (s : State) : State :=
  match s.plane.capture.running, s.plane.capture.stopPacket with
  | false, some (p, stop, digest) =>
    (completeNow s p .ok (stopReply s stop digest)).onCapture fun c => { c with stopPacket := none }
  | _, _ => s

/-- A CHECKPOINT mark falls due (R38, Table 01.10). -/
def captureCheckpoint (s : State) : State :=
  let c := s.plane.capture
  if c.running ∧ 0 < c.interval ∧ c.checkLin < s.plane.lin ∧ (s.plane.lin - c.startLin) % c.interval = 0 then
    (capWrite s (markRecord s 3 0 (runningDigest s))).onCapture fun c => { c with checkLin := s.plane.lin }
  else s

/-- A checkpoint interval ends (R38). -/
def execCaptureCheckpoint (s : State) : Answer := effect s (captureCheckpoint s)

/-! Replay: its start and its end. -/

/-- A record is a START mark of 72 blocks (Table 01.10). -/
def isStart (r : CapRecord) : Bool := r.cls == 15 && r.value == 1 && r.payload.length == 1152

/-- A record is malformed: a class that is not used, a hall that does not exist, or a MARK without a kind. -/
def recordBad (r : CapRecord) : Bool :=
  r.cls == 0 || (8 ≤ r.cls && r.cls < 15) || 15 < r.cls || 8 < r.hall || (r.cls == 15 && (r.value == 0 || 6 < r.value))

/-- Write the logbook record of a replay (R45, Table 15.5). -/
def logReplay (s : State) (phase records : Nat) (matched : Bool) (digest : List Byte) : State :=
  logDevice s 0x0F02 true (leBytes 1 phase ++ leBytes 8 records ++ leBytes 1 (b2n matched) ++ padTo 32 digest)

/-- The carried state of a START mark is loaded into the view (R42, Table 01.10). -/
def loadCarried (s : State) (b : List Byte) : State :=
  let num := fun o n => leNat ((b.drop o).take n)
  let s := s.onStore fun st => { st with
    log := { st.log with nextSeq := num 128 8 }
    access := { st.access with failed := num 152 4 }
    keys := (List.range 240).foldl (fun t k =>
      Tbl.put t {} (16 + k) { Tbl.get t {} (16 + k) with generation := num (192 + 4 * k) 4 }) st.keys }
  { s with rtc := { s.rtc with time := num 136 8, setCount := num 144 4, valid := num 148 1 == 1 } }

/-- The packet of a REPLAY.RUN that has been executed completes. -/
def replayComplete (s : State) (st : Status) (reply : Reply) : State :=
  completeNow s s.plane.replay.packet (lateStatus s.plane.replay.late st) reply

/-- Ring 63 changes its producer: what stands in it is left behind. -/
def emptyRing63 (s : State) : State := s.onRing 63 fun g => { g with head := g.tail, batches := [] }

/-- A replay ends before it has begun: nothing is replayed. -/
def refuseReplay (s : State) (st : Status) : State :=
  let host := s.plane.replay.fromHost
  let s := (completeNow s s.plane.replay.packet st []).onReplay fun _ => {}
  if host then emptyRing63 s else s

/-- A replay begins with its START mark (R42, R45): the digests are compared, the part's stores are set aside, the carried state is loaded, and
Beam is entered with a new epoch. -/
def beginReplay (s : State) (r : CapRecord) : State :=
  if !isStart r then refuseReplay s .badarg
  else if r.payload.take 128 ≠ startDigests s then refuseReplay s .conflict
  else
    let s := logReplay s 0 0 false []
    let s := { s with saved := some (s.store, s.rtc) }
    let s := (loadCarried s r.payload).onReplay fun q => { q with begun := true, records := 1 }
    reenterBeam s

/-- The fields of Table 01.15. -/
def replayReply (q : Replay) (digest : List Byte) : Reply :=
  [(16, 8, q.endTick), (24, 8, q.records), (32, 4, min q.stretched 0xFFFFFFFF), (36, 4, q.lateExec), (40, 8, q.firstMismatch),
    replyBytes 48 digest, (80, 1, b2n q.matched)]

/-- A replay that has begun ends (R43, R45): the view is discarded, the end is logged, the packet completes, and the device enters Beam again
with its inputs reconnected. -/
def endReplay (s : State) (st : Status) : State :=
  let q := s.plane.replay
  let digest := runningDigest s
  let k := realStore s
  let s := { s with store := k.1, rtc := k.2, saved := none }
  let s := logReplay s 1 q.records q.matched digest
  let s := (replayComplete s st (replayReply q digest)).onReplay fun _ => {}
  let s := if q.fromHost then emptyRing63 s else s
  let s := (reenterBeam s).onPoints fun p => { p with stale := s.input.link.stale }
  { s with input := { s.input with reloadSi := true, reloadFi := true } }

/-- REPLAY.RUN (Table 01.14). -/
def replayRunOp : Op where
  code := 0x0F02
  member := fun _ => false
  slotsOk := fun p => p.slotsField == 2
  layout := fun _ => [(16, 0, 2), (17, 0, 1), (20, 0, 32)]
  bad := fun p s =>
    (p.bit 16 0 && p.bit 16 1) ||
      (!p.bit 16 0 && (match s.plane.capture.area with
        | r :: _ => !isStart r || s.plane.capture.area.any recordBad
        | [] => true))
  deny := fun _ s =>
    match s.image.dbg.scope with
    | some n => !n.testBit 1
    | none => true
  run := fun p s =>
    if s.plane.capture.running ∨ s.plane.replay.running ∨ trialRuns s then { s := s, st := some .busy }
    else
      let late := decide (dueTick false p s < s.plane.tick)
      let s := s.onReplay fun _ => {
        running := true, packet := p, late := late, live := p.bit 16 1, fromHost := p.bit 16 0
        stopAtMismatch := p.bit 17 0, runTicks := p.num 20 4 }
      if p.bit 16 0 then { s := emptyRing63 (writePending s p), st := none }
      else
        match s.plane.capture.area with
        | r :: rest => { s := beginReplay (writePending (s.onReplay fun q => { q with rest := rest }) p) r, st := none }
        | [] => { s := s, st := none }

/-- REPLAY.RUN. -/
def execReplayRun (p : Packet) (s : State) : Answer := effect s (keeperTake replayRunOp p s)

/-! The reader. -/

/-- The reader takes a record: whole slots that it has consumed leave the ring. -/
def takeRecord (s : State) (r : CapRecord) (n : Nat) : State :=
  if s.plane.replay.fromHost then
    let m := s.plane.replay.pos + n
    let s := s.onRing 63 fun g => g.advance ((g.head + m / 64) % max 1 g.size)
    s.onReplay fun q => { q with pos := m % 64, records := q.records + 1, endTick := r.stamp.tick }
  else s.onReplay fun q => { q with rest := q.rest.tail, records := q.records + 1, endTick := r.stamp.tick }

/-- Something recorded enters under its own tick, through the streams that the replay has cut off. -/
def feedAt (s : State) (tick : Nat) (f : State → State) : State :=
  let now := s.plane.tick
  let held := s.plane.held
  let s := f ((s.onPlane fun p => { p with tick := tick, held := 0 }).onReplay fun q => { q with feeding := true })
  (s.onPlane fun p => { p with tick := now, held := held }).onReplay fun q => { q with feeding := false }

/-- The value that a point has once the sense landing has released what it holds. -/
def landedValue (s : State) (pt : Nat) : PVal :=
  ((vget s.plane.landings 0).items.foldl (fun v it => (it.writes.filter fun w => w.1 == pt).foldl (fun _ w => some w.2) v) none).getD (pget s pt)

/-- The events that an item of a POINT record carries, as the live item does (R42): SUPPLY_WARN, SAG of each bank whose bit changes, and the class of
a field supply. The voltages that the first two name are in no record: free values (DESIGN CHOICE, log entry 116). -/
def pointEvents (s : State) (pt : Nat) (v : PVal) : List Ev × State :=
  if pt = supplyWarnPoint then
    let (mv, s) := s.takeFree 16
    ([s.ev 0 0x0107 vbatlPoint mv true], s)
  else if pt = pointAt 83 40 then
    let (mv, s) := s.takeFree 16
    let old := (landedValue s pt).toNat
    (((List.range 4).filter fun b => old.testBit b != v.toNat.testBit b).map fun b => s.ev 7 0x0108 (bankPoint b) mv true, s)
  else if pt = fsPoint 0 ∨ pt = fsPoint 1 then ([s.ev 8 0x0602 pt v.toNat true], s)
  else ([], s)

/-- The source index of an input point (R20): that of the item with which its hall observes it. -/
def pointIndex (pt : Nat) : Nat :=
  let n := position pt
  if gallery pt = 81 then (if n < 100 ∨ 300 ≤ n then n else if n < 200 then n - 36 else n - 200)
  else if gallery pt = 82 then (if n < 200 then n else n - 184)
  else if gallery pt = 83 then statusIx n
  else n

/-- A POINT record enters the sense landing, with the events that its item carries (R42). -/
def feedPoint (s : State) (r : CapRecord) : State :=
  let pt := r.word % 2 ^ 19
  let v := BitVec.ofNat 16 r.value
  let t : Stamp := ⟨s.plane.epoch, r.stamp.tick⟩
  let (events, s) := pointEvents s pt v
  landPut s 0 { stamp := t, hall := r.hall, idx := pointIndex pt, writes := [(pt, v)], events := events.map fun e => { e with stamp := t } }

/-- A FRAME record enters as an accepted frame (Table 01.9). -/
def feedFrame (s : State) (r : CapRecord) : State :=
  let c := r.value % 8
  if r.value.testBit 3 then linDeliver s c (r.word % 64) r.payload
  else
    let fdf := r.word.testBit 30
    let rtr := !fdf && r.word.testBit 31
    canTaken s c
      { id := r.word % 2 ^ 29, ide := r.word.testBit 29, fdf := fdf, brs := fdf && r.word.testBit 31, rtr := rtr
        len := bitsOf r.value 4 7, data := if rtr then [] else r.payload }

/-- A COMMAND record of C14 or C15 goes onto the replay ring with its recorded ring, slot and arrival, in the new epoch (R43); those of other
compartments are not replayed, since the application runs. -/
def feedCommand (s : State) (r : CapRecord) : State :=
  let c := r.value % 16
  if c < 14 then s
  else
    let exec := leNat ((r.payload.drop 8).take 8)
    let moved := if exec ≠ 0 ∧ (Stamp.ofWord exec).epoch = r.stamp.epoch then (Stamp.mk s.plane.epoch (exec % 2 ^ 48)).word else exec
    let p : Packet :=
      { comp := c, ring := bitsOf r.value 4 6, slot := r.word, arrival := ⟨s.plane.epoch, r.stamp.tick⟩
        bytes := r.payload.take 8 ++ leBytes 8 moved ++ r.payload.drop 16 }
    s.onReplay fun q => { q with cmdRing := q.cmdRing ++ [p], cmdNew := q.cmdNew ++ [p] }

/-- A VERDICT record decides the oldest check of its stream, or a token's slot (Table 01.9). -/
def feedVerdict (s : State) (r : CapRecord) : State :=
  if r.word % 256 = 1 then
    let k := r.word / 256
    match (List.range 8).find? fun c => (match (canOf s c).verdicts with
      | v :: _ => v.stream == k
      | [] => false) with
    | some c => secureVerdict s c (some (recordedStatus r.value))
    | none => s
  else s.onReplay fun q => { q with verdicts := q.verdicts ++ [r] }

/-- A PACKET record enters the application landing for its receive ring (Table 01.9); what its descriptor says of port, priority and VLAN is not recorded. -/
def feedPacket (s : State) (r : CapRecord) : State :=
  let t : Stamp := ⟨s.plane.epoch, r.stamp.tick⟩
  let (port, s) := s.takeFree 3
  let (flags, s) := s.takeFree 5
  let (vid, s) := s.takeFree 12
  let ring := 48 + r.value % 4
  landPut s 6 { stamp := t, hall := 5, idx := ring, recs := [(ring, padSlots (packetDesc r.payload.length port flags vid 0 t.word ++ r.payload))] }

/-- A CHECKPOINT or STOP record is compared with the running result digest (R45). -/
def feedDigest (s : State) (r : CapRecord) : State :=
  let ok := r.payload.take 32 == Config.resultDigest r.stamp.tick (settledResults s)
  s.onReplay fun q => { q with
    matched := q.matched && ok
    firstMismatch := if ok ∨ q.firstMismatch ≠ 0 then q.firstMismatch else r.stamp.tick
    stopRead := q.stopRead || r.value == 2 }

/-- One record enters the plane in place of its live source (R42, R43). -/
def feedRecord (s : State) (r : CapRecord) : State :=
  if r.cls = 1 then feedPoint s r
  else if r.cls = 2 then feedAt s r.stamp.tick (feedFrame · r)
  else if r.cls = 3 then feedCommand s r
  else if r.cls = 4 then feedAt s r.stamp.tick (feedVerdict · r)
  else if r.cls = 5 then s.onReplay fun q => { q with draws := q.draws ++ [r] }
  else if r.cls = 6 then s.onReplay fun q => { q with times := q.times ++ [r] }
  else if r.cls = 7 then feedPacket s r
  else if r.value = 2 ∨ r.value = 3 then feedDigest s r
  else s

/-- The reader takes the next record once the tick count has reached its stamp; the first one must be the START mark, and a malformed one ends
the replay with S_BADARG. -/
def readRecord (s : State) : State :=
  if !s.plane.replay.running ∨ s.plane.replay.stopRead then s
  else
    match nextRecord s with
    | none => s
    | some (r, n) =>
      if !s.plane.replay.begun then beginReplay (takeRecord s r n) r
      else if recordBad r then endReplay s .badarg
      else if s.plane.tick < r.stamp.tick then s
      else feedRecord (takeRecord s r n) r

/-- The next record ends the epoch: it is the first one, or malformed. -/
def endsEpoch (s : State) : Bool :=
  s.plane.replay.running && !s.plane.replay.stopRead &&
    (match nextRecord s with
     | some (r, _) => !s.plane.replay.begun || recordBad r
     | none => false)

/-- The reader of a live replay lags by more than 64 ticks (R44). -/
def execReplayReaderLag (lag : Nat) (s : State) : Answer :=
  effect s (match nextRecord s with
    | some (r, _) =>
      if s.plane.replay.running ∧ s.plane.replay.begun ∧ s.plane.replay.live ∧ 64 < lag ∧ r.stamp.tick + lag = s.wallTick then
        endReplay s .timeout
      else s
    | none => s)

/-- A replay has reached its end: the STOP record, the end of the area, RUN_TICKS, or the first mismatch. -/
def replayDone (s : State) : Bool :=
  let q := s.plane.replay
  q.running && q.begun &&
    (q.stopRead || (!q.fromHost && q.rest.isEmpty) || (q.runTicks != 0 && q.runTicks ≤ s.plane.tick) ||
      (q.stopAtMismatch && q.firstMismatch != 0))

end Sys2Proof.Machine
end

