-- ==== Sys2Proof/Machine/Crypto.lean ====
section
/-! DEFINITION. The crypto request rings and the comparator of the AEAD engine (chapter 12, R296–R306, R310, R311). -/

namespace Sys2Proof.Machine

/-! Descriptors (Table 12.3). -/

/-- Two buffers of whole blocks share no byte. -/
def clearOf (a n b m : Nat) : Bool := a + 16 * blocksOf n ≤ b || b + 16 * blocksOf m ≤ a

/-- The layout check of R302; a field that Table 12.3 gives as 0 for the form of the descriptor counts as reserved. -/
def dLayoutBad (d : List Byte) (first : Bool) : Bool :=
  let t := dTagLen d
  dOp d < 1 || 4 < dOp d || bitsOf (dNum d 2 1) 2 4 != 0 || bitAt (dNum d 2 1) 7 || dNum d 9 3 != 0 ||
    bitsOf (dNum d 32 4) 17 15 != 0 || bitsOf (dNum d 40 4) 17 15 != 0 || dNum d 52 4 != 0 || dNum d 56 8 != 0 ||
    (if dCont d then t != 0 || dTag d != 0 else t != 8 && t != 12 && t != 16) ||
    65536 < dAadLen d + dDataLen d ||
    [dAad d, dData d, dOut d, dTag d].any (fun a => a % 16 != 0) ||
    (dSupplied d != (dOp d == 2 || dOp d == 4)) ||
    ((!dSupplied d || !first) && (d.drop 16).take 12 != List.replicate 12 0) ||
    (dGmac d && (dDataLen d != 0 || dOut d != 0)) ||
    (!dGmac d && dOut d != dData d && !clearOf (dOut d) (dDataLen d) (dData d) (dDataLen d))

/-- The buffers of a descriptor lie in memory that the owner reaches (R302, R303). -/
def dReaches (s : State) (c : Nat) (d : List Byte) : Bool :=
  (dAadLen d == 0 || bufferReaches s c (dAad d) (dAadLen d)) &&
    (dDataLen d == 0 || (bufferReaches s c (dData d) (dDataLen d) && bufferReaches s c (dOut d) (dDataLen d))) &&
    (dCont d || bufferReaches s c (dTag d) 16)

/-- The usage that an OP needs (R302). -/
def dUsage (d : List Byte) : Nat := if dOp d = 1 then 0 else if dOp d = 2 then 1 else 2

/-- Steps 1–4 of R302 for the first segment of a message. -/
def firstSegmentCheck (s : State) (c : Nat) (d : List Byte) (arrival : Stamp) : Option Status :=
  let x := keySlot s (dKey d)
  firstOf [(dLayoutBad d true || (dCont d && dDataLen d % 16 != 0), .badarg),
    (dKey d < 16 || !mayKey s c (dKey d) || !dReaches s c d, .denied),
    (x.alg != 1 || !x.has (dUsage d), .denied),
    (if dExpGen d = 0 then arrival.before x.changed else dExpGen d != x.generation, .keyChanged)]

/-- The rules of a chain for a later segment (R304), and its rights (R302). -/
def laterSegmentCheck (s : State) (c : Nat) (x : CipherCtx) (d : List Byte) : Option Status :=
  firstOf [(dLayoutBad d false || dOp d != x.op || dKey d != x.keySlot || dExpGen d != x.expGen ||
      (x.inData && dAadLen d != 0) || (0 < dAadLen d && x.aad.length % 16 != 0) || (dCont d && dDataLen d % 16 != 0) ||
      2 ^ 32 - 2 < x.blocks + blocksOf (dDataLen d), .badarg),
    (dKey d < 16 || !mayKey s c (dKey d) || !dReaches s c d, .denied)]

/-- The context of a crypto ring. -/
def ringCtx (r : Nat) : Nat := r - 32

/-- A descriptor completes without doing anything; later segments of its message take the same status. -/
def refuseDescriptor (s : State) (r slot : Nat) (d : List Byte) (st : Nat) : State :=
  let k := ringCtx r
  let s := cryptoDone s r slot d st false [] 0
  releaseCtx s k (if dCont d then some st else none)

/-- A first segment whose checks have passed is admitted: the key is copied and, for IV_MODE 0, the IV drawn (R310, R312); a draw that meets
COMMIT waits with the descriptor unadmitted (R313). -/
def admitFirst (s : State) (r slot : Nat) (d : List Byte) : State :=
  let k := ringCtx r
  let n := dKey d
  let x := keySlot s n
  let enter (s : State) (iv : List Byte) : State :=
    (admitSlot s r).onCtx k fun _ =>
      { busy := true, op := dOp d, keySlot := n, expGen := dExpGen d, gen := x.generation, key := x.material, iv := iv
        seg := some { slot := slot, first := true, bytes := d }, lastAt := s.now }
  if dSupplied d then enter s ((d.drop 16).take 12)
  else
    match drawCounter s n with
    | (s, .value v) => enter s (drawnIv x.fixed v)
    | (_, .wait) => s
    | (s, .exhausted) => refuseDescriptor (admitSlot s r) r slot d Status.nonceExhausted.code

/-- The context of a crypto ring takes the descriptor at HEAD (R302, R304, R310). -/
def cryptoAdmission (s : State) (r : Nat) : State :=
  let g := s.ring r
  let k := ringCtx r
  let x := ctxOf s k
  if r < 32 ∨ 48 ≤ r ∨ !g.waits ∨ !landed s 8 (g.arrivalOf 1) ∨ !domainOn s 5 ∨ x.seg.isSome then s
  else
    let d := memReadN s (g.slotAddr g.head) 64
    let c := (ringOwner (chartersInForce s) r).getD 0
    let slot := g.head
    match x.rest with
    | some st => refuseDescriptor (admitSlot s r) r slot d st
    | none =>
      if x.busy then
        match laterSegmentCheck s c x d with
        | some st => refuseDescriptor (admitSlot s r) r slot d st.code
        | none => (admitSlot s r).onCtx k fun x => { x with seg := some { slot := slot, first := false, bytes := d } }
      else
        match firstSegmentCheck s c d (g.arrivalOf 1) with
        | some st => refuseDescriptor (admitSlot s r) r slot d st.code
        | none => admitFirst s r slot d

/-- Admission of a descriptor (R310). -/
def execCryptoAdmission (r : Nat) (s : State) : Answer := effect s (cryptoAdmission s r)

/-! Segments (R303–R305). -/

/-- A context works on a segment of an operation on ring `r`. -/
def segmentOf (s : State) (r op : Nat) : Option (CipherCtx × CryptoSeg) :=
  let x := ctxOf s (ringCtx r)
  if r < 32 ∨ 48 ≤ r ∨ !domainOn s 5 ∨ !x.busy ∨ x.op ≠ op ∨ x.abort then none
  else x.seg.map fun g => (x, g)

/-- A segment completes once the engine has computed its blocks (R299): its status and TRUST, and the context waits for the next segment or is released. `cipher` is the ciphertext of the
message so far. -/
def finishSegment (s : State) (r : Nat) (x : CipherCtx) (g : CryptoSeg) (st : Status) (trust : Bool) (aad cipher : List Byte) : State :=
  let k := ringCtx r
  let d := g.bytes
  let s := cryptoDone (engineRun s k (segmentBlocks d)) r g.slot d st.code trust (usedIv x g) x.gen
  if dCont d then
    s.onCtx k fun y => { y with
      aad := aad, cipher := cipher, inData := y.inData || 0 < dDataLen d, blocks := y.blocks + blocksOf (dDataLen d)
      seg := none, lastAt := s.now }
  else releaseCtx s k none

/-- AAD of a message up to and with a segment. -/
def segmentAad (s : State) (x : CipherCtx) (d : List Byte) : List Byte := x.aad ++ memReadN s (dAad d) (dAadLen d)

/-- The tag buffer that a message's last segment writes. -/
def writeTag (s : State) (d tag : List Byte) : State := memOut s (dTag d) (padTo 16 (tag.take (dTagLen d)))

/-- The tag in the buffer of a last segment agrees with the one computed. -/
def tagAgrees (s : State) (d tag : List Byte) : Bool := memReadN s (dTag d) (dTagLen d) == tag.take (dTagLen d)

/-- OP 1: a segment is encrypted (R305). -/
def encryptSegment (s : State) (r : Nat) : State :=
  match segmentOf s r 1 with
  | none => s
  | some (x, g) =>
    let d := g.bytes
    let aad := segmentAad s x d
    let s := writeData s (ringCtx r) (blocksOf (dDataLen d))
    let cipher := (ctxOf s (ringCtx r)).cipher
    let s := if dCont d then s else writeTag s d (Config.gcmTag x.key x.iv aad cipher)
    finishSegment s r x g .ok true aad cipher

/-- OP 2: a segment is decrypted; the last one gives the verdict (R305). -/
def decryptSegment (s : State) (r : Nat) : State :=
  match segmentOf s r 2 with
  | none => s
  | some (x, g) =>
    let d := g.bytes
    let aad := segmentAad s x d
    let s := writeData s (ringCtx r) (blocksOf (dDataLen d))
    let cipher := (ctxOf s (ringCtx r)).cipher
    let good := !dCont d && tagAgrees s d (Config.gcmTag x.key x.iv aad cipher)
    finishSegment s r x g (if dCont d ∨ good then .ok else .authFail) good aad cipher

/-- OP 3: a GMAC tag (R305). -/
def gmacGenSegment (s : State) (r : Nat) : State :=
  match segmentOf s r 3 with
  | none => s
  | some (x, g) =>
    let aad := segmentAad s x g.bytes
    let s := if dCont g.bytes then s else writeTag s g.bytes (Config.gcmTag x.key x.iv aad [])
    finishSegment s r x g .ok true aad []

/-- OP 4: a GMAC tag is checked (R305). -/
def gmacCheckSegment (s : State) (r : Nat) : State :=
  match segmentOf s r 4 with
  | none => s
  | some (x, g) =>
    let aad := segmentAad s x g.bytes
    let good := !dCont g.bytes && tagAgrees s g.bytes (Config.gcmTag x.key x.iv aad [])
    finishSegment s r x g (if dCont g.bytes ∨ good then .ok else .authFail) good aad []

/-- ENCRYPT. -/
def execEncrypt (r : Nat) (s : State) : Answer := effect s (encryptSegment s r)

/-- DECRYPT. -/
def execDecrypt (r : Nat) (s : State) : Answer := effect s (decryptSegment s r)

/-- GMAC_GEN. -/
def execGmacGen (r : Nat) (s : State) : Answer := effect s (gmacGenSegment s r)

/-- GMAC_CHECK. -/
def execGmacCheck (r : Nat) (s : State) : Answer := effect s (gmacCheckSegment s r)

/-- 10 s pass in which the next segment of a chain does not arrive (R304): the context is released, and the segment completes with S_TIMEOUT when it
arrives. -/
def chainTimeout (s : State) (r : Nat) : State :=
  let k := ringCtx r
  let x := ctxOf s k
  if 32 ≤ r ∧ r < 48 ∧ x.busy ∧ x.seg.isNone ∧ !(s.ring r).waits ∧ x.lastAt + 80000000 ≤ s.now then releaseCtx s k (some Status.timeout.code)
  else s

/-- A chain's time-out. -/
def execChainSegmentTimeout (r : Nat) (s : State) : Answer := effect s (chainTimeout s r)

/-- Within 16 ticks of a change in abort mode, the admitted work on a slot stops (R311). -/
def abortStop (s : State) (slot : Nat) : State :=
  (List.range 16).foldl (fun s k =>
    let x := ctxOf s k
    if x.busy ∧ x.abort ∧ x.keySlot = slot then failCtx s k .keyRevoked else s) s

/-- The work that an abort stops (R311). -/
def execKeyAbortStop (slot : Nat) (s : State) : Answer := effect s (abortStop s slot)

/-! The comparator (R297). -/

/-- The ports of a MACsec context (Table 12.1). -/
def ctxPorts (ctx : Nat) : List Nat := if ctx < 18 then [0, 2, 3] else [1, 4, 5]

/-- A MACsec frame meets a mismatch: it is dropped and counted in SA_DROP. Of an egress context it is the frame at the head of a port whose SA sends, and
its PN stays consumed; of an ingress context it is the first frame in the hold. -/
def macsecMismatch (s : State) (ctx : Nat) : State :=
  let drop (s : State) (n : Nat) : State := portDrop s n fun c => { c with saDrop := satAdd32 c.saDrop 1 }
  if ctx % 2 = 0 then
    match (ctxPorts ctx).findSome? fun n =>
      ((currentSa s n).filter fun a => a.stopped == 0 && a.pn < pnEnd).bind fun a => (takeHighest (portOf s n).queue).map fun q => (n, a, q.2) with
    | some (n, a, rest) => drop (usePn (s.onPort n fun p => { p with queue := rest }) a) n
    | none => s
  else
    match s.cipher.hold.find? fun h => h.ctx == ctx with
    | some h => drop (s.onCipher fun c => { c with hold := c.hold.erase h }) h.port
    | none => s

/-- The keeper's own request in a context ends with S_FAULT (R297, Table 12.1): of the packets that it works on the first that uses the context, or the session
of a poll. -/
def keeperMismatch (s : State) (ctx : Nat) : State :=
  if ctx = 30 then abandonPoll s .hwFault
  else
    let op := if ctx = 28 then 0x0A04 else if ctx = 29 then 0x0D01 else 0x0B01
    match s.plane.keeper.find? fun p => p.opcode == op && !isFinished s p with
    | some p => completeNow (release s p) p .hwFault []
    | none => s

/-- A secure CAN stream's frame meets a mismatch: a received frame fails its verdict with S_FAULT, or a send whose tag is not ready completes
with S_FAULT. -/
def streamMismatch (s : State) (k : Nat) : State :=
  match ((List.range 8).find? fun c => (canOf s c).verdicts.any fun v => v.stream == k && !v.fault) with
  | some c =>
    s.onCan c fun x => { x with verdicts :=
      match (x.verdicts.findIdx? fun v => v.stream == k && !v.fault) with
      | some i => x.verdicts.modify i fun v => { v with fault := true }
      | none => x.verdicts }
  | none =>
    match ((List.range 8).findSome? fun c =>
      ((canOf s c).frames.find? fun f => f.secure && f.stream == k && !f.tagReady).map fun f => (c, f)) with
    | some (c, f) => frameLeaves s c f .hwFault false
    | none => s

/-- What a mismatch ends, by its context (R297). -/
def endMismatched (s : State) (ctx : Nat) : State :=
  if ctx < 16 then failCtx s ctx .hwFault
  else if ctx < 20 then macsecMismatch s ctx
  else if ctx < 28 then streamMismatch s (ctx - 20)
  else keeperMismatch s ctx

/-- The comparator finds a mismatch (R297): CIPHER_FAULT with the mismatches of the last second; the sixteenth resets H4. -/
def cipherMismatch (s : State) (ctx : Nat) : State :=
  if !domainOn s 5 ∨ (ctx < 16 ∧ (ctxOf s ctx).seg.isNone) then s
  else
    let l := s.now :: s.cipher.mismatches.filter fun t => s.now < t + 8000000
    let s := s.onCipher fun c => { c with mismatches := l }
    let s := endMismatched s ctx
    let s := postEvent s (s.ev 1 0x0A02 ctx l.length)
    if 16 ≤ l.length then (hallReset s 4).onCipher fun c => { c with mismatches := [] } else s

/-- A mismatch (R297). -/
def execCipherMismatch (ctx : Nat) (s : State) : Answer := effect s (cipherMismatch s ctx)

/-! PD5 (R300). -/

/-- PD5 goes off 10 ms after the last context became idle (R300). -/
def pd5IdleOff (s : State) : State :=
  if domainOn s 5 ∧ ctxIdle s ∧ !keepsPd5 s ∧ s.cipher.idleSince + 80000 ≤ s.now ∧
      !((List.range 16).any fun k => (s.ring (32 + k)).waits) then
    setDomain s 5 false
  else s

/-- PD5 goes off (R300). -/
def execPd5IdleOff (s : State) : Answer := effect s (pd5IdleOff s)

end Sys2Proof.Machine
end

