-- ==== Sys2Proof/Machine/Images.lean ====
section
/-! DEFINITION. Image transfers, commits and reverts, trial runs, attestation and debug access (chapter 13, R325–R346). -/

namespace Sys2Proof.Machine

/-! Transfers (R326, R332, R333). -/

/-- Bytes of chunk `i` of a payload. -/
def chunkLen (h : List Byte) (i : Nat) : Nat := min chunkSize (hLen h - chunkSize * i)

/-- Some byte of a range is not zero. -/
def anyByte (l : List Byte) (a b : Nat) : Bool := ((l.drop a).take (b - a)).any (· != 0)

/-- The largest payload of a KIND (Table 13.5). -/
def lenMax (kind : Nat) : Nat := if kind = 1 then 2093056 else 29356032

/-- A header agrees with Table 13.5, with the KIND and the LENGTH of IMAGE.BEGIN, with the keeper that runs and with this device. -/
def headerGood (s : State) (h : List Byte) (kind length : Nat) : Bool :=
  dNum h 0 4 == 0x4D494756 && dNum h 4 2 == 1 && hKind h == kind && hSvn h ≤ 64 && 0 < hVersion h &&
    (if kind = 3 then hSvn h == 0 && hLen h == 7812 else 0 < hLen h && hLen h ≤ lenMax kind) &&
    (if kind = 2 then hMinKeeper h ≤ keeperVersion s && hSram h % 65536 == 0 && hSram h ≤ 12582912
     else hMinKeeper h == 0 && hSram h == 0) &&
    length == (if hEncrypted h then 5184 else 4096) && dNum h 24 1 < 2 && !anyByte h 25 32 && !anyByte h 132 256 &&
    !anyByte h 3565 4096 && hUidOk h

/-- A transfer or a trial is open. -/
def imageBusy (s : State) : Bool := s.image.transfer.isSome || s.image.trial.state == 1 || s.image.trial.state == 2

/-- The bank that is in use of a KIND is TENTATIVE. -/
def tentative (s : State) (kind : Nat) : Bool := kind != 3 && (bankIn s kind 4).isSome

/-- The header breaks R336. -/
def rollsBack (s : State) (h : List Byte) (kind : Nat) : Bool :=
  kind != 3 && (hSvn h < fusedSvn s kind ||
    match activeOf s kind with
    | some b => decide (hVersion h ≤ bankVersion s b)
    | none => false)

/-- The 14 characters "VB-7260 IMGKEY" (R326). -/
def imgKeyLabel : List Byte := [0x56, 0x42, 0x2D, 0x37, 0x32, 0x36, 0x30, 0x20, 0x49, 0x4D, 0x47, 0x4B, 0x45, 0x59]

/-- The content key of an encrypted package (R326). -/
def contentKey (s : State) (h ct : List Byte) : List Byte :=
  Config.kmac256 32 (Config.decaps (slotMaterial s 3) ct) (imageDigest h) imgKeyLabel

/-- Open a transfer: the inactive bank of its KIND becomes RECEIVING (R332). -/
def openTransfer (s : State) (comp kind : Nat) (h key : List Byte) : State × Reply :=
  let n := (s.image.transfers + 1) % 65536
  let b := if kind = 3 then 0 else inactiveOf s kind
  let s := s.onImage fun x => { x with
    transfers := n, transfer := some { number := n, owner := comp, kind := kind, bank := b, header := h, key := key, lastAt := s.now } }
  let s := if kind = 3 then s else setBank s b 1 comp fun _ => { header := h }
  (s, [(16, 2, n), (18, 2, chunkCount h), (20, 1, b)])

/-- The transfer is abandoned: its bank becomes EMPTY (R332). -/
def abandonTransfer (s : State) (comp : Nat) : State :=
  match s.image.transfer with
  | none => s
  | some t =>
    let s := s.onImage fun x => { x with transfer := none }
    if t.kind = 3 then s else setBank s t.bank 0 comp fun _ => {}

/-- ABORT of IMAGE.BEGIN. -/
def ibAbort (p : Packet) : Bool := p.bit 17 0

/-- IMAGE.BEGIN (Table 13.11). -/
def imageBeginOp : Op where
  code := 0x0B00
  layout := fun p => if ibAbort p then [(17, 0, 1)] else [(16, 0, 2), (17, 0, 1), (20, 0, 32), (24, 0, 32)]
  bad := fun p _ => !ibAbort p && (p.fld 16 0 2 == 0 || !aligned (p.num 20 4) || (p.num 24 4 != 4096 && p.num 24 4 != 5184))
  deny := fun p s => !ibAbort p &&
    (!reaches s p.comp (p.num 20 4) (p.num 24 4) || (s.store.image.lifecycle == 1 && p.fld 16 0 2 == 2) ||
      (s.store.image.lifecycle == 1 && p.fld 16 0 2 == 3 && p.comp != 14))
  run := fun p s =>
    if ibAbort p then
      match s.image.transfer with
      | some t => if t.owner = p.comp then { s := abandonTransfer s p.comp } else { s := s }
      | none => { s := s }
    else
      let kind := p.fld 16 0 2
      let h := memReadN s (p.num 20 4) 4096
      if tentative s kind then { s := s, st := some .conflict }
      else if imageBusy s then { s := s, st := some .busy }
      else if !headerGood s h kind (p.num 24 4) then { s := s, st := some .imageBad }
      else if kind ≠ 3 ∧ !hSigned h (slotMaterial s (if kind = 1 then 4 else 5)) then { s := s, st := some .authFail }
      else if rollsBack s h kind then { s := s, st := some .rollback }
      else
        let key := if hEncrypted h then contentKey s h (memReadN s (p.num 20 4 + 4096) 1088) else []
        let r := openTransfer s p.comp kind h key
        { s := r.1, reply := r.2 }

/-- IMAGE.BEGIN. -/
def execImageBegin (p : Packet) (s : State) : Answer := effect s (keeperTake imageBeginOp p s)

/-- The transfer that a packet names and owns. -/
def namedTransfer (p : Packet) (s : State) : Option Transfer :=
  match s.image.transfer with
  | some t => if t.owner = p.comp ∧ t.number = p.num 16 2 then some t else none
  | none => none

/-- The chunks that a transfer has written. -/
def transferChunks (s : State) (t : Transfer) : Tbl (List Byte) := if t.kind = 3 then t.chunks else (bank13 s t.bank).chunks

/-- A chunk is written, once (R332). -/
def writeChunk (s : State) (t : Transfer) (i : Nat) (l : List Byte) : State :=
  let s := if t.kind = 3 then s else s.onBank13 t.bank fun b => { b with chunks := Tbl.put b.chunks [] i l }
  s.onImage fun x => { x with transfer := some { t with
    lastAt := s.now, chunks := if t.kind = 3 then Tbl.put t.chunks [] i l else t.chunks } }

/-- The IV of a chunk (R326). -/
def chunkIv (i : Nat) : List Byte := List.replicate 4 0 ++ beBytes 8 i

/-- IMAGE.DATA. -/
def imageDataOp : Op where
  code := 0x0B01
  layout := fun _ => [(16, 0, 16), (18, 0, 16), (20, 0, 32), (24, 0, 32), (32, 0, 128)]
  bad := fun p s => !aligned (p.num 20 4) ||
    (match namedTransfer p s with
     | some t => chunkCount t.header ≤ p.num 18 2 || p.num 24 4 != chunkLen t.header (p.num 18 2) ||
         (!hEncrypted t.header && p.num 32 16 != 0)
     | none => false)
  deny := fun p s => (namedTransfer p s).isNone || !bufferReaches s p.comp (p.num 20 4) (p.num 24 4)
  run := fun p s =>
    match namedTransfer p s with
    | none => { s := s, st := some .denied }
    | some t =>
      let t := { t with lastAt := s.now }
      let s := s.onImage fun x => { x with transfer := some t }
      let i := p.num 18 2
      let data := memReadN s (p.num 20 4) (p.num 24 4)
      if Tbl.get (transferChunks s t) [] i ≠ [] then { s := s, st := some .conflict }
      else if !hEncrypted t.header then { s := writeChunk s t i data }
      else
        let aad := imageDigest t.header
        let s := engineRun s 31 (2 + blocksOf data.length + 2)
        if (p.bytes.drop 32).take 16 ≠ Config.gcmTag t.key (chunkIv i) aad data then { s := s, st := some .authFail }
        else { s := writeChunk s t i (Config.gcmCrypt t.key (chunkIv i) 0 data) }

/-- IMAGE.DATA. -/
def execImageData (p : Packet) (s : State) : Answer := effect s (keeperTake imageDataOp p s)

/-- The transfer is over; its key is zeroed (R326). -/
def closeTransfer (s : State) : State := s.onImage fun x => { x with transfer := none }

/-- The status that refuses an owner record (R331), or none: a later one carries the same ROOT_PK and a greater VERSION. -/
def ownerRefused (s : State) (h payload : List Byte) : Option Status :=
  if Config.shake256 payload ≠ hDigest h then some .imageBad
  else if !hSigned h (padTo 1952 payload) then some .authFail
  else
    match s.store.image.owner with
    | none => none
    | some o =>
      if o.key 0 ≠ padTo 1952 payload then some .denied
      else if hVersion h ≤ o.version then some .rollback else none

/-- An owner record is installed; the first one burns OWNER_ROOT and LIFECYCLE (R331), and slots 5–7 follow. -/
def installOwner (s : State) (h payload : List Byte) : State :=
  let s := trustWrite (s.onImageStore fun x => { x with
    ownerRoot := if x.lifecycle = 1 then Config.shake256 (padTo 1952 payload) else x.ownerRoot
    lifecycle := 2, owner := some { header := h, version := hVersion h, payload := payload } })
  loadOwnerSlots s

/-- IMAGE.END. -/
def imageEndOp : Op where
  code := 0x0B02
  layout := fun _ => [(16, 0, 16)]
  deny := fun p s => (namedTransfer p s).isNone
  run := fun p s =>
    match namedTransfer p s with
    | none => { s := s, st := some .denied }
    | some t =>
      let reply (n : Nat) : Reply := [replyBytes 16 (imageDigest t.header), (48, 1, n)]
      match payloadOf t.header (transferChunks s t) with
      | none => { s := s, st := some .conflict }
      | some payload =>
        let s := closeTransfer s
        if t.kind = 3 then
          match ownerRefused s t.header payload with
          | some st => { s := s, st := some st }
          | none => { s := installOwner s t.header payload, reply := reply 0 }
        else if Config.shake256 payload = hDigest t.header then
          { s := setBank s t.bank 2 p.comp, reply := reply 2 }
        else { s := setBank s t.bank 6 p.comp, st := some .imageBad, reply := reply 6 }

/-- IMAGE.END. -/
def execImageEnd (p : Packet) (s : State) : Answer := effect s (keeperTake imageEndOp p s)

/-- 600 s pass without an IMAGE.DATA (R332). -/
def transferTimeout (s : State) : State :=
  match s.image.transfer with
  | some t => if t.lastAt + 600 * 8000000 ≤ s.now then abandonTransfer s 0 else s
  | none => s

/-- A transfer is abandoned (R332). -/
def execTransferTimeout (s : State) : Answer := effect s (transferTimeout s)

/-! Trial runs (R338–R342). -/

/-- The device passes through Lantern and re-enters Beam with a new epoch (R334, R338). -/
def passThroughLantern (s : State) : State := (toLantern s).onSleep fun x => { x with target := some 3 }

/-- A trial may start with the STAGED bank (R338). -/
def trialFits (s : State) : Bool :=
  match bankIn s 2 2 with
  | none => false
  | some b =>
    let h := (bank13 s b).header
    let live := match activeApp s with
      | some a => hSram (bank13 s a).header
      | none => 0
    hSram h + live ≤ 12582912 && hMinKeeper h ≤ keeperVersion s &&
      !(s.store.charters.entries.toList.any fun c => c.enabled && c.pair == 1)

/-- A capture, a replay, a transfer or another trial is in progress (R338). -/
def trialBusy (s : State) : Bool := s.plane.capture.running || s.plane.replay.running || imageBusy s

/-- The reply of IMAGE.TRIAL (Table 13.13). -/
def trialReply (s : State) : Reply :=
  let t := s.image.trial
  let secs := match bankIn s 2 2 with
    | some b => (bank13 s b).trialS
    | none => 0
  [(16, 1, t.state), (17, 1, t.cause), (18, 1, t.comp), (19, 1, t.ring), (20, 2, t.liveSlot), (22, 2, t.candSlot), (24, 2, t.byte),
    (32, 8, t.startStamp.word), (40, 8, t.divStamp.word), (48, 8, t.exec), (56, 8, t.matched), (64, 4, secs)]

/-- MODE of IMAGE.TRIAL. -/
def itMode (p : Packet) : Nat := p.fld 16 0 2

/-- IMAGE.TRIAL (Table 13.12). -/
def imageTrialOp : Op where
  code := 0x0B03
  layout := fun _ => [(16, 0, 2), (17, 0, 2), (20, 0, 32), (24, 0, 32), (28, 0, 32)]
  bad := fun p _ => itMode p == 3 ||
    (itMode p == 0 && (p.num 20 4 == 0 || 86400 < p.num 20 4 || p.num 24 4 < 80 || 800000 < p.num 24 4)) ||
    (itMode p == 1 && !aligned (p.num 28 4))
  deny := fun p s => itMode p == 1 && !reaches s p.comp (p.num 28 4) 2048
  run := fun p s =>
    if itMode p = 0 then
      if !trialFits s then { s := s, st := some .conflict }
      else if trialBusy s then { s := s, st := some .busy }
      else
        let s := s.onImage fun x => { x with trial := { state := 1, tagCmp := p.bit 17 1, runS := p.num 20 4, window := p.num 24 4 } }
        let s := if p.bit 17 0 then passThroughLantern s else s
        { s := s, reply := trialReply s }
    else if itMode p = 1 then
      let t := s.image.trial
      { s := packetOut p s (p.num 28 4) (padTo 1024 t.liveBytes ++ padTo 1024 t.candBytes), reply := trialReply s }
    else
      let s := endTrial s 7
      { s := s, reply := trialReply s }

/-- IMAGE.TRIAL. -/
def execImageTrial (p : Packet) (s : State) : Answer := effect s (keeperTake imageTrialOp p s)

/-- An item stands on a ring of command packets, whose bytes 8–15 are EXEC_TICK. -/
def onPacketRing (x : TrialItem) : Bool := x.ring < 32 || x.ring == 62

/-- The byte at an offset is compared (R340): TAG and USER only with TAG_CMP, EXEC_TICK apart. -/
def comparedByte (tagCmp : Bool) (x : TrialItem) (i : Nat) : Bool :=
  !(!tagCmp && itemTagged x && 4 ≤ i && i < 8) && !(onPacketRing x && 8 ≤ i && i < 16)

/-- The first offset at which two items differ among those that `f` selects. -/
def firstDiffer (a b : TrialItem) (f : Nat → Bool) : Option Nat :=
  (List.range (max a.bytes.length b.bytes.length)).find? fun i => f i && a.bytes[i]? != b.bytes[i]?

/-- The outcome of pairing two items (Table 13.8): none for a match, else the end cause and BYTE. -/
def pairOutcome (tagCmp : Bool) (live cand : TrialItem) : Option (Nat × Nat) :=
  if live.ring ≠ cand.ring then some (1, 0xFFFF)
  else
    match firstDiffer live cand (comparedByte tagCmp live) with
    | some i => some (1, i)
    | none =>
      if onPacketRing live ∧ live.exec ≠ 0 ∧ cand.exec ≠ 0 ∧ live.exec ≠ cand.exec then
        some (2, (firstDiffer live cand fun i => 8 ≤ i && i < 16).getD 0xFFFF)
      else none

/-- What a divergence leaves in the report (Table 13.13). -/
def divergence (live cand : Option TrialItem) (byte : Nat) (t : Trial) : Trial :=
  let x := live.getD (cand.getD {})
  { t with
    comp := x.comp, ring := x.ring, liveSlot := (live.map (·.slot)).getD 0, candSlot := (cand.map (·.slot)).getD 0, byte := byte
    exec := (live.map (·.exec)).getD 0, liveBytes := (live.map (·.bytes)).getD [], candBytes := (cand.map (·.bytes)).getD [] }

/-- The tick of an EXEC_TICK word. -/
def trialExecTick (w : Nat) : Nat := (Stamp.ofWord w).tick

/-- A candidate item that arrives later than EXEC_TICK − 16 (Table 13.8). -/
def candidateLate (x : TrialItem) : Bool := onPacketRing x && x.exec != 0 && trialExecTick x.exec < x.arrival + 16

/-- The slots of a shadow ring that an item of the candidate stands in are taken from it (R340). -/
def shadowAdmit (s : State) (x : TrialItem) : State :=
  s.onShadow x.ring fun g =>
    let n := max 1 (x.bytes.length / 64)
    { g with head := if g.size < x.slot + n then 0 else (x.slot + n) % max 1 g.size, admitted := g.admitted ++ [{ slot := x.slot, slots := n }] }

/-- Two items match (R340): the candidate's receives what the live one has received, or will once that completes. -/
def pairItems (s : State) (a b : TrialItem) : State :=
  let s := s.onTrial fun t => { t with matched := t.matched + 1, live := t.live.erase a, cand := t.cand.erase b }
  match s.image.trial.replies.find? fun e => e.1 == a with
  | some e => giveReply (s.onTrial fun t => { t with replies := t.replies.erase e }) b e.2
  | none => s.onTrial fun t => { t with pairs := t.pairs ++ [(a, b)] }

/-- Pair an item with its partner, or keep it until the partner arrives (R340, R341). -/
def compareItem (s : State) (isCand : Bool) (x : TrialItem) : State :=
  let t := s.image.trial
  if t.state ≠ 2 then s
  else
    let s := if isCand then shadowAdmit s x else s
    let partner := (if isCand then t.live else t.cand).find? fun y => y.comp == x.comp
    let live := if isCand then partner else some x
    let cand := if isCand then some x else partner
    if isCand ∧ candidateLate x then endTrial s 5 (divergence live cand 0xFFFF)
    else
      match live, cand with
      | some a, some b =>
        match pairOutcome t.tagCmp a b with
        | some (cause, byte) => endTrial s cause (divergence live cand byte)
        | none => pairItems s a b
      | _, _ => s.onTrial fun t => if isCand then { t with cand := t.cand ++ [x] } else { t with live := t.live ++ [x] }

/-- The comparator takes an item (R340). -/
def execTrialCompare (cand : Bool) (item : TrialItem) (s : State) : Answer := effect s (compareItem s cand item)

/-- An item has waited too long for its partner (Table 13.8). -/
def matchDue (s : State) (x : TrialItem) : Bool :=
  if onPacketRing x ∧ x.exec ≠ 0 then trialExecTick x.exec ≤ s.plane.tick + 16 else x.arrival + s.image.trial.window ≤ s.plane.tick

/-- No partner has arrived in time for an item of a compartment: MISSING or EXTRA (Table 13.8). -/
def matchTimeout (s : State) (comp : Nat) : State :=
  let t := s.image.trial
  if t.state ≠ 2 then s
  else
    match t.live.find? (fun y => y.comp == comp && matchDue s y), t.cand.find? (fun y => y.comp == comp && matchDue s y) with
    | some a, _ => endTrial s 3 (divergence (some a) none 0xFFFF)
    | none, some b => endTrial s 4 (divergence none (some b) 0xFFFF)
    | none, none => s

/-- A trial ends without a partner (R341). -/
def execTrialMatchTimeout (comp : Nat) (s : State) : Answer := effect s (matchTimeout s comp)

/-- RUN_S has elapsed, or pair 1 has left its windows (R339, Table 13.8); the other causes end a trial with the commands that bring them. -/
def trialRunEnd (s : State) (cause : Nat) : State :=
  let t := s.image.trial
  if t.state = 2 ∧ ((cause = 6 ∧ t.fault) ∨ (cause = 0 ∧ t.startLin + t.runS * 8000000 ≤ s.plane.lin)) then endTrial s cause else s

/-- A trial ends (R342). -/
def execTrialRunEnd (cause : Nat) (s : State) : Answer := effect s (trialRunEnd s cause)

/-! Commits and reverts (R334–R337). -/

/-- A keeper image change asserts a logic reset at E, with cause 4 and issuer C0 (R337). -/
def assertKeeperReset (s : State) : State :=
  s.onSeq fun q => { q with resetDue := q.resetDue ++ [{ scope := 0, cause := { cause := 4 } }] }

/-- The owner record's REQUIRE_TRIAL is met by a bank (R342). -/
def trialMet (s : State) (b : Nat) : Bool :=
  match s.store.image.owner with
  | some o => !o.requireTrial || o.minTrial ≤ (bank13 s b).trialS
  | none => true

/-- WHEN of IMAGE.COMMIT and IMAGE.REVERT, and the reset of a keeper image (R334, R337). -/
def changeImage (s : State) (kind : Nat) (now : Bool) : State :=
  if kind = 1 then assertKeeperReset s else if now then passThroughLantern s else s

/-- The STAGED bank becomes TENTATIVE, and the one in use PREVIOUS (R334). -/
def commitBank (s : State) (kind b bootLeft comp : Nat) : State :=
  let s := match activeOf s kind with
    | some a => setBank s a 5 comp fun x => { x with bootLeft := 0 }
    | none => s
  setBank s b 4 comp fun x => { x with bootLeft := bootLeft }

/-- A confirmation makes the TENTATIVE bank ACTIVE and raises the fuses to its SVN (R334). -/
def confirmBank (s : State) (kind b comp : Nat) : State :=
  let svn := hSvn (bank13 s b).header
  let s := setBank s b 3 comp fun x => { x with bootLeft := 0 }
  s.onImageStore fun x => if kind = 1 then { x with keeperSvn := max x.keeperSvn svn } else { x with appSvn := max x.appSvn svn }

/-- IMAGE.COMMIT. -/
def imageCommitOp : Op where
  code := 0x0B04
  member := fun p => p.num 16 1 != 1 && !p.bit 18 0
  layout := fun _ => [(16, 0, 8), (17, 0, 1), (18, 0, 1), (19, 0, 8)]
  bad := fun p _ => p.num 16 1 == 0 || 2 < p.num 16 1 || 15 < p.num 19 1
  run := fun p s =>
    let kind := p.num 16 1
    if p.bit 17 0 then
      match bankIn s kind 4 with
      | some b => if imageBusy s then { s := s, st := some .busy } else { s := confirmBank s kind b p.comp }
      | none => { s := s, st := some .conflict }
    else
      match bankIn s kind 2 with
      | none => { s := s, st := some .conflict }
      | some b =>
        if kind = 2 ∧ !trialMet s b then { s := s, st := some .conflict }
        else if imageBusy s then { s := s, st := some .busy }
        else if hSvn (bank13 s b).header < fusedSvn s kind then { s := s, st := some .rollback }
        else
          let left := if p.num 19 1 = 0 then 3 else p.num 19 1
          { s := changeImage (commitBank s kind b left p.comp) kind (p.bit 18 0) }

/-- IMAGE.COMMIT. -/
def execImageCommit (p : Packet) (s : State) : Answer := effect s (keeperTake imageCommitOp p s)

/-- The state that the bank in use takes by IMAGE.REVERT (R335). -/
def revertInto (s : State) (kind : Nat) : Nat := if tentative s kind then 2 else 6

/-- IMAGE.REVERT. -/
def imageRevertOp : Op where
  code := 0x0B05
  member := fun _ => false
  layout := fun _ => [(16, 0, 8), (17, 0, 1)]
  bad := fun p _ => p.num 16 1 == 0 || 2 < p.num 16 1
  run := fun p s =>
    let kind := p.num 16 1
    if (bankIn s kind 5).isNone then { s := s, st := some .conflict }
    else if imageBusy s then { s := s, st := some .busy }
    else
      match (if kind = 1 then revertKeeper s 2 (revertInto s 1) p.comp else revertApp s 2 (revertInto s 2) p.comp) with
      | (s', true) => { s := changeImage s' kind (p.bit 17 0) }
      | (_, false) => { s := s, st := some .rollback }

/-- IMAGE.REVERT. -/
def execImageRevert (p : Packet) (s : State) : Answer := effect s (keeperTake imageRevertOp p s)

/-! Attestation (R343). -/

/-- The 14 characters "VB-7260 ATTEST" (R343). -/
def attestContext : List Byte := [0x56, 0x42, 0x2D, 0x37, 0x32, 0x36, 0x30, 0x20, 0x41, 0x54, 0x54, 0x45, 0x53, 0x54]

/-- VERSION of a bank that may be missing. -/
def versionOf (s : State) (b : Option Nat) : Nat := match b with | some b => bankVersion s b | none => 0

/-- The digest of a bank that may be missing. -/
def digestOf (s : State) (b : Option Nat) : List Byte := match b with | some b => bankDigest s b | none => List.replicate 32 0

/-- Bytes 0–359 of the attestation report (Table 13.9). -/
def attestBody (s : State) (nonce user : List Byte) : List Byte :=
  let app := activeApp s
  let other := some (inactiveOf s 2)
  let x := s.store.image
  leBytes 4 0x54535441 ++ leBytes 2 1 ++ leBytes 2 3669 ++ Config.uid ++ leBytes 1 x.lifecycle ++
    leBytes 1 (b2n s.image.dbg.scope.isSome + 2 * b2n s.image.dbg.since) ++
    leBytes 1 (app.getD 0 + 4 * b2n (tentative s 2) + 8 * b2n (s.image.bootFail != 0)) ++
    leBytes 1 (match app with | some b => (bank13 s b).bootLeft | none => 0) ++
    leBytes 1 x.keeperSvn ++ leBytes 1 x.appSvn ++ leBytes 2 0 ++
    leBytes 4 (keeperVersion s) ++ leBytes 4 (versionOf s app) ++ leBytes 4 (versionOf s other) ++ leBytes 4 0 ++
    leBytes 8 s.stamp.word ++ s.rtc.bytes ++ padTo 32 nonce ++
    bankDigest s s.image.keeperBank ++ (match x.owner with | some o => imageDigest o.header | none => List.replicate 32 0) ++
    Config.shake256 s.store.charters.signed ++ Config.shake256 (Config.storeBytes s.store) ++ digestOf s app ++ digestOf s other ++
    padTo 64 user

/-- The attestation report (Table 13.9), padded to whole blocks. -/
def attestReport (s : State) (nonce user : List Byte) : List Byte :=
  let b := attestBody s nonce user
  padTo 3680 (b ++ Config.sign (slotMaterial s 1) attestContext b)

/-- ATTEST. -/
def attestOp : Op where
  code := 0x0B10
  slotsOk := fun p => p.slotsField == 2
  layout := fun _ => [(16, 0, 1), (20, 0, 32), (24, 0, 256), (64, 0, 512)]
  bad := fun p _ => !aligned (p.num 20 4)
  deny := fun p s => !reaches s p.comp (p.num 20 4) (if p.bit 16 0 then 10784 else 3680)
  run := fun p s =>
    if p.bit 16 0 then
      { s := packetOut p s (p.num 20 4) (padTo 5392 (certificate 0) ++ padTo 5392 (certificate 1)), reply := [(16, 2, 10784)] }
    else
      { s := keyedOut p (packetOut p s (p.num 20 4) (attestReport s ((p.bytes.drop 24).take 32) ((p.bytes.drop 64).take 64))) 3309
        reply := [(16, 2, 3669)] }

/-- ATTEST. -/
def execAttest (p : Packet) (s : State) : Answer := effect s (keeperTake attestOp p s)

/-! Debug access (R344). -/

/-- Change debug access. -/
def State.onDebug (s : State) (f : Debug → Debug) : State := s.onImage fun x => { x with dbg := f x.dbg }

/-- The 13 characters "VB-7260 DEBUG" (R344). -/
def debugContext : List Byte := [0x56, 0x42, 0x2D, 0x37, 0x32, 0x36, 0x30, 0x20, 0x44, 0x45, 0x42, 0x55, 0x47]

/-- Debug access locks (R344). -/
def lockDebug (s : State) (comp : Nat) : State :=
  match s.image.dbg.scope with
  | none => s
  | some k => imageEvent (s.onDebug fun d => { d with scope := none }) 0x0B05 0 (k + 2 ^ 15) comp

/-- The 56-byte message that a response signs (R344). -/
def debugMessage (challenge : List Byte) (p : Packet) : List Byte :=
  challenge ++ Config.uid ++ leBytes 1 (p.num 17 1) ++ leBytes 3 0 ++ leBytes 4 (p.num 20 4)

/-- A response to a challenge (R344). -/
def debugRespond (p : Packet) (s : State) : Res :=
  let d := s.image.dbg
  match d.challenge with
  | none => { s := s, st := some .conflict }
  | some c =>
    if p.num 20 4 = 0 ∨ 86400 < p.num 20 4 then { s := s, st := some .conflict }
    else if d.spent ∨ d.issuedAt + 60 * 8000000 < s.now then { s := s, st := some .timeout }
    else
      let s := s.onDebug fun x => { x with spent := true }
      if Config.verify (slotMaterial s 7) debugContext (debugMessage c p) (memReadN s (p.num 24 4) 3309) then
        let s := s.onDebug fun x => { x with scope := some (p.num 17 1), until_ := s.now + p.num 20 4 * 8000000, since := true }
        { s := imageEvent s 0x0B05 0 (p.num 17 1) p.comp }
      else { s := s, st := some .authFail }

/-- DEBUG.UNLOCK. -/
def debugUnlockOp : Op where
  code := 0x0B20
  layout := fun _ => [(16, 0, 2), (17, 0, 8), (20, 0, 32), (24, 0, 32)]
  bad := fun p _ => p.fld 16 0 2 == 3 || 3 < p.num 17 1 || (p.fld 16 0 2 == 1 && !aligned (p.num 24 4))
  deny := fun p s => (p.comp != 14 && p.comp != 15) || s.store.image.lifecycle == 1 ||
    (p.fld 16 0 2 == 1 && !reaches s p.comp (p.num 24 4) 3312)
  run := fun p s =>
    if p.fld 16 0 2 = 0 then
      if s.cipher.trngFail then { s := s, st := some .hwFault }
      else
        let (c, s) := drawPlane s 32 0
        { s := s.onDebug fun d => { d with challenge := some c, issuedAt := s.now, spent := false }, reply := [replyBytes 16 c] }
    else if p.fld 16 0 2 = 1 then debugRespond p s
    else { s := lockDebug s p.comp }

/-- DEBUG.UNLOCK. -/
def execDebugUnlock (p : Packet) (s : State) : Answer := effect s (keeperTake debugUnlockOp p s)

/-- DURATION has passed (R344). -/
def debugExpiry (s : State) : State :=
  if s.image.dbg.scope.isSome ∧ s.image.dbg.until_ ≤ s.now then lockDebug s 0 else s

/-- A debug unlock ends (R344). -/
def execDebugExpiry (s : State) : Answer := effect s (debugExpiry s)

end Sys2Proof.Machine
end

