-- ==== Sys2Proof/Machine/Pins.lean ====
section
/-! DEFINITION. The host supply and the TAP (chapter 17, R399, R403, R404; chapter 13, R345). -/

namespace Sys2Proof.Machine

/-- Change the lands. -/
def State.onPins (s : State) (f : Pins → Pins) : State := { s with pins := f s.pins }

/-- VIO falls below 1.5 V (R403): the host and control lands are high-impedance. -/
def execVioLoss (mv : Nat) (s : State) : Answer :=
  effect s (if mv < 1500 then s.onPins fun p => { p with vio := false } else s)

/-- VIO is at least 1.5 V again (R403, R404). -/
def execVioReturn (mv : Nat) (s : State) : Answer :=
  effect s (if 1500 ≤ mv then s.onPins fun p => { p with vio := true } else s)

/-- The level of the READY land, none while it is high-impedance (R403, R404, R58). -/
def readyLand (s : State) : Option Bool := if s.pins.vio then some s.seq.ready else none

/-- The level of the IRQ_OUT land in level mode, none while it is high-impedance (R403, R404): inactive, that is high, until HOST_IRQ has been
applied. -/
def irqLand (s : State) : Option Bool :=
  if !s.pins.vio then none
  else if !s.pins.irqApplied then some true
  else some (irqOut s == s.store.sys.hostIrq.testBit 0)

/-- The IDCODE (R399). -/
def idcode : Nat := 0x1726074B

/-- An instruction of the TAP with the data shifted in (R345): 0 BYPASS, 1 IDCODE, 2 SAMPLE/PRELOAD, 3 EXTEST, 4 INTEST. The lands that a
boundary scan captures are a free value; EXTEST and INTEST act only while RESET_N is held low. -/
def tapInstruction (s : State) (code : Nat) (resetLow : Bool) (dataIn : Nat) : State :=
  if code = 0 ∨ 4 < code then s.onPins fun p => { p with tap := { p.tap with instr := 0, out := 0, acting := false } }
  else if code = 1 then s.onPins fun p => { p with tap := { p.tap with instr := 1, out := idcode, acting := false } }
  else
    let v := Config.boundaryCells s.free
    { s with free := s.free + 1, pins := { s.pins with
        tap := { instr := code, out := v, cells := dataIn, acting := resetLow && decide (3 ≤ code) } } }

/-- TAP_INSTRUCTION (R345). -/
def execTapInstruction (code : Nat) (resetLow : Bool) (dataIn : Nat) (s : State) : Answer :=
  effect s (tapInstruction s code resetLow dataIn)

end Sys2Proof.Machine
end

