-- ==== Sys2Proof/Machine/Sleep.lean ====
section
/-! DEFINITION. Entry into Dark, wakes, and Buoy (chapter 11, R278–R287). -/

namespace Sys2Proof.Machine

/-! Wake latches (Table 11.2). -/

/-- A source of the wake table is enabled (Table 11.2): a transceiver watches the bus in Standby or Sleep only. -/
def enabledSource (s : State) (cause index : Nat) : Bool :=
  let x := vget s.store.sleep.xcvr index
  let idle := 2 ≤ (netOf s index).xcvr
  if cause = 1 then index < 48 && (siCfg s index).wakeEn
  else if cause = 2 then index < 4 && (vget (accessCfg s).handle index).wakeEn
  else if cause = 3 then index < 8 && idle && x.wakeEn && !x.swEn
  else if cause = 4 ∨ cause = 5 then index < 8 && idle && x.swEn
  else if cause = 6 then index < 6 && 2 ≤ (netOf s (8 + index)).xcvr && (vget s.store.sleep.xcvr (8 + index)).wakeEn
  else if cause = 7 then index == 0 && (match s.sleep.alarmAt with | some t => decide (t ≤ s.rtc.time) | none => false)
  else if cause = 8 then index < 16 && (vget s.store.input.fi index).wakeEn
  else if cause = 9 then index < 6 && (portCfg s index).wakeEn
  else false

/-- The wake flag of a transceiver that has detected a wake (Table 11.12). -/
def flagWake (s : State) (cause index : Nat) : State :=
  match wakeNet cause index with
  | some n => s.onNet n fun x => { x with wakeFlag := true }
  | none => s

/-- An armed and enabled source fires (R284, R289). -/
def wakeLatch (s : State) (cause index : Nat) (phases : List Nat) : State :=
  if enabledSource s cause index then
    let d := detects s cause index phases
    let s := d.2
    if d.1 then
      let s := if cause = 7 then s.onSleep fun x => { x with alarmAt := none } else s
      latchWake (flagWake s cause index) cause index
    else s
  else s

/-- A wake source fires (R284). -/
def execWakeLatch (cause : Nat) (x : WakeSign) (s : State) : Answer := effect s (wakeLatch s cause x.index x.phases)

/-! What sleep demands of the supply. -/

/-- WAKEOUT is high (R288, R404): a transceiver demands the pre-regulator. -/
def wakeOut (s : State) : Bool := s.sleep.net.toList.any fun x => x.xcvr != 3

/-- How many of the first `n` numbers satisfy a test. -/
def countBelow (n : Nat) (p : Nat → Bool) : Nat := ((List.range n).filter p).length

/-- The most that VBATL supplies in Dark at 25 °C (R290), in µA. -/
def parkCurrent (s : State) : Rat :=
  let x := s.store.sleep.xcvr
  let nCan := countBelow 8 fun n => (vget x n).wakeEn && !(vget x n).swEn
  let nLin := countBelow 6 fun n => (vget x (8 + n)).wakeEn
  let nCh := countBelow 4 fun k => (vget (accessCfg s).handle k).wakeEn
  let nEth := countBelow 6 fun n => (portCfg s n).wakeEn
  let nSw := countBelow 8 fun n => (vget x n).swEn
  10 + 3 / 5 * nCan + 2 / 5 * nLin + 1000 * senseDraw s + 5 / 2 * nCh + 4 * nEth + 350 * nSw

/-- The device has acted on a latch, toward a TARGET. -/
def markHandled (s : State) (l : Latch) (target : Nat) (netsDue : Bool) : State :=
  s.onSleep fun x => { x with
    latches := x.latches.map fun k => if k.isOf l.cause l.index then { k with handled := true, target := target, netsDue := netsDue } else k }

/-- A wake is handled while the tick hall runs and before the device commit tick (R286, R287): it clears DARK_PENDING, moves the device
toward its TARGET and acts on its networks, and it is posted and logged once the keeper has it. One whose TARGET lies below the present state acts on its
networks alone (R278). -/
def handleAwake (s : State) (l : Latch) : State :=
  let t := wakeTarget s l.cause
  let s := if t < s.seq.state.code then s else s.onSleep fun x => { x with darkPending := false }
  let s := wakeNetworks (moveToward s t) l.cause l.index
  let s := markHandled s l t false
  postWakes s s.stamp

/-- A wake is handled in Dark or Buoy (R286, R287): the device moves toward its TARGET, and the wake stays latched until the tick hall runs. In Buoy
the keeper logs it, and a touch starts its poll. -/
def handleAsleep (s : State) (l : Latch) : State :=
  let t := wakeTarget s l.cause
  let s := markHandled (moveToward s t) l t true
  if s.seq.state = .buoy then
    let s := logWakes s
    if l.cause = 2 then autoPoll s (vget (accessCfg s).handle l.index).antMask else s
  else s

/-- The oldest latch that the device has not acted on is handled (R286); between the device commit tick and Dark none is. -/
def wakeHandling (s : State) : State :=
  match s.sleep.latches.find? (!·.handled) with
  | none => s
  | some l =>
    if !s.seq.powered ∨ s.seq.inReset ∨ s.sleep.darkCommit.isSome then s
    else if s.asleep then handleAsleep s l
    else if s.plane.running then handleAwake s l
    else s

/-- A latched wake is handled (R286). -/
def execWakeHandling (s : State) : Answer := effect s (wakeHandling s)

/-! Entry into Dark (R283). -/

/-- What R283 waits for ahead of the SLEEP frames, and no wake latched before now (R285). -/
def darkReady (s : State) : Bool :=
  s.plane.running && s.seq.state == .lantern && s.sleep.darkPending && s.sleep.darkCommit.isNone && !latchedBefore s &&
    ((List.range 14).all fun n => (netCfg s n).mode == 0 || (netOf s n).state == 1) && sleepPortsDone s &&
    (s.input.die.parked || !s.input.die.running)

/-- What R283 waits for: the links have sent their SLEEP frames too (R202). -/
def darkDue (s : State) : Bool := darkReady s && linksSlept s

/-- A frame slot of an Ivgal link (R199): while nothing but the SLEEP frames stands before Dark, it sends its own (R202). -/
def ivgalSlot (s : State) (n : Nat) : State := if (linkCfg s n).enable && darkReady s then sleepSlot s n else frameSlot s n

/-- A frame slot (R199). -/
def execIvgalFrameSlot (n : Nat) (s : State) : Answer := effect s (ivgalSlot s n)

/-- The transceivers of networks whose MODE is off are handed to Sleep (R283). -/
def sleepTransceivers (s : State) : State :=
  (List.range 14).foldl (fun s n => if (netCfg s n).mode = 0 then setXcvr s n 3 else s) s

/-- The device commit tick (R283): the session and a poll end, waiting packets complete with S_CANCELLED, the records that wait for a release frame are
written without one (R367), what the sense landing holds is released, the Ethernet ports go down (R261), the log is sealed, and STATE 0 is the last event (R279). A wake latched in this tick
counts as latched after it (R285, R286). -/
def deviceCommit (s : State) : State :=
  if darkDue s then
    let s := abandonPoll (closeSession s 5 0) .cancelled
    let s := takeReferences (sleepTransceivers (cancelHeld s fun _ => true))
    let s := releaseAll (writeReleaseRecords s 0)
    let s := ethPowerOff s
    let s := releaseRecords s s.wallTick
    let s := if s.store.log.opened.isSome then sealSegment s 5 else s
    let s := postEvent s (s.ev 3 0x010C (pointAt 83 0) 0 true)
    s.onSleep fun x => { x with
      darkCommit := some s.now, latches := x.latches.map fun l => if s.now ≤ l.tick then { l with late := true } else l }
  else s

/-- The device commit tick (R283). -/
def execDeviceCommit (s : State) : Answer := effect s (deviceCommit s)

/-- The Dark-entry tick, 80 ticks after the commit (R283): the domains are off, and a wake latched since counts as latched now (R286). -/
def darkEntry (s : State) : State :=
  match s.sleep.darkCommit with
  | some t =>
    if t + 80 ≤ s.now then
      darkClear (s.onSleep fun x => { x with
        darkPending := false, darkCommit := none, pairStopAt := none, target := none
        latches := x.latches.map fun l => { l with told := true, tick := if l.late then s.now else l.tick } })
    else s
  | none => s

/-- Dark is entered (R283). -/
def execDarkEntry (s : State) : Answer := effect s (darkEntry s)

/-- BUOY_MS passes in Buoy without an advance (R278, R362): a poll is abandoned, and the device returns to Dark. -/
def buoyTimeout (s : State) : State :=
  if s.seq.state = .buoy ∧ s.sleep.target.isNone ∧ s.sleep.buoyAt + msTicks s.store.sleep.buoyMs ≤ s.now then
    buoyToDark (abandonPoll s .timeout)
  else s

/-- BUOY_MS passes (R278). -/
def execBuoyTimeout (s : State) : Answer := effect s (buoyTimeout s)

/-- The pairs stop 10 ms after the change to Lantern (R280). -/
def pairStop (s : State) : State :=
  match s.sleep.pairStopAt with
  | some t => if s.plane.running ∧ t ≤ s.plane.lin then stopPairs s else s
  | none => s

/-- The application pairs stop (R280). -/
def execPairStop (s : State) : Answer := effect s (pairStop s)

end Sys2Proof.Machine
end

