-- ==== Sys2Proof/Machine/System.lean ====
section
/-! DEFINITION. The system opcodes (chapter 03, R90–R92, R100 and Tables 03.16–03.22; R278–R283 for SYS.STATE, R63 for SYS.RESET). -/

namespace Sys2Proof.Machine

/-! SYS.NOP, SYS.TICK, SYS.INFO. -/

/-- SYS.NOP. -/
def sysNopOp : Op where
  code := 0x0100
  fast := true
  slotsOk := anySlots
  run := fun _ s => { s := s }

/-- SYS.NOP. -/
def execSysNop (p : Packet) (s : State) : Answer := effect s (fastTake sysNopOp p s)

/-- SYS.TICK (Table 03.16). -/
def sysTickOp : Op where
  code := 0x0104
  fast := true
  run := fun p s =>
    { s := s
      reply := [(16, 8, p.arrival.word), (24, 8, s.stamp.word),
        (32, 4, (vget (vget s.plane.landings 1).streams p.hall).late)] }

/-- SYS.TICK. -/
def execSysTick (p : Packet) (s : State) : Answer := effect s (fastTake sysTickOp p s)

/-- The reply of SYS.INFO (Table 03.17). -/
def sysInfoReply (s : State) : Reply :=
  let c := s.ret.cause
  [(16, 2, 0x7260), (18, 1, (Config.stepping 0).toNat), (19, 1, (Config.stepping 1).toNat), (20, 1, (Config.stepping 2).toNat),
    (21, 1, (Config.stepping 3).toNat), (22, 1, b2n (activeApp s == some 3) + 2 * b2n (activeApp s).isNone),
    (24, 4, keeperVersion s), (28, 4, bankVersion s 2), (32, 4, bankVersion s 3), replyBytes 36 Config.uid,
    (52, 1, c.cause), (53, 1, c.byComp % 16), (56, 4, c.tag)]

/-- SYS.INFO. -/
def sysInfoOp : Op where
  code := 0x0101
  run := fun _ s => { s := s, reply := sysInfoReply s }

/-- SYS.INFO. -/
def execSysInfo (p : Packet) (s : State) : Answer := effect s (keeperTake sysInfoOp p s)

/-! SYS.STATE (R278–R283). -/

/-- What holds the device in its state (R282); Beam is also refused while no application may run (R330). -/
def stateHeld (s : State) (target : Nat) : Bool :=
  if target = 0 then
    s.plane.capture.running || s.plane.replay.running || s.image.trial.state == 2 || s.image.transfer.isSome
  else if target = 2 then s.image.trial.state == 2
  else s.image.bootFail != 0

/-- A move toward Dark (R283): Beam ends, every network is released, and DARK_PENDING is set. -/
def goDark (s : State) : State :=
  let s := toLantern s
  let s := (List.range 14).foldl releaseNet s
  let s := blockRelease s 3 0
  requestSleepPorts (s.onSleep fun x => { x with darkPending := true, target := none })

/-- SYS.STATE (Table 03.18). -/
def sysStateOp : Op where
  code := 0x0102
  member := fun _ => false
  layout := fun _ => [(16, 0, 2)]
  bad := fun p _ => p.fld 16 0 2 == 1
  run := fun p s =>
    let t := p.fld 16 0 2
    if stateHeld s t then { s := s, st := some .busy }
    else
      let now := s.seq.state.code
      let s := if t = 0 then goDark s
        else if t = 2 then (toLantern s).onSleep fun x => { x with darkPending := false, target := none }
        else moveToward (s.onSleep fun x => { x with darkPending := false }) 3
      { s := s, reply := [(16, 1, now)] }

/-- SYS.STATE. -/
def execSysState (p : Packet) (s : State) : Answer := effect s (keeperTake sysStateOp p s)

/-! SYS.RESET (R63, Table 03.19). -/

/-- SYS.RESET: the reset is asserted at the end of tick E. -/
def sysResetOp : Op where
  code := 0x0103
  member := fun _ => false
  layout := fun _ => [(16, 0, 2), (17, 0, 4)]
  bad := fun p _ =>
    let i := p.fld 17 0 4
    match p.fld 16 0 2 with
    | 0 => i != 0
    | 1 => 1 < i
    | 2 => !(i == 0 || i == 2 || i == 4 || i == 5 || i == 6)
    | _ => true
  run := fun p s =>
    let scope := p.fld 16 0 2
    let d : ResetDue :=
      { scope := scope
        cause := { cause := if scope = 0 then 4 else if scope = 1 then 12 else 11, index := p.fld 17 0 4, byComp := p.comp, tag := p.tag }
        packet := some p, late := lateNow p s }
    { s := s.onSeq fun q => { q with resetDue := q.resetDue ++ [d] }, st := none }

/-- SYS.RESET. -/
def execSysReset (p : Packet) (s : State) : Answer := effect s (keeperTake sysResetOp p s)

/-! SYS.CONFIG (R100, Tables 03.20 and 03.21). -/

/-- READ. -/
def cfgRead (p : Packet) : Bool := p.bit 16 0

/-- The items of SYS.CONFIG: ID, INDEX, VALUE. -/
def cfgItems (p : Packet) : List (Nat × Nat × Nat) :=
  (List.range (p.num 17 1)).map fun i => (p.num (24 + 8 * i) 2, p.num (26 + 8 * i) 2, p.num (28 + 8 * i) 4)

/-- An item lies outside Table 03.21; VALUE is ignored on a read. -/
def itemBad (read : Bool) (e : Nat × Nat × Nat) : Bool :=
  let (id, i, v) := e
  match id with
  | 1 => i != 0 || (!read && (v < 70 || 120 < v))
  | 2 => i < 56 || 59 < i || (!read && (v.testBit 0 || 0xFFFF < v))
  | 3 => i == 0 || 15 < i || (!read && v != 0 && (v < 56 || 59 < v))
  | 4 => i != 0 || (!read && 3 < v)
  | _ => true

/-- A compartment may not write an item (R100); the keeper may write every one (R90). -/
def itemDenied (s : State) (c : Nat) (e : Nat × Nat × Nat) : Bool :=
  let (id, i, v) := e
  c != 0 &&
    (match id with
     | 2 => !ownsRing s c i
     | 3 => i != c || (v != 0 && !ownsRing s c v)
     | _ => c != 14)

/-- The value of an item. -/
def itemValue (s : State) (id i : Nat) : Nat :=
  let c := s.store.sys
  match id with
  | 1 => c.vbatlWarn
  | 2 => vget c.eventGroups (i - 56)
  | 3 => vget c.replyRing i
  | _ => c.hostIrq

/-- Write one item. -/
def setItem (c : SysCfg) (e : Nat × Nat × Nat) : SysCfg :=
  let (id, i, v) := e
  match id with
  | 1 => { c with vbatlWarn := v }
  | 2 => { c with eventGroups := vmod c.eventGroups (i - 56) fun _ => v }
  | 3 => { c with replyRing := vmod c.replyRing i fun _ => v }
  | _ => { c with hostIrq := v }

/-- Every ring that is some compartment's REPLY_RING subscribes group 0x01 (R100). -/
def routingAgrees (c : SysCfg) : Bool :=
  (List.range 16).all fun i =>
    let r := vget c.replyRing i
    r == 0 || (vget c.eventGroups (r - 56)).testBit 1

/-- An entry of before can still be asked for: some item or queued change may carry a stamp ahead of its change. -/
def OldSettings.recent (s : State) (o : OldSettings) : Bool := o.changed.epoch == s.plane.epoch && s.plane.tick < o.changed.tick + 8000

/-- What is stamped before this tick keeps the settings that were in force then: the event routing, point attributes, reflex rules (R86, R97). -/
def keepSettings (s : State) : State :=
  if s.plane.settings.any fun o => o.changed = s.stamp then s
  else s.onPlane fun q => { q with
    settings := { eventGroups := s.store.sys.eventGroups, replyRing := s.store.sys.replyRing, attrs := s.store.attrs, rules := s.store.rules
                  armed := s.points.armed, changed := s.stamp } :: q.settings.filter (·.recent s) }

/-- SYS.CONFIG. -/
def sysConfigOp : Op where
  code := 0x0105
  slotsOk := anySlots
  layout := fun p => (16, 0, 1) :: (17, 0, 8) :: entryLayout 24 8 (min (p.num 17 1) 125) [(0, 0, 16), (2, 0, 16), (4, 0, 32)]
  bad := fun p _ =>
    p.num 17 1 == 0 || (64 * p.slots - 24) / 8 < p.num 17 1 || (cfgItems p).any (itemBad (cfgRead p))
  deny := fun p s => !cfgRead p && (cfgItems p).any (itemDenied s p.comp)
  agree := fun p _ s => cfgRead p || routingAgrees s.store.sys
  run := fun p s =>
    let l := cfgItems p
    let s := if cfgRead p then s
      else (keepSettings s).onStore fun st => { st with sys := l.foldl setItem st.sys }
    { s := s
      reply := (List.range l.length).flatMap fun i =>
          let e := l.getD i (0, 0, 0)
          [(24 + 8 * i, 2, e.1), (26 + 8 * i, 2, e.2.1), (28 + 8 * i, 4, if cfgRead p then itemValue s e.1 e.2.1 else e.2.2)] }

/-- SYS.CONFIG. -/
def execSysConfig (p : Packet) (s : State) : Answer := effect s (keeperTake sysConfigOp p s)

/-! Charter sets (R90–R92, Tables 03.8 and 03.9). -/

/-- The 80 bytes of entry `c` of a charter set. -/
def entryBytes (b : List Byte) (c : Nat) : List Byte := (b.drop (32 + 80 * c)).take 80

/-- The number in `n` bytes of a list from byte `o` on. -/
def numAt (b : List Byte) (o n : Nat) : Nat := leNat ((b.drop o).take n)

/-- The charter that an entry spells. -/
def parseEntry (e : List Byte) : Charter :=
  { pair := numAt e 1 1 % 2, enabled := (numAt e 1 1).testBit 1, mayCharter := (numAt e 1 1).testBit 2, groups := numAt e 2 2
    cmdRings := numAt e 4 4, cryptoRings := numAt e 8 2, packetRings := numAt e 10 1, eventRings := numAt e 11 1 % 16
    logRing := (numAt e 11 1).testBit 4, captureRing := (numAt e 11 1).testBit 5, budget := numAt e 12 4, writeG := numAt e 16 12
    readG := numAt e 28 12, keySlots := numAt e 40 32 }

/-- The charter set that bytes spell. -/
def parseSet (b : List Byte) : CharterSet :=
  { version := numAt b 8 8, signed := b, entries := vtab 16 fun c => parseEntry (entryBytes b c) }

/-- An entry has a reserved field that is not 0, key slots below 16, or, where it is enabled, another place's COMPARTMENT. -/
def entryBad (c : Nat) (e : List Byte) : Bool :=
  16 ≤ numAt e 0 1 || ((parseEntry e).enabled && numAt e 0 1 != c) || 8 ≤ numAt e 1 1 || (numAt e 2 2).testBit 0 ||
    64 ≤ numAt e 11 1 || numAt e 40 2 != 0 || numAt e 72 8 != 0

/-- MAGIC, FORMAT or COUNT is wrong, or a reserved field is not 0 (R11). -/
def setBad (b : List Byte) : Bool :=
  numAt b 0 4 != 0x54524843 || numAt b 4 2 != 1 || numAt b 6 2 != 16 || numAt b 16 16 != 0 ||
    (List.range 16).any fun c => entryBad c (entryBytes b c)

/-- A compartment's fixed rings among 28–31. -/
def fixedRings (c : Nat) : Nat := if c = 14 then 2 ^ 30 else if c = 15 then 2 ^ 31 else 0

/-- The rings that an entry names, as one number by ring: enabled or not. -/
def Charter.ringMask (h : Charter) : Nat :=
  h.cmdRings + 2 ^ 32 * h.cryptoRings + 2 ^ 48 * h.packetRings + 2 ^ 56 * h.eventRings + 2 ^ 62 * b2n h.logRing +
    2 ^ 63 * b2n h.captureRing

/-- Two of the masks name one ring. -/
def masksClash : List Nat → Bool
  | [] => false
  | m :: r => (r.any fun n => m &&& n != 0) || masksClash r

/-- A budget breaks Table 03.9. -/
def budgetBad (c : Nat) (h : Charter) : Bool :=
  h.enabled && (if 14 ≤ c then h.budget != 0 else h.budget < 32 || 800000 < h.budget)

/-- A charter set conflicts (R91). -/
def setConflicts (b : List Byte) : Bool :=
  let x := parseSet b
  leNat (entryBytes b 0) != 0 ||
    masksClash ((List.range 16).map fun c => (vget x.entries c).ringMask) ||
    ((List.range 15).any fun i =>
      let c := i + 1
      let h := vget x.entries c
      let fixed := h.cmdRings / 2 ^ 28 * 2 ^ 28
      (fixed != 0 && fixed != fixedRings c) || (h.enabled && 14 ≤ c && fixed != fixedRings c) || budgetBad c h) ||
    (vget x.entries 15).mayCharter

/-! The installation of a set (R91, R92). -/

/-- A charter of a set grants an opcode group. -/
def Charter.hasGroup (h : Charter) (g : Nat) : Bool := h.enabled && h.groups.testBit g

/-- CHARTER_REVOKE (Table 03.13). -/
def revokeEvent (s : State) (index kind owner : Nat) : State :=
  postEvent s (s.ev 1 0x010D index kind false owner)

/-- Disable the rules of a compartment that the new set no longer backs. -/
def revokeRules (x : CharterSet) (s : State) : State :=
  s.store.rules.foldl (fun s e =>
    let r := e.2
    let h := vget x.entries r.owner
    if r.used ∧ r.enabled ∧ r.owner ≠ 0 ∧
        (!h.hasGroup 5 ∨ !h.readG.testBit (gallery r.trig) ∨ (r.gateEn ∧ !h.readG.testBit (gallery r.gate)) ∨
          (r.writes ∧ !h.writeG.testBit (gallery r.target))) then
      let s := s.onStore fun st => { st with rules := Tbl.put st.rules {} e.1 { r with enabled := false } }
      revokeEvent (stopActions s e.1) e.1 1 r.owner
    else s) s

/-- Stop the engines of a compartment that the new set no longer backs. -/
def revokeEngines (x : CharterSet) (s : State) : State :=
  (List.range 32).foldl (fun s i =>
    match vget s.store.light.prog i with
    | some g =>
      let h := vget x.entries g.owner
      if (engineOf s i).running ∧ g.owner ≠ 0 ∧ (!h.hasGroup 4 ∨ !h.writeG.testBit (gallery g.start)) then
        revokeEvent (stopEngine s i g 1 false) i 2 g.owner
      else s
    | none => s) s

/-- Mark the templates of a compartment unusable that the new set no longer backs. -/
def revokeTemplates (x : CharterSet) (s : State) : State :=
  s.store.can.tpl.foldl (fun s e =>
    let t := e.2
    let h := vget x.entries t.owner
    if t.used ∧ !t.unusable ∧ t.owner ≠ 0 ∧ (!h.hasGroup 7 ∨ t.fields.any fun f => !h.readG.testBit (gallery f.point)) then
      let s := s.onStore fun st => { st with can := { st.can with tpl := Tbl.put st.can.tpl {} e.1 { t with unusable := true } } }
      revokeEvent s e.1 3 t.owner
    else s) s

/-- A compartment that the new set disables loses its watch grant. -/
def revokeGrants (x : CharterSet) (s : State) : State :=
  s.onStore fun st => { st with watch := { st.watch with
    grant := vmapIdx st.watch.grant fun c g => if c = 0 ∨ (vget x.entries c).enabled then g else {} } }

/-- Rings whose owner the new set changes: their unadmitted packets complete with S_DENIED, and a ring that nobody is granted any more is
disabled (R91, R71). -/
def loseRings (x : CharterSet) (s : State) : State :=
  let old := chartersInForce s
  let lost := (List.range 64).filter fun r => (ringOwner old r).isSome && ringOwner old r != ringOwner x r
  let s := (lost.filter fun r => packetRings.contains r).foldl (fun s r => endUnadmitted .denied r 4096 s) s
  (lost.filter fun r => (ringOwner x r).isNone).foldl (fun s r => setRingSize s r 0) s

/-- Install a charter set at E; where a start's set has failed, the service charter stays in force until the next start (R330). -/
def installSet (s : State) (x : CharterSet) : State :=
  let s := if s.image.bootFail = 1 then s else loseRings x s
  let s := trustWrite (s.onStore fun st => { st with charters := x, nextCharters := none })
  if s.image.bootFail = 1 then s else revokeGrants x (revokeTemplates x (revokeEngines x (revokeRules x s)))

/-- The charter set that SYS.CHARTER names. -/
def namedSet (p : Packet) (s : State) : List Byte := memReadN s (p.num 20 4) 4621

/-- SYS.CHARTER (Table 03.22). -/
def sysCharterOp : Op where
  code := 0x0106
  member := fun _ => false
  layout := fun _ => [(16, 0, 2), (20, 0, 32), (24, 0, 32)]
  bad := fun p s =>
    p.fld 16 0 2 == 3 || p.num 24 4 != 4621 || !reaches s p.comp (p.num 20 4) 4621 || setBad (namedSet p s)
  deny := fun p s => p.comp != 0 && !(charterOf s p.comp).mayCharter
  run := fun p s =>
    let b := namedSet p s
    let x := parseSet b
    if setConflicts b then { s := s, st := some .conflict }
    else if !Config.verify (slotMaterial s 6) [] (b.take 1312) (b.drop 1312) then { s := s, st := some .authFail }
    else if x.version ≤ s.store.charters.version then { s := s, st := some .rollback }
    else
      let s := match p.fld 16 0 2 with
        | 0 => installSet s x
        | 1 => trustWrite (s.onStore fun st => { st with nextCharters := some x })
        | _ => s
      { s := s, reply := [(16, 8, x.version), replyBytes 24 (Config.shake256 b)] }

/-- SYS.CHARTER. -/
def execSysCharter (p : Packet) (s : State) : Answer := effect s (keeperTake sysCharterOp p s)

end Sys2Proof.Machine
end

