-- ==== Sys2Proof/Machine/Ticks.lean ====
section
/-! DEFINITION. Ticks, landings and the internal link (chapter 01, R15–R26; chapter 02, R66–R70). -/

namespace Sys2Proof.Machine

/-! The tick. -/

/-- A dry replay stretches the tick while its reader has a record to take, or waits for one (R44). -/
def stretches (s : State) : Bool :=
  let q := s.plane.replay
  q.running && q.begun && !q.live && !q.stopRead &&
    (match nextRecord s with
     | some (r, _) => r.stamp.tick ≤ s.plane.tick
     | none => q.fromHost)

/-- The crystal stops (R17): the tick goes on from the RC reference. -/
def crystalLoss (s : State) : State :=
  if s.plane.running ∧ !s.plane.rcClock then
    postEvent (s.onPlane fun p => { p with rcClock := true, status := { p.status with clockLoss := true } }) { s.ev 3 0x0106 0 0 with stamp := s.wallStamp }
  else s

/-- The crystal stops (R17). -/
def execCrystalLoss (s : State) : Answer := effect s (crystalLoss s)

/-! Landings. -/

/-- The last tick that a hall can report to a landing now (R19, R21): that of the present observation, with the stream's offset. The tick hall has sent
everything of the ticks that it has acted on, and no later one. -/
def reportEnd (s : State) (l h : Nat) : Nat := if h = 3 then s.plane.tick else s.wallTick + streamOffset l h + 1

/-- A secure CAN frame of the epoch waits for a verdict that is due under tick `t` or an earlier one (R28). -/
def verdictHolds (s : State) (t : Nat) : Bool :=
  s.bus.can.toList.any fun x => x.verdicts.any fun v => v.stamp.epoch == s.plane.epoch && v.stamp.tick ≤ t

/-- A hall may report progress for tick `t` (R19): its stream is joined, no fault has dropped it (R26), the tick has come, and of the bus hall no
verdict under that tick is open (R28). -/
def mayReport (s : State) (l h t : Nat) : Bool :=
  s.plane.running && (landingInputs l).contains h && (vget (vget s.plane.landings l).streams h).joined && !(vget s.plane.halls h).dropped &&
    t < reportEnd s l h && !(l == 0 && h == 6 && verdictHolds s t)

/-- A producing hall reports progress up to tick `t` (R19). -/
def progressReport (s : State) (l h t : Nat) : State :=
  if mayReport s l h t then
    s.onPlane fun p => { p with landings := vmod p.landings l fun x => { x with
      streams := vmod x.streams h fun y => { y with progress := max y.progress (t + 1) } } }
  else s

/-- A progress report (R19). -/
def execProgressReport (landing hall t : Nat) (s : State) : Answer := effect s (progressReport s landing hall t)

/-- The packet at the head of a ring is admitted at the release of tick `t`: it is whole, it has arrived, and the keeper has room for one of its
own (R75, R80, R83). -/
def admitsHead (s : State) (t r : Nat) : Bool :=
  let p := ringPacket s r
  headWhole s r && (p.arrival.epoch != s.plane.epoch || p.arrival.tick ≤ t) && (isFast p.opcode || !keeperShut s p)

/-- The packets that can be admitted at the release of tick `t`: those at the heads of rings, and the next replayed one that has arrived (R43). -/
def headPackets (s : State) (t : Nat) : List Packet :=
  (packetRings.filter (admitsHead s t)).map (ringPacket s) ++ (s.plane.replay.cmdNew.filter fun p => p.arrival.tick ≤ t).take 1

/-- The first of the packets that can be admitted, by stamp and then by hall, ring and slot (R20, R35, R81). -/
def firstHead (s : State) (t : Nat) : Option Packet :=
  (headPackets s t).foldl (fun a p =>
    match a with
    | none => some p
    | some q => if keeperBefore q p then some q else some p) none

/-- The packets that L1 releases reach the dispatcher and the keeper, one after the other. -/
def releasePackets (t : Nat) : Nat → State → State
  | 0, s => s
  | n + 1, s =>
    match firstHead s t with
    | some p => releasePackets t n (holdPacket p (admitPacket p s))
    | none => s

/-- L1 releases tick `t` (R20, R81); a ring has at most 4,096 slots. -/
def releaseCommands (s : State) (t : Nat) : State := releasePackets t 135168 s

/-- L0 releases the items stamped up to tick `t` (R20), after the writes that have moved to this tick (R108). -/
def releaseSense (s : State) (t : Nat) : State :=
  let (s, l) := takeDue (deferredStep s) 0 t
  releaseList s l

/-- The keeper takes an item of H0 from L5 (R20, R21): at a supply warning the open segment closes and freshness is committed (R49, R251, R378); a wake is
posted and logged (R287). -/
def keeperItem (s : State) (it : LandItem) : State :=
  let s := if it.warn then noteWarning s else s
  match it.wake with
  | some (cause, index) => keeperWake s it.stamp cause index
  | none => s

/-- L5 releases what H0 sends the keeper (R20, R21). -/
def releaseKeeper (s : State) (t : Nat) : State :=
  let (s, l) := takeDue s 5 t
  l.foldl keeperItem s

/-- L9 releases copies to the capture unit (R20, R38); with the STOP mark a CAPTURE.STOP completes. -/
def releaseCaptures (s : State) (t : Nat) : State := finishStop (capRelease (itemDue s t) s)

/-- A landing releases the ticks up to `t`. After the device commit tick L0 and L1 release nothing more, so that STATE 0 is the last event (R279, R283). -/
def releaseTick (s : State) (l t : Nat) : State :=
  let s := s.onPlane fun p => { p with landings := vmod p.landings l fun x => { x with released := t + 1 } }
  if (l = 0 ∨ l = 1) ∧ s.sleep.darkCommit.isSome then s
  else if l = 0 then releaseSense s t
  else if l = 1 then releaseCommands s t
  else if l = 6 then releaseRecords s t
  else if l = 5 then releaseKeeper s t
  else if l = 9 then releaseCaptures s t
  else s

/-- A hall whose domain is off leaves every landing (R23). -/
def execHallLeave (h : Nat) (s : State) : Answer :=
  effect s (if s.plane.running ∧ !(vget s.plane.halls h).on then leaveLandings s h else s)

/-- A hall that runs joins its landings at a tick that is a multiple of 256, after the sync word it has verified (R23); after a fault it rejoins
in the same way (R26), H7 once its link has been retrained. -/
def hallJoin (s : State) (h : Nat) : State :=
  let x := vget s.plane.halls h
  if s.plane.running ∧ h < 9 ∧ x.on ∧ s.wallTick % 256 = 0 ∧ !(h = 7 ∧ x.dropped) then
    joinLandings (s.onHall h fun x => { x with count := s.wallTick, dropped := false }) h
  else s

/-- A hall joins its landings (R23). -/
def execHallJoin (h : Nat) (s : State) : Answer := effect s (hallJoin s h)

/-! The internal link (R66–R70). -/

/-- The power die carries out one command of a frame, of the frame's tick `lin` (R66). -/
def powerCommand (lin : Nat) (s : State) (c : Nat × PVal) : State :=
  let n := position c.1
  if gallery c.1 ≠ 80 then s
  else if n < 56 then commandChan s n c.2
  else if 100 ≤ n ∧ n < 112 then commandHb s (n - 100) c.2 lin
  else if 200 ≤ n ∧ n < 208 then commandValve s (n - 200) c.2
  else if 300 ≤ n ∧ n < 364 then commandSeg s ((n - 300) / 16) ((n - 300) % 16) c.2
  else s

/-- A valid frame (R66): the commands of the ticks that have not been applied are applied, in tick order. -/
def applyFrame (s : State) (f : L2Frame) : State :=
  let l := f.ticks.filter fun t => s.link.applied ≤ t.lin && t.lin < f.lin
  let s := { s with link := { s.link with applied := f.lin, missed := 0 } }
  l.foldl (fun s t => t.cmds.foldl (powerCommand t.lin) s) s

/-- The power die receives a frame (R66, R69). -/
def frameRx (s : State) (f : L2Frame) : State :=
  if !s.seq.core then s
  else if s.link.hold then
    if f.crcOk ∧ f.adopt ∧ f.snapshot = s.link.snapshot then acceptAdopt s f
    else { s with link := { s.link with discarded := satAdd32 s.link.discarded 1 } }
  else if s.link.synced ∧ f.crcOk ∧ f.lin = s.link.count then applyFrame s f
  else { s with link := { s.link with discarded := satAdd32 s.link.discarded 1 } }

/-- The power die receives a frame of the internal link (R66). -/
def execL2FrameRx (f : L2Frame) (s : State) : Answer := effect s (frameRx s f)

/-- The eighth consecutive tick without a valid frame (R66): the power die enters HOLD with the hold time in force. -/
def holdEntry (s : State) : State :=
  if s.seq.core ∧ s.link.synced ∧ !s.link.hold ∧ 8 ≤ s.link.missed then
    { s with link := { s.link with
        hold := true, holdFrom := s.now, holdForce := s.link.holdTime, failApplied := false, failAt := 0 } }
  else s

/-- HOLD is entered (R66). -/
def execHoldEntry (s : State) : Answer := effect s (holdEntry s)

/-- The value that a fail state commands, none for LAST (Table 05.13). -/
def failValue (f : FailState) : Option PVal :=
  if f.mode = 0 then some 0 else if f.mode = 1 then some 65535 else if f.mode = 3 then some (BitVec.ofNat 16 f.duty) else none

/-- A high-side channel takes its fail state (R68). -/
def failChan (s : State) (ch : Nat) : State :=
  match failValue (vget s.store.load.fail ch) with
  | some v => commandChan s ch v
  | none => s

/-- A string takes its fail state (R68, R183): every used segment. OFF stops the converter too. The segments outside USED are commanded alike, which shows
only where USED takes them in later or they are read back (DESIGN CHOICE, log entry 173). -/
def failString (s : State) (n : Nat) : State :=
  match failValue (vget s.store.load.fail (56 + n)) with
  | some v =>
    let s := (List.range 16).foldl (fun s k => commandSeg s n k v) s
    if (vget s.store.load.fail (56 + n)).mode = 0 then
      s.onString n fun x => { x with running := false, soft := none, stopAt := none } else s
  | none => s

/-- A half-bridge turns off (R68): its run ends. -/
def failHb (s : State) (m : Nat) : State :=
  (coastNow (cutRun s m 9) m).onHb m fun x => { x with cmd := 0 }

/-- A valve turns off (R68). -/
def failValve (s : State) (v : Nat) : State := s.onValve v fun x => { x with cmd := 0, fireSeen := false }

/-- The fail states are applied (R68): a channel that a protection has locked stays locked. -/
def applyFails (s : State) : State :=
  let s := (List.range 56).foldl failChan s
  let s := (List.range 4).foldl failString s
  let s := (List.range 12).foldl failHb s
  let s := (List.range 2).foldl (fun s f => stopFeed s f .cancelled) s
  let s := (List.range 8).foldl failValve s
  { s with link := { s.link with failApplied := true, failAt := s.now - s.link.holdFrom, snapshot := s.link.snapshot + 1 } }

/-- The hold timer expires before adoption (R68). -/
def holdExpiry (s : State) : State :=
  if s.seq.core ∧ s.link.hold ∧ !s.link.failApplied ∧ s.link.holdFrom + s.link.holdForce * 800000 ≤ s.now then applyFails s else s

/-- The hold timer expires (R68). -/
def execHoldTimerExpiry (s : State) : Answer := effect s (holdExpiry s)

/-- The internal link is retrained after a HOLD entry or a fault of H7 (R69, Table 01.5): H7 may rejoin. -/
def execInternalLinkRetrain (s : State) : Answer :=
  effect s (if s.plane.running ∧ s.seq.core ∧ (s.link.hold ∨ (vget s.plane.halls 7).dropped) then
    s.onHall 7 fun x => { x with dropped := false }
  else s)

/-- The VF points follow the feeds (R69). -/
def adoptFeeds (s : State) : State :=
  (List.range 2).foldl (fun s f =>
    let v : PVal := if (feedOf s f).on then 65535 else 0
    if pget s (pointAt 80 (210 + f)) = v then s else plainDevice s (pointAt 80 (210 + f)) v []) s

/-- Adoption without a reset of the logic die (R69, R70): values that differ from G80 are written for the keeper, the ADOPT frame carries the
current snapshot, and the power die leaves HOLD. -/
def adopt (s : State) : State :=
  if s.plane.running ∧ s.seq.core ∧ s.link.hold ∧ !s.seq.inReset then
    let ticks := holdTicks s
    let failed := s.link.failApplied
    let s := (readBack s).foldl (fun s e => if pget s e.1 = e.2 then s else adoptWrite s e.1 e.2) s
    postEndEvents (noteAdopt (leaveHold (adoptFeeds s)) ticks failed)
  else s

/-- The power die is adopted (R69). -/
def execAdoption (s : State) : Answer := effect s (adopt s)

end Sys2Proof.Machine
end

