-- ==== Sys2Proof/Machine/Watch.lean ====
section
/-! DEFINITION. The watch-room opcodes and the dump (chapter 16). -/

namespace Sys2Proof.Machine

/-- The issuers of WATCH.CONFIG and WATCH.GRANT (R394). -/
def mayWatch (s : State) (c : Nat) : Bool := c == 0 || c == 14 || (charterOf s c).mayCharter

/-- PART = 1: a dump ring. -/
def watchPart (p : Packet) : Bool := p.bit 16 0

/-- READ. -/
def watchRead (p : Packet) : Bool := p.bit 16 1

/-- The counters that WATCH.CONFIG names with their selectors (Table 16.5). -/
def watchSelectors (p : Packet) : List (Nat × Selector) :=
  (List.range (p.fld 19 0 5)).map fun i =>
    (16 * p.fld 17 0 4 + p.fld 18 0 4 + i,
      { cls := p.num (25 + 4 * i) 1, index := p.num (24 + 4 * i) 1, level := p.bit (26 + 4 * i) 0, enable := p.bit (26 + 4 * i) 1 })

/-- The settings of a dump ring that WATCH.CONFIG carries. -/
def watchDumpCfg (p : Packet) : DumpCfg :=
  { enable := p.bit 18 0, sizeLog2 := p.fld 19 0 4, window := p.num 20 2, mask := p.num 24 8 }

/-- Set a counter's selector (R388): a change clears the counter. -/
def setSelector (s : State) (e : Nat × Selector) : State :=
  if Tbl.get s.store.watch.sel {} e.1 = e.2 then s
  else
    let s := s.onWatchStore fun w => { w with sel := Tbl.put w.sel {} e.1 e.2 }
    s.onWatch fun w => { w with
      cnt := Tbl.put w.cnt 0 e.1 0, clearedAt := Tbl.put w.clearedAt 0 (256 + e.1) s.plane.lin }

/-- The reply of WATCH.CONFIG with READ = 1. -/
def watchCfgReply (p : Packet) (s : State) : Reply :=
  if watchPart p then
    let c := vget s.store.watch.dump (p.fld 17 0 1)
    [(16, 1, p.fld 16 0 2), (17, 1, p.fld 17 0 1), (18, 1, b2n c.enable), (19, 1, c.sizeLog2), (20, 2, c.window), (24, 8, c.mask)]
  else
    [(16, 1, p.fld 16 0 2), (17, 1, p.fld 17 0 4), (18, 1, p.fld 18 0 4), (19, 1, p.fld 19 0 5)] ++
      (List.range (p.fld 19 0 5)).flatMap fun i =>
        let x := Tbl.get s.store.watch.sel {} (16 * p.fld 17 0 4 + p.fld 18 0 4 + i)
        [(24 + 4 * i, 1, x.index), (25 + 4 * i, 1, x.cls), (26 + 4 * i, 1, b2n x.level + 2 * b2n x.enable)]

/-- WATCH.CONFIG (Table 16.5). -/
def watchConfigOp : Op where
  code := 0x0E00
  slotsOk := slotsIn 1 2
  layout := fun p =>
    (16, 0, 2) ::
      (if watchPart p then [(17, 0, 1), (18, 0, 1), (19, 0, 4), (20, 0, 16), (24, 0, 39)]
       else [(17, 0, 4), (18, 0, 4), (19, 0, 5)] ++ entryLayout 24 4 (p.fld 19 0 5) [(0, 0, 16), (2, 0, 2)])
  bad := fun p s =>
    if watchPart p then
      let c := watchDumpCfg p
      !watchRead p && (c.sizeLog2 < 4 || 12 < c.sizeLog2 || c.window == 0 || 10000 < c.window ||
        (p.fld 17 0 1 == 0 && 512 ≤ c.mask))
    else
      8 < p.fld 17 0 4 || p.fld 19 0 5 == 0 || (64 * p.slots - 24) / 4 < p.fld 19 0 5 || 16 < p.fld 18 0 4 + p.fld 19 0 5 ||
        (!watchRead p && (watchSelectors p).any fun e => !selectorValid s (p.fld 17 0 4) e.2)
  deny := fun p s => !mayWatch s p.comp
  run := fun p s =>
    if watchRead p then { s := s, reply := watchCfgReply p s }
    else if watchPart p then
      let i := p.fld 17 0 1
      let c := watchDumpCfg p
      let g := s.ring (60 + i)
      if 2 ^ c.sizeLog2 - 1 < dumpSlots i c.mask ∨ (g.enabled ∧ g.sizeLog2 ≠ c.sizeLog2) then { s := s, st := some .conflict }
      else { s := applyDump (s.onWatchStore fun w => { w with dump := vmod w.dump i fun _ => c }) i }
    else { s := (watchSelectors p).foldl setSelector s }

/-- WATCH.CONFIG. -/
def execWatchConfig (p : Packet) (s : State) : Answer := effect s (keeperTake watchConfigOp p s)

/-- The grant that WATCH.GRANT carries. -/
def watchGrantOf (p : Packet) : WatchGrant :=
  { halls := p.fld 18 0 9, ports := p.num 24 8, ring60 := p.bit 20 0, ring61 := p.bit 20 1 }

/-- WATCH.GRANT: the grant replaces the compartment's former one. -/
def watchGrantOp : Op where
  code := 0x0E01
  layout := fun _ => [(16, 0, 4), (18, 0, 9), (20, 0, 2), (24, 0, 39)]
  bad := fun p _ => p.fld 16 0 4 == 0
  deny := fun p s => !mayWatch s p.comp
  run := fun p s =>
    let c := p.fld 16 0 4
    let g := watchGrantOf p
    let taken := fun (f : WatchGrant → Bool) => (List.range 16).any fun d => d != c && f (vget s.store.watch.grant d)
    if (g.ring60 ∧ taken (·.ring60)) ∨ (g.ring61 ∧ taken (·.ring61)) then { s := s, st := some .conflict }
    else { s := s.onWatchStore fun w => { w with grant := vmod w.grant c fun _ => g } }

/-- WATCH.GRANT. -/
def execWatchGrant (p : Packet) (s : State) : Answer := effect s (keeperTake watchGrantOp p s)

/-- The ports that WATCH.SNAP names. -/
def snapPorts (p : Packet) : List Nat := (List.range (p.num 19 1)).map (p.num 18 1 + ·)

/-- WATCH.SNAP of a hall. -/
def snapHall (p : Packet) (s : State) : Res :=
  let h := p.num 17 1
  let x := vget s.watch.snap p.comp
  let c := Tbl.get s.watch.clearedAt 0 h
  let l1 := max c (x.hallAt.getD 0)
  let cleared : Bool := match x.hallAt with
    | some t => t < c
    | none => true
  let (body, s) := hallBlock s h
  let s := s.onWatch fun w => { w with snap := vmod w.snap p.comp fun y => { y with hallAt := some s.plane.lin } }
  { s := s
    reply := [replyBytes 16 (dumpHeader s 0 (s.plane.lin - l1) p.slots (if cleared then 2 ^ h else 0) 0 (2 ^ h) x.hallAt.isNone false),
      replyBytes 48 body] }

/-- WATCH.SNAP of port entries. -/
def snapMeters (p : Packet) (s : State) : Res :=
  let x := vget s.watch.snap p.comp
  let l1 := match x.last with
    | some (l, _) => l
    | none => 0
  let (body, s) := portEntries s x.last (snapPorts p)
  let mask := (snapPorts p).foldl (fun m n => m + 2 ^ n) 0
  let s := s.onWatch fun w => { w with
    snap := vmod w.snap p.comp fun y => { y with last := some (s.plane.lin, readMeters s) } }
  { s := s
    reply := [replyBytes 16 (dumpHeader s 0 (s.plane.lin - l1) p.slots 0 0 mask x.last.isNone false), replyBytes 48 body] }

/-- WATCH.SNAP. -/
def watchSnapOp : Op where
  code := 0x0E02
  slotsOk := slotsIn 2 16
  layout := fun _ => [(16, 0, 1), (17, 0, 8), (18, 0, 8), (19, 0, 8)]
  bad := fun p _ =>
    if p.bit 16 0 then
      p.num 19 1 == 0 || (64 * p.slots - 32) / 24 < p.num 19 1 || portCount < p.num 18 1 + p.num 19 1
    else 8 < p.num 17 1
  deny := fun p s =>
    let g := vget s.store.watch.grant p.comp
    p.comp != 0 && (if p.bit 16 0 then (snapPorts p).any fun n => !g.ports.testBit n else !g.halls.testBit (p.num 17 1))
  run := fun p s => if p.bit 16 0 then snapMeters p s else snapHall p s

/-- WATCH.SNAP. -/
def execWatchSnap (p : Packet) (s : State) : Answer := effect s (keeperTake watchSnapOp p s)

/-- A reading of a dump ring falls due (R391). -/
def execWatchDump (ring : Nat) (s : State) : Answer := effect s (watchDump s ring)

end Sys2Proof.Machine
end

