-- ==== Sys2Proof/Machine/Rings.lean ====
section
/-! DEFINITION. Doorbells, register access, the host SPI port, the keeper's admission, flights and the dispatcher (chapter 03). -/

namespace Sys2Proof.Machine

/-! Doorbells and registers. -/

/-- A doorbell of a compartment, or of pair 1 in a trial run (R339). -/
def anyDoor (s : State) (comp ring index : Nat) : State :=
  if 16 ≤ comp then shadowAccess s (comp - 16) ring fun s => shadowDoor s ring index else ringDoor s comp ring index

/-- A doorbell on a ring whose producer is software (R73). -/
def execDoorbellSubmit (comp ring index : Nat) (s : State) : Answer :=
  effect s (if deviceProduces s ring then s else anyDoor s comp ring (index % 4096))

/-- A doorbell on a ring whose producer is the device (R74). -/
def execDoorbellConsume (comp ring index : Nat) (s : State) : Answer :=
  effect s (if deviceProduces s ring then anyDoor s comp ring (index % 4096) else s)

/-- A write of SIZE_LOG2 (R413). -/
def execRingSizeWrite (comp ring size : Nat) (s : State) : Answer := 
  effect s (if 16 ≤ comp then shadowAccess s (comp - 16) ring fun s => shadowSize s ring (size % 16) else ringSize s comp ring (size % 16))

/-- A read of byte 0x08 of TICK_NOW (Table 03.3). -/
def execTickNowRead (_comp : Nat) (s : State) : Answer := effect s (latchTick s)

/-- A write of a register (R13, Tables 03.2 and 03.3). -/
def execRegisterWrite (comp addr value : Nat) (s : State) : Answer := effect s (busWrite s comp addr value)

/-! The host SPI port (R93). -/

/-- Frames reach the device: VIO stands, and it is neither Dark nor Buoy nor in a reset (R403, R404). -/
def spiUp (s : State) : Bool :=
  s.pins.vio && s.plane.running && !s.seq.inReset && (s.seq.state == .lantern || s.seq.state == .beam)

/-- An address range lies in the device status block. -/
def inStatus (addr len : Nat) : Bool := statusBase ≤ addr && addr + len ≤ statusBase + 64

/-- Where the array of a dump ring appears to its grantee (R394). -/
def dumpWindow (r : Nat) : Nat := if r = 60 then 0x45000000 else 0x45040000

/-- A byte lies in the C14 window (R93, R394). -/
def inHostWindow (s : State) (a : Nat) : Bool :=
  (statusBase ≤ a && a < statusBase + 64) || (keeperBase ≤ a && a < hostEnd) ||
    (blockBase ≤ a && a < blockBase + 0x1000 && (let r := (a - blockBase) / 64; ownsRing s 14 r || dumpGrantee s r == some 14)) ||
    [60, 61].any fun r => dumpGrantee s r == some 14 && dumpWindow r ≤ a && a < dumpWindow r + 64 * (s.ring r).size

/-- Every 64-byte block that a range of words touches lies in the C14 window: its regions are made of such blocks. -/
def rangeInWindow (s : State) (addr len : Nat) : Bool :=
  (List.range ((addr % 64 + len + 63) / 64)).all fun i => inHostWindow s ((addr / 64 + i) * 64)

/-- The header of a frame is malformed (R93). -/
def spiBadHeader (f : SpiFrame) : Bool :=
  f.length < 4 || 4096 < f.length || f.length % 4 != 0 || f.addr % 4 != 0 || f.byte7 != 0

/-- ACK after the CRC check (R93). -/
def spiAck (s : State) (f : SpiFrame) : Nat :=
  if spiBadHeader f then 4
  else if !s.seq.ready ∧ !inStatus f.addr f.length then 3
  else if !rangeInWindow s f.addr f.length then 2
  else 0

/-- Bytes 0–7 of a frame (Table 03.10). -/
def spiHeader (f : SpiFrame) : List Byte :=
  leBytes 1 f.cmd ++ beBytes 4 f.addr ++ beBytes 2 f.length ++ leBytes 1 f.byte7

/-- Note what the device drives in a frame, the frame's bytes (R389), and a frame outside the window (Table 16.1). -/
def spiNote (s : State) (ack rx : Nat) (out : List Byte) : State :=
  let s := if ack = 2 then bump s 0x0C 0 1 else s
  let s := meterAdd s 38 (8 * rx) (8 * out.length)
  { s with pins := { s.pins with spiOut := out } }

/-- Write the words of a frame in ascending order: registers, or bytes of the host buffer; a dump ring's array is only read. -/
def spiStore (s : State) (addr : Nat) : List Byte → State
  | a :: b :: c :: d :: r =>
    let s := if keeperBase ≤ addr ∧ addr < hostEnd then memWriteN s addr [a, b, c, d]
      else busWrite s 14 addr (leNat [a, b, c, d])
    spiStore s (addr + 4) r
  | _ => s

/-- A write frame (R93). -/
def spiWrite (s : State) (f : SpiFrame) : State :=
  if !spiUp s then s
  else if f.cmd ≠ 2 then { s with pins := { s.pins with spiOut := [] } }
  else
    let data := padTo f.length f.data
    let ack := if f.crc ≠ crc16 (spiHeader f ++ data) then 1 else spiAck s f
    let s := if ack = 0 then spiStore s f.addr data else s
    spiNote s ack (10 + f.length) (leBytes 1 ack)

/-- A host SPI write frame (R93). -/
def execHostSpiWrite (f : SpiFrame) (s : State) : Answer := effect s (spiWrite s f)

/-- One word as C14 reads it (R93, R394). -/
def spiWord (s : State) (a : Nat) : List Byte :=
  if keeperBase ≤ a ∧ a < hostEnd then memReadN s a 4
  else if statusBase ≤ a ∧ a < statusBase + 64 then leBytes 4 (readStatus s (a - statusBase))
  else if blockBase ≤ a ∧ a < blockBase + 0x1000 then leBytes 4 (readBlock s 14 ((a - blockBase) / 64) ((a - blockBase) % 64))
  else
    let r := if dumpWindow 61 ≤ a then 61 else 60
    memReadN s ((s.ring r).base + (a - dumpWindow r)) 4

/-- The words of a read frame in ascending order; a read of TICK_NOW latches its upper bytes on the way (Table 03.3). -/
def spiLoad (s : State) (addr : Nat) : Nat → List Byte × State
  | 0 => ([], s)
  | n + 1 =>
    let w := spiWord s addr
    let s := if addr = statusBase + 8 then latchTick s else s
    let (l, s) := spiLoad s (addr + 4) n
    (w ++ l, s)

/-- A read frame (R93): ACK, DATA and the CRC of the device. -/
def spiRead (s : State) (f : SpiFrame) : State :=
  if !spiUp s then s
  else if f.cmd ≠ 0x0B then { s with pins := { s.pins with spiOut := [] } }
  else
    let ack := spiAck s f
    let (data, s) := if ack = 0 then spiLoad s f.addr (f.length / 4) else (List.replicate f.length 0, s)
    spiNote s ack 8 (leBytes 1 ack ++ data ++ beBytes 2 (crc16 (spiHeader f ++ data)))

/-- A host SPI read frame (R93). -/
def execHostSpiRead (f : SpiFrame) (s : State) : Answer := effect s (spiRead s f)

/-! Opcodes by code. -/

/-- The opcodes of groups 0x01–0x04 (Table 03.14). -/
def opsLow : List Op :=
  [sysNopOp, sysTickOp, sysInfoOp, sysStateOp, sysResetOp, sysConfigOp, sysCharterOp, loadSetOp, loadConfigOp, loadDiagOp, loadUnlockOp,
    loadFailstateOp, loadShedOp, motorRunOp, motorConfigOp, motorPosOp, valveFireOp, valveProgOp, valveConfigOp, valveTraceOp,
    pointWriteOp, pointReadOp, pointTypeOp, stringConfigOp, patternLoadOp, patternRunOp, ivgalEnumOp, ivgalConfigOp, ivgalDiagOp]

/-- The opcodes of groups 0x05–0x0A (Table 03.14). -/
def opsMid : List Op :=
  [reflexLoadOp, reflexEnableOp, reflexStatsOp, inputConfigOp, fieldConfigOp, fieldStatusOp, canConfigOp, canFilterOp, canSendOp,
    canCancelOp, canStatusOp, canSigmapOp, linConfigOp, linScheduleOp, linSendOp, ethConfigOp, ethSecureOp, ethStatusOp, ethTimeOp,
    nmConfigOp, nmRequestOp, nmReleaseOp, nmStatusOp, xcvrStateOp, keyWriteOp, keyEraseOp, keyInfoOp, keyDeriveOp, keyUnwrapOp, signOp,
    verifyOp, hashOp]

/-- The opcodes of groups 0x0B–0x0F (Table 03.14). -/
def opsHigh : List Op :=
  [imageBeginOp, imageDataOp, imageEndOp, imageTrialOp, imageCommitOp, imageRevertOp, attestOp, debugUnlockOp, tokenEnrollOp,
    tokenRevokeOp, tokenListOp, accessConfigOp, accessPollOp, accessStatusOp, releaseConfigOp, logAppendOp, logReadOp, logExportAckOp,
    logSealOp, timeSetOp, timeGetOp, watchConfigOp, watchGrantOp, watchSnapOp, captureStartOp, captureStopOp, replayRunOp]

/-- The opcode of a code (Table 03.14). -/
def opOf (code : Nat) : Option Op := (opsLow ++ opsMid ++ opsHigh).find? fun o => o.code == code

/-- What stands in for a code that Table 03.14 does not list: it completes with S_BADOP (R98). -/
def unlistedOp (code : Nat) : Op where
  code := code
  listed := false
  run := fun _ s => { s := s, st := some .badop }

/-- A packet with an unlisted opcode (R98). -/
def execUnknownOpcode (p : Packet) (s : State) : Answer :=
  effect s (if (opOf p.opcode).isSome then s else keeperTake (unlistedOp p.opcode) p s)

/-! The keeper's admission and the dispatcher. -/

/-- The keeper admits the packet at the head of a ring, the first of its inputs, once it holds fewer than 256 (R35, R83). -/
def keeperAdmission (s : State) (r : Nat) : State :=
  let p := ringPacket s r
  if packetRings.contains r ∧ !isFast p.opcode ∧ mayAdmit p s then holdPacket p (admitPacket p s) else s

/-- The keeper admits a packet (R83). -/
def execKeeperAdmission (ring : Nat) (s : State) : Answer := effect s (keeperAdmission s ring)

/-- A waiting packet is due, and no overflow has moved it before. -/
def movesOn (s : State) (w : Waiting) : Bool := !w.moved && decide (readyTick w.p s ≤ s.plane.tick)

/-- Fast packets that are due beyond the eighth of a tick move to the following ticks (R82). -/
def dispatcherOverflow (s : State) : State :=
  if s.plane.execNow < 8 then s
  else
    let moves := movesOn s
    (bump s 5 1 (s.plane.waiting.filter moves).length).onPlane fun q => { q with
      waiting := q.waiting.map fun w => if moves w then { w with moved := true } else w }

/-- More than eight packets fall due in a tick (R82). -/
def execDispatcherOverflow (s : State) : Answer := effect s (dispatcherOverflow s)

/-! Flights (R84–R88). -/

/-- Remove flight `f` from its ring. -/
def endFlight (s : State) (r : Nat) (f : Flight) : State := s.onRing r fun g => { g with flights := g.flights.erase f }

/-- Complete the members of a flight that has been carried out (R86): late where E has passed. -/
def completeMembers (late : Nat) : List (Packet × Status × Reply) → State → State
  | [], s => s
  | (p, st, reply) :: r, s =>
    let s := completeNow s p (lateStatus (0 < late) st) reply
    completeMembers late r (if 0 < late then noteLate s p late else s)

/-- Reject a flight (R87, R88): every member carries `st`, but for member `k`, which carries its own status. A rejected packet is never late. -/
def rejectFlight (s : State) (r : Nat) (f : Flight) (fail : Nat) (failSt : Status) (st : Nat → Status) : State :=
  completeMembers 0 ((f.members.zipIdx).map fun m => (m.1, st m.2, failReply fail failSt)) (endFlight s r f)

/-- A member as R85 sees it: with the arrival of the flight. -/
def flightPacket (f : Flight) (p : Packet) : Packet := { p with arrival := f.endArrival }

/-- Steps 1–5 for member `i` of a flight (R84, R85): the same AT_TICK and EXEC_TICK in every member, at most 32 members and 256 slots. -/
def memberStatus (s : State) (f : Flight) (i : Nat) (p : Packet) : Option Status :=
  let q := flightPacket f p
  let first := f.members.headD p
  let fits := fitsRing p s
  if headerBad fits q then some .badarg
  else if p.execWord ≠ first.execWord ∨ 32 ≤ i ∨ 256 < ((f.members.take (i + 1)).map (·.slots)).sum then some .badop
  else checkWith fits ((opOf p.opcode).getD (unlistedOp p.opcode)) q (judged p s)

/-- The first member that fails steps 1–5. -/
def firstFailure (s : State) (f : Flight) : Option (Nat × Status) :=
  (f.members.zipIdx).findSome? fun m => (memberStatus s f m.2 m.1).map fun st => (m.2, st)

/-- The combined end state that the members of a flight ask for (R85), none where one leaves a conflict that it cannot mend. -/
def flightEnd (f : Flight) : List Packet → State → Option State
  | [], s => some s
  | p :: r, s =>
    let x := ((opOf p.opcode).getD (unlistedOp p.opcode)).run (flightPacket f p) s
    if x.st = some .conflict then none else flightEnd f r x.s

/-- What carrying out the members of a flight in order gives: the state with the statuses and replies. A member that goes on completes later. -/
def foldFlight (f : Flight) : List Packet → State → List (Packet × Status × Reply) → State × List (Packet × Status × Reply)
  | [], s, done => (s, done.reverse)
  | p :: r, s, done =>
    let x := carryOut ((opOf p.opcode).getD (unlistedOp p.opcode)) (flightPacket f p) s
    match x.st with
    | some st => foldFlight f r x.s ((p, st, x.reply) :: done)
    | none => foldFlight f r x.s done

/-- The combined end state of a flight leaves the agreeing pairs of every member in agreement (R85). -/
def flightAgrees (f : Flight) (s s' : State) : Bool :=
  f.members.all fun p => match opOf p.opcode with
    | some o => o.agree (flightPacket f p) s s'
    | none => true

/-- A complete flight takes effect (R85–R87): it is applied whole, or rejected whole. What is stamped before it sees the settings of before (R86). -/
def applyFlight (s : State) (r : Nat) (f : Flight) : State :=
  match firstFailure s f with
  | some (k, st) => rejectFlight s r f k st fun i => if i = k then st else .conflict
  | none =>
    if (flightEnd f f.members s).any (flightAgrees f s) then
      let (s', done) := foldFlight f f.members (keepSettings s) []
      completeMembers (s.plane.tick - flightDue s f) done (endFlight s' r f)
    else rejectFlight s r f 0xFF .conflict fun _ => .conflict

/-- The rings that a hall stamps, in order. -/
def ringsOf (s : State) (h : Nat) : List Nat := packetRings.filter fun r => ringHall s r == h

/-- The rings that carry packets, in the order of R81. -/
def turnRings (s : State) : List Nat := ringsOf s 1 ++ ringsOf s 2

/-- A complete flight of a ring is due in this very tick, and the keeper has not finished it yet. -/
def awaitsFlight (s : State) (r : Nat) : Bool :=
  (s.ring r).flights.any fun f => f.complete && !f.finished && flightDue s f == s.plane.tick

/-- The finished flights of a ring that are due take effect. -/
def applyRing (s : State) (r : Nat) : State :=
  ((s.ring r).flights.filter (flightReady s)).foldl (fun s f => applyFlight s r f) s

/-- The finished flights that are due take effect in the order of R81, up to a ring whose flight of this tick the keeper still works on. -/
def applyFrom : List Nat → State → State
  | [], s => s
  | r :: l, s =>
    let s := applyRing s r
    if awaitsFlight s r then s else applyFrom l s

/-- The finished flights that are due take effect at the start of the tick (R86). -/
def applyFlights (s : State) : State := applyFrom (turnRings s) s

/-- The oldest flight of a ring that fulfils a condition. -/
def findFlight (s : State) (r : Nat) (c : Flight → Bool) : Option Flight := (s.ring r).flights.find? c

/-- The keeper has finished its work on the oldest complete flight of a ring. -/
def finishFlight (s : State) (r : Nat) : State :=
  match findFlight s r fun f => f.complete && !f.finished with
  | some f => s.onRing r fun g => { g with flights := g.flights.map fun x => if x = f then { x with finished := true } else x }
  | none => s

/-- The keeper has finished a flight (R86): it takes effect at the start of tick E, or of the first tick after it is finished. -/
def flightApply (s : State) (r : Nat) : State :=
  let s := finishFlight s r
  if freshTick s then applyFlights s else s

/-- A flight takes effect at E (R86). -/
def execFlightApply (ring : Nat) (s : State) : Answer := effect s (flightApply s ring)

/-- The first member of an open flight arrived 80,000 ticks ago (R88). -/
def flightExpired (s : State) (f : Flight) : Bool :=
  f.isOpen && (match f.members with
    | p :: _ => p.arrival.epoch != s.plane.epoch || p.arrival.tick + 80000 ≤ s.plane.tick
    | [] => false)

/-- A flight whose FLIGHT_END has not arrived in time is rejected (R88). -/
def flightTimeout (s : State) (r : Nat) : State :=
  match findFlight s r (flightExpired s) with
  | some f => rejectFlight s r f 0xFD .timeout fun _ => .timeout
  | none => s

/-- The FLIGHT_END of an open flight has not come within 80,000 ticks (R88). -/
def execFlightTimeout (ring : Nat) (s : State) : Answer := effect s (flightTimeout s ring)

/-- The packet at the head of a ring interrupts its open flight, if it has FLIGHT = 0 (R88). -/
def interruptHead (s : State) (r : Nat) : State := if headWhole s r then interruptFlight (ringPacket s r) s else s

/-- An interrupted flight is rejected at the tick of R88. -/
def flightInterrupted (s : State) (r : Nat) : State :=
  let s := interruptHead s r
  match findFlight s r fun f => f.interrupted.isSome && flightDue s f ≤ s.plane.tick with
  | some f => rejectFlight s r f 0xFE .badarg fun _ => .badarg
  | none => s

/-- A packet with FLIGHT = 0 has followed an open flight (R88). -/
def execFlightInterrupted (ring : Nat) (s : State) : Answer := effect s (flightInterrupted s ring)

end Sys2Proof.Machine
end

