-- ==== Sys2Proof/Machine/TickEnd.lean ====
section
/-! DEFINITION. The work of a tick in its order (R20, R81, R86, R108, R114): what the tick's own commands have not done before it ends, the
releases of landings, and what ends an epoch. -/

namespace Sys2Proof.Machine

/-! Releases. -/

/-- How many ticks a landing can release now (R20): all that have passed and that every joined stream has reported. -/
def readyEnd (s : State) (l : Nat) : Nat :=
  ((landingInputs l).map fun h =>
    let x := vget (vget s.plane.landings l).streams h
    if x.joined then x.progress else s.wallTick).foldl min s.wallTick

/-- A landing behind the output stage releases what it can. -/
def releaseReady (s : State) (l : Nat) : State :=
  let n := readyEnd s l
  if (vget s.plane.landings l).released < n then releaseTick s l (n - 1) else s

/-- The nominal releases of L0 and L1 (R24): of everything stamped before the tick that is acted on. -/
def releaseNominal (s : State) (l : Nat) : State :=
  if (vget s.plane.landings l).released < s.plane.tick then releaseTick s l (s.plane.tick - 1) else s

/-- The releases of the tick. -/
def releases (s : State) : State := ([2, 3, 4, 5, 6, 7, 8, 9] : List Nat).foldl releaseReady (releaseNominal (releaseNominal s 0) 1)

/-! Packets. -/

/-- Put a packet into a list that stands in the order of R81. -/
def insertTurn (p : Packet) : List Packet → List Packet
  | [] => [p]
  | q :: r => if runKey p < runKey q then p :: q :: r else q :: insertTurn p r

/-- The packets that take effect in the tick and whose turn has not passed, in the order of R81: of the keeper's those that it has finished. -/
def turnList (s : State) : List Packet :=
  ((duePackets s).filter fun p => s.plane.turn < runKey p && (isFast p.opcode || isFinished s p)).foldl (fun l p => insertTurn p l) []

/-- The sets of the time that the keeper has finished take effect at the start of the tick, before everything else, in the order of R81 (R374). -/
def applySets (s : State) : State :=
  if freshTick s then
    (turnList s).foldl (fun s p => if isTimeSet p ∧ isHeld s p then keeperExecute timeSetOp p s else s) s
  else s

/-- What takes effect at the start of a tick: sets of the time, then flights (R86, R374). -/
def startWork (s : State) : State := applyFlights (applySets s)

/-- A packet whose turn has come takes effect; of the fast ones eight in a tick (R82). -/
def runTurn (s : State) (p : Packet) : State :=
  if !isHeld s p then s
  else
    match opOf p.opcode with
    | none => keeperExecute (unlistedOp p.opcode) p s
    | some o => if !o.fast then keeperExecute o p s else if 8 ≤ s.plane.execNow then moveFast p s else fastExecute o p s

/-- Every packet that is due takes effect (R81, R82). -/
def runTurns (s : State) : State := (turnList s).foldl runTurn s

/-- Flights that have waited too long, and interrupted flights whose tick has come, are rejected (R88). -/
def endFlights (s : State) : State := (turnRings s).foldl (fun s r => flightInterrupted (flightTimeout s r) r) s

/-! The end of the tick. -/

/-- A trial whose pair 1 has left its windows ends in that tick (R339, Table 13.8). -/
def endFaulted (s : State) : State := if trialRuns s ∧ s.image.trial.fault then endTrial s 6 else s

/-- What is left of the work of the tick that the tick hall acts on: flights (R86), the releases (R20), the reflex engine, packets (R81), patterns
(R186), timers (R112), packets whose writes have moved (R108), the replies of POINT.READ (R114), a CHECKPOINT mark that is due (R38), a trial that has left its windows (R339), a release without a key (R363), and the segment that closes (R378). -/
def endWork (s : State) : State :=
  sealTick (endRelease (endFaulted (answerReads (settleLates (timerSteps (patternUpdates (runTurns (endFlights (reflexTick (releases (captureCheckpoint (startWork s))))))))))))

/-- The tick that is acted on is worked through, unless an input of L0 or L1 lags for it (R24, R34). -/
def finishTick (s : State) : State := if s.plane.running ∧ unlagged s then endWork s else s

/-- One tick of a device whose clock is not stretched: the tick's work ends, every count advances, and flights take effect at the start of the next
one. After its last tick an epoch rolls over (R18). -/
def tickOn (s : State) : State :=
  let s := finishTick s
  if s.plane.running ∧ 2 ^ 48 - 1 ≤ s.wallTick then startWork (startEpoch (lastTick s))
  else
    let s := tickStep s
    if s.plane.running ∧ unlagged s then startWork s else s

/-- One tick (R15, R44). -/
def tick (s : State) : State :=
  lfTick (if stretches s then diesTick (s.onReplay fun q => { q with stretched := q.stretched + 1 }) else tickOn s)

/-- A tick ends and the next begins (R15, R16). -/
def execTick (s : State) : Answer := effect s (tick s)

/-- The tick hall ends the tick it acts on before its time and goes on with the next one, which it has already generated (R25, R34): both
landings have released what the tick needs, and can release it in its turn. -/
def catchesUp (s : State) (t : Nat) : Bool :=
  t == s.plane.tick && 0 < s.plane.held && t ≤ (vget s.plane.landings 0).released && t ≤ (vget s.plane.landings 1).released &&
    landingReady s 0 t && landingReady s 1 t

/-- The tick hall ends the tick it acts on and goes on with one that it has generated before (R25, R34). -/
def catchUp (s : State) : State :=
  let s := runResets (settleTick (endWork s))
  if s.plane.running then startWork ((actNext s).onPlane fun p => { p with held := p.held - 1 }) else s

/-- A landing releases tick `t`, once every joined stream has reported it and the tick has passed (R20, R24). L0 and L1 release a tick that the
tick hall has still to act on once it can go on to the one after it. -/
def landingRelease (s : State) (l t : Nat) : State :=
  if s.plane.running ∧ l < 10 ∧ t = (vget s.plane.landings l).released ∧ t < s.wallTick ∧ landingReady s l t then
    if 2 ≤ l ∨ t < s.plane.tick then releaseTick s l t
    else if catchesUp s t then
      let s := catchUp s
      if s.plane.running then releaseTick s l t else s
    else s
  else s

/-- A landing releases the events of a tick (R20). -/
def execLandingRelease (landing t : Nat) (s : State) : Answer := effect s (landingRelease s landing t)

/-! What ends an epoch: the tick before it is worked through first. -/

/-- Beam is entered (R18). -/
def execBeamEntry (s : State) : Answer := effect s (if beamDue s then beamEntry (finishTick s) else s)

/-- The last tick of an epoch has passed (R18): the state of the device does not change. -/
def epochRollover (s : State) : State :=
  if s.plane.running ∧ 2 ^ 48 - 1 ≤ s.wallTick then startWork (startEpoch (lastTick (finishTick s))) else s

/-- The tick count of an epoch would pass its last value (R18). -/
def execEpochRollover (s : State) : Answer := effect s (epochRollover s)

/-- Buoy, Lantern or Beam is entered (R279). -/
def execStateEntry (target : Nat) (s : State) : Answer :=
  effect s (stateEntry (if target = 3 ∧ beamDue s then finishTick s else s) target)

/-- The replay reads a record (R42, R43). -/
def execReplayRecordRead (s : State) : Answer := effect s (readRecord (if endsEpoch s then finishTick s else s))

/-- A replay ends (R45). -/
def execReplayEnd (s : State) : Answer := effect s (if replayDone s then endReplay (finishTick s) .ok else s)

end Sys2Proof.Machine
end

