-- ==== Sys2Proof/Machine/Dispatch.lean ====
section
/-! DEFINITION. One arm for each command: the meaning it calls. -/

namespace Sys2Proof.Machine

/-- The effect of a command on everything but the queue. -/
def exec (i : Instr) (s : State) : Host.Outcome State Fault Refusal :=
  match i with
  | .tick => Sys2Proof.Machine.execTick s
  | .hallTokenMismatch hall => Sys2Proof.Machine.execHallTokenMismatch hall s
  | .crystalLoss => Sys2Proof.Machine.execCrystalLoss s
  | .beamEntry => Sys2Proof.Machine.execBeamEntry s
  | .epochRollover => Sys2Proof.Machine.execEpochRollover s
  | .landingRelease landing t => Sys2Proof.Machine.execLandingRelease landing t s
  | .progressReport landing hall t => Sys2Proof.Machine.execProgressReport landing hall t s
  | .hallLagFault hall => Sys2Proof.Machine.execHallLagFault hall s
  | .hallLeave hall => Sys2Proof.Machine.execHallLeave hall s
  | .hallJoin hall => Sys2Proof.Machine.execHallJoin hall s
  | .barrierFrameRx crcOk => Sys2Proof.Machine.execBarrierFrameRx crcOk s
  | .barrierWindowMiss window => Sys2Proof.Machine.execBarrierWindowMiss window s
  | .secureCanVerdict c => Sys2Proof.Machine.execSecureCanVerdict c s
  | .captureCheckpoint => Sys2Proof.Machine.execCaptureCheckpoint s
  | .captureStart p => Sys2Proof.Machine.execCaptureStart p s
  | .captureStop p => Sys2Proof.Machine.execCaptureStop p s
  | .replayRun p => Sys2Proof.Machine.execReplayRun p s
  | .replayRecordRead => Sys2Proof.Machine.execReplayRecordRead s
  | .replayReaderLag lag => Sys2Proof.Machine.execReplayReaderLag lag s
  | .replayEnd => Sys2Proof.Machine.execReplayEnd s
  | .firstPowerUp mv => Sys2Proof.Machine.execFirstPowerUp mv s
  | .vbatlBelowWarn mv => Sys2Proof.Machine.execVbatlBelowWarn mv s
  | .vbatlAboveWarn mv => Sys2Proof.Machine.execVbatlAboveWarn mv s
  | .vbatlLogicReset mv => Sys2Proof.Machine.execVbatlLogicReset mv s
  | .logicResetRelease mv => Sys2Proof.Machine.execLogicResetRelease mv s
  | .vbatlColdReset mv => Sys2Proof.Machine.execVbatlColdReset mv s
  | .powerDieStart mv => Sys2Proof.Machine.execPowerDieStart mv s
  | .resetNLow ns => Sys2Proof.Machine.execResetNLow ns s
  | .keeperLockstepMismatch => Sys2Proof.Machine.execKeeperLockstepMismatch s
  | .keeperWatchdog => Sys2Proof.Machine.execKeeperWatchdog s
  | .pairLockstepMismatch pair => Sys2Proof.Machine.execPairLockstepMismatch pair s
  | .logicRestart => Sys2Proof.Machine.execLogicRestart s
  | .l2FrameRx f => Sys2Proof.Machine.execL2FrameRx f s
  | .holdEntry => Sys2Proof.Machine.execHoldEntry s
  | .holdTimerExpiry => Sys2Proof.Machine.execHoldTimerExpiry s
  | .internalLinkRetrain => Sys2Proof.Machine.execInternalLinkRetrain s
  | .adoption => Sys2Proof.Machine.execAdoption s
  | .bankBelowWarn b mv => Sys2Proof.Machine.execBankBelowWarn b mv s
  | .bankWarnRecovery b mv => Sys2Proof.Machine.execBankWarnRecovery b mv s
  | .shedCountExpiry b level mv => Sys2Proof.Machine.execShedCountExpiry b level mv s
  | .shedRecovery b level mv => Sys2Proof.Machine.execShedRecovery b level mv s
  | .bankDropout b mv => Sys2Proof.Machine.execBankDropout b mv s
  | .dropoutRecovery b mv => Sys2Proof.Machine.execDropoutRecovery b mv s
  | .bankOvervolt b mv => Sys2Proof.Machine.execBankOvervolt b mv s
  | .overvoltRecovery b mv => Sys2Proof.Machine.execOvervoltRecovery b mv s
  | .diagnosisLimit b mv => Sys2Proof.Machine.execDiagnosisLimit b mv s
  | .resumeQueueStep b => Sys2Proof.Machine.execResumeQueueStep b s
  | .bankDip b mv => Sys2Proof.Machine.execBankDip b mv s
  | .hardShort x => Sys2Proof.Machine.execHardShort x s
  | .overloadCountExpiry x => Sys2Proof.Machine.execOverloadCountExpiry x s
  | .inrushWindowEnd ch limiting mA => Sys2Proof.Machine.execInrushWindowEnd ch limiting mA s
  | .retryTimerExpiry ch => Sys2Proof.Machine.execRetryTimerExpiry ch s
  | .clampEventEnd o uJ => Sys2Proof.Machine.execClampEventEnd o uJ s
  | .wireModelUpdate ch mA avgMa => Sys2Proof.Machine.execWireModelUpdate ch mA avgMa s
  | .thermalShutdown o => Sys2Proof.Machine.execThermalShutdown o s
  | .thermalRestart o => Sys2Proof.Machine.execThermalRestart o s
  | .restartCountReset o => Sys2Proof.Machine.execRestartCountReset o s
  | .thermalManagerCut th mW mA => Sys2Proof.Machine.execThermalManagerCut th mW mA s
  | .thermalManagerReturn th => Sys2Proof.Machine.execThermalManagerReturn th s
  | .onStateOpenCheck ch uA => Sys2Proof.Machine.execOnStateOpenCheck ch uA s
  | .offStateCheck ch aboveOl aboveBf belowEnd => Sys2Proof.Machine.execOffStateCheck ch aboveOl aboveBf belowEnd s
  | .stretchPhase ch uA => Sys2Proof.Machine.execStretchPhase ch uA s
  | .backfeedCheck ch aboveBf belowEnd => Sys2Proof.Machine.execBackfeedCheck ch aboveBf belowEnd s
  | .reverseCurrent ch => Sys2Proof.Machine.execReverseCurrent ch s
  | .reverseEnd ch => Sys2Proof.Machine.execReverseEnd ch s
  | .hbFault hb cause detail active => Sys2Proof.Machine.execHbFault hb cause detail active s
  | .motorBrakeEnd m => Sys2Proof.Machine.execMotorBrakeEnd m s
  | .motorGroupStart b => Sys2Proof.Machine.execMotorGroupStart b s
  | .motorStall x => Sys2Proof.Machine.execMotorStall x s
  | .runMaxExpiry m => Sys2Proof.Machine.execRunMaxExpiry m s
  | .runEndCondition m => Sys2Proof.Machine.execRunEndCondition m s
  | .rippleCount m mean peak => Sys2Proof.Machine.execRippleCount m mean peak s
  | .rippleInsert m => Sys2Proof.Machine.execRippleInsert m s
  | .pinchDetect m mA => Sys2Proof.Machine.execPinchDetect m mA s
  | .pinchReversalStart m => Sys2Proof.Machine.execPinchReversalStart m s
  | .pinchReversalEnd m runs => Sys2Proof.Machine.execPinchReversalEnd m runs s
  | .valveGrant f => Sys2Proof.Machine.execValveGrant f s
  | .valveProgramStart v => Sys2Proof.Machine.execValveProgramStart v s
  | .deferMaxExpiry v => Sys2Proof.Machine.execDeferMaxExpiry v s
  | .valveInstruction v mA => Sys2Proof.Machine.execValveInstruction v mA s
  | .valveWaitEnd v mA => Sys2Proof.Machine.execValveWaitEnd v mA s
  | .valveDipDetect v mA => Sys2Proof.Machine.execValveDipDetect v mA s
  | .fireMaxExpiry v => Sys2Proof.Machine.execFireMaxExpiry v s
  | .valveDecayEnd v mA energy => Sys2Proof.Machine.execValveDecayEnd v mA energy s
  | .valveOutputFault o cause detail active => Sys2Proof.Machine.execValveOutputFault o cause detail active s
  | .stringSoftStartEnd n mA => Sys2Proof.Machine.execStringSoftStartEnd n mA s
  | .stringConverterStop n => Sys2Proof.Machine.execStringConverterStop n s
  | .stringFault n cause detail active => Sys2Proof.Machine.execStringFault n cause detail active s
  | .patternUpdate e => Sys2Proof.Machine.execPatternUpdate e s
  | .patternWriteDeferred => Sys2Proof.Machine.execPatternWriteDeferred s
  | .pointWriteDeferred => Sys2Proof.Machine.execPointWriteDeferred s
  | .reflexEvaluate => Sys2Proof.Machine.execReflexEvaluate s
  | .reflexActionDeferred => Sys2Proof.Machine.execReflexActionDeferred s
  | .pulseEnd pt => Sys2Proof.Machine.execPulseEnd pt s
  | .rampStep pt => Sys2Proof.Machine.execRampStep pt s
  | .timerExpiry pt => Sys2Proof.Machine.execTimerExpiry pt s
  | .siFilterChange n mv => Sys2Proof.Machine.execSiFilterChange n mv s
  | .aiConversionResult n mv => Sys2Proof.Machine.execAiConversionResult n mv s
  | .cyclicSense x => Sys2Proof.Machine.execCyclicSense x s
  | .tickHallInputReload => Sys2Proof.Machine.execTickHallInputReload s
  | .fieldSupplyChange k mv => Sys2Proof.Machine.execFieldSupplyChange k mv s
  | .fieldDieStop => Sys2Proof.Machine.execFieldDieStop s
  | .fieldDiePowerUp => Sys2Proof.Machine.execFieldDiePowerUp s
  | .fieldInputChange n mv => Sys2Proof.Machine.execFieldInputChange n mv s
  | .fieldFrameRx crcOk => Sys2Proof.Machine.execFieldFrameRx crcOk s
  | .fieldLinkLost => Sys2Proof.Machine.execFieldLinkLost s
  | .fieldLinkRecover => Sys2Proof.Machine.execFieldLinkRecover s
  | .fieldReconfigure => Sys2Proof.Machine.execFieldReconfigure s
  | .fieldPark => Sys2Proof.Machine.execFieldPark s
  | .fieldOutputFault n cause readings active => Sys2Proof.Machine.execFieldOutputFault n cause readings active s
  | .canFrameAccept c f => Sys2Proof.Machine.execCanFrameAccept c f s
  | .signalTimeout d => Sys2Proof.Machine.execSignalTimeout d s
  | .frameHandover sof => Sys2Proof.Machine.execFrameHandover sof s
  | .secureTxTagReady c => Sys2Proof.Machine.execSecureTxTagReady c s
  | .canTxEnd c x => Sys2Proof.Machine.execCanTxEnd c x s
  | .canClash x => Sys2Proof.Machine.execCanClash x s
  | .canErrorStateChange c st => Sys2Proof.Machine.execCanErrorStateChange c st s
  | .busoffRecovery c => Sys2Proof.Machine.execBusoffRecovery c s
  | .canIntegrated x => Sys2Proof.Machine.execCanIntegrated x s
  | .txTimeoutExpiry c x => Sys2Proof.Machine.execTxTimeoutExpiry c x s
  | .linFrameAccept c id data => Sys2Proof.Machine.execLinFrameAccept c id data s
  | .linHeaderPublish c id => Sys2Proof.Machine.execLinHeaderPublish c id s
  | .linScheduleSlot c => Sys2Proof.Machine.execLinScheduleSlot c s
  | .linError c id code => Sys2Proof.Machine.execLinError c id code s
  | .linResponderIdle c => Sys2Proof.Machine.execLinResponderIdle c s
  | .ethLinkUp x => Sys2Proof.Machine.execEthLinkUp x s
  | .ethLinkDown port => Sys2Proof.Machine.execEthLinkDown port s
  | .ethFrameReceive port f => Sys2Proof.Machine.execEthFrameReceive port f s
  | .packetTxRecord ring => Sys2Proof.Machine.execPacketTxRecord ring s
  | .commandFrame port f => Sys2Proof.Machine.execCommandFrame port f s
  | .commandFrameReply => Sys2Proof.Machine.execCommandFrameReply s
  | .addressAgeing mac vid => Sys2Proof.Machine.execAddressAgeing mac vid s
  | .saPnExhausted port rx sci an => Sys2Proof.Machine.execSaPnExhausted port rx sci an s
  | .syncInterval => Sys2Proof.Machine.execSyncInterval s
  | .syncHoldover => Sys2Proof.Machine.execSyncHoldover s
  | .tc10SleepRequestRx port => Sys2Proof.Machine.execTc10SleepRequestRx port s
  | .tc10SleepWaitEnd port acked => Sys2Proof.Machine.execTc10SleepWaitEnd port acked s
  | .tc10WakeRx port => Sys2Proof.Machine.execTc10WakeRx port s
  | .wakeLatch cause x => Sys2Proof.Machine.execWakeLatch cause x s
  | .wakeHandling => Sys2Proof.Machine.execWakeHandling s
  | .rtcAlarm => Sys2Proof.Machine.execRtcAlarm s
  | .selectiveWakeFrame n f good => Sys2Proof.Machine.execSelectiveWakeFrame n f good s
  | .nmMessageRx n m => Sys2Proof.Machine.execNmMessageRx n m s
  | .nmKeepaliveTimer n => Sys2Proof.Machine.execNmKeepaliveTimer n s
  | .nmTimeout n => Sys2Proof.Machine.execNmTimeout n s
  | .nmRingSend n => Sys2Proof.Machine.execNmRingSend n s
  | .nmRingTimeout n => Sys2Proof.Machine.execNmRingTimeout n s
  | .networkCommit n => Sys2Proof.Machine.execNetworkCommit n s
  | .deviceCommit => Sys2Proof.Machine.execDeviceCommit s
  | .darkEntry => Sys2Proof.Machine.execDarkEntry s
  | .buoyTimeout => Sys2Proof.Machine.execBuoyTimeout s
  | .pairStop => Sys2Proof.Machine.execPairStop s
  | .stateEntry target => Sys2Proof.Machine.execStateEntry target s
  | .cryptoAdmission ring => Sys2Proof.Machine.execCryptoAdmission ring s
  | .encrypt ring => Sys2Proof.Machine.execEncrypt ring s
  | .decrypt ring => Sys2Proof.Machine.execDecrypt ring s
  | .gmacGen ring => Sys2Proof.Machine.execGmacGen ring s
  | .gmacCheck ring => Sys2Proof.Machine.execGmacCheck ring s
  | .chainSegmentTimeout ring => Sys2Proof.Machine.execChainSegmentTimeout ring s
  | .cipherMismatch ctx => Sys2Proof.Machine.execCipherMismatch ctx s
  | .pd5IdleOff => Sys2Proof.Machine.execPd5IdleOff s
  | .counterCommit slot => Sys2Proof.Machine.execCounterCommit slot s
  | .trngHealthFail test => Sys2Proof.Machine.execTrngHealthFail test s
  | .keyAbortStop slot => Sys2Proof.Machine.execKeyAbortStop slot s
  | .doorbellSubmit comp ring index => Sys2Proof.Machine.execDoorbellSubmit comp ring index s
  | .doorbellConsume comp ring index => Sys2Proof.Machine.execDoorbellConsume comp ring index s
  | .ringSizeWrite comp ring size => Sys2Proof.Machine.execRingSizeWrite comp ring size s
  | .tickNowRead comp => Sys2Proof.Machine.execTickNowRead comp s
  | .registerWrite comp addr value => Sys2Proof.Machine.execRegisterWrite comp addr value s
  | .hostSpiWrite f => Sys2Proof.Machine.execHostSpiWrite f s
  | .hostSpiRead f => Sys2Proof.Machine.execHostSpiRead f s
  | .keeperAdmission ring => Sys2Proof.Machine.execKeeperAdmission ring s
  | .flightApply ring => Sys2Proof.Machine.execFlightApply ring s
  | .flightTimeout ring => Sys2Proof.Machine.execFlightTimeout ring s
  | .flightInterrupted ring => Sys2Proof.Machine.execFlightInterrupted ring s
  | .dispatcherOverflow => Sys2Proof.Machine.execDispatcherOverflow s
  | .unknownOpcode p => Sys2Proof.Machine.execUnknownOpcode p s
  | .sysNop p => Sys2Proof.Machine.execSysNop p s
  | .sysTick p => Sys2Proof.Machine.execSysTick p s
  | .sysInfo p => Sys2Proof.Machine.execSysInfo p s
  | .sysState p => Sys2Proof.Machine.execSysState p s
  | .sysReset p => Sys2Proof.Machine.execSysReset p s
  | .sysConfig p => Sys2Proof.Machine.execSysConfig p s
  | .sysCharter p => Sys2Proof.Machine.execSysCharter p s
  | .loadSet p => Sys2Proof.Machine.execLoadSet p s
  | .loadConfig p => Sys2Proof.Machine.execLoadConfig p s
  | .loadDiag p => Sys2Proof.Machine.execLoadDiag p s
  | .loadUnlock p => Sys2Proof.Machine.execLoadUnlock p s
  | .loadFailstate p => Sys2Proof.Machine.execLoadFailstate p s
  | .loadShed p => Sys2Proof.Machine.execLoadShed p s
  | .motorRun p => Sys2Proof.Machine.execMotorRun p s
  | .motorConfig p => Sys2Proof.Machine.execMotorConfig p s
  | .motorPos p => Sys2Proof.Machine.execMotorPos p s
  | .valveFire p => Sys2Proof.Machine.execValveFire p s
  | .valveProg p => Sys2Proof.Machine.execValveProg p s
  | .valveConfig p => Sys2Proof.Machine.execValveConfig p s
  | .valveTrace p => Sys2Proof.Machine.execValveTrace p s
  | .pointWrite p => Sys2Proof.Machine.execPointWrite p s
  | .pointRead p => Sys2Proof.Machine.execPointRead p s
  | .pointType p => Sys2Proof.Machine.execPointType p s
  | .stringConfig p => Sys2Proof.Machine.execStringConfig p s
  | .patternLoad p => Sys2Proof.Machine.execPatternLoad p s
  | .patternRun p => Sys2Proof.Machine.execPatternRun p s
  | .ivgalEnum p => Sys2Proof.Machine.execIvgalEnum p s
  | .ivgalConfig p => Sys2Proof.Machine.execIvgalConfig p s
  | .ivgalDiag p => Sys2Proof.Machine.execIvgalDiag p s
  | .ivgalFrameSlot n => Sys2Proof.Machine.execIvgalFrameSlot n s
  | .ivgalFrameReturn n r => Sys2Proof.Machine.execIvgalFrameReturn n r s
  | .ivgalBreak n => Sys2Proof.Machine.execIvgalBreak n s
  | .ivgalBeaconRx n address records => Sys2Proof.Machine.execIvgalBeaconRx n address records s
  | .ivgalMismatchEnum n => Sys2Proof.Machine.execIvgalMismatchEnum n s
  | .reflexLoad p => Sys2Proof.Machine.execReflexLoad p s
  | .reflexEnable p => Sys2Proof.Machine.execReflexEnable p s
  | .reflexStats p => Sys2Proof.Machine.execReflexStats p s
  | .inputConfig p => Sys2Proof.Machine.execInputConfig p s
  | .fieldConfig p => Sys2Proof.Machine.execFieldConfig p s
  | .fieldStatus p => Sys2Proof.Machine.execFieldStatus p s
  | .canConfig p => Sys2Proof.Machine.execCanConfig p s
  | .canFilter p => Sys2Proof.Machine.execCanFilter p s
  | .canSend p => Sys2Proof.Machine.execCanSend p s
  | .canCancel p => Sys2Proof.Machine.execCanCancel p s
  | .canStatus p => Sys2Proof.Machine.execCanStatus p s
  | .canSigmap p => Sys2Proof.Machine.execCanSigmap p s
  | .linConfig p => Sys2Proof.Machine.execLinConfig p s
  | .linSchedule p => Sys2Proof.Machine.execLinSchedule p s
  | .linSend p => Sys2Proof.Machine.execLinSend p s
  | .ethConfig p => Sys2Proof.Machine.execEthConfig p s
  | .ethSecure p => Sys2Proof.Machine.execEthSecure p s
  | .ethStatus p => Sys2Proof.Machine.execEthStatus p s
  | .ethTime p => Sys2Proof.Machine.execEthTime p s
  | .nmConfig p => Sys2Proof.Machine.execNmConfig p s
  | .nmRequest p => Sys2Proof.Machine.execNmRequest p s
  | .nmRelease p => Sys2Proof.Machine.execNmRelease p s
  | .nmStatus p => Sys2Proof.Machine.execNmStatus p s
  | .xcvrState p => Sys2Proof.Machine.execXcvrState p s
  | .keyWrite p => Sys2Proof.Machine.execKeyWrite p s
  | .keyErase p => Sys2Proof.Machine.execKeyErase p s
  | .keyInfo p => Sys2Proof.Machine.execKeyInfo p s
  | .keyDerive p => Sys2Proof.Machine.execKeyDerive p s
  | .keyUnwrap p => Sys2Proof.Machine.execKeyUnwrap p s
  | .sign p => Sys2Proof.Machine.execSign p s
  | .verify p => Sys2Proof.Machine.execVerify p s
  | .hash p => Sys2Proof.Machine.execHash p s
  | .imageBegin p => Sys2Proof.Machine.execImageBegin p s
  | .imageData p => Sys2Proof.Machine.execImageData p s
  | .imageEnd p => Sys2Proof.Machine.execImageEnd p s
  | .transferTimeout => Sys2Proof.Machine.execTransferTimeout s
  | .imageTrial p => Sys2Proof.Machine.execImageTrial p s
  | .trialCompare cand item => Sys2Proof.Machine.execTrialCompare cand item s
  | .trialMatchTimeout comp => Sys2Proof.Machine.execTrialMatchTimeout comp s
  | .trialRunEnd cause => Sys2Proof.Machine.execTrialRunEnd cause s
  | .imageCommit p => Sys2Proof.Machine.execImageCommit p s
  | .imageRevert p => Sys2Proof.Machine.execImageRevert p s
  | .attest p => Sys2Proof.Machine.execAttest p s
  | .debugUnlock p => Sys2Proof.Machine.execDebugUnlock p s
  | .debugExpiry => Sys2Proof.Machine.execDebugExpiry s
  | .handlePoll k cap => Sys2Proof.Machine.execHandlePoll k cap s
  | .handleTouch k => Sys2Proof.Machine.execHandleTouch k s
  | .accessConfig p => Sys2Proof.Machine.execAccessConfig p s
  | .accessPoll p => Sys2Proof.Machine.execAccessPoll p s
  | .lfFrameEnd => Sys2Proof.Machine.execLfFrameEnd s
  | .responseSlotClose index r => Sys2Proof.Machine.execResponseSlotClose index r s
  | .antennaFault a kind => Sys2Proof.Machine.execAntennaFault a kind s
  | .accessStatus p => Sys2Proof.Machine.execAccessStatus p s
  | .tokenEnroll p => Sys2Proof.Machine.execTokenEnroll p s
  | .tokenRevoke p => Sys2Proof.Machine.execTokenRevoke p s
  | .tokenList p => Sys2Proof.Machine.execTokenList p s
  | .sessionTimeout => Sys2Proof.Machine.execSessionTimeout s
  | .releaseConfig p => Sys2Proof.Machine.execReleaseConfig p s
  | .releaseFrameBuild => Sys2Proof.Machine.execReleaseFrameBuild s
  | .releaseFrameHandover => Sys2Proof.Machine.execReleaseFrameHandover s
  | .logAppend p => Sys2Proof.Machine.execLogAppend p s
  | .logRead p => Sys2Proof.Machine.execLogRead p s
  | .logExportAck p => Sys2Proof.Machine.execLogExportAck p s
  | .logSeal p => Sys2Proof.Machine.execLogSeal p s
  | .segmentSeal reason => Sys2Proof.Machine.execSegmentSeal reason s
  | .sealTimeExpiry => Sys2Proof.Machine.execSealTimeExpiry s
  | .logRecordWrite item => Sys2Proof.Machine.execLogRecordWrite item s
  | .timeSet p => Sys2Proof.Machine.execTimeSet p s
  | .timeGet p => Sys2Proof.Machine.execTimeGet p s
  | .rtcStore => Sys2Proof.Machine.execRtcStore s
  | .rtcTempMeasure temp => Sys2Proof.Machine.execRtcTempMeasure temp s
  | .watchConfig p => Sys2Proof.Machine.execWatchConfig p s
  | .watchGrant p => Sys2Proof.Machine.execWatchGrant p s
  | .watchSnap p => Sys2Proof.Machine.execWatchSnap p s
  | .watchDump ring => Sys2Proof.Machine.execWatchDump ring s
  | .voltagePointRewrite which mv => Sys2Proof.Machine.execVoltagePointRewrite which mv s
  | .pwmPeriodStart o => Sys2Proof.Machine.execPwmPeriodStart o s
  | .clampWindowBinExpiry => Sys2Proof.Machine.execClampWindowBinExpiry s
  | .canBusError c x => Sys2Proof.Machine.execCanBusError c x s
  | .egressFrameSent port => Sys2Proof.Machine.execEgressFrameSent port s
  | .peerDelayMeasure port x => Sys2Proof.Machine.execPeerDelayMeasure port x s
  | .trngHealthRecovery => Sys2Proof.Machine.execTrngHealthRecovery s
  | .vioLoss mv => Sys2Proof.Machine.execVioLoss mv s
  | .vioReturn mv => Sys2Proof.Machine.execVioReturn mv s
  | .tapInstruction code resetLow dataIn => Sys2Proof.Machine.execTapInstruction code resetLow dataIn s

end Sys2Proof.Machine
end

