-- ==== Sys2Proof/Safety.lean ====
section
/-! DEFINITION. The terms in which statements about the machine are made: the parts of the state and what each command may touch, packets that
run, and what has been posted or completed. -/

namespace Sys2Proof.Claims

open Sys2Proof.Machine

/-- The parts that the state of the machine is made of, the configuration store and the plane each in its parts. -/
inductive Part where
  | seq | ret | points | rtc | link | load | motor | light | input
  | sleep | bus | eth | cipher | image | access | watch | pins | mem
  | now | free | drawn | saved | pending | storeCharters | storeNextCharters | storeSys | storeAttrs
  | storeRules | storeCapArm | storeEpoch | storeLog | storeRtc | storeLoad | storeMotor | storeLight | storeInput
  | storeSleep | storeCan | storeKeys | storeEth | storeImage | storeAccess | storeWatch | planeRunning | planeEpoch
  | planeTick | planeHeld | planeLin | planeBeamSeen | planeRcClock | planeHalls | planeLandings | planeRings | planeSettings
  | planeWaiting | planeExecNow | planeKeeper | planeFinished | planeTurn | planeStatus | planeCapture | planeReplay | planeResults | planeCommanded | planeRecent
  | planeOutbox | planeFrame
  deriving DecidableEq, Repr

/-- A part is the same in two states. -/
def Part.same : Part → State → State → Prop
  | .seq, s, t => t.seq = s.seq
  | .ret, s, t => t.ret = s.ret
  | .points, s, t => t.points = s.points
  | .rtc, s, t => t.rtc = s.rtc
  | .link, s, t => t.link = s.link
  | .load, s, t => t.load = s.load
  | .motor, s, t => t.motor = s.motor
  | .light, s, t => t.light = s.light
  | .input, s, t => t.input = s.input
  | .sleep, s, t => t.sleep = s.sleep
  | .bus, s, t => t.bus = s.bus
  | .eth, s, t => t.eth = s.eth
  | .cipher, s, t => t.cipher = s.cipher
  | .image, s, t => t.image = s.image
  | .access, s, t => t.access = s.access
  | .watch, s, t => t.watch = s.watch
  | .pins, s, t => t.pins = s.pins
  | .mem, s, t => t.mem = s.mem
  | .now, s, t => t.now = s.now
  | .free, s, t => t.free = s.free
  | .drawn, s, t => t.drawn = s.drawn
  | .saved, s, t => t.saved = s.saved
  | .pending, s, t => t.pending = s.pending
  | .storeCharters, s, t => t.store.charters = s.store.charters
  | .storeNextCharters, s, t => t.store.nextCharters = s.store.nextCharters
  | .storeSys, s, t => t.store.sys = s.store.sys
  | .storeAttrs, s, t => t.store.attrs = s.store.attrs
  | .storeRules, s, t => t.store.rules = s.store.rules
  | .storeCapArm, s, t => t.store.capArm = s.store.capArm
  | .storeEpoch, s, t => t.store.epoch = s.store.epoch
  | .storeLog, s, t => t.store.log = s.store.log
  | .storeRtc, s, t => t.store.rtc = s.store.rtc
  | .storeLoad, s, t => t.store.load = s.store.load
  | .storeMotor, s, t => t.store.motor = s.store.motor
  | .storeLight, s, t => t.store.light = s.store.light
  | .storeInput, s, t => t.store.input = s.store.input
  | .storeSleep, s, t => t.store.sleep = s.store.sleep
  | .storeCan, s, t => t.store.can = s.store.can
  | .storeKeys, s, t => t.store.keys = s.store.keys
  | .storeEth, s, t => t.store.eth = s.store.eth
  | .storeImage, s, t => t.store.image = s.store.image
  | .storeAccess, s, t => t.store.access = s.store.access
  | .storeWatch, s, t => t.store.watch = s.store.watch
  | .planeRunning, s, t => t.plane.running = s.plane.running
  | .planeEpoch, s, t => t.plane.epoch = s.plane.epoch
  | .planeTick, s, t => t.plane.tick = s.plane.tick
  | .planeHeld, s, t => t.plane.held = s.plane.held
  | .planeLin, s, t => t.plane.lin = s.plane.lin
  | .planeBeamSeen, s, t => t.plane.beamSeen = s.plane.beamSeen
  | .planeRcClock, s, t => t.plane.rcClock = s.plane.rcClock
  | .planeHalls, s, t => t.plane.halls = s.plane.halls
  | .planeLandings, s, t => t.plane.landings = s.plane.landings
  | .planeRings, s, t => t.plane.rings = s.plane.rings
  | .planeSettings, s, t => t.plane.settings = s.plane.settings
  | .planeWaiting, s, t => t.plane.waiting = s.plane.waiting
  | .planeExecNow, s, t => t.plane.execNow = s.plane.execNow
  | .planeKeeper, s, t => t.plane.keeper = s.plane.keeper
  | .planeFinished, s, t => t.plane.finished = s.plane.finished
  | .planeTurn, s, t => t.plane.turn = s.plane.turn
  | .planeStatus, s, t => t.plane.status = s.plane.status
  | .planeCapture, s, t => t.plane.capture = s.plane.capture
  | .planeReplay, s, t => t.plane.replay = s.plane.replay
  | .planeResults, s, t => t.plane.results = s.plane.results
  | .planeCommanded, s, t => t.plane.commanded = s.plane.commanded
  | .planeRecent, s, t => t.plane.recent = s.plane.recent
  | .planeOutbox, s, t => t.plane.outbox = s.plane.outbox
  | .planeFrame, s, t => t.plane.frame = s.plane.frame

/-- Every part. -/
def allParts : List Part :=
  [.seq, .ret, .points, .rtc, .link, .load, .motor, .light, .input, .sleep, .bus, .eth, .cipher, .image, .access, .watch, .pins, .mem, .now,
    .free, .drawn, .saved, .pending, .storeCharters, .storeNextCharters, .storeSys, .storeAttrs, .storeRules, .storeCapArm, .storeEpoch,
    .storeLog, .storeRtc, .storeLoad, .storeMotor, .storeLight, .storeInput, .storeSleep, .storeCan, .storeKeys, .storeEth, .storeImage,
    .storeAccess, .storeWatch, .planeRunning, .planeEpoch, .planeTick, .planeHeld, .planeLin, .planeBeamSeen, .planeRcClock, .planeHalls,
    .planeLandings, .planeRings, .planeSettings, .planeWaiting, .planeExecNow, .planeKeeper, .planeFinished, .planeTurn, .planeStatus,
    .planeCapture, .planeReplay, .planeResults, .planeCommanded, .planeRecent, .planeOutbox, .planeFrame]

/-- What an item or an event may touch before a landing releases it (R20, R97). -/
def eventParts : List Part := [.planeLandings]

/-- What a record of the logbook may touch, with the event it posts (chapter 15): the result stream takes the bodies of log records (R30). -/
def logParts : List Part := eventParts ++ [.storeLog, .storeRtc, .planeResults]

/-- What the completion of a packet that runs on may touch (R30, R43, R77, R340): its ring and reply, in a trial its shadow, the result stream. -/
def replyParts : List Part := [.image, .mem, .planeLandings, .planeRings, .planeReplay, .planeResults]

/-- What turning outputs off at once may touch (R66, R128): the outputs and what runs on them, the internal link, the points, and the packets and events
that this ends. -/
def turnedOffParts : List Part := [.points, .link, .motor, .light, .image, .watch, .mem, .planeLandings, .planeRings, .planeReplay, .planeResults]

/-- What taking a command packet may touch whatever its opcode (R33–R35, R75–R89): its ring and reply, the queues, the capture and replay counts. -/
def packetParts : List Part :=
  [.image, .watch, .mem, .planeLandings, .planeRings, .planeWaiting, .planeKeeper, .planeFinished, .planeTurn, .planeStatus, .planeCapture,
    .planeReplay, .planeResults]

/-- The settings that no command but their own opcodes changes. -/
def settingParts : List Part := [.storeSys, .storeAttrs, .storeRules, .storeLoad, .storeMotor, .storeLight, .storeInput, .storeSleep, .storeWatch]

/-- What a logic reset leaves as it is, beside these settings (R66, Table 02.8). -/
def untouchedByReset : List Part :=
  settingParts ++ [.link, .load, .now, .free, .drawn, .pending, .storeCharters, .storeNextCharters, .storeCapArm, .storeEpoch, .storeCan, .storeAccess]

/-- Every part but those of a list. -/
def allBut (l : List Part) : List Part := allParts.filter fun x => !l.contains x

/-- The parts that a command may touch. -/
def footprint : Instr → List Part
  | .tick => allBut [.pending]
  | .hallTokenMismatch _ => allBut untouchedByReset
  | .crystalLoss => eventParts ++ [.planeRcClock, .planeStatus]
  | .beamEntry => allBut [.pending]
  | .epochRollover => allBut [.pending]
  | .landingRelease _ _ => allBut [.pending]
  | .progressReport _ _ _ => eventParts
  | .hallLagFault _ => allBut untouchedByReset
  | .hallLeave _ => eventParts
  | .hallJoin _ => eventParts ++ [.planeHalls]
  | .barrierFrameRx _ => eventParts ++ [.input]
  | .barrierWindowMiss _ => eventParts ++ [.input, .watch]
  | .secureCanVerdict _ => eventParts ++ [.bus, .cipher, .watch, .mem, .free, .storeCan]
  | .captureCheckpoint => eventParts ++ [.planeCapture]
  | .captureStart _ => packetParts ++ [.storeCapArm]
  | .captureStop _ => packetParts ++ [.storeCapArm]
  | .replayRun _ => allBut (settingParts ++ [.drawn, .pending, .storeCharters, .storeNextCharters, .storeCan])
  | .replayRecordRead => allBut [.pending]
  | .replayReaderLag _ => allBut (settingParts ++ [.drawn, .pending, .storeCharters, .storeNextCharters, .storeCan, .storeAccess])
  | .replayEnd => allBut [.pending]
  | .firstPowerUp _ => allBut (settingParts ++ [.now, .drawn, .pending])
  | .vbatlBelowWarn _ => eventParts ++ [.seq, .storeLog, .storeRtc, .storeCan]
  | .vbatlAboveWarn _ => eventParts ++ [.seq]
  | .vbatlLogicReset _ => allBut untouchedByReset
  | .logicResetRelease _ => [.seq]
  | .vbatlColdReset _ => allBut [.pending]
  | .powerDieStart _ => [.seq]
  | .resetNLow _ => allBut untouchedByReset
  | .keeperLockstepMismatch => allBut untouchedByReset
  | .keeperWatchdog => allBut untouchedByReset
  | .pairLockstepMismatch _ => replyParts ++ [.storeLog, .storeRtc, .storeImage]
  | .logicRestart => allBut (settingParts ++ [.now, .drawn, .pending])
  | .l2FrameRx _ => turnedOffParts ++ [.load]
  | .holdEntry => [.link]
  | .holdTimerExpiry => turnedOffParts ++ [.load]
  | .internalLinkRetrain => [.planeHalls]
  | .adoption => logParts ++ [.points, .link, .motor, .light, .watch, .planeFrame]
  | .bankBelowWarn _ _ => eventParts ++ [.load]
  | .bankWarnRecovery _ _ => eventParts ++ [.load]
  | .shedCountExpiry _ _ _ => turnedOffParts ++ [.load]
  | .shedRecovery _ _ _ => eventParts ++ [.load, .motor, .light]
  | .bankDropout _ _ => turnedOffParts ++ [.load]
  | .dropoutRecovery _ _ => eventParts ++ [.load, .motor, .light]
  | .bankOvervolt _ _ => turnedOffParts ++ [.load]
  | .overvoltRecovery _ _ => eventParts ++ [.load, .motor, .light]
  | .diagnosisLimit _ _ => [.load]
  | .resumeQueueStep _ => eventParts ++ [.load, .light]
  | .bankDip _ _ => [.load, .motor, .light]
  | .hardShort _ => turnedOffParts ++ [.load]
  | .overloadCountExpiry _ => eventParts ++ [.link, .load, .watch]
  | .inrushWindowEnd _ _ _ => eventParts ++ [.link, .load, .watch]
  | .retryTimerExpiry _ => eventParts ++ [.load]
  | .clampEventEnd _ _ => eventParts ++ [.link, .load, .motor, .watch]
  | .wireModelUpdate _ _ _ => eventParts ++ [.link, .load, .watch]
  | .thermalShutdown _ => turnedOffParts ++ [.load]
  | .thermalRestart _ => turnedOffParts ++ [.load]
  | .restartCountReset _ => [.load, .light]
  | .thermalManagerCut _ _ _ => eventParts ++ [.link, .load, .motor, .watch]
  | .thermalManagerReturn _ => eventParts ++ [.load, .motor]
  | .onStateOpenCheck _ _ => eventParts ++ [.load, .watch]
  | .offStateCheck _ _ _ _ => eventParts ++ [.load, .watch]
  | .stretchPhase _ _ => eventParts ++ [.load, .watch]
  | .backfeedCheck _ _ _ => eventParts ++ [.load, .watch]
  | .reverseCurrent _ => eventParts ++ [.load, .watch]
  | .reverseEnd _ => eventParts ++ [.load]
  | .hbFault _ _ _ _ => turnedOffParts
  | .motorBrakeEnd _ => replyParts ++ [.load, .motor]
  | .motorGroupStart _ => [.load, .motor]
  | .motorStall _ => replyParts ++ [.points, .motor, .light, .watch]
  | .runMaxExpiry _ => replyParts ++ [.points, .motor, .light, .watch]
  | .runEndCondition _ => replyParts ++ [.points, .motor, .light, .watch]
  | .rippleCount _ _ _ => eventParts ++ [.motor]
  | .rippleInsert _ => eventParts ++ [.motor]
  | .pinchDetect _ _ => eventParts ++ [.link, .motor]
  | .pinchReversalStart _ => [.load, .motor]
  | .pinchReversalEnd _ _ => replyParts ++ [.points, .motor, .light, .watch]
  | .valveGrant _ => eventParts ++ [.motor]
  | .valveProgramStart _ => [.motor]
  | .deferMaxExpiry _ => replyParts ++ [.points, .motor, .light, .watch]
  | .valveInstruction _ _ => eventParts ++ [.motor]
  | .valveWaitEnd _ _ => [.motor]
  | .valveDipDetect _ _ => eventParts ++ [.motor]
  | .fireMaxExpiry _ => [.motor]
  | .valveDecayEnd _ _ _ => turnedOffParts ++ [.load]
  | .valveOutputFault _ _ _ _ => turnedOffParts
  | .stringSoftStartEnd _ _ => eventParts ++ [.link, .load, .light, .watch]
  | .stringConverterStop _ => [.light]
  | .stringFault _ _ _ _ => eventParts ++ [.link, .load, .motor, .light, .watch]
  | .patternUpdate _ => eventParts ++ [.points, .light, .watch, .planeResults]
  | .patternWriteDeferred => [.points, .light, .watch, .planeResults]
  | .pointWriteDeferred => [.points, .light, .watch, .planeResults]
  | .reflexEvaluate => eventParts ++ [.points, .light, .bus, .watch, .planeResults]
  | .reflexActionDeferred => eventParts ++ [.points, .light, .bus, .watch, .planeResults]
  | .pulseEnd _ => [.points, .light, .watch, .planeResults]
  | .rampStep _ => [.points, .light, .watch, .planeResults]
  | .timerExpiry _ => [.points, .light, .watch, .planeResults]
  | .siFilterChange _ _ => eventParts ++ [.input, .sleep, .watch]
  | .aiConversionResult _ _ => eventParts ++ [.input]
  | .cyclicSense _ => eventParts ++ [.input, .sleep, .watch]
  | .tickHallInputReload => eventParts ++ [.input]
  | .fieldSupplyChange _ _ => [.input]
  | .fieldDieStop => [.input]
  | .fieldDiePowerUp => [.input]
  | .fieldInputChange _ _ => eventParts ++ [.input, .sleep, .watch]
  | .fieldFrameRx _ => [.input]
  | .fieldLinkLost => [.input]
  | .fieldLinkRecover => [.input]
  | .fieldReconfigure => [.input]
  | .fieldPark => [.input]
  | .fieldOutputFault _ _ _ _ => [.input]
  | .canFrameAccept _ _ => eventParts ++ [.sleep, .bus, .watch, .free, .planeResults]
  | .signalTimeout _ => eventParts ++ [.bus]
  | .frameHandover _ => replyParts ++ [.points, .bus, .storeKeys]
  | .secureTxTagReady _ => replyParts ++ [.bus, .cipher, .watch, .free]
  | .canTxEnd _ _ => replyParts ++ [.bus, .watch, .free]
  | .canClash _ => replyParts ++ [.bus, .watch]
  | .canErrorStateChange _ _ => eventParts ++ [.bus]
  | .busoffRecovery _ => eventParts ++ [.bus]
  | .canIntegrated _ => replyParts ++ [.bus]
  | .txTimeoutExpiry _ _ => replyParts ++ [.bus]
  | .linFrameAccept _ _ _ => eventParts ++ [.sleep, .bus, .watch, .planeResults]
  | .linHeaderPublish _ _ => replyParts ++ [.bus, .watch]
  | .linScheduleSlot _ => [.bus]
  | .linError _ _ _ => eventParts ++ [.bus, .watch]
  | .linResponderIdle _ => eventParts ++ [.sleep, .bus]
  | .ethLinkUp _ => eventParts ++ [.eth]
  | .ethLinkDown _ => eventParts ++ [.eth, .watch]
  | .ethFrameReceive _ _ => [.eth, .cipher, .watch]
  | .packetTxRecord _ => [.eth, .image, .watch, .mem, .planeRings, .planeResults]
  | .commandFrame _ _ => eventParts ++ [.eth, .cipher, .watch, .mem, .storeEth, .planeRings]
  | .commandFrameReply => [.eth, .watch]
  | .addressAgeing _ _ => [.eth]
  | .saPnExhausted _ _ _ _ => eventParts ++ [.storeEth]
  | .syncInterval => eventParts ++ [.eth, .watch, .free]
  | .syncHoldover => eventParts ++ [.eth]
  | .tc10SleepRequestRx _ => eventParts ++ [.eth]
  | .tc10SleepWaitEnd _ _ => eventParts ++ [.eth, .watch]
  | .tc10WakeRx _ => eventParts ++ [.sleep, .eth, .watch]
  | .wakeLatch _ _ => eventParts ++ [.sleep, .watch, .free]
  | .wakeHandling => logParts ++ [.seq, .points, .light, .sleep, .bus, .access, .watch, .drawn, .planeHalls, .planeReplay]
  | .rtcAlarm => eventParts ++ [.sleep, .watch]
  | .selectiveWakeFrame _ _ _ => eventParts ++ [.sleep, .watch]
  | .nmMessageRx _ _ => eventParts ++ [.sleep, .bus, .planeResults]
  | .nmKeepaliveTimer _ => [.sleep, .bus, .planeResults]
  | .nmTimeout _ => eventParts ++ [.sleep, .bus, .planeResults]
  | .nmRingSend _ => eventParts ++ [.sleep, .bus, .planeResults]
  | .nmRingTimeout _ => eventParts ++ [.sleep, .bus, .planeResults]
  | .networkCommit _ => eventParts ++ [.sleep, .bus, .planeResults]
  | .deviceCommit => replyParts ++ [.seq, .points, .light, .input, .sleep, .bus, .eth, .cipher, .access, .watch, .pins, .storeLog, .storeRtc,
      .planeHalls, .planeWaiting, .planeKeeper, .planeStatus]
  | .darkEntry => allBut (untouchedByReset ++ [.ret, .pins, .storeRtc, .storeImage])
  | .buoyTimeout => allBut (untouchedByReset ++ [.ret, .storeImage])
  | .pairStop => replyParts ++ [.seq, .sleep, .watch, .planeHalls, .planeWaiting, .planeKeeper]
  | .stateEntry _ => allBut [.pending]
  | .cryptoAdmission _ => eventParts ++ [.cipher, .image, .mem, .storeKeys, .planeRings, .planeResults]
  | .encrypt _ => [.cipher, .image, .watch, .mem, .free, .planeRings, .planeResults]
  | .decrypt _ => [.cipher, .image, .watch, .mem, .free, .planeRings, .planeResults]
  | .gmacGen _ => [.cipher, .image, .watch, .mem, .free, .planeRings, .planeResults]
  | .gmacCheck _ => [.cipher, .image, .watch, .mem, .free, .planeRings, .planeResults]
  | .chainSegmentTimeout _ => [.cipher]
  | .cipherMismatch _ => replyParts ++ [.seq, .points, .light, .bus, .eth, .cipher, .access, .watch, .pins, .storeLog, .storeRtc, .storeEth,
      .planeHalls, .planeWaiting, .planeKeeper, .planeFinished, .planeTurn]
  | .pd5IdleOff => eventParts ++ [.seq, .watch, .planeHalls]
  | .counterCommit _ => [.storeKeys]
  | .trngHealthFail _ => eventParts ++ [.cipher]
  | .keyAbortStop _ => [.cipher, .image, .mem, .planeRings, .planeResults]
  | .doorbellSubmit _ _ _ => eventParts ++ [.seq, .image, .watch, .planeHalls, .planeRings]
  | .doorbellConsume _ _ _ => eventParts ++ [.seq, .image, .watch, .planeHalls, .planeRings]
  | .ringSizeWrite _ _ _ => [.image, .planeRings]
  | .tickNowRead _ => [.planeStatus]
  | .registerWrite _ _ _ => eventParts ++ [.seq, .image, .watch, .planeHalls, .planeRings, .planeStatus]
  | .hostSpiWrite _ => eventParts ++ [.seq, .image, .watch, .pins, .mem, .planeHalls, .planeRings, .planeStatus]
  | .hostSpiRead _ => [.watch, .pins, .planeStatus]
  | .keeperAdmission _ => replyParts ++ [.planeWaiting, .planeKeeper]
  | .flightApply _ => allBut [.pending]
  | .flightTimeout _ => replyParts ++ [.watch, .planeStatus, .planeCapture]
  | .flightInterrupted _ => replyParts ++ [.watch, .planeStatus, .planeCapture]
  | .dispatcherOverflow => [.watch, .planeWaiting]
  | .unknownOpcode _ => packetParts
  | .sysNop _ => packetParts ++ [.planeExecNow]
  | .sysTick _ => packetParts ++ [.planeExecNow]
  | .sysInfo _ => packetParts
  | .sysState _ => packetParts ++ [.seq, .points, .light, .sleep, .bus, .eth, .cipher, .access, .storeLog, .storeRtc, .storeImage, .storeAccess, .planeHalls]
  | .sysReset _ => packetParts ++ [.seq]
  | .sysConfig _ => packetParts ++ [.storeSys, .planeSettings]
  | .sysCharter _ => packetParts ++ [.points, .light, .storeCharters, .storeNextCharters, .storeRules, .storeCan, .storeImage, .storeWatch]
  | .loadSet _ => packetParts ++ [.points, .light, .planeExecNow, .planeCommanded]
  | .loadConfig _ => packetParts ++ [.load, .storeLoad]
  | .loadDiag _ => packetParts ++ [.load, .free]
  | .loadUnlock _ => packetParts ++ [.points, .load, .light]
  | .loadFailstate _ => packetParts ++ [.ret, .link, .storeLoad]
  | .loadShed _ => packetParts ++ [.link, .load, .light, .storeLoad]
  | .motorRun _ => packetParts ++ [.points, .motor, .light, .planeExecNow]
  | .motorConfig _ => packetParts ++ [.points, .motor, .light, .storeMotor]
  | .motorPos _ => packetParts ++ [.motor]
  | .valveFire _ => packetParts ++ [.points, .motor, .light, .planeExecNow]
  | .valveProg _ => packetParts ++ [.storeMotor]
  | .valveConfig _ => packetParts ++ [.motor, .storeMotor]
  | .valveTrace _ => packetParts ++ [.motor]
  | .pointWrite _ => packetParts ++ [.points, .light, .planeExecNow]
  | .pointRead _ => packetParts ++ [.points, .planeExecNow]
  | .pointType _ => packetParts ++ [.points, .storeAttrs]
  | .stringConfig _ => packetParts ++ [.load, .light, .storeLight]
  | .patternLoad _ => packetParts ++ [.light, .storeLight]
  | .patternRun _ => packetParts ++ [.points, .light, .planeExecNow]
  | .ivgalEnum _ => packetParts ++ [.light, .storeLight]
  | .ivgalConfig _ => packetParts ++ [.light, .storeLight]
  | .ivgalDiag _ => packetParts ++ [.light]
  | .ivgalFrameSlot _ => [.light, .watch]
  | .ivgalFrameReturn _ _ => replyParts ++ [.light, .watch, .storeLight, .planeStatus, .planeCapture]
  | .ivgalBreak _ => eventParts ++ [.light]
  | .ivgalBeaconRx _ _ _ => eventParts ++ [.light]
  | .ivgalMismatchEnum _ => [.light, .watch]
  | .reflexLoad _ => packetParts ++ [.points, .storeRules]
  | .reflexEnable _ => packetParts ++ [.points, .light, .storeRules]
  | .reflexStats _ => packetParts ++ [.points]
  | .inputConfig _ => packetParts ++ [.points, .light, .input, .bus, .storeInput]
  | .fieldConfig _ => packetParts ++ [.input, .storeInput]
  | .fieldStatus _ => packetParts ++ [.input]
  | .canConfig _ => packetParts ++ [.seq, .bus, .cipher, .storeCan, .planeHalls]
  | .canFilter _ => packetParts ++ [.storeCan]
  | .canSend _ => packetParts ++ [.bus, .planeExecNow]
  | .canCancel _ => packetParts ++ [.bus, .planeExecNow]
  | .canStatus _ => packetParts ++ [.bus]
  | .canSigmap _ => packetParts ++ [.storeCan]
  | .linConfig _ => packetParts ++ [.bus, .storeCan]
  | .linSchedule _ => packetParts ++ [.bus, .storeCan]
  | .linSend _ => packetParts ++ [.bus, .planeExecNow]
  | .ethConfig _ => packetParts ++ [.seq, .eth, .cipher, .storeEth, .planeHalls]
  | .ethSecure _ => packetParts ++ [.seq, .cipher, .storeEth, .planeHalls]
  | .ethStatus _ => packetParts ++ [.eth, .free]
  | .ethTime _ => packetParts ++ [.free, .storeEth]
  | .nmConfig _ => packetParts ++ [.sleep, .bus, .storeSleep]
  | .nmRequest _ => packetParts ++ [.sleep, .bus]
  | .nmRelease _ => packetParts ++ [.sleep, .bus]
  | .nmStatus _ => packetParts ++ [.sleep]
  | .xcvrState _ => packetParts ++ [.sleep, .bus, .storeSleep]
  | .keyWrite _ => packetParts ++ [.bus, .cipher, .drawn, .storeKeys, .storeEth]
  | .keyErase _ => packetParts ++ [.bus, .cipher, .storeKeys, .storeEth]
  | .keyInfo _ => packetParts
  | .keyDerive _ => packetParts ++ [.bus, .cipher, .drawn, .storeKeys, .storeEth]
  | .keyUnwrap _ => packetParts ++ [.bus, .cipher, .free, .drawn, .storeKeys, .storeEth]
  | .sign _ => packetParts
  | .verify _ => packetParts
  | .hash _ => packetParts
  | .imageBegin _ => packetParts ++ [.storeLog, .storeRtc, .storeImage]
  | .imageData _ => packetParts ++ [.cipher, .free, .storeImage]
  | .imageEnd _ => packetParts ++ [.storeLog, .storeRtc, .storeImage]
  | .transferTimeout => logParts ++ [.image, .storeImage]
  | .imageTrial _ => packetParts ++ [.seq, .points, .light, .sleep, .eth, .cipher, .storeLog, .storeRtc, .storeImage, .planeHalls]
  | .trialCompare _ _ => logParts ++ [.image, .mem, .storeImage]
  | .trialMatchTimeout _ => logParts ++ [.image, .storeImage]
  | .trialRunEnd _ => logParts ++ [.image, .storeImage]
  | .imageCommit _ => packetParts ++ [.seq, .points, .light, .sleep, .eth, .cipher, .storeLog, .storeRtc, .storeImage, .planeHalls]
  | .imageRevert _ => packetParts ++ [.seq, .points, .light, .sleep, .eth, .cipher, .storeLog, .storeRtc, .storeImage, .planeHalls]
  | .attest _ => packetParts
  | .debugUnlock _ => packetParts ++ [.drawn, .storeLog, .storeRtc]
  | .debugExpiry => logParts ++ [.image]
  | .handlePoll _ _ => [.access]
  | .handleTouch _ => eventParts ++ [.seq, .points, .light, .sleep, .access, .watch, .drawn, .planeHalls, .planeReplay, .planeResults]
  | .accessConfig _ => packetParts ++ [.access, .storeAccess]
  | .accessPoll _ => packetParts ++ [.seq, .points, .light, .access, .drawn, .planeHalls]
  | .lfFrameEnd => [.points, .light, .access, .watch, .planeResults]
  | .responseSlotClose _ _ => allBut (settingParts ++ [.ret, .link, .load, .now, .drawn, .pending, .storeCharters, .storeNextCharters, .storeCapArm,
      .storeEpoch, .storeCan, .storeImage])
  | .antennaFault _ _ => allBut (untouchedByReset ++ [.ret, .storeImage])
  | .accessStatus _ => packetParts ++ [.access]
  | .tokenEnroll _ => packetParts ++ [.seq, .points, .light, .access, .drawn, .storeLog, .storeRtc, .storeAccess, .planeHalls]
  | .tokenRevoke _ => packetParts ++ [.points, .light, .bus, .cipher, .access, .storeLog, .storeRtc, .storeKeys, .storeEth, .storeAccess]
  | .tokenList _ => packetParts
  | .sessionTimeout => logParts ++ [.points, .light, .access, .watch]
  | .releaseConfig _ => packetParts ++ [.access, .storeLog, .storeRtc, .storeAccess]
  | .releaseFrameBuild => logParts ++ [.cipher, .access, .watch, .mem, .free, .storeKeys, .storeAccess]
  | .releaseFrameHandover => [.bus, .access, .planeResults]
  | .logAppend _ => packetParts ++ [.storeLog, .storeRtc]
  | .logRead _ => packetParts ++ [.cipher, .free, .storeKeys]
  | .logExportAck _ => packetParts ++ [.storeLog]
  | .logSeal _ => packetParts ++ [.storeLog, .storeRtc]
  | .segmentSeal _ => eventParts ++ [.storeLog, .storeRtc]
  | .sealTimeExpiry => eventParts ++ [.storeLog, .storeRtc]
  | .logRecordWrite _ => logParts
  | .timeSet _ => packetParts ++ [.rtc, .storeLog, .storeRtc]
  | .timeGet _ => packetParts
  | .rtcStore => [.storeRtc]
  | .rtcTempMeasure _ => [.rtc]
  | .watchConfig _ => packetParts ++ [.storeWatch]
  | .watchGrant _ => packetParts ++ [.storeWatch]
  | .watchSnap _ => packetParts ++ [.free]
  | .watchDump _ => [.watch, .mem, .free, .planeRings, .planeStatus]
  | .voltagePointRewrite _ _ => eventParts ++ [.seq, .load]
  | .pwmPeriodStart _ => [.load, .motor, .light]
  | .clampWindowBinExpiry => [.load, .motor]
  | .canBusError _ _ => [.bus, .watch]
  | .egressFrameSent _ => eventParts ++ [.eth, .cipher, .watch, .mem, .free, .storeEth]
  | .peerDelayMeasure _ _ => [.eth]
  | .trngHealthRecovery => [.cipher]
  | .vioLoss _ => [.pins]
  | .vioReturn _ => [.pins]
  | .tapInstruction _ _ _ => [.pins, .free]

/-- A keeper packet takes effect now and on time (R35, R79, R81, R83): it spells the opcode, the keeper holds it and has finished those before it, no replay
shuts it out, it is no member of a flight, its tick E is the present one and its turn in it has come, or it only answers, with what E is nothing to, and passes its checks
and is no operation of the lattice unit past E (R315), and its checks of steps 1–5 pass. -/
abbrev KeeperRuns (o : Op) (p : Packet) (s : State) : Prop :=
  p.opcode = o.code ∧ s.plane.keeper.contains p = true ∧ replayShuts p s = false ∧ p.inFlight = false ∧ keeperReaches p s = true ∧
  ((timeless p = true ∧ atE p = false ∧ checkPacket o p s = none ∧ (latticeOp p.opcode = true → s.plane.tick ≤ dueTick false p s)) ∨
    (dueTick false p s = s.plane.tick ∧ inTurn p s = true)) ∧ checkPacket o p (release s p) = none

/-- A fast packet executes now and on time (R34, R79, R81, R82): it spells the opcode, the dispatcher holds it, no replay shuts it out, it is no member
of a flight, its tick is the present one and was named in time, its turn in it has come, fewer than eight have executed in the tick, and its
checks of steps 1–5 pass. -/
abbrev FastRuns (o : Op) (p : Packet) (s : State) : Prop :=
  p.opcode = o.code ∧ isWaiting s p = true ∧ replayShuts p s = false ∧ p.inFlight = false ∧ onTime p = true ∧ dueTick true p s = s.plane.tick ∧
  p.arrival.tick < s.plane.tick ∧ inTurn p s = true ∧ s.plane.execNow < 8 ∧ checkPacket o p (counted s p) = none

/-- The packet has completed with a status: its reply stands in the result stream under its tick, with the share of it that R30 takes (R30, R77). -/
def Completed (p : Packet) (st : Status) (s t : State) : Prop :=
  ResultItem.reply p.ring p.slot st.code (replyTick p s s.stamp) (shareOf p) ∈ t.plane.results

/-- The packet's reply stands in its slot (R77, R78): where the ring has a place for it and no replay hides it, the bytes of the slot behind the
header hold the reply's fields and 0 everywhere else. -/
def Replied (p : Packet) (s t : State) (r : Reply) : Prop :=
  Tbl.wf 0 s.mem = true → replyHidden p s = false →
    ∀ a, (s.ring p.ring).replyAddr p.slot (some p.arrival) = some a →
      memReadN t (a + 16) (replyBody ((s.ring p.ring).replySlots p) r).length = replyBody ((s.ring p.ring).replySlots p) r

/-- An event has been posted: where some ring takes it, it stands in the landing that leads to the event rings (R20, R97), from which its records and the
result stream take it when they are delivered (R30). -/
def Posted (s t : State) (e : Ev) : Prop :=
  eventRings s e ≠ [] → ∃ it ∈ (vget t.plane.landings 6).items, it.stamp = e.stamp ∧ it.hall = e.hall ∧ it.idx = e.idx ∧ it.events = [e]

/-- A hall has delivered an item (R20, R21): where its stream into the sense landing takes items, L0 holds an item with that stamp, the hall, its source
index, the point writes and the events. -/
def Delivered (s t : State) (stamp : Stamp) (h idx : Nat) (writes : List (Nat × PVal)) (events : List Ev) : Prop :=
  feedsL0 s h = true → ∃ it ∈ (vget t.plane.landings 0).items,
    it.stamp = stamp ∧ it.hall = h ∧ it.idx = idx ∧ it.writes = writes ∧ it.events = events.map fun e => { e with stamp := stamp, hall := h }

/-- A hall has observed something now: it is delivered with the hall's stamp offset (R21). -/
def Observed (s t : State) (h idx : Nat) (writes : List (Nat × PVal)) (events : List Ev) : Prop :=
  Delivered s t ⟨s.plane.epoch, s.wallTick + offsetOf h⟩ h idx writes events

/-- The packet hall has posted an event (R21, R23, R277): where its stream to the event rings has joined and no fault has dropped it, with the stamp of
the tick that it observes. -/
def PortPosted (s t : State) (kind address value : Nat) : Prop :=
  feedsFrom5 s 6 = true → Posted s t { s.ev 5 kind address value with stamp := s.wallStamp, idx := address }

/-- Stages 1 to 3 of the boot chain pass with keeper bank `b` (R328, R329, Table 13.6): it is the one in use and passes its checks, and no owner record is missing.
A TENTATIVE bank has boots left, and what the seal stood for until its BOOT_LEFT was written verifies (R60, R337). -/
abbrev KeeperBoots (s : State) (b : Nat) : Prop :=
  s.image.dead = false ∧ activeKeeper s = some b ∧ keeperPasses s b = true ∧ ownerMissing s = false ∧
  (bankIn s 1 4).all (fun c => (bank13 s c).bootLeft != 0 && bankVerifies (bank13 s b) Config.foldunKey &&
    (s.store.image.lifecycle != 2 || s.store.image.owner.any (ownerPasses s))) = true

/-- The device is awake (R58, R279): in Lantern or Beam with its tick hall running, READY, no reset, the keeper pair running and the power die out of HOLD. -/
abbrev AwakeNow (t : State) : Prop :=
  (t.seq.state = .lantern ∨ t.seq.state = .beam) ∧ t.plane.running = true ∧ t.seq.inReset = false ∧ t.seq.ready = true ∧ t.link.hold = false ∧
  t.image.dead = false

/-- The tick hall runs and no packet is on its way: none waits in the dispatcher or with the keeper, none stands whole at the head of its ring, no flight is
collected, no replay and no token poll runs, and no reset is asserted for the end of the tick. -/
abbrev PlaneQuiet (s : State) : Prop :=
  s.plane.running = true ∧ s.plane.replay = {} ∧ s.plane.waiting = [] ∧ s.plane.keeper = [] ∧
  (∀ r, r < 64 → (s.ring r).head = (s.ring r).tail ∧ (s.ring r).flights = []) ∧ s.access.poll = none ∧ s.seq.resetDue = []

/-- What a hall fault leaves where it asserts no reset (R26, Table 01.5): the hall's streams have left every landing and deliver nothing until it rejoins,
its bit of FAULT_SUMMARY is set, and HALL_FAULT is posted with the hall and the cause. -/
def HallFaulted (s t : State) (h cause : Nat) : Prop :=
  (vget t.plane.halls h).dropped = true ∧ feedsL0 t h = false ∧
  (∀ l, l < 10 → h ∈ landingInputs l → (vget (vget t.plane.landings l).streams h).joined = false) ∧
  t.plane.status.hallFault.testBit h = true ∧ t.plane.running = true ∧
  Posted s t { s.ev 3 0x0104 0 (h + 16 * cause) with stamp := s.wallStamp, idx := h }

/-- What a logic reset leaves (R63, R65, Tables 02.8 and 02.9): the reset stands with its cause, the plane is stopped, memory, points, rings, buses, the
cipher engine and the watch room are cleared, and the power die's channels, the field die, the capture records of the MRAM and the settings stay. -/
def LogicReset (s t : State) (cause : Nat) : Prop :=
  t.seq.inReset = true ∧ t.ret.cause.cause = cause ∧ t.plane.running = false ∧ t.mem = [] ∧ t.points = {} ∧ t.bus = {} ∧ t.cipher = {} ∧
  t.watch = {} ∧ (∀ r, r < 64 → (t.ring r).enabled = false) ∧ t.load = s.load ∧ t.link = s.link ∧ t.input.die = s.input.die ∧
  t.store.sys = (s.saved.getD (s.store, s.rtc)).1.sys ∧ t.store.load = (s.saved.getD (s.store, s.rtc)).1.load ∧ t.now = s.now

/-- A supply condition of bank D holds every half-bridge and both valve feeds, and none of them drives (R53, R55, R153, R173). -/
def HalfBridgesHeld (t : State) (cause : Nat) : Prop :=
  (∀ m, m < 12 → (hbOf t m).cond.holds.testBit cause = true ∧ (hbOf t m).drive = .coast) ∧
  (∀ f, f < 2 → (feedOf t f).cond.holds.testBit cause = true ∧ (feedOf t f).on = false)

/-- A channel has tripped (R130): it is off with its cause active, in its retry pause while retries are left, else locked. -/
def TrippedOff (s t : State) (ch cause : Nat) : Prop :=
  (chanOf t ch).driving = false ∧ (chanOf t ch).cond.active.testBit cause = true ∧
  ((chanOf s ch).retriesDone < (chanCfg s ch).retries →
    (chanOf t ch).retryAt = some (s.now + 800000) ∧ (chanOf t ch).retriesDone = (chanOf s ch).retriesDone + 1) ∧
  ((chanCfg s ch).retries ≤ (chanOf s ch).retriesDone → (chanOf t ch).cond.locks.testBit cause = true ∧ (chanOf t ch).retryAt = none)

/-- A ring holds one flight, and no other ring holds any. -/
abbrev OnlyFlight (s : State) (r : Nat) (f : Flight) : Prop := (s.ring r).flights = [f] ∧ ∀ k, k < 64 → k ≠ r → (s.ring k).flights = []

/-- Outside its window a motor's drive meets a condition of R156: with the trace, 800 drive ticks in a row have limited, it limited at the window's end, or
its stall time has passed without a ripple. -/
def StallSensed (s : State) (m : Nat) (trace : List LimitRun) : Prop :=
  800 ≤ limitCount trace (hbOf s m).limitTicks ∨ (hbOf s m).endLimiting = true ∨ ∃ w, (hbOf s m).stall = some w ∧ w.endAt s.now ≤ s.now

/-- A run has stopped with an end cause (R155): the motor brakes for BRAKE_MS, takes the value 0 then, and the run waits for the end of the brake. -/
def RunStopped (s t : State) (m cause : Nat) : Prop :=
  (hbOf t m).drive = .brake ∧ (hbOf t m).next = some 0 ∧ (hbOf t m).cmd = 0 ∧
  (hbOf t m).brakeEnds = s.now + (motorCfg s m).brakeMs * 8000 ∧ (hbOf t m).run.map (·.ended) = some (some cause)

/-- The instruction `w` has acted on valve `v` as Table 06.7 says: 0 END, 1 PEAK, 2 HOLD, 3 WAIT, 4 WAITI, 5 DIPWATCH, 6 WAITD, 7 WAITR, 8 BRANCH,
9 COUNT, 10 MARK. -/
def InstructionActs (s t : State) (v w mA : Nat) : Prop :=
  let x := valveOf s v
  let y := valveOf t v
  (vOp w = 0 → y.phase = .decay ∧ y.on = false ∧ y.status = 0 ∧ y.endAddr = x.pc ∧ y.claimHeld = false) ∧
  (vOp w ≠ 0 → y.phase = .running ∧ y.lastAt = some s.now ∧ (vOp w ≠ 8 → y.pc = (x.pc + 1) % 64)) ∧
  (vOp w = 1 → y.target = vI w ∧ y.fast = (vN w).testBit 0 ∧ y.peakPhase = true ∧ y.peakAt = s.now) ∧
  (vOp w = 2 → y.target = vI w ∧ y.fast = (vN w).testBit 0 ∧ y.peakPhase = false ∧ y.claimHeld = false) ∧
  (vOp w = 1 ∨ vOp w = 2 → (mA < vI w → x.cond.free = true → y.on = true) ∧ (vI w ≤ mA → y.on = false)) ∧
  (vOp w = 3 → y.waitOp = (if timedTicks (vN w) ≤ 1 then 0 else 3) ∧ (1 < timedTicks (vN w) → y.waitEnds = some (s.now + timedTicks (vN w)))) ∧
  (vOp w = 4 → y.waitOp = 4 ∧ y.waitMa = vI w ∧ y.waitEnds = some (s.now + timedTicks (vN w))) ∧
  (vOp w = 5 → y.dFlag = false ∧ y.dip = { armed := true, depth := vI w, samples := vN w % 256 }) ∧
  (vOp w = 6 → y.waitOp = 6 ∧ y.waitEnds = some (s.now + timedTicks (vN w))) ∧
  (vOp w = 7 → y.waitOp = 7 ∧ y.waitEnds = (if vN w = 0 then none else some (s.now + vN w * 8000))) ∧
  (vOp w = 8 → y.pc = (if branchTaken (bitsOf (vI w) 8 4) x then vN w % 64 else (x.pc + 1) % 64) ∧
    y.ctr = (if bitsOf (vI w) 8 4 = 5 then (x.ctr + 255) % 256 else x.ctr)) ∧
  (vOp w = 9 → y.ctr = vN w % 256) ∧
  (vOp w = 10 → Observed s t 7 (200 + v) [] [s.ev 7 0x0314 (firePoint v) (vN w % 256) true])

/-- The logbook takes a record without sealing or dropping anything first (R377, R381, R382): into the open segment `o`, or into a new one, in the ring or in the
emergency area. -/
def TakesRecord (s : State) (it : LogItem) (o : OpenSeg) (emergency : Bool) : Prop :=
  let l := s.store.log
  (l.opened = some o ∧ o.emergency = emergency ∧ o.recs.length < 256 ∧ (emergency = true → it.critical = true ∧ l.canOpen false = false)) ∨
  (l.opened = none ∧ o = { emergency := emergency, openedRtc := s.rtc.time } ∧ (emergency = false → l.canOpen false = true) ∧
    (emergency = true → it.critical = true ∧ l.canOpen false = false ∧ l.canOpen true = true))

/-- A record stands in the open segment with the next sequence number, chained to the record before it (R375–R377). -/
def Chained (s t : State) (it : LogItem) (o : OpenSeg) (emergency : Bool) (r : LogRec) : Prop :=
  t.store.log.opened = some { o with
    recs := r :: o.recs, criticalAt := if it.critical = true then some (o.criticalAt.getD s.now) else o.criticalAt } ∧
  r.type = it.type ∧ r.critical = it.critical ∧ r.comp = it.comp ∧ r.payload = it.payload ∧ r.emergency = emergency ∧ r.seq = s.store.log.nextSeq ∧
  r.rtc = s.rtc.time ∧ r.rtcInvalid = !s.rtc.valid ∧ r.stamp = logStamp s ∧
  r.chain = h16 (s.store.log.chain.getD chainStart ++ r.header ++ r.payload) ∧ t.store.log.chain = some r.chain ∧
  ResultItem.logBody s.stamp.tick it ∈ t.plane.results

/-- The open segment has been sealed for a reason, with its records, the end of its chain, and the signature of keeper slot 2 (R378–R380, Table 15.7). -/
def SealedFor (s t : State) (o : OpenSeg) (reason : Nat) : Prop :=
  t.store.log.opened = none ∧ t.store.log.seals = satAdd32 s.store.log.seals 1 ∧ ∃ g, t.store.log.segments.getLast? = some g ∧
    g.recs = o.recs.reverse ∧ g.emergency = o.emergency ∧ g.acked = false ∧ g.sealRec.reason = reason ∧ g.sealRec.records = o.recs.length ∧
    g.sealRec.rtc = s.rtc.time ∧ g.sealRec.stamp = logStamp s ∧ g.sealRec.signature = Config.sign (sealKey s) sealContext g.sealRec.body ∧
    (∀ r, o.recs.head? = some r → g.sealRec.endChain = r.chain ∧ t.store.log.lastSealed = some r.seq) ∧
    ∀ r, o.recs.getLast? = some r → g.sealRec.firstSeq = r.seq

/-- The settings of a store are in force (Table 02.9, R43). -/
def SettingsOf (t : State) (st : Store) : Prop :=
  t.store.sys = st.sys ∧ t.store.attrs = st.attrs ∧ t.store.rules = st.rules ∧ t.store.load = st.load ∧ t.store.motor = st.motor ∧
  t.store.light = st.light ∧ t.store.input = st.input ∧ t.store.sleep = st.sleep ∧ t.store.watch = st.watch

/-- Bytes that a packet has written stand in memory: where no trial runs, no replay hides its output (R43), and its own reply does not cover them. -/
def Wrote (p : Packet) (s t : State) (a : Nat) (l : List Byte) : Prop :=
  Tbl.wf 0 s.mem = true → trialRuns s = false → replyHidden p s = false →
    (∀ b, (s.ring p.ring).replyAddr p.slot (some p.arrival) = some b → b + 64 * (s.ring p.ring).replySlots p ≤ a ∨ a + l.length ≤ b) →
    memReadN t a l.length = l

/-- Bytes that a descriptor's segment has written stand in memory: where no trial runs and the descriptor itself, which completes, does not cover
them. -/
def SegmentWrote (r slot : Nat) (s t : State) (a : Nat) (l : List Byte) : Prop :=
  Tbl.wf 0 s.mem = true → trialRuns s = false →
    (∀ b, (s.ring r).replyAddr slot none = some b → b + 64 ≤ a ∨ a + l.length ≤ b) →
    (∀ j x, j < 16 → 32 + j ≠ r → (ctxOf s j).seg = some x →
      dOut x.bytes + 16 * blocksOf (dDataLen x.bytes) ≤ a ∨ a + l.length ≤ dOut x.bytes) → memReadN t a l.length = l

/-- The data of a segment that the engine has still to compute (R299, R305). -/
def dataLeft (s : State) (g : CryptoSeg) : List Byte := memReadN s (dData g.bytes + 16 * g.done) (dDataLen g.bytes - 16 * g.done)

/-- The packet rows whose opcode the keeper runs (Table 03.14), with the opcode and the packet. -/
def keeperRow : Instr → Option (Op × Packet)
  | .captureStart p => some (captureStartOp, p)
  | .captureStop p => some (captureStopOp, p)
  | .replayRun p => some (replayRunOp, p)
  | .sysInfo p => some (sysInfoOp, p)
  | .sysState p => some (sysStateOp, p)
  | .sysReset p => some (sysResetOp, p)
  | .sysConfig p => some (sysConfigOp, p)
  | .sysCharter p => some (sysCharterOp, p)
  | .loadConfig p => some (loadConfigOp, p)
  | .loadDiag p => some (loadDiagOp, p)
  | .loadUnlock p => some (loadUnlockOp, p)
  | .loadFailstate p => some (loadFailstateOp, p)
  | .loadShed p => some (loadShedOp, p)
  | .motorConfig p => some (motorConfigOp, p)
  | .motorPos p => some (motorPosOp, p)
  | .valveProg p => some (valveProgOp, p)
  | .valveConfig p => some (valveConfigOp, p)
  | .valveTrace p => some (valveTraceOp, p)
  | .pointType p => some (pointTypeOp, p)
  | .stringConfig p => some (stringConfigOp, p)
  | .patternLoad p => some (patternLoadOp, p)
  | .ivgalConfig p => some (ivgalConfigOp, p)
  | .ivgalDiag p => some (ivgalDiagOp, p)
  | .reflexLoad p => some (reflexLoadOp, p)
  | .reflexEnable p => some (reflexEnableOp, p)
  | .reflexStats p => some (reflexStatsOp, p)
  | .inputConfig p => some (inputConfigOp, p)
  | .fieldConfig p => some (fieldConfigOp, p)
  | .fieldStatus p => some (fieldStatusOp, p)
  | .canConfig p => some (canConfigOp, p)
  | .canFilter p => some (canFilterOp, p)
  | .canStatus p => some (canStatusOp, p)
  | .canSigmap p => some (canSigmapOp, p)
  | .linConfig p => some (linConfigOp, p)
  | .linSchedule p => some (linScheduleOp, p)
  | .ethConfig p => some (ethConfigOp, p)
  | .ethSecure p => some (ethSecureOp, p)
  | .ethStatus p => some (ethStatusOp, p)
  | .ethTime p => some (ethTimeOp, p)
  | .nmConfig p => some (nmConfigOp, p)
  | .nmRequest p => some (nmRequestOp, p)
  | .nmRelease p => some (nmReleaseOp, p)
  | .nmStatus p => some (nmStatusOp, p)
  | .xcvrState p => some (xcvrStateOp, p)
  | .keyWrite p => some (keyWriteOp, p)
  | .keyErase p => some (keyEraseOp, p)
  | .keyInfo p => some (keyInfoOp, p)
  | .keyDerive p => some (keyDeriveOp, p)
  | .keyUnwrap p => some (keyUnwrapOp, p)
  | .sign p => some (signOp, p)
  | .verify p => some (verifyOp, p)
  | .hash p => some (hashOp, p)
  | .imageBegin p => some (imageBeginOp, p)
  | .imageData p => some (imageDataOp, p)
  | .imageEnd p => some (imageEndOp, p)
  | .imageTrial p => some (imageTrialOp, p)
  | .imageCommit p => some (imageCommitOp, p)
  | .imageRevert p => some (imageRevertOp, p)
  | .attest p => some (attestOp, p)
  | .debugUnlock p => some (debugUnlockOp, p)
  | .accessConfig p => some (accessConfigOp, p)
  | .accessPoll p => some (accessPollOp, p)
  | .accessStatus p => some (accessStatusOp, p)
  | .tokenEnroll p => some (tokenEnrollOp, p)
  | .tokenRevoke p => some (tokenRevokeOp, p)
  | .tokenList p => some (tokenListOp, p)
  | .releaseConfig p => some (releaseConfigOp, p)
  | .logAppend p => some (logAppendOp, p)
  | .logRead p => some (logReadOp, p)
  | .logExportAck p => some (logExportAckOp, p)
  | .logSeal p => some (logSealOp, p)
  | .timeSet p => some (timeSetOp, p)
  | .timeGet p => some (timeGetOp, p)
  | .watchConfig p => some (watchConfigOp, p)
  | .watchGrant p => some (watchGrantOp, p)
  | .watchSnap p => some (watchSnapOp, p)
  | _ => none

/-- The packet rows of the fast opcodes (Table 03.14), with the opcode and the packet. -/
def fastRow : Instr → Option (Op × Packet)
  | .sysNop p => some (sysNopOp, p)
  | .sysTick p => some (sysTickOp, p)
  | .loadSet p => some (loadSetOp, p)
  | .motorRun p => some (motorRunOp, p)
  | .valveFire p => some (valveFireOp, p)
  | .pointWrite p => some (pointWriteOp, p)
  | .pointRead p => some (pointReadOp, p)
  | .patternRun p => some (patternRunOp, p)
  | .canSend p => some (canSendOp, p)
  | .canCancel p => some (canCancelOp, p)
  | .linSend p => some (linSendOp, p)
  | _ => none

/-- The voltage in mV that a supply command names. -/
def suppliedMv : Instr → Option Nat
  | .firstPowerUp v => some v
  | .vbatlBelowWarn v => some v
  | .vbatlAboveWarn v => some v
  | .vbatlLogicReset v => some v
  | .logicResetRelease v => some v
  | .vbatlColdReset v => some v
  | .powerDieStart v => some v
  | .bankBelowWarn _ v => some v
  | .bankWarnRecovery _ v => some v
  | .shedCountExpiry _ _ v => some v
  | .shedRecovery _ _ v => some v
  | .bankDropout _ v => some v
  | .dropoutRecovery _ v => some v
  | .bankOvervolt _ v => some v
  | .overvoltRecovery _ v => some v
  | .diagnosisLimit _ v => some v
  | .bankDip _ v => some v
  | .voltagePointRewrite _ v => some v
  | _ => none

/-- A command keeps the ratings of the supplies: the voltage it names is at most 58 V (R1, Table 02.3). -/
def withinRatings (c : Instr) : Prop := ∀ v, suppliedMv c = some v → v ≤ 58000

/-- A packet executes now, in the state `u`: as a keeper packet whose E is the present tick (R35), or as a fast packet in its tick (R34, R82). -/
def ExecutesNow (c : Instr) (o : Op) (p : Packet) (s u : State) : Prop :=
  (keeperRow c = some (o, p) ∧ KeeperRuns o p s ∧ u = release s p) ∨ (fastRow c = some (o, p) ∧ FastRuns o p s ∧ u = counted s p)

/-- An address lies in a slot of some enabled ring. -/
def inRing (s : State) (a : Nat) : Prop :=
  ∃ r, r < 64 ∧ (s.ring r).base ≤ a ∧ a < (s.ring r).base + 64 * (s.ring r).size

/-- The event rows that write memory only as records of device rings: marks of a capture on ring 63 (R37, R40), the packets of a command frame on ring
31 (R95) and dump records on rings 60 and 61 (R391). -/
def writesSlotsOnly : Instr → Bool
  | .captureCheckpoint => true
  | .commandFrame _ _ => true
  | .watchDump _ => true
  | _ => false

end Sys2Proof.Claims
end

