-- ==== Sys2Proof/Certificates/Slice0/Obligations.lean ====
section
/-! DEFINITION. The statements for the provers. -/

open Sys2Proof Sys2Proof.Machine Sys2Proof.Claims

/-- The model's own queue (log entry 2): for every command c and state s, the step of s with c at the front of its queue is exec of c on s with
the rest of the queue; with an empty queue the block idles and the state stays. -/
def Obligations.StepTakesFrontCommand : Prop :=
  ∀ (c : Instr) (rest : List Instr) (s : State),
    step { s with pending := c :: rest } = exec c { s with pending := rest } ∧
    (s.pending = [] → step s = .next s)

/-- The model's own queue (log entry 2): a step that answers a next state has taken exactly the front command, and no command adds to, drops from
or reorders the commands that wait. -/
def Obligations.CommandsLeaveTheQueue : Prop :=
  ∀ (c : Instr) (rest : List Instr) (s t : State), s.pending = c :: rest → step s = .next t → t.pending = rest

/-- R1 with Table 02.3 (the choice of a fault there is the model's, log entry 14): a command that keeps the ratings of the supplies answers a next
state from every state, and one that names more than 58 V answers the fault outsideRatings. -/
def Obligations.OnlyRatingsStopCommands : Prop :=
  ∀ (c : Instr) (s : State), (withinRatings c → ∃ t, exec c s = .next t) ∧
    (∀ v, suppliedMv c = some v → 58000 < v → exec c s = .fault .outsideRatings)

/-- From every state, a queue of n commands that keep the ratings of the supplies (R1) runs to its end in n steps, whatever the commands are:
no command stops the run, and the queue is empty then. -/
def Obligations.RatedQueuesRunToTheirEnd : Prop :=
  ∀ s : State, (∀ c ∈ s.pending, withinRatings c) →
    ∃ t, Sys2Proof.core.run s.pending.length s = .next t ∧ t.pending = []

/-- State.reset, the machine before VBATL rises: no hall has power, the tick hall does not run, tick and epoch are 0, every ring is disabled with
HEAD equal to TAIL (Table 03.2), outputs do not drive, the delivered settings of Tables 05.4, 05.14 and 02.5 stand, no poll and no session is
open, and memory lists nothing. The values that no table gives are the model's choice (log entry 1). -/
def Obligations.ResetStateIsBare : Prop :=
  State.reset.plane.running = false ∧ State.reset.plane.tick = 0 ∧ State.reset.plane.epoch = 0 ∧ State.reset.seq.powered = false ∧
  State.reset.seq.state = .dark ∧ State.reset.pending = [] ∧ State.reset.mem = [] ∧ State.reset.access.poll = none ∧
  State.reset.access.session = none ∧ State.reset.store.sys.vbatlWarn = 80 ∧ State.reset.ret.hold = 20 ∧ State.reset.ret.cause.cause = 1 ∧
  (∀ h, h < 9 → (vget State.reset.plane.halls h).on = false) ∧
  (∀ r, r < 64 → (State.reset.ring r).enabled = false ∧ (State.reset.ring r).head = (State.reset.ring r).tail) ∧
  (∀ c, c < 56 → (chanOf State.reset c).driving = false ∧ (vget State.reset.store.load.ch c).inrushMs = 10) ∧
  (∀ c, c < 8 → (vget State.reset.store.can.mode c).op = 0)

/-- The memory of State is a list of addresses and bytes in one canonical form: addresses strictly rise and no listed byte is 0, what an unlisted
byte reads as (log entry 7). Every step keeps it, whatever the command and the state. -/
def Obligations.MemoryStaysCanonical : Prop :=
  ∀ s t : State, Tbl.wf 0 s.mem = true → step s = .next t → Tbl.wf 0 t.mem = true

/-- State.reset's memory has the canonical form. -/
def Obligations.ResetMemoryIsCanonical : Prop := Tbl.wf 0 State.reset.mem = true

/-- The frame of the 89 packet rows: a packet row that answers a next state leaves every part of State outside its footprint as it was: all
of memory but rings, replies and what the opcode writes, every die, every part of the store and of the plane that the opcode does not name (Safety.footprint). -/
def Obligations.FrameOfPacketRows : Prop :=
  ∀ (c : Instr) (s t : State), ((keeperRow c).isSome ∨ (fastRow c).isSome ∨ (∃ p, c = .ivgalEnum p ∨ c = .unknownOpcode p)) →
    exec c s = .next t → ∀ x : Part, x ∉ footprint c → x.same s t

/-- The frame of the 207 event rows: an event that answers a next state leaves every part of State outside its footprint as it was: registers,
stores, dies and queues of the other units, and all of memory where its footprint has no memory (Safety.footprint). -/
def Obligations.FrameOfEventRows : Prop :=
  ∀ (c : Instr) (s t : State), keeperRow c = none → fastRow c = none → exec c s = .next t →
    ∀ x : Part, x ∉ footprint c → x.same s t

/-- R37, R38, R95, R391: the copy of a command frame's packets and a dump record write memory only in the slots of the rings, and a CHECKPOINT mark of a
capture, which waits in L9, no other byte; the slots of ring r are the 64 · 2^SIZE_LOG2 bytes from its BASE. Every other event row that writes memory completes packets in their slots
or writes what the cipher engine computes, and most write none (Safety.footprint). -/
def Obligations.EventsWriteSlotsOnly : Prop :=
  ∀ (c : Instr) (s t : State) (a : Nat), writesSlotsOnly c = true → exec c s = .next t → ¬ inRing s a → memRead t a = memRead s a

/-- R76–R79 for every packet row: a packet that executes now, whose opcode answers a status or is refused with one, completes with that status; where its
ring is enabled and keeps it and no replay hides it, the first 16 bytes of its slot hold STATUS, the flags with DONE, SLOTS, TAG and DONE_TICK,
and the body behind them the reply; outside a trial no byte outside the packet's slots is written by the completion. -/
def Obligations.PacketsCompleteInTheirSlots : Prop :=
  ∀ (c : Instr) (o : Op) (p : Packet) (s u : State) (st : Status), ExecutesNow c o p s u → o.agree p u (o.run p u).s = true →
    (carryOut o p u).st = some st →
    ∃ t, exec c s = .next t ∧ Completed p st s t ∧
      (Tbl.wf 0 (carryOut o p u).s.mem = true → replyHidden p (carryOut o p u).s = false →
        ∀ a, ((carryOut o p u).s.ring p.ring).replyAddr p.slot (some p.arrival) = some a →
          memReadN t a 16 = replyHeader p st (carryOut o p u).s.stamp ∧
          memReadN t (a + 16) (replyBody (((carryOut o p u).s.ring p.ring).replySlots p) (carryOut o p u).reply).length =
            replyBody (((carryOut o p u).s.ring p.ring).replySlots p) (carryOut o p u).reply) ∧
      (trialRuns (carryOut o p u).s = false →
        ∀ b, (∀ a, ((carryOut o p u).s.ring p.ring).replyAddr p.slot (some p.arrival) = some a →
            b < a ∨ a + 64 * max 1 (((carryOut o p u).s.ring p.ring).replySlots p) ≤ b) →
          memRead t b = memRead (carryOut o p u).s b)

/-- R34, R35, R82, R83: an admitted packet outside a flight whose tick has not come waits, and nothing but the list that holds it changes: a fast
packet in the dispatcher, a keeper packet with effects at E with the keeper, marked as finished where the keeper has finished those before it. A fast packet at the head of its ring that L1
has released is admitted: it is outstanding in its ring and waits, where fewer than 1,024 do. -/
def Obligations.PacketsWaitForTheirTick : Prop :=
  (∀ (c : Instr) (o : Op) (p : Packet) (s : State), fastRow c = some (o, p) → p.opcode = o.code → p.inFlight = false → replayShuts p s = false →
    s.plane.tick < readyTick p s → isWaiting s p = true → exec c s = .next s) ∧
  (∀ (c : Instr) (o : Op) (p : Packet) (s : State), fastRow c = some (o, p) → p.opcode = o.code → p.inFlight = false →
    s.plane.replay.running = false → s.plane.tick < readyTick p s → isHeld s p = false → mayAdmit p s = true → s.plane.waiting.length < 1024 →
    ∃ t, exec c s = .next t ∧ isWaiting t p = true ∧ ((t.ring p.ring).admitted.any fun a => a.slot == p.slot && !a.done) = true ∧
      ∀ x, x ∉ [Part.planeWaiting, .planeRings] → x.same s t) ∧
  (∀ (c : Instr) (o : Op) (p : Packet) (s : State), keeperRow c = some (o, p) → p.opcode = o.code → p.inFlight = false → replayShuts p s = false →
    timeless p = false → s.plane.tick < dueTick false p s → s.plane.keeper.contains p = true → keeperReaches p s = true →
    ∃ t, exec c s = .next t ∧ t.plane.keeper = s.plane.keeper ∧ t.plane.finished.contains p = true ∧
      ∀ x, x ≠ Part.planeFinished → x.same s t)

/-- R79, R81: a keeper packet whose turn has come in its tick E and whose checks of steps 1 to 5 fail completes with the status of the first check that
fails, and with no effect but its ring, its reply and the queues. -/
def Obligations.RejectedPacketsApplyNothing : Prop :=
  ∀ (c : Instr) (o : Op) (p : Packet) (s : State) (st : Status), keeperRow c = some (o, p) → p.opcode = o.code →
    s.plane.keeper.contains p = true → replayShuts p s = false → p.inFlight = false → keeperReaches p s = true →
    dueTick false p s = s.plane.tick → inTurn p s = true → checkPacket o p (release s p) = some st →
    ∃ t, exec c s = .next t ∧ Completed p st s t ∧
      ∀ x, x ∉ replyParts ++ [.planeWaiting, .planeKeeper, .planeFinished, .planeTurn] → x.same s t

/-- R34, R35, R82: a fast packet that executes after its tick, and a keeper packet that takes effect after E, complete S_LATE whatever status they would
give, and the LATE bit of the device status block is set; for the fast packet LATE_EXEC is posted with the number of ticks. -/
def Obligations.LatePacketsAnswerLate : Prop :=
  (∀ (c : Instr) (o : Op) (p : Packet) (s : State) (st : Status), fastRow c = some (o, p) → p.opcode = o.code → isWaiting s p = true →
    p.inFlight = false → replayShuts p s = false → readyTick p s ≤ s.plane.tick → inTurn p s = true → dueTick true p s < s.plane.tick →
    s.plane.execNow < 8 → checkPacket o p (counted s p) = none → o.agree p (counted s p) (o.run p (counted s p)).s = true →
    (carryOut o p (counted s p)).st = some st →
    ∃ t, exec c s = .next t ∧ Completed p .late s t ∧ t.plane.status.late = true ∧
      Posted s t { stamp := s.stamp, idx := p.order, address := p.place, hall := p.hall, comp := p.comp
                   value := sat16 (s.plane.tick - dueTick true p s), kind := 0x0105
                   replayed := replyHidden p (carryOut o p (counted s p)).s }) ∧
  (∀ (c : Instr) (o : Op) (p : Packet) (s : State) (st : Status), keeperRow c = some (o, p) → p.opcode = o.code →
    s.plane.keeper.contains p = true → p.inFlight = false → replayShuts p s = false → timeless p = false → keeperReaches p s = true →
    inTurn p s = true → dueTick false p s < s.plane.tick → checkPacket o p (release s p) = none → o.agree p (release s p) (o.run p (release s p)).s = true →
    (carryOut o p (release s p)).st = some st →
    ∃ t, exec c s = .next t ∧ Completed p .late s t ∧ t.plane.status.late = true)

/-- R15, R16, R66: a tick of a running tick hall with no packet on its way counts one in the tick hall's own count, in the count of every hall that
has power and on the clock of the dies, and the frame of the internal link carries the new tick. R17: the loss of the crystal switches to the RC
reference, sets CLOCK_LOSS and posts it. -/
def Obligations.TicksAndCrystalLossCount : Prop :=
  (∀ s, PlaneQuiet s → s.wallTick + 1 < 2 ^ 48 →
    ∃ t, exec .tick s = .next t ∧ t.now = s.now + 1 ∧ t.wallTick = s.wallTick + 1 ∧ t.plane.epoch = s.plane.epoch ∧ t.plane.running = true ∧
      t.plane.frame.lin = s.wallLin + 1 ∧
      ∀ h, h < 9 → (vget s.plane.halls h).on = true → (vget t.plane.halls h).count = (vget s.plane.halls h).count + 1) ∧
  (∀ s, s.plane.running = true → s.plane.rcClock = false →
    ∃ t, exec .crystalLoss s = .next t ∧ t.plane.rcClock = true ∧ t.plane.status.clockLoss = true ∧ t.plane.tick = s.plane.tick ∧
      Posted s t { s.ev 3 0x0106 0 0 with stamp := s.wallStamp })

/-- R18: an epoch starts at tick 0 with the next epoch number, 1 to 65,535, committed to the store, and EPOCH_START is posted with it; the rollover at the
end of tick 2^48 − 1 leaves the device state as it is, and entry to Beam from Lantern makes the state Beam with READY. No packet is on its way, and at
the entry no TENTATIVE bank counts down. -/
def Obligations.EpochsStartAtTickZero : Prop :=
  (∀ s, PlaneQuiet s → s.wallTick = 2 ^ 48 - 1 →
    ∃ t, exec .epochRollover s = .next t ∧ t.plane.tick = 0 ∧ t.plane.epoch = nextEpoch s.store.epoch ∧ t.store.epoch = t.plane.epoch ∧
      1 ≤ t.plane.epoch ∧ t.plane.epoch ≤ 65535 ∧ t.seq.state = s.seq.state ∧
      Posted t t { s.ev 3 0x0103 0 t.plane.epoch with stamp := ⟨t.plane.epoch, 0⟩ }) ∧
  (∀ s, PlaneQuiet s → s.seq.state = .lantern → s.sleep.target = some 3 → s.sleep.pairStopAt = none →
    s.seq.inReset = false → s.image.bootFail = 0 → bankIn s 2 4 = none →
    ∃ t, exec .beamEntry s = .next t ∧ t.plane.tick = 0 ∧ t.plane.epoch = nextEpoch s.store.epoch ∧ t.store.epoch = t.plane.epoch ∧
      t.seq.state = .beam ∧ t.seq.ready = true ∧ t.sleep.target = none)

/-- R19–R21, R23, R24: a progress report that a hall may give moves its stream's progress to the tick reported, and never back, and no other stream's; a
landing behind the output stage whose joined inputs have all reported its next tick, which has passed, releases it, and L0 and L1 do once the tick hall
acts on a later tick, until the device commit tick (R283); L0, L6 and L9 keep only the items of later ticks. -/
def Obligations.LandingsProgressAndRelease : Prop :=
  (∀ l h n s, l < 10 → h < 9 → mayReport s l h n = true →
    ∃ t, exec (.progressReport l h n) s = .next t ∧
      (vget (vget t.plane.landings l).streams h).progress = max (vget (vget s.plane.landings l).streams h).progress (n + 1) ∧
      ∀ k g, (k, g) ≠ (l, h) → vget (vget t.plane.landings k).streams g = vget (vget s.plane.landings k).streams g) ∧
  (∀ l n s, s.plane.running = true → l < 10 → n = (vget s.plane.landings l).released → n < s.wallTick → landingReady s l n = true →
    (2 ≤ l ∨ (n < s.plane.tick ∧ s.sleep.darkCommit = none)) →
    ∃ t, exec (.landingRelease l n) s = .next t ∧ (vget t.plane.landings l).released = n + 1 ∧
      (l ∈ [0, 6, 9] → ∀ x ∈ (vget t.plane.landings l).items, x.stamp.epoch = s.plane.epoch ∧ n < x.stamp.tick))

/-- R23, R26: the streams of a hall without power leave every landing; a hall that runs joins them in a tick that is a multiple of 256, at that
tick with the stamp offset of Table 01.3, and a fault of an earlier time is over (H7 waits for its retrain). -/
def Obligations.HallsLeaveAndJoinLandings : Prop :=
  (∀ h s, h < 9 → s.plane.running = true → (vget s.plane.halls h).on = false →
    ∃ t, exec (.hallLeave h) s = .next t ∧
      ∀ l, l < 10 → h ∈ landingInputs l → (vget (vget t.plane.landings l).streams h).joined = false) ∧
  (∀ h s, h < 9 → s.plane.running = true → (vget s.plane.halls h).on = true → s.wallTick % 256 = 0 →
    ¬ (h = 7 ∧ (vget s.plane.halls h).dropped = true) →
    ∃ t, exec (.hallJoin h) s = .next t ∧ (vget t.plane.halls h).count = s.wallTick ∧ (vget t.plane.halls h).dropped = false ∧
      ∀ l, l < 10 → h ∈ landingInputs l → (vget (vget t.plane.landings l).streams h).joined = true ∧
        (vget (vget t.plane.landings l).streams h).progress = s.wallTick + streamOffset l h)

/-- R16, R24, R26 and Table 01.5: a hall whose count disagrees with a sync word (cause 2), or one of whose streams lags by more than 64 ticks (cause 1), is
faulted: the streams of H0, H2 and H4 to H7 leave every landing and what they send is discarded until the hall rejoins, FAULT_SUMMARY holds the hall,
and HALL_FAULT is posted; a fault of H1 or H3 asserts a logic reset with cause 5 or 6. -/
def Obligations.HallFaultsDropOrReset : Prop :=
  (∀ h s, s.plane.running = true → hallRuns s h = true → s.seq.inReset = false → s.wallTick % 256 = 0 → h ∈ [0, 2, 4, 5, 6, 7] →
    ∃ t, exec (.hallTokenMismatch h) s = .next t ∧ HallFaulted s t h 2) ∧
  (∀ h s, s.plane.running = true → hallRuns s h = true → s.seq.inReset = false → s.wallTick % 256 = 0 → h ∈ [1, 3] →
    ∃ t, exec (.hallTokenMismatch h) s = .next t ∧ LogicReset s t (if h = 1 then 5 else 6)) ∧
  (∀ h s, s.plane.running = true → hallRuns s h = true → s.seq.inReset = false → lagsTooFar s h = true → readerFeeds s h = false →
    h ∈ [0, 2, 4, 5, 6, 7] → ∃ t, exec (.hallLagFault h) s = .next t ∧ HallFaulted s t h 1) ∧
  (∀ h s, s.plane.running = true → hallRuns s h = true → s.seq.inReset = false → lagsTooFar s h = true → readerFeeds s h = false →
    h ∈ [1, 3] → ∃ t, exec (.hallLagFault h) s = .next t ∧ LogicReset s t (if h = 1 then 5 else 6))

/-- R20, R37, R38, R40, Tables 01.11–01.13: CAPTURE.START without START_NOW arms the capture with the classes, compartments, sink and interval of its
fields, with START_NOW it starts one at once whose area begins with the START mark, and both complete S_OK with the start tick; CAPTURE.STOP
disarms an armed capture, and of a running one puts the STOP mark of reason 1 with the result digest into L9; at a CHECKPOINT-th tick of a running
capture the CHECKPOINT mark with the result digest enters L9. L9 gives a record that stands alone in it to the sink that has room: it is the newest record
of the capture area, or goes to ring 63; the STOP mark ends the capture, and with it CAPTURE.STOP completes. -/
def Obligations.CapturesArmStopAndMark : Prop :=
  (∀ p s, KeeperRuns captureStartOp p s → s.store.capArm.armed = false → s.plane.capture.running = false → s.plane.replay.running = false →
    trialRuns s = false → p.bit 16 0 = false →
    ∃ t, exec (.captureStart p) s = .next t ∧ Completed p .ok s t ∧ Replied p s t [(16, 8, 0)] ∧ t.plane.capture = s.plane.capture ∧
      t.store.capArm =
        { armed := true, sink63 := p.bit 16 1, wrap := p.bit 16 2, classMask := p.num 18 2, cmdMask := p.num 20 2, interval := p.num 24 4 }) ∧
  (∀ p s, KeeperRuns captureStartOp p s → s.store.capArm.armed = false → s.plane.capture.running = false → s.plane.replay.running = false →
    trialRuns s = false → p.bit 16 0 = true → p.bit 16 1 = false → p.bit 16 2 = true →
    ∃ t, exec (.captureStart p) s = .next t ∧ Completed p .ok s t ∧ Replied p s t [(16, 8, s.stamp.word)] ∧ t.plane.capture.running = true ∧
      t.plane.capture.startLin = s.plane.lin ∧ t.plane.capture.classMask = p.num 18 2 ∧ t.plane.capture.interval = p.num 24 4 ∧
      t.plane.capture.area = [markRecord s 1 (p.num 18 2 + 2 ^ 16 * p.num 20 2) (startPayload s (p.num 24 4))]) ∧
  (∀ p s, KeeperRuns captureStopOp p s → s.plane.capture.running = false →
    ∃ t, exec (.captureStop p) s = .next t ∧ Completed p .ok s t ∧ t.store.capArm = {} ∧ t.plane.capture = s.plane.capture) ∧
  (∀ p s, KeeperRuns captureStopOp p s → s.plane.capture.running = true → s.plane.capture.closing = false →
    ∃ t, exec (.captureStop p) s = .next t ∧ t.plane.capture.running = true ∧ t.plane.capture.closing = true ∧
      t.plane.capture.stopPacket = some (p, s.stamp, runningDigest (release s p)) ∧ t.store.capArm = s.store.capArm ∧
      ∃ it ∈ (vget t.plane.landings 9).items, it.stamp = s.stamp ∧ it.caps = [markRecord s 2 1 (runningDigest (release s p))]) ∧
  (∀ s, s.plane.capture.running = true → s.plane.capture.closing = false → 0 < s.plane.capture.interval →
    s.plane.capture.checkLin < s.plane.lin → (s.plane.lin - s.plane.capture.startLin) % s.plane.capture.interval = 0 →
    ∃ t, exec .captureCheckpoint s = .next t ∧ t.plane.capture.checkLin = s.plane.lin ∧ t.plane.results = s.plane.results ∧
      ∃ it ∈ (vget t.plane.landings 9).items, it.stamp = s.stamp ∧ it.caps = [markRecord s 3 0 (runningDigest s)]) ∧
  (∀ n s it r, s.plane.running = true → n = (vget s.plane.landings 9).released → n < s.wallTick → landingReady s 9 n = true →
    (vget s.plane.landings 9).items = [it] → it.caps = [r] → it.stamp.epoch = s.plane.epoch → it.stamp.tick ≤ n →
    s.plane.capture.running = true → s.plane.capture.gapDue = 0 →
    (s.plane.capture.sink63 = false →
      (s.plane.capture.wrap = true ∨ s.plane.capture.areaBytes + r.size + (if isStopMark r then 0 else 48) ≤ captureArea) →
      ∃ t, exec (.landingRelease 9 n) s = .next t ∧ t.plane.capture.area.getLast? = some r ∧
        t.plane.capture.records = s.plane.capture.records + 1 ∧ t.plane.capture.running = !isStopMark r ∧
        (isStopMark r = true → t.plane.capture.stopped = true ∧ t.plane.capture.stopPacket = none ∧
          ∀ p stop digest, s.plane.capture.stopPacket = some (p, stop, digest) → Completed p .ok s t)) ∧
    (∀ l, isStopMark r = false → s.plane.capture.sink63 = true → l = s.plane.capture.tailBytes ++ r.encode → (s.ring 63).size ≠ 0 →
      (s.plane.capture.tailBytes.length + r.size) / 64 ≤ (s.ring 63).room →
      ∃ t, exec (.landingRelease 9 n) s = .next t ∧ t.plane.capture.records = s.plane.capture.records + 1 ∧
        t.plane.capture.tailBytes = l.drop (64 * (l.length / 64)) ∧
        (t.ring 63).tail = ((s.ring 63).tail + l.length / 64) % (s.ring 63).size))

/-- R42–R45: REPLAY.RUN with the host as its source waits for the START mark and stays S_PENDING; with the capture area as its source and
digests that differ it completes S_CONFLICT and nothing is replayed, and with equal ones the replay begins in a new epoch on a view of the store. The
reader feeds a POINT record whose stamp has come into the sense landing under its recorded tick and the source index of its point (R42, R106). A replay ends with its end condition, and a
live one when the reader lags by more than 64 ticks: the part's own settings come back. -/
def Obligations.ReplaysBeginFeedAndEnd : Prop :=
  (∀ p s, KeeperRuns replayRunOp p s → s.plane.capture.running = false → s.plane.replay.running = false → trialRuns s = false →
    p.bit 16 0 = true →
    ∃ t, exec (.replayRun p) s = .next t ∧ t.plane.replay.running = true ∧ t.plane.replay.fromHost = true ∧ t.plane.replay.begun = false ∧
      t.plane.replay.live = p.bit 16 1 ∧ t.plane.replay.packet = p ∧ t.plane.replay.runTicks = p.num 20 4 ∧ t.plane.results = s.plane.results ∧
      t.store = s.store ∧ (t.ring 63).head = (t.ring 63).tail) ∧
  (∀ p r rest s, KeeperRuns replayRunOp p s → s.plane.capture.running = false → s.plane.replay.running = false → trialRuns s = false →
    p.bit 16 0 = false → s.plane.capture.area = r :: rest → isStart r = true → r.payload.take 128 ≠ startDigests s →
    ∃ t, exec (.replayRun p) s = .next t ∧ Completed p .conflict s t ∧ t.plane.replay = {} ∧ t.store = s.store) ∧
  (∀ p r rest s, KeeperRuns replayRunOp p s → s.plane.capture.running = false → s.plane.replay.running = false → trialRuns s = false →
    p.bit 16 0 = false → s.plane.capture.area = r :: rest → isStart r = true → r.payload.take 128 = startDigests s → s.plane.running = true →
    s.seq.resetDue = [] → s.seq.inReset = false → s.image.bootFail = 0 → bankIn s 2 4 = none →
    ∃ t, exec (.replayRun p) s = .next t ∧ t.plane.replay.running = true ∧ t.plane.replay.begun = true ∧ t.plane.replay.rest = rest ∧
      t.plane.replay.records = 1 ∧ t.plane.tick = 0 ∧ t.plane.epoch = nextEpoch s.store.epoch ∧ t.saved.isSome = true) ∧
  (∀ r rest s, s.plane.replay.running = true → s.plane.replay.stopRead = false → s.plane.replay.begun = true →
    s.plane.replay.fromHost = false → s.plane.replay.rest = r :: rest → recordBad r = false → r.cls = 1 → r.stamp.tick ≤ s.plane.tick →
    ∃ t, exec .replayRecordRead s = .next t ∧ t.plane.replay.rest = rest ∧ t.plane.replay.records = s.plane.replay.records + 1 ∧
      (vget t.plane.landings 0).items = landInsert
        { stamp := ⟨s.plane.epoch, r.stamp.tick⟩, hall := r.hall, idx := pointIndex (r.word % 2 ^ 19)
          writes := [(r.word % 2 ^ 19, BitVec.ofNat 16 r.value)]
          events := (pointEvents (takeRecord s r 0) (r.word % 2 ^ 19) (BitVec.ofNat 16 r.value)).1.map fun e =>
            { e with stamp := ⟨s.plane.epoch, r.stamp.tick⟩ } }
        (vget s.plane.landings 0).items) ∧
  (∀ r n lag s, nextRecord s = some (r, n) → s.plane.replay.running = true → s.plane.replay.begun = true → s.plane.replay.live = true →
    64 < lag → r.stamp.tick + lag = s.wallTick →
    ∃ t, exec (.replayReaderLag lag) s = .next t ∧ t.plane.replay.running = false ∧ t.saved = none ∧
      ∀ x, s.saved = some x → SettingsOf t x.1) ∧
  (∀ s, replayDone s = true → ∃ t, exec .replayEnd s = .next t ∧ t.plane.replay.running = false ∧ t.saved = none ∧
    ∀ x, (finishTick s).saved = some x → SettingsOf t x.1)

/-- R49–R51: below WARN, SUPPLY_WARN is set with its point and event, and where the tick hall runs the warning is on its way to the keeper through L5, under
the offset of the always-on hall (R21); with its release the open segment of the logbook is to close with reason 4; 0.5 V above WARN it ends; below 5.5 V a logic reset with cause 2 is asserted, and a reset that stands waits for the supply again; above 6.0 V it is
released; below 4.5 V the core of the power die stops, the outputs are off and a cold reset follows; above 5.0 V the core starts. The 2 ms and the
measured voltage are the command's. -/
def Obligations.VbatlThresholdsAct : Prop :=
  (∀ mv s, mv ≤ 58000 → s.seq.powered = true → s.seq.warn = false → mv < 100 * s.store.sys.vbatlWarn →
    ∃ t, exec (.vbatlBelowWarn mv) s = .next t ∧ t.seq.warn = true ∧ t.seq.vbatl = mv ∧
      Observed s t 0 (statusIx 41) [(supplyWarnPoint, 1)] [s.ev 0 0x0107 vbatlPoint (mv / 10) true] ∧
      (s.plane.running = true → feedsL5 s 0 = true → ∃ it ∈ (vget t.plane.landings 5).items, it.warn = true ∧ it.hall = 0 ∧
        it.stamp = ⟨s.plane.epoch, s.wallTick + 4⟩)) ∧
  (∀ it n o s, s.plane.running = true → n = (vget s.plane.landings 5).released → n < s.wallTick → landingReady s 5 n = true →
    (vget s.plane.landings 5).items = [it] → itemDue s n it.stamp = true → it.warn = true → it.wake = none → s.store.log.opened = some o →
    ∃ t, exec (.landingRelease 5 n) s = .next t ∧ (vget t.plane.landings 5).items = [] ∧
      t.store.log.opened = some { o with closing := some (o.closing.getD 4) }) ∧
  (∀ mv s, mv ≤ 58000 → s.seq.powered = true → s.seq.warn = true → 100 * s.store.sys.vbatlWarn + 500 < mv →
    ∃ t, exec (.vbatlAboveWarn mv) s = .next t ∧ t.seq.warn = false ∧ t.seq.vbatl = mv ∧
      Observed s t 0 (statusIx 41) [(supplyWarnPoint, 0)] [s.ev 0 0x0107 vbatlPoint (mv / 10) true]) ∧
  (∀ mv s, mv < 5500 → s.seq.powered = true → s.seq.inReset = false →
    ∃ t, exec (.vbatlLogicReset mv) s = .next t ∧ LogicReset s t 2 ∧ t.seq.supplyReset = true ∧ t.seq.vbatl = mv) ∧
  (∀ mv s, mv < 5500 → s.seq.powered = true → s.seq.inReset = true →
    ∃ t, exec (.vbatlLogicReset mv) s = .next t ∧ t.seq.inReset = true ∧ t.seq.supplyReset = true ∧ t.seq.starting = false ∧ t.ret = s.ret) ∧
  (∀ mv s, 6000 < mv → mv ≤ 58000 → s.seq.inReset = true → s.seq.supplyReset = true →
    ∃ t, exec (.logicResetRelease mv) s = .next t ∧ t.seq.supplyReset = false ∧ t.seq.starting = true ∧ t.seq.vbatl = mv) ∧
  (∀ mv s, mv < 4500 → (s.seq.powered = true ∨ s.seq.core = true) →
    ∃ t, exec (.vbatlColdReset mv) s = .next t ∧ t.seq.powered = false ∧ t.seq.core = false ∧ t.load = State.reset.load ∧ t.motor = State.reset.motor ∧
      t.light = State.reset.light ∧ t.mem = [] ∧ t.ret.cause.cause = 1 ∧ t.input.die = s.input.die ∧ t.rtc.valid = false) ∧
  (∀ mv s, 5000 < mv → mv ≤ 58000 → s.seq.core = false →
    ∃ t, exec (.powerDieStart mv) s = .next t ∧ t.seq.core = true ∧ t.seq.vbatl = mv)

/-- R58, R62, R64, Tables 02.7 and 02.8: a first power-up, the restart after a logic reset and the entry to Lantern or Beam from Dark run the boot
chain. Where the keeper image and the owner record pass (Safety.KeeperBoots), the device is then in Lantern or Beam with the plane running, READY, the reset over and
the power die out of HOLD; from Buoy, where the keeper pair runs already, it is so in any case, and Buoy is entered from Dark under the same condition. Where no
keeper image passes (R329) the plane is stopped; there is no third outcome. The durations are left out (log entry 29). -/
def Obligations.StartsLeadToAnAwakeState : Prop :=
  (∀ mv b s, 6000 < mv → mv ≤ 58000 → s.seq.powered = false → KeeperBoots s b →
    ∃ t, exec (.firstPowerUp mv) s = .next t ∧ t.seq.powered = true ∧ t.seq.core = true ∧ AwakeNow t) ∧
  (∀ b s, restartDue s = true → KeeperBoots s b → ∃ t, exec .logicRestart s = .next t ∧ AwakeNow t) ∧
  (∀ b s, s.sleep.target = some 1 → s.seq.powered = true → s.seq.core = true → s.seq.inReset = false → s.seq.state = .dark → KeeperBoots s b →
    ∃ t, exec (.stateEntry 1) s = .next t ∧ t.seq.state = .buoy ∧ domainOn t 1 = true ∧ domainOn t 2 = true ∧ t.sleep.buoyAt = s.now) ∧
  (∀ n b s, n = 2 ∨ n = 3 → s.sleep.target = some n → s.seq.powered = true → s.seq.core = true → s.seq.inReset = false → s.seq.state = .dark →
    KeeperBoots s b → ∃ t, exec (.stateEntry n) s = .next t ∧ AwakeNow t) ∧
  (∀ n s, n = 2 ∨ n = 3 → s.sleep.target = some n → s.seq.powered = true → s.seq.core = true → s.seq.inReset = false → s.seq.state = .buoy →
    s.image.dead = false → ∃ t, exec (.stateEntry n) s = .next t ∧ AwakeNow t) ∧
  (∀ mv s, 6000 < mv → mv ≤ 58000 → s.seq.powered = false →
    ∃ t, exec (.firstPowerUp mv) s = .next t ∧ t.seq.powered = true ∧ t.seq.core = true ∧
      ((t.image.dead = true ∧ t.plane.running = false) ∨ ((t.seq.state = .lantern ∨ t.seq.state = .beam) ∧ t.plane.running = true ∧
        t.seq.inReset = false ∧ t.seq.ready = true ∧ t.link.hold = false))) ∧
  (∀ s, restartDue s = true →
    ∃ t, exec .logicRestart s = .next t ∧
      ((t.image.dead = true ∧ t.plane.running = false) ∨ ((t.seq.state = .lantern ∨ t.seq.state = .beam) ∧ t.plane.running = true ∧
        t.seq.inReset = false ∧ t.seq.ready = true ∧ t.link.hold = false))) ∧
  (∀ s, s.sleep.target = some 1 → s.seq.powered = true → s.seq.core = true → s.seq.inReset = false → s.seq.state = .dark →
    ∃ t, exec (.stateEntry 1) s = .next t ∧ ((t.image.dead = true ∧ t.plane.running = false) ∨ t.seq.state = .buoy)) ∧
  (∀ n s, n = 2 ∨ n = 3 → s.sleep.target = some n → s.seq.powered = true → s.seq.core = true → s.seq.inReset = false →
    (s.seq.state = .dark ∨ s.seq.state = .buoy) →
    ∃ t, exec (.stateEntry n) s = .next t ∧
      ((t.image.dead = true ∧ t.plane.running = false) ∨ ((t.seq.state = .lantern ∨ t.seq.state = .beam) ∧ t.plane.running = true ∧
        t.seq.inReset = false ∧ t.seq.ready = true ∧ t.link.hold = false)))

/-- R63, R65, Tables 02.9 and 02.10: RESET_N low for 10 µs, a lockstep mismatch of the keeper pair and the keeper watchdog assert a logic reset
with the causes 3, 7 and 8; a lockstep mismatch of an application pair posts RESET with cause 9 or 10 and leaves the device running; a TENTATIVE
bank has no boots left then (R334), and one of pair 1 in a trial ends the trial with cause 6 (Table 13.8). -/
def Obligations.ResetTriggersAct : Prop :=
  (∀ ns s, 10000 ≤ ns → s.seq.powered = true → s.seq.inReset = false → ∃ t, exec (.resetNLow ns) s = .next t ∧ LogicReset s t 3) ∧
  (∀ s, keeperRuns s = true → ∃ t, exec .keeperLockstepMismatch s = .next t ∧ LogicReset s t 7) ∧
  (∀ s, keeperRuns s = true → ∃ t, exec .keeperWatchdog s = .next t ∧ LogicReset s t 8) ∧
  (∀ pair s, pair < 2 → pairRuns s pair = true → s.image.trial.state ≠ 2 →
    ∃ t, exec (.pairLockstepMismatch pair) s = .next t ∧ Posted s t { s.ev 1 0x0102 0 (9 + pair) with stamp := s.wallStamp } ∧
      t.plane.running = s.plane.running ∧ t.seq = s.seq ∧
      ∀ b, bankIn s 2 4 = some b → (bank13 t b).bootLeft = 0) ∧
  (∀ s, pairRuns s 1 = true → s.image.trial.state = 2 →
    ∃ t, exec (.pairLockstepMismatch 1) s = .next t ∧ Posted s t { s.ev 1 0x0102 0 10 with stamp := s.wallStamp } ∧
      t.image.trial.state = 3 ∧ t.image.trial.cause = 6 ∧ t.seq = s.seq)

/-- R53–R55 with the thresholds of Table 02.5: below WARN a bank sets SAG with its bit in G83:0040 and its event; 4,000 ticks below T0 raise
SHED_ALERT and below T1 to T3 hold every output of that level with cause SHED; below 6.0 V drop-out holds every output of the bank with cause
SUPPLY, above 52.0 V with OVERVOLT, and no held channel drives. The half-bridges and valve feeds of bank D are held with its drop-out, its overvoltage
and its level T3. -/
def Obligations.BankThresholdsHold : Prop :=
  (∀ b mv s, b < 4 → s.seq.core = true → (bankAt s b).sag = false → mv < 100 * (bankCfg s b).warn → mv ≤ 58000 →
    ∃ t, exec (.bankBelowWarn b mv) s = .next t ∧ (bankAt t b).sag = true ∧ (bankAt t b).mv = mv ∧
      Observed s t 7 (statusIx 40) [(pointAt 83 40, BitVec.ofNat 16 (sagBits t))] [] ∧
      Observed s t 7 (statusIx (10 + b)) [] [s.ev 7 0x0108 (bankPoint b) (sat16 (mv / 10)) true]) ∧
  (∀ b level mv s, b < 4 → level < 4 → s.seq.core = true → (bankAt s b).shed.testBit level = false → mv < 100 * (bankCfg s b).t level →
    mv ≤ 58000 → ∃ t, exec (.shedCountExpiry b level mv) s = .next t ∧ (bankAt t b).shed.testBit level = true ∧
      (level = 0 → Observed s t 7 (statusIx (10 + b)) [] [s.ev 7 0x0109 (bankPoint b) (sat16 (mv / 10)) true]) ∧
      (1 ≤ level → ∀ ch ∈ atLevel s b level, (outCond t ch).holds.testBit 3 = true ∧ (ch < 56 → (chanOf t ch).driving = false)) ∧
      (b = 3 → level = 3 → HalfBridgesHeld t 3)) ∧
  (∀ b mv s, b < 4 → s.seq.core = true → (bankAt s b).drop = false → mv < 6000 →
    ∃ t, exec (.bankDropout b mv) s = .next t ∧ (bankAt t b).drop = true ∧
      (∀ ch ∈ shedOutputs b, (outCond t ch).holds.testBit 1 = true ∧ (ch < 56 → (chanOf t ch).driving = false)) ∧
      (b = 3 → HalfBridgesHeld t 1)) ∧
  (∀ b mv s, b < 4 → s.seq.core = true → (bankAt s b).overV = false → 52000 < mv → mv ≤ 58000 →
    ∃ t, exec (.bankOvervolt b mv) s = .next t ∧ (bankAt t b).overV = true ∧
      (∀ ch ∈ shedOutputs b, (outCond t ch).holds.testBit 2 = true ∧ (ch < 56 → (chanOf t ch).driving = false)) ∧
      (b = 3 → HalfBridgesHeld t 2))

/-- R54, R56, R57: 1 V above its thresholds a bank ends SAG and SHED, above 7.0 V drop-out and below 51.0 V overvoltage, and the hold of that
cause ends on every output of the scope; the channel at the front of the resume queue leaves it, turns on and posts LOAD_RESUME where nothing holds it and it
is commanded on, and the next one returns 32 ticks later. The 100 ms are the command's. -/
def Obligations.BankConditionsRecover : Prop :=
  (∀ b mv s, b < 4 → s.seq.core = true → (bankAt s b).sag = true → 100 * (bankCfg s b).warn + 1000 < mv → mv ≤ 58000 →
    ∃ t, exec (.bankWarnRecovery b mv) s = .next t ∧ (bankAt t b).sag = false ∧
      Observed s t 7 (statusIx 40) [(pointAt 83 40, BitVec.ofNat 16 (sagBits t))] []) ∧
  (∀ b level mv s, b < 4 → 1 ≤ level → level < 4 → s.seq.core = true → (bankAt s b).shed.testBit level = true →
    100 * (bankCfg s b).t level + 1000 < mv → mv ≤ 58000 →
    ∃ t, exec (.shedRecovery b level mv) s = .next t ∧ (bankAt t b).shed.testBit level = false ∧
      ∀ ch ∈ atLevel s b level, (outCond t ch).holds.testBit 3 = false) ∧
  (∀ b mv s, b < 4 → s.seq.core = true → (bankAt s b).drop = true → 7000 < mv → mv ≤ 58000 →
    ∃ t, exec (.dropoutRecovery b mv) s = .next t ∧ (bankAt t b).drop = false ∧ ∀ ch ∈ shedOutputs b, (outCond t ch).holds.testBit 1 = false) ∧
  (∀ b mv s, b < 4 → s.seq.core = true → (bankAt s b).overV = true → mv < 51000 →
    ∃ t, exec (.overvoltRecovery b mv) s = .next t ∧ (bankAt t b).overV = false ∧ ∀ ch ∈ shedOutputs b, (outCond t ch).holds.testBit 2 = false) ∧
  (∀ b ch cause r s, b < 4 → (bankAt s b).resumeQ = (ch, cause) :: r → (bankAt s b).resumeAt ≤ s.now →
    ∃ t, exec (.resumeQueueStep b) s = .next t ∧ (bankAt t b).resumeQ = r ∧ (bankAt t b).resumeAt = s.now + 32 ∧
      (ch < 56 → (chanOf s ch).cond.free = true → d12 (chanOf s ch).cmd ≠ 0 → (chanOf s ch).driving = false → (chanOf s ch).retryAt = none →
        (chanOf t ch).driving = true ∧ Observed s t 7 ch [] [s.ev 7 0x0203 (loadAddress ch) cause]))

/-- Table 02.5, R47, R131: above 40.0 V diagnosis of the bank is suspended and below 39.0 V it resumes; below its dip level every inrush window of
the bank's channels freezes, and at the level they count again; a voltage point is rewritten where the measurement has moved by 10 counts or
the tick count is a multiple of 8,000. -/
def Obligations.BankMeasurementsAct : Prop :=
  (∀ b mv s, b < 4 → s.seq.core = true → mv ≤ 58000 → (40000 < mv ∨ mv < 39000) →
    ∃ t, exec (.diagnosisLimit b mv) s = .next t ∧ (bankAt t b).diagOff = decide (40000 < mv)) ∧
  (∀ b mv s, b < 4 → s.seq.core = true → (bankAt s b).dip = false → mv < 100 * (bankCfg s b).dip → mv ≤ 58000 →
    ∃ t, exec (.bankDip b mv) s = .next t ∧ (bankAt t b).dip = true ∧
      ∀ ch w, ch < 56 → bankOf ch = b → (chanOf t ch).window = some w → w.frozen.isSome = true) ∧
  (∀ b mv s, b < 4 → s.seq.core = true → (bankAt s b).dip = true → 100 * (bankCfg s b).dip ≤ mv → mv ≤ 58000 →
    ∃ t, exec (.bankDip b mv) s = .next t ∧ (bankAt t b).dip = false ∧
      ∀ ch w, ch < 56 → bankOf ch = b → (chanOf t ch).window = some w → w.frozen = none) ∧
  (∀ b mv s, b < 4 → s.seq.core = true → s.plane.running = true → mv ≤ 58000 →
    (10 ≤ (mv / 10 - (bankAt s b).written) + ((bankAt s b).written - mv / 10) ∨ s.wallTick % 8000 = 0) →
    ∃ t, exec (.voltagePointRewrite b mv) s = .next t ∧ (bankAt t b).written = mv / 10 ∧
      Observed s t 7 (statusIx (10 + b)) [(bankPoint b, BitVec.ofNat 16 (mv / 10))] []) ∧
  (∀ mv s, s.seq.core = true → s.plane.running = true → mv ≤ 58000 →
    (10 ≤ (mv / 10 - s.seq.vbatlWritten) + (s.seq.vbatlWritten - mv / 10) ∨ s.wallTick % 8000 = 0) →
    ∃ t, exec (.voltagePointRewrite 4 mv) s = .next t ∧ t.seq.vbatlWritten = mv / 10 ∧
      Observed s t 0 (statusIx 20) [(vbatlPoint, BitVec.ofNat 16 (mv / 10))] [])

/-- R66–R70: outside HOLD a frame with a good CRC and the power die's own count is applied, and any other is discarded and counted with the loads
as they were; the eighth tick without one enters HOLD; in HOLD only an ADOPT frame with the current snapshot number leaves it; when the hold
time has passed the fail states apply: a channel whose fail state is OFF is off, one with ON or FIXED is commanded its value and one with LAST keeps what it
had; a retrain lets H7 rejoin; adoption sends the ADOPT frame, ends HOLD with every load as it was, and posts ADOPT with the hold duration. -/
def Obligations.InternalLinkHoldsAndAdopts : Prop :=
  (∀ f s, s.seq.core = true → s.link.hold = false → ¬ (s.link.synced = true ∧ f.crcOk = true ∧ f.lin = s.link.count) →
    ∃ t, exec (.l2FrameRx f) s = .next t ∧ t.link.discarded = satAdd32 s.link.discarded 1 ∧ t.load = s.load ∧ t.motor = s.motor ∧ t.light = s.light) ∧
  (∀ f n ch v s, s.seq.core = true → s.link.hold = false → s.link.synced = true → f.crcOk = true → f.lin = s.link.count → ch < 56 →
    f.ticks = [⟨n, [(pointAt 80 ch, v)]⟩] → s.link.applied ≤ n → n < f.lin →
    ∃ t, exec (.l2FrameRx f) s = .next t ∧ t.link.applied = f.lin ∧ t.link.missed = 0 ∧ (chanOf t ch).cmd = v) ∧
  (∀ f s, s.seq.core = true → s.link.hold = true → f.crcOk = true → f.adopt = true → f.snapshot = s.link.snapshot →
    ∃ t, exec (.l2FrameRx f) s = .next t ∧ t.link.hold = false ∧ t.link.synced = true ∧ t.load = s.load ∧ t.motor = s.motor ∧ t.light = s.light) ∧
  (∀ f s, s.seq.core = true → s.link.hold = true → ¬ (f.crcOk = true ∧ f.adopt = true ∧ f.snapshot = s.link.snapshot) →
    ∃ t, exec (.l2FrameRx f) s = .next t ∧ t.link = { s.link with discarded := satAdd32 s.link.discarded 1 } ∧ t.load = s.load) ∧
  (∀ s, s.seq.core = true → s.link.synced = true → s.link.hold = false → 8 ≤ s.link.missed →
    ∃ t, exec .holdEntry s = .next t ∧ t.link.hold = true ∧ t.link.holdFrom = s.now ∧ t.link.holdForce = s.link.holdTime) ∧
  (∀ s, s.seq.core = true → s.link.hold = true → s.link.failApplied = false → s.link.holdFrom + s.link.holdForce * 800000 ≤ s.now →
    ∃ t, exec .holdTimerExpiry s = .next t ∧ t.link.failApplied = true ∧
      ∀ ch, ch < 56 →
        ((vget s.store.load.fail ch).mode = 0 →
          (chanOf t ch).cmd = 0 ∧ ((chanOf s ch).forced = false → (chanOf t ch).driving = false)) ∧
        ((vget s.store.load.fail ch).mode = 1 →
          (chanOf t ch).cmd = 65535 ∧ ((chanOf s ch).cond.free = true → (chanOf s ch).retryAt = none → (chanOf t ch).driving = true)) ∧
        ((vget s.store.load.fail ch).mode = 2 → chanOf t ch = chanOf s ch) ∧
        ((vget s.store.load.fail ch).mode = 3 → (chanOf t ch).cmd = BitVec.ofNat 16 (vget s.store.load.fail ch).duty)) ∧
  (∀ s, s.plane.running = true → s.seq.core = true → (vget s.plane.halls 7).dropped = true →
    ∃ t, exec .internalLinkRetrain s = .next t ∧ (vget t.plane.halls 7).dropped = false) ∧
  (∀ s, s.plane.running = true → s.seq.core = true → s.link.hold = true → s.seq.inReset = false →
    ∃ t, exec .adoption s = .next t ∧ t.link.hold = false ∧ t.link.synced = true ∧ t.link.failApplied = false ∧
      t.plane.frame.adopt = true ∧ t.plane.frame.snapshot = s.link.snapshot ∧ t.load = s.load ∧ t.motor.hb = s.motor.hb ∧
      Posted s t (s.ev 1 0x010A (bitsOf (holdTicks s) 16 16 + 2 ^ 18 * b2n s.link.failApplied) (holdTicks s % 65536)))

/-- R127–R130: a window that ends without limiting and within the class limit returns the retry count to 0 and ends SHORT and INRUSH_FAIL; a
window that ends limiting, 800 on-ticks in a row that limit outside the window, and a current above the hard-short threshold turn the channel off: it
retries after 800,000 ticks while retries are left, and is locked with its cause otherwise; below 800 on-ticks it drives on with the count; at the end
of the pause it drives again where its command and conditions allow it. -/
def Obligations.ShortedChannelsRetryOrLock : Prop :=
  (∀ ch mA w s, ch < 56 → (chanOf s ch).window = some w → w.endAt s.now ≤ s.now → mA ≤ classLimit (classOf ch) →
    ∃ t, exec (.inrushWindowEnd ch false mA) s = .next t ∧ (chanOf t ch).window = none ∧ (chanOf t ch).retriesDone = 0 ∧
      (chanOf t ch).cond.active.testBit 7 = false ∧ (chanOf t ch).cond.active.testBit 11 = false ∧
      (chanOf t ch).driving = (chanOf s ch).driving) ∧
  (∀ ch limiting mA w s, ch < 56 → (chanOf s ch).window = some w → w.endAt s.now ≤ s.now →
    (limiting = true ∨ classLimit (classOf ch) < mA) →
    ∃ t, exec (.inrushWindowEnd ch limiting mA) s = .next t ∧ TrippedOff s t ch 11) ∧
  (∀ ch trace s, ch < 56 → (chanOf s ch).driving = true → (chanOf s ch).window = none → 800 ≤ limitCount trace (chanOf s ch).limitTicks →
    ∃ t, exec (.overloadCountExpiry ⟨ch, trace⟩) s = .next t ∧ TrippedOff s t ch 7) ∧
  (∀ ch trace s, ch < 56 → (chanOf s ch).driving = true → (chanOf s ch).window = none → limitCount trace (chanOf s ch).limitTicks < 800 →
    ∃ t, exec (.overloadCountExpiry ⟨ch, trace⟩) s = .next t ∧ (chanOf t ch).driving = true ∧
      (chanOf t ch).limitTicks = limitCount trace (chanOf s ch).limitTicks) ∧
  (∀ ch mA s, ch < 56 → (chanOf s ch).driving = true → hardShortMa (classOf ch) < mA →
    ∃ t, exec (.hardShort ⟨⟨0, ch⟩, mA⟩) s = .next t ∧ TrippedOff s t ch 7) ∧
  (∀ ch n s, ch < 56 → (chanOf s ch).retryAt = some n → n ≤ s.now →
    ∃ t, exec (.retryTimerExpiry ch) s = .next t ∧ (chanOf t ch).retryAt = none ∧
      (d12 (chanOf s ch).cmd ≠ 0 → (chanOf s ch).cond.free = true → (chanOf s ch).cond.waiting = false → (chanOf t ch).driving = true))

/-- R132–R137: a clamp event adds its energy to the windows of the channel and of its bank; beyond the figure of its class it locks the channel with CLAMP,
and where no figure is passed the channel goes on as it was; the wire model takes its step and a value of 100 % locks with WIRE; at T_SD a driving
channel turns off and is held to restart, or is locked after sixteen restarts; cooled by T_HYS it comes back and counts the restart where it turns on;
ten seconds without a shutdown return the count to 0. -/
def Obligations.ClampWireAndThermalProtect : Prop :=
  (∀ ch uJ s, ch < 56 → eventFigure (classOf ch) < uJ →
    ∃ t, exec (.clampEventEnd ⟨0, ch⟩ uJ) s = .next t ∧ (chanOf t ch).clamp = addEnergy s.now uJ (chanOf s ch).clamp ∧
      (bankAt t (bankOf ch)).clamp = addEnergy s.now uJ (bankAt s (bankOf ch)).clamp ∧
      (chanOf t ch).cond.locks.testBit 4 = true ∧ (chanOf t ch).driving = false) ∧
  (∀ ch uJ s, ch < 56 → uJ ≤ eventFigure (classOf ch) → windowEnergy s.now (bankAt s (bankOf ch)).clamp < 1000000 →
    windowEnergy s.now (addEnergy s.now uJ (chanOf s ch).clamp) < windowFigure (classOf ch) →
    windowEnergy s.now (addEnergy s.now uJ (bankAt s (bankOf ch)).clamp) < 1000000 →
    ∃ t, exec (.clampEventEnd ⟨0, ch⟩ uJ) s = .next t ∧ (chanOf t ch).clamp = addEnergy s.now uJ (chanOf s ch).clamp ∧
      (bankAt t (bankOf ch)).clamp = addEnergy s.now uJ (bankAt s (bankOf ch)).clamp ∧
      (chanOf t ch).cond = (chanOf s ch).cond ∧ (chanOf t ch).driving = (chanOf s ch).driving) ∧
  (∀ ch mA avg s, ch < 56 →
    ∃ t, exec (.wireModelUpdate ch mA avg) s = .next t ∧ (chanOf t ch).wireX = wireStep (chanCfg s ch) (chanOf s ch).wireX mA ∧
      (chanOf t ch).iLoad = avg ∧ (1 ≤ wireStep (chanCfg s ch) (chanOf s ch).wireX mA → (chanOf t ch).cond.locks.testBit 5 = true)) ∧
  (∀ ch s, ch < 56 → (chanOf s ch).driving = true →
    ∃ t, exec (.thermalShutdown ⟨0, ch⟩) s = .next t ∧ (chanOf t ch).driving = false ∧ (chanOf t ch).lastShutdown = s.now ∧
      ((chanOf s ch).restarts < 16 → (chanOf t ch).cond.holds.testBit 6 = true) ∧
      (16 ≤ (chanOf s ch).restarts → (chanOf t ch).cond.locks.testBit 6 = true)) ∧
  (∀ ch s, ch < 56 → (chanOf s ch).cond.holds.testBit 6 = true → (chanOf s ch).cond.thermDetail = 0 →
    ∃ t, exec (.thermalRestart ⟨0, ch⟩) s = .next t ∧ (chanOf t ch).cond.holds.testBit 6 = false ∧
      (chanOf t ch).restarts = (chanOf s ch).restarts + b2n (chanOf t ch).driving ∧
      ((chanOf s ch).cond.holds = 64 → (chanOf s ch).cond.locks = 0 → (chanOf s ch).retryAt = none → d12 (chanOf s ch).cmd ≠ 0 →
        (chanOf t ch).driving = true)) ∧
  (∀ ch s, ch < 56 → (chanOf s ch).lastShutdown + 80000000 ≤ s.now →
    ∃ t, exec (.restartCountReset ⟨0, ch⟩) s = .next t ∧ (chanOf t ch).restarts = 0 ∧ ∀ k, k ≠ ch → chanOf t k = chanOf s k)

/-- R138–R140: where a limit asks for a cut and 8,000 ticks have passed, the channel of R139's choice is held with THERMAL and joins the cuts; where
the margin of R140 allows it and 800,000 ticks have passed, the hold of the channel cut last ends and it leaves the cuts. -/
def Obligations.ThermalManagerCutsAndReturns : Prop :=
  (∀ th mW mA r ch s, nextCut s (cutReasons s.load.mgr th) = some (r, ch) → ch < 56 →
    (∀ n, s.load.mgr.lastCut = some n → n + 8000 ≤ s.now) →
    ∃ t, exec (.thermalManagerCut th mW mA) s = .next t ∧ t.load.mgr.lastCut = some s.now ∧
      t.load.mgr.cuts = s.load.mgr.cuts ++ [{ ch := ch, detail := r.1, mW := mW, mA := mA }] ∧
      (chanOf t ch).cond.holds.testBit 6 = true ∧ (chanOf t ch).driving = false) ∧
  (∀ th c s, s.load.mgr.cuts.getLast? = some c → c.ch < 56 → returnFits th c = true →
    (∀ n, s.load.mgr.lastReturn = some n → n + 800000 ≤ s.now) →
    ∃ t, exec (.thermalManagerReturn th) s = .next t ∧ t.load.mgr.cuts = s.load.mgr.cuts.dropLast ∧ t.load.mgr.lastReturn = some s.now ∧
      (chanOf t c.ch).cond.holds.testBit 6 = false)

/-- R141–R147, R122: each open-load check counts on from the one before of its own method, a stretched on-phase leaves its debt, an output above V_BF
reports BACKFEED, reverse current forces a driving channel to full duty until it ends, a period start takes the commanded duty with an on-phase that gives
back a debt and lets a forced channel whose reverse current has ended follow its command again; bins that are older than the clamp window leave it (R132). -/
def Obligations.DiagnosisCountsAndReports : Prop :=
  (∀ ch uA s, ch < 56 → (chanOf s ch).driving = true → (chanCfg s ch).olOn ≠ 0 → openNotPossible s ch = false →
    ((chanOf s ch).pwm = true → onStateMin ch ≤ onTimeOf s ch (chanOf s ch).duty) →
    ∃ t, exec (.onStateOpenCheck ch uA) s = .next t ∧ (chanOf t ch).ol.method = 0 ∧
      vget (chanOf t ch).ol.opens 0 = (if belowOlOn ch (chanCfg s ch).olOn uA then vget (chanOf s ch).ol.opens 0 + 1 else 0)) ∧
  (∀ ch ol bf be s, ch < 56 → (chanCfg s ch).olOff = true → openNotPossible s ch = false → offPhaseFits s ch = true →
    ∃ t, exec (.offStateCheck ch ol bf be) s = .next t ∧ (chanOf t ch).ol.method = 1 ∧
      vget (chanOf t ch).ol.opens 1 = (if ol && !bf then vget (chanOf s ch).ol.opens 1 + 1 else 0) ∧
      (bf = true → (chanOf t ch).cond.active.testBit 9 = true)) ∧
  (∀ ch uA s, ch < 56 → stretchInUse s ch = true → openNotPossible s ch = false → (chanOf s ch).debt = 0 → (chanOf s ch).shorten = 0 →
    (chanOf s ch).stretchAt + (chanCfg s ch).stretchN ≤ (chanOf s ch).periods →
    ∃ t, exec (.stretchPhase ch uA) s = .next t ∧ (chanOf t ch).stretchAt = (chanOf s ch).periods ∧
      (chanOf t ch).debt = onStateMin ch - onTimeOf s ch (chanOf s ch).duty ∧
      ((chanCfg s ch).olOn ≠ 0 → (chanOf t ch).ol.method = 2 ∧
        vget (chanOf t ch).ol.opens 2 = (if belowOlOn ch (chanCfg s ch).olOn uA then vget (chanOf s ch).ol.opens 2 + 1 else 0))) ∧
  (∀ ch be s, ch < 56 → (chanOf s ch).driving = false → (chanCfg s ch).olOff = false → (bankAt s (bankOf ch)).diagOff = false → pd8On s = true →
    ∃ t, exec (.backfeedCheck ch true be) s = .next t ∧ (chanOf t ch).cond.active.testBit 9 = true ∧ (chanOf t ch).cmd = (chanOf s ch).cmd) ∧
  (∀ ch s, ch < 56 → (chanOf s ch).driving = true →
    ∃ t, exec (.reverseCurrent ch) s = .next t ∧ (chanOf t ch).forced = true ∧ (chanOf t ch).cond.active.testBit 10 = true ∧ chanOn t ch = true) ∧
  (∀ ch s, ch < 56 →
    ∃ t, exec (.reverseEnd ch) s = .next t ∧ (chanOf t ch).cond.active.testBit 10 = false ∧
      (chanOf t ch).forced = ((chanOf s ch).forced && d12 (chanOf s ch).cmd != 4095)) ∧
  (∀ ch s, ch < 56 → (chanOf s ch).driving = true → periodPos (gridOf s ch).1 (gridOf s ch).2 s.now = 0 → (chanOf s ch).wants = true →
    (chanOf s ch).forced = false →
    ∃ t, exec (.pwmPeriodStart ⟨0, ch⟩) s = .next t ∧ (chanOf t ch).duty = d12 (chanOf s ch).cmd ∧ (chanOf t ch).driving = true ∧
      (chanOf t ch).shorten = min (chanOf s ch).debt (onTimeOf s ch (d12 (chanOf s ch).cmd)) ∧
      (chanOf t ch).debt + (chanOf t ch).shorten = (chanOf s ch).debt ∧
      (chanOf t ch).onUntil = s.now + (onTimeOf s ch (d12 (chanOf s ch).cmd) - (chanOf t ch).shorten)) ∧
  (∀ ch s, ch < 56 → (chanOf s ch).driving = true → periodPos (gridOf s ch).1 (gridOf s ch).2 s.now = 0 → (chanOf s ch).forced = true →
    (chanOf s ch).cond.active.testBit 10 = false → d12 (chanOf s ch).cmd = 0 →
    ∃ t, exec (.pwmPeriodStart ⟨0, ch⟩) s = .next t ∧ (chanOf t ch).forced = false ∧ (chanOf t ch).driving = false) ∧
  (∀ s, ∃ t, exec .clampWindowBinExpiry s = .next t ∧
    (∀ ch, ch < 56 → (chanOf t ch).clamp = liveBins s.now (chanOf s ch).clamp) ∧
    (∀ b, b < 4 → (bankAt t b).clamp = liveBins s.now (bankAt s b).clamp))

/-- Tables 05.7–05.14: LOAD.SET writes G80's point of the channel it names; LOAD.CONFIG puts its record into the store and returns it, and the channel keeps
its PWM grid until its next period start; LOAD.DIAG with CLEAR returns LATCHED to ACTIVE, with S_NODIAG where a channel allows no open-load result;
LOAD.UNLOCK leaves no lock on a channel whose lock can end, and with RESTORE completes S_OK; LOAD.FAILSTATE sets the hold time in the store, the
retention block and the power die (R68); LOAD.SHED with READ changes nothing but the packet's ring, and without it sets the levels it names. -/
def Obligations.LoadPacketsAct : Prop :=
  (∀ p ch v s, FastRuns loadSetOp p s → loadSetEntries p = [(ch, v)] → s.points.writesNow < 4096 → heldByAction s (pointAt 80 ch) = false →
    s.points.now = [] → Tbl.wf 0 s.points.mem = true →
    ∃ t, exec (.loadSet p) s = .next t ∧ pget t (pointAt 80 ch) = v ∧ Completed p (resultStatus (loadResult s ch v)) s t ∧
      t.plane.commanded = (if v = 0 then s.plane.commanded else s.plane.commanded ++ [(pointAt 80 ch, v)])) ∧
  (∀ p s, KeeperRuns loadConfigOp p s → p.bit 16 0 = false → cfgCount p = 1 →
    ∃ t, exec (.loadConfig p) s = .next t ∧ Completed p .ok s t ∧ vget t.store.load.ch (p.num 24 1) = chCfgOf p 0 ∧
      Replied p s t (chCfgReply 24 (p.num 24 1) (chCfgOf p 0)) ∧
      (0 < pwmPeriod (gridOf s (p.num 24 1)).1 → gridOf t (p.num 24 1) = gridOf s (p.num 24 1)) ∧
      ∀ k, k ≠ p.num 24 1 → vget t.store.load.ch k = vget s.store.load.ch k) ∧
  (∀ p s, KeeperRuns loadDiagOp p s → p.bit 18 0 = true →
    ∃ t, exec (.loadDiag p) s = .next t ∧
      Completed p (if (List.range (p.num 17 1)).any fun i => openNotPossible s (p.num 16 1 + i) then .nodiag else .ok) s t ∧
      t.load.mgr.mgrCuts = 0 ∧
      ∀ ch, ch < 56 → p.num 16 1 ≤ ch → ch < p.num 16 1 + p.num 17 1 → (chanOf t ch).cond.latched = (chanOf s ch).cond.active) ∧
  (∀ p ch s, KeeperRuns loadUnlockOp p s → p.bit 24 0 = true → bitList 56 (p.num 16 7) = [ch] → (chanOf s ch).cond.locks < 4096 →
    unlockable s ch = true →
    ∃ t, exec (.loadUnlock p) s = .next t ∧ Completed p .ok s t ∧ (chanOf t ch).cond.locks = 0 ∧
      ((chanOf s ch).cond.locks ≠ 0 → (chanOf t ch).restarts = 0 ∧ (chanOf t ch).retriesDone = 0)) ∧
  (∀ p s, KeeperRuns loadFailstateOp p s → p.bit 16 0 = false → p.num 18 2 ≠ 0 →
    ∃ t, exec (.loadFailstate p) s = .next t ∧ Completed p .ok s t ∧ t.store.load.hold = p.num 18 2 ∧ t.ret.hold = p.num 18 2 ∧
      t.link.holdTime = p.num 18 2 ∧ (cfgCount p = 0 → t.store.load.fail = s.store.load.fail)) ∧
  (∀ p s, KeeperRuns loadShedOp p s → p.bit 16 0 = true → (List.range 4).all (fun b => (bankCfg s b).agrees) = true →
    ∃ t, exec (.loadShed p) s = .next t ∧ Completed p .ok s t ∧ t.load = s.load ∧ t.store = s.store) ∧
  (∀ p ch level s, KeeperRuns loadShedOp p s → p.bit 16 0 = false → p.fld 17 0 4 = 0 → (List.range 4).all (fun b => (bankCfg s b).agrees) = true →
    ch < 60 → p.bit (56 + ch) 7 = true → level = p.fld (56 + ch) 0 2 →
    ∃ t, exec (.loadShed p) s = .next t ∧ Completed p .ok s t ∧ vget t.store.load.shed ch = { level := level, resume := p.bit (56 + ch) 2 } ∧
      t.store.load.bank = s.store.load.bank)

/-- R52: thresholds are numbers of 0.1 V, one set for each bank; a LOAD.SHED that would leave a bank with T0 < T1 + 0.5 V, T1 < T2 + 0.5 V or
T2 < T3 + 0.5 V completes S_CONFLICT, and no threshold, level or load changes. -/
def Obligations.ThresholdOrderIsKept : Prop :=
  ∀ p b s, KeeperRuns loadShedOp p s → p.bit 16 0 = false → b < 4 → p.bit 17 b = true →
    ((bankCfgOf p b).t0 < (bankCfgOf p b).t1 + 5 ∨ (bankCfgOf p b).t1 < (bankCfgOf p b).t2 + 5 ∨ (bankCfgOf p b).t2 < (bankCfgOf p b).t3 + 5) →
    ∃ t, exec (.loadShed p) s = .next t ∧ Completed p .conflict s t ∧ t.store = s.store ∧ t.load = s.load ∧ t.link = s.link ∧ t.light = s.light

/-- R72–R75, R413, Tables 03.2 and 03.3: a doorbell of the ring's producer within the room of R73 moves TAIL and stamps the arrival, and one that
names no slot or passes the room sets BADDOOR and moves nothing; a consumer's doorbell of a device ring moves HEAD; a SIZE_LOG2 whose array the owner reaches
enables an empty ring, one outside its reach leaves it disabled with BADDOOR, and 0 disables it; a read of TICK_NOW byte 0x08 latches its upper half;
writing 1 to BADDOOR and OVERRUN or to a FAULT_SUMMARY bit clears it. -/
def Obligations.DoorbellsAndRegistersAct : Prop :=
  (∀ c r i s, s.plane.running = true → mayDoor s c r = true → (ringOwner (chartersInForce s) r).isSome = true → deviceProduces s r = false →
    s.seq.ready = true → (vget s.plane.halls (ringHall s r)).dropped = false → i < (s.ring r).size → i < 4096 → i ≠ (s.ring r).tail →
    (s.ring r).overfills i = false →
    ∃ t, exec (.doorbellSubmit c r i) s = .next t ∧ (t.ring r).tail = i ∧ (t.ring r).arrival = s.wallStamp ∧ (t.ring r).head = (s.ring r).head ∧
      (t.ring r).batches = (s.ring r).batches ++ [(i, s.wallStamp)] ∧ (t.ring r).baddoor = (s.ring r).baddoor ∧ t.mem = s.mem ∧
      ∀ k, k ≠ r → t.ring k = s.ring k) ∧
  (∀ c r i s, s.plane.running = true → mayDoor s c r = true → (ringOwner (chartersInForce s) r).isSome = true → deviceProduces s r = false →
    i < 4096 → ((s.ring r).size ≤ i ∨
      (s.seq.ready = true ∧ i ≠ (s.ring r).tail ∧ (vget s.plane.halls (ringHall s r)).dropped = false ∧ (s.ring r).overfills i = true)) →
    ∃ t, exec (.doorbellSubmit c r i) s = .next t ∧ (t.ring r).baddoor = true ∧ (t.ring r).tail = (s.ring r).tail ∧
      (t.ring r).head = (s.ring r).head) ∧
  (∀ c r i s, s.plane.running = true → mayDoor s c r = true → (ringOwner (chartersInForce s) r).isSome = true → deviceProduces s r = true →
    i < (s.ring r).size → i < 4096 → (s.ring r).ahead i ≤ (s.ring r).filled →
    ∃ t, exec (.doorbellConsume c r i) s = .next t ∧ (t.ring r).head = i ∧ (t.ring r).tail = (s.ring r).tail) ∧
  (∀ c r n s, s.plane.running = true → reachesBlock s c r = true → (c = 0 ∨ ownsRing s c r = true) → n < 16 → (s.ring r).sizeLog2 ≠ n →
    (n = 0 ∨ mayEnable s r n = true) →
    ∃ t, exec (.ringSizeWrite c r n) s = .next t ∧ (t.ring r).sizeLog2 = n ∧ (t.ring r).enabled = decide (n ≠ 0) ∧ (t.ring r).head = 0 ∧
      (t.ring r).tail = 0 ∧ (t.ring r).admitted = [] ∧ (t.ring r).base = (s.ring r).base ∧ ∀ k, k ≠ r → t.ring k = s.ring k) ∧
  (∀ c r n s, s.plane.running = true → reachesBlock s c r = true → (c = 0 ∨ ownsRing s c r = true) → n < 16 → (s.ring r).sizeLog2 ≠ n →
    n ≠ 0 → mayEnable s r n = false →
    ∃ t, exec (.ringSizeWrite c r n) s = .next t ∧ (t.ring r).enabled = false ∧ (t.ring r).baddoor = true) ∧
  (∀ c s, s.plane.running = true →
    ∃ t, exec (.tickNowRead c) s = .next t ∧ t.plane.status.tickLatch = s.wallStamp.word / 2 ^ 32 ∧ t.plane.status.late = s.plane.status.late) ∧
  (∀ c r v s, s.plane.running = true → reachesBlock s c r = true → (c = 0 ∨ ownsRing s c r = true) →
    ∃ t, exec (.registerWrite c (0x40000000 + 64 * r + 0x14) v) s = .next t ∧
      (t.ring r).baddoor = ((s.ring r).baddoor && !v.testBit 18) ∧ (t.ring r).overrun = ((s.ring r).overrun && !v.testBit 19) ∧
      (t.ring r).tail = (s.ring r).tail ∧ ∀ k, k ≠ r → t.ring k = s.ring k) ∧
  (∀ c v s, s.plane.running = true → (c = 0 ∨ c = 14) →
    ∃ t, exec (.registerWrite c 0x40002018 v) s = .next t ∧ t.plane.status.late = (s.plane.status.late && !v.testBit 13) ∧
      t.plane.status.overrun = (s.plane.status.overrun && !v.testBit 14) ∧ t.plane.status.clockLoss = (s.plane.status.clockLoss && !v.testBit 12) ∧
      t.plane.rings = s.plane.rings)

/-- R93, Table 03.10: a write frame whose CRC is wrong is answered ACK 1 and writes nothing; one that is acknowledged with 0 writes its word into the host
buffer; a read frame answers its ACK, the word and the CRC of the frame. R399, R403, R404, R345: below 1.5 V of VIO the host lands are high-impedance and no
frame is answered, from 1.5 V on they are driven again; IDCODE shifts out the device's code, and the boundary-scan instructions capture the lands and
act in EXTEST and INTEST only while RESET_N is low. -/
def Obligations.HostSpiWritesAndReads : Prop :=
  (∀ f s, spiUp s = true → f.cmd = 2 → f.crc ≠ crc16 (spiHeader f ++ padTo f.length f.data) →
    ∃ t, exec (.hostSpiWrite f) s = .next t ∧ t.pins.spiOut = [1] ∧ t.mem = s.mem ∧ t.plane = s.plane) ∧
  (∀ f s, spiUp s = true → f.cmd = 2 → f.length = 4 → f.data.length = 4 → f.crc = crc16 (spiHeader f ++ padTo f.length f.data) →
    spiAck s f = 0 → keeperBase ≤ f.addr → f.addr < hostEnd → Tbl.wf 0 s.mem = true →
    ∃ t, exec (.hostSpiWrite f) s = .next t ∧ t.pins.spiOut = [0] ∧ memReadN t f.addr 4 = f.data ∧ t.plane = s.plane ∧
      ∀ a, (a < f.addr ∨ f.addr + 4 ≤ a) → memRead t a = memRead s a) ∧
  (∀ f s, spiUp s = true → f.cmd = 0x0B → f.length = 4 → spiAck s f = 0 → keeperBase ≤ f.addr → f.addr < hostEnd →
    ∃ t, exec (.hostSpiRead f) s = .next t ∧ t.mem = s.mem ∧ t.plane = s.plane ∧
      t.pins.spiOut = [0] ++ memReadN s f.addr 4 ++ beBytes 2 (crc16 (spiHeader f ++ memReadN s f.addr 4))) ∧
  (∀ f s, spiUp s = true → f.cmd = 0x0B → f.length = 8 → f.addr = 0x40002008 → f.byte7 = 0 → s.seq.ready = true →
    ∃ t, exec (.hostSpiRead f) s = .next t ∧ t.plane.status.tickLatch = s.wallStamp.word / 2 ^ 32 ∧
      t.pins.spiOut.take 9 = 0 :: leBytes 8 (s.wallStamp.word % 2 ^ 64)) ∧
  (∀ mv s, mv < 1500 → ∃ t, exec (.vioLoss mv) s = .next t ∧ readyLand t = none ∧ irqLand t = none ∧ spiUp t = false ∧ t.plane = s.plane) ∧
  (∀ mv s, 1500 ≤ mv → ∃ t, exec (.vioReturn mv) s = .next t ∧ readyLand t = some s.seq.ready ∧ (irqLand t).isSome = true ∧ t.plane = s.plane) ∧
  (∀ low d s, ∃ t, exec (.tapInstruction 1 low d) s = .next t ∧ t.pins.tap.instr = 1 ∧ t.pins.tap.out = 0x1726074B ∧ t.pins.tap.acting = false) ∧
  (∀ n low d s, 2 ≤ n → n ≤ 4 →
    ∃ t, exec (.tapInstruction n low d) s = .next t ∧ t.pins.tap.instr = n ∧ t.pins.tap.cells = d ∧
      t.pins.tap.acting = (low && decide (3 ≤ n)) ∧ t.plane = s.plane)

/-- R84–R88: a complete flight whose members pass their checks, can be carried out in order and leave their pairs in agreement takes effect at the start of its
effect tick, before every packet of the tick, with the statuses of its members, and waits for that tick once the keeper has finished it; a flight with a
member that fails a check applies nothing, that member carries its status and the others S_CONFLICT; an open flight 80,000 ticks after its first
member's arrival completes S_TIMEOUT in every member; a packet with FLIGHT = 0 at the head of its ring interrupts it, and an interrupted one whose tick
has come completes S_BADARG. -/
def Obligations.FlightsApplyOrFailWhole : Prop :=
  (∀ r f u done s, r ∈ turnRings s → freshTick s = true → OnlyFlight s r f → f.complete = true → f.finished = false →
    flightDue s f = s.plane.tick → firstFailure (finishFlight s r) { f with finished := true } = none →
    (flightEnd { f with finished := true } f.members (finishFlight s r)).any (flightAgrees { f with finished := true } (finishFlight s r)) = true →
    foldFlight { f with finished := true } f.members (keepSettings (finishFlight s r)) [] = (u, done) →
    ∃ t, exec (.flightApply r) s = .next t ∧
      (∀ x ∈ done, ResultItem.reply x.1.ring x.1.slot x.2.1.code (replyTick x.1 u u.stamp) (shareOf x.1) ∈ t.plane.results) ∧
      t.points = u.points ∧ t.store = u.store ∧ t.load = u.load ∧ t.motor = u.motor ∧ t.light = u.light) ∧
  (∀ r f s, s.plane.tick < flightDue s f → OnlyFlight s r f → f.complete = true → f.finished = false →
    ∃ t, exec (.flightApply r) s = .next t ∧ (t.ring r).flights = [{ f with finished := true }] ∧
      ∀ x, x ≠ Part.planeRings → x.same s t) ∧
  (∀ r f k st s, r ∈ turnRings s → freshTick s = true → OnlyFlight s r f → f.complete = true → f.finished = false →
    flightDue s f = s.plane.tick → firstFailure (finishFlight s r) { f with finished := true } = some (k, st) →
    ∃ t, exec (.flightApply r) s = .next t ∧ (∀ m ∈ f.members.zipIdx, Completed m.1 (if m.2 = k then st else .conflict) s t) ∧
      t.points = s.points ∧ t.store = s.store ∧ t.load = s.load ∧ t.motor = s.motor ∧ t.light = s.light) ∧
  (∀ r f s, findFlight s r (flightExpired s) = some f →
    ∃ t, exec (.flightTimeout r) s = .next t ∧ (∀ m ∈ f.members, Completed m .timeout s t) ∧
      t.points = s.points ∧ t.store = s.store ∧ t.load = s.load) ∧
  (∀ r f s, headWhole s r = false → (findFlight s r fun f => f.interrupted.isSome && flightDue s f ≤ s.plane.tick) = some f →
    ∃ t, exec (.flightInterrupted r) s = .next t ∧ (∀ m ∈ f.members, Completed m .badarg s t) ∧
      t.points = s.points ∧ t.store = s.store ∧ t.load = s.load) ∧
  (∀ r f s, r ∈ packetRings → headWhole s r = true → (ringPacket s r).inFlight = false → (s.ring r).flights = [f] → f.isOpen = true →
    f.members.any (samePlace (ringPacket s r)) = false → s.plane.tick < flightDue s { f with interrupted := some (ringPacket s r).arrival } →
    ∃ t, exec (.flightInterrupted r) s = .next t ∧ (t.ring r).flights = [{ f with interrupted := some (ringPacket s r).arrival }] ∧
      ∀ x, x ≠ Part.planeRings → x.same s t)

/-- R75, R82, R83, R98: the keeper takes a packet that stands whole at the head of a ring, first of its inputs, while it holds fewer than 256; in a tick in which
eight fast packets have executed every other one that is due is marked as moved; a packet whose opcode Table 03.14 does not list completes S_BADOP
with no effect. -/
def Obligations.KeeperAdmitsAndDispatcherMoves : Prop :=
  (∀ r s, r ∈ packetRings → headWhole s r = true → isFast (ringPacket s r).opcode = false → keeperShut s (ringPacket s r) = false →
    keeperNext (ringPacket s r) s = true → (ringPacket s r).inFlight = false → s.plane.replay.running = false →
    ∃ t, exec (.keeperAdmission r) s = .next t ∧ t.plane.keeper.contains (ringPacket s r) = true ∧
      (t.ring r).head = (s.ring r).after (ringPacket s r) ∧
      ((t.ring r).admitted.any fun a => a.slot == (s.ring r).head && !a.done) = true ∧
      ∀ x, x ∉ [Part.planeKeeper, .planeRings] → x.same s t) ∧
  (∀ s, 8 ≤ s.plane.execNow →
    ∃ t, exec .dispatcherOverflow s = .next t ∧ (∀ w ∈ t.plane.waiting, readyTick w.p s ≤ s.plane.tick → w.moved = true) ∧
      t.plane.waiting.map (·.p) = s.plane.waiting.map (·.p) ∧ t.points = s.points) ∧
  (∀ p s, opOf p.opcode = none → s.plane.keeper.contains p = true → p.inFlight = false → replayShuts p s = false →
    dueTick false p s = s.plane.tick → inTurn p s = true → headerBad (fitsRing p s) p = false →
    ∃ t, exec (.unknownOpcode p) s = .next t ∧ Completed p .badop s t ∧ t.points = s.points ∧ t.store = s.store ∧ t.load = s.load)

/-- Tables 03.16–03.22, R63, R100, R278–R283: SYS.NOP completes with no effect; SYS.TICK replies its arrival and its execution tick; SYS.INFO replies the
identity record; SYS.STATE with TARGET Lantern drops a waiting move toward Dark and leaves Beam, with the application pairs to stop 10 ms later, with TARGET
Beam asks for the entry, and with TARGET Dark sets DARK_PENDING; SYS.RESET puts its reset before the end of its tick; SYS.CONFIG writes its item;
SYS.CHARTER installs a set that verifies and is newer, or keeps it for the next start, and refuses one that does not verify or conflicts. -/
def Obligations.SysPacketsAct : Prop :=
  (∀ p s, FastRuns sysNopOp p s →
    ∃ t, exec (.sysNop p) s = .next t ∧ Completed p .ok s t ∧ t.points = s.points ∧ t.store = s.store ∧ t.load = s.load) ∧
  (∀ p s, FastRuns sysTickOp p s →
    ∃ t, exec (.sysTick p) s = .next t ∧ Completed p .ok s t ∧
      Replied p s t [(16, 8, p.arrival.word), (24, 8, s.stamp.word), (32, 4, (vget (vget s.plane.landings 1).streams p.hall).late)]) ∧
  (∀ p s, KeeperRuns sysInfoOp p s →
    ∃ t, exec (.sysInfo p) s = .next t ∧ Completed p .ok s t ∧ Replied p s t (sysInfoReply s) ∧ t.store = s.store) ∧
  (∀ p s, KeeperRuns sysStateOp p s → p.fld 16 0 2 = 2 → s.image.trial.state ≠ 2 → s.seq.state ≠ .beam →
    ∃ t, exec (.sysState p) s = .next t ∧ Completed p .ok s t ∧ t.sleep.darkPending = false ∧ t.sleep.target = none ∧
      t.seq = s.seq ∧ Replied p s t [(16, 1, s.seq.state.code)]) ∧
  (∀ p s, KeeperRuns sysStateOp p s → p.fld 16 0 2 = 2 → s.image.trial.state ≠ 2 → s.seq.state = .beam →
    ∃ t, exec (.sysState p) s = .next t ∧ Completed p .ok s t ∧ t.sleep.darkPending = false ∧ t.seq.state = .lantern ∧
      t.sleep.pairStopAt = some (s.plane.lin + 80000) ∧ t.plane.capture.closing = t.plane.capture.running) ∧
  (∀ p s, KeeperRuns sysStateOp p s → p.fld 16 0 2 = 3 → s.image.bootFail = 0 → s.seq.state = .lantern → s.sleep.target = none →
    ∃ t, exec (.sysState p) s = .next t ∧ Completed p .ok s t ∧ t.sleep.target = some 3 ∧ t.sleep.darkPending = false ∧ t.seq = s.seq) ∧
  (∀ p s, KeeperRuns sysStateOp p s → p.fld 16 0 2 = 0 → s.plane.capture.running = false → s.plane.replay.running = false →
    s.image.trial.state ≠ 2 → s.image.transfer = none →
    ∃ t, exec (.sysState p) s = .next t ∧ Completed p .ok s t ∧ t.sleep.darkPending = true ∧ t.sleep.target = none ∧ t.seq.state ≠ .beam) ∧
  (∀ p s, KeeperRuns sysResetOp p s →
    ∃ t d, exec (.sysReset p) s = .next t ∧ t.seq.resetDue = s.seq.resetDue ++ [d] ∧ d.scope = p.fld 16 0 2 ∧ d.packet = some p ∧
      d.cause.cause = (if p.fld 16 0 2 = 0 then 4 else if p.fld 16 0 2 = 1 then 12 else 11) ∧ d.cause.byComp = p.comp ∧ d.cause.tag = p.tag ∧
      t.plane.results = s.plane.results ∧ t.mem = s.mem) ∧
  (∀ p v s, KeeperRuns sysConfigOp p s → cfgRead p = false → cfgItems p = [(1, 0, v)] → routingAgrees s.store.sys = true →
    ∃ t, exec (.sysConfig p) s = .next t ∧ Completed p .ok s t ∧ t.store.sys = { s.store.sys with vbatlWarn := v } ∧
      t.store.load = s.store.load) ∧
  (∀ p s, KeeperRuns sysCharterOp p s → p.fld 16 0 2 = 1 → setConflicts (namedSet p s) = false →
    s.store.charters.version < (parseSet (namedSet p s)).version →
    ∃ t, exec (.sysCharter p) s = .next t ∧ t.store.charters = s.store.charters ∧
      (Config.verify (slotMaterial s 6) [] ((namedSet p s).take 1312) ((namedSet p s).drop 1312) = true →
        Completed p .ok s t ∧ t.store.nextCharters = some (parseSet (namedSet p s))) ∧
      (Config.verify (slotMaterial s 6) [] ((namedSet p s).take 1312) ((namedSet p s).drop 1312) = false →
        Completed p .authFail s t ∧ t.store.nextCharters = s.store.nextCharters)) ∧
  (∀ p s, KeeperRuns sysCharterOp p s → p.fld 16 0 2 = 0 → setConflicts (namedSet p s) = false →
    s.store.charters.version < (parseSet (namedSet p s)).version →
    Config.verify (slotMaterial s 6) [] ((namedSet p s).take 1312) ((namedSet p s).drop 1312) = true →
    ∃ t, exec (.sysCharter p) s = .next t ∧ Completed p .ok s t ∧ t.store.charters = parseSet (namedSet p s) ∧ t.store.nextCharters = none) ∧
  (∀ p s, KeeperRuns sysCharterOp p s → setConflicts (namedSet p s) = true →
    ∃ t, exec (.sysCharter p) s = .next t ∧ Completed p .conflict s t ∧ t.store = s.store)

/-- R149–R157: a brake that ends gives the motor the state of its next value, with dead time where a terminal changes its side, or completes a run that has ended;
the lowest waiting motor of a free group starts; outside its window 800 limiting drive ticks in a row, a stall time without a ripple and limiting at the
window's end are a stall: an open-loop drive brakes, posts MOTOR_END and stays off until its point changes; a run that stalls, reaches RUN_MAX or its
normal end, or whose pinch reversal ends, stops: the motor brakes for BRAKE_MS and the run keeps its end cause (Table 06.5). That a run whose motor still
waits for its group completes at once, with nothing to brake, is the model's choice (log entry 174). -/
def Obligations.MotorsBrakeStartAndEnd : Prop :=
  (∀ m v s, m < 12 → (hbOf s m).drive = .brake → (hbOf s m).next = some v → (hbOf s m).brakeEnds ≤ s.now → (hbOf s m).pinch = 0 → (hbOf s m).run = none →
    ∃ t, exec (.motorBrakeEnd m) s = .next t ∧ (hbOf t m).next = none ∧
      (driveOf (motorCfg s m) v = .coast → (hbOf t m).drive = .coast) ∧
      (motorFree s m = true → (hbOf s m).inhibit = false → (hbOf s m).waitsDrive = false →
        ((motorCfg s m).defined = true → groupBusy s m = false) →
        (hbOf t m).drive = driveOf (motorCfg s m) v ∧
        ((driveOf (motorCfg s m) v).drives = true → (hbOf t m).duty = dutyOf v ∧ (hbOf t m).onUntil = s.now + driveOnTicks (dutyOf v) ∧
          ((motorCfg s m).defined = true → (hbOf t m).window.isSome = true)) ∧
        (driveOf (motorCfg s m) v = .forward → s.now + deadTicks (motorCfg s m) ≤ (hbOf t m).dead) ∧
        (driveOf (motorCfg s m) v = .reverse → (motorCfg s m).defined = true → (motorCfg s m).b < 12 →
          s.now + deadTicks (motorCfg s m) ≤ (hbOf t (motorCfg s m).b).dead))) ∧
  (∀ m v r k s, m < 12 → (hbOf s m).drive = .brake → (hbOf s m).next = some v → (hbOf s m).brakeEnds ≤ s.now → (hbOf s m).pinch = 0 →
    (hbOf s m).run = some r → r.ended = some k → k < 9 → r.lost = false → logicDown s = false →
    ∃ t, exec (.motorBrakeEnd m) s = .next t ∧ (hbOf t m).run = none ∧ Completed r.packet (lateStatus r.late (endStatus k)) s t ∧
      Observed s t 7 (300 + m) [] [s.ev 7 0x0301 (positionPoint m) k true]) ∧
  (∀ b m s, ((List.range 12).find? fun m => (motorCfg s m).defined && (motorCfg s m).b == b && (hbOf s m).queued && !groupBusy s m) = some m →
    (driveOf (motorCfg s m) (hbOf s m).cmd).drives = true → motorFree s m = true → (hbOf s m).inhibit = false → (hbOf s m).waitsDrive = false →
    ∃ t, exec (.motorGroupStart b) s = .next t ∧ (hbOf t m).drive = driveOf (motorCfg s m) (hbOf s m).cmd ∧ (hbOf t m).queued = false ∧
      (∀ k, k ≠ m → (hbOf t k).drive = (hbOf s k).drive) ∧ ∀ k, k ≠ m → k ≠ b → hbOf t k = hbOf s k) ∧
  (∀ m trace s, m < 12 → (hbOf s m).drive.drives = true → (motorCfg s m).defined = true → (hbOf s m).window = none → (hbOf s m).pinch = 0 →
    (hbOf s m).run = none → StallSensed s m trace →
    ∃ t, exec (.motorStall ⟨m, trace⟩) s = .next t ∧ (hbOf t m).drive = .brake ∧ (hbOf t m).inhibit = true ∧
      (hbOf t m).brakeEnds = s.now + (motorCfg s m).brakeMs * 8000 ∧
      Observed s t 7 (300 + m) [] [s.ev 7 0x0301 (positionPoint m) 2 true]) ∧
  (∀ m trace r s, m < 12 → (hbOf s m).drive.drives = true → (motorCfg s m).defined = true → (hbOf s m).window = none → (hbOf s m).pinch = 0 →
    (hbOf s m).run = some r → groupBusy s m = false → StallSensed s m trace →
    ∃ t, exec (.motorStall ⟨m, trace⟩) s = .next t ∧ RunStopped s t m (if r.endStop then 1 else 2) ∧
      (r.endStop = true → r.setAtStall = true → (hbOf t m).pos = r.target ∧ (hbOf t m).posValid = true)) ∧
  (∀ m trace s, m < 12 → (hbOf s m).drive.drives = true → (motorCfg s m).defined = true → (hbOf s m).window = none → ¬ StallSensed s m trace →
    ∃ t, exec (.motorStall ⟨m, trace⟩) s = .next t ∧ (hbOf t m).drive = (hbOf s m).drive ∧ (hbOf t m).run = (hbOf s m).run ∧
      (hbOf t m).limitTicks = limitCount trace (hbOf s m).limitTicks) ∧
  (∀ m r s, m < 12 → (hbOf s m).run = some r → r.ended = none → r.startAt + r.runMax * 800000 ≤ s.now →
    ∃ t, exec (.runMaxExpiry m) s = .next t ∧ (groupBusy s m = false → RunStopped s t m 3) ∧
      (groupBusy s m = true → r.lost = false → logicDown s = false → (hbOf t m).run = none ∧ (hbOf t m).drive = (hbOf s m).drive ∧
        Completed r.packet (lateStatus r.late .timeout) s t)) ∧
  (∀ m r s, m < 12 → (hbOf s m).run = some r → r.ended = none → (hbOf s m).pinch = 0 → runEnds s m r = true →
    ∃ t, exec (.runEndCondition m) s = .next t ∧ (groupBusy s m = false → RunStopped s t m 0) ∧
      (groupBusy s m = true → r.lost = false → logicDown s = false → (hbOf t m).run = none ∧ (hbOf t m).drive = (hbOf s m).drive ∧
        Completed r.packet (lateStatus r.late .ok) s t)) ∧
  (∀ m trace r s, m < 12 → (hbOf s m).pinch = 2 →
    ((hbOf s m).pinchLeft = 0 ∨ ((hbOf s m).drive.drives = true ∧ (hbOf s m).window = none ∧ StallSensed s m trace)) →
    (hbOf s m).next = none → (hbOf s m).run = some r → groupBusy s m = false →
    ∃ t, exec (.pinchReversalEnd m trace) s = .next t ∧ (hbOf t m).pinch = 0 ∧ RunStopped s t m 4) ∧
  (∀ m trace s, m < 12 → (hbOf s m).pinch = 2 →
    ((hbOf s m).pinchLeft = 0 ∨ ((hbOf s m).drive.drives = true ∧ (hbOf s m).window = none ∧ StallSensed s m trace)) →
    (hbOf s m).next = none → (hbOf s m).run = none →
    ∃ t, exec (.pinchReversalEnd m trace) s = .next t ∧ (hbOf t m).pinch = 0 ∧ (hbOf t m).drive = .brake ∧ (hbOf t m).inhibit = true ∧
      (hbOf t m).cmd = (hbOf s m).cmd)

/-- R154, R158–R162: a ripple moves the position by one in the direction of the motor and writes it, its mean current enters the
reference and its greatest current the run's PEAK_I, and one sooner than 0.4 mean periods is ignored; after 1.8
mean periods without one a count is inserted, and the third in a row makes the position invalid; a pinch brakes the motor, posts MOTOR_PINCH with
the position, advances the snapshot in a hold and, 16,000 ticks later, turns the motor at full duty in the opening direction; SHORT and a current above
the hard-short threshold lock a half-bridge with both switches off, supply causes and T_SD hold it, and the end of a hold frees it. -/
def Obligations.RipplesPinchAndFaultsAct : Prop :=
  (∀ m mean peak s, m < 12 → countsRipples s m = true →
    (∀ n, (hbOf s m).lastRipple = some n → 4 * (hbOf s m).periods.sum ≤ (s.now - n) * 10 * (hbOf s m).periods.length) →
    ∃ t, exec (.rippleCount m mean peak) s = .next t ∧
      (hbOf t m).pos = (if (hbOf s m).dirRev then (hbOf s m).pos - 1 else (hbOf s m).pos + 1) ∧ (hbOf t m).inserts = 0 ∧
      (hbOf t m).ripples = (hbOf s m).ripples + 1 ∧ (hbOf t m).lastRipple = some s.now ∧
      (∀ n, (hbOf s m).lastRipple = some n → (bankAt s 3).dip = false → (hbOf t m).periods = (s.now - n) :: (hbOf s m).periods.take 15 ∧
        (hbOf t m).currents = mean :: (hbOf s m).currents.take 15) ∧
      (hbOf t m).run.map (·.peakMa) = (hbOf s m).run.map (fun r => max r.peakMa peak) ∧
      Observed s t 7 (300 + m) [(positionPoint m, (hbOf t m).pos)] []) ∧
  (∀ m mean peak n s, m < 12 → (hbOf s m).lastRipple = some n → 0 < (hbOf s m).periods.length →
    (s.now - n) * 10 * (hbOf s m).periods.length < 4 * (hbOf s m).periods.sum →
    ∃ t, exec (.rippleCount m mean peak) s = .next t ∧ hbOf t m = hbOf s m) ∧
  (∀ m n s, m < 12 → countsRipples s m = true → (hbOf s m).drive.drives = true → (hbOf s m).inserts < 3 → (hbOf s m).lastCount = some n →
    0 < (hbOf s m).periods.length → 18 * (hbOf s m).periods.sum ≤ (s.now - n) * 10 * (hbOf s m).periods.length →
    ∃ t, exec (.rippleInsert m) s = .next t ∧ (hbOf t m).inserts = (hbOf s m).inserts + 1 ∧
      (hbOf t m).pos = (if (hbOf s m).dirRev then (hbOf s m).pos - 1 else (hbOf s m).pos + 1) ∧
      (hbOf t m).posValid = ((hbOf s m).posValid && decide ((hbOf s m).inserts < 2)) ∧
      Observed s t 7 (300 + m) [(positionPoint m, (hbOf t m).pos)] []) ∧
  (∀ m mA s, m < 12 → watchesPinch s m = true → pinched s m mA = true →
    ∃ t, exec (.pinchDetect m mA) s = .next t ∧ (hbOf t m).drive = .brake ∧ (hbOf t m).pinch = 1 ∧ (hbOf t m).pinchAt = s.now ∧
      (s.link.hold = true → t.link.snapshot = s.link.snapshot + 1) ∧
      Observed s t 7 (300 + m) [] [s.ev 7 0x0302 (positionPoint m) (hbOf s m).pos.toNat true]) ∧
  (∀ m s, m < 12 → (hbOf s m).pinch = 1 → (hbOf s m).pinchAt + 16000 ≤ s.now →
    ∃ t, exec (.pinchReversalStart m) s = .next t ∧ (hbOf t m).pinch = 2 ∧ (hbOf t m).duty = 4095 ∧
      (hbOf t m).drive = (if (motorCfg s m).pinchRev then .forward else .reverse) ∧ (hbOf t m).pinchLeft = (motorCfg s m).pinchBack) ∧
  (∀ k s, k < 12 →
    ∃ t, exec (.hbFault k 7 0 true) s = .next t ∧ (hbOf t k).cond.locks.testBit 7 = true ∧ (hbOf t k).drive = .coast ∧ (hbOf t k).waitsDrive = true) ∧
  (∀ k mA s, k < 12 → hbShortMa s k < mA →
    ∃ t, exec (.hardShort ⟨⟨1, k⟩, mA⟩) s = .next t ∧ (hbOf t k).cond.locks.testBit 7 = true ∧ (hbOf t k).drive = .coast ∧ (hbOf t k).waitsDrive = true) ∧
  (∀ k cause d s, k < 12 → (cause = 1 ∨ cause = 2 ∨ cause = 3 ∨ (cause = 6 ∧ d = 0)) →
    ∃ t, exec (.hbFault k cause d true) s = .next t ∧ (hbOf t k).cond.holds.testBit cause = true ∧ (hbOf t k).drive = .coast) ∧
  (∀ k cause d s, k < 12 → (cause = 1 ∨ cause = 2 ∨ cause = 3 ∨ cause = 6) → (hbOf s k).cond.holds.testBit cause = true →
    ∃ t, exec (.hbFault k cause d false) s = .next t ∧ (hbOf t k).cond.holds.testBit cause = false ∧ (hbOf t k).cond.active.testBit cause = false ∧
      (hbOf t k).drive = (hbOf s k).drive) ∧
  (∀ m s, m < 12 → (hbOf s m).drive.drives = true → (s.now - (hbOf s m).periodAt) % 400 = 0 → (hbOf s m).pinch = 0 →
    ∃ t, exec (.pwmPeriodStart ⟨1, m⟩) s = .next t ∧ (hbOf t m).duty = dutyOf (hbOf s m).cmd ∧
      (hbOf t m).onUntil = s.now + driveOnTicks (dutyOf (hbOf s m).cmd))

/-- Tables 06.11–06.14, R154, R155: a MOTOR.RUN that the motor can carry out writes its drive value to the motor's point and stays S_PENDING as the motor's run,
and one whose position is reached completes S_OK at once; with STOP it ends the run, with cause 0 in mode FREE and 5 otherwise; MOTOR.CONFIG defines or
removes the motor it names where the set of definitions agrees (R150), else it completes S_CONFLICT whatever the motor does (R79, R89), and it clears SHORT of the half-bridges of UNLOCK; MOTOR.POS with SET makes the position the
one it names, and valid. -/
def Obligations.MotorPacketsAct : Prop :=
  (∀ p m s, FastRuns motorRunOp p s → m = motorArg p → p.bit 17 3 = false → motorRunConflict p s = false →
    ¬ (p.fld 17 0 2 = 0 ∧ (hbOf s m).pos.toNat = p.num 20 2) →
    (∀ k ∈ motorSides s m, (hbOf s k).cond.locks = 0 ∧ (hbOf s k).cond.supplyHeld = false ∧ (hbOf s k).cond.holds.testBit 6 = false) →
    s.motor.refusing = false → groupBusy s m = false → (hbOf s m).run = none →
    s.points.writesNow < 4096 → heldByAction s (pointAt 80 (100 + m)) = false → s.points.now = [] → Tbl.wf 0 s.points.mem = true →
    ∃ t r, exec (.motorRun p) s = .next t ∧ (hbOf t m).run = some r ∧ r.packet = p ∧ r.ended = none ∧ r.startAt = s.now ∧
      r.value = runValue (runReverse p (hbOf s m).pos) (p.fld 18 0 12) ∧ pget t (pointAt 80 (100 + m)) = r.value) ∧
  (∀ p m s, FastRuns motorRunOp p s → m = motorArg p → p.bit 17 3 = false → motorRunConflict p s = false → p.fld 17 0 2 = 0 →
    (hbOf s m).pos.toNat = p.num 20 2 →
    ∃ t, exec (.motorRun p) s = .next t ∧ Completed p .ok s t ∧ t.motor = s.motor ∧ t.points = s.points) ∧
  (∀ p m r s, FastRuns motorRunOp p s → m = motorArg p → p.bit 17 3 = true → (motorCfg s m).defined = true → (hbOf s m).run = some r → r.ended = none →
    groupBusy s m = false →
    ∃ t, exec (.motorRun p) s = .next t ∧ Completed p .ok s t ∧ RunStopped s t m (if r.mode = 2 then 0 else 5)) ∧
  (∀ p m s, KeeperRuns motorConfigOp p s → p.bit 16 0 = false → cfgCount p = 1 → m = cfgMotor p 0 → (hbOf s m).running = false →
    motorsAgree (vmod s.store.motor.motor m fun _ => motorCfgOf p 0) = true →
    ((motorCfg s m).defined = true → (motorCfgOf p 0).defined = false → s.points.writesNow + 4 ≤ 4096 ∧ s.points.now = [] ∧
      ∀ k, k < 12 → heldByAction s (pointAt 80 (100 + k)) = false) → motorsAgree s.store.motor.motor = true →
    ∃ t, exec (.motorConfig p) s = .next t ∧ Completed p .ok s t ∧ motorCfg t m = motorCfgOf p 0 ∧ (∀ k, k ≠ m → motorCfg t k = motorCfg s k) ∧
      ∀ k, k < 12 → (p.fld 18 0 12).testBit k = true → (hbOf t k).cond.locks.testBit 7 = false) ∧
  (∀ p s, KeeperRuns motorConfigOp p s → p.bit 16 0 = false → cfgCount p = 1 →
    motorsAgree (vmod s.store.motor.motor (cfgMotor p 0) fun _ => motorCfgOf p 0) = false →
    ∃ t, exec (.motorConfig p) s = .next t ∧ Completed p .conflict s t ∧ t.store.motor = s.store.motor ∧ t.motor = s.motor) ∧
  (∀ p m s, KeeperRuns motorPosOp p s → m = motorArg p → p.bit 17 0 = true → (motorCfg s m).defined = true → (hbOf s m).running = false →
    ∃ t, exec (.motorPos p) s = .next t ∧ Completed p .ok s t ∧ (hbOf t m).pos = BitVec.ofNat 16 (p.num 18 2) ∧ (hbOf t m).posValid = true ∧
      Observed s t 7 (300 + m) [(positionPoint m, BitVec.ofNat 16 (p.num 18 2))] [])

/-- R163–R174: the first request of a feed is granted once its claim fits the budget and turns the feed on; a granted fire starts its program at ENTRY, 16 ticks
after its feed's turn-on at the earliest; DEFER_MAX refuses a request with S_OVERLAP; the instructions act as Table 06.7 says, each with its own tick, and a
wait ends by its condition or with T at its last tick; a low-side turns off where the current reaches the target and on at a chop period below it; the
sample that completes a dip sets D and posts VALVE_DIP; FIRE_MAX ends a fire with S_TIMEOUT; the end of the decay completes it, with S_LOCKED where its clamp
event locks the low-side; SHORT of a low-side or a feed locks it, and its fires end. -/
def Obligations.ValvesFireAsProgrammed : Prop :=
  (∀ f v r s, f < 2 → v < 8 → (feedOf s f).queue = v :: r → claimsHeld s f + (valveOf s v).claim ≤ vget s.store.motor.budget f →
    ∃ t, exec (.valveGrant f) s = .next t ∧ (valveOf t v).phase = .granted ∧ (valveOf t v).claimHeld = true ∧ (feedOf t f).on = true ∧
      (feedOf t f).queue = r ∧ (valveOf t v).startAt = (if (feedOf s f).on && decide ((feedOf s f).onAt < s.now) then s.now else s.now + 16)) ∧
  (∀ v s, v < 8 → (valveOf s v).phase = .granted → (valveOf s v).startAt ≤ s.now →
    ∃ t, exec (.valveProgramStart v) s = .next t ∧ (valveOf t v).phase = .running ∧ (valveOf t v).pc = (valveOf s v).entry ∧
      (valveOf t v).startAt = s.now ∧ (valveOf t v).on = false ∧ (valveOf t v).dFlag = false ∧ (valveOf t v).tFlag = false ∧
      (s.motor.trace.armed = true → s.motor.trace.valve = v → t.motor.trace.capturing = true ∧ t.motor.trace.armed = false)) ∧
  (∀ v p s, v < 8 → (valveOf s v).phase = .requested → (valveOf s v).reqAt + (valveOf s v).deferMax ≤ s.now → (valveOf s v).packet = some p →
    logicDown s = false →
    ∃ t, exec (.deferMaxExpiry v) s = .next t ∧ (valveOf t v).phase = .idle ∧ v ∉ (feedOf t (feedIx v)).queue ∧
      Completed p (lateStatus (valveOf s v).late .overlap) s t ∧ Observed s t 7 (200 + v) [] [s.ev 7 0x0310 (firePoint v) 0x23 true]) ∧
  (∀ v w mA s, v < 8 → (valveOf s v).phase = .running → (valveOf s v).waitOp = 0 → (valveOf s v).lastAt ≠ some s.now →
    w = vget (progOf s v) (valveOf s v).pc →
    ∃ t, exec (.valveInstruction v mA) s = .next t ∧ InstructionActs s t v w mA) ∧
  (∀ v mA s, v < 8 → (valveOf s v).phase = .running → (valveOf s v).waitOp ≠ 0 →
    ∃ t, exec (.valveWaitEnd v mA) s = .next t ∧ (valveOf t v).pc = (valveOf s v).pc ∧
      (waitHolds (valveOf s v) mA = true → (valveOf t v).waitOp = 0 ∧ (valveOf t v).tFlag = false ∧ (valveOf t v).lastAt = some s.now) ∧
      (∀ n, waitHolds (valveOf s v) mA = false → (valveOf s v).waitEnds = some n → n ≤ s.now + 1 →
        (valveOf t v).waitOp = 0 ∧ ((valveOf s v).waitOp ≠ 3 → (valveOf t v).tFlag = true)) ∧
      (waitHolds (valveOf s v) mA = false → (∀ n, (valveOf s v).waitEnds = some n → s.now + 1 < n) →
        (valveOf t v).waitOp = (valveOf s v).waitOp) ∧
      ((valveOf s v).on = true → (valveOf s v).target ≠ 0 → (valveOf s v).target ≤ mA → (valveOf s v).onAt + 8 ≤ s.now →
        (valveOf t v).on = false ∧ (valveOf t v).chopped = true)) ∧
  (∀ v d mA s, v < 8 → dipUses s.now (valveOf s v) = true → (valveOf s v).dip.past = false → (valveOf s v).dFlag = false →
    d = (valveOf s v).dip.take false mA → d.samples ≤ d.count →
    ∃ t, exec (.valveDipDetect v mA) s = .next t ∧ (valveOf t v).dFlag = true ∧ (valveOf t v).dipTick = some (s.now - (valveOf s v).startAt) ∧
      (valveOf t v).dipMa = d.low ∧ Observed s t 7 (200 + v) [] [s.ev 7 0x0311 (firePoint v) (sat16 (s.now - (valveOf s v).startAt)) true]) ∧
  (∀ v d mA s, v < 8 → dipUses s.now (valveOf s v) = true → (valveOf s v).dip.past = false → (valveOf s v).dFlag = false →
    d = (valveOf s v).dip.take false mA → d.count < d.samples →
    ∃ t, exec (.valveDipDetect v mA) s = .next t ∧ (valveOf t v).dFlag = false ∧ (valveOf t v).dip = d) ∧
  (∀ v s, v < 8 → (valveOf s v).phase = .running → (valveOf s v).startAt + vget s.store.motor.fireMax v * 8000 ≤ s.now →
    ∃ t, exec (.fireMaxExpiry v) s = .next t ∧ (valveOf t v).phase = .decay ∧ (valveOf t v).on = false ∧ (valveOf t v).status = 0x15) ∧
  (∀ v mA uJ p s, v < 8 → (valveOf s v).phase = .decay → mA < 10 → (valveOf s v).packet = some p → logicDown s = false →
    ∃ t, exec (.valveDecayEnd v mA uJ) s = .next t ∧ (valveOf t v).phase = .idle ∧ (valveOf t v).packet = none ∧
      (uJ ≤ 40000 → windowEnergy s.now (addEnergy s.now uJ (valveOf s v).clamp) < 300000 → windowEnergy s.now (bankAt s 3).clamp < 1000000 →
        windowEnergy s.now (addEnergy s.now uJ (bankAt s 3).clamp) < 1000000 →
        Completed p (lateStatus (valveOf s v).late (fireStatus (valveOf s v).status)) s t) ∧
      (40000 < uJ → (valveOf t v).cond.locks.testBit 4 = true ∧
        ((valveOf s v).status = 0 → Completed p (lateStatus (valveOf s v).late .locked) s t))) ∧
  (∀ v s, v < 8 →
    ∃ t, exec (.valveOutputFault v 7 0 true) s = .next t ∧ (valveOf t v).cond.locks.testBit 7 = true ∧ (valveOf t v).phase.fires = false) ∧
  (∀ f s, f < 2 →
    ∃ t, exec (.valveOutputFault (8 + f) 7 0 true) s = .next t ∧ (feedOf t f).cond.locks.testBit 7 = true ∧ (feedOf t f).on = false ∧
      ∀ v ∈ valvesOn f, (valveOf t v).phase.fires = false) ∧
  (∀ v s, v < 8 → (valveOf s v).phase = .running → (valveOf s v).target ≠ 0 → s.now % 320 = 40 * (v % 4) →
    (valveOf s v).mA < (valveOf s v).target → (valveOf s v).cond.free = true →
    ∃ t, exec (.pwmPeriodStart ⟨2, v⟩) s = .next t ∧ (valveOf t v).on = true ∧ (valveOf t v).phase = .running)

/-- Tables 06.15–06.20, R170: VALVE.FIRE that nothing refuses writes FIRE with ENTRY to the fire point and stays S_PENDING with the valve, and with RELEASE
it writes 0; VALVE.PROG puts its words into the program store where every claim stays within its feed's budget; VALVE.CONFIG sets FIRE_MAX and unlocks a
feed; VALVE.TRACE arms and disarms the trace. -/
def Obligations.ValvePacketsAct : Prop :=
  (∀ p v s, FastRuns valveFireOp p s → v = valveArg p → p.bit 16 3 = false → vget s.store.motor.loaded v = true →
    (pget s (firePoint v)).toNat.testBit 15 = false → (valveOf s v).phase = .idle → requestRefused s v = none →
    s.points.writesNow < 4096 → heldByAction s (firePoint v) = false → s.points.now = [] → Tbl.wf 0 s.points.mem = true →
    ∃ t, exec (.valveFire p) s = .next t ∧ (valveOf t v).packet = some p ∧ pget t (firePoint v) = BitVec.ofNat 16 (2 ^ 15 + p.fld 17 0 6)) ∧
  (∀ p s, FastRuns valveFireOp p s → p.bit 16 3 = true → s.points.writesNow < 4096 → heldByAction s (firePoint (valveArg p)) = false →
    s.points.now = [] → Tbl.wf 0 s.points.mem = true →
    ∃ t, exec (.valveFire p) s = .next t ∧ Completed p .ok s t ∧ pget t (firePoint (valveArg p)) = 0) ∧
  (∀ p v s, KeeperRuns valveProgOp p s → v = valveArg p → (valveOf s v).phase ≠ .requested → (valveOf s v).phase.fires = false →
    ((List.range 8).all fun k => decide (claimOf (progOf s k) ≤ vget s.store.motor.budget (feedIx k))) = true →
    claimOf (progAfter p s) ≤ vget s.store.motor.budget (feedIx v) →
    ∃ t, exec (.valveProg p) s = .next t ∧ Completed p .ok s t ∧ progOf t v = progAfter p s ∧ vget t.store.motor.loaded v = true ∧
      ∀ k, k ≠ v → progOf t k = progOf s k) ∧
  (∀ p v s, KeeperRuns valveConfigOp p s → p.bit 16 0 = false → p.fld 17 0 2 = 0 → p.fld 20 0 10 = 0 → v < 8 → p.bit 18 v = true →
    ((List.range 8).all fun k => decide (claimOf (progOf s k) ≤ vget s.store.motor.budget (feedIx k))) = true →
    ∃ t, exec (.valveConfig p) s = .next t ∧ Completed p .ok s t ∧ vget t.store.motor.fireMax v = p.num (32 + 4 * v) 2 ∧
      t.store.motor.budget = s.store.motor.budget) ∧
  (∀ p f s, KeeperRuns valveConfigOp p s → p.bit 16 0 = false → p.fld 17 0 2 = 0 → f < 2 → bitList 10 (p.fld 20 0 10) = [8 + f] →
    ((List.range 8).all fun k => decide (claimOf (progOf s k) ≤ vget s.store.motor.budget (feedIx k))) = true →
    ∃ t, exec (.valveConfig p) s = .next t ∧ Completed p .ok s t ∧ (feedOf t f).cond.locks = 0) ∧
  (∀ p s, KeeperRuns valveTraceOp p s → p.fld 16 0 2 = 0 → s.motor.trace.running = false →
    ∃ t, exec (.valveTrace p) s = .next t ∧ Completed p .ok s t ∧ t.motor.trace.armed = true ∧ t.motor.trace.valve = p.fld 17 0 3 ∧
      t.motor.trace.decim = p.num 18 1 ∧ t.motor.trace.want = p.num 20 2) ∧
  (∀ p s, KeeperRuns valveTraceOp p s → p.fld 16 0 2 = 2 → s.motor.trace.running = false →
    ∃ t, exec (.valveTrace p) s = .next t ∧ Completed p .ok s t ∧ t.motor.trace.armed = false)

/-- R178–R188, Tables 07.3–07.5 and 07.13–07.15: a soft start whose current lies within 10 % of its setting ends, and any other locks the string with
cause 11; a converter stops at its time; an open segment is bypassed and the string runs on, SHORT and a current above 6 A lock the string, and supply causes
hold it while bank D has them, and R56 follows their end; a segment takes its value and settings at its period start; an engine writes its step's value to its target and goes on after
DURATION updates; a pattern write that has waited is made; STRING.CONFIG sets a string's record, PATTERN.LOAD a program; PATTERN.RUN starts an engine at its
step and stops it. -/
def Obligations.StringsAndPatternsRun : Prop :=
  (∀ n mA w s, n < 4 → (stringOf s n).soft = some w → w.endAt s.now ≤ s.now →
    ∃ t, exec (.stringSoftStartEnd n mA) s = .next t ∧
      ((stringCfg s n).current * 9 ≤ mA * 10 → mA * 10 ≤ (stringCfg s n).current * 11 →
        (stringOf t n).soft = none ∧ (stringOf t n).running = (stringOf s n).running ∧ (stringOf t n).cond = (stringOf s n).cond) ∧
      (mA * 10 < (stringCfg s n).current * 9 ∨ (stringCfg s n).current * 11 < mA * 10 →
        (stringOf t n).cond.locks.testBit 11 = true ∧ (stringOf t n).running = false)) ∧
  (∀ n k s, n < 4 → (stringOf s n).stopAt = some k → k ≤ s.now →
    ∃ t, exec (.stringConverterStop n) s = .next t ∧ (stringOf t n).running = false ∧ (stringOf t n).stopAt = none) ∧
  (∀ n k s, n < 4 → k < 16 → (stringOf s n).running = true → (vget (stringOf s n).seg k).fitted = true →
    ∃ t, exec (.stringFault n 8 (16 + k) true) s = .next t ∧ (stringOf t n).segOpen.testBit k = true ∧ (stringOf t n).running = true) ∧
  (∀ n s, n < 4 → (stringOf s n).running = true →
    ∃ t, exec (.stringFault n 7 0 true) s = .next t ∧ (stringOf t n).cond.locks.testBit 7 = true ∧ (stringOf t n).running = false) ∧
  (∀ n mA s, n < 4 → (stringOf s n).running = true → 6000 < mA →
    ∃ t, exec (.hardShort ⟨⟨4, n⟩, mA⟩) s = .next t ∧ (stringOf t n).cond.locks.testBit 7 = true ∧ (stringOf t n).running = false) ∧
  (∀ n c d s, n < 4 → (c = 1 ∨ c = 2 ∨ c = 3) → stringShort s n c = true →
    ∃ t, exec (.stringFault n c d true) s = .next t ∧ (stringOf t n).cond.holds.testBit c = true ∧ (stringOf t n).running = false) ∧
  (∀ n c d s, n < 4 → (c = 1 ∨ c = 2 ∨ c = 3) → stringShort s n c = false → (stringOf s n).cond.holds.testBit c = true →
    ∃ t, exec (.stringFault n c d false) s = .next t ∧ (stringOf t n).cond.holds.testBit c = false ∧
      ((shedCfg s (56 + n)).resume = false → (stringOf t n).running = (stringOf s n).running)) ∧
  (∀ n k s, n < 4 → k < 16 → segPhase k (vget (stringOf s n).seg k) s.now = 0 →
    ∃ t, exec (.pwmPeriodStart ⟨4, n⟩) s = .next t ∧ (vget (stringOf t n).seg k).duty = d12 (vget (stringOf s n).seg k).cmd ∧
      (vget (stringOf t n).seg k).hz = (stringCfg s n).pwmHz ∧ (vget (stringOf t n).seg k).fitted = (stringCfg s n).usedMask.testBit k) ∧
  (∀ e g st s, engineTurn s e = true → patOf s e = some g → s.plane.running = true → (engineOf s e).running = true →
    (engineOf s e).nextAt ≤ s.plane.lin →
    g.steps[(engineOf s e).step]? = some st → g.count = 1 → (engineOf s e).detached = [] → s.light.lag = [] → s.light.patNow < 1024 →
    s.points.writesNow < 4096 → s.points.now = [] → heldByAction s g.start = false → Tbl.wf 0 s.points.mem = true →
    ∃ t, exec (.patternUpdate e) s = .next t ∧ pget t g.start = st.value 1 ((engineOf s e).k + 1) 0 ∧
      (engineOf t e).nextAt = s.plane.lin + g.update ∧
      ((engineOf s e).k + 1 < st.duration → (engineOf t e).k = (engineOf s e).k + 1 ∧ (engineOf t e).running = true) ∧
      (st.duration ≤ (engineOf s e).k + 1 → g.steps[(engineOf s e).step + 1]? = none → (engineOf t e).running = false)) ∧
  (∀ w s, packetsDone s = true → s.light.lag = [w] → s.light.patNow < 1024 → s.points.writesNow < 4096 → s.points.now = [] →
    heldByAction s w.pt = false → Tbl.wf 0 s.points.mem = true →
    ∃ t, exec .patternWriteDeferred s = .next t ∧ t.light.lag = [] ∧ pget t w.pt = w.v) ∧
  (∀ p n s, KeeperRuns stringConfigOp p s → p.bit 16 0 = false → strCount p = 1 → n = strIx p 0 → p.fld 18 0 4 = 0 →
    ((List.range 4).all fun n => (stringCfg s n).fits) = true → (stringCfgOf p 0).fits = true →
    ∃ t, exec (.stringConfig p) s = .next t ∧ Completed p .ok s t ∧ stringCfg t n = stringCfgOf p 0 ∧ ∀ k, k ≠ n → stringCfg t k = stringCfg s k) ∧
  (∀ p e s, KeeperRuns patternLoadOp p s → e = p.fld 16 0 5 → p.bit 17 0 = false → p.bit 17 1 = false → (engineOf s e).running = false →
    ∃ t, exec (.patternLoad p) s = .next t ∧ Completed p .ok s t ∧ patOf t e = some (patProgOf p) ∧ ∀ k, k ≠ e → patOf t k = patOf s k) ∧
  (∀ p e g x s, FastRuns patternRunOp p s → e = p.fld 16 0 5 → p.bit 17 0 = false → patOf s e = some g → g.steps[p.fld 18 0 6]? = some x →
    1 ≤ x.op → x.op ≤ 4 →
    ∃ t, exec (.patternRun p) s = .next t ∧ Completed p .ok s t ∧ (engineOf t e).running = true ∧ (engineOf t e).step = p.fld 18 0 6 ∧
      (engineOf t e).k = 0 ∧ (engineOf t e).nextAt = s.plane.lin ∧ (engineOf t e).detached = []) ∧
  (∀ p e g s, FastRuns patternRunOp p s → e = p.fld 16 0 5 → p.bit 17 0 = true → p.bit 17 1 = false → patOf s e = some g →
    ∃ t, exec (.patternRun p) s = .next t ∧ Completed p .ok s t ∧ (engineOf t e).running = false)

/-- R181 (V_HEAD is 2.0 V; voltages in 0.1 V): a STRING.CONFIG with a record whose used segments and V_HEAD sum to more than 52.0 V completes
S_CONFLICT, and no setting, string, load or link state changes; and no STRING.CONFIG leaves such a sum where there was none. -/
def Obligations.StringVoltageStaysWithinR181 : Prop :=
  (∀ p i s, KeeperRuns stringConfigOp p s → p.bit 16 0 = false → i < strCount p →
    520 < (((List.range 16).filter fun k => (p.num (24 + 32 * i + 6) 2).testBit k).map fun k => p.num (24 + 32 * i + 8 + k) 1).sum + 20 →
    ∃ t, exec (.stringConfig p) s = .next t ∧ Completed p .conflict s t ∧ t.store = s.store ∧ t.light = s.light ∧ t.load = s.load ∧ t.link = s.link) ∧
  (∀ p s t, KeeperRuns stringConfigOp p s → exec (.stringConfig p) s = .next t →
    (∀ n, n < 4 → (((List.range 16).filter fun k => (stringCfg s n).usedMask.testBit k).map fun k => vget (stringCfg s n).vf k).sum + 20 ≤ 520) →
    ∀ n, n < 4 → (((List.range 16).filter fun k => (stringCfg t n).usedMask.testBit k).map fun k => vget (stringCfg t n).vf k).sum + 20 ≤ 520)

/-- R199–R202, Tables 07.16–07.18: a frame slot sends the frame that is due, or counts a skipped one while a frame is on its way; with nothing else before
Dark it sends the link's DATA frame with SLEEP (R202, R283); a DATA frame that returns
whole in time is counted and ends a BREAK, and one past its deadline is lost; after three lost frames the link enters BREAK and posts it, and a BEACON names
the break; in MISMATCH an ENUM frame goes out every 800,000 ticks; IVGAL.ENUM sends an ENUM frame and stays S_PENDING, and replies or adopts the identities;
IVGAL.CONFIG sets the link, IVGAL.DIAG with CLEAR clears the counts. -/
def Obligations.IvgalLinksRun : Prop :=
  (∀ n ty s, n < 16 → linksUp s = true → ((linkCfg s n).enable && darkReady s) = false → slotTick (linkCfg s n).period n s.plane.tick = true →
    slotType s n = some ty → (linkOf s n).flight = none →
    ∃ t, exec (.ivgalFrameSlot n) s = .next t ∧ (linkOf t n).flight.map (fun f => (f.type, f.seq, f.sentAt)) = some (ty, (linkOf s n).frame % 16, s.plane.lin) ∧
      (linkOf t n).frame = (linkOf s n).frame + 1 ∧ (linkOf t n).frames = satAdd32 (linkOf s n).frames 1 ∧ ∀ k, k ≠ n → linkOf t k = linkOf s k) ∧
  (∀ n s, n < 16 → (linkCfg s n).enable = true → darkReady s = true → slotTick (linkCfg s n).period n s.plane.tick = true →
    (linkOf s n).slept = none → (linkOf s n).flight = none →
    ∃ t, exec (.ivgalFrameSlot n) s = .next t ∧ (linkOf t n).flight.map (·.type) = some .data ∧ (linkOf t n).slept.isSome = true ∧
      (linkOf t n).lastSent.take 3 = (ivgHeader 1 (linkOf s n).frame true).take 3) ∧
  (∀ n s, n < 16 → linksUp s = true → ((linkCfg s n).enable && darkReady s) = false → slotTick (linkCfg s n).period n s.plane.tick = true →
    (slotType s n).isSome = true → (linkOf s n).flight.isSome = true →
    ∃ t, exec (.ivgalFrameSlot n) s = .next t ∧ (linkOf t n).skipped = satAdd32 (linkOf s n).skipped 1 ∧ (linkOf t n).flight = (linkOf s n).flight) ∧
  (∀ n r f s, n < 16 → (linkOf s n).flight = some f → f.type = .data → (linkOf s n).enumFor = [] → r.lost = false →
    r.hcrcOk = true → r.seq = f.seq → s.plane.lin ≤ f.sentAt + f.deadline →
    ∃ t, exec (.ivgalFrameReturn n r) s = .next t ∧ (linkOf t n).flight = none ∧ (linkOf t n).returned = satAdd32 (linkOf s n).returned 1 ∧
      (linkOf t n).lostRun = 0 ∧ (linkOf t n).lastRet = sat16 (s.plane.lin - f.sentAt) ∧ (linkOf t n).brk = false ∧
      ((linkOf s n).brk = true → Posted s t (s.ev 3 0x0421 n (sat16 (linkOf s n).lostRun)))) ∧
  (∀ n r f s, n < 16 → (linkOf s n).flight = some f → f.type = .data → (linkOf s n).enumFor = [] → f.sentAt + f.deadline < s.plane.lin →
    ∃ t, exec (.ivgalFrameReturn n r) s = .next t ∧ (linkOf t n).flight = none ∧ (linkOf t n).lost = satAdd32 (linkOf s n).lost 1 ∧
      (linkOf t n).lostRun = (linkOf s n).lostRun + 1) ∧
  (∀ n s, n < 16 → 3 ≤ (linkOf s n).lostRun → (linkOf s n).brk = false →
    ∃ t, exec (.ivgalBreak n) s = .next t ∧ (linkOf t n).brk = true ∧ (linkOf t n).breaks = satAdd32 (linkOf s n).breaks 1 ∧
      Posted s t (s.ev 3 0x0420 (ivgAddress n (linkOf s n).breakAt) (linkOf s n).beaconRecords)) ∧
  (∀ n a l s, n < 16 → (linkOf s n).brk = true → (linkOf s n).breakAt ≠ a →
    ∃ t, exec (.ivgalBeaconRx n a l) s = .next t ∧ (linkOf t n).breakAt = a ∧ (linkOf t n).beaconRecords = l.length ∧
      Posted s t (s.ev 3 0x0420 (ivgAddress n a) l.length)) ∧
  (∀ n s, n < 16 → linksUp s = true → (linkCfg s n).enable = true → (linkOf s n).mismatch = true → (linkOf s n).slept = none →
    (linkOf s n).flight = none → (linkOf s n).lastEnum + 800000 ≤ s.plane.lin →
    ∃ t, exec (.ivgalMismatchEnum n) s = .next t ∧ (linkOf t n).flight.map (·.type) = some .enum ∧ (linkOf t n).lastEnum = s.plane.lin) ∧
  (∀ p n tb s, KeeperRuns ivgalEnumOp p s → n = p.fld 16 0 4 → p.fld 17 0 2 = 2 → (linkCfg s n).table = some tb →
    ∃ t, exec (.ivgalEnum p) s = .next t ∧ Completed p .ok s t ∧ Replied p s t (enumReply p tb 0) ∧ t.store.light = s.store.light) ∧
  (∀ p n s, KeeperRuns ivgalEnumOp p s → n = p.fld 16 0 4 → p.fld 17 0 2 < 2 → linksUp s = true → (linkOf s n).slept = none →
    (linkOf s n).flight = none → enumAsked s n p = false → ((linkOf s n).found.find? fun f => p.ring == f.1.ring && p.slot == f.1.slot) = none →
    ∃ t, exec (.ivgalEnum p) s = .next t ∧ (linkOf t n).flight.map (·.type) = some .enum ∧ p ∈ (linkOf t n).waitFor ∧
      t.plane.results = s.plane.results) ∧
  (∀ p n q ids s, KeeperRuns ivgalEnumOp p s → n = p.fld 16 0 4 → p.fld 17 0 2 = 0 →
    ((linkOf s n).found.find? fun f => p.ring == f.1.ring && p.slot == f.1.slot) = some (q, some ids) →
    ((adoptTable 0 ids).map Sat.points).sum ≤ 16384 →
    ∃ t, exec (.ivgalEnum p) s = .next t ∧ Completed p .ok s t ∧ (linkCfg t n).table = some (adoptTable 0 ids) ∧ (linkOf t n).mismatch = false) ∧
  (∀ p n s, KeeperRuns ivgalConfigOp p s → n = p.fld 16 0 4 → p.bit 16 4 = false → ivgCount p = 0 →
    linkAgrees { linkCfg s n with enable := p.bit 16 5, fullEvery := p.num 17 1, period := p.num 20 4 } = true →
    ∃ t, exec (.ivgalConfig p) s = .next t ∧ Completed p .ok s t ∧
      linkCfg t n = { linkCfg s n with enable := p.bit 16 5, fullEvery := p.num 17 1, period := p.num 20 4 } ∧
      (p.bit 16 5 = true → (linkCfg s n).enable = false → (linkOf t n).starting = true)) ∧
  (∀ p n s, KeeperRuns ivgalDiagOp p s → n = p.fld 16 0 4 → p.bit 17 0 = true →
    ∃ t, exec (.ivgalDiag p) s = .next t ∧ Completed p .ok s t ∧ (linkOf t n).frames = 0 ∧ (linkOf t n).returned = 0 ∧ (linkOf t n).skipped = 0 ∧
      (linkOf t n).lost = 0 ∧ (linkOf t n).breaks = 0 ∧ (linkOf t n).brk = (linkOf s n).brk)

/-- R101–R114, Tables 04.8–04.12: a POINT.WRITE writes its point, for its compartment and in the result stream, and no other; a point that a PULSE or RAMP
holds stays, and the packet completes S_BUSY; beyond 4,096 writes of the tick its write moves to the next one and the packet waits for it. POINT.READ waits for
the end of its tick and is answered then, with the values that its points have by then; the read window returns the value of a point. POINT.TYPE sets
the attributes; a timer counts down by 1 at its timebase, after the packets of the tick; a write that moved is made in the tick that follows. -/
def Obligations.PointsAndTimersAct : Prop :=
  (∀ p pt v s, FastRuns pointWriteOp p s → pointWriteEntries p = [(pt, v)] → s.points.writesNow < 4096 → heldByAction s pt = false →
    s.points.now = [] → Tbl.wf 0 s.points.mem = true →
    ∃ t, exec (.pointWrite p) s = .next t ∧ Completed p .ok s t ∧ pget t pt = v ∧
      ResultItem.write s.stamp.tick pt v Writer.direct.code p.comp ∈ t.plane.results ∧ ∀ q, q ≠ pt → pget t q = pget s q) ∧
  (∀ p pt v s, FastRuns pointWriteOp p s → pointWriteEntries p = [(pt, v)] → s.points.writesNow < 4096 → heldByAction s pt = true →
    ∃ t, exec (.pointWrite p) s = .next t ∧ Completed p .busy s t ∧ t.points.mem = s.points.mem) ∧
  (∀ p pt v s, FastRuns pointWriteOp p s → pointWriteEntries p = [(pt, v)] → 4096 ≤ s.points.writesNow →
    ∃ t w, exec (.pointWrite p) s = .next t ∧ t.points.mem = s.points.mem ∧ t.points.moving = s.points.moving ++ [w] ∧ w.pt = pt ∧ w.v = v ∧
      w.kind = .direct ∧ t.plane.results = s.plane.results ∧ ∃ l ∈ t.points.lateWriters, l.p = p ∧ l.left = 1) ∧
  (∀ p s, FastRuns pointReadOp p s →
    ∃ t, exec (.pointRead p) s = .next t ∧ t.points.reads = s.points.reads ++ [p] ∧ t.points.mem = s.points.mem ∧
      t.plane.results = s.plane.results) ∧
  (∀ p s, s.points.reads = [p] → ranLate p s = false → (s.points.stale = false ∨ ∀ pt ∈ pointReadPoints p, isFieldInput pt = false) →
    Completed p .ok s (answerReads s) ∧ (answerReads s).points.reads = [] ∧ Replied p s (answerReads s) ((16, 2, pointCount p) ::
      (List.range (pointReadPoints p).length).map fun i => (24 + 2 * i, 2, (pget s ((pointReadPoints p).getD i 0)).toNat))) ∧
  (∀ s c pt, c < 14 → mayRead s c (gallery pt) = true → gallery pt < 96 → pt < 2 ^ 19 → windowRead s c (0x41000000 + 2 * pt) = pget s pt) ∧
  (∀ p s, KeeperRuns pointTypeOp p s → p.bit 16 0 = false → pointCount p = 1 → Tbl.wf {} s.store.attrs = true →
    (timersAfter s (pointStart p) (pointStart p + 1) (p.fld 24 0 2 == 2) ≤ 4096 →
      ∃ t, exec (.pointType p) s = .next t ∧ Completed p .ok s t ∧ attrOf t (pointStart p) = pointTypeAttr p ∧
        ∀ q, q ≠ pointStart p → attrOf t q = attrOf s q) ∧
    (4096 < timersAfter s (pointStart p) (pointStart p + 1) (p.fld 24 0 2 == 2) →
      ∃ t, exec (.pointType p) s = .next t ∧ Completed p .busy s t ∧ t.store.attrs = s.store.attrs)) ∧
  (∀ pt s, packetsDone s = true → timerDue s pt = true → s.points.writesNow < 4096 → Tbl.wf 0 s.points.mem = true →
    ∃ t, exec (.timerExpiry pt) s = .next t ∧ pget t pt = pget s pt - 1 ∧ t.points.timersNow = pt :: s.points.timersNow ∧
      ∀ q, q ≠ pt → pget t q = pget s q) ∧
  (∀ w s, s.points.deferred = [w] → s.points.writesNow < 4096 → (w.kind = .pattern → s.light.patNow < 1024) → (w.kind = .reflex ∨ w.kind = .device ∨ heldByAction s w.pt = false) →
    s.points.now = [] → Tbl.wf 0 s.points.mem = true →
    ∃ t, exec .pointWriteDeferred s = .next t ∧ t.points.deferred = [] ∧ pget t w.pt = w.v ∧ ∀ q, q ≠ w.pt → pget t q = pget s q)

/-- R115–R119, Tables 04.13–04.20: a change that a rule matches, as it stood at the change's stamp (R86), while its gate is true fires it, and its WRITE action writes the target and counts; an action
that was put off is carried out as its rule fired: WRITE and PULSE write the value, PULSE and RAMP run on, EVENT posts REFLEX_EVENT under the trigger's stamp; a pulse returns its
target at its end; a ramp takes its steps, and ends at VALUE; REFLEX.LOAD puts its rule in, or rejects it where A and B do not agree; REFLEX.ENABLE enables
or disables it and may end its actions; REFLEX.STATS replies the counts and may clear them. -/
def Obligations.ReflexRulesFire : Prop :=
  (∀ c i r s, inputsIn s = true → s.points.queue = [c] → s.points.evalNow < 16 → rulesAt s (stampOf s c.lin) = [(i, r)] →
    r.watches c.pt = true → r.hit (armedAt s (stampOf s c.lin) i) c.old c.new = true → gateTrue s r = true → r.action = 0 → r.post = false → s.points.actsNow < 32 →
    s.points.actQueue = [] → s.points.writesNow < 4096 → s.points.now = [] → Tbl.wf 0 s.points.mem = true → Tbl.wf 0 s.points.fires = true →
    ∃ t, exec .reflexEvaluate s = .next t ∧ t.points.queue = [] ∧ pget t r.target = BitVec.ofNat 16 r.value ∧
      Tbl.get t.points.fires 0 i = satAdd32 (Tbl.get s.points.fires 0 i) 1 ∧ t.points.stats.evaluated = satAdd32 s.points.stats.evaluated 1) ∧
  (∀ a r s, inputsIn s = true → s.points.actQueue = [a] → s.points.actsNow < 32 → r = a.rule → s.points.writesNow < 4096 →
    s.points.now = [] → Tbl.wf 0 s.points.mem = true →
    ∃ t, exec .reflexActionDeferred s = .next t ∧ t.points.actQueue = [] ∧ t.points.actsNow = s.points.actsNow + 1 ∧
      (r.action ≤ 1 → pget t r.target = BitVec.ofNat 16 r.value) ∧
      (r.action = 1 → ∃ x ∈ t.points.running, x.pt = r.target ∧ x.ramp = false ∧ x.rule = a.index ∧ x.fire = s.plane.lin ∧ x.duration = r.duration) ∧
      (r.action = 2 → 1 < r.duration → ∃ x ∈ t.points.running, x.pt = r.target ∧ x.ramp = true ∧ x.fire = s.plane.lin ∧ x.k = 1 ∧
        x.value = BitVec.ofNat 16 r.value ∧ x.start = pget s r.target) ∧
      (r.action = 5 → Posted s t { s.ev 3 0x0403 a.trigPt r.value true r.owner with stamp := stampOf s a.trigLin })) ∧
  (∀ pt a s, inputsIn s = true → s.points.running.find? (fun x => x.pt == pt && !x.ramp) = some a → a.fire + a.duration ≤ s.plane.lin →
    s.points.writesNow < 4096 → s.points.now = [] → Tbl.wf 0 s.points.mem = true →
    ∃ t, exec (.pulseEnd pt) s = .next t ∧ pget t pt = a.start ∧ heldByAction t pt = false ∧ ∀ q, q ≠ pt → pget t q = pget s q) ∧
  (∀ pt a k s, inputsIn s = true → s.points.running.find? (fun x => x.pt == pt && x.ramp) = some a →
    k = min a.duration (s.plane.lin - a.fire + 1) → a.k < k → s.points.writesNow < 4096 → s.points.now = [] → Tbl.wf 0 s.points.mem = true →
    ∃ t, exec (.rampStep pt) s = .next t ∧ (pget t pt).toNat / 16 = (rampValue a.start a.value k a.duration).toNat / 16 ∧
      (k = a.duration → pget t pt = a.value ∧ heldByAction t pt = false) ∧
      (k < a.duration → ∃ x ∈ t.points.running, x.pt = pt ∧ x.ramp = true ∧ x.k = k) ∧ ∀ q, q ≠ pt → pget t q = pget s q) ∧
  (∀ p i r s, KeeperRuns reflexLoadOp p s → loadRules p = [(i, r)] → Tbl.wf {} s.store.rules = true →
    (r.agrees = true → triggersFit (Tbl.put s.store.rules {} i r) = true → (r.action = 3 → (patternOwner s r.index).isSome = true) →
      (r.action = 4 → (templateOwner s r.index).isSome = true) →
      ∃ t, exec (.reflexLoad p) s = .next t ∧ Completed p .ok s t ∧ ruleAt t i = r ∧ (∀ k, k ≠ i → ruleAt t k = ruleAt s k) ∧
        (Tbl.wf false s.points.armed = true → Tbl.get t.points.armed false i = (r.enabled && r.armsAt (pget s r.trig)))) ∧
    (r.agrees = false → ∃ t, exec (.reflexLoad p) s = .next t ∧ Completed p .conflict s t ∧ t.store.rules = s.store.rules)) ∧
  (∀ p i r s, KeeperRuns reflexEnableOp p s → usedRules s (p.num 16 2) (p.num 18 2) = [(i, r)] → Tbl.wf {} s.store.rules = true →
    ∃ t, exec (.reflexEnable p) s = .next t ∧ Completed p .ok s t ∧ ruleAt t i = { r with enabled := p.bit 20 0 } ∧
      (p.bit 20 1 = true → ∀ x ∈ t.points.running, x.rule ≠ i) ∧ (p.bit 20 1 = false → t.points.mem = s.points.mem)) ∧
  (∀ p s, KeeperRuns reflexStatsOp p s →
    ∃ t, exec (.reflexStats p) s = .next t ∧ Completed p .ok s t ∧ Replied p s t (reflexStatsOp.run p s).reply ∧
      (p.bit 20 0 = true → t.points = { s.points with stats := {}, fires := [] }) ∧ (p.bit 20 0 = false → t.points = s.points))

/-- R205–R213, Tables 08.1 and 08.13, with the typical thresholds and the mean without its fraction (the model's choices, log entries 136 and 138): at a sample
tick of an enabled input the raw state follows its level and the filter counts it; where the output changes, the point is delivered, and an armed
WAKE_EN input latches; a conversion takes its slot, and the last one that the oldest interval start asks for delivers the mean; cyclic sensing counts the periods that differ from the
reference and wakes after DARK_CONFIRM of them; after Dark or Buoy every input that differs from its point is delivered under the first tick of its joined stream;
INPUT.CONFIG sets the input that its record names, leaves its output, and writes the point of a disabled one 0 at E. -/
def Obligations.InputsDeliverAndSense : Prop :=
  (∀ i mv raw c o s, i < 48 → siSampled s = true → (siCfg s i).enable = true → sampleTick i (siCfg s i).sample s.input.count = true →
    raw = (if siThreshold (siCfg s i) s.seq.vbatl < mv then (siCfg s i).toBat
      else if mv + 500 < siThreshold (siCfg s i) s.seq.vbatl then !(siCfg s i).toBat else (siOf s i).raw) →
    c = (if raw = true then min ((siOf s i).count + 1) (siCfg s i).countF else (siOf s i).count - 1) →
    o = (if c = (siCfg s i).countF then true else if c = 0 then false else (siOf s i).out) →
    ∃ t, exec (.siFilterChange i mv) s = .next t ∧ siOf t i = { siOf s i with raw := raw, count := c, out := o } ∧
      (∀ k, k ≠ i → siOf t k = siOf s k) ∧ (o = (siOf s i).out → t.plane = s.plane) ∧
      (o ≠ (siOf s i).out → Observed s t 7 i [(siPoint i, BitVec.ofNat 16 (b2n o))] []) ∧
      (o ≠ (siOf s i).out → (siCfg s i).wakeEn = true → armedSource s 1 i = true → ∃ l ∈ t.sleep.latches, l.cause = 1 ∧ l.index = i)) ∧
  (∀ n mv code s, slotOwner s = some n → code = min 4095 (mv * 4096 / (if (vget s.store.input.ai n).range = 0 then 5000 else 40000)) →
    ∃ t, exec (.aiConversionResult n mv) s = .next t ∧ slotOwner t = none ∧
      ((vget s.input.ai n).got.length + 1 ≠ (vget s.input.ai n).starts.headD 0 → (vget t.input.ai n).got = (vget s.input.ai n).got ++ [code] ∧
        (vget t.input.ai n).starts = (vget s.input.ai n).starts ∧ t.plane = s.plane) ∧
      ((vget s.input.ai n).got.length + 1 = (vget s.input.ai n).starts.headD 0 →
        vget t.input.ai n = { starts := (vget s.input.ai n).starts.drop 1 } ∧ Observed s t 7 (64 + n)
        [(aiPoint n, BitVec.ofNat 16 (16 * (((vget s.input.ai n).got ++ [code]).sum / ((vget s.input.ai n).got.length + 1))))] [])) ∧
  (∀ g mvs s, sensing s = true → g < 6 → pulseEnds s g = true →
    ∃ t, exec (.cyclicSense ⟨g, mvs⟩) s = .next t ∧ t.plane = s.plane ∧ ∀ i n, i < 48 →
      n = (if siRaw (siCfg s i) s.seq.vbatl (siOf s i).raw (mvs.getD (i - 8 * g) 0) = (siOf s i).ref then 0 else (siOf s i).differs + 1) →
      (i / 8 = g → (siCfg s i).wakeEn = true → (siOf t i).differs = n ∧
        (s.store.input.dark.confirm ≤ n → armedSource s 1 i = true → ∃ l ∈ t.sleep.latches, l.cause = 1 ∧ l.index = i)) ∧
      (i / 8 ≠ g ∨ (siCfg s i).wakeEn = false → siOf t i = siOf s i)) ∧
  (∀ s, ∃ t, exec .tickHallInputReload s = .next t ∧
    (s.input.reloadSi = true → feedsL0 s 7 = true → t.input.reloadSi = false ∧ ∀ i, i < 48 → pget s (siPoint i) ≠ BitVec.ofNat 16 (b2n (siOf s i).out) →
      Delivered s t (joinStamp s 7) 7 i [(siPoint i, BitVec.ofNat 16 (b2n (siOf s i).out))] []) ∧
    (s.input.reloadFi = true → feedsL0 s 8 = true → s.points.stale = false → s.input.die.running = true → t.input.reloadFi = false ∧
      ∀ n, n < 16 → pget s (fiPoint n) ≠ BitVec.ofNat 16 (b2n (vget s.input.die.fi n).out) →
        Delivered s t (joinStamp s 8) 8 n [(fiPoint n, BitVec.ofNat 16 (b2n (vget s.input.die.fi n).out))] [])) ∧
  (∀ p i s, KeeperRuns inputConfigOp p s → p.bit 16 0 = false → p.bit 16 1 = false → inCount p = 1 → inIsAi p 0 = false → i = inIx p 0 →
    inputsAgree { s.store.input with si := vmod s.store.input.si i fun _ => siCfgOf p 0 } = true →
    ∃ t, exec (.inputConfig p) s = .next t ∧ Completed p .ok s t ∧ siCfg t i = siCfgOf p 0 ∧ (∀ k, k ≠ i → siCfg t k = siCfg s k) ∧
      t.store.input.ai = s.store.input.ai ∧ (siOf t i).out = (siOf s i).out ∧
      (siOf t i).count = (if (siOf s i).out = true then (siCfgOf p 0).countF else 0) ∧
      ((siCfgOf p 0).enable = false → landed s 0 s.stamp = false → Delivered s t s.stamp 7 i [(siPoint i, 0)] []) ∧
      ((siCfgOf p 0).enable = false → landed s 0 s.stamp = true → feedsL0 s 7 = true → s.points.writesNow < 4096 → Tbl.wf 0 s.points.mem = true →
        pget t (siPoint i) = 0)) ∧
  (∀ p n s, KeeperRuns inputConfigOp p s → p.bit 16 0 = false → p.bit 16 1 = false → inCount p = 1 → inIsAi p 0 = true → n = inIx p 0 →
    (inputsAgree { s.store.input with ai := vmod s.store.input.ai n fun _ => aiCfgOf p 0 } = true →
      ∃ t, exec (.inputConfig p) s = .next t ∧ Completed p .ok s t ∧ vget t.store.input.ai n = aiCfgOf p 0 ∧ t.store.input.si = s.store.input.si ∧
        vget t.input.ai n = {}) ∧
    (inputsAgree { s.store.input with ai := vmod s.store.input.ai n fun _ => aiCfgOf p 0 } = false →
      ∃ t, exec (.inputConfig p) s = .next t ∧ Completed p .conflict s t ∧ t.store.input = s.store.input))

/-- R215–R229, Tables 08.4–08.15, with the typical thresholds of the inputs and the numbering of the configuration words (the model's choices, log entries 136
and 139): the field die follows its supplies, stops at 8.0 V and powers up above 10.0 V without a configuration; its inputs change at their samples and enter the frame; a
good frame sets its tick, queues its output commands and may complete its configuration, a bad one breaks the run; LINK_LOST gives every output its fail
state, eight good frames end it; the keeper's configuration words and PARK; faults of an output lock, hold or show by the readings of
Table 08.8; on the main die a good frame delivers its changes,
its classes and the end of the stale state under their own stamps, a missed window is counted, and the third in a row makes the points stale; FIELD.CONFIG and FIELD.STATUS. -/
def Obligations.FieldDieAndBarrierAct : Prop :=
  (∀ k mv s, k < 2 → s.input.die.running = true →
    ∃ t, exec (.fieldSupplyChange k mv) s = .next t ∧ vget t.input.fs k = mv ∧ t.plane = s.plane ∧
      (mv < 9000 → t.input.die.cls k = 2 ∧ (k = 1 → s.input.die.fsb ≠ 2 → ∀ n, n < 8 →
        (foOf t n).cond.holds.testBit 1 = true ∧ foOn t.input.die n = false)) ∧
      (9000 ≤ mv → mv ≤ 10000 → t.input.die.cls k = max (s.input.die.cls k) 1) ∧
      (10000 < mv → mv ≤ 19000 → s.input.die.cls k = 2 → t.input.die.cls k = (if heldFor s.now (vget s.input.die.lowFrom k) = true then 1 else 2)) ∧
      (19000 < mv → heldFor s.now (vget s.input.die.okFrom k) = true → t.input.die.cls k = 0 ∧ (k = 1 → s.input.die.fsb ≠ 0 → ∀ n, n < 8 →
        (foOf t n).cond.holds.testBit 1 = false))) ∧
  (∀ s, s.input.die.running = true → max (vget s.input.fs 0) (vget s.input.fs 1) ≤ 8000 →
    ∃ t, exec .fieldDieStop s = .next t ∧ t.input.die = {} ∧ t.input.link = s.input.link) ∧
  (∀ s, s.input.die.running = false → 10000 < max (vget s.input.fs 0) (vget s.input.fs 1) →
    ∃ t, exec .fieldDiePowerUp s = .next t ∧ t.input.die.running = true ∧ t.input.die.restarted = true ∧ t.input.die.configured = false ∧
      t.input.die.lost = true ∧ t.input.die.fsa = 2 ∧ t.input.die.fsb = 2 ∧ (∀ n, n < 8 → (foOf t n).cond.holds.testBit 1 = true ∧
        foOn t.input.die n = false) ∧ ∀ n, n < 16 → (vget t.input.die.fi n).out = false) ∧
  (∀ n mv raw c o g x s, n < 16 → s.input.die.running = true → g = vget s.input.die.fiCfg n → x = vget s.input.die.fi n → g.enable = true →
    (s.input.die.parked = true → g.wakeEn = true) → sampleTick n g.sample s.input.die.tick = true →
    raw = (if (if g.type3 = true then 9500 else 13000) ≤ mv then true else if mv ≤ (if g.type3 = true then 8500 else 12000) then false else x.raw) →
    c = (if raw = true then min (x.count + 1) g.countF else x.count - 1) →
    o = (if c = g.countF then true else if c = 0 then false else x.out) →
    ∃ t, exec (.fieldInputChange n mv) s = .next t ∧ vget t.input.die.fi n = { raw := raw, count := c, out := o } ∧
      (∀ k, k ≠ n → vget t.input.die.fi k = vget s.input.die.fi k) ∧ (o = x.out → t.input.die.chg = s.input.die.chg) ∧
      (o ≠ x.out → (⟨n, s.input.die.wire % 16, o⟩ : FieldChg) ∈ t.input.die.chg) ∧
      (o ≠ x.out → s.input.die.parked = true → armedSource s 8 n = true → ∃ l ∈ t.sleep.latches, l.cause = 8 ∧ l.index = n)) ∧
  (∀ f s, s.input.die.running = true → s.input.link.sent = some f →
    (s.input.die.lost = true ∨ s.input.die.parked = true ∨ f.tick = 0 ∨ s.input.die.nextWin.all (· == f.tick / 16) = true) →
    ∃ t, exec (.fieldFrameRx true) s = .next t ∧ t.input.link.sent = none ∧ t.input.die.lastGood = some f.tick ∧
      t.input.die.nextWin = some (f.tick / 16 + 1) ∧ t.input.die.wire = s.wallTick ∧
      t.input.die.goodRun = (if s.input.die.nextWin = some (f.tick / 16) ∨ f.tick = 0 then s.input.die.goodRun + 1 else 1) ∧
      t.input.die.parkDue = (f.park && !s.input.die.parked) ∧
      (f.park = false → s.input.die.lost = false → t.input.die.tick = s.wallTick ∧
        t.input.die.queue = s.input.die.queue ++ (List.range (min f.fo.length 16)).map fun j => (f.tick + j + 32, f.fo.getD j 0)) ∧
      (f.cfgValid = true → setBit s.input.die.cfgSeen f.cfgAddr true = 2 ^ 24 - 1 → t.input.die.configured = true ∧ t.input.die.restarted = false)) ∧
  (∀ f b s, s.input.die.running = true → s.input.link.sent = some f →
    (b = false ∨ (s.input.die.lost = false ∧ s.input.die.parked = false ∧ f.tick ≠ 0 ∧ ∃ w, s.input.die.nextWin = some w ∧ w ≠ f.tick / 16)) →
    ∃ t, exec (.fieldFrameRx b) s = .next t ∧ t.input.die = { s.input.die with goodRun := 0 } ∧ t.input.link.sent = none) ∧
  (∀ k s, s.input.die.running = true → s.input.die.lost = false → s.input.die.parked = false → s.input.die.lastGood = some k →
    k + 79 ≤ s.input.die.wire →
    ∃ t, exec .fieldLinkLost s = .next t ∧ t.input.die.lost = true ∧ t.input.die.queue = [] ∧ ∀ n, n < 8 →
      (vget t.input.die.fo n).cmd = (if (vget s.input.die.foCfg n).fail = 0 then false else if (vget s.input.die.foCfg n).fail = 1 then true
        else (vget s.input.die.fo n).cmd)) ∧
  (∀ s, s.input.die.running = true → s.input.die.lost = true → s.input.die.configured = true → 8 ≤ s.input.die.goodRun →
    ∃ t, exec .fieldLinkRecover s = .next t ∧ t.input.die.lost = false ∧ t.input.die.tick = s.input.die.wire ∧
      t.input.die.queue = [] ∧
      (s.input.link.cfgStored = true → t.input.die.fiCfg = s.store.input.fi ∧ t.input.die.foCfg = s.store.input.fo ∧ t.input.link.cfgStored = false)) ∧
  (∀ s, s.input.link.needCfg = true →
    ∃ t, exec .fieldReconfigure s = .next t ∧ t.input.link.needCfg = false ∧ t.input.link.cfgQueue = cfgWords s.store.input ∧
      t.input.link.cfgQueue.length = 24 ∧ t.input.die = s.input.die) ∧
  (∀ s, s.input.die.running = true → s.input.die.parkDue = true →
    ∃ t, exec .fieldPark s = .next t ∧ t.input.die.parked = true ∧ t.input.die.parkDue = false ∧ t.input.die.parkFi = fiState s.input.die ∧
      ∀ n, n < 8 → (vget t.input.die.fo n).cmd = ((vget s.input.die.fo n).cmd && (vget s.input.die.foCfg n).park != 0)) ∧
  (∀ n r s, n < 8 → s.input.die.running = true →
    (foOn s.input.die n = true → (∃ k ∈ r, 800 ≤ k) → ∃ t, exec (.fieldOutputFault n 7 r true) s = .next t ∧ (foOf t n).cond.locks.testBit 7 = true ∧
      (foOf t n).cond.active.testBit 7 = true ∧ foOn t.input.die n = false) ∧
    (foOn s.input.die n = true → (foOf s n).restarts < 16 → (∃ c ∈ r, 175 ≤ c) → ∃ t, exec (.fieldOutputFault n 6 r true) s = .next t ∧
      (foOf t n).cond.holds.testBit 6 = true ∧ (foOf t n).cond.locks = (foOf s n).cond.locks ∧ foOn t.input.die n = false) ∧
    (foOn s.input.die n = true → 16 ≤ (foOf s n).restarts → (∃ c ∈ r, 175 ≤ c) → ∃ t, exec (.fieldOutputFault n 6 r true) s = .next t ∧
      (foOf t n).cond.locks.testBit 6 = true ∧ (foOf t n).cond.thermDetail = 2 ∧ foOn t.input.die n = false) ∧
    ((foOf s n).cond.holds.testBit 6 = true → (∃ c ∈ r, c ≤ 160) → ∃ t, exec (.fieldOutputFault n 6 r false) s = .next t ∧ (foOf t n).cond.holds.testBit 6 = false ∧
      (foOf t n).restarts = (foOf s n).restarts + b2n (foOn t.input.die n)) ∧
    ((vget s.input.die.foCfg n).olEn = true → foOn s.input.die n = false → 8 ≤ r.length → (∀ v ∈ r, 4000 < v) →
      ∃ t, exec (.fieldOutputFault n 8 r true) s = .next t ∧
      (foOf t n).cond.active.testBit 8 = true ∧ (foOf t n).cond.locks = (foOf s n).cond.locks) ∧
    (8 ≤ r.length → (∀ v ∈ r, v < 4000) → ∃ t, exec (.fieldOutputFault n 8 r false) s = .next t ∧ (foOf t n).cond.active.testBit 8 = false) ∧
    (foOn s.input.die n = false → (∃ v ∈ r, vget s.input.fs 1 < v + 2000) →
      ∃ t, exec (.fieldOutputFault n 9 r true) s = .next t ∧ (foOf t n).cond.active.testBit 9 = true ∧ (foOf t n).cond.locks = (foOf s n).cond.locks) ∧
    ((∃ v ∈ r, v + 3000 < vget s.input.fs 1) → ∃ t, exec (.fieldOutputFault n 9 r false) s = .next t ∧ (foOf t n).cond.active.testBit 9 = false)) ∧
  (∀ f w s, s.plane.running = true → s.input.die.sent = some f → w = s.input.link.next → f.window = w % 65536 → 16 * w + 16 ≤ s.wallTick →
    (f.stale = false → ∃ t, exec (.barrierFrameRx true) s = .next t ∧ t.input.link.next = w + 1 ∧ t.input.link.missRun = 0 ∧ t.input.link.stale = false ∧
      t.input.die.sent = none ∧
      (∀ c ∈ f.chg, Delivered s t ⟨s.plane.epoch, 16 * w + c.offset + 32⟩ 8 c.input [(fiPoint c.input, BitVec.ofNat 16 (b2n c.value))] []) ∧
      (f.fsa ≠ s.input.link.fsa → Delivered s t ⟨s.plane.epoch, 16 * w + 47⟩ 8 16 [(fsPoint 0, BitVec.ofNat 16 f.fsa)]
        [s.ev 8 0x0602 (fsPoint 0) f.fsa true]) ∧
      (s.input.link.stale = true → Delivered s t ⟨s.plane.epoch, 16 * w + 47⟩ 8 0 [] [s.ev 8 0x0601 0 (2 * min s.input.link.missedNow 32767)] ∧
        (feedsL0 s 8 = true → ∃ it ∈ (vget t.plane.landings 0).items, it.stamp = ⟨s.plane.epoch, 16 * w + 47⟩ ∧ it.stale = some false))) ∧
    (f.stale = true → ∃ t, exec (.barrierFrameRx true) s = .next t ∧ t.input.link.next = w + 1 ∧ t.input.link.missRun = s.input.link.missRun + 1 ∧
      t.input.link.missed = s.input.link.missed)) ∧
  (∀ w s, s.plane.running = true → w = s.input.link.next → 16 * w + 47 ≤ s.wallTick →
    ∃ t, exec (.barrierWindowMiss w) s = .next t ∧ t.input.link.next = w + 1 ∧ t.input.link.missed = satAdd32 s.input.link.missed 1 ∧
      t.input.link.missRun = s.input.link.missRun + 1 ∧ t.points = s.points ∧
      (2 ≤ s.input.link.missRun → s.input.link.stale = false → s.input.link.parked = false → t.input.link.stale = true ∧
        t.input.link.losses = satAdd32 s.input.link.losses 1 ∧
        Delivered s t ⟨s.plane.epoch, 16 * w + 47⟩ 8 0 [] [s.ev 8 0x0601 0 (1 + 2 * min (s.input.link.missedNow + 1) 32767)] ∧
        (feedsL0 s 8 = true → ∃ it ∈ (vget t.plane.landings 0).items, it.stamp = ⟨s.plane.epoch, 16 * w + 47⟩ ∧ it.stale = some true))) ∧
  (∀ p n s, KeeperRuns fieldConfigOp p s → p.bit 16 0 = false → fcCount p = 1 → fcIsFo p 0 = false → n = fcIx p 0 → p.num 18 1 = 0 →
    ((vmod s.store.input.fi n fun _ => fiCfgOf p 0).toList.all fun g => !g.wakeEn || g.enable) = true →
    (s.points.stale = false → ∃ t, exec (.fieldConfig p) s = .next t ∧ Completed p .ok s t ∧ vget t.store.input.fi n = fiCfgOf p 0 ∧
      t.store.input.fo = s.store.input.fo ∧ t.input.die.fiCfg = t.store.input.fi) ∧
    (s.points.stale = true → ∃ t, exec (.fieldConfig p) s = .next t ∧ Completed p .stale s t ∧ vget t.store.input.fi n = fiCfgOf p 0 ∧
      t.input.die = s.input.die ∧ t.input.link.cfgStored = true)) ∧
  (∀ p n s, KeeperRuns fieldConfigOp p s → p.bit 16 0 = false → fcCount p = 1 → fcIsFo p 0 = true → n = fcIx p 0 → p.num 18 1 = 0 →
    (s.store.input.fi.toList.all fun g => !g.wakeEn || g.enable) = true → s.points.stale = false →
    ∃ t, exec (.fieldConfig p) s = .next t ∧ Completed p .ok s t ∧ vget t.store.input.fo n = foCfgOf p 0 ∧ t.store.input.fi = s.store.input.fi ∧
      t.input.die.foCfg = t.store.input.fo) ∧
  (∀ p n s, KeeperRuns fieldConfigOp p s → p.bit 16 0 = true → s.points.stale = false → bitList 8 (p.num 18 1) = [n] → n < 8 →
    (s.store.input.fi.toList.all fun g => !g.wakeEn || g.enable) = true → (foOf s n).cond.locks ≠ 0 →
    ((foOf s n).cond.locks.testBit 6 = false ∨ (foOf s n).cond.cool = true →
      ∃ t, exec (.fieldConfig p) s = .next t ∧ Completed p .ok s t ∧ (foOf t n).cond.locks = 0 ∧ t.store.input = s.store.input) ∧
    ((foOf s n).cond.locks.testBit 6 = true → (foOf s n).cond.cool = false →
      ∃ t, exec (.fieldConfig p) s = .next t ∧ Completed p .locked s t ∧ (foOf t n).cond = (foOf s n).cond)) ∧
  (∀ p s, KeeperRuns fieldStatusOp p s →
    ∃ t, exec (.fieldStatus p) s = .next t ∧ Completed p (if s.points.stale = true then .stale else .ok) s t ∧
      Replied p s t (fieldStatusOp.run p s).reply ∧ t.input.die = s.input.die ∧
      (p.bit 16 0 = true → t.input.link.missed = 0 ∧ t.input.link.chgOverflow = 0 ∧ t.input.link.losses = 0) ∧
      (p.bit 16 0 = false → t.input = s.input))

/-- R235–R252: an accepted frame is counted, stored by its element and its signals delivered; one that no element matches is counted, and an FD frame on a
controller that is not set to FD is an error; a secure one waits 32 ticks for its verdict, which comes under that stamp and moves the freshness of its stream or
counts the failure; a definition not written in time is posted; a frame is handed over with its HANDLE, secure ones with the next counter and a tag to come, and a
cancellation removes the frame it names; a tag becomes ready, or its frame leaves where its stream's key has been revoked (R311); a transmission ends, loses arbitration, clashes or runs out of its time; errors count, by the steps of ISO 11898-1 that
log entry 181 names (R248 gives the standard), the error state follows the counters, and an idle bus puts new records in force. -/
def Obligations.CanControllersAct : Prop :=
  (∀ c f s, c < 8 → cutOff s = false → (canMode s c).op = 1 → ((canOf s c).state = 1 ∨ (canOf s c).state = 2) → (canOf s c).isOwn f = false →
    (netOf s c).xcvr < 2 →
    (∀ i e k address value, (f.fdf = true → (canMode s c).fd = true ∧ f.res = false) → findElem s c f = some i → e = filterAt s i →
      e.secure = false → 1 ≤ e.action → e.action ≤ 3 → Tbl.wf {} (canOf s c).ram = true →
      k = (if e.action = 3 then e.buffer else if e.action = 1 then 64 + (canOf s c).wseq0 % 64 else 128 + (canOf s c).wseq1 % 64) →
      address = (if e.action = 3 then c + 16 + 32 * e.buffer else if e.action = 1 then c else c + 8) →
      value = (if e.action = 3 then (Tbl.get (canOf s c).ram {} e.buffer).seq / 2 + 1 else if e.action = 1 then (canOf s c).wseq0
        else (canOf s c).wseq1) % 65536 →
      ∃ t, exec (.canFrameAccept c f) s = .next t ∧ (canOf t c).rxFrames = satAdd32 (canOf s c).rxFrames 1 ∧
        (Tbl.get (canOf t c).ram {} k).data = (if f.rtr = true then [] else f.data) ∧ (Tbl.get (canOf t c).ram {} k).word = frameWord f ∧
        (Tbl.get (canOf t c).ram {} k).stamp = s.wallStamp.word ∧ (Tbl.get (canOf t c).ram {} k).element = i ∧
        (canOf t c).wseq0 = (if e.action = 1 then ((canOf s c).wseq0 + 1) % 2 ^ 32 else (canOf s c).wseq0) ∧
        (canOf t c).wseq1 = (if e.action = 2 then ((canOf s c).wseq1 + 1) % 2 ^ 32 else (canOf s c).wseq1) ∧
        Observed s t 6 c (if f.rtr = true then [] else (extract s e.sigFirst e.sigCount f.data).1.map fun w => (sigPoint w.1, w.2))
          (if e.notify = true then [s.ev 6 0x0701 address value] else [])) ∧
    ((f.fdf = true → (canMode s c).fd = true ∧ f.res = false) → findElem s c f = none → (canMode s c).nonmatch = 0 →
      ∃ t, exec (.canFrameAccept c f) s = .next t ∧ (canOf t c).nonmatch = satAdd32 (canOf s c).nonmatch 1 ∧
        (canOf t c).rxFrames = satAdd32 (canOf s c).rxFrames 1 ∧ (canOf t c).ram = (canOf s c).ram ∧ Observed s t 6 c [] []) ∧
    (∀ i, (f.fdf = true → (canMode s c).fd = true ∧ f.res = false) → findElem s c f = some i → (filterAt s i).secure = true → (filterAt s i).action ≠ 0 →
      ∃ t, exec (.canFrameAccept c f) s = .next t ∧ (canOf t c).ram = (canOf s c).ram ∧ Observed s t 6 c [] [] ∧
        (canOf t c).verdicts = (canOf s c).verdicts ++ [⟨f, i, (filterAt s i).stream, s.now + 32, ⟨s.plane.epoch, s.wallTick + 32⟩, false⟩]) ∧
    (f.fdf = true → (canMode s c).fd = false →
      ∃ t, exec (.canFrameAccept c f) s = .next t ∧ (canOf t c).errors = satAdd32 (canOf s c).errors 1 ∧ (canOf t c).recErr = (canOf s c).recErr + 1 ∧
        (canOf t c).rxFrames = (canOf s c).rxFrames ∧ (canOf t c).ram = (canOf s c).ram)) ∧
  (∀ c v l s, c < 8 → v.stream < 8 → cutOff s = false → (canOf s c).verdicts = v :: l → v.at_ ≤ s.now →
    ∃ t, exec (.secureCanVerdict c) s = .next t ∧ (canOf t c).verdicts = l ∧
      ((judge s v).1 = .ok → (streamOf t v.stream).fr = (judge s v).2 ∧ (canOf t c).authFail = (canOf s c).authFail) ∧
      ((judge s v).1 ≠ .ok → (streamOf t v.stream).fr = (streamOf s v.stream).fr ∧ (canOf t c).authFail = satAdd32 (canOf s c).authFail 1 ∧
        ((filterAt s v.element).notify = false → v.stamp.epoch = s.plane.epoch →
          Delivered s t v.stamp 6 c [] [s.ev 6 0x0704 (c + 8 * v.stream) (authFailValue (judge s v).1)]))) ∧
  (∀ d s, (sigOf s d).length ≠ 0 → (sigOf s d).timeout ≠ 0 → s.plane.running = true → s.plane.tick % 8000 = 0 → s.bus.sigOut.contains d = false →
    max s.bus.sigBase (Tbl.get s.bus.sigLast 0 d) + msTicks (sigOf s d).timeout ≤ s.plane.lin →
    ∃ t, exec (.signalTimeout d) s = .next t ∧ Posted s t (s.ev 3 0x0705 (sigPoint d) (sigOf s d).timeout true) ∧ t.bus.sigOut.contains d = true) ∧
  (∀ sof p late q x l s, s.bus.l4 = x :: l → x.lin < s.plane.lin → x.kind = .send p late → q = sendReq s p → q.c < 8 →
    (queueFree (canOf s q.c) q.queue = true → dryReplay s = false → q.secure = false →
      ∃ t, exec (.frameHandover sof) s = .next t ∧ t.bus.l4 = l ∧ (p.bit 16 4 = false → Completed p (lateStatus late .ok) s t) ∧
        ∃ f ∈ (canOf t q.c).frames, f.frame = q.frame ∧ f.handle = (canOf s q.c).handles ∧ f.tagReady = true ∧
          f.confirm = (if p.bit 16 4 = true then some p else none)) ∧
    (∀ n, queueFree (canOf s q.c) q.queue = true → dryReplay s = false → q.secure = true → (drawFresh s q.stream).2 = .ok (some n) →
      ∃ t, exec (.frameHandover sof) s = .next t ∧ t.bus.l4 = l ∧ (p.bit 16 4 = false → Completed p (lateStatus late .ok) s t) ∧
        ∃ f ∈ (canOf t q.c).frames, f.handle = (canOf s q.c).handles ∧ f.tagReady = false ∧ f.readyAt = s.now + 32 ∧
          f.frame.data = secureData (streamOf s q.stream).key (streamOf s q.stream).fixed n q.frame q.frame.data) ∧
    (queueFree (canOf s q.c) q.queue = false →
      ∃ t, exec (.frameHandover sof) s = .next t ∧ t.bus.l4 = l ∧ Completed p (lateStatus late .busy) s t ∧ t.bus.can = s.bus.can)) ∧
  (∀ sof p late c x l s, s.bus.l4 = x :: l → x.lin < s.plane.lin → x.kind = .cancel p late → c = p.fld 16 0 3 →
    (cancelNames s p = [] →
      ∃ t, exec (.frameHandover sof) s = .next t ∧ t.bus.l4 = l ∧ Completed p (lateStatus late .conflict) s t ∧ t.bus.can = s.bus.can) ∧
    (∀ f, cancelNames s p = [f] → (sof = false ∨ (canOf s c).current ≠ some f.handle) → f.cancels = [] → s.bus.cancels = [] →
      ∃ t, exec (.frameHandover sof) s = .next t ∧ t.bus.l4 = l ∧ Completed p (lateStatus late .cancelled) s t ∧
        (∀ q, f.confirm = some q → Completed q (lateStatus f.late .cancelled) s t) ∧ ∀ g ∈ (canOf t c).frames, g.handle ≠ f.handle) ∧
    (∀ f, cancelNames s p = [f] → sof = true → (canOf s c).current = some f.handle →
      ∃ t, exec (.frameHandover sof) s = .next t ∧ t.bus.l4 = l ∧ t.plane.results = s.plane.results ∧
        ∀ g ∈ (canOf t c).frames, g.handle = f.handle → p ∈ g.cancels)) ∧
  (∀ c f s, c < 8 → ((canOf s c).frames.find? fun g => g.secure && !g.tagReady) = some f →
    ∃ t, exec (.secureTxTagReady c) s = .next t ∧
      ((streamOf s f.stream).revoked = false → ∀ g ∈ (canOf t c).frames, g.handle = f.handle → g.tagReady = true) ∧
      ((streamOf s f.stream).revoked = true → (∀ g ∈ (canOf t c).frames, g.handle ≠ f.handle) ∧
        ∀ p, f.confirm = some p → Completed p (lateStatus f.late .keyRevoked) s t)) ∧
  (∀ c tdcv f s, c < 8 → sendingOf s c = some f →
    (∃ t, exec (.canTxEnd c ⟨0, tdcv⟩) s = .next t ∧ (canOf t c).txFrames = satAdd32 (canOf s c).txFrames 1 ∧ (canOf t c).txErr = (canOf s c).txErr - 1 ∧
      (∀ g ∈ (canOf t c).frames, g.handle ≠ f.handle) ∧ ∀ p, f.confirm = some p → Completed p (lateStatus f.late .ok) s t) ∧
    (∀ outcome, outcome ≠ 0 → losesFrames s c = false → f.cancels = [] → f.timeoutHeld = false →
      ∃ t, exec (.canTxEnd c ⟨outcome, tdcv⟩) s = .next t ∧ ∃ g ∈ (canOf t c).frames, g.handle = f.handle ∧ g.frame = f.frame ∧ g.attempts = f.attempts + 1) ∧
    (∀ outcome, outcome ≠ 0 → (losesFrames s c = true ∨ f.cancels ≠ [] ∨ f.timeoutHeld = true) →
      ∃ t, exec (.canTxEnd c ⟨outcome, tdcv⟩) s = .next t ∧ (∀ g ∈ (canOf t c).frames, g.handle ≠ f.handle) ∧
        ∀ p, f.confirm = some p → Completed p (lateStatus f.late (if f.timeoutHeld = true then .timeout else .cancelled)) s t) ∧
    (((canOf s c).countClash (idKey f.frame)).2 < (canMode s c).clashN → losesFrames s c = false → f.cancels = [] → f.timeoutHeld = false →
      ∃ t, exec (.canClash ⟨c, tdcv⟩) s = .next t ∧ (canOf t c).txErr = (canOf s c).txErr + 8 ∧ (canOf t c).clashes = satAdd32 (canOf s c).clashes 1 ∧
        (canOf t c).lastClash = idKey f.frame ∧ ∃ g ∈ (canOf t c).frames, g.handle = f.handle ∧ g.attempts = f.attempts + 1) ∧
    ((canMode s c).clashN ≤ ((canOf s c).countClash (idKey f.frame)).2 →
      ∃ t, exec (.canClash ⟨c, tdcv⟩) s = .next t ∧ (canOf t c).clashes = satAdd32 (canOf s c).clashes 1 ∧ (∀ g ∈ (canOf t c).frames, g.handle ≠ f.handle) ∧
        (∀ p, f.confirm = some p → Completed p (lateStatus f.late .clash) s t) ∧ Observed s t 6 c [] [s.ev 6 0x0703 (c + 8) (f.frame.id % 65536)])) ∧
  (∀ c st s, c < 8 → ((canOf s c).state = 1 ∨ (canOf s c).state = 2) → st = (canOf s c).errState → st ≠ (canOf s c).state →
    ∃ t, exec (.canErrorStateChange c st) s = .next t ∧ (canOf t c).state = st ∧ (canOf t c).frames = (canOf s c).frames ∧
      Observed s t 6 c [] [s.ev 6 0x0702 c st] ∧
      (st = 3 → (canOf t c).busoffs = satAdd32 (canOf s c).busoffs 1 ∧ (canOf t c).recovering = !(canMode s c).busoffMode)) ∧
  (∀ c s, c < 8 → (canOf s c).state = 3 → (canOf s c).recovering = true →
    ∃ t, exec (.busoffRecovery c) s = .next t ∧ (canOf t c).state = 1 ∧ (canOf t c).txErr = 0 ∧ (canOf t c).recErr = 0 ∧
      (canOf t c).frames = (canOf s c).frames ∧ Observed s t 6 c [] [s.ev 6 0x0702 c 1]) ∧
  (∀ c s, c < 8 →
    ((canOf s c).state = 4 → (canMode s c).op ≠ 0 →
      ∃ t, exec (.canIntegrated ⟨c, false⟩) s = .next t ∧ (canOf t c).state = min 2 (canOf s c).errState ∧
        Observed s t 6 c [] [s.ev 6 0x0702 c (min 2 (canOf s c).errState)]) ∧
    ((canOf s c).old.isSome = true → losesFrames s c = false →
      ∃ t, exec (.canIntegrated ⟨c, true⟩) s = .next t ∧ (canOf t c).old = none ∧ canMode t c = canCfg s c ∧ (canOf t c).frames = (canOf s c).frames ∧
        (canOf t c).state = (if (canCfg s c).op = 0 then 0 else if (canOf s c).state = 3 then 3 else 4))) ∧
  (∀ c h f d sof s, c < 8 → (canOf s c).find h = some f → f.timeoutAt = some d → d ≤ s.now →
    ((sof = false ∨ (canOf s c).current ≠ some h) →
      ∃ t, exec (.txTimeoutExpiry c ⟨h, sof⟩) s = .next t ∧ (∀ g ∈ (canOf t c).frames, g.handle ≠ h) ∧
        ∀ p, f.confirm = some p → Completed p (lateStatus f.late .timeout) s t) ∧
    (sof = true → (canOf s c).current = some h →
      ∃ t, exec (.txTimeoutExpiry c ⟨h, sof⟩) s = .next t ∧ (∀ g ∈ (canOf t c).frames, g.handle = h → g.timeoutHeld = true) ∧
        t.plane.results = s.plane.results)) ∧
  (∀ c tx k s, c < 8 → (canMode s c).op ≠ 0 → ((canOf s c).state = 1 ∨ (canOf s c).state = 2) → (tx = true → (canMode s c).sends = true) →
    ∃ t, exec (.canBusError c ⟨tx, k⟩) s = .next t ∧
      (canOf t c).errors = (if k = 1 ∨ (canMode s c).op = 2 then (canOf s c).errors else satAdd32 (canOf s c).errors 1) ∧
      (canOf t c).txErr = (canOf s c).txErr + (if tx = true ∧ k ≠ 2 then 8 else 0) ∧
      (canOf t c).recErr = (canOf s c).recErr + (if tx = true then 0 else if k = 1 then 8 else 1))

/-- R254–R257, R249, R294, Tables 09.12–09.20: a subscribed response is stored and its signals delivered, and a responder in follow mode obeys a go-to-sleep
frame; a written buffer answers its header and completes the sends that wait for it; a slot sends its header and sets the next slot; an error is counted and posted; a
confirmed send that runs out of its time ends S_TIMEOUT; a responder in follow mode commits after 4 s without activity. CAN.CONFIG sets the record it names: off the
bus the controller takes it and integrates, on the bus the records before stay in force until it is idle; CAN.FILTER and CAN.SIGMAP set the elements, definitions
and templates they carry; a CAN.SEND that its controller can take, a LIN.SEND and a CAN.CANCEL pass into L4 and complete later; CAN.STATUS returns the
counters and clears them; LIN.CONFIG and LIN.SCHEDULE set a controller and its tables. -/
def Obligations.LinAndBusPacketsAct : Prop :=
  (∀ c id data g e s, c < 6 → cutOff s = false → linAwake s c = true → g = linCfgFor s c (linBits data.length) → e = Tbl.get g.entries {} id →
    (e.dir = 2 → e.len = data.length → Tbl.wf {} (linAt s c).ram = true →
      ∃ t, exec (.linFrameAccept c id data) s = .next t ∧ (linAt t c).rxFrames = satAdd32 (linAt s c).rxFrames 1 ∧ (linAt t c).lastBus = s.now ∧
        (Tbl.get (linAt t c).ram {} id).data = data ∧
        (Tbl.get (linAt t c).ram {} id).seq = 2 * ((Tbl.get (linAt s c).ram {} id).seq / 2 + 1) % 2 ^ 32 ∧
        Observed s t 6 (8 + c) ((extract s e.sigFirst e.sigCount data).1.map fun w => (sigPoint w.1, w.2))
          (if e.notify = true then [s.ev 6 0x0710 (c + 8 * id) (((Tbl.get (linAt s c).ram {} id).seq / 2 + 1) % 65536)] else [])) ∧
    (isGoToSleep id data = true → g.role = 2 → (netCfg s (8 + c)).mode = 3 → latchedBefore s = false → (netOf s (8 + c)).state ≠ 1 →
      ∃ t, exec (.linFrameAccept c id data) s = .next t ∧ (netOf t (8 + c)).state = 1 ∧ (netOf t (8 + c)).xcvr = 3 ∧ (linAt t c).asleep = true ∧
        (netOf t (8 + c)).sleeps = satAdd32 (netOf s (8 + c)).sleeps 1)) ∧
  (∀ c id g e src s, c < 6 → linAwake s c = true → (netOf s (8 + c)).xcvr = 0 → g = linCfgFor s c 34 → e = Tbl.get g.entries {} id →
    src = (if e.eventOf = 1 then e.assoc else id) → (g.role = 1 → (linAt s c).header = some id) →
    ((g.role = 1 → id = 60 → (linAt s c).master = none) → (e.dir = 1 ∨ e.eventOf = 1) → (Tbl.get (linAt s c).pub {} src).written = true →
      (e.eventOf = 1 → (Tbl.get (linAt s c).pub {} src).event = true) →
      ∃ t, exec (.linHeaderPublish c id) s = .next t ∧ (linAt t c).txFrames = satAdd32 (linAt s c).txFrames 1 ∧
        (linAt t c).sporadic.contains id = false ∧ (∀ w ∈ (linAt s c).waits, w.id = src → Completed w.packet (lateStatus w.late .ok) s t) ∧
        ∀ w ∈ (linAt t c).waits, w.id ≠ src) ∧
    (g.role = 1 → id = 60 → (linAt s c).master.isSome = true →
      ∃ t, exec (.linHeaderPublish c id) s = .next t ∧ (linAt t c).txFrames = satAdd32 (linAt s c).txFrames 1 ∧ (linAt t c).master = none ∧
        ∀ w ∈ (linAt s c).waits, w.id = 60 → Completed w.packet (lateStatus w.late .ok) s t)) ∧
  (∀ c s, c < 6 → linRuns s c = true → (linCfg s c).role = 1 → (linAt s c).slotAt ≤ s.now →
    (∀ tb g, (linAt s c).pendingTable = none → (linAt s c).table = some tb → (linTable s c tb)[(linAt s c).ix]? = some g →
      ∃ t, exec (.linScheduleSlot c) s = .next t ∧ (linAt t c).header = (if slotSends (linAt s c) g = true then some g.id else none) ∧
        (linAt t c).ix = (linAt s c).ix + 1 ∧ (linAt t c).table = some tb ∧ (linAt t c).resolve = (if g.type = 1 then some g.resolve else none) ∧
        (linAt t c).slotAt = (if s.now < (linAt s c).slotAt + 8000 then (linAt s c).slotAt else s.now / 8000 * 8000) + 8000 * g.ms) ∧
    ((linAt s c).pendingTable = some none →
      ∃ t, exec (.linScheduleSlot c) s = .next t ∧ (linAt t c).table = none ∧ (linAt t c).header = none ∧ (linAt t c).pendingTable = none)) ∧
  (∀ c id code s, c < 6 → linAwake s c = true → 1 ≤ code → code ≤ 6 →
    ∃ t, exec (.linError c id code) s = .next t ∧ vget (linAt t c).errs (code - 1) = satAdd32 (vget (linAt s c).errs (code - 1)) 1 ∧
      (∀ k, k ≠ code - 1 → vget (linAt t c).errs k = vget (linAt s c).errs k) ∧ Observed s t 6 (8 + c) [] [s.ev 6 0x0711 (c + 8 * id) code]) ∧
  (∀ c w sof s, c < 6 → ((linAt s c).waits.find? fun v => v.handle == w.handle && v.timeoutAt ≤ s.now) = some w →
    ∃ t, exec (.txTimeoutExpiry (8 + c) ⟨w.handle, sof⟩) s = .next t ∧ Completed w.packet (lateStatus w.late .timeout) s t ∧
      ∀ v ∈ (linAt t c).waits, v.handle ≠ w.handle) ∧
  (∀ c s, c < 6 → (linCfg s c).role = 2 → (netCfg s (8 + c)).mode = 3 → (linAt s c).lastBus + msTicks 4000 ≤ s.now → latchedBefore s = false →
    (netOf s (8 + c)).state ≠ 1 → (netOf s (8 + c)).xcvr ≠ 3 →
    ∃ t, exec (.linResponderIdle c) s = .next t ∧ (netOf t (8 + c)).state = 1 ∧ (netOf t (8 + c)).xcvr = 3 ∧ (linAt t c).asleep = true ∧
      (netOf t (8 + c)).sleeps = satAdd32 (netOf s (8 + c)).sleeps 1 ∧ Observed s t 6 (40 + c) [] [s.ev 6 0x0901 (8 + c) 1] ∧
      Observed s t 6 (40 + c) [] [s.ev 6 0x0903 (8 + c) 3]) ∧
  (∀ sof p late q x l s, s.bus.l4 = x :: l → x.lin < s.plane.lin → x.kind = .linSend p late → q = linSendReq s p → q.c < 6 → dryReplay s = false →
    (q.isMaster s = false → Tbl.wf {} (linAt s q.c).pub = true →
      ∃ t, exec (.frameHandover sof) s = .next t ∧ t.bus.l4 = l ∧ (Tbl.get (linAt t q.c).pub {} q.id).data = q.data ∧
        (Tbl.get (linAt t q.c).pub {} q.id).written = true ∧ (p.bit 16 4 = false → Completed p (lateStatus late .ok) s t) ∧
        (p.bit 16 4 = true → ∃ w ∈ (linAt t q.c).waits, w.packet = p ∧ w.id = q.id ∧ w.timeoutAt = s.now + msTicks (linCfg s q.c).txTimeout)) ∧
    (q.isMaster s = true → (linAt s q.c).master.isSome = true →
      ∃ t, exec (.frameHandover sof) s = .next t ∧ t.bus.l4 = l ∧ Completed p (lateStatus late .busy) s t ∧ t.bus.lin = s.bus.lin)) ∧
  (∀ p i st s, KeeperRuns canConfigOp p s → p.bit 16 5 = false → ccPart p < 3 → i = ccIndex p →
    st = (if ccPart p = 0 then { s.store.can with nominal := vmod s.store.can.nominal i fun _ => ccNominal p }
      else if ccPart p = 1 then { s.store.can with data := vmod s.store.can.data i fun _ => ccData p }
      else { s.store.can with mode := vmod s.store.can.mode i fun _ => ccMode p }) →
    (canAgrees st = true →
      ∃ t, exec (.canConfig p) s = .next t ∧ Completed p .ok s t ∧ t.store.can = st ∧
        ((canOf s i).state = 1 ∨ (canOf s i).state = 2 → (canOf t i).old = some (canMode s i, canData s i) ∧ (canOf t i).state = (canOf s i).state) ∧
        ((canOf s i).state = 0 ∨ (canOf s i).state = 4 → (canOf t i).old = none ∧
          (canOf t i).state = (if (vget st.mode i).op = 0 then 0 else 4))) ∧
    (canAgrees st = false → ∃ t, exec (.canConfig p) s = .next t ∧ Completed p .conflict s t ∧ t.store.can = s.store.can ∧ t.bus.can = s.bus.can)) ∧
  (∀ p i s, KeeperRuns canConfigOp p s → p.bit 16 5 = false → ccPart p = 3 → i = ccIndex p → (ccStream p).enable = true →
    canAgrees { s.store.can with stream := vmod s.store.can.stream i fun _ => ccStream p } = true →
    ∃ t, exec (.canConfig p) s = .next t ∧ Completed p .ok s t ∧ streamCfg t i = ccStream p ∧ domainOn t 5 = true ∧
      (streamOf t i).key = (keySlot s (ccStream p).keySlot).material ∧ (streamOf t i).fixed = (keySlot s (ccStream p).keySlot).fixed) ∧
  (∀ p i s, KeeperRuns canFilterOp p s → p.bit 16 0 = false → countOfPacket p = 1 → i = firstOfPacket p →
    Tbl.wf {} s.store.can.filter = true →
    canStreamsAgree { s.store.can with filter := Tbl.put s.store.can.filter {} i (elemAt p 32) } = true →
    ∃ t, exec (.canFilter p) s = .next t ∧ Completed p .ok s t ∧ filterAt t i = elemAt p 32 ∧ ∀ k, k ≠ i → filterAt t k = filterAt s k) ∧
  (∀ p s, FastRuns canSendOp p s →
    (sendable s (sendReq s p) = true → (p.bit 16 3 = true → (tplOf s (p.num 17 1)).used = true ∧ (tplOf s (p.num 17 1)).controller < 8) →
      ∃ t, exec (.canSend p) s = .next t ∧ (∃ x ∈ t.bus.l4, x.lin = s.plane.lin ∧ x.hall = p.hall ∧ x.idx = p.order ∧ x.kind = .send p false) ∧
        t.plane.results = s.plane.results ∧ t.bus.can = s.bus.can) ∧
    (sendable s (sendReq s p) = false →
      ∃ t, exec (.canSend p) s = .next t ∧ Completed p .conflict s t ∧ t.bus = s.bus)) ∧
  (∀ p s, FastRuns canCancelOp p s →
    ∃ t, exec (.canCancel p) s = .next t ∧ (∃ x ∈ t.bus.l4, x.lin = s.plane.lin ∧ x.kind = .cancel p false) ∧ t.plane.results = s.plane.results ∧
      t.bus.can = s.bus.can) ∧
  (∀ p n s, KeeperRuns canStatusOp p s → n = p.fld 16 0 4 →
    (n < 8 → ∃ t, exec (.canStatus p) s = .next t ∧ Completed p .ok s t ∧ Replied p s t (canStatusReply s n) ∧
      (p.bit 16 4 = true → (canOf t n).rxFrames = 0 ∧ (canOf t n).txFrames = 0 ∧ (canOf t n).errors = 0 ∧ (canOf t n).clashes = 0) ∧
      (p.bit 16 4 = false → t.bus = s.bus)) ∧
    (8 ≤ n → ∃ t, exec (.canStatus p) s = .next t ∧ Completed p .ok s t ∧ Replied p s t (linStatusReply s (n - 8)) ∧
      (p.bit 16 4 = true → (linAt t (n - 8)).rxFrames = 0 ∧ (linAt t (n - 8)).txFrames = 0 ∧ ∀ k, vget (linAt t (n - 8)).errs k = 0) ∧
      (p.bit 16 4 = false → t.bus = s.bus))) ∧
  (∀ p i s, KeeperRuns canSigmapOp p s → smTemplate p = false → smWrites p = true → countOfPacket p = 1 → i = firstOfPacket p →
    Tbl.wf {} s.store.can.sig = true →
    muxAgrees { s.store.can with sig := Tbl.put s.store.can.sig {} i (sigAt p 32) } = true → canStreamsAgree s.store.can = true →
    ∃ t, exec (.canSigmap p) s = .next t ∧ Completed p .ok s t ∧ sigOf t i = sigAt p 32 ∧ t.store.can.tpl = s.store.can.tpl) ∧
  (∀ p i s, KeeperRuns canSigmapOp p s → smTemplate p = true → smWrites p = true → (tplAt p).used = true → i = p.num 17 1 →
    Tbl.wf {} s.store.can.tpl = true → (tplAt p).lenOk = true → muxAgrees s.store.can = true →
    canStreamsAgree { s.store.can with tpl := Tbl.put s.store.can.tpl {} i (tplAt p) } = true →
    ∃ t, exec (.canSigmap p) s = .next t ∧ Completed p .ok s t ∧ tplOf t i = tplAt p ∧ t.store.can.sig = s.store.can.sig) ∧
  (∀ p c s, KeeperRuns linConfigOp p s → p.bit 16 3 = false → c = p.fld 16 0 3 → ((lcEntries p).map (·.1)).Nodup →
    linAgrees (lcApply (linCfg s c) p) = true →
    ∃ t, exec (.linConfig p) s = .next t ∧ Completed p .ok s t ∧ linCfg t c = lcApply (linCfg s c) p ∧ (linAt t c).pub = [] ∧
      (linAt t c).old = some (linCfg s c, s.now) ∧ ((lcApply (linCfg s c) p).role = 0 → (linAt t c).table = none ∧ (linAt t c).waits = []) ∧
      ∀ k, k ≠ c → linCfg t k = linCfg s k) ∧
  (∀ p c tb s, KeeperRuns linScheduleOp p s → c = p.fld 16 0 3 → tb = p.fld 17 0 2 → (linCfg s c).role = 1 →
    (p.fld 16 3 2 = 0 → (linAt s c).table ≠ some tb → (linAt s c).resume.map (·.1) ≠ some tb → (lsSlots p).all (slotOk s c tb) = true →
      ∃ t, exec (.linSchedule p) s = .next t ∧ Completed p .ok s t ∧ linTable t c tb = lsSlots p ∧ t.bus = s.bus) ∧
    (p.fld 16 3 2 = 0 → (linAt s c).table = some tb → (lsSlots p).all (slotOk s c tb) = true →
      ∃ t, exec (.linSchedule p) s = .next t ∧ Completed p .busy s t ∧ t.store.can = s.store.can ∧ t.bus = s.bus) ∧
    (p.fld 16 3 2 = 1 → (linAt s c).table = none → (linTable s c tb).all (slotOk s c tb) = true →
      ∃ t, exec (.linSchedule p) s = .next t ∧ Completed p .ok s t ∧ (linAt t c).table = some tb ∧ (linAt t c).ix = 0 ∧
        (linAt t c).slotAt = (s.now / 8000 + 1) * 8000 ∧ t.store = s.store) ∧
    (p.fld 16 3 2 = 1 → (linAt s c).table.isSome = true → (linTable s c tb).all (slotOk s c tb) = true →
      ∃ t, exec (.linSchedule p) s = .next t ∧ Completed p .ok s t ∧ (linAt t c).pendingTable = some (some tb) ∧
        (linAt t c).table = (linAt s c).table ∧ t.store = s.store) ∧
    (p.fld 16 3 2 = 2 → (linAt s c).table.isSome = true →
      ∃ t, exec (.linSchedule p) s = .next t ∧ Completed p .ok s t ∧ (linAt t c).pendingTable = some none ∧ t.store = s.store)) ∧
  (∀ p s, FastRuns linSendOp p s →
    (linSendable s (linSendReq s p) = true → (p.bit 16 3 = true → (tplOf s (p.num 17 1)).used = true ∧ 8 ≤ (tplOf s (p.num 17 1)).controller) →
      ∃ t, exec (.linSend p) s = .next t ∧ (∃ x ∈ t.bus.l4, x.lin = s.plane.lin ∧ x.hall = p.hall ∧ x.idx = p.order ∧ x.kind = .linSend p false) ∧
        t.plane.results = s.plane.results ∧ t.bus.lin = s.bus.lin) ∧
    (linSendable s (linSendReq s p) = false →
      ∃ t, exec (.linSend p) s = .next t ∧ Completed p .conflict s t ∧ t.bus = s.bus))

/-- R94–R96, R259–R272: a link comes up where one side leads and goes down, and is posted; a good frame is counted, its source learned and the frame queued at
the port that its destination was learned on, or at APP where it names the switch; a protected one waits in the hold, or is dropped where that is full; a bad one is
counted; a record of a transmit ring passes to its port, goes through the switch or is refused; a frame leaves its queue to the packet rings, to the keeper or to its
link, protected under the next PN of its transmit association, or is lost with one that has stopped; a command frame's packets are copied onto ring 31, and the oldest
frame whose packets have all completed is answered; one whose SEQ is not newer is dropped; addresses age; a used-up PN stops its SA. -/
def Obligations.EthernetSwitchActs : Prop :=
  (∀ n lead s, n < 8 → (portCfg s n).enable = true → domainOn s 6 = true → ((portOf s n).link = 0 ∨ (portOf s n).link = 2) →
    (6 ≤ n ∨ (portCfg s n).leader ≠ lead → ∃ t, exec (.ethLinkUp ⟨n, lead⟩) s = .next t ∧ (portOf t n).link = 1 ∧
      PortPosted s t 0x0801 n (1 + 16 * (portCfg s n).speed) ∧ ∀ k, k ≠ n → portOf t k = portOf s k) ∧
    (n < 6 → (portCfg s n).leader = lead → ∃ t, exec (.ethLinkUp ⟨n, lead⟩) s = .next t ∧ t.eth = s.eth)) ∧
  (∀ n s, n < 8 → (portOf s n).link = 1 → domainOn s 6 = true →
    ∃ t, exec (.ethLinkDown n) s = .next t ∧ (portOf t n).link = 0 ∧ (portOf t n).queue = [] ∧
      ((portOf s n).queue ≠ [] → (portOf t n).cnt.powerDrop = satAdd32 (portOf s n).cnt.powerDrop (portOf s n).queue.length) ∧
      PortPosted s t 0x0801 n (16 * (portCfg s n).speed)) ∧
  (∀ n f v vid pcp s, n < 8 → (portOf s n).link = 1 → hallRuns s 5 = true → f.fcsOk = true → f.sec = none → (portCfg s n).secureOnly = false →
    f.etherType ≠ 0x88B5 → f.etherType ≠ 0x88F7 → (portCfg s n).accept ≠ (if f.tagged = true then 2 else 1) →
    vid = (if (f.tagged && f.vid != 0) = true then f.vid else (portCfg s n).pvid) → pcp = (if f.tagged = true then f.pcp % 8 else (portCfg s n).pcp) →
    vlanOf s vid = some v → v.member.testBit n = true → isGroupMac f.src = false → isGroupMac f.dst = false → s.eth.learned.length < 4096 →
    (∀ m l, m < 8 → m ≠ n → (portOf s m).link = 1 → v.member.testBit m = true → f.dst ≠ s.store.eth.sw.mac → f.dst ≠ f.src →
      (s.eth.learned.find? fun l => l.mac == f.dst && l.vid == v.vid) = some l → l.port = m → cellsFit s m pcp (frameCells f (!v.untag.testBit m)) = true →
      ∃ t, exec (.ethFrameReceive n f) s = .next t ∧ (portOf t n).cnt.rxFrames = sat64 ((portOf s n).cnt.rxFrames + 1) ∧
        { mac := f.src, vid := v.vid, port := n, at_ := s.now } ∈ t.eth.learned ∧ (∀ k, k ≠ m → (portOf t k).queue = (portOf s k).queue) ∧
        (portOf t m).queue = (portOf s m).queue ++
          [{ frame := f, pcp := pcp, vid := v.vid, tagged := !v.untag.testBit m, cells := frameCells f (!v.untag.testBit m), ingress := n }]) ∧
    (f.dst = s.store.eth.sw.mac → v.member.testBit 8 = true → cellsFit s 8 pcp (frameCells f (!v.untag.testBit 8)) = true →
      ∃ t, exec (.ethFrameReceive n f) s = .next t ∧ (∀ k, k ≠ 8 → (portOf t k).queue = (portOf s k).queue) ∧
        (portOf t 8).queue = (portOf s 8).queue ++
          [{ frame := f, pcp := pcp, vid := v.vid, tagged := !v.untag.testBit 8, cells := frameCells f (!v.untag.testBit 8), ingress := n }])) ∧
  (∀ n f x s, n < 6 → (portOf s n).link = 1 → hallRuns s 5 = true → f.fcsOk = true → f.sec = some x →
    (holdCells s + (wireBytes f + 255) / 256 ≤ 1024 → ∃ t, exec (.ethFrameReceive n f) s = .next t ∧ (∀ k, (portOf t k).queue = (portOf s k).queue) ∧
      t.cipher.hold = s.cipher.hold ++ [{ ctx := macsecCtx n true, cells := (wireBytes f + 255) / 256, left := 64 * macsecBlocks x.data.length, port := n, frame := f }]) ∧
    (1024 < holdCells s + (wireBytes f + 255) / 256 → ∃ t, exec (.ethFrameReceive n f) s = .next t ∧ t.cipher = s.cipher ∧
      (portOf t n).cnt.hold = satAdd32 (portOf s n).cnt.hold 1)) ∧
  (∀ n f s, n < 8 → (portOf s n).link = 1 → hallRuns s 5 = true → f.fcsOk = false →
    ∃ t, exec (.ethFrameReceive n f) s = .next t ∧ (portOf t n).cnt.rxDrop = satAdd32 (portOf s n).cnt.rxDrop 1 ∧ t.eth.learned = s.eth.learned ∧
      ∀ k, (portOf t k).queue = (portOf s k).queue) ∧
  (∀ r g d m len flags b v s, 52 ≤ r → r ≤ 55 → g = s.ring r → g.waits = true → hallRuns s 5 = true → landed s 7 (g.arrivalOf 1) = true →
    d = memReadN s (g.slotAddr g.head) 16 → len = dNum d 0 2 → 14 ≤ len → len ≤ 4080 → m = dNum d 2 1 → m ≤ 8 → flags = dNum d 3 1 → flags < 16 →
    dNum d 4 2 ≠ 0 → dNum d 4 2 < 4096 → (16 + len + 63) / 64 ≤ g.filled → g.head + (16 + len + 63) / 64 ≤ g.size →
    b = memReadN s (g.slotAddr g.head + 16) len → beNat ((b.drop 12).take 2) ≠ 0x88F7 →
    (m < 8 → beNat ((b.drop 12).take 2) ≠ 0x88B5 → vlanOf s (dNum d 4 2) = some v → v.member.testBit m = true →
      cellsFit s m (flags % 8) (frameCells { body := b.drop 14 } (flags.testBit 3)) = true →
      ∃ t, exec (.packetTxRecord r) s = .next t ∧ ResultItem.reply r g.head Status.ok.code s.wallStamp.tick 2 ∈ t.plane.results ∧
        ∃ q, (portOf t m).queue = (portOf s m).queue ++ [q] ∧ q.vid = v.vid ∧ q.pcp = flags % 8 ∧ q.tagged = flags.testBit 3 ∧
          q.frame.body = b.drop 14 ∧ q.frame.dst = beNat (b.take 6)) ∧
    (∀ l k, m = 8 → beNat ((b.drop 12).take 2) ≠ 0x88B5 → vlanOf s (dNum d 4 2) = some v → v.member.testBit 8 = true →
      isGroupMac (beNat (b.take 6)) = false → beNat (b.take 6) ≠ s.store.eth.sw.mac → beNat (b.take 6) ≠ beNat ((b.drop 6).take 6) →
      (s.eth.learned.find? fun l => l.mac == beNat (b.take 6) && l.vid == v.vid) = some l → l.port = k → k < 8 → v.member.testBit k = true →
      cellsFit s k (flags % 8) (frameCells { body := b.drop 14 } (!v.untag.testBit k)) = true →
      ∃ t, exec (.packetTxRecord r) s = .next t ∧ ResultItem.reply r g.head Status.ok.code s.wallStamp.tick 2 ∈ t.plane.results ∧
        ∃ q, (portOf t k).queue = (portOf s k).queue ++ [q] ∧ q.frame.body = b.drop 14) ∧
    (beNat ((b.drop 12).take 2) = 0x88B5 →
      ∃ t, exec (.packetTxRecord r) s = .next t ∧ ResultItem.reply r g.head Status.denied.code s.wallStamp.tick 2 ∈ t.plane.results ∧ t.eth = s.eth)) ∧
  (∀ q l s, hallRuns s 5 = true → s.plane.replay.running = false →
    (takeHighest (portOf s 8).queue = some (q, l) → (ethBytes q.frame).length ≤ 4080 → feedsFrom5 s 6 = true →
      ∃ t it, exec (.egressFrameSent 8) s = .next t ∧ (portOf t 8).queue = l ∧ it ∈ (vget t.plane.landings 6).items ∧ it.stamp = s.wallStamp ∧ it.hall = 5 ∧
        it.recs = [(48 + bitsOf s.store.eth.sw.rxmap (2 * q.pcp) 2,
          padSlots (packetDesc (ethBytes q.frame).length q.ingress (q.pcp + 8 * b2n q.frame.tagged + 16 * b2n q.secure) q.vid 0 s.wallStamp.word ++
            ethBytes q.frame))]) ∧
    (takeHighest (portOf s 9).queue = some (q, l) → q.frame.etherType = 0x88B5 → feedsFrom5 s 5 = true →
      ∃ t, exec (.egressFrameSent 9) s = .next t ∧ (portOf t 9).queue = l ∧ (s.wallStamp, q.ingress, q.frame) ∈ t.eth.cmdIn)) ∧
  (∀ n q l s, n < 8 → hallRuns s 5 = true → (portOf s n).link = 1 → takeHighest (portOf s n).queue = some (q, l) →
    (currentSa s n = none → (portCfg s n).secureOnly = false →
      ∃ t, exec (.egressFrameSent n) s = .next t ∧ (portOf t n).queue = l ∧
        (portOf t n).sent = some { q.frame with tagged := q.tagged, vid := q.vid, pcp := q.pcp } ∧ (portOf t n).cnt.txFrames = sat64 ((portOf s n).cnt.txFrames + 1)) ∧
    (currentSa s n = none → (portCfg s n).secureOnly = true →
      ∃ t, exec (.egressFrameSent n) s = .next t ∧ (portOf t n).queue = l ∧ (portOf t n).cnt.saDrop = satAdd32 (portOf s n).cnt.saDrop 1) ∧
    (∀ a, currentSa s n = some a → a.stopped = 0 → a.pn < pnEnd →
      ∃ t, exec (.egressFrameSent n) s = .next t ∧ (portOf t n).queue = l ∧ (portOf t n).cnt.txFrames = sat64 ((portOf s n).cnt.txFrames + 1) ∧
        (portOf t n).sent = some (protect a q.frame q.tagged q.pcp q.vid) ∧ ∃ b ∈ t.store.eth.sas, b.sameAs a = true ∧ b.pn = a.pn + 1) ∧
    (∀ a, currentSa s n = some a → (a.stopped ≠ 0 ∨ pnEnd ≤ a.pn) →
      ∃ t, exec (.egressFrameSent n) s = .next t ∧ (portOf t n).queue = l ∧ (portOf t n).cnt.saDrop = satAdd32 (portOf s n).cnt.saDrop 1 ∧
        (portOf t n).cnt.txFrames = (portOf s n).cnt.txFrames)) ∧
  (∀ n i f c x s, commandIn s n i = some x → landed s 5 x.1 = true → f = x.2.2 → boundChannel s n f = some c → dNum f.body 0 1 = 1 → 1 ≤ dNum f.body 1 1 →
    dNum f.body 1 1 ≤ 22 → dNum f.body 2 2 = 0 → dNum f.body 12 4 = 0 → 16 + 64 * dNum f.body 1 1 ≤ f.body.length → s.plane.replay.running = false →
    s.seq.ready = true →
    (c.seq < dNum f.body 4 8 → (s.ring 31).outstanding s.eth.cmdRun + dNum f.body 1 1 ≤ (s.ring 31).size - 1 →
      ∃ t, exec (.commandFrame n i) s = .next t ∧ (t.ring 31).tail = ((s.ring 31).tail + dNum f.body 1 1) % (s.ring 31).size ∧
        t.eth.cmdIn = s.eth.cmdIn.erase x ∧ t.eth.cmdRun = s.eth.cmdRun ++
          [{ port := n, sci := c.sci, mac := f.src, vid := f.vid, seq := dNum f.body 4 8, first := (s.ring 31).tail, count := dNum f.body 1 1 }] ∧
        (∀ y ∈ t.store.eth.cmd, y.port = n → y.sci = c.sci → y.seq = dNum f.body 4 8) ∧
        (Tbl.wf 0 s.mem = true → s.plane.capture.running = false → (s.ring 31).tail < (s.ring 31).size →
          memReadN t ((s.ring 31).slotAddr (s.ring 31).tail) 64 = (f.body.drop 16).take 64)) ∧
    (dNum f.body 4 8 ≤ c.seq →
      ∃ t, exec (.commandFrame n i) s = .next t ∧ (portOf t 9).cnt.cmdDrop = satAdd32 (portOf s 9).cnt.cmdDrop 1 ∧ t.eth.cmdRun = s.eth.cmdRun ∧
        t.ring 31 = s.ring 31)) ∧
  (∀ c s, s.eth.cmdRun.find? (allDone s) = some c → c.port < 8 → (portOf s c.port).link = 1 →
    cellsFit s c.port 0 (frameCells (replyFrame s c) (c.vid != 0)) = true →
    ∃ t, exec .commandFrameReply s = .next t ∧ t.eth.cmdRun = s.eth.cmdRun.erase c ∧ ∃ q, (portOf t c.port).queue = (portOf s c.port).queue ++ [q] ∧ q.frame = replyFrame s c) ∧
  (∀ mac vid s, ∃ t, exec (.addressAgeing mac vid) s = .next t ∧
    (∀ l ∈ t.eth.learned, l.mac = mac → l.vid = vid → s.now < l.at_ + 8000000 * s.store.eth.sw.ageS) ∧
    (∀ l ∈ s.eth.learned, (l.mac ≠ mac ∨ l.vid ≠ vid ∨ s.now < l.at_ + 8000000 * s.store.eth.sw.ageS) → l ∈ t.eth.learned) ∧ t.eth.port = s.eth.port) ∧
  (∀ port rx sci an a s, (s.store.eth.sas.find? fun a => a.port == port && a.rx == rx && (!rx || a.sci == sci) && a.an == an) = some a →
    pnEnd ≤ a.pn → a.stopped = 0 →
    ∃ t, exec (.saPnExhausted port rx sci an) s = .next t ∧ (∀ b ∈ t.store.eth.sas, b.sameAs a = true → b.stopped = 1) ∧
      (∃ b ∈ t.store.eth.sas, b.sameAs a = true) ∧ PortPosted s t 0x0802 a.address 1)

/-- R267, R270–R276, Tables 10.4–10.8, with the layout of a Sync, the FORWARD of the receiving port and an acknowledged sleep request taken as the port's sleep (the
model's choices, log entries 145 to 147): a sync interval is counted, and a Sync with the next number sent on the master ports, the fourth good one in a row locks
the unit, the third missed one takes it to holdover; a peer delay is measured from the four times of its exchange, once a second; a TC10 request, the end of its wait and
a TC10 wake are posted and act, a wake on the other ports too where it is forwarded; ETH.CONFIG sets a port, a VLAN or the switch; ETH.SECURE installs, removes,
binds and reports; ETH.STATUS reports and clears; ETH.TIME sets the roles. -/
def Obligations.EthernetTimeSleepAndPacketsAct : Prop :=
  (∀ s, hallRuns s 5 = true → s.eth.syncAt + syncTicks s.store.eth.time.syncLog ≤ s.now →
    (s.store.eth.time.gm = false → s.store.eth.time.slave ≠ 15 → s.eth.syncSeen = true →
      ∃ t, exec .syncInterval s = .next t ∧ t.eth.syncAt = s.now ∧ t.eth.missed = 0 ∧ t.eth.good = s.eth.good + 1 ∧
        (3 ≤ s.eth.good → t.eth.timeState = 1 ∧ (s.eth.timeState ≠ 1 → PortPosted s t 0x0804 0 1))) ∧
    (s.store.eth.time.gm = false → s.store.eth.time.slave ≠ 15 → s.eth.syncSeen = false →
      ∃ t, exec .syncInterval s = .next t ∧ t.eth.syncAt = s.now ∧ t.eth.missed = s.eth.missed + 1 ∧ t.eth.good = 0 ∧
        t.eth.timeState = s.eth.timeState) ∧
    (∀ n, bitList 6 s.store.eth.time.masters = [n] → n < 6 → (portOf s n).link = 1 → cellsFit s n 7 1 = true →
      ∃ t, exec .syncInterval s = .next t ∧ t.eth.syncAt = s.now ∧ ∃ q, (portOf t n).queue = (portOf s n).queue ++ [q] ∧ q.frame.etherType = 0x88F7 ∧ (q.frame.body.drop 30).take 2 = beBytes 2 s.eth.syncSeq)) ∧
  (∀ s, 3 ≤ s.eth.missed → ∃ t, exec .syncHoldover s = .next t ∧ t.eth.timeState = 2 ∧ (s.eth.timeState ≠ 2 → PortPosted s t 0x0804 0 2)) ∧
  (∀ n x s, n < 8 → (portOf s n).link = 1 → (n = s.store.eth.time.slave ∨ s.store.eth.time.masters.testBit n = true) → (portOf s n).peerDue ≤ s.now →
    ∃ t, exec (.peerDelayMeasure n x) s = .next t ∧ (portOf t n).peerNs = ((x.t4 - x.t1) - (x.t3 - x.t2)) / 2 ∧ (portOf t n).peerDue = s.now + 8000000 ∧ ∀ k, k ≠ n → portOf t k = portOf s k) ∧
  (∀ n s, n < 6 → (portCfg s n).tc10En = true → (portOf s n).link = 1 →
    ((portCfg s n).sleepOk = true → ∃ t, exec (.tc10SleepRequestRx n) s = .next t ∧ PortPosted s t 0x0805 n 1 ∧ (portOf t n).tc10 = 2) ∧
    ((portCfg s n).sleepOk = false → ∃ t, exec (.tc10SleepRequestRx n) s = .next t ∧ PortPosted s t 0x0805 n 2 ∧ t.eth = s.eth)) ∧
  (∀ n acked s, n < 6 → (portOf s n).tc10 = 1 → (acked = true ∨ (portOf s n).tc10At + 128000 ≤ s.now) →
    ∃ t, exec (.tc10SleepWaitEnd n acked) s = .next t ∧ (portOf t n).tc10 = 2 ∧ (portOf t n).link = 3 ∧ (portOf t n).queue = []) ∧
  (∀ n s, n < 6 → (portCfg s n).tc10En = true → domainOn s 6 = true →
    ((portOf s n).tc10 = 1 → ∃ t, exec (.tc10WakeRx n) s = .next t ∧ (portOf t n).tc10 = 0 ∧ PortPosted s t 0x0805 n 3) ∧
    ((portOf s n).tc10 = 2 → (portCfg s n).enable = true →
      ∃ t, exec (.tc10WakeRx n) s = .next t ∧ (portOf t n).tc10 = 0 ∧ (portOf t n).link = 2 ∧ PortPosted s t 0x0805 n 4) ∧
    (∃ t, exec (.tc10WakeRx n) s = .next t ∧
      ((portCfg s n).forward = true → ∀ k, k < 6 → k ≠ n → (portCfg s k).tc10En = true → (portOf t k).wakeTx = (portOf s k).wakeTx + 1) ∧
      ((portCfg s n).wakeEn = true → armedSource s 9 n = true → ∃ l ∈ t.sleep.latches, l.cause = 9 ∧ l.index = n))) ∧
  (∀ p i s, KeeperRuns ethConfigOp p s → ecPart p = 1 → ecRead p = false → i = ecIndex p → Tbl.wf {} s.store.eth.vlan = true →
    ethAgrees (s.onStore fun st => { st with eth := { st.eth with
      vlan := Tbl.put st.eth.vlan {} i { vid := p.fld 20 0 12, member := p.fld 22 0 10, untag := p.fld 24 0 10 } } }) = true →
    ∃ t, exec (.ethConfig p) s = .next t ∧ Completed p .ok s t ∧ t.eth = s.eth ∧
      Tbl.get t.store.eth.vlan {} i = { vid := p.fld 20 0 12, member := p.fld 22 0 10, untag := p.fld 24 0 10 }) ∧
  (∀ p i s, KeeperRuns ethConfigOp p s → ecPart p = 0 → ecRead p = false → i = ecIndex p →
    ethAgrees (s.onStore fun st => { st with eth := { st.eth with port := vmod st.eth.port i fun _ => ecPort p } }) = true →
    ((ecPort p).enable = false →
      ∃ t, exec (.ethConfig p) s = .next t ∧ Completed p .ok s t ∧ portCfg t i = ecPort p ∧ (portOf t i).link = 3 ∧ (portOf t i).queue = []) ∧
    ((ecPort p).enable = true → (portCfg s i).enable = false → domainOn s 6 = true →
      ∃ t, exec (.ethConfig p) s = .next t ∧ Completed p .ok s t ∧ portCfg t i = ecPort p ∧ (portOf t i).link = 2 ∧ (portOf t i).upFrom = s.now)) ∧
  (∀ p w s, KeeperRuns ethConfigOp p s → ecPart p = 2 → ecRead p = false →
    w = { mac := beNat ((p.bytes.drop 20).take 6), ageS := p.num 26 2, rxmap := p.num 28 2, appPvid := p.fld 30 0 12 } →
    (ethAgrees (s.onStore fun st => { st with eth := { st.eth with sw := w } }) = true →
      ∃ t, exec (.ethConfig p) s = .next t ∧ Completed p .ok s t ∧ t.store.eth.sw = w ∧ t.eth = s.eth) ∧
    (ethAgrees (s.onStore fun st => { st with eth := { st.eth with sw := w } }) = false →
      ∃ t, exec (.ethConfig p) s = .next t ∧ Completed p .conflict s t ∧ t.store.eth = s.store.eth)) ∧
  (∀ p s, KeeperRuns ethSecureOp p s → esMode p = 0 →
    (esConflict p s = false → (p.num 56 4 = 0 ∧ p.arrival.before (keySlot s (p.num 18 1)).changed = false ∨
        p.num 56 4 ≠ 0 ∧ p.num 56 4 = (keySlot s (p.num 18 1)).generation) →
      ∃ t, exec (.ethSecure p) s = .next t ∧ Completed p .ok s t ∧ domainOn t 5 = true ∧ ∃ a ∈ t.store.eth.sas, a.port = esPort p ∧ a.rx = esRx p ∧
        a.sci = esSci p ∧ a.an = esAn p ∧ a.pn = p.num 44 8 ∧ a.key = (keySlot s (p.num 18 1)).material) ∧
    (esConflict p s = true → ∃ t, exec (.ethSecure p) s = .next t ∧ Completed p .conflict s t ∧ t.store = s.store) ∧
    (esConflict p s = false → (p.num 56 4 = 0 ∧ p.arrival.before (keySlot s (p.num 18 1)).changed = true ∨
        p.num 56 4 ≠ 0 ∧ p.num 56 4 ≠ (keySlot s (p.num 18 1)).generation) →
      ∃ t, exec (.ethSecure p) s = .next t ∧ Completed p .keyChanged s t ∧ t.store = s.store)) ∧
  (∀ p s, KeeperRuns ethSecureOp p s → esMode p = 1 →
    (∀ a, esSa p s = some a → ∃ t, exec (.ethSecure p) s = .next t ∧ Completed p .ok s t ∧ esSa p t = none) ∧
    (esSa p s = none → ∃ t, exec (.ethSecure p) s = .next t ∧ Completed p .conflict s t ∧ t.store = s.store)) ∧
  (∀ p s, KeeperRuns ethSecureOp p s → esMode p = 2 →
    (p.bit 16 4 = true →
      ∃ t, exec (.ethSecure p) s = .next t ∧ Completed p .ok s t ∧ ∃ c ∈ t.store.eth.cmd, c.port = esPort p ∧ c.sci = esSci p ∧ c.bound = true) ∧
    (p.bit 16 4 = false →
      ∃ t, exec (.ethSecure p) s = .next t ∧ Completed p .ok s t ∧ ∀ c ∈ t.store.eth.cmd, c.port = esPort p → c.sci = esSci p → c.bound = false)) ∧
  (∀ p s, KeeperRuns ethSecureOp p s → esMode p = 3 →
    ∃ t, exec (.ethSecure p) s = .next t ∧
      Completed p (if (esSa p s).any (fun a => a.stopped == 1) = true then .nonceExhausted else .ok) s t ∧ Replied p s t (secureReply p s) ∧ t.store = s.store) ∧
  (∀ p n s, KeeperRuns ethStatusOp p s → n = p.fld 16 0 4 →
    ∃ t, exec (.ethStatus p) s = .next t ∧ Completed p .ok s t ∧ Replied p s t (ethStatusOp.run p s).reply ∧
      (p.bit 16 4 = true → (portOf t n).cnt = {}) ∧ (p.bit 16 4 = false → t.eth = s.eth)) ∧
  (∀ p s, KeeperRuns ethTimeOp p s →
    (p.bit 16 0 = true → (timeCfgOf p).agrees = true →
      ∃ t, exec (.ethTime p) s = .next t ∧ Completed p .ok s t ∧ t.store.eth.time = timeCfgOf p ∧ t.eth = s.eth) ∧
    (p.bit 16 0 = true → (timeCfgOf p).agrees = false →
      ∃ t, exec (.ethTime p) s = .next t ∧ Completed p .conflict s t ∧ t.store.eth.time = s.store.eth.time) ∧
    (p.bit 16 0 = false → ∃ t, exec (.ethTime p) s = .next t ∧ Completed p .ok s t ∧ Replied p s t (ethTimeOp.run p s).reply ∧ t.store = s.store))

/-- R278–R294, Tables 11.1–11.12: an armed source that sees a wake latches once with its tick, passes it to the keeper through L5, and a bus sets its wake flag; a latch is
handled awake, in Dark and in Buoy; the RTC alarm and a selective-wake frame latch, as does the 32nd bad frame; NM messages arrive, keep-alives and ring messages are sent, timeouts and commits move a
network on; the device commit, Dark entry, the end of Buoy and the stop of the pairs; NM.CONFIG, NM.REQUEST, NM.RELEASE, NM.STATUS and XCVR.STATE. The phases of
a bus that count as a wake are those of Table 11.4, free between its Min and Max (the model's choice, log entry 153). -/
def Obligations.SleepAndNetworksAct : Prop :=
  (∀ cause i phases s, enabledSource s cause i = true → (∀ l ∈ s.sleep.latches, l.cause = cause → l.index ≠ i) →
    ((detects s cause i phases).1 = true → armedSource s cause i = true → ∃ t, exec (.wakeLatch cause ⟨i, phases⟩) s = .next t ∧
      t.sleep.latches = s.sleep.latches ++
        [⟨cause, i, s.now, s.sleep.darkCommit.isSome || s.asleep, !(s.plane.running && feedsL5 s 0), false, 0, false, false⟩] ∧
      (s.plane.running = true → feedsL5 s 0 = true → ∃ it ∈ (vget t.plane.landings 5).items, it.wake = some (cause, i) ∧ it.hall = 0 ∧
        it.stamp = ⟨s.plane.epoch, s.wallTick + 4⟩) ∧
      ∀ n, wakeNet cause i = some n → (netOf t n).wakeFlag = true) ∧
    ((detects s cause i phases).1 = false ∨ armedSource s cause i = false → ∃ t, exec (.wakeLatch cause ⟨i, phases⟩) s = .next t ∧
      t.sleep.latches = s.sleep.latches)) ∧
  (∀ d s, s.sleep.alarmAt = some d → d ≤ s.rtc.time → armedSource s 7 0 = true → (∀ l ∈ s.sleep.latches, l.cause = 7 → l.index ≠ 0) →
    ∃ t, exec .rtcAlarm s = .next t ∧ t.sleep.alarmAt = none ∧
      t.sleep.latches = s.sleep.latches ++
        [⟨7, 0, s.now, s.sleep.darkCommit.isSome || s.asleep, !(s.plane.running && feedsL5 s 0), false, 0, false, false⟩]) ∧
  (∀ it n c i s, s.plane.running = true → n = (vget s.plane.landings 5).released → n < s.wallTick → landingReady s 5 n = true →
    (vget s.plane.landings 5).items = [it] → itemDue s n it.stamp = true → it.warn = false → it.wake = some (c, i) →
    ∃ t, exec (.landingRelease 5 n) s = .next t ∧ (vget t.plane.landings 5).items = [] ∧
      (∀ k ∈ t.sleep.latches, k.cause = c → k.index = i → k.told = true ∧ k.handled = false) ∧
      ∀ k ∈ s.sleep.latches, k.cause = c → k.index = i → k.handled = true →
        Posted s t { s.ev 1 0x0902 (c + 16 * i) (b2n k.late + 2 * k.target) with stamp := it.stamp }) ∧
  (∀ l s, s.sleep.latches.find? (!·.handled) = some l → s.seq.powered = true → s.seq.inReset = false → s.sleep.darkCommit = none →
    (s.asleep = false → s.plane.running = true → ∃ t, exec .wakeHandling s = .next t ∧
      t.sleep.darkPending = (s.sleep.darkPending && decide (wakeTarget s l.cause < s.seq.state.code)) ∧
      (l.told = true → Posted s t (s.ev 1 0x0902 (l.cause + 16 * l.index) (b2n l.late + 2 * wakeTarget s l.cause))) ∧
      (∀ k ∈ t.sleep.latches, k.cause = l.cause → k.index = l.index → k.handled = true ∧ k.told = false) ∧
      (s.seq.state.code < wakeTarget s l.cause → t.sleep.target = some (max (wakeTarget s l.cause) (s.sleep.target.getD 0)))) ∧
    ((s.seq.state = .dark ∨ s.seq.state = .buoy) → ∃ t, exec .wakeHandling s = .next t ∧
      (∀ k ∈ t.sleep.latches, k.cause = l.cause → k.index = l.index → k.handled = true ∧ k.target = wakeTarget s l.cause ∧ k.netsDue = true) ∧
      (∃ k ∈ t.sleep.latches, k.cause = l.cause ∧ k.index = l.index ∧ k.late = l.late ∧ (s.seq.state = .buoy → k.logged = true)) ∧
      (s.seq.state.code < wakeTarget s l.cause → t.sleep.target = some (max (wakeTarget s l.cause) (s.sleep.target.getD 0))))) ∧
  (∀ n f s, n < 8 → (vget s.store.sleep.xcvr n).swEn = true → 2 ≤ (netOf s n).xcvr → f.fdf = false →
    (wakeMatch (vget s.store.sleep.xcvr n) f = true → armedSource s 4 n = true →
      ∃ t, exec (.selectiveWakeFrame n f true) s = .next t ∧ (∃ l ∈ t.sleep.latches, l.cause = 4 ∧ l.index = n) ∧ (netOf t n).wakeFlag = true ∧
        (netOf t n).swErr = (netOf s n).swErr - 1) ∧
    ((netOf s n).swErr < 31 → ∃ t, exec (.selectiveWakeFrame n f false) s = .next t ∧ (netOf t n).swErr = (netOf s n).swErr + 1 ∧
      t.sleep.latches = s.sleep.latches) ∧
    ((netOf s n).swErr = 31 → armedSource s 5 n = true →
      ∃ t, exec (.selectiveWakeFrame n f false) s = .next t ∧ (netOf t n).swErr = 32 ∧ (netOf t n).wakeFlag = true ∧
        ∃ l ∈ t.sleep.latches, l.cause = 5 ∧ l.index = n)) ∧
  (∀ n m s, n < 8 → (netOf s n).state = 3 → (netOf s n).xcvr < 2 →
    ((netCfg s n).mode = 1 → m.active = true → ∃ t, exec (.nmMessageRx n m) s = .next t ∧
      (netOf t n).timeoutAt = some (s.plane.lin + msTicks (netCfg s n).timeoutMs) ∧ (netOf t n).state = 3 ∧
      ∃ p ∈ (netOf t n).peers, p.node = m.source ∧ p.heard = s.plane.lin) ∧
    ((netCfg s n).mode = 2 → m.ring = true → m.sleepAck = false → m.dest = (netCfg s n).node → ∃ t, exec (.nmMessageRx n m) s = .next t ∧
      (netOf t n).sendAt = some (s.plane.lin + msTicks (netCfg s n).ringTypMs) ∧
      (netOf t n).ringMaxAt = some (s.plane.lin + msTicks (netCfg s n).ringMaxMs) ∧ ∃ p ∈ (netOf t n).peers, p.node = m.source ∧ p.heard = s.plane.lin)) ∧
  (∀ n d s, (netOf s n).state = 2 → (netCfg s n).mode = 1 → (netOf s n).kaAt = some d → d ≤ s.plane.lin → canTalk s n = true →
    (canMode s n).sends = true → (canOf s n).fifo.length < 32 → dryReplay s = false →
    ∃ t f, exec (.nmKeepaliveTimer n) s = .next t ∧ (netOf t n).kaAt = some (s.plane.lin + msTicks (netCfg s n).kaMs) ∧ (netOf t n).wakeReason = none ∧
      (canOf t n).fifo = (canOf s n).fifo ++ [f] ∧ f.frame = nmFrame s n (1 + 2 * b2n (netOf s n).wakeReason.isSome) 0xFF ((netOf s n).wakeReason.getD 0)) ∧
  (∀ n d s, n < 14 → (netOf s n).state = 3 → (netCfg s n).mode = 1 → (netOf s n).timeoutAt = some d → d ≤ s.plane.lin →
    ∃ t, exec (.nmTimeout n) s = .next t ∧ (netOf t n).state = 4 ∧ (netOf t n).wbsAt = some (s.plane.lin + msTicks (netCfg s n).wbsMs) ∧
      Observed s t 6 (32 + n) [] [s.ev 6 0x0901 n 4]) ∧
  (∀ n d s, (netCfg s n).mode = 2 → (netOf s n).state = 2 → canTalk s n = true → (canMode s n).sends = true → (canOf s n).fifo.length < 32 →
    dryReplay s = false → d ≤ s.plane.lin →
    ((netOf s n).sendAt = some d → (∃ q ∈ (netOf s n).peers, q.node ≠ (netCfg s n).node ∧ q.missed < 2) →
      ∃ t f, exec (.nmRingSend n) s = .next t ∧ (netOf t n).sendAt = none ∧ (canOf t n).fifo = (canOf s n).fifo ++ [f] ∧
      f.frame.id = (netCfg s n).base + (netCfg s n).node ∧
      f.frame.data.take 2 = beBytes 1 (netCfg s n).node ++ beBytes 1 (5 + 2 * b2n (netOf s n).wakeReason.isSome)) ∧
    ((netOf s n).ringMaxAt = some d → (∀ p ∈ (netOf s n).peers, (netCfg s n).node ≤ p.node) → ∃ t f, exec (.nmRingTimeout n) s = .next t ∧
      (netOf t n).opened = true ∧ (canOf t n).fifo = (canOf s n).fifo ++ [f] ∧ f.frame.id = (netCfg s n).base + (netCfg s n).node) ∧
    ((netOf s n).ringMaxAt = some d → (∃ p ∈ (netOf s n).peers, p.node < (netCfg s n).node ∧ p.missed < 2) → ∃ t, exec (.nmRingTimeout n) s = .next t ∧
      (netOf t n).opened = false ∧ (canOf t n).fifo = (canOf s n).fifo ∧ (netOf t n).ringMaxAt = some (s.plane.lin + msTicks (netCfg s n).ringMaxMs))) ∧
  (∀ n d s, n < 14 → (netOf s n).state = 4 → (netOf s n).wbsAt = some d → d ≤ s.plane.lin →
    (latchedBefore s = false → ∃ t, exec (.networkCommit n) s = .next t ∧ (netOf t n).state = 1 ∧ (netOf t n).xcvr = 3 ∧
      (netOf t n).sleeps = satAdd32 (netOf s n).sleeps 1 ∧ Observed s t 6 (32 + n) [] [s.ev 6 0x0901 n 1]) ∧
    (latchedBefore s = true → ∃ t, exec (.networkCommit n) s = .next t ∧ netOf t n = netOf s n)) ∧
  (∀ s, darkDue s = true → ∃ t, exec .deviceCommit s = .next t ∧ t.sleep.darkCommit = some s.now ∧ t.plane.keeper = [] ∧ t.plane.waiting = [] ∧
    (∀ r, r < 64 → (t.ring r).flights = []) ∧
    t.access.poll = none ∧ Posted s t (s.ev 3 0x010C (pointAt 83 0) 0 true)) ∧
  (∀ d s, s.sleep.darkCommit = some d → d + 80 ≤ s.now → ∃ t, exec .darkEntry s = .next t ∧ t.seq.state = .dark ∧ t.seq.pd = 0 ∧ t.plane.running = false ∧
    t.mem = [] ∧ t.points = {} ∧ t.bus = {} ∧ t.cipher = {} ∧ t.sleep.darkCommit = none ∧ t.sleep.darkPending = false ∧ t.ret = s.ret ∧ t.load = s.load ∧
    ∀ l ∈ s.sleep.latches, ∃ k ∈ t.sleep.latches, k.cause = l.cause ∧ k.index = l.index ∧ k.told = true ∧ k.tick = (if l.late = true then s.now else l.tick)) ∧
  (∀ s, s.seq.state = .buoy → s.sleep.target = none → s.sleep.buoyAt + msTicks s.store.sleep.buoyMs ≤ s.now →
    ∃ t, exec .buoyTimeout s = .next t ∧ t.seq.state = .dark ∧ t.seq.pd = 0 ∧ t.access.poll = none ∧ t.ret = s.ret) ∧
  (∀ d s, s.sleep.pairStopAt = some d → s.plane.running = true → d ≤ s.plane.lin →
    ∃ t, exec .pairStop s = .next t ∧ t.sleep.pairStopAt = none ∧ domainOn t 3 = false ∧ t.seq.state = s.seq.state) ∧
  (∀ p s, KeeperRuns nmConfigOp p s → p.bit 17 0 = true → nmAgrees s.store.sleep = true →
    ∃ t, exec (.nmConfig p) s = .next t ∧ Completed p .ok s t ∧ Replied p s t (nmConfigOp.run p s).reply ∧ t.store.sleep = s.store.sleep) ∧
  (∀ p st s, KeeperRuns nmConfigOp p s → nmDevice p = true → p.bit 17 0 = false →
    st = { s.store.sleep with
      alarm := p.num 20 4, buoyMs := p.num 24 2
      wake := vtab 9 fun i => { target := p.fld (32 + 4 * i) 0 2, mask := some (p.fld (34 + 4 * i) 0 14) } } →
    nmAgrees st = true →
    ∃ t, exec (.nmConfig p) s = .next t ∧ Completed p .ok s t ∧ t.store.sleep = st ∧
      t.sleep.alarmAt = (if p.num 20 4 = 0 then none else some (s.rtc.time + p.num 20 4 * 32768))) ∧
  (∀ p n s, KeeperRuns nmConfigOp p s → nmDevice p = false → p.bit 17 0 = false → n = nmTarget p →
    nmAgrees { s.store.sleep with net := vmod s.store.sleep.net n fun _ => nmCfgOf p } = true →
    ((nmCfgOf p).mode = (netCfg s n).mode → ∃ t, exec (.nmConfig p) s = .next t ∧ Completed p .ok s t ∧ netCfg t n = nmCfgOf p ∧
      (netOf t n).user = (nmCfgOf p).user ∧ (netOf t n).state = (netOf s n).state) ∧
    ((nmCfgOf p).mode ≠ (netCfg s n).mode → (nmCfgOf p).mode ≠ 0 → (netOf s n).state ≤ 1 → ∃ t, exec (.nmConfig p) s = .next t ∧ Completed p .ok s t ∧
      netCfg t n = nmCfgOf p ∧ (netOf t n).state = 1 ∧ (netOf t n).xcvr = 3) ∧
    ((nmCfgOf p).mode ≠ (netCfg s n).mode → (nmCfgOf p).mode = 0 → (netOf s n).state ≤ 1 → ∃ t, exec (.nmConfig p) s = .next t ∧ Completed p .ok s t ∧
      netCfg t n = nmCfgOf p ∧ (netOf t n).state = 0 ∧ (netOf t n).requested = false ∧ (netOf t n).xcvr = (netOf s n).xcvr) ∧
    ((nmCfgOf p).mode ≠ (netCfg s n).mode → 1 < (netOf s n).state → ∃ t, exec (.nmConfig p) s = .next t ∧
      Completed p .busy s t ∧ t.store.sleep = s.store.sleep)) ∧
  (∀ p n s, KeeperRuns nmConfigOp p s → nmDevice p = false → p.bit 17 0 = false → n = nmTarget p →
    nmAgrees { s.store.sleep with net := vmod s.store.sleep.net n fun _ => nmCfgOf p } = false →
    ∃ t, exec (.nmConfig p) s = .next t ∧ Completed p .conflict s t ∧ t.store.sleep = s.store.sleep ∧ t.sleep = s.sleep) ∧
  (∀ p n s, KeeperRuns nmRequestOp p s → nmNames p = [n] → ((netCfg s n).mode = 1 ∨ (netCfg s n).mode = 2) →
    ((netOf s n).state = 1 → ∃ t, exec (.nmRequest p) s = .next t ∧ Completed p .ok s t ∧ (netOf t n).requested = true ∧ (netOf t n).state = 2 ∧
      (netOf t n).xcvr = 0 ∧ t.sleep.darkPending = false ∧ ∃ l ∈ t.sleep.latches, l.cause = 10 ∧ l.index = n) ∧
    (1 < (netOf s n).state → ∃ t, exec (.nmRequest p) s = .next t ∧ Completed p .ok s t ∧ (netOf t n).requested = true ∧ (netOf t n).state = 2)) ∧
  (∀ p n s, KeeperRuns nmReleaseOp p s → nmNames p = [n] → ((netCfg s n).mode = 1 ∨ (netCfg s n).mode = 2) →
    ∃ t, exec (.nmRelease p) s = .next t ∧ Completed p .ok s t ∧ (netOf t n).requested = false ∧
      (netOf t n).state = (if (netOf s n).state = 2 then 3 else (netOf s n).state)) ∧
  (∀ p n s, KeeperRuns nmStatusOp p s → n = p.fld 16 0 4 →
    ∃ t, exec (.nmStatus p) s = .next t ∧ Completed p .ok s t ∧ Replied p s t (nmStatusOp.run p s).reply ∧
      (p.bit 17 0 = true → (netOf t n).sleeps = 0 ∧ (netOf t n).cancels = 0 ∧ (netOf t n).wakes = 0) ∧ (p.bit 17 0 = false → t.sleep = s.sleep)) ∧
  (∀ p n s, KeeperRuns xcvrStateOp p s → n = p.fld 16 0 4 →
    (p.bit 16 4 = true → ∃ t, exec (.xcvrState p) s = .next t ∧ Completed p .ok s t ∧ Replied p s t (xcvrStateOp.run p s).reply ∧
      (netOf t n).wakeFlag = false ∧ t.store.sleep = s.store.sleep) ∧
    (p.bit 16 4 = false → p.bit 16 5 = true → p.bit 16 6 = false → (netCfg s n).mode = 0 →
      ∃ t, exec (.xcvrState p) s = .next t ∧ Completed p .ok s t ∧ (netOf t n).xcvr = p.fld 17 0 2 ∧ t.store.sleep = s.store.sleep))

/-- R296–R320, Tables 12.3–12.14: a descriptor is admitted or refused; a segment is encrypted, decrypted or authenticated, its output and tag written, its verdict
given; the arbiter gives a context with work a slice of at most 32 blocks, as far as its input has arrived, passes over one without a block, and computes a request to its end; a chain that waits too long, a mismatch and an abort end a request; PD5 goes off; COMMIT rises; a TRNG test fails and recovers; KEY.WRITE, KEY.DERIVE and KEY.UNWRAP
give a slot its new contents and generation, KEY.ERASE empties it; KEY.INFO, SIGN, VERIFY and HASH give their results. -/
def Obligations.CipherAndKeysAct : Prop :=
  (∀ r k g d s, 32 ≤ r → r < 48 → k = ringCtx r → g = s.ring r → g.waits = true → landed s 8 (g.arrivalOf 1) = true → domainOn s 5 = true → (ctxOf s k).busy = false → (ctxOf s k).seg = none →
    (ctxOf s k).rest = none → d = memReadN s (g.slotAddr g.head) 64 →
    (firstSegmentCheck s ((ringOwner (chartersInForce s) r).getD 0) d (g.arrivalOf 1) = none → dSupplied d = true →
      ∃ t, exec (.cryptoAdmission r) s = .next t ∧ (ctxOf t k).busy = true ∧ (ctxOf t k).op = dOp d ∧ (ctxOf t k).key = slotMaterial s (dKey d) ∧
        (ctxOf t k).iv = (d.drop 16).take 12 ∧ (ctxOf t k).seg = some { slot := g.head, first := true, bytes := d } ∧ t.store.keys = s.store.keys) ∧
    (firstSegmentCheck s ((ringOwner (chartersInForce s) r).getD 0) d (g.arrivalOf 1) = none → dSupplied d = false → Tbl.wf {} s.store.keys = true →
      (keySlot s (dKey d)).counter < (keySlot s (dKey d)).commit → (keySlot s (dKey d)).counter < counterEnd →
      ∃ t, exec (.cryptoAdmission r) s = .next t ∧ (ctxOf t k).busy = true ∧ (ctxOf t k).key = slotMaterial s (dKey d) ∧
        (ctxOf t k).iv = drawnIv (keySlot s (dKey d)).fixed (keySlot s (dKey d)).counter ∧
        (keySlot t (dKey d)).counter = (keySlot s (dKey d)).counter + 1) ∧
    (∀ st, firstSegmentCheck s ((ringOwner (chartersInForce s) r).getD 0) d (g.arrivalOf 1) = some st →
      ∃ t, exec (.cryptoAdmission r) s = .next t ∧ ResultItem.reply r g.head st.code 0 1 ∈ t.plane.results ∧ (ctxOf t k).busy = false ∧
        t.store.keys = s.store.keys)) ∧
  (∀ r x g d s, segmentOf s r 1 = some (x, g) → d = g.bytes →
    ∃ t, exec (.encrypt r) s = .next t ∧ ResultItem.reply r g.slot Status.ok.code 0 1 ∈ t.plane.results ∧
      (dCont d = false → (ctxOf t (ringCtx r)).busy = false) ∧
      (dCont d = true → (ctxOf t (ringCtx r)).seg = none ∧
        (ctxOf t (ringCtx r)).cipher = x.cipher ++ Config.gcmCrypt x.key x.iv x.cipher.length (dataLeft s g) ∧
        SegmentWrote r g.slot s t (dOut d + 16 * g.done) (Config.gcmCrypt x.key x.iv x.cipher.length (dataLeft s g))) ∧
      (dCont d = false → dTagLen d ≤ 16 → SegmentWrote r g.slot s t (dTag d) ((Config.gcmTag x.key x.iv (segmentAad s x d)
        (x.cipher ++ Config.gcmCrypt x.key x.iv x.cipher.length (dataLeft s g))).take (dTagLen d)))) ∧
  (∀ r x g d s, segmentOf s r 2 = some (x, g) → d = g.bytes →
    ∃ t, exec (.decrypt r) s = .next t ∧
      ResultItem.reply r g.slot (if dCont d = true ∨ tagAgrees (writeData s (ringCtx r) (blocksOf (dDataLen d))) d
        (Config.gcmTag x.key x.iv (segmentAad s x d) (x.cipher ++ dataLeft s g)) = true then Status.ok else Status.authFail).code 0 1 ∈ t.plane.results ∧
      (dCont d = false → (ctxOf t (ringCtx r)).busy = false) ∧
      SegmentWrote r g.slot s t (dOut d + 16 * g.done) (Config.gcmCrypt x.key x.iv x.cipher.length (dataLeft s g))) ∧
  (∀ r x g d s, segmentOf s r 3 = some (x, g) → d = g.bytes →
    ∃ t, exec (.gmacGen r) s = .next t ∧ ResultItem.reply r g.slot Status.ok.code 0 1 ∈ t.plane.results ∧
      (dCont d = true → (ctxOf t (ringCtx r)).aad = segmentAad s x d ∧ (ctxOf t (ringCtx r)).seg = none) ∧
      (dCont d = false → dTagLen d ≤ 16 → (ctxOf t (ringCtx r)).busy = false ∧
        SegmentWrote r g.slot s t (dTag d) ((Config.gcmTag x.key x.iv (segmentAad s x d) []).take (dTagLen d)))) ∧
  (∀ r x g d s, segmentOf s r 4 = some (x, g) → d = g.bytes →
    ∃ t, exec (.gmacCheck r) s = .next t ∧
      ResultItem.reply r g.slot (if dCont d = true ∨ tagAgrees s d (Config.gcmTag x.key x.iv (segmentAad s x d) []) = true then Status.ok
        else Status.authFail).code 0 1 ∈ t.plane.results ∧ (dCont d = false → (ctxOf t (ringCtx r)).busy = false)) ∧
  (∀ work ready k e c, c < 32 → work.length = 32 → e.computed.length = 32 →
    (e.computed.getD c 0 < work.getD c 0 → 0 < ready →
      (e.visit work ready c).computed.getD c 0 = min (work.getD c 0) (e.computed.getD c 0 + min 32 ready) ∧ (e.visit work ready c).turn = (c + 1) % 32 ∧
      (c ∈ (e.visit work ready c).cuts ↔ c ∈ e.cuts ∨ work.getD c 0 < e.computed.getD c 0 + 32 ∨ ready < 32) ∧
      ∀ j, j ≠ c → (e.visit work ready c).computed.getD j 0 = e.computed.getD j 0) ∧
    ((work.getD c 0 ≤ e.computed.getD c 0 ∨ ready = 0) → e.visit work ready c = e) ∧
    (work.getD k 0 ≤ (EngineRun.rounds work k (work.getD k 0) e).computed.getD k 0 ∨ 32 ≤ k)) ∧
  (∀ r k s, 32 ≤ r → r < 48 → k = ringCtx r → (ctxOf s k).busy = true → (ctxOf s k).seg = none → (s.ring r).waits = false →
    (ctxOf s k).lastAt + 80000000 ≤ s.now → ∃ t, exec (.chainSegmentTimeout r) s = .next t ∧ (ctxOf t k).busy = false ∧ (ctxOf t k).rest = some Status.timeout.code ∧
      ∀ j, j ≠ k → ctxOf t j = ctxOf s j) ∧
  (∀ slot s, ∃ t, exec (.keyAbortStop slot) s = .next t ∧ ∀ k, k < 16 →
    ((ctxOf s k).busy = true → (ctxOf s k).abort = true → (ctxOf s k).keySlot = slot → (ctxOf t k).busy = false ∧
      ∀ g, (ctxOf s k).seg = some g → ResultItem.reply (32 + k) g.slot Status.keyRevoked.code 0 1 ∈ t.plane.results) ∧
    (((ctxOf s k).busy = false ∨ (ctxOf s k).abort = false ∨ (ctxOf s k).keySlot ≠ slot) → ctxOf t k = ctxOf s k)) ∧
  (∀ k g s, k < 16 → domainOn s 5 = true → (ctxOf s k).busy = true → (ctxOf s k).seg = some g →
    (s.cipher.mismatches.filter fun a => s.now < a + 8000000).length < 15 →
    ∃ t, exec (.cipherMismatch k) s = .next t ∧ ResultItem.reply (32 + k) g.slot Status.hwFault.code 0 1 ∈ t.plane.results ∧ (ctxOf t k).busy = false ∧
      Posted s t (s.ev 1 0x0A02 k ((s.cipher.mismatches.filter fun a => s.now < a + 8000000).length + 1))) ∧
  (∀ k op p s, (k = 28 ∧ op = 0x0A04 ∨ k = 29 ∧ op = 0x0D01 ∨ k = 31 ∧ op = 0x0B01) → domainOn s 5 = true →
    s.plane.keeper.find? (fun p => p.opcode == op && !isFinished s p) = some p →
    (s.cipher.mismatches.filter fun a => s.now < a + 8000000).length < 15 →
    ∃ t, exec (.cipherMismatch k) s = .next t ∧ Completed p .hwFault s t ∧
      Posted s t (s.ev 1 0x0A02 k ((s.cipher.mismatches.filter fun a => s.now < a + 8000000).length + 1))) ∧
  (∀ s, domainOn s 5 = true → ctxIdle s = true → keepsPd5 s = false → s.cipher.idleSince + 80000 ≤ s.now → (∀ k, k < 16 → (s.ring (32 + k)).waits = false) →
    ∃ t, exec .pd5IdleOff s = .next t ∧ domainOn t 5 = false ∧ t.store = s.store) ∧
  (∀ k s, 16 ≤ k → commitDue (keySlot s k) = true → Tbl.wf {} s.store.keys = true →
    ∃ t, exec (.counterCommit k) s = .next t ∧ (keySlot t k).commit = min ((keySlot s k).commit + 4096) counterEnd ∧
      (keySlot t k).counter = (keySlot s k).counter ∧ ∀ j, j ≠ k → keySlot t j = keySlot s j) ∧
  (∀ n s, 1 ≤ n → n ≤ 3 → s.cipher.trngFail = false →
    ∃ t, exec (.trngHealthFail n) s = .next t ∧ t.cipher.trngFail = true ∧ Posted s t (s.ev 1 0x0A05 0 n)) ∧
  (∀ s, ∃ t, exec .trngHealthRecovery s = .next t ∧ t.cipher.trngFail = false ∧ t.cipher.ctx = s.cipher.ctx) ∧
  (∀ p k s, KeeperRuns keyWriteOp p s → k = p.num 16 1 → kwGenerate p = false → usageAllowed (p.num 18 1) (p.fld 20 0 10) = true →
    sourceAllowed (p.num 18 1) false = true → p.num 36 4 = materialLen (p.num 18 1) → generationFull s k = false → targetStale s k (p.num 24 4) = false →
    p.num 28 4 ≠ 0 → Tbl.wf {} s.store.keys = true →
    ∃ t, exec (.keyWrite p) s = .next t ∧ Completed p .ok s t ∧ (keySlot t k).alg = p.num 18 1 ∧ (keySlot t k).usage = p.fld 20 0 10 ∧
      (keySlot t k).owner = p.comp ∧ (keySlot t k).fixed = p.num 28 4 ∧ (keySlot t k).material = memReadN s (p.num 32 4) (materialLen (p.num 18 1)) ∧
      (keySlot t k).generation = (keySlot s k).generation + 1 ∧ (keySlot t k).counter = (keySlot s k).counter ∧
      Posted s t (s.ev 1 0x0A01 (k + 512 * b2n (p.bit 17 0)) (((keySlot s k).generation + 1) % 65536) false p.comp)) ∧
  (∀ p k s, KeeperRuns keyEraseOp p s → k = p.num 16 1 → generationFull s k = false → targetStale s k (p.num 24 4) = false → Tbl.wf {} s.store.keys = true →
    ∃ t, exec (.keyErase p) s = .next t ∧ Completed p .ok s t ∧ (keySlot t k).alg = 0 ∧ (keySlot t k).owned = false ∧ (keySlot t k).material = [] ∧
      (keySlot t k).generation = (keySlot s k).generation + 1 ∧
      Posted s t (s.ev 1 0x0A01 (k + 256 + 512 * b2n (p.bit 17 0)) (((keySlot s k).generation + 1) % 65536) false p.comp)) ∧
  (∀ p s, KeeperRuns keyInfoOp p s →
    (p.num 20 4 = 0 → ∃ t, exec (.keyInfo p) s = .next t ∧ Completed p .ok s t ∧ Replied p s t (keyInfoOp.run p s).reply ∧ t.store = s.store) ∧
    (p.num 20 4 ≠ 0 → (kiPublic p s).isEmpty = false →
      ∃ t, exec (.keyInfo p) s = .next t ∧ Completed p .ok s t ∧ Wrote p s t (p.num 20 4) (kiPublic p s) ∧ t.store = s.store) ∧
    (p.num 20 4 ≠ 0 → (kiPublic p s).isEmpty = true →
      ∃ t, exec (.keyInfo p) s = .next t ∧ Completed p .conflict s t ∧ t.store = s.store)) ∧
  (∀ p k x s, KeeperRuns keyDeriveOp p s → k = p.num 17 1 → 1 ≤ p.num 19 1 → p.num 19 1 ≤ 3 → usageAllowed (p.num 19 1) (p.fld 20 0 10) = true →
    generationFull s k = false → keyFor s p (p.num 16 1) (p.num 24 4) = .ok x → targetStale s k (p.num 28 4) = false → p.num 32 4 ≠ 0 →
    Tbl.wf {} s.store.keys = true →
    ∃ t, exec (.keyDerive p) s = .next t ∧ Completed p .ok s t ∧ (keySlot t k).alg = p.num 19 1 ∧ (keySlot t k).origin = 2 ∧
      (keySlot t k).generation = (keySlot s k).generation + 1 ∧ (keySlot t k).material =
        deriveKey x.material (p.num 19 1) (p.fld 20 0 10) ((p.bytes.drop 40).take (p.num 36 1)) (materialLen (p.num 19 1))) ∧
  (∀ p k x c blob attr s, KeeperRuns keyUnwrapOp p s → k = p.num 17 1 → keyAt s (p.num 16 1) p.arrival = some x → c = wrapOffset x.alg →
    blob = memReadN s (p.num 32 4) (min 4096 (p.num 36 4)) → attr = padTo 16 ((blob.drop c).take 16) → 1 ≤ dNum attr 0 1 → dNum attr 0 1 ≤ 6 →
    dNum attr 0 1 ≠ 5 → usageAllowed (dNum attr 0 1) (dNum attr 2 2) = true → dNum attr 8 1 = k → p.num 36 4 = c + 44 + materialLen (dNum attr 0 1) →
    generationFull s k = false → (p.num 24 4 = 0 ∨ p.num 24 4 = x.generation) → targetStale s k (p.num 28 4) = false → dNum attr 4 4 ≠ 0 →
    Tbl.wf {} s.store.keys = true →
    ∃ t, exec (.keyUnwrap p) s = .next t ∧
      ((blob.drop (c + 28 + materialLen (dNum attr 0 1))).take 16 = Config.gcmTag (wrapKek x blob attr) ((blob.drop (c + 16)).take 12) attr
          ((blob.drop (c + 28)).take (materialLen (dNum attr 0 1))) →
        Completed p .ok s t ∧ (keySlot t k).alg = dNum attr 0 1 ∧ (keySlot t k).origin = 3 ∧ (keySlot t k).material =
          Config.gcmCrypt (wrapKek x blob attr) ((blob.drop (c + 16)).take 12) 0 ((blob.drop (c + 28)).take (materialLen (dNum attr 0 1)))) ∧
      ((blob.drop (c + 28 + materialLen (dNum attr 0 1))).take 16 ≠ Config.gcmTag (wrapKek x blob attr) ((blob.drop (c + 16)).take 12) attr
          ((blob.drop (c + 28)).take (materialLen (dNum attr 0 1))) →
        Completed p .authFail s t ∧ t.store = s.store)) ∧
  (∀ p x msg s, KeeperRuns signOp p s → keyFor s p (p.num 16 1) (p.num 20 4) = .ok x → msg = memReadN s (p.num 24 4) (p.num 28 4) →
    ∃ t, exec (.sign p) s = .next t ∧ t.store = s.store ∧
      (Config.signExhausts x.material (svContext p) msg = false → Completed p .ok s t ∧ Replied p s t [(16, 2, 3309), (20, 4, x.generation)] ∧
        Wrote p s t (p.num 32 4) (Config.sign x.material (svContext p) msg)) ∧
      (Config.signExhausts x.material (svContext p) msg = true → Completed p .hwFault s t)) ∧
  (∀ p pk s, KeeperRuns verifyOp p s → pk = memReadN s (p.num 36 4) 1952 → vfInMem p = true →
    ∃ t, exec (.verify p) s = .next t ∧ t.store = s.store ∧
      Completed p (if Config.verify pk (svContext p) (memReadN s (p.num 24 4) (p.num 28 4)) (memReadN s (p.num 32 4) 3309) then .ok else .authFail) s t) ∧
  (∀ p x s, KeeperRuns verifyOp p s → vfInMem p = false → keyFor s p (p.num 16 1) (p.num 20 4) = .ok x →
    ∃ t, exec (.verify p) s = .next t ∧ t.store = s.store ∧
      Completed p (if Config.verify (publicPartOf x.alg x.material) (svContext p) (memReadN s (p.num 24 4) (p.num 28 4)) (memReadN s (p.num 32 4) 3309)
        then .ok else .authFail) s t) ∧
  (∀ p out s, KeeperRuns hashOp p s → out = Config.shake (p.num 24 2) (readSource s p.comp (p.num 16 4) (p.num 20 4)) →
    ∃ t, exec (.hash p) s = .next t ∧ Completed p .ok s t ∧ t.store = s.store ∧ (p.num 28 4 = 0 → Replied p s t [replyBytes 16 out]) ∧
      (p.num 28 4 ≠ 0 → Wrote p s t (p.num 28 4) out))

/-- R325–R346, Tables 13.5–13.13: IMAGE.BEGIN opens a transfer of a good, signed, newer image into the inactive bank; IMAGE.DATA writes each chunk once,
one of an encrypted package decrypted where its tag agrees; IMAGE.END stages the bank or marks it bad; a transfer times out; a trial is armed, compares items, and ends with its cause; IMAGE.COMMIT makes the staged bank tentative or confirms
it, IMAGE.REVERT returns to the previous one; ATTEST writes its report; DEBUG.UNLOCK issues a challenge and opens a scope, which ends with its duration. -/
def Obligations.ImagesAndDebugAct : Prop :=
  (∀ p kind h s, KeeperRuns imageBeginOp p s → ibAbort p = false → kind = p.fld 16 0 2 → h = memReadN s (p.num 20 4) 4096 →
    (tentative s kind = true → ∃ t, exec (.imageBegin p) s = .next t ∧ Completed p .conflict s t ∧ t.image.transfer = s.image.transfer ∧ t.store = s.store) ∧
    (tentative s kind = false → imageBusy s = true → ∃ t, exec (.imageBegin p) s = .next t ∧ Completed p .busy s t ∧ t.image.transfer = s.image.transfer ∧ t.store = s.store) ∧
    (imageBusy s = false → tentative s kind = false → headerGood s h kind (p.num 24 4) = true → rollsBack s h kind = false → kind ≠ 3 →
      ∃ t, exec (.imageBegin p) s = .next t ∧
        (hSigned h (slotMaterial s (if kind = 1 then 4 else 5)) = true → Completed p .ok s t ∧ (bank13 t (inactiveOf s kind)).state = 1 ∧
          (bank13 t (inactiveOf s kind)).header = h ∧ ∃ tr, t.image.transfer = some tr ∧ tr.owner = p.comp ∧ tr.kind = kind ∧ tr.header = h ∧
            tr.number = (s.image.transfers + 1) % 65536 ∧ tr.bank = inactiveOf s kind) ∧
        (hSigned h (slotMaterial s (if kind = 1 then 4 else 5)) = false → Completed p .authFail s t ∧ t.image = s.image ∧ t.store = s.store))) ∧
  (∀ p tr i s, KeeperRuns imageDataOp p s → namedTransfer p s = some tr → tr.kind ≠ 3 → tr.bank < 4 → i = p.num 18 2 →
    (Tbl.get (bank13 s tr.bank).chunks [] i = [] → hEncrypted tr.header = false → Tbl.wf [] (bank13 s tr.bank).chunks = true →
      ∃ t, exec (.imageData p) s = .next t ∧ Completed p .ok s t ∧ t.image.transfer = some { tr with lastAt := s.now } ∧
        Tbl.get (bank13 t tr.bank).chunks [] i = memReadN s (p.num 20 4) (p.num 24 4)) ∧
    (∀ data, data = memReadN s (p.num 20 4) (p.num 24 4) → Tbl.get (bank13 s tr.bank).chunks [] i = [] → hEncrypted tr.header = true →
      Tbl.wf [] (bank13 s tr.bank).chunks = true →
      ((p.bytes.drop 32).take 16 = Config.gcmTag tr.key (chunkIv i) (imageDigest tr.header) data →
        ∃ t, exec (.imageData p) s = .next t ∧ Completed p .ok s t ∧
          Tbl.get (bank13 t tr.bank).chunks [] i = Config.gcmCrypt tr.key (chunkIv i) 0 data) ∧
      ((p.bytes.drop 32).take 16 ≠ Config.gcmTag tr.key (chunkIv i) (imageDigest tr.header) data →
        ∃ t, exec (.imageData p) s = .next t ∧ Completed p .authFail s t ∧ t.store = s.store)) ∧
    (Tbl.get (bank13 s tr.bank).chunks [] i ≠ [] → ∃ t, exec (.imageData p) s = .next t ∧ Completed p .conflict s t ∧ t.store = s.store)) ∧
  (∀ p tr payload s, KeeperRuns imageEndOp p s → namedTransfer p s = some tr → tr.kind ≠ 3 → tr.bank < 4 →
    payloadOf tr.header (bank13 s tr.bank).chunks = some payload →
    ∃ t, exec (.imageEnd p) s = .next t ∧ t.image.transfer = none ∧
      (Config.shake256 payload = hDigest tr.header → Completed p .ok s t ∧ (bank13 t tr.bank).state = 2 ∧
        (bank13 t tr.bank).chunks = (bank13 s tr.bank).chunks) ∧
      (Config.shake256 payload ≠ hDigest tr.header → Completed p .imageBad s t ∧ (bank13 t tr.bank).state = 6)) ∧
  (∀ tr s, s.image.transfer = some tr → tr.kind ≠ 3 → tr.bank < 4 → tr.lastAt + 600 * 8000000 ≤ s.now →
    ∃ t, exec .transferTimeout s = .next t ∧ t.image.transfer = none ∧ (bank13 t tr.bank).state = 0 ∧ Posted s t (s.ev 1 0x0B01 tr.bank 0)) ∧
  (∀ p s, KeeperRuns imageTrialOp p s →
    (itMode p = 0 → trialFits s = true → trialBusy s = false → p.bit 17 0 = false → ∃ t, exec (.imageTrial p) s = .next t ∧ Completed p .ok s t ∧
      t.image.trial = { state := 1, tagCmp := p.bit 17 1, runS := p.num 20 4, window := p.num 24 4 } ∧ t.seq = s.seq) ∧
    (itMode p = 2 → (s.image.trial.state = 1 ∨ s.image.trial.state = 2) → ∃ t, exec (.imageTrial p) s = .next t ∧ Completed p .ok s t ∧
      t.image.trial.state = 3 ∧ t.image.trial.cause = 7)) ∧
  (∀ x s, s.image.trial.state = 2 → candidateLate x = false →
    ((∀ y ∈ s.image.trial.live, y.comp ≠ x.comp) → ∃ t, exec (.trialCompare true x) s = .next t ∧ t.image.trial.state = 2 ∧
      t.image.trial.cand = s.image.trial.cand ++ [x] ∧ t.image.trial.live = s.image.trial.live ∧ t.image.trial.matched = s.image.trial.matched) ∧
    ((∀ y ∈ s.image.trial.cand, y.comp ≠ x.comp) → ∃ t, exec (.trialCompare false x) s = .next t ∧
      t.image.trial = { s.image.trial with live := s.image.trial.live ++ [x] }) ∧
    (∀ a, (s.image.trial.live.find? fun y => y.comp == x.comp) = some a →
      (pairOutcome s.image.trial.tagCmp a x = none → ∃ t, exec (.trialCompare true x) s = .next t ∧ t.image.trial.matched = s.image.trial.matched + 1 ∧
        t.image.trial.live = s.image.trial.live.erase a ∧ t.image.trial.state = 2 ∧
        ((∀ e ∈ s.image.trial.replies, e.1 ≠ a) → t.image.trial.pairs = s.image.trial.pairs ++ [(a, x)])) ∧
      (∀ cause byte, pairOutcome s.image.trial.tagCmp a x = some (cause, byte) → ∃ t, exec (.trialCompare true x) s = .next t ∧
        t.image.trial.state = 3 ∧ t.image.trial.cause = cause ∧ t.image.trial.byte = byte ∧ t.image.trial.liveBytes = a.bytes ∧
        t.image.trial.candBytes = x.bytes))) ∧
  (∀ c a s, s.image.trial.state = 2 → (s.image.trial.live.find? fun y => y.comp == c && matchDue s y) = some a →
    ∃ t, exec (.trialMatchTimeout c) s = .next t ∧ t.image.trial.state = 3 ∧ t.image.trial.cause = 3 ∧ t.image.trial.liveBytes = a.bytes) ∧
  (∀ cause s, s.image.trial.state = 2 → ((cause = 6 ∧ s.image.trial.fault = true) ∨ (cause = 0 ∧ s.image.trial.startLin + s.image.trial.runS * 8000000 ≤ s.plane.lin)) →
    ∃ t, exec (.trialRunEnd cause) s = .next t ∧ t.image.trial.state = 3 ∧ t.image.trial.cause = cause ∧ t.image.trial.live = [] ∧
      Posted s t (s.ev 1 0x0B03 s.image.trial.ring cause false s.image.trial.comp)) ∧
  (∀ p b s, KeeperRuns imageCommitOp p s → p.num 16 1 = 2 → imageBusy s = false →
    (p.bit 17 0 = false → p.bit 18 0 = false → bankIn s 2 2 = some b → trialMet s b = true → fusedSvn s 2 ≤ hSvn (bank13 s b).header →
      ∃ t, exec (.imageCommit p) s = .next t ∧ Completed p .ok s t ∧ (bank13 t b).state = 4 ∧
        (bank13 t b).bootLeft = (if p.num 19 1 = 0 then 3 else p.num 19 1) ∧ ∀ a, activeApp s = some a → (bank13 t a).state = 5) ∧
    (p.bit 17 0 = true → bankIn s 2 4 = some b →
      ∃ t, exec (.imageCommit p) s = .next t ∧ Completed p .ok s t ∧ (bank13 t b).state = 3 ∧ (bank13 t b).bootLeft = 0 ∧
        t.store.image.appSvn = max s.store.image.appSvn (hSvn (bank13 s b).header)) ∧
    (p.bit 17 0 = true → bankIn s 2 4 = none → ∃ t, exec (.imageCommit p) s = .next t ∧ Completed p .conflict s t ∧ t.store = s.store)) ∧
  (∀ p b s, KeeperRuns imageRevertOp p s → p.num 16 1 = 2 → p.bit 17 0 = false → imageBusy s = false → bankIn s 2 5 = some b →
    ∃ t, exec (.imageRevert p) s = .next t ∧
      (appPasses s b = true → Completed p .ok s t ∧ (bank13 t b).state = 3 ∧ ∀ a, activeApp s = some a → (bank13 t a).state = revertInto s 2) ∧
      (appPasses s b = false → Completed p .rollback s t ∧ t.store = s.store)) ∧
  (∀ p s, KeeperRuns attestOp p s →
    (p.bit 16 0 = false → ∃ t, exec (.attest p) s = .next t ∧ Completed p .ok s t ∧ t.store = s.store ∧ Replied p s t [(16, 2, 3669)] ∧
      Wrote p s t (p.num 20 4) (attestReport s ((p.bytes.drop 24).take 32) ((p.bytes.drop 64).take 64))) ∧
    (p.bit 16 0 = true → ∃ t, exec (.attest p) s = .next t ∧ Completed p .ok s t ∧ t.store = s.store ∧ Replied p s t [(16, 2, 10784)] ∧
      Wrote p s t (p.num 20 4) (padTo 5392 (certificate 0) ++ padTo 5392 (certificate 1)))) ∧
  (∀ p s, KeeperRuns debugUnlockOp p s →
    (p.fld 16 0 2 = 0 → s.cipher.trngFail = false → ∃ t c, exec (.debugUnlock p) s = .next t ∧ Completed p .ok s t ∧ t.image.dbg.challenge = some c ∧
      t.image.dbg.issuedAt = s.now ∧ t.image.dbg.spent = false ∧ Replied p s t [replyBytes 16 c]) ∧
    (∀ c, p.fld 16 0 2 = 1 → s.image.dbg.challenge = some c → 1 ≤ p.num 20 4 → p.num 20 4 ≤ 86400 → s.image.dbg.spent = false →
      s.now ≤ s.image.dbg.issuedAt + 60 * 8000000 → ∃ t, exec (.debugUnlock p) s = .next t ∧ t.image.dbg.spent = true ∧
        (Config.verify (slotMaterial s 7) debugContext (debugMessage c p) (memReadN s (p.num 24 4) 3309) = true → Completed p .ok s t ∧
          t.image.dbg.scope = some (p.num 17 1) ∧ t.image.dbg.until_ = s.now + p.num 20 4 * 8000000 ∧ t.image.dbg.since = true) ∧
        (Config.verify (slotMaterial s 7) debugContext (debugMessage c p) (memReadN s (p.num 24 4) 3309) = false → Completed p .authFail s t ∧
          t.image.dbg.scope = s.image.dbg.scope))) ∧
  (∀ k s, s.image.dbg.scope = some k → s.image.dbg.until_ ≤ s.now →
    ∃ t, exec .debugExpiry s = .next t ∧ t.image.dbg.scope = none ∧ Posted s t (s.ev 1 0x0B05 0 (k + 2 ^ 15)))

/-- R347–R368, Tables 14.4–14.12: a handle's baseline and its touch; what a touch does; ACCESS.CONFIG, which refuses a SESSION_POINT in G96–G127, ACCESS.POLL,
ACCESS.STATUS; TKR_EN is high from 8,000 ticks before the end of an LF frame to the close of its last slot; the LF frame of a poll ends, its slots close and are classified, a garbled slot is repeated once, the poll ends with a session, the release or nothing; an antenna that fails leaves the poll; TOKEN.ENROLL,
TOKEN.REVOKE, TOKEN.LIST; SESSION_S ends a session; RELEASE.CONFIG, and release frames that are built, handed over, or skipped. -/
def Obligations.AccessAndReleaseAct : Prop :=
  (∀ k cap h g s, k < 4 → s.seq.powered = true → h = handleOf s k → g = handleCfg s k →
    ∃ t, exec (.handlePoll k cap) s = .next t ∧ (∀ j, j ≠ k → handleOf t j = handleOf s j) ∧
      (∀ b, h.base = some b → h.touched = false → b + g.thresh * tenthPf ≤ 1280 * cap →
        (g.confirm ≤ h.count + 1 → (handleOf t k).touched = true ∧ (handleOf t k).base = some b) ∧
        (h.count + 1 < g.confirm → (handleOf t k).touched = false ∧ (handleOf t k).count = h.count + 1)) ∧
      (∀ b, h.base = some b → h.touched = true → (handleOf t k).base = some b ∧
        ((handleOf t k).touched = true ↔ 2 * b + g.thresh * tenthPf ≤ 2 * (1280 * cap))) ∧
      (h.base = none → h.touched = false → 1 ≤ g.thresh → (handleOf t k).base = some (1280 * cap) ∧ (handleOf t k).touched = false)) ∧
  (∀ k h g s, h = handleOf s k → g = handleCfg s k → h.touched ≠ h.told →
    (g.autoPoll = false ∨ s.plane.running = false ∨ h.touched = false → ∃ t, exec (.handleTouch k) s = .next t ∧ (handleOf t k).told = h.touched ∧
      Observed s t 0 k [(handlePoint k, BitVec.ofNat 16 (b2n h.touched))] [] ∧ t.access.poll = s.access.poll ∧
      (h.touched = true → g.wakeEn = true → armedSource s 2 k = true → ∃ l ∈ t.sleep.latches, l.cause = 2 ∧ l.index = k)) ∧
    (h.touched = true → g.autoPoll = true → s.plane.running = true → s.access.poll = none → askMask s ≠ 0 → s.cipher.trngFail = false →
      lfSupplyLost s = false → g.antMask &&& (63 ^^^ (s.access.lfShort &&& 63)) ≠ 0 → ∃ t q, exec (.handleTouch k) s = .next t ∧ t.access.poll = some q ∧
        q.purpose = 1 ∧ q.packet = none ∧ q.phase = 0 ∧ q.mask = askMask s ∧ q.antMask = g.antMask &&& (63 ^^^ (s.access.lfShort &&& 63)))) ∧
  (∀ p s, KeeperRuns accessConfigOp p s →
    (acRead p = false → (acCfg p).conflicts s = false → ∃ t, exec (.accessConfig p) s = .next t ∧ Completed p .ok s t ∧ accessCfg t = acCfg p ∧
      t.access.lfShort = 0 ∧ t.store.access.token = s.store.access.token) ∧
    (acRead p = false → (acCfg p).conflicts s = true → ∃ t, exec (.accessConfig p) s = .next t ∧ Completed p .conflict s t ∧ t.store = s.store) ∧
    (acRead p = true → ∃ t, exec (.accessConfig p) s = .next t ∧ Completed p .ok s t ∧ t.store = s.store ∧ Replied p s t (accessCfg s).reply)) ∧
  (∀ p s, acRead p = false → 96 ≤ gallery (acCfg p).sessionPoint → accessConfigOp.bad p s = true) ∧
  (∀ q s, s.access.poll = some q → lfSupplyLost s = false → ((lfTick s).pins.tkrEn = true ↔
    q.frameEnd ≤ s.now + 8000 ∧ s.now < q.closeAt (topIndex (if q.phase < 2 then q.mask else q.retry)))) ∧
  (∀ p ants s, KeeperRuns accessPollOp p s → ants = p.fld 17 0 6 &&& (63 ^^^ (s.access.lfShort &&& 63)) →
    (askMask s ≠ 0 → p.fld 17 0 6 ≠ 0 → s.access.poll ≠ none → ∃ t, exec (.accessPoll p) s = .next t ∧ Completed p .busy s t ∧ t.access = s.access) ∧
    ((askMask s = 0 ∨ p.fld 17 0 6 = 0) → ∃ t, exec (.accessPoll p) s = .next t ∧ Completed p .conflict s t ∧ t.access = s.access) ∧
    (s.access.poll = none → askMask s ≠ 0 → p.fld 17 0 6 ≠ 0 →
      (s.cipher.trngFail = true → ∃ t, exec (.accessPoll p) s = .next t ∧ Completed p .hwFault s t ∧ t.access = s.access) ∧
      (s.cipher.trngFail = false → lfSupplyLost s = true → ∃ t, exec (.accessPoll p) s = .next t ∧ Completed p .supply s t ∧ t.access = s.access) ∧
      (s.cipher.trngFail = false → lfSupplyLost s = false → ants ≠ 0 → ∃ t q, exec (.accessPoll p) s = .next t ∧ t.access.poll = some q ∧
        q.purpose = p.fld 16 0 4 ∧ q.mask = askMask s ∧ q.antMask = ants ∧ q.phase = 0 ∧ q.frameEnd = s.now + 249856 ∧ q.packet = some p ∧
        q.allAnts = p.fld 17 0 6 ∧ q.vehicle = (accessCfg s).vehicle ∧ q.iAnt = (accessCfg s).iAnt ∧ q.start = s.stamp))) ∧
  (∀ q s, s.access.poll = some q → (q.phase = 0 ∨ q.phase = 2) → q.frameEnd ≤ s.now →
    ∃ t, exec .lfFrameEnd s = .next t ∧ t.access.poll = some { q with phase := q.phase + 1, closed := 0 } ∧ t.store = s.store ∧
      ∀ a, q.antMask.testBit a = true → t.access.lfOpen.testBit a = false) ∧
  (∀ i code r q s, s.access.poll = some q → (q.phase = 1 ∨ q.phase = 3) → i < 8 → q.slots.testBit i = true → q.closed.testBit i = false → q.closeAt i ≤ s.now →
    code = classify s q i r → ∃ t, exec (.responseSlotClose i r) s = .next t ∧
      t.store.access.failed = (if code = 2 then satAdd32 s.store.access.failed 1 else s.store.access.failed) ∧
      (∀ j, q.slots.testBit j = true → j ≠ i → q.closed.testBit j = false → ∃ q', t.access.poll = some q' ∧ q'.closed = setBit q.closed i true ∧
        q'.result = (vmod q.result i fun _ => code) ∧ q'.phase = q.phase) ∧
      ((∀ j, q.slots.testBit j = true → j ≠ i → q.closed.testBit j = true) →
        (q.phase = 1 → code = 3 → ∃ q', t.access.poll = some q' ∧ q'.phase = 2 ∧ q'.retry.testBit i = true ∧ q'.closed = 0 ∧
          q'.frameEnd = q.closeAt (topIndex q.mask) + 4000 + 118784) ∧
        (code ≠ 3 → q.maskOf 3 = 0 → q.maskOf 1 = 0 → q.enrol = none → s.plane.running = true → q.late = false →
          t.access.poll = none ∧ t.access.polls = satAdd32 s.access.polls 1 ∧
          (code ≠ 1 ∨ rightFor q.purpose (tokenOf s i).rights = false → ∀ p, q.packet = some p → Completed p .noToken s t) ∧
          (code = 1 → rightFor q.purpose (tokenOf s i).rights = true → (∀ p, q.packet = some p → Completed p .ok s t) ∧
            t.access.grants = satAdd32 s.access.grants 1 ∧
            (q.purpose = 1 → t.access.session =
              some { index := i, tokenId := (tokenOf s i).tokenId, openedAt := s.now, number := s.access.sessions + 1 }) ∧
            (q.purpose = 2 → t.store.access.released = true ∧ t.store.access.relIndex = i))))) ∧
  (∀ a kind ants q s, s.access.poll = some q → q.antMask.testBit a = true → q.sending s.now = true → (kind = 1 ∨ kind = 2) → s.plane.running = true →
    ants = setBit q.antMask a false → ∃ t, exec (.antennaFault a kind) s = .next t ∧ Posted s t (s.ev 1 0x0C06 a kind false q.comp) ∧
      t.access.lfShort = (if kind = 2 then setBit s.access.lfShort a true else s.access.lfShort) ∧
      t.access.lfOpen = (if kind = 1 then setBit s.access.lfOpen a true else s.access.lfOpen) ∧
      (ants ≠ 0 → t.access.poll = some { q with antMask := ants }) ∧
      (ants = 0 → s.seq.state ≠ .buoy → t.access.poll = none ∧ ∀ p, q.packet = some p → Completed p (lateStatus q.late .hwFault) s t)) ∧
  (∀ p s, KeeperRuns accessStatusOp p s → ∃ t, exec (.accessStatus p) s = .next t ∧ Completed p .ok s t ∧ Replied p s t (accessStatusOp.run p s).reply ∧
    (p.bit 16 0 = false → t.access = s.access) ∧
    (p.bit 16 0 = true → t.access = { s.access with polls := 0, grants := 0, garbled := 0, sent := 0, skipped := 0 })) ∧
  (∀ p i s, KeeperRuns tokenEnrollOp p s → i = p.fld 16 0 3 → p.bit 18 2 = false →
    ((tokenOf s i).state ≠ 1 → p.fld 18 0 2 ≠ 0 → targetStale s (p.num 17 1) (p.num 24 4) = false → s.access.poll = none → s.plane.running = true →
      ∃ t, exec (.tokenEnroll p) s = .next t ∧ Completed p .ok s t ∧ tokenOf t i = enrolEntry p s ∧ (∀ j, j ≠ i → tokenOf t j = tokenOf s j) ∧
        Posted s t (s.ev 1 0x0C05 i 1 false p.comp)) ∧
    ((tokenOf s i).state = 1 ∨ p.fld 18 0 2 = 0 → ∃ t, exec (.tokenEnroll p) s = .next t ∧ Completed p .conflict s t ∧ t.store = s.store)) ∧
  (∀ p i ants s, KeeperRuns tokenEnrollOp p s → i = p.fld 16 0 3 → p.bit 18 2 = true → (tokenOf s i).state ≠ 1 → p.fld 18 0 2 ≠ 0 → p.fld 19 0 6 ≠ 0 →
    targetStale s (p.num 17 1) (p.num 24 4) = false → s.access.poll = none → s.cipher.trngFail = false → lfSupplyLost s = false →
    ants = p.fld 19 0 6 &&& (63 ^^^ (s.access.lfShort &&& 63)) → ants ≠ 0 →
    ∃ t q, exec (.tokenEnroll p) s = .next t ∧ t.access.poll = some q ∧ q.purpose = 3 ∧ q.enrol = some ⟨i, enrolEntry p s⟩ ∧ q.packet = some p ∧
      q.mask = 2 ^ i ∧ q.antMask = ants ∧ q.frameEnd = s.now + 249856 ∧ tokenOf t i = tokenOf s i) ∧
  (∀ p i s, KeeperRuns tokenRevokeOp p s → i = p.fld 16 0 3 → p.bit 17 0 = false →
    ((tokenOf s i).state = 1 → (tokenOf s i).tokenId = p.num 20 4 → ∃ t, exec (.tokenRevoke p) s = .next t ∧ Completed p .ok s t ∧
      tokenOf t i = { tokenOf s i with state := 2 } ∧ (∀ j, j ≠ i → tokenOf t j = tokenOf s j) ∧
      (∀ x, s.access.session = some x → x.index = i → t.access.session = none) ∧
      (s.store.access.released = true → s.store.access.relIndex = i → t.store.access.released = false) ∧
      Replied p s t [(16, 4, (keySlot s (tokenOf s i).keySlot).generation)]) ∧
    ((tokenOf s i).state ≠ 1 ∨ (tokenOf s i).tokenId ≠ p.num 20 4 →
      ∃ t, exec (.tokenRevoke p) s = .next t ∧ Completed p .conflict s t ∧ t.store = s.store ∧ t.access = s.access)) ∧
  (∀ p s, KeeperRuns tokenListOp p s → ∃ t, exec (.tokenList p) s = .next t ∧ Completed p .ok s t ∧ t.store = s.store ∧
    Replied p s t (tokenListOp.run p s).reply) ∧
  (∀ x s, s.access.session = some x → x.openedAt + 8000000 * (accessCfg s).sessionS ≤ s.now → s.plane.running = true →
    ∃ t, exec .sessionTimeout s = .next t ∧ t.access.session = none ∧ Posted s t (s.ev 1 0x0C03 (x.index + 256) 2)) ∧
  (∀ p g s, KeeperRuns releaseConfigOp p s → g = relCfg p →
    (p.fld 16 0 2 = 0 → (g.enable = false ∨ ((canCfg s g.controller).fd = true ∧ inNmRange s g.controller g.id g.ide = false)) →
      targetStale s g.keySlot (p.num 28 4) = false →
      ∃ t, exec (.releaseConfig p) s = .next t ∧ Completed p .ok s t ∧ t.store.access.release = g ∧ t.access.relFrames = []) ∧
    (p.fld 16 0 2 = 0 → g.enable = true → ((canCfg s g.controller).fd = false ∨ inNmRange s g.controller g.id g.ide = true) →
      targetStale s g.keySlot (p.num 28 4) = false →
      ∃ t, exec (.releaseConfig p) s = .next t ∧ Completed p .conflict s t ∧ t.store = s.store) ∧
    (p.fld 16 0 2 = 1 → ∃ t, exec (.releaseConfig p) s = .next t ∧ Completed p .ok s t ∧ t.store = s.store ∧ Replied p s t (relReply s)) ∧
    (p.fld 16 0 2 = 2 → ∃ t, exec (.releaseConfig p) s = .next t ∧ Completed p .ok s t ∧ t.store.access.released = false)) ∧
  (∀ x k s, frameDue s = true → k = s.store.access.release.keySlot → x = keySlot s k →
    (releaseKey x = true → x.counter < x.commit → x.counter < counterEnd → Tbl.wf {} s.store.keys = true →
      ∃ t, exec .releaseFrameBuild s = .next t ∧ (keySlot t k).counter = x.counter + 1 ∧ t.access.relFrames =
        (s.access.relFrames.filter fun y => y.at_ != s.plane.lin + 8000) ++ [⟨s.plane.lin + 8000, x.counter, releaseFrame s x x.counter⟩]) ∧
    (releaseKey x = false → s.store.access.released = true → ∃ t, exec .releaseFrameBuild s = .next t ∧ t.store.access.released = false ∧
      t.access.relFrames = s.access.relFrames ∧ Posted s t (s.ev 1 0x0C04 (s.store.access.relIndex + 64) 0))) ∧
  (∀ f rest g m s, s.access.relFrames = f :: rest → g = s.store.access.release → m = canMode s g.controller →
    (f.at_ = s.plane.lin → m.op = 1 → m.fd = true → queueFree (canOf s g.controller) g.queue = true →
      ∃ t, exec .releaseFrameHandover s = .next t ∧ t.access.relFrames = rest ∧ t.access.sent = satAdd32 s.access.sent 1 ∧
        ResultItem.frame s.plane.tick g.controller f.frame 24 ∈ t.plane.results) ∧
    (f.at_ ≤ s.plane.lin → m.op ≠ 1 ∨ m.fd = false ∨ f.at_ < s.plane.lin ∨ queueFree (canOf s g.controller) g.queue = false → ∃ t, exec .releaseFrameHandover s = .next t ∧ t.access.relFrames = rest ∧
      t.access.skipped = satAdd32 s.access.skipped 1 ∧ t.access.sent = s.access.sent))

/-- R369–R394, Tables 15.1–15.12, 16.1–16.5: a record is chained into the open segment, after drops behind a GAP record, in the emergency area where the ring has no
room for a critical one, or is dropped; a segment is sealed for its reason; LOG.APPEND, LOG.READ, LOG.EXPORT_ACK and LOG.SEAL; TIME.SET is accepted or refused, with its
record and TIME_CHANGE; TIME.GET; the RTC is stored and its temperature measured; WATCH.CONFIG, WATCH.GRANT, WATCH.SNAP, and a dump record that falls due. -/
def Obligations.LogbookTimeAndWatchAct : Prop :=
  (∀ it s, s.store.log.nextSeq + 1 < 0xFFFFFFFFFFFFFFFF →
    (∀ o e, s.store.log.gapPlain + s.store.log.gapCritical = 0 → TakesRecord s it o e → ∃ t r, exec (.logRecordWrite it) s = .next t ∧ Chained s t it o e r ∧
      t.store.log.nextSeq = s.store.log.nextSeq + 1) ∧
    (∀ o, s.store.log.gapPlain + s.store.log.gapCritical ≠ 0 → s.store.log.opened = some o → o.emergency = false → o.recs.length < 255 →
      ∃ t r g, exec (.logRecordWrite it) s = .next t ∧ (t.store.log.opened.map (·.recs)) = some (r :: g :: o.recs) ∧ g.type = 2 ∧ g.critical = true ∧
        g.payload = (gapItem s.store.log).payload ∧ r.type = it.type ∧ r.payload = it.payload ∧ r.chain = h16 (g.chain ++ r.header ++ r.payload) ∧
        t.store.log.gapPlain = 0 ∧ t.store.log.gapCritical = 0) ∧
    (s.store.log.opened = none → s.store.log.canOpen false = false → it.critical = false ∨ s.store.log.canOpen true = false →
      ∃ t, exec (.logRecordWrite it) s = .next t ∧ t.store.log.dropped = satAdd32 s.store.log.dropped 1 ∧ t.store.log.opened = none ∧
        t.store.log.nextSeq = s.store.log.nextSeq ∧ t.store.log.gapPlain = s.store.log.gapPlain + b2n (!it.critical) ∧
        t.store.log.gapCritical = s.store.log.gapCritical + b2n it.critical ∧ t.store.log.gapLast = s.rtc.time)) ∧
  (∀ o s, s.store.log.opened = some o → o.recs ≠ [] →
    (∀ reason, sealDue s reason = true →
      (s.plane.running = false → ∃ t, exec (.segmentSeal reason) s = .next t ∧ SealedFor s t o reason) ∧
      (s.plane.running = true → ∃ t, exec (.segmentSeal reason) s = .next t ∧ t.store.log.opened = some { o with closing := some (o.closing.getD reason) } ∧
        t.store.log.segments = s.store.log.segments)) ∧
    (256 ≤ o.recs.length → SealedFor s (makeRoom s) o 1) ∧
    (o.openedRtc + 60 * 32768 ≤ s.rtc.time →
      (s.plane.running = false → ∃ t, exec .sealTimeExpiry s = .next t ∧ SealedFor s t o 2) ∧
      (s.plane.running = true → ∃ t, exec .sealTimeExpiry s = .next t ∧ t.store.log.opened = some { o with closing := some (o.closing.getD 2) } ∧
        t.store.log.segments = s.store.log.segments)) ∧
    (∀ reason, o.closing = some reason → SealedFor s (sealTick s) o reason) ∧
    (o.closing = none → 256 ≤ o.recs.length → SealedFor s (sealTick s) o 1) ∧
    (o.closing = none → o.recs.length < 256 → o.openedRtc + 60 * 32768 ≤ s.rtc.time → SealedFor s (sealTick s) o 2) ∧
    (∀ d, o.closing = none → o.recs.length < 256 → s.rtc.time < o.openedRtc + 60 * 32768 → o.criticalAt = some d → d + 7999 ≤ s.now →
      SealedFor s (sealTick s) o 3)) ∧
  (∀ p it s, KeeperRuns logAppendOp p s →
    it = { type := p.num 16 2, critical := p.bit 19 0, comp := p.comp, payload := (p.bytes.drop 24).take (p.num 18 1) } →
    s.store.log.nextSeq < 0xFFFFFFFFFFFFFFFF → s.store.log.gapPlain + s.store.log.gapCritical = 0 →
    (∀ o e, TakesRecord s it o e → ∃ t r, exec (.logAppend p) s = .next t ∧ Completed p .ok s t ∧ Chained s t it o e r ∧
      Replied p s t [(16, 8, r.seq), replyBytes 24 r.chain, (40, 1, b2n e)]) ∧
    (s.store.log.opened = none → s.store.log.canOpen false = false → it.critical = false ∨ s.store.log.canOpen true = false →
      ∃ t, exec (.logAppend p) s = .next t ∧ Completed p .logFull s t ∧ t.store.log.dropped = satAdd32 s.store.log.dropped 1)) ∧
  (∀ p k s, KeeperRuns logReadOp p s → k = p.num 32 1 →
    (segmentsFrom s.store.log (p.num 16 8) = none → ∃ t, exec (.logRead p) s = .next t ∧ Completed p .conflict s t ∧ t.store = s.store) ∧
    (∀ rest gs plain, segmentsFrom s.store.log (p.num 16 8) = some rest → gs = takeSegments (p.num 28 4 - (if k = 0 then 0 else 16)) rest →
      plain = gs.flatMap Segment.bytes →
      (k = 0 → ∃ t, exec (.logRead p) s = .next t ∧ Completed p .ok s t ∧ Replied p s t (logReadOp.run p s).reply ∧ Wrote p s t (p.num 24 4) plain ∧
        t.store = s.store) ∧
      (∀ x, k ≠ 0 → keyFor s p k (p.num 36 4) = .ok x → (keySlot s k).counter < (keySlot s k).commit → (keySlot s k).counter < counterEnd →
        Tbl.wf {} s.store.keys = true →
        ∃ t, exec (.logRead p) s = .next t ∧ Completed p .ok s t ∧ (keySlot t k).counter = (keySlot s k).counter + 1 ∧
          Wrote p s t (p.num 24 4) (Config.gcmCrypt x.material (drawnIv (keySlot s k).fixed (keySlot s k).counter) 0 plain ++
            Config.gcmTag x.material (drawnIv (keySlot s k).fixed (keySlot s k).counter)
              (leBytes 8 ((gs.head?.map Segment.first).getD 0) ++ leBytes 8 ((gs.getLast?.map Segment.last).getD 0))
              (Config.gcmCrypt x.material (drawnIv (keySlot s k).fixed (keySlot s k).counter) 0 plain))) ∧
      (∀ st, k ≠ 0 → keyFor s p k (p.num 36 4) = .error st → ∃ t, exec (.logRead p) s = .next t ∧ Completed p st s t ∧ t.store = s.store))) ∧
  (∀ p s, KeeperRuns logExportAckOp p s →
    ((s.store.log.segments.any fun g => g.last == p.num 16 8) = true → ∃ t, exec (.logExportAck p) s = .next t ∧ Completed p .ok s t ∧
      Replied p s t (logExportAckOp.run p s).reply ∧
      t.store.log.segments = s.store.log.segments.map fun g => if g.last ≤ p.num 16 8 then { g with acked := true } else g) ∧
    ((s.store.log.segments.any fun g => g.last == p.num 16 8) = false → ∃ t, exec (.logExportAck p) s = .next t ∧ Completed p .conflict s t ∧
      t.store = s.store)) ∧
  (∀ p s, KeeperRuns logSealOp p s →
    (∀ o, p.fld 16 0 2 = 0 → s.store.log.opened = some o → s.plane.running = true → ∃ t, exec (.logSeal p) s = .next t ∧ Completed p .ok s t ∧
      Replied p s t (sealReply (sealSegment s 6).store.log) ∧ t.store.log.opened = some { o with closing := some (o.closing.getD 6) }) ∧
    (p.fld 16 0 2 = 0 → s.store.log.opened = none → ∃ t, exec (.logSeal p) s = .next t ∧ Completed p .conflict s t ∧ t.store = s.store) ∧
    (p.fld 16 0 2 = 1 → ∃ t, exec (.logSeal p) s = .next t ∧ Completed p .ok s t ∧ Replied p s t (sealReply s.store.log) ∧
      Wrote p s t (p.num 20 4) (padTo 5392 (sealCertificate s)) ∧ t.store = s.store) ∧
    (p.fld 16 0 2 = 2 → ∃ t, exec (.logSeal p) s = .next t ∧ Completed p .ok s t ∧ Replied p s t (sealReply s.store.log) ∧ t.store = s.store)) ∧
  (∀ p st s, KeeperRuns timeSetOp p s → st = timeStatus s p →
    ∃ t, exec (.timeSet p) s = .next t ∧ Completed p st s t ∧
      Posted s t (s.ev 1 0x0D02 (b2n (decide (st = .ok)) + 2 * b2n (p.bit 16 0)) (stepSeconds (timeStep s p)) false p.comp) ∧
      (st ≠ .ok → t.rtc = s.rtc) ∧
      (st = .ok → t.rtc.time = p.num 24 8 ∧ t.rtc.setCount = (s.rtc.setCount + 1) % 2 ^ 32 ∧
        Replied p s t [(16, 8, s.rtc.time), (24, 8, p.num 24 8), (32, 4, (s.rtc.setCount + 1) % 2 ^ 32), (36, 4, t.rtc.allowance)] ∧
        (p.bit 16 0 = true → t.rtc.valid = true ∧ t.rtc.allowFrom = p.num 24 8 ∧ t.rtc.spent = 0 ∧
          t.rtc.trim = (if p.bit 16 1 = true then sInt32 (p.num 32 4) else s.rtc.trim)) ∧
        (p.bit 16 0 = false → t.rtc.spent = s.rtc.spent + (timeStep s p).natAbs ∧ t.rtc.valid = s.rtc.valid ∧ t.rtc.trim = s.rtc.trim)) ∧
      (∀ o, s.store.log.gapPlain + s.store.log.gapCritical = 0 → s.store.log.nextSeq < 0xFFFFFFFFFFFFFFFF → s.store.log.opened = some o →
        o.emergency = false → o.recs.length < 256 → ∃ r, (t.store.log.opened.map (·.recs)) = some (r :: o.recs) ∧ r.type = 0x0D10 ∧ r.critical = true ∧
          r.rtc = t.rtc.time ∧ r.payload = timeRecord s.rtc.time p st t)) ∧
  (∀ p s, KeeperRuns timeGetOp p s → s.plane.replay.running = false →
    ∃ t, exec (.timeGet p) s = .next t ∧ Completed p .ok s t ∧ t.rtc = s.rtc ∧
      Replied p s t [replyBytes 16 s.rtc.bytes, (32, 4, s.rtc.allowance), (36, 4, (s.rtc.trim % 0x100000000).toNat)]) ∧
  (∀ s, keeperRuns s = true → ∃ t, exec .rtcStore s = .next t ∧ t.rtc = s.rtc ∧ t.store.rtc.time = s.rtc.time ∧ t.store.rtc.setCount = s.rtc.setCount ∧
    t.store.rtc.trim = s.rtc.trim ∧ t.store.rtc.allowFrom = s.rtc.allowFrom ∧ t.store.rtc.spent = s.rtc.spent) ∧
  (∀ temp s, s.seq.powered = true → ∃ t, exec (.rtcTempMeasure temp) s = .next t ∧ t.rtc.temp = temp ∧ t.rtc.time = s.rtc.time ∧ t.rtc.acc = s.rtc.acc) ∧
  (∀ p s, KeeperRuns watchConfigOp p s →
    (watchRead p = true → ∃ t, exec (.watchConfig p) s = .next t ∧ Completed p .ok s t ∧ Replied p s t (watchCfgReply p s) ∧ t.store = s.store) ∧
    (watchRead p = false → watchPart p = false → Tbl.wf {} s.store.watch.sel = true → Tbl.wf 0 s.watch.cnt = true → Tbl.wf 0 s.watch.clearedAt = true →
      ∃ t, exec (.watchConfig p) s = .next t ∧ Completed p .ok s t ∧ ∀ e ∈ watchSelectors p, Tbl.get t.store.watch.sel {} e.1 = e.2 ∧
        (Tbl.get s.store.watch.sel {} e.1 ≠ e.2 → Tbl.get t.watch.cnt 0 e.1 = 0 ∧ Tbl.get t.watch.clearedAt 0 (256 + e.1) = s.plane.lin) ∧
        (Tbl.get s.store.watch.sel {} e.1 = e.2 → Tbl.get t.watch.cnt 0 e.1 = Tbl.get s.watch.cnt 0 e.1)) ∧
    (∀ i c, watchRead p = false → watchPart p = true → i = p.fld 17 0 1 → c = watchDumpCfg p →
      (2 ^ c.sizeLog2 - 1 < dumpSlots i c.mask ∨ ((s.ring (60 + i)).enabled = true ∧ (s.ring (60 + i)).sizeLog2 ≠ c.sizeLog2) →
        ∃ t, exec (.watchConfig p) s = .next t ∧ Completed p .conflict s t ∧ t.store = s.store ∧ t.watch = s.watch) ∧
      (dumpSlots i c.mask ≤ 2 ^ c.sizeLog2 - 1 → ((s.ring (60 + i)).enabled = true → (s.ring (60 + i)).sizeLog2 = c.sizeLog2) →
        ∃ t, exec (.watchConfig p) s = .next t ∧ Completed p .ok s t ∧ vget t.store.watch.dump i = c ∧
          (t.ring (60 + i)).sizeLog2 = (if c.enable = true then c.sizeLog2 else 0) ∧
          (c.enable = true → (s.ring (60 + i)).enabled = false → vget t.watch.dump i = {})))) ∧
  (∀ p c g s, KeeperRuns watchGrantOp p s → c = p.fld 16 0 4 → g = watchGrantOf p →
    ((∀ d, d < 16 → d ≠ c → (g.ring60 = true → (vget s.store.watch.grant d).ring60 = false) ∧ (g.ring61 = true → (vget s.store.watch.grant d).ring61 = false)) →
      ∃ t, exec (.watchGrant p) s = .next t ∧ Completed p .ok s t ∧ vget t.store.watch.grant c = g ∧
        ∀ d, d ≠ c → vget t.store.watch.grant d = vget s.store.watch.grant d) ∧
    ((∃ d, d < 16 ∧ d ≠ c ∧ ((g.ring60 = true ∧ (vget s.store.watch.grant d).ring60 = true) ∨ (g.ring61 = true ∧ (vget s.store.watch.grant d).ring61 = true))) →
      ∃ t, exec (.watchGrant p) s = .next t ∧ Completed p .conflict s t ∧ t.store = s.store)) ∧
  (∀ p s, KeeperRuns watchSnapOp p s → p.comp < 16 →
    ∃ t, exec (.watchSnap p) s = .next t ∧ Completed p .ok s t ∧ Replied p s t (watchSnapOp.run p (release s p)).reply ∧ t.store = s.store ∧
      (p.bit 16 0 = false → (vget t.watch.snap p.comp).hallAt = some s.plane.lin ∧ (vget t.watch.snap p.comp).last = (vget s.watch.snap p.comp).last) ∧
      (p.bit 16 0 = true → (vget t.watch.snap p.comp).last = some (s.plane.lin, readMeters s) ∧
        (vget t.watch.snap p.comp).hallAt = (vget s.watch.snap p.comp).hallAt)) ∧
  (∀ i c d g w n s, i < 2 → c = vget s.store.watch.dump i → d = vget s.watch.dump i → g = s.ring (60 + i) → w = 8000 * c.window → n = dumpSlots i c.mask →
    s.plane.running = true → c.enable = true → g.enabled = true → s.plane.tick % w = 0 → d.readAt ≠ some s.plane.lin →
    (g.size ≠ 0 → g.tail + n ≤ g.size → n ≤ g.room → Tbl.wf 0 s.mem = true →
      ∃ t, exec (.watchDump (60 + i)) s = .next t ∧ (t.ring (60 + i)).tail = (g.tail + n) % g.size ∧ (t.ring (60 + i)).drops = 0 ∧
        (vget t.watch.dump i).seq = d.seq + 1 ∧ (vget t.watch.dump i).readAt = some s.plane.lin ∧
        memReadN t (g.slotAddr g.tail) 32 = dumpHeader s d.seq w n (if i = 0 then d.cleared else 0) g.drops c.mask d.last.isNone false) ∧
    (g.room < n → ∃ t, exec (.watchDump (60 + i)) s = .next t ∧ (t.ring (60 + i)).tail = g.tail ∧ (t.ring (60 + i)).drops = g.drops + 1 ∧
      t.plane.status.overrun = true ∧ (vget t.watch.dump i).seq = d.seq ∧ t.mem = s.mem))
end

