-- ==== Sys2Proof/Laws/Data.lean ====
section
/-! SUPPORT. Laws of the plain data: vectors, sparse tables, and the memory that is one. -/

namespace Sys2Proof

/-! Bytes. -/

@[simp] theorem padTo_length (n : Nat) (l : List Byte) : (padTo n l).length = n := by
  simp only [padTo, List.length_take, List.length_append, List.length_replicate]; omega

@[simp] theorem shake256_length (m : List Byte) : (Config.shake256 m).length = 32 := padTo_length 32 _

/-! Vectors. -/

@[simp] theorem vget_vmod_same {α : Type} {n : Nat} [Inhabited α] (v : Vector α n) (i : Nat) (f : α → α) (h : i < n) :
    vget (vmod v i f) i = f (vget v i) := by simp [vget, vmod, h]

theorem vget_vmod_ne {α : Type} {n : Nat} [Inhabited α] (v : Vector α n) (i j : Nat) (f : α → α) (h : i ≠ j) :
    vget (vmod v i f) j = vget v j := by
  by_cases hj : j < n
  · by_cases hi : i < n
    · simp [vget, vmod, hi, hj, h]
    · simp [vget, vmod, hi]
  · simp [vget, hj]

theorem vget_vmod {α : Type} {n : Nat} [Inhabited α] (v : Vector α n) (i j : Nat) (f : α → α) :
    vget (vmod v i f) j = if i = j ∧ j < n then f (vget v j) else vget v j := by
  by_cases h : i = j
  · subst h
    by_cases g : i < n <;> simp [g, vget, vmod]
  · rw [vget_vmod_ne v i j f h]; simp [h]

/-- A property that a change of one entry keeps. -/
theorem vget_vmod_proj {α β : Type} {n : Nat} [Inhabited α] (v : Vector α n) (i j : Nat) (f : α → α) (g : α → β)
    (h : ∀ a, g (f a) = g a) : g (vget (vmod v i f) j) = g (vget v j) := by
  rw [vget_vmod]; split <;> simp [*]

theorem vmod_id {α : Type} {n : Nat} (v : Vector α n) (i : Nat) (f : α → α) (h : ∀ a, f a = a) : vmod v i f = v := by
  unfold vmod; split <;> simp [h]

@[simp] theorem vget_vmapIdx {α : Type} {n : Nat} [Inhabited α] (v : Vector α n) (f : Nat → α → α) (i : Nat) (h : i < n) :
    vget (vmapIdx v f) i = f i (vget v i) := by simp [vget, vmapIdx, h]

@[simp] theorem vget_map {α β : Type} {n : Nat} [Inhabited α] [Inhabited β] (v : Vector α n) (f : α → β) (i : Nat) (h : i < n) :
    vget (v.map f) i = f (vget v i) := by simp [vget, h]

@[simp] theorem vget_vtab {α : Type} {n : Nat} [Inhabited α] (f : Nat → α) (i : Nat) (h : i < n) : vget (vtab n f) i = f i := by
  simp [vget, vtab, h]

/-! Sparse tables. -/

@[simp] theorem Tbl.get_put_same {α : Type} [DecidableEq α] (t : Tbl α) (d : α) (k : Nat) (v : α) (h : Tbl.wf d t = true) :
    Tbl.get (Tbl.put t d k v) d k = v := by
  suffices H : ∀ lo, Tbl.wfFrom d lo t = true → Tbl.get (Tbl.put t d k v) d k = v from H none h
  clear h
  induction t with
  | nil => intro lo _; unfold Tbl.put; split <;> simp_all [Tbl.get]
  | cons e r ih =>
    obtain ⟨j, w⟩ := e
    intro lo h
    simp only [Tbl.wfFrom, Bool.and_eq_true] at h
    have above : ∀ (q : Tbl α) (m : Nat), Tbl.wfFrom d (some m) q = true → k ≤ m → Tbl.get q d k = d := by
      intro q
      induction q with
      | nil => intros; rfl
      | cons e q iq =>
        obtain ⟨a, b⟩ := e
        intro m hm hk
        simp only [Tbl.wfFrom, Bool.and_eq_true, decide_eq_true_eq] at hm
        have : a ≠ k := by omega
        simp only [Tbl.get, this, if_false]
        exact iq a hm.2 (by omega)
    unfold Tbl.put
    split
    · rename_i hk
      split
      · rename_i hv
        have : j ≠ k := by omega
        simp only [Tbl.get, this, if_false, hv]
        exact above r j h.2 (by omega)
      · simp [Tbl.get]
    · split
      · rename_i hk
        split
        · rename_i hv
          rw [hv]; exact above r j h.2 (by omega)
        · simp [Tbl.get]
      · rename_i h1 h2
        have : j ≠ k := fun e => h2 e.symm
        simp only [Tbl.get, this, if_false]
        exact ih (some j) h.2

theorem Tbl.get_put_ne {α : Type} [DecidableEq α] (t : Tbl α) (d : α) (k j : Nat) (v : α) (h : k ≠ j) :
    Tbl.get (Tbl.put t d k v) d j = Tbl.get t d j := by
  induction t with
  | nil => unfold Tbl.put; split <;> simp [Tbl.get, h]
  | cons e r ih =>
    obtain ⟨i, w⟩ := e
    unfold Tbl.put
    split
    · split <;> simp [Tbl.get, h]
    · split
      · rename_i hk
        subst hk
        split <;> simp [Tbl.get, h]
      · simp [Tbl.get, ih]

/-- A write keeps the canonical form. -/
theorem Tbl.wf_put {α : Type} [DecidableEq α] (t : Tbl α) (d : α) (k : Nat) (v : α) (h : Tbl.wf d t = true) :
    Tbl.wf d (Tbl.put t d k v) = true := by
  have step : ∀ (q : Tbl α) (lo : Option Nat), Tbl.wfFrom d lo q = true → (∀ m, lo = some m → m < k) →
      Tbl.wfFrom d lo (Tbl.put q d k v) = true := by
    intro q
    induction q with
    | nil =>
      intro lo _ hm
      unfold Tbl.put
      split
      · rfl
      · rename_i hv
        cases lo with
        | none => simp [Tbl.wfFrom, hv]
        | some m => simp [Tbl.wfFrom, hv, hm m rfl]
    | cons e r ih =>
      obtain ⟨j, w⟩ := e
      intro lo hq hm
      have hq' := hq
      simp only [Tbl.wfFrom, Bool.and_eq_true, decide_eq_true_eq] at hq
      have weak : ∀ (m : Nat), m < j → Tbl.wfFrom d (some m) r = true := by
        intro m hmj
        cases r with
        | nil => rfl
        | cons e r =>
          obtain ⟨a, b⟩ := e
          simp only [Tbl.wfFrom, Bool.and_eq_true, decide_eq_true_eq] at hq ⊢
          exact ⟨⟨by omega, hq.2.1.2⟩, hq.2.2⟩
      unfold Tbl.put
      split
      · rename_i hk
        split
        · exact hq'
        · rename_i hv
          simp only [Tbl.wfFrom, Bool.and_eq_true, decide_eq_true_eq]
          refine ⟨⟨?_, hv⟩, ⟨⟨hk, hq.1.2⟩, hq.2⟩⟩
          cases lo with
          | none => rfl
          | some m => exact decide_eq_true (hm m rfl)
      · split
        · rename_i hk
          subst hk
          split
          · cases lo with
            | none =>
              cases r with
              | nil => rfl
              | cons e r =>
                obtain ⟨a, b⟩ := e
                simp only [Tbl.wfFrom, Bool.and_eq_true, decide_eq_true_eq] at hq ⊢
                exact ⟨⟨trivial, hq.2.1.2⟩, hq.2.2⟩
            | some m => exact weak m (hm m rfl)
          · rename_i hv
            simp only [Tbl.wfFrom, Bool.and_eq_true, decide_eq_true_eq]
            exact ⟨⟨hq.1.1, hv⟩, hq.2⟩
        · rename_i h1 h2
          simp only [Tbl.wfFrom, Bool.and_eq_true, decide_eq_true_eq]
          exact ⟨hq.1, ih (some j) hq.2 (by intro m hm'; cases hm'; omega)⟩
  exact step t none h (by intro m hm; cases hm)

namespace Machine

/-! Memory. -/

theorem memRead_memWrite_ne (s : State) (a b : Nat) (v : Byte) (h : a ≠ b) : memRead (memWrite s a v) b = memRead s b :=
  Tbl.get_put_ne s.mem 0 a b v h

theorem memRead_memWrite_same (s : State) (a : Nat) (v : Byte) (h : Tbl.wf 0 s.mem = true) : memRead (memWrite s a v) a = v :=
  Tbl.get_put_same s.mem 0 a v h

/-- Every write of memory keeps the canonical form. -/
theorem memWrite_wf (s : State) (a : Nat) (v : Byte) (h : Tbl.wf 0 s.mem = true) : Tbl.wf 0 (memWrite s a v).mem = true :=
  Tbl.wf_put s.mem 0 a v h

/-- Writing bytes keeps the canonical form. -/
theorem memWriteN_wf (l : List Byte) : ∀ (s : State) (a : Nat), Tbl.wf 0 s.mem = true → Tbl.wf 0 (memWriteN s a l).mem = true := by
  induction l with
  | nil => intro s a h; exact h
  | cons b r ih => intro s a h; exact ih _ _ (memWrite_wf s a b h)

/-- A write of bytes leaves every other address alone. -/
theorem memRead_memWriteN_out (l : List Byte) : ∀ (s : State) (a b : Nat), b < a ∨ a + l.length ≤ b →
    memRead (memWriteN s a l) b = memRead s b := by
  induction l with
  | nil => intros; rfl
  | cons c r ih =>
    intro s a b h
    simp only [List.length_cons] at h
    rw [memWriteN, ih _ _ _ (by omega), memRead_memWrite_ne _ _ _ _ (by omega)]

/-- A written byte reads back. -/
theorem memRead_memWriteN_in (l : List Byte) : ∀ (s : State) (a i : Nat), Tbl.wf 0 s.mem = true → (h : i < l.length) →
    memRead (memWriteN s a l) (a + i) = l[i] := by
  induction l with
  | nil => intro s a i _ h; simp at h
  | cons c r ih =>
    intro s a i hw h
    cases i with
    | zero =>
      rw [memWriteN, memRead_memWriteN_out r _ _ _ (by omega)]
      exact memRead_memWrite_same s a c hw
    | succ i =>
      have := ih (memWrite s a c) (a + 1) i (memWrite_wf s a c hw) (by simpa using h)
      rw [memWriteN, show a + (i + 1) = a + 1 + i by omega]
      simpa using this

/-- Bytes that have been written read back. -/
theorem memReadN_memWriteN (s : State) (a : Nat) (l : List Byte) (h : Tbl.wf 0 s.mem = true) :
    memReadN (memWriteN s a l) a l.length = l := by
  apply List.ext_getElem
  · simp [memReadN]
  · intro i h1 h2
    simp only [memReadN, List.getElem_map, List.getElem_range]
    exact memRead_memWriteN_in l s a i h h2

end Machine

end Sys2Proof
end

