-- ==== Sys2Proof/Laws/State.lean ====
section
/-! SUPPORT. The laws of the updates of State: for each named update, the part it changes. -/

namespace Sys2Proof.Machine

@[simp] theorem onPlane_plane (s : State) (f : Plane → Plane) : (s.onPlane f).plane = f s.plane := rfl

@[simp] theorem onPoints_points (s : State) (f : Points → Points) : (s.onPoints f).points = f s.points := rfl

@[simp] theorem onStore_store (s : State) (f : Store → Store) : (s.onStore f).store = f s.store := rfl

@[simp] theorem onSeq_seq (s : State) (f : Seq → Seq) : (s.onSeq f).seq = f s.seq := rfl

@[simp] theorem onAccess_access (s : State) (f : Access → Access) : (s.onAccess f).access = f s.access := rfl

@[simp] theorem onBus_bus (s : State) (f : Bus → Bus) : (s.onBus f).bus = f s.bus := rfl

@[simp] theorem onCipher_cipher (s : State) (f : Cipher → Cipher) : (s.onCipher f).cipher = f s.cipher := rfl

@[simp] theorem onEth_eth (s : State) (f : Eth → Eth) : (s.onEth f).eth = f s.eth := rfl

@[simp] theorem onImage_image (s : State) (f : Image → Image) : (s.onImage f).image = f s.image := rfl

@[simp] theorem onInput_input (s : State) (f : Inputs → Inputs) : (s.onInput f).input = f s.input := rfl

@[simp] theorem onLoad_load (s : State) (f : LoadDie → LoadDie) : (s.onLoad f).load = f s.load := rfl

@[simp] theorem onMotor_motor (s : State) (f : MotorDie → MotorDie) : (s.onMotor f).motor = f s.motor := rfl

@[simp] theorem onLight_light (s : State) (f : Light → Light) : (s.onLight f).light = f s.light := rfl

@[simp] theorem onPins_pins (s : State) (f : Pins → Pins) : (s.onPins f).pins = f s.pins := rfl

@[simp] theorem onSleep_sleep (s : State) (f : Sleep → Sleep) : (s.onSleep f).sleep = f s.sleep := rfl

@[simp] theorem onWatch_watch (s : State) (f : Watch → Watch) : (s.onWatch f).watch = f s.watch := rfl

@[simp] theorem onCapture_capture (s : State) (f : Capture → Capture) : (s.onCapture f).plane.capture = f s.plane.capture := rfl

@[simp] theorem onReplay_replay (s : State) (f : Replay → Replay) : (s.onReplay f).plane.replay = f s.plane.replay := rfl

@[simp] theorem onTrial_trial (s : State) (f : Trial → Trial) : (s.onTrial f).image.trial = f s.image.trial := rfl

@[simp] theorem onLog_log (s : State) (f : Logbook → Logbook) : (s.onLog f).store.log = f s.store.log := rfl

@[simp] theorem onWatchStore_watch (s : State) (f : WatchStore → WatchStore) : (s.onWatchStore f).store.watch = f s.store.watch := rfl

@[simp] theorem onAccessStore_access (s : State) (f : AccessStore → AccessStore) : (s.onAccessStore f).store.access = f s.store.access := rfl

@[simp] theorem onImageStore_image (s : State) (f : ImageStore → ImageStore) : (s.onImageStore f).store.image = f s.store.image := rfl

@[simp] theorem onDie_die (s : State) (f : FieldDie → FieldDie) : (s.onDie f).input.die = f s.input.die := rfl

@[simp] theorem onField_link (s : State) (f : FieldLink → FieldLink) : (s.onField f).input.link = f s.input.link := rfl

@[simp] theorem release_turn (s : State) (p : Packet) (h : timeless p = false) : (release s p).plane.turn = runKey p := by simp [release, h]

@[simp] theorem release_tick (s : State) (p : Packet) : (release s p).plane.tick = s.plane.tick := rfl

@[simp] theorem counted_tick (s : State) (p : Packet) : (counted s p).plane.tick = s.plane.tick := rfl

@[simp] theorem counted_execNow (s : State) (p : Packet) : (counted s p).plane.execNow = s.plane.execNow + 1 := rfl

/-! Rings, halls and the other indexed parts. -/

@[simp] theorem onRing_rings (s : State) (r : Nat) (f : Ring → Ring) : (s.onRing r f).plane.rings = vmod s.plane.rings r f := rfl

theorem onRing_same (s : State) (r : Nat) (f : Ring → Ring) (h : r < 64) : (s.onRing r f).ring r = f (s.ring r) :=
  vget_vmod_same s.plane.rings r f h

theorem onRing_other (s : State) (r k : Nat) (f : Ring → Ring) (h : r ≠ k) : (s.onRing r f).ring k = s.ring k :=
  vget_vmod_ne s.plane.rings r k f h

@[simp] theorem onHall_same (s : State) (h : Nat) (f : HallSt → HallSt) (hh : h < 9) :
    vget (s.onHall h f).plane.halls h = f (vget s.plane.halls h) := vget_vmod_same s.plane.halls h f hh

theorem onHall_other (s : State) (h k : Nat) (f : HallSt → HallSt) (hk : h ≠ k) : vget (s.onHall h f).plane.halls k = vget s.plane.halls k :=
  vget_vmod_ne s.plane.halls h k f hk

@[simp] theorem onCtx_same (s : State) (k : Nat) (f : CipherCtx → CipherCtx) (h : k < 16) : ctxOf (s.onCtx k f) k = f (ctxOf s k) :=
  vget_vmod_same s.cipher.ctx k f h

theorem onCtx_other (s : State) (k j : Nat) (f : CipherCtx → CipherCtx) (h : k ≠ j) : ctxOf (s.onCtx k f) j = ctxOf s j :=
  vget_vmod_ne s.cipher.ctx k j f h

@[simp] theorem onPort_same (s : State) (n : Nat) (f : EthPort → EthPort) (h : n < 10) : portOf (s.onPort n f) n = f (portOf s n) :=
  vget_vmod_same s.eth.port n f h

theorem onPort_other (s : State) (n k : Nat) (f : EthPort → EthPort) (h : n ≠ k) : portOf (s.onPort n f) k = portOf s k :=
  vget_vmod_ne s.eth.port n k f h

@[simp] theorem onChan_same (s : State) (ch : Nat) (f : Chan → Chan) (h : ch < 56) : chanOf (s.onChan ch f) ch = f (chanOf s ch) :=
  vget_vmod_same s.load.ch ch f h

theorem onChan_other (s : State) (ch k : Nat) (f : Chan → Chan) (h : ch ≠ k) : chanOf (s.onChan ch f) k = chanOf s k :=
  vget_vmod_ne s.load.ch ch k f h

@[simp] theorem onBank_same (s : State) (b : Nat) (f : Bank → Bank) (h : b < 4) : bankAt (s.onBank b f) b = f (bankAt s b) :=
  vget_vmod_same s.load.bank b f h

theorem onBank_other (s : State) (b k : Nat) (f : Bank → Bank) (h : b ≠ k) : bankAt (s.onBank b f) k = bankAt s k :=
  vget_vmod_ne s.load.bank b k f h

@[simp] theorem onHb_same (s : State) (m : Nat) (f : Hb → Hb) (h : m < 12) : hbOf (s.onHb m f) m = f (hbOf s m) :=
  vget_vmod_same s.motor.hb m f h

theorem onHb_other (s : State) (m k : Nat) (f : Hb → Hb) (h : m ≠ k) : hbOf (s.onHb m f) k = hbOf s k :=
  vget_vmod_ne s.motor.hb m k f h

@[simp] theorem onValve_same (s : State) (v : Nat) (f : Valve → Valve) (h : v < 8) : valveOf (s.onValve v f) v = f (valveOf s v) :=
  vget_vmod_same s.motor.valve v f h

theorem onValve_other (s : State) (v k : Nat) (f : Valve → Valve) (h : v ≠ k) : valveOf (s.onValve v f) k = valveOf s k :=
  vget_vmod_ne s.motor.valve v k f h

@[simp] theorem onFeed_same (s : State) (n : Nat) (f : Feed → Feed) (h : n < 2) : feedOf (s.onFeed n f) n = f (feedOf s n) :=
  vget_vmod_same s.motor.feed n f h

theorem onFeed_other (s : State) (n k : Nat) (f : Feed → Feed) (h : n ≠ k) : feedOf (s.onFeed n f) k = feedOf s k :=
  vget_vmod_ne s.motor.feed n k f h

@[simp] theorem onEngine_same (s : State) (e : Nat) (f : Engine → Engine) (h : e < 32) : engineOf (s.onEngine e f) e = f (engineOf s e) :=
  vget_vmod_same s.light.engine e f h

theorem onEngine_other (s : State) (e k : Nat) (f : Engine → Engine) (h : e ≠ k) : engineOf (s.onEngine e f) k = engineOf s k :=
  vget_vmod_ne s.light.engine e k f h

@[simp] theorem onString_same (s : State) (n : Nat) (f : Strg → Strg) (h : n < 4) : stringOf (s.onString n f) n = f (stringOf s n) :=
  vget_vmod_same s.light.string n f h

theorem onString_other (s : State) (n k : Nat) (f : Strg → Strg) (h : n ≠ k) : stringOf (s.onString n f) k = stringOf s k :=
  vget_vmod_ne s.light.string n k f h

@[simp] theorem onCan_same (s : State) (c : Nat) (f : Can → Can) (h : c < 8) : canOf (s.onCan c f) c = f (canOf s c) :=
  vget_vmod_same s.bus.can c f h

theorem onCan_other (s : State) (c k : Nat) (f : Can → Can) (h : c ≠ k) : canOf (s.onCan c f) k = canOf s k :=
  vget_vmod_ne s.bus.can c k f h

@[simp] theorem onLin_same (s : State) (c : Nat) (f : Lin → Lin) (h : c < 6) : linAt (s.onLin c f) c = f (linAt s c) :=
  vget_vmod_same s.bus.lin c f h

theorem onLin_other (s : State) (c k : Nat) (f : Lin → Lin) (h : c ≠ k) : linAt (s.onLin c f) k = linAt s k :=
  vget_vmod_ne s.bus.lin c k f h

@[simp] theorem onNet_same (s : State) (n : Nat) (f : Net → Net) (h : n < 14) : netOf (s.onNet n f) n = f (netOf s n) :=
  vget_vmod_same s.sleep.net n f h

theorem onNet_other (s : State) (n k : Nat) (f : Net → Net) (h : n ≠ k) : netOf (s.onNet n f) k = netOf s k :=
  vget_vmod_ne s.sleep.net n k f h

end Sys2Proof.Machine
end

