-- ==== Sys2Proof/Laws/Posts.lean ====
section
/-! SUPPORT. What the shared operations do: writing memory, putting items into landings, posting events, observing, counting and completing. Each says
once all that its operation changes. -/

namespace Sys2Proof.Machine

open Sys2Proof.Claims

/-! Landings. -/

theorem mem_landInsert (it : LandItem) (l : List LandItem) : it ∈ landInsert it l := by
  induction l with
  | nil => simp [landInsert]
  | cons x r ih =>
    unfold landInsert
    split
    · simp
    · split
      · simp
      · exact List.mem_cons_of_mem x ih

theorem mem_landInsert_old (it x : LandItem) (l : List LandItem) (h : x ∈ l) : x ∈ landInsert it l := by
  induction l with
  | nil => simp at h
  | cons y r ih =>
    unfold landInsert
    split
    · exact List.mem_cons_of_mem it h
    · split
      · exact List.mem_cons_of_mem it h
      · rcases List.mem_cons.1 h with h | h
        · simp [h]
        · exact List.mem_cons_of_mem y (ih h)

/-- Putting an item into a landing changes that landing's items only. -/
theorem landPut_only (s : State) (l : Nat) (it : LandItem) :
    landPut s l it = { s with plane := { s.plane with landings := (landPut s l it).plane.landings } } := rfl

theorem mem_landPut (s : State) (l : Nat) (it : LandItem) (h : l < 10) : it ∈ (vget (landPut s l it).plane.landings l).items := by
  change it ∈ (vget (vmod s.plane.landings l _) l).items
  rw [vget_vmod_same _ _ _ h]; exact mem_landInsert it _

theorem mem_landPut_old (s : State) (l k : Nat) (it x : LandItem) (h : x ∈ (vget s.plane.landings k).items) :
    x ∈ (vget (landPut s l it).plane.landings k).items := by
  change x ∈ (vget (vmod s.plane.landings l _) k).items
  rw [vget_vmod]; split
  · exact mem_landInsert_old it x _ h
  · exact h

/-! Memory. -/

/-- Writing bytes changes memory only. -/
theorem memWriteN_only (l : List Byte) : ∀ (s : State) (a : Nat), memWriteN s a l = { s with mem := (memWriteN s a l).mem } := by
  induction l with
  | nil => intro s a; rfl
  | cons b r ih => intro s a; unfold memWriteN; rw [ih]; rfl

/-! Counting and events. -/

/-- A watch-room count changes the counters only. -/
theorem bump_only (s : State) (cls index n : Nat) (hall : Option Nat) :
    bump s cls index n hall = { s with watch := { s.watch with cnt := (bump s cls index n hall).watch.cnt } } := rfl

/-- Posting an event changes the landings only: it waits in the landing to the event rings. -/
theorem postEvent_only (s : State) (e : Ev) :
    postEvent s e = { s with plane := { s.plane with landings := (postEvent s e).plane.landings } } := by
  unfold postEvent; split <;> rfl

/-- An event is posted into the landing to the event rings, where some ring takes it. -/
theorem postEvent_posted (s : State) (e : Ev) : Posted s (postEvent s e) e := by
  intro h
  have hr : (eventRings s e).isEmpty = false := by simpa using h
  unfold postEvent; simp only [hr, Bool.false_eq_true, if_false]
  exact ⟨_, mem_landPut s 6 { stamp := e.stamp, hall := e.hall, idx := e.idx, events := [e] } (by decide), rfl, rfl, rfl, rfl⟩

/-- An item that the capture unit copies changes the capture landing only. -/
theorem capItem_only (s : State) (r : CapRecord) (idx : Nat) :
    capItem s r idx = { s with plane := { s.plane with landings := (capItem s r idx).plane.landings } } := by
  unfold capItem; split <;> rfl

theorem mem_capItem_old (s : State) (r : CapRecord) (idx k : Nat) (x : LandItem) (h : x ∈ (vget s.plane.landings k).items) :
    x ∈ (vget (capItem s r idx).plane.landings k).items := by
  unfold capItem; split
  · exact mem_landPut_old s 9 k _ x h
  · exact h

/-- Delivering an item changes landings only. -/
theorem sense_only (s : State) (t : Stamp) (h idx : Nat) (w : List (Nat × PVal)) (es : List Ev) (caps : List CapRecord) :
    sense s t h idx w es caps = { s with plane := { s.plane with landings := (sense s t h idx w es caps).plane.landings } } := by
  unfold sense
  suffices H : ∀ (l : List CapRecord) (u : State),
      l.foldl (fun s c => capItem s { c with stamp := t } idx) u =
        { u with plane := { u.plane with landings := (l.foldl (fun s c => capItem s { c with stamp := t } idx) u).plane.landings } } by
    dsimp only; rw [H caps]; rfl
  intro l
  induction l with
  | nil => intro u; rfl
  | cons c r ih => intro u; simp only [List.foldl_cons]; rw [ih, capItem_only]

theorem sense_delivered (s : State) (t : Stamp) (h idx : Nat) (w : List (Nat × PVal)) (es : List Ev) (caps : List CapRecord) :
    Delivered s (sense s t h idx w es caps) t h idx w es := by
  intro _
  refine ⟨{ stamp := t, hall := h, idx := idx, writes := w, events := es.map fun e => { e with stamp := t, hall := h } }, ?_, rfl, rfl, rfl, rfl, rfl⟩
  unfold sense
  suffices H : ∀ (l : List CapRecord) (u : State) (x : LandItem), x ∈ (vget u.plane.landings 0).items →
      x ∈ (vget (l.foldl (fun s c => capItem s { c with stamp := t } idx) u).plane.landings 0).items from
    H caps _ _ (mem_landPut s 0 _ (by decide))
  intro l
  induction l with
  | nil => intro u x hx; exact hx
  | cons c r ih => intro u x hx; exact ih _ _ (mem_capItem_old u _ _ 0 x hx)

theorem observe_observed (s : State) (h idx : Nat) (w : List (Nat × PVal)) (es : List Ev) (caps : List CapRecord) :
    Observed s (observe s h idx w es caps) h idx w es := by
  intro hf
  unfold observe; simp only [hf, if_true]
  exact sense_delivered s _ h idx w es caps hf

/-! Completion. -/

/-- Posting an event leaves the result stream as it is. -/
theorem postEvent_results (s : State) (e : Ev) : (postEvent s e).plane.results = s.plane.results := by rw [postEvent_only]

/-- A packet that completes has its item at the head of the result stream. -/
theorem completeNow_completed (s : State) (p : Packet) (st : Status) (r : Reply) : Completed p st s (completeNow s p st r) := by
  unfold Completed completeNow completeAt
  dsimp only
  split
  · rw [postEvent_results]; exact List.mem_cons_self ..
  · exact List.mem_cons_self ..

end Sys2Proof.Machine
end

