-- ==== Sys2Proof/Laws/Runs.lean ====
section
/-! SUPPORT. What a packet does that runs now: the state that its opcode leaves, completed where the opcode answers a status. -/

namespace Sys2Proof.Machine

open Sys2Proof.Claims

theorem executeOp_passes (o : Op) (p : Packet) (s : State) (h : checkPacket o p s = none) (ha : o.agree p s (o.run p s).s = true) :
    executeOp o p s = carryOut o p s := by simp [executeOp, h, ha]

/-- An opcode that nothing refuses is carried out as it runs. -/
theorem carryOut_runs (o : Op) (p : Packet) (s : State) (h : o.refuse p s = none) : carryOut o p s = o.run p s := by simp [carryOut, h]

theorem finishRun_onTime (r : Res) (p : Packet) (n : Nat) :
    finishRun r p false n = match r.st with
      | none => r.s
      | some st => completeNow r.s p st r.reply := by
  unfold finishRun; cases r.st <;> simp [lateStatus]

theorem keeperTake_runs (o : Op) (p : Packet) (s : State) (h : KeeperRuns o p s)
    (ha : o.agree p (release s p) (o.run p (release s p)).s = true) :
    keeperTake o p s = match (carryOut o p (release s p)).st with
      | none => (carryOut o p (release s p)).s
      | some st => completeNow (carryOut o p (release s p)).s p st (carryOut o p (release s p)).reply := by
  obtain ⟨hp, hk, hr, hf, hb, ht, hc⟩ := h
  have hh : isHeld s p = true := by simp only [isHeld, hk, Bool.or_true, Bool.true_or]
  unfold keeperTake
  simp only [hp, ne_eq, not_true_eq_false, if_false, hh, if_true]
  unfold runKeeper
  simp only [hr, hf, hb, Bool.not_true, Bool.false_eq_true, if_false]
  have hw : ¬ (waitsForE o p s = true ∧ (s.plane.tick < dueTick false p s ∨ (!inTurn p s) = true)) := by
    rintro ⟨h1, h2⟩
    rcases ht with ⟨h3, h4, h5, -⟩ | ⟨h3, h4⟩
    · simp [waitsForE, h3, h4, h5] at h1
    · simp [h3, h4] at h2
  rw [if_neg hw]
  unfold keeperExecute
  have hl : (keeperLate p (release s p) && executed o p (release s p)) = false := by
    have hd : dueTick false p (release s p) = dueTick false p s := rfl
    rcases ht with ⟨h3, -, -, h5⟩ | ⟨h3, -⟩
    · cases h6 : latticeOp p.opcode
      · simp [keeperLate, h3, h6]
      · simp [keeperLate, h3, hd, Nat.not_lt.2 (h5 h6)]
    · simp [keeperLate, hd, h3]
  simp only [hl, executeOp_passes o p _ hc ha]
  exact finishRun_onTime _ _ _

theorem fastTake_runs (o : Op) (p : Packet) (s : State) (h : FastRuns o p s)
    (ha : o.agree p (counted s p) (o.run p (counted s p)).s = true) :
    fastTake o p s = match (carryOut o p (counted s p)).st with
      | none => (carryOut o p (counted s p)).s
      | some st => completeNow (carryOut o p (counted s p)).s p st (carryOut o p (counted s p)).reply := by
  obtain ⟨hp, hw, hr, hf, ho, hd, hlt, hi, he, hc⟩ := h
  have hh : isHeld s p = true := by simp only [isHeld, hw, Bool.true_or]
  unfold fastTake
  simp only [hp, ne_eq, not_true_eq_false, if_false, hh, if_true]
  unfold runFast
  have hy : ¬ (s.plane.tick < readyTick p s ∨ (!inTurn p s) = true) := by
    unfold readyTick; dsimp only; rw [hd]
    rintro (h1 | h1)
    · split at h1 <;> omega
    · simp [hi] at h1
  simp only [hr, hf, Bool.false_eq_true, if_false, if_neg hy, Nat.not_le.2 he]
  unfold fastExecute
  have hl : ranLate p s = false := by simp [ranLate, ho, hd]
  simp only [hl, Bool.false_and, executeOp_passes o p _ hc ha]
  exact finishRun_onTime _ _ _

end Sys2Proof.Machine
end

