-- ==== Sys2Proof/WellFormed.lean ====
section
/-! DEFINITION. Which commands are well-formed: every number that names a channel, a hall, a ring or another unit is one
the VB-7260 has, and a packet of an opcode row carries that opcode and whole slots. -/

namespace Sys2Proof

/-- A packet as a ring can hold it: a compartment, a ring and a slot that exist, and whole 64-byte slots (R72, R78). -/
def Packet.wf (p : Packet) : Bool :=
  decide (p.comp < 16) && decide (p.ring < 64) && decide (p.slot < 4096) && decide (64 ≤ p.bytes.length) &&
    decide (p.bytes.length % 64 = 0) && decide (p.bytes.length ≤ 1024)

/-- A well-formed packet that carries opcode `op` in bytes 0–1 (Table 03.4). -/
def Packet.wfOp (p : Packet) (op : Nat) : Bool := p.wf && decide (leNat (p.bytes.take 2) = op)

/-- Well-formed commands. -/
def Instr.wellFormed : Instr → Bool
  | .tick => true
  | .hallTokenMismatch hall => decide (hall < 9)
  | .crystalLoss => true
  | .beamEntry => true
  | .epochRollover => true
  | .landingRelease landing _ => decide (landing < 10)
  | .progressReport landing hall _ => decide (landing < 10) && decide (hall < 9)
  | .hallLagFault hall => decide (hall < 9)
  | .hallLeave hall => decide (hall < 9)
  | .hallJoin hall => decide (hall < 9)
  | .barrierFrameRx _ => true
  | .barrierWindowMiss _ => true
  | .secureCanVerdict c => decide (c < 8)
  | .captureCheckpoint => true
  | .captureStart p => p.wfOp 0x0F00
  | .captureStop p => p.wfOp 0x0F01
  | .replayRun p => p.wfOp 0x0F02
  | .replayRecordRead => true
  | .replayReaderLag _ => true
  | .replayEnd => true
  | .firstPowerUp _ => true
  | .vbatlBelowWarn _ => true
  | .vbatlAboveWarn _ => true
  | .vbatlLogicReset _ => true
  | .logicResetRelease _ => true
  | .vbatlColdReset _ => true
  | .powerDieStart _ => true
  | .resetNLow _ => true
  | .keeperLockstepMismatch => true
  | .keeperWatchdog => true
  | .pairLockstepMismatch pair => decide (pair < 2)
  | .logicRestart => true
  | .l2FrameRx _ => true
  | .holdEntry => true
  | .holdTimerExpiry => true
  | .internalLinkRetrain => true
  | .adoption => true
  | .bankBelowWarn b _ => decide (b < 4)
  | .bankWarnRecovery b _ => decide (b < 4)
  | .shedCountExpiry b level _ => decide (b < 4) && decide (level < 4)
  | .shedRecovery b level _ => decide (b < 4) && decide (level < 4)
  | .bankDropout b _ => decide (b < 4)
  | .dropoutRecovery b _ => decide (b < 4)
  | .bankOvervolt b _ => decide (b < 4)
  | .overvoltRecovery b _ => decide (b < 4)
  | .diagnosisLimit b _ => decide (b < 4)
  | .resumeQueueStep b => decide (b < 4)
  | .bankDip b _ => decide (b < 4)
  | .hardShort _ => true
  | .overloadCountExpiry x => decide (x.unit < 56)
  | .inrushWindowEnd ch _ _ => decide (ch < 56)
  | .retryTimerExpiry ch => decide (ch < 56)
  | .clampEventEnd _ _ => true
  | .wireModelUpdate ch _ _ => decide (ch < 56)
  | .thermalShutdown _ => true
  | .thermalRestart _ => true
  | .restartCountReset _ => true
  | .thermalManagerCut _ _ _ => true
  | .thermalManagerReturn _ => true
  | .onStateOpenCheck ch _ => decide (ch < 56)
  | .offStateCheck ch _ _ _ => decide (ch < 56)
  | .stretchPhase ch _ => decide (ch < 56)
  | .backfeedCheck ch _ _ => decide (ch < 56)
  | .reverseCurrent ch => decide (ch < 56)
  | .reverseEnd ch => decide (ch < 56)
  | .hbFault hb cause _ _ => decide (hb < 12) && decide (cause < 12)
  | .motorBrakeEnd m => decide (m < 12)
  | .motorGroupStart b => decide (b < 12)
  | .motorStall x => decide (x.unit < 12)
  | .runMaxExpiry m => decide (m < 12)
  | .runEndCondition m => decide (m < 12)
  | .rippleCount m _ _ => decide (m < 12)
  | .rippleInsert m => decide (m < 12)
  | .pinchDetect m _ => decide (m < 12)
  | .pinchReversalStart m => decide (m < 12)
  | .pinchReversalEnd m _ => decide (m < 12)
  | .valveGrant f => decide (f < 2)
  | .valveProgramStart v => decide (v < 8)
  | .deferMaxExpiry v => decide (v < 8)
  | .valveInstruction v _ => decide (v < 8)
  | .valveWaitEnd v _ => decide (v < 8)
  | .valveDipDetect v _ => decide (v < 8)
  | .fireMaxExpiry v => decide (v < 8)
  | .valveDecayEnd v _ _ => decide (v < 8)
  | .valveOutputFault o cause _ _ => decide (o < 10) && decide (cause < 12)
  | .stringSoftStartEnd n _ => decide (n < 4)
  | .stringConverterStop n => decide (n < 4)
  | .stringFault n cause _ _ => decide (n < 4) && decide (cause < 12)
  | .patternUpdate e => decide (e < 32)
  | .patternWriteDeferred => true
  | .pointWriteDeferred => true
  | .reflexEvaluate => true
  | .reflexActionDeferred => true
  | .pulseEnd pt => decide (pt < 524288)
  | .rampStep pt => decide (pt < 524288)
  | .timerExpiry pt => decide (pt < 524288)
  | .siFilterChange n _ => decide (n < 48)
  | .aiConversionResult n _ => decide (n < 16)
  | .cyclicSense x => decide (x.group < 6) && x.mvs.length == 8
  | .tickHallInputReload => true
  | .fieldSupplyChange k _ => decide (k < 2)
  | .fieldDieStop => true
  | .fieldDiePowerUp => true
  | .fieldInputChange n _ => decide (n < 16)
  | .fieldFrameRx _ => true
  | .fieldLinkLost => true
  | .fieldLinkRecover => true
  | .fieldReconfigure => true
  | .fieldPark => true
  | .fieldOutputFault n cause _ _ => decide (n < 8) && decide (cause < 12)
  | .canFrameAccept c _ => decide (c < 8)
  | .signalTimeout d => decide (d < 65536)
  | .frameHandover _ => true
  | .secureTxTagReady c => decide (c < 8)
  | .canTxEnd c x => decide (c < 8) && decide (x.outcome < 3)
  | .canClash x => decide (x.controller < 8)
  | .canErrorStateChange c _ => decide (c < 8)
  | .busoffRecovery c => decide (c < 8)
  | .canIntegrated x => decide (x.controller < 8)
  | .txTimeoutExpiry c _ => decide (c < 14)
  | .linFrameAccept c id _ => decide (c < 6) && decide (id < 64)
  | .linHeaderPublish c id => decide (c < 6) && decide (id < 64)
  | .linScheduleSlot c => decide (c < 6)
  | .linError c id _ => decide (c < 6) && decide (id < 64)
  | .linResponderIdle c => decide (c < 6)
  | .ethLinkUp x => decide (x.port < 8)
  | .ethLinkDown port => decide (port < 8)
  | .ethFrameReceive port _ => decide (port < 10)
  | .packetTxRecord _ => true
  | .commandFrame port _ => decide (port < 8)
  | .commandFrameReply => true
  | .addressAgeing _ _ => true
  | .saPnExhausted port _ _ an => decide (port < 6) && decide (an < 4)
  | .syncInterval => true
  | .syncHoldover => true
  | .tc10SleepRequestRx port => decide (port < 6)
  | .tc10SleepWaitEnd port _ => decide (port < 6)
  | .tc10WakeRx port => decide (port < 6)
  | .wakeLatch _ _ => true
  | .wakeHandling => true
  | .rtcAlarm => true
  | .selectiveWakeFrame n _ _ => decide (n < 8)
  | .nmMessageRx n _ => decide (n < 8)
  | .nmKeepaliveTimer n => decide (n < 14)
  | .nmTimeout n => decide (n < 14)
  | .nmRingSend n => decide (n < 8)
  | .nmRingTimeout n => decide (n < 8)
  | .networkCommit n => decide (n < 14)
  | .deviceCommit => true
  | .darkEntry => true
  | .buoyTimeout => true
  | .pairStop => true
  | .stateEntry target => decide (target < 4)
  | .cryptoAdmission _ => true
  | .encrypt _ => true
  | .decrypt _ => true
  | .gmacGen _ => true
  | .gmacCheck _ => true
  | .chainSegmentTimeout _ => true
  | .cipherMismatch ctx => decide (ctx < 32)
  | .pd5IdleOff => true
  | .counterCommit slot => decide (slot < 256)
  | .trngHealthFail _ => true
  | .keyAbortStop slot => decide (slot < 256)
  | .doorbellSubmit comp ring _ => decide (comp < 32) && decide (ring < 64)
  | .doorbellConsume comp ring _ => decide (comp < 32) && decide (ring < 64)
  | .ringSizeWrite comp ring size => decide (comp < 32) && decide (ring < 64) && decide (size < 16)
  | .tickNowRead comp => decide (comp < 16)
  | .registerWrite comp _ _ => decide (comp < 32)
  | .hostSpiWrite _ => true
  | .hostSpiRead _ => true
  | .keeperAdmission ring => decide (ring < 64)
  | .flightApply ring => decide (ring < 64)
  | .flightTimeout ring => decide (ring < 64)
  | .flightInterrupted ring => decide (ring < 64)
  | .dispatcherOverflow => true
  | .unknownOpcode p => p.wf
  | .sysNop p => p.wfOp 0x0100
  | .sysTick p => p.wfOp 0x0104
  | .sysInfo p => p.wfOp 0x0101
  | .sysState p => p.wfOp 0x0102
  | .sysReset p => p.wfOp 0x0103
  | .sysConfig p => p.wfOp 0x0105
  | .sysCharter p => p.wfOp 0x0106
  | .loadSet p => p.wfOp 0x0200
  | .loadConfig p => p.wfOp 0x0201
  | .loadDiag p => p.wfOp 0x0202
  | .loadUnlock p => p.wfOp 0x0203
  | .loadFailstate p => p.wfOp 0x0204
  | .loadShed p => p.wfOp 0x0205
  | .motorRun p => p.wfOp 0x0300
  | .motorConfig p => p.wfOp 0x0301
  | .motorPos p => p.wfOp 0x0302
  | .valveFire p => p.wfOp 0x0310
  | .valveProg p => p.wfOp 0x0311
  | .valveConfig p => p.wfOp 0x0312
  | .valveTrace p => p.wfOp 0x0313
  | .pointWrite p => p.wfOp 0x0400
  | .pointRead p => p.wfOp 0x0401
  | .pointType p => p.wfOp 0x0402
  | .stringConfig p => p.wfOp 0x0410
  | .patternLoad p => p.wfOp 0x0411
  | .patternRun p => p.wfOp 0x0412
  | .ivgalEnum p => p.wfOp 0x0420
  | .ivgalConfig p => p.wfOp 0x0421
  | .ivgalDiag p => p.wfOp 0x0422
  | .ivgalFrameSlot n => decide (n < 16)
  | .ivgalFrameReturn n _ => decide (n < 16)
  | .ivgalBreak n => decide (n < 16)
  | .ivgalBeaconRx n _ _ => decide (n < 16)
  | .ivgalMismatchEnum n => decide (n < 16)
  | .reflexLoad p => p.wfOp 0x0500
  | .reflexEnable p => p.wfOp 0x0501
  | .reflexStats p => p.wfOp 0x0502
  | .inputConfig p => p.wfOp 0x0600
  | .fieldConfig p => p.wfOp 0x0610
  | .fieldStatus p => p.wfOp 0x0611
  | .canConfig p => p.wfOp 0x0700
  | .canFilter p => p.wfOp 0x0701
  | .canSend p => p.wfOp 0x0702
  | .canCancel p => p.wfOp 0x0703
  | .canStatus p => p.wfOp 0x0704
  | .canSigmap p => p.wfOp 0x0705
  | .linConfig p => p.wfOp 0x0710
  | .linSchedule p => p.wfOp 0x0711
  | .linSend p => p.wfOp 0x0712
  | .ethConfig p => p.wfOp 0x0800
  | .ethSecure p => p.wfOp 0x0801
  | .ethStatus p => p.wfOp 0x0802
  | .ethTime p => p.wfOp 0x0803
  | .nmConfig p => p.wfOp 0x0900
  | .nmRequest p => p.wfOp 0x0901
  | .nmRelease p => p.wfOp 0x0902
  | .nmStatus p => p.wfOp 0x0903
  | .xcvrState p => p.wfOp 0x0904
  | .keyWrite p => p.wfOp 0x0A00
  | .keyErase p => p.wfOp 0x0A01
  | .keyInfo p => p.wfOp 0x0A02
  | .keyDerive p => p.wfOp 0x0A03
  | .keyUnwrap p => p.wfOp 0x0A04
  | .sign p => p.wfOp 0x0A10
  | .verify p => p.wfOp 0x0A11
  | .hash p => p.wfOp 0x0A12
  | .imageBegin p => p.wfOp 0x0B00
  | .imageData p => p.wfOp 0x0B01
  | .imageEnd p => p.wfOp 0x0B02
  | .transferTimeout => true
  | .imageTrial p => p.wfOp 0x0B03
  | .trialCompare _ _ => true
  | .trialMatchTimeout comp => decide (comp < 16)
  | .trialRunEnd cause => decide (cause < 8)
  | .imageCommit p => p.wfOp 0x0B04
  | .imageRevert p => p.wfOp 0x0B05
  | .attest p => p.wfOp 0x0B10
  | .debugUnlock p => p.wfOp 0x0B20
  | .debugExpiry => true
  | .handlePoll k _ => decide (k < 4)
  | .handleTouch k => decide (k < 4)
  | .accessConfig p => p.wfOp 0x0C10
  | .accessPoll p => p.wfOp 0x0C11
  | .lfFrameEnd => true
  | .responseSlotClose index _ => decide (index < 8)
  | .antennaFault a _ => decide (a < 6)
  | .accessStatus p => p.wfOp 0x0C12
  | .tokenEnroll p => p.wfOp 0x0C00
  | .tokenRevoke p => p.wfOp 0x0C01
  | .tokenList p => p.wfOp 0x0C02
  | .sessionTimeout => true
  | .releaseConfig p => p.wfOp 0x0C20
  | .releaseFrameBuild => true
  | .releaseFrameHandover => true
  | .logAppend p => p.wfOp 0x0D00
  | .logRead p => p.wfOp 0x0D01
  | .logExportAck p => p.wfOp 0x0D02
  | .logSeal p => p.wfOp 0x0D03
  | .segmentSeal reason => decide (reason < 8)
  | .sealTimeExpiry => true
  | .logRecordWrite _ => true
  | .timeSet p => p.wfOp 0x0D10
  | .timeGet p => p.wfOp 0x0D11
  | .rtcStore => true
  | .rtcTempMeasure _ => true
  | .watchConfig p => p.wfOp 0x0E00
  | .watchGrant p => p.wfOp 0x0E01
  | .watchSnap p => p.wfOp 0x0E02
  | .watchDump _ => true
  | .voltagePointRewrite which _ => decide (which < 5)
  | .pwmPeriodStart _ => true
  | .clampWindowBinExpiry => true
  | .canBusError c x => decide (c < 8 ∧ x.kind < 3)
  | .egressFrameSent port => decide (port < 10)
  | .peerDelayMeasure port _ => decide (port < 8)
  | .trngHealthRecovery => true
  | .vioLoss _ => true
  | .vioReturn _ => true
  | .tapInstruction _ _ _ => true

end Sys2Proof
end

