-- ==== Sys2Proof/Tests/Slice0.lean ====
section
/-! SUPPORT. Tests: ill-formed commands are refused by the well-formedness check, and each statement with hypotheses has a state that meets them. -/

open Sys2Proof Sys2Proof.Machine Sys2Proof.Claims

namespace Sys2Proof.Tests

set_option Elab.async false
set_option synthInstance.maxSize 1024

/-! Ill-formed commands, one for each check. -/

/-- A one-slot packet of C0 on ring 0 that carries an opcode. -/
def pk (op : Nat) : Packet := { comp := 0, ring := 0, slot := 0, arrival := {}, bytes := leBytes 2 op ++ List.replicate 62 0 }

theorem test_ill_formed_0 : ∀ c ∈ ([
    .hallTokenMismatch 9,
    .landingRelease 10 default,
    .progressReport 10 8 default,
    .progressReport 9 9 default,
    .hallLagFault 9,
    .hallLeave 9,
    .hallJoin 9,
    .secureCanVerdict 8,
    .pairLockstepMismatch 2,
    .bankBelowWarn 4 default,
    .bankWarnRecovery 4 default,
    .shedCountExpiry 4 3 default,
    .shedCountExpiry 3 4 default,
    .shedRecovery 4 3 default,
    .shedRecovery 3 4 default,
    .bankDropout 4 default,
    .dropoutRecovery 4 default,
    .bankOvervolt 4 default,
    .overvoltRecovery 4 default,
    .diagnosisLimit 4 default,
    .resumeQueueStep 4,
    .bankDip 4 default,
    .overloadCountExpiry ⟨56, default⟩,
    .inrushWindowEnd 56 default default,
    .retryTimerExpiry 56,
    .wireModelUpdate 56 default default,
    .onStateOpenCheck 56 default,
    .offStateCheck 56 default default default,
    .stretchPhase 56 default,
    .backfeedCheck 56 default default,
    .reverseCurrent 56,
    .reverseEnd 56,
    .hbFault 12 11 default default,
    .hbFault 11 12 default default,
    .motorBrakeEnd 12,
    .motorGroupStart 12,
    .motorStall ⟨12, default⟩,
    .runMaxExpiry 12,
    .runEndCondition 12,
    .rippleCount 12 default default] : List Instr), c.wellFormed = false := by decide +kernel

theorem test_ill_formed_1 : ∀ c ∈ ([
    .rippleInsert 12,
    .pinchDetect 12 default,
    .pinchReversalStart 12,
    .pinchReversalEnd 12 default,
    .valveGrant 2,
    .valveProgramStart 8,
    .deferMaxExpiry 8,
    .valveInstruction 8 default,
    .valveWaitEnd 8 default,
    .valveDipDetect 8 default,
    .fireMaxExpiry 8,
    .valveDecayEnd 8 default default,
    .valveOutputFault 10 11 default default,
    .valveOutputFault 9 12 default default,
    .stringSoftStartEnd 4 default,
    .stringConverterStop 4,
    .stringFault 4 11 default default,
    .stringFault 3 12 default default,
    .patternUpdate 32,
    .pulseEnd 524288,
    .rampStep 524288,
    .timerExpiry 524288,
    .siFilterChange 48 default,
    .aiConversionResult 16 default,
    .cyclicSense ⟨6, (List.replicate 8 0)⟩,
    .cyclicSense ⟨5, []⟩,
    .fieldSupplyChange 2 default,
    .fieldInputChange 16 default,
    .fieldOutputFault 8 11 default default,
    .fieldOutputFault 7 12 default default,
    .canFrameAccept 8 default,
    .signalTimeout 65536,
    .secureTxTagReady 8,
    .canTxEnd 8 ⟨2, default⟩,
    .canTxEnd 7 ⟨3, default⟩,
    .canClash ⟨8, default⟩,
    .canErrorStateChange 8 default,
    .busoffRecovery 8,
    .canIntegrated ⟨8, default⟩,
    .txTimeoutExpiry 14 default] : List Instr), c.wellFormed = false := by decide +kernel

theorem test_ill_formed_2 : ∀ c ∈ ([
    .linFrameAccept 6 63 default,
    .linFrameAccept 5 64 default,
    .linHeaderPublish 6 63,
    .linHeaderPublish 5 64,
    .linScheduleSlot 6,
    .linError 6 63 default,
    .linError 5 64 default,
    .linResponderIdle 6,
    .ethLinkUp ⟨8, default⟩,
    .ethLinkDown 8,
    .ethFrameReceive 10 default,
    .commandFrame 8 default,
    .saPnExhausted 6 default default 3,
    .saPnExhausted 5 default default 4,
    .tc10SleepRequestRx 6,
    .tc10SleepWaitEnd 6 default,
    .tc10WakeRx 6,
    .selectiveWakeFrame 8 default default,
    .nmMessageRx 8 default,
    .nmKeepaliveTimer 14,
    .nmTimeout 14,
    .nmRingSend 8,
    .nmRingTimeout 8,
    .networkCommit 14,
    .stateEntry 4,
    .cipherMismatch 32,
    .counterCommit 256,
    .keyAbortStop 256,
    .doorbellSubmit 32 63 default,
    .doorbellSubmit 31 64 default,
    .doorbellConsume 32 63 default,
    .doorbellConsume 31 64 default,
    .ringSizeWrite 32 63 15,
    .ringSizeWrite 31 64 15,
    .ringSizeWrite 31 63 16,
    .tickNowRead 16,
    .registerWrite 32 default default,
    .keeperAdmission 64,
    .flightApply 64,
    .flightTimeout 64] : List Instr), c.wellFormed = false := by decide +kernel

theorem test_ill_formed_3 : ∀ c ∈ ([
    .flightInterrupted 64,
    .ivgalFrameSlot 16,
    .ivgalFrameReturn 16 default,
    .ivgalBreak 16,
    .ivgalBeaconRx 16 default default,
    .ivgalMismatchEnum 16,
    .trialMatchTimeout 16,
    .trialRunEnd 8,
    .handlePoll 4 default,
    .handleTouch 4,
    .responseSlotClose 8 default,
    .antennaFault 6 default,
    .segmentSeal 8,
    .voltagePointRewrite 5 default,
    .canBusError 8 default,
    .egressFrameSent 10,
    .peerDelayMeasure 8 default] : List Instr), c.wellFormed = false := by decide +kernel

theorem test_ill_formed_packet : ∀ c ∈ ([
    .captureStart (pk 0x0FFF),
    .captureStop (pk 0x0FFF),
    .replayRun (pk 0x0FFF),
    .sysNop (pk 0x0FFF),
    .sysTick (pk 0x0FFF),
    .sysInfo (pk 0x0FFF),
    .sysState (pk 0x0FFF),
    .sysReset (pk 0x0FFF),
    .sysConfig (pk 0x0FFF),
    .sysCharter (pk 0x0FFF),
    .loadSet (pk 0x0FFF),
    .loadConfig (pk 0x0FFF),
    .loadDiag (pk 0x0FFF),
    .loadUnlock (pk 0x0FFF),
    .loadFailstate (pk 0x0FFF),
    .loadShed (pk 0x0FFF),
    .motorRun (pk 0x0FFF),
    .motorConfig (pk 0x0FFF),
    .motorPos (pk 0x0FFF),
    .valveFire (pk 0x0FFF),
    .valveProg (pk 0x0FFF),
    .valveConfig (pk 0x0FFF),
    .valveTrace (pk 0x0FFF),
    .pointWrite (pk 0x0FFF),
    .pointRead (pk 0x0FFF),
    .pointType (pk 0x0FFF),
    .stringConfig (pk 0x0FFF),
    .patternLoad (pk 0x0FFF),
    .patternRun (pk 0x0FFF),
    .ivgalEnum (pk 0x0FFF),
    .ivgalConfig (pk 0x0FFF),
    .ivgalDiag (pk 0x0FFF),
    .reflexLoad (pk 0x0FFF),
    .reflexEnable (pk 0x0FFF),
    .reflexStats (pk 0x0FFF),
    .inputConfig (pk 0x0FFF),
    .fieldConfig (pk 0x0FFF),
    .fieldStatus (pk 0x0FFF),
    .canConfig (pk 0x0FFF),
    .canFilter (pk 0x0FFF),
    .canSend (pk 0x0FFF),
    .canCancel (pk 0x0FFF),
    .canStatus (pk 0x0FFF),
    .canSigmap (pk 0x0FFF),
    .linConfig (pk 0x0FFF)] : List Instr), c.wellFormed = false := by decide +kernel

theorem test_ill_formed_packet_2 : ∀ c ∈ ([
    .linSchedule (pk 0x0FFF),
    .linSend (pk 0x0FFF),
    .ethConfig (pk 0x0FFF),
    .ethSecure (pk 0x0FFF),
    .ethStatus (pk 0x0FFF),
    .ethTime (pk 0x0FFF),
    .nmConfig (pk 0x0FFF),
    .nmRequest (pk 0x0FFF),
    .nmRelease (pk 0x0FFF),
    .nmStatus (pk 0x0FFF),
    .xcvrState (pk 0x0FFF),
    .keyWrite (pk 0x0FFF),
    .keyErase (pk 0x0FFF),
    .keyInfo (pk 0x0FFF),
    .keyDerive (pk 0x0FFF),
    .keyUnwrap (pk 0x0FFF),
    .sign (pk 0x0FFF),
    .verify (pk 0x0FFF),
    .hash (pk 0x0FFF),
    .imageBegin (pk 0x0FFF),
    .imageData (pk 0x0FFF),
    .imageEnd (pk 0x0FFF),
    .imageTrial (pk 0x0FFF),
    .imageCommit (pk 0x0FFF),
    .imageRevert (pk 0x0FFF),
    .attest (pk 0x0FFF),
    .debugUnlock (pk 0x0FFF),
    .accessConfig (pk 0x0FFF),
    .accessPoll (pk 0x0FFF),
    .accessStatus (pk 0x0FFF),
    .tokenEnroll (pk 0x0FFF),
    .tokenRevoke (pk 0x0FFF),
    .tokenList (pk 0x0FFF),
    .releaseConfig (pk 0x0FFF),
    .logAppend (pk 0x0FFF),
    .logRead (pk 0x0FFF),
    .logExportAck (pk 0x0FFF),
    .logSeal (pk 0x0FFF),
    .timeSet (pk 0x0FFF),
    .timeGet (pk 0x0FFF),
    .watchConfig (pk 0x0FFF),
    .watchGrant (pk 0x0FFF),
    .watchSnap (pk 0x0FFF)] : List Instr), c.wellFormed = false := by decide +kernel

theorem test_ill_formed_place :
    (Instr.unknownOpcode { pk 5 with comp := 16 }).wellFormed = false ∧ (Instr.unknownOpcode { pk 5 with ring := 64 }).wellFormed = false ∧
      (Instr.unknownOpcode { pk 5 with slot := 4096 }).wellFormed = false ∧ (Instr.unknownOpcode { pk 5 with bytes := [] }).wellFormed = false ∧
      (Instr.unknownOpcode { pk 5 with bytes := List.replicate 65 0 }).wellFormed = false ∧
      (Instr.unknownOpcode { pk 5 with bytes := List.replicate 1088 0 }).wellFormed = false ∧
      (Instr.unknownOpcode (pk 5)).wellFormed = true := by decide +kernel

theorem test_well_formed_0 : ∀ c ∈ ([
    .hallTokenMismatch 8,
    .landingRelease 9 default,
    .progressReport 9 8 default,
    .hallLagFault 8,
    .hallLeave 8,
    .hallJoin 8,
    .secureCanVerdict 7,
    .pairLockstepMismatch 1,
    .bankBelowWarn 3 default,
    .bankWarnRecovery 3 default,
    .shedCountExpiry 3 3 default,
    .shedRecovery 3 3 default,
    .bankDropout 3 default,
    .dropoutRecovery 3 default,
    .bankOvervolt 3 default,
    .overvoltRecovery 3 default,
    .diagnosisLimit 3 default,
    .resumeQueueStep 3,
    .bankDip 3 default,
    .overloadCountExpiry ⟨55, default⟩,
    .inrushWindowEnd 55 default default,
    .retryTimerExpiry 55,
    .wireModelUpdate 55 default default,
    .onStateOpenCheck 55 default,
    .offStateCheck 55 default default default,
    .stretchPhase 55 default,
    .backfeedCheck 55 default default,
    .reverseCurrent 55,
    .reverseEnd 55,
    .hbFault 11 11 default default,
    .motorBrakeEnd 11,
    .motorGroupStart 11,
    .motorStall ⟨11, default⟩,
    .runMaxExpiry 11,
    .runEndCondition 11,
    .rippleCount 11 default default,
    .rippleInsert 11,
    .pinchDetect 11 default,
    .pinchReversalStart 11,
    .pinchReversalEnd 11 default,
    .valveGrant 1,
    .valveProgramStart 7,
    .deferMaxExpiry 7,
    .valveInstruction 7 default,
    .valveWaitEnd 7 default,
    .valveDipDetect 7 default,
    .fireMaxExpiry 7,
    .valveDecayEnd 7 default default,
    .valveOutputFault 9 11 default default,
    .stringSoftStartEnd 3 default,
    .stringConverterStop 3,
    .stringFault 3 11 default default,
    .patternUpdate 31,
    .pulseEnd 524287,
    .rampStep 524287,
    .timerExpiry 524287,
    .siFilterChange 47 default,
    .aiConversionResult 15 default,
    .cyclicSense ⟨5, (List.replicate 8 0)⟩,
    .fieldSupplyChange 1 default] : List Instr), c.wellFormed = true := by decide +kernel

theorem test_well_formed_1 : ∀ c ∈ ([
    .fieldInputChange 15 default,
    .fieldOutputFault 7 11 default default,
    .canFrameAccept 7 default,
    .signalTimeout 65535,
    .secureTxTagReady 7,
    .canTxEnd 7 ⟨2, default⟩,
    .canClash ⟨7, default⟩,
    .canErrorStateChange 7 default,
    .busoffRecovery 7,
    .canIntegrated ⟨7, default⟩,
    .txTimeoutExpiry 13 default,
    .linFrameAccept 5 63 default,
    .linHeaderPublish 5 63,
    .linScheduleSlot 5,
    .linError 5 63 default,
    .linResponderIdle 5,
    .ethLinkUp ⟨7, default⟩,
    .ethLinkDown 7,
    .ethFrameReceive 9 default,
    .commandFrame 7 default,
    .saPnExhausted 5 default default 3,
    .tc10SleepRequestRx 5,
    .tc10SleepWaitEnd 5 default,
    .tc10WakeRx 5,
    .selectiveWakeFrame 7 default default,
    .nmMessageRx 7 default,
    .nmKeepaliveTimer 13,
    .nmTimeout 13,
    .nmRingSend 7,
    .nmRingTimeout 7,
    .networkCommit 13,
    .stateEntry 3,
    .cipherMismatch 31,
    .counterCommit 255,
    .keyAbortStop 255,
    .doorbellSubmit 31 63 default,
    .doorbellConsume 31 63 default,
    .ringSizeWrite 31 63 15,
    .tickNowRead 15,
    .registerWrite 31 default default,
    .keeperAdmission 63,
    .flightApply 63,
    .flightTimeout 63,
    .flightInterrupted 63,
    .ivgalFrameSlot 15,
    .ivgalFrameReturn 15 default,
    .ivgalBreak 15,
    .ivgalBeaconRx 15 default default,
    .ivgalMismatchEnum 15,
    .trialMatchTimeout 15,
    .trialRunEnd 7,
    .handlePoll 3 default,
    .handleTouch 3,
    .responseSlotClose 7 default,
    .antennaFault 5 default,
    .segmentSeal 7,
    .voltagePointRewrite 4 default,
    .canBusError 7 default,
    .egressFrameSent 9,
    .peerDelayMeasure 7 default] : List Instr), c.wellFormed = true := by decide +kernel


/-! Witnesses: states and operands that meet the hypotheses of the statements, with what the command then does. -/

/-- A packet of C0 in slot 0 of ring 0, of `n` slots, from its fields (first byte, length, value). -/
def packet (op n tick : Nat) (f : Reply) : Packet :=
  { comp := 0, ring := 0, slot := 0, arrival := ⟨1, tick⟩, bytes := leBytes (64 * n) (replyNat ((0, 2, op) :: (3, 1, n) :: f)) }

/-- A keeper packet that takes effect at tick 16,000, and a fast one that executes in it. -/
def kp (op : Nat) (f : Reply := []) (n : Nat := 1) : Packet := packet op n 8000 f
def fp (op : Nat) (f : Reply := []) (n : Nat := 1) : Packet := packet op n 15984 f

/-- The tick hall runs in Lantern at tick 16,000 of epoch 1, with every hall on and joined, and ring 0 of 64 slots enabled. -/
def up : State :=
  { seq := { powered := true, core := true, state := .lantern, ready := true, vbatl := 12000, pd := 63 }
    plane := {
      running := true, epoch := 1, tick := 16000, lin := 16000, halls := Vector.replicate 9 { on := true }
      landings := Vector.replicate 10 { streams := Vector.replicate 9 { joined := true, progress := 16000 }, released := 16000 }
      rings := vmod (Vector.replicate 64 {}) 0 fun _ => { base := 0x44000000, sizeLog2 := 6, enabled := true, head := 4, tail := 4 } }
    pins := { vio := true } }

/-- A packet is admitted and held by the keeper, or waits in the dispatcher. -/
def keep (p : Packet) (s : State := up) : State :=
  (s.onRing p.ring fun g => { g with admitted := [{ slot := p.slot, slots := p.slots, arrival := p.arrival }] }).onPlane fun q => { q with keeper := [p] }
def wait (p : Packet) (s : State := up) : State :=
  (s.onRing p.ring fun g => { g with admitted := [{ slot := p.slot, slots := p.slots, arrival := p.arrival }] }).onPlane fun q => { q with waiting := [{ p := p }] }

/-- A command answers a next state with a property. -/
def runs (c : Instr) (s : State) (f : State → Bool) : Bool := match exec c s with | .next t => f t | _ => false

/-- `Completed`, as a Bool. -/
def done (p : Packet) (st : Status) (s t : State) : Bool := t.plane.results.contains (.reply p.ring p.slot st.code s.stamp.tick (shareOf p))


theorem witness_ratedQueue : ∀ c ∈ ({ up with pending := [.vbatlLogicReset 5000, .holdEntry] } : State).pending, withinRatings c := by
  intro c hc v hv
  simp at hc
  obtain rfl | rfl := hc <;> simp [suppliedMv] at hv
  omega

theorem witness_outsideRatings : suppliedMv (.powerDieStart 58001) = some 58001 ∧ 58000 < 58001 := by decide +kernel

theorem witness_canonical : Tbl.wf 0 up.mem = true ∧ ∃ t, step up = .next t := ⟨by decide +kernel, up, rfl⟩

theorem witness_packetFrame : (keeperRow (.sysInfo (kp 0x101))).isSome = true ∧
    runs (.sysInfo (kp 0x101)) (keep (kp 0x101)) (fun t => t.store.sys == up.store.sys) = true := by decide +kernel

theorem witness_eventFrame : keeperRow .crystalLoss = none ∧ fastRow .crystalLoss = none ∧
    runs .crystalLoss up (fun t => t.plane.rcClock && t.store.sys == up.store.sys) = true := by decide +kernel

theorem witness_slotsOnly : writesSlotsOnly .captureCheckpoint = true ∧ ¬ inRing up 0x43FFFFFF ∧ ¬ inRing up 0x44001000 := by
  unfold inRing; decide +kernel

theorem witness_executesNow : ExecutesNow (.sysTick (fp 0x104)) sysTickOp (fp 0x104) (wait (fp 0x104)) (counted (wait (fp 0x104)) (fp 0x104)) ∧
    ExecutesNow (.sysInfo (kp 0x101)) sysInfoOp (kp 0x101) (keep (kp 0x101)) (release (keep (kp 0x101)) (kp 0x101)) :=
  ⟨.inr ⟨rfl, by decide +kernel, rfl⟩, .inl ⟨rfl, by decide +kernel, rfl⟩⟩

theorem witness_executesNow_reply : let s := wait (fp 0x104); let u := counted s (fp 0x104)
    sysTickOp.agree (fp 0x104) u (sysTickOp.run (fp 0x104) u).s = true ∧ (carryOut sysTickOp (fp 0x104) u).st = some .ok ∧
    Tbl.wf 0 (carryOut sysTickOp (fp 0x104) u).s.mem = true ∧ replyHidden (fp 0x104) (carryOut sysTickOp (fp 0x104) u).s = false ∧
    trialRuns (carryOut sysTickOp (fp 0x104) u).s = false ∧
    ((carryOut sysTickOp (fp 0x104) u).s.ring 0).replyAddr 0 (some (fp 0x104).arrival) = some 0x44000000 := by decide +kernel

/-- A fast and a keeper packet whose tick is still to come. -/
def early : Packet := packet 0x104 1 15990 []
def earlyKeep : Packet := packet 0x103 1 9000 []

theorem witness_fastWaits : early.opcode = sysTickOp.code ∧ early.inFlight = false ∧ replayShuts early (wait early) = false ∧
    fastRow (.sysTick early) = some (sysTickOp, early) ∧ (wait early).plane.tick < readyTick early (wait early) ∧
    isWaiting (wait early) early = true := ⟨by decide +kernel, by decide +kernel, by decide +kernel, rfl, by decide +kernel, by decide +kernel⟩

/-- A packet is the next command of ring 0, under the doorbell of its arrival. -/
def submitted (p : Packet) (s : State := up) : State :=
  memWriteN (s.onRing 0 fun g => { g with head := p.slot, tail := p.slot + p.slots, scan := p.slot, batches := [(p.slot + p.slots, p.arrival)] })
    (0x44000000 + 64 * p.slot) p.bytes

theorem witness_fastJoins : early.opcode = sysTickOp.code ∧ early.inFlight = false ∧ (submitted early).plane.replay.running = false ∧
    (submitted early).plane.tick < readyTick early (submitted early) ∧ isHeld (submitted early) early = false ∧ mayAdmit early (submitted early) = true ∧
    (submitted early).plane.waiting.length < 1024 ∧ runs (.sysTick early) (submitted early) (fun t => isWaiting t early) = true := by decide +kernel

theorem witness_keeperWaits : earlyKeep.opcode = sysResetOp.code ∧ keeperRow (.sysReset earlyKeep) = some (sysResetOp, earlyKeep) ∧
    earlyKeep.inFlight = false ∧ replayShuts earlyKeep (keep earlyKeep) = false ∧ timeless earlyKeep = false ∧
    (keep earlyKeep).plane.tick < dueTick false earlyKeep (keep earlyKeep) ∧ (keep earlyKeep).plane.keeper.contains earlyKeep = true ∧
    runs (.sysReset earlyKeep) (keep earlyKeep) (fun t => t.plane.finished == [earlyKeep]) = true :=
  ⟨by decide +kernel, rfl, by decide +kernel⟩

theorem witness_rejected : keeperRow (.sysConfig (kp 0x105)) = some (sysConfigOp, kp 0x105) ∧ (kp 0x105).opcode = sysConfigOp.code ∧
    (keep (kp 0x105)).plane.keeper.contains (kp 0x105) = true ∧ replayShuts (kp 0x105) (keep (kp 0x105)) = false ∧ (kp 0x105).inFlight = false ∧
    dueTick false (kp 0x105) (keep (kp 0x105)) = (keep (kp 0x105)).plane.tick ∧ inTurn (kp 0x105) (keep (kp 0x105)) = true ∧
    checkPacket sysConfigOp (kp 0x105) (release (keep (kp 0x105)) (kp 0x105)) = some .badarg ∧
    runs (.sysConfig (kp 0x105)) (keep (kp 0x105)) (done (kp 0x105) .badarg up) = true :=
  ⟨rfl, by decide +kernel⟩

/-- A fast packet whose tick has passed, and a keeper packet whose E has passed. -/
def lateP : Packet := packet 0x104 1 15900 []

def lateKeep : Packet := packet 0x102 1 7900 [(16, 1, 2)]

theorem witness_late : fastRow (.sysTick lateP) = some (sysTickOp, lateP) ∧ lateP.opcode = sysTickOp.code ∧ isWaiting (wait lateP) lateP = true ∧
    lateP.inFlight = false ∧ replayShuts lateP (wait lateP) = false ∧ inTurn lateP (wait lateP) = true ∧
    readyTick lateP (wait lateP) ≤ (wait lateP).plane.tick ∧ dueTick true lateP (wait lateP) < (wait lateP).plane.tick ∧
    (wait lateP).plane.execNow < 8 ∧ checkPacket sysTickOp lateP (counted (wait lateP) lateP) = none ∧
    (carryOut sysTickOp lateP (counted (wait lateP) lateP)).st = some .ok ∧
    sysTickOp.agree lateP (counted (wait lateP) lateP) (sysTickOp.run lateP (counted (wait lateP) lateP)).s = true ∧
    runs (.sysTick lateP) (wait lateP) (fun t => done lateP .late up t && t.plane.status.late) = true :=
  ⟨rfl, by decide +kernel⟩

theorem witness_lateKeeper : keeperRow (.sysState lateKeep) = some (sysStateOp, lateKeep) ∧ lateKeep.opcode = sysStateOp.code ∧
    (keep lateKeep).plane.keeper.contains lateKeep = true ∧ lateKeep.inFlight = false ∧ replayShuts lateKeep (keep lateKeep) = false ∧
    timeless lateKeep = false ∧ inTurn lateKeep (keep lateKeep) = true ∧ dueTick false lateKeep (keep lateKeep) < (keep lateKeep).plane.tick ∧
    checkPacket sysStateOp lateKeep (release (keep lateKeep) lateKeep) = none ∧
    (carryOut sysStateOp lateKeep (release (keep lateKeep) lateKeep)).st.isSome = true ∧
    sysStateOp.agree lateKeep (release (keep lateKeep) lateKeep) (sysStateOp.run lateKeep (release (keep lateKeep) lateKeep)).s = true ∧
    runs (.sysState lateKeep) (keep lateKeep) (fun t => done lateKeep .late up t && t.plane.status.late) = true :=
  ⟨rfl, by decide +kernel⟩

theorem witness_tick : PlaneQuiet up ∧ up.wallTick + 1 < 2 ^ 48 ∧
    runs .tick up (fun t => t.now == 1 && t.wallTick == 16001 && (vget t.plane.halls 2).count == 1 && t.plane.frame.lin == 16001) = true := by decide +kernel

theorem witness_crystalLoss : up.plane.running = true ∧ up.plane.rcClock = false ∧
    runs .crystalLoss up (fun t => t.plane.status.clockLoss && t.plane.tick == 16000 && t.plane.rcClock) = true := by decide +kernel

/-- The last tick of an epoch. -/
def lastTick : State := up.onPlane fun q => { q with
  tick := 2 ^ 48 - 1, landings := Vector.replicate 10 { streams := Vector.replicate 9 { joined := true, progress := 2 ^ 48 }, released := 2 ^ 48 - 1 } }

theorem witness_epochRollover : PlaneQuiet lastTick ∧ lastTick.wallTick = 2 ^ 48 - 1 ∧ runs .epochRollover lastTick
    (fun t => t.plane.tick == 0 && t.plane.epoch == nextEpoch up.store.epoch && t.seq.state == .lantern && t.store.epoch == t.plane.epoch) = true := by
  decide +kernel

/-- Beam has been asked for. -/
def toBeam : State := { up with sleep := { up.sleep with target := some 3, pairStopAt := none } }

theorem witness_beamEntry : PlaneQuiet toBeam ∧ toBeam.seq.state = .lantern ∧ toBeam.sleep.target = some 3 ∧ toBeam.sleep.pairStopAt = none ∧
    toBeam.seq.inReset = false ∧ toBeam.image.bootFail = 0 ∧ bankIn toBeam 2 4 = none ∧
    runs .beamEntry toBeam (fun t => t.plane.tick == 0 && t.seq.state == .beam && t.seq.ready && t.plane.epoch == nextEpoch up.store.epoch) = true := by
  decide +kernel

/-- Every stream has reported up to tick 15,999 only, and every landing stands there. -/
def behind : State := up.onPlane fun q => { q with landings := vmapIdx q.landings fun _ x => { x with
  released := 15990, streams := Vector.replicate 9 { joined := true, progress := 15990 } } }

theorem witness_progress : mayReport behind 1 2 15995 = true ∧
    runs (.progressReport 1 2 15995) behind (fun t => (vget (vget t.plane.landings 1).streams 2).progress == 15996 &&
      (vget (vget t.plane.landings 1).streams 3).progress == 15990) = true := by decide +kernel

/-- A landing stands at tick `n`, and L0 holds an item of that tick. -/
def standing (l n : Nat) : State :=
  up.onPlane fun q => { q with landings := vmod q.landings l fun x => { x with
    released := n, items := if l = 0 then [{ stamp := ⟨1, n⟩, hall := 6, writes := [(pointAt 81 3, 1)] }] else [] } }

theorem witness_release : landingReady (standing 0 15990) 0 15990 = true ∧ landingReady (standing 9 15990) 9 15990 = true ∧ 15990 < up.wallTick ∧
    15990 < (standing 0 15990).plane.tick ∧ (vget (standing 9 15990).plane.landings 9).released = 15990 ∧
    runs (.landingRelease 0 15990) (standing 0 15990) (fun t => (vget t.plane.landings 0).items.isEmpty && (vget t.plane.landings 0).released == 15991) = true ∧
    runs (.landingRelease 9 15990) (standing 9 15990) (fun t => (vget t.plane.landings 9).released == 15991) = true := by decide +kernel

theorem witness_progressDark : (standing 0 15990).sleep.darkCommit = none := by decide +kernel

/-- A hall without power, and one whose tick is a multiple of 256. -/
def hallOut (h : Nat) : State := up.onPlane fun q => { q with halls := vmod q.halls h fun _ => {} }
def at256 : State := up.onPlane fun q => { q with tick := 16128, halls := vmod q.halls 2 fun x => { x with dropped := true, count := 5 } }

theorem witness_hallLeave : (vget (hallOut 8).plane.halls 8).on = false ∧
    runs (.hallLeave 8) (hallOut 8) (fun t => !(vget (vget t.plane.landings 0).streams 8).joined) = true := by decide +kernel

theorem witness_hallJoin : at256.wallTick % 256 = 0 ∧ ¬ (2 = 7 ∧ (vget at256.plane.halls 2).dropped = true) ∧
    runs (.hallJoin 2) at256 (fun t => (vget (vget t.plane.landings 1).streams 2).joined && (vget t.plane.halls 2).count == 16128) = true := by decide +kernel

/-- A stream of hall `h` has stopped at tick 15,000. -/
def lagging (h : Nat) : State :=
  up.onPlane fun q => { q with landings := vmapIdx q.landings fun l x => { x with
    released := if (landingInputs l).contains h then 15000 else x.released, streams := vmod x.streams h fun y => { y with progress := 15000 } } }

theorem witness_hallFault : at256.wallTick % 256 = 0 ∧ hallRuns at256 6 = true ∧ at256.seq.inReset = false ∧
    runs (.hallTokenMismatch 6) at256 (fun t => (vget t.plane.halls 6).dropped) = true ∧
    runs (.hallTokenMismatch 1) at256 (fun t => t.seq.inReset && t.ret.cause.cause == 5) = true := by decide +kernel

theorem witness_hallLag : lagsTooFar (lagging 6) 6 = true ∧ readerFeeds (lagging 6) 6 = false ∧ lagsTooFar (lagging 1) 1 = true ∧
    runs (.hallLagFault 6) (lagging 6) (fun t => (vget t.plane.halls 6).dropped) = true ∧
    runs (.hallLagFault 1) (lagging 1) (fun t => t.seq.inReset && t.ret.cause.cause == 5) = true := by decide +kernel

theorem witness_keeperReaches : keeperReaches earlyKeep (keep earlyKeep) = true ∧ keeperReaches (kp 0x105) (keep (kp 0x105)) = true ∧
    keeperReaches lateKeep (keep lateKeep) = true := by decide +kernel

/-- CAPTURE.START with every class, CAPTURE.STOP, and a running capture. -/
def capStartP : Packet := kp 0xF00 [(18, 2, 0xFE), (20, 2, 0xC001)]
def capStopP : Packet := kp 0xF01 [] 2
def capturing (s : State := up) : State := s.onPlane fun q => { q with capture := { running := true, classMask := 0xFE, interval := 8000, startLin := 8000, checkLin := 8000 } }

theorem witness_captureStart : KeeperRuns captureStartOp capStartP (keep capStartP) ∧ (keep capStartP).store.capArm.armed = false ∧
    (keep capStartP).plane.capture.running = false ∧ (keep capStartP).plane.replay.running = false ∧ trialRuns (keep capStartP) = false ∧
    capStartP.bit 16 0 = false ∧
    runs (.captureStart capStartP) (keep capStartP) (fun t => done capStartP .ok up t && t.store.capArm.armed && t.store.capArm.cmdMask == 0xC001) = true := by
  decide +kernel

/-- CAPTURE.START with START_NOW and WRAP to the capture area. -/
def capNowP : Packet := kp 0xF00 [(16, 1, 5), (18, 2, 0xFE), (20, 2, 0xC001)]

theorem witness_captureStart_now : KeeperRuns captureStartOp capNowP (keep capNowP) ∧ (keep capNowP).store.capArm.armed = false ∧
    (keep capNowP).plane.capture.running = false ∧ trialRuns (keep capNowP) = false ∧ capNowP.bit 16 0 = true ∧ capNowP.bit 16 1 = false ∧
    capNowP.bit 16 2 = true := by decide +kernel

theorem witness_captureStop : let s := (keep capStopP).onStore fun st => { st with capArm := { armed := true } }
    KeeperRuns captureStopOp capStopP s ∧ s.plane.capture.running = false ∧
    runs (.captureStop capStopP) s (fun t => done capStopP .ok up t && !t.store.capArm.armed) = true := by decide +kernel

theorem witness_captureStop_running : let s := capturing (keep capStopP)
    KeeperRuns captureStopOp capStopP s ∧ s.plane.capture.running = true ∧ s.plane.capture.closing = false ∧
    runs (.captureStop capStopP) s (fun t => t.plane.capture.running && t.plane.capture.closing && (vget t.plane.landings 9).items.length == 1) = true := by
  decide +kernel

theorem witness_checkpoint : let s := capturing
    s.plane.capture.running = true ∧ s.plane.capture.closing = false ∧ 0 < s.plane.capture.interval ∧ s.plane.capture.checkLin < s.plane.lin ∧
    (s.plane.lin - s.plane.capture.startLin) % s.plane.capture.interval = 0 ∧
    runs .captureCheckpoint s (fun t => (vget t.plane.landings 9).items.length == 1 && t.plane.capture.checkLin == 16000) = true := by decide +kernel

/-- A running capture whose sink is ring 63. -/
def toRing63 : State := (capturing (up.onRing 63 fun g => { g with base := 0x44001000, sizeLog2 := 5, enabled := true })).onPlane fun q =>
  { q with capture := { q.capture with sink63 := true } }

/-- L9 stands at tick 15,990 and holds one record. -/
def captured (r : CapRecord) (s : State) : State :=
  s.onPlane fun q => { q with landings := vmod q.landings 9 fun x => { x with
    released := 15990, items := [{ stamp := ⟨1, 15990⟩, hall := 3, caps := [r] }] } }

/-- CAPTURE.STOP waits for its STOP mark. -/
def stopsCapture : State := (captured { cls := 0xF, value := 2 } (capturing)).onPlane fun q => { q with
  capture := { q.capture with closing := true, stopPacket := some (capStopP, ⟨1, 15990⟩, []) } }

theorem witness_capRelease : landingReady (captured {} capturing) 9 15990 = true ∧ (captured {} capturing).plane.capture.gapDue = 0 ∧
    (captured {} capturing).plane.capture.areaBytes + ({} : CapRecord).size + 48 ≤ captureArea ∧
    isStopMark {} = false ∧ isStopMark { cls := 0xF, value := 2 } = true ∧
    runs (.landingRelease 9 15990) (captured {} capturing) (fun t => t.plane.capture.area == [{}] && t.plane.capture.running) = true ∧
    landingReady stopsCapture 9 15990 = true ∧
    runs (.landingRelease 9 15990) stopsCapture (fun t => !t.plane.capture.running && t.plane.capture.stopped && done capStopP .ok up t) = true ∧
    landingReady (captured {} toRing63) 9 15990 = true ∧ ((captured {} toRing63).ring 63).size ≠ 0 ∧
    (0 + ({} : CapRecord).size) / 64 ≤ ((captured {} toRing63).ring 63).room ∧
    runs (.landingRelease 9 15990) (captured {} toRing63) (fun t => t.plane.capture.records == 1 && t.plane.capture.tailBytes.length == 16) = true := by
  decide +kernel

/-- REPLAY.RUN with the host as its source, and with the capture area. -/
def replayP (src : Nat) : Packet := kp 0xF02 [(16, 1, src)] 2
/-- A START mark in the capture area, with digests of byte `v`, or with a list in their place. -/
def startRec (v : Byte := 1) : CapRecord := { cls := 15, value := 1, payload := List.replicate 1152 v }

def startOf (d : List Byte) : CapRecord :=
  { cls := 15, value := 1, payload := (List.range 128).map (fun i => d.getD i 0) ++ List.replicate 1024 0 }

/-- 128 bytes are the list of their values. -/
theorem range_getD (d : List Byte) (h : d.length = 128) : (List.range 128).map (fun i => d.getD i 0) = d := by
  apply List.ext_getElem
  · simp [h]
  · intro i h1 h2
    simp [List.getD_eq_getElem?_getD, List.getElem?_eq_getElem h2]

def withArea (l : List CapRecord) (s : State) : State := s.onPlane fun q => { q with capture := { q.capture with area := l } }

/-- REPLAY.RUN is unlocked (R43), and ring 63 enabled. -/
def mayReplay (p : Packet) (l : List CapRecord) : State :=
  let s := withArea l (keep p (up.onRing 63 fun g => { g with base := 0x44001000, sizeLog2 := 5, enabled := true }))
  { s with image := { s.image with dbg := { s.image.dbg with scope := some 2 } } }

theorem witness_replayRun_host : let s := mayReplay (replayP 1) []
    KeeperRuns replayRunOp (replayP 1) s ∧ s.plane.capture.running = false ∧ s.plane.replay.running = false ∧ trialRuns s = false ∧
    (replayP 1).bit 16 0 = true ∧
    runs (.replayRun (replayP 1)) s (fun t => t.plane.replay.running && t.plane.replay.fromHost) = true := by decide +kernel

/-- A START mark with the digests of the present state. -/
def sameRec : CapRecord := startOf (startDigests (mayReplay (replayP 0) []))

/-- REPLAY.RUN may replay an area of one record. -/
abbrev ReplaysArea (r : CapRecord) : Prop :=
  let s := mayReplay (replayP 0) [r]
  KeeperRuns replayRunOp (replayP 0) s ∧ s.plane.capture.running = false ∧ s.plane.replay.running = false ∧ trialRuns s = false ∧
    (replayP 0).bit 16 0 = false ∧ s.plane.running = true ∧ s.seq.resetDue = [] ∧ s.seq.inReset = false ∧ s.image.bootFail = 0 ∧ bankIn s 2 4 = none

theorem witness_replayRun_area : ReplaysArea (startRec 1) ∧ ReplaysArea (startRec 2) ∧ ReplaysArea sameRec ∧
    (mayReplay (replayP 0) [sameRec]).plane.capture.area = [sameRec] := by
  refine ⟨?_, ?_, ?_, rfl⟩ <;> decide +kernel

theorem bankDigest_length (s : State) (b : Nat) : (bankDigest s b).length = 32 := by
  simp only [bankDigest]; split <;> simp [imageDigest, shake256_length]

theorem startDigests_length (s : State) : (startDigests s).length = 128 := by
  simp only [startDigests, replayDigest, List.length_append, shake256_length, bankDigest_length]

theorem witness_replayDigests : (∃ v ∈ [1, 2], (startRec v).payload.take 128 ≠ startDigests (mayReplay (replayP 0) [startRec v])) ∧
    sameRec.payload.take 128 = startDigests (mayReplay (replayP 0) [sameRec]) ∧ (startRec 1).payload.length = 1152 ∧ sameRec.payload.length = 1152 := by
  refine ⟨?_, ?_, by decide +kernel, by decide +kernel⟩
  · by_cases h : (startRec 1).payload.take 128 = startDigests (mayReplay (replayP 0) [])
    · refine ⟨2, by decide, fun h2 => ?_⟩
      have h3 : startDigests (mayReplay (replayP 0) [startRec 2]) = startDigests (mayReplay (replayP 0) []) := rfl
      rw [h3, ← h] at h2
      exact absurd h2 (by decide +kernel)
    · exact ⟨1, by decide, h⟩
  · show (((List.range 128).map fun i => (startDigests (mayReplay (replayP 0) [])).getD i 0) ++ List.replicate 1024 (0 : Byte)).take 128 =
      startDigests (mayReplay (replayP 0) [])
    have h := startDigests_length (mayReplay (replayP 0) [])
    rw [range_getD _ h, List.take_append_of_le_length (by rw [h]), List.take_of_length_le (by rw [h])]

/-- A replay that reads the capture area, or ends. -/
def pointRec : CapRecord := { stamp := ⟨1, 15990⟩, cls := 1, hall := 6, word := pointAt 81 3, value := 1 }
def replaying (l : List CapRecord) (live : Bool) : State :=
  up.onPlane fun q => { q with replay := { running := true, begun := true, live := live, rest := l } }

theorem witness_recordRead : let s := replaying [pointRec] false
    s.plane.replay.running = true ∧ s.plane.replay.stopRead = false ∧ s.plane.replay.begun = true ∧ s.plane.replay.fromHost = false ∧
    s.plane.replay.rest = [pointRec] ∧ recordBad pointRec = false ∧ pointRec.stamp.tick ≤ s.plane.tick ∧
    runs .replayRecordRead s (fun t => t.plane.replay.records == 1 && t.plane.replay.rest.isEmpty && (vget t.plane.landings 0).items.length == 1) = true := by
  decide +kernel

theorem witness_readerLag : let s := replaying [{ pointRec with stamp := ⟨1, 15900⟩ }] true
    (nextRecord s).isSome = true ∧ s.plane.replay.live = true ∧ 15900 + 100 = s.wallTick ∧ 64 < 100 ∧
    runs (.replayReaderLag 100) s (fun t => !t.plane.replay.running) = true := by decide +kernel

theorem witness_replayEnd : let s := up.onPlane fun q => { q with replay := { running := true, begun := true, stopRead := true } }
    replayDone s = true ∧ runs .replayEnd s (fun t => !t.plane.replay.running) = true := by decide +kernel

theorem witness_vbatlWarn : 7900 < 100 * up.store.sys.vbatlWarn ∧ up.seq.warn = false ∧ up.seq.powered = true ∧
    runs (.vbatlBelowWarn 7900) up (fun t => t.seq.warn && (vget t.plane.landings 0).items.length == 1) = true ∧
    100 * up.store.sys.vbatlWarn + 500 < 8501 ∧
    runs (.vbatlAboveWarn 8501) { up with seq := { up.seq with warn := true } } (fun t => !t.seq.warn) = true := by decide +kernel

theorem witness_warnSeals : let s := up.onStore fun st => { st with log := { st.log with opened := some {} } }
    let s2 := s.onPlane fun q => { q with landings := vmod q.landings 5 fun x => { x with
      released := 15990, items := [{ stamp := ⟨1, 15990⟩, hall := 0, warn := true }] } }
    feedsL5 s 0 = true ∧
    runs (.vbatlBelowWarn 7900) s (fun t => (vget t.plane.landings 5).items.map (fun it => (it.warn, it.stamp.tick)) == [(true, 16004)]) = true ∧
    landingReady s2 5 15990 = true ∧ itemDue s2 15990 ⟨1, 15990⟩ = true ∧ s2.store.log.opened = some {} ∧
    runs (.landingRelease 5 15990) s2 (fun t => (t.store.log.opened.map (·.closing)) == some (some 4)) = true := by decide +kernel

theorem witness_vbatlLogicReset : up.seq.inReset = false ∧ runs (.vbatlLogicReset 5499) up (fun t => t.seq.inReset && t.ret.cause.cause == 2 && !t.plane.running) = true ∧
    (let s := { up with seq := { up.seq with inReset := true, starting := true } }
     runs (.vbatlLogicReset 5499) s (fun t => t.seq.supplyReset && !t.seq.starting) = true) ∧
    runs (.logicResetRelease 6001) { up with seq := { up.seq with inReset := true, supplyReset := true } } (fun t => !t.seq.supplyReset && t.seq.starting) = true := by
  decide +kernel

theorem witness_vbatlColdReset : runs (.vbatlColdReset 4499) up (fun t => !t.seq.powered && !t.seq.core && t.ret.cause.cause == 1) = true ∧
    runs (.powerDieStart 5001) { up with seq := { up.seq with core := false } } (fun t => t.seq.core) = true := by decide +kernel

theorem witness_starts : State.reset.seq.powered = false ∧ KeeperBoots State.reset 0 ∧
    restartDue { up with seq := { up.seq with inReset := true } } = true ∧ KeeperBoots { up with seq := { up.seq with inReset := true } } 0 := by decide +kernel

/-- The device is in Dark or Buoy and moves to `n`. -/
def entering (st : DevState) (n : Nat) : State :=
  { State.reset with seq := { powered := true, core := true, state := st }, sleep := { State.reset.sleep with target := some n } }

theorem witness_stateEntry : (entering .dark 1).seq.inReset = false ∧ KeeperBoots (entering .dark 1) 0 ∧ KeeperBoots (entering .dark 2) 0 ∧
    KeeperBoots (entering .dark 3) 0 ∧ (entering .buoy 3).image.dead = false ∧ (entering .buoy 2).image.dead = false ∧
    runs (.stateEntry 1) (entering .dark 1) (fun t => t.seq.state == .buoy && domainOn t 2) = true ∧
    runs (.stateEntry 2) (entering .dark 2) (fun t => t.seq.state == .lantern && t.seq.ready && t.plane.running) = true ∧
    runs (.stateEntry 2) (entering .buoy 2) (fun t => t.seq.state == .lantern && t.plane.running) = true := by decide +kernel

theorem witness_keeperResets : keeperRuns up = true ∧ runs .keeperLockstepMismatch up (fun t => t.seq.inReset && t.ret.cause.cause == 7) = true ∧
    runs .keeperWatchdog up (fun t => t.ret.cause.cause == 8) = true ∧ runs (.resetNLow 10000) up (fun t => t.ret.cause.cause == 3) = true := by decide +kernel

/-- The application pairs are stopping. -/
def stopping : State := { up with sleep := { up.sleep with pairStopAt := some 90000 } }

/-- An application pair stops, and pair 1 runs a candidate. -/
theorem witness_pairMismatch : pairRuns stopping 0 = true ∧ stopping.image.trial.state ≠ 2 ∧
    runs (.pairLockstepMismatch 0) stopping (fun t => t.plane.running) = true ∧
    (let s := { stopping with image := { stopping.image with trial := { state := 2 } } }
     pairRuns s 1 = true ∧ runs (.pairLockstepMismatch 1) s (fun t => t.image.trial.state == 3 && t.image.trial.cause == 6) = true) := by decide +kernel

/-- A condition of bank 1. -/
def bank1 (f : Bank → Bank) : State := { up with load := { up.load with bank := vmod up.load.bank 1 f } }

theorem witness_bankBelowWarn : (bankAt up 1).sag = false ∧ 16900 < 100 * (bankCfg up 1).warn ∧
    runs (.bankBelowWarn 1 16900) up (fun t => (bankAt t 1).sag && (vget t.plane.landings 0).items.length == 2) = true := by decide +kernel

theorem witness_shed : 1 ≤ 2 ∧ (bankAt up 1).shed.testBit 2 = false ∧ 9000 < 100 * (bankCfg up 1).t 2 ∧
    runs (.shedCountExpiry 1 2 9000) up (fun t => (bankAt t 1).shed.testBit 2) = true := by decide +kernel

theorem witness_shedRecovery : let s := bank1 fun b => { b with shed := 4 }
    (bankAt s 1).shed.testBit 2 = true ∧ 100 * (bankCfg s 1).t 2 + 1000 < 20000 ∧
    runs (.shedRecovery 1 2 20000) s (fun t => !(bankAt t 1).shed.testBit 2) = true := by decide +kernel

/-- Bank D drops out, goes beyond its limit and below its level T3. -/
theorem witness_bankD : bankOf 40 < 4 ∧ (bankAt up 3).shed.testBit 3 = false ∧ 5000 < 100 * (bankCfg up 3).t 3 ∧
    runs (.bankDropout 3 5999) up (fun t => (hbOf t 4).cond.holds.testBit 1 && (feedOf t 1).cond.holds.testBit 1) = true ∧
    runs (.bankOvervolt 3 52001) up (fun t => (hbOf t 4).cond.holds.testBit 2) = true ∧
    runs (.shedCountExpiry 3 3 5000) up (fun t => (hbOf t 4).cond.holds.testBit 3) = true ∧
    runs (.shedCountExpiry 3 0 5000) up (fun t => (bankAt t 3).shed.testBit 0) = true := by decide +kernel

theorem witness_bankLimits : (bankAt up 1).drop = false ∧ (bankAt up 1).overV = false ∧
    runs (.bankDropout 1 5999) up (fun t => (bankAt t 1).drop && (shedOutputs 1).all fun c => (outCond t c).holds.testBit 1) = true ∧
    runs (.bankOvervolt 1 52001) up (fun t => (bankAt t 1).overV) = true := by decide +kernel

theorem witness_bankRecovery : runs (.bankWarnRecovery 1 18001) (bank1 fun b => { b with sag := true }) (fun t => !(bankAt t 1).sag) = true ∧
    100 * (bankCfg up 1).warn + 1000 < 18001 ∧
    runs (.dropoutRecovery 1 7001) (bank1 fun b => { b with drop := true }) (fun t => !(bankAt t 1).drop) = true ∧
    runs (.overvoltRecovery 1 50999) (bank1 fun b => { b with overV := true }) (fun t => !(bankAt t 1).overV) = true ∧
    (let s := (bank1 fun b => { b with resumeQ := [(20, 3)] }).onChan 20 fun c => { c with cmd := 65535 }
     (chanOf s 20).cond.free = true ∧ d12 (chanOf s 20).cmd ≠ 0 ∧ (chanOf s 20).driving = false ∧ (chanOf s 20).retryAt = none ∧
     runs (.resumeQueueStep 1) s (fun t => (bankAt t 1).resumeQ.isEmpty && (bankAt t 1).resumeAt == 32 && (chanOf t 20).driving) = true) := by
  decide +kernel

theorem witness_bankMeasures : runs (.diagnosisLimit 1 40001) up (fun t => (bankAt t 1).diagOff) = true ∧
    runs (.diagnosisLimit 1 38999) up (fun t => !(bankAt t 1).diagOff) = true ∧
    runs (.bankDip 1 7900) up (fun t => (bankAt t 1).dip == decide (7900 < 100 * (bankCfg up 1).dip)) = true ∧
    100 ≤ (bankCfg up 1).dip * 100 ∧
    runs (.bankDip 1 20000) (bank1 fun b => { b with dip := true }) (fun t => !(bankAt t 1).dip) = true ∧
    runs (.voltagePointRewrite 1 12000) up (fun t => (bankAt t 1).written == 1200) = true ∧
    runs (.voltagePointRewrite 4 12000) up (fun t => t.seq.vbatlWritten == 1200) = true := by decide +kernel

/-- A window of a channel of bank 1 while the bank dips. -/
theorem witness_dipWindow : bankOf 20 < 4 ∧
    runs (.bankDip (bankOf 20) 1000) { up with load := { up.load with ch := vmod up.load.ch 20 fun c => { c with window := some { ends := 100 } } } }
      (fun t => ((chanOf t 20).window.map (·.frozen.isSome)) == some true) = true := by decide +kernel

/-- The internal link runs, or holds. -/
def linked (f : Link → Link := id) : State := { up with link := f { up.link with synced := true, count := 10, applied := 8 } }
def onCh (k : Nat) (f : Chan → Chan) (s : State := up) : State := s.onChan k f

theorem witness_l2 : (linked).link.hold = false ∧ ({ crcOk := false } : L2Frame).crcOk = false ∧
    runs (.l2FrameRx { crcOk := false }) (linked) (fun t => t.link.discarded == 1) = true ∧
    runs (.l2FrameRx { lin := 10, ticks := [⟨9, [(pointAt 80 3, 65535)]⟩] }) (linked) (fun t => t.link.applied == 10 && (chanOf t 3).cmd == 65535) = true ∧
    runs (.l2FrameRx { adopt := true, snapshot := 1 }) (linked fun l => { l with hold := true }) (fun t => !t.link.hold) = true ∧
    runs (.l2FrameRx { adopt := true, snapshot := 2 }) (linked fun l => { l with hold := true }) (fun t => t.link.hold && t.link.discarded == 1) = true := by
  decide +kernel

/-- H7 has been dropped. -/
def s7 : State := up.onPlane fun q => { q with halls := vmod q.halls 7 fun x => { x with dropped := true } }

theorem witness_hold : runs .holdEntry (linked fun l => { l with missed := 8 }) (fun t => t.link.hold) = true ∧
    (let s := { linked (fun l => { l with hold := true }) with now := 16000000 }
     s.link.holdFrom + s.link.holdForce * 800000 ≤ s.now ∧ s.link.failApplied = false ∧ (vget s.store.load.fail 3).mode < 4 ∧
     (chanOf s 3).forced = false ∧ (chanOf s 3).cond.free = true ∧ (chanOf s 3).retryAt = none ∧
     runs .holdTimerExpiry s (fun t => t.link.failApplied) = true) ∧
    (vget s7.plane.halls 7).dropped = true ∧ runs .internalLinkRetrain s7 (fun t => !(vget t.plane.halls 7).dropped) = true ∧
    runs .adoption (linked fun l => { l with hold := true }) (fun t => !t.link.hold && t.plane.frame.adopt) = true := by decide +kernel

theorem witness_inrush : runs (.inrushWindowEnd 3 false 1000) (onCh 3 fun c => { c with window := some { ends := 0 }, retriesDone := 2 })
      (fun t => (chanOf t 3).window.isNone && (chanOf t 3).retriesDone == 0) = true ∧
    1000 ≤ classLimit (classOf 3) ∧ ({ ends := 0 } : Window).endAt 0 ≤ up.now ∧
    runs (.inrushWindowEnd 3 true 0) (onCh 3 fun c => { c with window := some { ends := 0 }, driving := true })
      (fun t => !(chanOf t 3).driving && (chanOf t 3).cond.locks.testBit 11) = true := by decide +kernel

/-- A channel drives full on. -/
def drives (k : Nat) : State := onCh k fun c => { c with cmd := 65535, duty := 4095, driving := true }

theorem witness_shorts : (chanOf (drives 3) 3).driving = true ∧ (chanOf (drives 3) 3).window = none ∧
    800 ≤ limitCount [⟨true, true, 800⟩] (chanOf (drives 3) 3).limitTicks ∧ limitCount [⟨true, true, 700⟩, ⟨true, false, 1⟩, ⟨true, true, 799⟩] 0 < 800 ∧
    runs (.overloadCountExpiry ⟨3, [⟨true, true, 800⟩]⟩) (drives 3) (fun t => (chanOf t 3).cond.locks.testBit 7) = true ∧
    runs (.overloadCountExpiry ⟨3, [⟨true, true, 799⟩]⟩) (drives 3) (fun t => (chanOf t 3).driving && (chanOf t 3).limitTicks == 799) = true ∧
    hardShortMa (classOf 3) < 500000 ∧
    runs (.hardShort ⟨⟨0, 3⟩, 500000⟩) (drives 3) (fun t => (chanOf t 3).cond.locks.testBit 7) = true ∧
    runs (.retryTimerExpiry 3) (onCh 3 fun c => { c with cmd := 65535, retryAt := some 0 }) (fun t => (chanOf t 3).driving) = true := by decide +kernel

theorem witness_clamp : eventFigure (classOf 3) < 250001 ∧ 1000 ≤ eventFigure (classOf 3) ∧
    windowEnergy up.now (addEnergy up.now 1000 (chanOf up 3).clamp) < windowFigure (classOf 3) ∧
    windowEnergy up.now (addEnergy up.now 1000 (bankAt up (bankOf 3)).clamp) < 1000000 ∧
    runs (.clampEventEnd ⟨0, 3⟩ 250001) (drives 3) (fun t => (chanOf t 3).cond.locks.testBit 4) = true ∧
    runs (.clampEventEnd ⟨0, 3⟩ 1000) (drives 3) (fun t => (chanOf t 3).driving && windowEnergy 0 (chanOf t 3).clamp == 1000) = true ∧
    runs (.thermalShutdown ⟨0, 3⟩) (drives 3) (fun t => (chanOf t 3).cond.holds.testBit 6) = true ∧
    runs (.thermalShutdown ⟨0, 3⟩) (onCh 3 (fun c => { c with restarts := 16 }) (drives 3)) (fun t => (chanOf t 3).cond.locks.testBit 6) = true ∧
    runs (.thermalRestart ⟨0, 3⟩) (onCh 3 fun c => { c with cmd := 65535, cond := { c.cond with holds := 64 } })
      (fun t => (chanOf t 3).restarts == 1 && (chanOf t 3).driving) = true ∧
    runs (.thermalRestart ⟨0, 3⟩) (onCh 3 fun c => { c with cond := { c.cond with holds := 64 } }) (fun t => (chanOf t 3).restarts == 0) = true ∧
    runs (.restartCountReset ⟨0, 3⟩) { onCh 3 (fun c => { c with restarts := 5 }) with now := 80000000 } (fun t => (chanOf t 3).restarts == 0) = true := by
  decide +kernel

theorem witness_manager : let th : Thermals := { pAvg := 1000000, pNow := 1000000 }
    let s := drives 3
    (nextCut s (cutReasons s.load.mgr th)).map (·.2) = some 3 ∧
    runs (.thermalManagerCut th 5000 1000) s (fun t => t.load.mgr.cuts.map (·.ch) == [3] && !(chanOf t 3).driving) = true := by decide +kernel

theorem witness_managerReturn : let s := { up with load := { up.load with mgr := { up.load.mgr with cuts := [{ ch := 3, detail := 1, mW := 0, mA := 0 }] } } }
    returnFits {} { ch := 3, detail := 1, mW := 0, mA := 0 } = true ∧
    runs (.thermalManagerReturn {}) s (fun t => t.load.mgr.cuts.isEmpty && t.load.mgr.lastReturn == some 0) = true := by decide +kernel

/-- The diagnosis domain is on. -/
def diagnosed (s : State) : State := { s with seq := { s.seq with pd := s.seq.pd ||| 256 } }

theorem witness_onStateOpen : openNotPossible (diagnosed (drives 3)) 3 = false ∧ (chanCfg (drives 3) 3).olOn ≠ 0 ∧ (chanOf (drives 3) 3).pwm = false ∧
    runs (.onStateOpenCheck 3 0) (diagnosed (drives 3)) (fun t => vget (chanOf t 3).ol.opens 0 == 1) = true := by decide +kernel

theorem witness_offState : openNotPossible (diagnosed up) 3 = false ∧ (chanCfg up 3).olOff = true ∧ offPhaseFits (diagnosed up) 3 = true ∧
    runs (.offStateCheck 3 true true false) (diagnosed up) (fun t => vget (chanOf t 3).ol.opens 1 == 0 && (chanOf t 3).cond.active.testBit 9) = true ∧
    runs (.offStateCheck 3 true false false) (diagnosed up) (fun t => vget (chanOf t 3).ol.opens 1 == 1) = true := by decide +kernel

theorem witness_stretch : let s := diagnosed (onCh 3 (fun c => { c with cmd := 160, duty := 10, driving := true, periods := 256 })
        (up.onStore fun st => { st with load := { st.load with ch := vmod st.load.ch 3 fun c => { c with olOff := false } } }))
    stretchInUse s 3 = true ∧ openNotPossible s 3 = false ∧ (chanOf s 3).stretchAt + (chanCfg s 3).stretchN ≤ (chanOf s 3).periods ∧
    runs (.stretchPhase 3 5) s (fun t => (chanOf t 3).stretchAt == 256 && (chanOf t 3).debt == 383) = true := by decide +kernel

theorem witness_backfeed : let s := diagnosed (up.onStore fun st => { st with load := { st.load with ch := vmod st.load.ch 3 fun c => { c with olOff := false } } })
    (chanCfg s 3).olOff = false ∧ (bankAt s (bankOf 3)).diagOff = false ∧ pd8On s = true ∧ (chanOf s 3).driving = false ∧
    runs (.backfeedCheck 3 true true) s (fun t => (chanOf t 3).cond.active.testBit 9) = true := by decide +kernel

theorem witness_reverse : runs (.reverseCurrent 3) (drives 3) (fun t => (chanOf t 3).forced && (chanOf t 3).cond.active.testBit 10 && chanOn t 3) = true ∧
    runs (.reverseEnd 3) (onCh 3 fun c => { c with cond := { c.cond with active := 1024 } }) (fun t => !(chanOf t 3).cond.active.testBit 10) = true := by
  decide +kernel

/-- Channel 0 drives at its period's start; a forced one whose command is 0 turns off there. -/
theorem witness_period : (let s := onCh 0 fun c => { c with cmd := 160, duty := 9, driving := true }
     periodPos (gridOf s 0).1 (gridOf s 0).2 s.now = 0 ∧ (chanOf s 0).wants = true ∧ (chanOf s 0).forced = false ∧
     runs (.pwmPeriodStart ⟨0, 0⟩) s (fun t => (chanOf t 0).duty == 10 && (chanOf t 0).driving) = true) ∧
    (let s := onCh 0 fun c => { c with cmd := 0, duty := 4095, driving := true, forced := true }
     (chanOf s 0).cond.active.testBit 10 = false ∧ d12 (chanOf s 0).cmd = 0 ∧
     runs (.pwmPeriodStart ⟨0, 0⟩) s (fun t => !(chanOf t 0).driving && !(chanOf t 0).forced) = true) ∧
    runs .clampWindowBinExpiry up (fun t => (chanOf t 3).clamp.isEmpty) = true := by decide +kernel

/-- LOAD.SET of one channel, LOAD.CONFIG of one channel, LOAD.DIAG with CLEAR, LOAD.UNLOCK with RESTORE, LOAD.FAILSTATE and LOAD.SHED. -/
def setP : Packet := fp 0x200 [(16, 1, 1), (24, 1, 3), (26, 2, 65535)]
def diagP : Packet := kp 0x202 [(16, 1, 3), (17, 1, 1), (18, 1, 1)] 2
def unlockP : Packet := kp 0x203 [(16, 7, 8), (24, 1, 1)]
def failP : Packet := kp 0x204 [(18, 2, 50)]
def shedReadP : Packet := kp 0x205 [(16, 1, 1)] 2
def shedP : Packet := kp 0x205 [(56 + 3, 1, 0x82)] 2

theorem witness_loadSet : FastRuns loadSetOp setP (wait setP) ∧ loadSetEntries setP = [(3, 65535)] ∧ heldByAction (wait setP) (pointAt 80 3) = false ∧
    (wait setP).points.now = [] ∧ Tbl.wf 0 (wait setP).points.mem = true ∧
    runs (.loadSet setP) (wait setP) (fun t => pget t (pointAt 80 3) == 65535) = true := by decide +kernel

theorem witness_loadDiag : KeeperRuns loadDiagOp diagP (keep diagP) ∧ diagP.bit 18 0 = true := by decide +kernel

theorem witness_loadUnlock : let s := (keep unlockP).onChan 3 fun c => { c with cond := { c.cond with locks := 128, active := 128 } }
    KeeperRuns loadUnlockOp unlockP s ∧ bitList 56 (unlockP.num 16 7) = [3] ∧ unlockable s 3 = true ∧ unlockP.bit 24 0 = true ∧
    runs (.loadUnlock unlockP) s (fun t => done unlockP .ok up t && (chanOf t 3).cond.locks == 0) = true := by decide +kernel

theorem witness_loadFailstate : KeeperRuns loadFailstateOp failP (keep failP) ∧ failP.bit 16 0 = false ∧ failP.num 18 2 = 50 ∧
    runs (.loadFailstate failP) (keep failP) (fun t => t.ret.hold == 50 && t.link.holdTime == 50) = true := by decide +kernel

theorem witness_loadShed : KeeperRuns loadShedOp shedReadP (keep shedReadP) ∧ shedReadP.bit 16 0 = true ∧
    ((List.range 4).all fun b => (bankCfg (keep shedReadP) b).agrees) = true ∧ KeeperRuns loadShedOp shedP (keep shedP) ∧ shedP.bit (56 + 3) 7 = true ∧
    runs (.loadShed shedP) (keep shedP) (fun t => done shedP .ok up t && (vget t.store.load.shed 3).level == 2) = true := by decide +kernel

/-- LOAD.SHED that sets T0 to T1 + 0.4 V in bank 1. -/
def badOrderP : Packet :=
  kp 0x205 [(17, 1, 2), (32, 1, 170), (33, 1, 104), (34, 1, 100), (35, 1, 90), (36, 1, 80), (37, 1, 80)] 2

theorem witness_thresholdOrder : KeeperRuns loadShedOp badOrderP (keep badOrderP) ∧ badOrderP.bit 16 0 = false ∧ badOrderP.bit 17 1 = true ∧
    (bankCfgOf badOrderP 1).t0 < (bankCfgOf badOrderP 1).t1 + 5 ∧
    runs (.loadShed badOrderP) (keep badOrderP) (fun t => done badOrderP .conflict up t && t.store.load == up.store.load) = true := by decide +kernel

/-- LOAD.CONFIG of HS3 with two retries. -/
def configP : Packet := kp 0x201 [(17, 1, 1), (24, 1, 3), (25, 1, 53), (26, 2, 200), (28, 1, 0x23), (29, 1, 10), (30, 2, 10), (32, 2, 256), (34, 1, 5), (35, 1, 100)]

theorem witness_loadConfig : KeeperRuns loadConfigOp configP (keep configP) ∧ configP.bit 16 0 = false ∧ cfgCount configP = 1 ∧
    runs (.loadConfig configP) (keep configP) (fun t => (vget t.store.load.ch 3).retries == 2) = true := by decide +kernel

/-- Ring 0 owned by C2, and device ring 56 by C2 with two records. -/
def owned (s : State := up) : State :=
  (s.onStore fun st => { st with charters := { st.charters with entries := vmod st.charters.entries 2 fun c => { c with enabled := true, cmdRings := 1, eventRings := 1 } } }).onRing 56
    fun g => { g with base := 0x80000000, sizeLog2 := 4, enabled := true, head := 2, tail := 4 }

theorem witness_doorbellSubmit : owned.plane.running = true ∧ mayDoor owned 2 0 = true ∧ (ringOwner (chartersInForce owned) 0).isSome = true ∧
    deviceProduces owned 0 = false ∧ owned.seq.ready = true ∧ 63 < (owned.ring 0).size ∧ 63 ≠ (owned.ring 0).tail ∧
    (vget owned.plane.halls (ringHall owned 0)).dropped = false ∧ (owned.ring 0).overfills 63 = false ∧
    runs (.doorbellSubmit 2 0 63) owned (fun t => (t.ring 0).tail == 63 && (t.ring 0).arrival == owned.wallStamp && !(t.ring 0).baddoor) = true ∧
    runs (.doorbellSubmit 2 0 64) owned (fun t => (t.ring 0).baddoor && (t.ring 0).tail == 4) = true ∧
    (let s := owned.onRing 0 fun g => { g with admitted := [{ slot := 10, slots := 1 }] }
     (s.ring 0).overfills 12 = true ∧ runs (.doorbellSubmit 2 0 12) s (fun t => (t.ring 0).baddoor && (t.ring 0).tail == 4) = true) := by decide +kernel

theorem witness_doorbellConsume : mayDoor owned 2 56 = true ∧ (ringOwner (chartersInForce owned) 56).isSome = true ∧ deviceProduces owned 56 = true ∧
    4 < (owned.ring 56).size ∧ (owned.ring 56).ahead 4 ≤ (owned.ring 56).filled ∧
    runs (.doorbellConsume 2 56 4) owned (fun t => (t.ring 56).head == 4 && (t.ring 56).tail == 4) = true := by decide +kernel

/-- C2 may reach 1 KiB of application SRAM, where ring 0 lies. -/
def sram : State := { (owned (up.onRing 0 fun g => { g with base := 0x80000000 })) with seq := { up.seq with appNeed := 1024 } }

theorem witness_ringSizeWrite : reachesBlock sram 2 0 = true ∧ ownsRing sram 2 0 = true ∧ (sram.ring 0).sizeLog2 ≠ 4 ∧ mayEnable sram 0 4 = true ∧
    mayEnable sram 0 12 = false ∧
    runs (.ringSizeWrite 2 0 4) sram (fun t => (t.ring 0).enabled && (t.ring 0).size == 16 && (t.ring 0).head == 0) = true ∧
    runs (.ringSizeWrite 2 0 0) sram (fun t => !(t.ring 0).enabled && (t.ring 0).size == 0) = true ∧
    runs (.ringSizeWrite 2 0 12) sram (fun t => !(t.ring 0).enabled && (t.ring 0).baddoor) = true := by decide +kernel

/-- The host interface loses VIO and has it again; the boundary-scan port takes IDCODE and EXTEST. -/
theorem witness_pins : runs (.vioLoss 1499) up (fun t => readyLand t == none && !spiUp t) = true ∧
    runs (.vioReturn 1500) { up with pins := {} } (fun t => readyLand t == some true && (irqLand t).isSome) = true ∧
    runs (.tapInstruction 1 false 0) up (fun t => t.pins.tap.out == 0x1726074B) = true ∧
    runs (.tapInstruction 3 true 0) up (fun t => t.pins.tap.acting) = true := by decide +kernel

theorem witness_registers : reachesBlock owned 2 0 = true ∧ ownsRing owned 2 0 = true ∧
    runs (.registerWrite 2 0x40000014 0xC0000) (owned.onRing 0 fun g => { g with baddoor := true, overrun := true })
      (fun t => !(t.ring 0).baddoor && !(t.ring 0).overrun) = true ∧
    runs (.registerWrite 14 0x40002018 0x2000) (up.onPlane fun p => { p with status := { p.status with late := true, overrun := true } })
      (fun t => !t.plane.status.late && t.plane.status.overrun) = true ∧
    runs (.tickNowRead 14) up (fun t => t.plane.status.tickLatch == 0x10000) = true := by decide +kernel

/-- A write frame of one word to the host buffer, and the CRC that belongs to it. -/
def spiW : SpiFrame := { cmd := 2, addr := 0x44000010, length := 4, data := [1, 2, 3, 4] }
def spiGood : SpiFrame := { spiW with crc := crc16 (spiHeader spiW ++ padTo 4 spiW.data) }

theorem witness_hostSpiWrite : spiUp up = true ∧ spiW.crc ≠ crc16 (spiHeader spiW ++ padTo 4 spiW.data) ∧
    spiGood.crc = crc16 (spiHeader spiGood ++ padTo 4 spiGood.data) ∧ spiAck up spiGood = 0 ∧ Tbl.wf 0 up.mem = true ∧
    runs (.hostSpiWrite spiW) up (fun t => t.pins.spiOut == [1] && t.mem == []) = true ∧
    runs (.hostSpiWrite spiGood) up (fun t => t.pins.spiOut == [0] && memReadN t 0x44000010 4 == [1, 2, 3, 4]) = true := by decide +kernel

theorem witness_hostSpiRead : spiAck up { spiW with cmd := 0x0B } = 0 ∧
    runs (.hostSpiRead { spiW with cmd := 0x0B }) (memWriteN up 0x44000010 [1, 2, 3, 4]) (fun t => t.pins.spiOut.take 5 == [0, 1, 2, 3, 4]) = true ∧
    runs (.hostSpiRead { cmd := 0x0B, addr := 0x40002008, length := 8 }) up
      (fun t => t.plane.status.tickLatch == 0x10000 && t.pins.spiOut.take 9 == [0, 0x80, 0x3E, 0, 0, 0, 0, 1, 0]) = true := by decide +kernel

/-- A flight of one SYS.CONFIG that writes 9.0 V, and one with a value outside Table 03.21. -/
def member (v : Nat) : Packet := packet 0x105 1 8000 [(2, 1, 0x0C), (17, 1, 1), (24, 2, 1), (28, 4, v)]
def flying (v : Nat) : State :=
  (keep (member v)).onRing 0 fun g => { g with flights := [{ members := [member v], complete := true, endArrival := ⟨1, 8000⟩ }] }

def theFlight (v : Nat) : Flight := { members := [member v], complete := true, endArrival := ⟨1, 8000⟩ }
/-- The keeper has finished the flight. -/
def flown (v : Nat) : State := (keep (member v)).onRing 0 fun g => { g with flights := [{ theFlight v with finished := true }] }

/-- The keeper's work on the flight leaves it finished. -/
theorem finish_flying : finishFlight (flying 90) 0 = flown 90 ∧ finishFlight (flying 9) 0 = flown 9 := ⟨rfl, rfl⟩

theorem witness_flightApply : 0 ∈ turnRings (flying 90) ∧ freshTick (flying 90) = true ∧ OnlyFlight (flying 90) 0 (theFlight 90) ∧
    flightDue (flying 90) (theFlight 90) = (flying 90).plane.tick ∧
    firstFailure (flown 90) { theFlight 90 with finished := true } = none ∧
    (flightEnd { theFlight 90 with finished := true } (theFlight 90).members (flown 90)).any
      (flightAgrees { theFlight 90 with finished := true } (flown 90)) = true ∧
    (foldFlight { theFlight 90 with finished := true } (theFlight 90).members (keepSettings (flown 90)) []).2.length = 1 ∧
    runs (.flightApply 0) (flying 90) (fun t => done (member 90) .ok up t && t.store.sys.vbatlWarn == 90) = true := by decide +kernel

theorem witness_flightWaits : let s := (flying 90).onPlane fun q => { q with tick := 9000 }
    s.plane.tick < flightDue s (theFlight 90) ∧ OnlyFlight s 0 (theFlight 90) ∧
    runs (.flightApply 0) s (fun t => (t.ring 0).flights == [{ theFlight 90 with finished := true }]) = true := by decide +kernel

theorem witness_flightApply_rejected : OnlyFlight (flying 9) 0 (theFlight 9) ∧
    flightDue (flying 9) (theFlight 9) = (flying 9).plane.tick ∧
    firstFailure (flown 9) { theFlight 9 with finished := true } = some (0, .badarg) ∧
    runs (.flightApply 0) (flying 9) (fun t => done (member 9) .badarg up t && t.store.sys.vbatlWarn == 80) = true := by decide +kernel

/-- The same flight still open 80,000 ticks later, and interrupted. -/
def openFor (n : Nat) (i : Option Stamp) : State :=
  ((keep (member 90)).onRing 0 fun g => { g with flights := [{ members := [member 90], interrupted := i }] }).onPlane fun q => { q with tick := n }

theorem witness_flightTimeout : findFlight (openFor 88000 none) 0 (flightExpired (openFor 88000 none)) = some { members := [member 90] } ∧
    runs (.flightTimeout 0) (openFor 88000 none) (fun t => done (member 90) .timeout (openFor 88000 none) t) = true := by decide +kernel

theorem witness_flightInterrupted : let s := openFor 16000 (some ⟨1, 8000⟩)
    headWhole s 0 = false ∧
    findFlight s 0 (fun f => f.interrupted.isSome && flightDue s f ≤ s.plane.tick) = some { members := [member 90], interrupted := some ⟨1, 8000⟩ } ∧
    runs (.flightInterrupted 0) s (fun t => done (member 90) .badarg up t) = true := by decide +kernel

/-- A packet with FLIGHT = 0 stands at the head of a ring with an open flight. -/
theorem witness_flightBroken : let p := packet 0x101 1 9000 [] 
    let s := (submitted { p with slot := 4 }).onRing 0 fun g => { g with flights := [{ members := [member 90] }] }
    0 ∈ packetRings ∧ headWhole s 0 = true ∧ (ringPacket s 0).inFlight = false ∧ ({ members := [member 90] } : Flight).isOpen = true ∧
    [member 90].any (samePlace (ringPacket s 0)) = false ∧ s.plane.tick < flightDue s { members := [member 90], interrupted := some ⟨1, 9000⟩ } ∧
    runs (.flightInterrupted 0) s (fun t => (t.ring 0).flights.map (·.interrupted) == [some ⟨1, 9000⟩]) = true := by decide +kernel

/-- A keeper packet stands unadmitted at the head of ring 0. -/
def waiting0 : State := submitted (kp 0x101)

theorem witness_keeperAdmission : 0 ∈ packetRings ∧ headWhole waiting0 0 = true ∧ isFast (ringPacket waiting0 0).opcode = false ∧
    keeperShut waiting0 (ringPacket waiting0 0) = false ∧ keeperNext (ringPacket waiting0 0) waiting0 = true ∧ (ringPacket waiting0 0).inFlight = false ∧
    waiting0.plane.replay.running = false ∧
    runs (.keeperAdmission 0) waiting0 (fun t => t.plane.keeper.contains (ringPacket waiting0 0) && (t.ring 0).head == 1) = true := by decide +kernel

theorem witness_dispatcherOverflow :
    runs .dispatcherOverflow ((wait (fp 0x100)).onPlane fun q => { q with execNow := 8 }) (fun t => t.plane.waiting.all (·.moved)) = true := by decide +kernel

theorem witness_unknownOpcode : opOf (kp 0x1FF).opcode = none ∧ (keep (kp 0x1FF)).plane.keeper.contains (kp 0x1FF) = true ∧ (kp 0x1FF).inFlight = false ∧
    replayShuts (kp 0x1FF) (keep (kp 0x1FF)) = false ∧ dueTick false (kp 0x1FF) (keep (kp 0x1FF)) = (keep (kp 0x1FF)).plane.tick ∧
    inTurn (kp 0x1FF) (keep (kp 0x1FF)) = true ∧ headerBad (fitsRing (kp 0x1FF) (keep (kp 0x1FF))) (kp 0x1FF) = false ∧
    runs (.unknownOpcode (kp 0x1FF)) (keep (kp 0x1FF)) (done (kp 0x1FF) .badop up) = true := by decide +kernel

/-- SYS.STATE of a target. -/
def stateP (n : Nat) : Packet := kp 0x102 [(16, 1, n)]

theorem witness_sysNop : FastRuns sysNopOp (fp 0x100) (wait (fp 0x100)) ∧ runs (.sysNop (fp 0x100)) (wait (fp 0x100)) (done (fp 0x100) .ok up) = true := by
  decide +kernel

theorem witness_sysTick : FastRuns sysTickOp (fp 0x104) (wait (fp 0x104)) ∧
    runs (.sysTick (fp 0x104)) (wait (fp 0x104)) (fun t => memReadN t 0x44000010 8 == leBytes 8 (fp 0x104).arrival.word) = true := by decide +kernel

theorem witness_sysInfo : KeeperRuns sysInfoOp (kp 0x101) (keep (kp 0x101)) := by decide +kernel

theorem witness_sysState : KeeperRuns sysStateOp (stateP 2) (keep (stateP 2)) ∧ (stateP 2).fld 16 0 2 = 2 ∧
    up.image.trial.state ≠ 2 ∧ up.seq.state ≠ .beam ∧
    runs (.sysState (stateP 2)) (keep (stateP 2)) (fun t => done (stateP 2) .ok up t && memReadN t 0x44000010 1 == [2]) = true ∧
    (let s := { keep (stateP 2) with seq := { up.seq with state := .beam } }
     KeeperRuns sysStateOp (stateP 2) s ∧ s.seq.state = .beam ∧
     runs (.sysState (stateP 2)) s (fun t => done (stateP 2) .ok up t && t.seq.state == .lantern && t.sleep.pairStopAt == some 96000) = true) := by
  decide +kernel

theorem witness_sysState_beam : (let s := capturing { keep (stateP 2) with seq := { up.seq with state := .beam } }
     KeeperRuns sysStateOp (stateP 2) s ∧ s.plane.capture.running = true ∧
     runs (.sysState (stateP 2)) s (fun t => t.seq.state == .lantern && t.plane.capture.closing) = true) := by decide +kernel

theorem witness_sysState_moves : KeeperRuns sysStateOp (stateP 3) (keep (stateP 3)) ∧ (stateP 3).fld 16 0 2 = 3 ∧ (keep (stateP 3)).image.bootFail = 0 ∧
    (keep (stateP 3)).seq.state = .lantern ∧ (keep (stateP 3)).sleep.target = none ∧
    runs (.sysState (stateP 3)) (keep (stateP 3)) (fun t => done (stateP 3) .ok up t && t.sleep.target == some 3) = true ∧
    KeeperRuns sysStateOp (stateP 0) (keep (stateP 0)) ∧ (stateP 0).fld 16 0 2 = 0 ∧ (keep (stateP 0)).image.transfer = none ∧
    runs (.sysState (stateP 0)) (keep (stateP 0)) (fun t => done (stateP 0) .ok up t && t.sleep.darkPending) = true := by decide +kernel

theorem witness_sysReset : KeeperRuns sysResetOp (kp 0x103) (keep (kp 0x103)) ∧
    runs (.sysReset (kp 0x103)) (keep (kp 0x103)) (fun t => t.seq.resetDue.map (·.cause.cause) == [4]) = true := by decide +kernel

/-- SYS.CONFIG that writes VBATL WARN 9.0 V. -/
def cfg90 : Packet := kp 0x105 [(17, 1, 1), (24, 2, 1), (28, 4, 90)]

theorem witness_sysConfig : KeeperRuns sysConfigOp cfg90 (keep cfg90) ∧ cfgRead cfg90 = false ∧ cfgItems cfg90 = [(1, 0, 90)] ∧
    routingAgrees (keep cfg90).store.sys = true ∧ runs (.sysConfig cfg90) (keep cfg90) (fun t => t.store.sys.vbatlWarn == 90) = true := by decide +kernel

/-- SYS.CHARTER names a set of version `v` with no charter enabled at 0x4400_1000; its entry 1 has key slot `k` bits in its budget where it conflicts. -/
def charterPacket : Packet := kp 0x106 [(16, 1, 1), (20, 4, 0x44001000), (24, 4, 4621)]
def withSet (rings : Byte) : State :=
  { keep charterPacket with mem := [(0x44001000, 0x43), (0x44001001, 0x48), (0x44001002, 0x52), (0x44001003, 0x54), (0x44001004, 1), (0x44001006, 16), (0x44001008, 7)] ++
      (if rings = 0 then [] else [(0x44001000 + 32 + 80 + 7, rings)]) }

theorem witness_sysCharter : KeeperRuns sysCharterOp charterPacket (withSet 0) ∧ charterPacket.fld 16 0 2 = 1 ∧
    setConflicts (namedSet charterPacket (withSet 0)) = false ∧
    (withSet 0).store.charters.version < (parseSet (namedSet charterPacket (withSet 0))).version := by decide +kernel

theorem witness_sysCharter_conflict : KeeperRuns sysCharterOp charterPacket (withSet 0x10) ∧
    setConflicts (namedSet charterPacket (withSet 0x10)) = true ∧
    runs (.sysCharter charterPacket) (withSet 0x10) (done charterPacket .conflict up) = true := by decide +kernel

/-- Motor 2 drives forward between HB2 and HB5, as `f` says. -/
def motor2 (f : Hb → Hb) (s : State := up) : State :=
  (s.onStore fun st => { st with motor := { st.motor with motor := vmod st.motor.motor 2 fun _ => { defined := true, b := 5, pinchEn := true, pinchBlank := 0 } } }).onHb 2 fun x => f { x with
    drive := .forward, duty := 4095, posValid := true, driveFrom := 0 }
def run2 : MotorRun := { packet := kp 0x300, value := 0x4FFF, mode := 1, timeMs := 0 }

theorem witness_motorBrakeEnd : (let s := motor2 fun x => { x with drive := .brake, next := some 0x4FFF }
     motorFree s 2 = true ∧ (hbOf s 2).inhibit = false ∧ (hbOf s 2).waitsDrive = false ∧ groupBusy s 2 = false ∧ (hbOf s 2).pinch = 0 ∧
     (hbOf s 2).run = none ∧ (driveOf (motorCfg s 2) 0x4FFF) = .forward ∧
     runs (.motorBrakeEnd 2) s (fun t => (hbOf t 2).drive == .forward && (hbOf t 2).window.isSome && (hbOf t 2).onUntil == 400 &&
       deadTicks (motorCfg s 2) ≤ (hbOf t 2).dead) = true) ∧
    (motorCfg (motor2 id) 2).b < 12 ∧ driveOf (motorCfg (motor2 id) 2) 0x8FFF = .reverse ∧
    runs (.motorBrakeEnd 2) (motor2 fun x => { x with drive := .brake, next := some 0x8FFF })
      (fun t => (hbOf t 2).drive == .reverse && deadTicks (motorCfg (motor2 id) 2) ≤ (hbOf t 5).dead) = true ∧
    runs (.motorBrakeEnd 2) (motor2 fun x => { x with drive := .brake, next := some 0 }) (fun t => (hbOf t 2).drive == .coast) = true ∧
    logicDown (keep (kp 0x300)) = false ∧
    runs (.motorBrakeEnd 2) (motor2 (fun x => { x with drive := .brake, next := some 0, run := some { run2 with ended := some 3 } }) (keep (kp 0x300)))
      (fun t => (hbOf t 2).run.isNone && done (kp 0x300) .timeout up t) = true := by decide +kernel

theorem witness_motorGroupStart : let s := motor2 fun x => { x with drive := .coast, cmd := 0x4FFF, queued := true }
    ((List.range 12).find? fun m => (motorCfg s m).defined && (motorCfg s m).b == 5 && (hbOf s m).queued && !groupBusy s m) = some 2 ∧
    (driveOf (motorCfg s 2) (hbOf s 2).cmd).drives = true ∧ motorFree s 2 = true ∧ (hbOf s 2).inhibit = false ∧ (hbOf s 2).waitsDrive = false ∧
    runs (.motorGroupStart 5) s (fun t => (hbOf t 2).drive == .forward && !(hbOf t 2).queued) = true := by decide +kernel

/-- Motor 3 of the group of motor 2 drives, and motor 2 waits with a run. -/
def group23 (r : MotorRun) (s : State := up) : State :=
  let s := motor2 (fun x => { x with drive := .coast, queued := true, run := some r }) s
  (s.onStore fun st => { st with motor := { st.motor with motor := vmod st.motor.motor 3 fun _ => { defined := true, b := 5 } } }).onHb 3 fun x => { x with
    drive := .forward, duty := 4095 }

theorem witness_groupBusy : groupBusy (motor2 id) 2 = false ∧ groupBusy (group23 run2) 2 = true ∧ logicDown (keep (kp 0x300)) = false ∧
    run2.lost = false ∧ runEnds (group23 run2 (keep (kp 0x300))) 2 run2 = true ∧
    runs (.runEndCondition 2) (group23 run2 (keep (kp 0x300))) (fun t => (hbOf t 2).run.isNone && done (kp 0x300) .ok up t) = true ∧
    runs (.runMaxExpiry 2) (group23 run2 (keep (kp 0x300))) (fun t => (hbOf t 2).run.isNone && done (kp 0x300) .timeout up t) = true := by
  decide +kernel

/-- A trace of 800 drive ticks that limit. -/
def limits800 : List LimitRun := [⟨true, true, 800⟩]

theorem witness_motorStall : (hbOf (motor2 id) 2).run = none ∧ (hbOf (motor2 id) 2).pinch = 0 ∧ (hbOf (motor2 id) 2).window = none ∧
    800 ≤ limitCount limits800 (hbOf (motor2 id) 2).limitTicks ∧
    runs (.motorStall ⟨2, limits800⟩) (motor2 id) (fun t => (hbOf t 2).drive == .brake && (hbOf t 2).inhibit && (vget t.plane.landings 0).items.length == 1) = true ∧
    runs (.motorStall ⟨2, limits800⟩) (motor2 fun x => { x with run := some run2 }) (fun t => (hbOf t 2).run.map (·.ended) == some (some 2)) = true ∧
    runs (.motorStall ⟨2, limits800⟩) (motor2 fun x => { x with run := some { run2 with endStop := true, setAtStall := true, target := 9 } })
      (fun t => (hbOf t 2).run.map (·.ended) == some (some 1) && (hbOf t 2).pos == 9) = true := by decide +kernel

theorem witness_notStalled : ¬ StallSensed (motor2 id) 2 [⟨true, true, 799⟩] ∧
    runs (.motorStall ⟨2, [⟨true, true, 799⟩]⟩) (motor2 id) (fun t => (hbOf t 2).drive == .forward && (hbOf t 2).limitTicks == 799) = true := by
  refine ⟨?_, by decide +kernel⟩
  rintro (h | h | ⟨w, h, -⟩)
  · exact absurd h (by decide +kernel)
  · exact absurd h (by decide +kernel)
  · have h2 : (hbOf (motor2 id) 2).stall = none := by decide +kernel
    rw [h2] at h; cases h

theorem witness_runEnds : runEnds (motor2 fun x => { x with run := some run2 }) 2 run2 = true ∧
    runs (.runEndCondition 2) (motor2 fun x => { x with run := some run2 }) (fun t => (hbOf t 2).run.map (·.ended) == some (some 0)) = true ∧
    run2.startAt + run2.runMax * 800000 ≤ up.now ∧
    runs (.runMaxExpiry 2) (motor2 fun x => { x with run := some run2 }) (fun t => (hbOf t 2).run.map (·.ended) == some (some 3)) = true ∧
    runs (.pinchReversalEnd 2 []) (motor2 fun x => { x with pinch := 2, run := some run2 }) (fun t => (hbOf t 2).run.map (·.ended) == some (some 4)) = true ∧
    runs (.pinchReversalEnd 2 limits800) (motor2 fun x => { x with pinch := 2, pinchLeft := 5 }) (fun t => (hbOf t 2).drive == .brake && (hbOf t 2).inhibit) = true := by
  decide +kernel

/-- The last ripple came at tick 900 of periods of 100 ticks. -/
def rippling (n : Nat) (f : Hb → Hb := id) : State :=
  { motor2 (fun x => f { x with lastCount := some 900, lastRipple := some 900, periods := [100, 100], currents := [20, 20] }) with now := n }

theorem witness_ripples : countsRipples (rippling 1000) 2 = true ∧ 4 * 200 ≤ (1000 - 900) * 10 * 2 ∧
    runs (.rippleCount 2 20 30) (rippling 1000) (fun t => (hbOf t 2).pos == 1 && (hbOf t 2).ripples == 1 && (hbOf t 2).periods == [100, 100, 100]) = true ∧
    runs (.rippleCount 2 20 30) (motor2 id) (fun t => (hbOf t 2).pos == 1 && (hbOf t 2).ripples == 1) = true ∧
    (930 - 900) * 10 * 2 < 4 * 200 ∧ runs (.rippleCount 2 20 30) (rippling 930) (fun t => hbOf t 2 == hbOf (rippling 930) 2) = true ∧
    18 * 200 ≤ (1080 - 900) * 10 * 2 ∧
    runs (.rippleInsert 2) (rippling 1080) (fun t => (hbOf t 2).pos == 1 && (hbOf t 2).inserts == 1 && (hbOf t 2).posValid) = true ∧
    runs (.rippleInsert 2) (rippling 1080 fun x => { x with inserts := 2 }) (fun t => !(hbOf t 2).posValid) = true := by decide +kernel

theorem witness_pinch : watchesPinch (motor2 fun x => { x with slow := 2 }) 2 = true ∧ pinched (motor2 fun x => { x with slow := 2 }) 2 0 = true ∧
    runs (.pinchDetect 2 0) (motor2 fun x => { x with slow := 2 }) (fun t => (hbOf t 2).pinch == 1 && (hbOf t 2).drive == .brake) = true ∧
    runs (.pinchDetect 2 0) (motor2 (fun x => { x with slow := 2 }) (linked fun l => { l with hold := true })) (fun t => t.link.snapshot == 2) = true ∧
    runs (.pinchReversalStart 2) { (motor2 fun x => { x with pinch := 1, drive := .brake }) with now := 16000 }
      (fun t => (hbOf t 2).pinch == 2 && (hbOf t 2).drive == .reverse && (hbOf t 2).duty == 4095) = true := by decide +kernel

theorem witness_hbFault : runs (.hbFault 2 7 0 true) (motor2 id) (fun t => (hbOf t 2).cond.locks.testBit 7 && (hbOf t 2).drive == .coast && (hbOf t 2).waitsDrive) = true ∧
    hbShortMa (motor2 id) 2 < 60000 ∧
    runs (.hardShort ⟨⟨1, 2⟩, 60000⟩) (motor2 id) (fun t => (hbOf t 2).cond.locks.testBit 7 && (hbOf t 2).drive == .coast && (hbOf t 2).waitsDrive) = true ∧
    runs (.hbFault 5 6 0 true) (motor2 id) (fun t => (hbOf t 5).cond.holds.testBit 6 && (hbOf t 2).drive == .coast) = true ∧
    runs (.hbFault 2 6 0 false) (motor2 fun x => { x with cond := { x.cond with holds := 64, active := 64 } })
      (fun t => !(hbOf t 2).cond.holds.testBit 6 && (hbOf t 2).drive == .forward) = true ∧
    (hbOf (motor2 id) 2).drive.drives = true ∧ ((motor2 id).now - (hbOf (motor2 id) 2).periodAt) % 400 = 0 ∧
    runs (.pwmPeriodStart ⟨1, 2⟩) (motor2 fun x => { x with cmd := 0x4FFF }) (fun t => (hbOf t 2).duty == 4095 && (hbOf t 2).onUntil == 400) = true := by
  decide +kernel

/-- MOTOR.RUN in mode FREE, and with STOP; MOTOR.CONFIG that defines motor 2; MOTOR.POS with SET. -/
def runP : Packet := fp 0x300 [(16, 1, 2), (17, 1, 2), (18, 2, 0xFFF)]
def stopP : Packet := fp 0x300 [(16, 1, 2), (17, 1, 8)]
def still (p : Packet) : State := motor2 (fun x => { x with drive := .coast }) (wait p)
def motorP : Packet := kp 0x301 [(17, 1, 1), (24, 1, 18), (25, 1, 5 + 16 + 64), (26, 1, 30), (27, 1, 20), (28, 2, 100), (30, 2, 100), (32, 2, 50), (34, 2, 1500),
  (36, 1, 255), (42, 1, 25), (43, 1, 15), (44, 1, 20), (46, 2, 300)]
def posP : Packet := kp 0x302 [(16, 1, 2), (17, 1, 1), (18, 2, 500)]

theorem witness_motorRun : FastRuns motorRunOp runP (still runP) ∧ motorArg runP = 2 ∧ runP.bit 17 3 = false ∧ motorRunConflict runP (still runP) = false ∧
    ¬ (runP.fld 17 0 2 = 0 ∧ (hbOf (still runP) 2).pos.toNat = runP.num 20 2) ∧ groupBusy (still runP) 2 = false ∧ (hbOf (still runP) 2).run = none ∧
    (∀ k ∈ motorSides (still runP) 2, (hbOf (still runP) k).cond.locks = 0 ∧ (hbOf (still runP) k).cond.supplyHeld = false ∧
      (hbOf (still runP) k).cond.holds.testBit 6 = false) ∧
    (still runP).motor.refusing = false ∧ (still runP).points.writesNow < 4096 ∧ heldByAction (still runP) (pointAt 80 102) = false ∧ (still runP).points.now = [] ∧
    runs (.motorRun runP) (still runP) (fun t => (hbOf t 2).run.isSome && pget t (pointAt 80 102) == 0x4FFF) = true := by decide +kernel

/-- A run to the present position. -/
def reachedP : Packet := fp 0x300 [(16, 1, 2), (17, 1, 0), (18, 2, 0xFFF)]

theorem witness_motorRun_reached : FastRuns motorRunOp reachedP (still reachedP) ∧ motorArg reachedP = 2 ∧ reachedP.bit 17 3 = false ∧
    motorRunConflict reachedP (still reachedP) = false ∧ reachedP.fld 17 0 2 = 0 ∧ (hbOf (still reachedP) 2).pos.toNat = reachedP.num 20 2 ∧
    runs (.motorRun reachedP) (still reachedP) (done reachedP .ok up) = true := by decide +kernel

theorem witness_motorRun_stop : let s := motor2 (fun x => { x with run := some run2 }) (wait stopP)
    FastRuns motorRunOp stopP s ∧ motorArg stopP = 2 ∧ stopP.bit 17 3 = true ∧ (motorCfg s 2).defined = true ∧ groupBusy s 2 = false ∧
    runs (.motorRun stopP) s (fun t => done stopP .ok up t && (hbOf t 2).run.map (·.ended) == some (some 5)) = true := by decide +kernel

/-- MOTOR.CONFIG that takes motor 2 out, and one with HB2 as its own second half-bridge. -/
def motorOutP : Packet := kp 0x301 [(17, 1, 1), (24, 1, 2)]

def motorSelfP : Packet := kp 0x301 [(17, 1, 1), (24, 1, 18), (25, 1, 2 + 16 + 64), (26, 1, 30), (27, 1, 20), (28, 2, 100), (30, 2, 100), (32, 2, 50), (34, 2, 1500),
  (36, 1, 255), (42, 1, 25), (43, 1, 15), (44, 1, 20), (46, 2, 300)]

theorem witness_motorConfig : KeeperRuns motorConfigOp motorP (keep motorP) ∧ motorP.bit 16 0 = false ∧ cfgCount motorP = 1 ∧ cfgMotor motorP 0 = 2 ∧
    (hbOf (keep motorP) 2).running = false ∧ motorsAgree (vmod (keep motorP).store.motor.motor 2 fun _ => motorCfgOf motorP 0) = true ∧
    (motorCfg (keep motorP) 2).defined = false ∧ motorsAgree up.store.motor.motor = true ∧
    runs (.motorConfig motorP) (keep motorP) (fun t => done motorP .ok up t && (motorCfg t 2).defined && (motorCfg t 2).b == 5) = true := by decide +kernel

theorem witness_motorConfig_out : let s := motor2 (fun x => { x with drive := .coast }) (keep motorOutP)
    KeeperRuns motorConfigOp motorOutP s ∧ cfgMotor motorOutP 0 = 2 ∧ (hbOf s 2).running = false ∧ (motorCfg s 2).defined = true ∧
    (motorCfgOf motorOutP 0).defined = false ∧ motorsAgree (vmod s.store.motor.motor 2 fun _ => motorCfgOf motorOutP 0) = true ∧
    motorsAgree s.store.motor.motor = true ∧ s.points.writesNow + 4 ≤ 4096 ∧ s.points.now = [] ∧ (∀ k, k < 12 → heldByAction s (pointAt 80 (100 + k)) = false) ∧
    runs (.motorConfig motorOutP) s (fun t => done motorOutP .ok up t && !(motorCfg t 2).defined) = true := by decide +kernel

theorem witness_motorConfig_self : KeeperRuns motorConfigOp motorSelfP (keep motorSelfP) ∧ motorSelfP.bit 16 0 = false ∧ cfgCount motorSelfP = 1 ∧
    motorsAgree (vmod (keep motorSelfP).store.motor.motor (cfgMotor motorSelfP 0) fun _ => motorCfgOf motorSelfP 0) = false ∧
    runs (.motorConfig motorSelfP) (keep motorSelfP) (fun t => done motorSelfP .conflict up t && !(motorCfg t 2).defined) = true := by decide +kernel

theorem witness_motorPos : let s := motor2 (fun x => { x with drive := .coast }) (keep posP)
    KeeperRuns motorPosOp posP s ∧ motorArg posP = 2 ∧ posP.bit 17 0 = true ∧ (motorCfg s 2).defined = true ∧ (hbOf s 2).running = false ∧
    runs (.motorPos posP) s (fun t => done posP .ok up t && (hbOf t 2).pos == 500 && (hbOf t 2).posValid) = true := by decide +kernel

/-- Valve 1, as `f` says, with a program whose words are `ws`. -/
def valve1 (f : Valve → Valve) (ws : List Nat := []) (s : State := up) : State :=
  (s.onStore fun st => { st with motor := { st.motor with
      prog := vmod st.motor.prog 1 fun _ => vtab 64 fun i => ws.getD i 0, loaded := vmod st.motor.loaded 1 fun _ => true } }).onValve 1 f

theorem witness_valveGrant : let s := (valve1 fun x => { x with phase := .requested, claim := 3000 }).onFeed 0 fun f => { f with queue := [1] }
    claimsHeld s 0 + 3000 ≤ vget s.store.motor.budget 0 ∧
    runs (.valveGrant 0) s (fun t => (valveOf t 1).phase == .granted && (feedOf t 0).on && (valveOf t 1).startAt == 16) = true := by decide +kernel

theorem witness_valveProgramStart : let s := valve1 fun x => { x with phase := .granted, entry := 5 }
    runs (.valveProgramStart 1) (s.onMotor fun d => { d with trace := { d.trace with armed := true, valve := 1 } })
      (fun t => (valveOf t 1).phase == .running && (valveOf t 1).pc == 5 && t.motor.trace.capturing) = true := by decide +kernel

theorem witness_deferMax : let s := (valve1 (fun x => { x with phase := .requested, packet := some (fp 0x310) }) [] (wait (fp 0x310))).onFeed 0 fun f => { f with queue := [1] }
    logicDown s = false ∧ (valveOf s 1).reqAt + (valveOf s 1).deferMax ≤ s.now ∧
    runs (.deferMaxExpiry 1) s (fun t => done (fp 0x310) .overlap up t && (feedOf t 0).queue.isEmpty) = true := by decide +kernel

/-- Valve 1 runs the word `w`. -/
def running1 (w : Nat) : State := valve1 (fun x => { x with phase := .running, claimHeld := true }) [w]

theorem witness_valveInstruction : (valveOf (running1 0) 1).waitOp = 0 ∧ (valveOf (running1 0) 1).lastAt ≠ some (running1 0).now ∧
    runs (.valveInstruction 1 0) (running1 0) (fun t => (valveOf t 1).phase == .decay && !(valveOf t 1).claimHeld) = true ∧
    runs (.valveInstruction 1 0) (running1 (2 ^ 28 + 2 ^ 16 * 3000)) (fun t => (valveOf t 1).target == 3000 && (valveOf t 1).on && (valveOf t 1).pc == 1) = true ∧
    runs (.valveInstruction 1 600) (running1 (2 * 2 ^ 28 + 2 ^ 16 * 500)) (fun t => (valveOf t 1).target == 500 && !(valveOf t 1).claimHeld && !(valveOf t 1).on) = true ∧
    runs (.valveInstruction 1 0) (running1 (3 * 2 ^ 28 + 100)) (fun t => (valveOf t 1).waitOp == 3 && (valveOf t 1).waitEnds == some 100) = true ∧
    runs (.valveInstruction 1 0) (running1 (4 * 2 ^ 28 + 2 ^ 16 * 50 + 100)) (fun t => (valveOf t 1).waitOp == 4 && (valveOf t 1).waitMa == 50) = true ∧
    runs (.valveInstruction 1 0) (running1 (5 * 2 ^ 28 + 2 ^ 16 * 50 + 3)) (fun t => (valveOf t 1).dip == { armed := true, depth := 50, samples := 3 }) = true ∧
    runs (.valveInstruction 1 0) (running1 (6 * 2 ^ 28 + 100)) (fun t => (valveOf t 1).waitOp == 6) = true ∧
    runs (.valveInstruction 1 0) (running1 (7 * 2 ^ 28)) (fun t => (valveOf t 1).waitOp == 7 && (valveOf t 1).waitEnds == none) = true ∧
    runs (.valveInstruction 1 0) (running1 (8 * 2 ^ 28 + 7)) (fun t => (valveOf t 1).pc == 7) = true ∧
    runs (.valveInstruction 1 0) (running1 (8 * 2 ^ 28 + 2 ^ 16 * 5 * 256 + 7)) (fun t => (valveOf t 1).ctr == 255) = true ∧
    runs (.valveInstruction 1 0) (running1 (9 * 2 ^ 28 + 7)) (fun t => (valveOf t 1).ctr == 7) = true ∧
    runs (.valveInstruction 1 0) (running1 (10 * 2 ^ 28 + 7)) (fun t => (vget t.plane.landings 0).items.length == 1) = true := by decide +kernel

theorem witness_valveWaitEnd : let s := valve1 fun x => { x with phase := .running, waitOp := 4, waitMa := 100, waitEnds := some 1 }
    waitHolds (valveOf s 1) 100 = true ∧ waitHolds (valveOf s 1) 99 = false ∧ runs (.valveWaitEnd 1 100) s (fun t => (valveOf t 1).waitOp == 0 && !(valveOf t 1).tFlag) = true ∧
    runs (.valveWaitEnd 1 99) s (fun t => (valveOf t 1).waitOp == 0 && (valveOf t 1).tFlag) = true ∧
    (let s := { (valve1 fun x => { x with phase := .running, waitOp := 3, waitEnds := some 900, on := true, target := 50 }) with now := 8 }
     runs (.valveWaitEnd 1 50) s (fun t => (valveOf t 1).waitOp == 3 && !(valveOf t 1).on && (valveOf t 1).chopped) = true) := by decide +kernel

/-- Valve 1 looks for a dip after a PEAK. -/
def dipping (f : DipDet → DipDet) : State :=
  { (valve1 fun x => { x with phase := .running, on := true, peakPhase := true, peaked := true, dip := f { armed := true, depth := 50, samples := 2, maxMa := 500 } }) with
    now := 100 }

theorem witness_valveDip : dipUses 100 (valveOf (dipping id) 1) = true ∧ (valveOf (dipping id) 1).dip.past = false ∧ (valveOf (dipping id) 1).dFlag = false ∧
    (let d := (valveOf (dipping fun d => { d with count := 1, low := 440 }) 1).dip.take false 430
     d.samples ≤ d.count ∧ runs (.valveDipDetect 1 430) (dipping fun d => { d with count := 1, low := 440 })
       (fun t => (valveOf t 1).dFlag && (valveOf t 1).dipMa == d.low && (valveOf t 1).dipTick == some 100) = true) ∧
    (let d := (valveOf (dipping id) 1).dip.take false 430
     d.count < d.samples ∧ runs (.valveDipDetect 1 430) (dipping id) (fun t => !(valveOf t 1).dFlag && (valveOf t 1).dip == d) = true) ∧
    runs (.fireMaxExpiry 1) { (valve1 fun x => { x with phase := .running }) with now := 80000000 } (fun t => (valveOf t 1).status == 0x15) = true := by decide +kernel

theorem witness_valveDecayEnd : let s := valve1 (fun x => { x with phase := .decay, packet := some (fp 0x310) }) [] (wait (fp 0x310))
    logicDown s = false ∧ windowEnergy s.now (addEnergy s.now 100 (valveOf s 1).clamp) < 300000 ∧ windowEnergy s.now (addEnergy s.now 100 (bankAt s 3).clamp) < 1000000 ∧
    runs (.valveDecayEnd 1 9 100) s (fun t => done (fp 0x310) .ok up t && (valveOf t 1).phase == .idle) = true ∧
    runs (.valveDecayEnd 1 9 40001) s (fun t => done (fp 0x310) .locked up t && (valveOf t 1).cond.locks.testBit 4) = true := by decide +kernel

theorem witness_valveChop : let s := valve1 fun x => { x with phase := .running, target := 300, mA := 100 }
    ({ s with now := 40 }).now % 320 = 40 * (1 % 4) ∧ (valveOf s 1).cond.free = true ∧
    runs (.pwmPeriodStart ⟨2, 1⟩) { s with now := 40 } (fun t => (valveOf t 1).on && (valveOf t 1).phase == .running) = true := by decide +kernel

theorem witness_valveOutputFault : runs (.valveOutputFault 1 7 0 true) (running1 0) (fun t => (valveOf t 1).cond.locks.testBit 7 && (valveOf t 1).phase == .decay) = true ∧
    runs (.valveOutputFault 8 7 0 true) (running1 0) (fun t => (feedOf t 0).cond.locks.testBit 7 && (valveOf t 1).phase == .decay) = true := by decide +kernel

/-- VALVE.FIRE of valve 1 at entry 5, with RELEASE; VALVE.PROG; VALVE.CONFIG; VALVE.TRACE. -/
def fireP : Packet := fp 0x310 [(16, 1, 1), (17, 1, 5)]
def releaseP : Packet := fp 0x310 [(16, 1, 9)]
def progP : Packet := kp 0x311 [(16, 1, 1), (18, 1, 1), (24, 4, 2 ^ 28 + 2 ^ 16 * 3000)]
def fireMaxP : Packet := kp 0x312 [(18, 1, 2), (36, 2, 500)]
def feedUnlockP : Packet := kp 0x312 [(20, 2, 256)]
def traceP (k : Nat) : Packet := kp 0x313 (if k = 0 then [(17, 1, 1), (18, 1, 1), (20, 2, 64)] else [(16, 1, 2)])

theorem witness_valveFire : let s := valve1 id [] (wait fireP)
    FastRuns valveFireOp fireP s ∧ valveArg fireP = 1 ∧ fireP.bit 16 3 = false ∧ vget s.store.motor.loaded 1 = true ∧ (valveOf s 1).phase = .idle ∧
    (pget s (firePoint 1)).toNat.testBit 15 = false ∧ requestRefused s 1 = none ∧ heldByAction s (firePoint 1) = false ∧ s.points.now = [] ∧
    runs (.valveFire fireP) s (fun t => (valveOf t 1).packet == some fireP && pget t (firePoint 1) == 0x8005) = true := by decide +kernel

theorem witness_valveRelease : FastRuns valveFireOp releaseP (wait releaseP) ∧ releaseP.bit 16 3 = true ∧
    runs (.valveFire releaseP) (wait releaseP) (fun t => done releaseP .ok up t) = true := by decide +kernel

theorem witness_valveProg : KeeperRuns valveProgOp progP (keep progP) ∧ valveArg progP = 1 ∧
    ((List.range 8).all fun k => decide (claimOf (progOf (keep progP) k) ≤ vget (keep progP).store.motor.budget (feedIx k))) = true ∧
    claimOf (progAfter progP (keep progP)) = 3000 ∧ 3000 ≤ vget (keep progP).store.motor.budget 0 ∧
    runs (.valveProg progP) (keep progP) (fun t => vget t.store.motor.loaded 1) = true := by decide +kernel

theorem witness_valveConfig : KeeperRuns valveConfigOp fireMaxP (keep fireMaxP) ∧ fireMaxP.bit 16 0 = false ∧ fireMaxP.fld 17 0 2 = 0 ∧
    fireMaxP.fld 20 0 10 = 0 ∧ fireMaxP.bit 18 1 = true ∧
    runs (.valveConfig fireMaxP) (keep fireMaxP) (fun t => vget t.store.motor.fireMax 1 == 500) = true ∧
    KeeperRuns valveConfigOp feedUnlockP (keep feedUnlockP) ∧ feedUnlockP.fld 17 0 2 = 0 ∧ bitList 10 (feedUnlockP.fld 20 0 10) = [8] := by decide +kernel

theorem witness_valveTrace : KeeperRuns valveTraceOp (traceP 0) (keep (traceP 0)) ∧ (traceP 0).fld 16 0 2 = 0 ∧
    (keep (traceP 0)).motor.trace.running = false ∧
    runs (.valveTrace (traceP 0)) (keep (traceP 0)) (fun t => t.motor.trace.armed) = true ∧
    KeeperRuns valveTraceOp (traceP 2) (keep (traceP 2)) ∧ (traceP 2).fld 16 0 2 = 2 := by decide +kernel

/-- String 1 is enabled with two segments of 3.0 V and runs. -/
def string1 (f : Strg → Strg) (s : State := up) : State :=
  (s.onStore fun st => { st with light := { st.light with
    string := vmod st.light.string 1 fun g => { g with enable := true, usedMask := 3, current := 100, vf := vtab 16 fun k => if k < 2 then 30 else 0 } } }).onString 1 fun x =>
      f { x with running := true, seg := vmapIdx x.seg fun k y => { y with fitted := decide (k < 2), cmd := 65535 } }

/-- Bank D goes beyond its limit. -/
def overD (s : State) : State := { s with load := { s.load with bank := vmod s.load.bank 3 fun b => { b with overV := true } } }

theorem witness_softStart : runs (.stringSoftStartEnd 1 100) (string1 fun x => { x with soft := some { ends := 0 } }) (fun t => (stringOf t 1).soft.isNone && (stringOf t 1).running) = true ∧
    100 * 9 ≤ 100 * 10 ∧ runs (.stringSoftStartEnd 1 50) (string1 fun x => { x with soft := some { ends := 0 } })
      (fun t => (stringOf t 1).cond.locks.testBit 11 && !(stringOf t 1).running) = true ∧
    runs (.stringConverterStop 1) (string1 fun x => { x with stopAt := some 0 }) (fun t => !(stringOf t 1).running) = true := by decide +kernel

theorem witness_stringFault : (vget (stringOf (string1 id) 1).seg 1).fitted = true ∧
    runs (.stringFault 1 8 17 true) (string1 id) (fun t => (stringOf t 1).segOpen.testBit 1 && (stringOf t 1).running) = true ∧
    runs (.stringFault 1 7 0 true) (string1 id) (fun t => (stringOf t 1).cond.locks.testBit 7 && !(stringOf t 1).running) = true ∧
    runs (.hardShort ⟨⟨4, 1⟩, 6001⟩) (string1 id) (fun t => (stringOf t 1).cond.locks.testBit 7 && !(stringOf t 1).running) = true ∧
    stringShort (overD (string1 id)) 1 2 = true ∧
    runs (.stringFault 1 2 0 true) (overD (string1 id)) (fun t => (stringOf t 1).cond.holds.testBit 2 && !(stringOf t 1).running) = true ∧
    stringShort (string1 id) 1 2 = false ∧ (shedCfg (string1 id) 57).resume = false ∧
    runs (.stringFault 1 2 0 false) (string1 fun x => { x with cond := { x.cond with holds := 4 } }) (fun t => !(stringOf t 1).cond.holds.testBit 2) = true ∧
    segPhase 0 (vget (stringOf (string1 id) 1).seg 0) up.now = 0 ∧
    runs (.pwmPeriodStart ⟨4, 1⟩) (string1 id) (fun t => (vget (stringOf t 1).seg 0).duty == 4095 && (vget (stringOf t 1).seg 0).fitted) = true := by
  decide +kernel

/-- Engine 3 has a program of one SET step for a virtual point, and runs. -/
def prog3 : PatProg := { start := pointAt 84 7, count := 1, stride := 1, update := 80, steps := [{ op := 1, a := 77, duration := 2 }] }
def engine3 (f : Engine → Engine) (s : State := up) : State :=
  (s.onStore fun st => { st with light := { st.light with prog := vmod st.light.prog 3 fun _ => some prog3 } }).onEngine 3 fun x => f { x with running := true }

theorem witness_patternUpdate : engineTurn (engine3 id) 3 = true ∧ patOf (engine3 id) 3 = some prog3 ∧
    prog3.steps[(engineOf (engine3 id) 3).step]? = some { op := 1, a := 77, duration := 2 } ∧
    heldByAction (engine3 id) prog3.start = false ∧ (engineOf (engine3 id) 3).nextAt ≤ up.plane.lin ∧ (engineOf (engine3 id) 3).detached = [] ∧
    runs (.patternUpdate 3) (engine3 id) (fun t => pget t (pointAt 84 7) == 77 && (engineOf t 3).k == 1) = true ∧
    runs (.patternUpdate 3) (engine3 fun x => { x with k := 1 }) (fun t => !(engineOf t 3).running) = true := by decide +kernel

theorem witness_patternWrite : let s := up.onLight fun l => { l with lag := [{ engine := 3, pt := pointAt 84 7, v := 5 }] }
    packetsDone s = true ∧ heldByAction s (pointAt 84 7) = false ∧ s.points.now = [] ∧
    runs .patternWriteDeferred s (fun t => t.light.lag.isEmpty && pget t (pointAt 84 7) == 5) = true := by decide +kernel

/-- STRING.CONFIG of string 1 with a VF sum of 6.0 V, or of 56.0 V; PATTERN.LOAD; PATTERN.RUN and its stop. -/
def strP (vf n : Nat) : Packet :=
  kp 0x410 ([(17, 1, 1), (24, 1, 5), (25, 1, 10), (26, 2, 100), (28, 2, 500), (30, 2, 2 ^ n - 1)] ++ (List.range n).map fun k => (32 + k, 1, vf))
def patP : Packet := kp 0x411 [(16, 1, 3), (24, 4, pointAt 84 7), (28, 2, 1), (30, 1, 1), (31, 1, 1), (32, 4, 80), (40, 1, 1), (42, 2, 77), (46, 2, 2)]
def patRunP (stop : Nat) : Packet := fp 0x412 [(16, 1, 3), (17, 1, stop)]

theorem witness_stringConfig : KeeperRuns stringConfigOp (strP 30 2) (keep (strP 30 2)) ∧ strCount (strP 30 2) = 1 ∧ strIx (strP 30 2) 0 = 1 ∧
    ((List.range 4).all fun n => (stringCfg (keep (strP 30 2)) n).fits) = true ∧ (stringCfgOf (strP 30 2) 0).fits = true ∧
    runs (.stringConfig (strP 30 2)) (keep (strP 30 2)) (fun t => (stringCfg t 1).enable) = true := by decide +kernel

theorem witness_R181 : KeeperRuns stringConfigOp (strP 140 4) (keep (strP 140 4)) ∧ (strP 140 4).bit 16 0 = false ∧
    520 < (((List.range 16).filter fun k => ((strP 140 4).num 30 2).testBit k).map fun k => (strP 140 4).num (32 + k) 1).sum + 20 ∧
    runs (.stringConfig (strP 140 4)) (keep (strP 140 4)) (fun t => done (strP 140 4) .conflict up t && !(stringCfg t 1).enable) = true := by decide +kernel

theorem witness_R181_kept : (∀ n, n < 4 → (((List.range 16).filter fun k => (stringCfg (keep (strP 30 2)) n).usedMask.testBit k).map fun k =>
    vget (stringCfg (keep (strP 30 2)) n).vf k).sum + 20 ≤ 520) := by decide +kernel

theorem witness_patternLoad : KeeperRuns patternLoadOp patP (keep patP) ∧ patP.fld 16 0 5 = 3 ∧ patP.bit 17 0 = false ∧ patP.bit 17 1 = false ∧
    (engineOf (keep patP) 3).running = false ∧
    runs (.patternLoad patP) (keep patP) (fun t => done patP .ok up t && (patOf t 3).isSome) = true := by decide +kernel

theorem witness_patternRun : FastRuns patternRunOp (patRunP 0) (engine3 id (wait (patRunP 0))) ∧ (patRunP 0).bit 17 0 = false ∧
    (prog3.steps[(patRunP 0).fld 18 0 6]?).map (·.op) = some 1 ∧
    runs (.patternRun (patRunP 0)) (engine3 id (wait (patRunP 0))) (fun t => (engineOf t 3).running && (engineOf t 3).nextAt == 16000) = true ∧
    FastRuns patternRunOp (patRunP 1) (engine3 id (wait (patRunP 1))) ∧ (patRunP 1).bit 17 0 = true ∧ (patRunP 1).bit 17 1 = false ∧
    runs (.patternRun (patRunP 1)) (engine3 id (wait (patRunP 1))) (fun t => !(engineOf t 3).running) = true := by decide +kernel

/-- Ivgal link 0 is enabled, with a map of one satellite, as `f` says; tick 16,000 is a slot of it. -/
def sat1 : Sat := { address := 1, formats := 7, points := 4, format := 2 }
def link0 (f : IvgLink → IvgLink) (s : State := up) : State :=
  (s.onStore fun st => { st with light := { st.light with ivg := vmod st.light.ivg 0 fun g => { g with enable := true, table := some [sat1], period := 8000 } } }).onIvg 0 f
def flight0 : IvgFlight := { type := .data, seq := 3, sentAt := 15990, bytes := [], deadline := 100 }

theorem witness_ivgalSlot : linksUp (link0 id) = true ∧ ((linkCfg (link0 id) 0).enable && darkReady (link0 id)) = false ∧
    slotTick (linkCfg (link0 id) 0).period 0 (link0 id).plane.tick = true ∧ slotType (link0 id) 0 = some .data ∧
    runs (.ivgalFrameSlot 0) (link0 id) (fun t => (linkOf t 0).flight.map (·.type) == some .data && (linkOf t 0).frames == 1) = true ∧
    runs (.ivgalFrameSlot 0) (link0 fun l => { l with flight := some flight0 }) (fun t => (linkOf t 0).skipped == 1) = true := by decide +kernel

/-- Nothing but the SLEEP frame of link 0 stands before Dark. -/
theorem witness_sleepSlot : let s := link0 id { up with sleep := { up.sleep with darkPending := true } }
    (linkCfg s 0).enable = true ∧ darkReady s = true ∧ (linkOf s 0).slept = none ∧ (linkOf s 0).flight = none ∧
    slotTick (linkCfg s 0).period 0 s.plane.tick = true ∧
    runs (.ivgalFrameSlot 0) s (fun t => (linkOf t 0).flight.map (·.type) == some .data && (linkOf t 0).slept.isSome) = true := by decide +kernel

theorem witness_ivgalReturn : flight0.type = .data ∧ up.plane.lin ≤ flight0.sentAt + flight0.deadline ∧
    runs (.ivgalFrameReturn 0 { seq := 3 }) (link0 fun l => { l with flight := some flight0, lostRun := 2 }) (fun t => (linkOf t 0).returned == 1 && (linkOf t 0).lostRun == 0) = true ∧
    runs (.ivgalFrameReturn 0 { lost := true }) (link0 fun l => { l with flight := some { flight0 with deadline := 9 } })
      (fun t => (linkOf t 0).lost == 1 && (linkOf t 0).flight.isNone) = true := by decide +kernel

theorem witness_ivgalBreak : runs (.ivgalBreak 0) (link0 fun l => { l with lostRun := 3 }) (fun t => (linkOf t 0).brk && (linkOf t 0).breaks == 1) = true ∧
    runs (.ivgalBeaconRx 0 5 [{}, {}]) (link0 fun l => { l with brk := true }) (fun t => (linkOf t 0).breakAt == 5 && (linkOf t 0).beaconRecords == 2) = true ∧
    (let s := (link0 fun l => { l with mismatch := true }).onPlane fun q => { q with lin := 800000 }
     linksUp s = true ∧ (linkOf s 0).slept = none ∧ (linkOf s 0).lastEnum + 800000 ≤ s.plane.lin ∧
     runs (.ivgalMismatchEnum 0) s (fun t => (linkOf t 0).flight.map (·.type) == some .enum) = true) := by decide +kernel

/-- IVGAL.ENUM of link 0 in modes 0 and 2; IVGAL.CONFIG; IVGAL.DIAG. -/
def enumP (mode : Nat) : Packet := kp 0x420 [(17, 1, mode)]
def ivgP : Packet := kp 0x421 [(16, 1, 32), (17, 1, 9), (20, 4, 16000)]
def ivgDiagP : Packet := kp 0x422 [(17, 1, 1)]
def ident1 : SatIdent := { address := 1, formats := 7, points := 4 }

theorem witness_ivgalEnum : KeeperRuns ivgalEnumOp (enumP 2) (link0 id (keep (enumP 2))) ∧ (enumP 2).fld 16 0 4 = 0 ∧ (enumP 2).fld 17 0 2 = 2 ∧
    (linkCfg (link0 id (keep (enumP 2))) 0).table = some [sat1] ∧ KeeperRuns ivgalEnumOp (enumP 0) (link0 id (keep (enumP 0))) ∧
    enumAsked (link0 id (keep (enumP 0))) 0 (enumP 0) = false ∧
    runs (.ivgalEnum (enumP 0)) (link0 id (keep (enumP 0))) (fun t => (linkOf t 0).flight.map (·.type) == some .enum && (linkOf t 0).waitFor == [enumP 0]) = true ∧
    ((adoptTable 0 [ident1]).map Sat.points).sum ≤ 16384 ∧
    runs (.ivgalEnum (enumP 0)) (link0 (fun l => { l with found := [(enumP 0, some [ident1])] }) (keep (enumP 0)))
      (fun t => done (enumP 0) .ok up t && (linkCfg t 0).table == some (adoptTable 0 [ident1])) = true := by decide +kernel

theorem witness_ivgalConfig : KeeperRuns ivgalConfigOp ivgP (keep ivgP) ∧ ivgP.bit 16 4 = false ∧ ivgCount ivgP = 0 ∧
    linkAgrees { linkCfg (keep ivgP) 0 with enable := ivgP.bit 16 5, fullEvery := ivgP.num 17 1, period := ivgP.num 20 4 } = true ∧
    runs (.ivgalConfig ivgP) (keep ivgP) (fun t => (linkCfg t 0).enable && (linkCfg t 0).period == 16000 && (linkOf t 0).starting) = true := by decide +kernel

theorem witness_ivgalDiag : KeeperRuns ivgalDiagOp ivgDiagP (link0 (fun l => { l with lost := 5 }) (keep ivgDiagP)) ∧ ivgDiagP.bit 17 0 = true ∧
    runs (.ivgalDiag ivgDiagP) (link0 (fun l => { l with lost := 5 }) (keep ivgDiagP)) (fun t => (linkOf t 0).lost == 0) = true := by decide +kernel

/-- POINT.WRITE of G84:0005, POINT.READ of it, POINT.TYPE that makes it a timer. -/
def v5 : Nat := pointAt 84 5
def writeP : Packet := fp 0x400 [(18, 2, 1), (24, 4, v5), (28, 2, 9)]
def readP : Packet := fp 0x401 [(18, 2, 1), (24, 4, v5)]
def typeP : Packet := kp 0x402 [(18, 2, 1), (20, 4, v5), (24, 1, 2)]
def withP (f : Points → Points) (s : State := up) : State := s.onPoints f

theorem witness_pointWrite : FastRuns pointWriteOp writeP (wait writeP) ∧ pointWriteEntries writeP = [(v5, 9)] ∧ heldByAction (wait writeP) v5 = false ∧
    (wait writeP).points.now = [] ∧ (wait writeP).points.writesNow < 4096 ∧
    runs (.pointWrite writeP) (wait writeP) (fun t => pget t v5 == 9 && t.plane.results.contains (.write 16000 v5 9 Writer.direct.code 0)) = true ∧
    (let s := withP (fun q => { q with running := [{ (default : RunAct) with pt := v5, ramp := true, k := 3, duration := 3, fire := 16000 }] }) (wait writeP)
     FastRuns pointWriteOp writeP s ∧ heldByAction s v5 = true ∧ runs (.pointWrite writeP) s (fun t => done writeP .busy up t && pget t v5 == 0) = true) ∧
    (let s := withP (fun q => { q with writesNow := 4096 }) (wait writeP)
     FastRuns pointWriteOp writeP s ∧
     runs (.pointWrite writeP) s (fun t => t.points.moving.map (·.v) == [9] && (t.points.lateWriters.any fun l => l.p == writeP && l.left == 1)) = true) := by
  decide +kernel

theorem witness_pointRead : FastRuns pointReadOp readP (wait readP) ∧
    runs (.pointRead readP) (wait readP) (fun t => t.points.reads == [readP]) = true ∧
    (let s := pput (withP (fun q => { q with reads := [readP] }) (wait readP)) v5 513
     s.points.reads = [readP] ∧ ranLate readP s = false ∧ s.points.stale = false ∧
     done readP .ok up (answerReads s) = true ∧ memReadN (answerReads s) (0x44000000 + 24) 2 = [1, 2] ∧
     mayRead s 0 (gallery v5) = true ∧ windowRead s 0 (0x41000000 + 2 * v5) = 513) := by decide +kernel

theorem witness_pointType : KeeperRuns pointTypeOp typeP (keep typeP) ∧ typeP.bit 16 0 = false ∧ pointCount typeP = 1 ∧
    timersAfter (keep typeP) (pointStart typeP) (pointStart typeP + 1) (typeP.fld 24 0 2 == 2) ≤ 4096 ∧ Tbl.wf {} (keep typeP).store.attrs = true ∧
    runs (.pointType typeP) (keep typeP) (fun t => done typeP .ok up t && isTimer t v5) = true := by decide +kernel

theorem witness_timer : let s := pput (up.onStore fun st => { st with attrs := [(v5, { ty := 2 })] }) v5 1
    packetsDone s = true ∧ timerDue s v5 = true ∧ s.points.writesNow < 4096 ∧
    runs (.timerExpiry v5) s (fun t => pget t v5 == 0 && t.points.timersNow == [v5]) = true := by decide +kernel

theorem witness_deferredWrite : let s := withP fun q => { q with deferred := [{ pt := v5, v := 3, kind := .device, idx := 0 }] }
    s.points.deferred.map (·.kind) = [.device] ∧ s.points.now = [] ∧
    runs .pointWriteDeferred s (fun t => pget t v5 == 3 && t.points.deferred.isEmpty) = true := by decide +kernel

/-- A rule that writes G84:0005 on the rising edge of G81:0003. -/
def rule0 : Rule := { used := true, enabled := true, trig := pointAt 81 3, kind := 0, action := 0, target := v5, value := 44 }
def ruled (f : Points → Points) (s : State := up) : State := withP f (s.onStore fun st => { st with rules := [(0, rule0)] })
def change3 : Change := { pt := pointAt 81 3, old := 0, new := 1, lin := 16000 }

theorem witness_reflexEvaluate : inputsIn (ruled id) = true ∧ rulesAt (ruled id) (stampOf (ruled id) change3.lin) = [(0, rule0)] ∧
    rule0.watches change3.pt = true ∧ rule0.hit (armedAt (ruled id) (stampOf (ruled id) change3.lin) 0) change3.old change3.new = true ∧
    gateTrue (ruled id) rule0 = true ∧ rule0.action = 0 ∧ rule0.post = false ∧
    runs .reflexEvaluate (ruled fun q => { q with queue := [change3] }) (fun t => pget t v5 == 44 && Tbl.get t.points.fires 0 0 == 1) = true := by
  decide +kernel

/-- An action of rule 0 waits, as the rule fired. -/
def put0 (r : Rule := rule0) : Points → Points := fun q => { q with actQueue := [{ index := 0, rule := r, trigPt := pointAt 81 3, trigLin := 16000 }] }

theorem witness_reflexAction : runs .reflexActionDeferred (withP put0) (fun t => pget t v5 == 44 && t.points.actsNow == 1) = true ∧
    runs .reflexActionDeferred (withP (put0 { rule0 with action := 1, duration := 10 })) (fun t => pget t v5 == 44 && heldByAction t v5) = true ∧
    runs .reflexActionDeferred (withP (put0 { rule0 with action := 2, duration := 10, value := 160 })) (fun t => t.points.running.map (·.k) == [1]) = true ∧
    runs .reflexActionDeferred (withP (put0 { rule0 with action := 5 })) (fun t => t.points.actsNow == 1) = true := by
  decide +kernel

/-- An action that runs on G84:0005. -/
def act (ramp : Bool) (fire : Nat) : RunAct := { (default : RunAct) with pt := v5, ramp := ramp, fire := fire, duration := 10, start := 7, value := 47 }

theorem witness_actions : inputsIn up = true ∧
    runs (.pulseEnd v5) (withP fun q => { q with running := [act false 15990] }) (fun t => pget t v5 == 7 && !heldByAction t v5) = true ∧
    runs (.rampStep v5) (withP fun q => { q with running := [act true 15991] }) (fun t => pget t v5 == 47 && !heldByAction t v5) = true ∧
    runs (.rampStep v5) (withP fun q => { q with running := [act true 15996] }) (fun t => t.points.running.map (·.k) == [5]) = true ∧
    (act true 15996).k < min 10 (up.plane.lin - 15996 + 1) := by decide +kernel

/-- REFLEX.LOAD of a rule whose A and B do not agree. -/
def badRuleP : Packet := kp 0x500 [(18, 1, 1), (19, 1, 1), (32, 4, pointAt 81 3), (36, 1, 2), (40, 2, 9), (42, 2, 5), (48, 4, v5), (52, 2, 44)]

/-- REFLEX.LOAD of that rule, REFLEX.ENABLE of it, REFLEX.STATS with CLEAR. -/
def loadRuleP : Packet := kp 0x500 [(18, 1, 1), (19, 1, 1), (32, 4, pointAt 81 3), (48, 4, v5), (52, 2, 44)]
def enableP : Packet := kp 0x501 [(18, 2, 1), (20, 1, 0)]
def statsP : Packet := kp 0x502 [(20, 1, 1)]

theorem witness_reflexLoad : KeeperRuns reflexLoadOp loadRuleP (keep loadRuleP) ∧ loadRules loadRuleP = [(0, rule0)] ∧ rule0.agrees = true ∧
    triggersFit (Tbl.put (keep loadRuleP).store.rules {} 0 rule0) = true ∧ Tbl.wf {} (keep loadRuleP).store.rules = true ∧ rule0.action ≠ 3 ∧ rule0.action ≠ 4 ∧
    runs (.reflexLoad loadRuleP) (keep loadRuleP) (fun t => done loadRuleP .ok up t && (ruleAt t 0).target == v5) = true := by decide +kernel

theorem witness_reflexEnable : KeeperRuns reflexEnableOp enableP (ruled id (keep enableP)) ∧ usedRules (ruled id (keep enableP)) 0 1 = [(0, rule0)] ∧
    Tbl.wf {} (ruled id (keep enableP)).store.rules = true ∧ runs (.reflexEnable enableP) (ruled id (keep enableP)) (fun t => !(ruleAt t 0).enabled) = true ∧
    KeeperRuns reflexStatsOp statsP (keep statsP) ∧ statsP.bit 20 0 = true := by decide +kernel

/-- Input settings, and the field die as `f` says. -/
def inputs (f : InputStore → InputStore) (s : State := up) : State := s.onStore fun st => { st with input := f st.input }
def fieldDie (f : FieldDie → FieldDie) (s : State := up) : State := s.onDie fun d => f { d with running := true, configured := true, lost := false }

theorem witness_siChange : siSampled up = true ∧ (siCfg up 8).enable = true ∧ sampleTick 8 (siCfg up 8).sample up.input.count = true ∧
    siThreshold (siCfg up 8) up.seq.vbatl < 13000 ∧ 1 ≤ (siCfg up 8).countF ∧
    (let s := up.onSi 8 fun x => { x with count := (siCfg up 8).countF - 1 }
     let mv := if (siCfg up 8).toBat then 13000 else 0
     runs (.siFilterChange 8 mv) s (fun t => (siOf t 8).out && (vget t.plane.landings 0).items.map (·.writes) == [[(siPoint 8, 1)]]) = true) ∧
    runs (.siFilterChange 8 (if (siCfg up 8).toBat then 0 else 13000)) up (fun t => !(siOf t 8).out && (vget t.plane.landings 0).items.isEmpty) = true := by
  decide +kernel

theorem witness_siWake : let s := (inputs fun x => { x with si := vmod x.si 8 fun g => { g with wakeEn := true } }).onSi 8 fun x => { x with count := (siCfg up 8).countF - 1 }
    let s := { s with sleep := { s.sleep with darkCommit := some 0 } }
    (siCfg s 8).wakeEn = true ∧ siSampled s = true ∧ armedSource s 1 8 = true ∧
    runs (.siFilterChange 8 (if (siCfg up 8).toBat then 13000 else 0)) s (fun t => t.sleep.latches.map (·.index) == [8]) = true := by decide +kernel

/-- AI2 has taken `l` of the four samples that its oldest interval start asks for. -/
def converting (l : List Nat) : State :=
  (diagnosed up).onInput fun x => { x with ai := vmod x.ai 2 fun _ => { starts := [4, 4], got := l }, count := 8 }

theorem witness_aiResult : slotOwner (converting [2048, 2048, 2048]) = some 2 ∧ slotOwner (converting [2048]) = some 2 ∧
    runs (.aiConversionResult 2 20000) (converting [2048, 2048, 2048]) (fun t => vget t.input.ai 2 == { starts := [4] } &&
      (vget t.plane.landings 0).items.map (·.writes) == [[(aiPoint 2, 32768)]]) = true ∧
    runs (.aiConversionResult 2 20000) (converting [2048]) (fun t => vget t.input.ai 2 == { starts := [4, 4], got := [2048, 2048] }) = true := by
  decide +kernel

theorem witness_cyclicSense : let s := inputs (fun x => { x with si := vmod x.si 3 fun g => { g with wakeEn := true } }) { State.reset with seq := { powered := true } }
    let s := { s with now := darkPulse s.store.input.dark.pulse }
    sensing s = true ∧ pulseEnds s 0 = true ∧ (siCfg s 3).wakeEn = true ∧ (siCfg s 4).wakeEn = false ∧
    (let mv := if (siCfg s 3).toBat then 13000 else 0
     runs (.cyclicSense ⟨0, (List.replicate 8 mv)⟩) s (fun t => (siOf t 3).differs == 1 && (siOf t 4).differs == 0) = true) := by decide +kernel

theorem witness_reload : let s := (up.onInput fun x => { x with reloadSi := true }).onSi 3 fun x => { x with out := true }
    feedsL0 s 7 = true ∧ s.input.reloadSi = true ∧ pget s (siPoint 3) ≠ BitVec.ofNat 16 (b2n (siOf s 3).out) ∧
    runs .tickHallInputReload s (fun t => (vget t.plane.landings 0).items.map (·.writes) == [[(siPoint 3, 1)]]) = true ∧
    (let s := (fieldDie fun d => { d with fi := vmapIdx d.fi fun _ x => { x with out := true } }).onInput fun x => { x with reloadFi := true }
     feedsL0 s 8 = true ∧ s.points.stale = false ∧ s.input.die.running = true ∧
     runs .tickHallInputReload s (fun t => (vget t.plane.landings 0).items.length == 16) = true) := by decide +kernel

/-- INPUT.CONFIG of SI3, of SI3 disabled, and of AI2; FIELD.CONFIG of FI3, of FO2 and with UNLOCK; FIELD.STATUS with CLEAR. -/
def inputP : Packet := kp 0x600 [(17, 1, 1), (24, 1, 3), (25, 1, 1 + 4 + 64), (26, 1, 10), (27, 2, 250)]

def inputOffP : Packet := kp 0x600 [(17, 1, 1), (24, 1, 3), (25, 1, 4 + 64), (26, 1, 10), (27, 2, 250)]

def aiP (n : Nat) : Packet := kp 0x600 [(17, 1, 1), (24, 1, 128 + 2), (25, 1, 1), (27, 2, n)]

def fieldP : Packet := kp 0x610 [(17, 1, 1), (24, 1, 3), (25, 1, 3), (26, 1, 10), (27, 2, 500)]

def fieldOutP : Packet := kp 0x610 [(17, 1, 1), (24, 1, 128 + 2), (25, 1, 2)]

def fieldUnlockP : Packet := kp 0x610 [(16, 1, 1), (18, 1, 4)]

def fieldStatP : Packet := kp 0x611 [(16, 1, 1)]

theorem witness_inputConfig : KeeperRuns inputConfigOp inputP (keep inputP) ∧ inputP.bit 16 0 = false ∧ inputP.bit 16 1 = false ∧ inCount inputP = 1 ∧
    inIsAi inputP 0 = false ∧ inIx inputP 0 = 3 ∧
    inputsAgree { (keep inputP).store.input with si := vmod (keep inputP).store.input.si 3 fun _ => siCfgOf inputP 0 } = true ∧
    runs (.inputConfig inputP) (keep inputP) (fun t => done inputP .ok up t && (siCfg t 3).countF == 10) = true ∧
    KeeperRuns inputConfigOp inputOffP (keep inputOffP) ∧ (siCfgOf inputOffP 0).enable = false ∧
    runs (.inputConfig inputOffP) (keep inputOffP) (fun t => done inputOffP .ok up t && !(siCfg t 3).enable) = true := by decide +kernel

theorem witness_aiConfig : KeeperRuns inputConfigOp (aiP 500) (keep (aiP 500)) ∧ inIsAi (aiP 500) 0 = true ∧ inIx (aiP 500) 0 = 2 ∧
    inputsAgree { (keep (aiP 500)).store.input with ai := vmod (keep (aiP 500)).store.input.ai 2 fun _ => aiCfgOf (aiP 500) 0 } = true ∧
    runs (.inputConfig (aiP 500)) (keep (aiP 500)) (done (aiP 500) .ok up) = true := by decide +kernel

theorem witness_fieldSupply : runs (.fieldSupplyChange 0 8999) (fieldDie fun d => { d with fsa := 0 }) (fun t => t.input.die.fsa == 2 && vget t.input.fs 0 == 8999) = true ∧
    runs (.fieldSupplyChange 0 9500) (fieldDie fun d => { d with fsa := 0 }) (fun t => t.input.die.fsa == 1) = true ∧
    runs (.fieldSupplyChange 1 8000) (fieldDie fun d => { d with fsb := 0 }) (fun t => (foOf t 7).cond.holds.testBit 1) = true ∧
    (let s := { fieldDie (fun d => { d with okFrom := vmod d.okFrom 1 fun _ => some 0, fo := vmapIdx d.fo fun _ x => { x with cond := { x.cond with holds := 2 } } }) with now := 800000 }
     heldFor s.now (vget s.input.die.okFrom 1) = true ∧
     runs (.fieldSupplyChange 1 24000) s (fun t => t.input.die.fsb == 0 && !(foOf t 7).cond.holds.testBit 1) = true) ∧
    runs .fieldDieStop (fieldDie id) (fun t => !t.input.die.running) = true ∧
    (let s := up.onInput fun x => { x with fs := vmod x.fs 0 fun _ => 24000 }
     runs .fieldDiePowerUp s (fun t => t.input.die.running && t.input.die.restarted && (foOf t 3).cond.holds.testBit 1) = true) := by decide +kernel

theorem witness_fieldInput : let g := vget (fieldDie id).input.die.fiCfg 8
    g.enable = true ∧ sampleTick 8 g.sample (fieldDie id).input.die.tick = true ∧
    runs (.fieldInputChange 8 24000) (fieldDie fun d => { d with fi := vmod d.fi 8 fun x => { x with count := g.countF - 1 } })
      (fun t => (vget t.input.die.fi 8).out && t.input.die.chg == [⟨8, 0, true⟩]) = true ∧
    runs (.fieldInputChange 8 0) (fieldDie id) (fun t => !(vget t.input.die.fi 8).out && t.input.die.chg.isEmpty) = true := by decide +kernel

/-- The main die has sent a frame. -/
def sentFrame (f : MainFrame) (g : FieldDie → FieldDie := id) : State := (fieldDie g).onField fun l => { l with sent := some f }

theorem witness_fieldFrame : runs (.fieldFrameRx true) (sentFrame { tick := 15984, fo := [1, 2] })
      (fun t => t.input.die.tick == 16000 && t.input.die.queue == [(16016, 1), (16017, 2)] && t.input.die.nextWin == some 1000) = true ∧
    runs (.fieldFrameRx true) (sentFrame { tick := 15984, cfgValid := true, cfgAddr := 23, cfgData := 0 } fun d => { d with cfgSeen := 2 ^ 23 - 1, configured := false })
      (fun t => t.input.die.configured && !t.input.die.restarted) = true ∧
    runs (.fieldFrameRx true) (sentFrame { tick := 15984, park := true }) (fun t => t.input.die.parkDue) = true ∧
    runs (.fieldFrameRx true) (sentFrame { tick := 0 } fun d => { d with nextWin := some 998, goodRun := 5 })
      (fun t => t.input.die.goodRun == 6 && t.input.die.nextWin == some 1) = true ∧
    runs (.fieldFrameRx false) (sentFrame { tick := 15984 } fun d => { d with goodRun := 5 }) (fun t => t.input.die.goodRun == 0 && t.input.link.sent.isNone) = true ∧
    runs (.fieldFrameRx true) (sentFrame { tick := 15984 } fun d => { d with goodRun := 5, nextWin := some 998 }) (fun t => t.input.die.goodRun == 0) = true := by
  decide +kernel

theorem witness_fieldLost : runs .fieldLinkLost (fieldDie fun d => { d with lastGood := some 0, wire := 79, fo := vmapIdx d.fo fun _ x => { x with cmd := true } })
      (fun t => t.input.die.lost && !(vget t.input.die.fo 0).cmd) = true ∧
    (let s := (fieldDie fun d => { d with lost := true, goodRun := 8, wire := 900, queue := [(64, 1)] }).onField fun l => { l with cfgStored := true }
     runs .fieldLinkRecover s (fun t => !t.input.die.lost && t.input.die.tick == 900 && t.input.die.queue == [] && !t.input.link.cfgStored) = true) := by
  decide +kernel

theorem witness_fieldReconfigure : runs .fieldReconfigure ((fieldDie fun d => { d with configured := false }).onField fun l => { l with needCfg := true })
      (fun t => !t.input.link.needCfg && t.input.link.cfgQueue.length == 24) = true ∧
    runs .fieldPark (fieldDie fun d => { d with parkDue := true }) (fun t => t.input.die.parked) = true := by decide +kernel

/-- Every field output is commanded on, as `f` says. -/
def fieldOn (f : Fo → Fo := id) : State := fieldDie fun d => { d with fo := vmapIdx d.fo fun _ x => f { x with cmd := true } }

theorem witness_fieldOutput : foOn (fieldOn).input.die 2 = true ∧
    runs (.fieldOutputFault 2 7 [800] true) (fieldOn) (fun t => (foOf t 2).cond.locks.testBit 7 && !foOn t.input.die 2) = true ∧
    runs (.fieldOutputFault 2 6 [175] true) (fieldOn) (fun t => (foOf t 2).cond.holds.testBit 6 && !foOn t.input.die 2) = true ∧
    runs (.fieldOutputFault 2 6 [175] true) (fieldOn fun x => { x with restarts := 16 }) (fun t => (foOf t 2).cond.locks.testBit 6) = true ∧
    runs (.fieldOutputFault 2 6 [160] false) (fieldOn fun x => { x with cond := { x.cond with holds := 64 } }) (fun t => (foOf t 2).restarts == 1 && foOn t.input.die 2) = true ∧
    (let s := fieldDie fun d => { d with foCfg := vmod d.foCfg 2 fun g => { g with olEn := true } }
     foOn s.input.die 2 = false ∧ runs (.fieldOutputFault 2 8 (List.replicate 8 4001) true) s (fun t => (foOf t 2).cond.active.testBit 8) = true) ∧
    runs (.fieldOutputFault 2 8 (List.replicate 8 3999) false) (fieldOn fun x => { x with cond := { x.cond with active := 256 } }) (fun t => !(foOf t 2).cond.active.testBit 8) = true ∧
    (let s := (fieldDie id).onInput fun i => { i with fs := vmod i.fs 1 fun _ => 24000 }
     foOn s.input.die 2 = false ∧ runs (.fieldOutputFault 2 9 [22001] true) s (fun t => (foOf t 2).cond.active.testBit 9) = true ∧
     runs (.fieldOutputFault 2 9 [22000] true) s (fun t => !(foOf t 2).cond.active.testBit 9) = true ∧
     runs (.fieldOutputFault 2 9 [20999] false) s (fun t => !(foOf t 2).cond.active.testBit 9) = true) := by
  decide +kernel

/-- The main die waits for window 100, and the field die has sent a frame. -/
def window100 (f : FieldLink → FieldLink) (g : FieldFrame := { window := 100 }) : State :=
  (up.onField fun l => f { l with next := 100 }).onDie fun d => { d with sent := some g }

theorem witness_barrierFrame : 16 * 100 + 47 ≤ (window100 id).wallTick ∧ feedsL0 (window100 id) 8 = true ∧
    runs (.barrierFrameRx true) (window100 id { window := 100, fiState := 8, fsa := 1, chg := [⟨3, 5, true⟩] }) (fun t => t.input.link.next == 101 &&
      ((vget t.plane.landings 0).items.any fun i => i.stamp.tick == 1637 && i.writes == [(fiPoint 3, 1)]) &&
      (vget t.plane.landings 0).items.any fun i => i.stamp.tick == 1647 && i.writes == [(fsPoint 0, 1)]) = true ∧
    runs (.barrierFrameRx true) (window100 fun l => { l with stale := true }) (fun t => !t.input.link.stale &&
      (vget t.plane.landings 0).items.any fun i => i.stale == some false) = true ∧
    runs (.barrierFrameRx true) (window100 id { window := 100, stale := true }) (fun t => t.input.link.missRun == 1 && t.input.link.next == 101) = true ∧
    runs (.barrierWindowMiss 100) (window100 fun l => { l with missRun := 2 }) (fun t => t.input.link.stale && t.input.link.missed == 1 &&
      (vget t.plane.landings 0).items.any fun i => i.stale == some true) = true := by decide +kernel

theorem witness_fieldConfig : KeeperRuns fieldConfigOp fieldP (keep fieldP) ∧ fieldP.bit 16 0 = false ∧ fcCount fieldP = 1 ∧ fcIsFo fieldP 0 = false ∧
    fcIx fieldP 0 = 3 ∧ fieldP.num 18 1 = 0 ∧
    (keep fieldP).points.stale = false ∧ ((vmod (keep fieldP).store.input.fi 3 fun _ => fiCfgOf fieldP 0).toList.all fun g => !g.wakeEn || g.enable) = true ∧
    runs (.fieldConfig fieldP) (keep fieldP) (fun t => done fieldP .ok up t && (vget t.input.die.fiCfg 3).sample == 500) = true := by decide +kernel

theorem witness_fieldConfig_more : (let s := (keep fieldP).onPoints fun q => { q with stale := true }
     KeeperRuns fieldConfigOp fieldP s ∧ runs (.fieldConfig fieldP) s (fun t => done fieldP .stale up t && t.input.link.cfgStored) = true) ∧
    KeeperRuns fieldConfigOp fieldOutP (keep fieldOutP) ∧ fcIsFo fieldOutP 0 = true ∧ fcIx fieldOutP 0 = 2 ∧
    runs (.fieldConfig fieldOutP) (keep fieldOutP) (done fieldOutP .ok up) = true ∧
    KeeperRuns fieldStatusOp fieldStatP (keep fieldStatP) ∧ fieldStatP.bit 16 0 = true ∧
    runs (.fieldStatus fieldStatP) (keep fieldStatP) (done fieldStatP .ok up) = true := by decide +kernel

theorem witness_fieldUnlock : (let s := (keep fieldUnlockP).onFo 2 fun x => { x with cond := { x.cond with locks := 128 } }
     KeeperRuns fieldConfigOp fieldUnlockP s ∧ bitList 8 (fieldUnlockP.num 18 1) = [2] ∧ (foOf s 2).cond.locks ≠ 0 ∧
     (s.store.input.fi.toList.all fun g => !g.wakeEn || g.enable) = true ∧
     runs (.fieldConfig fieldUnlockP) s (fun t => done fieldUnlockP .ok up t && (foOf t 2).cond.locks == 0) = true) ∧
    (let s := (keep fieldUnlockP).onFo 2 fun x => { x with cond := { x.cond with locks := 64, cool := false } }
     KeeperRuns fieldConfigOp fieldUnlockP s ∧ (foOf s 2).cond.locks.testBit 6 = true ∧
     runs (.fieldConfig fieldUnlockP) s (done fieldUnlockP .locked up) = true) := by decide +kernel

/-- CAN0 is on its bus in mode `m`, as `f` says, with filter element 0 = `e`. -/
def can0 (f : Can → Can) (e : FilterElem := {}) (s : State := up) : State :=
  (s.onStore fun st => { st with can := { st.can with
      mode := vmod st.can.mode 0 fun m => { m with op := 1, fd := true, filterLen := 1 }, filter := Tbl.put [] {} 0 e
      sig := Tbl.put [] {} 5 { start := 0, length := 8 } } }).onCan 0 fun x => f { x with state := 1 }

/-- A frame, and an element that takes it. -/
def frame7 : CanFrame := { id := 7, fdf := true, len := 16, data := List.replicate 16 0x2A }
def takes7 : FilterElem := { type := 2, id1 := 7, id2 := 7, action := 1, notify := true, sigFirst := 5, sigCount := 1 }

theorem witness_canFrame : let s := can0 id takes7
    (cutOff s = false ∧ (canMode s 0).op = 1 ∧ (canOf s 0).state = 1 ∧ (canOf s 0).isOwn frame7 = false ∧ (canMode s 0).fd = true ∧ frame7.res = false ∧
      (netOf s 0).xcvr < 2 ∧ findElem s 0 frame7 = some 0 ∧ (filterAt s 0).secure = false ∧ (filterAt s 0).action = 1 ∧ Tbl.wf {} (canOf s 0).ram = true ∧
      feedsL0 s 6 = true) ∧
    runs (.canFrameAccept 0 frame7) s (fun t => (canOf t 0).wseq0 == 1 && (vget t.plane.landings 0).items.map (·.writes) == [[(sigPoint 5, 0x2A)]]) = true ∧
    (let s := can0 (fun x => { x with state := 2 }) { takes7 with action := 3, buffer := 63, notify := false }
     (cutOff s = false ∧ (canMode s 0).op = 1 ∧ (canOf s 0).isOwn { frame7 with rtr := true } = false ∧ findElem s 0 { frame7 with rtr := true } = some 0 ∧
       (filterAt s 0).action = 3 ∧ (filterAt s 0).secure = false ∧ Tbl.wf {} (canOf s 0).ram = true) ∧
     runs (.canFrameAccept 0 { frame7 with rtr := true }) s (fun t => (Tbl.get (canOf t 0).ram {} 63).seq == 2 && (Tbl.get (canOf t 0).ram {} 63).data.isEmpty) = true) ∧
    (let s := can0 (fun x => { x with wseq1 := 2 ^ 32 - 1 }) { takes7 with action := 2 }
     findElem s 0 frame7 = some 0 ∧ (filterAt s 0).action = 2 ∧
     runs (.canFrameAccept 0 frame7) s (fun t => (canOf t 0).wseq1 == 0 && (Tbl.get (canOf t 0).ram {} 191).data == frame7.data) = true) := by
  decide +kernel

theorem witness_canOther : (let s := can0 id
     cutOff s = false ∧ (canMode s 0).op = 1 ∧ (canOf s 0).isOwn frame7 = false ∧ (netOf s 0).xcvr < 2 ∧
     findElem s 0 frame7 = none ∧ (canMode s 0).nonmatch = 0 ∧ (canMode s 0).fd = true ∧
     runs (.canFrameAccept 0 frame7) s (fun t => (canOf t 0).nonmatch == 1 && (canOf t 0).rxFrames == 1) = true) ∧
    (let s := can0 id { takes7 with secure := true }
     findElem s 0 frame7 = some 0 ∧ (filterAt s 0).secure = true ∧ (filterAt s 0).action ≠ 0 ∧ (canMode s 0).fd = true ∧
     runs (.canFrameAccept 0 frame7) s (fun t => (canOf t 0).verdicts.map (·.at_) == [32]) = true) ∧
    (let s := (can0 id takes7).onStore fun st => { st with can := { st.can with mode := vmod st.can.mode 0 fun m => { m with fd := false } } }
     frame7.fdf = true ∧ (canMode s 0).fd = false ∧ (canMode s 0).op = 1 ∧ (canOf s 0).state = 1 ∧ (canOf s 0).isOwn frame7 = false ∧
     runs (.canFrameAccept 0 frame7) s (fun t => (canOf t 0).errors == 1 && (canOf t 0).recErr == 1 && (canOf t 0).rxFrames == 0) = true) := by decide +kernel

/-- CAN0 with one verdict due on the frame `f`; `fault` where the engine answers none. -/
def judging (f : CanFrame) (fault : Bool) : State :=
  can0 fun x => { x with verdicts := [{ frame := f, element := 0, stream := 3, at_ := 0, stamp := ⟨up.plane.epoch, 15990⟩, fault := fault }] }

/-- A secure frame with payload 1, 2 and the freshness 5, and its tag. -/
def sealed5 : CanFrame :=
  { id := 7, fdf := true, len := 14, data := secureData [] 0 5 { id := 7 } [1, 2] }

theorem witness_verdict : let s := judging frame7 true
    (canOf s 0).verdicts = [{ frame := frame7, element := 0, stream := 3, at_ := 0, stamp := ⟨up.plane.epoch, 15990⟩, fault := true }] ∧ 0 ≤ s.now ∧ cutOff s = false ∧
    (judge s { frame := frame7, element := 0, stream := 3, at_ := 0, stamp := ⟨up.plane.epoch, 15990⟩, fault := true }).1 = .hwFault ∧ (filterAt s 0).notify = false ∧
    feedsL0 s 6 = true ∧ runs (.secureCanVerdict 0) s (fun t => (canOf t 0).verdicts.isEmpty && (canOf t 0).authFail == 1 &&
      (vget t.plane.landings 0).items.map (fun it => it.events.map (·.kind)) == [[0x0704]]) = true := by decide +kernel

theorem witness_verdictOk : (canOf (judging sealed5 false) 0).verdicts =
      [{ frame := sealed5, element := 0, stream := 3, at_ := 0, stamp := ⟨up.plane.epoch, 15990⟩, fault := false }] ∧
    (judge (judging sealed5 false) { frame := sealed5, element := 0, stream := 3, at_ := 0, stamp := ⟨up.plane.epoch, 15990⟩, fault := false }).1 = .ok := by
  refine ⟨rfl, ?_⟩
  have hs : streamOf (judging sealed5 false) 3 = {} := rfl
  have hg : streamCfg (judging sealed5 false) 3 = {} := rfl
  have hk : ∀ a : List Byte, (Config.gcmTag [] (secureIv 0 5) a []).length = 16 := fun a => by simp [Config.gcmTag, padTo]; omega
  have hd : sealed5.data = [1, 2] ++ [0, 0, 0, 5] ++ (Config.gcmTag [] (secureIv 0 5) (secureAad { id := 7 } [1, 2]) []).take 8 := rfl
  have hl : sealed5.data.length = 14 := by rw [hd]; simp [hk]
  have hp : securePayload sealed5 = [1, 2] := by rw [securePayload, hl, hd]; rfl
  have ht : sealed5.data.drop (14 - 8) = (Config.gcmTag [] (secureIv 0 5) (secureAad sealed5 [1, 2]) []).take 8 := rfl
  have hlow : (sealed5.data.drop (14 - 12)).take 4 = [0, 0, 0, 5] := rfl
  have hb : beNat [0, 0, 0, 5] = 5 := by decide
  have hf : (if 0 / 2 ^ 32 * 2 ^ 32 + 5 ≤ 0 then 0 / 2 ^ 32 * 2 ^ 32 + 5 + 2 ^ 32 else 0 / 2 ^ 32 * 2 ^ 32 + 5) = 5 := by decide
  have hc : counterEnd = 2 ^ 64 - 1 := rfl
  have hx : sealed5.fdf = true := rfl
  simp only [judge, hs, hg, hl, hp, ht, hlow, hb, hf, hc, hx]
  simp

theorem witness_signalTimeout : let s := (up.onStore fun st => { st with can := { st.can with sig := Tbl.put [] {} 9 { length := 4, timeout := 2 } } })
    max s.bus.sigBase (Tbl.get s.bus.sigLast 0 9) + msTicks (sigOf s 9).timeout ≤ s.plane.lin ∧ s.plane.tick % 8000 = 0 ∧ s.plane.running = true ∧
    s.bus.sigOut.contains 9 = false ∧ (sigOf s 9).length ≠ 0 ∧ (sigOf s 9).timeout ≠ 0 ∧
    runs (.signalTimeout 9) s (fun t => t.bus.sigOut.contains 9) = true := by decide +kernel

/-- CAN.SEND of a secure frame on stream 3. -/
def canSecP : Packet := fp 0x702 [(18, 1, 2), (19, 1, 16 + 96 + 1), (20, 4, 7), (32, 2, 0xBEEF)]

/-- Stream 3 draws its counter from slot 40. -/
def drawing3 (s : State := can0 id) : State :=
  s.onStore fun st => { st with keys := Tbl.put st.keys {} 40 { alg := 1, counter := 7, commit := 4096 }
                                can := { st.can with stream := vmod st.can.stream 3 fun g => { g with keySlot := 40 } } }

/-- CAN.SEND of identifier 7 with 2 bytes on CAN0, with CONFIRM where `k`; CAN.CANCEL of HANDLE 5. -/
def canSendP (k : Bool := false) : Packet := fp 0x702 [(16, 1, if k then 16 else 0), (18, 1, 2), (20, 4, 7), (32, 2, 0xBEEF)]
def canCancelP : Packet := fp 0x703 [(18, 2, 5)]

/-- An item of the tick before stands in L4. -/
def handing (k : L4Kind) (s : State) : State := s.onBus fun b => { b with l4 := [⟨15999, 1, 0, k⟩] }

theorem witness_handover : let s := handing (.send canSendP false) (can0 id)
    (15999 < s.plane.lin ∧ canSendP.bit 16 4 = false ∧ (sendReq s canSendP).secure = false ∧ (sendReq s canSendP).c = 0 ∧
      queueFree (canOf s (sendReq s canSendP).c) (sendReq s canSendP).queue = true ∧ dryReplay s = false) ∧
    runs (.frameHandover false) s (fun t => done canSendP .ok s t && (canOf t 0).fifo.map (·.frame.data) == [[0xEF, 0xBE]]) = true ∧
    runs (.frameHandover true) (handing (.send (canSendP true) false) (can0 id)) (fun t =>
      (canOf t 0).fifo.map (·.confirm) == [some (canSendP true)]) = true ∧
    (let s := handing (.send canSendP true) (can0 fun x => { x with fifo := List.replicate 32 {} })
     queueFree (canOf s 0) (sendReq s canSendP).queue = false ∧ runs (.frameHandover false) s (fun t => done canSendP .late up t) = true) ∧
    (let s := handing (.send canSecP false) drawing3
     (sendReq s canSecP).secure = true ∧ (sendReq s canSecP).c = 0 ∧ (sendReq s canSecP).stream = 3 ∧ queueFree (canOf s 0) (sendReq s canSecP).queue = true ∧
     (match (drawFresh s 3).2 with | .ok (some n) => n == 7 | _ => false) = true ∧
     runs (.frameHandover false) s (fun t => done canSecP .ok s t && (canOf t 0).fifo.map (fun f => (f.tagReady, f.readyAt)) == [(false, 32)]) = true) := by
  decide +kernel

theorem witness_handCancel : let s := handing (.cancel canCancelP false) (can0 id)
    (cancelNames s canCancelP = [] ∧ 15999 < s.plane.lin ∧ canCancelP.fld 16 0 3 = 0 ∧ runs (.frameHandover false) s (fun t => done canCancelP .conflict up t) = true) ∧
    (let f : TxFrame := { handle := 5, frame := { id := 9 }, confirm := some (canSendP true) }
     let s := handing (.cancel canCancelP false) (can0 fun x => { x with fifo := [f, { handle := 6 }], current := some 5 })
     cancelNames s canCancelP = [f] ∧ f.cancels = [] ∧ s.bus.cancels = [] ∧ (canOf s 0).current = some f.handle ∧
     runs (.frameHandover false) s (fun t => done canCancelP .cancelled up t && done (canSendP true) .cancelled up t && (canOf t 0).fifo.map (·.handle) == [6]) = true ∧
     runs (.frameHandover true) s (fun t => t.plane.results == s.plane.results && (canOf t 0).fifo.map (·.cancels) == [[canCancelP], []]) = true) := by
  decide +kernel

/-- A frame of HANDLE 5 that a packet waits for, as `g` says, and CAN0 sending it. -/
def frame5 : TxFrame := { handle := 5, frame := { id := 9 }, confirm := some (canSendP true), timeoutAt := some 0 }
def sending5 (n : Nat := 0) (g : TxFrame → TxFrame := id) : State := can0 fun x => { x with fifo := [g frame5], current := some 5, clashTbl := [(9, n)] }

theorem witness_txEnd : sendingOf (sending5 0) 0 = some frame5 ∧ ((canOf (sending5 0) 0).countClash (idKey frame5.frame)).2 < (canMode (sending5 0) 0).clashN ∧
    (canMode (sending5 1) 0).clashN ≤ ((canOf (sending5 1) 0).countClash (idKey frame5.frame)).2 ∧ feedsL0 (sending5 1) 6 = true ∧
    losesFrames sending5 0 = false ∧ frame5.cancels = [] ∧ frame5.timeoutHeld = false ∧
    runs (.canTxEnd 0 ⟨0, 127⟩) sending5 (fun t => done (canSendP true) .ok up t && (canOf t 0).fifo.isEmpty) = true ∧
    runs (.canTxEnd 0 ⟨1, 0⟩) sending5 (fun t => (canOf t 0).fifo.map (·.attempts) == [1]) = true ∧
    (let g : TxFrame → TxFrame := fun f => { f with cancels := [canCancelP] }
     sendingOf (sending5 0 g) 0 = some (g frame5) ∧ (g frame5).cancels ≠ [] ∧
     runs (.canTxEnd 0 ⟨2, 0⟩) (sending5 0 g) (fun t => done (canSendP true) .cancelled up t && (canOf t 0).fifo.isEmpty) = true) ∧
    (let g : TxFrame → TxFrame := fun f => { f with timeoutHeld := true }
     sendingOf (sending5 0 g) 0 = some (g frame5) ∧
     runs (.canTxEnd 0 ⟨2, 0⟩) (sending5 0 g) (fun t => done (canSendP true) .timeout up t && (canOf t 0).fifo.isEmpty) = true) ∧
    (let s := sending5.onCan 0 fun x => { x with old := some ({ canMode sending5 0 with op := 1 }, {}) }
     let s := s.onStore fun st => { st with can := { st.can with mode := vmod st.can.mode 0 fun m => { m with op := 2 } } }
     losesFrames s 0 = true ∧ sendingOf s 0 = some frame5 ∧ runs (.canTxEnd 0 ⟨1, 0⟩) s (fun t => done (canSendP true) .cancelled up t && (canOf t 0).fifo.isEmpty) = true) ∧
    runs (.canClash ⟨0, 0⟩) sending5 (fun t => (canOf t 0).txErr == 8) = true ∧ runs (.canClash ⟨0, 0⟩) (sending5 1) (fun t => done (canSendP true) .clash up t) = true := by
  decide +kernel

theorem witness_tagReady : (let s := can0 fun x => { x with fifo := [{ frame5 with secure := true, tagReady := false, stream := 3 }] }
     ((canOf s 0).frames.find? fun g => g.secure && !g.tagReady) = some { frame5 with secure := true, tagReady := false, stream := 3 } ∧
     (streamOf s 3).revoked = false ∧ runs (.secureTxTagReady 0) s (fun t => (canOf t 0).fifo.map (·.tagReady) == [true]) = true) ∧
    (let s := (can0 fun x => { x with fifo := [{ frame5 with secure := true, tagReady := false, stream := 3 }] }).onStream 3 fun x => { x with revoked := true }
     (streamOf s 3).revoked = true ∧
     runs (.secureTxTagReady 0) s (fun t => (canOf t 0).fifo.isEmpty && done (canSendP true) .keyRevoked up t) = true) := by decide +kernel

theorem witness_txTimeout : (canOf sending5 0).find 5 = some frame5 ∧ runs (.txTimeoutExpiry 0 ⟨5, true⟩) sending5 (fun t => (canOf t 0).fifo.map (·.timeoutHeld) == [true]) = true ∧
    runs (.txTimeoutExpiry 0 ⟨5, false⟩) sending5 (fun t => done (canSendP true) .timeout up t) = true ∧
    (let s := can0 fun x => { x with fifo := [frame5] }
     (canOf s 0).find 5 = some frame5 ∧ (canOf s 0).current ≠ some 5 ∧ runs (.txTimeoutExpiry 0 ⟨5, true⟩) s (fun t => done (canSendP true) .timeout up t) = true) := by decide +kernel

theorem witness_canErrors : (let s := can0 fun x => { x with txErr := 256 }
     3 = (canOf s 0).errState ∧ (canOf s 0).state = 1 ∧ feedsL0 s 6 = true ∧
     runs (.canErrorStateChange 0 3) s (fun t => (canOf t 0).busoffs == 1 && (canOf t 0).recovering) = true) ∧
    (let s := can0 fun x => { x with recErr := 128 }
     2 = (canOf s 0).errState ∧ runs (.canErrorStateChange 0 2) s (fun t => (canOf t 0).state == 2) = true) ∧
    (let s := (can0 id).onCan 0 fun x => { x with state := 3, txErr := 256, recovering := true }
     (canOf s 0).state = 3 ∧ (canOf s 0).recovering = true ∧ runs (.busoffRecovery 0) s (fun t => (canOf t 0).state == 1) = true) ∧
    (let s := (can0 id).onCan 0 fun x => { x with state := 4 }
     (canOf s 0).state = 4 ∧ (canMode s 0).op ≠ 0 ∧ runs (.canIntegrated ⟨0, false⟩) s (fun t => (canOf t 0).state == 1) = true) ∧
    (let s := (can0 id).onCan 0 fun x => { x with old := some ({ fd := false, op := 1 }, {}) }
     (canOf s 0).old.isSome = true ∧ losesFrames s 0 = false ∧
     runs (.canIntegrated ⟨0, true⟩) s (fun t => (canOf t 0).state == 4 && (canMode t 0).fd) = true) ∧
    ((canMode (can0 id) 0).op ≠ 0 ∧ (canOf (can0 id) 0).state = 1 ∧ (canMode (can0 id) 0).sends = true ∧
     runs (.canBusError 0 ⟨true, 0⟩) (can0 id) (fun t => (canOf t 0).txErr == 8 && (canOf t 0).errors == 1) = true ∧
     runs (.canBusError 0 ⟨true, 2⟩) (can0 id) (fun t => (canOf t 0).txErr == 0 && (canOf t 0).errors == 1) = true ∧
     runs (.canBusError 0 ⟨false, 1⟩) (can0 id) (fun t => (canOf t 0).recErr == 8 && (canOf t 0).errors == 0) = true ∧
     runs (.canBusError 0 ⟨false, 0⟩) (can0 id) (fun t => (canOf t 0).recErr == 1 && (canOf t 0).errors == 1) = true) := by
  decide +kernel

/-- LIN2 with settings `g`, as `f` says; its network follows where `m` is 3. -/
def lin2 (g : LinCfg) (f : Lin → Lin) (m : Nat := 0) (s : State := up) : State :=
  (s.onStore fun st => { st with can := { st.can with lin := vmod st.can.lin 2 fun _ => g }
                                 sleep := { st.sleep with net := vmod st.sleep.net 10 fun n => { n with mode := m } } }).onLin 2 f

theorem witness_linFrame : (let s := lin2 { role := 2, entries := Tbl.put [] {} 33 { dir := 2, len := 2, notify := true } } id
     cutOff s = false ∧ linAwake s 2 = true ∧ (Tbl.get (linCfgFor s 2 (linBits 2)).entries {} 33).dir = 2 ∧
     (Tbl.get (linCfgFor s 2 (linBits 2)).entries {} 33).len = [1, 2].length ∧ Tbl.wf {} (linAt s 2).ram = true ∧ feedsL0 s 6 = true ∧
     runs (.linFrameAccept 2 33 [1, 2]) s (fun t => (linAt t 2).rxFrames == 1 && (Tbl.get (linAt t 2).ram {} 33).data == [1, 2]) = true) ∧
    (let d : List Byte := 0 :: List.replicate 7 0xFF
     let s := lin2 { role := 2 } id 3
     cutOff s = false ∧ linAwake s 2 = true ∧ isGoToSleep 60 d = true ∧ (linCfgFor s 2 (linBits d.length)).role = 2 ∧ (netCfg s 10).mode = 3 ∧
     latchedBefore s = false ∧ (netOf s 10).state ≠ 1 ∧
     runs (.linFrameAccept 2 60 d) s (fun t => (netOf t 10).state == 1 && (netOf t 10).xcvr == 3 && (linAt t 2).asleep) = true) := by decide +kernel

theorem witness_linPublish : (let s := lin2 { role := 1, entries := Tbl.put [] {} 33 { dir := 1, len := 2 } } fun x =>
       { x with header := some 33, pub := Tbl.put [] {} 33 { written := true }, waits := [⟨33, 4, fp 0x712, false, 0⟩] }
     linAwake s 2 = true ∧ (netOf s 10).xcvr = 0 ∧ (linCfgFor s 2 34).role = 1 ∧ (linAt s 2).header = some 33 ∧
     (Tbl.get (linCfgFor s 2 34).entries {} 33).dir = 1 ∧ (Tbl.get (linCfgFor s 2 34).entries {} 33).eventOf ≠ 1 ∧ (Tbl.get (linAt s 2).pub {} 33).written = true ∧
     runs (.linHeaderPublish 2 33) s (fun t => done (fp 0x712) .ok s t && (linAt t 2).txFrames == 1 && (linAt t 2).waits.isEmpty) = true ∧
     ((linAt s 2).waits.find? fun v => v.handle == 4 && v.timeoutAt ≤ s.now) = some ⟨33, 4, fp 0x712, false, 0⟩ ∧
     runs (.txTimeoutExpiry 10 ⟨4, false⟩) s (fun t => done (fp 0x712) .timeout s t) = true) ∧
    (let s := lin2 { role := 2, entries := Tbl.put [] {} 34 { eventOf := 1, assoc := 33 } } fun x => { x with pub := Tbl.put [] {} 33 { written := true, event := true } }
     linAwake s 2 = true ∧ (Tbl.get (linCfgFor s 2 34).entries {} 34).eventOf = 1 ∧ (Tbl.get (linAt s 2).pub {} 33).event = true ∧
     runs (.linHeaderPublish 2 34) s (fun t => (linAt t 2).txFrames == 1) = true) ∧
    (let s := lin2 { role := 1 } fun x => { x with header := some 60, master := some (List.replicate 8 1), waits := [⟨60, 4, fp 0x712, false, 0⟩] }
     linAwake s 2 = true ∧ (netOf s 10).xcvr = 0 ∧ (linCfgFor s 2 34).role = 1 ∧ (linAt s 2).master.isSome = true ∧
     runs (.linHeaderPublish 2 60) s (fun t => done (fp 0x712) .ok s t && (linAt t 2).master.isNone) = true) := by decide +kernel

theorem witness_linSlot : (let s := lin2 { role := 1, tables := vmod (Vector.replicate 4 []) 1 fun _ => [{ id := 33, ms := 10 }] } fun x => { x with table := some 1 }
     linRuns s 2 = true ∧ linAwake s 2 = true ∧ (linCfg s 2).role = 1 ∧ (linAt s 2).slotAt ≤ s.now ∧ (linAt s 2).pendingTable = none ∧ (linAt s 2).table = some 1 ∧
     (linTable s 2 1)[(linAt s 2).ix]? = some { id := 33, ms := 10 } ∧
     runs (.linScheduleSlot 2) s (fun t => (linAt t 2).header == some 33 && (linAt t 2).slotAt == 80000) = true ∧
     runs (.linError 2 33 4) s (fun t => vget (linAt t 2).errs 3 == 1) = true) ∧
    (let s := lin2 { role := 1 } fun x => { x with table := some 1, pendingTable := some none }
     linRuns s 2 = true ∧ (linAt s 2).pendingTable = some none ∧
     runs (.linScheduleSlot 2) s (fun t => (linAt t 2).table.isNone && (linAt t 2).pendingTable.isNone) = true) := by decide +kernel

theorem witness_linIdle : let s := { (lin2 { role := 2 } id 3) with now := 32000000 }
    (netCfg s 10).mode = 3 ∧ (linCfg s 2).role = 2 ∧ (linAt s 2).lastBus + msTicks 4000 ≤ s.now ∧ latchedBefore s = false ∧ (netOf s 10).state ≠ 1 ∧
    (netOf s 10).xcvr ≠ 3 ∧ runs (.linResponderIdle 2) s (fun t => (netOf t 10).state == 1 && (netOf t 10).xcvr == 3) = true := by decide +kernel

/-- LIN.SEND of 2 bytes to identifier `id` of LIN2, with CONFIRM where `k`. -/
def linToP (id : Nat) (k : Bool := false) : Packet := fp 0x712 [(16, 1, if k then 18 else 2), (18, 1, id), (19, 1, 2), (24, 2, 0xBEEF)]

theorem witness_linHand : (let s := handing (.linSend (linToP 33) false) (lin2 { role := 1, entries := Tbl.put [] {} 33 { dir := 1, len := 2 } } id)
     15999 < s.plane.lin ∧ (linSendReq s (linToP 33)).c = 2 ∧ dryReplay s = false ∧ (linSendReq s (linToP 33)).isMaster s = false ∧ Tbl.wf {} (linAt s 2).pub = true ∧
     runs (.frameHandover false) s (fun t => done (linToP 33) .ok s t && (Tbl.get (linAt t 2).pub {} 33).data == [0xEF, 0xBE]) = true) ∧
    (let s := handing (.linSend (linToP 33 true) false) (lin2 { role := 1, entries := Tbl.put [] {} 33 { dir := 1, len := 2 } } id)
     runs (.frameHandover false) s (fun t => (linAt t 2).waits.map (·.timeoutAt) == [8000000]) = true) ∧
    (let s := handing (.linSend (linToP 60) false) (lin2 { role := 1 } fun x => { x with master := some [] })
     (linSendReq s (linToP 60)).isMaster s = true ∧ (linAt s 2).master.isSome = true ∧
     runs (.frameHandover false) s (fun t => done (linToP 60) .busy s t) = true) := by decide +kernel

/-- CAN.CONFIG of NOMINAL, of DATA, of MODE; of stream 3 with key slot 40. -/
def nominalP (tseg1 : Nat := 127) : Packet := kp 0x700 [(20, 1, 1), (22, 2, tseg1), (24, 1, 32), (25, 1, 32)]

def canDataP : Packet := kp 0x700 [(16, 1, 8), (20, 1, 1), (21, 1, 29), (22, 1, 10), (23, 1, 10), (24, 1, 1), (25, 1, 30)]

def canModeP (op : Nat) : Packet := kp 0x700 [(16, 1, 16), (20, 1, op + 4), (21, 1, 2), (24, 2, 256)]

def canStreamP : Packet := kp 0x700 [(16, 1, 24 + 3), (20, 1, 1), (21, 1, 40), (28, 2, 64)]

def filterP : Packet := kp 0x701 [(18, 2, 3), (20, 2, 1), (32, 1, 2), (33, 1, 1), (36, 4, 7), (40, 4, 7)]
def busStatP (n : Nat) : Packet := kp 0x704 [(16, 1, n)]
def sigP : Packet := kp 0x705 [(18, 2, 5), (20, 2, 1), (32, 2, 8), (34, 1, 8)]
def tplP : Packet := kp 0x705 [(16, 1, 2), (17, 1, 2), (32, 1, 16), (34, 1, 4), (36, 4, 7)] 2

theorem witness_canConfig : (KeeperRuns canConfigOp nominalP (keep nominalP) ∧ nominalP.bit 16 5 = false ∧ ccPart nominalP = 0 ∧ ccIndex nominalP = 0 ∧
      canAgrees { up.store.can with nominal := vmod up.store.can.nominal 0 fun _ => ccNominal nominalP } = true ∧ (canOf (can0 id) 0).state = 1) ∧
    runs (.canConfig nominalP) (keep nominalP (can0 id)) (fun t => (canOf t 0).state == 1 && (canOf t 0).old.isSome) = true ∧
    runs (.canConfig nominalP) (keep nominalP ((can0 id).onCan 0 fun x => { x with state := 4 })) (fun t => (canOf t 0).state == 4 && (canOf t 0).old.isNone) = true ∧
    (KeeperRuns canConfigOp canDataP (keep canDataP) ∧ canDataP.bit 16 5 = false ∧ ccPart canDataP = 1 ∧
      canAgrees { up.store.can with data := vmod up.store.can.data 0 fun _ => ccData canDataP } = true ∧ (canOf up 0).state = 0) := by decide +kernel

theorem witness_canModeConfig : (KeeperRuns canConfigOp (canModeP 1) (keep (canModeP 1)) ∧ ccPart (canModeP 1) = 2 ∧
      canAgrees { up.store.can with mode := vmod up.store.can.mode 0 fun _ => ccMode (canModeP 1) } = true ∧
      runs (.canConfig (canModeP 1)) (keep (canModeP 1)) (fun t => (canOf t 0).state == 4 && (canMode t 0).op == 1) = true) ∧
    (KeeperRuns canConfigOp (nominalP 20) (keep (nominalP 20)) ∧
      canAgrees { up.store.can with nominal := vmod up.store.can.nominal 0 fun _ => ccNominal (nominalP 20) } = false ∧
      runs (.canConfig (nominalP 20)) (keep (nominalP 20)) (done (nominalP 20) .conflict up) = true) ∧
    (let s := keep canStreamP (up.onStore fun st => { st with keys := Tbl.put st.keys {} 40 { alg := 1, usage := 4, owner := 0, material := [9], fixed := 77 } })
     KeeperRuns canConfigOp canStreamP s ∧ ccPart canStreamP = 3 ∧ ccIndex canStreamP = 3 ∧ (ccStream canStreamP).enable = true ∧
     canAgrees { s.store.can with stream := vmod s.store.can.stream 3 fun _ => ccStream canStreamP } = true ∧
     runs (.canConfig canStreamP) s (fun t => (streamOf t 3).key == [9] && (streamOf t 3).fixed == 77) = true) := by decide +kernel

/-- CAN.SEND of template 2. -/
def canTplP : Packet := fp 0x702 [(16, 1, 8), (17, 1, 2)]

/-- Template 2 is a frame of 4 bytes on controller `c`. -/
def templated (c : Nat) (s : State) : State :=
  s.onStore fun st => { st with can := { st.can with tpl := Tbl.put [] {} 2 { used := true, controller := c, len := 4, id := if c < 8 then 7 else 33 } } }

theorem witness_canFilter : KeeperRuns canFilterOp filterP (keep filterP) ∧ filterP.bit 16 0 = false ∧ countOfPacket filterP = 1 ∧ firstOfPacket filterP = 3 ∧
    Tbl.wf {} up.store.can.filter = true ∧ canStreamsAgree { up.store.can with filter := Tbl.put up.store.can.filter {} 3 (elemAt filterP 32) } = true ∧
    runs (.canFilter filterP) (keep filterP) (fun t => (filterAt t 3).id1 == 7) = true := by decide +kernel

theorem witness_canSend : FastRuns canSendOp canSendP (wait canSendP (can0 id)) ∧ sendable (wait canSendP (can0 id)) (sendReq up canSendP) = true ∧
    canSendP.bit 16 3 = false ∧ FastRuns canSendOp canSendP (wait canSendP) ∧ sendable (wait canSendP) (sendReq up canSendP) = false ∧
    FastRuns canCancelOp canCancelP (wait canCancelP) ∧ runs (.canSend canSendP) (wait canSendP (can0 id)) (fun t => t.bus.l4.length == 1) = true ∧
    runs (.canSend canSendP) (wait canSendP) (done canSendP .conflict up) = true ∧
    runs (.canCancel canCancelP) (wait canCancelP) (fun t => t.bus.l4.map (·.kind) == [.cancel canCancelP false]) = true ∧
    (let s := wait canTplP (templated 0 (can0 id))
     FastRuns canSendOp canTplP s ∧ canTplP.bit 16 3 = true ∧ (tplOf s (canTplP.num 17 1)).used = true ∧ (tplOf s (canTplP.num 17 1)).controller < 8 ∧
     sendable s (sendReq s canTplP) = true ∧ runs (.canSend canTplP) s (fun t => t.bus.l4.map (·.kind) == [.send canTplP false]) = true) := by decide +kernel

theorem witness_canStatus : KeeperRuns canStatusOp (busStatP 16) (keep (busStatP 16)) ∧ (busStatP 16).fld 16 0 4 = 0 ∧ (busStatP 16).bit 16 4 = true ∧
    KeeperRuns canStatusOp (busStatP 10) (keep (busStatP 10)) ∧ (busStatP 10).fld 16 0 4 = 10 ∧ (busStatP 10).bit 16 4 = false ∧
    runs (.canStatus (busStatP 16)) (keep (busStatP 16) (can0 fun x => { x with rxFrames := 3 })) (fun t => (canOf t 0).rxFrames == 0) = true := by decide +kernel

theorem witness_sigmap : (KeeperRuns canSigmapOp sigP (keep sigP) ∧ smTemplate sigP = false ∧ smWrites sigP = true ∧ countOfPacket sigP = 1 ∧ firstOfPacket sigP = 5 ∧
      Tbl.wf {} up.store.can.sig = true ∧ muxAgrees { up.store.can with sig := Tbl.put up.store.can.sig {} 5 (sigAt sigP 32) } = true ∧
      canStreamsAgree up.store.can = true ∧ runs (.canSigmap sigP) (keep sigP) (fun t => (sigOf t 5).length == 8) = true) ∧
    KeeperRuns canSigmapOp tplP (keep tplP) ∧ smTemplate tplP = true ∧ smWrites tplP = true ∧ (tplAt tplP).used = true ∧ tplP.num 17 1 = 2 ∧ (tplAt tplP).lenOk = true ∧
    Tbl.wf {} up.store.can.tpl = true ∧ muxAgrees up.store.can = true ∧
    canStreamsAgree { up.store.can with tpl := Tbl.put up.store.can.tpl {} 2 (tplAt tplP) } = true ∧
    runs (.canSigmap tplP) (keep tplP) (fun t => (tplOf t 2).len == 4) = true := by decide +kernel

/-- LIN.CONFIG of LIN2 in role `r`; LIN.SCHEDULE loads, starts or stops table 1; LIN.SEND of identifier 33, and of template 2. -/
def linP (r : Nat := 1) : Packet := kp 0x710 [(16, 1, 2), (17, 1, r), (18, 2, 19200), (22, 1, 1), (24, 1, 33 + 64), (25, 1, 2)]
def schedP (k : Nat) : Packet := kp 0x711 ([(16, 1, 2 + 8 * k), (17, 1, 1)] ++ (if k = 0 then [(18, 1, 1), (24, 1, 33), (25, 1, 10)] else []))
def linSendP : Packet := fp 0x712 [(16, 1, 2), (18, 1, 33), (19, 1, 2), (24, 2, 0xBEEF)]

def linTplP : Packet := fp 0x712 [(16, 1, 8), (17, 1, 2)]

theorem witness_linConfig : KeeperRuns linConfigOp linP (keep linP) ∧ linP.bit 16 3 = false ∧ linP.fld 16 0 3 = 2 ∧ ((lcEntries linP).map (·.1)).Nodup ∧
    linAgrees (lcApply (linCfg up 2) linP) = true ∧ runs (.linConfig linP) (keep linP) (fun t => (linCfg t 2).role == 1) = true ∧
    (let s := keep (linP 0) (lin2 { role := 1 } fun x => { x with table := some 1, waits := [⟨33, 4, fp 0x712, false, 0⟩] })
     KeeperRuns linConfigOp (linP 0) s ∧ linAgrees (lcApply (linCfg s 2) (linP 0)) = true ∧ (lcApply (linCfg s 2) (linP 0)).role = 0 ∧
     runs (.linConfig (linP 0)) s (fun t => (linAt t 2).table.isNone && (linAt t 2).waits.isEmpty) = true) := by decide +kernel

theorem witness_linSchedule : let s := lin2 { role := 1 } id
    (KeeperRuns linScheduleOp (schedP 0) (keep (schedP 0) s) ∧ (schedP 0).fld 17 0 2 = 1 ∧ (schedP 0).fld 16 3 2 = 0 ∧ (schedP 0).fld 16 0 3 = 2 ∧
      (linCfg s 2).role = 1 ∧ (linAt s 2).table ≠ some 1 ∧ (linAt s 2).resume.map (·.1) ≠ some 1 ∧ (lsSlots (schedP 0)).all (slotOk s 2 1) = true ∧
      runs (.linSchedule (schedP 0)) (keep (schedP 0) s) (fun t => (linTable t 2 1).map (·.ms) == [10]) = true) ∧
    (KeeperRuns linScheduleOp (schedP 1) (keep (schedP 1) s) ∧ (schedP 1).fld 16 3 2 = 1 ∧ (linAt s 2).table = none ∧ (linTable s 2 1).all (slotOk s 2 1) = true ∧
      runs (.linSchedule (schedP 1)) (keep (schedP 1) s) (fun t => (linAt t 2).table == some 1) = true) := by decide +kernel

theorem witness_linScheduleRunning : (let s := lin2 { role := 1 } fun x => { x with table := some 1 }
     KeeperRuns linScheduleOp (schedP 0) (keep (schedP 0) s) ∧ (linAt s 2).table = some 1 ∧ (lsSlots (schedP 0)).all (slotOk s 2 1) = true ∧
     runs (.linSchedule (schedP 0)) (keep (schedP 0) s) (done (schedP 0) .busy s) = true ∧
     KeeperRuns linScheduleOp (schedP 1) (keep (schedP 1) s) ∧
     runs (.linSchedule (schedP 1)) (keep (schedP 1) s) (fun t => (linAt t 2).pendingTable == some (some 1)) = true ∧
     KeeperRuns linScheduleOp (schedP 2) (keep (schedP 2) s) ∧ (schedP 2).fld 16 3 2 = 2 ∧
     runs (.linSchedule (schedP 2)) (keep (schedP 2) s) (fun t => (linAt t 2).pendingTable == some none) = true) := by decide +kernel

theorem witness_linSend : let s := lin2 { role := 1, entries := Tbl.put [] {} 33 { dir := 1, len := 2 } } id
    FastRuns linSendOp linSendP (wait linSendP s) ∧ linSendable s (linSendReq s linSendP) = true ∧ linSendP.bit 16 3 = false ∧
    FastRuns linSendOp linSendP (wait linSendP) ∧ linSendable up (linSendReq up linSendP) = false ∧
    runs (.linSend linSendP) (wait linSendP s) (fun t => t.bus.l4.length == 1) = true ∧
    runs (.linSend linSendP) (wait linSendP) (done linSendP .conflict up) = true ∧
    (let s := wait linTplP (templated 10 (lin2 { role := 1, entries := Tbl.put [] {} 33 { dir := 1, len := 4 } } id))
     FastRuns linSendOp linTplP s ∧ linTplP.bit 16 3 = true ∧ (tplOf s (linTplP.num 17 1)).used = true ∧ 8 ≤ (tplOf s (linTplP.num 17 1)).controller ∧
     linSendable s (linSendReq s linTplP) = true ∧ runs (.linSend linTplP) s (fun t => t.bus.l4.map (·.kind) == [.linSend linTplP false]) = true) := by decide +kernel

/-- PD6 is on and every port of `l` is up, with settings as `g` says; `f` changes the packet hall. -/
def ports (l : List Nat) (g : EthPortCfg → EthPortCfg) (f : Eth → Eth) (s : State := up) : State :=
  ({ s with seq := { s.seq with pd := 127 } }.onStore fun st => { st with eth := { st.eth with
      port := vmapIdx st.eth.port fun _ x => g { x with enable := true } } }).onEth fun e =>
    f { e with port := vmapIdx e.port fun n x => { x with link := if l.contains n then 1 else 2 } }

/-- A frame to an address that port 3 has been learned for. -/
def toPort3 : EthFrame := { dst := 0x0200_0000_0001, src := 0x0200_0000_0002, etherType := 0x0800, body := List.replicate 50 7 }
def learned3 (f : Eth → Eth := id) : State := ports [1, 3] id fun e => f { e with learned := [⟨0x0200_0000_0001, 1, 3, 0⟩] }

theorem witness_ethLink : domainOn (ports [] id id) 6 = true ∧ (portCfg (ports [] id id) 2).enable = true ∧ (portOf (ports [] id id) 2).link = 2 ∧
    (portCfg (ports [] id id) 2).leader ≠ true ∧ feedsFrom5 (ports [] id id) 6 = true ∧
    runs (.ethLinkUp ⟨2, true⟩) (ports [] id id) (fun t => (portOf t 2).link == 1) = true ∧ runs (.ethLinkUp ⟨7, false⟩) (ports [] id id) (fun t => (portOf t 7).link == 1) = true ∧
    runs (.ethLinkUp ⟨2, false⟩) (ports [] id id) (fun t => (portOf t 2).link == 2) = true ∧
    (let s := ports [2] id fun e => { e with port := vmod e.port 2 fun p => { p with queue := [⟨toPort3, 0, 1, false, 1, 8, false⟩] } }
     (portOf s 2).link = 1 ∧ (portOf s 2).queue ≠ [] ∧ runs (.ethLinkDown 2) s (fun t => (portOf t 2).link == 0 && (portOf t 2).cnt.powerDrop == 1) = true) := by decide +kernel

/-- The switch has the address that `toPort3` names. -/
def ownMac : State := learned3.onStore fun st => { st with eth := { st.eth with sw := { st.eth.sw with mac := 0x0200_0000_0001 } } }

/-- A protected frame, and the hold with `n` cells. -/
def secured3 : EthFrame := { toPort3 with sec := some ⟨77, 0, 1, true, List.replicate 52 7, []⟩ }

def holding (n : Nat) : State := { learned3 with cipher := { learned3.cipher with hold := [⟨17, n, 9, 1, toPort3⟩] } }

theorem witness_ethFrame : (hallRuns learned3 5 = true ∧ toPort3.fcsOk = true ∧ toPort3.sec = none ∧ (portCfg learned3 1).secureOnly = false ∧
      toPort3.etherType ≠ 0x88B5 ∧ toPort3.etherType ≠ 0x88F7 ∧ vlanOf learned3 (portCfg learned3 1).pvid = some { vid := 1, member := 0x3FF, untag := 0x3FF } ∧
      isGroupMac toPort3.src = false ∧ isGroupMac toPort3.dst = false ∧ toPort3.dst ≠ learned3.store.eth.sw.mac ∧ toPort3.dst ≠ toPort3.src ∧
      (portCfg learned3 1).accept ≠ 1 ∧ toPort3.tagged = false ∧ (portOf learned3 1).link = 1 ∧ (portOf learned3 3).link = 1 ∧ learned3.eth.learned.length < 4096 ∧
      (learned3.eth.learned.find? fun l => l.mac == toPort3.dst && l.vid == 1) = some ⟨0x0200_0000_0001, 1, 3, 0⟩ ∧
      cellsFit learned3 3 (portCfg learned3 1).pcp (frameCells toPort3 false) = true) ∧
    runs (.ethFrameReceive 1 toPort3) learned3 (fun t => (portOf t 3).queue.length == 1 && t.eth.learned.length == 2) = true ∧
    runs (.ethFrameReceive 1 { toPort3 with fcsOk := false }) learned3 (fun t => (portOf t 1).cnt.rxDrop == 1) = true ∧
    (toPort3.dst = ownMac.store.eth.sw.mac ∧ cellsFit ownMac 8 (portCfg ownMac 1).pcp (frameCells toPort3 false) = true ∧
     runs (.ethFrameReceive 1 toPort3) ownMac (fun t => (portOf t 8).queue.map (·.frame) == [toPort3]) = true) := by decide +kernel

theorem witness_ethHold : holdCells learned3 + (wireBytes secured3 + 255) / 256 ≤ 1024 ∧ secured3.fcsOk = true ∧
    runs (.ethFrameReceive 1 secured3) learned3 (fun t => t.cipher.hold.map (·.frame) == [secured3]) = true ∧
    1024 < holdCells (holding 1024) + (wireBytes secured3 + 255) / 256 ∧
    runs (.ethFrameReceive 1 secured3) (holding 1024) (fun t => (portOf t 1).cnt.hold == 1 && t.cipher.hold.length == 1) = true := by decide +kernel

/-- Ring 52 with one record of 20 bytes to port `m` in VLAN 1, of EtherType `ty`. -/
def txRing (ty : Nat) (m : Nat := 3) : State :=
  memWriteN (learned3.onRing 52 fun _ => { base := 0x44010000, sizeLog2 := 6, enabled := true, tail := 2 }) 0x44010000
    (leBytes 2 20 ++ [BitVec.ofNat 8 m, 0, 1, 0] ++ List.replicate 10 0 ++ beBytes 6 0x0200_0000_0001 ++ List.replicate 6 9 ++ beBytes 2 ty ++ List.replicate 6 5)

/-- The answer of ring 52 in the result stream. -/
def answered52 (st : Status) (t : State) : Bool := t.plane.results.contains (.reply 52 0 st.code 16000 2)

theorem witness_txRecord : let s := txRing 0x0800
    let d := memReadN s ((s.ring 52).slotAddr (s.ring 52).head) 16
    ((s.ring 52).waits = true ∧ hallRuns s 5 = true ∧ landed s 7 ((s.ring 52).arrivalOf 1) = true ∧ dNum d 0 2 = 20 ∧ dNum d 2 1 = 3 ∧ dNum d 3 1 < 16 ∧
      dNum d 4 2 = 1 ∧ (s.ring 52).filled = 2 ∧ (s.ring 52).head = 0 ∧ (s.ring 52).size = 64 ∧
      beNat (((memReadN s ((s.ring 52).slotAddr (s.ring 52).head + 16) 20).drop 12).take 2) = 0x0800 ∧
      vlanOf s 1 = some { vid := 1, member := 0x3FF, untag := 0x3FF } ∧ (portOf s 3).link = 1) ∧
    runs (.packetTxRecord 52) s (fun t => (portOf t 3).queue.map (·.frame.body) == [List.replicate 6 5] && answered52 .ok t) = true ∧
    runs (.packetTxRecord 52) (txRing 0x88B5) (fun t => (portOf t 3).queue.isEmpty && answered52 .denied t) = true ∧
    (let s := txRing 0x0800 8
     let b := memReadN s ((s.ring 52).slotAddr (s.ring 52).head + 16) 20
     (isGroupMac (beNat (b.take 6)) = false ∧ beNat (b.take 6) ≠ s.store.eth.sw.mac ∧ beNat (b.take 6) ≠ beNat ((b.drop 6).take 6) ∧
       (s.eth.learned.find? fun l => l.mac == beNat (b.take 6) && l.vid == 1) = some ⟨0x0200_0000_0001, 1, 3, 0⟩) ∧
     runs (.packetTxRecord 52) s (fun t => (portOf t 3).queue.map (·.frame.body) == [List.replicate 6 5] && answered52 .ok t) = true) := by
  decide +kernel

/-- What the frames of the transmit records take fits whatever their tag. -/
theorem witness_txFits : ∀ (f : EthFrame) b, f.body = List.replicate 6 5 →
    cellsFit (txRing 0x0800) 3 0 (frameCells f b) = true ∧ cellsFit (txRing 0x0800 8) 3 0 (frameCells f b) = true := by
  intro f b h
  have : frameCells f b = 1 := by cases b <;> simp [frameCells, frameBytes, h, b2n]
  rw [this]; decide +kernel

/-- A queued frame on port 3, and a transmit association of that port. -/
def queued3 : Queued := { frame := toPort3, pcp := 2, vid := 1, tagged := false, cells := 1 }

/-- A frame waits at APP, and a command frame at KEEPER. -/
def toRings : State := ports [1] id fun e => { e with port := vmod (vmod e.port 8 fun p => { p with queue := [queued3] }) 9 fun p => { p with
  queue := [{ queued3 with frame := { toPort3 with etherType := 0x88B5 } }] } }

theorem witness_ringEgress : hallRuns toRings 5 = true ∧ toRings.plane.replay.running = false ∧ takeHighest (portOf toRings 8).queue = some (queued3, []) ∧
    (ethBytes queued3.frame).length ≤ 4080 ∧ feedsFrom5 toRings 6 = true ∧
    runs (.egressFrameSent 8) toRings (fun t => (vget t.plane.landings 6).items.map (fun it => it.recs.map (·.1)) == [[49]]) = true ∧
    (takeHighest (portOf toRings 9).queue).map (·.1.frame.etherType) = some 0x88B5 ∧ feedsFrom5 toRings 5 = true ∧
    runs (.egressFrameSent 9) toRings (fun t => t.eth.cmdIn.length == 1 && (portOf t 9).queue.isEmpty) = true := by decide +kernel

def leaving3 (l : List Sa := []) (g : EthPortCfg → EthPortCfg := id) : State :=
  (ports [3] g fun e => { e with port := vmod e.port 3 fun p => { p with queue := [queued3] } }).onSas fun _ => l

theorem witness_egress : takeHighest (portOf leaving3 3).queue = some (queued3, []) ∧ currentSa leaving3 3 = none ∧ (portOf leaving3 3).link = 1 ∧
    (portCfg leaving3 3).secureOnly = false ∧ runs (.egressFrameSent 3) leaving3 (fun t => (portOf t 3).cnt.txFrames == 1) = true ∧
    runs (.egressFrameSent 3) (leaving3 [] fun g => { g with secureOnly := true }) (fun t => (portOf t 3).cnt.saDrop == 1) = true ∧
    (let a : Sa := { port := 3, current := true, pn := 8, commit := 4096 }
     currentSa (leaving3 [a]) 3 = some a ∧ a.stopped = 0 ∧ a.pn < pnEnd ∧ runs (.egressFrameSent 3) (leaving3 [a]) (fun t => t.store.eth.sas.map (·.pn) == [9]) = true) ∧
    (let a : Sa := { port := 3, current := true, pn := pnEnd - 1, commit := pnEnd }
     runs (.egressFrameSent 3) (leaving3 [a]) (fun t => t.store.eth.sas.map (·.pn) == [pnEnd] && (portOf t 3).cnt.txFrames == 1) = true) ∧
    (let a : Sa := { port := 3, current := true, pn := pnEnd, commit := pnEnd }
     currentSa (leaving3 [a]) 3 = some a ∧ pnEnd ≤ a.pn ∧ runs (.egressFrameSent 3) (leaving3 [a]) (fun t => (portOf t 3).cnt.saDrop == 1 && (portOf t 3).queue.isEmpty) = true) ∧
    (let a : Sa := { port := 3, current := true, pn := 8, commit := 4096, stopped := 3 }
     currentSa (leaving3 [a]) 3 = some a ∧ a.stopped ≠ 0 ∧ runs (.egressFrameSent 3) (leaving3 [a]) (fun t => (portOf t 3).cnt.saDrop == 1) = true) ∧
    (let a : Sa := { port := 3, rx := true, sci := 77, an := 1, pn := pnEnd }
     ((leaving3 [a]).store.eth.sas.find? fun a => a.port == 3 && a.rx == true && (!true || a.sci == 77) && a.an == 1) = some a ∧ pnEnd ≤ a.pn ∧ a.stopped = 0 ∧
     runs (.saPnExhausted 3 true 77 1) (leaving3 [a]) (fun t => t.store.eth.sas.map (·.stopped) == [1]) = true) := by decide +kernel

/-- A command frame of SEQ 9 with one packet, on the channel of port 1 whose last SEQ is `n`. -/
def cmdF : EthFrame :=
  { src := 0x0200_0000_0002, etherType := 0x88B5, sec := some ⟨77, 0, 1, true, [], []⟩, body := [1, 1, 0, 0] ++ leBytes 8 9 ++ List.replicate 68 0 }
def commanding (n : Nat) : State :=
  ((ports [1] id fun e => { e with cmdIn := [(⟨1, 15990⟩, 1, cmdF)] }).onStore fun st => { st with eth := { st.eth with
      cmd := [{ port := 1, sci := 77, bound := true, seq := n }] } }).onRing 31 fun _ => { base := 0x44020000, sizeLog2 := 6, enabled := true }

theorem witness_commandFrame : commandIn (commanding 8) 1 cmdF = some (⟨1, 15990⟩, 1, cmdF) ∧ landed (commanding 8) 5 ⟨1, 15990⟩ = true ∧
    boundChannel (commanding 8) 1 cmdF = some { port := 1, sci := 77, bound := true, seq := 8 } ∧ dNum cmdF.body 0 1 = 1 ∧ dNum cmdF.body 1 1 = 1 ∧
    dNum cmdF.body 2 2 = 0 ∧ dNum cmdF.body 12 4 = 0 ∧ cmdF.body.length = 80 ∧ dNum cmdF.body 4 8 = 9 ∧ (commanding 8).plane.replay.running = false ∧
    ((commanding 8).ring 31).outstanding (commanding 8).eth.cmdRun + dNum cmdF.body 1 1 ≤ ((commanding 8).ring 31).size - 1 ∧ (commanding 8).seq.ready = true ∧
    Tbl.wf 0 (commanding 8).mem = true ∧ (commanding 8).plane.capture.running = false ∧
    runs (.commandFrame 1 cmdF) (commanding 8) (fun t => (t.ring 31).tail == 1 && t.eth.cmdRun.length == 1) = true ∧
    runs (.commandFrame 1 cmdF) (commanding 9) (fun t => (portOf t 9).cnt.cmdDrop == 1) = true := by decide +kernel

theorem witness_commandReply : let c : CmdFrame := ⟨1, 77, 5, 1, 9, 0, 1⟩
    let d : CmdFrame := ⟨1, 77, 5, 1, 8, 1, 1⟩
    let s := memWriteN ((commanding 8).onEth fun e => { e with cmdRun := [d, c] }) 0x44020002 [0x80, 1]
    let s := s.onRing 31 fun g => { g with head := 2, tail := 2, admitted := [{ slot := 1, slots := 1 }] }
    s.eth.cmdRun.find? (allDone s) = some c ∧ cellsFit s 1 0 (frameCells (replyFrame s c) true) = true ∧ (portOf s 1).link = 1 ∧
    runs .commandFrameReply s (fun t => (portOf t 1).queue.length == 1 && t.eth.cmdRun == [d]) = true ∧
    runs (.addressAgeing 0x0200_0000_0001 1) { learned3 with now := 2400000000 } (fun t => t.eth.learned.isEmpty) = true ∧
    runs (.addressAgeing 0x0200_0000_0001 1) { learned3 with now := 2399999999 } (fun t => t.eth.learned.length == 1) = true := by decide +kernel

/-- The four times of an exchange whose peer delay is 40 ns. -/
def times40 : PeerTimes := { t1 := 100, t2 := 900, t3 := 1000, t4 := 280 }

/-- The sync unit follows port 1. -/
def follows (f : Eth → Eth) : State :=
  { (ports [1] id f).onStore fun st => { st with eth := { st.eth with time := { slave := 1 } } } with now := 1000000 }

theorem witness_sync : (follows id).eth.syncAt + syncTicks (follows id).store.eth.time.syncLog ≤ (follows id).now ∧ hallRuns (follows id) 5 = true ∧
    (follows id).store.eth.time.gm = false ∧ (follows id).store.eth.time.slave ≠ 15 ∧ (follows id).eth.syncSeen = false ∧ feedsFrom5 (follows id) 6 = true ∧
    runs .syncInterval (follows fun e => { e with syncSeen := true, good := 3 }) (fun t => t.eth.timeState == 1 && t.eth.good == 4) = true ∧
    runs .syncInterval (follows id) (fun t => t.eth.missed == 1) = true ∧
    (let s := (follows id).onStore fun st => { st with eth := { st.eth with time := { gm := true, masters := 2 } } }
     bitList 6 s.store.eth.time.masters = [1] ∧ (portOf s 1).link = 1 ∧ cellsFit s 1 7 1 = true ∧
     runs .syncInterval s (fun t => (portOf t 1).queue.map (·.frame.etherType) == [0x88F7] && t.eth.syncSeq == s.eth.syncSeq + 1) = true ∧
     s.store.eth.time.masters.testBit 1 = true ∧ (portOf s 1).peerDue ≤ s.now ∧
     runs (.peerDelayMeasure 1 times40) s (fun t => (portOf t 1).peerNs == 40 && (portOf t 1).peerDue == 9000000) = true) ∧
    runs .syncHoldover (follows fun e => { e with missed := 3 }) (fun t => t.eth.timeState == 2) = true ∧
    runs (.peerDelayMeasure 1 times40) (follows id) (fun t => (portOf t 1).peerNs == 40) = true := by decide +kernel

/-- TC10 is enabled with the settings `g`, and port 2 stands in TC10 state `n`. -/
def tc10s (n : Nat) (l : List Nat) (g : EthPortCfg → EthPortCfg := id) : State :=
  ports l (fun x => g { x with tc10En := true }) fun e => { e with port := vmod e.port 2 fun p => { p with tc10 := n } }

theorem witness_tc10 : (portCfg (tc10s 0 [2]) 2).tc10En = true ∧ (portCfg (tc10s 0 [2]) 2).sleepOk = false ∧ feedsFrom5 (tc10s 0 [2]) 6 = true ∧
    runs (.tc10SleepRequestRx 2) (tc10s 0 [2]) (fun t => (portOf t 2).link == 1 && (portOf t 2).tc10 == 0) = true ∧
    runs (.tc10SleepRequestRx 2) (tc10s 0 [2] fun g => { g with sleepOk := true }) (fun t => (portOf t 2).tc10 == 2) = true ∧
    runs (.tc10SleepWaitEnd 2 true) (tc10s 1 [2]) (fun t => (portOf t 2).tc10 == 2 && (portOf t 2).link == 3) = true ∧
    runs (.tc10SleepWaitEnd 2 false) { tc10s 1 [2] with now := 128000 } (fun t => (portOf t 2).tc10 == 2) = true ∧
    runs (.tc10WakeRx 2) (tc10s 1 [2]) (fun t => (portOf t 2).tc10 == 0) = true ∧ runs (.tc10WakeRx 2) (tc10s 2 []) (fun t => (portOf t 2).link == 2) = true ∧
    domainOn (tc10s 2 []) 6 = true ∧ (portCfg (tc10s 2 []) 2).enable = true ∧
    (let s := (tc10s 2 [] fun g => { g with forward := true, wakeEn := true }).onSleep fun x => { x with darkPending := true }
     (portCfg s 2).forward = true ∧ (portCfg s 2).wakeEn = true ∧ armedSource s 9 2 = true ∧ (portCfg s 5).tc10En = true ∧
     runs (.tc10WakeRx 2) s (fun t => (portOf t 5).wakeTx == 1 && t.sleep.latches.map (fun l => (l.cause, l.index)) == [(9, 2)]) = true) := by decide +kernel

/-- ETH.CONFIG of VLAN entry 4, of port 2, of the switch; ETH.SECURE installs, removes, binds, reports; ETH.STATUS; ETH.TIME with slave port `n`. -/
def vlanP : Packet := kp 0x800 [(16, 1, 1), (17, 1, 4), (20, 2, 100), (22, 2, 7)]
def portP (on : Nat := 0) : Packet := kp 0x800 [(17, 1, 2), (20, 1, on), (22, 2, 1), (28, 4, 0x10101010), (32, 4, 0x10101010)]

def switchP (pvid : Nat) : Packet := kp 0x800 [(16, 1, 2), (25, 1, 9), (26, 2, 60), (28, 2, 0xFA50), (30, 2, pvid)]

def secP (mode : Nat) (gen : Nat := 0) : Packet := kp 0x801 [(16, 1, mode), (17, 1, 3), (18, 1, 40), (20, 8, 77), (44, 8, 1), (56, 4, gen)]
def ethStatP (clear : Bool := true) : Packet := kp 0x802 [(16, 1, if clear then 18 else 2)] 2
def timeP (write : Nat := 1) (slave : Nat := 2) : Packet := kp 0x803 [(16, 1, write), (18, 1, slave), (19, 1, if write = 1 then 1 else 0)]

theorem witness_ethConfig : (KeeperRuns ethConfigOp vlanP (keep vlanP) ∧ ecPart vlanP = 1 ∧ ecRead vlanP = false ∧ ecIndex vlanP = 4 ∧ Tbl.wf {} up.store.eth.vlan = true ∧
      ethAgrees (up.onStore fun st => { st with eth := { st.eth with
        vlan := Tbl.put st.eth.vlan {} 4 { vid := vlanP.fld 20 0 12, member := vlanP.fld 22 0 10, untag := vlanP.fld 24 0 10 } } }) = true) ∧
    (KeeperRuns ethConfigOp portP (keep portP) ∧ ecPart portP = 0 ∧ ecRead portP = false ∧ ecIndex portP = 2 ∧ (ecPort portP).enable = false ∧
      ethAgrees (up.onStore fun st => { st with eth := { st.eth with port := vmod st.eth.port 2 fun _ => ecPort portP } }) = true) ∧
    (let s : State := { up with seq := { up.seq with pd := 127 } }
     KeeperRuns ethConfigOp (portP 1) (keep (portP 1) s) ∧ (ecPort (portP 1)).enable = true ∧ (portCfg s 2).enable = false ∧ domainOn s 6 = true ∧
     ethAgrees (s.onStore fun st => { st with eth := { st.eth with port := vmod st.eth.port 2 fun _ => ecPort (portP 1) } }) = true ∧
     runs (.ethConfig (portP 1)) (keep (portP 1) s) (fun t => (portOf t 2).link == 2) = true) ∧
    (KeeperRuns ethConfigOp (switchP 1) (keep (switchP 1)) ∧ ecPart (switchP 1) = 2 ∧ ecRead (switchP 1) = false ∧
      runs (.ethConfig (switchP 1)) (keep (switchP 1)) (fun t => t.store.eth.sw == { mac := 9, ageS := 60, rxmap := 0xFA50, appPvid := 1 }) = true) ∧
    (KeeperRuns ethConfigOp (switchP 7) (keep (switchP 7)) ∧
      runs (.ethConfig (switchP 7)) (keep (switchP 7)) (done (switchP 7) .conflict up) = true) := by decide +kernel

/-- Key slot 40 holds an AES-GCM key that C0 may use for both directions. -/
def key40 (s : State := up) : State :=
  s.onStore fun st => { st with keys := Tbl.put st.keys {} 40 { alg := 1, usage := 0xFF, generation := 3, material := List.replicate 16 9 } }

theorem witness_ethSecure : (KeeperRuns ethSecureOp (secP 0) (keep (secP 0) key40) ∧ esMode (secP 0) = 0 ∧ esConflict (secP 0) key40 = false ∧ (secP 0).num 56 4 = 0 ∧
      (secP 0).arrival.before (keySlot key40 ((secP 0).num 18 1)).changed = false ∧
      runs (.ethSecure (secP 0)) (keep (secP 0) key40) (fun t => t.store.eth.sas.length == 1) = true) ∧
    (KeeperRuns ethSecureOp (secP 0 3) (keep (secP 0 3) key40) ∧ (secP 0 3).num 56 4 = (keySlot key40 40).generation ∧
      runs (.ethSecure (secP 0 3)) (keep (secP 0 3) key40) (fun t => t.store.eth.sas.length == 1) = true) ∧
    (KeeperRuns ethSecureOp (secP 0 2) (keep (secP 0 2) key40) ∧ esConflict (secP 0 2) key40 = false ∧ (secP 0 2).num 56 4 ≠ (keySlot key40 40).generation ∧
      runs (.ethSecure (secP 0 2)) (keep (secP 0 2) key40) (done (secP 0 2) .keyChanged up) = true) := by decide +kernel

/-- Slot 40 has changed after the packet arrived. -/
theorem witness_ethSecureChanged : let s := (key40).onStore fun st => { st with keys := Tbl.put st.keys {} 40 { Tbl.get st.keys {} 40 with changed := ⟨1, 9000⟩ } }
    KeeperRuns ethSecureOp (secP 0) (keep (secP 0) s) ∧ esConflict (secP 0) s = false ∧ (secP 0).arrival.before (keySlot s ((secP 0).num 18 1)).changed = true ∧
    runs (.ethSecure (secP 0)) (keep (secP 0) s) (done (secP 0) .keyChanged up) = true := by decide +kernel

theorem witness_ethSecureSa : (let a : Sa := { port := 3, sci := 77 }
     let s := key40 (up.onSas fun _ => [a])
     esConflict (secP 0) s = true ∧ KeeperRuns ethSecureOp (secP 0) (keep (secP 0) s) ∧ KeeperRuns ethSecureOp (secP 1) (keep (secP 1) s) ∧ esMode (secP 1) = 1 ∧
     esSa (secP 1) s = some a ∧ runs (.ethSecure (secP 1)) (keep (secP 1) s) (fun t => t.store.eth.sas.isEmpty) = true) := by decide +kernel

theorem witness_ethSecureChannel : (esSa (secP 1) up = none ∧ KeeperRuns ethSecureOp (secP 1) (keep (secP 1)) ∧ runs (.ethSecure (secP 1)) (keep (secP 1)) (done (secP 1) .conflict up) = true) ∧
    (KeeperRuns ethSecureOp (secP 18) (keep (secP 18)) ∧ esMode (secP 18) = 2 ∧ (secP 18).bit 16 4 = true ∧
      runs (.ethSecure (secP 18)) (keep (secP 18)) (fun t => t.store.eth.cmd.map (·.bound) == [true]) = true) ∧
    (KeeperRuns ethSecureOp (secP 2) (keep (secP 2)) ∧ esMode (secP 2) = 2 ∧ (secP 2).bit 16 4 = false) ∧
    (KeeperRuns ethSecureOp (secP 3) (keep (secP 3)) ∧ esMode (secP 3) = 3 ∧ runs (.ethSecure (secP 3)) (keep (secP 3)) (done (secP 3) .ok up) = true) := by decide +kernel

theorem witness_ethStatus : KeeperRuns ethStatusOp ethStatP (keep ethStatP) ∧ ethStatP.fld 16 0 4 = 2 ∧ ethStatP.bit 16 4 = true ∧
    KeeperRuns ethStatusOp (ethStatP false) (keep (ethStatP false)) ∧ (ethStatP false).bit 16 4 = false ∧
    runs (.ethStatus ethStatP) (keep ethStatP (learned3 fun e => { e with port := vmod e.port 2 fun p => { p with cnt := { rxFrames := 3 } } })) (fun t =>
      (portOf t 2).cnt == {}) = true ∧
    KeeperRuns ethTimeOp timeP (keep timeP) ∧ timeP.bit 16 0 = true ∧ (timeCfgOf timeP).agrees = true ∧
    KeeperRuns ethTimeOp (timeP 1 0) (keep (timeP 1 0)) ∧ (timeCfgOf (timeP 1 0)).agrees = false ∧
    runs (.ethTime (timeP 1 0)) (keep (timeP 1 0)) (done (timeP 1 0) .conflict up) = true ∧
    KeeperRuns ethTimeOp (timeP 0) (keep (timeP 0)) ∧ (timeP 0).bit 16 0 = false ∧
    runs (.ethTime timeP) (keep timeP) (fun t => t.store.eth.time.slave == 2) = true := by decide +kernel

/-- Network `n` in mode `m`, as `f` says; CAN0 is on its bus. -/
def net (n m : Nat) (f : Net → Net) (s : State := up) : State :=
  ((s.onStore fun st => { st with sleep := { st.sleep with net := vmod st.sleep.net n fun g => { g with mode := m, node := 3, base := 0x500 } }
                                  can := { st.can with mode := vmod st.can.mode 0 fun g => { g with op := 1 } } }).onNet n f).onCan 0 fun x => { x with state := 1 }

/-- The device in Dark. -/
def inDark : State := { State.reset with seq := { powered := true }, now := 500 }

/-- The latch of a source that fired in tick `k`, in a running plane where the keeper has it (`told`). -/
def latch (cause i k : Nat) (late told : Bool) : Latch := ⟨cause, i, k, late, told, false, 0, false, false⟩

/-- Switch input 3 may wake. -/
def wakeSi (s : State := up) : State := inputs (fun x => { x with si := vmod x.si 3 fun g => { g with wakeEn := true } }) s

/-- L5 holds the wake of switch input 3 at tick 15,999, and its latch. -/
def wakeItem (handled : Bool) : State :=
  (up.onSleep fun x => { x with latches := [{ latch 1 3 5 false false with handled := handled, target := 3 }] }).onPlane fun q =>
    { q with landings := vmod q.landings 5 fun g => { g with items := [{ stamp := ⟨1, 15999⟩, hall := 0, idx := 19, wake := some (1, 3) }], released := 15999 } }

theorem witness_wakeLatch : (let s := wakeSi inDark
     enabledSource s 1 3 = true ∧ s.sleep.latches = [] ∧ (detects s 1 3 []).1 = true ∧ armedSource s 1 3 = true ∧
     runs (.wakeLatch 1 ⟨3, []⟩) s (fun t => t.sleep.latches == [latch 1 3 500 true true]) = true) ∧
    (enabledSource wakeSi 1 3 = true ∧ armedSource wakeSi 1 3 = false ∧ runs (.wakeLatch 1 ⟨3, []⟩) wakeSi (fun t => t.sleep.latches.isEmpty) = true) ∧
    (let s := inDark.onNet 2 fun x => { x with xcvr := 3 }
     enabledSource s 3 2 = true ∧ armedSource s 3 2 = true ∧ wakeNet 3 2 = some 2 ∧ (detects s 3 2 [1801]).1 = true ∧ (detects s 3 2 [500]).1 = false ∧
     runs (.wakeLatch 3 ⟨2, [1801]⟩) s (fun t => t.sleep.latches == [latch 3 2 500 true true] && (netOf t 2).wakeFlag) = true ∧
     runs (.wakeLatch 3 ⟨2, [500]⟩) s (fun t => t.sleep.latches.isEmpty) = true) ∧
    (let s := net 2 1 fun x => { x with xcvr := 3, state := 1 }
     enabledSource s 3 2 = true ∧ armedSource s 3 2 = true ∧ s.plane.running = true ∧ feedsL5 s 0 = true ∧
     runs (.wakeLatch 3 ⟨2, [1801]⟩) s (fun t => t.sleep.latches == [latch 3 2 0 false false] &&
       (vget t.plane.landings 5).items.map (fun it => (it.wake, it.hall, it.stamp.tick)) == [(some (3, 2), 0, s.wallTick + 4)]) = true) ∧
    (let s := inDark.onSleep fun x => { x with alarmAt := some 0 }
     0 ≤ s.rtc.time ∧ armedSource s 7 0 = true ∧ s.sleep.latches = [] ∧ runs .rtcAlarm s (fun t => t.sleep.latches == [latch 7 0 500 true true]) = true) := by
  decide +kernel

theorem witness_wakeItem : (wakeItem false).plane.running = true ∧ 15999 < (wakeItem false).wallTick ∧ landingReady (wakeItem false) 5 15999 = true ∧
    itemDue (wakeItem false) 15999 ⟨1, 15999⟩ = true ∧
    runs (.landingRelease 5 15999) (wakeItem false) (fun t => t.sleep.latches == [{ latch 1 3 5 false true with target := 3 }]) = true ∧
    runs (.landingRelease 5 15999) (wakeItem true) (fun t => (vget t.plane.landings 5).items.isEmpty && t.sleep.latches.isEmpty) = true := by decide +kernel

theorem witness_wakeHandling : let f : Bool → Sleep → Sleep := fun told x => { x with latches := [latch 1 3 5 false told], darkPending := true }
    let s := up.onSleep (f true)
    let low := (up.onSleep (f false)).onStore fun st => { st with sleep := { st.sleep with wake := vmod st.sleep.wake 0 fun (g : WakeCfg) => { g with target := 1 } } }
    let dark := inDark.onSleep (f true)
    let buoy := { dark with seq := { dark.seq with state := .buoy, core := true } }
    (s.sleep.latches.find? (!·.handled) = some (latch 1 3 5 false true) ∧ s.seq.powered = true ∧ s.seq.inReset = false ∧ s.sleep.darkCommit = none ∧
      s.plane.running = true ∧ s.asleep = false ∧ s.seq.state.code < wakeTarget s 1 ∧
      runs .wakeHandling s (fun t => !t.sleep.darkPending && t.sleep.latches.isEmpty && t.sleep.target == some 3) = true) ∧
    (wakeTarget low 1 < low.seq.state.code ∧
      runs .wakeHandling low (fun t => t.sleep.darkPending && t.sleep.latches.map (fun l => (l.told, l.handled)) == [(false, true)]) = true) ∧
    (dark.seq.state = .dark ∧ dark.seq.inReset = false ∧ dark.seq.state.code < wakeTarget dark 1 ∧
      runs .wakeHandling dark (fun t => t.sleep.latches.map (fun l => (l.handled, l.netsDue, l.logged)) == [(true, true, false)] && t.sleep.target == some 3) = true) ∧
    (buoy.seq.state = .buoy ∧
      runs .wakeHandling buoy (fun t => t.sleep.latches.map (fun l => (l.handled, l.netsDue, l.logged)) == [(true, true, true)]) = true) := by decide +kernel

/-- The selective-wake decoder of CAN0 waits for identifier 7; its error counter stands at `n`. -/
def decoding (n : Nat) : State :=
  (net 0 1 (fun x => { x with state := 1, xcvr := 3, swErr := n })).onStore fun st => { st with sleep := { st.sleep with
    xcvr := vmod st.sleep.xcvr 0 fun g => { g with swEn := true, swId := 7, swMask := 0x7FF } } }

theorem witness_selectiveWake : wakeMatch (vget (decoding 2).store.sleep.xcvr 0) { id := 7 } = true ∧ armedSource (decoding 2) 4 0 = true ∧
    (vget (decoding 2).store.sleep.xcvr 0).swEn = true ∧ (netOf (decoding 2) 0).xcvr = 3 ∧
    runs (.selectiveWakeFrame 0 { id := 7 } true) (decoding 2) (fun t => (netOf t 0).swErr == 1 && t.sleep.latches.map (·.cause) == [4]) = true ∧
    runs (.selectiveWakeFrame 0 { id := 7 } false) (decoding 2) (fun t => (netOf t 0).swErr == 3) = true ∧ armedSource (decoding 31) 5 0 = true ∧
    runs (.selectiveWakeFrame 0 { id := 7 } false) (decoding 31) (fun t => (netOf t 0).swErr == 32 && t.sleep.latches.map (·.cause) == [5]) = true := by decide +kernel

theorem witness_nmMessage : (netOf (net 0 1 fun x => { x with state := 3 }) 0).xcvr < 2 ∧ (netCfg (net 0 1 id) 0).mode = 1 ∧ (netCfg (net 0 2 id) 0).node = 3 ∧
    runs (.nmMessageRx 0 { source := 9, active := true }) (net 0 1 fun x => { x with state := 3 })
      (fun t => (netOf t 0).timeoutAt == some 16016000) = true ∧
    runs (.nmMessageRx 0 { source := 9, ring := true, dest := 3 }) (net 0 2 fun x => { x with state := 3 }) (fun t => (netOf t 0).sendAt == some 816000) = true := by
  decide +kernel

theorem witness_keepalive : let s := net 0 1 fun x => { x with state := 2, kaAt := some 16000 }
    (netOf s 0).state = 2 ∧ (netCfg s 0).mode = 1 ∧ canTalk s 0 = true ∧ (canMode s 0).sends = true ∧ (canOf s 0).fifo.length < 32 ∧ dryReplay s = false ∧
    runs (.nmKeepaliveTimer 0) s (fun t => (canOf t 0).fifo.map (·.frame.id) == [0x503]) = true ∧
    runs (.nmTimeout 0) (net 0 1 fun x => { x with state := 3, timeoutAt := some 0 }) (fun t => (netOf t 0).state == 4) = true := by decide +kernel

theorem witness_ring : let s := net 0 2 fun x => { x with state := 2, sendAt := some 0, ringMaxAt := some 0, peers := [⟨9, 0, 0⟩] }
    (netCfg s 0).mode = 2 ∧ (netOf s 0).state = 2 ∧ canTalk s 0 = true ∧ (canMode s 0).sends = true ∧ (canOf s 0).fifo.length < 32 ∧ dryReplay s = false ∧
    (netCfg s 0).node = 3 ∧ ((netOf s 0).peers.any fun q => q.node != 3 && decide (q.missed < 2)) = true ∧
    runs (.nmRingSend 0) s (fun t => (canOf t 0).fifo.map (fun f => f.frame.data.take 3) == [[3, 5, 9]]) = true ∧
    runs (.nmRingTimeout 0) s (fun t => (netOf t 0).opened && (canOf t 0).fifo.length == 1) = true ∧
    runs (.nmRingTimeout 0) (net 0 2 fun x => { x with state := 2, ringMaxAt := some 0, peers := [⟨1, 0, 0⟩] }) (fun t =>
      (canOf t 0).fifo.isEmpty && (netOf t 0).ringMaxAt == some 2096000) = true := by decide +kernel

theorem witness_commit : let s := net 0 1 fun x => { x with state := 4, wbsAt := some 0 }
    let lin := net 9 1 fun x => { x with state := 4, wbsAt := some 0 }
    latchedBefore s = false ∧ feedsL0 s 6 = true ∧ runs (.networkCommit 0) s (fun t => (netOf t 0).state == 1 && (netOf t 0).xcvr == 3) = true ∧
    latchedBefore lin = false ∧ (netOf lin 9).state = 4 ∧ runs (.networkCommit 9) lin (fun t => (netOf t 9).state == 1) = true ∧
    latchedBefore { (s.onSleep fun x => { x with latches := [latch 1 3 5 false true] }) with now := 6 } = true := by decide +kernel

theorem witness_dark : let s := up.onSleep fun x => { x with darkPending := true }
    darkDue s = true ∧ runs .deviceCommit s (fun t => t.sleep.darkCommit == some 0) = true ∧
    runs .darkEntry { (s.onSleep fun x => { x with darkCommit := some 0, latches := [latch 1 3 5 true false, latch 1 4 6 false false] }) with now := 80 } (fun t =>
      t.seq.state == .dark && t.seq.pd == 0 && t.sleep.latches.map (fun l => (l.tick, l.told)) == [(80, true), (6, true)]) = true ∧
    runs .buoyTimeout { up with seq := { up.seq with state := .buoy }, now := 1600000 } (fun t => t.seq.state == .dark) = true ∧
    runs .pairStop (up.onSleep fun x => { x with pairStopAt := some 16000 }) (fun t => t.sleep.pairStopAt.isNone && t.seq.pd == 55) = true := by decide +kernel

/-- NM.CONFIG of network 0 (MODE `m`), and of the device with an alarm after `a` s; NM.REQUEST and NM.RELEASE of it; NM.STATUS; XCVR.STATE reads, or
sets Listen-only. -/
def nmP (m : Nat) (read : Nat := 0) : Packet :=
  kp 0x900 [(17, 1, 2 * m + read), (18, 1, 3), (20, 4, 0x500), (24, 2, 500), (26, 2, 2000), (28, 2, 1500), (30, 2, 100), (32, 2, 260)]

def nmDeviceP (a : Nat) : Packet := kp 0x900 ([(16, 1, 255), (20, 4, a), (24, 2, 300)] ++ (List.range 9).map fun i => (32 + 4 * i, 1, 2)) 2

def nmReqP (op : Nat) : Packet := kp op [(16, 2, 1)]
def nmStatP (clear : Nat := 1) : Packet := kp 0x903 [(17, 1, clear)]
def xcvrP (n : Nat) : Packet := kp 0x904 [(16, 1, 16 * n), (17, 1, if n = 2 then 1 else 0)]

theorem witness_nmConfig : (KeeperRuns nmConfigOp (nmP 1) (keep (nmP 1)) ∧ nmDevice (nmP 1) = false ∧ (nmP 1).bit 17 0 = false ∧ nmTarget (nmP 1) = 0 ∧
      nmAgrees { up.store.sleep with net := vmod up.store.sleep.net 0 fun _ => nmCfgOf (nmP 1) } = true ∧ (nmCfgOf (nmP 1)).mode ≠ 0 ∧
      (nmCfgOf (nmP 1)).mode ≠ (netCfg up 0).mode ∧ (netOf up 0).state ≤ 1 ∧
      runs (.nmConfig (nmP 1)) (keep (nmP 1)) (fun t => (netOf t 0).state == 1 && (netOf t 0).xcvr == 3) = true) ∧
    (let s := net 0 1 fun x => { x with state := 3 }
     nmAgrees s.store.sleep = true ∧ (nmCfgOf (nmP 1)).mode = (netCfg s 0).mode ∧ KeeperRuns nmConfigOp (nmP 1) (keep (nmP 1) s) ∧
     KeeperRuns nmConfigOp (nmP 2) (keep (nmP 2) s) ∧ nmAgrees { s.store.sleep with net := vmod s.store.sleep.net 0 fun _ => nmCfgOf (nmP 2) } = true ∧
     1 < (netOf s 0).state ∧ runs (.nmConfig (nmP 2)) (keep (nmP 2) s) (fun t => done (nmP 2) .busy s t) = true) := by decide +kernel

theorem witness_nmConfigOff : (let s := net 0 1 fun x => { x with state := 1 }
     KeeperRuns nmConfigOp (nmP 0) (keep (nmP 0) s) ∧ (nmCfgOf (nmP 0)).mode = 0 ∧ (nmCfgOf (nmP 0)).mode ≠ (netCfg s 0).mode ∧ (netOf s 0).state ≤ 1 ∧
     nmAgrees { s.store.sleep with net := vmod s.store.sleep.net 0 fun _ => nmCfgOf (nmP 0) } = true ∧
     runs (.nmConfig (nmP 0)) (keep (nmP 0) s) (fun t => (netOf t 0).state == 0) = true) ∧
    (KeeperRuns nmConfigOp (nmP 1 1) (keep (nmP 1 1)) ∧ (nmP 1 1).bit 17 0 = true ∧ nmAgrees up.store.sleep = true ∧
      runs (.nmConfig (nmP 1 1)) (keep (nmP 1 1)) (done (nmP 1 1) .ok up) = true) ∧
    (KeeperRuns nmConfigOp (nmDeviceP 5) (keep (nmDeviceP 5)) ∧ nmDevice (nmDeviceP 5) = true ∧ (nmDeviceP 5).bit 17 0 = false ∧
      nmAgrees { up.store.sleep with alarm := 5, buoyMs := 300
                                     wake := vtab 9 fun i => { target := (nmDeviceP 5).fld (32 + 4 * i) 0 2, mask := some ((nmDeviceP 5).fld (34 + 4 * i) 0 14) } } = true ∧
      runs (.nmConfig (nmDeviceP 5)) (keep (nmDeviceP 5)) (fun t => t.sleep.alarmAt == some (up.rtc.time + 163840) && t.store.sleep.buoyMs == 300) = true ∧
      runs (.nmConfig (nmDeviceP 0)) (keep (nmDeviceP 0)) (fun t => t.sleep.alarmAt.isNone) = true) := by decide +kernel

/-- NM.CONFIG whose KA_MS is not below its TIMEOUT_MS. -/
def nmPairP : Packet := kp 0x900 [(17, 1, 4), (18, 1, 3), (20, 4, 0x500), (24, 2, 2000), (26, 2, 2000), (28, 2, 1500), (30, 2, 100), (32, 2, 260)]

/-- A pair of fields that disagree comes before the change of MODE of a network out of Bus-Sleep. -/
theorem witness_nmConfigPair : let s := net 0 1 fun x => { x with state := 3 }
    (nmCfgOf nmPairP).mode ≠ (netCfg s 0).mode ∧ 1 < (netOf s 0).state ∧
    KeeperRuns nmConfigOp nmPairP (keep nmPairP s) ∧ nmDevice nmPairP = false ∧ nmPairP.bit 17 0 = false ∧ nmTarget nmPairP = 0 ∧
    nmAgrees { s.store.sleep with net := vmod s.store.sleep.net 0 fun _ => nmCfgOf nmPairP } = false ∧
    runs (.nmConfig nmPairP) (keep nmPairP s) (fun t => done nmPairP .conflict s t) = true := by decide +kernel

theorem witness_nmRequest : let s := net 0 1 fun x => { x with state := 1, xcvr := 3 }
    (KeeperRuns nmRequestOp (nmReqP 0x901) (keep (nmReqP 0x901) s) ∧ nmNames (nmReqP 0x901) = [0] ∧ (netCfg s 0).mode = 1 ∧ (netOf s 0).state = 1 ∧
      runs (.nmRequest (nmReqP 0x901)) (keep (nmReqP 0x901) s) (fun t => (netOf t 0).state == 2 && (netOf t 0).xcvr == 0 &&
        t.sleep.latches.any fun l => l.cause == 10 && l.index == 0) = true) ∧
    (let s := net 0 1 fun x => { x with state := 3 }
     KeeperRuns nmRequestOp (nmReqP 0x901) (keep (nmReqP 0x901) s) ∧ 1 < (netOf s 0).state ∧
     runs (.nmRequest (nmReqP 0x901)) (keep (nmReqP 0x901) s) (fun t => (netOf t 0).state == 2) = true) ∧
    (let s := net 0 1 fun x => { x with state := 2, requested := true }
     KeeperRuns nmReleaseOp (nmReqP 0x902) (keep (nmReqP 0x902) s) ∧ nmNames (nmReqP 0x902) = [0] ∧
     runs (.nmRelease (nmReqP 0x902)) (keep (nmReqP 0x902) s) (fun t => (netOf t 0).state == 3) = true) := by decide +kernel

theorem witness_nmStatus : KeeperRuns nmStatusOp nmStatP (keep nmStatP) ∧ nmStatP.bit 17 0 = true ∧ KeeperRuns nmStatusOp (nmStatP 0) (keep (nmStatP 0)) ∧
    (nmStatP 0).bit 17 0 = false ∧ (nmStatP 0).fld 16 0 4 = 0 ∧
    runs (.nmStatus nmStatP) (keep nmStatP (net 0 1 fun x => { x with sleeps := 3 })) (fun t => (netOf t 0).sleeps == 0) = true ∧
    KeeperRuns xcvrStateOp (xcvrP 1) (keep (xcvrP 1)) ∧ (xcvrP 1).bit 16 4 = true ∧
    runs (.xcvrState (xcvrP 1)) (keep (xcvrP 1) (up.onNet 0 fun x => { x with wakeFlag := true })) (fun t => !(netOf t 0).wakeFlag) = true ∧
    KeeperRuns xcvrStateOp (xcvrP 2) (keep (xcvrP 2)) ∧ (xcvrP 2).bit 16 4 = false ∧ (xcvrP 2).bit 16 5 = true ∧ (xcvrP 2).bit 16 6 = false ∧
    (netCfg up 0).mode = 0 ∧ runs (.xcvrState (xcvrP 2)) (keep (xcvrP 2)) (fun t => (netOf t 0).xcvr == 1) = true := by decide +kernel

/-- A key of ALG `alg` in slot 40, which C0 uses. -/
def keyed (alg usage : Nat) (f : KeySlot → KeySlot := id) (s : State := up) : State :=
  s.onStore fun st => { st with keys := Tbl.put st.keys {} 40 (f { alg := alg, usage := usage, generation := 3, commit := 4096, material := List.replicate 16 9 }) }

/-- A descriptor: OP, flags, TAG_LEN and key slot; one block of AAD at 0x44002000, data at 0x44003000, the tag at 0x44004000. -/
def desc (op flags tag : Nat) (data : Nat := 16) : List Byte :=
  leBytes 2 op ++ leBytes 1 flags ++ leBytes 1 tag ++ leBytes 4 0 ++ leBytes 4 40 ++ leBytes 4 0 ++ List.replicate 12 0 ++ leBytes 4 0x44002000 ++ leBytes 4 16 ++
    leBytes 4 (if data = 0 then 0 else 0x44003000) ++ leBytes 4 data ++ leBytes 4 (if data = 0 then 0 else 0x44003000) ++
    leBytes 4 (if tag = 0 then 0 else 0x44004000) ++ List.replicate 12 0

/-- Ring 33 carries a descriptor at its head. -/
def ring33 (d : List Byte) (s : State := keyed 1 7) : State :=
  memWriteN (s.onRing 33 fun _ => { base := 0x44010000, sizeLog2 := 6, enabled := true, tail := 1 }) 0x44010000 d

theorem witness_admission : let s := ring33 (desc 2 2 16)
    ((s.ring 33).waits = true ∧ landed s 8 ((s.ring 33).arrivalOf 1) = true ∧ domainOn s 5 = true ∧ ringCtx 33 = 1 ∧ (ctxOf s 1).busy = false ∧ (ctxOf s 1).seg = none ∧
      (ctxOf s 1).rest = none ∧ memReadN s ((s.ring 33).slotAddr (s.ring 33).head) 64 = desc 2 2 16) ∧
    firstSegmentCheck s ((ringOwner (chartersInForce s) 33).getD 0) (desc 2 2 16) ((s.ring 33).arrivalOf 1) = none ∧ dSupplied (desc 2 2 16) = true ∧
    runs (.cryptoAdmission 33) s (fun t => (ctxOf t 1).busy && (ctxOf t 1).op == 2) = true := by decide +kernel

/-- The answer of slot 0 of ring 33 in the result stream. -/
def answered33 (st : Status) (t : State) : Bool := t.plane.results.contains (.reply 33 0 st.code 0 1)

theorem witness_admissionDrawn : let s := ring33 (desc 1 0 16)
    (landed s 8 ((s.ring 33).arrivalOf 1) = true ∧ firstSegmentCheck s ((ringOwner (chartersInForce s) 33).getD 0) (desc 1 0 16) ((s.ring 33).arrivalOf 1) = none ∧
      dSupplied (desc 1 0 16) = false ∧ Tbl.wf {} s.store.keys = true ∧ dKey (desc 1 0 16) = 40 ∧ (keySlot s 40).counter < (keySlot s 40).commit ∧
      (keySlot s 40).counter < counterEnd) ∧
    runs (.cryptoAdmission 33) s (fun t => (ctxOf t 1).busy && (keySlot t 40).counter == 1) = true ∧
    (let s := ring33 (desc 9 0 16)
     firstSegmentCheck s ((ringOwner (chartersInForce s) 33).getD 0) (desc 9 0 16) ((s.ring 33).arrivalOf 1) = some .badarg ∧
     runs (.cryptoAdmission 33) s (answered33 .badarg) = true) := by decide +kernel

/-- Context 1 works on a descriptor. -/
def working (d : List Byte) (f : CipherCtx → CipherCtx := id) : State :=
  (ring33 d).onCtx 1 fun _ => f { busy := true, op := dOp d, keySlot := 40, key := List.replicate 16 9, iv := List.replicate 12 0, seg := some { bytes := d } }

theorem witness_segments : (segmentOf (working (desc 1 1 0)) 33 1).isSome = true ∧ dCont (desc 1 1 0) = true ∧ (segmentOf (working (desc 1 0 16)) 33 1).isSome = true ∧
    dCont (desc 1 0 16) = false ∧ dTagLen (desc 1 0 16) = 16 ∧ (segmentOf (working (desc 2 2 16)) 33 2).isSome = true ∧ dCont (desc 2 2 16) = false ∧
    (segmentOf (working (desc 3 0 16 0)) 33 3).isSome = true ∧ dCont (desc 3 0 16 0) = false ∧ dTagLen (desc 3 0 16 0) = 16 ∧
    (segmentOf (working (desc 3 1 0 0)) 33 3).isSome = true ∧ dCont (desc 3 1 0 0) = true ∧
    (segmentOf (working (desc 4 2 16 0)) 33 4).isSome = true ∧ dCont (desc 4 2 16 0) = false ∧ ((working (desc 1 1 0)).ring 33).replyAddr 0 none = some 0x44010000 ∧
    trialRuns (working (desc 1 1 0)) = false ∧ Tbl.wf 0 (working (desc 1 1 0)).mem = true ∧ dOut (desc 1 1 0) = 0x44003000 ∧ dTag (desc 1 0 16) = 0x44004000 := by decide +kernel

theorem witness_segmentsRun : segmentOf (working (desc 1 0 16)) 33 1 = some (ctxOf (working (desc 1 0 16)) 1, { bytes := desc 1 0 16 }) ∧
    dataLeft (working (desc 1 0 16)) { bytes := desc 1 0 16 } = List.replicate 16 0 ∧ (∀ j, j < 16 → j ≠ 1 → (ctxOf (working (desc 1 0 16)) j).seg = none) ∧
    runs (.encrypt 33) (working (desc 1 0 16)) (fun t => answered33 .ok t && !(ctxOf t 1).busy) = true ∧
    runs (.decrypt 33) (working (desc 2 2 16)) (fun t => answered33 .authFail t && !(ctxOf t 1).busy) = true ∧
    runs (.gmacGen 33) (working (desc 3 0 16 0)) (fun t => answered33 .ok t && !(ctxOf t 1).busy) = true ∧
    runs (.gmacCheck 33) (working (desc 4 2 16 0)) (fun t => answered33 .authFail t && !(ctxOf t 1).busy) = true := by decide +kernel

/-- The arbiter: context 3 has 40 blocks, of which 32 are computed, and context 31 has 32, of which 5 have arrived or all. -/
theorem witness_arbiter : let work := ((List.replicate 32 0).set 3 40).set 31 32
    let e : EngineRun := { turn := 31, computed := (List.replicate 32 0).set 3 32, cuts := [], free := 0 }
    work.length = 32 ∧ e.computed.length = 32 ∧ e.computed.getD 3 0 < work.getD 3 0 ∧ (e.visit work 32 3).computed.getD 3 0 = 40 ∧ (e.visit work 32 3).cuts = [3] ∧
    e.computed.getD 31 0 < work.getD 31 0 ∧ (e.visit work 32 31).computed.getD 31 0 = 32 ∧ (e.visit work 32 31).cuts = [] ∧ (e.visit work 32 31).turn = 0 ∧
    (e.visit work 5 31).computed.getD 31 0 = 5 ∧ (e.visit work 5 31).cuts = [31] ∧ (e.visit work 0 31).computed = e.computed ∧
    work.getD 5 0 ≤ e.computed.getD 5 0 := by decide +kernel

theorem witness_chainTimeout : let s := ({ working (desc 1 1 0) (fun x => { x with seg := none }) with now := 80000000 }).onRing 33 fun g => { g with head := 1 }
    (ctxOf s 1).busy = true ∧ (ctxOf s 1).seg = none ∧ (s.ring 33).waits = false ∧ (ctxOf s 1).lastAt + 80000000 ≤ s.now ∧
    runs (.chainSegmentTimeout 33) s (fun t => !(ctxOf t 1).busy && (ctxOf t 1).rest == some Status.timeout.code) = true ∧
    runs (.keyAbortStop 40) (working (desc 1 1 0) fun x => { x with abort := true }) (fun t => answered33 .keyRevoked t && !(ctxOf t 1).busy) = true ∧
    runs (.keyAbortStop 41) (working (desc 1 1 0) fun x => { x with abort := true }) (fun t => (ctxOf t 1).busy) = true ∧
    (let s := (working (desc 1 1 0)).onCipher fun x => { x with mismatches := List.replicate 14 0 }
     (s.cipher.mismatches.filter fun a => s.now < a + 8000000).length < 15 ∧ (ctxOf s 1).seg = some { bytes := desc 1 1 0 } ∧
     runs (.cipherMismatch 1) s (fun t => answered33 .hwFault t && !(ctxOf t 1).busy) = true) := by decide +kernel

/-- The keeper's own requests in contexts 28, 29 and 31. -/
theorem witness_keeperMismatch : ∀ x ∈ [(28, kp 0xA04), (29, kp 0xD01), (31, kp 0xB01)],
    domainOn (keep x.2) 5 = true ∧ ((keep x.2).plane.keeper.find? fun p => p.opcode == x.2.opcode && !isFinished (keep x.2) p) = some x.2 ∧
    runs (.cipherMismatch x.1) (keep x.2) (done x.2 .hwFault up) = true := by decide +kernel

theorem witness_cipherIdle : let s := { up with now := 80000 }
    domainOn s 5 = true ∧ ctxIdle s = true ∧ keepsPd5 s = false ∧ s.cipher.idleSince + 80000 ≤ s.now ∧ (∀ k, k < 16 → (s.ring (32 + k)).waits = false) ∧
    runs .pd5IdleOff s (fun t => t.seq.pd == 31) = true ∧ up.cipher.trngFail = false ∧
    runs (.trngHealthFail 2) up (fun t => t.cipher.trngFail) = true ∧ commitDue (keySlot (keyed 1 7 fun x => { x with counter := 4000 }) 40) = true ∧
    Tbl.wf {} (keyed 1 7 fun x => { x with counter := 4000 }).store.keys = true ∧
    runs (.counterCommit 40) (keyed 1 7 fun x => { x with counter := 4000 }) (fun t => (keySlot t 40).commit == 8192) = true := by decide +kernel

/-- KEY.INFO with a buffer for a public key. -/
def kiOutP : Packet := kp 0xA02 [(16, 1, 40), (20, 4, 0x44002000)] 2

/-- KEY.WRITE of slot 40, KEY.ERASE, KEY.INFO, KEY.DERIVE into slot 41, SIGN, VERIFY and HASH. -/
def kwP : Packet := kp 0xA00 [(16, 1, 40), (18, 1, 1), (20, 2, 7), (28, 4, 0x1234), (32, 4, 0x44002000), (36, 4, 32)]
def keP : Packet := kp 0xA01 [(16, 1, 40), (17, 1, 1)]
def kiP : Packet := kp 0xA02 [(16, 1, 40)] 2
def kdP : Packet := kp 0xA03 [(16, 1, 40), (17, 1, 41), (19, 1, 1), (20, 2, 7), (32, 4, 9), (36, 1, 2), (40, 2, 0x4142)] 2
def sgP : Packet := kp 0xA10 [(16, 1, 40), (24, 4, 0x44002000), (28, 4, 32), (32, 4, 0x44003000)]
def vfP (m : Bool) : Packet := kp 0xA11 ([(24, 4, 0x44002000), (28, 4, 32), (32, 4, 0x44003000)] ++ if m then [(17, 1, 1), (36, 4, 0x44005000)] else [(16, 1, 40)])
def hsP (a : Nat) : Packet := kp 0xA12 [(16, 4, 0x44002000), (20, 4, 64), (24, 2, 32), (28, 4, a)]

theorem witness_keyWrite : KeeperRuns keyWriteOp kwP (keep kwP (keyed 1 7)) ∧ kwGenerate kwP = false ∧ usageAllowed (kwP.num 18 1) (kwP.fld 20 0 10) = true ∧
    sourceAllowed (kwP.num 18 1) false = true ∧ kwP.num 36 4 = materialLen (kwP.num 18 1) ∧ generationFull (keyed 1 7) 40 = false ∧
    targetStale (keyed 1 7) 40 (kwP.num 24 4) = false ∧ kwP.num 28 4 ≠ 0 ∧ Tbl.wf {} (keyed 1 7).store.keys = true ∧
    runs (.keyWrite kwP) (keep kwP (keyed 1 7)) (fun t => (keySlot t 40).generation == 4 && (keySlot t 40).fixed == 0x1234) = true := by decide +kernel

theorem witness_keyErase : let s := keyed 1 7 fun x => { x with owned := true }
    KeeperRuns keyEraseOp keP (keep keP s) ∧ keP.num 16 1 = 40 ∧ generationFull s 40 = false ∧ targetStale s 40 (keP.num 24 4) = false ∧ Tbl.wf {} s.store.keys = true ∧
    runs (.keyErase keP) (keep keP s) (fun t => (keySlot t 40).alg == 0) = true ∧
    KeeperRuns keyInfoOp kiP (keep kiP s) ∧ kiP.num 20 4 = 0 ∧
    KeeperRuns keyInfoOp kiOutP (keep kiOutP s) ∧ kiOutP.num 20 4 ≠ 0 ∧ (kiPublic kiOutP s).isEmpty = true ∧
    runs (.keyInfo kiOutP) (keep kiOutP s) (done kiOutP .conflict s) = true ∧ KeeperRuns keyInfoOp kiOutP (keep kiOutP (keyed 5 64)) ∧
    (kiPublic kiOutP (keyed 5 64)).isEmpty = false ∧ runs (.keyInfo kiOutP) (keep kiOutP (keyed 5 64)) (done kiOutP .ok up) = true := by decide +kernel

theorem witness_keyDerive : let s := keep kdP (keyed 3 8)
    KeeperRuns keyDeriveOp kdP s ∧ kdP.num 17 1 = 41 ∧ kdP.num 19 1 = 1 ∧ usageAllowed 1 (kdP.fld 20 0 10) = true ∧ generationFull s 41 = false ∧
    (keyFor s kdP 40 (kdP.num 24 4)).toOption.isSome = true ∧ targetStale s 41 (kdP.num 28 4) = false ∧ kdP.num 32 4 ≠ 0 ∧ Tbl.wf {} s.store.keys = true := by
  decide +kernel

/-- A blob for slot 41 under a key-encryption key in slot 40: ATTR, IV, 32 bytes and the tag. -/
def blobP : Packet := kp 0xA04 [(16, 1, 40), (17, 1, 41), (32, 4, 0x44002000), (36, 4, 76)]
def wrapped : State := memWriteN (keyed 1 16) 0x44002000 ([1, 0, 7, 0, 9, 0, 0, 0, 41] ++ List.replicate 67 5)

theorem witness_keyUnwrap : let s := keep blobP wrapped
    let attr := padTo 16 ((memReadN s 0x44002000 76).take 16)
    KeeperRuns keyUnwrapOp blobP s ∧ (keyAt s 40 blobP.arrival).map (·.alg) = some 1 ∧ wrapOffset 1 = 0 ∧ dNum attr 0 1 = 1 ∧ dNum attr 8 1 = 41 ∧
    usageAllowed 1 (dNum attr 2 2) = true ∧ blobP.num 36 4 = 0 + 44 + materialLen 1 ∧ generationFull s 41 = false ∧ blobP.num 24 4 = 0 ∧
    targetStale s 41 (blobP.num 28 4) = false ∧ dNum attr 4 4 ≠ 0 ∧ Tbl.wf {} s.store.keys = true := by decide +kernel

theorem witness_sign : KeeperRuns signOp sgP (keep sgP (keyed 4 32)) ∧ (keyFor (keep sgP (keyed 4 32)) sgP 40 (sgP.num 20 4)).toOption.isSome = true ∧
    KeeperRuns verifyOp (vfP true) (keep (vfP true)) ∧ vfInMem (vfP true) = true ∧ KeeperRuns verifyOp (vfP false) (keep (vfP false) (keyed 5 64)) ∧
    vfInMem (vfP false) = false ∧ (keyFor (keep (vfP false) (keyed 5 64)) (vfP false) 40 0).toOption.isSome = true ∧
    KeeperRuns hashOp (hsP 0) (keep (hsP 0)) ∧ KeeperRuns hashOp (hsP 0x44003000) (keep (hsP 0x44003000)) ∧ sgP.eventReply = false ∧
    (up.ring 0).replyAddr 0 none = some 0x44000000 := by decide +kernel

/-- A device that its owner has taken, with the banks as `f` says. -/
def banks (f : ImageStore → ImageStore := id) (s : State := up) : State := s.onImageStore fun x => f { x with lifecycle := 2 }

/-- The header of an application image of SVN 1, VERSION 5 and 100 bytes, encrypted where `e`. -/
def head5 (e : Nat := 0) : List Byte :=
  leBytes 4 0x4D494756 ++ leBytes 2 1 ++ [2, 1] ++ leBytes 4 5 ++ leBytes 4 0 ++ leBytes 4 100 ++ leBytes 4 0 ++ [BitVec.ofNat 8 e]

/-- IMAGE.BEGIN of the header at 0x44002000; IMAGE.DATA of chunk 0; IMAGE.END. -/
def beginP : Packet := kp 0xB00 [(16, 1, 2), (20, 4, 0x44002000), (24, 4, 4096)]
def dataP : Packet := kp 0xB01 [(16, 2, 1), (20, 4, 0x44003000), (24, 4, 100)]
def endP : Packet := kp 0xB02 [(16, 2, 1)]

theorem witness_imageBegin : let s := keep beginP (memWriteN banks 0x44002000 head5)
    KeeperRuns imageBeginOp beginP s ∧ ibAbort beginP = false ∧ beginP.fld 16 0 2 = 2 ∧ imageBusy s = false ∧ tentative s 2 = false ∧
    headerGood s (memReadN s 0x44002000 4096) 2 (beginP.num 24 4) = true ∧ rollsBack s (memReadN s 0x44002000 4096) 2 = false ∧
    (let s := s.onImage fun x => { x with trial := { state := 1 } }
     KeeperRuns imageBeginOp beginP s ∧ imageBusy s = true ∧ runs (.imageBegin beginP) s (done beginP .busy s) = true) ∧
    (let s := s.onImageStore fun x => { x with bank := vmod x.bank 2 fun _ => { state := 4 } }
     KeeperRuns imageBeginOp beginP s ∧ tentative s 2 = true ∧ runs (.imageBegin beginP) s (done beginP .conflict s) = true) := by decide +kernel

/-- The header of a package whose payload is `l`, with its PAYLOAD_DIGEST. -/
def headOf (l : List Byte) : List Byte := padTo 32 head5 ++ Config.shake256 l

/-- Transfer 1 of C0 into bank 2, whose chunk 0 holds `l`, of a package that is encrypted where `e`. -/
def moving (l : List Byte) (e : Nat := 0) : State :=
  (banks fun x => { x with bank := vmod x.bank 2 fun _ => { state := 1, header := padTo 4096 (head5 e), chunks := if l = [] then [] else [(0, l)] } }).onImage fun x =>
    { x with transfer := some { number := 1, owner := 0, kind := 2, bank := 2, header := padTo 4096 (head5 e), key := [], lastAt := 0 } }

/-- Of a chunk of an encrypted package the engine's tag decides between the two cases. -/
theorem witness_imageData : KeeperRuns imageDataOp dataP (keep dataP (moving [])) ∧ (namedTransfer dataP (moving [])).map (fun t => (t.kind, t.bank)) = some (2, 2) ∧
    dataP.num 18 2 = 0 ∧
    Tbl.get (bank13 (moving []) 2).chunks [] 0 = [] ∧ hEncrypted (padTo 4096 head5) = false ∧ Tbl.wf [] (bank13 (moving []) 2).chunks = true ∧
    runs (.imageData dataP) (keep dataP (memWriteN (moving []) 0x44003000 (List.replicate 100 7))) (fun t =>
      done dataP .ok up t && Tbl.get (bank13 t 2).chunks [] 0 == List.replicate 100 7) = true ∧
    KeeperRuns imageDataOp dataP (keep dataP (moving [7])) ∧ Tbl.get (bank13 (moving [7]) 2).chunks [] 0 ≠ [] ∧
    runs (.imageData dataP) (keep dataP (moving [7])) (fun t => done dataP .conflict up t) = true ∧
    KeeperRuns imageDataOp dataP (keep dataP (moving [] 1)) ∧ hEncrypted (padTo 4096 (head5 1)) = true ∧
    (namedTransfer dataP (moving [] 1)).map (fun t => (t.kind, t.bank)) = some (2, 2) := by decide +kernel

theorem witness_imageEnd : KeeperRuns imageEndOp endP (keep endP (moving (List.replicate 100 7))) ∧
    (namedTransfer endP (moving (List.replicate 100 7))).map (fun t => (t.kind, t.bank)) = some (2, 2) ∧
    payloadOf (padTo 4096 head5) (bank13 (moving (List.replicate 100 7)) 2).chunks = some (List.replicate 100 7) ∧
    runs (.imageEnd endP) (keep endP (moving (List.replicate 100 7))) (fun t => done endP .imageBad up t && (bank13 t 2).state == 6) = true ∧
    (let s := keep endP ((moving (List.replicate 100 7)).onImage fun x => { x with transfer := x.transfer.map fun t => { t with header := padTo 4096 (headOf (List.replicate 100 7)) } })
     KeeperRuns imageEndOp endP s ∧ (s.image.transfer.map fun t => hDigest t.header) = some (Config.shake256 (List.replicate 100 7)) ∧
     runs (.imageEnd endP) s (fun t => done endP .ok up t && (bank13 t 2).state == 2 && (bank13 t 2).chunks == (bank13 s 2).chunks) = true) ∧
    (moving []).image.transfer.map (fun t => (t.kind, t.bank, t.lastAt)) = some (2, 2, 0) ∧
    runs .transferTimeout { moving [] with now := 4800000000 } (fun t => t.image.transfer.isNone && (bank13 t 2).state == 0) = true := by decide +kernel

/-- A staged bank 3, and a trial as `f` says. -/
def staged (f : Trial → Trial) (n : Nat := 2) : State :=
  (banks fun x => { x with bank := vmod (vmod x.bank 3 fun _ => { state := n, header := padTo 4096 head5 }) 2 fun _ => { state := if n = 2 then 3 else if n = 4 then 5 else 3 } }).onImage fun x =>
    { x with trial := f x.trial }

/-- IMAGE.TRIAL arms for 10 s, or aborts; IMAGE.COMMIT; IMAGE.REVERT. -/
def trialP (k : Nat) : Packet := kp 0xB03 (if k = 0 then [(20, 4, 10), (24, 4, 80000)] else [(16, 1, k)])
def commitP (k : Nat) : Packet := kp 0xB04 [(16, 1, 2), (17, 1, k)]
def revertP : Packet := kp 0xB05 [(16, 1, 2)]

theorem witness_imageTrial : KeeperRuns imageTrialOp (trialP 0) (keep (trialP 0) (staged id)) ∧ itMode (trialP 0) = 0 ∧ trialBusy (staged id) = false ∧
    (trialP 0).bit 17 0 = false ∧ trialFits (staged id) = true ∧ runs (.imageTrial (trialP 0)) (keep (trialP 0) (staged id)) (fun t =>
      t.image.trial == { state := 1, tagCmp := false, runS := 10, window := 80000 }) = true ∧
    KeeperRuns imageTrialOp (trialP 2) (keep (trialP 2) (staged fun _ => { state := 2 })) ∧ itMode (trialP 2) = 2 ∧
    runs (.imageTrial (trialP 2)) (keep (trialP 2) (staged fun _ => { state := 2 })) (fun t => t.image.trial.state == 3 && t.image.trial.cause == 7) = true := by
  decide +kernel

theorem witness_trialFits : trialFits (staged id) = true := by decide +kernel

/-- A running trial with one live item. -/
def comparing : State := staged fun _ => { state := 2, live := [{ comp := 3, ring := 7, bytes := [1, 2] }], window := 80, runS := 0 }

theorem witness_trialCompare : candidateLate { comp := 3, ring := 7, bytes := [1, 2] } = false ∧
    pairOutcome false { comp := 3, ring := 7, bytes := [1, 2] } { comp := 3, ring := 7, bytes := [1, 2] } = none ∧
    pairOutcome false { comp := 3, ring := 7, bytes := [1, 2] } { comp := 3, ring := 7, bytes := [1, 9] } = some (1, 1) ∧
    matchDue comparing { comp := 3, ring := 7, bytes := [1, 2] } = true ∧ comparing.image.trial.state = 2 ∧ comparing.image.trial.replies = [] ∧
    (comparing.image.trial.live.find? fun y => y.comp == 3) = some { comp := 3, ring := 7, bytes := [1, 2] } ∧ (∀ y ∈ comparing.image.trial.live, y.comp ≠ 4) ∧
    comparing.image.trial.cand = [] ∧ comparing.image.trial.startLin + comparing.image.trial.runS * 8000000 ≤ comparing.plane.lin ∧
    runs (.trialCompare true { comp := 3, ring := 7, bytes := [1, 2] }) comparing (fun t => t.image.trial.matched == 1) = true ∧
    runs (.trialCompare true { comp := 3, ring := 7, bytes := [1, 9] }) comparing (fun t => t.image.trial.cause == 1 && t.image.trial.byte == 1) = true ∧
    runs (.trialCompare true { comp := 4 }) comparing (fun t => t.image.trial.cand.length == 1) = true ∧
    runs (.trialCompare false { comp := 4 }) comparing (fun t => t.image.trial.live.length == 2) = true ∧
    runs (.trialMatchTimeout 3) comparing (fun t => t.image.trial.cause == 3) = true ∧
    runs (.trialRunEnd 0) comparing (fun t => t.image.trial.state == 3 && t.image.trial.cause == 0) = true ∧
    runs (.trialRunEnd 6) (staged fun _ => { state := 2, fault := true }) (fun t => t.image.trial.cause == 6) = true := by decide +kernel

/-- Two live items of compartment 3: the later one, a timeless one, is due before the earlier. -/
def overtaken : State := staged fun _ => { state := 2, window := 80, live := [{ comp := 3, ring := 7, bytes := [9], arrival := 1000000 }, { comp := 3, ring := 7, bytes := [1, 2] }] }

theorem witness_matchTimeout : (comparing.image.trial.live.find? fun y => y.comp == 3 && matchDue comparing y) = some { comp := 3, ring := 7, bytes := [1, 2] } ∧
    (overtaken.image.trial.live.find? fun y => y.comp == 3 && matchDue overtaken y) = some { comp := 3, ring := 7, bytes := [1, 2] } ∧
    runs (.trialMatchTimeout 3) overtaken (fun t => t.image.trial.cause == 3 && t.image.trial.liveBytes == [1, 2]) = true := by decide +kernel

theorem witness_imageCommit : KeeperRuns imageCommitOp (commitP 0) (keep (commitP 0) (staged id)) ∧ (commitP 0).bit 17 0 = false ∧ (commitP 0).bit 18 0 = false ∧
    (commitP 0).num 16 1 = 2 ∧ imageBusy (staged id) = false ∧
    bankIn (staged id) 2 2 = some 3 ∧ trialMet (staged id) 3 = true ∧ fusedSvn (staged id) 2 ≤ hSvn (bank13 (staged id) 3).header ∧ activeApp (staged id) = some 2 ∧
    runs (.imageCommit (commitP 0)) (keep (commitP 0) (staged id)) (fun t => (bank13 t 3).state == 4 && (bank13 t 3).bootLeft == 3 && (bank13 t 2).state == 5) = true ∧
    KeeperRuns imageCommitOp (commitP 1) (keep (commitP 1) (staged id 4)) ∧ (commitP 1).bit 17 0 = true ∧ bankIn (staged id 4) 2 4 = some 3 ∧
    runs (.imageCommit (commitP 1)) (keep (commitP 1) (staged id 4)) (fun t => (bank13 t 3).state == 3) = true ∧
    KeeperRuns imageCommitOp (commitP 1) (keep (commitP 1) (staged id)) ∧ bankIn (staged id) 2 4 = none ∧
    runs (.imageCommit (commitP 1)) (keep (commitP 1) (staged id)) (done (commitP 1) .conflict up) = true ∧
    KeeperRuns imageRevertOp revertP (keep revertP (staged id 4)) ∧ revertP.bit 17 0 = false ∧ revertP.num 16 1 = 2 ∧ bankIn (staged id 4) 2 5 = some 2 ∧
    imageBusy (staged id 4) = false := by decide +kernel

/-- ATTEST of the report and of the certificates; DEBUG.UNLOCK of C14 asks for a challenge, or answers it for 60 s. -/
def attestP (k : Nat) : Packet := kp 0xB10 [(16, 1, k), (20, 4, 0x44002000)] 2
def dbgP (k : Nat) : Packet := { kp 0xB20 ([(16, 1, k)] ++ if k = 1 then [(17, 1, 2), (20, 4, 60), (24, 4, 0x44002000)] else []) with comp := 14 }
def debugging (f : Debug → Debug := id) : State :=
  (banks.onDebug f).onStore fun st => { st with charters := { st.charters with entries := vmod st.charters.entries 14 fun c => { c with enabled := true, groups := 0x800 } } }

theorem witness_attest : KeeperRuns attestOp (attestP 0) (keep (attestP 0)) ∧ (attestP 0).bit 16 0 = false ∧ KeeperRuns attestOp (attestP 1) (keep (attestP 1)) ∧
    (attestP 1).bit 16 0 = true := by decide +kernel

theorem witness_debug : KeeperRuns debugUnlockOp (dbgP 0) (keep (dbgP 0) debugging) ∧ (dbgP 0).fld 16 0 2 = 0 ∧ debugging.cipher.trngFail = false ∧
    (let s := debugging fun d => { d with challenge := some [1, 2] }
     KeeperRuns debugUnlockOp (dbgP 1) (keep (dbgP 1) s) ∧ (dbgP 1).fld 16 0 2 = 1 ∧ (dbgP 1).num 20 4 = 60 ∧ s.image.dbg.challenge = some [1, 2] ∧
     s.image.dbg.spent = false ∧ s.now ≤ s.image.dbg.issuedAt + 60 * 8000000) ∧
    runs .debugExpiry (debugging fun d => { d with scope := some 2 }) (fun t => t.image.dbg.scope.isNone) = true := by decide +kernel

/-- Handle 2 as `h` says, with settings `g`. -/
def handled (h : Handle) (g : HandleCfg := {}) (s : State := up) : State :=
  (s.onAccess fun a => { a with handle := vmod a.handle 2 fun _ => h }).onAccessStore fun x => { x with cfg := { x.cfg with handle := vmod x.cfg.handle 2 fun _ => g } }

theorem witness_handlePoll : (handled { base := some 1280000 }).seq.powered = true ∧ 1280000 + 10 * tenthPf ≤ 1280 * 1100 ∧ (handleCfg (handled {}) 2).confirm = 1 ∧
    (handleCfg (handled {}) 2).thresh = 10 ∧
    runs (.handlePoll 2 1100) (handled { base := some 1280000 }) (fun t => (handleOf t 2).touched) = true ∧
    runs (.handlePoll 2 1100) (handled { base := some 1280000 } { confirm := 2 }) (fun t => (handleOf t 2).count == 1) = true ∧
    runs (.handlePoll 2 1049) (handled { base := some 1280000, touched := true }) (fun t => !(handleOf t 2).touched) = true ∧
    runs (.handlePoll 2 1050) (handled { base := some 1280000, touched := true }) (fun t => (handleOf t 2).touched) = true ∧
    runs (.handlePoll 2 1000) (handled {}) (fun t => (handleOf t 2).base == some 1280000) = true := by decide +kernel

/-- Index 3 is enrolled with every right; access as `f` says. -/
def enrolled (f : Access → Access := id) (s : State := up) : State :=
  (s.onAccessStore fun x => { x with token := vmod x.token 3 fun _ => { state := 1, rights := 3, keySlot := 40, tokenId := 77 } }).onAccess f

theorem witness_handleTouch : (handleOf (handled { touched := true }) 2).told = false ∧ (handleCfg (handled { touched := true }) 2).autoPoll = false ∧
    feedsL0 (handled { touched := true }) 0 = true ∧ runs (.handleTouch 2) (handled { touched := true }) (fun t => (handleOf t 2).told &&
      (vget t.plane.landings 0).items.map (·.writes) == [[(handlePoint 2, 1)]]) = true ∧
    (let s := handled { touched := true } { wakeEn := true } inDark
     armedSource s 2 2 = true ∧ runs (.handleTouch 2) s (fun t => t.sleep.latches == [latch 2 2 500 true true]) = true) ∧
    (let s := handled { touched := true } { autoPoll := true, antMask := 5 } enrolled
     askMask s = 8 ∧ lfSupplyLost s = false ∧ 5 &&& (63 ^^^ (s.access.lfShort &&& 63)) = 5 ∧ s.cipher.trngFail = false ∧ s.plane.running = true ∧
       s.access.poll = none ∧ runs (.handleTouch 2) s (fun t => t.access.poll.isSome) = true) := by decide +kernel

/-- ACCESS.CONFIG writes, with input 5 a door (disabled in `noDoor`) and the SESSION_POINT `point`, or reads; ACCESS.POLL; ACCESS.STATUS. -/
def acP (doors : Nat := 0) (point : Nat := 0) : Packet := kp 0xC10 ([(17, 3, 7), (20, 2, 30), (22, 1, 3), (24, 3, point), (28, 6, doors)] ++ [(42, 1, 10), (46, 1, 10), (50, 1, 10), (54, 1, 10)] ++
  (List.range 6).map fun a => (56 + a, 1, 50))
def acReadP : Packet := kp 0xC10 [(16, 1, 1)]
def apP (ants : Nat := 5) : Packet := kp 0xC11 [(16, 1, 1), (17, 1, ants)]
def asP (k : Nat) : Packet := kp 0xC12 [(16, 1, k)]
/-- Switch input 5 is disabled (its default is enabled, Table 08.13). -/
def noDoor : State := up.onStore fun st => { st with input := { st.input with si := vmod st.input.si 5 fun g => { g with enable := false } } }

theorem witness_accessConfig : KeeperRuns accessConfigOp (acP) (keep acP) ∧ acRead acP = false ∧ (acCfg acP).conflicts (keep acP) = false ∧
    runs (.accessConfig acP) (keep acP (up.onAccess fun a => { a with lfShort := 3 })) (fun t => t.access.lfShort == 0 && accessCfg t == acCfg acP) = true ∧
    KeeperRuns accessConfigOp (acP 32) (keep (acP 32) noDoor) ∧ (acCfg (acP 32)).conflicts (keep (acP 32) noDoor) = true ∧
    runs (.accessConfig (acP 32)) (keep (acP 32) noDoor) (done (acP 32) .conflict up) = true ∧ KeeperRuns accessConfigOp acReadP (keep acReadP) ∧
    acRead acReadP = true ∧ KeeperRuns accessStatusOp (asP 0) (keep (asP 0)) ∧ (asP 0).bit 16 0 = false ∧ KeeperRuns accessStatusOp (asP 1) (keep (asP 1)) ∧
    (asP 1).bit 16 0 = true ∧ acRead (acP 0 0x64000) = false ∧ gallery (acCfg (acP 0 0x64000)).sessionPoint = 100 := by decide +kernel

theorem witness_accessPoll : KeeperRuns accessPollOp apP (keep apP enrolled) ∧ askMask (keep apP enrolled) = 8 ∧ apP.fld 17 0 6 = 5 ∧
    (keep apP enrolled).access.poll = none ∧ (keep apP enrolled).cipher.trngFail = false ∧ apP.fld 17 0 6 &&& (63 ^^^ ((keep apP enrolled).access.lfShort &&& 63)) = 5 ∧
    lfSupplyLost (keep apP enrolled) = false ∧ runs (.accessPoll apP) (keep apP enrolled) (fun t => t.access.poll.isSome) = true ∧
    runs (.accessPoll apP) (keep apP (enrolled fun a => { a with poll := some {} })) (fun t => done apP .busy up t) = true ∧
    KeeperRuns accessPollOp (apP 0) (keep (apP 0) enrolled) ∧ runs (.accessPoll apP) (keep apP) (fun t => done apP .conflict up t) = true ∧
    runs (.accessPoll apP) (keep apP { enrolled with cipher := { trngFail := true } }) (fun t => done apP .hwFault up t) = true ∧
    (let s := (keep apP enrolled).onBank 3 fun b => { b with drop := true }
     lfSupplyLost s = true ∧ KeeperRuns accessPollOp apP s ∧ runs (.accessPoll apP) s (done apP .supply s) = true) := by decide +kernel

/-- A poll whose slots close: index 3 alone is asked, or as `f` says. -/
def pollingOf (f : Poll → Poll := id) : State :=
  { enrolled (fun a => { a with poll := some (f { packet := some apP, antMask := 5, mask := 8, phase := 1 }) }) with now := 100000 }

theorem witness_lfFrameEnd : (pollingOf fun q => { q with phase := 0 }).plane.running = true ∧ ({ antMask := 5, phase := 0 } : Poll).sending 100000 = true ∧
    runs .lfFrameEnd (pollingOf fun q => { q with phase := 0, closed := 9 }) (fun t => (t.access.poll.map fun q => (q.phase, q.closed)) == some (1, 0)) = true ∧
    runs .lfFrameEnd (pollingOf fun q => { q with phase := 2, frameEnd := 100000 }) (fun t => (t.access.poll.map (·.phase)) == some 3) = true ∧
    runs (.antennaFault 0 1) (pollingOf fun q => { q with phase := 0 }) (fun t => (t.access.poll.map (·.antMask)) == some 4 && t.access.lfOpen == 1) = true ∧
    runs (.antennaFault 2 2) (pollingOf fun q => { q with phase := 0, antMask := 4 }) (fun t => t.access.poll.isNone && t.access.lfShort == 4 && done apP .hwFault up t) = true := by
  decide +kernel

/-- TKR_EN in the ticks about a LF frame that ends at 108,000 and asks index 3 alone. -/
theorem witness_tkrEn : let s := pollingOf fun q => { q with phase := 0, frameEnd := 108000 }
    (s.access.poll.map (·.phase)) = some 0 ∧ 108000 ≤ s.now + 8000 ∧ (lfTick s).pins.tkrEn = true ∧ (lfTick { s with now := 99999 }).pins.tkrEn = false ∧
    (lfTick { s with now := 151999 }).pins.tkrEn = true ∧ (lfTick { s with now := 152000 }).pins.tkrEn = false := by decide +kernel

/-- A whole response with the bytes `l`: its CRC follows, each bit is two chips. -/
def response (l : List Byte) : TokenResponse :=
  { sync := some 100000, doneAt := 900000
    chips := (l ++ [BitVec.ofNat 8 (crc8 l)]).flatMap fun b => (List.range 8).flatMap fun i => [b.toNat.testBit (7 - i), !b.toNat.testBit (7 - i)] }

theorem witness_slotClose : let q : Poll := { mask := 8, phase := 1 }
    q.slots.testBit 3 = true ∧ q.closed.testBit 3 = false ∧ q.closeAt 3 ≤ 100000 ∧ (∀ j, q.slots.testBit j = true → j ≠ 3 → q.closed.testBit j = true) ∧
    (responseAnswer (response (4 :: List.replicate 9 0))).map (·.index) = some 4 ∧ classify pollingOf q 3 (response (4 :: List.replicate 9 0)) = 2 ∧
    classify pollingOf q 3 { sync := some 100000, chips := [true] } = 3 ∧ classify pollingOf q 3 {} = 0 ∧
    classify pollingOf { q with revoked := 8 } 3 (response (3 :: List.replicate 9 0)) = 4 ∧ q.maskOf 3 = 0 ∧ q.maskOf 1 = 0 := by
  refine ⟨by decide, by decide, by decide, fun j hj hn => absurd ?_ hn, by decide +kernel⟩
  have : (2 ^ 3).testBit j = true := hj
  rw [Nat.testBit_two_pow] at this
  exact (of_decide_eq_true this).symm

theorem witness_slotCloses :
    runs (.responseSlotClose 3 {}) (pollingOf fun q => { q with mask := 9 }) (fun t => (t.access.poll.map (·.closed)) == some 8) = true ∧
    runs (.responseSlotClose 3 { sync := some 100000, chips := [true] }) pollingOf (fun t => (t.access.poll.map fun q => (q.phase, q.retry, q.frameEnd)) == some (2, 8, 166784)) = true ∧
    runs (.responseSlotClose 3 {}) pollingOf (fun t => t.access.poll.isNone && t.access.polls == 1 && done apP .noToken up t) = true := by decide +kernel

/-- A replay gives index 3 its verdict VALID in a poll with PURPOSE `n`. -/
def verdictOf (n : Nat) : State := (pollingOf fun q => { q with purpose := n }).onPlane fun p => { p with replay := { p.replay with
  running := true, verdicts := [{ word := 2 + 256 * 3, value := 0, stamp := { tick := 16000 } }] } }

theorem witness_grant : classify (verdictOf 2) { purpose := 2, mask := 8, phase := 1 } 3 {} = 1 ∧ rightFor 2 (tokenOf (verdictOf 2) 3).rights = true ∧
    rightFor 1 (tokenOf (verdictOf 1) 3).rights = true ∧
    runs (.responseSlotClose 3 {}) (verdictOf 2) (fun t => t.access.poll.isNone && t.access.grants == 1 && t.store.access.released && t.store.access.relIndex == 3 &&
      done apP .ok up t) = true ∧
    runs (.responseSlotClose 3 {}) (verdictOf 1) (fun t => t.access.session == some ⟨3, 77, 100000, 1⟩ && done apP .ok up t) = true := by decide +kernel

/-- TOKEN.ENROLL of an index with slot 40, with VERIFY on antennas 0 and 2 where `v`; TOKEN.REVOKE of index 3; TOKEN.LIST. -/
def tePof (i rights : Nat) (v : Bool := false) : Packet :=
  kp 0xC00 [(16, 1, i), (17, 1, 40), (18, 1, rights + if v then 4 else 0), (19, 1, if v then 5 else 0), (20, 4, 77)]
def trPof (id : Nat) : Packet := kp 0xC01 [(16, 1, 3), (20, 4, id)]
def tlP : Packet := kp 0xC02 [] 3

theorem witness_tokens : let s := enrolled id (keyed 2 256)
    KeeperRuns tokenEnrollOp (tePof 1 3) (keep (tePof 1 3) s) ∧ (tokenOf s 1).state ≠ 1 ∧ (tePof 1 3).bit 18 2 = false ∧ (tePof 1 3).fld 18 0 2 ≠ 0 ∧
    targetStale s ((tePof 1 3).num 17 1) ((tePof 1 3).num 24 4) = false ∧ s.access.poll = none ∧ KeeperRuns tokenEnrollOp (tePof 3 3) (keep (tePof 3 3) s) ∧
    (tokenOf s 3).state = 1 ∧ runs (.tokenEnroll (tePof 3 3)) (keep (tePof 3 3) s) (done (tePof 3 3) .conflict up) = true ∧
    KeeperRuns tokenRevokeOp (trPof 77) (keep (trPof 77) s) ∧ (trPof 77).bit 17 0 = false ∧ (trPof 77).num 20 4 = 77 ∧
    KeeperRuns tokenRevokeOp (trPof 78) (keep (trPof 78) s) ∧ runs (.tokenRevoke (trPof 78)) (keep (trPof 78) s) (done (trPof 78) .conflict up) = true ∧
    KeeperRuns tokenListOp tlP (keep tlP s) := by decide +kernel

theorem witness_enrolVerify : let p := tePof 1 3 true
    let s := keep p (enrolled id (keyed 2 256))
    KeeperRuns tokenEnrollOp p s ∧ p.bit 18 2 = true ∧ (tokenOf s 1).state ≠ 1 ∧ p.fld 18 0 2 = 3 ∧ p.fld 19 0 6 = 5 ∧
    targetStale s (p.num 17 1) (p.num 24 4) = false ∧ s.access.poll = none ∧ s.cipher.trngFail = false ∧ lfSupplyLost s = false ∧
    p.fld 19 0 6 &&& (63 ^^^ (s.access.lfShort &&& 63)) = 5 ∧
    runs (.tokenEnroll p) s (fun t => (t.access.poll.map fun q => (q.purpose, q.mask, q.antMask)) == some (3, 2, 5)) = true := by decide +kernel

theorem witness_tokenActs : let s := enrolled (fun a => { a with session := some ⟨3, 77, 0, 1⟩ }) ((keyed 2 256).onAccessStore fun x => { x with released := true, relIndex := 3 })
    runs (.tokenEnroll (tePof 1 3)) (keep (tePof 1 3) s) (fun t => (tokenOf t 1).state == 1 && (tokenOf t 1).tokenId == 77 && done (tePof 1 3) .ok up t) = true ∧
    runs (.tokenRevoke (trPof 77)) (keep (trPof 77) s) (fun t => (tokenOf t 3).state == 2 && t.access.session.isNone && !t.store.access.released) = true ∧
    runs .sessionTimeout { s with now := 240000000 } (fun t => t.access.session.isNone) = true ∧
    runs .sessionTimeout { s with now := 239999999 } (fun t => t.access.session.isSome) = true := by decide +kernel

/-- RELEASE.CONFIG with slot 41 and `flags`, on CAN0 with FD; the release as `f` says under a key in slot 40. -/
def rcP (mode flags : Nat) : Packet := kp 0xC20 ([(16, 1, mode)] ++ if mode = 0 then [(17, 1, flags), (19, 1, 40), (20, 4, 0x123), (24, 2, 100)] else [])
def releasing (fd : Bool) (f : Access → Access := id) (usage : Nat := 512) : State :=
  (((keyed 1 usage).onAccessStore fun x => { x with released := true, release := { enable := true, keySlot := 40, periodMs := 20 } }).onAccess f).onStore fun st =>
    { st with can := { st.can with mode := vmod st.can.mode 0 fun g => { g with op := 1, fd := fd } } }

theorem witness_releaseConfig : KeeperRuns releaseConfigOp (rcP 0 9) (keep (rcP 0 9) (releasing true)) ∧ (rcP 0 9).fld 16 0 2 = 0 ∧ (relCfg (rcP 0 9)).enable = true ∧
    (canCfg (releasing true) 0).fd = true ∧ inNmRange (releasing true) 0 0x123 false = false ∧ targetStale (releasing true) 40 ((rcP 0 9).num 28 4) = false ∧
    (relCfg (rcP 0 9)).controller = 0 ∧ KeeperRuns releaseConfigOp (rcP 0 8) (keep (rcP 0 8) (releasing false)) ∧ (relCfg (rcP 0 8)).enable = false ∧
    KeeperRuns releaseConfigOp (rcP 0 9) (keep (rcP 0 9) (releasing false)) ∧ (canCfg (releasing false) 0).fd = false ∧
    runs (.releaseConfig (rcP 0 9)) (keep (rcP 0 9) (releasing false)) (done (rcP 0 9) .conflict up) = true := by decide +kernel

theorem witness_releaseConfigRead : (let s := (releasing true).onStore fun st => { st with sleep := { st.sleep with net := vmod st.sleep.net 0 fun g => { g with mode := 1, base := 0x100 } } }
     KeeperRuns releaseConfigOp (rcP 0 9) (keep (rcP 0 9) s) ∧ inNmRange s 0 0x123 false = true) ∧
    KeeperRuns releaseConfigOp (rcP 1 0) (keep (rcP 1 0) (releasing true)) ∧ (rcP 1 0).fld 16 0 2 = 1 ∧
    KeeperRuns releaseConfigOp (rcP 2 0) (keep (rcP 2 0) (releasing true)) ∧ (rcP 2 0).fld 16 0 2 = 2 ∧
    runs (.releaseConfig (rcP 2 0)) (keep (rcP 2 0) (releasing true)) (fun t => !t.store.access.released) = true := by decide +kernel

theorem witness_releaseBuild : let s := (releasing true).onPlane fun p => { p with tick := 152000 }
    frameDue s = true ∧ releaseKey (keySlot s 40) = true ∧ (keySlot s 40).counter < (keySlot s 40).commit ∧ (keySlot s 40).counter < counterEnd ∧ Tbl.wf {} s.store.keys = true ∧
    (let s := (releasing true id 0).onPlane fun p => { p with tick := 152000 }
     frameDue s = true ∧ releaseKey (keySlot s 40) = false ∧ runs .releaseFrameBuild s (fun t => !t.store.access.released) = true) := by decide +kernel

theorem witness_releaseHandover : let f : Access → Access := fun a => { a with relFrames := [⟨16000, 7, { id := 0x123 }⟩] }
    (canMode (releasing true f) 0).op = 1 ∧ queueFree (canOf (releasing true f) 0) (releasing true f).store.access.release.queue = true ∧
    16000 = (releasing true f).plane.lin ∧ (canMode (releasing true f) 0).fd = true ∧
    runs .releaseFrameHandover (releasing true f) (fun t => t.access.relFrames.isEmpty && t.access.sent == 1 && t.plane.results.contains (.frame 16000 0 { id := 0x123 } 24)) = true ∧
    runs .releaseFrameHandover (releasing true fun a => { a with relFrames := [⟨15999, 7, { id := 0x123 }⟩] }) (fun t => t.access.skipped == 1) = true ∧
    runs .releaseFrameHandover (releasing false f) (fun t => t.access.relFrames.isEmpty && t.access.skipped == 1) = true := by decide +kernel

/-- The logbook as `f` says, at RTC time 5 s; an open segment of `n` records; a record item. -/
def logged (f : Logbook → Logbook) (s : State := up) : State := ({ s with rtc := { time := 163840 } }).onLog f
def recsOf (n : Nat) : List LogRec := (List.range n).reverse.map fun i => { seq := i, chain := [1] }
def openSeg (n : Nat) (f : OpenSeg → OpenSeg := id) (s : State := up) : State :=
  logged (fun l => { l with opened := some (f { recs := recsOf n }), nextSeq := n, chain := some [1] }) s
def item (critical : Bool) : LogItem := { type := 0x8001, critical := critical, payload := [7] }

/-- One sealed segment of 255 records of 208 bytes; the ring with 916 of them, and the emergency area with `n`. -/
def bigSeg (e : Bool) : Segment := { recs := List.replicate 255 { payload := List.replicate 208 0 }, emergency := e }
def fullLog (n : Nat) (s : State := up) : State := logged (fun l => { l with segments := List.replicate n (bigSeg true) ++ List.replicate 916 (bigSeg false) }) s

theorem witness_logFull : (fullLog 0).store.log.canOpen false = false ∧ (fullLog 0).store.log.canOpen true = true ∧ (fullLog 30).store.log.canOpen true = false ∧
    (fullLog 0).store.log.opened = none ∧ runs (.logRecordWrite (item false)) (fullLog 0) (fun t => t.store.log.dropped == 1 && t.store.log.gapPlain == 1) = true ∧
    runs (.logRecordWrite (item true)) (fullLog 0) (fun t => (t.store.log.opened.map (·.emergency)) == some true) = true ∧
    runs (.logRecordWrite (item true)) (fullLog 30) (fun t => t.store.log.dropped == 1 && t.store.log.gapCritical == 1) = true := by decide +kernel

/-- The ring without room for a segment, with an emergency segment open. -/
def emergencyOpen : State := logged (fun l => { l with opened := some { recs := recsOf 3, emergency := true } }) (fullLog 0)

theorem witness_logRecordWrite :
    runs (.logRecordWrite (item true)) emergencyOpen (fun t => (t.store.log.opened.map (·.recs.length)) == some 4) = true ∧
    runs (.logRecordWrite (item false)) (logged id) (fun t => (t.store.log.opened.map fun o => (o.openedRtc, o.recs.length)) == some (163840, 1)) = true ∧
    (recsOf 255).length < 256 := by decide +kernel

theorem witness_logGap : let s := (openSeg 254).onLog fun l => { l with gapPlain := 2, gapCritical := 1 }
    s.store.log.gapPlain + s.store.log.gapCritical ≠ 0 ∧ s.store.log.opened = some { recs := recsOf 254 } ∧ (recsOf 254).length < 255 ∧
    runs (.logRecordWrite (item false)) s (fun t => (t.store.log.opened.map fun o => (o.recs.take 2).map (·.type)) == some [0x8001, 2]) = true := by decide +kernel

theorem witness_segmentSeal : sealDue (openSeg 256) 1 = true ∧ recsOf 256 ≠ [] ∧ 256 ≤ (recsOf 256).length ∧
    sealDue ((openSeg 3).onLog id) 1 = false ∧ sealDue { openSeg 3 with rtc := { time := 60 * 32768 } } 2 = true ∧
    sealDue (openSeg 3 fun o => { o with criticalAt := some 0 }) 3 = true ∧ sealDue { openSeg 3 with seq := { up.seq with warn := true } } 4 = true ∧
    sealDue { openSeg 3 with sleep := { darkPending := true } } 5 = true ∧
    runs (.segmentSeal 1) ((openSeg 256).onPlane fun q => { q with running := false }) (fun t => t.store.log.opened.isNone && t.store.log.seals == 1 &&
      (t.store.log.segments.map fun g => (g.sealRec.reason, g.sealRec.records, g.recs.length)) == [(1, 256, 256)]) = true ∧
    runs (.segmentSeal 1) (openSeg 256) (fun t => (t.store.log.opened.map (·.closing)) == some (some 1) && t.store.log.segments.isEmpty) = true ∧
    runs .sealTimeExpiry ({ openSeg 3 with rtc := { time := 60 * 32768 } }.onPlane fun q => { q with running := false }) (fun t => t.store.log.opened.isNone) = true ∧
    runs .sealTimeExpiry { openSeg 3 with rtc := { time := 60 * 32768 } } (fun t => (t.store.log.opened.map (·.closing)) == some (some 2)) = true ∧
    runs .sealTimeExpiry { openSeg 3 with rtc := { time := 60 * 32768 - 1 } } (fun t => (t.store.log.opened.map (·.closing)) == some none) = true := by decide +kernel

theorem witness_sealTick : let s := openSeg 3 (fun o => { o with criticalAt := some 1000 })
    let reason := fun s => (sealTick s).store.log.segments.map (·.sealRec.reason)
    (sealTick (openSeg 3 fun o => { o with closing := some 6 })).store.log.opened = none ∧
    1000 + 7999 ≤ ({ s with now := 8999 } : State).now ∧ (sealTick { s with now := 8999 }).store.log.opened = none ∧ reason { s with now := 8999 } = [3] ∧
    reason (openSeg 256) = [1] ∧ reason { openSeg 3 with rtc := { time := 60 * 32768 } } = [2] ∧
    (sealTick { s with now := 8998 }).store.log.opened.isSome = true ∧ (makeRoom (openSeg 256)).store.log.opened = none := by decide +kernel

/-- LOG.APPEND; LOG.READ from a number into 0x44010000; LOG.EXPORT_ACK; LOG.SEAL. -/
def laP (critical : Bool) : Packet := kp 0xD00 [(16, 2, 0x8001), (18, 1, 1), (19, 1, b2n critical), (24, 1, 7)]
def lrP (seq k gen : Nat) : Packet := kp 0xD01 [(16, 8, seq), (24, 4, 0x44010000), (28, 4, 68912), (32, 1, k), (36, 4, gen)]
def leP (seq : Nat) : Packet := kp 0xD02 [(16, 8, seq)]
def lsP (mode : Nat) : Packet := kp 0xD03 ([(16, 1, mode)] ++ if mode = 1 then [(20, 4, 0x44010000)] else [])

theorem witness_logTakes : TakesRecord (openSeg 3) (item false) { recs := recsOf 3 } false ∧
    TakesRecord (logged id) (item false) { openedRtc := 163840 } false ∧ TakesRecord (fullLog 0) (item true) { emergency := true, openedRtc := 163840 } true ∧
    TakesRecord emergencyOpen (item true) { recs := recsOf 3, emergency := true } true ∧
    TakesRecord (keep (laP true) (openSeg 3)) (item true) { recs := recsOf 3 } false ∧
    TakesRecord (keep (laP true) (fullLog 0)) (item true) { emergency := true, openedRtc := 163840 } true := by
  unfold TakesRecord
  refine ⟨.inl ?_, .inr ?_, .inr ?_, .inl ?_, .inl ?_, .inr ?_⟩ <;> decide +kernel

theorem witness_logAppend : KeeperRuns logAppendOp (laP true) (keep (laP true) (openSeg 3)) ∧
    item true = { type := (laP true).num 16 2, critical := (laP true).bit 19 0, comp := (laP true).comp, payload := ((laP true).bytes.drop 24).take ((laP true).num 18 1) } ∧
    item false = { type := (laP false).num 16 2, critical := (laP false).bit 19 0, comp := (laP false).comp, payload := ((laP false).bytes.drop 24).take ((laP false).num 18 1) } ∧
    runs (.logAppend (laP true)) (keep (laP true) (openSeg 3)) (fun t => done (laP true) .ok up t && (t.store.log.opened.map (·.recs.length)) == some 4) = true ∧
    KeeperRuns logAppendOp (laP false) (keep (laP false) (fullLog 0)) ∧
    runs (.logAppend (laP false)) (keep (laP false) (fullLog 0)) (fun t => done (laP false) .logFull up t && t.store.log.dropped == 1) = true := by decide +kernel

/-- Two sealed segments hold records 0–4 and 5–6. -/
def sealedTwo (s : State := up) : State := logged (fun l => { l with nextSeq := 7
                                                                     segments := [{ recs := (recsOf 5).reverse }, { recs := ((recsOf 7).take 2).reverse, sealRec := { firstSeq := 5 } }] }) s

theorem witness_logRead : KeeperRuns logReadOp (lrP 7 0 0) (keep (lrP 7 0 0) sealedTwo) ∧ segmentsFrom sealedTwo.store.log 7 = none ∧
    runs (.logRead (lrP 7 0 0)) (keep (lrP 7 0 0) sealedTwo) (done (lrP 7 0 0) .conflict up) = true ∧
    KeeperRuns logReadOp (lrP 4 0 0) (keep (lrP 4 0 0) sealedTwo) ∧ (segmentsFrom sealedTwo.store.log 4).isSome = true ∧
    (segmentsFrom sealedTwo.store.log 5).map (·.length) = some 1 ∧
    runs (.logRead (lrP 4 0 0)) (keep (lrP 4 0 0) sealedTwo) (done (lrP 4 0 0) .ok up) = true ∧
    (let s := keep (lrP 4 40 3) (sealedTwo (keyed 1 1))
     KeeperRuns logReadOp (lrP 4 40 3) s ∧ (keyFor s (lrP 4 40 3) 40 3).isOk = true ∧ (keySlot s 40).counter < (keySlot s 40).commit ∧
       (keySlot s 40).counter < counterEnd ∧ Tbl.wf {} s.store.keys = true) ∧
    (let s := keep (lrP 4 40 2) (sealedTwo (keyed 1 1))
     KeeperRuns logReadOp (lrP 4 40 2) s ∧ (keyFor s (lrP 4 40 2) 40 2).isOk = false ∧
       runs (.logRead (lrP 4 40 2)) s (done (lrP 4 40 2) .keyChanged up) = true) := by decide +kernel

theorem witness_logExportAck : KeeperRuns logExportAckOp (leP 4) (keep (leP 4) sealedTwo) ∧ (sealedTwo.store.log.segments.any fun g => g.last == 4) = true ∧
    runs (.logExportAck (leP 4)) (keep (leP 4) sealedTwo) (fun t => done (leP 4) .ok up t && t.store.log.segments.map (·.acked) == [true, false]) = true ∧
    KeeperRuns logExportAckOp (leP 3) (keep (leP 3) sealedTwo) ∧ (sealedTwo.store.log.segments.any fun g => g.last == 3) = false ∧
    runs (.logExportAck (leP 3)) (keep (leP 3) sealedTwo) (done (leP 3) .conflict up) = true := by decide +kernel

theorem witness_logSeal : KeeperRuns logSealOp (lsP 0) (keep (lsP 0) (openSeg 3)) ∧ (lsP 0).fld 16 0 2 = 0 ∧ (openSeg 3).plane.running = true ∧
    runs (.logSeal (lsP 0)) (keep (lsP 0) (openSeg 3)) (fun t => done (lsP 0) .ok up t && (t.store.log.opened.bind (·.closing)) == some 6) = true ∧
    KeeperRuns logSealOp (lsP 0) (keep (lsP 0)) ∧ runs (.logSeal (lsP 0)) (keep (lsP 0)) (done (lsP 0) .conflict up) = true ∧
    KeeperRuns logSealOp (lsP 1) (keep (lsP 1)) ∧ (lsP 1).fld 16 0 2 = 1 ∧ KeeperRuns logSealOp (lsP 2) (keep (lsP 2)) ∧ (lsP 2).fld 16 0 2 = 2 := by decide +kernel

/-- TIME.SET, unsigned to `time`, or signed with slot 40; TIME.GET. -/
def tsP (time : Nat) (signed : Bool := false) : Packet :=
  kp 0xD10 ([(16, 1, b2n signed), (24, 8, time)] ++ if signed then [(17, 1, 40), (20, 4, 0x44010000)] else [])
def tgP : Packet := kp 0xD11

theorem witness_time : let s := openSeg 3
    KeeperRuns timeSetOp (tsP 163840) (keep (tsP 163840) s) ∧ timeStatus s (tsP (163840 + 60 * 32768)) = .ok ∧
    timeStatus s (tsP (163841 + 60 * 32768)) = .timeRefused ∧ KeeperRuns timeSetOp (tsP 5000000) (keep (tsP 5000000) s) ∧
    runs (.timeSet (tsP 5000000)) (keep (tsP 5000000) s) (fun t => done (tsP 5000000) .timeRefused up t && t.rtc.time == 163840 &&
      (t.store.log.opened.map fun o => o.recs.head?.map (·.type)) == some (some 0xD10)) = true ∧
    runs (.timeSet (tsP 200000)) (keep (tsP 200000) s) (fun t => done (tsP 200000) .ok up t && t.rtc.time == 200000 && t.rtc.setCount == 1 && t.rtc.spent == 36160) = true ∧
    KeeperRuns timeSetOp (tsP 200000 true) (keep (tsP 200000 true) (openSeg 3 id (keyed 5 128))) ∧ (tsP 200000 true).bit 16 0 = true ∧
    KeeperRuns timeGetOp tgP (keep tgP) ∧ (keep tgP).plane.replay.running = false ∧ keeperRuns up = true ∧
    runs .rtcStore s (fun t => t.store.rtc.time == 163840) = true ∧ up.seq.powered = true ∧
    runs (.rtcTempMeasure (-40)) s (fun t => t.rtc.temp == -40 && t.rtc.time == 163840) = true := by decide +kernel

/-- WATCH.CONFIG of counter 2 of hall 1 (frames of CAN-like class 0x0C), or of dump ring `i`; WATCH.GRANT; WATCH.SNAP of a hall or of two ports. -/
def wcP (read : Bool := false) : Packet := kp 0xE00 [(16, 1, 2 * b2n read), (17, 1, 1), (18, 1, 2), (19, 1, 1), (24, 1, 0), (25, 1, if read then 0 else 12), (26, 1, if read then 0 else 2)]
def wdP (i size : Nat) (mask : Nat := 3) : Packet := kp 0xE00 [(16, 1, 1), (17, 1, i), (18, 1, 1), (19, 1, size), (20, 2, 2), (24, 8, mask)]
def wgP (rings : Nat) : Packet := kp 0xE01 [(16, 1, 3), (18, 2, 0x101), (20, 1, rings), (24, 8, 5)]
def wsP (ports : Bool) : Packet := kp 0xE02 ([(16, 1, b2n ports)] ++ if ports then [(18, 1, 8), (19, 1, 2)] else [(17, 1, 1)]) 4

theorem witness_watchConfig : KeeperRuns watchConfigOp (wcP true) (keep (wcP true)) ∧ watchRead (wcP true) = true ∧
    KeeperRuns watchConfigOp wcP (keep wcP) ∧ watchRead wcP = false ∧ watchPart wcP = false ∧ watchSelectors wcP = [(18, ⟨12, 0, false, true⟩)] ∧
    Tbl.wf {} up.store.watch.sel = true ∧ Tbl.wf 0 up.watch.cnt = true ∧
    (let s := (keep wcP).onWatch fun w => { w with cnt := Tbl.put w.cnt 0 18 9 }
     runs (.watchConfig wcP) s (fun t => done wcP .ok up t && Tbl.get t.watch.cnt 0 18 == 0 && Tbl.get t.watch.clearedAt 0 (256 + 18) == 16000) = true ∧
     runs (.watchConfig wcP) (s.onWatchStore fun w => { w with sel := Tbl.put w.sel {} 18 ⟨12, 0, false, true⟩ }) (fun t => Tbl.get t.watch.cnt 0 18 == 9) = true) := by
  decide +kernel

/-- Dump ring `i` is enabled with 16 slots and a window of 2 ms, `head` and `tail` as given. -/
def dumping (i head tail : Nat) (mask : Nat := 3) : State :=
  ((up.onRing (60 + i) fun _ => { base := 0x44100000 + 0x40000 * i, sizeLog2 := 4, enabled := true, head := head, tail := tail }).onWatchStore fun w =>
    { w with dump := vmod w.dump i fun _ => { enable := true, sizeLog2 := 4, window := 2, mask := mask } })

theorem witness_watchDumpConfig : KeeperRuns watchConfigOp (wdP 0 4) (keep (wdP 0 4)) ∧ watchPart (wdP 0 4) = true ∧ watchRead (wdP 0 4) = false ∧
    dumpSlots 0 3 ≤ 2 ^ 4 - 1 ∧ (up.ring 60).enabled = false ∧
    runs (.watchConfig (wdP 0 4)) (keep (wdP 0 4)) (fun t => done (wdP 0 4) .ok up t && (t.ring 60).sizeLog2 == 4 && (t.ring 60).enabled) = true ∧
    KeeperRuns watchConfigOp (wdP 0 5) (keep (wdP 0 5) (dumping 0 0 0)) ∧ (up.onRing 60 id).plane.running = true ∧
    ((dumping 0 0 0).ring 60).enabled = true ∧ ((dumping 0 0 0).ring 60).sizeLog2 = 4 ∧
    runs (.watchConfig (wdP 0 5)) (keep (wdP 0 5) (dumping 0 0 0)) (done (wdP 0 5) .conflict up) = true ∧
    2 ^ 4 - 1 < dumpSlots 1 (2 ^ 39 - 1) ∧ KeeperRuns watchConfigOp (wdP 1 4 (2 ^ 39 - 1)) (keep (wdP 1 4 (2 ^ 39 - 1))) ∧
    runs (.watchConfig (wdP 1 4 (2 ^ 39 - 1))) (keep (wdP 1 4 (2 ^ 39 - 1))) (done (wdP 1 4 (2 ^ 39 - 1)) .conflict up) = true := by decide +kernel

theorem witness_watchGrant : let other := up.onWatchStore fun w => { w with grant := vmod w.grant 5 fun g => { g with ring61 := true } }
    KeeperRuns watchGrantOp (wgP 1) (keep (wgP 1) other) ∧ (wgP 1).fld 16 0 4 = 3 ∧ (watchGrantOf (wgP 1)).ring60 = true ∧ (watchGrantOf (wgP 1)).ring61 = false ∧
    (∀ d : Fin 16, (vget other.store.watch.grant d).ring60 = false) ∧
    runs (.watchGrant (wgP 1)) (keep (wgP 1) other) (fun t => done (wgP 1) .ok up t && (vget t.store.watch.grant 3).halls == 257) = true ∧
    KeeperRuns watchGrantOp (wgP 2) (keep (wgP 2) other) ∧ (watchGrantOf (wgP 2)).ring61 = true ∧ (vget other.store.watch.grant 5).ring61 = true ∧
    runs (.watchGrant (wgP 2)) (keep (wgP 2) other) (done (wgP 2) .conflict up) = true := by decide +kernel

theorem witness_watchSnap : KeeperRuns watchSnapOp (wsP false) (keep (wsP false)) ∧ (wsP false).comp < 16 ∧ (wsP false).bit 16 0 = false ∧
    runs (.watchSnap (wsP false)) (keep (wsP false)) (fun t => done (wsP false) .ok up t && (vget t.watch.snap 0).hallAt == some 16000) = true ∧
    KeeperRuns watchSnapOp (wsP true) (keep (wsP true)) ∧ (wsP true).bit 16 0 = true ∧
    runs (.watchSnap (wsP true)) (keep (wsP true)) (fun t => (vget t.watch.snap 0).last.isSome) = true := by decide +kernel

theorem witness_watchDump : 16000 % (8000 * 2) = 0 ∧ ((dumping 0 0 0).ring 60).size ≠ 0 ∧ dumpSlots 0 3 = 4 ∧ 4 ≤ ((dumping 0 0 0).ring 60).room ∧
    (vget (dumping 0 0 0).watch.dump 0).readAt ≠ some 16000 ∧ Tbl.wf 0 (dumping 0 0 0).mem = true ∧
    runs (.watchDump 60) (dumping 0 0 0) (fun t => (t.ring 60).tail == 4 && (vget t.watch.dump 0).seq == 1 && memReadN t (0x44100000 + 16) 2 == [1, 4]) = true ∧
    runs (.watchDump 60) (dumping 0 13 12) (fun t => (t.ring 60).tail == 12 && (t.ring 60).drops == 1 && t.plane.status.overrun) = true ∧
    runs (.watchDump 61) (dumping 1 0 0) (fun t => (t.ring 61).tail == 2) = true := by decide +kernel

end Sys2Proof.Tests
end

namespace Sys2Proof.Machine

open Sys2Proof.Claims

/-! A fold of the machine's operations. -/

/-- A fold keeps what each of its steps keeps. -/
theorem foldl_keeps {α β : Type} (g : State → β) (f : State → α → State) (h : ∀ s a, g (f s a) = g s) (l : List α) (s : State) :
    g (l.foldl f s) = g s :=
  List.foldlRecOn (motive := fun t => g t = g s) l f rfl fun t ht a _ => (h t a).trans ht

/-! What completing a packet leaves alone: everything but the plane, memory and the images. -/

/-- The state but for what the reply of a packet may touch (Safety's `replyParts`): the plane, memory and the images. -/
def State.beyondReply (s : State) : State := { s with plane := {}, mem := [], image := {} }

@[simp] theorem onPlane_beyondReply (s : State) (f : Plane → Plane) : (s.onPlane f).beyondReply = s.beyondReply := rfl

@[simp] theorem onShadow_beyondReply (s : State) (r : Nat) (f : Ring → Ring) : (s.onShadow r f).beyondReply = s.beyondReply := rfl

@[simp] theorem onTrial_beyondReply (s : State) (f : Trial → Trial) : (s.onTrial f).beyondReply = s.beyondReply := rfl

@[simp] theorem memWriteN_beyondReply (s : State) (a : Nat) (l : List Byte) : (memWriteN s a l).beyondReply = s.beyondReply := by
  rw [memWriteN_only]; rfl

@[simp] theorem postEvent_beyondReply (s : State) (e : Ev) : (postEvent s e).beyondReply = s.beyondReply := by
  rw [postEvent_only]; rfl

@[simp] theorem giveReply_beyondReply (s : State) (b : TrialItem) (w : List (Nat × List Byte)) :
    (giveReply s b w).beyondReply = s.beyondReply := by
  unfold giveReply
  rw [onShadow_beyondReply]
  refine foldl_keeps State.beyondReply _ (fun u e => ?_) w s
  split <;> simp

@[simp] theorem mirrorReply_beyondReply (s : State) (r slot : Nat) (w : List (Nat × List Byte)) :
    (mirrorReply s r slot w).beyondReply = s.beyondReply := by
  unfold mirrorReply
  dsimp only
  split
  · rfl
  · split
    · simp
    · split <;> simp

@[simp] theorem writeReply_beyondReply (s : State) (p : Packet) (st : Status) (r : Reply) (done : Stamp) :
    (writeReply s p st r done).beyondReply = s.beyondReply := by
  unfold writeReply
  dsimp only
  split <;> split <;> simp

@[simp] theorem retirePacket_beyondReply (s : State) (p : Packet) : (retirePacket s p).beyondReply = s.beyondReply := rfl

@[simp] theorem dropReplayed_beyondReply (s : State) (p : Packet) : (dropReplayed s p).beyondReply = s.beyondReply := rfl

@[simp] theorem release_beyondReply (s : State) (p : Packet) : (release s p).beyondReply = s.beyondReply := rfl

@[simp] theorem completeNow_beyondReply (s : State) (p : Packet) (st : Status) (r : Reply) :
    (completeNow s p st r).beyondReply = s.beyondReply := by
  unfold completeNow completeAt
  dsimp only
  split <;> split <;> simp

/-! A keeper packet whose turn has come, and step 6 of R79. -/

/-- A keeper packet that runs now is executed: it neither waits nor joins a flight. -/
theorem keeperTake_executes (o : Op) (p : Packet) (s : State) (h : KeeperRuns o p s) : keeperTake o p s = keeperExecute o p s := by
  obtain ⟨hop, hkeeper, hshut, hflight, hreach, hturn, -⟩ := h
  have hheld : isHeld s p = true := by simp only [isHeld, hkeeper, Bool.or_true, Bool.true_or]
  have hnow : ¬ (waitsForE o p s = true ∧ (s.plane.tick < dueTick false p s ∨ (!inTurn p s) = true)) := by
    rintro ⟨hw, hlater⟩
    rcases hturn with ⟨htime, hatE, hcheck, -⟩ | ⟨hdue, hin⟩
    · simp [waitsForE, htime, hatE, hcheck] at hw
    · simp [hdue, hin] at hlater
  rw [keeperTake, if_neg (not_not.2 hop), if_pos hheld, runKeeper]
  simp only [hshut, hflight, hreach, Bool.not_true, Bool.false_eq_true, if_false, if_neg hnow]

/-- A packet whose settings would disagree is refused with S_CONFLICT, and nothing of it is applied (R79, R89). -/
theorem executeOp_disagrees (o : Op) (p : Packet) (s : State) (h : checkPacket o p s = none) (ha : o.agree p s (o.run p s).s = false) :
    executeOp o p s = { s := s, st := some .conflict } := by simp [executeOp, h, ha]

/-- A keeper packet that runs now and whose settings would disagree completes with S_CONFLICT from the state that it found. -/
theorem keeperTake_disagrees (o : Op) (p : Packet) (s : State) (h : KeeperRuns o p s)
    (ha : o.agree p (release s p) (o.run p (release s p)).s = false) :
    keeperTake o p s = completeNow (release s p) p .conflict [] := by
  have hexec : executed o p (release s p) = false := by simp [executed, ha]
  rw [keeperTake_executes o p s h]
  obtain ⟨-, -, -, -, -, -, hcheck⟩ := h
  unfold keeperExecute
  simp only [hexec, Bool.and_false, executeOp_disagrees o p _ hcheck ha]
  exact finishRun_onTime _ _ _

/-- What the command of such a packet answers: the packet has completed with S_CONFLICT, and nothing but what its reply touches has changed (R79, R89). -/
theorem effect_keeperTake_disagrees (o : Op) (p : Packet) (s : State) (h : KeeperRuns o p s)
    (ha : o.agree p (release s p) (o.run p (release s p)).s = false) :
    ∃ t, effect s (keeperTake o p s) = .next t ∧ Completed p .conflict s t ∧ t.beyondReply = s.beyondReply := by
  have hframe : (completeNow (release s p) p .conflict []).beyondReply = s.beyondReply := by simp
  rw [keeperTake_disagrees o p s h ha]
  exact ⟨_, rfl, completeNow_completed (release s p) p .conflict [], (congrArg (fun u : State => { u with pending := s.pending }) hframe :)⟩

/-! Turning outputs on and off writes no settings. -/

@[simp] theorem observe_store (s : State) (h idx : Nat) (w : List (Nat × PVal)) (es : List Ev) (caps : List CapRecord) :
    (observe s h idx w es caps).store = s.store := by
  unfold observe
  split
  · rw [sense_only]
  · rfl

@[simp] theorem bump_store (s : State) (cls index n : Nat) (hall : Option Nat) : (bump s cls index n hall).store = s.store := rfl

@[simp] theorem loadEvent_store (s : State) (kind ch value : Nat) : (loadEvent s kind ch value).store = s.store := observe_store ..

@[simp] theorem bumpSnapshot_store (s : State) : (bumpSnapshot s).store = s.store := by unfold bumpSnapshot; split <;> rfl

@[simp] theorem onChan_store (s : State) (ch : Nat) (f : Chan → Chan) : (s.onChan ch f).store = s.store := rfl

@[simp] theorem onCond_store (s : State) (ch : Nat) (f : Cond → Cond) : (s.onCond ch f).store = s.store := rfl

@[simp] theorem onBank_store (s : State) (b : Nat) (f : Bank → Bank) : (s.onBank b f).store = s.store := rfl

@[simp] theorem onString_store (s : State) (n : Nat) (f : Strg → Strg) : (s.onString n f).store = s.store := rfl

@[simp] theorem onStrCond_store (s : State) (n : Nat) (f : Cond → Cond) : (s.onStrCond n f).store = s.store := rfl

@[simp] theorem noteFreeze_store (s : State) (b : Nat) : (noteFreeze s b).store = s.store := rfl

@[simp] theorem leaveQueue_store (s : State) (ch : Nat) : (leaveQueue s ch).store = s.store := rfl

@[simp] theorem updateChan_store (s : State) (ch : Nat) : (updateChan s ch).store = s.store := by
  unfold updateChan; dsimp only; split
  · rfl
  · split <;> rfl

@[simp] theorem reportCause_store (s : State) (ch cause detail : Nat) : (reportCause s ch cause detail).store = s.store := by
  unfold reportCause; dsimp only; split <;> simp

@[simp] theorem endCause_store (s : State) (ch cause : Nat) : (endCause s ch cause).store = s.store := by
  unfold endCause; split <;> simp

@[simp] theorem lockChan_store (s : State) (ch cause detail : Nat) : (lockChan s ch cause detail).store = s.store := by simp [lockChan]

@[simp] theorem stopRetry_store (s : State) (ch : Nat) : (stopRetry s ch).store = s.store := by
  unfold stopRetry; dsimp only; split <;> simp

@[simp] theorem holdChan_store (s : State) (ch cause detail : Nat) : (holdChan s ch cause detail).store = s.store := by simp [holdChan]

@[simp] theorem endHoldChan_store (s : State) (ch cause : Nat) : (endHoldChan s ch cause).store = s.store := by
  unfold endHoldChan; split <;> simp

@[simp] theorem resumeChan_store (s : State) (ch cause : Nat) : (resumeChan s ch cause).store = s.store := by
  unfold resumeChan; dsimp only; split
  · split <;> simp
  · rfl

@[simp] theorem updateString_store (s : State) (n : Nat) : (updateString s n).store = s.store := by
  unfold updateString; dsimp only; split
  · rfl
  · split
    · split <;> rfl
    · split <;> rfl

@[simp] theorem reportString_store (s : State) (n cause detail : Nat) (fresh : Bool) :
    (reportString s n cause detail fresh).store = s.store := by
  unfold reportString; dsimp only; split <;> simp

@[simp] theorem endString_store (s : State) (n cause : Nat) : (endString s n cause).store = s.store := by
  unfold endString; split <;> simp

@[simp] theorem holdString_store (s : State) (n cause detail : Nat) : (holdString s n cause detail).store = s.store := by simp [holdString]

@[simp] theorem endHoldString_store (s : State) (n cause : Nat) : (endHoldString s n cause).store = s.store := by
  unfold endHoldString; split <;> simp

@[simp] theorem resumeString_store (s : State) (n cause : Nat) : (resumeString s n cause).store = s.store := by
  unfold resumeString; split
  · dsimp only; split <;> simp
  · rfl

@[simp] theorem holdOut_store (s : State) (cause ch : Nat) : (holdOut s cause ch).store = s.store := by
  unfold holdOut; dsimp only; split <;> simp

@[simp] theorem endHoldOut_store (s : State) (cause ch : Nat) : (endHoldOut s cause ch).store = s.store := by
  unfold endHoldOut; split <;> simp

@[simp] theorem resumeOut_store (s : State) (cause ch : Nat) : (resumeOut s cause ch).store = s.store := by
  unfold resumeOut; split <;> simp

@[simp] theorem joinQueue_store (cause : Nat) (s : State) (ch : Nat) : (joinQueue cause s ch).store = s.store := by
  unfold joinQueue; split <;> rfl

@[simp] theorem queueStep_store (s : State) (b : Nat) : (queueStep s b).store = s.store := by
  unfold queueStep; dsimp only; split
  · rfl
  · split <;> simp

@[simp] theorem relevel_store (s : State) (ch : Nat) : (relevel s ch).store = s.store := by
  unfold relevel; dsimp only; split
  · split <;> simp
  · split <;> simp

/-! LOAD.SHED and the order of R52. -/

/-- Thresholds that stand closer than 0.5 V do not agree (R52). -/
theorem BankCfg.agrees_eq_false_of_order_broken (g : BankCfg) (h : g.t0 < g.t1 + 5 ∨ g.t1 < g.t2 + 5 ∨ g.t2 < g.t3 + 5) : g.agrees = false := by
  simp only [BankCfg.agrees, Bool.and_eq_false_iff, decide_eq_false_iff_not, Nat.not_le]
  omega

/-- A LOAD.SHED that writes a bank leaves it the packet's thresholds, whatever channels it holds and returns after that (Table 05.14). -/
theorem loadShedOp_run_bankCfg (p : Packet) (b : Nat) (s : State) (hread : p.bit 16 0 = false) (hb : b < 4) (hwrite : p.bit 17 b = true) :
    bankCfg (loadShedOp.run p s).s b = bankCfgOf p b := by
  have hqueue (l : List Nat) (u : State) : (l.foldl queueStep u).store = u.store := foldl_keeps State.store queueStep queueStep_store l u
  have hlevel (l : List Nat) (u : State) : (l.foldl relevel u).store = u.store := foldl_keeps State.store relevel relevel_store l u
  simp [bankCfg, loadShedOp, hread, hqueue, hlevel, hb, hwrite]

/-- Settings that a LOAD.SHED would leave do not agree where it writes a bank with thresholds out of the order of R52. -/
theorem loadShedOp_disagrees (p : Packet) (b : Nat) (s : State) (hread : p.bit 16 0 = false) (hb : b < 4) (hwrite : p.bit 17 b = true)
    (h : (bankCfgOf p b).agrees = false) : loadShedOp.agree p s (loadShedOp.run p s).s = false := by
  refine List.all_eq_false.2 ⟨b, List.mem_range.2 hb, ?_⟩
  rw [loadShedOp_run_bankCfg p b s hread hb hwrite, h]
  exact Bool.false_ne_true

/-- Settles O34: step 6 of R79 finds the thresholds of a written bank out of order, so the packet completes with S_CONFLICT from the state that it found,
and a completion touches the plane, memory and the images only. -/
theorem thresholdOrderIsKept : Obligations.ThresholdOrderIsKept := by
  intro p b s hruns hread hb hwrite horder
  have hconflict : loadShedOp.agree p (release s p) (loadShedOp.run p (release s p)).s = false :=
    loadShedOp_disagrees p b _ hread hb hwrite (BankCfg.agrees_eq_false_of_order_broken _ horder)
  obtain ⟨t, hexec, hdone, hframe⟩ := effect_keeperTake_disagrees loadShedOp p s hruns hconflict
  exact ⟨t, hexec, hdone, (congrArg State.store hframe :), (congrArg State.load hframe :), (congrArg State.link hframe :),
    (congrArg State.light hframe :)⟩

end Sys2Proof.Machine

namespace Sys2Proof.Machine

open Sys2Proof.Claims

/-! A keeper packet whose settings would agree. -/

/-- A keeper packet that runs now, that nothing refuses and whose settings would agree leaves what its opcode's run leaves, but for what its reply
touches. -/
theorem keeperTake_agrees_beyondReply (o : Op) (p : Packet) (s : State) (h : KeeperRuns o p s)
    (ha : o.agree p (release s p) (o.run p (release s p)).s = true) (hr : o.refuse p (release s p) = none) :
    (keeperTake o p s).beyondReply = (o.run p (release s p)).s.beyondReply := by
  rw [keeperTake_runs o p s h ha, carryOut_runs o p _ hr]
  split
  · rfl
  · exact completeNow_beyondReply ..

/-- The checks of steps 1–5 of R79 pass where a keeper packet takes effect. -/
theorem checkPacket_of_keeperRuns (o : Op) (p : Packet) (s : State) (h : KeeperRuns o p s) : checkPacket o p (release s p) = none := by
  obtain ⟨-, -, -, -, -, -, hcheck⟩ := h
  exact hcheck

/-- The checks of a packet hold its arguments free of every S_BADARG cause of its opcode (R79, step 5). -/
theorem bad_eq_false_of_checkPacket (o : Op) (p : Packet) (s : State) (h : checkPacket o p s = none) : o.bad p (judged p s) = false := by
  have harg : argStatus o p (judged p s) = none := by
    unfold checkPacket checkWith at h
    split_ifs at h
    exact h
  unfold argStatus at harg
  split_ifs at harg with hbad
  simp only [Bool.or_eq_true, not_or, Bool.not_eq_true] at hbad
  exact hbad.2

/-! The settings that a STRING.CONFIG leaves. -/

/-- A string's settings fit where its used segments and V_HEAD sum to at most 52.0 V (R181). -/
theorem StringCfg.fits_iff (g : StringCfg) :
    g.fits = true ↔ (((List.range 16).filter fun k => g.usedMask.testBit k).map fun k => vget g.vf k).sum + 20 ≤ 520 := by
  simp only [StringCfg.fits, decide_eq_true_eq]

/-- The voltage of a record's segment is its byte in the packet (Table 07.13). -/
theorem stringCfgOf_vf (p : Packet) (i k : Nat) (hk : k < 16) : vget (stringCfgOf p i).vf k = p.num (24 + 32 * i + 8 + k) 1 :=
  vget_vtab (fun k => p.num (24 + 32 * i + 8 + k) 1) k hk

/-- A record whose used segments and V_HEAD sum to more than 52.0 V does not fit (R181). -/
theorem stringCfgOf_fits_eq_false (p : Packet) (i : Nat)
    (h : 520 < (((List.range 16).filter fun k => (p.num (24 + 32 * i + 6) 2).testBit k).map fun k => p.num (24 + 32 * i + 8 + k) 1).sum + 20) :
    (stringCfgOf p i).fits = false := by
  have hvf : (((List.range 16).filter fun k => (stringCfgOf p i).usedMask.testBit k).map fun k => vget (stringCfgOf p i).vf k) =
      ((List.range 16).filter fun k => (p.num (24 + 32 * i + 6) 2).testBit k).map fun k => p.num (24 + 32 * i + 8 + k) 1 :=
    List.map_congr_left fun k hk => stringCfgOf_vf p i k (List.mem_range.1 (List.mem_filter.1 hk).1)
  rw [← Bool.not_eq_true, StringCfg.fits_iff, hvf]
  omega

/-- A record names one of the four strings. -/
theorem strIx_lt (p : Packet) (i : Nat) : strIx p i < 4 := Nat.mod_lt _ (by decide)

/-- What STRING.CONFIG does with record `i`: it becomes the settings of its string. -/
def writeStringRecord (p : Packet) (s : State) (i : Nat) : State :=
  updateString (s.onStore fun st => { st with light := { st.light with
    string := vmod st.light.string (strIx p i) fun _ => stringCfgOf p i } }) (strIx p i)

theorem stringCfg_writeStringRecord_same (p : Packet) (s : State) (i : Nat) : stringCfg (writeStringRecord p s i) (strIx p i) = stringCfgOf p i := by
  simp [stringCfg, writeStringRecord, strIx_lt]

theorem stringCfg_writeStringRecord_other (p : Packet) (s : State) (i n : Nat) (h : strIx p i ≠ n) :
    stringCfg (writeStringRecord p s i) n = stringCfg s n := by
  simp [stringCfg, writeStringRecord, vget_vmod_ne _ _ _ _ h]

/-- Records leave alone the settings of a string that none of them names. -/
theorem stringCfg_writeStringRecords_other (p : Packet) (n : Nat) (l : List Nat) (s : State) (h : n ∉ l.map (strIx p)) :
    stringCfg (l.foldl (writeStringRecord p) s) n = stringCfg s n := by
  induction l generalizing s with
  | nil => rfl
  | cons j l ih =>
    rw [List.map_cons, List.mem_cons, not_or] at h
    obtain ⟨hj, hl⟩ := h
    rw [List.foldl_cons, ih _ hl, stringCfg_writeStringRecord_other p s j n (Ne.symm hj)]

/-- Records that name different strings all stand in the end. -/
theorem stringCfg_writeStringRecords (p : Packet) (i : Nat) (l : List Nat) (s : State) (hi : i ∈ l) (hnodup : (l.map (strIx p)).Nodup) :
    stringCfg (l.foldl (writeStringRecord p) s) (strIx p i) = stringCfgOf p i := by
  induction l generalizing s with
  | nil => exact absurd hi List.not_mem_nil
  | cons j l ih =>
    obtain ⟨hj, hl⟩ := List.nodup_cons.1 (List.map_cons ▸ hnodup)
    rw [List.foldl_cons]
    rcases List.mem_cons.1 hi with rfl | hi
    · rw [stringCfg_writeStringRecords_other p _ l _ hj, stringCfg_writeStringRecord_same]
    · exact ih _ hi hl

@[simp] theorem unlockString_store (s : State) (n : Nat) : (unlockString s n).1.store = s.store := by
  unfold unlockString
  simp only [updateString_store, apply_ite State.store, endString_store, onString_store, ite_self]
  exact foldl_keeps State.store _ (fun u k => by rw [onStrCond_store]; split <;> simp) _ _

/-- Unlocking strings one after another writes no settings, whatever it collects beside the state. -/
theorem unlockStrings_store (f : State × List Nat → Nat → State × List Nat) (hf : ∀ a n, (f a n).1 = (unlockString a.1 n).1)
    (l : List Nat) (a : State × List Nat) : (l.foldl f a).1.store = a.1.store :=
  List.foldlRecOn (motive := fun b => b.1.store = a.1.store) l f rfl fun b hb n _ => by rw [hf, unlockString_store, hb]

/-- A STRING.CONFIG that writes leaves the settings that its records leave: unlocking strings writes none. -/
theorem stringConfigOp_run_store (p : Packet) (s : State) (hread : p.bit 16 0 = false) :
    (stringConfigOp.run p s).s.store = ((List.range (strCount p)).foldl (writeStringRecord p) s).store := by
  simp only [stringConfigOp, hread, Bool.false_eq_true, if_false]
  exact unlockStrings_store _ (fun _ _ => rfl) _ _

/-- A STRING.CONFIG that passes its checks names each string in one record at most (Table 07.13). -/
theorem strIx_nodup (p : Packet) (s : State) (h : checkPacket stringConfigOp p s = none) :
    ((List.range (strCount p)).map (strIx p)).Nodup := by
  have hbad := bad_eq_false_of_checkPacket stringConfigOp p s h
  simp only [stringConfigOp, Bool.or_eq_false_iff, Bool.not_eq_false', decide_eq_true_eq] at hbad
  obtain ⟨⟨-, hnodup⟩, -⟩ := hbad
  exact hnodup

/-- Settings that a STRING.CONFIG would leave agree where those of each of the four strings fit (R181). -/
theorem stringConfigOp_agree_iff (p : Packet) (s u : State) :
    stringConfigOp.agree p s u = true ↔ ∀ n, n < 4 → (stringCfg u n).fits = true := by
  simp only [stringConfigOp, List.all_eq_true, List.mem_range]

/-- Settings that a STRING.CONFIG would leave disagree where one of its records does not fit. -/
theorem stringConfigOp_disagrees (p : Packet) (i : Nat) (s u : State) (hread : p.bit 16 0 = false) (hi : i < strCount p)
    (hnodup : ((List.range (strCount p)).map (strIx p)).Nodup) (h : (stringCfgOf p i).fits = false) :
    stringConfigOp.agree p u (stringConfigOp.run p s).s = false := by
  rw [← Bool.not_eq_true, stringConfigOp_agree_iff]
  intro hfits
  have hrecord : stringCfg (stringConfigOp.run p s).s (strIx p i) = stringCfgOf p i := by
    rw [stringCfg, stringConfigOp_run_store p s hread]
    exact stringCfg_writeStringRecords p i _ s (List.mem_range.2 hi) hnodup
  exact Bool.false_ne_true (h.symm.trans (hrecord ▸ hfits (strIx p i) (strIx_lt p i)))

/-- Step 6 of R79 refuses a STRING.CONFIG with a record above 52.0 V: it completes with S_CONFLICT, and only what its reply touches changes. -/
theorem execStringConfig_above_R181 (p : Packet) (i : Nat) (s : State) (hruns : KeeperRuns stringConfigOp p s) (hread : p.bit 16 0 = false)
    (hi : i < strCount p) (h : (stringCfgOf p i).fits = false) :
    ∃ t, execStringConfig p s = .next t ∧ Completed p .conflict s t ∧ t.beyondReply = s.beyondReply := by
  have hnodup := strIx_nodup p _ (checkPacket_of_keeperRuns stringConfigOp p s hruns)
  exact effect_keeperTake_disagrees stringConfigOp p s hruns (stringConfigOp_disagrees p i _ _ hread hi hnodup h)

/-- A STRING.CONFIG keeps every string within R181: either the settings that it leaves have passed step 6 of R79, or it leaves those that it found. -/
theorem execStringConfig_keeps_fits (p : Packet) (s t : State) (hruns : KeeperRuns stringConfigOp p s)
    (hexec : execStringConfig p s = .next t) (hfits : ∀ n, n < 4 → (stringCfg s n).fits = true) : ∀ n, n < 4 → (stringCfg t n).fits = true := by
  cases hagree : stringConfigOp.agree p (release s p) (stringConfigOp.run p (release s p)).s with
  | true =>
    have hstore : t.store = (stringConfigOp.run p (release s p)).s.store := by
      rw [← Host.Outcome.next.inj hexec]
      exact (congrArg State.store (keeperTake_agrees_beyondReply stringConfigOp p s hruns hagree rfl) :)
    simp only [stringCfg, hstore]
    exact (stringConfigOp_agree_iff p _ _).1 hagree
  | false =>
    obtain ⟨u, hu, -, hframe⟩ := effect_keeperTake_disagrees stringConfigOp p s hruns hagree
    have hstore : t.store = s.store := by
      rw [← Host.Outcome.next.inj (hu.symm.trans hexec)]
      exact (congrArg State.store hframe :)
    simpa only [stringCfg, hstore] using hfits

/-- Settles O46: a record above 52.0 V fails step 6 of R79, so the packet completes with S_CONFLICT from the state that it found; and what a
STRING.CONFIG leaves has passed that step or stood before. -/
theorem stringVoltageStaysWithinR181 : Obligations.StringVoltageStaysWithinR181 := by
  refine ⟨fun p i s hruns hread hi hsum => ?_, fun p s t hruns hexec hfits n hn => ?_⟩
  · obtain ⟨t, hexec, hdone, hframe⟩ := execStringConfig_above_R181 p i s hruns hread hi (stringCfgOf_fits_eq_false p i hsum)
    exact ⟨t, hexec, hdone, (congrArg State.store hframe :), (congrArg State.light hframe :), (congrArg State.load hframe :),
      (congrArg State.link hframe :)⟩
  · have hbefore : ∀ k, k < 4 → (stringCfg s k).fits = true := fun k hk => (stringCfg s k).fits_iff.2 (hfits k hk)
    exact (stringCfg t n).fits_iff.1 (execStringConfig_keeps_fits p s t hruns hexec hbefore n hn)

end Sys2Proof.Machine

namespace Sys2Proof.Machine

open Sys2Proof.Claims

/-! What taking a packet leaves alone beside its opcode's run. -/

/-- The state but for what taking a command packet may touch (Safety's `packetParts`). -/
def State.beyondPacket (s : State) : State := { s with plane := {}, mem := [], image := {}, watch := {} }

/-- What a reply leaves alone is left alone by the whole completion. -/
theorem beyondPacket_of_beyondReply {s t : State} (h : t.beyondReply = s.beyondReply) : t.beyondPacket = s.beyondPacket :=
  congrArg (fun u : State => { u with watch := {} }) h

@[simp] theorem onPlane_beyondPacket (s : State) (f : Plane → Plane) : (s.onPlane f).beyondPacket = s.beyondPacket := rfl

@[simp] theorem onRing_beyondPacket (s : State) (r : Nat) (f : Ring → Ring) : (s.onRing r f).beyondPacket = s.beyondPacket := rfl

@[simp] theorem bump_beyondPacket (s : State) (cls index n : Nat) (hall : Option Nat) :
    (bump s cls index n hall).beyondPacket = s.beyondPacket := rfl

@[simp] theorem postEvent_beyondPacket (s : State) (e : Ev) : (postEvent s e).beyondPacket = s.beyondPacket :=
  beyondPacket_of_beyondReply (postEvent_beyondReply s e)

@[simp] theorem completeNow_beyondPacket (s : State) (p : Packet) (st : Status) (r : Reply) :
    (completeNow s p st r).beyondPacket = s.beyondPacket := beyondPacket_of_beyondReply (completeNow_beyondReply s p st r)

@[simp] theorem capWrite_beyondPacket (s : State) (r : CapRecord) : (capWrite s r).beyondPacket = s.beyondPacket := by
  unfold capWrite; split <;> rfl

@[simp] theorem noteLate_beyondPacket (s : State) (p : Packet) (n : Nat) (b : Bool) : (noteLate s p n b).beyondPacket = s.beyondPacket := by
  simp [noteLate, apply_ite State.beyondPacket]

@[simp] theorem admitPacket_beyondPacket (p : Packet) (s : State) : (admitPacket p s).beyondPacket = s.beyondPacket := by
  unfold admitPacket interruptFlight takeIn; dsimp only; split <;> split <;> rfl

@[simp] theorem refuseLive_beyondPacket (s : State) (p : Packet) : (refuseLive s p).beyondPacket = s.beyondPacket :=
  beyondPacket_of_beyondReply (by simp [refuseLive])

@[simp] theorem joinFlight_beyondPacket (p : Packet) (s : State) : (joinFlight p s).beyondPacket = s.beyondPacket := rfl

@[simp] theorem keeperHold_beyondPacket (p : Packet) (s : State) : (keeperHold p s).beyondPacket = s.beyondPacket := by
  unfold keeperHold; split <;> rfl

@[simp] theorem keeperFinish_beyondPacket (p : Packet) (s : State) : (keeperFinish p s).beyondPacket = s.beyondPacket := by
  simp [keeperFinish]

@[simp] theorem release_beyondPacket (s : State) (p : Packet) : (release s p).beyondPacket = s.beyondPacket := rfl

@[simp] theorem finishRun_beyondPacket (r : Res) (p : Packet) (late : Bool) (n : Nat) :
    (finishRun r p late n).beyondPacket = r.s.beyondPacket := by
  unfold finishRun; dsimp only; split <;> split <;> simp

/-- A packet that is executed leaves what its opcode's run leaves, or nothing of it is applied. -/
theorem executeOp_state (o : Op) (p : Packet) (s : State) : (executeOp o p s).s = s ∨ (executeOp o p s).s = (o.run p s).s := by
  unfold executeOp carryOut
  split
  · exact .inl rfl
  · split
    · split
      · exact .inl rfl
      · exact .inr rfl
    · exact .inl rfl

/-- Taking a packet of the keeper changes, beside what every packet may touch, only what the run of its opcode changes. -/
theorem keeperTake_beyondPacket (o : Op) (p : Packet) (s : State) : ∃ u : State, u.beyondPacket = s.beyondPacket ∧
    ((keeperTake o p s).beyondPacket = u.beyondPacket ∨ (keeperTake o p s).beyondPacket = (o.run p u).s.beyondPacket) := by
  have hrun (v : State) (hv : v.beyondPacket = s.beyondPacket) : ∃ u : State, u.beyondPacket = s.beyondPacket ∧
      ((runKeeper o p v).beyondPacket = u.beyondPacket ∨ (runKeeper o p v).beyondPacket = (o.run p u).s.beyondPacket) := by
    unfold runKeeper
    split
    · exact ⟨v, hv, .inl (by simp)⟩
    · split
      · exact ⟨v, hv, .inl (by simp)⟩
      · split
        · exact ⟨v, hv, .inl (by simp)⟩
        · split
          · exact ⟨v, hv, .inl (by simp)⟩
          · refine ⟨release v p, hv, ?_⟩
            unfold keeperExecute
            rw [finishRun_beyondPacket]
            exact (executeOp_state o p (release v p)).imp (congrArg _) (congrArg _)
  unfold keeperTake
  split
  · exact ⟨s, rfl, .inl rfl⟩
  · split
    · exact hrun s rfl
    · split
      · exact hrun _ (admitPacket_beyondPacket p s)
      · exact ⟨s, rfl, .inl rfl⟩

/-- Where an opcode's run keeps the waiting commands, so does taking its packet. -/
theorem keeperTake_pending (o : Op) (p : Packet) (s : State) (h : ∀ u, (o.run p u).s.pending = u.pending) :
    (keeperTake o p s).pending = s.pending := by
  obtain ⟨u, hu, htake⟩ := keeperTake_beyondPacket o p s
  have hsame : u.pending = s.pending := (congrArg State.pending hu :)
  rcases htake with hu' | hu'
  · exact (congrArg State.pending hu' :).trans hsame
  · exact ((congrArg State.pending hu' :).trans (h u)).trans hsame

/-! IVGAL.ENUM, whose command goes on after its packet has been taken. -/

@[simp] theorem enumRequest_pending (s : State) (n : Nat) (p : Packet) : (enumRequest s n p).pending = s.pending := by
  unfold enumRequest enumNow
  split
  · rfl
  · split <;> rfl

theorem queueSetup_pending (s : State) (n : Nat) (which : Sat → Bool) : (queueSetup s n which).pending = s.pending := by
  unfold queueSetup
  refine foldl_keeps State.pending _ (fun u x => ?_) _ s
  rfl

theorem enumFinish_pending (p : Packet) (ids : Option (List SatIdent)) (s : State) : (enumFinish p ids s).s.pending = s.pending := by
  unfold enumFinish
  split
  · rfl
  · dsimp only
    split
    · split
      · rfl
      · exact queueSetup_pending ..
    · rfl

theorem ivgalEnumOp_run_pending (p : Packet) (s : State) : (ivgalEnumOp.run p s).s.pending = s.pending := by
  unfold ivgalEnumOp
  dsimp only
  split
  · split <;> rfl
  · split
    · exact enumFinish_pending ..
    · exact enumRequest_pending ..

theorem execIvgalEnum_eq (p : Packet) (s : State) : ∃ u, execIvgalEnum p s = effect s u := by
  have htake : (keeperTake ivgalEnumOp p s).pending = s.pending := keeperTake_pending _ p s (ivgalEnumOp_run_pending p)
  exact ⟨_, (congrArg (fun q => Host.Outcome.next { (_ : State) with pending := q }) htake :)⟩

/-! What every command answers: an effect, or at a supply command the fault of R1. -/

/-- The answer of a command that names the voltage `mv`, where it names one, and whose effect is `u`. -/
def answerAt (mv : Option Nat) (s u : State) : Answer :=
  match mv with
  | none => effect s u
  | some v => rated s v u

/-- Every command answers with an effect on everything but the queue; the supply commands do so within the ratings only. -/
theorem exec_eq_answerAt (c : Instr) (s : State) : ∃ u, exec c s = answerAt (suppliedMv c) s u := by
  cases c
  case ivgalEnum p => exact execIvgalEnum_eq p s
  all_goals exact ⟨_, rfl⟩

/-- A command that answers a next state has left the waiting commands as they are. -/
theorem exec_pending (c : Instr) (s t : State) (h : exec c s = .next t) : t.pending = s.pending := by
  obtain ⟨u, hu⟩ := exec_eq_answerAt c s
  rw [hu] at h
  unfold answerAt rated effect at h
  split at h
  · cases h; rfl
  · split at h
    · cases h
    · cases h; rfl

/-- A command within the ratings of the supplies answers a next state. -/
theorem exec_next_of_withinRatings (c : Instr) (s : State) (h : withinRatings c) : ∃ t, exec c s = .next t := by
  obtain ⟨u, hu⟩ := exec_eq_answerAt c s
  unfold withinRatings at h
  cases hv : suppliedMv c with
  | none => exact ⟨_, by rw [hu, hv]; rfl⟩
  | some v => exact ⟨_, by rw [hu, hv, answerAt, rated, if_neg (Nat.not_lt.2 (h v hv))]; rfl⟩

/-- Settles O1: `step` is `exec` of the front command by definition. -/
theorem stepTakesFrontCommand : Obligations.StepTakesFrontCommand := by
  intro c rest s
  refine ⟨rfl, fun h => ?_⟩
  rw [step, h]

/-- Settles O2: what a command answers is an effect on everything but the queue. -/
theorem commandsLeaveTheQueue : Obligations.CommandsLeaveTheQueue := by
  intro c rest s t hpending hstep
  rw [step, hpending] at hstep
  exact exec_pending c { s with pending := rest } t hstep

/-- Settles O3: the fault stands at the supply commands alone, and there above 58 V alone. -/
theorem onlyRatingsStopCommands : Obligations.OnlyRatingsStopCommands := by
  refine fun c s => ⟨exec_next_of_withinRatings c s, fun v hv habove => ?_⟩
  obtain ⟨u, hu⟩ := exec_eq_answerAt c s
  rw [hu, hv, answerAt, rated, if_pos habove]

/-- A run goes on from the state that its first step answers. -/
theorem run_succ_of_next (M : Host.Core) (k : Nat) (s u : M.State) (h : M.step s = .next u) : M.run (k + 1) s = M.run k u := by
  rw [Host.Core.run, h]

/-- A rated queue runs to its end, whatever its length. -/
theorem run_ratedQueue (q : List Instr) (s : State) (hq : s.pending = q) (h : ∀ c ∈ q, withinRatings c) :
    ∃ t, Sys2Proof.core.run q.length s = .next t ∧ t.pending = [] := by
  induction q generalizing s with
  | nil => exact ⟨s, rfl, hq⟩
  | cons c rest ih =>
    obtain ⟨u, hu⟩ := exec_next_of_withinRatings c { s with pending := rest } (h c List.mem_cons_self)
    have hstep : Sys2Proof.core.step s = .next u := by
      change step s = .next u
      rw [step, hq]
      exact hu
    obtain ⟨t, ht, hempty⟩ := ih u (exec_pending c _ u hu) fun d hd => h d (List.mem_cons_of_mem c hd)
    refine ⟨t, ?_, hempty⟩
    exact (run_succ_of_next Sys2Proof.core rest.length s u hstep).trans ht

/-- Settles O4, by induction on the queue: each command within the ratings answers a next state and leaves the rest of the queue. -/
theorem ratedQueuesRunToTheirEnd : Obligations.RatedQueuesRunToTheirEnd :=
  fun s h => run_ratedQueue s.pending s rfl h

/-! The frame of the event rows, and the reset state. -/

/-- A reset by RESET_N while a replay works on its view of a store that differs from the part's own: the view's settings go (R43). -/
def replayingAtReset : State := { seq := { powered := true }, saved := some ({ sys := { vbatlWarn := 0 } }, {}) }

/-- Refutes O9: RESET_N during a replay discards the replay's view of the store (R43), so that the settings of SYS.CONFIG change back to the part's own;
`untouchedByReset` takes them out of the footprint. -/
theorem not_frameOfEventRows : ¬ Obligations.FrameOfEventRows := by
  intro h
  have hsame : Part.storeSys.same replayingAtReset (assertLogic replayingAtReset { cause := 3 } false) :=
    h (.resetNLow 10000) replayingAtReset _ rfl rfl rfl .storeSys (by decide)
  have hwarn : (80 : Nat) = 0 := (congrArg SysCfg.vbatlWarn hsame).symm
  exact absurd hwarn (by decide)

/-- Settles O7: the memory of the reset state lists nothing. -/
theorem resetMemoryIsCanonical : Obligations.ResetMemoryIsCanonical := rfl

/-- Settles O5: each value stands in the reset state, for every hall, ring, channel and CAN controller there is. -/
theorem resetStateIsBare : Obligations.ResetStateIsBare := by
  unfold Obligations.ResetStateIsBare
  refine ⟨rfl, rfl, rfl, rfl, rfl, rfl, rfl, rfl, rfl, rfl, rfl, rfl, ?_, ?_, ?_, ?_⟩ <;> decide
end Sys2Proof.Machine

namespace Sys2Proof.Machine

open Sys2Proof.Claims

/-! What a command answers but for the queue of commands that wait. -/

/-- A state with the commands that wait. -/
def State.withPending (u : State) (q : List Instr) : State := { u with pending := q }

@[simp] theorem withPending_seq (u : State) (q : List Instr) : (u.withPending q).seq = u.seq := rfl

@[simp] theorem withPending_ret (u : State) (q : List Instr) : (u.withPending q).ret = u.ret := rfl

@[simp] theorem withPending_plane (u : State) (q : List Instr) : (u.withPending q).plane = u.plane := rfl

@[simp] theorem withPending_points (u : State) (q : List Instr) : (u.withPending q).points = u.points := rfl

@[simp] theorem withPending_rtc (u : State) (q : List Instr) : (u.withPending q).rtc = u.rtc := rfl

@[simp] theorem withPending_store (u : State) (q : List Instr) : (u.withPending q).store = u.store := rfl

@[simp] theorem withPending_link (u : State) (q : List Instr) : (u.withPending q).link = u.link := rfl

@[simp] theorem withPending_load (u : State) (q : List Instr) : (u.withPending q).load = u.load := rfl

@[simp] theorem withPending_motor (u : State) (q : List Instr) : (u.withPending q).motor = u.motor := rfl

@[simp] theorem withPending_light (u : State) (q : List Instr) : (u.withPending q).light = u.light := rfl

@[simp] theorem withPending_input (u : State) (q : List Instr) : (u.withPending q).input = u.input := rfl

@[simp] theorem withPending_sleep (u : State) (q : List Instr) : (u.withPending q).sleep = u.sleep := rfl

@[simp] theorem withPending_bus (u : State) (q : List Instr) : (u.withPending q).bus = u.bus := rfl

@[simp] theorem withPending_eth (u : State) (q : List Instr) : (u.withPending q).eth = u.eth := rfl

@[simp] theorem withPending_cipher (u : State) (q : List Instr) : (u.withPending q).cipher = u.cipher := rfl

@[simp] theorem withPending_image (u : State) (q : List Instr) : (u.withPending q).image = u.image := rfl

@[simp] theorem withPending_access (u : State) (q : List Instr) : (u.withPending q).access = u.access := rfl

@[simp] theorem withPending_watch (u : State) (q : List Instr) : (u.withPending q).watch = u.watch := rfl

@[simp] theorem withPending_pins (u : State) (q : List Instr) : (u.withPending q).pins = u.pins := rfl

@[simp] theorem withPending_mem (u : State) (q : List Instr) : (u.withPending q).mem = u.mem := rfl

@[simp] theorem withPending_now (u : State) (q : List Instr) : (u.withPending q).now = u.now := rfl

@[simp] theorem withPending_free (u : State) (q : List Instr) : (u.withPending q).free = u.free := rfl

@[simp] theorem withPending_drawn (u : State) (q : List Instr) : (u.withPending q).drawn = u.drawn := rfl

@[simp] theorem withPending_saved (u : State) (q : List Instr) : (u.withPending q).saved = u.saved := rfl

@[simp] theorem chanOf_withPending (u : State) (q : List Instr) (k : Nat) : chanOf (u.withPending q) k = chanOf u k := rfl

@[simp] theorem bankAt_withPending (u : State) (q : List Instr) (k : Nat) : bankAt (u.withPending q) k = bankAt u k := rfl

@[simp] theorem hbOf_withPending (u : State) (q : List Instr) (k : Nat) : hbOf (u.withPending q) k = hbOf u k := rfl

@[simp] theorem valveOf_withPending (u : State) (q : List Instr) (k : Nat) : valveOf (u.withPending q) k = valveOf u k := rfl

@[simp] theorem feedOf_withPending (u : State) (q : List Instr) (k : Nat) : feedOf (u.withPending q) k = feedOf u k := rfl

@[simp] theorem stringOf_withPending (u : State) (q : List Instr) (k : Nat) : stringOf (u.withPending q) k = stringOf u k := rfl

@[simp] theorem engineOf_withPending (u : State) (q : List Instr) (k : Nat) : engineOf (u.withPending q) k = engineOf u k := rfl

@[simp] theorem canOf_withPending (u : State) (q : List Instr) (k : Nat) : canOf (u.withPending q) k = canOf u k := rfl

@[simp] theorem linAt_withPending (u : State) (q : List Instr) (k : Nat) : linAt (u.withPending q) k = linAt u k := rfl

@[simp] theorem netOf_withPending (u : State) (q : List Instr) (k : Nat) : netOf (u.withPending q) k = netOf u k := rfl

@[simp] theorem portOf_withPending (u : State) (q : List Instr) (k : Nat) : portOf (u.withPending q) k = portOf u k := rfl

@[simp] theorem ctxOf_withPending (u : State) (q : List Instr) (k : Nat) : ctxOf (u.withPending q) k = ctxOf u k := rfl

@[simp] theorem linkOf_withPending (u : State) (q : List Instr) (k : Nat) : linkOf (u.withPending q) k = linkOf u k := rfl

@[simp] theorem outCond_withPending (u : State) (q : List Instr) (k : Nat) : outCond (u.withPending q) k = outCond u k := rfl

@[simp] theorem pget_withPending (u : State) (q : List Instr) (k : Nat) : pget (u.withPending q) k = pget u k := rfl

@[simp] theorem memRead_withPending (u : State) (q : List Instr) (k : Nat) : memRead (u.withPending q) k = memRead u k := rfl

@[simp] theorem ring_withPending (u : State) (q : List Instr) (k : Nat) : (u.withPending q).ring k = u.ring k := rfl

@[simp] theorem memReadN_withPending (u : State) (q : List Instr) (a n : Nat) : memReadN (u.withPending q) a n = memReadN u a n := rfl

@[simp] theorem posted_withPending (s u : State) (q : List Instr) (e : Ev) : Posted s (u.withPending q) e ↔ Posted s u e := Iff.rfl

@[simp] theorem observed_withPending (s u : State) (q : List Instr) (h idx : Nat) (w : List (Nat × PVal)) (es : List Ev) :
    Observed s (u.withPending q) h idx w es ↔ Observed s u h idx w es := Iff.rfl

@[simp] theorem completed_withPending (p : Packet) (st : Status) (s u : State) (q : List Instr) :
    Completed p st s (u.withPending q) ↔ Completed p st s u := Iff.rfl

@[simp] theorem replied_withPending (p : Packet) (s u : State) (q : List Instr) (r : Reply) :
    Replied p s (u.withPending q) r ↔ Replied p s u r := Iff.rfl

@[simp] theorem trippedOff_withPending (s u : State) (q : List Instr) (ch cause : Nat) :
    TrippedOff s (u.withPending q) ch cause ↔ TrippedOff s u ch cause := Iff.rfl

/-- What a hall observes changes the landings only. -/
theorem observe_only (s : State) (h idx : Nat) (w : List (Nat × PVal)) (es : List Ev) (caps : List CapRecord) :
    observe s h idx w es caps = { s with plane := { s.plane with landings := (observe s h idx w es caps).plane.landings } } := by
  unfold observe
  split
  · exact sense_only ..
  · rfl

@[simp] theorem observe_load (s : State) (h idx : Nat) (writes : List (Nat × PVal)) (events : List Ev) (caps : List CapRecord) :
    (observe s h idx writes events caps).load = s.load := by rw [observe_only]

@[simp] theorem observe_now (s : State) (h idx : Nat) (writes : List (Nat × PVal)) (events : List Ev) (caps : List CapRecord) :
    (observe s h idx writes events caps).now = s.now := by rw [observe_only]

@[simp] theorem observePoint_load (s : State) (h idx pt : Nat) (v : PVal) (events : List Ev) :
    (observePoint s h idx pt v events).load = s.load := by simp [observePoint]

@[simp] theorem observePoint_now (s : State) (h idx pt : Nat) (v : PVal) (events : List Ev) :
    (observePoint s h idx pt v events).now = s.now := by simp [observePoint]

@[simp] theorem observePoint_store (s : State) (h idx pt : Nat) (v : PVal) (events : List Ev) :
    (observePoint s h idx pt v events).store = s.store := by simp [observePoint]

@[simp] theorem bump_load (s : State) (cls index n : Nat) (hall : Option Nat) : (bump s cls index n hall).load = s.load := rfl

@[simp] theorem bump_now (s : State) (cls index n : Nat) (hall : Option Nat) : (bump s cls index n hall).now = s.now := rfl

@[simp] theorem loadEvent_load (s : State) (kind ch value : Nat) : (loadEvent s kind ch value).load = s.load := by simp [loadEvent]

@[simp] theorem loadEvent_now (s : State) (kind ch value : Nat) : (loadEvent s kind ch value).now = s.now := by simp [loadEvent]

@[simp] theorem onChan_now (s : State) (ch : Nat) (f : Chan → Chan) : (s.onChan ch f).now = s.now := rfl

@[simp] theorem onCond_now (s : State) (ch : Nat) (f : Cond → Cond) : (s.onCond ch f).now = s.now := rfl

@[simp] theorem onBank_now (s : State) (b : Nat) (f : Bank → Bank) : (s.onBank b f).now = s.now := rfl

@[simp] theorem bumpSnapshot_load (s : State) : (bumpSnapshot s).load = s.load := by
  unfold bumpSnapshot
  split <;> rfl

@[simp] theorem bumpSnapshot_now (s : State) : (bumpSnapshot s).now = s.now := by
  unfold bumpSnapshot
  split <;> rfl

@[simp] theorem noteFreeze_now (s : State) (b : Nat) : (noteFreeze s b).now = s.now := rfl

@[simp] theorem leaveQueue_now (s : State) (ch : Nat) : (leaveQueue s ch).now = s.now := rfl

@[simp] theorem updateChan_now (s : State) (ch : Nat) : (updateChan s ch).now = s.now := by
  unfold updateChan
  dsimp only
  split_ifs <;> simp

@[simp] theorem reportCause_now (s : State) (ch cause detail : Nat) : (reportCause s ch cause detail).now = s.now := by
  unfold reportCause
  dsimp only
  split <;> simp

@[simp] theorem endCause_now (s : State) (ch cause : Nat) : (endCause s ch cause).now = s.now := by
  unfold endCause
  split <;> simp

@[simp] theorem lockChan_now (s : State) (ch cause detail : Nat) : (lockChan s ch cause detail).now = s.now := by simp [lockChan]

@[simp] theorem stopRetry_now (s : State) (ch : Nat) : (stopRetry s ch).now = s.now := by
  unfold stopRetry
  dsimp only
  split <;> simp

@[simp] theorem holdChan_now (s : State) (ch cause detail : Nat) : (holdChan s ch cause detail).now = s.now := by simp [holdChan]

@[simp] theorem endHoldChan_now (s : State) (ch cause : Nat) : (endHoldChan s ch cause).now = s.now := by
  unfold endHoldChan
  split <;> simp

@[simp] theorem resumeChan_now (s : State) (ch cause : Nat) : (resumeChan s ch cause).now = s.now := by
  unfold resumeChan
  dsimp only
  split_ifs <;> simp

@[simp] theorem tripChan_now (s : State) (ch cause detail : Nat) : (tripChan s ch cause detail).now = s.now := by
  unfold tripChan
  dsimp only
  split <;> simp

@[simp] theorem tripChan_store (s : State) (ch cause detail : Nat) : (tripChan s ch cause detail).store = s.store := by
  unfold tripChan
  dsimp only
  split <;> simp

@[simp] theorem bankClamp_now (s : State) (b uJ : Nat) : (bankClamp s b uJ).now = s.now := by
  unfold bankClamp
  dsimp only
  split <;> simp

@[simp] theorem bankClamp_store (s : State) (b uJ : Nat) : (bankClamp s b uJ).store = s.store := by
  unfold bankClamp
  dsimp only
  split <;> simp

@[simp] theorem countOpen_now (s : State) (ch method : Nat) (isOpen : Bool) : (countOpen s ch method isOpen).now = s.now := by
  unfold countOpen
  dsimp only
  split_ifs <;> simp

@[simp] theorem countOpen_store (s : State) (ch method : Nat) (isOpen : Bool) : (countOpen s ch method isOpen).store = s.store := by
  unfold countOpen
  dsimp only
  split_ifs <;> simp

/-! Bits. -/

/-- Setting or clearing a bit changes that bit alone. -/
theorem testBit_setBit (n k j : Nat) (b : Bool) : (setBit n k b).testBit j = if j = k then b else n.testBit j := by
  have hbit : (1 <<< k).testBit j = decide (k = j) := by rw [Nat.one_shiftLeft, Nat.testBit_two_pow]
  unfold setBit
  by_cases hj : j = k
  · subst hj
    cases b <;> simp [hbit]
  · have hkj : ¬ k = j := fun h => hj h.symm
    cases b <;> simp [hbit, hj, hkj]

@[simp] theorem testBit_setBit_same (n k : Nat) (b : Bool) : (setBit n k b).testBit k = b := by simp [testBit_setBit]

/-- Clearing a bit that is clear already changes nothing. -/
theorem setBit_false_of_clear (n k : Nat) (h : n.testBit k = false) : setBit n k false = n := by
  refine Nat.eq_of_testBit_eq fun j => ?_
  rw [testBit_setBit]
  split
  · next hj => rw [hj, h]
  · rfl

/-- A set of bits with one set is not empty. -/
theorem setBit_true_ne_zero (n k : Nat) : setBit n k true ≠ 0 := fun h => by
  have hbit := testBit_setBit_same n k true
  rw [h, Nat.zero_testBit] at hbit
  exact Bool.false_ne_true hbit

/-! Conditions. -/

/-- A condition with a cause reported and its detail kept (R124). -/
def Cond.reported (c : Cond) (cause detail : Nat) : Cond :=
  { c.report cause with
    thermDetail := if cause = 6 then detail else c.thermDetail
    clampDetail := if cause = 4 then detail else c.clampDetail }

/-- A cause that is not active ends without a change. -/
theorem Cond.clear_of_inactive (c : Cond) (cause : Nat) (h : c.active.testBit cause = false) : c.clear cause = c := by
  rw [Cond.clear, setBit_false_of_clear _ _ h]

/-- A held condition is not free. -/
theorem Cond.free_hold (c : Cond) (cause : Nat) : (c.hold cause).free = false := by
  simp [Cond.free, Cond.hold, setBit_true_ne_zero]

/-- A locked condition is not free. -/
theorem Cond.free_lock (c : Cond) (cause : Nat) : (c.lock cause).free = false := by
  simp [Cond.free, Cond.lock, setBit_true_ne_zero]

/-! The channels and banks in the state. -/

/-- The channels stand in the load part of the state. -/
theorem chanOf_of_load {s t : State} (h : t.load = s.load) (k : Nat) : chanOf t k = chanOf s k := by simp only [chanOf, h]

/-- The banks stand in the load part of the state. -/
theorem bankAt_of_load {s t : State} (h : t.load = s.load) (b : Nat) : bankAt t b = bankAt s b := by simp only [bankAt, h]

@[simp] theorem chanOf_observe (s : State) (h idx : Nat) (w : List (Nat × PVal)) (es : List Ev) (caps : List CapRecord) (k : Nat) :
    chanOf (observe s h idx w es caps) k = chanOf s k := chanOf_of_load (observe_load ..) k

@[simp] theorem bankAt_observe (s : State) (h idx : Nat) (w : List (Nat × PVal)) (es : List Ev) (caps : List CapRecord) (b : Nat) :
    bankAt (observe s h idx w es caps) b = bankAt s b := bankAt_of_load (observe_load ..) b

@[simp] theorem chanOf_observePoint (s : State) (h idx pt : Nat) (v : PVal) (es : List Ev) (k : Nat) :
    chanOf (observePoint s h idx pt v es) k = chanOf s k := chanOf_of_load (observePoint_load ..) k

@[simp] theorem bankAt_observePoint (s : State) (h idx pt : Nat) (v : PVal) (es : List Ev) (b : Nat) :
    bankAt (observePoint s h idx pt v es) b = bankAt s b := bankAt_of_load (observePoint_load ..) b

@[simp] theorem chanOf_loadEvent (s : State) (kind ch value k : Nat) : chanOf (loadEvent s kind ch value) k = chanOf s k :=
  chanOf_of_load (loadEvent_load ..) k

@[simp] theorem bankAt_loadEvent (s : State) (kind ch value b : Nat) : bankAt (loadEvent s kind ch value) b = bankAt s b :=
  bankAt_of_load (loadEvent_load ..) b

@[simp] theorem chanOf_bump (s : State) (cls index n : Nat) (hall : Option Nat) (k : Nat) : chanOf (bump s cls index n hall) k = chanOf s k := rfl

@[simp] theorem bankAt_bump (s : State) (cls index n : Nat) (hall : Option Nat) (b : Nat) : bankAt (bump s cls index n hall) b = bankAt s b := rfl

@[simp] theorem chanOf_bumpSnapshot (s : State) (k : Nat) : chanOf (bumpSnapshot s) k = chanOf s k := chanOf_of_load (bumpSnapshot_load s) k

@[simp] theorem bankAt_bumpSnapshot (s : State) (b : Nat) : bankAt (bumpSnapshot s) b = bankAt s b := bankAt_of_load (bumpSnapshot_load s) b

@[simp] theorem chanOf_onBank (s : State) (b : Nat) (f : Bank → Bank) (k : Nat) : chanOf (s.onBank b f) k = chanOf s k := rfl

@[simp] theorem bankAt_onChan (s : State) (ch : Nat) (f : Chan → Chan) (b : Nat) : bankAt (s.onChan ch f) b = bankAt s b := rfl

@[simp] theorem bankAt_onCond (s : State) (ch : Nat) (f : Cond → Cond) (b : Nat) : bankAt (s.onCond ch f) b = bankAt s b := rfl

@[simp] theorem chanOf_noteFreeze (s : State) (b k : Nat) : chanOf (noteFreeze s b) k = chanOf s k := rfl

@[simp] theorem chanOf_leaveQueue (s : State) (ch k : Nat) : chanOf (leaveQueue s ch) k = chanOf s k := rfl

@[simp] theorem onCond_same (s : State) (ch : Nat) (f : Cond → Cond) (h : ch < 56) :
    chanOf (s.onCond ch f) ch = { chanOf s ch with cond := f (chanOf s ch).cond } := onChan_same s ch _ h

theorem onCond_other (s : State) (ch k : Nat) (f : Cond → Cond) (h : ch ≠ k) : chanOf (s.onCond ch f) k = chanOf s k := onChan_other s ch k _ h

/-! A channel's drive follows what it wants (R122, R125, R127). -/

/-- A channel but for its drive: its on-phases, its inrush window, and what they count. -/
def Chan.beyondDrive (c : Chan) : Chan :=
  { c with driving := false, duty := 0, forced := false, limiting := false, limitTicks := 0, window := none, debt := 0, shorten := 0
           inrushExt := 0, onUntil := 0 }

/-- A channel that wants to drive turns on, and one that does not turns off. -/
@[simp] theorem driving_updateChan (s : State) (ch : Nat) (h : ch < 56) : (chanOf (updateChan s ch) ch).driving = (chanOf s ch).wants := by
  unfold updateChan
  cases hw : (chanOf s ch).wants <;> cases hd : (chanOf s ch).driving <;> simp [h, hw, hd]

/-- Turning on and off changes the drive of the channel, and no other channel. -/
theorem beyondDrive_updateChan (s : State) (ch k : Nat) : (chanOf (updateChan s ch) k).beyondDrive = (chanOf s k).beyondDrive := by
  unfold updateChan
  dsimp only
  split_ifs
  · exact vget_vmod_proj s.load.ch ch k _ Chan.beyondDrive fun _ => rfl
  · exact vget_vmod_proj s.load.ch ch k _ Chan.beyondDrive fun _ => rfl
  · rfl

theorem chanOf_updateChan_other (s : State) (ch k : Nat) (h : ch ≠ k) : chanOf (updateChan s ch) k = chanOf s k := by
  unfold updateChan
  dsimp only
  split_ifs
  · exact onChan_other s ch k _ h
  · exact onChan_other s ch k _ h
  · rfl

/-- A channel that is off and does not want to drive, or drives and wants to, is left as it is. -/
theorem updateChan_of_settled (s : State) (ch : Nat) (h : (chanOf s ch).wants = (chanOf s ch).driving) : updateChan s ch = s := by
  unfold updateChan
  cases hd : (chanOf s ch).driving <;> simp [h, hd]

/-- What a bank holds beside the count of its dips. -/
def Bank.beyondDips (b : Bank) : Bank := { b with dipCounted := false, dips := 0 }

theorem beyondDips_noteFreeze (s : State) (b k : Nat) : (bankAt (noteFreeze s b) k).beyondDips = (bankAt s k).beyondDips :=
  vget_vmod_proj s.load.bank b k _ Bank.beyondDips fun x => by split <;> rfl

theorem beyondDips_updateChan (s : State) (ch b : Nat) : (bankAt (updateChan s ch) b).beyondDips = (bankAt s b).beyondDips := by
  unfold updateChan
  dsimp only
  split_ifs
  · exact beyondDips_noteFreeze ..
  · rfl
  · rfl

/-! What a channel goes by beside its drive. -/

@[simp] theorem cond_updateChan (s : State) (ch k : Nat) : (chanOf (updateChan s ch) k).cond = (chanOf s k).cond :=
  (congrArg Chan.cond (beyondDrive_updateChan s ch k) :)

@[simp] theorem cmd_updateChan (s : State) (ch k : Nat) : (chanOf (updateChan s ch) k).cmd = (chanOf s k).cmd :=
  (congrArg Chan.cmd (beyondDrive_updateChan s ch k) :)

@[simp] theorem retryAt_updateChan (s : State) (ch k : Nat) : (chanOf (updateChan s ch) k).retryAt = (chanOf s k).retryAt :=
  (congrArg Chan.retryAt (beyondDrive_updateChan s ch k) :)

@[simp] theorem retriesDone_updateChan (s : State) (ch k : Nat) : (chanOf (updateChan s ch) k).retriesDone = (chanOf s k).retriesDone :=
  (congrArg Chan.retriesDone (beyondDrive_updateChan s ch k) :)

@[simp] theorem retryCause_updateChan (s : State) (ch k : Nat) : (chanOf (updateChan s ch) k).retryCause = (chanOf s k).retryCause :=
  (congrArg Chan.retryCause (beyondDrive_updateChan s ch k) :)

@[simp] theorem clamp_updateChan (s : State) (ch k : Nat) : (chanOf (updateChan s ch) k).clamp = (chanOf s k).clamp :=
  (congrArg Chan.clamp (beyondDrive_updateChan s ch k) :)

@[simp] theorem wireX_updateChan (s : State) (ch k : Nat) : (chanOf (updateChan s ch) k).wireX = (chanOf s k).wireX :=
  (congrArg Chan.wireX (beyondDrive_updateChan s ch k) :)

@[simp] theorem iLoad_updateChan (s : State) (ch k : Nat) : (chanOf (updateChan s ch) k).iLoad = (chanOf s k).iLoad :=
  (congrArg Chan.iLoad (beyondDrive_updateChan s ch k) :)

@[simp] theorem restarts_updateChan (s : State) (ch k : Nat) : (chanOf (updateChan s ch) k).restarts = (chanOf s k).restarts :=
  (congrArg Chan.restarts (beyondDrive_updateChan s ch k) :)

@[simp] theorem lastShutdown_updateChan (s : State) (ch k : Nat) : (chanOf (updateChan s ch) k).lastShutdown = (chanOf s k).lastShutdown :=
  (congrArg Chan.lastShutdown (beyondDrive_updateChan s ch k) :)

@[simp] theorem ol_updateChan (s : State) (ch k : Nat) : (chanOf (updateChan s ch) k).ol = (chanOf s k).ol :=
  (congrArg Chan.ol (beyondDrive_updateChan s ch k) :)

@[simp] theorem bank_clamp_updateChan (s : State) (ch b : Nat) : (bankAt (updateChan s ch) b).clamp = (bankAt s b).clamp :=
  (congrArg Bank.clamp (beyondDips_updateChan s ch b) :)

@[simp] theorem bank_resumeQ_updateChan (s : State) (ch b : Nat) : (bankAt (updateChan s ch) b).resumeQ = (bankAt s b).resumeQ :=
  (congrArg Bank.resumeQ (beyondDips_updateChan s ch b) :)

@[simp] theorem bank_resumeAt_updateChan (s : State) (ch b : Nat) : (bankAt (updateChan s ch) b).resumeAt = (bankAt s b).resumeAt :=
  (congrArg Bank.resumeAt (beyondDips_updateChan s ch b) :)

@[simp] theorem bank_shed_updateChan (s : State) (ch b : Nat) : (bankAt (updateChan s ch) b).shed = (bankAt s b).shed :=
  (congrArg Bank.shed (beyondDips_updateChan s ch b) :)

@[simp] theorem bank_drop_updateChan (s : State) (ch b : Nat) : (bankAt (updateChan s ch) b).drop = (bankAt s b).drop :=
  (congrArg Bank.drop (beyondDips_updateChan s ch b) :)

@[simp] theorem bank_overV_updateChan (s : State) (ch b : Nat) : (bankAt (updateChan s ch) b).overV = (bankAt s b).overV :=
  (congrArg Bank.overV (beyondDips_updateChan s ch b) :)

@[simp] theorem bank_sag_updateChan (s : State) (ch b : Nat) : (bankAt (updateChan s ch) b).sag = (bankAt s b).sag :=
  (congrArg Bank.sag (beyondDips_updateChan s ch b) :)

/-! Causes, locks and holds of a channel. -/

@[simp] theorem chanOf_reportCause (s : State) (ch cause detail : Nat) (h : ch < 56) :
    chanOf (reportCause s ch cause detail) ch = { chanOf s ch with cond := (chanOf s ch).cond.reported cause detail } := by
  unfold reportCause
  dsimp only
  split
  · simp [h, Cond.reported]
  · simp [h, Cond.reported]

theorem chanOf_reportCause_other (s : State) (ch cause detail k : Nat) (h : ch ≠ k) : chanOf (reportCause s ch cause detail) k = chanOf s k := by
  unfold reportCause
  dsimp only
  split <;> simp [onCond_other _ _ _ _ h]

@[simp] theorem bankAt_reportCause (s : State) (ch cause detail b : Nat) : bankAt (reportCause s ch cause detail) b = bankAt s b := by
  unfold reportCause
  dsimp only
  split <;> simp

@[simp] theorem chanOf_endCause (s : State) (ch cause : Nat) (h : ch < 56) :
    chanOf (endCause s ch cause) ch = { chanOf s ch with cond := (chanOf s ch).cond.clear cause } := by
  unfold endCause
  split
  · simp [h]
  · next hoff => rw [Cond.clear_of_inactive _ _ (Bool.eq_false_iff.2 hoff)]

theorem chanOf_endCause_other (s : State) (ch cause k : Nat) (h : ch ≠ k) : chanOf (endCause s ch cause) k = chanOf s k := by
  unfold endCause
  split <;> simp [onCond_other _ _ _ _ h]

@[simp] theorem bankAt_endCause (s : State) (ch cause b : Nat) : bankAt (endCause s ch cause) b = bankAt s b := by
  unfold endCause
  split <;> simp

/-- A locked channel: off, without a retry pause, with its cause reported and locked. -/
theorem chanOf_lockChan (s : State) (ch cause detail : Nat) (h : ch < 56) :
    (chanOf (lockChan s ch cause detail) ch).driving = false ∧
    (chanOf (lockChan s ch cause detail) ch).beyondDrive =
      { (chanOf s ch).beyondDrive with retryAt := none, cond := ((chanOf s ch).cond.reported cause detail).lock cause } := by
  unfold lockChan
  dsimp only
  constructor
  · simp [h, Chan.wants, Cond.free_lock]
  · rw [chanOf_bumpSnapshot, beyondDrive_updateChan]
    simp [h, Chan.beyondDrive]

theorem chanOf_lockChan_other (s : State) (ch cause detail k : Nat) (h : ch ≠ k) : chanOf (lockChan s ch cause detail) k = chanOf s k := by
  simp [lockChan, chanOf_updateChan_other _ _ _ h, onChan_other _ _ _ _ h, chanOf_reportCause_other _ _ _ _ _ h]

theorem beyondDips_lockChan (s : State) (ch cause detail b : Nat) : (bankAt (lockChan s ch cause detail) b).beyondDips = (bankAt s b).beyondDips := by
  simp [lockChan, beyondDips_updateChan]

/-- A channel that stops retrying is locked, and any other stays. -/
theorem beyondDips_stopRetry (s : State) (ch b : Nat) : (bankAt (stopRetry s ch) b).beyondDips = (bankAt s b).beyondDips := by
  unfold stopRetry
  dsimp only
  split
  · exact beyondDips_lockChan ..
  · rfl

theorem chanOf_stopRetry_other (s : State) (ch k : Nat) (h : ch ≠ k) : chanOf (stopRetry s ch) k = chanOf s k := by
  unfold stopRetry
  dsimp only
  split
  · exact chanOf_lockChan_other _ _ _ _ _ h
  · rfl

/-- A held channel is off, and its cause holds it. -/
theorem chanOf_holdChan (s : State) (ch cause detail : Nat) (h : ch < 56) :
    (chanOf (holdChan s ch cause detail) ch).driving = false ∧ (chanOf (holdChan s ch cause detail) ch).cond.holds.testBit cause = true := by
  unfold holdChan
  dsimp only
  constructor
  · simp [h, Chan.wants, Cond.free_hold]
  · simp [h, Cond.hold]

theorem chanOf_holdChan_other (s : State) (ch cause detail k : Nat) (h : ch ≠ k) : chanOf (holdChan s ch cause detail) k = chanOf s k := by
  simp [holdChan, chanOf_updateChan_other _ _ _ h, onCond_other _ _ _ _ h, chanOf_reportCause_other _ _ _ _ _ h, chanOf_stopRetry_other _ _ _ h]

theorem beyondDips_holdChan (s : State) (ch cause detail b : Nat) : (bankAt (holdChan s ch cause detail) b).beyondDips = (bankAt s b).beyondDips := by
  simp [holdChan, beyondDips_updateChan, beyondDips_stopRetry]

/-- A fault that retries turns the channel off: for the retry pause while retries are left, else for good (R130). -/
theorem tripChan_trippedOff (s : State) (ch cause detail : Nat) (h : ch < 56) : TrippedOff s (tripChan s ch cause detail) ch cause := by
  unfold TrippedOff tripChan
  dsimp only
  by_cases hleft : (chanOf s ch).retriesDone < (chanCfg s ch).retries
  · simp [h, hleft, Chan.wants, Cond.reported, Cond.report, Nat.not_le.2 hleft]
  · obtain ⟨hoff, hrest⟩ := chanOf_lockChan s ch cause detail h
    have hcond : (chanOf (lockChan s ch cause detail) ch).cond = ((chanOf s ch).cond.reported cause detail).lock cause :=
      (congrArg Chan.cond hrest :)
    have hretry : (chanOf (lockChan s ch cause detail) ch).retryAt = none := (congrArg Chan.retryAt hrest :)
    simp [hleft, hoff, hcond, hretry, Cond.lock, Cond.report]

/-! What causes, holds and locks leave of a channel: its command, its clamp and wire models, and its counts. -/

/-- A channel but for its drive, its condition and its retry pause. -/
def Chan.beyondCond (c : Chan) : Chan := { c.beyondDrive with cond := {}, retryAt := none }

theorem beyondCond_onCond (s : State) (ch k : Nat) (f : Cond → Cond) : (chanOf (s.onCond ch f) k).beyondCond = (chanOf s k).beyondCond :=
  vget_vmod_proj s.load.ch ch k _ Chan.beyondCond fun _ => rfl

theorem beyondCond_updateChan (s : State) (ch k : Nat) : (chanOf (updateChan s ch) k).beyondCond = (chanOf s k).beyondCond :=
  congrArg (fun c : Chan => { c with cond := {}, retryAt := none }) (beyondDrive_updateChan s ch k)

theorem beyondCond_reportCause (s : State) (ch cause detail k : Nat) :
    (chanOf (reportCause s ch cause detail) k).beyondCond = (chanOf s k).beyondCond := by
  unfold reportCause
  dsimp only
  split <;> simp [beyondCond_onCond]

theorem beyondCond_endCause (s : State) (ch cause k : Nat) : (chanOf (endCause s ch cause) k).beyondCond = (chanOf s k).beyondCond := by
  unfold endCause
  split <;> simp [beyondCond_onCond]

theorem beyondCond_lockChan (s : State) (ch cause detail k : Nat) :
    (chanOf (lockChan s ch cause detail) k).beyondCond = (chanOf s k).beyondCond := by
  unfold lockChan
  dsimp only
  rw [chanOf_bumpSnapshot, beyondCond_updateChan, ← beyondCond_reportCause s ch cause detail k]
  exact vget_vmod_proj _ ch k _ Chan.beyondCond fun _ => rfl

theorem beyondCond_stopRetry (s : State) (ch k : Nat) : (chanOf (stopRetry s ch) k).beyondCond = (chanOf s k).beyondCond := by
  unfold stopRetry
  dsimp only
  split
  · exact beyondCond_lockChan ..
  · rfl

theorem beyondCond_holdChan (s : State) (ch cause detail k : Nat) :
    (chanOf (holdChan s ch cause detail) k).beyondCond = (chanOf s k).beyondCond := by
  unfold holdChan
  dsimp only
  rw [chanOf_bumpSnapshot, beyondCond_updateChan, beyondCond_onCond, beyondCond_reportCause, beyondCond_stopRetry]

/-- Where no other thing keeps a channel off, a rule that returns it lets it drive (R56). -/
theorem driving_resumeChan (s : State) (ch cause : Nat) (h : ch < 56) (hfree : (chanOf s ch).cond.free = true)
    (hcmd : d12 (chanOf s ch).cmd ≠ 0) (hretry : (chanOf s ch).retryAt = none) : (chanOf (resumeChan s ch cause) ch).driving = true := by
  have hcond : ({ (chanOf s ch).cond with waiting := false } : Cond).free = true := hfree
  simp only [resumeChan, hfree, if_true]
  rw [driving_updateChan _ _ h]
  split <;> simp [h, Chan.wants, hcmd, hretry, hcond]

/-- A rule that returns a channel changes none of its holds and locks. -/
theorem cond_resumeChan (s : State) (ch cause k : Nat) :
    (chanOf (resumeChan s ch cause) k).cond.holds = (chanOf s k).cond.holds ∧ (chanOf (resumeChan s ch cause) k).cond.locks = (chanOf s k).cond.locks := by
  have honly (u : State) : (chanOf (u.onCond ch fun c => { c with waiting := false }) k).cond.holds = (chanOf u k).cond.holds ∧
      (chanOf (u.onCond ch fun c => { c with waiting := false }) k).cond.locks = (chanOf u k).cond.locks :=
    ⟨vget_vmod_proj u.load.ch ch k _ (fun c => c.cond.holds) fun _ => rfl, vget_vmod_proj u.load.ch ch k _ (fun c => c.cond.locks) fun _ => rfl⟩
  unfold resumeChan
  dsimp only
  split
  · rw [cond_updateChan]
    split
    · rw [chanOf_loadEvent]
      exact honly s
    · exact honly s
  · exact ⟨rfl, rfl⟩

theorem beyondCond_resumeChan (s : State) (ch cause k : Nat) : (chanOf (resumeChan s ch cause) k).beyondCond = (chanOf s k).beyondCond := by
  unfold resumeChan
  dsimp only
  split
  · rw [beyondCond_updateChan]
    split <;> simp [beyondCond_onCond]
  · rfl

/-- The end of a hold leaves the channel waiting until it is returned or commanded, unless it is commanded off and free (R56, R125). -/
theorem chanOf_endHoldChan (s : State) (ch cause : Nat) (h : ch < 56) (hheld : (chanOf s ch).cond.holds.testBit cause = true) :
    chanOf (endHoldChan s ch cause) ch = { chanOf s ch with
      cond := { ((chanOf s ch).cond.clear cause).endHold cause with
        waiting := (chanOf s ch).cond.waiting && (d12 (chanOf s ch).cmd != 0 || !(((chanOf s ch).cond.clear cause).endHold cause).free) } } := by
  simp only [endHoldChan, hheld, if_true]
  rw [onChan_same _ _ _ h, chanOf_endCause _ _ _ h]
  rfl

theorem chanOf_endHoldChan_other (s : State) (ch cause k : Nat) (h : ch ≠ k) : chanOf (endHoldChan s ch cause) k = chanOf s k := by
  unfold endHoldChan
  split
  · rw [onChan_other _ _ _ _ h, chanOf_endCause_other _ _ _ _ h]
  · rfl

/-- After the end of a hold its bit is clear, whether it stood or not. -/
theorem holds_endHoldChan (s : State) (ch cause : Nat) (h : ch < 56) :
    (chanOf (endHoldChan s ch cause) ch).cond.holds = setBit (chanOf s ch).cond.holds cause false := by
  cases hheld : (chanOf s ch).cond.holds.testBit cause with
  | true =>
    rw [chanOf_endHoldChan s ch cause h hheld]
    rfl
  | false => simp [endHoldChan, hheld, setBit_false_of_clear]

theorem bankAt_endHoldChan (s : State) (ch cause b : Nat) : bankAt (endHoldChan s ch cause) b = bankAt s b := by
  unfold endHoldChan
  split <;> simp

theorem beyondDips_resumeChan (s : State) (ch cause b : Nat) : (bankAt (resumeChan s ch cause) b).beyondDips = (bankAt s b).beyondDips := by
  unfold resumeChan
  dsimp only
  split
  · rw [beyondDips_updateChan]
    split <;> simp
  · rfl

end Sys2Proof.Machine

namespace Sys2Proof.Machine

open Sys2Proof.Claims

/-! Short circuits and retries of a channel (R127–R130). -/

/-- A trip reads of the state before it only the retries, the settings and the clock. -/
theorem trippedOff_of_same {s u t : State} {ch cause : Nat} (h : TrippedOff u t ch cause)
    (hretries : (chanOf u ch).retriesDone = (chanOf s ch).retriesDone) (hcfg : u.store = s.store) (hnow : u.now = s.now) :
    TrippedOff s t ch cause := by
  unfold TrippedOff chanCfg at h ⊢
  rwa [hretries, hcfg, hnow] at h

/-- A window that ends limiting, or above the class limit, is INRUSH_FAIL (R128). -/
theorem inrushEnd_fails (s : State) (ch mA : Nat) (limiting : Bool) (w : Window) (h : ch < 56) (hw : (chanOf s ch).window = some w)
    (hend : w.endAt s.now ≤ s.now) (hbad : limiting = true ∨ classLimit (classOf ch) < mA) :
    TrippedOff s (inrushEnd s ch limiting mA) ch 11 := by
  simp only [inrushEnd, hw, hend, if_true, hbad]
  exact trippedOff_of_same (tripChan_trippedOff _ ch 11 0 h) (by simp [h]) (by simp) (by simp)

/-- 800 on-ticks in a row that limit outside the window trip the channel (R128). -/
theorem overload_trips (s : State) (ch : Nat) (trace : List LimitRun) (h : ch < 56) (hdrive : (chanOf s ch).driving = true)
    (hw : (chanOf s ch).window = none) (hcount : 800 ≤ limitCount trace (chanOf s ch).limitTicks) :
    TrippedOff s (overload s ch trace) ch 7 := by
  simp only [overload, hdrive, hw, hcount, Option.isSome_none, Bool.not_true, Bool.false_eq_true, if_false, if_true]
  exact trippedOff_of_same (tripChan_trippedOff _ ch 7 1 h) (by simp [h]) (by simp) (by simp)

/-- At the end of a retry pause a channel drives where its command and its condition allow it (R130). -/
theorem retryExpiry_ends (s : State) (ch n : Nat) (h : ch < 56) (hretry : (chanOf s ch).retryAt = some n) (hn : n ≤ s.now) :
    (chanOf (retryExpiry s ch) ch).retryAt = none ∧ (d12 (chanOf s ch).cmd ≠ 0 → (chanOf s ch).cond.free = true →
      (chanOf s ch).cond.waiting = false → (chanOf (retryExpiry s ch) ch).driving = true) := by
  simp only [retryExpiry, hretry, hn, if_true]
  split
  · next hwants => exact ⟨by simp [h], fun _ _ _ => by simp [h]; simpa [h] using hwants⟩
  · next hwants =>
    refine ⟨by simp [h], fun hcmd hfree hwait => absurd ?_ hwants⟩
    simp [h, Chan.wants, hcmd, hfree, hwait]

/-- Settles O29: each event of a channel runs through `tripChan`, or leaves the channel driving. -/
theorem shortedChannelsRetryOrLock : Obligations.ShortedChannelsRetryOrLock := by
  refine ⟨fun ch mA w s hch hw hend hmA => ⟨(inrushEnd s ch false mA).withPending s.pending, rfl, ?_⟩,
    fun ch limiting mA w s hch hw hend hbad => ⟨(inrushEnd s ch limiting mA).withPending s.pending, rfl, inrushEnd_fails s ch mA limiting w hch hw hend hbad⟩,
    fun ch trace s hch hdrive hw hcount => ⟨(overload s ch trace).withPending s.pending, rfl, overload_trips s ch trace hch hdrive hw hcount⟩,
    fun ch trace s hch hdrive hw hcount => ⟨(overload s ch trace).withPending s.pending, rfl, ?_⟩,
    fun ch mA s hch hdrive hmA => ⟨(hardShortHs s ch mA).withPending s.pending, rfl, ?_⟩,
    fun ch n s hch hretry hn => ⟨(retryExpiry s ch).withPending s.pending, rfl, ?_⟩⟩
  · simp [inrushEnd, hw, hend, Nat.not_lt.2 hmA, hch, Cond.clear]
    simp [testBit_setBit]
  · simp [overload, hdrive, hw, Nat.not_le.2 hcount, hch]
  · simp [hardShortHs, hdrive, hmA, tripChan_trippedOff s ch 7 0 hch]
  · exact retryExpiry_ends s ch n hch hretry hn

/-! Clamp energy, the wire model and thermal shutdown (R132–R137). -/

@[simp] theorem chanOf_bankClamp (s : State) (b uJ k : Nat) : chanOf (bankClamp s b uJ) k = chanOf s k := by
  unfold bankClamp
  dsimp only
  split <;> simp

/-- A clamp event enters the window of its bank (R132). -/
theorem bank_clamp_bankClamp (s : State) (b uJ : Nat) (h : b < 4) :
    (bankAt (bankClamp s b uJ) b).clamp = addEnergy s.now uJ (bankAt s b).clamp := by
  unfold bankClamp
  dsimp only
  split <;> simp [h]

/-- A locked channel keeps what it counts, and its bank does. -/
theorem clamp_lockChan (s : State) (ch cause detail : Nat) :
    (chanOf (lockChan s ch cause detail) ch).clamp = (chanOf s ch).clamp :=
  have hrest := beyondCond_lockChan s ch cause detail ch
  (congrArg Chan.clamp hrest :)

theorem bank_clamp_lockChan (s : State) (ch cause detail b : Nat) :
    (bankAt (lockChan s ch cause detail) b).clamp = (bankAt s b).clamp := (congrArg Bank.clamp (beyondDips_lockChan s ch cause detail b) :)

theorem locks_lockChan (s : State) (ch cause detail : Nat) (h : ch < 56) :
    (chanOf (lockChan s ch cause detail) ch).cond.locks.testBit cause = true := by
  have hrest := (chanOf_lockChan s ch cause detail h).2
  have hcond : (chanOf (lockChan s ch cause detail) ch).cond = ((chanOf s ch).cond.reported cause detail).lock cause :=
    (congrArg Chan.cond hrest :)
  simp [hcond, Cond.lock]

theorem bankOf_lt (ch : Nat) : bankOf ch < 4 := by
  unfold bankOf
  split_ifs <;> omega

/-- What a clamp event has counted before a figure is looked at (R132): its energy stands in both windows, and the channel drives on as it was. -/
def clampCounted (s : State) (ch uJ : Nat) : State :=
  let s := s.onChan ch fun c => { c with clamp := addEnergy s.now uJ c.clamp }
  let e := windowEnergy s.now (chanOf s ch).clamp
  bankClamp (if windowFigure (classOf ch) * 3 ≤ e * 4 ∧ !(chanOf s ch).clampWarned then
      loadEvent (s.onChan ch fun c => { c with clampWarned := true }) 0x0204 ch (sat16 (e / 100))
    else s) (bankOf ch) uJ

/-- The energy of the channel's window with the event (R132). -/
def clampWindow (s : State) (ch uJ : Nat) : Nat :=
  let s := s.onChan ch fun c => { c with clamp := addEnergy s.now uJ c.clamp }
  windowEnergy s.now (chanOf s ch).clamp

theorem clampWindow_eq (s : State) (ch uJ : Nat) (h : ch < 56) :
    clampWindow s ch uJ = windowEnergy s.now (addEnergy s.now uJ (chanOf s ch).clamp) := by simp [clampWindow, h]

/-- A clamp event counts, and locks the channel with the first figure that it passes (R133). -/
theorem clampHs_eq (s : State) (ch uJ : Nat) : clampHs s ch uJ =
    if decide (1000000 ≤ windowEnergy s.now (bankAt s (bankOf ch)).clamp) then lockChan (clampCounted s ch uJ) ch 4 2
    else if eventFigure (classOf ch) < uJ then lockChan (clampCounted s ch uJ) ch 4 0
    else if windowFigure (classOf ch) ≤ clampWindow s ch uJ then lockChan (clampCounted s ch uJ) ch 4 1
    else if 1000000 ≤ windowEnergy (clampCounted s ch uJ).now (bankAt (clampCounted s ch uJ) (bankOf ch)).clamp then
      lockChan (clampCounted s ch uJ) ch 4 2
    else clampCounted s ch uJ := rfl

theorem clampCounted_counts (s : State) (ch uJ : Nat) (h : ch < 56) :
    (clampCounted s ch uJ).now = s.now ∧ (chanOf (clampCounted s ch uJ) ch).clamp = addEnergy s.now uJ (chanOf s ch).clamp ∧
    (bankAt (clampCounted s ch uJ) (bankOf ch)).clamp = addEnergy s.now uJ (bankAt s (bankOf ch)).clamp ∧
    (chanOf (clampCounted s ch uJ) ch).cond = (chanOf s ch).cond ∧ (chanOf (clampCounted s ch uJ) ch).driving = (chanOf s ch).driving := by
  unfold clampCounted
  dsimp only
  rw [bank_clamp_bankClamp _ _ _ (bankOf_lt ch)]
  split <;> simp [h]

/-- A channel that a clamp event locks is off, with its energy counted. -/
theorem lockChan_clampCounted (s : State) (ch uJ detail : Nat) (h : ch < 56) :
    let t := lockChan (clampCounted s ch uJ) ch 4 detail
    (chanOf t ch).clamp = addEnergy s.now uJ (chanOf s ch).clamp ∧
    (bankAt t (bankOf ch)).clamp = addEnergy s.now uJ (bankAt s (bankOf ch)).clamp ∧
    (chanOf t ch).cond.locks.testBit 4 = true ∧ (chanOf t ch).driving = false := by
  obtain ⟨-, hchan, hbank, -, -⟩ := clampCounted_counts s ch uJ h
  obtain ⟨hoff, -⟩ := chanOf_lockChan (clampCounted s ch uJ) ch 4 detail h
  exact ⟨(clamp_lockChan ..).trans hchan, (bank_clamp_lockChan ..).trans hbank, locks_lockChan _ _ _ _ h, hoff⟩

/-- A clamp event beyond the figure of its class locks the channel (R133). -/
theorem clampHs_locks (s : State) (ch uJ : Nat) (h : ch < 56) (hbig : eventFigure (classOf ch) < uJ) :
    (chanOf (clampHs s ch uJ) ch).clamp = addEnergy s.now uJ (chanOf s ch).clamp ∧
    (bankAt (clampHs s ch uJ) (bankOf ch)).clamp = addEnergy s.now uJ (bankAt s (bankOf ch)).clamp ∧
    (chanOf (clampHs s ch uJ) ch).cond.locks.testBit 4 = true ∧ (chanOf (clampHs s ch uJ) ch).driving = false := by
  rw [clampHs_eq, if_pos hbig]
  split
  · exact lockChan_clampCounted s ch uJ 2 h
  · exact lockChan_clampCounted s ch uJ 0 h

/-- A clamp event that passes no figure counts, and the channel goes on as it was (R132). -/
theorem clampHs_counts (s : State) (ch uJ : Nat) (h : ch < 56) (hsmall : uJ ≤ eventFigure (classOf ch))
    (hbefore : windowEnergy s.now (bankAt s (bankOf ch)).clamp < 1000000)
    (hchan : windowEnergy s.now (addEnergy s.now uJ (chanOf s ch).clamp) < windowFigure (classOf ch))
    (hbank : windowEnergy s.now (addEnergy s.now uJ (bankAt s (bankOf ch)).clamp) < 1000000) : clampHs s ch uJ = clampCounted s ch uJ := by
  obtain ⟨hnow, -, hclamp, -, -⟩ := clampCounted_counts s ch uJ h
  rw [clampHs_eq, if_neg (by simpa using hbefore), if_neg (Nat.not_lt.2 hsmall), if_neg, if_neg]
  · rw [hnow, hclamp]
    exact Nat.not_le.2 hbank
  · rw [clampWindow_eq s ch uJ h]
    exact Nat.not_le.2 hchan

/-- The wire model takes its step, and 100 % locks (R135, R136). -/
theorem wireUpdate_steps (s : State) (ch mA avg : Nat) (h : ch < 56) :
    (chanOf (wireUpdate s ch mA avg) ch).wireX = wireStep (chanCfg s ch) (chanOf s ch).wireX mA ∧
    (chanOf (wireUpdate s ch mA avg) ch).iLoad = avg ∧
    (1 ≤ wireStep (chanCfg s ch) (chanOf s ch).wireX mA → (chanOf (wireUpdate s ch mA avg) ch).cond.locks.testBit 5 = true) := by
  have hlock (u : State) : (chanOf (lockChan u ch 5 0) ch).wireX = (chanOf u ch).wireX ∧ (chanOf (lockChan u ch 5 0) ch).iLoad = (chanOf u ch).iLoad :=
    have hrest := beyondCond_lockChan u ch 5 0 ch
    ⟨(congrArg Chan.wireX hrest :), (congrArg Chan.iLoad hrest :)⟩
  unfold wireUpdate
  generalize wireStep (chanCfg s ch) (chanOf s ch).wireX mA = x
  dsimp only
  generalize decide ((4 : Rat) / 5 ≤ x) = warn
  generalize hu : (if (warn && !(chanOf s ch).wireWarned) = true then _ else _ : State) = u
  have hwire : (chanOf u ch).wireX = x ∧ (chanOf u ch).iLoad = avg := by
    rw [← hu]
    split <;> simp [h]
  by_cases hfull : 1 ≤ x ∧ (!(chanOf u ch).cond.locks.testBit 5) = true
  · rw [if_pos hfull, (hlock u).1, (hlock u).2]
    exact ⟨hwire.1, hwire.2, fun _ => locks_lockChan _ _ _ _ h⟩
  · rw [if_neg hfull]
    exact ⟨hwire.1, hwire.2, fun hone => by simpa [hone] using hfull⟩

/-- At T_SD a driving channel is off, and held to restart or locked (R137). -/
theorem thermalHs_turnsOff (s : State) (ch : Nat) (h : ch < 56) (hdrive : (chanOf s ch).driving = true) :
    (chanOf (thermalHs s ch) ch).driving = false ∧ (chanOf (thermalHs s ch) ch).lastShutdown = s.now ∧
    ((chanOf s ch).restarts < 16 → (chanOf (thermalHs s ch) ch).cond.holds.testBit 6 = true) ∧
    (16 ≤ (chanOf s ch).restarts → (chanOf (thermalHs s ch) ch).cond.locks.testBit 6 = true) := by
  have hlock (u : State) (detail : Nat) : (chanOf (lockChan u ch 6 detail) ch).lastShutdown = (chanOf u ch).lastShutdown :=
    have hrest := beyondCond_lockChan u ch 6 detail ch
    (congrArg Chan.lastShutdown hrest :)
  have hhold (u : State) : (chanOf (holdChan u ch 6 0) ch).lastShutdown = (chanOf u ch).lastShutdown :=
    have hrest := beyondCond_holdChan u ch 6 0 ch
    (congrArg Chan.lastShutdown hrest :)
  by_cases hfew : (chanOf s ch).restarts < 16
  · simp [thermalHs, hdrive, h, hfew, chanOf_holdChan, hhold, Nat.not_le.2 hfew]
  · simp [thermalHs, hdrive, h, hfew, chanOf_lockChan, locks_lockChan, hlock]

/-- Cooled by T_HYS a channel's thermal hold ends, and it turns on where nothing else keeps it off (R137). -/
theorem thermalRestartHs_returns (s : State) (ch : Nat) (h : ch < 56) (hheld : (chanOf s ch).cond.holds.testBit 6 = true)
    (hdetail : (chanOf s ch).cond.thermDetail = 0) :
    (chanOf (thermalRestartHs s ch) ch).cond.holds.testBit 6 = false ∧
    (chanOf (thermalRestartHs s ch) ch).restarts = (chanOf s ch).restarts + b2n (chanOf (thermalRestartHs s ch) ch).driving ∧
    ((chanOf s ch).cond.holds = 64 → (chanOf s ch).cond.locks = 0 → (chanOf s ch).retryAt = none → d12 (chanOf s ch).cmd ≠ 0 →
      (chanOf (thermalRestartHs s ch) ch).driving = true) := by
  have hcool : (chanOf (s.onCond ch fun k => { k with cool := true }) ch).cond = { (chanOf s ch).cond with cool := true } := by simp [h]
  have hhold := holds_endHoldChan (s.onCond ch fun k => { k with cool := true }) ch 6 h
  unfold thermalRestartHs
  simp only [hcool, hheld, hdetail, and_self, if_true, onChan_same _ _ _ h]
  generalize hu : endHoldChan (s.onCond ch fun k => { k with cool := true }) ch 6 = u at hhold ⊢
  have hchan := chanOf_endHoldChan (s.onCond ch fun k => { k with cool := true }) ch 6 h (by simp [h, hheld])
  rw [hu] at hchan
  have hrestarts : (chanOf (resumeChan u ch 6) ch).restarts = (chanOf s ch).restarts :=
    have hrest := beyondCond_resumeChan u ch 6 ch
    have hsame : (chanOf (resumeChan u ch 6) ch).restarts = (chanOf u ch).restarts := (congrArg Chan.restarts hrest :)
    hsame.trans (by simp [hchan, h])
  refine ⟨by rw [(cond_resumeChan u ch 6 ch).1, hhold, testBit_setBit_same], by rw [hrestarts], fun honly hlocks hretry hcmd => ?_⟩
  refine driving_resumeChan u ch 6 h ?_ (by simpa [hchan, h] using hcmd) (by simpa [hchan, h] using hretry)
  simp [hchan, h, Cond.free, Cond.endHold, Cond.clear, honly, hlocks]
  decide

/-- Ten seconds without a shutdown return a channel's restart count to 0, and no other channel changes (R137). -/
theorem restartReset_resets (s : State) (ch : Nat) (h : ch < 56) (hlong : (chanOf s ch).lastShutdown + 80000000 ≤ s.now) :
    (chanOf (restartReset s ⟨0, ch⟩) ch).restarts = 0 ∧ ∀ k, k ≠ ch → chanOf (restartReset s ⟨0, ch⟩) k = chanOf s k := by
  have heq : restartReset s ⟨0, ch⟩ = restartResetHs s ch := by simp only [restartReset]
  rw [heq, restartResetHs, if_pos hlong]
  exact ⟨by simp [h], fun k hk => onChan_other s ch k _ (Ne.symm hk)⟩

/-- RESTART_COUNT_RESET is `restartReset` beside the waiting commands. -/
theorem restartCountReset_runs (o : OutputId) (s : State) :
    exec (.restartCountReset o) s = .next ((restartReset s o).withPending s.pending) := rfl

/-- RESTART_COUNT_RESET returns the count of a channel of its own to 0 (R137). -/
theorem restartCountReset_resets (s : State) (ch : Nat) (h : ch < 56) (hlong : (chanOf s ch).lastShutdown + 80000000 ≤ s.now) :
    ∃ t, exec (.restartCountReset ⟨0, ch⟩) s = .next t ∧ (chanOf t ch).restarts = 0 ∧ ∀ k, k ≠ ch → chanOf t k = chanOf s k := by
  obtain ⟨hzero, hother⟩ := restartReset_resets s ch h hlong
  exact ⟨(restartReset s ⟨0, ch⟩).withPending s.pending, restartCountReset_runs _ _, by rw [chanOf_withPending]; exact hzero,
    fun k hk => by rw [chanOf_withPending]; exact hother k hk⟩

/-- Settles O30: each protection of a channel is told by the lemma about its model function. -/
theorem clampWireAndThermalProtect : Obligations.ClampWireAndThermalProtect := by
  refine ⟨fun ch uJ s h hbig => ⟨(clampHs s ch uJ).withPending s.pending, rfl, ?_⟩,
    fun ch uJ s h hsmall hbefore hchan hbank => ⟨(clampHs s ch uJ).withPending s.pending, rfl, ?_⟩,
    fun ch mA avg s h => ⟨(wireUpdate s ch mA avg).withPending s.pending, rfl, ?_⟩,
    fun ch s h hdrive => ⟨(thermalHs s ch).withPending s.pending, rfl, ?_⟩,
    fun ch s h hheld hdetail => ⟨(thermalRestartHs s ch).withPending s.pending, rfl, ?_⟩,
    fun ch s h hlong => restartCountReset_resets s ch h hlong⟩
  all_goals simp only [chanOf_withPending, bankAt_withPending]
  · exact clampHs_locks s ch uJ h hbig
  · rw [clampHs_counts s ch uJ h hsmall hbefore hchan hbank]
    exact (clampCounted_counts s ch uJ h).2
  · exact wireUpdate_steps s ch mA avg h
  · exact thermalHs_turnsOff s ch h hdrive
  · exact thermalRestartHs_returns s ch h hheld hdetail

end Sys2Proof.Machine

namespace Sys2Proof.Machine

open Sys2Proof.Claims

/-! Diagnosis limits, dips and voltage points of the banks (Table 02.5, R47, R131). -/

/-- A change of a bank's windows changes those of its channels, and nothing else of a channel. -/
theorem chanOf_mapWindows (s : State) (b ch : Nat) (f : Window → Window) (h : ch < 56) : chanOf (mapWindows s b f) ch =
    if bankOf ch = b then { chanOf s ch with window := (chanOf s ch).window.map f } else chanOf s ch := by
  have hload : (mapWindows s b f).load.ch =
      vmapIdx s.load.ch fun ch c => if bankOf ch = b then { c with window := c.window.map f } else c := by
    unfold mapWindows
    dsimp only
    split <;> rfl
  exact (congrArg (fun v => vget v ch) hload).trans (vget_vmapIdx _ _ _ h)

theorem bankAt_mapWindows (s : State) (b k : Nat) (f : Window → Window) : bankAt (mapWindows s b f) k = bankAt s k := by
  unfold mapWindows
  dsimp only
  split <;> rfl

/-- Every window of a bank whose windows are changed is a changed one. -/
theorem window_mapWindows (s : State) (b ch : Nat) (f : Window → Window) (w : Window) (h : ch < 56) (hb : bankOf ch = b)
    (hw : (chanOf (mapWindows s b f) ch).window = some w) : ∃ v, w = f v := by
  rw [chanOf_mapWindows _ _ _ _ h, if_pos hb] at hw
  obtain ⟨v, -, hv⟩ := Option.map_eq_some_iff.1 hw
  exact ⟨v, hv.symm⟩

/-- A bank no window of which runs has none on its channels. -/
theorem anyWindow_of_window (s : State) (b ch : Nat) (w : Window) (h : ch < 56) (hb : bankOf ch = b) (hw : (chanOf s ch).window = some w) :
    anyWindow s b = true := by
  have hany : ((List.range 56).any fun ch => bankOf ch == b && (chanOf s ch).window.isSome) = true :=
    List.any_eq_true.2 ⟨ch, List.mem_range.2 h, by simp [hb, hw]⟩
  simp only [anyWindow, hany, Bool.true_or]

theorem Window.freeze_frozen (now : Nat) (w : Window) : (w.freeze now).frozen.isSome = true := by
  unfold Window.freeze
  split
  · assumption
  · rfl

/-- Below its dip level a bank's windows are frozen (R131). -/
theorem bankDip_freezes (s : State) (b mv : Nat) (h : b < 4) (hcore : s.seq.core = true) (hdip : (bankAt s b).dip = false)
    (hlow : mv < 100 * (bankCfg s b).dip) : (bankAt (bankDip s b mv) b).dip = true ∧
    ∀ ch w, ch < 56 → bankOf ch = b → (chanOf (bankDip s b mv) ch).window = some w → w.frozen.isSome = true := by
  simp only [bankDip, hcore, hdip, hlow, Bool.not_false, true_and, if_true]
  split
  · refine ⟨?_, fun ch w hch hb hw => ?_⟩
    · have hrest := beyondDips_noteFreeze (mapWindows (s.onBank b fun x => { x with dip := true, dipCounted := false, mv := mv }) b
        (Window.freeze s.now)) b b
      have hflag := congrArg Bank.dip hrest
      refine (hflag : _ = _).trans ?_
      simp [Bank.beyondDips, bankAt_mapWindows, h]
    · obtain ⟨v, rfl⟩ := window_mapWindows _ b ch _ w hch hb hw
      exact Window.freeze_frozen ..
  · next hnone =>
    refine ⟨by simp [h], fun ch w hch hb hw => absurd (anyWindow_of_window _ b ch w hch hb hw) ?_⟩
    simpa using hnone

/-- At its dip level a bank's windows count again (R131). -/
theorem bankDip_thaws (s : State) (b mv : Nat) (h : b < 4) (hcore : s.seq.core = true) (hdip : (bankAt s b).dip = true)
    (hhigh : 100 * (bankCfg s b).dip ≤ mv) : (bankAt (bankDip s b mv) b).dip = false ∧
    ∀ ch w, ch < 56 → bankOf ch = b → (chanOf (bankDip s b mv) ch).window = some w → w.frozen = none := by
  simp only [bankDip, hcore, hdip, hhigh, Bool.not_true, Bool.false_eq_true, false_and, and_false, and_self, if_false, if_true]
  refine ⟨by simp [bankAt_mapWindows, h], fun ch w hch hb hw => ?_⟩
  obtain ⟨v, rfl⟩ := window_mapWindows _ b ch _ w hch hb hw
  split
  · rfl
  · next hopen => simpa using hopen

/-- A supply command inside the ratings is its function beside the waiting commands. -/
theorem rated_next (s : State) (mv : Nat) (t : State) (h : mv ≤ 58000) : rated s mv t = .next (t.withPending s.pending) := if_neg (Nat.not_lt.2 h)

/-- A hall delivers the value of a point that it observes. -/
theorem observePoint_observed (s : State) (h idx pt : Nat) (v : PVal) (es : List Ev) :
    Observed s (observePoint s h idx pt v es) h idx [(pt, v)] es := observe_observed _ _ _ _ _ _

/-- A bank's voltage point is rewritten with its measurement (R47). -/
theorem voltageRewrite_bank (s : State) (b mv : Nat) (h : b < 4) (hcore : s.seq.core = true) (hrun : s.plane.running = true)
    (hmoved : 10 ≤ (mv / 10 - (bankAt s b).written) + ((bankAt s b).written - mv / 10) ∨ s.wallTick % 8000 = 0) :
    (bankAt (voltageRewrite s b mv) b).written = mv / 10 ∧
    Observed s (voltageRewrite s b mv) 7 (statusIx (10 + b)) [(bankPoint b, BitVec.ofNat 16 (mv / 10))] [] := by
  simp only [voltageRewrite, hcore, hrun, hmoved, Nat.ne_of_lt h, if_false, and_self, if_true]
  exact ⟨by simp [h], observePoint_observed (s.onBank b fun x => { x with mv := mv, written := mv / 10 }) _ _ _ _ _⟩

/-- VBATL's point is rewritten with its measurement (R47). -/
theorem voltageRewrite_vbatl (s : State) (mv : Nat) (hcore : s.seq.core = true) (hrun : s.plane.running = true)
    (hmoved : 10 ≤ (mv / 10 - s.seq.vbatlWritten) + (s.seq.vbatlWritten - mv / 10) ∨ s.wallTick % 8000 = 0) :
    (voltageRewrite s 4 mv).seq.vbatlWritten = mv / 10 ∧
    Observed s (voltageRewrite s 4 mv) 0 (statusIx 20) [(vbatlPoint, BitVec.ofNat 16 (mv / 10))] [] := by
  simp only [voltageRewrite, hcore, hrun, hmoved, and_self, if_true]
  refine ⟨by rw [observePoint, observe_only]; rfl, observePoint_observed (s.onSeq fun q => { q with vbatl := mv, vbatlWritten := mv / 10 }) _ _ _ _ _⟩

/-- Settles O27: each measurement is the lemma about its model function. -/
theorem bankMeasurementsAct : Obligations.BankMeasurementsAct := by
  refine ⟨fun b mv s h hcore hmv hlimit => ⟨_, rated_next s mv (diagnosisLimit s b mv) hmv, ?_⟩,
    fun b mv s h hcore hdip hlow hmv => ⟨_, rated_next s mv (bankDip s b mv) hmv, bankDip_freezes s b mv h hcore hdip hlow⟩,
    fun b mv s h hcore hdip hhigh hmv => ⟨_, rated_next s mv (bankDip s b mv) hmv, bankDip_thaws s b mv h hcore hdip hhigh⟩,
    fun b mv s h hcore hrun hmv hmoved => ⟨_, rated_next s mv (voltageRewrite s b mv) hmv, ?_⟩,
    fun mv s hcore hrun hmv hmoved => ⟨_, rated_next s mv (voltageRewrite s 4 mv) hmv, ?_⟩⟩
  · simp only [bankAt_withPending, diagnosisLimit, hcore, Bool.not_true, Bool.false_eq_true, if_false]
    obtain hhigh | hlow := hlimit
    · simp [hhigh, h]
    · simp [hlow, h, show ¬ 40000 < mv by omega]
  · simp only [observed_withPending, bankAt_withPending]
    exact voltageRewrite_bank s b mv h hcore hrun hmoved
  · simp only [observed_withPending, withPending_seq]
    exact voltageRewrite_vbatl s mv hcore hrun hmoved

/-! Open-load checks, backfeed, reverse current and PWM periods of a channel (R122, R141–R147). -/

/-- A channel but for its condition and its open-load counts. -/
def Chan.beyondOpen (c : Chan) : Chan := { c with cond := {}, ol := {} }

theorem beyondOpen_countOpen (s : State) (ch method : Nat) (isOpen : Bool) (h : ch < 56) :
    (chanOf (countOpen s ch method isOpen) ch).beyondOpen = (chanOf s ch).beyondOpen := by
  unfold countOpen
  dsimp only
  split_ifs <;> simp [h, Chan.beyondOpen]

/-- A check counts on from the one before of its own method (R141–R143). -/
theorem countOpen_counts (s : State) (ch method : Nat) (isOpen : Bool) (h : ch < 56) (hm : method < 3) :
    (chanOf (countOpen s ch method isOpen) ch).ol.method = method ∧
    vget (chanOf (countOpen s ch method isOpen) ch).ol.opens method = if isOpen then vget (chanOf s ch).ol.opens method + 1 else 0 := by
  unfold countOpen
  dsimp only
  split_ifs <;> simp_all

/-- An output above V_BF reports BACKFEED, and OPEN clears (R147). -/
theorem backfeed_reports (s : State) (ch : Nat) (belowEnd : Bool) (h : ch < 56) :
    (chanOf (backfeed s ch true belowEnd) ch).cond.active.testBit 9 = true ∧
    chanOf (backfeed s ch true belowEnd) ch = { chanOf s ch with cond := ((chanOf s ch).cond.reported 9 0).clear 8 } := by
  simp [backfeed, h, Cond.reported, Cond.report, Cond.clear, testBit_setBit]

theorem beyondCond_backfeed (s : State) (ch k : Nat) (above belowEnd : Bool) :
    (chanOf (backfeed s ch above belowEnd) k).beyondCond = (chanOf s k).beyondCond := by
  unfold backfeed
  split_ifs <;> simp [beyondCond_endCause, beyondCond_reportCause]

/-- An on-state measurement counts (R141). -/
theorem onStateCheck_counts (s : State) (ch uA : Nat) (h : ch < 56) (hdrive : (chanOf s ch).driving = true) (hol : (chanCfg s ch).olOn ≠ 0)
    (hposs : openNotPossible s ch = false) (hlong : (chanOf s ch).pwm = true → onStateMin ch ≤ onTimeOf s ch (chanOf s ch).duty) :
    (chanOf (onStateCheck s ch uA) ch).ol.method = 0 ∧ vget (chanOf (onStateCheck s ch uA) ch).ol.opens 0 =
      if belowOlOn ch (chanCfg s ch).olOn uA then vget (chanOf s ch).ol.opens 0 + 1 else 0 := by
  have hchecks : onStateCheck s ch uA = countOpen s ch 0 (belowOlOn ch (chanCfg s ch).olOn uA) :=
    if_pos ⟨hdrive, hol, by simp [hposs], hlong⟩
  rw [hchecks]
  exact countOpen_counts s ch 0 _ h (by omega)

/-- An off-state check counts, or reports BACKFEED as a load that is present (R142, R147). -/
theorem offStateCheck_counts (s : State) (ch : Nat) (ol bf be : Bool) (h : ch < 56) (hol : (chanCfg s ch).olOff = true)
    (hposs : openNotPossible s ch = false) (hfits : offPhaseFits s ch = true) :
    (chanOf (offStateCheck s ch ol bf be) ch).ol.method = 1 ∧
    vget (chanOf (offStateCheck s ch ol bf be) ch).ol.opens 1 = (if ol && !bf then vget (chanOf s ch).ol.opens 1 + 1 else 0) ∧
    (bf = true → (chanOf (offStateCheck s ch ol bf be) ch).cond.active.testBit 9 = true) := by
  simp only [offStateCheck, hol, hposs, hfits, Bool.not_false, and_self, if_true]
  cases bf
  · have hbefore : (chanOf (backfeed s ch false be) ch).ol = (chanOf s ch).ol :=
      have hrest := beyondCond_backfeed s ch ch false be
      (congrArg Chan.ol hrest :)
    obtain ⟨hmethod, hopens⟩ := countOpen_counts (backfeed s ch false be) ch 1 ol h (by omega)
    exact ⟨hmethod, by simpa [hbefore] using hopens, fun hbf => Bool.noConfusion hbf⟩
  · obtain ⟨hactive, -⟩ := backfeed_reports s ch be h
    simp [h, hactive]

/-- A stretched on-phase leaves its debt, and counts where OL_ON is set (R143). -/
theorem stretchPhase_stretches (s : State) (ch uA : Nat) (h : ch < 56) (huse : stretchInUse s ch = true) (hposs : openNotPossible s ch = false)
    (hdebt : (chanOf s ch).debt = 0) (hshort : (chanOf s ch).shorten = 0)
    (hperiods : (chanOf s ch).stretchAt + (chanCfg s ch).stretchN ≤ (chanOf s ch).periods) :
    (chanOf (stretchPhase s ch uA) ch).stretchAt = (chanOf s ch).periods ∧
    (chanOf (stretchPhase s ch uA) ch).debt = onStateMin ch - onTimeOf s ch (chanOf s ch).duty ∧
    ((chanCfg s ch).olOn ≠ 0 → (chanOf (stretchPhase s ch uA) ch).ol.method = 2 ∧
      vget (chanOf (stretchPhase s ch uA) ch).ol.opens 2 =
        if belowOlOn ch (chanCfg s ch).olOn uA then vget (chanOf s ch).ol.opens 2 + 1 else 0) := by
  simp only [stretchPhase, huse, hposs, hdebt, hshort, hperiods, Bool.not_false, and_self, if_true]
  generalize hu : s.onChan ch _ = u
  have hchan : chanOf u ch = _ := (congrArg (chanOf · ch) hu.symm).trans (onChan_same s ch _ h)
  by_cases hol : (chanCfg s ch).olOn = 0
  · simp [hol, hchan, onTimeOf]
  · obtain ⟨hmethod, hopens⟩ := countOpen_counts u ch 2 (belowOlOn ch (chanCfg s ch).olOn uA) h (by omega)
    have hrest := beyondOpen_countOpen u ch 2 (belowOlOn ch (chanCfg s ch).olOn uA) h
    have hat : (chanOf (countOpen u ch 2 (belowOlOn ch (chanCfg s ch).olOn uA)) ch).stretchAt = (chanOf u ch).stretchAt :=
      (congrArg Chan.stretchAt hrest :)
    have hleft : (chanOf (countOpen u ch 2 (belowOlOn ch (chanCfg s ch).olOn uA)) ch).debt = (chanOf u ch).debt := (congrArg Chan.debt hrest :)
    rw [if_neg hol, hat, hleft]
    exact ⟨by rw [hchan], by rw [hchan]; rfl, fun _ => ⟨hmethod, by rw [hopens, hchan]⟩⟩

/-- The pull-down check of an off channel reports BACKFEED (R145). -/
theorem backfeedCheck_reports (s : State) (ch : Nat) (be : Bool) (h : ch < 56) (hoff : (chanOf s ch).driving = false)
    (hol : (chanCfg s ch).olOff = false) (hdiag : (bankAt s (bankOf ch)).diagOff = false) (hpd : pd8On s = true) :
    (chanOf (backfeedCheck s ch true be) ch).cond.active.testBit 9 = true ∧
    (chanOf (backfeedCheck s ch true be) ch).cmd = (chanOf s ch).cmd := by
  obtain ⟨hactive, hchan⟩ := backfeed_reports s ch be h
  simp only [backfeedCheck, hoff, hol, hdiag, hpd, Bool.not_false, and_self, if_true]
  exact ⟨hactive, by rw [hchan]⟩

/-- Reverse current forces a channel that drives to full duty (R146). -/
theorem reverseCurrent_forces (s : State) (ch : Nat) (h : ch < 56) (hdrive : (chanOf s ch).driving = true) :
    (chanOf (reverseCurrent s ch) ch).forced = true ∧ (chanOf (reverseCurrent s ch) ch).cond.active.testBit 10 = true ∧
    chanOn (reverseCurrent s ch) ch = true := by
  simp [reverseCurrent, hdrive, h, chanOn, Cond.reported, Cond.report]

/-- With the end of a reverse current the cause ends, and a channel that is not on continuously stays forced (R146). -/
theorem reverseEnd_ends (s : State) (ch : Nat) (h : ch < 56) : (chanOf (reverseEnd s ch) ch).cond.active.testBit 10 = false ∧
    (chanOf (reverseEnd s ch) ch).forced = ((chanOf s ch).forced && d12 (chanOf s ch).cmd != 4095) := by
  simp [reverseEnd, h, Cond.clear]

/-- At a period start a channel that goes on driving takes its commanded duty, and its on-phase gives back a debt (R122, R143). -/
theorem periodHs_takes (s : State) (ch : Nat) (h : ch < 56) (hdrive : (chanOf s ch).driving = true)
    (hstart : periodPos (gridOf s ch).1 (gridOf s ch).2 s.now = 0) (hwants : (chanOf s ch).wants = true) (hfree : (chanOf s ch).forced = false) :
    (chanOf (periodHs s ch) ch).duty = d12 (chanOf s ch).cmd ∧ (chanOf (periodHs s ch) ch).driving = true ∧
    (chanOf (periodHs s ch) ch).shorten = min (chanOf s ch).debt (onTimeOf s ch (d12 (chanOf s ch).cmd)) ∧
    (chanOf (periodHs s ch) ch).debt + (chanOf (periodHs s ch) ch).shorten = (chanOf s ch).debt ∧
    (chanOf (periodHs s ch) ch).onUntil = s.now + (onTimeOf s ch (d12 (chanOf s ch).cmd) - (chanOf (periodHs s ch) ch).shorten) := by
  have hcmd : d12 (chanOf s ch).cmd ≠ 0 := by
    intro hzero
    simp [Chan.wants, hzero, hfree] at hwants
  simp only [periodHs, hdrive, hstart, and_self, if_true]
  rw [updateChan_of_settled]
  · simp only [onChan_same _ _ _ h, hcmd, if_false, onTimeOf]
    exact ⟨trivial, hdrive, trivial, by omega, trivial⟩
  · simp only [onChan_same _ _ _ h, hdrive]
    simpa [Chan.wants, hfree] using hwants

/-- At a period start a forced channel whose reverse current has ended follows its command again, to off too (R146). -/
theorem periodHs_ends (s : State) (ch : Nat) (h : ch < 56) (hdrive : (chanOf s ch).driving = true)
    (hstart : periodPos (gridOf s ch).1 (gridOf s ch).2 s.now = 0) (hover : (chanOf s ch).cond.active.testBit 10 = false)
    (hoff : d12 (chanOf s ch).cmd = 0) :
    (chanOf (periodHs s ch) ch).forced = false ∧ (chanOf (periodHs s ch) ch).driving = false := by
  simp only [periodHs, hdrive, hstart, and_self, if_true]
  refine ⟨?_, by simp [h, Chan.wants, hover, hoff]⟩
  unfold updateChan
  simp [h, Chan.wants, hover, hoff, hdrive]

/-- Bins that are older than the clamp window leave it (R132). -/
theorem binExpiry_drops (s : State) : (∀ ch, ch < 56 → (chanOf (binExpiry s) ch).clamp = liveBins s.now (chanOf s ch).clamp) ∧
    (∀ b, b < 4 → (bankAt (binExpiry s) b).clamp = liveBins s.now (bankAt s b).clamp) :=
  ⟨fun ch h => congrArg Chan.clamp (vget_vmapIdx s.load.ch _ ch h), fun b h => congrArg Bank.clamp (vget_map s.load.bank _ b h)⟩

/-- Settles O32: each command of the diagnosis is the lemma about its model function. -/
theorem diagnosisCountsAndReports : Obligations.DiagnosisCountsAndReports := by
  refine ⟨fun ch uA s h hdrive hol hposs hlong => ⟨(onStateCheck s ch uA).withPending s.pending, rfl, ?_⟩,
    fun ch ol bf be s h hol hposs hfits => ⟨(offStateCheck s ch ol bf be).withPending s.pending, rfl, ?_⟩,
    fun ch uA s h huse hposs hdebt hshort hperiods => ⟨(stretchPhase s ch uA).withPending s.pending, rfl, ?_⟩,
    fun ch be s h hoff hol hdiag hpd => ⟨(backfeedCheck s ch true be).withPending s.pending, rfl, ?_⟩,
    fun ch s h hdrive => ⟨(reverseCurrent s ch).withPending s.pending, rfl, ?_⟩,
    fun ch s h => ⟨(reverseEnd s ch).withPending s.pending, rfl, ?_⟩,
    fun ch s h hdrive hstart hwants hfree => ⟨(periodHs s ch).withPending s.pending, rfl, ?_⟩,
    fun ch s h hdrive hstart hforced hover hoff => ⟨(periodHs s ch).withPending s.pending, rfl, ?_⟩,
    fun s => ⟨(binExpiry s).withPending s.pending, rfl, ?_⟩⟩
  all_goals simp only [chanOf_withPending, bankAt_withPending]
  · exact onStateCheck_counts s ch uA h hdrive hol hposs hlong
  · exact offStateCheck_counts s ch ol bf be h hol hposs hfits
  · exact stretchPhase_stretches s ch uA h huse hposs hdebt hshort hperiods
  · exact backfeedCheck_reports s ch be h hoff hol hdiag hpd
  · exact reverseCurrent_forces s ch h hdrive
  · exact reverseEnd_ends s ch h
  · exact periodHs_takes s ch h hdrive hstart hwants hfree
  · exact periodHs_ends s ch h hdrive hstart hover hoff
  · exact binExpiry_drops s

/-! The package thermal manager (R138–R140). -/

@[simp] theorem onChan_load_mgr (s : State) (ch : Nat) (f : Chan → Chan) : (s.onChan ch f).load.mgr = s.load.mgr := rfl

@[simp] theorem onCond_load_mgr (s : State) (ch : Nat) (f : Cond → Cond) : (s.onCond ch f).load.mgr = s.load.mgr := rfl

@[simp] theorem onBank_load_mgr (s : State) (b : Nat) (f : Bank → Bank) : (s.onBank b f).load.mgr = s.load.mgr := rfl

@[simp] theorem noteFreeze_load_mgr (s : State) (b : Nat) : (noteFreeze s b).load.mgr = s.load.mgr := rfl

@[simp] theorem updateChan_load_mgr (s : State) (ch : Nat) : (updateChan s ch).load.mgr = s.load.mgr := by
  unfold updateChan
  dsimp only
  split_ifs <;> simp

@[simp] theorem reportCause_load_mgr (s : State) (ch cause detail : Nat) : (reportCause s ch cause detail).load.mgr = s.load.mgr := by
  unfold reportCause
  dsimp only
  split <;> simp

@[simp] theorem endCause_load_mgr (s : State) (ch cause : Nat) : (endCause s ch cause).load.mgr = s.load.mgr := by
  unfold endCause
  split <;> simp

@[simp] theorem lockChan_load_mgr (s : State) (ch cause detail : Nat) : (lockChan s ch cause detail).load.mgr = s.load.mgr := by simp [lockChan]

@[simp] theorem stopRetry_load_mgr (s : State) (ch : Nat) : (stopRetry s ch).load.mgr = s.load.mgr := by
  unfold stopRetry
  dsimp only
  split <;> simp

@[simp] theorem holdChan_load_mgr (s : State) (ch cause detail : Nat) : (holdChan s ch cause detail).load.mgr = s.load.mgr := by simp [holdChan]

@[simp] theorem endHoldChan_load_mgr (s : State) (ch cause : Nat) : (endHoldChan s ch cause).load.mgr = s.load.mgr := by
  unfold endHoldChan
  split <;> simp

@[simp] theorem resumeChan_load_mgr (s : State) (ch cause : Nat) : (resumeChan s ch cause).load.mgr = s.load.mgr := by
  unfold resumeChan
  dsimp only
  split_ifs <;> simp

@[simp] theorem onHb_load (s : State) (m : Nat) (f : Hb → Hb) : (s.onHb m f).load = s.load := rfl

@[simp] theorem endHbCause_load (s : State) (m cause : Nat) : (endHbCause s m cause).load = s.load := by
  unfold endHbCause
  split <;> simp

@[simp] theorem noteModuleTemp_load (s : State) (th : Thermals) : (noteModuleTemp s th).load = s.load := by
  unfold noteModuleTemp
  split <;> simp

@[simp] theorem noteModuleTemp_store (s : State) (th : Thermals) : (noteModuleTemp s th).store = s.store := by
  unfold noteModuleTemp
  split <;> simp

@[simp] theorem noteModuleTemp_now (s : State) (th : Thermals) : (noteModuleTemp s th).now = s.now := by
  unfold noteModuleTemp
  split <;> simp

@[simp] theorem noteThermals_store (s : State) (th : Thermals) : (noteThermals s th).store = s.store := rfl

@[simp] theorem noteThermals_now (s : State) (th : Thermals) : (noteThermals s th).now = s.now := rfl


@[simp] theorem noteThermals_ch (s : State) (th : Thermals) : (noteThermals s th).load.ch = s.load.ch := rfl

/-- The end of the refusals of R154 concerns the half-bridges only. -/
theorem endRefusals_load (s : State) : (endRefusals s).load = s.load := by
  unfold endRefusals
  split
  · rfl
  · refine foldl_keeps State.load _ (fun u m => ?_) _ s
    dsimp only
    split <;> simp

/-- The choice of a cut reads the channels and their settings only (R139). -/
theorem cutChoice_congr {s t : State} (hload : t.load.ch = s.load.ch) (hstore : t.store = s.store) (r : Nat × Nat) :
    cutChoice t r = cutChoice s r := by
  simp only [cutChoice, chanOf, chanCfg, hload, hstore]

theorem nextCut_congr {s t : State} (hload : t.load.ch = s.load.ch) (hstore : t.store = s.store) (l : List (Nat × Nat)) :
    nextCut t l = nextCut s l := by
  induction l with
  | nil => rfl
  | cons r l ih => simp only [nextCut, cutChoice_congr hload hstore, ih]

/-- The measurements leave the channels, the cuts and the times of the manager as they are (R138). -/
theorem noted_keeps (s : State) (th : Thermals) :
    (noteThermals (noteModuleTemp s th) th).load.ch = s.load.ch ∧ (noteThermals (noteModuleTemp s th) th).store = s.store ∧
    (noteThermals (noteModuleTemp s th) th).now = s.now ∧ (noteThermals (noteModuleTemp s th) th).load.mgr.cuts = s.load.mgr.cuts ∧
    (noteThermals (noteModuleTemp s th) th).load.mgr.lastCut = s.load.mgr.lastCut ∧
    (noteThermals (noteModuleTemp s th) th).load.mgr.lastReturn = s.load.mgr.lastReturn := by
  have hload := noteModuleTemp_load s th
  have hmgr : (noteModuleTemp s th).load.mgr = s.load.mgr := congrArg LoadDie.mgr hload
  exact ⟨by simp, by simp, by simp, (congrArg ThermalMgr.cuts hmgr :), (congrArg ThermalMgr.lastCut hmgr :), (congrArg ThermalMgr.lastReturn hmgr :)⟩

/-- A cut channel is held with THERMAL, off, and joins the cuts (R139). -/
theorem cutChan_cuts (s : State) (th : Thermals) (r : Nat × Nat) (ch mW mA : Nat) (h : ch < 56) :
    (cutChan s th r ch mW mA).load.mgr.lastCut = s.load.mgr.lastCut ∧
    (cutChan s th r ch mW mA).load.mgr.cuts = s.load.mgr.cuts ++ [{ ch := ch, detail := r.1, mW := mW, mA := mA }] ∧
    (chanOf (cutChan s th r ch mW mA) ch).cond.holds.testBit 6 = true ∧ (chanOf (cutChan s th r ch mW mA) ch).driving = false := by
  simp [cutChan, chanOf_holdChan, h]

/-- Where a limit asks for a cut in time, its channel is cut (R139). -/
theorem managerCut_cuts (s : State) (th : Thermals) (mW mA : Nat) (r : Nat × Nat) (ch : Nat)
    (hcut : nextCut s (cutReasons s.load.mgr th) = some (r, ch)) (h : ch < 56) (hdue : ∀ n, s.load.mgr.lastCut = some n → n + 8000 ≤ s.now) :
    (managerCut s th mW mA).load.mgr.lastCut = some s.now ∧
    (managerCut s th mW mA).load.mgr.cuts = s.load.mgr.cuts ++ [{ ch := ch, detail := r.1, mW := mW, mA := mA }] ∧
    (chanOf (managerCut s th mW mA) ch).cond.holds.testBit 6 = true ∧ (chanOf (managerCut s th mW mA) ch).driving = false := by
  obtain ⟨hch, hstore, hnow, hcuts, hlast, -⟩ := noted_keeps s th
  have hasks : (cutReasons s.load.mgr th).isEmpty = false := by
    cases hreasons : cutReasons s.load.mgr th with
    | nil => simp [hreasons, nextCut] at hcut
    | cons r l => rfl
  unfold managerCut
  dsimp only
  generalize noteThermals (noteModuleTemp s th) th = u at *
  rw [nextCut_congr hch hstore, hcut, hasks, Bool.false_or]
  have htime (n : Nat) (hn : u.load.mgr.lastCut = some n) : decide (n + 8000 ≤ u.now) = true := by
    rw [hnow]
    exact decide_eq_true (hdue n (hlast ▸ hn))
  have hcuts (w : State) (hload : w.load = (u.onLoad fun d => { d with mgr := { d.mgr with lastCut := some u.now } }).load) :
      (cutChan w th r ch mW mA).load.mgr.lastCut = some s.now ∧
      (cutChan w th r ch mW mA).load.mgr.cuts = s.load.mgr.cuts ++ [{ ch := ch, detail := r.1, mW := mW, mA := mA }] ∧
      (chanOf (cutChan w th r ch mW mA) ch).cond.holds.testBit 6 = true ∧ (chanOf (cutChan w th r ch mW mA) ch).driving = false := by
    have hstamp : w.load.mgr.lastCut = some s.now := by rw [hload, ← hnow]; rfl
    have hlist : w.load.mgr.cuts = s.load.mgr.cuts := by rw [hload, ← hcuts]; rfl
    rw [← hstamp, ← hlist]
    exact cutChan_cuts w th r ch mW mA h
  have hnone (l : List (Nat × Nat)) (v : State) : (l.foldl (noneLeft · th ·) v).load = v.load :=
    foldl_keeps State.load _ (fun _ _ => observe_load ..) l v
  split
  · exact hcuts _ (hnone _ _)
  · next n hn =>
    simp only [htime n hn, Bool.not_true, Bool.false_eq_true, if_false]
    exact hcuts _ (hnone _ _)

/-- Where the margin allows it, the hold of the channel cut last ends (R140). -/
theorem managerReturn_returns (s : State) (th : Thermals) (c : Cut) (hlast : s.load.mgr.cuts.getLast? = some c) (h : c.ch < 56)
    (hfits : returnFits th c = true) (hdue : ∀ n, s.load.mgr.lastReturn = some n → n + 800000 ≤ s.now) :
    (managerReturn s th).load.mgr.cuts = s.load.mgr.cuts.dropLast ∧ (managerReturn s th).load.mgr.lastReturn = some s.now ∧
    (chanOf (managerReturn s th) c.ch).cond.holds.testBit 6 = false := by
  obtain ⟨-, -, hnow, hcuts, -, hreturn⟩ := noted_keeps s th
  unfold managerReturn
  dsimp only
  generalize noteThermals (noteModuleTemp s th) th = u at *
  have htime (n : Nat) (hn : u.load.mgr.lastReturn = some n) : decide (n + 800000 ≤ u.now) = true := by
    rw [hnow]
    exact decide_eq_true (hdue n (hreturn ▸ hn))
  rw [hcuts, hlast]
  have hends (w : State) (hmgr : w.load.mgr = { u.load.mgr with cuts := u.load.mgr.cuts.dropLast, lastReturn := some u.now }) (b : Bool) :
      let t := if b then resumeChan (endHoldChan w c.ch 6) c.ch 6 else endHoldChan w c.ch 6
      t.load.mgr.cuts = s.load.mgr.cuts.dropLast ∧ t.load.mgr.lastReturn = some s.now ∧ (chanOf t c.ch).cond.holds.testBit 6 = false := by
    cases b <;> simp [hmgr, hcuts, hnow, (cond_resumeChan _ _ _ _).1, holds_endHoldChan, h]
  simp only [hfits, Bool.and_true]
  split
  · exact hends _ rfl _
  · next n hn =>
    simp only [htime n hn, if_true]
    exact hends _ rfl _

/-- Settles O31: the manager makes the cut that `nextCut` chooses, and ends the hold of the last one. -/
theorem thermalManagerCutsAndReturns : Obligations.ThermalManagerCutsAndReturns := by
  refine ⟨fun th mW mA r ch s hcut h hdue => ⟨(endRefusals (managerCut s th mW mA)).withPending s.pending, rfl, ?_⟩,
    fun th c s hlast h hfits hdue => ⟨(endRefusals (managerReturn s th)).withPending s.pending, rfl, ?_⟩⟩
  all_goals simp only [chanOf_withPending, withPending_load, chanOf_of_load (endRefusals_load _), endRefusals_load]
  · exact managerCut_cuts s th mW mA r ch hcut h hdue
  · exact managerReturn_returns s th c hlast h hfits hdue

end Sys2Proof.Machine

namespace Sys2Proof.Machine

open Sys2Proof.Claims

/-! What a completion and a write of a point leave as they are. -/

/-- Settling a write of a tick ends in one of its three outcomes (R104). -/
theorem applyWrite_cases (s : State) (w : PWrite) {P : State → Prop} (hdrop : ∀ n, P (countDiscarded s n))
    (hstand : ∀ old count, P (writeStands s w s.stamp old count))
    (hover : ∀ n old, P (writeStands (countDiscarded s n) w s.stamp old 1)) : P (applyWrite s w).1 := by
  unfold applyWrite
  split
  · exact hdrop 1
  · split
    · exact hstand _ 1
    · split
      · exact hdrop 1
      · split
        · exact hstand _ _
        · exact hover _ _

@[simp] theorem postEvent_load (s : State) (e : Ev) : (postEvent s e).load = s.load := by
  unfold postEvent
  split <;> rfl

@[simp] theorem postEvent_light (s : State) (e : Ev) : (postEvent s e).light = s.light := by
  unfold postEvent
  split <;> rfl

@[simp] theorem postEvent_motor (s : State) (e : Ev) : (postEvent s e).motor = s.motor := by
  unfold postEvent
  split <;> rfl

@[simp] theorem postEvent_seq (s : State) (e : Ev) : (postEvent s e).seq = s.seq := by
  unfold postEvent
  split <;> rfl

@[simp] theorem postEvent_now (s : State) (e : Ev) : (postEvent s e).now = s.now := by
  unfold postEvent
  split <;> rfl

@[simp] theorem postEvent_store (s : State) (e : Ev) : (postEvent s e).store = s.store := by
  unfold postEvent
  split <;> rfl

@[simp] theorem completeNow_load (s : State) (p : Packet) (st : Status) (r : Reply) : (completeNow s p st r).load = s.load :=
  (congrArg State.load (completeNow_beyondReply s p st r) :)

@[simp] theorem completeNow_light (s : State) (p : Packet) (st : Status) (r : Reply) : (completeNow s p st r).light = s.light :=
  (congrArg State.light (completeNow_beyondReply s p st r) :)

@[simp] theorem completeNow_motor (s : State) (p : Packet) (st : Status) (r : Reply) : (completeNow s p st r).motor = s.motor :=
  (congrArg State.motor (completeNow_beyondReply s p st r) :)

@[simp] theorem completeNow_seq (s : State) (p : Packet) (st : Status) (r : Reply) : (completeNow s p st r).seq = s.seq :=
  (congrArg State.seq (completeNow_beyondReply s p st r) :)

@[simp] theorem completeNow_now (s : State) (p : Packet) (st : Status) (r : Reply) : (completeNow s p st r).now = s.now :=
  (congrArg State.now (completeNow_beyondReply s p st r) :)

@[simp] theorem completeNow_store (s : State) (p : Packet) (st : Status) (r : Reply) : (completeNow s p st r).store = s.store :=
  (congrArg State.store (completeNow_beyondReply s p st r) :)

@[simp] theorem pput_load (s : State) (pt : Nat) (v : PVal) : (pput s pt v).load = s.load := rfl

@[simp] theorem pput_light_string (s : State) (pt : Nat) (v : PVal) : (pput s pt v).light.string = s.light.string := rfl

@[simp] theorem pput_motor (s : State) (pt : Nat) (v : PVal) : (pput s pt v).motor = s.motor := rfl

@[simp] theorem pput_seq (s : State) (pt : Nat) (v : PVal) : (pput s pt v).seq = s.seq := rfl

@[simp] theorem pput_now (s : State) (pt : Nat) (v : PVal) : (pput s pt v).now = s.now := rfl

@[simp] theorem pput_store (s : State) (pt : Nat) (v : PVal) : (pput s pt v).store = s.store := rfl

@[simp] theorem noteWriter_load (s : State) (pt : Nat) (v : PVal) (k : Writer) (comp : Nat) (t : Stamp) : (noteWriter s pt v k comp t).load = s.load := rfl

@[simp] theorem noteWriter_light_string (s : State) (pt : Nat) (v : PVal) (k : Writer) (comp : Nat) (t : Stamp) :
    (noteWriter s pt v k comp t).light.string = s.light.string := rfl

@[simp] theorem noteWriter_motor (s : State) (pt : Nat) (v : PVal) (k : Writer) (comp : Nat) (t : Stamp) : (noteWriter s pt v k comp t).motor = s.motor := rfl

@[simp] theorem noteWriter_seq (s : State) (pt : Nat) (v : PVal) (k : Writer) (comp : Nat) (t : Stamp) : (noteWriter s pt v k comp t).seq = s.seq := rfl

@[simp] theorem noteWriter_now (s : State) (pt : Nat) (v : PVal) (k : Writer) (comp : Nat) (t : Stamp) : (noteWriter s pt v k comp t).now = s.now := rfl

@[simp] theorem noteWriter_store (s : State) (pt : Nat) (v : PVal) (k : Writer) (comp : Nat) (t : Stamp) : (noteWriter s pt v k comp t).store = s.store := rfl

@[simp] theorem noteLatency_load (s : State) (w : PWrite) : (noteLatency s w).load = s.load := by
  unfold noteLatency
  (repeat' split)
  all_goals rfl

@[simp] theorem noteLatency_light_string (s : State) (w : PWrite) : (noteLatency s w).light.string = s.light.string := by
  unfold noteLatency
  (repeat' split)
  all_goals rfl

@[simp] theorem noteLatency_motor (s : State) (w : PWrite) : (noteLatency s w).motor = s.motor := by
  unfold noteLatency
  (repeat' split)
  all_goals rfl

@[simp] theorem noteLatency_seq (s : State) (w : PWrite) : (noteLatency s w).seq = s.seq := by
  unfold noteLatency
  (repeat' split)
  all_goals rfl

@[simp] theorem noteLatency_now (s : State) (w : PWrite) : (noteLatency s w).now = s.now := by
  unfold noteLatency
  (repeat' split)
  all_goals rfl

@[simp] theorem noteLatency_store (s : State) (w : PWrite) : (noteLatency s w).store = s.store := by
  unfold noteLatency
  (repeat' split)
  all_goals rfl

@[simp] theorem detachPoint_load (s : State) (pt : Nat) : (detachPoint s pt).load = s.load := rfl

@[simp] theorem detachPoint_light_string (s : State) (pt : Nat) : (detachPoint s pt).light.string = s.light.string := rfl

@[simp] theorem detachPoint_motor (s : State) (pt : Nat) : (detachPoint s pt).motor = s.motor := rfl

@[simp] theorem detachPoint_seq (s : State) (pt : Nat) : (detachPoint s pt).seq = s.seq := rfl

@[simp] theorem detachPoint_now (s : State) (pt : Nat) : (detachPoint s pt).now = s.now := rfl

@[simp] theorem detachPoint_store (s : State) (pt : Nat) : (detachPoint s pt).store = s.store := rfl

@[simp] theorem bump_motor (s : State) (cls index n : Nat) (hall : Option Nat) : (bump s cls index n hall).motor = s.motor := rfl

@[simp] theorem bump_light_string (s : State) (cls index n : Nat) (hall : Option Nat) : (bump s cls index n hall).light.string = s.light.string := rfl

@[simp] theorem bump_seq (s : State) (cls index n : Nat) (hall : Option Nat) : (bump s cls index n hall).seq = s.seq := rfl

@[simp] theorem countMoved_load (s : State) (w : PWrite) : (countMoved s w).load = s.load := by
  unfold countMoved
  dsimp only
  split_ifs <;> rfl

theorem onPoints_light (s : State) (f : Points → Points) : (s.onPoints f).light = s.light := rfl

theorem light_string_engine (s : State) (e : Vector Engine 32) :
    ({ s with light := { s.light with engine := e } } : State).light.string = s.light.string := rfl

@[simp] theorem countMoved_light_string (s : State) (w : PWrite) : (countMoved s w).light.string = s.light.string := by
  unfold countMoved
  split
  · rw [onPoints_light]
    rfl
  · dsimp only
    rw [onPoints_light]
    split
    · exact light_string_engine s _
    · rfl

@[simp] theorem countMoved_motor (s : State) (w : PWrite) : (countMoved s w).motor = s.motor := by
  unfold countMoved
  dsimp only
  split_ifs <;> rfl

@[simp] theorem countMoved_seq (s : State) (w : PWrite) : (countMoved s w).seq = s.seq := by
  unfold countMoved
  dsimp only
  split_ifs <;> rfl

@[simp] theorem countMoved_now (s : State) (w : PWrite) : (countMoved s w).now = s.now := by
  unfold countMoved
  dsimp only
  split_ifs <;> rfl

@[simp] theorem countMoved_store (s : State) (w : PWrite) : (countMoved s w).store = s.store := by
  unfold countMoved
  dsimp only
  split_ifs <;> rfl

@[simp] theorem moveWrite_load (s : State) (w : PWrite) : (moveWrite s w).load = s.load := by simp [moveWrite, State.onPoints]

@[simp] theorem moveWrite_light_string (s : State) (w : PWrite) : (moveWrite s w).light.string = s.light.string := by simp [moveWrite, State.onPoints]

@[simp] theorem moveWrite_motor (s : State) (w : PWrite) : (moveWrite s w).motor = s.motor := by simp [moveWrite, State.onPoints]

@[simp] theorem moveWrite_seq (s : State) (w : PWrite) : (moveWrite s w).seq = s.seq := by simp [moveWrite, State.onPoints]

@[simp] theorem moveWrite_now (s : State) (w : PWrite) : (moveWrite s w).now = s.now := by simp [moveWrite, State.onPoints]

@[simp] theorem moveWrite_store (s : State) (w : PWrite) : (moveWrite s w).store = s.store := by simp [moveWrite, State.onPoints]

@[simp] theorem countDiscarded_load (s : State) (n : Nat) : (countDiscarded s n).load = s.load := rfl

@[simp] theorem countDiscarded_light_string (s : State) (n : Nat) : (countDiscarded s n).light.string = s.light.string := rfl

@[simp] theorem countDiscarded_motor (s : State) (n : Nat) : (countDiscarded s n).motor = s.motor := rfl

@[simp] theorem countDiscarded_seq (s : State) (n : Nat) : (countDiscarded s n).seq = s.seq := rfl

@[simp] theorem countDiscarded_now (s : State) (n : Nat) : (countDiscarded s n).now = s.now := rfl

@[simp] theorem countDiscarded_store (s : State) (n : Nat) : (countDiscarded s n).store = s.store := rfl

@[simp] theorem writeStands_load (s : State) (w : PWrite) (t : Stamp) (old : PVal) (count : Nat) : (writeStands s w t old count).load = s.load := by
  unfold writeStands
  split <;> simp [State.onPoints]

@[simp] theorem writeStands_light_string (s : State) (w : PWrite) (t : Stamp) (old : PVal) (count : Nat) : (writeStands s w t old count).light.string = s.light.string := by
  unfold writeStands
  split <;> simp [State.onPoints]

@[simp] theorem writeStands_motor (s : State) (w : PWrite) (t : Stamp) (old : PVal) (count : Nat) : (writeStands s w t old count).motor = s.motor := by
  unfold writeStands
  split <;> simp [State.onPoints]

@[simp] theorem writeStands_seq (s : State) (w : PWrite) (t : Stamp) (old : PVal) (count : Nat) : (writeStands s w t old count).seq = s.seq := by
  unfold writeStands
  split <;> simp [State.onPoints]

@[simp] theorem writeStands_now (s : State) (w : PWrite) (t : Stamp) (old : PVal) (count : Nat) : (writeStands s w t old count).now = s.now := by
  unfold writeStands
  split <;> simp [State.onPoints]

@[simp] theorem writeStands_store (s : State) (w : PWrite) (t : Stamp) (old : PVal) (count : Nat) : (writeStands s w t old count).store = s.store := by
  unfold writeStands
  split <;> simp [State.onPoints]

@[simp] theorem applyWrite_load (s : State) (w : PWrite) : (applyWrite s w).1.load = s.load := by
  unfold applyWrite
  (repeat' split)
  all_goals simp

@[simp] theorem applyWrite_light_string (s : State) (w : PWrite) : (applyWrite s w).1.light.string = s.light.string := by
  unfold applyWrite
  (repeat' split)
  all_goals simp

@[simp] theorem applyWrite_motor (s : State) (w : PWrite) : (applyWrite s w).1.motor = s.motor := by
  unfold applyWrite
  (repeat' split)
  all_goals simp

@[simp] theorem applyWrite_seq (s : State) (w : PWrite) : (applyWrite s w).1.seq = s.seq := by
  unfold applyWrite
  (repeat' split)
  all_goals simp

@[simp] theorem applyWrite_now (s : State) (w : PWrite) : (applyWrite s w).1.now = s.now := by
  unfold applyWrite
  (repeat' split)
  all_goals simp

@[simp] theorem applyWrite_store (s : State) (w : PWrite) : (applyWrite s w).1.store = s.store := by
  unfold applyWrite
  (repeat' split)
  all_goals simp

@[simp] theorem writePoint_load (s : State) (w : PWrite) : (writePoint s w).1.load = s.load := by
  unfold writePoint
  split <;> simp

@[simp] theorem writePoint_light_string (s : State) (w : PWrite) : (writePoint s w).1.light.string = s.light.string := by
  unfold writePoint
  split <;> simp

@[simp] theorem writePoint_motor (s : State) (w : PWrite) : (writePoint s w).1.motor = s.motor := by
  unfold writePoint
  split <;> simp

@[simp] theorem writePoint_seq (s : State) (w : PWrite) : (writePoint s w).1.seq = s.seq := by
  unfold writePoint
  split <;> simp

@[simp] theorem writePoint_now (s : State) (w : PWrite) : (writePoint s w).1.now = s.now := by
  unfold writePoint
  split <;> simp

@[simp] theorem writePoint_store (s : State) (w : PWrite) : (writePoint s w).1.store = s.store := by
  unfold writePoint
  split <;> simp

@[simp] theorem directWrite_load (s : State) (p : Packet) (pt : Nat) (v : PVal) : (directWrite s p pt v).1.load = s.load := by simp [directWrite]

@[simp] theorem directWrite_light_string (s : State) (p : Packet) (pt : Nat) (v : PVal) :
    (directWrite s p pt v).1.light.string = s.light.string := by simp [directWrite]

@[simp] theorem directWrite_motor (s : State) (p : Packet) (pt : Nat) (v : PVal) : (directWrite s p pt v).1.motor = s.motor := by simp [directWrite]

@[simp] theorem directWrite_seq (s : State) (p : Packet) (pt : Nat) (v : PVal) : (directWrite s p pt v).1.seq = s.seq := by simp [directWrite]

@[simp] theorem directWrite_now (s : State) (p : Packet) (pt : Nat) (v : PVal) : (directWrite s p pt v).1.now = s.now := by simp [directWrite]

@[simp] theorem directWrite_store (s : State) (p : Packet) (pt : Nat) (v : PVal) : (directWrite s p pt v).1.store = s.store := by simp [directWrite]

end Sys2Proof.Machine

namespace Sys2Proof.Machine

open Sys2Proof.Claims

/-! What the operations of half-bridges, valves and feeds leave as it is. -/

@[simp] theorem onHb_light_string (s : State) (m : Nat) (f : Hb → Hb) : (s.onHb m f).light.string = s.light.string := rfl

@[simp] theorem onValve_load (s : State) (v : Nat) (f : Valve → Valve) : (s.onValve v f).load = s.load := rfl

@[simp] theorem onValve_light_string (s : State) (v : Nat) (f : Valve → Valve) : (s.onValve v f).light.string = s.light.string := rfl

@[simp] theorem onValve_motor_hb (s : State) (v : Nat) (f : Valve → Valve) : (s.onValve v f).motor.hb = s.motor.hb := rfl

@[simp] theorem onFeed_load (s : State) (f : Nat) (g : Feed → Feed) : (s.onFeed f g).load = s.load := rfl

@[simp] theorem onFeed_light_string (s : State) (f : Nat) (g : Feed → Feed) : (s.onFeed f g).light.string = s.light.string := rfl

@[simp] theorem onFeed_motor_hb (s : State) (f : Nat) (g : Feed → Feed) : (s.onFeed f g).motor.hb = s.motor.hb := rfl

@[simp] theorem observe_light_string (s : State) (h idx : Nat) (writes : List (Nat × PVal)) (events : List Ev) (caps : List CapRecord) :
    (observe s h idx writes events caps).light.string = s.light.string := by rw [observe_only]

@[simp] theorem observe_motor (s : State) (h idx : Nat) (writes : List (Nat × PVal)) (events : List Ev) (caps : List CapRecord) :
    (observe s h idx writes events caps).motor = s.motor := by rw [observe_only]

@[simp] theorem observePoint_motor (s : State) (h idx pt : Nat) (v : PVal) (events : List Ev) :
    (observePoint s h idx pt v events).motor = s.motor := by simp [observePoint]

@[simp] theorem observePoint_light_string (s : State) (h idx pt : Nat) (v : PVal) (events : List Ev) :
    (observePoint s h idx pt v events).light.string = s.light.string := by simp [observePoint]

@[simp] theorem valveEvent_load (s : State) (kind v value : Nat) : (valveEvent s kind v value).load = s.load := by simp [valveEvent]

@[simp] theorem valveEvent_light_string (s : State) (kind v value : Nat) : (valveEvent s kind v value).light.string = s.light.string := by simp [valveEvent]

@[simp] theorem valveEvent_motor (s : State) (kind v value : Nat) : (valveEvent s kind v value).motor = s.motor := by simp [valveEvent]

@[simp] theorem valveFaultEvent_load (s : State) (o cause detail : Nat) : (valveFaultEvent s o cause detail).load = s.load := by simp [valveFaultEvent]

@[simp] theorem valveFaultEvent_light_string (s : State) (o cause detail : Nat) :
    (valveFaultEvent s o cause detail).light.string = s.light.string := by simp [valveFaultEvent]

@[simp] theorem valveFaultEvent_motor (s : State) (o cause detail : Nat) : (valveFaultEvent s o cause detail).motor = s.motor := by simp [valveFaultEvent]

@[simp] theorem motorEvent_load (s : State) (kind m value : Nat) : (motorEvent s kind m value).load = s.load := by simp [motorEvent]

@[simp] theorem motorEvent_light_string (s : State) (kind m value : Nat) : (motorEvent s kind m value).light.string = s.light.string := by simp [motorEvent]

@[simp] theorem motorEvent_motor (s : State) (kind m value : Nat) : (motorEvent s kind m value).motor = s.motor := by simp [motorEvent]

@[simp] theorem countDrive_load (s : State) (m : Nat) : (countDrive s m).load = s.load := rfl

@[simp] theorem countDrive_light_string (s : State) (m : Nat) : (countDrive s m).light.string = s.light.string := rfl

@[simp] theorem zeroMotorPoint_load (s : State) (m : Nat) : (zeroMotorPoint s m).load = s.load := by
  unfold zeroMotorPoint
  (repeat' split)
  all_goals simp

@[simp] theorem zeroMotorPoint_light_string (s : State) (m : Nat) : (zeroMotorPoint s m).light.string = s.light.string := by
  unfold zeroMotorPoint
  (repeat' split)
  all_goals simp

@[simp] theorem zeroMotorPoint_motor (s : State) (m : Nat) : (zeroMotorPoint s m).motor = s.motor := by
  unfold zeroMotorPoint
  (repeat' split)
  all_goals simp

@[simp] theorem completeRun_load (s : State) (m cause : Nat) : (completeRun s m cause).load = s.load := by
  unfold completeRun
  dsimp only
  (repeat' split)
  all_goals simp [State.onHb, State.onMotor]

@[simp] theorem completeRun_light_string (s : State) (m cause : Nat) : (completeRun s m cause).light.string = s.light.string := by
  unfold completeRun
  dsimp only
  (repeat' split)
  all_goals simp [State.onHb, State.onMotor]

@[simp] theorem cutRun_load (s : State) (m cause : Nat) : (cutRun s m cause).load = s.load := by
  unfold cutRun
  dsimp only
  split <;> simp

@[simp] theorem cutRun_light_string (s : State) (m cause : Nat) : (cutRun s m cause).light.string = s.light.string := by
  unfold cutRun
  dsimp only
  split <;> simp

@[simp] theorem setDrive_load (s : State) (m : Nat) (d : Drive) : (setDrive s m d).load = s.load := by
  unfold setDrive
  dsimp only
  split <;> simp

@[simp] theorem setDrive_light_string (s : State) (m : Nat) (d : Drive) : (setDrive s m d).light.string = s.light.string := by
  unfold setDrive
  dsimp only
  split <;> simp

@[simp] theorem coastNow_load (s : State) (m : Nat) : (coastNow s m).load = s.load := by simp [coastNow]

@[simp] theorem coastNow_light_string (s : State) (m : Nat) : (coastNow s m).light.string = s.light.string := by simp [coastNow]

@[simp] theorem terminalOff_load (s : State) (k runCause : Nat) : (terminalOff s k runCause).load = s.load := by
  unfold terminalOff
  exact foldl_keeps State.load _ (fun _ _ => by simp) _ _

@[simp] theorem reportHb_load (s : State) (m cause detail : Nat) : (reportHb s m cause detail).load = s.load := by
  unfold reportHb
  dsimp only
  split <;> simp

@[simp] theorem reportHb_light_string (s : State) (m cause detail : Nat) : (reportHb s m cause detail).light.string = s.light.string := by
  unfold reportHb
  dsimp only
  split <;> simp

@[simp] theorem bumpSnapshot_light_string (s : State) : (bumpSnapshot s).light.string = s.light.string := by
  unfold bumpSnapshot
  split <;> rfl

@[simp] theorem bumpSnapshot_motor (s : State) : (bumpSnapshot s).motor = s.motor := by
  unfold bumpSnapshot
  split <;> rfl

@[simp] theorem holdHb_load (s : State) (m cause detail : Nat) : (holdHb s m cause detail).load = s.load := by simp [holdHb]

@[simp] theorem endHbCause_light_string (s : State) (m cause : Nat) : (endHbCause s m cause).light.string = s.light.string := by
  unfold endHbCause
  split <;> simp

@[simp] theorem endHoldHb_load (s : State) (m cause : Nat) : (endHoldHb s m cause).load = s.load := by
  unfold endHoldHb
  split <;> simp

@[simp] theorem endHoldHb_light_string (s : State) (m cause : Nat) : (endHoldHb s m cause).light.string = s.light.string := by
  unfold endHoldHb
  split <;> simp

@[simp] theorem endFire_load (s : State) (v : Nat) (st : Status) : (endFire s v st).load = s.load := rfl

@[simp] theorem endFire_light_string (s : State) (v : Nat) (st : Status) : (endFire s v st).light.string = s.light.string := rfl

@[simp] theorem endFire_motor_hb (s : State) (v : Nat) (st : Status) : (endFire s v st).motor.hb = s.motor.hb := rfl

@[simp] theorem valveDone_load (s : State) (v : Nat) (st : Status) (clampDuJ : Nat) : (valveDone s v st clampDuJ).load = s.load := by
  unfold valveDone
  dsimp only
  (repeat' split)
  all_goals simp [State.onMotor, State.onValve]

@[simp] theorem valveDone_light_string (s : State) (v : Nat) (st : Status) (clampDuJ : Nat) : (valveDone s v st clampDuJ).light.string = s.light.string := by
  unfold valveDone
  dsimp only
  (repeat' split)
  all_goals simp [State.onMotor, State.onValve]

@[simp] theorem setFeed_load (s : State) (f : Nat) (on : Bool) : (setFeed s f on).load = s.load := by
  unfold setFeed
  split <;> simp

@[simp] theorem setFeed_light_string (s : State) (f : Nat) (on : Bool) : (setFeed s f on).light.string = s.light.string := by
  unfold setFeed
  split <;> simp

@[simp] theorem setFeed_motor_hb (s : State) (f : Nat) (on : Bool) : (setFeed s f on).motor.hb = s.motor.hb := by
  unfold setFeed
  split <;> simp

@[simp] theorem reportFeed_load (s : State) (f cause detail : Nat) : (reportFeed s f cause detail).load = s.load := by
  unfold reportFeed
  dsimp only
  split <;> simp

@[simp] theorem reportFeed_light_string (s : State) (f cause detail : Nat) : (reportFeed s f cause detail).light.string = s.light.string := by
  unfold reportFeed
  dsimp only
  split <;> simp

@[simp] theorem reportFeed_motor_hb (s : State) (f cause detail : Nat) : (reportFeed s f cause detail).motor.hb = s.motor.hb := by
  unfold reportFeed
  dsimp only
  split <;> simp

@[simp] theorem endFeedCause_load (s : State) (f cause : Nat) : (endFeedCause s f cause).load = s.load := by
  unfold endFeedCause
  split <;> simp

@[simp] theorem endFeedCause_light_string (s : State) (f cause : Nat) : (endFeedCause s f cause).light.string = s.light.string := by
  unfold endFeedCause
  split <;> simp

@[simp] theorem endFeedCause_motor_hb (s : State) (f cause : Nat) : (endFeedCause s f cause).motor.hb = s.motor.hb := by
  unfold endFeedCause
  split <;> simp

@[simp] theorem endHoldFeed_load (s : State) (f cause : Nat) : (endHoldFeed s f cause).load = s.load := by
  unfold endHoldFeed
  split <;> simp

@[simp] theorem endHoldFeed_light_string (s : State) (f cause : Nat) : (endHoldFeed s f cause).light.string = s.light.string := by
  unfold endHoldFeed
  split <;> simp

@[simp] theorem endHoldFeed_motor_hb (s : State) (f cause : Nat) : (endHoldFeed s f cause).motor.hb = s.motor.hb := by
  unfold endHoldFeed
  split <;> simp

@[simp] theorem terminalOff_light_string (s : State) (k runCause : Nat) : (terminalOff s k runCause).light.string = s.light.string := by
  unfold terminalOff
  refine foldl_keeps (fun u : State => u.light.string) _ (fun u m => ?_) _ s
  simp

@[simp] theorem holdHb_light_string (s : State) (m cause detail : Nat) : (holdHb s m cause detail).light.string = s.light.string := by simp [holdHb]

@[simp] theorem valveDone_motor_hb (s : State) (v : Nat) (st : Status) (clampDuJ : Nat) : (valveDone s v st clampDuJ).motor.hb = s.motor.hb := by
  unfold valveDone
  dsimp only
  generalize hu : State.onMotor _ _ = u
  have hkeep : u.motor.hb = s.motor.hb := by
    rw [← hu, onMotor_motor]
    split <;> simp
  repeat' split
  all_goals simp [hkeep]

/-- A feed that stops keeps what the ends of its fires, their completions and the feed itself keep (R173). -/
theorem stopFeed_keeps {γ : Type} (g : State → γ) (s : State) (f : Nat) (st : Status) (hend : ∀ u v, g (endFire u v st) = g u)
    (hdone : ∀ u v, g (valveDone u v st 0) = g u) (hfeed : ∀ u v, g (State.onFeed u f fun x => { x with queue := x.queue.filter (· != v) }) = g u) (hset : ∀ u, g (setFeed u f false) = g u) :
    g (stopFeed s f st) = g s := by
  unfold stopFeed
  dsimp only
  rw [hset]
  refine foldl_keeps g _ (fun u v => ?_) _ s
  split_ifs <;> simp [hend, hdone, hfeed]

@[simp] theorem stopFeed_load (s : State) (f : Nat) (st : Status) : (stopFeed s f st).load = s.load :=
  stopFeed_keeps State.load s f st (by simp) (by simp) (by simp) (by simp)

@[simp] theorem stopFeed_light_string (s : State) (f : Nat) (st : Status) : (stopFeed s f st).light.string = s.light.string :=
  stopFeed_keeps (fun u => u.light.string) s f st (by simp) (by simp) (by simp) (by simp)

@[simp] theorem stopFeed_motor_hb (s : State) (f : Nat) (st : Status) : (stopFeed s f st).motor.hb = s.motor.hb :=
  stopFeed_keeps (fun u => u.motor.hb) s f st (by simp) (by simp) (by simp) (by simp)

@[simp] theorem holdFeed_load (s : State) (f cause detail : Nat) : (holdFeed s f cause detail).load = s.load := by simp [holdFeed]

@[simp] theorem holdFeed_light_string (s : State) (f cause detail : Nat) : (holdFeed s f cause detail).light.string = s.light.string := by
  simp [holdFeed]

@[simp] theorem holdFeed_motor_hb (s : State) (f cause detail : Nat) : (holdFeed s f cause detail).motor.hb = s.motor.hb := by simp [holdFeed]

/-! Holds of half-bridges and feeds (R55, R153, R173). -/

/-- What holds a half-bridge, and how it drives. -/
def Hb.held (x : Hb) : Cond × Drive := (x.cond, x.drive)

theorem hbOf_of_hb {s t : State} (h : t.motor.hb = s.motor.hb) (k : Nat) : hbOf t k = hbOf s k := by simp only [hbOf, h]

theorem held_onHb (s : State) (m k : Nat) (f : Hb → Hb) (hf : ∀ x, (f x).held = x.held) : (hbOf (s.onHb m f) k).held = (hbOf s k).held :=
  vget_vmod_proj s.motor.hb m k f Hb.held hf

theorem held_turn (x : Hb) (now ticks : Nat) (old new : Option Bool) : (x.turn now ticks old new).held = x.held := by
  unfold Hb.turn
  dsimp only
  split_ifs <;> rfl

theorem held_countDrive (s : State) (m k : Nat) : (hbOf (countDrive s m) k).held = (hbOf s k).held := held_onHb _ _ _ _ fun _ => rfl

theorem held_completeRun (s : State) (m cause k : Nat) : (hbOf (completeRun s m cause) k).held = (hbOf s k).held := by
  unfold completeRun
  dsimp only
  split
  · rfl
  · rw [← held_onHb s m k (fun x => { x with run := none }) fun _ => rfl]
    split_ifs
    · rfl
    · rw [hbOf_of_hb]
      simp
    · rw [hbOf_of_hb]
      simp

theorem held_cutRun (s : State) (m cause k : Nat) : (hbOf (cutRun s m cause) k).held = (hbOf s k).held := by
  unfold cutRun
  dsimp only
  rw [held_completeRun, ← held_countDrive s m k]
  split
  · rfl
  · rw [hbOf_of_hb]
    simp

/-- A motor takes its state, and no other motor's changes. -/
theorem held_setDrive (s : State) (m k : Nat) (d : Drive) (h : m < 12) :
    (hbOf (setDrive s m d) k).held = if m = k then ((hbOf s k).cond, d) else (hbOf s k).held := by
  unfold setDrive
  dsimp only
  generalize hu : (if (motorCfg s m).defined = true ∧ (motorCfg s m).b ≠ 15 then _ else s : State) = u
  have hturn (j : Nat) : (hbOf u j).held = (hbOf s j).held := by
    rw [← hu]
    split
    · exact held_onHb _ _ _ _ fun x => held_turn x _ _ _ _
    · rfl
  have hcond : ((hbOf u m).turn u.now (deadTicks (motorCfg s m)) (hbOf s m).drive.sideA d.sideA).cond = (hbOf s m).cond :=
    congrArg Prod.fst ((held_turn ..).trans (hturn m))
  by_cases hk : m = k
  · rw [if_pos hk, ← hk, onHb_same _ _ _ h]
    split
    · exact congrArg (·, d) hcond
    · exact congrArg (·, d) hcond
  · rw [if_neg hk, onHb_other _ _ _ _ hk, hturn]

theorem held_coastNow (s : State) (m k : Nat) (h : m < 12) :
    (hbOf (coastNow s m) k).held = if m = k then ((hbOf s k).cond, .coast) else (hbOf s k).held := by
  unfold coastNow
  rw [held_onHb]
  · exact held_setDrive s m k .coast h
  · exact fun _ => rfl

/-- A motor that a terminal serves goes off with it: its run is cut and it coasts (R153). -/
def motorOff (runCause : Nat) (s : State) (m : Nat) : State :=
  (coastNow (cutRun s m runCause) m).onHb m fun x => { x with waitsDrive := true }

theorem terminalOff_eq (s : State) (k runCause : Nat) :
    terminalOff s k runCause = (k :: (motorsOn s k).filter (· != k)).foldl (motorOff runCause) s := rfl

theorem held_motorOff (s : State) (runCause m k : Nat) (h : m < 12) :
    (hbOf (motorOff runCause s m) k).held = if m = k then ((hbOf s k).cond, .coast) else (hbOf s k).held := by
  have hcut := held_cutRun s m runCause k
  unfold motorOff
  rw [held_onHb, held_coastNow _ _ _ h]
  · split
    · exact congrArg (fun x : Cond × Drive => (x.1, Drive.coast)) hcut
    · exact hcut
  · exact fun _ => rfl

/-- A motor that goes off leaves every condition as it is and coasts; those that coast go on so. -/
theorem motorOff_coasts (s : State) (runCause m k : Nat) (h : m < 12) : (hbOf (motorOff runCause s m) k).cond = (hbOf s k).cond ∧
    (k = m ∨ (hbOf s k).drive = .coast → (hbOf (motorOff runCause s m) k).drive = .coast) := by
  have hheld := held_motorOff s runCause m k h
  split at hheld
  · exact ⟨(congrArg Prod.fst hheld :), fun _ => (congrArg Prod.snd hheld :)⟩
  · next hk =>
    exact ⟨(congrArg Prod.fst hheld :), fun hcoast => Eq.trans (congrArg Prod.snd hheld :) (hcoast.resolve_left fun he => hk he.symm)⟩

theorem motorsOff_coast (runCause k : Nat) (l : List Nat) : ∀ s : State, (∀ m ∈ l, m < 12) →
    (hbOf (l.foldl (motorOff runCause) s) k).cond = (hbOf s k).cond ∧
    (k ∈ l ∨ (hbOf s k).drive = .coast → (hbOf (l.foldl (motorOff runCause) s) k).drive = .coast) := by
  induction l with
  | nil => exact fun s _ => ⟨rfl, fun h => h.resolve_left List.not_mem_nil⟩
  | cons m l ih =>
    intro s hl
    obtain ⟨hcond, hdrive⟩ := motorOff_coasts s runCause m k (hl m List.mem_cons_self)
    obtain ⟨hcond', hdrive'⟩ := ih (motorOff runCause s m) fun x hx => hl x (List.mem_cons_of_mem _ hx)
    refine ⟨hcond'.trans hcond, fun h => hdrive' ?_⟩
    obtain hin | hcoast := h
    · obtain rfl | hin := List.mem_cons.1 hin
      · exact .inr (hdrive (.inl rfl))
      · exact .inl hin
    · exact .inr (hdrive (.inr hcoast))

/-- A terminal that goes off leaves every condition as it is, and its half-bridge coasts; those that coast go on so (R153). -/
theorem terminalOff_coasts (s : State) (j runCause k : Nat) (hj : j < 12) : (hbOf (terminalOff s j runCause) k).cond = (hbOf s k).cond ∧
    (k = j ∨ (hbOf s k).drive = .coast → (hbOf (terminalOff s j runCause) k).drive = .coast) := by
  obtain ⟨hcond, hdrive⟩ := motorsOff_coast runCause k (j :: (motorsOn s j).filter (· != j)) s fun m hm => by
    obtain rfl | hm := List.mem_cons.1 hm
    · exact hj
    · exact List.mem_range.1 (List.mem_of_mem_filter (List.mem_of_mem_filter hm))
  rw [terminalOff_eq]
  exact ⟨hcond, fun h => hdrive (h.imp (fun he : k = j => he ▸ List.mem_cons_self) id)⟩

/-- A half-bridge is held with a cause and coasts. -/
def Hb.heldOff (x : Hb) (cause : Nat) : Prop := x.cond.holds.testBit cause = true ∧ x.drive = .coast

@[simp] theorem hbOf_observe (s : State) (h idx : Nat) (w : List (Nat × PVal)) (es : List Ev) (caps : List CapRecord) (k : Nat) :
    hbOf (observe s h idx w es caps) k = hbOf s k := hbOf_of_hb (by simp) k

@[simp] theorem hbOf_bumpSnapshot (s : State) (k : Nat) : hbOf (bumpSnapshot s) k = hbOf s k := hbOf_of_hb (by simp) k

/-- A report changes no hold and no drive. -/
theorem hb_reportHb (s : State) (m cause detail k : Nat) : (hbOf (reportHb s m cause detail) k).cond.holds = (hbOf s k).cond.holds ∧
    (hbOf (reportHb s m cause detail) k).drive = (hbOf s k).drive := by
  unfold reportHb
  dsimp only
  split
  · rw [hbOf_observe]
    exact ⟨vget_vmod_proj s.motor.hb m k _ (fun x => x.cond.holds) fun _ => rfl, vget_vmod_proj s.motor.hb m k _ Hb.drive fun _ => rfl⟩
  · exact ⟨vget_vmod_proj s.motor.hb m k _ (fun x => x.cond.holds) fun _ => rfl, vget_vmod_proj s.motor.hb m k _ Hb.drive fun _ => rfl⟩

/-- A half-bridge that is held is off, and those that are held and off stay so (R153). -/
theorem holdHb_heldOff (s : State) (m cause detail k : Nat) (h : m < 12) (hk : k = m ∨ (hbOf s k).heldOff cause) :
    (hbOf (holdHb s m cause detail) k).heldOff cause := by
  obtain ⟨hholds, hdrive⟩ := hb_reportHb s m cause detail k
  unfold holdHb
  dsimp only
  generalize hu : (reportHb s m cause detail).onHb m _ = u
  obtain ⟨hcond, hcoast⟩ := terminalOff_coasts u m (if cause = 6 then 8 else 6) k h
  have hheld : (hbOf u k).cond.holds.testBit cause = true := by
    by_cases hm : m = k
    · simp [← hu, ← hm, h, Cond.hold]
    · rw [← hu, onHb_other _ _ _ _ hm, hholds]
      exact (hk.resolve_left fun he => hm he.symm).1
  have hsame : (hbOf u k).drive = (hbOf s k).drive := by
    rw [← hu, ← hdrive]
    exact vget_vmod_proj _ m k _ Hb.drive fun _ => rfl
  rw [hbOf_bumpSnapshot]
  exact ⟨by rw [hcond, hheld], hcoast (hk.imp id fun hoff => hsame.trans hoff.2)⟩

/-- A feed is held with a cause and off. -/
def Feed.heldOff (x : Feed) (cause : Nat) : Prop := x.cond.holds.testBit cause = true ∧ x.on = false

theorem feedOf_of_feed {s t : State} (h : t.motor.feed = s.motor.feed) (k : Nat) : feedOf t k = feedOf s k := by simp only [feedOf, h]

@[simp] theorem feedOf_observe (s : State) (h idx : Nat) (w : List (Nat × PVal)) (es : List Ev) (caps : List CapRecord) (k : Nat) :
    feedOf (observe s h idx w es caps) k = feedOf s k := feedOf_of_feed (by simp) k

@[simp] theorem feedOf_observePoint (s : State) (h idx pt : Nat) (v : PVal) (es : List Ev) (k : Nat) :
    feedOf (observePoint s h idx pt v es) k = feedOf s k := feedOf_of_feed (by simp) k

@[simp] theorem feedOf_bumpSnapshot (s : State) (k : Nat) : feedOf (bumpSnapshot s) k = feedOf s k := feedOf_of_feed (by simp) k

theorem valveDone_motor_feed (s : State) (v : Nat) (st : Status) (clampDuJ : Nat) : (valveDone s v st clampDuJ).motor.feed = s.motor.feed := by
  unfold valveDone
  dsimp only
  generalize hu : State.onMotor _ _ = u
  have hkeep : u.motor.feed = s.motor.feed := by
    rw [← hu, onMotor_motor]
    split <;> rfl
  repeat' split
  all_goals simp [hkeep]

/-- The ends of a feed's fires leave the conditions of the feeds as they are, and the feed goes off; no other feed does (R173). -/
theorem feed_stopFeed (s : State) (f k : Nat) (st : Status) (hf : f < 2) : (feedOf (stopFeed s f st) k).cond = (feedOf s k).cond ∧
    (k = f ∨ (feedOf s k).on = false → (feedOf (stopFeed s f st) k).on = false) := by
  have hcond : (feedOf (stopFeed s f st) k).cond = (feedOf s k).cond := by
    refine stopFeed_keeps (fun u => (feedOf u k).cond) s f st (fun _ _ => rfl) (fun u v => ?_) (fun u v => ?_) fun u => ?_
    · rw [feedOf_of_feed (valveDone_motor_feed ..)]
    · exact vget_vmod_proj u.motor.feed f k _ Feed.cond fun _ => rfl
    · unfold setFeed
      split
      · rfl
      · rw [feedOf_observePoint]
        exact vget_vmod_proj u.motor.feed f k _ Feed.cond fun _ => rfl
  refine ⟨hcond, fun hoff => ?_⟩
  by_cases hk : k = f
  · subst hk
    unfold stopFeed setFeed
    dsimp only
    split
    · assumption
    · simp [hf]
  · refine (stopFeed_keeps (fun u => (feedOf u k).on) s f st (fun _ _ => rfl) (fun u v => ?_) (fun u v => ?_) fun u => ?_).trans
      (hoff.resolve_left hk)
    · rw [feedOf_of_feed (valveDone_motor_feed ..)]
    · exact vget_vmod_proj u.motor.feed f k _ Feed.on fun _ => rfl
    · unfold setFeed
      split
      · rfl
      · rw [feedOf_observePoint, onFeed_other _ _ _ _ (Ne.symm hk)]

theorem feed_reportFeed (s : State) (f cause detail k : Nat) : (feedOf (reportFeed s f cause detail) k).cond.holds = (feedOf s k).cond.holds ∧
    (feedOf (reportFeed s f cause detail) k).on = (feedOf s k).on := by
  unfold reportFeed
  dsimp only
  split
  · rw [feedOf_of_feed (congrArg MotorDie.feed (valveFaultEvent_motor ..))]
    exact ⟨vget_vmod_proj s.motor.feed f k _ (fun x => x.cond.holds) fun _ => rfl, vget_vmod_proj s.motor.feed f k _ Feed.on fun _ => rfl⟩
  · exact ⟨vget_vmod_proj s.motor.feed f k _ (fun x => x.cond.holds) fun _ => rfl, vget_vmod_proj s.motor.feed f k _ Feed.on fun _ => rfl⟩

/-- A feed that is held is off, and one that is held and off stays so (R173). -/
theorem holdFeed_heldOff (s : State) (f cause detail k : Nat) (h : f < 2) (hk : k = f ∨ (feedOf s k).heldOff cause) :
    (feedOf (holdFeed s f cause detail) k).heldOff cause := by
  obtain ⟨hholds, hon⟩ := feed_reportFeed s f cause detail k
  unfold holdFeed
  dsimp only
  generalize hu : (reportFeed s f cause detail).onFeed f _ = u
  obtain ⟨hcond, hoff⟩ := feed_stopFeed u f k (if cause = 6 then .thermal else .supply) h
  have hheld : (feedOf u k).cond.holds.testBit cause = true := by
    by_cases hf : f = k
    · simp [← hu, ← hf, h, Cond.hold]
    · rw [← hu, onFeed_other _ _ _ _ hf, hholds]
      exact (hk.resolve_left fun he => hf he.symm).1
  have hsame : (feedOf u k).on = (feedOf s k).on := by
    rw [← hu, ← hon]
    exact vget_vmod_proj _ f k _ Feed.on fun _ => rfl
  rw [feedOf_bumpSnapshot]
  exact ⟨by rw [hcond, hheld], hoff (hk.imp id fun hheld => hsame.trans hheld.2)⟩

/-- A run of operations over a list brings each of its members to a property that the operations on others keep. -/
theorem foldl_reaches {α β : Type} {P : α → β → Prop} {f : α → β → α} {l : List β} (hstep : ∀ s, ∀ j ∈ l, ∀ k, k = j ∨ P s k → P (f s j) k)
    (s : α) (k : β) (hk : k ∈ l ∨ P s k) : P (l.foldl f s) k := by
  induction l generalizing s with
  | nil => exact hk.resolve_left List.not_mem_nil
  | cons j l ih =>
    refine ih (fun s i hi => hstep s i (List.mem_cons_of_mem _ hi)) _ ?_
    obtain hin | hs := hk
    · obtain rfl | hin := List.mem_cons.1 hin
      · exact .inr (hstep s k List.mem_cons_self k (.inl rfl))
      · exact .inl hin
    · exact .inr (hstep s j List.mem_cons_self k (.inr hs))

end Sys2Proof.Machine

namespace Sys2Proof.Machine

open Sys2Proof.Claims

@[simp] theorem loadEvent_light_string (s : State) (kind ch value : Nat) : (loadEvent s kind ch value).light.string = s.light.string := by simp [loadEvent]

@[simp] theorem onChan_light_string (s : State) (ch : Nat) (f : Chan → Chan) : (s.onChan ch f).light.string = s.light.string := rfl

@[simp] theorem onCond_light_string (s : State) (ch : Nat) (f : Cond → Cond) : (s.onCond ch f).light.string = s.light.string := rfl

@[simp] theorem onBank_light_string (s : State) (b : Nat) (f : Bank → Bank) : (s.onBank b f).light.string = s.light.string := rfl

@[simp] theorem noteFreeze_light_string (s : State) (b : Nat) : (noteFreeze s b).light.string = s.light.string := rfl

@[simp] theorem noteFreeze_load_ch (s : State) (b : Nat) : (noteFreeze s b).load.ch = s.load.ch := rfl

@[simp] theorem updateChan_light_string (s : State) (ch : Nat) : (updateChan s ch).light.string = s.light.string := by
  unfold updateChan
  dsimp only
  split_ifs <;> simp

@[simp] theorem reportCause_light_string (s : State) (ch cause detail : Nat) : (reportCause s ch cause detail).light.string = s.light.string := by
  unfold reportCause
  dsimp only
  split <;> simp

@[simp] theorem endCause_light_string (s : State) (ch cause : Nat) : (endCause s ch cause).light.string = s.light.string := by
  unfold endCause
  split <;> simp

@[simp] theorem lockChan_light_string (s : State) (ch cause detail : Nat) : (lockChan s ch cause detail).light.string = s.light.string := by simp [lockChan]

@[simp] theorem stopRetry_light_string (s : State) (ch : Nat) : (stopRetry s ch).light.string = s.light.string := by
  unfold stopRetry
  dsimp only
  split <;> simp

@[simp] theorem holdChan_light_string (s : State) (ch cause detail : Nat) : (holdChan s ch cause detail).light.string = s.light.string := by simp [holdChan]

@[simp] theorem endHoldChan_light_string (s : State) (ch cause : Nat) : (endHoldChan s ch cause).light.string = s.light.string := by
  unfold endHoldChan
  split <;> simp

@[simp] theorem resumeChan_light_string (s : State) (ch cause : Nat) : (resumeChan s ch cause).light.string = s.light.string := by
  unfold resumeChan
  dsimp only
  split_ifs <;> simp

@[simp] theorem leaveQueue_light_string (s : State) (ch : Nat) : (leaveQueue s ch).light.string = s.light.string := rfl

@[simp] theorem leaveQueue_load_ch (s : State) (ch : Nat) : (leaveQueue s ch).load.ch = s.load.ch := rfl

@[simp] theorem onString_load (s : State) (n : Nat) (f : Strg → Strg) : (s.onString n f).load = s.load := rfl

@[simp] theorem onStrCond_load (s : State) (n : Nat) (f : Cond → Cond) : (s.onStrCond n f).load = s.load := rfl

@[simp] theorem reportString_load (s : State) (n cause detail : Nat) (fresh : Bool) : (reportString s n cause detail fresh).load = s.load := by
  unfold reportString
  split <;> simp

@[simp] theorem endString_load (s : State) (n cause : Nat) : (endString s n cause).load = s.load := by
  unfold endString
  split <;> simp

@[simp] theorem updateString_load_ch (s : State) (n : Nat) : (updateString s n).load.ch = s.load.ch := by
  unfold updateString
  dsimp only
  split_ifs <;> simp

@[simp] theorem holdString_load_ch (s : State) (n cause detail : Nat) : (holdString s n cause detail).load.ch = s.load.ch := by simp [holdString]

@[simp] theorem endHoldString_load_ch (s : State) (n cause : Nat) : (endHoldString s n cause).load.ch = s.load.ch := by
  unfold endHoldString
  split <;> simp

@[simp] theorem resumeString_load_ch (s : State) (n cause : Nat) : (resumeString s n cause).load.ch = s.load.ch := by
  unfold resumeString
  dsimp only
  split_ifs <;> simp


/-! Holds of the outputs of a bank (R53, R55, R56). -/

theorem chanOf_of_ch {s t : State} (h : t.load.ch = s.load.ch) (k : Nat) : chanOf t k = chanOf s k := by simp only [chanOf, h]

/-- The strings stand in the light part of the state. -/
theorem stringOf_of_string {s t : State} (h : t.light.string = s.light.string) (k : Nat) : stringOf t k = stringOf s k := by
  simp only [stringOf, h]

/-- What a bank holds beside the count of its dips and its resume queue. -/
def Bank.beyondQueue (b : Bank) : Bank := { b with dipCounted := false, dips := 0, resumeQ := [], resumeAt := 0 }

theorem beyondQueue_of_beyondDips {x y : Bank} (h : x.beyondDips = y.beyondDips) : x.beyondQueue = y.beyondQueue :=
  congrArg (fun b : Bank => { b with resumeQ := [], resumeAt := 0 }) h

theorem beyondQueue_leaveQueue (s : State) (ch b : Nat) : (bankAt (leaveQueue s ch) b).beyondQueue = (bankAt s b).beyondQueue :=
  vget_vmod_proj s.load.bank (bankOf ch) b _ Bank.beyondQueue fun _ => rfl

theorem beyondDips_updateString (s : State) (n b : Nat) : (bankAt (updateString s n) b).beyondDips = (bankAt s b).beyondDips := by
  unfold updateString
  dsimp only
  split_ifs
  · rfl
  · rfl
  · exact beyondDips_noteFreeze ..
  · rfl
  · rfl

theorem bankAt_reportString (s : State) (n cause detail b : Nat) (fresh : Bool) :
    bankAt (reportString s n cause detail fresh) b = bankAt s b := bankAt_of_load (by simp) b

theorem beyondDips_holdString (s : State) (n cause detail b : Nat) :
    (bankAt (holdString s n cause detail) b).beyondDips = (bankAt s b).beyondDips := by
  unfold holdString
  dsimp only
  rw [bankAt_bumpSnapshot, beyondDips_updateString, bankAt_of_load (onStrCond_load ..), bankAt_reportString]

theorem bankAt_endHoldString (s : State) (n cause b : Nat) : bankAt (endHoldString s n cause) b = bankAt s b := by
  unfold endHoldString
  split
  · exact (bankAt_of_load (onStrCond_load ..) b).trans (bankAt_of_load (endString_load ..) b)
  · rfl

theorem beyondDips_resumeString (s : State) (n cause b : Nat) : (bankAt (resumeString s n cause) b).beyondDips = (bankAt s b).beyondDips := by
  unfold resumeString
  dsimp only
  split
  · rw [beyondDips_updateString]
    split
    · rw [bankAt_loadEvent]
      rfl
    · rfl
  · rfl

theorem cond_onStrCond (s : State) (n k : Nat) (f : Cond → Cond) (h : n < 4) :
    (stringOf (s.onStrCond n f) k).cond = if k = n then f (stringOf s k).cond else (stringOf s k).cond := by
  split
  · next hk => rw [hk]; exact congrArg Strg.cond (onString_same s n _ h)
  · next hk => exact congrArg Strg.cond (onString_other s n k _ (Ne.symm hk))

theorem cond_updateString (s : State) (n k : Nat) : (stringOf (updateString s n) k).cond = (stringOf s k).cond := by
  unfold updateString
  dsimp only
  split_ifs
  · exact vget_vmod_proj s.light.string n k _ Strg.cond fun _ => rfl
  · exact vget_vmod_proj s.light.string n k _ Strg.cond fun _ => rfl
  · rw [stringOf_of_string (noteFreeze_light_string ..)]
    exact vget_vmod_proj s.light.string n k _ Strg.cond fun _ => rfl
  · exact vget_vmod_proj s.light.string n k _ Strg.cond fun _ => rfl
  · rfl

theorem stringOf_loadEvent (s : State) (kind ch value k : Nat) : stringOf (loadEvent s kind ch value) k = stringOf s k :=
  stringOf_of_string (loadEvent_light_string ..) k

theorem cond_reportString (s : State) (n cause detail k : Nat) (fresh : Bool) (h : n < 4) : (stringOf (reportString s n cause detail fresh) k).cond =
    if k = n then (stringOf s k).cond.report cause else (stringOf s k).cond := by
  unfold reportString
  dsimp only
  refine Eq.trans ?_ (cond_onStrCond s n k (·.report cause) h)
  split
  · rw [stringOf_loadEvent]
    exact congrArg Strg.cond (stringOf_of_string (bump_light_string ..) k)
  · rfl

/-- A held string has its cause among its holds, and no other string changes its holds (R55). -/
theorem holds_holdString (s : State) (n cause detail k : Nat) (h : n < 4) : (stringOf (holdString s n cause detail) k).cond.holds =
    if k = n then setBit (stringOf s k).cond.holds cause true else (stringOf s k).cond.holds := by
  unfold holdString
  dsimp only
  rw [stringOf_of_string (bumpSnapshot_light_string ..), cond_updateString, cond_onStrCond _ _ _ _ h, cond_reportString _ _ _ _ _ _ h]
  split <;> rfl

theorem cond_endString (s : State) (n cause k : Nat) (h : n < 4) : (stringOf (endString s n cause) k).cond.holds = (stringOf s k).cond.holds := by
  unfold endString
  split
  · rw [stringOf_loadEvent, cond_onStrCond _ _ _ _ h]
    split <;> rfl
  · rfl

/-- After the end of a string's hold its bit is clear, and no other string changes its holds (R56). -/
theorem holds_endHoldString (s : State) (n cause k : Nat) (h : n < 4) : (stringOf (endHoldString s n cause) k).cond.holds =
    if k = n then setBit (stringOf s k).cond.holds cause false else (stringOf s k).cond.holds := by
  unfold endHoldString
  split
  · dsimp only
    rw [cond_onStrCond _ _ _ _ h]
    split
    · exact congrArg (setBit · cause false) (cond_endString s n cause k h)
    · exact cond_endString s n cause k h
  · next hfree =>
    split
    · next hk => rw [setBit_false_of_clear _ _ (by simpa [hk] using hfree)]
    · rfl

theorem holds_resumeString (s : State) (n cause k : Nat) :
    (stringOf (resumeString s n cause) k).cond.holds = (stringOf s k).cond.holds := by
  have hwait : (stringOf (s.onStrCond n fun c => { c with waiting := false }) k).cond.holds = (stringOf s k).cond.holds :=
    vget_vmod_proj s.light.string n k _ (fun x => x.cond.holds) fun _ => rfl
  unfold resumeString
  dsimp only
  split
  · rw [cond_updateString]
    split
    · rw [stringOf_loadEvent, hwait]
    · exact hwait
  · rfl

@[simp] theorem stringOf_leaveQueue (s : State) (ch k : Nat) : stringOf (leaveQueue s ch) k = stringOf s k := rfl

/-- An output of a bank is held with a cause, and a channel does not drive. -/
def OutHeld (cause : Nat) (s : State) (ch : Nat) : Prop := (outCond s ch).holds.testBit cause = true ∧ (ch < 56 → (chanOf s ch).driving = false)

theorem outHeld_of_same {s t : State} (hload : t.load.ch = s.load.ch) (hstring : t.light.string = s.light.string) (cause ch : Nat) :
    OutHeld cause t ch ↔ OutHeld cause s ch := by
  simp only [OutHeld, outCond, chanOf_of_ch hload, stringOf_of_string hstring]

/-- An output that is held is off, and those that are held and off stay so (R55). -/
theorem holdOut_held (s : State) (cause j k : Nat) (hj : j < 60) (hk : k = j ∨ OutHeld cause s k) : OutHeld cause (holdOut s cause j) k := by
  unfold holdOut
  dsimp only
  generalize (if cause = 3 then (shedCfg s j).level else 0) = d
  by_cases hchan : j < 56
  · rw [if_pos hchan]
    by_cases he : j = k
    · obtain ⟨hoff, hheld⟩ := chanOf_holdChan (leaveQueue s j) j cause d hchan
      subst he
      exact ⟨by simpa only [outCond, if_pos hchan] using hheld, fun _ => hoff⟩
    · have hout := hk.resolve_left (Ne.symm he)
      have hother := chanOf_holdChan_other (leaveQueue s j) j cause d k he
      have hstring := stringOf_of_string (holdChan_light_string (leaveQueue s j) j cause d) (k - 56)
      simpa only [OutHeld, outCond, hother, chanOf_leaveQueue, hstring, stringOf_leaveQueue] using hout
  · rw [if_neg hchan]
    have hchans := chanOf_of_ch (holdString_load_ch (leaveQueue s j) (j - 56) cause d) k
    by_cases he : j = k
    · subst he
      have hholds := holds_holdString (leaveQueue s j) (j - 56) cause d (j - 56) (by omega)
      exact ⟨by simp only [outCond, if_neg hchan, hholds, if_true, testBit_setBit_same], fun h => absurd h hchan⟩
    · obtain ⟨hheld, hoff⟩ := hk.resolve_left (Ne.symm he)
      refine ⟨?_, fun h => by rw [hchans]; exact hoff h⟩
      by_cases hk56 : k < 56
      · simpa only [outCond, if_pos hk56, hchans, chanOf_leaveQueue] using hheld
      · have hholds := holds_holdString (leaveQueue s j) (j - 56) cause d (k - 56) (by omega)
        rw [if_neg (by omega)] at hholds
        simpa only [outCond, if_neg hk56, hholds, stringOf_leaveQueue] using hheld

theorem beyondQueue_holdOut (s : State) (cause ch b : Nat) : (bankAt (holdOut s cause ch) b).beyondQueue = (bankAt s b).beyondQueue := by
  rw [← beyondQueue_leaveQueue s ch b]
  unfold holdOut
  dsimp only
  split
  · exact beyondQueue_of_beyondDips (beyondDips_holdChan ..)
  · exact beyondQueue_of_beyondDips (beyondDips_holdString ..)

theorem mem_shedOutputs {b ch : Nat} (h : ch ∈ shedOutputs b) : ch < 60 := List.mem_range.1 (List.mem_of_mem_filter h)

/-- A supply condition holds every output of its list (R53, R55). -/
theorem holdScope_held (s : State) (cause : Nat) (chs : List Nat) (whole : Bool) (hchs : ∀ ch ∈ chs, ch < 60) (ch : Nat) (h : ch ∈ chs) :
    OutHeld cause (holdScope s cause chs whole) ch := by
  have hheld : OutHeld cause (chs.foldl (fun s ch => holdOut s cause ch) s) ch :=
    foldl_reaches (P := OutHeld cause) (fun s j hj k hk => holdOut_held s cause j k (hchs j hj) hk) s ch (.inl h)
  unfold holdScope
  dsimp only
  generalize chs.foldl (fun s ch => holdOut s cause ch) s = u at hheld
  split
  · refine (outHeld_of_same ?_ ?_ cause ch).2 hheld
    · rw [foldl_keeps (fun v : State => v.load.ch) _ (fun v f => by simp), foldl_keeps (fun v : State => v.load.ch) _ (fun v f => by simp)]
    · rw [foldl_keeps (fun v : State => v.light.string) _ (fun v f => by simp), foldl_keeps (fun v : State => v.light.string) _ (fun v f => by simp)]
  · exact hheld

theorem beyondQueue_holdScope (s : State) (cause : Nat) (chs : List Nat) (whole : Bool) (b : Nat) :
    (bankAt (holdScope s cause chs whole) b).beyondQueue = (bankAt s b).beyondQueue := by
  unfold holdScope
  dsimp only
  rw [← foldl_keeps (fun v : State => (bankAt v b).beyondQueue) (fun s ch => holdOut s cause ch) (fun v ch => beyondQueue_holdOut v cause ch b) chs s]
  split
  · rw [bankAt_of_load]
    rw [foldl_keeps State.load _ (fun v f => by simp), foldl_keeps State.load _ (fun v f => by simp)]
  · rfl

/-- A supply condition of the whole bank D holds every half-bridge and both feeds (R153, R173). -/
theorem holdScope_halfBridges (s : State) (cause : Nat) (chs : List Nat) : HalfBridgesHeld (holdScope s cause chs true) cause := by
  unfold holdScope
  dsimp only
  generalize chs.foldl (fun s ch => holdOut s cause ch) s = u
  generalize (if cause = 3 then 3 else 0) = d
  rw [if_pos rfl]
  refine ⟨fun m hm => ?_, fun f hf => ?_⟩
  · rw [hbOf_of_hb (foldl_keeps (fun v : State => v.motor.hb) _ (fun v f => by simp) _ _)]
    exact foldl_reaches (P := fun v m => (hbOf v m).heldOff cause)
      (fun v j hj k hk => holdHb_heldOff v j cause d k (List.mem_range.1 hj) hk) u m (.inl (List.mem_range.2 hm))
  · exact foldl_reaches (P := fun v f => (feedOf v f).heldOff cause)
      (fun v j hj k hk => holdFeed_heldOff v j cause d k (List.mem_range.1 hj) hk) _ f (.inl (List.mem_range.2 hf))


/-! What waits in the landings stays there while a command adds to them. -/

/-- Every item that waits in a landing of `s` waits there in `t`. -/
def KeepsItems (s t : State) : Prop := ∀ k, ∀ x ∈ (vget s.plane.landings k).items, x ∈ (vget t.plane.landings k).items

theorem KeepsItems.trans {s t u : State} (h : KeepsItems s t) (h' : KeepsItems t u) : KeepsItems s u := fun k x hx => h' k x (h k x hx)

theorem keepsItems_of_landings {s t : State} (h : t.plane.landings = s.plane.landings) : KeepsItems s t := fun k x hx => by rw [h]; exact hx

theorem keepsItems_capItem (s : State) (r : CapRecord) (idx : Nat) : KeepsItems s (capItem s r idx) := fun k x hx => mem_capItem_old s r idx k x hx

theorem keepsItems_sense (s : State) (t : Stamp) (h idx : Nat) (w : List (Nat × PVal)) (es : List Ev) (caps : List CapRecord) :
    KeepsItems s (sense s t h idx w es caps) := by
  have hcaps (l : List CapRecord) : ∀ u : State, KeepsItems u (l.foldl (fun s c => capItem s { c with stamp := t } idx) u) := by
    induction l with
    | nil => exact fun u k x hx => hx
    | cons c l ih => exact fun u => (keepsItems_capItem u _ idx).trans (ih _)
  have hput (it : LandItem) : KeepsItems s (landPut s 0 it) := fun k x hx => mem_landPut_old s 0 k it x hx
  exact (hput _).trans (hcaps caps _)

theorem keepsItems_observe (s : State) (h idx : Nat) (w : List (Nat × PVal)) (es : List Ev) (caps : List CapRecord) :
    KeepsItems s (observe s h idx w es caps) := by
  unfold observe
  split
  · exact keepsItems_sense _ _ _ _ _ _ _
  · exact fun k x hx => hx

/-- What a hall has observed stays delivered while the landings keep their items. -/
theorem Observed.mono {s u t : State} {h idx : Nat} {w : List (Nat × PVal)} {es : List Ev} (hobs : Observed s u h idx w es) (hkeep : KeepsItems u t) :
    Observed s t h idx w es := fun hfeeds => by
  obtain ⟨it, hin, hit⟩ := hobs hfeeds
  exact ⟨it, hkeep 0 it hin, hit⟩

/-- What decides whether a hall's items reach a landing, and under which stamp: the tick hall's own count, the halls, and the streams of the landings. -/
structure Reach where
  running : Bool
  epoch : Nat
  tick : Nat
  held : Nat
  halls : Vector HallSt 9
  streams : Vector (Vector LStream 9) 10
  released : Vector Nat 10
  cut : Bool

/-- How far the items of halls reach in a state. -/
def State.reach (s : State) : Reach where
  running := s.plane.running
  epoch := s.plane.epoch
  tick := s.plane.tick
  held := s.plane.held
  halls := s.plane.halls
  streams := s.plane.landings.map Landing.streams
  released := s.plane.landings.map Landing.released
  cut := cutOff s

theorem reach_of_plane {s t : State} (h : t.plane = s.plane) : t.reach = s.reach := by simp only [State.reach, cutOff, h]

theorem streams_of_reach {s t : State} (h : t.reach = s.reach) (l : Nat) :
    (vget t.plane.landings l).streams = (vget s.plane.landings l).streams := by
  by_cases hl : l < 10
  · have hstreams : t.plane.landings.map Landing.streams = s.plane.landings.map Landing.streams := congrArg Reach.streams h
    have hat := congrArg (vget · l) hstreams
    simpa only [vget_map _ _ _ hl] using hat
  · simp [vget, hl]

theorem feedsL0_of_reach {s t : State} (h : t.reach = s.reach) (hall : Nat) : feedsL0 t hall = feedsL0 s hall := by
  have hrun : t.plane.running = s.plane.running := congrArg Reach.running h
  have hcut : cutOff t = cutOff s := congrArg Reach.cut h
  have hhalls : t.plane.halls = s.plane.halls := congrArg Reach.halls h
  simp only [feedsL0, hrun, hcut, hhalls, streams_of_reach h]

theorem wallTick_of_reach {s t : State} (h : t.reach = s.reach) : t.wallTick = s.wallTick := by
  have htick : t.plane.tick = s.plane.tick := congrArg Reach.tick h
  have hheld : t.plane.held = s.plane.held := congrArg Reach.held h
  simp only [State.wallTick, htick, hheld]

/-- What is observed in a state that reaches as far is observed. -/
theorem Observed.of_reach {s u t : State} {h idx : Nat} {w : List (Nat × PVal)} {es : List Ev} (hobs : Observed u t h idx w es)
    (hreach : u.reach = s.reach) : Observed s t h idx w es := by
  have hepoch : u.plane.epoch = s.plane.epoch := congrArg Reach.epoch hreach
  intro hfeeds
  have hitem := hobs ((feedsL0_of_reach hreach h).trans hfeeds)
  rw [hepoch, wallTick_of_reach hreach] at hitem
  exact hitem

theorem reach_landPut (s : State) (l : Nat) (it : LandItem) : (landPut s l it).reach = s.reach := by
  have hkeep {β : Type} (f : Landing → β) (hf : ∀ x y, f { x with items := y } = f x) :
      (landPut s l it).plane.landings.map f = s.plane.landings.map f := by
    refine Vector.ext fun i hi => ?_
    simp only [landPut, onPlane_plane, Vector.getElem_map, vmod]
    split
    · rw [Vector.getElem_set]
      split
      · next he => simp [hf, he]
      · rfl
    · rfl
  have hstreams := hkeep Landing.streams fun _ _ => rfl
  have hreleased := hkeep Landing.released fun _ _ => rfl
  unfold State.reach
  rw [hstreams, hreleased]
  rfl

theorem reach_capItem (s : State) (r : CapRecord) (idx : Nat) : (capItem s r idx).reach = s.reach := by
  unfold capItem
  split
  · exact reach_landPut ..
  · rfl

theorem reach_sense (s : State) (t : Stamp) (h idx : Nat) (w : List (Nat × PVal)) (es : List Ev) (caps : List CapRecord) :
    (sense s t h idx w es caps).reach = s.reach :=
  (foldl_keeps State.reach _ (fun u _ => reach_capItem u _ idx) caps _).trans (reach_landPut ..)

theorem reach_observe (s : State) (h idx : Nat) (w : List (Nat × PVal)) (es : List Ev) (caps : List CapRecord) :
    (observe s h idx w es caps).reach = s.reach := by
  unfold observe
  split
  · exact reach_sense ..
  · rfl

theorem reach_observePoint (s : State) (h idx pt : Nat) (v : PVal) (es : List Ev) : (observePoint s h idx pt v es).reach = s.reach :=
  reach_observe ..

/-! Bank thresholds (R53–R55). -/

/-- SAG of a bank changes with its bits and its event (R54). -/
theorem setSag_sets (s : State) (b mv : Nat) (on : Bool) (h : b < 4) :
    (bankAt (setSag s b mv on) b).sag = on ∧ (bankAt (setSag s b mv on) b).mv = mv ∧
    Observed s (setSag s b mv on) 7 (statusIx 40) [(pointAt 83 40, BitVec.ofNat 16 (sagBits (setSag s b mv on)))] [] ∧
    Observed s (setSag s b mv on) 7 (statusIx (10 + b)) [] [s.ev 7 0x0108 (bankPoint b) (sat16 (mv / 10)) true] := by
  unfold setSag bankEvent
  dsimp only
  generalize hu : s.onBank b _ = u
  have hplane : u.plane = s.plane := by rw [← hu]; rfl
  have hbank : bankAt u b = _ := (congrArg (bankAt · b) hu.symm).trans (onBank_same s b _ h)
  simp only [bankAt_observe, bankAt_observePoint, hbank, sagBits, true_and]
  generalize BitVec.ofNat 16 _ = v
  refine ⟨Observed.mono (u := observePoint u 7 (statusIx 40) (pointAt 83 40) v []) ?_ (keepsItems_observe _ _ _ _ _ _), ?_⟩
  · rw [← hu]
    exact observePoint_observed (s.onBank b fun x => { x with sag := on, mv := mv }) _ _ _ _ _
  · have hreach : (observePoint u 7 (statusIx 40) (pointAt 83 40) v []).reach = s.reach := (reach_observePoint ..).trans (reach_of_plane hplane)
    have hev : (observePoint u 7 (statusIx 40) (pointAt 83 40) v []).ev 7 0x0108 (bankPoint b) (sat16 (mv / 10)) true =
        s.ev 7 0x0108 (bankPoint b) (sat16 (mv / 10)) true := by
      rw [← hu, observePoint, observe_only]
      rfl
    rw [hev]
    exact Observed.of_reach (observe_observed _ _ _ _ _ _) hreach

/-- A shed count that completes reports SHED_ALERT at T0, and holds every output of its level below T1 to T3 (R53). -/
theorem shedExpiry_sheds (s : State) (b level mv : Nat) (h : b < 4) (hcore : s.seq.core = true)
    (hshed : (bankAt s b).shed.testBit level = false) (hlow : mv < 100 * (bankCfg s b).t level) :
    (bankAt (shedExpiry s b level mv) b).shed.testBit level = true ∧
    (level = 0 → Observed s (shedExpiry s b level mv) 7 (statusIx (10 + b)) [] [s.ev 7 0x0109 (bankPoint b) (sat16 (mv / 10)) true]) ∧
    (1 ≤ level → ∀ ch ∈ atLevel s b level, OutHeld 3 (shedExpiry s b level mv) ch) ∧
    (b = 3 → level = 3 → HalfBridgesHeld (shedExpiry s b level mv) 3) := by
  simp only [shedExpiry, hcore, hshed, hlow, Bool.not_false, and_self, if_true]
  generalize hu : s.onBank b _ = u
  have hbit : (bankAt u b).shed.testBit level = true := by simp [← hu, h]
  have hlevel : atLevel u b level = atLevel s b level := by rw [← hu]; rfl
  by_cases hzero : level = 0
  · rw [if_pos hzero]
    refine ⟨by rwa [bankEvent, bankAt_observe], fun _ => ?_, fun hone => by omega, fun _ _ => by omega⟩
    rw [← hu]
    exact observe_observed (s.onBank b fun x => { x with shed := setBit x.shed level true, mv := mv }) _ _ _ _ _
  · rw [if_neg hzero]
    have hrest := beyondQueue_holdScope u 3 (atLevel u b level) (b == 3 && level == 3) b
    have hkept : (bankAt (holdScope u 3 (atLevel u b level) (b == 3 && level == 3)) b).shed = (bankAt u b).shed := (congrArg Bank.shed hrest :)
    refine ⟨by rw [hkept, hbit], fun he => absurd he hzero, fun _ ch hch => ?_, fun hb hl => ?_⟩
    · exact holdScope_held u 3 (atLevel u b level) _ (fun x hx => mem_shedOutputs (List.mem_of_mem_filter hx)) ch (by rw [hlevel]; exact hch)
    · rw [hb, hl]
      exact holdScope_halfBridges ..

/-- Drop-out and overvoltage of a bank hold every output of it, and bank D's half-bridges and feeds with them (R55). -/
theorem holdScope_bank (u : State) (b cause : Nat) :
    (∀ ch ∈ shedOutputs b, OutHeld cause (holdScope u cause (shedOutputs b) (b == 3)) ch) ∧
    (b = 3 → HalfBridgesHeld (holdScope u cause (shedOutputs b) (b == 3)) cause) :=
  ⟨fun ch hch => holdScope_held u cause _ _ (fun _ hx => mem_shedOutputs hx) ch hch, fun hb => by rw [hb]; exact holdScope_halfBridges ..⟩

/-- Settles O25: each threshold is the lemma about the scope that it holds. -/
theorem bankThresholdsHold : Obligations.BankThresholdsHold := by
  refine ⟨fun b mv s h hcore hsag hlow hmv => ⟨_, rated_next s mv (belowWarn s b mv) hmv, ?_⟩,
    fun b level mv s h hlevel hcore hshed hlow hmv => ⟨_, rated_next s mv (shedExpiry s b level mv) hmv, ?_⟩,
    fun b mv s h hcore hdrop hlow => ⟨_, rated_next s mv (bankDropout s b mv) (by omega), ?_⟩,
    fun b mv s h hcore hover hhigh hmv => ⟨_, rated_next s mv (bankOvervolt s b mv) hmv, ?_⟩⟩
  · have hsags : belowWarn s b mv = setSag s b mv true := if_pos ⟨hcore, by rw [hsag]; rfl, hlow⟩
    rw [hsags]
    exact setSag_sets s b mv true h
  · exact shedExpiry_sheds s b level mv h hcore hshed hlow
  · have hdrops : bankDropout s b mv = holdScope (s.onBank b fun x => { x with drop := true, mv := mv }) 1 (shedOutputs b) (b == 3) :=
      if_pos ⟨hcore, by rw [hdrop]; rfl, hlow⟩
    rw [hdrops]
    have hrest := beyondQueue_holdScope (s.onBank b fun x => { x with drop := true, mv := mv }) 1 (shedOutputs b) (b == 3) b
    refine ⟨Eq.trans (congrArg Bank.drop hrest :) ?_, holdScope_bank _ b 1⟩
    simp [h, Bank.beyondQueue]
  · have hrises : bankOvervolt s b mv = holdScope (s.onBank b fun x => { x with overV := true, mv := mv }) 2 (shedOutputs b) (b == 3) :=
      if_pos ⟨hcore, by rw [hover]; rfl, hhigh⟩
    rw [hrises]
    have hrest := beyondQueue_holdScope (s.onBank b fun x => { x with overV := true, mv := mv }) 2 (shedOutputs b) (b == 3) b
    refine ⟨Eq.trans (congrArg Bank.overV hrest :) ?_, holdScope_bank _ b 2⟩
    simp [h, Bank.beyondQueue]


/-! Recovery of a bank's conditions (R54, R56, R57). -/

/-- No hold of a cause stands on an output. -/
def NotHeld (cause : Nat) (s : State) (ch : Nat) : Prop := (outCond s ch).holds.testBit cause = false

theorem outCond_of_same {s t : State} (hload : t.load.ch = s.load.ch) (hstring : t.light.string = s.light.string) (ch : Nat) :
    outCond t ch = outCond s ch := by
  simp only [outCond, chanOf_of_ch hload, stringOf_of_string hstring]

/-- The end of an output's hold clears it, and no hold of another output changes (R56). -/
theorem holds_endHoldOut (s : State) (cause j k : Nat) (hj : j < 60) : (outCond (endHoldOut s cause j) k).holds =
    if k = j then setBit (outCond s k).holds cause false else (outCond s k).holds := by
  unfold endHoldOut
  by_cases hchan : j < 56
  · rw [if_pos hchan]
    by_cases he : k = j
    · subst he
      simp only [outCond, if_pos hchan, if_true, holds_endHoldChan s k cause hchan]
    · have hother := chanOf_endHoldChan_other s j cause k (Ne.symm he)
      simp only [outCond, if_neg he, hother, stringOf_of_string (endHoldChan_light_string s j cause)]
  · rw [if_neg hchan]
    have hchans := chanOf_of_ch (endHoldString_load_ch s (j - 56) cause) k
    have hholds := holds_endHoldString s (j - 56) cause (k - 56) (by omega)
    by_cases hk : k < 56
    · simp only [outCond, if_pos hk, hchans, if_neg (show k ≠ j by omega)]
    · rw [outCond, if_neg hk, hholds, outCond, if_neg hk]
      by_cases he : k = j
      · rw [if_pos he, if_pos (by rw [he])]
      · rw [if_neg he, if_neg (by omega)]

theorem outCond_joinQueue (s : State) (cause j k : Nat) : outCond (joinQueue cause s j) k = outCond s k := by
  unfold joinQueue
  split <;> rfl

theorem endHoldOut_notHeld (s : State) (cause j k : Nat) (hj : j < 60) (hk : k = j ∨ NotHeld cause s k) :
    NotHeld cause (joinQueue cause (endHoldOut s cause j) j) k := by
  rw [NotHeld, outCond_joinQueue, holds_endHoldOut _ _ _ _ hj]
  split
  · simp
  · next he => exact hk.resolve_left he

theorem holds_resumeOut (s : State) (cause j k : Nat) : (outCond (resumeOut s cause j) k).holds = (outCond s k).holds := by
  unfold resumeOut
  split
  · simp only [outCond, stringOf_of_string (resumeChan_light_string s j cause)]
    split
    · exact (cond_resumeChan s j cause k).1
    · rfl
  · simp only [outCond, chanOf_of_ch (resumeString_load_ch s (j - 56) cause)]
    split
    · rfl
    · exact holds_resumeString s (j - 56) cause (k - 56)

theorem holds_queueStep (s : State) (b k : Nat) : (outCond (queueStep s b) k).holds = (outCond s k).holds := by
  unfold queueStep
  dsimp only
  split
  · rfl
  · split
    · exact holds_resumeOut ..
    · rfl

/-- The end of a supply condition ends its hold on every output of its list (R56). -/
theorem endScope_ends (s : State) (b cause : Nat) (chs : List Nat) (whole : Bool) (hchs : ∀ ch ∈ chs, ch < 60) (ch : Nat) (h : ch ∈ chs) :
    NotHeld cause (endScope s b cause chs whole) ch := by
  unfold endScope
  dsimp only
  generalize hl : chs.filter _ = l
  have hends : NotHeld cause (l.foldl (fun s ch => joinQueue cause (endHoldOut s cause ch) ch) s) ch := by
    refine foldl_reaches (P := NotHeld cause) (fun s j hj k hk => endHoldOut_notHeld s cause j k (hchs j ?_) hk) s ch ?_
    · rw [← hl] at hj
      exact List.mem_of_mem_filter hj
    · by_cases hheld : (outCond s ch).holds.testBit cause = true
      · exact .inl (by rw [← hl]; exact List.mem_filter.2 ⟨h, hheld⟩)
      · exact .inr (Bool.eq_false_iff.2 hheld)
  generalize l.foldl (fun s ch => joinQueue cause (endHoldOut s cause ch) ch) s = u at hends
  generalize hv : (if whole = true then _ else u : State) = v
  have hsame : outCond v ch = outCond u ch := by
    rw [← hv]
    split
    · refine outCond_of_same ?_ ?_ ch
      · rw [foldl_keeps (fun v : State => v.load.ch) _ (fun v f => by simp), foldl_keeps (fun v : State => v.load.ch) _ (fun v f => by simp)]
      · rw [foldl_keeps (fun v : State => v.light.string) _ (fun v f => by simp), foldl_keeps (fun v : State => v.light.string) _ (fun v f => by simp)]
    · rfl
  have hstays : NotHeld cause v ch := by rw [NotHeld, hsame]; exact hends
  split
  · rw [NotHeld, holds_queueStep]
    exact hstays
  · exact hstays

theorem beyondQueue_onBank (s : State) (b k : Nat) (f : Bank → Bank) (hf : ∀ x, (f x).beyondQueue = x.beyondQueue) :
    (bankAt (s.onBank b f) k).beyondQueue = (bankAt s k).beyondQueue := vget_vmod_proj s.load.bank b k f Bank.beyondQueue hf

theorem beyondDips_resumeOut (s : State) (cause ch b : Nat) : (bankAt (resumeOut s cause ch) b).beyondDips = (bankAt s b).beyondDips := by
  unfold resumeOut
  split
  · exact beyondDips_resumeChan ..
  · exact beyondDips_resumeString ..

theorem beyondQueue_queueStep (s : State) (b k : Nat) : (bankAt (queueStep s b) k).beyondQueue = (bankAt s k).beyondQueue := by
  unfold queueStep
  dsimp only
  split
  · rfl
  · split
    · rw [beyondQueue_of_beyondDips (beyondDips_resumeOut ..)]
      exact beyondQueue_onBank _ _ _ _ fun _ => rfl
    · rfl

theorem beyondQueue_joinQueue (s : State) (cause ch b : Nat) :
    (bankAt (joinQueue cause (endHoldOut s cause ch) ch) b).beyondQueue = (bankAt s b).beyondQueue := by
  have hend : bankAt (endHoldOut s cause ch) b = bankAt s b := by
    unfold endHoldOut
    split
    · exact bankAt_endHoldChan ..
    · exact bankAt_endHoldString ..
  rw [← hend]
  unfold joinQueue
  split
  · exact beyondQueue_onBank _ _ _ _ fun _ => rfl
  · rfl

/-- The end of a supply condition changes a bank's resume queue, and nothing else of the banks but the count of their dips. -/
theorem beyondQueue_endScope (s : State) (b cause : Nat) (chs : List Nat) (whole : Bool) (k : Nat) :
    (bankAt (endScope s b cause chs whole) k).beyondQueue = (bankAt s k).beyondQueue := by
  unfold endScope
  dsimp only
  generalize chs.filter _ = l
  rw [← foldl_keeps (fun v : State => (bankAt v k).beyondQueue) (fun s ch => joinQueue cause (endHoldOut s cause ch) ch)
    (fun v ch => beyondQueue_joinQueue v cause ch k) l s]
  generalize l.foldl (fun s ch => joinQueue cause (endHoldOut s cause ch) ch) s = u
  generalize hv : (if whole = true then _ else u : State) = v
  have hsame : bankAt v k = bankAt u k := by
    rw [← hv]
    split
    · refine bankAt_of_load ?_ k
      rw [foldl_keeps State.load _ (fun v f => by simp), foldl_keeps State.load _ (fun v f => by simp)]
    · rfl
  rw [← hsame]
  split
  · rw [beyondQueue_queueStep]
    exact beyondQueue_onBank _ _ _ _ fun _ => rfl
  · rfl

theorem updateChan_plane (s : State) (ch : Nat) : (updateChan s ch).plane = s.plane := by
  unfold updateChan
  dsimp only
  split_ifs <;> rfl

/-- A channel that a rule turns on posts LOAD_RESUME (R56). -/
theorem resumeChan_observed (s : State) (ch cause : Nat) (hfree : (chanOf s ch).cond.free = true) (hcmd : d12 (chanOf s ch).cmd ≠ 0)
    (hoff : (chanOf s ch).driving = false) : Observed s (resumeChan s ch cause) 7 ch [] [s.ev 7 0x0203 (loadAddress ch) cause] := by
  have hturns : resumeChan s ch cause = updateChan (loadEvent (s.onCond ch fun k => { k with waiting := false }) 0x0203 ch cause) ch := by
    simp only [resumeChan, hfree, hcmd, hoff, ne_eq, not_false_eq_true, Bool.not_false, and_self, if_true]
  rw [hturns]
  refine Observed.mono (u := loadEvent (s.onCond ch fun k => { k with waiting := false }) 0x0203 ch cause) ?_ ?_
  · exact observe_observed (s.onCond ch fun k => { k with waiting := false }) _ _ _ _ _
  · exact keepsItems_of_landings (congrArg Plane.landings (updateChan_plane _ _))

/-- The next channel of a resume queue leaves it and returns (R56). -/
theorem queueStep_returns (s : State) (b ch cause : Nat) (r : List (Nat × Nat)) (h : b < 4) (hqueue : (bankAt s b).resumeQ = (ch, cause) :: r)
    (hat : (bankAt s b).resumeAt ≤ s.now) : (bankAt (queueStep s b) b).resumeQ = r ∧ (bankAt (queueStep s b) b).resumeAt = s.now + 32 ∧
    (ch < 56 → (chanOf s ch).cond.free = true → d12 (chanOf s ch).cmd ≠ 0 → (chanOf s ch).driving = false → (chanOf s ch).retryAt = none →
      (chanOf (queueStep s b) ch).driving = true ∧ Observed s (queueStep s b) 7 ch [] [s.ev 7 0x0203 (loadAddress ch) cause]) := by
  have hstep : queueStep s b = resumeOut (s.onBank b fun x => { x with resumeQ := r, resumeAt := s.now + 32 }) cause ch := by
    simp only [queueStep, hqueue, hat, if_true]
  rw [hstep]
  generalize hu : s.onBank b _ = u
  have hbank : bankAt u b = _ := (congrArg (bankAt · b) hu.symm).trans (onBank_same s b _ h)
  have hrest := beyondDips_resumeOut u cause ch b
  refine ⟨Eq.trans (congrArg Bank.resumeQ hrest :) (by rw [hbank]; rfl), Eq.trans (congrArg Bank.resumeAt hrest :) (by rw [hbank]; rfl),
    fun hch hfree hcmd hoff hretry => ?_⟩
  have hchan : chanOf u ch = chanOf s ch := by rw [← hu]; rfl
  rw [resumeOut, if_pos hch]
  refine ⟨driving_resumeChan u ch cause hch (by rw [hchan, hfree]) (by rwa [hchan]) (by rw [hchan, hretry]), ?_⟩
  rw [← hu]
  exact resumeChan_observed (s.onBank b fun x => { x with resumeQ := r, resumeAt := s.now + 32 }) ch cause hfree hcmd hoff

/-- Settles O26: each recovery is the lemma about the scope whose holds it ends, and the queue's is `queueStep_returns`. -/
theorem bankConditionsRecover : Obligations.BankConditionsRecover := by
  refine ⟨fun b mv s h hcore hsag hhigh hmv => ⟨_, rated_next s mv (warnRecovery s b mv) hmv, ?_⟩,
    fun b level mv s h hone hlevel hcore hshed hhigh hmv => ⟨_, rated_next s mv (shedRecovery s b level mv) hmv, ?_⟩,
    fun b mv s h hcore hdrop hhigh hmv => ⟨_, rated_next s mv (dropoutRecovery s b mv) hmv, ?_⟩,
    fun b mv s h hcore hover hlow => ⟨_, rated_next s mv (overvoltRecovery s b mv) (by omega), ?_⟩,
    fun b ch cause r s h hqueue hat => ⟨(queueStep s b).withPending s.pending, rfl, queueStep_returns s b ch cause r h hqueue hat⟩⟩
  · have hclears : warnRecovery s b mv = setSag s b mv false := if_pos ⟨hcore, hsag, hhigh⟩
    rw [hclears]
    obtain ⟨hflag, -, hbits, -⟩ := setSag_sets s b mv false h
    exact ⟨hflag, hbits⟩
  · have hends : shedRecovery s b level mv =
        endScope (s.onBank b fun x => { x with shed := setBit x.shed level false, mv := mv }) b 3 (atLevel s b level) (b == 3 && level == 3) := by
      rw [shedRecovery, if_pos ⟨hcore, hshed, hhigh⟩]
      exact if_neg (by omega)
    rw [hends]
    have hrest := beyondQueue_endScope (s.onBank b fun x => { x with shed := setBit x.shed level false, mv := mv }) b 3 (atLevel s b level)
      (b == 3 && level == 3) b
    refine ⟨?_, fun ch hch => endScope_ends _ b 3 _ _ (fun x hx => mem_shedOutputs (List.mem_of_mem_filter hx)) ch hch⟩
    refine Eq.trans (congrArg (fun x : Bank => x.shed.testBit level) hrest :) ?_
    simp [h, Bank.beyondQueue]
  · have hends : dropoutRecovery s b mv = endScope (s.onBank b fun x => { x with drop := false, mv := mv }) b 1 (shedOutputs b) (b == 3) :=
      if_pos ⟨hcore, hdrop, hhigh⟩
    rw [hends]
    have hrest := beyondQueue_endScope (s.onBank b fun x => { x with drop := false, mv := mv }) b 1 (shedOutputs b) (b == 3) b
    refine ⟨Eq.trans (congrArg Bank.drop hrest :) ?_, fun ch hch => endScope_ends _ b 1 _ _ (fun _ hx => mem_shedOutputs hx) ch hch⟩
    simp [h, Bank.beyondQueue]
  · have hends : overvoltRecovery s b mv = endScope (s.onBank b fun x => { x with overV := false, mv := mv }) b 2 (shedOutputs b) (b == 3) :=
      if_pos ⟨hcore, hover, hlow⟩
    rw [hends]
    have hrest := beyondQueue_endScope (s.onBank b fun x => { x with overV := false, mv := mv }) b 2 (shedOutputs b) (b == 3) b
    refine ⟨Eq.trans (congrArg Bank.overV hrest :) ?_, fun ch hch => endScope_ends _ b 2 _ _ (fun _ hx => mem_shedOutputs hx) ch hch⟩
    simp [h, Bank.beyondQueue]

end Sys2Proof.Machine

namespace Sys2Proof.Machine

open Sys2Proof.Claims

/-- The plane but for what its halls deliver and the tick's results. -/
def Plane.quiet (p : Plane) : Plane := { p with results := [], landings := Vector.replicate 10 {} }

theorem landPut_plane_quiet (s : State) (l : Nat) (it : LandItem) : (landPut s l it).plane.quiet = s.plane.quiet := rfl

@[simp] theorem observe_plane_quiet (s : State) (h idx : Nat) (w : List (Nat × PVal)) (es : List Ev) (caps : List CapRecord) :
    (observe s h idx w es caps).plane.quiet = s.plane.quiet := by
  rw [observe_only]
  rfl

@[simp] theorem postEvent_plane_quiet (s : State) (e : Ev) : (postEvent s e).plane.quiet = s.plane.quiet := by
  unfold postEvent
  split <;> rfl

@[simp] theorem postEvent_link (s : State) (e : Ev) : (postEvent s e).link = s.link := by
  unfold postEvent
  split <;> rfl

@[simp] theorem postEvent_store_sys (s : State) (e : Ev) : (postEvent s e).store.sys = s.store.sys := by
  unfold postEvent
  split <;> rfl

@[simp] theorem capItem_plane_quiet (s : State) (r : CapRecord) (idx : Nat) : (capItem s r idx).plane.quiet = s.plane.quiet := by
  unfold capItem
  split <;> rfl

@[simp] theorem observe_link (s : State) (h idx : Nat) (writes : List (Nat × PVal)) (events : List Ev) (caps : List CapRecord) :
    (observe s h idx writes events caps).link = s.link := by rw [observe_only]

@[simp] theorem bump_plane_quiet (s : State) (cls index n : Nat) (hall : Option Nat) : (bump s cls index n hall).plane.quiet = s.plane.quiet := rfl

@[simp] theorem bump_link (s : State) (cls index n : Nat) (hall : Option Nat) : (bump s cls index n hall).link = s.link := rfl

@[simp] theorem pput_plane_quiet (s : State) (pt : Nat) (v : PVal) : (pput s pt v).plane.quiet = s.plane.quiet := rfl

@[simp] theorem pput_link (s : State) (pt : Nat) (v : PVal) : (pput s pt v).link = s.link := rfl

@[simp] theorem noteWriter_plane_quiet (s : State) (pt : Nat) (v : PVal) (k : Writer) (comp : Nat) (t : Stamp) :
    (noteWriter s pt v k comp t).plane.quiet = s.plane.quiet := rfl

@[simp] theorem noteWriter_link (s : State) (pt : Nat) (v : PVal) (k : Writer) (comp : Nat) (t : Stamp) : (noteWriter s pt v k comp t).link = s.link := rfl

@[simp] theorem noteLatency_plane_quiet (s : State) (w : PWrite) : (noteLatency s w).plane.quiet = s.plane.quiet := by
  unfold noteLatency
  (repeat' split)
  all_goals rfl

@[simp] theorem noteLatency_link (s : State) (w : PWrite) : (noteLatency s w).link = s.link := by
  unfold noteLatency
  (repeat' split)
  all_goals rfl

@[simp] theorem detachPoint_plane_quiet (s : State) (pt : Nat) : (detachPoint s pt).plane.quiet = s.plane.quiet := rfl

@[simp] theorem detachPoint_link (s : State) (pt : Nat) : (detachPoint s pt).link = s.link := rfl

@[simp] theorem countMoved_plane_quiet (s : State) (w : PWrite) : (countMoved s w).plane.quiet = s.plane.quiet := by
  unfold countMoved
  dsimp only
  split_ifs <;> rfl

@[simp] theorem countMoved_link (s : State) (w : PWrite) : (countMoved s w).link = s.link := by
  unfold countMoved
  dsimp only
  split_ifs <;> rfl

@[simp] theorem moveWrite_plane_quiet (s : State) (w : PWrite) : (moveWrite s w).plane.quiet = s.plane.quiet := by simp [moveWrite, State.onPoints]

@[simp] theorem moveWrite_link (s : State) (w : PWrite) : (moveWrite s w).link = s.link := by simp [moveWrite, State.onPoints]

@[simp] theorem countDiscarded_plane_quiet (s : State) (n : Nat) : (countDiscarded s n).plane.quiet = s.plane.quiet := rfl

@[simp] theorem countDiscarded_link (s : State) (n : Nat) : (countDiscarded s n).link = s.link := rfl

@[simp] theorem writeStands_plane_quiet (s : State) (w : PWrite) (t : Stamp) (old : PVal) (count : Nat) : (writeStands s w t old count).plane.quiet = s.plane.quiet := by
  unfold writeStands
  split <;> simp [State.onPoints]

@[simp] theorem writeStands_link (s : State) (w : PWrite) (t : Stamp) (old : PVal) (count : Nat) : (writeStands s w t old count).link = s.link := by
  unfold writeStands
  split <;> simp [State.onPoints]

@[simp] theorem applyWrite_plane_quiet (s : State) (w : PWrite) : (applyWrite s w).1.plane.quiet = s.plane.quiet := by
  unfold applyWrite
  (repeat' split)
  all_goals simp

@[simp] theorem applyWrite_link (s : State) (w : PWrite) : (applyWrite s w).1.link = s.link := by
  unfold applyWrite
  (repeat' split)
  all_goals simp

@[simp] theorem writePoint_plane_quiet (s : State) (w : PWrite) : (writePoint s w).1.plane.quiet = s.plane.quiet := by
  unfold writePoint
  split <;> simp

@[simp] theorem writePoint_link (s : State) (w : PWrite) : (writePoint s w).1.link = s.link := by
  unfold writePoint
  split <;> simp

@[simp] theorem directWrite_plane_quiet (s : State) (p : Packet) (pt : Nat) (v : PVal) :
    (directWrite s p pt v).1.plane.quiet = s.plane.quiet := by simp [directWrite]

@[simp] theorem directWrite_link (s : State) (p : Packet) (pt : Nat) (v : PVal) : (directWrite s p pt v).1.link = s.link := by simp [directWrite]

@[simp] theorem deviceApply_plane_quiet (s : State) (t : Stamp) (w : PWrite) : (deviceApply s t w).plane.quiet = s.plane.quiet := by
  unfold deviceApply
  split <;> simp

@[simp] theorem deviceApply_link (s : State) (t : Stamp) (w : PWrite) : (deviceApply s t w).link = s.link := by
  unfold deviceApply
  split <;> simp

@[simp] theorem deviceApply_load (s : State) (t : Stamp) (w : PWrite) : (deviceApply s t w).load = s.load := by
  unfold deviceApply
  split <;> simp

@[simp] theorem deviceApply_motor (s : State) (t : Stamp) (w : PWrite) : (deviceApply s t w).motor = s.motor := by
  unfold deviceApply
  split <;> simp

@[simp] theorem deviceApply_store (s : State) (t : Stamp) (w : PWrite) : (deviceApply s t w).store = s.store := by
  unfold deviceApply
  split <;> simp

@[simp] theorem deviceWrite_plane_quiet (s : State) (t : Stamp) (w : PWrite) : (deviceWrite s t w).plane.quiet = s.plane.quiet := by
  unfold deviceWrite
  split <;> simp

@[simp] theorem deviceWrite_link (s : State) (t : Stamp) (w : PWrite) : (deviceWrite s t w).link = s.link := by
  unfold deviceWrite
  split <;> simp

@[simp] theorem deviceWrite_load (s : State) (t : Stamp) (w : PWrite) : (deviceWrite s t w).load = s.load := by
  unfold deviceWrite
  split <;> simp

@[simp] theorem deviceWrite_motor (s : State) (t : Stamp) (w : PWrite) : (deviceWrite s t w).motor = s.motor := by
  unfold deviceWrite
  split <;> simp

@[simp] theorem deviceWrite_store (s : State) (t : Stamp) (w : PWrite) : (deviceWrite s t w).store = s.store := by
  unfold deviceWrite
  split <;> simp

@[simp] theorem adoptWrite_plane_quiet (s : State) (pt : Nat) (v : PVal) : (adoptWrite s pt v).plane.quiet = s.plane.quiet := by
  unfold adoptWrite
  split <;> simp

@[simp] theorem adoptWrite_link (s : State) (pt : Nat) (v : PVal) : (adoptWrite s pt v).link = s.link := by
  unfold adoptWrite
  split <;> simp

@[simp] theorem adoptWrite_load (s : State) (pt : Nat) (v : PVal) : (adoptWrite s pt v).load = s.load := by
  unfold adoptWrite
  split <;> simp

@[simp] theorem adoptWrite_motor (s : State) (pt : Nat) (v : PVal) : (adoptWrite s pt v).motor = s.motor := by
  unfold adoptWrite
  split <;> simp

@[simp] theorem adoptWrite_store (s : State) (pt : Nat) (v : PVal) : (adoptWrite s pt v).store = s.store := by
  unfold adoptWrite
  split <;> simp

@[simp] theorem postEvents_plane_quiet (s : State) (es : List Ev) : (postEvents s es).plane.quiet = s.plane.quiet := by
  unfold postEvents
  exact foldl_keeps (fun u : State => u.plane.quiet) _ (fun _ _ => by simp) _ _

@[simp] theorem postEvents_link (s : State) (es : List Ev) : (postEvents s es).link = s.link := by
  unfold postEvents
  exact foldl_keeps State.link _ (fun _ _ => by simp) _ _

@[simp] theorem postEvents_load (s : State) (es : List Ev) : (postEvents s es).load = s.load := by
  unfold postEvents
  exact foldl_keeps State.load _ (fun _ _ => by simp) _ _

@[simp] theorem postEvents_motor (s : State) (es : List Ev) : (postEvents s es).motor = s.motor := by
  unfold postEvents
  exact foldl_keeps State.motor _ (fun _ _ => by simp) _ _

@[simp] theorem postEvents_store (s : State) (es : List Ev) : (postEvents s es).store = s.store := by
  unfold postEvents
  exact foldl_keeps State.store _ (fun _ _ => by simp) _ _

@[simp] theorem plainDevice_plane_quiet (s : State) (pt : Nat) (v : PVal) (events : List Ev) : (plainDevice s pt v events).plane.quiet = s.plane.quiet := by
  unfold plainDevice
  split <;> simp

@[simp] theorem plainDevice_link (s : State) (pt : Nat) (v : PVal) (events : List Ev) : (plainDevice s pt v events).link = s.link := by
  unfold plainDevice
  split <;> simp

@[simp] theorem plainDevice_load (s : State) (pt : Nat) (v : PVal) (events : List Ev) : (plainDevice s pt v events).load = s.load := by
  unfold plainDevice
  split <;> simp

@[simp] theorem plainDevice_motor (s : State) (pt : Nat) (v : PVal) (events : List Ev) : (plainDevice s pt v events).motor = s.motor := by
  unfold plainDevice
  split <;> simp

@[simp] theorem plainDevice_store (s : State) (pt : Nat) (v : PVal) (events : List Ev) : (plainDevice s pt v events).store = s.store := by
  unfold plainDevice
  split <;> simp

@[simp] theorem adoptFeeds_plane_quiet (s : State) : (adoptFeeds s).plane.quiet = s.plane.quiet := by
  unfold adoptFeeds
  refine foldl_keeps (fun u : State => u.plane.quiet) _ (fun u x => ?_) _ _
  dsimp only
  split_ifs <;> simp

@[simp] theorem adoptFeeds_link (s : State) : (adoptFeeds s).link = s.link := by
  unfold adoptFeeds
  refine foldl_keeps State.link _ (fun u x => ?_) _ _
  dsimp only
  split_ifs <;> simp

@[simp] theorem adoptFeeds_load (s : State) : (adoptFeeds s).load = s.load := by
  unfold adoptFeeds
  refine foldl_keeps State.load _ (fun u x => ?_) _ _
  dsimp only
  split_ifs <;> simp

@[simp] theorem adoptFeeds_motor (s : State) : (adoptFeeds s).motor = s.motor := by
  unfold adoptFeeds
  refine foldl_keeps State.motor _ (fun u x => ?_) _ _
  dsimp only
  split_ifs <;> simp

@[simp] theorem adoptFeeds_store (s : State) : (adoptFeeds s).store = s.store := by
  unfold adoptFeeds
  refine foldl_keeps State.store _ (fun u x => ?_) _ _
  dsimp only
  split_ifs <;> simp

@[simp] theorem motorEvent_plane_quiet (s : State) (kind m value : Nat) : (motorEvent s kind m value).plane.quiet = s.plane.quiet := by simp [motorEvent]

@[simp] theorem motorEvent_link (s : State) (kind m value : Nat) : (motorEvent s kind m value).link = s.link := by simp [motorEvent]

@[simp] theorem motorEvent_store (s : State) (kind m value : Nat) : (motorEvent s kind m value).store = s.store := by simp [motorEvent]

/-! What logging and posting change (R369–R378): the logbook, the results of the tick, and the landings, which keep their items. -/

/-- A state but for the logbook, the kept RTC, the results of the tick and the landings. -/
def State.beyondLog (s : State) : State := { s with store := { s.store with log := {}, rtc := {} }, plane := s.plane.quiet }

/-- `t` comes from `s` by logging and posting. -/
structure LogsOnly (s t : State) : Prop where
  rest : t.beyondLog = s.beyondLog
  items : KeepsItems s t

theorem LogsOnly.refl (s : State) : LogsOnly s s := ⟨rfl, fun _ _ hx => hx⟩

theorem LogsOnly.trans {s t u : State} (h : LogsOnly s t) (h' : LogsOnly t u) : LogsOnly s u := ⟨h'.rest.trans h.rest, h.items.trans h'.items⟩

theorem keepsItems_postEvent (s : State) (e : Ev) : KeepsItems s (postEvent s e) := by
  unfold postEvent
  split
  · exact fun _ _ hx => hx
  · exact fun k x hx => mem_landPut_old s 6 k _ x hx

theorem logsOnly_postEvent (s : State) (e : Ev) : LogsOnly s (postEvent s e) := by
  refine ⟨?_, keepsItems_postEvent s e⟩
  rw [postEvent_only]
  rfl

theorem logsOnly_observe (s : State) (h idx : Nat) (w : List (Nat × PVal)) (es : List Ev) (caps : List CapRecord) :
    LogsOnly s (observe s h idx w es caps) := by
  refine ⟨?_, keepsItems_observe s h idx w es caps⟩
  rw [observe_only]
  rfl

theorem logsOnly_onLog (s : State) (f : Logbook → Logbook) : LogsOnly s (s.onLog f) := ⟨rfl, fun _ _ hx => hx⟩

theorem logsOnly_onPlane (s : State) (f : Plane → Plane) (hquiet : ∀ p, (f p).quiet = p.quiet) (hland : ∀ p, (f p).landings = p.landings) :
    LogsOnly s (s.onPlane f) := by
  refine ⟨?_, keepsItems_of_landings (hland s.plane)⟩
  simp only [State.beyondLog, onPlane_plane, hquiet]
  rfl

theorem logsOnly_keepRtc (s : State) (r : RtcStore) : LogsOnly s { s with store := { s.store with rtc := r } } := ⟨rfl, fun _ _ hx => hx⟩

theorem logsOnly_updateLevel (s : State) : LogsOnly s (updateLevel s) := by
  unfold updateLevel
  dsimp only
  split
  · exact logsOnly_onLog ..
  · exact (logsOnly_onLog s _).trans (logsOnly_postEvent _ _)

theorem logsOnly_sealSegment (s : State) (reason : Nat) : LogsOnly s (sealSegment s reason) := by
  unfold sealSegment
  split
  · exact .refl s
  · dsimp only
    split
    · refine LogsOnly.trans ?_ (logsOnly_updateLevel _)
      refine LogsOnly.trans ?_ (logsOnly_keepRtc _ _)
      exact logsOnly_onLog _ _
    · exact logsOnly_onLog ..

theorem logsOnly_makeRoom (s : State) : LogsOnly s (makeRoom s) := by
  unfold makeRoom
  split
  · split_ifs
    · exact logsOnly_sealSegment ..
    · exact logsOnly_sealSegment ..
    · exact .refl s
  · exact .refl s

theorem logsOnly_appendRecord (s : State) (it : LogItem) (emergency : Bool) : LogsOnly s (appendRecord s it emergency) := by
  unfold appendRecord
  refine LogsOnly.trans ?_ (logsOnly_onPlane _ _ (fun _ => rfl) fun _ => rfl)
  exact logsOnly_onLog _ _

theorem logsOnly_dropRecord (s : State) (it : LogItem) : LogsOnly s (dropRecord s it) := by
  unfold dropRecord
  refine LogsOnly.trans ?_ (logsOnly_updateLevel _)
  exact logsOnly_onLog _ _

theorem logsOnly_storeRecord (s : State) (it : LogItem) : LogsOnly s (storeRecord s it).1 := by
  unfold storeRecord
  split
  · exact .refl s
  · dsimp only
    split
    · dsimp only
      exact (logsOnly_makeRoom s).trans (logsOnly_dropRecord _ _)
    · dsimp only
      exact (logsOnly_makeRoom s).trans (logsOnly_appendRecord _ _ _)

theorem logsOnly_logRecord (s : State) (it : LogItem) : LogsOnly s (logRecord s it).1 := by
  have hgap := logsOnly_storeRecord s (gapItem s.store.log)
  unfold logRecord
  dsimp only
  generalize storeRecord s (gapItem s.store.log) = r at hgap ⊢
  split
  · split
    · refine LogsOnly.trans ?_ (logsOnly_storeRecord _ _)
      exact hgap.trans (logsOnly_onLog _ _)
    · exact logsOnly_storeRecord ..
  · exact logsOnly_storeRecord ..

theorem logsOnly_logDevice (s : State) (type : Nat) (critical : Bool) (payload : List Byte) : LogsOnly s (logDevice s type critical payload) :=
  logsOnly_logRecord ..


/-- The rings of an event rest on the settings of its time only (R277). -/
theorem eventRings_congr {s t : State} (hsettings : t.plane.settings = s.plane.settings) (hepoch : t.plane.epoch = s.plane.epoch)
    (hsys : t.store.sys = s.store.sys) (e : Ev) : eventRings t e = eventRings s e := by
  have hold (x : Stamp) : oldSettings t x = oldSettings s x := by simp only [oldSettings, OldSettings.after, hsettings, hepoch]
  have hreply (x : Stamp) (c : Nat) : replyRingAt t x c = replyRingAt s x c := by
    unfold replyRingAt
    rw [hold, hsys]
  have hgroups (x : Stamp) (i : Nat) : groupsAt t x i = groupsAt s x i := by
    unfold groupsAt
    rw [hold, hsys]
  simp only [eventRings, hreply, hgroups]

end Sys2Proof.Machine

namespace Sys2Proof.Machine

open Sys2Proof.Claims

/-- The power die's link but for the snapshot number. -/
def State.linkCore (s : State) : Link := { s.link with snapshot := 0 }

theorem linkCore_of_link {s t : State} (h : t.link = s.link) : t.linkCore = s.linkCore := by simp only [State.linkCore, h]

@[simp] theorem observe_linkCore (s : State) (h idx : Nat) (w : List (Nat × PVal)) (es : List Ev) (caps : List CapRecord) :
    (observe s h idx w es caps).linkCore = s.linkCore := linkCore_of_link (observe_link ..)

@[simp] theorem loadEvent_linkCore (s : State) (kind ch value : Nat) : (loadEvent s kind ch value).linkCore = s.linkCore := by simp [loadEvent]

@[simp] theorem loadEvent_plane_quiet (s : State) (kind ch value : Nat) : (loadEvent s kind ch value).plane.quiet = s.plane.quiet := by simp [loadEvent]

@[simp] theorem bump_linkCore (s : State) (cls index n : Nat) (hall : Option Nat) : (bump s cls index n hall).linkCore = s.linkCore := rfl

@[simp] theorem onChan_linkCore (s : State) (ch : Nat) (f : Chan → Chan) : (s.onChan ch f).linkCore = s.linkCore := rfl

@[simp] theorem onChan_plane_quiet (s : State) (ch : Nat) (f : Chan → Chan) : (s.onChan ch f).plane.quiet = s.plane.quiet := rfl

@[simp] theorem onCond_linkCore (s : State) (ch : Nat) (f : Cond → Cond) : (s.onCond ch f).linkCore = s.linkCore := rfl

@[simp] theorem onCond_plane_quiet (s : State) (ch : Nat) (f : Cond → Cond) : (s.onCond ch f).plane.quiet = s.plane.quiet := rfl

@[simp] theorem noteFreeze_linkCore (s : State) (b : Nat) : (noteFreeze s b).linkCore = s.linkCore := rfl

@[simp] theorem noteFreeze_plane_quiet (s : State) (b : Nat) : (noteFreeze s b).plane.quiet = s.plane.quiet := rfl

@[simp] theorem bumpSnapshot_linkCore (s : State) : (bumpSnapshot s).linkCore = s.linkCore := by
  unfold bumpSnapshot
  split <;> rfl

@[simp] theorem bumpSnapshot_plane_quiet (s : State) : (bumpSnapshot s).plane.quiet = s.plane.quiet := by
  unfold bumpSnapshot
  split <;> rfl

@[simp] theorem updateChan_linkCore (s : State) (ch : Nat) : (updateChan s ch).linkCore = s.linkCore := by
  unfold updateChan
  dsimp only
  split_ifs <;> simp

@[simp] theorem updateChan_plane_quiet (s : State) (ch : Nat) : (updateChan s ch).plane.quiet = s.plane.quiet := by
  unfold updateChan
  dsimp only
  split_ifs <;> simp

@[simp] theorem reportCause_linkCore (s : State) (ch cause detail : Nat) : (reportCause s ch cause detail).linkCore = s.linkCore := by
  unfold reportCause
  dsimp only
  split <;> simp

@[simp] theorem reportCause_plane_quiet (s : State) (ch cause detail : Nat) : (reportCause s ch cause detail).plane.quiet = s.plane.quiet := by
  unfold reportCause
  dsimp only
  split <;> simp

@[simp] theorem lockChan_linkCore (s : State) (ch cause detail : Nat) : (lockChan s ch cause detail).linkCore = s.linkCore := by simp [lockChan]

@[simp] theorem lockChan_plane_quiet (s : State) (ch cause detail : Nat) : (lockChan s ch cause detail).plane.quiet = s.plane.quiet := by simp [lockChan]

@[simp] theorem stopRetry_linkCore (s : State) (ch : Nat) : (stopRetry s ch).linkCore = s.linkCore := by
  unfold stopRetry
  dsimp only
  split <;> simp

@[simp] theorem stopRetry_plane_quiet (s : State) (ch : Nat) : (stopRetry s ch).plane.quiet = s.plane.quiet := by
  unfold stopRetry
  dsimp only
  split <;> simp

@[simp] theorem leaveQueue_linkCore (s : State) (ch : Nat) : (leaveQueue s ch).linkCore = s.linkCore := rfl

@[simp] theorem leaveQueue_plane_quiet (s : State) (ch : Nat) : (leaveQueue s ch).plane.quiet = s.plane.quiet := rfl

@[simp] theorem commandChan_linkCore (s : State) (ch : Nat) (v : PVal) : (commandChan s ch v).linkCore = s.linkCore := by
  unfold commandChan
  dsimp only
  split_ifs <;> simp

@[simp] theorem commandChan_plane_quiet (s : State) (ch : Nat) (v : PVal) : (commandChan s ch v).plane.quiet = s.plane.quiet := by
  unfold commandChan
  dsimp only
  split_ifs <;> simp

@[simp] theorem commandChan_store (s : State) (ch : Nat) (v : PVal) : (commandChan s ch v).store = s.store := by
  unfold commandChan
  dsimp only
  split_ifs <;> simp

@[simp] theorem commandChan_now (s : State) (ch : Nat) (v : PVal) : (commandChan s ch v).now = s.now := by
  unfold commandChan
  dsimp only
  split_ifs <;> simp

/-! What a command of the internal link does to a channel (R122, R125). -/

theorem cmd_stopRetry (s : State) (ch k : Nat) : (chanOf (stopRetry s ch) k).cmd = (chanOf s k).cmd :=
  (congrArg Chan.cmd (beyondCond_stopRetry s ch k) :)

/-- A commanded channel before its drive follows: it stops retrying where it is commanded off, and waits for nothing where it is free. -/
def commanded (s : State) (ch : Nat) (v : PVal) : State :=
  let s := s.onChan ch fun c => { c with cmd := v }
  let s := if d12 v = 0 then stopRetry s ch else s
  if d12 v ≠ 0 ∧ (chanOf s ch).cond.free then leaveQueue (s.onCond ch fun k => { k with waiting := false }) ch
  else if d12 v = 0 ∧ (chanOf s ch).cond.free then s.onCond ch fun k => { k with waiting := false }
  else s

theorem commandChan_eq (s : State) (ch : Nat) (v : PVal) : commandChan s ch v =
    let u := updateChan (commanded s ch v) ch
    if (chanOf u ch).driving ∧ d12 v ≠ 0 ∧ d12 (chanOf s ch).cmd ≠ d12 v ∧ (d12 (chanOf s ch).cmd = 4095 ∨ d12 v = 4095) then
      u.onChan ch fun c => { c with duty := d12 v, onUntil := u.now - periodPos (gridOf u ch).1 (gridOf u ch).2 u.now + onTicks (gridOf u ch).1 (d12 v) }
    else u := rfl

theorem cmd_commanded (s : State) (ch : Nat) (v : PVal) (h : ch < 56) : (chanOf (commanded s ch v) ch).cmd = v := by
  unfold commanded
  dsimp only
  split_ifs <;> simp [h, cmd_stopRetry]

theorem commanded_other (s : State) (ch k : Nat) (v : PVal) (h : ch ≠ k) : chanOf (commanded s ch v) k = chanOf s k := by
  unfold commanded
  dsimp only
  split_ifs <;> simp [onCond_other _ _ _ _ h, onChan_other _ _ _ _ h, chanOf_stopRetry_other _ _ _ h]

/-- A command changes its own channel only. -/
theorem commandChan_other (s : State) (ch k : Nat) (v : PVal) (h : ch ≠ k) : chanOf (commandChan s ch v) k = chanOf s k := by
  rw [commandChan_eq]
  dsimp only
  split
  · rw [onChan_other _ _ _ _ h, chanOf_updateChan_other _ _ _ h, commanded_other _ _ _ _ h]
  · rw [chanOf_updateChan_other _ _ _ h, commanded_other _ _ _ _ h]

/-- A commanded channel has its value, and drives where it wants to. -/
theorem commandChan_commands (s : State) (ch : Nat) (v : PVal) (h : ch < 56) : (chanOf (commandChan s ch v) ch).cmd = v ∧
    (chanOf (commandChan s ch v) ch).driving = (chanOf (commanded s ch v) ch).wants := by
  rw [commandChan_eq]
  dsimp only
  split <;> simp [h, cmd_commanded]

/-- No turn of a channel's drive forces it. -/
theorem forced_updateChan (s : State) (ch : Nat) (h : ch < 56) (hfree : (chanOf s ch).forced = false) :
    (chanOf (updateChan s ch) ch).forced = false := by
  unfold updateChan
  dsimp only
  split_ifs <;> simp [h, hfree]

theorem forced_stopRetry (s : State) (ch : Nat) (h : ch < 56) (hfree : (chanOf s ch).forced = false) :
    (chanOf (stopRetry s ch) ch).forced = false := by
  unfold stopRetry lockChan
  dsimp only
  split
  · rw [chanOf_bumpSnapshot]
    exact forced_updateChan _ _ h (by simp [h, hfree])
  · exact hfree

/-- A channel commanded off does not want to drive unless a reverse current forces it. -/
theorem wants_commanded_off (s : State) (ch : Nat) (v : PVal) (h : ch < 56) (hv : d12 v = 0) (hfree : (chanOf s ch).forced = false) :
    (chanOf (commanded s ch v) ch).wants = false := by
  have hforced : (chanOf (commanded s ch v) ch).forced = false := by
    have hstop := forced_stopRetry (s.onChan ch fun c => { c with cmd := v }) ch h (by simp [h, hfree])
    unfold commanded
    dsimp only
    split_ifs <;> simp [h, hstop, hfree]
  simp [Chan.wants, hforced, cmd_commanded _ _ _ h, hv]

/-- A channel commanded on wants to drive where nothing holds or locks it and no retry pause runs. -/
theorem wants_commanded_on (s : State) (ch : Nat) (v : PVal) (h : ch < 56) (hv : d12 v ≠ 0) (hfree : (chanOf s ch).cond.free = true)
    (hretry : (chanOf s ch).retryAt = none) : (chanOf (commanded s ch v) ch).wants = true := by
  have hcond : ({ (chanOf s ch).cond with waiting := false } : Cond).free = true := hfree
  simp [commanded, hv, h, hfree, Chan.wants, hretry, hcond]


/-! The fail states of the hold (R68). -/

theorem failChan_other (s : State) (ch k : Nat) (h : ch ≠ k) : chanOf (failChan s ch) k = chanOf s k := by
  unfold failChan
  split
  · exact commandChan_other _ _ _ _ h
  · rfl

theorem failChan_store (s : State) (ch : Nat) : (failChan s ch).store = s.store := by
  unfold failChan
  split
  · exact commandChan_store ..
  · rfl

/-- The channels below `n` have taken their fail states, each on its own. -/
theorem failChans (s : State) : ∀ n, ((List.range n).foldl failChan s).store = s.store ∧
    ∀ ch, chanOf ((List.range n).foldl failChan s) ch = if ch < n then chanOf (failChan ((List.range ch).foldl failChan s) ch) ch else chanOf s ch
  | 0 => ⟨rfl, fun ch => by simp⟩
  | n + 1 => by
    obtain ⟨hstore, hchan⟩ := failChans s n
    rw [List.range_succ, List.foldl_append, List.foldl_cons, List.foldl_nil]
    refine ⟨(failChan_store ..).trans hstore, fun ch => ?_⟩
    by_cases he : ch = n
    · simp [he]
    · rw [failChan_other _ _ _ (Ne.symm he), hchan]
      simp only [show ch < n + 1 ↔ ch < n by omega]

theorem commandSeg_load_ch (s : State) (n k : Nat) (v : PVal) : (commandSeg s n k v).load.ch = s.load.ch := by
  unfold commandSeg
  dsimp only
  split_ifs <;> simp

theorem failString_load_ch (s : State) (n : Nat) : (failString s n).load.ch = s.load.ch := by
  unfold failString
  split
  · next v _ =>
    have hsegs := foldl_keeps (fun u : State => u.load.ch) (fun u k => commandSeg u n k v) (fun u k => commandSeg_load_ch u n k v) (List.range 16) s
    dsimp only
    split
    · exact hsegs
    · exact hsegs
  · rfl

theorem failHb_load (s : State) (m : Nat) : (failHb s m).load = s.load := by simp [failHb]

/-- The fail states of the strings, half-bridges, feeds and valves leave the channels as those of the channels left them. -/
theorem applyFails_ch (s : State) : (applyFails s).load.ch = ((List.range 56).foldl failChan s).load.ch := by
  unfold applyFails
  dsimp only
  rw [foldl_keeps (fun u : State => u.load.ch) failValve (fun _ _ => rfl),
    foldl_keeps (fun u : State => u.load.ch) _ (fun u f => congrArg LoadDie.ch (stopFeed_load u f .cancelled)),
    foldl_keeps (fun u : State => u.load.ch) failHb (fun u m => congrArg LoadDie.ch (failHb_load u m)),
    foldl_keeps (fun u : State => u.load.ch) failString failString_load_ch]

/-- A channel takes its fail state (R68). -/
theorem applyFails_chan (s : State) (ch : Nat) (h : ch < 56) : ((vget s.store.load.fail ch).mode = 0 →
      (chanOf (applyFails s) ch).cmd = 0 ∧ ((chanOf s ch).forced = false → (chanOf (applyFails s) ch).driving = false)) ∧
    ((vget s.store.load.fail ch).mode = 1 → (chanOf (applyFails s) ch).cmd = 65535 ∧
      ((chanOf s ch).cond.free = true → (chanOf s ch).retryAt = none → (chanOf (applyFails s) ch).driving = true)) ∧
    ((vget s.store.load.fail ch).mode = 2 → chanOf (applyFails s) ch = chanOf s ch) ∧
    ((vget s.store.load.fail ch).mode = 3 → (chanOf (applyFails s) ch).cmd = BitVec.ofNat 16 (vget s.store.load.fail ch).duty) := by
  obtain ⟨-, hall⟩ := failChans s 56
  obtain ⟨hstore, hself⟩ := failChans s ch
  have hsame : chanOf ((List.range ch).foldl failChan s) ch = chanOf s ch := by rw [hself, if_neg (Nat.lt_irrefl ch)]
  rw [chanOf_of_ch (applyFails_ch s), hall, if_pos h, failChan, hstore]
  generalize (List.range ch).foldl failChan s = u at hsame
  unfold failValue
  refine ⟨fun hmode => ?_, fun hmode => ?_, fun hmode => ?_, fun hmode => ?_⟩
  · obtain ⟨hcmd, hdrive⟩ := commandChan_commands u ch 0 h
    simp only [hmode, if_true]
    exact ⟨hcmd, fun hfree => hdrive.trans (wants_commanded_off u ch 0 h rfl (by rw [hsame, hfree]))⟩
  · obtain ⟨hcmd, hdrive⟩ := commandChan_commands u ch 65535 h
    simp only [hmode, if_true, Nat.one_ne_zero, if_false]
    exact ⟨hcmd, fun hfree hretry => hdrive.trans (wants_commanded_on u ch 65535 h (by decide) (by rw [hsame, hfree]) (by rw [hsame, hretry]))⟩
  · simpa [hmode] using hsame
  · obtain ⟨hcmd, -⟩ := commandChan_commands u ch (BitVec.ofNat 16 (vget s.store.load.fail ch).duty) h
    simpa [hmode] using hcmd

/-! Frames, HOLD and adoption (R66–R70). -/

/-- A frame of one command for a channel commands it (R66). -/
theorem applyFrame_commands (s : State) (f : L2Frame) (n ch : Nat) (v : PVal) (h : ch < 56) (hticks : f.ticks = [⟨n, [(pointAt 80 ch, v)]⟩])
    (hfirst : s.link.applied ≤ n) (hlast : n < f.lin) :
    (applyFrame s f).link.applied = f.lin ∧ (applyFrame s f).link.missed = 0 ∧ (chanOf (applyFrame s f) ch).cmd = v := by
  have hgallery : gallery (pointAt 80 ch) = 80 := by simp only [gallery, pointAt]; omega
  have hposition : position (pointAt 80 ch) = ch := by simp only [position, pointAt]; omega
  have happly : applyFrame s f = commandChan { s with link := { s.link with applied := f.lin, missed := 0 } } ch v := by
    simp [applyFrame, hticks, hfirst, hlast, powerCommand, hgallery, hposition, h]
  have hlink := commandChan_linkCore { s with link := { s.link with applied := f.lin, missed := 0 } } ch v
  rw [happly]
  exact ⟨(congrArg Link.applied hlink :), (congrArg Link.missed hlink :), (commandChan_commands _ ch v h).1⟩

/-- The values that differ from G80 are written for the keeper, and nothing of the dies, the link, the store or the tick hall's count changes (R69). -/
theorem readBackWrites_keep (s : State) (l : List (Nat × PVal)) :
    let u := adoptFeeds (l.foldl (fun s e => if pget s e.1 = e.2 then s else adoptWrite s e.1 e.2) s)
    u.load = s.load ∧ u.motor = s.motor ∧ u.link = s.link ∧ u.store = s.store ∧ u.plane.quiet = s.plane.quiet := by
  have hfold {γ : Type} (g : State → γ) (hwrite : ∀ u pt v, g (adoptWrite u pt v) = g u) :
      g (l.foldl (fun s e => if pget s e.1 = e.2 then s else adoptWrite s e.1 e.2) s) = g s :=
    foldl_keeps g _ (fun u e => by split <;> simp [hwrite]) l s
  dsimp only
  rw [adoptFeeds_load, adoptFeeds_motor, adoptFeeds_link, adoptFeeds_store, adoptFeeds_plane_quiet]
  exact ⟨hfold State.load (by simp), hfold State.motor (by simp), hfold State.link (by simp), hfold State.store (by simp),
    hfold (fun u => u.plane.quiet) (by simp)⟩

theorem keepsItems_motorEvents (l : List (Nat × Nat)) : ∀ s : State, KeepsItems s (l.foldl (fun s e => motorEvent s 0x0301 e.1 e.2) s) := by
  induction l with
  | nil => exact fun _ _ _ hx => hx
  | cons e l ih => exact fun s => (keepsItems_observe _ _ _ _ _ _).trans (ih _)

/-- The ends of runs that were kept back are posted, and nothing else of a half-bridge changes (R157). -/
theorem postEndEvents_keeps (s : State) : (postEndEvents s).load = s.load ∧ (postEndEvents s).motor.hb = s.motor.hb ∧ (postEndEvents s).link = s.link ∧
    (postEndEvents s).plane.quiet = s.plane.quiet ∧ KeepsItems s (postEndEvents s) := by
  unfold postEndEvents
  dsimp only
  refine ⟨?_, ?_, ?_, ?_, ?_⟩
  · rw [foldl_keeps State.load _ (by simp)]
  · rw [foldl_keeps State.motor _ (by simp)]
  · rw [foldl_keeps State.link _ (by simp)]
  · rw [foldl_keeps (fun u : State => u.plane.quiet) _ (by simp)]
  · exact keepsItems_motorEvents s.motor.endEvents { s with motor := { s.motor with endEvents := [] } }

theorem leaveHold_eq (s : State) : leaveHold s = { s.onPlane fun p => { p with frame := adoptFrame s } with link := { s.link with
    synced := true, hold := false, count := s.wallLin, applied := s.wallLin, missed := 0, failApplied := false, holdTime := s.store.load.hold } } := by
  unfold leaveHold acceptAdopt
  dsimp only
  exact if_pos ⟨rfl, rfl⟩

/-- ADOPT is posted with the hold duration (R70). -/
theorem noteAdopt_posts (s : State) (ticks : Nat) (failed : Bool) :
    LogsOnly s (noteAdopt s ticks failed) ∧
    Posted s (noteAdopt s ticks failed) (s.ev 1 0x010A (bitsOf ticks 16 16 + 2 ^ 18 * b2n failed) (ticks % 65536)) := by
  unfold noteAdopt
  dsimp only
  generalize s.ev 1 0x010A (bitsOf ticks 16 16 + 2 ^ 18 * b2n failed) (ticks % 65536) = e
  have hlog := logsOnly_logDevice (postEvent s e) 0x0102 true
    (leBytes 4 (min ticks 0xFFFFFFFF) ++ leBytes 1 (b2n failed) ++ leBytes 1 (postEvent s e).ret.cause.cause)
  refine ⟨(logsOnly_postEvent s e).trans hlog, fun hrings => ?_⟩
  obtain ⟨it, hin, hit⟩ := postEvent_posted s e hrings
  exact ⟨it, hlog.items 6 it hin, hit⟩

/-- Adoption sends the ADOPT frame, ends HOLD with every load as it was, and posts ADOPT (R69, R70). -/
theorem adopt_adopts (s : State) (hrun : s.plane.running = true) (hcore : s.seq.core = true) (hhold : s.link.hold = true)
    (hreset : s.seq.inReset = false) : (adopt s).link.hold = false ∧ (adopt s).link.synced = true ∧ (adopt s).link.failApplied = false ∧
    (adopt s).plane.frame.adopt = true ∧ (adopt s).plane.frame.snapshot = s.link.snapshot ∧ (adopt s).load = s.load ∧
    (adopt s).motor.hb = s.motor.hb ∧
    Posted s (adopt s) (s.ev 1 0x010A (bitsOf (holdTicks s) 16 16 + 2 ^ 18 * b2n s.link.failApplied) (holdTicks s % 65536)) := by
  obtain ⟨hload, hmotor, hlink, hstore, hplane⟩ := readBackWrites_keep s (readBack s)
  unfold adopt
  rw [if_pos ⟨hrun, hcore, hhold, by rw [hreset]; rfl⟩]
  dsimp only at hload hmotor hlink hstore hplane ⊢
  generalize holdTicks s = ticks
  generalize adoptFeeds _ = u at hload hmotor hlink hstore hplane ⊢
  obtain ⟨hlog, hpost⟩ := noteAdopt_posts (leaveHold u) ticks s.link.failApplied
  generalize noteAdopt (leaveHold u) ticks s.link.failApplied = w at hlog hpost ⊢
  obtain ⟨hload', hhb, hlink', hplane', hitems⟩ := postEndEvents_keeps w
  have hwlink : w.link = (leaveHold u).link := (congrArg State.link hlog.rest :)
  have hwframe : w.plane.frame = (leaveHold u).plane.frame := (congrArg (fun x : State => x.plane.frame) hlog.rest :)
  have hwload : w.load = (leaveHold u).load := (congrArg State.load hlog.rest :)
  have hwmotor : w.motor = (leaveHold u).motor := (congrArg State.motor hlog.rest :)
  have hframe : (postEndEvents w).plane.frame = adoptFrame u := by
    have hkept : (postEndEvents w).plane.frame = w.plane.frame := (congrArg Plane.frame hplane' :)
    rw [hkept, hwframe, leaveHold_eq]
    rfl
  rw [hframe, hlink', hload', hhb, hwlink, hwload, hwmotor, leaveHold_eq]
  refine ⟨rfl, rfl, rfl, rfl, congrArg Link.snapshot hlink, hload, congrArg MotorDie.hb hmotor, fun hrings => ?_⟩
  have hev (kind address value : Nat) : (leaveHold u).ev 1 kind address value = s.ev 1 kind address value := by
    have hstamp : (leaveHold u).stamp = s.stamp := by
      rw [leaveHold_eq]
      have hr : u.plane.running = s.plane.running := (congrArg Plane.running hplane :)
      have he : u.plane.epoch = s.plane.epoch := (congrArg Plane.epoch hplane :)
      have ht : u.plane.tick = s.plane.tick := (congrArg Plane.tick hplane :)
      simp [State.stamp, hr, he, ht]
    simp only [State.ev, hstamp]
  rw [← hev] at hrings ⊢
  obtain ⟨it, hin, hit⟩ := hpost (by
    rwa [eventRings_congr (s := s)]
    · rw [leaveHold_eq]; exact (congrArg Plane.settings hplane :)
    · rw [leaveHold_eq]; exact (congrArg Plane.epoch hplane :)
    · rw [leaveHold_eq]; exact congrArg Store.sys hstore)
  exact ⟨it, hitems 6 it hin, hit⟩

/-- Settles O28: each frame and each step of the hold is the lemma about its model function. -/
theorem internalLinkHoldsAndAdopts : Obligations.InternalLinkHoldsAndAdopts := by
  refine ⟨fun f s hcore hhold hbad => ⟨(frameRx s f).withPending s.pending, rfl, ?_⟩,
    fun f n ch v s hcore hhold hsync hcrc hlin h hticks hfirst hlast => ⟨(frameRx s f).withPending s.pending, rfl, ?_⟩,
    fun f s hcore hhold hcrc hadopt hsnap => ⟨(frameRx s f).withPending s.pending, rfl, ?_⟩,
    fun f s hcore hhold hbad => ⟨(frameRx s f).withPending s.pending, rfl, ?_⟩,
    fun s hcore hsync hhold hmissed => ⟨(holdEntry s).withPending s.pending, rfl, ?_⟩,
    fun s hcore hhold hfails htime => ⟨(holdExpiry s).withPending s.pending, rfl, ?_⟩,
    fun s hrun hcore hdrop => ⟨_, rfl, ?_⟩,
    fun s hrun hcore hhold hreset => ⟨(adopt s).withPending s.pending, rfl, adopt_adopts s hrun hcore hhold hreset⟩⟩
  · simp [frameRx, hcore, hhold, hbad]
  · simp only [withPending_link, chanOf_withPending, frameRx, hcore, hhold, hsync, hcrc, hlin, Bool.not_true, Bool.false_eq_true, if_false, and_self, if_true]
    rw [← hlin]
    exact applyFrame_commands s f n ch v h hticks hfirst hlast
  · simp [frameRx, hcore, hhold, hcrc, hadopt, hsnap, acceptAdopt]
  · simp [frameRx, hcore, hhold, hbad]
  · simp [holdEntry, hcore, hsync, hhold, hmissed]
  · have hexpires : holdExpiry s = applyFails s := if_pos ⟨hcore, hhold, by rw [hfails]; rfl, htime⟩
    simp only [withPending_link, chanOf_withPending, hexpires]
    exact ⟨rfl, fun ch h => applyFails_chan s ch h⟩
  · simp [hrun, hcore, hdrop]

end Sys2Proof.Machine

namespace Sys2Proof.Machine

open Sys2Proof.Claims

/-! Packets that run now: their status, their reply, and what their completion leaves as it is (R76–R79). -/

/-- The tick hall's own count: what completions and events are stamped with. -/
def State.clock (s : State) : Bool × Nat × Nat := (s.plane.running, s.plane.epoch, s.plane.tick)

theorem clock_of_plane {s t : State} (h : t.plane = s.plane) : t.clock = s.clock := by simp only [State.clock, h]

theorem stamp_of_clock {s t : State} (h : t.clock = s.clock) : t.stamp = s.stamp := by
  simp only [State.clock, Prod.mk.injEq] at h
  obtain ⟨hrun, hepoch, htick⟩ := h
  simp only [State.stamp, hrun, hepoch, htick]

theorem dueTick_of_clock {s t : State} (h : t.clock = s.clock) (fast : Bool) (p : Packet) : dueTick fast p t = dueTick fast p s := by
  simp only [State.clock, Prod.mk.injEq] at h
  obtain ⟨-, hepoch, htick⟩ := h
  simp only [dueTick, hepoch, htick]

@[simp] theorem release_clock (s : State) (p : Packet) : (release s p).clock = s.clock := rfl

@[simp] theorem counted_clock (s : State) (p : Packet) : (counted s p).clock = s.clock := rfl

/-- A packet that completes in a state of the same count completes. -/
theorem Completed.of_clock {p : Packet} {st : Status} {s u t : State} (h : Completed p st u t) (hclock : u.clock = s.clock) : Completed p st s t := by
  unfold Completed replyTick at h ⊢
  rwa [stamp_of_clock hclock, dueTick_of_clock hclock] at h

/-- A keeper packet that runs now and that its opcode answers completes with the answer (R79). -/
theorem keeperTake_answers {o : Op} {p : Packet} {s u : State} {st : Status} {r : Reply} (h : KeeperRuns o p s)
    (hrefuse : o.refuse p (release s p) = none) (hrun : o.run p (release s p) = { s := u, st := some st, reply := r })
    (hagree : o.agree p (release s p) u = true) : keeperTake o p s = completeNow u p st r := by
  have htake := keeperTake_runs o p s h (by rw [hrun]; exact hagree)
  rw [carryOut_runs o p _ hrefuse, hrun] at htake
  exact htake

/-- A keeper packet that runs now and that its opcode lets wait has done what its run does (R79). -/
theorem keeperTake_waits {o : Op} {p : Packet} {s u : State} {r : Reply} (h : KeeperRuns o p s)
    (hrefuse : o.refuse p (release s p) = none) (hrun : o.run p (release s p) = { s := u, st := none, reply := r })
    (hagree : o.agree p (release s p) u = true) : keeperTake o p s = u := by
  have htake := keeperTake_runs o p s h (by rw [hrun]; exact hagree)
  rw [carryOut_runs o p _ hrefuse, hrun] at htake
  exact htake

/-- A fast packet that runs now and that its opcode answers completes with the answer (R79). -/
theorem fastTake_answers {o : Op} {p : Packet} {s u : State} {st : Status} {r : Reply} (h : FastRuns o p s)
    (hrefuse : o.refuse p (counted s p) = none) (hrun : o.run p (counted s p) = { s := u, st := some st, reply := r })
    (hagree : o.agree p (counted s p) u = true) : fastTake o p s = completeNow u p st r := by
  have htake := fastTake_runs o p s h (by rw [hrun]; exact hagree)
  rw [carryOut_runs o p _ hrefuse, hrun] at htake
  exact htake

/-- A fast packet that runs now and that its opcode lets wait has done what its run does (R79). -/
theorem fastTake_waits {o : Op} {p : Packet} {s u : State} {r : Reply} (h : FastRuns o p s)
    (hrefuse : o.refuse p (counted s p) = none) (hrun : o.run p (counted s p) = { s := u, st := none, reply := r })
    (hagree : o.agree p (counted s p) u = true) : fastTake o p s = u := by
  have htake := fastTake_runs o p s h (by rw [hrun]; exact hagree)
  rw [carryOut_runs o p _ hrefuse, hrun] at htake
  exact htake

/-- The plane but for what a completion changes: the rings, the results, the landings and the ring of a replay. -/
def Plane.beyondCompletion (p : Plane) : Plane :=
  { p with rings := Vector.replicate 64 {}, results := [], landings := Vector.replicate 10 {}, replay := { p.replay with cmdRing := [] } }

theorem memWriteN_plane (s : State) (a : Nat) (l : List Byte) : (memWriteN s a l).plane = s.plane := by rw [memWriteN_only]

theorem giveReply_plane (s : State) (b : TrialItem) (w : List (Nat × List Byte)) : (giveReply s b w).plane = s.plane := by
  unfold giveReply
  refine foldl_keeps State.plane _ (fun u e => ?_) w s
  split
  · rw [memWriteN_plane, memWriteN_plane]
  · rw [memWriteN_plane]

theorem mirrorReply_plane (s : State) (r slot : Nat) (w : List (Nat × List Byte)) : (mirrorReply s r slot w).plane = s.plane := by
  unfold mirrorReply
  dsimp only
  split
  · rfl
  · split
    · exact giveReply_plane ..
    · split <;> rfl

theorem writeReply_plane (s : State) (p : Packet) (st : Status) (r : Reply) (done : Stamp) : (writeReply s p st r done).plane = s.plane := by
  have hmirror (b : Bool) (w : List (Nat × List Byte)) : (if b then mirrorReply s p.ring p.slot w else s).plane = s.plane := by
    split
    · exact mirrorReply_plane ..
    · rfl
  unfold writeReply
  dsimp only
  split
  · rw [memWriteN_plane, memWriteN_plane, hmirror]
  · exact hmirror ..

theorem postEvent_beyondCompletion (s : State) (e : Ev) : (postEvent s e).plane.beyondCompletion = s.plane.beyondCompletion := by
  rw [postEvent_only]
  rfl

@[simp] theorem completeNow_beyondCompletion (s : State) (p : Packet) (st : Status) (r : Reply) :
    (completeNow s p st r).plane.beyondCompletion = s.plane.beyondCompletion := by
  unfold completeNow completeAt
  dsimp only
  have hsettled : (if replyHidden p s = true then dropReplayed s p else retirePacket (writeReply s p st r s.stamp) p).plane.beyondCompletion =
      s.plane.beyondCompletion := by
    split
    · rfl
    · exact (congrArg Plane.beyondCompletion (writeReply_plane s p st r s.stamp) :)
  split
  · rw [postEvent_beyondCompletion]
    exact hsettled
  · exact hsettled

@[simp] theorem completeNow_clock (s : State) (p : Packet) (st : Status) (r : Reply) : (completeNow s p st r).clock = s.clock :=
  (congrArg (fun q : Plane => (q.running, q.epoch, q.tick)) (completeNow_beyondCompletion s p st r) :)

/-! The reply of a packet stands in its slot (R77, R78). -/

theorem length_leBytes (n : Nat) : ∀ x, (leBytes n x).length = n := by
  induction n with
  | zero => exact fun _ => rfl
  | succ n ih => exact fun x => congrArg (· + 1) (ih (x / 256))

theorem length_replyHeader (p : Packet) (st : Status) (done : Stamp) : (replyHeader p st done).length = 16 := by
  simp [replyHeader, length_leBytes]

theorem length_replyBody (slots : Nat) (r : Reply) : (replyBody slots r).length = 64 * slots - 16 := length_leBytes _ _

theorem giveReply_wf (s : State) (b : TrialItem) (w : List (Nat × List Byte)) (h : Tbl.wf 0 s.mem = true) :
    Tbl.wf 0 (giveReply s b w).mem = true := by
  unfold giveReply
  refine List.foldlRecOn (motive := fun u : State => Tbl.wf 0 u.mem = true) w _ h fun u hu e _ => ?_
  split
  · exact memWriteN_wf _ _ _ (memWriteN_wf _ _ _ hu)
  · exact memWriteN_wf _ _ _ hu

theorem mirrorReply_wf (s : State) (r slot : Nat) (w : List (Nat × List Byte)) (h : Tbl.wf 0 s.mem = true) :
    Tbl.wf 0 (mirrorReply s r slot w).mem = true := by
  unfold mirrorReply
  dsimp only
  split
  · exact h
  · split
    · exact giveReply_wf _ _ _ h
    · split
      · exact h
      · exact h

/-- Outside a trial no reply is mirrored (R339). -/
theorem mirrorReply_of_no_trial (s : State) (r slot : Nat) (w : List (Nat × List Byte)) (h : trialRuns s = false) : mirrorReply s r slot w = s := by
  have hstate : s.image.trial.state ≠ 2 := by simpa [trialRuns] using h
  simp only [mirrorReply, hstate, ne_eq, not_false_eq_true, if_true]

/-- A read of bytes reads the same where memory is the same there. -/
theorem memReadN_congr {s t : State} {a n : Nat} (h : ∀ i, i < n → memRead t (a + i) = memRead s (a + i)) : memReadN t a n = memReadN s a n :=
  List.map_congr_left fun i hi => h i (List.mem_range.1 hi)

/-- A reply in its slot: the header in the first 16 bytes, and the body behind them. -/
theorem memReadN_reply (s : State) (a : Nat) (head body : List Byte) (hhead : head.length = 16) (hwf : Tbl.wf 0 s.mem = true) :
    memReadN (memWriteN (memWriteN s (a + 16) body) a head) a 16 = head ∧
    memReadN (memWriteN (memWriteN s (a + 16) body) a head) (a + 16) body.length = body := by
  constructor
  · have hread := memReadN_memWriteN (memWriteN s (a + 16) body) a head (memWriteN_wf _ _ _ hwf)
    rwa [hhead] at hread
  · rw [memReadN_congr (s := memWriteN s (a + 16) body) fun i _ => memRead_memWriteN_out _ _ _ _ (.inr (by omega))]
    exact memReadN_memWriteN s (a + 16) body hwf

theorem completeNow_mem (s : State) (p : Packet) (st : Status) (r : Reply) : (completeNow s p st r).mem =
    if replyHidden p s then s.mem else (writeReply s p st r s.stamp).mem := by
  unfold completeNow completeAt
  dsimp only
  split_ifs
  · rw [postEvent_only]
    rfl
  · rw [postEvent_only]
    rfl
  · rfl
  · rfl

/-- The header and the body of a reply stand in the packet's slot, where the ring has a place for it and no replay hides it (R77, R78). -/
theorem completeNow_writes (s : State) (p : Packet) (st : Status) (r : Reply) (a : Nat) (hwf : Tbl.wf 0 s.mem = true)
    (hshown : replyHidden p s = false) (haddr : (s.ring p.ring).replyAddr p.slot (some p.arrival) = some a) :
    memReadN (completeNow s p st r) a 16 = replyHeader p st s.stamp ∧
    memReadN (completeNow s p st r) (a + 16) (replyBody ((s.ring p.ring).replySlots p) r).length = replyBody ((s.ring p.ring).replySlots p) r := by
  have hmem : (completeNow s p st r).mem = (writeReply s p st r s.stamp).mem := by rw [completeNow_mem, hshown]; rfl
  have hread (b n : Nat) : memReadN (completeNow s p st r) b n = memReadN (writeReply s p st r s.stamp) b n :=
    memReadN_congr fun i _ => by simp only [memRead, hmem]
  rw [hread, hread]
  unfold writeReply
  simp only [haddr]
  refine memReadN_reply _ a _ _ (length_replyHeader ..) ?_
  split
  · exact mirrorReply_wf _ _ _ _ hwf
  · exact hwf

/-- Outside a trial a completion writes no byte beyond the slots of its packet (R78). -/
theorem completeNow_bounded (s : State) (p : Packet) (st : Status) (r : Reply) (b : Nat) (htrial : trialRuns s = false)
    (hout : ∀ a, (s.ring p.ring).replyAddr p.slot (some p.arrival) = some a → b < a ∨ a + 64 * max 1 ((s.ring p.ring).replySlots p) ≤ b) :
    memRead (completeNow s p st r) b = memRead s b := by
  have hwrite : memRead (writeReply s p st r s.stamp) b = memRead s b := by
    unfold writeReply
    dsimp only
    rw [mirrorReply_of_no_trial _ _ _ _ htrial, ite_self]
    split
    · next a ha =>
      have hlen := length_replyBody ((s.ring p.ring).replySlots p) r
      have hhead := length_replyHeader p st s.stamp
      have hb := hout a ha
      rw [memRead_memWriteN_out _ _ _ _ (by omega), memRead_memWriteN_out _ _ _ _ (by omega)]
    · rfl
  simp only [memRead] at hwrite ⊢
  rw [completeNow_mem]
  split
  · rfl
  · exact hwrite

/-- A packet's reply stands in its slot after its completion. -/
theorem completeNow_replied (s : State) (p : Packet) (st : Status) (r : Reply) : Replied p s (completeNow s p st r) r :=
  fun hwf hshown a ha => (completeNow_writes s p st r a hwf hshown ha).2

/-- A reply from a state whose memory, ring and replay are the same is the packet's reply. -/
theorem Replied.of_same {p : Packet} {s u t : State} {r : Reply} (h : Replied p u t r) (hplane : u.plane.rings = s.plane.rings)
    (hreplay : u.plane.replay = s.plane.replay) (hmem : u.mem = s.mem) : Replied p s t r := by
  have hring : u.ring p.ring = s.ring p.ring := by simp only [State.ring, hplane]
  have hhidden : replyHidden p u = replyHidden p s := by simp only [replyHidden, hreplay]
  intro hwf hshown a ha
  have hbody := h (by rwa [hmem]) (by rwa [hhidden]) a (by rwa [hring])
  rwa [hring] at hbody

end Sys2Proof.Machine

namespace Sys2Proof.Machine

open Sys2Proof.Claims

@[simp] theorem endCause_plane_quiet (s : State) (ch cause : Nat) : (endCause s ch cause).plane.quiet = s.plane.quiet := by
  unfold endCause
  split <;> simp

@[simp] theorem endHoldChan_plane_quiet (s : State) (ch cause : Nat) : (endHoldChan s ch cause).plane.quiet = s.plane.quiet := by
  unfold endHoldChan
  split <;> simp

@[simp] theorem resumeChan_plane_quiet (s : State) (ch cause : Nat) : (resumeChan s ch cause).plane.quiet = s.plane.quiet := by
  unfold resumeChan
  dsimp only
  split_ifs <;> simp

@[simp] theorem holdChan_plane_quiet (s : State) (ch cause detail : Nat) : (holdChan s ch cause detail).plane.quiet = s.plane.quiet := by simp [holdChan]

@[simp] theorem onString_plane_quiet (s : State) (n : Nat) (f : Strg → Strg) : (s.onString n f).plane.quiet = s.plane.quiet := rfl

@[simp] theorem onStrCond_plane_quiet (s : State) (n : Nat) (f : Cond → Cond) : (s.onStrCond n f).plane.quiet = s.plane.quiet := rfl

@[simp] theorem reportString_plane_quiet (s : State) (n cause detail : Nat) (fresh : Bool) : (reportString s n cause detail fresh).plane.quiet = s.plane.quiet := by
  unfold reportString
  split <;> simp

@[simp] theorem endString_plane_quiet (s : State) (n cause : Nat) : (endString s n cause).plane.quiet = s.plane.quiet := by
  unfold endString
  split <;> simp

@[simp] theorem updateString_plane_quiet (s : State) (n : Nat) : (updateString s n).plane.quiet = s.plane.quiet := by
  unfold updateString
  dsimp only
  split_ifs <;> simp

@[simp] theorem holdString_plane_quiet (s : State) (n cause detail : Nat) : (holdString s n cause detail).plane.quiet = s.plane.quiet := by simp [holdString]

@[simp] theorem endHoldString_plane_quiet (s : State) (n cause : Nat) : (endHoldString s n cause).plane.quiet = s.plane.quiet := by
  unfold endHoldString
  split <;> simp

@[simp] theorem resumeString_plane_quiet (s : State) (n cause : Nat) : (resumeString s n cause).plane.quiet = s.plane.quiet := by
  unfold resumeString
  dsimp only
  split_ifs <;> simp

@[simp] theorem holdOut_plane_quiet (s : State) (cause ch : Nat) : (holdOut s cause ch).plane.quiet = s.plane.quiet := by
  unfold holdOut
  dsimp only
  split <;> simp

@[simp] theorem endHoldOut_plane_quiet (s : State) (cause ch : Nat) : (endHoldOut s cause ch).plane.quiet = s.plane.quiet := by
  unfold endHoldOut
  split <;> simp

@[simp] theorem resumeOut_plane_quiet (s : State) (cause ch : Nat) : (resumeOut s cause ch).plane.quiet = s.plane.quiet := by
  unfold resumeOut
  split <;> simp

@[simp] theorem joinQueue_plane_quiet (cause : Nat) (s : State) (ch : Nat) : (joinQueue cause s ch).plane.quiet = s.plane.quiet := by
  unfold joinQueue
  split <;> rfl

@[simp] theorem keepGrid_store (s : State) (ch : Nat) : (keepGrid s ch).store = s.store := rfl

@[simp] theorem keepGrid_plane (s : State) (ch : Nat) : (keepGrid s ch).plane = s.plane := rfl

@[simp] theorem keepGrid_mem (s : State) (ch : Nat) : (keepGrid s ch).mem = s.mem := rfl

@[simp] theorem keepGrid_now (s : State) (ch : Nat) : (keepGrid s ch).now = s.now := rfl

@[simp] theorem takeFree_load (s : State) (w : Nat) : (s.takeFree w).2.load = s.load := rfl

@[simp] theorem takeFree_plane (s : State) (w : Nat) : (s.takeFree w).2.plane = s.plane := rfl

@[simp] theorem takeFree_mem (s : State) (w : Nat) : (s.takeFree w).2.mem = s.mem := rfl

@[simp] theorem takeFree_now (s : State) (w : Nat) : (s.takeFree w).2.now = s.now := rfl

@[simp] theorem takeFree_seq (s : State) (w : Nat) : (s.takeFree w).2.seq = s.seq := rfl

@[simp] theorem takeFree_store (s : State) (w : Nat) : (s.takeFree w).2.store = s.store := rfl

@[simp] theorem takeFree_points (s : State) (w : Nat) : (s.takeFree w).2.points = s.points := rfl

@[simp] theorem queueStep_plane_quiet (s : State) (b : Nat) : (queueStep s b).plane.quiet = s.plane.quiet := by
  unfold queueStep
  dsimp only
  split
  · rfl
  · split
    · exact resumeOut_plane_quiet ..
    · rfl

@[simp] theorem relevel_plane_quiet (s : State) (ch : Nat) : (relevel s ch).plane.quiet = s.plane.quiet := by
  have hjoin : (joinQueue 3 (endHoldOut s 3 ch) ch).plane.quiet = s.plane.quiet := by simp
  unfold relevel
  dsimp only
  split
  · split
    · exact hjoin
    · exact hjoin
  · split <;> simp

theorem clock_of_quiet {s t : State} (h : t.plane.quiet = s.plane.quiet) : t.clock = s.clock :=
  (congrArg (fun q : Plane => (q.running, q.epoch, q.tick)) h :)

/-- A keeper packet that runs now and that its opcode answers in the same tick completes with the answer. -/
theorem keeperTake_completes {o : Op} {p : Packet} {s u : State} {st : Status} {r : Reply} (h : KeeperRuns o p s)
    (hrefuse : o.refuse p (release s p) = none) (hrun : o.run p (release s p) = { s := u, st := some st, reply := r })
    (hagree : o.agree p (release s p) u = true) (hclock : u.clock = s.clock) :
    effect s (keeperTake o p s) = .next ((completeNow u p st r).withPending s.pending) ∧
    Completed p st s ((completeNow u p st r).withPending s.pending) :=
  ⟨congrArg (effect s) (keeperTake_answers h hrefuse hrun hagree), Completed.of_clock (completeNow_completed ..) hclock⟩

/-- A fast packet that runs now and that its opcode answers in the same tick completes with the answer. -/
theorem fastTake_completes {o : Op} {p : Packet} {s u : State} {st : Status} {r : Reply} (h : FastRuns o p s)
    (hrefuse : o.refuse p (counted s p) = none) (hrun : o.run p (counted s p) = { s := u, st := some st, reply := r })
    (hagree : o.agree p (counted s p) u = true) (hclock : u.clock = s.clock) :
    effect s (fastTake o p s) = .next ((completeNow u p st r).withPending s.pending) ∧
    Completed p st s ((completeNow u p st r).withPending s.pending) :=
  ⟨congrArg (effect s) (fastTake_answers h hrefuse hrun hagree), Completed.of_clock (completeNow_completed ..) hclock⟩

/-! LOAD.SHED (Table 05.14). -/

/-- What LOAD.SHED leaves before its reply. -/
def shedRun (p : Packet) (s : State) : State :=
  if p.bit 16 0 then s
  else
    let s := s.onStore fun st => { st with load := { st.load with
      bank := vmapIdx st.load.bank fun b g => if p.bit 17 b then bankCfgOf p b else g
      shed := vmapIdx st.load.shed fun ch g =>
        if p.bit (56 + ch) 7 then { level := p.fld (56 + ch) 0 2, resume := p.bit (56 + ch) 2 } else g } }
    (List.range 4).foldl queueStep (((List.range 60).filter fun ch => p.bit (56 + ch) 7).foldl relevel s)

theorem shedRun_clock (p : Packet) (s : State) : (shedRun p s).clock = s.clock := by
  unfold shedRun
  split
  · rfl
  · refine clock_of_quiet ?_
    dsimp only
    rw [foldl_keeps (fun u : State => u.plane.quiet) queueStep queueStep_plane_quiet,
      foldl_keeps (fun u : State => u.plane.quiet) relevel relevel_plane_quiet]
    rfl

theorem shedRun_store (p : Packet) (s : State) (hwrite : p.bit 16 0 = false) : (shedRun p s).store.load = { s.store.load with
    bank := vmapIdx s.store.load.bank fun b g => if p.bit 17 b then bankCfgOf p b else g
    shed := vmapIdx s.store.load.shed fun ch g =>
      if p.bit (56 + ch) 7 then { level := p.fld (56 + ch) 0 2, resume := p.bit (56 + ch) 2 } else g } := by
  unfold shedRun
  rw [if_neg (by rw [hwrite]; exact Bool.false_ne_true)]
  dsimp only
  rw [foldl_keeps State.store queueStep queueStep_store, foldl_keeps State.store relevel relevel_store]
  rfl

/-- A LOAD.SHED whose banks agree completes S_OK with what its run leaves (R52). -/
theorem loadShed_completes (p : Packet) (s : State) (h : KeeperRuns loadShedOp p s)
    (hagree : (List.range 4).all (fun b => (bankCfg (shedRun p (release s p)) b).agrees) = true) :
    ∃ t, exec (.loadShed p) s = .next t ∧ Completed p .ok s t ∧ t.load = (shedRun p (release s p)).load ∧ t.store = (shedRun p (release s p)).store := by
  obtain ⟨hexec, hdone⟩ := keeperTake_completes h rfl (u := shedRun p (release s p)) rfl hagree (shedRun_clock ..)
  exact ⟨_, hexec, hdone, completeNow_load .., completeNow_store ..⟩

/-- Banks that a LOAD.SHED does not write agree as before. -/
theorem bankCfg_of_bank {s t : State} (h : t.store.load.bank = s.store.load.bank) (b : Nat) : bankCfg t b = bankCfg s b := by
  simp only [bankCfg, h]

/-- A LOAD.SHED that names no bank leaves the bank settings as they are. -/
theorem shedRun_bank (p : Packet) (s : State) (hwrite : p.bit 16 0 = false) (hnone : p.fld 17 0 4 = 0) :
    (shedRun p s).store.load.bank = s.store.load.bank := by
  rw [shedRun_store p s hwrite]
  refine Vector.ext fun b hb => ?_
  have hbit : p.bit 17 b = false := by
    have hfield : (p.fld 17 0 4).testBit b = p.bit 17 b := by
      simp only [Packet.fld, Packet.bit, bitsOf, Nat.testBit_mod_two_pow, hb, decide_true, Bool.true_and, Nat.testBit_shiftRight, Nat.zero_add]
    rw [← hfield, hnone, Nat.zero_testBit]
  simp [vmapIdx, hbit]

/-- The level of an output that a LOAD.SHED names. -/
theorem shedRun_shed (p : Packet) (s : State) (ch : Nat) (hwrite : p.bit 16 0 = false) (h : ch < 60) (hnamed : p.bit (56 + ch) 7 = true) :
    vget (shedRun p s).store.load.shed ch = { level := p.fld (56 + ch) 0 2, resume := p.bit (56 + ch) 2 } := by
  rw [shedRun_store p s hwrite, vget_vmapIdx _ _ _ h, if_pos hnamed]

/-! LOAD.FAILSTATE (Table 05.12). -/

/-- What LOAD.FAILSTATE leaves where it writes a hold time. -/
def failstateRun (p : Packet) (s : State) : State :=
  { s.onStore fun st => { st with load := { st.load with
      hold := p.num 18 2
      fail := (List.range (cfgCount p)).foldl (fun v i => vmod v (p.num (24 + 4 * i) 1) fun _ =>
        { mode := p.fld (25 + 4 * i) 0 2, duty := p.num (26 + 4 * i) 2 }) st.load.fail } } with
    ret := { s.ret with hold := p.num 18 2 }
    link := { s.link with holdTime := p.num 18 2 } }

theorem loadFailstateOp_run (p : Packet) (s : State) (hwrite : p.bit 16 0 = false) (hhold : p.num 18 2 ≠ 0) :
    loadFailstateOp.run p s = { s := failstateRun p s } := by
  simp only [loadFailstateOp, hwrite, hhold, if_false, Bool.false_eq_true]
  rfl

@[simp] theorem completeNow_ret (s : State) (p : Packet) (st : Status) (r : Reply) : (completeNow s p st r).ret = s.ret :=
  (congrArg State.ret (completeNow_beyondReply s p st r) :)

@[simp] theorem completeNow_link (s : State) (p : Packet) (st : Status) (r : Reply) : (completeNow s p st r).link = s.link :=
  (congrArg State.link (completeNow_beyondReply s p st r) :)

@[simp] theorem completeNow_points (s : State) (p : Packet) (st : Status) (r : Reply) : (completeNow s p st r).points = s.points :=
  (congrArg State.points (completeNow_beyondReply s p st r) :)

theorem loadFailstate_completes (p : Packet) (s : State) (h : KeeperRuns loadFailstateOp p s) (hwrite : p.bit 16 0 = false) (hhold : p.num 18 2 ≠ 0) :
    ∃ t, exec (.loadFailstate p) s = .next t ∧ Completed p .ok s t ∧ t.store.load.hold = p.num 18 2 ∧ t.ret.hold = p.num 18 2 ∧
      t.link.holdTime = p.num 18 2 ∧ (cfgCount p = 0 → t.store.load.fail = s.store.load.fail) := by
  obtain ⟨hexec, hdone⟩ := keeperTake_completes h rfl (loadFailstateOp_run p _ hwrite hhold) rfl rfl
  refine ⟨_, hexec, hdone, ?_⟩
  simp only [State.withPending, completeNow_store, completeNow_ret, completeNow_link]
  exact ⟨rfl, rfl, rfl, fun hnone => by simp only [failstateRun, hnone]; rfl⟩

/-! LOAD.UNLOCK (Table 05.11). -/

@[simp] theorem unlock_locks (c : Cond) (cause : Nat) : (c.unlock cause).locks = setBit c.locks cause false := rfl

/-- Each lock of the list is cleared, and the others stay. -/
theorem locks_unlocked (l : List Nat) (ch : Nat) (h : ch < 56) : ∀ (s : State) (k : Nat),
    (chanOf (l.foldl (fun s k => (endCause s ch k).onCond ch fun c => c.unlock k) s) ch).cond.locks.testBit k =
      (!l.contains k && (chanOf s ch).cond.locks.testBit k) := by
  induction l with
  | nil => simp
  | cons j l ih =>
    intro s k
    rw [List.foldl_cons, ih, onCond_same _ _ _ h, chanOf_endCause _ _ _ h]
    simp only [unlock_locks, testBit_setBit, List.contains_cons]
    have hlocks : ((chanOf s ch).cond.clear j).locks = (chanOf s ch).cond.locks := rfl
    by_cases hk : k = j
    · simp [hk]
    · simp [hk, beq_eq_false_iff_ne.2 hk, hlocks]

/-- An unlocked channel holds no lock, and its counts are 0. -/
theorem unlockChan_unlocks (s : State) (ch : Nat) (h : ch < 56) (hsmall : (chanOf s ch).cond.locks < 4096) :
    (chanOf (unlockChan s ch) ch).cond.locks = 0 ∧ (chanOf (unlockChan s ch) ch).restarts = 0 ∧ (chanOf (unlockChan s ch) ch).retriesDone = 0 := by
  unfold unlockChan
  dsimp only
  rw [onChan_same _ _ _ h, chanOf_endCause _ _ _ h, chanOf_endCause _ _ _ h]
  refine ⟨Nat.eq_of_testBit_eq fun k => ?_, rfl, rfl⟩
  refine Eq.trans (locks_unlocked (bitList 12 (chanOf s ch).cond.locks) ch h s k) ?_
  rw [Nat.zero_testBit]
  by_cases hk : k < 12
  · cases hbit : (chanOf s ch).cond.locks.testBit k <;> simp [bitList, hk, hbit]
  · rw [Nat.testBit_lt_two_pow (Nat.lt_of_lt_of_le hsmall (Nat.pow_le_pow_right (n := 2) (by omega) (Nat.not_lt.1 hk))), Bool.and_false]

@[simp] theorem unlockChan_plane_quiet (s : State) (ch : Nat) : (unlockChan s ch).plane.quiet = s.plane.quiet := by
  unfold unlockChan
  dsimp only
  refine Eq.trans (b := (endCause (endCause ((bitList 12 (chanOf s ch).cond.locks).foldl (fun s k =>
    (endCause s ch k).onCond ch fun c => c.unlock k) s) ch 7) ch 11).plane.quiet) rfl ?_
  rw [endCause_plane_quiet, endCause_plane_quiet]
  exact foldl_keeps (fun u : State => u.plane.quiet) (fun s k => (endCause s ch k).onCond ch fun c => c.unlock k)
    (fun u k => endCause_plane_quiet u ch k) _ s

/-- What LOAD.UNLOCK with RESTORE does with a channel whose locks can end. -/
def restoreChan (s : State) (ch : Nat) : State :=
  updateChan (if (chanOf (unlockChan s ch) ch).cond.free then (unlockChan s ch).onCond ch fun k => { k with waiting := false } else unlockChan s ch) ch

theorem restoreChan_clock (s : State) (ch : Nat) : (restoreChan s ch).clock = s.clock := by
  have hplane : (restoreChan s ch).plane = (unlockChan s ch).plane := by
    rw [restoreChan, updateChan_plane]
    split <;> rfl
  exact (clock_of_plane hplane).trans (clock_of_quiet (unlockChan_plane_quiet s ch))

/-- A restored channel holds no lock, and its counts are 0. -/
theorem restoreChan_unlocks (s : State) (ch : Nat) (h : ch < 56) (hsmall : (chanOf s ch).cond.locks < 4096) :
    (chanOf (restoreChan s ch) ch).cond.locks = 0 ∧ (chanOf (restoreChan s ch) ch).restarts = 0 ∧ (chanOf (restoreChan s ch) ch).retriesDone = 0 := by
  have hunlocked := unlockChan_unlocks s ch h hsmall
  have hdrive (u : State) : (chanOf (updateChan u ch) ch).cond = (chanOf u ch).cond ∧ (chanOf (updateChan u ch) ch).restarts = (chanOf u ch).restarts ∧
      (chanOf (updateChan u ch) ch).retriesDone = (chanOf u ch).retriesDone :=
    have hsame := beyondDrive_updateChan u ch ch
    ⟨(congrArg Chan.cond hsame :), (congrArg Chan.restarts hsame :), (congrArg Chan.retriesDone hsame :)⟩
  unfold restoreChan
  obtain ⟨hcond, hrestarts, hretries⟩ := hdrive (if (chanOf (unlockChan s ch) ch).cond.free then
    (unlockChan s ch).onCond ch fun k => { k with waiting := false } else unlockChan s ch)
  rw [hcond, hrestarts, hretries]
  split
  · rw [onCond_same _ _ _ h]
    exact hunlocked
  · exact hunlocked

theorem loadUnlockOp_run (p : Packet) (s : State) (ch : Nat) (hrestore : p.bit 24 0 = true) (hone : bitList 56 (p.num 16 7) = [ch])
    (hends : unlockable s ch = true) :
    loadUnlockOp.run p s = (if (chanOf s ch).cond.locks = 0 then { s := s, reply := [(16, 7, maskOf []), (24, 7, maskOf [])] }
      else { s := restoreChan s ch, reply := [(16, 7, maskOf [ch]), (24, 7, maskOf [])] }) := by
  by_cases hlocks : (chanOf s ch).cond.locks = 0
  · simp [loadUnlockOp, hone, unlockRun, hlocks]
  · simp [loadUnlockOp, hone, unlockRun, hlocks, hends, hrestore, restoreChan]

theorem loadUnlock_completes (p : Packet) (ch : Nat) (s : State) (h : KeeperRuns loadUnlockOp p s) (hrestore : p.bit 24 0 = true)
    (hone : bitList 56 (p.num 16 7) = [ch]) (hsmall : (chanOf s ch).cond.locks < 4096) (hends : unlockable s ch = true) :
    ∃ t, exec (.loadUnlock p) s = .next t ∧ Completed p .ok s t ∧ (chanOf t ch).cond.locks = 0 ∧
      ((chanOf s ch).cond.locks ≠ 0 → (chanOf t ch).restarts = 0 ∧ (chanOf t ch).retriesDone = 0) := by
  have hch : ch < 56 := by
    have hmem : ch ∈ bitList 56 (p.num 16 7) := by rw [hone]; exact List.mem_singleton.2 rfl
    exact List.mem_range.1 (List.mem_of_mem_filter hmem)
  have hrun := loadUnlockOp_run p (release s p) ch hrestore hone hends
  have hload (u : State) (r : Reply) : chanOf ((completeNow u p .ok r).withPending s.pending) ch = chanOf u ch :=
    chanOf_of_load (completeNow_load u p .ok r) ch
  by_cases hlocks : (chanOf s ch).cond.locks = 0
  · rw [if_pos (show (chanOf (release s p) ch).cond.locks = 0 from hlocks)] at hrun
    obtain ⟨hexec, hdone⟩ := keeperTake_completes h rfl hrun rfl (release_clock s p)
    refine ⟨_, hexec, hdone, ?_, fun hne => absurd hlocks hne⟩
    rw [hload]
    exact hlocks
  · rw [if_neg (show (chanOf (release s p) ch).cond.locks ≠ 0 from hlocks)] at hrun
    obtain ⟨hexec, hdone⟩ := keeperTake_completes h rfl hrun rfl (restoreChan_clock ..)
    obtain ⟨hfree, hrestarts, hretries⟩ := restoreChan_unlocks (release s p) ch hch hsmall
    refine ⟨_, hexec, hdone, ?_⟩
    rw [hload]
    exact ⟨hfree, fun _ => ⟨hrestarts, hretries⟩⟩

/-! LOAD.DIAG (Table 05.10). -/

/-- Reading the channels takes only values of the part's own. -/
theorem diagChannels_only (first n : Nat) : ∀ (i : Nat) (s : State), ∃ k, (diagChannels first n i s).2 = { s with free := k } := by
  induction n with
  | zero => exact fun _ s => ⟨s.free, rfl⟩
  | succ n ih =>
    intro i s
    obtain ⟨k, hk⟩ := ih (i + 1) (s.takeFree 8).2
    exact ⟨k, hk⟩

/-- What LOAD.DIAG with CLEAR leaves. -/
def diagCleared (f n : Nat) (s : State) : State :=
  s.onLoad fun d => { d with
    ch := vmapIdx d.ch fun ch c => if f ≤ ch ∧ ch < f + n then { c with cond := { c.cond with latched := c.cond.active } } else c
    bank := d.bank.map fun b => { b with dips := 0 }
    mgr := { d.mgr with mgrCuts := 0 } }

theorem latched_diagCleared (f n : Nat) (s : State) (ch : Nat) (h : ch < 56) (hlow : f ≤ ch) (hhigh : ch < f + n) :
    (chanOf (diagCleared f n s) ch).cond.latched = (chanOf s ch).cond.active := by
  simp [chanOf, h, diagCleared, State.onLoad, vmapIdx, hlow, hhigh]

theorem loadDiag_completes (p : Packet) (s : State) (h : KeeperRuns loadDiagOp p s) (hclear : p.bit 18 0 = true) :
    ∃ t, exec (.loadDiag p) s = .next t ∧
      Completed p (if (List.range (p.num 17 1)).any fun i => openNotPossible s (p.num 16 1 + i) then .nodiag else .ok) s t ∧
      t.load.mgr.mgrCuts = 0 ∧
      ∀ ch, ch < 56 → p.num 16 1 ≤ ch → ch < p.num 16 1 + p.num 17 1 → (chanOf t ch).cond.latched = (chanOf s ch).cond.active := by
  obtain ⟨k, hk⟩ := diagChannels_only (p.num 16 1) (p.num 17 1) 0 (release s p)
  have hrun : loadDiagOp.run p (release s p) = {
      s := diagCleared (p.num 16 1) (p.num 17 1) { release s p with free := k }
      st := some (if (List.range (p.num 17 1)).any fun i => openNotPossible s (p.num 16 1 + i) then .nodiag else .ok)
      reply := (loadDiagOp.run p (release s p)).reply } := by
    simp only [loadDiagOp, hclear, if_true, hk]
    rfl
  obtain ⟨hexec, hdone⟩ := keeperTake_completes h rfl hrun rfl rfl
  refine ⟨_, hexec, hdone, ?_, fun ch hch hlow hhigh => ?_⟩
  · exact (congrArg (fun d : LoadDie => d.mgr.mgrCuts) (completeNow_load _ p _ _) :)
  · have hlatched := latched_diagCleared (p.num 16 1) (p.num 17 1) { release s p with free := k } ch hch hlow hhigh
    exact (congrArg (fun c : Chan => c.cond.latched) (chanOf_of_load (completeNow_load _ p _ _) ch) :).trans hlatched


/-! LOAD.SET (Table 05.7). -/

/-- What a write that stands leaves of the points. -/
theorem pget_writeStands (s : State) (w : PWrite) (t : Stamp) (old : PVal) (count : Nat) (h : Tbl.wf 0 s.points.mem = true) :
    pget (writeStands s w t old count) w.pt = w.v := by
  have hmem (u : State) (hu : u.points = s.points) : (noteLatency (noteWriter (pput u w.pt w.v) w.pt w.v w.kind w.comp u.stamp) w).points.mem =
      Tbl.put s.points.mem 0 w.pt w.v := by
    unfold noteLatency
    split
    · split
      · exact congrArg (fun q : Points => Tbl.put q.mem 0 w.pt w.v) hu
      · exact congrArg (fun q : Points => Tbl.put q.mem 0 w.pt w.v) hu
    · exact congrArg (fun q : Points => Tbl.put q.mem 0 w.pt w.v) hu
  have hput : (writeStands s w t old count).points.mem = Tbl.put s.points.mem 0 w.pt w.v := by
    unfold writeStands
    dsimp only
    split
    · exact hmem _ rfl
    · exact hmem _ rfl
  rw [pget, hput, Tbl.get_put_same _ _ _ _ h]

/-- A direct write to a free point in a tick without writes stands. -/
theorem directWrite_stands (s : State) (p : Packet) (pt : Nat) (v : PVal) (hroom : s.points.writesNow < 4096) (hfree : heldByAction s pt = false)
    (hnow : s.points.now = []) : directWrite s p pt v =
      (writeStands s { pt := pt, v := v, kind := .direct, comp := p.comp, hall := p.hall, idx := p.order } s.stamp (pget s pt) 1, .applied) := by
  simp [directWrite, writePoint, applyWrite, Nat.not_le.2 hroom, hfree, hnow]

/-- What LOAD.SET leaves where its one write stands. -/
def setRun (p : Packet) (ch : Nat) (v : PVal) (s : State) : State :=
  let u := (directWrite s p (pointAt 80 ch) v).1
  if v ≠ 0 then u.onPlane fun q => { q with commanded := q.commanded ++ [(pointAt 80 ch, v)] } else u

theorem loadSetOp_run (p : Packet) (ch : Nat) (v : PVal) (s : State) (hone : loadSetEntries p = [(ch, v)])
    (hstands : (directWrite s p (pointAt 80 ch) v).2 = .applied) :
    loadSetOp.run p s = { s := setRun p ch v s, st := some (resultStatus (loadResult s ch v)), reply := loadSetReply [loadResult s ch v] } := by
  have hstatus : resultStatus (([loadResult s ch v].find? (· != 0)).getD 0) = resultStatus (loadResult s ch v) := by
    by_cases hzero : loadResult s ch v = 0 <;> simp [hzero]
  have hone' : loadSetRun p [(ch, v)] s = (setRun p ch v s, [loadResult s ch v], 0) := by simp [loadSetRun, hstands, setRun]
  simp only [loadSetOp, hone, hone', if_true, hstatus]

theorem loadSet_completes (p : Packet) (ch : Nat) (v : PVal) (s : State) (h : FastRuns loadSetOp p s) (hone : loadSetEntries p = [(ch, v)])
    (hroom : s.points.writesNow < 4096) (hfree : heldByAction s (pointAt 80 ch) = false) (hnow : s.points.now = [])
    (hwf : Tbl.wf 0 s.points.mem = true) :
    ∃ t, exec (.loadSet p) s = .next t ∧ pget t (pointAt 80 ch) = v ∧ Completed p (resultStatus (loadResult s ch v)) s t ∧
      t.plane.commanded = (if v = 0 then s.plane.commanded else s.plane.commanded ++ [(pointAt 80 ch, v)]) := by
  have hstands := directWrite_stands (counted s p) p (pointAt 80 ch) v hroom hfree hnow
  have hquiet : (directWrite (counted s p) p (pointAt 80 ch) v).1.plane.quiet = (counted s p).plane.quiet := by simp
  have hpoint : pget (setRun p ch v (counted s p)) (pointAt 80 ch) = v := by
    have hwrite : pget (directWrite (counted s p) p (pointAt 80 ch) v).1 (pointAt 80 ch) = v := by
      rw [hstands]
      exact pget_writeStands (counted s p) _ _ _ _ hwf
    unfold setRun
    dsimp only
    split
    · exact hwrite
    · exact hwrite
  have hclock : (setRun p ch v (counted s p)).clock = s.clock := by
    have hwrite := (clock_of_quiet hquiet).trans (counted_clock s p)
    unfold setRun
    dsimp only
    split
    · exact hwrite
    · exact hwrite
  have hcommands : (setRun p ch v (counted s p)).plane.commanded = (if v = 0 then s.plane.commanded else s.plane.commanded ++ [(pointAt 80 ch, v)]) := by
    have hwrite : (directWrite (counted s p) p (pointAt 80 ch) v).1.plane.commanded = s.plane.commanded := (congrArg Plane.commanded hquiet :)
    unfold setRun
    dsimp only
    by_cases hv : v = 0
    · rw [if_neg (not_not.2 hv), if_pos hv]
      exact hwrite
    · rw [if_pos hv, if_neg hv]
      exact congrArg (· ++ [(pointAt 80 ch, v)]) hwrite
  have hload : loadResult (counted s p) ch v = loadResult s ch v := rfl
  have hrun := loadSetOp_run p ch v (counted s p) hone (congrArg Prod.snd hstands)
  rw [hload] at hrun
  obtain ⟨hexec, hdone⟩ := fastTake_completes h rfl hrun rfl hclock
  refine ⟨_, hexec, ?_, hdone, ?_⟩
  · exact (congrArg (fun q : Points => Tbl.get q.mem 0 (pointAt 80 ch)) (completeNow_points ..)).trans hpoint
  · exact (congrArg Plane.commanded (completeNow_beyondCompletion ..) :).trans hcommands

/-! LOAD.CONFIG (Table 05.8). -/

/-- What LOAD.CONFIG leaves where it writes one record. -/
def configRun (p : Packet) (s : State) : State :=
  (keepGrid s (p.num 24 1)).onStore fun st => { st with load := { st.load with ch := vmod st.load.ch (p.num 24 1) fun _ => chCfgOf p 0 } }

theorem chanCfg_configRun (p : Packet) (s : State) (h : p.num 24 1 < 56) : chanCfg (configRun p s) (p.num 24 1) = chCfgOf p 0 := by
  simp [chanCfg, configRun, State.onStore, vget, vmod, h]

theorem loadConfigOp_run (p : Packet) (s : State) (hwrite : p.bit 16 0 = false) (hone : cfgCount p = 1) (h : p.num 24 1 < 56) :
    loadConfigOp.run p s = { s := configRun p s, reply := chCfgReply 24 (p.num 24 1) (chCfgOf p 0) } := by
  have hcfg := chanCfg_configRun p s h
  simp only [loadConfigOp, hwrite, hone, cfgChannels, List.range_one]
  simp only [List.map_cons, List.map_nil, List.foldl_cons, List.foldl_nil, List.flatMap_cons, List.flatMap_nil, List.append_nil, Nat.mul_zero, Nat.add_zero,
    Bool.false_eq_true, if_false]
  exact congrArg (fun g => ({ s := configRun p s, reply := chCfgReply 24 (p.num 24 1) g } : Res)) hcfg

/-- A period that runs ends after now. -/
theorem now_lt_nextPeriod (s : State) (ch : Nat) (h : 0 < pwmPeriod (gridOf s ch).1) : s.now < nextPeriod s ch := by
  have hpos := Nat.mod_lt (s.now + pwmPeriod (gridOf s ch).1 - pwmOffset (gridOf s ch).1 (gridOf s ch).2 % pwmPeriod (gridOf s ch).1) h
  simp only [nextPeriod, periodPos]
  omega

/-- The PWM grid of a channel is its load's, its store's and the time's. -/
theorem gridOf_of_same {s t : State} (hload : t.load = s.load) (hstore : t.store = s.store) (hnow : t.now = s.now) (ch : Nat) :
    gridOf t ch = gridOf s ch := by simp only [gridOf, chanOf_of_load hload, chanCfg, hstore, hnow]

theorem gridOf_configRun (p : Packet) (s : State) (h : p.num 24 1 < 56) (hruns : 0 < pwmPeriod (gridOf s (p.num 24 1)).1) :
    gridOf (configRun p s) (p.num 24 1) = gridOf s (p.num 24 1) := by
  have hlater := now_lt_nextPeriod s (p.num 24 1) hruns
  have hchan : chanOf (configRun p s) (p.num 24 1) = { chanOf s (p.num 24 1) with
      hz := (gridOf s (p.num 24 1)).1, phase := (gridOf s (p.num 24 1)).2, newAt := nextPeriod s (p.num 24 1) } := onChan_same s _ _ h
  have hnow : (configRun p s).now = s.now := rfl
  rw [gridOf, hchan, hnow]
  simp only [Nat.not_le.2 hlater, if_false]

theorem loadConfig_completes (p : Packet) (s : State) (h : KeeperRuns loadConfigOp p s) (hwrite : p.bit 16 0 = false) (hone : cfgCount p = 1) :
    ∃ t, exec (.loadConfig p) s = .next t ∧ Completed p .ok s t ∧ vget t.store.load.ch (p.num 24 1) = chCfgOf p 0 ∧
      Replied p s t (chCfgReply 24 (p.num 24 1) (chCfgOf p 0)) ∧
      (0 < pwmPeriod (gridOf s (p.num 24 1)).1 → gridOf t (p.num 24 1) = gridOf s (p.num 24 1)) ∧
      ∀ k, k ≠ p.num 24 1 → vget t.store.load.ch k = vget s.store.load.ch k := by
  have hch : p.num 24 1 < 56 := by
    have hbad := bad_eq_false_of_checkPacket _ _ _ (checkPacket_of_keeperRuns _ _ _ h)
    simp [loadConfigOp, hwrite, hone, cfgChannels] at hbad
    omega
  have hrun := loadConfigOp_run p (release s p) hwrite hone hch
  obtain ⟨hexec, hdone⟩ := keeperTake_completes h rfl hrun rfl rfl
  have hstore : ((completeNow (configRun p (release s p)) p .ok (chCfgReply 24 (p.num 24 1) (chCfgOf p 0))).withPending s.pending).store.load.ch =
      vmod s.store.load.ch (p.num 24 1) fun _ => chCfgOf p 0 := congrArg (fun st : Store => st.load.ch) (completeNow_store ..)
  refine ⟨_, hexec, hdone, ?_, ?_, fun hruns => ?_, fun k hk => ?_⟩
  · rw [hstore]
    simp [vget, vmod, hch]
  · exact Replied.of_same (completeNow_replied (configRun p (release s p)) p .ok _) rfl rfl rfl
  · refine Eq.trans ?_ (gridOf_configRun p (release s p) hch hruns)
    exact gridOf_of_same (completeNow_load ..) (completeNow_store ..) (completeNow_now ..) _
  · rw [hstore]
    rw [vget_vmod, if_neg fun hsame => hk hsame.1.symm]

/-- Settles O33: each LOAD packet that runs now does what its run does, and completes with the answer of its run. -/
theorem loadPacketsAct : Obligations.LoadPacketsAct := by
  refine ⟨fun p ch v s h hone hroom hfree hnow hwf => loadSet_completes p ch v s h hone hroom hfree hnow hwf,
    fun p s h hwrite hone => loadConfig_completes p s h hwrite hone, fun p s h hclear => loadDiag_completes p s h hclear,
    fun p ch s h hrestore hone hsmall hends => loadUnlock_completes p ch s h hrestore hone hsmall hends,
    fun p s h hwrite hhold => loadFailstate_completes p s h hwrite hhold, fun p s h hread hagree => ?_, ?_⟩
  · have hrun : shedRun p (release s p) = release s p := if_pos hread
    obtain ⟨t, hexec, hdone, hload, hstore⟩ := loadShed_completes p s h (by rw [hrun]; exact hagree)
    rw [hrun] at hload hstore
    exact ⟨t, hexec, hdone, hload, hstore⟩
  · intro p ch level s h hwrite hnone hagree hch hnamed hlevel
    have hbank := shedRun_bank p (release s p) hwrite hnone
    have hshed := shedRun_shed p (release s p) ch hwrite hch hnamed
    obtain ⟨t, hexec, hdone, hload, hstore⟩ := loadShed_completes p s h (by simp only [bankCfg_of_bank hbank]; exact hagree)
    rw [← hstore] at hbank hshed
    rw [hlevel]
    exact ⟨t, hexec, hdone, hshed, hbank⟩

end Sys2Proof.Machine

namespace Sys2Proof.Machine

open Sys2Proof.Claims

/-! Doorbells and the registers of the control blocks (R72–R75, R413, Tables 03.2 and 03.3). -/

theorem ring_of_rings {s t : State} (h : t.plane.rings = s.plane.rings) (k : Nat) : t.ring k = s.ring k := by simp only [State.ring, h]

@[simp] theorem landPut_rings (s : State) (l : Nat) (it : LandItem) : (landPut s l it).plane.rings = s.plane.rings := rfl

@[simp] theorem capItem_rings (s : State) (r : CapRecord) (idx : Nat) : (capItem s r idx).plane.rings = s.plane.rings := by
  unfold capItem
  split <;> rfl

@[simp] theorem captureCommand_rings (s : State) (p : Packet) : (captureCommand s p).plane.rings = s.plane.rings := by
  unfold captureCommand
  split
  · exact capItem_rings ..
  · rfl

@[simp] theorem captureCommand_mem (s : State) (p : Packet) : (captureCommand s p).mem = s.mem := by
  unfold captureCommand capItem
  split
  · split <;> rfl
  · rfl

/-- A ring but for the slot up to which a capture has read it. -/
def Ring.beyondScan (g : Ring) : Ring := { g with scan := 0 }

/-- A capture that reads a ring moves its scan only (R37). -/
theorem captureVisible_ring (r n : Nat) : ∀ s : State, (captureVisible r n s).mem = s.mem ∧
    ((captureVisible r n s).ring r).beyondScan = (s.ring r).beyondScan ∧ ∀ k, k ≠ r → (captureVisible r n s).ring k = s.ring k := by
  induction n with
  | zero => exact fun s => ⟨rfl, rfl, fun _ _ => rfl⟩
  | succ n ih =>
    intro s
    unfold captureVisible
    dsimp only
    split
    · generalize packetAt s r (s.ring r).scan s.wallStamp = p
      obtain ⟨hmem, hscan, hother⟩ := ih ((captureCommand s p).onRing r fun g => { g with scan := g.after p })
      have hrings (k : Nat) : (captureCommand s p).ring k = s.ring k := ring_of_rings (captureCommand_rings s p) k
      refine ⟨hmem.trans (captureCommand_mem s p), hscan.trans ?_, fun k hk => (hother k hk).trans ?_⟩
      · rw [← hrings r]
        exact vget_vmod_proj (captureCommand s p).plane.rings r r (fun g => { g with scan := g.after p }) Ring.beyondScan fun _ => rfl
      · rw [onRing_other _ _ _ _ (Ne.symm hk), hrings k]
    · exact ⟨rfl, rfl, fun _ _ => rfl⟩

@[simp] theorem hallOn_rings (s : State) (h : Nat) : (hallOn s h).plane.rings = s.plane.rings := by
  unfold hallOn
  split <;> rfl

@[simp] theorem hallOn_mem (s : State) (h : Nat) : (hallOn s h).mem = s.mem := by
  unfold hallOn
  split <;> rfl

/-- The domain of the cipher engine comes on with hall H4 (Table 02.1). -/
theorem setDomain_cipher (s : State) : (setDomain s 5 true).plane.rings = s.plane.rings ∧ (setDomain s 5 true).mem = s.mem := by
  unfold setDomain
  dsimp only [domainHall]
  split
  · exact ⟨rfl, rfl⟩
  · exact ⟨hallOn_rings .., hallOn_mem ..⟩

theorem ringKept_of_mayDoor {s : State} {c r : Nat} (h : mayDoor s c r = true) : r < 64 ∧ c < 15 := by
  simp only [mayDoor, reachesBlock, Bool.and_eq_true, decide_eq_true_eq] at h
  omega

/-- A doorbell of a compartment that may ring it. -/
theorem anyDoor_rings (s : State) (c r i : Nat) (hrun : s.plane.running = true) (hmay : mayDoor s c r = true)
    (howner : (ringOwner (chartersInForce s) r).isSome = true) : anyDoor s c r i = if deviceProduces s r then consumeDoor s r i else submitDoor s r i := by
  obtain ⟨-, hc⟩ := ringKept_of_mayDoor hmay
  rw [anyDoor, if_neg (by omega), ringDoor, if_pos ⟨hrun, hmay, howner⟩]

/-- What a doorbell that is taken leaves of its ring. -/
def Ring.rung (g : Ring) (i : Nat) (at_ : Stamp) : Ring := { g with tail := i, arrival := at_, batches := g.batches ++ [(i, at_)] }

theorem submitDoor_moves (s : State) (r i : Nat) (hr : r < 64) (hready : s.seq.ready = true) (hhall : (vget s.plane.halls (ringHall s r)).dropped = false)
    (hsize : i < (s.ring r).size) (hnew : i ≠ (s.ring r).tail) (hroom : (s.ring r).overfills i = false) :
    (submitDoor s r i).mem = s.mem ∧ ((submitDoor s r i).ring r).beyondScan = ((s.ring r).rung i s.wallStamp).beyondScan ∧
      ∀ k, k ≠ r → (submitDoor s r i).ring k = s.ring k := by
  have hrung : ((s.onRing r fun g => g.rung i s.wallStamp).ring r).beyondScan = ((s.ring r).rung i s.wallStamp).beyondScan := by
    rw [onRing_same _ _ _ hr]
  have hother (k : Nat) (hk : k ≠ r) : (s.onRing r fun g => g.rung i s.wallStamp).ring k = s.ring k := onRing_other _ _ _ _ (Ne.symm hk)
  have hseen (u : State) (hu : u = s.onRing r fun g => g.rung i s.wallStamp) :
      (if packetRings.contains r then captureVisible r 4096 u else u).mem = s.mem ∧
      ((if packetRings.contains r then captureVisible r 4096 u else u).ring r).beyondScan = ((s.ring r).rung i s.wallStamp).beyondScan ∧
      ∀ k, k ≠ r → (if packetRings.contains r then captureVisible r 4096 u else u).ring k = s.ring k := by
    subst hu
    split
    · obtain ⟨hmem, hscan, hrest⟩ := captureVisible_ring r 4096 (s.onRing r fun g => g.rung i s.wallStamp)
      exact ⟨hmem, hscan.trans hrung, fun k hk => (hrest k hk).trans (hother k hk)⟩
    · exact ⟨rfl, hrung, hother⟩
  have hbumped := hseen _ rfl
  unfold submitDoor
  simp only [hready, hhall, hroom, Nat.not_le.2 hsize, hnew, Bool.not_true, Bool.false_eq_true, false_and, or_false, if_false]
  split
  · obtain ⟨hrings, hmem⟩ := setDomain_cipher (bump (if packetRings.contains r then captureVisible r 4096 (s.onRing r fun g => g.rung i s.wallStamp)
      else s.onRing r fun g => g.rung i s.wallStamp) 3 r 1)
    refine ⟨hmem.trans hbumped.1, ?_, fun k hk => ?_⟩
    · exact (congrArg Ring.beyondScan (ring_of_rings hrings r)).trans hbumped.2.1
    · exact (ring_of_rings hrings k).trans (hbumped.2.2 k hk)
  · exact hbumped

theorem badDoor_marks (s : State) (r : Nat) (hr : r < 64) : (badDoor s r).ring r = (s.ring r).bad :=
  onRing_same s r Ring.bad hr

/-- A doorbell that names no slot, or passes the room of R73, marks its ring and moves nothing. -/
theorem submitDoor_refuses (s : State) (r i : Nat) (h : (s.ring r).size ≤ i ∨
    (s.seq.ready = true ∧ i ≠ (s.ring r).tail ∧ (vget s.plane.halls (ringHall s r)).dropped = false ∧ (s.ring r).overfills i = true)) :
    submitDoor s r i = badDoor s r := by
  unfold submitDoor
  dsimp only
  rcases h with hsize | ⟨hready, hnew, hhall, hover⟩
  · rw [if_pos (.inl hsize)]
  · by_cases hsize : (s.ring r).size ≤ i
    · rw [if_pos (.inl hsize)]
    · simp [hsize, hready, hnew, hhall, hover]

theorem consumeDoor_moves (s : State) (r i : Nat) (hr : r < 64) (hsize : i < (s.ring r).size) (hroom : (s.ring r).ahead i ≤ (s.ring r).filled) :
    ((consumeDoor s r i).ring r).head = i ∧ ((consumeDoor s r i).ring r).tail = (s.ring r).tail := by
  unfold consumeDoor
  dsimp only
  rw [if_neg (Nat.not_le.2 hsize)]
  split
  · next hsame => exact ⟨hsame.symm, rfl⟩
  · rw [if_neg (Nat.not_lt.2 hroom)]
    have hmoved : (bump (s.onRing r fun g => { g with head := i }) 3 r 1).ring r = { s.ring r with head := i } := onRing_same s r _ hr
    rw [hmoved]
    exact ⟨rfl, rfl⟩

theorem ringKept_of_reachesBlock {s : State} {c r : Nat} (h : reachesBlock s c r = true) : r < 64 ∧ c < 15 := by
  simp only [reachesBlock, Bool.and_eq_true, decide_eq_true_eq] at h
  omega

/-- What a change of SIZE_LOG2 leaves of its ring (R413). -/
def Ring.resized (g : Ring) (device en : Bool) (n : Nat) : Ring :=
  let g := { Ring.restart g device with sizeLog2 := n, enabled := en }
  if n = 0 ∨ en then g else g.bad

theorem Ring.resized_enables (g : Ring) (device en : Bool) (n : Nat) (h : n = 0 ∨ en = true) :
    g.resized device en n = { Ring.restart g device with sizeLog2 := n, enabled := en } := if_pos h

theorem Ring.resized_refuses (g : Ring) (device : Bool) (n : Nat) (h : n ≠ 0) :
    g.resized device false n = Ring.bad { Ring.restart g device with sizeLog2 := n, enabled := false } := if_neg (by simp [h])

/-- A size that may be written and is new restarts the ring with it (R72, R413). -/
theorem ringSizeWrite_writes (c r n : Nat) (s : State) (hrun : s.plane.running = true) (hreach : reachesBlock s c r = true)
    (hmay : c = 0 ∨ ownsRing s c r = true) (hn : n < 16) (hnew : (s.ring r).sizeLog2 ≠ n) :
    exec (.ringSizeWrite c r n) s = effect s (s.onRing r fun g => g.resized (deviceProduces s r) (mayEnable s r n) n) := by
  obtain ⟨-, hc⟩ := ringKept_of_reachesBlock hreach
  refine congrArg (effect s) ?_
  rw [if_neg (by omega), Nat.mod_eq_of_lt hn, ringSize, if_pos ⟨hrun, hreach, hmay⟩, setRingSize]
  exact if_neg hnew

theorem registerWrite_runs (c a v : Nat) (s : State) : exec (.registerWrite c a v) s = effect s (busWrite s c a v) := rfl

/-- A word of a ring's control block is written by its offset. -/
theorem busWrite_block (s : State) (c r off v : Nat) (hc : c < 16) (hr : r < 64) (hoff : off < 64) (halign : off % 4 = 0) :
    busWrite s c (blockBase + 64 * r + off) v = writeBlock s c r off v := by
  have hbase : blockBase % 4 = 0 := rfl
  have hword : (blockBase + 64 * r + off) % 4 = 0 := by omega
  have hring : (blockBase + 64 * r + off - blockBase) / 64 = r := by omega
  have hin : (blockBase + 64 * r + off - blockBase) % 64 = off := by omega
  rw [busWrite, if_neg (not_not.2 hword), if_neg (Nat.not_le.2 hc), if_pos (by omega), hring, hin]

/-- A write of the status word of a ring control block (Table 03.2). -/
theorem writeBlock_status (c r v : Nat) (s : State) (hrun : s.plane.running = true) (hreach : reachesBlock s c r = true)
    (hmay : c = 0 ∨ ownsRing s c r = true) : writeBlock s c r 0x14 v =
      s.onRing r fun g => { g with baddoor := g.baddoor && !v.testBit 18, overrun := g.overrun && !v.testBit 19 } := by
  simp [writeBlock, hrun, hreach, hmay]

theorem busWrite_faultSummary (s : State) (c v : Nat) (hc : c < 16) : busWrite s c 0x40002018 v = writeStatus s c 0x18 v := by
  simp [busWrite, Nat.not_le.2 hc, blockBase, statusBase]

theorem tickNowRead_runs (c : Nat) (s : State) : exec (.tickNowRead c) s = .next ((latchTick s).withPending s.pending) := rfl

/-- Settles O35: each doorbell and each register write changes its own ring, or its own word of the device status block. -/
theorem doorbellsAndRegistersAct : Obligations.DoorbellsAndRegistersAct := by
  refine ⟨?_, ?_, ?_, ?_, ?_, ?_, ?_, ?_⟩
  · intro c r i s hrun hmay howner hkind hready hhall hsize hi hnew hroom
    obtain ⟨hr, -⟩ := ringKept_of_mayDoor hmay
    obtain ⟨hmem, hscan, hother⟩ := submitDoor_moves s r i hr hready hhall hsize hnew hroom
    have hdoor : anyDoor s c r (i % 4096) = submitDoor s r i := by
      rw [anyDoor_rings s c r _ hrun hmay howner, Nat.mod_eq_of_lt hi, hkind, if_neg Bool.false_ne_true]
    refine ⟨(submitDoor s r i).withPending s.pending, ?_, (congrArg Ring.tail hscan :), (congrArg Ring.arrival hscan :), (congrArg Ring.head hscan :),
      (congrArg Ring.batches hscan :), (congrArg Ring.baddoor hscan :), hmem, hother⟩
    exact congrArg (effect s) (by rw [hkind, if_neg Bool.false_ne_true, hdoor])
  · intro c r i s hrun hmay howner hkind hi hbad
    obtain ⟨hr, -⟩ := ringKept_of_mayDoor hmay
    have hdoor : anyDoor s c r (i % 4096) = badDoor s r := by
      rw [anyDoor_rings s c r _ hrun hmay howner, Nat.mod_eq_of_lt hi, hkind, if_neg Bool.false_ne_true, submitDoor_refuses s r i hbad]
    have hring := badDoor_marks s r hr
    refine ⟨(badDoor s r).withPending s.pending, ?_, (congrArg Ring.baddoor hring :), (congrArg Ring.tail hring :), (congrArg Ring.head hring :)⟩
    exact congrArg (effect s) (by rw [hkind, if_neg Bool.false_ne_true, hdoor])
  · intro c r i s hrun hmay howner hkind hsize hi hroom
    obtain ⟨hr, -⟩ := ringKept_of_mayDoor hmay
    have hdoor : anyDoor s c r (i % 4096) = consumeDoor s r i := by
      rw [anyDoor_rings s c r _ hrun hmay howner, Nat.mod_eq_of_lt hi, hkind, if_pos rfl]
    obtain ⟨hhead, htail⟩ := consumeDoor_moves s r i hr hsize hroom
    refine ⟨(consumeDoor s r i).withPending s.pending, ?_, hhead, htail⟩
    exact congrArg (effect s) (by rw [hkind, if_pos rfl, hdoor])
  · intro c r n s hrun hreach hmay hn hnew hen
    obtain ⟨hr, -⟩ := ringKept_of_reachesBlock hreach
    have hring := onRing_same s r (fun g => g.resized (deviceProduces s r) (mayEnable s r n) n) hr
    have hkept : n = 0 ∨ mayEnable s r n = true := hen
    have henabled : mayEnable s r n = decide (n ≠ 0) := by
      rcases hen with rfl | hen
      · simp [mayEnable]
      · have hpos : n ≠ 0 := by rintro rfl; simp [mayEnable] at hen
        simp [hen, hpos]
    have hring := hring.trans (Ring.resized_enables _ _ _ _ hkept)
    refine ⟨_, ringSizeWrite_writes c r n s hrun hreach hmay hn hnew, (congrArg Ring.sizeLog2 hring :), (congrArg Ring.enabled hring :).trans henabled,
      (congrArg Ring.head hring :), (congrArg Ring.tail hring :), (congrArg Ring.admitted hring :), (congrArg Ring.base hring :),
      fun k hk => onRing_other _ _ _ _ (Ne.symm hk)⟩
  · intro c r n s hrun hreach hmay hn hnew hpos hen
    obtain ⟨hr, -⟩ := ringKept_of_reachesBlock hreach
    have hring := onRing_same s r (fun g => g.resized (deviceProduces s r) (mayEnable s r n) n) hr
    have hbad : ((s.onRing r fun g => g.resized (deviceProduces s r) (mayEnable s r n) n).ring r) =
        Ring.bad { Ring.restart (s.ring r) (deviceProduces s r) with sizeLog2 := n, enabled := false } := by
      rw [hring, hen, Ring.resized_refuses _ _ _ hpos]
    exact ⟨_, ringSizeWrite_writes c r n s hrun hreach hmay hn hnew, (congrArg Ring.enabled hbad :), (congrArg Ring.baddoor hbad :)⟩
  · intro c s hrun
    have hlatch : latchTick s = s.onPlane fun p => { p with status := { p.status with tickLatch := s.wallStamp.word / 2 ^ 32 } } := by
      rw [latchTick, if_pos hrun]
    exact ⟨_, tickNowRead_runs c s, by simp only [hlatch, State.withPending, State.onPlane], by simp only [hlatch, State.withPending, State.onPlane]⟩
  · intro c r v s hrun hreach hmay
    obtain ⟨hr, hc⟩ := ringKept_of_reachesBlock hreach
    have hwrite : busWrite s c (0x40000000 + 64 * r + 0x14) v =
        s.onRing r fun g => { g with baddoor := g.baddoor && !v.testBit 18, overrun := g.overrun && !v.testBit 19 } := by
      rw [← blockBase, busWrite_block s c r 0x14 v (by omega) hr (by omega) (by omega), writeBlock_status c r v s hrun hreach hmay]
    have hring := onRing_same s r (fun g => { g with baddoor := g.baddoor && !v.testBit 18, overrun := g.overrun && !v.testBit 19 }) hr
    exact ⟨_, (registerWrite_runs ..).trans (congrArg (effect s) hwrite), (congrArg Ring.baddoor hring :), (congrArg Ring.overrun hring :), (congrArg Ring.tail hring :),
      fun k hk => onRing_other _ _ _ _ (Ne.symm hk)⟩
  · intro c v s hrun hc
    have hwrite := busWrite_faultSummary s c v (by omega)
    refine ⟨(s.onPlane fun p => { p with status := { p.status with
      hallFault := p.status.hallFault - (p.status.hallFault &&& (v % 512)), clockLoss := p.status.clockLoss && !v.testBit 12
      late := p.status.late && !v.testBit 13, overrun := p.status.overrun && !v.testBit 14 } }).withPending s.pending, ?_, rfl, rfl, rfl, rfl⟩
    refine (registerWrite_runs ..).trans (congrArg (effect s) (hwrite.trans ?_))
    simp [writeStatus, hrun, hc]

end Sys2Proof.Machine

namespace Sys2Proof.Machine

open Sys2Proof.Claims

/-! The host SPI port and the test access port (R93, R345, R399, R403, R404, Table 03.10). -/

theorem execHostSpiWrite_runs (f : SpiFrame) (s : State) : exec (.hostSpiWrite f) s = .next ((spiWrite s f).withPending s.pending) := rfl

theorem execHostSpiRead_runs (f : SpiFrame) (s : State) : exec (.hostSpiRead f) s = .next ((spiRead s f).withPending s.pending) := rfl

/-- Noting a frame changes the lands and the watch room only. -/
theorem spiNote_only (s : State) (ack rx : Nat) (out : List Byte) :
    spiNote s ack rx out = { s with pins := { s.pins with spiOut := out }, watch := (spiNote s ack rx out).watch } := by
  unfold spiNote
  dsimp only
  split <;> rfl

/-- A write frame of a port that is up. -/
theorem spiWrite_answers (s : State) (f : SpiFrame) (k : Nat) (hup : spiUp s = true) (hcmd : f.cmd = 2)
    (hack : (if f.crc ≠ crc16 (spiHeader f ++ padTo f.length f.data) then 1 else spiAck s f) = k) :
    spiWrite s f = spiNote (if k = 0 then spiStore s f.addr (padTo f.length f.data) else s) k (10 + f.length) (leBytes 1 k) := by
  simp only [spiWrite, hup, Bool.not_true, Bool.false_eq_true, if_false, hcmd, ne_eq, not_true, hack]

/-- A write of one word of the host buffer. -/
theorem spiStore_word (s : State) (a : Nat) (l : List Byte) (hlen : l.length = 4) (hlow : keeperBase ≤ a) (hhigh : a < hostEnd) :
    spiStore s a l = memWriteN s a l := by
  obtain ⟨w, x, y, z, rfl⟩ : ∃ w x y z, l = [w, x, y, z] := by
    match l, hlen with
    | [w, x, y, z], _ => exact ⟨w, x, y, z, rfl⟩
  simp only [spiStore, hlow, hhigh, and_self, if_true]

/-- A read frame of a port that is up, where it is acknowledged. -/
theorem spiRead_answers (s : State) (f : SpiFrame) (hup : spiUp s = true) (hcmd : f.cmd = 0x0B) (hack : spiAck s f = 0) :
    spiRead s f = spiNote (spiLoad s f.addr (f.length / 4)).2 0 8
      (leBytes 1 0 ++ (spiLoad s f.addr (f.length / 4)).1 ++ beBytes 2 (crc16 (spiHeader f ++ (spiLoad s f.addr (f.length / 4)).1))) := by
  simp only [spiRead, hup, Bool.not_true, Bool.false_eq_true, if_false, hcmd, ne_eq, not_true, hack, if_true]

theorem statusBase_lt_keeperBase : statusBase + 64 ≤ keeperBase := by simp only [statusBase, keeperBase]; omega

/-- A read of one word of the host buffer. -/
theorem spiLoad_word (s : State) (a : Nat) (hlow : keeperBase ≤ a) (hhigh : a < hostEnd) : spiLoad s a 1 = (memReadN s a 4, s) := by
  have hbase := statusBase_lt_keeperBase
  have htick : a ≠ statusBase + 8 := by omega
  simp only [spiLoad, spiWord, hlow, hhigh, and_self, if_true, htick, if_false, List.append_nil]

theorem leBytes_split (x : Nat) : leBytes 4 (x % 2 ^ 32) ++ leBytes 4 (x / 2 ^ 32) = leBytes 8 (x % 2 ^ 64) := by
  have hbyte (n m : Nat) (h : n % 256 = m % 256) : BitVec.ofNat 8 n = BitVec.ofNat 8 m := BitVec.eq_of_toNat_eq (by simpa using h)
  simp only [leBytes, List.cons_append, List.nil_append, List.cons.injEq, and_true]
  refine ⟨?_, ?_, ?_, ?_, ?_, ?_, ?_, ?_⟩ <;> exact hbyte _ _ (by omega)

/-- A word of the device status block is no word of the host buffer. -/
theorem spiWord_status (s : State) (off : Nat) (h : off < 64) : spiWord s (statusBase + off) = leBytes 4 (readStatus s off) := by
  have hbase := statusBase_lt_keeperBase
  rw [spiWord, if_neg (by omega), if_pos (by omega), Nat.add_sub_cancel_left]

theorem latchTick_running (s : State) (hrun : s.plane.running = true) :
    latchTick s = s.onPlane fun p => { p with status := { p.status with tickLatch := s.wallStamp.word / 2 ^ 32 } } := by rw [latchTick, if_pos hrun]

/-- A read of TICK_NOW gives both halves of one tick (Table 03.3). -/
theorem spiLoad_tick (s : State) (hrun : s.plane.running = true) :
    spiLoad s (statusBase + 8) 2 = (leBytes 8 (s.wallStamp.word % 2 ^ 64), latchTick s) := by
  have hlow : readStatus s 8 = s.wallStamp.word % 2 ^ 32 := by simp [readStatus, hrun]
  have hhigh : readStatus (latchTick s) 0x0C = s.wallStamp.word / 2 ^ 32 := by simp [latchTick_running s hrun, readStatus, State.onPlane, hrun]
  have hnext : statusBase + 8 + 4 = statusBase + 12 := by omega
  have hother : statusBase + 12 ≠ statusBase + 8 := by omega
  simp only [spiLoad, if_true, hnext, hother, if_false, spiWord_status _ _ (show 8 < 64 by omega), spiWord_status _ _ (show 12 < 64 by omega), hlow, hhigh,
    List.append_nil, leBytes_split]

/-- A frame that reads TICK_NOW is acknowledged once the device is READY. -/
theorem spiAck_tick (s : State) (f : SpiFrame) (hlen : f.length = 8) (haddr : f.addr = statusBase + 8) (hbyte : f.byte7 = 0) (hready : s.seq.ready = true) :
    spiAck s f = 0 := by
  have hheader : spiBadHeader f = false := by simp [spiBadHeader, hlen, haddr, hbyte, statusBase]
  have hwindow : rangeInWindow s f.addr f.length = true := by
    simp [rangeInWindow, hlen, haddr, statusBase, List.range_succ, inHostWindow]
  simp [spiAck, hheader, hready, hwindow]

theorem spiUp_runs {s : State} (h : spiUp s = true) : s.plane.running = true := by
  simp only [spiUp, Bool.and_eq_true] at h
  exact h.1.1.2

/-- IRQ_OUT is driven while VIO stands (R403). -/
theorem irqLand_drives (s : State) (h : s.pins.vio = true) : (irqLand s).isSome = true := by
  unfold irqLand
  rw [h, if_neg (by simp)]
  split <;> rfl

/-- Settles O36: each frame is answered as its checks say, and touches what its address names; the lands follow VIO, and the TAP its instruction. -/
theorem hostSpiWritesAndReads : Obligations.HostSpiWritesAndReads := by
  refine ⟨?_, ?_, ?_, ?_, ?_, ?_, ?_, ?_⟩
  · intro f s hup hcmd hcrc
    have hspi := spiWrite_answers s f 1 hup hcmd (if_pos hcrc)
    rw [if_neg Nat.one_ne_zero, spiNote_only] at hspi
    exact ⟨_, execHostSpiWrite_runs f s, (congrArg (fun t : State => t.pins.spiOut) hspi :), (congrArg State.mem hspi :), (congrArg State.plane hspi :)⟩
  · intro f s hup hcmd hlen hdata hcrc hack hlow hhigh hwf
    have hpad : padTo f.length f.data = f.data := by simp [padTo, hlen, hdata]
    have hspi := spiWrite_answers s f 0 hup hcmd (by rw [if_neg (not_not.2 hcrc), hack])
    rw [if_pos rfl, hpad, spiStore_word s f.addr f.data hdata hlow hhigh, spiNote_only] at hspi
    have hmem : (spiWrite s f).mem = (memWriteN s f.addr f.data).mem := (congrArg State.mem hspi :)
    have hread (a : Nat) : memRead ((spiWrite s f).withPending s.pending) a = memRead (memWriteN s f.addr f.data) a := by
      simp only [memRead, State.withPending, hmem]
    refine ⟨_, execHostSpiWrite_runs f s, (congrArg (fun t : State => t.pins.spiOut) hspi :), ?_, ?_, fun a ha => ?_⟩
    · rw [memReadN_congr (s := memWriteN s f.addr f.data) fun i _ => hread _]
      have hwritten := memReadN_memWriteN s f.addr f.data hwf
      rwa [hdata] at hwritten
    · exact (congrArg State.plane hspi :).trans (memWriteN_plane ..)
    · rw [hread, memRead_memWriteN_out _ _ _ _ (by omega)]
  · intro f s hup hcmd hlen hack hlow hhigh
    have hspi := spiRead_answers s f hup hcmd hack
    rw [hlen, spiLoad_word s f.addr hlow hhigh, spiNote_only] at hspi
    exact ⟨_, execHostSpiRead_runs f s, (congrArg State.mem hspi :), (congrArg State.plane hspi :), (congrArg (fun t : State => t.pins.spiOut) hspi :)⟩
  · intro f s hup hcmd hlen haddr hbyte hready
    have hspi := spiRead_answers s f hup hcmd (spiAck_tick s f hlen haddr hbyte hready)
    have haddr : f.addr = statusBase + 8 := haddr
    rw [hlen, haddr, spiLoad_tick s (spiUp_runs hup), spiNote_only] at hspi
    have hlatch := latchTick_running s (spiUp_runs hup)
    refine ⟨_, execHostSpiRead_runs f s, ?_, ?_⟩
    · exact (congrArg (fun t : State => t.plane.status.tickLatch) hspi :).trans (congrArg (fun t : State => t.plane.status.tickLatch) hlatch :)
    · exact (congrArg (fun t : State => t.pins.spiOut.take 9) hspi :)
  · intro mv s hmv
    refine ⟨(s.onPins fun p => { p with vio := false }).withPending s.pending, congrArg (effect s) (if_pos hmv), rfl, rfl, rfl, rfl⟩
  · intro mv s hmv
    refine ⟨(s.onPins fun p => { p with vio := true }).withPending s.pending, congrArg (effect s) (if_pos hmv), rfl, irqLand_drives _ rfl, rfl⟩
  · intro low d s
    exact ⟨_, rfl, rfl, rfl, rfl⟩
  · intro n low d s hlow hhigh
    refine ⟨_, congrArg (effect s) ((if_neg (by omega)).trans (if_neg (by omega))), rfl, rfl, rfl, rfl⟩

end Sys2Proof.Machine

namespace Sys2Proof.Machine

open Sys2Proof.Claims

/-! States and packets for counterexamples. -/

/-- Lantern in tick 16,000 of epoch 1: every hall is on, every landing has released the tick, and ring 0 is enabled and empty. -/
def awake : State where
  seq := { powered := true, core := true, state := .lantern, ready := true, vbatl := 12000, pd := 63 }
  plane := {
    running := true
    epoch := 1
    tick := 16000
    lin := 16000
    halls := Vector.replicate 9 { on := true }
    rings := vmod (Vector.replicate 64 {}) 0 fun g => { g with base := keeperBase, sizeLog2 := 6, enabled := true, head := 4, tail := 4 }
    landings := Vector.replicate 10 { released := 16000, streams := Vector.replicate 9 { joined := true, progress := 16000 } } }
  pins := { vio := true }

/-- A packet of the keeper's compartment in slot 0 of ring 0: its opcode, its slots, its arrival in epoch 1, and the bytes of its arguments. -/
def command (op slots at_ : Nat) (args : Reply := []) : Packet where
  comp := 0
  ring := 0
  slot := 0
  arrival := ⟨1, at_⟩
  bytes := leBytes (64 * slots) (replyNat ([(0, 2, op), (3, 1, slots)] ++ args))

/-- The keeper holds packets, the first of which its ring has admitted. -/
def withKeeper (l : List Packet) (s : State) : State :=
  (s.onRing 0 fun g => { g with admitted := (l.take 1).map fun p => { slot := p.slot, slots := p.slots, arrival := p.arrival } }).onPlane fun q =>
    { q with keeper := l }

/-- The dispatcher holds a packet that its ring has admitted. -/
def withWaiting (p : Packet) (s : State) : State :=
  (s.onRing 0 fun g => { g with admitted := [{ slot := p.slot, slots := p.slots, arrival := p.arrival }] }).onPlane fun q =>
    { q with waiting := [{ p := p }] }

/-- A command answers a next state that fulfils a test. -/
def leadsTo (c : Instr) (s : State) (test : State → Bool) : Bool :=
  match exec c s with
  | .next t => test t
  | _ => false

/-- What a command leads to is the state that it answers. -/
theorem test_of_leadsTo {c : Instr} {s t : State} {test : State → Bool} (h : leadsTo c s test = true) (hexec : exec c s = .next t) : test t = true := by
  rwa [leadsTo, hexec] at h

/-! A packet with an unlisted opcode behind one that the keeper still works on (R35). -/

/-- A packet with an opcode that Table 03.14 does not list, and a SYS.INFO that arrived before it. -/
def unlisted : Packet := command 0x1FF 1 8000
def infoBefore : Packet := { command 0x101 1 7000 with slot := 1 }

/-- The keeper holds both, and still works on the SYS.INFO. -/
def keeperAtWork : State := withKeeper [unlisted, infoBefore] awake

/-- Refutes O38: the keeper handles its inputs in stamp order (R35), so a packet with an unlisted opcode whose tick has come stays with the keeper,
without a reply, while the keeper works on a packet that arrived before it; the third clause leaves out `keeperReaches`. -/
theorem not_keeperAdmitsAndDispatcherMoves : ¬ Obligations.KeeperAdmitsAndDispatcherMoves := by
  intro h
  obtain ⟨-, -, hunknown⟩ := h
  have hholds : opOf unlisted.opcode = none ∧ keeperAtWork.plane.keeper.contains unlisted = true ∧ unlisted.inFlight = false ∧
      replayShuts unlisted keeperAtWork = false ∧ dueTick false unlisted keeperAtWork = keeperAtWork.plane.tick ∧
      inTurn unlisted keeperAtWork = true ∧ headerBad (fitsRing unlisted keeperAtWork) unlisted = false := by decide +kernel
  obtain ⟨hop, hheld, halone, hshut, hdue, hturn, hheader⟩ := hholds
  obtain ⟨t, hexec, hdone, -⟩ := hunknown unlisted keeperAtWork hop hheld halone hshut hdue hturn hheader
  have hnone : leadsTo (.unknownOpcode unlisted) keeperAtWork (fun t => t.plane.results.isEmpty) = true := by decide +kernel
  rw [Completed, List.isEmpty_iff.1 (test_of_leadsTo hnone hexec)] at hdone
  exact List.not_mem_nil hdone

/-! SYS.STATE that leaves Beam where the area of a capture that has ended is still marked as closing. -/

/-- SYS.STATE with TARGET Lantern. -/
def toLanternPacket : Packet := command 0x102 1 8000 [(16, 1, 2)]

/-- Beam, with no capture running, and CLOSING still set. -/
def closedCapture : State :=
  let s := withKeeper [toLanternPacket] { awake with seq := { awake.seq with state := .beam } }
  s.onPlane fun q => { q with capture := { q.capture with closing := true } }

/-- Refutes O39: SYS.STATE with TARGET Lantern closes a capture that runs, and touches nothing of one that does not run; the fifth clause has CLOSING and
RUNNING agree from every state. -/
theorem not_sysPacketsAct : ¬ Obligations.SysPacketsAct := by
  intro h
  obtain ⟨-, -, -, -, hbeam, -⟩ := h
  have hholds : KeeperRuns sysStateOp toLanternPacket closedCapture ∧ toLanternPacket.fld 16 0 2 = 2 ∧ closedCapture.image.trial.state ≠ 2 ∧
      closedCapture.seq.state = .beam := by decide +kernel
  obtain ⟨hruns, htarget, htrial, hstate⟩ := hholds
  obtain ⟨t, hexec, -, -, -, -, hclosing⟩ := hbeam toLanternPacket closedCapture hruns htarget htrial hstate
  have hdiffer : leadsTo (.sysState toLanternPacket) closedCapture (fun t => t.plane.capture.closing && !t.plane.capture.running) = true := by
    decide +kernel
  have htest := test_of_leadsTo hdiffer hexec
  rw [hclosing, Bool.and_not_self] at htest
  exact Bool.false_ne_true htest

end Sys2Proof.Machine

namespace Sys2Proof.Machine

open Sys2Proof.Claims

/-! Cyclic sensing with a tick hall that still runs. -/

/-- Dark, with the tick hall still running, 80 ticks into a DARK_PERIOD: input 0 wakes the device in the first period that differs. -/
def senseBesideTicks : State :=
  { awake with
    now := 80
    seq := { awake.seq with state := .dark }
    store := { awake.store with input := { awake.store.input with si := vmod awake.store.input.si 0 fun g => { g with wakeEn := true }, dark := { confirm := 1 } } } }

/-- Refutes O50: while the tick hall runs, a wake reaches the keeper through L5 (R21), so cyclic sensing that latches a wake there puts an item into L5;
the third clause has the plane stay as it is from every state. -/
theorem not_inputsDeliverAndSense : ¬ Obligations.InputsDeliverAndSense := by
  intro h
  obtain ⟨-, -, hsense, -⟩ := h
  have hholds : sensing senseBesideTicks = true ∧ pulseEnds senseBesideTicks 0 = true := by decide +kernel
  obtain ⟨hdark, hends⟩ := hholds
  obtain ⟨t, hexec, hplane, -⟩ := hsense 0 [0] senseBesideTicks hdark (by decide) hends
  have hput : leadsTo (.cyclicSense ⟨0, [0]⟩) senseBesideTicks (fun t => (vget t.plane.landings 5).items.length == 1) = true := by decide +kernel
  have hnone : ((vget senseBesideTicks.plane.landings 5).items.length == 1) = false := by decide +kernel
  have htest := test_of_leadsTo hput hexec
  rw [hplane, hnone] at htest
  exact Bool.false_ne_true htest

end Sys2Proof.Machine

namespace Sys2Proof.Machine

open Sys2Proof.Claims

/-! A secure frame on a bus beside a tick hall that does not run. -/

/-- The tick hall does not run, and controller 0 is on its bus in NORMAL with one element, which names a secure stream. -/
def busWithoutTicks : State :=
  { awake with
    plane := { awake.plane with running := false }
    store := { awake.store with can := { awake.store.can with
      mode := vmod awake.store.can.mode 0 fun g => { g with op := 1, filterBase := 0, filterLen := 1 }
      filter := [(0, { type := 1, id1 := 0, id2 := 2047, secure := true, action := 1 })] } }
    sleep := { awake.sleep with net := vmod awake.sleep.net 0 fun n => { n with xcvr := 0 } }
    bus := { awake.bus with can := vmod awake.bus.can 0 fun x => { x with state := 1 } } }

/-- Refutes O52: while the tick hall does not run there is no epoch (`State.wallStamp`), so the verdict of a secure frame that is accepted then is stamped with
epoch 0; the third part of the first clause has it carry the epoch of the tick hall from every state. -/
theorem not_canControllersAct : ¬ Obligations.CanControllersAct := by
  intro h
  obtain ⟨haccept, -⟩ := h
  have hholds : cutOff busWithoutTicks = false ∧ (canMode busWithoutTicks 0).op = 1 ∧ (canOf busWithoutTicks 0).state = 1 ∧
      (canOf busWithoutTicks 0).isOwn {} = false ∧ (netOf busWithoutTicks 0).xcvr < 2 ∧ findElem busWithoutTicks 0 {} = some 0 ∧
      (filterAt busWithoutTicks 0).secure = true ∧ (filterAt busWithoutTicks 0).action ≠ 0 := by decide +kernel
  obtain ⟨hcut, hmode, hstate, hown, hxcvr, helem, hsecure, haction⟩ := hholds
  obtain ⟨-, -, hverdict, -⟩ := haccept 0 {} busWithoutTicks (by decide) hcut hmode (.inl hstate) hown hxcvr
  obtain ⟨t, hexec, -, -, hstamped⟩ := hverdict 0 (fun hfd => absurd hfd (by decide)) helem hsecure haction
  have hzero : leadsTo (.canFrameAccept 0 {}) busWithoutTicks (fun t => (canOf t 0).verdicts.all fun v => v.stamp.epoch == 0) = true := by decide +kernel
  have htest := test_of_leadsTo hzero hexec
  rw [hstamped, List.all_append, Bool.and_eq_true] at htest
  have hepoch : ¬ busWithoutTicks.plane.epoch = 0 := by decide
  exact hepoch (by simpa using htest.2)

/-! A Sync on the only master port. -/

/-- Port 0 is up and the only master port, and a sync interval has ended; the last Sync had the number 0. -/
def syncDue : State :=
  { awake with
    now := 8000000
    store := { awake.store with eth := { awake.store.eth with time := { gm := true, masters := 1 } } }
    eth := { awake.eth with port := vmod awake.eth.port 0 fun p => { p with link := 1 } } }

/-- Refutes O55: a sync interval counts SYNC_SEQ on and sends the Sync under the new number; the third part of the first clause has the Sync carry the number
before it. -/
theorem not_ethernetTimeSleepAndPacketsAct : ¬ Obligations.EthernetTimeSleepAndPacketsAct := by
  intro h
  obtain ⟨hsync, -⟩ := h
  have hholds : hallRuns syncDue 5 = true ∧ syncDue.eth.syncAt + syncTicks syncDue.store.eth.time.syncLog ≤ syncDue.now ∧
      bitList 6 syncDue.store.eth.time.masters = [0] ∧ (portOf syncDue 0).link = 1 ∧ cellsFit syncDue 0 7 1 = true := by decide +kernel
  obtain ⟨hruns, hdue, hmaster, hlink, hfits⟩ := hholds
  obtain ⟨t, hexec, -, q, hqueue, -, hseq⟩ := (hsync syncDue hruns hdue).2.2 0 hmaster (by decide) hlink hfits
  have hnumber : leadsTo .syncInterval syncDue (fun t => (portOf t 0).queue.map (fun q => (q.frame.body.drop 30).take 2) == [beBytes 2 1]) = true := by
    decide +kernel
  have hempty : (portOf syncDue 0).queue = [] := by decide +kernel
  have htest := test_of_leadsTo hnumber hexec
  rw [hqueue, hempty, List.nil_append, List.map_singleton, hseq] at htest
  have hdiffer : ([beBytes 2 syncDue.eth.syncSeq] == [beBytes 2 1]) = false := by decide +kernel
  exact Bool.false_ne_true (hdiffer.symm.trans htest)

end Sys2Proof.Machine

namespace Sys2Proof.Machine

open Sys2Proof.Claims

/-! A short antenna that ends the poll of a Buoy. -/

/-- A poll whose frame is on antenna 0 alone. -/
def onePoll : Poll := { antMask := 1, frameEnd := 249856 }

/-- Buoy with this poll, and no target to go on to. -/
def buoyPolling : State := { awake with seq := { awake.seq with state := .buoy }, access := { awake.access with poll := some onePoll } }

/-- Refutes O59: the last antenna of a poll in Buoy is short, the poll fails, and the device returns to Dark, where what it knew of its antennas is gone; the
ninth clause has the short kept in every device state. -/
theorem not_accessAndReleaseAct : ¬ Obligations.AccessAndReleaseAct := by
  intro h
  obtain ⟨-, -, -, -, -, -, -, -, hfault, -⟩ := h
  obtain ⟨t, hexec, -, hshort, -⟩ := hfault 0 2 0 onePoll buoyPolling rfl (by decide +kernel) (by decide +kernel) (.inr rfl) rfl (by decide +kernel)
  have hlost : leadsTo (.antennaFault 0 2) buoyPolling (fun t => t.access.lfShort == 0) = true := by decide +kernel
  have htest := test_of_leadsTo hlost hexec
  rw [hshort] at htest
  have hkept : (setBit buoyPolling.access.lfShort 0 true == 0) = false := by decide +kernel
  exact Bool.false_ne_true (hkept.symm.trans htest)

end Sys2Proof.Machine

namespace Sys2Proof.Machine

open Sys2Proof.Claims

/-! Streams of a hall in the landings that it feeds (R19, R23). -/

/-- The stream of hall `h` in landing `l`. -/
def streamAt (s : State) (l h : Nat) : LStream := vget (vget s.plane.landings l).streams h

theorem streamAt_mapStreams (s : State) (h : Nat) (f : Nat → LStream → LStream) (l : Nat) (hl : l < 10) (hh : h < 9) (hfeeds : h ∈ landingInputs l) :
    streamAt (mapStreams s h f) l h = f l (streamAt s l h) := by
  simp only [streamAt, mapStreams, onPlane_plane, vget_vmapIdx _ _ _ hl, List.contains_iff_mem, hfeeds, if_true, vget_vmod_same _ _ _ hh]

theorem hallLeave_leaves (h l : Nat) (s : State) (hh : h < 9) (hl : l < 10) (hfeeds : h ∈ landingInputs l) :
    (streamAt (leaveLandings s h) l h).joined = false :=
  congrArg LStream.joined (streamAt_mapStreams s h _ l hl hh hfeeds)

theorem joinLandings_joins (h l : Nat) (s : State) (hh : h < 9) (hl : l < 10) (hfeeds : h ∈ landingInputs l) :
    (streamAt (joinLandings s h) l h).joined = true ∧ (streamAt (joinLandings s h) l h).progress = s.wallTick + streamOffset l h := by
  rw [joinLandings, streamAt_mapStreams s h _ l hl hh hfeeds]
  exact ⟨rfl, rfl⟩

theorem hallJoin_joins (h : Nat) (s : State) (hh : h < 9) (hrun : s.plane.running = true) (hon : (vget s.plane.halls h).on = true)
    (hsync : s.wallTick % 256 = 0) (hfree : ¬ (h = 7 ∧ (vget s.plane.halls h).dropped = true)) :
    hallJoin s h = joinLandings (s.onHall h fun x => { x with count := s.wallTick, dropped := false }) h := by
  unfold hallJoin
  exact if_pos ⟨hrun, hh, hon, hsync, by simpa [imp_iff_not_or] using hfree⟩

/-- Settles O18: leaving and joining change the streams of the hall in every landing that it feeds. -/
theorem hallsLeaveAndJoinLandings : Obligations.HallsLeaveAndJoinLandings := by
  refine ⟨fun h s hh hrun hoff => ?_, fun h s hh hrun hon hsync hfree => ?_⟩
  · have hexec : exec (.hallLeave h) s = .next ((leaveLandings s h).withPending s.pending) := congrArg (effect s) (if_pos ⟨hrun, by simp [hoff]⟩)
    exact ⟨_, hexec, fun l hl hfeeds => hallLeave_leaves h l s hh hl hfeeds⟩
  · refine ⟨_, congrArg (effect s) (hallJoin_joins h s hh hrun hon hsync hfree), ?_, ?_, fun l hl hfeeds => ?_⟩
    · exact congrArg HallSt.count (onHall_same s h _ hh)
    · exact congrArg HallSt.dropped (onHall_same s h _ hh)
    · exact joinLandings_joins h l _ hh hl hfeeds

/-! What completing a packet at a stamp changes (R76–R79): its ring, its reply, the results and the landings. -/

theorem completeAt_beyondReply (s : State) (p : Packet) (st : Status) (r : Reply) (done : Stamp) :
    (completeAt s p st r done).beyondReply = s.beyondReply := by
  unfold completeAt
  dsimp only
  split <;> split <;> simp

theorem completeAt_beyondCompletion (s : State) (p : Packet) (st : Status) (r : Reply) (done : Stamp) :
    (completeAt s p st r done).plane.beyondCompletion = s.plane.beyondCompletion := by
  unfold completeAt
  dsimp only
  have hsettled : (if replyHidden p s = true then dropReplayed s p else retirePacket (writeReply s p st r done) p).plane.beyondCompletion =
      s.plane.beyondCompletion := by
    split
    · rfl
    · exact (congrArg Plane.beyondCompletion (writeReply_plane s p st r done) :)
  split
  · rw [postEvent_beyondCompletion]
    exact hsettled
  · exact hsettled

theorem memWriteN_image (s : State) (a : Nat) (l : List Byte) : (memWriteN s a l).image = s.image := by rw [memWriteN_only]

/-- Outside a trial run a completion leaves the images alone. -/
theorem completeAt_image (s : State) (p : Packet) (st : Status) (r : Reply) (done : Stamp) (h : trialRuns s = false) :
    (completeAt s p st r done).image = s.image := by
  have hwrite : (writeReply s p st r done).image = s.image := by
    unfold writeReply
    simp only [mirrorReply_of_no_trial _ _ _ _ h, ite_self]
    split
    · rw [memWriteN_image, memWriteN_image]
    · rfl
  have hsettled : (if replyHidden p s = true then dropReplayed s p else retirePacket (writeReply s p st r done) p).image = s.image := by
    split
    · rfl
    · exact hwrite
  unfold completeAt
  dsimp only
  split
  · rw [postEvent_only]
    exact hsettled
  · exact hsettled

/-! Unadmitted packets that a reset ends (R63). -/

theorem endUnadmitted_beyondReply (st : Status) (r n : Nat) : ∀ s : State, (endUnadmitted st r n s).beyondReply = s.beyondReply := by
  induction n with
  | zero => exact fun _ => rfl
  | succ n ih =>
    intro s
    rw [endUnadmitted]
    split
    · exact (ih _).trans (completeAt_beyondReply ..)
    · rfl

theorem endUnadmitted_beyondCompletion (st : Status) (r n : Nat) :
    ∀ s : State, (endUnadmitted st r n s).plane.beyondCompletion = s.plane.beyondCompletion := by
  induction n with
  | zero => exact fun _ => rfl
  | succ n ih =>
    intro s
    rw [endUnadmitted]
    split
    · exact (ih _).trans (completeAt_beyondCompletion ..)
    · rfl

theorem endUnadmitted_image (st : Status) (r n : Nat) : ∀ s : State, trialRuns s = false → (endUnadmitted st r n s).image = s.image := by
  induction n with
  | zero => exact fun _ _ => rfl
  | succ n ih =>
    intro s h
    rw [endUnadmitted]
    split
    · have himage := completeAt_image (takeIn s (ringPacket s r)) (ringPacket s r) st [] s.wallStamp h
      exact (ih _ (by rw [trialRuns, himage]; exact h)).trans himage
    · rfl

theorem faultUnadmitted_beyondReply (s : State) (f : Nat → Bool) : (faultUnadmitted s f).beyondReply = s.beyondReply :=
  foldl_keeps State.beyondReply _ (fun u r => endUnadmitted_beyondReply _ r 4096 u) _ s

theorem faultUnadmitted_beyondCompletion (s : State) (f : Nat → Bool) :
    (faultUnadmitted s f).plane.beyondCompletion = s.plane.beyondCompletion :=
  foldl_keeps (fun u : State => u.plane.beyondCompletion) _ (fun u r => endUnadmitted_beyondCompletion _ r 4096 u) _ s

theorem faultUnadmitted_image (s : State) (f : Nat → Bool) (h : trialRuns s = false) : (faultUnadmitted s f).image = s.image := by
  have hstep (l : List Nat) : ∀ u : State, trialRuns u = false → (l.foldl (fun s r => endUnadmitted .hwFault r 4096 s) u).image = u.image := by
    induction l with
    | nil => exact fun _ _ => rfl
    | cons r l ih =>
      intro u hu
      have himage := endUnadmitted_image .hwFault r 4096 u hu
      exact (ih _ (by rw [trialRuns, himage]; exact hu)).trans himage
  exact hstep _ s h

/-! Events that are posted in a state that has only completed packets (R277). -/

theorem eventRings_of_beyondCompletion {s t : State} (hplane : t.plane.beyondCompletion = s.plane.beyondCompletion)
    (hsys : t.store.sys = s.store.sys) (e : Ev) : eventRings t e = eventRings s e :=
  eventRings_congr (congrArg Plane.settings hplane :) (congrArg Plane.epoch hplane :) hsys e

theorem Posted.of_rings {s u t : State} {e : Ev} (h : Posted u t e) (hrings : eventRings u e = eventRings s e) : Posted s t e :=
  fun hsome => h (by rwa [hrings])

/-! A trial that ends (R342) changes the images and the logbook. -/

/-- A state but for its images, its logbook and what its halls deliver. -/
def State.beyondTrial (s : State) : State :=
  { s with image := {}, store := { s.store with image := {}, log := {}, rtc := {} }, plane := s.plane.quiet }

theorem LogsOnly.beyondTrial {s t : State} (h : LogsOnly s t) : t.beyondTrial = s.beyondTrial :=
  (congrArg (fun u : State => { u with image := {}, store := { u.store with image := {} } }) h.rest :)

theorem logsOnly_imageEvent (s : State) (kind address value comp : Nat) (extra : List Byte) :
    LogsOnly s (imageEvent s kind address value comp extra) :=
  (logsOnly_postEvent s _).trans (logsOnly_logDevice _ _ _ _)

theorem endTrial_beyondTrial (s : State) (cause : Nat) (f : Trial → Trial) : (endTrial s cause f).beyondTrial = s.beyondTrial := by
  unfold endTrial
  dsimp only
  split
  · rfl
  · rw [(logsOnly_imageEvent _ _ _ _ _ _).beyondTrial]
    split <;> rfl

theorem LogsOnly.image {s t : State} (h : LogsOnly s t) : t.image = s.image := (congrArg State.image h.rest :)

/-- A trial that is armed or runs ends with its cause. -/
theorem endTrial_ends (s : State) (cause : Nat) (f : Trial → Trial) (h : s.image.trial.state = 1 ∨ s.image.trial.state = 2) :
    (endTrial s cause f).image.trial.state = 3 ∧ (endTrial s cause f).image.trial.cause = cause := by
  unfold endTrial
  dsimp only
  rw [if_neg (by omega), (logsOnly_imageEvent _ _ _ _ _ _).image]
  split <;> exact ⟨rfl, rfl⟩

/-! A logic reset (R63, Table 02.9). -/

theorem realStore_sys (s : State) : (realStore s).1.sys = (s.saved.getD (s.store, s.rtc)).1.sys := by
  unfold realStore
  split <;> simp [*]

theorem realStore_load (s : State) : (realStore s).1.load = (s.saved.getD (s.store, s.rtc)).1.load := by
  unfold realStore
  split <;> simp [*]

theorem clearLogic_clears (s : State) (cause : ResetCause) (supply : Bool) :
    LogicReset s { clearLogic s with ret := { s.ret with cause := cause }, seq := { (clearLogic s).seq with supplyReset := supply } } cause.cause := by
  have hring : ∀ r, r < 64 → (vget (Vector.replicate 64 ({} : Ring)) r).enabled = false := by decide +kernel
  exact ⟨rfl, rfl, rfl, rfl, rfl, rfl, rfl, rfl, hring, rfl, rfl, rfl, realStore_sys s, realStore_load s, rfl⟩

/-- The settings behind a replay's view are those of every state that differs in its trial and its logbook only. -/
theorem savedSettings_of_beyondTrial {u s : State} (h : u.beyondTrial = s.beyondTrial) :
    (u.saved.getD (u.store, u.rtc)).1.sys = (s.saved.getD (s.store, s.rtc)).1.sys ∧
    (u.saved.getD (u.store, u.rtc)).1.load = (s.saved.getD (s.store, s.rtc)).1.load := by
  have hsaved : u.saved = s.saved := (congrArg State.saved h :)
  have hsys : u.store.sys = s.store.sys := (congrArg (fun v : State => v.store.sys) h :)
  have hload : u.store.load = s.store.load := (congrArg (fun v : State => v.store.load) h :)
  rw [hsaved]
  cases s.saved with
  | none => exact ⟨hsys, hload⟩
  | some x => exact ⟨rfl, rfl⟩

/-- A reset of a state that differs in its trial and its logbook is one of the state itself. -/
theorem LogicReset.of_beyondTrial {s u t : State} {cause : Nat} (h : LogicReset u t cause) (hsame : u.beyondTrial = s.beyondTrial) :
    LogicReset s t cause := by
  obtain ⟨hin, hcause, hrun, hmem, hpoints, hbus, hcipher, hwatch, hrings, hload, hlink, hdie, hsys, hstore, hnow⟩ := h
  obtain ⟨hsys', hstore'⟩ := savedSettings_of_beyondTrial hsame
  exact ⟨hin, hcause, hrun, hmem, hpoints, hbus, hcipher, hwatch, hrings, hload.trans (congrArg State.load hsame :),
    hlink.trans (congrArg State.link hsame :), hdie.trans (congrArg (fun v : State => v.input.die) hsame :), hsys.trans hsys',
    hstore.trans hstore', hnow.trans (congrArg State.now hsame :)⟩

/-- Where no reset stands, one that is asserted clears the logic die under its cause. -/
theorem assertLogic_resets (s : State) (c : ResetCause) (supply : Bool) (h : s.seq.inReset = false) :
    LogicReset s (assertLogic s c supply) c.cause := by
  unfold assertLogic
  rw [if_neg (by simp [h])]
  exact LogicReset.of_beyondTrial (clearLogic_clears (endTrial s 7) c supply) (endTrial_beyondTrial s 7 id)

/-- An event whose stamp is given is the same in every state. -/
theorem ev_stamped (s t : State) (h kind address value : Nat) (point : Bool) (comp : Nat) (x : Stamp) :
    { s.ev h kind address value point comp with stamp := x } = { t.ev h kind address value point comp with stamp := x } := rfl

/-! Mismatches of the application pairs (R63, R334). -/

theorem pairReset_posts (s : State) (pair cause : Nat) :
    Posted s (pairReset s pair cause 0) { s.ev 1 0x0102 0 cause with stamp := s.wallStamp } := by
  have hplane := faultUnadmitted_beyondCompletion s fun c => (charterOf s c).pair == pair
  have hstore : (faultUnadmitted s fun c => (charterOf s c).pair == pair).store = s.store := (congrArg State.store (faultUnadmitted_beyondReply ..) :)
  have hstamp : (faultUnadmitted s fun c => (charterOf s c).pair == pair).wallStamp = s.wallStamp :=
    (congrArg (fun q : Plane => if q.running then Stamp.mk q.epoch (q.tick + q.held) else {}) hplane :)
  have hpost := postEvent_posted (faultUnadmitted s fun c => (charterOf s c).pair == pair) { s.ev 1 0x0102 0 cause with stamp := s.wallStamp }
  have hreset : pairReset s pair cause 0 = postEvent (faultUnadmitted s fun c => (charterOf s c).pair == pair)
      { s.ev 1 0x0102 0 cause with stamp := s.wallStamp } := by
    unfold pairReset resetEvent
    rw [hstamp]
    rfl
  rw [hreset]
  exact Posted.of_rings hpost (eventRings_of_beyondCompletion hplane (congrArg Store.sys hstore) _)

theorem pairReset_beyondReply (s : State) (pair cause index : Nat) : (pairReset s pair cause index).beyondReply = s.beyondReply := by
  unfold pairReset resetEvent
  rw [postEvent_beyondReply, faultUnadmitted_beyondReply]

theorem pairReset_running (s : State) (pair cause index : Nat) : (pairReset s pair cause index).plane.running = s.plane.running := by
  unfold pairReset resetEvent
  rw [postEvent_only]
  exact (congrArg Plane.running (faultUnadmitted_beyondCompletion ..) :)

theorem pairReset_image (s : State) (pair cause index : Nat) (h : trialRuns s = false) : (pairReset s pair cause index).image = s.image := by
  unfold pairReset resetEvent
  rw [postEvent_only]
  exact faultUnadmitted_image s _ h

/-- What spoiling a TENTATIVE bank leaves alone: all but the banks. -/
theorem spoilTentative_only (s : State) : ∃ x : ImageStore, spoilTentative s = { s with store := { s.store with image := x } } := by
  have hstep (l : List Nat) : ∀ u : State, ∃ x : ImageStore, l.foldl (fun s kind =>
      match bankIn s kind 4 with
      | some b => s.onBank13 b fun x => { x with bootLeft := 0 }
      | none => s) u = { u with store := { u.store with image := x } } := by
    induction l with
    | nil => exact fun u => ⟨u.store.image, rfl⟩
    | cons k l ih =>
      intro u
      rw [List.foldl_cons]
      split
      · obtain ⟨x, hx⟩ := ih (u.onBank13 _ fun x => { x with bootLeft := 0 })
        exact ⟨x, by rw [hx]; rfl⟩
      · exact ih u
  exact hstep _ s

@[simp] theorem bank13_withPending (u : State) (q : List Instr) (b : Nat) : bank13 (u.withPending q) b = bank13 u b := rfl

theorem bank13_onBank13 (s : State) (b k : Nat) (f : Bank13 → Bank13) (h : b < 4) :
    bank13 (s.onBank13 b f) k = if k = b then f (bank13 s b) else bank13 s k := by
  have hbank : bank13 (s.onBank13 b f) k = vget (vmod s.store.image.bank b f) k := rfl
  rw [hbank]
  split
  · next he => rw [he]; exact vget_vmod_same _ _ _ h
  · next hne => exact vget_vmod_ne _ _ _ _ (Ne.symm hne)

theorem bankIn_app_range {s : State} {state b : Nat} (h : bankIn s 2 state = some b) : b = 2 ∨ b = 3 := by
  have hmem := List.mem_of_find?_eq_some h
  simpa using hmem

theorem bankIn_keeper_range {s : State} {state b : Nat} (h : bankIn s 1 state = some b) : b = 0 ∨ b = 1 := by
  have hmem := List.mem_of_find?_eq_some h
  simpa using hmem

/-- A TENTATIVE bank of the application has no boots left when a pair has failed (R334). -/
theorem spoilTentative_spoils (s : State) (b : Nat) (h : bankIn s 2 4 = some b) : (bank13 (spoilTentative s) b).bootLeft = 0 := by
  have hb : b < 4 := by rcases bankIn_app_range h with rfl | rfl <;> omega
  have happ : (bank13 (s.onBank13 b fun x => { x with bootLeft := 0 }) b).bootLeft = 0 := by simp [bank13_onBank13 s b b _ hb]
  unfold spoilTentative
  rw [List.foldl_cons, List.foldl_cons, List.foldl_nil, h]
  dsimp only
  split
  · next c hc =>
    have hlow : c < 4 ∧ b ≠ c := by
      rcases bankIn_app_range h with rfl | rfl <;> rcases bankIn_keeper_range hc with rfl | rfl <;> omega
    rw [bank13_onBank13 _ _ _ _ hlow.1, if_neg hlow.2]
    exact happ
  · exact happ

/-- Settles O24: every trigger of a logic reset asserts it, and a pair that fails is reset alone. -/
theorem resetTriggersAct : Obligations.ResetTriggersAct := by
  refine ⟨fun ns s hlow hpower hreset => ?_, fun s hrun => ?_, fun s hrun => ?_, fun pair s hpair hrun htrial => ?_, fun s hrun htrial => ?_⟩
  · exact ⟨_, congrArg (effect s) (if_pos ⟨hpower, hlow⟩), assertLogic_resets s _ _ hreset⟩
  · have hreset : s.seq.inReset = false := by simpa using (Bool.and_eq_true_iff.1 (Bool.and_eq_true_iff.1 hrun).1).2
    exact ⟨_, congrArg (effect s) (if_pos hrun), assertLogic_resets s _ _ hreset⟩
  · have hreset : s.seq.inReset = false := by simpa using (Bool.and_eq_true_iff.1 (Bool.and_eq_true_iff.1 hrun).1).2
    exact ⟨_, congrArg (effect s) (if_pos hrun), assertLogic_resets s _ _ hreset⟩
  · obtain ⟨x, hspoil⟩ := spoilTentative_only (pairReset s pair (9 + pair) 0)
    have hstep : pairMismatch s pair = spoilTentative (pairReset s pair (9 + pair) 0) := by
      unfold pairMismatch
      rw [if_pos hrun]
      simp [htrial]
    have hstore : (pairReset s pair (9 + pair) 0).store = s.store := (congrArg State.store (pairReset_beyondReply ..) :)
    refine ⟨(spoilTentative (pairReset s pair (9 + pair) 0)).withPending s.pending, congrArg (effect s) hstep, ?_, ?_, ?_, fun b hb => ?_⟩
    · rw [hspoil]
      exact pairReset_posts s pair (9 + pair)
    · rw [hspoil]
      exact pairReset_running ..
    · rw [hspoil]
      exact (congrArg State.seq (pairReset_beyondReply ..) :)
    · have hbanks : bankIn (pairReset s pair (9 + pair) 0) 2 4 = bankIn s 2 4 := by simp only [bankIn, bank13, hstore]
      rw [bank13_withPending]
      exact spoilTentative_spoils (pairReset s pair (9 + pair) 0) b (hbanks.trans hb)
  · obtain ⟨x, hspoil⟩ := spoilTentative_only (pairReset (endTrial s 6) 1 10 0)
    have hstep : pairMismatch s 1 = spoilTentative (pairReset (endTrial s 6) 1 10 0) := by
      unfold pairMismatch
      rw [if_pos hrun, if_pos ⟨rfl, htrial⟩]
    have hbeyond := endTrial_beyondTrial s 6 id
    have hquiet : (endTrial s 6).plane.quiet = s.plane.quiet := (congrArg (fun u : State => u.plane.quiet) hbeyond :)
    have hsys : (endTrial s 6).store.sys = s.store.sys := (congrArg (fun u : State => u.store.sys) hbeyond :)
    have hstamps : (endTrial s 6).wallStamp = s.wallStamp :=
      (congrArg (fun q : Plane => if q.running then Stamp.mk q.epoch (q.tick + q.held) else {}) hquiet :)
    obtain ⟨hstate, hcause⟩ := endTrial_ends s 6 id (.inr htrial)
    have himage := pairReset_image (endTrial s 6) 1 10 0 (by simp [trialRuns, hstate])
    have hposts := pairReset_posts (endTrial s 6) 1 10
    refine ⟨_, congrArg (effect s) hstep, ?_, ?_, ?_, ?_⟩
    · rw [hspoil]
      have hevent : { (endTrial s 6).ev 1 0x0102 0 10 with stamp := (endTrial s 6).wallStamp } = { s.ev 1 0x0102 0 10 with stamp := s.wallStamp } := by
        rw [hstamps]
        exact ev_stamped ..
      rw [hevent] at hposts
      exact Posted.of_rings hposts (eventRings_congr (congrArg Plane.settings hquiet :) (congrArg Plane.epoch hquiet :) hsys _)
    · rw [hspoil]
      exact (congrArg (fun y : Image => y.trial.state) himage).trans hstate
    · rw [hspoil]
      exact (congrArg (fun y : Image => y.trial.cause) himage).trans hcause
    · rw [hspoil]
      exact (congrArg State.seq (pairReset_beyondReply ..) :).trans (congrArg State.seq hbeyond :)

/-! A landing releases a tick (R20). -/

/-- A landing whose joined streams have reported its next tick releases it; L0 and L1 do so for a tick that the tick hall has acted on. -/
theorem landingRelease_releases (l n : Nat) (s : State) (hrun : s.plane.running = true) (hl : l < 10) (hn : n = (vget s.plane.landings l).released)
    (hpast : n < s.wallTick) (hready : landingReady s l n = true) (hact : 2 ≤ l ∨ n < s.plane.tick) : landingRelease s l n = releaseTick s l n := by
  unfold landingRelease
  rw [if_pos ⟨hrun, hl, hn, hpast, hready⟩, if_pos hact]

/-- What waits in a landing after the items that a tick releases have left it. -/
theorem takeDue_items (s : State) (l t : Nat) (hl : l < 10) :
    (vget (takeDue s l t).1.plane.landings l).items = (vget s.plane.landings l).items.filter fun y => !itemDue s t y.stamp := by
  simp only [takeDue, onPlane_plane, vget_vmod_same _ _ _ hl]

/-! Supply warnings (R49). -/

@[simp] theorem observePoint_seq (s : State) (h idx pt : Nat) (v : PVal) (es : List Ev) : (observePoint s h idx pt v es).seq = s.seq := by
  rw [observePoint, observe_only]

theorem supplyWarn_seq (s : State) (mv : Nat) (on : Bool) : (supplyWarn s mv on).seq = { s.seq with warn := on, vbatl := mv } :=
  observePoint_seq ..

theorem supplyWarn_observed (s : State) (mv : Nat) (on : Bool) :
    Observed s (supplyWarn s mv on) 0 (statusIx 41) [(supplyWarnPoint, BitVec.ofNat 16 (b2n on))] [s.ev 0 0x0107 vbatlPoint (mv / 10) true] :=
  Observed.of_reach (observe_observed (s.onSeq fun q => { q with warn := on, vbatl := mv }) 0 (statusIx 41)
    [(supplyWarnPoint, BitVec.ofNat 16 (b2n on))] [s.ev 0 0x0107 vbatlPoint (mv / 10) true] [pointCap 0 supplyWarnPoint (BitVec.ofNat 16 (b2n on))]) rfl

theorem supplyWarn_reach (s : State) (mv : Nat) (on : Bool) : (supplyWarn s mv on).reach = s.reach := reach_observePoint ..

theorem running_of_reach {s t : State} (h : t.reach = s.reach) : t.plane.running = s.plane.running := congrArg Reach.running h

theorem feedsL5_of_reach {s t : State} (h : t.reach = s.reach) (hall : Nat) : feedsL5 t hall = feedsL5 s hall := by
  have hhalls : t.plane.halls = s.plane.halls := congrArg Reach.halls h
  simp only [feedsL5, hhalls, streams_of_reach h]

theorem commitFresh_keeps (l : List Nat) : ∀ s : State,
    (l.foldl (fun s k => if (streamCfg s k).enable then commitFresh s k else s) s).plane = s.plane ∧
    (l.foldl (fun s k => if (streamCfg s k).enable then commitFresh s k else s) s).seq = s.seq ∧
    (l.foldl (fun s k => if (streamCfg s k).enable then commitFresh s k else s) s).store.log = s.store.log := by
  induction l with
  | nil => exact fun _ => ⟨rfl, rfl, rfl⟩
  | cons k l ih =>
    intro s
    obtain ⟨hplane, hseq, hlog⟩ := ih (if (streamCfg s k).enable then commitFresh s k else s)
    have hone : (if (streamCfg s k).enable then commitFresh s k else s).plane = s.plane ∧
        (if (streamCfg s k).enable then commitFresh s k else s).seq = s.seq ∧
        (if (streamCfg s k).enable then commitFresh s k else s).store.log = s.store.log := by
      split <;> exact ⟨rfl, rfl, rfl⟩
    obtain ⟨hplane', hseq', hlog'⟩ := hone
    exact ⟨hplane.trans hplane', hseq.trans hseq', hlog.trans hlog'⟩

/-- The keeper's answer to a supply warning: what closing the open segment leaves, with the freshness of the streams committed. -/
theorem noteWarning_closes (s : State) : (noteWarning s).plane = (closeSegment s 4).plane ∧ (noteWarning s).seq = (closeSegment s 4).seq ∧
    (noteWarning s).store.log = (closeSegment s 4).store.log := by
  unfold noteWarning
  exact commitFresh_keeps (List.range 8) (closeSegment s 4)

theorem logsOnly_closeSegment (s : State) (reason : Nat) : LogsOnly s (closeSegment s reason) := by
  unfold closeSegment
  split
  · exact logsOnly_onLog ..
  · exact logsOnly_sealSegment ..

theorem closeSegment_seq (s : State) (reason : Nat) : (closeSegment s reason).seq = s.seq := (congrArg State.seq (logsOnly_closeSegment s reason).rest :)

/-- While the tick hall runs, a segment that closes takes its reason and stays open until the end of the tick (R378). -/
theorem closeSegment_opened (s : State) (reason : Nat) (hrun : s.plane.running = true) :
    (closeSegment s reason).store.log.opened = s.store.log.opened.map (fun o => { o with closing := some (o.closing.getD reason) }) ∧
    (closeSegment s reason).plane = s.plane := by
  unfold closeSegment
  rw [if_pos hrun]
  exact ⟨rfl, rfl⟩

theorem warnKeeper_seq (s : State) : (warnKeeper s).seq = s.seq := by
  unfold warnKeeper
  (repeat' split)
  · rfl
  · rfl
  · exact (noteWarning_closes s).2.1.trans (closeSegment_seq s 4)
  · rfl

theorem keepsItems_warnKeeper (s : State) (hrun : s.plane.running = true) : KeepsItems s (warnKeeper s) := by
  unfold warnKeeper
  rw [if_pos hrun]
  split
  · exact fun k x hx => mem_landPut_old s 5 k _ x hx
  · exact fun _ _ hx => hx

/-- The warning waits in L5 under the offset of the always-on hall (R21). -/
theorem warnKeeper_lands (s : State) (hrun : s.plane.running = true) (hfeeds : feedsL5 s 0 = true) :
    ∃ it ∈ (vget (warnKeeper s).plane.landings 5).items, it.warn = true ∧ it.hall = 0 ∧ it.stamp = ⟨s.plane.epoch, s.wallTick + 4⟩ := by
  unfold warnKeeper
  rw [if_pos hrun, if_pos hfeeds]
  exact ⟨_, mem_landPut s 5 _ (by omega), rfl, rfl, rfl⟩

/-- VBATL below WARN. -/
theorem vbatlBelowWarn_warns (mv : Nat) (s : State) (hmv : mv ≤ 58000) (hpower : s.seq.powered = true) (hwarn : s.seq.warn = false)
    (hlow : mv < 100 * s.store.sys.vbatlWarn) :
    ∃ t, exec (.vbatlBelowWarn mv) s = .next t ∧ t.seq.warn = true ∧ t.seq.vbatl = mv ∧
      Observed s t 0 (statusIx 41) [(supplyWarnPoint, 1)] [s.ev 0 0x0107 vbatlPoint (mv / 10) true] ∧
      (s.plane.running = true → feedsL5 s 0 = true → ∃ it ∈ (vget t.plane.landings 5).items, it.warn = true ∧ it.hall = 0 ∧
        it.stamp = ⟨s.plane.epoch, s.wallTick + 4⟩) := by
  have hreach := supplyWarn_reach s mv true
  have hrunning := running_of_reach hreach
  have hstep : belowVbatlWarn s mv = warnKeeper (supplyWarn s mv true) := if_pos ⟨hpower, by simp [hwarn], hlow⟩
  have hseq := (warnKeeper_seq (supplyWarn s mv true)).trans (supplyWarn_seq s mv true)
  refine ⟨(warnKeeper (supplyWarn s mv true)).withPending s.pending, ?_, congrArg Seq.warn hseq, congrArg Seq.vbatl hseq, ?_, fun hrun hfeeds => ?_⟩
  · rw [← hstep]
    exact rated_next s mv _ hmv
  · intro hfeeds
    have hrun : s.plane.running = true := by
      simp only [feedsL0, Bool.and_eq_true] at hfeeds
      exact hfeeds.1.1.1
    exact Observed.mono (supplyWarn_observed s mv true) (keepsItems_warnKeeper _ (hrunning.trans hrun)) hfeeds
  · obtain ⟨it, hit, hiswarn, hhall, hstamp⟩ := warnKeeper_lands (supplyWarn s mv true) (hrunning.trans hrun) ((feedsL5_of_reach hreach 0).trans hfeeds)
    refine ⟨it, hit, hiswarn, hhall, ?_⟩
    have hepoch : (supplyWarn s mv true).plane.epoch = s.plane.epoch := congrArg Reach.epoch hreach
    rw [hstamp, hepoch, wallTick_of_reach hreach]

/-- The keeper takes a warning that L5 releases: the open segment is to close with reason 4. -/
theorem keeperItem_warns (s : State) (it : LandItem) (hwarn : it.warn = true) (hwake : it.wake = none) (hrun : s.plane.running = true) :
    (keeperItem s it).plane = s.plane ∧
    (keeperItem s it).store.log.opened = s.store.log.opened.map (fun o => { o with closing := some (o.closing.getD 4) }) := by
  obtain ⟨hplane, -, hlog⟩ := noteWarning_closes s
  obtain ⟨hopened, hsame⟩ := closeSegment_opened s 4 hrun
  unfold keeperItem
  simp only [hwarn, hwake, if_true]
  exact ⟨hplane.trans hsame, (congrArg Logbook.opened hlog).trans hopened⟩

/-- L5 releases a warning that stands alone in it. -/
theorem landingRelease_warning (it : LandItem) (n : Nat) (o : OpenSeg) (s : State) (hrun : s.plane.running = true)
    (hn : n = (vget s.plane.landings 5).released) (hpast : n < s.wallTick) (hready : landingReady s 5 n = true)
    (hone : (vget s.plane.landings 5).items = [it]) (hdue : itemDue s n it.stamp = true) (hwarn : it.warn = true) (hwake : it.wake = none)
    (hopen : s.store.log.opened = some o) :
    ∃ t, exec (.landingRelease 5 n) s = .next t ∧ (vget t.plane.landings 5).items = [] ∧
      t.store.log.opened = some { o with closing := some (o.closing.getD 4) } := by
  let u := s.onPlane fun p => { p with landings := vmod p.landings 5 fun x => { x with released := n + 1 } }
  have hitems : (vget u.plane.landings 5).items = [it] := (congrArg Landing.items (vget_vmod_same _ _ _ (by omega))).trans hone
  have hdue' : itemDue u n it.stamp = true := hdue
  have htake : (takeDue u 5 n).2 = [it] := by simp only [takeDue, hitems, List.filter_cons, hdue', if_true, List.filter_nil]
  have hstep : releaseTick s 5 n = keeperItem (takeDue u 5 n).1 it := by
    have hkeeper : releaseTick s 5 n = releaseKeeper u n := by simp [releaseTick, u]
    rw [hkeeper]
    unfold releaseKeeper
    dsimp only
    rw [htake]
    rfl
  obtain ⟨hplane, hopened⟩ := keeperItem_warns (takeDue u 5 n).1 it hwarn hwake hrun
  refine ⟨(keeperItem (takeDue u 5 n).1 it).withPending s.pending, ?_, ?_, ?_⟩
  · rw [← hstep]
    exact congrArg (effect s) (landingRelease_releases 5 n s hrun (by omega) hn hpast hready (.inl (by omega)))
  · rw [withPending_plane, hplane, takeDue_items u 5 n (by omega), hitems]
    simp [hdue']
  · rw [withPending_store, hopened]
    exact congrArg (Option.map _) hopen

/-- A supply command within the ratings answers what its condition selects. -/
theorem rated_answers {s u t : State} {mv : Nat} (hmv : mv ≤ 58000) (h : u = t) : rated s mv u = .next (t.withPending s.pending) := by
  rw [h]
  exact rated_next s mv t hmv

theorem LogicReset.of_vbatl {s t : State} {mv cause : Nat} (q : List Instr) (h : LogicReset (noteVbatl s mv) t cause) :
    LogicReset s (t.withPending q) cause := h

/-- Settles O22: each threshold of VBATL acts as its rule says. -/
theorem vbatlThresholdsAct : Obligations.VbatlThresholdsAct := by
  refine ⟨fun mv s hmv hpower hwarn hlow => vbatlBelowWarn_warns mv s hmv hpower hwarn hlow,
    fun it n o s hrun hn hpast hready hone hdue hwarn hwake hopen => landingRelease_warning it n o s hrun hn hpast hready hone hdue hwarn hwake hopen,
    fun mv s hmv hpower hwarn hhigh => ?_, fun mv s hlow hpower hreset => ?_, fun mv s hlow hpower hreset => ?_, fun mv s hhigh hmv hreset hsupply => ?_,
    fun mv s hlow hpower => ?_, fun mv s hhigh hmv hcore => ?_⟩
  · have hseq := supplyWarn_seq s mv false
    exact ⟨(supplyWarn s mv false).withPending s.pending, rated_answers hmv (if_pos ⟨hpower, hwarn, hhigh⟩), congrArg Seq.warn hseq,
      congrArg Seq.vbatl hseq, supplyWarn_observed s mv false⟩
  · have hlogic : assertLogic (noteVbatl s mv) { cause := 2 } true =
        { clearLogic (endTrial (noteVbatl s mv) 7) with
          ret := { (endTrial (noteVbatl s mv) 7).ret with cause := { cause := 2 } }
          seq := { (clearLogic (endTrial (noteVbatl s mv) 7)).seq with supplyReset := true } } := if_neg (by simp [noteVbatl, hreset])
    have hvbatl : (endTrial (noteVbatl s mv) 7).seq.vbatl = mv := (congrArg (fun u : State => u.seq.vbatl) (endTrial_beyondTrial (noteVbatl s mv) 7 id) :)
    refine ⟨(assertLogic (noteVbatl s mv) { cause := 2 } true).withPending s.pending, rated_answers (by omega) (if_pos ⟨hpower, hlow⟩),
      LogicReset.of_vbatl _ (assertLogic_resets (noteVbatl s mv) { cause := 2 } true hreset), ?_, ?_⟩
    · rw [hlogic]
      rfl
    · rw [hlogic]
      exact hvbatl
  · exact ⟨((noteVbatl s mv).onSeq fun q => { q with supplyReset := q.supplyReset || true, starting := q.starting && !true }).withPending s.pending,
      rated_answers (by omega) ((if_pos ⟨hpower, hlow⟩).trans (if_pos hreset)), hreset, Bool.or_true s.seq.supplyReset, Bool.and_false s.seq.starting, rfl⟩
  · exact ⟨((noteVbatl s mv).onSeq fun q => { q with supplyReset := false, starting := true }).withPending s.pending,
      rated_answers hmv (if_pos ⟨hreset, hsupply, hhigh⟩), rfl, rfl, rfl⟩
  · exact ⟨(noteVbatl (coldReset s) mv).withPending s.pending, rated_answers (by omega) (if_pos ⟨hlow, hpower⟩), rfl, rfl, rfl, rfl, rfl, rfl, rfl,
      rfl, rfl⟩
  · exact ⟨((noteVbatl s mv).onSeq fun q => { q with core := true }).withPending s.pending, rated_answers hmv (if_pos ⟨by simp [hcore], hhigh⟩), rfl, rfl⟩

end Sys2Proof.Machine

namespace Sys2Proof.Machine

open Sys2Proof.Claims

/-! What a write that stands changes (R103–R107): the points, the result stream and the patterns that it takes its point from. -/

/-- Measuring the latency of a write changes two statistics. -/
theorem noteLatency_only (s : State) (w : PWrite) :
    ∃ a b, noteLatency s w = s.onPoints fun p => { p with stats := { p.stats with latMax := a, latOver := b } } := by
  unfold noteLatency
  (repeat' split)
  · exact ⟨_, _, rfl⟩
  · exact ⟨s.points.stats.latMax, s.points.stats.latOver, rfl⟩
  · exact ⟨s.points.stats.latMax, s.points.stats.latOver, rfl⟩

theorem writeStands_points (s : State) (w : PWrite) (t : Stamp) (old : PVal) (count : Nat) :
    ∃ a b, (writeStands s w t old count).points = { s.points with
      mem := Tbl.put s.points.mem 0 w.pt w.v
      lastWriter := Tbl.put s.points.lastWriter (0, 0) w.pt (w.kind.code, w.comp)
      stats := { s.points.stats with latMax := a, latOver := b }
      now := { w := w, old := old, count := count, stamp := t } :: s.points.now.filter fun e => !(e.w.pt == w.pt)
      writesNow := s.points.writesNow + 1
      running := if w.kind = .reflex ∧ !w.own then s.points.running.filter fun a => !(a.pt == w.pt) else s.points.running } := by
  have hpoints (u : State) (hu : u.points = s.points) : ∃ a b,
      (noteLatency (noteWriter (pput u w.pt w.v) w.pt w.v w.kind w.comp u.stamp) w).points = { s.points with
        mem := Tbl.put s.points.mem 0 w.pt w.v
        lastWriter := Tbl.put s.points.lastWriter (0, 0) w.pt (w.kind.code, w.comp)
        stats := { s.points.stats with latMax := a, latOver := b } } := by
    obtain ⟨a, b, h⟩ := noteLatency_only (noteWriter (pput u w.pt w.v) w.pt w.v w.kind w.comp u.stamp) w
    refine ⟨a, b, ?_⟩
    rw [h, ← hu]
    rfl
  unfold writeStands
  dsimp only
  split
  · obtain ⟨a, b, h⟩ := hpoints (detachPoint s w.pt) rfl
    exact ⟨a, b, by rw [onPoints_points, h]⟩
  · obtain ⟨a, b, h⟩ := hpoints s rfl
    exact ⟨a, b, by rw [onPoints_points, h]⟩

theorem writeStands_plane (s : State) (w : PWrite) (t : Stamp) (old : PVal) (count : Nat) :
    (writeStands s w t old count).plane = { s.plane with results := .write s.stamp.tick w.pt w.v w.kind.code w.comp :: s.plane.results } := by
  have hplane (u : State) (hu : u.plane = s.plane) : (noteLatency (noteWriter (pput u w.pt w.v) w.pt w.v w.kind w.comp u.stamp) w).plane =
      { s.plane with results := .write s.stamp.tick w.pt w.v w.kind.code w.comp :: s.plane.results } := by
    obtain ⟨a, b, h⟩ := noteLatency_only (noteWriter (pput u w.pt w.v) w.pt w.v w.kind w.comp u.stamp) w
    have hstamp : u.stamp = s.stamp := by simp only [State.stamp, hu]
    rw [h, hstamp, ← hu]
    rfl
  unfold writeStands
  dsimp only
  split
  · exact hplane (detachPoint s w.pt) rfl
  · exact hplane s rfl

theorem pget_of_points {s t : State} (h : t.points = s.points) (q : Nat) : pget t q = pget s q := by simp only [pget, h]

theorem pget_writeStands_other (s : State) (w : PWrite) (t : Stamp) (old : PVal) (count q : Nat) (h : q ≠ w.pt) :
    pget (writeStands s w t old count) q = pget s q := by
  obtain ⟨a, b, hpoints⟩ := writeStands_points s w t old count
  simp only [pget, hpoints]
  exact Tbl.get_put_ne _ _ _ _ _ (Ne.symm h)

/-- The first write of a tick to a point stands where nothing holds the point, or where it is a reflex write (R104, R105). -/
theorem applyWrite_stands (s : State) (w : PWrite) (hfree : w.kind = .reflex ∨ heldByAction s w.pt = false) (hnow : s.points.now = []) :
    applyWrite s w = (writeStands s w s.stamp (pget s w.pt) 1, .applied) := by
  have hopen : ¬ (heldByAction s w.pt = true ∧ w.kind ≠ .reflex) := by
    rintro ⟨hheld, hkind⟩
    rcases hfree with hreflex | hfree
    · exact hkind hreflex
    · simp [hfree] at hheld
  unfold applyWrite
  rw [if_neg hopen, hnow]
  rfl

theorem writePoint_stands (s : State) (w : PWrite) (hroom : s.points.writesNow < 4096) (hfree : w.kind = .reflex ∨ heldByAction s w.pt = false)
    (hnow : s.points.now = []) : writePoint s w = (writeStands s w s.stamp (pget s w.pt) 1, .applied) := by
  unfold writePoint
  rw [if_neg (Nat.not_le.2 hroom)]
  exact applyWrite_stands s w hfree hnow

/-- A device write within the limit of the tick stands over a point that has no write yet (R101, R103). -/
theorem deviceWrite_stands (s : State) (t : Stamp) (w : PWrite) (hroom : s.points.writesNow < 4096)
    (hfirst : s.points.now.find? (fun e => e.w.pt == w.pt) = none) : deviceWrite s t w = writeStands s w t (pget s w.pt) 1 := by
  unfold deviceWrite deviceApply
  rw [if_neg (Nat.not_le.2 hroom), hfirst]

/-- A direct write to a point that a PULSE or RAMP holds is discarded (R105). -/
theorem directWrite_discarded (s : State) (p : Packet) (pt : Nat) (v : PVal) (hroom : s.points.writesNow < 4096) (hheld : heldByAction s pt = true) :
    directWrite s p pt v = (countDiscarded s 1, .discarded) := by
  unfold directWrite writePoint applyWrite
  rw [if_neg (Nat.not_le.2 hroom)]
  simp [hheld]

/-- The write that a packet's entry makes. -/
def entryWrite (p : Packet) (pt : Nat) (v : PVal) : PWrite := { pt := pt, v := v, kind := .direct, comp := p.comp, hall := p.hall, idx := p.order }

/-- A direct write beyond the limit of the tick moves to the next one (R108). -/
theorem directWrite_moved (s : State) (p : Packet) (pt : Nat) (v : PVal) (hfull : 4096 ≤ s.points.writesNow) :
    directWrite s p pt v = (s.onPoints fun q => { q with movedNow := true, moving := q.moving ++ [entryWrite p pt v] }, .moved) := by
  unfold directWrite writePoint
  rw [if_pos hfull]
  rfl

theorem completeNow_results (s : State) (p : Packet) (st : Status) (r : Reply) :
    (completeNow s p st r).plane.results = .reply p.ring p.slot st.code (replyTick p s s.stamp) (shareOf p) :: s.plane.results := by
  have hsettled : (if replyHidden p s = true then dropReplayed s p else retirePacket (writeReply s p st r s.stamp) p).plane.results = s.plane.results := by
    split
    · rfl
    · exact (congrArg Plane.results (writeReply_plane s p st r s.stamp) :)
  unfold completeNow completeAt
  dsimp only
  split
  · rw [postEvent_results]
    exact congrArg _ hsettled
  · exact congrArg _ hsettled

/-! POINT.WRITE (Table 04.8). -/

theorem pointWriteOp_run_applied (p : Packet) (pt : Nat) (v : PVal) (s : State) (hone : pointWriteEntries p = [(pt, v)])
    (hroom : s.points.writesNow < 4096) (hfree : heldByAction s pt = false) (hnow : s.points.now = []) :
    pointWriteOp.run p s = { s := writeStands s (entryWrite p pt v) s.stamp (pget s pt) 1, st := some .ok, reply := pointWriteReply 1 0 } := by
  simp only [pointWriteOp, hone, applyEntries, directWrite_stands s p pt v hroom hfree hnow]
  rfl

theorem pointWriteOp_run_discarded (p : Packet) (pt : Nat) (v : PVal) (s : State) (hone : pointWriteEntries p = [(pt, v)])
    (hroom : s.points.writesNow < 4096) (hheld : heldByAction s pt = true) :
    pointWriteOp.run p s = { s := countDiscarded s 1, st := some .busy, reply := pointWriteReply 0 1 } := by
  simp only [pointWriteOp, hone, applyEntries, directWrite_discarded s p pt v hroom hheld]
  rfl

/-- The points while the one write of a packet waits for the next tick. -/
def movedPoints (p : Packet) (pt : Nat) (v : PVal) (noted : Bool) (q : Points) : Points :=
  { q with
    movedNow := true
    moving := q.moving ++ [entryWrite p pt v]
    lateWriters := q.lateWriters ++ [{ p := p, left := 1, pointWrite := true, noted := noted, applied := 0, discarded := 0 }] }

theorem pointWriteOp_run_moved (p : Packet) (pt : Nat) (v : PVal) (s : State) (hone : pointWriteEntries p = [(pt, v)])
    (hfull : 4096 ≤ s.points.writesNow) :
    pointWriteOp.run p s = { s := s.onPoints (movedPoints p pt v (ranLate p s)), st := none } := by
  simp only [pointWriteOp, hone, applyEntries, directWrite_moved s p pt v hfull]
  rfl

theorem pointWrite_writes (p : Packet) (pt : Nat) (v : PVal) (s : State) (h : FastRuns pointWriteOp p s) (hone : pointWriteEntries p = [(pt, v)])
    (hroom : s.points.writesNow < 4096) (hfree : heldByAction s pt = false) (hnow : s.points.now = []) (hwf : Tbl.wf 0 s.points.mem = true) :
    ∃ t, exec (.pointWrite p) s = .next t ∧ Completed p .ok s t ∧ pget t pt = v ∧
      ResultItem.write s.stamp.tick pt v Writer.direct.code p.comp ∈ t.plane.results ∧ ∀ q, q ≠ pt → pget t q = pget s q := by
  let u := writeStands (counted s p) (entryWrite p pt v) (counted s p).stamp (pget (counted s p) pt) 1
  have hplane : u.plane = _ := writeStands_plane (counted s p) (entryWrite p pt v) (counted s p).stamp (pget (counted s p) pt) 1
  have hclock : u.clock = s.clock := by rw [State.clock, hplane]; rfl
  obtain ⟨hexec, hdone⟩ := fastTake_completes h rfl (pointWriteOp_run_applied p pt v (counted s p) hone hroom hfree hnow) rfl hclock
  have hpoints (q : Nat) : pget ((completeNow u p .ok (pointWriteReply 1 0)).withPending s.pending) q = pget u q := pget_of_points (completeNow_points ..) q
  refine ⟨_, hexec, hdone, ?_, ?_, fun q hq => ?_⟩
  · exact (hpoints pt).trans (pget_writeStands (counted s p) (entryWrite p pt v) _ _ _ hwf)
  · rw [withPending_plane, completeNow_results, hplane]
    exact List.mem_cons_of_mem _ List.mem_cons_self
  · exact (hpoints q).trans (pget_writeStands_other (counted s p) (entryWrite p pt v) _ _ _ q hq)

theorem pointWrite_refused (p : Packet) (pt : Nat) (v : PVal) (s : State) (h : FastRuns pointWriteOp p s) (hone : pointWriteEntries p = [(pt, v)])
    (hroom : s.points.writesNow < 4096) (hheld : heldByAction s pt = true) :
    ∃ t, exec (.pointWrite p) s = .next t ∧ Completed p .busy s t ∧ t.points.mem = s.points.mem := by
  obtain ⟨hexec, hdone⟩ := fastTake_completes h rfl (pointWriteOp_run_discarded p pt v (counted s p) hone hroom hheld) rfl rfl
  exact ⟨_, hexec, hdone, (congrArg Points.mem (completeNow_points (countDiscarded (counted s p) 1) p .busy (pointWriteReply 0 1)) :)⟩

theorem pointWrite_moves (p : Packet) (pt : Nat) (v : PVal) (s : State) (h : FastRuns pointWriteOp p s) (hone : pointWriteEntries p = [(pt, v)])
    (hfull : 4096 ≤ s.points.writesNow) :
    ∃ t w, exec (.pointWrite p) s = .next t ∧ t.points.mem = s.points.mem ∧ t.points.moving = s.points.moving ++ [w] ∧ w.pt = pt ∧ w.v = v ∧
      w.kind = .direct ∧ t.plane.results = s.plane.results ∧ ∃ l ∈ t.points.lateWriters, l.p = p ∧ l.left = 1 := by
  have htake := fastTake_waits h rfl (pointWriteOp_run_moved p pt v (counted s p) hone hfull) rfl
  exact ⟨_, entryWrite p pt v, congrArg (effect s) htake, rfl, rfl, rfl, rfl, rfl, rfl, _, List.mem_append_right _ List.mem_cons_self, rfl, rfl⟩

/-! POINT.READ (Table 04.10). -/

theorem pointRead_waits (p : Packet) (s : State) (h : FastRuns pointReadOp p s) :
    ∃ t, exec (.pointRead p) s = .next t ∧ t.points.reads = s.points.reads ++ [p] ∧ t.points.mem = s.points.mem ∧ t.plane.results = s.plane.results := by
  have htake := fastTake_waits h rfl (u := (counted s p).onPoints fun q => { q with reads := q.reads ++ [p] }) rfl rfl
  exact ⟨_, congrArg (effect s) htake, rfl, rfl, rfl⟩

theorem answerReads_answers (p : Packet) (s : State) (hone : s.points.reads = [p]) (hlate : ranLate p s = false)
    (hfresh : s.points.stale = false ∨ ∀ pt ∈ pointReadPoints p, isFieldInput pt = false) :
    Completed p .ok s (answerReads s) ∧ (answerReads s).points.reads = [] ∧ Replied p s (answerReads s) ((16, 2, pointCount p) ::
      (List.range (pointReadPoints p).length).map fun i => (24 + 2 * i, 2, (pget s ((pointReadPoints p).getD i 0)).toNat)) := by
  let u := s.onPoints fun q => { q with reads := [] }
  have hstatus : pointReadStatus u p = .ok := by
    refine if_neg ?_
    rintro ⟨hstale, hany⟩
    rcases hfresh with hfresh | hfresh
    · exact Bool.false_ne_true (hfresh.symm.trans hstale)
    · obtain ⟨pt, hpt, hfield⟩ := List.any_eq_true.1 hany
      exact Bool.false_ne_true ((hfresh pt hpt).symm.trans hfield)
  have hlate' : ranLate p u = false := hlate
  have hanswer : answerReads s = completeNow u p .ok (pointReadReply u p) := by
    unfold answerReads
    rw [hone, List.foldl_cons, List.foldl_nil, answerRead, hlate', hstatus]
    rfl
  rw [hanswer]
  exact ⟨Completed.of_clock (completeNow_completed u ..) rfl, congrArg Points.reads (completeNow_points u ..),
    Replied.of_same (completeNow_replied u p .ok (pointReadReply u p)) rfl rfl rfl⟩

theorem windowRead_reads (s : State) (c pt : Nat) (hc : c < 14) (hmay : mayRead s c (gallery pt) = true) (hgallery : gallery pt < 96)
    (hpt : pt < 2 ^ 19) : windowRead s c (0x41000000 + 2 * pt) = pget s pt := by
  have hpoint : (0x41000000 + 2 * pt - windowBase) / 2 = pt := by unfold windowBase; omega
  unfold windowRead
  dsimp only
  rw [hpoint, if_pos ⟨by unfold windowBase; omega, by omega, hc, hmay, hgallery⟩]

/-! POINT.TYPE (Table 04.12). -/

/-- What POINT.TYPE leaves where it writes the attributes of one point. -/
def typeRun (p : Packet) (s : State) : State :=
  let x := pointTypeAttr p
  let s := if x.report ∧ !(attrOf s (pointStart p)).report then
      s.onPoints fun q => { q with lastReport := Tbl.put q.lastReport none (pointStart p) none }
    else s
  s.onStore fun st => { st with attrs := Tbl.put st.attrs {} (pointStart p) x }

theorem typeRun_store (p : Packet) (s : State) : (typeRun p s).store = { s.store with attrs := Tbl.put s.store.attrs {} (pointStart p) (pointTypeAttr p) } ∧
    (typeRun p s).clock = s.clock := by
  unfold typeRun
  dsimp only
  split <;> exact ⟨rfl, rfl⟩

theorem pointTypeOp_run (p : Packet) (s : State) (hwrite : p.bit 16 0 = false) (hone : pointCount p = 1) : pointTypeOp.run p s =
    if 4096 < timersAfter s (pointStart p) (pointStart p + 1) (p.fld 24 0 2 == 2) then { s := s, st := some .busy } else { s := typeRun p s } := by
  simp only [pointTypeOp, hwrite, hone, Bool.false_eq_true, if_false]
  rfl

theorem attrOf_of_store {s t : State} (h : t.store = s.store) (q : Nat) : attrOf t q = attrOf s q := by simp only [attrOf, h]

theorem pointType_types (p : Packet) (s : State) (h : KeeperRuns pointTypeOp p s) (hwrite : p.bit 16 0 = false) (hone : pointCount p = 1)
    (hwf : Tbl.wf {} s.store.attrs = true) (hfit : timersAfter s (pointStart p) (pointStart p + 1) (p.fld 24 0 2 == 2) ≤ 4096) :
    ∃ t, exec (.pointType p) s = .next t ∧ Completed p .ok s t ∧ attrOf t (pointStart p) = pointTypeAttr p ∧
      ∀ q, q ≠ pointStart p → attrOf t q = attrOf s q := by
  obtain ⟨hstore, hclock⟩ := typeRun_store p (release s p)
  have hrun : pointTypeOp.run p (release s p) = { s := typeRun p (release s p) } :=
    (pointTypeOp_run p (release s p) hwrite hone).trans (if_neg (Nat.not_lt.2 hfit))
  obtain ⟨hexec, hdone⟩ := keeperTake_completes h rfl hrun rfl hclock
  have hattr (q : Nat) : attrOf ((completeNow (typeRun p (release s p)) p .ok []).withPending s.pending) q =
      Tbl.get (Tbl.put s.store.attrs {} (pointStart p) (pointTypeAttr p)) {} q := by
    rw [attrOf, withPending_store, completeNow_store, hstore]
    rfl
  exact ⟨_, hexec, hdone, (hattr _).trans (Tbl.get_put_same _ _ _ _ hwf), fun q hq => (hattr q).trans (Tbl.get_put_ne _ _ _ _ _ (Ne.symm hq))⟩

theorem pointType_refused (p : Packet) (s : State) (h : KeeperRuns pointTypeOp p s) (hwrite : p.bit 16 0 = false) (hone : pointCount p = 1)
    (hfull : 4096 < timersAfter s (pointStart p) (pointStart p + 1) (p.fld 24 0 2 == 2)) :
    ∃ t, exec (.pointType p) s = .next t ∧ Completed p .busy s t ∧ t.store.attrs = s.store.attrs := by
  have hrun : pointTypeOp.run p (release s p) = { s := release s p, st := some .busy } :=
    (pointTypeOp_run p (release s p) hwrite hone).trans (if_pos hfull)
  obtain ⟨hexec, hdone⟩ := keeperTake_completes h rfl hrun rfl rfl
  exact ⟨_, hexec, hdone, congrArg Store.attrs (completeNow_store (release s p) ..)⟩

/-! Timers and moved writes (R108, R112). -/

theorem timerStep_counts (s : State) (pt : Nat) (hdue : timerDue s pt = true) (hroom : s.points.writesNow < 4096) (hwf : Tbl.wf 0 s.points.mem = true) :
    pget (timerStep s pt) pt = pget s pt - 1 ∧ (timerStep s pt).points.timersNow = pt :: s.points.timersNow ∧
      ∀ q, q ≠ pt → pget (timerStep s pt) q = pget s q := by
  let u := s.onPoints fun q => { q with timersNow := pt :: q.timersNow }
  have hfirst : u.points.now.find? (fun e => e.w.pt == pt) = none := by
    simp only [timerDue, Bool.and_eq_true, Bool.not_eq_true'] at hdue
    exact List.find?_eq_none.2 fun e he => by simpa using List.any_eq_false.1 hdue.2 e he
  unfold timerStep
  rw [if_pos hdue]
  dsimp only
  split
  · next hlast =>
    have hone : pget s pt = 1 := hlast
    rw [deviceWrite_stands u u.stamp (expiryWrite pt) hroom hfirst]
    obtain ⟨a, b, hpoints⟩ := writeStands_points u (expiryWrite pt) u.stamp (pget u pt) 1
    refine ⟨?_, ?_, fun q hq => pget_writeStands_other u (expiryWrite pt) _ _ _ q hq⟩
    · rw [hone]
      exact pget_writeStands u (expiryWrite pt) _ _ _ hwf
    · exact congrArg Points.timersNow hpoints
  · exact ⟨Tbl.get_put_same _ _ _ _ hwf, rfl, fun q hq => Tbl.get_put_ne _ _ _ _ _ (Ne.symm hq)⟩

/-- Counting a packet's moved writes leaves the points' values and the moved writes alone. -/
theorem lateWriterStep_points (s : State) (w : PWrite) (r : WriteResult) :
    (lateWriterStep s w r).points.mem = s.points.mem ∧ (lateWriterStep s w r).points.deferred = s.points.deferred := ⟨rfl, rfl⟩

theorem applyDeferred_writes (s : State) (w : PWrite) (hroom : s.points.writesNow < 4096) (hpattern : w.kind = .pattern → s.light.patNow < 1024)
    (hfree : w.kind = .reflex ∨ w.kind = .device ∨ heldByAction s w.pt = false) (hnow : s.points.now = []) (hwf : Tbl.wf 0 s.points.mem = true) :
    (applyDeferred s w).points.deferred = s.points.deferred ∧ pget (applyDeferred s w) w.pt = w.v ∧
      ∀ q, q ≠ w.pt → pget (applyDeferred s w) q = pget s q := by
  have hstands (u : State) (hu : u.points = s.points) (t : Stamp) (old : PVal) :
      (writeStands u w t old 1).points.deferred = s.points.deferred ∧ pget (writeStands u w t old 1) w.pt = w.v ∧
        ∀ q, q ≠ w.pt → pget (writeStands u w t old 1) q = pget s q := by
    obtain ⟨a, b, hpoints⟩ := writeStands_points u w t old 1
    refine ⟨?_, pget_writeStands u w t old 1 (by rw [hu]; exact hwf), fun q hq => ?_⟩
    · rw [hpoints, hu]
    · exact (pget_writeStands_other u w t old 1 q hq).trans (pget_of_points hu q)
  unfold applyDeferred
  split
  · rw [deviceWrite_stands s s.stamp w hroom (by rw [hnow]; rfl)]
    exact hstands s rfl _ _
  · next hdevice =>
    have hfree' : w.kind = .reflex ∨ heldByAction s w.pt = false := by tauto
    by_cases hkind : w.kind = .pattern
    · let u : State := { s with light := { s.light with patNow := s.light.patNow + 1 } }
      rw [if_pos hkind, if_neg (Nat.not_le.2 (hpattern hkind))]
      rw [show applyWrite { s with light := { s.light with patNow := s.light.patNow + 1 } } w = _ from applyWrite_stands u w hfree' hnow]
      exact hstands u rfl _ _
    · rw [if_neg hkind, applyWrite_stands s w hfree' hnow]
      dsimp only
      split <;> exact hstands s rfl s.stamp (pget s w.pt)

theorem deferredStep_writes (w : PWrite) (s : State) (hone : s.points.deferred = [w]) (hroom : s.points.writesNow < 4096)
    (hpattern : w.kind = .pattern → s.light.patNow < 1024) (hfree : w.kind = .reflex ∨ w.kind = .device ∨ heldByAction s w.pt = false)
    (hnow : s.points.now = []) (hwf : Tbl.wf 0 s.points.mem = true) :
    (deferredStep s).points.deferred = [] ∧ pget (deferredStep s) w.pt = w.v ∧ ∀ q, q ≠ w.pt → pget (deferredStep s) q = pget s q := by
  have hstep : deferredStep s = applyDeferred (s.onPoints fun q => { q with deferred := [] }) w := by
    obtain ⟨k, hk⟩ : ∃ k, 4096 - s.points.writesNow = k + 1 := ⟨4095 - s.points.writesNow, by omega⟩
    simp [deferredStep, hone, hk]
  rw [hstep]
  exact applyDeferred_writes (s.onPoints fun q => { q with deferred := [] }) w hroom hpattern hfree hnow hwf

/-- Settles O48: writes of points are applied, discarded or moved, and reads, types and timers act. -/
theorem pointsAndTimersAct : Obligations.PointsAndTimersAct := by
  refine ⟨fun p pt v s h hone hroom hfree hnow hwf => pointWrite_writes p pt v s h hone hroom hfree hnow hwf,
    fun p pt v s h hone hroom hheld => pointWrite_refused p pt v s h hone hroom hheld,
    fun p pt v s h hone hfull => pointWrite_moves p pt v s h hone hfull, fun p s h => pointRead_waits p s h,
    fun p s hone hlate hfresh => answerReads_answers p s hone hlate hfresh,
    fun s c pt hc hmay hgallery hpt => windowRead_reads s c pt hc hmay hgallery hpt,
    fun p s h hwrite hone hwf => ⟨fun hfit => pointType_types p s h hwrite hone hwf hfit, fun hfull => pointType_refused p s h hwrite hone hfull⟩,
    fun pt s hdone hdue hroom hwf => ?_, fun w s hone hroom hpattern hfree hnow hwf => ?_⟩
  · exact ⟨_, congrArg (effect s) (if_pos hdone), timerStep_counts s pt hdue hroom hwf⟩
  · exact ⟨_, rfl, deferredStep_writes w s hone hroom hpattern hfree hnow hwf⟩

end Sys2Proof.Machine

namespace Sys2Proof.Machine

open Sys2Proof.Claims

/-! The reflex engine (chapter 04): what its steps leave of the points. -/

/-- The actions of the reflex engine that wait for their turn, and the number carried out in this tick (R117). -/
def Points.acts (q : Points) : List PendAct × Nat := (q.actQueue, q.actsNow)

@[simp] theorem postEvent_points (s : State) (e : Ev) : (postEvent s e).points = s.points := by
  unfold postEvent
  split <;> rfl

@[simp] theorem countDiscarded_points_acts (s : State) (n : Nat) : (countDiscarded s n).points.acts = s.points.acts := rfl

@[simp] theorem writeStands_points_acts (s : State) (w : PWrite) (t : Stamp) (old : PVal) (count : Nat) :
    (writeStands s w t old count).points.acts = s.points.acts := by
  obtain ⟨a, b, h⟩ := writeStands_points s w t old count
  rw [h]
  rfl

@[simp] theorem applyWrite_points_acts (s : State) (w : PWrite) : (applyWrite s w).1.points.acts = s.points.acts := by
  unfold applyWrite
  (repeat' split)
  all_goals simp

@[simp] theorem countMoved_points_acts (s : State) (w : PWrite) : (countMoved s w).points.acts = s.points.acts := by
  unfold countMoved
  dsimp only
  split_ifs <;> rfl

@[simp] theorem moveWrite_points_acts (s : State) (w : PWrite) : (moveWrite s w).points.acts = s.points.acts := countMoved_points_acts s w

@[simp] theorem writePoint_points_acts (s : State) (w : PWrite) : (writePoint s w).1.points.acts = s.points.acts := by
  unfold writePoint
  split <;> simp

@[simp] theorem reflexWrite_points_acts (s : State) (i : Nat) (r : Rule) (pt : Nat) (v : PVal) (trig : Nat) :
    (reflexWrite s i r pt v trig).points.acts = s.points.acts := by simp [reflexWrite]

@[simp] theorem endAction_points_acts (s : State) (pt : Nat) : (endAction s pt).points.acts = s.points.acts := rfl

@[simp] theorem runAction_points_acts (s : State) (a : RunAct) : (runAction s a).points.acts = s.points.acts := rfl

@[simp] theorem rampWrite_points_acts (s : State) (a : RunAct) (k : Nat) : (rampWrite s a k).points.acts = s.points.acts := by
  unfold rampWrite
  dsimp only
  split_ifs <;> simp

@[simp] theorem countSkipped_points_acts (s : State) : (countSkipped s).points.acts = s.points.acts := rfl

@[simp] theorem onLight_points (s : State) (f : Light → Light) : (s.onLight f).points = s.points := rfl

@[simp] theorem onEngine_points (s : State) (e : Nat) (f : Engine → Engine) : (s.onEngine e f).points = s.points := rfl

@[simp] theorem patternEndEvent_points (s : State) (e : Nat) (g : PatProg) (value : Nat) : (patternEndEvent s e g value).points = s.points := by
  unfold patternEndEvent
  split <;> simp

@[simp] theorem enterStep_points (s : State) (e : Nat) (g : PatProg) (i : Nat) : (enterStep s e g i).points = s.points := by
  unfold enterStep
  split <;> simp

@[simp] theorem startEngine_points (s : State) (e : Nat) (g : PatProg) (step : Nat) (reattach : Bool) :
    (startEngine s e g step reattach).points = s.points := by simp [startEngine]

@[simp] theorem onBus_points (s : State) (f : Bus → Bus) : (s.onBus f).points = s.points := rfl

@[simp] theorem l4Put_points (s : State) (hall idx : Nat) (k : L4Kind) : (l4Put s hall idx k).points = s.points := rfl

@[simp] theorem reflexTemplate_points (s : State) (t rule : Nat) : (reflexTemplate s t rule).1.points = s.points := by
  unfold reflexTemplate
  split <;> rfl

@[simp] theorem reflexPattern_points (s : State) (e : Nat) (start : Bool) : (reflexPattern s e start).1.points = s.points := by
  unfold reflexPattern
  split
  · rfl
  · cases start
    · simp only [Bool.false_eq_true, if_false, stopEngine]
      split
      · exact patternEndEvent_points ..
      · rfl
    · exact startEngine_points ..

/-- The points after a write of a rule or of a running action that stands (R104). -/
theorem writePoint_reflex (s : State) (w : PWrite) (hkind : w.kind = .reflex) (hroom : s.points.writesNow < 4096) (hnow : s.points.now = []) :
    ∃ a b, (writePoint s w).1.points = { s.points with
      mem := Tbl.put s.points.mem 0 w.pt w.v
      lastWriter := Tbl.put s.points.lastWriter (0, 0) w.pt (w.kind.code, w.comp)
      stats := { s.points.stats with latMax := a, latOver := b }
      now := [{ w := w, old := pget s w.pt, count := 1, stamp := s.stamp }]
      writesNow := s.points.writesNow + 1
      running := if w.own then s.points.running else s.points.running.filter fun a => !(a.pt == w.pt) } := by
  rw [writePoint_stands s w hroom (.inl hkind) hnow]
  obtain ⟨a, b, h⟩ := writeStands_points s w s.stamp (pget s w.pt) 1
  refine ⟨a, b, h.trans ?_⟩
  cases hown : w.own <;> simp [hnow, hkind, hown]

theorem pget_writePoint_reflex (s : State) (w : PWrite) (hkind : w.kind = .reflex) (hroom : s.points.writesNow < 4096) (hnow : s.points.now = [])
    (hwf : Tbl.wf 0 s.points.mem = true) :
    pget (writePoint s w).1 w.pt = w.v ∧ ∀ q, q ≠ w.pt → pget (writePoint s w).1 q = pget s q := by
  rw [writePoint_stands s w hroom (.inl hkind) hnow]
  exact ⟨pget_writeStands s w _ _ _ hwf, fun q hq => pget_writeStands_other s w _ _ _ q hq⟩

/-- A running action's own write leaves the running actions as they are (R105). -/
theorem running_writePoint_own (s : State) (w : PWrite) (hkind : w.kind = .reflex) (hown : w.own = true) (hroom : s.points.writesNow < 4096)
    (hnow : s.points.now = []) : (writePoint s w).1.points.running = s.points.running := by
  obtain ⟨a, b, h⟩ := writePoint_reflex s w hkind hroom hnow
  rw [h, hown]
  rfl

/-! Evaluation (R115, R116). -/

/-- The write of a rule's action. -/
def ruleWrite (i : Nat) (r : Rule) (trig : Nat) : PWrite :=
  { pt := r.target, v := toP r.value, kind := .reflex, comp := r.owner, hall := 3, idx := i, trig := some trig, own := r.action == 1 }

theorem doAction_write (s : State) (a : PendAct) (h : a.rule.action = 0) :
    doAction s a = (writePoint (s.onPoints fun p => { p with actsNow := p.actsNow + 1 }) (ruleWrite a.index a.rule a.trigLin)).1 := by
  unfold doAction
  dsimp only
  rw [if_pos h]
  rfl

/-- A rule without POST that fires writes where its action is a WRITE that has its turn (R115, R117). -/
theorem fireRule_writes (s : State) (i : Nat) (r : Rule) (c : Change) (haction : r.action = 0) (hpost : r.post = false)
    (hacts : s.points.actsNow < 32) (hqueue : s.points.actQueue = []) :
    ∃ u a, fireRule s i r c = (writePoint u (ruleWrite i r c.lin)).1 ∧ u.points = { s.points with
      fires := Tbl.put s.points.fires 0 i (satAdd32 (Tbl.get s.points.fires 0 i) 1), armed := a, actsNow := s.points.actsNow + 1 } := by
  unfold fireRule queueAction
  dsimp only
  rw [hpost, if_neg Bool.false_ne_true]
  split
  · rw [if_pos ⟨hacts, hqueue⟩, doAction_write _ _ haction]
    exact ⟨_, _, rfl, rfl⟩
  · rw [if_pos ⟨hacts, hqueue⟩, doAction_write _ _ haction]
    exact ⟨_, _, rfl, rfl⟩

theorem evalRule_fires (c : Change) (s : State) (i : Nat) (r : Rule) (hrule : Tbl.get (rulesAt s (stampOf s c.lin)) {} i = r) (hwatch : r.watches c.pt = true)
    (hhit : r.hit (armedAt s (stampOf s c.lin) i) c.old c.new = true) (hgate : gateTrue s r = true) : evalRule c s i = fireRule s i r c := by
  unfold evalRule
  dsimp only
  rw [hrule, hwatch, hhit, hgate]
  rfl

/-- A change is counted before its rules are evaluated. -/
def changeCounted (s : State) : State :=
  (bump s 6 0 1).onPoints fun p => { p with evalNow := p.evalNow + 1, stats := { p.stats with evaluated := satAdd32 p.stats.evaluated 1 } }

theorem evalChange_one (s : State) (c : Change) (i : Nat) (r : Rule) (hone : rulesAt s (stampOf s c.lin) = [(i, r)]) :
    evalChange s c = evalRule c (changeCounted s) i := by
  have hrules : rulesAt (changeCounted s) (stampOf (changeCounted s) c.lin) = [(i, r)] := hone
  change ((rulesAt (changeCounted s) (stampOf (changeCounted s) c.lin)).map (·.1)).foldl (evalRule c) (changeCounted s) = _
  rw [hrules]
  rfl

theorem reflexEvaluate_one (s : State) (c : Change) (hqueue : s.points.queue = [c]) (hroom : s.points.evalNow < 16) :
    reflexEvaluate s = countQueued (dropChanges (evalChange (s.onPoints fun p => { p with queue := [] }) c)) := by
  obtain ⟨n, hn⟩ : ∃ n, 16 - s.points.evalNow = n + 1 := ⟨15 - s.points.evalNow, by omega⟩
  unfold reflexEvaluate
  dsimp only
  rw [hqueue, hn, List.drop_succ_cons, List.drop_nil, List.take_succ_cons, List.take_nil]
  rfl

/-- The changes beyond the room of the queue are dropped, and only counted in the statistics (R117). -/
theorem dropChanges_only (s : State) : ∃ n, dropChanges s = s.onPoints fun p => { p with
    queue := p.queue.take 4096, overflowNow := p.overflowNow + n, stats := { p.stats with overflow := satAdd32 p.stats.overflow n } } := ⟨_, rfl⟩

theorem queued_evaluated (s : State) : (countQueued (dropChanges s)).points.stats.evaluated = s.points.stats.evaluated := by
  obtain ⟨n, h⟩ := dropChanges_only s
  rw [h]
  rfl

theorem reflexEvaluate_writes (c : Change) (i : Nat) (r : Rule) (s : State) (hqueue : s.points.queue = [c]) (heval : s.points.evalNow < 16)
    (hone : rulesAt s (stampOf s c.lin) = [(i, r)]) (hwatch : r.watches c.pt = true)
    (hhit : r.hit (armedAt s (stampOf s c.lin) i) c.old c.new = true) (hgate : gateTrue s r = true) (haction : r.action = 0) (hpost : r.post = false)
    (hacts : s.points.actsNow < 32) (hacting : s.points.actQueue = []) (hroom : s.points.writesNow < 4096) (hnow : s.points.now = [])
    (hwf : Tbl.wf 0 s.points.mem = true) (hfires : Tbl.wf 0 s.points.fires = true) :
    (reflexEvaluate s).points.queue = [] ∧ pget (reflexEvaluate s) r.target = BitVec.ofNat 16 r.value ∧
      Tbl.get (reflexEvaluate s).points.fires 0 i = satAdd32 (Tbl.get s.points.fires 0 i) 1 ∧
      (reflexEvaluate s).points.stats.evaluated = satAdd32 s.points.stats.evaluated 1 := by
  let s0 := s.onPoints fun p => { p with queue := [] }
  let s1 := changeCounted s0
  obtain ⟨u, a, hfire, hu⟩ := fireRule_writes s1 i r c haction hpost hacts hacting
  have hget : Tbl.get (rulesAt s1 (stampOf s1 c.lin)) {} i = r := by
    rw [show rulesAt s1 (stampOf s1 c.lin) = [(i, r)] from hone]
    simp [Tbl.get]
  have hchange : evalChange s0 c = (writePoint u (ruleWrite i r c.lin)).1 :=
    (evalChange_one s0 c i r hone).trans ((evalRule_fires c s1 i r hget hwatch hhit hgate).trans hfire)
  have hroom' : u.points.writesNow < 4096 := by rw [hu]; exact hroom
  have hnow' : u.points.now = [] := by rw [hu]; exact hnow
  obtain ⟨x, y, hpoints⟩ := writePoint_reflex u (ruleWrite i r c.lin) rfl hroom' hnow'
  have hvalue := (pget_writePoint_reflex u (ruleWrite i r c.lin) rfl hroom' hnow' (by rw [hu]; exact hwf)).1
  rw [reflexEvaluate_one s c hqueue heval, show evalChange (s.onPoints fun p => { p with queue := [] }) c = _ from hchange]
  refine ⟨?_, hvalue, ?_, ?_⟩
  · change (((writePoint u (ruleWrite i r c.lin)).1.points.queue.take 4096).map fun c => { c with counted := true }) = []
    rw [hpoints, hu]
    rfl
  · change Tbl.get (writePoint u (ruleWrite i r c.lin)).1.points.fires 0 i = _
    rw [hpoints, hu]
    have hcounted : s1.points.fires = s.points.fires := rfl
    rw [hcounted]
    exact Tbl.get_put_same _ _ _ _ hfires
  · rw [queued_evaluated, hpoints, hu]
    rfl

/-! Deferred actions, pulses and ramps (R105, R116, R117, Table 04.15). -/

theorem deferredActions_one (s : State) (a : PendAct) (hqueue : s.points.actQueue = [a]) (hacts : s.points.actsNow < 32) :
    deferredActions s = doAction (s.onPoints fun p => { p with actQueue := [] }) a := by
  obtain ⟨n, hn⟩ : ∃ n, 32 - s.points.actsNow = n + 1 := ⟨31 - s.points.actsNow, by omega⟩
  unfold deferredActions
  dsimp only
  rw [hqueue, hn, List.drop_succ_cons, List.drop_nil, List.take_succ_cons, List.take_nil]
  rfl

theorem doAction_acts (s : State) (a : PendAct) : (doAction s a).points.acts = (s.points.actQueue, s.points.actsNow + 1) := by
  have hu : (s.onPoints fun p => { p with actsNow := p.actsNow + 1 }).points.acts = (s.points.actQueue, s.points.actsNow + 1) := rfl
  unfold doAction
  dsimp only
  split
  · rw [reflexWrite_points_acts, hu]
  · split
    · rw [runAction_points_acts, reflexWrite_points_acts, hu]
    · split
      · rw [rampWrite_points_acts, hu]
      · split
        · split
          · rw [reflexPattern_points, hu]
          · rw [countSkipped_points_acts, reflexPattern_points, hu]
        · split
          · split
            · rw [reflexTemplate_points, hu]
            · rw [countSkipped_points_acts, reflexTemplate_points, hu]
          · rw [postEvent_points, hu]

/-- The value that a PULSE of a rule returns its target to (Table 04.15). -/
def pulseReturn (s : State) (a : PendAct) : PVal :=
  match s.points.running.find? (fun x => x.pt == a.rule.target && !x.ramp && x.rule == a.index) with
  | some x => x.start
  | none => pget s a.rule.target

/-- The running action of a PULSE that starts. -/
def pulseAct (s : State) (a : PendAct) : RunAct :=
  { pt := a.rule.target, ramp := false, rule := a.index, owner := a.rule.owner, fire := s.plane.lin, duration := a.rule.duration
    start := pulseReturn s a, value := toP a.rule.value }

/-- The running action of a RAMP that starts. -/
def rampAct (s : State) (a : PendAct) : RunAct :=
  { pt := a.rule.target, ramp := true, rule := a.index, owner := a.rule.owner, fire := s.plane.lin, duration := a.rule.duration
    start := pget s a.rule.target, value := toP a.rule.value, trig := a.trigLin }

theorem reflexWrite_lin (s : State) (w : PWrite) (hroom : s.points.writesNow < 4096) (hkind : w.kind = .reflex) (hnow : s.points.now = []) :
    (writePoint s w).1.plane.lin = s.plane.lin := by
  rw [writePoint_stands s w hroom (.inl hkind) hnow]
  exact (congrArg Plane.lin (writeStands_plane s w s.stamp (pget s w.pt) 1) :)

theorem doAction_pulse (s : State) (a : PendAct) (h : a.rule.action = 1) (hroom : s.points.writesNow < 4096) (hnow : s.points.now = []) :
    doAction s a =
      runAction (writePoint (s.onPoints fun p => { p with actsNow := p.actsNow + 1 }) (ruleWrite a.index a.rule a.trigLin)).1 (pulseAct s a) := by
  have hlin := reflexWrite_lin (s.onPoints fun p => { p with actsNow := p.actsNow + 1 }) (ruleWrite a.index a.rule a.trigLin) hroom rfl hnow
  have hne : a.rule.action ≠ 0 := by omega
  unfold doAction
  dsimp only
  rw [if_neg hne, if_pos h]
  refine congrArg (runAction _) ?_
  unfold pulseAct
  congr 1

theorem doAction_ramp (s : State) (a : PendAct) (h : a.rule.action = 2) :
    doAction s a = rampWrite (s.onPoints fun p => { p with actsNow := p.actsNow + 1 }) (rampAct s a) 1 := by
  have h0 : a.rule.action ≠ 0 := by omega
  have h1 : a.rule.action ≠ 1 := by omega
  unfold doAction
  dsimp only
  rw [if_neg h0, if_neg h1, if_pos h]
  rfl

theorem doAction_event (s : State) (a : PendAct) (h : a.rule.action = 5) :
    doAction s a = postEvent (s.onPoints fun p => { p with actsNow := p.actsNow + 1 })
      { s.ev 3 0x0403 a.trigPt a.rule.value true a.rule.owner with stamp := stampOf s a.trigLin } := by
  have h0 : a.rule.action ≠ 0 := by omega
  have h1 : a.rule.action ≠ 1 := by omega
  have h2 : a.rule.action ≠ 2 := by omega
  have h3 : a.rule.action ≠ 3 := by omega
  have h4 : a.rule.action ≠ 4 := by omega
  unfold doAction
  dsimp only
  rw [if_neg h0, if_neg h1, if_neg h2, if_neg h3, if_neg h4]
  rfl

/-- The write that a ramp makes at a step. -/
def rampPWrite (a : RunAct) (k : Nat) : PWrite :=
  { pt := a.pt, v := rampValue a.start a.value k a.duration, kind := .reflex, comp := a.owner, hall := 3, idx := a.rule
    trig := if a.written then none else some a.trig, own := true }

/-- A ramp writes its step where bits [15:4] change or the ramp ends. -/
def rampDue (s : State) (a : RunAct) (k : Nat) : Bool :=
  k == a.duration || (rampValue a.start a.value k a.duration).toNat / 16 != (pget s a.pt).toNat / 16

/-- The running actions after a step of a ramp. -/
def rampMoved (s : State) (a : RunAct) (k : Nat) : State :=
  if k == a.duration then endAction s a.pt else runAction s { a with k := k, written := a.written || rampDue s a k }

theorem rampWrite_eq (s : State) (a : RunAct) (k : Nat) :
    rampWrite s a k = if rampDue s a k then (writePoint (rampMoved s a k) (rampPWrite a k)).1 else rampMoved s a k := rfl

theorem rampMoved_points (s : State) (a : RunAct) (k : Nat) : ∃ l, (rampMoved s a k).points = { s.points with running := l } := by
  unfold rampMoved
  split
  · exact ⟨_, rfl⟩
  · exact ⟨_, rfl⟩

theorem rampValue_end (start value : PVal) (k : Nat) (hk : 0 < k) : rampValue start value k k = value := by
  unfold rampValue
  rw [Int.mul_tdiv_cancel _ (by omega), add_sub_cancel]
  exact BitVec.eq_of_toNat_eq (by simp)

/-- What a step of a ramp writes, and what runs after it (Table 04.15). -/
theorem rampWrite_steps (s : State) (a : RunAct) (k : Nat) (hroom : s.points.writesNow < 4096) (hnow : s.points.now = []) (hwf : Tbl.wf 0 s.points.mem = true) :
    (pget (rampWrite s a k) a.pt).toNat / 16 = (rampValue a.start a.value k a.duration).toNat / 16 ∧
      (k = a.duration → pget (rampWrite s a k) a.pt = rampValue a.start a.value k a.duration) ∧
      (∀ q, q ≠ a.pt → pget (rampWrite s a k) q = pget s q) ∧ (rampWrite s a k).points.running = (rampMoved s a k).points.running := by
  obtain ⟨l, hmoved⟩ := rampMoved_points s a k
  have hkept (q : Nat) : pget (rampMoved s a k) q = pget s q := by simp only [pget, hmoved]
  have hroom' : (rampMoved s a k).points.writesNow < 4096 := by rw [hmoved]; exact hroom
  have hnow' : (rampMoved s a k).points.now = [] := by rw [hmoved]; exact hnow
  obtain ⟨hvalue, hother⟩ := pget_writePoint_reflex (rampMoved s a k) (rampPWrite a k) rfl hroom' hnow' (by rw [hmoved]; exact hwf)
  have hrun := running_writePoint_own (rampMoved s a k) (rampPWrite a k) rfl rfl hroom' hnow'
  rw [rampWrite_eq]
  cases hdue : rampDue s a k
  · rw [if_neg Bool.false_ne_true]
    simp only [rampDue, Bool.or_eq_false_iff, bne_eq_false_iff_eq, beq_eq_false_iff_ne] at hdue
    obtain ⟨hmore, hsame⟩ := hdue
    exact ⟨by rw [hkept, hsame], fun hlast => absurd hlast hmore, fun q _ => hkept q, rfl⟩
  · rw [if_pos rfl]
    exact ⟨congrArg (fun v => v.toNat / 16) hvalue, fun _ => hvalue, fun q hq => (hother q hq).trans (hkept q), hrun⟩

theorem rampMoved_runs (s : State) (a : RunAct) (k : Nat) (h : k ≠ a.duration) :
    { a with k := k, written := a.written || rampDue s a k } ∈ (rampMoved s a k).points.running := by
  rw [rampMoved, if_neg (by simpa using h)]
  exact List.mem_cons_self

theorem held_of_running {s t : State} (h : t.points.running = s.points.running) (pt : Nat) : heldByAction t pt = heldByAction s pt := by
  simp only [heldByAction, h]

theorem heldByAction_endAction (s : State) (pt : Nat) : heldByAction (endAction s pt) pt = false := by
  refine List.any_eq_false.2 fun a ha => ?_
  simpa using (List.mem_filter.1 ha).2

theorem deferredActions_acts (a : PendAct) (s : State) (hqueue : s.points.actQueue = [a]) (hacts : s.points.actsNow < 32)
    (hroom : s.points.writesNow < 4096) (hnow : s.points.now = []) (hwf : Tbl.wf 0 s.points.mem = true) :
    (deferredActions s).points.actQueue = [] ∧ (deferredActions s).points.actsNow = s.points.actsNow + 1 ∧
      (a.rule.action ≤ 1 → pget (deferredActions s) a.rule.target = BitVec.ofNat 16 a.rule.value) ∧
      (a.rule.action = 1 → pulseAct s a ∈ (deferredActions s).points.running) ∧
      (a.rule.action = 2 → 1 < a.rule.duration → ∃ w, { rampAct s a with k := 1, written := w } ∈ (deferredActions s).points.running) ∧
      (a.rule.action = 5 → Posted s (deferredActions s) { s.ev 3 0x0403 a.trigPt a.rule.value true a.rule.owner with stamp := stampOf s a.trigLin }) := by
  let s0 := s.onPoints fun p => { p with actQueue := [] }
  let s1 := s0.onPoints fun p => { p with actsNow := p.actsNow + 1 }
  have hacted : (doAction s0 a).points.acts = ([], s.points.actsNow + 1) := doAction_acts s0 a
  have hvalue := (pget_writePoint_reflex s1 (ruleWrite a.index a.rule a.trigLin) rfl hroom hnow hwf).1
  rw [deferredActions_one s a hqueue hacts]
  refine ⟨congrArg Prod.fst hacted, congrArg Prod.snd hacted, fun h => ?_, fun h => ?_, fun h hduration => ?_, fun h => ?_⟩
  · rcases Nat.le_one_iff_eq_zero_or_eq_one.1 h with h | h
    · rw [doAction_write _ _ h]
      exact hvalue
    · rw [doAction_pulse s0 a h hroom hnow]
      exact hvalue
  · rw [doAction_pulse s0 a h hroom hnow]
    exact List.mem_cons_self
  · rw [doAction_ramp s0 a h, (rampWrite_steps s1 (rampAct s0 a) 1 hroom hnow hwf).2.2.2]
    exact ⟨_, rampMoved_runs s1 (rampAct s0 a) 1 (Nat.ne_of_lt hduration)⟩
  · rw [doAction_event s0 a h]
    exact postEvent_posted s1 _

theorem pulseEnd_returns (pt : Nat) (a : RunAct) (s : State) (hfind : s.points.running.find? (fun x => x.pt == pt && !x.ramp) = some a)
    (hdue : a.fire + a.duration ≤ s.plane.lin) (hroom : s.points.writesNow < 4096) (hnow : s.points.now = []) (hwf : Tbl.wf 0 s.points.mem = true) :
    pget (pulseEnd s pt) pt = a.start ∧ heldByAction (pulseEnd s pt) pt = false ∧ ∀ q, q ≠ pt → pget (pulseEnd s pt) q = pget s q := by
  let w : PWrite := { pt := pt, v := a.start, kind := .reflex, comp := a.owner, hall := 3, idx := a.rule, own := true }
  have hend : pulseEnd s pt = (writePoint (endAction s pt) w).1 := by
    unfold pulseEnd
    rw [hfind]
    exact if_pos hdue
  obtain ⟨hvalue, hother⟩ := pget_writePoint_reflex (endAction s pt) w rfl hroom hnow hwf
  rw [hend]
  exact ⟨hvalue, (held_of_running (running_writePoint_own (endAction s pt) w rfl rfl hroom hnow) pt).trans (heldByAction_endAction s pt), hother⟩

theorem rampStep_steps (pt : Nat) (a : RunAct) (k : Nat) (s : State) (hfind : s.points.running.find? (fun x => x.pt == pt && x.ramp) = some a)
    (hk : k = min a.duration (s.plane.lin - a.fire + 1)) (hmore : a.k < k) (hroom : s.points.writesNow < 4096) (hnow : s.points.now = [])
    (hwf : Tbl.wf 0 s.points.mem = true) :
    (pget (rampStep s pt) pt).toNat / 16 = (rampValue a.start a.value k a.duration).toNat / 16 ∧
      (k = a.duration → pget (rampStep s pt) pt = a.value ∧ heldByAction (rampStep s pt) pt = false) ∧
      (k < a.duration → ∃ x ∈ (rampStep s pt).points.running, x.pt = pt ∧ x.ramp = true ∧ x.k = k) ∧ ∀ q, q ≠ pt → pget (rampStep s pt) q = pget s q := by
  have hstep : rampStep s pt = rampWrite s a k := by
    unfold rampStep
    rw [hfind]
    dsimp only
    rw [← hk, if_pos hmore]
  have ha := List.find?_some hfind
  rw [Bool.and_eq_true, beq_iff_eq] at ha
  obtain ⟨rfl, hramp⟩ := ha
  obtain ⟨hbits, hlast, hother, hrun⟩ := rampWrite_steps s a k hroom hnow hwf
  rw [hstep]
  refine ⟨hbits, fun h => ⟨?_, ?_⟩, fun h => ?_, hother⟩
  · rw [hlast h, h]
    exact rampValue_end a.start a.value a.duration (by omega)
  · rw [held_of_running hrun, rampMoved, if_pos (beq_iff_eq.2 h)]
    exact heldByAction_endAction s a.pt
  · rw [hrun]
    exact ⟨_, rampMoved_runs s a k (Nat.ne_of_lt h), rfl, hramp, rfl⟩

/-! The REFLEX packets (Tables 04.17 to 04.20). -/

/-- A keeper packet whose values do not agree with what its run would leave completes S_CONFLICT with no effect (R79, R89). -/
theorem keeperTake_conflicts {o : Op} {p : Packet} {s : State} (h : KeeperRuns o p s)
    (hconflict : o.agree p (release s p) (o.run p (release s p)).s = false) : keeperTake o p s = completeNow (release s p) p .conflict [] := by
  obtain ⟨hp, hk, hr, hf, hb, ht, hc⟩ := h
  have hh : isHeld s p = true := by simp only [isHeld, hk, Bool.or_true, Bool.true_or]
  have hw : ¬ (waitsForE o p s = true ∧ (s.plane.tick < dueTick false p s ∨ (!inTurn p s) = true)) := by
    rintro ⟨h1, h2⟩
    rcases ht with ⟨h3, h4, h5, -⟩ | ⟨h3, h4⟩
    · simp [waitsForE, h3, h4, h5] at h1
    · simp [h3, h4] at h2
  have hl : executed o p (release s p) = false := by simp [executed, hconflict]
  unfold keeperTake
  simp only [hp, ne_eq, not_true_eq_false, if_false, hh, if_true]
  unfold runKeeper
  simp only [hr, hf, hb, Bool.not_true, Bool.false_eq_true, if_false]
  rw [if_neg hw]
  unfold keeperExecute executeOp
  simp only [hl, hc, hconflict, Bool.and_false, Bool.false_eq_true, if_false]
  exact finishRun_onTime _ _ _

theorem putRules_one (s : State) (i : Nat) (r : Rule) :
    putRules s [(i, r)] = setArmed (s.onStore fun st => { st with rules := Tbl.put st.rules {} i r }) i (r.enabled && r.armsAt (pget s r.trig)) := rfl

theorem reflexLoad_loads (p : Packet) (i : Nat) (r : Rule) (s : State) (h : KeeperRuns reflexLoadOp p s) (hone : loadRules p = [(i, r)])
    (hwf : Tbl.wf {} s.store.rules = true) (hagrees : r.agrees = true) (hfit : triggersFit (Tbl.put s.store.rules {} i r) = true)
    (hpattern : r.action = 3 → (patternOwner s r.index).isSome = true) (htemplate : r.action = 4 → (templateOwner s r.index).isSome = true) :
    ∃ t, exec (.reflexLoad p) s = .next t ∧ Completed p .ok s t ∧ ruleAt t i = r ∧ (∀ k, k ≠ i → ruleAt t k = ruleAt s k) ∧
      (Tbl.wf false s.points.armed = true → Tbl.get t.points.armed false i = (r.enabled && r.armsAt (pget s r.trig))) := by
  let u := putRules (release s p) [(i, r)]
  have hrun : reflexLoadOp.run p (release s p) = { s := u, reply := [(16, 2, loadFirst p), (18, 1, loadCount p)] } := by
    simp only [reflexLoadOp, hone, u]
  have hrule : ruleAt u i = r := Tbl.get_put_same _ _ _ _ hwf
  have hagree : reflexLoadOp.agree p (release s p) u = true := by
    have hpattern' : r.action = 3 → (patternOwner u r.index).isSome = true := hpattern
    have htemplate' : r.action = 4 → (templateOwner u r.index).isSome = true := htemplate
    have hfit' : triggersFit u.store.rules = true := hfit
    simp only [reflexLoadOp, hone, hfit', List.all_cons, List.all_nil, hrule, hagrees, Bool.true_and, Bool.and_true, Bool.or_eq_true, Bool.and_eq_true,
      bne_iff_ne]
    exact .inr ⟨not_or_of_imp hpattern', not_or_of_imp htemplate'⟩
  obtain ⟨hexec, hdone⟩ := keeperTake_completes h rfl hrun hagree rfl
  have hstore (k : Nat) : ruleAt ((completeNow u p .ok [(16, 2, loadFirst p), (18, 1, loadCount p)]).withPending s.pending) k =
      Tbl.get (Tbl.put s.store.rules {} i r) {} k := by
    rw [ruleAt, withPending_store, completeNow_store]
    rfl
  refine ⟨_, hexec, hdone, (hstore i).trans (Tbl.get_put_same _ _ _ _ hwf), fun k hk => (hstore k).trans (Tbl.get_put_ne _ _ _ _ _ (Ne.symm hk)),
    fun harmed => ?_⟩
  exact (congrArg (fun q : Points => Tbl.get q.armed false i) (completeNow_points u p .ok [(16, 2, loadFirst p), (18, 1, loadCount p)])).trans
    (Tbl.get_put_same _ _ _ _ harmed)

theorem reflexLoad_rejects (p : Packet) (i : Nat) (r : Rule) (s : State) (h : KeeperRuns reflexLoadOp p s) (hone : loadRules p = [(i, r)])
    (hwf : Tbl.wf {} s.store.rules = true) (hbad : r.agrees = false) :
    ∃ t, exec (.reflexLoad p) s = .next t ∧ Completed p .conflict s t ∧ t.store.rules = s.store.rules := by
  have hrule : ruleAt (putRules (release s p) [(i, r)]) i = r := Tbl.get_put_same _ _ _ _ hwf
  have hagree : reflexLoadOp.agree p (release s p) (reflexLoadOp.run p (release s p)).s = false := by
    simp only [reflexLoadOp, hone, List.all_cons, hrule, hbad, Bool.false_and, Bool.and_false]
  exact ⟨_, congrArg (effect s) (keeperTake_conflicts h hagree), Completed.of_clock (completeNow_completed (release s p) p .conflict []) rfl,
    congrArg Store.rules (completeNow_store (release s p) p .conflict [])⟩

/-- A write adds no running action. -/
theorem running_writeStands (s : State) (w : PWrite) (t : Stamp) (old : PVal) (count : Nat) :
    ∀ x ∈ (writeStands s w t old count).points.running, x ∈ s.points.running := by
  obtain ⟨a, b, h⟩ := writeStands_points s w t old count
  rw [h]
  intro x hx
  dsimp only at hx
  split at hx
  · exact (List.mem_filter.1 hx).1
  · exact hx

theorem running_writePoint (s : State) (w : PWrite) : ∀ x ∈ (writePoint s w).1.points.running, x ∈ s.points.running := by
  unfold writePoint
  split
  · intro x hx
    have hmoved : (moveWrite s w).points.running = s.points.running := by
      unfold moveWrite countMoved
      dsimp only
      split_ifs <;> rfl
    rwa [hmoved] at hx
  · exact applyWrite_cases s w (P := fun u => ∀ x ∈ u.points.running, x ∈ s.points.running) (fun _ _ hx => hx)
      (fun old count => running_writeStands s w s.stamp old count) (fun n old => running_writeStands (countDiscarded s n) w s.stamp old 1)

/-- What ending the running actions of a rule leaves as it was. -/
theorem stopActions_keeps (s : State) (i : Nat) : (stopActions s i).store = s.store ∧ (stopActions s i).plane.quiet = s.plane.quiet ∧
    ∀ x ∈ (stopActions s i).points.running, x.rule ≠ i := by
  let Kept (u : State) : Prop := u.store = s.store ∧ u.plane.quiet = s.plane.quiet ∧ ∀ x ∈ u.points.running, x.rule ≠ i
  unfold stopActions
  refine List.foldlRecOn (motive := Kept) _ _ ⟨rfl, rfl, fun x hx => ?_⟩ fun u ⟨hstore, hplane, hrun⟩ a _ => ?_
  · simpa using (List.mem_filter.1 hx).2
  · cases a.ramp
    · exact ⟨(writePoint_store ..).trans hstore, (writePoint_plane_quiet ..).trans hplane, fun x hx => hrun x (running_writePoint _ _ x hx)⟩
    · exact ⟨hstore, hplane, hrun⟩

/-- REFLEX.ENABLE of one rule before it ends the rule's actions (Table 04.18). -/
def ruleEnabled (p : Packet) (s : State) (i : Nat) (r : Rule) : State :=
  let s := s.onStore fun st => { st with rules := Tbl.put st.rules {} i { r with enabled := p.bit 20 0 } }
  if p.bit 20 0 ∧ !r.enabled then setArmed s i (r.armsAt (pprev s r.trig)) else s

theorem ruleEnabled_only (p : Packet) (s : State) (i : Nat) (r : Rule) : ∃ a, ruleEnabled p s i r =
    (s.onStore fun st => { st with rules := Tbl.put st.rules {} i { r with enabled := p.bit 20 0 } }).onPoints fun q => { q with armed := a } := by
  unfold ruleEnabled
  dsimp only
  split
  · exact ⟨_, rfl⟩
  · exact ⟨s.points.armed, rfl⟩

/-- REFLEX.ENABLE of one rule (Table 04.18). -/
def enableRule (p : Packet) (s : State) (i : Nat) (r : Rule) : State :=
  if p.bit 20 1 then stopActions (ruleEnabled p s i r) i else ruleEnabled p s i r

theorem enableRule_enables (p : Packet) (s : State) (i : Nat) (r : Rule) :
    (enableRule p s i r).store = { s.store with rules := Tbl.put s.store.rules {} i { r with enabled := p.bit 20 0 } } ∧
      (enableRule p s i r).clock = s.clock ∧ (p.bit 20 1 = true → ∀ x ∈ (enableRule p s i r).points.running, x.rule ≠ i) ∧
      (p.bit 20 1 = false → (enableRule p s i r).points.mem = s.points.mem) := by
  obtain ⟨a, h⟩ := ruleEnabled_only p s i r
  unfold enableRule
  rw [h]
  cases p.bit 20 1
  · exact ⟨rfl, rfl, fun h => absurd h Bool.false_ne_true, fun _ => rfl⟩
  · obtain ⟨hstore, hplane, hrun⟩ := stopActions_keeps
      ((s.onStore fun st => { st with rules := Tbl.put st.rules {} i { r with enabled := p.bit 20 0 } }).onPoints fun q => { q with armed := a }) i
    exact ⟨hstore, clock_of_quiet hplane, fun _ => hrun, fun h => absurd h.symm Bool.false_ne_true⟩

theorem reflexEnable_enables (p : Packet) (i : Nat) (r : Rule) (s : State) (h : KeeperRuns reflexEnableOp p s)
    (hone : usedRules s (p.num 16 2) (p.num 18 2) = [(i, r)]) (hwf : Tbl.wf {} s.store.rules = true) :
    ∃ t, exec (.reflexEnable p) s = .next t ∧ Completed p .ok s t ∧ ruleAt t i = { r with enabled := p.bit 20 0 } ∧
      (p.bit 20 1 = true → ∀ x ∈ t.points.running, x.rule ≠ i) ∧ (p.bit 20 1 = false → t.points.mem = s.points.mem) := by
  let u := enableRule p (release s p) i r
  obtain ⟨hstore, hclock, hrun, hmem⟩ := enableRule_enables p (release s p) i r
  have hused : usedRules (release s p) (p.num 16 2) (p.num 18 2) = [(i, r)] := hone
  have hop : reflexEnableOp.run p (release s p) = { s := u } := by
    simp only [reflexEnableOp, hused, List.foldl_cons, List.foldl_nil]
    rfl
  have hpoints := completeNow_points u p .ok []
  obtain ⟨hexec, hdone⟩ := keeperTake_completes h rfl hop rfl hclock
  refine ⟨_, hexec, hdone, ?_, fun hstop => ?_, fun hgo => ?_⟩
  · rw [ruleAt, withPending_store, completeNow_store, hstore]
    exact Tbl.get_put_same _ _ _ _ hwf
  · rw [withPending_points, hpoints]
    exact hrun hstop
  · rw [withPending_points, hpoints]
    exact hmem hgo

/-- What REFLEX.STATS leaves before its reply (Table 04.19). -/
def statsRun (p : Packet) (s : State) : State := if p.bit 20 0 then s.onPoints fun q => { q with stats := {}, fires := [] } else s

theorem statsRun_only (p : Packet) (s : State) : ∃ q, statsRun p s = s.onPoints q ∧ (p.bit 20 0 = true → q s.points = { s.points with stats := {}, fires := [] }) ∧
    (p.bit 20 0 = false → q s.points = s.points) := by
  unfold statsRun
  cases p.bit 20 0
  · exact ⟨id, rfl, fun h => absurd h Bool.false_ne_true, fun _ => rfl⟩
  · exact ⟨fun q => { q with stats := {}, fires := [] }, rfl, fun _ => rfl, fun h => absurd h.symm Bool.false_ne_true⟩

theorem reflexStats_replies (p : Packet) (s : State) (h : KeeperRuns reflexStatsOp p s) :
    ∃ t, exec (.reflexStats p) s = .next t ∧ Completed p .ok s t ∧ Replied p s t (reflexStatsOp.run p s).reply ∧
      (p.bit 20 0 = true → t.points = { s.points with stats := {}, fires := [] }) ∧ (p.bit 20 0 = false → t.points = s.points) := by
  obtain ⟨q, honly, hclear, hkeep⟩ := statsRun_only p (release s p)
  have hrun : reflexStatsOp.run p (release s p) = { s := (release s p).onPoints q, reply := (reflexStatsOp.run p s).reply } :=
    congrArg (fun u => ({ s := u, reply := (reflexStatsOp.run p s).reply } : Res)) honly
  obtain ⟨hexec, hdone⟩ := keeperTake_completes h rfl hrun rfl rfl
  have hpoints := completeNow_points ((release s p).onPoints q) p .ok (reflexStatsOp.run p s).reply
  exact ⟨_, hexec, hdone, Replied.of_same (completeNow_replied ((release s p).onPoints q) p .ok (reflexStatsOp.run p s).reply) rfl rfl rfl,
    fun h => hpoints.trans (hclear h), fun h => hpoints.trans (hkeep h)⟩

/-- Settles O49: rules fire on changes, actions run and end, and the REFLEX packets change the rules and the counts. -/
theorem reflexRulesFire : Obligations.ReflexRulesFire := by
  refine ⟨fun c i r s hin hqueue heval hone hwatch hhit hgate haction hpost hacts hacting hroom hnow hwf hfires => ?_,
    fun a r s hin hqueue hacts hr hroom hnow hwf => ?_, fun pt a s hin hfind hdue hroom hnow hwf => ?_,
    fun pt a k s hin hfind hk hmore hroom hnow hwf => ?_, fun p i r s h hone hwf => ⟨?_, ?_⟩,
    fun p i r s h hone hwf => reflexEnable_enables p i r s h hone hwf, fun p s h => reflexStats_replies p s h⟩
  · exact ⟨_, congrArg (effect s) (if_pos hin),
      reflexEvaluate_writes c i r s hqueue heval hone hwatch hhit hgate haction hpost hacts hacting hroom hnow hwf hfires⟩
  · subst hr
    obtain ⟨hleft, hcount, hwrite, hpulse, hramp, hpost⟩ := deferredActions_acts a s hqueue hacts hroom hnow hwf
    exact ⟨_, congrArg (effect s) (if_pos hin), hleft, hcount, hwrite, fun h => ⟨_, hpulse h, rfl, rfl, rfl, rfl, rfl⟩,
      fun h hduration => (hramp h hduration).elim fun _ hmem => ⟨_, hmem, rfl, rfl, rfl, rfl, rfl, rfl⟩, hpost⟩
  · exact ⟨_, congrArg (effect s) (if_pos hin), pulseEnd_returns pt a s hfind hdue hroom hnow hwf⟩
  · exact ⟨_, congrArg (effect s) (if_pos hin), rampStep_steps pt a k s hfind hk hmore hroom hnow hwf⟩
  · exact fun hagrees hfit hpattern htemplate => reflexLoad_loads p i r s h hone hwf hagrees hfit hpattern htemplate
  · exact fun hbad => reflexLoad_rejects p i r s h hone hwf hbad

end Sys2Proof.Machine

namespace Sys2Proof.Machine

open Sys2Proof.Claims

/-! Captures (R37 to R40). -/

/-- A mark of the capture other than STOP goes to a wrapping capture area that is empty (R37). -/
theorem capPut_first (s : State) (r : CapRecord) (hrun : s.plane.capture.running = true) (hstop : isStopMark r = false)
    (hsink : s.plane.capture.sink63 = false) (hwrap : s.plane.capture.wrap = true) (hgap : s.plane.capture.gapDue = 0)
    (harea : s.plane.capture.area = []) : capPut s r = s.onCapture fun c => { c with area := [r], areaBytes := 0 + r.size, records := c.records + 1 } := by
  simp only [capPut, hrun, hstop, hsink, hwrap, capTake, capGap, hgap, capCommit, harea, trimArea, Bool.not_true, Bool.false_eq_true, if_false, if_true,
    Bool.not_false, Bool.true_and, Bool.false_and]
  rfl

/-- The settings and the START record of a capture that begins at once in a wrapping capture area. -/
def startedCapture (s : State) (a : CapArm) : Capture :=
  { running := true, sink63 := false, wrap := true, classMask := a.classMask, cmdMask := a.cmdMask, interval := a.interval
    fromZero := false, startStamp := s.stamp, startLin := s.plane.lin, checkLin := s.plane.lin, records := 1
    area := [markRecord s 1 (a.classMask + 2 ^ 16 * a.cmdMask) (startPayload s a.interval)]
    areaBytes := 0 + (markRecord s 1 (a.classMask + 2 ^ 16 * a.cmdMask) (startPayload s a.interval)).size }

theorem startCapture_starts (s : State) (a : CapArm) (hsink : a.sink63 = false) (hwrap : a.wrap = true) :
    startCapture s a false = s.onPlane fun p => { p with
      capture := startedCapture s a, landings := vmod p.landings 9 fun x => { x with items := [] } } := by
  unfold startCapture
  dsimp only
  rw [capPut_first]
  · simp only [hsink, hwrap]
    rfl
  · rfl
  · rfl
  · exact hsink
  · exact hwrap
  · rfl
  · simp only [State.onCapture, onPlane_plane, hsink]
    rfl

theorem completeNow_capture (s : State) (p : Packet) (st : Status) (r : Reply) : (completeNow s p st r).plane.capture = s.plane.capture :=
  (congrArg Plane.capture (completeNow_beyondCompletion s p st r) :)

/-- What CAPTURE.START arms. -/
def armedBy (p : Packet) : CapArm :=
  { armed := true, sink63 := p.bit 16 1, wrap := p.bit 16 2, classMask := p.num 18 2, cmdMask := p.num 20 2, interval := p.num 24 4 }

theorem captureStartOp_run (p : Packet) (s : State) (harmed : s.store.capArm.armed = false) (hcapture : s.plane.capture.running = false)
    (hreplay : s.plane.replay.running = false) (htrial : trialRuns s = false) : captureStartOp.run p s =
      if p.bit 16 0 then { s := startCapture s (armedBy p) false, reply := [(16, 8, s.stamp.word)] }
      else { s := s.onStore fun st => { st with capArm := armedBy p }, reply := [(16, 8, 0)] } := by
  simp only [captureStartOp, harmed, hcapture, hreplay, htrial, Bool.false_eq_true, or_self, if_false]
  rfl

theorem captureStart_arms (p : Packet) (s : State) (h : KeeperRuns captureStartOp p s) (harmed : s.store.capArm.armed = false)
    (hcapture : s.plane.capture.running = false) (hreplay : s.plane.replay.running = false) (htrial : trialRuns s = false) (hlater : p.bit 16 0 = false) :
    ∃ t, exec (.captureStart p) s = .next t ∧ Completed p .ok s t ∧ Replied p s t [(16, 8, 0)] ∧ t.plane.capture = s.plane.capture ∧
      t.store.capArm = armedBy p := by
  let u := (release s p).onStore fun st => { st with capArm := armedBy p }
  have hrun : captureStartOp.run p (release s p) = { s := u, reply := [(16, 8, 0)] } :=
    (captureStartOp_run p (release s p) harmed hcapture hreplay htrial).trans (if_neg (by simp [hlater]))
  obtain ⟨hexec, hdone⟩ := keeperTake_completes h rfl hrun rfl rfl
  exact ⟨_, hexec, hdone, Replied.of_same (completeNow_replied u p .ok [(16, 8, 0)]) rfl rfl rfl, completeNow_capture u p .ok [(16, 8, 0)],
    congrArg Store.capArm (completeNow_store u p .ok [(16, 8, 0)])⟩

theorem captureStart_starts (p : Packet) (s : State) (h : KeeperRuns captureStartOp p s) (harmed : s.store.capArm.armed = false)
    (hcapture : s.plane.capture.running = false) (hreplay : s.plane.replay.running = false) (htrial : trialRuns s = false) (hnow : p.bit 16 0 = true)
    (hsink : p.bit 16 1 = false) (hwrap : p.bit 16 2 = true) :
    ∃ t, exec (.captureStart p) s = .next t ∧ Completed p .ok s t ∧ Replied p s t [(16, 8, s.stamp.word)] ∧ t.plane.capture = startedCapture s (armedBy p) := by
  let u := (release s p).onPlane fun q => { q with
    capture := startedCapture (release s p) (armedBy p), landings := vmod q.landings 9 fun x => { x with items := [] } }
  have hrun : captureStartOp.run p (release s p) = { s := u, reply := [(16, 8, s.stamp.word)] } := by
    rw [captureStartOp_run p (release s p) harmed hcapture hreplay htrial, if_pos hnow, startCapture_starts _ _ hsink hwrap]
    rfl
  obtain ⟨hexec, hdone⟩ := keeperTake_completes h rfl hrun rfl rfl
  exact ⟨_, hexec, hdone, Replied.of_same (completeNow_replied u p .ok [(16, 8, s.stamp.word)]) rfl rfl rfl,
    completeNow_capture u p .ok [(16, 8, s.stamp.word)]⟩

theorem captureStop_disarms (p : Packet) (s : State) (h : KeeperRuns captureStopOp p s) (hidle : s.plane.capture.running = false) :
    ∃ t, exec (.captureStop p) s = .next t ∧ Completed p .ok s t ∧ t.store.capArm = {} ∧ t.plane.capture = s.plane.capture := by
  have hcapturing : capturing (release s p) = false := by
    have hidle' : (release s p).plane.capture.running = false := hidle
    simp [capturing, hidle']
  have hrun : captureStopOp.run p (release s p) = { s := disarm (release s p) } := by simp [captureStopOp, hcapturing]
  obtain ⟨hexec, hdone⟩ := keeperTake_completes h rfl hrun rfl rfl
  exact ⟨_, hexec, hdone, congrArg Store.capArm (completeNow_store (disarm (release s p)) p .ok []), completeNow_capture (disarm (release s p)) p .ok []⟩

theorem capWrite_lands (s : State) (r : CapRecord) (hrun : s.plane.capture.running = true) (hopen : s.plane.capture.closing = false) :
    capWrite s r = landPut s 9 { stamp := r.stamp, hall := 3, caps := [r] } := if_pos ⟨hrun, by simp [hopen]⟩

theorem writePending_only (s : State) (p : Packet) : ∃ m, writePending s p = { s with mem := m } := by
  unfold writePending
  split
  · split
    · exact ⟨s.mem, rfl⟩
    · exact ⟨_, memWriteN_only _ s _⟩
  · exact ⟨s.mem, rfl⟩

theorem captureStop_closes (p : Packet) (s : State) (h : KeeperRuns captureStopOp p s) (hrun : s.plane.capture.running = true)
    (hopen : s.plane.capture.closing = false) :
    ∃ t, exec (.captureStop p) s = .next t ∧ t.plane.capture.running = true ∧ t.plane.capture.closing = true ∧
      t.plane.capture.stopPacket = some (p, s.stamp, runningDigest (release s p)) ∧ t.store.capArm = s.store.capArm ∧
      ∃ it ∈ (vget t.plane.landings 9).items, it.stamp = s.stamp ∧ it.caps = [markRecord s 2 1 (runningDigest (release s p))] := by
  let u := capStop (release s p) 1
  obtain ⟨m, hpending⟩ := writePending_only u p
  have hcapturing : capturing (release s p) = true := by
    have hrun' : (release s p).plane.capture.running = true := hrun
    have hopen' : (release s p).plane.capture.closing = false := hopen
    simp [capturing, hrun', hopen']
  have hop : captureStopOp.run p (release s p) =
      { s := ({ u with mem := m }).onCapture fun c => { c with stopPacket := some (p, s.stamp, runningDigest (release s p)) }, st := none } := by
    rw [← hpending]
    simp only [captureStopOp, hcapturing, if_true]
    rfl
  have hmark : u = (landPut (release s p) 9 { stamp := s.stamp, hall := 3, caps := [markRecord s 2 1 (runningDigest (release s p))] }).onPlane
      fun q => { q with capture := { q.capture with closing := q.capture.running } } := by
    simp only [u, capStop, capWrite_lands (release s p) (markRecord (release s p) 2 1 (runningDigest (release s p))) hrun hopen]
    rfl
  have htake := keeperTake_waits h rfl hop rfl
  rw [hmark] at htake
  exact ⟨_, congrArg (effect s) htake, hrun, hrun, rfl, rfl, _, mem_landPut (release s p) 9 _ (by omega), rfl, rfl⟩

theorem captureCheckpoint_marks (s : State) (hrun : s.plane.capture.running = true) (hopen : s.plane.capture.closing = false)
    (hsome : 0 < s.plane.capture.interval) (hnext : s.plane.capture.checkLin < s.plane.lin)
    (hdue : (s.plane.lin - s.plane.capture.startLin) % s.plane.capture.interval = 0) :
    ∃ t, exec .captureCheckpoint s = .next t ∧ t.plane.capture.checkLin = s.plane.lin ∧ t.plane.results = s.plane.results ∧
      ∃ it ∈ (vget t.plane.landings 9).items, it.stamp = s.stamp ∧ it.caps = [markRecord s 3 0 (runningDigest s)] := by
  have hstep : captureCheckpoint s = (landPut s 9 { stamp := s.stamp, hall := 3, caps := [markRecord s 3 0 (runningDigest s)] }).onCapture
      fun c => { c with checkLin := s.plane.lin } := by
    unfold captureCheckpoint
    dsimp only
    rw [if_pos ⟨hrun, hsome, hnext, hdue⟩, capWrite_lands s _ hrun hopen]
    rfl
  exact ⟨_, congrArg (effect s) hstep, rfl, rfl, _, mem_landPut s 9 _ (by omega), rfl, rfl⟩

/-! L9 gives its records to the sinks (R37, R38, R40). -/

theorem ringWrite_plane (s : State) (r : Nat) (bytes : List Byte) : (ringWrite s r bytes).plane =
    { s.plane with rings := vmod s.plane.rings r fun g => Ring.countIrq { g with tail := (g.tail + bytes.length / 64) % g.size } } := by
  have hfold : ((List.range (bytes.length / 64)).foldl
      (fun u i => memWriteN u ((s.ring r).slotAddr (((s.ring r).tail + i) % (s.ring r).size)) ((bytes.drop (64 * i)).take 64)) s).plane = s.plane :=
    foldl_keeps State.plane _ (fun u i => memWriteN_plane u _ _) _ s
  unfold ringWrite State.onRing
  dsimp only
  rw [onPlane_plane, hfold]

theorem tail_countIrq (g : Ring) : (Ring.countIrq g).tail = g.tail := by
  unfold Ring.countIrq
  (repeat' split) <;> rfl

theorem ringWrite_tail (s : State) (r : Nat) (bytes : List Byte) (hr : r < 64) :
    ((ringWrite s r bytes).ring r).tail = ((s.ring r).tail + bytes.length / 64) % (s.ring r).size := by
  rw [State.ring, ringWrite_plane, vget_vmod_same _ _ _ hr, tail_countIrq]
  rfl

/-- Bytes that leave for ring 63 change the capture in what waits for a full slot only. -/
theorem streamTo63_capture (s : State) (l : List Byte) : ∃ m, (streamTo63 s l).plane.capture = { s.plane.capture with tailBytes := m } := by
  unfold streamTo63
  dsimp only
  rw [onPlane_plane, ringWrite_plane]
  exact ⟨_, rfl⟩

theorem streamTo63_clock (s : State) (l : List Byte) : (streamTo63 s l).clock = s.clock := by
  unfold streamTo63
  dsimp only
  rw [State.clock, onPlane_plane, ringWrite_plane]
  rfl

theorem streamTo63_writes (s : State) (l all : List Byte) (hall : all = s.plane.capture.tailBytes ++ l) :
    (streamTo63 s l).plane.capture.tailBytes = all.drop (64 * (all.length / 64)) ∧
      ((streamTo63 s l).ring 63).tail = ((s.ring 63).tail + all.length / 64) % (s.ring 63).size := by
  have hfull : (all.take (64 * (all.length / 64))).length / 64 = all.length / 64 := by
    rw [List.length_take]
    omega
  have htail := ringWrite_tail s 63 (all.take (64 * (all.length / 64))) (by omega)
  rw [hfull] at htail
  subst hall
  exact ⟨rfl, htail⟩

theorem flush63_keeps (s : State) : (∃ m, (flush63 s).plane.capture = { s.plane.capture with tailBytes := m }) ∧ (flush63 s).clock = s.clock := by
  unfold flush63
  dsimp only
  split
  · exact ⟨⟨s.plane.capture.tailBytes, rfl⟩, rfl⟩
  · exact ⟨streamTo63_capture .., streamTo63_clock ..⟩

/-- The capture area takes a record where it wraps, or has room for it (R38). -/
theorem capCommit_area (s : State) (r : CapRecord) (hsink : s.plane.capture.sink63 = false)
    (hroom : s.plane.capture.wrap = true ∨ s.plane.capture.areaBytes + r.size ≤ captureArea) :
    ∃ a n, capCommit s r =
      (s.onCapture fun c => { c with area := a ++ [r], areaBytes := n, records := c.records + 1 }, true) := by
  unfold capCommit
  dsimp only
  rw [hsink, if_neg Bool.false_ne_true]
  split
  · exact ⟨_, _, rfl⟩
  · next hwrap =>
    rw [if_pos (hroom.resolve_left hwrap)]
    exact ⟨_, _, rfl⟩

/-- Ring 63 takes a record where it has room for the slots that the record fills (R38). -/
theorem capCommit_ring (s : State) (r : CapRecord) (hsink : s.plane.capture.sink63 = true) (hsize : (s.ring 63).size ≠ 0)
    (hroom : (s.plane.capture.tailBytes.length + r.size) / 64 ≤ (s.ring 63).room) :
    capCommit s r = ((streamTo63 s r.encode).onCapture fun c => { c with records := c.records + 1 }, true) := by
  have hopen : ¬ ((s.ring 63).size = 0 ∨ (s.ring 63).room < (s.plane.capture.tailBytes.length + r.size) / 64) := by omega
  unfold capCommit
  dsimp only
  rw [hsink, if_pos rfl, if_neg hopen]
  rfl

/-- With no GAP mark due a record that the sink takes is committed (R37). -/
theorem capTake_takes {s t : State} {r : CapRecord} (hgap : s.plane.capture.gapDue = 0) (h : capCommit s r = (t, true)) : capTake s r = (t, true) := by
  simp only [capTake, capGap, hgap, if_true, h]

theorem capPut_takes {s t : State} {r : CapRecord} (hrun : s.plane.capture.running = true) (hstop : isStopMark r = false)
    (hgap : s.plane.capture.gapDue = 0)
    (hroom : s.plane.capture.sink63 = true ∨ s.plane.capture.wrap = true ∨ s.plane.capture.areaBytes + r.size + 48 ≤ captureArea)
    (h : capCommit s r = (t, true)) : capPut s r = t := by
  have hfits : (!s.plane.capture.sink63 && !s.plane.capture.wrap && decide (captureArea < s.plane.capture.areaBytes + r.size + 48)) = false := by
    rcases hroom with hsink | hwrap | hroom
    · simp [hsink]
    · simp [hwrap]
    · simp [hroom]
  simp [capPut, hrun, hstop, hfits, capTake_takes hgap h]

theorem capPut_stops {s t : State} {r : CapRecord} (hrun : s.plane.capture.running = true) (hstop : isStopMark r = true)
    (hgap : s.plane.capture.gapDue = 0) (h : capCommit s r = (t, true)) : capPut s r =
      (flush63 t).onCapture fun c => { c with running := false, closing := false, stopped := true } := by
  simp only [capPut, hrun, hstop, capEnd, capTake_takes hgap h, Bool.not_true, Bool.false_eq_true, if_false, if_true]
  rfl

/-- What L9 leaves when it gives up its one item. -/
def emptied9 (s : State) (n : Nat) : State :=
  let u := s.onPlane fun p => { p with landings := vmod p.landings 9 fun x => { x with released := n + 1 } }
  u.onPlane fun p => { p with landings := vmod p.landings 9 fun x => { x with items := (vget u.plane.landings 9).items.filter fun y => !itemDue u n y.stamp } }

theorem landingRelease_capture (n : Nat) (s : State) (it : LandItem) (r : CapRecord) (hrun : s.plane.running = true)
    (hn : n = (vget s.plane.landings 9).released) (hpast : n < s.wallTick) (hready : landingReady s 9 n = true)
    (hone : (vget s.plane.landings 9).items = [it]) (hcaps : it.caps = [r]) (htick : it.stamp.tick ≤ n) :
    landingRelease s 9 n = finishStop (capPut (emptied9 s n) r) := by
  let u := s.onPlane fun p => { p with landings := vmod p.landings 9 fun x => { x with released := n + 1 } }
  have hitems : (vget u.plane.landings 9).items = [it] := (congrArg Landing.items (vget_vmod_same _ _ _ (by omega))).trans hone
  have hdue : itemDue u n it.stamp = true := by simp [itemDue, htick]
  have htake : ((vget u.plane.landings 9).items.filter fun y => itemDue u n y.stamp) = [it] := by
    rw [hitems, List.filter_cons, hdue, if_pos rfl, List.filter_nil]
  have hstep : releaseTick s 9 n = releaseCaptures u n := by simp [releaseTick, u]
  rw [landingRelease_releases 9 n s hrun (by omega) hn hpast hready (.inl (by omega)), hstep]
  unfold releaseCaptures capRelease
  dsimp only
  rw [htake, List.foldl_cons, List.foldl_nil, hcaps]
  rfl

theorem finishStop_runs (s : State) (hrun : s.plane.capture.running = true) : finishStop s = s := by
  unfold finishStop
  rw [hrun]

theorem finishStop_ends (s : State) (hrun : s.plane.capture.running = false) : (finishStop s).plane.capture = { s.plane.capture with stopPacket := none } ∧
    ∀ p stop digest, s.plane.capture.stopPacket = some (p, stop, digest) → Completed p .ok s (finishStop s) := by
  unfold finishStop
  rw [hrun]
  cases hstop : s.plane.capture.stopPacket with
  | none => exact ⟨congrArg (fun o => { s.plane.capture with stopPacket := o }) hstop, fun p stop digest h => absurd h (by simp)⟩
  | some x =>
    obtain ⟨p, stop, digest⟩ := x
    refine ⟨?_, fun q stop' digest' h => ?_⟩
    · exact congrArg (fun c : Capture => { c with stopPacket := none }) (completeNow_capture s p .ok (stopReply s stop digest))
    · obtain ⟨rfl, -, -⟩ : p = q ∧ stop = stop' ∧ digest = digest' := by simpa using h
      exact completeNow_completed s p .ok (stopReply s stop digest)

theorem release_toArea (n : Nat) (s : State) (it : LandItem) (r : CapRecord) (hrun : s.plane.running = true)
    (hn : n = (vget s.plane.landings 9).released) (hpast : n < s.wallTick) (hready : landingReady s 9 n = true)
    (hone : (vget s.plane.landings 9).items = [it]) (hcaps : it.caps = [r]) (htick : it.stamp.tick ≤ n) (hcapture : s.plane.capture.running = true)
    (hgap : s.plane.capture.gapDue = 0) (hsink : s.plane.capture.sink63 = false)
    (hroom : s.plane.capture.wrap = true ∨ s.plane.capture.areaBytes + r.size + (if isStopMark r then 0 else 48) ≤ captureArea) :
    ∃ t, exec (.landingRelease 9 n) s = .next t ∧ t.plane.capture.area.getLast? = some r ∧
      t.plane.capture.records = s.plane.capture.records + 1 ∧ t.plane.capture.running = !isStopMark r ∧
      (isStopMark r = true → t.plane.capture.stopped = true ∧ t.plane.capture.stopPacket = none ∧
        ∀ p stop digest, s.plane.capture.stopPacket = some (p, stop, digest) → Completed p .ok s t) := by
  let u := emptied9 s n
  obtain ⟨a, m, hcommit⟩ := capCommit_area u r hsink (hroom.imp_right fun h => le_trans (Nat.le_add_right _ _) h)
  have hrelease := landingRelease_capture n s it r hrun hn hpast hready hone hcaps htick
  cases hstop : isStopMark r
  · rw [hstop] at hroom
    rw [capPut_takes (s := emptied9 s n) hcapture hstop hgap (.inr hroom) hcommit, finishStop_runs _ (by exact hcapture)] at hrelease
    exact ⟨_, congrArg (effect s) hrelease, List.getLast?_concat, rfl, hcapture, fun h => absurd h Bool.false_ne_true⟩
  · let v := u.onCapture fun c => { c with area := a ++ [r], areaBytes := m, records := c.records + 1 }
    obtain ⟨⟨x, hflush⟩, hclock⟩ := flush63_keeps v
    let w := (flush63 v).onCapture fun c => { c with running := false, closing := false, stopped := true }
    have hw : w.plane.capture = { s.plane.capture with
        area := a ++ [r], areaBytes := m, records := s.plane.capture.records + 1, tailBytes := x, running := false, closing := false, stopped := true } := by
      simp only [w, State.onCapture, onPlane_plane, hflush]
      rfl
    rw [capPut_stops (s := emptied9 s n) hcapture hstop hgap hcommit] at hrelease
    obtain ⟨hend, hdone⟩ := finishStop_ends w (by rw [hw])
    rw [hw] at hend hdone
    have hend' : ((finishStop w).withPending s.pending).plane.capture = _ := hend
    refine ⟨(finishStop w).withPending s.pending, congrArg (effect s) hrelease, ?_, ?_, ?_, fun _ => ⟨?_, ?_, fun p stop digest h => ?_⟩⟩
    · rw [hend']
      exact List.getLast?_concat
    · rw [hend']
    · rw [hend']
      rfl
    · rw [hend']
    · rw [hend']
    · exact Completed.of_clock (hdone p stop digest h) hclock

theorem release_toRing (n : Nat) (s : State) (it : LandItem) (r : CapRecord) (hrun : s.plane.running = true)
    (hn : n = (vget s.plane.landings 9).released) (hpast : n < s.wallTick) (hready : landingReady s 9 n = true)
    (hone : (vget s.plane.landings 9).items = [it]) (hcaps : it.caps = [r]) (htick : it.stamp.tick ≤ n) (hcapture : s.plane.capture.running = true)
    (hgap : s.plane.capture.gapDue = 0) (l : List Byte) (hstop : isStopMark r = false) (hsink : s.plane.capture.sink63 = true)
    (hl : l = s.plane.capture.tailBytes ++ r.encode) (hsize : (s.ring 63).size ≠ 0)
    (hroom : (s.plane.capture.tailBytes.length + r.size) / 64 ≤ (s.ring 63).room) :
    ∃ t, exec (.landingRelease 9 n) s = .next t ∧ t.plane.capture.records = s.plane.capture.records + 1 ∧
      t.plane.capture.tailBytes = l.drop (64 * (l.length / 64)) ∧
      (t.ring 63).tail = ((s.ring 63).tail + l.length / 64) % (s.ring 63).size := by
  obtain ⟨m, hcapture'⟩ := streamTo63_capture (emptied9 s n) r.encode
  obtain ⟨hbytes, htail⟩ := streamTo63_writes (emptied9 s n) r.encode l hl
  have hrelease := landingRelease_capture n s it r hrun hn hpast hready hone hcaps htick
  rw [capPut_takes (s := emptied9 s n) hcapture hstop hgap (.inl hsink) (capCommit_ring (emptied9 s n) r hsink hsize hroom), finishStop_runs] at hrelease
  · exact ⟨_, congrArg (effect s) hrelease, (congrArg (fun c : Capture => c.records + 1) hcapture' :), hbytes, htail⟩
  · exact (congrArg Capture.running hcapture').trans hcapture

/-- Settles O20: captures are armed, started, stopped and marked, and L9 gives their records to the sinks. -/
theorem capturesArmStopAndMark : Obligations.CapturesArmStopAndMark := by
  refine ⟨fun p s h harmed hcapture hreplay htrial hlater => captureStart_arms p s h harmed hcapture hreplay htrial hlater,
    fun p s h harmed hcapture hreplay htrial hnow hsink hwrap => ?_, fun p s h hidle => captureStop_disarms p s h hidle,
    fun p s h hrun hopen => captureStop_closes p s h hrun hopen,
    fun s hrun hopen hsome hnext hdue => captureCheckpoint_marks s hrun hopen hsome hnext hdue,
    fun n s it r hrun hn hpast hready hone hcaps hepoch htick hcapture hgap => ⟨fun hsink hroom => ?_, fun l hstop hsink hl hsize hroom => ?_⟩⟩
  · obtain ⟨t, hexec, hdone, hreply, hstarted⟩ := captureStart_starts p s h harmed hcapture hreplay htrial hnow hsink hwrap
    exact ⟨t, hexec, hdone, hreply, by rw [hstarted]; rfl, by rw [hstarted]; rfl, by rw [hstarted]; rfl, by rw [hstarted]; rfl, by rw [hstarted]; rfl⟩
  · exact release_toArea n s it r hrun hn hpast hready hone hcaps htick hcapture hgap hsink hroom
  · exact release_toRing n s it r hrun hn hpast hready hone hcaps htick hcapture hgap l hstop hsink hl hsize hroom

end Sys2Proof.Machine

namespace Sys2Proof.Machine

open Sys2Proof.Claims

/-! A packet whose ring has admitted it with no slot: the header of its reply takes 16 bytes at the slot's address all the same (R77). -/

/-- The keeper holds a packet that ring 0 has admitted in slot 0 with no slot. -/
def withSlotless (p : Packet) (s : State) : State :=
  (s.onRing 0 fun g => { g with admitted := [{ slot := p.slot, slots := 0, arrival := p.arrival }] }).onPlane fun q => { q with keeper := [p] }

theorem head_of_memReadN {s : State} {a n : Nat} {x : Byte} {l : List Byte} (h : memReadN s a (n + 1) = x :: l) : memRead s a = x := by
  unfold memReadN at h
  rw [List.range_succ_eq_map, List.map_cons] at h
  exact (List.cons.inj h).1

/-- A completion leaves the header, whose first byte is that of the status, at the address of the packet's slot. -/
theorem completeNow_first (s : State) (p : Packet) (r : Reply) (a : Nat) (hwf : Tbl.wf 0 s.mem = true) (hshown : replyHidden p s = false)
    (haddr : (s.ring p.ring).replyAddr p.slot (some p.arrival) = some a) : memRead (completeNow s p .ok r) a = 0 :=
  head_of_memReadN (completeNow_writes s p .ok r a hwf hshown haddr).1

theorem packetOut_wf (p : Packet) (s : State) (a : Nat) (l : List Byte) (hwf : Tbl.wf 0 s.mem = true) : Tbl.wf 0 (packetOut p s a l).mem = true := by
  unfold packetOut memOut
  dsimp only
  split_ifs
  · exact hwf
  · exact memWriteN_wf _ _ _ (memWriteN_wf _ _ _ hwf)
  · exact memWriteN_wf _ _ _ hwf

theorem packetOut_plane (p : Packet) (s : State) (a : Nat) (l : List Byte) : (packetOut p s a l).plane = s.plane := by
  unfold packetOut memOut
  dsimp only
  split_ifs
  · rfl
  · rw [memWriteN_plane, memWriteN_plane]
  · exact memWriteN_plane ..

/-- Output that begins with another byte than the status, at the address of a packet without slots, does not stand there once the packet has completed. -/
theorem not_wrote_slotless {p : Packet} {s u t : State} {a : Nat} {r : Reply} {x : Byte} {l : List Byte}
    (hexec : t = (completeNow u p .ok r).withPending s.pending) (hx : x ≠ 0) (hwf : Tbl.wf 0 s.mem = true) (htrial : trialRuns s = false)
    (hshown : replyHidden p s = false) (haddr : (s.ring p.ring).replyAddr p.slot (some p.arrival) = some a)
    (hslots : (s.ring p.ring).replySlots p = 0) (hwf' : Tbl.wf 0 u.mem = true) (hrings : u.plane.rings = s.plane.rings)
    (hreplay : u.plane.replay = s.plane.replay) : ¬ Wrote p s t a (x :: l) := by
  intro hwrote
  have hread := hwrote hwf htrial hshown fun b hb => .inl (by
    rw [haddr] at hb
    rw [hslots, Option.some.inj hb]
    omega)
  have hshown' : replyHidden p u = false := by simpa only [replyHidden, hreplay] using hshown
  have haddr' : (u.ring p.ring).replyAddr p.slot (some p.arrival) = some a := by simpa only [State.ring, hrings] using haddr
  have hfirst : memRead t a = 0 := by
    rw [hexec]
    exact completeNow_first u p r a hwf' hshown' haddr'
  exact hx ((head_of_memReadN hread).symm.trans hfirst)

/-- ATTEST of a report to the packet's own slot. -/
def attestHere : Packet := command 0x0B10 2 8000 [(20, 4, keeperBase)]

/-- Lantern, with this packet in no slot. -/
def attesting : State := withSlotless attestHere awake

/-- A word of four bytes that begins with a byte, ahead of anything. -/
theorem leBytes_first (n v : Nat) (l : List Byte) : ∃ m, leBytes (n + 1) v ++ l = BitVec.ofNat 8 v :: m := ⟨leBytes n (v / 256) ++ l, rfl⟩

theorem attestBody_first (s : State) (nonce user : List Byte) : ∃ l, attestBody s nonce user = BitVec.ofNat 8 0x54535441 :: l := by
  unfold attestBody
  simp only [List.append_assoc]
  exact leBytes_first 3 0x54535441 _

theorem padTo_cons (n : Nat) (x : Byte) (l : List Byte) : padTo (n + 1) (x :: l) = x :: padTo n l := by
  simp [padTo]

theorem attestReport_first (s : State) (nonce user : List Byte) : ∃ l, attestReport s nonce user = BitVec.ofNat 8 0x54535441 :: l := by
  obtain ⟨l, hl⟩ := attestBody_first s nonce user
  unfold attestReport
  dsimp only
  rw [hl, List.cons_append, padTo_cons]
  exact ⟨_, rfl⟩

theorem attest_overwritten {p : Packet} {s t : State} (hruns : KeeperRuns attestOp p s) (hexec : exec (.attest p) s = .next t) (hreport : p.bit 16 0 = false)
    (hwf : Tbl.wf 0 s.mem = true) (htrial : trialRuns s = false) (hshown : replyHidden p s = false)
    (haddr : (s.ring p.ring).replyAddr p.slot (some p.arrival) = some (p.num 20 4)) (hslots : (s.ring p.ring).replySlots p = 0) :
    ¬ Wrote p s t (p.num 20 4) (attestReport s ((p.bytes.drop 24).take 32) ((p.bytes.drop 64).take 64)) := by
  let w := packetOut p (release s p) (p.num 20 4) (attestReport (release s p) ((p.bytes.drop 24).take 32) ((p.bytes.drop 64).take 64))
  have hrun : attestOp.run p (release s p) = { s := keyedOut p w 3309, reply := [(16, 2, 3669)] } := by
    simp only [attestOp, hreport, Bool.false_eq_true, if_false]
    rfl
  have hplane : w.plane = (release s p).plane := packetOut_plane ..
  have hstep : exec (.attest p) s = .next ((completeNow (keyedOut p w 3309) p .ok [(16, 2, 3669)]).withPending s.pending) :=
    congrArg (effect s) (keeperTake_answers hruns rfl hrun rfl)
  obtain ⟨l, hl⟩ := attestReport_first s ((p.bytes.drop 24).take 32) ((p.bytes.drop 64).take 64)
  rw [hl]
  exact not_wrote_slotless (u := keyedOut p w 3309) (by injection hexec.symm.trans hstep) (by decide) hwf htrial hshown haddr hslots
    (packetOut_wf p (release s p) _ _ hwf) (congrArg Plane.rings hplane :) (congrArg Plane.replay hplane :)

/-- Refutes O58: a packet that its ring has admitted with no slot leaves the 16 bytes of its reply's header at its slot's address, where the report of ATTEST
may have been written; the clauses on output keep only the slots that the ring has admitted free of it. -/
theorem not_imagesAndDebugAct : ¬ Obligations.ImagesAndDebugAct := by
  intro h
  obtain ⟨-, -, -, -, -, -, -, -, -, -, hattest, -, -⟩ := h
  have hholds : KeeperRuns attestOp attestHere attesting ∧ attestHere.bit 16 0 = false ∧ trialRuns attesting = false ∧
      replyHidden attestHere attesting = false ∧ (attesting.ring 0).replyAddr 0 (some attestHere.arrival) = some (attestHere.num 20 4) ∧
      (attesting.ring 0).replySlots attestHere = 0 := by decide +kernel
  obtain ⟨hruns, hreport, htrial, hshown, haddr, hslots⟩ := hholds
  obtain ⟨t, hexec, -, -, -, hwrote⟩ := (hattest attestHere attesting hruns).1 hreport
  exact attest_overwritten hruns hexec hreport (by decide +kernel) htrial hshown haddr hslots hwrote

/-- KEY.INFO of slot 16, its public part to the packet's own slot. -/
def infoHere : Packet := command 0x0A02 2 8000 [(16, 1, 16), (20, 4, keeperBase)]

/-- Lantern, with this packet in no slot, and a public key in slot 16. -/
def informing : State :=
  withSlotless infoHere { awake with store := { awake.store with keys := [(16, { alg := 5, material := [0x41] })] } }

theorem keyInfo_overwritten {p : Packet} {s t : State} (hruns : KeeperRuns keyInfoOp p s) (hexec : exec (.keyInfo p) s = .next t) (hout : p.num 20 4 ≠ 0)
    (hsome : (kiPublic p s).isEmpty = false) {x : Byte} {l : List Byte} (hfirst : kiPublic p s = x :: l) (hx : x ≠ 0)
    (hwf : Tbl.wf 0 s.mem = true) (htrial : trialRuns s = false) (hshown : replyHidden p s = false)
    (haddr : (s.ring p.ring).replyAddr p.slot (some p.arrival) = some (p.num 20 4)) (hslots : (s.ring p.ring).replySlots p = 0) :
    ¬ Wrote p s t (p.num 20 4) (kiPublic p s) := by
  let w := packetOut p (release s p) (p.num 20 4) (padBlocks (kiPublic p (release s p)))
  have hsome' : (kiPublic p (release s p)).isEmpty = false := hsome
  obtain ⟨r, hrun⟩ : ∃ r, keyInfoOp.run p (release s p) = { s := w, reply := r } := by
    simp only [keyInfoOp, hsome', hout, ne_eq, not_false_eq_true, Bool.false_eq_true, and_false, if_false]
    exact ⟨_, rfl⟩
  have hplane : w.plane = (release s p).plane := packetOut_plane ..
  have hstep : exec (.keyInfo p) s = .next ((completeNow w p .ok r).withPending s.pending) :=
    congrArg (effect s) (keeperTake_answers hruns rfl hrun rfl)
  rw [hfirst]
  exact not_wrote_slotless (u := w) (by injection hexec.symm.trans hstep) hx hwf htrial hshown haddr hslots
    (packetOut_wf p (release s p) _ _ hwf) (congrArg Plane.rings hplane :) (congrArg Plane.replay hplane :)

/-- Refutes O57: a packet that its ring has admitted with no slot leaves the 16 bytes of its reply's header at its slot's address, where the public part that
KEY.INFO writes may stand; the clauses on output keep only the slots that the ring has admitted free of it. -/
theorem not_cipherAndKeysAct : ¬ Obligations.CipherAndKeysAct := by
  intro h
  obtain ⟨-, -, -, -, -, -, -, -, -, -, -, -, -, -, -, -, hinfo, -⟩ := h
  have hholds : KeeperRuns keyInfoOp infoHere informing ∧ infoHere.num 20 4 ≠ 0 ∧ (kiPublic infoHere informing).isEmpty = false ∧
      trialRuns informing = false ∧ replyHidden infoHere informing = false ∧
      (informing.ring 0).replyAddr 0 (some infoHere.arrival) = some (infoHere.num 20 4) ∧ (informing.ring 0).replySlots infoHere = 0 := by decide +kernel
  obtain ⟨hruns, hout, hsome, htrial, hshown, haddr, hslots⟩ := hholds
  obtain ⟨t, hexec, -, hwrote, -⟩ := (hinfo infoHere informing hruns).2.1 hout hsome
  have hkey : kiPublic infoHere informing = padTo (1951 + 1) [0x41] := by decide +kernel
  exact keyInfo_overwritten hruns hexec hout hsome (hkey.trans (padTo_cons 1951 0x41 [])) (by decide) (by decide +kernel) htrial hshown haddr hslots hwrote

/-- LOG.SEAL of the certificate, to the packet's own slot. -/
def certifyHere : Packet := command 0x0D03 1 8000 [(16, 1, 1), (20, 4, keeperBase)]

/-- Lantern, with this packet in no slot. -/
def certifying : State := withSlotless certifyHere awake

theorem sealCertificate_first (s : State) : ∃ l, padTo 5392 (sealCertificate s) = BitVec.ofNat 8 0x54524543 :: l := by
  obtain ⟨l, hl⟩ : ∃ l, sealCertificate s = BitVec.ofNat 8 0x54524543 :: l := by
    unfold sealCertificate certBody
    simp only [List.append_assoc]
    exact leBytes_first 3 0x54524543 _
  rw [hl, padTo_cons]
  exact ⟨_, rfl⟩

theorem logSeal_overwritten {p : Packet} {s t : State} (hruns : KeeperRuns logSealOp p s) (hexec : exec (.logSeal p) s = .next t) (hone : p.fld 16 0 2 = 1)
    (hwf : Tbl.wf 0 s.mem = true) (htrial : trialRuns s = false) (hshown : replyHidden p s = false)
    (haddr : (s.ring p.ring).replyAddr p.slot (some p.arrival) = some (p.num 20 4)) (hslots : (s.ring p.ring).replySlots p = 0) :
    ¬ Wrote p s t (p.num 20 4) (padTo 5392 (sealCertificate s)) := by
  let w := packetOut p (release s p) (p.num 20 4) (padTo 5392 (sealCertificate (release s p)))
  obtain ⟨r, hrun⟩ : ∃ r, logSealOp.run p (release s p) = { s := w, reply := r } := by
    simp only [logSealOp, hone, Nat.one_ne_zero, if_false, if_true]
    exact ⟨_, rfl⟩
  have hplane : w.plane = (release s p).plane := packetOut_plane ..
  have hstep : exec (.logSeal p) s = .next ((completeNow w p .ok r).withPending s.pending) :=
    congrArg (effect s) (keeperTake_answers hruns rfl hrun rfl)
  obtain ⟨l, hl⟩ := sealCertificate_first s
  rw [hl]
  exact not_wrote_slotless (u := w) (by injection hexec.symm.trans hstep) (by decide) hwf htrial hshown haddr hslots
    (packetOut_wf p (release s p) _ _ hwf) (congrArg Plane.rings hplane :) (congrArg Plane.replay hplane :)

/-- Refutes O60: a packet that its ring has admitted with no slot leaves the 16 bytes of its reply's header at its slot's address, where the certificate that
LOG.SEAL writes may stand; the clauses on output keep only the slots that the ring has admitted free of it. -/
theorem not_logbookTimeAndWatchAct : ¬ Obligations.LogbookTimeAndWatchAct := by
  intro h
  obtain ⟨-, -, -, -, -, hseal, -⟩ := h
  have hholds : KeeperRuns logSealOp certifyHere certifying ∧ certifyHere.fld 16 0 2 = 1 ∧ trialRuns certifying = false ∧
      replyHidden certifyHere certifying = false ∧ (certifying.ring 0).replyAddr 0 (some certifyHere.arrival) = some (certifyHere.num 20 4) ∧
      (certifying.ring 0).replySlots certifyHere = 0 := by decide +kernel
  obtain ⟨hruns, hone, htrial, hshown, haddr, hslots⟩ := hholds
  obtain ⟨t, hexec, -, -, hwrote, -⟩ := (hseal certifyHere certifying hruns).2.2.1 hone
  exact logSeal_overwritten hruns hexec hone (by decide +kernel) htrial hshown haddr hslots hwrote

end Sys2Proof.Machine

namespace Sys2Proof.Machine

open Sys2Proof.Claims

/-! The packet rows as takes, and packets that wait for their tick (R34, R35, R82). -/

/-- A row of the dispatcher takes its packet under its own opcode. -/
theorem exec_fastRow {c : Instr} {o : Op} {p : Packet} (h : fastRow c = some (o, p)) (s : State) : exec c s = effect s (fastTake o p s) := by
  cases c
  all_goals simp only [fastRow, Option.some.injEq, Prod.mk.injEq, reduceCtorEq] at h
  all_goals
    obtain ⟨rfl, rfl⟩ := h
    rfl

/-- A row of the keeper takes its packet under its own opcode. -/
theorem exec_keeperRow {c : Instr} {o : Op} {p : Packet} (h : keeperRow c = some (o, p)) (s : State) : exec c s = effect s (keeperTake o p s) := by
  cases c
  all_goals simp only [keeperRow, Option.some.injEq, Prod.mk.injEq, reduceCtorEq] at h
  all_goals
    obtain ⟨rfl, rfl⟩ := h
    rfl

/-- An effect that leaves the state as it was answers that state. -/
theorem effect_self (s : State) : effect s s = .next s := rfl

/-- What the dispatcher holds has been admitted. -/
theorem isHeld_of_isWaiting {s : State} {p : Packet} (h : isWaiting s p = true) : isHeld s p = true := by simp [isHeld, h]

/-- What the keeper holds has been admitted. -/
theorem isHeld_of_keeper {s : State} {p : Packet} (h : s.plane.keeper.contains p = true) : isHeld s p = true := by simp only [isHeld, h, Bool.or_true, Bool.true_or]

/-- A fast packet outside a flight waits in the dispatcher until its tick (R34, R82). -/
theorem runFast_early {o : Op} {p : Packet} {s : State} (hlive : replayShuts p s = false) (halone : p.inFlight = false)
    (hearly : s.plane.tick < readyTick p s) : runFast o p s = fastHold p s := by
  simp [runFast, hlive, halone, hearly]

/-- A keeper packet with effects at E waits with the keeper, which has finished it (R35). -/
theorem runKeeper_early {o : Op} {p : Packet} {s : State} (hlive : replayShuts p s = false) (halone : p.inFlight = false)
    (hreach : keeperReaches p s = true) (heffects : timeless p = false) (hearly : s.plane.tick < dueTick false p s) :
    runKeeper o p s = keeperFinish p s := by
  simp [runKeeper, hlive, halone, hreach, waitsForE, heffects, hearly]

/-- A packet that waits already is held as it is. -/
theorem fastHold_waiting {s : State} {p : Packet} (h : isWaiting s p = true) : fastHold p s = s := by simp only [fastHold, h, if_true]

/-- A packet that does not wait yet joins the dispatcher's list where it has room (R82). -/
theorem fastHold_joins {s : State} {p : Packet} (h : isWaiting s p = false) (hroom : s.plane.waiting.length < 1024) :
    fastHold p s = s.onPlane fun q => { q with waiting := q.waiting ++ [{ p := p }] } := by
  simp only [fastHold, h, hroom, if_true, Bool.false_eq_true, if_false]

/-- The list of finished packets with one more, once. -/
def finishedWith (l : List Packet) (p : Packet) : List Packet := if l.contains p then l else l ++ [p]

theorem finishedWith_contains (l : List Packet) (p : Packet) : (finishedWith l p).contains p = true := by
  unfold finishedWith
  split
  · assumption
  · simp

/-- The keeper marks a packet that it holds as finished. -/
theorem keeperFinish_held {s : State} {p : Packet} (h : s.plane.keeper.contains p = true) :
    keeperFinish p s = s.onPlane fun q => { q with finished := finishedWith q.finished p } := by
  simp only [keeperFinish, keeperHold, h, if_true, finishedWith]

/-- A packet at the head of its ring lies in a packet ring. -/
theorem ring_of_mayAdmit {s : State} {p : Packet} (hreplay : s.plane.replay.running = false) (h : mayAdmit p s = true) : p.ring ∈ packetRings := by
  have hhead : atHead p s = true := by
    simp only [mayAdmit, isReplayed, hreplay, Bool.false_and, Bool.false_or, Bool.and_eq_true] at h
    exact h.1
  simp only [atHead, Bool.and_eq_true, List.contains_iff_mem] at hhead
  exact hhead.1.1

theorem packetRings_lt {r : Nat} (h : r ∈ packetRings) : r < 64 := by
  revert r
  decide

/-- Outside a replay a packet is admitted from its ring: the rings change and nothing else (R75, R88). -/
theorem admitPacket_rings {s : State} {p : Packet} (hreplay : s.plane.replay.running = false) :
    ∃ rings, admitPacket p s = s.onPlane fun q => { q with rings := rings } := by
  simp only [admitPacket, isReplayed, hreplay, Bool.false_and, Bool.false_eq_true, if_false, interruptFlight]
  split <;> exact ⟨_, rfl⟩

/-- A flight that is interrupted stays among the ring's, and what the ring holds outstanding stays. -/
theorem interruptFlight_admitted (s : State) (p : Packet) (r : Nat) : ((interruptFlight p s).ring r).admitted = (s.ring r).admitted := by
  unfold interruptFlight
  split
  · rfl
  · refine vget_vmod_proj s.plane.rings p.ring r _ Ring.admitted fun g => ?_
    split
    · split <;> rfl
    · rfl

/-- A packet that is admitted from its ring is outstanding there (R75). -/
theorem admitPacket_outstanding {s : State} {p : Packet} (hreplay : s.plane.replay.running = false) (hr : p.ring < 64) :
    (((admitPacket p s).ring p.ring).admitted.any fun a => a.slot == p.slot && !a.done) = true := by
  have hring : ((takeIn s p).ring p.ring).admitted = _ := congrArg Ring.admitted (vget_vmod_same s.plane.rings p.ring _ hr)
  simp only [admitPacket, isReplayed, hreplay, Bool.false_and, Bool.false_eq_true, if_false, interruptFlight_admitted, hring]
  simp

/-- Settles O12. -/
theorem packetsWaitForTheirTick : Obligations.PacketsWaitForTheirTick := by
  unfold Obligations.PacketsWaitForTheirTick
  refine ⟨fun c o p s hrow hcode halone hlive hearly hwait => ?_, fun c o p s hrow hcode halone hreplay hearly hheld hadmit hroom => ?_,
    fun c o p s hrow hcode halone hlive heffects hearly hkeeper hreach => ?_⟩
  · have htake : fastTake o p s = s := by
      simp only [fastTake, hcode, ne_eq, not_true_eq_false, if_false, isHeld_of_isWaiting hwait, if_true, runFast_early hlive halone hearly,
        fastHold_waiting hwait]
    rw [exec_fastRow hrow, htake, effect_self]
  · obtain ⟨rings, hrings⟩ := admitPacket_rings (p := p) hreplay
    have hout := admitPacket_outstanding (p := p) hreplay (packetRings_lt (ring_of_mayAdmit hreplay hadmit))
    have hfree : isWaiting s p = false := by
      simp only [isHeld, Bool.or_eq_false_iff] at hheld
      exact hheld.1.1
    have htake : fastTake o p s = (admitPacket p s).onPlane fun q => { q with waiting := q.waiting ++ [{ p := p }] } := by
      simp only [fastTake, hcode, ne_eq, not_true_eq_false, if_false, hheld, Bool.false_eq_true, hadmit, if_true]
      have hlive : replayShuts p (admitPacket p s) = false := by rw [hrings]; simp [replayShuts, State.onPlane, hreplay]
      have hlater : (admitPacket p s).plane.tick < readyTick p (admitPacket p s) := by rw [hrings]; exact hearly
      rw [runFast_early hlive halone hlater, fastHold_joins (by rw [hrings]; exact hfree) (by rw [hrings]; exact hroom)]
    refine ⟨_, (exec_fastRow hrow s).trans (congrArg (effect s) htake), ?_, hout, fun x hx => ?_⟩
    · simp [isWaiting, State.onPlane]
    · rw [hrings]
      cases x
      case planeWaiting | planeRings => exact absurd (by decide) hx
      all_goals rfl
  · have htake : keeperTake o p s = s.onPlane fun q => { q with finished := finishedWith q.finished p } := by
      simp only [keeperTake, hcode, ne_eq, not_true_eq_false, if_false, isHeld_of_keeper hkeeper, if_true,
        runKeeper_early hlive halone hreach heffects hearly, keeperFinish_held hkeeper]
    refine ⟨_, (exec_keeperRow hrow s).trans (congrArg (effect s) htake), rfl, finishedWith_contains _ _, fun x hx => ?_⟩
    cases x
    case planeFinished => exact absurd rfl hx
    all_goals rfl

end Sys2Proof.Machine

namespace Sys2Proof.Machine

open Sys2Proof.Claims

/-! What enters and leaves the Ethernet switch touches the switch, the cipher engine and the watch room only. -/

/-- The state but for the switch, the cipher engine and the watch room. -/
def State.outsideSwitch (s : State) : State := { s with eth := {}, cipher := {}, watch := {} }

@[simp] theorem bump_outsideSwitch (s : State) (cls index n : Nat) (hall : Option Nat) : (bump s cls index n hall).outsideSwitch = s.outsideSwitch := rfl

@[simp] theorem meterAdd_outsideSwitch (s : State) (port rx tx : Nat) : (meterAdd s port rx tx).outsideSwitch = s.outsideSwitch := rfl

@[simp] theorem onEth_outsideSwitch (s : State) (f : Eth → Eth) : (s.onEth f).outsideSwitch = s.outsideSwitch := rfl

@[simp] theorem onCipher_outsideSwitch (s : State) (f : Cipher → Cipher) : (s.onCipher f).outsideSwitch = s.outsideSwitch := rfl

@[simp] theorem onPort_outsideSwitch (s : State) (n : Nat) (f : EthPort → EthPort) : (s.onPort n f).outsideSwitch = s.outsideSwitch := rfl

@[simp] theorem onCnt_outsideSwitch (s : State) (n : Nat) (f : EthCounters → EthCounters) : (s.onCnt n f).outsideSwitch = s.outsideSwitch := rfl

@[simp] theorem portDrop_outsideSwitch (s : State) (n : Nat) (f : EthCounters → EthCounters) : (portDrop s n f).outsideSwitch = s.outsideSwitch := rfl

@[simp] theorem countRx_outsideSwitch (s : State) (n : Nat) (bytes : Nat) : (countRx s n bytes).outsideSwitch = s.outsideSwitch := by
  unfold countRx
  split <;> rfl

@[simp] theorem countTx_outsideSwitch (s : State) (n : Nat) (bytes : Nat) : (countTx s n bytes).outsideSwitch = s.outsideSwitch := by
  unfold countTx
  split <;> rfl

@[simp] theorem holdFrame_outsideSwitch (s : State) (n : Nat) (f : EthFrame) (t : SecTag) : (holdFrame s n f t).outsideSwitch = s.outsideSwitch := by
  unfold holdFrame
  dsimp only
  split <;> simp

@[simp] theorem enqueue_outsideSwitch (s : State) (port : Nat) (q : Queued) : (enqueue s port q).1.outsideSwitch = s.outsideSwitch := by
  unfold enqueue
  split <;> rfl

@[simp] theorem learn_outsideSwitch (s : State) (mac vid port : Nat) : (learn s mac vid port).outsideSwitch = s.outsideSwitch := by
  unfold learn
  split <;> rfl

@[simp] theorem forward_outsideSwitch (s : State) (q : Queued) (v : Vlan) (ports : List Nat) : (forward s q v ports).1.outsideSwitch = s.outsideSwitch := by
  unfold forward
  exact List.foldlRecOn (motive := fun a : State × Nat × Nat => a.1.outsideSwitch = s.outsideSwitch) ports _ rfl
    fun a ha n _ => (enqueue_outsideSwitch a.1 n _).trans ha

@[simp] theorem timeFrame_outsideSwitch (s : State) (n : Nat) (f : EthFrame) : (timeFrame s n f).outsideSwitch = s.outsideSwitch := by
  unfold timeFrame
  split <;> rfl

@[simp] theorem dropCommand_outsideSwitch (s : State) : (dropCommand s).outsideSwitch = s.outsideSwitch := rfl

@[simp] theorem switchIn_outsideSwitch (s : State) (n : Nat) (secure : Bool) (f : EthFrame) : (switchIn s n secure f).outsideSwitch = s.outsideSwitch := by
  unfold switchIn
  dsimp only
  (repeat' split)
  all_goals simp

@[simp] theorem ethReceive_outsideSwitch (s : State) (n : Nat) (f : EthFrame) : (ethReceive s n f).outsideSwitch = s.outsideSwitch := by
  unfold ethReceive
  dsimp only
  (repeat' split)
  all_goals simp

/-! Memory that events write lies in the slots of rings (R37, R38, R95, R391). -/

/-- Ring `r` keeps its place, and no byte outside its slots changes. -/
structure SlotsOnly (r : Nat) (s t : State) : Prop where
  base : (t.ring r).base = (s.ring r).base
  size : (t.ring r).size = (s.ring r).size
  outside : ∀ a, a < (s.ring r).base ∨ (s.ring r).base + 64 * (s.ring r).size ≤ a → memRead t a = memRead s a

theorem SlotsOnly.refl (r : Nat) (s : State) : SlotsOnly r s s := ⟨rfl, rfl, fun _ _ => rfl⟩

theorem SlotsOnly.trans {r : Nat} {s t u : State} (h : SlotsOnly r s t) (k : SlotsOnly r t u) : SlotsOnly r s u :=
  ⟨k.base.trans h.base, k.size.trans h.size, fun a ha => (k.outside a (by rw [h.base, h.size]; exact ha)).trans (h.outside a ha)⟩

/-- A state with the same memory and the same rings. -/
theorem SlotsOnly.of_same {r : Nat} {s t : State} (hring : t.ring r = s.ring r) (hmem : t.mem = s.mem) : SlotsOnly r s t :=
  ⟨by rw [hring], by rw [hring], fun a _ => by rw [memRead, hmem]; rfl⟩

/-- A change of a ring that keeps its place. -/
theorem slotsOnly_onRing (s : State) (r : Nat) (f : Ring → Ring) (hbase : ∀ g, (f g).base = g.base) (hsize : ∀ g, (f g).size = g.size) :
    SlotsOnly r s (s.onRing r f) :=
  ⟨vget_vmod_proj _ _ _ _ Ring.base hbase, vget_vmod_proj _ _ _ _ Ring.size hsize, fun _ _ => rfl⟩

theorem SlotsOnly.onRing {r : Nat} {s t : State} (h : SlotsOnly r s t) {f : Ring → Ring} (hbase : ∀ g, (f g).base = g.base)
    (hsize : ∀ g, (f g).size = g.size) : SlotsOnly r s (t.onRing r f) := h.trans (slotsOnly_onRing t r f hbase hsize)

theorem SlotsOnly.onWatch {r : Nat} {s t : State} (h : SlotsOnly r s t) {f : Watch → Watch} : SlotsOnly r s (t.onWatch f) := h.trans (.of_same rfl rfl)

theorem SlotsOnly.onEth {r : Nat} {s t : State} (h : SlotsOnly r s t) {f : Eth → Eth} : SlotsOnly r s (t.onEth f) := h.trans (.of_same rfl rfl)

theorem SlotsOnly.bump {r : Nat} {s t : State} (h : SlotsOnly r s t) {cls index n : Nat} {hall : Option Nat} : SlotsOnly r s (bump t cls index n hall) :=
  h.trans (.of_same rfl rfl)

/-- What is written slot by slot into slots of a ring. -/
theorem slotsOnly_slotWrites (r : Nat) (slot : Nat → Nat) (data : Nat → List Byte) (g : Ring) (l : List Nat) (s : State) (hring : s.ring r = g)
    (hslot : ∀ i ∈ l, slot i < g.size) (hdata : ∀ i, (data i).length ≤ 64) :
    SlotsOnly r s (l.foldl (fun u i => memWriteN u (g.slotAddr (slot i)) (data i)) s) := by
  induction l generalizing s with
  | nil => exact .refl r s
  | cons i l ih =>
    have hwrite : SlotsOnly r s (memWriteN s (g.slotAddr (slot i)) (data i)) := by
      have hplane := memWriteN_plane s (g.slotAddr (slot i)) (data i)
      refine ⟨by rw [State.ring, hplane]; rfl, by rw [State.ring, hplane]; rfl, fun a ha => memRead_memWriteN_out _ _ _ _ ?_⟩
      have := hslot i (List.mem_cons_self ..)
      have := hdata i
      rw [hring] at ha
      unfold Ring.slotAddr
      omega
    exact hwrite.trans (ih _ (by rw [State.ring, memWriteN_plane]; exact hring) fun j hj => hslot j (List.mem_cons_of_mem _ hj))

theorem base_countIrq (g : Ring) : (Ring.countIrq g).base = g.base := by
  unfold Ring.countIrq
  (repeat' split) <;> rfl

theorem size_countIrq (g : Ring) : (Ring.countIrq g).size = g.size := by
  unfold Ring.countIrq
  (repeat' split) <;> rfl

theorem slotsOnly_ringWrite (s : State) (r : Nat) (bytes : List Byte) (hsize : 0 < (s.ring r).size) : SlotsOnly r s (ringWrite s r bytes) := by
  unfold ringWrite
  dsimp only
  refine (slotsOnly_slotWrites r (fun i => ((s.ring r).tail + i) % (s.ring r).size) (fun i => (bytes.drop (64 * i)).take 64) (s.ring r) _ s rfl
    (fun i _ => Nat.mod_lt _ hsize) fun i => ?_).trans (slotsOnly_onRing _ r _ (fun g => base_countIrq _) fun g => size_countIrq _)
  rw [List.length_take]
  exact Nat.min_le_left ..

/-- Records of a dump ring are written in its slots alone (R392, R393). -/
theorem slotsOnly_dumpPut (s : State) (i : Nat) (rec_ skip : Nat → Nat → List Byte) (slots : Nat) {r : Nat} (hr : 60 + i = r) :
    SlotsOnly r s (dumpPut s i rec_ skip slots).1 := by
  subst hr
  unfold dumpPut
  dsimp only
  generalize (if (s.ring (60 + i)).size < (s.ring (60 + i)).tail + slots then (s.ring (60 + i)).size - (s.ring (60 + i)).tail else 0) = fill
  split
  · exact (slotsOnly_onRing s (60 + i) (·.drop 1) (fun _ => rfl) fun _ => rfl).trans (.of_same rfl rfl)
  · next hroom =>
    have hsize : 0 < (s.ring (60 + i)).size := Nat.pos_of_ne_zero fun h => hroom (.inl h)
    have hfinish (u : State) (bytes : List Byte) (n : Nat) (hu : SlotsOnly (60 + i) s u) :
        SlotsOnly (60 + i) s (((ringWrite u (60 + i) bytes).onRing (60 + i) fun g => { g with drops := 0 }).onWatch fun w =>
          { w with dump := vmod w.dump i fun d => { d with seq := n } }) :=
      (hu.trans (slotsOnly_ringWrite u (60 + i) bytes (hu.size ▸ hsize))).trans
        ((slotsOnly_onRing _ (60 + i) (fun g => { g with drops := 0 }) (fun _ => rfl) fun _ => rfl).trans (.of_same rfl rfl))
    split
    · exact hfinish s _ _ (.refl ..)
    · exact hfinish _ _ _ (slotsOnly_ringWrite s _ _ hsize)

/-- Reading a counter leaves rings and memory. -/
theorem readCounter_keeps (s : State) (h k : Nat) : (readCounter s h k).2.plane = s.plane ∧ (readCounter s h k).2.mem = s.mem := by
  unfold readCounter
  dsimp only
  (repeat' split) <;> exact ⟨rfl, rfl⟩

theorem hallBlock_keeps (s : State) (h : Nat) : (hallBlock s h).2.plane = s.plane ∧ (hallBlock s h).2.mem = s.mem :=
  List.foldlRecOn (motive := fun a : List Byte × State => a.2.plane = s.plane ∧ a.2.mem = s.mem) (List.range 16) _ ⟨rfl, rfl⟩ fun a ha k _ =>
    ⟨(readCounter_keeps a.2 h k).1.trans ha.1, (readCounter_keeps a.2 h k).2.trans ha.2⟩

theorem hallBlocks_keeps (s : State) (l : List Nat) : (hallBlocks s l).2.plane = s.plane ∧ (hallBlocks s l).2.mem = s.mem :=
  List.foldlRecOn (motive := fun a : List Byte × State => a.2.plane = s.plane ∧ a.2.mem = s.mem) l _ ⟨rfl, rfl⟩ fun a ha h _ =>
    ⟨(hallBlock_keeps a.2 h).1.trans ha.1, (hallBlock_keeps a.2 h).2.trans ha.2⟩

theorem portEntry_keeps (s : State) (last : Option (Nat × List Meter)) (n : Nat) :
    (portEntry s last n).2.plane = s.plane ∧ (portEntry s last n).2.mem = s.mem := by
  unfold portEntry
  dsimp only
  split <;> exact ⟨rfl, rfl⟩

theorem portEntries_keeps (s : State) (last : Option (Nat × List Meter)) (l : List Nat) :
    (portEntries s last l).2.plane = s.plane ∧ (portEntries s last l).2.mem = s.mem :=
  List.foldlRecOn (motive := fun a : List Byte × State => a.2.plane = s.plane ∧ a.2.mem = s.mem) l _ ⟨rfl, rfl⟩ fun a ha n _ =>
    ⟨(portEntry_keeps a.2 last n).1.trans ha.1, (portEntry_keeps a.2 last n).2.trans ha.2⟩

/-- What a dump record holds, and the state once it has been read. -/
def dumpBody (s : State) (i : Nat) : List Byte × State :=
  if i = 0 then hallBlocks s (bitList 9 (vget s.store.watch.dump i).mask)
  else portEntries s (vget s.watch.dump i).last (bitList portCount (vget s.store.watch.dump i).mask)

theorem dumpBody_keeps (s : State) (i : Nat) : (dumpBody s i).2.plane = s.plane ∧ (dumpBody s i).2.mem = s.mem := by
  unfold dumpBody
  split
  · exact hallBlocks_keeps s _
  · exact portEntries_keeps s _ _

/-- A reading of a dump ring writes the slots of that ring alone (R391). -/
theorem slotsOnly_watchDump (s : State) (r : Nat) : (r = 60 ∨ r = 61) ∧ SlotsOnly r s (watchDump s r) ∨ watchDump s r = s := by
  unfold watchDump
  dsimp only
  split
  · exact .inr rfl
  · next hdue =>
    have hr : r = 60 ∨ r = 61 := by
      simp only [not_or, not_and_or, not_not] at hdue
      exact hdue.1
    have hring : 60 + (r - 60) = r := by omega
    have hkeeps := dumpBody_keeps s (r - 60)
    unfold dumpBody at hkeeps
    generalize (if r - 60 = 0 then hallBlocks s (bitList 9 (vget s.store.watch.dump (r - 60)).mask)
      else portEntries s (vget s.watch.dump (r - 60)).last (bitList portCount (vget s.store.watch.dump (r - 60)).mask)) = body at hkeeps
    have hread : SlotsOnly r s body.2 := .of_same (congrArg (fun p => vget p.rings r) hkeeps.1 :) hkeeps.2
    have hput (u : State) (x y : Nat → Nat → List Byte) (n : Nat) (hu : SlotsOnly r s u) : SlotsOnly r s (dumpPut u (r - 60) x y n).1 :=
      hu.trans (slotsOnly_dumpPut u (r - 60) x y n hring)
    generalize (if r - 60 = 0 then (vget s.watch.dump (r - 60)).cleared else 0) = cleared
    refine .inl ⟨hr, ?_⟩
    split
    · exact (hput _ _ _ _ hread.onWatch).onWatch
    · exact hput _ _ _ _ hread.onWatch

/-- The capture unit's look at new packets leaves memory and the place of every ring. -/
theorem slotsOnly_captureVisible (r n : Nat) (s : State) : SlotsOnly r s (captureVisible r n s) := by
  induction n generalizing s with
  | zero => exact .refl r s
  | succ n ih =>
    unfold captureVisible
    dsimp only
    split
    · refine .trans ?_ (ih _)
      have hcapture (p : Packet) : SlotsOnly r s (captureCommand s p) := by
        unfold captureCommand capItem
        split
        · split
          · exact .of_same rfl rfl
          · exact .refl r s
        · exact .refl r s
      exact (hcapture _).trans (slotsOnly_onRing _ r _ (fun _ => rfl) fun _ => rfl)
    · exact .refl r s

/-- The packets of a command frame are copied into slots of ring 31 alone (R95). -/
theorem slotsOnly_acceptCommand (s : State) (n : Nat) (f : EthFrame) (sci seq count : Nat) (hsize : 0 < (s.ring 31).size) :
    SlotsOnly 31 s (acceptCommand s n f sci seq count) := by
  unfold acceptCommand
  dsimp only
  have hcopy (u : State) (hu : u.ring 31 = s.ring 31) := slotsOnly_slotWrites 31 (fun i => ((s.ring 31).tail + i) % (s.ring 31).size)
    (fun i => (f.body.drop (16 + 64 * i)).take 64) (s.ring 31) (List.range count) u hu (fun i _ => Nat.mod_lt _ hsize) fun i => by
      rw [List.length_take]
      exact Nat.min_le_left ..
  generalize 4096 = fuel
  have hfilled (u : State) (hu : SlotsOnly 31 s u) : SlotsOnly 31 s (captureVisible 31 fuel u) := hu.trans (slotsOnly_captureVisible 31 fuel u)
  refine (hfilled _ (.onRing ?_ (fun _ => by rfl) fun _ => by rfl)).bump.onEth
  refine .trans ?_ (hcopy _ (by rfl))
  exact .of_same rfl rfl

/-- A command frame writes memory in slots of ring 31 alone (R95). -/
theorem slotsOnly_commandFrame (s : State) (n : Nat) (f : EthFrame) : SlotsOnly 31 s (commandFrame s n f) := by
  have hreceive : SlotsOnly 31 s (ethReceive s n f) :=
    .of_same (congrArg (fun u => u.ring 31) (ethReceive_outsideSwitch s n f) :) (congrArg State.mem (ethReceive_outsideSwitch s n f) :)
  unfold commandFrame
  dsimp only
  generalize hu : (if onItsWay s n f = true then s else ethReceive s n f) = u
  have hstart : SlotsOnly 31 s u := by
    rw [← hu]
    split
    · exact .refl 31 s
    · exact hreceive
  refine hstart.trans ?_
  split
  · exact .refl 31 u
  · split
    · exact .of_same rfl rfl
    · split
      · exact .of_same rfl rfl
      · next hroom =>
        have hsize : 0 < (u.ring 31).size := by
          refine Nat.pos_of_ne_zero fun hzero => ?_
          simp only [not_or] at hroom
          obtain ⟨-, hcount, -, -, -, -, -, hfits, -⟩ := hroom
          exact hfits (lt_of_eq_of_lt (congrArg (· - 1) hzero : _) (by omega))
        exact (SlotsOnly.refl 31 u).onEth.trans (slotsOnly_acceptCommand _ n _ _ _ _ hsize)

/-- Bytes outside every ring stay where only slots of a ring are written. -/
theorem SlotsOnly.keeps {r : Nat} {s t : State} (h : SlotsOnly r s t) (hr : r < 64) {a : Nat} (ha : ¬ inRing s a) : memRead t a = memRead s a := by
  refine h.outside a ?_
  by_contra hin
  exact ha ⟨r, hr, by omega, by omega⟩

/-- Settles O10. -/
theorem eventsWriteSlotsOnly : Obligations.EventsWriteSlotsOnly := by
  unfold Obligations.EventsWriteSlotsOnly
  intro c s t a hrow hexec ha
  cases c
  all_goals simp only [writesSlotsOnly, Bool.false_eq_true] at hrow
  case captureCheckpoint =>
    obtain rfl := Host.Outcome.next.inj hexec
    show memRead (captureCheckpoint s) a = _
    have hmem : (captureCheckpoint s).mem = s.mem := by
      unfold captureCheckpoint capWrite
      dsimp only
      (repeat' split) <;> rfl
    rw [memRead, hmem]
    rfl
  case commandFrame n f =>
    obtain rfl := Host.Outcome.next.inj hexec
    exact (slotsOnly_commandFrame s n f).keeps (by decide) ha
  case watchDump r =>
    obtain rfl := Host.Outcome.next.inj hexec
    show memRead (watchDump s r) a = _
    rcases slotsOnly_watchDump s r with ⟨hr, hslots⟩ | hsame
    · exact hslots.keeps (by omega) ha
    · rw [hsame]

end Sys2Proof.Machine

namespace Sys2Proof.Machine

open Sys2Proof.Claims

/-! What runs beside the landings: it adds items to them, and neither the reach of the halls nor the status block changes. -/

/-- `t` comes from `s` by adding items to the landings: every hall reaches as far as before, the status block stays, and no item is lost. -/
structure Carries (s t : State) : Prop where
  reach : t.reach = s.reach
  status : t.plane.status = s.plane.status
  items : KeepsItems s t

theorem Carries.refl (s : State) : Carries s s := ⟨rfl, rfl, fun _ _ hx => hx⟩

theorem Carries.trans {s t u : State} (h : Carries s t) (h' : Carries t u) : Carries s u :=
  ⟨h'.reach.trans h.reach, h'.status.trans h.status, h.items.trans h'.items⟩

theorem Carries.of_plane {s t : State} (h : t.plane = s.plane) : Carries s t :=
  ⟨reach_of_plane h, by rw [h], keepsItems_of_landings (by rw [h])⟩

/-- What lies outside the plane changes freely. -/
theorem Carries.same {s t u : State} (h : Carries s t) (hplane : u.plane = t.plane) : Carries s u := h.trans (.of_plane hplane)

/-- A part of the plane beside the landings, the halls and the status block changes freely. -/
theorem Carries.onPlane {s t : State} (h : Carries s t) {f : Plane → Plane} (hreach : (t.onPlane f).reach = t.reach)
    (hstatus : (f t.plane).status = t.plane.status) (hitems : (f t.plane).landings = t.plane.landings) : Carries s (t.onPlane f) :=
  h.trans ⟨hreach, hstatus, keepsItems_of_landings hitems⟩

theorem Carries.onRing {s t : State} (h : Carries s t) {r : Nat} {f : Ring → Ring} : Carries s (t.onRing r f) := h.onPlane rfl rfl rfl

theorem Carries.onBus {s t : State} (h : Carries s t) {f : Bus → Bus} : Carries s (t.onBus f) := h.same rfl

theorem Carries.onCan {s t : State} (h : Carries s t) {c : Nat} {f : Can → Can} : Carries s (t.onCan c f) := h.same rfl

theorem Carries.onLin {s t : State} (h : Carries s t) {c : Nat} {f : Lin → Lin} : Carries s (t.onLin c f) := h.same rfl

theorem Carries.onEth {s t : State} (h : Carries s t) {f : Eth → Eth} : Carries s (t.onEth f) := h.same rfl

theorem Carries.onPort {s t : State} (h : Carries s t) {n : Nat} {f : EthPort → EthPort} : Carries s (t.onPort n f) := h.same rfl

theorem Carries.onCipher {s t : State} (h : Carries s t) {f : Cipher → Cipher} : Carries s (t.onCipher f) := h.same rfl

theorem Carries.onCtx {s t : State} (h : Carries s t) {k : Nat} {f : CipherCtx → CipherCtx} : Carries s (t.onCtx k f) := h.same rfl

theorem Carries.bump {s t : State} (h : Carries s t) {cls index n : Nat} {hall : Option Nat} : Carries s (bump t cls index n hall) := h.same rfl

theorem Carries.memWriteN {s t : State} (h : Carries s t) {a : Nat} {l : List Byte} : Carries s (memWriteN t a l) := h.same (memWriteN_plane t a l)

theorem Carries.landPut {s t : State} (h : Carries s t) {l : Nat} {it : LandItem} : Carries s (landPut t l it) :=
  h.trans ⟨reach_landPut t l it, rfl, fun k x hx => mem_landPut_old t l k it x hx⟩

theorem Carries.capItem {s t : State} (h : Carries s t) {r : CapRecord} {idx : Nat} : Carries s (capItem t r idx) := by
  unfold Machine.capItem
  split
  · exact h.landPut
  · exact h

theorem Carries.postEvent {s t : State} (h : Carries s t) {e : Ev} : Carries s (postEvent t e) := by
  unfold Machine.postEvent
  split
  · exact h
  · exact h.landPut

theorem Carries.observe {s t : State} (h : Carries s t) {hall idx : Nat} {w : List (Nat × PVal)} {es : List Ev} {caps : List CapRecord} :
    Carries s (observe t hall idx w es caps) := by
  refine h.trans ⟨reach_observe t hall idx w es caps, ?_, keepsItems_observe t hall idx w es caps⟩
  rw [observe_only]

/-- A fold carries where every step does. -/
theorem Carries.foldl {α : Type} {s t : State} (h : Carries s t) {f : State → α → State} (hstep : ∀ u a, Carries s u → Carries s (f u a)) {l : List α} :
    Carries s (l.foldl f t) := List.foldlRecOn (motive := Carries s) l f h fun u hu a _ => hstep u a hu

/-! Completions (R76–R79) carry. -/

theorem Carries.completeAt {s t : State} (h : Carries s t) {p : Packet} {st : Status} {r : Reply} {done : Stamp} :
    Carries s (completeAt t p st r done) := by
  have hsettled : Carries s (if replyHidden p t = true then dropReplayed t p else retirePacket (writeReply t p st r done) p) := by
    split
    · exact h.onPlane rfl rfl rfl
    · exact (h.same (writeReply_plane t p st r done)).onRing
  unfold Machine.completeAt
  dsimp only
  split
  · exact (hsettled.onPlane rfl rfl rfl).postEvent
  · exact hsettled.onPlane rfl rfl rfl

theorem Carries.completeNow {s t : State} (h : Carries s t) {p : Packet} {st : Status} {r : Reply} : Carries s (completeNow t p st r) := h.completeAt

theorem Carries.endUnadmitted {s t : State} (h : Carries s t) {st : Status} {r n : Nat} : Carries s (endUnadmitted st r n t) := by
  induction n generalizing t with
  | zero => exact h
  | succ n ih =>
    rw [Machine.endUnadmitted]
    split
    · exact ih h.onRing.completeAt
    · exact h

theorem Carries.faultUnadmitted {s t : State} (h : Carries s t) {f : Nat → Bool} : Carries s (faultUnadmitted t f) :=
  h.foldl fun _ r hu => hu.endUnadmitted (n := 4096)

/-! Hall resets carry (R63, Table 01.5). -/

theorem Carries.cryptoDone {s t : State} (h : Carries s t) {r slot : Nat} {d : List Byte} {st : Nat} {trust : Bool} {iv : List Byte} {gen : Nat} :
    Carries s (cryptoDone t r slot d st trust iv gen) := by
  unfold Machine.cryptoDone
  dsimp only
  refine .onPlane (.onRing ?_) rfl rfl rfl
  split
  · exact (h.same (mirrorReply_plane ..)).memWriteN
  · exact h.same (mirrorReply_plane ..)

theorem Carries.noteIdle {s t : State} (h : Carries s t) : Carries s (noteIdle t) := by
  unfold Machine.noteIdle
  split
  · exact h.onCipher
  · exact h

theorem Carries.releaseCtx {s t : State} (h : Carries s t) {k : Nat} {rest : Option Nat} : Carries s (releaseCtx t k rest) := h.onCtx.onCipher.noteIdle

theorem Carries.failCtx {s t : State} (h : Carries s t) {k : Nat} {st : Status} : Carries s (failCtx t k st) := by
  unfold Machine.failCtx
  dsimp only
  split
  · exact h
  · split
    · exact h.cryptoDone.releaseCtx
    · exact h.releaseCtx

theorem Carries.ethEvent {s t : State} (h : Carries s t) {kind address value : Nat} : Carries s (ethEvent t kind address value) := by
  unfold Machine.ethEvent
  split
  · exact h.postEvent
  · exact h

theorem Carries.setLink {s t : State} (h : Carries s t) {n st : Nat} : Carries s (setLink t n st) := by
  unfold Machine.setLink
  split
  · exact h
  · exact h.onPort.ethEvent

theorem Carries.dropQueue {s t : State} (h : Carries s t) {n : Nat} : Carries s (dropQueue t n) := by
  unfold Machine.dropQueue
  dsimp only
  split
  · exact h
  · exact h.onPort.bump

theorem Carries.startPort {s t : State} (h : Carries s t) {n : Nat} : Carries s (startPort t n) := by
  unfold Machine.startPort
  split
  · exact h.onPort.setLink
  · exact h

theorem Carries.resetPacket {s t : State} (h : Carries s t) : Carries s (resetPacket t) := by
  unfold Machine.resetPacket
  exact .onEth (.foldl h.dropQueue.dropQueue fun _ _ hu => hu.dropQueue.setLink.startPort)

theorem Carries.cancelDecided {s t : State} (h : Carries s t) {p : Packet} {removed : Bool} : Carries s (cancelDecided t p removed) := by
  unfold Machine.cancelDecided
  dsimp only
  split
  · exact h
  · split
    · exact h.onBus.completeNow
    · exact h.onBus

theorem Carries.frameLeaves {s t : State} (h : Carries s t) {c : Nat} {f : TxFrame} {st : Status} {sent : Bool} :
    Carries s (frameLeaves t c f st sent) := by
  unfold Machine.frameLeaves
  dsimp only
  refine .foldl ?_ fun _ _ hu => hu.cancelDecided
  split
  · exact h.onCan.completeNow
  · exact h.onCan

theorem Carries.busEvent {s t : State} (h : Carries s t) {src kind address value : Nat} {point : Bool} :
    Carries s (busEvent t src kind address value point) := h.observe

theorem Carries.setCanState {s t : State} (h : Carries s t) {c st : Nat} : Carries s (setCanState t c st) := by
  unfold Machine.setCanState
  dsimp only
  split
  · exact h
  · split
    · exact h.onCan
    · exact h.onCan.busEvent

theorem Carries.resetController {s t : State} (h : Carries s t) {c : Nat} : Carries s (resetController t c) :=
  (h.foldl fun _ _ hu => hu.frameLeaves).onCan.setCanState

theorem Carries.resetLin {s t : State} (h : Carries s t) {c : Nat} : Carries s (resetLin t c) := h.onLin.foldl fun _ _ hu => hu.completeNow

theorem Carries.resetBus {s t : State} (h : Carries s t) : Carries s (resetBus t) :=
  .foldl (.onBus (.foldl (.foldl h fun _ _ hu => hu.resetController) fun _ _ hu => hu.resetLin)) fun _ _ hu => hu.completeNow

theorem Carries.hallResponse {s t : State} (h : Carries s t) {hall : Nat} : Carries s (hallResponse t hall) := by
  unfold Machine.hallResponse
  (repeat' split)
  · exact h.faultUnadmitted
  · exact h.foldl fun _ _ hu => hu.failCtx
  · exact h.resetPacket
  · exact h.resetBus
  · exact h

theorem Carries.hallReset {s t : State} (h : Carries s t) {hall : Nat} : Carries s (hallReset t hall) :=
  (h.hallResponse.same (u := clearWatchHall (Machine.hallResponse t hall) hall) rfl).postEvent

theorem Carries.spoilTentative {s t : State} (h : Carries s t) : Carries s (spoilTentative t) := by
  obtain ⟨x, hspoil⟩ := spoilTentative_only t
  rw [hspoil]
  exact h.same rfl

/-! Hall faults (R16, R26). -/

/-- A fault that is noted stays while items are added to the landings. -/
theorem HallFaulted.of_carries {s u t : State} {h cause : Nat} (hfault : HallFaulted s u h cause) (hmore : Carries u t) : HallFaulted s t h cause := by
  obtain ⟨hdropped, hcut, hleft, hstatus, hrun, hposted⟩ := hfault
  obtain ⟨hreach, hsame, hitems⟩ := hmore
  have hhalls : t.plane.halls = u.plane.halls := congrArg Reach.halls hreach
  refine ⟨by rw [hhalls]; exact hdropped, (feedsL0_of_reach hreach h).trans hcut, fun l hl hfeeds => ?_, by rw [hsame]; exact hstatus,
    (running_of_reach hreach).trans hrun, fun hsome => ?_⟩
  · rw [streams_of_reach hreach]
    exact hleft l hl hfeeds
  · obtain ⟨it, hin, hit⟩ := hposted hsome
    exact ⟨it, hitems 6 it hin, hit⟩

/-- A hall that has left every landing, before its fault is posted. -/
def hallDropped (s : State) (h : Nat) : State :=
  ((leaveLandings s h).onHall h fun x => { x with dropped := true }).onPlane fun p =>
    { p with status := { p.status with hallFault := setBit p.status.hallFault h true } }

/-- The event of a hall fault. -/
def hallFaultEv (s : State) (h cause : Nat) : Ev := { s.ev 3 0x0104 0 (h + 16 * cause) with stamp := s.wallStamp, idx := h }

/-- A hall that has left is faulted once its fault is posted. -/
theorem hallDropped_faults (s : State) (h cause : Nat) (hh : h < 9) (hrun : s.plane.running = true) :
    HallFaulted s (postEvent (hallDropped s h) (hallFaultEv s h cause)) h cause := by
  have hdropped : (vget (hallDropped s h).plane.halls h).dropped = true := congrArg HallSt.dropped (onHall_same (leaveLandings s h) h _ hh)
  have hcarry := (Carries.refl (hallDropped s h)).postEvent (e := hallFaultEv s h cause)
  have hhalls : (postEvent (hallDropped s h) (hallFaultEv s h cause)).plane.halls = (hallDropped s h).plane.halls := congrArg Reach.halls hcarry.reach
  refine ⟨by rw [hhalls]; exact hdropped, (feedsL0_of_reach hcarry.reach h).trans (by simp [feedsL0, hdropped]), fun l hl hfeeds => ?_, ?_,
    (running_of_reach hcarry.reach).trans hrun, ?_⟩
  · rw [streams_of_reach hcarry.reach]
    exact hallLeave_leaves h l s hh hl hfeeds
  · rw [hcarry.status]
    exact testBit_setBit_same s.plane.status.hallFault h true
  · exact Posted.of_rings (postEvent_posted (hallDropped s h) _) (eventRings_congr rfl rfl rfl _)

/-- What a capture takes of a hall fault (R40). -/
def hallFaultMark (s : State) (value : Nat) : State :=
  if s.plane.capture.running then
    (capWrite s (markRecord s 5 value)).onPlane fun p => { p with capture := { p.capture with clean := false } }
  else s

theorem noteHallFault_eq (s : State) (h cause : Nat) :
    noteHallFault s h cause = hallFaultMark (postEvent (hallDropped s h) (hallFaultEv s h cause)) (h + 16 * cause) := rfl

theorem Carries.hallFaultMark {s t : State} (h : Carries s t) {value : Nat} : Carries s (hallFaultMark t value) := by
  unfold Machine.hallFaultMark capWrite
  split
  · refine .onPlane ?_ rfl rfl rfl
    split
    · exact h.landPut
    · exact h
  · exact h

theorem hallFaultMark_only (s : State) (value : Nat) : ∃ q, hallFaultMark s value = { s with plane := q } := by
  unfold hallFaultMark capWrite
  (repeat' split) <;> exact ⟨_, rfl⟩

theorem noteHallFault_faults (s : State) (h cause : Nat) (hh : h < 9) (hrun : s.plane.running = true) : HallFaulted s (noteHallFault s h cause) h cause :=
  HallFaulted.of_carries (hallDropped_faults s h cause hh hrun) (Carries.refl _).hallFaultMark

/-- The fault of a hall that is not the tick hall or the keeper's drops it (R26). -/
theorem hallFault_drops (s : State) (h cause : Nat) (hh : h ∈ [0, 2, 4, 5, 6, 7]) (hrun : s.plane.running = true) :
    HallFaulted s (hallFault s h cause) h cause := by
  have hrange : h < 9 ∧ h ≠ 1 ∧ h ≠ 3 := by
    revert h
    decide
  have hnote := noteHallFault_faults s h cause hrange.1 hrun
  unfold hallFault
  dsimp only
  rw [if_neg hrange.2.1, if_neg hrange.2.2]
  split
  · exact hnote
  · split
    · next h2 =>
      subst h2
      exact HallFaulted.of_carries hnote (Carries.refl _).hallReset.spoilTentative
    · exact HallFaulted.of_carries hnote (Carries.refl _).hallReset

/-- Noting a fault changes the plane alone. -/
theorem noteHallFault_only (s : State) (h cause : Nat) : ∃ q, noteHallFault s h cause = { s with plane := q } := by
  obtain ⟨q, hmark⟩ := hallFaultMark_only (postEvent (hallDropped s h) (hallFaultEv s h cause)) (h + 16 * cause)
  refine ⟨q, ?_⟩
  rw [noteHallFault_eq, hmark, postEvent_only]
  rfl

/-- A reset of a state that differs in its plane is one of the state itself. -/
theorem LogicReset.of_plane {s t : State} {q : Plane} {cause : Nat} (h : LogicReset { s with plane := q } t cause) : LogicReset s t cause := h

/-- A fault of the keeper's hall or the tick hall resets the logic die with its cause (Table 01.5). -/
theorem hallFault_resets (s : State) (h cause : Nat) (hh : h ∈ [1, 3]) (hreset : s.seq.inReset = false) :
    LogicReset s (hallFault s h cause) (if h = 1 then 5 else 6) := by
  obtain ⟨q, hq⟩ := noteHallFault_only s h cause
  have hnoted (c : ResetCause) : LogicReset s (assertLogic (noteHallFault s h cause) c false) c.cause := by
    rw [hq]
    exact LogicReset.of_plane (assertLogic_resets { s with plane := q } c false hreset)
  unfold hallFault
  dsimp only
  rcases List.mem_pair.1 hh with rfl | rfl
  · exact hnoted { cause := 5 }
  · exact hnoted { cause := 6 }

/-- Settles O19: the hall's count and its lag lead to the same fault, which drops the hall or resets the logic die. -/
theorem hallFaultsDropOrReset : Obligations.HallFaultsDropOrReset := by
  have hrange {h : Nat} (hh : h ∈ [0, 2, 4, 5, 6, 7] ∨ h ∈ [1, 3]) : h < 8 := by
    simp only [List.mem_cons, List.not_mem_nil, or_false] at hh
    omega
  have hmismatch (h : Nat) (s : State) (hh : h < 8) (hrun : s.plane.running = true) (hhall : hallRuns s h = true) (hsync : s.wallTick % 256 = 0) :
      exec (.hallTokenMismatch h) s = effect s (hallFault s h 2) := congrArg (effect s) (if_pos ⟨hrun, hh, hhall, hsync⟩)
  have hlags (h : Nat) (s : State) (hh : h < 8) (hrun : s.plane.running = true) (hhall : hallRuns s h = true) (hlag : lagsTooFar s h = true)
      (hlive : readerFeeds s h = false) : exec (.hallLagFault h) s = effect s (hallFault s h 1) :=
    congrArg (effect s) (if_pos ⟨hrun, hh, hhall, hlag, by simp [hlive]⟩)
  unfold Obligations.HallFaultsDropOrReset
  refine ⟨fun h s hrun hhall hreset hsync hh => ?_, fun h s hrun hhall hreset hsync hh => ?_, fun h s hrun hhall hreset hlag hlive hh => ?_,
    fun h s hrun hhall hreset hlag hlive hh => ?_⟩
  · exact ⟨_, hmismatch h s (hrange (.inl hh)) hrun hhall hsync, hallFault_drops s h 2 hh hrun⟩
  · exact ⟨_, hmismatch h s (hrange (.inr hh)) hrun hhall hsync, hallFault_resets s h 2 hh hreset⟩
  · exact ⟨_, hlags h s (hrange (.inl hh)) hrun hhall hlag hlive, hallFault_drops s h 1 hh hrun⟩
  · exact ⟨_, hlags h s (hrange (.inr hh)) hrun hhall hlag hlive, hallFault_resets s h 1 hh hreset⟩

end Sys2Proof.Machine

namespace Sys2Proof.Machine

open Sys2Proof.Claims

/-! The Ivgal links (chapter 07): what an operation on a link changes. -/

/-- What a link keeps apart from its satellites. -/
def IvgLink.beyondSat (l : IvgLink) : IvgLink := { l with sat := [] }

@[simp] theorem linkOf_postEvent (s : State) (e : Ev) (n : Nat) : linkOf (postEvent s e) n = linkOf s n := by simp only [linkOf, postEvent_light]

@[simp] theorem linkOf_meterAdd (s : State) (port rx tx n : Nat) : linkOf (meterAdd s port rx tx) n = linkOf s n := rfl

@[simp] theorem linkOf_completeNow (s : State) (p : Packet) (st : Status) (r : Reply) (n : Nat) : linkOf (completeNow s p st r) n = linkOf s n := by
  simp only [linkOf, completeNow_light]

@[simp] theorem linkCfg_completeNow (s : State) (p : Packet) (st : Status) (r : Reply) (n : Nat) : linkCfg (completeNow s p st r) n = linkCfg s n := by
  simp only [linkCfg, completeNow_store]

theorem linkOf_onIvg_same (s : State) (n : Nat) (f : IvgLink → IvgLink) (h : n < 16) : linkOf (s.onIvg n f) n = f (linkOf s n) :=
  vget_vmod_same _ n f h

theorem linkOf_onIvg_ne (s : State) (n k : Nat) (f : IvgLink → IvgLink) (h : n ≠ k) : linkOf (s.onIvg n f) k = linkOf s k :=
  vget_vmod_ne _ n k f h

theorem Carries.onIvg {s t : State} (h : Carries s t) {n : Nat} {f : IvgLink → IvgLink} : Carries s (t.onIvg n f) := h.same rfl

/-- An operation that changes the satellites of link `n` only, and posts. -/
structure SatsOnly (n : Nat) (s t : State) : Prop where
  link : (linkOf t n).beyondSat = (linkOf s n).beyondSat
  store : t.store = s.store
  carries : Carries s t
  lin : t.plane.lin = s.plane.lin
  rings : ∀ e, eventRings t e = eventRings s e

namespace SatsOnly

variable {n : Nat} {s t u : State}

theorem refl (n : Nat) (s : State) : SatsOnly n s s := ⟨rfl, rfl, .refl s, rfl, fun _ => rfl⟩

theorem trans (h : SatsOnly n s t) (h' : SatsOnly n t u) : SatsOnly n s u :=
  ⟨h'.link.trans h.link, h'.store.trans h.store, h.carries.trans h'.carries, h'.lin.trans h.lin, fun e => (h'.rings e).trans (h.rings e)⟩

theorem onSat (h : SatsOnly n s t) {a : Nat} {f : SatRun → SatRun} : SatsOnly n s (t.onSat n a f) :=
  h.trans ⟨vget_vmod_proj t.light.ivg n n _ IvgLink.beyondSat fun _ => rfl, rfl, .onIvg (.refl t), rfl, fun _ => rfl⟩

theorem postEvent (h : SatsOnly n s t) {e : Ev} : SatsOnly n s (postEvent t e) :=
  h.trans ⟨by rw [linkOf_postEvent], postEvent_store .., .postEvent (.refl t), (congrArg Plane.lin (postEvent_beyondCompletion t e) :),
    eventRings_of_beyondCompletion (postEvent_beyondCompletion t e) (by rw [postEvent_store])⟩

theorem foldl {α : Type} {f : State → α → State} (h : SatsOnly n s t) (hstep : ∀ u a, SatsOnly n s u → SatsOnly n s (f u a)) {l : List α} :
    SatsOnly n s (l.foldl f t) :=
  List.foldlRecOn (motive := SatsOnly n s) l f h fun u hu a _ => hstep u a hu

/-- What a link keeps apart from its satellites stays. -/
theorem kept {β : Type} (h : SatsOnly n s t) (g : IvgLink → β) (hg : ∀ l, g l = g l.beyondSat) : g (linkOf t n) = g (linkOf s n) := by
  rw [hg, h.link, ← hg]

end SatsOnly

theorem satsOnly_queueSetup (s : State) (n : Nat) (which : Sat → Bool) : SatsOnly n s (queueSetup s n which) :=
  (SatsOnly.refl n s).foldl fun _ _ hu => hu.onSat

theorem satsOnly_keepStatus (s : State) (n : Nat) (r : SatStatus) : SatsOnly n s (keepStatus n s r) := by
  unfold keepStatus
  dsimp only
  split
  · exact (SatsOnly.refl n s).onSat
  · exact (SatsOnly.refl n s).onSat.postEvent

theorem satsOnly_noteRecord (s : State) (n a : Nat) (found : Bool) : SatsOnly n s (noteRecord n s a found) := by
  unfold noteRecord
  dsimp only
  split
  · exact (SatsOnly.refl n s).onSat
  · split
    · exact (SatsOnly.refl n s).onSat.postEvent
    · exact (SatsOnly.refl n s).onSat

theorem satsOnly_noteStatus (s : State) (n seq : Nat) (recs : List SatStatus) (x : Sat) : SatsOnly n s (noteStatus n seq recs s x) := by
  unfold noteStatus
  split
  · exact (satsOnly_keepStatus s n _).trans (satsOnly_noteRecord _ n _ _)
  · exact satsOnly_noteRecord s n _ _

/-! Frames (R199, R202). -/

theorem enumNow_idle (s : State) (n : Nat) (h : (linkOf s n).enumFor = []) : enumNow s n = s := by
  unfold enumNow
  rw [if_neg]
  simp [h]

theorem linkOf_sendFrameAs_ne (s : State) (n k : Nat) (ty : IvgType) (sleep : Bool) (h : k ≠ n) : linkOf (sendFrameAs s n ty sleep) k = linkOf s k :=
  (linkOf_onIvg_ne _ n k _ (Ne.symm h)).trans (linkOf_meterAdd ..)

/-- A frame that is sent is on its way from now on and is counted (R199). -/
theorem sendFrameAs_sends (s : State) (n : Nat) (ty : IvgType) (sleep : Bool) (h : n < 16) :
    (linkOf (sendFrameAs s n ty sleep) n).flight.map (fun f => (f.type, f.seq, f.sentAt)) = some (ty, (linkOf s n).frame % 16, s.plane.lin) ∧
    (linkOf (sendFrameAs s n ty sleep) n).frame = (linkOf s n).frame + 1 ∧
    (linkOf (sendFrameAs s n ty sleep) n).frames = satAdd32 (linkOf s n).frames 1 := by
  unfold sendFrameAs
  rw [linkOf_onIvg_same _ n _ h]
  exact ⟨rfl, rfl, rfl⟩

theorem type_sendFrameAs (s : State) (n : Nat) (ty : IvgType) (sleep : Bool) (h : n < 16) :
    (linkOf (sendFrameAs s n ty sleep) n).flight.map (·.type) = some ty := by
  unfold sendFrameAs
  rw [linkOf_onIvg_same _ n _ h]
  rfl

theorem length_ivgHeader (type seq : Nat) (sleep : Bool) : (ivgHeader type seq sleep).length = 4 := by
  simp [ivgHeader, beBytes, length_leBytes]

theorem lastSent_sendFrameAs (s : State) (n : Nat) (ty : IvgType) (sleep : Bool) (h : n < 16) :
    (linkOf (sendFrameAs s n ty sleep) n).lastSent.take 3 = (ivgHeader ty.code (linkOf s n).frame sleep).take 3 := by
  unfold sendFrameAs
  rw [linkOf_onIvg_same _ n _ h]
  dsimp only
  rw [List.append_assoc, List.take_append_of_le_length (by rw [length_ivgHeader]; decide)]

theorem slept_sendFrameAs (s : State) (n : Nat) (ty : IvgType) (h : n < 16) : (linkOf (sendFrameAs s n ty true) n).slept.isSome = true := by
  unfold sendFrameAs
  rw [linkOf_onIvg_same _ n _ h]
  rfl

/-- A frame that is sent changes the links and the port meters only. -/
theorem sendFrameAs_only (s : State) (n : Nat) (ty : IvgType) (sleep : Bool) :
    ∃ l w, sendFrameAs s n ty sleep = { s with light := l, watch := w } := ⟨_, _, rfl⟩

theorem frameSlot_sends (s : State) (n : Nat) (ty : IvgType) (hup : linksUp s = true) (hdark : ((linkCfg s n).enable && darkReady s) = false)
    (hslot : slotTick (linkCfg s n).period n s.plane.tick = true) (hty : slotType s n = some ty) :
    ivgalSlot s n = if (linkOf s n).flight.isSome then s.onIvg n fun l => { l with skipped := satAdd32 l.skipped 1 } else sendFrame s n ty := by
  unfold ivgalSlot
  rw [if_neg (by simpa using hdark)]
  unfold frameSlot
  dsimp only
  rw [if_pos ⟨hup, hslot⟩, hty]

theorem linksUp_of_darkReady (s : State) (h : darkReady s = true) : linksUp s = true := by
  unfold darkReady at h
  simp only [Bool.and_eq_true] at h
  obtain ⟨⟨⟨⟨⟨⟨⟨hrun, hstate⟩, -⟩, hcommit⟩, -⟩, -⟩, -⟩, -⟩ := h
  unfold linksUp
  rw [hrun, hstate, hcommit]
  rfl

theorem sleepSlot_sends (s : State) (n : Nat) (henable : (linkCfg s n).enable = true) (hdark : darkReady s = true)
    (hslot : slotTick (linkCfg s n).period n s.plane.tick = true) (hslept : (linkOf s n).slept = none) (hfree : (linkOf s n).flight = none) :
    ivgalSlot s n = sendFrameAs s n .data true := by
  unfold ivgalSlot
  rw [if_pos (by simp [henable, hdark])]
  unfold sleepSlot
  rw [if_pos ⟨linksUp_of_darkReady s hdark, hslot, by rw [hslept]; rfl⟩, if_neg (by rw [hfree]; decide)]

/-! Returns, breaks and beacons (R200, R201). -/

theorem frameReturn_lost (s : State) (n : Nat) (r : IvgReturn) (f : IvgFlight) (h : n < 16) (hflight : (linkOf s n).flight = some f)
    (hdata : f.type = .data) (hasked : (linkOf s n).enumFor = []) (hpast : f.sentAt + f.deadline < s.plane.lin) :
    frameReturn s n r = noteLost s n := by
  unfold frameReturn
  rw [hflight]
  dsimp only
  rw [if_neg (by simp [hpast]), if_pos (Or.inl (by simpa using hpast)), if_neg (by rw [hdata]; decide),
    enumNow_idle _ n (by rw [noteLost, linkOf_onIvg_same _ n _ h]; exact hasked)]

/-- Every share of the link's next frame is FULL (R201). -/
def fullNext (s : State) (n : Nat) : State := (satsOf s n).foldl (fun s x => s.onSat n x.address fun r => { r with fullDue := true }) s

theorem fullNext_plane (s : State) (n : Nat) : (fullNext s n).plane = s.plane := foldl_keeps (·.plane) _ (fun _ _ => by rfl) _ _

theorem fullNext_store (s : State) (n : Nat) : (fullNext s n).store = s.store := foldl_keeps (·.store) _ (fun _ _ => by rfl) _ _

/-- A frame that comes back ends a BREAK (R200, R201). -/
theorem noteReturned_returns (s : State) (n sentAt : Nat) (h : n < 16) :
    ∃ u, SatsOnly n u (noteReturned s n sentAt) ∧ u.store = s.store ∧ (linkOf u n).flight = none ∧
      (linkOf u n).returned = satAdd32 (linkOf s n).returned 1 ∧ (linkOf u n).lostRun = 0 ∧
      (linkOf u n).lastRet = sat16 (s.plane.lin - sentAt) ∧ (linkOf u n).brk = false ∧ (linkOf u n).enumFor = (linkOf s n).enumFor ∧
      ((linkOf s n).brk = true → Posted s (noteReturned s n sentAt) (s.ev 3 0x0421 n (sat16 (linkOf s n).lostRun))) := by
  unfold noteReturned
  dsimp only
  split
  case isTrue hbrk =>
    refine ⟨(s.onIvg n fun l => { l with flight := none, returned := satAdd32 l.returned 1, lastRet := sat16 (s.plane.lin - sentAt), lostRun := 0 }).onIvg n
      fun l => { l with brk := false, breakAt := 0, beaconRecords := 0 }, ((SatsOnly.refl n _).foldl fun _ _ hu => hu.onSat).postEvent, rfl, ?_⟩
    rw [linkOf_onIvg_same _ n _ h, linkOf_onIvg_same _ n _ h]
    refine ⟨rfl, rfl, rfl, rfl, rfl, rfl, fun _ => ?_⟩
    have hposts := postEvent_posted (fullNext ((s.onIvg n fun l =>
        { l with flight := none, returned := satAdd32 l.returned 1, lastRet := sat16 (s.plane.lin - sentAt), lostRun := 0 }).onIvg n
      fun l => { l with brk := false, breakAt := 0, beaconRecords := 0 }) n) (s.ev 3 0x0421 n (sat16 (linkOf s n).lostRun))
    have hev (u : State) (hplane : u.plane = s.plane) : u.ev 3 0x0421 n (sat16 (linkOf s n).lostRun) = s.ev 3 0x0421 n (sat16 (linkOf s n).lostRun) := by
      unfold State.ev State.stamp
      rw [hplane]
    change Posted s (postEvent (fullNext _ n) ((fullNext _ n).ev 3 0x0421 n (sat16 (linkOf s n).lostRun))) _
    rw [hev]
    · exact Posted.of_rings hposts (eventRings_congr (by rw [fullNext_plane]; rfl) (by rw [fullNext_plane]; rfl) (by rw [fullNext_store]; rfl) _)
    · exact fullNext_plane _ n
  case isFalse hbrk =>
    refine ⟨_, SatsOnly.refl n _, rfl, ?_⟩
    rw [linkOf_onIvg_same _ n _ h]
    exact ⟨rfl, rfl, rfl, rfl, by simpa using hbrk, rfl, fun hb => absurd hb hbrk⟩

theorem frameReturn_returns (s : State) (n : Nat) (r : IvgReturn) (f : IvgFlight) (h : n < 16) (hflight : (linkOf s n).flight = some f)
    (hdata : f.type = .data) (hasked : (linkOf s n).enumFor = []) (hlost : r.lost = false) (hhcrc : r.hcrcOk = true) (hseq : r.seq = f.seq)
    (hintime : s.plane.lin ≤ f.sentAt + f.deadline) :
    SatsOnly n (meterAdd (noteReturned s n f.sentAt) (22 + n) (8 * f.bytes.length + 112 * r.statuses.length + 176 * r.idents.length) 0) (frameReturn s n r) := by
  obtain ⟨u, hsats, -, -, -, -, -, -, hkept, -⟩ := noteReturned_returns s n f.sentAt h
  have hstatus : SatsOnly n (meterAdd (noteReturned s n f.sentAt) (22 + n) (8 * f.bytes.length + 112 * r.statuses.length + 176 * r.idents.length) 0)
      ((satsOf (meterAdd (noteReturned s n f.sentAt) (22 + n) (8 * f.bytes.length + 112 * r.statuses.length + 176 * r.idents.length) 0) n).foldl
        (noteStatus n f.seq r.statuses) (meterAdd (noteReturned s n f.sentAt) (22 + n) (8 * f.bytes.length + 112 * r.statuses.length + 176 * r.idents.length) 0)) :=
    (SatsOnly.refl n _).foldl fun v x hv => hv.trans (satsOnly_noteStatus v n f.seq r.statuses x)
  unfold frameReturn
  rw [hflight]
  dsimp only
  rw [if_neg (by simp [hlost]), if_neg (by simp [hhcrc, hseq]; omega), if_neg (by rw [hdata]; decide), enumNow_idle]
  · exact hstatus
  · rw [hstatus.kept IvgLink.enumFor fun _ => rfl, linkOf_meterAdd, hsats.kept IvgLink.enumFor fun _ => rfl, hkept]
    exact hasked

theorem enterBreak_enters (s : State) (n : Nat) (h : n < 16) (hlost : 3 ≤ (linkOf s n).lostRun) (hbrk : (linkOf s n).brk = false) :
    (linkOf (enterBreak s n) n).brk = true ∧ (linkOf (enterBreak s n) n).breaks = satAdd32 (linkOf s n).breaks 1 ∧
    Posted s (enterBreak s n) (s.ev 3 0x0420 (ivgAddress n (linkOf s n).breakAt) (linkOf s n).beaconRecords) := by
  unfold enterBreak
  dsimp only
  rw [if_pos ⟨hlost, by rw [hbrk]; rfl⟩, linkOf_postEvent, linkOf_onIvg_same _ n _ h]
  exact ⟨rfl, rfl, Posted.of_rings (postEvent_posted _ _) (eventRings_congr rfl rfl rfl _)⟩

/-- A posted event stays on its way. -/
theorem Posted.of_satsOnly {s u t : State} {e : Ev} {n : Nat} (h : Posted s u e) (hmore : SatsOnly n u t) : Posted s t e := fun hsome =>
  (h hsome).elim fun it hit => ⟨it, hmore.carries.items 6 it hit.1, hit.2⟩

/-- In a BREAK a BEACON names the satellite before which it lies (R201). -/
theorem beaconRx_names (s : State) (n a : Nat) (l : List SatStatus) (h : n < 16) (hbrk : (linkOf s n).brk = true) (hother : (linkOf s n).breakAt ≠ a) :
    (linkOf (beaconRx s n a l) n).breakAt = a ∧ (linkOf (beaconRx s n a l) n).beaconRecords = l.length ∧
    Posted s (beaconRx s n a l) (s.ev 3 0x0420 (ivgAddress n a) l.length) := by
  have hkeep : ∀ (recs : List SatStatus) (u : State), SatsOnly n u (recs.foldl (keepStatus n) u) := fun recs u =>
    (SatsOnly.refl n u).foldl fun v x hv => hv.trans (satsOnly_keepStatus v n x)
  unfold beaconRx
  dsimp only
  rw [if_pos ⟨hbrk, hother⟩]
  refine ⟨?_, ?_, Posted.of_satsOnly (s := s) (Posted.of_rings (postEvent_posted (s.onIvg n fun x => { x with breakAt := a, beaconRecords := l.length })
    (s.ev 3 0x0420 (ivgAddress n a) l.length)) (eventRings_congr rfl rfl rfl _)) (hkeep _ _)⟩
  · rw [(hkeep _ _).kept IvgLink.breakAt fun _ => rfl, linkOf_postEvent, linkOf_onIvg_same _ n _ h]
  · rw [(hkeep _ _).kept IvgLink.beaconRecords fun _ => rfl, linkOf_postEvent, linkOf_onIvg_same _ n _ h]

theorem mismatchEnum_sends (s : State) (n : Nat) (h : n < 16) (hup : linksUp s = true) (henable : (linkCfg s n).enable = true)
    (hmis : (linkOf s n).mismatch = true) (hslept : (linkOf s n).slept = none) (hfree : (linkOf s n).flight = none)
    (hdue : (linkOf s n).lastEnum + 800000 ≤ s.plane.lin) :
    (linkOf (mismatchEnum s n) n).flight.map (·.type) = some .enum ∧ (linkOf (mismatchEnum s n) n).lastEnum = s.plane.lin := by
  unfold mismatchEnum
  dsimp only
  rw [if_pos ⟨hup, henable, hmis, by rw [hslept]; rfl, by rw [hfree]; rfl, hdue⟩]
  refine ⟨type_sendFrameAs s n .enum false h, ?_⟩
  unfold sendFrame sendFrameAs
  rw [linkOf_onIvg_same _ n _ h]
  rfl

/-! The Ivgal opcodes (Tables 07.16–07.18). -/

theorem link_lt (p : Packet) : p.fld 16 0 4 < 16 := Nat.mod_lt _ (by decide)

/-- Asking for an ENUM frame changes the links and the port meters only. -/
theorem enumRequest_only (s : State) (n : Nat) (p : Packet) : ∃ l w, enumRequest s n p = { s with light := l, watch := w } := by
  unfold enumRequest enumNow
  split
  · exact ⟨_, _, rfl⟩
  · split
    · exact sendFrameAs_only _ n .enum false
    · exact ⟨_, _, rfl⟩

theorem mismatch_sendFrameAs (s : State) (n : Nat) (ty : IvgType) (sleep : Bool) :
    (linkOf (sendFrameAs s n ty sleep) n).mismatch = (linkOf s n).mismatch := by
  unfold sendFrameAs
  exact vget_vmod_proj s.light.ivg n n _ IvgLink.mismatch fun _ => rfl

theorem mismatch_enumRequest (s : State) (n : Nat) (p : Packet) : (linkOf (enumRequest s n p) n).mismatch = (linkOf s n).mismatch := by
  have hask : (linkOf (s.onIvg n fun l => { l with enumFor := l.enumFor ++ [p] }) n).mismatch = (linkOf s n).mismatch :=
    vget_vmod_proj s.light.ivg n n _ IvgLink.mismatch fun _ => rfl
  unfold enumRequest enumNow
  split
  · rfl
  · split
    · exact (mismatch_sendFrameAs _ n .enum false).trans hask
    · exact hask

/-- Whether a packet asks again for its ENUM frame once the keeper has it. -/
def askAgain (p : Packet) (s : State) : State :=
  if p.opcode = ivgalEnumOp.code ∧ isHeld s p ∧ p.fld 17 0 2 < 2 ∧ (checkPacket ivgalEnumOp p s).isNone then enumRequest s (p.fld 16 0 4) p else s

theorem exec_ivgalEnum (p : Packet) (s : State) : exec (.ivgalEnum p) s = effect (keeperTake ivgalEnumOp p s) (askAgain p (keeperTake ivgalEnumOp p s)) := rfl

theorem askAgain_only (p : Packet) (s : State) : ∃ l w, askAgain p s = { s with light := l, watch := w } := by
  unfold askAgain
  split
  · exact enumRequest_only ..
  · exact ⟨_, _, rfl⟩

theorem mismatch_askAgain (p : Packet) (s : State) : (linkOf (askAgain p s) (p.fld 16 0 4)).mismatch = (linkOf s (p.fld 16 0 4)).mismatch := by
  unfold askAgain
  split
  · exact mismatch_enumRequest ..
  · rfl

/-- A packet that has asked does not ask twice. -/
theorem askAgain_asked (p : Packet) (s : State) (h : enumAsked s (p.fld 16 0 4) p = true) : askAgain p s = s := by
  unfold askAgain
  split
  · unfold enumRequest
    rw [if_pos h]
  · rfl

/-- IVGAL.ENUM with MODE 2 replies the table that stands. -/
theorem ivgalEnum_replies (p : Packet) (tb : List Sat) (s : State) (h : KeeperRuns ivgalEnumOp p s) (hmode : p.fld 17 0 2 = 2)
    (htable : (linkCfg s (p.fld 16 0 4)).table = some tb) :
    ∃ t, exec (.ivgalEnum p) s = .next t ∧ Completed p .ok s t ∧ Replied p s t (enumReply p tb 0) ∧ t.store.light = s.store.light := by
  have hrun : ivgalEnumOp.run p (release s p) = { s := release s p, reply := enumReply p tb 0 } := by
    change (if p.fld 17 0 2 = 2 then _ else _) = _
    rw [if_pos hmode]
    change (match (linkCfg s (p.fld 16 0 4)).table with | none => _ | some t => _) = _
    rw [htable]
  have hdone := Completed.of_clock (completeNow_completed (release s p) p .ok (enumReply p tb 0)) (release_clock s p)
  have hagain (u : State) : askAgain p u = u := by
    unfold askAgain
    rw [if_neg (by omega)]
  refine ⟨(completeNow (release s p) p .ok (enumReply p tb 0)).withPending (completeNow (release s p) p .ok (enumReply p tb 0)).pending, ?_, hdone, ?_, ?_⟩
  · rw [exec_ivgalEnum, hagain, keeperTake_answers h rfl hrun rfl]
    rfl
  · exact completeNow_replied (release s p) p .ok _
  · exact congrArg Store.light (completeNow_store (release s p) p .ok _)

/-- IVGAL.ENUM on a free link sends its ENUM frame and waits for it. -/
theorem ivgalEnum_asks (p : Packet) (s : State) (h : KeeperRuns ivgalEnumOp p s) (hmode : p.fld 17 0 2 < 2) (hup : linksUp s = true)
    (hslept : (linkOf s (p.fld 16 0 4)).slept = none) (hfree : (linkOf s (p.fld 16 0 4)).flight = none) (hnew : enumAsked s (p.fld 16 0 4) p = false)
    (hnone : ((linkOf s (p.fld 16 0 4)).found.find? fun f => p.ring == f.1.ring && p.slot == f.1.slot) = none) :
    ∃ t, exec (.ivgalEnum p) s = .next t ∧ (linkOf t (p.fld 16 0 4)).flight.map (·.type) = some .enum ∧ p ∈ (linkOf t (p.fld 16 0 4)).waitFor ∧
      t.plane.results = s.plane.results := by
  have hrun : ivgalEnumOp.run p (release s p) = { s := enumRequest (release s p) (p.fld 16 0 4) p, st := none } := by
    change (if p.fld 17 0 2 = 2 then _ else _) = _
    rw [if_neg (by omega)]
    change (match ((linkOf s (p.fld 16 0 4)).found.find? fun f => p.ring == f.1.ring && p.slot == f.1.slot) with | some f => _ | none => _) = _
    rw [hnone]
  have hasks : enumRequest (release s p) (p.fld 16 0 4) p =
      sendFrameAs ((release s p).onIvg (p.fld 16 0 4) fun l => { l with enumFor := l.enumFor ++ [p] }) (p.fld 16 0 4) .enum false := by
    have hl := linkOf_onIvg_same (release s p) (p.fld 16 0 4) (fun l => { l with enumFor := l.enumFor ++ [p] }) (link_lt p)
    unfold enumRequest
    rw [if_neg (by rw [show enumAsked (release s p) (p.fld 16 0 4) p = false from hnew]; decide)]
    unfold enumNow
    rw [if_pos ⟨hup, by rw [hl]; exact Option.isNone_iff_eq_none.mpr hslept, by rw [hl]; exact Option.isNone_iff_eq_none.mpr hfree, by rw [hl]; simp⟩]
    rfl
  have hwait : p ∈ (linkOf (enumRequest (release s p) (p.fld 16 0 4) p) (p.fld 16 0 4)).waitFor := by
    rw [hasks]
    unfold sendFrameAs
    rw [linkOf_onIvg_same _ _ _ (link_lt p), linkOf_meterAdd, linkOf_onIvg_same _ _ _ (link_lt p)]
    simp
  have hasked : enumAsked (enumRequest (release s p) (p.fld 16 0 4) p) (p.fld 16 0 4) p = true := by
    unfold enumAsked
    simp only [Bool.or_eq_true, List.any_eq_true]
    exact .inl (.inr ⟨p, hwait, by simp [samePlace]⟩)
  refine ⟨(enumRequest (release s p) (p.fld 16 0 4) p).withPending (enumRequest (release s p) (p.fld 16 0 4) p).pending, ?_, ?_, hwait, ?_⟩
  · rw [exec_ivgalEnum, keeperTake_waits h rfl hrun rfl, askAgain_asked _ _ hasked]
    rfl
  · rw [hasks]
    exact type_sendFrameAs _ _ .enum false (link_lt p)
  · rw [hasks]
    rfl

/-- IVGAL.ENUM with MODE 0 adopts the identities that its ENUM frame brought. -/
theorem ivgalEnum_adopts (p q : Packet) (ids : List SatIdent) (s : State) (h : KeeperRuns ivgalEnumOp p s) (hmode : p.fld 17 0 2 = 0)
    (hfound : ((linkOf s (p.fld 16 0 4)).found.find? fun f => p.ring == f.1.ring && p.slot == f.1.slot) = some (q, some ids))
    (hfits : ((adoptTable 0 ids).map Sat.points).sum ≤ 16384) :
    ∃ t, exec (.ivgalEnum p) s = .next t ∧ Completed p .ok s t ∧ (linkCfg t (p.fld 16 0 4)).table = some (adoptTable 0 ids) ∧
      (linkOf t (p.fld 16 0 4)).mismatch = false := by
  have hrun : ∃ u, ivgalEnumOp.run p (release s p) = { s := queueSetup u (p.fld 16 0 4) fun _ => true, reply := enumReply p (adoptTable 0 ids) 0 } ∧
      u.plane = (release s p).plane ∧ (linkCfg u (p.fld 16 0 4)).table = some (adoptTable 0 ids) ∧ (linkOf u (p.fld 16 0 4)).mismatch = false := by
    refine ⟨(((release s p).onIvg (p.fld 16 0 4) fun l => { l with found := l.found.erase (q, some ids) }).onStore fun st => { st with light := { st.light with
          ivg := vmod st.light.ivg (p.fld 16 0 4) fun g => { g with table := some (adoptTable 0 ids) } } }).onIvg (p.fld 16 0 4)
        fun l => { l with starting := false, mismatch := false, sat := [] }, ?_, rfl, ?_, ?_⟩
    · change (if p.fld 17 0 2 = 2 then _ else _) = _
      rw [if_neg (by omega)]
      change (match ((linkOf s (p.fld 16 0 4)).found.find? fun f => p.ring == f.1.ring && p.slot == f.1.slot) with | some f => _ | none => _) = _
      rw [hfound]
      change (if p.fld 17 0 2 = 0 then _ else _) = _
      rw [if_pos hmode, if_neg (by omega)]
    · exact congrArg IvgCfg.table (vget_vmod_same _ _ _ (link_lt p))
    · rw [linkOf_onIvg_same _ _ _ (link_lt p)]
  obtain ⟨u, hrun, hplane, htable, hmis⟩ := hrun
  have hsats := satsOnly_queueSetup u (p.fld 16 0 4) fun _ => true
  obtain ⟨v, hv⟩ : ∃ v, queueSetup u (p.fld 16 0 4) (fun _ => true) = v := ⟨_, rfl⟩
  rw [hv] at hrun hsats
  have hclock : v.clock = s.clock := by
    rw [← hv, queueSetup, foldl_keeps State.clock _ (fun _ _ => by rfl)]
    exact (clock_of_plane hplane).trans (release_clock s p)
  have hdone := Completed.of_clock (completeNow_completed v p .ok (enumReply p (adoptTable 0 ids) 0)) hclock
  obtain ⟨l, w, hagain⟩ := askAgain_only p (completeNow v p .ok (enumReply p (adoptTable 0 ids) 0))
  refine ⟨(askAgain p (completeNow v p .ok (enumReply p (adoptTable 0 ids) 0))).withPending (completeNow v p .ok (enumReply p (adoptTable 0 ids) 0)).pending,
    ?_, ?_, ?_, ?_⟩
  · rw [exec_ivgalEnum, keeperTake_answers h rfl hrun rfl]
    rfl
  · rw [hagain]
    exact hdone
  · rw [hagain]
    change (linkCfg (completeNow v p .ok _) _).table = _
    rw [linkCfg_completeNow, linkCfg, hsats.store]
    exact htable
  · rw [linkOf_withPending, mismatch_askAgain, linkOf_completeNow, hsats.kept IvgLink.mismatch fun _ => rfl]
    exact hmis

/-- The settings that IVGAL.CONFIG without records gives a link. -/
def linkSettings (p : Packet) (g : IvgCfg) : IvgCfg := { g with enable := p.bit 16 5, fullEvery := p.num 17 1, period := p.num 20 4 }

theorem satsAfter_of_none (p : Packet) (l : List Sat) (h : ivgCount p = 0) : satsAfter p l = l := by
  unfold satsAfter
  rw [h]
  exact List.map_id l

/-- What IVGAL.CONFIG leaves before it marks SETUP as due. -/
def linkConfigured (p : Packet) (s : State) : State :=
  let u := s.onStore fun st => { st with light := { st.light with
    ivg := vmod st.light.ivg (p.fld 16 0 4) fun g => { g with
      enable := p.bit 16 5, fullEvery := p.num 17 1, period := p.num 20 4, table := g.table.map (satsAfter p) } } }
  if p.bit 16 5 ∧ !(linkCfg s (p.fld 16 0 4)).enable then startLink u (p.fld 16 0 4)
  else if !p.bit 16 5 ∧ (linkCfg s (p.fld 16 0 4)).enable then u.onIvg (p.fld 16 0 4) fun l => { l with starting := false, mismatch := false, brk := false }
  else u

theorem linkCfg_linkConfigured (p : Packet) (s : State) (hcount : ivgCount p = 0) :
    linkCfg (linkConfigured p s) (p.fld 16 0 4) = linkSettings p (linkCfg s (p.fld 16 0 4)) := by
  have hstore : (linkConfigured p s).store.light.ivg = vmod s.store.light.ivg (p.fld 16 0 4) fun g => { g with
      enable := p.bit 16 5, fullEvery := p.num 17 1, period := p.num 20 4, table := g.table.map (satsAfter p) } := by
    unfold linkConfigured
    dsimp only
    split
    · rfl
    · split <;> rfl
  have hsats : satsAfter p = id := funext fun l => satsAfter_of_none p l hcount
  rw [linkCfg, hstore, vget_vmod_same _ _ _ (link_lt p), hsats, Option.map_id]
  rfl

theorem starting_linkConfigured (p : Packet) (s : State) (hon : p.bit 16 5 = true) (hoff : (linkCfg s (p.fld 16 0 4)).enable = false) :
    (linkOf (linkConfigured p s) (p.fld 16 0 4)).starting = true := by
  unfold linkConfigured
  dsimp only
  rw [if_pos ⟨hon, by rw [hoff]; rfl⟩, startLink, linkOf_onIvg_same _ _ _ (link_lt p)]

theorem linkConfigured_clock (p : Packet) (s : State) : (linkConfigured p s).clock = s.clock := by
  unfold linkConfigured
  dsimp only
  split
  · rfl
  · split <;> rfl

theorem ivgalConfig_sets (p : Packet) (s : State) (h : KeeperRuns ivgalConfigOp p s) (hwrite : p.bit 16 4 = false) (hcount : ivgCount p = 0)
    (hagree : linkAgrees (linkSettings p (linkCfg s (p.fld 16 0 4))) = true) :
    ∃ t, exec (.ivgalConfig p) s = .next t ∧ Completed p .ok s t ∧ linkCfg t (p.fld 16 0 4) = linkSettings p (linkCfg s (p.fld 16 0 4)) ∧
      (p.bit 16 5 = true → (linkCfg s (p.fld 16 0 4)).enable = false → (linkOf t (p.fld 16 0 4)).starting = true) := by
  obtain ⟨which, hwhich⟩ : ∃ which, which = fun x : Sat =>
      (linkCfg s (p.fld 16 0 4)).period != p.num 20 4 || ((List.range (ivgCount p)).map fun i => p.num (32 + 8 * i) 1).contains x.address := ⟨_, rfl⟩
  have hrun : ivgalConfigOp.run p (release s p) = { s := queueSetup (linkConfigured p (release s p)) (p.fld 16 0 4) which } := by
    rw [hwhich]
    change (if p.bit 16 4 then _ else _) = _
    rw [if_neg (by rw [hwrite]; decide)]
    rfl
  have hsats := satsOnly_queueSetup (linkConfigured p (release s p)) (p.fld 16 0 4) which
  have hcfg : linkCfg (queueSetup (linkConfigured p (release s p)) (p.fld 16 0 4) which) (p.fld 16 0 4) = linkSettings p (linkCfg s (p.fld 16 0 4)) := by
    rw [linkCfg, hsats.store]
    exact linkCfg_linkConfigured p (release s p) hcount
  have hclock : (queueSetup (linkConfigured p (release s p)) (p.fld 16 0 4) which).clock = s.clock := by
    rw [queueSetup, foldl_keeps State.clock _ (fun _ _ => by rfl), linkConfigured_clock]
    rfl
  have hfits : ivgalConfigOp.agree p (release s p) (queueSetup (linkConfigured p (release s p)) (p.fld 16 0 4) which) = true := by
    change (p.bit 16 4 || (linkAgrees (linkCfg (queueSetup _ _ which) _) && (List.range (ivgCount p)).all _)) = true
    rw [hcfg, hagree, hcount, hwrite]
    rfl
  obtain ⟨hexec, hdone⟩ := keeperTake_completes h rfl hrun hfits hclock
  refine ⟨_, hexec, hdone, ?_, fun hon hoff => ?_⟩
  · exact (linkCfg_completeNow _ p .ok _ _).trans hcfg
  · rw [linkOf_withPending, linkOf_completeNow, hsats.kept IvgLink.starting fun _ => rfl]
    exact starting_linkConfigured p (release s p) hon hoff

theorem ivgalDiag_clears (p : Packet) (s : State) (h : KeeperRuns ivgalDiagOp p s) (hclear : p.bit 17 0 = true) :
    ∃ t, exec (.ivgalDiag p) s = .next t ∧ Completed p .ok s t ∧ (linkOf t (p.fld 16 0 4)).frames = 0 ∧ (linkOf t (p.fld 16 0 4)).returned = 0 ∧
      (linkOf t (p.fld 16 0 4)).skipped = 0 ∧ (linkOf t (p.fld 16 0 4)).lost = 0 ∧ (linkOf t (p.fld 16 0 4)).breaks = 0 ∧
      (linkOf t (p.fld 16 0 4)).brk = (linkOf s (p.fld 16 0 4)).brk := by
  obtain ⟨r, hrun⟩ : ∃ r, ivgalDiagOp.run p (release s p) = { s := (release s p).onIvg (p.fld 16 0 4) fun l => { l with
        frames := 0, returned := 0, skipped := 0, lost := 0, breaks := 0
        sat := (l.sat.map fun e => (e.1, { e.2 with shareErr := 0 })).filter fun e => e.2 != {} }, reply := r } := by
    refine ⟨(ivgalDiagOp.run p (release s p)).reply, ?_⟩
    have hs : (ivgalDiagOp.run p (release s p)).s = _ := if_pos hclear
    rw [← hs]
    rfl
  obtain ⟨hexec, hdone⟩ := keeperTake_completes h rfl hrun rfl rfl
  refine ⟨_, hexec, hdone, ?_⟩
  rw [linkOf_withPending, linkOf_completeNow, linkOf_onIvg_same _ _ _ (link_lt p)]
  exact ⟨rfl, rfl, rfl, rfl, rfl, rfl⟩

/-- Settles O47. -/
theorem ivgalLinksRun : Obligations.IvgalLinksRun := by
  unfold Obligations.IvgalLinksRun
  refine ⟨fun n ty s h hup hdark hslot hty hfree => ?_, fun n s h henable hdark hslot hslept hfree => ?_, fun n s h hup hdark hslot hty hbusy => ?_,
    fun n r f s h hflight hdata hasked hlost hhcrc hseq hintime => ?_, fun n r f s h hflight hdata hasked hpast => ?_, fun n s h hlost hbrk => ?_,
    fun n a l s h hbrk hother => ?_, fun n s h hup henable hmis hslept hfree hdue => ?_, fun p n tb s h hn hmode htable => ?_,
    fun p n s h hn hmode hup hslept hfree hnew hnone => ?_, fun p n q ids s h hn hmode hfound hfits => ?_,
    fun p n s h hn hwrite hcount hagree => ?_, fun p n s h hn hclear => ?_⟩
  · have hsends := frameSlot_sends s n ty hup hdark hslot hty
    rw [if_neg (by rw [hfree]; decide)] at hsends
    obtain ⟨hflight, hframe, hframes⟩ := sendFrameAs_sends s n ty false h
    exact ⟨(sendFrame s n ty).withPending s.pending, congrArg (effect s) hsends, hflight, hframe, hframes, fun k hk => linkOf_sendFrameAs_ne s n k ty false hk⟩
  · exact ⟨(sendFrameAs s n .data true).withPending s.pending, congrArg (effect s) (sleepSlot_sends s n henable hdark hslot hslept hfree),
      type_sendFrameAs s n .data true h, slept_sendFrameAs s n .data h, lastSent_sendFrameAs s n .data true h⟩
  · obtain ⟨ty, hty⟩ := Option.isSome_iff_exists.mp hty
    have hskips := frameSlot_sends s n ty hup hdark hslot hty
    rw [if_pos hbusy] at hskips
    have hl := linkOf_onIvg_same s n (fun l => { l with skipped := satAdd32 l.skipped 1 }) h
    exact ⟨(s.onIvg n fun l => { l with skipped := satAdd32 l.skipped 1 }).withPending s.pending, congrArg (effect s) hskips,
      (congrArg IvgLink.skipped hl :), (congrArg IvgLink.flight hl :)⟩
  · obtain ⟨u, hsats, -, hfree, hreturned, hrun, hlast, hbrk, -, hposts⟩ := noteReturned_returns s n f.sentAt h
    have hmore := frameReturn_returns s n r f h hflight hdata hasked hlost hhcrc hseq hintime
    refine ⟨(frameReturn s n r).withPending s.pending, rfl, ?_, ?_, ?_, ?_, ?_, fun hb => ?_⟩
    · exact (hmore.kept IvgLink.flight fun _ => rfl).trans ((hsats.kept IvgLink.flight fun _ => rfl).trans hfree)
    · exact (hmore.kept IvgLink.returned fun _ => rfl).trans ((hsats.kept IvgLink.returned fun _ => rfl).trans hreturned)
    · exact (hmore.kept IvgLink.lostRun fun _ => rfl).trans ((hsats.kept IvgLink.lostRun fun _ => rfl).trans hrun)
    · exact (hmore.kept IvgLink.lastRet fun _ => rfl).trans ((hsats.kept IvgLink.lastRet fun _ => rfl).trans hlast)
    · exact (hmore.kept IvgLink.brk fun _ => rfl).trans ((hsats.kept IvgLink.brk fun _ => rfl).trans hbrk)
    · exact Posted.of_satsOnly (u := meterAdd (noteReturned s n f.sentAt) _ _ _) (t := frameReturn s n r) (hposts hb) hmore
  · have hl := linkOf_onIvg_same s n (fun l => { l with flight := none, lost := satAdd32 l.lost 1, lostRun := l.lostRun + 1 }) h
    exact ⟨(noteLost s n).withPending s.pending, congrArg (effect s) (frameReturn_lost s n r f h hflight hdata hasked hpast), (congrArg IvgLink.flight hl :),
      (congrArg IvgLink.lost hl :), (congrArg IvgLink.lostRun hl :)⟩
  · exact ⟨(enterBreak s n).withPending s.pending, rfl, enterBreak_enters s n h hlost hbrk⟩
  · exact ⟨(beaconRx s n a l).withPending s.pending, rfl, beaconRx_names s n a l h hbrk hother⟩
  · exact ⟨(mismatchEnum s n).withPending s.pending, rfl, mismatchEnum_sends s n h hup henable hmis hslept hfree hdue⟩
  · subst hn
    exact ivgalEnum_replies p tb s h hmode htable
  · subst hn
    exact ivgalEnum_asks p s h hmode hup hslept hfree hnew hnone
  · subst hn
    exact ivgalEnum_adopts p q ids s h hmode hfound hfits
  · subst hn
    exact ivgalConfig_sets p s h hwrite hcount hagree
  · subst hn
    exact ivgalDiag_clears p s h hclear

end Sys2Proof.Machine

namespace Sys2Proof.Machine

open Sys2Proof.Claims

/-! The field die (chapter 08): its outputs, supplies and inputs. -/

theorem foOf_onFo_same (s : State) (n : Nat) (f : Fo → Fo) (h : n < 8) : foOf (s.onFo n f) n = f (foOf s n) := vget_vmod_same _ n f h

theorem foOf_onFo_ne (s : State) (n k : Nat) (f : Fo → Fo) (h : n ≠ k) : foOf (s.onFo n f) k = foOf s k := vget_vmod_ne _ n k f h

theorem Cond.holds_hold (c : Cond) (cause : Nat) : (c.hold cause).holds.testBit cause = true := testBit_setBit_same c.holds cause true

theorem Cond.holds_endHold (c : Cond) (cause : Nat) : (c.endHold cause).holds.testBit cause = false := testBit_setBit_same c.holds cause false

theorem Cond.locks_lock (c : Cond) (cause : Nat) : (c.lock cause).locks.testBit cause = true := testBit_setBit_same c.locks cause true

theorem Cond.active_lock (c : Cond) (cause : Nat) : (c.lock cause).active.testBit cause = true := testBit_setBit_same c.active cause true

/-- An output that is held or locked is off. -/
theorem foOn_of_not_free (s : State) (n : Nat) (h : (foOf s n).cond.free = false) : foOn s.input.die n = false := by
  have hfree : (vget s.input.die.fo n).cond.free = false := h
  simp [foOn, hfree]

theorem foOf_foActive (s : State) (n cause detail : Nat) (h : n < 8) : foOf (foActive s n cause detail) n =
    { foOf s n with cond := { (foOf s n).cond.report cause with thermDetail := if cause = 6 then detail else (foOf s n).cond.thermDetail } } :=
  foOf_onFo_same _ n _ h

theorem foOf_foHold (s : State) (n cause detail : Nat) (h : n < 8) : (foOf (foHold s n cause detail) n).cond =
    ({ (foOf s n).cond.report cause with thermDetail := if cause = 6 then detail else (foOf s n).cond.thermDetail } : Cond).hold cause := by
  rw [foHold, foOf_onFo_same _ n _ h, foOf_foActive s n cause detail h]

theorem foOf_foLock (s : State) (n cause detail : Nat) (h : n < 8) : (foOf (foLock s n cause detail) n).cond =
    ({ (foOf s n).cond.report cause with thermDetail := if cause = 6 then detail else (foOf s n).cond.thermDetail } : Cond).lock cause := by
  rw [foLock, foOf_onFo_same _ n _ h, foOf_foActive s n cause detail h]

theorem foHold_holds (s : State) (n cause detail : Nat) (h : n < 8) : (foOf (foHold s n cause detail) n).cond.holds.testBit cause = true ∧
    (foOf (foHold s n cause detail) n).cond.locks = (foOf s n).cond.locks ∧ foOn (foHold s n cause detail).input.die n = false := by
  have hfo := foOf_foHold s n cause detail h
  refine ⟨?_, ?_, foOn_of_not_free _ n ?_⟩ <;> rw [hfo]
  · exact Cond.holds_hold ..
  · rfl
  · exact Cond.free_hold ..

theorem foLock_locks (s : State) (n cause detail : Nat) (h : n < 8) : (foOf (foLock s n cause detail) n).cond.locks.testBit cause = true ∧
    (foOf (foLock s n cause detail) n).cond.active.testBit cause = true ∧
    (cause = 6 → (foOf (foLock s n cause detail) n).cond.thermDetail = detail) ∧ foOn (foLock s n cause detail).input.die n = false := by
  have hfo := foOf_foLock s n cause detail h
  refine ⟨?_, ?_, fun hcause => ?_, foOn_of_not_free _ n ?_⟩ <;> rw [hfo]
  · exact Cond.locks_lock ..
  · exact Cond.active_lock ..
  · exact if_pos hcause
  · exact Cond.free_lock ..

theorem foHold_ne (s : State) (n k cause detail : Nat) (h : n ≠ k) : foOf (foHold s n cause detail) k = foOf s k :=
  (foOf_onFo_ne _ n k _ h).trans (foOf_onFo_ne _ n k _ h)

theorem foEndHold_ne (s : State) (n k cause : Nat) (h : n ≠ k) : foOf (foEndHold s n cause) k = foOf s k :=
  (foOf_onFo_ne _ n k _ h).trans (foOf_onFo_ne _ n k _ h)

theorem foEndHold_ends (s : State) (n cause : Nat) (h : n < 8) : (foOf (foEndHold s n cause) n).cond.holds.testBit cause = false := by
  rw [foEndHold, foOf_onFo_same _ n _ h]
  exact Cond.holds_endHold ..

theorem foEndHold_restarts (s : State) (n cause : Nat) (h : n < 8) : (foOf (foEndHold s n cause) n).restarts = (foOf s n).restarts := by
  rw [foEndHold, foOf_onFo_same _ n _ h, foEnd, foOf_onFo_same _ n _ h]

theorem foHold_only (s : State) (n cause detail : Nat) : ∃ v, foHold s n cause detail = s.onDie fun d => { d with fo := v } := ⟨_, rfl⟩

theorem foEndHold_only (s : State) (n cause : Nat) : ∃ v, foEndHold s n cause = s.onDie fun d => { d with fo := v } := ⟨_, rfl⟩

theorem foldl_fo_only {α : Type} (f : State → α → State) (hstep : ∀ s a, ∃ v, f s a = s.onDie fun d => { d with fo := v }) (l : List α) (s : State) :
    ∃ v, l.foldl f s = s.onDie fun d => { d with fo := v } := by
  refine List.foldlRecOn (motive := fun t => ∃ v, t = s.onDie fun d => { d with fo := v }) l f ⟨_, rfl⟩ fun t ht a _ => ?_
  obtain ⟨v, rfl⟩ := ht
  obtain ⟨w, hw⟩ := hstep (s.onDie fun d => { d with fo := v }) a
  exact ⟨w, hw⟩

/-- A class that is taken changes the class of its supply and the outputs only. -/
theorem fieldClass_only (s : State) (k cls : Nat) :
    ∃ v, fieldClass s k cls = s.onDie fun d => { d with fo := v, fsa := if k = 0 then cls else d.fsa, fsb := if k = 0 then d.fsb else cls } := by
  have hall : ∀ u : State, ∃ v, (if cls = 2 then (List.range 8).foldl (fun s n => foHold s n 1 0) u
      else if cls = 0 then (List.range 8).foldl (fun s n => foEndHold s n 1) u else u) = u.onDie fun d => { d with fo := v } := by
    intro u
    split
    · exact foldl_fo_only _ (fun s n => foHold_only s n 1 0) _ u
    · split
      · exact foldl_fo_only _ (fun s n => foEndHold_only s n 1) _ u
      · exact ⟨_, rfl⟩
  unfold fieldClass
  split
  · exact ⟨_, rfl⟩
  · obtain ⟨v, hv⟩ := hall (s.onDie fun d => { d with fsb := cls })
    exact ⟨v, hv⟩

theorem cls_fieldClass (s : State) (k cls : Nat) : (fieldClass s k cls).input.die.cls k = cls := by
  obtain ⟨v, hv⟩ := fieldClass_only s k cls
  rw [hv]
  by_cases hk : k = 0 <;> simp [FieldDie.cls, State.onDie, State.onInput, hk]

theorem fieldClass_missing (s : State) (k n : Nat) (hk : k ≠ 0) (h : n < 8) :
    (foOf (fieldClass s k 2) n).cond.holds.testBit 1 = true ∧ foOn (fieldClass s k 2).input.die n = false := by
  have hall := foldl_reaches (P := fun u j => (foOf u j).cond.holds.testBit 1 = true ∧ foOn u.input.die j = false) (f := fun s n => foHold s n 1 0)
    (l := List.range 8) (fun u j hj i hi => ?_) (s.onDie fun d => { d with fsb := 2 }) n (.inl (List.mem_range.mpr h))
  · unfold fieldClass
    rw [if_neg hk]
    exact hall
  · by_cases hij : i = j
    · subst hij
      obtain ⟨hholds, -, hoff⟩ := foHold_holds u i 1 0 (List.mem_range.mp hj)
      exact ⟨hholds, hoff⟩
    · obtain ⟨hholds, hoff⟩ := hi.resolve_left hij
      have hsame := foHold_ne u j i 1 0 (Ne.symm hij)
      obtain ⟨v, hv⟩ := foHold_only u j 1 0
      refine ⟨by rw [hsame]; exact hholds, ?_⟩
      have hon : foOn (foHold u j 1 0).input.die i = foOn u.input.die i := by
        unfold foOn
        rw [show vget (foHold u j 1 0).input.die.fo i = vget u.input.die.fo i from hsame]
        rfl
      rw [hon]
      exact hoff

theorem fieldClass_present (s : State) (k n : Nat) (hk : k ≠ 0) (h : n < 8) : (foOf (fieldClass s k 0) n).cond.holds.testBit 1 = false := by
  have hall := foldl_reaches (P := fun u j => (foOf u j).cond.holds.testBit 1 = false) (f := fun s n => foEndHold s n 1)
    (l := List.range 8) (fun u j hj i hi => ?_) (s.onDie fun d => { d with fsb := 0 }) n (.inl (List.mem_range.mpr h))
  · unfold fieldClass
    rw [if_neg hk]
    exact hall
  · by_cases hij : i = j
    · subst hij
      exact foEndHold_ends u i 1 (List.mem_range.mp hj)
    · rw [foEndHold_ne u j i 1 (Ne.symm hij)]
      exact hi.resolve_left hij

/-! Supplies (R215, Table 08.4). -/

theorem reclassify_only (s : State) (k : Nat) : ∃ v a b, reclassify s k = s.onDie fun d => { d with fo := v, fsa := a, fsb := b } := by
  unfold reclassify
  dsimp only
  split
  · exact ⟨_, _, _, rfl⟩
  · obtain ⟨v, hv⟩ := fieldClass_only s k (classAt s.input.die s.now k (vget s.input.fs k))
    exact ⟨_, _, _, hv⟩

theorem cls_reclassify (s : State) (k : Nat) : (reclassify s k).input.die.cls k = classAt s.input.die s.now k (vget s.input.fs k) := by
  unfold reclassify
  dsimp only
  split
  · next hsame => exact hsame.symm
  · exact cls_fieldClass ..

theorem reclassify_missing (s : State) (k n : Nat) (hk : k ≠ 0) (h : n < 8) (hcls : classAt s.input.die s.now k (vget s.input.fs k) = 2)
    (hnew : s.input.die.cls k ≠ 2) :
    (foOf (reclassify s k) n).cond.holds.testBit 1 = true ∧ foOn (reclassify s k).input.die n = false := by
  unfold reclassify
  dsimp only
  rw [hcls, if_neg (Ne.symm hnew)]
  exact fieldClass_missing s k n hk h

theorem reclassify_present (s : State) (k n : Nat) (hk : k ≠ 0) (h : n < 8) (hcls : classAt s.input.die s.now k (vget s.input.fs k) = 0)
    (hnew : s.input.die.cls k ≠ 0) : (foOf (reclassify s k) n).cond.holds.testBit 1 = false := by
  unfold reclassify
  dsimp only
  rw [hcls, if_neg (Ne.symm hnew)]
  exact fieldClass_present s k n hk h

/-- The field die with the times since which supply `k` is above its thresholds. -/
def FieldDie.timed (d : FieldDie) (now k mv : Nat) : FieldDie :=
  { d with lowFrom := vmod d.lowFrom k (sinceAbove now mv 10000), okFrom := vmod d.okFrom k (sinceAbove now mv 19000) }

theorem measureSupply_eq (s : State) (k : Nat) :
    measureSupply s k = reclassify (s.onDie fun d => d.timed s.now k (vget s.input.fs k)) k := rfl

theorem fieldSupply_measures (s : State) (k mv : Nat) (hrun : s.input.die.running = true) (hk : k < 2) : fieldSupply s k mv =
    reclassify ((s.onInput fun x => { x with fs := vmod x.fs k fun _ => mv }).onDie fun d => d.timed s.now k mv) k := by
  have hfs : vget (s.onInput fun x => { x with fs := vmod x.fs k fun _ => mv }).input.fs k = mv := vget_vmod_same _ _ _ hk
  unfold fieldSupply
  refine (if_pos hrun).trans ?_
  rw [measureSupply_eq, hfs]
  rfl

theorem sinceAbove_low (now mv th : Nat) (old : Option Nat) (h : mv ≤ th) : sinceAbove now mv th old = none := if_neg (by omega)

theorem sinceAbove_high (now mv th : Nat) (old : Option Nat) (h : th < mv) : sinceAbove now mv th old = some (old.getD now) := if_pos h

/-- A supply that has just risen above a threshold has not been above it for 100 ms. -/
theorem heldFor_getD (now : Nat) (old : Option Nat) : heldFor now (some (old.getD now)) = heldFor now old := by
  cases old with
  | none =>
    rw [Option.getD_none, heldFor, heldFor, Option.any_some, Option.any_none]
    exact decide_eq_false (by omega)
  | some t => rw [Option.getD_some]

theorem classAt_timed (d : FieldDie) (now k mv : Nat) (hk : k < 2) : classAt (d.timed now k mv) now k mv =
    if 19000 < mv ∧ heldFor now (vget d.okFrom k) = true then 0
    else if 10000 < mv ∧ heldFor now (vget d.lowFrom k) = true then
      min (if mv < 9000 then 2 else if mv < 18000 then max (d.cls k) 1 else d.cls k) 1
    else if mv < 9000 then 2 else if mv < 18000 then max (d.cls k) 1 else d.cls k := by
  have hheld (old : Option Nat) (th : Nat) : heldFor now (sinceAbove now mv th old) = true ↔ th < mv ∧ heldFor now old = true := by
    by_cases h : th < mv
    · rw [sinceAbove_high now mv th old h, heldFor_getD]
      simp [h]
    · rw [sinceAbove_low now mv th old (by omega)]
      simp [h, heldFor]
  have hok : vget (d.timed now k mv).okFrom k = sinceAbove now mv 19000 (vget d.okFrom k) := vget_vmod_same _ _ _ hk
  have hlow : vget (d.timed now k mv).lowFrom k = sinceAbove now mv 10000 (vget d.lowFrom k) := vget_vmod_same _ _ _ hk
  unfold classAt
  dsimp only
  rw [hok, hlow]
  simp only [hheld]
  rfl

/-- A supply that moves is measured: its class follows, and FSB takes and gives back the outputs (R215). -/
theorem fieldSupply_acts (s : State) (k mv c : Nat) (hk : k < 2) (hrun : s.input.die.running = true)
    (hc : classAt (s.input.die.timed s.now k mv) s.now k mv = c) :
    (fieldSupply s k mv).input.die.cls k = c ∧ vget (fieldSupply s k mv).input.fs k = mv ∧ (fieldSupply s k mv).plane = s.plane ∧
    (k = 1 → c = 2 → s.input.die.fsb ≠ 2 → ∀ n, n < 8 →
      (foOf (fieldSupply s k mv) n).cond.holds.testBit 1 = true ∧ foOn (fieldSupply s k mv).input.die n = false) ∧
    (k = 1 → c = 0 → s.input.die.fsb ≠ 0 → ∀ n, n < 8 → (foOf (fieldSupply s k mv) n).cond.holds.testBit 1 = false) := by
  obtain ⟨u, hu⟩ : ∃ u, u = (s.onInput fun x => { x with fs := vmod x.fs k fun _ => mv }).onDie fun d => d.timed s.now k mv := ⟨_, rfl⟩
  have hfs : vget u.input.fs k = mv := by
    rw [hu]
    exact vget_vmod_same _ _ _ hk
  have hclass : classAt u.input.die u.now k (vget u.input.fs k) = c := by
    rw [hfs, hu]
    exact hc
  have hold : ∀ j, u.input.die.cls j = s.input.die.cls j := by
    rw [hu]
    exact fun _ => rfl
  obtain ⟨v, a, b, honly⟩ := reclassify_only u k
  rw [fieldSupply_measures s k mv hrun hk, ← hu]
  refine ⟨(cls_reclassify u k).trans hclass, ?_, ?_, fun hone htwo hnew n hn => ?_, fun hone hzero hnew n hn => ?_⟩
  · rw [honly]
    exact hfs
  · rw [honly, hu]
    rfl
  · subst hone
    exact reclassify_missing u 1 n (by decide) hn (hclass.trans htwo) (by rw [hold]; exact hnew)
  · subst hone
    exact reclassify_present u 1 n (by decide) hn (hclass.trans hzero) (by rw [hold]; exact hnew)

theorem fieldSupplyChange_acts (s : State) (k mv : Nat) (hk : k < 2) (hrun : s.input.die.running = true) :
    ∃ t, exec (.fieldSupplyChange k mv) s = .next t ∧ vget t.input.fs k = mv ∧ t.plane = s.plane ∧
      (mv < 9000 → t.input.die.cls k = 2 ∧ (k = 1 → s.input.die.fsb ≠ 2 → ∀ n, n < 8 →
        (foOf t n).cond.holds.testBit 1 = true ∧ foOn t.input.die n = false)) ∧
      (9000 ≤ mv → mv ≤ 10000 → t.input.die.cls k = max (s.input.die.cls k) 1) ∧
      (10000 < mv → mv ≤ 19000 → s.input.die.cls k = 2 → t.input.die.cls k = (if heldFor s.now (vget s.input.die.lowFrom k) = true then 1 else 2)) ∧
      (19000 < mv → heldFor s.now (vget s.input.die.okFrom k) = true → t.input.die.cls k = 0 ∧ (k = 1 → s.input.die.fsb ≠ 0 → ∀ n, n < 8 →
        (foOf t n).cond.holds.testBit 1 = false)) := by
  obtain ⟨hcls, hfs, hplane, hmissing, hpresent⟩ := fieldSupply_acts s k mv _ hk hrun rfl
  rw [classAt_timed _ _ _ _ hk] at hcls hmissing hpresent
  refine ⟨(fieldSupply s k mv).withPending s.pending, rfl, hfs, hplane, fun hlow => ?_, fun hmin hmax => ?_, fun hmin hmax htwo => ?_, fun hhigh hheld => ?_⟩
  · rw [if_neg (by omega), if_neg (by omega), if_pos hlow] at hcls hmissing
    exact ⟨hcls, fun hone hnew => hmissing hone rfl hnew⟩
  · rw [if_neg (by omega), if_neg (by omega), if_neg (by omega), if_pos (by omega)] at hcls
    exact hcls
  · rw [if_neg (by omega)] at hcls
    refine hcls.trans ?_
    rw [htwo, if_neg (show ¬ mv < 9000 by omega)]
    by_cases hheld : heldFor s.now (vget s.input.die.lowFrom k) = true
    · rw [if_pos ⟨hmin, hheld⟩, if_pos hheld]
      split <;> rfl
    · rw [if_neg fun h => hheld h.2, if_neg hheld]
      split <;> rfl
  · rw [if_pos ⟨hhigh, hheld⟩] at hcls hpresent
    exact ⟨hcls, fun hone hnew => hpresent hone rfl hnew⟩

/-! The field die stops and powers up (R215, R227). -/

theorem fieldDieStop_stops (s : State) (hrun : s.input.die.running = true) (hlow : max (vget s.input.fs 0) (vget s.input.fs 1) ≤ 8000) :
    ∃ t, exec .fieldDieStop s = .next t ∧ t.input.die = {} ∧ t.input.link = s.input.link := by
  have hstop : fieldStop s = s.onDie fun _ => {} := if_pos ⟨hrun, hlow⟩
  exact ⟨(s.onDie fun _ => {}).withPending s.pending, congrArg (effect s) hstop, rfl, rfl⟩

/-- A class that has been missing stays so while its supply has not been above its thresholds for 100 ms. -/
theorem measureSupply_starts (s : State) (k : Nat) (hk : k < 2) (hmissing : s.input.die.cls k = 2) (hlow : vget s.input.die.lowFrom k = none)
    (hok : vget s.input.die.okFrom k = none) : measureSupply s k = s.onDie fun d => d.timed s.now k (vget s.input.fs k) := by
  have hclass : classAt (s.input.die.timed s.now k (vget s.input.fs k)) s.now k (vget s.input.fs k) = 2 := by
    rw [classAt_timed _ _ _ _ hk, hlow, hok, hmissing]
    simp [heldFor]
  rw [measureSupply_eq]
  unfold reclassify
  exact if_pos (hclass.trans hmissing.symm)

/-- The field die as it powers up: its outputs are held while FSB is MISSING (R227). -/
def dieStarted (s : State) : State := fieldClass (s.onDie fun _ => { running := true, restarted := true }) 1 2

theorem fieldPowerUp_starts (s : State) (hrun : s.input.die.running = false) (hhigh : 10000 < max (vget s.input.fs 0) (vget s.input.fs 1)) :
    fieldPowerUp s = ((dieStarted s).onDie fun d => d.timed s.now 0 (vget s.input.fs 0)).onDie fun d => d.timed s.now 1 (vget s.input.fs 1) := by
  obtain ⟨v, hv⟩ := fieldClass_only (s.onDie fun _ => { running := true, restarted := true }) 1 2
  have hzero : measureSupply (dieStarted s) 0 = (dieStarted s).onDie fun d => d.timed s.now 0 (vget s.input.fs 0) := by
    have hstart := measureSupply_starts (dieStarted s) 0 (by decide) (by rw [dieStarted, hv]; rfl) (by rw [dieStarted, hv]; rfl) (by rw [dieStarted, hv]; rfl)
    rw [hstart, dieStarted, hv]
    rfl
  have hone : measureSupply ((dieStarted s).onDie fun d => d.timed s.now 0 (vget s.input.fs 0)) 1 =
      ((dieStarted s).onDie fun d => d.timed s.now 0 (vget s.input.fs 0)).onDie fun d => d.timed s.now 1 (vget s.input.fs 1) := by
    have hother {α : Type} [Inhabited α] (w : Vector α 2) (f : α → α) : vget (vmod w 0 f) 1 = vget w 1 := vget_vmod_ne w 0 1 f (by decide)
    have hstart := measureSupply_starts ((dieStarted s).onDie fun d => d.timed s.now 0 (vget s.input.fs 0)) 1 (by decide) (by rw [dieStarted, hv]; rfl)
      ((hother _ _).trans (by rw [dieStarted, hv]; rfl)) ((hother _ _).trans (by rw [dieStarted, hv]; rfl))
    rw [hstart, dieStarted, hv]
    rfl
  unfold fieldPowerUp
  rw [if_neg (by rw [hrun, higherSupply]; simp only [Bool.false_eq_true, false_or]; omega)]
  exact (congrArg (measureSupply · 1) hzero).trans hone

theorem fieldDiePowerUp_starts (s : State) (hrun : s.input.die.running = false) (hhigh : 10000 < max (vget s.input.fs 0) (vget s.input.fs 1)) :
    ∃ t, exec .fieldDiePowerUp s = .next t ∧ t.input.die.running = true ∧ t.input.die.restarted = true ∧ t.input.die.configured = false ∧
      t.input.die.lost = true ∧ t.input.die.fsa = 2 ∧ t.input.die.fsb = 2 ∧ (∀ n, n < 8 → (foOf t n).cond.holds.testBit 1 = true ∧
        foOn t.input.die n = false) ∧ ∀ n, n < 16 → (vget t.input.die.fi n).out = false := by
  obtain ⟨v, hv⟩ := fieldClass_only (s.onDie fun _ => { running := true, restarted := true }) 1 2
  have hmissing := fieldClass_missing (s.onDie fun _ => { running := true, restarted := true }) 1
  have hstarts := fieldPowerUp_starts s hrun hhigh
  rw [dieStarted, hv] at hstarts
  rw [hv] at hmissing
  refine ⟨_, congrArg (effect s) hstarts, rfl, rfl, rfl, rfl, rfl, rfl, fun n hn => hmissing n (by decide) hn, fun n hn => ?_⟩
  exact congrArg Fi.out (by simp [vget, hn] : vget (Vector.replicate 16 ({} : Fi)) n = {})

/-! Field inputs (R216, R217, R228). -/

theorem mem_chgInsert (c : FieldChg) (l : List FieldChg) : c ∈ chgInsert c l := by
  induction l with
  | nil => exact List.mem_singleton.mpr rfl
  | cons x l ih =>
    unfold chgInsert
    split
    · exact List.mem_cons_self ..
    · exact List.mem_cons_of_mem _ ih

theorem setLatch_input (s : State) (cause index : Nat) : (setLatch s cause index).input = s.input := by
  unfold setLatch
  split
  · rfl
  · dsimp only
    split <;> rfl

theorem latchWake_input (s : State) (cause index : Nat) : (latchWake s cause index).input = s.input := by
  unfold latchWake
  split
  · exact setLatch_input ..
  · rfl

/-- A wake of an armed source is latched. -/
theorem setLatch_latches (s : State) (cause index : Nat) : ∃ l ∈ (setLatch s cause index).sleep.latches, l.cause = cause ∧ l.index = index := by
  unfold setLatch
  split
  case isTrue hany =>
    obtain ⟨l, hl, hof⟩ := List.any_eq_true.mp hany
    simp only [Latch.isOf, Bool.and_eq_true, beq_iff_eq] at hof
    refine ⟨_, List.mem_map_of_mem hl, ?_⟩
    split <;> exact hof
  case isFalse =>
    exact ⟨_, List.mem_append_right _ (List.mem_singleton.mpr rfl), rfl, rfl⟩

theorem latchWake_latches (s : State) (cause index : Nat) (h : armedSource s cause index = true) :
    ∃ l ∈ (latchWake s cause index).sleep.latches, l.cause = cause ∧ l.index = index := by
  unfold latchWake
  rw [if_pos h]
  exact setLatch_latches ..

/-- A sample of a field input as the field die keeps it. -/
def fiSampled (s : State) (n : Nat) (raw : Bool) (c : Nat) (o : Bool) : State :=
  s.onDie fun d => { d with fi := vmod d.fi n fun _ => { raw := raw, count := c, out := o } }

/-- A changed field input as it enters the frame of its window. -/
def fiChanged (s : State) (n : Nat) (raw : Bool) (c : Nat) (o : Bool) : State :=
  (fiSampled s n raw c o).onDie fun d => { d with chg := chgInsert { input := n, offset := d.wire % 16, value := o } d.chg }

theorem fiSample_samples (s : State) (n mv : Nat) (raw : Bool) (c : Nat) (o : Bool) (hrun : s.input.die.running = true)
    (henable : (vget s.input.die.fiCfg n).enable = true) (hpark : s.input.die.parked = true → (vget s.input.die.fiCfg n).wakeEn = true)
    (htick : sampleTick n (vget s.input.die.fiCfg n).sample s.input.die.tick = true)
    (hraw : raw = fiRaw (vget s.input.die.fiCfg n).type3 (vget s.input.die.fi n).raw mv)
    (hstep : (c, o) = filterStep raw (vget s.input.die.fiCfg n).countF (vget s.input.die.fi n).count (vget s.input.die.fi n).out) :
    fiSample s n mv = if o = (vget s.input.die.fi n).out then fiSampled s n raw c o
      else if s.input.die.parked then latchWake (fiChanged s n raw c o) 8 n else fiChanged s n raw c o := by
  unfold fiSample
  dsimp only
  rw [if_pos ⟨hrun, henable, hpark, htick⟩, ← hraw, ← hstep]
  rfl

theorem fieldInputChange_acts (n mv : Nat) (raw : Bool) (c : Nat) (o : Bool) (s : State) (h : n < 16) (hrun : s.input.die.running = true)
    (henable : (vget s.input.die.fiCfg n).enable = true) (hpark : s.input.die.parked = true → (vget s.input.die.fiCfg n).wakeEn = true)
    (htick : sampleTick n (vget s.input.die.fiCfg n).sample s.input.die.tick = true)
    (hraw : raw = fiRaw (vget s.input.die.fiCfg n).type3 (vget s.input.die.fi n).raw mv)
    (hstep : (c, o) = filterStep raw (vget s.input.die.fiCfg n).countF (vget s.input.die.fi n).count (vget s.input.die.fi n).out) :
    ∃ t, exec (.fieldInputChange n mv) s = .next t ∧ vget t.input.die.fi n = { raw := raw, count := c, out := o } ∧
      (∀ k, k ≠ n → vget t.input.die.fi k = vget s.input.die.fi k) ∧ (o = (vget s.input.die.fi n).out → t.input.die.chg = s.input.die.chg) ∧
      (o ≠ (vget s.input.die.fi n).out → (⟨n, s.input.die.wire % 16, o⟩ : FieldChg) ∈ t.input.die.chg) ∧
      (o ≠ (vget s.input.die.fi n).out → s.input.die.parked = true → armedSource s 8 n = true → ∃ l ∈ t.sleep.latches, l.cause = 8 ∧ l.index = n) := by
  have hsamples := fiSample_samples s n mv raw c o hrun henable hpark htick hraw hstep
  have hnew : vget (vmod s.input.die.fi n fun _ => ({ raw := raw, count := c, out := o } : Fi)) n = { raw := raw, count := c, out := o } :=
    vget_vmod_same _ _ _ h
  have hother (k : Nat) (hk : k ≠ n) : vget (vmod s.input.die.fi n fun _ => ({ raw := raw, count := c, out := o } : Fi)) k = vget s.input.die.fi k :=
    vget_vmod_ne _ _ _ _ (Ne.symm hk)
  have hlatched : (latchWake (fiChanged s n raw c o) 8 n).input = (fiChanged s n raw c o).input := latchWake_input ..
  by_cases hsame : o = (vget s.input.die.fi n).out
  · rw [if_pos hsame] at hsamples
    exact ⟨_, congrArg (effect s) hsamples, hnew, hother, fun _ => rfl, fun hne => absurd hsame hne, fun hne => absurd hsame hne⟩
  · rw [if_neg hsame] at hsamples
    by_cases hparked : s.input.die.parked = true
    · rw [if_pos hparked] at hsamples
      refine ⟨(latchWake (fiChanged s n raw c o) 8 n).withPending s.pending, congrArg (effect s) hsamples, ?_, fun k hk => ?_, fun he => absurd he hsame,
        fun _ => ?_, fun _ _ harmed => latchWake_latches (fiChanged s n raw c o) 8 n harmed⟩
      · rw [withPending_input, hlatched]
        exact hnew
      · rw [withPending_input, hlatched]
        exact hother k hk
      · rw [withPending_input, hlatched]
        exact mem_chgInsert _ _
    · rw [if_neg hparked] at hsamples
      exact ⟨(fiChanged s n raw c o).withPending s.pending, congrArg (effect s) hsamples, hnew, hother, fun he => absurd he hsame,
        fun _ => mem_chgInsert _ _, fun _ hp => absurd hp hparked⟩

/-! Frames of the main die (R217, R220, R224, R226, R227). -/

theorem fieldFrame_takes (s : State) (f : MainFrame) (b : Bool) (hrun : s.input.die.running = true) (hsent : s.input.link.sent = some f) :
    fieldFrame s b = if goodFrame s.input.die b f then (s.onField fun l => { l with sent := none }).onDie fun d => d.takeFrame s.wallTick f
      else (s.onField fun l => { l with sent := none }).onDie fun d => { d with goodRun := 0 } := by
  have hon : ((s.onField fun l => { l with sent := none }).input.die.running) = true := hrun
  unfold fieldFrame
  rw [hsent]
  dsimp only
  rw [hon]
  rfl

/-- What a configuration word leaves alone: the counts, the queue and the link state. -/
theorem applyWord_keeps (d : FieldDie) (a w : Nat) : (applyWord d a w).lastGood = d.lastGood ∧ (applyWord d a w).nextWin = d.nextWin ∧
    (applyWord d a w).wire = d.wire ∧ (applyWord d a w).goodRun = d.goodRun ∧ (applyWord d a w).parkDue = d.parkDue ∧ (applyWord d a w).tick = d.tick ∧
    (applyWord d a w).queue = d.queue := by
  unfold applyWord
  dsimp only
  split
  all_goals
    split
    all_goals exact ⟨rfl, rfl, rfl, rfl, rfl, rfl, rfl⟩

theorem applyWord_completes (d : FieldDie) (a w : Nat) (h : setBit d.cfgSeen a true = 2 ^ 24 - 1) :
    (applyWord d a w).configured = true ∧ (applyWord d a w).restarted = false := by
  by_cases ha : a < 16
  · simp [applyWord, ha, h]
  · simp [applyWord, ha, h]

theorem fieldFrameRx_good (f : MainFrame) (s : State) (hrun : s.input.die.running = true) (hsent : s.input.link.sent = some f)
    (hgood : s.input.die.lost = true ∨ s.input.die.parked = true ∨ f.tick = 0 ∨ s.input.die.nextWin.all (· == f.tick / 16) = true) :
    ∃ t, exec (.fieldFrameRx true) s = .next t ∧ t.input.link.sent = none ∧ t.input.die.lastGood = some f.tick ∧
      t.input.die.nextWin = some (f.tick / 16 + 1) ∧ t.input.die.wire = s.wallTick ∧
      t.input.die.goodRun = (if s.input.die.nextWin = some (f.tick / 16) ∨ f.tick = 0 then s.input.die.goodRun + 1 else 1) ∧
      t.input.die.parkDue = (f.park && !s.input.die.parked) ∧
      (f.park = false → s.input.die.lost = false → t.input.die.tick = s.wallTick ∧
        t.input.die.queue = s.input.die.queue ++ (List.range (min f.fo.length 16)).map fun j => (f.tick + j + 32, f.fo.getD j 0)) ∧
      (f.cfgValid = true → setBit s.input.die.cfgSeen f.cfgAddr true = 2 ^ 24 - 1 → t.input.die.configured = true ∧ t.input.die.restarted = false) := by
  have htakes := fieldFrame_takes s f true hrun hsent
  rw [if_pos (by simp only [goodFrame, Bool.true_and, Bool.or_eq_true, beq_iff_eq]; tauto)] at htakes
  refine ⟨_, congrArg (effect s) htakes, rfl, ?_⟩
  change (s.input.die.takeFrame s.wallTick f).lastGood = _ ∧ (s.input.die.takeFrame s.wallTick f).nextWin = _ ∧
    (s.input.die.takeFrame s.wallTick f).wire = _ ∧ (s.input.die.takeFrame s.wallTick f).goodRun = _ ∧
    (s.input.die.takeFrame s.wallTick f).parkDue = _ ∧ (f.park = false → s.input.die.lost = false →
      (s.input.die.takeFrame s.wallTick f).tick = s.wallTick ∧ (s.input.die.takeFrame s.wallTick f).queue = _) ∧
    (f.cfgValid = true → setBit s.input.die.cfgSeen f.cfgAddr true = 2 ^ 24 - 1 → (s.input.die.takeFrame s.wallTick f).configured = true ∧
      (s.input.die.takeFrame s.wallTick f).restarted = false)
  generalize s.wallTick = now
  generalize s.input.die = d
  obtain ⟨e, he, hlast, hnext, hwire, hgoodRun, hdue, hfollow, hseen⟩ : ∃ e : FieldDie,
      d.takeFrame now f = (if f.cfgValid then applyWord e f.cfgAddr f.cfgData else e) ∧ e.lastGood = some f.tick ∧ e.nextWin = some (f.tick / 16 + 1) ∧
      e.wire = now ∧ e.goodRun = (if d.nextWin = some (f.tick / 16) ∨ f.tick = 0 then d.goodRun + 1 else 1) ∧ e.parkDue = (f.park && !d.parked) ∧
      (f.park = false → d.lost = false → e.tick = now ∧ e.queue = d.queue ++ foQueue f.tick f.fo) ∧ e.cfgSeen = d.cfgSeen := by
    refine ⟨_, rfl, rfl, rfl, rfl, ?_, rfl, fun hpark hlost => ?_, rfl⟩
    · simp [runsOn]
    · simp [hpark, hlost]
  obtain ⟨hlast', hnext', hwire', hrun', hdue', htick', hqueue'⟩ := applyWord_keeps e f.cfgAddr f.cfgData
  rw [he]
  by_cases hvalid : f.cfgValid = true
  · rw [if_pos hvalid]
    refine ⟨hlast'.trans hlast, hnext'.trans hnext, hwire'.trans hwire, hrun'.trans hgoodRun, hdue'.trans hdue, fun hpark hlost => ?_, fun _ hfull => ?_⟩
    · exact ⟨htick'.trans (hfollow hpark hlost).1, hqueue'.trans (hfollow hpark hlost).2⟩
    · exact applyWord_completes e _ _ (by rw [hseen]; exact hfull)
  · rw [if_neg hvalid]
    exact ⟨hlast, hnext, hwire, hgoodRun, hdue, hfollow, fun hv => absurd hv hvalid⟩

theorem fieldFrameRx_bad (f : MainFrame) (b : Bool) (s : State) (hrun : s.input.die.running = true) (hsent : s.input.link.sent = some f)
    (hbad : b = false ∨ (s.input.die.lost = false ∧ s.input.die.parked = false ∧ f.tick ≠ 0 ∧ ∃ w, s.input.die.nextWin = some w ∧ w ≠ f.tick / 16)) :
    ∃ t, exec (.fieldFrameRx b) s = .next t ∧ t.input.die = { s.input.die with goodRun := 0 } ∧ t.input.link.sent = none := by
  have htakes := fieldFrame_takes s f b hrun hsent
  rw [if_neg] at htakes
  · exact ⟨_, congrArg (effect s) htakes, rfl, rfl⟩
  · obtain hcrc | ⟨hlost, hparked, htick, w, hw, hother⟩ := hbad
    · simp [goodFrame, hcrc]
    · simp [goodFrame, hlost, hparked, htick, hw, hother]

/-! LINK_LOST, its end, and park (R226–R228). -/

theorem fieldLinkLost_loses (k : Nat) (s : State) (hrun : s.input.die.running = true) (hlost : s.input.die.lost = false) (hpark : s.input.die.parked = false)
    (hlast : s.input.die.lastGood = some k) (hlate : k + 79 ≤ s.input.die.wire) :
    ∃ t, exec .fieldLinkLost s = .next t ∧ t.input.die.lost = true ∧ t.input.die.queue = [] ∧ ∀ n, n < 8 →
      (vget t.input.die.fo n).cmd = (if (vget s.input.die.foCfg n).fail = 0 then false else if (vget s.input.die.foCfg n).fail = 1 then true
        else (vget s.input.die.fo n).cmd) := by
  have hloses : fieldLost s = s.onDie fun d => { d with
      lost := true, goodRun := 0, queue := []
      fo := vmapIdx d.fo fun n x => { x with cmd := if (vget d.foCfg n).fail = 0 then false else if (vget d.foCfg n).fail = 1 then true else x.cmd } } := by
    unfold fieldLost
    simp [hrun, hlost, hpark, hlast, hlate]
  refine ⟨_, congrArg (effect s) hloses, rfl, rfl, fun n hn => ?_⟩
  exact congrArg Fo.cmd (vget_vmapIdx _ _ _ hn)

theorem fieldLinkRecover_recovers (s : State) (hrun : s.input.die.running = true) (hlost : s.input.die.lost = true)
    (hconf : s.input.die.configured = true) (hgood : 8 ≤ s.input.die.goodRun) :
    ∃ t, exec .fieldLinkRecover s = .next t ∧ t.input.die.lost = false ∧ t.input.die.tick = s.input.die.wire ∧ t.input.die.queue = [] ∧
      (s.input.link.cfgStored = true → t.input.die.fiCfg = s.store.input.fi ∧ t.input.die.foCfg = s.store.input.fo ∧ t.input.link.cfgStored = false) := by
  have hrecovers : fieldRecover s = (if s.input.link.cfgStored then (fieldApply s).onField fun l => { l with cfgStored := false } else s).onDie
      fun d => { d with lost := false, tick := d.wire, queue := [] } := by
    unfold fieldRecover
    exact if_pos ⟨hrun, hlost, hconf, hgood⟩
  refine ⟨_, congrArg (effect s) hrecovers, rfl, ?_, rfl, fun hstored => ?_⟩
  · by_cases hstored : s.input.link.cfgStored = true
    · rw [if_pos hstored]
      rfl
    · rw [if_neg hstored]
      rfl
  · rw [if_pos hstored]
    exact ⟨rfl, rfl, rfl⟩

theorem length_cfgWords (x : InputStore) : (cfgWords x).length = 24 := by
  simp [cfgWords]

theorem fieldReconfigure_queues (s : State) (hneed : s.input.link.needCfg = true) :
    ∃ t, exec .fieldReconfigure s = .next t ∧ t.input.link.needCfg = false ∧ t.input.link.cfgQueue = cfgWords s.store.input ∧
      t.input.link.cfgQueue.length = 24 ∧ t.input.die = s.input.die := by
  have hqueues : fieldReconfigure s = s.onField fun l => { l with needCfg := false, cfgStored := false, cfgQueue := cfgWords s.store.input } := if_pos hneed
  exact ⟨_, congrArg (effect s) hqueues, rfl, rfl, length_cfgWords _, rfl⟩

theorem fieldPark_parks (s : State) (hrun : s.input.die.running = true) (hdue : s.input.die.parkDue = true) :
    ∃ t, exec .fieldPark s = .next t ∧ t.input.die.parked = true ∧ t.input.die.parkDue = false ∧ t.input.die.parkFi = fiState s.input.die ∧
      ∀ n, n < 8 → (vget t.input.die.fo n).cmd = ((vget s.input.die.fo n).cmd && (vget s.input.die.foCfg n).park != 0) := by
  have hparks : fieldPark s = s.onDie fun d => { d with
      parked := true, parkDue := false, queue := [], parkFi := fiState d
      fo := vmapIdx d.fo fun n x => { x with cmd := if (vget d.foCfg n).park = 0 then false else x.cmd } } := if_pos ⟨hrun, hdue⟩
  refine ⟨_, congrArg (effect s) hparks, rfl, rfl, rfl, fun n hn => ?_⟩
  refine (congrArg Fo.cmd (vget_vmapIdx _ _ _ hn)).trans ?_
  by_cases hzero : (vget s.input.die.foCfg n).park = 0
  · simp [hzero]
  · simp [hzero]

/-! Faults of a field output (Table 08.8). -/

theorem fieldOutFault_of_seen (s : State) (n cause : Nat) (r : List Nat) (active : Bool) (hrun : s.input.die.running = true)
    (hseen : foFaultSeen s cause r active = true) : fieldOutFault s n cause r active =
    if active then
      if cause = 7 then (if foOn s.input.die n then foLock s n 7 1 else s)
      else if cause = 6 then
        if foOn s.input.die n then
          let s := s.onFo n fun x => { x with lastShutdown := s.now, cond := { x.cond with cool := false } }
          if (foOf s n).restarts < 16 then foHold s n 6 0 else foLock s n 6 2
        else s
      else if cause = 8 then (if (vget s.input.die.foCfg n).olEn ∧ !foOn s.input.die n then foActive s n 8 1 else s)
      else if cause = 9 then (if foOn s.input.die n then s else foActive s n 9 0)
      else s
    else if cause = 6 then
      let s := s.onFo n fun x => { x with cond := { x.cond with cool := true } }
      if (foOf s n).cond.holds.testBit 6 then
        let s := foEndHold s n 6
        s.onFo n fun x => { x with restarts := x.restarts + b2n (foOn s.input.die n) }
      else s
    else if cause = 8 ∨ cause = 9 then foEnd s n cause
    else s := by
  unfold fieldOutFault
  refine if_neg ?_
  simp [hrun, hseen]

theorem any_le_of_exists {r : List Nat} {P : Nat → Prop} [DecidablePred P] (h : ∃ k ∈ r, P k) : r.any (fun k => decide (P k)) = true := by
  simpa using h

theorem Cond.active_report (c : Cond) (cause : Nat) : (c.report cause).active.testBit cause = true := testBit_setBit_same c.active cause true

theorem Cond.active_clear (c : Cond) (cause : Nat) : (c.clear cause).active.testBit cause = false := testBit_setBit_same c.active cause false

theorem foActive_activates (s : State) (n cause detail : Nat) (h : n < 8) : (foOf (foActive s n cause detail) n).cond.active.testBit cause = true ∧
    (foOf (foActive s n cause detail) n).cond.locks = (foOf s n).cond.locks := by
  rw [foOf_foActive s n cause detail h]
  exact ⟨Cond.active_report .., rfl⟩

theorem foEnd_ends (s : State) (n cause : Nat) (h : n < 8) : (foOf (foEnd s n cause) n).cond.active.testBit cause = false := by
  rw [foEnd, foOf_onFo_same s n _ h]
  exact Cond.active_clear ..

/-- Whether an output is on does not depend on its restarts. -/
theorem foOn_restarts (s : State) (n k : Nat) : foOn (s.onFo n fun x => { x with restarts := x.restarts + k }).input.die n = foOn s.input.die n := by
  have hcmd : (vget (s.onFo n fun x => { x with restarts := x.restarts + k }).input.die.fo n).cmd = (vget s.input.die.fo n).cmd :=
    vget_vmod_proj _ n n _ Fo.cmd fun _ => rfl
  have hcond : (vget (s.onFo n fun x => { x with restarts := x.restarts + k }).input.die.fo n).cond = (vget s.input.die.fo n).cond :=
    vget_vmod_proj _ n n _ Fo.cond fun _ => rfl
  unfold foOn
  dsimp only
  rw [hcmd, hcond]
  rfl

/-- The output as it is once a shutdown has been noted. -/
def foShutdown (s : State) (n : Nat) : State := s.onFo n fun x => { x with lastShutdown := s.now, cond := { x.cond with cool := false } }

theorem foOf_foShutdown (s : State) (n : Nat) (h : n < 8) :
    foOf (foShutdown s n) n = { foOf s n with lastShutdown := s.now, cond := { (foOf s n).cond with cool := false } } := foOf_onFo_same _ n _ h

theorem fieldOutputFault_short (n : Nat) (r : List Nat) (s : State) (h : n < 8) (hrun : s.input.die.running = true) (hon : foOn s.input.die n = true)
    (hseen : ∃ k ∈ r, 800 ≤ k) : ∃ t, exec (.fieldOutputFault n 7 r true) s = .next t ∧ (foOf t n).cond.locks.testBit 7 = true ∧
      (foOf t n).cond.active.testBit 7 = true ∧ foOn t.input.die n = false := by
  have hact := fieldOutFault_of_seen s n 7 r true hrun (any_le_of_exists hseen)
  rw [if_pos rfl, if_pos rfl, if_pos hon] at hact
  obtain ⟨hlock, hactive, -, hoff⟩ := foLock_locks s n 7 1 h
  exact ⟨_, congrArg (effect s) hact, hlock, hactive, hoff⟩

theorem fieldOutputFault_shutdown (n : Nat) (r : List Nat) (s : State) (h : n < 8) (hrun : s.input.die.running = true) (hon : foOn s.input.die n = true)
    (hleft : (foOf s n).restarts < 16) (hseen : ∃ c ∈ r, 175 ≤ c) : ∃ t, exec (.fieldOutputFault n 6 r true) s = .next t ∧
      (foOf t n).cond.holds.testBit 6 = true ∧ (foOf t n).cond.locks = (foOf s n).cond.locks ∧ foOn t.input.die n = false := by
  have hact := fieldOutFault_of_seen s n 6 r true hrun (any_le_of_exists hseen)
  have hfo := foOf_foShutdown s n h
  rw [if_pos rfl, if_neg (by decide), if_pos rfl, if_pos hon] at hact
  have hact := hact.trans (if_pos (by rw [show foOf (s.onFo n _) n = _ from hfo]; exact hleft))
  obtain ⟨hhold, hlocks, hoff⟩ := foHold_holds (foShutdown s n) n 6 0 h
  exact ⟨_, congrArg (effect s) hact, hhold, hlocks.trans (by rw [hfo]), hoff⟩

theorem fieldOutputFault_tired (n : Nat) (r : List Nat) (s : State) (h : n < 8) (hrun : s.input.die.running = true) (hon : foOn s.input.die n = true)
    (hspent : 16 ≤ (foOf s n).restarts) (hseen : ∃ c ∈ r, 175 ≤ c) : ∃ t, exec (.fieldOutputFault n 6 r true) s = .next t ∧
      (foOf t n).cond.locks.testBit 6 = true ∧ (foOf t n).cond.thermDetail = 2 ∧ foOn t.input.die n = false := by
  have hact := fieldOutFault_of_seen s n 6 r true hrun (any_le_of_exists hseen)
  have hfo := foOf_foShutdown s n h
  rw [if_pos rfl, if_neg (by decide), if_pos rfl, if_pos hon] at hact
  have hact := hact.trans (if_neg (by rw [show foOf (s.onFo n _) n = _ from hfo]; exact Nat.not_lt.mpr hspent))
  obtain ⟨hlock, -, hdetail, hoff⟩ := foLock_locks (foShutdown s n) n 6 2 h
  exact ⟨_, congrArg (effect s) hact, hlock, hdetail rfl, hoff⟩

theorem fieldOutputFault_cooled (n : Nat) (r : List Nat) (s : State) (h : n < 8) (hrun : s.input.die.running = true)
    (hhold : (foOf s n).cond.holds.testBit 6 = true) (hseen : ∃ c ∈ r, c ≤ 160) : ∃ t, exec (.fieldOutputFault n 6 r false) s = .next t ∧
      (foOf t n).cond.holds.testBit 6 = false ∧ (foOf t n).restarts = (foOf s n).restarts + b2n (foOn t.input.die n) := by
  have hact := fieldOutFault_of_seen s n 6 r false hrun (any_le_of_exists hseen)
  obtain ⟨u, hu⟩ : ∃ u, s.onFo n (fun x => { x with cond := { x.cond with cool := true } }) = u := ⟨_, rfl⟩
  have hfo : foOf u n = { foOf s n with cond := { (foOf s n).cond with cool := true } } := hu ▸ foOf_onFo_same s n _ h
  rw [if_neg (by decide), if_pos rfl] at hact
  have hact := hact.trans (if_pos (by rw [foOf_onFo_same s n _ h]; exact hhold))
  rw [hu] at hact
  have hsame := foOf_onFo_same (foEndHold u n 6) n (fun x => { x with restarts := x.restarts + b2n (foOn (foEndHold u n 6).input.die n) }) h
  refine ⟨_, congrArg (effect s) hact, (congrArg (fun x : Fo => x.cond.holds.testBit 6) hsame).trans (foEndHold_ends u n 6 h), ?_⟩
  refine (congrArg Fo.restarts hsame).trans ?_
  change (foOf (foEndHold u n 6) n).restarts + _ = _ + b2n (foOn ((foEndHold u n 6).onFo n _).input.die n)
  rw [foOn_restarts, foEndHold_restarts u n 6 h, hfo]

theorem fieldOutputFault_openLoad (n : Nat) (r : List Nat) (s : State) (h : n < 8) (hrun : s.input.die.running = true)
    (hen : (vget s.input.die.foCfg n).olEn = true) (hoff : foOn s.input.die n = false) (hlen : 8 ≤ r.length) (hall : ∀ v ∈ r, 4000 < v) :
    ∃ t, exec (.fieldOutputFault n 8 r true) s = .next t ∧ (foOf t n).cond.active.testBit 8 = true ∧ (foOf t n).cond.locks = (foOf s n).cond.locks := by
  have hact := fieldOutFault_of_seen s n 8 r true hrun (by simp [foFaultSeen, hlen]; exact hall)
  rw [if_pos rfl, if_neg (by decide), if_neg (by decide), if_pos rfl, if_pos ⟨hen, by rw [hoff]; rfl⟩] at hact
  exact ⟨_, congrArg (effect s) hact, foActive_activates s n 8 1 h⟩

theorem fieldOutputFault_ends (n cause : Nat) (r : List Nat) (s : State) (h : n < 8) (hrun : s.input.die.running = true) (hcause : cause = 8 ∨ cause = 9)
    (hseen : foFaultSeen s cause r false = true) :
    ∃ t, exec (.fieldOutputFault n cause r false) s = .next t ∧ (foOf t n).cond.active.testBit cause = false := by
  have hact := fieldOutFault_of_seen s n cause r false hrun hseen
  rw [if_neg (by decide), if_neg (by omega), if_pos hcause] at hact
  exact ⟨_, congrArg (effect s) hact, foEnd_ends s n cause h⟩

theorem fieldOutputFault_backfeed (n : Nat) (r : List Nat) (s : State) (h : n < 8) (hrun : s.input.die.running = true) (hoff : foOn s.input.die n = false)
    (hseen : ∃ v ∈ r, vget s.input.fs 1 < v + 2000) : ∃ t, exec (.fieldOutputFault n 9 r true) s = .next t ∧
      (foOf t n).cond.active.testBit 9 = true ∧ (foOf t n).cond.locks = (foOf s n).cond.locks := by
  have hact := fieldOutFault_of_seen s n 9 r true hrun (any_le_of_exists hseen)
  rw [if_pos rfl, if_neg (by decide), if_neg (by decide), if_neg (by decide), if_pos rfl, if_neg (by rw [hoff]; decide)] at hact
  exact ⟨_, congrArg (effect s) hact, foActive_activates s n 9 0 h⟩

/-! The barrier link at the main die (R22, R224, R225). -/

theorem Carries.onField {s t : State} (h : Carries s t) {f : FieldLink → FieldLink} : Carries s (t.onField f) := h.same rfl

theorem Carries.sense {s t : State} (h : Carries s t) {x : Stamp} {hall idx : Nat} {w : List (Nat × PVal)} {es : List Ev} {caps : List CapRecord} :
    Carries s (sense t x hall idx w es caps) := h.landPut.foldl fun _ _ hu => hu.capItem

theorem Carries.observeAt {s t : State} (h : Carries s t) {tick hall idx : Nat} {w : List (Nat × PVal)} {es : List Ev} :
    Carries s (observeAt t tick hall idx w es) := by
  unfold Machine.observeAt
  split
  · exact h.sense
  · exact h

/-- What is delivered stays on its way. -/
theorem Delivered.of_carries {s u v : State} {x : Stamp} {h idx : Nat} {w : List (Nat × PVal)} {es : List Ev} (hdelivered : Delivered u v x h idx w es)
    (hbefore : Carries s u) {t : State} (hmore : KeepsItems v t) : Delivered s t x h idx w es := fun hfeeds =>
  (hdelivered ((feedsL0_of_reach hbefore.reach h).trans hfeeds)).elim fun it hit => ⟨it, hmore 0 it hit.1, hit.2⟩

/-- What the main die observes under a stamp is delivered with it. -/
theorem observeAt_delivers (s : State) (tick h idx : Nat) (w : List (Nat × PVal)) (es : List Ev) (hh : h = 8) :
    Delivered s (observeAt s tick h idx w es) ⟨s.plane.epoch, tick⟩ h idx w es := fun hfeeds => by
  subst hh
  unfold observeAt
  rw [if_pos hfeeds]
  exact sense_delivered s _ _ idx w es _ hfeeds

/-- The items of the sense landing stay while only the progress of a stream moves. -/
theorem fieldProgress_keeps (s : State) (w : Nat) : KeepsItems s (fieldProgress s w) := by
  intro l it hit
  refine Eq.subst (motive := fun x => it ∈ x) (Eq.symm ?_) hit
  exact vget_vmod_proj s.plane.landings 0 l _ (fun x => x.items) fun _ => rfl

/-- What reports do not touch at the main end of the barrier link. -/
def FieldLink.beyondReports (l : FieldLink) : FieldLink :=
  { l with fiState := 0, chgOverflow := 0, fsa := 0, fsb := 0, known := {}, faultSent := false }

theorem observeAt_input (s : State) (tick h idx : Nat) (w : List (Nat × PVal)) (es : List Ev) : (observeAt s tick h idx w es).input = s.input := by
  unfold observeAt
  split
  · rw [sense_only]
  · rfl

/-- Reports of a frame: items are delivered, and at the main end only what is reported changes. -/
structure Reports (s t : State) : Prop where
  carries : Carries s t
  link : t.input.link.beyondReports = s.input.link.beyondReports
  die : t.input.die = s.input.die

namespace Reports

theorem refl (s : State) : Reports s s := ⟨.refl s, rfl, rfl⟩

theorem trans {s t u : State} (h : Reports s t) (h' : Reports t u) : Reports s u :=
  ⟨h.carries.trans h'.carries, h'.link.trans h.link, h'.die.trans h.die⟩

theorem onField {s t : State} (h : Reports s t) {f : FieldLink → FieldLink} (hf : ∀ l, (f l).beyondReports = l.beyondReports) : Reports s (t.onField f) :=
  ⟨h.carries.onField, (hf _).trans h.link, h.die⟩

theorem observeAt {s t : State} (h : Reports s t) {tick hall idx : Nat} {w : List (Nat × PVal)} {es : List Ev} :
    Reports s (observeAt t tick hall idx w es) :=
  ⟨h.carries.observeAt, by rw [observeAt_input]; exact h.link, by rw [observeAt_input]; exact h.die⟩

theorem foldl {α : Type} {s t : State} (h : Reports s t) {f : State → α → State} (hstep : ∀ u a, Reports u (f u a)) {l : List α} :
    Reports s (l.foldl f t) :=
  List.foldlRecOn (motive := Reports s) l f h fun u hu a _ => hu.trans (hstep u a)

/-- What reports do not touch stays. -/
theorem kept {β : Type} {s t : State} (h : Reports s t) (g : FieldLink → β) (hg : ∀ l, g l = g l.beyondReports) : g t.input.link = g s.input.link := by
  rw [hg, h.link, ← hg]

end Reports

theorem reports_updateFieldFault (s : State) (tick : Nat) : Reports s (updateFieldFault s tick) := by
  unfold updateFieldFault
  dsimp only
  split
  · exact .refl s
  · exact ((Reports.refl s).onField fun _ => by rfl).observeAt

theorem reports_chgEntry (w : Nat) (s : State) (c : FieldChg) : Reports s (chgEntry w s c) := ((Reports.refl s).onField fun _ => by rfl).observeAt

theorem reports_countOverflow (fi : Nat) (full : Bool) (s : State) : Reports s (countOverflow fi full s) := by
  unfold countOverflow
  split
  · exact (Reports.refl s).onField fun _ => by rfl
  · exact .refl s

theorem reports_chgOverflow (w fi : Nat) (s : State) (n : Nat) : Reports s (chgOverflow w fi s n) := by
  unfold chgOverflow
  split
  · exact .refl s
  · exact ((Reports.refl s).onField fun _ => by rfl).observeAt

theorem reports_fsChange (w k cls : Nat) (s : State) : Reports s (fsChange w k cls s) := by
  unfold fsChange
  by_cases hk : k = 0
  · simp only [hk, if_true]
    split
    · exact .refl s
    · exact ((Reports.refl s).onField fun _ => by rfl).observeAt
  · simp only [hk, if_false]
    split
    · exact .refl s
    · exact ((Reports.refl s).onField fun _ => by rfl).observeAt

theorem reports_causeChange (w n : Nat) (old new : FoShown) (s : State) (k : Nat) : Reports s (causeChange w n old new s k) := by
  unfold causeChange
  dsimp only
  split
  · exact (Reports.refl s).observeAt
  · split
    · exact (Reports.refl s).observeAt
    · exact .refl s

theorem reports_outputChanges (w : Nat) (s : State) : Reports s (outputChanges w s) := by
  unfold outputChanges
  exact ((Reports.refl s).foldl fun u n => (Reports.refl u).foldl fun v k => reports_causeChange w n _ _ v k).onField fun _ => by rfl

/-- The point of FSA is rewritten once its class differs (R224). -/
theorem fsChange_delivers (w cls : Nat) (s : State) (h : cls ≠ s.input.link.fsa) :
    Delivered s (fsChange w 0 cls s) ⟨s.plane.epoch, 16 * w + 47⟩ 8 16 [(fsPoint 0, BitVec.ofNat 16 cls)] [s.ev 8 0x0602 (fsPoint 0) cls true] := by
  unfold fsChange
  dsimp only
  rw [if_neg (by exact Ne.symm h)]
  exact observeAt_delivers (s.onField fun l => { l with fsa := cls }) (16 * w + 47) 8 16 _ _ rfl

theorem chgEntry_delivers (w : Nat) (s : State) (c : FieldChg) : Delivered s (chgEntry w s c) ⟨s.plane.epoch, 16 * w + c.offset + 32⟩ 8 c.input
    [(fiPoint c.input, BitVec.ofNat 16 (b2n c.value))] [] :=
  observeAt_delivers (s.onField fun l => { l with fiState := setBit l.fiState c.input c.value }) _ 8 _ _ _ rfl

theorem epoch_of_reach {s t : State} (h : t.reach = s.reach) : t.plane.epoch = s.plane.epoch := congrArg Reach.epoch h

/-- Every change entry of a frame is delivered under its own stamp (R224). -/
theorem chgEntries_deliver (w : Nat) (l : List FieldChg) (s : State) (c : FieldChg) (hc : c ∈ l) :
    Delivered s (l.foldl (chgEntry w) s) ⟨s.plane.epoch, 16 * w + c.offset + 32⟩ 8 c.input [(fiPoint c.input, BitVec.ofNat 16 (b2n c.value))] [] := by
  induction l generalizing s with
  | nil => exact absurd hc List.not_mem_nil
  | cons x l ih =>
    rw [List.foldl_cons]
    obtain rfl | hin := List.mem_cons.mp hc
    · exact Delivered.of_carries (chgEntry_delivers w s c) (.refl s) ((Reports.refl _).foldl (reports_chgEntry w)).carries.items
    · have hlater := ih (chgEntry w s x) hin
      rw [epoch_of_reach (reports_chgEntry w s x).carries.reach] at hlater
      exact Delivered.of_carries hlater (reports_chgEntry w s x).carries fun _ _ hit => hit

theorem ev_of_reach {s t : State} (h : t.reach = s.reach) (hall kind address value : Nat) (point : Bool) (comp : Nat) :
    t.ev hall kind address value point comp = s.ev hall kind address value point comp := by
  have hrun : t.plane.running = s.plane.running := congrArg Reach.running h
  have hepoch : t.plane.epoch = s.plane.epoch := congrArg Reach.epoch h
  have htick : t.plane.tick = s.plane.tick := congrArg Reach.tick h
  unfold State.ev State.stamp
  rw [hrun, hepoch, htick]

/-- The main end as it takes a good frame. -/
def barrierTaken (s : State) (f : FieldFrame) : State :=
  (s.onDie fun d => { d with sent := none }).onField fun l => { takeTelem f.telemSel f.telem l with
    next := s.input.link.next + 1, training := false, foState := f.foState, foFault := f.foFault
    needCfg := l.needCfg || (f.restarted && l.cfgQueue.isEmpty) }

/-- A stale state ends with the end of the window. -/
def staleEnded (w : Nat) (s : State) : State :=
  if s.input.link.stale then markStale (fieldLinkEvent s (16 * w + 47) false) (16 * w + 47) false else s

/-- What a frame with data reports. -/
def frameReported (w : Nat) (f : FieldFrame) (s : State) : State :=
  updateFieldFault (outputChanges w (fsChange w 1 f.fsb (fsChange w 0 f.fsa
    ((List.range 16).foldl (chgOverflow w f.fiState) (countOverflow f.fiState (f.chg.length == 8) (f.chg.foldl (chgEntry w) s)))))) (16 * w + 47)

theorem barrierFrame_takes (s : State) (f : FieldFrame) (hrun : s.plane.running = true) (hsent : s.input.die.sent = some f)
    (hwindow : f.window = s.input.link.next % 65536) (hend : 16 * s.input.link.next + 16 ≤ s.wallTick) :
    barrierFrame s true = if f.stale then fieldProgress (noData (barrierTaken s f) s.input.link.next) s.input.link.next
      else fieldProgress (frameReported s.input.link.next f ((staleEnded s.input.link.next (barrierTaken s f)).onField
        fun l => { l with missRun := 0, missedNow := 0 })) s.input.link.next := by
  unfold barrierFrame
  rw [hsent]
  exact if_pos ⟨hrun, rfl, hwindow, hend⟩

theorem takeTelem_keeps (sel v : Nat) (l : FieldLink) : (takeTelem sel v l).missRun = l.missRun ∧ (takeTelem sel v l).missedNow = l.missedNow ∧
    (takeTelem sel v l).stale = l.stale ∧ (takeTelem sel v l).fsa = l.fsa ∧ (takeTelem sel v l).missed = l.missed := by
  unfold takeTelem
  repeat' split
  all_goals exact ⟨rfl, rfl, rfl, rfl, rfl⟩

theorem carries_barrierTaken (s : State) (f : FieldFrame) : Carries s (barrierTaken s f) := .of_plane rfl

/-- A mark of the stale state enters the sense landing under its stamp (R225). -/
theorem markStale_marks (s : State) (tick : Nat) (b : Bool) (h : feedsL0 s 8 = true) :
    ∃ it ∈ (vget (markStale s tick b).plane.landings 0).items, it.stamp = ⟨s.plane.epoch, tick⟩ ∧ it.stale = some b := by
  unfold markStale
  refine Eq.subst (motive := fun u : State => ∃ it ∈ (vget u.plane.landings 0).items, it.stamp = ⟨s.plane.epoch, tick⟩ ∧ it.stale = some b)
    (Eq.symm (if_pos h)) ?_
  exact ⟨_, mem_landPut _ 0 _ (by decide), rfl, rfl⟩

theorem Carries.markStale {s t : State} (h : Carries s t) {tick : Nat} {b : Bool} : Carries s (markStale t tick b) := by
  unfold Machine.markStale
  dsimp only
  split
  · exact h.onField.landPut
  · exact h.onField

theorem markStale_input (s : State) (tick : Nat) (b : Bool) : (markStale s tick b).input = (s.onField fun l => { l with stale := b }).input := by
  unfold markStale
  dsimp only
  split <;> rfl

theorem fieldLinkEvent_delivers (s : State) (tick : Nat) (lost : Bool) :
    Delivered s (fieldLinkEvent s tick lost) ⟨s.plane.epoch, tick⟩ 8 0 [] [s.ev 8 0x0601 0 (b2n lost + 2 * min s.input.link.missedNow 32767)] :=
  observeAt_delivers s tick 8 0 _ _ rfl

/-- The start or the end of a stale state is told and marked under its stamp (R225). -/
theorem staleTold_delivers (s : State) (tick : Nat) (b : Bool) :
    Carries s (markStale (fieldLinkEvent s tick b) tick b) ∧
    Delivered s (markStale (fieldLinkEvent s tick b) tick b) ⟨s.plane.epoch, tick⟩ 8 0 [] [s.ev 8 0x0601 0 (b2n b + 2 * min s.input.link.missedNow 32767)] ∧
    (feedsL0 s 8 = true → ∃ it ∈ (vget (markStale (fieldLinkEvent s tick b) tick b).plane.landings 0).items,
      it.stamp = ⟨s.plane.epoch, tick⟩ ∧ it.stale = some b) ∧
    (markStale (fieldLinkEvent s tick b) tick b).input.link = { s.input.link with stale := b } := by
  have htold : Carries s (fieldLinkEvent s tick b) := (Carries.refl s).observeAt
  refine ⟨htold.markStale, ?_, fun hfeeds => ?_, ?_⟩
  · exact Delivered.of_carries (fieldLinkEvent_delivers s tick b) (.refl s) (Carries.refl (fieldLinkEvent s tick b)).markStale.items
  · have hmark := markStale_marks (fieldLinkEvent s tick b) tick b ((feedsL0_of_reach htold.reach 8).trans hfeeds)
    rw [epoch_of_reach htold.reach] at hmark
    exact hmark
  · rw [markStale_input]
    change ({ (fieldLinkEvent s tick b).input.link with stale := b } : FieldLink) = _
    rw [show (fieldLinkEvent s tick b).input = s.input from observeAt_input ..]

/-- What a frame with data leaves at the main end once the stale state has ended. -/
theorem staleEnded_ends (s : State) (w : Nat) : Carries s (staleEnded w s) ∧ (staleEnded w s).input.link = { s.input.link with stale := false } ∧
    (s.input.link.stale = true →
      Delivered s (staleEnded w s) ⟨s.plane.epoch, 16 * w + 47⟩ 8 0 [] [s.ev 8 0x0601 0 (2 * min s.input.link.missedNow 32767)] ∧
      (feedsL0 s 8 = true → ∃ it ∈ (vget (staleEnded w s).plane.landings 0).items, it.stamp = ⟨s.plane.epoch, 16 * w + 47⟩ ∧ it.stale = some false)) := by
  unfold staleEnded
  by_cases hstale : s.input.link.stale = true
  · obtain ⟨hcarries, htold, hmarked, hlink⟩ := staleTold_delivers s (16 * w + 47) false
    rw [if_pos hstale]
    refine ⟨hcarries, hlink, fun _ => ⟨?_, hmarked⟩⟩
    have hvalue : b2n false + 2 * min s.input.link.missedNow 32767 = 2 * min s.input.link.missedNow 32767 := Nat.zero_add _
    rw [hvalue] at htold
    exact htold
  · rw [if_neg hstale]
    refine ⟨.refl s, ?_, fun h => absurd h hstale⟩
    rw [← Bool.eq_false_iff.mpr hstale]

theorem reports_frameReported (w : Nat) (f : FieldFrame) (s : State) : Reports s (frameReported w f s) := by
  unfold frameReported
  exact ((((((Reports.refl s).foldl (reports_chgEntry w)).trans (reports_countOverflow ..)).foldl (reports_chgOverflow w f.fiState)).trans
    (reports_fsChange ..)).trans (reports_fsChange ..)).trans ((reports_outputChanges ..).trans (reports_updateFieldFault ..))

/-- The changes of a frame and the class of FSA are delivered under their own stamps (R224). -/
theorem frameReported_delivers (w : Nat) (f : FieldFrame) (s : State) :
    (∀ c ∈ f.chg, Delivered s (frameReported w f s) ⟨s.plane.epoch, 16 * w + c.offset + 32⟩ 8 c.input
      [(fiPoint c.input, BitVec.ofNat 16 (b2n c.value))] []) ∧
    (f.fsa ≠ s.input.link.fsa → Delivered s (frameReported w f s) ⟨s.plane.epoch, 16 * w + 47⟩ 8 16 [(fsPoint 0, BitVec.ofNat 16 f.fsa)]
      [s.ev 8 0x0602 (fsPoint 0) f.fsa true]) := by
  obtain ⟨u, hu⟩ : ∃ u, (List.range 16).foldl (chgOverflow w f.fiState) (countOverflow f.fiState (f.chg.length == 8) (f.chg.foldl (chgEntry w) s)) = u :=
    ⟨_, rfl⟩
  have hentries : Reports (f.chg.foldl (chgEntry w) s) u :=
    hu ▸ (reports_countOverflow f.fiState (f.chg.length == 8) (f.chg.foldl (chgEntry w) s)).foldl (reports_chgOverflow w f.fiState)
  have hbefore : Reports s u := ((Reports.refl s).foldl (reports_chgEntry w)).trans hentries
  have hafter : ∀ v, Reports v (updateFieldFault (outputChanges w (fsChange w 1 f.fsb v)) (16 * w + 47)) := fun v =>
    ((reports_fsChange ..).trans (reports_outputChanges ..)).trans (reports_updateFieldFault ..)
  have hwhole : frameReported w f s = updateFieldFault (outputChanges w (fsChange w 1 f.fsb (fsChange w 0 f.fsa u))) (16 * w + 47) := by
    rw [← hu]
    rfl
  rw [hwhole]
  refine ⟨fun c hc => ?_, fun hnew => ?_⟩
  · exact Delivered.of_carries (chgEntries_deliver w f.chg s c hc) (.refl s)
      ((hentries.trans (reports_fsChange w 0 f.fsa u)).trans (hafter _)).carries.items
  · have hfsa : u.input.link.fsa = s.input.link.fsa := by
      have hentry (v : State) (c : FieldChg) : (chgEntry w v c).input.link.fsa = v.input.link.fsa := by
        rw [chgEntry, observeAt_input]
        rfl
      have hover (v : State) (n : Nat) : (chgOverflow w f.fiState v n).input.link.fsa = v.input.link.fsa := by
        unfold chgOverflow
        split
        · rfl
        · dsimp only
          rw [observeAt_input]
          rfl
      have hcount (v : State) : (countOverflow f.fiState (f.chg.length == 8) v).input.link.fsa = v.input.link.fsa := by
        unfold countOverflow
        split <;> rfl
      rw [← hu, foldl_keeps (fun v : State => v.input.link.fsa) _ hover, hcount, foldl_keeps (fun v : State => v.input.link.fsa) _ hentry]
    have hdelivers := fsChange_delivers w f.fsa u (by rw [hfsa]; exact hnew)
    rw [epoch_of_reach hbefore.carries.reach, ev_of_reach hbefore.carries.reach] at hdelivers
    exact Delivered.of_carries hdelivers hbefore.carries (hafter _).carries.items

/-- A good frame with data delivers what it says, and ends the stale state (R224, R225). -/
theorem barrierFrameRx_fresh (f : FieldFrame) (s : State) (hrun : s.plane.running = true) (hsent : s.input.die.sent = some f)
    (hwindow : f.window = s.input.link.next % 65536) (hend : 16 * s.input.link.next + 16 ≤ s.wallTick) (hfresh : f.stale = false) :
    ∃ t, exec (.barrierFrameRx true) s = .next t ∧ t.input.link.next = s.input.link.next + 1 ∧ t.input.link.missRun = 0 ∧ t.input.link.stale = false ∧
      t.input.die.sent = none ∧
      (∀ c ∈ f.chg, Delivered s t ⟨s.plane.epoch, 16 * s.input.link.next + c.offset + 32⟩ 8 c.input [(fiPoint c.input, BitVec.ofNat 16 (b2n c.value))] []) ∧
      (f.fsa ≠ s.input.link.fsa → Delivered s t ⟨s.plane.epoch, 16 * s.input.link.next + 47⟩ 8 16 [(fsPoint 0, BitVec.ofNat 16 f.fsa)]
        [s.ev 8 0x0602 (fsPoint 0) f.fsa true]) ∧
      (s.input.link.stale = true →
        Delivered s t ⟨s.plane.epoch, 16 * s.input.link.next + 47⟩ 8 0 [] [s.ev 8 0x0601 0 (2 * min s.input.link.missedNow 32767)] ∧
        (feedsL0 s 8 = true → ∃ it ∈ (vget t.plane.landings 0).items, it.stamp = ⟨s.plane.epoch, 16 * s.input.link.next + 47⟩ ∧ it.stale = some false)) := by
  have htakes := barrierFrame_takes s f hrun hsent hwindow hend
  rw [if_neg (by rw [hfresh]; decide)] at htakes
  obtain ⟨hcarries, hlink, hends⟩ := staleEnded_ends (barrierTaken s f) s.input.link.next
  obtain ⟨-, hmissedNow, hstale, hfsa, -⟩ := takeTelem_keeps f.telemSel f.telem s.input.link
  obtain ⟨u, hu⟩ : ∃ u, (staleEnded s.input.link.next (barrierTaken s f)).onField (fun l => { l with missRun := 0, missedNow := 0 }) = u := ⟨_, rfl⟩
  have hulink : u.input.link = { (staleEnded s.input.link.next (barrierTaken s f)).input.link with missRun := 0, missedNow := 0 } := by
    rw [← hu]
    rfl
  rw [hlink] at hulink
  have hudie : u.input.die.sent = none := by
    have hdie : (staleEnded s.input.link.next (barrierTaken s f)).input.die = (barrierTaken s f).input.die := by
      unfold staleEnded
      split
      · rw [markStale_input]
        change (fieldLinkEvent (barrierTaken s f) (16 * s.input.link.next + 47) false).input.die = _
        rw [show (fieldLinkEvent (barrierTaken s f) (16 * s.input.link.next + 47) false).input = _ from observeAt_input ..]
      · rfl
    rw [← hu]
    exact congrArg FieldDie.sent hdie
  have hsu : Carries s u := by
    rw [← hu]
    exact ((carries_barrierTaken s f).trans hcarries).onField
  have hplane : u.plane = (staleEnded s.input.link.next (barrierTaken s f)).plane := by
    rw [← hu]
    rfl
  have hreported := reports_frameReported s.input.link.next f u
  obtain ⟨hchanges, hclass⟩ := frameReported_delivers s.input.link.next f u
  rw [hu] at htakes
  have hafter := fieldProgress_keeps (frameReported s.input.link.next f u) s.input.link.next
  refine ⟨(fieldProgress (frameReported s.input.link.next f u) s.input.link.next).withPending s.pending, congrArg (effect s) htakes, ?_, ?_, ?_, ?_,
    fun c hc => ?_, fun hnew => ?_, fun hwas => ?_⟩
  · exact (hreported.kept FieldLink.next fun _ => rfl).trans (by rw [hulink]; rfl)
  · exact (hreported.kept FieldLink.missRun fun _ => rfl).trans (by rw [hulink])
  · exact (hreported.kept FieldLink.stale fun _ => rfl).trans (by rw [hulink])
  · exact (congrArg FieldDie.sent hreported.die).trans hudie
  · have h := hchanges c hc
    rw [epoch_of_reach hsu.reach] at h
    exact Delivered.of_carries h hsu hafter
  · have h := hclass (by rw [hulink]; exact fun h => hnew (h.trans hfsa))
    rw [epoch_of_reach hsu.reach, ev_of_reach hsu.reach] at h
    exact Delivered.of_carries h hsu hafter
  · obtain ⟨htold, hmarked⟩ := hends (hstale.trans hwas)
    have hitems : KeepsItems (staleEnded s.input.link.next (barrierTaken s f)) (fieldProgress (frameReported s.input.link.next f u) s.input.link.next) :=
      (keepsItems_of_landings (by rw [hplane])).trans (hreported.carries.items.trans hafter)
    have hvalue : (barrierTaken s f).input.link.missedNow = s.input.link.missedNow := hmissedNow
    rw [hvalue] at htold
    refine ⟨Delivered.of_carries htold (carries_barrierTaken s f) hitems, fun hfeeds => ?_⟩
    obtain ⟨it, hin, hit⟩ := hmarked hfeeds
    exact ⟨it, hitems 0 it hin, hit⟩

/-! Windows without data (R225). -/

/-- The count of windows without data. -/
def noDataCounted (s : State) : State := s.onField fun l => { l with missRun := l.missRun + 1, missedNow := l.missedNow + 1 }

/-- The main end once the third window without data has marked the points stale. -/
def lossTold (w : Nat) (s : State) : State :=
  updateFieldFault (fieldLinkEvent ((markStale s (16 * w + 47) true).onField fun l => { l with losses := satAdd32 l.losses 1 }) (16 * w + 47) true) (16 * w + 47)

theorem noData_eq (s : State) (w : Nat) : noData s w =
    if 3 ≤ s.input.link.missRun + 1 ∧ !s.input.link.stale ∧ !s.input.link.parked then lossTold w (noDataCounted s) else noDataCounted s := rfl

theorem reports_lossTold (w : Nat) (s : State) :
    Reports ((markStale s (16 * w + 47) true).onField fun l => { l with losses := satAdd32 l.losses 1 }) (lossTold w s) :=
  (Reports.refl _).observeAt.trans (reports_updateFieldFault ..)

/-- A loss is told and marked under the stamp of its window. -/
theorem lossTold_tells (w : Nat) (s : State) :
    (lossTold w s).input.link.stale = true ∧ (lossTold w s).input.link.losses = satAdd32 s.input.link.losses 1 ∧
    (lossTold w s).input.link.next = s.input.link.next ∧ (lossTold w s).input.link.missRun = s.input.link.missRun ∧
    (lossTold w s).input.link.missed = s.input.link.missed ∧
    Delivered s (lossTold w s) ⟨s.plane.epoch, 16 * w + 47⟩ 8 0 [] [s.ev 8 0x0601 0 (1 + 2 * min s.input.link.missedNow 32767)] ∧
    (feedsL0 s 8 = true → ∃ it ∈ (vget (lossTold w s).plane.landings 0).items, it.stamp = ⟨s.plane.epoch, 16 * w + 47⟩ ∧ it.stale = some true) := by
  obtain ⟨u, hu⟩ : ∃ u, (markStale s (16 * w + 47) true).onField (fun l => { l with losses := satAdd32 l.losses 1 }) = u := ⟨_, rfl⟩
  have hlink : u.input.link = { s.input.link with stale := true, losses := satAdd32 s.input.link.losses 1 } := by
    rw [← hu]
    change ({ (markStale s (16 * w + 47) true).input.link with losses := satAdd32 (markStale s (16 * w + 47) true).input.link.losses 1 } : FieldLink) = _
    rw [markStale_input]
    rfl
  have hcarries : Carries s u := hu ▸ (Carries.refl s).markStale.onField
  have hreports : Reports u (lossTold w s) := hu ▸ reports_lossTold w s
  have hitems : KeepsItems (markStale s (16 * w + 47) true) (lossTold w s) :=
    (keepsItems_of_landings (by rw [← hu]; rfl)).trans hreports.carries.items
  refine ⟨?_, ?_, ?_, ?_, ?_, ?_, fun hfeeds => ?_⟩
  · exact (hreports.kept FieldLink.stale fun _ => rfl).trans (by rw [hlink])
  · exact (hreports.kept FieldLink.losses fun _ => rfl).trans (by rw [hlink])
  · exact (hreports.kept FieldLink.next fun _ => rfl).trans (by rw [hlink])
  · exact (hreports.kept FieldLink.missRun fun _ => rfl).trans (by rw [hlink])
  · exact (hreports.kept FieldLink.missed fun _ => rfl).trans (by rw [hlink])
  · have h := fieldLinkEvent_delivers u (16 * w + 47) true
    rw [epoch_of_reach hcarries.reach, ev_of_reach hcarries.reach, hlink] at h
    have htold : lossTold w s = updateFieldFault (fieldLinkEvent u (16 * w + 47) true) (16 * w + 47) := by
      rw [← hu]
      rfl
    rw [htold]
    exact Delivered.of_carries h hcarries (reports_updateFieldFault ..).carries.items
  · obtain ⟨it, hin, hit⟩ := markStale_marks s (16 * w + 47) true hfeeds
    exact ⟨it, hitems 0 it hin, hit⟩

/-- A window without data is counted, whether or not it is the third. -/
theorem noData_counts (s : State) (w : Nat) : (noData s w).input.link.next = s.input.link.next ∧
    (noData s w).input.link.missRun = s.input.link.missRun + 1 ∧ (noData s w).input.link.missed = s.input.link.missed := by
  rw [noData_eq]
  split
  · obtain ⟨-, -, hnext, hrun, hmissed, -, -⟩ := lossTold_tells w (noDataCounted s)
    exact ⟨hnext, hrun, hmissed⟩
  · exact ⟨rfl, rfl, rfl⟩

/-- A frame with STALE gives no data (R225). -/
theorem barrierFrameRx_stale (f : FieldFrame) (s : State) (hrun : s.plane.running = true) (hsent : s.input.die.sent = some f)
    (hwindow : f.window = s.input.link.next % 65536) (hend : 16 * s.input.link.next + 16 ≤ s.wallTick) (hstale : f.stale = true) :
    ∃ t, exec (.barrierFrameRx true) s = .next t ∧ t.input.link.next = s.input.link.next + 1 ∧ t.input.link.missRun = s.input.link.missRun + 1 ∧
      t.input.link.missed = s.input.link.missed := by
  have htakes := barrierFrame_takes s f hrun hsent hwindow hend
  rw [if_pos hstale] at htakes
  obtain ⟨hnext, hmissRun, hmissed⟩ := noData_counts (barrierTaken s f) s.input.link.next
  obtain ⟨hrun', -, -, -, hmissed'⟩ := takeTelem_keeps f.telemSel f.telem s.input.link
  exact ⟨_, congrArg (effect s) htakes, hnext, hmissRun.trans (congrArg (· + 1) hrun'), hmissed.trans hmissed'⟩

/-- The main end once a miss has been counted. -/
def missCounted (s : State) : State :=
  (bump s 0x0E 0 1 (some 3)).onField fun l => { l with next := s.input.link.next + 1, missed := satAdd32 l.missed 1 }

theorem updateFieldFault_points (s : State) (tick : Nat) : (updateFieldFault s tick).points = s.points := by
  unfold updateFieldFault
  dsimp only
  split
  · rfl
  · unfold observeAt
    split
    · rw [sense_only]
      rfl
    · rfl

theorem noData_points (s : State) (w : Nat) : (noData s w).points = s.points := by
  have hmark (u : State) : (markStale u (16 * w + 47) true).points = u.points := by
    unfold markStale
    dsimp only
    split <;> rfl
  rw [noData_eq]
  split
  · unfold lossTold
    rw [updateFieldFault_points]
    unfold fieldLinkEvent observeAt
    split
    · rw [sense_only]
      exact hmark _
    · exact hmark _
  · rfl

theorem windowMiss_misses (s : State) (hrun : s.plane.running = true) (hend : 16 * s.input.link.next + 47 ≤ s.wallTick) :
    windowMiss s s.input.link.next = fieldProgress (noData (missCounted s) s.input.link.next) s.input.link.next := if_pos ⟨hrun, rfl, hend⟩

/-- A missed window is completed empty and counted, and the third in a row makes the points stale (R22, R225). -/
theorem barrierWindowMiss_misses (s : State) (hrun : s.plane.running = true) (hend : 16 * s.input.link.next + 47 ≤ s.wallTick) :
    ∃ t, exec (.barrierWindowMiss s.input.link.next) s = .next t ∧ t.input.link.next = s.input.link.next + 1 ∧
      t.input.link.missed = satAdd32 s.input.link.missed 1 ∧ t.input.link.missRun = s.input.link.missRun + 1 ∧ t.points = s.points ∧
      (2 ≤ s.input.link.missRun → s.input.link.stale = false → s.input.link.parked = false → t.input.link.stale = true ∧
        t.input.link.losses = satAdd32 s.input.link.losses 1 ∧
        Delivered s t ⟨s.plane.epoch, 16 * s.input.link.next + 47⟩ 8 0 [] [s.ev 8 0x0601 0 (1 + 2 * min (s.input.link.missedNow + 1) 32767)] ∧
        (feedsL0 s 8 = true → ∃ it ∈ (vget t.plane.landings 0).items, it.stamp = ⟨s.plane.epoch, 16 * s.input.link.next + 47⟩ ∧ it.stale = some true)) := by
  obtain ⟨hnext, hmissRun, hmissed⟩ := noData_counts (missCounted s) s.input.link.next
  have hafter := fieldProgress_keeps (noData (missCounted s) s.input.link.next) s.input.link.next
  refine ⟨_, congrArg (effect s) (windowMiss_misses s hrun hend), hnext, hmissed, hmissRun, noData_points (missCounted s) _, fun htwo hstale hparked => ?_⟩
  obtain ⟨hlost, hlosses, -, -, -, htold, hmarked⟩ := lossTold_tells s.input.link.next (noDataCounted (missCounted s))
  have hloss : noData (missCounted s) s.input.link.next = lossTold s.input.link.next (noDataCounted (missCounted s)) := by
    rw [noData_eq]
    exact if_pos ⟨Nat.succ_le_succ htwo, by rw [show (missCounted s).input.link.stale = false from hstale]; rfl,
      by rw [show (missCounted s).input.link.parked = false from hparked]; rfl⟩
  rw [← hloss] at hlost hlosses htold hmarked
  have hcarries : Carries s (noDataCounted (missCounted s)) := .of_plane rfl
  refine ⟨hlost, hlosses, Delivered.of_carries htold hcarries hafter, fun hfeeds => ?_⟩
  obtain ⟨it, hin, hit⟩ := hmarked hfeeds
  exact ⟨it, hafter 0 it hin, hit⟩

/-! FIELD.CONFIG and FIELD.STATUS (Tables 08.14 and 08.15). -/

@[simp] theorem completeNow_input (s : State) (p : Packet) (st : Status) (r : Reply) : (completeNow s p st r).input = s.input :=
  (congrArg State.input (completeNow_beyondReply s p st r) :)

theorem foOf_withPending (s : State) (q : List Instr) (n : Nat) : foOf (s.withPending q) n = foOf s n := rfl

theorem fcIx_lt (p : Packet) (i : Nat) : fcIx p i < 16 := Nat.mod_lt _ (by decide)

theorem bitList_zero (n : Nat) : bitList n 0 = [] := by simp [bitList]

/-- The records of FIELD.CONFIG in the store. -/
def fieldWritten (p : Packet) (s : State) : State :=
  if p.bit 16 0 then s
  else s.onStore fun st => { st with input := (List.range (fcCount p)).foldl (fun x i =>
    if fcIsFo p i then { x with fo := vmod x.fo (fcIx p i) fun _ => foCfgOf p i }
    else { x with fi := vmod x.fi (fcIx p i) fun _ => fiCfgOf p i }) st.input }

/-- One output that FIELD.CONFIG unlocks; those that stay locked are collected. -/
def unlockStep (a : State × List Nat) (n : Nat) : State × List Nat := ((unlockFo a.1 n).1, if (unlockFo a.1 n).2 then a.2 ++ [n] else a.2)

/-- Settings that wait for the end of the stale state. -/
def fieldDeferred (p : Packet) (s : State) : State := if s.points.stale ∧ !p.bit 16 0 then s.onField fun l => { l with cfgStored := true } else s

/-- What FIELD.CONFIG does to the field die, and the outputs that stay locked. -/
def fieldConfigured (p : Packet) (s : State) : State × List Nat :=
  if s.points.stale then (fieldDeferred p s, [])
  else (bitList 8 (p.num 18 1)).foldl unlockStep (if p.bit 16 0 then fieldDeferred p s else fieldApply (fieldDeferred p s), [])

theorem fieldConfigOp_run (p : Packet) (s : State) : fieldConfigOp.run p s =
    { s := (fieldConfigured p (fieldWritten p s)).1
      st := some (if (fieldWritten p s).points.stale then .stale else if (fieldConfigured p (fieldWritten p s)).2.isEmpty then .ok else .locked)
      reply := (fieldConfigOp.run p s).reply } := rfl

theorem fieldWritten_fi (p : Packet) (s : State) (hwrite : p.bit 16 0 = false) (hone : fcCount p = 1) (hfi : fcIsFo p 0 = false) :
    fieldWritten p s = s.onStore fun st => { st with input := { st.input with fi := vmod st.input.fi (fcIx p 0) fun _ => fiCfgOf p 0 } } := by
  unfold fieldWritten
  rw [hwrite, hone, List.range_one]
  simp only [List.foldl_cons, List.foldl_nil, hfi]
  rfl

theorem fieldWritten_fo (p : Packet) (s : State) (hwrite : p.bit 16 0 = false) (hone : fcCount p = 1) (hfo : fcIsFo p 0 = true) :
    fieldWritten p s = s.onStore fun st => { st with input := { st.input with fo := vmod st.input.fo (fcIx p 0) fun _ => foCfgOf p 0 } } := by
  unfold fieldWritten
  rw [hwrite, hone, List.range_one]
  simp only [List.foldl_cons, List.foldl_nil, hfo]
  rfl

theorem fieldConfigured_stale (p : Packet) (s : State) (hwrite : p.bit 16 0 = false) (hstale : s.points.stale = true) :
    fieldConfigured p s = (s.onField fun l => { l with cfgStored := true }, []) := by
  unfold fieldConfigured fieldDeferred
  rw [if_pos hstale, if_pos ⟨hstale, by rw [hwrite]; rfl⟩]

theorem fieldDeferred_fresh (p : Packet) (s : State) (hfresh : s.points.stale = false) : fieldDeferred p s = s := by
  unfold fieldDeferred
  rw [if_neg (by rw [hfresh]; simp)]

theorem fieldConfigured_applied (p : Packet) (s : State) (hwrite : p.bit 16 0 = false) (hnone : p.num 18 1 = 0) (hfresh : s.points.stale = false) :
    fieldConfigured p s = (fieldApply s, []) := by
  unfold fieldConfigured
  rw [hfresh, hwrite, hnone, bitList_zero, fieldDeferred_fresh p s hfresh]
  rfl

theorem fieldConfigured_unlocks (p : Packet) (s : State) (n : Nat) (hread : p.bit 16 0 = true) (hone : bitList 8 (p.num 18 1) = [n])
    (hfresh : s.points.stale = false) : fieldConfigured p s = unlockStep (s, []) n := by
  unfold fieldConfigured
  rw [hfresh, hread, hone, fieldDeferred_fresh p s hfresh]
  rfl

theorem fieldConfig_fi (p : Packet) (s : State) (h : KeeperRuns fieldConfigOp p s) (hwrite : p.bit 16 0 = false) (hone : fcCount p = 1)
    (hfi : fcIsFo p 0 = false) (hnone : p.num 18 1 = 0)
    (hagree : ((vmod s.store.input.fi (fcIx p 0) fun _ => fiCfgOf p 0).toList.all fun g => !g.wakeEn || g.enable) = true) :
    (s.points.stale = false → ∃ t, exec (.fieldConfig p) s = .next t ∧ Completed p .ok s t ∧ vget t.store.input.fi (fcIx p 0) = fiCfgOf p 0 ∧
      t.store.input.fo = s.store.input.fo ∧ t.input.die.fiCfg = t.store.input.fi) ∧
    (s.points.stale = true → ∃ t, exec (.fieldConfig p) s = .next t ∧ Completed p .stale s t ∧ vget t.store.input.fi (fcIx p 0) = fiCfgOf p 0 ∧
      t.input.die = s.input.die ∧ t.input.link.cfgStored = true) := by
  have hrun := fieldConfigOp_run p (release s p)
  have hset : vget (vmod s.store.input.fi (fcIx p 0) fun _ => fiCfgOf p 0) (fcIx p 0) = fiCfgOf p 0 := vget_vmod_same _ _ _ (fcIx_lt p 0)
  obtain ⟨u, hu⟩ : ∃ u, fieldWritten p (release s p) = u := ⟨_, rfl⟩
  rw [hu] at hrun
  rw [fieldWritten_fi p (release s p) hwrite hone hfi] at hu
  refine ⟨fun hfresh => ?_, fun hstale => ?_⟩
  · have hfreshu : u.points.stale = false := hu ▸ hfresh
    rw [fieldConfigured_applied p u hwrite hnone hfreshu, hfreshu, ← hu] at hrun
    obtain ⟨hexec, hdone⟩ := keeperTake_completes h rfl hrun hagree rfl
    refine ⟨_, hexec, hdone, ?_, ?_, ?_⟩
    · rw [withPending_store, completeNow_store]
      exact hset
    · rw [withPending_store, completeNow_store]
      rfl
    · rw [withPending_store, withPending_input, completeNow_store, completeNow_input]
      rfl
  · have hstaleu : u.points.stale = true := hu ▸ hstale
    rw [fieldConfigured_stale p u hwrite hstaleu, hstaleu, ← hu] at hrun
    obtain ⟨hexec, hdone⟩ := keeperTake_completes h rfl hrun hagree rfl
    refine ⟨_, hexec, hdone, ?_, ?_, ?_⟩
    · rw [withPending_store, completeNow_store]
      exact hset
    · rw [withPending_input, completeNow_input]
      rfl
    · rw [withPending_input, completeNow_input]
      rfl

theorem fieldConfig_fo (p : Packet) (s : State) (h : KeeperRuns fieldConfigOp p s) (hwrite : p.bit 16 0 = false) (hone : fcCount p = 1)
    (hfo : fcIsFo p 0 = true) (hnone : p.num 18 1 = 0) (hagree : (s.store.input.fi.toList.all fun g => !g.wakeEn || g.enable) = true)
    (hfresh : s.points.stale = false) :
    ∃ t, exec (.fieldConfig p) s = .next t ∧ Completed p .ok s t ∧ vget t.store.input.fo (fcIx p 0) = foCfgOf p 0 ∧
      t.store.input.fi = s.store.input.fi ∧ t.input.die.foCfg = t.store.input.fo := by
  have hix : fcIx p 0 < 8 := by
    have hbad := bad_eq_false_of_checkPacket _ _ _ (checkPacket_of_keeperRuns _ _ _ h)
    simp [fieldConfigOp, hwrite, hone, fcRecordBad, fcReservedBad, hfo] at hbad
    omega
  have hrun := fieldConfigOp_run p (release s p)
  have hset : vget (vmod s.store.input.fo (fcIx p 0) fun _ => foCfgOf p 0) (fcIx p 0) = foCfgOf p 0 := vget_vmod_same _ _ _ hix
  obtain ⟨u, hu⟩ : ∃ u, fieldWritten p (release s p) = u := ⟨_, rfl⟩
  rw [hu] at hrun
  rw [fieldWritten_fo p (release s p) hwrite hone hfo] at hu
  have hfreshu : u.points.stale = false := hu ▸ hfresh
  rw [fieldConfigured_applied p u hwrite hnone hfreshu, hfreshu, ← hu] at hrun
  obtain ⟨hexec, hdone⟩ := keeperTake_completes h rfl hrun hagree rfl
  refine ⟨_, hexec, hdone, ?_, ?_, ?_⟩
  · rw [withPending_store, completeNow_store]
    exact hset
  · rw [withPending_store, completeNow_store]
    rfl
  · rw [withPending_store, withPending_input, completeNow_store, completeNow_input]
    rfl

theorem foOf_completeNow (s : State) (p : Packet) (st : Status) (r : Reply) (n : Nat) : foOf (completeNow s p st r) n = foOf s n := by
  simp only [foOf, completeNow_input]

/-- A lock of a field output ends once its end condition is met (Table 08.14). -/
theorem unlockFo_unlocks (s : State) (n : Nat) (h : n < 8) (hlocks : (foOf s n).cond.locks ≠ 0)
    (hcool : (foOf s n).cond.locks.testBit 6 = false ∨ (foOf s n).cond.cool = true) :
    ∃ u, unlockFo s n = (u, false) ∧ (foOf u n).cond.locks = 0 ∧ u.store = s.store ∧ u.clock = s.clock := by
  refine ⟨((bitList 12 (foOf s n).cond.locks).foldl (fun s k => foEnd s n k) s).onFo n
    fun x => { x with restarts := 0, cond := { x.cond with locks := 0, waiting := false } }, ?_, ?_, ?_, ?_⟩
  · unfold unlockFo
    dsimp only
    rw [if_neg hlocks, if_neg]
    rintro ⟨hset, hhot⟩
    obtain hclear | hcold := hcool
    · rw [hset] at hclear
      exact absurd hclear (by decide)
    · rw [hcold] at hhot
      exact absurd hhot (by decide)
  · rw [foOf_onFo_same _ n _ h]
  · exact foldl_keeps (fun u : State => u.store) _ (fun _ _ => by rfl) _ s
  · exact foldl_keeps State.clock _ (fun _ _ => by rfl) _ s

theorem fieldConfig_unlock (p : Packet) (n : Nat) (s : State) (h : KeeperRuns fieldConfigOp p s) (hread : p.bit 16 0 = true)
    (hfresh : s.points.stale = false) (hone : bitList 8 (p.num 18 1) = [n]) (hn : n < 8)
    (hagree : (s.store.input.fi.toList.all fun g => !g.wakeEn || g.enable) = true) (hlocks : (foOf s n).cond.locks ≠ 0) :
    ((foOf s n).cond.locks.testBit 6 = false ∨ (foOf s n).cond.cool = true →
      ∃ t, exec (.fieldConfig p) s = .next t ∧ Completed p .ok s t ∧ (foOf t n).cond.locks = 0 ∧ t.store.input = s.store.input) ∧
    ((foOf s n).cond.locks.testBit 6 = true → (foOf s n).cond.cool = false →
      ∃ t, exec (.fieldConfig p) s = .next t ∧ Completed p .locked s t ∧ (foOf t n).cond = (foOf s n).cond) := by
  have hrun := fieldConfigOp_run p (release s p)
  rw [show fieldWritten p (release s p) = release s p from if_pos hread, show (release s p).points.stale = false from hfresh,
    fieldConfigured_unlocks p (release s p) n hread hone hfresh] at hrun
  refine ⟨fun hcool => ?_, fun hset hhot => ?_⟩
  · obtain ⟨u, hunlock, hfree, hstore, hclock⟩ := unlockFo_unlocks (release s p) n hn hlocks hcool
    have hagreeu : fieldConfigOp.agree p (release s p) u = true := by
      change (u.store.input.fi.toList.all fun g => !g.wakeEn || g.enable) = true
      rw [hstore]
      exact hagree
    rw [unlockStep, hunlock] at hrun
    obtain ⟨hexec, hdone⟩ := keeperTake_completes h rfl hrun hagreeu hclock
    refine ⟨_, hexec, hdone, ?_, ?_⟩
    · rw [foOf_withPending, foOf_completeNow]
      exact hfree
    · rw [withPending_store, completeNow_store, hstore]
      rfl
  · have hstays : unlockFo (release s p) n = (release s p, true) := by
      unfold unlockFo
      exact (if_neg hlocks).trans (if_pos ⟨hset, by rw [show (foOf (release s p) n).cond.cool = false from hhot]; rfl⟩)
    rw [unlockStep, hstays] at hrun
    obtain ⟨hexec, hdone⟩ := keeperTake_completes h rfl hrun hagree rfl
    refine ⟨_, hexec, hdone, ?_⟩
    rw [foOf_withPending, foOf_completeNow]
    rfl

theorem fieldStatus_reports (p : Packet) (s : State) (h : KeeperRuns fieldStatusOp p s) :
    ∃ t, exec (.fieldStatus p) s = .next t ∧ Completed p (if s.points.stale = true then .stale else .ok) s t ∧
      Replied p s t (fieldStatusOp.run p s).reply ∧ t.input.die = s.input.die ∧
      (p.bit 16 0 = true → t.input.link.missed = 0 ∧ t.input.link.chgOverflow = 0 ∧ t.input.link.losses = 0) ∧
      (p.bit 16 0 = false → t.input = s.input) := by
  obtain ⟨u, hu⟩ : ∃ u, (if p.bit 16 0 then (release s p).onField fun l => { l with missed := 0, chgOverflow := 0, losses := 0, fieldMissed := 0 }
      else release s p) = u := ⟨_, rfl⟩
  have hrun : fieldStatusOp.run p (release s p) = { s := u, st := some (if s.points.stale then .stale else .ok), reply := (fieldStatusOp.run p s).reply } := by
    rw [← hu]
    rfl
  have hplane : u.plane = (release s p).plane := by
    rw [← hu]
    split <;> rfl
  have hmem : u.mem = s.mem := by
    rw [← hu]
    split <;> rfl
  obtain ⟨hexec, hdone⟩ := keeperTake_completes h rfl hrun rfl ((clock_of_plane (s := release s p) hplane).trans (release_clock s p))
  refine ⟨_, hexec, hdone, ?_, ?_, fun hclear => ?_, fun hkeep => ?_⟩
  · exact Replied.of_same (completeNow_replied u p _ _) ((congrArg Plane.rings hplane :).trans rfl) ((congrArg Plane.replay hplane :).trans rfl) hmem
  · rw [withPending_input, completeNow_input, ← hu]
    split <;> rfl
  · rw [withPending_input, completeNow_input, ← hu, if_pos hclear]
    exact ⟨rfl, rfl, rfl⟩
  · rw [withPending_input, completeNow_input, ← hu, if_neg (by rw [hkeep]; decide)]
    rfl

/-- Settles O51. -/
theorem fieldDieAndBarrierAct : Obligations.FieldDieAndBarrierAct := by
  unfold Obligations.FieldDieAndBarrierAct
  refine ⟨fun k mv s hk hrun => fieldSupplyChange_acts s k mv hk hrun, fieldDieStop_stops, fieldDiePowerUp_starts,
    fun n mv raw c o g x s hn hrun hg hx henable hpark htick hraw hc ho => ?_, fieldFrameRx_good, fieldFrameRx_bad, fieldLinkLost_loses,
    fieldLinkRecover_recovers, fieldReconfigure_queues, fieldPark_parks, fun n r s hn hrun => ?_, fun f w s hrun hsent hw hwindow hend => ?_,
    fun w s hrun hw hend => ?_, fun p n s h hwrite hone hfi hn hnone hagree => ?_, fun p n s h hwrite hone hfo hn hnone hagree hfresh => ?_,
    fun p n s h hread hfresh hone hn hagree hlocks => fieldConfig_unlock p n s h hread hfresh hone hn hagree hlocks, fieldStatus_reports⟩
  · subst hg hx
    exact fieldInputChange_acts n mv raw c o s hn hrun henable hpark htick hraw (by rw [ho, hc]; rfl)
  · exact ⟨fieldOutputFault_short n r s hn hrun, fieldOutputFault_shutdown n r s hn hrun, fieldOutputFault_tired n r s hn hrun,
      fieldOutputFault_cooled n r s hn hrun, fieldOutputFault_openLoad n r s hn hrun,
      fun hlen hall => fieldOutputFault_ends n 8 r s hn hrun (.inl rfl) (by simp [foFaultSeen, hlen]; exact hall),
      fieldOutputFault_backfeed n r s hn hrun, fun hseen => fieldOutputFault_ends n 9 r s hn hrun (.inr rfl) (any_le_of_exists hseen)⟩
  · subst hw
    exact ⟨barrierFrameRx_fresh f s hrun hsent hwindow hend, barrierFrameRx_stale f s hrun hsent hwindow hend⟩
  · subst hw
    exact barrierWindowMiss_misses s hrun hend
  · subst hn
    exact fieldConfig_fi p s h hwrite hone hfi hnone hagree
  · subst hn
    exact fieldConfig_fo p s h hwrite hone hfo hnone hagree hfresh

end Sys2Proof.Machine

namespace Sys2Proof.Machine

open Sys2Proof.Claims

/-! The valve opcodes (Tables 06.15–06.20). -/

theorem valveOf_onValve_same (s : State) (v : Nat) (f : Valve → Valve) (h : v < 8) : valveOf (s.onValve v f) v = f (valveOf s v) := vget_vmod_same _ v f h

theorem valveOf_onValve_ne (s : State) (v k : Nat) (f : Valve → Valve) (h : v ≠ k) : valveOf (s.onValve v f) k = valveOf s k := vget_vmod_ne _ v k f h

theorem valveArg_lt (p : Packet) : valveArg p < 8 := Nat.mod_lt _ (by decide)

/-- VALVE.FIRE that nothing refuses writes its fire point and leaves its packet with the valve. -/
theorem valveFire_asks (p : Packet) (s : State) (h : FastRuns valveFireOp p s) (hfire : p.bit 16 3 = false)
    (hloaded : vget s.store.motor.loaded (valveArg p) = true) (hoff : (pget s (firePoint (valveArg p))).toNat.testBit 15 = false)
    (hidle : (valveOf s (valveArg p)).phase = .idle) (haccepted : requestRefused s (valveArg p) = none) (hroom : s.points.writesNow < 4096)
    (hfree : heldByAction s (firePoint (valveArg p)) = false) (hnow : s.points.now = []) (hwf : Tbl.wf 0 s.points.mem = true) :
    ∃ t, exec (.valveFire p) s = .next t ∧ (valveOf t (valveArg p)).packet = some p ∧
      pget t (firePoint (valveArg p)) = BitVec.ofNat 16 (2 ^ 15 + p.fld 17 0 6) := by
  obtain ⟨x, hx⟩ : ∃ x, BitVec.ofNat 16 (2 ^ 15 + p.fld 17 0 6) = x := ⟨_, rfl⟩
  have hstands := directWrite_stands (counted s p) p (firePoint (valveArg p)) x hroom hfree hnow
  obtain ⟨u, hu⟩ : ∃ u, (directWrite (counted s p) p (firePoint (valveArg p)) x).1 = u := ⟨_, rfl⟩
  have hpoint : pget u (firePoint (valveArg p)) = x := by
    rw [← hu, hstands]
    exact pget_writeStands (counted s p) _ _ _ _ hwf
  have hrun : valveFireOp.run p (counted s p) =
      { s := writePending (u.onValve (valveArg p) fun y => { y with packet := some p, late := ranLate p u || false }) p, st := none } := by
    change (if p.bit 16 3 then _ else if (pget s (firePoint (valveArg p))).toNat.testBit 15 = true ∨ (valveOf s (valveArg p)).phase ≠ .idle then _ else
      (match requestRefused s (valveArg p) with | some st => _ | none => _)) = _
    rw [if_neg (by rw [hfire]; decide), if_neg (by rw [hoff, hidle]; simp), haccepted, hx]
    dsimp only
    rw [hu, show (directWrite (counted s p) p (firePoint (valveArg p)) x).2 = .applied from congrArg Prod.snd hstands]
    rfl
  have hagree : valveFireOp.agree p (counted s p) (writePending (u.onValve (valveArg p) fun y => { y with packet := some p, late := ranLate p u || false }) p) = true := by
    change (p.bit 16 3 || vget s.store.motor.loaded (valveArg p)) = true
    rw [hloaded, Bool.or_true]
  obtain ⟨m, hpending⟩ := writePending_only (u.onValve (valveArg p) fun y => { y with packet := some p, late := ranLate p u || false }) p
  have htake := fastTake_waits h rfl hrun hagree
  rw [hpending] at htake
  exact ⟨_, congrArg (effect s) htake, congrArg Valve.packet (valveOf_onValve_same u (valveArg p) _ (valveArg_lt p)), hpoint.trans hx.symm⟩

/-- VALVE.FIRE with RELEASE writes 0 to the fire point. -/
theorem valveFire_releases (p : Packet) (s : State) (h : FastRuns valveFireOp p s) (hrelease : p.bit 16 3 = true) (hroom : s.points.writesNow < 4096)
    (hfree : heldByAction s (firePoint (valveArg p)) = false) (hnow : s.points.now = []) (hwf : Tbl.wf 0 s.points.mem = true) :
    ∃ t, exec (.valveFire p) s = .next t ∧ Completed p .ok s t ∧ pget t (firePoint (valveArg p)) = 0 := by
  have hstands := directWrite_stands (counted s p) p (firePoint (valveArg p)) 0 hroom hfree hnow
  obtain ⟨u, hu⟩ : ∃ u, (directWrite (counted s p) p (firePoint (valveArg p)) 0).1 = u := ⟨_, rfl⟩
  have hpoint : pget u (firePoint (valveArg p)) = 0 := by
    rw [← hu, hstands]
    exact pget_writeStands (counted s p) _ _ _ _ hwf
  have hquiet : (directWrite (counted s p) p (firePoint (valveArg p)) 0).1.plane.quiet = (counted s p).plane.quiet := by simp
  rw [hu] at hquiet
  have hrun : valveFireOp.run p (counted s p) = { s := u, st := some .ok } := by
    have hpair : directWrite (counted s p) p (firePoint (valveArg p)) 0 = (u, .applied) := Prod.ext hu (congrArg Prod.snd hstands :)
    unfold valveFireOp
    dsimp only
    rw [if_pos hrelease, hpair]
    rfl
  have hagree : valveFireOp.agree p (counted s p) u = true := by
    change (p.bit 16 3 || _) = true
    rw [hrelease, Bool.true_or]
  obtain ⟨hexec, hdone⟩ := fastTake_completes h rfl hrun hagree ((clock_of_quiet hquiet).trans (counted_clock s p))
  refine ⟨_, hexec, hdone, ?_⟩
  change pget (completeNow u p .ok []) _ = 0
  rw [pget, completeNow_points]
  exact hpoint

/-- VALVE.PROG puts its words into the program store of its valve. -/
theorem valveProg_loads (p : Packet) (s : State) (h : KeeperRuns valveProgOp p s) (hwait : (valveOf s (valveArg p)).phase ≠ .requested)
    (hfires : (valveOf s (valveArg p)).phase.fires = false)
    (hfit : ((List.range 8).all fun k => decide (claimOf (progOf s k) ≤ vget s.store.motor.budget (feedIx k))) = true)
    (hclaim : claimOf (progAfter p s) ≤ vget s.store.motor.budget (feedIx (valveArg p))) :
    ∃ t, exec (.valveProg p) s = .next t ∧ Completed p .ok s t ∧ progOf t (valveArg p) = progAfter p s ∧ vget t.store.motor.loaded (valveArg p) = true ∧
      ∀ k, k ≠ valveArg p → progOf t k = progOf s k := by
  obtain ⟨u, hu⟩ : ∃ u, (release s p).onStore (fun st => { st with motor := { st.motor with
      prog := vmod st.motor.prog (valveArg p) fun _ => progAfter p s, loaded := vmod st.motor.loaded (valveArg p) fun _ => true } }) = u := ⟨_, rfl⟩
  have hrun : valveProgOp.run p (release s p) = { s := u, reply := [(16, 2, claimOf (progAfter p s))] } := by
    rw [← hu]
    rfl
  have hrefuse : valveProgOp.refuse p (release s p) = none := by
    refine if_neg ?_
    rintro (hreq | hfire)
    · exact hwait hreq
    · rw [show (valveOf (release s p) (valveArg p)).phase.fires = false from hfires] at hfire
      exact absurd hfire (by decide)
  have hnew : progOf u (valveArg p) = progAfter p s := by
    rw [← hu]
    exact vget_vmod_same _ _ _ (valveArg_lt p)
  have hother (k : Nat) (hk : k ≠ valveArg p) : progOf u k = progOf s k := by
    rw [← hu]
    exact vget_vmod_ne _ _ _ _ (Ne.symm hk)
  have hbudget : u.store.motor.budget = s.store.motor.budget := by
    rw [← hu]
    rfl
  have hagree : valveProgOp.agree p (release s p) u = true := by
    change ((List.range 8).all fun k => decide (claimOf (progOf u k) ≤ vget u.store.motor.budget (feedIx k))) = true
    rw [List.all_eq_true] at hfit ⊢
    intro k hk
    rw [hbudget]
    by_cases hsame : k = valveArg p
    · subst hsame
      rw [hnew]
      exact decide_eq_true hclaim
    · rw [hother k hsame]
      exact hfit k hk
  obtain ⟨hexec, hdone⟩ := keeperTake_completes h hrefuse hrun hagree (by rw [← hu]; rfl)
  have hstore : ((completeNow u p .ok [(16, 2, claimOf (progAfter p s))]).withPending s.pending).store = u.store := completeNow_store ..
  refine ⟨_, hexec, hdone, ?_, ?_, fun k hk => ?_⟩
  · rw [progOf, hstore]
    exact hnew
  · rw [hstore, ← hu]
    exact vget_vmod_same _ _ _ (valveArg_lt p)
  · rw [progOf, hstore]
    exact hother k hk

/-! VALVE.CONFIG (Table 06.18). -/

/-- The settings that VALVE.CONFIG stores. -/
def valveSettings (p : Packet) (s : State) : State :=
  s.onStore fun st => { st with motor := { st.motor with
    budget := vmapIdx st.motor.budget fun f x => if p.bit 17 f then p.num (24 + 4 * f) 2 else x
    deferMax := vmapIdx st.motor.deferMax fun f x => if p.bit 17 f then p.num (26 + 4 * f) 2 else x
    fireMax := vmapIdx st.motor.fireMax fun v x => if p.bit 18 v then p.num (32 + 4 * v) 2 else x } }

/-- One output that VALVE.CONFIG unlocks, and whether any stays locked. -/
def valveUnlock (a : State × Bool) (o : Nat) : State × Bool := ((unlockValveOut a.1 o).1, a.2 || (unlockValveOut a.1 o).2)

theorem valveConfigOp_run (p : Packet) (s : State) (hwrite : p.bit 16 0 = false) : valveConfigOp.run p s =
    { s := ((bitList 10 (p.fld 20 0 10)).foldl valveUnlock (valveSettings p s, false)).1
      st := some (if ((bitList 10 (p.fld 20 0 10)).foldl valveUnlock (valveSettings p s, false)).2 then .locked else .ok)
      reply := (valveConfigOp.run p s).reply } := by
  have hread : (if p.bit 16 0 then (s, false) else (bitList 10 (p.fld 20 0 10)).foldl valveUnlock (valveSettings p s, false)) =
      (bitList 10 (p.fld 20 0 10)).foldl valveUnlock (valveSettings p s, false) := if_neg (by rw [hwrite]; decide)
  rw [← hread]
  rfl

theorem bit_of_fld_zero (p : Packet) (b w k : Nat) (h : p.fld b 0 w = 0) (hk : k < w) : p.bit b k = false := by
  have hmod : (p.num b 4 % 2 ^ w).testBit k = false := by
    rw [show p.num b 4 % 2 ^ w = 0 from h]
    exact Nat.zero_testBit k
  rw [Nat.testBit_mod_two_pow, decide_eq_true hk, Bool.true_and] at hmod
  exact hmod

/-- Without a feed named, the budgets stay. -/
theorem budget_valveSettings (p : Packet) (s : State) (hnone : p.fld 17 0 2 = 0) : (valveSettings p s).store.motor.budget = s.store.motor.budget := by
  change vmapIdx s.store.motor.budget _ = _
  refine Vector.ext fun i hi => ?_
  simp [vmapIdx, bit_of_fld_zero p 17 2 i hnone hi]

theorem valveSettings_fit (p : Packet) (s u : State) (hnone : p.fld 17 0 2 = 0) (hstore : u.store = (valveSettings p s).store)
    (hfit : ((List.range 8).all fun k => decide (claimOf (progOf s k) ≤ vget s.store.motor.budget (feedIx k))) = true) :
    valveConfigOp.agree p s u = true := by
  change ((List.range 8).all fun k => decide (claimOf (progOf u k) ≤ vget u.store.motor.budget (feedIx k))) = true
  have hprog (k : Nat) : progOf u k = progOf s k := by
    rw [progOf, hstore]
    rfl
  simp only [hprog, hstore, budget_valveSettings p s hnone]
  exact hfit

theorem valveConfig_sets (p : Packet) (v : Nat) (s : State) (h : KeeperRuns valveConfigOp p s) (hwrite : p.bit 16 0 = false) (hnone : p.fld 17 0 2 = 0)
    (hkeep : p.fld 20 0 10 = 0) (hv : v < 8) (hnamed : p.bit 18 v = true)
    (hfit : ((List.range 8).all fun k => decide (claimOf (progOf s k) ≤ vget s.store.motor.budget (feedIx k))) = true) :
    ∃ t, exec (.valveConfig p) s = .next t ∧ Completed p .ok s t ∧ vget t.store.motor.fireMax v = p.num (32 + 4 * v) 2 ∧
      t.store.motor.budget = s.store.motor.budget := by
  have hrun := valveConfigOp_run p (release s p) hwrite
  rw [hkeep, bitList_zero] at hrun
  obtain ⟨hexec, hdone⟩ := keeperTake_completes h rfl hrun (valveSettings_fit p (release s p) _ hnone rfl hfit) rfl
  refine ⟨_, hexec, hdone, ?_, ?_⟩
  · rw [withPending_store, completeNow_store]
    exact (vget_vmapIdx _ _ _ hv).trans (if_pos hnamed)
  · rw [withPending_store, completeNow_store]
    exact budget_valveSettings p (release s p) hnone

theorem endFeedCause_store (s : State) (f cause : Nat) : (endFeedCause s f cause).store = s.store := by
  unfold endFeedCause
  split
  · rw [observe_only]
    rfl
  · rfl

theorem unlockFeed_unlocks (s : State) (f : Nat) (hf : f < 2) : ∃ u, unlockValveOut s (8 + f) = (u, false) ∧ (feedOf u f).cond.locks = 0 ∧
    u.store = s.store ∧ u.plane.quiet = s.plane.quiet := by
  unfold unlockValveOut
  rw [if_neg (by omega)]
  dsimp only
  rw [Nat.add_sub_cancel_left]
  split
  case isTrue hnone => exact ⟨_, rfl, hnone, rfl, rfl⟩
  case isFalse =>
    refine ⟨_, rfl, ?_, endFeedCause_store s f 7, ?_⟩
    · exact congrArg (fun x : Feed => x.cond.locks) (vget_vmod_same _ f _ hf)
    · unfold endFeedCause
      split
      · change (observe _ _ _ _ _ _).plane.quiet = _
        simp
        rfl
      · rfl

theorem feedOf_completeNow (s : State) (p : Packet) (st : Status) (r : Reply) (f : Nat) : feedOf (completeNow s p st r) f = feedOf s f := by
  simp only [feedOf, completeNow_motor]

theorem valveConfig_unlocks (p : Packet) (f : Nat) (s : State) (h : KeeperRuns valveConfigOp p s) (hwrite : p.bit 16 0 = false) (hnone : p.fld 17 0 2 = 0)
    (hf : f < 2) (hone : bitList 10 (p.fld 20 0 10) = [8 + f])
    (hfit : ((List.range 8).all fun k => decide (claimOf (progOf s k) ≤ vget s.store.motor.budget (feedIx k))) = true) :
    ∃ t, exec (.valveConfig p) s = .next t ∧ Completed p .ok s t ∧ (feedOf t f).cond.locks = 0 := by
  obtain ⟨u, hunlock, hlocks, hstore, hquiet⟩ := unlockFeed_unlocks (valveSettings p (release s p)) f hf
  have hrun := valveConfigOp_run p (release s p) hwrite
  rw [hone, List.foldl_cons, List.foldl_nil, valveUnlock, hunlock] at hrun
  obtain ⟨hexec, hdone⟩ := keeperTake_completes h rfl hrun (valveSettings_fit p (release s p) u hnone hstore hfit)
    ((clock_of_quiet hquiet : u.clock = (valveSettings p (release s p)).clock).trans rfl)
  refine ⟨_, hexec, hdone, ?_⟩
  change (feedOf (completeNow u p .ok _) f).cond.locks = 0
  rw [feedOf_completeNow]
  exact hlocks

/-! VALVE.TRACE (Table 06.19). -/

theorem valveTrace_arms (p : Packet) (s : State) (h : KeeperRuns valveTraceOp p s) (hmode : p.fld 16 0 2 = 0) (hfree : s.motor.trace.running = false) :
    ∃ t, exec (.valveTrace p) s = .next t ∧ Completed p .ok s t ∧ t.motor.trace.armed = true ∧ t.motor.trace.valve = p.fld 17 0 3 ∧
      t.motor.trace.decim = p.num 18 1 ∧ t.motor.trace.want = p.num 20 2 := by
  have hrun : valveTraceOp.run p (release s p) = { s := (release s p).onMotor fun d => { d with
      trace := { armed := true, valve := p.fld 17 0 3, decim := p.num 18 1, want := p.num 20 2 } } } := by
    change (match p.fld 16 0 2 with | 0 => _ | 1 => _ | _ => _) = _
    rw [hmode]
    exact if_neg (by rw [show (release s p).motor.trace.running = false from hfree]; decide)
  obtain ⟨hexec, hdone⟩ := keeperTake_completes h rfl hrun rfl rfl
  refine ⟨_, hexec, hdone, ?_⟩
  rw [withPending_motor, completeNow_motor]
  exact ⟨rfl, rfl, rfl, rfl⟩

theorem valveTrace_disarms (p : Packet) (s : State) (h : KeeperRuns valveTraceOp p s) (hmode : p.fld 16 0 2 = 2) (hfree : s.motor.trace.running = false) :
    ∃ t, exec (.valveTrace p) s = .next t ∧ Completed p .ok s t ∧ t.motor.trace.armed = false := by
  have hrun : valveTraceOp.run p (release s p) = { s := (release s p).onMotor fun d => { d with trace := { d.trace with armed := false } } } := by
    change (match p.fld 16 0 2 with | 0 => _ | 1 => _ | _ => _) = _
    rw [hmode]
    exact if_neg (by rw [show (release s p).motor.trace.running = false from hfree]; decide)
  obtain ⟨hexec, hdone⟩ := keeperTake_completes h rfl hrun rfl rfl
  refine ⟨_, hexec, hdone, ?_⟩
  rw [withPending_motor, completeNow_motor]
  rfl

/-- Settles O44. -/
theorem valvePacketsAct : Obligations.ValvePacketsAct := by
  unfold Obligations.ValvePacketsAct
  refine ⟨fun p v s h hv => ?_, valveFire_releases, fun p v s h hv => ?_, valveConfig_sets, valveConfig_unlocks, valveTrace_arms, valveTrace_disarms⟩
  · subst hv
    exact valveFire_asks p s h
  · subst hv
    exact valveProg_loads p s h

end Sys2Proof.Machine

namespace Sys2Proof.Machine

open Sys2Proof.Claims

/-! Strings (R178–R182): faults, holds and periods. -/

theorem running_onStrCond (s : State) (n k : Nat) (f : Cond → Cond) : (stringOf (s.onStrCond n f) k).running = (stringOf s k).running :=
  vget_vmod_proj s.light.string n k _ Strg.running fun _ => rfl

theorem running_reportString (s : State) (n cause detail k : Nat) (fresh : Bool) :
    (stringOf (reportString s n cause detail fresh) k).running = (stringOf s k).running := by
  unfold reportString
  dsimp only
  split
  · rw [stringOf_loadEvent]
    exact (congrArg Strg.running (stringOf_of_string (bump_light_string ..) k)).trans (running_onStrCond ..)
  · exact running_onStrCond ..

/-- A string that may not run is off (R179). -/
theorem running_updateString_barred (s : State) (n : Nat) (h : n < 4) (hbarred : stringAllowed s n = false) :
    (stringOf (updateString s n) n).running = false := by
  unfold updateString
  dsimp only
  rw [hbarred]
  exact congrArg Strg.running (onString_same s n _ h)

theorem stringAllowed_of_not_free (s : State) (n : Nat) (h : (stringOf s n).cond.free = false) : stringAllowed s n = false := by
  simp [stringAllowed, h]

/-- A locked string is off. -/
theorem lockString_locks (s : State) (n cause detail : Nat) (h : n < 4) : (stringOf (lockString s n cause detail) n).cond.locks.testBit cause = true ∧
    (stringOf (lockString s n cause detail) n).running = false := by
  obtain ⟨u, hu⟩ : ∃ u, (reportString s n cause detail (!(stringOf s n).cond.locks.testBit cause)).onStrCond n (·.lock cause) = u := ⟨_, rfl⟩
  have hcond : (stringOf u n).cond = ((stringOf (reportString s n cause detail (!(stringOf s n).cond.locks.testBit cause)) n).cond.lock cause) := by
    rw [← hu, cond_onStrCond _ _ _ _ h, if_pos rfl]
  have hlock : lockString s n cause detail = bumpSnapshot (updateString u n) := by
    rw [← hu]
    rfl
  rw [hlock, stringOf_of_string (bumpSnapshot_light_string ..), cond_updateString, hcond]
  exact ⟨Cond.locks_lock .., running_updateString_barred u n h (stringAllowed_of_not_free u n (by rw [hcond]; exact Cond.free_lock ..))⟩

/-- A held string is off. -/
theorem running_holdString (s : State) (n cause detail : Nat) (h : n < 4) : (stringOf (holdString s n cause detail) n).running = false := by
  obtain ⟨u, hu⟩ : ∃ u, (reportString s n cause detail (freshString s n cause)).onStrCond n (·.hold cause) = u := ⟨_, rfl⟩
  have hcond : (stringOf u n).cond = ((stringOf (reportString s n cause detail (freshString s n cause)) n).cond.hold cause) := by
    rw [← hu, cond_onStrCond _ _ _ _ h, if_pos rfl]
  have hhold : holdString s n cause detail = bumpSnapshot (updateString u n) := by
    rw [← hu]
    rfl
  rw [hhold, stringOf_of_string (bumpSnapshot_light_string ..)]
  exact running_updateString_barred u n h (stringAllowed_of_not_free u n (by rw [hcond]; exact Cond.free_hold ..))

theorem running_endString (s : State) (n cause k : Nat) : (stringOf (endString s n cause) k).running = (stringOf s k).running := by
  unfold endString
  split
  · rw [stringOf_loadEvent]
    exact running_onStrCond ..
  · rfl

theorem running_endHoldString (s : State) (n cause k : Nat) : (stringOf (endHoldString s n cause) k).running = (stringOf s k).running := by
  unfold endHoldString
  split
  · exact (running_onStrCond ..).trans (running_endString ..)
  · rfl

/-- The soft-start window of a string ends (Table 07.3). -/
theorem stringSoftStartEnd_ends (n mA : Nat) (w : Window) (s : State) (h : n < 4) (hsoft : (stringOf s n).soft = some w) (hend : w.endAt s.now ≤ s.now) :
    ∃ t, exec (.stringSoftStartEnd n mA) s = .next t ∧
      ((stringCfg s n).current * 9 ≤ mA * 10 → mA * 10 ≤ (stringCfg s n).current * 11 →
        (stringOf t n).soft = none ∧ (stringOf t n).running = (stringOf s n).running ∧ (stringOf t n).cond = (stringOf s n).cond) ∧
      (mA * 10 < (stringCfg s n).current * 9 ∨ (stringCfg s n).current * 11 < mA * 10 →
        (stringOf t n).cond.locks.testBit 11 = true ∧ (stringOf t n).running = false) := by
  have hends : softEnd s n mA = if mA * 10 < (stringCfg s n).current * 9 ∨ (stringCfg s n).current * 11 < mA * 10 then
      lockString (s.onString n fun x => { x with soft := none }) n 11 0 else s.onString n fun x => { x with soft := none } := by
    unfold softEnd
    rw [hsoft]
    exact if_pos hend
  have hsame : stringOf (s.onString n fun x => { x with soft := none }) n = { stringOf s n with soft := none } := onString_same s n _ h
  refine ⟨(softEnd s n mA).withPending s.pending, rfl, fun hlow hhigh => ?_, fun hout => ?_⟩
  · rw [if_neg (by omega)] at hends
    rw [stringOf_withPending, hends, hsame]
    exact ⟨rfl, rfl, rfl⟩
  · rw [if_pos hout] at hends
    rw [stringOf_withPending, hends]
    exact lockString_locks _ n 11 0 h

theorem stringConverterStop_stops (n k : Nat) (s : State) (h : n < 4) (hstop : (stringOf s n).stopAt = some k) (hdue : k ≤ s.now) :
    ∃ t, exec (.stringConverterStop n) s = .next t ∧ (stringOf t n).running = false ∧ (stringOf t n).stopAt = none := by
  have hstops : converterStop s n = s.onString n fun x => { x with running := false, soft := none, stopAt := none } := by
    unfold converterStop
    rw [hstop]
    exact if_pos hdue
  have hsame := onString_same s n (fun x => { x with running := false, soft := none, stopAt := none }) h
  exact ⟨_, congrArg (effect s) hstops, (congrArg Strg.running hsame :), (congrArg Strg.stopAt hsame :)⟩

theorem stringFault_opens (n k : Nat) (s : State) (h : n < 4) (hk : k < 16) (hrun : (stringOf s n).running = true)
    (hfitted : (vget (stringOf s n).seg k).fitted = true) :
    ∃ t, exec (.stringFault n 8 (16 + k) true) s = .next t ∧ (stringOf t n).segOpen.testBit k = true ∧ (stringOf t n).running = true := by
  obtain ⟨u, hu⟩ : ∃ u, s.onString n (fun x => { x with segOpen := setBit x.segOpen k true }) = u := ⟨_, rfl⟩
  have hopens : stringFault s n 8 (16 + k) true = bumpSnapshot (reportString u n 8 (16 + k) (!(stringOf s n).segOpen.testBit k)) := by
    unfold stringFault
    rw [if_pos rfl, if_pos rfl, if_neg (by omega), if_pos (by omega), Nat.add_sub_cancel_left, ← hu]
    exact if_pos (c := _ ∧ _ ∧ _) ⟨hrun, hk, hfitted⟩
  have hreported (v : State) (fresh : Bool) : (stringOf (reportString v n 8 (16 + k) fresh) n).segOpen = (stringOf v n).segOpen := by
    unfold reportString
    dsimp only
    split
    · rw [stringOf_loadEvent]
      exact vget_vmod_proj v.light.string n n _ Strg.segOpen fun _ => rfl
    · exact vget_vmod_proj v.light.string n n _ Strg.segOpen fun _ => rfl
  have hopen : (stringOf u n).segOpen.testBit k = true := by
    rw [← hu, onString_same s n _ h]
    exact testBit_setBit_same (stringOf s n).segOpen k true
  have hruns : (stringOf u n).running = true := by
    rw [← hu, onString_same s n _ h]
    exact hrun
  have hsame (v : State) : stringOf (bumpSnapshot v) n = stringOf v n := stringOf_of_string (bumpSnapshot_light_string v) n
  refine ⟨(bumpSnapshot (reportString u n 8 (16 + k) (!(stringOf s n).segOpen.testBit k))).withPending s.pending, congrArg (effect s) hopens, ?_, ?_⟩
  · rw [stringOf_withPending, hsame, hreported]
    exact hopen
  · rw [stringOf_withPending, hsame, running_reportString]
    exact hruns

theorem stringFault_short (s : State) (n : Nat) (hrun : (stringOf s n).running = true) : stringFault s n 7 0 true = lockString s n 7 0 := by
  unfold stringFault
  rw [if_pos rfl, if_neg (by decide), if_pos rfl, if_pos rfl, if_pos hrun]

theorem stringFault_supplied (n c d : Nat) (s : State) (h : n < 4) (hc : c = 1 ∨ c = 2 ∨ c = 3) (hshort : stringShort s n c = true) :
    ∃ t, exec (.stringFault n c d true) s = .next t ∧ (stringOf t n).cond.holds.testBit c = true ∧ (stringOf t n).running = false := by
  obtain ⟨e, hholds⟩ : ∃ e, stringSupply s n c true = holdString (leaveQueue s (56 + n)) n c e := by
    unfold stringSupply holdOut
    rw [if_pos rfl, if_pos hshort]
    dsimp only
    rw [if_neg (by omega), Nat.add_sub_cancel_left]
    exact ⟨_, rfl⟩
  refine ⟨(stringSupply s n c true).withPending s.pending, congrArg (effect s) (if_pos hc), ?_, ?_⟩
  · rw [stringOf_withPending, hholds, holds_holdString _ _ _ _ _ h, if_pos rfl]
    exact testBit_setBit_same _ _ _
  · rw [stringOf_withPending, hholds]
    exact running_holdString _ n c e h

theorem queueStep_of_empty (s : State) (b : Nat) (h : (bankAt s b).resumeQ = []) : queueStep s b = s := by
  unfold queueStep
  dsimp only
  rw [h]

/-- A string without the resume attribute stays off once its hold has ended (R56). -/
theorem endScope_stays (s : State) (n c : Nat) (h : n < 4) (hheld : (stringOf s n).cond.holds.testBit c = true)
    (hstay : (shedCfg s (56 + n)).resume = false) :
    (stringOf (endScope s 3 c [56 + n] false) n).running = (stringOf s n).running := by
  have hcond : outCond s (56 + n) = (stringOf s n).cond := by
    rw [outCond, if_neg (by omega), Nat.add_sub_cancel_left]
  have hend : endHoldOut s c (56 + n) = endHoldString s n c := by
    rw [endHoldOut, if_neg (by omega), Nat.add_sub_cancel_left]
  have hjoin : joinQueue c (endHoldString s n c) (56 + n) = endHoldString s n c := by
    unfold joinQueue
    rw [if_neg]
    rintro ⟨hresume, -⟩
    rw [shedCfg, endHoldString_store] at hresume
    exact absurd (hresume.symm.trans hstay) (by decide)
  have hone : [56 + n].filter (fun ch => (outCond s ch).holds.testBit c) = [56 + n] := by
    rw [List.filter_cons_of_pos (by rw [hcond]; exact hheld), List.filter_nil]
  unfold endScope
  dsimp only
  rw [hone, List.foldl_cons, List.foldl_nil, hend, hjoin, if_neg Bool.false_ne_true]
  split
  · next hidle =>
    have hempty : (bankAt ((endHoldString s n c).onBank 3 fun x => { x with resumeAt := (endHoldString s n c).now }) 3).resumeQ = [] := by
      refine (vget_vmod_proj (endHoldString s n c).load.bank 3 3 _ Bank.resumeQ fun _ => by rfl).trans ?_
      refine (congrArg Bank.resumeQ (bankAt_endHoldString s n c 3)).trans ?_
      exact List.isEmpty_iff.mp hidle
    rw [queueStep_of_empty _ 3 hempty]
    exact running_endHoldString s n c n
  · exact running_endHoldString s n c n

/-- The end of a string's supply hold. -/
theorem stringFault_returns (n c d : Nat) (s : State) (h : n < 4) (hc : c = 1 ∨ c = 2 ∨ c = 3) (hshort : stringShort s n c = false)
    (hheld : (stringOf s n).cond.holds.testBit c = true) :
    ∃ t, exec (.stringFault n c d false) s = .next t ∧ (stringOf t n).cond.holds.testBit c = false ∧
      ((shedCfg s (56 + n)).resume = false → (stringOf t n).running = (stringOf s n).running) := by
  have hends : stringSupply s n c false = endScope s 3 c [56 + n] false := by
    unfold stringSupply
    rw [if_neg (by decide), if_neg (by rw [hshort]; decide)]
  refine ⟨(endScope s 3 c [56 + n] false).withPending s.pending, congrArg (effect s) ((if_pos hc).trans hends), ?_, fun hstay => ?_⟩
  · have hnot := endScope_ends s 3 c [56 + n] false (by simp; omega) (56 + n) (List.mem_singleton.mpr rfl)
    rw [NotHeld, outCond, if_neg (by omega), Nat.add_sub_cancel_left] at hnot
    exact hnot
  · exact endScope_stays s n c h hheld hstay

/-- At its period start a segment takes its value and the settings (R178). -/
theorem pwmPeriodStart_takes (n k : Nat) (s : State) (h : n < 4) (hk : k < 16) (hstart : segPhase k (vget (stringOf s n).seg k) s.now = 0) :
    ∃ t, exec (.pwmPeriodStart ⟨4, n⟩) s = .next t ∧ (vget (stringOf t n).seg k).duty = d12 (vget (stringOf s n).seg k).cmd ∧
      (vget (stringOf t n).seg k).hz = (stringCfg s n).pwmHz ∧ (vget (stringOf t n).seg k).fitted = (stringCfg s n).usedMask.testBit k := by
  have hseg : vget (stringOf (periodLs s n) n).seg k = { takeSeg (stringCfg s n) k (vget (stringOf s n).seg k) with gridFrom := s.now } := by
    unfold periodLs
    rw [onString_same s n _ h]
    exact (vget_vmapIdx _ _ _ hk).trans (if_pos hstart)
  refine ⟨(periodLs s n).withPending s.pending, rfl, ?_⟩
  rw [stringOf_withPending, hseg]
  exact ⟨rfl, rfl, rfl⟩

/-! Pattern engines (R185–R188). -/

/-- What a run answers, by its state and its status. -/
theorem Res.eq_of_parts {x : Res} {u : State} {st : Option Status} (hs : x.s = u) (hst : x.st = st) : x = { s := u, st := st, reply := x.reply } := by
  rw [← hs, ← hst]

theorem engineOf_onEngine_same (s : State) (e : Nat) (f : Engine → Engine) (h : e < 32) : engineOf (s.onEngine e f) e = f (engineOf s e) :=
  vget_vmod_same _ e f h

@[simp] theorem engineOf_postEvent (s : State) (x : Ev) (e : Nat) : engineOf (postEvent s x) e = engineOf s e := by simp only [engineOf, postEvent_light]

theorem engineOf_completeNow (s : State) (p : Packet) (st : Status) (r : Reply) (e : Nat) : engineOf (completeNow s p st r) e = engineOf s e := by
  simp only [engineOf, completeNow_light]

theorem engineOf_patternEndEvent (s : State) (e k : Nat) (g : PatProg) (v : Nat) : engineOf (patternEndEvent s e g v) k = engineOf s k := by
  unfold patternEndEvent
  split
  · exact engineOf_postEvent ..
  · rfl

theorem patternEndEvent_quiet (s : State) (e : Nat) (g : PatProg) (v : Nat) : (patternEndEvent s e g v).plane.quiet = s.plane.quiet := by
  unfold patternEndEvent
  split
  · exact postEvent_plane_quiet ..
  · rfl

theorem pget_patternEndEvent (s : State) (e : Nat) (g : PatProg) (v pt : Nat) : pget (patternEndEvent s e g v) pt = pget s pt := by
  unfold patternEndEvent
  split
  · rw [pget, postEvent_points]
    rfl
  · rfl

/-- A running engine has an index. -/
theorem engine_lt (s : State) (e : Nat) (h : (engineOf s e).running = true) : e < 32 := by
  by_contra hout
  have hdefault : engineOf s e = default := by simp [engineOf, vget, hout]
  rw [hdefault] at h
  exact absurd h (by decide)

theorem program_lt (s : State) (e : Nat) (g : PatProg) (h : patOf s e = some g) : e < 32 := by
  by_contra hout
  have hdefault : patOf s e = default := by simp [patOf, vget, hout]
  rw [hdefault] at h
  exact absurd h (by simp [default])

/-- Past the last step the program ends. -/
theorem settle_past (g : PatProg) (n i : Nat) (loops : Tbl Nat) (h : g.steps[i]? = none) : settle g n i loops = none := by
  cases n with
  | zero => rfl
  | succ n =>
    unfold settle
    rw [h]

/-- An engine that arrives at a step of OP 1–4 stands there. -/
theorem settle_stands (g : PatProg) (n i : Nat) (loops : Tbl Nat) (x : PatStep) (h : g.steps[i]? = some x) (hlow : 1 ≤ x.op) (hhigh : x.op ≤ 4) :
    settle g (n + 1) i loops = some (i, loops) := by
  unfold settle
  rw [h]
  dsimp only
  rw [if_neg (by omega), if_neg (by omega)]

theorem enterStep_past (s : State) (e : Nat) (g : PatProg) (i : Nat) (h : g.steps[i]? = none) :
    enterStep s e g i = patternEndEvent (s.onEngine e fun x => { x with running := false, step := i }) e g 0 := by
  unfold enterStep
  rw [settle_past g settleFuel i _ h]

theorem enterStep_stands (s : State) (e : Nat) (g : PatProg) (i : Nat) (x : PatStep) (h : g.steps[i]? = some x) (hlow : 1 ≤ x.op) (hhigh : x.op ≤ 4) :
    enterStep s e g i = s.onEngine e fun y => { y with step := i, k := 0, loops := (engineOf s e).loops } := by
  have hfuel : settleFuel = 4095 + 1 := rfl
  unfold enterStep
  rw [hfuel, settle_stands g 4095 i _ x h hlow hhigh]

theorem enterStep_quiet (s : State) (e : Nat) (g : PatProg) (i : Nat) : (enterStep s e g i).plane.quiet = s.plane.quiet := by
  unfold enterStep
  split
  · rfl
  · exact patternEndEvent_quiet ..

theorem pget_enterStep (s : State) (e : Nat) (g : PatProg) (i pt : Nat) : pget (enterStep s e g i) pt = pget s pt := by
  unfold enterStep
  split
  · rfl
  · exact pget_patternEndEvent ..

/-- PATTERN.RUN starts an engine at its step (R188). -/
theorem patternRun_starts (p : Packet) (g : PatProg) (x : PatStep) (s : State) (h : FastRuns patternRunOp p s) (hstart : p.bit 17 0 = false)
    (hprog : patOf s (p.fld 16 0 5) = some g) (hstep : g.steps[p.fld 18 0 6]? = some x) (hlow : 1 ≤ x.op) (hhigh : x.op ≤ 4) :
    ∃ t, exec (.patternRun p) s = .next t ∧ Completed p .ok s t ∧ (engineOf t (p.fld 16 0 5)).running = true ∧
      (engineOf t (p.fld 16 0 5)).step = p.fld 18 0 6 ∧ (engineOf t (p.fld 16 0 5)).k = 0 ∧ (engineOf t (p.fld 16 0 5)).nextAt = s.plane.lin ∧
      (engineOf t (p.fld 16 0 5)).detached = [] := by
  obtain ⟨r, hrun⟩ : ∃ r, patternRunOp.run p (counted s p) = { s := startEngine (counted s p) (p.fld 16 0 5) g (p.fld 18 0 6) true, reply := r } := by
    refine ⟨_, Res.eq_of_parts ?_ rfl⟩
    unfold patternRunOp
    dsimp only
    rw [if_neg (by rw [hstart]; decide), show patOf (counted s p) (p.fld 16 0 5) = some g from hprog]
    rfl
  have hlen : p.fld 18 0 6 < g.steps.length := (List.getElem?_eq_some_iff.mp hstep).1
  have hagree : patternRunOp.agree p (counted s p) (startEngine (counted s p) (p.fld 16 0 5) g (p.fld 18 0 6) true) = true := by
    change (match patOf s (p.fld 16 0 5) with | none => false | some g => p.bit 17 0 || decide (p.fld 18 0 6 < g.steps.length)) = true
    rw [hprog]
    simp [hlen]
  have hclock : (startEngine (counted s p) (p.fld 16 0 5) g (p.fld 18 0 6) true).clock = s.clock :=
    (clock_of_quiet (enterStep_quiet _ _ g _)).trans (counted_clock s p)
  obtain ⟨hexec, hdone⟩ := fastTake_completes h rfl hrun hagree hclock
  have hlt := program_lt s _ g hprog
  have hengine : engineOf (startEngine (counted s p) (p.fld 16 0 5) g (p.fld 18 0 6) true) (p.fld 16 0 5) =
      { engineOf s (p.fld 16 0 5) with running := true, step := p.fld 18 0 6, k := 0, loops := [], nextAt := s.plane.lin, detached := [] } := by
    unfold startEngine
    dsimp only
    rw [enterStep_stands _ _ g _ x hstep hlow hhigh, engineOf_onEngine_same _ _ _ hlt, engineOf_onEngine_same _ _ _ hlt]
    rfl
  refine ⟨(completeNow (startEngine (counted s p) (p.fld 16 0 5) g (p.fld 18 0 6) true) p .ok r).withPending s.pending, hexec, hdone, ?_⟩
  rw [show engineOf (State.withPending _ s.pending) (p.fld 16 0 5) = engineOf (completeNow _ p .ok r) (p.fld 16 0 5) from rfl, engineOf_completeNow, hengine]
  exact ⟨rfl, rfl, rfl, rfl, rfl⟩

/-- A stopped engine does not run. -/
theorem running_stopEngine (s : State) (e : Nat) (g : PatProg) (v : Nat) (h : e < 32) : (engineOf (stopEngine s e g v false) e).running = false := by
  unfold stopEngine
  split
  · dsimp only
    rw [engineOf_patternEndEvent, if_neg Bool.false_ne_true]
    exact congrArg Engine.running (engineOf_onEngine_same s e _ h)
  · next hstopped => exact Bool.eq_false_iff.mpr hstopped

theorem stopEngine_quiet (s : State) (e : Nat) (g : PatProg) (v : Nat) : (stopEngine s e g v false).plane.quiet = s.plane.quiet := by
  unfold stopEngine
  split
  · exact patternEndEvent_quiet ..
  · rfl

theorem patternRun_stops (p : Packet) (g : PatProg) (s : State) (h : FastRuns patternRunOp p s) (hstop : p.bit 17 0 = true) (hkeep : p.bit 17 1 = false)
    (hprog : patOf s (p.fld 16 0 5) = some g) :
    ∃ t, exec (.patternRun p) s = .next t ∧ Completed p .ok s t ∧ (engineOf t (p.fld 16 0 5)).running = false := by
  obtain ⟨r, hrun⟩ : ∃ r, patternRunOp.run p (counted s p) = { s := stopEngine (counted s p) (p.fld 16 0 5) g 1 false, reply := r } := by
    refine ⟨_, Res.eq_of_parts ?_ rfl⟩
    unfold patternRunOp
    dsimp only
    rw [if_pos hstop, hkeep, show patOf (counted s p) (p.fld 16 0 5) = some g from hprog]
    rfl
  have hagree : patternRunOp.agree p (counted s p) (stopEngine (counted s p) (p.fld 16 0 5) g 1 false) = true := by
    change (match patOf s (p.fld 16 0 5) with | none => false | some g => p.bit 17 0 || decide (p.fld 18 0 6 < g.steps.length)) = true
    rw [hprog]
    simp [hstop]
  have hclock : (stopEngine (counted s p) (p.fld 16 0 5) g 1 false).clock = s.clock := (clock_of_quiet (stopEngine_quiet _ _ g 1)).trans (counted_clock s p)
  obtain ⟨hexec, hdone⟩ := fastTake_completes h rfl hrun hagree hclock
  refine ⟨(completeNow (stopEngine (counted s p) (p.fld 16 0 5) g 1 false) p .ok r).withPending s.pending, hexec, hdone, ?_⟩
  rw [show engineOf (State.withPending _ s.pending) (p.fld 16 0 5) = engineOf (completeNow _ p .ok r) (p.fld 16 0 5) from rfl, engineOf_completeNow]
  exact running_stopEngine _ _ g 1 (program_lt s _ g hprog)

theorem patternLoad_loads (p : Packet) (s : State) (h : KeeperRuns patternLoadOp p s) (hread : p.bit 17 0 = false) (hdelete : p.bit 17 1 = false)
    (hidle : (engineOf s (p.fld 16 0 5)).running = false) :
    ∃ t, exec (.patternLoad p) s = .next t ∧ Completed p .ok s t ∧ patOf t (p.fld 16 0 5) = some (patProgOf p) ∧
      ∀ k, k ≠ p.fld 16 0 5 → patOf t k = patOf s k := by
  obtain ⟨u, hu⟩ : ∃ u, ((release s p).onStore fun st => { st with light := { st.light with
      prog := vmod st.light.prog (p.fld 16 0 5) fun _ => some (patProgOf p) } }).onEngine (p.fld 16 0 5) (fun _ => {}) = u := ⟨_, rfl⟩
  have hrun : patternLoadOp.run p (release s p) = { s := u } := by
    unfold patternLoadOp
    dsimp only
    rw [if_neg (by rw [hread]; decide), if_neg (by rw [show (engineOf (release s p) (p.fld 16 0 5)).running = false from hidle]; decide),
      if_neg (by rw [hdelete]; decide), ← hu]
  obtain ⟨hexec, hdone⟩ := keeperTake_completes h rfl hrun rfl (by rw [← hu]; rfl)
  have hpat (k : Nat) : patOf ((completeNow u p .ok []).withPending s.pending) k = vget (vmod s.store.light.prog (p.fld 16 0 5) fun _ => some (patProgOf p)) k := by
    rw [patOf, withPending_store, completeNow_store, ← hu]
    rfl
  refine ⟨_, hexec, hdone, (hpat _).trans (vget_vmod_same _ _ _ (Nat.mod_lt _ (by decide))), fun k hk => (hpat k).trans (vget_vmod_ne _ _ _ _ (Ne.symm hk))⟩

/-- STRING.CONFIG with one record sets its string. -/
theorem stringConfig_sets (p : Packet) (s : State) (h : KeeperRuns stringConfigOp p s) (hwrite : p.bit 16 0 = false) (hone : strCount p = 1)
    (hnone : p.fld 18 0 4 = 0) (hfits : ((List.range 4).all fun n => (stringCfg s n).fits) = true) (hfit : (stringCfgOf p 0).fits = true) :
    ∃ t, exec (.stringConfig p) s = .next t ∧ Completed p .ok s t ∧ stringCfg t (strIx p 0) = stringCfgOf p 0 ∧
      ∀ k, k ≠ strIx p 0 → stringCfg t k = stringCfg s k := by
  obtain ⟨r, hrun⟩ : ∃ r, stringConfigOp.run p (release s p) = { s := writeStringRecord p (release s p) 0, reply := r } := by
    refine ⟨_, Res.eq_of_parts ?_ ?_⟩ <;> unfold stringConfigOp <;> dsimp only
    · rw [if_neg (by rw [hwrite]; decide), hone, hnone, bitList_zero, List.range_one]
      rfl
    · rw [hnone, bitList_zero]
      rfl
  have hset := stringCfg_writeStringRecord_same p (release s p) 0
  have hother (k : Nat) (hk : k ≠ strIx p 0) : stringCfg (writeStringRecord p (release s p) 0) k = stringCfg s k :=
    stringCfg_writeStringRecord_other p (release s p) 0 k (Ne.symm hk)
  have hagree : stringConfigOp.agree p (release s p) (writeStringRecord p (release s p) 0) = true := by
    change ((List.range 4).all fun n => (stringCfg (writeStringRecord p (release s p) 0) n).fits) = true
    rw [List.all_eq_true] at hfits ⊢
    intro n hn
    by_cases hsame : n = strIx p 0
    · rw [hsame, hset]
      exact hfit
    · rw [hother n hsame]
      exact hfits n hn
  have hclock : (writeStringRecord p (release s p) 0).clock = s.clock := by
    refine Eq.trans (clock_of_quiet (s := release s p) ?_) (release_clock s p)
    unfold writeStringRecord
    rw [updateString_plane_quiet]
    rfl
  obtain ⟨hexec, hdone⟩ := keeperTake_completes h rfl hrun hagree hclock
  have hstore (k : Nat) : stringCfg ((completeNow (writeStringRecord p (release s p) 0) p .ok r).withPending s.pending) k =
      stringCfg (writeStringRecord p (release s p) 0) k := by
    rw [stringCfg, withPending_store, completeNow_store]
    rfl
  exact ⟨_, hexec, hdone, (hstore _).trans hset, fun k hk => (hstore k).trans (hother k hk)⟩

/-! Updates of an engine, and writes that have waited (R186, R187). -/

theorem writeStands_pattern_light (s : State) (w : PWrite) (t : Stamp) (old : PVal) (count : Nat) (h : w.kind = .pattern) :
    (writeStands s w t old count).light = s.light := by
  obtain ⟨a, b, hlatency⟩ := noteLatency_only (noteWriter (pput s w.pt w.v) w.pt w.v w.kind w.comp s.stamp) w
  unfold writeStands
  rw [if_neg (by rw [h]; decide)]
  dsimp only
  rw [hlatency]
  rfl

/-- A pattern write to a free point stands, and no engine changes. -/
theorem patternWrite_stands (s : State) (e pt : Nat) (v : PVal) (hroom : s.points.writesNow < 4096) (hfree : heldByAction s pt = false)
    (hnow : s.points.now = []) (hwf : Tbl.wf 0 s.points.mem = true) :
    pget (writePoint s (enginePWrite e pt v)).1 pt = v ∧ (writePoint s (enginePWrite e pt v)).1.light = s.light ∧
    (writePoint s (enginePWrite e pt v)).1.plane.lin = s.plane.lin := by
  rw [writePoint_stands s (enginePWrite e pt v) hroom (.inr hfree) hnow]
  refine ⟨pget_writeStands s (enginePWrite e pt v) _ _ _ hwf, writeStands_pattern_light s _ _ _ _ rfl, ?_⟩
  change (writeStands s (enginePWrite e pt v) _ _ _).plane.lin = _
  rw [writeStands_plane]

/-- Nothing waits. -/
theorem lagStep_idle (s : State) (h : s.light.lag = []) : lagStep s = s := by
  have hsame : (s.onLight fun x => { x with lag := [] }) = s := by
    rw [← h]
    rfl
  unfold lagStep
  dsimp only
  rw [h, List.drop_nil, List.take_nil]
  exact hsame

theorem patWrite_writes (s : State) (e pt : Nat) (v : PVal) (hlag : s.light.lag = []) (hpat : s.light.patNow < 1024)
    (hroom : s.points.writesNow < 4096) (hfree : heldByAction s pt = false) (hnow : s.points.now = []) (hwf : Tbl.wf 0 s.points.mem = true) :
    pget (patWrite s e pt v) pt = v ∧ (patWrite s e pt v).light.engine = s.light.engine ∧ (patWrite s e pt v).plane.lin = s.plane.lin := by
  unfold patWrite
  rw [if_neg (by rw [hlag]; exact Bool.false_ne_true)]
  split
  · next hsame => exact ⟨hsame.symm, rfl, rfl⟩
  · rw [if_pos ⟨hpat, hlag⟩]
    obtain ⟨hpoint, hlight, hlin⟩ := patternWrite_stands (s.onLight fun x => { x with patNow := x.patNow + 1 }) e pt v hroom hfree hnow hwf
    exact ⟨hpoint, (congrArg Light.engine hlight :), hlin⟩

theorem attached_single (s : State) (e : Nat) (g : PatProg) (hcount : g.count = 1) (hdetached : (engineOf s e).detached = []) :
    attached s e g = [(0, g.start)] := by
  simp [attached, hcount, hdetached, PatProg.target]

/-- What an update of an engine with one target leaves. -/
def updatedOnce (s : State) (e : Nat) (g : PatProg) (st : PatStep) : State :=
  (patWrite s e g.start (st.value 1 ((engineOf s e).k + 1) 0)).onEngine e fun x => { x with
    k := (engineOf s e).k + 1, nextAt := (patWrite s e g.start (st.value 1 ((engineOf s e).k + 1) 0)).plane.lin + g.update }

theorem patternUpdate_once (s : State) (e : Nat) (g : PatProg) (st : PatStep) (hprog : patOf s e = some g) (hplane : s.plane.running = true)
    (hrun : (engineOf s e).running = true) (hdue : (engineOf s e).nextAt ≤ s.plane.lin) (hstep : g.steps[(engineOf s e).step]? = some st)
    (hcount : g.count = 1) (hdetached : (engineOf s e).detached = []) (hlag : s.light.lag = []) :
    patternUpdate s e = if st.duration ≤ (engineOf s e).k + 1 then enterStep (updatedOnce s e g st) e g ((engineOf s e).step + 1) else updatedOnce s e g st := by
  have hlagged : (if updateDue s e then lagStep s else s) = s := by
    split
    · exact lagStep_idle s hlag
    · rfl
  unfold patternUpdate
  dsimp only
  rw [hlagged, hprog]
  dsimp only
  rw [if_pos ⟨hplane, hrun, hdue⟩, hstep, attached_single s e g hcount hdetached, hcount]
  rfl

theorem patternUpdate_updates (e : Nat) (g : PatProg) (st : PatStep) (s : State) (hturn : engineTurn s e = true) (hprog : patOf s e = some g)
    (hplane : s.plane.running = true) (hrun : (engineOf s e).running = true) (hdue : (engineOf s e).nextAt ≤ s.plane.lin)
    (hstep : g.steps[(engineOf s e).step]? = some st) (hcount : g.count = 1) (hdetached : (engineOf s e).detached = []) (hlag : s.light.lag = [])
    (hpat : s.light.patNow < 1024) (hroom : s.points.writesNow < 4096) (hnow : s.points.now = []) (hfree : heldByAction s g.start = false)
    (hwf : Tbl.wf 0 s.points.mem = true) :
    ∃ t, exec (.patternUpdate e) s = .next t ∧ pget t g.start = st.value 1 ((engineOf s e).k + 1) 0 ∧
      (engineOf t e).nextAt = s.plane.lin + g.update ∧
      ((engineOf s e).k + 1 < st.duration → (engineOf t e).k = (engineOf s e).k + 1 ∧ (engineOf t e).running = true) ∧
      (st.duration ≤ (engineOf s e).k + 1 → g.steps[(engineOf s e).step + 1]? = none → (engineOf t e).running = false) := by
  have hupdates := patternUpdate_once s e g st hprog hplane hrun hdue hstep hcount hdetached hlag
  have hlt := engine_lt s e hrun
  obtain ⟨hpoint, hengine, hlin⟩ := patWrite_writes s e g.start (st.value 1 ((engineOf s e).k + 1) 0) hlag hpat hroom hfree hnow hwf
  have hsame := engineOf_onEngine_same (patWrite s e g.start (st.value 1 ((engineOf s e).k + 1) 0)) e (fun x => { x with
    k := (engineOf s e).k + 1, nextAt := (patWrite s e g.start (st.value 1 ((engineOf s e).k + 1) 0)).plane.lin + g.update }) hlt
  have hold : engineOf (patWrite s e g.start (st.value 1 ((engineOf s e).k + 1) 0)) e = engineOf s e :=
    congrArg (vget · e) hengine
  rw [hlin, hold] at hsame
  have hnext : (engineOf (updatedOnce s e g st) e).nextAt = s.plane.lin + g.update := by
    unfold updatedOnce
    rw [hlin, hsame]
  have hexec : exec (.patternUpdate e) s = effect s (patternUpdate s e) := congrArg (effect s) (if_pos hturn)
  by_cases hlast : st.duration ≤ (engineOf s e).k + 1
  · rw [if_pos hlast] at hupdates
    rw [hupdates] at hexec
    refine ⟨_, hexec, (pget_enterStep _ e g _ _).trans hpoint, ?_, fun hmore => absurd hmore (by omega), fun _ hend => ?_⟩
    · have hentered : (engineOf (enterStep (updatedOnce s e g st) e g ((engineOf s e).step + 1)) e).nextAt = (engineOf (updatedOnce s e g st) e).nextAt := by
        unfold enterStep
        split
        · exact vget_vmod_proj _ e e _ Engine.nextAt fun _ => rfl
        · rw [engineOf_patternEndEvent]
          exact vget_vmod_proj _ e e _ Engine.nextAt fun _ => rfl
      exact hentered.trans hnext
    · change (engineOf (enterStep (updatedOnce s e g st) e g ((engineOf s e).step + 1)) e).running = false
      rw [enterStep_past _ e g _ hend, engineOf_patternEndEvent, engineOf_onEngine_same _ e _ hlt]
  · rw [if_neg hlast] at hupdates
    rw [hupdates] at hexec
    refine ⟨(updatedOnce s e g st).withPending s.pending, hexec, hpoint, hnext, fun _ => ?_, fun hend => absurd hend hlast⟩
    rw [engineOf_withPending]
    unfold updatedOnce
    rw [hlin, hsame]
    exact ⟨rfl, hrun⟩

theorem patternWriteDeferred_writes (w : LagWrite) (s : State) (hdone : packetsDone s = true) (hlag : s.light.lag = [w]) (hpat : s.light.patNow < 1024)
    (hroom : s.points.writesNow < 4096) (hnow : s.points.now = []) (hfree : heldByAction s w.pt = false) (hwf : Tbl.wf 0 s.points.mem = true) :
    ∃ t, exec .patternWriteDeferred s = .next t ∧ t.light.lag = [] ∧ pget t w.pt = w.v := by
  obtain ⟨n, hn⟩ : ∃ n, 1024 - s.light.patNow = n + 1 := ⟨1023 - s.light.patNow, by omega⟩
  obtain ⟨u, hu⟩ : ∃ u, (s.onLight fun x => { x with lag := [] }) = u := ⟨_, rfl⟩
  have hstep : lagStep s = if w.v = pget u w.pt then u
      else (writePoint (u.onLight fun x => { x with patNow := x.patNow + 1 }) (enginePWrite w.engine w.pt w.v)).1 := by
    unfold lagStep
    dsimp only
    rw [hlag, hn, List.drop_succ_cons, List.drop_nil, List.take_succ_cons, List.take_nil, List.foldl_cons, List.foldl_nil, hu]
  have hlags : u.light.lag = [] := by
    rw [← hu]
    rfl
  have hexec : exec .patternWriteDeferred s = effect s (lagStep s) := congrArg (effect s) (if_pos hdone)
  refine ⟨(lagStep s).withPending s.pending, hexec, ?_⟩
  change (lagStep s).light.lag = [] ∧ pget (lagStep s) w.pt = w.v
  rw [hstep]
  split
  · next hsame => exact ⟨hlags, hsame.symm⟩
  · subst hu
    obtain ⟨hpoint, hlight, -⟩ := patternWrite_stands ((s.onLight fun x => { x with lag := [] }).onLight fun x => { x with patNow := x.patNow + 1 }) w.engine w.pt w.v
      hroom hfree hnow hwf
    exact ⟨(congrArg Light.lag hlight :), hpoint⟩

/-- Settles O45. -/
theorem stringsAndPatternsRun : Obligations.StringsAndPatternsRun := by
  unfold Obligations.StringsAndPatternsRun
  refine ⟨stringSoftStartEnd_ends, stringConverterStop_stops, stringFault_opens, fun n s h hrun => ?_, fun n mA s h hrun hhigh => ?_, stringFault_supplied,
    stringFault_returns, pwmPeriodStart_takes, patternUpdate_updates, patternWriteDeferred_writes, fun p n s h hwrite hone hn => ?_,
    fun p e s h he => ?_, fun p e g x s h he => ?_, fun p e g s h he => ?_⟩
  · exact ⟨(lockString s n 7 0).withPending s.pending, congrArg (effect s) (stringFault_short s n hrun), lockString_locks s n 7 0 h⟩
  · exact ⟨(lockString s n 7 0).withPending s.pending, congrArg (effect s) ((if_pos hhigh).trans (stringFault_short s n hrun)), lockString_locks s n 7 0 h⟩
  · subst hn
    exact stringConfig_sets p s h hwrite hone
  · subst he
    exact patternLoad_loads p s h
  · subst he
    exact patternRun_starts p g x s h
  · subst he
    exact patternRun_stops p g s h

end Sys2Proof.Machine

namespace Sys2Proof.Machine

open Sys2Proof.Claims

/-! Valves (R163–R174): grants, programs and the dip detector. -/

theorem valveOf_of_valve {s t : State} (h : t.motor.valve = s.motor.valve) (k : Nat) : valveOf t k = valveOf s k := by simp only [valveOf, h]

theorem valveOf_of_motor {s t : State} (h : t.motor = s.motor) (k : Nat) : valveOf t k = valveOf s k := by simp only [valveOf, h]

theorem valveOf_valveEvent (s : State) (kind v value k : Nat) : valveOf (valveEvent s kind v value) k = valveOf s k := valveOf_of_motor (valveEvent_motor ..) k

theorem valveOf_valveFaultEvent (s : State) (o cause detail k : Nat) : valveOf (valveFaultEvent s o cause detail) k = valveOf s k :=
  valveOf_of_motor (valveFaultEvent_motor ..) k

/-- A valve's event is delivered with the stamp of the power hall. -/
theorem valveEvent_observed {s u : State} (hreach : u.reach = s.reach) (kind v value : Nat) :
    Observed s (valveEvent u kind v value) 7 (200 + v) [] [s.ev 7 kind (firePoint v) value true] := by
  have hobs := observe_observed u 7 (200 + v) [] [u.ev 7 kind (firePoint v) value true] []
  rw [ev_of_reach hreach] at hobs
  have hevent : valveEvent u kind v value = observe u 7 (200 + v) [] [s.ev 7 kind (firePoint v) value true] [] := by
    rw [← ev_of_reach hreach]
    rfl
  rw [hevent]
  exact Observed.of_reach hobs hreach

theorem valveOf_setFeed (s : State) (f k : Nat) (on : Bool) : valveOf (setFeed s f on) k = valveOf s k := by
  unfold setFeed
  split
  · rfl
  · exact valveOf_of_motor (observe_motor ..) k

theorem setFeed_turns (s : State) (f : Nat) (on : Bool) (h : f < 2) :
    (feedOf (setFeed s f on) f).on = on ∧ (feedOf (setFeed s f on) f).queue = (feedOf s f).queue := by
  unfold setFeed
  split
  · next hsame => exact ⟨hsame, rfl⟩
  · rw [feedOf_observePoint, onFeed_same _ _ _ h]
    exact ⟨rfl, rfl⟩

theorem valveGrant_grants (f v : Nat) (r : List Nat) (s : State) (hf : f < 2) (hv : v < 8) (hqueue : (feedOf s f).queue = v :: r)
    (hfits : claimsHeld s f + (valveOf s v).claim ≤ vget s.store.motor.budget f) :
    ∃ t, exec (.valveGrant f) s = .next t ∧ (valveOf t v).phase = .granted ∧ (valveOf t v).claimHeld = true ∧ (feedOf t f).on = true ∧
      (feedOf t f).queue = r ∧ (valveOf t v).startAt = (if (feedOf s f).on && decide ((feedOf s f).onAt < s.now) then s.now else s.now + 16) := by
  obtain ⟨u, hu⟩ : ∃ u, (s.onFeed f fun y => { y with queue := r }).onValve v (fun x => { x with
      phase := .granted, claimHeld := true, grantAt := s.now
      startAt := if (feedOf s f).on && (feedOf s f).onAt < s.now then s.now else s.now + 16 }) = u := ⟨_, rfl⟩
  have hgrants : grantFirst s f = setFeed u f true := by
    unfold grantFirst
    rw [hqueue, ← hu]
    exact if_pos hfits
  have hvalve : valveOf u v = { valveOf s v with
      phase := .granted, claimHeld := true, grantAt := s.now
      startAt := if (feedOf s f).on && (feedOf s f).onAt < s.now then s.now else s.now + 16 } := by
    rw [← hu, valveOf_onValve_same _ v _ hv]
    rfl
  have hfeed : (feedOf u f).queue = r := by
    rw [← hu]
    exact congrArg Feed.queue (onFeed_same s f _ hf)
  obtain ⟨hon, hkept⟩ := setFeed_turns u f true hf
  refine ⟨(setFeed u f true).withPending s.pending, congrArg (effect s) hgrants, ?_, ?_, hon, hkept.trans hfeed, ?_⟩
  all_goals rw [valveOf_withPending, valveOf_setFeed, hvalve]

theorem valveProgramStart_starts (v : Nat) (s : State) (hv : v < 8) (hphase : (valveOf s v).phase = .granted) (hdue : (valveOf s v).startAt ≤ s.now) :
    ∃ t, exec (.valveProgramStart v) s = .next t ∧ (valveOf t v).phase = .running ∧ (valveOf t v).pc = (valveOf s v).entry ∧
      (valveOf t v).startAt = s.now ∧ (valveOf t v).on = false ∧ (valveOf t v).dFlag = false ∧ (valveOf t v).tFlag = false ∧
      (s.motor.trace.armed = true → s.motor.trace.valve = v → t.motor.trace.capturing = true ∧ t.motor.trace.armed = false) := by
  obtain ⟨u, hu⟩ : ∃ u, s.onValve v (fun x => { x with
      phase := .running, startAt := s.now, pc := x.entry, dFlag := false, tFlag := false, ctr := 0, waitOp := 0
      waitEnds := none, dip := {}, target := 0, peakPhase := false, peaked := false, on := false, chopped := false, lastAt := none
      fires := x.fires + 1 }) = u := ⟨_, rfl⟩
  have hstarts : programStart s v = u.onMotor fun d => if d.trace.armed ∧ d.trace.valve = v then
      { d with trace := { d.trace with
          armed := false, capturing := true, samples := [], start := s.stamp, startAt := s.now, status := Status.pend.code } } else d := by
    unfold programStart
    dsimp only
    rw [if_pos ⟨hphase, hdue⟩, ← hu]
    rfl
  have hvalve : valveOf (programStart s v) v = valveOf u v := by
    rw [hstarts]
    refine valveOf_of_valve ?_ v
    rw [onMotor_motor]
    split <;> rfl
  have hsame := valveOf_onValve_same s v (fun x => { x with
    phase := .running, startAt := s.now, pc := x.entry, dFlag := false, tFlag := false, ctr := 0, waitOp := 0
    waitEnds := none, dip := {}, target := 0, peakPhase := false, peaked := false, on := false, chopped := false, lastAt := none
    fires := x.fires + 1 }) hv
  rw [hu] at hsame
  refine ⟨(programStart s v).withPending s.pending, rfl, ?_⟩
  rw [valveOf_withPending, hvalve, hsame]
  refine ⟨rfl, rfl, rfl, rfl, rfl, rfl, fun harmed htraced => ?_⟩
  have htrace : u.motor.trace = s.motor.trace := by
    rw [← hu]
    rfl
  change (programStart s v).motor.trace.capturing = true ∧ (programStart s v).motor.trace.armed = false
  rw [hstarts, onMotor_motor, if_pos (by rw [htrace]; exact ⟨harmed, htraced⟩)]
  exact ⟨rfl, rfl⟩

/-! Waits and samples. -/

/-- What a measured current leaves alone in a valve. -/
theorem noteCurrent_keeps (now mA : Nat) (x : Valve) : ∃ c m o k, noteCurrent now mA x = { x with mA := c, peakMa := m, on := o, chopped := k } := by
  unfold noteCurrent
  dsimp only
  split
  · exact ⟨_, _, _, _, rfl⟩
  · exact ⟨_, _, _, _, rfl⟩

/-- A current that reaches the target after the blanking turns the low-side off (R164). -/
theorem noteCurrent_chops (now mA : Nat) (x : Valve) (hon : x.on = true) (htarget : x.target ≠ 0) (hreach : x.target ≤ mA) (hblank : x.onAt + 8 ≤ now) :
    (noteCurrent now mA x).on = false ∧ (noteCurrent now mA x).chopped = true := by
  unfold noteCurrent
  dsimp only
  rw [if_pos ⟨hon, htarget, hreach, hblank⟩]
  exact ⟨rfl, rfl⟩

/-- A wait ends with this tick or has ended before. -/
def waitPasses (now : Nat) (x : Valve) : Bool := match x.waitEnds with | some t => decide (t ≤ now + 1) | none => false

/-- A valve whose wait ends or goes on with this tick. -/
def waitNoted (x : Valve) (now mA : Nat) : Valve :=
  let y := noteCurrent now mA x
  if waitHolds x mA then { y with waitOp := 0, waitEnds := none, tFlag := false, lastAt := some now }
  else if waitPasses now x = true then
    { y with waitOp := 0, waitEnds := none, tFlag := if x.waitOp = 3 then y.tFlag else true, lastAt := some now }
  else y

theorem valveOf_waitEnd (s : State) (v mA : Nat) (hv : v < 8) (hrun : (valveOf s v).phase = .running) (hwait : (valveOf s v).waitOp ≠ 0) :
    valveOf (waitEnd s v mA) v = waitNoted (valveOf s v) s.now mA := by
  have hnoted := valveOf_onValve_same s v (noteCurrent s.now mA) hv
  unfold waitEnd waitNoted
  dsimp only
  rw [if_pos ⟨hrun, hwait⟩]
  change valveOf (if waitHolds (valveOf s v) mA = true then _ else if waitPasses s.now (valveOf s v) = true then _ else _) v = _
  split
  · rw [valveOf_onValve_same _ v _ hv, hnoted]
    rfl
  · split
    · rw [valveOf_onValve_same _ v _ hv, hnoted]
      rfl
    · exact hnoted

theorem valveWaitEnd_ends (v mA : Nat) (s : State) (hv : v < 8) (hrun : (valveOf s v).phase = .running) (hwait : (valveOf s v).waitOp ≠ 0) :
    ∃ t, exec (.valveWaitEnd v mA) s = .next t ∧ (valveOf t v).pc = (valveOf s v).pc ∧
      (waitHolds (valveOf s v) mA = true → (valveOf t v).waitOp = 0 ∧ (valveOf t v).tFlag = false ∧ (valveOf t v).lastAt = some s.now) ∧
      (∀ n, waitHolds (valveOf s v) mA = false → (valveOf s v).waitEnds = some n → n ≤ s.now + 1 →
        (valveOf t v).waitOp = 0 ∧ ((valveOf s v).waitOp ≠ 3 → (valveOf t v).tFlag = true)) ∧
      (waitHolds (valveOf s v) mA = false → (∀ n, (valveOf s v).waitEnds = some n → s.now + 1 < n) →
        (valveOf t v).waitOp = (valveOf s v).waitOp) ∧
      ((valveOf s v).on = true → (valveOf s v).target ≠ 0 → (valveOf s v).target ≤ mA → (valveOf s v).onAt + 8 ≤ s.now →
        (valveOf t v).on = false ∧ (valveOf t v).chopped = true) := by
  refine ⟨(waitEnd s v mA).withPending s.pending, rfl, ?_⟩
  rw [valveOf_withPending, valveOf_waitEnd s v mA hv hrun hwait]
  generalize valveOf s v = x
  obtain ⟨c, m, o, k, hnoted⟩ := noteCurrent_keeps s.now mA x
  refine ⟨?_, fun hholds => ?_, fun n hnot hends hlast => ?_, fun hnot hlater => ?_, fun hon htarget hreach hblank => ?_⟩
  · unfold waitNoted
    dsimp only
    rw [hnoted]
    split
    · rfl
    · split <;> rfl
  · unfold waitNoted
    dsimp only
    rw [if_pos hholds]
    exact ⟨rfl, rfl, rfl⟩
  · unfold waitNoted
    dsimp only
    rw [if_neg (by rw [hnot]; decide), if_pos (by simp [waitPasses, hends, hlast])]
    exact ⟨rfl, fun hthree => if_neg hthree⟩
  · unfold waitNoted
    dsimp only
    have hmore : waitPasses s.now x ≠ true := by
      unfold waitPasses
      cases hends : x.waitEnds with
      | none => exact Bool.false_ne_true
      | some n => exact fun hpast => absurd (of_decide_eq_true hpast) (Nat.not_le.2 (hlater n hends))
    rw [if_neg (by rw [hnot]; decide), if_neg hmore, hnoted]
  · obtain ⟨hoff, hchopped⟩ := noteCurrent_chops s.now mA x hon htarget hreach hblank
    unfold waitNoted
    dsimp only
    split
    · exact ⟨hoff, hchopped⟩
    · split
      · exact ⟨hoff, hchopped⟩
      · exact ⟨hoff, hchopped⟩

theorem traceMark_valve (s : State) (v k : Nat) : valveOf (traceMark s v) k = valveOf s k := by
  refine valveOf_of_valve ?_ k
  unfold traceMark
  rw [onMotor_motor]
  split <;> rfl

theorem running_of_dipUses (now : Nat) (x : Valve) (h : dipUses now x = true) : x.phase = .running := by
  simp only [dipUses, Bool.and_eq_true, beq_iff_eq] at h
  obtain ⟨⟨⟨⟨⟨⟨hrun, -⟩, -⟩, -⟩, -⟩, -⟩, -⟩ := h
  exact hrun

theorem dipDetect_samples (s : State) (v mA : Nat) (hv : v < 8) (huses : dipUses s.now (valveOf s v) = true) (hpast : (valveOf s v).dip.past = false)
    (hnew : (valveOf s v).dFlag = false) :
    ∃ u, valveOf u v = noteCurrent s.now mA { valveOf s v with dip := (valveOf s v).dip.take false mA } ∧ u.reach = s.reach ∧
      dipDetect s v mA = if ((valveOf s v).dip.take false mA).samples ≤ ((valveOf s v).dip.take false mA).count then
        valveEvent (traceMark (u.onValve v fun x => { x with
          dFlag := true, dipTick := some (s.now - (valveOf s v).startAt), dipMa := ((valveOf s v).dip.take false mA).low }) v) 0x0311 v
          (sat16 (s.now - (valveOf s v).startAt)) else u := by
  have hrun := running_of_dipUses s.now _ huses
  have hd : (if dipUses s.now (valveOf s v) = true ∧ (!(valveOf s v).dip.past) = true then (valveOf s v).dip.take (valveOf s v).dFlag mA else (valveOf s v).dip) =
      (valveOf s v).dip.take false mA := by
    rw [if_pos ⟨huses, by rw [hpast]; rfl⟩, hnew]
  refine ⟨s.onValve v fun x => if x.phase = .running then
    noteCurrent s.now mA { x with dip := (valveOf s v).dip.take false mA, dipMa := x.dipMa } else { x with mA := mA }, ?_, rfl, ?_⟩
  · rw [valveOf_onValve_same s v _ hv]
    exact if_pos hrun
  · unfold dipDetect
    dsimp only
    rw [hd, hnew]
    have hif : (dipUses s.now (valveOf s v) = true ∧ (!false) = true ∧
        ((valveOf s v).dip.take false mA).samples ≤ ((valveOf s v).dip.take false mA).count) ↔
        ((valveOf s v).dip.take false mA).samples ≤ ((valveOf s v).dip.take false mA).count := by simp [huses]
    exact if_congr hif rfl rfl

theorem valveDipDetect_detects (v mA : Nat) (s : State) (hv : v < 8) (huses : dipUses s.now (valveOf s v) = true) (hpast : (valveOf s v).dip.past = false)
    (hnew : (valveOf s v).dFlag = false) (hfull : ((valveOf s v).dip.take false mA).samples ≤ ((valveOf s v).dip.take false mA).count) :
    ∃ t, exec (.valveDipDetect v mA) s = .next t ∧ (valveOf t v).dFlag = true ∧ (valveOf t v).dipTick = some (s.now - (valveOf s v).startAt) ∧
      (valveOf t v).dipMa = ((valveOf s v).dip.take false mA).low ∧
      Observed s t 7 (200 + v) [] [s.ev 7 0x0311 (firePoint v) (sat16 (s.now - (valveOf s v).startAt)) true] := by
  obtain ⟨u, -, hreach, hdetects⟩ := dipDetect_samples s v mA hv huses hpast hnew
  rw [if_pos hfull] at hdetects
  obtain ⟨w, hw⟩ : ∃ w, u.onValve v (fun x => { x with
    dFlag := true, dipTick := some (s.now - (valveOf s v).startAt), dipMa := ((valveOf s v).dip.take false mA).low }) = w := ⟨_, rfl⟩
  have hvalve := valveOf_onValve_same u v (fun x => { x with
    dFlag := true, dipTick := some (s.now - (valveOf s v).startAt), dipMa := ((valveOf s v).dip.take false mA).low }) hv
  rw [hw] at hdetects hvalve
  have hmark : (traceMark w v).reach = s.reach := by
    rw [← hreach, ← hw]
    rfl
  refine ⟨(valveEvent (traceMark w v) 0x0311 v (sat16 (s.now - (valveOf s v).startAt))).withPending s.pending, congrArg (effect s) hdetects, ?_, ?_, ?_,
    valveEvent_observed hmark 0x0311 v _⟩
  all_goals rw [valveOf_withPending, valveOf_valveEvent, traceMark_valve, hvalve]

theorem valveDipDetect_counts (v mA : Nat) (s : State) (hv : v < 8) (huses : dipUses s.now (valveOf s v) = true) (hpast : (valveOf s v).dip.past = false)
    (hnew : (valveOf s v).dFlag = false) (hmore : ((valveOf s v).dip.take false mA).count < ((valveOf s v).dip.take false mA).samples) :
    ∃ t, exec (.valveDipDetect v mA) s = .next t ∧ (valveOf t v).dFlag = false ∧ (valveOf t v).dip = (valveOf s v).dip.take false mA := by
  obtain ⟨u, hvalve, -, hdetects⟩ := dipDetect_samples s v mA hv huses hpast hnew
  obtain ⟨c, m, o, k, hnoted⟩ := noteCurrent_keeps s.now mA { valveOf s v with dip := (valveOf s v).dip.take false mA }
  rw [if_neg (by omega)] at hdetects
  refine ⟨u.withPending s.pending, congrArg (effect s) hdetects, ?_⟩
  rw [valveOf_withPending, hvalve, hnoted]
  exact ⟨hnew, rfl⟩

/-! Instructions (Table 06.7). -/

/-- What one instruction but END does to its valve. -/
def valveStepped (now w mA : Nat) (x : Valve) : Valve :=
  match vOp w with
  | 1 => { setTarget now (vI w) ((vN w).testBit 0) mA x with peakPhase := true, peaked := true, peakAt := now }
  | 2 => { setTarget now (vI w) ((vN w).testBit 0) mA (releaseClaim now x) with peakPhase := false }
  | 3 => if timedTicks (vN w) ≤ 1 then x else beginWait now 3 0 (some (timedTicks (vN w))) x
  | 4 => beginWait now 4 (vI w) (some (timedTicks (vN w))) x
  | 5 => { x with dFlag := false, dip := { armed := true, depth := vI w, samples := vN w % 256 } }
  | 6 => beginWait now 6 0 (some (timedTicks (vN w))) x
  | 7 => beginWait now 7 0 (if vN w = 0 then none else some (vN w * 8000)) x
  | 8 =>
      let taken := branchTaken (bitsOf (vI w) 8 4) x
      let x := if bitsOf (vI w) 8 4 = 5 then { x with ctr := (x.ctr + 255) % 256 } else x
      if taken then { x with pc := vN w % 64 } else x
  | 9 => { x with ctr := vN w % 256 }
  | 10 => x
  | _ => x

theorem valveOf_valveStep (s : State) (v w mA : Nat) (hv : v < 8) : valveOf (valveStep s v w mA) v = valveStepped s.now w mA (valveOf s v) := by
  unfold valveStep valveStepped
  dsimp only
  generalize vOp w = op
  split
  case h_10 => exact (valveOf_valveEvent ..).trans (traceMark_valve s v v)
  case h_11 => simp_all
  all_goals exact valveOf_onValve_same s v _ hv

theorem setTarget_only (now target mA : Nat) (fast : Bool) (x : Valve) : ∃ o a k, setTarget now target fast mA x =
    { x with target := target, fast := fast, on := o, onAt := a, chopped := k } := by
  unfold setTarget turnOn chopOff
  dsimp only
  repeat' split
  all_goals exact ⟨_, _, _, rfl⟩

/-- Below the target the low-side is on where nothing holds it, and at the target it is off (R164). -/
theorem setTarget_on (now target mA : Nat) (fast : Bool) (x : Valve) :
    (mA < target → x.cond.free = true → (setTarget now target fast mA x).on = true) ∧ (target ≤ mA → (setTarget now target fast mA x).on = false) := by
  constructor
  · intro hless hfree
    unfold setTarget turnOn
    dsimp only
    rw [if_pos hless]
    split
    · next hor =>
      rw [hfree] at hor
      exact hor.resolve_right (by decide)
    · rfl
  · intro hmore
    unfold setTarget
    dsimp only
    rw [if_neg (Nat.not_lt.2 hmore)]
    split
    · rfl
    · next hoff => exact Bool.eq_false_iff.2 hoff

theorem releaseClaim_only (now : Nat) (x : Valve) : ∃ e, releaseClaim now x = { x with claimHeld := false, claimEnds := e } := by
  unfold releaseClaim
  split
  · exact ⟨_, rfl⟩
  · next hfree =>
    refine ⟨x.claimEnds, ?_⟩
    rw [← Bool.eq_false_iff.2 hfree]

theorem valveStepped_keeps (now w mA : Nat) (x : Valve) : (valveStepped now w mA x).phase = x.phase ∧ (valveStepped now w mA x).lastAt = x.lastAt ∧
    (vOp w ≠ 8 → (valveStepped now w mA x).pc = x.pc) := by
  obtain ⟨e, hclaim⟩ := releaseClaim_only now x
  obtain ⟨o, a, k, hpeak⟩ := setTarget_only now (vI w) mA ((vN w).testBit 0) x
  obtain ⟨o', a', k', hhold⟩ := setTarget_only now (vI w) mA ((vN w).testBit 0) (releaseClaim now x)
  unfold valveStepped
  split
  case h_1 => rw [hpeak]; exact ⟨rfl, rfl, fun _ => rfl⟩
  case h_2 => rw [hhold, hclaim]; exact ⟨rfl, rfl, fun _ => rfl⟩
  case h_3 => split <;> exact ⟨rfl, rfl, fun _ => rfl⟩
  case h_8 height =>
    refine ⟨?_, ?_, fun hne => absurd height hne⟩
    all_goals dsimp only; repeat' split
    all_goals rfl
  all_goals exact ⟨rfl, rfl, fun _ => rfl⟩

/-- A valve before its instruction: its current noted, its address the next one (R168). -/
def fetched (now mA : Nat) (x : Valve) : Valve := { noteCurrent now mA { x with lastAt := some now } with pc := (x.pc + 1) % 64 }

theorem fetched_only (now mA : Nat) (x : Valve) : ∃ c m o k, fetched now mA x =
    { x with lastAt := some now, mA := c, peakMa := m, on := o, chopped := k, pc := (x.pc + 1) % 64 } := by
  obtain ⟨c, m, o, k, h⟩ := noteCurrent_keeps now mA { x with lastAt := some now }
  refine ⟨c, m, o, k, ?_⟩
  rw [fetched, h]

theorem valveInstruction_steps (s : State) (v w mA : Nat) (hv : v < 8) (hrun : (valveOf s v).phase = .running) (hwait : (valveOf s v).waitOp = 0)
    (hlast : (valveOf s v).lastAt ≠ some s.now) (hw : w = vget (progOf s v) (valveOf s v).pc) (hop : vOp w ≠ 0) :
    ∃ u, valveOf u v = fetched s.now mA (valveOf s v) ∧ u.reach = s.reach ∧ u.now = s.now ∧ valveInstruction s v mA = valveStep u v w mA := by
  subst hw
  refine ⟨(s.onValve v fun x => noteCurrent s.now mA { x with lastAt := some s.now }).onValve v fun x => { x with pc := (x.pc + 1) % 64 },
    ?_, rfl, rfl, ?_⟩
  · obtain ⟨c, m, o, k, h⟩ := noteCurrent_keeps s.now mA { valveOf s v with lastAt := some s.now }
    rw [valveOf_onValve_same _ v _ hv, valveOf_onValve_same _ v _ hv, fetched, h]
  · unfold valveInstruction
    dsimp only
    rw [if_pos ⟨hrun, hwait, hlast⟩, if_neg hop]

theorem valveInstruction_ends (s : State) (v mA : Nat) (hrun : (valveOf s v).phase = .running) (hwait : (valveOf s v).waitOp = 0)
    (hlast : (valveOf s v).lastAt ≠ some s.now) (hop : vOp (vget (progOf s v) (valveOf s v).pc) = 0) :
    valveInstruction s v mA = endFire (s.onValve v fun x => noteCurrent s.now mA { x with lastAt := some s.now }) v .ok := by
  unfold valveInstruction
  dsimp only
  rw [if_pos ⟨hrun, hwait, hlast⟩, if_pos hop]

/-- A BRANCH with its condition `cond` and its address `a`. -/
def branched (cond a : Nat) (x : Valve) : Valve :=
  let taken := branchTaken cond x
  let x := if cond = 5 then { x with ctr := (x.ctr + 255) % 256 } else x
  if taken then { x with pc := a } else x

theorem valveStepped_branch (now w mA : Nat) (x : Valve) (h : vOp w = 8) : valveStepped now w mA x = branched (bitsOf (vI w) 8 4) (vN w % 64) x := by
  unfold valveStepped
  rw [h]
  rfl

theorem branched_branches (cond a : Nat) (x : Valve) : (branched cond a x).pc = (if branchTaken cond x then a else x.pc) ∧
    (branched cond a x).ctr = (if cond = 5 then (x.ctr + 255) % 256 else x.ctr) := by
  unfold branched
  dsimp only
  constructor
  · split
    · rfl
    · split <;> rfl
  · split <;> split <;> rfl

theorem branchTaken_congr (cond : Nat) {x y : Valve} (hd : y.dFlag = x.dFlag) (ht : y.tFlag = x.tFlag) (hc : y.ctr = x.ctr) (hr : y.rFlag = x.rFlag) :
    branchTaken cond y = branchTaken cond x := by
  unfold branchTaken
  rw [hd, ht, hc, hr]

/-- What Table 06.7 says of every instruction but END. -/
theorem valveStepped_acts (s t : State) (v w mA : Nat) (hrun : (valveOf s v).phase = .running) (hwait : (valveOf s v).waitOp = 0) (hop : vOp w ≠ 0)
    (hvalve : valveOf t v = valveStepped s.now w mA (fetched s.now mA (valveOf s v)))
    (hmark : vOp w = 10 → Observed s t 7 (200 + v) [] [s.ev 7 0x0314 (firePoint v) (vN w % 256) true]) : InstructionActs s t v w mA := by
  obtain ⟨c, m, o, k, hfetched⟩ := fetched_only s.now mA (valveOf s v)
  obtain ⟨hphase, hat, hpc⟩ := valveStepped_keeps s.now w mA (fetched s.now mA (valveOf s v))
  unfold InstructionActs
  dsimp only
  rw [hvalve]
  generalize valveOf s v = x at *
  refine ⟨fun h => absurd h hop, fun _ => ?_, fun h => ?_, fun h => ?_, fun h => ?_, fun h => ?_, fun h => ?_, fun h => ?_, fun h => ?_, fun h => ?_,
    fun h => ?_, fun h => ?_, hmark⟩
  · rw [hphase, hat]
    refine ⟨?_, ?_, fun hne => (hpc hne).trans ?_⟩
    all_goals rw [hfetched]
    exact hrun
  · obtain ⟨o, a, k, hset⟩ := setTarget_only s.now (vI w) mA ((vN w).testBit 0) (fetched s.now mA x)
    unfold valveStepped
    rw [h]
    dsimp only
    rw [hset]
    exact ⟨rfl, rfl, rfl, rfl⟩
  · obtain ⟨o, a, k, hset⟩ := setTarget_only s.now (vI w) mA ((vN w).testBit 0) (releaseClaim s.now (fetched s.now mA x))
    obtain ⟨e, hclaim⟩ := releaseClaim_only s.now (fetched s.now mA x)
    unfold valveStepped
    rw [h]
    dsimp only
    rw [hset, hclaim]
    exact ⟨rfl, rfl, rfl, rfl⟩
  · have hcond : (fetched s.now mA x).cond = x.cond := by rw [hfetched]
    obtain ⟨e, hclaim⟩ := releaseClaim_only s.now (fetched s.now mA x)
    have hkept : (releaseClaim s.now (fetched s.now mA x)).cond = x.cond := by rw [hclaim, hcond]
    unfold valveStepped
    obtain h | h := h
    · rw [h]
      have hon := setTarget_on s.now (vI w) mA ((vN w).testBit 0) (fetched s.now mA x)
      rwa [hcond] at hon
    · rw [h]
      have hon := setTarget_on s.now (vI w) mA ((vN w).testBit 0) (releaseClaim s.now (fetched s.now mA x))
      rwa [hkept] at hon
  · unfold valveStepped
    simp only [h]
    split
    · next hone => exact ⟨by rw [hfetched]; exact hwait, fun hmore => absurd hone (Nat.not_le.2 hmore)⟩
    · exact ⟨rfl, fun _ => rfl⟩
  · unfold valveStepped
    rw [h]
    exact ⟨rfl, rfl, rfl⟩
  · unfold valveStepped
    rw [h]
    exact ⟨rfl, rfl⟩
  · unfold valveStepped
    rw [h]
    exact ⟨rfl, rfl⟩
  · unfold valveStepped
    rw [h]
    constructor
    · rfl
    · simp only [beginWait]
      split <;> rfl
  · obtain ⟨hto, hcount⟩ := branched_branches (bitsOf (vI w) 8 4) (vN w % 64) (fetched s.now mA x)
    have htaken : branchTaken (bitsOf (vI w) 8 4) (fetched s.now mA x) = branchTaken (bitsOf (vI w) 8 4) x := by
      refine branchTaken_congr _ ?_ ?_ ?_ ?_
      all_goals rw [hfetched]
    rw [valveStepped_branch _ _ _ _ h, hto, hcount, htaken, hfetched]
    exact ⟨rfl, rfl⟩
  · unfold valveStepped
    simp only [h]

/-- A valve whose fire has ended with a status at `now` (R165). -/
def fireEnded (now : Nat) (st : Status) (x : Valve) : Valve := { x with
  phase := .decay, on := false, target := 0, peakPhase := false, waitOp := 0, status := st.code, endAddr := x.pc
  endAt := now, claimEnds := if x.claimHeld then now + 1 else x.claimEnds, claimHeld := false
  startAt := if x.phase = .running then x.startAt else 0 }

theorem valveOf_endFire (s : State) (v : Nat) (st : Status) (hv : v < 8) : valveOf (endFire s v st) v = fireEnded s.now st (valveOf s v) :=
  valveOf_onValve_same s v (fireEnded s.now st) hv

theorem valveInstruction_acts (v w mA : Nat) (s : State) (hv : v < 8) (hrun : (valveOf s v).phase = .running) (hwait : (valveOf s v).waitOp = 0)
    (hlast : (valveOf s v).lastAt ≠ some s.now) (hw : w = vget (progOf s v) (valveOf s v).pc) :
    ∃ t, exec (.valveInstruction v mA) s = .next t ∧ InstructionActs s t v w mA := by
  by_cases hop : vOp w = 0
  · have hends := valveInstruction_ends s v mA hrun hwait hlast (hw ▸ hop)
    obtain ⟨u, hu⟩ : ∃ u, s.onValve v (fun x => noteCurrent s.now mA { x with lastAt := some s.now }) = u := ⟨_, rfl⟩
    obtain ⟨c, m, o, k, hnoted⟩ := noteCurrent_keeps s.now mA { valveOf s v with lastAt := some s.now }
    have hpc : (valveOf u v).pc = (valveOf s v).pc := by rw [← hu, valveOf_onValve_same s v _ hv, hnoted]
    rw [hu] at hends
    refine ⟨(endFire u v .ok).withPending s.pending, congrArg (effect s) hends, ?_⟩
    unfold InstructionActs
    dsimp only
    rw [valveOf_withPending, valveOf_endFire u v .ok hv, hop]
    exact ⟨fun _ => ⟨rfl, rfl, rfl, hpc, rfl⟩, fun h => absurd rfl h, fun h => absurd h (by decide), fun h => absurd h (by decide),
      fun h => absurd h (by decide), fun h => absurd h (by decide), fun h => absurd h (by decide), fun h => absurd h (by decide),
      fun h => absurd h (by decide), fun h => absurd h (by decide), fun h => absurd h (by decide), fun h => absurd h (by decide),
      fun h => absurd h (by decide)⟩
  · obtain ⟨u, hfetched, hreach, hnow, hsteps⟩ := valveInstruction_steps s v w mA hv hrun hwait hlast hw hop
    refine ⟨(valveStep u v w mA).withPending s.pending, congrArg (effect s) hsteps,
      valveStepped_acts s _ v w mA hrun hwait hop ?_ fun hmark => ?_⟩
    · rw [valveOf_withPending, valveOf_valveStep u v w mA hv, hfetched, hnow]
    · unfold valveStep
      rw [hmark]
      exact valveEvent_observed (s := s) (u := traceMark u v) hreach 0x0314 v _

/-! The end of a fire (R165, R172). -/

theorem Carries.of_results {s t : State} {r : List ResultItem} (h : t.plane = { s.plane with results := r }) : Carries s t :=
  ⟨by simp only [State.reach, cutOff, h], by rw [h], keepsItems_of_landings (by rw [h])⟩

theorem Carries.directWrite {s t : State} (h : Carries s t) {p : Packet} {pt : Nat} {v : PVal} : Carries s (directWrite t p pt v).1 := by
  refine h.trans ?_
  unfold Machine.directWrite Machine.writePoint
  split
  · exact .of_plane rfl
  · refine applyWrite_cases t _ (fun _ => .of_plane rfl) (fun _ _ => ?_) fun _ _ => ?_
    · exact .of_results (writeStands_plane ..)
    · exact .of_results (writeStands_plane ..)

theorem clock_of_reach {s t : State} (h : t.reach = s.reach) : t.clock = s.clock := by
  simp only [State.clock]
  rw [show t.plane.running = s.plane.running from congrArg Reach.running h, show t.plane.epoch = s.plane.epoch from congrArg Reach.epoch h,
    show t.plane.tick = s.plane.tick from congrArg Reach.tick h]

/-- A valve whose fire or request is over. -/
def valveOver (st : Status) (x : Valve) : Valve := { x with packet := none, phase := .idle, status := st.code }

theorem valveDone_valves (s : State) (v : Nat) (st : Status) (n : Nat) : (valveDone s v st n).motor.valve = vmod s.motor.valve v (valveOver st) := by
  unfold valveDone
  dsimp only
  generalize hu : State.onMotor _ _ = u
  have hkeep : u.motor.valve = vmod s.motor.valve v (valveOver st) := by
    rw [← hu, onMotor_motor]
    split <;> rfl
  repeat' split
  all_goals simp [hkeep]

theorem valveOf_valveDone_same (s : State) (v : Nat) (st : Status) (n : Nat) (hv : v < 8) :
    valveOf (valveDone s v st n) v = valveOver st (valveOf s v) := by
  unfold valveOf
  rw [valveDone_valves]
  exact vget_vmod_same _ v _ hv

theorem valveOf_valveDone_ne (s : State) (v k : Nat) (st : Status) (n : Nat) (h : v ≠ k) : valveOf (valveDone s v st n) k = valveOf s k := by
  unfold valveOf
  rw [valveDone_valves]
  exact vget_vmod_ne _ v k _ h

theorem observe_seq (s : State) (h idx : Nat) (w : List (Nat × PVal)) (es : List Ev) (caps : List CapRecord) : (observe s h idx w es caps).seq = s.seq := by
  rw [observe_only]

/-- A fire or request that ends outside a reset completes the packet that waits for it, and its end is delivered (R165, R172). -/
theorem valveDone_ends {r : State} (s : State) (v : Nat) (st : Status) (n : Nat) (p : Packet) (hfrom : Carries r s)
    (hpacket : (valveOf s v).packet = some p) (hdown : logicDown s = false) :
    Completed p (lateStatus (valveOf s v).late st) r (valveDone s v st n) ∧
      Observed r (valveDone s v st n) 7 (200 + v) [] [r.ev 7 0x0310 (firePoint v) st.code true] := by
  unfold valveDone
  dsimp only
  generalize hu : State.onMotor _ _ = u
  have hcarry : Carries r u := hfrom.same (by rw [← hu]; rfl)
  have hseq : logicDown (valveEvent u 0x0310 v st.code) = false := by
    rw [← hdown, logicDown, valveEvent, observe_seq, ← hu]
    rfl
  have hobs := valveEvent_observed hcarry.reach 0x0310 v st.code
  have hevent : Carries u (valveEvent u 0x0310 v st.code) := (Carries.refl u).observe
  rw [hpacket]
  dsimp only
  rw [if_neg (by rw [hseq]; decide)]
  have hwrite : Carries (valveEvent u 0x0310 v st.code) (if pget (valveEvent u 0x0310 v st.code) (firePoint v) = 0 then valveEvent u 0x0310 v st.code else
      (directWrite (valveEvent u 0x0310 v st.code) p (firePoint v) 0).1) := by
    split
    · exact .refl _
    · exact (Carries.refl _).directWrite
  refine ⟨Completed.of_clock (completeNow_completed ..) ?_, Observed.mono hobs (hwrite.completeNow).items⟩
  exact clock_of_reach ((hcarry.trans hevent).trans hwrite).reach

theorem deferMaxExpiry_overlaps (v : Nat) (p : Packet) (s : State) (hv : v < 8) (hphase : (valveOf s v).phase = .requested)
    (hlate : (valveOf s v).reqAt + (valveOf s v).deferMax ≤ s.now) (hpacket : (valveOf s v).packet = some p) (hdown : logicDown s = false) :
    ∃ t, exec (.deferMaxExpiry v) s = .next t ∧ (valveOf t v).phase = .idle ∧ v ∉ (feedOf t (feedIx v)).queue ∧
      Completed p (lateStatus (valveOf s v).late .overlap) s t ∧ Observed s t 7 (200 + v) [] [s.ev 7 0x0310 (firePoint v) 0x23 true] := by
  obtain ⟨u, hu⟩ : ∃ u, (s.onFeed (feedIx v) fun f => { f with queue := f.queue.filter (· != v) }).onValve v (fun x => { x with grantAt := s.now }) = u :=
    ⟨_, rfl⟩
  have hvalve : valveOf u v = { valveOf s v with grantAt := s.now } := by
    rw [← hu, valveOf_onValve_same _ v _ hv]
    rfl
  have hqueue : (feedOf u (feedIx v)).queue = (feedOf s (feedIx v)).queue.filter (· != v) := by
    rw [← hu]
    exact congrArg Feed.queue (onFeed_same s (feedIx v) _ (by unfold feedIx; omega))
  have hexpires : deferExpiry s v = valveDone u v .overlap 0 := by
    unfold deferExpiry
    dsimp only
    rw [if_pos ⟨hphase, hlate⟩, ← hu]
    rfl
  obtain ⟨hdone, hobs⟩ := valveDone_ends (r := s) u v .overlap 0 p (.of_plane (by rw [← hu]; rfl)) (by rw [hvalve]; exact hpacket) (by rw [← hdown, ← hu]; rfl)
  refine ⟨(valveDone u v .overlap 0).withPending s.pending, congrArg (effect s) hexpires, ?_, ?_, ?_, hobs⟩
  · rw [valveOf_withPending, valveOf_valveDone_same u v _ _ hv]
    rfl
  · rw [feedOf_withPending, feedOf_of_feed (valveDone_motor_feed ..), hqueue]
    simp
  · rw [hvalve] at hdone
    exact hdone

theorem fireMaxExpiry_expires (v : Nat) (s : State) (hv : v < 8) (hrun : (valveOf s v).phase = .running)
    (hlate : (valveOf s v).startAt + vget s.store.motor.fireMax v * 8000 ≤ s.now) :
    ∃ t, exec (.fireMaxExpiry v) s = .next t ∧ (valveOf t v).phase = .decay ∧ (valveOf t v).on = false ∧ (valveOf t v).status = 0x15 := by
  refine ⟨(endFire s v .timeout).withPending s.pending, congrArg (effect s) (if_pos ⟨hrun, hlate⟩), ?_⟩
  rw [valveOf_withPending, valveOf_endFire s v _ hv]
  exact ⟨rfl, rfl, rfl⟩

/-! Locks of low-sides and feeds (Table 06.9). -/

theorem valveOf_bumpSnapshot (s : State) (k : Nat) : valveOf (bumpSnapshot s) k = valveOf s k := valveOf_of_motor (by simp) k

theorem valveOf_reportVl (s : State) (v cause detail : Nat) (hv : v < 8) :
    valveOf (reportVl s v cause detail) v = { valveOf s v with cond := (valveOf s v).cond.report cause } := by
  unfold reportVl
  dsimp only
  split
  · rw [valveOf_valveFaultEvent, valveOf_onValve_same s v _ hv]
  · rw [valveOf_onValve_same s v _ hv]

theorem reportVl_now (s : State) (v cause detail : Nat) : (reportVl s v cause detail).now = s.now := by
  unfold reportVl
  dsimp only
  split
  · exact observe_now ..
  · rfl

/-- The condition of a low-side that a cause has locked. -/
def vlLocked (cause detail : Nat) (c : Cond) : Cond :=
  { (c.report cause).lock cause with clampDetail := if cause = 4 then detail else ((c.report cause).lock cause).clampDetail }

/-- A low-side that a cause has locked: its fire or its decay ends with S_LOCKED. -/
def valveLocked (now cause detail : Nat) (x : Valve) : Valve :=
  let y := { x with cond := vlLocked cause detail x.cond }
  if y.phase.fires then fireEnded now .locked y
  else if y.phase = .decay ∧ (fireStatus y.status = .ok ∨ fireStatus y.status = .timeout) then { y with status := Status.locked.code } else y

theorem valveOf_lockVl (s : State) (v cause detail : Nat) (hv : v < 8) :
    valveOf (lockVl s v cause detail) v = valveLocked s.now cause detail (valveOf s v) := by
  obtain ⟨u, hu⟩ : ∃ u, (reportVl s v cause detail).onValve v (fun x =>
      { x with cond := { x.cond.lock cause with clampDetail := if cause = 4 then detail else x.cond.clampDetail } }) = u := ⟨_, rfl⟩
  have hvalve : valveOf u v = { valveOf s v with cond := vlLocked cause detail (valveOf s v).cond } := by
    rw [← hu, valveOf_onValve_same _ v _ hv, valveOf_reportVl s v _ _ hv]
    rfl
  have hnow : u.now = s.now := by
    rw [← hu]
    exact reportVl_now s v cause detail
  unfold lockVl valveLocked
  dsimp only
  rw [hu, valveOf_bumpSnapshot, hvalve]
  split
  · rw [valveOf_endFire u v _ hv, hvalve, hnow]
  · split
    · rw [valveOf_onValve_same u v _ hv, hvalve]
    · exact hvalve

theorem valveLocked_locks (now cause detail : Nat) (x : Valve) : (valveLocked now cause detail x).cond.locks.testBit cause = true ∧
    (valveLocked now cause detail x).phase.fires = false := by
  have hlock : (vlLocked cause detail x.cond).locks.testBit cause = true := (x.cond.report cause).locks_lock cause
  unfold valveLocked
  dsimp only
  split
  · exact ⟨hlock, rfl⟩
  · next hrest =>
    split
    · exact ⟨hlock, Bool.eq_false_iff.2 hrest⟩
    · exact ⟨hlock, Bool.eq_false_iff.2 hrest⟩

/-- A low-side that decays after its END keeps its packet, and its fire is over as locked (R165). -/
theorem valveLocked_decay (now cause detail : Nat) (x : Valve) (hphase : x.phase = .decay) : (valveLocked now cause detail x).packet = x.packet ∧
    (valveLocked now cause detail x).late = x.late ∧ (x.status = 0 → (valveLocked now cause detail x).status = Status.locked.code) := by
  have hquiet : ¬ x.phase.fires = true := by
    rw [hphase]
    exact Bool.false_ne_true
  unfold valveLocked
  dsimp only
  rw [if_neg hquiet]
  split
  · exact ⟨rfl, rfl, fun _ => rfl⟩
  · next hrest => exact ⟨rfl, rfl, fun hzero => absurd ⟨hphase, Or.inl (by rw [hzero]; rfl)⟩ hrest⟩

theorem valveOutputFault_locks (v : Nat) (s : State) (hv : v < 8) :
    ∃ t, exec (.valveOutputFault v 7 0 true) s = .next t ∧ (valveOf t v).cond.locks.testBit 7 = true ∧ (valveOf t v).phase.fires = false := by
  have hlocks : valveFault s v 7 0 true = lockVl s v 7 0 := by
    unfold valveFault
    rw [if_pos hv, if_pos rfl, if_pos ⟨rfl, rfl⟩]
  refine ⟨(lockVl s v 7 0).withPending s.pending, congrArg (effect s) hlocks, ?_⟩
  rw [valveOf_withPending, valveOf_lockVl s v 7 0 hv]
  exact valveLocked_locks ..

theorem stopFeed_stops (s : State) (f : Nat) (st : Status) (hf : f < 2) (v : Nat) (hv : v ∈ valvesOn f) : (valveOf (stopFeed s f st) v).phase.fires = false := by
  have hlt (j : Nat) (hj : j ∈ valvesOn f) : j < 8 := by
    simp only [valvesOn, List.mem_cons, List.not_mem_nil, or_false] at hj
    omega
  unfold stopFeed
  dsimp only
  rw [valveOf_setFeed]
  refine foldl_reaches (P := fun u k => (valveOf u k).phase.fires = false) (fun u j hj k hk => ?_) s v (.inl hv)
  have hother (hne : j ≠ k) : (valveOf u k).phase.fires = false := hk.resolve_left (Ne.symm hne)
  split
  · by_cases hjk : j = k
    · rw [← hjk, valveOf_endFire u j st (hlt j hj)]
      rfl
    · exact (congrArg (ValvePhase.fires ∘ Valve.phase) (valveOf_onValve_ne u j k _ hjk)).trans (hother hjk)
  · next hquiet =>
    split
    · by_cases hjk : j = k
      · rw [← hjk, valveOf_valveDone_same _ j st 0 (hlt j hj)]
        rfl
      · rw [valveOf_valveDone_ne _ j k st 0 hjk]
        exact hother hjk
    · obtain hkj | hk := hk
      · rw [hkj]
        exact Bool.eq_false_iff.2 hquiet
      · exact hk

theorem feedFault_locks (f : Nat) (s : State) (hf : f < 2) :
    ∃ t, exec (.valveOutputFault (8 + f) 7 0 true) s = .next t ∧ (feedOf t f).cond.locks.testBit 7 = true ∧ (feedOf t f).on = false ∧
      ∀ v ∈ valvesOn f, (valveOf t v).phase.fires = false := by
  have hlocks : valveFault s (8 + f) 7 0 true = lockFeed s f 7 := by
    unfold valveFault
    rw [if_neg (by omega), if_pos rfl, if_pos rfl, Nat.add_sub_cancel_left]
  obtain ⟨u, hu⟩ : ∃ u, (reportFeed s f 7 0).onFeed f (fun x => { x with cond := x.cond.lock 7 }) = u := ⟨_, rfl⟩
  have hstop : lockFeed s f 7 = bumpSnapshot (stopFeed u f .locked) := by
    rw [← hu]
    rfl
  obtain ⟨hcond, hoff⟩ := feed_stopFeed u f f .locked hf
  have hlock : (feedOf u f).cond.locks.testBit 7 = true := by
    rw [← hu, onFeed_same _ f _ hf]
    exact Cond.locks_lock _ 7
  refine ⟨(bumpSnapshot (stopFeed u f .locked)).withPending s.pending, congrArg (effect s) (hlocks.trans hstop), ?_, ?_, fun v hv => ?_⟩
  · rw [feedOf_withPending, feedOf_bumpSnapshot, hcond]
    exact hlock
  · rw [feedOf_withPending, feedOf_bumpSnapshot]
    exact hoff (.inl rfl)
  · rw [valveOf_withPending, valveOf_bumpSnapshot]
    exact stopFeed_stops u f .locked hf v hv

theorem valvePeriod_turnsOn (v : Nat) (s : State) (hv : v < 8) (hrun : (valveOf s v).phase = .running) (htarget : (valveOf s v).target ≠ 0)
    (hgrid : s.now % 320 = 40 * (v % 4)) (hless : (valveOf s v).mA < (valveOf s v).target) (hfree : (valveOf s v).cond.free = true) :
    ∃ t, exec (.pwmPeriodStart ⟨2, v⟩) s = .next t ∧ (valveOf t v).on = true ∧ (valveOf t v).phase = .running := by
  have hturns : periodVl s v = s.onValve v (turnOn s.now) := if_pos ⟨hrun, htarget, hgrid, hless⟩
  refine ⟨(s.onValve v (turnOn s.now)).withPending s.pending, congrArg (effect s) hturns, ?_⟩
  rw [valveOf_withPending, valveOf_onValve_same s v _ hv]
  unfold turnOn
  split
  · next hor =>
    rw [hfree] at hor
    exact ⟨hor.resolve_right (by decide), hrun⟩
  · exact ⟨rfl, hrun⟩

/-! The end of the decay (R165, R166). -/

theorem bankClamp_carries (s : State) (b uJ : Nat) : Carries s (bankClamp s b uJ) := by
  unfold bankClamp
  dsimp only
  split
  · refine Carries.observe ?_
    exact .of_plane rfl
  · exact .of_plane rfl

theorem bankClamp_keeps {γ : Type} (g : State → γ) (s : State) (b uJ : Nat) (hbank : ∀ u f, g (State.onBank u b f) = g u)
    (hobs : ∀ u es, g (observe u 7 255 [] es) = g u) : g (bankClamp s b uJ) = g s := by
  unfold bankClamp
  dsimp only
  split
  · rw [hobs, hbank, hbank]
  · rw [hbank]

theorem bankClamp_clamp (s : State) (b uJ : Nat) (hb : b < 4) : (bankAt (bankClamp s b uJ) b).clamp = addEnergy s.now uJ (bankAt s b).clamp := by
  have hkept (u : State) (f : Bank → Bank) (hf : ∀ x, (f x).clamp = x.clamp) : (bankAt (u.onBank b f) b).clamp = (bankAt u b).clamp :=
    vget_vmod_proj u.load.bank b b f Bank.clamp hf
  have hadded : (bankAt (s.onBank b fun x => { x with clamp := addEnergy s.now uJ x.clamp }) b).clamp = addEnergy s.now uJ (bankAt s b).clamp :=
    congrArg Bank.clamp (vget_vmod_same s.load.bank b _ hb)
  unfold bankClamp
  dsimp only
  split
  · rw [bankAt_observe, hkept]
    · exact hadded
    · exact fun _ => rfl
  · exact hadded

theorem reportVl_carries (s : State) (v cause detail : Nat) : Carries s (reportVl s v cause detail) := by
  unfold reportVl
  dsimp only
  split
  · refine Carries.observe ?_
    exact .of_plane rfl
  · exact .of_plane rfl

theorem bumpSnapshot_carries (s : State) : Carries s (bumpSnapshot s) := by
  unfold bumpSnapshot
  split
  · exact .of_plane rfl
  · exact .refl s

theorem lockVl_carries (s : State) (v cause detail : Nat) : Carries s (lockVl s v cause detail) := by
  refine Carries.trans ?_ (bumpSnapshot_carries _)
  refine (reportVl_carries s v cause detail).same ?_
  repeat' split
  all_goals rfl

theorem bankClamp_valve (s : State) (b uJ k : Nat) : valveOf (bankClamp s b uJ) k = valveOf s k :=
  bankClamp_keeps (fun u => valveOf u k) s b uJ (fun _ _ => rfl) fun _ _ => valveOf_of_motor (observe_motor ..) k

theorem bankClamp_seq (s : State) (b uJ : Nat) : (bankClamp s b uJ).seq = s.seq :=
  bankClamp_keeps State.seq s b uJ (fun _ _ => rfl) fun _ _ => observe_seq ..

theorem lockVl_seq (s : State) (v cause detail : Nat) : (lockVl s v cause detail).seq = s.seq := by
  have hreport : (reportVl s v cause detail).seq = s.seq := by
    unfold reportVl
    dsimp only
    split
    · exact observe_seq ..
    · rfl
  have hbump (u : State) : (bumpSnapshot u).seq = u.seq := by
    unfold bumpSnapshot
    split <;> rfl
  unfold lockVl
  dsimp only
  rw [hbump]
  repeat' split
  all_goals exact hreport

/-- What the clamp event of a decay leaves for the end of the fire: the valve's packet, and its status or a lock (R165, R166). -/
theorem clampVl_decays (s : State) (v uJ : Nat) (hv : v < 8) (hphase : (valveOf s v).phase = .decay) :
    Carries s (clampVl s v uJ) ∧ (clampVl s v uJ).seq = s.seq ∧ (valveOf (clampVl s v uJ) v).packet = (valveOf s v).packet ∧
      (valveOf (clampVl s v uJ) v).late = (valveOf s v).late ∧
      (uJ ≤ 40000 → windowEnergy s.now (addEnergy s.now uJ (valveOf s v).clamp) < 300000 → windowEnergy s.now (bankAt s 3).clamp < 1000000 →
        windowEnergy s.now (addEnergy s.now uJ (bankAt s 3).clamp) < 1000000 → (valveOf (clampVl s v uJ) v).status = (valveOf s v).status) ∧
      (40000 < uJ → (valveOf (clampVl s v uJ) v).cond.locks.testBit 4 = true ∧
        ((valveOf s v).status = 0 → (valveOf (clampVl s v uJ) v).status = Status.locked.code)) := by
  obtain ⟨u, hu⟩ : ∃ u, bankClamp (s.onValve v fun x => { x with clamp := addEnergy s.now uJ x.clamp }) 3 uJ = u := ⟨_, rfl⟩
  have hclamps : clampVl s v uJ = if decide (1000000 ≤ windowEnergy s.now (bankAt s 3).clamp) = true then lockVl u v 4 2
      else if 40000 < uJ then lockVl u v 4 0
      else if 300000 ≤ windowEnergy s.now (valveOf (s.onValve v fun x => { x with clamp := addEnergy s.now uJ x.clamp }) v).clamp then lockVl u v 4 1
      else if 1000000 ≤ windowEnergy u.now (bankAt u 3).clamp then lockVl u v 4 2 else u := by
    rw [← hu]
    rfl
  have hvalve : valveOf u v = { valveOf s v with clamp := addEnergy s.now uJ (valveOf s v).clamp } := by
    rw [← hu, bankClamp_valve, valveOf_onValve_same s v _ hv]
  have hnow : u.now = s.now := by
    rw [← hu, bankClamp_now]
    rfl
  have hbank : (bankAt u 3).clamp = addEnergy s.now uJ (bankAt s 3).clamp := by
    rw [← hu]
    exact bankClamp_clamp _ 3 uJ (by decide)
  have hcarry : Carries s u := by
    rw [← hu]
    refine Carries.trans ?_ (bankClamp_carries ..)
    exact .of_plane rfl
  have hseq : u.seq = s.seq := by
    rw [← hu, bankClamp_seq]
    rfl
  have hlocked (detail : Nat) := valveLocked_decay u.now 4 detail (valveOf u v) (by rw [hvalve]; exact hphase)
  have hlock (detail : Nat) : Carries s (lockVl u v 4 detail) ∧ (lockVl u v 4 detail).seq = s.seq ∧ (valveOf (lockVl u v 4 detail) v).packet = (valveOf s v).packet ∧
      (valveOf (lockVl u v 4 detail) v).late = (valveOf s v).late ∧ (valveOf (lockVl u v 4 detail) v).cond.locks.testBit 4 = true ∧
      ((valveOf s v).status = 0 → (valveOf (lockVl u v 4 detail) v).status = Status.locked.code) := by
    obtain ⟨hpacket, hlate, hstatus⟩ := hlocked detail
    refine ⟨hcarry.trans (lockVl_carries ..), (lockVl_seq ..).trans hseq, ?_⟩
    rw [valveOf_lockVl u v 4 detail hv]
    refine ⟨hpacket.trans (by rw [hvalve]), hlate.trans (by rw [hvalve]), (valveLocked_locks ..).1, fun hzero => hstatus (by rw [hvalve]; exact hzero)⟩
  have hcases : (clampVl s v uJ = u ∧ uJ ≤ 40000) ∨ ∃ detail, clampVl s v uJ = lockVl u v 4 detail := by
    rw [hclamps]
    split
    · exact .inr ⟨2, rfl⟩
    · split
      · exact .inr ⟨0, rfl⟩
      · next hsmall =>
        split
        · exact .inr ⟨1, rfl⟩
        · split
          · exact .inr ⟨2, rfl⟩
          · exact .inl ⟨rfl, Nat.not_lt.1 hsmall⟩
  have hquiet (hone : uJ ≤ 40000) (hwindow : windowEnergy s.now (addEnergy s.now uJ (valveOf s v).clamp) < 300000)
      (hfull : windowEnergy s.now (bankAt s 3).clamp < 1000000) (hbankw : windowEnergy s.now (addEnergy s.now uJ (bankAt s 3).clamp) < 1000000) :
      clampVl s v uJ = u := by
    rw [hclamps, if_neg (by simpa using hfull), if_neg (by omega), if_neg, if_neg]
    · rw [hnow, hbank]
      omega
    · rw [valveOf_onValve_same s v _ hv]
      dsimp only
      omega
  obtain ⟨hstays, hsmall⟩ | ⟨detail, hlocks⟩ := hcases
  · rw [hstays, hvalve]
    exact ⟨hcarry, hseq, rfl, rfl, fun _ _ _ _ => rfl, fun hmore => absurd hmore (by omega)⟩
  · obtain ⟨hc, hs, hpacket, hlate, hbit, hstatus⟩ := hlock detail
    refine ⟨by rw [hlocks]; exact hc, by rw [hlocks]; exact hs, by rw [hlocks]; exact hpacket, by rw [hlocks]; exact hlate, fun h1 h2 h3 h4 => ?_,
      fun _ => by rw [hlocks]; exact ⟨hbit, hstatus⟩⟩
    rw [hquiet h1 h2 h3 h4, hvalve]

theorem valveDecayEnd_ends (v mA uJ : Nat) (p : Packet) (s : State) (hv : v < 8) (hphase : (valveOf s v).phase = .decay) (hless : mA < 10)
    (hpacket : (valveOf s v).packet = some p) (hdown : logicDown s = false) :
    ∃ t, exec (.valveDecayEnd v mA uJ) s = .next t ∧ (valveOf t v).phase = .idle ∧ (valveOf t v).packet = none ∧
      (uJ ≤ 40000 → windowEnergy s.now (addEnergy s.now uJ (valveOf s v).clamp) < 300000 → windowEnergy s.now (bankAt s 3).clamp < 1000000 →
        windowEnergy s.now (addEnergy s.now uJ (bankAt s 3).clamp) < 1000000 →
        Completed p (lateStatus (valveOf s v).late (fireStatus (valveOf s v).status)) s t) ∧
      (40000 < uJ → (valveOf t v).cond.locks.testBit 4 = true ∧
        ((valveOf s v).status = 0 → Completed p (lateStatus (valveOf s v).late .locked) s t)) := by
  obtain ⟨w, hw⟩ : ∃ w, s.onValve v (fun x => { x with mA := mA }) = w := ⟨_, rfl⟩
  have hnoted : valveOf w v = { valveOf s v with mA := mA } := by
    rw [← hw]
    exact valveOf_onValve_same s v _ hv
  have hplane : w.plane = s.plane := by
    rw [← hw]
    rfl
  have hload : w.load = s.load := by
    rw [← hw]
    rfl
  have hnow : w.now = s.now := by
    rw [← hw]
    rfl
  have hseq : w.seq = s.seq := by
    rw [← hw]
    rfl
  obtain ⟨hcarry, hkept, hheld, hlate, hquiet, hlock⟩ := clampVl_decays w v uJ hv (by rw [hnoted]; exact hphase)
  rw [hnoted] at hheld hlate hquiet hlock
  rw [hnow, bankAt_of_load hload] at hquiet
  obtain ⟨u, hu⟩ : ∃ u, clampVl w v uJ = u := ⟨_, rfl⟩
  rw [hu] at hcarry hkept hheld hlate hquiet hlock
  have hends : decayEnd s v mA uJ = valveDone u v (fireStatus (valveOf u v).status) (uJ / 100) := by
    unfold decayEnd
    dsimp only
    rw [if_pos ⟨hphase, hless⟩, hw, hu]
  obtain ⟨hdone, -⟩ := valveDone_ends (r := s) u v (fireStatus (valveOf u v).status) (uJ / 100) p ((Carries.of_plane hplane).trans hcarry) (hheld.trans hpacket)
    (by rw [logicDown, hkept, hseq]; exact hdown)
  rw [hlate] at hdone
  refine ⟨(valveDone u v (fireStatus (valveOf u v).status) (uJ / 100)).withPending s.pending, congrArg (effect s) hends, ?_⟩
  rw [valveOf_withPending, valveOf_valveDone_same u v _ _ hv]
  refine ⟨rfl, rfl, fun h1 h2 h3 h4 => ?_, fun hmore => ⟨(hlock hmore).1, fun hzero => ?_⟩⟩
  · rw [hquiet h1 h2 h3 h4] at hdone
    rw [hquiet h1 h2 h3 h4]
    exact hdone
  · rw [(hlock hmore).2 hzero] at hdone
    rw [(hlock hmore).2 hzero]
    exact hdone

/-- Settles O43, clause by clause: a request is granted with its claim, the program runs by its instructions and waits, dips are counted, and a fire ends by its
FIRE_MAX, by its decay or by a lock. -/
theorem valvesFireAsProgrammed : Obligations.ValvesFireAsProgrammed :=
  ⟨valveGrant_grants, valveProgramStart_starts, deferMaxExpiry_overlaps, valveInstruction_acts, valveWaitEnd_ends,
    fun v _ mA s hv huses hpast hnew hd hfull => by
      subst hd
      exact valveDipDetect_detects v mA s hv huses hpast hnew hfull,
    fun v _ mA s hv huses hpast hnew hd hmore => by
      subst hd
      exact valveDipDetect_counts v mA s hv huses hpast hnew hmore,
    fireMaxExpiry_expires, valveDecayEnd_ends, valveOutputFault_locks, feedFault_locks, valvePeriod_turnsOn⟩

end Sys2Proof.Machine

namespace Sys2Proof.Machine

open Sys2Proof.Claims

/-! The Ethernet switch (R259–R272): links, frames, queues. -/

theorem portOf_onPort_same (s : State) (n : Nat) (f : EthPort → EthPort) (h : n < 10) : portOf (s.onPort n f) n = f (portOf s n) := vget_vmod_same _ n f h

theorem portOf_onPort_ne (s : State) (n k : Nat) (f : EthPort → EthPort) (h : n ≠ k) : portOf (s.onPort n f) k = portOf s k := vget_vmod_ne _ n k f h

theorem portOf_onCnt (s : State) (n k : Nat) (f : EthCounters → EthCounters) : (portOf (s.onCnt n f) k).queue = (portOf s k).queue ∧
    (portOf (s.onCnt n f) k).link = (portOf s k).link ∧ (portOf (s.onCnt n f) k).sent = (portOf s k).sent :=
  ⟨vget_vmod_proj s.eth.port n k _ EthPort.queue fun _ => rfl, vget_vmod_proj s.eth.port n k _ EthPort.link fun _ => rfl,
    vget_vmod_proj s.eth.port n k _ EthPort.sent fun _ => rfl⟩

theorem cnt_onCnt (s : State) (n : Nat) (f : EthCounters → EthCounters) (h : n < 10) : (portOf (s.onCnt n f) n).cnt = f (portOf s n).cnt :=
  congrArg EthPort.cnt (portOf_onPort_same s n _ h)

theorem portOf_of_eth {s t : State} (h : t.eth = s.eth) (n : Nat) : portOf t n = portOf s n := by simp only [portOf, h]

theorem portDrop_eth (s : State) (n : Nat) (f : EthCounters → EthCounters) : (portDrop s n f).eth = (s.onCnt n f).eth := rfl

theorem portOf_portDrop (s : State) (n k : Nat) (f : EthCounters → EthCounters) : portOf (portDrop s n f) k = portOf (s.onCnt n f) k := rfl

theorem countRx_eth (s : State) (n bytes : Nat) : (countRx s n bytes).eth = (s.onCnt n fun c => { c with rxFrames := sat64 (c.rxFrames + 1) }).eth := by
  unfold countRx
  dsimp only
  split <;> rfl

theorem countTx_eth (s : State) (n bytes : Nat) : (countTx s n bytes).eth = (s.onCnt n fun c => { c with txFrames := sat64 (c.txFrames + 1) }).eth := by
  unfold countTx
  dsimp only
  split <;> rfl

theorem countRx_cipher (s : State) (n bytes : Nat) : (countRx s n bytes).cipher = s.cipher := by
  unfold countRx
  dsimp only
  split <;> rfl

/-- What places a frame in a queue, and what forwards it, are unchanged: queues, learned addresses, settings. -/
structure SameSwitch (s t : State) : Prop where
  outside : t.outsideSwitch = s.outsideSwitch
  queue : ∀ k, (portOf t k).queue = (portOf s k).queue
  link : ∀ k, (portOf t k).link = (portOf s k).link

theorem SameSwitch.trans {s t u : State} (h : SameSwitch s t) (h' : SameSwitch t u) : SameSwitch s u :=
  ⟨h'.outside.trans h.outside, fun k => (h'.queue k).trans (h.queue k), fun k => (h'.link k).trans (h.link k)⟩

theorem SameSwitch.store {s t : State} (h : SameSwitch s t) : t.store = s.store := (congrArg State.store h.outside :)

theorem SameSwitch.plane {s t : State} (h : SameSwitch s t) : t.plane = s.plane := (congrArg State.plane h.outside :)

theorem SameSwitch.vlanOf {s t : State} (h : SameSwitch s t) (vid : Nat) : vlanOf t vid = vlanOf s vid := by simp only [Machine.vlanOf, h.store]

theorem SameSwitch.portCfg {s t : State} (h : SameSwitch s t) (n : Nat) : portCfg t n = portCfg s n := by simp only [Machine.portCfg, h.store]

theorem SameSwitch.cellsFit {s t : State} (h : SameSwitch s t) (port pcp n : Nat) : cellsFit t port pcp n = cellsFit s port pcp n := by
  have hcells : queueCells t = queueCells s := by
    funext a b
    simp only [queueCells, h.queue]
  have hreserve : reserveOf t = reserveOf s := by
    funext a b
    simp only [reserveOf, h.portCfg]
  unfold Machine.cellsFit poolFree reserveTotal sharedUsed
  rw [hcells, hreserve]

theorem sameSwitch_countRx (s : State) (n bytes : Nat) : SameSwitch s (countRx s n bytes) :=
  ⟨countRx_outsideSwitch s n bytes, fun k => (congrArg EthPort.queue (portOf_of_eth (countRx_eth s n bytes) k)).trans (portOf_onCnt s n k _).1,
    fun k => (congrArg EthPort.link (portOf_of_eth (countRx_eth s n bytes) k)).trans (portOf_onCnt s n k _).2.1⟩

theorem learn_port (s : State) (mac vid port : Nat) : (learn s mac vid port).eth.port = s.eth.port := by
  unfold learn
  split
  · rfl
  · unfold State.onEth
    dsimp only
    split <;> rfl

theorem portOf_learn (s : State) (mac vid port k : Nat) : portOf (learn s mac vid port) k = portOf s k := by simp only [portOf, learn_port]

theorem sameSwitch_learn (s : State) (mac vid port : Nat) : SameSwitch s (learn s mac vid port) :=
  ⟨learn_outsideSwitch .., fun k => congrArg EthPort.queue (portOf_learn ..), fun k => congrArg EthPort.link (portOf_learn ..)⟩

theorem enqueue_fits (s : State) (port : Nat) (q : Queued) (h : cellsFit s port q.pcp q.cells = true) :
    enqueue s port q = (s.onPort port fun p => { p with queue := p.queue ++ [q] }, true) := if_pos h

theorem forward_one (s : State) (q : Queued) (v : Vlan) (n : Nat) (h : cellsFit s n q.pcp (frameCells q.frame (!v.untag.testBit n)) = true) :
    forward s q v [n] = (s.onPort n fun p => { p with queue := p.queue ++ [queuedFor q v n] }, 1, 0) := by
  have hone : enqueue s n (queuedFor q v n) = _ := enqueue_fits s n (queuedFor q v n) h
  unfold forward
  rw [List.foldl_cons, List.foldl_nil]
  dsimp only
  rw [hone]
  rfl

theorem queue_enqueued (s : State) (n : Nat) (q : Queued) (h : n < 10) : (portOf (s.onPort n fun p => { p with queue := p.queue ++ [q] }) n).queue =
    (portOf s n).queue ++ [q] := congrArg EthPort.queue (portOf_onPort_same s n _ h)

theorem queue_enqueued_ne (s : State) (n k : Nat) (q : Queued) (h : n ≠ k) : (portOf (s.onPort n fun p => { p with queue := p.queue ++ [q] }) k).queue =
    (portOf s k).queue := congrArg EthPort.queue (portOf_onPort_ne s n k _ h)

/-! Links. -/

theorem ethEvent_eth (s : State) (kind address value : Nat) : (ethEvent s kind address value).eth = s.eth := by
  unfold ethEvent
  split
  · exact (congrArg State.eth (postEvent_only ..) :)
  · rfl

/-- An event of the packet hall is posted with the tick that it observes (R277). -/
theorem ethEvent_posted {s u : State} (hplane : u.plane = s.plane) (hsys : u.store.sys = s.store.sys) (kind address value : Nat) :
    PortPosted s (ethEvent u kind address value) kind address value := by
  intro hfeeds
  have hu : feedsFrom5 u 6 = true := by
    rw [feedsFrom5, hplane]
    exact hfeeds
  have hevent : ({ u.ev 5 kind address value with stamp := u.wallStamp, idx := address } : Ev) =
      { s.ev 5 kind address value with stamp := s.wallStamp, idx := address } := by simp only [State.ev, State.wallStamp, State.wallTick, hplane]
  have hposted := postEvent_posted u { u.ev 5 kind address value with stamp := u.wallStamp, idx := address }
  unfold ethEvent
  rw [if_pos hu]
  rw [hevent] at hposted ⊢
  exact Posted.of_rings hposted (eventRings_congr (by rw [hplane]) (by rw [hplane]) hsys _)

theorem ethLinkUp_rises (n : Nat) (lead : Bool) (s : State) (hn : n < 8) (henable : (portCfg s n).enable = true) (hpower : domainOn s 6 = true)
    (hdown : (portOf s n).link = 0 ∨ (portOf s n).link = 2) (hpair : 6 ≤ n ∨ (portCfg s n).leader ≠ lead) :
    ∃ t, exec (.ethLinkUp ⟨n, lead⟩) s = .next t ∧ (portOf t n).link = 1 ∧
      PortPosted s t 0x0801 n (1 + 16 * (portCfg s n).speed) ∧ ∀ k, k ≠ n → portOf t k = portOf s k := by
  obtain ⟨u, hu⟩ : ∃ u, s.onPort n (fun p => { p with link := 1 }) = u := ⟨_, rfl⟩
  have hrises : linkUp s n lead = ethEvent u 0x0801 n (1 + 16 * (portCfg s n).speed) := by
    have hpaired : (decide (6 ≤ n) || (portCfg s n).leader != lead) = true := by simpa using hpair
    unfold linkUp
    dsimp only
    rw [if_pos ⟨henable, hpower, hdown, hpaired⟩, setLink, if_neg (by omega), if_neg (by decide), hu, ← hu]
  have hport (k : Nat) : portOf (ethEvent u 0x0801 n (1 + 16 * (portCfg s n).speed)) k = portOf u k := portOf_of_eth (ethEvent_eth ..) k
  refine ⟨(ethEvent u 0x0801 n (1 + 16 * (portCfg s n).speed)).withPending s.pending, congrArg (effect s) hrises, ?_, ?_, fun k hk => ?_⟩
  · rw [portOf_withPending, hport, ← hu, portOf_onPort_same s n _ (by omega)]
  · exact ethEvent_posted (by rw [← hu]; rfl) (by rw [← hu]; rfl) 0x0801 n _
  · rw [portOf_withPending, hport, ← hu, portOf_onPort_ne s n k _ (Ne.symm hk)]

theorem ethLinkUp_refuses (n : Nat) (lead : Bool) (s : State) (hn : n < 6) (hsame : (portCfg s n).leader = lead) :
    ∃ t, exec (.ethLinkUp ⟨n, lead⟩) s = .next t ∧ t.eth = s.eth := by
  have hstays : linkUp s n lead = s := by
    have hpaired : (decide (6 ≤ n) || (portCfg s n).leader != lead) = false := by simp [hsame, hn]
    unfold linkUp
    dsimp only
    exact if_neg fun h => absurd (h.2.2.2) (by rw [hpaired]; decide)
  exact ⟨s.withPending s.pending, congrArg (effect s) hstays, rfl⟩

/-- The frames in a port's queues are discarded and counted (R261). -/
theorem dropQueue_drops (s : State) (n : Nat) (hn : n < 10) : (dropQueue s n).outsideSwitch = s.outsideSwitch ∧
    (portOf (dropQueue s n) n).queue = [] ∧ (portOf (dropQueue s n) n).link = (portOf s n).link ∧
    ((portOf s n).queue ≠ [] → (portOf (dropQueue s n) n).cnt.powerDrop = satAdd32 (portOf s n).cnt.powerDrop (portOf s n).queue.length) := by
  unfold dropQueue
  dsimp only
  split
  · next hnone =>
    have hempty : (portOf s n).queue = [] := List.length_eq_zero_iff.1 hnone
    exact ⟨rfl, hempty, rfl, fun hne => absurd hempty hne⟩
  · have hport := portOf_onPort_same s n (fun p => { p with
        queue := [], cnt := { p.cnt with powerDrop := satAdd32 p.cnt.powerDrop (portOf s n).queue.length } }) hn
    rw [show portOf (bump (s.onPort n fun p => { p with
        queue := [], cnt := { p.cnt with powerDrop := satAdd32 p.cnt.powerDrop (portOf s n).queue.length } }) 0x0A n (portOf s n).queue.length) n = _ from hport]
    exact ⟨rfl, rfl, rfl, fun _ => rfl⟩

theorem ethLinkDown_falls (n : Nat) (s : State) (hn : n < 8) (hup : (portOf s n).link = 1) (hpower : domainOn s 6 = true) :
    ∃ t, exec (.ethLinkDown n) s = .next t ∧ (portOf t n).link = 0 ∧ (portOf t n).queue = [] ∧
      ((portOf s n).queue ≠ [] → (portOf t n).cnt.powerDrop = satAdd32 (portOf s n).cnt.powerDrop (portOf s n).queue.length) ∧
      PortPosted s t 0x0801 n (16 * (portCfg s n).speed) := by
  obtain ⟨hsame, hqueue, hlink, hcount⟩ := dropQueue_drops s n (by omega)
  obtain ⟨d, hd⟩ : ∃ d, dropQueue s n = d := ⟨_, rfl⟩
  rw [hd] at hsame hqueue hlink hcount
  obtain ⟨u, hu⟩ : ∃ u, d.onPort n (fun p => { p with link := 0 }) = u := ⟨_, rfl⟩
  have hspeed : (portCfg d n).speed = (portCfg s n).speed := (congrArg (fun u => (portCfg u n).speed) hsame :)
  have hplane : d.plane = s.plane := (congrArg State.plane hsame :)
  have hsys : d.store.sys = s.store.sys := (congrArg (fun u => u.store.sys) hsame :)
  have hfalls : linkDown s n = ethEvent u 0x0801 n (16 * (portCfg s n).speed) := by
    unfold linkDown
    rw [if_pos hup, if_pos hpower, hd, setLink, if_neg (by rw [hlink, hup]; decide), if_neg (by decide), hu, hspeed, Nat.zero_add]
  have hport : portOf (ethEvent u 0x0801 n (16 * (portCfg s n).speed)) n = { portOf d n with link := 0 } := by
    rw [portOf_of_eth (ethEvent_eth ..), ← hu, portOf_onPort_same d n _ (by omega)]
  refine ⟨(ethEvent u 0x0801 n (16 * (portCfg s n).speed)).withPending s.pending, congrArg (effect s) hfalls, ?_, ?_, fun hne => ?_, ?_⟩
  · rw [portOf_withPending, hport]
  · rw [portOf_withPending, hport]
    exact hqueue
  · rw [portOf_withPending, hport]
    exact hcount hne
  · exact ethEvent_posted (by rw [← hu]; exact hplane) (by rw [← hu]; exact hsys) 0x0801 n _

/-! Frames that arrive (R262, R265, R268). -/

theorem egressPorts_known (s : State) (ingress : Nat) (f : EthFrame) (v : Vlan) (l : Learned) (m : Nat)
    (hself : f.dst ≠ s.store.eth.sw.mac) (hgroup : isGroupMac f.dst = false)
    (hknown : (s.eth.learned.find? fun l => l.mac == f.dst && l.vid == v.vid) = some l) (hport : l.port = m) (hm : m < 8) (hother : m ≠ ingress)
    (hmember : v.member.testBit m = true) : egressPorts s ingress f v = [m] := by
  unfold egressPorts
  simp [hself, hgroup, hknown, hport, hm, hother, hmember]

theorem egressPorts_self (s : State) (ingress : Nat) (f : EthFrame) (v : Vlan) (hself : f.dst = s.store.eth.sw.mac) (hgroup : isGroupMac f.dst = false)
    (hcmd : f.etherType ≠ 0x88B5) (htime : f.etherType ≠ 0x88F7) (hphy : ingress ≠ 8) : egressPorts s ingress f v = [8] := by
  rw [hself] at hgroup
  unfold egressPorts
  simp [hself, hgroup, hcmd, htime, hphy]

/-- What learning a source leaves of the entries of the other addresses (R262). -/
theorem learned_find (s : State) (mac vid port : Nat) (dst w : Nat) (hother : dst ≠ mac) :
    ((learn s mac vid port).eth.learned.find? fun l => l.mac == dst && l.vid == w) = s.eth.learned.find? fun l => l.mac == dst && l.vid == w := by
  unfold learn
  split
  · rfl
  · unfold State.onEth
    dsimp only
    split
    · dsimp only
      rw [List.find?_append, List.find?_filter]
      have hkept : (fun l : Learned => decide ((!(l.mac == mac && l.vid == vid)) = true ∧ (l.mac == dst && l.vid == w) = true)) = fun l => l.mac == dst && l.vid == w := by
        funext l
        by_cases hl : l.mac = dst
        · have hne : l.mac ≠ mac := fun h => hother (hl.symm.trans h)
          simp [hne, Bool.beq_eq_decide_eq]
        · simp [hl]
      have hnew : ([({ mac := mac, vid := vid, port := port, at_ := s.now } : Learned)].find? fun l => l.mac == dst && l.vid == w) = none := by
        simp [Ne.symm hother]
      rw [hkept, hnew, Option.or_none]
    · rfl

theorem learned_new (s : State) (mac vid port : Nat) (hgroup : isGroupMac mac = false) (hroom : s.eth.learned.length < 4096) :
    ({ mac := mac, vid := vid, port := port, at_ := s.now } : Learned) ∈ (learn s mac vid port).eth.learned := by
  have hothers : (s.eth.learned.filter fun l => !(l.mac == mac && l.vid == vid)).length < 4096 := Nat.lt_of_le_of_lt (List.length_filter_le ..) hroom
  unfold learn
  rw [if_neg (by rw [hgroup]; decide)]
  unfold State.onEth
  dsimp only
  rw [if_pos hothers]
  exact List.mem_append_right _ (List.mem_singleton_self _)

theorem learn_now (s : State) (mac vid port : Nat) : (learn s mac vid port).now = s.now := (congrArg State.now (learn_outsideSwitch s mac vid port) :)

/-- A frame that a member port takes in (R262). -/
theorem switchIn_forwards (s : State) (n m : Nat) (f : EthFrame) (v : Vlan) (hcmd : f.etherType ≠ 0x88B5) (htime : f.etherType ≠ 0x88F7) (hsec : f.sec = none)
    (haccept : (portCfg s n).accept ≠ (if f.tagged = true then 2 else 1))
    (hvlan : vlanOf s (if (f.tagged && f.vid != 0) = true then f.vid else (portCfg s n).pvid) = some v) (hmember : v.member.testBit n = true)
    (hports : portsUp (learn s f.src v.vid n) (egressPorts (learn s f.src v.vid n) n f v) = [m])
    (hfits : cellsFit s m (if f.tagged = true then f.pcp % 8 else (portCfg s n).pcp) (frameCells f (!v.untag.testBit m)) = true) :
    switchIn s n false f = (learn s f.src v.vid n).onPort m fun p => { p with queue := p.queue ++
      [{ frame := f, pcp := if f.tagged = true then f.pcp % 8 else (portCfg s n).pcp, vid := v.vid, tagged := !v.untag.testBit m
         cells := frameCells f (!v.untag.testBit m), ingress := n }] } := by
  have hplain : ({ f with sec := none } : EthFrame) = f := by
    cases f
    simp_all
  have htakes : ¬ (((portCfg s n).accept = 1 ∧ (!f.tagged) = true) ∨ ((portCfg s n).accept = 2 ∧ f.tagged = true)) := by
    cases htag : f.tagged <;> simp_all
  unfold switchIn
  dsimp only
  rw [if_neg hcmd, if_neg htime, if_neg htakes, hvlan]
  dsimp only
  rw [if_neg (by rw [hmember]; decide), hports, hplain, forward_one]
  · rfl
  · rw [(sameSwitch_learn s f.src v.vid n).cellsFit]
    exact hfits

theorem ethReceive_switches (s : State) (n : Nat) (f : EthFrame) (hn : n < 8) (hup : (portOf s n).link = 1) (hruns : hallRuns s 5 = true)
    (hfcs : f.fcsOk = true) (hsec : f.sec = none) (hopen : (portCfg s n).secureOnly = false) :
    ethReceive s n f = switchIn (countRx s n (wireBytes f)) n false f := by
  have hcfg : (portCfg (countRx s n (wireBytes f)) n).secureOnly = false := by rw [(sameSwitch_countRx s n _).portCfg, hopen]
  unfold ethReceive
  rw [if_neg (by simp [hn, hup, hruns]), if_neg (by simp [hfcs])]
  dsimp only
  rw [hsec]
  dsimp only
  rw [if_neg (by simp [hcfg])]

/-- A good frame from a member port goes to the one port that takes it (R262, R265). -/
theorem ethFrameReceive_forwards (n m : Nat) (f : EthFrame) (v : Vlan) (s : State) (hn : n < 8) (hm : m < 10) (hup : (portOf s n).link = 1) (hruns : hallRuns s 5 = true)
    (hfcs : f.fcsOk = true) (hsec : f.sec = none) (hopen : (portCfg s n).secureOnly = false) (hcmd : f.etherType ≠ 0x88B5) (htime : f.etherType ≠ 0x88F7)
    (haccept : (portCfg s n).accept ≠ (if f.tagged = true then 2 else 1))
    (hvlan : vlanOf s (if (f.tagged && f.vid != 0) = true then f.vid else (portCfg s n).pvid) = some v) (hmember : v.member.testBit n = true)
    (hports : ∀ u, SameSwitch s u → u.eth.learned = s.eth.learned → portsUp (learn u f.src v.vid n) (egressPorts (learn u f.src v.vid n) n f v) = [m])
    (hfits : cellsFit s m (if f.tagged = true then f.pcp % 8 else (portCfg s n).pcp) (frameCells f (!v.untag.testBit m)) = true) :
    ∃ t, exec (.ethFrameReceive n f) s = .next t ∧ (n ≠ m → (portOf t n).cnt.rxFrames = sat64 ((portOf s n).cnt.rxFrames + 1)) ∧
      (isGroupMac f.src = false → s.eth.learned.length < 4096 → ({ mac := f.src, vid := v.vid, port := n, at_ := s.now } : Learned) ∈ t.eth.learned) ∧
      (∀ k, k ≠ m → (portOf t k).queue = (portOf s k).queue) ∧
      (portOf t m).queue = (portOf s m).queue ++
        [{ frame := f, pcp := if f.tagged = true then f.pcp % 8 else (portCfg s n).pcp, vid := v.vid, tagged := !v.untag.testBit m
           cells := frameCells f (!v.untag.testBit m), ingress := n }] := by
  obtain ⟨u, hu⟩ : ∃ u, countRx s n (wireBytes f) = u := ⟨_, rfl⟩
  have hsame : SameSwitch s u := by
    rw [← hu]
    exact sameSwitch_countRx ..
  have hlearned : u.eth.learned = s.eth.learned := by
    rw [← hu, countRx_eth]
    rfl
  have hnow : u.now = s.now := (congrArg State.now hsame.outside :)
  have hcount : (portOf u n).cnt.rxFrames = sat64 ((portOf s n).cnt.rxFrames + 1) := by
    rw [← hu, portOf_of_eth (countRx_eth ..), cnt_onCnt s n _ (by omega)]
  have hfirst := ethReceive_switches s n f hn hup hruns hfcs hsec hopen
  rw [hu] at hfirst
  have htakes := hfirst.trans (switchIn_forwards u n m f v hcmd htime hsec (by rw [hsame.portCfg]; exact haccept)
    (by rw [hsame.portCfg, hsame.vlanOf]; exact hvlan) hmember (hports u hsame hlearned) (by rw [hsame.portCfg, hsame.cellsFit]; exact hfits))
  obtain ⟨w, hw⟩ : ∃ w, learn u f.src v.vid n = w := ⟨_, rfl⟩
  have hport (k : Nat) : portOf w k = portOf u k := by rw [← hw, portOf_learn]
  rw [hw, hsame.portCfg] at htakes
  refine ⟨_, congrArg (effect s) htakes, fun hne => ?_, fun hgroup hroom => ?_, fun k hk => ?_, ?_⟩
  · exact (congrArg (fun p => p.cnt.rxFrames) ((portOf_onPort_ne w m n _ (Ne.symm hne)).trans (hport n))).trans hcount
  · have hnew := learned_new u f.src v.vid n hgroup (by rw [hlearned]; exact hroom)
    rw [hw, hnow] at hnew
    exact hnew
  · exact (congrArg EthPort.queue ((portOf_onPort_ne w m k _ (Ne.symm hk)).trans (hport k))).trans (hsame.queue k)
  · refine (queue_enqueued w m _ hm).trans ?_
    rw [hport, hsame.queue]

/-- A clean frame of a member port goes on to the port that its destination was learned on (R262). -/
theorem ethFrameReceive_known (n m : Nat) (f : EthFrame) (v : Vlan) (l : Learned) (pcp : Nat) (s : State) (hn : n < 8) (hup : (portOf s n).link = 1)
    (hruns : hallRuns s 5 = true) (hfcs : f.fcsOk = true) (hsec : f.sec = none) (hopen : (portCfg s n).secureOnly = false) (hcmd : f.etherType ≠ 0x88B5)
    (htime : f.etherType ≠ 0x88F7) (haccept : (portCfg s n).accept ≠ (if f.tagged = true then 2 else 1))
    (hpcp : pcp = (if f.tagged = true then f.pcp % 8 else (portCfg s n).pcp))
    (hvlan : vlanOf s (if (f.tagged && f.vid != 0) = true then f.vid else (portCfg s n).pvid) = some v) (hmember : v.member.testBit n = true)
    (hsrc : isGroupMac f.src = false) (hdst : isGroupMac f.dst = false) (hroom : s.eth.learned.length < 4096) (hm : m < 8) (hother : m ≠ n)
    (hout : (portOf s m).link = 1) (hmout : v.member.testBit m = true) (hself : f.dst ≠ s.store.eth.sw.mac) (hnew : f.dst ≠ f.src)
    (hknown : (s.eth.learned.find? fun l => l.mac == f.dst && l.vid == v.vid) = some l) (hport : l.port = m)
    (hfits : cellsFit s m pcp (frameCells f (!v.untag.testBit m)) = true) :
    ∃ t, exec (.ethFrameReceive n f) s = .next t ∧ (portOf t n).cnt.rxFrames = sat64 ((portOf s n).cnt.rxFrames + 1) ∧
      { mac := f.src, vid := v.vid, port := n, at_ := s.now } ∈ t.eth.learned ∧ (∀ k, k ≠ m → (portOf t k).queue = (portOf s k).queue) ∧
      (portOf t m).queue = (portOf s m).queue ++
        [{ frame := f, pcp := pcp, vid := v.vid, tagged := !v.untag.testBit m, cells := frameCells f (!v.untag.testBit m), ingress := n }] := by
  subst hpcp
  obtain ⟨t, hexec, hcount, hlearns, hkept, hqueue⟩ := ethFrameReceive_forwards n m f v s hn (by omega) hup hruns hfcs hsec hopen hcmd htime haccept hvlan
    hmember (fun u hsame hlearned => by
      rw [egressPorts_known _ n f v l m (by rw [(hsame.trans (sameSwitch_learn ..)).store]; exact hself) hdst
        (by rw [learned_find _ _ _ _ _ _ hnew, hlearned]; exact hknown) hport hm hother hmout]
      simp [portsUp, (hsame.trans (sameSwitch_learn u f.src v.vid n)).link, hout]) hfits
  exact ⟨t, hexec, hcount (Ne.symm hother), hlearns hsrc hroom, hkept, hqueue⟩

/-- A frame for the device MAC goes to APP (R265). -/
theorem ethFrameReceive_self (n : Nat) (f : EthFrame) (v : Vlan) (pcp : Nat) (s : State) (hn : n < 8) (hup : (portOf s n).link = 1)
    (hruns : hallRuns s 5 = true) (hfcs : f.fcsOk = true) (hsec : f.sec = none) (hopen : (portCfg s n).secureOnly = false) (hcmd : f.etherType ≠ 0x88B5)
    (htime : f.etherType ≠ 0x88F7) (haccept : (portCfg s n).accept ≠ (if f.tagged = true then 2 else 1))
    (hpcp : pcp = (if f.tagged = true then f.pcp % 8 else (portCfg s n).pcp))
    (hvlan : vlanOf s (if (f.tagged && f.vid != 0) = true then f.vid else (portCfg s n).pvid) = some v) (hmember : v.member.testBit n = true)
    (hdst : isGroupMac f.dst = false) (hself : f.dst = s.store.eth.sw.mac)
    (hfits : cellsFit s 8 pcp (frameCells f (!v.untag.testBit 8)) = true) :
    ∃ t, exec (.ethFrameReceive n f) s = .next t ∧ (∀ k, k ≠ 8 → (portOf t k).queue = (portOf s k).queue) ∧
      (portOf t 8).queue = (portOf s 8).queue ++
        [{ frame := f, pcp := pcp, vid := v.vid, tagged := !v.untag.testBit 8, cells := frameCells f (!v.untag.testBit 8), ingress := n }] := by
  subst hpcp
  obtain ⟨t, hexec, -, -, hkept, hqueue⟩ := ethFrameReceive_forwards n 8 f v s hn (by decide) hup hruns hfcs hsec hopen hcmd htime haccept hvlan
    hmember (fun u hsame _ => by
      rw [egressPorts_self _ n f v (by rw [(hsame.trans (sameSwitch_learn ..)).store]; exact hself) hdst hcmd htime (by omega)]
      simp [portsUp]) hfits
  exact ⟨t, hexec, hkept, hqueue⟩

theorem ethFrameReceive_bad (n : Nat) (f : EthFrame) (s : State) (hn : n < 8) (hup : (portOf s n).link = 1) (hruns : hallRuns s 5 = true)
    (hfcs : f.fcsOk = false) :
    ∃ t, exec (.ethFrameReceive n f) s = .next t ∧ (portOf t n).cnt.rxDrop = satAdd32 (portOf s n).cnt.rxDrop 1 ∧ t.eth.learned = s.eth.learned ∧
      ∀ k, (portOf t k).queue = (portOf s k).queue := by
  have hdrops : ethReceive s n f = portDrop s n fun c => { c with rxDrop := satAdd32 c.rxDrop 1 } := by
    unfold ethReceive
    rw [if_neg (by simp [hn, hup, hruns]), if_pos (by simp [hfcs])]
  refine ⟨_, congrArg (effect s) hdrops, ?_, rfl, fun k => (portOf_onCnt s n k fun c => { c with rxDrop := satAdd32 c.rxDrop 1 }).1⟩
  exact congrArg EthCounters.rxDrop (cnt_onCnt s n (fun c => { c with rxDrop := satAdd32 c.rxDrop 1 }) (by omega))

theorem ethReceive_protected (s : State) (n : Nat) (f : EthFrame) (x : SecTag) (hn : n < 6) (hup : (portOf s n).link = 1) (hruns : hallRuns s 5 = true)
    (hfcs : f.fcsOk = true) (hsec : f.sec = some x) : ethReceive s n f = holdFrame (countRx s n (wireBytes f)) n f x := by
  unfold ethReceive
  rw [if_neg (by simp [hup, hruns]; omega), if_neg (by simp [hfcs])]
  dsimp only
  rw [hsec]
  exact if_pos hn

theorem ethFrameReceive_holds (n : Nat) (f : EthFrame) (x : SecTag) (s : State) (hn : n < 6) (hup : (portOf s n).link = 1) (hruns : hallRuns s 5 = true)
    (hfcs : f.fcsOk = true) (hsec : f.sec = some x) :
    (holdCells s + (wireBytes f + 255) / 256 ≤ 1024 → ∃ t, exec (.ethFrameReceive n f) s = .next t ∧ (∀ k, (portOf t k).queue = (portOf s k).queue) ∧
      t.cipher.hold = s.cipher.hold ++
        [{ ctx := macsecCtx n true, cells := (wireBytes f + 255) / 256, left := 64 * macsecBlocks x.data.length, port := n, frame := f }]) ∧
    (1024 < holdCells s + (wireBytes f + 255) / 256 → ∃ t, exec (.ethFrameReceive n f) s = .next t ∧ t.cipher = s.cipher ∧
      (portOf t n).cnt.hold = satAdd32 (portOf s n).cnt.hold 1) := by
  have htakes := ethReceive_protected s n f x hn hup hruns hfcs hsec
  have hsame := sameSwitch_countRx s n (wireBytes f)
  have hcipher := countRx_cipher s n (wireBytes f)
  have hcount : (portOf (countRx s n (wireBytes f)) n).cnt.hold = (portOf s n).cnt.hold := by
    rw [portOf_of_eth (countRx_eth ..), cnt_onCnt s n _ (by omega)]
  obtain ⟨u, hu⟩ : ∃ u, countRx s n (wireBytes f) = u := ⟨_, rfl⟩
  rw [hu] at htakes hsame hcipher hcount
  have hcells : holdCells u = holdCells s := by simp only [holdCells, hcipher]
  constructor
  · intro hroom
    refine ⟨_, congrArg (effect s) (htakes.trans (if_neg (by omega))), fun k => hsame.queue k, ?_⟩
    rw [← hcipher]
    rfl
  · intro hfull
    refine ⟨_, congrArg (effect s) (htakes.trans (if_pos (by omega))), hcipher, ?_⟩
    rw [← hcount]
    exact congrArg EthCounters.hold (cnt_onCnt u n (fun c => { c with hold := satAdd32 c.hold 1 }) (by omega))

/-! Transmit records (R266). -/

/-- The header that a transmit record completes with (Table 10.2). -/
def txRecordHead (s : State) (d : List Byte) (st : Status) : List Byte :=
  packetDesc (dNum d 0 2 % 8192) (dNum d 2 1 % 16) (dNum d 3 1 % 16 + 32 * b2n (bitAt (dNum d 3 1) 5) + 64) (dNum d 4 2 % 4096) st.code s.wallStamp.word

theorem txRecordDone_shape (s : State) (r slot slots : Nat) (d : List Byte) (st : Status) : ∃ (u : State) (f : Ring → Ring), u.beyondReply = s.beyondReply ∧ u.plane = s.plane ∧
    txRecordDone s r slot slots d st = (u.onRing r f).onPlane fun p => { p with results := .reply r slot st.code (u.onRing r f).wallStamp.tick 2 :: p.results } := by
  have hkept (a : Nat) (l : List Byte) : (memWriteN (mirrorReply s r slot [(0, l)]) a l).beyondReply = s.beyondReply :=
    (memWriteN_beyondReply ..).trans (mirrorReply_beyondReply ..)
  have hplane (a : Nat) (l : List Byte) : (memWriteN (mirrorReply s r slot [(0, l)]) a l).plane = s.plane :=
    (memWriteN_plane ..).trans (mirrorReply_plane ..)
  exact ⟨_, _, hkept ((s.ring r).slotAddr slot) (txRecordHead s d st), hplane ((s.ring r).slotAddr slot) (txRecordHead s d st), rfl⟩

theorem txRecordDone_eth (s : State) (r slot slots : Nat) (d : List Byte) (st : Status) : (txRecordDone s r slot slots d st).eth = s.eth := by
  obtain ⟨u, f, hkept, -, hdone⟩ := txRecordDone_shape s r slot slots d st
  rw [hdone]
  exact (congrArg State.eth hkept :)

/-- A transmit record completes with its status in the result stream (Table 10.2). -/
theorem txRecordDone_result (s : State) (r slot slots : Nat) (d : List Byte) (st : Status) :
    ResultItem.reply r slot st.code s.wallStamp.tick 2 ∈ (txRecordDone s r slot slots d st).plane.results := by
  obtain ⟨u, f, -, hplane, hdone⟩ := txRecordDone_shape s r slot slots d st
  have hstamp : (u.onRing r f).wallStamp = s.wallStamp := by simp only [State.wallStamp, State.wallTick, State.onRing, State.onPlane, hplane]
  rw [hdone, hstamp]
  exact List.mem_cons_self

/-- The record at the head of a transmit ring, whose slots are visible and whose fields are in range (R266, Table 10.2). -/
structure RecordReady (s : State) (r len : Nat) (d b : List Byte) : Prop where
  first : 52 ≤ r
  last : r ≤ 55
  waits : (s.ring r).waits = true
  runs : hallRuns s 5 = true
  came : landed s 7 ((s.ring r).arrivalOf 1) = true
  head : d = memReadN s ((s.ring r).slotAddr (s.ring r).head) 16
  bytes : len = dNum d 0 2
  least : 14 ≤ len
  most : len ≤ 4080
  port : dNum d 2 1 ≤ 8
  flags : dNum d 3 1 < 16
  vid : dNum d 4 2 ≠ 0
  vidMost : dNum d 4 2 < 4096
  visible : (16 + len + 63) / 64 ≤ (s.ring r).filled
  whole : (s.ring r).head + (16 + len + 63) / 64 ≤ (s.ring r).size
  body : b = memReadN s ((s.ring r).slotAddr (s.ring r).head + 16) len

theorem bitAt_of_lt (n k : Nat) (h : n < 2 ^ k) : bitAt n k = false := Nat.testBit_lt_two_pow h

theorem RecordReady.sent {s : State} {r len : Nat} {d b : List Byte} (h : RecordReady s r len d b) :
    txRecord s r = txRecordSend s r (s.ring r).head ((16 + len + 63) / 64) d b := by
  have hfirst := h.first
  have hlast := h.last
  have hleast := h.least
  have hmost := h.most
  have hvisible := h.visible
  have hwhole := h.whole
  have hlen : dNum d 0 2 % 8192 = len := by
    rw [← h.bytes]
    exact Nat.mod_eq_of_lt (by omega)
  have hplain : bitAt (dNum d 3 1) 5 = false := bitAt_of_lt _ 5 (Nat.lt_trans h.flags (by decide))
  have hgo : ¬ (r < 52 ∨ 55 < r ∨ (!(s.ring r).waits) = true ∨ (!hallRuns s 5) = true ∨ (!landed s 7 ((s.ring r).arrivalOf 1)) = true) := by
    rw [h.waits, h.runs, h.came]
    simp
    omega
  unfold txRecord
  dsimp only
  rw [if_neg hgo, ← h.head, hlen, hplain, if_neg (by decide), if_neg (by omega), if_neg (by omega), if_neg (by omega), ← h.body]

theorem RecordReady.sound {s : State} {r len : Nat} {d b : List Byte} (h : RecordReady s r len d b) : txReserved d = false := by
  have hmost := h.most
  have hport := h.port
  have hvid := h.vidMost
  have hflags := h.flags
  have hbytes := h.bytes
  have hlen : dNum d 0 2 / 8192 = 0 := Nat.div_eq_of_lt (by omega)
  have hhigh : dNum d 2 1 / 16 = 0 := Nat.div_eq_of_lt (by omega)
  have hwide : dNum d 4 2 / 4096 = 0 := Nat.div_eq_of_lt hvid
  unfold txReserved
  rw [hlen, hhigh, hwide, bitAt_of_lt _ 4 hflags, bitAt_of_lt _ 6 (Nat.lt_trans hflags (by decide)), bitAt_of_lt _ 7 (Nat.lt_trans hflags (by decide))]
  rfl

/-- Where the frame of a sound record goes (R266). -/
theorem RecordReady.place {s : State} {r len : Nat} {d b : List Byte} {v : Vlan} (h : RecordReady s r len d b)
    (hcmd : (recordFrame d b).etherType ≠ 0x88B5) (htime : (recordFrame d b).etherType ≠ 0x88F7) (hvlan : vlanOf s (dNum d 4 2) = some v)
    (hmember : v.member.testBit (dNum d 2 1) = true) :
    txRecordPlace s d (recordFrame d b) = .ok (v, if dNum d 2 1 = 8 then egressPorts s 8 (recordFrame d b) v else [dNum d 2 1]) := by
  have hport := h.port
  have hlow : dNum d 2 1 % 16 = dNum d 2 1 := Nat.mod_eq_of_lt (by omega)
  have hvid : dNum d 4 2 % 4096 = dNum d 4 2 := Nat.mod_eq_of_lt h.vidMost
  have hsome := h.vid
  have hown : (if dNum d 4 2 = 0 ∧ (!(dNum d 3 1).testBit 3) = true then s.store.eth.sw.appPvid else dNum d 4 2) = dNum d 4 2 :=
    if_neg fun hzero => hsome hzero.1
  unfold txRecordPlace
  dsimp only
  rw [hlow, hvid, hown, if_neg (by rw [h.sound]; simp; omega), if_neg (by simp [hcmd, htime]), hvlan]
  exact if_pos hmember

theorem RecordReady.denied {s : State} {r len : Nat} {d b : List Byte} (h : RecordReady s r len d b) (hcmd : (recordFrame d b).etherType = 0x88B5) :
    txRecordPlace s d (recordFrame d b) = .error .denied := by
  have hport := h.port
  have hlow : dNum d 2 1 % 16 = dNum d 2 1 := Nat.mod_eq_of_lt (by omega)
  unfold txRecordPlace
  dsimp only
  rw [hlow, if_neg (by rw [h.sound]; simp; omega), if_pos (.inl hcmd)]

theorem txRecordSend_error {s : State} {r slot slots : Nat} {d b : List Byte} {st : Status} (h : txRecordPlace s d (recordFrame d b) = .error st) :
    txRecordSend s r slot slots d b = txRecordDone s r slot slots d st := by
  unfold txRecordSend
  dsimp only
  split
  · next heq =>
    cases Except.error.inj (heq.symm.trans h)
    rfl
  · next heq => cases heq.symm.trans h

theorem packetTxRecord_denies {s : State} {r len : Nat} {d b : List Byte} (h : RecordReady s r len d b) (hcmd : (recordFrame d b).etherType = 0x88B5) :
    ∃ t, exec (.packetTxRecord r) s = .next t ∧ ResultItem.reply r (s.ring r).head Status.denied.code s.wallStamp.tick 2 ∈ t.plane.results ∧ t.eth = s.eth := by
  have hsends : txRecord s r = txRecordDone s r (s.ring r).head ((16 + len + 63) / 64) d .denied := h.sent.trans (txRecordSend_error (h.denied hcmd))
  have hdone := txRecordDone_result s r (s.ring r).head ((16 + len + 63) / 64) d .denied
  have heth := txRecordDone_eth s r (s.ring r).head ((16 + len + 63) / 64) d .denied
  obtain ⟨t, ht⟩ : ∃ t, txRecordDone s r (s.ring r).head ((16 + len + 63) / 64) d .denied = t := ⟨_, rfl⟩
  rw [ht] at hsends hdone heth
  exact ⟨t.withPending s.pending, congrArg (effect s) hsends, hdone, heth⟩

/-- A record's frame as it stands in a queue of the switch (R266). -/
def recordQueued (d b : List Byte) (v : Vlan) : Queued :=
  { frame := recordFrame d b, pcp := (recordFrame d b).pcp, vid := v.vid, tagged := (recordFrame d b).tagged
    cells := frameCells (recordFrame d b) (recordFrame d b).tagged }

theorem packetTxRecord_passes {s : State} {r len m : Nat} {d b : List Byte} {v : Vlan} (h : RecordReady s r len d b) (hm : m = dNum d 2 1) (hphy : m < 8)
    (hcmd : beNat ((b.drop 12).take 2) ≠ 0x88B5) (htime : beNat ((b.drop 12).take 2) ≠ 0x88F7) (hvlan : vlanOf s (dNum d 4 2) = some v)
    (hmember : v.member.testBit m = true)
    (hfits : cellsFit s m (dNum d 3 1 % 8) (frameCells { body := b.drop 14 } ((dNum d 3 1).testBit 3)) = true) :
    ∃ t, exec (.packetTxRecord r) s = .next t ∧ ResultItem.reply r (s.ring r).head Status.ok.code s.wallStamp.tick 2 ∈ t.plane.results ∧
      ∃ q, (portOf t m).queue = (portOf s m).queue ++ [q] ∧ q.vid = v.vid ∧ q.pcp = dNum d 3 1 % 8 ∧ q.tagged = (dNum d 3 1).testBit 3 ∧
        q.frame.body = b.drop 14 ∧ q.frame.dst = beNat (b.take 6) := by
  subst hm
  have hlow : dNum d 2 1 % 16 = dNum d 2 1 := Nat.mod_eq_of_lt (by omega)
  obtain ⟨u, hu⟩ : ∃ u, countRx s 8 (frameBytes (recordFrame d b) (recordFrame d b).tagged false) = u := ⟨_, rfl⟩
  have hsame : SameSwitch s u := by
    rw [← hu]
    exact sameSwitch_countRx ..
  obtain ⟨w, hw⟩ : ∃ w, u.onPort (dNum d 2 1) (fun p => { p with queue := p.queue ++ [recordQueued d b v] }) = w := ⟨_, rfl⟩
  have hfitsU : cellsFit u (dNum d 2 1) (recordQueued d b v).pcp (recordQueued d b v).cells = true := by
    rw [hsame.cellsFit]
    exact hfits
  have hsends : txRecord s r = txRecordDone w r (s.ring r).head ((16 + len + 63) / 64) d .ok := by
    rw [h.sent, ← hw]
    unfold txRecordSend
    dsimp only
    rw [h.place hcmd htime hvlan hmember]
    dsimp only
    rw [hlow, if_pos (by simp; omega), hu]
    have hin := enqueue_fits u (dNum d 2 1) (recordQueued d b v) hfitsU
    unfold recordQueued at hin
    rw [hin]
    rfl
  have hplane : w.wallStamp = s.wallStamp := by
    rw [← hw]
    simp only [State.wallStamp, State.wallTick, State.onPort, State.onEth, hsame.plane]
  have hdone := txRecordDone_result w r (s.ring r).head ((16 + len + 63) / 64) d .ok
  have hport := portOf_of_eth (txRecordDone_eth w r (s.ring r).head ((16 + len + 63) / 64) d .ok) (dNum d 2 1)
  rw [hplane] at hdone
  generalize txRecordDone w r (s.ring r).head ((16 + len + 63) / 64) d .ok = t at hsends hdone hport
  refine ⟨t.withPending s.pending, congrArg (effect s) hsends, hdone, recordQueued d b v, ?_, rfl, rfl, rfl, rfl, rfl⟩
  rw [portOf_withPending, hport, ← hw, queue_enqueued u _ _ (by omega), hsame.queue]

theorem packetTxRecord_switches {s : State} {r len m k : Nat} {d b : List Byte} {v : Vlan} {l : Learned} (h : RecordReady s r len d b) (hm : m = dNum d 2 1)
    (happ : m = 8) (hcmd : beNat ((b.drop 12).take 2) ≠ 0x88B5) (htime : beNat ((b.drop 12).take 2) ≠ 0x88F7) (hvlan : vlanOf s (dNum d 4 2) = some v)
    (hmember : v.member.testBit 8 = true) (hgroup : isGroupMac (beNat (b.take 6)) = false) (hself : beNat (b.take 6) ≠ s.store.eth.sw.mac)
    (hknown : (s.eth.learned.find? fun l => l.mac == beNat (b.take 6) && l.vid == v.vid) = some l) (hport : l.port = k) (hk : k < 8)
    (hmout : v.member.testBit k = true)
    (hfits : cellsFit s k (dNum d 3 1 % 8) (frameCells { body := b.drop 14 } (!v.untag.testBit k)) = true) :
    ∃ t, exec (.packetTxRecord r) s = .next t ∧ ResultItem.reply r (s.ring r).head Status.ok.code s.wallStamp.tick 2 ∈ t.plane.results ∧
      ∃ q, (portOf t k).queue = (portOf s k).queue ++ [q] ∧ q.frame.body = b.drop 14 := by
  subst hm
  have hlow : dNum d 2 1 % 16 = dNum d 2 1 := Nat.mod_eq_of_lt (by omega)
  obtain ⟨u, hu⟩ : ∃ u, learn (countRx s 8 (frameBytes (recordFrame d b) (recordFrame d b).tagged false)) (recordFrame d b).src v.vid 8 = u := ⟨_, rfl⟩
  have hsame : SameSwitch s u := by
    rw [← hu]
    exact (sameSwitch_countRx ..).trans (sameSwitch_learn ..)
  obtain ⟨w, hw⟩ : ∃ w, u.onPort k (fun p => { p with queue := p.queue ++ [queuedFor (recordQueued d b v) v k] }) = w := ⟨_, rfl⟩
  have hone : forward u (recordQueued d b v) v [k] = (w, 1, 0) := by
    rw [← hw]
    refine forward_one u _ v k ?_
    rw [hsame.cellsFit]
    exact hfits
  have hports : egressPorts s 8 (recordFrame d b) v = [k] := egressPorts_known s 8 _ v l k hself hgroup hknown hport hk (by omega) hmout
  have hsends : txRecord s r = txRecordDone w r (s.ring r).head ((16 + len + 63) / 64) d .ok := by
    rw [h.sent]
    unfold txRecordSend
    dsimp only
    rw [h.place hcmd htime hvlan (by rw [happ]; exact hmember)]
    dsimp only
    rw [hlow, if_neg (by simp [happ]), if_pos happ, hports, hu, show recordPorts u [k] = [k] from rfl]
    unfold recordQueued at hone
    rw [hone]
    rfl
  have hplane : w.wallStamp = s.wallStamp := by
    rw [← hw]
    simp only [State.wallStamp, State.wallTick, State.onPort, State.onEth, hsame.plane]
  have hdone := txRecordDone_result w r (s.ring r).head ((16 + len + 63) / 64) d .ok
  have hqueue := portOf_of_eth (txRecordDone_eth w r (s.ring r).head ((16 + len + 63) / 64) d .ok) k
  rw [hplane] at hdone
  generalize txRecordDone w r (s.ring r).head ((16 + len + 63) / 64) d .ok = t at hsends hdone hqueue
  refine ⟨t.withPending s.pending, congrArg (effect s) hsends, hdone, queuedFor (recordQueued d b v) v k, ?_, rfl⟩
  rw [portOf_withPending, hqueue, ← hw, queue_enqueued u _ _ (by omega), hsame.queue]

/-! Frames that leave (R263, R265, R271, R272). -/

theorem ethEvent_outsidePlane (s : State) (kind address value : Nat) : ∃ p, ethEvent s kind address value = { s with plane := p } := by
  unfold ethEvent
  split
  · exact ⟨_, postEvent_only ..⟩
  · exact ⟨s.plane, rfl⟩

theorem egressSent_takes (s : State) (n : Nat) (q : Queued) (l : List Queued) (hruns : hallRuns s 5 = true) (hup : n < 8 → (portOf s n).link = 1)
    (htake : takeHighest (portOf s n).queue = some (q, l)) : egressSent s n =
      if n < 8 then phySent (s.onPort n fun p => { p with queue := l }) n q
      else if n = 8 then appSent (s.onPort n fun p => { p with queue := l }) q else keeperSent (s.onPort n fun p => { p with queue := l }) q := by
  unfold egressSent
  dsimp only
  rw [if_neg (by rw [hruns]; simpa using hup), htake]

/-- The record of a frame for APP (Table 10.2). -/
def appRecord (s : State) (q : Queued) : Nat × List Byte :=
  (48 + bitsOf s.store.eth.sw.rxmap (2 * q.pcp) 2,
    padSlots (packetDesc (ethBytes q.frame).length q.ingress (q.pcp + 8 * b2n q.frame.tagged + 16 * b2n q.secure) q.vid 0 s.wallStamp.word ++ ethBytes q.frame))

theorem capItem_eth (s : State) (r : CapRecord) (idx : Nat) : (capItem s r idx).eth = s.eth := by
  unfold capItem
  split <;> rfl

theorem feedsFrom5_of_reach {s t : State} (h : t.reach = s.reach) (l : Nat) : feedsFrom5 t l = feedsFrom5 s l := by
  have hrun : t.plane.running = s.plane.running := congrArg Reach.running h
  have hhalls : t.plane.halls = s.plane.halls := congrArg Reach.halls h
  simp only [feedsFrom5, hrun, hhalls, streams_of_reach h]

theorem wallStamp_of_reach {s t : State} (h : t.reach = s.reach) : t.wallStamp = s.wallStamp := by
  have hrun : t.plane.running = s.plane.running := congrArg Reach.running h
  have hepoch : t.plane.epoch = s.plane.epoch := congrArg Reach.epoch h
  simp only [State.wallStamp, hrun, hepoch, wallTick_of_reach h]

theorem deliverApp_lands (s : State) (q : Queued) (hlen : (ethBytes q.frame).length ≤ 4080) (hfeeds : feedsFrom5 s 6 = true) :
    (deliverApp s q).eth = s.eth ∧ ∃ it, it ∈ (vget (deliverApp s q).plane.landings 6).items ∧ it.stamp = s.wallStamp ∧ it.hall = 5 ∧ it.recs = [appRecord s q] := by
  have hcapture (r : CapRecord) (idx : Nat) : feedsFrom5 (capItem s r idx) 6 = true :=
    (feedsFrom5_of_reach (Carries.refl s).capItem.reach 6).trans hfeeds
  have hstamp (r : CapRecord) (idx : Nat) : (capItem s r idx).wallStamp = s.wallStamp := wallStamp_of_reach (Carries.refl s).capItem.reach
  unfold deliverApp
  dsimp only
  rw [if_neg (Nat.not_lt.2 hlen), if_pos (hcapture ..), hstamp]
  exact ⟨capItem_eth .., _, mem_landPut _ 6 _ (by decide), rfl, rfl, rfl⟩

theorem countTx_plane (s : State) (n bytes : Nat) : (countTx s n bytes).plane = s.plane := (congrArg State.plane (countTx_outsideSwitch s n bytes) :)

theorem countTx_store (s : State) (n bytes : Nat) : (countTx s n bytes).store = s.store := (congrArg State.store (countTx_outsideSwitch s n bytes) :)

theorem queue_countTx (s : State) (n k bytes : Nat) : (portOf (countTx s n bytes) k).queue = (portOf s k).queue := by
  rw [portOf_of_eth (countTx_eth ..)]
  exact (portOf_onCnt s n k _).1

theorem queue_taken (s : State) (n : Nat) (l : List Queued) (h : n < 10) : (portOf (s.onPort n fun p => { p with queue := l }) n).queue = l :=
  congrArg EthPort.queue (portOf_onPort_same s n _ h)

theorem egressFrameSent_app (q : Queued) (l : List Queued) (s : State) (hruns : hallRuns s 5 = true) (hlive : s.plane.replay.running = false)
    (htake : takeHighest (portOf s 8).queue = some (q, l)) (hlen : (ethBytes q.frame).length ≤ 4080) (hfeeds : feedsFrom5 s 6 = true) :
    ∃ t it, exec (.egressFrameSent 8) s = .next t ∧ (portOf t 8).queue = l ∧ it ∈ (vget t.plane.landings 6).items ∧ it.stamp = s.wallStamp ∧ it.hall = 5 ∧
      it.recs = [(48 + bitsOf s.store.eth.sw.rxmap (2 * q.pcp) 2,
        padSlots (packetDesc (ethBytes q.frame).length q.ingress (q.pcp + 8 * b2n q.frame.tagged + 16 * b2n q.secure) q.vid 0 s.wallStamp.word ++
          ethBytes q.frame))] := by
  obtain ⟨u, hu⟩ : ∃ u, countTx (s.onPort 8 fun p => { p with queue := l }) 8 (frameBytes q.frame q.frame.tagged false) = u := ⟨_, rfl⟩
  have hplane : u.plane = s.plane := by
    rw [← hu, countTx_plane]
    rfl
  have hstore : u.store = s.store := by
    rw [← hu, countTx_store]
    rfl
  have hqueue : (portOf u 8).queue = l := by
    rw [← hu, queue_countTx]
    exact queue_taken s 8 l (by decide)
  have hsent : egressSent s 8 = deliverApp u q := by
    rw [egressSent_takes s 8 q l hruns (fun h => absurd h (by decide)) htake, if_neg (by decide), if_pos rfl, appSent, hu, if_neg (by rw [hplane, hlive]; decide)]
  obtain ⟨heth, it, hin, hstamp, hhall, hrecs⟩ := deliverApp_lands u q hlen (by rw [feedsFrom5_of_reach (reach_of_plane hplane)]; exact hfeeds)
  have hwall : u.wallStamp = s.wallStamp := wallStamp_of_reach (reach_of_plane hplane)
  refine ⟨(deliverApp u q).withPending s.pending, it, congrArg (effect s) hsent, ?_, hin, hstamp.trans hwall, hhall, ?_⟩
  · rw [portOf_withPending, portOf_of_eth heth, hqueue]
  · rw [hrecs, appRecord, hwall, hstore]

theorem mem_commandInsert (x : Stamp × Nat × EthFrame) (l : List (Stamp × Nat × EthFrame)) : x ∈ commandInsert x l := by
  induction l with
  | nil => exact List.mem_singleton_self x
  | cons y l ih =>
    unfold commandInsert
    split
    · exact List.mem_cons_self
    · exact List.mem_cons_of_mem y ih

theorem egressFrameSent_keeper (q : Queued) (l : List Queued) (s : State) (hruns : hallRuns s 5 = true) (hlive : s.plane.replay.running = false)
    (htake : takeHighest (portOf s 9).queue = some (q, l)) (hcmd : q.frame.etherType = 0x88B5) (hfeeds : feedsFrom5 s 5 = true) :
    ∃ t, exec (.egressFrameSent 9) s = .next t ∧ (portOf t 9).queue = l ∧ (s.wallStamp, q.ingress, q.frame) ∈ t.eth.cmdIn := by
  obtain ⟨u, hu⟩ : ∃ u, countTx (s.onPort 9 fun p => { p with queue := l }) 9 (frameBytes q.frame q.frame.tagged false) = u := ⟨_, rfl⟩
  have hplane : u.plane = s.plane := by
    rw [← hu, countTx_plane]
    rfl
  have hqueue : (portOf u 9).queue = l := by
    rw [← hu, queue_countTx]
    exact queue_taken s 9 l (by decide)
  have hsent : egressSent s 9 = u.onEth fun e => { e with cmdIn := commandInsert (u.wallStamp, q.ingress, q.frame) e.cmdIn } := by
    have hgo : (!u.plane.replay.running && feedsFrom5 u 5) = true := by
      rw [hplane, hlive, feedsFrom5_of_reach (reach_of_plane hplane), hfeeds]
      rfl
    rw [egressSent_takes s 9 q l hruns (fun h => absurd h (by decide)) htake, if_neg (by decide), if_neg (by decide), keeperSent, hu, if_neg (by simp [hcmd]), if_pos hgo]
  refine ⟨_, congrArg (effect s) hsent, hqueue, ?_⟩
  rw [← wallStamp_of_reach (reach_of_plane hplane)]
  exact mem_commandInsert (u.wallStamp, q.ingress, q.frame) u.eth.cmdIn

/-! Frames that leave a PHY port (R271, R272). -/

/-- The part of a state that the cipher engine leaves alone when it works for a frame of the switch. -/
def State.ports (s : State) : Eth × Store := (s.eth, s.store)

theorem memOut_ports (s : State) (a : Nat) (l : List Byte) : (memOut s a l).ports = s.ports := by
  have hwrite (u : State) (b : Nat) (m : List Byte) : (memWriteN u b m).ports = u.ports := (congrArg State.ports (memWriteN_only m u b) :)
  unfold memOut
  dsimp only
  split
  · exact (hwrite ..).trans (hwrite ..)
  · exact hwrite ..

theorem onCipher_ports (s : State) (f : Cipher → Cipher) : (s.onCipher f).ports = s.ports := rfl

theorem writeData_ports (s : State) (c n : Nat) : (writeData s c n).ports = s.ports := by
  unfold writeData
  dsimp only
  split
  · rfl
  · split
    · rfl
    · exact memOut_ports ..

theorem engineRun_ports (s : State) (k total : Nat) : (engineRun s k total).ports = s.ports := by
  unfold engineRun
  dsimp only
  rw [onCipher_ports, foldl_keeps State.ports, foldl_keeps State.ports]
  · rfl
  · exact fun _ _ => rfl
  · intro u c
    split
    · split
      · rfl
      · exact writeData_ports ..
    · rfl

theorem engineRun_switch (s : State) (k total : Nat) : (engineRun s k total).eth = s.eth ∧ (engineRun s k total).store = s.store := by
  have hports := engineRun_ports s k total
  simp only [State.ports, Prod.mk.injEq] at hports
  exact hports

/-- A frame that leaves on a port of the switch is counted, and stands on its link (R263). -/
theorem sent_counts (s u : State) (n bytes : Nat) (f : EthFrame) (hn : n < 10) (hport : portOf u n = portOf s n) :
    (portOf (countTx (u.onPort n fun p => { p with sent := some f }) n bytes) n).queue = (portOf s n).queue ∧
      (portOf (countTx (u.onPort n fun p => { p with sent := some f }) n bytes) n).sent = some f ∧
      (portOf (countTx (u.onPort n fun p => { p with sent := some f }) n bytes) n).cnt.txFrames = sat64 ((portOf s n).cnt.txFrames + 1) := by
  obtain ⟨w, hw⟩ : ∃ w, u.onPort n (fun p => { p with sent := some f }) = w := ⟨_, rfl⟩
  have hsent : portOf w n = { portOf s n with sent := some f } := by
    rw [← hw, portOf_onPort_same u n _ hn, hport]
  have hcount := cnt_onCnt w n (fun c => { c with txFrames := sat64 (c.txFrames + 1) }) hn
  obtain ⟨hqueue, -, hout⟩ := portOf_onCnt w n n fun c => { c with txFrames := sat64 (c.txFrames + 1) }
  rw [hw, portOf_of_eth (countTx_eth ..), hqueue, hout, hcount, hsent]
  exact ⟨rfl, rfl, rfl⟩

theorem lost_counts (s u : State) (n : Nat) (hn : n < 10) (hport : portOf u n = portOf s n) :
    (portOf (portDrop u n fun c => { c with saDrop := satAdd32 c.saDrop 1 }) n).queue = (portOf s n).queue ∧
      (portOf (portDrop u n fun c => { c with saDrop := satAdd32 c.saDrop 1 }) n).cnt.saDrop = satAdd32 (portOf s n).cnt.saDrop 1 ∧
      (portOf (portDrop u n fun c => { c with saDrop := satAdd32 c.saDrop 1 }) n).cnt.txFrames = (portOf s n).cnt.txFrames := by
  have hcount := cnt_onCnt u n (fun c => { c with saDrop := satAdd32 c.saDrop 1 }) hn
  obtain ⟨hqueue, -, -⟩ := portOf_onCnt u n n fun c => { c with saDrop := satAdd32 c.saDrop 1 }
  rw [portOf_portDrop, hqueue, hcount, hport]
  exact ⟨rfl, rfl, rfl⟩

theorem egressSent_phy (s : State) (n : Nat) (q : Queued) (l : List Queued) (hn : n < 8) (hruns : hallRuns s 5 = true) (hup : (portOf s n).link = 1)
    (htake : takeHighest (portOf s n).queue = some (q, l)) : egressSent s n = phySent (s.onPort n fun p => { p with queue := l }) n q := by
  rw [egressSent_takes s n q l hruns (fun _ => hup) htake, if_pos hn]

/-- A frame whose queue gave it up, with the port as it was else. -/
theorem port_taken (s : State) (n : Nat) (l : List Queued) (h : n < 10) : portOf (s.onPort n fun p => { p with queue := l }) n = { portOf s n with queue := l } :=
  portOf_onPort_same s n _ h

theorem egressFrameSent_plain (n : Nat) (q : Queued) (l : List Queued) (s : State) (hn : n < 8) (hruns : hallRuns s 5 = true) (hup : (portOf s n).link = 1)
    (htake : takeHighest (portOf s n).queue = some (q, l)) (hnone : currentSa s n = none) (hopen : (portCfg s n).secureOnly = false) :
    ∃ t, exec (.egressFrameSent n) s = .next t ∧ (portOf t n).queue = l ∧
      (portOf t n).sent = some { q.frame with tagged := q.tagged, vid := q.vid, pcp := q.pcp } ∧
      (portOf t n).cnt.txFrames = sat64 ((portOf s n).cnt.txFrames + 1) := by
  have htaken := port_taken s n l (by omega)
  have hsent := egressSent_phy s n q l hn hruns hup htake
  have hsa : currentSa (s.onPort n fun p => { p with queue := l }) n = none := hnone
  have hcfg : (portCfg (s.onPort n fun p => { p with queue := l }) n).secureOnly = false := hopen
  obtain ⟨u, hu⟩ : ∃ u, s.onPort n (fun p => { p with queue := l }) = u := ⟨_, rfl⟩
  rw [hu] at htaken hsent hsa hcfg
  have hphy : phySent u n q = countTx (u.onPort n fun p => { p with sent := some { q.frame with tagged := q.tagged, vid := q.vid, pcp := q.pcp } }) n
      (frameBytes q.frame q.tagged false) := by
    unfold phySent
    dsimp only
    rw [hsa]
    dsimp only
    rw [if_neg (by rw [hcfg]; decide)]
  obtain ⟨hqueue, hout, hcount⟩ := sent_counts u u n (frameBytes q.frame q.tagged false) { q.frame with tagged := q.tagged, vid := q.vid, pcp := q.pcp }
    (by omega) rfl
  refine ⟨_, congrArg (effect s) (hsent.trans hphy), hqueue.trans (by rw [htaken]), hout, hcount.trans (by rw [htaken])⟩

theorem egressFrameSent_bare (n : Nat) (q : Queued) (l : List Queued) (s : State) (hn : n < 8) (hruns : hallRuns s 5 = true) (hup : (portOf s n).link = 1)
    (htake : takeHighest (portOf s n).queue = some (q, l)) (hnone : currentSa s n = none) (hclosed : (portCfg s n).secureOnly = true) :
    ∃ t, exec (.egressFrameSent n) s = .next t ∧ (portOf t n).queue = l ∧ (portOf t n).cnt.saDrop = satAdd32 (portOf s n).cnt.saDrop 1 := by
  have htaken := port_taken s n l (by omega)
  have hsent := egressSent_phy s n q l hn hruns hup htake
  have hsa : currentSa (s.onPort n fun p => { p with queue := l }) n = none := hnone
  have hcfg : (portCfg (s.onPort n fun p => { p with queue := l }) n).secureOnly = true := hclosed
  obtain ⟨u, hu⟩ : ∃ u, s.onPort n (fun p => { p with queue := l }) = u := ⟨_, rfl⟩
  rw [hu] at htaken hsent hsa hcfg
  have hphy : phySent u n q = portDrop u n fun c => { c with saDrop := satAdd32 c.saDrop 1 } := by
    unfold phySent
    dsimp only
    rw [hsa]
    dsimp only
    rw [if_pos hcfg]
  obtain ⟨hqueue, hcount, -⟩ := lost_counts u u n (by omega) rfl
  refine ⟨_, congrArg (effect s) (hsent.trans hphy), hqueue.trans (by rw [htaken]), hcount.trans (by rw [htaken])⟩

theorem putSa_eth (s : State) (a : Sa) : (putSa s a).eth = s.eth := rfl

theorem usePn_switch (s : State) (a : Sa) : (usePn s a).eth = s.eth ∧ ∃ w c, (usePn s a).store.eth.sas =
    s.store.eth.sas.map fun x => if x.sameAs { a with pn := a.pn + 1, warned := w, commit := c } then { a with pn := a.pn + 1, warned := w, commit := c } else x := by
  unfold usePn
  dsimp only
  split
  · obtain ⟨p, hp⟩ := ethEvent_outsidePlane (putSa s { a with
      pn := a.pn + 1, warned := a.warned || decide (2 ^ 63 < a.pn + 1) && !a.warned
      commit := if a.commit ≤ a.pn + 1 then min (a.pn + 1 + 2 ^ 20) pnEnd else a.commit }) 0x0803 a.address 0
    rw [hp]
    exact ⟨rfl, _, _, rfl⟩
  · exact ⟨rfl, _, _, rfl⟩

/-- An SA has the place that it has. -/
theorem Sa.sameAs_of (a b : Sa) (hport : b.port = a.port) (hrx : b.rx = a.rx) (hsci : b.sci = a.sci) (han : b.an = a.an) : a.sameAs b = true := by
  unfold Sa.sameAs
  rw [hport, hrx, hsci, han]
  simp

theorem currentSa_mem {s : State} {n : Nat} {a : Sa} (h : currentSa s n = some a) : a ∈ s.store.eth.sas := List.mem_of_find?_eq_some h

theorem egressFrameSent_protects (n : Nat) (q : Queued) (l : List Queued) (a : Sa) (s : State) (hn : n < 8) (hruns : hallRuns s 5 = true)
    (hup : (portOf s n).link = 1) (htake : takeHighest (portOf s n).queue = some (q, l)) (hsome : currentSa s n = some a) (hgoes : a.stopped = 0)
    (hleft : a.pn < pnEnd) :
    ∃ t, exec (.egressFrameSent n) s = .next t ∧ (portOf t n).queue = l ∧ (portOf t n).cnt.txFrames = sat64 ((portOf s n).cnt.txFrames + 1) ∧
      (portOf t n).sent = some (protect a q.frame q.tagged q.pcp q.vid) ∧ ∃ b ∈ t.store.eth.sas, b.sameAs a = true ∧ b.pn = a.pn + 1 := by
  have htaken := port_taken s n l (by omega)
  have hsent := egressSent_phy s n q l hn hruns hup htake
  have hsa : currentSa (s.onPort n fun p => { p with queue := l }) n = some a := hsome
  have hmem : a ∈ (s.onPort n fun p => { p with queue := l }).store.eth.sas := currentSa_mem hsome
  obtain ⟨u, hu⟩ : ∃ u, s.onPort n (fun p => { p with queue := l }) = u := ⟨_, rfl⟩
  rw [hu] at htaken hsent hsa hmem
  obtain ⟨heth, hstore⟩ := engineRun_switch (usePn u a) (macsecCtx n false) (macsecBlocks (plainLength q.frame q.tagged))
  obtain ⟨hports, w, c, hsas⟩ := usePn_switch u a
  obtain ⟨x, hx⟩ : ∃ x, engineRun (usePn u a) (macsecCtx n false) (macsecBlocks (plainLength q.frame q.tagged)) = x := ⟨_, rfl⟩
  rw [hx] at heth hstore
  have hphy : phySent u n q = countTx (x.onPort n fun p => { p with sent := some (protect a q.frame q.tagged q.pcp q.vid) }) n
      (frameBytes q.frame q.tagged true) := by
    unfold phySent
    dsimp only
    rw [hsa]
    dsimp only
    rw [if_neg (by rw [hgoes]; decide), if_neg (Nat.not_le.2 hleft), hx]
  obtain ⟨hqueue, hout, hcount⟩ := sent_counts u x n (frameBytes q.frame q.tagged true) (protect a q.frame q.tagged q.pcp q.vid) (by omega)
    (portOf_of_eth (heth.trans hports) n)
  have hsas' : (countTx (x.onPort n fun p => { p with sent := some (protect a q.frame q.tagged q.pcp q.vid) }) n
      (frameBytes q.frame q.tagged true)).store.eth.sas = (usePn u a).store.eth.sas := by
    rw [countTx_store, ← hstore]
    rfl
  refine ⟨_, congrArg (effect s) (hsent.trans hphy), hqueue.trans (by rw [htaken]), hcount.trans (by rw [htaken]), hout,
    { a with pn := a.pn + 1, warned := w, commit := c }, ?_, ?_, rfl⟩
  · change _ ∈ (countTx _ n _).store.eth.sas
    rw [hsas', hsas]
    refine List.mem_map.2 ⟨a, hmem, if_pos ?_⟩
    exact a.sameAs_of _ rfl rfl rfl rfl
  · exact Sa.sameAs_of _ a rfl rfl rfl rfl

theorem stopSa_eth (s : State) (a : Sa) (cause : Nat) : (stopSa s a cause).eth = s.eth := ethEvent_eth ..

theorem egressFrameSent_stopped (n : Nat) (q : Queued) (l : List Queued) (a : Sa) (s : State) (hn : n < 8) (hruns : hallRuns s 5 = true)
    (hup : (portOf s n).link = 1) (htake : takeHighest (portOf s n).queue = some (q, l)) (hsome : currentSa s n = some a)
    (hover : a.stopped ≠ 0 ∨ pnEnd ≤ a.pn) :
    ∃ t, exec (.egressFrameSent n) s = .next t ∧ (portOf t n).queue = l ∧ (portOf t n).cnt.saDrop = satAdd32 (portOf s n).cnt.saDrop 1 ∧
      (portOf t n).cnt.txFrames = (portOf s n).cnt.txFrames := by
  have htaken := port_taken s n l (by omega)
  have hsent := egressSent_phy s n q l hn hruns hup htake
  have hsa : currentSa (s.onPort n fun p => { p with queue := l }) n = some a := hsome
  obtain ⟨u, hu⟩ : ∃ u, s.onPort n (fun p => { p with queue := l }) = u := ⟨_, rfl⟩
  rw [hu] at htaken hsent hsa
  have hphy : ∃ x, x.eth = u.eth ∧ phySent u n q = portDrop x n fun c => { c with saDrop := satAdd32 c.saDrop 1 } := by
    unfold phySent
    dsimp only
    rw [hsa]
    dsimp only
    by_cases hstop : a.stopped = 0
    · rw [if_neg (by rw [hstop]; decide), if_pos (hover.resolve_left (by rw [hstop]; decide))]
      exact ⟨stopSa u a 1, stopSa_eth .., rfl⟩
    · rw [if_pos hstop]
      exact ⟨u, rfl, rfl⟩
  obtain ⟨x, heth, hdrops⟩ := hphy
  obtain ⟨hqueue, hcount, htx⟩ := lost_counts u x n (by omega) (portOf_of_eth heth n)
  exact ⟨_, congrArg (effect s) (hsent.trans hdrops), hqueue.trans (by rw [htaken]), hcount.trans (by rw [htaken]), htx.trans (by rw [htaken])⟩

/-! Command frames (R94, R95). -/

theorem captureVisible_plane (r n : Nat) : ∀ s : State, ∃ p, captureVisible r n s = { s with plane := p } := by
  induction n with
  | zero => exact fun s => ⟨s.plane, rfl⟩
  | succ n ih =>
    intro s
    unfold captureVisible
    dsimp only
    split
    · generalize packetAt s r (s.ring r).scan s.wallStamp = p
      obtain ⟨q, hq⟩ := ih ((captureCommand s p).onRing r fun g => { g with scan := g.after p })
      have hcapture : ∃ u, captureCommand s p = { s with plane := u } := by
        unfold captureCommand capItem
        split
        · split
          · exact ⟨_, rfl⟩
          · exact ⟨s.plane, rfl⟩
        · exact ⟨s.plane, rfl⟩
      obtain ⟨u, hu⟩ := hcapture
      rw [hq, hu]
      exact ⟨q, rfl⟩
    · exact ⟨s.plane, rfl⟩

/-- The packets of a command frame are copied onto the slots of a ring behind its TAIL (R95). -/
def commandCopied (s : State) (g : Ring) (body : List Byte) (l : List Nat) : State :=
  l.foldl (fun s i => memWriteN s (g.slotAddr ((g.tail + i) % g.size)) ((body.drop (16 + 64 * i)).take 64)) s

theorem commandCopied_only (s : State) (g : Ring) (body : List Byte) (l : List Nat) : ∃ m, commandCopied s g body l = { s with mem := m } := by
  refine List.foldlRecOn (motive := fun u : State => ∃ m : List Host.Cell, u = { s with mem := m }) l _ ⟨s.mem, rfl⟩ fun u hu i _ => ?_
  obtain ⟨m, rfl⟩ := hu
  exact ⟨_, memWriteN_only ..⟩

theorem slot_ne_of_lt (tail i size : Nat) (htail : tail < size) (hpos : 0 < i) (hless : i < size) : (tail + i) % size ≠ tail := by
  by_cases hwrap : tail + i < size
  · rw [Nat.mod_eq_of_lt hwrap]
    omega
  · rw [Nat.mod_eq_sub_mod (by omega), Nat.mod_eq_of_lt (by omega)]
    omega

/-- Slots that are written elsewhere leave the slot at TAIL as it is. -/
theorem commandCopied_rest (s : State) (g : Ring) (body : List Byte) (l : List Nat) (htail : g.tail < g.size) (hl : ∀ i ∈ l, 0 < i ∧ i < g.size) :
    memReadN (commandCopied s g body l) (g.slotAddr g.tail) 64 = memReadN s (g.slotAddr g.tail) 64 := by
  refine List.foldlRecOn (motive := fun u => memReadN u (g.slotAddr g.tail) 64 = memReadN s (g.slotAddr g.tail) 64) l _ rfl fun u hu i hi => ?_
  obtain ⟨hpos, hless⟩ := hl i hi
  have hne := slot_ne_of_lt g.tail i g.size htail hpos hless
  have hshort : ((body.drop (16 + 64 * i)).take 64).length ≤ 64 := List.length_take_le ..
  refine (memReadN_congr fun k hk => memRead_memWriteN_out _ u _ _ ?_).trans hu
  simp only [Ring.slotAddr]
  omega

theorem commandCopied_first (s : State) (g : Ring) (body : List Byte) (count : Nat) (htail : g.tail < g.size) (hcount : 1 ≤ count) (hroom : count < g.size)
    (hbody : 16 + 64 * count ≤ body.length) (hwf : Tbl.wf 0 s.mem = true) :
    memReadN (commandCopied s g body (List.range count)) (g.slotAddr g.tail) 64 = (body.drop 16).take 64 := by
  obtain ⟨n, rfl⟩ : ∃ n, count = n + 1 := ⟨count - 1, by omega⟩
  have hfirst : commandCopied s g body (List.range (n + 1)) =
      commandCopied (memWriteN s (g.slotAddr g.tail) ((body.drop 16).take 64)) g body ((List.range n).map Nat.succ) := by
    rw [List.range_succ_eq_map]
    unfold commandCopied
    rw [List.foldl_cons, Nat.add_zero, Nat.mod_eq_of_lt htail]
  have hlength : ((body.drop 16).take 64).length = 64 := by
    rw [List.length_take, List.length_drop]
    omega
  have hread := memReadN_memWriteN s (g.slotAddr g.tail) ((body.drop 16).take 64) hwf
  rw [hlength] at hread
  rw [hfirst, commandCopied_rest _ g body _ htail, hread]
  intro i hi
  obtain ⟨k, hk, rfl⟩ := List.mem_map.1 hi
  have hless := List.mem_range.1 hk
  omega

/-- The record of an accepted command frame (R95). -/
def commandRecord (s : State) (n : Nat) (f : EthFrame) (sci seq count : Nat) : CmdFrame :=
  { port := n, sci := sci, mac := f.src, vid := f.vid, seq := seq, first := (s.ring 31).tail, count := count }

/-- What an accepted command frame leaves (R95, R96): its SEQ, its packets behind TAIL, and its record. -/
theorem acceptCommand_accepts (s : State) (n : Nat) (f : EthFrame) (sci seq count : Nat) :
    ((acceptCommand s n f sci seq count).ring 31).tail = ((s.ring 31).tail + count) % (s.ring 31).size ∧
      (acceptCommand s n f sci seq count).eth = { s.eth with cmdRun := s.eth.cmdRun ++ [commandRecord s n f sci seq count] } ∧
      (acceptCommand s n f sci seq count).store.eth.cmd = s.store.eth.cmd.map (fun c => if c.port = n ∧ c.sci = sci then { c with seq := seq } else c) ∧
      ∃ w : State, w.mem = s.mem ∧ (acceptCommand s n f sci seq count).mem = (commandCopied w (s.ring 31) f.body (List.range count)).mem := by
  obtain ⟨w, hw⟩ : ∃ w, (s.onStore fun st => { st with eth := { st.eth with
    cmd := st.eth.cmd.map fun c => if c.port = n ∧ c.sci = sci then { c with seq := seq } else c } }) = w := ⟨_, rfl⟩
  obtain ⟨m, hm⟩ := commandCopied_only w (s.ring 31) f.body (List.range count)
  obtain ⟨v, hv⟩ : ∃ v, commandCopied w (s.ring 31) f.body (List.range count) = v := ⟨_, rfl⟩
  obtain ⟨x, hx⟩ : ∃ x, v.onRing 31 (fun g => { g with
    tail := ((s.ring 31).tail + count) % (s.ring 31).size, arrival := v.wallStamp
    batches := g.batches ++ [(((s.ring 31).tail + count) % (s.ring 31).size, v.wallStamp)] }) = x := ⟨_, rfl⟩
  obtain ⟨hmem, hscan, -⟩ := captureVisible_ring 31 4096 x
  obtain ⟨p, hp⟩ := captureVisible_plane 31 4096 x
  obtain ⟨y, hy⟩ : ∃ y, captureVisible 31 4096 x = y := ⟨_, rfl⟩
  rw [hy] at hmem hscan hp
  have haccepts : acceptCommand s n f sci seq count = (bump y 3 31 1).onEth fun e => { e with cmdRun := e.cmdRun ++ [commandRecord s n f sci seq count] } := by
    rw [← hy, ← hx, ← hv, ← hw]
    rfl
  have htail : (x.ring 31).tail = ((s.ring 31).tail + count) % (s.ring 31).size := by
    rw [← hx, onRing_same v 31 _ (by decide)]
  have hkept : y.eth = s.eth ∧ y.store = w.store := by
    rw [hp, ← hx, ← hv, hm, ← hw]
    exact ⟨rfl, rfl⟩
  obtain ⟨heth, hstore⟩ := hkept
  rw [haccepts]
  refine ⟨(congrArg Ring.tail hscan).trans htail, ?_, ?_, w, by rw [← hw]; rfl, ?_⟩
  · rw [← heth]
    rfl
  · refine (congrArg (fun st => st.eth.cmd) hstore).trans ?_
    rw [← hw]
    rfl
  · rw [hv]
    refine hmem.trans ?_
    rw [← hx]
    rfl

/-- A command frame stands first in L5, is released and names a channel of the keeper (R94, R95). -/
structure CommandReady (s : State) (n : Nat) (i f : EthFrame) (c : CmdChannel) (x : Stamp × Nat × EthFrame) : Prop where
  first : commandIn s n i = some x
  came : landed s 5 x.1 = true
  frame : f = x.2.2
  bound : boundChannel s n f = some c
  version : dNum f.body 0 1 = 1
  some_ : 1 ≤ dNum f.body 1 1
  most : dNum f.body 1 1 ≤ 22
  zeros : dNum f.body 2 2 = 0
  zero : dNum f.body 12 4 = 0
  whole : 16 + 64 * dNum f.body 1 1 ≤ f.body.length
  live : s.plane.replay.running = false
  ready : s.seq.ready = true

theorem CommandReady.waits {s : State} {n : Nat} {i f : EthFrame} {c : CmdChannel} {x : Stamp × Nat × EthFrame} (h : CommandReady s n i f c x) :
    onItsWay s n i = true := by
  obtain ⟨hhead, hcopy⟩ := Option.filter_eq_some_iff.1 h.first
  have hmem : x ∈ s.eth.cmdIn := List.mem_of_mem_head? hhead
  unfold onItsWay
  rw [Bool.or_eq_true]
  exact .inr (List.any_eq_true.2 ⟨x, hmem, hcopy⟩)

theorem CommandReady.taken {s : State} {n : Nat} {i f : EthFrame} {c : CmdChannel} {x : Stamp × Nat × EthFrame} (h : CommandReady s n i f c x) :
    commandFrame s n i =
      if dNum f.body 4 8 ≤ c.seq ∨ (s.ring 31).size - 1 < (s.ring 31).outstanding s.eth.cmdRun + dNum f.body 1 1 then
        dropCommand (s.onEth fun e => { e with cmdIn := e.cmdIn.erase x })
      else acceptCommand (s.onEth fun e => { e with cmdIn := e.cmdIn.erase x }) n f c.sci (dNum f.body 4 8) (dNum f.body 1 1) := by
  have hsome := h.some_
  have hmost := h.most
  have hwhole := h.whole
  have hbound : boundChannel (s.onEth fun e => { e with cmdIn := e.cmdIn.erase x }) n f = some c := h.bound
  have hcome : (some x).filter (fun c => landed s 5 c.1) = some x := Option.filter_eq_some_iff.2 ⟨rfl, h.came⟩
  unfold commandFrame
  dsimp only
  rw [if_pos h.waits, h.first, hcome]
  dsimp only
  rw [← h.frame, hbound]
  dsimp only
  refine if_congr ?_ rfl rfl
  have hzero : dNum f.body 1 1 ≠ 0 := by omega
  have hfew : ¬ 22 < dNum f.body 1 1 := by omega
  have hlong : ¬ f.body.length < 16 + 64 * dNum f.body 1 1 := by omega
  have hlive : (s.onEth fun e => { e with cmdIn := e.cmdIn.erase x }).plane.replay.running = false := h.live
  have hready : (s.onEth fun e => { e with cmdIn := e.cmdIn.erase x }).seq.ready = true := h.ready
  simp only [h.version, h.zeros, h.zero, hzero, hfew, hlong, hlive, hready, ne_eq, not_true_eq_false, false_or, Bool.not_true, Bool.false_eq_true, or_false]
  rfl

theorem commandFrame_accepts {s : State} {n : Nat} {i f : EthFrame} {c : CmdChannel} {x : Stamp × Nat × EthFrame} (h : CommandReady s n i f c x)
    (hnewer : c.seq < dNum f.body 4 8) (hroom : (s.ring 31).outstanding s.eth.cmdRun + dNum f.body 1 1 ≤ (s.ring 31).size - 1) :
    ∃ t, exec (.commandFrame n i) s = .next t ∧ (t.ring 31).tail = ((s.ring 31).tail + dNum f.body 1 1) % (s.ring 31).size ∧
      t.eth.cmdIn = s.eth.cmdIn.erase x ∧ t.eth.cmdRun = s.eth.cmdRun ++
        [{ port := n, sci := c.sci, mac := f.src, vid := f.vid, seq := dNum f.body 4 8, first := (s.ring 31).tail, count := dNum f.body 1 1 }] ∧
      (∀ y ∈ t.store.eth.cmd, y.port = n → y.sci = c.sci → y.seq = dNum f.body 4 8) ∧
      (Tbl.wf 0 s.mem = true → s.plane.capture.running = false → (s.ring 31).tail < (s.ring 31).size →
        memReadN t ((s.ring 31).slotAddr (s.ring 31).tail) 64 = (f.body.drop 16).take 64) := by
  have hsome := h.some_
  have htakes := h.taken.trans (if_neg (by omega))
  obtain ⟨u, hu⟩ : ∃ u, s.onEth (fun e => { e with cmdIn := e.cmdIn.erase x }) = u := ⟨_, rfl⟩
  have hring : u.ring 31 = s.ring 31 := by
    rw [← hu]
    rfl
  obtain ⟨htail, heth, hcmd, w, hmem, hcopied⟩ := acceptCommand_accepts u n f c.sci (dNum f.body 4 8) (dNum f.body 1 1)
  rw [hring] at htail hcopied
  rw [hu] at htakes
  refine ⟨(acceptCommand u n f c.sci (dNum f.body 4 8) (dNum f.body 1 1)).withPending s.pending, congrArg (effect s) htakes, htail, ?_, ?_, ?_,
    fun hwf _ hless => ?_⟩
  · refine (congrArg Eth.cmdIn heth).trans ?_
    rw [← hu]
    rfl
  · refine (congrArg Eth.cmdRun heth).trans ?_
    rw [commandRecord, hring, ← hu]
    rfl
  · intro y hy hport hsci
    change y ∈ (acceptCommand u n f c.sci (dNum f.body 4 8) (dNum f.body 1 1)).store.eth.cmd at hy
    rw [hcmd] at hy
    obtain ⟨z, -, hz⟩ := List.mem_map.1 hy
    by_cases hsame : z.port = n ∧ z.sci = c.sci
    · rw [if_pos hsame] at hz
      rw [← hz]
    · rw [if_neg hsame] at hz
      subst hz
      exact absurd ⟨hport, hsci⟩ hsame
  · have hwmem : w.mem = s.mem := by
      rw [hmem, ← hu]
      rfl
    rw [memReadN_withPending]
    refine (memReadN_congr fun k _ => ?_).trans (commandCopied_first w (s.ring 31) f.body (dNum f.body 1 1) hless hsome (by omega) h.whole (by rw [hwmem]; exact hwf))
    simp only [memRead, hcopied]

theorem commandFrame_drops {s : State} {n : Nat} {i f : EthFrame} {c : CmdChannel} {x : Stamp × Nat × EthFrame} (h : CommandReady s n i f c x)
    (hold : dNum f.body 4 8 ≤ c.seq) :
    ∃ t, exec (.commandFrame n i) s = .next t ∧ (portOf t 9).cnt.cmdDrop = satAdd32 (portOf s 9).cnt.cmdDrop 1 ∧ t.eth.cmdRun = s.eth.cmdRun ∧
      t.ring 31 = s.ring 31 := by
  have hcount := cnt_onCnt (s.onEth fun e => { e with cmdIn := e.cmdIn.erase x }) 9 (fun c => { c with cmdDrop := satAdd32 c.cmdDrop 1 }) (by decide)
  exact ⟨(dropCommand (s.onEth fun e => { e with cmdIn := e.cmdIn.erase x })).withPending s.pending, congrArg (effect s) (h.taken.trans (if_pos (.inl hold))),
    congrArg EthCounters.cmdDrop hcount, rfl, rfl⟩

theorem commandFrameReply_answers (c : CmdFrame) (s : State) (hdone : s.eth.cmdRun.find? (allDone s) = some c) (hport : c.port < 8)
    (hup : (portOf s c.port).link = 1) (hfits : cellsFit s c.port 0 (frameCells (replyFrame s c) (c.vid != 0)) = true) :
    ∃ t, exec .commandFrameReply s = .next t ∧ t.eth.cmdRun = s.eth.cmdRun.erase c ∧
      ∃ q, (portOf t c.port).queue = (portOf s c.port).queue ++ [q] ∧ q.frame = replyFrame s c := by
  obtain ⟨u, hu⟩ : ∃ u, countRx (s.onEth fun e => { e with cmdRun := e.cmdRun.erase c }) 9 (frameBytes (replyFrame s c) false false) = u := ⟨_, rfl⟩
  have hsame : SameSwitch s u := by
    rw [← hu]
    refine SameSwitch.trans ?_ (sameSwitch_countRx ..)
    exact ⟨rfl, fun _ => rfl, fun _ => rfl⟩
  have hrun : u.eth.cmdRun = s.eth.cmdRun.erase c := by
    rw [← hu, countRx_eth]
    rfl
  obtain ⟨q, hq⟩ : ∃ q : Queued, { frame := replyFrame s c, pcp := 0, vid := c.vid, tagged := c.vid != 0, cells := frameCells (replyFrame s c) (c.vid != 0)
                                   ingress := 9 } = q := ⟨_, rfl⟩
  have hanswers : commandReply s = u.onPort c.port fun p => { p with queue := p.queue ++ [q] } := by
    have hin := enqueue_fits u c.port q (by rw [hsame.cellsFit, ← hq]; exact hfits)
    unfold commandReply
    rw [hdone]
    dsimp only
    rw [hu, if_pos (by rw [hsame.link]; exact hup), hq, hin]
  refine ⟨(u.onPort c.port fun p => { p with queue := p.queue ++ [q] }).withPending s.pending, congrArg (effect s) hanswers, hrun, q, ?_, by rw [← hq]⟩
  rw [portOf_withPending, queue_enqueued u c.port q (by omega), hsame.queue]

/-! Addresses and associations (R262, R271). -/

theorem addressAgeing_ages (mac vid : Nat) (s : State) : ∃ t, exec (.addressAgeing mac vid) s = .next t ∧
    (∀ l ∈ t.eth.learned, l.mac = mac → l.vid = vid → s.now < l.at_ + 8000000 * s.store.eth.sw.ageS) ∧
    (∀ l ∈ s.eth.learned, (l.mac ≠ mac ∨ l.vid ≠ vid ∨ s.now < l.at_ + 8000000 * s.store.eth.sw.ageS) → l ∈ t.eth.learned) ∧ t.eth.port = s.eth.port := by
  have hkept (l : Learned) : (!(l.mac == mac && l.vid == vid && decide (l.at_ + 8000000 * s.store.eth.sw.ageS ≤ s.now))) = true ↔
      l.mac ≠ mac ∨ l.vid ≠ vid ∨ s.now < l.at_ + 8000000 * s.store.eth.sw.ageS := by
    simp only [Bool.not_eq_true', Bool.and_eq_false_iff, beq_eq_false_iff_ne, decide_eq_false_iff_not, Nat.not_le, or_assoc, ne_eq]
  refine ⟨(ageAddress s mac vid).withPending s.pending, rfl, fun l hl hmac hvid => ?_, fun l hl hstays => ?_, rfl⟩
  · have hin := (hkept l).1 (List.mem_filter.1 hl).2
    exact (hin.resolve_left (not_not_intro hmac)).resolve_left (not_not_intro hvid)
  · exact List.mem_filter.2 ⟨hl, (hkept l).2 hstays⟩

theorem saPnExhausted_stops (port : Nat) (rx : Bool) (sci an : Nat) (a : Sa) (s : State)
    (hfind : (s.store.eth.sas.find? fun a => a.port == port && a.rx == rx && (!rx || a.sci == sci) && a.an == an) = some a) (hend : pnEnd ≤ a.pn)
    (hgoes : a.stopped = 0) :
    ∃ t, exec (.saPnExhausted port rx sci an) s = .next t ∧ (∀ b ∈ t.store.eth.sas, b.sameAs a = true → b.stopped = 1) ∧
      (∃ b ∈ t.store.eth.sas, b.sameAs a = true) ∧ PortPosted s t 0x0802 a.address 1 := by
  have hstops : saExhausted s port rx sci an = stopSa s a 1 := by
    unfold saExhausted
    rw [hfind]
    exact if_pos ⟨hend, hgoes⟩
  obtain ⟨p, hp⟩ := ethEvent_outsidePlane (putSa s { a with stopped := 1 }) 0x0802 a.address 1
  have hsas : (stopSa s a 1).store.eth.sas = s.store.eth.sas.map fun x => if x.sameAs { a with stopped := 1 } then { a with stopped := 1 } else x := by
    unfold stopSa
    rw [hp]
    rfl
  have hplace (x : Sa) : x.sameAs { a with stopped := 1 } = x.sameAs a := rfl
  refine ⟨(stopSa s a 1).withPending s.pending, congrArg (effect s) hstops, fun b hb hsame => ?_, ⟨{ a with stopped := 1 }, ?_, ?_⟩, ?_⟩
  · change b ∈ (stopSa s a 1).store.eth.sas at hb
    rw [hsas] at hb
    obtain ⟨x, -, hx⟩ := List.mem_map.1 hb
    by_cases hthis : x.sameAs { a with stopped := 1 } = true
    · rw [if_pos hthis] at hx
      rw [← hx]
    · rw [if_neg hthis] at hx
      rw [hx] at hthis
      exact absurd ((hplace b).trans hsame) hthis
  · change _ ∈ (stopSa s a 1).store.eth.sas
    rw [hsas]
    exact List.mem_map.2 ⟨a, List.mem_of_find?_eq_some hfind, if_pos (a.sameAs_of _ rfl rfl rfl rfl)⟩
  · exact Sa.sameAs_of _ a rfl rfl rfl rfl
  · exact ethEvent_posted (u := putSa s { a with stopped := 1 }) rfl rfl 0x0802 a.address 1

/-- Settles O54, clause by clause: links, frames that arrive, records and frames that leave, command frames, ageing, and the end of a PN. -/
theorem ethernetSwitchActs : Obligations.EthernetSwitchActs := by
  refine ⟨fun n lead s hn henable hpower hdown => ⟨ethLinkUp_rises n lead s hn henable hpower hdown, ethLinkUp_refuses n lead s⟩,
    ethLinkDown_falls, ?_, ethFrameReceive_holds, ethFrameReceive_bad, ?_, ?_, ?_, ?_, commandFrameReply_answers, addressAgeing_ages, saPnExhausted_stops⟩
  · intro n f v vid pcp s hn hup hruns hfcs hsec hopen hcmd htime haccept hvid hpcp hvlan hmember hsrc hdst hroom
    subst hvid
    exact ⟨fun m l hm hother hout hmout hself hnew hknown hport hfits => ethFrameReceive_known n m f v l pcp s hn hup hruns hfcs hsec hopen hcmd htime haccept
      hpcp hvlan hmember hsrc hdst hroom hm hother hout hmout hself hnew hknown hport hfits,
      fun hself _ hfits => ethFrameReceive_self n f v pcp s hn hup hruns hfcs hsec hopen hcmd htime haccept hpcp hvlan hmember hdst hself hfits⟩
  · intro r g d m len flags b v s hfirst hlast hg hwaits hruns hcame hd hlen hleast hmost hm hport hflags hfew hvid hvidMost hvisible hwhole hb htime
    subst hg hm hflags
    have hready : RecordReady s r len d b :=
      ⟨hfirst, hlast, hwaits, hruns, hcame, hd, hlen, hleast, hmost, hport, hfew, hvid, hvidMost, hvisible, hwhole, hb⟩
    exact ⟨fun hphy hcmd hvlan hmember hfits => packetTxRecord_passes hready rfl hphy hcmd htime hvlan hmember hfits,
      fun l k happ hcmd hvlan hmember hgroup hself _ hknown hto hk hmout hfits =>
        packetTxRecord_switches hready rfl happ hcmd htime hvlan hmember hgroup hself hknown hto hk hmout hfits,
      packetTxRecord_denies hready⟩
  · exact fun q l s hruns hlive => ⟨egressFrameSent_app q l s hruns hlive, egressFrameSent_keeper q l s hruns hlive⟩
  · exact fun n q l s hn hruns hup htake => ⟨egressFrameSent_plain n q l s hn hruns hup htake, egressFrameSent_bare n q l s hn hruns hup htake,
      fun a => egressFrameSent_protects n q l a s hn hruns hup htake, fun a => egressFrameSent_stopped n q l a s hn hruns hup htake⟩
  · intro n i f c x s hfirst hcame hframe hbound hversion hsome hmost hzeros hzero hwhole hlive hready
    have hcommand : CommandReady s n i f c x := ⟨hfirst, hcame, hframe, hbound, hversion, hsome, hmost, hzeros, hzero, hwhole, hlive, hready⟩
    exact ⟨commandFrame_accepts hcommand, commandFrame_drops hcommand⟩

end Sys2Proof.Machine

namespace Sys2Proof.Machine

open Sys2Proof.Claims

/-! LIN controllers (R254–R257, R294). -/

/-- What the networks' own changes leave: how far the halls reach, the controllers, the store, the count of the power die. -/
structure SameBus (s t : State) : Prop where
  carries : Carries s t
  bus : t.bus = s.bus
  store : t.store = s.store
  now : t.now = s.now

theorem SameBus.refl (s : State) : SameBus s s := ⟨.refl s, rfl, rfl, rfl⟩

theorem SameBus.trans {s t u : State} (h : SameBus s t) (h' : SameBus t u) : SameBus s u :=
  ⟨h.carries.trans h'.carries, h'.bus.trans h.bus, h'.store.trans h.store, h'.now.trans h.now⟩

theorem SameBus.onNet {s t : State} (h : SameBus s t) {n : Nat} {f : Net → Net} : SameBus s (t.onNet n f) := ⟨h.carries.same rfl, h.bus, h.store, h.now⟩

theorem observe_bus (s : State) (hall idx : Nat) (w : List (Nat × PVal)) (es : List Ev) (caps : List CapRecord) : (observe s hall idx w es caps).bus = s.bus := by
  rw [observe_only]

theorem observe_sleep (s : State) (hall idx : Nat) (w : List (Nat × PVal)) (es : List Ev) (caps : List CapRecord) : (observe s hall idx w es caps).sleep = s.sleep := by
  rw [observe_only]

theorem SameBus.netEvent {s t : State} (h : SameBus s t) {n kind address value : Nat} : SameBus s (netEvent t n kind address value) :=
  ⟨h.carries.observe, (observe_bus ..).trans h.bus, (observe_store ..).trans h.store, (observe_now ..).trans h.now⟩

theorem netOf_netEvent (s : State) (n kind address value k : Nat) : netOf (netEvent s n kind address value) k = netOf s k := by
  unfold netEvent busEvent netOf
  rw [observe_sleep]

theorem SameBus.setNet {s t : State} (h : SameBus s t) {n st : Nat} : SameBus s (setNet t n st) := by
  unfold Machine.setNet
  split
  · exact h
  · exact h.onNet.netEvent

/-- A LIN network has no followers (R294). -/
theorem enterNet_lin (s : State) (c st : Nat) : enterNet s (8 + c) st = setNet s (8 + c) st := by
  have hnone : followers s (8 + c) = [] := by
    unfold followers
    refine List.filter_eq_nil_iff.2 fun l _ => ?_
    simp
  unfold enterNet
  dsimp only
  rw [hnone, List.foldl_nil]

theorem sameBus_nmAnyFrame (s : State) (c : Nat) : SameBus s (nmAnyFrame s (8 + c)) := by
  unfold nmAnyFrame
  split
  · unfold enterReady
    dsimp only
    rw [enterNet_lin]
    exact (SameBus.refl s).onNet.netEvent.onNet.setNet
  · exact .refl s

/-- An event of the bus hall is delivered with the tick that it observes. -/
theorem busEvent_observed {s u : State} (hreach : u.reach = s.reach) (src kind address value : Nat) :
    Observed s (busEvent u src kind address value) 6 src [] [s.ev 6 kind address value] := by
  have hobs := observe_observed u 6 src [] [u.ev 6 kind address value] []
  rw [ev_of_reach hreach] at hobs
  unfold busEvent
  rw [ev_of_reach hreach]
  exact Observed.of_reach hobs hreach

theorem netOf_setNet_state (s : State) (n st : Nat) (hn : n < 14) : (netOf (setNet s n st) n).state = st := by
  unfold setNet
  split
  · assumption
  · rw [netOf_netEvent, onNet_same s n _ hn]

theorem netOf_setNet_rest (s : State) (n st k : Nat) : (netOf (setNet s n st) k).xcvr = (netOf s k).xcvr ∧ (netOf (setNet s n st) k).sleeps = (netOf s k).sleeps := by
  unfold setNet
  split
  · exact ⟨rfl, rfl⟩
  · rw [netOf_netEvent]
    exact ⟨vget_vmod_proj s.sleep.net n k _ Net.xcvr fun _ => rfl, vget_vmod_proj s.sleep.net n k _ Net.sleeps fun _ => rfl⟩

theorem setNet_observed (s : State) (n st : Nat) (hnew : (netOf s n).state ≠ st) : Observed s (setNet s n st) 6 (32 + n) [] [s.ev 6 0x0901 n st] := by
  have hreach : (s.onNet n fun x => { x with state := st }).reach = s.reach := rfl
  unfold setNet
  rw [if_neg hnew]
  exact busEvent_observed hreach (32 + n) 0x0901 n st

/-- A LIN transceiver that is handed to Sleep (R285). -/
theorem setXcvr_sleeps (s : State) (c : Nat) (hc : c < 6) :
    Carries s (setXcvr s (8 + c) 3) ∧ (netOf (setXcvr s (8 + c) 3) (8 + c)).xcvr = 3 ∧
      (netOf (setXcvr s (8 + c) 3) (8 + c)).state = (netOf s (8 + c)).state ∧ (netOf (setXcvr s (8 + c) 3) (8 + c)).sleeps = (netOf s (8 + c)).sleeps ∧
      { linAt (setXcvr s (8 + c) 3) c with asleep := true, header := none } = { linAt s c with asleep := true, header := none } ∧
      ((netOf s (8 + c)).xcvr ≠ 3 → Observed s (setXcvr s (8 + c) 3) 6 (40 + c) [] [s.ev 6 0x0903 (8 + c) 3]) := by
  unfold setXcvr
  dsimp only
  split
  · next hsame => exact ⟨.refl s, hsame, rfl, rfl, rfl, fun hnew => absurd hsame hnew⟩
  · next hnew =>
    rw [if_pos (Nat.le_add_right 8 c), if_neg (fun h => absurd h.2 (by decide)), Nat.add_sub_cancel_left]
    obtain ⟨u, hu⟩ : ∃ u, netEvent (s.onNet (8 + c) fun x => { x with xcvr := 3 }) (8 + c) 0x0903 (8 + c) 3 = u := ⟨_, rfl⟩
    have hbus : SameBus s u := by
      rw [← hu]
      exact (SameBus.refl s).onNet.netEvent
    have hnet : netOf u (8 + c) = { netOf s (8 + c) with xcvr := 3 } := by
      rw [← hu, netOf_netEvent, onNet_same s _ _ (by omega)]
    have hobs : Observed s u 6 (40 + c) [] [s.ev 6 0x0903 (8 + c) 3] := by
      have hreach : (s.onNet (8 + c) fun x => { x with xcvr := 3 }).reach = s.reach := rfl
      have hsource : 32 + (8 + c) = 40 + c := by omega
      rw [← hu, ← hsource]
      exact busEvent_observed hreach (32 + (8 + c)) 0x0903 (8 + c) 3
    rw [hu]
    have hlin : linAt u c = linAt s c := by simp only [linAt, hbus.bus]
    refine ⟨hbus.carries.onLin, (congrArg Net.xcvr hnet :), (congrArg Net.state hnet :), (congrArg Net.sleeps hnet :), ?_, fun _ => Observed.mono hobs fun _ _ hx => hx⟩
    rw [onLin_same u c _ hc, hlin]
    rfl

/-- A LIN controller that its network puts to sleep (R294). -/
theorem linCommit_commits (s : State) (c : Nat) (hc : c < 6) (hawake : (netOf s (8 + c)).state ≠ 1) :
    Carries s (linCommit s (8 + c)) ∧ (netOf (linCommit s (8 + c)) (8 + c)).state = 1 ∧ (netOf (linCommit s (8 + c)) (8 + c)).xcvr = 3 ∧
      (netOf (linCommit s (8 + c)) (8 + c)).sleeps = satAdd32 (netOf s (8 + c)).sleeps 1 ∧
      linAt (linCommit s (8 + c)) c = { linAt s c with asleep := true, header := none } ∧
      Observed s (linCommit s (8 + c)) 6 (40 + c) [] [s.ev 6 0x0901 (8 + c) 1] ∧
      ((netOf s (8 + c)).xcvr ≠ 3 → Observed s (linCommit s (8 + c)) 6 (40 + c) [] [s.ev 6 0x0903 (8 + c) 3]) := by
  have hstate := netOf_setNet_state s (8 + c) 1 (by omega)
  obtain ⟨hxcvr, hsleeps⟩ := netOf_setNet_rest s (8 + c) 1 (8 + c)
  have hset := setNet_observed s (8 + c) 1 hawake
  have hsame : SameBus s (setNet s (8 + c) 1) := (SameBus.refl s).setNet
  obtain ⟨u, hu⟩ : ∃ u, setNet s (8 + c) 1 = u := ⟨_, rfl⟩
  rw [hu] at hstate hxcvr hsleeps hset hsame
  obtain ⟨hcarry, hsleep, hkept, hcount, hlin, hobs⟩ := setXcvr_sleeps u c hc
  obtain ⟨w, hw⟩ : ∃ w, setXcvr u (8 + c) 3 = w := ⟨_, rfl⟩
  rw [hw] at hcarry hsleep hkept hcount hlin hobs
  have hcommits : linCommit s (8 + c) = (w.onLin c fun x => { x with asleep := true, header := none }).onNet (8 + c) fun x =>
      { x with sleeps := satAdd32 x.sleeps 1, wbsAt := none } := by
    unfold linCommit
    rw [if_neg hawake, hu, hw, Nat.add_sub_cancel_left]
  have hnet : netOf (linCommit s (8 + c)) (8 + c) = { netOf w (8 + c) with sleeps := satAdd32 (netOf w (8 + c)).sleeps 1, wbsAt := none } := by
    rw [hcommits]
    exact onNet_same _ _ _ (by omega)
  have hlast : KeepsItems w (linCommit s (8 + c)) := keepsItems_of_landings (by rw [hcommits]; rfl)
  refine ⟨?_, ?_, ?_, ?_, ?_, ?_, fun hnew => ?_⟩
  · rw [hcommits]
    exact (hsame.carries.trans hcarry).same rfl
  · rw [hnet]
    exact hkept.trans hstate
  · rw [hnet]
    exact hsleep
  · rw [hnet, ← hsleeps, ← hcount]
  · have hkeptLin : linAt u c = linAt s c := by simp only [linAt, hsame.bus]
    rw [hkeptLin] at hlin
    rw [hcommits, ← hlin]
    exact onLin_same w c _ hc
  · have hsource : 40 + c = 32 + (8 + c) := by omega
    rw [hsource]
    exact Observed.mono (Observed.mono hset hcarry.items) hlast
  · rw [← ev_of_reach hsame.carries.reach]
    exact Observed.of_reach (Observed.mono (hobs (by rw [hxcvr]; exact hnew)) hlast) hsame.carries.reach

end Sys2Proof.Machine

namespace Sys2Proof.Machine

open Sys2Proof.Claims

theorem linAt_of_bus {s t : State} (h : t.bus = s.bus) (c : Nat) : linAt t c = linAt s c := by simp only [linAt, h]

theorem linCfgFor_congr {s t : State} {c : Nat} (hold : (linAt t c).old = (linAt s c).old) (hstore : t.store = s.store) (hnow : t.now = s.now) (bits : Nat) :
    linCfgFor t c bits = linCfgFor s c bits := by simp only [linCfgFor, linCfg, hold, hstore, hnow]

theorem extract_congr {s t : State} (hstore : t.store = s.store) (first count : Nat) (data : List Byte) : extract t first count data = extract s first count data := by
  have hsig (i : Nat) : sigOf t i = sigOf s i := by simp only [sigOf, hstore]
  have hmux (g : SigDef) : muxHolds t first count g data = muxHolds s first count g data := by simp only [muxHolds, hsig]
  simp only [extract, hsig, hmux]

/-- A controller that has seen its bus active, with what its network makes of the frame (R292, R294). -/
theorem linSeen (s : State) (c : Nat) (hc : c < 6) : ∃ u, nmAnyFrame (linActive s c) (8 + c) = u ∧ Carries s u ∧ u.store = s.store ∧ u.now = s.now ∧
    linAt u c = { linAt s c with lastBus := s.now } := by
  have hsame := sameBus_nmAnyFrame (linActive s c) c
  refine ⟨_, rfl, Carries.trans ?_ hsame.carries, hsame.store, hsame.now, ?_⟩
  · exact (Carries.refl s).onLin
  · rw [linAt_of_bus hsame.bus]
    exact onLin_same s c _ hc

/-- A subscribed response that is stored (R232, R254). -/
theorem linDeliver_stores (s : State) (c id : Nat) (data : List Byte) (e : LinEntry) (hc : c < 6)
    (he : e = Tbl.get (linCfgFor s c (linBits data.length)).entries {} id) (hwf : Tbl.wf {} (linAt s c).ram = true) :
    (linAt (linDeliver s c id data) c).rxFrames = satAdd32 (linAt s c).rxFrames 1 ∧ (linAt (linDeliver s c id data) c).lastBus = (linAt s c).lastBus ∧
      (Tbl.get (linAt (linDeliver s c id data) c).ram {} id).data = data ∧
      (Tbl.get (linAt (linDeliver s c id data) c).ram {} id).seq = 2 * ((Tbl.get (linAt s c).ram {} id).seq / 2 + 1) % 2 ^ 32 ∧
      Observed s (linDeliver s c id data) 6 (8 + c) ((extract s e.sigFirst e.sigCount data).1.map fun w => (sigPoint w.1, w.2))
        (if e.notify = true then [s.ev 6 0x0710 (c + 8 * id) (((Tbl.get (linAt s c).ram {} id).seq / 2 + 1) % 65536)] else []) ∧
      Carries s (linDeliver s c id data) := by
  obtain ⟨entry, hentry⟩ : ∃ entry : RxEntry, { seq := 2 * ((Tbl.get (linAt s c).ram {} id).seq / 2 + 1) % 2 ^ 32, word := id, stamp := s.wallStamp.word
                                                len := data.length, element := 0xFFFF, data := data } = entry := ⟨_, rfl⟩
  obtain ⟨u, hu⟩ : ∃ u, (meterAdd (bump s 0x0B (8 + c) 1) (16 + c) (linBits data.length) 0).onLin c (fun x =>
      { x with rxFrames := satAdd32 x.rxFrames 1, ram := Tbl.put x.ram {} id entry }) = u := ⟨_, rfl⟩
  have hlin : linAt u c = { linAt s c with rxFrames := satAdd32 (linAt s c).rxFrames 1, ram := Tbl.put (linAt s c).ram {} id entry } := by
    rw [← hu, onLin_same _ c _ hc]
    rfl
  have hcarry : Carries s u := by
    rw [← hu]
    exact .of_plane rfl
  have hstore : u.store = s.store := by
    rw [← hu]
    rfl
  have hdelivers : linDeliver s c id data = observe u 6 (8 + c) ((extract u e.sigFirst e.sigCount data).1.map fun w => (sigPoint w.1, w.2))
      (if e.notify = true then [u.ev 6 0x0710 (c + 8 * id) (((Tbl.get (linAt s c).ram {} id).seq / 2 + 1) % 65536)] else [])
      [frameCap (c + 8) { id := id, len := data.length, data := data }] := by
    rw [← hu, ← hentry, he]
    rfl
  have hafter : linAt (linDeliver s c id data) c = linAt u c := by rw [hdelivers, linAt_of_bus (observe_bus ..)]
  have hram : Tbl.get (linAt u c).ram {} id = entry := by
    rw [hlin]
    exact Tbl.get_put_same _ _ _ _ hwf
  rw [hafter, hram, hlin, ← hentry]
  refine ⟨rfl, rfl, rfl, rfl, ?_, ?_⟩
  · have hobs := observe_observed u 6 (8 + c) ((extract u e.sigFirst e.sigCount data).1.map fun w => (sigPoint w.1, w.2))
      (if e.notify = true then [u.ev 6 0x0710 (c + 8 * id) (((Tbl.get (linAt s c).ram {} id).seq / 2 + 1) % 65536)] else [])
      [frameCap (c + 8) { id := id, len := data.length, data := data }]
    rw [← hdelivers, extract_congr hstore, ev_of_reach hcarry.reach] at hobs
    exact Observed.of_reach hobs hcarry.reach
  · rw [hdelivers]
    exact hcarry.observe

theorem linFrameAccept_stores (c id : Nat) (data : List Byte) (g : LinCfg) (e : LinEntry) (s : State) (hc : c < 6) (hlive : cutOff s = false)
    (hawake : linAwake s c = true) (hg : g = linCfgFor s c (linBits data.length)) (he : e = Tbl.get g.entries {} id) (hsub : e.dir = 2)
    (hlen : e.len = data.length) (hwf : Tbl.wf {} (linAt s c).ram = true) :
    ∃ t, exec (.linFrameAccept c id data) s = .next t ∧ (linAt t c).rxFrames = satAdd32 (linAt s c).rxFrames 1 ∧ (linAt t c).lastBus = s.now ∧
      (Tbl.get (linAt t c).ram {} id).data = data ∧
      (Tbl.get (linAt t c).ram {} id).seq = 2 * ((Tbl.get (linAt s c).ram {} id).seq / 2 + 1) % 2 ^ 32 ∧
      Observed s t 6 (8 + c) ((extract s e.sigFirst e.sigCount data).1.map fun w => (sigPoint w.1, w.2))
        (if e.notify = true then [s.ev 6 0x0710 (c + 8 * id) (((Tbl.get (linAt s c).ram {} id).seq / 2 + 1) % 65536)] else []) := by
  obtain ⟨u, hu, hcarry, hstore, hnow, hlin⟩ := linSeen s c hc
  have hcfg : linCfgFor u c (linBits data.length) = g := by
    rw [hg]
    exact linCfgFor_congr (by rw [hlin]) hstore hnow _
  obtain ⟨hrx, hbus, hdata, hseq, hobs, hmore⟩ := linDeliver_stores u c id data e hc (by rw [hcfg]; exact he) (by rw [hlin]; exact hwf)
  rw [hlin] at hrx hbus hseq hobs
  rw [extract_congr hstore, ev_of_reach hcarry.reach] at hobs
  obtain ⟨w, hw⟩ : ∃ w, linDeliver u c id data = w := ⟨_, rfl⟩
  rw [hw] at hrx hbus hdata hseq hobs hmore
  have haccepts : ∃ b : Bool, linAccept s c id data = if b = true then linCommit w (8 + c) else w := by
    have hstep : (if e.dir = 2 ∧ e.len = data.length then linDeliver u c id data else u) = w := (if_pos ⟨hsub, hlen⟩).trans hw
    refine ⟨isGoToSleep id data && (g.role == 2) && ((netCfg w (8 + c)).mode == 3) && !latchedBefore w, ?_⟩
    unfold linAccept
    rw [if_neg (by rw [hawake]; decide), hu]
    dsimp only
    rw [hcfg, ← he, hstep]
    simp only [Bool.and_eq_true, beq_iff_eq, and_assoc, Bool.not_eq_true']
  have hkept (b : Bool) : (if b = true then linCommit w (8 + c) else w).reach = w.reach ∧ KeepsItems w (if b = true then linCommit w (8 + c) else w) ∧
      ∃ a h, linAt (if b = true then linCommit w (8 + c) else w) c = { linAt w c with asleep := a, header := h } := by
    by_cases hb : b = true
    · rw [if_pos hb]
      by_cases hstate : (netOf w (8 + c)).state = 1
      · rw [linCommit, if_pos hstate]
        exact ⟨rfl, fun _ _ hx => hx, _, _, rfl⟩
      · obtain ⟨hc', -, -, -, hlin', -, -⟩ := linCommit_commits w c hc hstate
        exact ⟨hc'.reach, hc'.items, _, _, hlin'⟩
    · rw [if_neg hb]
      exact ⟨rfl, fun _ _ hx => hx, _, _, rfl⟩
  obtain ⟨b, hb⟩ := haccepts
  obtain ⟨-, hitems, a, h, hend⟩ := hkept b
  refine ⟨(if b = true then linCommit w (8 + c) else w).withPending s.pending, ?_, ?_⟩
  · refine congrArg (effect s) ((if_neg ?_).trans hb)
    rw [hlive]
    decide
  · rw [linAt_withPending, hend]
    exact ⟨hrx, hbus, hdata, hseq, Observed.mono (Observed.of_reach hobs hcarry.reach) hitems⟩

/-- A stored response changes neither a network, nor the store, nor the time. -/
theorem linDeliver_leaves (s : State) (c id : Nat) (data : List Byte) :
    (linDeliver s c id data).sleep = s.sleep ∧ (linDeliver s c id data).store = s.store ∧ (linDeliver s c id data).now = s.now := by
  unfold linDeliver
  dsimp only
  exact ⟨observe_sleep .., observe_store .., observe_now ..⟩

theorem linFrameAccept_sleeps (c id : Nat) (data : List Byte) (g : LinCfg) (s : State) (hc : c < 6) (hlive : cutOff s = false)
    (hawake : linAwake s c = true) (hg : g = linCfgFor s c (linBits data.length)) (hsleep : isGoToSleep id data = true) (hrole : g.role = 2)
    (hfollow : (netCfg s (8 + c)).mode = 3) (hquiet : latchedBefore s = false) (hstate : (netOf s (8 + c)).state ≠ 1) :
    ∃ t, exec (.linFrameAccept c id data) s = .next t ∧ (netOf t (8 + c)).state = 1 ∧ (netOf t (8 + c)).xcvr = 3 ∧ (linAt t c).asleep = true ∧
      (netOf t (8 + c)).sleeps = satAdd32 (netOf s (8 + c)).sleeps 1 := by
  have hseen : nmAnyFrame (linActive s c) (8 + c) = linActive s c := by
    refine if_neg fun h => ?_
    have hmode : (netCfg (linActive s c) (8 + c)).mode = 3 := hfollow
    omega
  have hcfg : linCfgFor (linActive s c) c (linBits data.length) = g := by
    rw [hg]
    exact linCfgFor_congr (s := s) (t := linActive s c) (congrArg Lin.old (onLin_same s c _ hc) :) rfl rfl _
  obtain ⟨e, he⟩ : ∃ e, Tbl.get g.entries {} id = e := ⟨_, rfl⟩
  obtain ⟨w, hw⟩ : ∃ w, (if e.dir = 2 ∧ e.len = data.length then linDeliver (linActive s c) c id data else linActive s c) = w := ⟨_, rfl⟩
  have hkept : w.sleep = s.sleep ∧ w.store = s.store ∧ w.now = s.now := by
    rw [← hw]
    split
    · exact linDeliver_leaves (linActive s c) c id data
    · exact ⟨rfl, rfl, rfl⟩
  obtain ⟨hnets, hstore, hnow⟩ := hkept
  have hnet (n : Nat) : netOf w n = netOf s n := by simp only [netOf, hnets]
  have hmode : (netCfg w (8 + c)).mode = 3 := by
    simp only [netCfg, hstore]
    exact hfollow
  have hnone : latchedBefore w = false := by
    simp only [latchedBefore, hnets, hnow]
    exact hquiet
  have hcommits : linAccept s c id data = linCommit w (8 + c) := by
    unfold linAccept
    rw [if_neg (by rw [hawake]; decide), hseen]
    dsimp only
    rw [hcfg, he, hw]
    exact if_pos ⟨hsleep, hrole, hmode, by rw [hnone]; rfl⟩
  obtain ⟨-, hend, hxcvr, hcount, hlin, -, -⟩ := linCommit_commits w c hc (by rw [hnet]; exact hstate)
  refine ⟨(linCommit w (8 + c)).withPending s.pending, congrArg (effect s) ((if_neg (by rw [hlive]; decide)).trans hcommits), ?_⟩
  rw [netOf_withPending, linAt_withPending, hlin, ← hnet]
  exact ⟨hend, hxcvr, rfl, hcount⟩

/-! Completions of LIN sends. -/

@[simp] theorem completeNow_bus (s : State) (p : Packet) (st : Status) (r : Reply) : (completeNow s p st r).bus = s.bus :=
  (congrArg State.bus (completeNow_beyondReply s p st r) :)

/-- A completion stands while later packets complete. -/
theorem completed_completeNow {p q : Packet} {st st' : Status} {r : Reply} {s t : State} (h : Completed p st s t) : Completed p st s (completeNow t q st' r) := by
  unfold Completed at h ⊢
  rw [completeNow_results]
  exact List.mem_cons_of_mem _ h

/-- Sends that end one after the other: their completions. -/
def endWaits (st : LinWait → Status) (l : List LinWait) (s : State) : State := l.foldl (fun s w => completeNow s w.packet (st w) []) s

theorem endWaits_bus (st : LinWait → Status) (l : List LinWait) (s : State) : (endWaits st l s).bus = s.bus :=
  foldl_keeps State.bus _ (fun u _ => completeNow_bus u ..) l s

theorem endWaits_store (st : LinWait → Status) (l : List LinWait) (s : State) : (endWaits st l s).store = s.store :=
  foldl_keeps State.store _ (fun u _ => completeNow_store u ..) l s

theorem endWaits_clock (st : LinWait → Status) (l : List LinWait) (s : State) : (endWaits st l s).clock = s.clock :=
  foldl_keeps State.clock _ (fun u _ => completeNow_clock u ..) l s

theorem completed_endWaits {p : Packet} {st : LinWait → Status} {st' : Status} {s t : State} {l : List LinWait} (h : Completed p st' s t) :
    Completed p st' s (endWaits st l t) :=
  List.foldlRecOn (motive := fun u : State => Completed p st' s u) l _ h fun _ hu _ _ => completed_completeNow hu

theorem endWaits_completes (st : LinWait → Status) (l : List LinWait) (s : State) : ∀ w ∈ l, Completed w.packet (st w) s (endWaits st l s) := by
  induction l generalizing s with
  | nil => exact fun w hw => absurd hw List.not_mem_nil
  | cons v vs ih =>
    intro w hw
    obtain rfl | hrest := List.mem_cons.1 hw
    · exact completed_endWaits (st := st) (l := vs) (completeNow_completed s w.packet (st w) [])
    · exact Completed.of_clock (ih (completeNow s v.packet (st v) []) w hrest) (completeNow_clock ..)

/-- Every send of an identifier completes, and none of them waits then (LIN.SEND). -/
theorem linConfirm_confirms (s : State) (c id : Nat) (hc : c < 6) :
    linAt (linConfirm s c id) c = { linAt s c with waits := (linAt s c).waits.filter fun w => !(w.id == id) } ∧
      ∀ w ∈ (linAt s c).waits, w.id = id → Completed w.packet (lateStatus w.late .ok) s (linConfirm s c id) := by
  have hconfirms : linConfirm s c id = endWaits (fun w => lateStatus w.late .ok) ((linAt s c).waits.filter fun w => w.id == id)
      (s.onLin c fun x => { x with waits := x.waits.filter fun w => !(w.id == id) }) := rfl
  rw [hconfirms]
  refine ⟨?_, fun w hw hid => ?_⟩
  · rw [linAt_of_bus (endWaits_bus ..)]
    exact onLin_same s c _ hc
  · exact Completed.of_clock (endWaits_completes _ _ _ w (List.mem_filter.2 ⟨hw, beq_iff_eq.2 hid⟩)) rfl

theorem linHeaderPublish_answers (c id : Nat) (g : LinCfg) (e : LinEntry) (src : Nat) (s : State) (hc : c < 6) (hawake : linAwake s c = true)
    (hnormal : (netOf s (8 + c)).xcvr = 0) (hg : g = linCfgFor s c 34) (he : e = Tbl.get g.entries {} id) (hsrc : src = if e.eventOf = 1 then e.assoc else id)
    (hheader : g.role = 1 → (linAt s c).header = some id) (hslave : g.role = 1 → id = 60 → (linAt s c).master = none) (hdir : e.dir = 1 ∨ e.eventOf = 1)
    (hwritten : (Tbl.get (linAt s c).pub {} src).written = true) (hevent : e.eventOf = 1 → (Tbl.get (linAt s c).pub {} src).event = true) :
    ∃ t, exec (.linHeaderPublish c id) s = .next t ∧ (linAt t c).txFrames = satAdd32 (linAt s c).txFrames 1 ∧
      (linAt t c).sporadic.contains id = false ∧ (∀ w ∈ (linAt s c).waits, w.id = src → Completed w.packet (lateStatus w.late .ok) s t) ∧
      ∀ w ∈ (linAt t c).waits, w.id ≠ src := by
  have hanswers : linPublish s c id = linSent (linActive s c) c id src := by
    have hsource : linSource e id = src := hsrc.symm
    unfold linPublish
    dsimp only
    rw [← hg, ← he, hsource, if_neg, if_neg, if_pos ⟨hdir, hwritten, hevent⟩]
    · rintro ⟨hrole, hid, hmaster⟩
      rw [hslave (beq_iff_eq.1 hrole) hid] at hmaster
      exact Bool.false_ne_true hmaster
    · rintro (hno | hno | ⟨hrole, hno⟩)
      · rw [hawake] at hno
        exact Bool.false_ne_true hno
      · exact hno hnormal
      · exact hno (hheader (beq_iff_eq.1 hrole))
  obtain ⟨u, hu⟩ : ∃ u, (meterAdd (bump (linActive s c) 0x0B (24 + c) 1) (16 + c) 0 (linBits (linEntry (linActive s c) c id).len)).onLin c (fun x => { x with
      txFrames := satAdd32 x.txFrames 1, sporadic := x.sporadic.filter fun i => !(i == id)
      pub := Tbl.put x.pub {} src { Tbl.get x.pub {} src with event := false } }) = u := ⟨_, rfl⟩
  have hlin : linAt u c = { linAt s c with
      lastBus := s.now, txFrames := satAdd32 (linAt s c).txFrames 1, sporadic := (linAt s c).sporadic.filter fun i => !(i == id)
      pub := Tbl.put (linAt s c).pub {} src { Tbl.get (linAt s c).pub {} src with event := false } } := by
    have hactive : linAt (linActive s c) c = { linAt s c with lastBus := s.now } := onLin_same s c _ hc
    rw [← hu, onLin_same _ c _ hc]
    exact congrArg (fun x : Lin => { x with
      txFrames := satAdd32 x.txFrames 1, sporadic := x.sporadic.filter fun i => !(i == id)
      pub := Tbl.put x.pub {} src { Tbl.get x.pub {} src with event := false } }) hactive
  have hclock : u.clock = s.clock := by
    rw [← hu]
    rfl
  have hsends : linSent (linActive s c) c id src = linConfirm u c src := congrArg (fun v => linConfirm v c src) hu
  obtain ⟨hafter, hdone⟩ := linConfirm_confirms u c src hc
  refine ⟨(linConfirm u c src).withPending s.pending, congrArg (effect s) (hanswers.trans hsends), ?_⟩
  rw [linAt_withPending, hafter, hlin]
  rw [hlin] at hdone
  refine ⟨rfl, ?_, fun w hw hid => Completed.of_clock (hdone w hw hid) hclock, fun w hw hid => ?_⟩
  · simp
  · obtain ⟨-, hne⟩ := List.mem_filter.1 hw
    simp [hid] at hne

theorem linHeaderPublish_commands (c id : Nat) (g : LinCfg) (s : State) (hc : c < 6) (hawake : linAwake s c = true)
    (hnormal : (netOf s (8 + c)).xcvr = 0) (hg : g = linCfgFor s c 34) (hheader : g.role = 1 → (linAt s c).header = some id) (hrole : g.role = 1)
    (hid : id = 60) (hmaster : (linAt s c).master.isSome = true) :
    ∃ t, exec (.linHeaderPublish c id) s = .next t ∧ (linAt t c).txFrames = satAdd32 (linAt s c).txFrames 1 ∧ (linAt t c).master = none ∧
      ∀ w ∈ (linAt s c).waits, w.id = 60 → Completed w.packet (lateStatus w.late .ok) s t := by
  obtain ⟨u, hu⟩ : ∃ u, linActive (s.onLin c fun x => { x with master := none, txFrames := satAdd32 x.txFrames 1 }) c = u := ⟨_, rfl⟩
  have hcommands : linPublish s c id = linConfirm u c 60 := by
    unfold linPublish
    dsimp only
    rw [← hg, if_neg, if_pos ⟨beq_iff_eq.2 hrole, hid, hmaster⟩, hu]
    rintro (hno | hno | ⟨-, hno⟩)
    · rw [hawake] at hno
      exact Bool.false_ne_true hno
    · exact hno hnormal
    · exact hno (hheader hrole)
  have hlin : linAt u c = { linAt s c with master := none, txFrames := satAdd32 (linAt s c).txFrames 1, lastBus := s.now } := by
    have hstart := onLin_same s c (fun x => { x with master := none, txFrames := satAdd32 x.txFrames 1 }) hc
    rw [← hu, linActive, onLin_same _ c _ hc]
    exact congrArg (fun x : Lin => { x with lastBus := s.now }) hstart
  have hclock : u.clock = s.clock := by
    rw [← hu]
    rfl
  obtain ⟨hafter, hdone⟩ := linConfirm_confirms u c 60 hc
  refine ⟨(linConfirm u c 60).withPending s.pending, congrArg (effect s) hcommands, ?_⟩
  rw [linAt_withPending, hafter, hlin]
  rw [hlin] at hdone
  exact ⟨rfl, rfl, fun w hw hid => Completed.of_clock (hdone w hw hid) hclock⟩

end Sys2Proof.Machine

namespace Sys2Proof.Machine

open Sys2Proof.Claims

/-! Schedules, errors and timeouts of LIN controllers (R249, R255, R257). -/

theorem linScheduleSlot_sends (c tb : Nat) (g : LinSlot) (s : State) (hc : c < 6) (hruns : linRuns s c = true) (hrole : (linCfg s c).role = 1)
    (hdue : (linAt s c).slotAt ≤ s.now) (hpending : (linAt s c).pendingTable = none) (htable : (linAt s c).table = some tb)
    (hslot : (linTable s c tb)[(linAt s c).ix]? = some g) :
    ∃ t, exec (.linScheduleSlot c) s = .next t ∧ (linAt t c).header = (if slotSends (linAt s c) g = true then some g.id else none) ∧
      (linAt t c).ix = (linAt s c).ix + 1 ∧ (linAt t c).table = some tb ∧ (linAt t c).resolve = (if g.type = 1 then some g.resolve else none) ∧
      (linAt t c).slotAt = (if s.now < (linAt s c).slotAt + 8000 then (linAt s c).slotAt else s.now / 8000 * 8000) + 8000 * g.ms := by
  have htake : takePending (linAt s c) = linAt s c := by
    unfold takePending
    rw [hpending]
  have hwithin : (linAt s c).ix < (linTable s c tb).length := (List.getElem?_eq_some_iff.1 hslot).1
  have hwrap : wrapTable s c (linAt s c) = linAt s c := by
    unfold wrapTable
    rw [htable]
    exact if_pos hwithin
  obtain ⟨y, hy⟩ : ∃ y : Lin, { linAt s c with
    table := some tb, ix := (linAt s c).ix + 1
    slotAt := (if s.now < (linAt s c).slotAt + 8000 then (linAt s c).slotAt else s.now / 8000 * 8000) + msTicks g.ms
    header := if slotSends (linAt s c) g = true then some g.id else none
    resolve := if g.type = 1 then some g.resolve else none
    lastBus := if slotSends (linAt s c) g = true then s.now else (linAt s c).lastBus } = y := ⟨_, rfl⟩
  have hsends : linSlot s c = s.onLin c fun _ => y := by
    unfold linSlot
    dsimp only
    rw [if_neg, htake, hwrap, htable]
    · dsimp only
      rw [hslot, ← hy]
    · rw [hruns, hrole]
      simp only [Bool.not_true, Bool.false_eq_true, ne_eq, not_true_eq_false, false_or]
      omega
  refine ⟨(s.onLin c fun _ => y).withPending s.pending, congrArg (effect s) hsends, ?_⟩
  rw [linAt_withPending, onLin_same s c _ hc, ← hy]
  refine ⟨rfl, rfl, rfl, rfl, ?_⟩
  dsimp only
  rw [msTicks, Nat.mul_comm g.ms]

theorem linScheduleSlot_stops (c : Nat) (s : State) (hc : c < 6) (hruns : linRuns s c = true) (hrole : (linCfg s c).role = 1)
    (hdue : (linAt s c).slotAt ≤ s.now) (hpending : (linAt s c).pendingTable = some none) :
    ∃ t, exec (.linScheduleSlot c) s = .next t ∧ (linAt t c).table = none ∧ (linAt t c).header = none ∧ (linAt t c).pendingTable = none := by
  obtain ⟨y, hy⟩ : ∃ y : Lin, { linAt s c with table := none, ix := 0, resume := none, pendingTable := none, header := none, resolve := none } = y := ⟨_, rfl⟩
  have htake : takePending (linAt s c) = y := by
    unfold takePending
    rw [hpending, ← hy]
  have hnone : y.table = none := by rw [← hy]
  have hwrap : wrapTable s c y = y := by
    unfold wrapTable
    rw [hnone]
  have hstops : linSlot s c = s.onLin c fun _ => { y with header := none, resolve := none } := by
    unfold linSlot
    dsimp only
    rw [if_neg, htake, hwrap, hnone]
    rw [hruns, hrole]
    simp only [Bool.not_true, Bool.false_eq_true, ne_eq, not_true_eq_false, false_or]
    omega
  refine ⟨(s.onLin c fun _ => { y with header := none, resolve := none }).withPending s.pending, congrArg (effect s) hstops, ?_⟩
  rw [linAt_withPending, onLin_same s c _ hc, ← hy]
  exact ⟨rfl, rfl, rfl⟩

theorem errs_runResolution (x : Lin) (id : Nat) : (runResolution x id).errs = x.errs := by
  unfold runResolution
  split
  · split <;> rfl
  · rfl

theorem linError_counts (c id code : Nat) (s : State) (hc : c < 6) (hawake : linAwake s c = true) (hleast : 1 ≤ code) (hmost : code ≤ 6) :
    ∃ t, exec (.linError c id code) s = .next t ∧ vget (linAt t c).errs (code - 1) = satAdd32 (vget (linAt s c).errs (code - 1)) 1 ∧
      (∀ k, k ≠ code - 1 → vget (linAt t c).errs k = vget (linAt s c).errs k) ∧ Observed s t 6 (8 + c) [] [s.ev 6 0x0711 (c + 8 * id) code] := by
  obtain ⟨u, hu⟩ : ∃ u, (bump s 0x0B (40 + c) 1).onLin c (fun x =>
      if code = 2 ∨ code = 3 ∨ code = 6 then runResolution { x with errs := vmod x.errs (code - 1) fun n => satAdd32 n 1 } id
      else { x with errs := vmod x.errs (code - 1) fun n => satAdd32 n 1 }) = u := ⟨_, rfl⟩
  have herrs : (linAt u c).errs = vmod (linAt s c).errs (code - 1) fun n => satAdd32 n 1 := by
    have hlin : linAt (bump s 0x0B (40 + c) 1) c = linAt s c := rfl
    rw [← hu, onLin_same _ c _ hc, hlin]
    split
    · exact errs_runResolution ..
    · rfl
  have hreach : u.reach = s.reach := by
    rw [← hu]
    rfl
  have hcounts : linError s c id code = busEvent u (8 + c) 0x0711 (c + 8 * id) code := by
    unfold linError
    dsimp only
    rw [if_neg, hu]
    rw [hawake]
    simp only [Bool.not_true, Bool.false_eq_true, false_or]
    omega
  have hbus : (busEvent u (8 + c) 0x0711 (c + 8 * id) code).bus = u.bus := observe_bus ..
  refine ⟨(busEvent u (8 + c) 0x0711 (c + 8 * id) code).withPending s.pending, congrArg (effect s) hcounts, ?_⟩
  rw [linAt_withPending, linAt_of_bus hbus, herrs]
  exact ⟨vget_vmod_same _ _ _ (by omega), fun k hk => vget_vmod_ne _ _ _ _ hk.symm,
    Observed.mono (busEvent_observed hreach (8 + c) 0x0711 (c + 8 * id) code) fun _ _ hx => hx⟩

theorem linTimeout_ends (c : Nat) (w : LinWait) (sof : Bool) (s : State) (hc : c < 6)
    (hw : ((linAt s c).waits.find? fun v => v.handle == w.handle && v.timeoutAt ≤ s.now) = some w) :
    ∃ t, exec (.txTimeoutExpiry (8 + c) ⟨w.handle, sof⟩) s = .next t ∧ Completed w.packet (lateStatus w.late .timeout) s t ∧
      ∀ v ∈ (linAt t c).waits, v.handle ≠ w.handle := by
  obtain ⟨u, hu⟩ : ∃ u, s.onLin c (fun x => { x with waits := x.waits.filter fun v => !(v.handle == w.handle) }) = u := ⟨_, rfl⟩
  have hends : linTimeout s c w.handle = completeNow u w.packet (lateStatus w.late .timeout) [] := by
    unfold linTimeout
    rw [hw, ← hu]
  have hlin : linAt u c = { linAt s c with waits := (linAt s c).waits.filter fun v => !(v.handle == w.handle) } := by
    rw [← hu]
    exact onLin_same s c _ hc
  have hclock : u.clock = s.clock := by
    rw [← hu]
    rfl
  refine ⟨(completeNow u w.packet (lateStatus w.late .timeout) []).withPending s.pending, ?_, ?_, fun v hv hsame => ?_⟩
  · refine congrArg (effect s) ((if_neg (by omega)).trans ?_)
    dsimp only
    rw [Nat.add_sub_cancel_left]
    exact hends
  · exact Completed.of_clock (completeNow_completed u w.packet (lateStatus w.late .timeout) []) hclock
  · rw [linAt_withPending, linAt_of_bus (completeNow_bus ..), hlin] at hv
    obtain ⟨-, hne⟩ := List.mem_filter.1 hv
    simp [hsame] at hne

theorem linResponderIdle_commits (c : Nat) (s : State) (hc : c < 6) (hrole : (linCfg s c).role = 2) (hfollow : (netCfg s (8 + c)).mode = 3)
    (hidle : (linAt s c).lastBus + msTicks 4000 ≤ s.now) (hquiet : latchedBefore s = false) (hstate : (netOf s (8 + c)).state ≠ 1)
    (hxcvr : (netOf s (8 + c)).xcvr ≠ 3) :
    ∃ t, exec (.linResponderIdle c) s = .next t ∧ (netOf t (8 + c)).state = 1 ∧ (netOf t (8 + c)).xcvr = 3 ∧ (linAt t c).asleep = true ∧
      (netOf t (8 + c)).sleeps = satAdd32 (netOf s (8 + c)).sleeps 1 ∧ Observed s t 6 (40 + c) [] [s.ev 6 0x0901 (8 + c) 1] ∧
      Observed s t 6 (40 + c) [] [s.ev 6 0x0903 (8 + c) 3] := by
  obtain ⟨-, hend, hsleep, hcount, hlin, hposted, hslept⟩ := linCommit_commits s c hc hstate
  have hcommits : responderIdle s c = linCommit s (8 + c) := if_pos ⟨hrole, hfollow, hidle, by rw [hquiet]; rfl⟩
  refine ⟨(linCommit s (8 + c)).withPending s.pending, congrArg (effect s) hcommits, ?_⟩
  rw [netOf_withPending, linAt_withPending, hlin]
  exact ⟨hend, hsleep, rfl, hcount, Observed.mono hposted fun _ _ hx => hx, Observed.mono (hslept hxcvr) fun _ _ hx => hx⟩

/-! LIN.SEND at its hand-over (R243, R255, R256). -/

theorem linAt_onLin_other (s : State) (c k : Nat) (f : Lin → Lin) (h : c ≠ k) : linAt (s.onLin c f) k = linAt s k := onLin_other s c k f h

theorem frameHandover_ready (s : State) (sof : Bool) (x : L4Item) (l : List L4Item) (p : Packet) (late : Bool) (hqueue : s.bus.l4 = x :: l)
    (hdue : x.lin < s.plane.lin) (hkind : x.kind = .linSend p late) :
    frameHandover s sof = linSendNow (s.onBus fun b => { b with l4 := l }) p late := by
  unfold frameHandover
  rw [hqueue]
  dsimp only
  rw [if_neg (by omega), hkind]

/-- A request that is no master request is taken: its buffer is written. -/
theorem linHand_writes (s : State) (q : LinReq) (event : Bool) (hc : q.c < 6) (hmaster : q.isMaster s = false) (hlive : dryReplay s = false)
    (hwf : Tbl.wf {} (linAt s q.c).pub = true) :
    ∃ (u : State) (h : Nat), linHand s q event = (u, some h) ∧ u.clock = s.clock ∧ u.store = s.store ∧ u.now = s.now ∧ u.bus.l4 = s.bus.l4 ∧
      (linAt u q.c).waits = (linAt s q.c).waits ∧
      Tbl.get (linAt u q.c).pub {} q.id = { data := q.data, written := true, event := event } := by
  obtain ⟨w, hw⟩ : ∃ w, (linHandle s q).1 = w := ⟨_, rfl⟩
  have hlin : linAt w q.c = { linAt s q.c with handles := ((linAt s q.c).handles + 1) % 65536 } := by
    rw [← hw]
    exact onLin_same s q.c _ hc
  have hkept : w.clock = s.clock ∧ w.store = s.store ∧ w.now = s.now ∧ w.bus.l4 = s.bus.l4 ∧ dryReplay w = dryReplay s ∧ q.isMaster w = q.isMaster s := by
    rw [← hw]
    exact ⟨rfl, rfl, rfl, rfl, rfl, rfl⟩
  obtain ⟨hclock, hstore, hnow, hl4, hreplay, hkind⟩ := hkept
  obtain ⟨u, hu⟩ : ∃ u, w.onLin q.c (fun x => { x with
    pub := Tbl.put x.pub {} q.id { data := q.data, written := true, event := event }
    sporadic := if x.sporadic.contains q.id = true then x.sporadic else x.sporadic ++ [q.id] }) = u := ⟨_, rfl⟩
  have hend : linAt u q.c = { linAt w q.c with
      pub := Tbl.put (linAt w q.c).pub {} q.id { data := q.data, written := true, event := event }
      sporadic := if (linAt w q.c).sporadic.contains q.id = true then (linAt w q.c).sporadic else (linAt w q.c).sporadic ++ [q.id] } := by
    rw [← hu]
    exact onLin_same w q.c _ hc
  refine ⟨u, (linHandle s q).2, ?_, ?_, ?_, ?_, ?_, ?_, ?_⟩
  · unfold linHand
    rw [if_neg]
    · dsimp only
      rw [hw, if_neg, if_neg, hu]
      · rw [hkind, hmaster]
        decide
      · rw [hreplay, hlive]
        decide
    · rw [hmaster]
      exact fun h => Bool.false_ne_true h.1
  · rw [← hu]
    exact hclock
  · rw [← hu]
    exact hstore
  · rw [← hu]
    exact hnow
  · rw [← hu]
    exact hl4
  · rw [hend, hlin]
  · rw [hend]
    refine Tbl.get_put_same _ _ _ _ ?_
    rw [hlin]
    exact hwf

theorem frameHandover_linSend (sof : Bool) (p : Packet) (late : Bool) (q : LinReq) (x : L4Item) (l : List L4Item) (s : State) (hqueue : s.bus.l4 = x :: l)
    (hdue : x.lin < s.plane.lin) (hkind : x.kind = .linSend p late) (hq : q = linSendReq s p) (hc : q.c < 6) (hlive : dryReplay s = false)
    (hmaster : q.isMaster s = false) (hwf : Tbl.wf {} (linAt s q.c).pub = true) :
    ∃ t, exec (.frameHandover sof) s = .next t ∧ t.bus.l4 = l ∧ (Tbl.get (linAt t q.c).pub {} q.id).data = q.data ∧
      (Tbl.get (linAt t q.c).pub {} q.id).written = true ∧ (p.bit 16 4 = false → Completed p (lateStatus late .ok) s t) ∧
      (p.bit 16 4 = true → ∃ w ∈ (linAt t q.c).waits, w.packet = p ∧ w.id = q.id ∧ w.timeoutAt = s.now + msTicks (linCfg s q.c).txTimeout) := by
  obtain ⟨u, h, hhand, hclock, hstore, hnow, hl4, hwaits, hpub⟩ := linHand_writes (s.onBus fun b => { b with l4 := l }) q (p.bit 16 5) hc hmaster hlive hwf
  have hreq : linSendReq (s.onBus fun b => { b with l4 := l }) p = q := by rw [hq]; rfl
  have hready := frameHandover_ready s sof x l p late hqueue hdue hkind
  unfold linSendNow at hready
  rw [hreq] at hready
  dsimp only at hready
  rw [hhand] at hready
  dsimp only at hready
  by_cases hconfirm : p.bit 16 4 = true
  · obtain ⟨v, hv⟩ : ∃ v, u.onLin q.c (fun y => { y with
      waits := y.waits ++ [{ id := q.id, handle := h, packet := p, late := late, timeoutAt := u.now + msTicks (linCfg u q.c).txTimeout }] }) = v := ⟨_, rfl⟩
    have hlin : linAt v q.c = { linAt u q.c with
        waits := (linAt u q.c).waits ++ [{ id := q.id, handle := h, packet := p, late := late, timeoutAt := u.now + msTicks (linCfg u q.c).txTimeout }] } := by
      rw [← hv]
      exact onLin_same u q.c _ hc
    have hbus : v.bus.l4 = l := by
      rw [← hv]
      exact hl4
    rw [if_pos hconfirm, hv] at hready
    have hpending : (writePending v p).bus = v.bus := by
      obtain ⟨m, hm⟩ := writePending_only v p
      rw [hm]
    refine ⟨(writePending v p).withPending s.pending, congrArg (effect s) hready, ?_, ?_, ?_, ?_, ?_⟩
    · exact (congrArg Bus.l4 hpending).trans hbus
    · rw [linAt_withPending, linAt_of_bus hpending, hlin]
      exact congrArg LinPub.data hpub
    · rw [linAt_withPending, linAt_of_bus hpending, hlin]
      exact congrArg LinPub.written hpub
    · exact fun hno => absurd (hconfirm.symm.trans hno) (by decide)
    · intro _
      rw [linAt_withPending, linAt_of_bus hpending, hlin]
      refine ⟨_, List.mem_append_right _ (List.mem_singleton.2 rfl), rfl, rfl, ?_⟩
      simp only [linCfg, hstore, hnow]
      rfl
  · rw [if_neg hconfirm] at hready
    refine ⟨(completeNow u p (lateStatus late .ok) []).withPending s.pending, congrArg (effect s) hready, ?_, ?_, ?_, ?_, ?_⟩
    · exact (congrArg Bus.l4 (completeNow_bus ..)).trans hl4
    · rw [linAt_withPending, linAt_of_bus (completeNow_bus ..), hpub]
    · rw [linAt_withPending, linAt_of_bus (completeNow_bus ..), hpub]
    · exact fun _ => Completed.of_clock (completeNow_completed u p (lateStatus late .ok) []) hclock
    · exact fun h => absurd h hconfirm

theorem frameHandover_linBusy (sof : Bool) (p : Packet) (late : Bool) (q : LinReq) (x : L4Item) (l : List L4Item) (s : State) (hqueue : s.bus.l4 = x :: l)
    (hdue : x.lin < s.plane.lin) (hkind : x.kind = .linSend p late) (hq : q = linSendReq s p)
    (hmaster : q.isMaster s = true) (hwaits : (linAt s q.c).master.isSome = true) :
    ∃ t, exec (.frameHandover sof) s = .next t ∧ t.bus.l4 = l ∧ Completed p (lateStatus late .busy) s t ∧ t.bus.lin = s.bus.lin := by
  have hreq : linSendReq (s.onBus fun b => { b with l4 := l }) p = q := by rw [hq]; rfl
  have hready := frameHandover_ready s sof x l p late hqueue hdue hkind
  obtain ⟨u, hu⟩ : ∃ u, (s.onBus fun b => { b with l4 := l }) = u := ⟨_, rfl⟩
  have hnone : linHand u q (p.bit 16 5) = (u, none) := by
    rw [← hu]
    exact if_pos ⟨hmaster, hwaits⟩
  rw [hu] at hreq hready
  unfold linSendNow at hready
  rw [hreq] at hready
  dsimp only at hready
  rw [hnone] at hready
  dsimp only at hready
  refine ⟨(completeNow u p (lateStatus late .busy) []).withPending s.pending, congrArg (effect s) hready, ?_, ?_, ?_⟩
  · refine (congrArg Bus.l4 (completeNow_bus ..)).trans ?_
    rw [← hu]
    rfl
  · refine Completed.of_clock (completeNow_completed u p (lateStatus late .busy) []) ?_
    rw [← hu]
    rfl
  · refine (congrArg Bus.lin (completeNow_bus ..)).trans ?_
    rw [← hu]
    rfl

end Sys2Proof.Machine

namespace Sys2Proof.Machine

open Sys2Proof.Claims

/-! CAN.FILTER, CAN.SIGMAP and CAN.STATUS (Tables 09.14–09.16). -/

theorem canFilter_sets (p : Packet) (i : Nat) (s : State) (h : KeeperRuns canFilterOp p s) (hwrite : p.bit 16 0 = false) (hone : countOfPacket p = 1)
    (hi : i = firstOfPacket p) (hwf : Tbl.wf {} s.store.can.filter = true)
    (hagree : canStreamsAgree { s.store.can with filter := Tbl.put s.store.can.filter {} i (elemAt p 32) } = true) :
    ∃ t, exec (.canFilter p) s = .next t ∧ Completed p .ok s t ∧ filterAt t i = elemAt p 32 ∧ ∀ k, k ≠ i → filterAt t k = filterAt s k := by
  obtain ⟨u, hu⟩ : ∃ u, ((release s p).onStore fun st => { st with can := { st.can with filter := Tbl.put st.can.filter {} i (elemAt p 32) } }) = u := ⟨_, rfl⟩
  have hrun : canFilterOp.run p (release s p) = { s := u, reply := (canFilterOp.run p (release s p)).reply } := by
    refine Res.eq_of_parts ?_ rfl
    rw [← hu, hi]
    simp [canFilterOp, hwrite, hone]
  have hcan : u.store.can = { s.store.can with filter := Tbl.put s.store.can.filter {} i (elemAt p 32) } := by
    rw [← hu]
    rfl
  have hagrees : canFilterOp.agree p (release s p) u = true := by
    simp only [canFilterOp, hcan, hagree, Bool.or_true]
  obtain ⟨hexec, hdone⟩ := keeperTake_completes h rfl hrun hagrees (by rw [← hu]; rfl)
  refine ⟨_, hexec, hdone, ?_, fun k hk => ?_⟩
  · simp only [filterAt, State.withPending, completeNow_store, hcan]
    exact Tbl.get_put_same _ _ _ _ hwf
  · simp only [filterAt, State.withPending, completeNow_store, hcan]
    exact Tbl.get_put_ne _ _ _ _ _ hk.symm

theorem canSigmap_setsSignal (p : Packet) (i : Nat) (s : State) (h : KeeperRuns canSigmapOp p s) (hsig : smTemplate p = false) (hwrite : smWrites p = true)
    (hone : countOfPacket p = 1) (hi : i = firstOfPacket p) (hwf : Tbl.wf {} s.store.can.sig = true)
    (hmux : muxAgrees { s.store.can with sig := Tbl.put s.store.can.sig {} i (sigAt p 32) } = true) (hstreams : canStreamsAgree s.store.can = true) :
    ∃ t, exec (.canSigmap p) s = .next t ∧ Completed p .ok s t ∧ sigOf t i = sigAt p 32 ∧ t.store.can.tpl = s.store.can.tpl := by
  obtain ⟨u, hu⟩ : ∃ u, ((release s p).onStore fun st => { st with can := { st.can with sig := Tbl.put st.can.sig {} i (sigAt p 32) } }) = u := ⟨_, rfl⟩
  have hrun : canSigmapOp.run p (release s p) = { s := u, reply := (canSigmapOp.run p (release s p)).reply } := by
    refine Res.eq_of_parts ?_ ?_
    · rw [← hu, hi]
      simp [canSigmapOp, hsig, hwrite, hone]
    · simp [canSigmapOp, hsig]
  have hcan : u.store.can = { s.store.can with sig := Tbl.put s.store.can.sig {} i (sigAt p 32) } := by
    rw [← hu]
    rfl
  have hkept : canStreamsAgree u.store.can = true := by
    rw [hcan]
    exact hstreams
  have hagrees : canSigmapOp.agree p (release s p) u = true := by
    rw [← hcan] at hmux
    simp only [canSigmapOp, hmux, hkept, hsig, Bool.not_false, Bool.true_or, Bool.and_true, Bool.or_true]
  obtain ⟨hexec, hdone⟩ := keeperTake_completes h rfl hrun hagrees (by rw [← hu]; rfl)
  refine ⟨_, hexec, hdone, ?_, ?_⟩
  · simp only [sigOf, State.withPending, completeNow_store, hcan]
    exact Tbl.get_put_same _ _ _ _ hwf
  · simp only [State.withPending, completeNow_store, hcan]

theorem canSigmap_setsTemplate (p : Packet) (i : Nat) (s : State) (h : KeeperRuns canSigmapOp p s) (htpl : smTemplate p = true) (hwrite : smWrites p = true)
    (hused : (tplAt p).used = true) (hi : i = p.num 17 1) (hwf : Tbl.wf {} s.store.can.tpl = true) (hlen : (tplAt p).lenOk = true)
    (hmux : muxAgrees s.store.can = true) (hstreams : canStreamsAgree { s.store.can with tpl := Tbl.put s.store.can.tpl {} i (tplAt p) } = true) :
    ∃ t, exec (.canSigmap p) s = .next t ∧ Completed p .ok s t ∧ tplOf t i = tplAt p ∧ t.store.can.sig = s.store.can.sig := by
  obtain ⟨u, hu⟩ : ∃ u, ((release s p).onStore fun st => { st with can := { st.can with tpl := Tbl.put st.can.tpl {} i (tplAt p) } }) = u := ⟨_, rfl⟩
  have hrun : canSigmapOp.run p (release s p) = { s := u, reply := (canSigmapOp.run p (release s p)).reply } := by
    refine Res.eq_of_parts ?_ ?_
    · rw [← hu, hi]
      simp [canSigmapOp, htpl, hwrite, hused]
    · simp [canSigmapOp, htpl]
  have hcan : u.store.can = { s.store.can with tpl := Tbl.put s.store.can.tpl {} i (tplAt p) } := by
    rw [← hu]
    rfl
  have hkept : muxAgrees u.store.can = true := by
    rw [hcan]
    exact hmux
  have hsame : tplOf u i = tplAt p := by
    simp only [tplOf, hcan]
    exact Tbl.get_put_same _ _ _ _ hwf
  have hagrees : canSigmapOp.agree p (release s p) u = true := by
    rw [← hcan] at hstreams
    simp only [canSigmapOp, hkept, hstreams, ← hi, hsame, hlen, Bool.or_true, Bool.and_true]
  obtain ⟨hexec, hdone⟩ := keeperTake_completes h rfl hrun hagrees (by rw [← hu]; rfl)
  refine ⟨_, hexec, hdone, ?_, ?_⟩
  · simp only [tplOf, State.withPending, completeNow_store]
    exact hsame
  · simp only [State.withPending, completeNow_store, hcan]

theorem canOf_of_bus {s t : State} (h : t.bus = s.bus) (c : Nat) : canOf t c = canOf s c := by simp only [canOf, h]

theorem canStatus_can (p : Packet) (n : Nat) (s : State) (h : KeeperRuns canStatusOp p s) (hn : n = p.fld 16 0 4) (hcan : n < 8) :
    ∃ t, exec (.canStatus p) s = .next t ∧ Completed p .ok s t ∧ Replied p s t (canStatusReply s n) ∧
      (p.bit 16 4 = true → (canOf t n).rxFrames = 0 ∧ (canOf t n).txFrames = 0 ∧ (canOf t n).errors = 0 ∧ (canOf t n).clashes = 0) ∧
      (p.bit 16 4 = false → t.bus = s.bus) := by
  subst hn
  obtain ⟨u, hu⟩ : ∃ u, (if p.bit 16 4 = true then (release s p).onCan (p.fld 16 0 4) fun x => { x with
      rxFrames := 0, txFrames := 0, errors := 0, busoffs := 0, clashes := 0, authFail := 0, sigShort := 0, nonmatch := 0 }
    else release s p) = u := ⟨_, rfl⟩
  have hrun : canStatusOp.run p (release s p) = { s := u, reply := canStatusReply s (p.fld 16 0 4) } := by
    rw [← hu]
    exact if_pos hcan
  have hparts : u.clock = s.clock ∧ u.plane.rings = s.plane.rings ∧ u.plane.replay = s.plane.replay ∧ u.mem = s.mem := by
    rw [← hu]
    split <;> exact ⟨rfl, rfl, rfl, rfl⟩
  obtain ⟨hclock, hrings, hreplay, hmem⟩ := hparts
  obtain ⟨hexec, hdone⟩ := keeperTake_completes h rfl hrun rfl hclock
  refine ⟨_, hexec, hdone, Replied.of_same (completeNow_replied u p .ok _) hrings hreplay hmem, fun hclear => ?_, fun hkeep => ?_⟩
  · have hc : canOf u (p.fld 16 0 4) = { canOf s (p.fld 16 0 4) with
        rxFrames := 0, txFrames := 0, errors := 0, busoffs := 0, clashes := 0, authFail := 0, sigShort := 0, nonmatch := 0 } := by
      rw [← hu, if_pos hclear]
      exact vget_vmod_same _ _ _ hcan
    rw [canOf_withPending, canOf_of_bus (completeNow_bus ..), hc]
    exact ⟨rfl, rfl, rfl, rfl⟩
  · refine (completeNow_bus ..).trans ?_
    rw [← hu, if_neg (by rw [hkeep]; decide)]
    rfl

theorem canStatus_lin (p : Packet) (n : Nat) (s : State) (h : KeeperRuns canStatusOp p s) (hn : n = p.fld 16 0 4) (hlin : 8 ≤ n) :
    ∃ t, exec (.canStatus p) s = .next t ∧ Completed p .ok s t ∧ Replied p s t (linStatusReply s (n - 8)) ∧
      (p.bit 16 4 = true → (linAt t (n - 8)).rxFrames = 0 ∧ (linAt t (n - 8)).txFrames = 0 ∧ ∀ k, vget (linAt t (n - 8)).errs k = 0) ∧
      (p.bit 16 4 = false → t.bus = s.bus) := by
  subst hn
  have hmost : p.fld 16 0 4 - 8 < 6 := by
    have hbad := bad_eq_false_of_checkPacket canStatusOp p _ (checkPacket_of_keeperRuns canStatusOp p s h)
    simp only [canStatusOp, decide_eq_false_iff_not] at hbad
    omega
  obtain ⟨u, hu⟩ : ∃ u, (if p.bit 16 4 = true then (release s p).onLin (p.fld 16 0 4 - 8) fun x => { x with
      rxFrames := 0, txFrames := 0, errs := Vector.replicate 6 0 } else release s p) = u := ⟨_, rfl⟩
  have hrun : canStatusOp.run p (release s p) = { s := u, reply := linStatusReply s (p.fld 16 0 4 - 8) } := by
    rw [← hu]
    exact if_neg (Nat.not_lt.2 hlin)
  have hparts : u.clock = s.clock ∧ u.plane.rings = s.plane.rings ∧ u.plane.replay = s.plane.replay ∧ u.mem = s.mem := by
    rw [← hu]
    split <;> exact ⟨rfl, rfl, rfl, rfl⟩
  obtain ⟨hclock, hrings, hreplay, hmem⟩ := hparts
  obtain ⟨hexec, hdone⟩ := keeperTake_completes h rfl hrun rfl hclock
  refine ⟨_, hexec, hdone, Replied.of_same (completeNow_replied u p .ok _) hrings hreplay hmem, fun hclear => ?_, fun hkeep => ?_⟩
  · have hc : linAt u (p.fld 16 0 4 - 8) = { linAt s (p.fld 16 0 4 - 8) with rxFrames := 0, txFrames := 0, errs := Vector.replicate 6 0 } := by
      rw [← hu, if_pos hclear]
      exact onLin_same _ _ _ hmost
    rw [linAt_withPending, linAt_of_bus (completeNow_bus ..), hc]
    refine ⟨rfl, rfl, fun k => ?_⟩
    simp [vget]
  · refine (completeNow_bus ..).trans ?_
    rw [← hu, if_neg (by rw [hkeep]; decide)]
    rfl

end Sys2Proof.Machine

namespace Sys2Proof.Machine

open Sys2Proof.Claims

/-! CAN.SEND, CAN.CANCEL and LIN.SEND pass into landing L4 (R243, R246). -/

theorem mem_l4Insert (a : L4Item) (l : List L4Item) : a ∈ l4Insert a l := by
  induction l with
  | nil => exact List.mem_cons_self ..
  | cons x r ih =>
    unfold l4Insert
    split
    · exact List.mem_cons_self ..
    · exact List.mem_cons_of_mem _ ih

/-- A packet that runs in its own tick runs in time. -/
theorem ranLate_of_fastRuns {o : Op} {p : Packet} {s : State} (h : FastRuns o p s) : ranLate p (counted s p) = false := by
  obtain ⟨-, -, -, -, hontime, hdue, -, -, -, -⟩ := h
  have hsame : dueTick true p (counted s p) = s.plane.tick := hdue
  simp [ranLate, hontime, hsame]

theorem canSend_passes (p : Packet) (s : State) (h : FastRuns canSendOp p s) (hsend : sendable s (sendReq s p) = true)
    (htpl : p.bit 16 3 = true → (tplOf s (p.num 17 1)).used = true ∧ (tplOf s (p.num 17 1)).controller < 8) :
    ∃ t, exec (.canSend p) s = .next t ∧ (∃ x ∈ t.bus.l4, x.lin = s.plane.lin ∧ x.hall = p.hall ∧ x.idx = p.order ∧ x.kind = .send p false) ∧
      t.plane.results = s.plane.results ∧ t.bus.can = s.bus.can := by
  have hlate := ranLate_of_fastRuns h
  have hrun : canSendOp.run p (counted s p) = { s := l4Put (counted s p) p.hall p.order (.send p false), st := none } := by
    have hno : ¬((p.bit 16 3 = true ∧ ((!(tplOf (counted s p) (p.num 17 1)).used) = true ∨ 8 ≤ (tplOf (counted s p) (p.num 17 1)).controller)) ∨
        (!sendable (counted s p) (sendReq (counted s p) p)) = true) := by
      rintro (⟨hbit, hbad⟩ | hbad)
      · obtain ⟨hused, hcan⟩ := htpl hbit
        have hused' : (tplOf (counted s p) (p.num 17 1)).used = true := hused
        have hcan' : (tplOf (counted s p) (p.num 17 1)).controller < 8 := hcan
        rw [hused'] at hbad
        exact hbad.elim (fun hf => Bool.false_ne_true hf) (Nat.not_le.2 hcan')
      · have hsend' : sendable (counted s p) (sendReq (counted s p) p) = true := hsend
        rw [hsend'] at hbad
        exact Bool.false_ne_true hbad
    rw [← hlate]
    exact if_neg hno
  have htake := fastTake_waits h rfl hrun rfl
  exact ⟨_, congrArg (effect s) htake, ⟨_, mem_l4Insert _ _, rfl, rfl, rfl, rfl⟩, rfl, rfl⟩

theorem canSend_conflicts (p : Packet) (s : State) (h : FastRuns canSendOp p s) (hsend : sendable s (sendReq s p) = false) :
    ∃ t, exec (.canSend p) s = .next t ∧ Completed p .conflict s t ∧ t.bus = s.bus := by
  have hrun : canSendOp.run p (counted s p) = { s := counted s p, st := some .conflict } := by
    have hsend' : sendable (counted s p) (sendReq (counted s p) p) = false := hsend
    exact if_pos (Or.inr (by rw [hsend']; rfl))
  obtain ⟨hexec, hdone⟩ := fastTake_completes h rfl hrun rfl rfl
  exact ⟨_, hexec, hdone, completeNow_bus ..⟩

theorem canCancel_passes (p : Packet) (s : State) (h : FastRuns canCancelOp p s) :
    ∃ t, exec (.canCancel p) s = .next t ∧ (∃ x ∈ t.bus.l4, x.lin = s.plane.lin ∧ x.kind = .cancel p false) ∧ t.plane.results = s.plane.results ∧
      t.bus.can = s.bus.can := by
  obtain ⟨m, hm⟩ := writePending_only (counted s p) p
  have hrun : canCancelOp.run p (counted s p) = { s := l4Put { counted s p with mem := m } p.hall p.order (.cancel p false), st := none } := by
    rw [← hm, ← ranLate_of_fastRuns h]
    rfl
  have htake := fastTake_waits h rfl hrun rfl
  exact ⟨_, congrArg (effect s) htake, ⟨_, mem_l4Insert _ _, rfl, rfl⟩, rfl, rfl⟩

theorem linSend_passes (p : Packet) (s : State) (h : FastRuns linSendOp p s) (hsend : linSendable s (linSendReq s p) = true)
    (htpl : p.bit 16 3 = true → (tplOf s (p.num 17 1)).used = true ∧ 8 ≤ (tplOf s (p.num 17 1)).controller) :
    ∃ t, exec (.linSend p) s = .next t ∧ (∃ x ∈ t.bus.l4, x.lin = s.plane.lin ∧ x.hall = p.hall ∧ x.idx = p.order ∧ x.kind = .linSend p false) ∧
      t.plane.results = s.plane.results ∧ t.bus.lin = s.bus.lin := by
  have hlate := ranLate_of_fastRuns h
  have hrun : linSendOp.run p (counted s p) = { s := l4Put (counted s p) p.hall p.order (.linSend p false), st := none } := by
    have hno : ¬((p.bit 16 3 = true ∧ ((!(tplOf (counted s p) (p.num 17 1)).used) = true ∨ (tplOf (counted s p) (p.num 17 1)).controller < 8)) ∨
        (!linSendable (counted s p) (linSendReq (counted s p) p)) = true) := by
      rintro (⟨hbit, hbad⟩ | hbad)
      · obtain ⟨hused, hlin⟩ := htpl hbit
        have hused' : (tplOf (counted s p) (p.num 17 1)).used = true := hused
        have hlin' : 8 ≤ (tplOf (counted s p) (p.num 17 1)).controller := hlin
        rw [hused'] at hbad
        exact hbad.elim (fun hf => Bool.false_ne_true hf) (Nat.not_lt.2 hlin')
      · have hsend' : linSendable (counted s p) (linSendReq (counted s p) p) = true := hsend
        rw [hsend'] at hbad
        exact Bool.false_ne_true hbad
    rw [← hlate]
    exact if_neg hno
  have htake := fastTake_waits h rfl hrun rfl
  exact ⟨_, congrArg (effect s) htake, ⟨_, mem_l4Insert _ _, rfl, rfl, rfl, rfl⟩, rfl, rfl⟩

theorem linSend_conflicts (p : Packet) (s : State) (h : FastRuns linSendOp p s) (hsend : linSendable s (linSendReq s p) = false) :
    ∃ t, exec (.linSend p) s = .next t ∧ Completed p .conflict s t ∧ t.bus = s.bus := by
  have hrun : linSendOp.run p (counted s p) = { s := counted s p, st := some .conflict } := by
    have hsend' : linSendable (counted s p) (linSendReq (counted s p) p) = false := hsend
    exact if_pos (Or.inr (by rw [hsend']; rfl))
  obtain ⟨hexec, hdone⟩ := fastTake_completes h rfl hrun rfl rfl
  exact ⟨_, hexec, hdone, completeNow_bus ..⟩

/-! LIN.CONFIG and LIN.SCHEDULE (Tables 09.18, 09.19). -/

/-- A controller that takes new settings (R256). -/
theorem linReset_takes (s : State) (c : Nat) (g : LinCfg) (hc : c < 6) :
    (linReset s c g).clock = s.clock ∧ (linReset s c g).store = s.store ∧ (linAt (linReset s c g) c).pub = [] ∧
      (linAt (linReset s c g) c).old = some (g, s.now) ∧
      ((linCfg s c).role = 0 → (linAt (linReset s c g) c).table = none ∧ (linAt (linReset s c g) c).waits = []) := by
  obtain ⟨u, hu⟩ : ∃ u, s.onLin c (fun x => { x with
    pub := [], sporadic := [], lastBus := s.now, old := some (g, s.now)
    table := if ((linCfg s c).role == 0) = true then none else x.table, master := if ((linCfg s c).role == 0) = true then none else x.master
    waits := if ((linCfg s c).role == 0) = true then [] else x.waits
    header := if ((linCfg s c).role == 0) = true then none else x.header }) = u := ⟨_, rfl⟩
  have hreset : linReset s c g = endWaits (fun w => lateStatus w.late .cancelled) (if ((linCfg s c).role == 0) = true then (linAt s c).waits else []) u := by
    rw [← hu]
    rfl
  have hlin : linAt u c = { linAt s c with
      pub := [], sporadic := [], lastBus := s.now, old := some (g, s.now)
      table := if ((linCfg s c).role == 0) = true then none else (linAt s c).table
      master := if ((linCfg s c).role == 0) = true then none else (linAt s c).master
      waits := if ((linCfg s c).role == 0) = true then [] else (linAt s c).waits
      header := if ((linCfg s c).role == 0) = true then none else (linAt s c).header } := by
    rw [← hu]
    exact onLin_same s c _ hc
  rw [hreset, endWaits_clock, endWaits_store, linAt_of_bus (endWaits_bus ..), hlin, ← hu]
  exact ⟨rfl, rfl, rfl, rfl, fun hoff => ⟨if_pos (beq_iff_eq.2 hoff), if_pos (beq_iff_eq.2 hoff)⟩⟩

theorem linConfig_sets (p : Packet) (c : Nat) (s : State) (h : KeeperRuns linConfigOp p s) (hwrite : p.bit 16 3 = false) (hc : c = p.fld 16 0 3)
    (hnodup : ((lcEntries p).map (·.1)).Nodup) (hfit : linAgrees (lcApply (linCfg s c) p) = true) :
    ∃ t, exec (.linConfig p) s = .next t ∧ Completed p .ok s t ∧ linCfg t c = lcApply (linCfg s c) p ∧ (linAt t c).pub = [] ∧
      (linAt t c).old = some (linCfg s c, s.now) ∧ ((lcApply (linCfg s c) p).role = 0 → (linAt t c).table = none ∧ (linAt t c).waits = []) ∧
      ∀ k, k ≠ c → linCfg t k = linCfg s k := by
  have hlt : c < 6 := by
    have hbad := bad_eq_false_of_checkPacket linConfigOp p _ (checkPacket_of_keeperRuns linConfigOp p s h)
    simp only [linConfigOp, Bool.or_eq_false_iff, decide_eq_false_iff_not] at hbad
    obtain ⟨⟨⟨hmost, -⟩, -⟩, -⟩ := hbad
    omega
  obtain ⟨w, hw⟩ : ∃ w, ((release s p).onStore fun st => { st with can := { st.can with lin := vmod st.can.lin c fun g => lcApply g p } }) = w := ⟨_, rfl⟩
  have hset : linCfg w c = lcApply (linCfg s c) p := by
    rw [← hw]
    exact vget_vmod_same _ _ _ hlt
  have hother (k : Nat) (hk : k ≠ c) : linCfg w k = linCfg s k := by
    rw [← hw]
    exact vget_vmod_ne _ _ _ _ hk.symm
  have hrest : w.clock = s.clock ∧ w.now = s.now := by
    rw [← hw]
    exact ⟨rfl, rfl⟩
  obtain ⟨hwclock, hnow⟩ := hrest
  obtain ⟨hclock, hstore, hpub, hold, hoff⟩ := linReset_takes w c (linCfg s c) hlt
  obtain ⟨u, hu⟩ : ∃ u, linReset w c (linCfg s c) = u := ⟨_, rfl⟩
  rw [hu] at hclock hstore hpub hold hoff
  have hcfg (k : Nat) : linCfg u k = linCfg w k := by simp only [linCfg, hstore]
  have hrun : linConfigOp.run p (release s p) = { s := u, reply := (linConfigOp.run p (release s p)).reply } := by
    refine Res.eq_of_parts ?_ rfl
    rw [← hu, ← hw, hc]
    exact if_neg (by rw [hwrite]; decide)
  have hagrees : linConfigOp.agree p (release s p) u = true := by
    simp only [linConfigOp, ← hc, hcfg, hset, hfit, hnodup, decide_true, Bool.and_true, Bool.or_true]
  obtain ⟨hexec, hdone⟩ := keeperTake_completes h rfl hrun hagrees (hclock.trans hwclock)
  obtain ⟨t, ht⟩ : ∃ t, completeNow u p .ok (linConfigOp.run p (release s p)).reply = t := ⟨_, rfl⟩
  have hend : linAt t c = linAt u c := by rw [← ht, linAt_of_bus (completeNow_bus ..)]
  have hcfgt (k : Nat) : linCfg t k = linCfg u k := by rw [← ht, linCfg, linCfg, completeNow_store]
  rw [ht] at hexec hdone
  refine ⟨_, hexec, hdone, (hcfgt c).trans ((hcfg c).trans hset), ?_, ?_, fun hrole => ?_, fun k hk => (hcfgt k).trans ((hcfg k).trans (hother k hk))⟩
  · rw [linAt_withPending, hend]
    exact hpub
  · rw [linAt_withPending, hend, hold, hnow]
  · rw [linAt_withPending, hend]
    exact hoff (by rw [hset]; exact hrole)

theorem linSchedule_loads (p : Packet) (c tb : Nat) (s : State) (h : KeeperRuns linScheduleOp p s) (hc : c = p.fld 16 0 3) (htb : tb = p.fld 17 0 2)
    (hrole : (linCfg s c).role = 1) (hmode : p.fld 16 3 2 = 0) (hstill : (linAt s c).table ≠ some tb) (hnext : (linAt s c).resume.map (·.1) ≠ some tb)
    (hslots : (lsSlots p).all (slotOk s c tb) = true) :
    ∃ t, exec (.linSchedule p) s = .next t ∧ Completed p .ok s t ∧ linTable t c tb = lsSlots p ∧ t.bus = s.bus := by
  subst hc htb
  have hlt : p.fld 16 0 3 < 6 := by
    have hbad := bad_eq_false_of_checkPacket linScheduleOp p _ (checkPacket_of_keeperRuns linScheduleOp p s h)
    simp only [linScheduleOp, Bool.or_eq_false_iff, decide_eq_false_iff_not] at hbad
    omega
  obtain ⟨u, hu⟩ : ∃ u, ((release s p).onStore fun st => { st with can := { st.can with
    lin := vmod st.can.lin (p.fld 16 0 3) fun g => { g with tables := vmod g.tables (p.fld 17 0 2) fun _ => lsSlots p } } }) = u := ⟨_, rfl⟩
  have hrun : linScheduleOp.run p (release s p) = { s := u, reply := (linScheduleOp.run p (release s p)).reply } := by
    have hkeep : ¬(p.fld 16 3 2 = 0 ∧ ((linAt (release s p) (p.fld 16 0 3)).table = some (p.fld 17 0 2) ∨
        (linAt (release s p) (p.fld 16 0 3)).resume.map (·.1) = some (p.fld 17 0 2))) := fun hrunning => hrunning.2.elim hstill hnext
    refine Res.eq_of_parts ?_ ?_
    · unfold linScheduleOp
      dsimp only
      rw [if_neg hkeep, if_pos hmode, hu]
    · unfold linScheduleOp
      dsimp only
      rw [if_neg hkeep]
  have htable : linTable u (p.fld 16 0 3) (p.fld 17 0 2) = lsSlots p := by
    have hcfg : linCfg u (p.fld 16 0 3) = { linCfg s (p.fld 16 0 3) with tables := vmod (linCfg s (p.fld 16 0 3)).tables (p.fld 17 0 2) fun _ => lsSlots p } := by
      rw [← hu]
      exact vget_vmod_same _ _ _ hlt
    unfold linTable
    rw [hcfg]
    exact vget_vmod_same _ _ _ (Nat.mod_lt _ (by decide))
  have hagrees : linScheduleOp.agree p (release s p) u = true := by
    have hrole' : (linCfg (release s p) (p.fld 16 0 3)).role = 1 := hrole
    have hslots' : (lsSlots p).all (slotOk (release s p) (p.fld 16 0 3) (p.fld 17 0 2)) = true := hslots
    unfold linScheduleOp
    dsimp only
    rw [if_pos hmode, hrole', hslots']
    exact Bool.or_true _
  obtain ⟨hexec, hdone⟩ := keeperTake_completes h rfl hrun hagrees (by rw [← hu]; rfl)
  refine ⟨_, hexec, hdone, ?_, ?_⟩
  · simp only [linTable, linCfg, State.withPending, completeNow_store]
    exact htable
  · refine (completeNow_bus ..).trans ?_
    rw [← hu]
    rfl

theorem linSchedule_refuses (p : Packet) (c tb : Nat) (s : State) (h : KeeperRuns linScheduleOp p s) (hc : c = p.fld 16 0 3) (htb : tb = p.fld 17 0 2)
    (hrole : (linCfg s c).role = 1) (hmode : p.fld 16 3 2 = 0) (hruns : (linAt s c).table = some tb) (hslots : (lsSlots p).all (slotOk s c tb) = true) :
    ∃ t, exec (.linSchedule p) s = .next t ∧ Completed p .busy s t ∧ t.store.can = s.store.can ∧ t.bus = s.bus := by
  subst hc htb
  have hrun : linScheduleOp.run p (release s p) = { s := release s p, st := some .busy } := by
    unfold linScheduleOp
    dsimp only
    exact if_pos ⟨hmode, Or.inl hruns⟩
  have hagrees : linScheduleOp.agree p (release s p) (release s p) = true := by
    have hrole' : (linCfg (release s p) (p.fld 16 0 3)).role = 1 := hrole
    have hslots' : (lsSlots p).all (slotOk (release s p) (p.fld 16 0 3) (p.fld 17 0 2)) = true := hslots
    unfold linScheduleOp
    dsimp only
    rw [if_pos hmode, hrole', hslots']
    exact Bool.or_true _
  obtain ⟨hexec, hdone⟩ := keeperTake_completes h rfl hrun hagrees rfl
  refine ⟨_, hexec, hdone, ?_, completeNow_bus ..⟩
  simp only [State.withPending, completeNow_store]
  rfl

/-- LIN.SCHEDULE with RUN (`start := some tb`) or STOP changes the table that runs. -/
theorem linSchedule_changes (p : Packet) (start : Option Nat) (s : State) (h : KeeperRuns linScheduleOp p s)
    (hrole : (linCfg s (p.fld 16 0 3)).role = 1)
    (hmode : p.fld 16 3 2 = 1 ∧ start = some (p.fld 17 0 2) ∧ (linTable s (p.fld 16 0 3) (p.fld 17 0 2)).all (slotOk s (p.fld 16 0 3) (p.fld 17 0 2)) = true ∨
      p.fld 16 3 2 = 2 ∧ start = none) :
    p.fld 16 0 3 < 6 ∧ ∃ t, exec (.linSchedule p) s = .next t ∧ Completed p .ok s t ∧ t.store = s.store ∧
      linAt t (p.fld 16 0 3) = (if (linAt s (p.fld 16 0 3)).table.isNone = true then
        { linAt s (p.fld 16 0 3) with table := start, ix := 0, slotAt := nextMs s.now, pendingTable := none }
        else { linAt s (p.fld 16 0 3) with pendingTable := some start }) := by
  have hlt : p.fld 16 0 3 < 6 := by
    have hbad := bad_eq_false_of_checkPacket linScheduleOp p _ (checkPacket_of_keeperRuns linScheduleOp p s h)
    simp only [linScheduleOp, Bool.or_eq_false_iff, decide_eq_false_iff_not] at hbad
    omega
  obtain ⟨u, hu⟩ : ∃ u, changeTable (release s p) (p.fld 16 0 3) start = u := ⟨_, rfl⟩
  have hnew : p.fld 16 3 2 ≠ 0 := by omega
  have hrun : linScheduleOp.run p (release s p) = { s := u, reply := (linScheduleOp.run p (release s p)).reply } := by
    refine Res.eq_of_parts ?_ ?_
    · unfold linScheduleOp
      dsimp only
      rw [if_neg (fun hbusy => hnew hbusy.1), if_neg hnew]
      obtain ⟨hone, hstart, -⟩ | ⟨htwo, hstart⟩ := hmode
      · rw [if_pos hone, ← hstart, hu]
      · rw [if_neg (by omega), if_pos htwo, ← hstart, hu]
    · unfold linScheduleOp
      dsimp only
      rw [if_neg (fun hbusy => hnew hbusy.1)]
  have hagrees : linScheduleOp.agree p (release s p) u = true := by
    have hrole' : (linCfg (release s p) (p.fld 16 0 3)).role = 1 := hrole
    unfold linScheduleOp
    dsimp only
    rw [if_neg hnew, hrole']
    obtain ⟨-, -, hslots⟩ | ⟨htwo, -⟩ := hmode
    · have hslots' : (linTable (release s p) (p.fld 16 0 3) (p.fld 17 0 2)).all (slotOk (release s p) (p.fld 16 0 3) (p.fld 17 0 2)) = true := hslots
      rw [hslots', Bool.or_true]
      exact Bool.or_true _
    · rw [htwo]
      rfl
  obtain ⟨hexec, hdone⟩ := keeperTake_completes h rfl hrun hagrees (by rw [← hu]; rfl)
  refine ⟨hlt, _, hexec, hdone, ?_, ?_⟩
  · refine (completeNow_store ..).trans ?_
    rw [← hu]
    rfl
  · rw [linAt_withPending, linAt_of_bus (completeNow_bus ..), ← hu]
    exact onLin_same (release s p) _ _ hlt

end Sys2Proof.Machine

namespace Sys2Proof.Machine

open Sys2Proof.Claims

/-! CAN.CONFIG (Table 09.12). -/

/-- What a change leaves: how far the halls reach, the store, and the error state and the waiting records of a CAN controller. -/
structure CanKept (c : Nat) (s t : State) : Prop where
  reach : t.reach = s.reach
  store : t.store = s.store
  state : (canOf t c).state = (canOf s c).state
  old : (canOf t c).old = (canOf s c).old

theorem CanKept.refl (c : Nat) (s : State) : CanKept c s s := ⟨rfl, rfl, rfl, rfl⟩

theorem CanKept.trans {c : Nat} {s t u : State} (h : CanKept c s t) (h' : CanKept c t u) : CanKept c s u :=
  ⟨h'.reach.trans h.reach, h'.store.trans h.store, h'.state.trans h.state, h'.old.trans h.old⟩

theorem CanKept.foldl {α : Type} {c : Nat} {f : State → α → State} (hstep : ∀ u a, CanKept c u (f u a)) (l : List α) (s : State) : CanKept c s (l.foldl f s) :=
  List.foldlRecOn (motive := CanKept c s) l f (.refl c s) fun u hu a _ => hu.trans (hstep u a)

theorem CanKept.completeNow (c : Nat) (s : State) (p : Packet) (st : Status) (r : Reply) : CanKept c s (completeNow s p st r) :=
  ⟨((Carries.refl s).completeNow (p := p) (st := st) (r := r)).reach, completeNow_store .., by rw [canOf_of_bus (completeNow_bus ..)],
    by rw [canOf_of_bus (completeNow_bus ..)]⟩

theorem CanKept.cancels (c : Nat) (s : State) (l : List CancelReq) : CanKept c s (s.onBus fun b => { b with cancels := l }) := ⟨rfl, rfl, rfl, rfl⟩

theorem CanKept.cancelDecided (c : Nat) (s : State) (p : Packet) (removed : Bool) : CanKept c s (cancelDecided s p removed) := by
  unfold Machine.cancelDecided
  split
  · exact .refl c s
  · dsimp only
    split
    · exact (CanKept.cancels c s _).trans (.completeNow c _ p _ _)
    · exact .cancels c s _

theorem canOf_onCan_same (s : State) (c : Nat) (f : Can → Can) (hc : c < 8) : canOf (s.onCan c f) c = f (canOf s c) := vget_vmod_same _ _ _ hc

theorem CanKept.frameLeaves (c : Nat) (s : State) (f : TxFrame) (st : Status) (sent : Bool) (hc : c < 8) : CanKept c s (frameLeaves s c f st sent) := by
  have hremove : CanKept c s (s.onCan c fun x => x.remove f.handle) := by
    refine ⟨rfl, rfl, ?_, ?_⟩
    · rw [canOf_onCan_same s c _ hc]
      rfl
    · rw [canOf_onCan_same s c _ hc]
      rfl
  unfold Machine.frameLeaves
  dsimp only
  refine CanKept.trans ?_ (CanKept.foldl (fun u p => .cancelDecided c u p (!sent)) f.cancels _)
  split
  · exact hremove.trans (.completeNow ..)
  · exact hremove

theorem setCanState_sets (s : State) (c st : Nat) (hc : c < 8) : (setCanState s c st).reach = s.reach ∧ (setCanState s c st).store = s.store ∧
    (canOf (setCanState s c st) c).state = st ∧ (canOf (setCanState s c st) c).old = (canOf s c).old := by
  refine ⟨(Carries.refl s).setCanState.reach, ?_⟩
  have hset : canOf (s.onCan c fun x => { x with state := st }) c = { canOf s c with state := st } := canOf_onCan_same s c _ hc
  unfold setCanState
  split
  · next hsame => exact ⟨rfl, hsame, rfl⟩
  · dsimp only
    split
    · rw [hset]
      exact ⟨rfl, rfl, rfl⟩
    · have hbus (u : State) (src kind address value : Nat) : (busEvent u src kind address value).bus = u.bus := observe_bus ..
      rw [canOf_of_bus (hbus ..), hset]
      exact ⟨observe_store .., rfl, rfl⟩

/-- A controller that integrates with its new records, or is off with them (R235). -/
theorem reintegrate_integrates (s : State) (c : Nat) (hc : c < 8) :
    (reintegrate s c).reach = s.reach ∧ (reintegrate s c).store = s.store ∧ ((canOf s c).state ≠ 3 →
      (canOf (reintegrate s c) c).old = none ∧ (canOf (reintegrate s c) c).state = if (canCfg s c).op = 0 then 0 else 4) := by
  have hold : canOf (s.onCan c fun x => { x with old := none }) c = { canOf s c with old := none } := canOf_onCan_same s c _ hc
  obtain ⟨u, hu⟩ : ∃ u, (s.onCan c fun x => { x with old := none }) = u := ⟨_, rfl⟩
  have hkept : u.reach = s.reach ∧ u.store = s.store := by
    rw [← hu]
    exact ⟨rfl, rfl⟩
  obtain ⟨hreach, hstore⟩ := hkept
  rw [hu] at hold
  have hmode : canMode u c = canCfg s c := by
    unfold canMode
    rw [hold]
    simp only [canCfg, hstore]
  have hstate : (canOf u c).state = (canOf s c).state := (congrArg Can.state hold :)
  unfold reintegrate
  dsimp only
  rw [hu, hmode, hstate]
  by_cases hop : (canCfg s c).op = 0
  · obtain ⟨h1, h2, h3, h4⟩ := setCanState_sets (u.onCan c fun x => { x with current := none, recovering := false }) c 0 hc
    rw [if_pos hop, if_pos hop, h4, canOf_onCan_same u c _ hc, hold]
    exact ⟨h1.trans hreach, h2.trans hstore, fun _ => ⟨rfl, h3⟩⟩
  · rw [if_neg hop]
    by_cases hoff : (canOf s c).state = 3
    · rw [if_pos hoff]
      exact ⟨hreach, hstore, fun hno => absurd hoff hno⟩
    · obtain ⟨h1, h2, h3, h4⟩ := setCanState_sets (u.onCan c fun x => { x with current := none }) c 4 hc
      rw [if_neg hoff, if_neg hop, h4, canOf_onCan_same u c _ hc, hold]
      exact ⟨h1.trans hreach, h2.trans hstore, fun _ => ⟨rfl, h3⟩⟩

/-- A controller that takes a record (R235): the store holds it; on the bus the records before stay in force, off the bus the controller integrates. -/
structure Reconfigured (s t : State) (c : Nat) (st : CanStore) : Prop where
  reach : t.reach = s.reach
  store : t.store.can = st
  onBus : (canOf s c).state = 1 ∨ (canOf s c).state = 2 → (canOf t c).old = some (canMode s c, canData s c) ∧ (canOf t c).state = (canOf s c).state
  offBus : (canOf s c).state = 0 ∨ (canOf s c).state = 4 → (canOf t c).old = none ∧ (canOf t c).state = if (vget st.mode c).op = 0 then 0 else 4

theorem Reconfigured.after {s t u : State} {c : Nat} {st : CanStore} (h : Reconfigured s t c st) (h' : CanKept c t u) : Reconfigured s u c st where
  reach := h'.reach.trans h.reach
  store := (congrArg Store.can h'.store).trans h.store
  onBus hon := by
    rw [h'.old, h'.state]
    exact h.onBus hon
  offBus hoff := by
    rw [h'.old, h'.state]
    exact h.offBus hoff

theorem reconfigure_takes (s : State) (c : Nat) (change : CanStore → CanStore) (hc : c < 8) :
    Reconfigured s (reconfigure s c change) c (change s.store.can) := by
  obtain ⟨u, hu⟩ : ∃ u, (s.onStore fun st => { st with can := change st.can }) = u := ⟨_, rfl⟩
  have hkept : u.reach = s.reach ∧ u.store.can = change s.store.can ∧ u.bus = s.bus := by
    rw [← hu]
    exact ⟨rfl, rfl, rfl⟩
  obtain ⟨hreach, hstore, hbus⟩ := hkept
  have hsame : canOf u c = canOf s c := canOf_of_bus hbus c
  unfold reconfigure
  dsimp only
  rw [hu, hsame]
  by_cases hon : (canOf s c).state = 1 ∨ (canOf s c).state = 2
  · rw [if_pos hon]
    have hc' : canOf (u.onCan c fun x => { x with old := some (canMode s c, canData s c) }) c = { canOf s c with old := some (canMode s c, canData s c) } := by
      rw [canOf_onCan_same u c _ hc, hsame]
    refine ⟨hreach, hstore, fun _ => ?_, fun hoff => by omega⟩
    rw [hc']
    exact ⟨rfl, rfl⟩
  · rw [if_neg hon]
    obtain ⟨hr, hs, hint⟩ := reintegrate_integrates u c hc
    refine ⟨hr.trans hreach, (congrArg Store.can hs).trans hstore, fun h => absurd h hon, fun hoff => ?_⟩
    rw [← hstore]
    exact hint (by rw [hsame]; omega)

theorem applyMode_takes (s : State) (c : Nat) (m : CanMode) (restart : Bool) (hc : c < 8) :
    Reconfigured s (applyMode s c m restart) c { s.store.can with mode := vmod s.store.can.mode c fun _ => m } := by
  have htakes := reconfigure_takes s c (fun x => { x with mode := vmod x.mode c fun _ => m }) hc
  unfold applyMode
  dsimp only
  obtain ⟨u, hu⟩ : ∃ u, (reconfigure s c fun x => { x with mode := vmod x.mode c fun _ => m }) = u := ⟨_, rfl⟩
  rw [hu] at htakes ⊢
  obtain ⟨w, hw⟩ : ∃ w, (if ((canMode s c).op == 1 && (m.op == 0 || m.op == 2)) = true then
      ((canOf u c).frames.filter fun f => some f.handle != (canOf u c).current).foldl (fun s f => frameLeaves s c f .cancelled false) u else u) = w := ⟨_, rfl⟩
  have hkept : CanKept c u w := by
    rw [← hw]
    split
    · exact .foldl (fun v f => .frameLeaves c v f .cancelled false hc) _ u
    · exact .refl c u
  rw [hw]
  split
  · refine htakes.after (hkept.trans ⟨rfl, rfl, ?_, ?_⟩)
    · rw [canOf_onCan_same w c _ hc]
    · rw [canOf_onCan_same w c _ hc]
  · exact htakes.after hkept

/-- The store that a record of CAN.CONFIG gives. -/
def ccStore (p : Packet) (i : Nat) (st : CanStore) : CanStore :=
  if ccPart p = 0 then { st with nominal := vmod st.nominal i fun _ => ccNominal p }
  else if ccPart p = 1 then { st with data := vmod st.data i fun _ => ccData p }
  else { st with mode := vmod st.mode i fun _ => ccMode p }

theorem ccIndex_lt (p : Packet) : ccIndex p < 8 := Nat.mod_lt _ (by decide)

theorem canConfig_takes (p : Packet) (s : State) (hwrite : p.bit 16 5 = false) (hpart : ccPart p < 3) :
    ∃ u, canConfigOp.run p s = { s := u, reply := (canConfigOp.run p s).reply } ∧ Reconfigured s u (ccIndex p) (ccStore p (ccIndex p) s.store.can) := by
  obtain ⟨u, hu⟩ : ∃ u, (canConfigOp.run p s).s = u := ⟨_, rfl⟩
  have hno : ¬ p.bit 16 5 = true := by
    rw [hwrite]
    decide
  have hu' := hu
  unfold canConfigOp at hu'
  dsimp only at hu'
  rw [if_neg hno] at hu'
  refine ⟨u, Res.eq_of_parts hu rfl, ?_⟩
  unfold ccStore
  split_ifs at hu' ⊢ with h0 h1 h2
  · rw [← hu']
    exact reconfigure_takes s (ccIndex p) _ (ccIndex_lt p)
  · rw [← hu']
    exact reconfigure_takes s (ccIndex p) _ (ccIndex_lt p)
  · rw [← hu']
    exact applyMode_takes s (ccIndex p) _ _ (ccIndex_lt p)
  all_goals omega

theorem canConfig_sets (p : Packet) (i : Nat) (st : CanStore) (s : State) (h : KeeperRuns canConfigOp p s) (hwrite : p.bit 16 5 = false) (hpart : ccPart p < 3)
    (hi : i = ccIndex p) (hst : st = ccStore p i s.store.can) (hfit : canAgrees st = true) :
    ∃ t, exec (.canConfig p) s = .next t ∧ Completed p .ok s t ∧ t.store.can = st ∧
      ((canOf s i).state = 1 ∨ (canOf s i).state = 2 → (canOf t i).old = some (canMode s i, canData s i) ∧ (canOf t i).state = (canOf s i).state) ∧
      ((canOf s i).state = 0 ∨ (canOf s i).state = 4 → (canOf t i).old = none ∧ (canOf t i).state = (if (vget st.mode i).op = 0 then 0 else 4)) := by
  subst hi hst
  obtain ⟨u, hrun, htakes⟩ := canConfig_takes p (release s p) hwrite hpart
  have hagrees : canConfigOp.agree p (release s p) u = true := by
    simp only [canConfigOp, htakes.store]
    rw [show canAgrees (ccStore p (ccIndex p) (release s p).store.can) = true from hfit, Bool.or_true]
  obtain ⟨hexec, hdone⟩ := keeperTake_completes h rfl hrun hagrees ((clock_of_reach htakes.reach).trans (release_clock s p))
  have hend := htakes.after (.completeNow (ccIndex p) u p .ok (canConfigOp.run p (release s p)).reply)
  exact ⟨_, hexec, hdone, hend.store, hend.onBus, hend.offBus⟩

theorem canConfig_conflicts (p : Packet) (i : Nat) (st : CanStore) (s : State) (h : KeeperRuns canConfigOp p s) (hwrite : p.bit 16 5 = false)
    (hpart : ccPart p < 3) (hi : i = ccIndex p) (hst : st = ccStore p i s.store.can) (hfit : canAgrees st = false) :
    ∃ t, exec (.canConfig p) s = .next t ∧ Completed p .conflict s t ∧ t.store.can = s.store.can ∧ t.bus.can = s.bus.can := by
  subst hi hst
  obtain ⟨u, hrun, htakes⟩ := canConfig_takes p (release s p) hwrite hpart
  have hdisagrees : canConfigOp.agree p (release s p) (canConfigOp.run p (release s p)).s = false := by
    rw [hrun]
    simp only [canConfigOp, htakes.store, hwrite]
    exact hfit
  have htake := keeperTake_conflicts h hdisagrees
  refine ⟨(completeNow (release s p) p .conflict []).withPending s.pending, congrArg (effect s) htake, ?_, ?_, ?_⟩
  · exact Completed.of_clock (completeNow_completed (release s p) p .conflict []) (release_clock s p)
  · exact congrArg Store.can (completeNow_store (release s p) p .conflict [])
  · exact congrArg Bus.can (completeNow_bus (release s p) p .conflict [])

/-- The domain of the cipher engine comes on with hall H4 (Table 02.1). -/
theorem setDomain_cipherOn (s : State) : domainOn (setDomain s 5 true) 5 = true ∧ (setDomain s 5 true).clock = s.clock ∧
    (setDomain s 5 true).store = s.store ∧ (setDomain s 5 true).bus = s.bus := by
  have hhall (u : State) : (hallOn u 4).seq = u.seq ∧ (hallOn u 4).clock = u.clock ∧ (hallOn u 4).store = u.store ∧ (hallOn u 4).bus = u.bus := by
    unfold hallOn
    split <;> exact ⟨rfl, rfl, rfl, rfl⟩
  unfold setDomain
  dsimp only [domainHall]
  split
  · next hon => exact ⟨hon, rfl, rfl, rfl⟩
  · obtain ⟨hseq, hrest⟩ := hhall (s.onSeq fun q => { q with pd := setBit q.pd 5 true })
    refine ⟨?_, hrest⟩
    exact (congrArg (fun q : Seq => q.pd.testBit 5) hseq).trans (testBit_setBit_same s.seq.pd 5 true)

theorem enableStream_keys (s : State) (k : Nat) (hk : k < 8) :
    (streamOf (enableStream s k) k).key = (keySlot s (streamCfg s k).keySlot).material ∧
      (streamOf (enableStream s k) k).fixed = (keySlot s (streamCfg s k).keySlot).fixed ∧ (enableStream s k).clock = s.clock ∧
      (enableStream s k).store.can.stream = s.store.can.stream ∧ canAgrees (enableStream s k).store.can = canAgrees s.store.can := by
  unfold enableStream
  dsimp only
  split
  · refine ⟨?_, ?_, rfl, rfl, rfl⟩
    · exact congrArg CanStream.key (vget_vmod_same s.bus.stream k _ hk)
    · exact congrArg CanStream.fixed (vget_vmod_same s.bus.stream k _ hk)
  · refine ⟨?_, ?_, rfl, rfl, rfl⟩
    · exact congrArg CanStream.key (vget_vmod_same s.bus.stream k _ hk)
    · exact congrArg CanStream.fixed (vget_vmod_same s.bus.stream k _ hk)

theorem canConfig_enablesStream (p : Packet) (i : Nat) (s : State) (h : KeeperRuns canConfigOp p s) (hwrite : p.bit 16 5 = false) (hpart : ccPart p = 3)
    (hi : i = ccIndex p) (hon : (ccStream p).enable = true)
    (hfit : canAgrees { s.store.can with stream := vmod s.store.can.stream i fun _ => ccStream p } = true) :
    ∃ t, exec (.canConfig p) s = .next t ∧ Completed p .ok s t ∧ streamCfg t i = ccStream p ∧ domainOn t 5 = true ∧
      (streamOf t i).key = (keySlot s (ccStream p).keySlot).material ∧ (streamOf t i).fixed = (keySlot s (ccStream p).keySlot).fixed := by
  subst hi
  obtain ⟨w, hw⟩ : ∃ w, ((release s p).onStore fun st => { st with can := { st.can with
    stream := vmod st.can.stream (ccIndex p) fun _ => ccStream p } }) = w := ⟨_, rfl⟩
  have hkept : streamCfg w (ccIndex p) = ccStream p ∧ w.clock = s.clock ∧ canAgrees w.store.can = true ∧ ∀ n, keySlot w n = keySlot s n := by
    rw [← hw]
    exact ⟨vget_vmod_same _ _ _ (ccIndex_lt p), rfl, hfit, fun _ => rfl⟩
  obtain ⟨hcfg, hclock, hagreed, hslot⟩ := hkept
  obtain ⟨hkey, hfixed, heclock, hestream, heagree⟩ := enableStream_keys w (ccIndex p) (ccIndex_lt p)
  obtain ⟨v, hv⟩ : ∃ v, enableStream w (ccIndex p) = v := ⟨_, rfl⟩
  rw [hv] at hkey hfixed heclock hestream heagree
  obtain ⟨hdomain, hdclock, hdstore, hdbus⟩ := setDomain_cipherOn v
  obtain ⟨u, hu⟩ : ∃ u, setDomain v 5 true = u := ⟨_, rfl⟩
  rw [hu] at hdomain hdclock hdstore hdbus
  have hrun : canConfigOp.run p (release s p) = { s := u, reply := (canConfigOp.run p (release s p)).reply } := by
    refine Res.eq_of_parts ?_ rfl
    unfold canConfigOp
    dsimp only
    rw [if_neg (by rw [hwrite]; decide), if_neg (by omega), if_neg (by omega), if_neg (by omega), if_pos hon, hw, hv, hu]
  have hagrees : canConfigOp.agree p (release s p) u = true := by
    simp only [canConfigOp, hdstore, heagree, hagreed, Bool.or_true]
  obtain ⟨hexec, hdone⟩ := keeperTake_completes h rfl hrun hagrees (hdclock.trans (heclock.trans hclock))
  obtain ⟨t, ht⟩ : ∃ t, completeNow u p .ok (canConfigOp.run p (release s p)).reply = t := ⟨_, rfl⟩
  have hend : t.store = v.store ∧ t.bus = v.bus ∧ t.seq = u.seq := by
    rw [← ht]
    exact ⟨(completeNow_store ..).trans hdstore, (completeNow_bus ..).trans hdbus, completeNow_seq ..⟩
  obtain ⟨htstore, htbus, htseq⟩ := hend
  rw [ht] at hexec hdone
  refine ⟨t.withPending s.pending, hexec, hdone, ?_, ?_, ?_, ?_⟩
  · refine (congrArg (fun x : Store => vget x.can.stream (ccIndex p)) htstore).trans ?_
    rw [hestream]
    exact hcfg
  · exact (congrArg (fun q : Seq => q.pd.testBit 5) htseq).trans hdomain
  · refine (congrArg (fun b : Bus => (vget b.stream (ccIndex p)).key) htbus).trans (hkey.trans ?_)
    rw [hcfg, hslot]
  · refine (congrArg (fun b : Bus => (vget b.stream (ccIndex p)).fixed) htbus).trans (hfixed.trans ?_)
    rw [hcfg, hslot]

/-- Settles O53: the LIN controllers at their frames, headers, slots and errors, the hand-over of LIN sends, and the CAN and LIN packets, a lemma for each. -/
theorem linAndBusPacketsAct : Obligations.LinAndBusPacketsAct := by
  refine ⟨fun c id data g e s hc hlive hawake hg he => ⟨?_, ?_⟩, fun c id g e src s hc hawake hnormal hg he hsrc hheader => ⟨?_, ?_⟩,
    fun c s hc hruns hrole hdue => ⟨?_, ?_⟩, ?_, ?_, ?_, fun sof p late q x l s hqueue hdue hkind hq hc hlive => ⟨?_, ?_⟩,
    fun p i st s h hwrite hpart hi hst => ⟨?_, ?_⟩, ?_, ?_, fun p s h => ⟨?_, ?_⟩, ?_, fun p n s h hn => ⟨?_, ?_⟩, ?_, ?_, ?_,
    fun p c tb s h hc htb hrole => ⟨?_, ?_, ?_, ?_, ?_⟩, fun p s h => ⟨?_, ?_⟩⟩
  · exact linFrameAccept_stores c id data g e s hc hlive hawake hg he
  · exact linFrameAccept_sleeps c id data g s hc hlive hawake hg
  · exact linHeaderPublish_answers c id g e src s hc hawake hnormal hg he hsrc hheader
  · exact linHeaderPublish_commands c id g s hc hawake hnormal hg hheader
  · exact fun tb g => linScheduleSlot_sends c tb g s hc hruns hrole hdue
  · exact linScheduleSlot_stops c s hc hruns hrole hdue
  · exact fun c id code s => linError_counts c id code s
  · exact fun c w sof s => linTimeout_ends c w sof s
  · exact fun c s => linResponderIdle_commits c s
  · exact frameHandover_linSend sof p late q x l s hqueue hdue hkind hq hc hlive
  · exact frameHandover_linBusy sof p late q x l s hqueue hdue hkind hq
  · exact canConfig_sets p i st s h hwrite hpart hi hst
  · exact canConfig_conflicts p i st s h hwrite hpart hi hst
  · exact fun p i s => canConfig_enablesStream p i s
  · exact fun p i s => canFilter_sets p i s
  · exact canSend_passes p s h
  · exact canSend_conflicts p s h
  · exact fun p s => canCancel_passes p s
  · exact canStatus_can p n s h hn
  · exact canStatus_lin p n s h hn
  · exact fun p i s => canSigmap_setsSignal p i s
  · exact fun p i s => canSigmap_setsTemplate p i s
  · exact fun p c s => linConfig_sets p c s
  · exact linSchedule_loads p c tb s h hc htb hrole
  · exact linSchedule_refuses p c tb s h hc htb hrole
  · intro hrun hstill hslots
    subst hc htb
    obtain ⟨-, t, hexec, hdone, hstore, hlin⟩ := linSchedule_changes p (some (p.fld 17 0 2)) s h hrole (Or.inl ⟨hrun, rfl, hslots⟩)
    rw [if_pos (by rw [hstill]; rfl)] at hlin
    refine ⟨t, hexec, hdone, ?_, ?_, ?_, hstore⟩
    · rw [hlin]
    · rw [hlin]
    · rw [hlin]
      rfl
  · intro hrun hsome hslots
    subst hc htb
    obtain ⟨-, t, hexec, hdone, hstore, hlin⟩ := linSchedule_changes p (some (p.fld 17 0 2)) s h hrole (Or.inl ⟨hrun, rfl, hslots⟩)
    rw [if_neg (by rw [Option.isNone_iff_eq_none]; intro hno; rw [hno] at hsome; exact Bool.false_ne_true hsome)] at hlin
    refine ⟨t, hexec, hdone, ?_, ?_, hstore⟩
    · rw [hlin]
    · rw [hlin]
  · intro hstop hsome
    subst hc htb
    obtain ⟨-, t, hexec, hdone, hstore, hlin⟩ := linSchedule_changes p none s h hrole (Or.inr ⟨hstop, rfl⟩)
    rw [if_neg (by rw [Option.isNone_iff_eq_none]; intro hno; rw [hno] at hsome; exact Bool.false_ne_true hsome)] at hlin
    refine ⟨t, hexec, hdone, ?_, hstore⟩
    rw [hlin]
  · exact linSend_passes p s h
  · exact linSend_conflicts p s h

end Sys2Proof.Machine

namespace Sys2Proof.Machine

open Sys2Proof.Claims

 
/-! Wake latches (R284–R289). -/

/-- The latch of a source that fires for the first time (R284). -/
def newLatch (s : State) (cause index : Nat) : Latch :=
  ⟨cause, index, s.now, s.sleep.darkCommit.isSome || s.asleep, !(s.plane.running && feedsL5 s 0), false, 0, false, false⟩

theorem any_isOf_eq_false {l : List Latch} {cause i : Nat} (h : ∀ k ∈ l, k.cause = cause → k.index ≠ i) : l.any (·.isOf cause i) = false := by
  refine List.any_eq_false.2 fun k hk => ?_
  simp only [Latch.isOf, Bool.and_eq_true, beq_iff_eq]
  exact fun ⟨hc, hi⟩ => h k hk hc hi

theorem setLatch_new (s : State) (cause i : Nat) (h : ∀ k ∈ s.sleep.latches, k.cause = cause → k.index ≠ i) :
    (setLatch s cause i).sleep = { s.sleep with latches := s.sleep.latches ++ [newLatch s cause i] } ∧
      (s.plane.running = true → feedsL5 s 0 = true → ∃ it ∈ (vget (setLatch s cause i).plane.landings 5).items, it.wake = some (cause, i) ∧ it.hall = 0 ∧
        it.stamp = ⟨s.plane.epoch, s.wallTick + 4⟩) := by
  unfold setLatch
  dsimp only
  rw [if_neg (by rw [any_isOf_eq_false h]; decide)]
  split
  · next hthrough =>
    refine ⟨rfl, fun _ _ => ⟨_, mem_landPut s 5 _ (by decide), rfl, rfl, rfl⟩⟩
  · next hstays =>
    refine ⟨rfl, fun hrun hfeeds => absurd ?_ hstays⟩
    rw [hrun, hfeeds]
    rfl

/-- Two states that differ in nothing but the free outcomes drawn so far. -/
def FreeOnly (s t : State) : Prop := ∃ f, t = { s with free := f }

theorem FreeOnly.refl (s : State) : FreeOnly s s := ⟨s.free, rfl⟩

theorem FreeOnly.trans {s t u : State} (h : FreeOnly s t) (h' : FreeOnly t u) : FreeOnly s u := by
  obtain ⟨f, rfl⟩ := h
  obtain ⟨f', rfl⟩ := h'
  exact ⟨f', rfl⟩

theorem phaseLasts_only (s : State) (lo hi ns : Nat) : FreeOnly s (phaseLasts s lo hi ns).2 := by
  unfold phaseLasts
  split
  · exact .refl s
  · split
    · exact .refl s
    · exact ⟨s.free + 1, rfl⟩

theorem canWakes_only (s : State) (pattern : Bool) (l : List Nat) : FreeOnly s (canWakes s pattern l).2 := by
  fun_induction canWakes s pattern l with
  | case1 s => exact .refl s
  | case2 s d => exact phaseLasts_only s 500 1800 d
  | case3 s d => exact phaseLasts_only s 500 1800 d
  | case4 s d _ t _ _ _ ih => exact (phaseLasts_only s 500 1800 d).trans ih
  | case5 s d => exact phaseLasts_only s 500 1800 d
  | case6 s d => exact ((phaseLasts_only s 500 1800 d).trans (phaseLasts_only _ 500 1800 _)).trans (phaseLasts_only _ 500 1800 _)
  | case7 s d _ r t _ _ _ _ ih => exact (((phaseLasts_only s 500 1800 d).trans (phaseLasts_only _ 500 1800 _)).trans (phaseLasts_only _ 500 1800 _)).trans ih

theorem linWakes_only (s : State) (l : List Nat) : FreeOnly s (linWakes s l).2 := by
  fun_induction linWakes s l with
  | case1 s d => exact phaseLasts_only s 30000 150000 d
  | case2 s d _ _ _ _ ih => exact (phaseLasts_only s 30000 150000 d).trans ih
  | case3 _ s => exact .refl s

theorem detects_only (s : State) (cause i : Nat) (phases : List Nat) : FreeOnly s (detects s cause i phases).2 := by
  unfold detects
  split
  · exact canWakes_only ..
  · split
    · exact linWakes_only ..
    · exact .refl s

/-- The network whose bus a source watches exists. -/
theorem wakeNet_lt {s : State} {cause i n : Nat} (h : enabledSource s cause i = true) (hn : wakeNet cause i = some n) : n < 14 := by
  unfold wakeNet at hn
  unfold enabledSource at h
  dsimp only at h
  split_ifs at hn h
  all_goals simp only [Bool.and_eq_true, decide_eq_true_eq, Option.some.injEq] at hn h
  all_goals omega

theorem flagWake_only (s : State) (cause i : Nat) : ∃ g, flagWake s cause i = s.onSleep (fun x => { x with net := g }) ∧
    (∀ n, (vget g n).state = (netOf s n).state) ∧ ∀ n, n < 14 → wakeNet cause i = some n → (vget g n).wakeFlag = true := by
  unfold flagWake
  split
  · next n hn =>
    refine ⟨_, rfl, fun k => vget_vmod_proj s.sleep.net n k _ Net.state fun _ => rfl, fun k hk hsame => ?_⟩
    obtain rfl : n = k := Option.some.inj (hn.symm.trans hsame)
    rw [vget_vmod_same _ _ _ hk]
  · next hn => exact ⟨s.sleep.net, rfl, fun _ => rfl, fun n _ hsome => nomatch hn.symm.trans hsome⟩

theorem armedSource_congr {s t : State} {cause i : Nat} (hseq : t.seq = s.seq) (hstore : t.store = s.store) (hdark : t.darkening = s.darkening)
    (hnet : ∀ n, (netOf t n).state = (netOf s n).state) : armedSource t cause i = armedSource s cause i := by
  have hasleep : t.asleep = s.asleep := by simp only [State.asleep, hseq]
  unfold armedSource
  rw [hseq, hdark, hasleep]
  cases wakeNet cause i with
  | none => rfl
  | some n =>
    simp only [hnet, netCfg, hstore]
    rfl

theorem latchWake_armed {s : State} {cause i : Nat} (h : armedSource s cause i = true) : latchWake s cause i = setLatch s cause i := if_pos h

/-- What a source that sees a wake comes to: its latch, with its bus flagged. -/
theorem wakeLatch_detected (s : State) (cause i : Nat) (phases : List Nat) (hon : enabledSource s cause i = true) (hsees : (detects s cause i phases).1 = true) :
    ∃ (f : Nat) (a : Option Nat) (g : Vector Net 14) (u : State), u = { s with free := f, sleep := { s.sleep with alarmAt := a, net := g } } ∧
      wakeLatch s cause i phases = latchWake u cause i ∧ armedSource u cause i = armedSource s cause i ∧
      ∀ n, n < 14 → wakeNet cause i = some n → (vget g n).wakeFlag = true := by
  obtain ⟨f, hf⟩ := detects_only s cause i phases
  obtain ⟨a, ha⟩ : ∃ a, (if cause = 7 then ({ s with free := f } : State).onSleep fun x => { x with alarmAt := none } else { s with free := f }) =
      { s with free := f, sleep := { s.sleep with alarmAt := a } } := by
    split
    · exact ⟨none, rfl⟩
    · exact ⟨s.sleep.alarmAt, rfl⟩
  obtain ⟨g, hg, hstate, hflag⟩ := flagWake_only { s with free := f, sleep := { s.sleep with alarmAt := a } } cause i
  obtain ⟨u, hu⟩ : ∃ u : State, { s with free := f, sleep := { s.sleep with alarmAt := a, net := g } } = u := ⟨_, rfl⟩
  refine ⟨f, a, g, u, hu.symm, ?_, ?_, hflag⟩
  · unfold wakeLatch
    dsimp only
    rw [if_pos hon, if_pos hsees, hf, ha, hg, ← hu]
    rfl
  · refine armedSource_congr ?_ ?_ ?_ fun n => ?_
    · rw [← hu]
    · rw [← hu]
    · rw [← hu]
      rfl
    · rw [← hu]
      exact hstate n

theorem wakeLatch_latches (cause i : Nat) (phases : List Nat) (s : State) (hon : enabledSource s cause i = true)
    (hnew : ∀ l ∈ s.sleep.latches, l.cause = cause → l.index ≠ i) (hsees : (detects s cause i phases).1 = true) (harmed : armedSource s cause i = true) :
    ∃ t, exec (.wakeLatch cause ⟨i, phases⟩) s = .next t ∧
      t.sleep.latches = s.sleep.latches ++
        [⟨cause, i, s.now, s.sleep.darkCommit.isSome || s.asleep, !(s.plane.running && feedsL5 s 0), false, 0, false, false⟩] ∧
      (s.plane.running = true → feedsL5 s 0 = true → ∃ it ∈ (vget t.plane.landings 5).items, it.wake = some (cause, i) ∧ it.hall = 0 ∧
        it.stamp = ⟨s.plane.epoch, s.wallTick + 4⟩) ∧
      ∀ n, wakeNet cause i = some n → (netOf t n).wakeFlag = true := by
  obtain ⟨f, a, g, u, hu, hlatch, hsame, hflag⟩ := wakeLatch_detected s cause i phases hon hsees
  have hset := latchWake_armed (hsame.trans harmed)
  have hlatches : u.sleep.latches = s.sleep.latches := by rw [hu]
  obtain ⟨hlatched, hitem⟩ := setLatch_new u cause i (by rw [hlatches]; exact hnew)
  refine ⟨(setLatch u cause i).withPending s.pending, congrArg (effect s) (hlatch.trans hset), ?_, ?_, fun n hn => ?_⟩
  · refine (congrArg Sleep.latches hlatched).trans ?_
    rw [hu]
    rfl
  · rw [hu] at hitem
    rw [hu]
    exact hitem
  · rw [netOf_withPending, netOf, hlatched, hu]
    exact hflag n (wakeNet_lt hon hn) hn

theorem wakeLatch_ignores (cause i : Nat) (phases : List Nat) (s : State) (hon : enabledSource s cause i = true)
    (hno : (detects s cause i phases).1 = false ∨ armedSource s cause i = false) :
    ∃ t, exec (.wakeLatch cause ⟨i, phases⟩) s = .next t ∧ t.sleep.latches = s.sleep.latches := by
  by_cases hsees : (detects s cause i phases).1 = true
  · obtain ⟨f, a, g, u, hu, hlatch, hsame, -⟩ := wakeLatch_detected s cause i phases hon hsees
    have hunarmed : armedSource u cause i = false := by
      obtain hblind | hunarmed := hno
      · exact absurd (hsees.symm.trans hblind) (by decide)
      · exact hsame.trans hunarmed
    have hkeeps : latchWake u cause i = u := if_neg (by rw [hunarmed]; decide)
    refine ⟨u.withPending s.pending, congrArg (effect s) (hlatch.trans hkeeps), ?_⟩
    rw [hu]
    rfl
  · obtain ⟨f, hf⟩ := detects_only s cause i phases
    have hkeeps : wakeLatch s cause i phases = { s with free := f } := by
      unfold wakeLatch
      dsimp only
      rw [if_pos hon, if_neg hsees, hf]
    exact ⟨({ s with free := f } : State).withPending s.pending, congrArg (effect s) hkeeps, rfl⟩

theorem rtcAlarm_latches (d : Nat) (s : State) (halarm : s.sleep.alarmAt = some d) (hdue : d ≤ s.rtc.time) (harmed : armedSource s 7 0 = true)
    (hnew : ∀ l ∈ s.sleep.latches, l.cause = 7 → l.index ≠ 0) :
    ∃ t, exec .rtcAlarm s = .next t ∧ t.sleep.alarmAt = none ∧
      t.sleep.latches = s.sleep.latches ++
        [⟨7, 0, s.now, s.sleep.darkCommit.isSome || s.asleep, !(s.plane.running && feedsL5 s 0), false, 0, false, false⟩] := by
  obtain ⟨u, hu⟩ : ∃ u, (s.onSleep fun x => { x with alarmAt := none }) = u := ⟨_, rfl⟩
  have hrings : rtcAlarm s = latchWake u 7 0 := by
    unfold rtcAlarm
    rw [halarm]
    dsimp only
    rw [if_pos hdue, hu]
  have harmed' : armedSource u 7 0 = true := by
    rw [← hu]
    exact harmed
  have hset := latchWake_armed harmed'
  obtain ⟨hlatched, -⟩ := setLatch_new u 7 0 (by rw [← hu]; exact hnew)
  refine ⟨(setLatch u 7 0).withPending s.pending, congrArg (effect s) (hrings.trans hset), ?_, ?_⟩
  · refine (congrArg Sleep.alarmAt hlatched).trans ?_
    rw [← hu]
    rfl
  · refine (congrArg Sleep.latches hlatched).trans ?_
    rw [← hu]
    rfl

theorem setLatch_net (s : State) (cause i : Nat) : (setLatch s cause i).sleep.net = s.sleep.net := by
  unfold setLatch
  dsimp only
  split
  · rfl
  · split <;> rfl

/-- A change of a network that leaves its state leaves which sources are armed. -/
theorem armedSource_onNet (s : State) (n : Nat) (f : Net → Net) (hf : ∀ x, (f x).state = x.state) (cause i : Nat) :
    armedSource (s.onNet n f) cause i = armedSource s cause i :=
  armedSource_congr rfl rfl rfl fun k => vget_vmod_proj s.sleep.net n k f Net.state hf

theorem selectiveWake_matches (n : Nat) (f : CanFrame) (s : State) (hn : n < 8) (hen : (vget s.store.sleep.xcvr n).swEn = true) (hidle : 2 ≤ (netOf s n).xcvr)
    (hclassic : f.fdf = false) (hmatch : wakeMatch (vget s.store.sleep.xcvr n) f = true) (harmed : armedSource s 4 n = true) :
    ∃ t, exec (.selectiveWakeFrame n f true) s = .next t ∧ (∃ l ∈ t.sleep.latches, l.cause = 4 ∧ l.index = n) ∧ (netOf t n).wakeFlag = true ∧
      (netOf t n).swErr = (netOf s n).swErr - 1 := by
  obtain ⟨u, hu⟩ : ∃ u, ((s.onNet n fun x => { x with swErr := x.swErr - 1 }).onNet n fun x => { x with wakeFlag := true }) = u := ⟨_, rfl⟩
  have hnet : netOf u n = { netOf s n with swErr := (netOf s n).swErr - 1, wakeFlag := true } := by
    rw [← hu, onNet_same _ n _ (by omega), onNet_same _ n _ (by omega)]
  have harmed' : armedSource u 4 n = true := by
    rw [← hu, armedSource_onNet, armedSource_onNet]
    · exact harmed
    · exact fun _ => rfl
    · exact fun _ => rfl
  have hwakes : selectiveWake s n f true = setLatch u 4 n := by
    have hlatch := latchWake_armed harmed'
    unfold selectiveWake
    dsimp only
    rw [if_pos ⟨hen, hidle, by rw [hclassic]; rfl⟩, if_pos rfl, if_pos hmatch, hu, hlatch]
  refine ⟨(setLatch u 4 n).withPending s.pending, congrArg (effect s) hwakes, setLatch_latches u 4 n, ?_, ?_⟩
  · rw [netOf_withPending, netOf, setLatch_net]
    exact (congrArg Net.wakeFlag hnet :)
  · rw [netOf_withPending, netOf, setLatch_net]
    exact (congrArg Net.swErr hnet :)

theorem selectiveWake_counts (n : Nat) (f : CanFrame) (s : State) (hn : n < 8) (hen : (vget s.store.sleep.xcvr n).swEn = true) (hidle : 2 ≤ (netOf s n).xcvr)
    (hclassic : f.fdf = false) (hfew : (netOf s n).swErr < 31) :
    ∃ t, exec (.selectiveWakeFrame n f false) s = .next t ∧ (netOf t n).swErr = (netOf s n).swErr + 1 ∧ t.sleep.latches = s.sleep.latches := by
  obtain ⟨u, hu⟩ : ∃ u, (s.onNet n fun x => { x with swErr := min 32 (x.swErr + 1) }) = u := ⟨_, rfl⟩
  have herr : (netOf u n).swErr = (netOf s n).swErr + 1 := by
    rw [← hu, onNet_same s n _ (by omega)]
    exact Nat.min_eq_right (by omega)
  have hcounts : selectiveWake s n f false = u := by
    unfold selectiveWake
    dsimp only
    rw [if_pos ⟨hen, hidle, by rw [hclassic]; rfl⟩, if_neg Bool.false_ne_true, hu, if_neg (by omega)]
  refine ⟨u.withPending s.pending, congrArg (effect s) hcounts, herr, ?_⟩
  rw [← hu]
  rfl

theorem selectiveWake_overflows (n : Nat) (f : CanFrame) (s : State) (hn : n < 8) (hen : (vget s.store.sleep.xcvr n).swEn = true) (hidle : 2 ≤ (netOf s n).xcvr)
    (hclassic : f.fdf = false) (hlast : (netOf s n).swErr = 31) (harmed : armedSource s 5 n = true) :
    ∃ t, exec (.selectiveWakeFrame n f false) s = .next t ∧ (netOf t n).swErr = 32 ∧ (netOf t n).wakeFlag = true ∧
      ∃ l ∈ t.sleep.latches, l.cause = 5 ∧ l.index = n := by
  obtain ⟨v, hv⟩ : ∃ v, (s.onNet n fun x => { x with swErr := min 32 (x.swErr + 1) }) = v := ⟨_, rfl⟩
  have herr : (netOf v n).swErr = 32 := by
    rw [← hv, onNet_same s n _ (by omega)]
    dsimp only
    rw [hlast]
    decide
  obtain ⟨u, hu⟩ : ∃ u, (v.onNet n fun x => { x with wakeFlag := true }) = u := ⟨_, rfl⟩
  have hnet : netOf u n = { netOf v n with wakeFlag := true } := by
    rw [← hu]
    exact onNet_same v n _ (by omega)
  have harmed' : armedSource u 5 n = true := by
    rw [← hu, ← hv, armedSource_onNet, armedSource_onNet]
    · exact harmed
    · exact fun _ => rfl
    · exact fun _ => rfl
  have hwakes : selectiveWake s n f false = setLatch u 5 n := by
    have hlatch := latchWake_armed harmed'
    unfold selectiveWake
    dsimp only
    rw [if_pos ⟨hen, hidle, by rw [hclassic]; rfl⟩, if_neg Bool.false_ne_true, hv, if_pos herr, hu, hlatch]
  refine ⟨(setLatch u 5 n).withPending s.pending, congrArg (effect s) hwakes, ?_, ?_, setLatch_latches u 5 n⟩
  · rw [netOf_withPending, netOf, setLatch_net]
    exact (congrArg Net.swErr hnet :).trans herr
  · rw [netOf_withPending, netOf, setLatch_net]
    exact (congrArg Net.wakeFlag hnet :)

end Sys2Proof.Machine

namespace Sys2Proof.Machine

open Sys2Proof.Claims

/-! What the operations of a device commit leave alone (R283). -/

/-- What decides the stamp of an event and the rings that take it. -/
structure PostRules where
  running : Bool
  epoch : Nat
  tick : Nat
  settings : List OldSettings
  sys : SysCfg

/-- The rules of posting in a state. -/
def State.posting (s : State) : PostRules := ⟨s.plane.running, s.plane.epoch, s.plane.tick, s.plane.settings, s.store.sys⟩

theorem ev_of_posting {s t : State} (h : t.posting = s.posting) (hall kind address value : Nat) (point : Bool) (comp : Nat) :
    t.ev hall kind address value point comp = s.ev hall kind address value point comp := by
  simp only [State.posting, PostRules.mk.injEq] at h
  obtain ⟨hrun, hepoch, htick, -, -⟩ := h
  simp only [State.ev, State.stamp, hrun, hepoch, htick]

theorem eventRings_of_posting {s t : State} (h : t.posting = s.posting) (e : Ev) : eventRings t e = eventRings s e := by
  simp only [State.posting, PostRules.mk.injEq] at h
  obtain ⟨-, hepoch, -, hsettings, hsys⟩ := h
  exact eventRings_congr hsettings hepoch hsys e

/-- What the device commit clears, the packets that wait, in the dispatcher, with the keeper and in flights, and the poll, with the rules of posting, the time and the retention block. -/
structure WaitParts where
  keeper : List Packet
  waiting : List Waiting
  flights : Nat → List Flight
  poll : Option Poll
  posting : PostRules
  now : Nat
  ret : Retention

/-- The packets that wait, the poll, the rules of posting and the time of a state. -/
def State.waits (s : State) : WaitParts where
  keeper := s.plane.keeper
  waiting := s.plane.waiting
  flights := fun r => (vget s.plane.rings r).flights
  poll := s.access.poll
  posting := s.posting
  now := s.now
  ret := s.ret

theorem onRing_waits (s : State) (r : Nat) (f : Ring → Ring) (h : ∀ g, (f g).flights = g.flights) : (s.onRing r f).waits = s.waits := by
  simp only [State.waits, State.onRing, State.onPlane, State.posting, WaitParts.mk.injEq, true_and, and_true]
  exact funext fun k => vget_vmod_proj s.plane.rings r k f Ring.flights h

@[simp] theorem observe_waits (s : State) (h idx : Nat) (w : List (Nat × PVal)) (es : List Ev) (caps : List CapRecord) : (observe s h idx w es caps).waits = s.waits := by
  rw [observe_only]
  rfl

theorem countIrq_flights (g : Ring) : g.countIrq.flights = g.flights := by
  unfold Ring.countIrq
  (repeat' split) <;> rfl

theorem complete_flights (g : Ring) (slot : Nat) (a : Option Stamp) : (g.complete slot a).flights = g.flights := by
  unfold Ring.complete
  split <;> rfl

@[simp] theorem retirePacket_waits (s : State) (p : Packet) : (retirePacket s p).waits = s.waits := onRing_waits s _ _ fun _ => (countIrq_flights _).trans (complete_flights ..)

@[simp] theorem memWriteN_waits (bs : List Byte) (s : State) (a : Nat) : (memWriteN s a bs).waits = s.waits := by
  rw [memWriteN_only]
  rfl

@[simp] theorem ringWrite_waits (s : State) (r : Nat) (bytes : List Byte) : (ringWrite s r bytes).waits = s.waits := by
  unfold ringWrite
  dsimp only
  rw [onRing_waits]
  · exact foldl_keeps State.waits _ (fun u i => memWriteN_waits ..) _ _
  · exact fun _ => countIrq_flights _

@[simp] theorem onPoints_waits (s : State) (f : Points → Points) : (s.onPoints f).waits = s.waits := rfl

@[simp] theorem onCan_waits (s : State) (c : Nat) (f : Can → Can) : (s.onCan c f).waits = s.waits := rfl

@[simp] theorem onLin_waits (s : State) (c : Nat) (f : Lin → Lin) : (s.onLin c f).waits = s.waits := rfl

@[simp] theorem onEth_waits (s : State) (f : Eth → Eth) : (s.onEth f).waits = s.waits := rfl

@[simp] theorem onPort_waits (s : State) (n : Nat) (f : EthPort → EthPort) : (s.onPort n f).waits = s.waits := rfl

@[simp] theorem onCipher_waits (s : State) (f : Cipher → Cipher) : (s.onCipher f).waits = s.waits := rfl

@[simp] theorem onLog_waits (s : State) (f : Logbook → Logbook) : (s.onLog f).waits = s.waits := rfl

@[simp] theorem onNet_waits (s : State) (n : Nat) (f : Net → Net) : (s.onNet n f).waits = s.waits := rfl

@[simp] theorem onSeq_waits (s : State) (f : Seq → Seq) : (s.onSeq f).waits = s.waits := rfl

@[simp] theorem onTrial_waits (s : State) (f : Trial → Trial) : (s.onTrial f).waits = s.waits := rfl

@[simp] theorem onShadow_waits (s : State) (r : Nat) (f : Ring → Ring) : (s.onShadow r f).waits = s.waits := rfl

/-! Network management (R285–R294): what a change of a network leaves. -/

theorem landPut_other (s : State) (l k : Nat) (it : LandItem) (h : l ≠ k) : (vget (landPut s l it).plane.landings k).items = (vget s.plane.landings k).items :=
  congrArg Landing.items (vget_vmod_ne s.plane.landings l k _ h)

theorem capItem_forKeeper (s : State) (r : CapRecord) (idx : Nat) : (vget (capItem s r idx).plane.landings 5).items = (vget s.plane.landings 5).items := by
  unfold capItem
  split
  · exact landPut_other s 9 5 _ (by decide)
  · rfl

/-- What a hall observes leads to the sense landing and to the capture unit, not to the keeper. -/
theorem observe_forKeeper (s : State) (hall idx : Nat) (w : List (Nat × PVal)) (es : List Ev) (caps : List CapRecord) :
    (vget (observe s hall idx w es caps).plane.landings 5).items = (vget s.plane.landings 5).items := by
  unfold observe sense
  split
  · exact (foldl_keeps (fun u : State => (vget u.plane.landings 5).items) _ (fun u c => capItem_forKeeper ..) _ _).trans (landPut_other s 0 5 _ (by decide))
  · rfl

/-- A change of the networks: of the sleep part nothing but the networks differs; the store, the sequencer and the time stand. -/
structure NetsOnly (s t : State) : Prop where
  carries : Carries s t
  store : t.store = s.store
  seq : t.seq = s.seq
  now : t.now = s.now
  lin : t.plane.lin = s.plane.lin
  sleep : ∃ g, t.sleep = { s.sleep with net := g }
  waits : t.waits = s.waits
  forKeeper : (vget t.plane.landings 5).items = (vget s.plane.landings 5).items

theorem NetsOnly.refl (s : State) : NetsOnly s s := ⟨.refl s, rfl, rfl, rfl, rfl, ⟨s.sleep.net, rfl⟩, rfl, rfl⟩

theorem NetsOnly.trans {s t u : State} (h : NetsOnly s t) (h' : NetsOnly t u) : NetsOnly s u := by
  obtain ⟨g, hg⟩ := h.sleep
  obtain ⟨g', hg'⟩ := h'.sleep
  exact ⟨h.carries.trans h'.carries, h'.store.trans h.store, h'.seq.trans h.seq, h'.now.trans h.now, h'.lin.trans h.lin, ⟨g', by rw [hg', hg]⟩,
    h'.waits.trans h.waits, h'.forKeeper.trans h.forKeeper⟩

theorem NetsOnly.onNet (s : State) (n : Nat) (f : Net → Net) : NetsOnly s (s.onNet n f) := ⟨(Carries.refl s).same rfl, rfl, rfl, rfl, rfl, ⟨_, rfl⟩, rfl, rfl⟩

theorem NetsOnly.onLin (s : State) (c : Nat) (f : Lin → Lin) : NetsOnly s (s.onLin c f) := ⟨(Carries.refl s).onLin, rfl, rfl, rfl, rfl, ⟨s.sleep.net, rfl⟩, rfl, rfl⟩

theorem NetsOnly.onCan (s : State) (c : Nat) (f : Can → Can) : NetsOnly s (s.onCan c f) := ⟨(Carries.refl s).onCan, rfl, rfl, rfl, rfl, ⟨s.sleep.net, rfl⟩, rfl, rfl⟩

theorem NetsOnly.observe (s : State) (hall idx : Nat) (w : List (Nat × PVal)) (es : List Ev) (caps : List CapRecord) : NetsOnly s (observe s hall idx w es caps) := by
  have honly := observe_only s hall idx w es caps
  exact ⟨(Carries.refl s).observe, (congrArg State.store honly :), (congrArg State.seq honly :), (congrArg State.now honly :),
    (congrArg (fun u : State => u.plane.lin) honly :), ⟨s.sleep.net, (congrArg State.sleep honly :)⟩, observe_waits .., observe_forKeeper ..⟩

theorem NetsOnly.setCanState (s : State) (c st : Nat) : NetsOnly s (setCanState s c st) := by
  unfold Machine.setCanState
  split
  · exact .refl s
  · dsimp only
    split
    · exact .onCan s c _
    · exact (NetsOnly.onCan s c _).trans (.observe ..)

theorem NetsOnly.netEvent (s : State) (n kind address value : Nat) : NetsOnly s (netEvent s n kind address value) := .observe ..

theorem NetsOnly.integrate (s : State) (n : Nat) : NetsOnly s (integrate s n) := by
  unfold Machine.integrate
  split
  · exact .setCanState ..
  · exact .refl s

theorem NetsOnly.setXcvr (s : State) (n st : Nat) : NetsOnly s (setXcvr s n st) := by
  unfold Machine.setXcvr
  dsimp only
  split
  · exact .refl s
  · obtain ⟨u, hu⟩ : ∃ u, Machine.netEvent (s.onNet n fun x => { x with xcvr := st }) n 0x0903 n st = u := ⟨_, rfl⟩
    have hevent : NetsOnly s u := by
      rw [← hu]
      exact (NetsOnly.onNet s n _).trans (.netEvent ..)
    rw [hu]
    obtain ⟨v, hv⟩ : ∃ v, (if 8 ≤ n then u.onLin (n - 8) fun x => { x with asleep := decide (2 ≤ st), lastBus := if st < 2 then u.now else x.lastBus } else u) = v :=
      ⟨_, rfl⟩
    have hlin : NetsOnly s v := by
      rw [← hv]
      split
      · exact hevent.trans (.onLin ..)
      · exact hevent
    rw [hv]
    split
    · exact hlin.trans (.integrate ..)
    · exact hlin

theorem NetsOnly.setNet (s : State) (n st : Nat) : NetsOnly s (setNet s n st) := by
  unfold Machine.setNet
  split
  · exact .refl s
  · exact (NetsOnly.onNet s n _).trans (.netEvent ..)

theorem NetsOnly.linCommit (s : State) (l : Nat) : NetsOnly s (linCommit s l) := by
  unfold Machine.linCommit
  split
  · exact .refl s
  · exact (((NetsOnly.setNet s l 1).trans (.setXcvr _ l 3)).trans (.onLin ..)).trans (.onNet ..)

theorem NetsOnly.goToSleep (s : State) (l : Nat) : NetsOnly s (goToSleep s l) := ⟨Carries.of_results rfl, rfl, rfl, rfl, rfl, ⟨s.sleep.net, rfl⟩, rfl, rfl⟩

theorem NetsOnly.follow (s : State) (l st : Nat) (woken : Bool) : NetsOnly s (follow s l st woken) := by
  unfold Machine.follow
  dsimp only
  split
  · split
    · exact .linCommit s l
    · exact .refl s
  · split
    · refine NetsOnly.trans ?_ (.setNet ..)
      split
      · exact .goToSleep s l
      · exact .refl s
    · exact ((NetsOnly.onLin s (l - 8) _).trans (.setXcvr ..)).trans (.setNet ..)

theorem NetsOnly.foldl {α : Type} {f : State → α → State} (hstep : ∀ u a, NetsOnly u (f u a)) (l : List α) (s : State) : NetsOnly s (l.foldl f s) :=
  List.foldlRecOn (motive := NetsOnly s) l f (.refl s) fun u hu a _ => hu.trans (hstep u a)

theorem NetsOnly.enterNet (s : State) (n st : Nat) : NetsOnly s (enterNet s n st) := (NetsOnly.setNet s n st).trans (.foldl (fun u l => .follow u l st _) _ _)

theorem NetsOnly.enterReady (s : State) (n : Nat) : NetsOnly s (enterReady s n) := (NetsOnly.onNet s n _).trans (.enterNet ..)

theorem NetsOnly.enterNormal (s : State) (n : Nat) : NetsOnly s (enterNormal s n) := (NetsOnly.onNet s n _).trans (.enterNet ..)

theorem NetsOnly.enterWait (s : State) (n : Nat) : NetsOnly s (enterWait s n) := (NetsOnly.onNet s n _).trans (.enterNet ..)

theorem NetsOnly.requestNet (s : State) (n cause : Nat) : NetsOnly s (requestNet s n cause) := by
  unfold Machine.requestNet
  dsimp only
  split
  · exact .refl s
  · obtain ⟨u, hu⟩ : ∃ u, (s.onNet n fun x => { x with
        requested := true, cancels := if cancelsSleep (netOf s n).state cause = true then satAdd32 x.cancels 1 else x.cancels
        wakeReason := if cause = 0 then x.wakeReason else some cause
        lastWake := if (netOf s n).state = 1 ∧ cause ≠ 0 then cause else x.lastWake }) = u := ⟨_, rfl⟩
    have hu' : NetsOnly s u := by
      rw [← hu]
      exact .onNet ..
    rw [hu]
    obtain ⟨v, hv⟩ : ∃ v, (if cancelsSleep (netOf s n).state cause = true ∧ cause ≠ 0 ∧ cause ≠ 10 then Machine.netEvent u n 0x0905 n cause else u) = v := ⟨_, rfl⟩
    have hv' : NetsOnly s v := by
      rw [← hv]
      split
      · exact hu'.trans (.netEvent ..)
      · exact hu'
    rw [hv]
    obtain ⟨w, hw⟩ : ∃ w, (if (netOf s n).state = 1 then Machine.setXcvr v n 0 else v) = w := ⟨_, rfl⟩
    have hw' : NetsOnly s w := by
      rw [← hw]
      split
      · exact hv'.trans (.setXcvr ..)
      · exact hv'
    rw [hw]
    split
    · exact hw'
    · split
      · exact hw'.trans (.follow ..)
      · exact hw'.trans (.enterNormal ..)

theorem NetsOnly.releaseNet (s : State) (n : Nat) : NetsOnly s (releaseNet s n) := by
  have hnet := NetsOnly.onNet s n fun x => { x with requested := false }
  unfold Machine.releaseNet
  dsimp only
  split
  · exact hnet
  · split
    · split
      · exact hnet
      · exact hnet.trans (.follow ..)
    · exact hnet.trans (.enterReady ..)

theorem NetsOnly.wakeReady (s : State) (n cause : Nat) : NetsOnly s (wakeReady s n cause) := by
  unfold Machine.wakeReady
  dsimp only
  split
  · split
    · exact (NetsOnly.onNet s n _).trans (.follow ..)
    · exact ((NetsOnly.onNet s n _).trans (.setXcvr ..)).trans (.enterReady ..)
  · exact .refl s

theorem NetsOnly.busWake (s : State) (n cause : Nat) : NetsOnly s (busWake s n cause) := by
  unfold Machine.busWake
  dsimp only
  split
  · exact (NetsOnly.wakeReady s n cause).trans (.wakeReady ..)
  · exact .wakeReady s n cause

theorem NetsOnly.wakeNetworks (s : State) (cause index : Nat) : NetsOnly s (wakeNetworks s cause index) := by
  have hrequests := NetsOnly.foldl (fun u n => .requestNet u n cause) (bitList 14 (wakeMask s.store.sleep cause)) s
  unfold Machine.wakeNetworks
  dsimp only
  split
  · exact hrequests.trans (.busWake ..)
  · exact hrequests

theorem NetsOnly.nmAnyFrame (s : State) (n : Nat) : NetsOnly s (nmAnyFrame s n) := by
  unfold Machine.nmAnyFrame
  dsimp only
  split
  · exact ((NetsOnly.onNet s n _).trans (.netEvent ..)).trans (.enterReady ..)
  · exact .refl s

theorem NetsOnly.netCfg {s t : State} (h : NetsOnly s t) (n : Nat) : netCfg t n = netCfg s n := by rw [Machine.netCfg, Machine.netCfg, h.store]

end Sys2Proof.Machine

namespace Sys2Proof.Machine

open Sys2Proof.Claims

/-! What the network that is meant becomes, and what the other networks keep (R285–R294). -/

theorem netOf_onNet_other (s : State) (n k : Nat) (f : Net → Net) (h : k ≠ n) : netOf (s.onNet n f) k = netOf s k := vget_vmod_ne _ _ _ _ h.symm

theorem netOf_setCanState (s : State) (c st k : Nat) : netOf (setCanState s c st) k = netOf s k := by
  unfold setCanState
  split
  · rfl
  · dsimp only
    split
    · rfl
    · exact congrArg (fun x : Sleep => vget x.net k) (observe_sleep ..)

theorem netOf_integrate (s : State) (n k : Nat) : netOf (integrate s n) k = netOf s k := by
  unfold integrate
  split
  · exact netOf_setCanState ..
  · rfl

theorem setXcvr_net (s : State) (n st : Nat) (hn : n < 14) :
    netOf (setXcvr s n st) n = { netOf s n with xcvr := st } ∧ ∀ k, k ≠ n → netOf (setXcvr s n st) k = netOf s k := by
  unfold setXcvr
  dsimp only
  split
  · next hsame => exact ⟨by rw [← hsame], fun _ _ => rfl⟩
  · obtain ⟨u, hu⟩ : ∃ u, netEvent (s.onNet n fun x => { x with xcvr := st }) n 0x0903 n st = u := ⟨_, rfl⟩
    have hown : netOf u n = { netOf s n with xcvr := st } := by
      rw [← hu, netOf_netEvent]
      exact onNet_same s n _ hn
    have hother (k : Nat) (hk : k ≠ n) : netOf u k = netOf s k := by
      rw [← hu, netOf_netEvent]
      exact netOf_onNet_other s n k _ hk
    rw [hu]
    obtain ⟨v, hv⟩ : ∃ v, (if 8 ≤ n then u.onLin (n - 8) fun x => { x with asleep := decide (2 ≤ st), lastBus := if st < 2 then u.now else x.lastBus } else u) = v :=
      ⟨_, rfl⟩
    have hsame (k : Nat) : netOf v k = netOf u k := by
      rw [← hv]
      split <;> rfl
    rw [hv]
    split
    · simp only [netOf_integrate, hsame]
      exact ⟨hown, hother⟩
    · simp only [hsame]
      exact ⟨hown, hother⟩

theorem setNet_net (s : State) (n st : Nat) (hn : n < 14) :
    netOf (setNet s n st) n = { netOf s n with state := st } ∧ ∀ k, k ≠ n → netOf (setNet s n st) k = netOf s k := by
  unfold setNet
  split
  · next hsame => exact ⟨by rw [← hsame], fun _ _ => rfl⟩
  · simp only [netOf_netEvent]
    exact ⟨onNet_same s n _ hn, fun k hk => netOf_onNet_other s n k _ hk⟩

theorem linCommit_other (s : State) (l k : Nat) (hl : l < 14) (h : k ≠ l) : netOf (linCommit s l) k = netOf s k := by
  unfold linCommit
  split
  · rfl
  · dsimp only
    obtain ⟨u, hu⟩ : ∃ u, (setXcvr (setNet s l 1) l 3).onLin (l - 8) (fun x => { x with asleep := true, header := none }) = u := ⟨_, rfl⟩
    have hkept : netOf u k = netOf s k := by
      rw [← hu]
      exact ((setXcvr_net (setNet s l 1) l 3 hl).2 k h).trans ((setNet_net s l 1 hl).2 k h)
    rw [hu]
    exact (netOf_onNet_other u l k _ h).trans hkept

theorem follow_other (s : State) (l st k : Nat) (woken : Bool) (hl : l < 14) (h : k ≠ l) : netOf (follow s l st woken) k = netOf s k := by
  unfold follow
  dsimp only
  split
  · split
    · exact linCommit_other s l k hl h
    · rfl
  · split
    · refine ((setNet_net _ l 4 hl).2 k h).trans ?_
      split <;> rfl
    · exact ((setNet_net _ l st hl).2 k h).trans ((setXcvr_net _ l 0 hl).2 k h)

/-- A follower is a LIN network, and the network that it follows a CAN network. -/
theorem mem_followers {s : State} {n l : Nat} (h : l ∈ followers s n) : 8 ≤ l ∧ l < 14 ∧ n < 8 := by
  unfold followers at h
  obtain ⟨hl, hfollows⟩ := List.mem_filter.1 h
  obtain ⟨c, hc, rfl⟩ := List.mem_map.1 hl
  have hlt := List.mem_range.1 hc
  simp only [Bool.and_eq_true, decide_eq_true_eq] at hfollows
  omega

theorem foldl_follow_other (n st k : Nat) (woken : Bool) (l : List Nat) (s : State) (h : ∀ a ∈ l, a < 14 ∧ k ≠ a) :
    netOf (l.foldl (fun s l => follow s l st woken) s) k = netOf s k := by
  induction l generalizing s with
  | nil => rfl
  | cons a as ih =>
    obtain ⟨ha, hne⟩ := h a (List.mem_cons_self ..)
    exact (ih (follow s a st woken) fun b hb => h b (List.mem_cons_of_mem _ hb)).trans (follow_other s a st k woken ha hne)

theorem enterNet_net (s : State) (n st : Nat) (hn : n < 14) : netOf (enterNet s n st) n = { netOf s n with state := st } := by
  rw [← (setNet_net s n st hn).1]
  unfold enterNet
  dsimp only
  refine foldl_follow_other n st n _ _ _ fun l hl => ?_
  obtain ⟨hleast, hmost, hcan⟩ := mem_followers hl
  omega

theorem enterNet_observed (s : State) (n st : Nat) (hnew : (netOf s n).state ≠ st) : Observed s (enterNet s n st) 6 (32 + n) [] [s.ev 6 0x0901 n st] := by
  have hfollow := NetsOnly.foldl (fun u l => .follow u l st ((netOf s n).state == 1 && st != 1)) (followers s n) (setNet s n st)
  exact Observed.mono (setNet_observed s n st hnew) hfollow.carries.items

theorem enterReady_net (s : State) (n : Nat) (hn : n < 14) : netOf (enterReady s n) n = { netOf s n with
    kaAt := none, wbsAt := none, timeoutAt := if (netCfg s n).mode = 1 then some (s.plane.lin + msTicks (netCfg s n).timeoutMs) else none
    ringMaxAt := if (netCfg s n).mode = 2 then some (s.plane.lin + msTicks (netCfg s n).ringMaxMs) else none, state := 3 } := by
  unfold enterReady
  dsimp only
  rw [enterNet_net _ n 3 hn, onNet_same s n _ hn]

theorem enterNormal_net (s : State) (n : Nat) (hn : n < 14) : ∃ k r d, netOf (enterNormal s n) n = { netOf s n with
    wbsAt := none, timeoutAt := none, kaAt := k, ringMaxAt := r, sendAt := d, state := 2 } := by
  unfold enterNormal
  dsimp only
  rw [enterNet_net _ n 2 hn, onNet_same s n _ hn]
  exact ⟨_, _, _, rfl⟩

theorem enterWait_net (s : State) (n : Nat) (hn : n < 14) : netOf (enterWait s n) n = { netOf s n with
    kaAt := none, timeoutAt := none, sendAt := none, ringMaxAt := none, wbsAt := some (s.plane.lin + msTicks (netCfg s n).wbsMs), state := 4 } := by
  unfold enterWait
  dsimp only
  rw [enterNet_net _ n 4 hn, onNet_same s n _ hn]

/-! Messages, timers and commits of network management (R285, R291–R293). -/

theorem notePeer_notes (s : State) (n node : Nat) (hn : n < 14) : NetsOnly s (notePeer s n node) ∧ ∃ l, netOf (notePeer s n node) n = { netOf s n with peers := l } ∧
    ∃ p ∈ l, p.node = node ∧ p.heard = s.plane.lin := by
  obtain ⟨l, hl⟩ : ∃ l, (if ((netOf s n).peers.any fun p => p.node == node) = true
    then (netOf s n).peers.map fun p => if p.node = node then { p with heard := s.plane.lin, missed := 0 } else p
    else (netOf s n).peers ++ [{ node := node, heard := s.plane.lin }]) = l := ⟨_, rfl⟩
  obtain ⟨u, hu⟩ : ∃ u, (s.onNet n fun x => { x with
      peers := if ((netOf s n).peers.any fun p => p.node == node) = true
        then x.peers.map fun p => if p.node = node then { p with heard := s.plane.lin, missed := 0 } else p
        else x.peers ++ [{ node := node, heard := s.plane.lin }] }) = u := ⟨_, rfl⟩
  have hnet : netOf u n = { netOf s n with peers := l } := by
    rw [← hu, onNet_same s n _ hn, ← hl]
  have honly : NetsOnly s u := by
    rw [← hu]
    exact .onNet ..
  have hknown : ∃ p ∈ l, p.node = node ∧ p.heard = s.plane.lin := by
    rw [← hl]
    split
    · next hany =>
      obtain ⟨p, hp, hnode⟩ := List.any_eq_true.1 hany
      have hnode' := beq_iff_eq.1 hnode
      exact ⟨{ p with heard := s.plane.lin, missed := 0 }, List.mem_map.2 ⟨p, hp, if_pos hnode'⟩, hnode', rfl⟩
    · exact ⟨_, List.mem_append_right _ (List.mem_singleton.2 rfl), rfl, rfl⟩
  unfold notePeer
  dsimp only
  rw [hu]
  split
  · exact ⟨honly, l, hnet, hknown⟩
  · exact ⟨honly.trans (.netEvent ..), l, (netOf_netEvent ..).trans hnet, hknown⟩

/-- A message that finds its network in READY (R292, R293). -/
theorem nmRx_ready (n : Nat) (m : NmMessage) (s : State) (hn : n < 8) (hmode : (netCfg s n).mode = 1 ∨ (netCfg s n).mode = 2) (hready : (netOf s n).state = 3)
    (hxcvr : (netOf s n).xcvr < 2) : ∃ u l, NetsOnly s u ∧ netOf u n = { netOf s n with peers := l } ∧ (∃ p ∈ l, p.node = m.source ∧ p.heard = s.plane.lin) ∧
      nmRx s n m = if (netCfg s n).mode = 2 ∧ m.ring = true then ringRx u n m
        else if (netCfg s n).mode = 1 ∧ m.active = true ∧ (netOf u n).state = 3 then
          u.onNet n fun x => { x with timeoutAt := some (u.plane.lin + msTicks (netCfg s n).timeoutMs) }
        else u := by
  obtain ⟨honly, l, hnet, hpeer⟩ := notePeer_notes s n m.source (by omega)
  refine ⟨notePeer s n m.source, l, honly, hnet, hpeer, ?_⟩
  have hquiet : nmAnyFrame s n = s := if_neg fun h => by omega
  unfold nmRx
  dsimp only
  rw [if_pos ⟨hmode, by omega, by omega, hxcvr⟩, hquiet]

theorem nmMessageRx_active (n : Nat) (m : NmMessage) (s : State) (hn : n < 8) (hready : (netOf s n).state = 3) (hxcvr : (netOf s n).xcvr < 2)
    (hmode : (netCfg s n).mode = 1) (hactive : m.active = true) : ∃ t, exec (.nmMessageRx n m) s = .next t ∧
      (netOf t n).timeoutAt = some (s.plane.lin + msTicks (netCfg s n).timeoutMs) ∧ (netOf t n).state = 3 ∧
      ∃ p ∈ (netOf t n).peers, p.node = m.source ∧ p.heard = s.plane.lin := by
  obtain ⟨u, l, honly, hnet, hpeer, hrx⟩ := nmRx_ready n m s hn (Or.inl hmode) hready hxcvr
  have hstate : (netOf u n).state = 3 := (congrArg Net.state hnet :).trans hready
  rw [if_neg (by omega), if_pos ⟨hmode, hactive, hstate⟩] at hrx
  obtain ⟨w, hw⟩ : ∃ w, (u.onNet n fun x => { x with timeoutAt := some (u.plane.lin + msTicks (netCfg s n).timeoutMs) }) = w := ⟨_, rfl⟩
  have hend : netOf w n = { netOf s n with peers := l, timeoutAt := some (s.plane.lin + msTicks (netCfg s n).timeoutMs) } := by
    rw [← hw, onNet_same u n _ (by omega), hnet, honly.lin]
  rw [hw] at hrx
  refine ⟨w.withPending s.pending, congrArg (effect s) hrx, ?_⟩
  rw [netOf_withPending, hend]
  exact ⟨rfl, hready, hpeer⟩

theorem nmMessageRx_ring (n : Nat) (m : NmMessage) (s : State) (hn : n < 8) (hready : (netOf s n).state = 3) (hxcvr : (netOf s n).xcvr < 2)
    (hmode : (netCfg s n).mode = 2) (hring : m.ring = true) (hack : m.sleepAck = false) (hdest : m.dest = (netCfg s n).node) :
    ∃ t, exec (.nmMessageRx n m) s = .next t ∧
      (netOf t n).sendAt = some (s.plane.lin + msTicks (netCfg s n).ringTypMs) ∧
      (netOf t n).ringMaxAt = some (s.plane.lin + msTicks (netCfg s n).ringMaxMs) ∧ ∃ p ∈ (netOf t n).peers, p.node = m.source ∧ p.heard = s.plane.lin := by
  obtain ⟨u, l, honly, hnet, hpeer, hrx⟩ := nmRx_ready n m s hn (Or.inr hmode) hready hxcvr
  have hcfg : netCfg u n = netCfg s n := honly.netCfg n
  have htoken : ringRx u n m = u.onNet n fun x => { x with
      ringMaxAt := some (u.plane.lin + msTicks (netCfg u n).ringMaxMs), allInd := x.allInd && m.sleepInd
      sendAt := if m.dest = (netCfg u n).node then some (u.plane.lin + msTicks (netCfg u n).ringTypMs) else x.sendAt } := by
    unfold ringRx
    dsimp only
    rw [if_neg fun h => ?_]
    rw [hack] at h
    exact Bool.false_ne_true h.1
  rw [if_pos ⟨hmode, hring⟩, htoken] at hrx
  obtain ⟨w, hw⟩ : ∃ w, (u.onNet n fun x => { x with
      ringMaxAt := some (u.plane.lin + msTicks (netCfg u n).ringMaxMs), allInd := x.allInd && m.sleepInd
      sendAt := if m.dest = (netCfg u n).node then some (u.plane.lin + msTicks (netCfg u n).ringTypMs) else x.sendAt }) = w := ⟨_, rfl⟩
  have hend : netOf w n = { netOf s n with
        peers := l, ringMaxAt := some (s.plane.lin + msTicks (netCfg s n).ringMaxMs), allInd := (netOf s n).allInd && m.sleepInd
        sendAt := some (s.plane.lin + msTicks (netCfg s n).ringTypMs) } := by
    rw [← hw, onNet_same u n _ (by omega), hnet, honly.lin, hcfg, if_pos hdest]
  rw [hw] at hrx
  refine ⟨w.withPending s.pending, congrArg (effect s) hrx, ?_⟩
  rw [netOf_withPending, hend]
  exact ⟨rfl, rfl, hpeer⟩

theorem nmTimeout_waits (n d : Nat) (s : State) (hn : n < 14) (hready : (netOf s n).state = 3) (hmode : (netCfg s n).mode = 1)
    (htimeout : (netOf s n).timeoutAt = some d) (hdue : d ≤ s.plane.lin) :
    ∃ t, exec (.nmTimeout n) s = .next t ∧ (netOf t n).state = 4 ∧ (netOf t n).wbsAt = some (s.plane.lin + msTicks (netCfg s n).wbsMs) ∧
      Observed s t 6 (32 + n) [] [s.ev 6 0x0901 n 4] := by
  have hwaits : nmTimeout s n = enterWait s n := by
    unfold nmTimeout
    dsimp only
    rw [htimeout]
    exact if_pos ⟨hready, hmode, decide_eq_true hdue⟩
  have hend := enterWait_net s n hn
  obtain ⟨u, hu⟩ : ∃ u, (s.onNet n fun x => { x with
    kaAt := none, timeoutAt := none, sendAt := none, ringMaxAt := none, wbsAt := some (s.plane.lin + msTicks (netCfg s n).wbsMs) }) = u := ⟨_, rfl⟩
  have hstate : (netOf u n).state ≠ 4 := by
    rw [← hu, onNet_same s n _ hn]
    exact fun h => absurd (hready.symm.trans h) (by decide)
  have hreach : u.reach = s.reach := by
    rw [← hu]
    rfl
  have hobs := enterNet_observed u n 4 hstate
  rw [ev_of_reach hreach] at hobs
  have hsame : enterNet u n 4 = enterWait s n := by
    rw [← hu]
    rfl
  rw [hsame] at hobs
  refine ⟨(enterWait s n).withPending s.pending, congrArg (effect s) hwaits, ?_, ?_, ?_⟩
  · rw [netOf_withPending, hend]
  · rw [netOf_withPending, hend]
  · exact Observed.mono (Observed.of_reach hobs hreach) fun _ _ hx => hx

theorem networkCommit_commits (n d : Nat) (s : State) (hn : n < 14) (hwait : (netOf s n).state = 4) (hwbs : (netOf s n).wbsAt = some d) (hdue : d ≤ s.plane.lin)
    (hquiet : latchedBefore s = false) :
    ∃ t, exec (.networkCommit n) s = .next t ∧ (netOf t n).state = 1 ∧ (netOf t n).xcvr = 3 ∧
      (netOf t n).sleeps = satAdd32 (netOf s n).sleeps 1 ∧ Observed s t 6 (32 + n) [] [s.ev 6 0x0901 n 1] := by
  have hcommits : networkCommit s n = if 8 ≤ n then linCommit s n else
      enterNet (setXcvr (s.onNet n fun x => { x with
        wbsAt := none, sleeps := satAdd32 x.sleeps 1, opened := false, allInd := true, counted := false, wakeReason := none }) n 3) n 1 := by
    unfold networkCommit
    dsimp only
    rw [hwbs]
    exact if_pos ⟨hwait, decide_eq_true hdue, by rw [hquiet]; rfl⟩
  by_cases hlin : 8 ≤ n
  · rw [if_pos hlin] at hcommits
    obtain ⟨c, rfl⟩ := Nat.exists_eq_add_of_le hlin
    have hsource : 32 + (8 + c) = 40 + c := by omega
    obtain ⟨-, hend, hsleep, hcount, -, hposted, -⟩ := linCommit_commits s c (by omega) (by omega)
    refine ⟨(linCommit s (8 + c)).withPending s.pending, congrArg (effect s) hcommits, hend, hsleep, hcount, ?_⟩
    rw [hsource]
    exact Observed.mono hposted fun _ _ hx => hx
  · rw [if_neg hlin] at hcommits
    obtain ⟨u, hu⟩ : ∃ u, (s.onNet n fun x => { x with
      wbsAt := none, sleeps := satAdd32 x.sleeps 1, opened := false, allInd := true, counted := false, wakeReason := none }) = u := ⟨_, rfl⟩
    obtain ⟨w, hw⟩ : ∃ w, setXcvr u n 3 = w := ⟨_, rfl⟩
    have hnet : netOf w n = { netOf s n with
        wbsAt := none, sleeps := satAdd32 (netOf s n).sleeps 1, opened := false, allInd := true, counted := false, wakeReason := none, xcvr := 3 } := by
      rw [← hw, (setXcvr_net u n 3 hn).1, ← hu, onNet_same s n _ hn]
    have honly : NetsOnly s w := by
      rw [← hw, ← hu]
      exact (NetsOnly.onNet s n _).trans (.setXcvr ..)
    rw [hu, hw] at hcommits
    have hobs := enterNet_observed w n 1 (by rw [hnet]; exact fun h => absurd (hwait.symm.trans h) (by decide))
    rw [ev_of_reach honly.carries.reach] at hobs
    refine ⟨(enterNet w n 1).withPending s.pending, congrArg (effect s) hcommits, ?_, ?_, ?_, ?_⟩
    · rw [netOf_withPending, enterNet_net w n 1 hn]
    · rw [netOf_withPending, enterNet_net w n 1 hn, hnet]
    · rw [netOf_withPending, enterNet_net w n 1 hn, hnet]
    · exact Observed.mono (Observed.of_reach hobs honly.carries.reach) fun _ _ hx => hx

theorem networkCommit_waits (n : Nat) (s : State) (hlatched : latchedBefore s = true) :
    ∃ t, exec (.networkCommit n) s = .next t ∧ netOf t n = netOf s n := by
  have hkeeps : networkCommit s n = s := by
    unfold networkCommit
    rw [hlatched]
    exact if_neg fun h => Bool.false_ne_true h.2.2
  exact ⟨s.withPending s.pending, congrArg (effect s) hkeeps, rfl⟩

end Sys2Proof.Machine

namespace Sys2Proof.Machine

open Sys2Proof.Claims

/-! Messages that the device sends itself (R243, R292, R293). -/

theorem reoffer_fifo (x : Can) (sof : Bool) : (x.reoffer sof).fifo = x.fifo := by
  unfold Can.reoffer
  split <;> rfl

/-- A frame of the device takes the FIFO where it has room. -/
theorem sendOwn_queues (s : State) (c : Nat) (f : CanFrame) (hc : c < 8) (hsends : (canMode s c).sends = true) (hroom : (canOf s c).fifo.length < 32)
    (hlive : dryReplay s = false) : (sendOwn s c f).sleep = s.sleep ∧ (sendOwn s c f).store = s.store ∧ (sendOwn s c f).plane.lin = s.plane.lin ∧
      ∃ g : TxFrame, g.frame = f ∧ (canOf (sendOwn s c f) c).fifo = (canOf s c).fifo ++ [g] := by
  obtain ⟨g, hg⟩ : ∃ g : TxFrame, { frame := f, handle := (canOf s c).handles, readyAt := s.now + 32 } = g := ⟨_, rfl⟩
  obtain ⟨u, hu⟩ : ∃ u, (s.onCan c fun x => if dryReplay s = true then { x with handles := ((canOf s c).handles + 1) % 65536 }
    else (Can.enqueue { x with handles := ((canOf s c).handles + 1) % 65536 } 0 g).reoffer false) = u := ⟨_, rfl⟩
  have hqueue : sendOwn s c f = u.onPlane fun p => { p with results := .frame s.plane.tick c g.frame g.mac :: p.results } := by
    unfold sendOwn
    rw [if_pos ⟨hsends, by simpa [queueFree] using hroom⟩, ← hu, ← hg]
    rfl
  have hcan : (canOf u c).fifo = (canOf s c).fifo ++ [g] := by
    rw [← hu, canOf_onCan_same s c _ hc, if_neg (by rw [hlive]; decide), reoffer_fifo]
    rfl
  rw [hqueue, ← hu] at *
  exact ⟨rfl, rfl, rfl, g, by rw [← hg], hcan⟩

/-- A NM message that the controller can take (R286, R292). -/
theorem sendNm_sends (s : State) (n flags dest : Nat) (w : Option Nat) (hn : n < 8) (hsends : (canMode s n).sends = true)
    (hroom : (canOf s n).fifo.length < 32) (hlive : dryReplay s = false) (hw : w = if (netOf s n).state = 2 then (netOf s n).wakeReason else none) :
    (sendNm s n flags dest).store = s.store ∧ (sendNm s n flags dest).plane.lin = s.plane.lin ∧
      netOf (sendNm s n flags dest) n = { netOf s n with wakeReason := if (netOf s n).state = 2 then none else (netOf s n).wakeReason } ∧
      ∃ g : TxFrame, g.frame = nmFrame s n (flags + 2 * b2n w.isSome) dest (w.getD 0) ∧
        (canOf (sendNm s n flags dest) n).fifo = (canOf s n).fifo ++ [g] := by
  obtain ⟨u, hu⟩ : ∃ u, (s.onNet n fun y => { y with wakeReason := if (netOf s n).state = 2 then none else y.wakeReason }) = u := ⟨_, rfl⟩
  have hsend : sendNm s n flags dest = sendOwn u n (nmFrame s n (flags + 2 * b2n w.isSome) dest (w.getD 0)) := by
    unfold sendNm
    dsimp only
    rw [hu, hw]
  have hnet : netOf u n = { netOf s n with wakeReason := if (netOf s n).state = 2 then none else (netOf s n).wakeReason } := by
    rw [← hu]
    exact onNet_same s n _ (by omega)
  have hsame : u.store = s.store ∧ u.bus = s.bus ∧ u.plane = s.plane := by
    rw [← hu]
    exact ⟨rfl, rfl, rfl⟩
  obtain ⟨hstore, hbus, hplane⟩ := hsame
  have hmode : canMode u n = canMode s n := by simp only [canMode, canOf, canCfg, hstore, hbus]
  have hreplay : dryReplay u = dryReplay s := by simp only [dryReplay, hplane]
  obtain ⟨hsleep, hstore', hlin, g, hg, hfifo⟩ := sendOwn_queues u n (nmFrame s n (flags + 2 * b2n w.isSome) dest (w.getD 0)) hn (by rw [hmode]; exact hsends)
    (by rw [canOf_of_bus hbus]; exact hroom) (by rw [hreplay]; exact hlive)
  rw [hsend]
  refine ⟨hstore'.trans hstore, hlin.trans (by rw [hplane]), ?_, g, hg, ?_⟩
  · rw [← hnet]
    exact congrArg (fun x : Sleep => vget x.net n) hsleep
  · rw [hfifo, canOf_of_bus hbus]

/-- An NM message depends on the settings and the user data of its network only. -/
theorem nmFrame_congr {s t : State} {n : Nat} (hstore : t.store = s.store) (huser : (netOf t n).user = (netOf s n).user) (flags dest reason : Nat) :
    nmFrame t n flags dest reason = nmFrame s n flags dest reason := by simp only [nmFrame, netCfg, hstore, huser]

theorem nmKeepalive_sends (n d : Nat) (s : State) (hstate : (netOf s n).state = 2) (hmode : (netCfg s n).mode = 1) (hka : (netOf s n).kaAt = some d)
    (hdue : d ≤ s.plane.lin) (htalk : canTalk s n = true) (hsends : (canMode s n).sends = true) (hroom : (canOf s n).fifo.length < 32)
    (hlive : dryReplay s = false) :
    ∃ t f, exec (.nmKeepaliveTimer n) s = .next t ∧ (netOf t n).kaAt = some (s.plane.lin + msTicks (netCfg s n).kaMs) ∧ (netOf t n).wakeReason = none ∧
      (canOf t n).fifo = (canOf s n).fifo ++ [f] ∧ f.frame = nmFrame s n (1 + 2 * b2n (netOf s n).wakeReason.isSome) 0xFF ((netOf s n).wakeReason.getD 0) := by
  have hn : n < 8 := by
    simp only [canTalk, Bool.and_eq_true, decide_eq_true_eq] at htalk
    omega
  obtain ⟨u, hu⟩ : ∃ u, (s.onNet n fun x => { x with kaAt := some (s.plane.lin + msTicks (netCfg s n).kaMs) }) = u := ⟨_, rfl⟩
  have hnet : netOf u n = { netOf s n with kaAt := some (s.plane.lin + msTicks (netCfg s n).kaMs) } := by
    rw [← hu]
    exact onNet_same s n _ (by omega)
  have hsame : u.store = s.store ∧ u.bus = s.bus ∧ dryReplay u = dryReplay s ∧ canMode u n = canMode s n := by
    rw [← hu]
    exact ⟨rfl, rfl, rfl, rfl⟩
  obtain ⟨hstore, hbus, hreplay, hcan⟩ := hsame
  have hkeeps : keepAlive s n = sendNm u n 1 0xFF := by
    unfold keepAlive
    dsimp only
    rw [hka, ← hu]
    exact if_pos ⟨hstate, hmode, decide_eq_true hdue, htalk⟩
  have hstate' : (netOf u n).state = 2 := (congrArg Net.state hnet :).trans hstate
  obtain ⟨-, -, hend, g, hg, hfifo⟩ := sendNm_sends u n 1 0xFF (netOf s n).wakeReason hn (by rw [hcan]; exact hsends) (by rw [canOf_of_bus hbus]; exact hroom)
    (by rw [hreplay]; exact hlive) (by rw [if_pos hstate', hnet])
  refine ⟨(sendNm u n 1 0xFF).withPending s.pending, g, congrArg (effect s) hkeeps, ?_, ?_, ?_, ?_⟩
  · rw [netOf_withPending, hend, hnet]
  · rw [netOf_withPending, hend]
    exact if_pos hstate'
  · rw [canOf_withPending, hfifo, canOf_of_bus hbus]
  · rw [hg]
    exact nmFrame_congr hstore (congrArg Net.user hnet :) _ _ _

/-- The peers that a counted round leaves (R293). -/
def roundPeers (l : List Peer) : List Peer := (l.map fun p => { p with missed := p.missed + 1 }).filter fun p => p.missed ≤ 2

theorem dryReplay_netEvent (s : State) (n kind address value : Nat) : dryReplay (netEvent s n kind address value) = dryReplay s := by
  have honly := observe_only s 6 (32 + n) [] [s.ev 6 kind address value false] []
  exact (congrArg (fun u : State => dryReplay u) honly).trans rfl

theorem countRound_counts (s : State) (n : Nat) (hn : n < 14) :
    NetsOnly s (countRound s n) ∧ netOf (countRound s n) n = { netOf s n with peers := roundPeers (netOf s n).peers } ∧ (countRound s n).bus = s.bus ∧
      dryReplay (countRound s n) = dryReplay s := by
  unfold countRound
  dsimp only
  obtain ⟨u, hu⟩ : ∃ u, (s.onNet n fun x => { x with peers := roundPeers (netOf s n).peers }) = u := ⟨_, rfl⟩
  have hnet : netOf u n = { netOf s n with peers := roundPeers (netOf s n).peers } := by
    rw [← hu]
    exact onNet_same s n _ hn
  have honly : NetsOnly s u := by
    rw [← hu]
    exact .onNet ..
  have hsame : u.bus = s.bus ∧ dryReplay u = dryReplay s := by
    rw [← hu]
    exact ⟨rfl, rfl⟩
  obtain ⟨hbus, hreplay⟩ := hsame
  have hu' := hu
  unfold roundPeers at hu'
  rw [hu']
  refine ⟨honly.trans (.foldl (fun v p => .netEvent ..) _ _), ?_, ?_, ?_⟩
  · exact (foldl_keeps (fun v : State => netOf v n) _ (fun v p => netOf_netEvent ..) _ _).trans hnet
  · exact (foldl_keeps State.bus _ (fun v p => observe_bus ..) _ _).trans hbus
  · exact (foldl_keeps dryReplay _ (fun v p => dryReplay_netEvent ..) _ _).trans hreplay

theorem mem_roundPeers {l : List Peer} {p : Peer} (h : p ∈ roundPeers l) : ∃ q ∈ l, q.node = p.node := by
  obtain ⟨hp, -⟩ := List.mem_filter.1 h
  obtain ⟨q, hq, rfl⟩ := List.mem_map.1 hp
  exact ⟨q, hq, rfl⟩

theorem roundPeers_keeps {l : List Peer} {q : Peer} (h : q ∈ l) (hheard : q.missed < 2) : ∃ p ∈ roundPeers l, p.node = q.node :=
  ⟨{ q with missed := q.missed + 1 }, List.mem_filter.2 ⟨List.mem_map.2 ⟨q, h, rfl⟩, decide_eq_true (Nat.succ_le_of_lt hheard)⟩, rfl⟩

theorem foldl_min_le (l : List Nat) (a : Nat) : l.foldl min a ≤ a ∧ ∀ b ∈ l, l.foldl min a ≤ b := by
  induction l generalizing a with
  | nil => exact ⟨Nat.le_refl a, fun _ hb => absurd hb List.not_mem_nil⟩
  | cons x xs ih =>
    obtain ⟨hacc, hrest⟩ := ih (min a x)
    refine ⟨hacc.trans (Nat.min_le_left ..), fun b hb => ?_⟩
    obtain rfl | hb' := List.mem_cons.1 hb
    · exact hacc.trans (Nat.min_le_right ..)
    · exact hrest b hb'

theorem foldl_min_mem (l : List Nat) (a : Nat) : l.foldl min a = a ∨ l.foldl min a ∈ l := by
  induction l generalizing a with
  | nil => exact Or.inl rfl
  | cons x xs ih =>
    obtain hsame | hmem := ih (min a x)
    · rw [List.foldl_cons, hsame]
      obtain h | h := Nat.le_total a x |>.imp (Nat.min_eq_left ·) (Nat.min_eq_right ·)
      · exact Or.inl h
      · exact Or.inr (by rw [h]; exact List.mem_cons_self ..)
    · exact Or.inr (List.mem_cons_of_mem _ hmem)

/-- A node that knows another is not its own successor (R293). -/
theorem successor_ne (s : State) (n : Nat) (h : ∃ q ∈ (netOf s n).peers, q.node ≠ (netCfg s n).node) : successor s n ≠ (netCfg s n).node := by
  obtain ⟨q, hq, hother⟩ := h
  have hnode : q.node ∈ (netOf s n).peers.map (·.node) := List.mem_map.2 ⟨q, hq, rfl⟩
  unfold successor
  dsimp only
  split
  · next hnone =>
    have hbelow : q.node < (netCfg s n).node := by
      have hno : q.node ∉ ((netOf s n).peers.map (·.node)).filter ((netCfg s n).node < ·) := by
        rw [hnone]
        exact List.not_mem_nil
      rw [List.mem_filter, decide_eq_true_eq] at hno
      exact lt_of_le_of_ne (Nat.le_of_not_lt fun habove => hno ⟨hnode, habove⟩) hother
    have := (foldl_min_le ((netOf s n).peers.map (·.node)) (netCfg s n).node).2 q.node hnode
    omega
  · next a t hsome =>
    have habove (x : Nat) (hx : x = a ∨ x ∈ t) : (netCfg s n).node < x := by
      have hmem : x ∈ ((netOf s n).peers.map (·.node)).filter ((netCfg s n).node < ·) := by
        rw [hsome]
        exact List.mem_cons.2 hx
      exact of_decide_eq_true (List.mem_filter.1 hmem).2
    have := habove _ (foldl_min_mem t a)
    omega

/-- The device's ring message in NORMAL (R293). -/
theorem sendRing_sends (s : State) (n : Nat) (hn : n < 8) (hstate : (netOf s n).state = 2) (hsends : (canMode s n).sends = true)
    (hroom : (canOf s n).fifo.length < 32) (hlive : dryReplay s = false) :
    ∃ f : TxFrame, (netOf (sendRing s n false) n).opened = (netOf s n).opened ∧
      (netOf (sendRing s n false) n).sendAt = (if successor s n = (netCfg s n).node then some (s.plane.lin + msTicks (netCfg s n).ringTypMs) else none) ∧
      (canOf (sendRing s n false) n).fifo = (canOf s n).fifo ++ [f] ∧ f.frame.id = (netCfg s n).base + (netCfg s n).node ∧
      f.frame.data.take 2 = beBytes 1 (netCfg s n).node ++ beBytes 1 (5 + 2 * b2n (netOf s n).wakeReason.isSome) := by
  obtain ⟨u, hu⟩ : ∃ u, (s.onNet n fun x => { x with
    sendAt := if (successor s n == (netCfg s n).node) = true then some (s.plane.lin + msTicks (netCfg s n).ringTypMs) else none
    ringMaxAt := some (s.plane.lin + msTicks (netCfg s n).ringMaxMs), allInd := x.allInd && (netOf s n).state == 3 }) = u := ⟨_, rfl⟩
  have hnet : netOf u n = { netOf s n with
      sendAt := if (successor s n == (netCfg s n).node) = true then some (s.plane.lin + msTicks (netCfg s n).ringTypMs) else none
      ringMaxAt := some (s.plane.lin + msTicks (netCfg s n).ringMaxMs), allInd := (netOf s n).allInd && (netOf s n).state == 3 } := by
    rw [← hu]
    exact onNet_same s n _ (by omega)
  have hsame : u.store = s.store ∧ u.bus = s.bus ∧ dryReplay u = dryReplay s ∧ canMode u n = canMode s n := by
    rw [← hu]
    exact ⟨rfl, rfl, rfl, rfl⟩
  obtain ⟨hstore, hbus, hreplay, hcan⟩ := hsame
  have hcfg : netCfg u n = netCfg s n := by rw [netCfg, netCfg, hstore]
  have hstate' : (netOf u n).state = 2 := (congrArg Net.state hnet :).trans hstate
  have hwake : (netOf u n).wakeReason = (netOf s n).wakeReason := (congrArg Net.wakeReason hnet :)
  obtain ⟨-, -, hend, g, hg, hfifo⟩ := sendNm_sends u n 5 (successor u n) (netOf s n).wakeReason hn (by rw [hcan]; exact hsends)
    (by rw [canOf_of_bus hbus]; exact hroom) (by rw [hreplay]; exact hlive) (by rw [if_pos hstate', hwake])
  have hring : sendRing s n false = sendNm u n 5 (successor u n) := by
    unfold sendRing
    dsimp only
    rw [hu, hstate]
    exact if_neg Bool.false_ne_true
  rw [hring, hend, hnet]
  refine ⟨g, rfl, ?_, ?_, ?_, ?_⟩
  · simp only [beq_iff_eq]
  · rw [hfifo, canOf_of_bus hbus]
  · rw [hg]
    simp only [nmFrame, hcfg]
  · rw [hg]
    simp only [nmFrame, hcfg]
    rfl

theorem nmRingSend_sends (n d : Nat) (s : State) (hmode : (netCfg s n).mode = 2) (hstate : (netOf s n).state = 2) (htalk : canTalk s n = true)
    (hsends : (canMode s n).sends = true) (hroom : (canOf s n).fifo.length < 32) (hlive : dryReplay s = false) (hdue : d ≤ s.plane.lin)
    (hsend : (netOf s n).sendAt = some d) (hpeer : ∃ q ∈ (netOf s n).peers, q.node ≠ (netCfg s n).node ∧ q.missed < 2) :
    ∃ t f, exec (.nmRingSend n) s = .next t ∧ (netOf t n).sendAt = none ∧ (canOf t n).fifo = (canOf s n).fifo ++ [f] ∧
      f.frame.id = (netCfg s n).base + (netCfg s n).node ∧
      f.frame.data.take 2 = beBytes 1 (netCfg s n).node ++ beBytes 1 (5 + 2 * b2n (netOf s n).wakeReason.isSome) := by
  have hn : n < 8 := by
    simp only [canTalk, Bool.and_eq_true, decide_eq_true_eq] at htalk
    omega
  obtain ⟨honly, hcount, hbus, hreplay⟩ := countRound_counts s n (by omega)
  obtain ⟨v, hv⟩ : ∃ v, countRound s n = v := ⟨_, rfl⟩
  rw [hv] at honly hcount hbus hreplay
  obtain ⟨u, hu⟩ : ∃ u, (v.onNet n fun x => { x with allInd := if x.opened = true then true else x.allInd, counted := true }) = u := ⟨_, rfl⟩
  have hnet : netOf u n = { netOf s n with
      peers := roundPeers (netOf s n).peers, allInd := if (netOf s n).opened = true then true else (netOf s n).allInd, counted := true } := by
    rw [← hu, onNet_same v n _ (by omega), hcount]
  have hsame : u.store = s.store ∧ u.bus = s.bus ∧ dryReplay u = dryReplay s := by
    rw [← hu]
    exact ⟨honly.store, hbus, hreplay⟩
  obtain ⟨hstore, hbus', hreplay'⟩ := hsame
  have hcan : canMode u n = canMode s n := by simp only [canMode, canOf, canCfg, hstore, hbus']
  have hcfg : netCfg u n = netCfg s n := by rw [netCfg, netCfg, hstore]
  have hring : ringSend s n = sendRing u n false := by
    have hack : ((netOf s n).opened && (netOf s n).allInd && (netOf s n).state == 3) = false := by
      rw [hstate]
      exact Bool.and_false _
    unfold ringSend
    dsimp only
    rw [hsend, hack, hv, hu]
    exact if_pos ⟨hmode, Or.inl hstate, decide_eq_true hdue, htalk⟩
  obtain ⟨f, -, hsent, hfifo, hid, hdata⟩ := sendRing_sends u n hn ((congrArg Net.state hnet :).trans hstate) (by rw [hcan]; exact hsends)
    (by rw [canOf_of_bus hbus']; exact hroom) (by rw [hreplay']; exact hlive)
  have hother : successor u n ≠ (netCfg u n).node := by
    obtain ⟨q, hq, hne, hheard⟩ := hpeer
    obtain ⟨p, hp, hsamenode⟩ := roundPeers_keeps hq hheard
    refine successor_ne u n ⟨p, ?_, ?_⟩
    · rw [hnet]
      exact hp
    · rw [hcfg, hsamenode]
      exact hne
  refine ⟨(sendRing u n false).withPending s.pending, f, congrArg (effect s) hring, ?_, ?_, ?_, ?_⟩
  · rw [netOf_withPending, hsent, if_neg hother]
  · rw [canOf_withPending, hfifo, canOf_of_bus hbus']
  · rw [hid, hcfg]
  · rw [hdata, hcfg, hnet]

/-- The state in which a ring timeout decides who opens the next round (R293). -/
theorem ringTimeout_counted (n d : Nat) (s : State) (hmode : (netCfg s n).mode = 2) (hstate : (netOf s n).state = 2) (htalk : canTalk s n = true)
    (hdue : d ≤ s.plane.lin) (hmax : (netOf s n).ringMaxAt = some d) :
    ∃ (u : State) (l : List Peer), netOf u n = { netOf s n with peers := l, counted := false } ∧ (l = (netOf s n).peers ∨ l = roundPeers (netOf s n).peers) ∧
      u.store = s.store ∧ u.bus = s.bus ∧ dryReplay u = dryReplay s ∧ u.plane.lin = s.plane.lin ∧
      ringTimeout s n = if (l.all fun p => (netCfg s n).node ≤ p.node) = true then sendRing (u.onNet n fun x => { x with opened := true, allInd := true }) n false
        else u.onNet n fun x => { x with opened := false, ringMaxAt := some (s.plane.lin + msTicks (netCfg s n).ringMaxMs) } := by
  have hn : n < 8 := by
    simp only [canTalk, Bool.and_eq_true, decide_eq_true_eq] at htalk
    omega
  obtain ⟨v, hv⟩ : ∃ v, (if ((netOf s n).counted && !((netOf s n).peers.all fun p => (netCfg s n).node ≤ p.node)) = true then s else countRound s n) = v := ⟨_, rfl⟩
  have hcounted : ∃ l, netOf v n = { netOf s n with peers := l } ∧ (l = (netOf s n).peers ∨ l = roundPeers (netOf s n).peers) ∧
      v.store = s.store ∧ v.bus = s.bus ∧ dryReplay v = dryReplay s ∧ v.plane.lin = s.plane.lin := by
    rw [← hv]
    split
    · exact ⟨(netOf s n).peers, rfl, Or.inl rfl, rfl, rfl, rfl, rfl⟩
    · obtain ⟨honly, hcount, hbus, hreplay⟩ := countRound_counts s n (by omega)
      exact ⟨_, hcount, Or.inr rfl, honly.store, hbus, hreplay, honly.lin⟩
  obtain ⟨l, hnet, hl, hstore, hbus, hreplay, hlin⟩ := hcounted
  obtain ⟨u, hu⟩ : ∃ u, (v.onNet n fun x => { x with counted := false }) = u := ⟨_, rfl⟩
  have hend : netOf u n = { netOf s n with peers := l, counted := false } := by
    rw [← hu, onNet_same v n _ (by omega), hnet]
  have hcfg : netCfg u n = netCfg s n := by
    rw [← hu]
    exact congrArg (fun x : Store => vget x.sleep.net n) hstore
  have hlin' : u.plane.lin = s.plane.lin := by
    rw [← hu]
    exact hlin
  refine ⟨u, l, hend, hl, ?_, ?_, ?_, hlin', ?_⟩
  · rw [← hu]
    exact hstore
  · rw [← hu]
    exact hbus
  · rw [← hu]
    exact hreplay
  · unfold ringTimeout
    dsimp only
    rw [hmax, hv, hu, hend, hcfg, hlin']
    exact if_pos ⟨hmode, Or.inl hstate, decide_eq_true hdue, htalk⟩

theorem nmRingTimeout_opens (n d : Nat) (s : State) (hmode : (netCfg s n).mode = 2) (hstate : (netOf s n).state = 2) (htalk : canTalk s n = true)
    (hsends : (canMode s n).sends = true) (hroom : (canOf s n).fifo.length < 32) (hlive : dryReplay s = false) (hdue : d ≤ s.plane.lin)
    (hmax : (netOf s n).ringMaxAt = some d) (hlowest : ∀ p ∈ (netOf s n).peers, (netCfg s n).node ≤ p.node) :
    ∃ t f, exec (.nmRingTimeout n) s = .next t ∧
      (netOf t n).opened = true ∧ (canOf t n).fifo = (canOf s n).fifo ++ [f] ∧ f.frame.id = (netCfg s n).base + (netCfg s n).node := by
  have hn : n < 8 := by
    simp only [canTalk, Bool.and_eq_true, decide_eq_true_eq] at htalk
    omega
  obtain ⟨v, l, hnet, hl, hstore, hbus, hreplay, -, hring⟩ := ringTimeout_counted n d s hmode hstate htalk hdue hmax
  have hall : (l.all fun p => (netCfg s n).node ≤ p.node) = true := by
    refine List.all_eq_true.2 fun p hp => decide_eq_true ?_
    obtain rfl | rfl := hl
    · exact hlowest p hp
    · obtain ⟨q, hq, hsame⟩ := mem_roundPeers hp
      rw [← hsame]
      exact hlowest q hq
  obtain ⟨u, hu⟩ : ∃ u, (v.onNet n fun x => { x with opened := true, allInd := true }) = u := ⟨_, rfl⟩
  have hend : netOf u n = { netOf s n with peers := l, counted := false, opened := true, allInd := true } := by
    rw [← hu, onNet_same v n _ (by omega), hnet]
  have hsame : u.store = s.store ∧ u.bus = s.bus ∧ dryReplay u = dryReplay s := by
    rw [← hu]
    exact ⟨hstore, hbus, hreplay⟩
  obtain ⟨hstore', hbus', hreplay'⟩ := hsame
  have hcan : canMode u n = canMode s n := by simp only [canMode, canOf, canCfg, hstore', hbus']
  have hcfg : netCfg u n = netCfg s n := by rw [netCfg, netCfg, hstore']
  obtain ⟨f, hopened, -, hfifo, hid, -⟩ := sendRing_sends u n hn ((congrArg Net.state hend :).trans hstate) (by rw [hcan]; exact hsends)
    (by rw [canOf_of_bus hbus']; exact hroom) (by rw [hreplay']; exact hlive)
  rw [if_pos hall, hu] at hring
  refine ⟨(sendRing u n false).withPending s.pending, f, congrArg (effect s) hring, ?_, ?_, ?_⟩
  · rw [netOf_withPending, hopened, hend]
  · rw [canOf_withPending, hfifo, canOf_of_bus hbus']
  · rw [hid, hcfg]

theorem nmRingTimeout_waits (n d : Nat) (s : State) (hmode : (netCfg s n).mode = 2) (hstate : (netOf s n).state = 2) (htalk : canTalk s n = true)
    (hdue : d ≤ s.plane.lin) (hmax : (netOf s n).ringMaxAt = some d) (hlower : ∃ p ∈ (netOf s n).peers, p.node < (netCfg s n).node ∧ p.missed < 2) :
    ∃ t, exec (.nmRingTimeout n) s = .next t ∧
      (netOf t n).opened = false ∧ (canOf t n).fifo = (canOf s n).fifo ∧ (netOf t n).ringMaxAt = some (s.plane.lin + msTicks (netCfg s n).ringMaxMs) := by
  have hn : n < 8 := by
    simp only [canTalk, Bool.and_eq_true, decide_eq_true_eq] at htalk
    omega
  obtain ⟨v, l, hnet, hl, -, hbus, -, -, hring⟩ := ringTimeout_counted n d s hmode hstate htalk hdue hmax
  have hnotall : ¬ (l.all fun p => (netCfg s n).node ≤ p.node) = true := by
    intro hall
    obtain ⟨p, hp, hbelow, hheard⟩ := hlower
    have hmem : ∃ q ∈ l, q.node = p.node := by
      obtain rfl | rfl := hl
      · exact ⟨p, hp, rfl⟩
      · exact roundPeers_keeps hp hheard
    obtain ⟨q, hq, hsame⟩ := hmem
    have := of_decide_eq_true (List.all_eq_true.1 hall q hq)
    omega
  obtain ⟨u, hu⟩ : ∃ u, (v.onNet n fun x => { x with opened := false, ringMaxAt := some (s.plane.lin + msTicks (netCfg s n).ringMaxMs) }) = u := ⟨_, rfl⟩
  have hend : netOf u n = { netOf s n with
      peers := l, counted := false, opened := false, ringMaxAt := some (s.plane.lin + msTicks (netCfg s n).ringMaxMs) } := by
    rw [← hu, onNet_same v n _ (by omega), hnet]
  have hbus' : u.bus = s.bus := by
    rw [← hu]
    exact hbus
  rw [if_neg hnotall, hu] at hring
  refine ⟨u.withPending s.pending, congrArg (effect s) hring, ?_, ?_, ?_⟩
  · rw [netOf_withPending, hend]
  · rw [canOf_withPending, canOf_of_bus hbus']
  · rw [netOf_withPending, hend]

end Sys2Proof.Machine

namespace Sys2Proof.Machine

open Sys2Proof.Claims

@[simp] theorem postEvent_waits (s : State) (e : Ev) : (postEvent s e).waits = s.waits := by
  unfold postEvent
  split <;> rfl

@[simp] theorem setOverrun_waits (s : State) : (s.setOverrun).waits = s.waits := rfl

@[simp] theorem landPut_waits (s : State) (l : Nat) (it : LandItem) : (landPut s l it).waits = s.waits := rfl

@[simp] theorem accessEvent_waits (s : State) (kind address value comp : Nat) : (accessEvent s kind address value comp).waits = s.waits := by
  unfold accessEvent
  split <;> simp

@[simp] theorem updateLevel_waits (s : State) : (updateLevel s).waits = s.waits := by
  unfold updateLevel
  dsimp only
  split
  · exact onLog_waits ..
  · exact (postEvent_waits ..).trans (onLog_waits ..)

@[simp] theorem sealSegment_waits (s : State) (reason : Nat) : (sealSegment s reason).waits = s.waits := by
  unfold sealSegment
  dsimp only
  split
  · rfl
  · split
    · exact updateLevel_waits _
    · rfl

@[simp] theorem makeRoom_waits (s : State) : (makeRoom s).waits = s.waits := by
  unfold makeRoom
  (repeat' split)
  all_goals simp

@[simp] theorem dropRecord_waits (s : State) (it : LogItem) : (dropRecord s it).waits = s.waits :=
  (updateLevel_waits _).trans (onLog_waits ..)

@[simp] theorem appendRecord_waits (s : State) (it : LogItem) (emergency : Bool) : (appendRecord s it emergency).waits = s.waits := rfl

@[simp] theorem storeRecord_waits (s : State) (it : LogItem) : (storeRecord s it).1.waits = s.waits := by
  unfold storeRecord
  dsimp only
  (repeat' split)
  all_goals simp

@[simp] theorem logRecord_waits (s : State) (it : LogItem) : (logRecord s it).1.waits = s.waits := by
  unfold logRecord
  dsimp only
  split
  · split
    · exact (storeRecord_waits ..).trans (storeRecord_waits s _)
    · exact storeRecord_waits ..
  · exact storeRecord_waits ..

@[simp] theorem logDevice_waits (s : State) (type : Nat) (critical : Bool) (payload : List Byte) :
    (logDevice s type critical payload).waits = s.waits := by simp [logDevice]

@[simp] theorem hallOn_waits (s : State) (h : Nat) : (hallOn s h).waits = s.waits := by
  unfold hallOn
  split <;> rfl

@[simp] theorem clearWatchHall_waits (s : State) (h : Nat) : (clearWatchHall s h).waits = s.waits := rfl

@[simp] theorem leaveLandings_waits (s : State) (h : Nat) : (leaveLandings s h).waits = s.waits := rfl

@[simp] theorem hallOff_waits (s : State) (h : Nat) : (hallOff s h).waits = s.waits := rfl

@[simp] theorem setDomain_waits (s : State) (d : Nat) (on : Bool) : (setDomain s d on).waits = s.waits := by
  unfold setDomain
  (repeat' split)
  all_goals simp

@[simp] theorem giveReply_waits (s : State) (b : TrialItem) (w : List (Nat × List Byte)) : (giveReply s b w).waits = s.waits := by
  unfold giveReply
  refine foldl_keeps State.waits _ (fun u x => ?_) _ _
  split <;> simp

@[simp] theorem mirrorReply_waits (s : State) (r slot : Nat) (w : List (Nat × List Byte)) : (mirrorReply s r slot w).waits = s.waits := by
  unfold mirrorReply
  dsimp only
  (repeat' split)
  all_goals simp

@[simp] theorem writeReply_waits (s : State) (p : Packet) (st : Status) (reply : Reply) (done : Stamp) : (writeReply s p st reply done).waits = s.waits := by
  unfold writeReply
  dsimp only
  (repeat' split)
  all_goals simp

@[simp] theorem dropReplayed_waits (s : State) (p : Packet) : (dropReplayed s p).waits = s.waits := rfl

@[simp] theorem completeAt_waits (s : State) (p : Packet) (st : Status) (r : Reply) (done : Stamp) : (completeAt s p st r done).waits = s.waits := by
  have hsettled : (if replyHidden p s = true then dropReplayed s p else retirePacket (writeReply s p st r done) p).waits = s.waits := by
    split
    · rfl
    · exact (retirePacket_waits ..).trans (writeReply_waits ..)
  unfold completeAt
  dsimp only
  split
  · exact (postEvent_waits ..).trans hsettled
  · exact hsettled

@[simp] theorem completeNow_waits (s : State) (p : Packet) (st : Status) (reply : Reply) : (completeNow s p st reply).waits = s.waits := by simp [completeNow]

@[simp] theorem bump_waits (s : State) (cls index n : Nat) (hall : Option Nat) : (bump s cls index n hall).waits = s.waits := rfl

@[simp] theorem countDiscarded_waits (s : State) (n : Nat) : (countDiscarded s n).waits = s.waits := rfl

@[simp] theorem pput_waits (s : State) (pt : Nat) (v : PVal) : (pput s pt v).waits = s.waits := rfl

@[simp] theorem detachPoint_waits (s : State) (pt : Nat) : (detachPoint s pt).waits = s.waits := rfl

@[simp] theorem noteLatency_waits (s : State) (w : PWrite) : (noteLatency s w).waits = s.waits := by
  unfold noteLatency
  (repeat' split)
  all_goals rfl

@[simp] theorem noteWriter_waits (s : State) (pt : Nat) (v : PVal) (k : Writer) (comp : Nat) (t : Stamp) : (noteWriter s pt v k comp t).waits = s.waits := rfl

@[simp] theorem writeStands_waits (s : State) (w : PWrite) (t : Stamp) (old : PVal) (count : Nat) : (writeStands s w t old count).waits = s.waits := by
  unfold writeStands
  split <;> simp

@[simp] theorem applyWrite_waits (s : State) (w : PWrite) : (applyWrite s w).1.waits = s.waits := by
  unfold applyWrite
  (repeat' split)
  all_goals simp

@[simp] theorem countMoved_waits (s : State) (w : PWrite) : (countMoved s w).waits = s.waits := by
  unfold countMoved
  dsimp only
  split_ifs <;> rfl

@[simp] theorem moveWrite_waits (s : State) (w : PWrite) : (moveWrite s w).waits = s.waits := by simp [moveWrite]

@[simp] theorem writePoint_waits (s : State) (w : PWrite) : (writePoint s w).1.waits = s.waits := by
  unfold writePoint
  split <;> simp

@[simp] theorem keeperWrite_waits (s : State) (pt : Nat) (v : PVal) : (keeperWrite s pt v).1.waits = s.waits := by simp [keeperWrite]

@[simp] theorem keeperPoint_waits (s : State) (pt v : Nat) : (keeperPoint s pt v).waits = s.waits := by
  unfold keeperPoint
  split <;> simp

@[simp] theorem capItem_waits (s : State) (r : CapRecord) (idx : Nat) : (capItem s r idx).waits = s.waits := by
  unfold capItem
  split <;> rfl

@[simp] theorem sense_waits (s : State) (t : Stamp) (h idx : Nat) (writes : List (Nat × PVal)) (events : List Ev) (caps : List CapRecord) : (sense s t h idx writes events caps).waits = s.waits := by
  unfold sense
  exact foldl_keeps State.waits _ (fun _ _ => by simp) _ _

@[simp] theorem busEvent_waits (s : State) (src kind address value : Nat) (point : Bool) :
    (busEvent s src kind address value point).waits = s.waits := by simp [busEvent]

@[simp] theorem closeSession_waits (s : State) (cause comp : Nat) : (closeSession s cause comp).waits = s.waits := by
  unfold closeSession
  dsimp only
  split
  · rfl
  · refine (logDevice_waits ..).trans ((accessEvent_waits ..).trans ?_)
    split
    · rfl
    · exact keeperPoint_waits ..

@[simp] theorem shadowFault_waits (s : State) : (shadowFault s).waits = s.waits := by
  unfold shadowFault
  split <;> rfl

@[simp] theorem shadowRecord_waits (s : State) (r : Nat) (skip : Nat → List Byte) (record : List Byte) : (shadowRecord s r skip record).waits = s.waits := by
  unfold shadowRecord
  dsimp only
  split_ifs
  · rfl
  · exact shadowFault_waits s
  · exact foldl_keeps State.waits _ (fun u i => memWriteN_waits ..) _ _
  · exact shadowFault_waits s
  · exact foldl_keeps State.waits _ (fun u i => memWriteN_waits ..) _ _

theorem clearDrops_waits (s : State) (r : Nat) : (s.onRing r fun g => { g with drops := 0 }).waits = s.waits := onRing_waits s r _ fun _ => rfl

@[simp] theorem deviceRecord_waits (s : State) (r : Nat) (gap skip : Nat → List Byte) (body : List Byte) : (deviceRecord s r gap skip body).waits = s.waits := by
  unfold deviceRecord
  dsimp only
  split
  · next gp sk _ =>
    have hgap : (if gp.isEmpty = true then s else shadowRecord (ringWrite s r gp) r skip gp).waits = s.waits := by
      split
      · rfl
      · exact (shadowRecord_waits ..).trans (ringWrite_waits ..)
    rw [shadowRecord_waits, clearDrops_waits, ringWrite_waits]
    split
    · exact hgap
    · exact (ringWrite_waits ..).trans hgap
  · split
    · rfl
    · exact (setOverrun_waits _).trans (onRing_waits s r _ fun _ => rfl)

@[simp] theorem noteDelivered_waits (s : State) (r : Nat) (e : Ev) : (noteDelivered s r e).waits = s.waits := by
  unfold noteDelivered
  split <;> rfl

@[simp] theorem deliverTo_waits (e : Ev) (s : State) (r : Nat) : (deliverTo e s r).waits = s.waits := by
  unfold deliverTo
  dsimp only
  (repeat' split)
  all_goals simp

@[simp] theorem deliverEvent_waits (s : State) (e : Ev) : (deliverEvent s e).waits = s.waits := by
  unfold deliverEvent
  exact foldl_keeps State.waits _ (fun _ _ => by simp) _ _

@[simp] theorem deviceApply_waits (s : State) (t : Stamp) (w : PWrite) : (deviceApply s t w).waits = s.waits := by
  unfold deviceApply
  split <;> simp

@[simp] theorem ethEvent_waits (s : State) (kind address value : Nat) : (ethEvent s kind address value).waits = s.waits := by
  unfold ethEvent
  split <;> simp

@[simp] theorem setLink_waits (s : State) (n st : Nat) : (setLink s n st).waits = s.waits := by
  unfold setLink
  split <;> simp [State.onPort]

@[simp] theorem dropQueue_waits (s : State) (n : Nat) : (dropQueue s n).waits = s.waits := by
  unfold dropQueue
  dsimp only
  split_ifs <;> rfl

@[simp] theorem portOff_waits (s : State) (n : Nat) : (portOff s n).waits = s.waits := by simp [portOff]

@[simp] theorem ethPowerOff_waits (s : State) : (ethPowerOff s).waits = s.waits := by
  unfold ethPowerOff
  dsimp only
  split
  · rw [onCipher_waits, onEth_waits, setDomain_waits, dropQueue_waits, dropQueue_waits]
    exact foldl_keeps State.waits _ (fun u n => portOff_waits ..) _ _
  · rfl

@[simp] theorem deviceWrite_waits (s : State) (t : Stamp) (w : PWrite) : (deviceWrite s t w).waits = s.waits := by
  unfold deviceWrite
  split <;> simp

@[simp] theorem noteSignals_waits (s : State) (it : LandItem) : (noteSignals s it).waits = s.waits := rfl

@[simp] theorem landWrites_waits (s : State) (it : LandItem) : (landWrites s it).waits = s.waits := by
  unfold landWrites
  dsimp only
  refine (foldl_keeps State.waits _ (fun u w => deviceWrite_waits ..) _ _).trans ?_
  split
  · refine (noteSignals_waits ..).trans ?_
    split <;> rfl
  · split <;> rfl

@[simp] theorem postEvents_waits (s : State) (es : List Ev) : (postEvents s es).waits = s.waits := by
  unfold postEvents
  exact foldl_keeps State.waits _ (fun _ _ => by simp) _ _

@[simp] theorem reportChange_waits (s : State) (pt : Nat) (v : PVal) (t : Stamp) (hall idx comp : Nat) : (reportChange s pt v t hall idx comp).waits = s.waits := by
  unfold reportChange
  dsimp only
  split_ifs <;> simp

@[simp] theorem enterReflex_waits (s : State) (c : Change) : (enterReflex s c).waits = s.waits := by
  unfold enterReflex
  split <;> rfl

@[simp] theorem noteChange_waits (s : State) (pt : Nat) (old new : PVal) (t : Stamp) (hall idx comp : Nat) :
    (noteChange s pt old new t hall idx comp).waits = s.waits := by simp [noteChange]

@[simp] theorem settleWrite_waits (s : State) (e : TickWrite) : (settleWrite s e).waits = s.waits := by
  unfold settleWrite
  split <;> simp

@[simp] theorem tellChanges_waits (c : TickWrite → Bool) (s : State) : (tellChanges c s).waits = s.waits := by
  unfold tellChanges
  exact foldl_keeps State.waits _ (fun _ _ => by simp) _ _

@[simp] theorem tellInputs_waits (s : State) : (tellInputs s).waits = s.waits := by simp [tellInputs]

@[simp] theorem releaseItems_waits (s : State) (l : List LandItem) : (releaseItems s l).waits = s.waits := by
  unfold releaseItems
  dsimp only
  refine (foldl_keeps State.waits _ (fun u it => postEvents_waits ..) _ _).trans ((tellInputs_waits _).trans ?_)
  exact foldl_keeps State.waits _ (fun u it => landWrites_waits ..) _ _

@[simp] theorem releaseGroup_waits (s : State) (g : List LandItem) : (releaseGroup s g).waits = s.waits := by
  unfold releaseGroup
  dsimp only
  split <;> simp

@[simp] theorem releaseList_waits (s : State) (l : List LandItem) : (releaseList s l).waits = s.waits := by
  unfold releaseList
  exact foldl_keeps State.waits _ (fun _ _ => by simp) _ _

@[simp] theorem releaseAll_waits (s : State) : (releaseAll s).waits = s.waits := by
  unfold releaseAll
  exact foldl_keeps State.waits _ (fun _ _ => by simp) _ _

@[simp] theorem takeDue_waits (s : State) (l t : Nat) : (takeDue s l t).1.waits = s.waits := rfl

@[simp] theorem packetRecord_waits (s : State) (t : Stamp) (e : Nat × List Byte) : (packetRecord s t e).waits = s.waits := by simp [packetRecord]

@[simp] theorem releaseRecords_waits (s : State) (t : Nat) : (releaseRecords s t).waits = s.waits := by
  unfold releaseRecords
  refine (foldl_keeps State.waits _ (fun u it => ?_) _ _).trans (takeDue_waits s 6 t)
  refine (foldl_keeps State.waits _ (fun v e => packetRecord_waits ..) _ _).trans ?_
  exact foldl_keeps State.waits _ (fun v e => deliverEvent_waits ..) _ _

@[simp] theorem takeReferences_waits (s : State) : (takeReferences s).waits = s.waits := rfl

@[simp] theorem netEvent_waits (s : State) (n kind address value : Nat) : (netEvent s n kind address value).waits = s.waits := by simp [netEvent]

@[simp] theorem setCanState_waits (s : State) (c st : Nat) : (setCanState s c st).waits = s.waits := by
  unfold setCanState
  dsimp only
  split_ifs <;> simp

@[simp] theorem integrate_waits (s : State) (n : Nat) : (integrate s n).waits = s.waits := by
  unfold integrate
  split <;> simp

@[simp] theorem setXcvr_waits (s : State) (n st : Nat) : (setXcvr s n st).waits = s.waits := by
  unfold setXcvr
  dsimp only
  split_ifs <;> simp

@[simp] theorem sleepTransceivers_waits (s : State) : (sleepTransceivers s).waits = s.waits := by
  unfold sleepTransceivers
  refine foldl_keeps State.waits _ (fun u n => ?_) _ _
  split
  · exact setXcvr_waits ..
  · rfl

@[simp] theorem writeReleaseRecords_waits (s : State) (counter : Nat) : (writeReleaseRecords s counter).waits = s.waits := by
  unfold writeReleaseRecords
  exact foldl_keeps State.waits _ (fun _ _ => by simp) _ _

end Sys2Proof.Machine

namespace Sys2Proof.Machine

open Sys2Proof.Claims

/-! The device commit, the Dark entry, Buoy and the stop of the pairs (R278–R283). -/

theorem driveAntennas_waits (s : State) (q : Poll) (m : Nat) (on : Bool) : (driveAntennas s q m on).waits = s.waits := by
  unfold driveAntennas
  exact foldl_keeps State.waits _ (fun u a => keeperPoint_waits ..) _ _

theorem recordPoll_waits (s : State) (q : Poll) (granted : Option Nat) : (recordPoll s q granted).waits = s.waits := by
  unfold recordPoll
  exact (logDevice_waits ..).trans ((accessEvent_waits ..).trans rfl)

theorem completePoll_waits (s : State) (q : Poll) (st : Status) (reply : Reply) : (completePoll s q st reply).waits = s.waits := by
  unfold completePoll
  split
  · exact completeNow_waits ..
  · rfl

theorem dropPoll_drops (s : State) : (dropPoll s).waits = { s.waits with poll := none } := by
  unfold dropPoll
  dsimp only
  split
  · rfl
  · exact (setDomain_waits ..).trans rfl

theorem abandonPoll_drops (s : State) (st : Status) : (abandonPoll s st).waits = { s.waits with poll := none } := by
  unfold abandonPoll
  split
  · next hnone => simp only [State.waits, hnone]
  · dsimp only
    rw [completePoll_waits, dropPoll_drops, recordPoll_waits, driveAntennas_waits]

/-- Nothing waits any more where every packet that waits is cancelled (R281). -/
theorem cancelHeld_all (s : State) :
    (cancelHeld s fun _ => true).waits = { s.waits with keeper := [], waiting := [], flights := fun _ => [] } := by
  unfold cancelHeld
  dsimp only
  refine (foldl_keeps State.waits _ (fun u p => completeNow_waits ..) _ _).trans ?_
  have htrim (g : Ring) : (trimFlights (fun _ => true) g).flights = [] := by
    unfold trimFlights
    simp
  have hrings (r : Nat) : (vget (s.plane.rings.map (trimFlights fun _ => true)) r).flights = [] := by
    by_cases hr : r < 64
    · rw [vget_map _ _ _ hr]
      exact htrim _
    · unfold vget
      rw [dif_neg hr]
      rfl
  simp only [State.waits, State.onPlane, WaitParts.mk.injEq]
  exact ⟨by simp, by simp, funext hrings, trivial, rfl, trivial, trivial⟩

/-- What the operations of a device commit behind the cancellation come to: the log is sealed last (R283). -/
def committed (s : State) : State :=
  let s := takeReferences (sleepTransceivers (cancelHeld (abandonPoll (closeSession s 5 0) .cancelled) fun _ => true))
  let s := ethPowerOff (releaseAll (writeReleaseRecords s 0))
  let s := releaseRecords s s.wallTick
  if s.store.log.opened.isSome then sealSegment s 5 else s

theorem committed_waits (s : State) : (committed s).waits = { s.waits with keeper := [], waiting := [], flights := fun _ => [], poll := none } := by
  have hsealed (u : State) : (if u.store.log.opened.isSome = true then sealSegment u 5 else u).waits = u.waits := by
    split
    · exact sealSegment_waits ..
    · rfl
  unfold committed
  dsimp only
  rw [hsealed, releaseRecords_waits, ethPowerOff_waits, releaseAll_waits, writeReleaseRecords_waits, takeReferences_waits, sleepTransceivers_waits, cancelHeld_all,
    abandonPoll_drops, closeSession_waits]

theorem deviceCommit_commits (s : State) (h : darkDue s = true) :
    ∃ t, exec .deviceCommit s = .next t ∧ t.sleep.darkCommit = some s.now ∧ t.plane.keeper = [] ∧ t.plane.waiting = [] ∧
      (∀ r, r < 64 → (t.ring r).flights = []) ∧ t.access.poll = none ∧ Posted s t (s.ev 3 0x010C (pointAt 83 0) 0 true) := by
  obtain ⟨u, hu⟩ : ∃ u, committed s = u := ⟨_, rfl⟩
  have hwaits := committed_waits s
  rw [hu] at hwaits
  have hposting : u.posting = s.posting := congrArg WaitParts.posting hwaits
  have hnow : u.now = s.now := congrArg WaitParts.now hwaits
  obtain ⟨w, hw⟩ : ∃ w, postEvent u (s.ev 3 0x010C (pointAt 83 0) 0 true) = w := ⟨_, rfl⟩
  have hend : w.waits = u.waits := by
    rw [← hw]
    exact postEvent_waits ..
  have hwnow : w.now = s.now := by
    rw [← hw, ← hnow]
    exact (congrArg State.now (postEvent_only ..) :)
  have hcommits : deviceCommit s = w.onSleep fun x => { x with
      darkCommit := some w.now, latches := x.latches.map fun l => if w.now ≤ l.tick then { l with late := true } else l } := by
    have hev := ev_of_posting hposting 3 0x010C (pointAt 83 0) 0 true 0
    rw [← hw, ← hev, ← hu]
    exact if_pos h
  have hall := hend.trans hwaits
  refine ⟨_, congrArg (effect s) hcommits, congrArg some hwnow, (congrArg WaitParts.keeper hall :), (congrArg WaitParts.waiting hall :),
    fun r _ => congrFun (congrArg WaitParts.flights hall :) r, (congrArg WaitParts.poll hall :), ?_⟩
  refine Posted.of_rings (u := u) ?_ (eventRings_of_posting hposting _)
  have hposted := postEvent_posted u (s.ev 3 0x010C (pointAt 83 0) 0 true)
  rw [hw] at hposted
  exact hposted

end Sys2Proof.Machine

namespace Sys2Proof.Machine

open Sys2Proof.Claims

/-! The keeper's part of a wake (R284–R287). -/

/-- The items of L5, on their way to the keeper. -/
def State.forKeeper (s : State) : List LandItem := (vget s.plane.landings 5).items

@[simp] theorem landPut_forKeeper (s : State) (it : LandItem) : (landPut s 6 it).forKeeper = s.forKeeper := landPut_other s 6 5 it (by decide)

@[simp] theorem onLog_forKeeper (s : State) (f : Logbook → Logbook) : (s.onLog f).forKeeper = s.forKeeper := rfl

@[simp] theorem postEvent_forKeeper (s : State) (e : Ev) : (postEvent s e).forKeeper = s.forKeeper := by
  unfold postEvent
  split <;> simp

@[simp] theorem updateLevel_forKeeper (s : State) : (updateLevel s).forKeeper = s.forKeeper := by
  unfold updateLevel
  dsimp only
  split
  · exact onLog_forKeeper ..
  · exact (postEvent_forKeeper ..).trans (onLog_forKeeper ..)

@[simp] theorem sealSegment_forKeeper (s : State) (reason : Nat) : (sealSegment s reason).forKeeper = s.forKeeper := by
  unfold sealSegment
  dsimp only
  split
  · rfl
  · split
    · exact updateLevel_forKeeper _
    · rfl

@[simp] theorem makeRoom_forKeeper (s : State) : (makeRoom s).forKeeper = s.forKeeper := by
  unfold makeRoom
  (repeat' split)
  all_goals simp

@[simp] theorem dropRecord_forKeeper (s : State) (it : LogItem) : (dropRecord s it).forKeeper = s.forKeeper :=
  (updateLevel_forKeeper _).trans (onLog_forKeeper ..)

@[simp] theorem appendRecord_forKeeper (s : State) (it : LogItem) (emergency : Bool) : (appendRecord s it emergency).forKeeper = s.forKeeper := rfl

@[simp] theorem storeRecord_forKeeper (s : State) (it : LogItem) : (storeRecord s it).1.forKeeper = s.forKeeper := by
  unfold storeRecord
  dsimp only
  (repeat' split)
  all_goals simp

@[simp] theorem logRecord_forKeeper (s : State) (it : LogItem) : (logRecord s it).1.forKeeper = s.forKeeper := by
  unfold logRecord
  dsimp only
  split
  · split
    · exact (storeRecord_forKeeper ..).trans (storeRecord_forKeeper s _)
    · exact storeRecord_forKeeper ..
  · exact storeRecord_forKeeper ..

@[simp] theorem logDevice_forKeeper (s : State) (type : Nat) (critical : Bool) (payload : List Byte) :
    (logDevice s type critical payload).forKeeper = s.forKeeper := logRecord_forKeeper ..

/-- What posting and logging wakes leaves: the landings keep their items, L5 has no others, and of the sleep part nothing but the networks differs. -/
structure WakesOnly (s t : State) : Prop where
  items : KeepsItems s t
  waits : t.waits = s.waits
  forKeeper : t.forKeeper = s.forKeeper
  sleep : ∃ g, t.sleep = { s.sleep with net := g }

theorem WakesOnly.refl (s : State) : WakesOnly s s := ⟨fun _ _ hx => hx, rfl, rfl, s.sleep.net, rfl⟩

theorem WakesOnly.trans {s t u : State} (h : WakesOnly s t) (h' : WakesOnly t u) : WakesOnly s u := by
  obtain ⟨g, hg⟩ := h.sleep
  obtain ⟨g', hg'⟩ := h'.sleep
  exact ⟨h.items.trans h'.items, h'.waits.trans h.waits, h'.forKeeper.trans h.forKeeper, g', by rw [hg', hg]⟩

theorem NetsOnly.wakesOnly {s t : State} (h : NetsOnly s t) : WakesOnly s t := ⟨h.carries.items, h.waits, h.forKeeper, h.sleep⟩

theorem WakesOnly.logDevice (s : State) (type : Nat) (critical : Bool) (payload : List Byte) : WakesOnly s (logDevice s type critical payload) := by
  have honly := logsOnly_logDevice s type critical payload
  exact ⟨honly.items, logDevice_waits .., logDevice_forKeeper .., s.sleep.net, (congrArg State.sleep honly.rest :)⟩

theorem WakesOnly.postEvent (s : State) (e : Ev) : WakesOnly s (postEvent s e) :=
  ⟨keepsItems_postEvent s e, postEvent_waits .., postEvent_forKeeper .., s.sleep.net, (congrArg State.sleep (postEvent_only s e) :)⟩

theorem posted_kept {s t u : State} {e : Ev} (h : Posted s t e) (hitems : KeepsItems t u) : Posted s u e := by
  intro hsome
  obtain ⟨it, hit, hrest⟩ := h hsome
  exact ⟨it, hitems 6 it hit, hrest⟩

theorem WakesOnly.rings {s t : State} (h : WakesOnly s t) (e : Ev) : eventRings t e = eventRings s e :=
  eventRings_of_posting (congrArg WaitParts.posting h.waits) e

/-- The event of a wake (R287). -/
def wakePosted (s : State) (t : Stamp) (w : Latch) : Ev := { s.ev 1 0x0902 (w.cause + 16 * w.index) (b2n w.late + 2 * w.target) with stamp := t }

theorem postWake_posts (t : Stamp) (s : State) (w : Latch) : WakesOnly s (postWake t s w) ∧ Posted s (postWake t s w) (wakePosted s t w) := by
  obtain ⟨u, hu⟩ : ∃ u, postEvent s (wakePosted s t w) = u := ⟨_, rfl⟩
  have hposted : Posted s u (wakePosted s t w) := by
    rw [← hu]
    exact (postEvent_posted s (wakePosted s t w) :)
  have hpost : WakesOnly s u := by
    rw [← hu]
    exact .postEvent ..
  obtain ⟨v, hv⟩ : ∃ v, (if w.logged = true then u else logWake u w) = v := ⟨_, rfl⟩
  have hlog : WakesOnly u v := by
    rw [← hv]
    split
    · exact .refl u
    · exact .logDevice ..
  have hend : postWake t s w = if w.netsDue = true then wakeNetworks v w.cause w.index else v := by
    rw [← hv, ← hu]
    rfl
  have hnets : WakesOnly v (postWake t s w) := by
    rw [hend]
    split
    · exact (NetsOnly.wakeNetworks v w.cause w.index).wakesOnly
    · exact .refl v
  exact ⟨(hpost.trans hlog).trans hnets, posted_kept hposted (hlog.items.trans hnets.items)⟩

theorem foldl_postWake_posts (t : Stamp) (l : List Latch) (s : State) :
    WakesOnly s (l.foldl (postWake t) s) ∧ ∀ w ∈ l, Posted s (l.foldl (postWake t) s) (wakePosted s t w) := by
  induction l generalizing s with
  | nil => exact ⟨.refl s, fun w hw => absurd hw List.not_mem_nil⟩
  | cons v vs ih =>
    obtain ⟨hfirst, hposted⟩ := postWake_posts t s v
    obtain ⟨hrest, hlater⟩ := ih (postWake t s v)
    refine ⟨hfirst.trans hrest, fun w hw => ?_⟩
    obtain rfl | hw' := List.mem_cons.1 hw
    · exact posted_kept hposted hrest.items
    · exact Posted.of_rings (hlater w hw') (hfirst.rings _)

/-- The wakes that can be posted are, and their latches are cleared (R284, R287). -/
theorem postWakes_posts (s : State) (t : Stamp) : (postWakes s t).waits = s.waits ∧ (postWakes s t).forKeeper = s.forKeeper ∧ KeepsItems s (postWakes s t) ∧
    (∃ g, (postWakes s t).sleep = { s.sleep with latches := s.sleep.latches.filter fun w => !w.done, net := g }) ∧
    ∀ w ∈ s.sleep.latches, w.done = true → Posted s (postWakes s t) (wakePosted s t w) := by
  obtain ⟨u, hu⟩ : ∃ u, (s.onSleep fun x => { x with latches := x.latches.filter fun w => !w.done }) = u := ⟨_, rfl⟩
  obtain ⟨honly, hposted⟩ := foldl_postWake_posts t (s.sleep.latches.filter Latch.done) u
  have hposts : postWakes s t = (s.sleep.latches.filter Latch.done).foldl (postWake t) u := by
    rw [← hu]
    rfl
  rw [← hposts] at honly hposted
  obtain ⟨g, hg⟩ := honly.sleep
  refine ⟨honly.waits.trans ?_, honly.forKeeper.trans ?_, fun k x hx => honly.items k x ?_, ⟨g, hg.trans ?_⟩, fun w hw hdone => ?_⟩
  · rw [← hu]
    rfl
  · rw [← hu]
    rfl
  · rw [← hu]
    exact hx
  · rw [← hu]
    rfl
  · have := hposted w (List.mem_filter.2 ⟨hw, hdone⟩)
    rw [← hu] at this
    exact this

/-! Access events and antennas leave the sleep part alone. -/

@[simp] theorem postEvent_sleep (s : State) (e : Ev) : (postEvent s e).sleep = s.sleep := by
  unfold postEvent
  split <;> rfl

@[simp] theorem accessEvent_sleep (s : State) (kind address value comp : Nat) : (accessEvent s kind address value comp).sleep = s.sleep := by
  unfold accessEvent
  split <;> simp

@[simp] theorem hallOn_sleep (s : State) (h : Nat) : (hallOn s h).sleep = s.sleep := by
  unfold hallOn
  split <;> rfl

@[simp] theorem clearWatchHall_sleep (s : State) (h : Nat) : (clearWatchHall s h).sleep = s.sleep := rfl

@[simp] theorem leaveLandings_sleep (s : State) (h : Nat) : (leaveLandings s h).sleep = s.sleep := rfl

@[simp] theorem hallOff_sleep (s : State) (h : Nat) : (hallOff s h).sleep = s.sleep := rfl

@[simp] theorem setDomain_sleep (s : State) (d : Nat) (on : Bool) : (setDomain s d on).sleep = s.sleep := by
  unfold setDomain
  (repeat' split)
  all_goals simp [State.onSeq]

@[simp] theorem pput_sleep (s : State) (pt : Nat) (v : PVal) : (pput s pt v).sleep = s.sleep := rfl

@[simp] theorem detachPoint_sleep (s : State) (pt : Nat) : (detachPoint s pt).sleep = s.sleep := rfl

@[simp] theorem noteLatency_sleep (s : State) (w : PWrite) : (noteLatency s w).sleep = s.sleep := by
  unfold noteLatency
  (repeat' split)
  all_goals rfl

@[simp] theorem noteWriter_sleep (s : State) (pt : Nat) (v : PVal) (k : Writer) (comp : Nat) (t : Stamp) : (noteWriter s pt v k comp t).sleep = s.sleep := rfl

@[simp] theorem writeStands_sleep (s : State) (w : PWrite) (t : Stamp) (old : PVal) (count : Nat) : (writeStands s w t old count).sleep = s.sleep := by
  unfold writeStands
  split <;> simp [State.onPoints]

@[simp] theorem bump_sleep (s : State) (cls index n : Nat) (hall : Option Nat) : (bump s cls index n hall).sleep = s.sleep := rfl

@[simp] theorem countDiscarded_sleep (s : State) (n : Nat) : (countDiscarded s n).sleep = s.sleep := rfl

@[simp] theorem applyWrite_sleep (s : State) (w : PWrite) : (applyWrite s w).1.sleep = s.sleep := by
  unfold applyWrite
  (repeat' split)
  all_goals simp

@[simp] theorem countMoved_sleep (s : State) (w : PWrite) : (countMoved s w).sleep = s.sleep := by
  unfold countMoved
  dsimp only
  split_ifs <;> rfl

@[simp] theorem moveWrite_sleep (s : State) (w : PWrite) : (moveWrite s w).sleep = s.sleep := by simp [moveWrite, State.onPoints]

@[simp] theorem writePoint_sleep (s : State) (w : PWrite) : (writePoint s w).1.sleep = s.sleep := by
  unfold writePoint
  split <;> simp

@[simp] theorem keeperWrite_sleep (s : State) (pt : Nat) (v : PVal) : (keeperWrite s pt v).1.sleep = s.sleep := by simp [keeperWrite]

@[simp] theorem keeperPoint_sleep (s : State) (pt v : Nat) : (keeperPoint s pt v).sleep = s.sleep := by
  unfold keeperPoint
  split <;> simp

@[simp] theorem driveAntennas_sleep (s : State) (q : Poll) (mask : Nat) (on : Bool) : (driveAntennas s q mask on).sleep = s.sleep := by
  unfold driveAntennas
  exact foldl_keeps State.sleep _ (fun _ _ => by simp) _ _

theorem capItem_sleep (s : State) (r : CapRecord) (idx : Nat) : (capItem s r idx).sleep = s.sleep := by
  unfold capItem
  split <;> rfl

theorem drawPlane_sleep (s : State) (n use : Nat) : (drawPlane s n use).2.sleep = s.sleep := by
  unfold drawPlane
  refine (capItem_sleep ..).trans ?_
  split
  · split <;> rfl
  · rfl
  · rfl

theorem startPoll_sleep (s : State) (q : Poll) (mask : Option Nat) : (startPoll s q mask).1.sleep = s.sleep := by
  unfold startPoll
  dsimp only
  split
  · rfl
  · split
    · exact foldl_keeps State.sleep _ (fun u a => accessEvent_sleep ..) _ _
    · split
      · rfl
      · exact (driveAntennas_sleep ..).trans ((setDomain_sleep ..).trans (drawPlane_sleep ..))

theorem autoPoll_sleep (s : State) (antMask : Nat) : (autoPoll s antMask).sleep = s.sleep := by
  unfold autoPoll
  split
  · rfl
  · exact startPoll_sleep ..

theorem foldl_logWake_only (l : List Latch) (s : State) : WakesOnly s (l.foldl logWake s) :=
  List.foldlRecOn (motive := WakesOnly s) l logWake (.refl s) fun _ hu _ _ => hu.trans (.logDevice ..)

/-! Wakes are handled (R286, R287). -/

theorem moveToward_target (s : State) (target : Nat) : ∃ g, moveToward s target = (s.onSleep fun x => { x with target := g }) ∧
    (s.seq.state.code < target → g = some (max target (s.sleep.target.getD 0))) := by
  unfold moveToward
  split
  · next hbelow => exact ⟨s.sleep.target, rfl, fun habove => absurd habove (Nat.not_lt.2 hbelow)⟩
  · exact ⟨_, rfl, fun _ => rfl⟩

/-- The latches once the device has acted on one source. -/
def handledLatches (cause index target : Nat) (netsDue : Bool) (l : List Latch) : List Latch :=
  l.map fun k => if k.isOf cause index = true then { k with handled := true, target := target, netsDue := netsDue } else k

theorem mem_handledLatches {cause index target : Nat} {netsDue : Bool} {l : List Latch} {k : Latch} (hk : k ∈ handledLatches cause index target netsDue l)
    (hcause : k.cause = cause) (hindex : k.index = index) : k.handled = true ∧ k.target = target ∧ k.netsDue = netsDue := by
  obtain ⟨j, -, rfl⟩ := List.mem_map.1 hk
  by_cases hof : j.isOf cause index = true
  · rw [if_pos hof]
    exact ⟨rfl, rfl, rfl⟩
  · rw [if_neg hof] at hcause hindex
    exact absurd (by simp [Latch.isOf, hcause, hindex]) hof

theorem handledLatches_mem {l : List Latch} {k : Latch} (hk : k ∈ l) (target : Nat) (netsDue : Bool) :
    { k with handled := true, target := target, netsDue := netsDue } ∈ handledLatches k.cause k.index target netsDue l :=
  List.mem_map.2 ⟨k, hk, if_pos (by simp [Latch.isOf])⟩

theorem wakeHandling_awake (l : Latch) (s : State) (hfirst : s.sleep.latches.find? (!·.handled) = some l) (hpower : s.seq.powered = true)
    (hout : s.seq.inReset = false) (hcommit : s.sleep.darkCommit = none) (hawake : s.asleep = false) (hrun : s.plane.running = true) :
    ∃ t, exec .wakeHandling s = .next t ∧
      t.sleep.darkPending = (s.sleep.darkPending && decide (wakeTarget s l.cause < s.seq.state.code)) ∧
      (l.told = true → Posted s t (s.ev 1 0x0902 (l.cause + 16 * l.index) (b2n l.late + 2 * wakeTarget s l.cause))) ∧
      (∀ k ∈ t.sleep.latches, k.cause = l.cause → k.index = l.index → k.handled = true ∧ k.told = false) ∧
      (s.seq.state.code < wakeTarget s l.cause → t.sleep.target = some (max (wakeTarget s l.cause) (s.sleep.target.getD 0))) := by
  have hmem := List.mem_of_find?_eq_some hfirst
  obtain ⟨u, hu⟩ : ∃ u, (if wakeTarget s l.cause < s.seq.state.code then s else s.onSleep fun x => { x with darkPending := false }) = u := ⟨_, rfl⟩
  have hstart : u = { s with sleep := { s.sleep with darkPending := s.sleep.darkPending && decide (wakeTarget s l.cause < s.seq.state.code) } } := by
    rw [← hu]
    by_cases hbelow : wakeTarget s l.cause < s.seq.state.code
    · rw [if_pos hbelow, decide_eq_true hbelow, Bool.and_true]
    · rw [if_neg hbelow, decide_eq_false hbelow, Bool.and_false]
      rfl
  obtain ⟨g, hg, htarget⟩ := moveToward_target u (wakeTarget s l.cause)
  obtain ⟨v, hv⟩ : ∃ v, wakeNetworks (moveToward u (wakeTarget s l.cause)) l.cause l.index = v := ⟨_, rfl⟩
  have hnets : NetsOnly (moveToward u (wakeTarget s l.cause)) v := by
    rw [← hv]
    exact .wakeNetworks ..
  obtain ⟨n, hsleep⟩ := hnets.sleep
  have hvsleep : v.sleep = { s.sleep with
      darkPending := s.sleep.darkPending && decide (wakeTarget s l.cause < s.seq.state.code), target := g, net := n } := by
    rw [hsleep, hg, hstart]
    rfl
  obtain ⟨w, hw⟩ : ∃ w, markHandled v l (wakeTarget s l.cause) false = w := ⟨_, rfl⟩
  have hwsleep : w.sleep = { s.sleep with
      darkPending := s.sleep.darkPending && decide (wakeTarget s l.cause < s.seq.state.code), target := g, net := n
      latches := handledLatches l.cause l.index (wakeTarget s l.cause) false s.sleep.latches } := by
    rw [← hw]
    refine (congrArg (fun x : Sleep => { x with latches := handledLatches l.cause l.index (wakeTarget s l.cause) false x.latches }) hvsleep).trans ?_
    rfl
  have hwaits : w.waits = s.waits := by
    rw [← hw]
    refine (hnets.waits : v.waits = _).trans ?_
    rw [hg, hstart]
    rfl
  have hposting : w.posting = s.posting := congrArg WaitParts.posting hwaits
  have hhandles : wakeHandling s = postWakes w w.stamp := by
    unfold wakeHandling
    rw [hfirst]
    dsimp only
    rw [if_neg (by rw [hpower, hout, hcommit]; decide), if_neg (by rw [hawake]; decide), if_pos hrun, ← hw, ← hv, ← hu]
    rfl
  obtain ⟨-, -, -, ⟨n', hend⟩, hposted⟩ := postWakes_posts w w.stamp
  rw [hwsleep] at hend hposted
  refine ⟨(postWakes w w.stamp).withPending s.pending, congrArg (effect s) hhandles, ?_, fun htold => ?_, fun k hk hcause hindex => ?_, fun habove => ?_⟩
  · exact (congrArg Sleep.darkPending hend :)
  · have hthis := hposted _ (handledLatches_mem hmem (wakeTarget s l.cause) false) (by simp [Latch.done, htold])
    have hev : wakePosted w w.stamp { l with handled := true, target := wakeTarget s l.cause, netsDue := false } =
        s.ev 1 0x0902 (l.cause + 16 * l.index) (b2n l.late + 2 * wakeTarget s l.cause) :=
      ev_of_posting hposting 1 0x0902 (l.cause + 16 * l.index) (b2n l.late + 2 * wakeTarget s l.cause) false 0
    rw [hev] at hthis
    exact Posted.of_rings hthis (eventRings_of_posting hposting _)
  · have hk' : k ∈ (postWakes w w.stamp).sleep.latches := hk
    rw [hend] at hk'
    obtain ⟨hmark, hnot⟩ := List.mem_filter.1 hk'
    obtain ⟨hhandled, -, -⟩ := mem_handledLatches hmark hcause hindex
    refine ⟨hhandled, ?_⟩
    simpa [Latch.done, hhandled] using hnot
  · refine (congrArg Sleep.target hend :).trans ?_
    have hsame : u.seq = s.seq ∧ u.sleep.target = s.sleep.target := by
      rw [hstart]
      exact ⟨rfl, rfl⟩
    obtain ⟨hseq, htgt⟩ := hsame
    rw [hseq, htgt] at htarget
    exact htarget habove

theorem wakeHandling_asleep (l : Latch) (s : State) (hfirst : s.sleep.latches.find? (!·.handled) = some l) (hpower : s.seq.powered = true)
    (hout : s.seq.inReset = false) (hcommit : s.sleep.darkCommit = none) (hasleep : s.seq.state = .dark ∨ s.seq.state = .buoy) :
    ∃ t, exec .wakeHandling s = .next t ∧
      (∀ k ∈ t.sleep.latches, k.cause = l.cause → k.index = l.index → k.handled = true ∧ k.target = wakeTarget s l.cause ∧ k.netsDue = true) ∧
      (∃ k ∈ t.sleep.latches, k.cause = l.cause ∧ k.index = l.index ∧ k.late = l.late ∧ (s.seq.state = .buoy → k.logged = true)) ∧
      (s.seq.state.code < wakeTarget s l.cause → t.sleep.target = some (max (wakeTarget s l.cause) (s.sleep.target.getD 0))) := by
  have hmem := List.mem_of_find?_eq_some hfirst
  have hsleeping : s.asleep = true := by
    unfold State.asleep
    obtain h | h := hasleep
    · rw [h]
      decide
    · rw [h]
      decide
  obtain ⟨g, hg, htarget⟩ := moveToward_target s (wakeTarget s l.cause)
  obtain ⟨u, hu⟩ : ∃ u, markHandled (moveToward s (wakeTarget s l.cause)) l (wakeTarget s l.cause) true = u := ⟨_, rfl⟩
  have husleep : u.sleep = { s.sleep with target := g, latches := handledLatches l.cause l.index (wakeTarget s l.cause) true s.sleep.latches } := by
    rw [← hu, hg]
    rfl
  have hstate : u.seq = s.seq := by
    rw [← hu, hg]
    rfl
  have hhandles : wakeHandling s = if u.seq.state = .buoy then
      (if l.cause = 2 then autoPoll (logWakes u) (vget (accessCfg (logWakes u)).handle l.index).antMask else logWakes u) else u := by
    unfold wakeHandling
    rw [hfirst]
    dsimp only
    rw [if_neg (by rw [hpower, hout, hcommit]; decide), if_pos hsleeping, ← hu]
    rfl
  have hnew := handledLatches_mem hmem (wakeTarget s l.cause) true
  by_cases hbuoy : s.seq.state = .buoy
  · obtain ⟨w, hw⟩ : ∃ w, (if l.cause = 2 then autoPoll (logWakes u) (vget (accessCfg (logWakes u)).handle l.index).antMask else logWakes u) = w := ⟨_, rfl⟩
    have hlogs : w.sleep = (logWakes u).sleep := by
      rw [← hw]
      split
      · exact autoPoll_sleep ..
      · rfl
    obtain ⟨n, hn⟩ := (foldl_logWake_only (u.sleep.latches.filter fun k => k.handled && !k.logged)
      (u.onSleep fun x => { x with latches := x.latches.map fun k => if k.handled = true then { k with logged := true } else k })).sleep
    have hend : w.sleep = { s.sleep with
        target := g, net := n
        latches := (handledLatches l.cause l.index (wakeTarget s l.cause) true s.sleep.latches).map fun k : Latch =>
          if k.handled = true then { k with logged := true } else k } := by
      refine hlogs.trans (hn.trans ?_)
      refine (congrArg (fun x : Sleep => { x with net := n, latches := x.latches.map fun k : Latch => if k.handled = true then { k with logged := true } else k })
        husleep).trans ?_
      rfl
    rw [hstate, if_pos hbuoy, hw] at hhandles
    refine ⟨w.withPending s.pending, congrArg (effect s) hhandles, fun k hk hcause hindex => ?_, ?_, fun habove => ?_⟩
    · have hk' : k ∈ w.sleep.latches := hk
      rw [hend] at hk'
      obtain ⟨j, hj, rfl⟩ := List.mem_map.1 hk'
      have hkept (x : Latch) : (if x.handled = true then { x with logged := true } else x).cause = x.cause ∧
          (if x.handled = true then { x with logged := true } else x).index = x.index ∧
          (if x.handled = true then { x with logged := true } else x).handled = x.handled ∧
          (if x.handled = true then { x with logged := true } else x).target = x.target ∧
          (if x.handled = true then { x with logged := true } else x).netsDue = x.netsDue := by
        split <;> exact ⟨rfl, rfl, rfl, rfl, rfl⟩
      obtain ⟨h1, h2, h3, h4, h5⟩ := hkept j
      rw [h3, h4, h5]
      exact mem_handledLatches hj (h1.symm.trans hcause) (h2.symm.trans hindex)
    · refine ⟨{ l with handled := true, target := wakeTarget s l.cause, netsDue := true, logged := true }, ?_, rfl, rfl, rfl, fun _ => rfl⟩
      have hin : { l with handled := true, target := wakeTarget s l.cause, netsDue := true, logged := true } ∈ w.sleep.latches := by
        rw [hend]
        exact List.mem_map.2 ⟨_, hnew, if_pos rfl⟩
      exact hin
    · exact (congrArg Sleep.target hend :).trans (htarget habove)
  · rw [hstate, if_neg hbuoy] at hhandles
    refine ⟨u.withPending s.pending, congrArg (effect s) hhandles, fun k hk hcause hindex => ?_, ?_, fun habove => ?_⟩
    · have hk' : k ∈ u.sleep.latches := hk
      rw [husleep] at hk'
      exact mem_handledLatches hk' hcause hindex
    · refine ⟨{ l with handled := true, target := wakeTarget s l.cause, netsDue := true }, ?_, rfl, rfl, rfl, fun hb => absurd hb hbuoy⟩
      have hin : { l with handled := true, target := wakeTarget s l.cause, netsDue := true } ∈ u.sleep.latches := by
        rw [husleep]
        exact hnew
      exact hin
    · exact (congrArg Sleep.target husleep :).trans (htarget habove)

theorem landingRelease_tells (it : LandItem) (n c i : Nat) (s : State) (hrun : s.plane.running = true) (hn : n = (vget s.plane.landings 5).released)
    (hpast : n < s.wallTick) (hready : landingReady s 5 n = true) (hitems : (vget s.plane.landings 5).items = [it]) (hdue : itemDue s n it.stamp = true)
    (hwarn : it.warn = false) (hwake : it.wake = some (c, i)) :
    ∃ t, exec (.landingRelease 5 n) s = .next t ∧ (vget t.plane.landings 5).items = [] ∧
      (∀ k ∈ t.sleep.latches, k.cause = c → k.index = i → k.told = true ∧ k.handled = false) ∧
      ∀ k ∈ s.sleep.latches, k.cause = c → k.index = i → k.handled = true →
        Posted s t { s.ev 1 0x0902 (c + 16 * i) (b2n k.late + 2 * k.target) with stamp := it.stamp } := by
  obtain ⟨u, hu⟩ : ∃ u, (takeDue (s.onPlane fun p => { p with landings := vmod p.landings 5 fun x => { x with released := n + 1 } }) 5 n).1 = u := ⟨_, rfl⟩
  have hmark : (vget (s.onPlane fun p => { p with landings := vmod p.landings 5 fun x => { x with released := n + 1 } }).plane.landings 5).items = [it] := by
    refine (congrArg Landing.items (vget_vmod_same s.plane.landings 5 _ (by decide))).trans ?_
    exact hitems
  have hdue' : itemDue (s.onPlane fun p => { p with landings := vmod p.landings 5 fun x => { x with released := n + 1 } }) n it.stamp = true := hdue
  have hkeeper : u.forKeeper = [] := by
    rw [← hu]
    refine (congrArg Landing.items (vget_vmod_same _ 5 _ (by decide))).trans ?_
    dsimp only
    rw [hmark]
    exact List.filter_cons_of_neg (by simp [hdue'])
  have htaken : (takeDue (s.onPlane fun p => { p with landings := vmod p.landings 5 fun x => { x with released := n + 1 } }) 5 n).2 = [it] := by
    unfold takeDue
    dsimp only
    rw [hmark]
    exact List.filter_cons_of_pos hdue
  have hsame : u.sleep = s.sleep ∧ u.waits = s.waits := by
    rw [← hu]
    exact ⟨rfl, rfl⟩
  obtain ⟨hsleep, hwaits⟩ := hsame
  obtain ⟨w, hw⟩ : ∃ w, (u.onSleep fun x => { x with latches := x.latches.map fun l => if l.isOf c i = true then { l with told := true } else l }) = w := ⟨_, rfl⟩
  have hrelease : landingRelease s 5 n = postWakes w it.stamp := by
    unfold landingRelease
    rw [if_pos ⟨hrun, by decide, hn, hpast, hready⟩, if_pos (Or.inl (by decide))]
    unfold releaseTick
    dsimp only
    rw [if_neg (fun h => absurd h.1 (by decide)), if_neg (by decide), if_neg (by decide), if_neg (by decide), if_pos rfl]
    unfold releaseKeeper
    obtain ⟨x, hx⟩ : ∃ x, takeDue (s.onPlane fun p => { p with landings := vmod p.landings 5 fun x => { x with released := n + 1 } }) 5 n = x := ⟨_, rfl⟩
    rw [hx] at hu htaken
    rw [hx, ← hw, ← hu]
    obtain ⟨x1, x2⟩ := x
    obtain rfl : x2 = [it] := htaken
    simp only [List.foldl_cons, List.foldl_nil, keeperItem, hwarn, hwake]
    rfl
  have hwsleep : w.sleep.latches = s.sleep.latches.map fun l => if l.isOf c i = true then { l with told := true } else l := by
    rw [← hw, ← hsleep]
    rfl
  have hwposting : w.posting = s.posting := by
    have hw' : w.waits = s.waits := by
      rw [← hw]
      exact hwaits
    exact congrArg WaitParts.posting hw'
  obtain ⟨-, hkeeps, -, ⟨g, hend⟩, hposted⟩ := postWakes_posts w it.stamp
  refine ⟨(postWakes w it.stamp).withPending s.pending, congrArg (effect s) hrelease, ?_, fun k hk hcause hindex => ?_, fun k hk hcause hindex hhandled => ?_⟩
  · refine (hkeeps : (vget (postWakes w it.stamp).plane.landings 5).items = w.forKeeper).trans ?_
    rw [← hw]
    exact hkeeper
  · have hk' : k ∈ (postWakes w it.stamp).sleep.latches := hk
    rw [hend] at hk'
    obtain ⟨hin, hnot⟩ := List.mem_filter.1 hk'
    rw [hwsleep] at hin
    obtain ⟨j, -, rfl⟩ := List.mem_map.1 hin
    by_cases hof : j.isOf c i = true
    · rw [if_pos hof] at hnot ⊢
      exact ⟨rfl, by simpa [Latch.done] using hnot⟩
    · rw [if_neg hof] at hcause hindex
      exact absurd (by simp [Latch.isOf, hcause, hindex]) hof
  · subst hcause hindex
    have hin : { k with told := true } ∈ w.sleep.latches := by
      rw [hwsleep]
      exact List.mem_map.2 ⟨k, hk, if_pos (by simp [Latch.isOf])⟩
    have hthis := hposted _ hin (by simp [Latch.done, hhandled])
    exact Posted.of_rings hthis (eventRings_of_posting hwposting _)

end Sys2Proof.Machine

namespace Sys2Proof.Machine

open Sys2Proof.Claims

/-! The Dark entry, the end of Buoy and the stop of the pairs (R281, R283). -/

theorem darkEntry_clears (d : Nat) (s : State) (hcommit : s.sleep.darkCommit = some d) (hdue : d + 80 ≤ s.now) :
    ∃ t, exec .darkEntry s = .next t ∧ t.seq.state = .dark ∧ t.seq.pd = 0 ∧ t.plane.running = false ∧
      t.mem = [] ∧ t.points = {} ∧ t.bus = {} ∧ t.cipher = {} ∧ t.sleep.darkCommit = none ∧ t.sleep.darkPending = false ∧ t.ret = s.ret ∧ t.load = s.load ∧
      ∀ l ∈ s.sleep.latches, ∃ k ∈ t.sleep.latches, k.cause = l.cause ∧ k.index = l.index ∧ k.told = true ∧
        k.tick = (if l.late = true then s.now else l.tick) := by
  have hstep : darkEntry s = darkClear (s.onSleep fun x => { x with
      darkPending := false, darkCommit := none, pairStopAt := none, target := none
      latches := x.latches.map fun l => { l with told := true, tick := if l.late = true then s.now else l.tick } }) := by
    unfold darkEntry
    rw [hcommit]
    exact if_pos hdue
  exact ⟨_, congrArg (effect s) hstep, rfl, rfl, rfl, rfl, rfl, rfl, rfl, rfl, rfl, rfl, rfl, fun l hl => ⟨_, List.mem_map.2 ⟨l, hl, rfl⟩, rfl, rfl, rfl, rfl⟩⟩

theorem buoyTimeout_ends (s : State) (hbuoy : s.seq.state = .buoy) (htarget : s.sleep.target = none)
    (hdue : s.sleep.buoyAt + msTicks s.store.sleep.buoyMs ≤ s.now) :
    ∃ t, exec .buoyTimeout s = .next t ∧ t.seq.state = .dark ∧ t.seq.pd = 0 ∧ t.access.poll = none ∧ t.ret = s.ret := by
  obtain ⟨u, hu⟩ : ∃ u, (if (abandonPoll s .timeout).store.log.opened.isSome = true then sealSegment (abandonPoll s .timeout) 5 else abandonPoll s .timeout) = u :=
    ⟨_, rfl⟩
  have hwaits : u.waits = { s.waits with poll := none } := by
    rw [← abandonPoll_drops s .timeout, ← hu]
    split
    · exact sealSegment_waits ..
    · rfl
  have hstep : buoyTimeout s = darkClear (u.onSleep fun x => { x with target := none }) := by
    unfold buoyTimeout
    rw [if_pos ⟨hbuoy, by rw [htarget]; rfl, hdue⟩, ← hu]
    rfl
  exact ⟨_, congrArg (effect s) hstep, rfl, rfl, rfl, (congrArg WaitParts.ret hwaits :)⟩

theorem completeAt_seq (s : State) (p : Packet) (st : Status) (r : Reply) (done : Stamp) : (completeAt s p st r done).seq = s.seq :=
  (congrArg State.seq (completeAt_beyondReply s p st r done) :)

theorem endUnadmitted_seq (st : Status) (r n : Nat) (s : State) : (endUnadmitted st r n s).seq = s.seq := by
  induction n generalizing s with
  | zero => rfl
  | succ n ih =>
    unfold endUnadmitted
    split
    · exact (ih _).trans (completeAt_seq ..)
    · rfl

theorem cancelHeld_seq (s : State) (gone : Packet → Bool) : (cancelHeld s gone).seq = s.seq :=
  foldl_keeps State.seq _ (fun _ _ => completeNow_seq ..) _ _

/-- A domain without a hall of its own goes off alone. -/
theorem setDomain_off (s : State) (d : Nat) (hnone : domainHall d = none) :
    domainOn (setDomain s d false) d = false ∧ (setDomain s d false).seq.state = s.seq.state := by
  unfold setDomain
  split
  · next hoff => exact ⟨hoff, rfl⟩
  · rw [hnone]
    exact ⟨testBit_setBit_same s.seq.pd d false, rfl⟩

/-- The packets of the application pairs end before domain 3 goes off, and the sequencer stands until then. -/
theorem stopPairs_ends (s : State) : ∃ u : State, u.seq = s.seq ∧ stopPairs s = setDomain (u.onSleep fun x => { x with pairStopAt := none }) 3 false := by
  refine ⟨_, ?_, rfl⟩
  exact (cancelHeld_seq ..).trans (foldl_keeps State.seq _ (fun _ _ => endUnadmitted_seq ..) _ _)

theorem pairStop_stops (d : Nat) (s : State) (hstop : s.sleep.pairStopAt = some d) (hrun : s.plane.running = true) (hdue : d ≤ s.plane.lin) :
    ∃ t, exec .pairStop s = .next t ∧ t.sleep.pairStopAt = none ∧ domainOn t 3 = false ∧ t.seq.state = s.seq.state := by
  obtain ⟨u, hseq, hends⟩ := stopPairs_ends s
  have hstep : pairStop s = setDomain (u.onSleep fun x => { x with pairStopAt := none }) 3 false := by
    unfold pairStop
    rw [hstop, ← hends]
    exact if_pos ⟨hrun, hdue⟩
  obtain ⟨hoff, hstate⟩ := setDomain_off (u.onSleep fun x => { x with pairStopAt := none }) 3 rfl
  refine ⟨_, congrArg (effect s) hstep, (congrArg Sleep.pairStopAt (setDomain_sleep ..) :), hoff, ?_⟩
  exact hstate.trans (congrArg Seq.state hseq)

/-! The NM packets and XCVR.STATE (Tables 11.7–11.12). -/

@[simp] theorem completeNow_sleep (s : State) (p : Packet) (st : Status) (r : Reply) : (completeNow s p st r).sleep = s.sleep :=
  (congrArg State.sleep (completeNow_beyondReply s p st r) :)

theorem netOf_completeNow (s : State) (p : Packet) (st : Status) (r : Reply) (n : Nat) : netOf (completeNow s p st r) n = netOf s n := by
  simp only [netOf, completeNow_sleep]

/-- What NM.CONFIG replies where it reads. -/
def nmReadReply (p : Packet) (s : State) : Reply := if nmDevice p = true then nmDeviceReply s.store.sleep else nmReply (nmTarget p) (netCfg s (nmTarget p))

theorem nmConfigOp_read (p : Packet) (s : State) (hread : p.bit 17 0 = true) : nmConfigOp.run p s = { s := s, reply := nmReadReply p s } := by
  unfold nmConfigOp nmReadReply
  dsimp only
  rw [hread]
  by_cases hdevice : nmDevice p = true
  · simp only [if_pos hdevice, if_true]
  · simp only [if_neg hdevice, if_true]

theorem nmConfig_reads (p : Packet) (s : State) (h : KeeperRuns nmConfigOp p s) (hread : p.bit 17 0 = true) (hagree : nmAgrees s.store.sleep = true) :
    ∃ t, exec (.nmConfig p) s = .next t ∧ Completed p .ok s t ∧ Replied p s t (nmConfigOp.run p s).reply ∧ t.store.sleep = s.store.sleep := by
  have hrefuse : nmConfigOp.refuse p (release s p) = none := by
    simp only [nmConfigOp, hread, Bool.not_true, Bool.false_eq_true, false_and, and_false, if_false]
  obtain ⟨hexec, hdone⟩ := keeperTake_completes h hrefuse (nmConfigOp_read p _ hread) hagree rfl
  rw [nmConfigOp_read p s hread]
  exact ⟨_, hexec, hdone, Replied.of_same (completeNow_replied (release s p) p .ok _) rfl rfl rfl, by rw [withPending_store, completeNow_store]; rfl⟩

/-- The settings of the device that NM.CONFIG carries. -/
def nmDeviceSettings (p : Packet) (x : SleepStore) : SleepStore :=
  { x with
    alarm := p.num 20 4, buoyMs := p.num 24 2
    wake := vtab 9 fun i => { target := p.fld (32 + 4 * i) 0 2, mask := some (p.fld (34 + 4 * i) 0 14) } }

theorem nmConfig_setsDevice (p : Packet) (s : State) (h : KeeperRuns nmConfigOp p s) (hdevice : nmDevice p = true) (hwrite : p.bit 17 0 = false)
    (hagree : nmAgrees (nmDeviceSettings p s.store.sleep) = true) :
    ∃ t, exec (.nmConfig p) s = .next t ∧ Completed p .ok s t ∧ t.store.sleep = nmDeviceSettings p s.store.sleep ∧
      t.sleep.alarmAt = (if p.num 20 4 = 0 then none else some (s.rtc.time + p.num 20 4 * 32768)) := by
  have hrefuse : nmConfigOp.refuse p (release s p) = none := by
    simp only [nmConfigOp, hdevice, Bool.not_true, Bool.false_eq_true, false_and, if_false]
  obtain ⟨u, hu⟩ : ∃ u, ((release s p).onStore fun st => { st with sleep := nmDeviceSettings p st.sleep }).onSleep (fun x => { x with
    alarmAt := if p.num 20 4 = 0 then none else some (s.rtc.time + p.num 20 4 * 32768) }) = u := ⟨_, rfl⟩
  have hrun : nmConfigOp.run p (release s p) = { s := u, reply := nmDeviceReply u.store.sleep } := by
    rw [← hu]
    unfold nmConfigOp
    dsimp only
    rw [if_pos hdevice, hwrite]
    rfl
  have hstore : u.store.sleep = nmDeviceSettings p s.store.sleep := by
    rw [← hu]
    rfl
  obtain ⟨hexec, hdone⟩ := keeperTake_completes h hrefuse hrun (show nmAgrees u.store.sleep = true by rw [hstore]; exact hagree) (by rw [← hu]; rfl)
  refine ⟨_, hexec, hdone, ?_, ?_⟩
  · rw [withPending_store, completeNow_store]
    exact hstore
  · rw [withPending_sleep, completeNow_sleep, ← hu]
    rfl

/-- A network's new settings in the store, and its user data. -/
def nmWritten (p : Packet) (s : State) : State :=
  (s.onStore fun st => { st with sleep := { st.sleep with net := vmod st.sleep.net (nmTarget p) fun _ => nmCfgOf p } }).onNet (nmTarget p) fun x =>
    { x with user := (nmCfgOf p).user }

/-- A network enters its new mode: off, or asleep. -/
def nmModeSet (p : Packet) (s : State) (old : Nat) : State :=
  if (nmCfgOf p).mode = old then s
  else if (nmCfgOf p).mode = 0 then s.onNet (nmTarget p) fun _ => { xcvr := (netOf s (nmTarget p)).xcvr }
  else setXcvr (setNet s (nmTarget p) 1) (nmTarget p) 3

theorem nmConfigOp_write (p : Packet) (s : State) (hnet : nmDevice p = false) (hwrite : p.bit 17 0 = false) :
    nmConfigOp.run p s = { s := nmModeSet p (nmWritten p s) (netCfg s (nmTarget p)).mode, reply := nmReply (nmTarget p) (nmCfgOf p) } := by
  unfold nmConfigOp
  dsimp only
  rw [hnet, hwrite]
  rfl

theorem nmTarget_lt {p : Packet} {s : State} (h : KeeperRuns nmConfigOp p s) (hnet : nmDevice p = false) : nmTarget p < 14 := by
  have hbad := bad_eq_false_of_checkPacket _ _ _ (checkPacket_of_keeperRuns _ _ _ h)
  simp only [nmConfigOp, hnet, Bool.not_false, Bool.and_true, Bool.or_eq_false_iff, decide_eq_false_iff_not] at hbad
  omega

theorem nmModeSet_only (p : Packet) (s : State) (old : Nat) : NetsOnly s (nmModeSet p s old) := by
  unfold nmModeSet
  split
  · exact .refl s
  · split
    · exact .onNet ..
    · exact (NetsOnly.setNet ..).trans (.setXcvr ..)

theorem nmWritten_net (p : Packet) (s : State) (hn : nmTarget p < 14) : netOf (nmWritten p s) (nmTarget p) = { netOf s (nmTarget p) with user := (nmCfgOf p).user } :=
  onNet_same _ _ _ hn

theorem nmWritten_cfg (p : Packet) (s : State) (hn : nmTarget p < 14) : netCfg (nmWritten p s) (nmTarget p) = nmCfgOf p :=
  vget_vmod_same s.store.sleep.net (nmTarget p) _ hn

/-- NM.CONFIG of a network that it does not refuse. -/
theorem nmConfig_setsNet (p : Packet) (s : State) (h : KeeperRuns nmConfigOp p s) (hnet : nmDevice p = false) (hwrite : p.bit 17 0 = false)
    (hagree : nmAgrees { s.store.sleep with net := vmod s.store.sleep.net (nmTarget p) fun _ => nmCfgOf p } = true)
    (hfree : (nmCfgOf p).mode ≠ (netCfg s (nmTarget p)).mode → (netOf s (nmTarget p)).state ≤ 1) :
    ∃ t, exec (.nmConfig p) s = .next t ∧ Completed p .ok s t ∧ netCfg t (nmTarget p) = nmCfgOf p ∧
      netOf t (nmTarget p) = netOf (nmModeSet p (nmWritten p (release s p)) (netCfg s (nmTarget p)).mode) (nmTarget p) := by
  have hn := nmTarget_lt h hnet
  have hrefuse : nmConfigOp.refuse p (release s p) = none := by
    refine if_neg ?_
    rintro ⟨-, -, hmode, hbusy⟩
    exact absurd (hfree hmode) (by exact Nat.not_le.2 hbusy)
  obtain ⟨u, hu⟩ : ∃ u, nmModeSet p (nmWritten p (release s p)) (netCfg s (nmTarget p)).mode = u := ⟨_, rfl⟩
  have hrun : nmConfigOp.run p (release s p) = { s := u, reply := nmReply (nmTarget p) (nmCfgOf p) } := by
    rw [nmConfigOp_write p _ hnet hwrite, ← hu]
    rfl
  have honly := nmModeSet_only p (nmWritten p (release s p)) (netCfg s (nmTarget p)).mode
  rw [hu] at honly
  have hstore : u.store.sleep = { s.store.sleep with net := vmod s.store.sleep.net (nmTarget p) fun _ => nmCfgOf p } := by
    rw [honly.store]
    rfl
  obtain ⟨hexec, hdone⟩ := keeperTake_completes h hrefuse hrun (show nmAgrees u.store.sleep = true by rw [hstore]; exact hagree)
    ((clock_of_reach honly.carries.reach).trans rfl)
  refine ⟨_, hexec, hdone, ?_, ?_⟩
  · rw [← nmWritten_cfg p (release s p) hn, netCfg, withPending_store, completeNow_store, honly.store]
    rfl
  · rw [netOf_withPending, netOf_completeNow, hu]

theorem nmConfig_keepsMode (p : Packet) (s : State) (h : KeeperRuns nmConfigOp p s) (hnet : nmDevice p = false) (hwrite : p.bit 17 0 = false)
    (hagree : nmAgrees { s.store.sleep with net := vmod s.store.sleep.net (nmTarget p) fun _ => nmCfgOf p } = true)
    (hmode : (nmCfgOf p).mode = (netCfg s (nmTarget p)).mode) :
    ∃ t, exec (.nmConfig p) s = .next t ∧ Completed p .ok s t ∧ netCfg t (nmTarget p) = nmCfgOf p ∧ (netOf t (nmTarget p)).user = (nmCfgOf p).user ∧
      (netOf t (nmTarget p)).state = (netOf s (nmTarget p)).state := by
  obtain ⟨t, hexec, hdone, hcfg, hend⟩ := nmConfig_setsNet p s h hnet hwrite hagree fun hne => absurd hmode hne
  rw [nmModeSet, if_pos hmode, nmWritten_net p _ (nmTarget_lt h hnet)] at hend
  exact ⟨t, hexec, hdone, hcfg, by rw [hend], by rw [hend]; rfl⟩

theorem nmConfig_startsMode (p : Packet) (s : State) (h : KeeperRuns nmConfigOp p s) (hnet : nmDevice p = false) (hwrite : p.bit 17 0 = false)
    (hagree : nmAgrees { s.store.sleep with net := vmod s.store.sleep.net (nmTarget p) fun _ => nmCfgOf p } = true)
    (hmode : (nmCfgOf p).mode ≠ (netCfg s (nmTarget p)).mode) (hon : (nmCfgOf p).mode ≠ 0) (hfree : (netOf s (nmTarget p)).state ≤ 1) :
    ∃ t, exec (.nmConfig p) s = .next t ∧ Completed p .ok s t ∧ netCfg t (nmTarget p) = nmCfgOf p ∧ (netOf t (nmTarget p)).state = 1 ∧
      (netOf t (nmTarget p)).xcvr = 3 := by
  obtain ⟨t, hexec, hdone, hcfg, hend⟩ := nmConfig_setsNet p s h hnet hwrite hagree fun _ => hfree
  have hn := nmTarget_lt h hnet
  rw [nmModeSet, if_neg hmode, if_neg hon, (setXcvr_net _ _ _ hn).1, (setNet_net _ _ _ hn).1] at hend
  exact ⟨t, hexec, hdone, hcfg, by rw [hend], by rw [hend]⟩

theorem nmConfig_endsMode (p : Packet) (s : State) (h : KeeperRuns nmConfigOp p s) (hnet : nmDevice p = false) (hwrite : p.bit 17 0 = false)
    (hagree : nmAgrees { s.store.sleep with net := vmod s.store.sleep.net (nmTarget p) fun _ => nmCfgOf p } = true)
    (hmode : (nmCfgOf p).mode ≠ (netCfg s (nmTarget p)).mode) (hoff : (nmCfgOf p).mode = 0) (hfree : (netOf s (nmTarget p)).state ≤ 1) :
    ∃ t, exec (.nmConfig p) s = .next t ∧ Completed p .ok s t ∧ netCfg t (nmTarget p) = nmCfgOf p ∧ (netOf t (nmTarget p)).state = 0 ∧
      (netOf t (nmTarget p)).requested = false ∧ (netOf t (nmTarget p)).xcvr = (netOf s (nmTarget p)).xcvr := by
  obtain ⟨t, hexec, hdone, hcfg, hend⟩ := nmConfig_setsNet p s h hnet hwrite hagree fun _ => hfree
  have hn := nmTarget_lt h hnet
  rw [nmModeSet, if_neg hmode, if_pos hoff, onNet_same _ _ _ hn, nmWritten_net p _ hn] at hend
  exact ⟨t, hexec, hdone, hcfg, by rw [hend], by rw [hend], by rw [hend]; rfl⟩

theorem nmConfig_refuses (p : Packet) (s : State) (h : KeeperRuns nmConfigOp p s) (hnet : nmDevice p = false) (hwrite : p.bit 17 0 = false)
    (hagree : nmAgrees { s.store.sleep with net := vmod s.store.sleep.net (nmTarget p) fun _ => nmCfgOf p } = true)
    (hmode : (nmCfgOf p).mode ≠ (netCfg s (nmTarget p)).mode) (hbusy : 1 < (netOf s (nmTarget p)).state) :
    ∃ t, exec (.nmConfig p) s = .next t ∧ Completed p .busy s t ∧ t.store.sleep = s.store.sleep := by
  have hrefuse : nmConfigOp.refuse p (release s p) = some .busy := if_pos ⟨by rw [hnet]; rfl, by rw [hwrite]; rfl, hmode, hbusy⟩
  have hafter : nmConfigOp.agree p (release s p) (nmConfigOp.run p (release s p)).s = true := by
    rw [nmConfigOp_write p _ hnet hwrite]
    change nmAgrees _ = true
    rw [(nmModeSet_only ..).store]
    exact hagree
  have hexec : keeperTake nmConfigOp p s = completeNow (release s p) p .busy [] := by
    rw [keeperTake_runs nmConfigOp p s h hafter]
    unfold carryOut
    rw [hrefuse]
  exact ⟨(completeNow (release s p) p .busy []).withPending s.pending, congrArg (effect s) hexec, Completed.of_clock (completeNow_completed ..) rfl,
    by rw [withPending_store, completeNow_store]; rfl⟩

theorem nmConfig_conflicts (p : Packet) (s : State) (h : KeeperRuns nmConfigOp p s) (hnet : nmDevice p = false) (hwrite : p.bit 17 0 = false)
    (hagree : nmAgrees { s.store.sleep with net := vmod s.store.sleep.net (nmTarget p) fun _ => nmCfgOf p } = false) :
    ∃ t, exec (.nmConfig p) s = .next t ∧ Completed p .conflict s t ∧ t.store.sleep = s.store.sleep ∧ t.sleep = s.sleep := by
  have hafter : nmConfigOp.agree p (release s p) (nmConfigOp.run p (release s p)).s = false := by
    rw [nmConfigOp_write p _ hnet hwrite]
    change nmAgrees _ = false
    rw [(nmModeSet_only ..).store]
    exact hagree
  refine ⟨(completeNow (release s p) p .conflict []).withPending s.pending, congrArg (effect s) (keeperTake_conflicts h hafter),
    Completed.of_clock (completeNow_completed ..) rfl, ?_, ?_⟩
  · rw [withPending_store, completeNow_store]
    rfl
  · rw [withPending_sleep, completeNow_sleep]
    rfl

/-- A packet whose names are one network names one of the fourteen. -/
theorem nmNames_lt {p : Packet} {n : Nat} (hone : nmNames p = [n]) : n < 14 := by
  have hmem : n ∈ nmNames p := hone ▸ List.mem_singleton.2 rfl
  unfold nmNames bitList at hmem
  exact List.mem_range.1 (List.mem_filter.1 hmem).1

theorem setUser_only (s : State) (n user : Nat) : NetsOnly s (setUser s n user) := by
  unfold setUser
  split
  · exact .refl s
  · exact .onNet ..

theorem setUser_net (s : State) (n user : Nat) (hn : n < 14) : ∃ d, netOf (setUser s n user) n = { netOf s n with user := d } := by
  unfold setUser
  split
  · exact ⟨_, rfl⟩
  · exact ⟨_, onNet_same s n _ hn⟩

theorem nmNamesOk_one (p : Packet) (n : Nat) (s : State) (hone : nmNames p = [n]) (hmode : (netCfg s n).mode = 1 ∨ (netCfg s n).mode = 2) : nmNamesOk p s = true := by
  unfold nmNamesOk
  rw [hone]
  obtain h | h := hmode <;> simp [h]

/-- A request of an active network: it is requested, in Normal, and its transceiver is on where it slept (R288). -/
theorem requestNet_net (s : State) (n cause : Nat) (hn : n < 14) (hmode : (netCfg s n).mode = 1 ∨ (netCfg s n).mode = 2) :
    (netOf (requestNet s n cause) n).requested = true ∧ (netOf (requestNet s n cause) n).state = 2 ∧
      ((netOf s n).state = 1 → (netOf (requestNet s n cause) n).xcvr = 0) := by
  unfold requestNet
  dsimp only
  rw [if_neg (by omega)]
  obtain ⟨u, hu⟩ : ∃ u, (s.onNet n fun x => { x with
      requested := true, cancels := if cancelsSleep (netOf s n).state cause = true then satAdd32 x.cancels 1 else x.cancels
      wakeReason := if cause = 0 then x.wakeReason else some cause
      lastWake := if (netOf s n).state = 1 ∧ cause ≠ 0 then cause else x.lastWake }) = u := ⟨_, rfl⟩
  have hureq : (netOf u n).requested = true ∧ (netOf u n).state = (netOf s n).state := by
    rw [← hu, onNet_same s n _ hn]
    exact ⟨rfl, rfl⟩
  have hucfg : netCfg u n = netCfg s n := by
    rw [← hu]
    rfl
  rw [hu]
  obtain ⟨v, hv⟩ : ∃ v, (if cancelsSleep (netOf s n).state cause = true ∧ cause ≠ 0 ∧ cause ≠ 10 then netEvent u n 0x0905 n cause else u) = v := ⟨_, rfl⟩
  have hvnet : netOf v n = netOf u n ∧ netCfg v n = netCfg u n := by
    rw [← hv]
    split
    · exact ⟨netOf_netEvent .., (NetsOnly.netEvent ..).netCfg n⟩
    · exact ⟨rfl, rfl⟩
  rw [hv]
  obtain ⟨w, hw⟩ : ∃ w, (if (netOf s n).state = 1 then setXcvr v n 0 else v) = w := ⟨_, rfl⟩
  have hwnet : (netOf w n).requested = (netOf v n).requested ∧ (netOf w n).state = (netOf v n).state ∧ netCfg w n = netCfg v n ∧
      ((netOf s n).state = 1 → (netOf w n).xcvr = 0) := by
    rw [← hw]
    by_cases hslept : (netOf s n).state = 1
    · rw [if_pos hslept, (setXcvr_net v n 0 hn).1]
      exact ⟨rfl, rfl, (NetsOnly.setXcvr ..).netCfg n, fun _ => rfl⟩
    · rw [if_neg hslept]
      exact ⟨rfl, rfl, rfl, fun h => absurd h hslept⟩
  rw [hw]
  obtain ⟨hreq, hstate, hcfg, hxcvr⟩ := hwnet
  rw [hvnet.1, hureq.1] at hreq
  rw [hvnet.1, hureq.2] at hstate
  rw [hvnet.2, hucfg] at hcfg
  by_cases hnormal : (netOf s n).state = 2
  · rw [if_pos hnormal]
    exact ⟨hreq, hstate.trans hnormal, hxcvr⟩
  · rw [if_neg hnormal, if_neg (by rw [hcfg]; omega)]
    obtain ⟨k, r, d, hnet⟩ := enterNormal_net w n hn
    rw [hnet]
    exact ⟨hreq, rfl, hxcvr⟩

theorem setLatch_reach (s : State) (cause i : Nat) : (setLatch s cause i).clock = s.clock ∧ (setLatch s cause i).store = s.store := by
  unfold setLatch
  dsimp only
  split
  · exact ⟨rfl, rfl⟩
  · split <;> exact ⟨rfl, rfl⟩

theorem nmRequest_wakes (p : Packet) (n : Nat) (s : State) (h : KeeperRuns nmRequestOp p s) (hone : nmNames p = [n])
    (hmode : (netCfg s n).mode = 1 ∨ (netCfg s n).mode = 2) (hslept : (netOf s n).state = 1) :
    ∃ t, exec (.nmRequest p) s = .next t ∧ Completed p .ok s t ∧ (netOf t n).requested = true ∧ (netOf t n).state = 2 ∧
      (netOf t n).xcvr = 0 ∧ t.sleep.darkPending = false ∧ ∃ l ∈ t.sleep.latches, l.cause = 10 ∧ l.index = n := by
  have hn := nmNames_lt hone
  obtain ⟨u, hu⟩ : ∃ u, setUser (release s p) n (p.num 20 4) = u := ⟨_, rfl⟩
  obtain ⟨d, hunet⟩ := setUser_net (release s p) n (p.num 20 4) hn
  have huonly := setUser_only (release s p) n (p.num 20 4)
  rw [hu] at hunet huonly
  obtain ⟨v, hv⟩ : ∃ v, (setLatch u 10 n).onSleep (fun x => { x with darkPending := false }) = v := ⟨_, rfl⟩
  have hvnet : netOf v n = netOf u n := by
    rw [← hv]
    exact congrArg (fun g => vget g n) (setLatch_net u 10 n)
  have hvsame : v.clock = s.clock ∧ v.store = s.store ∧ v.sleep.darkPending = false ∧ ∃ l ∈ v.sleep.latches, l.cause = 10 ∧ l.index = n := by
    rw [← hv]
    obtain ⟨hclock, hstore⟩ := setLatch_reach u 10 n
    exact ⟨hclock.trans (clock_of_reach huonly.carries.reach), hstore.trans huonly.store, rfl, setLatch_latches u 10 n⟩
  obtain ⟨hclock, hstore, hpending, hlatch⟩ := hvsame
  have hvmode : (netCfg v n).mode = 1 ∨ (netCfg v n).mode = 2 := by
    rw [netCfg, hstore]
    exact hmode
  obtain ⟨hreq, hstate, hxcvr⟩ := requestNet_net v n 10 hn hvmode
  have honly := NetsOnly.requestNet v n 10
  obtain ⟨g, hg⟩ := honly.sleep
  have hrun : nmRequestOp.run p (release s p) = { s := requestNet v n 10, reply := (nmRequestOp.run p (release s p)).reply } := by
    refine Res.eq_of_parts ?_ rfl
    unfold nmRequestOp
    dsimp only
    rw [hone, List.foldl_cons, List.foldl_nil, hu, if_pos (by rw [hunet]; exact hslept), hv]
  obtain ⟨hexec, hdone⟩ := keeperTake_completes h rfl hrun (nmNamesOk_one p n (release s p) hone hmode) ((clock_of_reach honly.carries.reach).trans hclock)
  refine ⟨_, hexec, hdone, ?_⟩
  rw [netOf_withPending, netOf_completeNow, withPending_sleep, completeNow_sleep, hg]
  exact ⟨hreq, hstate, hxcvr (by rw [hvnet, hunet]; exact hslept), hpending, hlatch⟩

theorem nmRequest_requests (p : Packet) (n : Nat) (s : State) (h : KeeperRuns nmRequestOp p s) (hone : nmNames p = [n])
    (hmode : (netCfg s n).mode = 1 ∨ (netCfg s n).mode = 2) (hawake : 1 < (netOf s n).state) :
    ∃ t, exec (.nmRequest p) s = .next t ∧ Completed p .ok s t ∧ (netOf t n).requested = true ∧ (netOf t n).state = 2 := by
  have hn := nmNames_lt hone
  obtain ⟨u, hu⟩ : ∃ u, setUser (release s p) n (p.num 20 4) = u := ⟨_, rfl⟩
  obtain ⟨d, hunet⟩ := setUser_net (release s p) n (p.num 20 4) hn
  have huonly := setUser_only (release s p) n (p.num 20 4)
  rw [hu] at hunet huonly
  have humode : (netCfg u n).mode = 1 ∨ (netCfg u n).mode = 2 := by
    rw [huonly.netCfg]
    exact hmode
  obtain ⟨hreq, hstate, -⟩ := requestNet_net u n 0 hn humode
  have hrun : nmRequestOp.run p (release s p) = { s := requestNet u n 0, reply := (nmRequestOp.run p (release s p)).reply } := by
    refine Res.eq_of_parts ?_ rfl
    unfold nmRequestOp
    dsimp only
    rw [hone, List.foldl_cons, List.foldl_nil, hu, if_neg (by rw [hunet]; exact Nat.ne_of_gt hawake)]
  obtain ⟨hexec, hdone⟩ := keeperTake_completes h rfl hrun (nmNamesOk_one p n (release s p) hone hmode)
    ((clock_of_reach (huonly.trans (.requestNet u n 0)).carries.reach).trans rfl)
  refine ⟨_, hexec, hdone, ?_⟩
  rw [netOf_withPending, netOf_completeNow]
  exact ⟨hreq, hstate⟩

theorem releaseNet_net (s : State) (n : Nat) (hn : n < 14) (hmode : (netCfg s n).mode = 1 ∨ (netCfg s n).mode = 2) :
    (netOf (releaseNet s n) n).requested = false ∧ (netOf (releaseNet s n) n).state = if (netOf s n).state = 2 then 3 else (netOf s n).state := by
  unfold releaseNet
  dsimp only
  have hnet := onNet_same s n (fun x => { x with requested := false }) hn
  by_cases hnormal : (netOf s n).state = 2
  · rw [if_neg (by rw [hnet]; exact not_not_intro hnormal), if_neg (by change ¬ (netCfg s n).mode = 3; omega), if_pos hnormal, enterReady_net _ n hn, hnet]
    exact ⟨rfl, rfl⟩
  · rw [if_pos (by rw [hnet]; exact hnormal), if_neg hnormal, hnet]
    exact ⟨rfl, rfl⟩

theorem nmRelease_releases (p : Packet) (n : Nat) (s : State) (h : KeeperRuns nmReleaseOp p s) (hone : nmNames p = [n])
    (hmode : (netCfg s n).mode = 1 ∨ (netCfg s n).mode = 2) :
    ∃ t, exec (.nmRelease p) s = .next t ∧ Completed p .ok s t ∧ (netOf t n).requested = false ∧
      (netOf t n).state = (if (netOf s n).state = 2 then 3 else (netOf s n).state) := by
  have hn := nmNames_lt hone
  obtain ⟨u, hu⟩ : ∃ u, setUser (release s p) n (p.num 20 4) = u := ⟨_, rfl⟩
  obtain ⟨d, hunet⟩ := setUser_net (release s p) n (p.num 20 4) hn
  have huonly := setUser_only (release s p) n (p.num 20 4)
  rw [hu] at hunet huonly
  have humode : (netCfg u n).mode = 1 ∨ (netCfg u n).mode = 2 := by
    rw [huonly.netCfg]
    exact hmode
  have hnet := releaseNet_net u n hn humode
  rw [hunet] at hnet
  have hrun : nmReleaseOp.run p (release s p) = { s := releaseNet u n, reply := (nmReleaseOp.run p (release s p)).reply } := by
    refine Res.eq_of_parts ?_ rfl
    unfold nmReleaseOp
    dsimp only
    rw [hone, List.foldl_cons, List.foldl_nil, hu]
  obtain ⟨hexec, hdone⟩ := keeperTake_completes h rfl hrun (nmNamesOk_one p n (release s p) hone hmode)
    ((clock_of_reach (huonly.trans (.releaseNet u n)).carries.reach).trans rfl)
  refine ⟨_, hexec, hdone, ?_⟩
  rw [netOf_withPending, netOf_completeNow]
  exact hnet

theorem nmStatusOp_run (p : Packet) (s : State) : nmStatusOp.run p s =
    { s := if p.bit 17 0 = true then s.onNet (p.fld 16 0 4) fun x => { x with sleeps := 0, cancels := 0, wakes := 0 } else s
      reply := (nmStatusOp.run p s).reply } := rfl

theorem nmStatus_reports (p : Packet) (n : Nat) (s : State) (h : KeeperRuns nmStatusOp p s) (hname : n = p.fld 16 0 4) :
    ∃ t, exec (.nmStatus p) s = .next t ∧ Completed p .ok s t ∧ Replied p s t (nmStatusOp.run p s).reply ∧
      (p.bit 17 0 = true → (netOf t n).sleeps = 0 ∧ (netOf t n).cancels = 0 ∧ (netOf t n).wakes = 0) ∧ (p.bit 17 0 = false → t.sleep = s.sleep) := by
  subst hname
  have hn : p.fld 16 0 4 < 14 := by
    have hbad := bad_eq_false_of_checkPacket _ _ _ (checkPacket_of_keeperRuns _ _ _ h)
    simp only [nmStatusOp, decide_eq_false_iff_not] at hbad
    omega
  have hreply : (nmStatusOp.run p (release s p)).reply = (nmStatusOp.run p s).reply := rfl
  by_cases hclear : p.bit 17 0 = true
  · have hrun : nmStatusOp.run p (release s p) = { s := (release s p).onNet (p.fld 16 0 4) fun x => { x with sleeps := 0, cancels := 0, wakes := 0 }
                                                   reply := (nmStatusOp.run p s).reply } := by
      rw [nmStatusOp_run, if_pos hclear, hreply]
    obtain ⟨hexec, hdone⟩ := keeperTake_completes h rfl hrun rfl rfl
    refine ⟨_, hexec, hdone, Replied.of_same (completeNow_replied _ p .ok _) rfl rfl rfl, fun _ => ?_, fun hkeep => absurd (hclear.symm.trans hkeep) (by decide)⟩
    rw [netOf_withPending, netOf_completeNow, onNet_same _ _ _ hn]
    exact ⟨rfl, rfl, rfl⟩
  · have hrun : nmStatusOp.run p (release s p) = { s := release s p, reply := (nmStatusOp.run p s).reply } := by
      rw [nmStatusOp_run, if_neg hclear, hreply]
    obtain ⟨hexec, hdone⟩ := keeperTake_completes h rfl hrun rfl rfl
    refine ⟨_, hexec, hdone, Replied.of_same (completeNow_replied _ p .ok _) rfl rfl rfl, fun hset => absurd hset hclear, fun _ => ?_⟩
    rw [withPending_sleep, completeNow_sleep]
    rfl

/-- What XCVR.STATE replies where it reads. -/
def xcvrReply (s : State) (n : Nat) : Reply :=
  let g := vget s.store.sleep.xcvr n
  let x := netOf s n
  [(16, 1, x.xcvr + 4 * b2n (x.xcvr != 3)), (17, 1, x.swErr), (18, 1, b2n x.wakeFlag)] ++
    [(19, 1, g.swDlc + 16 * b2n g.swIde + 32 * b2n g.swDataEn), (20, 4, g.swId), (24, 4, g.swMask), (28, 8, g.swData)]

theorem xcvrStateOp_read (p : Packet) (s : State) (hread : p.bit 16 4 = true) : xcvrStateOp.run p s =
    { s := s.onNet (p.fld 16 0 4) fun x => { x with wakeFlag := false }
      reply := xcvrReply s (p.fld 16 0 4) } := by
  unfold xcvrStateOp xcvrReply
  simp only [hread, Bool.not_true, Bool.false_eq_true, and_false, if_false, if_true]

theorem xcvrState_reads (p : Packet) (n : Nat) (s : State) (h : KeeperRuns xcvrStateOp p s) (hname : n = p.fld 16 0 4) (hread : p.bit 16 4 = true) :
    ∃ t, exec (.xcvrState p) s = .next t ∧ Completed p .ok s t ∧ Replied p s t (xcvrStateOp.run p s).reply ∧ (netOf t n).wakeFlag = false ∧
      t.store.sleep = s.store.sleep := by
  subst hname
  have hn : p.fld 16 0 4 < 14 := by
    have hbad := bad_eq_false_of_checkPacket _ _ _ (checkPacket_of_keeperRuns _ _ _ h)
    simp only [xcvrStateOp, decide_eq_false_iff_not] at hbad
    omega
  have hrun : xcvrStateOp.run p (release s p) = { s := (release s p).onNet (p.fld 16 0 4) fun x => { x with wakeFlag := false }
                                                  reply := (xcvrStateOp.run p s).reply } := by
    rw [xcvrStateOp_read p _ hread, xcvrStateOp_read p s hread]
    rfl
  have hagree : xcvrStateOp.agree p (release s p) ((release s p).onNet (p.fld 16 0 4) fun x => { x with wakeFlag := false }) = true := by
    change (p.bit 16 4 || _) = true
    rw [hread]
    rfl
  obtain ⟨hexec, hdone⟩ := keeperTake_completes h rfl hrun hagree rfl
  refine ⟨_, hexec, hdone, Replied.of_same (completeNow_replied _ p .ok _) rfl rfl rfl, ?_, ?_⟩
  · rw [netOf_withPending, netOf_completeNow, onNet_same _ _ _ hn]
  · rw [withPending_store, completeNow_store]
    rfl

theorem xcvrState_sets (p : Packet) (n : Nat) (s : State) (h : KeeperRuns xcvrStateOp p s) (hname : n = p.fld 16 0 4) (hwrite : p.bit 16 4 = false)
    (hset : p.bit 16 5 = true) (hkeep : p.bit 16 6 = false) (hmode : (netCfg s n).mode = 0) :
    ∃ t, exec (.xcvrState p) s = .next t ∧ Completed p .ok s t ∧ (netOf t n).xcvr = p.fld 17 0 2 ∧ t.store.sleep = s.store.sleep := by
  subst hname
  have hn : p.fld 16 0 4 < 14 := by
    have hbad := bad_eq_false_of_checkPacket _ _ _ (checkPacket_of_keeperRuns _ _ _ h)
    simp only [xcvrStateOp, decide_eq_false_iff_not] at hbad
    omega
  obtain ⟨u, hu⟩ : ∃ u, setXcvr (release s p) (p.fld 16 0 4) (p.fld 17 0 2) = u := ⟨_, rfl⟩
  have hunet := (setXcvr_net (release s p) (p.fld 16 0 4) (p.fld 17 0 2) hn).1
  have honly := NetsOnly.setXcvr (release s p) (p.fld 16 0 4) (p.fld 17 0 2)
  rw [hu] at hunet honly
  have hrun : xcvrStateOp.run p (release s p) = { s := u.onNet (p.fld 16 0 4) fun x => { x with wakeFlag := false }
                                                  reply := (xcvrStateOp.run p (release s p)).reply } := by
    refine Res.eq_of_parts ?_ rfl
    unfold xcvrStateOp
    dsimp only
    simp only [hwrite, hset, hkeep, Bool.not_false, Bool.false_eq_true, false_and, and_true, if_false, if_true, hu]
  have hagree : xcvrStateOp.agree p (release s p) (u.onNet (p.fld 16 0 4) fun x => { x with wakeFlag := false }) = true := by
    unfold xcvrStateOp
    dsimp only
    rw [hwrite, hset, hkeep, show (netCfg (release s p) (p.fld 16 0 4)).mode = 0 from hmode]
    rfl
  obtain ⟨hexec, hdone⟩ := keeperTake_completes h rfl hrun hagree ((clock_of_reach honly.carries.reach).trans rfl)
  refine ⟨_, hexec, hdone, ?_, ?_⟩
  · rw [netOf_withPending, netOf_completeNow, onNet_same _ _ _ hn, hunet]
  · rw [withPending_store, completeNow_store]
    exact congrArg Store.sleep honly.store

/-- Settles O56: the wakes, the networks, the ways into Dark and the NM packets, each by the lemma of its event or opcode. -/
theorem sleepAndNetworksAct : Obligations.SleepAndNetworksAct := by
  refine ⟨fun cause i phases s hon hnew => ⟨wakeLatch_latches cause i phases s hon hnew, wakeLatch_ignores cause i phases s hon⟩, rtcAlarm_latches,
    landingRelease_tells, fun l s hfirst hpower hout hcommit => ⟨wakeHandling_awake l s hfirst hpower hout hcommit, wakeHandling_asleep l s hfirst hpower hout hcommit⟩,
    fun n f s hn hen hidle hclassic => ⟨selectiveWake_matches n f s hn hen hidle hclassic, selectiveWake_counts n f s hn hen hidle hclassic,
      selectiveWake_overflows n f s hn hen hidle hclassic⟩,
    fun n m s hn hready hxcvr => ⟨nmMessageRx_active n m s hn hready hxcvr, nmMessageRx_ring n m s hn hready hxcvr⟩, nmKeepalive_sends, nmTimeout_waits,
    fun n d s hmode hstate htalk hsends hroom hlive hdue => ⟨nmRingSend_sends n d s hmode hstate htalk hsends hroom hlive hdue,
      nmRingTimeout_opens n d s hmode hstate htalk hsends hroom hlive hdue, nmRingTimeout_waits n d s hmode hstate htalk hdue⟩,
    fun n d s hn hwait hwbs hdue => ⟨networkCommit_commits n d s hn hwait hwbs hdue, networkCommit_waits n s⟩, deviceCommit_commits, darkEntry_clears, buoyTimeout_ends,
    pairStop_stops, nmConfig_reads, ?_, ?_, ?_, fun p n s h hone hmode => ⟨nmRequest_wakes p n s h hone hmode, nmRequest_requests p n s h hone hmode⟩, nmRelease_releases,
    nmStatus_reports, fun p n s h hn => ⟨xcvrState_reads p n s h hn, xcvrState_sets p n s h hn⟩⟩
  · intro p st s h hdevice hwrite hst hagree
    subst hst
    exact nmConfig_setsDevice p s h hdevice hwrite hagree
  · intro p n s h hnet hwrite hn hagree
    subst hn
    exact ⟨nmConfig_keepsMode p s h hnet hwrite hagree, nmConfig_startsMode p s h hnet hwrite hagree, nmConfig_endsMode p s h hnet hwrite hagree,
      nmConfig_refuses p s h hnet hwrite hagree⟩
  · intro p n s h hnet hwrite hn hagree
    subst hn
    exact nmConfig_conflicts p s h hnet hwrite hagree

end Sys2Proof.Machine

namespace Sys2Proof.Machine

open Sys2Proof.Claims

/-! Half-bridges and motors (R149–R157): what a change of their drive does to them, and what it leaves. -/

/-- Only the half-bridges and the dip marks of the banks differ. -/
def TurnsOnly (s t : State) : Prop := ∃ hb bank, t = { s with motor := { s.motor with hb := hb }, load := { s.load with bank := bank } }

theorem TurnsOnly.refl (s : State) : TurnsOnly s s := ⟨s.motor.hb, s.load.bank, rfl⟩

theorem TurnsOnly.trans {s t u : State} (h : TurnsOnly s t) (h' : TurnsOnly t u) : TurnsOnly s u := by
  obtain ⟨hb, bank, rfl⟩ := h
  obtain ⟨hb', bank', rfl⟩ := h'
  exact ⟨hb', bank', rfl⟩

theorem TurnsOnly.onHb (s : State) (m : Nat) (f : Hb → Hb) : TurnsOnly s (s.onHb m f) := ⟨_, s.load.bank, rfl⟩

theorem TurnsOnly.noteFreeze (s : State) (b : Nat) : TurnsOnly s (noteFreeze s b) := ⟨s.motor.hb, _, rfl⟩

theorem TurnsOnly.setDrive (s : State) (m : Nat) (d : Drive) : TurnsOnly s (setDrive s m d) := by
  unfold Machine.setDrive
  dsimp only
  split
  · exact (TurnsOnly.onHb ..).trans (.onHb ..)
  · exact .onHb ..

theorem TurnsOnly.startDrive (s : State) (m : Nat) (d : Drive) (duty : Nat) : TurnsOnly s (startDrive s m d duty) := by
  unfold Machine.startDrive
  dsimp only
  split
  · exact ((TurnsOnly.setDrive s m d).trans (.onHb ..)).trans (.noteFreeze ..)
  · exact (TurnsOnly.setDrive s m d).trans (.onHb ..)

theorem TurnsOnly.enterState (s : State) (m : Nat) (v : PVal) : TurnsOnly s (enterState s m v) := by
  have hnext := TurnsOnly.onHb s m fun x => { x with next := none, queued := false }
  unfold Machine.enterState
  dsimp only
  split_ifs
  · exact hnext.trans (.setDrive ..)
  · exact hnext.trans (.setDrive ..)
  · exact (hnext.trans (.setDrive ..)).trans (.onHb ..)
  · exact hnext.trans (.startDrive ..)
  · exact hnext.trans (.setDrive ..)

theorem TurnsOnly.brakeThen (s : State) (m : Nat) (v : PVal) : TurnsOnly s (brakeThen s m v) := (TurnsOnly.setDrive ..).trans (.onHb ..)

theorem TurnsOnly.countDrive (s : State) (m : Nat) : TurnsOnly s (countDrive s m) := .onHb ..

section
variable {s t : State} (h : TurnsOnly s t)
include h

theorem TurnsOnly.plane : t.plane = s.plane := by
  obtain ⟨hb, bank, rfl⟩ := h
  rfl

theorem TurnsOnly.store : t.store = s.store := by
  obtain ⟨hb, bank, rfl⟩ := h
  rfl

theorem TurnsOnly.now : t.now = s.now := by
  obtain ⟨hb, bank, rfl⟩ := h
  rfl

theorem TurnsOnly.seq : t.seq = s.seq := by
  obtain ⟨hb, bank, rfl⟩ := h
  rfl

theorem TurnsOnly.link : t.link = s.link := by
  obtain ⟨hb, bank, rfl⟩ := h
  rfl

theorem TurnsOnly.points : t.points = s.points := by
  obtain ⟨hb, bank, rfl⟩ := h
  rfl

theorem TurnsOnly.cfg (m : Nat) : motorCfg t m = motorCfg s m := by simp only [motorCfg, h.store]

theorem TurnsOnly.carries : Carries s t := .of_plane h.plane

end

/-- The leg of a terminal and its dead time, which are all that a turn changes. -/
def Hb.legged (x : Hb) (leg : Option Bool) (off dead : Nat) : Hb := { x with leg := leg, legOff := off, dead := dead }

theorem turn_only (x : Hb) (now ticks : Nat) (old new : Option Bool) : ∃ l o e, x.turn now ticks old new = x.legged l o e := by
  unfold Hb.turn
  dsimp only
  split_ifs
  · exact ⟨x.leg, x.legOff, x.dead, rfl⟩
  · exact ⟨_, _, _, rfl⟩
  · exact ⟨_, _, x.dead, rfl⟩
  · exact ⟨x.leg, x.legOff, _, rfl⟩
  · exact ⟨x.leg, x.legOff, x.dead, rfl⟩

/-- A motor that takes a state without a drive has neither a window nor a stall condition (R152, R156). -/
def Hb.takes (x : Hb) (d : Drive) : Hb :=
  if d.drives then { x with drive := d }
  else { x with drive := d, window := none, stall := none, limiting := false, limitTicks := 0, endLimiting := false }

/-- The B terminal turns first. -/
def turnB (s : State) (m : Nat) (d : Drive) : State :=
  if (motorCfg s m).defined = true ∧ (motorCfg s m).b ≠ 15 then
    s.onHb (motorCfg s m).b fun x => x.turn s.now (deadTicks (motorCfg s m)) (hbOf s m).drive.sideB d.sideB
  else s

theorem turnB_only (s : State) (m k : Nat) (d : Drive) : (∃ l o e, hbOf (turnB s m d) k = (hbOf s k).legged l o e) ∧
    (k ≠ (motorCfg s m).b → hbOf (turnB s m d) k = hbOf s k) ∧ (turnB s m d).now = s.now := by
  unfold turnB
  split
  · refine ⟨?_, fun hk => onHb_other _ _ _ _ (Ne.symm hk), rfl⟩
    by_cases hk : (motorCfg s m).b = k
    · by_cases hb : (motorCfg s m).b < 12
      · rw [← hk, onHb_same _ _ _ hb]
        exact turn_only ..
      · rw [show (s.onHb (motorCfg s m).b _) = s from congrArg (fun v => { s with motor := { s.motor with hb := v } }) (dif_neg hb)]
        exact ⟨_, _, _, rfl⟩
    · rw [onHb_other _ _ _ _ hk]
      exact ⟨(hbOf s k).leg, (hbOf s k).legOff, (hbOf s k).dead, rfl⟩
  · exact ⟨⟨(hbOf s k).leg, (hbOf s k).legOff, (hbOf s k).dead, rfl⟩, fun _ => rfl, rfl⟩

theorem setDrive_turned (s : State) (m : Nat) (d : Drive) : setDrive s m d = (turnB s m d).onHb m fun x =>
    (x.turn (turnB s m d).now (deadTicks (motorCfg s m)) (hbOf s m).drive.sideA d.sideA).takes d := rfl

theorem setDrive_hb (s : State) (m : Nat) (d : Drive) (hm : m < 12) : ∃ l o e, hbOf (setDrive s m d) m = ((hbOf s m).legged l o e).takes d := by
  obtain ⟨⟨l, o, e, hturn⟩, -, -⟩ := turnB_only s m m d
  rw [setDrive_turned, onHb_same _ _ _ hm, hturn]
  obtain ⟨l', o', e', hturn'⟩ := turn_only ((hbOf s m).legged l o e) (turnB s m d).now (deadTicks (motorCfg s m)) (hbOf s m).drive.sideA d.sideA
  rw [hturn']
  exact ⟨l', o', e', rfl⟩

theorem setDrive_other (s : State) (m k : Nat) (d : Drive) (hk : k ≠ m) : (∃ l o e, hbOf (setDrive s m d) k = (hbOf s k).legged l o e) ∧
    (k ≠ (motorCfg s m).b → hbOf (setDrive s m d) k = hbOf s k) := by
  obtain ⟨hlegged, hsame, -⟩ := turnB_only s m k d
  rw [setDrive_turned, onHb_other _ _ _ _ (Ne.symm hk)]
  exact ⟨hlegged, hsame⟩

theorem takes_proj {γ : Type} (g : Hb → γ) (x : Hb) (d : Drive)
    (hg : ∀ y : Hb, g { y with drive := d } = g y)
    (hg' : ∀ y : Hb, g { y with drive := d, window := none, stall := none, limiting := false, limitTicks := 0, endLimiting := false } = g y) :
    g (x.takes d) = g x := by
  unfold Hb.takes
  split
  · exact hg x
  · exact hg' x

@[simp] theorem takes_drive (x : Hb) (d : Drive) : (x.takes d).drive = d := by
  unfold Hb.takes
  split <;> rfl

/-- A terminal that goes from its low-side to its high-side waits its dead time (R149). -/
theorem turn_dead (x : Hb) (now ticks : Nat) : now + ticks ≤ (x.turn now ticks (some false) (some true)).dead := by
  unfold Hb.turn
  rw [if_neg (by decide)]
  exact Nat.le_max_right _ _

theorem setDrive_dead_forward (s : State) (m : Nat) (hm : m < 12) (hbrake : (hbOf s m).drive = .brake) :
    s.now + deadTicks (motorCfg s m) ≤ (hbOf (setDrive s m .forward) m).dead := by
  obtain ⟨-, -, hnow⟩ := turnB_only s m m .forward
  rw [setDrive_turned, onHb_same _ _ _ hm, takes_proj Hb.dead _ _ (fun _ => rfl) (fun _ => rfl), hbrake, hnow]
  exact turn_dead ..

theorem setDrive_dead_reverse (s : State) (m : Nat) (hm : m < 12) (hbrake : (hbOf s m).drive = .brake) (hdef : (motorCfg s m).defined = true)
    (hb : (motorCfg s m).b < 12) : s.now + deadTicks (motorCfg s m) ≤ (hbOf (setDrive s m .reverse) (motorCfg s m).b).dead := by
  have hturned : s.now + deadTicks (motorCfg s m) ≤ (hbOf (turnB s m .reverse) (motorCfg s m).b).dead := by
    unfold turnB
    rw [if_pos ⟨hdef, by omega⟩, onHb_same _ _ _ hb, hbrake]
    exact turn_dead ..
  rw [setDrive_turned]
  by_cases hk : m = (motorCfg s m).b
  · rw [← hk, onHb_same _ _ _ hm, takes_proj Hb.dead _ _ (fun _ => rfl) (fun _ => rfl), hbrake]
    rw [← hk] at hturned
    exact hturned
  · rw [onHb_other _ _ _ _ hk]
    exact hturned

/-- A motor's drive has started (R152). -/
def Hb.started (x : Hb) (s : State) (m : Nat) (d : Drive) (duty : Nat) : Hb :=
  { x with
    duty := duty, dirRev := d == .reverse, queued := false
    window := if (motorCfg s m).defined = true then some (startWindow s 3 (motorCfg s m).inrushMs) else none, stall := none
    limiting := false, limitTicks := 0, endLimiting := false, periodAt := s.now, onUntil := s.now + driveOnTicks duty
    driveFrom := s.now, driveNo := x.driveNo + 1, lastCount := none, lastRipple := none, periods := [], currents := [], slow := 0, ripples := 0, inserts := 0 }

theorem startDrive_hb (s : State) (m k : Nat) (d : Drive) (duty : Nat) (hm : m < 12) :
    hbOf (startDrive s m d duty) k = if k = m then (hbOf (setDrive s m d) m).started s m d duty else hbOf (setDrive s m d) k := by
  have hstarts : hbOf (startDrive s m d duty) k = hbOf ((setDrive s m d).onHb m fun x => x.started s m d duty) k := by
    unfold startDrive Hb.started
    dsimp only
    split <;> rfl
  rw [hstarts]
  by_cases hk : k = m
  · rw [if_pos hk, hk, onHb_same _ _ _ hm]
  · rw [if_neg hk, onHb_other _ _ _ _ (Ne.symm hk)]

/-! How motors take states, brake and stop (R152–R157). -/

theorem motorFree_congr {s t : State} (hstore : t.store = s.store) (hcond : ∀ k, (hbOf t k).cond = (hbOf s k).cond) (m : Nat) : motorFree t m = motorFree s m := by
  simp only [motorFree, motorSides, motorCfg, hstore, hcond]
  rfl

theorem groupBusy_congr {s t : State} (hstore : t.store = s.store) (hdrive : ∀ k, (hbOf t k).drive = (hbOf s k).drive) (m : Nat) : groupBusy t m = groupBusy s m := by
  simp only [groupBusy, motorCfg, Hb.busy, hstore, hdrive]

theorem hb_onHb_proj {γ : Type} (g : Hb → γ) (s : State) (m k : Nat) (f : Hb → Hb) (hf : ∀ x, g (f x) = g x) : g (hbOf (s.onHb m f) k) = g (hbOf s k) :=
  vget_vmod_proj s.motor.hb m k f g hf

theorem motorFree_onHb (s : State) (m j : Nat) (f : Hb → Hb) (hf : ∀ x, (f x).cond = x.cond) : motorFree (s.onHb m f) j = motorFree s j :=
  motorFree_congr (s := s) (t := s.onHb m f) rfl (fun k => hb_onHb_proj Hb.cond s m k f hf) j

theorem groupBusy_onHb (s : State) (m j : Nat) (f : Hb → Hb) (hf : ∀ x, (f x).drive = x.drive) : groupBusy (s.onHb m f) j = groupBusy s j :=
  groupBusy_congr (s := s) (t := s.onHb m f) rfl (fun k => hb_onHb_proj Hb.drive s m k f hf) j

/-- What a motor keeps whatever state it takes: its command, its faults, its position, its reversal and its run. -/
def Hb.undriven (x : Hb) : Hb :=
  { x with
    drive := .coast, duty := 0, leg := none, legOff := 0, dead := 0, driveNo := 0, periodAt := 0, onUntil := 0, dirRev := false, next := none, queued := false
    window := none, limiting := false, limitTicks := 0, endLimiting := false, stall := none, driveFrom := 0, lastCount := none, lastRipple := none
    periods := [], currents := [], slow := 0, ripples := 0, inserts := 0 }

theorem turn_undriven (x : Hb) (now ticks : Nat) (old new : Option Bool) : (x.turn now ticks old new).undriven = x.undriven := by
  obtain ⟨l, o, e, hturn⟩ := turn_only x now ticks old new
  rw [hturn]
  rfl

theorem setDrive_undriven (s : State) (m k : Nat) (d : Drive) : (hbOf (setDrive s m d) k).undriven = (hbOf s k).undriven := by
  have hturn : (hbOf (turnB s m d) k).undriven = (hbOf s k).undriven := by
    unfold turnB
    split
    · exact hb_onHb_proj Hb.undriven _ _ _ _ fun x => turn_undriven ..
    · rfl
  rw [setDrive_turned, hb_onHb_proj Hb.undriven, hturn]
  exact fun x => (takes_proj Hb.undriven _ d (fun _ => rfl) (fun _ => rfl)).trans (turn_undriven ..)

theorem startDrive_undriven (s : State) (m k : Nat) (d : Drive) (duty : Nat) (hm : m < 12) : (hbOf (startDrive s m d duty) k).undriven = (hbOf s k).undriven := by
  rw [startDrive_hb s m k d duty hm]
  split
  · next hk =>
    rw [hk]
    exact setDrive_undriven s m m d
  · exact setDrive_undriven s m k d

/-- A motor's next value is gone, and it waits for no group. -/
def nextGone (s : State) (m : Nat) : State := s.onHb m fun x => { x with next := none, queued := false }

theorem nextGone_hb (s : State) (m : Nat) (hm : m < 12) : hbOf (nextGone s m) m = { hbOf s m with next := none, queued := false } := onHb_same _ _ _ hm

theorem nextGone_other (s : State) (m k : Nat) (hk : k ≠ m) : hbOf (nextGone s m) k = hbOf s k := onHb_other _ _ _ _ (Ne.symm hk)

theorem nextGone_free (s : State) (m j : Nat) : motorFree (nextGone s m) j = motorFree s j := motorFree_onHb s m j _ fun _ => rfl

theorem nextGone_group (s : State) (m j : Nat) : groupBusy (nextGone s m) j = groupBusy s j := groupBusy_onHb s m j _ fun _ => rfl

/-- A motor coasts and waits for its group. -/
def waitGroup (s : State) (m : Nat) : State := (setDrive s m .coast).onHb m fun x => { x with queued := true }

theorem enterState_eq (s : State) (m : Nat) (v : PVal) : enterState s m v =
    if driveOf (motorCfg s m) v = .coast then setDrive (nextGone s m) m .coast
    else if (!motorFree (nextGone s m) m) = true ∨ (hbOf (nextGone s m) m).inhibit = true ∨ (hbOf (nextGone s m) m).waitsDrive = true then
      setDrive (nextGone s m) m .coast
    else if (motorCfg s m).defined = true ∧ groupBusy (nextGone s m) m = true then waitGroup (nextGone s m) m
    else if (driveOf (motorCfg s m) v).drives = true then startDrive (nextGone s m) m (driveOf (motorCfg s m) v) (dutyOf v)
    else setDrive (nextGone s m) m (driveOf (motorCfg s m) v) := rfl

theorem enterState_undriven (s : State) (m k : Nat) (v : PVal) (hm : m < 12) : (hbOf (enterState s m v) k).undriven = (hbOf s k).undriven := by
  have hnext : (hbOf (nextGone s m) k).undriven = (hbOf s k).undriven :=
    hb_onHb_proj Hb.undriven s m k (fun x => { x with next := none, queued := false }) fun _ => rfl
  rw [← hnext, enterState_eq]
  split_ifs
  · exact setDrive_undriven ..
  · exact setDrive_undriven ..
  · exact (hb_onHb_proj Hb.undriven (setDrive (nextGone s m) m .coast) m k (fun x => { x with queued := true }) fun _ => rfl).trans (setDrive_undriven ..)
  · exact startDrive_undriven _ _ _ _ _ hm
  · exact setDrive_undriven ..

theorem setDrive_next (s : State) (m : Nat) (d : Drive) (hm : m < 12) :
    (hbOf (setDrive s m d) m).next = (hbOf s m).next ∧ (hbOf (setDrive s m d) m).queued = (hbOf s m).queued ∧ (hbOf (setDrive s m d) m).drive = d := by
  obtain ⟨l, o, e, hset⟩ := setDrive_hb s m d hm
  rw [hset]
  exact ⟨takes_proj Hb.next _ _ (fun _ => rfl) (fun _ => rfl), takes_proj Hb.queued _ _ (fun _ => rfl) (fun _ => rfl), takes_drive ..⟩

theorem enterState_coasts (s : State) (m : Nat) (v : PVal) (hcoast : driveOf (motorCfg s m) v = .coast) : enterState s m v = setDrive (nextGone s m) m .coast := by
  rw [enterState_eq, if_pos hcoast]

/-- A free motor takes the state of its value. -/
theorem enterState_enters (s : State) (m : Nat) (v : PVal) (hm : m < 12) (hfree : motorFree s m = true) (hon : (hbOf s m).inhibit = false)
    (hready : (hbOf s m).waitsDrive = false) (hgroup : (motorCfg s m).defined = true → groupBusy s m = false) :
    enterState s m v = if (driveOf (motorCfg s m) v).drives = true then startDrive (nextGone s m) m (driveOf (motorCfg s m) v) (dutyOf v)
      else setDrive (nextGone s m) m (driveOf (motorCfg s m) v) := by
  have hnext := nextGone_hb s m hm
  by_cases hcoast : driveOf (motorCfg s m) v = .coast
  · rw [enterState_coasts s m v hcoast, hcoast]
    rfl
  · have hinhibit : (hbOf (nextGone s m) m).inhibit = false := by
      rw [hnext]
      exact hon
    have hwaits : (hbOf (nextGone s m) m).waitsDrive = false := by
      rw [hnext]
      exact hready
    rw [enterState_eq, if_neg hcoast, nextGone_free, nextGone_group, if_neg (by rw [hfree, hinhibit, hwaits]; decide),
      if_neg (fun hand => absurd (hgroup hand.1) (by rw [hand.2]; decide))]

/-- The next value of a motor that takes a state is gone. -/
theorem enterState_next (s : State) (m : Nat) (v : PVal) (hm : m < 12) : (hbOf (enterState s m v) m).next = none := by
  have hnone : (hbOf (nextGone s m) m).next = none := by rw [nextGone_hb s m hm]
  have hset (d : Drive) : (hbOf (setDrive (nextGone s m) m d) m).next = none := (setDrive_next _ m d hm).1.trans hnone
  rw [enterState_eq]
  split_ifs
  · exact hset .coast
  · exact hset .coast
  · exact (hb_onHb_proj Hb.next (setDrive (nextGone s m) m .coast) m m (fun x => { x with queued := true }) fun _ => rfl).trans (hset .coast)
  · rw [startDrive_hb _ m m _ _ hm, if_pos rfl]
    exact hset _
  · exact hset _

theorem brakeEnd_enters (m : Nat) (v : PVal) (s : State) (hm : m < 12) (hbrake : (hbOf s m).drive = .brake) (hnext : (hbOf s m).next = some v)
    (hdue : (hbOf s m).brakeEnds ≤ s.now) (hcalm : (hbOf s m).pinch = 0) (hnone : (hbOf s m).run = none) :
    ∃ t, exec (.motorBrakeEnd m) s = .next t ∧ (hbOf t m).next = none ∧
      (driveOf (motorCfg s m) v = .coast → (hbOf t m).drive = .coast) ∧
      (motorFree s m = true → (hbOf s m).inhibit = false → (hbOf s m).waitsDrive = false →
        ((motorCfg s m).defined = true → groupBusy s m = false) →
        (hbOf t m).drive = driveOf (motorCfg s m) v ∧
        ((driveOf (motorCfg s m) v).drives = true → (hbOf t m).duty = dutyOf v ∧ (hbOf t m).onUntil = s.now + driveOnTicks (dutyOf v) ∧
          ((motorCfg s m).defined = true → (hbOf t m).window.isSome = true)) ∧
        (driveOf (motorCfg s m) v = .forward → s.now + deadTicks (motorCfg s m) ≤ (hbOf t m).dead) ∧
        (driveOf (motorCfg s m) v = .reverse → (motorCfg s m).defined = true → (motorCfg s m).b < 12 →
          s.now + deadTicks (motorCfg s m) ≤ (hbOf t (motorCfg s m).b).dead)) := by
  have hends : brakeEnd s m = enterState s m v := by
    unfold brakeEnd
    dsimp only
    rw [hbrake, hnext]
    dsimp only
    rw [if_pos ⟨hdue, hcalm⟩, hnone]
  have hstays : (hbOf (nextGone s m) m).drive = .brake := by
    rw [nextGone_hb s m hm]
    exact hbrake
  refine ⟨(enterState s m v).withPending s.pending, congrArg (effect s) hends, enterState_next s m v hm, fun hcoast => ?_, fun hfree hon hready hgroup => ?_⟩
  · rw [hbOf_withPending, enterState_coasts s m v hcoast]
    exact (setDrive_next _ m .coast hm).2.2
  · have henters := enterState_enters s m v hm hfree hon hready hgroup
    rw [hbOf_withPending, hbOf_withPending]
    by_cases hdrives : (driveOf (motorCfg s m) v).drives = true
    · rw [if_pos hdrives] at henters
      rw [henters, startDrive_hb _ m m _ _ hm, if_pos rfl]
      refine ⟨(setDrive_next _ m _ hm).2.2, fun _ => ⟨rfl, rfl, fun hdef => ?_⟩, fun hforward => ?_, fun hreverse hdef hb => ?_⟩
      · change Option.isSome (if (motorCfg s m).defined = true then _ else none) = true
        rw [if_pos hdef]
        rfl
      · rw [hforward]
        exact setDrive_dead_forward (nextGone s m) m hm hstays
      · rw [hreverse, startDrive_hb _ m _ _ _ hm]
        have hdead := setDrive_dead_reverse (nextGone s m) m hm hstays hdef hb
        split
        · next hself =>
          change _ ≤ (hbOf (setDrive (nextGone s m) m .reverse) (motorCfg s m).b).dead at hdead
          rw [hself] at hdead
          exact hdead
        · exact hdead
    · rw [if_neg hdrives] at henters
      rw [henters]
      refine ⟨(setDrive_next _ m _ hm).2.2, fun hdrives' => absurd hdrives' hdrives, fun hforward => absurd (by rw [hforward]; rfl) hdrives,
        fun hreverse => absurd (by rw [hreverse]; rfl) hdrives⟩

theorem groupStart_starts (b m : Nat) (s : State)
    (hfirst : ((List.range 12).find? fun m => (motorCfg s m).defined && (motorCfg s m).b == b && (hbOf s m).queued && !groupBusy s m) = some m)
    (hdrives : (driveOf (motorCfg s m) (hbOf s m).cmd).drives = true) (hfree : motorFree s m = true) (hon : (hbOf s m).inhibit = false)
    (hready : (hbOf s m).waitsDrive = false) :
    ∃ t, exec (.motorGroupStart b) s = .next t ∧ (hbOf t m).drive = driveOf (motorCfg s m) (hbOf s m).cmd ∧ (hbOf t m).queued = false ∧
      (∀ k, k ≠ m → (hbOf t k).drive = (hbOf s k).drive) ∧ ∀ k, k ≠ m → k ≠ b → hbOf t k = hbOf s k := by
  have hm : m < 12 := List.mem_range.1 (List.mem_of_find?_eq_some hfirst)
  have hfound := List.find?_some hfirst
  simp only [Bool.and_eq_true, beq_iff_eq, Bool.not_eq_true'] at hfound
  obtain ⟨⟨⟨hdef, hb⟩, -⟩, hgroup⟩ := hfound
  obtain ⟨u, hu⟩ : ∃ u, (s.onHb m fun x => { x with queued := false }) = u := ⟨_, rfl⟩
  have hfreeu : motorFree u m = true := by
    rw [← hu, motorFree_onHb]
    · exact hfree
    · exact fun _ => rfl
  have hgroupu : groupBusy u m = false := by
    rw [← hu, groupBusy_onHb]
    · exact hgroup
    · exact fun _ => rfl
  have huhb : hbOf u m = { hbOf s m with queued := false } := by
    rw [← hu, onHb_same _ _ _ hm]
  have huother (k : Nat) (hk : k ≠ m) : hbOf u k = hbOf s k := by
    rw [← hu, onHb_other _ _ _ _ (Ne.symm hk)]
  have hcfg : motorCfg u m = motorCfg s m := by rw [← hu]; rfl
  have henters := enterState_enters u m (hbOf s m).cmd hm hfreeu (by rw [huhb]; exact hon) (by rw [huhb]; exact hready) fun _ => hgroupu
  rw [hcfg, if_pos hdrives] at henters
  have hstarts : groupStart s b = startDrive (nextGone u m) m (driveOf (motorCfg s m) (hbOf s m).cmd) (dutyOf (hbOf s m).cmd) := by
    unfold groupStart
    rw [hfirst, ← henters, ← hu]
  refine ⟨(startDrive (nextGone u m) m (driveOf (motorCfg s m) (hbOf s m).cmd) (dutyOf (hbOf s m).cmd)).withPending s.pending, congrArg (effect s) hstarts, ?_, ?_, fun k hk => ?_,
    fun k hk hkb => ?_⟩
  · rw [hbOf_withPending, startDrive_hb _ m m _ _ hm, if_pos rfl]
    exact (setDrive_next _ m _ hm).2.2
  · rw [hbOf_withPending, startDrive_hb _ m m _ _ hm, if_pos rfl]
    rfl
  · obtain ⟨⟨l, o, e, hother⟩, -⟩ := setDrive_other (nextGone u m) m k (driveOf (motorCfg s m) (hbOf s m).cmd) hk
    rw [hbOf_withPending, startDrive_hb _ m k _ _ hm, if_neg hk, hother, nextGone_other u m k hk, huother k hk]
    rfl
  · obtain ⟨-, hother⟩ := setDrive_other (nextGone u m) m k (driveOf (motorCfg s m) (hbOf s m).cmd) hk
    have hnb : k ≠ (motorCfg (nextGone u m) m).b := by
      change k ≠ (motorCfg u m).b
      rw [hcfg, hb]
      exact hkb
    rw [hbOf_withPending, startDrive_hb _ m k _ _ hm, if_neg hk, hother hnb, nextGone_other u m k hk, huother k hk]

/-! Runs complete and stop (R155, R157). -/

/-- Writing a motor's point to 0 leaves the dies, the store, the time and how far the halls reach. -/
theorem zeroMotorPoint_carries (s : State) (m : Nat) : Carries s (zeroMotorPoint s m) := by
  unfold zeroMotorPoint
  split
  · split
    · exact .refl s
    · exact (Carries.refl s).directWrite
  · exact .refl s

theorem zeroMotorPoint_same (s : State) (m : Nat) : (zeroMotorPoint s m).store = s.store ∧ (zeroMotorPoint s m).now = s.now ∧ (zeroMotorPoint s m).seq = s.seq := by
  unfold zeroMotorPoint
  split
  · split
    · exact ⟨rfl, rfl, rfl⟩
    · exact ⟨directWrite_store .., directWrite_now .., directWrite_seq ..⟩
  · exact ⟨rfl, rfl, rfl⟩

theorem ev_of_clock {s t : State} (h : t.clock = s.clock) (hall kind address value : Nat) (point : Bool) (comp : Nat) :
    t.ev hall kind address value point comp = s.ev hall kind address value point comp := by
  simp only [State.ev, stamp_of_clock h]

theorem hbOf_completeNow (s : State) (p : Packet) (st : Status) (r : Reply) (m : Nat) : hbOf (completeNow s p st r) m = hbOf s m := hbOf_of_hb (by simp) m

theorem hbOf_motorEvent (s : State) (kind m value k : Nat) : hbOf (motorEvent s kind m value) k = hbOf s k := hbOf_of_hb (by simp) k

/-- A run that can tell its end completes: its motor has no run, the packet ends, and MOTOR_END is observed (R155). -/
theorem completeRun_completes (s : State) (m k : Nat) (r : MotorRun) (hm : m < 12) (hrun : (hbOf s m).run = some r) (hcause : k ≠ 9)
    (hknown : r.lost = false) (hup : logicDown s = false) :
    hbOf (completeRun s m k) m = { hbOf s m with run := none } ∧ (∀ j, j ≠ m → hbOf (completeRun s m k) j = hbOf s j) ∧
      Completed r.packet (lateStatus r.late (endStatus k)) s (completeRun s m k) ∧
      Observed s (completeRun s m k) 7 (300 + m) [] [s.ev 7 0x0301 (positionPoint m) k true] := by
  obtain ⟨u, hu⟩ : ∃ u, (s.onHb m fun x => { x with run := none }) = u := ⟨_, rfl⟩
  obtain ⟨v, hv⟩ : ∃ v, motorEvent u 0x0301 m k = v := ⟨_, rfl⟩
  have hends : completeRun s m k = completeNow v r.packet (lateStatus r.late (endStatus k)) (runReply (hbOf s m) r k) := by
    unfold completeRun
    dsimp only
    rw [hrun]
    dsimp only
    rw [hu, if_neg (by rw [← hu]; exact (by rw [show logicDown (s.onHb m _) = logicDown s from rfl, hup]; decide)), hv,
      if_neg (by rw [hknown]; exact fun h => h.elim hcause (by decide))]
  have hclock : v.clock = s.clock := by
    rw [← hv, ← hu]
    exact clock_of_reach ((Carries.refl _).observe).reach
  have hvhb (j : Nat) : hbOf v j = hbOf u j := by
    rw [← hv]
    exact hbOf_motorEvent ..
  rw [hends]
  refine ⟨?_, fun j hj => ?_, Completed.of_clock (completeNow_completed ..) hclock, ?_⟩
  · rw [hbOf_completeNow, hvhb, ← hu, onHb_same _ _ _ hm]
  · rw [hbOf_completeNow, hvhb, ← hu, onHb_other _ _ _ _ (Ne.symm hj)]
  · refine Observed.mono (u := v) ?_ (Carries.refl v).completeNow.items
    rw [← hv, ← hu]
    exact observe_observed (s.onHb m fun x => { x with run := none }) 7 (300 + m) [] _ []

/-- A run that stops behind its counts: the motor and its command before the brake. -/
def stoppedRun (s : State) (m cause : Nat) : State :=
  (zeroMotorPoint (countDrive s m) m).onHb m fun x => { x with cmd := 0, pinch := 0, run := x.run.map fun r => { r with ended := some cause } }

theorem countDrive_hb (s : State) (m : Nat) (hm : m < 12) : hbOf (countDrive s m) m = { hbOf s m with
    run := (hbOf s m).run.map fun r => if (hbOf s m).drive.drives = true then { r with driveTicks := r.driveTicks + (s.now - (hbOf s m).driveFrom) } else r
    driveFrom := s.now } := onHb_same _ _ _ hm

theorem hbOf_zeroMotorPoint (s : State) (m k : Nat) : hbOf (zeroMotorPoint s m) k = hbOf s k := hbOf_of_hb (by simp) k

theorem groupBusy_counted (s : State) (m : Nat) : groupBusy (zeroMotorPoint (countDrive s m) m) m = groupBusy s m := by
  refine groupBusy_congr (s := s) (t := zeroMotorPoint (countDrive s m) m) (zeroMotorPoint_same ..).1 (fun k => ?_) m
  rw [hbOf_zeroMotorPoint]
  exact hb_onHb_proj Hb.drive s m k (fun x => { x with
    run := x.run.map fun r => if x.drive.drives = true then { r with driveTicks := r.driveTicks + (s.now - x.driveFrom) } else r
    driveFrom := s.now }) fun _ => rfl

theorem stopRun_brakes (s : State) (m cause : Nat) (hgroup : groupBusy s m = false) : stopRun s m cause = brakeThen (stoppedRun s m cause) m 0 := by
  unfold stopRun
  dsimp only
  rw [groupBusy_counted, hgroup]
  rfl

theorem brakeThen_hb (s : State) (m : Nat) (v : PVal) (hm : m < 12) : ∃ l o e, hbOf (brakeThen s m v) m =
    { ((hbOf s m).legged l o e).takes .brake with next := some v, brakeEnds := s.now + (motorCfg s m).brakeMs * 8000 } := by
  obtain ⟨l, o, e, hset⟩ := setDrive_hb s m .brake hm
  refine ⟨l, o, e, ?_⟩
  unfold brakeThen
  rw [onHb_same _ _ _ hm, hset]

/-- A run stops: the motor brakes, and the run keeps its end cause (R155). -/
theorem stopRun_stops (s : State) (m cause : Nat) (r : MotorRun) (hm : m < 12) (hrun : (hbOf s m).run = some r) (hgroup : groupBusy s m = false) :
    RunStopped s (stopRun s m cause) m cause ∧ (hbOf (stopRun s m cause) m).pinch = 0 ∧ (hbOf (stopRun s m cause) m).pos = (hbOf s m).pos ∧
      (hbOf (stopRun s m cause) m).posValid = (hbOf s m).posValid ∧ Carries s (stopRun s m cause) := by
  obtain ⟨u, hu⟩ : ∃ u, stoppedRun s m cause = u := ⟨_, rfl⟩
  obtain ⟨hstore, hnow, -⟩ := zeroMotorPoint_same (countDrive s m) m
  have huhb : hbOf u m = { hbOf s m with
      cmd := 0, pinch := 0, driveFrom := s.now
      run := some { (if (hbOf s m).drive.drives = true then { r with driveTicks := r.driveTicks + (s.now - (hbOf s m).driveFrom) } else r : MotorRun) with
        ended := some cause } } := by
    rw [← hu, stoppedRun, onHb_same _ _ _ hm, hbOf_zeroMotorPoint, countDrive_hb s m hm, hrun]
    rfl
  have hcfg : motorCfg u m = motorCfg s m := by
    rw [← hu, motorCfg, motorCfg]
    exact congrArg (fun st : Store => vget st.motor.motor m) hstore
  have hunow : u.now = s.now := by
    rw [← hu]
    exact hnow
  have hcarries : Carries s u := by
    rw [← hu]
    exact ((Carries.refl s).same (u := countDrive s m) rfl).trans ((zeroMotorPoint_carries ..).trans ((Carries.refl _).same rfl))
  rw [stopRun_brakes s m cause hgroup, hu]
  obtain ⟨l, o, e, hhb⟩ := brakeThen_hb u m 0 hm
  refine ⟨⟨?_, ?_, ?_, ?_, ?_⟩, ?_, ?_, ?_, hcarries.trans (TurnsOnly.brakeThen u m 0).carries⟩
  · rw [hhb]
    exact takes_drive ..
  · rw [hhb]
  · rw [hhb]
    refine (takes_proj Hb.cmd _ _ (fun _ => rfl) (fun _ => rfl)).trans ?_
    rw [huhb]
    rfl
  · rw [hhb, hcfg, hunow]
  · rw [hhb]
    refine (congrArg (fun o : Option MotorRun => o.map (·.ended)) (takes_proj Hb.run _ _ (fun _ => rfl) (fun _ => rfl))).trans ?_
    rw [huhb]
    rfl
  · rw [hhb]
    refine (takes_proj Hb.pinch _ _ (fun _ => rfl) (fun _ => rfl)).trans ?_
    rw [huhb]
    rfl
  · rw [hhb]
    refine (takes_proj Hb.pos _ _ (fun _ => rfl) (fun _ => rfl)).trans ?_
    rw [huhb]
    rfl
  · rw [hhb]
    refine (takes_proj Hb.posValid _ _ (fun _ => rfl) (fun _ => rfl)).trans ?_
    rw [huhb]
    rfl

/-- A run whose motor waits for its group completes at once (log entry 174). -/
theorem stopRun_completes (s : State) (m cause : Nat) (r : MotorRun) (hm : m < 12) (hrun : (hbOf s m).run = some r) (hgroup : groupBusy s m = true)
    (hcause : cause ≠ 9) (hknown : r.lost = false) (hup : logicDown s = false) :
    (hbOf (stopRun s m cause) m).run = none ∧ (hbOf (stopRun s m cause) m).drive = (hbOf s m).drive ∧
      Completed r.packet (lateStatus r.late (endStatus cause)) s (stopRun s m cause) := by
  obtain ⟨u, hu⟩ : ∃ u, ((zeroMotorPoint (countDrive s m) m).onHb m fun x => { x with cmd := 0, pinch := 0, queued := false, next := none }) = u := ⟨_, rfl⟩
  obtain ⟨-, -, hseq⟩ := zeroMotorPoint_same (countDrive s m) m
  have hstops : stopRun s m cause = completeRun u m cause := by
    unfold stopRun
    dsimp only
    rw [groupBusy_counted, hgroup, ← hu]
    rfl
  have huhb : hbOf u m = { hbOf s m with
      cmd := 0, pinch := 0, driveFrom := s.now, queued := false, next := none
      run := some (if (hbOf s m).drive.drives = true then { r with driveTicks := r.driveTicks + (s.now - (hbOf s m).driveFrom) } else r) } := by
    rw [← hu, onHb_same _ _ _ hm, hbOf_zeroMotorPoint, countDrive_hb s m hm, hrun]
    rfl
  have hup' : logicDown u = false := by
    rw [← hup, ← hu]
    exact congrArg (fun q : Seq => q.inReset || q.starting) hseq
  have hcarries : Carries s u := by
    rw [← hu]
    exact ((Carries.refl s).same (u := countDrive s m) rfl).trans ((zeroMotorPoint_carries ..).trans ((Carries.refl _).same rfl))
  obtain ⟨q, hq⟩ : ∃ q, (if (hbOf s m).drive.drives = true then { r with driveTicks := r.driveTicks + (s.now - (hbOf s m).driveFrom) } else r : MotorRun) = q :=
    ⟨_, rfl⟩
  have hsame : q.packet = r.packet ∧ q.late = r.late ∧ q.lost = r.lost := by
    rw [← hq]
    split <;> exact ⟨rfl, rfl, rfl⟩
  obtain ⟨hpacket, hlate, hlost⟩ := hsame
  have hurun : (hbOf u m).run = some q := by rw [huhb, hq]
  obtain ⟨hend, -, hdone, -⟩ := completeRun_completes u m cause q hm hurun hcause (hlost.trans hknown) hup'
  rw [hpacket, hlate] at hdone
  rw [hstops, hend, huhb]
  exact ⟨rfl, rfl, Completed.of_clock hdone (clock_of_reach hcarries.reach)⟩

theorem runMaxExpiry_stops (m : Nat) (r : MotorRun) (s : State) (hm : m < 12) (hrun : (hbOf s m).run = some r) (hgoes : r.ended = none)
    (hdue : r.startAt + r.runMax * 800000 ≤ s.now) :
    ∃ t, exec (.runMaxExpiry m) s = .next t ∧ (groupBusy s m = false → RunStopped s t m 3) ∧
      (groupBusy s m = true → r.lost = false → logicDown s = false → (hbOf t m).run = none ∧ (hbOf t m).drive = (hbOf s m).drive ∧
        Completed r.packet (lateStatus r.late .timeout) s t) := by
  have hstops : runMaxExpiry s m = stopRun s m 3 := by
    unfold runMaxExpiry
    rw [hrun]
    exact if_pos ⟨by rw [hgoes]; rfl, hdue⟩
  exact ⟨(stopRun s m 3).withPending s.pending, congrArg (effect s) hstops, fun hgroup => (stopRun_stops s m 3 r hm hrun hgroup).1,
    fun hgroup hknown hup => stopRun_completes s m 3 r hm hrun hgroup (by decide) hknown hup⟩

theorem runEnd_stops (m : Nat) (r : MotorRun) (s : State) (hm : m < 12) (hrun : (hbOf s m).run = some r) (hgoes : r.ended = none)
    (hcalm : (hbOf s m).pinch = 0) (hends : runEnds s m r = true) :
    ∃ t, exec (.runEndCondition m) s = .next t ∧ (groupBusy s m = false → RunStopped s t m 0) ∧
      (groupBusy s m = true → r.lost = false → logicDown s = false → (hbOf t m).run = none ∧ (hbOf t m).drive = (hbOf s m).drive ∧
        Completed r.packet (lateStatus r.late .ok) s t) := by
  have hstops : runEnd s m = stopRun s m 0 := by
    unfold runEnd
    rw [hrun]
    exact if_pos ⟨by rw [hgoes]; rfl, hcalm, hends⟩
  exact ⟨(stopRun s m 0).withPending s.pending, congrArg (effect s) hstops, fun hgroup => (stopRun_stops s m 0 r hm hrun hgroup).1,
    fun hgroup hknown hup => stopRun_completes s m 0 r hm hrun hgroup (by decide) hknown hup⟩

theorem brakeEnd_completes (m : Nat) (v : PVal) (r : MotorRun) (k : Nat) (s : State) (hm : m < 12) (hbrake : (hbOf s m).drive = .brake)
    (hnext : (hbOf s m).next = some v) (hdue : (hbOf s m).brakeEnds ≤ s.now) (hcalm : (hbOf s m).pinch = 0) (hrun : (hbOf s m).run = some r)
    (hended : r.ended = some k) (hcause : k < 9) (hknown : r.lost = false) (hup : logicDown s = false) :
    ∃ t, exec (.motorBrakeEnd m) s = .next t ∧ (hbOf t m).run = none ∧ Completed r.packet (lateStatus r.late (endStatus k)) s t ∧
      Observed s t 7 (300 + m) [] [s.ev 7 0x0301 (positionPoint m) k true] := by
  have hturns := TurnsOnly.enterState s m v
  obtain ⟨u, hu⟩ : ∃ u, enterState s m v = u := ⟨_, rfl⟩
  have hurun : (hbOf u m).run = some r := by
    rw [← hu, ← hrun]
    exact (congrArg Hb.run (enterState_undriven s m m v hm) :)
  rw [hu] at hturns
  have hends : brakeEnd s m = completeRun u m k := by
    unfold brakeEnd
    dsimp only
    rw [hbrake, hnext]
    dsimp only
    rw [if_pos ⟨hdue, hcalm⟩, hrun]
    dsimp only
    rw [hended, hu]
  have hup' : logicDown u = false := by
    rw [← hup, logicDown, hturns.seq]
    rfl
  obtain ⟨hend, -, hdone, hobserved⟩ := completeRun_completes u m k r hm hurun (by omega) hknown hup'
  have hclock := clock_of_reach hturns.carries.reach
  rw [ev_of_clock hclock] at hobserved
  refine ⟨(completeRun u m k).withPending s.pending, congrArg (effect s) hends, ?_, Completed.of_clock hdone hclock, Observed.of_reach hobserved hturns.carries.reach⟩
  rw [hbOf_withPending, hend]

/-! Stalls and the ends of reversals (R156, R162). -/

theorem senseMotor_hb (s : State) (m : Nat) (trace : List LimitRun) (hm : m < 12) : hbOf (senseMotor s m trace) m = { hbOf s m with
    limiting := limitsLast trace (hbOf s m).limiting
    limitTicks := if (hbOf s m).window.isSome = true then 0 else limitCount trace (hbOf s m).limitTicks } := onHb_same _ _ _ hm

/-- Outside its window a driving motor is stalled exactly where its sensing says so (R156). -/
theorem stallDue_iff (s : State) (m : Nat) (trace : List LimitRun) (hm : m < 12) (hdrives : (hbOf s m).drive.drives = true) (hwindow : (hbOf s m).window = none) :
    stallDue (senseMotor s m trace) m = true ↔ StallSensed s m trace := by
  have hnow : (senseMotor s m trace).now = s.now := rfl
  unfold stallDue StallSensed
  simp only [senseMotor_hb s m trace hm, hdrives, hwindow, hnow]
  cases hstall : (hbOf s m).stall with
  | none => simp [or_comm]
  | some w => simp [or_comm, or_assoc, or_left_comm]

theorem groupBusy_senseMotor (s : State) (m j : Nat) (trace : List LimitRun) : groupBusy (senseMotor s m trace) j = groupBusy s j :=
  groupBusy_onHb s m j _ fun _ => rfl

theorem brakeOpenLoop_hb (s : State) (m : Nat) (hm : m < 12) : ∃ l o e, hbOf (brakeOpenLoop s m) m =
    { ((hbOf s m).legged l o e).takes .brake with next := some 0, brakeEnds := s.now + (motorCfg s m).brakeMs * 8000, inhibit := true } := by
  obtain ⟨l, o, e, hbrake⟩ := brakeThen_hb s m 0 hm
  refine ⟨l, o, e, ?_⟩
  unfold brakeOpenLoop
  rw [onHb_same _ _ _ hm, hbrake]

theorem brakeOpenLoop_turns (s : State) (m : Nat) : TurnsOnly s (brakeOpenLoop s m) := (TurnsOnly.brakeThen s m 0).trans (.onHb ..)

theorem motorStall_senses (m : Nat) (trace : List LimitRun) (s : State) (hdrives : (hbOf s m).drive.drives = true) (hdef : (motorCfg s m).defined = true) :
    motorStall s m trace = if stallDue (senseMotor s m trace) m = true then stallNow (senseMotor s m trace) m else senseMotor s m trace := by
  unfold motorStall
  rw [if_neg (by rw [hdrives, hdef]; decide)]

theorem motorStall_openLoop (m : Nat) (trace : List LimitRun) (s : State) (hm : m < 12) (hdrives : (hbOf s m).drive.drives = true)
    (hdef : (motorCfg s m).defined = true) (hwindow : (hbOf s m).window = none) (hcalm : (hbOf s m).pinch = 0) (hnone : (hbOf s m).run = none)
    (hstall : StallSensed s m trace) :
    ∃ t, exec (.motorStall ⟨m, trace⟩) s = .next t ∧ (hbOf t m).drive = .brake ∧ (hbOf t m).inhibit = true ∧
      (hbOf t m).brakeEnds = s.now + (motorCfg s m).brakeMs * 8000 ∧ Observed s t 7 (300 + m) [] [s.ev 7 0x0301 (positionPoint m) 2 true] := by
  obtain ⟨u, hu⟩ : ∃ u, senseMotor s m trace = u := ⟨_, rfl⟩
  have hstalls : motorStall s m trace = motorEvent (brakeOpenLoop u m) 0x0301 m 2 := by
    rw [motorStall_senses m trace s hdrives hdef, if_pos ((stallDue_iff s m trace hm hdrives hwindow).2 hstall), ← hu]
    unfold stallNow
    simp only [senseMotor_hb s m trace hm, hcalm, hnone]
    rfl
  have hsense : TurnsOnly s u := by
    rw [← hu]
    exact .onHb ..
  have hturns := hsense.trans (brakeOpenLoop_turns u m)
  obtain ⟨l, o, e, hhb⟩ := brakeOpenLoop_hb u m hm
  refine ⟨(motorEvent (brakeOpenLoop u m) 0x0301 m 2).withPending s.pending, congrArg (effect s) hstalls, ?_, ?_, ?_, ?_⟩
  · rw [hbOf_withPending, hbOf_motorEvent, hhb]
    exact takes_drive ..
  · rw [hbOf_withPending, hbOf_motorEvent, hhb]
  · rw [hbOf_withPending, hbOf_motorEvent, hhb, hsense.now, hsense.cfg]
  · have hobserved := observe_observed (brakeOpenLoop u m) 7 (300 + m) [] [(brakeOpenLoop u m).ev 7 0x0301 (positionPoint m) 2 true] []
    rw [ev_of_clock (clock_of_reach hturns.carries.reach)] at hobserved
    refine Observed.of_reach ?_ hturns.carries.reach
    unfold motorEvent
    rw [ev_of_clock (clock_of_reach hturns.carries.reach)]
    exact hobserved

theorem setPosition_hb (s : State) (m : Nat) (v : PVal) (valid : Bool) (hm : m < 12) : hbOf (setPosition s m v valid) m = { hbOf s m with pos := v, posValid := valid } ∧
    (∀ j, j ≠ m → hbOf (setPosition s m v valid) j = hbOf s j) ∧ (setPosition s m v valid).store = s.store ∧ (setPosition s m v valid).now = s.now := by
  unfold setPosition writePosition
  simp only [hbOf_observe]
  refine ⟨onHb_same _ _ _ hm, fun j hj => onHb_other _ _ _ _ (Ne.symm hj), ?_, ?_⟩
  · rw [observe_only]
    rfl
  · rw [observe_only]
    rfl

/-- The brake after a stop from a state of the same motors' time is the brake after a stop from it. -/
theorem RunStopped.of_same {s u t : State} {m cause : Nat} (h : RunStopped u t m cause) (hnow : u.now = s.now) (hstore : u.store = s.store) :
    RunStopped s t m cause := by
  unfold RunStopped at h ⊢
  rw [hnow, motorCfg, hstore] at h
  exact h

theorem motorStall_run (m : Nat) (trace : List LimitRun) (r : MotorRun) (s : State) (hm : m < 12) (hdrives : (hbOf s m).drive.drives = true)
    (hdef : (motorCfg s m).defined = true) (hwindow : (hbOf s m).window = none) (hcalm : (hbOf s m).pinch = 0) (hrun : (hbOf s m).run = some r)
    (hgroup : groupBusy s m = false) (hstall : StallSensed s m trace) :
    ∃ t, exec (.motorStall ⟨m, trace⟩) s = .next t ∧ RunStopped s t m (if r.endStop then 1 else 2) ∧
      (r.endStop = true → r.setAtStall = true → (hbOf t m).pos = r.target ∧ (hbOf t m).posValid = true) := by
  obtain ⟨u, hu⟩ : ∃ u, senseMotor s m trace = u := ⟨_, rfl⟩
  have hurun : (hbOf u m).run = some r ∧ (hbOf u m).pinch = 0 := by
    rw [← hu, senseMotor_hb s m trace hm]
    exact ⟨hrun, hcalm⟩
  obtain ⟨hurun, hucalm⟩ := hurun
  have hugroup : groupBusy u m = false := by
    rw [← hu, groupBusy_senseMotor]
    exact hgroup
  have husame : u.now = s.now ∧ u.store = s.store := by
    rw [← hu]
    exact ⟨rfl, rfl⟩
  obtain ⟨hunow, hustore⟩ := husame
  obtain ⟨v, hv⟩ : ∃ v, (if r.endStop = true ∧ r.setAtStall = true then setPosition u m r.target true else u) = v := ⟨_, rfl⟩
  have hstalls : motorStall s m trace = stopRun v m (if r.endStop then 1 else 2) := by
    rw [motorStall_senses m trace s hdrives hdef, if_pos ((stallDue_iff s m trace hm hdrives hwindow).2 hstall), hu, ← hv]
    unfold stallNow
    simp only [hucalm, hurun]
    by_cases hend : r.endStop = true
    · simp [hend]
    · simp [hend]
  obtain ⟨hpos, hother, hpstore, hpnow⟩ := setPosition_hb u m r.target true hm
  have hvsame : (hbOf v m).run = some r ∧ groupBusy v m = false ∧ v.now = s.now ∧ v.store = s.store ∧
      (r.endStop = true → r.setAtStall = true → (hbOf v m).pos = r.target ∧ (hbOf v m).posValid = true) := by
    rw [← hv]
    split
    · refine ⟨?_, ?_, hpnow.trans hunow, hpstore.trans hustore, fun _ _ => ?_⟩
      · rw [hpos]
        exact hurun
      · rw [← hugroup]
        refine groupBusy_congr hpstore (fun k => ?_) m
        by_cases hk : k = m
        · rw [hk, hpos]
        · rw [hother k hk]
      · rw [hpos]
        exact ⟨rfl, rfl⟩
    · next hno => exact ⟨hurun, hugroup, hunow, hustore, fun hend hset => absurd ⟨hend, hset⟩ hno⟩
  obtain ⟨hvrun, hvgroup, hvnow, hvstore, hvpos⟩ := hvsame
  obtain ⟨hstopped, -, hkpos, hkvalid, -⟩ := stopRun_stops v m (if r.endStop then 1 else 2) r hm hvrun hvgroup
  refine ⟨(stopRun v m (if r.endStop then 1 else 2)).withPending s.pending, congrArg (effect s) hstalls, RunStopped.of_same hstopped hvnow hvstore, fun hend hset => ?_⟩
  obtain ⟨hat, hvalid⟩ := hvpos hend hset
  exact ⟨hkpos.trans hat, hkvalid.trans hvalid⟩

theorem motorStall_goesOn (m : Nat) (trace : List LimitRun) (s : State) (hm : m < 12) (hdrives : (hbOf s m).drive.drives = true)
    (hdef : (motorCfg s m).defined = true) (hwindow : (hbOf s m).window = none) (hno : ¬ StallSensed s m trace) :
    ∃ t, exec (.motorStall ⟨m, trace⟩) s = .next t ∧ (hbOf t m).drive = (hbOf s m).drive ∧ (hbOf t m).run = (hbOf s m).run ∧
      (hbOf t m).limitTicks = limitCount trace (hbOf s m).limitTicks := by
  have hsenses : motorStall s m trace = senseMotor s m trace := by
    rw [motorStall_senses m trace s hdrives hdef]
    exact if_neg fun hdue => hno ((stallDue_iff s m trace hm hdrives hwindow).1 hdue)
  refine ⟨(senseMotor s m trace).withPending s.pending, congrArg (effect s) hsenses, ?_⟩
  rw [hbOf_withPending, senseMotor_hb s m trace hm, hwindow]
  exact ⟨rfl, rfl, rfl⟩

/-- A reversal that is over: the motor's own sensing or its count ends it (R162). -/
theorem pinchEnd_over (m : Nat) (trace : List LimitRun) (s : State) (hm : m < 12) (hpinch : (hbOf s m).pinch = 2)
    (hover : (hbOf s m).pinchLeft = 0 ∨ ((hbOf s m).drive.drives = true ∧ (hbOf s m).window = none ∧ StallSensed s m trace)) (hnone : (hbOf s m).next = none) :
    ∃ u : State, pinchEnd s m trace = (if (hbOf s m).run.isSome = true then stopRun u m 4 else brakeOpenLoop u m) ∧
      hbOf u m = { hbOf s m with pinch := 0, limiting := (hbOf u m).limiting, limitTicks := (hbOf u m).limitTicks } ∧ TurnsOnly s u ∧ groupBusy u m = groupBusy s m := by
  obtain ⟨u, hu⟩ : ∃ u, senseMotor s m trace = u := ⟨_, rfl⟩
  have huhb := senseMotor_hb s m trace hm
  rw [hu] at huhb
  have hdue : (hbOf u m).pinchLeft = 0 ∨ stallDue u m = true := by
    rw [← hu]
    refine hover.imp (fun hleft => ?_) fun hstall => ?_
    · rw [senseMotor_hb s m trace hm]
      exact hleft
    · obtain ⟨hdrives, hwindow, hsensed⟩ := hstall
      exact (stallDue_iff s m trace hm hdrives hwindow).2 hsensed
  have hends : pinchEnd s m trace = reversalOver u m := by
    unfold pinchEnd
    dsimp only
    rw [if_pos hpinch, hu, if_pos hdue]
  refine ⟨u.onHb m fun x => { x with pinch := 0 }, ?_, ?_, ?_, ?_⟩
  · rw [hends]
    unfold reversalOver
    simp only [huhb, hnone]
  · rw [onHb_same _ _ _ hm, huhb]
  · rw [← hu]
    exact (TurnsOnly.onHb s m _).trans (.onHb ..)
  · rw [groupBusy_onHb, ← hu, groupBusy_senseMotor]
    exact fun _ => rfl

theorem pinchEnd_run (m : Nat) (trace : List LimitRun) (r : MotorRun) (s : State) (hm : m < 12) (hpinch : (hbOf s m).pinch = 2)
    (hover : (hbOf s m).pinchLeft = 0 ∨ ((hbOf s m).drive.drives = true ∧ (hbOf s m).window = none ∧ StallSensed s m trace)) (hnone : (hbOf s m).next = none)
    (hrun : (hbOf s m).run = some r) (hgroup : groupBusy s m = false) :
    ∃ t, exec (.pinchReversalEnd m trace) s = .next t ∧ (hbOf t m).pinch = 0 ∧ RunStopped s t m 4 := by
  obtain ⟨u, hends, huhb, hturns, hugroup⟩ := pinchEnd_over m trace s hm hpinch hover hnone
  rw [if_pos (by rw [hrun]; rfl)] at hends
  have hurun : (hbOf u m).run = some r := by rw [huhb, hrun]
  obtain ⟨hstopped, hcalm, -, -, -⟩ := stopRun_stops u m 4 r hm hurun (hugroup.trans hgroup)
  exact ⟨(stopRun u m 4).withPending s.pending, congrArg (effect s) hends, hcalm, RunStopped.of_same hstopped hturns.now hturns.store⟩

theorem pinchEnd_openLoop (m : Nat) (trace : List LimitRun) (s : State) (hm : m < 12) (hpinch : (hbOf s m).pinch = 2)
    (hover : (hbOf s m).pinchLeft = 0 ∨ ((hbOf s m).drive.drives = true ∧ (hbOf s m).window = none ∧ StallSensed s m trace)) (hnone : (hbOf s m).next = none)
    (hrun : (hbOf s m).run = none) :
    ∃ t, exec (.pinchReversalEnd m trace) s = .next t ∧ (hbOf t m).pinch = 0 ∧ (hbOf t m).drive = .brake ∧ (hbOf t m).inhibit = true ∧
      (hbOf t m).cmd = (hbOf s m).cmd := by
  obtain ⟨u, hends, huhb, -, -⟩ := pinchEnd_over m trace s hm hpinch hover hnone
  rw [if_neg (by rw [hrun]; decide)] at hends
  obtain ⟨l, o, e, hhb⟩ := brakeOpenLoop_hb u m hm
  refine ⟨(brakeOpenLoop u m).withPending s.pending, congrArg (effect s) hends, ?_⟩
  rw [hbOf_withPending, hhb]
  refine ⟨?_, takes_drive .., rfl, ?_⟩
  · refine (takes_proj Hb.pinch _ _ (fun _ => rfl) (fun _ => rfl)).trans ?_
    exact (congrArg Hb.pinch huhb :)
  · refine (takes_proj Hb.cmd _ _ (fun _ => rfl) (fun _ => rfl)).trans ?_
    exact (congrArg Hb.cmd huhb :)

/-- Settles O40: brakes, groups, stalls and the ends of runs, each by the lemma of its event. -/
theorem motorsBrakeStartAndEnd : Obligations.MotorsBrakeStartAndEnd :=
  ⟨brakeEnd_enters, brakeEnd_completes, groupStart_starts, motorStall_openLoop, motorStall_run, motorStall_goesOn, runMaxExpiry_stops, runEnd_stops, pinchEnd_run,
    pinchEnd_openLoop⟩

end Sys2Proof.Machine

namespace Sys2Proof.Machine

open Sys2Proof.Claims

/-! Ripples, pinches and faults of half-bridges (R154, R158–R162). -/

theorem stepPosition_hb (s : State) (m : Nat) (hm : m < 12) :
    hbOf (stepPosition s m) m = { hbOf s m with pos := if (hbOf s m).dirRev = true then (hbOf s m).pos - 1 else (hbOf s m).pos + 1 } ∧
      (stepPosition s m).now = s.now ∧ (stepPosition s m).load = s.load ∧
      Observed s (stepPosition s m) 7 (300 + m) [(positionPoint m, (hbOf (stepPosition s m) m).pos)] [] := by
  obtain ⟨u, hu⟩ : ∃ u, (s.onHb m fun x => { x with pos := if x.dirRev = true then x.pos - 1 else x.pos + 1 }) = u := ⟨_, rfl⟩
  have hstep : stepPosition s m = observe u 7 (300 + m) [(positionPoint m, (hbOf u m).pos)] [] [pointCap 7 (positionPoint m) (hbOf u m).pos] := by
    rw [← hu]
    rfl
  rw [hstep, hbOf_observe]
  refine ⟨?_, ?_, ?_, ?_⟩
  · rw [← hu, onHb_same _ _ _ hm]
  · rw [observe_now, ← hu]
    rfl
  · rw [observe_load, ← hu]
    rfl
  · have hreach : u.reach = s.reach := by
      rw [← hu]
      rfl
    refine Observed.of_reach (u := u) ?_ hreach
    exact fun hfeeds => observe_observed _ _ _ _ _ _ hfeeds

theorem startStall_hb (s : State) (m : Nat) (x : Hb) : ∃ w, (if x.stall.isSome = true then startStall s m x else x) = { x with stall := w } := by
  split
  · exact ⟨_, rfl⟩
  · exact ⟨x.stall, rfl⟩

theorem rippleCount_counts (m mean peak : Nat) (s : State) (hm : m < 12) (hcounts : countsRipples s m = true)
    (hlate : ∀ n, (hbOf s m).lastRipple = some n → 4 * (hbOf s m).periods.sum ≤ (s.now - n) * 10 * (hbOf s m).periods.length) :
    ∃ t, exec (.rippleCount m mean peak) s = .next t ∧
      (hbOf t m).pos = (if (hbOf s m).dirRev then (hbOf s m).pos - 1 else (hbOf s m).pos + 1) ∧ (hbOf t m).inserts = 0 ∧
      (hbOf t m).ripples = (hbOf s m).ripples + 1 ∧ (hbOf t m).lastRipple = some s.now ∧
      (∀ n, (hbOf s m).lastRipple = some n → (bankAt s 3).dip = false → (hbOf t m).periods = (s.now - n) :: (hbOf s m).periods.take 15 ∧
        (hbOf t m).currents = mean :: (hbOf s m).currents.take 15) ∧
      (hbOf t m).run.map (·.peakMa) = (hbOf s m).run.map (fun r => max r.peakMa peak) ∧
      Observed s t 7 (300 + m) [(positionPoint m, (hbOf t m).pos)] [] := by
  obtain ⟨hhb, hnow, hload, hobserved⟩ := stepPosition_hb s m hm
  have hfresh : ¬ ((!countsRipples s m) = true ∨ (0 < (hbOf s m).periods.length ∧ ((hbOf s m).lastRipple.map (s.now - ·)).any
      (fun t => decide (t * 10 * (hbOf s m).periods.length < 4 * (hbOf s m).periods.sum)) = true)) := by
    rw [hcounts]
    rintro (hno | ⟨-, hsoon⟩)
    · exact absurd hno (by decide)
    · cases hlast : (hbOf s m).lastRipple with
      | none =>
        rw [hlast] at hsoon
        exact Bool.false_ne_true hsoon
      | some n =>
        rw [hlast] at hsoon
        have hsooner : (s.now - n) * 10 * (hbOf s m).periods.length < 4 * (hbOf s m).periods.sum := of_decide_eq_true hsoon
        exact absurd (hlate n hlast) (Nat.not_le.2 hsooner)
  obtain ⟨f, hf, hcount⟩ : ∃ f : Hb → Hb, (∀ x, ∃ w, f x = { x with
      ripples := x.ripples + 1, inserts := 0, lastCount := some s.now, lastRipple := some s.now, stall := w
      slow := (f x).slow
      periods := if ((bankAt s 3).dip || ((hbOf s m).lastRipple.map (s.now - ·)).isNone) = true then x.periods
        else (((hbOf s m).lastRipple.map (s.now - ·)).getD 0) :: x.periods.take 15
      currents := if ((bankAt s 3).dip || ((hbOf s m).lastRipple.map (s.now - ·)).isNone) = true then x.currents else mean :: x.currents.take 15
      pinchLeft := (f x).pinchLeft
      run := x.run.map fun r => { r with peakMa := max r.peakMa peak } }) ∧ rippleCount s m mean peak = (stepPosition s m).onHb m f := by
    refine ⟨_, fun x => ?_, if_neg hfresh⟩
    obtain ⟨w, hw⟩ := startStall_hb (stepPosition s m) m _
    refine ⟨w, hw.trans ?_⟩
    rw [hw, hnow, bankAt, hload]
    rfl
  obtain ⟨w, hw⟩ := hf (hbOf (stepPosition s m) m)
  have hthb : hbOf ((stepPosition s m).onHb m f) m = f (hbOf (stepPosition s m) m) := onHb_same _ _ _ hm
  refine ⟨((stepPosition s m).onHb m f).withPending s.pending, congrArg (effect s) hcount, ?_⟩
  rw [hbOf_withPending, hthb, hw]
  refine ⟨?_, rfl, ?_, rfl, fun n hlast hdip => ?_, ?_, ?_⟩
  · exact (congrArg Hb.pos hhb :)
  · exact (congrArg (fun x : Hb => x.ripples + 1) hhb :)
  · rw [hdip, hlast, hhb]
    exact ⟨rfl, rfl⟩
  · rw [hhb]
    simp [Option.map_map, Function.comp_def]
  · exact Observed.mono hobserved (keepsItems_of_landings rfl)

theorem rippleCount_ignores (m mean peak n : Nat) (s : State) (hlast : (hbOf s m).lastRipple = some n) (hsome : 0 < (hbOf s m).periods.length)
    (hsoon : (s.now - n) * 10 * (hbOf s m).periods.length < 4 * (hbOf s m).periods.sum) :
    ∃ t, exec (.rippleCount m mean peak) s = .next t ∧ hbOf t m = hbOf s m := by
  have hignores : rippleCount s m mean peak = s := by
    unfold rippleCount
    dsimp only
    refine if_pos (Or.inr ⟨hsome, ?_⟩)
    rw [hlast]
    exact decide_eq_true hsoon
  exact ⟨s.withPending s.pending, congrArg (effect s) hignores, rfl⟩

theorem rippleInsert_inserts (m n : Nat) (s : State) (hm : m < 12) (hcounts : countsRipples s m = true) (hdrives : (hbOf s m).drive.drives = true)
    (hfew : (hbOf s m).inserts < 3) (hlast : (hbOf s m).lastCount = some n) (hsome : 0 < (hbOf s m).periods.length)
    (hlate : 18 * (hbOf s m).periods.sum ≤ (s.now - n) * 10 * (hbOf s m).periods.length) :
    ∃ t, exec (.rippleInsert m) s = .next t ∧ (hbOf t m).inserts = (hbOf s m).inserts + 1 ∧
      (hbOf t m).pos = (if (hbOf s m).dirRev then (hbOf s m).pos - 1 else (hbOf s m).pos + 1) ∧
      (hbOf t m).posValid = ((hbOf s m).posValid && decide ((hbOf s m).inserts < 2)) ∧
      Observed s t 7 (300 + m) [(positionPoint m, (hbOf t m).pos)] [] := by
  obtain ⟨hhb, hnow, -, hobserved⟩ := stepPosition_hb s m hm
  have hinserts : rippleInsert s m = (stepPosition s m).onHb m fun x => { x with
      inserts := x.inserts + 1, insertedTotal := satAdd32 x.insertedTotal 1, lastCount := some (stepPosition s m).now
      posValid := x.posValid && decide (x.inserts < 2)
      run := x.run.map fun r => { r with inserted := r.inserted + 1 } } := by
    unfold rippleInsert
    dsimp only
    have hsince : sinceCount s m = some (s.now - n) := by
      unfold sinceCount
      rw [hlast]
      rfl
    rw [hsince, hnow]
    exact if_pos ⟨hcounts, hdrives, hfew, by simp [hsome, hlate]⟩
  refine ⟨(rippleInsert s m).withPending s.pending, rfl, ?_⟩
  rw [hbOf_withPending, hinserts, onHb_same _ _ _ hm, hhb]
  refine ⟨rfl, rfl, rfl, ?_⟩
  rw [hhb] at hobserved
  exact Observed.mono hobserved (keepsItems_of_landings rfl)

theorem bumpSnapshot_advances (s : State) (hhold : s.link.hold = true) : (bumpSnapshot s).link.snapshot = s.link.snapshot + 1 := by
  unfold bumpSnapshot
  rw [if_pos hhold]

theorem pinchDetect_brakes (m mA : Nat) (s : State) (hm : m < 12) (hwatch : watchesPinch s m = true) (hpinched : pinched s m mA = true) :
    ∃ t, exec (.pinchDetect m mA) s = .next t ∧ (hbOf t m).drive = .brake ∧ (hbOf t m).pinch = 1 ∧ (hbOf t m).pinchAt = s.now ∧
      (s.link.hold = true → t.link.snapshot = s.link.snapshot + 1) ∧
      Observed s t 7 (300 + m) [] [s.ev 7 0x0302 (positionPoint m) (hbOf s m).pos.toNat true] := by
  obtain ⟨v, hv⟩ : ∃ v, setDrive (countDrive s m) m .brake = v := ⟨_, rfl⟩
  obtain ⟨u, hu⟩ : ∃ u, (v.onHb m fun x => { x with
      next := none, pinch := 1, pinchAt := s.now, slow := 0, run := x.run.map fun r => { r with peakMa := max r.peakMa mA } }) = u := ⟨_, rfl⟩
  have hbrakes : pinchDetect s m mA = motorEvent (bumpSnapshot u) 0x0302 m (hbOf u m).pos.toNat := by
    rw [← hu, ← hv]
    unfold pinchDetect
    rw [if_pos ⟨hwatch, hpinched⟩]
    rfl
  have hvturns : TurnsOnly s v := by
    rw [← hv]
    exact (TurnsOnly.countDrive s m).trans (.setDrive ..)
  have hturns : TurnsOnly s u := by
    rw [← hu]
    exact hvturns.trans (.onHb ..)
  obtain ⟨l, o, e, hset⟩ := setDrive_hb (countDrive s m) m .brake hm
  rw [hv] at hset
  have huhb : (hbOf u m).drive = .brake ∧ (hbOf u m).pinch = 1 ∧ (hbOf u m).pinchAt = s.now ∧ (hbOf u m).pos = (hbOf s m).pos := by
    rw [← hu, onHb_same _ _ _ hm, hset]
    refine ⟨takes_drive .., rfl, rfl, ?_⟩
    refine (takes_proj Hb.pos _ _ (fun _ => rfl) (fun _ => rfl)).trans ?_
    exact hb_onHb_proj Hb.pos s m m (fun x => { x with
      run := x.run.map fun r => if x.drive.drives = true then { r with driveTicks := r.driveTicks + (s.now - x.driveFrom) } else r
      driveFrom := s.now }) fun _ => rfl
  obtain ⟨hdrive, hpinch, hat, hpos⟩ := huhb
  have hcarries := hturns.carries.trans (bumpSnapshot_carries u)
  refine ⟨(motorEvent (bumpSnapshot u) 0x0302 m (hbOf u m).pos.toNat).withPending s.pending, congrArg (effect s) hbrakes, ?_⟩
  rw [hbOf_withPending, hbOf_motorEvent, hbOf_bumpSnapshot]
  refine ⟨hdrive, hpinch, hat, fun hhold => ?_, ?_⟩
  · rw [withPending_link, motorEvent_link, bumpSnapshot_advances u (by rw [hturns.link]; exact hhold), hturns.link]
  · unfold motorEvent
    rw [ev_of_clock (clock_of_reach hcarries.reach), hpos]
    refine Observed.of_reach (u := bumpSnapshot u) ?_ hcarries.reach
    exact fun hfeeds => observe_observed _ _ _ _ _ _ hfeeds

theorem pinchReversal_turns (m : Nat) (s : State) (hm : m < 12) (hpinch : (hbOf s m).pinch = 1) (hdue : (hbOf s m).pinchAt + 16000 ≤ s.now) :
    ∃ t, exec (.pinchReversalStart m) s = .next t ∧ (hbOf t m).pinch = 2 ∧ (hbOf t m).duty = 4095 ∧
      (hbOf t m).drive = (if (motorCfg s m).pinchRev then .forward else .reverse) ∧ (hbOf t m).pinchLeft = (motorCfg s m).pinchBack := by
  obtain ⟨u, hu⟩ : ∃ u, startDrive s m (if (motorCfg s m).pinchRev = true then .forward else .reverse) 4095 = u := ⟨_, rfl⟩
  have huhb := startDrive_hb s m m (if (motorCfg s m).pinchRev = true then .forward else .reverse) 4095 hm
  rw [hu, if_pos rfl] at huhb
  have hstarts : pinchReversal s m = u.onHb m fun x => { x with pinch := 2, pinchLeft := (motorCfg s m).pinchBack } := by
    unfold pinchReversal
    dsimp only
    rw [if_pos ⟨hpinch, hdue⟩, hu]
  refine ⟨(u.onHb m fun x => { x with pinch := 2, pinchLeft := (motorCfg s m).pinchBack }).withPending s.pending, congrArg (effect s) hstarts, ?_⟩
  rw [hbOf_withPending, onHb_same _ _ _ hm, huhb]
  exact ⟨rfl, rfl, (setDrive_next s m _ hm).2.2, rfl⟩

theorem hb_completeRun_proj {γ : Type} (g : Hb → γ) (hg : ∀ x, g { x with run := none } = g x) (s : State) (m cause k : Nat) :
    g (hbOf (completeRun s m cause) k) = g (hbOf s k) := by
  unfold completeRun
  dsimp only
  split
  · rfl
  · rw [← hb_onHb_proj g s m k (fun x => { x with run := none }) hg]
    split_ifs
    · rfl
    · rw [hbOf_motorEvent]
    · rw [hbOf_completeNow, hbOf_motorEvent]

theorem waitsDrive_motorOff (s : State) (cause m k : Nat) (hm : m < 12) (h : k = m ∨ (hbOf s k).waitsDrive = true) :
    (hbOf (motorOff cause s m) k).waitsDrive = true := by
  unfold motorOff
  by_cases hk : k = m
  · rw [hk, onHb_same _ _ _ hm]
  · rw [onHb_other _ _ _ _ (Ne.symm hk)]
    have hcut : (hbOf (cutRun s m cause) k).waitsDrive = (hbOf s k).waitsDrive := by
      unfold cutRun
      dsimp only
      rw [hb_completeRun_proj Hb.waitsDrive fun _ => rfl]
      have hcount : (hbOf (countDrive s m) k).waitsDrive = (hbOf s k).waitsDrive := by rw [countDrive, onHb_other _ _ _ _ (Ne.symm hk)]
      split
      · exact hcount
      · rw [hbOf_zeroMotorPoint]
        exact hcount
    unfold coastNow
    rw [onHb_other _ _ _ _ (Ne.symm hk)]
    refine (congrArg Hb.waitsDrive (setDrive_undriven (cutRun s m cause) m k .coast) :).trans ?_
    exact hcut.trans (h.resolve_left hk)

theorem waitsDrive_terminalOff (s : State) (k cause : Nat) (hk : k < 12) : (hbOf (terminalOff s k cause) k).waitsDrive = true := by
  rw [terminalOff_eq]
  refine foldl_reaches (P := fun u j => (hbOf u j).waitsDrive = true) (fun u j hj i hi => waitsDrive_motorOff u cause j i ?_ hi) s k (Or.inl List.mem_cons_self)
  obtain rfl | hj := List.mem_cons.1 hj
  · exact hk
  · exact List.mem_range.1 (List.mem_of_mem_filter (List.mem_of_mem_filter hj))

theorem lockHb_locks (s : State) (k cause detail : Nat) (hk : k < 12) : (hbOf (lockHb s k cause detail) k).cond.locks.testBit cause = true ∧
    (hbOf (lockHb s k cause detail) k).drive = .coast ∧ (hbOf (lockHb s k cause detail) k).waitsDrive = true := by
  unfold lockHb
  dsimp only
  rw [hbOf_bumpSnapshot]
  obtain ⟨hcond, hcoast⟩ := terminalOff_coasts ((reportHb s k cause detail).onHb k fun x => { x with cond := x.cond.lock cause }) k 7 k hk
  refine ⟨?_, hcoast (Or.inl rfl), waitsDrive_terminalOff _ k 7 hk⟩
  rw [hcond, onHb_same _ _ _ hk]
  exact Cond.locks_lock ..

theorem hbFault_locks (k : Nat) (s : State) (hk : k < 12) :
    ∃ t, exec (.hbFault k 7 0 true) s = .next t ∧ (hbOf t k).cond.locks.testBit 7 = true ∧ (hbOf t k).drive = .coast ∧ (hbOf t k).waitsDrive = true :=
  ⟨(lockHb s k 7 0).withPending s.pending, rfl, lockHb_locks s k 7 0 hk⟩

theorem hardShort_locks (k mA : Nat) (s : State) (hk : k < 12) (hover : hbShortMa s k < mA) :
    ∃ t, exec (.hardShort ⟨⟨1, k⟩, mA⟩) s = .next t ∧ (hbOf t k).cond.locks.testBit 7 = true ∧ (hbOf t k).drive = .coast ∧ (hbOf t k).waitsDrive = true := by
  have hlocks : hardShort s ⟨1, k⟩ mA = lockHb s k 7 0 := if_pos hover
  exact ⟨(lockHb s k 7 0).withPending s.pending, congrArg (effect s) hlocks, lockHb_locks s k 7 0 hk⟩

theorem hbFault_holds (k cause d : Nat) (s : State) (hk : k < 12) (hcause : cause = 1 ∨ cause = 2 ∨ cause = 3 ∨ (cause = 6 ∧ d = 0)) :
    ∃ t, exec (.hbFault k cause d true) s = .next t ∧ (hbOf t k).cond.holds.testBit cause = true ∧ (hbOf t k).drive = .coast := by
  have hholds : hbFault s k cause d true = holdHb s k cause d := by
    unfold hbFault
    rw [if_pos rfl, if_neg (by omega)]
    by_cases hthermal : cause = 6 ∧ d = 0
    · rw [if_pos hthermal, hthermal.1, hthermal.2]
    · rw [if_neg hthermal, if_pos (by omega)]
  exact ⟨(holdHb s k cause d).withPending s.pending, congrArg (effect s) hholds, holdHb_heldOff s k cause d k hk (Or.inl rfl)⟩

theorem endHbCause_ends (s : State) (k cause : Nat) (hk : k < 12) : (hbOf (endHbCause s k cause) k).cond.active.testBit cause = false ∧
    (hbOf (endHbCause s k cause) k).drive = (hbOf s k).drive := by
  unfold endHbCause
  split
  · rw [hbOf_observe, onHb_same _ _ _ hk]
    exact ⟨Cond.active_clear .., rfl⟩
  · next hclear => exact ⟨Bool.eq_false_of_not_eq_true hclear, rfl⟩

theorem hbFault_frees (k cause d : Nat) (s : State) (hk : k < 12) (hcause : cause = 1 ∨ cause = 2 ∨ cause = 3 ∨ cause = 6)
    (hheld : (hbOf s k).cond.holds.testBit cause = true) :
    ∃ t, exec (.hbFault k cause d false) s = .next t ∧ (hbOf t k).cond.holds.testBit cause = false ∧ (hbOf t k).cond.active.testBit cause = false ∧
      (hbOf t k).drive = (hbOf s k).drive := by
  have hfrees : hbFault s k cause d false = (endHbCause s k cause).onHb k fun x => { x with cond := x.cond.endHold cause } := by
    unfold hbFault
    rw [if_neg (by decide), if_neg (by omega), if_neg (by omega)]
    exact if_pos hheld
  refine ⟨((endHbCause s k cause).onHb k fun x => { x with cond := x.cond.endHold cause }).withPending s.pending, congrArg (effect s) hfrees, ?_⟩
  rw [hbOf_withPending, onHb_same _ _ _ hk]
  exact ⟨Cond.holds_endHold .., Cond.active_clear .., (endHbCause_ends s k cause hk).2⟩

theorem periodHb_starts (m : Nat) (s : State) (hm : m < 12) (hdrives : (hbOf s m).drive.drives = true) (hgrid : (s.now - (hbOf s m).periodAt) % 400 = 0)
    (hcalm : (hbOf s m).pinch = 0) :
    ∃ t, exec (.pwmPeriodStart ⟨1, m⟩) s = .next t ∧ (hbOf t m).duty = dutyOf (hbOf s m).cmd ∧
      (hbOf t m).onUntil = s.now + driveOnTicks (dutyOf (hbOf s m).cmd) := by
  refine ⟨(periodHb s m).withPending s.pending, rfl, ?_⟩
  rw [hbOf_withPending, periodHb, onHb_same _ _ _ hm, if_pos ⟨hdrives, hgrid⟩]
  dsimp only
  rw [if_pos hcalm]
  exact ⟨rfl, rfl⟩

/-- Settles O41: ripples, pinches and the faults of half-bridges, each by the lemma of its event. -/
theorem ripplesPinchAndFaultsAct : Obligations.RipplesPinchAndFaultsAct :=
  ⟨rippleCount_counts, fun m mean peak n s _ => rippleCount_ignores m mean peak n s, rippleInsert_inserts, pinchDetect_brakes, pinchReversal_turns, hbFault_locks,
    hardShort_locks, hbFault_holds, hbFault_frees, periodHb_starts⟩

end Sys2Proof.Machine

namespace Sys2Proof.Machine

open Sys2Proof.Claims

/-! The motor packets (Tables 06.11–06.14). -/

theorem motorArg_lt {p : Packet} {s : State} (h : FastRuns motorRunOp p s) : motorArg p < 12 := by
  obtain ⟨-, -, -, -, -, -, -, -, -, hcheck⟩ := h
  have hbad := bad_eq_false_of_checkPacket _ _ _ hcheck
  simp only [motorRunOp, motorRunBad, Bool.or_eq_false_iff, decide_eq_false_iff_not] at hbad
  omega

theorem motorRun_reached (p : Packet) (m : Nat) (s : State) (h : FastRuns motorRunOp p s) (hm : m = motorArg p) (hgo : p.bit 17 3 = false)
    (hfit : motorRunConflict p s = false) (hmode : p.fld 17 0 2 = 0) (hthere : (hbOf s m).pos.toNat = p.num 20 2) :
    ∃ t, exec (.motorRun p) s = .next t ∧ Completed p .ok s t ∧ t.motor = s.motor ∧ t.points = s.points := by
  subst hm
  have hrun : motorRunOp.run p (counted s p) =
      { s := counted s p, reply := runReply (hbOf (counted s p) (motorArg p)) { startPos := (hbOf (counted s p) (motorArg p)).pos } 0 } := by
    unfold motorRunOp
    dsimp only
    rw [if_neg (by rw [hgo]; decide)]
    exact if_pos ⟨hmode, hthere⟩
  have hagree : motorRunOp.agree p (counted s p) (counted s p) = true := by
    change (_ || !motorRunConflict p s) = true
    rw [hfit, Bool.not_false, Bool.or_true]
  obtain ⟨hexec, hdone⟩ := fastTake_completes h rfl hrun hagree (counted_clock s p)
  refine ⟨_, hexec, hdone, ?_, ?_⟩
  · rw [withPending_motor, completeNow_motor]
    rfl
  · rw [withPending_points, completeNow_points]
    rfl

theorem motorRun_stops (p : Packet) (m : Nat) (r : MotorRun) (s : State) (h : FastRuns motorRunOp p s) (hm : m = motorArg p) (hstop : p.bit 17 3 = true)
    (hdef : (motorCfg s m).defined = true) (hrunning : (hbOf s m).run = some r) (hgoes : r.ended = none) (hgroup : groupBusy s m = false) :
    ∃ t, exec (.motorRun p) s = .next t ∧ Completed p .ok s t ∧ RunStopped s t m (if r.mode = 2 then 0 else 5) := by
  subst hm
  obtain ⟨u, hu⟩ : ∃ u, stopRun (counted s p) (motorArg p) (if r.mode = 2 then 0 else 5) = u := ⟨_, rfl⟩
  obtain ⟨hstopped, -, -, -, hcarries⟩ := stopRun_stops (counted s p) (motorArg p) (if r.mode = 2 then 0 else 5) r (motorArg_lt h) hrunning hgroup
  rw [hu] at hstopped hcarries
  have hrun : motorRunOp.run p (counted s p) = { s := u } := by
    unfold motorRunOp
    dsimp only
    rw [if_pos hstop, show (hbOf (counted s p) (motorArg p)).run = some r from hrunning]
    dsimp only
    rw [if_neg (by rw [hgoes]; decide), hu]
  have hagree : motorRunOp.agree p (counted s p) u = true := by
    change (p.bit 17 3 && (motorCfg s (motorArg p)).defined || _) = true
    rw [hstop, hdef]
    rfl
  obtain ⟨hexec, hdone⟩ := fastTake_completes h rfl hrun hagree ((clock_of_reach hcarries.reach).trans (counted_clock s p))
  refine ⟨_, hexec, hdone, ?_⟩
  unfold RunStopped at hstopped ⊢
  rw [hbOf_withPending, hbOf_completeNow]
  exact hstopped

/-- A cut of a motor without a run only counts its drive. -/
theorem cutRun_none (s : State) (m cause : Nat) (hm : m < 12) (hnone : (hbOf s m).run = none) (hcause : cause = 5) : cutRun s m cause = countDrive s m := by
  have hcount : (hbOf (countDrive s m) m).run = none := by
    rw [countDrive_hb s m hm, hnone]
    rfl
  unfold cutRun
  dsimp only
  rw [if_pos (Or.inl hcause)]
  unfold completeRun
  dsimp only
  rw [hcount]

/-- The run that MOTOR.RUN starts, with whether it is late and whether the point holds its value already. -/
def runOf (p : Packet) (s : State) (late seen : Bool) : MotorRun :=
  let x := hbOf s (motorArg p)
  { packet := p, late := late, lin := s.wallLin, value := runValue (runReverse p x.pos) (p.fld 18 0 12), mode := p.fld 17 0 2
    reverse := runReverse p x.pos, target := BitVec.ofNat 16 (p.num 20 2), timeMs := p.num 22 2, endStop := p.bit 17 4, setAtStall := p.bit 17 5
    pinchOff := p.bit 17 6, runMax := if p.num 24 2 = 0 then (motorCfg s (motorArg p)).runMax else p.num 24 2, startPos := x.pos, startAt := s.now
    seen := seen }

theorem startRun_starts (p : Packet) (s : State) (hm : motorArg p < 12) (hnone : (hbOf s (motorArg p)).run = none) (hroom : s.points.writesNow < 4096)
    (hfree : heldByAction s (pointAt 80 (100 + motorArg p)) = false) (hnow : s.points.now = []) (hwf : Tbl.wf 0 s.points.mem = true) :
    ∃ (u : State) (late seen : Bool), startRun p s = { s := writePending (u.onHb (motorArg p) fun x => { x with run := some (runOf p s late seen) }) p, st := none } ∧
      pget u (pointAt 80 (100 + motorArg p)) = (runOf p s late seen).value := by
  have hcut := cutRun_none s (motorArg p) 5 hm hnone rfl
  have hpos : (hbOf (countDrive s (motorArg p)) (motorArg p)).pos = (hbOf s (motorArg p)).pos := by rw [countDrive_hb s _ hm]
  obtain ⟨v, hv⟩ : ∃ v, countDrive s (motorArg p) = v := ⟨_, rfl⟩
  rw [hv] at hcut hpos
  have hsame : v.points = s.points ∧ v.wallLin = s.wallLin ∧ v.now = s.now := by
    rw [← hv]
    exact ⟨rfl, rfl, rfl⟩
  obtain ⟨hpoints, hlin, hnow'⟩ := hsame
  obtain ⟨x, hx⟩ : ∃ x, runValue (runReverse p (hbOf s (motorArg p)).pos) (p.fld 18 0 12) = x := ⟨_, rfl⟩
  have hstands := directWrite_stands v p (pointAt 80 (100 + motorArg p)) x (by rw [hpoints]; exact hroom) (by rw [heldByAction, hpoints]; exact hfree)
    (by rw [hpoints]; exact hnow)
  obtain ⟨u, hu⟩ : ∃ u, (directWrite v p (pointAt 80 (100 + motorArg p)) x).1 = u := ⟨_, rfl⟩
  have hpair : directWrite v p (pointAt 80 (100 + motorArg p)) x = (u, .applied) := Prod.ext hu (congrArg Prod.snd hstands :)
  refine ⟨u, ranLate p v, endValue v (pointAt 80 (100 + motorArg p)) == x, ?_, ?_⟩
  · unfold startRun
    dsimp only
    rw [hcut, hpos, hx, hpair, hlin, hnow']
    dsimp only
    rw [if_neg (by decide), show (ranLate p v || WriteResult.applied == WriteResult.moved) = ranLate p v from Bool.or_false _, runOf, hx]
  · rw [← hu, hstands]
    refine (pget_writeStands v _ _ _ _ (by rw [hpoints]; exact hwf)).trans ?_
    exact hx.symm

theorem motorRun_starts (p : Packet) (m : Nat) (s : State) (h : FastRuns motorRunOp p s) (hm : m = motorArg p) (hgo : p.bit 17 3 = false)
    (hfit : motorRunConflict p s = false) (haway : ¬ (p.fld 17 0 2 = 0 ∧ (hbOf s m).pos.toNat = p.num 20 2))
    (hsides : ∀ k ∈ motorSides s m, (hbOf s k).cond.locks = 0 ∧ (hbOf s k).cond.supplyHeld = false ∧ (hbOf s k).cond.holds.testBit 6 = false)
    (hcool : s.motor.refusing = false) (hgroup : groupBusy s m = false) (hnone : (hbOf s m).run = none) (hroom : s.points.writesNow < 4096)
    (hfree : heldByAction s (pointAt 80 (100 + m)) = false) (hnow : s.points.now = []) (hwf : Tbl.wf 0 s.points.mem = true) :
    ∃ t r, exec (.motorRun p) s = .next t ∧ (hbOf t m).run = some r ∧ r.packet = p ∧ r.ended = none ∧ r.startAt = s.now ∧
      r.value = runValue (runReverse p (hbOf s m).pos) (p.fld 18 0 12) ∧ pget t (pointAt 80 (100 + m)) = r.value := by
  subst hm
  have hlt := motorArg_lt h
  obtain ⟨u, late, seen, hstarts, hpoint⟩ := startRun_starts p (counted s p) hlt hnone hroom hfree hnow hwf
  obtain ⟨r, hr⟩ : ∃ r, runOf p (counted s p) late seen = r := ⟨_, rfl⟩
  rw [hr] at hstarts hpoint
  have hany (f : Nat → Bool) (hf : ∀ k ∈ motorSides s (motorArg p), f k = false) : (motorSides s (motorArg p)).any f = false :=
    List.any_eq_false.2 fun k hk => by rw [hf k hk]; decide
  have hlocks := hany (fun k => (hbOf s k).cond.locks != 0) fun k hk => by rw [(hsides k hk).1]; rfl
  have hsupply := hany (fun k => (hbOf s k).cond.supplyHeld) fun k hk => (hsides k hk).2.1
  have hheat := hany (fun k => (hbOf s k).cond.holds.testBit 6) fun k hk => (hsides k hk).2.2
  have hrun : motorRunOp.run p (counted s p) = { s := writePending (u.onHb (motorArg p) fun x => { x with run := some r }) p, st := none } := by
    rw [← hstarts]
    unfold motorRunOp
    dsimp only
    rw [if_neg (by rw [hgo]; decide)]
    refine (if_neg haway).trans ?_
    change (if (motorSides s (motorArg p)).any (fun k => (hbOf s k).cond.locks != 0) = true then _
      else if (motorSides s (motorArg p)).any (fun k => (hbOf s k).cond.supplyHeld) = true then _
      else if (motorSides s (motorArg p)).any (fun k => (hbOf s k).cond.holds.testBit 6) = true then _
      else if s.motor.refusing = true then _ else if groupBusy s (motorArg p) = true then _ else _) = _
    rw [hlocks, hsupply, hheat, hcool, hgroup]
    rfl
  have hagree (w : State) : motorRunOp.agree p (counted s p) w = true := by
    change (_ || !motorRunConflict p s) = true
    rw [hfit, Bool.not_false, Bool.or_true]
  obtain ⟨mem, hpending⟩ := writePending_only (u.onHb (motorArg p) fun x => { x with run := some r }) p
  have htake := fastTake_waits h rfl hrun (hagree _)
  rw [hpending] at htake
  refine ⟨_, r, congrArg (effect s) htake, ?_, ?_, ?_, ?_, ?_, hpoint⟩
  · exact congrArg Hb.run (onHb_same u (motorArg p) (fun x => { x with run := some r }) hlt)
  · rw [← hr]
    rfl
  · rw [← hr]
    rfl
  · rw [← hr]
    rfl
  · rw [← hr]
    rfl

/-! MOTOR.POS (Table 06.14). -/

theorem setPosition_carries (s : State) (m : Nat) (v : PVal) (valid : Bool) : Carries s (setPosition s m v valid) :=
  ((Carries.refl s).same (u := s.onHb m fun x => { x with pos := v, posValid := valid }) rfl).observe

theorem setPosition_observed (s : State) (m : Nat) (v : PVal) (valid : Bool) (hm : m < 12) :
    Observed s (setPosition s m v valid) 7 (300 + m) [(positionPoint m, v)] [] := by
  obtain ⟨u, hu⟩ : ∃ u, (s.onHb m fun x => { x with pos := v, posValid := valid }) = u := ⟨_, rfl⟩
  have hpos : (hbOf u m).pos = v := by rw [← hu, onHb_same _ _ _ hm]
  have hset : setPosition s m v valid = observe u 7 (300 + m) [(positionPoint m, v)] [] [pointCap 7 (positionPoint m) v] := by
    unfold setPosition writePosition
    rw [hu, hpos]
  rw [hset]
  refine Observed.of_reach (u := u) ?_ (by rw [← hu]; rfl)
  exact fun hfeeds => observe_observed _ _ _ _ _ _ hfeeds

theorem motorPos_sets (p : Packet) (m : Nat) (s : State) (h : KeeperRuns motorPosOp p s) (hm : m = motorArg p) (hset : p.bit 17 0 = true)
    (hdef : (motorCfg s m).defined = true) (hstill : (hbOf s m).running = false) :
    ∃ t, exec (.motorPos p) s = .next t ∧ Completed p .ok s t ∧ (hbOf t m).pos = BitVec.ofNat 16 (p.num 18 2) ∧ (hbOf t m).posValid = true ∧
      Observed s t 7 (300 + m) [(positionPoint m, BitVec.ofNat 16 (p.num 18 2))] [] := by
  subst hm
  have hlt : motorArg p < 12 := by
    have hbad := bad_eq_false_of_checkPacket _ _ _ (checkPacket_of_keeperRuns _ _ _ h)
    simp only [motorPosOp, Bool.or_eq_false_iff, decide_eq_false_iff_not] at hbad
    omega
  obtain ⟨v, hv⟩ : ∃ v, BitVec.ofNat 16 (p.num 18 2) = v := ⟨_, rfl⟩
  obtain ⟨u, hu⟩ : ∃ u, setPosition (release s p) (motorArg p) v true = u := ⟨_, rfl⟩
  obtain ⟨hhb, -, -, -⟩ := setPosition_hb (release s p) (motorArg p) v true hlt
  have hobserved := setPosition_observed (release s p) (motorArg p) v true hlt
  have hcarries := setPosition_carries (release s p) (motorArg p) v true
  rw [hu] at hhb hobserved hcarries
  have hrun : motorPosOp.run p (release s p) = { s := u, reply := (motorPosOp.run p (release s p)).reply } := by
    have hparts : (motorPosOp.run p (release s p)).s = u ∧ (motorPosOp.run p (release s p)).st = some .ok := by
      unfold motorPosOp
      dsimp only
      rw [show (hbOf (release s p) (motorArg p)).running = false from hstill, if_neg (by decide), if_pos hset, hv, hu]
      exact ⟨rfl, rfl⟩
    obtain ⟨hstate, hstatus⟩ := hparts
    exact Res.eq_of_parts hstate hstatus
  obtain ⟨hexec, hdone⟩ := keeperTake_completes h rfl hrun hdef ((clock_of_reach hcarries.reach).trans rfl)
  refine ⟨_, hexec, hdone, ?_, ?_, ?_⟩
  · rw [hbOf_withPending, hbOf_completeNow, hhb, hv]
  · rw [hbOf_withPending, hbOf_completeNow, hhb]
  · rw [hv]
    exact Observed.mono (Observed.of_reach hobserved rfl) (Carries.refl u).completeNow.items

/-! MOTOR.CONFIG (Table 06.13). -/

/-- Direct writes of a tick stand where the tick has room, no action holds their point and the tick's writes before are direct (R106, R107). -/
structure DirectTick (s : State) (room : Nat) : Prop where
  room : s.points.writesNow + room ≤ 4096
  free : ∀ k, k < 12 → heldByAction s (pointAt 80 (100 + k)) = false
  direct : ∀ e ∈ s.points.now, e.w.kind = .direct

theorem directWrite_applies (s : State) (p : Packet) (n k : Nat) (v : PVal) (h : DirectTick s (n + 1)) (hk : k < 12) :
    ∃ u, directWrite s p (pointAt 80 (100 + k)) v = (u, .applied) ∧ DirectTick u n := by
  obtain ⟨hroom, hfree, hdirect⟩ := h
  have hstands (c : Nat) (old : PVal) : DirectTick (writeStands s (entryWrite p (pointAt 80 (100 + k)) v) s.stamp old c) n := by
    refine ⟨?_, hfree, fun e he => ?_⟩
    · change s.points.writesNow + 1 + n ≤ 4096
      omega
    · obtain rfl | he := List.mem_cons.1 (he : e ∈ _ :: s.points.now.filter _)
      · rfl
      · exact hdirect e (List.mem_filter.1 he).1
  unfold directWrite writePoint
  rw [if_neg (by omega)]
  unfold applyWrite
  rw [if_neg (fun hand => absurd hand.1 (by dsimp only; rw [hfree k hk]; decide))]
  split
  · exact ⟨_, rfl, hstands 1 _⟩
  · next e hfind =>
    have hrank := hdirect e (List.mem_of_find?_eq_some hfind)
    dsimp only
    rw [hrank, if_neg (by decide), if_pos rfl]
    exact ⟨_, rfl, hstands (e.count + 1) e.old⟩

/-- One point of a half-bridge that a removal writes 0, with the outcomes of the writes before. -/
def zeroSide (p : Packet) (a : State × List WriteResult) (k : Nat) : State × List WriteResult :=
  let (s, w) := directWrite a.1 p (pointAt 80 (100 + k)) 0
  (s, w :: a.2)

theorem zeroSides_applied (p : Packet) (l : List Nat) : ∀ (s : State) (ws : List WriteResult), DirectTick s l.length → (∀ k ∈ l, k < 12) → (∀ w ∈ ws, w = .applied) →
    (∀ w ∈ (l.foldl (zeroSide p) (s, ws)).2, w = .applied) := by
  induction l with
  | nil => exact fun _ _ _ _ hws => hws
  | cons k l ih =>
    intro s ws htick hl hws
    obtain ⟨u, hwrite, hnext⟩ := directWrite_applies s p l.length k 0 htick (hl k List.mem_cons_self)
    have hstep : zeroSide p (s, ws) k = (u, .applied :: ws) := by
      unfold zeroSide
      rw [hwrite]
    rw [List.foldl_cons, hstep]
    refine ih u _ hnext (fun j hj => hl j (List.mem_cons_of_mem _ hj)) fun w hw => ?_
    obtain rfl | hw := List.mem_cons.1 hw
    · rfl
    · exact hws w hw

/-- MOTOR.CONFIG changes motors and their points, and stores definitions. -/
structure SetsMotors (s t : State) : Prop where
  carries : Carries s t
  store : t.store = s.store

theorem SetsMotors.refl (s : State) : SetsMotors s s := ⟨.refl s, rfl⟩

theorem SetsMotors.trans {s t u : State} (h : SetsMotors s t) (h' : SetsMotors t u) : SetsMotors s u := ⟨h.carries.trans h'.carries, h'.store.trans h.store⟩

theorem SetsMotors.directWrite (s : State) (p : Packet) (pt : Nat) (v : PVal) : SetsMotors s (directWrite s p pt v).1 :=
  ⟨(Carries.refl s).directWrite, directWrite_store ..⟩

theorem TurnsOnly.setsMotors {s t : State} (h : TurnsOnly s t) : SetsMotors s t := ⟨h.carries, h.store⟩

theorem SetsMotors.zeroSides (p : Packet) (l : List Nat) (a : State × List WriteResult) : SetsMotors a.1 (l.foldl (zeroSide p) a).1 :=
  List.foldlRecOn (motive := fun b => SetsMotors a.1 b.1) l (zeroSide p) (.refl a.1) fun b hb k _ => hb.trans (.directWrite ..)

theorem SetsMotors.coastNow (s : State) (m : Nat) : SetsMotors s (coastNow s m) := ((TurnsOnly.setDrive s m .coast).trans (.onHb ..)).setsMotors

/-- What a definition does behind its record in the store. -/
def motorTaken (p : Packet) (old g : MotorCfg) (m : Nat) (s : State) : State × List WriteResult :=
  if old.defined = true ∧ (!g.defined) = true then (old.aSide m ++ old.bSide).foldl (zeroSide p) (s, [])
  else if g.defined = true then
    ((((g.aSide m ++ g.bSide).filter fun k => !(old.defined && (old.aSide m ++ old.bSide).contains k)).filter fun k =>
      k == m || !(motorsOn s k).any (· != m)).foldl Machine.coastNow s, [])
  else (s, [])

/-- The definition of a motor in the store. -/
def motorStored (s : State) (m : Nat) (g : MotorCfg) : State :=
  s.onStore fun st => { st with motor := { st.motor with motor := vmod st.motor.motor m fun _ => g } }

theorem setMotor_eq (p : Packet) (s : State) (m : Nat) (g : MotorCfg) : setMotor p s m g = motorTaken p (motorCfg s m) g m (motorStored s m g) := rfl

theorem motorTaken_only (p : Packet) (old g : MotorCfg) (m : Nat) (s : State) : SetsMotors s (motorTaken p old g m s).1 := by
  unfold motorTaken
  split_ifs
  · exact .zeroSides p _ (s, [])
  · exact List.foldlRecOn (motive := SetsMotors s) _ Machine.coastNow (.refl s) fun u hu k _ => hu.trans (.coastNow ..)
  · exact .refl s

/-- One half-bridge of UNLOCK (Table 06.13). -/
def unlockHb (s : State) (k : Nat) : State :=
  if (hbOf s k).cond.locks ≠ 0 then (endHbCause s k 7).onHb k fun x => { x with cond := x.cond.unlock 7 } else s

theorem SetsMotors.endHbCause (s : State) (m cause : Nat) : SetsMotors s (endHbCause s m cause) := by
  unfold Machine.endHbCause
  split
  · refine ⟨((Carries.refl s).same (u := s.onHb m fun x => { x with cond := x.cond.clear cause }) rfl).observe, ?_⟩
    rw [observe_only]
    rfl
  · exact .refl s

theorem SetsMotors.unlockHb (s : State) (k : Nat) : SetsMotors s (unlockHb s k) := by
  unfold Machine.unlockHb
  split
  · exact (SetsMotors.endHbCause s k 7).trans (TurnsOnly.onHb ..).setsMotors
  · exact .refl s

theorem unlockHb_other (s : State) (k j : Nat) (hj : j ≠ k) : hbOf (unlockHb s k) j = hbOf s j := by
  unfold unlockHb
  split
  · rw [onHb_other _ _ _ _ (Ne.symm hj)]
    unfold endHbCause
    split
    · rw [hbOf_observe, onHb_other _ _ _ _ (Ne.symm hj)]
    · rfl
  · rfl

theorem unlockHb_unlocks (s : State) (k j : Nat) (hk : k < 12) (h : j = k ∨ (hbOf s j).cond.locks.testBit 7 = false) :
    (hbOf (unlockHb s k) j).cond.locks.testBit 7 = false := by
  by_cases hj : j = k
  · rw [hj]
    unfold unlockHb
    split
    · rw [onHb_same _ _ _ hk]
      exact testBit_setBit_same _ 7 false
    · next hnone => rw [not_not.1 hnone, Nat.zero_testBit]
  · rw [unlockHb_other s k j hj]
    exact h.resolve_left hj

/-- What MOTOR.CONFIG with one definition has done. -/
def motorConfigured (p : Packet) (s : State) : State × List WriteResult :=
  motorTaken p (motorCfg s (cfgMotor p 0)) (motorCfgOf p 0) (cfgMotor p 0) (motorStored s (cfgMotor p 0) (motorCfgOf p 0))

/-- The half-bridges that MOTOR.CONFIG unlocks. -/
def motorUnlocked (p : Packet) (s : State) : State := (bitList 12 (p.fld 18 0 12)).foldl unlockHb (motorConfigured p s).1

theorem motorConfigOp_write (p : Packet) (s : State) (hwrite : p.bit 16 0 = false) (hone : cfgCount p = 1) : motorConfigOp.run p s =
    if (motorConfigured p s).2.count .moved ≠ 0 then { s := waitMoved (motorUnlocked p s) p ((motorConfigured p s).2.count .moved) false [], st := none }
    else { s := motorUnlocked p s, st := some (if (motorConfigured p s).2.contains .discarded then .busy else .ok) } := by
  have hsets : setMotors p s ((List.range (cfgCount p)).map fun i => (cfgMotor p i, motorCfgOf p i)) = motorConfigured p s := by
    rw [hone]
    change (_, (setMotor p s (cfgMotor p 0) (motorCfgOf p 0)).2 ++ []) = _
    rw [List.append_nil]
    rfl
  unfold motorConfigOp
  dsimp only
  rw [if_neg (by rw [hwrite]; decide), hsets]
  rfl

theorem motorConfigured_only (p : Packet) (s : State) : SetsMotors (motorStored s (cfgMotor p 0) (motorCfgOf p 0)) (motorUnlocked p s) :=
  (motorTaken_only ..).trans (List.foldlRecOn (motive := SetsMotors (motorConfigured p s).1) _ unlockHb (.refl _) fun u hu k _ => hu.trans (.unlockHb ..))

/-- Whatever the writes give, the definitions agree after MOTOR.CONFIG exactly where its set does. -/
theorem motorConfig_agrees (p : Packet) (s : State) (hwrite : p.bit 16 0 = false) (hone : cfgCount p = 1) :
    motorConfigOp.agree p s (motorConfigOp.run p s).s = motorsAgree (vmod s.store.motor.motor (cfgMotor p 0) fun _ => motorCfgOf p 0) := by
  have hstore : (motorConfigOp.run p s).s.store = (motorStored s (cfgMotor p 0) (motorCfgOf p 0)).store := by
    rw [motorConfigOp_write p s hwrite hone]
    split
    · exact (motorConfigured_only p s).store
    · exact (motorConfigured_only p s).store
  change motorsAgree (motorConfigOp.run p s).s.store.motor.motor = _
  rw [hstore]
  rfl

theorem motorConfig_conflicts (p : Packet) (s : State) (h : KeeperRuns motorConfigOp p s) (hwrite : p.bit 16 0 = false) (hone : cfgCount p = 1)
    (hbad : motorsAgree (vmod s.store.motor.motor (cfgMotor p 0) fun _ => motorCfgOf p 0) = false) :
    ∃ t, exec (.motorConfig p) s = .next t ∧ Completed p .conflict s t ∧ t.store.motor = s.store.motor ∧ t.motor = s.motor := by
  have hafter := (motorConfig_agrees p (release s p) hwrite hone).trans hbad
  refine ⟨(completeNow (release s p) p .conflict []).withPending s.pending, congrArg (effect s) (keeperTake_conflicts h hafter),
    Completed.of_clock (completeNow_completed ..) rfl, ?_, ?_⟩
  · rw [withPending_store, completeNow_store]
    rfl
  · rw [withPending_motor, completeNow_motor]
    rfl

/-- The half-bridges of a motor of an agreeing set are among the twelve, and at most four (R150). -/
theorem sides_of_agree {v : Vector MotorCfg 12} {m : Nat} (h : motorsAgree v = true) (hm : m < 12) (hdef : (vget v m).defined = true) :
    (∀ k ∈ (vget v m).aSide m ++ (vget v m).bSide, k < 12) ∧ ((vget v m).aSide m ++ (vget v m).bSide).length ≤ 4 := by
  have hself := List.all_eq_true.1 h m (List.mem_range.2 hm)
  simp only [hdef, Bool.not_true, Bool.false_or, Bool.and_eq_true, motorSelfOk, List.all_eq_true, decide_eq_true_eq] at hself
  obtain ⟨⟨⟨⟨ha, hb⟩, -⟩, -⟩, -⟩ := hself
  refine ⟨fun k hk => ?_, ?_⟩
  · obtain hk | hk := List.mem_append.1 hk
    · exact (ha k hk).2
    · exact hb k hk
  · rw [List.length_append]
    unfold MotorCfg.aSide MotorCfg.bSide
    split_ifs <;> simp

/-- The writes of a removal all stand. -/
theorem motorConfigured_applied (p : Packet) (s : State) (hm : cfgMotor p 0 < 12) (hagree : motorsAgree s.store.motor.motor = true)
    (hroom : (motorCfg s (cfgMotor p 0)).defined = true → (motorCfgOf p 0).defined = false → s.points.writesNow + 4 ≤ 4096 ∧ s.points.now = [] ∧
      ∀ k, k < 12 → heldByAction s (pointAt 80 (100 + k)) = false) : ∀ w ∈ (motorConfigured p s).2, w = .applied := by
  unfold motorConfigured motorTaken
  split_ifs with hremoved hdef
  · obtain ⟨hwas, hgone⟩ := hremoved
    obtain ⟨hleft, hnow, hfree⟩ := hroom hwas (Bool.eq_false_of_not_eq_true' hgone)
    obtain ⟨hsides, hfew⟩ := sides_of_agree hagree hm hwas
    have hfew' : ((motorCfg s (cfgMotor p 0)).aSide (cfgMotor p 0) ++ (motorCfg s (cfgMotor p 0)).bSide).length ≤ 4 := hfew
    refine zeroSides_applied p _ _ [] ⟨?_, hfree, fun e he => ?_⟩ hsides (fun w hw => absurd hw List.not_mem_nil)
    · change s.points.writesNow + _ ≤ 4096
      omega
    · have he' : e ∈ s.points.now := he
      rw [hnow] at he'
      exact absurd he' List.not_mem_nil
  · exact fun w hw => absurd hw List.not_mem_nil
  · exact fun w hw => absurd hw List.not_mem_nil

theorem motorConfig_defines (p : Packet) (m : Nat) (s : State) (h : KeeperRuns motorConfigOp p s) (hwrite : p.bit 16 0 = false) (hone : cfgCount p = 1)
    (hm : m = cfgMotor p 0) (hstill : (hbOf s m).running = false) (hagree : motorsAgree (vmod s.store.motor.motor m fun _ => motorCfgOf p 0) = true)
    (hroom : (motorCfg s m).defined = true → (motorCfgOf p 0).defined = false → s.points.writesNow + 4 ≤ 4096 ∧ s.points.now = [] ∧
      ∀ k, k < 12 → heldByAction s (pointAt 80 (100 + k)) = false) (hbefore : motorsAgree s.store.motor.motor = true) :
    ∃ t, exec (.motorConfig p) s = .next t ∧ Completed p .ok s t ∧ motorCfg t m = motorCfgOf p 0 ∧ (∀ k, k ≠ m → motorCfg t k = motorCfg s k) ∧
      ∀ k, k < 12 → (p.fld 18 0 12).testBit k = true → (hbOf t k).cond.locks.testBit 7 = false := by
  subst hm
  have hlt : cfgMotor p 0 < 12 := by
    have hbad := bad_eq_false_of_checkPacket _ _ _ (checkPacket_of_keeperRuns _ _ _ h)
    simp only [motorConfigOp, hone, Bool.or_eq_false_iff, List.range_one, List.any_cons, List.any_nil, decide_eq_false_iff_not] at hbad
    omega
  have hrefuse : motorConfigOp.refuse p (release s p) = none := by
    refine if_neg ?_
    rintro ⟨-, hbusy⟩
    rw [hone] at hbusy
    have hrunning : (hbOf (release s p) (cfgMotor p 0)).running = true := by simpa using hbusy
    exact absurd (hstill.symm.trans hrunning) (by decide)
  obtain ⟨u, hu⟩ : ∃ u, motorUnlocked p (release s p) = u := ⟨_, rfl⟩
  have happlied := motorConfigured_applied p (release s p) hlt hbefore hroom
  have hmoved : (motorConfigured p (release s p)).2.count .moved = 0 :=
    List.count_eq_zero.2 fun hin => absurd (happlied _ hin) (by decide)
  have hdiscarded : (motorConfigured p (release s p)).2.contains .discarded = false := by
    rw [List.contains_eq_mem, decide_eq_false_iff_not]
    exact fun hin => absurd (happlied _ hin) (by decide)
  have hrun : motorConfigOp.run p (release s p) = { s := u } := by
    rw [motorConfigOp_write p _ hwrite hone, hmoved, hdiscarded, hu]
    rfl
  have hafter := (motorConfig_agrees p (release s p) hwrite hone).trans hagree
  rw [hrun] at hafter
  have honly := motorConfigured_only p (release s p)
  rw [hu] at honly
  obtain ⟨hexec, hdone⟩ := keeperTake_completes h hrefuse hrun hafter ((clock_of_reach honly.carries.reach).trans rfl)
  have hstore : ((completeNow u p .ok []).withPending s.pending).store = (motorStored (release s p) (cfgMotor p 0) (motorCfgOf p 0)).store :=
    (completeNow_store ..).trans honly.store
  refine ⟨_, hexec, hdone, ?_, fun k hk => ?_, fun k hk hnamed => ?_⟩
  · rw [motorCfg, hstore]
    exact vget_vmod_same s.store.motor.motor _ _ hlt
  · rw [motorCfg, hstore]
    exact vget_vmod_ne s.store.motor.motor _ _ _ (Ne.symm hk)
  · rw [hbOf_withPending, hbOf_completeNow, ← hu]
    refine foldl_reaches (P := fun w j => (hbOf w j).cond.locks.testBit 7 = false) (fun w j hj i hi => unlockHb_unlocks w j i ?_ hi) _ k (Or.inl ?_)
    · exact List.mem_range.1 (List.mem_filter.1 hj).1
    · exact List.mem_filter.2 ⟨List.mem_range.2 hk, hnamed⟩

/-- Settles O42: MOTOR.RUN, MOTOR.CONFIG and MOTOR.POS, each by the lemma of its case. -/
theorem motorPacketsAct : Obligations.MotorPacketsAct :=
  ⟨motorRun_starts, motorRun_reached, motorRun_stops, motorConfig_defines, motorConfig_conflicts, motorPos_sets⟩

end Sys2Proof.Machine

namespace Sys2Proof.Machine

open Sys2Proof.Claims

/-! What the releases of the landings leave of the landings (R21–R24). -/

/-- How far the landings are released, what the sense landing and the capture landing hold, and the epoch. -/
structure Fronts where
  released : Nat → Nat
  sense : List LandItem
  caps : List LandItem
  epoch : Nat

/-- The landings' fronts of a state. -/
def State.fronts (s : State) : Fronts where
  released := fun l => (vget s.plane.landings l).released
  sense := (vget s.plane.landings 0).items
  caps := (vget s.plane.landings 9).items
  epoch := s.plane.epoch

@[simp] theorem onAccess_fronts (s : State) (f : Access → Access) : (s.onAccess f).fronts = s.fronts := rfl

@[simp] theorem onCapture_fronts (s : State) (f : Capture → Capture) : (s.onCapture f).fronts = s.fronts := rfl

@[simp] theorem onStore_fronts (s : State) (f : Store → Store) : (s.onStore f).fronts = s.fronts := rfl

@[simp] theorem onLog_fronts (s : State) (f : Logbook → Logbook) : (s.onLog f).fronts = s.fronts := rfl

@[simp] theorem onPoints_fronts (s : State) (f : Points → Points) : (s.onPoints f).fronts = s.fronts := rfl

@[simp] theorem onRing_fronts (s : State) (r : Nat) (f : Ring → Ring) : (s.onRing r f).fronts = s.fronts := rfl

@[simp] theorem onTrial_fronts (s : State) (f : Trial → Trial) : (s.onTrial f).fronts = s.fronts := rfl

@[simp] theorem onShadow_fronts (s : State) (r : Nat) (f : Ring → Ring) : (s.onShadow r f).fronts = s.fronts := rfl

/-- An item for another landing than those two changes no front. -/
theorem landPut_fronts (s : State) (l : Nat) (it : LandItem) (hsense : l ≠ 0) (hcaps : l ≠ 9) : (landPut s l it).fronts = s.fronts := by
  have hs := landPut_other s l 0 it hsense
  have hc := landPut_other s l 9 it hcaps
  simp only [State.fronts, Fronts.mk.injEq]
  exact ⟨funext fun k => vget_vmod_proj s.plane.landings l k _ Landing.released fun _ => rfl, hs, hc, rfl⟩

@[simp] theorem memWriteN_fronts (bs : List Byte) (s : State) (a : Nat) : (memWriteN s a bs).fronts = s.fronts := by
  rw [memWriteN_only]
  rfl

@[simp] theorem postEvent_fronts (s : State) (e : Ev) : (postEvent s e).fronts = s.fronts := by
  unfold postEvent
  split
  · rfl
  · exact landPut_fronts _ 6 _ (by decide) (by decide)

@[simp] theorem setOverrun_fronts (s : State) : (s.setOverrun).fronts = s.fronts := rfl

@[simp] theorem accessEvent_fronts (s : State) (kind address value comp : Nat) : (accessEvent s kind address value comp).fronts = s.fronts := by
  unfold accessEvent
  split <;> simp

@[simp] theorem takeIn_fronts (s : State) (p : Packet) : (takeIn s p).fronts = s.fronts := rfl

@[simp] theorem interruptFlight_fronts (p : Packet) (s : State) : (interruptFlight p s).fronts = s.fronts := by
  unfold interruptFlight
  split <;> rfl

@[simp] theorem admitPacket_fronts (p : Packet) (s : State) : (admitPacket p s).fronts = s.fronts := by
  unfold admitPacket
  dsimp only
  rw [interruptFlight_fronts]
  split
  · rfl
  · exact takeIn_fronts ..

@[simp] theorem appendRecord_fronts (s : State) (it : LogItem) (emergency : Bool) : (appendRecord s it emergency).fronts = s.fronts := rfl

@[simp] theorem pput_fronts (s : State) (pt : Nat) (v : PVal) : (pput s pt v).fronts = s.fronts := rfl

@[simp] theorem detachPoint_fronts (s : State) (pt : Nat) : (detachPoint s pt).fronts = s.fronts := rfl

@[simp] theorem noteLatency_fronts (s : State) (w : PWrite) : (noteLatency s w).fronts = s.fronts := by
  unfold noteLatency
  (repeat' split)
  all_goals rfl

@[simp] theorem noteWriter_fronts (s : State) (pt : Nat) (v : PVal) (k : Writer) (comp : Nat) (t : Stamp) :
    (noteWriter s pt v k comp t).fronts = s.fronts := rfl

@[simp] theorem writeStands_fronts (s : State) (w : PWrite) (t : Stamp) (old : PVal) (count : Nat) : (writeStands s w t old count).fronts = s.fronts := by
  unfold writeStands
  split <;> simp

@[simp] theorem deviceApply_fronts (s : State) (t : Stamp) (w : PWrite) : (deviceApply s t w).fronts = s.fronts := by
  unfold deviceApply
  split <;> simp

@[simp] theorem bump_fronts (s : State) (cls index n : Nat) (hall : Option Nat) : (bump s cls index n hall).fronts = s.fronts := rfl

@[simp] theorem countMoved_fronts (s : State) (w : PWrite) : (countMoved s w).fronts = s.fronts := by
  unfold countMoved
  dsimp only
  split_ifs <;> rfl

@[simp] theorem moveWrite_fronts (s : State) (w : PWrite) : (moveWrite s w).fronts = s.fronts := by simp [moveWrite]

@[simp] theorem deviceWrite_fronts (s : State) (t : Stamp) (w : PWrite) : (deviceWrite s t w).fronts = s.fronts := by
  unfold deviceWrite
  split <;> simp

@[simp] theorem countDiscarded_fronts (s : State) (n : Nat) : (countDiscarded s n).fronts = s.fronts := rfl

@[simp] theorem applyWrite_fronts (s : State) (w : PWrite) : (applyWrite s w).1.fronts = s.fronts := by
  unfold applyWrite
  (repeat' split)
  all_goals simp

@[simp] theorem lateWriterStep_fronts (s : State) (w : PWrite) (r : WriteResult) : (lateWriterStep s w r).fronts = s.fronts := rfl

@[simp] theorem applyDeferred_fronts (s : State) (w : PWrite) : (applyDeferred s w).fronts = s.fronts := by
  unfold applyDeferred
  dsimp only
  split_ifs
  · exact deviceWrite_fronts ..
  · rfl
  · exact (applyWrite_fronts ..).trans rfl
  · exact (lateWriterStep_fronts ..).trans (applyWrite_fronts ..)
  · exact applyWrite_fronts ..

@[simp] theorem ringWrite_fronts (s : State) (r : Nat) (bytes : List Byte) : (ringWrite s r bytes).fronts = s.fronts := by
  unfold ringWrite
  exact foldl_keeps State.fronts _ (fun _ _ => by simp) _ _

@[simp] theorem streamTo63_fronts (s : State) (l : List Byte) : (streamTo63 s l).fronts = s.fronts := by
  unfold streamTo63
  exact foldl_keeps State.fronts _ (fun _ _ => by simp) _ _

@[simp] theorem capCommit_fronts (s : State) (r : CapRecord) : (capCommit s r).1.fronts = s.fronts := by
  unfold capCommit
  dsimp only
  split_ifs
  · rfl
  · exact streamTo63_fronts ..
  · rfl
  · rfl
  · rfl

@[simp] theorem flush63_fronts (s : State) : (flush63 s).fronts = s.fronts := by
  unfold flush63
  dsimp only
  split <;> simp

@[simp] theorem capGap_fronts (s : State) : (capGap s).1.fronts = s.fronts := by
  unfold capGap
  split
  · rfl
  · dsimp only
    split
    · exact capCommit_fronts ..
    · rfl

@[simp] theorem capTake_fronts (s : State) (r : CapRecord) : (capTake s r).1.fronts = s.fronts := by
  obtain ⟨x, hx⟩ : ∃ x, (if (capGap s).2 = true then capCommit (capGap s).1 r else ((capGap s).1, false)) = x := ⟨_, rfl⟩
  have hpair : x.1.fronts = s.fronts := by
    rw [← hx]
    split
    · exact (capCommit_fronts ..).trans (capGap_fronts s)
    · exact capGap_fronts s
  unfold capTake
  dsimp only
  rw [hx]
  split
  · exact hpair
  · exact (setOverrun_fronts _).trans hpair

@[simp] theorem capEnd_fronts (s : State) (r : CapRecord) : (capEnd s r).fronts = s.fronts :=
  (flush63_fronts (capTake s r).1).trans (capTake_fronts s r)

@[simp] theorem capPut_fronts (s : State) (r : CapRecord) : (capPut s r).fronts = s.fronts := by
  unfold capPut
  dsimp only
  split_ifs <;> simp

@[simp] theorem updateLevel_fronts (s : State) : (updateLevel s).fronts = s.fronts := by
  unfold updateLevel
  dsimp only
  split
  · exact onLog_fronts ..
  · exact (postEvent_fronts ..).trans (onLog_fronts ..)

@[simp] theorem sealSegment_fronts (s : State) (reason : Nat) : (sealSegment s reason).fronts = s.fronts := by
  unfold sealSegment
  dsimp only
  split
  · rfl
  · split
    · exact updateLevel_fronts _
    · rfl

@[simp] theorem closeSegment_fronts (s : State) (reason : Nat) : (closeSegment s reason).fronts = s.fronts := by
  unfold closeSegment
  split <;> simp

@[simp] theorem writePoint_fronts (s : State) (w : PWrite) : (writePoint s w).1.fronts = s.fronts := by
  unfold writePoint
  split <;> simp

@[simp] theorem keeperWrite_fronts (s : State) (pt : Nat) (v : PVal) : (keeperWrite s pt v).1.fronts = s.fronts := by simp [keeperWrite]

@[simp] theorem keeperPoint_fronts (s : State) (pt v : Nat) : (keeperPoint s pt v).fronts = s.fronts := by
  unfold keeperPoint
  split <;> simp

@[simp] theorem makeRoom_fronts (s : State) : (makeRoom s).fronts = s.fronts := by
  unfold makeRoom
  (repeat' split)
  all_goals simp

@[simp] theorem dropRecord_fronts (s : State) (it : LogItem) : (dropRecord s it).fronts = s.fronts :=
  (updateLevel_fronts _).trans (onLog_fronts ..)

@[simp] theorem storeRecord_fronts (s : State) (it : LogItem) : (storeRecord s it).1.fronts = s.fronts := by
  unfold storeRecord
  dsimp only
  (repeat' split)
  all_goals simp

@[simp] theorem logRecord_fronts (s : State) (it : LogItem) : (logRecord s it).1.fronts = s.fronts := by
  unfold logRecord
  dsimp only
  split_ifs <;> simp

@[simp] theorem logDevice_fronts (s : State) (type : Nat) (critical : Bool) (payload : List Byte) :
    (logDevice s type critical payload).fronts = s.fronts := by simp [logDevice]

@[simp] theorem closeSession_fronts (s : State) (cause comp : Nat) : (closeSession s cause comp).fronts = s.fronts := by
  unfold closeSession
  dsimp only
  (repeat' split)
  all_goals simp

@[simp] theorem commitFresh_fronts (s : State) (k : Nat) : (commitFresh s k).fronts = s.fronts := rfl

@[simp] theorem retirePacket_fronts (s : State) (p : Packet) : (retirePacket s p).fronts = s.fronts := rfl

@[simp] theorem giveReply_fronts (s : State) (b : TrialItem) (w : List (Nat × List Byte)) : (giveReply s b w).fronts = s.fronts := by
  unfold giveReply
  refine foldl_keeps State.fronts _ (fun u x => ?_) _ _
  split <;> simp

@[simp] theorem mirrorReply_fronts (s : State) (r slot : Nat) (w : List (Nat × List Byte)) : (mirrorReply s r slot w).fronts = s.fronts := by
  unfold mirrorReply
  dsimp only
  (repeat' split)
  all_goals simp

@[simp] theorem writeReply_fronts (s : State) (p : Packet) (st : Status) (reply : Reply) (done : Stamp) : (writeReply s p st reply done).fronts = s.fronts := by
  unfold writeReply
  dsimp only
  (repeat' split)
  all_goals simp

@[simp] theorem dropReplayed_fronts (s : State) (p : Packet) : (dropReplayed s p).fronts = s.fronts := rfl

@[simp] theorem completeAt_fronts (s : State) (p : Packet) (st : Status) (r : Reply) (done : Stamp) : (completeAt s p st r done).fronts = s.fronts := by
  have hsettled : (if replyHidden p s = true then dropReplayed s p else retirePacket (writeReply s p st r done) p).fronts = s.fronts := by
    split
    · exact dropReplayed_fronts ..
    · exact (retirePacket_fronts ..).trans (writeReply_fronts ..)
  unfold completeAt
  dsimp only
  split
  · exact (postEvent_fronts ..).trans hsettled
  · exact hsettled

@[simp] theorem completeNow_fronts (s : State) (p : Packet) (st : Status) (reply : Reply) :
    (completeNow s p st reply).fronts = s.fronts := by simp [completeNow]

@[simp] theorem deferredStep_fronts (s : State) : (deferredStep s).fronts = s.fronts := by
  unfold deferredStep
  exact foldl_keeps State.fronts _ (fun _ _ => by simp) _ _

@[simp] theorem enterReflex_fronts (s : State) (c : Change) : (enterReflex s c).fronts = s.fronts := by
  unfold enterReflex
  split <;> rfl

@[simp] theorem fastHold_fronts (p : Packet) (s : State) : (fastHold p s).fronts = s.fronts := by
  unfold fastHold
  split_ifs
  · rfl
  · rfl
  · exact completeNow_fronts ..

@[simp] theorem finishStop_fronts (s : State) : (finishStop s).fronts = s.fronts := by
  unfold finishStop
  split <;> simp

@[simp] theorem joinFlight_fronts (p : Packet) (s : State) : (joinFlight p s).fronts = s.fronts := rfl

@[simp] theorem refuseLive_fronts (s : State) (p : Packet) : (refuseLive s p).fronts = s.fronts := by simp [refuseLive]

@[simp] theorem keeperHold_fronts (p : Packet) (s : State) : (keeperHold p s).fronts = s.fronts := by
  unfold keeperHold
  split <;> rfl

@[simp] theorem holdPacket_fronts (p : Packet) (s : State) : (holdPacket p s).fronts = s.fronts := by
  simp only [holdPacket, apply_ite State.fronts]
  simp

@[simp] theorem noteSignals_fronts (s : State) (it : LandItem) : (noteSignals s it).fronts = s.fronts := rfl

@[simp] theorem landWrites_fronts (s : State) (it : LandItem) : (landWrites s it).fronts = s.fronts := by
  unfold landWrites
  dsimp only
  refine (foldl_keeps State.fronts _ (fun u w => deviceWrite_fronts ..) _ _).trans ?_
  split
  · refine (noteSignals_fronts ..).trans ?_
    split <;> rfl
  · split <;> rfl

@[simp] theorem reportChange_fronts (s : State) (pt : Nat) (v : PVal) (t : Stamp) (hall idx comp : Nat) : (reportChange s pt v t hall idx comp).fronts = s.fronts := by
  unfold reportChange
  dsimp only
  split_ifs <;> simp

@[simp] theorem noteChange_fronts (s : State) (pt : Nat) (old new : PVal) (t : Stamp) (hall idx comp : Nat) :
    (noteChange s pt old new t hall idx comp).fronts = s.fronts := by simp [noteChange]

@[simp] theorem postEvents_fronts (s : State) (es : List Ev) : (postEvents s es).fronts = s.fronts := by
  unfold postEvents
  exact foldl_keeps State.fronts _ (fun _ _ => by simp) _ _

@[simp] theorem settleWrite_fronts (s : State) (e : TickWrite) : (settleWrite s e).fronts = s.fronts := by
  unfold settleWrite
  split <;> simp

@[simp] theorem tellChanges_fronts (c : TickWrite → Bool) (s : State) : (tellChanges c s).fronts = s.fronts := by
  unfold tellChanges
  exact foldl_keeps State.fronts _ (fun _ _ => by simp) _ _

@[simp] theorem tellInputs_fronts (s : State) : (tellInputs s).fronts = s.fronts := by simp [tellInputs]

@[simp] theorem releaseItems_fronts (s : State) (l : List LandItem) : (releaseItems s l).fronts = s.fronts := by
  unfold releaseItems
  dsimp only
  refine (foldl_keeps State.fronts _ (fun u it => postEvents_fronts ..) _ _).trans ((tellInputs_fronts _).trans ?_)
  exact foldl_keeps State.fronts _ (fun u it => landWrites_fronts ..) _ _

@[simp] theorem releaseGroup_fronts (s : State) (g : List LandItem) : (releaseGroup s g).fronts = s.fronts := by
  unfold releaseGroup
  dsimp only
  split <;> simp

@[simp] theorem releaseList_fronts (s : State) (l : List LandItem) : (releaseList s l).fronts = s.fronts := by
  unfold releaseList
  exact foldl_keeps State.fronts _ (fun _ _ => by simp) _ _

end Sys2Proof.Machine

namespace Sys2Proof.Machine

open Sys2Proof.Claims

/-! Records and events of the rings add nothing to the landings (R95, R97). -/

@[simp] theorem ringWrite_plane_landings (s : State) (r : Nat) (bytes : List Byte) : (ringWrite s r bytes).plane.landings = s.plane.landings := by
  unfold ringWrite
  dsimp only
  exact foldl_keeps (fun u : State => u.plane.landings) _ (fun u i => congrArg Plane.landings (memWriteN_plane ..)) _ _

@[simp] theorem shadowFault_plane_landings (s : State) : (shadowFault s).plane.landings = s.plane.landings := by
  unfold shadowFault
  split <;> rfl

@[simp] theorem shadowRecord_plane_landings (s : State) (r : Nat) (skip : Nat → List Byte) (rec : List Byte) :
    (shadowRecord s r skip rec).plane.landings = s.plane.landings := by
  unfold shadowRecord
  dsimp only
  split_ifs
  · rfl
  · exact shadowFault_plane_landings s
  · exact foldl_keeps (fun u : State => u.plane.landings) _ (fun u i => congrArg Plane.landings (memWriteN_plane ..)) _ _
  · exact shadowFault_plane_landings s
  · exact foldl_keeps (fun u : State => u.plane.landings) _ (fun u i => congrArg Plane.landings (memWriteN_plane ..)) _ _

@[simp] theorem deviceRecord_plane_landings (s : State) (r : Nat) (gap skip : Nat → List Byte) (body : List Byte) :
    (deviceRecord s r gap skip body).plane.landings = s.plane.landings := by
  unfold deviceRecord
  dsimp only
  split
  · next gp sk hlead =>
    rw [shadowRecord_plane_landings]
    refine (ringWrite_plane_landings ..).trans ?_
    have hgap : (if gp.isEmpty = true then s else shadowRecord (ringWrite s r gp) r skip gp).plane.landings = s.plane.landings := by
      split
      · rfl
      · exact (shadowRecord_plane_landings ..).trans (ringWrite_plane_landings ..)
    split
    · exact hgap
    · exact (ringWrite_plane_landings ..).trans hgap
  · split <;> rfl

@[simp] theorem noteDelivered_plane_landings (s : State) (r : Nat) (e : Ev) : (noteDelivered s r e).plane.landings = s.plane.landings := by
  unfold noteDelivered
  split <;> rfl

@[simp] theorem deliverTo_plane_landings (e : Ev) (s : State) (r : Nat) : (deliverTo e s r).plane.landings = s.plane.landings := by
  unfold deliverTo
  dsimp only
  (repeat' split)
  all_goals simp

@[simp] theorem deliverEvent_plane_landings (s : State) (e : Ev) : (deliverEvent s e).plane.landings = s.plane.landings := by
  unfold deliverEvent
  exact foldl_keeps (fun u : State => u.plane.landings) _ (fun _ _ => by simp) _ _

@[simp] theorem packetRecord_plane_landings (s : State) (t : Stamp) (e : Nat × List Byte) :
    (packetRecord s t e).plane.landings = s.plane.landings := by simp [packetRecord]

/-! How a landing releases its next tick (R24). -/

theorem fronts_released {s t : State} (h : t.fronts = s.fronts) (l : Nat) : (vget t.plane.landings l).released = (vget s.plane.landings l).released :=
  congrFun (congrArg Fronts.released h) l

theorem released_of_reach {s t : State} (h : t.reach = s.reach) (l : Nat) : (vget t.plane.landings l).released = (vget s.plane.landings l).released := by
  have hall : (t.plane.landings.map Landing.released) = s.plane.landings.map Landing.released := congrArg Reach.released h
  by_cases hl : l < 10
  · have hl' := congrArg (fun v => vget v l) hall
    simpa only [vget_map _ _ _ hl] using hl'
  · unfold vget
    rw [dif_neg hl, dif_neg hl]

theorem takeDue_released (s : State) (k t l : Nat) : (vget (takeDue s k t).1.plane.landings l).released = (vget s.plane.landings l).released :=
  vget_vmod_proj s.plane.landings k l _ Landing.released fun _ => rfl

theorem postWake_released (t : Stamp) (s : State) (w : Latch) (l : Nat) : (vget (postWake t s w).plane.landings l).released = (vget s.plane.landings l).released := by
  unfold postWake
  dsimp only
  obtain ⟨u, hu⟩ : ∃ u, postEvent s { s.ev 1 0x0902 (w.cause + 16 * w.index) (b2n w.late + 2 * w.target) with stamp := t } = u := ⟨_, rfl⟩
  have hposted : (vget u.plane.landings l).released = (vget s.plane.landings l).released := by
    rw [← hu]
    exact fronts_released (postEvent_fronts ..) l
  rw [hu]
  have hlogged : (vget (if w.logged = true then u else logWake u w).plane.landings l).released = (vget s.plane.landings l).released := by
    split
    · exact hposted
    · exact (fronts_released (logDevice_fronts ..) l).trans hposted
  split
  · exact (released_of_reach (NetsOnly.wakeNetworks ..).carries.reach l).trans hlogged
  · exact hlogged

theorem keeperItem_released (s : State) (it : LandItem) (l : Nat) : (vget (keeperItem s it).plane.landings l).released = (vget s.plane.landings l).released := by
  have hwarns : (vget (if it.warn = true then noteWarning s else s).plane.landings l).released = (vget s.plane.landings l).released := by
    split
    · unfold noteWarning
      refine (foldl_keeps (fun u : State => (vget u.plane.landings l).released) _ (fun u k => ?_) _ _).trans (fronts_released (closeSegment_fronts ..) l)
      split
      · exact fronts_released (commitFresh_fronts ..) l
      · rfl
    · rfl
  unfold keeperItem
  dsimp only
  split
  · refine Eq.trans ?_ hwarns
    unfold keeperWake postWakes
    exact foldl_keeps (fun u : State => (vget u.plane.landings l).released) _ (fun u w => postWake_released ..) _ _
  · exact hwarns

theorem releasePackets_fronts (t n : Nat) (s : State) : (releasePackets t n s).fronts = s.fronts := by
  induction n generalizing s with
  | zero => rfl
  | succ n ih =>
    unfold releasePackets
    split
    · exact (ih _).trans ((holdPacket_fronts ..).trans (admitPacket_fronts ..))
    · rfl

/-- A landing has marked its next tick as released. -/
def marked (s : State) (l n : Nat) : State := s.onPlane fun p => { p with landings := vmod p.landings l fun x => { x with released := n + 1 } }

theorem releaseTick_marked (s : State) (l n : Nat) (h : 2 ≤ l ∨ s.sleep.darkCommit = none) : releaseTick s l n =
    if l = 0 then releaseSense (marked s l n) n else if l = 1 then releaseCommands (marked s l n) n else if l = 6 then releaseRecords (marked s l n) n
    else if l = 5 then releaseKeeper (marked s l n) n else if l = 9 then releaseCaptures (marked s l n) n else marked s l n := by
  unfold releaseTick
  dsimp only
  refine if_neg ?_
  rintro ⟨hl, hdark⟩
  obtain hout | hnone := h
  · omega
  · rw [show (s.onPlane _).sleep.darkCommit = none from hnone] at hdark
    exact Bool.false_ne_true hdark

/-- A landing that releases its tick has released it, whatever leaves it. -/
theorem releaseTick_releases (s : State) (l n k : Nat) (h : 2 ≤ l ∨ s.sleep.darkCommit = none) :
    (vget (releaseTick s l n).plane.landings k).released = (vget (marked s l n).plane.landings k).released := by
  rw [releaseTick_marked s l n h]
  split_ifs
  · unfold releaseSense
    dsimp only
    exact (fronts_released (releaseList_fronts ..) k).trans ((takeDue_released ..).trans (fronts_released (deferredStep_fronts _) k))
  · exact fronts_released (releasePackets_fronts ..) k
  · unfold releaseRecords
    dsimp only
    refine (foldl_keeps (fun u : State => (vget u.plane.landings k).released) _ (fun u it => ?_) _ _).trans (takeDue_released ..)
    refine (foldl_keeps (fun u : State => (vget u.plane.landings k).released) _ (fun u e => ?_) _ _).trans
      (foldl_keeps (fun u : State => (vget u.plane.landings k).released) _ (fun u e => ?_) _ _)
    · rw [packetRecord_plane_landings]
    · rw [deliverEvent_plane_landings]
  · unfold releaseKeeper
    dsimp only
    exact (foldl_keeps (fun u : State => (vget u.plane.landings k).released) _ (fun u it => keeperItem_released ..) _ _).trans (takeDue_released ..)
  · unfold releaseCaptures
    refine (fronts_released (finishStop_fronts _) k).trans ?_
    unfold capRelease
    dsimp only
    refine (foldl_keeps (fun u : State => (vget u.plane.landings k).released) _ (fun u it => ?_) _ _).trans (vget_vmod_proj _ 9 k _ Landing.released fun _ => rfl)
    exact foldl_keeps (fun u : State => (vget u.plane.landings k).released) _ (fun u c => fronts_released (capPut_fronts ..) k) _ _
  · rfl

/-- What is not due at a tick is of the present epoch and of a later tick. -/
theorem later_of_not_due {s : State} {n : Nat} {x : Stamp} (h : itemDue s n x = false) : x.epoch = s.plane.epoch ∧ n < x.tick := by
  simp only [itemDue, Bool.or_eq_false_iff, bne_eq_false_iff_eq, decide_eq_false_iff_not, Nat.not_le] at h
  exact h

theorem later_of_kept {s : State} {n : Nat} {l : List LandItem} {x : LandItem} (hx : x ∈ l.filter fun y => !itemDue s n y.stamp) :
    x.stamp.epoch = s.plane.epoch ∧ n < x.stamp.tick :=
  later_of_not_due (Bool.eq_false_of_not_eq_true' (List.mem_filter.1 hx).2)

/-- L0, L6 and L9 keep only the items of later ticks (R24). -/
theorem releaseTick_keeps (s : State) (l n : Nat) (h : 2 ≤ l ∨ s.sleep.darkCommit = none) (hl : l ∈ [0, 6, 9]) :
    ∀ x ∈ (vget (releaseTick s l n).plane.landings l).items, x.stamp.epoch = s.plane.epoch ∧ n < x.stamp.tick := by
  simp only [List.mem_cons, List.not_mem_nil, or_false] at hl
  rw [releaseTick_marked s l n h]
  obtain rfl | rfl | rfl := hl
  · obtain ⟨u, hu⟩ : ∃ u, deferredStep (marked s 0 n) = u := ⟨_, rfl⟩
    have hepoch : u.plane.epoch = s.plane.epoch := by
      rw [← hu]
      exact (congrArg Fronts.epoch (deferredStep_fronts (marked s 0 n)) :)
    have hitems : (vget (releaseSense (marked s 0 n) n).plane.landings 0).items = (vget u.plane.landings 0).items.filter fun y => !itemDue u n y.stamp := by
      rw [← takeDue_items u 0 n (by decide)]
      unfold releaseSense
      rw [hu]
      exact congrArg Fronts.sense (releaseList_fronts ..)
    intro x hx
    rw [if_pos rfl, hitems] at hx
    rw [← hepoch]
    exact later_of_kept hx
  · have hitems : (vget (releaseRecords (marked s 6 n) n).plane.landings 6).items =
        (vget (marked s 6 n).plane.landings 6).items.filter fun y => !itemDue (marked s 6 n) n y.stamp := by
      rw [← takeDue_items (marked s 6 n) 6 n (by decide)]
      unfold releaseRecords
      dsimp only
      refine foldl_keeps (fun u : State => (vget u.plane.landings 6).items) _ (fun u it => ?_) _ _
      refine (foldl_keeps (fun u : State => (vget u.plane.landings 6).items) _ (fun u e => ?_) _ _).trans
        (foldl_keeps (fun u : State => (vget u.plane.landings 6).items) _ (fun u e => ?_) _ _)
      · rw [packetRecord_plane_landings]
      · rw [deliverEvent_plane_landings]
    intro x hx
    rw [if_neg (by decide), if_neg (by decide), if_pos rfl, hitems] at hx
    exact later_of_kept (s := marked s 6 n) hx
  · have hitems : (vget (releaseCaptures (marked s 9 n) n).plane.landings 9).items =
        (vget (marked s 9 n).plane.landings 9).items.filter fun y => !itemDue (marked s 9 n) n y.stamp := by
      unfold releaseCaptures
      refine (congrArg Fronts.caps (finishStop_fronts _) :).trans ?_
      unfold capRelease
      dsimp only
      refine (foldl_keeps (fun u : State => (vget u.plane.landings 9).items) _ (fun u it => ?_) _ _).trans
        (congrArg Landing.items (vget_vmod_same _ 9 _ (by decide)))
      exact foldl_keeps (fun u : State => (vget u.plane.landings 9).items) _ (fun u c => (congrArg Fronts.caps (capPut_fronts ..) :)) _ _
    intro x hx
    rw [if_neg (by decide), if_neg (by decide), if_neg (by decide), if_neg (by decide), if_pos rfl, hitems] at hx
    exact later_of_kept (s := marked s 9 n) hx

theorem progressReport_moves (l h n : Nat) (s : State) (hl : l < 10) (hh : h < 9) (hmay : mayReport s l h n = true) :
    ∃ t, exec (.progressReport l h n) s = .next t ∧
      (vget (vget t.plane.landings l).streams h).progress = max (vget (vget s.plane.landings l).streams h).progress (n + 1) ∧
      ∀ k g, (k, g) ≠ (l, h) → vget (vget t.plane.landings k).streams g = vget (vget s.plane.landings k).streams g := by
  obtain ⟨u, hu⟩ : ∃ u, (s.onPlane fun p => { p with landings := vmod p.landings l fun x => { x with
      streams := vmod x.streams h fun y => { y with progress := max y.progress (n + 1) } } }) = u := ⟨_, rfl⟩
  have hmoves : progressReport s l h n = u := by
    unfold progressReport
    rw [if_pos hmay, hu]
  refine ⟨u.withPending s.pending, congrArg (effect s) hmoves, ?_, fun k g hne => ?_⟩
  · rw [withPending_plane, ← hu, onPlane_plane]
    dsimp only
    rw [vget_vmod_same _ _ _ hl, vget_vmod_same _ _ _ hh]
  · rw [withPending_plane, ← hu, onPlane_plane]
    dsimp only
    by_cases hk : l = k
    · subst hk
      rw [vget_vmod_same _ _ _ hl]
      exact vget_vmod_ne _ _ _ _ fun hg => hne (by rw [hg])
    · rw [vget_vmod_ne _ _ _ _ hk]

/-- Settles O17: progress reports, and the release of a landing's next tick. -/
theorem landingsProgressAndRelease : Obligations.LandingsProgressAndRelease := by
  refine ⟨progressReport_moves, fun l n s hrun hl hn hpast hready hact => ?_⟩
  have hout : 2 ≤ l ∨ s.sleep.darkCommit = none := hact.imp id And.right
  have hreleases := landingRelease_releases l n s hrun hl hn hpast hready (hact.imp id And.left)
  refine ⟨(releaseTick s l n).withPending s.pending, congrArg (effect s) hreleases, ?_, releaseTick_keeps s l n hout⟩
  refine (releaseTick_releases s l n l hout).trans ?_
  exact congrArg Landing.released (vget_vmod_same s.plane.landings l _ hl)

end Sys2Proof.Machine

namespace Sys2Proof.Machine

open Sys2Proof.Claims

/-! What the work of a tick leaves of the tick hall and the device (R15, R18). -/

/-- The settings of a store that a replay begins and ends with (R43, Table 02.9). -/
structure Settings where
  sys : SysCfg
  attrs : Tbl PointAttr
  rules : Tbl Rule
  load : LoadStore
  motor : MotorStore
  light : LightStore
  input : InputStore
  sleep : SleepStore
  watch : WatchStore

/-- The settings of a store. -/
def Store.settings (x : Store) : Settings := ⟨x.sys, x.attrs, x.rules, x.load, x.motor, x.light, x.input, x.sleep, x.watch⟩

/-- What a tick's work leaves: the packets that wait and the time, the tick hall's counts, the halls, the frame of the internal link, the sequencer, the
moves of the device state, the settings, the store's epoch, the part's own store while a replay runs on a view, the replay but for what it counts and
compares, the boot state and HOLD. -/
structure Steady where
  waits : WaitParts
  held : Nat
  lin : Nat
  halls : Vector HallSt 9
  frame : L2Frame
  seq : Seq
  target : Option Nat
  pairStopAt : Option Nat
  commit : Option Nat
  settings : Settings
  epoch : Nat
  saved : Option (Store × Rtc)
  replay : Replay
  bootFail : Nat
  dead : Bool
  hold : Bool
  buoyAt : Nat
  tentative : Option Nat

/-- What a tick's work leaves of a state. -/
def State.steady (s : State) : Steady where
  waits := s.waits
  held := s.plane.held
  lin := s.plane.lin
  halls := s.plane.halls
  frame := s.plane.frame
  seq := s.seq
  target := s.sleep.target
  pairStopAt := s.sleep.pairStopAt
  commit := s.sleep.darkCommit
  settings := s.store.settings
  epoch := s.store.epoch
  saved := s.saved
  replay := { s.plane.replay with lateExec := 0, cmdRing := [] }
  bootFail := s.image.bootFail
  dead := s.image.dead
  hold := s.link.hold
  buoyAt := s.sleep.buoyAt
  tentative := bankIn s 2 4

theorem onAccess_steady (s : State) (f : Access → Access) (h : (f s.access).poll = s.access.poll) : (s.onAccess f).steady = s.steady := by
  simp only [State.steady, State.waits, State.onAccess, h]
  rfl

@[simp] theorem onBus_steady (s : State) (f : Bus → Bus) : (s.onBus f).steady = s.steady := rfl

@[simp] theorem onCapture_steady (s : State) (f : Capture → Capture) : (s.onCapture f).steady = s.steady := rfl

@[simp] theorem onCipher_steady (s : State) (f : Cipher → Cipher) : (s.onCipher f).steady = s.steady := rfl

@[simp] theorem onEth_steady (s : State) (f : Eth → Eth) : (s.onEth f).steady = s.steady := rfl

@[simp] theorem onInput_steady (s : State) (f : Inputs → Inputs) : (s.onInput f).steady = s.steady := rfl

@[simp] theorem onDie_steady (s : State) (f : FieldDie → FieldDie) : (s.onDie f).steady = s.steady := rfl

@[simp] theorem onLight_steady (s : State) (f : Light → Light) : (s.onLight f).steady = s.steady := rfl

@[simp] theorem onLog_steady (s : State) (f : Logbook → Logbook) : (s.onLog f).steady = s.steady := rfl

@[simp] theorem onPoints_steady (s : State) (f : Points → Points) : (s.onPoints f).steady = s.steady := rfl

@[simp] theorem onWatch_steady (s : State) (f : Watch → Watch) : (s.onWatch f).steady = s.steady := rfl

@[simp] theorem onField_steady (s : State) (f : FieldLink → FieldLink) : (s.onField f).steady = s.steady := rfl

@[simp] theorem onTrial_steady (s : State) (f : Trial → Trial) : (s.onTrial f).steady = s.steady := rfl

@[simp] theorem onMotor_steady (s : State) (f : MotorDie → MotorDie) : (s.onMotor f).steady = s.steady := rfl

@[simp] theorem onLoad_steady (s : State) (f : LoadDie → LoadDie) : (s.onLoad f).steady = s.steady := rfl

@[simp] theorem onCan_steady (s : State) (c : Nat) (f : Can → Can) : (s.onCan c f).steady = s.steady := rfl

@[simp] theorem onPort_steady (s : State) (n : Nat) (f : EthPort → EthPort) : (s.onPort n f).steady = s.steady := rfl

@[simp] theorem onCnt_steady (s : State) (n : Nat) (f : EthCounters → EthCounters) : (s.onCnt n f).steady = s.steady := rfl

@[simp] theorem onCtx_steady (s : State) (k : Nat) (f : CipherCtx → CipherCtx) : (s.onCtx k f).steady = s.steady := rfl

@[simp] theorem onEngine_steady (s : State) (e : Nat) (f : Engine → Engine) : (s.onEngine e f).steady = s.steady := rfl

@[simp] theorem onFeed_steady (s : State) (x : Nat) (f : Feed → Feed) : (s.onFeed x f).steady = s.steady := rfl

@[simp] theorem onFo_steady (s : State) (n : Nat) (f : Fo → Fo) : (s.onFo n f).steady = s.steady := rfl

@[simp] theorem onHb_steady (s : State) (m : Nat) (f : Hb → Hb) : (s.onHb m f).steady = s.steady := rfl

@[simp] theorem onLin_steady (s : State) (c : Nat) (f : Lin → Lin) : (s.onLin c f).steady = s.steady := rfl

@[simp] theorem onNet_steady (s : State) (n : Nat) (f : Net → Net) : (s.onNet n f).steady = s.steady := rfl

@[simp] theorem onShadow_steady (s : State) (r : Nat) (f : Ring → Ring) : (s.onShadow r f).steady = s.steady := rfl

@[simp] theorem onBank_steady (s : State) (b : Nat) (f : Bank → Bank) : (s.onBank b f).steady = s.steady := rfl

theorem onRing_steady (s : State) (r : Nat) (f : Ring → Ring) (h : ∀ g, (f g).flights = g.flights) : (s.onRing r f).steady = s.steady := by
  have hwaits := onRing_waits s r f h
  simp only [State.steady, hwaits]
  rfl

@[simp] theorem observe_steady (s : State) (h idx : Nat) (w : List (Nat × PVal)) (es : List Ev) (caps : List CapRecord) : (observe s h idx w es caps).steady = s.steady := by
  rw [observe_only]
  rfl

@[simp] theorem memWriteN_steady (bs : List Byte) (s : State) (a : Nat) : (memWriteN s a bs).steady = s.steady := by
  rw [memWriteN_only]
  rfl

@[simp] theorem retirePacket_steady (s : State) (p : Packet) : (retirePacket s p).steady = s.steady :=
  onRing_steady s _ _ fun _ => (countIrq_flights _).trans (complete_flights ..)

@[simp] theorem ringWrite_steady (s : State) (r : Nat) (bytes : List Byte) : (ringWrite s r bytes).steady = s.steady := by
  unfold ringWrite
  dsimp only
  rw [onRing_steady]
  · exact foldl_keeps State.steady _ (fun u i => memWriteN_steady ..) _ _
  · exact fun _ => countIrq_flights _

@[simp] theorem trustWrite_steady (s : State) : (trustWrite s).steady = s.steady := rfl

@[simp] theorem setOverrun_steady (s : State) : (s.setOverrun).steady = s.steady := rfl

@[simp] theorem takeFree_steady (s : State) (w : Nat) : (s.takeFree w).2.steady = s.steady := rfl

@[simp] theorem landPut_steady (s : State) (l : Nat) (it : LandItem) : (landPut s l it).steady = s.steady := rfl

@[simp] theorem postEvent_steady (s : State) (e : Ev) : (postEvent s e).steady = s.steady := by
  unfold postEvent
  split <;> rfl

@[simp] theorem accessEvent_steady (s : State) (kind address value comp : Nat) : (accessEvent s kind address value comp).steady = s.steady := by
  unfold accessEvent
  split <;> simp

@[simp] theorem aiTick_steady (s : State) : (aiTick s).steady = s.steady := by
  unfold aiTick
  dsimp only
  split <;> simp

@[simp] theorem memWrite_steady (s : State) (a : Nat) (b : Byte) : (memWrite s a b).steady = s.steady := rfl

@[simp] theorem giveReply_steady (s : State) (b : TrialItem) (w : List (Nat × List Byte)) : (giveReply s b w).steady = s.steady := by
  unfold giveReply
  refine foldl_keeps State.steady _ (fun u x => ?_) _ _
  split <;> simp

@[simp] theorem mirrorReply_steady (s : State) (r slot : Nat) (w : List (Nat × List Byte)) : (mirrorReply s r slot w).steady = s.steady := by
  unfold mirrorReply
  dsimp only
  (repeat' split)
  all_goals simp

@[simp] theorem writeReply_steady (s : State) (p : Packet) (st : Status) (reply : Reply) (done : Stamp) : (writeReply s p st reply done).steady = s.steady := by
  unfold writeReply
  dsimp only
  (repeat' split)
  all_goals simp

@[simp] theorem dropReplayed_steady (s : State) (p : Packet) : (dropReplayed s p).steady = s.steady := rfl

@[simp] theorem completeAt_steady (s : State) (p : Packet) (st : Status) (reply : Reply) (done : Stamp) : (completeAt s p st reply done).steady = s.steady := by
  have hsettled : (if replyHidden p s = true then dropReplayed s p else retirePacket (writeReply s p st reply done) p).steady = s.steady := by
    split
    · exact dropReplayed_steady ..
    · exact (retirePacket_steady ..).trans (writeReply_steady ..)
  unfold completeAt
  dsimp only
  split
  · exact (postEvent_steady ..).trans hsettled
  · exact hsettled

@[simp] theorem completeNow_steady (s : State) (p : Packet) (st : Status) (reply : Reply) :
    (completeNow s p st reply).steady = s.steady := by simp [completeNow]

@[simp] theorem answerRead_steady (s : State) (p : Packet) : (answerRead s p).steady = s.steady := by simp [answerRead]

@[simp] theorem answerReads_steady (s : State) : (answerReads s).steady = s.steady := by
  unfold answerReads
  exact foldl_keeps State.steady _ (fun _ _ => by simp) _ _

@[simp] theorem appendRecord_steady (s : State) (it : LogItem) (emergency : Bool) : (appendRecord s it emergency).steady = s.steady := rfl

@[simp] theorem pput_steady (s : State) (pt : Nat) (v : PVal) : (pput s pt v).steady = s.steady := rfl

@[simp] theorem detachPoint_steady (s : State) (pt : Nat) : (detachPoint s pt).steady = s.steady := rfl

@[simp] theorem noteLatency_steady (s : State) (w : PWrite) : (noteLatency s w).steady = s.steady := by
  unfold noteLatency
  (repeat' split)
  all_goals rfl

@[simp] theorem noteWriter_steady (s : State) (pt : Nat) (v : PVal) (k : Writer) (comp : Nat) (t : Stamp) :
    (noteWriter s pt v k comp t).steady = s.steady := rfl

@[simp] theorem writeStands_steady (s : State) (w : PWrite) (t : Stamp) (old : PVal) (count : Nat) : (writeStands s w t old count).steady = s.steady := by
  unfold writeStands
  split <;> simp

@[simp] theorem deviceApply_steady (s : State) (t : Stamp) (w : PWrite) : (deviceApply s t w).steady = s.steady := by
  unfold deviceApply
  split <;> simp

@[simp] theorem bump_steady (s : State) (cls index n : Nat) (hall : Option Nat) : (bump s cls index n hall).steady = s.steady := rfl

@[simp] theorem countMoved_steady (s : State) (w : PWrite) : (countMoved s w).steady = s.steady := by
  unfold countMoved
  dsimp only
  split_ifs <;> rfl

@[simp] theorem moveWrite_steady (s : State) (w : PWrite) : (moveWrite s w).steady = s.steady := by simp [moveWrite]

@[simp] theorem deviceWrite_steady (s : State) (t : Stamp) (w : PWrite) : (deviceWrite s t w).steady = s.steady := by
  unfold deviceWrite
  split <;> simp

@[simp] theorem countDiscarded_steady (s : State) (n : Nat) : (countDiscarded s n).steady = s.steady := rfl

@[simp] theorem applyWrite_steady (s : State) (w : PWrite) : (applyWrite s w).1.steady = s.steady := by
  unfold applyWrite
  (repeat' split)
  all_goals simp

@[simp] theorem lateWriterStep_steady (s : State) (w : PWrite) (r : WriteResult) : (lateWriterStep s w r).steady = s.steady := rfl

@[simp] theorem applyDeferred_steady (s : State) (w : PWrite) : (applyDeferred s w).steady = s.steady := by
  unfold applyDeferred
  dsimp only
  split_ifs
  · exact deviceWrite_steady ..
  · rfl
  · exact (applyWrite_steady ..).trans rfl
  · exact (lateWriterStep_steady ..).trans (applyWrite_steady ..)
  · exact applyWrite_steady ..

@[simp] theorem updateLevel_steady (s : State) : (updateLevel s).steady = s.steady := by
  unfold updateLevel
  dsimp only
  split
  · exact onLog_steady ..
  · exact (postEvent_steady ..).trans (onLog_steady ..)

@[simp] theorem sealSegment_steady (s : State) (reason : Nat) : (sealSegment s reason).steady = s.steady := by
  unfold sealSegment
  dsimp only
  split
  · rfl
  · split
    · exact updateLevel_steady _
    · rfl

@[simp] theorem makeRoom_steady (s : State) : (makeRoom s).steady = s.steady := by
  unfold makeRoom
  (repeat' split)
  all_goals simp

@[simp] theorem dropRecord_steady (s : State) (it : LogItem) : (dropRecord s it).steady = s.steady :=
  (updateLevel_steady _).trans (onLog_steady ..)

@[simp] theorem storeRecord_steady (s : State) (it : LogItem) : (storeRecord s it).1.steady = s.steady := by
  unfold storeRecord
  dsimp only
  (repeat' split)
  all_goals simp

@[simp] theorem logRecord_steady (s : State) (it : LogItem) : (logRecord s it).1.steady = s.steady := by
  unfold logRecord
  dsimp only
  split_ifs <;> simp

@[simp] theorem logDevice_steady (s : State) (type : Nat) (critical : Bool) (payload : List Byte) :
    (logDevice s type critical payload).steady = s.steady := by simp [logDevice]

@[simp] theorem writeReleaseRecords_steady (s : State) (counter : Nat) : (writeReleaseRecords s counter).steady = s.steady := by
  unfold writeReleaseRecords
  exact foldl_keeps State.steady _ (fun _ _ => by simp) _ _

@[simp] theorem setRelease_steady (s : State) (released : Bool) (index cause comp : Nat) : (setRelease s released index cause comp).steady = s.steady := by
  unfold setRelease
  dsimp only
  split
  · rfl
  · split
    · exact (onAccess_steady _ _ rfl).trans ((accessEvent_steady ..).trans rfl)
    · refine (logDevice_steady ..).trans ((writeReleaseRecords_steady ..).trans ?_)
      exact (onAccess_steady _ _ rfl).trans ((accessEvent_steady ..).trans rfl)

@[simp] theorem blockRelease_steady (s : State) (cause comp : Nat) : (blockRelease s cause comp).steady = s.steady := by simp [blockRelease]

@[simp] theorem capItem_steady (s : State) (r : CapRecord) (idx : Nat) : (capItem s r idx).steady = s.steady := by
  unfold capItem
  split <;> rfl

@[simp] theorem sense_steady (s : State) (t : Stamp) (h idx : Nat) (writes : List (Nat × PVal)) (events : List Ev) (caps : List CapRecord) : (sense s t h idx writes events caps).steady = s.steady := by
  unfold sense
  exact foldl_keeps State.steady _ (fun _ _ => by simp) _ _

@[simp] theorem busEvent_steady (s : State) (src kind address value : Nat) (point : Bool) :
    (busEvent s src kind address value point).steady = s.steady := by simp [busEvent]

@[simp] theorem netEvent_steady (s : State) (n kind address value : Nat) : (netEvent s n kind address value).steady = s.steady := by simp [netEvent]

@[simp] theorem setNet_steady (s : State) (n st : Nat) : (setNet s n st).steady = s.steady := by
  unfold setNet
  split <;> simp

@[simp] theorem setCanState_steady (s : State) (c st : Nat) : (setCanState s c st).steady = s.steady := by
  unfold setCanState
  dsimp only
  split_ifs <;> simp

@[simp] theorem integrate_steady (s : State) (n : Nat) : (integrate s n).steady = s.steady := by
  unfold integrate
  split <;> simp

@[simp] theorem setXcvr_steady (s : State) (n st : Nat) : (setXcvr s n st).steady = s.steady := by
  unfold setXcvr
  dsimp only
  split_ifs <;> simp

@[simp] theorem linCommit_steady (s : State) (l : Nat) : (linCommit s l).steady = s.steady := by
  unfold linCommit
  split <;> simp

@[simp] theorem goToSleep_steady (s : State) (l : Nat) : (goToSleep s l).steady = s.steady := rfl

@[simp] theorem follow_steady (s : State) (l st : Nat) (woken : Bool) : (follow s l st woken).steady = s.steady := by
  unfold follow
  dsimp only
  split_ifs <;> simp

@[simp] theorem enterNet_steady (s : State) (n st : Nat) : (enterNet s n st).steady = s.steady := by
  unfold enterNet
  exact (foldl_keeps State.steady _ (fun u l => follow_steady ..) _ _).trans (setNet_steady ..)

@[simp] theorem enterReady_steady (s : State) (n : Nat) : (enterReady s n).steady = s.steady := by simp [enterReady]

@[simp] theorem wakeReady_steady (s : State) (n cause : Nat) : (wakeReady s n cause).steady = s.steady := by
  unfold wakeReady
  dsimp only
  split_ifs <;> simp

@[simp] theorem busWake_steady (s : State) (n cause : Nat) : (busWake s n cause).steady = s.steady := by
  unfold busWake
  dsimp only
  split <;> simp

@[simp] theorem cancelDecided_steady (s : State) (p : Packet) (removed : Bool) : (cancelDecided s p removed).steady = s.steady := by
  unfold cancelDecided
  dsimp only
  (repeat' split)
  all_goals simp

@[simp] theorem streamTo63_steady (s : State) (l : List Byte) : (streamTo63 s l).steady = s.steady := by
  exact Eq.trans rfl (ringWrite_steady s 63 _)

@[simp] theorem capCommit_steady (s : State) (r : CapRecord) : (capCommit s r).1.steady = s.steady := by
  unfold capCommit
  dsimp only
  split_ifs
  · rfl
  · exact streamTo63_steady ..
  · rfl
  · rfl
  · rfl

@[simp] theorem flush63_steady (s : State) : (flush63 s).steady = s.steady := by
  unfold flush63
  dsimp only
  split <;> simp

@[simp] theorem capGap_steady (s : State) : (capGap s).1.steady = s.steady := by
  unfold capGap
  split
  · rfl
  · dsimp only
    split
    · exact capCommit_steady ..
    · rfl

@[simp] theorem capTake_steady (s : State) (r : CapRecord) : (capTake s r).1.steady = s.steady := by
  obtain ⟨x, hx⟩ : ∃ x, (if (capGap s).2 = true then capCommit (capGap s).1 r else ((capGap s).1, false)) = x := ⟨_, rfl⟩
  have hpair : x.1.steady = s.steady := by
    rw [← hx]
    split
    · exact (capCommit_steady ..).trans (capGap_steady s)
    · exact capGap_steady s
  unfold capTake
  dsimp only
  rw [hx]
  split
  · exact hpair
  · exact (setOverrun_steady _).trans hpair

@[simp] theorem capEnd_steady (s : State) (r : CapRecord) : (capEnd s r).steady = s.steady :=
  (flush63_steady (capTake s r).1).trans (capTake_steady s r)

@[simp] theorem capPut_steady (s : State) (r : CapRecord) : (capPut s r).steady = s.steady := by
  unfold capPut
  dsimp only
  split_ifs <;> simp

@[simp] theorem capRelease_steady (due : Stamp → Bool) (s : State) : (capRelease due s).steady = s.steady := by
  unfold capRelease
  dsimp only
  refine (foldl_keeps State.steady _ (fun u it => ?_) _ _).trans rfl
  exact foldl_keeps State.steady _ (fun v r => capPut_steady v r) _ _

@[simp] theorem capWrite_steady (s : State) (r : CapRecord) : (capWrite s r).steady = s.steady := by
  unfold capWrite
  split <;> rfl

@[simp] theorem captureCheckpoint_steady (s : State) : (captureCheckpoint s).steady = s.steady := by
  unfold captureCheckpoint
  dsimp only
  split <;> simp

@[simp] theorem closeSegment_steady (s : State) (reason : Nat) : (closeSegment s reason).steady = s.steady := by
  unfold closeSegment
  split <;> simp

@[simp] theorem writePoint_steady (s : State) (w : PWrite) : (writePoint s w).1.steady = s.steady := by
  unfold writePoint
  split <;> simp

@[simp] theorem keeperWrite_steady (s : State) (pt : Nat) (v : PVal) : (keeperWrite s pt v).1.steady = s.steady := by simp [keeperWrite]

@[simp] theorem keeperPoint_steady (s : State) (pt v : Nat) : (keeperPoint s pt v).steady = s.steady := by
  unfold keeperPoint
  split <;> simp

@[simp] theorem closeSession_steady (s : State) (cause comp : Nat) : (closeSession s cause comp).steady = s.steady := by
  unfold closeSession
  dsimp only
  split
  · rfl
  · refine (logDevice_steady ..).trans ((accessEvent_steady ..).trans ?_)
    split
    · exact onAccess_steady _ _ rfl
    · exact (keeperPoint_steady ..).trans (onAccess_steady _ _ rfl)

@[simp] theorem commitFresh_steady (s : State) (k : Nat) : (commitFresh s k).steady = s.steady := rfl

@[simp] theorem countLateTick_steady (s : State) (l : Nat) : (countLateTick s l).steady = s.steady := by
  unfold countLateTick
  split <;> rfl

@[simp] theorem countQueued_steady (s : State) : (countQueued s).steady = s.steady := rfl

@[simp] theorem countSkipped_steady (s : State) : (countSkipped s).steady = s.steady := rfl

@[simp] theorem endAction_steady (s : State) (pt : Nat) : (endAction s pt).steady = s.steady := rfl

@[simp] theorem runAction_steady (s : State) (a : RunAct) : (runAction s a).steady = s.steady := rfl

@[simp] theorem l4Put_steady (s : State) (hall idx : Nat) (k : L4Kind) : (l4Put s hall idx k).steady = s.steady := rfl

@[simp] theorem reflexTemplate_steady (s : State) (t rule : Nat) : (reflexTemplate s t rule).1.steady = s.steady := by
  unfold reflexTemplate
  split <;> rfl

@[simp] theorem reflexWrite_steady (s : State) (i : Nat) (r : Rule) (pt : Nat) (v : PVal) (trig : Nat) :
    (reflexWrite s i r pt v trig).steady = s.steady := by simp [reflexWrite]

@[simp] theorem patWrite_steady (s : State) (e : Nat) (pt : Nat) (v : PVal) : (patWrite s e pt v).steady = s.steady := by
  simp only [patWrite, apply_ite State.steady]
  simp

@[simp] theorem patternEndEvent_steady (s : State) (e : Nat) (g : PatProg) (value : Nat) : (patternEndEvent s e g value).steady = s.steady := by
  unfold patternEndEvent
  split <;> simp

@[simp] theorem stopEngine_steady (s : State) (e : Nat) (g : PatProg) (value : Nat) (zero : Bool) : (stopEngine s e g value zero).steady = s.steady := by
  unfold stopEngine
  dsimp only
  split_ifs
  · exact (patternEndEvent_steady ..).trans ((foldl_keeps State.steady _ (fun u t => patWrite_steady ..) _ _).trans rfl)
  · exact patternEndEvent_steady ..
  · rfl

@[simp] theorem enterStep_steady (s : State) (e : Nat) (g : PatProg) (i : Nat) : (enterStep s e g i).steady = s.steady := by
  unfold enterStep
  split <;> simp

@[simp] theorem startEngine_steady (s : State) (e : Nat) (g : PatProg) (step : Nat) (reattach : Bool) :
    (startEngine s e g step reattach).steady = s.steady := by simp [startEngine]

@[simp] theorem reflexPattern_steady (s : State) (e : Nat) (start : Bool) : (reflexPattern s e start).1.steady = s.steady := by
  unfold reflexPattern
  (repeat' split)
  all_goals simp

@[simp] theorem rampWrite_steady (s : State) (a : RunAct) (k : Nat) : (rampWrite s a k).steady = s.steady := by
  unfold rampWrite
  dsimp only
  split_ifs <;> simp

@[simp] theorem doAction_steady (s : State) (a : PendAct) : (doAction s a).steady = s.steady := by
  unfold doAction
  dsimp only
  split_ifs <;> simp

@[simp] theorem deferredActions_steady (s : State) : (deferredActions s).steady = s.steady := by
  unfold deferredActions
  exact foldl_keeps State.steady _ (fun _ _ => by simp) _ _

@[simp] theorem deferredStep_steady (s : State) : (deferredStep s).steady = s.steady := by
  unfold deferredStep
  exact foldl_keeps State.steady _ (fun _ _ => by simp) _ _

@[simp] theorem shadowFault_steady (s : State) : (shadowFault s).steady = s.steady := by
  unfold shadowFault
  split <;> rfl

@[simp] theorem shadowRecord_steady (s : State) (r : Nat) (skip : Nat → List Byte) (record : List Byte) : (shadowRecord s r skip record).steady = s.steady := by
  unfold shadowRecord
  dsimp only
  split_ifs
  · rfl
  · exact shadowFault_steady s
  · exact foldl_keeps State.steady _ (fun u i => memWriteN_steady ..) _ _
  · exact shadowFault_steady s
  · exact foldl_keeps State.steady _ (fun u i => memWriteN_steady ..) _ _

theorem clearDrops_steady (s : State) (r : Nat) : (s.onRing r fun g => { g with drops := 0 }).steady = s.steady := onRing_steady s r _ fun _ => rfl

@[simp] theorem deviceRecord_steady (s : State) (r : Nat) (gap skip : Nat → List Byte) (body : List Byte) : (deviceRecord s r gap skip body).steady = s.steady := by
  unfold deviceRecord
  dsimp only
  split
  · next gp sk _ =>
    have hgap : (if gp.isEmpty = true then s else shadowRecord (ringWrite s r gp) r skip gp).steady = s.steady := by
      split
      · rfl
      · exact (shadowRecord_steady ..).trans (ringWrite_steady ..)
    rw [shadowRecord_steady, clearDrops_steady, ringWrite_steady]
    split
    · exact hgap
    · exact (ringWrite_steady ..).trans hgap
  · split
    · rfl
    · exact (setOverrun_steady _).trans (onRing_steady s r _ fun _ => rfl)

@[simp] theorem noteDelivered_steady (s : State) (r : Nat) (e : Ev) : (noteDelivered s r e).steady = s.steady := by
  unfold noteDelivered
  split <;> rfl

@[simp] theorem deliverTo_steady (e : Ev) (s : State) (r : Nat) : (deliverTo e s r).steady = s.steady := by
  unfold deliverTo
  dsimp only
  (repeat' split)
  all_goals simp

@[simp] theorem deliverEvent_steady (s : State) (e : Ev) : (deliverEvent s e).steady = s.steady := by
  unfold deliverEvent
  exact foldl_keeps State.steady _ (fun _ _ => by simp) _ _

@[simp] theorem telemetry_steady (s : State) (sel : Nat) : (telemetry s sel).2.steady = s.steady := by
  unfold telemetry
  (repeat' split)
  all_goals rfl

@[simp] theorem dieFrame_steady (s : State) : (dieFrame s).steady = s.steady := by simp [dieFrame]

@[simp] theorem dieMissed_steady (s : State) (n : Nat) : (dieMissed s n).steady = s.steady := rfl

@[simp] theorem dieWindowMiss_steady (s : State) : (dieWindowMiss s).steady = s.steady := by
  unfold dieWindowMiss
  dsimp only
  (repeat' split)
  all_goals simp

@[simp] theorem dieEnd_steady (s : State) : (dieEnd s).steady = s.steady := by
  unfold dieEnd
  split <;> simp

@[simp] theorem foEnd_steady (s : State) (n cause : Nat) : (foEnd s n cause).steady = s.steady := rfl

@[simp] theorem foEndHold_steady (s : State) (n cause : Nat) : (foEndHold s n cause).steady = s.steady := rfl

@[simp] theorem foActive_steady (s : State) (n cause detail : Nat) : (foActive s n cause detail).steady = s.steady := rfl

@[simp] theorem foHold_steady (s : State) (n cause detail : Nat) : (foHold s n cause detail).steady = s.steady := rfl

@[simp] theorem fieldClass_steady (s : State) (k cls : Nat) : (fieldClass s k cls).steady = s.steady := by
  unfold fieldClass
  dsimp only
  split_ifs
  · rfl
  · exact (foldl_keeps State.steady _ (fun u n => foHold_steady ..) _ _).trans rfl
  · exact (foldl_keeps State.steady _ (fun u n => foEndHold_steady ..) _ _).trans rfl
  · rfl

@[simp] theorem reclassify_steady (s : State) (k : Nat) : (reclassify s k).steady = s.steady := by
  unfold reclassify
  dsimp only
  split
  · rfl
  · exact fieldClass_steady ..

@[simp] theorem dieNext_steady (s : State) : (dieNext s).steady = s.steady := by simp [dieNext]

@[simp] theorem dropChanges_steady (s : State) : (dropChanges s).steady = s.steady := rfl

@[simp] theorem portDrop_steady (s : State) (n : Nat) (f : EthCounters → EthCounters) : (portDrop s n f).steady = s.steady := rfl

@[simp] theorem dropCommand_steady (s : State) : (dropCommand s).steady = s.steady := rfl

@[simp] theorem imageEvent_steady (s : State) (kind address value comp : Nat) (extra : List Byte) :
    (imageEvent s kind address value comp extra).steady = s.steady := by simp [imageEvent]

theorem onBank13_steady (s : State) (b : Nat) (f : Bank13 → Bank13) (h : ∀ x, (f x).state = x.state) : (s.onBank13 b f).steady = s.steady := by
  have hstate : ∀ k, (bank13 (s.onBank13 b f) k).state = (bank13 s k).state := fun k => vget_vmod_proj _ _ _ _ _ h
  have htentative : bankIn (s.onBank13 b f) 2 4 = bankIn s 2 4 := by simp only [bankIn, hstate]
  have hrest : (s.onBank13 b f).steady = { s.steady with tentative := bankIn (s.onBank13 b f) 2 4 } := rfl
  rw [hrest, htentative]
  rfl

@[simp] theorem endTrial_steady (s : State) (cause : Nat) (f : Trial → Trial) : (endTrial s cause f).steady = s.steady := by
  unfold endTrial
  dsimp only
  split
  · rfl
  · refine (imageEvent_steady ..).trans ?_
    split
    · exact onBank13_steady _ _ _ fun _ => rfl
    · rfl

@[simp] theorem endFaulted_steady (s : State) : (endFaulted s).steady = s.steady := by
  unfold endFaulted
  split <;> simp

@[simp] theorem noteFreeze_steady (s : State) (b : Nat) : (noteFreeze s b).steady = s.steady := rfl

@[simp] theorem endMotorWindows_steady (s : State) : (endMotorWindows s).steady = s.steady := by
  unfold endMotorWindows
  refine foldl_keeps State.steady _ (fun u m => ?_) _ _
  split
  · split
    · exact (noteFreeze_steady ..).trans rfl
    · rfl
  · rfl

@[simp] theorem endRelease_steady (s : State) : (endRelease s).steady = s.steady := by
  unfold endRelease
  dsimp only
  split <;> simp

@[simp] theorem memOut_steady (s : State) (a : Nat) (l : List Byte) : (memOut s a l).steady = s.steady := by
  unfold memOut
  dsimp only
  split <;> simp

@[simp] theorem writeBlocks_steady (s : State) (addr : Nat) (l : List Byte) : (writeBlocks s addr l).steady = s.steady := by simp [writeBlocks]

@[simp] theorem writeData_steady (s : State) (k n : Nat) : (writeData s k n).steady = s.steady := by
  unfold writeData
  dsimp only
  (repeat' split)
  all_goals simp

@[simp] theorem engineRun_steady (s : State) (k total : Nat) : (engineRun s k total).steady = s.steady := by
  unfold engineRun
  dsimp only
  refine (onCipher_steady _ _).trans ((foldl_keeps State.steady _ (fun u c => ?_) _ _).trans ?_)
  · split
    · split
      · rfl
      · exact writeData_steady ..
    · rfl
  · exact (foldl_keeps State.steady _ (fun u c => (bump_steady ..).trans (bump_steady ..)) _ _).trans rfl

@[simp] theorem enqueue_steady (s : State) (port : Nat) (q : Queued) : (enqueue s port q).1.steady = s.steady := by
  unfold enqueue
  split <;> rfl

@[simp] theorem enterNormal_steady (s : State) (n : Nat) : (enterNormal s n).steady = s.steady := by simp [enterNormal]

@[simp] theorem enterReflex_steady (s : State) (c : Change) : (enterReflex s c).steady = s.steady := by
  unfold enterReflex
  split <;> rfl

@[simp] theorem ethEvent_steady (s : State) (kind address value : Nat) : (ethEvent s kind address value).steady = s.steady := by
  unfold ethEvent
  split <;> simp

@[simp] theorem queueAction_steady (s : State) (a : PendAct) : (queueAction s a).steady = s.steady := by
  unfold queueAction
  split <;> simp

@[simp] theorem setArmed_steady (s : State) (i : Nat) (b : Bool) : (setArmed s i b).steady = s.steady := rfl

@[simp] theorem fireRule_steady (s : State) (i : Nat) (r : Rule) (c : Change) : (fireRule s i r c).steady = s.steady := by
  unfold fireRule
  dsimp only
  split_ifs <;> simp

@[simp] theorem evalRule_steady (c : Change) (s : State) (i : Nat) : (evalRule c s i).steady = s.steady := by
  unfold evalRule
  dsimp only
  split_ifs <;> simp

@[simp] theorem evalChange_steady (s : State) (c : Change) : (evalChange s c).steady = s.steady := by
  unfold evalChange
  exact foldl_keeps State.steady _ (fun _ _ => by simp) _ _

@[simp] theorem observePoint_steady (s : State) (h idx pt : Nat) (v : PVal) (events : List Ev) :
    (observePoint s h idx pt v events).steady = s.steady := by simp [observePoint]

@[simp] theorem setFeed_steady (s : State) (f : Nat) (on : Bool) : (setFeed s f on).steady = s.steady := by
  unfold setFeed
  split <;> simp

@[simp] theorem feedsTick_steady (s : State) : (feedsTick s).steady = s.steady := by
  unfold feedsTick
  refine foldl_keeps State.steady _ (fun u f => ?_) _ _
  split
  · exact setFeed_steady ..
  · rfl

@[simp] theorem fieldTick_steady (s : State) : (fieldTick s).steady = s.steady := by
  unfold fieldTick
  split <;> simp

@[simp] theorem finishStop_steady (s : State) : (finishStop s).steady = s.steady := by
  unfold finishStop
  split <;> simp

@[simp] theorem foTick_steady (s : State) : (foTick s).steady = s.steady := rfl

@[simp] theorem forward_steady (s : State) (q : Queued) (v : Vlan) (ports : List Nat) : (forward s q v ports).1.steady = s.steady := by
  unfold forward
  generalize hstart : (s, 0, 0) = a
  have hfirst : a.1 = s := by rw [← hstart]
  rw [← hfirst]
  clear hstart hfirst
  induction ports generalizing a with
  | nil => rfl
  | cons n ports ih => exact (ih _).trans (enqueue_steady ..)

@[simp] theorem frameLeaves_steady (s : State) (c : Nat) (f : TxFrame) (st : Status) (sent : Bool) : (frameLeaves s c f st sent).steady = s.steady := by
  unfold frameLeaves
  dsimp only
  refine (foldl_keeps State.steady _ (fun u p => cancelDecided_steady ..) _ _).trans ?_
  split
  · exact (completeNow_steady ..).trans (onCan_steady ..)
  · exact onCan_steady ..

@[simp] theorem timeFrame_steady (s : State) (n : Nat) (f : EthFrame) : (timeFrame s n f).steady = s.steady := by
  unfold timeFrame
  split <;> rfl

@[simp] theorem learn_steady (s : State) (mac vid port : Nat) : (learn s mac vid port).steady = s.steady := by
  unfold learn
  split <;> rfl

@[simp] theorem switchIn_steady (s : State) (n : Nat) (secure : Bool) (f : EthFrame) : (switchIn s n secure f).steady = s.steady := by
  unfold switchIn
  dsimp only
  (repeat' split)
  all_goals simp

@[simp] theorem putSa_steady (s : State) (a : Sa) : (putSa s a).steady = s.steady := rfl

@[simp] theorem stopSa_steady (s : State) (a : Sa) (cause : Nat) : (stopSa s a cause).steady = s.steady := by simp [stopSa]

@[simp] theorem macsecCheck_steady (s : State) (n : Nat) (f : EthFrame) (t : SecTag) : (macsecCheck s n f t).1.steady = s.steady := by
  have hrun := engineRun_steady s (macsecCtx n true) (macsecBlocks t.data.length)
  unfold macsecCheck
  dsimp only
  (repeat' split)
  all_goals simp [hrun]

@[simp] theorem heldFrame_steady (s : State) (h : HoldItem) : (heldFrame s h).steady = s.steady := by
  unfold heldFrame
  split
  · rfl
  · next t _ =>
    have hcheck := macsecCheck_steady s h.port h.frame t
    split
    · next u secure f hsome =>
      rw [hsome] at hcheck
      exact (switchIn_steady ..).trans hcheck
    · next u hnone =>
      rw [hnone] at hcheck
      exact hcheck

@[simp] theorem serveHold_steady (ctx : Nat) : ∀ (fuel n : Nat) (s : State), (serveHold ctx fuel n s).steady = s.steady
  | 0, _, _ => rfl
  | fuel + 1, n, s => by
    unfold serveHold
    split
    · rfl
    · split
      · exact (serveHold_steady ctx fuel _ _).trans ((heldFrame_steady ..).trans (onCipher_steady ..))
      · rfl

@[simp] theorem holdTick_steady (s : State) : (holdTick s).steady = s.steady := by
  unfold holdTick
  split <;> simp

@[simp] theorem logWake_steady (s : State) (w : Latch) : (logWake s w).steady = s.steady := by simp [logWake]

@[simp] theorem requestNet_steady (s : State) (n cause : Nat) : (requestNet s n cause).steady = s.steady := by
  unfold requestNet
  dsimp only
  split_ifs <;> simp

@[simp] theorem wakeNetworks_steady (s : State) (cause index : Nat) : (wakeNetworks s cause index).steady = s.steady := by
  have hasked := foldl_keeps State.steady _ (fun u n => requestNet_steady u n cause) (bitList 14 (wakeMask s.store.sleep cause)) s
  unfold wakeNetworks
  dsimp only
  split
  · exact (busWake_steady ..).trans hasked
  · exact hasked

@[simp] theorem postWake_steady (t : Stamp) (s : State) (w : Latch) : (postWake t s w).steady = s.steady := by
  unfold postWake
  dsimp only
  split_ifs <;> simp

@[simp] theorem postWakes_steady (s : State) (t : Stamp) : (postWakes s t).steady = s.steady := by
  unfold postWakes
  exact foldl_keeps State.steady _ (fun _ _ => by simp) _ _

@[simp] theorem keeperWake_steady (s : State) (t : Stamp) (cause index : Nat) : (keeperWake s t cause index).steady = s.steady := by
  unfold keeperWake
  exact foldl_keeps State.steady _ (fun _ _ => by simp) _ _

@[simp] theorem noteWarning_steady (s : State) : (noteWarning s).steady = s.steady := by
  unfold noteWarning
  refine (foldl_keeps State.steady _ (fun u k => ?_) _ _).trans (closeSegment_steady ..)
  split
  · exact commitFresh_steady ..
  · rfl

@[simp] theorem keeperItem_steady (s : State) (it : LandItem) : (keeperItem s it).steady = s.steady := by
  have hwarned : (if it.warn = true then noteWarning s else s).steady = s.steady := by
    split
    · exact noteWarning_steady s
    · rfl
  unfold keeperItem
  dsimp only
  split
  · exact (keeperWake_steady ..).trans hwarned
  · exact hwarned

@[simp] theorem lagStep_steady (s : State) : (lagStep s).steady = s.steady := by
  unfold lagStep
  refine foldl_keeps State.steady _ (fun u x => ?_) _ _
  split <;> simp

@[simp] theorem noteSignals_steady (s : State) (it : LandItem) : (noteSignals s it).steady = s.steady := rfl

@[simp] theorem landWrites_steady (s : State) (it : LandItem) : (landWrites s it).steady = s.steady := by
  unfold landWrites
  dsimp only
  refine (foldl_keeps State.steady _ (fun u w => deviceWrite_steady ..) _ _).trans ?_
  split
  · refine (noteSignals_steady ..).trans ?_
    split <;> rfl
  · split <;> rfl

@[simp] theorem levelTick_steady (s : State) : (levelTick s).steady = s.steady := rfl

@[simp] theorem reportChange_steady (s : State) (pt : Nat) (v : PVal) (t : Stamp) (hall idx comp : Nat) : (reportChange s pt v t hall idx comp).steady = s.steady := by
  unfold reportChange
  dsimp only
  split_ifs <;> simp

@[simp] theorem noteChange_steady (s : State) (pt : Nat) (old new : PVal) (t : Stamp) (hall idx comp : Nat) :
    (noteChange s pt old new t hall idx comp).steady = s.steady := by simp [noteChange]

@[simp] theorem noteIrq_steady (s : State) : (noteIrq s).steady = s.steady := rfl

@[simp] theorem noteLate_steady (s : State) (p : Packet) (ticks : Nat) (replayed : Bool) : (noteLate s p ticks replayed).steady = s.steady := by
  unfold noteLate
  dsimp only
  refine (postEvent_steady ..).trans ?_
  generalize hbumped : bump s 2 p.comp 1 _ = u
  have hkept : u.steady = s.steady := by rw [← hbumped, bump_steady]
  have hmarked : ∀ (b : Bool) (q : Replay → Replay), (∀ x, { q x with lateExec := 0, cmdRing := [] } = { x with lateExec := 0, cmdRing := [] }) →
      (u.onPlane fun x => { x with status := { x.status with late := b }, replay := q x.replay }).steady = s.steady := by
    intro b q hq
    rw [← hkept]
    exact congrArg (fun r => { u.steady with replay := r }) (hq u.plane.replay)
  split
  · refine Eq.trans rfl ((capWrite_steady ..).trans (hmarked true (fun q => if q.running ∧ p.comp < 14 then { q with lateExec := satAdd32 q.lateExec 1 } else q) fun x => ?_))
    split <;> rfl
  · refine hmarked true (fun q => if q.running ∧ p.comp < 14 then { q with lateExec := satAdd32 q.lateExec 1 } else q) fun x => ?_
    split <;> rfl

@[simp] theorem noteUp_steady (s : State) : (noteUp s).steady = s.steady := rfl

@[simp] theorem overflowEvent_steady (s : State) : (overflowEvent s).steady = s.steady := by
  unfold overflowEvent
  split <;> simp

@[simp] theorem packetRecord_steady (s : State) (t : Stamp) (e : Nat × List Byte) : (packetRecord s t e).steady = s.steady := by simp [packetRecord]

@[simp] theorem patternUpdate_steady (s : State) (e : Nat) : (patternUpdate s e).steady = s.steady := by
  have hlag : (if updateDue s e = true then lagStep s else s).steady = s.steady := by
    split
    · exact lagStep_steady s
    · rfl
  unfold patternUpdate
  dsimp only
  generalize (if updateDue s e = true then lagStep s else s) = u at hlag
  split
  · exact hlag
  · split_ifs
    · exact (enterStep_steady ..).trans ((foldl_keeps State.steady _ (fun u t => patWrite_steady ..) _ _).trans hlag)
    · exact Eq.trans rfl ((foldl_keeps State.steady _ (fun u t => patWrite_steady ..) _ _).trans hlag)
    · exact hlag

@[simp] theorem patternUpdates_steady (s : State) : (patternUpdates s).steady = s.steady := by
  unfold patternUpdates
  exact (foldl_keeps State.steady _ (fun u e => patternUpdate_steady u e) _ _).trans (lagStep_steady s)

@[simp] theorem postEvents_steady (s : State) (es : List Ev) : (postEvents s es).steady = s.steady := by
  unfold postEvents
  exact foldl_keeps State.steady _ (fun _ _ => by simp) _ _

@[simp] theorem tellConditions_steady (s : State) : (tellConditions s).steady = s.steady := rfl

@[simp] theorem traceTick_steady (s : State) : (traceTick s).steady = s.steady := by
  unfold traceTick
  dsimp only
  split <;> simp

@[simp] theorem powerTick_steady (s : State) : (powerTick s).steady = s.steady := by
  have hcounted : ∀ x : Link, x.hold = s.link.hold → ({ s with link := x } : State).steady = s.steady := fun x hx =>
    congrArg (fun b => { s.steady with hold := b }) hx
  unfold powerTick
  split
  · rw [tellConditions_steady, traceTick_steady, feedsTick_steady, endMotorWindows_steady, aiTick_steady]
    refine hcounted _ ?_
    split <;> rfl
  · rfl

@[simp] theorem pulseEnd_steady (s : State) (pt : Nat) : (pulseEnd s pt).steady = s.steady := by
  unfold pulseEnd
  (repeat' split)
  all_goals simp

@[simp] theorem rampStep_steady (s : State) (pt : Nat) : (rampStep s pt).steady = s.steady := by
  unfold rampStep
  dsimp only
  (repeat' split)
  all_goals simp

@[simp] theorem reflexEvaluate_steady (s : State) : (reflexEvaluate s).steady = s.steady := by
  unfold reflexEvaluate
  exact foldl_keeps State.steady _ (fun _ _ => by simp) _ _

@[simp] theorem reflexTick_steady (s : State) : (reflexTick s).steady = s.steady := by
  have hrun : ∀ (u : State) (pt : Nat), (rampStep (pulseEnd u pt) pt).steady = u.steady := fun u pt =>
    (rampStep_steady ..).trans (pulseEnd_steady ..)
  exact (reflexEvaluate_steady _).trans ((foldl_keeps State.steady _ hrun _ _).trans (deferredActions_steady s))

@[simp] theorem settleWrite_steady (s : State) (e : TickWrite) : (settleWrite s e).steady = s.steady := by
  unfold settleWrite
  split
  · rfl
  · exact noteChange_steady ..

@[simp] theorem tellChanges_steady (c : TickWrite → Bool) (s : State) : (tellChanges c s).steady = s.steady := by
  unfold tellChanges
  exact foldl_keeps State.steady _ (fun _ _ => by simp) _ _

@[simp] theorem tellInputs_steady (s : State) : (tellInputs s).steady = s.steady := by simp [tellInputs]

@[simp] theorem releaseItems_steady (s : State) (l : List LandItem) : (releaseItems s l).steady = s.steady := by
  unfold releaseItems
  dsimp only
  refine (foldl_keeps State.steady _ (fun u it => postEvents_steady ..) _ _).trans ((tellInputs_steady _).trans ?_)
  exact foldl_keeps State.steady _ (fun u it => landWrites_steady ..) _ _

@[simp] theorem releaseGroup_steady (s : State) (g : List LandItem) : (releaseGroup s g).steady = s.steady := by
  unfold releaseGroup
  dsimp only
  split <;> simp

@[simp] theorem releaseList_steady (s : State) (l : List LandItem) : (releaseList s l).steady = s.steady := by
  unfold releaseList
  exact foldl_keeps State.steady _ (fun _ _ => by simp) _ _

@[simp] theorem releaseAll_steady (s : State) : (releaseAll s).steady = s.steady := by
  unfold releaseAll
  exact foldl_keeps State.steady _ (fun _ _ => by simp) _ _

@[simp] theorem releaseCaptures_steady (s : State) (t : Nat) : (releaseCaptures s t).steady = s.steady := by simp [releaseCaptures]

@[simp] theorem takeDue_steady (s : State) (l t : Nat) : (takeDue s l t).1.steady = s.steady := rfl

@[simp] theorem releaseKeeper_steady (s : State) (t : Nat) : (releaseKeeper s t).steady = s.steady := by
  unfold releaseKeeper
  exact foldl_keeps State.steady _ (fun _ _ => by simp) _ _

@[simp] theorem releaseRecords_steady (s : State) (t : Nat) : (releaseRecords s t).steady = s.steady := by
  unfold releaseRecords
  refine (foldl_keeps State.steady _ (fun u it => ?_) _ _).trans (takeDue_steady s 6 t)
  refine (foldl_keeps State.steady _ (fun v e => packetRecord_steady ..) _ _).trans ?_
  exact foldl_keeps State.steady _ (fun v e => deliverEvent_steady ..) _ _

@[simp] theorem releaseSense_steady (s : State) (t : Nat) : (releaseSense s t).steady = s.steady := by simp [releaseSense]

@[simp] theorem sealTick_steady (s : State) : (sealTick s).steady = s.steady := by
  unfold sealTick
  (repeat' split)
  all_goals simp

@[simp] theorem settleLate_steady (s : State) (l : LateWriter) : (settleLate s l).steady = s.steady := by
  unfold settleLate
  dsimp only
  split_ifs <;> simp

@[simp] theorem settleLates_steady (s : State) : (settleLates s).steady = s.steady := by
  unfold settleLates
  exact foldl_keeps State.steady _ (fun _ _ => by simp) _ _

@[simp] theorem settleTick_steady (s : State) : (settleTick s).steady = s.steady := by
  unfold settleTick
  refine (overflowEvent_steady _).trans ((tellChanges_steady ..).trans ?_)
  exact foldl_keeps State.steady _ (fun u w => countMoved_steady ..) _ _

@[simp] theorem tagDone_steady (s : State) (c : Nat) (f : TxFrame) : (tagDone s c f).steady = s.steady := by
  unfold tagDone
  split <;> simp

@[simp] theorem tagsTick_steady (s : State) : (tagsTick s).steady = s.steady := by
  unfold tagsTick
  refine foldl_keeps State.steady _ (fun u c => ?_) _ _
  exact foldl_keeps State.steady _ (fun v f => tagDone_steady ..) _ _

@[simp] theorem timerStep_steady (s : State) (pt : Nat) : (timerStep s pt).steady = s.steady := by
  unfold timerStep
  dsimp only
  split_ifs <;> simp

@[simp] theorem timerSteps_steady (s : State) : (timerSteps s).steady = s.steady := by
  unfold timerSteps
  exact foldl_keeps State.steady _ (fun _ _ => by simp) _ _

end Sys2Proof.Machine

namespace Sys2Proof.Machine

open Sys2Proof.Claims

/-! What the first releases of a tick leave of the rings and of the replayed packets (R20, R43). -/

/-- The rings and the replayed packets of a state. -/
def State.heads (s : State) : Vector Ring 64 × List Packet := (s.plane.rings, s.plane.replay.cmdNew)

@[simp] theorem onAccess_heads (s : State) (f : Access → Access) : (s.onAccess f).heads = s.heads := rfl

@[simp] theorem onCapture_heads (s : State) (f : Capture → Capture) : (s.onCapture f).heads = s.heads := rfl

@[simp] theorem onStore_heads (s : State) (f : Store → Store) : (s.onStore f).heads = s.heads := rfl

@[simp] theorem onLog_heads (s : State) (f : Logbook → Logbook) : (s.onLog f).heads = s.heads := rfl

@[simp] theorem onPoints_heads (s : State) (f : Points → Points) : (s.onPoints f).heads = s.heads := rfl

@[simp] theorem landPut_heads (s : State) (l : Nat) (it : LandItem) : (landPut s l it).heads = s.heads := rfl

@[simp] theorem postEvent_heads (s : State) (e : Ev) : (postEvent s e).heads = s.heads := by
  unfold postEvent
  split <;> rfl

@[simp] theorem accessEvent_heads (s : State) (kind address value comp : Nat) : (accessEvent s kind address value comp).heads = s.heads := by
  unfold accessEvent
  split <;> simp

@[simp] theorem appendRecord_heads (s : State) (it : LogItem) (emergency : Bool) : (appendRecord s it emergency).heads = s.heads := rfl

@[simp] theorem pput_heads (s : State) (pt : Nat) (v : PVal) : (pput s pt v).heads = s.heads := rfl

@[simp] theorem detachPoint_heads (s : State) (pt : Nat) : (detachPoint s pt).heads = s.heads := rfl

@[simp] theorem noteLatency_heads (s : State) (w : PWrite) : (noteLatency s w).heads = s.heads := by
  unfold noteLatency
  (repeat' split)
  all_goals rfl

@[simp] theorem noteWriter_heads (s : State) (pt : Nat) (v : PVal) (k : Writer) (comp : Nat) (t : Stamp) : (noteWriter s pt v k comp t).heads = s.heads := rfl

@[simp] theorem writeStands_heads (s : State) (w : PWrite) (t : Stamp) (old : PVal) (count : Nat) : (writeStands s w t old count).heads = s.heads := by
  unfold writeStands
  split <;> simp

@[simp] theorem deviceApply_heads (s : State) (t : Stamp) (w : PWrite) : (deviceApply s t w).heads = s.heads := by
  unfold deviceApply
  split <;> simp

@[simp] theorem bump_heads (s : State) (cls index n : Nat) (hall : Option Nat) : (bump s cls index n hall).heads = s.heads := rfl

@[simp] theorem countMoved_heads (s : State) (w : PWrite) : (countMoved s w).heads = s.heads := by
  unfold countMoved
  dsimp only
  split_ifs <;> rfl

@[simp] theorem moveWrite_heads (s : State) (w : PWrite) : (moveWrite s w).heads = s.heads := by simp [moveWrite]

@[simp] theorem deviceWrite_heads (s : State) (t : Stamp) (w : PWrite) : (deviceWrite s t w).heads = s.heads := by
  unfold deviceWrite
  split <;> simp

@[simp] theorem countDiscarded_heads (s : State) (n : Nat) : (countDiscarded s n).heads = s.heads := rfl

@[simp] theorem applyWrite_heads (s : State) (w : PWrite) : (applyWrite s w).1.heads = s.heads := by
  unfold applyWrite
  (repeat' split)
  all_goals simp

@[simp] theorem lateWriterStep_heads (s : State) (w : PWrite) (r : WriteResult) : (lateWriterStep s w r).heads = s.heads := rfl

@[simp] theorem applyDeferred_heads (s : State) (w : PWrite) : (applyDeferred s w).heads = s.heads := by
  unfold applyDeferred
  dsimp only
  split_ifs
  · exact deviceWrite_heads ..
  · rfl
  · exact (applyWrite_heads ..).trans rfl
  · exact (lateWriterStep_heads ..).trans (applyWrite_heads ..)
  · exact applyWrite_heads ..

@[simp] theorem capWrite_heads (s : State) (r : CapRecord) : (capWrite s r).heads = s.heads := by
  unfold capWrite
  split <;> rfl

@[simp] theorem captureCheckpoint_heads (s : State) : (captureCheckpoint s).heads = s.heads := by
  unfold captureCheckpoint
  dsimp only
  split <;> simp

@[simp] theorem writePoint_heads (s : State) (w : PWrite) : (writePoint s w).1.heads = s.heads := by
  unfold writePoint
  split <;> simp

@[simp] theorem keeperWrite_heads (s : State) (pt : Nat) (v : PVal) : (keeperWrite s pt v).1.heads = s.heads := by simp [keeperWrite]

@[simp] theorem keeperPoint_heads (s : State) (pt v : Nat) : (keeperPoint s pt v).heads = s.heads := by
  unfold keeperPoint
  split <;> simp

@[simp] theorem updateLevel_heads (s : State) : (updateLevel s).heads = s.heads := by
  unfold updateLevel
  dsimp only
  split
  · exact onLog_heads ..
  · exact (postEvent_heads ..).trans (onLog_heads ..)

@[simp] theorem sealSegment_heads (s : State) (reason : Nat) : (sealSegment s reason).heads = s.heads := by
  unfold sealSegment
  dsimp only
  split
  · rfl
  · split
    · exact updateLevel_heads _
    · rfl

@[simp] theorem makeRoom_heads (s : State) : (makeRoom s).heads = s.heads := by
  unfold makeRoom
  (repeat' split)
  all_goals simp

@[simp] theorem dropRecord_heads (s : State) (it : LogItem) : (dropRecord s it).heads = s.heads :=
  (updateLevel_heads _).trans (onLog_heads ..)

@[simp] theorem storeRecord_heads (s : State) (it : LogItem) : (storeRecord s it).1.heads = s.heads := by
  unfold storeRecord
  dsimp only
  (repeat' split)
  all_goals simp

@[simp] theorem logRecord_heads (s : State) (it : LogItem) : (logRecord s it).1.heads = s.heads := by
  unfold logRecord
  dsimp only
  split_ifs <;> simp

@[simp] theorem logDevice_heads (s : State) (type : Nat) (critical : Bool) (payload : List Byte) :
    (logDevice s type critical payload).heads = s.heads := by simp [logDevice]

@[simp] theorem closeSession_heads (s : State) (cause comp : Nat) : (closeSession s cause comp).heads = s.heads := by
  unfold closeSession
  dsimp only
  split
  · rfl
  · refine (logDevice_heads ..).trans ((accessEvent_heads ..).trans ?_)
    split
    · exact onAccess_heads ..
    · exact (keeperPoint_heads ..).trans (onAccess_heads ..)

@[simp] theorem deferredStep_heads (s : State) : (deferredStep s).heads = s.heads := by
  unfold deferredStep
  exact foldl_keeps State.heads _ (fun _ _ => by simp) _ _

@[simp] theorem enterReflex_heads (s : State) (c : Change) : (enterReflex s c).heads = s.heads := by
  unfold enterReflex
  split <;> rfl

@[simp] theorem noteSignals_heads (s : State) (it : LandItem) : (noteSignals s it).heads = s.heads := rfl

@[simp] theorem landWrites_heads (s : State) (it : LandItem) : (landWrites s it).heads = s.heads := by
  unfold landWrites
  dsimp only
  refine (foldl_keeps State.heads _ (fun u w => deviceWrite_heads ..) _ _).trans ?_
  split
  · refine (noteSignals_heads ..).trans ?_
    split <;> rfl
  · split <;> rfl

@[simp] theorem reportChange_heads (s : State) (pt : Nat) (v : PVal) (t : Stamp) (hall idx comp : Nat) : (reportChange s pt v t hall idx comp).heads = s.heads := by
  unfold reportChange
  dsimp only
  split_ifs <;> simp

@[simp] theorem noteChange_heads (s : State) (pt : Nat) (old new : PVal) (t : Stamp) (hall idx comp : Nat) :
    (noteChange s pt old new t hall idx comp).heads = s.heads := by simp [noteChange]

@[simp] theorem postEvents_heads (s : State) (es : List Ev) : (postEvents s es).heads = s.heads := by
  unfold postEvents
  exact foldl_keeps State.heads _ (fun _ _ => by simp) _ _

@[simp] theorem settleWrite_heads (s : State) (e : TickWrite) : (settleWrite s e).heads = s.heads := by
  unfold settleWrite
  split
  · rfl
  · exact noteChange_heads ..

@[simp] theorem tellChanges_heads (c : TickWrite → Bool) (s : State) : (tellChanges c s).heads = s.heads := by
  unfold tellChanges
  exact foldl_keeps State.heads _ (fun _ _ => by simp) _ _

@[simp] theorem tellInputs_heads (s : State) : (tellInputs s).heads = s.heads := by simp [tellInputs]

@[simp] theorem releaseItems_heads (s : State) (l : List LandItem) : (releaseItems s l).heads = s.heads := by
  unfold releaseItems
  dsimp only
  refine (foldl_keeps State.heads _ (fun u it => postEvents_heads ..) _ _).trans ((tellInputs_heads _).trans ?_)
  exact foldl_keeps State.heads _ (fun u it => landWrites_heads ..) _ _

@[simp] theorem releaseGroup_heads (s : State) (g : List LandItem) : (releaseGroup s g).heads = s.heads := by
  unfold releaseGroup
  dsimp only
  split <;> simp

@[simp] theorem releaseList_heads (s : State) (l : List LandItem) : (releaseList s l).heads = s.heads := by
  unfold releaseList
  exact foldl_keeps State.heads _ (fun _ _ => by simp) _ _

@[simp] theorem takeDue_heads (s : State) (l t : Nat) : (takeDue s l t).1.heads = s.heads := rfl

@[simp] theorem releaseSense_heads (s : State) (t : Nat) : (releaseSense s t).heads = s.heads := by simp [releaseSense]

/-! A tick of a device with no packet on its way (R15, R35): its work leaves the packets, and nothing of the tick hall but the tick itself moves. -/

/-- No packet is on its way and no reset waits. -/
structure Steady.Idle (w : Steady) : Prop where
  waiting : w.waits.waiting = []
  keeper : w.waits.keeper = []
  flights : ∀ r, w.waits.flights r = []
  replayed : w.replay.cmdNew = []
  poll : w.waits.poll = none
  resets : w.seq.resetDue = []

theorem turnList_idle {s : State} (h : s.steady.Idle) : turnList s = [] := by
  have hwaiting : s.plane.waiting = [] := h.waiting
  have hkeeper : s.plane.keeper = [] := h.keeper
  unfold turnList duePackets
  rw [hwaiting, hkeeper]
  rfl

theorem runTurns_idle {s : State} (h : s.steady.Idle) : runTurns s = s := by
  unfold runTurns
  rw [turnList_idle h]
  rfl

theorem applySets_idle {s : State} (h : s.steady.Idle) : applySets s = s := by
  unfold applySets
  rw [turnList_idle h]
  split <;> rfl

theorem flights_idle {s : State} (h : s.steady.Idle) (r : Nat) : (s.ring r).flights = [] := h.flights r

theorem applyRing_idle {s : State} (h : s.steady.Idle) (r : Nat) : applyRing s r = s := by
  unfold applyRing
  rw [flights_idle h]
  rfl

theorem applyFrom_idle {s : State} (h : s.steady.Idle) (l : List Nat) : applyFrom l s = s := by
  have hawaits : ∀ r, awaitsFlight s r = false := fun r => by
    unfold awaitsFlight
    rw [flights_idle h]
    rfl
  induction l with
  | nil => rfl
  | cons r l ih =>
    unfold applyFrom
    dsimp only
    rw [applyRing_idle h, hawaits, if_neg Bool.false_ne_true, ih]

theorem startWork_idle {s : State} (h : s.steady.Idle) : startWork s = s := by
  unfold startWork
  rw [applySets_idle h]
  exact applyFrom_idle h _

theorem findFlight_idle {s : State} (h : s.steady.Idle) (r : Nat) (c : Flight → Bool) : findFlight s r c = none := by
  unfold findFlight
  rw [flights_idle h]
  rfl

theorem flightTimeout_idle {s : State} (h : s.steady.Idle) (r : Nat) : flightTimeout s r = s := by
  unfold flightTimeout
  rw [findFlight_idle h]

theorem vmod_fixed {α : Type} {n : Nat} [Inhabited α] (v : Vector α n) (i : Nat) (f : α → α) (h : f (vget v i) = vget v i) : vmod v i f = v := by
  refine Vector.ext fun j hj => ?_
  have hat := vget_vmod v i j f
  have hread : ∀ w : Vector α n, vget w j = w[j] := fun w => by simp [vget, hj]
  rw [hread, hread] at hat
  rw [hat]
  split
  · next hi =>
    obtain ⟨rfl, -⟩ := hi
    rw [← hread, h]
  · rfl

theorem interruptFlight_idle {s : State} (h : s.steady.Idle) (p : Packet) : interruptFlight p s = s := by
  unfold interruptFlight
  split
  · rfl
  · have hopen : (vget s.plane.rings p.ring).openFlight = none := by
      have hflights := flights_idle h p.ring
      unfold State.ring at hflights
      unfold Ring.openFlight
      rw [hflights]
      rfl
    have hrings := vmod_fixed s.plane.rings p.ring (fun g =>
      match g.openFlight with
      | some f => if f.members.any (samePlace p) then g else g.putOpen { f with interrupted := some p.arrival }
      | none => g) (by rw [hopen])
    exact congrArg (fun x => s.onPlane fun q => { q with rings := x }) hrings

theorem flightInterrupted_idle {s : State} (h : s.steady.Idle) (r : Nat) : flightInterrupted s r = s := by
  have hhead : interruptHead s r = s := by
    unfold interruptHead
    split
    · exact interruptFlight_idle h _
    · rfl
  unfold flightInterrupted
  dsimp only
  rw [hhead, findFlight_idle h]

theorem endFlights_idle {s : State} (h : s.steady.Idle) : endFlights s = s := by
  unfold endFlights
  generalize turnRings s = l
  induction l with
  | nil => rfl
  | cons r l ih => rw [List.foldl_cons, flightTimeout_idle h, flightInterrupted_idle h, ih]

/-! The releases of the tick. -/

/-- The rings hold no packet that has not been taken in. -/
def Emptied (s : State) : Prop := ∀ r, r < 64 → (s.ring r).head = (s.ring r).tail

theorem Emptied.of_heads {s t : State} (h : Emptied s) (hkept : t.heads = s.heads) : Emptied t := by
  have hrings : t.plane.rings = s.plane.rings := congrArg Prod.fst hkept
  intro r hr
  have hring : t.ring r = s.ring r := congrArg (vget · r) hrings
  rw [hring]
  exact h r hr

theorem firstHead_emptied {s : State} (h : Emptied s) (hreplayed : s.plane.replay.cmdNew = []) (t : Nat) : firstHead s t = none := by
  have hnone : packetRings.filter (admitsHead s t) = [] := List.filter_eq_nil_iff.mpr fun r hr hadmits => by
    have hr64 : r < 64 := by
      simp only [packetRings, List.mem_append, List.mem_range, List.mem_singleton] at hr
      omega
    simp [admitsHead, headWhole, Ring.waits, h r hr64] at hadmits
  unfold firstHead headPackets
  rw [hnone, hreplayed]
  rfl

theorem releaseCommands_emptied {s : State} (h : Emptied s) (hreplayed : s.plane.replay.cmdNew = []) (t : Nat) : releaseCommands s t = s := by
  unfold releaseCommands releasePackets
  rw [firstHead_emptied h hreplayed]

theorem releaseTick_steady (s : State) (l t : Nat) (h : l ≠ 1) : (releaseTick s l t).steady = s.steady := by
  unfold releaseTick
  dsimp only
  split_ifs
  · rfl
  · exact releaseSense_steady ..
  · exact releaseRecords_steady ..
  · exact releaseKeeper_steady ..
  · exact releaseCaptures_steady ..
  · rfl

theorem releaseSenseTick_heads (s : State) (t : Nat) : (releaseTick s 0 t).heads = s.heads := by
  unfold releaseTick
  dsimp only
  rw [if_pos rfl]
  split
  · rfl
  · exact releaseSense_heads ..

theorem releaseCommandTick_steady {s : State} (h : Emptied s) (hreplayed : s.plane.replay.cmdNew = []) (t : Nat) : (releaseTick s 1 t).steady = s.steady := by
  unfold releaseTick
  dsimp only
  rw [if_neg one_ne_zero, if_pos rfl]
  split
  · rfl
  · refine (congrArg State.steady (releaseCommands_emptied ?_ ?_ t)).trans rfl
    · exact h
    · exact hreplayed

theorem releaseNominal_sense (s : State) : (releaseNominal s 0).steady = s.steady ∧ (releaseNominal s 0).heads = s.heads := by
  unfold releaseNominal
  split
  · exact ⟨releaseTick_steady _ _ _ zero_ne_one, releaseSenseTick_heads _ _⟩
  · exact ⟨rfl, rfl⟩

theorem releaseNominal_commands_steady {s : State} (h : Emptied s) (hreplayed : s.plane.replay.cmdNew = []) : (releaseNominal s 1).steady = s.steady := by
  unfold releaseNominal
  split
  · exact releaseCommandTick_steady h hreplayed _
  · rfl

theorem releaseReady_steady (s : State) (l : Nat) (h : l ≠ 1) : (releaseReady s l).steady = s.steady := by
  unfold releaseReady
  dsimp only
  split
  · exact releaseTick_steady _ _ _ h
  · rfl

theorem releases_steady {s : State} (hidle : s.steady.Idle) (h : Emptied s) : (releases s).steady = s.steady := by
  obtain ⟨hsense, hheads⟩ := releaseNominal_sense s
  have hreplayed : (releaseNominal s 0).steady.replay.cmdNew = [] := by rw [hsense]; exact hidle.replayed
  have hcommands := releaseNominal_commands_steady (h.of_heads hheads) hreplayed
  have hbehind : ∀ (l : List Nat) (u : State), 1 ∉ l → (l.foldl releaseReady u).steady = u.steady := by
    intro l
    induction l with
    | nil => exact fun _ _ => rfl
    | cons n l ih =>
      intro u hn
      rw [List.mem_cons, not_or] at hn
      exact (ih _ hn.2).trans (releaseReady_steady u n (Ne.symm hn.1))
  unfold releases
  exact (hbehind _ _ (by decide)).trans (hcommands.trans hsense)

/-! The tick's work and the end of the tick. -/

theorem endWork_steady {s : State} (hidle : s.steady.Idle) (h : Emptied s) : (endWork s).steady = s.steady := by
  have hmarked := captureCheckpoint_steady s
  have hreleased : (releases (captureCheckpoint s)).steady = s.steady :=
    (releases_steady (hmarked.symm ▸ hidle) (h.of_heads (captureCheckpoint_heads s))).trans hmarked
  obtain ⟨u, hu⟩ : ∃ u, reflexTick (releases (captureCheckpoint s)) = u := ⟨_, rfl⟩
  have hreflex : u.steady = s.steady := by rw [← hu, reflexTick_steady, hreleased]
  have hcalm : u.steady.Idle := hreflex.symm ▸ hidle
  unfold endWork
  rw [startWork_idle hidle, hu, endFlights_idle hcalm, runTurns_idle hcalm, sealTick_steady, endRelease_steady, endFaulted_steady, answerReads_steady,
    settleLates_steady, timerSteps_steady, patternUpdates_steady, hreflex]

theorem finishTick_steady {s : State} (hidle : s.steady.Idle) (h : Emptied s) : (finishTick s).steady = s.steady := by
  unfold finishTick
  split
  · exact endWork_steady hidle h
  · rfl

theorem runResets_idle {s : State} (h : s.seq.resetDue = []) : runResets s = s := by
  have hseq : s.onSeq (fun q => { q with resetDue := [] }) = s := by
    rw [← h]
    rfl
  unfold runResets
  rw [h]
  exact hseq

theorem planeEnd_steady {s : State} (h : s.seq.resetDue = []) : (planeEnd s).steady = s.steady := by
  obtain ⟨u, hu⟩ : ∃ u, (if unlagged s = true then settleTick s else s) = u := ⟨_, rfl⟩
  have hsettled : u.steady = s.steady := by
    rw [← hu]
    split
    · exact settleTick_steady s
    · rfl
  obtain ⟨v, hv⟩ : ∃ v, noteIrq (noteUp (foTick (levelTick ((List.range 10).foldl countLateTick u)))) = v := ⟨_, rfl⟩
  have hcounted : v.steady = s.steady := by
    rw [← hv, noteIrq_steady, noteUp_steady, foTick_steady, levelTick_steady]
    exact (foldl_keeps State.steady _ (fun u l => countLateTick_steady u l) _ _).trans hsettled
  have hnone : v.seq.resetDue = [] := (congrArg (fun w : Steady => w.seq.resetDue) hcounted).trans h
  unfold planeEnd
  dsimp only
  rw [hu, hv]
  split
  · rw [runResets_idle hnone, hcounted]
  · exact hcounted

/-- A tick hall's own count of a hall in the next tick (R16). -/
def HallSt.ticked (h : HallSt) : HallSt := if h.on then { h with count := h.count + 1 } else h

/-- What a tick leaves: the clock of the dies, the halls and the frame of the internal link count on, and the tick hall acts on `tick`, has not acted on
`held` and counts `lin`. -/
def Steady.ticked (w : Steady) (tick held lin : Nat) (frame : L2Frame) : Steady :=
  { w with
    waits := { w.waits with now := w.waits.now + 1, posting := { w.waits.posting with tick := tick } }
    held := held, lin := lin, halls := w.halls.map HallSt.ticked, frame := frame
    saved := w.saved.map fun x => (x.1, x.2.advance) }

/-- The tick hall's counts of the next tick (R15, R34): either it acts on it, or it has one more that it has not acted on. -/
structure Counted (s : State) (tick held lin : Nat) (frame : L2Frame) : Prop where
  wall : tick + held = s.wallTick + 1
  count : lin + held = s.wallLin + 1
  carried : frame.lin = s.wallLin + 1

theorem planeNext_counts (s : State) : ∃ tick held lin frame, Counted s tick held lin frame ∧
    (planeNext s).steady = { s.steady with
      waits := { s.steady.waits with posting := { s.posting with tick := tick } }
      held := held, lin := lin, halls := s.plane.halls.map HallSt.ticked, frame := frame } := by
  unfold planeNext
  dsimp only
  split
  · refine ⟨s.plane.tick + 1, s.plane.held, s.plane.lin + 1, _, ⟨?_, ?_, ?_⟩, rfl⟩
    · unfold State.wallTick; omega
    · unfold State.wallLin; omega
    · rfl
  · refine ⟨s.plane.tick, s.plane.held + 1, s.plane.lin, _, ⟨?_, ?_, ?_⟩, rfl⟩
    · unfold State.wallTick; omega
    · unfold State.wallLin; omega
    · rfl

theorem diesTick_steady (s : State) :
    (diesTick s).steady = { s.steady with
      waits := { s.steady.waits with now := s.now + 1 }, saved := s.saved.map fun x => (x.1, x.2.advance) } := by
  unfold diesTick
  rw [fieldTick_steady, powerTick_steady]
  rfl

theorem wallTick_of_steady {s t : State} (h : t.steady = s.steady) : t.wallTick = s.wallTick := by
  have htick : t.plane.tick = s.plane.tick := congrArg (fun w : Steady => w.waits.posting.tick) h
  have hheld : t.plane.held = s.plane.held := congrArg Steady.held h
  unfold State.wallTick
  rw [htick, hheld]

theorem wallLin_of_steady {s t : State} (h : t.steady = s.steady) : t.wallLin = s.wallLin := by
  have hlin : t.plane.lin = s.plane.lin := congrArg Steady.lin h
  have hheld : t.plane.held = s.plane.held := congrArg Steady.held h
  unfold State.wallLin
  rw [hlin, hheld]

theorem running_of_steady {s t : State} (h : t.steady = s.steady) : t.plane.running = s.plane.running :=
  congrArg (fun w : Steady => w.waits.posting.running) h

theorem tickStep_steady {s : State} (hrun : s.plane.running = true) (h : s.seq.resetDue = []) :
    ∃ tick held lin frame, Counted s tick held lin frame ∧ (tickStep s).steady = s.steady.ticked tick held lin frame := by
  have hend := planeEnd_steady h
  obtain ⟨u, hu⟩ : ∃ u, holdTick (tagsTick (planeEnd s)) = u := ⟨_, rfl⟩
  have hheld : u.steady = s.steady := by rw [← hu, holdTick_steady, tagsTick_steady, hend]
  obtain ⟨tick, held, lin, frame, ⟨hwall, hcount, hcarried⟩, hnext⟩ := planeNext_counts u
  rw [wallTick_of_steady hheld] at hwall
  rw [wallLin_of_steady hheld] at hcount hcarried
  refine ⟨tick, held, lin, frame, ⟨hwall, hcount, hcarried⟩, ?_⟩
  have hstep : tickStep s = diesTick (planeNext u) := by
    unfold tickStep
    dsimp only
    rw [if_pos hrun, running_of_steady hend, if_pos hrun, hu]
  have hdies := diesTick_steady (planeNext u)
  have hnow : (planeNext u).now = u.now := congrArg (fun w : Steady => w.waits.now) hnext
  have hsaved : (planeNext u).saved = u.saved := congrArg Steady.saved hnext
  rw [hstep, hdies, hnext, hnow, hsaved]
  exact congrArg (fun w : Steady => w.ticked tick held lin frame) hheld

theorem idle_ticked {w : Steady} (h : w.Idle) (tick held lin : Nat) (frame : L2Frame) : (w.ticked tick held lin frame).Idle :=
  ⟨h.waiting, h.keeper, h.flights, h.replayed, h.poll, h.resets⟩

theorem lfTick_idle {s : State} (h : s.access.poll = none) : lfTick s = s := by
  unfold lfTick
  rw [h]

theorem stretches_stopped {s : State} (h : s.plane.replay.running = false) : stretches s = false := by
  unfold stretches
  dsimp only
  rw [h]
  rfl

theorem quiet_idle {s : State} (h : PlaneQuiet s) : s.steady.Idle ∧ Emptied s := by
  obtain ⟨-, hreplay, hwaiting, hkeeper, hrings, hpoll, hresets⟩ := h
  refine ⟨⟨hwaiting, hkeeper, fun r => ?_, ?_, hpoll, hresets⟩, fun r hr => (hrings r hr).1⟩
  · by_cases hr : r < 64
    · exact (hrings r hr).2
    · have hnone : vget s.plane.rings r = default := by simp [vget, hr]
      exact (congrArg Ring.flights hnone).trans rfl
  · exact congrArg Replay.cmdNew hreplay

theorem tickOn_steady {s : State} (hrun : s.plane.running = true) (hidle : s.steady.Idle) (hrings : Emptied s) (hroom : s.wallTick + 1 < 2 ^ 48) :
    ∃ tick held lin frame, Counted s tick held lin frame ∧ (tickOn s).steady = s.steady.ticked tick held lin frame := by
  have hdone := finishTick_steady hidle hrings
  obtain ⟨u, hu⟩ : ∃ u, finishTick s = u := ⟨_, rfl⟩
  rw [hu] at hdone
  have hrun' : u.plane.running = true := (running_of_steady hdone).trans hrun
  have hresets : u.seq.resetDue = [] := (congrArg (fun w : Steady => w.seq.resetDue) hdone).trans hidle.resets
  have hwall := wallTick_of_steady hdone
  obtain ⟨tick, held, lin, frame, ⟨hnext, hcount, hcarried⟩, hstep⟩ := tickStep_steady hrun' hresets
  rw [hwall] at hnext
  rw [wallLin_of_steady hdone] at hcount hcarried
  rw [hdone] at hstep
  refine ⟨tick, held, lin, frame, ⟨hnext, hcount, hcarried⟩, ?_⟩
  have hlast : ¬ (u.plane.running = true ∧ 2 ^ 48 - 1 ≤ u.wallTick) := by
    rw [hwall]
    omega
  have hcalm : (tickStep u).steady.Idle := hstep.symm ▸ idle_ticked hidle tick held lin frame
  unfold tickOn
  dsimp only
  rw [hu, if_neg hlast]
  split
  · rw [startWork_idle hcalm, hstep]
  · exact hstep

/-- A tick of a quiet tick hall counts on (R15, R16). -/
theorem tick_counts {s : State} (h : PlaneQuiet s) (hroom : s.wallTick + 1 < 2 ^ 48) :
    ∃ n held lin frame, Counted s n held lin frame ∧ (tick s).steady = s.steady.ticked n held lin frame := by
  obtain ⟨hidle, hrings⟩ := quiet_idle h
  obtain ⟨hrun, hreplay, -⟩ := h
  obtain ⟨n, held, lin, frame, hcounted, hon⟩ := tickOn_steady hrun hidle hrings hroom
  refine ⟨n, held, lin, frame, hcounted, ?_⟩
  have hpoll : (tickOn s).access.poll = none := (congrArg (fun w : Steady => w.waits.poll) hon).trans hidle.poll
  have hstretch : stretches s = false := stretches_stopped (congrArg Replay.running hreplay)
  unfold Machine.tick
  rw [hstretch, if_neg Bool.false_ne_true, lfTick_idle hpoll, hon]

theorem tick_quiet {s : State} (h : PlaneQuiet s) (hroom : s.wallTick + 1 < 2 ^ 48) :
    ∃ t, exec .tick s = .next t ∧ t.now = s.now + 1 ∧ t.wallTick = s.wallTick + 1 ∧ t.plane.epoch = s.plane.epoch ∧ t.plane.running = true ∧
      t.plane.frame.lin = s.wallLin + 1 ∧
      ∀ h, h < 9 → (vget s.plane.halls h).on = true → (vget t.plane.halls h).count = (vget s.plane.halls h).count + 1 := by
  obtain ⟨n, held, lin, frame, ⟨hwall, -, hcarried⟩, hticked⟩ := tick_counts h hroom
  refine ⟨(Machine.tick s).withPending s.pending, rfl, ?_, ?_, ?_, ?_, ?_, fun k hk hon => ?_⟩
  · exact congrArg (fun w : Steady => w.waits.now) hticked
  · have htick : (Machine.tick s).plane.tick = n := congrArg (fun w : Steady => w.waits.posting.tick) hticked
    have hheld : (Machine.tick s).plane.held = held := congrArg Steady.held hticked
    have hsum : (Machine.tick s).wallTick = n + held := by rw [← htick, ← hheld]; rfl
    exact hsum.trans hwall
  · exact congrArg (fun w : Steady => w.waits.posting.epoch) hticked
  · exact (congrArg (fun w : Steady => w.waits.posting.running) hticked).trans h.1
  · exact (congrArg (fun w : Steady => w.frame.lin) hticked).trans hcarried
  · have hhalls : (Machine.tick s).plane.halls = s.plane.halls.map HallSt.ticked := congrArg Steady.halls hticked
    have hcount : vget (s.plane.halls.map HallSt.ticked) k = (vget s.plane.halls k).ticked := by simp [vget, hk]
    have hgoal : (vget (Machine.tick s).plane.halls k).count = (vget s.plane.halls k).count + 1 := by
      rw [hhalls, hcount]
      simp [HallSt.ticked, hon]
    exact hgoal

theorem crystalLoss_posts {s : State} (hrun : s.plane.running = true) (hclock : s.plane.rcClock = false) :
    ∃ t, exec .crystalLoss s = .next t ∧ t.plane.rcClock = true ∧ t.plane.status.clockLoss = true ∧ t.plane.tick = s.plane.tick ∧
      Posted s t { s.ev 3 0x0106 0 0 with stamp := s.wallStamp } := by
  obtain ⟨u, hu⟩ : ∃ u, s.onPlane (fun p => { p with rcClock := true, status := { p.status with clockLoss := true } }) = u := ⟨_, rfl⟩
  obtain ⟨e, he⟩ : ∃ e, ({ s.ev 3 0x0106 0 0 with stamp := s.wallStamp } : Ev) = e := ⟨_, rfl⟩
  have hstep : crystalLoss s = postEvent u e := by
    unfold crystalLoss
    rw [hrun, hclock, ← hu, ← he]
    rfl
  have hposted : Posted s (postEvent u e) e := Posted.of_rings (postEvent_posted u e) (eventRings_congr (by rw [← hu]; rfl) (by rw [← hu]; rfl) (by rw [← hu]; rfl) e)
  have hstatus : (postEvent u e).plane.rcClock = u.plane.rcClock ∧ (postEvent u e).plane.status = u.plane.status ∧
      (postEvent u e).plane.tick = u.plane.tick := by
    unfold postEvent
    split <;> exact ⟨rfl, rfl, rfl⟩
  obtain ⟨hrc, hlost, htick⟩ := hstatus
  rw [he]
  refine ⟨(postEvent u e).withPending s.pending, congrArg (effect s) hstep, hrc.trans ?_, (congrArg (·.clockLoss) hlost).trans ?_, htick.trans ?_, hposted⟩
  · rw [← hu]; rfl
  · rw [← hu]; rfl
  · rw [← hu]; rfl

/-- Settles O15: the work of a tick with no packet on its way leaves every count of the tick hall (`endWork_steady`), and the step to the next tick moves
them all by one. -/
theorem ticksAndCrystalLossCount : Obligations.TicksAndCrystalLossCount :=
  ⟨fun _ hquiet hroom => tick_quiet hquiet hroom, fun _ hrun hclock => crystalLoss_posts hrun hclock⟩

end Sys2Proof.Machine

namespace Sys2Proof.Machine

open Sys2Proof.Claims

/-! The start of an epoch (R18). -/

/-- What the start of an epoch leaves: the epoch is the next one and stands in the store, and everything counts from its tick 0. -/
def Steady.restarted (w : Steady) (e : Nat) : Steady :=
  { w with
    waits := { w.waits with posting := { w.waits.posting with epoch := e, tick := 0 } }
    held := 0, lin := w.lin + w.held, halls := w.halls.map fun h => { h with count := 0 }, epoch := e
    saved := w.saved.map fun x => ({ x.1 with epoch := e }, x.2) }

theorem startEpoch_steady (s : State) : (startEpoch s).steady = s.steady.restarted (nextEpoch s.store.epoch) := by
  unfold startEpoch
  dsimp only
  rw [postEvent_steady]
  rfl

theorem nextEpoch_range (n : Nat) : 1 ≤ nextEpoch n ∧ nextEpoch n ≤ 65535 := by
  unfold nextEpoch
  split <;> omega

theorem posting_of_steady {s t : State} (h : t.steady = s.steady) : t.posting = s.posting := congrArg (fun w : Steady => w.waits.posting) h

theorem startEpoch_posted (s : State) (hrun : s.plane.running = true) :
    Posted (startEpoch s) (startEpoch s) { s.ev 3 0x0103 0 (nextEpoch s.store.epoch) with stamp := ⟨nextEpoch s.store.epoch, 0⟩ } := by
  obtain ⟨u, hu⟩ : ∃ u, restartTicks (commitEpoch s (nextEpoch s.store.epoch)) (nextEpoch s.store.epoch) = u := ⟨_, rfl⟩
  have hstart : startEpoch s = postEvent u (u.ev 3 0x0103 0 (nextEpoch s.store.epoch)) := by rw [← hu]; rfl
  have hevent : u.ev 3 0x0103 0 (nextEpoch s.store.epoch) = { s.ev 3 0x0103 0 (nextEpoch s.store.epoch) with stamp := ⟨nextEpoch s.store.epoch, 0⟩ } := by
    have hstamp : u.stamp = ⟨nextEpoch s.store.epoch, 0⟩ := by
      have hrunning : u.plane.running = true := by rw [← hu]; exact hrun
      unfold State.stamp
      rw [hrunning, if_pos rfl, ← hu]
      rfl
    unfold State.ev
    rw [hstamp]
  rw [hstart, hevent]
  refine Posted.of_rings (postEvent_posted u _) (eventRings_of_posting ?_ _)
  exact (posting_of_steady (postEvent_steady u _)).symm

theorem lastTick_steady {s : State} (hrun : s.plane.running = true) (h : s.seq.resetDue = []) :
    ∃ tick held lin frame, (lastTick s).steady = s.steady.ticked tick held lin frame := by
  have hreleased := releaseAll_steady s
  obtain ⟨n, held, lin, frame, -, hstep⟩ := tickStep_steady ((running_of_steady hreleased).trans hrun)
    ((congrArg (fun w : Steady => w.seq.resetDue) hreleased).trans h)
  exact ⟨n, held, lin, frame, hstep.trans (congrArg (fun w : Steady => w.ticked n held lin frame) hreleased)⟩

theorem epochRollover_starts {s : State} (hquiet : PlaneQuiet s) (hlast : s.wallTick = 2 ^ 48 - 1) :
    ∃ t, exec .epochRollover s = .next t ∧ t.plane.tick = 0 ∧ t.plane.epoch = nextEpoch s.store.epoch ∧ t.store.epoch = t.plane.epoch ∧
      1 ≤ t.plane.epoch ∧ t.plane.epoch ≤ 65535 ∧ t.seq.state = s.seq.state ∧
      Posted t t { s.ev 3 0x0103 0 t.plane.epoch with stamp := ⟨t.plane.epoch, 0⟩ } := by
  obtain ⟨hidle, hrings⟩ := quiet_idle hquiet
  obtain ⟨hrun, -⟩ := hquiet
  have hdone := finishTick_steady hidle hrings
  have hresets : (finishTick s).seq.resetDue = [] := (congrArg (fun w : Steady => w.seq.resetDue) hdone).trans hidle.resets
  obtain ⟨n, held, lin, frame, hstep⟩ := lastTick_steady ((running_of_steady hdone).trans hrun) hresets
  rw [hdone] at hstep
  obtain ⟨u, hu⟩ : ∃ u, lastTick (finishTick s) = u := ⟨_, rfl⟩
  rw [hu] at hstep
  have hepoch : u.store.epoch = s.store.epoch := congrArg Steady.epoch hstep
  have hrunning : u.plane.running = true := (congrArg (fun w : Steady => w.waits.posting.running) hstep).trans hrun
  have hstarted := startEpoch_steady u
  have hposts := startEpoch_posted u hrunning
  rw [hstep, hepoch] at hstarted
  rw [hepoch] at hposts
  have hcalm : (startEpoch u).steady.Idle := by
    rw [hstarted]
    exact ⟨hidle.waiting, hidle.keeper, hidle.flights, hidle.replayed, hidle.poll, hidle.resets⟩
  have hroll : epochRollover s = startEpoch u := by
    unfold epochRollover
    rw [if_pos ⟨hrun, hlast.ge⟩, hu, startWork_idle hcalm]
  have hnext : (startEpoch u).plane.epoch = nextEpoch s.store.epoch := congrArg (fun w : Steady => w.waits.posting.epoch) hstarted
  obtain ⟨hfirst, hend⟩ := nextEpoch_range s.store.epoch
  refine ⟨(startEpoch u).withPending s.pending, congrArg (effect s) hroll, congrArg (fun w : Steady => w.waits.posting.tick) hstarted, hnext,
    (congrArg Steady.epoch hstarted).trans hnext.symm, hfirst.trans_eq hnext.symm, hnext.trans_le hend, congrArg (fun w : Steady => w.seq.state) hstarted, ?_⟩
  have hposted : Posted (startEpoch u) (startEpoch u) { s.ev 3 0x0103 0 (startEpoch u).plane.epoch with stamp := ⟨(startEpoch u).plane.epoch, 0⟩ } := by
    rw [hnext]
    exact hposts
  exact hposted

/-! Entry to Beam (R18, R58). -/

/-- What an entry to Beam leaves of a tick's steady parts: all but the packets that wait, the halls, the domains and the SRAM of the application. -/
def Steady.lasting (w : Steady) : Steady :=
  { w with
    waits := { w.waits with keeper := [], waiting := [], flights := fun _ => [] }
    halls := Vector.replicate 9 {}, seq := { w.seq with pd := 0, appNeed := 0 } }

/-- What an entry to Beam leaves of a state. -/
def State.lasting (s : State) : Steady := s.steady.lasting

theorem lasting_of_steady {s t : State} (h : t.steady = s.steady) : t.lasting = s.lasting := congrArg Steady.lasting h

theorem hallOn_lasting (s : State) (h : Nat) : (hallOn s h).lasting = s.lasting := by
  unfold hallOn
  split <;> rfl

theorem hallOff_lasting (s : State) (h : Nat) : (hallOff s h).lasting = s.lasting := rfl

theorem setDomain_lasting (s : State) (d : Nat) (on : Bool) : (setDomain s d on).lasting = s.lasting := by
  unfold setDomain
  dsimp only
  split_ifs
  · rfl
  · split
    · exact (hallOn_lasting ..).trans rfl
    · rfl
  · split
    · exact (hallOff_lasting ..).trans rfl
    · rfl

theorem setLink_steady (s : State) (n st : Nat) : (setLink s n st).steady = s.steady := by
  unfold setLink
  split
  · rfl
  · exact (ethEvent_steady ..).trans (onPort_steady ..)

theorem startPort_steady (s : State) (n : Nat) : (startPort s n).steady = s.steady := by
  unfold startPort
  split
  · exact (setLink_steady ..).trans (onPort_steady ..)
  · rfl

theorem ethPowerOn_lasting (s : State) : (ethPowerOn s).lasting = s.lasting := by
  unfold ethPowerOn
  split
  · rfl
  · exact (lasting_of_steady (foldl_keeps State.steady _ (fun u n => startPort_steady u n) _ _)).trans (setDomain_lasting ..)

theorem wakePartners_steady (s : State) (ports : List Nat) : (wakePartners s ports).steady = s.steady := by
  unfold wakePartners
  refine foldl_keeps State.steady _ (fun u n => ?_) _ _
  split
  · exact onPort_steady ..
  · rfl

theorem beamDomains_lasting (s : State) : (beamDomains s).lasting = s.lasting := by
  unfold beamDomains
  rw [lasting_of_steady (wakePartners_steady _ _), ethPowerOn_lasting, setDomain_lasting, setDomain_lasting, setDomain_lasting]

theorem cancelHeld_lasting (s : State) (gone : Packet → Bool) : (cancelHeld s gone).lasting = s.lasting := by
  unfold cancelHeld
  exact (lasting_of_steady (foldl_keeps State.steady _ (fun u p => completeNow_steady ..) _ _)).trans rfl

theorem plainDevice_steady (s : State) (pt : Nat) (v : PVal) (events : List Ev) : (plainDevice s pt v events).steady = s.steady := by
  unfold plainDevice
  split
  · exact (postEvents_steady ..).trans (deviceApply_steady ..)
  · rfl

theorem showState_steady (s : State) (n : Nat) : (showState s n).steady = s.steady := plainDevice_steady ..

theorem tellLow_steady (s : State) : (tellLow s).steady = s.steady := by
  unfold tellLow
  refine foldl_keeps State.steady _ (fun u e => ?_) _ _
  split
  · exact (postEvent_steady ..).trans rfl
  · rfl

theorem startCapture_steady (s : State) (a : CapArm) (fromZero : Bool) : (startCapture s a fromZero).steady = s.steady :=
  (capPut_steady ..).trans rfl

theorem beginArmed_steady (s : State) : (beginArmed s).steady = s.steady := by
  obtain ⟨u, hu⟩ : ∃ u, (if s.store.capArm.armed ∧ !s.plane.capture.running ∧ !s.plane.replay.running then
    disarm (startCapture s s.store.capArm true) else s) = u := ⟨_, rfl⟩
  have hstarted : u.steady = s.steady := by
    rw [← hu]
    split
    · exact Eq.trans rfl (startCapture_steady s _ true)
    · rfl
  unfold beginArmed
  dsimp only
  rw [hu]
  split
  · exact (onTrial_steady ..).trans hstarted
  · exact hstarted

theorem openSession_steady (s : State) (i comp : Nat) : (openSession s i comp).steady = s.steady := by
  unfold openSession
  dsimp only
  refine (logDevice_steady ..).trans ((accessEvent_steady ..).trans ?_)
  split
  · exact (onAccess_steady _ _ rfl).trans (closeSession_steady ..)
  · exact (keeperPoint_steady ..).trans ((onAccess_steady _ _ rfl).trans (closeSession_steady ..))

theorem openBuoyGrant_steady (s : State) : (openBuoyGrant s).steady = s.steady := by
  unfold openBuoyGrant
  split
  · rfl
  · exact (openSession_steady ..).trans ((foldl_keeps State.steady _ (fun u v => capItem_steady ..) _ _).trans (onAccess_steady _ _ rfl))

/-- What an entry to Beam makes of the parts it leaves otherwise. -/
def Steady.inBeam (w : Steady) : Steady := { w with seq := { w.seq with state := .beam, ready := true }, target := none }

theorem setReady_lasting (s : State) : (setReady s).lasting = { s.lasting with seq := { s.lasting.seq with ready := true } } :=
  (lasting_of_steady (plainDevice_steady ..)).trans rfl

theorem showBeam_lasting (s : State) (need : Nat) : (showState (s.onSeq fun q => { q with state := .beam, appNeed := need }) 3).lasting =
    { s.lasting with seq := { s.lasting.seq with state := .beam } } :=
  (lasting_of_steady (showState_steady ..)).trans rfl

theorem clearTarget_lasting (s : State) : (s.onSleep fun x => { x with target := none }).lasting = { s.lasting with target := none } := rfl

theorem enterBeam_lasting {s : State} (hboot : s.image.bootFail = 0) (hreset : s.seq.inReset = false) (hbank : bankIn s 2 4 = none) :
    (enterBeam s).lasting = (s.steady.restarted (nextEpoch s.store.epoch)).lasting.inBeam := by
  have hgo : ¬ (s.image.bootFail ≠ 0 ∨ s.seq.inReset = true) := by simp [hboot, hreset]
  have hcount : countBoot s = s := by
    unfold countBoot
    rw [hbank]
  unfold enterBeam
  dsimp only
  rw [if_neg hgo, hcount, if_neg hgo]
  generalize (match activeApp (s.onImage fun x => { x with pairHeld := false }) with
    | some b => hSram (bank13 (s.onImage fun x => { x with pairHeld := false }) b).header
    | none => 0) = need
  obtain ⟨u, hu⟩ : ∃ u, startEpoch (s.onImage fun x => { x with pairHeld := false }) = u := ⟨_, rfl⟩
  have hstarted : u.lasting = (s.steady.restarted (nextEpoch s.store.epoch)).lasting := by
    rw [← hu]
    exact congrArg Steady.lasting (startEpoch_steady _)
  rw [hu, lasting_of_steady (openBuoyGrant_steady _), lasting_of_steady (postWakes_steady _ _), lasting_of_steady (tellLow_steady _),
    lasting_of_steady (beginArmed_steady _), setReady_lasting, clearTarget_lasting, showBeam_lasting, beamDomains_lasting, cancelHeld_lasting, hstarted]
  rfl

theorem reenterBeam_lasting {s : State} (hrun : s.plane.running = true) (hresets : s.seq.resetDue = []) (hboot : s.image.bootFail = 0)
    (hreset : s.seq.inReset = false) (hbank : bankIn s 2 4 = none) :
    ∃ tick held lin frame, (reenterBeam s).lasting = ((s.steady.ticked tick held lin frame).restarted (nextEpoch s.store.epoch)).lasting.inBeam := by
  obtain ⟨n, held, lin, frame, hlast⟩ := lastTick_steady hrun hresets
  refine ⟨n, held, lin, frame, ?_⟩
  unfold reenterBeam
  generalize lastTick s = u at hlast
  have hepoch : u.store.epoch = s.store.epoch := congrArg Steady.epoch hlast
  have hentered := enterBeam_lasting (s := u) ((congrArg Steady.bootFail hlast).trans hboot)
    ((congrArg (fun w : Steady => w.seq.inReset) hlast).trans hreset) ((congrArg Steady.tentative hlast).trans hbank)
  rw [hlast, hepoch] at hentered
  exact hentered

theorem beamEntry_enters {s : State} (hquiet : PlaneQuiet s) (hstate : s.seq.state = .lantern) (htarget : s.sleep.target = some 3)
    (hpair : s.sleep.pairStopAt = none) (hreset : s.seq.inReset = false) (hboot : s.image.bootFail = 0) (hbank : bankIn s 2 4 = none) :
    ∃ t, exec .beamEntry s = .next t ∧ t.plane.tick = 0 ∧ t.plane.epoch = nextEpoch s.store.epoch ∧ t.store.epoch = t.plane.epoch ∧
      t.seq.state = .beam ∧ t.seq.ready = true ∧ t.sleep.target = none := by
  obtain ⟨hidle, hrings⟩ := quiet_idle hquiet
  obtain ⟨hrun, -⟩ := hquiet
  have hdone := finishTick_steady hidle hrings
  have hdue : ∀ u : State, u.steady = s.steady → beamDue u = true := by
    intro u hu
    have hstate' : u.seq.state = .lantern := (congrArg (fun w : Steady => w.seq.state) hu).trans hstate
    have htarget' : u.sleep.target = some 3 := (congrArg Steady.target hu).trans htarget
    have hpair' : u.sleep.pairStopAt = none := (congrArg Steady.pairStopAt hu).trans hpair
    have hboot' : u.image.bootFail = 0 := (congrArg Steady.bootFail hu).trans hboot
    unfold beamDue
    rw [running_of_steady hu, hrun, hstate', htarget', hpair', hboot']
    rfl
  obtain ⟨u, hu⟩ : ∃ u, finishTick s = u := ⟨_, rfl⟩
  rw [hu] at hdone
  obtain ⟨n, held, lin, frame, hentered⟩ := reenterBeam_lasting (s := u) ((running_of_steady hdone).trans hrun)
    ((congrArg (fun w : Steady => w.seq.resetDue) hdone).trans hidle.resets) ((congrArg Steady.bootFail hdone).trans hboot)
    ((congrArg (fun w : Steady => w.seq.inReset) hdone).trans hreset) ((congrArg Steady.tentative hdone).trans hbank)
  have hepoch : (u).store.epoch = s.store.epoch := congrArg Steady.epoch hdone
  have hstep : (if beamDue s = true then beamEntry (finishTick s) else s) = reenterBeam u := by
    unfold beamEntry
    rw [hu, if_pos (hdue s rfl), if_pos (hdue _ hdone)]
  have hplane : (reenterBeam u).plane.epoch = nextEpoch s.store.epoch :=
    (congrArg (fun w : Steady => w.waits.posting.epoch) hentered).trans (congrArg nextEpoch hepoch)
  have hstore : (reenterBeam u).store.epoch = nextEpoch s.store.epoch := (congrArg Steady.epoch hentered).trans (congrArg nextEpoch hepoch)
  exact ⟨(reenterBeam u).withPending s.pending, congrArg (effect s) hstep, congrArg (fun w : Steady => w.waits.posting.tick) hentered, hplane,
    hstore.trans hplane.symm, congrArg (fun w : Steady => w.seq.state) hentered, congrArg (fun w : Steady => w.seq.ready) hentered,
    congrArg Steady.target hentered⟩

/-- Settles O16: the last tick of an epoch, worked through with no packet on its way, leaves what the new epoch is counted from, and the entry to Beam starts
that epoch. -/
theorem epochsStartAtTickZero : Obligations.EpochsStartAtTickZero :=
  ⟨fun _ hquiet hlast => epochRollover_starts hquiet hlast, fun _ hquiet hstate htarget hpair hreset hboot hbank =>
    beamEntry_enters hquiet hstate htarget hpair hreset hboot hbank⟩

end Sys2Proof.Machine

namespace Sys2Proof.Machine

open Sys2Proof.Claims

/-! What a restart of the epoch leaves of a store that no replay works on (R43). -/

theorem takeIn_steady (s : State) (p : Packet) : (takeIn s p).steady = s.steady := onRing_steady _ _ _ fun _ => rfl

theorem endUnadmitted_steady (st : Status) (r : Nat) : ∀ (n : Nat) (s : State), (endUnadmitted st r n s).steady = s.steady
  | 0, _ => rfl
  | n + 1, s => by
    unfold endUnadmitted
    split
    · exact (endUnadmitted_steady st r n _).trans ((completeAt_steady ..).trans (takeIn_steady ..))
    · rfl

theorem faultUnadmitted_steady (s : State) (f : Nat → Bool) : (faultUnadmitted s f).steady = s.steady := by
  unfold faultUnadmitted
  exact foldl_keeps State.steady _ (fun u r => endUnadmitted_steady ..) _ _

theorem cryptoDone_steady (s : State) (r slot : Nat) (d : List Byte) (st : Nat) (trust : Bool) (iv : List Byte) (gen : Nat) :
    (cryptoDone s r slot d st trust iv gen).steady = s.steady := by
  have hwritten : ∀ (u : State) (a : Option Nat) (l : List Byte), u.steady = s.steady →
      (match a with | some a => memWriteN u a l | none => u).steady = s.steady := by
    intro u a l hu
    split
    · exact (memWriteN_steady ..).trans hu
    · exact hu
  have hdone : ∀ u : State, u.steady = s.steady → (u.onRing r fun g => Ring.countIrq (g.complete slot none)).steady = s.steady := fun u hu =>
    (onRing_steady u r _ fun _ => (countIrq_flights _).trans (complete_flights ..)).trans hu
  exact Eq.trans rfl (hdone _ (hwritten _ _ _ (mirrorReply_steady ..)))

theorem releaseCtx_steady (s : State) (k : Nat) (rest : Option Nat) : (releaseCtx s k rest).steady = s.steady := by
  unfold releaseCtx noteIdle
  split <;> rfl

theorem failCtx_steady (s : State) (k : Nat) (st : Status) : (failCtx s k st).steady = s.steady := by
  unfold failCtx
  dsimp only
  split
  · rfl
  · split
    · exact (releaseCtx_steady ..).trans (cryptoDone_steady ..)
    · exact releaseCtx_steady ..

theorem dropQueue_steady (s : State) (n : Nat) : (dropQueue s n).steady = s.steady := by
  unfold dropQueue
  dsimp only
  split
  · rfl
  · exact (bump_steady ..).trans (onPort_steady ..)

theorem resetPacket_steady (s : State) : (resetPacket s).steady = s.steady := by
  unfold resetPacket
  refine (onEth_steady _ _).trans ((foldl_keeps State.steady _ (fun u n => ?_) _ _).trans ((dropQueue_steady ..).trans (dropQueue_steady ..)))
  exact (startPort_steady ..).trans ((setLink_steady ..).trans (dropQueue_steady ..))

theorem resetController_steady (s : State) (c : Nat) : (resetController s c).steady = s.steady := by
  unfold resetController
  refine (setCanState_steady ..).trans ((onCan_steady ..).trans ?_)
  unfold dropFrames
  exact foldl_keeps State.steady _ (fun u f => frameLeaves_steady ..) _ _

theorem resetLin_steady (s : State) (c : Nat) : (resetLin s c).steady = s.steady := by
  unfold resetLin
  exact (foldl_keeps State.steady _ (fun u w => completeNow_steady ..) _ _).trans (onLin_steady ..)

theorem resetBus_steady (s : State) : (resetBus s).steady = s.steady := by
  unfold resetBus
  dsimp only
  refine (foldl_keeps State.steady _ (fun u c => completeNow_steady ..) _ _).trans ((onBus_steady ..).trans ?_)
  exact (foldl_keeps State.steady _ (fun u c => resetLin_steady u c) _ _).trans (foldl_keeps State.steady _ (fun u c => resetController_steady u c) _ _)

theorem hallResponse_steady (s : State) (h : Nat) : (hallResponse s h).steady = s.steady := by
  unfold hallResponse
  split_ifs
  · exact faultUnadmitted_steady ..
  · exact foldl_keeps State.steady _ (fun u k => failCtx_steady ..) _ _
  · exact resetPacket_steady s
  · exact resetBus_steady s
  · rfl

theorem hallReset_steady (s : State) (h : Nat) : (hallReset s h).steady = s.steady :=
  (postEvent_steady ..).trans (Eq.trans rfl (hallResponse_steady s h))

theorem pairReset_steady (s : State) (pair cause index : Nat) : (pairReset s pair cause index).steady = s.steady :=
  (postEvent_steady ..).trans (faultUnadmitted_steady ..)

/-- The tick, the epoch, whether the tick hall runs, and the flights of the rings. -/
def Steady.course (w : Steady) : Bool × Nat × Nat × (Nat → List Flight) :=
  (w.waits.posting.running, w.waits.posting.epoch, w.waits.posting.tick, w.waits.flights)

theorem clock_of_course {s t : State} (h : t.steady.course = s.steady.course) : t.clock = s.clock :=
  (congrArg (fun w : Bool × Nat × Nat × (Nat → List Flight) => (w.1, w.2.1, w.2.2.1)) h :)

theorem flights_of_course {s t : State} (h : t.steady.course = s.steady.course) (k : Nat) : (t.ring k).flights = (s.ring k).flights :=
  (congrFun (congrArg (fun w : Bool × Nat × Nat × (Nat → List Flight) => w.2.2.2) h) k :)

theorem course_of_steady {s t : State} (h : t.steady = s.steady) : t.steady.course = s.steady.course := congrArg Steady.course h

theorem hallOn_steady_course (s : State) (h : Nat) : (hallOn s h).steady.course = s.steady.course := by
  unfold hallOn
  split <;> rfl

@[simp] theorem setDomain_steady_course (s : State) (d : Nat) (on : Bool) : (setDomain s d on).steady.course = s.steady.course := by
  unfold setDomain
  dsimp only
  split_ifs
  · rfl
  · split
    · exact (hallOn_steady_course ..).trans rfl
    · rfl
  · split <;> rfl

theorem ethPowerOn_steady_course (s : State) : (ethPowerOn s).steady.course = s.steady.course := by
  unfold ethPowerOn
  split
  · rfl
  · exact (course_of_steady (foldl_keeps State.steady _ (fun u n => startPort_steady u n) _ _)).trans (setDomain_steady_course ..)

@[simp] theorem beamDomains_steady_course (s : State) : (beamDomains s).steady.course = s.steady.course := by
  unfold beamDomains
  rw [wakePartners_steady, ethPowerOn_steady_course, setDomain_steady_course, setDomain_steady_course, setDomain_steady_course]

/-- No replay works on a view of the store. -/
def OwnStore (s : State) : Prop := s.saved = none ∧ s.plane.replay.running = false

/-- A step that no replay sees leaves the settings of the part's own store, and gives no ring a flight. -/
structure KeepsOwn (s t : State) : Prop where
  keeps : OwnStore s → OwnStore t ∧ t.store.settings = s.store.settings
  empty : ∀ k, (s.ring k).flights = [] → (t.ring k).flights = []

theorem KeepsOwn.refl (s : State) : KeepsOwn s s := ⟨fun h => ⟨h, rfl⟩, fun _ h => h⟩

theorem KeepsOwn.trans {s t u : State} (h : KeepsOwn s t) (h' : KeepsOwn t u) : KeepsOwn s u :=
  ⟨fun hown => ⟨(h'.keeps (h.keeps hown).1).1, (h'.keeps (h.keeps hown).1).2.trans (h.keeps hown).2⟩, fun k hk => h'.empty k (h.empty k hk)⟩

theorem ownStore_of_lasting {s t : State} (h : t.lasting = s.lasting) (hown : OwnStore s) : OwnStore t ∧ t.store.settings = s.store.settings :=
  ⟨⟨(congrArg Steady.saved h).trans hown.1, (congrArg (fun w : Steady => w.replay.running) h).trans hown.2⟩, congrArg Steady.settings h⟩

theorem KeepsOwn.of_steady {s t : State} (h : t.steady = s.steady) : KeepsOwn s t :=
  ⟨ownStore_of_lasting (lasting_of_steady h), fun k hk => (flights_of_course (course_of_steady h) k).trans hk⟩

/-- A fold of steps that keep the settings keeps them. -/
theorem KeepsOwn.foldl {α : Type} {f : State → α → State} (h : ∀ s a, KeepsOwn s (f s a)) (l : List α) (s : State) : KeepsOwn s (l.foldl f s) :=
  List.foldlRecOn (motive := fun t => KeepsOwn s t) l f (KeepsOwn.refl s) fun _ ht a _ => ht.trans (h _ a)

/-- The rings of a cleared plane have no flights. -/
theorem flights_of_bare (k : Nat) : (vget (Vector.replicate 64 ({} : Ring)) k).flights = [] := by
  by_cases hlt : k < 64
  · simp [vget, hlt]
  · have hout : vget (Vector.replicate 64 ({} : Ring)) k = default := by simp [vget, hlt]
    rw [hout]
    rfl

theorem clearLogic_keepsOwn (s : State) : KeepsOwn s (clearLogic s) := by
  refine ⟨fun ⟨hsaved, _⟩ => ⟨⟨rfl, rfl⟩, ?_⟩, fun k _ => flights_of_bare k⟩
  unfold clearLogic keptStore realStore
  rw [hsaved]
  rfl

theorem assertLogic_keepsOwn (s : State) (c : ResetCause) (supply : Bool) : KeepsOwn s (assertLogic s c supply) := by
  unfold assertLogic
  split
  · exact ⟨fun h => ⟨h, rfl⟩, fun _ h => h⟩
  · refine ((KeepsOwn.of_steady (endTrial_steady s 7 id)).trans (clearLogic_keepsOwn _)).trans ?_
    exact ⟨fun h => ⟨h, rfl⟩, fun _ h => h⟩

theorem runReset_keepsOwn (s : State) (d : ResetDue) : KeepsOwn s (runReset s d) := by
  have hshort : KeepsOwn s (if d.scope = 1 then pairReset s d.cause.index 12 d.cause.index else hallReset s d.cause.index) := by
    split
    · exact KeepsOwn.of_steady (pairReset_steady ..)
    · exact KeepsOwn.of_steady (hallReset_steady ..)
  unfold runReset
  dsimp only
  generalize (if d.scope = 1 then pairReset s d.cause.index 12 d.cause.index else hallReset s d.cause.index) = u at hshort
  split
  · exact KeepsOwn.refl s
  · split
    · exact (KeepsOwn.of_steady (sealSegment_steady s 7)).trans (assertLogic_keepsOwn ..)
    · split
      · exact hshort.trans (KeepsOwn.of_steady (completeNow_steady ..))
      · exact hshort

theorem runResets_keepsOwn (s : State) : KeepsOwn s (runResets s) :=
  KeepsOwn.trans (t := s.onSeq fun q => { q with resetDue := [] }) ⟨fun h => ⟨h, rfl⟩, fun _ h => h⟩ (KeepsOwn.foldl runReset_keepsOwn _ _)

theorem planeEnd_keepsOwn (s : State) : KeepsOwn s (planeEnd s) := by
  obtain ⟨u, hu⟩ : ∃ u, (if unlagged s = true then settleTick s else s) = u := ⟨_, rfl⟩
  have hsettled : u.steady = s.steady := by
    rw [← hu]
    split
    · exact settleTick_steady s
    · rfl
  obtain ⟨v, hv⟩ : ∃ v, noteIrq (noteUp (foTick (levelTick ((List.range 10).foldl countLateTick u)))) = v := ⟨_, rfl⟩
  have hcounted : v.steady = s.steady := by
    rw [← hv, noteIrq_steady, noteUp_steady, foTick_steady, levelTick_steady]
    exact (foldl_keeps State.steady _ (fun u l => countLateTick_steady u l) _ _).trans hsettled
  unfold planeEnd
  dsimp only
  rw [hu, hv]
  split
  · exact (KeepsOwn.of_steady hcounted).trans (runResets_keepsOwn v)
  · exact KeepsOwn.of_steady hcounted

theorem planeNext_keepsOwn (s : State) : KeepsOwn s (planeNext s) := by
  obtain ⟨n, held, lin, frame, -, hnext⟩ := planeNext_counts s
  exact ⟨fun h => ⟨⟨(congrArg Steady.saved hnext).trans h.1, (congrArg (fun w : Steady => w.replay.running) hnext).trans h.2⟩, congrArg Steady.settings hnext⟩,
    fun k hk => (congrFun (congrArg (fun w : Steady => w.waits.flights) hnext) k).trans hk⟩

theorem diesTick_keepsOwn (s : State) : KeepsOwn s (diesTick s) := by
  have hdies := diesTick_steady s
  refine ⟨fun h => ⟨⟨(congrArg Steady.saved hdies).trans ?_, (congrArg (fun w : Steady => w.replay.running) hdies).trans h.2⟩, congrArg Steady.settings hdies⟩,
    fun k hk => (congrFun (congrArg (fun w : Steady => w.waits.flights) hdies) k).trans hk⟩
  exact congrArg (Option.map _) h.1

theorem tickStep_keepsOwn (s : State) : KeepsOwn s (tickStep s) := by
  obtain ⟨u, hu⟩ : ∃ u, (if s.plane.running = true then planeEnd s else s) = u := ⟨_, rfl⟩
  have hended : KeepsOwn s u := by
    rw [← hu]
    split
    · exact planeEnd_keepsOwn s
    · exact KeepsOwn.refl s
  unfold tickStep
  dsimp only
  rw [hu]
  refine (hended.trans ?_).trans (diesTick_keepsOwn _)
  split
  · exact (KeepsOwn.of_steady ((holdTick_steady _).trans (tagsTick_steady u))).trans (planeNext_keepsOwn _)
  · exact KeepsOwn.refl u

theorem setBank_keepsOwn (s : State) (b state comp : Nat) (f : Bank13 → Bank13) : KeepsOwn s (setBank s b state comp f) :=
  KeepsOwn.trans (t := s.onBank13 b fun x => { f x with state := state }) ⟨fun h => ⟨h, rfl⟩, fun _ h => h⟩ (KeepsOwn.of_steady (imageEvent_steady ..))

theorem failBoot_keepsOwn (s : State) (cause : Nat) : KeepsOwn s (failBoot s cause) :=
  KeepsOwn.trans (t := s.onImage fun x => { x with bootFail := cause }) ⟨fun h => ⟨h, rfl⟩, fun _ h => h⟩ (KeepsOwn.of_steady (imageEvent_steady ..))

theorem revertApp_keepsOwn (s : State) (cause into comp : Nat) : KeepsOwn s (revertApp s cause into comp).1 := by
  unfold revertApp
  split
  · split
    · refine KeepsOwn.trans ?_ ((setBank_keepsOwn ..).trans (KeepsOwn.of_steady (imageEvent_steady ..)))
      split
      · exact setBank_keepsOwn ..
      · exact KeepsOwn.refl s
    · exact KeepsOwn.refl s
  · exact KeepsOwn.refl s

theorem countBoot_keepsOwn (s : State) : KeepsOwn s (countBoot s) := by
  unfold countBoot
  split
  · exact KeepsOwn.refl s
  · split
    · have hrevert := revertApp_keepsOwn s 1 6 0
      split
      · next u hu =>
        rw [hu] at hrevert
        exact hrevert
      · exact (setBank_keepsOwn ..).trans (failBoot_keepsOwn ..)
    · exact ⟨fun h => ⟨h, rfl⟩, fun _ h => h⟩

theorem startEpoch_keepsOwn (s : State) : KeepsOwn s (startEpoch s) := by
  have hstarted := startEpoch_steady s
  refine ⟨fun h => ⟨⟨(congrArg Steady.saved hstarted).trans ?_, (congrArg (fun w : Steady => w.replay.running) hstarted).trans h.2⟩, congrArg Steady.settings hstarted⟩,
    fun k hk => (congrFun (congrArg (fun w : Steady => w.waits.flights) hstarted) k).trans hk⟩
  exact congrArg (Option.map _) h.1

theorem showBeam_keepsOwn (s : State) (need : Nat) : KeepsOwn s (showState (s.onSeq fun q => { q with state := .beam, appNeed := need }) 3) :=
  KeepsOwn.trans (t := s.onSeq fun q => { q with state := .beam, appNeed := need }) ⟨fun h => ⟨h, rfl⟩, fun _ h => h⟩ (KeepsOwn.of_steady (showState_steady ..))

theorem setReady_keepsOwn (s : State) : KeepsOwn s (setReady s) :=
  KeepsOwn.trans (t := s.onSeq fun q => { q with ready := true }) ⟨fun h => ⟨h, rfl⟩, fun _ h => h⟩ (KeepsOwn.of_steady (plainDevice_steady ..))

theorem beamReady_keepsOwn (s : State) :
    KeepsOwn s (openBuoyGrant (postWakes (tellLow (beginArmed (setReady (s.onSleep fun x => { x with target := none }))))
      (tellLow (beginArmed (setReady (s.onSleep fun x => { x with target := none })))).stamp)) := by
  have hcleared : KeepsOwn s (s.onSleep fun x => { x with target := none }) := ⟨fun h => ⟨h, rfl⟩, fun _ h => h⟩
  refine (hcleared.trans (setReady_keepsOwn _)).trans (KeepsOwn.of_steady ?_)
  rw [openBuoyGrant_steady, postWakes_steady, tellLow_steady, beginArmed_steady]

theorem beamDomains_keepsOwn (s : State) : KeepsOwn s (beamDomains s) :=
  ⟨ownStore_of_lasting (beamDomains_lasting s), fun k hk => (flights_of_course (beamDomains_steady_course s) k).trans hk⟩

/-- A ring without a flight has none to trim. -/
theorem trimFlights_nil (gone : Packet → Bool) (g : Ring) (h : g.flights = []) : (trimFlights gone g).flights = [] := by simp [trimFlights, h]

/-- A ring whose flights are trimmed gets none. -/
theorem flights_of_trimmed (v : Vector Ring 64) (gone : Packet → Bool) (k : Nat) (h : (vget v k).flights = []) :
    (vget (v.map (trimFlights gone)) k).flights = [] := by
  by_cases hlt : k < 64
  · have hget : vget (v.map (trimFlights gone)) k = trimFlights gone (vget v k) := by simp [vget, hlt]
    rw [hget]
    exact trimFlights_nil _ _ h
  · have hout : vget (v.map (trimFlights gone)) k = default := by simp [vget, hlt]
    rw [hout]
    rfl

theorem cancelHeld_keepsOwn (s : State) (gone : Packet → Bool) : KeepsOwn s (cancelHeld s gone) := by
  have hdone (l : List Packet) (u : State) : KeepsOwn u (l.foldl (fun s p => completeNow s p .cancelled []) u) :=
    KeepsOwn.of_steady (foldl_keeps State.steady _ (fun u p => completeNow_steady ..) _ _)
  have htrim (f : List Waiting) (l : List Packet) :
      KeepsOwn s (s.onPlane fun p => { p with waiting := f, keeper := l, rings := p.rings.map (trimFlights gone) }) :=
    ⟨fun h => ⟨h, rfl⟩, fun k hk => flights_of_trimmed _ gone k hk⟩
  exact (htrim _ _).trans (hdone ((heldPackets s).filter gone) _)

theorem enterBeam_keepsOwn (s : State) : KeepsOwn s (enterBeam s) := by
  obtain ⟨u, hu⟩ : ∃ u, (if s.image.bootFail ≠ 0 ∨ s.seq.inReset = true then s else countBoot s) = u := ⟨_, rfl⟩
  have hcounted : KeepsOwn s u := by
    rw [← hu]
    split
    · exact KeepsOwn.refl s
    · exact countBoot_keepsOwn s
  unfold enterBeam
  dsimp only
  rw [hu]
  split
  · exact hcounted
  · have hheld : KeepsOwn u (u.onImage fun x => { x with pairHeld := false }) := ⟨fun h => ⟨h, rfl⟩, fun _ h => h⟩
    have hdomains : ∀ v : State, KeepsOwn v (beamDomains (cancelHeld v fun _ => true)) := fun v => (cancelHeld_keepsOwn ..).trans (beamDomains_keepsOwn _)
    exact hcounted.trans (hheld.trans ((startEpoch_keepsOwn _).trans ((hdomains _).trans ((showBeam_keepsOwn _ _).trans (beamReady_keepsOwn _)))))

theorem reenterBeam_keepsOwn (s : State) : KeepsOwn s (reenterBeam s) :=
  (KeepsOwn.of_steady (releaseAll_steady s)).trans ((tickStep_keepsOwn _).trans (enterBeam_keepsOwn _))

/-! The end of a replay (R45). -/

theorem settingsOf_of_settings {t : State} {x : Store} (h : t.store.settings = x.settings) : SettingsOf t x :=
  ⟨congrArg Settings.sys h, congrArg Settings.attrs h, congrArg Settings.rules h, congrArg Settings.load h, congrArg Settings.motor h,
    congrArg Settings.light h, congrArg Settings.input h, congrArg Settings.sleep h, congrArg Settings.watch h⟩

theorem emptyRing63_steady (s : State) : (emptyRing63 s).steady = s.steady := onRing_steady _ _ _ fun _ => rfl

theorem onReplay_steady (s : State) (f : Replay → Replay) :
    (s.onReplay f).steady = { s.steady with replay := { f s.plane.replay with lateExec := 0, cmdRing := [] } } := rfl

theorem endReplay_restores (s : State) (st : Status) :
    (endReplay s st).plane.replay.running = false ∧ (endReplay s st).saved = none ∧ (endReplay s st).store.settings = (realStore s).1.settings := by
  obtain ⟨u, hu⟩ : ∃ u : State, { s with store := (realStore s).1, rtc := (realStore s).2, saved := none } = u := ⟨_, rfl⟩
  obtain ⟨v, hv⟩ : ∃ v, (replayComplete (logReplay u 1 s.plane.replay.records s.plane.replay.matched (runningDigest s)) st
    (replayReply s.plane.replay (runningDigest s))).onReplay (fun _ => {}) = v := ⟨_, rfl⟩
  have hcompleted : (replayComplete (logReplay u 1 s.plane.replay.records s.plane.replay.matched (runningDigest s)) st
      (replayReply s.plane.replay (runningDigest s))).steady = u.steady := (completeNow_steady ..).trans (logDevice_steady ..)
  have hstopped : v.steady = { u.steady with replay := {} } := by
    rw [← hv, onReplay_steady, hcompleted]
  obtain ⟨w, hw⟩ : ∃ w, (if s.plane.replay.fromHost = true then emptyRing63 v else v) = w := ⟨_, rfl⟩
  have hring : w.steady = v.steady := by
    rw [← hw]
    split
    · exact emptyRing63_steady v
    · rfl
  have hpart := hring.trans hstopped
  have hown : OwnStore w := ⟨(congrArg Steady.saved hpart).trans (by rw [← hu]; rfl), congrArg (fun x : Steady => x.replay.running) hpart⟩
  have hsettings : w.store.settings = (realStore s).1.settings := (congrArg Steady.settings hpart).trans (by rw [← hu]; rfl)
  obtain ⟨⟨hsaved, hrunning⟩, hkept⟩ := (reenterBeam_keepsOwn w).keeps hown
  have hstep : (endReplay s st).steady = (reenterBeam w).steady := by
    unfold endReplay
    dsimp only
    rw [hu, hv, hw]
    generalize reenterBeam w = y
    rfl
  generalize endReplay s st = e at hstep ⊢
  exact ⟨(congrArg (fun x : Steady => x.replay.running) hstep).trans hrunning, (congrArg Steady.saved hstep).trans hsaved,
    (congrArg Steady.settings hstep).trans (hkept.trans hsettings)⟩

theorem endReplay_settings {s : State} {x : Store × Rtc} (st : Status) (h : s.saved = some x) : SettingsOf (endReplay s st) x.1 := by
  obtain ⟨-, -, hsettings⟩ := endReplay_restores s st
  refine settingsOf_of_settings (hsettings.trans ?_)
  unfold realStore
  rw [h]
  rfl

/-- A command that ends a replay answers a state without one. -/
theorem ended_of_effect {c : Instr} {s u : State} {x : Settings} {P : Store × Rtc → Prop} (hexec : exec c s = effect s u)
    (hended : u.plane.replay.running = false ∧ u.saved = none ∧ u.store.settings = x) (hsettings : ∀ y, P y → SettingsOf u y.1) :
    ∃ t, exec c s = .next t ∧ t.plane.replay.running = false ∧ t.saved = none ∧ ∀ y, P y → SettingsOf t y.1 :=
  ⟨u.withPending s.pending, hexec, hended.1, hended.2.1, hsettings⟩

theorem replayReaderLag_ends {r : CapRecord} {n lag : Nat} {s : State} (hnext : nextRecord s = some (r, n)) (hrun : s.plane.replay.running = true)
    (hbegun : s.plane.replay.begun = true) (hlive : s.plane.replay.live = true) (hlag : 64 < lag) (htick : r.stamp.tick + lag = s.wallTick) :
    ∃ t, exec (.replayReaderLag lag) s = .next t ∧ t.plane.replay.running = false ∧ t.saved = none ∧ ∀ x, s.saved = some x → SettingsOf t x.1 := by
  have hstep : exec (.replayReaderLag lag) s = effect s (endReplay s .timeout) := by
    have hexec : exec (.replayReaderLag lag) s = execReplayReaderLag lag s := rfl
    rw [hexec]
    unfold execReplayReaderLag
    rw [hnext]
    dsimp only
    rw [if_pos ⟨hrun, hbegun, hlive, hlag, htick⟩]
  exact ended_of_effect hstep (endReplay_restores s .timeout) fun x hx => endReplay_settings .timeout hx

theorem replayEnd_ends {s : State} (hdone : replayDone s = true) :
    ∃ t, exec .replayEnd s = .next t ∧ t.plane.replay.running = false ∧ t.saved = none ∧ ∀ x, (finishTick s).saved = some x → SettingsOf t x.1 := by
  obtain ⟨u, hu⟩ : ∃ u, finishTick s = u := ⟨_, rfl⟩
  have hstep : (if replayDone s = true then endReplay (finishTick s) .ok else s) = endReplay u .ok := by rw [if_pos hdone, hu]
  rw [hu]
  exact ended_of_effect (congrArg (effect s) hstep) (endReplay_restores u .ok) fun x hx => endReplay_settings .ok hx

/-! The start of a replay (R42, R43). -/

/-- What REPLAY.RUN makes of the replay. -/
def asked (p : Packet) (s : State) : Replay :=
  { running := true, packet := p, late := decide (dueTick false p s < s.plane.tick), live := p.bit 16 1, fromHost := p.bit 16 0
    stopAtMismatch := p.bit 17 0, runTicks := p.num 20 4 }

/-- Nothing keeps a replay from starting. -/
def MayReplay (s : State) : Prop := s.plane.capture.running = false ∧ s.plane.replay.running = false ∧ trialRuns s = false

theorem replayRun_idle {s : State} (p : Packet) (h : MayReplay s) :
    replayRunOp.run p s =
      if p.bit 16 0 then { s := emptyRing63 (writePending (s.onReplay fun _ => asked p s) p), st := none }
      else
        match s.plane.capture.area with
        | r :: rest => { s := beginReplay (writePending (s.onReplay fun _ => { asked p s with rest := rest }) p) r, st := none }
        | [] => { s := s.onReplay fun _ => asked p s, st := none } := by
  obtain ⟨hcapture, hreplay, htrial⟩ := h
  have hfree : ¬ (s.plane.capture.running = true ∨ s.plane.replay.running = true ∨ trialRuns s = true) := by simp [hcapture, hreplay, htrial]
  unfold replayRunOp
  dsimp only
  rw [if_neg hfree]
  rfl

theorem replayRun_host {p : Packet} {s : State} (h : KeeperRuns replayRunOp p s) (hfree : MayReplay s) (hhost : p.bit 16 0 = true) :
    ∃ t, exec (.replayRun p) s = .next t ∧ t.plane.replay.running = true ∧ t.plane.replay.fromHost = true ∧ t.plane.replay.begun = false ∧
      t.plane.replay.live = p.bit 16 1 ∧ t.plane.replay.packet = p ∧ t.plane.replay.runTicks = p.num 20 4 ∧ t.plane.results = s.plane.results ∧
      t.store = s.store ∧ (t.ring 63).head = (t.ring 63).tail := by
  obtain ⟨m, hpending⟩ := writePending_only ((release s p).onReplay fun _ => asked p (release s p)) p
  have hop := replayRun_idle (s := release s p) p hfree
  rw [if_pos hhost, hpending] at hop
  have htake := keeperTake_waits h rfl hop rfl
  refine ⟨_, congrArg (effect s) htake, rfl, hhost, rfl, rfl, rfl, rfl, rfl, rfl, ?_⟩
  exact (congrArg Ring.head (vget_vmod_same s.plane.rings 63 _ (by decide))).trans
    (congrArg Ring.tail (vget_vmod_same s.plane.rings 63 (fun g : Ring => { g with head := g.tail, batches := [] }) (by decide))).symm

theorem startDigests_congr {s t : State} (hstore : t.store = s.store) (himage : t.image = s.image) : startDigests t = startDigests s := by
  unfold startDigests replayDigest bankDigest bank13
  rw [hstore, himage]

/-- A replay of the capture area takes its START mark. -/
theorem replayRun_area {p : Packet} {r : CapRecord} {rest : List CapRecord} {s : State} (h : KeeperRuns replayRunOp p s) (hfree : MayReplay s)
    (harea : p.bit 16 0 = false) (hrecords : s.plane.capture.area = r :: rest) :
    ∃ m, keeperTake replayRunOp p s =
      beginReplay { (release s p).onReplay (fun _ => { asked p s with rest := rest }) with mem := m } r := by
  obtain ⟨m, hpending⟩ := writePending_only ((release s p).onReplay fun _ => { asked p (release s p) with rest := rest }) p
  have hop := replayRun_idle (s := release s p) p hfree
  have hlist : (release s p).plane.capture.area = r :: rest := hrecords
  rw [harea, if_neg Bool.false_ne_true, hlist] at hop
  dsimp only at hop
  rw [hpending] at hop
  exact ⟨m, keeperTake_waits h rfl hop rfl⟩

theorem replayRun_differs {p : Packet} {r : CapRecord} {rest : List CapRecord} {s : State} (h : KeeperRuns replayRunOp p s) (hfree : MayReplay s)
    (harea : p.bit 16 0 = false) (hrecords : s.plane.capture.area = r :: rest) (hstart : isStart r = true) (hdiffer : r.payload.take 128 ≠ startDigests s) :
    ∃ t, exec (.replayRun p) s = .next t ∧ Completed p .conflict s t ∧ t.plane.replay = {} ∧ t.store = s.store := by
  obtain ⟨m, htake⟩ := replayRun_area h hfree harea hrecords
  obtain ⟨u, hu⟩ : ∃ u : State, { (release s p).onReplay (fun _ => { asked p s with rest := rest }) with mem := m } = u := ⟨_, rfl⟩
  have hdigests : startDigests u = startDigests s := startDigests_congr (by rw [← hu]; rfl) (by rw [← hu]; rfl)
  have hhost : u.plane.replay.fromHost = false := by rw [← hu]; exact harea
  have hpacket : u.plane.replay.packet = p := by rw [← hu]; rfl
  have hbegin : beginReplay u r = (completeNow u p .conflict []).onReplay fun _ => {} := by
    unfold beginReplay refuseReplay
    dsimp only
    rw [hstart, hdigests, if_neg (by decide), if_pos hdiffer, hhost, hpacket]
    rfl
  rw [hu, hbegin] at htake
  have hclock : u.clock = s.clock := by rw [← hu]; rfl
  have hdone : Completed p .conflict s (completeNow u p .conflict []) := Completed.of_clock (completeNow_completed ..) hclock
  have hstore : (completeNow u p .conflict []).store = s.store := (completeNow_store ..).trans (by rw [← hu]; rfl)
  generalize completeNow u p .conflict [] = v at htake hdone hstore
  exact ⟨(v.onReplay fun _ => {}).withPending s.pending, congrArg (effect s) htake, hdone, rfl, hstore⟩

theorem loadCarried_steady (s : State) (b : List Byte) : (loadCarried s b).steady = s.steady := rfl

theorem replayRun_begins {p : Packet} {r : CapRecord} {rest : List CapRecord} {s : State} (h : KeeperRuns replayRunOp p s) (hfree : MayReplay s)
    (harea : p.bit 16 0 = false) (hrecords : s.plane.capture.area = r :: rest) (hstart : isStart r = true) (hsame : r.payload.take 128 = startDigests s)
    (hrun : s.plane.running = true) (hresets : s.seq.resetDue = []) (hreset : s.seq.inReset = false) (hboot : s.image.bootFail = 0)
    (hbank : bankIn s 2 4 = none) :
    ∃ t, exec (.replayRun p) s = .next t ∧ t.plane.replay.running = true ∧ t.plane.replay.begun = true ∧ t.plane.replay.rest = rest ∧
      t.plane.replay.records = 1 ∧ t.plane.tick = 0 ∧ t.plane.epoch = nextEpoch s.store.epoch ∧ t.saved.isSome = true := by
  obtain ⟨m, htake⟩ := replayRun_area h hfree harea hrecords
  obtain ⟨u, hu⟩ : ∃ u : State, { (release s p).onReplay (fun _ => { asked p s with rest := rest }) with mem := m } = u := ⟨_, rfl⟩
  have hdigests : startDigests u = startDigests s := startDigests_congr (by rw [← hu]; rfl) (by rw [← hu]; rfl)
  have hasked : u.steady = { (release s p).steady with replay := { asked p s with rest := rest } } := by rw [← hu]; rfl
  obtain ⟨v, hv⟩ : ∃ v, logReplay u 0 0 false [] = v := ⟨_, rfl⟩
  have hlogged : v.steady = u.steady := by rw [← hv]; exact logDevice_steady ..
  obtain ⟨w, hw⟩ : ∃ w, (loadCarried { v with saved := some (v.store, v.rtc) } r.payload).onReplay (fun q => { q with begun := true, records := 1 }) = w :=
    ⟨_, rfl⟩
  have hviewed : w.steady = { v.steady with
      saved := some (v.store, v.rtc), replay := { v.plane.replay with begun := true, records := 1, lateExec := 0, cmdRing := [] } } := by rw [← hw]; rfl
  have hbegin : beginReplay u r = reenterBeam w := by
    unfold beginReplay
    dsimp only
    rw [hstart, hdigests, if_neg (by decide), if_neg (not_not.2 hsame), hv, hw]
  rw [hu, hbegin] at htake
  have hreplay : w.steady.replay = { v.steady.replay with begun := true, records := 1 } := congrArg Steady.replay hviewed
  rw [hlogged, hasked] at hreplay hviewed
  obtain ⟨n, held, lin, frame, hentered⟩ := reenterBeam_lasting (s := w) ((congrArg (fun x : Steady => x.waits.posting.running) hviewed).trans hrun)
    ((congrArg (fun x : Steady => x.seq.resetDue) hviewed).trans hresets) ((congrArg Steady.bootFail hviewed).trans hboot)
    ((congrArg (fun x : Steady => x.seq.inReset) hviewed).trans hreset) ((congrArg Steady.tentative hviewed).trans hbank)
  have hepoch : w.store.epoch = s.store.epoch := congrArg Steady.epoch hviewed
  have hsaved : w.saved = some (v.store, v.rtc) := congrArg Steady.saved hviewed
  obtain ⟨t, ht⟩ : ∃ t, reenterBeam w = t := ⟨_, rfl⟩
  rw [ht] at htake hentered
  have hkept : { t.plane.replay with lateExec := 0, cmdRing := [] } = w.steady.replay := congrArg Steady.replay hentered
  rw [hreplay] at hkept
  refine ⟨t.withPending s.pending, congrArg (effect s) htake, congrArg Replay.running hkept, congrArg Replay.begun hkept, congrArg Replay.rest hkept,
    congrArg Replay.records hkept, congrArg (fun x : Steady => x.waits.posting.tick) hentered,
    (congrArg (fun x : Steady => x.waits.posting.epoch) hentered).trans (congrArg nextEpoch hepoch), ?_⟩
  have hview : t.saved = (w.saved.map fun x => (x.1, x.2.advance)).map fun x => ({ x.1 with epoch := nextEpoch w.store.epoch }, x.2) :=
    congrArg Steady.saved hentered
  have hsome : t.saved.isSome = true := by rw [hview, hsaved]; rfl
  exact hsome

/-! A record is read (R42, R106). -/

theorem replayRecordRead_feeds {r : CapRecord} {rest : List CapRecord} {s : State} (hrun : s.plane.replay.running = true)
    (hstop : s.plane.replay.stopRead = false) (hbegun : s.plane.replay.begun = true) (hhost : s.plane.replay.fromHost = false)
    (hrest : s.plane.replay.rest = r :: rest) (hgood : recordBad r = false) (hclass : r.cls = 1) (hcome : r.stamp.tick ≤ s.plane.tick) :
    ∃ t, exec .replayRecordRead s = .next t ∧ t.plane.replay.rest = rest ∧ t.plane.replay.records = s.plane.replay.records + 1 ∧
      (vget t.plane.landings 0).items = landInsert
        { stamp := ⟨s.plane.epoch, r.stamp.tick⟩, hall := r.hall, idx := pointIndex (r.word % 2 ^ 19)
          writes := [(r.word % 2 ^ 19, BitVec.ofNat 16 r.value)]
          events := (pointEvents (takeRecord s r 0) (r.word % 2 ^ 19) (BitVec.ofNat 16 r.value)).1.map fun e =>
            { e with stamp := ⟨s.plane.epoch, r.stamp.tick⟩ } }
        (vget s.plane.landings 0).items := by
  have hnext : nextRecord s = some (r, 0) := by
    unfold nextRecord
    rw [hhost, hrest]
    rfl
  have hepoch : endsEpoch s = false := by
    unfold endsEpoch
    rw [hnext, hrun, hstop]
    dsimp only
    rw [hbegun, hgood]
    rfl
  have hread : readRecord s = feedPoint (takeRecord s r 0) r := by
    unfold readRecord
    rw [hrun, hstop, hnext, if_neg (by decide)]
    dsimp only
    rw [hbegun, hgood, if_neg (by decide), if_neg (by decide), if_neg (by omega)]
    unfold feedRecord
    rw [if_pos hclass]
  obtain ⟨u, hu⟩ : ∃ u, takeRecord s r 0 = u := ⟨_, rfl⟩
  have htaken : u = s.onReplay fun q => { q with rest := q.rest.tail, records := q.records + 1, endTick := r.stamp.tick } := by
    rw [← hu]
    unfold takeRecord
    rw [hhost]
    rfl
  have hevents : (pointEvents u (r.word % 2 ^ 19) (BitVec.ofNat 16 r.value)).2.plane = u.plane := by
    unfold pointEvents
    dsimp only
    split_ifs <;> rfl
  obtain ⟨es, v, hpair⟩ : ∃ es v, pointEvents u (r.word % 2 ^ 19) (BitVec.ofNat 16 r.value) = (es, v) := ⟨_, _, rfl⟩
  rw [hpair] at hevents
  rw [hu] at hread ⊢
  have hfed : feedPoint u r = landPut v 0
      { stamp := ⟨s.plane.epoch, r.stamp.tick⟩, hall := r.hall, idx := pointIndex (r.word % 2 ^ 19)
        writes := [(r.word % 2 ^ 19, BitVec.ofNat 16 r.value)]
        events := es.map fun e => { e with stamp := ⟨s.plane.epoch, r.stamp.tick⟩ } } := by
    unfold feedPoint
    dsimp only
    rw [hpair, htaken]
    rfl
  have hstep : readRecord (if endsEpoch s = true then finishTick s else s) = feedPoint u r := by rw [hepoch, if_neg Bool.false_ne_true, hread]
  rw [hfed] at hstep
  have hplane : v.plane = (s.onReplay fun q => { q with rest := q.rest.tail, records := q.records + 1, endTick := r.stamp.tick }).plane := by
    rw [← htaken]
    exact hevents
  have hreplay := congrArg Plane.replay hplane
  have hlandings : v.plane.landings = s.plane.landings := (congrArg Plane.landings hplane :)
  rw [hpair]
  refine ⟨(landPut v 0 _).withPending s.pending, congrArg (effect s) hstep, ?_, congrArg Replay.records hreplay, ?_⟩
  · exact (congrArg Replay.rest hreplay).trans (congrArg List.tail hrest)
  · rw [← hlandings]
    exact congrArg Landing.items (vget_vmod_same v.plane.landings 0 _ (by decide))

/-- Settles O21: the settings of a view go with its store (`endReplay_restores`), whatever the tick that ends the replay's last epoch still does. -/
theorem replaysBeginFeedAndEnd : Obligations.ReplaysBeginFeedAndEnd :=
  ⟨fun _ _ h hcapture hreplay htrial hhost => replayRun_host h ⟨hcapture, hreplay, htrial⟩ hhost,
    fun _ _ _ _ h hcapture hreplay htrial harea hrecords hstart hdiffer =>
      replayRun_differs h ⟨hcapture, hreplay, htrial⟩ harea hrecords hstart hdiffer,
    fun _ _ _ _ h hcapture hreplay htrial harea hrecords hstart hsame hrun hresets hreset hboot hbank =>
      replayRun_begins h ⟨hcapture, hreplay, htrial⟩ harea hrecords hstart hsame hrun hresets hreset hboot hbank,
    fun _ _ _ hrun hstop hbegun hhost hrest hgood hclass hcome => replayRecordRead_feeds hrun hstop hbegun hhost hrest hgood hclass hcome,
    fun _ _ _ _ hnext hrun hbegun hlive hlag htick => replayReaderLag_ends hnext hrun hbegun hlive hlag htick,
    fun _ hdone => replayEnd_ends hdone⟩

end Sys2Proof.Machine

namespace Sys2Proof.Machine

open Sys2Proof.Claims

/-! What the boot chain leaves of the sequencer (R58, R328). -/

/-- What the boot chain leaves: the sequencer but for the value of VBATL that it has written, HOLD, whether a keeper image passes, whether the tick hall runs, and the time. -/
structure Booted where
  running : Bool
  seq : Seq
  hold : Bool
  dead : Bool
  now : Nat
  buoyAt : Nat

/-- What the boot chain leaves of a state. -/
def State.booted (s : State) : Booted := ⟨s.plane.running, { s.seq with vbatlWritten := 0 }, s.link.hold, s.image.dead, s.now, s.sleep.buoyAt⟩

theorem booted_of_steady {s t : State} (h : t.steady = s.steady) : t.booted = s.booted :=
  congrArg (fun w : Steady => (⟨w.waits.posting.running, { w.seq with vbatlWritten := 0 }, w.hold, w.dead, w.waits.now, w.buoyAt⟩ : Booted)) h

@[simp] theorem onStore_booted (s : State) (f : Store → Store) : (s.onStore f).booted = s.booted := rfl

@[simp] theorem onAccess_booted (s : State) (f : Access → Access) : (s.onAccess f).booted = s.booted := rfl

@[simp] theorem onPoints_booted (s : State) (f : Points → Points) : (s.onPoints f).booted = s.booted := rfl

@[simp] theorem onRing_booted (s : State) (r : Nat) (f : Ring → Ring) : (s.onRing r f).booted = s.booted := rfl

@[simp] theorem onWatch_booted (s : State) (f : Watch → Watch) : (s.onWatch f).booted = s.booted := rfl

@[simp] theorem onBus_booted (s : State) (f : Bus → Bus) : (s.onBus f).booted = s.booted := rfl

@[simp] theorem onCipher_booted (s : State) (f : Cipher → Cipher) : (s.onCipher f).booted = s.booted := rfl

@[simp] theorem onEth_booted (s : State) (f : Eth → Eth) : (s.onEth f).booted = s.booted := rfl

@[simp] theorem onInput_booted (s : State) (f : Inputs → Inputs) : (s.onInput f).booted = s.booted := rfl

@[simp] theorem onField_booted (s : State) (f : FieldLink → FieldLink) : (s.onField f).booted = s.booted := rfl

@[simp] theorem onLoad_booted (s : State) (f : LoadDie → LoadDie) : (s.onLoad f).booted = s.booted := rfl

@[simp] theorem onMotor_booted (s : State) (f : MotorDie → MotorDie) : (s.onMotor f).booted = s.booted := rfl

@[simp] theorem onLog_booted (s : State) (f : Logbook → Logbook) : (s.onLog f).booted = s.booted := rfl

@[simp] theorem onIvg_booted (s : State) (n : Nat) (f : IvgLink → IvgLink) : (s.onIvg n f).booted = s.booted := rfl

@[simp] theorem postEvent_booted (s : State) (e : Ev) : (postEvent s e).booted = s.booted := booted_of_steady (postEvent_steady ..)

@[simp] theorem imageEvent_booted (s : State) (kind address value comp : Nat) (extra : List Byte) :
    (imageEvent s kind address value comp extra).booted = s.booted := booted_of_steady (imageEvent_steady ..)

@[simp] theorem logDevice_booted (s : State) (type : Nat) (critical : Bool) (payload : List Byte) :
    (logDevice s type critical payload).booted = s.booted := booted_of_steady (logDevice_steady ..)

@[simp] theorem logWake_booted (s : State) (w : Latch) : (logWake s w).booted = s.booted := booted_of_steady (logWake_steady ..)

@[simp] theorem keeperPoint_booted (s : State) (pt v : Nat) : (keeperPoint s pt v).booted = s.booted := booted_of_steady (keeperPoint_steady ..)

@[simp] theorem capItem_booted (s : State) (r : CapRecord) (idx : Nat) : (capItem s r idx).booted = s.booted := booted_of_steady (capItem_steady ..)

@[simp] theorem setArmed_booted (s : State) (i : Nat) (b : Bool) : (setArmed s i b).booted = s.booted := booted_of_steady (setArmed_steady ..)

@[simp] theorem motorEvent_booted (s : State) (kind m value : Nat) : (motorEvent s kind m value).booted = s.booted :=
  booted_of_steady (observe_steady ..)

@[simp] theorem postEndEvents_booted (s : State) : (postEndEvents s).booted = s.booted := by
  unfold postEndEvents
  exact foldl_keeps State.booted _ (fun u e => motorEvent_booted ..) _ _

@[simp] theorem noteAdopt_booted (s : State) (ticks : Nat) (failed : Bool) : (noteAdopt s ticks failed).booted = s.booted := by simp [noteAdopt]

@[simp] theorem loadPoint_booted (s : State) (pt : Nat) (v : PVal) : (loadPoint s pt v).booted = s.booted := rfl

@[simp] theorem loadNat_booted (s : State) (pt n : Nat) : (loadNat s pt n).booted = s.booted := rfl

@[simp] theorem loadEach_booted (s : State) (n base : Nat) (f : State → Nat → Nat) : (loadEach s n base f).booted = s.booted := by
  unfold loadEach
  exact foldl_keeps State.booted _ (fun _ _ => by simp) _ _

@[simp] theorem loadSupply_booted (s : State) : (loadSupply s).booted = s.booted := by
  unfold loadSupply
  dsimp only
  rw [loadNat_booted, loadNat_booted, loadNat_booted, loadNat_booted, loadEach_booted]
  rfl

@[simp] theorem loadVirtual_booted (s : State) : (loadVirtual s).booted = s.booted := by
  unfold loadVirtual
  exact foldl_keeps State.booted _ (fun u e => loadNat_booted ..) _ _

@[simp] theorem loadAnalogue_booted (s : State) : (loadAnalogue s).booted = s.booted := by
  unfold loadAnalogue
  refine foldl_keeps State.booted _ (fun u n => ?_) _ _
  split <;> rfl

@[simp] theorem adoptOutputs_booted (s : State) : (adoptOutputs s).booted = s.booted := by
  unfold adoptOutputs
  refine (foldl_keeps State.booted _ (fun u n => loadEach_booted ..) _ _).trans ?_
  rw [loadEach_booted, loadEach_booted, loadEach_booted, loadEach_booted]

@[simp] theorem loadReferences_booted (s : State) : (loadReferences s).booted = s.booted := by
  unfold loadReferences
  refine (onInput_booted _ _).trans ((onField_booted _ _).trans ((foldl_keeps State.booted _ (fun u n => loadPoint_booted ..) _ _).trans ?_))
  exact foldl_keeps State.booted _ (fun u i => loadPoint_booted ..) _ _

@[simp] theorem loadField_booted (s : State) : (loadField s).booted = s.booted := by
  unfold loadField
  dsimp only
  rw [loadNat_booted, onField_booted, loadNat_booted, loadNat_booted, loadEach_booted, loadEach_booted, onField_booted]

@[simp] theorem armRules_booted (s : State) : (armRules s).booted = s.booted := by
  unfold armRules
  refine foldl_keeps State.booted _ (fun u e => ?_) _ _
  split
  · exact setArmed_booted ..
  · rfl

@[simp] theorem loadInputs_booted (s : State) : (loadInputs s).booted = s.booted := by
  unfold loadInputs
  refine (loadAnalogue_booted _).trans ((loadEach_booted ..).trans ((loadEach_booted ..).trans ((onAccess_booted ..).trans ?_)))
  exact loadEach_booted ..

@[simp] theorem loadPoints_booted (s : State) (wasAsleep : Bool) : (loadPoints s wasAsleep).booted = s.booted := by
  have hloaded : (loadVirtual (loadSupply (loadField (loadInputs (adoptOutputs s))))).booted = s.booted := by
    rw [loadVirtual_booted, loadSupply_booted, loadField_booted, loadInputs_booted, adoptOutputs_booted]
  unfold loadPoints
  dsimp only
  generalize loadVirtual (loadSupply (loadField (loadInputs (adoptOutputs s)))) = u at hloaded
  rw [armRules_booted]
  split
  · exact (loadReferences_booted u).trans hloaded
  · exact hloaded

@[simp] theorem startNets_booted (s : State) : (startNets s).booted = s.booted := rfl

@[simp] theorem startLink_booted (s : State) (n : Nat) : (startLink s n).booted = s.booted := rfl

@[simp] theorem startLinks_booted (s : State) : (startLinks s).booted = s.booted := by
  unfold startLinks
  refine foldl_keeps State.booted _ (fun u n => ?_) _ _
  split <;> rfl

@[simp] theorem setRingSize_booted (s : State) (r n : Nat) : (setRingSize s r n).booted = s.booted := by
  unfold setRingSize
  dsimp only
  split <;> simp

@[simp] theorem applyDump_booted (s : State) (i : Nat) : (applyDump s i).booted = s.booted := by
  unfold applyDump
  dsimp only
  split_ifs <;> simp

@[simp] theorem resumeSas_booted (s : State) : (resumeSas s).booted = s.booted := rfl

@[simp] theorem enableStream_booted (s : State) (k : Nat) : (enableStream s k).booted = s.booted := by
  unfold enableStream
  dsimp only
  split_ifs <;> rfl

@[simp] theorem startStreams_booted (s : State) : (startStreams s).booted = s.booted := by
  unfold startStreams
  refine foldl_keeps State.booted _ (fun u k => ?_) _ _
  dsimp only
  split
  · exact (enableStream_booted ..).trans rfl
  · rfl

@[simp] theorem applyStore_booted (s : State) : (applyStore s).booted = s.booted := by
  have hstarted : (startLinks (startStreams (startNets { s with ret := { s.ret with hold := s.store.load.hold } }))).booted = s.booted := by
    rw [startLinks_booted, startStreams_booted, startNets_booted]
    rfl
  unfold applyStore
  dsimp only
  generalize startLinks (startStreams (startNets { s with ret := { s.ret with hold := s.store.load.hold } })) = u at hstarted
  exact (foldl_keeps State.booted _ (fun v i => applyDump_booted ..) _ _).trans ((resumeSas_booted _).trans hstarted)

@[simp] theorem failBoot_booted (s : State) (cause : Nat) : (failBoot s cause).booted = s.booted := (imageEvent_booted ..).trans rfl

@[simp] theorem setBank_booted (s : State) (b state comp : Nat) (f : Bank13 → Bank13) : (setBank s b state comp f).booted = s.booted :=
  (imageEvent_booted ..).trans rfl

@[simp] theorem revertApp_booted (s : State) (cause into comp : Nat) : (revertApp s cause into comp).1.booted = s.booted := by
  unfold revertApp
  split
  · split
    · refine (imageEvent_booted ..).trans ((setBank_booted ..).trans ?_)
      split
      · exact setBank_booted ..
      · rfl
    · rfl
  · rfl

@[simp] theorem writeSeal_booted (s : State) : (writeSeal s).booted = s.booted := rfl

@[simp] theorem bootCharters_booted (s : State) : (bootCharters s).booted = s.booted := by
  have hverified : ∀ u : State, (if sealIntact u = true ∨ charterSetOk u = true then u else failBoot u 1).booted = u.booted := by
    intro u
    split
    · rfl
    · exact failBoot_booted ..
  unfold bootCharters
  dsimp only
  refine (hverified _).trans ?_
  split <;> rfl

@[simp] theorem noteLock_booted (s : State) : (noteLock s).booted = s.booted := by
  unfold noteLock
  split
  · exact (imageEvent_booted ..).trans rfl
  · rfl

@[simp] theorem dropTransfers_booted (s : State) : (dropTransfers s).booted = s.booted := by
  unfold dropTransfers
  refine foldl_keeps State.booted _ (fun u b => ?_) _ _
  split
  · exact setBank_booted ..
  · rfl

@[simp] theorem bootApp_booted (s : State) : (bootApp s).booted = s.booted := by
  have hrevert := revertApp_booted s 3 6 0
  have hfailed : ∀ b : Option Nat, (match b with | some b => setBank s b 6 0 | none => s).booted = s.booted := by
    rintro (_ | b)
    · rfl
    · exact setBank_booted ..
  unfold bootApp
  by_cases hfail : s.image.bootFail ≠ 0
  · rw [if_pos hfail]
  · rw [if_neg hfail]
    split_ifs
    · rfl
    · generalize revertApp s 3 6 0 = x at hrevert
      obtain ⟨u, ok⟩ := x
      cases ok with
      | true => exact hrevert
      | false => exact (failBoot_booted ..).trans (hfailed _)

@[simp] theorem mapStreams_booted (s : State) (h : Nat) (f : Nat → LStream → LStream) : (mapStreams s h f).booted = s.booted := rfl

@[simp] theorem joinLandings_booted (s : State) (h : Nat) : (joinLandings s h).booted = s.booted := rfl

@[simp] theorem loadSlot_booted (s : State) (k : Nat) (x : KeySlot) : (loadSlot s k x).booted = s.booted := rfl

@[simp] theorem loadOwnerSlots_booted (s : State) : (loadOwnerSlots s).booted = s.booted := by
  unfold loadOwnerSlots
  exact foldl_keeps State.booted _ (fun u k => loadSlot_booted ..) _ _

@[simp] theorem loadKeeperSlots_booted (s : State) : (loadKeeperSlots s).booted = s.booted := by
  unfold loadKeeperSlots
  refine (loadOwnerSlots_booted _).trans ((loadSlot_booted ..).trans ?_)
  exact foldl_keeps State.booted _ (fun u k => loadSlot_booted ..) _ _

@[simp] theorem revertKeeper_booted (s : State) (cause into comp : Nat) : (revertKeeper s cause into comp).1.booted = s.booted := by
  unfold revertKeeper
  split
  · split
    · refine (imageEvent_booted ..).trans ((setBank_booted ..).trans ?_)
      split
      · exact setBank_booted ..
      · rfl
    · rfl
  · rfl

@[simp] theorem driveAntennas_booted (s : State) (q : Poll) (mask : Nat) (on : Bool) : (driveAntennas s q mask on).booted = s.booted := by
  unfold driveAntennas
  exact foldl_keeps State.booted _ (fun _ _ => by simp) _ _

@[simp] theorem drawBytes_booted (s : State) (n : Nat) : (s.drawBytes n).2.booted = s.booted := rfl

@[simp] theorem drawPlane_booted (s : State) (n use : Nat) : (drawPlane s n use).2.booted = s.booted := by
  unfold drawPlane
  dsimp only
  refine (capItem_booted ..).trans ?_
  split
  · split <;> rfl
  · rfl
  · rfl

@[simp] theorem logWakes_booted (s : State) : (logWakes s).booted = s.booted := by
  unfold logWakes
  exact foldl_keeps State.booted _ (fun _ _ => by simp) _ _

@[simp] theorem onPoll_booted (s : State) (f : Poll → Poll) : (s.onPoll f).booted = s.booted := rfl

@[simp] theorem keepPoll_booted (s : State) : (keepPoll s).booted = s.booted := by
  unfold keepPoll
  split
  · rfl
  · exact (onPoll_booted ..).trans (foldl_keeps State.booted _ (fun u v => capItem_booted ..) _ _)

/-! A start ends in Lantern or in Beam (R58, R64). -/

/-- What the steps of a start leave: as `Booted`, but for the domains and the SRAM of the application. -/
def Booted.rough (b : Booted) : Booted := { b with seq := { b.seq with pd := 0, appNeed := 0 } }

/-- What the steps of a start leave of a state. -/
def State.roughly (s : State) : Booted := s.booted.rough

theorem roughly_of_booted {s t : State} (h : t.booted = s.booted) : t.roughly = s.roughly := congrArg Booted.rough h

theorem roughly_of_lasting {s t : State} (h : t.lasting = s.lasting) : t.roughly = s.roughly :=
  congrArg (fun w : Steady => (⟨w.waits.posting.running, { w.seq with vbatlWritten := 0 }, w.hold, w.dead, w.waits.now, w.buoyAt⟩ : Booted)) h

theorem roughly_of_steady {s t : State} (h : t.steady = s.steady) : t.roughly = s.roughly := roughly_of_booted (booted_of_steady h)

theorem countBoot_booted (s : State) : (countBoot s).booted = s.booted := by
  unfold countBoot
  split
  · rfl
  · split
    · have hrevert := revertApp_booted s 1 6 0
      generalize revertApp s 1 6 0 = x at hrevert
      obtain ⟨u, ok⟩ := x
      cases ok with
      | true => exact hrevert
      | false => exact (failBoot_booted ..).trans (setBank_booted ..)
    · rfl

theorem startEpoch_roughly (s : State) : (startEpoch s).roughly = s.roughly := by
  have hstarted := startEpoch_steady s
  exact congrArg (fun w : Steady =>
    (⟨w.waits.posting.running, { w.seq with pd := 0, appNeed := 0, vbatlWritten := 0 }, w.hold, w.dead, w.waits.now, w.buoyAt⟩ : Booted)) hstarted

/-- The device shows that it is awake. -/
def Booted.awake (b : Booted) (st : DevState) : Booted := { b with seq := { b.seq with state := st, ready := true } }

theorem setReady_roughly (s : State) : (setReady s).roughly = { s.roughly with seq := { s.roughly.seq with ready := true } } :=
  (roughly_of_steady (plainDevice_steady ..)).trans rfl

theorem enterBeam_roughly (s : State) : (enterBeam s).roughly = s.roughly ∨ (enterBeam s).roughly = s.roughly.awake .beam := by
  obtain ⟨u, hu⟩ : ∃ u, (if s.image.bootFail ≠ 0 ∨ s.seq.inReset = true then s else countBoot s) = u := ⟨_, rfl⟩
  have hcounted : u.roughly = s.roughly := by
    rw [← hu]
    split
    · rfl
    · exact roughly_of_booted (countBoot_booted s)
  have hstarted : (startEpoch (u.onImage fun x => { x with pairHeld := false })).roughly = s.roughly := (startEpoch_roughly _).trans hcounted
  have hdomains : ∀ v : State, (beamDomains (cancelHeld v fun _ => true)).roughly = v.roughly := fun v =>
    roughly_of_lasting ((beamDomains_lasting _).trans (cancelHeld_lasting ..))
  have hshown : ∀ (v : State) (need : Nat), (showState (v.onSeq fun q => { q with state := .beam, appNeed := need }) 3).roughly =
      { v.roughly with seq := { v.roughly.seq with state := .beam } } := fun v need => (roughly_of_steady (showState_steady ..)).trans rfl
  have hready : ∀ v : State, (openBuoyGrant (postWakes (tellLow (beginArmed (setReady (v.onSleep fun x => { x with target := none }))))
      (tellLow (beginArmed (setReady (v.onSleep fun x => { x with target := none })))).stamp)).roughly =
      { v.roughly with seq := { v.roughly.seq with ready := true } } := by
    intro v
    rw [roughly_of_steady (openBuoyGrant_steady _), roughly_of_steady (postWakes_steady ..), roughly_of_steady (tellLow_steady _),
      roughly_of_steady (beginArmed_steady _), setReady_roughly]
    rfl
  unfold enterBeam
  dsimp only
  rw [hu]
  split
  · exact .inl hcounted
  · refine .inr ((hready _).trans ?_)
    rw [hshown, hdomains, hstarted]
    rfl

theorem portOff_steady (s : State) (n : Nat) : (portOff s n).steady = s.steady := (setLink_steady ..).trans (dropQueue_steady ..)

theorem ethPowerOff_lasting (s : State) : (ethPowerOff s).lasting = s.lasting := by
  unfold ethPowerOff
  split
  · refine Eq.trans rfl ((setDomain_lasting ..).trans (lasting_of_steady ((dropQueue_steady ..).trans ((dropQueue_steady ..).trans ?_))))
    exact foldl_keeps State.steady _ (fun u n => portOff_steady u n) _ _
  · rfl

theorem powerPorts_lasting (s : State) : (powerPorts s).lasting = s.lasting := by
  unfold powerPorts
  split_ifs
  · rfl
  · exact ethPowerOn_lasting s
  · exact ethPowerOff_lasting s

theorem enterLantern_roughly (s : State) : (enterLantern s).roughly = s.roughly.awake .lantern := by
  have hshown : (showState (s.onSeq fun q => { q with state := .lantern }) 2).roughly = { s.roughly with seq := { s.roughly.seq with state := .lantern } } :=
    (roughly_of_steady (showState_steady ..)).trans rfl
  obtain ⟨u, hu⟩ : ∃ u, tellLow (powerPorts (showState (s.onSeq fun q => { q with state := .lantern }) 2)) = u := ⟨_, rfl⟩
  have hports : u.roughly = { s.roughly with seq := { s.roughly.seq with state := .lantern } } := by
    rw [← hu, roughly_of_steady (tellLow_steady _), roughly_of_lasting (powerPorts_lasting _), hshown]
  obtain ⟨v, hv⟩ : ∃ v, (if keepsPd5 u = true then setDomain u 5 true else u) = v := ⟨_, rfl⟩
  have hpower : v.roughly = u.roughly := by
    rw [← hv]
    split
    · exact roughly_of_lasting (setDomain_lasting ..)
    · rfl
  unfold enterLantern
  dsimp only
  rw [hu, hv, roughly_of_steady (openBuoyGrant_steady _), roughly_of_steady (postWakes_steady ..), setReady_roughly]
  have hcleared : (v.onSleep fun x => { x with target := none }).roughly = v.roughly := rfl
  rw [hcleared, hpower, hports]
  rfl

theorem leaveHold_booted (s : State) : (leaveHold s).booted = { s.booted with hold := false } := by
  unfold leaveHold
  dsimp only
  unfold acceptAdopt
  rw [if_pos ⟨rfl, rfl⟩]
  rfl

/-- HOLD and the reset are over. -/
def Booted.released (b : Booted) : Booted := { b with hold := false, seq := { b.seq with inReset := false, supplyReset := false, starting := false } }

/-- The device is awake, with what a start leaves of `b`. -/
def AwakeFrom (b : Booted) (t : State) : Prop := t.roughly = b.released.awake .lantern ∨ t.roughly = b.released.awake .beam

theorem AwakeFrom.of_roughly {b : Booted} {t u : State} (h : AwakeFrom b t) (hkept : u.roughly = t.roughly) : AwakeFrom b u :=
  h.imp hkept.trans hkept.trans

/-- After the entry to Beam, where there is one, a device that is not in Beam enters Lantern. -/
theorem awakeFrom_entered {s u : State} {b : Booted} (hs : s.roughly = b.released) (hstate : b.seq.state ≠ .beam)
    (hentered : u = s ∨ u = enterBeam s) : AwakeFrom b (if u.seq.state = .beam then u else enterLantern u) := by
  have hparts : u.roughly = b.released ∨ u.roughly = b.released.awake .beam := by
    rcases hentered with rfl | rfl
    · exact .inl hs
    · exact (enterBeam_roughly s).imp (·.trans hs) (·.trans (congrArg (Booted.awake · .beam) hs))
  split
  · next hbeam =>
    rcases hparts with h | h
    · exact absurd ((congrArg (fun w : Booted => w.seq.state) h).symm.trans hbeam) hstate
    · exact .inr h
  · next hnot =>
    rcases hparts with h | h
    · exact .inl (by rw [enterLantern_roughly, h])
    · exact absurd (congrArg (fun w : Booted => w.seq.state) h) hnot

theorem ite_roughly {c : Prop} [Decidable c] {s u v : State} (hu : u.roughly = s.roughly) (hv : v.roughly = s.roughly) :
    (if c then u else v).roughly = s.roughly := by
  split
  · exact hu
  · exact hv

theorem completeStart_awakens {s : State} (kind : StartKind) (target : Nat) (hstate : s.seq.state ≠ .beam) :
    AwakeFrom s.roughly (completeStart s kind target) := by
  obtain ⟨u, hu⟩ : ∃ u, applyStore (dropTransfers (bootApp (bootCharters s))) = u := ⟨_, rfl⟩
  have hstored : u.booted = s.booted := by
    rw [← hu, applyStore_booted, dropTransfers_booted, bootApp_booted, bootCharters_booted]
  obtain ⟨v, hv⟩ : ∃ v, loadPoints { u with pins := { u.pins with irqApplied := true } } (kind == .asleep) = v := ⟨_, rfl⟩
  have hloaded : v.booted = s.booted := by
    rw [← hv, loadPoints_booted]
    exact Eq.trans rfl hstored
  obtain ⟨w, hw⟩ : ∃ w, (if v.image.bootFail = 0 then writeSeal v else v) = w := ⟨_, rfl⟩
  have hsealed : w.booted = s.booted := by
    rw [← hw]
    split
    · exact (writeSeal_booted v).trans hloaded
    · exact hloaded
  obtain ⟨x, hx⟩ : ∃ x, (leaveHold w).onSeq (fun q => { q with inReset := false, supplyReset := false, starting := false }) = x := ⟨_, rfl⟩
  have hreleased : x.roughly = s.roughly.released := by
    have hleft := leaveHold_booted w
    rw [← hx]
    generalize leaveHold w = y at hleft
    have hpart : y.booted = { s.booted with hold := false } := by rw [hleft, hsealed]
    exact congrArg (fun b : Booted => { b.rough with seq := { b.rough.seq with inReset := false, supplyReset := false, starting := false } }) hpart
  obtain ⟨y, hy⟩ : ∃ y, (if x.image.bootFail = 0 ∧ target = 3 then enterBeam x else x) = y := ⟨_, rfl⟩
  have hentered : y = x ∨ y = enterBeam x := by
    rw [← hy]
    split
    · exact .inr rfl
    · exact .inl rfl
  have hawake := awakeFrom_entered (b := s.roughly) hreleased hstate hentered
  unfold completeStart
  dsimp only
  rw [hu, hv, hw, hx, hy]
  generalize (if y.seq.state = .beam then y else enterLantern y) = z at hawake
  refine hawake.of_roughly ?_
  rw [roughly_of_booted (postEndEvents_booted _), roughly_of_booted (noteLock_booted _)]
  refine (ite_roughly (roughly_of_steady (blockRelease_steady ..)) rfl).trans ?_
  refine (ite_roughly (roughly_of_steady (logDevice_steady ..)) rfl).trans ?_
  refine (ite_roughly (roughly_of_booted (noteAdopt_booted ..)) rfl).trans ?_
  exact ite_roughly rfl (roughly_of_steady ((logDevice_steady ..).trans (postEvent_steady ..)))

end Sys2Proof.Machine

namespace Sys2Proof.Machine

open Sys2Proof.Claims

/-! The keeper pair (R328, R329, Table 13.6). -/

theorem setDomain_roughly (s : State) (d : Nat) (on : Bool) : (setDomain s d on).roughly = s.roughly := roughly_of_lasting (setDomain_lasting ..)

theorem hallOn_booted (s : State) (h : Nat) : (hallOn s h).booted = s.booted := by
  unfold hallOn
  split <;> rfl

theorem startHalls_roughly (s : State) : (startHalls s).roughly = { s.roughly with running := true } := by
  unfold startHalls
  dsimp only
  refine (foldl_keeps State.roughly _ (fun u h => roughly_of_booted (joinLandings_booted u h)) _ _).trans ?_
  refine (foldl_keeps State.roughly _ (fun u h => roughly_of_booted (hallOn_booted u h)) _ _).trans ?_
  exact (foldl_keeps State.roughly _ (fun u d => setDomain_roughly u d true) _ _).trans rfl

/-- Either no keeper image passes, or the boot chain goes on with everything as it was; power and the core stay in any case. -/
def BootStep (s t : State) : Prop :=
  (t.image.dead = true ∨ t.booted = s.booted) ∧ t.seq.powered = s.seq.powered ∧ t.seq.core = s.seq.core

theorem BootStep.of_booted {s t : State} (h : t.booted = s.booted) : BootStep s t :=
  ⟨.inr h, congrArg (fun b : Booted => b.seq.powered) h, congrArg (fun b : Booted => b.seq.core) h⟩

theorem BootStep.dies {s t : State} (h : t.booted = s.booted) : BootStep s (bootDead t) :=
  ⟨.inl rfl, congrArg (fun b : Booted => b.seq.powered) h, congrArg (fun b : Booted => b.seq.core) h⟩

theorem onImage_booted (s : State) (f : Image → Image) (h : (f s.image).dead = s.image.dead) : (s.onImage f).booted = s.booted :=
  congrArg (fun b => ({ s.booted with dead := b } : Booted)) h

/-- The first half of the boot of the keeper pair: a TENTATIVE bank counts down (R337). -/
def countKeeper (s : State) : State :=
  match bankIn s 1 4 with
  | some b => if (bank13 s b).bootLeft = 0 then (revertKeeper s 1 6 0).1 else s.onBank13 b fun x => { x with bootLeft := x.bootLeft - 1 }
  | none => s

/-- The second half: the bank that passes is run (R329, R331). -/
def chooseKeeper (s : State) : State :=
  match activeKeeper s with
  | none => bootDead s
  | some b =>
    if keeperPasses s b then s.onImage fun x => { x with keeperBank := b }
    else
      match revertKeeper s 3 6 0 with
      | (s', true) => s'.onImage fun x => { x with keeperBank := otherBank b }
      | (_, false) =>
        if keeperPasses s (otherBank b) then
          (setBank (setBank s b 6 0) (otherBank b) 3 0).onImage fun x => { x with keeperBank := otherBank b }
        else bootDead s

theorem bootKeeper_eq (s : State) : bootKeeper s = chooseKeeper (countKeeper s) := rfl

theorem countKeeper_booted (s : State) : (countKeeper s).booted = s.booted := by
  unfold countKeeper
  split
  · split
    · exact revertKeeper_booted ..
    · rfl
  · rfl

theorem chooseKeeper_step (s : State) : BootStep s (chooseKeeper s) := by
  have hrevert := revertKeeper_booted s 3 6 0
  unfold chooseKeeper
  split
  · exact BootStep.dies rfl
  · split
    · exact BootStep.of_booted (onImage_booted _ _ rfl)
    · generalize revertKeeper s 3 6 0 = x at hrevert
      obtain ⟨u, ok⟩ := x
      cases ok with
      | true => exact BootStep.of_booted ((onImage_booted _ _ rfl).trans hrevert)
      | false =>
        dsimp only
        split
        · exact BootStep.of_booted ((onImage_booted _ _ rfl).trans ((setBank_booted ..).trans (setBank_booted ..)))
        · exact BootStep.dies rfl

theorem BootStep.of_first {s u t : State} (hu : u.booted = s.booted) (h : BootStep u t) : BootStep s t := by
  obtain ⟨hparts, hpower, hcore⟩ := h
  exact ⟨hparts.imp id (·.trans hu), hpower.trans (congrArg (fun b : Booted => b.seq.powered) hu), hcore.trans (congrArg (fun b : Booted => b.seq.core) hu)⟩

theorem bootKeeperPair_step (s : State) : BootStep s (bootKeeperPair s) := by
  have hkeeper : BootStep s (bootKeeper s) := BootStep.of_first (countKeeper_booted s) (chooseKeeper_step _)
  obtain ⟨hparts, hpower, hcore⟩ := hkeeper
  unfold bootKeeperPair
  dsimp only
  generalize bootKeeper s = u at hparts hpower hcore
  split
  · exact ⟨hparts, hpower, hcore⟩
  · next halive =>
    have hkept : u.booted = s.booted := hparts.resolve_left halive
    split
    · exact BootStep.dies hkept
    · exact BootStep.of_booted ((loadKeeperSlots_booted u).trans hkept)

/-! A keeper image that passes (R328). -/

/-- What the checks of the keeper image read. -/
def State.trusted (s : State) : Image × Store × Retention := (s.image, s.store, s.ret)

theorem hallOn_trusted (s : State) (h : Nat) : (hallOn s h).trusted = s.trusted := by
  unfold hallOn
  split <;> rfl

theorem setDomain_trusted (s : State) (d : Nat) (on : Bool) : (setDomain s d on).trusted = s.trusted := by
  unfold setDomain
  dsimp only
  split_ifs
  · rfl
  · split
    · exact (hallOn_trusted ..).trans rfl
    · rfl
  · split <;> rfl

theorem joinLandings_trusted (s : State) (h : Nat) : (joinLandings s h).trusted = s.trusted := rfl

theorem startHalls_trusted (s : State) : (startHalls s).trusted = s.trusted := by
  unfold startHalls
  dsimp only
  refine (foldl_keeps State.trusted _ (fun u h => joinLandings_trusted u h) _ _).trans ?_
  refine (foldl_keeps State.trusted _ (fun u h => hallOn_trusted u h) _ _).trans ?_
  exact (foldl_keeps State.trusted _ (fun u d => setDomain_trusted u d true) _ _).trans rfl

theorem keeperBoots_of_trusted {s t : State} {b : Nat} (h : KeeperBoots s b) (hkept : t.trusted = s.trusted) : KeeperBoots t b := by
  simp only [State.trusted, Prod.mk.injEq] at hkept
  obtain ⟨himage, hstore, hret⟩ := hkept
  have howner : ownerPasses t = ownerPasses s := by
    funext o
    simp only [ownerPasses, hstore]
  simp only [KeeperBoots, activeKeeper, keeperPasses, ownerMissing, bankIn, bank13, sealIntact, himage, hstore, hret, howner] at h ⊢
  exact h

theorem bank13_counted (s : State) (c k : Nat) (hc : c < 4) :
    ∃ n, bank13 (s.onBank13 c fun x => { x with bootLeft := x.bootLeft - 1 }) k = { bank13 s k with bootLeft := n } := by
  rw [bank13_onBank13 s c k _ hc]
  split
  · next he =>
    rw [he]
    exact ⟨_, rfl⟩
  · exact ⟨_, rfl⟩

/-- A bank that counts down is still the one in use and passes, by its signature where the seal is gone. -/
theorem countKeeper_passes {s : State} {b : Nat} (h : KeeperBoots s b) : activeKeeper (countKeeper s) = some b ∧
    keeperPasses (countKeeper s) b = true ∧ ownerMissing (countKeeper s) = false ∧ (countKeeper s).image.dead = false := by
  obtain ⟨halive, hactive, hpass, howner, htentative⟩ := h
  unfold countKeeper
  cases hbank : bankIn s 1 4 with
  | none => exact ⟨hactive, hpass, howner, halive⟩
  | some c =>
    rw [hbank] at htentative
    simp only [Option.all_some, Bool.and_eq_true, bne_iff_ne, ne_eq, Bool.or_eq_true] at htentative
    obtain ⟨⟨hleft, hsigned⟩, hrecord⟩ := htentative
    have hc : c < 4 := by rcases bankIn_keeper_range hbank with rfl | rfl <;> omega
    dsimp only
    rw [if_neg hleft]
    obtain ⟨u, hu⟩ : ∃ u, (s.onBank13 c fun x => { x with bootLeft := x.bootLeft - 1 }) = u := ⟨_, rfl⟩
    have hbanks : ∀ k, ∃ n, bank13 u k = { bank13 s k with bootLeft := n } := fun k => hu ▸ bank13_counted s c k hc
    have hstates : ∀ k, (bank13 u k).state = (bank13 s k).state := fun k => by
      obtain ⟨n, hn⟩ := hbanks k
      rw [hn]
    obtain ⟨n, hb⟩ := hbanks b
    have hstore : u.store.image.keeperSvn = s.store.image.keeperSvn ∧ u.store.image.lifecycle = s.store.image.lifecycle ∧
        u.store.image.owner = s.store.image.owner ∧ u.store.image.ownerRoot = s.store.image.ownerRoot := by
      rw [← hu]
      exact ⟨rfl, rfl, rfl, rfl⟩
    obtain ⟨hsvn, hcycle, hown, hroot⟩ := hstore
    have hpasses : ownerPasses u = ownerPasses s := by
      funext o
      simp only [ownerPasses, hroot]
    rw [hu]
    refine ⟨?_, ?_, ?_, ?_⟩
    · rw [← hactive]
      simp only [activeKeeper, hstates]
    · have hverifies : bankVerifies (bank13 u b) Config.foldunKey = true := by rw [hb]; exact hsigned
      have hheader : (bank13 u b).header = (bank13 s b).header := by rw [hb]
      simp only [keeperPasses, Bool.and_eq_true, decide_eq_true_eq] at hpass ⊢
      refine ⟨by rw [hverifies, Bool.or_true], ?_⟩
      rw [hsvn, hheader]
      exact hpass.2
    · unfold ownerMissing
      rw [hcycle, hown, hpasses]
      rcases hrecord with hcycle' | hrecord
      · simp [hcycle']
      · cases ho : s.store.image.owner with
        | none => simp [ho] at hrecord
        | some o =>
          have hgood : ownerPasses s o = true := by simpa [ho] using hrecord
          simp [hgood]
    · rw [← hu]
      exact halive

theorem bootKeeperPair_passes {s : State} {b : Nat} (h : KeeperBoots s b) : (bootKeeperPair s).booted = s.booted := by
  obtain ⟨hactive, hpass, howner, halive⟩ := countKeeper_passes h
  have hchosen : bootKeeper s = (countKeeper s).onImage fun x => { x with keeperBank := b } := by
    rw [bootKeeper_eq]
    unfold chooseKeeper
    rw [hactive]
    dsimp only
    rw [if_pos hpass]
  have hkept := countKeeper_booted s
  unfold bootKeeperPair
  dsimp only
  rw [hchosen]
  generalize countKeeper s = u at howner halive hkept
  have hlive : ((u.onImage fun x => { x with keeperBank := b }).image.dead) = false := halive
  have hfound : ownerMissing (u.onImage fun x => { x with keeperBank := b }) = false := howner
  rw [hlive, hfound, if_neg Bool.false_ne_true, if_neg Bool.false_ne_true]
  exact (loadKeeperSlots_booted _).trans hkept

/-! The starts (R58, R62, R64). -/

theorem awakeNow_of_from {b : Booted} {t : State} (h : AwakeFrom b t) (hrun : b.running = true) (halive : b.dead = false) : AwakeNow t := by
  rcases h with h | h
  · exact ⟨.inl (congrArg (fun b : Booted => b.seq.state) h), (congrArg Booted.running h).trans hrun, congrArg (fun b : Booted => b.seq.inReset) h,
      congrArg (fun b : Booted => b.seq.ready) h, congrArg Booted.hold h, (congrArg Booted.dead h).trans halive⟩
  · exact ⟨.inr (congrArg (fun b : Booted => b.seq.state) h), (congrArg Booted.running h).trans hrun, congrArg (fun b : Booted => b.seq.inReset) h,
      congrArg (fun b : Booted => b.seq.ready) h, congrArg Booted.hold h, (congrArg Booted.dead h).trans halive⟩

theorem power_of_from {b : Booted} {t : State} (h : AwakeFrom b t) : t.seq.powered = b.seq.powered ∧ t.seq.core = b.seq.core := by
  rcases h with h | h
  · exact ⟨congrArg (fun b : Booted => b.seq.powered) h, congrArg (fun b : Booted => b.seq.core) h⟩
  · exact ⟨congrArg (fun b : Booted => b.seq.powered) h, congrArg (fun b : Booted => b.seq.core) h⟩

/-- A start that no keeper image allows stops the tick hall (R329); any other leads to an awake state. -/
def StartEnds (s t : State) : Prop :=
  ((t.image.dead = true ∧ t.plane.running = false) ∨ AwakeNow t) ∧ t.seq.powered = s.seq.powered ∧ t.seq.core = s.seq.core

theorem noteLoss_steady (s : State) : (noteLoss s).steady = s.steady := by
  unfold noteLoss
  dsimp only
  split
  · split
    · exact (logDevice_steady ..).trans ((postEvent_steady ..).trans (onLog_steady ..))
    · rfl
  · split
    · exact (logDevice_steady ..).trans ((postEvent_steady ..).trans (onLog_steady ..))
    · rfl

/-- The halls start, and the boot chain of the keeper pair leaves what it leaves. -/
theorem startedPair_step {s u : State} (hu : BootStep (startHalls s) u) :
    (u.image.dead = true ∨ u.roughly = { s.roughly with running := true }) ∧ u.seq.powered = s.seq.powered ∧ u.seq.core = s.seq.core := by
  have hhalls := startHalls_roughly s
  generalize startHalls s = v at hu hhalls
  obtain ⟨hparts, hpower, hcore⟩ := hu
  exact ⟨hparts.imp id fun h => (roughly_of_booted h).trans hhalls, hpower.trans (congrArg (fun b : Booted => b.seq.powered) hhalls),
    hcore.trans (congrArg (fun b : Booted => b.seq.core) hhalls)⟩

theorem startEnds_dead {s u : State} (hdead : u.image.dead = true) (hpower : u.seq.powered = s.seq.powered) (hcore : u.seq.core = s.seq.core) :
    StartEnds s { clearLogic u with image := u.image } := by
  have hstopped : (clearLogic u).plane.running = false := rfl
  have hseq : (clearLogic u).seq.powered = u.seq.powered ∧ (clearLogic u).seq.core = u.seq.core := ⟨rfl, rfl⟩
  generalize clearLogic u = v at hstopped hseq
  exact ⟨.inl ⟨hdead, hstopped⟩, hseq.1.trans hpower, hseq.2.trans hcore⟩

/-- Where the boot chain ends a start, or the start is completed. -/
theorem startEnds_of_step {s u : State} (kind : StartKind) (target : Nat) (f g : State → State) (hstate : s.seq.state ≠ .beam)
    (hstep : (u.image.dead = true ∨ u.roughly = { s.roughly with running := true }) ∧ u.seq.powered = s.seq.powered ∧ u.seq.core = s.seq.core)
    (hf : ∀ v, (f v).roughly = v.roughly) (hg : ∀ v, (g v).roughly = v.roughly) :
    StartEnds s (if u.image.dead = true then { clearLogic u with image := u.image } else g (completeStart (f u) kind target)) := by
  obtain ⟨hparts, hpower, hcore⟩ := hstep
  split
  · next hdead => exact startEnds_dead hdead hpower hcore
  · next halive =>
    have hkept := (hf u).trans (hparts.resolve_left halive)
    have hnot : (f u).seq.state ≠ .beam := fun hbeam => hstate ((congrArg (fun b : Booted => b.seq.state) hkept).symm.trans hbeam)
    have hawake := (completeStart_awakens kind target hnot).of_roughly (hg (completeStart (f u) kind target))
    generalize g (completeStart (f u) kind target) = t at hawake
    rw [hkept] at hawake
    have hlive : s.image.dead = false := by
      have hu := congrArg Booted.dead (hparts.resolve_left halive)
      exact hu.symm.trans (Bool.eq_false_iff.mpr halive)
    exact ⟨.inr (awakeNow_of_from hawake rfl hlive), power_of_from hawake⟩

theorem restart_ends (s : State) (kind : StartKind) : StartEnds s (restart s kind) := by
  obtain ⟨u, hu⟩ : ∃ u, s.onSeq (fun q => { q with state := .dark, ready := false }) = u := ⟨_, rfl⟩
  have hstate : u.seq.state ≠ .beam := by
    rw [← hu]
    exact DevState.noConfusion
  have hends := startEnds_of_step (s := u) kind 3 noteLoss id hstate (startedPair_step (bootKeeperPair_step (startHalls u)))
    (fun v => roughly_of_steady (noteLoss_steady v)) fun _ => rfl
  have hpower : u.seq.powered = s.seq.powered ∧ u.seq.core = s.seq.core := by
    rw [← hu]
    exact ⟨rfl, rfl⟩
  have hrestart : restart s kind = (if (bootKeeperPair (startHalls u)).image.dead = true then
      { clearLogic (bootKeeperPair (startHalls u)) with image := (bootKeeperPair (startHalls u)).image }
      else id (completeStart (noteLoss (bootKeeperPair (startHalls u))) kind 3)) := by
    rw [← hu]
    rfl
  rw [hrestart]
  generalize (if (bootKeeperPair (startHalls u)).image.dead = true then
      { clearLogic (bootKeeperPair (startHalls u)) with image := (bootKeeperPair (startHalls u)).image }
      else id (completeStart (noteLoss (bootKeeperPair (startHalls u))) kind 3)) = t at hends
  exact ⟨hends.1, hends.2.1.trans hpower.1, hends.2.2.trans hpower.2⟩

theorem alive_of_boots {s t : State} {b : Nat} (h : KeeperBoots s b) (hkept : t.booted = s.booted) : t.image.dead = false :=
  (congrArg Booted.dead hkept).trans h.1

theorem restart_awakens {s : State} {b : Nat} (kind : StartKind) (h : KeeperBoots s b) :
    AwakeNow (restart s kind) ∧ (restart s kind).seq.powered = s.seq.powered ∧ (restart s kind).seq.core = s.seq.core := by
  obtain ⟨u, hu⟩ : ∃ u, s.onSeq (fun q => { q with state := .dark, ready := false }) = u := ⟨_, rfl⟩
  have hboots : KeeperBoots u b := keeperBoots_of_trusted h (by rw [← hu]; rfl)
  obtain ⟨v, hv⟩ : ∃ v, bootKeeperPair (startHalls u) = v := ⟨_, rfl⟩
  have hpair : v.booted = (startHalls u).booted := hv ▸ bootKeeperPair_passes (keeperBoots_of_trusted hboots (startHalls_trusted u))
  have halive : v.image.dead = false := alive_of_boots (keeperBoots_of_trusted hboots (startHalls_trusted u)) hpair
  have hrough : v.roughly = { u.roughly with running := true } := (roughly_of_booted hpair).trans (startHalls_roughly u)
  have hkept := (roughly_of_steady (noteLoss_steady v)).trans hrough
  have hstate : (noteLoss v).seq.state ≠ .beam := by
    have hdark : (noteLoss v).seq.state = .dark := (congrArg (fun b : Booted => b.seq.state) hkept).trans (by rw [← hu]; rfl)
    rw [hdark]
    exact DevState.noConfusion
  have hawake := completeStart_awakens kind 3 hstate
  have hrestart : restart s kind = completeStart (noteLoss v) kind 3 := by
    unfold restart
    dsimp only
    rw [hu, hv, halive, if_neg Bool.false_ne_true]
  rw [hrestart]
  generalize completeStart (noteLoss v) kind 3 = t at hawake
  rw [hkept] at hawake
  obtain ⟨hpower, hcore⟩ := power_of_from hawake
  exact ⟨awakeNow_of_from hawake rfl (by rw [← hu]; exact h.1), hpower.trans (by rw [← hu]; rfl), hcore.trans (by rw [← hu]; rfl)⟩

/-- A command whose step leads to a state has led to it. -/
theorem leads_of_effect {c : Instr} {s u : State} {P : State → Prop} (hexec : exec c s = effect s u) (hkept : ∀ v q, P v → P (v.withPending q)) (hP : P u) :
    ∃ t, exec c s = .next t ∧ P t := ⟨_, hexec, hkept _ _ hP⟩

theorem firstPowerUp_restarts {mv : Nat} {s : State} (hlow : 6000 < mv) (hhigh : mv ≤ 58000) (hoff : s.seq.powered = false) :
    exec (.firstPowerUp mv) s = effect s (restart ((noteVbatl s mv).onSeq fun q => { q with powered := true, core := true }) .cold) := by
  have hexec : exec (.firstPowerUp mv) s = rated s mv (firstPowerUp s mv) := rfl
  have hstep : firstPowerUp s mv = restart ((noteVbatl s mv).onSeq fun q => { q with powered := true, core := true }) .cold := by
    unfold firstPowerUp
    rw [hoff, if_pos ⟨rfl, hlow⟩]
  rw [hexec, hstep]
  unfold rated
  rw [if_neg (by omega)]

theorem logicRestart_restarts {s : State} (hdue : restartDue s = true) : exec .logicRestart s = effect s (restart s .logic) :=
  congrArg (effect s) (if_pos hdue)

/-! Dark and Buoy are left (R62, R279). -/

theorem stateEntry_entered {n : Nat} {s : State} (hdue : s.seq.state ≠ .lantern) : exec (.stateEntry n) s = effect s (stateEntry s n) := by
  have hnot : beamDue s = false := by
    unfold beamDue
    have hstate : (s.seq.state == .lantern) = false := by simpa using hdue
    rw [hstate, Bool.and_false, Bool.false_and, Bool.false_and, Bool.false_and]
  have hexec : exec (.stateEntry n) s = effect s (stateEntry (if n = 3 ∧ beamDue s = true then finishTick s else s) n) := rfl
  rw [hexec, hnot, if_neg (by simp)]

/-- The steps toward a state are over, and the device may enter it. -/
structure EntryDue (s : State) (n : Nat) : Prop where
  target : s.sleep.target = some n
  powered : s.seq.powered = true
  core : s.seq.core = true
  running : s.seq.inReset = false

theorem stateEntry_awake {n : Nat} {s : State} (hn : n = 2 ∨ n = 3) (h : EntryDue s n) (hstate : s.seq.state = .dark ∨ s.seq.state = .buoy) :
    exec (.stateEntry n) s = effect s (enterAwake s n) := by
  obtain ⟨htarget, hpower, hcore, hreset⟩ := h
  have hnot : s.seq.state ≠ .lantern := by rcases hstate with h | h <;> rw [h] <;> exact DevState.noConfusion
  rw [stateEntry_entered hnot]
  unfold stateEntry
  rw [if_pos ⟨htarget, hpower, hcore, by rw [hreset]; rfl⟩]
  rcases hstate with h | h
  · rw [if_pos h, if_neg (by omega), if_pos hn]
  · rw [if_neg (by rw [h]; exact DevState.noConfusion), if_pos ⟨h, hn⟩]

/-- The keeper pair boots where it does not run already. -/
def pairFor (s : State) : State := if s.seq.state == .buoy then startHalls s else bootKeeperPair (startHalls s)

theorem enterAwake_eq (s : State) (n : Nat) : enterAwake s n =
    if (pairFor s).image.dead = true then { clearLogic (pairFor s) with image := (pairFor s).image }
    else keepPoll (completeStart (id (pairFor s)) .asleep n) := rfl

theorem pairFor_step (s : State) : BootStep (startHalls s) (pairFor s) := by
  unfold pairFor
  split
  · exact BootStep.of_booted rfl
  · exact bootKeeperPair_step _

theorem enterAwake_ends (s : State) (n : Nat) (hstate : s.seq.state ≠ .beam) : StartEnds s (enterAwake s n) := by
  rw [enterAwake_eq]
  exact startEnds_of_step .asleep n id keepPoll hstate (startedPair_step (pairFor_step s)) (fun _ => rfl) fun v => roughly_of_booted (keepPoll_booted v)

theorem enterAwake_awakens {s : State} (n : Nat) (hstate : s.seq.state ≠ .beam) (halive : s.image.dead = false)
    (hpair : (pairFor s).booted = (startHalls s).booted) : AwakeNow (enterAwake s n) := by
  have hrough : (pairFor s).roughly = { s.roughly with running := true } := (roughly_of_booted hpair).trans (startHalls_roughly s)
  rw [enterAwake_eq]
  generalize pairFor s = u at hrough
  have hlive : u.image.dead = false := (congrArg Booted.dead hrough).trans halive
  have hnot : u.seq.state ≠ .beam := fun hbeam => hstate ((congrArg (fun b : Booted => b.seq.state) hrough).symm.trans hbeam)
  rw [hlive, if_neg Bool.false_ne_true, id]
  have hawake := (completeStart_awakens .asleep n hnot).of_roughly (roughly_of_booted (keepPoll_booted (completeStart u .asleep n)))
  generalize keepPoll (completeStart u .asleep n) = t at hawake ⊢
  rw [hrough] at hawake
  exact awakeNow_of_from hawake rfl halive

theorem pairFor_passes {s : State} {b : Nat} (h : KeeperBoots s b) : (pairFor s).booted = (startHalls s).booted := by
  unfold pairFor
  split
  · rfl
  · exact bootKeeperPair_passes (keeperBoots_of_trusted h (startHalls_trusted s))

theorem pairFor_buoy {s : State} (h : s.seq.state = .buoy) : (pairFor s).booted = (startHalls s).booted := by
  unfold pairFor
  rw [h, if_pos (by decide)]

/-! Buoy (R62). -/

theorem hallOn_seq (s : State) (h : Nat) : (hallOn s h).seq = s.seq := by
  unfold hallOn
  split <;> rfl

theorem setDomain_pd (s : State) (d : Nat) (on : Bool) : (setDomain s d on).seq.pd = if domainOn s d = on then s.seq.pd else setBit s.seq.pd d on := by
  unfold setDomain
  dsimp only
  split_ifs
  · rfl
  · split
    · exact congrArg Seq.pd (hallOn_seq ..)
    · rfl
  · split <;> rfl

theorem domainOn_setDomain_other (s : State) (d k : Nat) (on : Bool) (h : k ≠ d) : domainOn (setDomain s d on) k = domainOn s k := by
  have hpd := setDomain_pd s d on
  unfold domainOn at hpd ⊢
  rw [hpd]
  split
  · rfl
  · rw [testBit_setBit, if_neg h]

theorem domainOn_setDomain_on (s : State) (d : Nat) : domainOn (setDomain s d true) d = true := by
  have hpd := setDomain_pd s d true
  unfold domainOn at hpd ⊢
  rw [hpd]
  split
  · next h => exact h
  · rw [testBit_setBit_same]

/-- What the polls of Buoy leave: as the steps of a start, and which domains but PD8 are on. -/
def State.buoyed (s : State) : Booted × (Nat → Bool) := (s.roughly, fun d => d != 8 && domainOn s d)

theorem buoyed_of_booted {s t : State} (h : t.booted = s.booted) : t.buoyed = s.buoyed := by
  have hpd : t.seq.pd = s.seq.pd := congrArg (fun b : Booted => b.seq.pd) h
  unfold State.buoyed domainOn
  rw [roughly_of_booted h, hpd]

theorem setDomain8_buoyed (s : State) : (setDomain s 8 true).buoyed = s.buoyed := by
  refine Prod.ext (setDomain_roughly ..) (funext fun d => ?_)
  by_cases hd : d = 8
  · rw [hd]
    rfl
  · exact congrArg (d != 8 && ·) (domainOn_setDomain_other s 8 d true hd)

theorem startPoll_buoyed (s : State) (q : Poll) (mask : Option Nat) : (startPoll s q mask).1.buoyed = s.buoyed := by
  unfold startPoll
  dsimp only
  split_ifs
  · rfl
  · exact foldl_keeps State.buoyed _ (fun u a => buoyed_of_booted (booted_of_steady (accessEvent_steady ..))) _ _
  · rfl
  · refine (buoyed_of_booted (driveAntennas_booted ..)).trans ((buoyed_of_booted (onAccess_booted ..)).trans ?_)
    exact (setDomain8_buoyed _).trans (buoyed_of_booted (drawPlane_booted ..))

theorem touchPolls_buoyed (s : State) : (touchPolls s).buoyed = s.buoyed := by
  unfold touchPolls
  refine foldl_keeps State.buoyed _ (fun u w => ?_) _ _
  unfold autoPoll
  split
  · rfl
  · exact startPoll_buoyed ..

/-- The keeper pair of Buoy. -/
def buoyPair (s : State) : State := bootKeeperPair (setDomain (setDomain s 1 true) 2 true)

theorem enterBuoy_dies {s : State} (h : (buoyPair s).image.dead = true) :
    (enterBuoy s).image.dead = true ∧ (enterBuoy s).plane.running = false := by
  have hstep : enterBuoy s = { clearLogic (buoyPair s) with image := (buoyPair s).image } := if_pos h
  rw [hstep]
  have hstopped : (clearLogic (buoyPair s)).plane.running = false := rfl
  generalize clearLogic (buoyPair s) = u at hstopped
  exact ⟨h, hstopped⟩

theorem enterBuoy_enters {s : State} (h : (buoyPair s).image.dead = false)
    (hpair : (buoyPair s).booted = (setDomain (setDomain s 1 true) 2 true).booted) :
    (enterBuoy s).seq.state = .buoy ∧ domainOn (enterBuoy s) 1 = true ∧ domainOn (enterBuoy s) 2 = true ∧ (enterBuoy s).sleep.buoyAt = s.now := by
  have hnow : (buoyPair s).now = s.now :=
    (congrArg Booted.now hpair).trans ((congrArg Booted.now (setDomain_roughly _ 2 true)).trans (congrArg Booted.now (setDomain_roughly s 1 true)))
  have hon : ∀ d, d = 1 ∨ d = 2 → domainOn (buoyPair s) d = true := by
    intro d hd
    have hpd : (buoyPair s).seq.pd = (setDomain (setDomain s 1 true) 2 true).seq.pd := congrArg (fun b : Booted => b.seq.pd) hpair
    have hraised : domainOn (setDomain (setDomain s 1 true) 2 true) d = true := by
      rcases hd with rfl | rfl
      · rw [domainOn_setDomain_other _ _ _ _ (by decide)]
        exact domainOn_setDomain_on s 1
      · exact domainOn_setDomain_on _ 2
    unfold domainOn at hraised ⊢
    rwa [hpd]
  have hstep : enterBuoy s = logWakes (touchPolls (((buoyPair s).onSeq fun q => { q with state := .buoy }).onSleep fun x =>
      { x with buoyAt := (buoyPair s).now, target := none })) := if_neg (by rw [show (bootKeeperPair (setDomain (setDomain s 1 true) 2 true)).image.dead = false from h]; decide)
  rw [hstep]
  generalize buoyPair s = u at hnow hon
  obtain ⟨v, hv⟩ : ∃ v, (u.onSeq fun q => { q with state := .buoy }).onSleep (fun x => { x with buoyAt := u.now, target := none }) = v := ⟨_, rfl⟩
  have hkept : (logWakes (touchPolls v)).buoyed = v.buoyed := (buoyed_of_booted (logWakes_booted _)).trans (touchPolls_buoyed v)
  rw [hv]
  generalize logWakes (touchPolls v) = t at hkept
  have hrough : t.roughly = v.roughly := congrArg Prod.fst hkept
  have hdomains : ∀ d, d = 1 ∨ d = 2 → domainOn t d = true := by
    intro d hd
    have hbit := congrFun (congrArg Prod.snd hkept) d
    have hsame : domainOn v d = domainOn u d := by rw [← hv]; rfl
    have hne : (d != 8) = true := by rcases hd with rfl | rfl <;> rfl
    simp only [State.buoyed, hne, Bool.true_and] at hbit
    rw [hbit, hsame, hon d hd]
  refine ⟨(congrArg (fun b : Booted => b.seq.state) hrough).trans (by rw [← hv]; rfl), hdomains 1 (.inl rfl), hdomains 2 (.inr rfl), ?_⟩
  exact (congrArg Booted.buoyAt hrough).trans (by rw [← hv]; exact hnow)

theorem buoyPair_passes {s : State} {b : Nat} (h : KeeperBoots s b) :
    (buoyPair s).booted = (setDomain (setDomain s 1 true) 2 true).booted ∧ (buoyPair s).image.dead = false := by
  have hboots : KeeperBoots (setDomain (setDomain s 1 true) 2 true) b :=
    keeperBoots_of_trusted h ((setDomain_trusted ..).trans (setDomain_trusted ..))
  have hpair := bootKeeperPair_passes hboots
  exact ⟨hpair, alive_of_boots hboots hpair⟩

theorem stateEntry_buoy {s : State} (h : EntryDue s 1) (hstate : s.seq.state = .dark) : exec (.stateEntry 1) s = effect s (enterBuoy s) := by
  obtain ⟨htarget, hpower, hcore, hreset⟩ := h
  rw [stateEntry_entered (by rw [hstate]; exact DevState.noConfusion)]
  unfold stateEntry
  rw [if_pos ⟨htarget, hpower, hcore, by rw [hreset]; rfl⟩, if_pos hstate, if_pos rfl]

/-! The obligation. -/

theorem AwakeNow.parts {t : State} (h : AwakeNow t) : (t.seq.state = .lantern ∨ t.seq.state = .beam) ∧ t.plane.running = true ∧
    t.seq.inReset = false ∧ t.seq.ready = true ∧ t.link.hold = false :=
  ⟨h.1, h.2.1, h.2.2.1, h.2.2.2.1, h.2.2.2.2.1⟩

theorem dark_not_beam {s : State} (h : s.seq.state = .dark ∨ s.seq.state = .buoy) : s.seq.state ≠ .beam := by
  rcases h with h | h <;> rw [h] <;> exact DevState.noConfusion

/-- Settles O23: the boot chain leaves the sequencer (`bootKeeperPair_step`), and what completes a start enters Beam or, where it has not, Lantern
(`completeStart_awakens`). -/
theorem startsLeadToAnAwakeState : Obligations.StartsLeadToAnAwakeState := by
  refine ⟨fun mv b s hlow hhigh hoff hboots => ?_, fun b s hdue hboots => ?_, fun b s htarget hpower hcore hreset hstate hboots => ?_,
    fun n b s hn htarget hpower hcore hreset hstate hboots => ?_, fun n s hn htarget hpower hcore hreset hstate halive => ?_,
    fun mv s hlow hhigh hoff => ?_, fun s hdue => ?_, fun s htarget hpower hcore hreset hstate => ?_,
    fun n s hn htarget hpower hcore hreset hstate => ?_⟩
  · obtain ⟨hawake, hpower, hcore⟩ := restart_awakens (s := (noteVbatl s mv).onSeq fun q => { q with powered := true, core := true }) .cold hboots
    exact leads_of_effect (firstPowerUp_restarts hlow hhigh hoff) (fun _ _ h => h) ⟨hpower, hcore, hawake⟩
  · exact leads_of_effect (logicRestart_restarts hdue) (fun _ _ h => h) (restart_awakens .logic hboots).1
  · obtain ⟨hpair, halive⟩ := buoyPair_passes hboots
    exact leads_of_effect (stateEntry_buoy ⟨htarget, hpower, hcore, hreset⟩ hstate) (fun _ _ h => h) (enterBuoy_enters halive hpair)
  · exact leads_of_effect (stateEntry_awake hn ⟨htarget, hpower, hcore, hreset⟩ (.inl hstate)) (fun _ _ h => h)
      (enterAwake_awakens n (dark_not_beam (.inl hstate)) hboots.1 (pairFor_passes hboots))
  · exact leads_of_effect (stateEntry_awake hn ⟨htarget, hpower, hcore, hreset⟩ (.inr hstate)) (fun _ _ h => h)
      (enterAwake_awakens n (dark_not_beam (.inr hstate)) halive (pairFor_buoy hstate))
  · obtain ⟨hends, hpower, hcore⟩ := restart_ends ((noteVbatl s mv).onSeq fun q => { q with powered := true, core := true }) .cold
    exact leads_of_effect (firstPowerUp_restarts hlow hhigh hoff) (fun _ _ h => h) ⟨hpower, hcore, hends.imp id AwakeNow.parts⟩
  · exact leads_of_effect (logicRestart_restarts hdue) (fun _ _ h => h) ((restart_ends s .logic).1.imp id AwakeNow.parts)
  · refine leads_of_effect (stateEntry_buoy ⟨htarget, hpower, hcore, hreset⟩ hstate) (fun _ _ h => h) ?_
    rcases (bootKeeperPair_step (setDomain (setDomain s 1 true) 2 true)).1 with hdead | hpair
    · exact .inl (enterBuoy_dies hdead)
    · cases hdead : (buoyPair s).image.dead with
      | true => exact .inl (enterBuoy_dies hdead)
      | false => exact .inr (enterBuoy_enters hdead hpair).1
  · exact leads_of_effect (stateEntry_awake hn ⟨htarget, hpower, hcore, hreset⟩ hstate) (fun _ _ h => h)
      ((enterAwake_ends s n (dark_not_beam hstate)).1.imp id AwakeNow.parts)

end Sys2Proof.Machine

namespace Sys2Proof.Machine

open Sys2Proof.Claims

/-! No opcode but REPLAY.RUN changes the tick, the epoch, whether the tick hall runs, or a flight of a ring (R15, R18, R85). -/

@[simp] theorem onStore_steady_course (s : State) (f : Store → Store) : (s.onStore f).steady.course = s.steady.course := rfl

@[simp] theorem onKey_steady_course (s : State) (k : Nat) (f : KeySlot → KeySlot) : (s.onKey k f).steady.course = s.steady.course := rfl

@[simp] theorem onAccessStore_steady_course (s : State) (f : AccessStore → AccessStore) : (s.onAccessStore f).steady.course = s.steady.course := rfl

@[simp] theorem onIvg_steady_course (s : State) (n : Nat) (f : IvgLink → IvgLink) : (s.onIvg n f).steady.course = s.steady.course := rfl

@[simp] theorem onSat_steady_course (s : State) (n a : Nat) (f : SatRun → SatRun) : (s.onSat n a f).steady.course = s.steady.course := rfl

@[simp] theorem onHall_steady_course (s : State) (h : Nat) (f : HallSt → HallSt) : (s.onHall h f).steady.course = s.steady.course := rfl

@[simp] theorem onSeq_steady_course (s : State) (f : Seq → Seq) : (s.onSeq f).steady.course = s.steady.course := rfl

@[simp] theorem onWatchStore_steady_course (s : State) (f : WatchStore → WatchStore) : (s.onWatchStore f).steady.course = s.steady.course := rfl

@[simp] theorem onString_steady_course (s : State) (n : Nat) (f : Strg → Strg) : (s.onString n f).steady.course = s.steady.course := rfl

@[simp] theorem onStrCond_steady_course (s : State) (n : Nat) (f : Cond → Cond) : (s.onStrCond n f).steady.course = s.steady.course := rfl

@[simp] theorem onSleep_steady_course (s : State) (f : Sleep → Sleep) : (s.onSleep f).steady.course = s.steady.course := rfl

@[simp] theorem onSas_steady_course (s : State) (f : List Sa → List Sa) : (s.onSas f).steady.course = s.steady.course := rfl

@[simp] theorem onToken_steady_course (s : State) (i : Nat) (f : Token → Token) : (s.onToken i f).steady.course = s.steady.course := rfl

@[simp] theorem onPoll_steady_course (s : State) (f : Poll → Poll) : (s.onPoll f).steady.course = s.steady.course := rfl

@[simp] theorem onImage_steady_course (s : State) (f : Image → Image) : (s.onImage f).steady.course = s.steady.course := rfl

@[simp] theorem onDebug_steady_course (s : State) (f : Debug → Debug) : (s.onDebug f).steady.course = s.steady.course := rfl

@[simp] theorem onChan_steady_course (s : State) (ch : Nat) (f : Chan → Chan) : (s.onChan ch f).steady.course = s.steady.course := rfl

@[simp] theorem onCond_steady_course (s : State) (ch : Nat) (f : Cond → Cond) : (s.onCond ch f).steady.course = s.steady.course := rfl

@[simp] theorem onImageStore_steady_course (s : State) (f : ImageStore → ImageStore) : (s.onImageStore f).steady.course = s.steady.course := rfl

@[simp] theorem onStream_steady_course (s : State) (k : Nat) (f : CanStream → CanStream) : (s.onStream k f).steady.course = s.steady.course := rfl

@[simp] theorem onSi_steady_course (s : State) (i : Nat) (f : Si → Si) : (s.onSi i f).steady.course = s.steady.course := rfl

@[simp] theorem onValve_steady_course (s : State) (v : Nat) (f : Valve → Valve) : (s.onValve v f).steady.course = s.steady.course := rfl

@[simp] theorem onAccess_steady_course (s : State) (f : Access → Access) : (s.onAccess f).steady.course = s.steady.course := rfl

theorem ethPowerOff_steady_course (s : State) : (ethPowerOff s).steady.course = s.steady.course := by
  unfold ethPowerOff
  split
  · refine Eq.trans rfl ((setDomain_steady_course ..).trans (course_of_steady ((dropQueue_steady ..).trans ((dropQueue_steady ..).trans ?_))))
    exact foldl_keeps State.steady _ (fun u n => portOff_steady u n) _ _
  · rfl

@[simp] theorem powerPorts_steady_course (s : State) : (powerPorts s).steady.course = s.steady.course := by
  unfold powerPorts
  split_ifs
  · rfl
  · exact ethPowerOn_steady_course s
  · exact ethPowerOff_steady_course s

/-- A fold of steps that keep a value keeps it. -/
theorem foldl_same {σ α β : Type} (g : σ → β) (f : σ → α → σ) (h : ∀ x a, g (f x a) = g x) (l : List α) (x : σ) : g (l.foldl f x) = g x :=
  List.foldlRecOn (motive := fun y => g y = g x) l f rfl fun y hy a _ => (h y a).trans hy

@[simp] theorem stopSlotSas_steady_course (s : State) (slot : Nat) : (stopSlotSas s slot).steady.course = s.steady.course := by
  unfold stopSlotSas
  exact foldl_keeps (fun u : State => u.steady.course) _ (fun _ _ => by simp) _ _

@[simp] theorem changeStreams_steady_course (s : State) (k : Nat) (abort restart : Bool) : (changeStreams s k abort restart).steady.course = s.steady.course := by
  unfold changeStreams
  refine congrArg Steady.course (foldl_keeps State.steady _ (fun u i => ?_) _ _)
  dsimp only
  split
  · exact onBus_steady ..
  · rfl

@[simp] theorem markAborted_steady_course (s : State) (k : Nat) : (markAborted s k).steady.course = s.steady.course := rfl

@[simp] theorem changeSlot_steady_course (s : State) (p : Packet) (k : Nat) (abort erase restart : Bool) (f : KeySlot → KeySlot) : (changeSlot s p k abort erase restart f).steady.course = s.steady.course := by
  unfold changeSlot
  split <;> simp

@[simp] theorem drawBytes_steady_course (s : State) (n : Nat) : (s.drawBytes n).2.steady.course = s.steady.course := rfl

@[simp] theorem drawPlane_steady_course (s : State) (n use : Nat) : (drawPlane s n use).2.steady.course = s.steady.course := by
  unfold drawPlane
  dsimp only
  rw [capItem_steady]
  split
  · split <;> rfl
  · rfl
  · rfl

@[simp] theorem fixedOf_steady_course (s : State) (given : Nat) : (fixedOf s given).2.steady.course = s.steady.course := by
  unfold fixedOf
  split <;> simp

@[simp] theorem installKey_steady_course (s : State) (p : Packet) (k : Nat) (abort : Bool) (alg usage origin fixed : Nat) (material : List Byte) :
    (installKey s p k abort alg usage origin fixed material).s.steady.course = s.steady.course := by simp [installKey]

@[simp] theorem directWrite_steady_course (s : State) (p : Packet) (pt : Nat) (v : PVal) :
    (directWrite s p pt v).1.steady.course = s.steady.course := by simp [directWrite]

theorem loadSetRun_steady_course (p : Packet) : ∀ (l : List (Nat × PVal)) (s : State), (loadSetRun p l s).1.steady.course = s.steady.course
  | [], _ => rfl
  | (ch, v) :: r, s => by
    have hwrite := directWrite_steady_course s p (pointAt 80 ch) v
    unfold loadSetRun
    dsimp only
    refine (loadSetRun_steady_course p r _).trans ?_
    split
    · exact Eq.trans rfl hwrite
    · exact hwrite

@[simp] theorem packetOut_steady_course (p : Packet) (s : State) (a : Nat) (l : List Byte) : (packetOut p s a l).steady.course = s.steady.course := by
  unfold packetOut
  split <;> simp

@[simp] theorem keyedOut_steady_course (p : Packet) (s : State) (n : Nat) : (keyedOut p s n).steady.course = s.steady.course := rfl

@[simp] theorem linReset_steady_course (s : State) (c : Nat) (g : LinCfg) : (linReset s c g).steady.course = s.steady.course := by
  unfold linReset
  exact foldl_keeps (fun u : State => u.steady.course) _ (fun _ _ => by simp) _ _

@[simp] theorem queueSetup_steady_course (s : State) (n : Nat) (which : Sat → Bool) : (queueSetup s n which).steady.course = s.steady.course := by
  unfold queueSetup
  exact foldl_keeps (fun u : State => u.steady.course) _ (fun _ _ => by simp) _ _

@[simp] theorem startLink_steady_course (s : State) (n : Nat) : (startLink s n).steady.course = s.steady.course := rfl

@[simp] theorem writePending_steady_course (s : State) (p : Packet) : (writePending s p).steady.course = s.steady.course := by
  unfold writePending
  (repeat' split)
  all_goals rfl

@[simp] theorem verifyWith_steady_course (p : Packet) (s : State) (pk : List Byte) (gen : Nat) : (verifyWith p s pk gen).s.steady.course = s.steady.course := by
  unfold verifyWith
  split <;> rfl

@[simp] theorem applyPort_steady_course (s : State) (n : Nat) (g : EthPortCfg) : (applyPort s n g).steady.course = s.steady.course := by
  unfold applyPort
  dsimp only
  split_ifs
  · rw [powerPorts_steady_course, portOff_steady, onStore_steady_course]
  · rw [powerPorts_steady_course, onStore_steady_course]
  · rw [startPort_steady, setLink_steady, dropQueue_steady, onStore_steady_course]
  · rw [startPort_steady, onStore_steady_course]
  · rfl

@[simp] theorem revokeGrants_steady_course (x : CharterSet) (s : State) : (revokeGrants x s).steady.course = s.steady.course := rfl

@[simp] theorem stopActions_steady_course (s : State) (i : Nat) : (stopActions s i).steady.course = s.steady.course := by
  unfold stopActions
  refine foldl_keeps (fun u : State => u.steady.course) _ (fun u x => ?_) _ _
  split <;> simp

@[simp] theorem revokeEvent_steady_course (s : State) (index kind owner : Nat) :
    (revokeEvent s index kind owner).steady.course = s.steady.course := by simp [revokeEvent]

@[simp] theorem revokeRules_steady_course (x : CharterSet) (s : State) : (revokeRules x s).steady.course = s.steady.course := by
  unfold revokeRules
  refine foldl_keeps (fun u : State => u.steady.course) _ (fun u x => ?_) _ _
  dsimp only
  split_ifs <;> simp

@[simp] theorem revokeEngines_steady_course (x : CharterSet) (s : State) : (revokeEngines x s).steady.course = s.steady.course := by
  unfold revokeEngines
  refine foldl_keeps (fun u : State => u.steady.course) _ (fun u i => ?_) _ _
  split
  · dsimp only
    split
    · exact (revokeEvent_steady_course ..).trans (congrArg Steady.course (stopEngine_steady ..))
    · rfl
  · rfl

@[simp] theorem revokeTemplates_steady_course (x : CharterSet) (s : State) : (revokeTemplates x s).steady.course = s.steady.course := by
  unfold revokeTemplates
  refine foldl_keeps (fun u : State => u.steady.course) _ (fun u x => ?_) _ _
  dsimp only
  split_ifs <;> simp

@[simp] theorem loadEvent_steady_course (s : State) (kind ch value : Nat) : (loadEvent s kind ch value).steady.course = s.steady.course := by simp [loadEvent]

@[simp] theorem updateString_steady_course (s : State) (n : Nat) : (updateString s n).steady.course = s.steady.course := by
  unfold updateString
  dsimp only
  split_ifs <;> simp

@[simp] theorem endString_steady_course (s : State) (n cause : Nat) : (endString s n cause).steady.course = s.steady.course := by
  unfold endString
  split <;> simp

@[simp] theorem unlockString_steady_course (s : State) (n : Nat) : (unlockString s n).1.steady.course = s.steady.course := by
  have hlocks : ∀ u : State, u.steady.course = s.steady.course → (if (stringOf s n).cond.locks.testBit 8 = true then u else endString u n 8).steady.course = s.steady.course := by
    intro u hu
    split
    · exact hu
    · exact (endString_steady_course ..).trans hu
  unfold unlockString
  dsimp only
  rw [updateString_steady_course]
  have hgone := fun l : List Nat => hlocks _ ((foldl_keeps (fun u : State => u.steady.course) (fun (u : State) (k : Nat) =>
    (if k = 7 ∧ (stringOf u n).segShort ≠ 0 then loadEvent u 0x0202 (56 + n) 7 else endString u n k).onStrCond n fun c =>
      { c with locks := setBit c.locks k false }) (fun u k => by
        rw [onStrCond_steady_course]
        split
        · exact loadEvent_steady_course ..
        · exact endString_steady_course ..) l (s.onString n fun x => { x with segOpen := 0 })).trans (onString_steady_course ..))
  split
  · exact hgone _
  · exact (onString_steady_course ..).trans (hgone _)

@[simp] theorem applyTime_steady_course (s : State) (p : Packet) : (applyTime s p).steady.course = s.steady.course := rfl

@[simp] theorem capStop_steady_course (s : State) (reason : Nat) : (capStop s reason).steady.course = s.steady.course :=
  congrArg Steady.course (Eq.trans rfl (capWrite_steady s (markRecord s 2 reason (runningDigest s))))

@[simp] theorem toLantern_steady_course (s : State) : (toLantern s).steady.course = s.steady.course := by
  obtain ⟨u, hu⟩ : ∃ u, (if s.plane.capture.running = true then capStop s 2 else s) = u := ⟨_, rfl⟩
  have hstopped : u.steady.course = s.steady.course := by
    rw [← hu]
    split
    · exact capStop_steady_course ..
    · rfl
  obtain ⟨v, hv⟩ : ∃ v, (if u.image.trial.state = 2 then endTrial u 7 else u) = v := ⟨_, rfl⟩
  have hended : v.steady = u.steady := by
    rw [← hv]
    split
    · exact endTrial_steady ..
    · rfl
  unfold toLantern
  dsimp only
  rw [hu, hv]
  split
  · rfl
  · rw [onSleep_steady_course, powerPorts_steady_course, showState_steady, onSeq_steady_course, hended, hstopped]

@[simp] theorem releaseNet_steady_course (s : State) (n : Nat) : (releaseNet s n).steady.course = s.steady.course := by
  unfold releaseNet
  dsimp only
  split_ifs <;> simp

@[simp] theorem requestSleepPorts_steady_course (s : State) : (requestSleepPorts s).steady.course = s.steady.course := by
  unfold requestSleepPorts
  refine congrArg Steady.course (foldl_keeps State.steady _ (fun u n => ?_) _ _)
  split
  · exact onPort_steady ..
  · rfl

@[simp] theorem goDark_steady_course (s : State) : (goDark s).steady.course = s.steady.course := by
  unfold goDark
  rw [requestSleepPorts_steady_course, onSleep_steady_course, blockRelease_steady]
  exact (foldl_keeps (fun u : State => u.steady.course) _ (fun u n => releaseNet_steady_course u n) _ _).trans (toLantern_steady_course s)

@[simp] theorem moveToward_steady_course (s : State) (target : Nat) : (moveToward s target).steady.course = s.steady.course := by
  unfold moveToward
  split <;> rfl

@[simp] theorem installSa_steady_course (p : Packet) (s : State) : (installSa p s).steady.course = s.steady.course := by simp [installSa]

@[simp] theorem bindChannel_steady_course (p : Packet) (s : State) : (bindChannel p s).steady.course = s.steady.course := rfl

@[simp] theorem noteIdle_steady_course (s : State) : (noteIdle s).steady.course = s.steady.course := by
  unfold noteIdle
  split <;> rfl

@[simp] theorem writeToken_steady_course (s : State) (i action comp : Nat) (f : Token → Token) :
    (writeToken s i action comp f).steady.course = s.steady.course := by simp [writeToken]

@[simp] theorem lockDebug_steady_course (s : State) (comp : Nat) : (lockDebug s comp).steady.course = s.steady.course := by
  unfold lockDebug
  split <;> simp

@[simp] theorem debugRespond_steady_course (p : Packet) (s : State) : (debugRespond p s).s.steady.course = s.steady.course := by
  unfold debugRespond
  dsimp only
  (repeat' split)
  all_goals simp

@[simp] theorem resumeString_steady_course (s : State) (n cause : Nat) : (resumeString s n cause).steady.course = s.steady.course := by
  unfold resumeString
  dsimp only
  split_ifs <;> simp

@[simp] theorem updateChan_steady_course (s : State) (ch : Nat) : (updateChan s ch).steady.course = s.steady.course := by
  unfold updateChan
  dsimp only
  split_ifs <;> simp

@[simp] theorem resumeChan_steady_course (s : State) (ch cause : Nat) : (resumeChan s ch cause).steady.course = s.steady.course := by
  unfold resumeChan
  dsimp only
  split_ifs <;> simp

@[simp] theorem resumeOut_steady_course (s : State) (cause ch : Nat) : (resumeOut s cause ch).steady.course = s.steady.course := by
  unfold resumeOut
  split <;> simp

@[simp] theorem queueStep_steady_course (s : State) (b : Nat) : (queueStep s b).steady.course = s.steady.course := by
  unfold queueStep
  dsimp only
  (repeat' split)
  all_goals simp

@[simp] theorem bumpSnapshot_steady_course (s : State) : (bumpSnapshot s).steady.course = s.steady.course := by
  unfold bumpSnapshot
  split <;> rfl

@[simp] theorem reportCause_steady_course (s : State) (ch cause detail : Nat) : (reportCause s ch cause detail).steady.course = s.steady.course := by
  unfold reportCause
  dsimp only
  split <;> simp

@[simp] theorem lockChan_steady_course (s : State) (ch cause detail : Nat) : (lockChan s ch cause detail).steady.course = s.steady.course := by simp [lockChan]

@[simp] theorem stopRetry_steady_course (s : State) (ch : Nat) : (stopRetry s ch).steady.course = s.steady.course := by
  unfold stopRetry
  dsimp only
  split <;> simp

@[simp] theorem holdChan_steady_course (s : State) (ch cause detail : Nat) : (holdChan s ch cause detail).steady.course = s.steady.course := by simp [holdChan]

@[simp] theorem reportString_steady_course (s : State) (n cause detail : Nat) (fresh : Bool) : (reportString s n cause detail fresh).steady.course = s.steady.course := by
  unfold reportString
  split <;> simp

@[simp] theorem holdString_steady_course (s : State) (n cause detail : Nat) : (holdString s n cause detail).steady.course = s.steady.course := by simp [holdString]

@[simp] theorem leaveQueue_steady_course (s : State) (ch : Nat) : (leaveQueue s ch).steady.course = s.steady.course := rfl

@[simp] theorem holdOut_steady_course (s : State) (cause ch : Nat) : (holdOut s cause ch).steady.course = s.steady.course := by
  unfold holdOut
  dsimp only
  split <;> simp

@[simp] theorem endHoldString_steady_course (s : State) (n cause : Nat) : (endHoldString s n cause).steady.course = s.steady.course := by
  unfold endHoldString
  split <;> simp

@[simp] theorem endCause_steady_course (s : State) (ch cause : Nat) : (endCause s ch cause).steady.course = s.steady.course := by
  unfold endCause
  split <;> simp

@[simp] theorem endHoldChan_steady_course (s : State) (ch cause : Nat) : (endHoldChan s ch cause).steady.course = s.steady.course := by
  unfold endHoldChan
  split <;> simp

@[simp] theorem endHoldOut_steady_course (s : State) (cause ch : Nat) : (endHoldOut s cause ch).steady.course = s.steady.course := by
  unfold endHoldOut
  split <;> simp

@[simp] theorem joinQueue_steady_course (cause : Nat) (s : State) (ch : Nat) : (joinQueue cause s ch).steady.course = s.steady.course := by
  unfold joinQueue
  split <;> rfl

@[simp] theorem relevel_steady_course (s : State) (ch : Nat) : (relevel s ch).steady.course = s.steady.course := by
  unfold relevel
  dsimp only
  split_ifs <;> simp

@[simp] theorem passThroughLantern_steady_course (s : State) : (passThroughLantern s).steady.course = s.steady.course := by simp [passThroughLantern]

@[simp] theorem setBank_steady_course (s : State) (b state comp : Nat) (f : Bank13 → Bank13) :
    (setBank s b state comp f).steady.course = s.steady.course := by simp [setBank, State.onBank13]

@[simp] theorem abandonTransfer_steady_course (s : State) (comp : Nat) : (abandonTransfer s comp).steady.course = s.steady.course := by
  unfold abandonTransfer
  (repeat' split)
  all_goals simp

@[simp] theorem openTransfer_steady_course (s : State) (comp kind : Nat) (h key : List Byte) : (openTransfer s comp kind h key).1.steady.course = s.steady.course := by
  unfold openTransfer
  split <;> simp

@[simp] theorem waitMoved_steady_course (s : State) (p : Packet) (left : Nat) (noted : Bool) (reply : Reply) :
    (waitMoved s p left noted reply).steady.course = s.steady.course := rfl

@[simp] theorem setDrive_steady_course (s : State) (m : Nat) (d : Drive) : (setDrive s m d).steady.course = s.steady.course := by
  unfold setDrive
  dsimp only
  split <;> simp

@[simp] theorem coastNow_steady_course (s : State) (m : Nat) : (coastNow s m).steady.course = s.steady.course := by simp [coastNow]

theorem cutWrites_steady_course (p : Packet) (l : List Nat) (a : State × List WriteResult) :
    (l.foldl (fun a k => let (s, w) := directWrite a.1 p (pointAt 80 (100 + k)) 0; (s, w :: a.2)) a).1.steady.course = a.1.steady.course :=
  foldl_same (fun a : State × List WriteResult => a.1.steady.course) _ (fun a k => directWrite_steady_course a.1 p (pointAt 80 (100 + k)) 0) _ _

@[simp] theorem setMotor_steady_course (p : Packet) (s : State) (m : Nat) (g : MotorCfg) : (setMotor p s m g).1.steady.course = s.steady.course := by
  unfold setMotor
  dsimp only
  split_ifs
  · exact (cutWrites_steady_course ..).trans (onStore_steady_course ..)
  · exact (foldl_keeps (fun u : State => u.steady.course) _ (fun u k => coastNow_steady_course u k) _ _).trans (onStore_steady_course ..)
  · rfl

@[simp] theorem setMotors_steady_course (p : Packet) (s : State) (l : List (Nat × MotorCfg)) : (setMotors p s l).1.steady.course = s.steady.course := by
  unfold setMotors
  refine foldl_same (fun a : State × List WriteResult => a.1.steady.course) _ (fun a e => ?_) _ _
  exact setMotor_steady_course p a.1 e.1 e.2

@[simp] theorem endHbCause_steady_course (s : State) (m cause : Nat) : (endHbCause s m cause).steady.course = s.steady.course := by
  unfold endHbCause
  split <;> simp

theorem applyEntries_steady_course (p : Packet) : ∀ (l : List (Nat × PVal)) (s : State), (applyEntries s p l).1.steady.course = s.steady.course
  | [], _ => rfl
  | e :: r, s => by
    have hrest := applyEntries_steady_course p r (directWrite s p e.1 e.2).1
    have hwrite := directWrite_steady_course s p e.1 e.2
    unfold applyEntries
    dsimp only
    split <;> exact hrest.trans hwrite

@[simp] theorem setUser_steady_course (s : State) (n user : Nat) : (setUser s n user).steady.course = s.steady.course := by
  unfold setUser
  split <;> rfl

@[simp] theorem wakeEvent_steady_course (s : State) (cause index : Nat) : (wakeEvent s cause index).steady.course = s.steady.course := rfl

@[simp] theorem setLatch_steady_course (s : State) (cause index : Nat) : (setLatch s cause index).steady.course = s.steady.course := by
  unfold setLatch
  dsimp only
  split_ifs <;> simp

@[simp] theorem closeTransfer_steady_course (s : State) : (closeTransfer s).steady.course = s.steady.course := rfl

@[simp] theorem loadSlot_steady_course (s : State) (k : Nat) (x : KeySlot) : (loadSlot s k x).steady.course = s.steady.course := rfl

@[simp] theorem loadOwnerSlots_steady_course (s : State) : (loadOwnerSlots s).steady.course = s.steady.course := by simp [loadOwnerSlots]

@[simp] theorem installOwner_steady_course (s : State) (h payload : List Byte) : (installOwner s h payload).steady.course = s.steady.course :=
  (loadOwnerSlots_steady_course _).trans rfl

@[simp] theorem fieldApply_steady_course (s : State) : (fieldApply s).steady.course = s.steady.course := rfl

@[simp] theorem unlockFo_steady_course (s : State) (n : Nat) : (unlockFo s n).1.steady.course = s.steady.course := by
  unfold unlockFo
  dsimp only
  split_ifs
  · rfl
  · rfl
  · refine congrArg Steady.course ((onFo_steady ..).trans ?_)
    exact foldl_keeps State.steady _ (fun u k => foEnd_steady ..) _ _

@[simp] theorem motorEvent_steady_course (s : State) (kind m value : Nat) : (motorEvent s kind m value).steady.course = s.steady.course := by simp [motorEvent]

@[simp] theorem completeRun_steady_course (s : State) (m cause : Nat) : (completeRun s m cause).steady.course = s.steady.course := by
  unfold completeRun
  dsimp only
  (repeat' split)
  all_goals simp

@[simp] theorem brakeThen_steady_course (s : State) (m : Nat) (v : PVal) : (brakeThen s m v).steady.course = s.steady.course := by simp [brakeThen]

@[simp] theorem zeroMotorPoint_steady_course (s : State) (m : Nat) : (zeroMotorPoint s m).steady.course = s.steady.course := by
  unfold zeroMotorPoint
  (repeat' split)
  all_goals simp

@[simp] theorem countDrive_steady_course (s : State) (m : Nat) : (countDrive s m).steady.course = s.steady.course := rfl

@[simp] theorem stopRun_steady_course (s : State) (m cause : Nat) : (stopRun s m cause).steady.course = s.steady.course := by
  unfold stopRun
  dsimp only
  split <;> simp

@[simp] theorem cutRun_steady_course (s : State) (m cause : Nat) : (cutRun s m cause).steady.course = s.steady.course := by
  unfold cutRun
  dsimp only
  split <;> simp

@[simp] theorem startRun_steady_course (p : Packet) (s : State) : (startRun p s).s.steady.course = s.steady.course := by
  unfold startRun
  dsimp only
  split <;> simp

@[simp] theorem refuseMotor_steady_course (s : State) (m : Nat) : (refuseMotor s m).steady.course = s.steady.course := by simp [refuseMotor]

theorem diagChannels_steady_course (first : Nat) : ∀ (n i : Nat) (s : State), (diagChannels first n i s).2.steady.course = s.steady.course
  | 0, _, _ => rfl
  | n + 1, i, s => (diagChannels_steady_course first n (i + 1) (s.takeFree 8).2).trans rfl

@[simp] theorem reintegrate_steady_course (s : State) (c : Nat) : (reintegrate s c).steady.course = s.steady.course := by
  unfold reintegrate
  dsimp only
  split_ifs <;> simp

@[simp] theorem reconfigure_steady_course (s : State) (c : Nat) (change : CanStore → CanStore) : (reconfigure s c change).steady.course = s.steady.course := by
  unfold reconfigure
  dsimp only
  split <;> simp

@[simp] theorem enableStream_steady_course (s : State) (k : Nat) : (enableStream s k).steady.course = s.steady.course := by
  unfold enableStream
  dsimp only
  split <;> simp

@[simp] theorem applyMode_steady_course (s : State) (c : Nat) (m : CanMode) (restart : Bool) : (applyMode s c m restart).steady.course = s.steady.course := by
  obtain ⟨u, hu⟩ : ∃ u, reconfigure s c (fun x => { x with mode := vmod x.mode c fun _ => m }) = u := ⟨_, rfl⟩
  have hset : u.steady.course = s.steady.course := hu ▸ reconfigure_steady_course ..
  have hkept : ∀ v : State, v.steady.course = u.steady.course →
      (if restart = true ∧ (canOf v c).state = 3 then v.onCan c fun x => { x with recovering := true } else v).steady.course = s.steady.course := by
    intro v hv
    split
    · exact (congrArg Steady.course (onCan_steady ..)).trans (hv.trans hset)
    · exact hv.trans hset
  unfold applyMode
  dsimp only
  rw [hu]
  refine hkept _ ?_
  split
  · exact congrArg Steady.course (foldl_keeps State.steady _ (fun v f => frameLeaves_steady ..) _ _)
  · rfl

@[simp] theorem drawCounter_steady_course (s : State) (k : Nat) : (drawCounter s k).1.steady.course = s.steady.course := by
  unfold drawCounter
  dsimp only
  split_ifs <;> simp

@[simp] theorem raiseCommit_steady_course (s : State) (k : Nat) : (raiseCommit s k).steady.course = s.steady.course := rfl

@[simp] theorem drawCommitted_steady_course (s : State) (k : Nat) : (drawCommitted s k).1.steady.course = s.steady.course := by
  have hdrawn := drawCounter_steady_course s k
  unfold drawCommitted
  split
  · next u hu =>
    rw [hu] at hdrawn
    exact (drawCounter_steady_course ..).trans ((raiseCommit_steady_course ..).trans hdrawn)
  · exact hdrawn

@[simp] theorem exportSegments_steady_course (s : State) (p : Packet) (gs : List Segment) : (exportSegments s p gs).s.steady.course = s.steady.course := by
  have hdrawn := drawCommitted_steady_course s (p.num 32 1)
  unfold exportSegments
  dsimp only
  split
  · exact packetOut_steady_course ..
  · split
    · rfl
    · split
      · next u n hu =>
        rw [hu] at hdrawn
        rw [keyedOut_steady_course, packetOut_steady_course, engineRun_steady, hdrawn]
      · next u d hu hnot =>
        rw [hnot] at hdrawn
        exact hdrawn

@[simp] theorem revertApp_steady_course (s : State) (cause into comp : Nat) : (revertApp s cause into comp).1.steady.course = s.steady.course := by
  unfold revertApp
  (repeat' split)
  all_goals simp

@[simp] theorem revertKeeper_steady_course (s : State) (cause into comp : Nat) : (revertKeeper s cause into comp).1.steady.course = s.steady.course := by
  unfold revertKeeper
  (repeat' split)
  all_goals simp

@[simp] theorem assertKeeperReset_steady_course (s : State) : (assertKeeperReset s).steady.course = s.steady.course := rfl

@[simp] theorem changeImage_steady_course (s : State) (kind : Nat) (now : Bool) : (changeImage s kind now).steady.course = s.steady.course := by
  simp only [changeImage, apply_ite (fun u : State => u.steady.course)]
  simp

@[simp] theorem observeActed_steady_course (s : State) (h idx pt : Nat) (v : PVal) : (observeActed s h idx pt v).steady.course = s.steady.course := by
  unfold observeActed
  dsimp only
  split_ifs <;> simp

@[simp] theorem dropAhead_steady_course (s : State) (i : Nat) : (dropAhead s i).steady.course = s.steady.course := by
  unfold dropAhead
  dsimp only
  split_ifs <;> rfl

@[simp] theorem applySi_steady_course (s : State) (i : Nat) (g : SiCfg) : (applySi s i g).steady.course = s.steady.course := by
  unfold applySi
  split <;> simp

@[simp] theorem meterAdd_steady_course (s : State) (port rx tx : Nat) : (meterAdd s port rx tx).steady.course = s.steady.course := rfl

@[simp] theorem sendFrameAs_steady_course (s : State) (n : Nat) (t : IvgType) (sleep : Bool) :
    (sendFrameAs s n t sleep).steady.course = s.steady.course := by simp [sendFrameAs]

@[simp] theorem sendFrame_steady_course (s : State) (n : Nat) (t : IvgType) : (sendFrame s n t).steady.course = s.steady.course := rfl

@[simp] theorem enumNow_steady_course (s : State) (n : Nat) : (enumNow s n).steady.course = s.steady.course := by
  unfold enumNow
  split <;> rfl

@[simp] theorem enumRequest_steady_course (s : State) (n : Nat) (p : Packet) : (enumRequest s n p).steady.course = s.steady.course := by
  unfold enumRequest
  split <;> simp

@[simp] theorem enumFinish_steady_course (p : Packet) (ids : Option (List SatIdent)) (s : State) : (enumFinish p ids s).s.steady.course = s.steady.course := by
  unfold enumFinish
  dsimp only
  (repeat' split)
  all_goals simp

@[simp] theorem putRules_steady_course (s : State) (l : List (Nat × Rule)) : (putRules s l).steady.course = s.steady.course := by
  unfold putRules
  exact foldl_keeps (fun u : State => u.steady.course) _ (fun _ _ => by simp) _ _

@[simp] theorem commitBank_steady_course (s : State) (kind b bootLeft comp : Nat) : (commitBank s kind b bootLeft comp).steady.course = s.steady.course := by
  unfold commitBank
  split <;> simp

@[simp] theorem confirmBank_steady_course (s : State) (kind b comp : Nat) : (confirmBank s kind b comp).steady.course = s.steady.course := by simp [confirmBank]

@[simp] theorem keepSettings_steady_course (s : State) : (keepSettings s).steady.course = s.steady.course := by
  unfold keepSettings
  split <;> rfl

@[simp] theorem writeChunk_steady_course (s : State) (t : Transfer) (i : Nat) (l : List Byte) : (writeChunk s t i l).steady.course = s.steady.course := by
  unfold writeChunk
  split <;> rfl

@[simp] theorem setSelector_steady_course (s : State) (e : Nat × Selector) : (setSelector s e).steady.course = s.steady.course := by
  unfold setSelector
  split <;> rfl

@[simp] theorem driveAntennas_steady_course (s : State) (q : Poll) (mask : Nat) (on : Bool) : (driveAntennas s q mask on).steady.course = s.steady.course := by
  unfold driveAntennas
  exact foldl_keeps (fun u : State => u.steady.course) _ (fun _ _ => by simp) _ _

@[simp] theorem startPoll_steady_course (s : State) (q : Poll) (mask : Option Nat) : (startPoll s q mask).1.steady.course = s.steady.course := by
  unfold startPoll
  dsimp only
  split_ifs
  · rfl
  · exact congrArg Steady.course (foldl_keeps State.steady _ (fun u a => accessEvent_steady ..) _ _)
  · rfl
  · rw [driveAntennas_steady_course, onAccess_steady_course, setDomain_steady_course, drawPlane_steady_course]

@[simp] theorem readCounter_steady_course (s : State) (h k : Nat) : (readCounter s h k).2.steady.course = s.steady.course := by
  unfold readCounter
  dsimp only
  split_ifs <;> simp

@[simp] theorem hallBlock_steady_course (s : State) (h : Nat) : (hallBlock s h).2.steady.course = s.steady.course :=
  foldl_same (fun a : List Byte × State => a.2.steady.course) _ (fun a k => readCounter_steady_course a.2 h k) _ _

@[simp] theorem snapHall_steady_course (p : Packet) (s : State) : (snapHall p s).s.steady.course = s.steady.course := by simp [snapHall]

@[simp] theorem portEntry_steady_course (s : State) (last : Option (Nat × List Meter)) (code : Nat) : (portEntry s last code).2.steady.course = s.steady.course := by
  unfold portEntry
  dsimp only
  split <;> simp

@[simp] theorem portEntries_steady_course (s : State) (last : Option (Nat × List Meter)) (codes : List Nat) :
    (portEntries s last codes).2.steady.course = s.steady.course := by
  unfold portEntries
  refine foldl_same (fun a : List Byte × State => a.2.steady.course) _ (fun a n => ?_) _ _
  exact portEntry_steady_course a.2 last n

@[simp] theorem snapMeters_steady_course (p : Packet) (s : State) : (snapMeters p s).s.steady.course = s.steady.course := by simp [snapMeters]

@[simp] theorem endVlCause_steady_course (s : State) (v cause : Nat) : (endVlCause s v cause).steady.course = s.steady.course := by
  unfold endVlCause
  split <;> simp

@[simp] theorem endFeedCause_steady_course (s : State) (f cause : Nat) : (endFeedCause s f cause).steady.course = s.steady.course := by
  unfold endFeedCause
  split <;> simp

@[simp] theorem unlockValveOut_steady_course (s : State) (o : Nat) : (unlockValveOut s o).1.steady.course = s.steady.course := by
  unfold unlockValveOut
  dsimp only
  split_ifs <;> simp

@[simp] theorem disarm_steady_course (s : State) : (disarm s).steady.course = s.steady.course := rfl

@[simp] theorem changeTable_steady_course (s : State) (c : Nat) (t : Option Nat) : (changeTable s c t).steady.course = s.steady.course := rfl

@[simp] theorem keepGrid_steady_course (s : State) (ch : Nat) : (keepGrid s ch).steady.course = s.steady.course := rfl

@[simp] theorem valveFaultEvent_steady_course (s : State) (o cause detail : Nat) :
    (valveFaultEvent s o cause detail).steady.course = s.steady.course := by simp [valveFaultEvent]

@[simp] theorem writePosition_steady_course (s : State) (m : Nat) : (writePosition s m).steady.course = s.steady.course := by simp [writePosition]

@[simp] theorem setPosition_steady_course (s : State) (m : Nat) (v : PVal) (valid : Bool) :
    (setPosition s m v valid).steady.course = s.steady.course := by simp [setPosition]

@[simp] theorem rtcValue_steady_course (s : State) : (rtcValue s).2.steady.course = s.steady.course := by
  unfold rtcValue
  dsimp only
  rw [capItem_steady]
  split
  · split <;> rfl
  · rfl

@[simp] theorem unlockChan_steady_course (s : State) (ch : Nat) : (unlockChan s ch).steady.course = s.steady.course := by
  unfold unlockChan
  dsimp only
  rw [onChan_steady_course, endCause_steady_course, endCause_steady_course]
  exact foldl_keeps (fun u : State => u.steady.course) _ (fun u k => (onCond_steady_course ..).trans (endCause_steady_course ..)) _ _

theorem unlockRun_steady_course (p : Packet) (restore : Bool) : ∀ (l : List Nat) (s : State), (unlockRun p restore l s).1.steady.course = s.steady.course
  | [], _ => rfl
  | ch :: r, s => by
    have hchan := unlockChan_steady_course s ch
    unfold unlockRun
    split
    · exact unlockRun_steady_course p restore r s
    · split
      · exact unlockRun_steady_course p restore r s
      · dsimp only
        refine (unlockRun_steady_course p restore r _).trans ?_
        split
        · refine (updateChan_steady_course ..).trans ?_
          split
          · exact (onCond_steady_course ..).trans hchan
          · exact hchan
        · exact (directWrite_steady_course ..).trans hchan

@[simp] theorem ackSegments_steady_course (s : State) (seq : Nat) : (ackSegments s seq).steady.course = s.steady.course := by
  unfold ackSegments
  exact (congrArg Steady.course (updateLevel_steady _)).trans rfl

end Sys2Proof.Machine

namespace Sys2Proof.Machine

open Sys2Proof.Claims

@[simp] theorem loadSetOp_steady_course (p : Packet) (s : State) : (loadSetOp.run p s).s.steady.course = s.steady.course := by
  have hset := loadSetRun_steady_course p (loadSetEntries p) s
  unfold loadSetOp
  dsimp only
  split
  · exact hset
  · exact hset

@[simp] theorem captureStartOp_steady_course (p : Packet) (s : State) : (captureStartOp.run p s).s.steady.course = s.steady.course := by
  unfold captureStartOp
  dsimp only
  split_ifs
  · rfl
  · exact congrArg Steady.course (startCapture_steady ..)
  · rfl

theorem unlocks_steady_course (l : List Nat) (a : State × List Nat) :
    (l.foldl (fun a n => let (s, k) := unlockString a.1 n; (s, if k then a.2 ++ [n] else a.2)) a).1.steady.course = a.1.steady.course :=
  foldl_same (fun a : State × List Nat => a.1.steady.course) _ (fun a n => unlockString_steady_course a.1 n) _ _

@[simp] theorem stringConfigOp_steady_course (p : Packet) (s : State) : (stringConfigOp.run p s).s.steady.course = s.steady.course := by
  unfold stringConfigOp
  dsimp only
  refine (unlocks_steady_course ..).trans ?_
  dsimp only
  split
  · rfl
  · refine foldl_keeps (fun u : State => u.steady.course) _ (fun u i => ?_) _ _
    exact (updateString_steady_course ..).trans (onStore_steady_course ..)

theorem ite_steady_course {c : Prop} [Decidable c] {s u v : State} (hu : u.steady.course = s.steady.course) (hv : v.steady.course = s.steady.course) :
    (if c then u else v).steady.course = s.steady.course := by
  split
  · exact hu
  · exact hv

@[simp] theorem reflexEnableOp_steady_course (p : Packet) (s : State) : (reflexEnableOp.run p s).s.steady.course = s.steady.course := by
  unfold reflexEnableOp
  refine foldl_keeps (fun u : State => u.steady.course) _ (fun u e => ?_) _ _
  have hstop : ∀ v : State, v.steady.course = u.steady.course → (if p.bit 20 1 = true then stopActions v e.1 else v).steady.course = u.steady.course :=
    fun v hv => ite_steady_course ((stopActions_steady_course ..).trans hv) hv
  exact hstop _ (ite_steady_course ((congrArg Steady.course (setArmed_steady ..)).trans (onStore_steady_course ..)) (onStore_steady_course ..))

theorem unlockHbs_steady_course (l : List Nat) (s : State) :
    (l.foldl (fun s k => if (hbOf s k).cond.locks ≠ 0 then (endHbCause s k 7).onHb k fun x => { x with cond := x.cond.unlock 7 } else s) s).steady.course =
      s.steady.course := by
  refine foldl_keeps (fun u : State => u.steady.course) _ (fun u k => ?_) _ _
  split
  · exact (congrArg Steady.course (onHb_steady ..)).trans (endHbCause_steady_course ..)
  · rfl

@[simp] theorem motorConfigOp_steady_course (p : Packet) (s : State) : (motorConfigOp.run p s).s.steady.course = s.steady.course := by
  unfold motorConfigOp
  dsimp only
  split
  · rfl
  · split
    · exact (waitMoved_steady_course ..).trans ((unlockHbs_steady_course ..).trans (setMotors_steady_course ..))
    · exact (unlockHbs_steady_course ..).trans (setMotors_steady_course ..)

@[simp] theorem pointTypeOp_steady_course (p : Packet) (s : State) : (pointTypeOp.run p s).s.steady.course = s.steady.course := by
  unfold pointTypeOp
  dsimp only
  split_ifs
  · rfl
  · rfl
  · refine foldl_keeps (fun u : State => u.steady.course) _ (fun u i => ?_) _ _
    split <;> rfl

@[simp] theorem pointWriteOp_steady_course (p : Packet) (s : State) : (pointWriteOp.run p s).s.steady.course = s.steady.course := by
  have hwritten := applyEntries_steady_course p (pointWriteEntries p) s
  unfold pointWriteOp
  dsimp only
  split
  · exact hwritten
  · exact hwritten

@[simp] theorem nmRequestOp_steady_course (p : Packet) (s : State) : (nmRequestOp.run p s).s.steady.course = s.steady.course := by
  unfold nmRequestOp
  refine foldl_keeps (fun u : State => u.steady.course) _ (fun u n => ?_) _ _
  dsimp only
  split <;> simp

theorem unlockFos_steady_course (l : List Nat) (a : State × List Nat) :
    (l.foldl (fun a n => let (s, k) := unlockFo a.1 n; (s, if k then a.2 ++ [n] else a.2)) a).1.steady.course = a.1.steady.course :=
  foldl_same (fun a : State × List Nat => a.1.steady.course) _ (fun a n => unlockFo_steady_course a.1 n) _ _

@[simp] theorem fieldConfigOp_steady_course (p : Packet) (s : State) : (fieldConfigOp.run p s).s.steady.course = s.steady.course := by
  have hset : ∀ (c c' : Prop) [Decidable c] [Decidable c'] (u v : State), u.steady.course = s.steady.course → v.steady.course = s.steady.course →
      (if c then (u, []) else (bitList 8 (p.num 18 1)).foldl (fun a n => let (s, k) := unlockFo a.1 n; (s, if k then a.2 ++ [n] else a.2))
        (if c' then v else fieldApply v, ([] : List Nat))).1.steady.course = s.steady.course := by
    intro c c' _ _ u v hu hv
    split
    · exact hu
    · exact (unlockFos_steady_course ..).trans (ite_steady_course hv ((fieldApply_steady_course v).trans hv))
  have hnoted : ∀ (c : Prop) [Decidable c] (u : State), u.steady.course = s.steady.course →
      (if c then u.onField fun l => { l with cfgStored := true } else u).steady.course = s.steady.course := fun c _ u hu =>
    ite_steady_course hu hu
  have hstored : ∀ (c : Prop) [Decidable c] (f : Store → Store), (if c then s else s.onStore f).steady.course = s.steady.course := fun c _ f =>
    ite_steady_course rfl rfl
  exact hset _ _ _ _ (hnoted _ _ (hstored _ _)) (hnoted _ _ (hstored _ _))

@[simp] theorem loadDiagOp_steady_course (p : Packet) (s : State) : (loadDiagOp.run p s).s.steady.course = s.steady.course := by
  have hchannels := diagChannels_steady_course (p.num 16 1) (p.num 17 1) 0 s
  unfold loadDiagOp
  dsimp only
  split
  · exact hchannels
  · exact hchannels

theorem revertRes_steady_course (s : State) (f : State → State) (hf : ∀ u, (f u).steady.course = u.steady.course) (x : State × Bool)
    (h : x.1.steady.course = s.steady.course) :
    (match x with
      | (s', true) => ({ s := f s' } : Res)
      | (_, false) => { s := s, st := some .rollback }).s.steady.course = s.steady.course := by
  obtain ⟨u, ok⟩ := x
  cases ok with
  | true => exact (hf u).trans h
  | false => rfl

@[simp] theorem imageRevertOp_steady_course (p : Packet) (s : State) : (imageRevertOp.run p s).s.steady.course = s.steady.course := by
  unfold imageRevertOp
  by_cases hnone : (bankIn s (p.num 16 1) 5).isNone = true
  · exact congrArg (fun r : Res => r.s.steady.course) (if_pos hnone)
  · refine (congrArg (fun r : Res => r.s.steady.course) (if_neg hnone)).trans ?_
    by_cases hbusy : imageBusy s = true
    · exact congrArg (fun r : Res => r.s.steady.course) (if_pos hbusy)
    · refine (congrArg (fun r : Res => r.s.steady.course) (if_neg hbusy)).trans (revertRes_steady_course s _ (fun u => changeImage_steady_course ..) _ ?_)
      split
      · exact revertKeeper_steady_course ..
      · exact revertApp_steady_course ..

theorem setInput_steady_course (p : Packet) (s : State) (i : Nat) :
    (if inIsAi p i then
          (s.onStore fun st => { st with input := { st.input with ai := vmod st.input.ai (inIx p i) fun _ => aiCfgOf p i } }).onInput
            fun x => { x with ai := vmod x.ai (inIx p i) fun _ => {} }
        else applySi s (inIx p i) (siCfgOf p i)).steady.course = s.steady.course := by
  split
  · rfl
  · exact applySi_steady_course ..

@[simp] theorem inputConfigOp_steady_course (p : Packet) (s : State) : (inputConfigOp.run p s).s.steady.course = s.steady.course := by
  have hset : ∀ (c : Prop) [Decidable c] (f : Store → Store), (if c then s.onStore f else s).steady.course = s.steady.course := by
    intro c _ f
    split <;> rfl
  unfold inputConfigOp
  dsimp only
  split
  · exact hset _ _
  · exact (foldl_keeps (fun u : State => u.steady.course) _ (fun u i => setInput_steady_course p u i) _ _).trans (hset _ _)

@[simp] theorem nmReleaseOp_steady_course (p : Packet) (s : State) : (nmReleaseOp.run p s).s.steady.course = s.steady.course := by
  unfold nmReleaseOp
  refine foldl_keeps (fun u : State => u.steady.course) _ (fun u n => ?_) _ _
  exact (releaseNet_steady_course ..).trans (setUser_steady_course ..)

/-- A poll that has not begun leaves the clock, and one that has begun keeps it with the reply pending. -/
theorem pollRes_steady_course (p : Packet) (s : State) (x : State × Option Status) (h : x.1.steady.course = s.steady.course) :
    (match x with
      | (s, some st) => ({ s := s, st := some st } : Res)
      | (s, none) => { s := writePending s p, st := none }).s.steady.course = s.steady.course := by
  obtain ⟨u, st⟩ := x
  cases st with
  | none => exact (writePending_steady_course ..).trans h
  | some st => exact h

@[simp] theorem tokenEnrollOp_steady_course (p : Packet) (s : State) : (tokenEnrollOp.run p s).s.steady.course = s.steady.course := by
  unfold tokenEnrollOp
  dsimp only
  split_ifs
  · rfl
  · rfl
  · rfl
  · exact pollRes_steady_course p s _ (startPoll_steady_course ..)
  · exact writeToken_steady_course ..

theorem unlockValves_steady_course (l : List Nat) (a : State × Bool) :
    (l.foldl (fun a o => let (s, k) := unlockValveOut a.1 o; (s, a.2 || k)) a).1.steady.course = a.1.steady.course := by
  refine foldl_same (fun a : State × Bool => a.1.steady.course) _ (fun a o => ?_) _ _
  exact unlockValveOut_steady_course a.1 o

@[simp] theorem valveConfigOp_steady_course (p : Packet) (s : State) : (valveConfigOp.run p s).s.steady.course = s.steady.course := by
  unfold valveConfigOp
  dsimp only
  split
  · rfl
  · exact (unlockValves_steady_course ..).trans (onStore_steady_course ..)

@[simp] theorem loadConfigOp_steady_course (p : Packet) (s : State) : (loadConfigOp.run p s).s.steady.course = s.steady.course := by
  unfold loadConfigOp
  dsimp only
  split
  · rfl
  · exact (onStore_steady_course ..).trans (foldl_keeps (fun u : State => u.steady.course) _ (fun u ch => keepGrid_steady_course u ch) _ _)

@[simp] theorem loadUnlockOp_steady_course (p : Packet) (s : State) : (loadUnlockOp.run p s).s.steady.course = s.steady.course := by
  have hrun := unlockRun_steady_course p (p.bit 24 0) (bitList 56 (p.num 16 7)) s
  unfold loadUnlockOp
  dsimp only
  split
  · exact (waitMoved_steady_course ..).trans hrun
  · exact hrun

@[simp] theorem accessPollOp_steady_course (p : Packet) (s : State) : (accessPollOp.run p s).s.steady.course = s.steady.course := by
  unfold accessPollOp
  dsimp only
  split_ifs
  · rfl
  · rfl
  · exact pollRes_steady_course p s _ (startPoll_steady_course ..)

@[simp] theorem loadShedOp_steady_course (p : Packet) (s : State) : (loadShedOp.run p s).s.steady.course = s.steady.course := by
  unfold loadShedOp
  dsimp only
  split
  · rfl
  · refine (foldl_keeps (fun u : State => u.steady.course) _ (fun u b => queueStep_steady_course u b) _ _).trans ?_
    exact (foldl_keeps (fun u : State => u.steady.course) _ (fun u ch => relevel_steady_course u ch) _ _).trans (onStore_steady_course ..)

@[simp] theorem keyDeriveOp_steady_course (p : Packet) (s : State) : (keyDeriveOp.run p s).s.steady.course = s.steady.course := by
  unfold keyDeriveOp
  dsimp only
  (repeat' split)
  all_goals simp

@[simp] theorem ethTimeOp_steady_course (p : Packet) (s : State) : (ethTimeOp.run p s).s.steady.course = s.steady.course := by
  unfold ethTimeOp
  dsimp only
  split <;> simp

@[simp] theorem linSendOp_steady_course (p : Packet) (s : State) : (linSendOp.run p s).s.steady.course = s.steady.course := by
  unfold linSendOp
  dsimp only
  split <;> simp

@[simp] theorem releaseConfigOp_steady_course (p : Packet) (s : State) : (releaseConfigOp.run p s).s.steady.course = s.steady.course := by
  unfold releaseConfigOp
  dsimp only
  split_ifs <;> simp

@[simp] theorem pointReadOp_steady_course (p : Packet) (s : State) : (pointReadOp.run p s).s.steady.course = s.steady.course := rfl

@[simp] theorem keyEraseOp_steady_course (p : Packet) (s : State) : (keyEraseOp.run p s).s.steady.course = s.steady.course := by
  unfold keyEraseOp
  dsimp only
  split_ifs <;> simp

@[simp] theorem signOp_steady_course (p : Packet) (s : State) : (signOp.run p s).s.steady.course = s.steady.course := by
  unfold signOp
  dsimp only
  (repeat' split)
  all_goals simp

@[simp] theorem linConfigOp_steady_course (p : Packet) (s : State) : (linConfigOp.run p s).s.steady.course = s.steady.course := by
  unfold linConfigOp
  dsimp only
  split <;> simp

@[simp] theorem ivgalConfigOp_steady_course (p : Packet) (s : State) : (ivgalConfigOp.run p s).s.steady.course = s.steady.course := by
  unfold ivgalConfigOp
  dsimp only
  split_ifs <;> simp

@[simp] theorem canCancelOp_steady_course (p : Packet) (s : State) : (canCancelOp.run p s).s.steady.course = s.steady.course := by
  simp [canCancelOp]

@[simp] theorem verifyOp_steady_course (p : Packet) (s : State) : (verifyOp.run p s).s.steady.course = s.steady.course := by
  unfold verifyOp
  dsimp only
  (repeat' split)
  all_goals simp

@[simp] theorem ethConfigOp_steady_course (p : Packet) (s : State) : (ethConfigOp.run p s).s.steady.course = s.steady.course := by
  unfold ethConfigOp
  dsimp only
  (repeat' split)
  all_goals simp

@[simp] theorem logSealOp_steady_course (p : Packet) (s : State) : (logSealOp.run p s).s.steady.course = s.steady.course := by
  unfold logSealOp
  dsimp only
  split_ifs <;> simp

@[simp] theorem nmStatusOp_steady_course (p : Packet) (s : State) : (nmStatusOp.run p s).s.steady.course = s.steady.course := by
  unfold nmStatusOp
  dsimp only
  split <;> simp

@[simp] theorem watchGrantOp_steady_course (p : Packet) (s : State) : (watchGrantOp.run p s).s.steady.course = s.steady.course := by
  unfold watchGrantOp
  dsimp only
  split <;> simp

@[simp] theorem patternLoadOp_steady_course (p : Packet) (s : State) : (patternLoadOp.run p s).s.steady.course = s.steady.course := by
  unfold patternLoadOp
  dsimp only
  split_ifs <;> simp

@[simp] theorem accessStatusOp_steady_course (p : Packet) (s : State) : (accessStatusOp.run p s).s.steady.course = s.steady.course := by
  unfold accessStatusOp
  dsimp only
  split <;> simp

@[simp] theorem nmConfigOp_steady_course (p : Packet) (s : State) : (nmConfigOp.run p s).s.steady.course = s.steady.course := by
  unfold nmConfigOp
  dsimp only
  split_ifs <;> simp

@[simp] theorem canStatusOp_steady_course (p : Packet) (s : State) : (canStatusOp.run p s).s.steady.course = s.steady.course := by
  unfold canStatusOp
  dsimp only
  split_ifs <;> simp

@[simp] theorem timeSetOp_steady_course (p : Packet) (s : State) : (timeSetOp.run p s).s.steady.course = s.steady.course := by
  unfold timeSetOp
  dsimp only
  split <;> simp

@[simp] theorem sysStateOp_steady_course (p : Packet) (s : State) : (sysStateOp.run p s).s.steady.course = s.steady.course := by
  unfold sysStateOp
  dsimp only
  split_ifs <;> simp

@[simp] theorem ethSecureOp_steady_course (p : Packet) (s : State) : (ethSecureOp.run p s).s.steady.course = s.steady.course := by
  unfold ethSecureOp
  dsimp only
  (repeat' split)
  all_goals simp

@[simp] theorem tokenRevokeOp_steady_course (p : Packet) (s : State) : (tokenRevokeOp.run p s).s.steady.course = s.steady.course := by
  unfold tokenRevokeOp
  dsimp only
  split_ifs <;> simp

@[simp] theorem debugUnlockOp_steady_course (p : Packet) (s : State) : (debugUnlockOp.run p s).s.steady.course = s.steady.course := by
  unfold debugUnlockOp
  dsimp only
  split_ifs <;> simp

@[simp] theorem canSigmapOp_steady_course (p : Packet) (s : State) : (canSigmapOp.run p s).s.steady.course = s.steady.course := by
  unfold canSigmapOp
  dsimp only
  split_ifs <;> simp

@[simp] theorem imageTrialOp_steady_course (p : Packet) (s : State) : (imageTrialOp.run p s).s.steady.course = s.steady.course := by
  unfold imageTrialOp
  dsimp only
  split_ifs <;> simp

@[simp] theorem accessConfigOp_steady_course (p : Packet) (s : State) : (accessConfigOp.run p s).s.steady.course = s.steady.course := by
  unfold accessConfigOp
  dsimp only
  split <;> simp

@[simp] theorem imageBeginOp_steady_course (p : Packet) (s : State) : (imageBeginOp.run p s).s.steady.course = s.steady.course := by
  unfold imageBeginOp
  dsimp only
  (repeat' split)
  all_goals simp

@[simp] theorem sysInfoOp_steady_course (p : Packet) (s : State) : (sysInfoOp.run p s).s.steady.course = s.steady.course := rfl

@[simp] theorem attestOp_steady_course (p : Packet) (s : State) : (attestOp.run p s).s.steady.course = s.steady.course := by
  unfold attestOp
  dsimp only
  split <;> simp

@[simp] theorem tokenListOp_steady_course (p : Packet) (s : State) : (tokenListOp.run p s).s.steady.course = s.steady.course := rfl

@[simp] theorem imageEndOp_steady_course (p : Packet) (s : State) : (imageEndOp.run p s).s.steady.course = s.steady.course := by
  unfold imageEndOp
  dsimp only
  (repeat' split)
  all_goals simp

@[simp] theorem patternRunOp_steady_course (p : Packet) (s : State) : (patternRunOp.run p s).s.steady.course = s.steady.course := by
  unfold patternRunOp
  dsimp only
  split <;> simp

@[simp] theorem motorRunOp_steady_course (p : Packet) (s : State) : (motorRunOp.run p s).s.steady.course = s.steady.course := by
  unfold motorRunOp
  dsimp only
  (repeat' split)
  all_goals simp

@[simp] theorem sysNopOp_steady_course (p : Packet) (s : State) : (sysNopOp.run p s).s.steady.course = s.steady.course := rfl

@[simp] theorem loadFailstateOp_steady_course (p : Packet) (s : State) : (loadFailstateOp.run p s).s.steady.course = s.steady.course := by
  unfold loadFailstateOp
  dsimp only
  split_ifs <;> rfl

@[simp] theorem canConfigOp_steady_course (p : Packet) (s : State) : (canConfigOp.run p s).s.steady.course = s.steady.course := by
  unfold canConfigOp
  dsimp only
  split_ifs <;> simp

@[simp] theorem logReadOp_steady_course (p : Packet) (s : State) : (logReadOp.run p s).s.steady.course = s.steady.course := by
  unfold logReadOp
  dsimp only
  split <;> simp

@[simp] theorem keyUnwrapOp_steady_course (p : Packet) (s : State) : (keyUnwrapOp.run p s).s.steady.course = s.steady.course := by
  unfold keyUnwrapOp
  dsimp only
  (repeat' split)
  all_goals simp

@[simp] theorem fieldStatusOp_steady_course (p : Packet) (s : State) : (fieldStatusOp.run p s).s.steady.course = s.steady.course := by
  unfold fieldStatusOp
  dsimp only
  split <;> simp

@[simp] theorem canSendOp_steady_course (p : Packet) (s : State) : (canSendOp.run p s).s.steady.course = s.steady.course := by
  unfold canSendOp
  dsimp only
  split <;> simp

@[simp] theorem ivgalEnumOp_steady_course (p : Packet) (s : State) : (ivgalEnumOp.run p s).s.steady.course = s.steady.course := by
  unfold ivgalEnumOp
  dsimp only
  (repeat' split)
  all_goals simp

@[simp] theorem reflexLoadOp_steady_course (p : Packet) (s : State) : (reflexLoadOp.run p s).s.steady.course = s.steady.course := by
  simp [reflexLoadOp]

@[simp] theorem imageCommitOp_steady_course (p : Packet) (s : State) : (imageCommitOp.run p s).s.steady.course = s.steady.course := by
  unfold imageCommitOp
  dsimp only
  (repeat' split)
  all_goals simp

@[simp] theorem unlistedOp_steady_course (n : Nat) (p : Packet) (s : State) : ((unlistedOp n).run p s).s.steady.course = s.steady.course := rfl

@[simp] theorem ethStatusOp_steady_course (p : Packet) (s : State) : (ethStatusOp.run p s).s.steady.course = s.steady.course := by
  unfold ethStatusOp
  dsimp only
  split_ifs <;> simp

@[simp] theorem canFilterOp_steady_course (p : Packet) (s : State) : (canFilterOp.run p s).s.steady.course = s.steady.course := by
  unfold canFilterOp
  dsimp only
  split <;> simp

@[simp] theorem sysResetOp_steady_course (p : Packet) (s : State) : (sysResetOp.run p s).s.steady.course = s.steady.course := rfl

@[simp] theorem logAppendOp_steady_course (p : Packet) (s : State) : (logAppendOp.run p s).s.steady.course = s.steady.course := by
  unfold logAppendOp
  dsimp only
  split <;> simp

@[simp] theorem ivgalDiagOp_steady_course (p : Packet) (s : State) : (ivgalDiagOp.run p s).s.steady.course = s.steady.course := by
  unfold ivgalDiagOp
  dsimp only
  split <;> simp

@[simp] theorem sysConfigOp_steady_course (p : Packet) (s : State) : (sysConfigOp.run p s).s.steady.course = s.steady.course := by
  unfold sysConfigOp
  dsimp only
  split <;> simp

@[simp] theorem imageDataOp_steady_course (p : Packet) (s : State) : (imageDataOp.run p s).s.steady.course = s.steady.course := by
  unfold imageDataOp
  dsimp only
  (repeat' split)
  all_goals simp

@[simp] theorem valveTraceOp_steady_course (p : Packet) (s : State) : (valveTraceOp.run p s).s.steady.course = s.steady.course := by
  unfold valveTraceOp
  dsimp only
  (repeat' split)
  all_goals simp

@[simp] theorem sysTickOp_steady_course (p : Packet) (s : State) : (sysTickOp.run p s).s.steady.course = s.steady.course := rfl

@[simp] theorem keyInfoOp_steady_course (p : Packet) (s : State) : (keyInfoOp.run p s).s.steady.course = s.steady.course := by
  unfold keyInfoOp
  dsimp only
  split_ifs <;> simp

@[simp] theorem watchSnapOp_steady_course (p : Packet) (s : State) : (watchSnapOp.run p s).s.steady.course = s.steady.course := by
  unfold watchSnapOp
  dsimp only
  split <;> simp

@[simp] theorem captureStopOp_steady_course (p : Packet) (s : State) : (captureStopOp.run p s).s.steady.course = s.steady.course := by
  unfold captureStopOp
  dsimp only
  split <;> simp

@[simp] theorem linScheduleOp_steady_course (p : Packet) (s : State) : (linScheduleOp.run p s).s.steady.course = s.steady.course := by
  unfold linScheduleOp
  dsimp only
  split_ifs <;> simp

@[simp] theorem valveProgOp_steady_course (p : Packet) (s : State) : (valveProgOp.run p s).s.steady.course = s.steady.course := rfl

@[simp] theorem hashOp_steady_course (p : Packet) (s : State) : (hashOp.run p s).s.steady.course = s.steady.course := by
  unfold hashOp
  dsimp only
  split <;> simp

@[simp] theorem valveFireOp_steady_course (p : Packet) (s : State) : (valveFireOp.run p s).s.steady.course = s.steady.course := by
  unfold valveFireOp
  dsimp only
  (repeat' split)
  all_goals simp

@[simp] theorem keyWriteOp_steady_course (p : Packet) (s : State) : (keyWriteOp.run p s).s.steady.course = s.steady.course := by
  unfold keyWriteOp
  dsimp only
  split_ifs <;> simp

@[simp] theorem xcvrStateOp_steady_course (p : Packet) (s : State) : (xcvrStateOp.run p s).s.steady.course = s.steady.course := by
  unfold xcvrStateOp
  dsimp only
  split_ifs <;> simp

@[simp] theorem motorPosOp_steady_course (p : Packet) (s : State) : (motorPosOp.run p s).s.steady.course = s.steady.course := by
  unfold motorPosOp
  dsimp only
  split_ifs <;> simp

@[simp] theorem reflexStatsOp_steady_course (p : Packet) (s : State) : (reflexStatsOp.run p s).s.steady.course = s.steady.course := by
  unfold reflexStatsOp
  dsimp only
  split <;> simp

@[simp] theorem timeGetOp_steady_course (p : Packet) (s : State) : (timeGetOp.run p s).s.steady.course = s.steady.course := by
  simp [timeGetOp]

@[simp] theorem logExportAckOp_steady_course (p : Packet) (s : State) : (logExportAckOp.run p s).s.steady.course = s.steady.course := by
  unfold logExportAckOp
  dsimp only
  split <;> simp

/-! Opcodes that change the size of a ring may end its open flight (R413). -/

/-- The count is as it was, and no ring has got a flight. -/
def Thinned (s t : State) : Prop := t.clock = s.clock ∧ ∀ k, (s.ring k).flights = [] → (t.ring k).flights = []

theorem Thinned.refl (s : State) : Thinned s s := ⟨rfl, fun _ h => h⟩

theorem Thinned.trans {s t u : State} (h : Thinned s t) (k : Thinned t u) : Thinned s u :=
  ⟨k.1.trans h.1, fun r hr => k.2 r (h.2 r hr)⟩

theorem Thinned.of_course {s t : State} (h : t.steady.course = s.steady.course) : Thinned s t :=
  ⟨clock_of_course h, fun k hk => (flights_of_course h k).trans hk⟩

theorem foldl_thinned {α : Type} {f : State → α → State} (h : ∀ s a, Thinned s (f s a)) (l : List α) (s : State) : Thinned s (l.foldl f s) :=
  List.foldlRecOn (motive := fun u => Thinned s u) l f (.refl s) fun u hu a _ => hu.trans (h u a)

/-- A write of a ring that gives it no flight. -/
theorem onRing_thinned (s : State) (r : Nat) {f : Ring → Ring} (h : ∀ g : Ring, g.flights = [] → (f g).flights = []) : Thinned s (s.onRing r f) := by
  refine ⟨rfl, fun k hk => ?_⟩
  show (vget (vmod s.plane.rings r f) k).flights = []
  rw [vget_vmod]
  split
  · exact h _ hk
  · exact hk

theorem restart_flights (g : Ring) (device : Bool) (h : g.flights = []) : (g.restart device).flights = [] := by
  unfold Ring.restart
  dsimp only
  split <;> simp [h]

theorem setRingSize_thinned (s : State) (r n : Nat) : Thinned s (setRingSize s r n) := by
  unfold setRingSize
  dsimp only
  split
  · exact .refl s
  · refine onRing_thinned s r fun g hg => ?_
    have hrestart := restart_flights g (deviceProduces s r) hg
    split
    · exact hrestart
    · exact hrestart

theorem loseRings_thinned (x : CharterSet) (s : State) : Thinned s (loseRings x s) := by
  unfold loseRings
  dsimp only
  refine .trans (.of_course ?_) (foldl_thinned (fun u r => setRingSize_thinned u r 0) _ _)
  exact congrArg Steady.course (foldl_keeps State.steady _ (fun u r => endUnadmitted_steady ..) _ _)

theorem installSet_thinned (s : State) (x : CharterSet) : Thinned s (installSet s x) := by
  have hrest (u : State) : Thinned u (revokeGrants x (revokeTemplates x (revokeEngines x (revokeRules x u)))) := .of_course (by simp)
  have htrust (u : State) : Thinned u (trustWrite (u.onStore fun st => { st with charters := x, nextCharters := none })) := .of_course (by simp)
  unfold installSet
  dsimp only
  split
  · split
    · exact htrust s
    · exact (htrust s).trans (hrest _)
  · have hlost := (loseRings_thinned x s).trans (htrust _)
    split
    · exact hlost
    · exact hlost.trans (hrest _)

theorem sysCharterOp_thinned (p : Packet) (s : State) : Thinned s (sysCharterOp.run p s).s := by
  unfold sysCharterOp
  dsimp only
  split_ifs
  · exact .refl s
  · exact .refl s
  · exact .refl s
  · split
    · exact installSet_thinned ..
    · exact .of_course rfl
    · exact .refl s

theorem applyDump_thinned (s : State) (i : Nat) : Thinned s (applyDump s i) := by
  unfold applyDump
  dsimp only
  split_ifs
  · exact .refl s
  · refine .trans (onRing_thinned s (60 + i) fun g hg => ?_) ((setRingSize_thinned ..).trans (.of_course rfl))
    exact hg
  · exact setRingSize_thinned ..

theorem watchConfigOp_thinned (p : Packet) (s : State) : Thinned s (watchConfigOp.run p s).s := by
  unfold watchConfigOp
  dsimp only
  split_ifs
  · exact .refl s
  · exact .refl s
  · exact .trans (.of_course (onWatchStore_steady_course ..)) (applyDump_thinned ..)
  · exact .of_course (foldl_keeps (fun u : State => u.steady.course) _ (fun u x => setSelector_steady_course u x) _ _)

/-! What an answer leaves: the count of the tick hall goes on as it was (R15, R79). -/

/-- An opcode that answers leaves the count of the tick hall as it was. -/
def Op.KeepsClock (o : Op) : Prop := ∀ (p : Packet) (s : State) (st : Status), (o.run p s).st = some st → (o.run p s).s.clock = s.clock

/-- A replay that answers at once has found the place taken. -/
theorem replayRunOp_keepsClock : replayRunOp.KeepsClock := by
  intro p s st hst
  by_cases hfree : MayReplay s
  · rw [replayRun_idle p hfree] at hst
    split at hst
    · exact absurd hst (Option.some_ne_none st).symm
    · split at hst
      · exact absurd hst (Option.some_ne_none st).symm
      · exact absurd hst (Option.some_ne_none st).symm
  · have htaken : s.plane.capture.running = true ∨ s.plane.replay.running = true ∨ trialRuns s = true := by
      simp only [MayReplay, not_and_or, Bool.not_eq_false] at hfree
      exact hfree
    unfold replayRunOp
    dsimp only
    rw [if_pos htaken]

theorem keepsClock_of_keeperRow {c : Instr} {o : Op} {p : Packet} (h : keeperRow c = some (o, p)) : o.KeepsClock := by
  cases c
  all_goals simp only [keeperRow, Option.some.injEq, Prod.mk.injEq, reduceCtorEq] at h
  all_goals obtain ⟨rfl, rfl⟩ := h
  case replayRun => exact replayRunOp_keepsClock
  case sysCharter => exact fun q s _ _ => (sysCharterOp_thinned q s).1
  case watchConfig => exact fun q s _ _ => (watchConfigOp_thinned q s).1
  all_goals exact fun q s _ _ => clock_of_course (by simp)

theorem keepsClock_of_fastRow {c : Instr} {o : Op} {p : Packet} (h : fastRow c = some (o, p)) : o.KeepsClock := by
  cases c
  all_goals simp only [fastRow, Option.some.injEq, Prod.mk.injEq, reduceCtorEq] at h
  all_goals
    obtain ⟨rfl, rfl⟩ := h
    exact fun q s _ _ => clock_of_course (by simp)

/-- What an opcode answers, refused or carried out, keeps the count. -/
theorem carryOut_clock {o : Op} {p : Packet} {s : State} {st : Status} (h : o.KeepsClock) (hst : (carryOut o p s).st = some st) :
    (carryOut o p s).s.clock = s.clock := by
  unfold carryOut at hst ⊢
  split
  · rfl
  · next hrefuse =>
    rw [hrefuse] at hst
    exact h p s st hst

/-! The completion of every packet row (R76–R79). -/

/-- A packet that executes now completes what it has carried out. -/
theorem exec_of_executesNow {c : Instr} {o : Op} {p : Packet} {s u : State} {st : Status} (h : ExecutesNow c o p s u)
    (hagree : o.agree p u (o.run p u).s = true) (hst : (carryOut o p u).st = some st) :
    exec c s = effect s (completeNow (carryOut o p u).s p st (carryOut o p u).reply) := by
  rcases h with ⟨hrow, hruns, rfl⟩ | ⟨hrow, hruns, rfl⟩
  · rw [exec_keeperRow hrow, keeperTake_runs o p s hruns hagree, hst]
  · rw [exec_fastRow hrow, fastTake_runs o p s hruns hagree, hst]

theorem clock_of_executesNow {c : Instr} {o : Op} {p : Packet} {s u : State} {st : Status} (h : ExecutesNow c o p s u)
    (hst : (carryOut o p u).st = some st) : (carryOut o p u).s.clock = s.clock := by
  rcases h with ⟨hrow, -, rfl⟩ | ⟨hrow, -, rfl⟩
  · exact carryOut_clock (keepsClock_of_keeperRow hrow) hst
  · exact carryOut_clock (keepsClock_of_fastRow hrow) hst

/-- Settles O11: the opcode keeps the count, so its completion carries the tick of the packet, and the rest is what a completion writes. -/
theorem packetsCompleteInTheirSlots : Obligations.PacketsCompleteInTheirSlots := by
  unfold Obligations.PacketsCompleteInTheirSlots
  intro c o p s u st hnow hagree hst
  have hexec := exec_of_executesNow hnow hagree hst
  have hclock := clock_of_executesNow hnow hst
  generalize carryOut o p u = r at hexec hclock
  have hdone : Completed p st s (completeNow r.s p st r.reply) := Completed.of_clock (completeNow_completed ..) hclock
  refine ⟨(completeNow r.s p st r.reply).withPending s.pending, hexec, hdone, fun hwf hshown a haddr => ?_, fun htrial b hout => ?_⟩
  · exact completeNow_writes r.s p st r.reply a hwf hshown haddr
  · exact completeNow_bounded r.s p st r.reply b htrial hout

end Sys2Proof.Machine

namespace Sys2Proof.Machine

open Sys2Proof.Claims

/-! What the fast opcodes leave as it is: the rules of posting, by which an event finds its rings (R79, R98). -/

/-- The rules of posting among what is steady. -/
def Steady.posting (w : Steady) : PostRules := w.waits.posting

theorem posting_of_steadyPosting {s t : State} (h : t.steady.posting = s.steady.posting) : t.posting = s.posting := h

@[simp] theorem writePending_steady_posting (s : State) (p : Packet) : (writePending s p).steady.posting = s.steady.posting := by
  unfold writePending
  (repeat' split)
  all_goals rfl

@[simp] theorem canCancelOp_steady_posting (p : Packet) (s : State) : (canCancelOp.run p s).s.steady.posting = s.steady.posting := by
  simp [canCancelOp]

@[simp] theorem canSendOp_steady_posting (p : Packet) (s : State) : (canSendOp.run p s).s.steady.posting = s.steady.posting := by
  unfold canSendOp
  dsimp only
  split <;> simp

@[simp] theorem linSendOp_steady_posting (p : Packet) (s : State) : (linSendOp.run p s).s.steady.posting = s.steady.posting := by
  unfold linSendOp
  dsimp only
  split <;> simp

@[simp] theorem directWrite_steady_posting (s : State) (p : Packet) (pt : Nat) (v : PVal) :
    (directWrite s p pt v).1.steady.posting = s.steady.posting := by simp [directWrite]

theorem loadSetRun_steady_posting (p : Packet) : ∀ (l : List (Nat × PVal)) (s : State), (loadSetRun p l s).1.steady.posting = s.steady.posting
  | [], _ => rfl
  | (ch, v) :: r, s => by
    have hwrite := directWrite_steady_posting s p (pointAt 80 ch) v
    unfold loadSetRun
    dsimp only
    refine (loadSetRun_steady_posting p r _).trans ?_
    split
    · exact Eq.trans rfl hwrite
    · exact hwrite

@[simp] theorem loadSetOp_steady_posting (p : Packet) (s : State) : (loadSetOp.run p s).s.steady.posting = s.steady.posting := by
  have hset := loadSetRun_steady_posting p (loadSetEntries p) s
  unfold loadSetOp
  dsimp only
  split
  · exact hset
  · exact hset

@[simp] theorem motorEvent_steady_posting (s : State) (kind m value : Nat) : (motorEvent s kind m value).steady.posting = s.steady.posting := by simp [motorEvent]

@[simp] theorem completeRun_steady_posting (s : State) (m cause : Nat) : (completeRun s m cause).steady.posting = s.steady.posting := by
  unfold completeRun
  dsimp only
  (repeat' split)
  all_goals simp

@[simp] theorem setDrive_steady_posting (s : State) (m : Nat) (d : Drive) : (setDrive s m d).steady.posting = s.steady.posting := by
  unfold setDrive
  dsimp only
  split <;> simp

@[simp] theorem brakeThen_steady_posting (s : State) (m : Nat) (v : PVal) : (brakeThen s m v).steady.posting = s.steady.posting := by simp [brakeThen]

@[simp] theorem zeroMotorPoint_steady_posting (s : State) (m : Nat) : (zeroMotorPoint s m).steady.posting = s.steady.posting := by
  unfold zeroMotorPoint
  (repeat' split)
  all_goals simp

@[simp] theorem countDrive_steady_posting (s : State) (m : Nat) : (countDrive s m).steady.posting = s.steady.posting := rfl

@[simp] theorem stopRun_steady_posting (s : State) (m cause : Nat) : (stopRun s m cause).steady.posting = s.steady.posting := by
  unfold stopRun
  dsimp only
  split <;> simp

@[simp] theorem cutRun_steady_posting (s : State) (m cause : Nat) : (cutRun s m cause).steady.posting = s.steady.posting := by
  unfold cutRun
  dsimp only
  split <;> simp

@[simp] theorem startRun_steady_posting (p : Packet) (s : State) : (startRun p s).s.steady.posting = s.steady.posting := by
  unfold startRun
  dsimp only
  split <;> simp

@[simp] theorem refuseMotor_steady_posting (s : State) (m : Nat) : (refuseMotor s m).steady.posting = s.steady.posting := by simp [refuseMotor]

@[simp] theorem motorRunOp_steady_posting (p : Packet) (s : State) : (motorRunOp.run p s).s.steady.posting = s.steady.posting := by
  unfold motorRunOp
  dsimp only
  (repeat' split)
  all_goals simp

@[simp] theorem patternRunOp_steady_posting (p : Packet) (s : State) : (patternRunOp.run p s).s.steady.posting = s.steady.posting := by
  unfold patternRunOp
  dsimp only
  split <;> simp

@[simp] theorem pointReadOp_steady_posting (p : Packet) (s : State) : (pointReadOp.run p s).s.steady.posting = s.steady.posting := rfl

theorem applyEntries_steady_posting (p : Packet) : ∀ (l : List (Nat × PVal)) (s : State), (applyEntries s p l).1.steady.posting = s.steady.posting
  | [], _ => rfl
  | e :: r, s => by
    have hrest := applyEntries_steady_posting p r (directWrite s p e.1 e.2).1
    have hwrite := directWrite_steady_posting s p e.1 e.2
    unfold applyEntries
    dsimp only
    split <;> exact hrest.trans hwrite

@[simp] theorem pointWriteOp_steady_posting (p : Packet) (s : State) : (pointWriteOp.run p s).s.steady.posting = s.steady.posting := by
  have hwritten := applyEntries_steady_posting p (pointWriteEntries p) s
  unfold pointWriteOp
  dsimp only
  split
  · exact hwritten
  · exact hwritten

@[simp] theorem sysNopOp_steady_posting (p : Packet) (s : State) : (sysNopOp.run p s).s.steady.posting = s.steady.posting := rfl

@[simp] theorem sysTickOp_steady_posting (p : Packet) (s : State) : (sysTickOp.run p s).s.steady.posting = s.steady.posting := rfl

@[simp] theorem waitMoved_steady_posting (s : State) (p : Packet) (left : Nat) (noted : Bool) (reply : Reply) :
    (waitMoved s p left noted reply).steady.posting = s.steady.posting := rfl

@[simp] theorem onValve_steady_posting (s : State) (v : Nat) (f : Valve → Valve) : (s.onValve v f).steady.posting = s.steady.posting := rfl

@[simp] theorem valveFaultEvent_steady_posting (s : State) (o cause detail : Nat) :
    (valveFaultEvent s o cause detail).steady.posting = s.steady.posting := by simp [valveFaultEvent]

@[simp] theorem valveFireOp_steady_posting (p : Packet) (s : State) : (valveFireOp.run p s).s.steady.posting = s.steady.posting := by
  unfold valveFireOp
  dsimp only
  (repeat' split)
  all_goals simp

/-! Packets that execute late (R34, R35, R82). -/

/-- An opcode leaves the rules of posting as they were. -/
def Op.KeepsPosting (o : Op) : Prop := ∀ (p : Packet) (s : State), (o.run p s).s.posting = s.posting

theorem keepsPosting_of_fastRow {c : Instr} {o : Op} {p : Packet} (h : fastRow c = some (o, p)) : o.KeepsPosting := by
  cases c
  all_goals simp only [fastRow, Option.some.injEq, Prod.mk.injEq, reduceCtorEq] at h
  all_goals
    obtain ⟨rfl, rfl⟩ := h
    exact fun q s => posting_of_steadyPosting (by simp)

theorem carryOut_posting {o : Op} (p : Packet) (s : State) (h : o.KeepsPosting) : (carryOut o p s).s.posting = s.posting := by
  unfold carryOut
  split
  · rfl
  · exact h p s

/-- A completion leaves the rules of posting as they were. -/
theorem completeNow_posting (s : State) (p : Packet) (st : Status) (r : Reply) : (completeNow s p st r).posting = s.posting := by
  have hplane := completeNow_beyondCompletion s p st r
  have hstore := completeNow_store s p st r
  generalize completeNow s p st r = t at hplane hstore
  have hcount : (t.plane.running, t.plane.epoch, t.plane.tick, t.plane.settings) = (s.plane.running, s.plane.epoch, s.plane.tick, s.plane.settings) :=
    (congrArg (fun q : Plane => (q.running, q.epoch, q.tick, q.settings)) hplane :)
  simp only [Prod.mk.injEq] at hcount
  obtain ⟨hrun, hepoch, htick, hsettings⟩ := hcount
  simp only [State.posting, hrun, hepoch, htick, hsettings, hstore]

/-- LATE_EXEC of a packet (R34). -/
def lateEvent (s : State) (p : Packet) (ticks : Nat) (replayed : Bool) : Ev :=
  { stamp := s.stamp, idx := p.order, address := p.place, hall := p.hall, comp := p.comp, value := sat16 ticks, kind := 0x0105, replayed := replayed }

theorem capWrite_only (s : State) (r : CapRecord) :
    capWrite s r = { s with plane := { s.plane with landings := (capWrite s r).plane.landings } } := by
  unfold capWrite
  split
  · exact landPut_only ..
  · rfl

/-- A late packet sets LATE, and its event is posted by the rules that stood before it. -/
theorem noteLate_posts (s : State) (p : Packet) (n : Nat) (b : Bool) :
    ∃ v : State, noteLate s p n b = postEvent v (lateEvent v p n b) ∧ v.posting = s.posting ∧ v.plane.status.late = true ∧
      v.plane.results = s.plane.results := by
  refine ⟨_, rfl, ?_⟩
  generalize (if isFast p.opcode = true then 3 else 1) = hall
  split
  · rw [capWrite_only]
    exact ⟨rfl, rfl, rfl⟩
  · exact ⟨rfl, rfl, rfl⟩

/-- A late packet sets LATE, keeps the result stream and posts LATE_EXEC in the event rings of a state with the same rules of posting. -/
theorem noteLate_notes {s w : State} (p : Packet) (n : Nat) (b : Bool) (hrules : s.posting = w.posting) :
    (noteLate s p n b).plane.status.late = true ∧ Posted w (noteLate s p n b) (lateEvent w p n b) := by
  obtain ⟨v, hnote, hposting, hlate, -⟩ := noteLate_posts s p n b
  have hsame : v.posting = w.posting := hposting.trans hrules
  have hstamp : v.stamp = w.stamp := stamp_of_clock (congrArg (fun q : PostRules => (q.running, q.epoch, q.tick)) hsame :)
  have hev : lateEvent v p n b = lateEvent w p n b := by rw [lateEvent, hstamp]; rfl
  rw [hnote]
  constructor
  · rw [postEvent_only]
    exact hlate
  · rw [← hev]
    exact Posted.of_rings (postEvent_posted v _) (eventRings_of_posting hsame _)

theorem noteLate_results (s : State) (p : Packet) (n : Nat) (b : Bool) : (noteLate s p n b).plane.results = s.plane.results := by
  obtain ⟨v, hnote, -, -, hresults⟩ := noteLate_posts s p n b
  rw [hnote, postEvent_results, hresults]

theorem noteLate_late (s : State) (p : Packet) (n : Nat) (b : Bool) : (noteLate s p n b).plane.status.late = true :=
  (noteLate_notes p n b rfl).1

/-- A late packet completes S_LATE whatever its opcode answers. -/
theorem finishRun_late {o : Op} {p : Packet} {u : State} {st : Status} (n : Nat) (hcheck : checkPacket o p u = none)
    (hagree : o.agree p u (o.run p u).s = true) (hst : (carryOut o p u).st = some st) :
    finishRun (executeOp o p u) p true n =
      noteLate (completeNow (carryOut o p u).s p .late (carryOut o p u).reply) p n (replyHidden p (carryOut o p u).s) := by
  rw [executeOp_passes o p u hcheck hagree]
  unfold finishRun
  rw [hst]
  rfl

/-- The late packet's completion stands in the result stream behind its note. -/
theorem late_completed {r u s : State} (p : Packet) (reply : Reply) (n : Nat) (b : Bool) (hr : r.clock = u.clock) (hu : u.clock = s.clock) :
    Completed p .late s (noteLate (completeNow r p .late reply) p n b) := by
  have hdone : Completed p .late s (completeNow r p .late reply) := Completed.of_clock (completeNow_completed ..) (hr.trans hu)
  unfold Completed
  rw [noteLate_results]
  exact hdone

/-- A fast packet whose tick has passed executes (R34, R82). -/
theorem fastTake_late {o : Op} {p : Packet} {s : State} {st : Status} (hcode : p.opcode = o.code) (hwait : isWaiting s p = true)
    (halone : p.inFlight = false) (hlive : replayShuts p s = false) (hready : readyTick p s ≤ s.plane.tick) (hturn : inTurn p s = true)
    (hlate : dueTick true p s < s.plane.tick) (hroom : s.plane.execNow < 8) (hcheck : checkPacket o p (counted s p) = none)
    (hagree : o.agree p (counted s p) (o.run p (counted s p)).s = true) (hst : (carryOut o p (counted s p)).st = some st) :
    fastTake o p s = noteLate (completeNow (carryOut o p (counted s p)).s p .late (carryOut o p (counted s p)).reply) p
      (s.plane.tick - dueTick true p s) (replyHidden p (carryOut o p (counted s p)).s) := by
  have hheld : isHeld s p = true := isHeld_of_isWaiting hwait
  have hnow : ¬ (s.plane.tick < readyTick p s ∨ (!inTurn p s) = true) := by simp [hturn]; omega
  have hran : (ranLate p s && executed o p (counted s p)) = true := by simp [ranLate, executed, hlate, hcheck, hagree]
  have htake : fastTake o p s = fastExecute o p s := by
    simp only [fastTake, runFast, hcode, ne_eq, not_true_eq_false, if_false, hheld, if_true, hlive, halone, Bool.false_eq_true, if_neg hnow,
      if_neg (by omega : ¬ 8 ≤ s.plane.execNow)]
  rw [htake, fastExecute, hran, finishRun_late _ hcheck hagree hst]
  rfl

/-- A keeper packet with effects after E is executed (R35). -/
theorem keeperTake_late {o : Op} {p : Packet} {s : State} {st : Status} (hcode : p.opcode = o.code) (hkeeper : s.plane.keeper.contains p = true)
    (halone : p.inFlight = false) (hlive : replayShuts p s = false) (heffects : timeless p = false) (hreach : keeperReaches p s = true)
    (hturn : inTurn p s = true) (hlate : dueTick false p s < s.plane.tick) (hcheck : checkPacket o p (release s p) = none)
    (hagree : o.agree p (release s p) (o.run p (release s p)).s = true) (hst : (carryOut o p (release s p)).st = some st) :
    keeperTake o p s = noteLate (completeNow (carryOut o p (release s p)).s p .late (carryOut o p (release s p)).reply) p
      (s.plane.tick - dueTick false p s) (replyHidden p (carryOut o p (release s p)).s) := by
  have hheld : isHeld s p = true := isHeld_of_keeper hkeeper
  have hnow : ¬ (waitsForE o p s = true ∧ (s.plane.tick < dueTick false p s ∨ (!inTurn p s) = true)) := by simp [hturn]; omega
  have hdue : dueTick false p (release s p) = dueTick false p s := dueTick_of_clock (release_clock s p) false p
  have hran : (keeperLate p (release s p) && executed o p (release s p)) = true := by
    simp [keeperLate, executed, hdue, hlate, heffects, hcheck, hagree]
  have htake : keeperTake o p s = keeperExecute o p s := by
    simp only [keeperTake, runKeeper, hcode, ne_eq, not_true_eq_false, if_false, hheld, if_true, hlive, halone, hreach, Bool.not_true,
      Bool.false_eq_true, if_neg hnow]
  rw [htake, keeperExecute, hran, finishRun_late _ hcheck hagree hst]
  rfl

/-- Settles O14: a late packet completes S_LATE in the tick of its execution, and its note sets LATE and posts LATE_EXEC. -/
theorem latePacketsAnswerLate : Obligations.LatePacketsAnswerLate := by
  unfold Obligations.LatePacketsAnswerLate
  constructor
  · intro c o p s st hrow hcode hwait halone hlive hready hturn hlate hroom hcheck hagree hst
    have htake := fastTake_late hcode hwait halone hlive hready hturn hlate hroom hcheck hagree hst
    have hclock := carryOut_clock (keepsClock_of_fastRow hrow) hst
    have hrules := carryOut_posting p (counted s p) (keepsPosting_of_fastRow hrow)
    have hexec := (exec_fastRow hrow s).trans (congrArg (effect s) htake)
    generalize carryOut o p (counted s p) = r at hclock hrules hexec
    obtain ⟨hmark, hposted⟩ := noteLate_notes (s := completeNow r.s p .late r.reply) (w := s) p (s.plane.tick - dueTick true p s) (replyHidden p r.s)
      ((completeNow_posting ..).trans hrules)
    have hdone := late_completed p r.reply (s.plane.tick - dueTick true p s) (replyHidden p r.s) hclock (counted_clock s p)
    generalize noteLate (completeNow r.s p .late r.reply) p (s.plane.tick - dueTick true p s) (replyHidden p r.s) = t at hexec hmark hposted hdone
    exact ⟨t.withPending s.pending, hexec, hdone, hmark, hposted⟩
  · intro c o p s st hrow hcode hkeeper halone hlive heffects hreach hturn hlate hcheck hagree hst
    have htake := keeperTake_late hcode hkeeper halone hlive heffects hreach hturn hlate hcheck hagree hst
    have hclock := carryOut_clock (keepsClock_of_keeperRow hrow) hst
    have hexec := (exec_keeperRow hrow s).trans (congrArg (effect s) htake)
    generalize carryOut o p (release s p) = r at hclock hexec
    have hdone := late_completed p r.reply (s.plane.tick - dueTick false p s) (replyHidden p r.s) hclock (release_clock s p)
    have hmark := noteLate_late (completeNow r.s p .late r.reply) p (s.plane.tick - dueTick false p s) (replyHidden p r.s)
    generalize noteLate (completeNow r.s p .late r.reply) p (s.plane.tick - dueTick false p s) (replyHidden p r.s) = t at hexec hmark hdone
    exact ⟨t.withPending s.pending, hexec, hdone, hmark⟩

end Sys2Proof.Machine

namespace Sys2Proof.Machine

open Sys2Proof.Claims

/-! No opcode gives a ring a flight (R84–R88): only the keeper's admission does. -/

/-- An opcode leaves a ring without flights without flights. -/
def Op.KeepsEmpty (o : Op) : Prop := ∀ (p : Packet) (s : State) (k : Nat), (s.ring k).flights = [] → ((o.run p s).s.ring k).flights = []

theorem keepsEmpty_of_course {o : Op} (h : ∀ p s, (o.run p s).s.steady.course = s.steady.course) : o.KeepsEmpty :=
  fun p s k hk => (flights_of_course (h p s) k).trans hk

theorem refuseReplay_keepsOwnFlights (s : State) (st : Status) (k : Nat) (h : (s.ring k).flights = []) : ((refuseReplay s st).ring k).flights = [] := by
  have hdone := course_of_steady (completeNow_steady s s.plane.replay.packet st [])
  have hempty := fun u : State => course_of_steady (emptyRing63_steady u)
  unfold refuseReplay
  dsimp only
  split
  · exact (flights_of_course (hempty _) k).trans ((flights_of_course hdone k).trans h)
  · exact (flights_of_course hdone k).trans h

theorem beginReplay_keepsOwnFlights (s : State) (r : CapRecord) (k : Nat) (h : (s.ring k).flights = []) : ((beginReplay s r).ring k).flights = [] := by
  obtain ⟨v, hv⟩ : ∃ v, logReplay s 0 0 false [] = v := ⟨_, rfl⟩
  have hlogged : (v.ring k).flights = [] := by
    rw [← hv]
    exact (flights_of_course (course_of_steady (logDevice_steady ..)) k).trans h
  unfold beginReplay
  dsimp only
  rw [hv]
  split
  · exact refuseReplay_keepsOwnFlights s .badarg k h
  · split
    · exact refuseReplay_keepsOwnFlights s .conflict k h
    · exact (reenterBeam_keepsOwn _).empty k hlogged

theorem replayRunOp_keepsEmpty : replayRunOp.KeepsEmpty := by
  intro p s k hk
  have hwrite := fun u : State => flights_of_course (writePending_steady_course u p) k
  unfold replayRunOp
  dsimp only
  split
  · exact hk
  · split
    · exact (flights_of_course (course_of_steady (emptyRing63_steady _)) k).trans ((hwrite _).trans hk)
    · split
      · exact beginReplay_keepsOwnFlights _ _ k ((hwrite _).trans hk)
      · exact hk

theorem opsLow_keepEmpty : ∀ o ∈ opsLow, o.KeepsEmpty := by
  simp only [opsLow, List.forall_mem_cons, List.not_mem_nil, false_imp_iff, implies_true, and_true]
  refine ⟨?_, ?_, ?_, ?_, ?_, ?_, fun p s => (sysCharterOp_thinned p s).2, ?_⟩
  all_goals and_intros
  all_goals exact keepsEmpty_of_course fun p s => by simp

theorem opsMid_keepEmpty : ∀ o ∈ opsMid, o.KeepsEmpty := by
  simp only [opsMid, List.forall_mem_cons, List.not_mem_nil, false_imp_iff, implies_true, and_true]
  and_intros
  all_goals exact keepsEmpty_of_course fun p s => by simp

theorem opsHigh_keepEmpty : ∀ o ∈ opsHigh, o.KeepsEmpty := by
  have hwatch : watchConfigOp.KeepsEmpty := fun p s => (watchConfigOp_thinned p s).2
  simp only [opsHigh, List.forall_mem_cons, List.not_mem_nil, false_imp_iff, implies_true, and_true, hwatch, replayRunOp_keepsEmpty, true_and]
  and_intros
  all_goals exact keepsEmpty_of_course fun p s => by simp

/-- The opcode of a code, listed or not, gives no ring a flight. -/
theorem opOf_keepsEmpty (n : Nat) : ((opOf n).getD (unlistedOp n)).KeepsEmpty := by
  rcases hop : opOf n with _ | o
  · exact fun _ _ _ h => h
  · have hmem : o ∈ opsLow ++ opsMid ++ opsHigh := List.mem_of_find?_eq_some hop
    simp only [List.mem_append] at hmem
    obtain (hlow | hmid) | hhigh := hmem
    · exact opsLow_keepEmpty o hlow
    · exact opsMid_keepEmpty o hmid
    · exact opsHigh_keepEmpty o hhigh

theorem carryOut_keepsEmpty {o : Op} (h : o.KeepsEmpty) (p : Packet) (s : State) (k : Nat) (hk : (s.ring k).flights = []) :
    ((carryOut o p s).s.ring k).flights = [] := by
  unfold carryOut
  split
  · exact hk
  · exact h p s k hk

/-- The members of a flight, carried out in order, give no ring a flight. -/
theorem foldFlight_keepsEmpty (f : Flight) (k : Nat) (l : List Packet) (s : State) (done : List (Packet × Status × Reply))
    (hk : (s.ring k).flights = []) : ((foldFlight f l s done).1.ring k).flights = [] := by
  induction l generalizing s done with
  | nil => exact hk
  | cons p l ih =>
    have hnext := carryOut_keepsEmpty (opOf_keepsEmpty p.opcode) (flightPacket f p) s k hk
    unfold foldFlight
    dsimp only
    split
    · exact ih _ _ hnext
    · exact ih _ _ hnext

/-! The members of a flight complete (R86–R88). -/

theorem completeMembers_keeps {α : Type} (g : State → α) (h : ∀ s p st r, g (completeNow s p st r) = g s) (l : List (Packet × Status × Reply)) (s : State) :
    g (completeMembers 0 l s) = g s := by
  induction l generalizing s with
  | nil => rfl
  | cons x l ih => exact (ih _).trans (h s x.1 x.2.1 x.2.2)

theorem completeNow_keepsResults (s : State) (p : Packet) (st : Status) (r : Reply) {x : ResultItem} (h : x ∈ s.plane.results) :
    x ∈ (completeNow s p st r).plane.results := by
  have hwrite : (writeReply s p st r s.stamp).plane.results = s.plane.results := congrArg Plane.results (writeReply_plane s p st r s.stamp)
  unfold completeNow completeAt
  dsimp only
  split_ifs
  · rw [postEvent_results]
    exact List.mem_cons_of_mem _ h
  · rw [postEvent_results]
    exact List.mem_cons_of_mem _ (hwrite ▸ h)
  · exact List.mem_cons_of_mem _ h
  · exact List.mem_cons_of_mem _ (hwrite ▸ h)

theorem completeMembers_keepsResults (l : List (Packet × Status × Reply)) (s : State) {x : ResultItem} (h : x ∈ s.plane.results) :
    x ∈ (completeMembers 0 l s).plane.results := by
  induction l generalizing s with
  | nil => exact h
  | cons y l ih => exact ih _ (completeNow_keepsResults s y.1 y.2.1 y.2.2 h)

/-- Every member completes with its status. -/
theorem completeMembers_completed (l : List (Packet × Status × Reply)) (s : State) : ∀ x ∈ l, Completed x.1 x.2.1 s (completeMembers 0 l s) := by
  induction l generalizing s with
  | nil => exact fun _ h => absurd h List.not_mem_nil
  | cons y l ih =>
    refine List.forall_mem_cons.2 ⟨?_, fun x hx => ?_⟩
    · exact completeMembers_keepsResults l _ (completeNow_completed s y.1 y.2.1 y.2.2)
    · exact Completed.of_clock (ih (completeNow s y.1 y.2.1 y.2.2) x hx) (completeNow_clock ..)

/-- What the end of a flight leaves as it was. -/
structure EndsFlight (s t : State) : Prop where
  points : t.points = s.points
  store : t.store = s.store
  load : t.load = s.load
  motor : t.motor = s.motor
  light : t.light = s.light

theorem completeMembers_ends (l : List (Packet × Status × Reply)) (s : State) : EndsFlight s (completeMembers 0 l s) where
  points := completeMembers_keeps State.points completeNow_points l s
  store := completeMembers_keeps State.store completeNow_store l s
  load := completeMembers_keeps State.load completeNow_load l s
  motor := completeMembers_keeps State.motor completeNow_motor l s
  light := completeMembers_keeps State.light completeNow_light l s

theorem completeMembers_flights (l : List (Packet × Status × Reply)) (s : State) (k : Nat) : ((completeMembers 0 l s).ring k).flights = (s.ring k).flights :=
  completeMembers_keeps (fun u : State => (u.ring k).flights) (fun u p st r => flights_of_course (course_of_steady (completeNow_steady u p st r)) k) l s

/-- The members of a rejected flight carry the statuses that it names (R87, R88). -/
theorem rejectFlight_completed (s : State) (r : Nat) (f : Flight) (k : Nat) (st : Status) (g : Nat → Status) :
    ∀ m ∈ f.members.zipIdx, Completed m.1 (g m.2) s (rejectFlight s r f k st g) := by
  intro m hm
  have hmember : (m.1, g m.2, failReply k st) ∈ (f.members.zipIdx).map fun m => (m.1, g m.2, failReply k st) := List.mem_map_of_mem hm
  exact Completed.of_clock (completeMembers_completed _ (endFlight s r f) _ hmember) rfl

/-- Every member of a flight that is rejected with one status carries it (R88). -/
theorem rejectFlight_same (s : State) (r : Nat) (f : Flight) (k : Nat) (st st' : Status) :
    ∀ m ∈ f.members, Completed m st' s (rejectFlight s r f k st fun _ => st') := by
  intro m hm
  obtain ⟨i, hi⟩ := List.getElem?_of_mem hm
  exact rejectFlight_completed s r f k st (fun _ => st') (m, i) (List.mem_zipIdx_iff_getElem?.2 hi)

theorem rejectFlight_ends (s : State) (r : Nat) (f : Flight) (k : Nat) (st : Status) (g : Nat → Status) : EndsFlight s (rejectFlight s r f k st g) := by
  obtain ⟨hpoints, hstore, hload, hmotor, hlight⟩ := completeMembers_ends ((f.members.zipIdx).map fun m => (m.1, g m.2, failReply k st)) (endFlight s r f)
  exact ⟨hpoints, hstore, hload, hmotor, hlight⟩

/-- The end of a flight gives no ring one. -/
theorem endFlight_flights {s : State} (r : Nat) (f : Flight) {k : Nat} (h : (s.ring k).flights = []) : ((endFlight s r f).ring k).flights = [] :=
  (onRing_thinned s r fun g hg => by simp [hg]).2 k h

/-! The turns of the rings at the start of a tick (R86). -/

/-- Rings whose flights are not ready change nothing. -/
theorem applyFrom_same {s : State} {l : List Nat} (h : ∀ k ∈ l, applyRing s k = s) : applyFrom l s = s := by
  induction l with
  | nil => rfl
  | cons k l ih =>
    obtain ⟨hk, hl⟩ := List.forall_mem_cons.1 h
    unfold applyFrom
    dsimp only
    rw [hk, ih hl, ite_self]

theorem applyRing_bare {s : State} {k : Nat} (h : (s.ring k).flights = []) : applyRing s k = s := by
  unfold applyRing
  rw [h]
  rfl

theorem awaitsFlight_bare {s : State} {k : Nat} (h : (s.ring k).flights = []) : awaitsFlight s k = false := by
  unfold awaitsFlight
  rw [h]
  rfl

/-- The only ring with flights takes its turn, and the others change nothing. -/
theorem applyFrom_only {s : State} {r : Nat} {l : List Nat} (hr : r ∈ l) (hl : l.Nodup) (hbefore : ∀ k ∈ l, k ≠ r → (s.ring k).flights = [])
    (hafter : ∀ k ∈ l, k ≠ r → ((applyRing s r).ring k).flights = []) : applyFrom l s = applyRing s r := by
  induction l with
  | nil => exact absurd hr List.not_mem_nil
  | cons k l ih =>
    obtain ⟨hfresh, hrest⟩ := List.nodup_cons.1 hl
    unfold applyFrom
    dsimp only
    by_cases hk : k = r
    · subst hk
      have hothers : applyFrom l (applyRing s k) = applyRing s k :=
        applyFrom_same fun j hj => applyRing_bare (hafter j (List.mem_cons_of_mem _ hj) fun h => hfresh (h ▸ hj))
      rw [hothers, ite_self]
    · have hbare := hbefore k (List.mem_cons_self ..) hk
      rw [applyRing_bare hbare, awaitsFlight_bare hbare, if_neg Bool.false_ne_true]
      exact ih ((List.mem_cons.1 hr).resolve_left fun h => hk h.symm) hrest (fun j hj => hbefore j (List.mem_cons_of_mem _ hj))
        fun j hj => hafter j (List.mem_cons_of_mem _ hj)

/-- A ring takes its turn once in a tick. -/
theorem turnRings_nodup (s : State) : (turnRings s).Nodup := by
  have hrings : packetRings.Nodup := by decide
  refine (hrings.filter _).append (hrings.filter _) fun k h1 h2 => ?_
  have hfirst := (List.mem_filter.1 h1).2
  have hsecond := (List.mem_filter.1 h2).2
  simp only [beq_iff_eq] at hfirst hsecond
  omega

theorem turnRings_lt {s : State} {r : Nat} (h : r ∈ turnRings s) : r < 64 := by
  rcases List.mem_append.1 h with h | h
  · exact packetRings_lt (List.mem_filter.1 h).1
  · exact packetRings_lt (List.mem_filter.1 h).1

/-! A flight that the keeper finishes (R86). -/

/-- A ring with a flight is one of the rings. -/
theorem ring_of_flight {s : State} {r : Nat} {f : Flight} (h : (s.ring r).flights = [f]) : r < 64 := by
  by_contra hout
  have hdefault : s.ring r = default := by simp [State.ring, vget, hout]
  rw [hdefault] at h
  exact absurd h (List.cons_ne_nil f []).symm

/-- The keeper finishes the only flight of a ring. -/
theorem finishFlight_only {s : State} {r : Nat} {f : Flight} (h : OnlyFlight s r f) (hcomplete : f.complete = true) (hopen : f.finished = false) :
    OnlyFlight (finishFlight s r) r { f with finished := true } ∧ ∃ g : Ring → Ring, finishFlight s r = s.onRing r g := by
  obtain ⟨hflight, hothers⟩ := h
  have hfind : findFlight s r (fun x => x.complete && !x.finished) = some f := by simp [findFlight, hflight, hcomplete, hopen]
  have hfinish : finishFlight s r = s.onRing r fun g => { g with flights := g.flights.map fun x => if x = f then { x with finished := true } else x } := by
    unfold finishFlight
    rw [hfind]
  have hthin : Thinned s (finishFlight s r) := by
    rw [hfinish]
    exact onRing_thinned s r fun g hg => by simp [hg]
  refine ⟨⟨?_, fun k hk hne => hthin.2 k (hothers k hk hne)⟩, _, hfinish⟩
  have hsame := vget_vmod_same s.plane.rings r (fun g => { g with flights := g.flights.map fun x => if x = f then { x with finished := true } else x })
    (ring_of_flight hflight)
  have hget : ((finishFlight s r).ring r).flights = (s.ring r).flights.map fun x => if x = f then { x with finished := true } else x := by
    rw [hfinish]
    exact congrArg Ring.flights hsame
  rw [hget, hflight]
  simp

/-- The effect tick of a flight follows the count. -/
theorem flightDue_of_clock {s t : State} (h : t.clock = s.clock) {f g : Flight} (hmembers : g.members = f.members) (hend : g.endArrival = f.endArrival)
    (hint : g.interrupted = f.interrupted) : flightDue t g = flightDue s f := by
  have htick : t.plane.tick = s.plane.tick := congrArg (fun q : Bool × Nat × Nat => q.2.2) h
  unfold flightDue
  rw [hmembers, hend, hint]
  split
  · exact dueTick_of_clock h false _
  · exact htick

/-- The only flight is applied at the start of its tick. -/
theorem flightApply_applies {s : State} {r : Nat} {f : Flight} (hturn : r ∈ turnRings s) (hfresh : freshTick s = true) (h : OnlyFlight s r f)
    (hcomplete : f.complete = true) (hopen : f.finished = false) (hdue : flightDue s f = s.plane.tick)
    (hafter : ∀ k, k < 64 → k ≠ r → ((applyFlight (finishFlight s r) r { f with finished := true }).ring k).flights = []) :
    flightApply s r = applyFlight (finishFlight s r) r { f with finished := true } := by
  obtain ⟨⟨hflight, hothers⟩, g, hfinish⟩ := finishFlight_only h hcomplete hopen
  have hready : flightReady (finishFlight s r) { f with finished := true } = true := by
    have hdue' : flightDue (finishFlight s r) { f with finished := true } = s.plane.tick := by
      rw [hfinish]
      exact (flightDue_of_clock rfl rfl rfl rfl).trans hdue
    have htick : (finishFlight s r).plane.tick = s.plane.tick := by rw [hfinish]; rfl
    unfold flightReady
    rw [hdue', htick]
    simp [hcomplete]
  have happly : applyRing (finishFlight s r) r = applyFlight (finishFlight s r) r { f with finished := true } := by
    unfold applyRing
    rw [hflight, List.filter_cons_of_pos hready]
    rfl
  have hrings : turnRings (finishFlight s r) = turnRings s := by rw [hfinish]; rfl
  have hstart : freshTick (finishFlight s r) = true := by rw [hfinish]; exact hfresh
  unfold flightApply applyFlights
  dsimp only
  rw [hstart, if_pos rfl, hrings, applyFrom_only hturn (turnRings_nodup s) (fun k hk hne => hothers k (turnRings_lt hk) hne), happly]
  rw [happly]
  exact fun k hk hne => hafter k (turnRings_lt hk) hne

theorem flightApply_succeeds {s u : State} {r : Nat} {f : Flight} {done : List (Packet × Status × Reply)} (hturn : r ∈ turnRings s)
    (hfresh : freshTick s = true) (h : OnlyFlight s r f) (hcomplete : f.complete = true) (hopen : f.finished = false)
    (hdue : flightDue s f = s.plane.tick) (hpass : firstFailure (finishFlight s r) { f with finished := true } = none)
    (hagree : (flightEnd { f with finished := true } f.members (finishFlight s r)).any
      (flightAgrees { f with finished := true } (finishFlight s r)) = true)
    (hfold : foldFlight { f with finished := true } f.members (keepSettings (finishFlight s r)) [] = (u, done)) :
    ∃ t, exec (.flightApply r) s = .next t ∧
      (∀ x ∈ done, ResultItem.reply x.1.ring x.1.slot x.2.1.code (replyTick x.1 u u.stamp) (shareOf x.1) ∈ t.plane.results) ∧
      t.points = u.points ∧ t.store = u.store ∧ t.load = u.load ∧ t.motor = u.motor ∧ t.light = u.light := by
  obtain ⟨⟨-, hothers⟩, g, hfinish⟩ := finishFlight_only h hcomplete hopen
  have hkept (k : Nat) (hk : k < 64) (hne : k ≠ r) : (u.ring k).flights = [] := by
    have hstart : ((keepSettings (finishFlight s r)).ring k).flights = [] :=
      (flights_of_course (keepSettings_steady_course _) k).trans (hothers k hk hne)
    have hfolded := foldFlight_keepsEmpty { f with finished := true } k f.members _ [] hstart
    rw [hfold] at hfolded
    exact hfolded
  have hlate : (finishFlight s r).plane.tick - flightDue (finishFlight s r) { f with finished := true } = 0 := by
    have hdue' : flightDue (finishFlight s r) { f with finished := true } = s.plane.tick := by
      rw [hfinish]
      exact (flightDue_of_clock rfl rfl rfl rfl).trans hdue
    have htick : (finishFlight s r).plane.tick = s.plane.tick := by rw [hfinish]; rfl
    rw [hdue', htick, Nat.sub_self]
  have happly : applyFlight (finishFlight s r) r { f with finished := true } = completeMembers 0 done (endFlight u r { f with finished := true }) := by
    unfold applyFlight
    rw [hpass]
    dsimp only
    rw [if_pos hagree, hfold]
    dsimp only
    rw [hlate]
  have htake := flightApply_applies hturn hfresh h hcomplete hopen hdue fun k hk hne => by
    rw [happly, completeMembers_flights]
    exact endFlight_flights r _ (hkept k hk hne)
  rw [happly] at htake
  obtain ⟨hpoints, hstore, hload, hmotor, hlight⟩ := completeMembers_ends done (endFlight u r { f with finished := true })
  have hdone : ∀ x ∈ done, Completed x.1 x.2.1 u (completeMembers 0 done (endFlight u r { f with finished := true })) := fun x hx =>
    Completed.of_clock (completeMembers_completed done _ x hx) rfl
  exact ⟨(completeMembers 0 done (endFlight u r { f with finished := true })).withPending s.pending, congrArg (effect s) htake, hdone, hpoints, hstore,
    hload, hmotor, hlight⟩

theorem flightApply_waits {s : State} {r : Nat} {f : Flight} (hlater : s.plane.tick < flightDue s f) (h : OnlyFlight s r f)
    (hcomplete : f.complete = true) (hopen : f.finished = false) :
    ∃ t, exec (.flightApply r) s = .next t ∧ (t.ring r).flights = [{ f with finished := true }] ∧ ∀ x, x ≠ Part.planeRings → x.same s t := by
  obtain ⟨⟨hflight, hothers⟩, g, hfinish⟩ := finishFlight_only h hcomplete hopen
  have hnot : flightReady (finishFlight s r) { f with finished := true } = false := by
    have hdue' : flightDue (finishFlight s r) { f with finished := true } = flightDue s f := by
      rw [hfinish]
      exact flightDue_of_clock rfl rfl rfl rfl
    have htick : (finishFlight s r).plane.tick = s.plane.tick := by rw [hfinish]; rfl
    unfold flightReady
    rw [hdue', htick]
    simp [hlater]
  have hsame : ∀ k ∈ turnRings (finishFlight s r), applyRing (finishFlight s r) k = finishFlight s r := by
    intro k hk
    by_cases hkr : k = r
    · subst hkr
      unfold applyRing
      rw [hflight, List.filter_cons_of_neg (by simp [hnot])]
      rfl
    · exact applyRing_bare (hothers k (turnRings_lt hk) hkr)
  have htake : flightApply s r = finishFlight s r := by
    unfold flightApply applyFlights
    dsimp only
    rw [applyFrom_same hsame, ite_self]
  refine ⟨(finishFlight s r).withPending s.pending, congrArg (effect s) htake, hflight, fun x hx => ?_⟩
  rw [hfinish]
  cases x
  case planeRings => exact absurd rfl hx
  all_goals rfl

theorem flightApply_fails {s : State} {r k : Nat} {st : Status} {f : Flight} (hturn : r ∈ turnRings s) (hfresh : freshTick s = true)
    (h : OnlyFlight s r f) (hcomplete : f.complete = true) (hopen : f.finished = false) (hdue : flightDue s f = s.plane.tick)
    (hfail : firstFailure (finishFlight s r) { f with finished := true } = some (k, st)) :
    ∃ t, exec (.flightApply r) s = .next t ∧ (∀ m ∈ f.members.zipIdx, Completed m.1 (if m.2 = k then st else .conflict) s t) ∧
      t.points = s.points ∧ t.store = s.store ∧ t.load = s.load ∧ t.motor = s.motor ∧ t.light = s.light := by
  obtain ⟨⟨-, hothers⟩, g, hfinish⟩ := finishFlight_only h hcomplete hopen
  have happly : applyFlight (finishFlight s r) r { f with finished := true } =
      rejectFlight (finishFlight s r) r { f with finished := true } k st fun i => if i = k then st else .conflict := by
    unfold applyFlight
    rw [hfail]
  have htake := flightApply_applies hturn hfresh h hcomplete hopen hdue fun j hj hne => by
    rw [happly, rejectFlight, completeMembers_flights]
    exact endFlight_flights r _ (hothers j hj hne)
  rw [happly] at htake
  have hmembers := rejectFlight_completed (finishFlight s r) r { f with finished := true } k st fun i => if i = k then st else .conflict
  obtain ⟨hpoints, hstore, hload, hmotor, hlight⟩ :=
    rejectFlight_ends (finishFlight s r) r { f with finished := true } k st fun i => if i = k then st else .conflict
  have hclock : (finishFlight s r).clock = s.clock := by rw [hfinish]; rfl
  have hstart : EndsFlight s (finishFlight s r) := by
    rw [hfinish]
    exact ⟨rfl, rfl, rfl, rfl, rfl⟩
  generalize rejectFlight (finishFlight s r) r { f with finished := true } k st (fun i => if i = k then st else .conflict) = t at *
  exact ⟨t.withPending s.pending, congrArg (effect s) htake, fun m hm => Completed.of_clock (hmembers m hm) hclock, hpoints.trans hstart.points,
    hstore.trans hstart.store, hload.trans hstart.load, hmotor.trans hstart.motor, hlight.trans hstart.light⟩

theorem flightTimeout_ends {s : State} {r : Nat} {f : Flight} (h : findFlight s r (flightExpired s) = some f) :
    ∃ t, exec (.flightTimeout r) s = .next t ∧ (∀ m ∈ f.members, Completed m .timeout s t) ∧
      t.points = s.points ∧ t.store = s.store ∧ t.load = s.load := by
  have htake : flightTimeout s r = rejectFlight s r f 0xFD .timeout fun _ => .timeout := by
    unfold flightTimeout
    rw [h]
  obtain ⟨hpoints, hstore, hload, -, -⟩ := rejectFlight_ends s r f 0xFD .timeout fun _ => .timeout
  exact ⟨(rejectFlight s r f 0xFD .timeout fun _ => .timeout).withPending s.pending, congrArg (effect s) htake,
    rejectFlight_same s r f 0xFD .timeout .timeout, hpoints, hstore, hload⟩

theorem flightInterrupted_ends {s : State} {r : Nat} {f : Flight} (hhead : headWhole s r = false)
    (h : (findFlight s r fun f => f.interrupted.isSome && flightDue s f ≤ s.plane.tick) = some f) :
    ∃ t, exec (.flightInterrupted r) s = .next t ∧ (∀ m ∈ f.members, Completed m .badarg s t) ∧
      t.points = s.points ∧ t.store = s.store ∧ t.load = s.load := by
  have hnone : interruptHead s r = s := by
    unfold interruptHead
    rw [hhead, if_neg Bool.false_ne_true]
  have htake : flightInterrupted s r = rejectFlight s r f 0xFE .badarg fun _ => .badarg := by
    unfold flightInterrupted
    rw [hnone]
    dsimp only
    rw [h]
  obtain ⟨hpoints, hstore, hload, -, -⟩ := rejectFlight_ends s r f 0xFE .badarg fun _ => .badarg
  exact ⟨(rejectFlight s r f 0xFE .badarg fun _ => .badarg).withPending s.pending, congrArg (effect s) htake,
    rejectFlight_same s r f 0xFE .badarg .badarg, hpoints, hstore, hload⟩

/-- A ring whose open flight a packet with FLIGHT = 0 interrupts (R88). -/
def Ring.interruptedBy (p : Packet) (g : Ring) : Ring :=
  match g.openFlight with
  | some f => if f.members.any (samePlace p) then g else g.putOpen { f with interrupted := some p.arrival }
  | none => g

/-- A packet with FLIGHT = 0 at the head of its ring interrupts the open flight there. -/
theorem interruptHead_interrupts {s : State} {r : Nat} (hhead : headWhole s r = true) (halone : (ringPacket s r).inFlight = false) :
    interruptHead s r = s.onRing r (Ring.interruptedBy (ringPacket s r)) := by
  have hring : (ringPacket s r).ring = r := rfl
  unfold interruptHead interruptFlight
  rw [hhead, if_pos rfl, halone, if_neg Bool.false_ne_true, hring]
  rfl

theorem interruptedBy_flights {g : Ring} {p : Packet} {f : Flight} (hflight : g.flights = [f]) (hopen : f.isOpen = true)
    (hfresh : f.members.any (samePlace p) = false) : (g.interruptedBy p).flights = [{ f with interrupted := some p.arrival }] := by
  have hyoungest : g.openFlight = some f := by
    unfold Ring.openFlight
    rw [hflight]
    simp [hopen]
  unfold Ring.interruptedBy
  rw [hyoungest]
  dsimp only
  rw [hfresh, if_neg Bool.false_ne_true]
  unfold Ring.putOpen
  rw [hyoungest, hflight]
  rfl

theorem flightInterrupted_interrupts {s : State} {r : Nat} {f : Flight} (hr : r ∈ packetRings) (hhead : headWhole s r = true)
    (halone : (ringPacket s r).inFlight = false) (hflight : (s.ring r).flights = [f]) (hopen : f.isOpen = true)
    (hfresh : f.members.any (samePlace (ringPacket s r)) = false)
    (hlater : s.plane.tick < flightDue s { f with interrupted := some (ringPacket s r).arrival }) :
    ∃ t, exec (.flightInterrupted r) s = .next t ∧ (t.ring r).flights = [{ f with interrupted := some (ringPacket s r).arrival }] ∧
      ∀ x, x ≠ Part.planeRings → x.same s t := by
  obtain ⟨g, hg⟩ : ∃ g, Ring.interruptedBy (ringPacket s r) = g := ⟨_, rfl⟩
  have hint := interruptHead_interrupts hhead halone
  have hput := interruptedBy_flights hflight hopen hfresh
  rw [hg] at hint hput
  have hnow : ((s.onRing r g).ring r).flights = [{ f with interrupted := some (ringPacket s r).arrival }] := by
    rw [← hput]
    exact congrArg Ring.flights (vget_vmod_same s.plane.rings r g (packetRings_lt hr))
  have hdue : flightDue (s.onRing r g) { f with interrupted := some (ringPacket s r).arrival } =
      flightDue s { f with interrupted := some (ringPacket s r).arrival } := flightDue_of_clock rfl rfl rfl rfl
  have hnone : (findFlight (s.onRing r g) r fun f => f.interrupted.isSome && flightDue (s.onRing r g) f ≤ (s.onRing r g).plane.tick) = none := by
    have htick : (s.onRing r g).plane.tick = s.plane.tick := rfl
    unfold findFlight
    rw [hnow, htick]
    simp [hdue, hlater]
  have htake : flightInterrupted s r = s.onRing r g := by
    unfold flightInterrupted
    rw [hint]
    dsimp only
    rw [hnone]
  refine ⟨(s.onRing r g).withPending s.pending, congrArg (effect s) htake, hnow, fun x hx => ?_⟩
  cases x
  case planeRings => exact absurd rfl hx
  all_goals rfl

/-- Settles O37: no opcode gives a ring a flight, so the ring's only flight takes its turn alone, and its members complete with what they were given. -/
theorem flightsApplyOrFailWhole : Obligations.FlightsApplyOrFailWhole :=
  ⟨fun _ _ _ _ _ hturn hfresh h hcomplete hopen hdue hpass hagree hfold =>
      flightApply_succeeds hturn hfresh h hcomplete hopen hdue hpass hagree hfold,
    fun _ _ _ hlater h hcomplete hopen => flightApply_waits hlater h hcomplete hopen,
    fun _ _ _ _ _ hturn hfresh h hcomplete hopen hdue hfail => flightApply_fails hturn hfresh h hcomplete hopen hdue hfail,
    fun _ _ _ h => flightTimeout_ends h,
    fun _ _ _ hhead h => flightInterrupted_ends hhead h,
    fun _ _ _ hr hhead halone hflight hopen hfresh hlater => flightInterrupted_interrupts hr hhead halone hflight hopen hfresh hlater⟩

end Sys2Proof.Machine

namespace Sys2Proof.Machine

open Sys2Proof.Claims

/-! What leaves memory as it is (R77, R297): every function of the machine but those that write bytes. -/

theorem ite_mem {c : Prop} [Decidable c] {s u v : State} (hu : u.mem = s.mem) (hv : v.mem = s.mem) : (if c then u else v).mem = s.mem := by
  split
  · exact hu
  · exact hv

theorem ite_fst_mem {α : Type} {c : Prop} [Decidable c] {s : State} {u v : State × α} (hu : u.1.mem = s.mem) (hv : v.1.mem = s.mem) :
    (if c then u else v).1.mem = s.mem := by
  split
  · exact hu
  · exact hv

@[simp] theorem onPlane_mem (s : State) (f : Plane → Plane) : (s.onPlane f).mem = s.mem := rfl

@[simp] theorem onRing_mem (s : State) (r : Nat) (f : Ring → Ring) : (s.onRing r f).mem = s.mem := rfl

@[simp] theorem takeIn_mem (s : State) (p : Packet) : (takeIn s p).mem = s.mem := rfl

@[simp] theorem interruptFlight_mem (p : Packet) (s : State) : (interruptFlight p s).mem = s.mem := by
  unfold interruptFlight
  split <;> rfl

@[simp] theorem admitPacket_mem (p : Packet) (s : State) : (admitPacket p s).mem = s.mem := by
  unfold admitPacket
  split <;> simp

@[simp] theorem landPut_mem (s : State) (l : Nat) (it : LandItem) : (landPut s l it).mem = s.mem := rfl

@[simp] theorem capWrite_mem (s : State) (r : CapRecord) : (capWrite s r).mem = s.mem := by
  unfold capWrite
  split <;> rfl

@[simp] theorem postEvent_mem (s : State) (e : Ev) : (postEvent s e).mem = s.mem := by
  unfold postEvent
  split <;> rfl

@[simp] theorem bump_mem (s : State) (cls index n : Nat) (hall : Option Nat) : (bump s cls index n hall).mem = s.mem := by rw [bump_only]

@[simp] theorem noteLate_mem (s : State) (p : Packet) (ticks : Nat) (replayed : Bool) : (noteLate s p ticks replayed).mem = s.mem := by
  unfold noteLate
  dsimp only
  split_ifs <;> simp

@[simp] theorem retirePacket_mem (s : State) (p : Packet) : (retirePacket s p).mem = s.mem := rfl

@[simp] theorem onTrial_mem (s : State) (f : Trial → Trial) : (s.onTrial f).mem = s.mem := rfl

@[simp] theorem onShadow_mem (s : State) (r : Nat) (f : Ring → Ring) : (s.onShadow r f).mem = s.mem := rfl

@[simp] theorem dropReplayed_mem (s : State) (p : Packet) : (dropReplayed s p).mem = s.mem := rfl

@[simp] theorem release_mem (s : State) (p : Packet) : (release s p).mem = s.mem := rfl

@[simp] theorem counted_mem (s : State) (p : Packet) : (counted s p).mem = s.mem := rfl

@[simp] theorem joinFlight_mem (p : Packet) (s : State) : (joinFlight p s).mem = s.mem := rfl

@[simp] theorem onPoints_mem (s : State) (f : Points → Points) : (s.onPoints f).mem = s.mem := rfl

@[simp] theorem dropChanges_mem (s : State) : (dropChanges s).mem = s.mem := rfl

@[simp] theorem countQueued_mem (s : State) : (countQueued s).mem = s.mem := rfl

@[simp] theorem endAction_mem (s : State) (pt : Nat) : (endAction s pt).mem = s.mem := rfl

@[simp] theorem runAction_mem (s : State) (a : RunAct) : (runAction s a).mem = s.mem := rfl

@[simp] theorem onBus_mem (s : State) (f : Bus → Bus) : (s.onBus f).mem = s.mem := rfl

@[simp] theorem l4Put_mem (s : State) (hall idx : Nat) (k : L4Kind) : (l4Put s hall idx k).mem = s.mem := rfl

@[simp] theorem reflexTemplate_mem (s : State) (t rule : Nat) : (reflexTemplate s t rule).1.mem = s.mem := by
  unfold reflexTemplate
  split <;> rfl

@[simp] theorem countDiscarded_mem (s : State) (n : Nat) : (countDiscarded s n).mem = s.mem := rfl

@[simp] theorem pput_mem (s : State) (pt : Nat) (v : PVal) : (pput s pt v).mem = s.mem := rfl

@[simp] theorem detachPoint_mem (s : State) (pt : Nat) : (detachPoint s pt).mem = s.mem := rfl

@[simp] theorem noteLatency_mem (s : State) (w : PWrite) : (noteLatency s w).mem = s.mem := by
  unfold noteLatency
  (repeat' split)
  all_goals rfl

@[simp] theorem noteWriter_mem (s : State) (pt : Nat) (v : PVal) (k : Writer) (comp : Nat) (t : Stamp) : (noteWriter s pt v k comp t).mem = s.mem := rfl

@[simp] theorem writeStands_mem (s : State) (w : PWrite) (t : Stamp) (old : PVal) (count : Nat) : (writeStands s w t old count).mem = s.mem := by
  unfold writeStands
  split <;> simp

@[simp] theorem applyWrite_mem (s : State) (w : PWrite) : (applyWrite s w).1.mem = s.mem := by
  unfold applyWrite
  (repeat' split)
  all_goals simp

@[simp] theorem countMoved_mem (s : State) (w : PWrite) : (countMoved s w).mem = s.mem := by
  unfold countMoved
  dsimp only
  split_ifs <;> simp

@[simp] theorem moveWrite_mem (s : State) (w : PWrite) : (moveWrite s w).mem = s.mem := by simp [moveWrite]

@[simp] theorem writePoint_mem (s : State) (w : PWrite) : (writePoint s w).1.mem = s.mem := by
  unfold writePoint
  split <;> simp

@[simp] theorem reflexWrite_mem (s : State) (i : Nat) (r : Rule) (pt : Nat) (v : PVal) (trig : Nat) :
    (reflexWrite s i r pt v trig).mem = s.mem := by simp [reflexWrite]

@[simp] theorem onLight_mem (s : State) (f : Light → Light) : (s.onLight f).mem = s.mem := rfl

@[simp] theorem onEngine_mem (s : State) (e : Nat) (f : Engine → Engine) : (s.onEngine e f).mem = s.mem := rfl

@[simp] theorem patWrite_mem (s : State) (e : Nat) (pt : Nat) (v : PVal) : (patWrite s e pt v).mem = s.mem := by
  simp only [patWrite, apply_ite State.mem]
  simp

@[simp] theorem patternEndEvent_mem (s : State) (e : Nat) (g : PatProg) (value : Nat) : (patternEndEvent s e g value).mem = s.mem := by
  unfold patternEndEvent
  split <;> simp

@[simp] theorem stopEngine_mem (s : State) (e : Nat) (g : PatProg) (value : Nat) (zero : Bool) : (stopEngine s e g value zero).mem = s.mem := by
  unfold stopEngine
  dsimp only
  split_ifs
  · exact (patternEndEvent_mem ..).trans ((foldl_keeps State.mem _ (fun u t => patWrite_mem ..) _ _).trans rfl)
  · exact patternEndEvent_mem ..
  · rfl

@[simp] theorem enterStep_mem (s : State) (e : Nat) (g : PatProg) (i : Nat) : (enterStep s e g i).mem = s.mem := by
  unfold enterStep
  split <;> simp

@[simp] theorem startEngine_mem (s : State) (e : Nat) (g : PatProg) (step : Nat) (reattach : Bool) :
    (startEngine s e g step reattach).mem = s.mem := by simp [startEngine]

@[simp] theorem reflexPattern_mem (s : State) (e : Nat) (start : Bool) : (reflexPattern s e start).1.mem = s.mem := by
  unfold reflexPattern
  (repeat' split)
  all_goals simp

@[simp] theorem countSkipped_mem (s : State) : (countSkipped s).mem = s.mem := rfl

@[simp] theorem rampWrite_mem (s : State) (a : RunAct) (k : Nat) : (rampWrite s a k).mem = s.mem := by
  unfold rampWrite
  dsimp only
  split_ifs <;> simp

@[simp] theorem doAction_mem (s : State) (a : PendAct) : (doAction s a).mem = s.mem := by
  unfold doAction
  dsimp only
  split_ifs <;> simp

@[simp] theorem queueAction_mem (s : State) (a : PendAct) : (queueAction s a).mem = s.mem := by
  unfold queueAction
  split <;> simp

@[simp] theorem setArmed_mem (s : State) (i : Nat) (b : Bool) : (setArmed s i b).mem = s.mem := rfl

@[simp] theorem fireRule_mem (s : State) (i : Nat) (r : Rule) (c : Change) : (fireRule s i r c).mem = s.mem := by
  unfold fireRule
  dsimp only
  split_ifs <;> simp

@[simp] theorem evalRule_mem (c : Change) (s : State) (i : Nat) : (evalRule c s i).mem = s.mem := by
  unfold evalRule
  dsimp only
  split_ifs <;> simp

@[simp] theorem evalChange_mem (s : State) (c : Change) : (evalChange s c).mem = s.mem := by
  unfold evalChange
  exact foldl_keeps State.mem _ (fun _ _ => by simp) _ _

@[simp] theorem reflexEvaluate_mem (s : State) : (reflexEvaluate s).mem = s.mem := by
  unfold reflexEvaluate
  exact foldl_keeps State.mem _ (fun _ _ => by simp) _ _

@[simp] theorem onCipher_mem (s : State) (f : Cipher → Cipher) : (s.onCipher f).mem = s.mem := rfl

@[simp] theorem onCtx_mem (s : State) (k : Nat) (f : CipherCtx → CipherCtx) : (s.onCtx k f).mem = s.mem := rfl

@[simp] theorem noteIdle_mem (s : State) : (noteIdle s).mem = s.mem := by
  unfold noteIdle
  split <;> rfl

@[simp] theorem releaseCtx_mem (s : State) (k : Nat) (rest : Option Nat) : (releaseCtx s k rest).mem = s.mem := by simp [releaseCtx]

@[simp] theorem keeperHold_mem (p : Packet) (s : State) : (keeperHold p s).mem = s.mem := by
  unfold keeperHold
  split <;> rfl

@[simp] theorem keeperFinish_mem (p : Packet) (s : State) : (keeperFinish p s).mem = s.mem := by simp [keeperFinish]

theorem diagChannels_mem (first : Nat) : ∀ (n i : Nat) (s : State), (diagChannels first n i s).2.mem = s.mem
  | 0, _, _ => rfl
  | n + 1, i, s => (diagChannels_mem first n (i + 1) (s.takeFree 8).2).trans rfl

@[simp] theorem onLoad_mem (s : State) (f : LoadDie → LoadDie) : (s.onLoad f).mem = s.mem := rfl

@[simp] theorem onIvg_mem (s : State) (n : Nat) (f : IvgLink → IvgLink) : (s.onIvg n f).mem = s.mem := rfl

@[simp] theorem keepSettings_mem (s : State) : (keepSettings s).mem = s.mem := by
  unfold keepSettings
  split <;> rfl

@[simp] theorem onStore_mem (s : State) (f : Store → Store) : (s.onStore f).mem = s.mem := rfl

@[simp] theorem waitMoved_mem (s : State) (p : Packet) (left : Nat) (noted : Bool) (reply : Reply) : (waitMoved s p left noted reply).mem = s.mem := rfl

@[simp] theorem directWrite_mem (s : State) (p : Packet) (pt : Nat) (v : PVal) : (directWrite s p pt v).1.mem = s.mem := by simp [directWrite]

@[simp] theorem onMotor_mem (s : State) (f : MotorDie → MotorDie) : (s.onMotor f).mem = s.mem := rfl

@[simp] theorem onHb_mem (s : State) (m : Nat) (f : Hb → Hb) : (s.onHb m f).mem = s.mem := rfl

@[simp] theorem setDrive_mem (s : State) (m : Nat) (d : Drive) : (setDrive s m d).mem = s.mem := by
  unfold setDrive
  dsimp only
  split <;> simp

@[simp] theorem coastNow_mem (s : State) (m : Nat) : (coastNow s m).mem = s.mem := by simp [coastNow]

theorem cutWrites_mem (p : Packet) (l : List Nat) (a : State × List WriteResult) :
    (l.foldl (fun a k => let (s, w) := directWrite a.1 p (pointAt 80 (100 + k)) 0; (s, w :: a.2)) a).1.mem = a.1.mem :=
  foldl_same (fun a : State × List WriteResult => a.1.mem) _ (fun a k => directWrite_mem a.1 p (pointAt 80 (100 + k)) 0) _ _

@[simp] theorem setMotor_mem (p : Packet) (s : State) (m : Nat) (g : MotorCfg) : (setMotor p s m g).1.mem = s.mem := by
  unfold setMotor
  dsimp only
  split_ifs
  · exact (cutWrites_mem ..).trans (onStore_mem ..)
  · exact (foldl_keeps State.mem _ (fun u k => coastNow_mem u k) _ _).trans (onStore_mem ..)
  · rfl

@[simp] theorem setMotors_mem (p : Packet) (s : State) (l : List (Nat × MotorCfg)) : (setMotors p s l).1.mem = s.mem := by
  unfold setMotors
  refine foldl_same (fun a : State × List WriteResult => a.1.mem) _ (fun a e => ?_) _ _
  exact setMotor_mem p a.1 e.1 e.2

@[simp] theorem capItem_mem (s : State) (r : CapRecord) (idx : Nat) : (capItem s r idx).mem = s.mem := by
  unfold capItem
  split <;> rfl

@[simp] theorem sense_mem (s : State) (t : Stamp) (h idx : Nat) (writes : List (Nat × PVal)) (events : List Ev) (caps : List CapRecord) :
    (sense s t h idx writes events caps).mem = s.mem := by rw [sense_only]

@[simp] theorem observe_mem (s : State) (h idx : Nat) (writes : List (Nat × PVal)) (events : List Ev) (caps : List CapRecord) :
    (observe s h idx writes events caps).mem = s.mem := by rw [observe_only]

@[simp] theorem endHbCause_mem (s : State) (m cause : Nat) : (endHbCause s m cause).mem = s.mem := by
  unfold endHbCause
  split <;> simp

@[simp] theorem onSat_mem (s : State) (n a : Nat) (f : SatRun → SatRun) : (s.onSat n a f).mem = s.mem := rfl

@[simp] theorem queueSetup_mem (s : State) (n : Nat) (which : Sat → Bool) : (queueSetup s n which).mem = s.mem := by
  unfold queueSetup
  exact foldl_keeps State.mem _ (fun _ _ => by simp) _ _

@[simp] theorem startLink_mem (s : State) (n : Nat) : (startLink s n).mem = s.mem := rfl

@[simp] theorem writePosition_mem (s : State) (m : Nat) : (writePosition s m).mem = s.mem := by simp [writePosition]

@[simp] theorem setPosition_mem (s : State) (m : Nat) (v : PVal) (valid : Bool) : (setPosition s m v valid).mem = s.mem := by simp [setPosition]

theorem applyEntries_mem (p : Packet) : ∀ (l : List (Nat × PVal)) (s : State), (applyEntries s p l).1.mem = s.mem
  | [], _ => rfl
  | e :: r, s => by
    have hrest := applyEntries_mem p r (directWrite s p e.1 e.2).1
    have hwrite := directWrite_mem s p e.1 e.2
    unfold applyEntries
    dsimp only
    split <;> exact hrest.trans hwrite

@[simp] theorem onBank_mem (s : State) (b : Nat) (f : Bank → Bank) : (s.onBank b f).mem = s.mem := rfl

@[simp] theorem noteFreeze_mem (s : State) (b : Nat) : (noteFreeze s b).mem = s.mem := rfl

@[simp] theorem onChan_mem (s : State) (ch : Nat) (f : Chan → Chan) : (s.onChan ch f).mem = s.mem := rfl

@[simp] theorem updateChan_mem (s : State) (ch : Nat) : (updateChan s ch).mem = s.mem := by
  unfold updateChan
  dsimp only
  split_ifs <;> simp

@[simp] theorem loadEvent_mem (s : State) (kind ch value : Nat) : (loadEvent s kind ch value).mem = s.mem := by simp [loadEvent]

@[simp] theorem onCond_mem (s : State) (ch : Nat) (f : Cond → Cond) : (s.onCond ch f).mem = s.mem := rfl

@[simp] theorem endCause_mem (s : State) (ch cause : Nat) : (endCause s ch cause).mem = s.mem := by
  unfold endCause
  split <;> simp

@[simp] theorem unlockChan_mem (s : State) (ch : Nat) : (unlockChan s ch).mem = s.mem := by
  unfold unlockChan
  dsimp only
  rw [onChan_mem, endCause_mem, endCause_mem]
  exact foldl_keeps State.mem _ (fun u k => (onCond_mem ..).trans (endCause_mem ..)) _ _

theorem unlockRun_mem (p : Packet) (restore : Bool) : ∀ (l : List Nat) (s : State), (unlockRun p restore l s).1.mem = s.mem
  | [], _ => rfl
  | ch :: r, s => by
    have hchan := unlockChan_mem s ch
    unfold unlockRun
    split
    · exact unlockRun_mem p restore r s
    · split
      · exact unlockRun_mem p restore r s
      · dsimp only
        refine (unlockRun_mem p restore r _).trans ?_
        split
        · refine (updateChan_mem ..).trans ?_
          split
          · exact (onCond_mem ..).trans hchan
          · exact hchan
        · exact (directWrite_mem ..).trans hchan

theorem loadSetRun_mem (p : Packet) : ∀ (l : List (Nat × PVal)) (s : State), (loadSetRun p l s).1.mem = s.mem
  | [], _ => rfl
  | (ch, v) :: r, s => by
    have hwrite := directWrite_mem s p (pointAt 80 ch) v
    unfold loadSetRun
    dsimp only
    refine (loadSetRun_mem p r _).trans ?_
    split
    · exact Eq.trans rfl hwrite
    · exact hwrite

@[simp] theorem onValve_mem (s : State) (v : Nat) (f : Valve → Valve) : (s.onValve v f).mem = s.mem := rfl

@[simp] theorem valveFaultEvent_mem (s : State) (o cause detail : Nat) : (valveFaultEvent s o cause detail).mem = s.mem := by simp [valveFaultEvent]

@[simp] theorem meterAdd_mem (s : State) (port rx tx : Nat) : (meterAdd s port rx tx).mem = s.mem := rfl

@[simp] theorem sendFrameAs_mem (s : State) (n : Nat) (t : IvgType) (sleep : Bool) : (sendFrameAs s n t sleep).mem = s.mem := by simp [sendFrameAs]

@[simp] theorem sendFrame_mem (s : State) (n : Nat) (t : IvgType) : (sendFrame s n t).mem = s.mem := rfl

@[simp] theorem enumNow_mem (s : State) (n : Nat) : (enumNow s n).mem = s.mem := by
  unfold enumNow
  split <;> rfl

@[simp] theorem enumRequest_mem (s : State) (n : Nat) (p : Packet) : (enumRequest s n p).mem = s.mem := by
  unfold enumRequest
  split <;> simp

@[simp] theorem enumFinish_mem (p : Packet) (ids : Option (List SatIdent)) (s : State) : (enumFinish p ids s).s.mem = s.mem := by
  unfold enumFinish
  dsimp only
  (repeat' split)
  all_goals simp

@[simp] theorem onString_mem (s : State) (n : Nat) (f : Strg → Strg) : (s.onString n f).mem = s.mem := rfl

@[simp] theorem onStrCond_mem (s : State) (n : Nat) (f : Cond → Cond) : (s.onStrCond n f).mem = s.mem := rfl

@[simp] theorem updateString_mem (s : State) (n : Nat) : (updateString s n).mem = s.mem := by
  unfold updateString
  dsimp only
  split_ifs <;> simp

@[simp] theorem endString_mem (s : State) (n cause : Nat) : (endString s n cause).mem = s.mem := by
  unfold endString
  split <;> simp

@[simp] theorem unlockString_mem (s : State) (n : Nat) : (unlockString s n).1.mem = s.mem := by
  have hlocks : ∀ u : State, u.mem = s.mem → (if (stringOf s n).cond.locks.testBit 8 = true then u else endString u n 8).mem = s.mem := by
    intro u hu
    split
    · exact hu
    · exact (endString_mem ..).trans hu
  unfold unlockString
  dsimp only
  rw [updateString_mem]
  have hgone := fun l : List Nat => hlocks _ ((foldl_keeps State.mem (fun (u : State) (k : Nat) =>
    (if k = 7 ∧ (stringOf u n).segShort ≠ 0 then loadEvent u 0x0202 (56 + n) 7 else endString u n k).onStrCond n fun c =>
      { c with locks := setBit c.locks k false }) (fun u k => by
        rw [onStrCond_mem]
        split
        · exact loadEvent_mem ..
        · exact endString_mem ..) l (s.onString n fun x => { x with segOpen := 0 })).trans (onString_mem ..))
  split
  · exact hgone _
  · exact (onString_mem ..).trans (hgone _)

@[simp] theorem onSeq_mem (s : State) (f : Seq → Seq) : (s.onSeq f).mem = s.mem := rfl

@[simp] theorem resumeString_mem (s : State) (n cause : Nat) : (resumeString s n cause).mem = s.mem := by
  unfold resumeString
  dsimp only
  split_ifs <;> simp

@[simp] theorem resumeChan_mem (s : State) (ch cause : Nat) : (resumeChan s ch cause).mem = s.mem := by
  unfold resumeChan
  dsimp only
  split_ifs <;> simp

@[simp] theorem resumeOut_mem (s : State) (cause ch : Nat) : (resumeOut s cause ch).mem = s.mem := by
  unfold resumeOut
  split <;> simp

@[simp] theorem queueStep_mem (s : State) (b : Nat) : (queueStep s b).mem = s.mem := by
  unfold queueStep
  dsimp only
  (repeat' split)
  all_goals simp

@[simp] theorem bumpSnapshot_mem (s : State) : (bumpSnapshot s).mem = s.mem := by
  unfold bumpSnapshot
  split <;> rfl

@[simp] theorem reportCause_mem (s : State) (ch cause detail : Nat) : (reportCause s ch cause detail).mem = s.mem := by
  unfold reportCause
  dsimp only
  split <;> simp

@[simp] theorem lockChan_mem (s : State) (ch cause detail : Nat) : (lockChan s ch cause detail).mem = s.mem := by simp [lockChan]

@[simp] theorem stopRetry_mem (s : State) (ch : Nat) : (stopRetry s ch).mem = s.mem := by
  unfold stopRetry
  dsimp only
  split <;> simp

@[simp] theorem holdChan_mem (s : State) (ch cause detail : Nat) : (holdChan s ch cause detail).mem = s.mem := by simp [holdChan]

@[simp] theorem reportString_mem (s : State) (n cause detail : Nat) (fresh : Bool) : (reportString s n cause detail fresh).mem = s.mem := by
  unfold reportString
  split <;> simp

@[simp] theorem holdString_mem (s : State) (n cause detail : Nat) : (holdString s n cause detail).mem = s.mem := by simp [holdString]

@[simp] theorem leaveQueue_mem (s : State) (ch : Nat) : (leaveQueue s ch).mem = s.mem := rfl

@[simp] theorem holdOut_mem (s : State) (cause ch : Nat) : (holdOut s cause ch).mem = s.mem := by
  unfold holdOut
  dsimp only
  split <;> simp

@[simp] theorem endHoldString_mem (s : State) (n cause : Nat) : (endHoldString s n cause).mem = s.mem := by
  unfold endHoldString
  split <;> simp

@[simp] theorem endHoldChan_mem (s : State) (ch cause : Nat) : (endHoldChan s ch cause).mem = s.mem := by
  unfold endHoldChan
  split <;> simp

@[simp] theorem endHoldOut_mem (s : State) (cause ch : Nat) : (endHoldOut s cause ch).mem = s.mem := by
  unfold endHoldOut
  split <;> simp

@[simp] theorem joinQueue_mem (cause : Nat) (s : State) (ch : Nat) : (joinQueue cause s ch).mem = s.mem := by
  unfold joinQueue
  split <;> rfl

@[simp] theorem relevel_mem (s : State) (ch : Nat) : (relevel s ch).mem = s.mem := by
  unfold relevel
  dsimp only
  split_ifs <;> simp

@[simp] theorem onFeed_mem (s : State) (f : Nat) (g : Feed → Feed) : (s.onFeed f g).mem = s.mem := rfl

@[simp] theorem endVlCause_mem (s : State) (v cause : Nat) : (endVlCause s v cause).mem = s.mem := by
  unfold endVlCause
  split <;> simp

@[simp] theorem endFeedCause_mem (s : State) (f cause : Nat) : (endFeedCause s f cause).mem = s.mem := by
  unfold endFeedCause
  split <;> simp

@[simp] theorem unlockValveOut_mem (s : State) (o : Nat) : (unlockValveOut s o).1.mem = s.mem := by
  unfold unlockValveOut
  dsimp only
  split_ifs <;> simp

@[simp] theorem revokeGrants_mem (x : CharterSet) (s : State) : (revokeGrants x s).mem = s.mem := rfl

@[simp] theorem setRingSize_mem (s : State) (r n : Nat) : (setRingSize s r n).mem = s.mem := by
  unfold setRingSize
  dsimp only
  split <;> simp

@[simp] theorem stopActions_mem (s : State) (i : Nat) : (stopActions s i).mem = s.mem := by
  unfold stopActions
  refine foldl_keeps State.mem _ (fun u x => ?_) _ _
  split <;> simp

@[simp] theorem revokeEvent_mem (s : State) (index kind owner : Nat) : (revokeEvent s index kind owner).mem = s.mem := by simp [revokeEvent]

@[simp] theorem revokeRules_mem (x : CharterSet) (s : State) : (revokeRules x s).mem = s.mem := by
  unfold revokeRules
  refine foldl_keeps State.mem _ (fun u x => ?_) _ _
  dsimp only
  split_ifs <;> simp

@[simp] theorem onImageStore_mem (s : State) (f : ImageStore → ImageStore) : (s.onImageStore f).mem = s.mem := rfl

@[simp] theorem trustWrite_mem (s : State) : (trustWrite s).mem = s.mem := rfl

@[simp] theorem revokeEngines_mem (x : CharterSet) (s : State) : (revokeEngines x s).mem = s.mem := by
  unfold revokeEngines
  refine foldl_keeps State.mem _ (fun u i => ?_) _ _
  split
  · dsimp only
    split
    · exact (revokeEvent_mem ..).trans (stopEngine_mem ..)
    · rfl
  · rfl

@[simp] theorem revokeTemplates_mem (x : CharterSet) (s : State) : (revokeTemplates x s).mem = s.mem := by
  unfold revokeTemplates
  refine foldl_keeps State.mem _ (fun u x => ?_) _ _
  dsimp only
  split_ifs <;> simp

@[simp] theorem motorEvent_mem (s : State) (kind m value : Nat) : (motorEvent s kind m value).mem = s.mem := by simp [motorEvent]

@[simp] theorem brakeThen_mem (s : State) (m : Nat) (v : PVal) : (brakeThen s m v).mem = s.mem := by simp [brakeThen]

@[simp] theorem zeroMotorPoint_mem (s : State) (m : Nat) : (zeroMotorPoint s m).mem = s.mem := by
  unfold zeroMotorPoint
  (repeat' split)
  all_goals simp

@[simp] theorem countDrive_mem (s : State) (m : Nat) : (countDrive s m).mem = s.mem := rfl

@[simp] theorem refuseMotor_mem (s : State) (m : Nat) : (refuseMotor s m).mem = s.mem := by simp [refuseMotor]

@[simp] theorem deviceApply_mem (s : State) (t : Stamp) (w : PWrite) : (deviceApply s t w).mem = s.mem := by
  unfold deviceApply
  split <;> simp

@[simp] theorem postEvents_mem (s : State) (es : List Ev) : (postEvents s es).mem = s.mem := by
  unfold postEvents
  exact foldl_keeps State.mem _ (fun _ _ => by simp) _ _

@[simp] theorem plainDevice_mem (s : State) (pt : Nat) (v : PVal) (events : List Ev) : (plainDevice s pt v events).mem = s.mem := by
  unfold plainDevice
  split <;> simp

@[simp] theorem showState_mem (s : State) (n : Nat) : (showState s n).mem = s.mem := by simp [showState]

@[simp] theorem capStop_mem (s : State) (reason : Nat) : (capStop s reason).mem = s.mem := by simp [capStop]

@[simp] theorem onEth_mem (s : State) (f : Eth → Eth) : (s.onEth f).mem = s.mem := rfl

@[simp] theorem onHall_mem (s : State) (h : Nat) (f : HallSt → HallSt) : (s.onHall h f).mem = s.mem := rfl

@[simp] theorem clearWatchHall_mem (s : State) (h : Nat) : (clearWatchHall s h).mem = s.mem := rfl

@[simp] theorem mapStreams_mem (s : State) (h : Nat) (f : Nat → LStream → LStream) : (mapStreams s h f).mem = s.mem := rfl

@[simp] theorem leaveLandings_mem (s : State) (h : Nat) : (leaveLandings s h).mem = s.mem := rfl

@[simp] theorem hallOff_mem (s : State) (h : Nat) : (hallOff s h).mem = s.mem := rfl

@[simp] theorem setDomain_mem (s : State) (d : Nat) (on : Bool) : (setDomain s d on).mem = s.mem := by
  unfold setDomain
  (repeat' split)
  all_goals simp

@[simp] theorem ethEvent_mem (s : State) (kind address value : Nat) : (ethEvent s kind address value).mem = s.mem := by
  unfold ethEvent
  split <;> simp

@[simp] theorem onPort_mem (s : State) (n : Nat) (f : EthPort → EthPort) : (s.onPort n f).mem = s.mem := rfl

@[simp] theorem setLink_mem (s : State) (n st : Nat) : (setLink s n st).mem = s.mem := by
  unfold setLink
  split <;> simp

@[simp] theorem dropQueue_mem (s : State) (n : Nat) : (dropQueue s n).mem = s.mem := by
  unfold dropQueue
  dsimp only
  split <;> simp

@[simp] theorem portOff_mem (s : State) (n : Nat) : (portOff s n).mem = s.mem := by simp [portOff]

theorem ethPowerOff_mem (s : State) : (ethPowerOff s).mem = s.mem := by
  unfold ethPowerOff
  split
  · refine Eq.trans rfl ((setDomain_mem ..).trans (id ((dropQueue_mem ..).trans ((dropQueue_mem ..).trans ?_))))
    exact foldl_keeps State.mem _ (fun u n => portOff_mem u n) _ _
  · rfl

@[simp] theorem startPort_mem (s : State) (n : Nat) : (startPort s n).mem = s.mem := by
  unfold startPort
  split <;> simp

@[simp] theorem ethPowerOn_mem (s : State) : (ethPowerOn s).mem = s.mem := by
  unfold ethPowerOn
  split
  · rfl
  · exact (foldl_keeps State.mem _ (fun u n => startPort_mem ..) _ _).trans (setDomain_mem ..)

@[simp] theorem powerPorts_mem (s : State) : (powerPorts s).mem = s.mem := by
  unfold powerPorts
  split_ifs
  · rfl
  · exact ethPowerOn_mem s
  · exact ethPowerOff_mem s

@[simp] theorem onSleep_mem (s : State) (f : Sleep → Sleep) : (s.onSleep f).mem = s.mem := rfl

@[simp] theorem onLog_mem (s : State) (f : Logbook → Logbook) : (s.onLog f).mem = s.mem := rfl

@[simp] theorem updateLevel_mem (s : State) : (updateLevel s).mem = s.mem := by
  unfold updateLevel
  dsimp only
  split <;> simp

@[simp] theorem sealSegment_mem (s : State) (reason : Nat) : (sealSegment s reason).mem = s.mem := by
  unfold sealSegment
  dsimp only
  (repeat' split)
  all_goals simp

@[simp] theorem makeRoom_mem (s : State) : (makeRoom s).mem = s.mem := by
  unfold makeRoom
  (repeat' split)
  all_goals simp

@[simp] theorem dropRecord_mem (s : State) (it : LogItem) : (dropRecord s it).mem = s.mem := by simp [dropRecord]

@[simp] theorem appendRecord_mem (s : State) (it : LogItem) (emergency : Bool) : (appendRecord s it emergency).mem = s.mem := rfl

@[simp] theorem storeRecord_mem (s : State) (it : LogItem) : (storeRecord s it).1.mem = s.mem := by
  unfold storeRecord
  dsimp only
  (repeat' split)
  all_goals simp

@[simp] theorem logRecord_mem (s : State) (it : LogItem) : (logRecord s it).1.mem = s.mem := by
  unfold logRecord
  dsimp only
  split_ifs <;> simp

@[simp] theorem logDevice_mem (s : State) (type : Nat) (critical : Bool) (payload : List Byte) :
    (logDevice s type critical payload).mem = s.mem := by simp [logDevice]

@[simp] theorem imageEvent_mem (s : State) (kind address value comp : Nat) (extra : List Byte) :
    (imageEvent s kind address value comp extra).mem = s.mem := by simp [imageEvent]

@[simp] theorem onImage_mem (s : State) (f : Image → Image) : (s.onImage f).mem = s.mem := rfl

@[simp] theorem onBank13_mem (s : State) (b : Nat) (f : Bank13 → Bank13) : (s.onBank13 b f).mem = s.mem := rfl

@[simp] theorem endTrial_mem (s : State) (cause : Nat) (f : Trial → Trial) : (endTrial s cause f).mem = s.mem := by
  unfold endTrial
  dsimp only
  (repeat' split)
  all_goals simp

@[simp] theorem toLantern_mem (s : State) : (toLantern s).mem = s.mem := by
  unfold toLantern
  dsimp only
  split_ifs <;> simp

@[simp] theorem onLin_mem (s : State) (c : Nat) (f : Lin → Lin) : (s.onLin c f).mem = s.mem := rfl

@[simp] theorem busEvent_mem (s : State) (src kind address value : Nat) (point : Bool) :
    (busEvent s src kind address value point).mem = s.mem := by simp [busEvent]

@[simp] theorem netEvent_mem (s : State) (n kind address value : Nat) : (netEvent s n kind address value).mem = s.mem := by simp [netEvent]

@[simp] theorem onNet_mem (s : State) (n : Nat) (f : Net → Net) : (s.onNet n f).mem = s.mem := rfl

@[simp] theorem setNet_mem (s : State) (n st : Nat) : (setNet s n st).mem = s.mem := by
  unfold setNet
  split <;> simp

@[simp] theorem onCan_mem (s : State) (c : Nat) (f : Can → Can) : (s.onCan c f).mem = s.mem := rfl

@[simp] theorem setCanState_mem (s : State) (c st : Nat) : (setCanState s c st).mem = s.mem := by
  unfold setCanState
  dsimp only
  split_ifs <;> simp

@[simp] theorem integrate_mem (s : State) (n : Nat) : (integrate s n).mem = s.mem := by
  unfold integrate
  split <;> simp

@[simp] theorem setXcvr_mem (s : State) (n st : Nat) : (setXcvr s n st).mem = s.mem := by
  unfold setXcvr
  dsimp only
  split_ifs <;> simp

@[simp] theorem linCommit_mem (s : State) (l : Nat) : (linCommit s l).mem = s.mem := by
  unfold linCommit
  split <;> simp

@[simp] theorem goToSleep_mem (s : State) (l : Nat) : (goToSleep s l).mem = s.mem := rfl

@[simp] theorem follow_mem (s : State) (l st : Nat) (woken : Bool) : (follow s l st woken).mem = s.mem := by
  unfold follow
  dsimp only
  split_ifs <;> simp

@[simp] theorem enterNet_mem (s : State) (n st : Nat) : (enterNet s n st).mem = s.mem := by
  unfold enterNet
  exact (foldl_keeps State.mem _ (fun u l => follow_mem ..) _ _).trans (setNet_mem ..)

@[simp] theorem enterReady_mem (s : State) (n : Nat) : (enterReady s n).mem = s.mem := by simp [enterReady]

@[simp] theorem releaseNet_mem (s : State) (n : Nat) : (releaseNet s n).mem = s.mem := by
  unfold releaseNet
  dsimp only
  split_ifs <;> simp

@[simp] theorem accessEvent_mem (s : State) (kind address value comp : Nat) : (accessEvent s kind address value comp).mem = s.mem := by
  unfold accessEvent
  split <;> simp

@[simp] theorem onAccess_mem (s : State) (f : Access → Access) : (s.onAccess f).mem = s.mem := rfl

@[simp] theorem onAccessStore_mem (s : State) (f : AccessStore → AccessStore) : (s.onAccessStore f).mem = s.mem := rfl

@[simp] theorem writeReleaseRecords_mem (s : State) (counter : Nat) : (writeReleaseRecords s counter).mem = s.mem := by
  unfold writeReleaseRecords
  exact foldl_keeps State.mem _ (fun _ _ => by simp) _ _

@[simp] theorem setRelease_mem (s : State) (released : Bool) (index cause comp : Nat) : (setRelease s released index cause comp).mem = s.mem := by
  unfold setRelease
  dsimp only
  split_ifs <;> simp

@[simp] theorem blockRelease_mem (s : State) (cause comp : Nat) : (blockRelease s cause comp).mem = s.mem := by simp [blockRelease]

@[simp] theorem requestSleepPorts_mem (s : State) : (requestSleepPorts s).mem = s.mem := by
  unfold requestSleepPorts
  refine foldl_keeps State.mem _ (fun u x => ?_) _ _
  split <;> simp

@[simp] theorem goDark_mem (s : State) : (goDark s).mem = s.mem := by
  have hnets (u : State) : ((List.range 14).foldl releaseNet u).mem = u.mem := foldl_keeps State.mem _ (fun v n => releaseNet_mem ..) _ _
  unfold goDark
  dsimp only
  rw [requestSleepPorts_mem, onSleep_mem, blockRelease_mem, hnets, toLantern_mem]

@[simp] theorem moveToward_mem (s : State) (target : Nat) : (moveToward s target).mem = s.mem := by
  unfold moveToward
  split <;> rfl

@[simp] theorem onCnt_mem (s : State) (n : Nat) (f : EthCounters → EthCounters) : (s.onCnt n f).mem = s.mem := rfl

@[simp] theorem onSas_mem (s : State) (f : List Sa → List Sa) : (s.onSas f).mem = s.mem := rfl

@[simp] theorem putSa_mem (s : State) (a : Sa) : (putSa s a).mem = s.mem := rfl

@[simp] theorem stopSa_mem (s : State) (a : Sa) (cause : Nat) : (stopSa s a cause).mem = s.mem := by simp [stopSa]

@[simp] theorem stopSlotSas_mem (s : State) (slot : Nat) : (stopSlotSas s slot).mem = s.mem := by
  unfold stopSlotSas
  exact foldl_keeps State.mem _ (fun _ _ => by simp) _ _

@[simp] theorem changeStreams_mem (s : State) (k : Nat) (abort restart : Bool) : (changeStreams s k abort restart).mem = s.mem := by
  unfold changeStreams
  refine foldl_keeps State.mem _ (fun u x => ?_) _ _
  dsimp only
  split_ifs <;> simp

@[simp] theorem onKey_mem (s : State) (k : Nat) (f : KeySlot → KeySlot) : (s.onKey k f).mem = s.mem := rfl

@[simp] theorem markAborted_mem (s : State) (k : Nat) : (markAborted s k).mem = s.mem := rfl

@[simp] theorem changeSlot_mem (s : State) (p : Packet) (k : Nat) (abort erase restart : Bool) (f : KeySlot → KeySlot) : (changeSlot s p k abort erase restart f).mem = s.mem := by
  unfold changeSlot
  split <;> simp

@[simp] theorem installSa_mem (p : Packet) (s : State) : (installSa p s).mem = s.mem := by simp [installSa]

@[simp] theorem bindChannel_mem (p : Packet) (s : State) : (bindChannel p s).mem = s.mem := rfl

@[simp] theorem onInput_mem (s : State) (f : Inputs → Inputs) : (s.onInput f).mem = s.mem := rfl

@[simp] theorem onField_mem (s : State) (f : FieldLink → FieldLink) : (s.onField f).mem = s.mem := rfl

@[simp] theorem keyedOut_mem (p : Packet) (s : State) (n : Nat) : (keyedOut p s n).mem = s.mem := rfl

@[simp] theorem setUser_mem (s : State) (n user : Nat) : (setUser s n user).mem = s.mem := by
  unfold setUser
  split <;> rfl

@[simp] theorem changeTable_mem (s : State) (c : Nat) (t : Option Nat) : (changeTable s c t).mem = s.mem := rfl

@[simp] theorem drawBytes_mem (s : State) (n : Nat) : (s.drawBytes n).2.mem = s.mem := rfl

@[simp] theorem drawPlane_mem (s : State) (n use : Nat) : (drawPlane s n use).2.mem = s.mem := by
  unfold drawPlane
  dsimp only
  (repeat' split)
  all_goals simp

@[simp] theorem fixedOf_mem (s : State) (given : Nat) : (fixedOf s given).2.mem = s.mem := by
  unfold fixedOf
  split <;> simp

@[simp] theorem installKey_mem (s : State) (p : Packet) (k : Nat) (abort : Bool) (alg usage origin fixed : Nat) (material : List Byte) :
    (installKey s p k abort alg usage origin fixed material).s.mem = s.mem := by simp [installKey]

@[simp] theorem enterNormal_mem (s : State) (n : Nat) : (enterNormal s n).mem = s.mem := by simp [enterNormal]

@[simp] theorem requestNet_mem (s : State) (n cause : Nat) : (requestNet s n cause).mem = s.mem := by
  unfold requestNet
  dsimp only
  split_ifs <;> simp

@[simp] theorem wakeEvent_mem (s : State) (cause index : Nat) : (wakeEvent s cause index).mem = s.mem := rfl

@[simp] theorem setLatch_mem (s : State) (cause index : Nat) : (setLatch s cause index).mem = s.mem := by
  unfold setLatch
  dsimp only
  split_ifs <;> simp

@[simp] theorem verifyWith_mem (p : Packet) (s : State) (pk : List Byte) (gen : Nat) : (verifyWith p s pk gen).s.mem = s.mem := by
  unfold verifyWith
  split <;> rfl

@[simp] theorem reintegrate_mem (s : State) (c : Nat) : (reintegrate s c).mem = s.mem := by
  unfold reintegrate
  dsimp only
  split_ifs <;> simp

@[simp] theorem reconfigure_mem (s : State) (c : Nat) (change : CanStore → CanStore) : (reconfigure s c change).mem = s.mem := by
  unfold reconfigure
  dsimp only
  split <;> simp

@[simp] theorem onStream_mem (s : State) (k : Nat) (f : CanStream → CanStream) : (s.onStream k f).mem = s.mem := rfl

@[simp] theorem enableStream_mem (s : State) (k : Nat) : (enableStream s k).mem = s.mem := by
  unfold enableStream
  dsimp only
  split <;> simp

@[simp] theorem applyPort_mem (s : State) (n : Nat) (g : EthPortCfg) : (applyPort s n g).mem = s.mem := by
  unfold applyPort
  dsimp only
  split_ifs <;> simp

@[simp] theorem putRules_mem (s : State) (l : List (Nat × Rule)) : (putRules s l).mem = s.mem := by
  unfold putRules
  exact foldl_keeps State.mem _ (fun _ _ => by simp) _ _

@[simp] theorem deviceWrite_mem (s : State) (t : Stamp) (w : PWrite) : (deviceWrite s t w).mem = s.mem := by
  unfold deviceWrite
  split <;> simp

@[simp] theorem noteSignals_mem (s : State) (it : LandItem) : (noteSignals s it).mem = s.mem := by simp [noteSignals]

@[simp] theorem landWrites_mem (s : State) (it : LandItem) : (landWrites s it).mem = s.mem := by
  unfold landWrites
  dsimp only
  refine (foldl_keeps State.mem _ (fun u w => deviceWrite_mem ..) _ _).trans ?_
  split
  · refine (noteSignals_mem ..).trans ?_
    split <;> rfl
  · split <;> rfl

@[simp] theorem reportChange_mem (s : State) (pt : Nat) (v : PVal) (t : Stamp) (hall idx comp : Nat) : (reportChange s pt v t hall idx comp).mem = s.mem := by
  unfold reportChange
  dsimp only
  split_ifs <;> simp

@[simp] theorem enterReflex_mem (s : State) (c : Change) : (enterReflex s c).mem = s.mem := by
  unfold enterReflex
  split <;> rfl

@[simp] theorem noteChange_mem (s : State) (pt : Nat) (old new : PVal) (t : Stamp) (hall idx comp : Nat) :
    (noteChange s pt old new t hall idx comp).mem = s.mem := by simp [noteChange]

@[simp] theorem settleWrite_mem (s : State) (e : TickWrite) : (settleWrite s e).mem = s.mem := by
  unfold settleWrite
  split <;> simp

@[simp] theorem tellChanges_mem (c : TickWrite → Bool) (s : State) : (tellChanges c s).mem = s.mem := by
  unfold tellChanges
  exact foldl_keeps State.mem _ (fun _ _ => by simp) _ _

@[simp] theorem tellInputs_mem (s : State) : (tellInputs s).mem = s.mem := by simp [tellInputs]

@[simp] theorem releaseItems_mem (s : State) (l : List LandItem) : (releaseItems s l).mem = s.mem := by
  unfold releaseItems
  dsimp only
  refine (foldl_keeps State.mem _ (fun u it => postEvents_mem ..) _ _).trans ((tellInputs_mem _).trans ?_)
  exact foldl_keeps State.mem _ (fun u it => landWrites_mem ..) _ _

@[simp] theorem observeActed_mem (s : State) (h idx pt : Nat) (v : PVal) : (observeActed s h idx pt v).mem = s.mem := by
  unfold observeActed
  dsimp only
  split_ifs <;> simp

@[simp] theorem onSi_mem (s : State) (i : Nat) (f : Si → Si) : (s.onSi i f).mem = s.mem := rfl

@[simp] theorem dropAhead_mem (s : State) (i : Nat) : (dropAhead s i).mem = s.mem := by
  unfold dropAhead
  dsimp only
  split <;> simp

@[simp] theorem applySi_mem (s : State) (i : Nat) (g : SiCfg) : (applySi s i g).mem = s.mem := by
  unfold applySi
  split <;> simp

@[simp] theorem onDie_mem (s : State) (f : FieldDie → FieldDie) : (s.onDie f).mem = s.mem := rfl

@[simp] theorem fieldApply_mem (s : State) : (fieldApply s).mem = s.mem := rfl

@[simp] theorem onFo_mem (s : State) (n : Nat) (f : Fo → Fo) : (s.onFo n f).mem = s.mem := rfl

@[simp] theorem foEnd_mem (s : State) (n cause : Nat) : (foEnd s n cause).mem = s.mem := rfl

@[simp] theorem unlockFo_mem (s : State) (n : Nat) : (unlockFo s n).1.mem = s.mem := by
  unfold unlockFo
  dsimp only
  split_ifs
  · rfl
  · rfl
  · refine ((onFo_mem ..).trans ?_)
    exact foldl_keeps State.mem _ (fun u k => foEnd_mem ..) _ _

@[simp] theorem onCapture_mem (s : State) (f : Capture → Capture) : (s.onCapture f).mem = s.mem := rfl

@[simp] theorem setOverrun_mem (s : State) : (s.setOverrun).mem = s.mem := rfl

@[simp] theorem setBank_mem (s : State) (b state comp : Nat) (f : Bank13 → Bank13) : (setBank s b state comp f).mem = s.mem := by simp [setBank]

@[simp] theorem commitBank_mem (s : State) (kind b bootLeft comp : Nat) : (commitBank s kind b bootLeft comp).mem = s.mem := by
  unfold commitBank
  split <;> simp

@[simp] theorem confirmBank_mem (s : State) (kind b comp : Nat) : (confirmBank s kind b comp).mem = s.mem := by simp [confirmBank]

@[simp] theorem passThroughLantern_mem (s : State) : (passThroughLantern s).mem = s.mem := by simp [passThroughLantern]

@[simp] theorem assertKeeperReset_mem (s : State) : (assertKeeperReset s).mem = s.mem := rfl

@[simp] theorem changeImage_mem (s : State) (kind : Nat) (now : Bool) : (changeImage s kind now).mem = s.mem := by
  simp only [changeImage, apply_ite State.mem]
  simp

@[simp] theorem rtcValue_mem (s : State) : (rtcValue s).2.mem = s.mem := by
  unfold rtcValue
  dsimp only
  (repeat' split)
  all_goals simp

@[simp] theorem onWatch_mem (s : State) (f : Watch → Watch) : (s.onWatch f).mem = s.mem := rfl

@[simp] theorem applyDump_mem (s : State) (i : Nat) : (applyDump s i).mem = s.mem := by
  unfold applyDump
  dsimp only
  split_ifs <;> simp

@[simp] theorem onWatchStore_mem (s : State) (f : WatchStore → WatchStore) : (s.onWatchStore f).mem = s.mem := rfl

@[simp] theorem setSelector_mem (s : State) (e : Nat × Selector) : (setSelector s e).mem = s.mem := by
  unfold setSelector
  split <;> rfl

@[simp] theorem emptyRing63_mem (s : State) : (emptyRing63 s).mem = s.mem := rfl

@[simp] theorem onReplay_mem (s : State) (f : Replay → Replay) : (s.onReplay f).mem = s.mem := rfl

@[simp] theorem logWake_mem (s : State) (w : Latch) : (logWake s w).mem = s.mem := by simp [logWake]

@[simp] theorem wakeReady_mem (s : State) (n cause : Nat) : (wakeReady s n cause).mem = s.mem := by
  unfold wakeReady
  dsimp only
  split_ifs <;> simp

@[simp] theorem busWake_mem (s : State) (n cause : Nat) : (busWake s n cause).mem = s.mem := by
  unfold busWake
  dsimp only
  split <;> simp

@[simp] theorem wakeNetworks_mem (s : State) (cause index : Nat) : (wakeNetworks s cause index).mem = s.mem := by
  have hasked := foldl_keeps State.mem _ (fun u n => requestNet_mem u n cause) (bitList 14 (wakeMask s.store.sleep cause)) s
  unfold wakeNetworks
  dsimp only
  split
  · exact (busWake_mem ..).trans hasked
  · exact hasked

@[simp] theorem postWake_mem (t : Stamp) (s : State) (w : Latch) : (postWake t s w).mem = s.mem := by
  unfold postWake
  dsimp only
  split_ifs <;> simp

@[simp] theorem postWakes_mem (s : State) (t : Stamp) : (postWakes s t).mem = s.mem := by
  unfold postWakes
  exact foldl_keeps State.mem _ (fun _ _ => by simp) _ _

@[simp] theorem revertApp_mem (s : State) (cause into comp : Nat) : (revertApp s cause into comp).1.mem = s.mem := by
  unfold revertApp
  (repeat' split)
  all_goals simp

@[simp] theorem failBoot_mem (s : State) (cause : Nat) : (failBoot s cause).mem = s.mem := by simp [failBoot]

@[simp] theorem countBoot_mem (s : State) : (countBoot s).mem = s.mem := by
  have hreverted := revertApp_mem s 1 6 0
  unfold countBoot
  split
  · rfl
  · split
    · split
      · next h =>
        rw [h] at hreverted
        exact hreverted
      · simp
    · rfl

/-- Where the keeper bank that stands does not pass, the other one boots, or none. -/

@[simp] theorem disarm_mem (s : State) : (disarm s).mem = s.mem := rfl

@[simp] theorem startTrial_mem (s : State) : (startTrial s).mem = s.mem := by simp [startTrial]

@[simp] theorem wakePartners_mem (s : State) (ports : List Nat) : (wakePartners s ports).mem = s.mem := by
  unfold wakePartners
  refine foldl_keeps State.mem _ (fun u x => ?_) _ _
  split <;> simp

@[simp] theorem beamDomains_mem (s : State) : (beamDomains s).mem = s.mem := by simp [beamDomains]

@[simp] theorem setReady_mem (s : State) : (setReady s).mem = s.mem := by simp [setReady]

@[simp] theorem commitEpoch_mem (s : State) (e : Nat) : (commitEpoch s e).mem = s.mem := rfl

@[simp] theorem restartTicks_mem (s : State) (e : Nat) : (restartTicks s e).mem = s.mem := rfl

@[simp] theorem startEpoch_mem (s : State) : (startEpoch s).mem = s.mem := by simp [startEpoch]

@[simp] theorem keeperWrite_mem (s : State) (pt : Nat) (v : PVal) : (keeperWrite s pt v).1.mem = s.mem := by simp [keeperWrite]

@[simp] theorem keeperPoint_mem (s : State) (pt v : Nat) : (keeperPoint s pt v).mem = s.mem := by
  unfold keeperPoint
  split <;> simp

@[simp] theorem closeSession_mem (s : State) (cause comp : Nat) : (closeSession s cause comp).mem = s.mem := by
  unfold closeSession
  dsimp only
  (repeat' split)
  all_goals simp

@[simp] theorem openSession_mem (s : State) (i comp : Nat) : (openSession s i comp).mem = s.mem := by
  unfold openSession
  dsimp only
  split <;> simp

@[simp] theorem openBuoyGrant_mem (s : State) : (openBuoyGrant s).mem = s.mem := by
  unfold openBuoyGrant
  split
  · rfl
  · exact (openSession_mem ..).trans (foldl_keeps State.mem _ (fun u v => capItem_mem ..) _ _)

@[simp] theorem tellLow_mem (s : State) : (tellLow s).mem = s.mem := by
  unfold tellLow
  refine foldl_keeps State.mem _ (fun u e => ?_) _ _
  split
  · exact (postEvent_mem ..).trans (onKey_mem ..)
  · rfl

@[simp] theorem releaseGroup_mem (s : State) (g : List LandItem) : (releaseGroup s g).mem = s.mem := by
  unfold releaseGroup
  dsimp only
  split <;> simp

@[simp] theorem releaseList_mem (s : State) (l : List LandItem) : (releaseList s l).mem = s.mem := by
  unfold releaseList
  exact foldl_keeps State.mem _ (fun _ _ => by simp) _ _

@[simp] theorem releaseAll_mem (s : State) : (releaseAll s).mem = s.mem := by simp [releaseAll]

@[simp] theorem tellConditions_mem (s : State) : (tellConditions s).mem = s.mem := rfl

@[simp] theorem aiTick_mem (s : State) : (aiTick s).mem = s.mem := by
  unfold aiTick
  dsimp only
  split <;> simp

@[simp] theorem traceTick_mem (s : State) : (traceTick s).mem = s.mem := by
  unfold traceTick
  dsimp only
  split <;> simp

@[simp] theorem endMotorWindows_mem (s : State) : (endMotorWindows s).mem = s.mem := by
  unfold endMotorWindows
  refine foldl_keeps State.mem _ (fun u m => ?_) _ _
  split
  · split
    · exact (noteFreeze_mem ..).trans (onHb_mem ..)
    · rfl
  · rfl

@[simp] theorem observePoint_mem (s : State) (h idx pt : Nat) (v : PVal) (events : List Ev) :
    (observePoint s h idx pt v events).mem = s.mem := by simp [observePoint]

@[simp] theorem setFeed_mem (s : State) (f : Nat) (on : Bool) : (setFeed s f on).mem = s.mem := by
  unfold setFeed
  split <;> simp

@[simp] theorem feedsTick_mem (s : State) : (feedsTick s).mem = s.mem := by
  unfold feedsTick
  refine foldl_keeps State.mem _ (fun u f => ?_) _ _
  split
  · exact setFeed_mem ..
  · rfl

@[simp] theorem powerTick_mem (s : State) : (powerTick s).mem = s.mem := by
  unfold powerTick
  split <;> simp

@[simp] theorem foEndHold_mem (s : State) (n cause : Nat) : (foEndHold s n cause).mem = s.mem := rfl

@[simp] theorem foActive_mem (s : State) (n cause detail : Nat) : (foActive s n cause detail).mem = s.mem := rfl

@[simp] theorem foHold_mem (s : State) (n cause detail : Nat) : (foHold s n cause detail).mem = s.mem := rfl

@[simp] theorem fieldClass_mem (s : State) (k cls : Nat) : (fieldClass s k cls).mem = s.mem := by
  unfold fieldClass
  dsimp only
  split_ifs
  · rfl
  · exact foldl_keeps State.mem _ (fun u n => foHold_mem ..) _ _
  · exact foldl_keeps State.mem _ (fun u n => foEndHold_mem ..) _ _
  · rfl

@[simp] theorem reclassify_mem (s : State) (k : Nat) : (reclassify s k).mem = s.mem := by
  unfold reclassify
  dsimp only
  split <;> simp

@[simp] theorem dieNext_mem (s : State) : (dieNext s).mem = s.mem := by simp [dieNext]

@[simp] theorem telemetry_mem (s : State) (sel : Nat) : (telemetry s sel).2.mem = s.mem := by
  unfold telemetry
  (repeat' split)
  all_goals rfl

@[simp] theorem dieFrame_mem (s : State) : (dieFrame s).mem = s.mem := by simp [dieFrame]

@[simp] theorem dieMissed_mem (s : State) (n : Nat) : (dieMissed s n).mem = s.mem := rfl

@[simp] theorem dieWindowMiss_mem (s : State) : (dieWindowMiss s).mem = s.mem := by
  unfold dieWindowMiss
  dsimp only
  (repeat' split)
  all_goals simp

@[simp] theorem dieEnd_mem (s : State) : (dieEnd s).mem = s.mem := by
  unfold dieEnd
  split <;> simp

@[simp] theorem fieldTick_mem (s : State) : (fieldTick s).mem = s.mem := by
  unfold fieldTick
  split <;> simp

@[simp] theorem diesTick_mem (s : State) : (diesTick s).mem = s.mem := by simp [diesTick]

@[simp] theorem portDrop_mem (s : State) (n : Nat) (f : EthCounters → EthCounters) : (portDrop s n f).mem = s.mem := rfl

@[simp] theorem dropCommand_mem (s : State) : (dropCommand s).mem = s.mem := rfl

@[simp] theorem enqueue_mem (s : State) (port : Nat) (q : Queued) : (enqueue s port q).1.mem = s.mem := by
  unfold enqueue
  split <;> rfl

@[simp] theorem forward_mem (s : State) (q : Queued) (v : Vlan) (ports : List Nat) : (forward s q v ports).1.mem = s.mem := by
  unfold forward
  generalize hstart : (s, 0, 0) = a
  have hfirst : a.1 = s := by rw [← hstart]
  rw [← hfirst]
  clear hstart hfirst
  induction ports generalizing a with
  | nil => rfl
  | cons n ports ih => exact (ih _).trans (enqueue_mem ..)

@[simp] theorem timeFrame_mem (s : State) (n : Nat) (f : EthFrame) : (timeFrame s n f).mem = s.mem := by
  unfold timeFrame
  split <;> rfl

@[simp] theorem learn_mem (s : State) (mac vid port : Nat) : (learn s mac vid port).mem = s.mem := by
  unfold learn
  split <;> rfl

@[simp] theorem switchIn_mem (s : State) (n : Nat) (secure : Bool) (f : EthFrame) : (switchIn s n secure f).mem = s.mem := by
  unfold switchIn
  dsimp only
  (repeat' split)
  all_goals simp

@[simp] theorem countLateTick_mem (s : State) (l : Nat) : (countLateTick s l).mem = s.mem := by
  unfold countLateTick
  split <;> rfl

@[simp] theorem foTick_mem (s : State) : (foTick s).mem = s.mem := rfl

@[simp] theorem overflowEvent_mem (s : State) : (overflowEvent s).mem = s.mem := by
  unfold overflowEvent
  split <;> simp

@[simp] theorem settleTick_mem (s : State) : (settleTick s).mem = s.mem := by
  unfold settleTick
  refine (overflowEvent_mem _).trans ((tellChanges_mem ..).trans ?_)
  exact foldl_keeps State.mem _ (fun u w => countMoved_mem ..) _ _

@[simp] theorem levelTick_mem (s : State) : (levelTick s).mem = s.mem := by simp [levelTick]

@[simp] theorem resetEvent_mem (s : State) (cause index : Nat) : (resetEvent s cause index).mem = s.mem := by simp [resetEvent]

@[simp] theorem resetPacket_mem (s : State) : (resetPacket s).mem = s.mem := by
  unfold resetPacket
  refine (onEth_mem _ _).trans ((foldl_keeps State.mem _ (fun u n => ?_) _ _).trans ((dropQueue_mem ..).trans (dropQueue_mem ..)))
  exact (startPort_mem ..).trans (portOff_mem ..)

@[simp] theorem noteIrq_mem (s : State) : (noteIrq s).mem = s.mem := rfl

@[simp] theorem noteUp_mem (s : State) : (noteUp s).mem = s.mem := by simp [noteUp]

@[simp] theorem actNext_mem (s : State) : (actNext s).mem = s.mem := rfl

@[simp] theorem nextFrame_mem (s : State) (lin : Nat) : (nextFrame s lin).mem = s.mem := rfl

@[simp] theorem planeNext_mem (s : State) : (planeNext s).mem = s.mem := by
  unfold planeNext
  split <;> rfl

@[simp] theorem loadCarried_mem (s : State) (b : List Byte) : (loadCarried s b).mem = s.mem := by simp [loadCarried]

@[simp] theorem logReplay_mem (s : State) (phase records : Nat) (matched : Bool) (digest : List Byte) :
    (logReplay s phase records matched digest).mem = s.mem := by simp [logReplay]

@[simp] theorem driveAntennas_mem (s : State) (q : Poll) (mask : Nat) (on : Bool) : (driveAntennas s q mask on).mem = s.mem := by
  unfold driveAntennas
  exact foldl_keeps State.mem _ (fun _ _ => by simp) _ _

@[simp] theorem startPoll_mem (s : State) (q : Poll) (mask : Option Nat) : (startPoll s q mask).1.mem = s.mem := by
  unfold startPoll
  dsimp only
  split_ifs
  · rfl
  · exact (foldl_keeps State.mem _ (fun u a => accessEvent_mem ..) _ _)
  · rfl
  · rw [driveAntennas_mem, onAccess_mem, setDomain_mem, drawPlane_mem]

@[simp] theorem onToken_mem (s : State) (i : Nat) (f : Token → Token) : (s.onToken i f).mem = s.mem := rfl

@[simp] theorem writeToken_mem (s : State) (i action comp : Nat) (f : Token → Token) : (writeToken s i action comp f).mem = s.mem := by simp [writeToken]

@[simp] theorem ackSegments_mem (s : State) (seq : Nat) : (ackSegments s seq).mem = s.mem := by simp [ackSegments]

@[simp] theorem revertKeeper_mem (s : State) (cause into comp : Nat) : (revertKeeper s cause into comp).1.mem = s.mem := by
  unfold revertKeeper
  (repeat' split)
  all_goals simp

@[simp] theorem applyTime_mem (s : State) (p : Packet) : (applyTime s p).mem = s.mem := rfl

@[simp] theorem abandonTransfer_mem (s : State) (comp : Nat) : (abandonTransfer s comp).mem = s.mem := by
  unfold abandonTransfer
  (repeat' split)
  all_goals simp

@[simp] theorem openTransfer_mem (s : State) (comp kind : Nat) (h key : List Byte) : (openTransfer s comp kind h key).1.mem = s.mem := by
  unfold openTransfer
  split <;> simp

@[simp] theorem writeChunk_mem (s : State) (t : Transfer) (i : Nat) (l : List Byte) : (writeChunk s t i l).mem = s.mem := by
  unfold writeChunk
  split <;> rfl

@[simp] theorem drawCounter_mem (s : State) (k : Nat) : (drawCounter s k).1.mem = s.mem := by
  unfold drawCounter
  dsimp only
  split_ifs <;> simp

@[simp] theorem raiseCommit_mem (s : State) (k : Nat) : (raiseCommit s k).mem = s.mem := rfl

@[simp] theorem drawCommitted_mem (s : State) (k : Nat) : (drawCommitted s k).1.mem = s.mem := by
  have hdrawn := drawCounter_mem s k
  unfold drawCommitted
  split
  · next u hu =>
    rw [hu] at hdrawn
    exact (drawCounter_mem ..).trans ((raiseCommit_mem ..).trans hdrawn)
  · exact hdrawn

@[simp] theorem readCounter_mem (s : State) (h k : Nat) : (readCounter s h k).2.mem = s.mem := by
  unfold readCounter
  dsimp only
  split_ifs <;> simp

@[simp] theorem hallBlock_mem (s : State) (h : Nat) : (hallBlock s h).2.mem = s.mem :=
  foldl_same (fun a : List Byte × State => a.2.mem) _ (fun a k => readCounter_mem a.2 h k) _ _

@[simp] theorem snapHall_mem (p : Packet) (s : State) : (snapHall p s).s.mem = s.mem := by simp [snapHall]

@[simp] theorem portEntry_mem (s : State) (last : Option (Nat × List Meter)) (code : Nat) : (portEntry s last code).2.mem = s.mem := by
  unfold portEntry
  dsimp only
  split <;> simp

@[simp] theorem portEntries_mem (s : State) (last : Option (Nat × List Meter)) (codes : List Nat) :
    (portEntries s last codes).2.mem = s.mem := by
  unfold portEntries
  refine foldl_same (fun a : List Byte × State => a.2.mem) _ (fun a n => ?_) _ _
  exact portEntry_mem a.2 last n

@[simp] theorem snapMeters_mem (p : Packet) (s : State) : (snapMeters p s).s.mem = s.mem := by simp [snapMeters]

@[simp] theorem onPoll_mem (s : State) (f : Poll → Poll) : (s.onPoll f).mem = s.mem := rfl

@[simp] theorem onDebug_mem (s : State) (f : Debug → Debug) : (s.onDebug f).mem = s.mem := rfl

@[simp] theorem lockDebug_mem (s : State) (comp : Nat) : (lockDebug s comp).mem = s.mem := by
  unfold lockDebug
  split <;> simp

@[simp] theorem debugRespond_mem (p : Packet) (s : State) : (debugRespond p s).s.mem = s.mem := by
  unfold debugRespond
  dsimp only
  (repeat' split)
  all_goals simp

@[simp] theorem closeTransfer_mem (s : State) : (closeTransfer s).mem = s.mem := rfl

@[simp] theorem loadSlot_mem (s : State) (k : Nat) (x : KeySlot) : (loadSlot s k x).mem = s.mem := rfl

@[simp] theorem loadOwnerSlots_mem (s : State) : (loadOwnerSlots s).mem = s.mem := by simp [loadOwnerSlots]

@[simp] theorem installOwner_mem (s : State) (h payload : List Byte) : (installOwner s h payload).mem = s.mem := rfl

@[simp] theorem closeSegment_mem (s : State) (reason : Nat) : (closeSegment s reason).mem = s.mem := by
  unfold closeSegment
  split <;> simp

@[simp] theorem retryExpiry_mem (s : State) (ch : Nat) : (retryExpiry s ch).mem = s.mem := by
  unfold retryExpiry
  dsimp only
  (repeat' split)
  all_goals simp

@[simp] theorem noteVbatl_mem (s : State) (mv : Nat) : (noteVbatl s mv).mem = s.mem := rfl

@[simp] theorem noteLoss_mem (s : State) : (noteLoss s).mem = s.mem := by
  unfold noteLoss
  dsimp only
  split_ifs <;> simp

@[simp] theorem postEndEvents_mem (s : State) : (postEndEvents s).mem = s.mem := by
  unfold postEndEvents
  exact foldl_keeps State.mem _ (fun _ _ => by simp) _ _

@[simp] theorem noteAdopt_mem (s : State) (ticks : Nat) (failed : Bool) : (noteAdopt s ticks failed).mem = s.mem := by simp [noteAdopt]

@[simp] theorem loadPoint_mem (s : State) (pt : Nat) (v : PVal) : (loadPoint s pt v).mem = s.mem := rfl

@[simp] theorem loadNat_mem (s : State) (pt n : Nat) : (loadNat s pt n).mem = s.mem := rfl

@[simp] theorem loadEach_mem (s : State) (n base : Nat) (f : State → Nat → Nat) : (loadEach s n base f).mem = s.mem := by
  unfold loadEach
  exact foldl_keeps State.mem _ (fun _ _ => by simp) _ _

@[simp] theorem adoptOutputs_mem (s : State) : (adoptOutputs s).mem = s.mem := by
  unfold adoptOutputs
  dsimp only
  rw [foldl_keeps State.mem _ (fun u n => loadEach_mem ..), loadEach_mem, loadEach_mem, loadEach_mem, loadEach_mem]

@[simp] theorem loadReferences_mem (s : State) : (loadReferences s).mem = s.mem := by
  unfold loadReferences
  dsimp only
  rw [onInput_mem, onField_mem, foldl_keeps State.mem _ (fun u n => loadPoint_mem ..), foldl_keeps State.mem _ (fun u n => loadPoint_mem ..)]

@[simp] theorem loadSupply_mem (s : State) : (loadSupply s).mem = s.mem := rfl

@[simp] theorem loadField_mem (s : State) : (loadField s).mem = s.mem := by simp [loadField]

@[simp] theorem armRules_mem (s : State) : (armRules s).mem = s.mem := by
  unfold armRules
  refine foldl_keeps State.mem _ (fun u e => ?_) _ _
  split
  · exact setArmed_mem ..
  · rfl

@[simp] theorem loadVirtual_mem (s : State) : (loadVirtual s).mem = s.mem := by
  unfold loadVirtual
  exact foldl_keeps State.mem _ (fun _ _ => by simp) _ _

@[simp] theorem loadAnalogue_mem (s : State) : (loadAnalogue s).mem = s.mem := by
  unfold loadAnalogue
  refine foldl_keeps State.mem _ (fun u x => ?_) _ _
  dsimp only
  split_ifs <;> simp

@[simp] theorem loadInputs_mem (s : State) : (loadInputs s).mem = s.mem := by simp [loadInputs]

@[simp] theorem loadPoints_mem (s : State) (wasAsleep : Bool) : (loadPoints s wasAsleep).mem = s.mem := by
  unfold loadPoints
  split <;> simp

@[simp] theorem startNets_mem (s : State) : (startNets s).mem = s.mem := rfl

@[simp] theorem startLinks_mem (s : State) : (startLinks s).mem = s.mem := by
  unfold startLinks
  refine foldl_keeps State.mem _ (fun u x => ?_) _ _
  split <;> simp

@[simp] theorem resumeSas_mem (s : State) : (resumeSas s).mem = s.mem := rfl

@[simp] theorem startStreams_mem (s : State) : (startStreams s).mem = s.mem := by
  unfold startStreams
  refine foldl_keeps State.mem _ (fun u x => ?_) _ _
  dsimp only
  split_ifs <;> simp

@[simp] theorem applyStore_mem (s : State) : (applyStore s).mem = s.mem := by simp [applyStore]

@[simp] theorem bootCharters_mem (s : State) : (bootCharters s).mem = s.mem := by
  unfold bootCharters
  dsimp only
  (repeat' split)
  all_goals simp

@[simp] theorem noteLock_mem (s : State) : (noteLock s).mem = s.mem := by
  unfold noteLock
  split <;> simp

@[simp] theorem dropTransfers_mem (s : State) : (dropTransfers s).mem = s.mem := by
  unfold dropTransfers
  refine foldl_keeps State.mem _ (fun u x => ?_) _ _
  split <;> simp

@[simp] theorem enterLantern_mem (s : State) : (enterLantern s).mem = s.mem := by
  have hports : (tellLow (powerPorts (showState (s.onSeq fun q => { q with state := .lantern }) 2))).mem = s.mem :=
    (tellLow_mem _).trans ((powerPorts_mem _).trans (showState_mem ..))
  unfold enterLantern
  dsimp only
  rw [openBuoyGrant_mem, postWakes_mem, setReady_mem, onSleep_mem]
  split
  · exact (setDomain_mem ..).trans hports
  · exact hports

@[simp] theorem writeSeal_mem (s : State) : (writeSeal s).mem = s.mem := rfl

@[simp] theorem bootApp_mem (s : State) : (bootApp s).mem = s.mem := by
  have hreverted := revertApp_mem s 3 6 0
  have hfailed : (failBoot (match activeApp s with | some b => setBank s b 6 0 | none => s) 2).mem = s.mem := by
    refine (failBoot_mem ..).trans ?_
    split
    · exact setBank_mem ..
    · rfl
  have hturned : (match revertApp s 3 6 0 with
      | (s', true) => s'
      | (_, false) => failBoot (match activeApp s with | some b => setBank s b 6 0 | none => s) 2).mem = s.mem := by
    split
    · next h =>
      rw [h] at hreverted
      exact hreverted
    · exact hfailed
  exact ite_mem rfl (ite_mem rfl hturned)

@[simp] theorem acceptAdopt_mem (s : State) (f : L2Frame) : (acceptAdopt s f).mem = s.mem := by
  unfold acceptAdopt
  split <;> rfl

@[simp] theorem leaveHold_mem (s : State) : (leaveHold s).mem = s.mem := by simp [leaveHold]

@[simp] theorem joinLandings_mem (s : State) (h : Nat) : (joinLandings s h).mem = s.mem := rfl

@[simp] theorem startHalls_mem (s : State) : (startHalls s).mem = s.mem := by simp [startHalls]

@[simp] theorem bootDead_mem (s : State) : (bootDead s).mem = s.mem := rfl

@[simp] theorem loadKeeperSlots_mem (s : State) : (loadKeeperSlots s).mem = s.mem := by
  unfold loadKeeperSlots
  dsimp only
  rw [loadOwnerSlots_mem, loadSlot_mem, foldl_keeps State.mem _ (fun u n => loadSlot_mem ..)]

theorem keeperTurned_mem (s : State) (b : Nat) :
    (match revertKeeper s 3 6 0 with
      | (s', true) => s'.onImage fun x => { x with keeperBank := otherBank b }
      | (_, false) =>
        if keeperPasses s (otherBank b) then
          (setBank (setBank s b 6 0) (otherBank b) 3 0).onImage fun x => { x with keeperBank := otherBank b }
        else bootDead s).mem = s.mem := by
  have hreverted := revertKeeper_mem s 3 6 0
  split
  · next h =>
    rw [h] at hreverted
    exact hreverted
  · split
    · exact (setBank_mem ..).trans (setBank_mem ..)
    · exact bootDead_mem s

@[simp] theorem bootKeeper_mem (s : State) : (bootKeeper s).mem = s.mem := by
  obtain ⟨u, hu⟩ : ∃ u, (match bankIn s 1 4 with
    | some b =>
      if (bank13 s b).bootLeft = 0 then (revertKeeper s 1 6 0).1
      else s.onBank13 b fun x => { x with bootLeft := x.bootLeft - 1 }
    | none => s) = u := ⟨_, rfl⟩
  have hcounted : u.mem = s.mem := by
    rw [← hu]
    split
    · split
      · exact revertKeeper_mem ..
      · rfl
    · rfl
  have hboot : bootKeeper s = match activeKeeper u with
    | none => bootDead u
    | some b =>
      if keeperPasses u b then u.onImage fun x => { x with keeperBank := b }
      else
        match revertKeeper u 3 6 0 with
        | (s', true) => s'.onImage fun x => { x with keeperBank := otherBank b }
        | (_, false) =>
          if keeperPasses u (otherBank b) then
            (setBank (setBank u b 6 0) (otherBank b) 3 0).onImage fun x => { x with keeperBank := otherBank b }
          else bootDead u := by
    rw [← hu]
    rfl
  rw [hboot]
  split
  · exact (bootDead_mem u).trans hcounted
  · split
    · exact hcounted
    · exact (keeperTurned_mem u _).trans hcounted

@[simp] theorem bootKeeperPair_mem (s : State) : (bootKeeperPair s).mem = s.mem := by
  unfold bootKeeperPair
  dsimp only
  split_ifs <;> simp

@[simp] theorem observeAt_mem (s : State) (tick h idx : Nat) (writes : List (Nat × PVal)) (events : List Ev) : (observeAt s tick h idx writes events).mem = s.mem := by
  unfold observeAt
  split <;> simp

@[simp] theorem updateFieldFault_mem (s : State) (tick : Nat) : (updateFieldFault s tick).mem = s.mem := by
  unfold updateFieldFault
  dsimp only
  split <;> simp

@[simp] theorem markStale_mem (s : State) (tick : Nat) (b : Bool) : (markStale s tick b).mem = s.mem := by
  unfold markStale
  dsimp only
  split <;> simp

@[simp] theorem fieldLinkEvent_mem (s : State) (tick : Nat) (lost : Bool) : (fieldLinkEvent s tick lost).mem = s.mem := by simp [fieldLinkEvent]

@[simp] theorem noData_mem (s : State) (w : Nat) : (noData s w).mem = s.mem := by
  unfold noData
  dsimp only
  split <;> simp

@[simp] theorem countOverflow_mem (fi : Nat) (full : Bool) (s : State) : (countOverflow fi full s).mem = s.mem := by
  unfold countOverflow
  split <;> rfl

@[simp] theorem fsChange_mem (w k cls : Nat) (s : State) : (fsChange w k cls s).mem = s.mem := by
  unfold fsChange
  dsimp only
  split_ifs <;> simp

@[simp] theorem chgOverflow_mem (w fi : Nat) (s : State) (n : Nat) : (chgOverflow w fi s n).mem = s.mem := by
  unfold chgOverflow
  split <;> simp

@[simp] theorem causeChange_mem (w n : Nat) (old new : FoShown) (s : State) (k : Nat) : (causeChange w n old new s k).mem = s.mem := by
  unfold causeChange
  dsimp only
  split_ifs <;> simp

@[simp] theorem outputChanges_mem (w : Nat) (s : State) : (outputChanges w s).mem = s.mem := by
  unfold outputChanges
  dsimp only
  refine (onField_mem ..).trans (foldl_keeps State.mem _ (fun u n => ?_) _ _)
  exact foldl_keeps State.mem _ (fun v k => causeChange_mem ..) _ _

@[simp] theorem chgEntry_mem (w : Nat) (s : State) (c : FieldChg) : (chgEntry w s c).mem = s.mem := by simp [chgEntry]

@[simp] theorem fieldProgress_mem (s : State) (w : Nat) : (fieldProgress s w).mem = s.mem := rfl

theorem changesTold_mem (w : Nat) (f : FieldFrame) (s : State) :
    ((List.range 16).foldl (chgOverflow w f.fiState) (countOverflow f.fiState (f.chg.length == 8) (f.chg.foldl (chgEntry w) s))).mem = s.mem := by
  refine (foldl_keeps State.mem _ (fun u n => chgOverflow_mem ..) _ _).trans ((countOverflow_mem ..).trans ?_)
  exact foldl_keeps State.mem _ (fun u e => chgEntry_mem ..) _ _

@[simp] theorem barrierFrame_mem (s : State) (crcOk : Bool) : (barrierFrame s crcOk).mem = s.mem := by
  unfold barrierFrame
  split
  · rfl
  · dsimp only
    split
    · split
      · simp
      · rw [fieldProgress_mem, updateFieldFault_mem, outputChanges_mem, fsChange_mem, fsChange_mem, changesTold_mem]
        refine (onField_mem ..).trans ?_
        split
        · simp
        · rfl
    · rfl

@[simp] theorem valveEvent_mem (s : State) (kind v value : Nat) : (valveEvent s kind v value).mem = s.mem := by simp [valveEvent]

@[simp] theorem startDrive_mem (s : State) (m : Nat) (d : Drive) (duty : Nat) : (startDrive s m d duty).mem = s.mem := by
  unfold startDrive
  dsimp only
  split <;> simp

@[simp] theorem enterState_mem (s : State) (m : Nat) (v : PVal) : (enterState s m v).mem = s.mem := by
  unfold enterState
  dsimp only
  split_ifs <;> simp

@[simp] theorem commandSeg_mem (s : State) (n k : Nat) (v : PVal) : (commandSeg s n k v).mem = s.mem := by
  unfold commandSeg
  dsimp only
  split_ifs <;> simp

@[simp] theorem commandChan_mem (s : State) (ch : Nat) (v : PVal) : (commandChan s ch v).mem = s.mem := by
  unfold commandChan
  dsimp only
  split_ifs <;> simp

@[simp] theorem latchWake_mem (s : State) (cause index : Nat) : (latchWake s cause index).mem = s.mem := by
  unfold latchWake
  split <;> simp

@[simp] theorem tc10Wake_mem (s : State) (n : Nat) : (tc10Wake s n).mem = s.mem := by
  unfold tc10Wake
  dsimp only
  split_ifs <;> simp

@[simp] theorem programStart_mem (s : State) (v : Nat) : (programStart s v).mem = s.mem := by
  unfold programStart
  dsimp only
  split <;> simp

@[simp] theorem usePn_mem (s : State) (a : Sa) : (usePn s a).mem = s.mem := by
  unfold usePn
  dsimp only
  split <;> simp

@[simp] theorem macsecMismatch_mem (s : State) (ctx : Nat) : (macsecMismatch s ctx).mem = s.mem := by
  unfold macsecMismatch
  (repeat' split)
  all_goals simp

@[simp] theorem recordPoll_mem (s : State) (q : Poll) (granted : Option Nat) : (recordPoll s q granted).mem = s.mem := by simp [recordPoll]

@[simp] theorem dropPoll_mem (s : State) : (dropPoll s).mem = s.mem := by
  unfold dropPoll
  dsimp only
  split <;> simp

@[simp] theorem handCan_mem (s : State) (c queue : Nat) (f : TxFrame) (sof : Bool) : (handCan s c queue f sof).1.mem = s.mem := rfl

@[simp] theorem sendOwn_mem (s : State) (c : Nat) (f : CanFrame) : (sendOwn s c f).mem = s.mem := by
  unfold sendOwn
  split <;> rfl

@[simp] theorem sendNm_mem (s : State) (n flags dest : Nat) : (sendNm s n flags dest).mem = s.mem := by simp [sendNm]

@[simp] theorem keepAlive_mem (s : State) (n : Nat) : (keepAlive s n).mem = s.mem := by
  unfold keepAlive
  dsimp only
  split_ifs <;> simp

@[simp] theorem fieldRecover_mem (s : State) : (fieldRecover s).mem = s.mem := by
  unfold fieldRecover
  dsimp only
  split_ifs <;> simp

@[simp] theorem sessionTimeout_mem (s : State) : (sessionTimeout s).mem = s.mem := by
  unfold sessionTimeout
  (repeat' split)
  all_goals simp

@[simp] theorem reportHb_mem (s : State) (m cause detail : Nat) : (reportHb s m cause detail).mem = s.mem := by
  unfold reportHb
  dsimp only
  split <;> simp

@[simp] theorem reportFeed_mem (s : State) (f cause detail : Nat) : (reportFeed s f cause detail).mem = s.mem := by
  unfold reportFeed
  dsimp only
  split <;> simp

@[simp] theorem endFire_mem (s : State) (v : Nat) (st : Status) : (endFire s v st).mem = s.mem := rfl

@[simp] theorem bankEvent_mem (s : State) (kind b mv : Nat) : (bankEvent s kind b mv).mem = s.mem := by simp [bankEvent]

@[simp] theorem diagnosisLimit_mem (s : State) (b mv : Nat) : (diagnosisLimit s b mv).mem = s.mem := by
  unfold diagnosisLimit
  (repeat' split)
  all_goals rfl

@[simp] theorem senseOne_mem (s : State) (i mv : Nat) : (senseOne s i mv).mem = s.mem := by
  unfold senseOne
  dsimp only
  split_ifs <;> simp

@[simp] theorem cyclicSense_mem (s : State) (g : Nat) (mvs : List Nat) : (cyclicSense s g mvs).mem = s.mem := by
  unfold cyclicSense
  split
  · exact foldl_keeps State.mem _ (fun u k => senseOne_mem ..) _ _
  · rfl

@[simp] theorem endRefusals_mem (s : State) : (endRefusals s).mem = s.mem := by
  unfold endRefusals
  split
  · rfl
  · refine foldl_keeps State.mem _ (fun u m => ?_) _ _
    dsimp only
    split
    · exact (onHb_mem ..).trans (endHbCause_mem ..)
    · rfl

@[simp] theorem noteModuleTemp_mem (s : State) (th : Thermals) : (noteModuleTemp s th).mem = s.mem := by
  unfold noteModuleTemp
  split <;> simp

@[simp] theorem noneLeft_mem (s : State) (th : Thermals) (r : Nat × Nat) : (noneLeft s th r).mem = s.mem := by simp [noneLeft]

@[simp] theorem noteThermals_mem (s : State) (th : Thermals) : (noteThermals s th).mem = s.mem := rfl

@[simp] theorem cutChan_mem (s : State) (th : Thermals) (r : Nat × Nat) (ch mW mA : Nat) : (cutChan s th r ch mW mA).mem = s.mem := by simp [cutChan]

theorem noneLeft_fold_mem (th : Thermals) (l : List (Nat × Nat)) (s : State) : (l.foldl (noneLeft · th ·) s).mem = s.mem :=
  foldl_keeps State.mem _ (fun u r => noneLeft_mem u th r) l s

@[simp] theorem managerCut_mem (s : State) (th : Thermals) (mW mA : Nat) : (managerCut s th mW mA).mem = s.mem := by
  have hnoted : (noteThermals (noteModuleTemp s th) th).mem = s.mem := (noteThermals_mem ..).trans (noteModuleTemp_mem ..)
  unfold managerCut
  refine ite_mem hnoted ?_
  dsimp only
  split
  · exact (cutChan_mem ..).trans ((noneLeft_fold_mem ..).trans hnoted)
  · exact (noneLeft_fold_mem ..).trans hnoted

/-- Inputs that are told again after a wake. -/

@[simp] theorem admitSlot_mem (s : State) (r : Nat) : (admitSlot s r).mem = s.mem := rfl

@[simp] theorem bankClamp_mem (s : State) (b uJ : Nat) : (bankClamp s b uJ).mem = s.mem := by
  unfold bankClamp
  dsimp only
  split <;> simp

@[simp] theorem reportVl_mem (s : State) (v cause detail : Nat) : (reportVl s v cause detail).mem = s.mem := by
  unfold reportVl
  dsimp only
  split <;> simp

@[simp] theorem lockVl_mem (s : State) (v cause detail : Nat) : (lockVl s v cause detail).mem = s.mem := by
  unfold lockVl
  dsimp only
  split_ifs <;> simp

@[simp] theorem clampVl_mem (s : State) (v uJ : Nat) : (clampVl s v uJ).mem = s.mem := by
  unfold clampVl
  dsimp only
  split_ifs <;> simp

@[simp] theorem setSag_mem (s : State) (b mv : Nat) (on : Bool) : (setSag s b mv on).mem = s.mem := by simp [setSag]

@[simp] theorem belowWarn_mem (s : State) (b mv : Nat) : (belowWarn s b mv).mem = s.mem := by
  unfold belowWarn
  split <;> simp

@[simp] theorem captureVisible_mem (r n : Nat) (s : State) : (captureVisible r n s).mem = s.mem := by
  induction n generalizing s with
  | zero => rfl
  | succ n ih =>
    unfold captureVisible
    dsimp only
    split
    · exact (ih _).trans ((onRing_mem ..).trans (captureCommand_mem ..))
    · rfl

@[simp] theorem badDoor_mem (s : State) (r : Nat) : (badDoor s r).mem = s.mem := rfl

@[simp] theorem submitDoor_mem (s : State) (r index : Nat) : (submitDoor s r index).mem = s.mem := by
  unfold submitDoor
  dsimp only
  split_ifs <;> simp

@[simp] theorem consumeDoor_mem (s : State) (r index : Nat) : (consumeDoor s r index).mem = s.mem := by
  unfold consumeDoor
  dsimp only
  split_ifs <;> simp

@[simp] theorem ringDoor_mem (s : State) (c r index : Nat) : (ringDoor s c r index).mem = s.mem := by
  simp only [ringDoor, apply_ite State.mem]
  simp

@[simp] theorem shadowDoor_mem (s : State) (r index : Nat) : (shadowDoor s r index).mem = s.mem := by
  unfold shadowDoor
  dsimp only
  split_ifs <;> simp

@[simp] theorem shadowFault_mem (s : State) : (shadowFault s).mem = s.mem := by
  unfold shadowFault
  split <;> rfl

theorem shadowAccess_mem (s : State) (c r : Nat) (f : State → State) (h : (f s).mem = s.mem) : (shadowAccess s c r f).mem = s.mem := by
  unfold shadowAccess
  split
  · exact h
  · exact shadowFault_mem ..

@[simp] theorem anyDoor_mem (s : State) (comp ring index : Nat) : (anyDoor s comp ring index).mem = s.mem := by
  unfold anyDoor
  split
  · exact shadowAccess_mem _ _ _ _ (shadowDoor_mem ..)
  · exact ringDoor_mem ..

@[simp] theorem debugExpiry_mem (s : State) : (debugExpiry s).mem = s.mem := by
  unfold debugExpiry
  split <;> simp

@[simp] theorem periodHs_mem (s : State) (ch : Nat) : (periodHs s ch).mem = s.mem := by
  unfold periodHs
  dsimp only
  split <;> simp

@[simp] theorem periodVl_mem (s : State) (v : Nat) : (periodVl s v).mem = s.mem := by
  unfold periodVl
  dsimp only
  split <;> simp

@[simp] theorem periodHb_mem (s : State) (m : Nat) : (periodHb s m).mem = s.mem := rfl

@[simp] theorem periodLs_mem (s : State) (n : Nat) : (periodLs s n).mem = s.mem := rfl

@[simp] theorem periodStart_mem (s : State) (o : OutputId) : (periodStart s o).mem = s.mem := by
  unfold periodStart
  split <;> simp

@[simp] theorem restartResetLs_mem (s : State) (n : Nat) : (restartResetLs s n).mem = s.mem := by
  unfold restartResetLs
  split <;> rfl

@[simp] theorem restartResetHs_mem (s : State) (ch : Nat) : (restartResetHs s ch).mem = s.mem := by
  unfold restartResetHs
  split <;> rfl

@[simp] theorem restartReset_mem (s : State) (o : OutputId) : (restartReset s o).mem = s.mem := by
  unfold restartReset
  split <;> simp

@[simp] theorem observeStamped_mem (s : State) (t : Stamp) (h idx : Nat) (writes : List (Nat × PVal)) (events : List Ev) (caps : List CapRecord) : (observeStamped s t h idx writes events caps).mem = s.mem := by
  unfold observeStamped
  split <;> simp

@[simp] theorem deliver_mem (s : State) (c : Nat) (f : CanFrame) (element : Nat) (e : FilterElem) (secure : Option Bool) (caps : List CapRecord) (events : List Ev) (t : Stamp) :
    (deliver s c f element e secure caps events t).mem = s.mem := by simp [deliver]

@[simp] theorem commitFresh_mem (s : State) (k : Nat) : (commitFresh s k).mem = s.mem := rfl

@[simp] theorem acceptFresh_mem (s : State) (k f : Nat) : (acceptFresh s k f).mem = s.mem := by
  unfold acceptFresh
  dsimp only
  split <;> simp

@[simp] theorem onPins_mem (s : State) (f : Pins → Pins) : (s.onPins f).mem = s.mem := rfl

@[simp] theorem crystalLoss_mem (s : State) : (crystalLoss s).mem = s.mem := by
  unfold crystalLoss
  split <;> simp

@[simp] theorem timerStep_mem (s : State) (pt : Nat) : (timerStep s pt).mem = s.mem := by
  unfold timerStep
  dsimp only
  split_ifs <;> simp

@[simp] theorem foLock_mem (s : State) (n cause detail : Nat) : (foLock s n cause detail).mem = s.mem := rfl

@[simp] theorem fieldOutFault_mem (s : State) (n cause : Nat) (readings : List Nat) (active : Bool) : (fieldOutFault s n cause readings active).mem = s.mem := by
  unfold fieldOutFault
  dsimp only
  split_ifs <;> simp

@[simp] theorem stepPosition_mem (s : State) (m : Nat) : (stepPosition s m).mem = s.mem := by simp [stepPosition]

@[simp] theorem rippleCount_mem (s : State) (m mean peak : Nat) : (rippleCount s m mean peak).mem = s.mem := by
  unfold rippleCount
  dsimp only
  split <;> simp

@[simp] theorem rippleInsert_mem (s : State) (m : Nat) : (rippleInsert s m).mem = s.mem := by
  unfold rippleInsert
  dsimp only
  split_ifs <;> simp

@[simp] theorem ageAddress_mem (s : State) (mac vid : Nat) : (ageAddress s mac vid).mem = s.mem := rfl

@[simp] theorem phaseLasts_mem (s : State) (lo hi ns : Nat) : (phaseLasts s lo hi ns).2.mem = s.mem := by
  unfold phaseLasts
  dsimp only
  split_ifs <;> simp

@[simp] theorem linWakes_mem : ∀ (s : State) (l : List Nat), (linWakes s l).2.mem = s.mem
  | s, d :: _ :: t => by
    have hphase := phaseLasts_mem s 30000 150000 d
    unfold linWakes
    dsimp only
    split
    · exact hphase
    · exact (linWakes_mem _ t).trans hphase
  | _, [] => rfl
  | _, [_] => rfl

@[simp] theorem canWakes_mem (pattern : Bool) (s : State) (l : List Nat) : (canWakes s pattern l).2.mem = s.mem := by
  have hphase := fun (u : State) (d : Nat) => phaseLasts_mem u 500 1800 d
  fun_induction canWakes s pattern l
  all_goals simp_all +zetaDelta

@[simp] theorem detects_mem (s : State) (cause index : Nat) (phases : List Nat) : (detects s cause index phases).2.mem = s.mem := by
  unfold detects
  (repeat' split)
  all_goals simp

@[simp] theorem flagWake_mem (s : State) (cause index : Nat) : (flagWake s cause index).mem = s.mem := by
  unfold flagWake
  split <;> rfl

@[simp] theorem wakeLatch_mem (s : State) (cause index : Nat) (phases : List Nat) : (wakeLatch s cause index phases).mem = s.mem := by
  unfold wakeLatch
  dsimp only
  split_ifs <;> simp

@[simp] theorem endFlight_mem (s : State) (r : Nat) (f : Flight) : (endFlight s r f).mem = s.mem := rfl

@[simp] theorem interruptHead_mem (s : State) (r : Nat) : (interruptHead s r).mem = s.mem := by
  unfold interruptHead
  split <;> simp

@[simp] theorem grantFirst_mem (s : State) (f : Nat) : (grantFirst s f).mem = s.mem := by
  unfold grantFirst
  dsimp only
  (repeat' split)
  all_goals simp

@[simp] theorem measureSupply_mem (s : State) (k : Nat) : (measureSupply s k).mem = s.mem := by simp [measureSupply]

@[simp] theorem fieldPowerUp_mem (s : State) : (fieldPowerUp s).mem = s.mem := by
  unfold fieldPowerUp
  split <;> simp

@[simp] theorem countRound_mem (s : State) (n : Nat) : (countRound s n).mem = s.mem := by
  unfold countRound
  exact foldl_keeps State.mem _ (fun _ _ => by simp) _ _

@[simp] theorem enterWait_mem (s : State) (n : Nat) : (enterWait s n).mem = s.mem := by simp [enterWait]

@[simp] theorem sendRing_mem (s : State) (n : Nat) (ack : Bool) : (sendRing s n ack).mem = s.mem := by
  unfold sendRing
  split <;> simp

@[simp] theorem ringTimeout_mem (s : State) (n : Nat) : (ringTimeout s n).mem = s.mem := by
  unfold ringTimeout
  dsimp only
  split_ifs <;> simp

@[simp] theorem storeRtc_mem (s : State) : (storeRtc s).mem = s.mem := rfl

@[simp] theorem lagStep_mem (s : State) : (lagStep s).mem = s.mem := by
  unfold lagStep
  refine foldl_keeps State.mem _ (fun u x => ?_) _ _
  split <;> simp

@[simp] theorem shadowSize_mem (s : State) (r n : Nat) : (shadowSize s r n).mem = s.mem := rfl

@[simp] theorem ringSize_mem (s : State) (c r n : Nat) : (ringSize s c r n).mem = s.mem := by
  unfold ringSize
  split <;> simp

@[simp] theorem integrated_mem (s : State) (c : Nat) : (integrated s c).mem = s.mem := by
  unfold integrated
  split <;> simp

@[simp] theorem busError_mem (s : State) (c : Nat) (e : BusErr) : (busError s c e).mem = s.mem := by
  unfold busError
  dsimp only
  split_ifs <;> simp

@[simp] theorem progressReport_mem (s : State) (l h t : Nat) : (progressReport s l h t).mem = s.mem := by
  unfold progressReport
  split <;> rfl

@[simp] theorem supplyWarn_mem (s : State) (mv : Nat) (on : Bool) : (supplyWarn s mv on).mem = s.mem := by simp [supplyWarn]

theorem inputsTold_mem (s : State) (l : List Nat) : (l.foldl (fun s i =>
    let v := BitVec.ofNat 16 (b2n (siOf s i).out)
    if pget s (siPoint i) = v then s else observeStamped s (joinStamp s 7) 7 i [(siPoint i, v)] [] [pointCap 7 (siPoint i) v]) s).mem = s.mem :=
  foldl_keeps State.mem _ (fun _ _ => ite_mem rfl (observeStamped_mem ..)) _ _

/-- The field inputs that are told again. -/

theorem fieldTold_mem (s : State) (l : List Nat) : (l.foldl (fun s n =>
    let b := (vget s.input.die.fi n).out
    let v := BitVec.ofNat 16 (b2n b)
    if pget s (fiPoint n) = v then s
    else observeStamped (s.onField fun l => { l with fiState := setBit l.fiState n b }) (joinStamp s 8) 8 n [(fiPoint n, v)] []
      [pointCap 8 (fiPoint n) v]) s).mem = s.mem :=
  foldl_keeps State.mem _ (fun _ _ => ite_mem rfl ((observeStamped_mem ..).trans (onField_mem ..))) _ _

@[simp] theorem inputReload_mem (s : State) : (inputReload s).mem = s.mem :=
  have hinputs := ite_mem (c := s.input.reloadSi = true ∧ feedsL0 s 7 = true) (v := s)
    (inputsTold_mem (s.onInput fun x => { x with reloadSi := false }) (List.range 48)) rfl
  ite_mem ((fieldTold_mem ..).trans hinputs) hinputs

@[simp] theorem errorState_mem (s : State) (c st : Nat) : (errorState s c st).mem = s.mem := by
  unfold errorState
  dsimp only
  split_ifs <;> simp

@[simp] theorem reverseEnd_mem (s : State) (ch : Nat) : (reverseEnd s ch).mem = s.mem := by simp [reverseEnd]

@[simp] theorem patternUpdate_mem (s : State) (e : Nat) : (patternUpdate s e).mem = s.mem := by
  have hlag : (if updateDue s e = true then lagStep s else s).mem = s.mem := by
    split
    · exact lagStep_mem s
    · rfl
  unfold patternUpdate
  dsimp only
  generalize (if updateDue s e = true then lagStep s else s) = u at hlag
  split
  · exact hlag
  · split_ifs
    · exact (enterStep_mem ..).trans ((foldl_keeps State.mem _ (fun u t => patWrite_mem ..) _ _).trans hlag)
    · exact Eq.trans rfl ((foldl_keeps State.mem _ (fun u t => patWrite_mem ..) _ _).trans hlag)
    · exact hlag

@[simp] theorem onHandle_mem (s : State) (k : Nat) (f : Handle → Handle) : (s.onHandle k f).mem = s.mem := rfl

@[simp] theorem handlePoll_mem (s : State) (k cap : Nat) : (handlePoll s k cap).mem = s.mem := by
  unfold handlePoll
  split <;> rfl

@[simp] theorem tc10Request_mem (s : State) (n : Nat) : (tc10Request s n).mem = s.mem := by
  unfold tc10Request
  dsimp only
  split_ifs <;> simp

@[simp] theorem selectiveWake_mem (s : State) (n : Nat) (f : CanFrame) (good : Bool) : (selectiveWake s n f good).mem = s.mem := by
  unfold selectiveWake
  dsimp only
  split_ifs <;> simp

@[simp] theorem autoPoll_mem (s : State) (antMask : Nat) : (autoPoll s antMask).mem = s.mem := by
  unfold autoPoll
  split <;> simp

@[simp] theorem handleTouch_mem (s : State) (k : Nat) : (handleTouch s k).mem = s.mem := by
  unfold handleTouch
  dsimp only
  split_ifs <;> simp

@[simp] theorem responderIdle_mem (s : State) (c : Nat) : (responderIdle s c).mem = s.mem := by
  unfold responderIdle
  dsimp only
  split <;> simp

@[simp] theorem rampStep_mem (s : State) (pt : Nat) : (rampStep s pt).mem = s.mem := by
  unfold rampStep
  dsimp only
  (repeat' split)
  all_goals simp

@[simp] theorem siSample_mem (s : State) (i mv : Nat) : (siSample s i mv).mem = s.mem := by
  unfold siSample
  dsimp only
  split_ifs <;> simp

@[simp] theorem countRx_mem (s : State) (n : Nat) (bytes : Nat) : (countRx s n bytes).mem = s.mem := by
  unfold countRx
  split <;> rfl

@[simp] theorem latchTick_mem (s : State) : (latchTick s).mem = s.mem := by
  unfold latchTick
  split
  · exact onPlane_mem ..
  · rfl

@[simp] theorem countTx_mem (s : State) (n : Nat) (bytes : Nat) : (countTx s n bytes).mem = s.mem := by
  unfold countTx
  split <;> rfl

@[simp] theorem keeperSent_mem (s : State) (q : Queued) : (keeperSent s q).mem = s.mem := by
  unfold keeperSent
  dsimp only
  split_ifs <;> simp

@[simp] theorem deliverApp_mem (s : State) (q : Queued) : (deliverApp s q).mem = s.mem := by
  unfold deliverApp
  dsimp only
  split_ifs <;> simp

@[simp] theorem appSent_mem (s : State) (q : Queued) : (appSent s q).mem = s.mem := by
  unfold appSent
  dsimp only
  split <;> simp

@[simp] theorem thermalHs_mem (s : State) (ch : Nat) : (thermalHs s ch).mem = s.mem := by
  unfold thermalHs
  dsimp only
  split_ifs <;> simp

@[simp] theorem endHoldHb_mem (s : State) (m cause : Nat) : (endHoldHb s m cause).mem = s.mem := by
  unfold endHoldHb
  split <;> simp

@[simp] theorem lockString_mem (s : State) (n cause detail : Nat) : (lockString s n cause detail).mem = s.mem := by simp [lockString]

@[simp] theorem thermalLs_mem (s : State) (n : Nat) : (thermalLs s n).mem = s.mem := by
  unfold thermalLs
  dsimp only
  split_ifs <;> simp

@[simp] theorem endHoldFeed_mem (s : State) (f cause : Nat) : (endHoldFeed s f cause).mem = s.mem := by
  unfold endHoldFeed
  split <;> simp

@[simp] theorem holdVl_mem (s : State) (v : Nat) : (holdVl s v).mem = s.mem := by
  unfold holdVl
  dsimp only
  split <;> simp

@[simp] theorem managerReturn_mem (s : State) (th : Thermals) : (managerReturn s th).mem = s.mem := by
  unfold managerReturn
  dsimp only
  (repeat' split)
  all_goals simp

@[simp] theorem linActive_mem (s : State) (c : Nat) : (linActive s c).mem = s.mem := rfl

@[simp] theorem linDeliver_mem (s : State) (c id : Nat) (data : List Byte) : (linDeliver s c id data).mem = s.mem := by simp [linDeliver]

@[simp] theorem nmAnyFrame_mem (s : State) (n : Nat) : (nmAnyFrame s n).mem = s.mem := by
  unfold nmAnyFrame
  split <;> simp

@[simp] theorem linAccept_mem (s : State) (c id : Nat) (data : List Byte) : (linAccept s c id data).mem = s.mem := by
  unfold linAccept
  dsimp only
  split_ifs <;> simp

@[simp] theorem rtcAlarm_mem (s : State) : (rtcAlarm s).mem = s.mem := by
  unfold rtcAlarm
  (repeat' split)
  all_goals simp

@[simp] theorem pulseEnd_mem (s : State) (pt : Nat) : (pulseEnd s pt).mem = s.mem := by
  unfold pulseEnd
  (repeat' split)
  all_goals simp

@[simp] theorem endRelease_mem (s : State) : (endRelease s).mem = s.mem := by
  unfold endRelease
  dsimp only
  split <;> simp

@[simp] theorem endFaulted_mem (s : State) : (endFaulted s).mem = s.mem := by
  unfold endFaulted
  split <;> simp

@[simp] theorem patternUpdates_mem (s : State) : (patternUpdates s).mem = s.mem := by
  unfold patternUpdates
  exact (foldl_keeps State.mem _ (fun u e => patternUpdate_mem u e) _ _).trans (lagStep_mem s)

@[simp] theorem captureCheckpoint_mem (s : State) : (captureCheckpoint s).mem = s.mem := by
  unfold captureCheckpoint
  dsimp only
  split <;> simp

@[simp] theorem takeDue_mem (s : State) (l t : Nat) : (takeDue s l t).1.mem = s.mem := rfl

@[simp] theorem noteDelivered_mem (s : State) (r : Nat) (e : Ev) : (noteDelivered s r e).mem = s.mem := by
  unfold noteDelivered
  split <;> rfl

@[simp] theorem keeperWake_mem (s : State) (t : Stamp) (cause index : Nat) : (keeperWake s t cause index).mem = s.mem := by simp [keeperWake]

@[simp] theorem noteWarning_mem (s : State) : (noteWarning s).mem = s.mem := by
  unfold noteWarning
  refine (foldl_keeps State.mem _ (fun u k => ?_) _ _).trans (closeSegment_mem ..)
  split
  · exact commitFresh_mem ..
  · rfl

@[simp] theorem keeperItem_mem (s : State) (it : LandItem) : (keeperItem s it).mem = s.mem := by
  unfold keeperItem
  (repeat' split)
  all_goals simp

@[simp] theorem releaseKeeper_mem (s : State) (t : Nat) : (releaseKeeper s t).mem = s.mem := by
  unfold releaseKeeper
  exact foldl_keeps State.mem _ (fun _ _ => by simp) _ _

@[simp] theorem lateWriterStep_mem (s : State) (w : PWrite) (r : WriteResult) : (lateWriterStep s w r).mem = s.mem := rfl

@[simp] theorem applyDeferred_mem (s : State) (w : PWrite) : (applyDeferred s w).mem = s.mem := by
  unfold applyDeferred
  dsimp only
  split_ifs <;> simp

@[simp] theorem deferredStep_mem (s : State) : (deferredStep s).mem = s.mem := by
  unfold deferredStep
  exact foldl_keeps State.mem _ (fun _ _ => by simp) _ _

@[simp] theorem releaseSense_mem (s : State) (t : Nat) : (releaseSense s t).mem = s.mem := by simp [releaseSense]

@[simp] theorem sealTick_mem (s : State) : (sealTick s).mem = s.mem := by
  unfold sealTick
  (repeat' split)
  all_goals simp

@[simp] theorem deferredActions_mem (s : State) : (deferredActions s).mem = s.mem := by
  unfold deferredActions
  exact foldl_keeps State.mem _ (fun _ _ => by simp) _ _

@[simp] theorem reflexTick_mem (s : State) : (reflexTick s).mem = s.mem := by
  have hrun : ∀ (u : State) (pt : Nat), (rampStep (pulseEnd u pt) pt).mem = u.mem := fun u pt => (rampStep_mem ..).trans (pulseEnd_mem ..)
  exact (reflexEvaluate_mem _).trans ((foldl_keeps State.mem _ hrun _ _).trans (deferredActions_mem s))

@[simp] theorem timerSteps_mem (s : State) : (timerSteps s).mem = s.mem := by
  unfold timerSteps
  exact foldl_keeps State.mem _ (fun _ _ => by simp) _ _

@[simp] theorem canMeter_mem (s : State) (c : Nat) (tx : Bool) : (canMeter s c tx).mem = s.mem := by
  unfold canMeter
  dsimp only
  split <;> simp

@[simp] theorem notePeer_mem (s : State) (n node : Nat) : (notePeer s n node).mem = s.mem := by
  unfold notePeer
  dsimp only
  split_ifs <;> simp

@[simp] theorem ringRx_mem (s : State) (n : Nat) (m : NmMessage) : (ringRx s n m).mem = s.mem := by
  unfold ringRx
  dsimp only
  split_ifs <;> simp

@[simp] theorem nmRx_mem (s : State) (n : Nat) (m : NmMessage) : (nmRx s n m).mem = s.mem := by
  unfold nmRx
  dsimp only
  split_ifs <;> simp

@[simp] theorem nmSees_mem (s : State) (c : Nat) (f : CanFrame) : (nmSees s c f).mem = s.mem := by
  unfold nmSees
  dsimp only
  split <;> simp

@[simp] theorem recAfter_mem (s : State) (c : Nat) : (recAfter s c).2.mem = s.mem := by
  unfold recAfter
  dsimp only
  split <;> simp

@[simp] theorem canTaken_mem (s : State) (c : Nat) (f : CanFrame) : (canTaken s c f).mem = s.mem := by
  unfold canTaken
  dsimp only
  (repeat' split)
  all_goals simp

@[simp] theorem canAccept_mem (s : State) (c : Nat) (f : CanFrame) : (canAccept s c f).mem = s.mem := by
  unfold canAccept
  dsimp only
  split_ifs <;> simp

@[simp] theorem groupStart_mem (s : State) (b : Nat) : (groupStart s b).mem = s.mem := by
  unfold groupStart
  split <;> simp

@[simp] theorem failChan_mem (s : State) (ch : Nat) : (failChan s ch).mem = s.mem := by
  unfold failChan
  split <;> simp

@[simp] theorem failValve_mem (s : State) (v : Nat) : (failValve s v).mem = s.mem := rfl

@[simp] theorem failString_mem (s : State) (n : Nat) : (failString s n).mem = s.mem := by
  unfold failString
  split
  · dsimp only
    split
    · exact (onString_mem ..).trans (foldl_keeps State.mem _ (fun u k => commandSeg_mem ..) _ _)
    · exact foldl_keeps State.mem _ (fun u k => commandSeg_mem ..) _ _
  · rfl

@[simp] theorem ringSend_mem (s : State) (n : Nat) : (ringSend s n).mem = s.mem := by
  unfold ringSend
  dsimp only
  split_ifs <;> simp

@[simp] theorem enterBreak_mem (s : State) (n : Nat) : (enterBreak s n).mem = s.mem := by
  unfold enterBreak
  dsimp only
  split <;> simp

@[simp] theorem chainTimeout_mem (s : State) (r : Nat) : (chainTimeout s r).mem = s.mem := by
  unfold chainTimeout
  dsimp only
  split <;> simp

@[simp] theorem holdFrame_mem (s : State) (n : Nat) (f : EthFrame) (t : SecTag) : (holdFrame s n f t).mem = s.mem := by
  unfold holdFrame
  dsimp only
  split <;> simp

@[simp] theorem ethReceive_mem (s : State) (n : Nat) (f : EthFrame) : (ethReceive s n f).mem = s.mem := by
  unfold ethReceive
  dsimp only
  (repeat' split)
  all_goals simp

@[simp] theorem softEnd_mem (s : State) (n mA : Nat) : (softEnd s n mA).mem = s.mem := by
  unfold softEnd
  dsimp only
  (repeat' split)
  all_goals simp

@[simp] theorem backfeed_mem (s : State) (ch : Nat) (above belowEnd : Bool) : (backfeed s ch above belowEnd).mem = s.mem := by
  simp only [backfeed, apply_ite State.mem]
  simp

@[simp] theorem countOpen_mem (s : State) (ch method : Nat) (isOpen : Bool) : (countOpen s ch method isOpen).mem = s.mem := by
  unfold countOpen
  dsimp only
  split_ifs <;> simp

@[simp] theorem offStateCheck_mem (s : State) (ch : Nat) (aboveOl aboveBf belowEnd : Bool) : (offStateCheck s ch aboveOl aboveBf belowEnd).mem = s.mem := by
  unfold offStateCheck
  dsimp only
  split_ifs <;> simp

@[simp] theorem tripChan_mem (s : State) (ch cause detail : Nat) : (tripChan s ch cause detail).mem = s.mem := by
  unfold tripChan
  dsimp only
  split <;> simp

@[simp] theorem overload_mem (s : State) (ch : Nat) (trace : List LimitRun) : (overload s ch trace).mem = s.mem := by
  unfold overload
  dsimp only
  split_ifs <;> simp

@[simp] theorem networkCommit_mem (s : State) (n : Nat) : (networkCommit s n).mem = s.mem := by
  unfold networkCommit
  dsimp only
  split_ifs <;> simp

@[simp] theorem wireUpdate_mem (s : State) (ch mA avgMa : Nat) : (wireUpdate s ch mA avgMa).mem = s.mem := by
  unfold wireUpdate
  dsimp only
  split_ifs <;> simp

@[simp] theorem fieldReconfigure_mem (s : State) : (fieldReconfigure s).mem = s.mem := by
  unfold fieldReconfigure
  split <;> rfl

@[simp] theorem openSegment_mem (s : State) (n k : Nat) : (openSegment s n k).mem = s.mem := by
  unfold openSegment
  dsimp only
  split <;> simp

@[simp] theorem shortSegment_mem (s : State) (n k : Nat) : (shortSegment s n k).mem = s.mem := by
  unfold shortSegment
  dsimp only
  split <;> simp

@[simp] theorem thermalRestartLs_mem (s : State) (n : Nat) : (thermalRestartLs s n).mem = s.mem := by
  unfold thermalRestartLs
  dsimp only
  split <;> simp

@[simp] theorem endShortSegment_mem (s : State) (n k : Nat) : (endShortSegment s n k).mem = s.mem := by
  unfold endShortSegment
  dsimp only
  split_ifs <;> simp

@[simp] theorem stringFault_mem (s : State) (n cause detail : Nat) (active : Bool) : (stringFault s n cause detail active).mem = s.mem := by
  simp only [stringFault, apply_ite State.mem]
  simp

@[simp] theorem hardShortLs_mem (s : State) (n mA : Nat) : (hardShortLs s n mA).mem = s.mem := by
  unfold hardShortLs
  split <;> simp

@[simp] theorem hardShortHs_mem (s : State) (ch mA : Nat) : (hardShortHs s ch mA).mem = s.mem := by
  unfold hardShortHs
  split <;> simp

@[simp] theorem holdEntry_mem (s : State) : (holdEntry s).mem = s.mem := by
  unfold holdEntry
  split <;> rfl

@[simp] theorem fiSample_mem (s : State) (n mv : Nat) : (fiSample s n mv).mem = s.mem := by
  unfold fiSample
  dsimp only
  split_ifs <;> simp

@[simp] theorem nmTimeout_mem (s : State) (n : Nat) : (nmTimeout s n).mem = s.mem := by
  unfold nmTimeout
  dsimp only
  split_ifs <;> simp

@[simp] theorem takeReferences_mem (s : State) : (takeReferences s).mem = s.mem := rfl

@[simp] theorem sleepTransceivers_mem (s : State) : (sleepTransceivers s).mem = s.mem := by
  unfold sleepTransceivers
  refine foldl_keeps State.mem _ (fun u x => ?_) _ _
  split <;> simp

@[simp] theorem stretchPhase_mem (s : State) (ch uA : Nat) : (stretchPhase s ch uA).mem = s.mem := by
  unfold stretchPhase
  dsimp only
  split_ifs <;> simp

@[simp] theorem traceMark_mem (s : State) (v : Nat) : (traceMark s v).mem = s.mem := rfl

@[simp] theorem dipDetect_mem (s : State) (v mA : Nat) : (dipDetect s v mA).mem = s.mem := by
  unfold dipDetect
  dsimp only
  split_ifs <;> simp

@[simp] theorem writeBlock_mem (s : State) (c r off v : Nat) : (writeBlock s c r off v).mem = s.mem := by
  simp only [writeBlock, apply_ite State.mem]
  simp

@[simp] theorem shadowBlock_mem (s : State) (r off v : Nat) : (shadowBlock s r off v).mem = s.mem := by
  simp only [shadowBlock, apply_ite State.mem]
  simp

@[simp] theorem writeStatus_mem (s : State) (c off v : Nat) : (writeStatus s c off v).mem = s.mem := by
  unfold writeStatus
  dsimp only
  split_ifs <;> simp

@[simp] theorem busWrite_mem (s : State) (c addr v : Nat) : (busWrite s c addr v).mem = s.mem := by
  have hblock (r off : Nat) : (shadowAccess s (c - 16) r fun s => shadowBlock s r off v).mem = s.mem :=
    shadowAccess_mem _ _ _ _ (shadowBlock_mem ..)
  unfold busWrite
  exact ite_mem rfl (ite_mem (ite_mem (hblock _ _) (shadowFault_mem ..)) (ite_mem (writeBlock_mem ..) (ite_mem (writeStatus_mem ..) rfl)))

/-- The fresh value of a stream is drawn, or the stream waits or stops. -/

@[simp] theorem noteReturned_mem (s : State) (n sentAt : Nat) : (noteReturned s n sentAt).mem = s.mem := by
  unfold noteReturned
  dsimp only
  split
  · exact (postEvent_mem ..).trans (foldl_keeps State.mem _ (fun u x => onSat_mem ..) _ _)
  · rfl

@[simp] theorem noteLost_mem (s : State) (n : Nat) : (noteLost s n).mem = s.mem := rfl

@[simp] theorem linkMatched_mem (s : State) (n : Nat) : (linkMatched s n).mem = s.mem := by simp [linkMatched]

@[simp] theorem noteIdents_mem (s : State) (n : Nat) (ids : List SatIdent) : (noteIdents s n ids).mem = s.mem := by
  unfold noteIdents
  dsimp only
  split_ifs <;> simp

@[simp] theorem noteRecord_mem (n : Nat) (s : State) (a : Nat) (found : Bool) : (noteRecord n s a found).mem = s.mem := by
  unfold noteRecord
  dsimp only
  split_ifs <;> simp

@[simp] theorem keepStatus_mem (n : Nat) (s : State) (r : SatStatus) : (keepStatus n s r).mem = s.mem := by
  unfold keepStatus
  dsimp only
  split <;> simp

@[simp] theorem noteStatus_mem (n seq : Nat) (recs : List SatStatus) (s : State) (x : Sat) : (noteStatus n seq recs s x).mem = s.mem := by
  unfold noteStatus
  split <;> simp

@[simp] theorem noteIdent_mem (n : Nat) (ids : List SatIdent) (s : State) (x : Sat) : (noteIdent n ids s x).mem = s.mem := by simp [noteIdent]

@[simp] theorem endScope_mem (s : State) (b cause : Nat) (chs : List Nat) (whole : Bool) : (endScope s b cause chs whole).mem = s.mem := by
  have hchans (u : State) (l : List Nat) : (l.foldl (fun s ch => joinQueue cause (endHoldOut s cause ch) ch) u).mem = u.mem :=
    foldl_keeps State.mem _ (fun v ch => by simp) _ _
  have hdie (u : State) : ((List.range 2).foldl (fun s f => endHoldFeed s f cause) ((List.range 12).foldl (fun s m => endHoldHb s m cause) u)).mem = u.mem :=
    (foldl_keeps State.mem _ (fun v f => endHoldFeed_mem ..) _ _).trans (foldl_keeps State.mem _ (fun v m => endHoldHb_mem ..) _ _)
  have hwhole (u : State) : (if whole = true then
      (List.range 2).foldl (fun s f => endHoldFeed s f cause) ((List.range 12).foldl (fun s m => endHoldHb s m cause) u) else u).mem = u.mem := by
    split
    · exact hdie u
    · rfl
  unfold endScope
  dsimp only
  split
  · exact (queueStep_mem ..).trans ((hwhole _).trans (hchans _ _))
  · exact (hwhole _).trans (hchans _ _)

@[simp] theorem dropoutRecovery_mem (s : State) (b mv : Nat) : (dropoutRecovery s b mv).mem = s.mem := by
  unfold dropoutRecovery
  split <;> simp

@[simp] theorem thermalRestartHs_mem (s : State) (ch : Nat) : (thermalRestartHs s ch).mem = s.mem := by
  unfold thermalRestartHs
  dsimp only
  split <;> simp

@[simp] theorem spoilTentative_mem (s : State) : (spoilTentative s).mem = s.mem := by
  unfold spoilTentative
  refine foldl_keeps State.mem _ (fun u x => ?_) _ _
  split <;> simp

@[simp] theorem noteHallFault_mem (s : State) (h cause : Nat) : (noteHallFault s h cause).mem = s.mem := by
  unfold noteHallFault
  dsimp only
  split <;> simp

@[simp] theorem finishFlight_mem (s : State) (r : Nat) : (finishFlight s r).mem = s.mem := by
  unfold finishFlight
  split <;> rfl

@[simp] theorem matchTimeout_mem (s : State) (comp : Nat) : (matchTimeout s comp).mem = s.mem := by
  unfold matchTimeout
  dsimp only
  (repeat' split)
  all_goals simp

@[simp] theorem linSlot_mem (s : State) (c : Nat) : (linSlot s c).mem = s.mem := by
  unfold linSlot
  dsimp only
  (repeat' split)
  all_goals simp

@[simp] theorem setTimeState_mem (s : State) (st : Nat) : (setTimeState s st).mem = s.mem := by
  unfold setTimeState
  split <;> simp

@[simp] theorem syncTime_mem (s : State) : (syncTime s).2.mem = s.mem := by
  unfold syncTime
  split <;> rfl

@[simp] theorem sendSync_mem (s : State) (n : Nat) : (sendSync s n).mem = s.mem := by
  unfold sendSync
  split <;> simp

@[simp] theorem syncInterval_mem (s : State) : (syncInterval s).mem = s.mem := by
  have hsent (u : State) (l : List Nat) : (l.foldl sendSync u).mem = u.mem := foldl_keeps State.mem _ (fun v n => sendSync_mem ..) _ _
  unfold syncInterval
  dsimp only
  split_ifs <;> simp [hsent]

@[simp] theorem linkDown_mem (s : State) (n : Nat) : (linkDown s n).mem = s.mem := by
  unfold linkDown
  split <;> simp

@[simp] theorem warnRecovery_mem (s : State) (b mv : Nat) : (warnRecovery s b mv).mem = s.mem := by
  unfold warnRecovery
  split <;> simp

@[simp] theorem syncHoldover_mem (s : State) : (syncHoldover s).mem = s.mem := by
  unfold syncHoldover
  split <;> simp

@[simp] theorem linkUp_mem (s : State) (n : Nat) (partnerLeads : Bool) : (linkUp s n partnerLeads).mem = s.mem := by
  unfold linkUp
  dsimp only
  split <;> simp

@[simp] theorem mismatchEnum_mem (s : State) (n : Nat) : (mismatchEnum s n).mem = s.mem := by
  unfold mismatchEnum
  dsimp only
  split <;> simp

@[simp] theorem signalTimeout_mem (s : State) (d : Nat) : (signalTimeout s d).mem = s.mem := by
  unfold signalTimeout
  dsimp only
  split <;> simp

@[simp] theorem fieldSupply_mem (s : State) (k mv : Nat) : (fieldSupply s k mv).mem = s.mem := by
  unfold fieldSupply
  dsimp only
  split <;> simp

@[simp] theorem senseMotor_mem (s : State) (m : Nat) (trace : List LimitRun) : (senseMotor s m trace).mem = s.mem := rfl

@[simp] theorem brakeOpenLoop_mem (s : State) (m : Nat) : (brakeOpenLoop s m).mem = s.mem := by simp [brakeOpenLoop]

@[simp] theorem linError_mem (s : State) (c id code : Nat) : (linError s c id code).mem = s.mem := by
  unfold linError
  split <;> simp

@[simp] theorem spiLoad_mem (s : State) (addr n : Nat) : (spiLoad s addr n).2.mem = s.mem := by
  induction n generalizing s addr with
  | zero => rfl
  | succ n ih =>
    unfold spiLoad
    dsimp only
    rw [ih]
    split
    · exact latchTick_mem s
    · rfl

@[simp] theorem spiNote_mem (s : State) (ack rx : Nat) (out : List Byte) : (spiNote s ack rx out).mem = s.mem := by
  unfold spiNote
  split <;> rfl

@[simp] theorem spiRead_mem (s : State) (f : SpiFrame) : (spiRead s f).mem = s.mem := by
  unfold spiRead
  dsimp only
  split_ifs <;> simp

@[simp] theorem inrushEnd_mem (s : State) (ch : Nat) (limiting : Bool) (mA : Nat) : (inrushEnd s ch limiting mA).mem = s.mem := by
  unfold inrushEnd
  (repeat' split)
  all_goals simp

@[simp] theorem valveStep_mem (s : State) (v w mA : Nat) : (valveStep s v w mA).mem = s.mem := by
  unfold valveStep
  split <;> simp

@[simp] theorem valveInstruction_mem (s : State) (v mA : Nat) : (valveInstruction s v mA).mem = s.mem := by
  unfold valveInstruction
  dsimp only
  split_ifs <;> simp

@[simp] theorem mapWindows_mem (s : State) (b : Nat) (f : Window → Window) : (mapWindows s b f).mem = s.mem := by
  unfold mapWindows
  split <;> rfl

@[simp] theorem bankDip_mem (s : State) (b mv : Nat) : (bankDip s b mv).mem = s.mem := by
  unfold bankDip
  dsimp only
  split_ifs <;> simp

@[simp] theorem warnKeeper_mem (s : State) : (warnKeeper s).mem = s.mem := by
  simp only [warnKeeper, apply_ite State.mem]
  simp

@[simp] theorem belowVbatlWarn_mem (s : State) (mv : Nat) : (belowVbatlWarn s mv).mem = s.mem := by
  unfold belowVbatlWarn
  split <;> simp

@[simp] theorem tc10WaitEnd_mem (s : State) (n : Nat) (acked : Bool) : (tc10WaitEnd s n acked).mem = s.mem := by
  unfold tc10WaitEnd
  dsimp only
  split <;> simp

@[simp] theorem clampHs_mem (s : State) (ch uJ : Nat) : (clampHs s ch uJ).mem = s.mem := by
  unfold clampHs
  dsimp only
  split_ifs <;> simp

@[simp] theorem clampEnd_mem (s : State) (o : OutputId) (uJ : Nat) : (clampEnd s o uJ).mem = s.mem := by
  unfold clampEnd
  split <;> simp

@[simp] theorem commandReply_mem (s : State) : (commandReply s).mem = s.mem := by
  unfold commandReply
  dsimp only
  (repeat' split)
  all_goals simp

@[simp] theorem saExhausted_mem (s : State) (port : Nat) (rx : Bool) (sci an : Nat) : (saExhausted s port rx sci an).mem = s.mem := by
  unfold saExhausted
  (repeat' split)
  all_goals simp

@[simp] theorem lfFrameEnd_mem (s : State) : (lfFrameEnd s).mem = s.mem := by
  unfold lfFrameEnd
  (repeat' split)
  all_goals simp

@[simp] theorem peerDelay_mem (s : State) (n : Nat) (x : PeerTimes) : (peerDelay s n x).mem = s.mem := by
  unfold peerDelay
  dsimp only
  split <;> simp

@[simp] theorem shadowAdmit_mem (s : State) (x : TrialItem) : (shadowAdmit s x).mem = s.mem := rfl

@[simp] theorem tapInstruction_mem (s : State) (code : Nat) (resetLow : Bool) (dataIn : Nat) : (tapInstruction s code resetLow dataIn).mem = s.mem := by
  unfold tapInstruction
  dsimp only
  split_ifs <;> simp

@[simp] theorem adoptFeeds_mem (s : State) : (adoptFeeds s).mem = s.mem := by
  unfold adoptFeeds
  refine foldl_keeps State.mem _ (fun u x => ?_) _ _
  dsimp only
  split_ifs <;> simp

@[simp] theorem adoptWrite_mem (s : State) (pt : Nat) (v : PVal) : (adoptWrite s pt v).mem = s.mem := by
  unfold adoptWrite
  split <;> simp

@[simp] theorem adopt_mem (s : State) : (adopt s).mem = s.mem := by
  unfold adopt
  split
  · dsimp only
    rw [postEndEvents_mem, noteAdopt_mem, leaveHold_mem, adoptFeeds_mem]
    refine foldl_keeps State.mem _ (fun u e => ?_) _ _
    split
    · rfl
    · exact adoptWrite_mem ..
  · rfl

@[simp] theorem overvoltRecovery_mem (s : State) (b mv : Nat) : (overvoltRecovery s b mv).mem = s.mem := by
  unfold overvoltRecovery
  split <;> simp

@[simp] theorem hallJoin_mem (s : State) (h : Nat) : (hallJoin s h).mem = s.mem := by
  unfold hallJoin
  dsimp only
  split <;> simp

@[simp] theorem fieldStop_mem (s : State) : (fieldStop s).mem = s.mem := by
  unfold fieldStop
  split <;> rfl

@[simp] theorem beaconRx_mem (s : State) (n a : Nat) (recs : List SatStatus) : (beaconRx s n a recs).mem = s.mem := by
  unfold beaconRx
  dsimp only
  refine (foldl_keeps State.mem _ (fun u x => keepStatus_mem ..) _ _).trans ?_
  split
  · exact (postEvent_mem ..).trans (onIvg_mem ..)
  · rfl

@[simp] theorem feedPacket_mem (s : State) (r : CapRecord) : (feedPacket s r).mem = s.mem := rfl

theorem feedAt_mem (s : State) (tick : Nat) (f : State → State) (h : ∀ u, (f u).mem = u.mem) : (feedAt s tick f).mem = s.mem := by
  unfold feedAt
  exact h _

@[simp] theorem feedDigest_mem (s : State) (r : CapRecord) : (feedDigest s r).mem = s.mem := rfl

@[simp] theorem feedFrame_mem (s : State) (r : CapRecord) : (feedFrame s r).mem = s.mem := by
  unfold feedFrame
  split <;> simp

@[simp] theorem feedCommand_mem (s : State) (r : CapRecord) : (feedCommand s r).mem = s.mem := by
  unfold feedCommand
  dsimp only
  split <;> simp

@[simp] theorem pointEvents_mem (s : State) (pt : Nat) (v : PVal) : (pointEvents s pt v).2.mem = s.mem := by
  unfold pointEvents
  dsimp only
  split_ifs <;> simp

@[simp] theorem feedPoint_mem (s : State) (r : CapRecord) : (feedPoint s r).mem = s.mem := by simp [feedPoint]

@[simp] theorem takeRecord_mem (s : State) (r : CapRecord) (n : Nat) : (takeRecord s r n).mem = s.mem := by
  unfold takeRecord
  split <;> rfl

@[simp] theorem linHandle_mem (s : State) (q : LinReq) : (linHandle s q).1.mem = s.mem := rfl

@[simp] theorem linHand_mem (s : State) (q : LinReq) (event : Bool) : (linHand s q event).1.mem = s.mem := by
  unfold linHand
  dsimp only
  split_ifs <;> simp

theorem drawnFresh_mem (s u : State) (k : Nat) (d : Draw) (h : u.mem = s.mem) :
    (match ((u, d) : State × Draw) with
      | (s, .value f) => (s, .ok (some f))
      | (s, .wait) => (s, .ok none)
      | (s, .exhausted) => (s.onStream k fun y => { y with stopped := true }, .error .nonceExhausted) : State × Except Status (Option Nat)).1.mem = s.mem := by
  cases d <;> exact h

@[simp] theorem drawFresh_mem (s : State) (k : Nat) : (drawFresh s k).1.mem = s.mem :=
  ite_fst_mem rfl (ite_fst_mem rfl (ite_fst_mem rfl
    (drawnFresh_mem s (drawCounter s (streamCfg s k).keySlot).1 k (drawCounter s (streamCfg s k).keySlot).2 (drawCounter_mem ..))))

@[simp] theorem handOver_mem (s : State) (q : SendReq) (p : Option Packet) (late sof : Bool) : (handOver s q p late sof).1.mem = s.mem := by
  have hfresh := drawFresh_mem s q.stream
  unfold handOver
  split
  · rfl
  · dsimp only
    split
    · split
      · next h => rw [h] at hfresh; exact hfresh
      · next h => rw [h] at hfresh; exact hfresh
      · next h => rw [h] at hfresh; exact (handCan_mem ..).trans hfresh
    · exact handCan_mem ..

@[simp] theorem countSkippedFrame_mem (s : State) : (countSkippedFrame s).mem = s.mem := rfl

@[simp] theorem reflexNow_mem (s : State) (t : Nat) (sof : Bool) : (reflexNow s t sof).1.mem = s.mem := by
  have hlin := linHand_mem s (linTemplateReq s (tplOf s t)) false
  have hover := handOver_mem s (templateReq s (tplOf s t)) none false sof
  unfold reflexNow
  dsimp only
  split
  · exact countSkippedFrame_mem s
  · split
    · split
      · next h =>
        rw [h] at hlin
        exact (countSkippedFrame_mem _).trans hlin
      · next h => rw [h] at hlin; exact hlin
    · split
      · exact countSkippedFrame_mem s
      · split
        · next h => rw [h] at hover; exact hover
        · next h =>
          rw [h] at hover
          exact (countSkippedFrame_mem _).trans hover
        · next h => rw [h] at hover; exact hover

@[simp] theorem sleepSlot_mem (s : State) (n : Nat) : (sleepSlot s n).mem = s.mem := by
  unfold sleepSlot
  (repeat' split)
  all_goals rfl

@[simp] theorem frameSlot_mem (s : State) (n : Nat) : (frameSlot s n).mem = s.mem := by
  unfold frameSlot
  dsimp only
  (repeat' split)
  all_goals simp

@[simp] theorem ivgalSlot_mem (s : State) (n : Nat) : (ivgalSlot s n).mem = s.mem := by
  unfold ivgalSlot
  split <;> simp

@[simp] theorem pinchDetect_mem (s : State) (m mA : Nat) : (pinchDetect s m mA).mem = s.mem := by
  unfold pinchDetect
  split <;> simp

@[simp] theorem waitEnd_mem (s : State) (v mA : Nat) : (waitEnd s v mA).mem = s.mem := by
  unfold waitEnd
  dsimp only
  split_ifs <;> simp

@[simp] theorem dispatcherOverflow_mem (s : State) : (dispatcherOverflow s).mem = s.mem := by
  unfold dispatcherOverflow
  split <;> rfl

@[simp] theorem fireMaxExpiry_mem (s : State) (v : Nat) : (fireMaxExpiry s v).mem = s.mem := by
  unfold fireMaxExpiry
  dsimp only
  split <;> simp

@[simp] theorem aiConversion_mem (s : State) (n mv : Nat) : (aiConversion s n mv).mem = s.mem := by
  unfold aiConversion
  dsimp only
  split_ifs <;> simp

@[simp] theorem transferTimeout_mem (s : State) : (transferTimeout s).mem = s.mem := by
  unfold transferTimeout
  (repeat' split)
  all_goals simp

@[simp] theorem busoffRecovery_mem (s : State) (c : Nat) : (busoffRecovery s c).mem = s.mem := by
  unfold busoffRecovery
  split <;> simp

@[simp] theorem fieldPark_mem (s : State) : (fieldPark s).mem = s.mem := by
  unfold fieldPark
  split <;> rfl

@[simp] theorem windowMiss_mem (s : State) (w : Nat) : (windowMiss s w).mem = s.mem := by
  unfold windowMiss
  split <;> simp

@[simp] theorem backfeedCheck_mem (s : State) (ch : Nat) (aboveBf belowEnd : Bool) : (backfeedCheck s ch aboveBf belowEnd).mem = s.mem := by
  unfold backfeedCheck
  split <;> simp

@[simp] theorem converterStop_mem (s : State) (n : Nat) : (converterStop s n).mem = s.mem := by
  unfold converterStop
  (repeat' split)
  all_goals rfl

@[simp] theorem fieldLost_mem (s : State) : (fieldLost s).mem = s.mem := by
  unfold fieldLost
  dsimp only
  split_ifs <;> simp

@[simp] theorem handReleaseFrame_mem (s : State) : (handReleaseFrame s).mem = s.mem := by
  unfold handReleaseFrame
  dsimp only
  (repeat' split)
  all_goals simp

@[simp] theorem fieldFrame_mem (s : State) (crcOk : Bool) : (fieldFrame s crcOk).mem = s.mem := by
  unfold fieldFrame
  dsimp only
  (repeat' split)
  all_goals simp

@[simp] theorem binExpiry_mem (s : State) : (binExpiry s).mem = s.mem := rfl

@[simp] theorem trialRunEnd_mem (s : State) (cause : Nat) : (trialRunEnd s cause).mem = s.mem := by
  unfold trialRunEnd
  dsimp only
  split <;> simp

@[simp] theorem onStateCheck_mem (s : State) (ch uA : Nat) : (onStateCheck s ch uA).mem = s.mem := by
  unfold onStateCheck
  dsimp only
  split <;> simp

@[simp] theorem noteDelay_mem (s : State) (c : Nat) (f : CanFrame) (tdcv : Nat) : (noteDelay s c f tdcv).mem = s.mem := by
  unfold noteDelay
  split <;> rfl

@[simp] theorem touchPolls_mem (s : State) : (touchPolls s).mem = s.mem := by
  unfold touchPolls
  exact foldl_keeps State.mem _ (fun _ _ => by simp) _ _

@[simp] theorem logWakes_mem (s : State) : (logWakes s).mem = s.mem := by
  unfold logWakes
  exact foldl_keeps State.mem _ (fun _ _ => by simp) _ _

@[simp] theorem keepPoll_mem (s : State) : (keepPoll s).mem = s.mem := by
  unfold keepPoll
  split
  · rfl
  · exact foldl_keeps State.mem _ (fun u v => capItem_mem ..) _ _

@[simp] theorem markHandled_mem (s : State) (l : Latch) (target : Nat) (netsDue : Bool) : (markHandled s l target netsDue).mem = s.mem := rfl

@[simp] theorem handleAwake_mem (s : State) (l : Latch) : (handleAwake s l).mem = s.mem := by
  unfold handleAwake
  dsimp only
  split <;> simp

@[simp] theorem handleAsleep_mem (s : State) (l : Latch) : (handleAsleep s l).mem = s.mem := by
  unfold handleAsleep
  dsimp only
  split_ifs <;> simp

@[simp] theorem wakeHandling_mem (s : State) : (wakeHandling s).mem = s.mem := by
  unfold wakeHandling
  (repeat' split)
  all_goals simp

@[simp] theorem hallBlocks_mem (s : State) (halls : List Nat) : (hallBlocks s halls).2.mem = s.mem :=
  foldl_same (fun a : List Byte × State => a.2.mem) (fun a h => (a.1 ++ (hallBlock a.2 h).1, (hallBlock a.2 h).2)) (fun a h => hallBlock_mem a.2 h) halls ([], s)

@[simp] theorem shedRecovery_mem (s : State) (b level mv : Nat) : (shedRecovery s b level mv).mem = s.mem := by
  unfold shedRecovery
  dsimp only
  split_ifs <;> simp

@[simp] theorem pinchReversal_mem (s : State) (m : Nat) : (pinchReversal s m).mem = s.mem := by
  unfold pinchReversal
  dsimp only
  split <;> simp

@[simp] theorem stringSupply_mem (s : State) (n cause : Nat) (active : Bool) : (stringSupply s n cause active).mem = s.mem := by
  simp only [stringSupply, apply_ite State.mem]
  simp

@[simp] theorem reverseCurrent_mem (s : State) (ch : Nat) : (reverseCurrent s ch).mem = s.mem := by
  unfold reverseCurrent
  split <;> simp

@[simp] theorem pd5IdleOff_mem (s : State) : (pd5IdleOff s).mem = s.mem := by
  unfold pd5IdleOff
  split <;> simp

@[simp] theorem applyGrant_mem (s : State) (q : Poll) (i : Nat) : (applyGrant s q i).mem = s.mem := by
  unfold applyGrant
  (repeat' split)
  all_goals simp

@[simp] theorem noteVerdict_mem (s : State) (i code n : Nat) : (noteVerdict s i code n).mem = s.mem := by
  unfold noteVerdict
  dsimp only
  split_ifs <;> simp

@[simp] theorem voltageRewrite_mem (s : State) (which mv : Nat) : (voltageRewrite s which mv).mem = s.mem := by
  unfold voltageRewrite
  dsimp only
  split_ifs <;> simp

end Sys2Proof.Machine

namespace Sys2Proof.Machine

open Sys2Proof.Claims

/-! What keeps memory canonical (log entry 7). -/

/-- A memory in its canonical form. -/
def Canon (m : List (Nat × Byte)) : Prop := Tbl.wf 0 m = true

/-- Steps that keep memory canonical keep it so in a row. -/
theorem foldl_canon {α : Type} {f : State → α → State} (h : ∀ u a, Canon u.mem → Canon (f u a).mem) (l : List α) {s : State}
    (hs : Canon s.mem) : Canon (l.foldl f s).mem :=
  List.foldlRecOn (motive := fun u : State => Canon u.mem) l f hs fun u hu a _ => h u a hu

@[simp] theorem memWriteN_canon (s : State) (a : Nat) (l : List Byte) (h : Canon s.mem) : Canon (memWriteN s a l).mem := memWriteN_wf l s a h

@[simp] theorem giveReply_canon (s : State) (b : TrialItem) (w : List (Nat × List Byte)) (h : Canon s.mem) : Canon (giveReply s b w).mem :=
  giveReply_wf s b w h

@[simp] theorem mirrorReply_canon (s : State) (r slot : Nat) (w : List (Nat × List Byte)) (h : Canon s.mem) :
    Canon (mirrorReply s r slot w).mem := mirrorReply_wf s r slot w h

@[simp] theorem packetOut_canon (p : Packet) (s : State) (a : Nat) (l : List Byte) (h : Canon s.mem) : Canon (packetOut p s a l).mem :=
  packetOut_wf p s a l h

theorem ite_canon {c : Prop} [Decidable c] {u v : State} (hu : Canon u.mem) (hv : Canon v.mem) : Canon (if c then u else v).mem := by
  split
  · exact hu
  · exact hv

theorem ite_fst_canon {α : Type} {c : Prop} [Decidable c] {u v : State × α} (hu : Canon u.1.mem) (hv : Canon v.1.mem) :
    Canon (if c then u else v).1.mem := by
  split
  · exact hu
  · exact hv

theorem canon_of_mem {s t : State} (h : t.mem = s.mem) (hs : Canon s.mem) : Canon t.mem := h ▸ hs

@[simp] theorem writeReply_canon (s : State) (p : Packet) (st : Status) (reply : Reply) (done : Stamp) (h : Canon s.mem) :
    Canon (writeReply s p st reply done).mem := by
  have hmirror (w : List (Nat × List Byte)) : Canon (if isApp p.comp = true then mirrorReply s p.ring p.slot w else s).mem :=
    ite_canon (mirrorReply_canon (h := h) ..) h
  unfold writeReply
  dsimp only
  split
  · exact memWriteN_canon (h := memWriteN_canon (h := hmirror _) ..) ..
  · exact hmirror _

@[simp] theorem completeAt_canon (s : State) (p : Packet) (st : Status) (reply : Reply) (done : Stamp) (h : Canon s.mem) : Canon (completeAt s p st reply done).mem := by
  unfold completeAt
  dsimp only
  split_ifs <;> simp [h]

@[simp] theorem completeNow_canon (s : State) (p : Packet) (st : Status) (reply : Reply) (h : Canon s.mem) : Canon (completeNow s p st reply).mem := by
  simp [completeNow, h]

@[simp] theorem fastHold_canon (p : Packet) (s : State) (h : Canon s.mem) : Canon (fastHold p s).mem := by
  unfold fastHold
  (repeat' split)
  all_goals simp [h]

@[simp] theorem moveFast_canon (p : Packet) (s : State) (h : Canon s.mem) : Canon (moveFast p s).mem := by
  unfold moveFast
  split <;> simp [h]

@[simp] theorem refuseLive_canon (s : State) (p : Packet) (h : Canon s.mem) : Canon (refuseLive s p).mem := by
  simp [refuseLive, h]

@[simp] theorem memOut_canon (s : State) (a : Nat) (l : List Byte) (h : Canon s.mem) : Canon (memOut s a l).mem := by
  unfold memOut
  dsimp only
  split <;> simp [h]

@[simp] theorem writeTag_canon (s : State) (d tag : List Byte) (h : Canon s.mem) : Canon (writeTag s d tag).mem := by
  simp [writeTag, h]

@[simp] theorem writeBlocks_canon (s : State) (addr : Nat) (l : List Byte) (h : Canon s.mem) : Canon (writeBlocks s addr l).mem := by
  simp [writeBlocks, h]

@[simp] theorem writeData_canon (s : State) (k n : Nat) (h : Canon s.mem) : Canon (writeData s k n).mem := by
  unfold writeData
  dsimp only
  (repeat' split)
  all_goals simp [h]

@[simp] theorem cryptoDone_canon (s : State) (r slot : Nat) (d : List Byte) (st : Nat) (trust : Bool) (iv : List Byte) (gen : Nat) (h : Canon s.mem) : Canon (cryptoDone s r slot d st trust iv gen).mem := by
  unfold cryptoDone
  dsimp only
  split <;> simp [h]

@[simp] theorem engineRun_canon (s : State) (k total : Nat) (h : Canon s.mem) : Canon (engineRun s k total).mem := by
  unfold engineRun
  dsimp only
  rw [onCipher_mem]
  generalize EngineRun.rounds _ _ _ _ = e
  refine foldl_canon (fun u c hu => ?_) _ (foldl_canon (fun u c hu => ?_) _ ?_)
  · split
    · exact ite_canon hu (writeData_canon (h := hu) ..)
    · exact hu
  · rw [bump_mem, bump_mem]
    exact hu
  · exact h

@[simp] theorem finishSegment_canon (s : State) (r : Nat) (x : CipherCtx) (g : CryptoSeg) (st : Status) (trust : Bool) (aad cipher : List Byte) (h : Canon s.mem) : Canon (finishSegment s r x g st trust aad cipher).mem := by
  unfold finishSegment
  dsimp only
  split <;> simp [h]

@[simp] theorem encryptSegment_canon (s : State) (r : Nat) (h : Canon s.mem) : Canon (encryptSegment s r).mem := by
  unfold encryptSegment
  split
  · exact h
  · have hdata := fun k n => writeData_canon s k n h
    exact finishSegment_canon (h := ite_canon (hdata _ _) (writeTag_canon (h := hdata _ _) ..)) ..

@[simp] theorem writePending_canon (s : State) (p : Packet) (h : Canon s.mem) : Canon (writePending s p).mem := by
  unfold writePending
  (repeat' split)
  all_goals simp [h]

@[simp] theorem endUnadmitted_canon (st : Status) (r n : Nat) (s : State) (h : Canon s.mem) : Canon (endUnadmitted st r n s).mem := by
  induction n generalizing s with
  | zero => exact h
  | succ n ih => exact ite_canon (ih _ (completeAt_canon (h := canon_of_mem (takeIn_mem ..) h) ..)) h

@[simp] theorem loseRings_canon (x : CharterSet) (s : State) (h : Canon s.mem) : Canon (loseRings x s).mem := by
  unfold loseRings
  refine foldl_canon (fun u a hu => ?_) _ (foldl_canon (fun u a hu => ?_) _ h)
  · simp [hu]
  · exact endUnadmitted_canon (h := hu) ..

@[simp] theorem installSet_canon (s : State) (x : CharterSet) (h : Canon s.mem) : Canon (installSet s x).mem := by
  unfold installSet
  dsimp only
  split_ifs <;> simp [h]

@[simp] theorem completeRun_canon (s : State) (m cause : Nat) (h : Canon s.mem) : Canon (completeRun s m cause).mem := by
  unfold completeRun
  dsimp only
  (repeat' split)
  all_goals simp [h]

@[simp] theorem stopRun_canon (s : State) (m cause : Nat) (h : Canon s.mem) : Canon (stopRun s m cause).mem := by
  unfold stopRun
  dsimp only
  split <;> simp [h]

@[simp] theorem cutRun_canon (s : State) (m cause : Nat) (h : Canon s.mem) : Canon (cutRun s m cause).mem := by
  have hcounted := canon_of_mem (countDrive_mem s m) h
  exact completeRun_canon (h := ite_canon hcounted (canon_of_mem (zeroMotorPoint_mem ..) hcounted)) ..

@[simp] theorem startRun_canon (p : Packet) (s : State) (h : Canon s.mem) : Canon (startRun p s).s.mem := by
  unfold startRun
  dsimp only
  split <;> simp [h]

@[simp] theorem cancelDecided_canon (s : State) (p : Packet) (removed : Bool) (h : Canon s.mem) : Canon (cancelDecided s p removed).mem := by
  unfold cancelDecided
  split
  · exact h
  · exact ite_canon (completeNow_canon (h := h) ..) h

@[simp] theorem frameLeaves_canon (s : State) (c : Nat) (f : TxFrame) (st : Status) (sent : Bool) (h : Canon s.mem) :
    Canon (frameLeaves s c f st sent).mem := by
  unfold frameLeaves
  dsimp only
  refine foldl_canon (fun u q hu => cancelDecided_canon (h := hu) ..) _ ?_
  split
  · exact completeNow_canon (h := h) ..
  · exact h

@[simp] theorem applyMode_canon (s : State) (c : Nat) (m : CanMode) (restart : Bool) (h : Canon s.mem) : Canon (applyMode s c m restart).mem := by
  unfold applyMode
  dsimp only
  (repeat' split)
  all_goals simp +contextual [h, foldl_canon]

@[simp] theorem linReset_canon (s : State) (c : Nat) (g : LinCfg) (h : Canon s.mem) : Canon (linReset s c g).mem := by
  unfold linReset
  refine foldl_canon (fun u a hu => ?_) _ h
  simp [hu]

@[simp] theorem ringWrite_canon (s : State) (r : Nat) (bytes : List Byte) (h : Canon s.mem) : Canon (ringWrite s r bytes).mem := by
  simp +contextual [ringWrite, h, foldl_canon]

@[simp] theorem streamTo63_canon (s : State) (l : List Byte) (h : Canon s.mem) : Canon (streamTo63 s l).mem := by
  simp [streamTo63, h]

@[simp] theorem capCommit_canon (s : State) (r : CapRecord) (h : Canon s.mem) : Canon (capCommit s r).1.mem := by
  unfold capCommit
  dsimp only
  split_ifs <;> simp [h]

@[simp] theorem capGap_canon (s : State) (h : Canon s.mem) : Canon (capGap s).1.mem := by
  unfold capGap
  dsimp only
  split_ifs <;> simp [h]

@[simp] theorem capTake_canon (s : State) (r : CapRecord) (h : Canon s.mem) : Canon (capTake s r).1.mem := by
  unfold capTake
  dsimp only
  split_ifs <;> simp [h]

@[simp] theorem flush63_canon (s : State) (h : Canon s.mem) : Canon (flush63 s).mem := by
  unfold flush63
  dsimp only
  split <;> simp [h]

@[simp] theorem capEnd_canon (s : State) (r : CapRecord) (h : Canon s.mem) : Canon (capEnd s r).mem := by
  simp [capEnd, h]

@[simp] theorem capPut_canon (s : State) (r : CapRecord) (h : Canon s.mem) : Canon (capPut s r).mem := by
  unfold capPut
  dsimp only
  split_ifs <;> simp [h]

@[simp] theorem startCapture_canon (s : State) (a : CapArm) (fromZero : Bool) (h : Canon s.mem) : Canon (startCapture s a fromZero).mem :=
  capPut_canon (h := h) ..

@[simp] theorem refuseReplay_canon (s : State) (st : Status) (h : Canon s.mem) : Canon (refuseReplay s st).mem := by
  unfold refuseReplay
  dsimp only
  split <;> simp [h]

@[simp] theorem cancelHeld_canon (s : State) (gone : Packet → Bool) (h : Canon s.mem) : Canon (cancelHeld s gone).mem := by
  unfold cancelHeld
  refine foldl_canon (fun u a hu => ?_) _ h
  simp [hu]

@[simp] theorem beginArmed_canon (s : State) (h : Canon s.mem) : Canon (beginArmed s).mem := by
  unfold beginArmed
  dsimp only
  split_ifs <;> simp [h]

@[simp] theorem enterBeam_canon (s : State) (h : Canon s.mem) : Canon (enterBeam s).mem := by
  unfold enterBeam
  dsimp only
  split_ifs <;> simp [h]

@[simp] theorem tagDone_canon (s : State) (c : Nat) (f : TxFrame) (h : Canon s.mem) : Canon (tagDone s c f).mem := by
  unfold tagDone
  split <;> simp [h]

@[simp] theorem tagsTick_canon (s : State) (h : Canon s.mem) : Canon (tagsTick s).mem :=
  foldl_canon (fun _ _ hu => foldl_canon (fun _ _ hv => tagDone_canon (h := hv) ..) _ hu) _ h

@[simp] theorem macsecCheck_canon (s : State) (n : Nat) (f : EthFrame) (t : SecTag) (h : Canon s.mem) : Canon (macsecCheck s n f t).1.mem := by
  have hrun := engineRun_canon s (macsecCtx n true) (macsecBlocks t.data.length) h
  unfold macsecCheck
  dsimp only
  generalize engineRun s (macsecCtx n true) (macsecBlocks t.data.length) = u at hrun
  have hdrop (c : EthCounters → EthCounters) : Canon (portDrop u n c).mem := canon_of_mem (portDrop_mem ..) hrun
  split
  · exact ite_fst_canon (hdrop _) (ite_fst_canon hrun (hdrop _))
  · exact ite_fst_canon (hdrop _) (ite_fst_canon (ite_fst_canon hrun (hdrop _)) (ite_fst_canon (ite_fst_canon hrun (hdrop _))
      (ite_fst_canon (canon_of_mem (portDrop_mem ..) (canon_of_mem (stopSa_mem ..) hrun)) (canon_of_mem (putSa_mem ..) hrun))))

@[simp] theorem heldFrame_canon (s : State) (x : HoldItem) (h : Canon s.mem) : Canon (heldFrame s x).mem := by
  unfold heldFrame
  split
  · exact h
  · next t _ =>
    have hcheck := macsecCheck_canon s x.port x.frame t h
    split
    · next hout =>
      rw [hout] at hcheck
      exact canon_of_mem (switchIn_mem ..) hcheck
    · next hout =>
      rw [hout] at hcheck
      exact hcheck

@[simp] theorem serveHold_canon (ctx fuel n : Nat) (s : State) (h : Canon s.mem) : Canon (serveHold ctx fuel n s).mem := by
  induction fuel generalizing n s with
  | zero => exact h
  | succ fuel ih =>
    unfold serveHold
    split
    · exact h
    · exact ite_canon (ih _ _ (heldFrame_canon (h := h) ..)) h

@[simp] theorem holdTick_canon (s : State) (h : Canon s.mem) : Canon (holdTick s).mem := by
  unfold holdTick
  split <;> simp [h]

@[simp] theorem faultUnadmitted_canon (s : State) (f : Nat → Bool) (h : Canon s.mem) : Canon (faultUnadmitted s f).mem := by
  simp +contextual [faultUnadmitted, h, foldl_canon]

@[simp] theorem pairReset_canon (s : State) (pair cause index : Nat) (h : Canon s.mem) : Canon (pairReset s pair cause index).mem := by
  simp [pairReset, h]

@[simp] theorem failCtx_canon (s : State) (k : Nat) (st : Status) (h : Canon s.mem) : Canon (failCtx s k st).mem := by
  unfold failCtx
  dsimp only
  (repeat' split)
  all_goals simp [h]

@[simp] theorem faultContexts_canon (s : State) (h : Canon s.mem) : Canon (faultContexts s).mem := by
  simp +contextual [faultContexts, h, foldl_canon]

@[simp] theorem dropFrames_canon (s : State) (c : Nat) (st : Status) (h : Canon s.mem) : Canon (dropFrames s c st).mem := by
  simp +contextual [dropFrames, h, foldl_canon]

@[simp] theorem resetController_canon (s : State) (c : Nat) (h : Canon s.mem) : Canon (resetController s c).mem := by
  simp [resetController, h]

@[simp] theorem resetLin_canon (s : State) (c : Nat) (h : Canon s.mem) : Canon (resetLin s c).mem := by
  unfold resetLin
  refine foldl_canon (fun u a hu => ?_) _ h
  simp [hu]

@[simp] theorem resetBus_canon (s : State) (h : Canon s.mem) : Canon (resetBus s).mem := by
  unfold resetBus
  dsimp only
  refine foldl_canon (fun u c hu => completeNow_canon (h := hu) ..) _ ?_
  rw [onBus_mem]
  refine foldl_canon (fun u c hu => resetLin_canon (h := hu) ..) _ ?_
  exact foldl_canon (fun u c hu => resetController_canon (h := hu) ..) _ h

@[simp] theorem hallResponse_canon (s : State) (n : Nat) (h : Canon s.mem) : Canon (hallResponse s n).mem :=
  ite_canon (faultUnadmitted_canon (h := h) ..) (ite_canon (faultContexts_canon (h := h) ..)
    (ite_canon (canon_of_mem (resetPacket_mem ..) h) (ite_canon (resetBus_canon (h := h) ..) h)))

@[simp] theorem hallReset_canon (s : State) (n : Nat) (h : Canon s.mem) : Canon (hallReset s n).mem :=
  canon_of_mem (resetEvent_mem ..) (canon_of_mem (clearWatchHall_mem ..) (hallResponse_canon (h := h) ..))

@[simp] theorem clearLogic_canon (s : State) : Canon (clearLogic s).mem := rfl

@[simp] theorem assertLogic_canon (s : State) (c : ResetCause) (supply : Bool) (h : Canon s.mem) : Canon (assertLogic s c supply).mem := by
  unfold assertLogic
  split <;> simp [h]

@[simp] theorem runReset_canon (s : State) (d : ResetDue) (h : Canon s.mem) : Canon (runReset s d).mem := by
  have hshort : Canon (if d.scope = 1 then pairReset s d.cause.index 12 d.cause.index else hallReset s d.cause.index).mem :=
    ite_canon (pairReset_canon (h := h) ..) (hallReset_canon (h := h) ..)
  unfold runReset
  refine ite_canon h (ite_canon (assertLogic_canon (h := canon_of_mem (sealSegment_mem ..) h) ..) ?_)
  dsimp only
  split
  · exact completeNow_canon (h := hshort) ..
  · exact hshort

@[simp] theorem runResets_canon (s : State) (h : Canon s.mem) : Canon (runResets s).mem := by
  unfold runResets
  refine foldl_canon (fun u a hu => ?_) _ h
  simp [hu]

@[simp] theorem planeEnd_canon (s : State) (h : Canon s.mem) : Canon (planeEnd s).mem := by
  unfold planeEnd
  dsimp only
  (repeat' split)
  all_goals simp +contextual [h, foldl_canon]

@[simp] theorem tickStep_canon (s : State) (h : Canon s.mem) : Canon (tickStep s).mem := by
  have hended : Canon (if s.plane.running = true then planeEnd s else s).mem := ite_canon (planeEnd_canon (h := h) ..) h
  unfold tickStep
  dsimp only
  rw [diesTick_mem]
  exact ite_canon (canon_of_mem (planeNext_mem _) (holdTick_canon (h := tagsTick_canon (h := hended) ..) ..)) hended

@[simp] theorem lastTick_canon (s : State) (h : Canon s.mem) : Canon (lastTick s).mem := by
  simp [lastTick, h]

@[simp] theorem reenterBeam_canon (s : State) (h : Canon s.mem) : Canon (reenterBeam s).mem := by
  simp [reenterBeam, h]

@[simp] theorem beginReplay_canon (s : State) (r : CapRecord) (h : Canon s.mem) : Canon (beginReplay s r).mem := by
  unfold beginReplay
  dsimp only
  split_ifs <;> simp [h]

@[simp] theorem exportSegments_canon (s : State) (p : Packet) (gs : List Segment) (h : Canon s.mem) : Canon (exportSegments s p gs).s.mem := by
  unfold exportSegments
  dsimp only
  split
  · exact packetOut_canon (h := h) ..
  · have hdrawn := canon_of_mem (drawCommitted_mem s (p.num 32 1)) h
    split
    · exact h
    · split
      · next hdraw =>
        rw [hdraw] at hdrawn
        exact canon_of_mem (keyedOut_mem ..) (packetOut_canon (h := engineRun_canon (h := hdrawn) ..) ..)
      · next hdraw =>
        rw [hdraw] at hdrawn
        exact hdrawn

@[simp] theorem valveDone_canon (s : State) (v : Nat) (st : Status) (clampDuJ : Nat) (h : Canon s.mem) : Canon (valveDone s v st clampDuJ).mem := by
  unfold valveDone
  dsimp only
  (repeat' split)
  all_goals simp [h]

@[simp] theorem requestFire_canon (s : State) (v entry : Nat) (h : Canon s.mem) : Canon (requestFire s v entry).mem := by
  unfold requestFire
  refine ite_canon h ?_
  dsimp only
  split
  · exact valveDone_canon (h := ite_canon (canon_of_mem (valveFaultEvent_mem ..) h) h) ..
  · exact h

@[simp] theorem releaseFire_canon (s : State) (v : Nat) (h : Canon s.mem) : Canon (releaseFire s v).mem :=
  ite_canon (valveDone_canon (h := h) ..) h

@[simp] theorem commandValve_canon (s : State) (v : Nat) (w : PVal) (h : Canon s.mem) : Canon (commandValve s v w).mem :=
  ite_canon (requestFire_canon (h := h) ..) (ite_canon (releaseFire_canon (h := h) ..) (ite_canon (valveDone_canon (h := h) ..) h))

@[simp] theorem commandRun_canon (s : State) (m : Nat) (v : PVal) (lin : Nat) (h : Canon s.mem) : Canon (commandRun s m v lin).mem := by
  unfold commandRun
  (repeat' split)
  all_goals simp [h]

@[simp] theorem commandHb_canon (s : State) (m : Nat) (v : PVal) (lin : Nat) (h : Canon s.mem) : Canon (commandHb s m v lin).mem := by
  unfold commandHb
  dsimp only
  split_ifs <;> simp [h]

@[simp] theorem powerCommand_canon (lin : Nat) (s : State) (c : Nat × PVal) (h : Canon s.mem) : Canon (powerCommand lin s c).mem := by
  unfold powerCommand
  dsimp only
  split_ifs <;> simp [h]

@[simp] theorem applyFrame_canon (s : State) (f : L2Frame) (h : Canon s.mem) : Canon (applyFrame s f).mem :=
  foldl_canon (fun _ _ hu => foldl_canon (fun _ _ hv => powerCommand_canon (h := hv) ..) _ hu) _ h

@[simp] theorem frameRx_canon (s : State) (f : L2Frame) (h : Canon s.mem) : Canon (frameRx s f).mem := by
  unfold frameRx
  dsimp only
  split_ifs <;> simp [h]

@[simp] theorem brakeEnd_canon (s : State) (m : Nat) (h : Canon s.mem) : Canon (brakeEnd s m).mem := by
  unfold brakeEnd
  dsimp only
  (repeat' split)
  all_goals simp [h]

@[simp] theorem streamMismatch_canon (s : State) (k : Nat) (h : Canon s.mem) : Canon (streamMismatch s k).mem := by
  unfold streamMismatch
  (repeat' split)
  all_goals simp [h]

@[simp] theorem completePoll_canon (s : State) (q : Poll) (st : Status) (reply : Reply) (h : Canon s.mem) : Canon (completePoll s q st reply).mem := by
  unfold completePoll
  split <;> simp [h]

@[simp] theorem abandonPoll_canon (s : State) (st : Status) (h : Canon s.mem) : Canon (abandonPoll s st).mem := by
  unfold abandonPoll
  split <;> simp [h]

@[simp] theorem keeperMismatch_canon (s : State) (ctx : Nat) (h : Canon s.mem) : Canon (keeperMismatch s ctx).mem := by
  unfold keeperMismatch
  refine ite_canon (abandonPoll_canon (h := h) ..) ?_
  dsimp only
  split
  · exact completeNow_canon (h := h) ..
  · exact h

@[simp] theorem endMismatched_canon (s : State) (ctx : Nat) (h : Canon s.mem) : Canon (endMismatched s ctx).mem := by
  unfold endMismatched
  (repeat' split)
  all_goals simp [h]

@[simp] theorem cipherMismatch_canon (s : State) (ctx : Nat) (h : Canon s.mem) : Canon (cipherMismatch s ctx).mem := by
  have hended (f : Cipher → Cipher) : Canon (endMismatched (s.onCipher f) ctx).mem := endMismatched_canon (h := h) ..
  unfold cipherMismatch
  refine ite_canon h (ite_canon ?_ (canon_of_mem (postEvent_mem ..) (hended _)))
  exact hallReset_canon (h := canon_of_mem (postEvent_mem ..) (hended _)) ..

@[simp] theorem terminalOff_canon (s : State) (k runCause : Nat) (h : Canon s.mem) : Canon (terminalOff s k runCause).mem := by
  simp +contextual [terminalOff, h, foldl_canon]

@[simp] theorem holdHb_canon (s : State) (m cause detail : Nat) (h : Canon s.mem) : Canon (holdHb s m cause detail).mem := by
  simp [holdHb, h]

@[simp] theorem stopFeed_canon (s : State) (f : Nat) (st : Status) (h : Canon s.mem) : Canon (stopFeed s f st).mem := by
  unfold stopFeed
  dsimp only
  rw [setFeed_mem]
  refine foldl_canon (fun u v hu => ?_) _ h
  refine ite_canon ?_ (ite_canon ?_ hu)
  · rw [endFire_mem]
    exact hu
  · exact valveDone_canon (h := canon_of_mem (onFeed_mem ..) hu) ..

@[simp] theorem holdFeed_canon (s : State) (f cause detail : Nat) (h : Canon s.mem) : Canon (holdFeed s f cause detail).mem := by
  simp [holdFeed, h]

@[simp] theorem holdScope_canon (s : State) (cause : Nat) (chs : List Nat) (whole : Bool) (h : Canon s.mem) :
    Canon (holdScope s cause chs whole).mem := by
  have hchans : Canon (chs.foldl (fun s ch => holdOut s cause ch) s).mem := foldl_canon (fun _ _ hu => canon_of_mem (holdOut_mem ..) hu) _ h
  unfold holdScope
  refine ite_canon ?_ hchans
  refine foldl_canon (fun _ _ hu => holdFeed_canon (h := hu) ..) _ ?_
  exact foldl_canon (fun _ _ hu => holdHb_canon (h := hu) ..) _ hchans

@[simp] theorem shedExpiry_canon (s : State) (b level mv : Nat) (h : Canon s.mem) : Canon (shedExpiry s b level mv).mem :=
  ite_canon (ite_canon (canon_of_mem (bankEvent_mem ..) h) (holdScope_canon (h := h) ..)) h

@[simp] theorem deferExpiry_canon (s : State) (v : Nat) (h : Canon s.mem) : Canon (deferExpiry s v).mem :=
  ite_canon (valveDone_canon (h := h) ..) h

@[simp] theorem buildFrame_canon (s : State) (h : Canon s.mem) : Canon (buildFrame s).mem := by
  have hdrawn := canon_of_mem (drawCommitted_mem s s.store.access.release.keySlot) h
  unfold buildFrame
  refine ite_canon h (ite_canon (canon_of_mem (blockRelease_mem ..) h) ?_)
  split
  · next u n hdraw =>
    rw [hdraw] at hdrawn
    rw [writeReleaseRecords_mem, onAccess_mem]
    exact engineRun_canon (h := hdrawn) ..
  · next hdraw =>
    rw [hdraw] at hdrawn
    exact canon_of_mem (blockRelease_mem ..) hdrawn

@[simp] theorem refuseDescriptor_canon (s : State) (r slot : Nat) (d : List Byte) (st : Nat) (h : Canon s.mem) : Canon (refuseDescriptor s r slot d st).mem := by
  simp [refuseDescriptor, h]

@[simp] theorem admitFirst_canon (s : State) (r slot : Nat) (d : List Byte) (h : Canon s.mem) : Canon (admitFirst s r slot d).mem := by
  have hdrawn := canon_of_mem (drawCounter_mem s (dKey d)) h
  unfold admitFirst
  refine ite_canon (canon_of_mem (admitSlot_mem s r) h) ?_
  dsimp only
  split
  · next hdraw =>
    rw [hdraw] at hdrawn
    exact canon_of_mem (admitSlot_mem _ r) hdrawn
  · exact h
  · next hdraw =>
    rw [hdraw] at hdrawn
    exact refuseDescriptor_canon (h := canon_of_mem (admitSlot_mem _ r) hdrawn) ..

@[simp] theorem cryptoAdmission_canon (s : State) (r : Nat) (h : Canon s.mem) : Canon (cryptoAdmission s r).mem := by
  have hslot := canon_of_mem (admitSlot_mem s r) h
  unfold cryptoAdmission
  refine ite_canon h ?_
  dsimp only
  split
  · exact refuseDescriptor_canon (h := hslot) ..
  · split
    · split
      · exact refuseDescriptor_canon (h := hslot) ..
      · exact hslot
    · split
      · exact refuseDescriptor_canon (h := hslot) ..
      · exact admitFirst_canon (h := h) ..

@[simp] theorem runEnd_canon (s : State) (m : Nat) (h : Canon s.mem) : Canon (runEnd s m).mem := by
  unfold runEnd
  (repeat' split)
  all_goals simp [h]

@[simp] theorem decayEnd_canon (s : State) (v mA uJ : Nat) (h : Canon s.mem) : Canon (decayEnd s v mA uJ).mem := by
  unfold decayEnd
  dsimp only
  split <;> simp [h]

@[simp] theorem secureVerdict_canon (s : State) (c : Nat) (recorded : Option Status) (h : Canon s.mem) : Canon (secureVerdict s c recorded).mem := by
  unfold secureVerdict
  dsimp only
  (repeat' split)
  all_goals simp [h]

@[simp] theorem darkEntry_canon (s : State) (h : Canon s.mem) : Canon (darkEntry s).mem := by
  unfold darkEntry
  split
  · exact ite_canon rfl h
  · exact h

@[simp] theorem stopPairs_canon (s : State) (h : Canon s.mem) : Canon (stopPairs s).mem := by
  have hended (l : List Nat) : Canon (l.foldl (fun s r => endUnadmitted .cancelled r 4096 s) s).mem :=
    foldl_canon (fun _ _ hu => endUnadmitted_canon (h := hu) ..) l h
  unfold stopPairs
  dsimp only
  rw [setDomain_mem, onSleep_mem]
  exact cancelHeld_canon (h := hended _) ..

@[simp] theorem pairStop_canon (s : State) (h : Canon s.mem) : Canon (pairStop s).mem := by
  unfold pairStop
  (repeat' split)
  all_goals simp [h]

@[simp] theorem completeMembers_canon (late : Nat) (l : List (Packet × Status × Reply)) (s : State) (h : Canon s.mem) :
    Canon (completeMembers late l s).mem := by
  induction l generalizing s with
  | nil => exact h
  | cons x l ih =>
    have hdone := completeNow_canon s x.1 (lateStatus (0 < late) x.2.1) x.2.2 h
    exact ih _ (ite_canon (canon_of_mem (noteLate_mem ..) hdone) hdone)

@[simp] theorem rejectFlight_canon (s : State) (r : Nat) (f : Flight) (fail : Nat) (failSt : Status) (st : Nat → Status) (h : Canon s.mem) :
    Canon (rejectFlight s r f fail failSt st).mem := completeMembers_canon (h := h) ..

@[simp] theorem flightInterrupted_canon (s : State) (r : Nat) (h : Canon s.mem) : Canon (flightInterrupted s r).mem := by
  unfold flightInterrupted
  dsimp only
  split <;> simp [h]

@[simp] theorem flightTimeout_canon (s : State) (r : Nat) (h : Canon s.mem) : Canon (flightTimeout s r).mem := by
  unfold flightTimeout
  split <;> simp [h]

@[simp] theorem bankOvervolt_canon (s : State) (b mv : Nat) (h : Canon s.mem) : Canon (bankOvervolt s b mv).mem :=
  ite_canon (holdScope_canon (h := h) ..) h

@[simp] theorem busIdle_canon (s : State) (c : Nat) (h : Canon s.mem) : Canon (busIdle s c).mem := by
  unfold busIdle
  (repeat' split)
  all_goals simp [h]

@[simp] theorem replayComplete_canon (s : State) (st : Status) (reply : Reply) (h : Canon s.mem) : Canon (replayComplete s st reply).mem := by
  simp [replayComplete, h]

@[simp] theorem endReplay_canon (s : State) (st : Status) (h : Canon s.mem) : Canon (endReplay s st).mem := by
  unfold endReplay
  extract_lets q digest k own logged done shown stale
  have hown : Canon own.mem := h
  clear_value own
  have hlogged : Canon logged.mem := canon_of_mem (logReplay_mem ..) hown
  clear_value logged
  have hdone : Canon done.mem := replayComplete_canon (h := hlogged) ..
  clear_value done
  have hshown : Canon shown.mem := ite_canon (canon_of_mem (emptyRing63_mem _) hdone) hdone
  clear_value shown
  have hstale : Canon stale.mem := reenterBeam_canon (h := hshown) ..
  exact hstale

@[simp] theorem buoyToDark_canon (s : State) : Canon (buoyToDark s).mem := rfl

@[simp] theorem buoyTimeout_canon (s : State) (h : Canon s.mem) : Canon (buoyTimeout s).mem := by
  unfold buoyTimeout
  split <;> simp [h]

@[simp] theorem failPoll_canon (s : State) (st : Status) (h : Canon s.mem) : Canon (failPoll s st).mem := by
  unfold failPoll
  dsimp only
  split <;> simp [h]

@[simp] theorem dropAntenna_canon (s : State) (a kind : Nat) (h : Canon s.mem) : Canon (dropAntenna s a kind).mem := by
  unfold dropAntenna
  dsimp only
  (repeat' split)
  all_goals simp [h]

@[simp] theorem antennaFault_canon (s : State) (a kind : Nat) (h : Canon s.mem) : Canon (antennaFault s a kind).mem := by
  unfold antennaFault
  (repeat' split)
  all_goals simp [h]

@[simp] theorem txRecordDone_canon (s : State) (r slot slots : Nat) (d : List Byte) (st : Status) (h : Canon s.mem) : Canon (txRecordDone s r slot slots d st).mem := by
  simp [txRecordDone, h]

@[simp] theorem txRecordSend_canon (s : State) (r slot slots : Nat) (d b : List Byte) (h : Canon s.mem) : Canon (txRecordSend s r slot slots d b).mem := by
  unfold txRecordSend
  dsimp only
  (repeat' split)
  all_goals simp [h]

@[simp] theorem txRecord_canon (s : State) (r : Nat) (h : Canon s.mem) : Canon (txRecord s r).mem := by
  unfold txRecord
  dsimp only
  split_ifs <;> simp [h]

@[simp] theorem phySent_canon (s : State) (n : Nat) (q : Queued) (h : Canon s.mem) : Canon (phySent s n q).mem := by
  unfold phySent
  (repeat' split)
  all_goals simp [h]

@[simp] theorem egressSent_canon (s : State) (n : Nat) (h : Canon s.mem) : Canon (egressSent s n).mem := by
  unfold egressSent
  refine ite_canon h ?_
  split
  · exact h
  · exact ite_canon (phySent_canon (h := h) ..) (ite_canon (canon_of_mem (appSent_mem ..) h) (canon_of_mem (keeperSent_mem ..) h))

@[simp] theorem lockHb_canon (s : State) (m cause detail : Nat) (h : Canon s.mem) : Canon (lockHb s m cause detail).mem := by
  simp [lockHb, h]

@[simp] theorem hbFault_canon (s : State) (hb cause detail : Nat) (active : Bool) (h : Canon s.mem) : Canon (hbFault s hb cause detail active).mem := by
  unfold hbFault
  dsimp only
  split_ifs <;> simp [h]

@[simp] theorem lockFeed_canon (s : State) (f cause : Nat) (h : Canon s.mem) : Canon (lockFeed s f cause).mem := by
  simp [lockFeed, h]

@[simp] theorem valveFault_canon (s : State) (o cause detail : Nat) (active : Bool) (h : Canon s.mem) : Canon (valveFault s o cause detail active).mem := by
  unfold valveFault
  dsimp only
  split_ifs <;> simp [h]

@[simp] theorem thermalShutdown_canon (s : State) (o : OutputId) (h : Canon s.mem) : Canon (thermalShutdown s o).mem := by
  unfold thermalShutdown
  split <;> simp [h]

@[simp] theorem beamEntry_canon (s : State) (h : Canon s.mem) : Canon (beamEntry s).mem := by
  unfold beamEntry
  split <;> simp [h]

@[simp] theorem answerRead_canon (s : State) (p : Packet) (h : Canon s.mem) : Canon (answerRead s p).mem := by
  simp [answerRead, h]

@[simp] theorem answerReads_canon (s : State) (h : Canon s.mem) : Canon (answerReads s).mem := by
  unfold answerReads
  refine foldl_canon (fun u a hu => ?_) _ h
  simp [hu]

@[simp] theorem settleLate_canon (s : State) (l : LateWriter) (h : Canon s.mem) : Canon (settleLate s l).mem := by
  unfold settleLate
  dsimp only
  split_ifs <;> simp [h]

@[simp] theorem settleLates_canon (s : State) (h : Canon s.mem) : Canon (settleLates s).mem := by
  unfold settleLates
  refine foldl_canon (fun u a hu => ?_) _ h
  simp [hu]

@[simp] theorem endFlights_canon (s : State) (h : Canon s.mem) : Canon (endFlights s).mem := by
  unfold endFlights
  refine foldl_canon (fun u a hu => ?_) _ h
  simp [hu]

@[simp] theorem holdPacket_canon (p : Packet) (s : State) (h : Canon s.mem) : Canon (holdPacket p s).mem := by
  unfold holdPacket
  (repeat' split)
  all_goals simp [h]

@[simp] theorem releasePackets_canon (t n : Nat) (s : State) (h : Canon s.mem) : Canon (releasePackets t n s).mem := by
  induction n generalizing s with
  | zero => exact h
  | succ n ih =>
    unfold releasePackets
    split
    · exact ih _ (holdPacket_canon (h := canon_of_mem (admitPacket_mem ..) h) ..)
    · exact h

@[simp] theorem releaseCommands_canon (s : State) (t : Nat) (h : Canon s.mem) : Canon (releaseCommands s t).mem := by
  simp [releaseCommands, h]

@[simp] theorem shadowRecord_canon (s : State) (r : Nat) (skip : Nat → List Byte) (rec : List Byte) (h : Canon s.mem) : Canon (shadowRecord s r skip rec).mem := by
  unfold shadowRecord
  dsimp only
  (repeat' split)
  all_goals simp +contextual [h, foldl_canon]

@[simp] theorem deviceRecord_canon (s : State) (r : Nat) (gap skip : Nat → List Byte) (body : List Byte) (h : Canon s.mem) :
    Canon (deviceRecord s r gap skip body).mem := by
  unfold deviceRecord
  split
  · next gp sk _ =>
    have hgap : Canon (if gp.isEmpty then s else shadowRecord (ringWrite s r gp) r skip gp).mem :=
      ite_canon h (shadowRecord_canon (h := ringWrite_canon (h := h) ..) ..)
    have hskip : Canon (if sk.isEmpty then (if gp.isEmpty then s else shadowRecord (ringWrite s r gp) r skip gp)
        else ringWrite (if gp.isEmpty then s else shadowRecord (ringWrite s r gp) r skip gp) r sk).mem :=
      ite_canon hgap (ringWrite_canon (h := hgap) ..)
    exact shadowRecord_canon (h := ringWrite_canon (h := hskip) ..) ..
  · exact ite_canon h h

@[simp] theorem packetRecord_canon (s : State) (t : Stamp) (e : Nat × List Byte) (h : Canon s.mem) : Canon (packetRecord s t e).mem := by
  simp [packetRecord, h]

@[simp] theorem deliverTo_canon (e : Ev) (s : State) (r : Nat) (h : Canon s.mem) : Canon (deliverTo e s r).mem := by
  unfold deliverTo
  dsimp only
  (repeat' split)
  all_goals simp [h]

@[simp] theorem deliverEvent_canon (s : State) (e : Ev) (h : Canon s.mem) : Canon (deliverEvent s e).mem := by
  simp +contextual [deliverEvent, h, foldl_canon]

@[simp] theorem releaseRecords_canon (s : State) (t : Nat) (h : Canon s.mem) : Canon (releaseRecords s t).mem := by
  have htaken := canon_of_mem (takeDue_mem s 6 t) h
  unfold releaseRecords
  refine foldl_canon (fun _ _ hu => ?_) _ htaken
  exact foldl_canon (fun _ _ hv => packetRecord_canon (h := hv) ..) _ (foldl_canon (fun _ _ hv => deliverEvent_canon (h := hv) ..) _ hu)

@[simp] theorem capRelease_canon (due : Stamp → Bool) (s : State) (h : Canon s.mem) : Canon (capRelease due s).mem :=
  foldl_canon (fun _ _ hu => foldl_canon (fun _ _ hv => capPut_canon (h := hv) ..) _ hu) _ h

@[simp] theorem finishStop_canon (s : State) (h : Canon s.mem) : Canon (finishStop s).mem := by
  unfold finishStop
  split <;> simp [h]

@[simp] theorem releaseCaptures_canon (s : State) (t : Nat) (h : Canon s.mem) : Canon (releaseCaptures s t).mem := by
  simp [releaseCaptures, h]

@[simp] theorem releaseTick_canon (s : State) (l t : Nat) (h : Canon s.mem) : Canon (releaseTick s l t).mem :=
  ite_canon h (ite_canon (canon_of_mem (releaseSense_mem ..) h) (ite_canon (releaseCommands_canon (h := h) ..)
    (ite_canon (releaseRecords_canon (h := h) ..) (ite_canon (canon_of_mem (releaseKeeper_mem ..) h)
      (ite_canon (releaseCaptures_canon (h := h) ..) h)))))

@[simp] theorem releaseNominal_canon (s : State) (l : Nat) (h : Canon s.mem) : Canon (releaseNominal s l).mem := by
  unfold releaseNominal
  split <;> simp [h]

@[simp] theorem releaseReady_canon (s : State) (l : Nat) (h : Canon s.mem) : Canon (releaseReady s l).mem := by
  unfold releaseReady
  dsimp only
  split <;> simp [h]

@[simp] theorem releases_canon (s : State) (h : Canon s.mem) : Canon (releases s).mem := by
  unfold releases
  refine foldl_canon (fun u a hu => ?_) _ (by simp [h])
  simp [hu]

@[simp] theorem decryptSegment_canon (s : State) (r : Nat) (h : Canon s.mem) : Canon (decryptSegment s r).mem := by
  unfold decryptSegment
  split <;> simp [h]

@[simp] theorem failHb_canon (s : State) (m : Nat) (h : Canon s.mem) : Canon (failHb s m).mem := by
  simp [failHb, h]

@[simp] theorem applyFails_canon (s : State) (h : Canon s.mem) : Canon (applyFails s).mem := by
  unfold applyFails
  dsimp only
  refine foldl_canon (fun u v hu => canon_of_mem (failValve_mem u v) hu) _ ?_
  refine foldl_canon (fun u v hu => stopFeed_canon (h := hu) ..) _ ?_
  refine foldl_canon (fun u v hu => failHb_canon (h := hu) ..) _ ?_
  refine foldl_canon (fun u v hu => canon_of_mem (failString_mem u v) hu) _ ?_
  exact foldl_canon (fun u v hu => canon_of_mem (failChan_mem u v) hu) _ h

@[simp] theorem holdExpiry_canon (s : State) (h : Canon s.mem) : Canon (holdExpiry s).mem := by
  unfold holdExpiry
  split <;> simp [h]

@[simp] theorem keeperAdmission_canon (s : State) (r : Nat) (h : Canon s.mem) : Canon (keeperAdmission s r).mem := by
  unfold keeperAdmission
  dsimp only
  split <;> simp [h]

@[simp] theorem acceptCommand_canon (s : State) (n : Nat) (f : EthFrame) (sci seq count : Nat) (h : Canon s.mem) :
    Canon (acceptCommand s n f sci seq count).mem := by
  unfold acceptCommand
  dsimp only
  rw [onEth_mem, bump_mem, captureVisible_mem, onRing_mem]
  exact foldl_canon (fun _ _ hu => memWriteN_canon (h := hu) ..) _ h

@[simp] theorem commandFrame_canon (s : State) (n : Nat) (frame : EthFrame) (h : Canon s.mem) : Canon (commandFrame s n frame).mem := by
  have hin : Canon (if onItsWay s n frame = true then s else ethReceive s n frame).mem := ite_canon h (canon_of_mem (ethReceive_mem ..) h)
  unfold commandFrame
  dsimp only
  generalize (if onItsWay s n frame = true then s else ethReceive s n frame) = u at hin
  split
  · exact hin
  · split
    · exact canon_of_mem (dropCommand_mem _) hin
    · exact ite_canon (canon_of_mem (dropCommand_mem _) hin) (acceptCommand_canon (h := hin) ..)

@[simp] theorem abortStop_canon (s : State) (slot : Nat) (h : Canon s.mem) : Canon (abortStop s slot).mem := by
  unfold abortStop
  refine foldl_canon (fun u a hu => ?_) _ h
  dsimp only
  split <;> simp [hu]

@[simp] theorem hardShortVl_canon (s : State) (v mA : Nat) (h : Canon s.mem) : Canon (hardShortVl s v mA).mem := by
  unfold hardShortVl
  split <;> simp [h]

@[simp] theorem hardShortHb_canon (s : State) (hb mA : Nat) (h : Canon s.mem) : Canon (hardShortHb s hb mA).mem := by
  unfold hardShortHb
  split <;> simp [h]

@[simp] theorem hardShortVf_canon (s : State) (f mA : Nat) (h : Canon s.mem) : Canon (hardShortVf s f mA).mem := by
  unfold hardShortVf
  split <;> simp [h]

@[simp] theorem hardShort_canon (s : State) (o : OutputId) (mA : Nat) (h : Canon s.mem) : Canon (hardShort s o mA).mem := by
  unfold hardShort
  split <;> simp [h]

@[simp] theorem deviceCommit_canon (s : State) (h : Canon s.mem) : Canon (deviceCommit s).mem := by
  have habandoned := abandonPoll_canon (closeSession s 5 0) .cancelled (canon_of_mem (closeSession_mem ..) h)
  have hcancelled := cancelHeld_canon (abandonPoll (closeSession s 5 0) .cancelled) (fun _ => true) habandoned
  unfold deviceCommit
  refine ite_canon ?_ h
  dsimp only
  rw [onSleep_mem, postEvent_mem]
  have hreleased (u : State) (hu : Canon u.mem) : Canon (releaseRecords (ethPowerOff (releaseAll (writeReleaseRecords u 0)))
      (ethPowerOff (releaseAll (writeReleaseRecords u 0))).wallTick).mem := by
    refine releaseRecords_canon (h := ?_) ..
    rw [ethPowerOff_mem]
    rw [releaseAll_mem, writeReleaseRecords_mem]
    exact hu
  have hdark := hreleased (takeReferences (sleepTransceivers (cancelHeld (abandonPoll (closeSession s 5 0) .cancelled) fun _ => true)))
    (canon_of_mem (takeReferences_mem ..) (canon_of_mem (sleepTransceivers_mem ..) hcancelled))
  exact ite_canon (canon_of_mem (sealSegment_mem ..) hdark) hdark

@[simp] theorem enumDeliver_canon (s : State) (n : Nat) (ids : Option (List SatIdent)) (h : Canon s.mem) : Canon (enumDeliver s n ids).mem := by
  unfold enumDeliver
  refine foldl_canon (fun u a hu => ?_) _ h
  dsimp only
  split <;> simp [hu]

@[simp] theorem frameReturn_canon (s : State) (n : Nat) (r : IvgReturn) (h : Canon s.mem) : Canon (frameReturn s n r).mem := by
  have hlost := canon_of_mem (noteLost_mem s n) h
  unfold frameReturn
  split
  · exact h
  · next f _ =>
    refine ite_canon h (ite_canon ?_ ?_)
    · exact canon_of_mem (enumNow_mem ..) (ite_canon (enumDeliver_canon (h := hlost) ..) hlost)
    · dsimp only
      rw [enumNow_mem]
      have hu : Canon (meterAdd (noteReturned s n f.sentAt) (22 + n) (8 * f.bytes.length + 112 * r.statuses.length + 176 * r.idents.length) 0).mem :=
        canon_of_mem (meterAdd_mem ..) (canon_of_mem (noteReturned_mem ..) h)
      generalize meterAdd (noteReturned s n f.sentAt) _ _ _ = u at hu ⊢
      refine ite_canon (enumDeliver_canon (h := ?_) ..) (foldl_canon (fun v _ hv => canon_of_mem (noteStatus_mem ..) hv) _ hu)
      have hknown : Canon ((satsOf u n).foldl (noteIdent n (r.idents.filter (·.crcOk))) u).mem :=
        foldl_canon (fun v _ hv => canon_of_mem (noteIdent_mem ..) hv) _ hu
      exact ite_canon (canon_of_mem (noteIdents_mem ..) hknown) hknown

@[simp] theorem thermalRestart_canon (s : State) (o : OutputId) (h : Canon s.mem) : Canon (thermalRestart s o).mem := by
  unfold thermalRestart
  split <;> simp [h]

@[simp] theorem hallFault_canon (s : State) (n cause : Nat) (h : Canon s.mem) : Canon (hallFault s n cause).mem := by
  have hnoted := canon_of_mem (noteHallFault_mem s n cause) h
  exact ite_canon (assertLogic_canon (h := hnoted) ..) (ite_canon (assertLogic_canon (h := hnoted) ..) (ite_canon hnoted
    (ite_canon (canon_of_mem (spoilTentative_mem _) (hallReset_canon (h := hnoted) ..)) (hallReset_canon (h := hnoted) ..))))

@[simp] theorem lfTick_canon (s : State) (h : Canon s.mem) : Canon (lfTick s).mem := by
  unfold lfTick
  dsimp only
  (repeat' split)
  all_goals simp +contextual [h, foldl_canon]

@[simp] theorem linTimeout_canon (s : State) (c n : Nat) (h : Canon s.mem) : Canon (linTimeout s c n).mem := by
  unfold linTimeout
  split
  · exact h
  · exact completeNow_canon (h := h) ..

@[simp] theorem canTimeout_canon (s : State) (c n : Nat) (sof : Bool) (h : Canon s.mem) : Canon (canTimeout s c n sof).mem := by
  unfold canTimeout
  dsimp only
  (repeat' split)
  all_goals simp [h]

@[simp] theorem pairMismatch_canon (s : State) (pair : Nat) (h : Canon s.mem) : Canon (pairMismatch s pair).mem := by
  unfold pairMismatch
  dsimp only
  split_ifs <;> simp [h]

@[simp] theorem tagReady_canon (s : State) (c : Nat) (h : Canon s.mem) : Canon (tagReady s c).mem := by
  unfold tagReady
  split <;> simp [h]

@[simp] theorem runMaxExpiry_canon (s : State) (m : Nat) (h : Canon s.mem) : Canon (runMaxExpiry s m).mem := by
  unfold runMaxExpiry
  (repeat' split)
  all_goals simp [h]

@[simp] theorem reversalOver_canon (s : State) (m : Nat) (h : Canon s.mem) : Canon (reversalOver s m).mem := by
  unfold reversalOver
  dsimp only
  split
  · exact canon_of_mem (brakeThen_mem ..) h
  · exact ite_canon (stopRun_canon (h := h) ..) (canon_of_mem (brakeOpenLoop_mem ..) h)

@[simp] theorem stallNow_canon (s : State) (m : Nat) (h : Canon s.mem) : Canon (stallNow s m).mem := by
  unfold stallNow
  dsimp only
  (repeat' split)
  all_goals simp [h]

@[simp] theorem motorStall_canon (s : State) (m : Nat) (trace : List LimitRun) (h : Canon s.mem) : Canon (motorStall s m trace).mem :=
  have hsensed := canon_of_mem (senseMotor_mem s m trace) h
  ite_canon h (ite_canon (stallNow_canon (h := hsensed) ..) hsensed)

@[simp] theorem bankDropout_canon (s : State) (b mv : Nat) (h : Canon s.mem) : Canon (bankDropout s b mv).mem :=
  ite_canon (holdScope_canon (h := h) ..) h

@[simp] theorem pairItems_canon (s : State) (a b : TrialItem) (h : Canon s.mem) : Canon (pairItems s a b).mem := by
  unfold pairItems
  dsimp only
  split
  · exact giveReply_canon (h := h) ..
  · exact h

@[simp] theorem compareItem_canon (s : State) (isCand : Bool) (x : TrialItem) (h : Canon s.mem) : Canon (compareItem s isCand x).mem := by
  have hadmitted : Canon (if isCand = true then shadowAdmit s x else s).mem := ite_canon (canon_of_mem (shadowAdmit_mem ..) h) h
  unfold compareItem
  refine ite_canon h (ite_canon (canon_of_mem (endTrial_mem ..) hadmitted) ?_)
  split
  · split
    · exact canon_of_mem (endTrial_mem ..) hadmitted
    · exact pairItems_canon (h := hadmitted) ..
  · exact hadmitted

@[simp] theorem feedVerdict_canon (s : State) (r : CapRecord) (h : Canon s.mem) : Canon (feedVerdict s r).mem := by
  unfold feedVerdict
  dsimp only
  (repeat' split)
  all_goals simp [h]

@[simp] theorem feedRecord_canon (s : State) (r : CapRecord) (h : Canon s.mem) : Canon (feedRecord s r).mem := by
  have hframe : (feedAt s r.stamp.tick (feedFrame · r)).mem = s.mem := feedAt_mem _ _ _ fun u => feedFrame_mem u r
  have hverdict : Canon (feedAt s r.stamp.tick (feedVerdict · r)).mem := feedVerdict_canon (h := h) ..
  exact ite_canon (canon_of_mem (feedPoint_mem ..) h) (ite_canon (canon_of_mem hframe h) (ite_canon (canon_of_mem (feedCommand_mem ..) h)
    (ite_canon hverdict (ite_canon h (ite_canon h (ite_canon (canon_of_mem (feedPacket_mem ..) h)
      (ite_canon (canon_of_mem (feedDigest_mem ..) h) h)))))))

@[simp] theorem readRecord_canon (s : State) (h : Canon s.mem) : Canon (readRecord s).mem := by
  unfold readRecord
  (repeat' split)
  all_goals simp [h]

@[simp] theorem cancelOne_canon (s : State) (c : Nat) (p : Packet) (sof : Bool) (f : TxFrame) (h : Canon s.mem) : Canon (cancelOne s c p sof f).mem := by
  unfold cancelOne
  split <;> simp [h]

@[simp] theorem cancelNow_canon (s : State) (p : Packet) (late sof : Bool) (h : Canon s.mem) : Canon (cancelNow s p late sof).mem := by
  unfold cancelNow
  refine ite_canon (completeNow_canon (h := h) ..) ?_
  rw [onCan_mem]
  exact foldl_canon (fun _ _ hu => cancelOne_canon (h := hu) ..) _ h

@[simp] theorem linSendNow_canon (s : State) (p : Packet) (late : Bool) (h : Canon s.mem) : Canon (linSendNow s p late).mem := by
  have hhanded := canon_of_mem (linHand_mem s (linSendReq s p) (p.bit 16 5)) h
  unfold linSendNow
  dsimp only
  split
  · next hout =>
    rw [hout] at hhanded
    exact completeNow_canon (h := hhanded) ..
  · next hout =>
    rw [hout] at hhanded
    exact ite_canon (writePending_canon (h := hhanded) ..) (completeNow_canon (h := hhanded) ..)

@[simp] theorem sendNow_canon (s : State) (p : Packet) (late sof : Bool) (h : Canon s.mem) : Canon (sendNow s p late sof).1.mem := by
  have hhanded := canon_of_mem (handOver_mem s (sendReq s p) (if p.bit 16 4 then some p else none) late sof) h
  unfold sendNow
  dsimp only
  split
  · next hout =>
    rw [hout] at hhanded
    exact hhanded
  · next hout =>
    rw [hout] at hhanded
    exact completeNow_canon (h := hhanded) ..
  · next hout =>
    rw [hout] at hhanded
    exact ite_canon (writePending_canon (h := hhanded) ..) (completeNow_canon (h := hhanded) ..)

@[simp] theorem frameHandover_canon (s : State) (sof : Bool) (h : Canon s.mem) : Canon (frameHandover s sof).mem := by
  unfold frameHandover
  split
  · exact h
  · refine ite_canon h ?_
    dsimp only
    split
    · exact ite_canon (sendNow_canon (h := h) ..) h
    · exact linSendNow_canon (h := h) ..
    · exact ite_canon (canon_of_mem (reflexNow_mem ..) h) h
    · exact cancelNow_canon (h := h) ..

@[simp] theorem gmacCheckSegment_canon (s : State) (r : Nat) (h : Canon s.mem) : Canon (gmacCheckSegment s r).mem := by
  unfold gmacCheckSegment
  split <;> simp [h]

@[simp] theorem gmacGenSegment_canon (s : State) (r : Nat) (h : Canon s.mem) : Canon (gmacGenSegment s r).mem := by
  unfold gmacGenSegment
  (repeat' split)
  all_goals simp [h]

@[simp] theorem linConfirm_canon (s : State) (c id : Nat) (h : Canon s.mem) : Canon (linConfirm s c id).mem := by
  unfold linConfirm
  refine foldl_canon (fun u a hu => ?_) _ h
  simp [hu]

@[simp] theorem linSent_canon (s : State) (c id src : Nat) (h : Canon s.mem) : Canon (linSent s c id src).mem := by
  simp [linSent, h]

@[simp] theorem linPublish_canon (s : State) (c id : Nat) (h : Canon s.mem) : Canon (linPublish s c id).mem :=
  have hactive := canon_of_mem (linActive_mem s c) h
  ite_canon h (ite_canon (linConfirm_canon (h := canon_of_mem (linActive_mem ..) h) ..) (ite_canon (linSent_canon (h := hactive) ..) hactive))

@[simp] theorem pinchEnd_canon (s : State) (m : Nat) (trace : List LimitRun) (h : Canon s.mem) : Canon (pinchEnd s m trace).mem :=
  have hsensed := canon_of_mem (senseMotor_mem s m trace) h
  ite_canon (ite_canon (reversalOver_canon (h := hsensed) ..) hsensed) h

@[simp] theorem offerAgain_canon (s : State) (c : Nat) (f : TxFrame) (h : Canon s.mem) : Canon (offerAgain s c f).mem := by
  unfold offerAgain
  dsimp only
  split <;> simp [h]

@[simp] theorem canClash_canon (s : State) (c tdcv : Nat) (h : Canon s.mem) : Canon (canClash s c tdcv).mem := by
  unfold canClash
  dsimp only
  (repeat' split)
  all_goals simp [h]

@[simp] theorem enterBuoy_canon (s : State) (h : Canon s.mem) : Canon (enterBuoy s).mem := by
  unfold enterBuoy
  dsimp only
  split <;> simp [h]

@[simp] theorem coldReset_canon (s : State) : Canon (coldReset s).mem := rfl

@[simp] theorem dumpPut_canon (s : State) (i : Nat) (rec_ : Nat → Nat → List Byte) (skip : Nat → Nat → List Byte) (slots : Nat) (h : Canon s.mem) : Canon (dumpPut s i rec_ skip slots).1.mem := by
  unfold dumpPut
  dsimp only
  split_ifs <;> simp [h]

@[simp] theorem watchDump_canon (s : State) (r : Nat) (h : Canon s.mem) : Canon (watchDump s r).mem := by
  unfold watchDump
  dsimp only
  split_ifs <;> simp [h]

@[simp] theorem noteSlot_canon (s : State) (i code : Nat) (x : TokenResponse) (h : Canon s.mem) : Canon (noteSlot s i code x).mem := by
  have htoken (b : Bool) (f : Poll → Poll) (g : Token → Token) :
      Canon (if b = true then engineRun ((s.onPoll f).onToken i g) 30 1 else s.onPoll f).mem := ite_canon (engineRun_canon (h := h) ..) h
  have hcounted (b : Bool) (f : Poll → Poll) (g : Token → Token) (a : Access → Access) :
      Canon (if code = 3 then (if b = true then engineRun ((s.onPoll f).onToken i g) 30 1 else s.onPoll f).onAccess a
        else if b = true then engineRun ((s.onPoll f).onToken i g) 30 1 else s.onPoll f).mem := ite_canon (htoken ..) (htoken ..)
  exact ite_canon (canon_of_mem (accessEvent_mem ..) (hcounted ..)) (hcounted ..)

@[simp] theorem endBuoyPoll_canon (s : State) (q : Poll) (granted : Option Nat) (h : Canon s.mem) : Canon (endBuoyPoll s q granted).mem := by
  unfold endBuoyPoll
  (repeat' split)
  all_goals simp [h]

@[simp] theorem finishPoll_canon (s : State) (q : Poll) (h : Canon s.mem) : Canon (finishPoll s q).mem := by
  unfold finishPoll
  dsimp only
  (repeat' split)
  all_goals simp [h]

@[simp] theorem endPhase_canon (s : State) (h : Canon s.mem) : Canon (endPhase s).mem := by
  unfold endPhase
  (repeat' split)
  all_goals simp [h]

@[simp] theorem slotClose_canon (s : State) (i : Nat) (r : TokenResponse) (h : Canon s.mem) : Canon (slotClose s i r).mem := by
  unfold slotClose
  (repeat' split)
  all_goals simp [h]

@[simp] theorem canTxEnd_canon (s : State) (c outcome tdcv : Nat) (h : Canon s.mem) : Canon (canTxEnd s c outcome tdcv).mem := by
  unfold canTxEnd
  (repeat' split)
  all_goals simp [h]

@[simp] theorem spiStore_canon : ∀ (s : State) (addr : Nat) (l : List Byte), Canon s.mem → Canon (spiStore s addr l).mem
  | s, addr, a :: b :: c :: d :: r, h => by
    unfold spiStore
    exact spiStore_canon _ _ r (ite_canon (memWriteN_canon (h := h) ..) (canon_of_mem (busWrite_mem ..) h))
  | _, _, [], h => h
  | _, _, [_], h => h
  | _, _, [_, _], h => h
  | _, _, [_, _, _], h => h

@[simp] theorem spiWrite_canon (s : State) (f : SpiFrame) (h : Canon s.mem) : Canon (spiWrite s f).mem := by
  unfold spiWrite
  dsimp only
  split_ifs <;> simp [h]

end Sys2Proof.Machine

namespace Sys2Proof.Machine

open Sys2Proof.Claims

@[simp] theorem keyDeriveOp_mem (p : Packet) (s : State) : (keyDeriveOp.run p s).s.mem = s.mem := by
  unfold keyDeriveOp
  dsimp only
  (repeat' split)
  all_goals simp

@[simp] theorem ethTimeOp_mem (p : Packet) (s : State) : (ethTimeOp.run p s).s.mem = s.mem := by
  unfold ethTimeOp
  dsimp only
  split <;> simp

@[simp] theorem linSendOp_mem (p : Packet) (s : State) : (linSendOp.run p s).s.mem = s.mem := by
  unfold linSendOp
  dsimp only
  split <;> simp

@[simp] theorem releaseConfigOp_mem (p : Packet) (s : State) : (releaseConfigOp.run p s).s.mem = s.mem := by
  unfold releaseConfigOp
  dsimp only
  split_ifs <;> simp

@[simp] theorem pointReadOp_mem (p : Packet) (s : State) : (pointReadOp.run p s).s.mem = s.mem := rfl

@[simp] theorem keyEraseOp_mem (p : Packet) (s : State) : (keyEraseOp.run p s).s.mem = s.mem := by
  unfold keyEraseOp
  dsimp only
  split_ifs <;> simp

@[simp] theorem ivgalConfigOp_mem (p : Packet) (s : State) : (ivgalConfigOp.run p s).s.mem = s.mem := by
  unfold ivgalConfigOp
  dsimp only
  split_ifs <;> simp

@[simp] theorem verifyOp_mem (p : Packet) (s : State) : (verifyOp.run p s).s.mem = s.mem := by
  unfold verifyOp
  dsimp only
  (repeat' split)
  all_goals simp

@[simp] theorem ethConfigOp_mem (p : Packet) (s : State) : (ethConfigOp.run p s).s.mem = s.mem := by
  unfold ethConfigOp
  dsimp only
  (repeat' split)
  all_goals simp

@[simp] theorem nmStatusOp_mem (p : Packet) (s : State) : (nmStatusOp.run p s).s.mem = s.mem := by
  unfold nmStatusOp
  dsimp only
  split <;> simp

@[simp] theorem watchGrantOp_mem (p : Packet) (s : State) : (watchGrantOp.run p s).s.mem = s.mem := by
  unfold watchGrantOp
  dsimp only
  split <;> simp

@[simp] theorem patternLoadOp_mem (p : Packet) (s : State) : (patternLoadOp.run p s).s.mem = s.mem := by
  unfold patternLoadOp
  dsimp only
  split_ifs <;> simp

@[simp] theorem accessStatusOp_mem (p : Packet) (s : State) : (accessStatusOp.run p s).s.mem = s.mem := by
  unfold accessStatusOp
  dsimp only
  split <;> simp

@[simp] theorem nmConfigOp_mem (p : Packet) (s : State) : (nmConfigOp.run p s).s.mem = s.mem := by
  unfold nmConfigOp
  dsimp only
  split_ifs <;> simp

@[simp] theorem canStatusOp_mem (p : Packet) (s : State) : (canStatusOp.run p s).s.mem = s.mem := by
  unfold canStatusOp
  dsimp only
  split_ifs <;> simp

@[simp] theorem timeSetOp_mem (p : Packet) (s : State) : (timeSetOp.run p s).s.mem = s.mem := by
  unfold timeSetOp
  dsimp only
  split <;> simp

@[simp] theorem sysStateOp_mem (p : Packet) (s : State) : (sysStateOp.run p s).s.mem = s.mem := by
  unfold sysStateOp
  dsimp only
  split_ifs <;> simp

@[simp] theorem ethSecureOp_mem (p : Packet) (s : State) : (ethSecureOp.run p s).s.mem = s.mem := by
  unfold ethSecureOp
  dsimp only
  (repeat' split)
  all_goals simp

@[simp] theorem tokenRevokeOp_mem (p : Packet) (s : State) : (tokenRevokeOp.run p s).s.mem = s.mem := by
  unfold tokenRevokeOp
  dsimp only
  split_ifs <;> simp

@[simp] theorem debugUnlockOp_mem (p : Packet) (s : State) : (debugUnlockOp.run p s).s.mem = s.mem := by
  unfold debugUnlockOp
  dsimp only
  split_ifs <;> simp

@[simp] theorem canSigmapOp_mem (p : Packet) (s : State) : (canSigmapOp.run p s).s.mem = s.mem := by
  unfold canSigmapOp
  dsimp only
  split_ifs <;> simp

@[simp] theorem accessConfigOp_mem (p : Packet) (s : State) : (accessConfigOp.run p s).s.mem = s.mem := by
  unfold accessConfigOp
  dsimp only
  split <;> simp

@[simp] theorem imageBeginOp_mem (p : Packet) (s : State) : (imageBeginOp.run p s).s.mem = s.mem := by
  unfold imageBeginOp
  dsimp only
  (repeat' split)
  all_goals simp

@[simp] theorem sysInfoOp_mem (p : Packet) (s : State) : (sysInfoOp.run p s).s.mem = s.mem := rfl

@[simp] theorem tokenListOp_mem (p : Packet) (s : State) : (tokenListOp.run p s).s.mem = s.mem := rfl

@[simp] theorem imageEndOp_mem (p : Packet) (s : State) : (imageEndOp.run p s).s.mem = s.mem := by
  unfold imageEndOp
  dsimp only
  (repeat' split)
  all_goals simp

@[simp] theorem patternRunOp_mem (p : Packet) (s : State) : (patternRunOp.run p s).s.mem = s.mem := by
  unfold patternRunOp
  dsimp only
  split <;> simp

@[simp] theorem sysNopOp_mem (p : Packet) (s : State) : (sysNopOp.run p s).s.mem = s.mem := rfl

@[simp] theorem loadFailstateOp_mem (p : Packet) (s : State) : (loadFailstateOp.run p s).s.mem = s.mem := by
  unfold loadFailstateOp
  dsimp only
  split <;> simp

@[simp] theorem fieldStatusOp_mem (p : Packet) (s : State) : (fieldStatusOp.run p s).s.mem = s.mem := by
  unfold fieldStatusOp
  dsimp only
  split <;> simp

@[simp] theorem canSendOp_mem (p : Packet) (s : State) : (canSendOp.run p s).s.mem = s.mem := by
  unfold canSendOp
  dsimp only
  split <;> simp

@[simp] theorem ivgalEnumOp_mem (p : Packet) (s : State) : (ivgalEnumOp.run p s).s.mem = s.mem := by
  unfold ivgalEnumOp
  dsimp only
  (repeat' split)
  all_goals simp

@[simp] theorem reflexLoadOp_mem (p : Packet) (s : State) : (reflexLoadOp.run p s).s.mem = s.mem := by
  simp [reflexLoadOp]

@[simp] theorem imageCommitOp_mem (p : Packet) (s : State) : (imageCommitOp.run p s).s.mem = s.mem := by
  unfold imageCommitOp
  dsimp only
  (repeat' split)
  all_goals simp

@[simp] theorem ethStatusOp_mem (p : Packet) (s : State) : (ethStatusOp.run p s).s.mem = s.mem := by
  unfold ethStatusOp
  dsimp only
  split_ifs <;> simp

@[simp] theorem canFilterOp_mem (p : Packet) (s : State) : (canFilterOp.run p s).s.mem = s.mem := by
  unfold canFilterOp
  dsimp only
  split <;> simp

@[simp] theorem sysResetOp_mem (p : Packet) (s : State) : (sysResetOp.run p s).s.mem = s.mem := rfl

@[simp] theorem logAppendOp_mem (p : Packet) (s : State) : (logAppendOp.run p s).s.mem = s.mem := by
  unfold logAppendOp
  dsimp only
  split <;> simp

@[simp] theorem ivgalDiagOp_mem (p : Packet) (s : State) : (ivgalDiagOp.run p s).s.mem = s.mem := by
  unfold ivgalDiagOp
  dsimp only
  split <;> simp

@[simp] theorem sysConfigOp_mem (p : Packet) (s : State) : (sysConfigOp.run p s).s.mem = s.mem := by
  unfold sysConfigOp
  dsimp only
  split <;> simp

@[simp] theorem valveTraceOp_mem (p : Packet) (s : State) : (valveTraceOp.run p s).s.mem = s.mem := by
  unfold valveTraceOp
  dsimp only
  (repeat' split)
  all_goals simp

@[simp] theorem sysTickOp_mem (p : Packet) (s : State) : (sysTickOp.run p s).s.mem = s.mem := rfl

@[simp] theorem watchSnapOp_mem (p : Packet) (s : State) : (watchSnapOp.run p s).s.mem = s.mem := by
  unfold watchSnapOp
  dsimp only
  split <;> simp

@[simp] theorem linScheduleOp_mem (p : Packet) (s : State) : (linScheduleOp.run p s).s.mem = s.mem := by
  unfold linScheduleOp
  dsimp only
  split_ifs <;> simp

@[simp] theorem valveProgOp_mem (p : Packet) (s : State) : (valveProgOp.run p s).s.mem = s.mem := rfl

@[simp] theorem keyWriteOp_mem (p : Packet) (s : State) : (keyWriteOp.run p s).s.mem = s.mem := by
  unfold keyWriteOp
  dsimp only
  split_ifs <;> simp

@[simp] theorem xcvrStateOp_mem (p : Packet) (s : State) : (xcvrStateOp.run p s).s.mem = s.mem := by
  unfold xcvrStateOp
  dsimp only
  split_ifs <;> simp

@[simp] theorem motorPosOp_mem (p : Packet) (s : State) : (motorPosOp.run p s).s.mem = s.mem := by
  unfold motorPosOp
  dsimp only
  split_ifs <;> simp

@[simp] theorem reflexStatsOp_mem (p : Packet) (s : State) : (reflexStatsOp.run p s).s.mem = s.mem := by
  unfold reflexStatsOp
  dsimp only
  split <;> simp

@[simp] theorem timeGetOp_mem (p : Packet) (s : State) : (timeGetOp.run p s).s.mem = s.mem := by
  simp [timeGetOp]

@[simp] theorem logExportAckOp_mem (p : Packet) (s : State) : (logExportAckOp.run p s).s.mem = s.mem := by
  unfold logExportAckOp
  dsimp only
  split <;> simp

@[simp] theorem loadSetOp_mem (p : Packet) (s : State) : (loadSetOp.run p s).s.mem = s.mem := by
  have hset := loadSetRun_mem p (loadSetEntries p) s
  unfold loadSetOp
  dsimp only
  split
  · exact hset
  · exact hset

theorem unlocks_mem (l : List Nat) (a : State × List Nat) :
    (l.foldl (fun a n => let (s, k) := unlockString a.1 n; (s, if k then a.2 ++ [n] else a.2)) a).1.mem = a.1.mem :=
  foldl_same (fun a : State × List Nat => a.1.mem) _ (fun a n => unlockString_mem a.1 n) _ _

@[simp] theorem stringConfigOp_mem (p : Packet) (s : State) : (stringConfigOp.run p s).s.mem = s.mem := by
  unfold stringConfigOp
  dsimp only
  refine (unlocks_mem ..).trans ?_
  dsimp only
  split
  · rfl
  · refine foldl_keeps (fun u : State => u.mem) _ (fun u i => ?_) _ _
    exact (updateString_mem ..).trans (onStore_mem ..)

@[simp] theorem reflexEnableOp_mem (p : Packet) (s : State) : (reflexEnableOp.run p s).s.mem = s.mem := by
  unfold reflexEnableOp
  refine foldl_keeps (fun u : State => u.mem) _ (fun u e => ?_) _ _
  have hstop : ∀ v : State, v.mem = u.mem → (if p.bit 20 1 = true then stopActions v e.1 else v).mem = u.mem :=
    fun v hv => ite_mem ((stopActions_mem ..).trans hv) hv
  exact hstop _ (ite_mem ((setArmed_mem ..).trans (onStore_mem ..)) (onStore_mem ..))

theorem unlockHbs_mem (l : List Nat) (s : State) :
    (l.foldl (fun s k => if (hbOf s k).cond.locks ≠ 0 then (endHbCause s k 7).onHb k fun x => { x with cond := x.cond.unlock 7 } else s) s).mem =
      s.mem := by
  refine foldl_keeps (fun u : State => u.mem) _ (fun u k => ?_) _ _
  split
  · exact (onHb_mem ..).trans (endHbCause_mem ..)
  · rfl

@[simp] theorem motorConfigOp_mem (p : Packet) (s : State) : (motorConfigOp.run p s).s.mem = s.mem := by
  unfold motorConfigOp
  dsimp only
  split
  · rfl
  · split
    · exact (waitMoved_mem ..).trans ((unlockHbs_mem ..).trans (setMotors_mem ..))
    · exact (unlockHbs_mem ..).trans (setMotors_mem ..)

@[simp] theorem pointTypeOp_mem (p : Packet) (s : State) : (pointTypeOp.run p s).s.mem = s.mem := by
  unfold pointTypeOp
  dsimp only
  split_ifs
  · rfl
  · rfl
  · refine foldl_keeps (fun u : State => u.mem) _ (fun u i => ?_) _ _
    split <;> rfl

@[simp] theorem pointWriteOp_mem (p : Packet) (s : State) : (pointWriteOp.run p s).s.mem = s.mem := by
  have hwritten := applyEntries_mem p (pointWriteEntries p) s
  unfold pointWriteOp
  dsimp only
  split
  · exact hwritten
  · exact hwritten

@[simp] theorem nmRequestOp_mem (p : Packet) (s : State) : (nmRequestOp.run p s).s.mem = s.mem := by
  unfold nmRequestOp
  refine foldl_keeps (fun u : State => u.mem) _ (fun u n => ?_) _ _
  dsimp only
  split <;> simp

theorem unlockFos_mem (l : List Nat) (a : State × List Nat) :
    (l.foldl (fun a n => let (s, k) := unlockFo a.1 n; (s, if k then a.2 ++ [n] else a.2)) a).1.mem = a.1.mem :=
  foldl_same (fun a : State × List Nat => a.1.mem) _ (fun a n => unlockFo_mem a.1 n) _ _

@[simp] theorem fieldConfigOp_mem (p : Packet) (s : State) : (fieldConfigOp.run p s).s.mem = s.mem := by
  have hset : ∀ (c c' : Prop) [Decidable c] [Decidable c'] (u v : State), u.mem = s.mem → v.mem = s.mem →
      (if c then (u, []) else (bitList 8 (p.num 18 1)).foldl (fun a n => let (s, k) := unlockFo a.1 n; (s, if k then a.2 ++ [n] else a.2))
        (if c' then v else fieldApply v, ([] : List Nat))).1.mem = s.mem := by
    intro c c' _ _ u v hu hv
    split
    · exact hu
    · exact (unlockFos_mem ..).trans (ite_mem hv ((fieldApply_mem v).trans hv))
  have hnoted : ∀ (c : Prop) [Decidable c] (u : State), u.mem = s.mem →
      (if c then u.onField fun l => { l with cfgStored := true } else u).mem = s.mem := fun c _ u hu =>
    ite_mem hu hu
  have hstored : ∀ (c : Prop) [Decidable c] (f : Store → Store), (if c then s else s.onStore f).mem = s.mem := fun c _ f =>
    ite_mem rfl rfl
  exact hset _ _ _ _ (hnoted _ _ (hstored _ _)) (hnoted _ _ (hstored _ _))

@[simp] theorem loadDiagOp_mem (p : Packet) (s : State) : (loadDiagOp.run p s).s.mem = s.mem := by
  have hchannels := diagChannels_mem (p.num 16 1) (p.num 17 1) 0 s
  unfold loadDiagOp
  dsimp only
  split
  · exact hchannels
  · exact hchannels

theorem revertRes_mem (s : State) (f : State → State) (hf : ∀ u, (f u).mem = u.mem) (x : State × Bool)
    (h : x.1.mem = s.mem) :
    (match x with
      | (s', true) => ({ s := f s' } : Res)
      | (_, false) => { s := s, st := some .rollback }).s.mem = s.mem := by
  obtain ⟨u, ok⟩ := x
  cases ok with
  | true => exact (hf u).trans h
  | false => rfl

@[simp] theorem imageRevertOp_mem (p : Packet) (s : State) : (imageRevertOp.run p s).s.mem = s.mem := by
  unfold imageRevertOp
  by_cases hnone : (bankIn s (p.num 16 1) 5).isNone = true
  · exact congrArg (fun r : Res => r.s.mem) (if_pos hnone)
  · refine (congrArg (fun r : Res => r.s.mem) (if_neg hnone)).trans ?_
    by_cases hbusy : imageBusy s = true
    · exact congrArg (fun r : Res => r.s.mem) (if_pos hbusy)
    · refine (congrArg (fun r : Res => r.s.mem) (if_neg hbusy)).trans (revertRes_mem s _ (fun u => changeImage_mem ..) _ ?_)
      split
      · exact revertKeeper_mem ..
      · exact revertApp_mem ..

theorem setInput_mem (p : Packet) (s : State) (i : Nat) :
    (if inIsAi p i then
          (s.onStore fun st => { st with input := { st.input with ai := vmod st.input.ai (inIx p i) fun _ => aiCfgOf p i } }).onInput
            fun x => { x with ai := vmod x.ai (inIx p i) fun _ => {} }
        else applySi s (inIx p i) (siCfgOf p i)).mem = s.mem := by
  split
  · rfl
  · exact applySi_mem ..

@[simp] theorem inputConfigOp_mem (p : Packet) (s : State) : (inputConfigOp.run p s).s.mem = s.mem := by
  have hset : ∀ (c : Prop) [Decidable c] (f : Store → Store), (if c then s.onStore f else s).mem = s.mem := by
    intro c _ f
    split <;> rfl
  unfold inputConfigOp
  dsimp only
  split
  · exact hset _ _
  · exact (foldl_keeps (fun u : State => u.mem) _ (fun u i => setInput_mem p u i) _ _).trans (hset _ _)

@[simp] theorem nmReleaseOp_mem (p : Packet) (s : State) : (nmReleaseOp.run p s).s.mem = s.mem := by
  unfold nmReleaseOp
  refine foldl_keeps (fun u : State => u.mem) _ (fun u n => ?_) _ _
  rw [releaseNet_mem, setUser_mem]

theorem unlockValves_mem (l : List Nat) (a : State × Bool) :
    (l.foldl (fun a o => let (s, k) := unlockValveOut a.1 o; (s, a.2 || k)) a).1.mem = a.1.mem := by
  refine foldl_same (fun a : State × Bool => a.1.mem) _ (fun a o => ?_) _ _
  exact unlockValveOut_mem a.1 o

@[simp] theorem valveConfigOp_mem (p : Packet) (s : State) : (valveConfigOp.run p s).s.mem = s.mem := by
  unfold valveConfigOp
  dsimp only
  split
  · rfl
  · exact (unlockValves_mem ..).trans (onStore_mem ..)

@[simp] theorem loadConfigOp_mem (p : Packet) (s : State) : (loadConfigOp.run p s).s.mem = s.mem := by
  unfold loadConfigOp
  dsimp only
  split
  · rfl
  · exact (onStore_mem ..).trans (foldl_keeps (fun u : State => u.mem) _ (fun u ch => keepGrid_mem u ch) _ _)

@[simp] theorem loadUnlockOp_mem (p : Packet) (s : State) : (loadUnlockOp.run p s).s.mem = s.mem := by
  have hrun := unlockRun_mem p (p.bit 24 0) (bitList 56 (p.num 16 7)) s
  unfold loadUnlockOp
  dsimp only
  split
  · exact (waitMoved_mem ..).trans hrun
  · exact hrun

@[simp] theorem loadShedOp_mem (p : Packet) (s : State) : (loadShedOp.run p s).s.mem = s.mem := by
  unfold loadShedOp
  dsimp only
  split
  · rfl
  · refine (foldl_keeps (fun u : State => u.mem) _ (fun u b => queueStep_mem u b) _ _).trans ?_
    exact (foldl_keeps (fun u : State => u.mem) _ (fun u ch => relevel_mem u ch) _ _).trans (onStore_mem ..)

@[simp] theorem signOp_canon (p : Packet) (s : State) (h : Canon s.mem) : Canon (signOp.run p s).s.mem := by
  unfold signOp
  dsimp only
  (repeat' split)
  all_goals simp [h]

@[simp] theorem canCancelOp_canon (p : Packet) (s : State) (h : Canon s.mem) : Canon (canCancelOp.run p s).s.mem := by
  simp [canCancelOp, h]

@[simp] theorem logSealOp_canon (p : Packet) (s : State) (h : Canon s.mem) : Canon (logSealOp.run p s).s.mem := by
  unfold logSealOp
  dsimp only
  split_ifs <;> simp [h]

@[simp] theorem sysCharterOp_canon (p : Packet) (s : State) (h : Canon s.mem) : Canon (sysCharterOp.run p s).s.mem := by
  unfold sysCharterOp
  dsimp only
  (repeat' split)
  all_goals simp [h]

@[simp] theorem captureStartOp_canon (p : Packet) (s : State) (h : Canon s.mem) : Canon (captureStartOp.run p s).s.mem := by
  unfold captureStartOp
  dsimp only
  split_ifs <;> simp [h]

@[simp] theorem imageTrialOp_canon (p : Packet) (s : State) (h : Canon s.mem) : Canon (imageTrialOp.run p s).s.mem := by
  unfold imageTrialOp
  dsimp only
  split_ifs <;> simp [h]

@[simp] theorem attestOp_canon (p : Packet) (s : State) (h : Canon s.mem) : Canon (attestOp.run p s).s.mem := by
  unfold attestOp
  dsimp only
  split <;> simp [h]

@[simp] theorem motorRunOp_canon (p : Packet) (s : State) (h : Canon s.mem) : Canon (motorRunOp.run p s).s.mem := by
  unfold motorRunOp
  dsimp only
  (repeat' split)
  all_goals simp [h]

@[simp] theorem canConfigOp_canon (p : Packet) (s : State) (h : Canon s.mem) : Canon (canConfigOp.run p s).s.mem := by
  unfold canConfigOp
  dsimp only
  split_ifs <;> simp [h]

@[simp] theorem logReadOp_canon (p : Packet) (s : State) (h : Canon s.mem) : Canon (logReadOp.run p s).s.mem := by
  unfold logReadOp
  dsimp only
  split <;> simp [h]

@[simp] theorem keyUnwrapOp_canon (p : Packet) (s : State) (h : Canon s.mem) : Canon (keyUnwrapOp.run p s).s.mem := by
  unfold keyUnwrapOp
  dsimp only
  (repeat' split)
  all_goals simp [h]

@[simp] theorem keyInfoOp_canon (p : Packet) (s : State) (h : Canon s.mem) : Canon (keyInfoOp.run p s).s.mem := by
  unfold keyInfoOp
  dsimp only
  split_ifs <;> simp [h]

@[simp] theorem captureStopOp_canon (p : Packet) (s : State) (h : Canon s.mem) : Canon (captureStopOp.run p s).s.mem := by
  unfold captureStopOp
  dsimp only
  split <;> simp [h]

@[simp] theorem hashOp_canon (p : Packet) (s : State) (h : Canon s.mem) : Canon (hashOp.run p s).s.mem := by
  unfold hashOp
  dsimp only
  split <;> simp [h]

@[simp] theorem valveFireOp_canon (p : Packet) (s : State) (h : Canon s.mem) : Canon (valveFireOp.run p s).s.mem := by
  unfold valveFireOp
  dsimp only
  (repeat' split)
  all_goals simp [h]

@[simp] theorem watchConfigOp_mem (p : Packet) (s : State) : (watchConfigOp.run p s).s.mem = s.mem := by
  have hselect := foldl_keeps State.mem setSelector (fun u e => setSelector_mem u e) (watchSelectors p) s
  unfold watchConfigOp
  dsimp only
  split
  · rfl
  · split
    · split
      · rfl
      · exact applyDump_mem ..
    · exact hselect

@[simp] theorem linConfigOp_canon (p : Packet) (s : State) (h : Canon s.mem) : Canon (linConfigOp.run p s).s.mem :=
  ite_canon h (linReset_canon (h := h) ..)

@[simp] theorem imageDataOp_canon (p : Packet) (s : State) (h : Canon s.mem) : Canon (imageDataOp.run p s).s.mem := by
  unfold imageDataOp
  dsimp only
  split
  · exact h
  · split
    · exact h
    · split
      · exact canon_of_mem (writeChunk_mem ..) h
      · split
        · exact engineRun_canon (h := h) ..
        · rw [writeChunk_mem]
          exact engineRun_canon (h := h) ..

/-- A poll that starts, or does not, keeps memory canonical. -/
theorem pollRes_canon (p : Packet) (s : State) (x : Poll) (m : Option Nat) (h : Canon s.mem) :
    Canon (match startPoll s x m with
      | (s, some st) => ({ s := s, st := some st } : Res)
      | (s, none) => { s := writePending s p, st := none }).s.mem := by
  have hstarted := canon_of_mem (startPoll_mem s x m) h
  split
  · next hstart =>
    rw [hstart] at hstarted
    exact hstarted
  · next hstart =>
    rw [hstart] at hstarted
    exact writePending_canon (h := hstarted) ..

@[simp] theorem tokenEnrollOp_canon (p : Packet) (s : State) (h : Canon s.mem) : Canon (tokenEnrollOp.run p s).s.mem := by
  unfold tokenEnrollOp
  dsimp only
  split_ifs
  · exact h
  · exact h
  · exact h
  · exact pollRes_canon (h := h) ..
  · exact canon_of_mem (writeToken_mem ..) h

@[simp] theorem accessPollOp_canon (p : Packet) (s : State) (h : Canon s.mem) : Canon (accessPollOp.run p s).s.mem := by
  unfold accessPollOp
  dsimp only
  split_ifs
  · exact h
  · exact h
  · exact pollRes_canon (h := h) ..

@[simp] theorem replayRunOp_canon (p : Packet) (s : State) (h : Canon s.mem) : Canon (replayRunOp.run p s).s.mem := by
  unfold replayRunOp
  dsimp only
  split
  · exact h
  · split
    · rw [emptyRing63_mem]
      exact writePending_canon (h := h) ..
    · split
      · exact beginReplay_canon (h := writePending_canon (h := h) ..) ..
      · exact h

/-- An opcode keeps memory canonical. -/
def Op.KeepsCanon (o : Op) : Prop := ∀ (p : Packet) (s : State), Canon s.mem → Canon (o.run p s).s.mem

theorem keepsCanon_of_mem {o : Op} (h : ∀ p s, (o.run p s).s.mem = s.mem) : o.KeepsCanon := fun p s hs => canon_of_mem (h p s) hs

theorem opsLow_keepCanon : ∀ o ∈ opsLow, o.KeepsCanon := by
  simp only [opsLow, List.forall_mem_cons, List.not_mem_nil, false_imp_iff, implies_true, and_true]
  and_intros
  all_goals exact fun p s h => by simp [h]

theorem opsMid_keepCanon : ∀ o ∈ opsMid, o.KeepsCanon := by
  simp only [opsMid, List.forall_mem_cons, List.not_mem_nil, false_imp_iff, implies_true, and_true]
  and_intros
  all_goals exact fun p s h => by simp [h]

theorem opsHigh_keepCanon : ∀ o ∈ opsHigh, o.KeepsCanon := by
  simp only [opsHigh, List.forall_mem_cons, List.not_mem_nil, false_imp_iff, implies_true, and_true]
  and_intros
  all_goals exact fun p s h => by simp [h]

theorem unlistedOp_keepsCanon (n : Nat) : (unlistedOp n).KeepsCanon := fun _ _ h => h

theorem opOf_keepsCanon {n : Nat} {o : Op} (h : opOf n = some o) : o.KeepsCanon := by
  have hmem : o ∈ opsLow ++ opsMid ++ opsHigh := List.mem_of_find?_eq_some h
  simp only [List.mem_append] at hmem
  obtain (hlow | hmid) | hhigh := hmem
  · exact opsLow_keepCanon o hlow
  · exact opsMid_keepCanon o hmid
  · exact opsHigh_keepCanon o hhigh

/-- The opcode of a code, listed or not, keeps memory canonical. -/
theorem opGiven_keepsCanon (n : Nat) : ((opOf n).getD (unlistedOp n)).KeepsCanon := by
  rcases hop : opOf n with _ | o
  · exact unlistedOp_keepsCanon n
  · exact opOf_keepsCanon hop

theorem carryOut_canon {o : Op} (ho : o.KeepsCanon) (p : Packet) (s : State) (h : Canon s.mem) : Canon (carryOut o p s).s.mem := by
  unfold carryOut
  split
  · exact h
  · exact ho p s h

theorem executeOp_canon {o : Op} (ho : o.KeepsCanon) (p : Packet) (s : State) (h : Canon s.mem) : Canon (executeOp o p s).s.mem := by
  rcases executeOp_state o p s with hstate | hstate
  · rw [hstate]
    exact h
  · rw [hstate]
    exact ho p s h

theorem finishRun_canon (r : Res) (p : Packet) (late : Bool) (ticks : Nat) (h : Canon r.s.mem) : Canon (finishRun r p late ticks).mem := by
  have hanswered : Canon (match r.st with
      | none => r.s
      | some st => completeNow r.s p (lateStatus late st) r.reply).mem := by
    split
    · exact h
    · exact completeNow_canon (h := h) ..
  exact ite_canon (canon_of_mem (noteLate_mem ..) hanswered) hanswered

theorem fastExecute_canon {o : Op} (ho : o.KeepsCanon) (p : Packet) (s : State) (h : Canon s.mem) : Canon (fastExecute o p s).mem :=
  finishRun_canon _ _ _ _ (executeOp_canon ho p _ (canon_of_mem (counted_mem s p) h))

theorem runFast_canon {o : Op} (ho : o.KeepsCanon) (p : Packet) (s : State) (h : Canon s.mem) : Canon (runFast o p s).mem :=
  ite_canon (refuseLive_canon (h := h) ..) (ite_canon h (ite_canon (fastHold_canon (h := h) ..)
    (ite_canon (moveFast_canon (h := h) ..) (fastExecute_canon ho p s h))))

theorem fastTake_canon {o : Op} (ho : o.KeepsCanon) (p : Packet) (s : State) (h : Canon s.mem) : Canon (fastTake o p s).mem :=
  ite_canon h (ite_canon (runFast_canon ho p s h) (ite_canon (runFast_canon ho p _ (canon_of_mem (admitPacket_mem p s) h)) h))

theorem keeperExecute_canon {o : Op} (ho : o.KeepsCanon) (p : Packet) (s : State) (h : Canon s.mem) : Canon (keeperExecute o p s).mem :=
  finishRun_canon _ _ _ _ (executeOp_canon ho p _ (canon_of_mem (release_mem s p) h))

theorem runKeeper_canon {o : Op} (ho : o.KeepsCanon) (p : Packet) (s : State) (h : Canon s.mem) : Canon (runKeeper o p s).mem :=
  ite_canon (refuseLive_canon (h := h) ..) (ite_canon h (ite_canon (canon_of_mem (keeperHold_mem p s) h)
    (ite_canon (canon_of_mem (keeperFinish_mem p s) h) (keeperExecute_canon ho p s h))))

theorem keeperTake_canon {o : Op} (ho : o.KeepsCanon) (p : Packet) (s : State) (h : Canon s.mem) : Canon (keeperTake o p s).mem :=
  ite_canon h (ite_canon (runKeeper_canon ho p s h) (ite_canon (runKeeper_canon ho p _ (canon_of_mem (admitPacket_mem p s) h)) h))

@[simp] theorem runTurn_canon (s : State) (p : Packet) (h : Canon s.mem) : Canon (runTurn s p).mem := by
  unfold runTurn
  refine ite_canon h ?_
  split
  · exact keeperExecute_canon (unlistedOp_keepsCanon _) p s h
  · next hop =>
    have ho := opOf_keepsCanon hop
    exact ite_canon (keeperExecute_canon ho p s h) (ite_canon (moveFast_canon (h := h) ..) (fastExecute_canon ho p s h))

@[simp] theorem runTurns_canon (s : State) (h : Canon s.mem) : Canon (runTurns s).mem :=
  foldl_canon (fun u p hu => runTurn_canon u p hu) (turnList s) h

@[simp] theorem applySets_canon (s : State) (h : Canon s.mem) : Canon (applySets s).mem :=
  ite_canon (foldl_canon (fun u p hu => ite_canon (keeperExecute_canon (keepsCanon_of_mem timeSetOp_mem) p u hu) hu) (turnList s) h) h

theorem foldFlight_canon (f : Flight) (l : List Packet) (s : State) (done : List (Packet × Status × Reply)) (h : Canon s.mem) :
    Canon (foldFlight f l s done).1.mem := by
  induction l generalizing s done with
  | nil => exact h
  | cons p l ih =>
    have hcarried := carryOut_canon (opGiven_keepsCanon p.opcode) (flightPacket f p) s h
    unfold foldFlight
    dsimp only
    split
    · exact ih _ _ hcarried
    · exact ih _ _ hcarried

@[simp] theorem applyFlight_canon (s : State) (r : Nat) (f : Flight) (h : Canon s.mem) : Canon (applyFlight s r f).mem := by
  have hfolded := foldFlight_canon f f.members (keepSettings s) [] (canon_of_mem (keepSettings_mem s) h)
  unfold applyFlight
  split
  · exact rejectFlight_canon (h := h) ..
  · split
    · exact completeMembers_canon (h := canon_of_mem (endFlight_mem ..) hfolded) ..
    · exact rejectFlight_canon (h := h) ..

@[simp] theorem applyRing_canon (s : State) (r : Nat) (h : Canon s.mem) : Canon (applyRing s r).mem :=
  foldl_canon (fun u f hu => applyFlight_canon u r f hu) ((s.ring r).flights.filter (flightReady s)) h

theorem applyFrom_canon (l : List Nat) (s : State) (h : Canon s.mem) : Canon (applyFrom l s).mem := by
  induction l generalizing s with
  | nil => exact h
  | cons r l ih =>
    have happlied := applyRing_canon s r h
    exact ite_canon happlied (ih _ happlied)

@[simp] theorem applyFlights_canon (s : State) (h : Canon s.mem) : Canon (applyFlights s).mem := applyFrom_canon _ s h

@[simp] theorem startWork_canon (s : State) (h : Canon s.mem) : Canon (startWork s).mem := applyFlights_canon _ (applySets_canon s h)

@[simp] theorem endWork_canon (s : State) (h : Canon s.mem) : Canon (endWork s).mem := by
  unfold endWork
  rw [sealTick_mem, endRelease_mem, endFaulted_mem]
  refine answerReads_canon _ (settleLates_canon _ ?_)
  rw [timerSteps_mem, patternUpdates_mem]
  refine runTurns_canon _ (endFlights_canon _ ?_)
  rw [reflexTick_mem]
  refine releases_canon _ ?_
  rw [captureCheckpoint_mem]
  exact startWork_canon s h

@[simp] theorem finishTick_canon (s : State) (h : Canon s.mem) : Canon (finishTick s).mem := ite_canon (endWork_canon s h) h

@[simp] theorem flightApply_canon (s : State) (r : Nat) (h : Canon s.mem) : Canon (flightApply s r).mem := by
  have hfinished := canon_of_mem (finishFlight_mem s r) h
  exact ite_canon (applyFlights_canon _ hfinished) hfinished

@[simp] theorem tickOn_canon (s : State) (h : Canon s.mem) : Canon (tickOn s).mem := by
  have hfinished := finishTick_canon s h
  have hstepped := tickStep_canon _ hfinished
  refine ite_canon (startWork_canon _ ?_) (ite_canon (startWork_canon _ hstepped) hstepped)
  rw [startEpoch_mem]
  exact lastTick_canon _ hfinished

@[simp] theorem tick_canon (s : State) (h : Canon s.mem) : Canon (tick s).mem := by
  refine lfTick_canon _ (ite_canon ?_ (tickOn_canon s h))
  rw [diesTick_mem]
  exact h

@[simp] theorem catchUp_canon (s : State) (h : Canon s.mem) : Canon (catchUp s).mem := by
  have hreset := runResets_canon _ (canon_of_mem (settleTick_mem _) (endWork_canon s h))
  unfold catchUp
  dsimp only
  split
  · refine startWork_canon _ ?_
    rw [onPlane_mem, actNext_mem]
    exact hreset
  · exact hreset

@[simp] theorem landingRelease_canon (s : State) (l t : Nat) (h : Canon s.mem) : Canon (landingRelease s l t).mem := by
  have hcaught := catchUp_canon s h
  exact ite_canon (ite_canon (releaseTick_canon (h := h) ..) (ite_canon (ite_canon (releaseTick_canon (h := hcaught) ..) hcaught) h)) h

@[simp] theorem epochRollover_canon (s : State) (h : Canon s.mem) : Canon (epochRollover s).mem := by
  refine ite_canon (startWork_canon _ ?_) h
  rw [startEpoch_mem]
  exact lastTick_canon _ (finishTick_canon s h)

@[simp] theorem completeStart_canon (s : State) (kind : StartKind) (target : Nat) (h : Canon s.mem) : Canon (completeStart s kind target).mem := by
  unfold completeStart
  extract_lets store _ pins loaded sealed ticks failed adopts free seq beam lantern cause posted adopted logged blocked
  have hloaded : Canon loaded.mem := by simp [loaded, pins, store, h]
  clear_value loaded
  have hsealed : Canon sealed.mem := ite_canon (canon_of_mem (writeSeal_mem _) hloaded) hloaded
  clear_value sealed
  have hfree : Canon free.mem := canon_of_mem (leaveHold_mem sealed) hsealed
  clear_value free
  have hseq : Canon seq.mem := hfree
  clear_value seq
  have hbeam : Canon beam.mem := ite_canon (enterBeam_canon (h := hseq) ..) hseq
  clear_value beam
  have hlantern : Canon lantern.mem := ite_canon hbeam (canon_of_mem (enterLantern_mem _) hbeam)
  clear_value lantern
  have hposted : Canon posted.mem := ite_canon hlantern (canon_of_mem (logDevice_mem ..) (canon_of_mem (postEvent_mem ..) hlantern))
  clear_value posted
  have hadopted : Canon adopted.mem := ite_canon (canon_of_mem (noteAdopt_mem ..) hposted) hposted
  clear_value adopted
  have hlogged : Canon logged.mem := ite_canon (canon_of_mem (logDevice_mem ..) hadopted) hadopted
  clear_value logged
  have hblocked : Canon blocked.mem := ite_canon (canon_of_mem (blockRelease_mem ..) hlogged) hlogged
  rw [postEndEvents_mem, noteLock_mem]
  exact hblocked

@[simp] theorem restart_canon (s : State) (kind : StartKind) (h : Canon s.mem) : Canon (restart s kind).mem := by
  unfold restart
  refine ite_canon rfl (completeStart_canon _ _ _ ?_)
  simp [h]

@[simp] theorem firstPowerUp_canon (s : State) (mv : Nat) (h : Canon s.mem) : Canon (firstPowerUp s mv).mem :=
  ite_canon (restart_canon (h := canon_of_mem (noteVbatl_mem s mv) h) ..) h

@[simp] theorem enterAwake_canon (s : State) (target : Nat) (h : Canon s.mem) : Canon (enterAwake s target).mem := by
  have hstarted := canon_of_mem (startHalls_mem s) h
  refine ite_canon rfl ?_
  rw [keepPoll_mem]
  exact completeStart_canon (h := ite_canon hstarted (canon_of_mem (bootKeeperPair_mem _) hstarted)) ..

@[simp] theorem stateEntry_canon (s : State) (target : Nat) (h : Canon s.mem) : Canon (stateEntry s target).mem := by
  unfold stateEntry
  (repeat' split)
  all_goals simp [h]

end Sys2Proof.Machine

namespace Sys2Proof.Machine

open Sys2Proof.Claims

/-! Every command keeps memory canonical. -/

theorem keepsCanon_of_keeperRow {c : Instr} {o : Op} {p : Packet} (h : keeperRow c = some (o, p)) : o.KeepsCanon := by
  cases c
  all_goals simp only [keeperRow, Option.some.injEq, Prod.mk.injEq, reduceCtorEq] at h
  all_goals
    obtain ⟨rfl, rfl⟩ := h
    exact fun p s hs => by simp [hs]

theorem keepsCanon_of_fastRow {c : Instr} {o : Op} {p : Packet} (h : fastRow c = some (o, p)) : o.KeepsCanon := by
  cases c
  all_goals simp only [fastRow, Option.some.injEq, Prod.mk.injEq, reduceCtorEq] at h
  all_goals
    obtain ⟨rfl, rfl⟩ := h
    exact fun p s hs => by simp [hs]

/-- The memory of the state that a command answers, where it answers one, is canonical. -/
def AnswersCanon (a : Answer) : Prop := ∀ t, a = .next t → Canon t.mem

theorem effect_answersCanon {s u : State} (h : Canon u.mem) : AnswersCanon (effect s u) := by
  intro t ht
  cases ht
  exact h

theorem rated_answersCanon {s u : State} {mv : Nat} (h : Canon u.mem) : AnswersCanon (rated s mv u) := by
  unfold rated
  split
  · exact fun _ ht => nomatch ht
  · exact effect_answersCanon h

/-- The command of a supply's voltage. -/
theorem exec_supply_answersCanon (c : Instr) (s : State) (hmv : suppliedMv c ≠ none) (h : Canon s.mem) : AnswersCanon (exec c s) := by
  cases c
  all_goals simp only [suppliedMv, ne_eq, reduceCtorEq, not_true_eq_false, not_false_eq_true] at hmv
  all_goals refine rated_answersCanon ?_
  case vbatlLogicReset mv => exact ite_canon (assertLogic_canon (h := canon_of_mem (noteVbatl_mem s mv) h) ..) h
  all_goals (repeat' split)
  all_goals simp [h]

/-- An event command that names no supply: neither the keeper nor the dispatcher takes a listed packet by it. -/
theorem exec_event_answersCanon (c : Instr) (s : State) (hkeeper : keeperRow c = none) (hfast : fastRow c = none) (hmv : suppliedMv c = none)
    (h : Canon s.mem) : AnswersCanon (exec c s) := by
  cases c
  all_goals simp only [keeperRow, fastRow, suppliedMv, reduceCtorEq] at hkeeper hfast hmv
  all_goals refine effect_answersCanon ?_
  case unknownOpcode p => exact ite_canon h (keeperTake_canon (unlistedOp_keepsCanon _) p s h)
  case ivgalEnum p =>
    have htaken := keeperTake_canon (keepsCanon_of_mem ivgalEnumOp_mem) p s h
    exact ite_canon (canon_of_mem (enumRequest_mem ..) htaken) htaken
  case ringSizeWrite =>
    exact ite_canon (canon_of_mem (shadowAccess_mem _ _ _ _ (shadowSize_mem ..)) h) (canon_of_mem (ringSize_mem ..) h)
  all_goals (repeat' split)
  all_goals simp [h]

theorem exec_answersCanon (c : Instr) (s : State) (h : Canon s.mem) : AnswersCanon (exec c s) := by
  rcases hkeeper : keeperRow c with _ | ⟨o, p⟩
  · rcases hfast : fastRow c with _ | ⟨o, p⟩
    · by_cases hmv : suppliedMv c = none
      · exact exec_event_answersCanon c s hkeeper hfast hmv h
      · exact exec_supply_answersCanon c s hmv h
    · rw [exec_fastRow hfast]
      exact effect_answersCanon (fastTake_canon (keepsCanon_of_fastRow hfast) p s h)
  · rw [exec_keeperRow hkeeper]
    exact effect_answersCanon (keeperTake_canon (keepsCanon_of_keeperRow hkeeper) p s h)

/-- Settles O6: whatever a command does to memory it does byte by byte, and each byte written keeps the list in order and free of zeros. -/
theorem memoryStaysCanonical : Obligations.MemoryStaysCanonical := by
  intro s t h hstep
  rcases hpending : s.pending with _ | ⟨c, rest⟩
  · rw [step, hpending] at hstep
    cases hstep
    exact h
  · rw [step, hpending] at hstep
    have hmem : Canon ({ s with pending := rest } : State).mem := h
    exact exec_answersCanon c _ hmem t hstep

end Sys2Proof.Machine
